-- ==== Sys2Proof/Word.lean ====
section
/-!
DEFINITION. The word types of the FBX-1024 model: bytes, byte strings and the sparse table.
-/

namespace Sys2Proof

/-- One byte; bit 0 is the least significant bit (R6). -/
abbrev Byte := BitVec 8

/-- A byte string, first byte first. Object layouts and registers are little-endian, packets big-endian (R7). -/
abbrev Bytes := List Byte

/-- A sparse table: keys strictly rising, no entry equal to what an unlisted key reads as. -/
abbrev Store (α : Type) := List (Nat × α)

end Sys2Proof
end

