-- ==== Sys2Proof/Syntax.lean ====
section
/-!
DEFINITION. The commands of the model: one constructor per row of the opcode table, with the operands that row carries.
Units are named by the numbers of R10; an operand that names a unit ranges over the units that exist.
-/

namespace Sys2Proof

abbrev Lane := Fin 1024
abbrev Port := Fin 1024
abbrev Pipe := Fin 64
abbrev StageNo := Fin 24
abbrev Quad := Fin 4
abbrev LaneDie := Fin 8
abbrev Domain' := Fin 4
abbrev Engine := Fin 16
abbrev SlotNo := Fin 32
abbrev RingNo := Fin 64
abbrev LinkNo := Fin 6
abbrev LinkDir := Fin 12

/-- A command descriptor as Icoux takes it (R459), with what the host answers: the payload it reads, and whether the
payload read and the reply write succeed (R481). `tailZero` says that the inline bytes beyond payload_len are zero. -/
structure Cmd where
  slot : SlotNo
  tag : BitVec 16 := 0
  flags : BitVec 8 := 0
  reservedZero : Bool := true
  payloadLen : BitVec 16 := 0
  replyMax : BitVec 16 := 0
  replyAddr : BitVec 64 := 0
  payloadAddr : BitVec 64 := 0
  payload : Bytes := []
  tailZero : Bool := true
  readOk : Bool := true
  writeOk : Bool := true
deriving DecidableEq, Repr

/-- What a firmware slot of the flash holds, as the checks of R529 see it: `check` is the failing check's code, 0 for none. -/
structure FwImage where
  check : Nat := 1
  version : Nat := 0
  security : Nat := 0
  raiseMinimum : Bool := false
  stateFormat : Nat := 0
  adoptFrom : Nat := 0
deriving DecidableEq, Repr

/-- What the boot flash holds when it has been programmed from outside: the two slots and whether each copy of the data area is
valid (R527). -/
structure FlashIn where
  slot0 : FwImage := {}
  slot1 : FwImage := {}
  copyA : Bool := false
  copyB : Bool := false
deriving DecidableEq, Repr

/-- A row of a stage's memories: of an exact-match unit, of a ternary block, or of a block's result RAM (R149). -/
inductive RowRef
  | exact (unit : Fin 16) (row : Fin 4096)
  | ternary (block : Fin 4) (row : Fin 1024)
  | result (block : Fin 4) (row : Fin 1024)
deriving DecidableEq, Repr

/-- What Icoux measures and estimates for one control cycle (R398, R399, R405), in mW: the package, the four classes, each
quadrant's COMPUTE power and its static estimate, and the estimated saving of 10 points of spill limit. -/
structure PowerIn where
  package : Nat := 0
  compute : Nat := 0
  memory : Nat := 0
  links : Nat := 0
  fixed : Nat := 0
  quadCompute : List Nat := []
  quadStatic : List Nat := []
  memStep : Nat := 0
deriving DecidableEq, Repr


inductive Instr
  /-- CLOCK_SOURCE_SWITCH (R13). Loss of a quadrant's LD(2q) reference makes its core PLL switch to the LD(2q+1) reference and raise the time-block clock-source event. -/
  | clockSourceSwitch (q : Quad)
  /-- RATE_ALLOWANCE_REFILL (R573). Every 1 ms of the quadrant reference, each rate limiter's allowance gains pps thousandths, up to its cap. -/
  | rateAllowanceRefill (q : Quad)
  /-- BACKGROUND_PERIOD_END (R32). A background or scheduled task reaches the nominal end of its period; late work continues and the task's overrun counter increments. -/
  | backgroundPeriodEnd (q : Quad) (task : Fin 6)
  /-- BACKGROUND_SLOT_GRANT (R29). An at-risk background task is given its guaranteed 1 slot in 16, and a foreground request that meets that slot waits. -/
  | backgroundSlotGrant (e : Option Engine) (offset : Option Nat) (complete : Bool)
  /-- TIME_ADVANCE (R35). On a core tick, each copy of each enabled time domain adds its increment, carrying into nanoseconds and seconds. -/
  | timeAdvance (q : Quad)
  /-- ALIGNMENT_STROBE (R43). Every 1,024 Q0 ticks, Q0 sends master time and tagged writes to the replicas, which trim their increments and apply the tagged writes. -/
  | alignmentStrobe (heard : Fin 8)
  /-- STROBE_MISSING (R66). No strobe reaches a replica for 4 periods, so TIME_ALIGN is raised and the replica hard-aligns at the next strobe it receives. -/
  | strobeMissing (q : Quad)
  /-- REFCLK_WINDOW (R40). At the end of each 1 ms window in REFCLK, the hardware sets the domain's rate from the measured reference, or enters or leaves holdover. -/
  | refclkWindow (d : Domain') (present : Bool) (rate : Int)
  /-- TIME_DOMAIN_WRITE (R38). Command that writes a TIME_DOMAIN object, applied to all four copies at the next strobe. -/
  | timeDomainWrite (c : Cmd)
  /-- TIME_DOMAIN_READ (R38). Command that reads a TIME_DOMAIN object. -/
  | timeDomainRead (c : Cmd)
  /-- TIME_ADJUST (R41). Command that performs a SET, STEP, SLEW or RATE adjustment of one domain at a strobe and returns the master time. -/
  | timeAdjust (c : Cmd)
  /-- SLEW_END (R42). A running slew reaches the end of its duration and its rate addition is removed. -/
  | slewEnd (d : Domain')
  /-- TIME_GET (R518). Command that returns the master time and flags of one domain. -/
  | timeGet (c : Cmd)
  /-- PLL_LOCK_REPORT (R45). A core PLL reports lock at the new or old frequency during a clock-profile change, so copies return to core ticks at the next strobe. -/
  | pllLockReport (q : Quad)
  /-- PROFILE_SWITCH_DONE (R45). The replica loops have reconverged after a profile change, so the change completes and is logged. -/
  | profileSwitchDone
  /-- PROFILE_SWITCH_TIMEOUT (R45). The core PLLs have not locked 100 µs after a profile change, so the command completes with TIMEOUT and the old increments are staged again. -/
  | profileSwitchTimeout
  /-- PLL_RELOCK_RETRY (R45). Every 10 ms while a PLL has not relocked at the old frequency, Icoux retries the relock. -/
  | pllRelockRetry
  /-- PORT_TIME_WRITE (R49). Command that writes a port's PORT_TIME object. -/
  | portTimeWrite (c : Cmd)
  /-- PORT_TIME_READ (R49). Command that reads a port's PORT_TIME object. -/
  | portTimeRead (c : Cmd)
  /-- TWOSTEP_READ (R512). Command that takes records from a pipeline's two-step FIFO. -/
  | twostepRead (c : Cmd)
  /-- TIME_PIN_WRITE (R53). Command that writes a TIME_PIN object. -/
  | timePinWrite (c : Cmd)
  /-- TIME_PIN_READ (R53). Command that reads a TIME_PIN object. -/
  | timePinRead (c : Cmd)
  /-- PIN_EDGE_CAPTURE (R54). An accepted edge on an enabled input pin is timestamped into its capture FIFO, or counted as an overflow. -/
  | pinEdgeCapture (p : Fin 4) (rising short : Bool) (err : Int)
  /-- CAPTURE_READ (R512). Command that takes records from an input pin's capture FIFO. -/
  | captureRead (c : Cmd)
  /-- PIN_PULSE_END (R55). An output pulse reaches the end of its width and the pin returns to its inactive level. -/
  | pinPulseEnd (p : Fin 10)
  /-- FIRING_ENTRY_WRITE (R57). Command that writes one firing entry of a domain, applied on all dies at the next strobe. -/
  | firingEntryWrite (c : Cmd)
  /-- FIRING_ENTRY_READ (R57). Command that reads one firing entry of a domain. -/
  | firingEntryRead (c : Cmd)
  /-- FIRING_STATUS (R65). Command that returns an entry's next instant and its lag, skip and fire counts. -/
  | firingStatus (c : Cmd)
  /-- COUNTER_FREEZE (R374). A COUNTER_FREEZE entry fires on a die; on-die counters latch, the counter cache starts a new epoch and the sweep begins. -/
  | counterFreeze (q : Quad) (d : Domain') (i : Fin 512)
  /-- HISTOGRAM_ROLLOVER (R383). A HISTOGRAM_ROLLOVER entry fires; live histograms restart at zero and the closing sweep begins. -/
  | histogramRollover (q : Quad) (d : Domain') (i : Fin 512)
  /-- GATE_CYCLE (R361). A GATE_CYCLE entry fires for a port; the gate list restarts at entry 0 and a staged list due at this boundary applies. -/
  | gateCycle (d : Domain') (i : Fin 512)
  /-- PIN_PULSE (R55). A PIN_PULSE entry fires and starts its output pulse, clearing enable for a one-shot entry. -/
  | pinPulse (d : Domain') (i : Fin 512)
  /-- POWER_CYCLE (R412). A POWER_CYCLE entry with argument 0 fires, and Icoux runs the power control cycle that steps or releases actuators. -/
  | powerCycle (q : Quad) (d : Domain') (i : Fin 512) (m : PowerIn)
  /-- SCRUB_EPOCH (R300). A SCRUB_EPOCH entry fires and starts a scrub pass of its class as background work. -/
  | scrubEpoch (q : Quad) (d : Domain') (i : Fin 512)
  /-- TELEMETRY_EPOCH (R391). A TELEMETRY_EPOCH entry fires and the exporter sends any partly filled export frame. -/
  | telemetryEpoch (q : Quad) (d : Domain') (i : Fin 512)
  /-- TIME_STORE (R66). An uncorrectable error in a firing entry or time register; the entry is reloaded or the copy hard-aligned. -/
  | timeStore (d : Domain') (hit : Fin 5) (i : Fin 512)
  /-- LANE_CONFIG_WRITE (R70). Command that writes a LANE_CONFIG object, subject to the lane being down for mode, flags and coefficients. -/
  | laneConfigWrite (c : Cmd)
  /-- LANE_CONFIG_READ (R70). Command that reads a LANE_CONFIG object. -/
  | laneConfigRead (c : Cmd)
  /-- LANE_STATUS (R96). Command that returns a lane's LANE_STATUS. -/
  | laneStatus (c : Cmd)
  /-- LANE_TEST_WRITE (R87). Command that sets loopback, pattern generator, checker and error injection for a lane or port. -/
  | laneTestWrite (c : Cmd)
  /-- LANE_TEST_READ (R87). Command that reads a LANE_TEST object. -/
  | laneTestRead (c : Cmd)
  /-- EYE_SCAN (R91). Command that starts an eye scan on a lane. -/
  | eyeScan (c : Cmd)
  /-- EYE_SCAN_ABORT (R92). Command that aborts a running eye scan. -/
  | eyeScanAbort (c : Cmd)
  /-- EYE_STATUS (R94). Command that returns the status and grid of a lane's eye scan. -/
  | eyeStatus (c : Cmd)
  /-- EYE_RESULT (R94). Command that returns one page of eye-scan points. -/
  | eyeResult (c : Cmd)
  /-- EYE_POINT_DONE (R93). The offset sampler completes the dwell of one eye-scan point, or stops it early, and moves to the next point or ends the scan. -/
  | eyePointDone (l : Lane) (compared errors : Nat)
  /-- LANE_REFCLK_LOST (R74). A lane-die reference stops or drifts; the die raises bit 0, logs LANE_REFCLK_LOST and holds its transmit PLLs. -/
  | laneRefclkLost (k : LaneDie)
  /-- LANE_REFCLK_RELOCK (R74). The lane-die reference has been valid 100 µs before the holdover ends, so the PLLs relock without any lane leaving ACTIVE. -/
  | laneRefclkRelock (k : LaneDie)
  /-- LANE_REFCLK_HOLDOVER_END (R74). Transmit PLL holdover reaches 1 ms without a valid reference, so every lane of the die is squelched and enters BACKOFF with cause REFCLK. -/
  | laneRefclkHoldoverEnd (k : LaneDie)
  /-- LANE_REFCLK_RESTORED (R74). The lane-die reference has been valid for 1 ms after a squelch, so its lanes restart bring-up. -/
  | laneRefclkRestored (k : LaneDie)
  /-- SIGNAL_DETECTED (R76). Signal has been present for 1 ms on the required lanes in RX_DETECT, so the port enters AUTONEG or TRAINING. -/
  | signalDetected (p : Port)
  /-- AUTONEG_RESOLVED (R76). Clause 73 resolves a technology; the port enters TRAINING or fails with AN_NO_COMMON. -/
  | autonegResolved (p : Port) (matching : Bool)
  /-- AN_TIMEOUT (R76). AUTONEG exceeds 3 s and the attempt fails. -/
  | anTimeout (p : Port)
  /-- TRAINING_DONE (R76). Every lane of the port is trained with both receivers ready, so the port enters LOCK. -/
  | trainingDone (p : Port) (taps : List Bytes)
  /-- TRAINING_TIMEOUT (R76). TRAINING, or blind adaptation, exceeds its limit and the attempt fails. -/
  | trainingTimeout (p : Port) (l : Lane)
  /-- LOCK_ACQUIRED (R76). CDR and symbol lock are reached on every lane, so the port enters ALIGN. -/
  | lockAcquired (p : Port)
  /-- LOCK_TIMEOUT (R76). LOCK exceeds 10 ms and the attempt fails. -/
  | lockTimeout (p : Port) (l : Lane)
  /-- LINK_UP (R76). Alignment, deskew and FEC lock complete; the port enters ACTIVE, reports link up, stores snapshots and logs LANE_UP. -/
  | linkUp (p : Port)
  /-- ALIGN_TIMEOUT (R76). ALIGN exceeds 5 ms, or too many slips or too much skew occur, and the attempt fails. -/
  | alignTimeout (p : Port) (l : Lane) (skewNs : Nat)
  /-- SIGNAL_LOST (R76). A loss of signal of 2 µs during AUTONEG, TRAINING, LOCK or ALIGN fails the attempt at once. -/
  | signalLost (l : Lane)
  /-- BACKOFF_EXPIRED (R77). The back-off time ends and the port re-enters RX_DETECT. -/
  | backoffExpired (p : Port)
  /-- BACKOFF_RESET (R77). The port has been ACTIVE for 10 s, so its back-off returns to backoff_min_ms. -/
  | backoffReset (p : Port)
  /-- TRAINING_FRAME_MALFORMED (R78). A malformed training frame is ignored and counted; the eighth in 1,000 frames fails the attempt and logs PARTNER_VIOLATION. -/
  | trainingFrameMalformed (l : Lane) (control : BitVec 16) (n : Nat)
  /-- AN_PAGE_VIOLATION (R78). A Clause 73 page that violates its clause restarts Clause 73 and is counted in partner_violations. -/
  | anPageViolation (p : Port)
  /-- LINK_DOWN (R79). An ACTIVE port loses signal, lock or error rate on any lane, reports link down, and enters REACQUIRE or fails through BACKOFF. -/
  | linkDown (l : Lane) (kind : Fin 4) (signalOnAll : Bool)
  /-- REACQUIRE_DONE (R79). REACQUIRE regains lock and alignment with stored coefficients, so the port returns to ACTIVE and logs LANE_UP with the reacquired flag. -/
  | reacquireDone (p : Port)
  /-- REACQUIRE_TIMEOUT (R79). LOCK or ALIGN in REACQUIRE exceeds 50 µs and the attempt fails. -/
  | reacquireTimeout (p : Port) (l : Lane)
  /-- SYNC_HEADER_RECEIVED (R80). A 64b/66b sync header is received and the lane's block lock hunt or lock check advances. -/
  | syncHeaderReceived (l : Lane) (valid : Bool)
  /-- ALIGNMENT_MARKER_RECEIVED (R81). An alignment marker position is received and the lane's marker lock search or check advances. -/
  | alignmentMarkerReceived (l : Lane) (matching : Bool)
  /-- FEC_CODEWORD_DECODED (R82). An RS-FEC codeword is decoded, binned by symbol errors, and marked to the PCS when uncorrectable. -/
  | fecCodewordDecoded (l : Lane) (errors : Nat)
  /-- DEGRADE_WINDOW_END (R82). A 1 ms window of corrected symbols closes and is judged against degrade_threshold. -/
  | degradeWindowEnd (l : Lane)
  /-- FAR_END_LOOPBACK_BLOCK (R73). The far-end loopback elastic buffer carries a partner block onto the local clock, inserting or deleting idles or slipping a frame. -/
  | farEndLoopbackBlock (p : Port) (arrived sent gap : Bool)
  /-- PATTERN_BITS_CHECKED (R86). The checker compares received bits with its pattern, locking, counting errors or resynchronising. -/
  | patternBitsChecked (l : Lane) (good : Nat) (err sym : Bool)
  /-- ERROR_INJECTION_EVENT (R89). An injection interval elapses and one injection event of the configured kind is made on the transmit direction. -/
  | errorInjectionEvent (l : Lane)
  /-- D2D_DOUBLE_BIT_ERROR (R95). A double-bit error on a substrate bundle triggers a replay of the last 256 words. -/
  | d2dDoubleBitError (g : Pipe) (replayed : Bool)
  /-- D2D_RETRAIN_DONE (R95). The bundle retrain completes and its ports resume carrying frames. -/
  | d2dRetrainDone (g : Pipe)
  /-- LANE_PLL (R97). A lane-die transmit PLL loses lock; its 16 lanes are squelched and relocked. -/
  | lanePll (g : Pipe)
  /-- LANE_ADAPT (R97). Adaptation reaches a tap limit or the eye collapses, so the lane's last good snapshot is restored. -/
  | laneAdapt (l : Lane)
  /-- LANE_STORE (R97). An uncorrectable error in a lane die's store causes a reload from Icoux's copy and REACQUIRE. -/
  | laneStore (k : LaneDie)
  /-- PORT_CONFIG_WRITE (R101). Command that creates, changes, enables, disables or removes a port. -/
  | portConfigWrite (c : Cmd)
  /-- PORT_CONFIG_READ (R101). Command that reads a configured port's PORT_CONFIG. -/
  | portConfigRead (c : Cmd)
  /-- PORT_STATUS (R121). Command that returns a port's PORT_STATUS. -/
  | portStatus (c : Cmd)
  /-- PORT_FLOW_WRITE (R111). Command that sets a port's pause or PFC configuration. -/
  | portFlowWrite (c : Cmd)
  /-- PORT_FLOW_READ (R111). Command that reads a port's PORT_FLOW. -/
  | portFlowRead (c : Cmd)
  /-- PORT_PREEMPT_WRITE (R118). Command that sets a port's frame preemption. -/
  | portPreemptWrite (c : Cmd)
  /-- PORT_PREEMPT_READ (R118). Command that reads a port's PORT_PREEMPT. -/
  | portPreemptRead (c : Cmd)
  /-- FRAME_FILTER_WRITE (R106). Command that writes one frame pattern filter to a set of pipelines. -/
  | frameFilterWrite (c : Cmd)
  /-- FRAME_FILTER_READ (R106). Command that reads one filter of one pipeline. -/
  | frameFilterRead (c : Cmd)
  /-- RX_FRAME_HEAD (R103). A received frame reaches its 64th byte or its end and passes the ordered receive checks, filters, FIFO reservation and dispatch. -/
  | rxFrameHead (p : Port) (b : Bytes) (mark : Bool) (back : Nat) (err : Int)
  /-- RX_FRAGMENT (R105). A preemption fragment arrives and the merge sublayer reassembles it, or drops the partial frame with PREEMPT_ERROR. -/
  | rxFragment (p : Port) (kind : Fin 4) (first last : Bool) (b : Bytes) (back : Nat) (err : Int)
  /-- RX_OVERSIZE (R104). Byte max_frame + 1 of a frame arrives, so the MAC ends the frame as bad with OVERSIZE. -/
  | rxOversize (p : Port) (b : Bytes)
  /-- RX_PCS_ERROR_MARK (R104). A PCS error mark arrives within a passed frame, making it a bad frame with PCS_ERROR. -/
  | rxPcsErrorMark (p : Port)
  /-- RX_FRAME_END (R104). A received frame ends; its FCS is checked, reservations and policer charges are trimmed, and a bad frame is dropped or its copies stomped. -/
  | rxFrameEnd (p : Port) (b : Bytes)
  /-- MAC_CONTROL_FRAME (R112). A MAC control frame ends and is acted on as pause or PFC, or dropped and counted. -/
  | macControlFrame (p : Port) (b : Bytes)
  /-- OCCUPANCY_REPORT (R113). A quadrant's occupancy change reaches the ingress port's MAC, which may enter or leave XOFF and send pause or PFC. -/
  | occupancyReport (q : Quad) (p : Port)
  /-- PAUSE_REFRESH (R114). Half of the last pause time has elapsed while XOFF holds, so the MAC sends the pause frame again. -/
  | pauseRefresh (p : Port)
  /-- PAUSE_TIMER_EXPIRY (R115). A class's receive pause timer reaches zero and the scheduler may again start frames of that class. -/
  | pauseTimerExpiry (p : Port) (c : Fin 8)
  /-- PAUSE_STORM (R116). A receive pause timer has been nonzero for storm_ms; the class ignores pause for recovery_ms and PAUSE_STORM is logged. -/
  | pauseStorm (p : Port) (c : Fin 8)
  /-- STORM_RECOVERED (R116). The recovery period ends and the class obeys pause again. -/
  | stormRecovered (p : Port) (c : Fin 8)
  /-- PREEMPT_VERIFY_TIMER (R119). The verify interval elapses, so the MAC sends another verify frame or declares preemption FAILED. -/
  | preemptVerifyTimer (p : Port)
  /-- PREEMPT_VERIFY (R119). A verify response arrives, preemption becomes active and PREEMPT_VERIFY is logged. -/
  | preemptVerify (p : Port)
  /-- MAC_FIFO (R122). An uncorrectable word in an ingress FIFO drops the frame holding it with MAC_INTEGRITY. -/
  | macFifo (g : Pipe) (u : Nat)
  /-- MAC_STORE (R122). An uncorrectable error in a pipeline's port slots or filter store causes a reload from Icoux's copy. -/
  | macStore (g : Pipe)
  /-- PCS_CHECK (R122). A PCS or FEC residue check fails and the port's PCS is reset. -/
  | pcsCheck (p : Port)
  /-- MAC_FLOW (R122). An occupancy count underflows or a report is missing; the port's classes are held in XOFF while the count is rebuilt. -/
  | macFlow (p : Port)
  /-- FLOW_RESYNC (R122). The rebuild of a port's occupancy counts completes and the held XOFF is released. -/
  | flowResync (p : Port)
  /-- PARSE_START (R135). The parser takes a frame from a FIFO in a granted slot and runs its visits until it parks, ends accepted or ends malformed. -/
  | parseStart (g : Pipe) (src : Fin 4)
  /-- PARSE_RESUME (R125). The byte a parked visit waits for arrives, or the frame ends, so the parse continues. -/
  | parseResume (u : Nat) (b : Bytes)
  /-- PARSER_MALFORMED_WRITE (R138). Command that sets the malformed class actions of a set of pipelines. -/
  | parserMalformedWrite (c : Cmd)
  /-- PARSER_MALFORMED_READ (R138). Command that reads one pipeline's PARSER_MALFORMED. -/
  | parserMalformedRead (c : Cmd)
  /-- PRS_STORE (R147). An uncorrectable parser table error drops the frame and reloads the pipeline's parser section. -/
  | prsStore (g : Pipe) (u : Option Nat)
  /-- PRS_VECTOR (R147). An uncorrectable header vector word between the parser and S0 drops the frame. -/
  | prsVector (g : Pipe) (u : Nat)
  /-- PRS_HANG (R147). A parse is unfinished 256 clocks after its bytes are present; the parse engine is reset and its frame dropped. -/
  | prsHang (g : Pipe) (u : Nat)
  /-- PRS_CHECK (R147). A residue check of cursor or advance arithmetic fails and the frame is dropped. -/
  | prsCheck (g : Pipe) (u : Nat)
  /-- PARSER_RELOAD (R147). The reload of a pipeline's parser section completes and parsing resumes. -/
  | parserReload (g : Pipe)
  /-- STAGE_LOOKUP (R160). A frame enters a stage, which builds keys, reads its tables and selects at most one routine. -/
  | stageLookup (u : Nat)
  /-- ROUTINE_ISSUE (R190). A frame with a routine is issued to the lowest free thread context, or waits when none is free. -/
  | routineIssue (u : Nat)
  /-- MICROWORD_EXECUTE (R195). A running context executes one microword and its nanoword: ALU, hash and memory lanes. -/
  | microwordExecute (g : Pipe) (st : StageNo) (k : Fin 64) (stalled : Nat)
  /-- MEMORY_RESULT_RETURN (R201). A LOAD or LOCKLOAD result returns to its result register 4 clocks after issue or grant. -/
  | memoryResultReturn (g : Pipe) (st : StageNo) (k : Fin 64) (tag : Fin 4)
  /-- LOCK_GRANTED (R207). A waiting LOCKLOAD is granted its row's lock in request order and reads the row. -/
  | lockGranted (g : Pipe) (st : StageNo) (k : Fin 64)
  /-- WAIT_RESUME (R203). The condition of a suspended WAIT word holds, so the word executes its nanoword. -/
  | waitResume (g : Pipe) (st : StageNo) (k : Fin 64) (clocks : Nat)
  /-- ROUTINE_COMMIT (R206). At END, the context commits its containers and deferred memory operations and releases its lock. -/
  | routineCommit (g : Pipe) (st : StageNo) (k : Fin 64) (clocks : Nat)
  /-- SEQUENCER_RELEASE (R192). The output sequencer releases a committed frame once every earlier frame of its port has left the stage. -/
  | sequencerRelease (u : Nat)
  /-- FRAME_DECISION (R164). After S23 the device reads F0-F6, polices the frame and forms its drop, inspection, recirculation, host, multicast or unicast transfers. -/
  | frameDecision (u : Nat)
  /-- HOST_DELIVERY (R471). A good frame for a host ring is written into posted buffers once it has ended, or dropped with HOST_RING_FULL. -/
  | hostDelivery (r : RingNo) (bufs : List (Nat × Nat)) (full : Bool)
  /-- TREE_NODE_READ_RETURN (R168). A tree node or leaf rule read returns from DRAM and the walk descends or ends with its status. -/
  | treeNodeReadReturn (u : Nat) (kind : Fin 4) (rules : Fin 17)
  /-- TREE_WALK_TIMEOUT (R168). A walk unfinished after 20 µs ends as ERROR. -/
  | treeWalkTimeout (u : Nat)
  /-- TREE_TABLE_WRITE (R170). Command that configures one classifier tree. -/
  | treeTableWrite (c : Cmd)
  /-- TREE_TABLE_READ (R170). Command that reads one TREE_TABLE. -/
  | treeTableRead (c : Cmd)
  /-- CLASSIFIER_RULE_WRITE (R171). Command that writes or deletes a rule in Icoux's rule list of a tree. -/
  | classifierRuleWrite (c : Cmd)
  /-- CLASSIFIER_RULE_READ (R171). Command that reads one classifier rule. -/
  | classifierRuleRead (c : Cmd)
  /-- TREE_COMMIT (R171). Command that starts a build of a tree's next generation and completes with PENDING. -/
  | treeCommit (c : Cmd)
  /-- TREE_SWAP (R171). A tree build ends and Icoux swaps root and generation between walks, or logs TREE_BUILD_FAIL. -/
  | treeSwap (q : Quad) (t : Fin 16) (ok : Bool) (root : Nat)
  /-- TREE_NODES_FREED (R171). 20 µs after a swap, the old generation's nodes are freed. -/
  | treeNodesFreed (q : Quad) (t : Fin 16)
  /-- RULE_ADD (R516). Command that adds RULE_ENTRY records to the session's open batch. -/
  | ruleAdd (c : Cmd)
  /-- RULE_BATCH (R174). Command that checks and commits the open batch against every named pipeline, splitting it into parts. -/
  | ruleBatch (c : Cmd)
  /-- RULE_BATCH_ABORT (R516). Command that discards the session's open batch. -/
  | ruleBatchAbort (c : Cmd)
  /-- RULE_BATCH_STATUS (R181). Command that returns one pipeline's batch state. -/
  | ruleBatchStatus (c : Cmd)
  /-- QUIESCE_START (R177). When R176's conditions hold, the pipeline stops granting parser slots and stops issuing contexts for a batch part. -/
  | quiesceStart (g : Pipe)
  /-- QUIESCE_WRITE (R177). Once running routines have committed or reached a wait, the part's writes are made, the epoch flips and stages resume. -/
  | quiesceWrite (g : Pipe) (clocks : Fin 321)
  /-- RETIRED_BUFFER_RELEASE (R177). The last old-epoch frame leaves S23 and the retired-entry buffer is released. -/
  | retiredBufferRelease (g : Pipe)
  /-- IMAGE_PIPELINE_APPLY (R185). At its turn, one pipeline is checked again, held, cleared, loaded with the image sections and switched over. -/
  | imagePipelineApply (window : Fin 2001)
  /-- MAT_EXACT (R187). An uncorrectable exact-match word drops the frame, poisons the row and rewrites it from the shadow. -/
  | matExact (g : Pipe) (st : StageNo) (unit : Fin 16) (row : Fin 4096) (u : Option Nat)
  /-- MAT_TERNARY (R187). An uncorrectable ternary row, found on a hit or by scrub, drops lookups until the row is rewritten. -/
  | matTernary (g : Pipe) (st : StageNo) (block : Fin 4) (row : Fin 1024) (u : Option Nat)
  /-- MAT_RESULT (R187). An uncorrectable result row or hit array word drops the frame and rewrites the row. -/
  | matResult (g : Pipe) (st : StageNo) (block : Fin 4) (row : Fin 1024) (u : Option Nat)
  /-- MAT_DESC (R187). An uncorrectable descriptor or map, or an overlong quiesce, causes a stage reload under quiesce. -/
  | matDesc (g : Pipe) (st : StageNo) (u : Option Nat)
  /-- MAT_PATH (R187). An uncorrectable vector, metadata or hold FIFO word drops the frame holding it. -/
  | matPath (g : Pipe) (u : Nat)
  /-- MAT_TREE (R187). A reserved node, an overlong walk or a bad node or rule read ends the walk as ERROR and starts a tree rebuild. -/
  | matTree (q : Quad) (u : Nat)
  /-- STAGE_RELOAD (R187). A stage reload from its DRAM shadow completes. -/
  | stageReload (g : Pipe) (st : StageNo)
  /-- ACT_MICRO (R210). A microword fails parity at fetch or scan; the routine is abandoned, the frame dropped with MACHINE_CHECK and the word marked bad. -/
  | actMicro (g : Pipe) (st : StageNo) (addr : Fin 8192) (k : Option (Fin 64))
  /-- ACT_NANO (R210). A nanoword fails parity at fetch or scan, with the same handling as a microword. -/
  | actNano (g : Pipe) (st : StageNo) (addr : Fin 1024) (k : Option (Fin 64))
  /-- ACT_CONTEXT (R218). An uncorrectable error in a context, commit buffer or lock table abandons the routine. -/
  | actContext (g : Pipe) (st : StageNo) (k : Fin 64)
  /-- ACT_HANG (R203). A wait lasts 4,096 non-bubble clocks; the routine is abandoned and its lock released. -/
  | actHang (g : Pipe) (st : StageNo) (k : Fin 64)
  /-- STORE_RELOAD (R211). A bad word repair, or a whole-store reload under quiesce, completes from the shadow. -/
  | storeReload (g : Pipe) (st : StageNo) (store : Fin 2) (addr : Option (Fin 8192))
  /-- STATE_ROW_RESET (R212). A STATE row read with an uncorrectable error drops the frame and is reset to its STATE_INIT value. -/
  | stateRowReset (g : Pipe) (st : StageNo) (row : Nat) (k : Option (Fin 64))
  /-- LEARN_REQUEST_PROCESS (R228). The learn engine takes one queued request and inserts, moves, flaps, freezes, refuses or counts a violation. -/
  | learnRequestProcess (g : Pipe)
  /-- FDB_ARBITER_GRANT (R238). A pipeline's FDB write arbiter grants one waiting operation, which runs whole. -/
  | fdbArbiterGrant (g : Pipe)
  /-- NOTIFY_PRODUCER_WRITEBACK (R236). Within 1 µs of the last record, the device writes the ring's producer index to wb_addr and signals its vector. -/
  | notifyProducerWriteback (q : Quad)
  /-- FDB_NTF_CONS_WRITE (R236). The host writes a quadrant's notification consumer index, returning records to the ring. -/
  | fdbNtfConsWrite (q : Quad) (v : BitVec 32)
  /-- FDB_ENTRY_WRITE (R234). Command that writes, deletes or flushes FDB entries in a set of pipelines. -/
  | fdbEntryWrite (c : Cmd)
  /-- FDB_ENTRY_READ (R233). Command that reads one FDB entry of one pipeline by key. -/
  | fdbEntryRead (c : Cmd)
  /-- FDB_LEARN_WRITE (R231). Command that sets learning for a set of pipelines. -/
  | fdbLearnWrite (c : Cmd)
  /-- FDB_LEARN_READ (R231). Command that reads one pipeline's FDB_LEARN. -/
  | fdbLearnRead (c : Cmd)
  /-- FDB_NOTIFY_WRITE (R235). Command that places or enables a quadrant's notification ring. -/
  | fdbNotifyWrite (c : Cmd)
  /-- FDB_NOTIFY_READ (R235). Command that reads a quadrant's FDB_NOTIFY. -/
  | fdbNotifyRead (c : Cmd)
  /-- FDB_DELEGATE_WRITE (R244). Command that grants or revokes FDB command windows to a session. -/
  | fdbDelegateWrite (c : Cmd)
  /-- FDB_DELEGATE_READ (R244). Command that reads one pipeline's delegation. -/
  | fdbDelegateRead (c : Cmd)
  /-- FDB_CMD_READ_KEY (R241). FDB_CMD operation 1 reads an entry by key into the window. -/
  | fdbCmdReadKey (g : Pipe) (clearHit : Bool)
  /-- FDB_CMD_READ_INDEX (R241). FDB_CMD operation 2 reads a row by index, or reports MOVED. -/
  | fdbCmdReadIndex (g : Pipe) (clearHit : Bool)
  /-- FDB_CMD_INSERT (R241). FDB_CMD operation 3 inserts a new entry. -/
  | fdbCmdInsert (g : Pipe) (clearHit : Bool)
  /-- FDB_CMD_WRITE (R241). FDB_CMD operation 4 writes an entry as FDB_ENTRY WRITE does. -/
  | fdbCmdWrite (g : Pipe) (clearHit : Bool)
  /-- FDB_CMD_DELETE (R241). FDB_CMD operation 5 deletes an entry by key. -/
  | fdbCmdDelete (g : Pipe) (clearHit : Bool)
  /-- FDB_CMD_DELETE_IF_IDLE (R241). FDB_CMD operation 6 deletes an idle dynamic entry or clears its hits and sets KEPT. -/
  | fdbCmdDeleteIfIdle (g : Pipe) (clearHit : Bool)
  /-- FDB_CMD_AGE (R241). FDB_CMD operation 7 returns an entry and clears its hit bits. -/
  | fdbCmdAge (g : Pipe) (clearHit : Bool)
  /-- FDB_CMD_ITERATE (R241). FDB_CMD operation 8 returns the next valid row at or after INDEX, optionally clearing hits. -/
  | fdbCmdIterate (g : Pipe) (clearHit : Bool)
  /-- FDB_CMD_INVALID_OP (R241). An FDB_CMD write with operation 9-31 does nothing and reports BADARG. -/
  | fdbCmdInvalidOp (g : Pipe) (op : Fin 23) (clearHit : Bool)
  /-- FDB_WINDOW_REG_WRITE (R242). A write to FDB_INDEX, FDB_RELGEN or FDB_DATA is stored, or ignored and counted while BUSY. -/
  | fdbWindowRegWrite (g : Pipe) (reg : Fin 7) (v : BitVec 32)
  /-- FDB_REJECTS_READ (R239). A read of FDB_REJECTS returns and clears the count. -/
  | fdbRejectsRead (g : Pipe)
  /-- LPM_ROUTE_WRITE (R250). Command that adds or deletes a route, rewriting buckets and pivots without pausing traffic. -/
  | lpmRouteWrite (c : Cmd)
  /-- LPM_ROUTE_READ (R249). Command that reads one route of one pipeline. -/
  | lpmRouteRead (c : Cmd)
  /-- LPM_BUCKET_FREE (R250). 2 µs after a removed pivot is invalidated, its bucket is freed. -/
  | lpmBucketFree (g : Pipe)
  /-- HOST_ENTRY (R254). Command that writes, deletes, reads or ages one host-table entry. -/
  | hostEntry (c : Cmd)
  /-- HOST_LOOKUP_WRITE (R252). Command that sets host-table lookup for a set of pipelines. -/
  | hostLookupWrite (c : Cmd)
  /-- HOST_LOOKUP_READ (R252). Command that reads one pipeline's HOST_LOOKUP. -/
  | hostLookupRead (c : Cmd)
  /-- HOST_BUCKET_READ_RETURN (R253). A host-table bucket read returns; the reader matches, reads b2 or returns F13, releasing a waiting stage. -/
  | hostBucketReadReturn (u : Nat) (lateClocks : Nat)
  /-- FDB_LEARN_FAULT (R256). FDB_LEARN: an uncorrectable learn queue or engine error resets the engine and discards queued requests. -/
  | fdbLearnFault (g : Pipe)
  /-- FDB_CMD_FAULT (R256). FDB_CMD: an uncorrectable window or arbiter error completes the operation with INTEGRITY and resets the window. -/
  | fdbCmdFault (g : Pipe)
  /-- HOST_READ (R256). An uncorrectable host-table read returns ERROR and poisons the slot. -/
  | hostRead (u : Nat) (slot : Fin 4)
  /-- FWD_AUDIT (R256). The 1 s forwarding audit finds and repairs duplicate, misplaced or mismatching entries. -/
  | fwdAudit (g : Pipe) (row : Option Nat)
  /-- SIG_DISPATCH (R269). The dispatcher sends a queued request to an engine thread, or returns NOT_LOADED. -/
  | sigDispatch (u : Nat)
  /-- SIG_SCAN_DONE (R265). An engine finishes scanning a window and computes F7 and rule-hit counts. -/
  | sigScanDone (u : Nat)
  /-- INSPECTION_RETURN (R259). Every requested result is present, so the frame re-enters its parser as an inspection-return frame in request order. -/
  | inspectionReturn (u : Nat)
  /-- SIG_SET_BEGIN (R502). Command that claims the signature upload buffer. -/
  | sigSetBegin (c : Cmd)
  /-- SIG_SET_CHUNK (R502). Command that writes a chunk of the signature upload. -/
  | sigSetChunk (c : Cmd)
  /-- SIG_SET_COMMIT (R508). Command that checks a signature set, writes it to shadows and reloads the engines that run it. -/
  | sigSetCommit (c : Cmd)
  /-- SIG_ENGINE_WRITE (R267). Command that assigns a set to an engine, which drains, copies the set and returns to dispatch. -/
  | sigEngineWrite (c : Cmd)
  /-- SIG_ENGINE_READ (R267). Command that reads one SIG_ENGINE. -/
  | sigEngineRead (c : Cmd)
  /-- SIG_PROFILE_WRITE (R268). Command that writes one signature profile to a set of quadrants. -/
  | sigProfileWrite (c : Cmd)
  /-- SIG_PROFILE_READ (R268). Command that reads one quadrant's signature profile. -/
  | sigProfileRead (c : Cmd)
  /-- SIG_RULE_WRITE (R271). Command that changes one rule of a set in shadows and running engines. -/
  | sigRuleWrite (c : Cmd)
  /-- SIG_RULE_READ (R271). Command that reads one rule of a set. -/
  | sigRuleRead (c : Cmd)
  /-- SIG_STATUS (R513). Command that returns an engine's state, set and last clean compare. -/
  | sigStatus (c : Cmd)
  /-- SIG_STORE (R274). An uncorrectable engine word returns ERROR and reloads the engine's set. -/
  | sigStore (e : Engine) (mismatch : Bool) (offset : Nat) (u : Option Nat)
  /-- SIG_PATH (R274). An uncorrectable inspection path word or a hung scan drops the frame with INSPECT_INTEGRITY. -/
  | sigPath (q : Quad) (u : Nat)
  /-- SIG_RELOAD (R274). An engine's reload of its set from the shadow completes and it returns to dispatch. -/
  | sigReload (e : Engine)
  /-- TRANSFER_ADMISSION (R288). A transfer reaches its egress admission unit, which replicates it for a group and admits, spills or drops each copy. -/
  | transferAdmission (t : Nat) (conflict : Bool)
  /-- SPILL_WRITE (R292). The spill engine copies a completed staging cell to its DRAM slot under SPILL bandwidth. -/
  | spillWrite (q : Quad)
  /-- SPILL_WRITE_DONE (R292). A spill write completes to DRAM and the staging cell is released. -/
  | spillWriteDone (p : Port) (k : Fin 20)
  /-- RETURN_READ (R293). A spilling queue's return window falls below return_cells, so the engine reads its next slots, or moves a staged frame under R294. -/
  | returnRead (p : Port) (k : Fin 20)
  /-- RETURN_READ_DONE (R293). Returned slot data arrives and is placed in SRAM cells, checking the spill sequence and possibly ending SPILLING. -/
  | returnReadDone (p : Port) (k : Fin 20) (inOrder : Bool)
  /-- RETURN_STALL_RESUME (R293). A return waiting for a shared cell obtains one and proceeds. -/
  | returnStallResume (p : Port) (k : Fin 20)
  /-- DRAM_SHARE_WINDOW (R298). A 1 µs stack window ends and every class's beat shares restart. -/
  | dramShareWindow (q : Quad)
  /-- SCRUB_PASS_DONE (R301). A scrub pass ends; class 1 runs its audit, releasing leaks and correcting counts. -/
  | scrubPassDone (q : Quad) (c : Fin 4)
  /-- BUFFER_POOL_WRITE (R282). Command that sets a quadrant's headroom and spill blocks. -/
  | bufferPoolWrite (c : Cmd)
  /-- BUFFER_POOL_READ (R282). Command that reads a quadrant's BUFFER_POOL. -/
  | bufferPoolRead (c : Cmd)
  /-- ADMIT_PROFILE_WRITE (R284). Command that writes one admission profile to a set of quadrants. -/
  | admitProfileWrite (c : Cmd)
  /-- ADMIT_PROFILE_READ (R284). Command that reads one admission profile. -/
  | admitProfileRead (c : Cmd)
  /-- PORT_ADMIT_WRITE (R285). Command that sets a port's queue profiles and ingress limits. -/
  | portAdmitWrite (c : Cmd)
  /-- PORT_ADMIT_READ (R285). Command that reads a port's PORT_ADMIT. -/
  | portAdmitRead (c : Cmd)
  /-- DRAM_SHARE_WRITE (R297). Command that sets how stacks divide their beats. -/
  | dramShareWrite (c : Cmd)
  /-- DRAM_SHARE_READ (R297). Command that reads one stack's DRAM_SHARE. -/
  | dramShareRead (c : Cmd)
  /-- BUF_SCRUB_WRITE (R300). Command that sets scrub class periods and rewrites their epoch entries. -/
  | bufScrubWrite (c : Cmd)
  /-- BUF_SCRUB_READ (R300). Command that reads BUF_SCRUB. -/
  | bufScrubRead (c : Cmd)
  /-- BUFFER_STATUS (R303). Command that returns a quadrant's pool state and clears its min_free_cells. -/
  | bufferStatus (c : Cmd)
  /-- QUEUE_BUFFER_STATUS (R304). Command that returns one queue's buffer state and clears its peak_cells. -/
  | queueBufferStatus (c : Cmd)
  /-- BUF_DATA (R306). An uncorrectable cell word drops or stomps the copy and may retire the cell. -/
  | bufData (q : Quad) (c : Nat)
  /-- BUF_LINK (R306). An uncorrectable link entry or bitmap word drops the frame or rebuilds the bitmap word. -/
  | bufLink (q : Quad) (c : Option Nat)
  /-- BUF_DESC (R306). An uncorrectable descriptor or a double release drops the copy with BUFFER_INTEGRITY. -/
  | bufDesc (q : Quad) (c : Nat) (double : Bool)
  /-- BUF_COUNT (R306). A count underflows or is corrected; the quadrant's counts are rebuilt while the queue admits only its guarantee. -/
  | bufCount (p : Port) (k : Fin 20)
  /-- POOL_REBUILD (R306). The rebuild of a quadrant's counts or a pool structure completes. -/
  | poolRebuild (q : Quad)
  /-- DRAM_DATA (R306). An uncorrectable spill beat drops the frames holding slots in it and marks the block for retirement. -/
  | dramData (q : Quad) (k : Nat)
  /-- DRAM_LINK (R306). A stack interface exhausts its retries or loses training and retrains. -/
  | dramLink (q : Quad)
  /-- DRAM_RETRAIN (R306). A stack interface retrain completes and spill and return resume. -/
  | dramRetrain (q : Quad)
  /-- DRAM_REQUEST_TIMEOUT (R306). During a retrain, a host read or tree walk held 20 µs ends with ERROR. -/
  | dramRequestTimeout (q : Quad) (u : Nat)
  /-- SPILL_ORDER (R306). A spill sequence break or stalled engine resets the engine and flushes the queue's DRAM section. -/
  | spillOrder (p : Port) (k : Fin 20)
  /-- MESH_FLIT_RECEIVED (R309). A flit arrives on a mesh link direction and is corrected or triggers a replay. -/
  | meshFlitReceived (d : LinkDir) (t : Nat) (err : Fin 4)
  /-- RELAY_TRANSFER (R311). A relaying quadrant places a relayed transfer in its relay queue towards the destination. -/
  | relayTransfer (t : Nat)
  /-- MESH_CREDIT_AUDIT (R335). The 10 µs credit audit checks each channel and resynchronises a mismatch. -/
  | meshCreditAudit (d : LinkDir) (mismatch : Bool)
  /-- MESH_RETRAIN (R335). A link direction's retrain completes and direct paths are usable again. -/
  | meshRetrain (d : LinkDir)
  /-- MESH_LINK (R335). A link loses lock or fails retraining and is marked down, its pairs using relay. -/
  | meshLink (l : LinkNo)
  /-- MESH_TRAIN_RETRY (R335). Every 10 ms Icoux retries training of a down link and logs MESH_LINK_UP on success. -/
  | meshTrainRetry (l : LinkNo) (ok : Bool)
  /-- MESH_MGMT (R335). An uncorrectable word or timeout on VC0 resets the management channel. -/
  | meshMgmt (l : LinkNo)
  /-- MESH_CONFIG_WRITE (R313). Command that sets relay for a set of quadrants. -/
  | meshConfigWrite (c : Cmd)
  /-- MESH_CONFIG_READ (R313). Command that reads one quadrant's MESH_CONFIG. -/
  | meshConfigRead (c : Cmd)
  /-- MCAST_GROUP_WRITE (R322). Command that writes a group's new member lists and flips its version on all quadrants at a strobe. -/
  | mcastGroupWrite (c : Cmd)
  /-- MCAST_GROUP_READ (R320). Command that reads a group's header and members. -/
  | mcastGroupRead (c : Cmd)
  /-- MCAST_OLD_LIST_FREE (R322). Once every transfer carrying the old version is replicated, the old member lists are freed. -/
  | mcastOldListFree (g : Fin 65536)
  /-- MIRROR_SESSION_WRITE (R323). Command that sets one mirror session. -/
  | mirrorSessionWrite (c : Cmd)
  /-- MIRROR_SESSION_READ (R323). Command that reads one mirror session. -/
  | mirrorSessionRead (c : Cmd)
  /-- CUT_THROUGH_UNDERRUN (R318). The egress MAC needs a byte of a started copy that is not yet written, so the copy is stomped. -/
  | cutThroughUnderrun (p : Port) (sent : Nat)
  /-- HOLD_EXPIRY (R327). A down port's hold time ends and every copy in its queues is flushed with PORT_DOWN. -/
  | holdExpiry (p : Port)
  /-- QUEUE_AGE_WRITE (R328). Command that sets a port's queue age limits. -/
  | queueAgeWrite (c : Cmd)
  /-- QUEUE_AGE_READ (R328). Command that reads a port's QUEUE_AGE. -/
  | queueAgeRead (c : Cmd)
  /-- DROP_POLICY_WRITE (R332). Command that sets drop record limits for a set of quadrants. -/
  | dropPolicyWrite (c : Cmd)
  /-- DROP_POLICY_READ (R332). Command that reads one quadrant's DROP_POLICY. -/
  | dropPolicyRead (c : Cmd)
  /-- SWC_REPL (R335). An uncorrectable replication table word drops the quadrant's copies and rewrites the list. -/
  | swcRepl (t : Nat)
  /-- SWC_MIRROR (R335). An uncorrectable session store word drops the session's copies until reload. -/
  | swcMirror (q : Quad) (i : Fin 16)
  /-- SWC_PATH (R335). An uncorrectable queue word or an in_flight underflow drops the frame and holds the port's path. -/
  | swcPath (q : Quad) (t u : Option Nat)
  /-- SWC_FLUSH (R335). A hold timer or flush makes no progress for 10 µs and its engine is reset. -/
  | swcFlush (p : Port)
  /-- SWITCH_RELOAD (R335). The reload of a replication list or mirror session from Icoux's copy completes. -/
  | switchReload (q : Quad) (i : Option (Fin 16)) (g : Nat)
  /-- REFILL_INSTANT (R337). Every 1,024 ns each policer and shaper bucket of the quadrant is refilled and capped, and NEXT_REFILL writes apply. -/
  | refillInstant (q : Quad)
  /-- SCHEDULER_SELECT (R350). When the port's MAC can start a frame, the scheduler selects a copy, ages or gate-checks it, and charges its path. -/
  | schedulerSelect (p : Port) (sent ahead : Nat) (err : Int)
  /-- TX_FRAME_END (R381). A copy's last byte leaves the port; cells are released, counters, histogram and postcard are updated. -/
  | txFrameEnd (p : Port) (dbl : Bool)
  /-- GATE_ENTRY_START (R361). A gate list entry reaches its start time and sets the class gates, hold or release. -/
  | gateEntryStart (p : Port)
  /-- POLICER_WRITE (R346). Command that configures one policer, applied at the next refill. -/
  | policerWrite (c : Cmd)
  /-- POLICER_READ (R346). Command that reads one policer. -/
  | policerRead (c : Cmd)
  /-- SHAPER_PROFILE_WRITE (R354). Command that writes one shaper profile to a set of quadrants. -/
  | shaperProfileWrite (c : Cmd)
  /-- SHAPER_PROFILE_READ (R354). Command that reads one shaper profile. -/
  | shaperProfileRead (c : Cmd)
  /-- PORT_SCHED_WRITE (R356). Command that sets a port's classes, weights and shapers, applied at the next round. -/
  | portSchedWrite (c : Cmd)
  /-- PORT_SCHED_READ (R356). Command that reads a port's PORT_SCHED. -/
  | portSchedRead (c : Cmd)
  /-- EXT_QUEUE_WRITE (R358). Command that divides a unicast queue into leaves or removes the division. -/
  | extQueueWrite (c : Cmd)
  /-- EXT_QUEUE_READ (R358). Command that reads a queue's EXT_QUEUE header and weights. -/
  | extQueueRead (c : Cmd)
  /-- GATE_LIST_WRITE (R362). Command that stages a port's gate list for a schedule boundary. -/
  | gateListWrite (c : Cmd)
  /-- GATE_LIST_READ (R362). Command that reads a port's gate list. -/
  | gateListRead (c : Cmd)
  /-- PORT_SCHED_STATUS (R367). Command that returns a port's scheduling state. -/
  | portSchedStatus (c : Cmd)
  /-- SCH_STATE (R370). An uncorrectable scheduler word resets the port's credits, tags and buckets and reloads its configuration. -/
  | schState (p : Port)
  /-- POL_STATE (R370). An uncorrectable policer word makes it act as mode 0 and reloads it with full buckets. -/
  | polState (q : Quad) (i : Fin 131072)
  /-- FREEZE_SWEEP_DONE (R374). A die's freeze sweep finishes writing its frozen bank. -/
  | freezeSweepDone (q : Quad)
  /-- FREEZE_PUBLISH (R375). All four dies' sweeps are complete, so the freeze is published on every die at once. -/
  | freezePublish
  /-- ROLLOVER_PUBLISH (R383). The histogram closing sweeps complete and the closed interval is published on every die. -/
  | rolloverPublish
  /-- COUNTER_READ (R377). Command that returns counter values of a group, bank and scope. -/
  | counterRead (c : Cmd)
  /-- TELEMETRY_PROFILE_WRITE (R384). Command that writes one IOAM telemetry profile to a set of quadrants. -/
  | telemetryProfileWrite (c : Cmd)
  /-- TELEMETRY_PROFILE_READ (R384). Command that reads one telemetry profile. -/
  | telemetryProfileRead (c : Cmd)
  /-- EXPORTER_WRITE (R390). Command that configures one exporter and places its epoch entry. -/
  | exporterWrite (c : Cmd)
  /-- EXPORTER_READ (R390). Command that reads an exporter's header and template. -/
  | exporterRead (c : Cmd)
  /-- OBSERVER_GRANT_WRITE (R392). Command that sets what an OBSERVER session may read. -/
  | observerGrantWrite (c : Cmd)
  /-- OBSERVER_GRANT_READ (R392). Command that reads an OBSERVER_GRANT. -/
  | observerGrantRead (c : Cmd)
  /-- TEL_COUNTER (R395). An uncorrectable counter or histogram word loses its updates and marks its counters inexact. -/
  | telCounter (q : Quad) (hist : Bool) (key : Nat)
  /-- TEL_EXPORT (R395). An uncorrectable export word or stalled exporter loses records and resets the exporter. -/
  | telExport (e : Fin 4) (n : Nat)
  /-- BUBBLE_FRAME_START (R401). A die starts a new frame of 256 core clocks and applies its partition's bubble fraction as one run. -/
  | bubbleFrameStart (q : Quad)
  /-- LANE_EQ_STEP (R406). At its adaptation boundary, an eligible lane changes equaliser mode as the link level requires. -/
  | laneEqStep (l : Lane)
  /-- LANE_STEP_CHECK (R406). 1 ms after a step, the lane's eye is compared with its reference and the lane may revert and become ineligible. -/
  | laneStepCheck (l : Lane) (height : Nat)
  /-- ENERGY_CALIBRATION (R408). Every 1 s Icoux recalibrates each quadrant's energy scales against rail energy. -/
  | energyCalibration (q : Quad) (k : Fin 3) (scale other : Nat)
  /-- TEMP_SAMPLE (R415). Every 100 µs sensors are sampled, excluded when faulty, and drive refresh doubling and thermal state. -/
  | tempSample (readings : List Int)
  /-- THERMAL_TRIP (R417). A sensor reaches 125 °C; THERMTRIP_N asserts, clocks stop and every transmitter is squelched. -/
  | thermalTrip (die : Fin 12) (sensor : Fin 20)
  /-- AVS_RESPONSE (R418). The regulator answers an AVSBus transaction, letting the next voltage step proceed. -/
  | avsResponse (mv : Nat) (bad : Bool) (command status : Nat)
  /-- AVS_TIMEOUT (R418). An AVSBus transaction has no valid response in 100 µs and is retried, the third failure raising bit 55. -/
  | avsTimeout (command status : Nat)
  /-- GAUGE_EPOCH (R421). A POWER_CYCLE entry with argument 1 counts the cone gauges and may re-plan VDD_CORE. -/
  | gaugeEpoch (q : Quad) (d : Domain') (i : Fin 512) (ppm : List Int)
  /-- MARGIN_EPOCH (R424). A POWER_CYCLE entry with argument 2 starts one eye-margin sample on every ACTIVE lane. -/
  | marginEpoch (q : Quad) (d : Domain') (i : Fin 512) (eyes : List (Nat × Nat))
  /-- HEAT_WORK_ACCUMULATE (R422). Every second, each quadrant adds its acceleration to heat_work. -/
  | heatWorkAccumulate
  /-- LANE_REPLAN (R424). At the end of each day Icoux re-plans lane eligibility and wear from daily minima. -/
  | laneReplan
  /-- DATA_AREA_SAVE (R540). Every 6 h Icoux writes heat_work, lane histories and the boot control record to the flash data area. -/
  | dataAreaSave
  /-- POWER_CAP_WRITE (R410). Command that sets the power cap and control parameters. -/
  | powerCapWrite (c : Cmd)
  /-- POWER_CAP_READ (R410). Command that reads POWER_CAP. -/
  | powerCapRead (c : Cmd)
  /-- POWER_STATUS (R426). Command that returns the state of the power control loops. -/
  | powerStatus (c : Cmd)
  /-- AGEING_STATUS (R425). Command that returns a quadrant's ageing state and the VDD_CORE plan. -/
  | ageingStatus (c : Cmd)
  /-- ENERGY_READ (R409). Command that reads energy counters. -/
  | energyRead (c : Cmd)
  /-- FAULT_RAISE (R434). A fault raise reaches the Q0 saggar, which latches the bit, updates the site's level and count and starts or evaluates its grace. -/
  | faultRaise
  /-- GRACE_EXPIRY (R434). A site's grace period ends; it is evaluated and may escalate to a fence or device reset. -/
  | graceExpiry (b : Fin 63) (k i : Nat)
  /-- QUIET_EXPIRY (R434). A CONTAINED site has had no raise for quiet_ms, so it returns to QUIET and logs FAULT_RECOVERED. -/
  | quietExpiry (b : Fin 63) (k i : Nat)
  /-- FLT_LATCH_WRITE (R431). A write of ones to FLT_LATCH clears latched fault bits and may deassert ALERT_N. -/
  | fltLatchWrite (lo hi : Option (BitVec 32))
  /-- FLT_ALERT_EN_WRITE (R431). A write to FLT_ALERT_EN changes which latched bits hold ALERT_N asserted. -/
  | fltAlertEnWrite (lo hi : Option (BitVec 32))
  /-- FLT_TEST_KEY_WRITE (R441). A write to FLT_TEST_KEY starts test mode when it matches the pending key, or voids the key. -/
  | fltTestKeyWrite (key : BitVec 32)
  /-- TEST_KEY_TIMEOUT (R441). A pending test key is not written within 1 s and is voided. -/
  | testKeyTimeout
  /-- REG64_LOW_HALF_READ (R431). A read of the low half of a 64-bit BAR0 register latches its high half for the next read. -/
  | reg64LowHalfRead (off : Nat) (high : Bool)
  /-- KLN_CURSOR_WRITE (R449). A write to KLN_CURSOR sets LATCHING and starts copying 128 records into KLN_WINDOW. -/
  | klnCursorWrite (v : BitVec 32)
  /-- KLN_WINDOW_LATCHED (R449). The kiln window copy completes and LATCHING clears. -/
  | klnWindowLatched
  /-- FAULT_POLICY_WRITE (R436). Command that sets the escalation policy of a set of fault bits. -/
  | faultPolicyWrite (c : Cmd)
  /-- FAULT_POLICY_READ (R436). Command that reads one bit's FAULT_POLICY. -/
  | faultPolicyRead (c : Cmd)
  /-- FAULT_ACTION (R437). Command that acknowledges, holds, releases, fences or unfences a site. -/
  | faultAction (c : Cmd)
  /-- FAULT_STATUS (R438). Command that returns one fault bit's saggar state. -/
  | faultStatus (c : Cmd)
  /-- FAULT_SITES (R438). Command that returns site table entries. -/
  | faultSites (c : Cmd)
  /-- FAULT_TEST_ENABLE (R441). Command that issues a test-mode key. -/
  | faultTestEnable (c : Cmd)
  /-- FAULT_TEST_DISABLE (R441). Command that ends test mode and disarms every point. -/
  | faultTestDisable (c : Cmd)
  /-- FAULT_INJECT (R442). Command that arms or disarms one injection point. -/
  | faultInject (c : Cmd)
  /-- KILN_READ (R450). Command that returns up to 128 kiln records. -/
  | kilnRead (c : Cmd)
  /-- KILN_CLEAR (R450). Command that removes kiln records up to a sequence number. -/
  | kilnClear (c : Cmd)
  /-- CC_MEMORY (R433). An uncorrectable control SRAM word reloads code or restarts the poisoned Icoux task. -/
  | ccMemory (code : Bool) (ids : List Nat) (late : Bool)
  /-- CC_WATCHDOG (R433). A control core watchdog goes unserviced for 100 ms and the core is reset. -/
  | ccWatchdog (core : Fin 4) (ids : List Nat) (late : Bool)
  /-- FW_CHECK (R433). An Icoux consistency check fails; the task restarts and the hardware copy is rewritten. -/
  | fwCheck (ids : List Nat) (late : Bool)
  /-- FLT_SELF (R433). A saggar self-fault rebuilds the site table by polling detectors. -/
  | fltSelf (asserted : List (Nat × Nat × Nat)) (bad : Option Nat)
  /-- INVALID_BAR_ACCESS (R453). A BAR access of a wrong size, alignment or target is ignored or reads zero and is counted. -/
  | invalidBarAccess (bar2 write : Bool)
  /-- REGISTER_WRITE (R453). A write to a BAR0 register without behaviour of its own, such as HST_SCRATCH or the MSI-X table, stores its value. -/
  | registerWrite (off : Nat) (v : BitVec 32)
  /-- RC_COUNTER_READ (R455). A read of HST_ERR_COUNT or HST_MBX_FAULTS returns and clears the count. -/
  | rcCounterRead (slot : Option SlotNo)
  /-- PCIE_INTERFACE_LOST (R454). The link leaves DL_Active, or a reset or PERST occurs; sessions close, rings disable and grants are revoked. -/
  | pcieInterfaceLost (flr : Bool)
  /-- PCIE_LINK_UP (R454). The PCI Express link trains and returns to DL_Active. -/
  | pcieLinkUp (speed width : Nat)
  /-- HST_MBX_CTRL_WRITE (R457). A write to a slot's control enables it as PENDING with its rings, or clears ENABLE to close the session abruptly. -/
  | hstMbxCtrlWrite (i : SlotNo) (v : BitVec 32)
  /-- HST_MBX_DB (R461). A doorbell write advances a slot's command producer index, or is a doorbell fault. -/
  | hstMbxDb (i : SlotNo) (v : BitVec 32)
  /-- HST_MBX_CPL_HEAD_WRITE (R461). The host advances a slot's completion head, freeing completion space. -/
  | hstMbxCplHeadWrite (i : SlotNo) (v : BitVec 32)
  /-- COMMAND_COMPLETION (R461). A command ends; Icoux writes its reply and completion, advances the tail and signals the vector. -/
  | commandCompletion (k : Nat)
  /-- UNKNOWN_OPCODE (R489). A descriptor whose opcode does not exist completes with NOTSUP. -/
  | unknownOpcode (c : Cmd) (opcode : BitVec 16)
  /-- HST_RX_TAIL_WRITE (R458). The host posts receive buffers by writing a ring's receive tail. -/
  | hstRxTailWrite (r : RingNo) (v : BitVec 32)
  /-- HST_TX_TAIL_WRITE (R458). The host posts transmit descriptors by writing a ring's transmit tail. -/
  | hstTxTailWrite (r : RingNo) (v : BitVec 32)
  /-- HOST_INJECT (R473). The DMA engine reads a transmit frame and injects it into its pipeline's FIFO, or completes its descriptors with an error. -/
  | hostInject (r : RingNo) (ds : List Bytes) (data : Bytes) (readOk : Bool)
  /-- IRQ_COALESCE_EXPIRY (R469). A ring direction's coalescing time elapses and its pending interrupt is signalled. -/
  | irqCoalesceExpiry (r : RingNo) (tx : Bool)
  /-- SESSION_OPEN (R463). Command that opens a session in a role against its key. -/
  | sessionOpen (c : Cmd)
  /-- SESSION_CLOSE (R465). Command that closes the session after its earlier commands. -/
  | sessionClose (c : Cmd)
  /-- SESSION_CLOSE_DONE (R465). An abruptly closed slot finishes CLOSING and becomes FREE. -/
  | sessionCloseDone (i : SlotNo)
  /-- SESSION_SYNC (R493). Command that completes after every earlier command of the session. -/
  | sessionSync (c : Cmd)
  /-- ROLE_KEY (R464). Command that sets a role's key in the flash data area. -/
  | roleKey (c : Cmd)
  /-- DMA_RING_WRITE (R469). Command that configures one DMA ring pair. -/
  | dmaRingWrite (c : Cmd)
  /-- DMA_RING_READ (R469). Command that reads one DMA_RING. -/
  | dmaRingRead (c : Cmd)
  /-- CAP_READ (R501). Command that returns the capability region. -/
  | capRead (c : Cmd)
  /-- MODE_WRITE (R499). Command that changes buffer, table and clock profiles. -/
  | modeWrite (c : Cmd)
  /-- MODE_READ (R498). Command that returns the current modes. -/
  | modeRead (c : Cmd)
  /-- LIMITED_EXIT (R482). A LIMITED session has had no fault for 10 s and leaves LIMITED. -/
  | limitedExit (i : SlotNo)
  /-- LIMITED_COMMAND_TAKE (R482). Every 10 ms Icoux takes one waiting command from a LIMITED session. -/
  | limitedCommandTake (i : SlotNo)
  /-- CREDENTIAL_LOCKOUT_END (R482). 60 s after three wrong credentials, SESSION_OPEN is accepted again. -/
  | credentialLockoutEnd (slot : Option SlotNo)
  /-- UMLIMEL_PAYLOAD (R476). An I3C PAYLOAD frame writes into a session's payload buffer. -/
  | umlimelPayload (session off : Nat) (data : Bytes) (ddr : Bool)
  /-- UMLIMEL_COMMAND (R476). An I3C COMMAND frame submits one descriptor for a session, or opens a new one. -/
  | umlimelCommand (session : Nat) (desc : Bytes) (ddr : Bool)
  /-- UMLIMEL_FETCH (R477). An I3C FETCH frame sets the offset from which reads return the session's reply. -/
  | umlimelFetch (session off : Nat) (ddr : Bool)
  /-- UMLIMEL_READ (R477). An I3C private read returns a completion, a reply chunk or NONE. -/
  | umlimelRead (ddr : Bool)
  /-- UMLIMEL_FRAME_INVALID (R476). An Umlimel write frame that breaks its layout is discarded and counted as a transport fault. -/
  | umlimelFrameInvalid (session : Nat) (ddr : Bool)
  /-- IBI_RETRY (R479). 100 µs after a declined IBI, the target raises it again while its cause remains. -/
  | ibiRetry (alert : Bool)
  /-- ENEC (R475). CCC that enables target events, including IBIs. -/
  | enec (events : BitVec 8)
  /-- DISEC (R475). CCC that disables target events. -/
  | disec (events : BitVec 8)
  /-- RSTDAA (R475). CCC that resets the dynamic address. -/
  | rstdaa
  /-- ENTDAA (R475). CCC that assigns a dynamic address by arbitration and logs I3C_ADDRESS. -/
  | entdaa (a : BitVec 7)
  /-- SETDASA (R475). CCC that assigns a dynamic address from the static address 0x3A. -/
  | setdasa (a : BitVec 7)
  /-- SETNEWDA (R475). CCC that changes the dynamic address. -/
  | setnewda (a : BitVec 7)
  /-- SETMWL (R475). CCC that sets the maximum write length, ignored below 68. -/
  | setmwl (n : BitVec 16)
  /-- SETMRL (R475). CCC that sets the maximum read length, ignored below 68. -/
  | setmrl (n : BitVec 16)
  /-- GETMWL (R475). CCC that returns the maximum write length. -/
  | getmwl
  /-- GETMRL (R475). CCC that returns the maximum read length. -/
  | getmrl
  /-- GETPID (R475). CCC that returns the provisional ID. -/
  | getpid
  /-- GETBCR (R475). CCC that returns BCR 0x06. -/
  | getbcr
  /-- GETDCR (R475). CCC that returns DCR 0x00. -/
  | getdcr
  /-- GETSTATUS (R475). CCC that returns the target status. -/
  | getstatus
  /-- GETMXDS (R475). CCC that returns the maximum data speed. -/
  | getmxds
  /-- ENTHDR0 (R475). CCC that enters HDR-DDR mode. -/
  | enthdr0
  /-- RSTACT (R475). CCC whose action 0x01 resets the target's frame state, keeping sessions. -/
  | rstact (action : BitVec 8)
  /-- HST_LINK (R485). A PCI Express error or an I3C bus fault abandons the transfer or resets the target's frame state. -/
  | hstLink (site : Fin 2) (corrected : Bool)
  /-- IMAGE_BEGIN (R502). Command that claims the program image upload buffer. -/
  | imageBegin (c : Cmd)
  /-- IMAGE_CHUNK (R502). Command that writes a chunk of the program image upload. -/
  | imageChunk (c : Cmd)
  /-- IMAGE_VERIFY (R504). Command that checks the uploaded image and stages it. -/
  | imageVerify (c : Cmd)
  /-- IMAGE_APPLY (R505). Command that starts applying the staged image to named pipelines and completes with PENDING. -/
  | imageApply (c : Cmd)
  /-- IMAGE_UNLOAD (R506). Command that clears the parser and stage memories of named pipelines. -/
  | imageUnload (c : Cmd)
  /-- IMAGE_STATUS (R507). Command that returns the staged image and apply state. -/
  | imageStatus (c : Cmd)
  /-- FW_BEGIN (R502). Command that claims the firmware upload buffer. -/
  | fwBegin (c : Cmd)
  /-- FW_CHUNK (R502). Command that writes a chunk of the firmware upload. -/
  | fwChunk (c : Cmd)
  /-- FW_COMMIT (R509). Command that checks a firmware image and starts writing it to the other slot. -/
  | fwCommit (c : Cmd)
  /-- FW_WRITTEN (R509). The flash slot write and read-back completes, logging FW_WRITTEN or FW_REJECTED. -/
  | fwWritten (ok : Bool)
  /-- FW_ACTIVATE (R510). Command that records the slot for the next boot, optionally restarting into it. -/
  | fwActivate (c : Cmd)
  /-- FW_STATUS (R511). Command that returns firmware slot and update state. -/
  | fwStatus (c : Cmd)
  /-- DEVICE_RESET (R510). Command that posts its completion and schedules a device reset 10 ms later. -/
  | deviceReset (c : Cmd)
  /-- SOFTWARE_RESET (R510). 10 ms after DEVICE_RESET, the device resets as RESET_N would, with cause SOFTWARE. -/
  | softwareReset
  /-- POWER_ON (R554). VDD_IO rises with RESET_N asserted; the always-on records become valid and read empty. -/
  | powerOn (flash : Option FlashIn)
  /-- RESET_N_ASSERT (R524). RESET_N is asserted; transmitters squelch, AVSBus and QSPI are released and the device resets. -/
  | resetNAssert (cool cut : Bool)
  /-- RESET_N_DEASSERT (R532). RESET_N is deasserted; straps are sampled and the bisque stage begins. -/
  | resetNDeassert (strap : Fin 4)
  /-- Q0_PLL_LOCK (R532). The Q0 PLL locks on an LD0 or LD1 reference and the boot ROM starts self-test, flash read and slot choice. -/
  | q0PllLock (result : Fin 5)
  /-- GLAZE_INIT (R532). The firmware image is verified, STAGE becomes GLAZE_INIT and Icoux starts the glaze stage. -/
  | glazeInit (readFail0 readFail1 : Bool)
  /-- GLAZE_RETRY (R535). A glaze step fails and is retried, or the third failure of a critical step makes the device FAILED. -/
  | glazeRetry (step : Fin 8) (die : Fin 8) (status : BitVec 16)
  /-- GLAZE_READY (R534). The glaze steps complete, capabilities are published and STAGE becomes READY. -/
  | glazeReady (ppm : List (List Int))
  /-- WARM_RESTART_START (R538). A CONTROL fence or restart_now stops taking commands and resets the control cores into the target slot. -/
  | warmRestartStart
  /-- WARM_RESTART_DONE (R538). The new Icoux adopts its saved state, republishes capabilities and returns to READY, or the device resets with WARM_FAIL. -/
  | warmRestartDone (readFailTarget readFailRunning stateOk : Bool)
  /-- BYPASS (R567). TAP instruction that selects the bypass register. -/
  | bypass (tdi : List Bool)
  /-- IDCODE (R567). TAP instruction that selects the identification register. -/
  | idcode (tdi : List Bool)
  /-- SAMPLE_PRELOAD (R567). TAP instruction that samples or preloads the boundary-scan register. -/
  | samplePreload (pins tdi : List Bool)
  /-- EXTEST (R567). TAP instruction that drives and captures pins from the boundary-scan register. -/
  | extest (pins tdi : List Bool)
  /-- EXTEST_PULSE (R567). IEEE 1149.6 TAP instruction that drives pulses on AC-coupled lanes. -/
  | extestPulse (pins tdi : List Bool)
  /-- EXTEST_TRAIN (R567). IEEE 1149.6 TAP instruction that drives pulse trains on AC-coupled lanes. -/
  | extestTrain (pins tdi : List Bool)
  /-- HIGHZ (R567). TAP instruction that places outputs at high impedance. -/
  | highz (tdi : List Bool)
  /-- CLAMP (R567). TAP instruction that holds outputs from the boundary-scan register while bypassing. -/
  | clamp (tdi : List Bool)
  /-- SIGNAL_BREAK (R76). A break in the signal of a lane that must show it, in RX_DETECT, restarts the 1 ms signal count without failing or counting anything. -/
  | signalBreak (l : Lane)
  /-- CDR_LOCK_LOST (R76). During TRAINING, LOCK or ALIGN a lane loses CDR lock, which is counted in cdr_lock_losses while the lane keeps acquiring. -/
  | cdrLockLost (l : Lane)
  /-- PROFILE_RELOCK_TIMEOUT (R45). 100 µs after a profile-change TIMEOUT a core PLL is still unlocked at the old frequency, so the copies stay in holdover clocking and fault bit 48 is raised for every domain. -/
  | profileRelockTimeout
  /-- MAC_RELOAD (R122). The reload of a pipeline's port slots or filter store from Icoux's copy completes and its ports' frames are no longer dropped with MAC_INTEGRITY. -/
  | macReload (g : Pipe)
  /-- LANE_PLL_RELOCK (R97). A lane-die transmit PLL relocks after a LANE_PLL fault and its 16 squelched lanes start REACQUIRE. -/
  | lanePllRelock (g : Pipe)
  /-- LANE_STORE_RELOAD (R97). The reload of a lane die's configuration or coefficient store from Icoux's copy completes and its lanes enter REACQUIRE. -/
  | laneStoreReload (k : LaneDie)
  /-- ROW_REWRITE (R187). A poisoned exact-match, ternary or result row is rewritten from its shadow, ending the drops of lookups that read it and setting FDB hit bits under R225. -/
  | rowRewrite (g : Pipe) (st : StageNo) (r : RowRef)
  /-- POLICER_RELOAD (R370). A policer faulted under POL_STATE is reloaded from Icoux's copy with full buckets and stops acting as mode 0. -/
  | policerReload (q : Quad) (i : Fin 131072)
  /-- SCHED_RELOAD (R370). A port's PORT_SCHED copy, leaf map and gate list are reloaded from Icoux's copy after SCH_STATE, ending the hold of the last good gate states. -/
  | schedReload (p : Port)
  /-- TIME_STORE_RELOAD (R66). A firing entry disabled by an uncorrectable error is reloaded from Icoux's copy and re-enabled, with missed instants counted as skips. -/
  | timeStoreReload (d : Domain') (i : Fin 512)
  /-- TEL_EXPORT_RELOAD (R395). Telemetry profiles and templates are reloaded from Icoux's copy after TEL_EXPORT, so frames carry IOAM data again. -/
  | telExportReload (e : Fin 4)
  /-- TEST_KEY_LOCKOUT_END (R441). 60 s after three voided test keys, FAULT_TEST_ENABLE is accepted again. -/
  | testKeyLockoutEnd
  /-- SUPPLY_LEAVES_RANGE (R557). A rail leaves its range or power is removed, losing the reset cause register and trip record with VDD_IO or the kiln log with VDD_PLL. -/
  | supplyLeavesRange (rail : Fin 8) (mv : Int)
deriving DecidableEq, Repr

end Sys2Proof
end

