-- ==== Sys2Proof/Decode.lean ====
section
/-!
DEFINITION. decodeTableWord: the table of this hardware gives no row any bits, so no word spells a command.
-/

namespace Sys2Proof

/-- The command that a word spells by the table's bits. No row of the opcode table gives bits, so there is none. -/
def decodeTableWord (_nbits _w : Nat) : Option Instr := none

end Sys2Proof
end

