-- ==== Sys2Proof/Config.lean ====
section
/-!
DEFINITION. What one part fixes and the spec leaves open, and the supply of free values.
-/

namespace Sys2Proof.Config

/-- The free values: the n-th value of this supply is whatever the part does where the spec states no value.
It has no body, so no proof can see one (assumption 1). -/
opaque freeNat : Nat → Nat

/-- The device serial number (R500, R475): a constant of each part that the spec does not state (assumption 2). -/
opaque serial : BitVec 64

/-- The manufacturer identifier of the I3C provisional ID (R475), which the spec names without its value (assumption 2). -/
opaque mipiManufacturer : BitVec 15

/-- Gehilan's JEDEC manufacturer identity (R567), which the spec names without its value (assumption 2). -/
opaque jedecManufacturer : BitVec 11

/-- The PCI-SIG vendor identifier (R452), which the spec names without its value (assumption 2). -/
opaque pciVendor : BitVec 16

/-- max_wait_timer of the PMD clause of a speed code, in µs (R76), which the spec takes from IEEE 802.3 without its value. -/
opaque maxWaitUs : Nat → Nat

/-- The source address of the MAC control frames a port sends (R114), which the spec does not state (assumption 31). -/
opaque portAddress : Nat → BitVec 48

/-- The energy of one event of a kind, in nJ, before calibration (R407), which the spec does not state (assumption 83). -/
opaque energyCoeff : Nat → Nat

/-- V_base of a profile, in mV (R419): stored in each part at manufacturing test (assumption 84). -/
opaque vBase : Bool → Nat

/-- S, in mV for each 10,000 ppm of slowdown (R419): stored in each part (assumption 84). -/
opaque sensitivity : Nat

/-- Whether a public key's SHA-384 digest is the one in the part's fuses (R529 check 3). -/
opaque keyTrusted : List (BitVec 8) → Bool

/-- Whether an ECDSA P-384 signature of a message verifies against a public key (R529 check 4): key, signature, message. -/
opaque signatureVerifies : List (BitVec 8) → List (BitVec 8) → List (BitVec 8) → Bool

end Sys2Proof.Config
end

