-- ==== Sys2Proof/Machine/Bits.lean ====
section
/-!
DEFINITION. Bit fields, byte order, signed fields, check codes and plain integer helpers.
-/

namespace Sys2Proof.Machine

/-- The unsigned value of a little-endian byte string (R7). -/
def leNat : Bytes → Nat
  | [] => 0
  | b :: t => b.toNat + 256 * leNat t

/-- The unsigned value of a big-endian (network order) byte string (R7). -/
def beNat (b : Bytes) : Nat := b.foldl (fun a x => 256 * a + x.toNat) 0

/-- The low `n` bytes of `v`, little-endian. -/
def toLe : Nat → Nat → Bytes
  | 0, _ => []
  | n + 1, v => BitVec.ofNat 8 v :: toLe n (v / 256)

/-- The low `n` bytes of `v`, network order. -/
def toBe (n v : Nat) : Bytes := (toLe n v).reverse

/-- `n` bytes of `b` from offset `off`; a byte past the end reads zero. -/
def slice (b : Bytes) (off n : Nat) : Bytes :=
  let t := (b.drop off).take n
  t ++ List.replicate (n - t.length) 0

/-- The little-endian field of `n` bytes at `off`. -/
def field (b : Bytes) (off n : Nat) : Nat := leNat ((b.drop off).take n)

/-- The network-order field of `n` bytes at `off`, short fields padded on the right with zeros. -/
def fieldBe (b : Bytes) (off n : Nat) : Nat := beNat (slice b off n)

def u8 (b : Bytes) (off : Nat) : Nat := field b off 1
def u16 (b : Bytes) (off : Nat) : Nat := field b off 2
def u32 (b : Bytes) (off : Nat) : Nat := field b off 4
def u64 (b : Bytes) (off : Nat) : Nat := field b off 8

/-- The signed reading of the low `n` bits of `v`. -/
def toSigned (n v : Nat) : Int :=
  let w := v % 2 ^ n
  if 2 * w < 2 ^ n then (w : Int) else (w : Int) - (2 ^ n : Nat)

/-- The unsigned `n`-bit code of a signed value. -/
def ofSigned (n : Nat) (v : Int) : Nat := (v % ((2 ^ n : Nat) : Int)).toNat

def s8 (b : Bytes) (off : Nat) : Int := toSigned 8 (u8 b off)
def s32 (b : Bytes) (off : Nat) : Int := toSigned 32 (u32 b off)
def s64 (b : Bytes) (off : Nat) : Int := toSigned 64 (u64 b off)

/-- Bit `i` of `v`. -/
def bit (v i : Nat) : Bool := v.testBit i

/-- The field of `n` bits of `v` from bit `lo`. -/
def bits (v lo n : Nat) : Nat := v / 2 ^ lo % 2 ^ n

/-- `v` with its field of `n` bits from bit `lo` set to `x`. -/
def setBits (v lo n x : Nat) : Nat :=
  v - 2 ^ lo * bits v lo n + 2 ^ lo * (x % 2 ^ n)

/-- 1 for true, 0 for false. -/
def b2n (b : Bool) : Nat := if b then 1 else 0

/-- `b` with the `n`-byte field at `off` set to `v`, little-endian; the length stays. -/
def putField (b : Bytes) (off n v : Nat) : Bytes :=
  b.take off ++ (toLe n v).take (b.length - off) ++ b.drop (off + n)

/-- `b` with the bytes `x` written at `off`; the length stays. -/
def putBytes (b : Bytes) (off : Nat) (x : Bytes) : Bytes :=
  b.take off ++ x.take (b.length - off) ++ b.drop (off + x.length)

/-- An image of `n` bytes from its fields, each an offset, a width in bytes and a value; the rest is zero. -/
def image (n : Nat) (fs : List (Nat × Nat × Nat)) : Bytes :=
  fs.foldl (fun b f => putField b f.1 f.2.1 f.2.2) (List.replicate n 0)

/-- Whether every byte is zero. -/
def allZero (b : Bytes) : Bool := b.all (fun x => x == 0)

/-- Whether the `n` bytes at `off` are all zero. -/
def zeroAt (b : Bytes) (off n : Nat) : Bool := allZero ((b.drop off).take n)

/-- The least index at which `p` holds, below `n`. -/
def firstIdx (n : Nat) (p : Nat → Bool) : Option Nat := (List.range n).find? p

/-- The indices below `n` whose bit of the mask `m` is set, ascending. -/
def maskBits (n m : Nat) : List Nat := (List.range n).filter (bit m)

/-- The number of set bits of `m` below `n`. -/
def popcount (n m : Nat) : Nat := (maskBits n m).length

/-- Addition that stops at `2^n - 1`. -/
def satAdd (n a b : Nat) : Nat := min (a + b) (2 ^ n - 1)

/-- Addition modulo `2^n`. -/
def wrapAdd (n a b : Nat) : Nat := (a + b) % 2 ^ n

/-- Division rounded up. -/
def ceilDiv (a b : Nat) : Nat := (a + b - 1) / b

/-- Whether `v` is a power of two. -/
def isPow2 (v : Nat) : Bool := v != 0 && 2 ^ v.log2 == v

/-- One bit step of a reflected 32-bit CRC with polynomial `poly` (in reflected form). -/
def crcStep (poly crc : BitVec 32) : BitVec 32 :=
  if crc.getLsbD 0 then (crc >>> 1) ^^^ poly else crc >>> 1

/-- One byte of a reflected 32-bit CRC. -/
def crcByte (poly crc : BitVec 32) (b : Byte) : BitVec 32 :=
  let c := crc ^^^ b.setWidth 32
  crcStep poly (crcStep poly (crcStep poly (crcStep poly
    (crcStep poly (crcStep poly (crcStep poly (crcStep poly c)))))))

/-- A reflected 32-bit CRC over `b`: register started at ones, result inverted. -/
def crcOver (poly : BitVec 32) (b : Bytes) : BitVec 32 :=
  ~~~ (b.foldl (crcByte poly) 0xFFFFFFFF#32)

/-- CRC-32C, the Castagnoli code. -/
def crc32c (b : Bytes) : Nat := (crcOver 0x82F63B78#32 b).toNat

/-- The Ethernet frame check sequence (IEEE 802.3), as the four bytes that end a frame. -/
def fcsOf (b : Bytes) : Bytes := toLe 4 (crcOver 0xEDB88320#32 b).toNat

/-- The sum of 16-bit network-order words, for the Internet checksum. -/
def sum16 : Bytes → Nat
  | [] => 0
  | [a] => a.toNat * 256
  | a :: b :: t => a.toNat * 256 + b.toNat + sum16 t

/-- Ones' complement folding of a sum to 16 bits. -/
def fold16 (v : Nat) : Nat :=
  let a := v % 65536 + v / 65536
  let b := a % 65536 + a / 65536
  b % 65536 + b / 65536

/-- The Internet checksum of a byte string. -/
def inetSum (b : Bytes) : Nat := 65535 - fold16 (sum16 b)

/-- The floor of the base-2 logarithm; 0 of 0. -/
def log2 (v : Nat) : Nat := v.log2

/-- Whether `v` lies in `lo` to `hi`. -/
def inRange (v lo hi : Nat) : Bool := lo ≤ v && v ≤ hi

/-- Whether the signed `v` lies in `lo` to `hi`. -/
def inRangeI (v lo hi : Int) : Bool := lo ≤ v && v ≤ hi

/-- Rounding of `n / d` to the nearest integer, halves up. -/
def roundDiv (n : Int) (d : Int) : Int := (2 * n + d) / (2 * d)

/-- The list with its element `i` replaced. -/
def setAt {α : Type} (l : List α) (i : Nat) (v : α) : List α := l.set i v

/-- The list without its element `i`. -/
def dropAt {α : Type} (l : List α) (i : Nat) : List α := l.eraseIdx i

end Sys2Proof.Machine
end

