-- ==== Sys2Proof/Machine/State/Power.lean ====
section
/-!
DEFINITION. State of power capping, thermal control and ageing (chapter 14).
-/

namespace Sys2Proof.Machine

/-- A step-down of one lane that P does not yet reflect (R412): its estimated saving in mW, and when the lane made it. -/
structure LinkStep where
  saving : Nat
  doneAt : Option Nat := none
deriving DecidableEq, Repr

/-- One temperature sensor (R415): its reading in 1/16 °C, whether it is excluded, since when it has not changed, and what the
sensors of its die read then. -/
structure Sensor where
  value : Int := 0
  excluded : Bool := false
  since : Nat := 0
  refs : List Int := []
deriving DecidableEq, Repr

/-- The VDD_CORE regulator as Icoux drives it (R418 to R420), in mV: the target written last, what the regulator reports, and the
attempts of the transaction in progress that have failed. -/
structure Avs where
  target : Nat := 0
  reported : Nat := 0
  failed : Nat := 0
deriving DecidableEq, Repr

/-- The cone gauges of one quadrant (R421, R423): those excluded, and the slowdown of the worst included one in the last 10
epochs, newest first, in ppm. -/
structure Gauges where
  excluded : List Nat := []
  worst : List Nat := []
deriving DecidableEq, Repr

/-- The ageing record of one lane (R406, R424): its daily minimum height and width, those of past days, newest first, the monthly
minima, until when a failed step keeps it from another, whether its eye has fallen below the floor, and whether it is worn. -/
structure LaneAge where
  today : Option (Nat × Nat) := none
  days : List (Nat × Nat) := []
  months : Store (Nat × Nat) := []
  barredUntil : Nat := 0
  below : Bool := false
  worn : Bool := false
deriving DecidableEq, Repr

/-- All of chapter 14's state. `bubble` is the n of each quadrant, `armed` the n each die takes at its next frame, `inForce` the n
of each die's present frame; `bubbleAt` is the datapath time, in 1/65,536 ns, of a partition's latest bubble. `cycle` is the
instant of the last control cycle, `cycleSeen` the (die, partition) entries that have fired at it, `cycleAt` its real time.
Powers are in mW. `energy` holds the energy counters in nJ, by counter key, `scales` the calibration scales in 1/65,536, keyed
4 × quadrant + class. `ages` are keyed by lane, `gauges` and `heat` (2^-32 h at 95 °C) by quadrant, `sensors` by number.
`heatAt` and `sampleAt` are the real times of the last accumulation and sample. -/
structure PowerState where
  cap : Bytes := []
  bubble : Store Nat := []
  armed : Store Nat := []
  inForce : Store Nat := []
  bubbleAt : Store Nat := []
  overruns : Nat := 0
  spillLimit : Nat := 100
  linkLevel : Nat := 0
  linkReleased : Option Nat := none
  cycle : Option Nat := none
  cycleSeen : List Nat := []
  cycleAt : Nat := 0
  last : PowerIn := {}
  capEff : Option Nat := none
  steps : Store LinkStep := []
  atFloor : Bool := false
  floorRun : Nat := 0
  belowFloor : Bool := false
  unreachable : Bool := false
  thermal : Bool := false
  sensors : Store Sensor := []
  sampleAt : Nat := 0
  hotStacks : List Nat := []
  avs : Avs := {}
  vddFull : Nat := 0
  vddEased : Nat := 0
  guard : Nat := 25
  planSlowdown : Nat := 0
  replans : Nat := 0
  lastReplan : Nat := 0
  gauges : Store Gauges := []
  heat : Store Nat := []
  heatAt : Nat := 0
  ages : Store LaneAge := []
  day : Nat := 0
  energy : Store Nat := []
  scales : Store Nat := []
deriving DecidableEq, Repr

end Sys2Proof.Machine
end

