-- ==== Sys2Proof/Machine/State/Boot.lean ====
section
/-!
DEFINITION. State of reset, start-up, firmware slots, the boot flash and the test access port (chapters 17 to 19).
-/

namespace Sys2Proof.Machine

/-- STAGE of HST_STATUS (R456). -/
inductive Stage
  | bisque
  | glazeInit
  | ready
  | failed
  | warmRestart
deriving DecidableEq, Repr

/-- The state of a firmware update (R511): 0 idle, 2 writing, 3 written, 4 failed; the status of the last commit or write; and the
slot being written with what it is to hold. -/
structure FwUpdate where
  state : Nat := 0
  last : Nat := 0
  writing : Option (Nat × FwImage) := none
deriving DecidableEq, Repr

/-- The data area of the flash (R531): which copies are valid, and what the newer valid one holds: the boot control record, the role
keys and what Icoux keeps beside them. -/
structure DataArea where
  validA : Bool := false
  validB : Bool := false
  seq : Nat := 0
  nextSlot : Nat := 0
  trials : Store Nat := []
  keys : Store Bytes := []
  heat : Store Nat := []
  ages : Store LaneAge := []
deriving DecidableEq, Repr

/-- The instructions of the test access port (R567). -/
inductive TapInstr
  | idcode
  | bypass
  | samplePreload
  | extest
  | extestPulse
  | extestTrain
  | highz
  | clamp
deriving DecidableEq, Repr

/-- The test access port (R567): the instruction loaded, the data register it selected as the last scan left it, and the update stage of the
boundary-scan register. Cells stand from TDO to TDI. -/
structure Tap where
  instr : TapInstr := .idcode
  shifted : List Bool := []
  latched : List Bool := []
deriving DecidableEq, Repr

/-- All of chapter 18's state, with what lies in always-on registers, fuses and the flash (R525). `capModes` are the profiles in force
when the capability list was published; `running` is the image that runs, from `slot`; `tries` counts the failures of each glaze step; `warmDue` is a
warm restart asked for: its cause and target slot; `resetAt` when a DEVICE_RESET takes effect; `otherArea` is the older copy of the data area. -/
structure BootState where
  stage : Stage := .bisque
  bootError : Nat := 0
  capsReady : Bool := false
  capModes : Bytes := []
  running : FwImage := {}
  resetLow : Bool := true
  resetLowSince : Nat := 0
  cause : Nat := 0
  tripRecord : Option Bytes := none
  tripped : Bool := false
  strap : Nat := 0
  slot : Nat := 0
  romRan : Bool := false
  t0 : Nat := 0
  g0 : Nat := 0
  tries : Store Nat := []
  laneDieFailed : Store Bool := []
  failedInBisque : Bool := false
  warmDue : Option (Nat × Nat) := none
  warmBegan : Nat := 0
  warmTarget : Nat := 0
  warmTimes : List Nat := []
  resetAt : Option Nat := none
  slots : Store FwImage := []
  update : FwUpdate := {}
  dataArea : DataArea := {}
  otherArea : DataArea := {}
  securityMin : Nat := 0
  powered : Bool := true
  tap : Tap := {}
deriving DecidableEq, Repr

end Sys2Proof.Machine
end

