-- ==== Sys2Proof/Machine/State/Buf.lean ====
section
/-!
DEFINITION. State of the shared buffer, the pool manager and DRAM spill (chapter 10).
-/

namespace Sys2Proof.Machine

/-- A copy of a DRAM section (R291 to R294): its spill sequence number, its slots (16 × block + slot), the staging cells
already written, a staging write or a return read in progress, a return that waits for a shared cell, and whether an
uncorrectable word was met. -/
structure Spilled where
  seq : Nat
  slots : List Nat
  written : Nat := 0
  writing : Bool := false
  reading : Bool := false
  stalled : Bool := false
  bad : Bool := false
deriving DecidableEq, Repr

/-- One queued copy of a frame: its descriptor (R281) and what it holds. `cells` are the cells it has in SRAM, in chain order;
`guar`, `shared` and `headroom` what it is charged. `ingress` is the port whose occupancy counts it. `queueCells` and
`quadCells` are the queue's and the quadrant's cells at its admission, `charged` the length it was charged with when it was
selected before its frame had ended; `gone` says that its descriptor is released and only cells still being written remain. -/
structure Copy where
  frame : Nat
  quad : Nat
  port : Nat
  queue : Nat
  leaf : Option Nat := none
  cls : Nat := 0
  colour : Nat := 0
  lossless : Bool := false
  cells : List Nat := []
  guar : Nat := 0
  shared : Nat := 0
  headroom : Nat := 0
  ingress : Option Nat := none
  mirror : Option Nat := none
  exporter : Option Nat := none
  trunc : Nat := 0
  cutThrough : Bool := false
  started : Bool := false
  spill : Option Spilled := none
  queueCells : Nat := 0
  quadCells : Nat := 0
  charged : Option Nat := none
  gone : Bool := false
deriving DecidableEq, Repr

/-- One egress queue: its copies in admission order, its state and its peak (R288, R291, R304). `openBlock` is the open block and
the next slot in it, `seq` the next spill sequence number. -/
structure BufQueue where
  fifo : List Nat := []
  spilling : Bool := false
  peak : Nat := 0
  openBlock : Option (Nat × Nat) := none
  seq : Nat := 0
  rebuilding : Bool := false
deriving DecidableEq, Repr

/-- A spill block in use: its live slots, whether it still takes slots, and whether it is retired (R291, R301). -/
structure SpillBlock where
  live : Nat := 0
  closed : Bool := false
  bad : Bool := false
  dead : Bool := false
deriving DecidableEq, Repr

/-- One quadrant's buffer. `cells` lists the cells that are not free, by address, with the copies that hold each: zero is a
cell no copy holds. `retired` are the retired cells, `suspect` those with an uncorrectable word and when. `ptr` is the bank
pointer, `used` the banks that have allocated in this clock. `retrain` is when the stack's interface began to retrain.
`beats` counts the beats of the current window by class: 0 background, 1 COUNT, 2 LOOKUP, 3 SPILL, 4 FIRMWARE.
`scrubbing` says of a scrub class that its pass runs (1), or runs with the next one due, its overrun not yet (2) or already
counted (3); `rebuilds` are the fault bits whose
rebuild runs. -/
structure BufQuad where
  pool : Bytes := []
  cells : Store Nat := []
  retired : List Nat := []
  suspect : List (Nat × Nat) := []
  ptr : Nat := 0
  used : List Nat := []
  minFree : Option Nat := none
  blocks : Store SpillBlock := []
  retrain : Option Nat := none
  share : Bytes := []
  beats : Store Nat := []
  spillTurn : Nat := 0
  overruns : Store Nat := []
  scrubbing : Store Nat := []
  rebuilds : List Nat := []
deriving DecidableEq, Repr

/-- All of chapter 10's state. Queues are keyed 20 × port + queue, profiles 64 × quadrant + profile. -/
structure BufState where
  quads : Store BufQuad := []
  copies : Store Copy := []
  nextCopy : Nat := 0
  queues : Store BufQueue := []
  profiles : Store Bytes := []
  portAdmit : Store Bytes := []
  scrub : Bytes := []
deriving DecidableEq, Repr

end Sys2Proof.Machine
end

