-- ==== Sys2Proof/Machine/State/Fault.lean ====
section
/-!
DEFINITION. State of the fault collector, injection and the kiln log (chapter 15).
-/

namespace Sys2Proof.Machine

/-- A raise on its way to the Q0 saggar (R430). The last four fields carry what an injection or an overrun adds. -/
structure Raise where
  bit : Nat
  kind : Nat
  index : Nat
  injected : Bool := false
  noEscalate : Bool := false
  noReset : Bool := false
  overran : Bool := false
deriving DecidableEq, Repr

/-- The level of a site (R434). -/
inductive Level
  | quiet
  | contained
  | fenced
deriving DecidableEq, Repr

/-- One entry of the site table (R434, R438). `grace` and `last` are real times. -/
structure Site where
  bit : Nat
  kind : Nat
  index : Nat
  level : Level := .quiet
  count : Nat := 0
  last : Nat := 0
  grace : Option Nat := none
  held : Bool := false
  injected : Bool := false
  capContained : Bool := false
  capFenced : Bool := false
  overran : Bool := false
deriving DecidableEq, Repr

/-- The escalation policy of one fault bit (R436). -/
structure Policy where
  maxLevel : Nat := 2
  flags : Nat := 1
  repeatLimit : Nat := 8
  graceMs : Nat := 10
  quietMs : Nat := 1000
deriving DecidableEq, Repr

/-- The counts of one fault bit (R438). -/
structure BitStat where
  raises : Nat := 0
  escalations : Nat := 0
  recoveries : Nat := 0
  sec : Nat := 0
  ns : Nat := 0
deriving DecidableEq, Repr

/-- An armed injection point (R442). -/
structure InjPoint where
  bit : Nat
  kind : Nat
  flags : Nat
  siteKind : Nat
  siteIndex : Nat
  left : Nat
  intervalUs : Nat
  lastAt : Option Nat := none
deriving DecidableEq, Repr

/-- A kiln log record (R445). `firstAt` is the real time of its first occurrence; `bad` marks an uncorrectable word. -/
structure KilnRec where
  code : Nat
  times : Nat := 1
  seq : BitVec 32 := 0
  sec : Nat := 0
  ns : Nat := 0
  faultBit : Nat := 255
  holdover : Bool := false
  injected : Bool := false
  preReset : Bool := false
  lastMs : Nat := 0
  data : Bytes := []
  firstAt : Nat := 0
  bad : Bool := false
deriving DecidableEq, Repr

/-- A test-mode key that waits to be written (R441). -/
structure PendingKey where
  key : BitVec 32
  slot : Nat
  issued : Nat
deriving DecidableEq, Repr

/-- All of chapter 15's state. `kiln` holds the newest record first. `lastCaptured` answers whether the record most
recently written is still in the log (R447). -/
structure FaultState where
  sites : List Site := []
  policy : Store Policy := []
  stats : Store BitStat := []
  inFlight : List Raise := []
  latch : BitVec 64 := 0
  alertEn : BitVec 64 := 0xFFFFFFFFFFFFFFFF
  raises : BitVec 32 := 0
  testMode : Bool := false
  testSlot : Nat := 0
  pendingKey : Option PendingKey := none
  voided : List Nat := []
  lockedUntil : Nat := 0
  points : List InjPoint := []
  kiln : List KilnRec := []
  nextSeq : BitVec 32 := 0
  newestIsLast : Bool := false
  cursor : BitVec 32 := 0
  latching : Bool := false
  window : Bytes := []
  halfLatch : Store (BitVec 32) := []
  onceSec : Store Nat := []
deriving DecidableEq, Repr

end Sys2Proof.Machine
end

