-- ==== Sys2Proof/Machine/State/Time.lean ====
section
/-!
DEFINITION. State of network time, the time pins and the firing schedule (chapter 02).
-/

namespace Sys2Proof.Machine

/-- One copy of a time domain: seconds, nanoseconds 0 to 999,999,999 and a 32-bit fraction (R34). -/
structure TimeCopy where
  sec : BitVec 64 := 0
  ns : Nat := 0
  frac : BitVec 32 := 0
deriving DecidableEq, Repr

/-- A latched time: whole seconds, nanoseconds and a fraction in 1/65,536 ns (R47), with the holdover flag (R40). -/
structure Stamp where
  sec : Nat := 0
  ns : Nat := 0
  frac : Nat := 0
  holdover : Bool := false
deriving DecidableEq, Repr

/-- A running slew (R42): offset in 1/65,536 ns, duration in microseconds, and the real time it began. -/
structure Slew where
  offset : Int
  durationUs : Nat
  began : Nat
deriving DecidableEq, Repr

/-- The configuration and status of one domain (R37 to R42). Rates are in 1/256 ppb. -/
structure Domain where
  enable : Bool := true
  datapath : Bool := false
  source : Nat := 0
  refclkFreq : Nat := 0
  rateAdj : Int := 0
  holdover : Bool := false
  lastGood : Int := 0
  slew : Option Slew := none
deriving DecidableEq, Repr

/-- The clocking of every copy during a clock-profile change (R45). -/
inductive SwitchPhase
  /-- No change runs: copies count core ticks. -/
  | idle
  /-- Before step 1 of a change to FULL: VDD_CORE is being raised (R419). -/
  | raising
  /-- Step 1: the new increments are staged. -/
  | staged
  /-- Step 2: holdover clocking, waiting for every PLL at the new frequency. -/
  | relocking
  /-- Step 3 reached: the next strobe returns the copies to core ticks. -/
  | locked
  /-- Step 4 reached: replica loops reconverge. -/
  | converging
  /-- After the TIMEOUT: holdover clocking, waiting for every PLL at the old frequency. -/
  | restoring
  /-- The old frequency is locked: the next strobe returns the copies. -/
  | restored
  /-- 100 µs after the TIMEOUT a PLL is still unlocked: retried every 10 ms. -/
  | stuck
deriving DecidableEq, Repr

/-- A clock-profile change in progress (R45): `began` is t0, `timedOut` the instant of the TIMEOUT, `run` the command. -/
structure ProfileSwitch where
  phase : SwitchPhase := .idle
  newEased : Bool := false
  began : Nat := 0
  timedOut : Nat := 0
  lastTry : Nat := 0
  locked : List Nat := []
  run : Option Nat := none
  data : Bytes := []
deriving DecidableEq, Repr

/-- A write tagged to apply at the next alignment strobe (R38, R41, R43, R57, R322), with the command it ends. -/
inductive Tagged
  | domain (obj : Bytes) (run : Nat)
  | adjust (obj : Bytes) (run : Nat)
  | entry (domain : Nat) (obj : Bytes) (run : Nat)
  | mcast (obj : Bytes) (run : Nat)
  | own (domain : Nat) (obj : Bytes)
deriving DecidableEq, Repr

/-- One firing entry (R57) with the counters of R65. `instant` is the first instant not yet fired, in ns, per die. -/
structure FiringEntry where
  obj : Bytes := []
  enabled : Bool := false
  instants : List (Option Nat) := []
  lag : Nat := 0
  skip : Nat := 0
  fires : Nat := 0
  faulted : Bool := false
  late : Store Nat := []
  stepped : List Nat := []
deriving DecidableEq, Repr

/-- A time pin (R53 to R55). An output's `pulseEnd` is the real time its pulse ends. -/
structure TimePin where
  flags : Nat := 0
  domain : Nat := 0
  captures : List Bytes := []
  overflow : Nat := 0
  edges : Nat := 0
  active : Bool := false
  pulseEnd : Nat := 0
deriving DecidableEq, Repr

/-- The two-step FIFO of one pipeline (R52). -/
structure TwoStep where
  records : List Bytes := []
  overflow : Nat := 0
deriving DecidableEq, Repr

/-- All of chapter 02's state. `copies` and `trim` are keyed 4 × die + domain. -/
structure TimeState where
  copies : Store TimeCopy := []
  trim : Store Int := []
  domains : Store Domain := []
  eased : Bool := false
  switch : ProfileSwitch := {}
  altClock : Store Bool := []
  strobeTicks : Nat := 0
  missed : Store Nat := []
  needHard : Store Bool := []
  tagged : List Tagged := []
  portTime : Store Bytes := []
  twoStep : Store TwoStep := []
  pins : Store TimePin := []
  entries : Store FiringEntry := []
  firedInTick : Store Nat := []
  corrected : Nat := 0
deriving DecidableEq, Repr

end Sys2Proof.Machine
end

