-- ==== Sys2Proof/Machine/State/Frame.lean ====
section
/-!
DEFINITION. Frames in the device, their deliveries to host rings, and the parse graph of a pipeline (chapters 04 and 05).
-/

namespace Sys2Proof.Machine

/-- Where a frame stands. -/
inductive Place
  /-- A MAC control frame still arriving (R103 check 3). -/
  | control
  /-- Dropped, trapped or delivered from the MAC: it has no further place in its pipeline. -/
  | spent
  /-- In the FIFO or buffer of its source, waiting for the parser. -/
  | fifo
  /-- Held while its pipeline quiesces or is loaded (R179, R185). -/
  | hold
  /-- Parked: a visit waits for a byte (R125). -/
  | parked
  /-- Parsed: waits its turn to enter S0 (R142). -/
  | parsed
  /-- About to enter its stage. -/
  | stage
  /-- Its lookups of the stage wait for a table outside the stage. -/
  | waiting
  /-- Its routine waits for a thread context (R190). -/
  | issue
  /-- Its routine runs in a context. -/
  | running
  /-- Finished with its stage: waits in the output sequencer (R192). -/
  | sequenced
  /-- Out of S23, to be decided (R164). -/
  | decide
  /-- Stored while the signature engines scan it (R259). -/
  | inspect
  /-- Out of S23 and waiting in the order queue (R261). -/
  | ordered
deriving DecidableEq, Repr

/-- A parse graph: sparse tables of entries as numbers, least significant byte first (R129 to R132, R143). -/
structure Graph where
  start : List Nat := [0, 0, 0, 0]
  nodes : Store Nat := []
  trans : Store Nat := []
  exts : Store Nat := []
deriving DecidableEq, Repr

/-- What one slot of a stage found for a frame (R160): whether it hit, the entry index and the action data. -/
structure SlotResult where
  hit : Bool := false
  index : Nat := 0
  data : Nat := 0
deriving DecidableEq, Repr

/-- One frame in the device. `source`: 0 front panel, 1 recirculated, 2 host-injected, 3 inspection return. `data` is what
has arrived, from the destination address on, the FCS included. `bad` is the R104 reason once it is a bad frame. `resv` is
what it reserves of its FIFO. `ts` and `tsPtp` are the 96-bit timestamps of R47, `tsHold` the holdover flag
of the latter, `stamp` the datapath time of `ts`. `graph` is set once the pipeline has gone on
to another version, `present` is the header-present bitmap, `reached` says that a pipeline's parser has taken the frame,
`parkHeld` that it has been counted in prs_park_full. `epoch` is its pipeline's when it entered S0 (R178), `slots` and `routine`
what its stage has found, `returned` that it has been through the inspection path. `srcKey` is its FDB source key, `learned`
that it has made its learn request, `fdbDst`, `fdbSrc` and `lpmRes` its results before the stages that see them, `hostCfg` the
HOST_LOOKUP object it entered S0 under, `hostDue` that its host-table result is outstanding and `hostRes` the result. `passes`
counts recirculations, `orig` is the number of its first pass and `named` the destination and class that pass named (R261);
`reassembled` says that it came in fragments, `policed` names the policer and
the colour it was charged with before its end (R342); `mirrorOf` is the session of a reparsed mirror copy (R325). -/
structure Frame where
  port : Nat := 0
  pipe : Nat := 0
  source : Nat := 0
  data : Bytes := []
  ended : Bool := false
  bad : Nat := 0
  maxFrame : Nat := 0
  resv : Nat := 0
  place : Place := .fifo
  stage : Nat := 0
  ts : Nat := 0
  tsPtp : Nat := 0
  tsHold : Bool := false
  stamp : Stamp := {}
  graph : Option Graph := none
  cursor : Nat := 0
  visits : Nat := 0
  node : Nat := 0
  malformed : Nat := 0
  present : Nat := 0
  hdr : Store Nat := []
  reached : Bool := false
  parkHeld : Bool := false
  epoch : Nat := 0
  slots : List SlotResult := []
  routine : Nat := 0
  returned : Bool := false
  srcKey : Option Nat := none
  learned : Bool := false
  fdbDst : Nat := 0
  fdbSrc : Nat := 0
  lpmRes : Nat := 0
  hostCfg : Bytes := []
  hostDue : Bool := false
  hostRes : Nat := 0
  passes : Nat := 0
  orig : Nat := 0
  named : Option Nat := none
  reassembled : Bool := false
  policed : Option (Nat × Nat) := none
  mirrorOf : Option Nat := none
deriving DecidableEq, Repr

/-- A delivery to a host ring that waits (R471). `reason` and `info` go into the receive descriptor (R470). -/
structure Delivery where
  ring : Nat
  frame : Nat
  reason : Nat
  info : Nat := 0
  whole : Bool := true
  limit : Nat := 0
  trunc : Nat := 0
deriving DecidableEq, Repr

/-- The frames in the device by number, in order of arrival, and the deliveries waiting. -/
structure FrameState where
  frames : Store Frame := []
  next : Nat := 0
  deliveries : List Delivery := []
deriving DecidableEq, Repr

/-- One pipeline's parser (R129, R138, R147). -/
structure ParserPipe where
  graph : Graph := {}
  malformed : Bytes := []
  reloading : Bool := false
deriving DecidableEq, Repr

/-- All of chapter 05's state, by pipeline. -/
structure ParserState where
  pipes : Store ParserPipe := []
deriving DecidableEq, Repr

end Sys2Proof.Machine
end

