-- ==== Sys2Proof/Machine/State/Fwd.lean ====
section
/-!
DEFINITION. State of the forwarding tables: FDB, learning, notifications, command windows, LPM and host table (chapter 08).
-/

namespace Sys2Proof.Machine

/-- The command window of a pipeline (R239, R240) and its grant (R244). A command that is running is the OP of `cmd`. -/
structure FdbWindow where
  cmd : Nat := 0
  status : Nat := 0
  busy : Bool := false
  done : Bool := false
  kept : Bool := false
  index : Nat := 0
  relgen : Nat := 0
  data : Nat := 0
  rejects : Nat := 0
  session : Option Nat := none
  rights : Nat := 0
deriving DecidableEq, Repr

/-- A (type, key) pair notified and the real time of its last notification (R236). -/
structure HeldPair where
  kind : Nat
  key : Nat
  at_ : Nat
deriving DecidableEq, Repr

/-- One pipeline's forwarding tables. `fdb` is keyed by FDB index and holds rows of R223; `learning` says that the arbiter has
granted the learn engine its turn; `lastGrant` is the requester granted last: 0 learn engine, 1 Icoux, 2 window. `routes`
is keyed by family, vrf, length and prefix; `freeing` gives the instants at which removed pivots' buckets are free. -/
structure FwdPipe where
  fdb : Store Nat := []
  relgen : Nat := 0
  poisoned : List Nat := []
  learnQ : List (Nat × Nat) := []
  learning : Bool := false
  held : List HeldPair := []
  learn : Bytes := []
  window : FdbWindow := {}
  lastGrant : Nat := 2
  routes : Store Nat := []
  freeing : List Nat := []
  pivotBad : Bool := false
  bucketBad : Bool := false
  hostLookup : Bytes := []
deriving DecidableEq, Repr

/-- One quadrant's notification ring (R235, R236). -/
structure NtfRing where
  obj : Bytes := []
  producer : BitVec 32 := 0
  lost : Nat := 0
  pendingWb : Bool := false
deriving DecidableEq, Repr

/-- A command whose operation waits at the write arbiters of pipelines (R234). `left` and `failed` are pipeline masks. -/
structure FdbJob where
  run : Nat
  obj : Bytes
  left : Nat
  failed : Nat := 0
  first : Option (Nat × Nat) := none
deriving DecidableEq, Repr

/-- One slot of the host table (R251). -/
structure HostRow where
  key : Nat
  result : Nat
  hit : Bool := false
deriving DecidableEq, Repr

/-- A host-table request of a quadrant's reader (R253). -/
structure HostRead where
  frame : Nat
  key : Nat
  second : Bool := false
deriving DecidableEq, Repr

/-- All of chapter 08's state. Host slots are keyed quadrant × 2^24 + 4 × bucket + slot; `hostAlt` counts, by quadrant × 2^22 +
bucket, the keys whose b1 is the bucket and that lie in their b2. -/
structure FwdState where
  pipes : Store FwdPipe := []
  rings : Store NtfRing := []
  jobs : List FdbJob := []
  host : Store HostRow := []
  hostAlt : Store Nat := []
  hostBad : List Nat := []
  reads : Store (List HostRead) := []
deriving DecidableEq, Repr

end Sys2Proof.Machine
end

