-- ==== Sys2Proof/Machine/State/Host.lean ====
section
/-!
DEFINITION. State of the host interfaces and of Icoux's command handling (chapters 16 and 17).
-/

namespace Sys2Proof.Machine

/-- STATE of HST_MBX_STATUS (R457). -/
inductive SlotState
  | free
  | pending
  | opened
  | closing
deriving DecidableEq, Repr

/-- One mailbox slot (R457) with the rate limits of R482 and, for a session on I3C, its buffers (R476, R478).
Instants are real times. -/
structure Slot where
  ctrl : BitVec 32 := 0
  state : SlotState := .free
  i3c : Bool := false
  limited : Bool := false
  role : Nat := 0
  cmdBase : BitVec 64 := 0
  cplBase : BitVec 64 := 0
  cmdHead : BitVec 32 := 0
  cmdProd : BitVec 32 := 0
  cplTail : BitVec 32 := 0
  cplHead : BitVec 32 := 0
  faults : BitVec 32 := 0
  faultAt : List Nat := []
  credit : Bool := false
  lastTake : Nat := 0
  wrong : List Nat := []
  lockedUntil : Nat := 0
  payload : Store Byte := []
  reply : Bytes := []
  submitted : Option Bytes := none
  draining : Bool := false
deriving DecidableEq, Repr

/-- The Icoux status codes (R490). -/
inductive Status
  | ok
  | busy
  | badarg
  | denied
  | notsup
  | range
  | state
  | nores
  | timeout
  | integrity
  | pending
  | moved
  | capUnreachable
deriving DecidableEq, Repr

/-- A command in progress: taken, not yet ended (R493). `id` names it to the work that ends it. -/
structure Running where
  id : Nat
  slot : Nat
  tag : Nat
  opcode : Nat
  write : Bool
  replyMax : Nat
  replyAddr : BitVec 64
deriving DecidableEq, Repr

/-- A command that has ended and whose completion is to be written (R460, R461). `aside` marks one that was never in progress: the
BUSY and NORES answers of R478. -/
structure Ended where
  slot : Nat
  tag : Nat
  opcode : Nat
  status : Status
  write : Bool := false
  transport : Bool := false
  apply : Nat := 0
  data : Bytes := []
  reply : Bytes := []
  replyMax : Nat := 0
  replyAddr : BitVec 64 := 0
  aside : Bool := false
deriving DecidableEq, Repr

/-- One DMA ring pair (R458, R469): its object, its indices and the coalescing of its interrupts. -/
structure Ring where
  obj : Bytes := []
  rxTail : BitVec 32 := 0
  txTail : BitVec 32 := 0
  rxHead : BitVec 32 := 0
  txHead : BitVec 32 := 0
  rxIrqAt : Option Nat := none
  txIrqAt : Option Nat := none
  rxIrqWaits : Bool := false
  txIrqWaits : Bool := false
deriving DecidableEq, Repr

/-- An upload buffer (R502, R503): the claiming slot, the declared length and check code, and the bytes written. -/
structure Upload where
  claim : Option Nat := none
  length : Nat := 0
  crc : Nat := 0
  bytes : Store Byte := []
  written : List (Nat × Nat) := []
deriving DecidableEq, Repr

/-- The I3C target (R475 to R479): its address, whether in-band interrupts are enabled, its limits, whether it is in HDR-DDR, the session
and offset a FETCH has set, the waiting completions, when its last write frame came, when each interrupt was last
raised, and the credential lockout of new sessions. -/
structure I3c where
  dynAddr : Option Nat := none
  events : Bool := false
  mwl : Nat := 68
  mrl : Nat := 68
  hdr : Bool := false
  fetch : Option (Nat × Nat) := none
  queue : List (Nat × Bytes) := []
  lastFrame : Option Nat := none
  completionIbi : Option Nat := none
  alertIbi : Option Nat := none
  wrong : List Nat := []
  lockedUntil : Nat := 0
deriving DecidableEq, Repr

/-- All of chapter 16's and 17's transport state. `txTurn` is the ring that last injected a frame into a pipeline. -/
structure HostState where
  slots : Store Slot := []
  running : List Running := []
  ended : List Ended := []
  nextId : Nat := 0
  rings : Store Ring := []
  txTurn : Store Nat := []
  scratch : BitVec 32 := 0
  errCount : BitVec 32 := 0
  ntfCons : Store (BitVec 32) := []
  msixTable : Store (BitVec 32) := []
  pba : Store Bool := []
  linkUp : Bool := false
  linkSpeed : Nat := 0
  linkWidth : Nat := 0
  i3c : I3c := {}
  uploads : Store Upload := []
deriving DecidableEq, Repr

end Sys2Proof.Machine
end

