-- ==== Sys2Proof/Machine/State/Lane.lean ====
section
/-!
DEFINITION. State of the lanes, lane dies and bring-up (chapter 03).
-/

namespace Sys2Proof.Machine

/-- The lane states of R75. -/
inductive LinkPhase
  | disabled
  | backoff
  | rxDetect
  | autoneg
  | training
  | lock
  | align
  | active
  | reacquireLock
  | reacquireAlign
  | failed
deriving DecidableEq, Repr

/-- The bring-up machine of one configured port (R76, R77). Instants are real times. -/
structure Link where
  phase : LinkPhase := .disabled
  since : Nat := 0
  inRow : Nat := 0
  failLogged : Bool := false
  backoffMs : Nat := 0
  waitMs : Nat := 0
  refclkWait : Bool := false
deriving DecidableEq, Repr

/-- The status of an eye scan (R513). -/
inductive ScanStatus
  | idle
  | running
  | done
  | aborted
deriving DecidableEq, Repr

/-- An eye scan of one lane (R91 to R94): its request, the points complete, each compared and
errors, oldest first, and the flags of EYE_STATUS. -/
structure EyeScan where
  status : ScanStatus := .idle
  request : Bytes := []
  points : List (Nat × Nat) := []
  flags : Nat := 0
deriving DecidableEq, Repr

/-- One lane: its objects, its receiver's locks, and what its counters' rules need (R70, R80 to R87, R96). `reference` is its
reference eye height (R424), `stepAt` when it stepped down, until that step is checked (R406). -/
structure LaneSt where
  cfg : Option Bytes := none
  test : Option Bytes := none
  inTest : Bool := false
  lastCause : Nat := 0
  lastDetail : Nat := 0
  signal : Bool := false
  cdrLock : Bool := false
  symbolLock : Bool := false
  blockLock : Bool := false
  fecLock : Bool := false
  eqReduced : Bool := false
  modeInUse : Nat := 0
  coeff : Bytes := []
  snapshot : Bytes := []
  goodHeaders : Nat := 0
  slips : Nat := 0
  headerNo : Nat := 0
  badHeaders : List Nat := []
  markerHits : Nat := 0
  markerMisses : Nat := 0
  malformed : List Nat := []
  windowSymbols : Nat := 0
  lastWindow : Nat := 0
  degradedRun : Nat := 0
  chkLocked : Bool := false
  chkRun : Nat := 0
  chkWindow : List Nat := []
  elastic : Nat := 16
  eyeHeight : Nat := 0
  eyeWidth : Nat := 0
  reference : Option Nat := none
  stepAt : Option Nat := none
  scan : EyeScan := {}
deriving DecidableEq, Repr

/-- One lane die's reference (R74): lost since an instant, and whether its lanes were squelched for it. -/
structure LaneDieSt where
  lostAt : Option Nat := none
  squelched : Bool := false
  reloading : Bool := false
deriving DecidableEq, Repr

/-- One transmit PLL or substrate bundle, one per 16 lanes (R95, R97). -/
structure LaneGroup where
  pllLost : Bool := false
  retraining : Bool := false
  failedReplays : List Nat := []
deriving DecidableEq, Repr

/-- All of chapter 03's state: lanes and links keyed by lane and port number, groups by pipeline number. -/
structure LaneState where
  lanes : Store LaneSt := []
  links : Store Link := []
  dies : Store LaneDieSt := []
  groups : Store LaneGroup := []
deriving DecidableEq, Repr

end Sys2Proof.Machine
end

