-- ==== Sys2Proof/Machine/State/Mac.lean ====
section
/-!
DEFINITION. State of the ports and the MAC (chapter 04).
-/

namespace Sys2Proof.Machine

/-- Preemption of a port (R119, R121). -/
inductive PreemptPhase
  | off
  | verifying
  | active
  | failed
deriving DecidableEq, Repr

/-- One port's MAC: its objects (R101, R111, R118), flow control (R113 to R117) and preemption. Lists hold one value
per class. `timers` are the real times at which the receive pause timers reach zero, `pausedSince` when each became
nonzero, `recoverAt` the ends of storm recovery, `sentAt` when a class's XOFF was last sent. `occupancy` is keyed
8 × quadrant + class. `rx` and `assembled` name the frames arriving, whole and in fragments. -/
structure MacPort where
  config : Option Bytes := none
  flow : Option Bytes := none
  preempt : Option Bytes := none
  timers : Store Nat := []
  pausedSince : Store Nat := []
  recoverAt : Store Nat := []
  xoff : Nat := 0
  heldXoff : Bool := false
  occupancy : Store Nat := []
  sentAt : Store Nat := []
  pausedRest : Store Nat := []
  preemptPhase : PreemptPhase := .off
  verifyTries : Nat := 0
  verifyAt : Nat := 0
  assembling : Option Bytes := none
  assembled : Option Nat := none
  rx : Option Nat := none
  pcsResetting : Bool := false
deriving DecidableEq, Repr

/-- One pipeline's MAC: its filters (R106) and a reload in progress (R122). -/
structure MacPipe where
  filters : Store Bytes := []
  reloading : Bool := false
deriving DecidableEq, Repr

/-- All of chapter 04's state: ports by number and pipelines by number. -/
structure MacState where
  ports : Store MacPort := []
  pipes : Store MacPipe := []
deriving DecidableEq, Repr

end Sys2Proof.Machine
end

