-- ==== Sys2Proof/Machine/State/Mat.lean ====
section
/-!
DEFINITION. State of the match-action stages, their action engines, the decision trees and rule batches (chapters 06
and 07).
-/

namespace Sys2Proof.Machine

/-- One row of an EXACT table (R156). -/
structure ExactRow where
  key : Nat
  routine : Nat := 0
  data : Nat := 0
  hit : Bool := false
deriving DecidableEq, Repr

/-- One entry of a TERNARY or STEER table (R157, R159): `hits` counts a STEER row's hits since the batch that wrote it. -/
structure TernRow where
  value : Nat
  mask : Nat
  routine : Nat := 0
  data : Nat := 0
  hit : Bool := false
  hits : Nat := 0
deriving DecidableEq, Repr

/-- A write of a rule batch (R173): the EXACT row or the TERNARY entry of a key, and what it holds then. -/
inductive MatWrite
  | exact (stage key : Nat) (row : Option ExactRow)
  | tern (stage key : Nat) (row : Option TernRow)
deriving DecidableEq, Repr

/-- A deferred memory operation (R201, R205). -/
structure MemOp where
  op : Nat
  space : Nat
  row : Nat
  word : Nat
  data : Nat
  data2 : Nat
deriving DecidableEq, Repr

/-- What a context is doing. -/
inductive CtxPhase
  | running
  /-- Suspended at a WAIT word. -/
  | waiting
  /-- Its END word has executed; it commits when no request is outstanding. -/
  | ending
deriving DecidableEq, Repr

/-- One thread context (R189). `outstanding` lists the tags with a request, and the value that returns once it is read.
`lockRow` is the row whose lock it holds or waits for. -/
structure Ctx where
  frame : Nat
  pc : Nat
  phase : CtxPhase := .running
  g : Store Nat := []
  t : Store Nat := []
  z : Bool := false
  n : Bool := false
  c : Bool := false
  v : Bool := false
  writes : Store Nat := []
  deferred : List MemOp := []
  outstanding : Store (Option Nat) := []
  lockRow : Option Nat := none
  lockTag : Nat := 0
  lockWord : Nat := 0
deriving DecidableEq, Repr

/-- The lock of a STATE row: its holder and those who wait, in request order (R207). -/
structure RowLock where
  holder : Option Nat := none
  waiters : List Nat := []
deriving DecidableEq, Repr

/-- A word of a store marked bad, and parity errors of the last second (R210, R211). Keys: 65536 × store + address. -/
structure StoreFaults where
  bad : List Nat := []
  errors : List (Nat × Nat) := []
  repaired : Store Nat := []
  whole : List Nat := []
deriving DecidableEq, Repr

/-- One stage of one pipeline (R149, R153 to R159, R189, R204). EXACT rows are keyed (slot × 4 + way) × 2^20 + row, TERNARY
entries slot × 2^20 + index. `poisoned` holds rows that drop their lookups. -/
structure MatStage where
  descs : Store Nat := []
  unitMap : Bytes := []
  blockMap : Bytes := []
  exact : Store ExactRow := []
  tern : Store TernRow := []
  poisoned : List Nat := []
  rowErrors : Store (List Nat) := []
  retiredRows : Store Nat := []
  reloading : Bool := false
  micro : Store Nat := []
  entries : List Nat := []
  nano : Store Nat := []
  nanoCount : Nat := 0
  state : Store Nat := []
  stateInit : Store Nat := []
  stateBad : List Nat := []
  ctxs : Store Ctx := []
  locks : Store RowLock := []
  faults : StoreFaults := {}
deriving DecidableEq, Repr

/-- A part of a committed batch (R175): its batch and its writes. -/
structure BatchPart where
  seq : Nat
  writes : List MatWrite
deriving DecidableEq, Repr

/-- A frame's wait for the quiesce (R177): step 1 has begun. -/
inductive QuiescePhase
  | none
  | stopped
deriving DecidableEq, Repr

/-- One pipeline's rule batches and hold FIFO (R176 to R181, R185). `retired` holds the contents before the last part,
as writes that put them back. -/
structure MatPipe where
  parts : List BatchPart := []
  appliedSeq : Nat := 0
  appliedParts : Nat := 0
  lastWindow : Nat := 0
  maxWindow : Nat := 0
  holdPeak : Nat := 0
  quiesce : QuiescePhase := .none
  retired : Option (List MatWrite) := none
  epoch : Nat := 0
  imageId : Nat := 0
  imageLoaded : Bool := false
  imageHeld : Bool := false
deriving DecidableEq, Repr

/-- One decision tree (R170, R171): its object, its applied build, the build that runs, and when the last swap was. -/
structure Tree where
  obj : Bytes := []
  generation : Nat := 0
  root : Nat := 0
  built : Store Bytes := []
  building : Option (Store Bytes) := none
  swappedAt : Option Nat := none
deriving DecidableEq, Repr

/-- A walk request of a quadrant's walker (R168, R169), in request order. The key and the build it walks are taken when it
starts; `result` holds F8 and F9 once it has ended. -/
structure Walk where
  frame : Nat
  tree : Nat
  key : List Nat := []
  rules : Store Bytes := []
  depth : Nat := 0
  began : Option Nat := none
  result : Option (Nat × Nat) := none
deriving DecidableEq, Repr

/-- All of chapter 06's and 07's state. Stages are keyed 32 × pipeline + stage, trees 16 × quadrant + tree, rules
(16 × quadrant + tree) × 2^20 + index, open batches by session. `staged` is the staged program image, `applying` the one that the last
accepted apply takes (R505), with its state code, the status that stopped it, the pipelines done and left; `applyStops` says that a
warm restart ends it after the pipeline in progress (R521). -/
structure MatState where
  stages : Store MatStage := []
  pipes : Store MatPipe := []
  trees : Store Tree := []
  rules : Store Bytes := []
  walks : Store (List Walk) := []
  openBatch : Store (List Bytes) := []
  nextSeq : Nat := 1
  everLoaded : Bool := false
  staged : Bytes := []
  applying : Bytes := []
  applyState : Nat := 0
  applyStatus : Nat := 0
  applied : Nat := 0
  applyLeft : Nat := 0
  allowLoss : Bool := false
  applyStops : Bool := false
deriving DecidableEq, Repr

end Sys2Proof.Machine
end

