-- ==== Sys2Proof/Machine/State/Observe.lean ====
section
/-!
DEFINITION. State of counters, histograms and per-packet telemetry (chapter 13).
-/

namespace Sys2Proof.Machine

/-- A published or latched snapshot of every counter or histogram: its number, instant and flags (R375, R379). -/
structure Snapshot where
  seq : Nat
  at_ : Stamp := {}
  stepped : Bool := false
  values : Store Nat := []
  inexact : Store Bool := []
deriving DecidableEq, Repr

/-- A freeze or rollover whose sweeps run: the dies that have fired and when, those whose sweep is done or counted as late
(R374, R383). `missed` marks one that was not taken (R376), kept until every die has fired it. -/
structure Sweep where
  snap : Snapshot
  fired : Store Nat := []
  done : List Nat := []
  late : List Nat := []
  missed : Bool := false
deriving DecidableEq, Repr

/-- One exporter (R390, R391): object image with template, waiting records, and the export header's counts. -/
structure Exporter where
  obj : Bytes := []
  waiting : List Bytes := []
  seq : Nat := 0
  lost : Nat := 0
  down : Bool := false
deriving DecidableEq, Repr

/-- All of chapter 13's state. `counters` and the snapshots are keyed by counter; every counter of a quadrant in
`inexactQuads` is inexact; `hist` by 64 × queue + value. -/
structure ObserveState where
  counters : Store Nat := []
  inexact : Store Bool := []
  inexactQuads : List Nat := []
  freezes : List Sweep := []
  latchedInTick : List Nat := []
  frozen : Option Snapshot := none
  previous : Option Snapshot := none
  freezeSeq : Nat := 0
  hist : Store Nat := []
  histInexact : Store Bool := []
  rollovers : List Sweep := []
  closed : Option Snapshot := none
  rolloverSeq : Nat := 0
  profiles : Store Bytes := []
  postcardCount : Store Nat := []
  exporters : Store Exporter := []
  recordSeq : Store Nat := []
  grants : Store Bytes := []
  corrected : Nat := 0
deriving DecidableEq, Repr

end Sys2Proof.Machine
end

