-- ==== Sys2Proof/Machine/State/Sched.lean ====
section
/-!
DEFINITION. State of policers, shapers, schedulers, gate lists and the transmitters (chapter 12).
-/

namespace Sys2Proof.Machine

/-- One policer (R346, R347): its object, a staged one, its buckets in 1/65,536 byte, and a reload in progress (R370). -/
structure Policer where
  obj : Bytes := []
  staged : Option Bytes := none
  tc : Nat := 0
  te : Nat := 0
  reloading : Bool := false
deriving DecidableEq, Repr

/-- One child of a weighted node: its DWRR credit, or its WFQ start tag S with whether it held a copy and was eligible when
the node was last looked at (R352, R353). -/
structure SchedChild where
  credit : Int := 0
  tag : Nat := 0
  had : Bool := false
  was : Bool := false
deriving DecidableEq, Repr

/-- One weighted node: the DWRR pointer and whether its visit has begun, and the WFQ virtual time. -/
structure SchedNode where
  ptr : Nat := 0
  inVisit : Bool := false
  v : Nat := 0
  kids : Store SchedChild := []
deriving DecidableEq, Repr

/-- A frame in transmission: its copy, the bytes inserted at an offset and those overwritten after that (R50, R51, R386), its
egress time, whether it carries the throttled flag (R387), and the bytes sent in its earlier fragments. -/
structure Tx where
  copy : Nat
  insert : Option (Nat × Bytes) := none
  writes : List (Nat × Bytes) := []
  egress : Stamp := {}
  throttled : Bool := false
  sent : Nat := 0
deriving DecidableEq, Repr

/-- One port's scheduler. `buckets` are shaper buckets in 1/65,536 byte: 0 port, 1 to 8 classes, 9 to 28 queues. `nodes`: 0 ETS,
1 to 8 classes, 16 to 31 divided queues. `gateStart` is the cycle start, in ns, with its domain. -/
structure PortSched where
  obj : Bytes := []
  staged : Option Bytes := none
  buckets : Store Int := []
  nodes : Store SchedNode := []
  gates : Option Bytes := none
  gatesStaged : Option Bytes := none
  gateStart : Option (Nat × Nat) := none
  gateEntry : Nat := 0
  gateHold : Bool := false
  tx : Option Tx := none
  preempted : Option Tx := none
  reloading : Bool := false
deriving DecidableEq, Repr

/-- All of chapter 12's state. Policers are keyed 131,072 × quadrant + index, profiles and staged profiles 4,096 × quadrant +
index, divisions 20 × port + queue with the object and its first leaf. -/
structure SchedState where
  policers : Store Policer := []
  shapers : Store Bytes := []
  shapersStaged : Store Bytes := []
  ports : Store PortSched := []
  ext : Store Bytes := []
deriving DecidableEq, Repr

end Sys2Proof.Machine
end

