-- ==== Sys2Proof/Machine/State/Sig.lean ====
section
/-!
DEFINITION. State of the signature engines and the inspection path (chapter 09).
-/

namespace Sys2Proof.Machine

/-- A signature set (R262): states, transitions, accept entries and rules by number. -/
structure SigSet where
  tag : Nat := 0
  start : Nat := 0
  states : Store Nat := []
  trans : Store Nat := []
  accepts : Store Nat := []
  rules : Store Nat := []
  ruleCount : Nat := 0
deriving DecidableEq, Repr

/-- What an engine is doing. -/
inductive EnginePhase
  | idle
  /-- It takes no new scan; running scans finish (R267 step 1), then it copies its set. -/
  | loading
  | active
  /-- Out of dispatch after an uncorrectable word (R274). -/
  | faulted
deriving DecidableEq, Repr

/-- One engine (R267, R273). `cleanSec` and `cleanNs` are the master time of its last complete clean compare. -/
structure SigEngine where
  obj : Bytes := []
  phase : EnginePhase := .idle
  loaded : Option SigSet := none
  loads : Nat := 0
  cleanSec : Nat := 0
  cleanNs : Nat := 0
deriving DecidableEq, Repr

/-- The scan of an inspection request. -/
inductive ScanPhase
  | notAsked
  | queued
  /-- Runs on an engine; what it will find is fixed when it starts (R271): F7 and the matched rules. -/
  | scanning (engine set f7 : Nat) (rules : List Nat)
  | done (f7 : Nat)
deriving DecidableEq, Repr

/-- One request of the inspection path (R259), in request order. `tree` holds F8 and F9 once the walk has ended. -/
structure InspReq where
  frame : Nat
  cells : Nat
  profile : Nat := 0
  scan : ScanPhase := .notAsked
  walk : Bool := false
  tree : Option (Nat × Nat) := none
deriving DecidableEq, Repr

/-- A command that ends when engines have loaded: SIG_ENGINE (R267) or SIG_SET_COMMIT (R508), which loads one at a time. -/
structure SigJob where
  run : Nat
  engines : List Nat
  data : Bytes
deriving DecidableEq, Repr

/-- All of chapter 09's state. Sets are keyed 16 × quadrant + set, profiles 256 × quadrant + profile, requests by quadrant. -/
structure SigState where
  sets : Store SigSet := []
  engines : Store SigEngine := []
  profiles : Store Bytes := []
  reqs : Store (List InspReq) := []
  jobs : List SigJob := []
deriving DecidableEq, Repr

end Sys2Proof.Machine
end

