-- ==== Sys2Proof/Machine/State/Switch.lean ====
section
/-!
DEFINITION. State of the switching core: transfers, mesh, multicast, mirroring, hold and drop policy (chapter 11).
-/

namespace Sys2Proof.Machine

/-- What a transfer is for (R308). -/
inductive Dest
  | unicast (port queue : Nat)
  | mcast (group version : Nat)
  | mirror (session port queue : Nat)
  | exported (exporter port queue : Nat)
deriving DecidableEq, Repr

/-- Where a transfer stands. -/
inductive TransferPlace
  /-- At the egress quadrant's admission unit. -/
  | admission
  /-- In the send queue of the first link of its path: VC1 when direct, VC2 when relayed (R310). -/
  | send
  /-- Arrived at the relaying quadrant, which has not yet queued it (R311). -/
  | arrived
  /-- In the relay queue of the second link of its path. -/
  | relay
deriving DecidableEq, Repr

/-- One transfer (R308). `via` is the relaying quadrant, `resv` the bytes it reserves of its queue, `counted` that it counts in
in_flight (R312), `colour` 0 green, 1 yellow, 2 red, 3 none. -/
structure Transfer where
  id : Nat
  frame : Nat
  src : Nat
  dst : Nat
  dest : Dest
  via : Option Nat := none
  place : TransferPlace := .admission
  resv : Nat := 0
  counted : Bool := false
  cls : Nat := 0
  colour : Nat := 0
deriving DecidableEq, Repr

/-- A frame some of whose bytes still cross a link direction (R309). -/
structure Crossing where
  frame : Nat
  dir : Nat
  relayed : Bool
deriving DecidableEq, Repr

/-- One multicast group (R320, R322): its object, and the older versions whose lists are not yet freed. -/
structure McastGroup where
  obj : Bytes := []
  old : List (Nat × Bytes) := []
  reloading : List Nat := []
deriving DecidableEq, Repr

/-- One mirror session (R323, R324): its object, the frames it has selected since its write, and a reload in progress. -/
structure MirrorSession where
  obj : Bytes := []
  selected : Nat := 0
  reloading : Bool := false
deriving DecidableEq, Repr

/-- All of chapter 11's state. `hold` gives the real time at which a port entered hold (R327); `paths` is keyed 4 × port +
quadrant and holds 0 for direct and 1 + the relaying quadrant; `dirDown` the link directions that retrain, with when they began; `replays` the times of failed replays by direction;
`linkDown` the links marked down; `crossing` the frames in mid crossing. `lateMirrors` are the mirror
copies that wait for their frame's end: session, frame and object (R325). Sessions are keyed 16 × quadrant + session. -/
structure SwitchState where
  dropPolicy : Store Bytes := []
  hold : Store Nat := []
  transfers : List Transfer := []
  nextTransfer : Nat := 0
  paths : Store Nat := []
  dirDown : Store Nat := []
  replays : Store (List Nat) := []
  linkDown : List Nat := []
  crossing : List Crossing := []
  meshConfig : Store Bytes := []
  groups : Store McastGroup := []
  sessions : Store MirrorSession := []
  queueAge : Store Bytes := []
  lateMirrors : List (Nat × Nat × Bytes) := []
deriving DecidableEq, Repr

end Sys2Proof.Machine
end

