-- ==== Sys2Proof/Machine/State.lean ====
section
/-!
DEFINITION. The machine's state, the reasons a step can stop, and the state after reset.
-/

namespace Sys2Proof.Machine

/-- Why the machine stops. -/
inductive Fault
  /-- Raised by SUPPLY_LEAVES_RANGE when a rail passes an absolute maximum rating (R558): the spec states no behaviour
  beyond those ratings. Safe: the model stops where the part may do anything. -/
  | beyondRatings
deriving DecidableEq, Repr

/-- Why a command has no meaning here. -/
inductive Refusal
  /-- Raised by an arm of exec whose command has no meaning yet. Safe: nothing is claimed of it. -/
  | notModelled (mnemonic : String)
deriving DecidableEq, Repr

/-- What the outside sees of a step; the newest stands first in `State.out`. -/
inductive Emission
  /-- The device writes host memory. -/
  | hostWrite (addr : Nat) (data : Bytes)
  /-- An MSI-X vector is signalled (R474). -/
  | vector (v : Nat)
  /-- A read of BAR0 or BAR2 returns a value. -/
  | barRead (value : Nat)
  /-- The I3C target answers a private read or a CCC read, or acknowledges. -/
  | i3cRead (data : Bytes)
  /-- The I3C target does not acknowledge. -/
  | i3cNack
  /-- The I3C target raises an in-band interrupt with this data byte (R479). -/
  | ibi (data : Byte)
  /-- A verify mPacket of IEEE 802.3br leaves a port (R119). -/
  | verify (port : Nat)
  /-- A frame or MAC control frame leaves a port. `stomped` marks an inverted FCS. -/
  | transmit (port : Nat) (data : Bytes) (stomped : Bool)
  /-- An output pin changes level. -/
  | pin (name : Nat) (level : Bool)
  /-- A test access port scan shifts these bits out, first bit first. -/
  | tdo (bits : List Bool)
  /-- The boundary-scan cells drive the pins under this instruction. -/
  | boundary (i : TapInstr) (cells : List Bool)
deriving DecidableEq, Repr

/-- One rate limiter (R573): its limit in items per second, its quadrant and its allowance in thousandths of an item. -/
structure Limiter where
  pps : Nat
  quad : Nat
  allowance : Nat
deriving DecidableEq, Repr

/-- All the device holds. `now` is real time in units of 1/35 ns, `free` counts the free values used, `out` is what
the outside has seen, and `pending` is the queue of commands, first in, first out. -/
structure State where
  now : Nat := 0
  free : Nat := 0
  out : List Emission := []
  pending : List Instr := []
  tableProfile : Nat := 0
  bufferProfile : Nat := 0
  limits : Store Limiter := []
  time : TimeState := {}
  flt : FaultState := {}
  tel : ObserveState := {}
  host : HostState := {}
  boot : BootState := {}
  lane : LaneState := {}
  mac : MacState := {}
  fr : FrameState := {}
  prs : ParserState := {}
  sw : SwitchState := {}
  mat : MatState := {}
  fwd : FwdState := {}
  sig : SigState := {}
  buf : BufState := {}
  sch : SchedState := {}
  pow : PowerState := {}
deriving DecidableEq, Repr

/-- The machine held in reset at power-on: every field at the value the spec gives for reset, or at the value the
assumption log names. -/
def State.reset : State := {}

end Sys2Proof.Machine
end

