-- ==== Sys2Proof/Machine/Store.lean ====
section
/-!
DEFINITION. The sparse table: a list of keyed values in one canonical form (keys strictly rising, nothing listed
that an unlisted key reads as).
-/

namespace Sys2Proof.Machine

/-- The value listed at `k`. -/
def tabFind {α : Type} : Store α → Nat → Option α
  | [], _ => none
  | (k', v) :: t, k => if k' == k then some v else tabFind t k

/-- The value at `k`: the one listed, or `d`. -/
def tabGet {α : Type} (d : α) (m : Store α) (k : Nat) : α := (tabFind m k).getD d

/-- The table without `k`. -/
def tabDel {α : Type} (k : Nat) : Store α → Store α
  | [] => []
  | (k', v) :: t => if k' == k then tabDel k t else (k', v) :: tabDel k t

/-- The table with `v` listed at `k`, in key order. -/
def tabPut {α : Type} (k : Nat) (v : α) : Store α → Store α
  | [] => [(k, v)]
  | (k', v') :: t =>
    if k < k' then (k, v) :: (k', v') :: t
    else if k == k' then (k, v) :: t
    else (k', v') :: tabPut k v t

/-- The table with `v` at `k`; writing what an unlisted key reads as removes the entry. -/
def tabSet {α : Type} [DecidableEq α] (d : α) (k : Nat) (v : α) (m : Store α) : Store α :=
  if v = d then tabDel k m else tabPut k v m

/-- The table with the value at `k` changed by `f`. -/
def tabMod {α : Type} [DecidableEq α] (d : α) (k : Nat) (f : α → α) (m : Store α) : Store α :=
  tabSet d k (f (tabGet d m k)) m

/-- The table with the value listed at `k`, if any, changed by `f`. -/
def tabUpd {α : Type} (k : Nat) (f : α → α) : Store α → Store α
  | [] => []
  | (k', v) :: t => if k' == k then (k', f v) :: t else (k', v) :: tabUpd k f t

/-- The values of `n` keys from `k`, in key order. -/
def tabRange {α : Type} (d : α) (m : Store α) (k n : Nat) : List α :=
  (List.range n).map fun i => tabGet d m (k + i)

/-- The entries whose key satisfies `p`. -/
def tabKeep {α : Type} (p : Nat → Bool) (m : Store α) : Store α := m.filter fun e => p e.1

/-- Writes the values of `l` at the keys from `k`. -/
def tabFill {α : Type} [DecidableEq α] (d : α) : Nat → List α → Store α → Store α
  | _, [], m => m
  | k, v :: t, m => tabFill d (k + 1) t (tabSet d k v m)

/-- Whether the keys rise strictly. -/
def tabRising {α : Type} : Store α → Bool
  | [] => true
  | [_] => true
  | a :: b :: t => a.1 < b.1 && tabRising (b :: t)

/-- The canonical form of a table whose unlisted keys read as `d`. -/
def tabWf {α : Type} [DecidableEq α] (d : α) (m : Store α) : Bool :=
  tabRising m && m.all fun e => e.2 ≠ d

end Sys2Proof.Machine
end

