-- ==== Sys2Proof/Machine/Ops.lean ====
section
/-!
DEFINITION. The named operations every chapter shares: real time, domain time, free values, emissions, counters,
the kiln log, raising a fault, and the fences in force.
-/

namespace Sys2Proof.Machine

/-! ### Updates of one chapter's state -/

/-- `s` with its time state changed. -/
def modTime (f : TimeState → TimeState) (s : State) : State := { s with time := f s.time }
/-- `s` with its fault state changed. -/
def modFlt (f : FaultState → FaultState) (s : State) : State := { s with flt := f s.flt }
/-- `s` with its observation state changed. -/
def modTel (f : ObserveState → ObserveState) (s : State) : State := { s with tel := f s.tel }
/-- `s` with its host state changed. -/
def modHost (f : HostState → HostState) (s : State) : State := { s with host := f s.host }
/-- `s` with its boot state changed. -/
def modBoot (f : BootState → BootState) (s : State) : State := { s with boot := f s.boot }
/-- `s` with its lane state changed. -/
def modLaneState (f : LaneState → LaneState) (s : State) : State := { s with lane := f s.lane }
/-- `s` with its MAC state changed. -/
def modMac (f : MacState → MacState) (s : State) : State := { s with mac := f s.mac }

/-- `s` with its frame state changed. -/
def modFr (f : FrameState → FrameState) (s : State) : State := { s with fr := f s.fr }
/-- `s` with its parser state changed. -/
def modPrs (f : ParserState → ParserState) (s : State) : State := { s with prs := f s.prs }
/-- `s` with its match-action state changed. -/
def modMat (f : MatState → MatState) (s : State) : State := { s with mat := f s.mat }
/-- `s` with its forwarding tables changed. -/
def modFwd (f : FwdState → FwdState) (s : State) : State := { s with fwd := f s.fwd }
/-- `s` with its signature state changed. -/
def modSig (f : SigState → SigState) (s : State) : State := { s with sig := f s.sig }
/-- `s` with its switching state changed. -/
def modSw (f : SwitchState → SwitchState) (s : State) : State := { s with sw := f s.sw }

/-- `s` with its buffer state changed. -/
def modBuf (f : BufState → BufState) (s : State) : State := { s with buf := f s.buf }
/-- `s` with its policing and scheduling state changed. -/
def modSch (f : SchedState → SchedState) (s : State) : State := { s with sch := f s.sch }

/-- `s` with its power state changed. -/
def modPow (f : PowerState → PowerState) (s : State) : State := { s with pow := f s.pow }

/-! ### Real time, in units of 1/35 ns -/

/-- One microsecond. -/
abbrev tUs : Nat := 35000
/-- One millisecond. -/
abbrev tMs : Nat := 35000000
/-- One second. -/
abbrev tSec : Nat := 35000000000

/-- `s` with real time moved on to `t`, never back (assumption 4). -/
def reach (t : Nat) (s : State) : State := { s with now := max s.now t }

/-- `s` with `n` units of real time gone by. -/
def elapse (n : Nat) (s : State) : State := { s with now := s.now + n }

/-- `s` with `e` seen by the outside. -/
def emit (e : Emission) (s : State) : State := { s with out := e :: s.out }

/-- Dword `i` of the MSI-X table; a vector is masked at reset (assumption 99). -/
def msixDword (s : State) (i : Nat) : BitVec 32 := (tabFind s.host.msixTable i).getD (if i % 4 == 3 then 1 else 0)

/-- Signals MSI-X vector `v`: sent, or pending while it is masked (R474). -/
def signal (v : Nat) (s : State) : State :=
  if !s.host.linkUp then s
  else if (msixDword s (4 * v + 3)).getLsbD 0 then modHost (fun h => { h with pba := tabPut v true h.pba }) s
  else emit (.vector v) s

/-- The next free value and the state that has used it. -/
def takeFree (s : State) : Nat × State := (Config.freeNat s.free, { s with free := s.free + 1 })

/-- The numbers of output pins beyond the time pins: ALERT_N and THERMTRIP_N. -/
abbrev pinAlert : Nat := 16
abbrev pinThermtrip : Nat := 17

/-! ### Time domains -/

/-- The state of a domain after reset (R37): TD0 is the datapath domain. -/
def domainReset (d : Nat) : Domain := { datapath := d == 0 }

/-- The configuration of domain `d`. -/
def domainOf (s : State) (d : Nat) : Domain := (tabFind s.time.domains d).getD (domainReset d)

/-- `s` with domain `d` set to `v`. -/
def setDomain (d : Nat) (v : Domain) (s : State) : State :=
  { s with time := { s.time with domains := tabSet (domainReset d) d v s.time.domains } }

/-- The copy of domain `d` on die `q` (R33). -/
def copyOf (s : State) (q d : Nat) : TimeCopy := tabGet {} s.time.copies (4 * q + d)

/-- `s` with the copy of domain `d` on die `q` set. -/
def setCopy (q d : Nat) (v : TimeCopy) (s : State) : State :=
  { s with time := { s.time with copies := tabSet {} (4 * q + d) v s.time.copies } }

/-- A copy's time in units of 2^-32 ns. -/
def copyTotal (c : TimeCopy) : Nat := (c.sec.toNat * 1000000000 + c.ns) * 4294967296 + c.frac.toNat

/-- The copy that holds `t` units of 2^-32 ns. -/
def copyFrom (t : Nat) : TimeCopy :=
  let ns := t / 4294967296
  { sec := BitVec.ofNat 64 (ns / 1000000000), ns := ns % 1000000000, frac := BitVec.ofNat 32 t }

/-- The datapath domain (R37, R38). -/
def datapathDomain (s : State) : Nat := (firstIdx 4 fun d => (domainOf s d).datapath).getD 0

/-- The time of domain `d` on die `q`, to 1/65,536 ns (R34), with the holdover flag (R40). -/
def stampOf (s : State) (q d : Nat) : Stamp :=
  let c := copyOf s q d
  { sec := c.sec.toNat, ns := c.ns, frac := c.frac.toNat / 65536, holdover := (domainOf s d).holdover }

/-- The datapath time on die `q`. -/
def datapathStamp (s : State) (q : Nat) : Stamp := stampOf s q (datapathDomain s)

/-- A stamp in units of 1/65,536 ns. -/
def stampTotal (t : Stamp) : Nat := (t.sec * 1000000000 + t.ns) * 65536 + t.frac

/-- The stamp of a number of units of 1/65,536 ns; a time before zero is taken as zero. -/
def stampFrom (v : Int) (holdover : Bool) : Stamp :=
  let u := v.toNat
  let ns := u / 65536
  { sec := ns / 1000000000, ns := ns % 1000000000, frac := u % 65536, holdover }

/-! ### Quadrants and units (R11) -/

/-- The quadrant of a lane or port. -/
def quadOfPort (p : Nat) : Nat := p / 256
/-- The pipeline of a lane or port. -/
def pipeOfPort (p : Nat) : Nat := p / 16
/-- The quadrant of a pipeline. -/
def quadOfPipe (p : Nat) : Nat := p / 16
/-- The lane die of a lane. -/
def laneDieOf (l : Nat) : Nat := l / 128

/-! ### The kiln log (R444 to R448) -/

/-- Data fields packed at their widths (R446). -/
def pack (fs : List (Nat × Nat)) : Bytes := slice (fs.flatMap fun f => toLe f.1 f.2) 0 12

/-- The milliseconds from `t` to now, saturating at 65,535. -/
def msSince (s : State) (t : Nat) : Nat := min 65535 ((s.now - t) / tMs)

/-- A new record for an event of this moment. -/
def kilnRecord (s : State) (code fb : Nat) (injected : Bool) (data : Bytes) : KilnRec :=
  let t := datapathStamp s 0
  { code, seq := s.flt.nextSeq, sec := t.sec % 4294967296, ns := t.ns, faultBit := fb, holdover := t.holdover,
    injected, data, firstAt := s.now }

/-- Whether an event repeats the record most recently written (R447). -/
def kilnRepeats (r : KilnRec) (code fb : Nat) (injected : Bool) (data : Bytes) : Bool :=
  !r.preReset && r.code == code && r.faultBit == fb && r.injected == injected && r.data == data

/-- `r` with one more occurrence now. -/
def kilnBump (s : State) (r : KilnRec) : KilnRec :=
  { r with times := min 65535 (r.times + 1), lastMs := msSince s r.firstAt }

/-- The code of LOG_FULL. -/
abbrev logFullCode : Nat := 0x0E0A

/-- `s` with a new record written. -/
def kilnAppend (r : KilnRec) (s : State) : State :=
  { s with flt := { s.flt with kiln := r :: s.flt.kiln, nextSeq := s.flt.nextSeq + 1, newestIsLast := true } }

/-- `s` with its newest record replaced. -/
def kilnReplace (r : KilnRec) (s : State) : State :=
  { s with flt := { s.flt with kiln := r :: s.flt.kiln.tail } }

/-- Writes an event to the kiln log: repeats the newest record, counts in LOG_FULL, or writes a new record. -/
def kilnEvent (code fb : Nat) (injected : Bool) (data : Bytes) (s : State) : State :=
  match s.flt.kiln with
  | r :: _ =>
    if r.code == logFullCode then
      kilnReplace { kilnBump s r with data := slice (toLe 4 (satAdd 32 (field r.data 0 4) 1)) 0 12 } s
    else if s.flt.newestIsLast && kilnRepeats r code fb injected data then kilnReplace (kilnBump s r) s
    else if s.flt.kiln.length ≥ 32767 then
      kilnAppend (kilnRecord s logFullCode 255 false (slice (toLe 4 1) 0 12)) s
    else kilnAppend (kilnRecord s code fb injected data) s
  | [] => kilnAppend (kilnRecord s code fb injected data) s

/-- Logs an event that concerns no fault bit. -/
def kiln (code : Nat) (fs : List (Nat × Nat)) (s : State) : State := kilnEvent code 255 false (pack fs) s

/-- Logs an event of a fault's containment, carrying the injected flag of the fault (R443). -/
def kilnInj (injected : Bool) (code : Nat) (fs : List (Nat × Nat)) (s : State) : State :=
  kilnEvent code 255 injected (pack fs) s

/-- Logs an event the first time in each datapath second for its unit. -/
def kilnOnce (code unit : Nat) (fs : List (Nat × Nat)) (s : State) : State :=
  let key := code * 4294967296 + unit
  let sec := (datapathStamp s 0).sec + 1
  if tabGet 0 s.flt.onceSec key == sec then s
  else
    let s' := kiln code fs s
    { s' with flt := { s'.flt with onceSec := tabSet 0 key sec s'.flt.onceSec } }

/-! ### Counters (R372, R378) -/

/-- The key of value `idx` of a scope of a counter group: scopes have 28 bits and indices 16, so that no two kinds share a key. -/
def counterKey (group kind scope idx : Nat) : Nat := ((group * 32 + kind) * 268435456 + scope % 268435456) * 65536 + idx % 65536

/-- The live value of a counter. -/
def counterOf (s : State) (group kind scope idx : Nat) : Nat :=
  tabGet 0 s.tel.counters (counterKey group kind scope idx)

/-- A counter's name: its group, its scope kind and its index in the scope (R378). -/
structure Counter where
  group : Nat
  kind : Nat
  idx : Nat
deriving DecidableEq, Repr

/-- Adds `n` to a counter, modulo 2^64. -/
def count (c : Counter) (scope n : Nat) (s : State) : State :=
  modTel (fun t =>
    { t with counters := tabMod 0 (counterKey c.group c.kind scope c.idx) (fun v => wrapAdd 64 v n) t.counters }) s

/-- Sets a counter that a rule clears or recomputes. -/
def countSet (c : Counter) (scope v : Nat) (s : State) : State :=
  modTel (fun t => { t with counters := tabSet 0 (counterKey c.group c.kind scope c.idx) v t.counters }) s

/-- The live value of a named counter. -/
def countOf (c : Counter) (scope : Nat) (s : State) : Nat := counterOf s c.group c.kind scope c.idx

/-! ### Raising a fault (R430, R442, R443) -/

/-- Whether an armed point of this site makes the present detection an injected one. -/
def pointFires (s : State) (b k i : Nat) (p : InjPoint) : Bool :=
  p.bit == b && p.siteKind == k && p.siteIndex == i && p.kind != 1 &&
    (match p.lastAt with
     | none => true
     | some t => t + p.intervalUs * tUs ≤ s.now)

/-- Whether the detection of this site is an injected one. -/
def injectedNow (s : State) (b k i : Nat) : Bool := s.flt.points.any (pointFires s b k i)

/-- The injection points after one of them has made an injection. -/
def spendPoint (s : State) (b k i : Nat) : List InjPoint → List InjPoint
  | [] => []
  | p :: t =>
    if pointFires s b k i p then
      if p.left ≤ 1 then t else { p with left := p.left - 1, lastAt := some s.now } :: t
    else p :: spendPoint s b k i t

/-- Puts a raise on its way to the saggar. Containment is the caller's and never waits for it. -/
def raiseFault (b k i : Nat) (overran : Bool) (s : State) : State :=
  match s.flt.points.find? (pointFires s b k i) with
  | none =>
    let r : Raise := { bit := b, kind := k, index := i, overran }
    modFlt (fun f => { f with inFlight := f.inFlight ++ [r] }) s
  | some p =>
    let r : Raise :=
      { bit := b, kind := k, index := i, injected := true, noEscalate := bit p.flags 1, noReset := !bit p.flags 2,
        overran }
    modFlt (fun f => { f with inFlight := f.inFlight ++ [r], points := spendPoint s b k i f.points }) s

/-- A detector fires: its containment runs, told whether the fault is injected, and the raise goes out. -/
def detect (b k i : Nat) (contain : Bool → State → State) (s : State) : State :=
  let inj := injectedNow s b k i
  raiseFault b k i false (contain inj s)

/-! ### Fences in force (R432, R435) -/

/-- The fence actions of R435. -/
inductive Fence
  | none | ports | pipeline | quadrant | tree | engine | inspect | reader | learn | window | spill | stack
  | link | session | policer | exporter | control | host | mailbox | device
deriving DecidableEq, Repr

/-- The fence of a fault bit (R432). -/
def fenceOf (b : Nat) : Fence :=
  match b with
  | 0 | 1 | 2 | 3 | 5 | 8 | 9 | 45 | 46 => .ports
  | 6 | 7 | 10 | 11 | 12 | 13 | 14 | 15 | 16 | 17 | 18 | 20 | 21 | 22 => .pipeline
  | 19 => .tree
  | 24 => .learn
  | 25 => .window
  | 26 => .reader
  | 28 => .engine
  | 29 => .inspect
  | 31 | 34 => .quadrant
  | 35 | 37 => .spill
  | 36 => .stack
  | 38 | 39 | 40 | 41 => .link
  | 43 => .session
  | 47 => .policer
  | 52 => .exporter
  | 57 | 58 | 59 => .control
  | 60 => .host
  | 61 => .mailbox
  | 62 => .device
  | _ => .none

/-- The site kind of a fault bit (R432). -/
def siteKindOf (b : Nat) : Nat :=
  match b with
  | 0 | 5 => 1
  | 1 | 2 => 2
  | 3 | 4 => 3
  | 8 | 9 | 45 | 46 => 4
  | 6 | 7 | 10 | 11 | 12 | 13 | 18 | 24 | 25 | 27 => 5
  | 14 | 15 | 16 | 17 | 20 | 21 | 22 | 23 => 6
  | 26 | 29 | 30 | 31 | 32 | 33 | 34 | 37 | 42 | 44 | 49 | 51 | 56 => 7
  | 19 => 8
  | 28 => 9
  | 35 | 36 => 10
  | 39 | 41 => 11
  | 38 | 40 => 12
  | 43 => 13
  | 47 => 14
  | 48 | 50 => 15
  | 52 => 16
  | 58 => 17
  | 60 => 18
  | 61 => 19
  | _ => 0

/-- The number of units of a site kind. -/
def siteRange (k : Nat) : Nat :=
  match k with
  | 0 => 1 | 1 => 8 | 2 => 64 | 3 => 1024 | 4 => 1024 | 5 => 64 | 6 => 2048 | 7 => 4 | 8 => 64 | 9 => 16
  | 10 => 4 | 11 => 6 | 12 => 12 | 13 => 64 | 14 => 524288 | 15 => 4 | 16 => 4 | 17 => 4 | 18 => 2 | 19 => 32
  | _ => 0

/-- Whether a unit of this kind and index exists: of stage numbers, the stage part is 0 to 23. -/
def siteExists (k i : Nat) : Bool := i < siteRange k && (k != 6 || i % 32 < 24)

/-- The fenced sites whose fence is `f`. -/
def fencedSites (s : State) (f : Fence) : List Site :=
  s.flt.sites.filter fun x => x.level == .fenced && fenceOf x.bit == f

/-- The pipeline that a PIPELINE fence on this site takes out of service. -/
def pipeOfSite (x : Site) : Nat := if x.kind == 6 then x.index / 32 else x.index

/-- Whether a PIPELINE or QUADRANT fence holds pipeline `p`. -/
def pipeFenced (s : State) (p : Nat) : Bool :=
  (fencedSites s .pipeline).any (fun x => pipeOfSite x == p) ||
  (fencedSites s .quadrant).any fun x => x.index == quadOfPipe p

/-- Whether a QUADRANT fence holds quadrant `q`. -/
def quadFenced (s : State) (q : Nat) : Bool := (fencedSites s .quadrant).any fun x => x.index == q

/-- Whether a STACK fence holds quadrant `q`'s stack. -/
def stackFenced (s : State) (q : Nat) : Bool := (fencedSites s .stack).any fun x => x.index == q

/-- Whether tree `t` of quadrant `q` is fenced. -/
def treeFenced (s : State) (q t : Nat) : Bool :=
  stackFenced s q || (fencedSites s .tree).any fun x => x.index == 16 * q + t

/-- Whether engine `e` is fenced. -/
def engineFenced (s : State) (e : Nat) : Bool := (fencedSites s .engine).any fun x => x.index == e

/-- Whether quadrant `q`'s inspection path is fenced. -/
def inspectFenced (s : State) (q : Nat) : Bool := (fencedSites s .inspect).any fun x => x.index == q

/-- Whether quadrant `q`'s host-table reader is fenced. -/
def readerFenced (s : State) (q : Nat) : Bool :=
  stackFenced s q || (fencedSites s .reader).any fun x => x.index == q

/-- Whether pipeline `p`'s learn engine is stopped by a fence. -/
def learnFenced (s : State) (p : Nat) : Bool :=
  pipeFenced s p || (fencedSites s .learn).any fun x => x.index == p

/-- Whether quadrant `q` may not spill because of a fence. -/
def spillFenced (s : State) (q : Nat) : Bool :=
  stackFenced s q || (fencedSites s .spill).any fun x => x.index == q

/-- The link of a link site or a link-direction site. -/
def linkOfSite (x : Site) : Nat := if x.kind == 12 then x.index / 2 else x.index

/-- Whether mesh link `l` is fenced. -/
def linkFenced (s : State) (l : Nat) : Bool := (fencedSites s .link).any fun x => linkOfSite x == l

/-- Whether a mirror session (16 × quadrant + session) is fenced. -/
def mirrorFenced (s : State) (i : Nat) : Bool := (fencedSites s .session).any fun x => x.index == i

/-- Whether a policer (131,072 × quadrant + index) is fenced. -/
def policerFenced (s : State) (i : Nat) : Bool := (fencedSites s .policer).any fun x => x.index == i

/-- Whether an exporter is fenced. -/
def exporterFenced (s : State) (i : Nat) : Bool := (fencedSites s .exporter).any fun x => x.index == i

/-- Whether a host interface is fenced: 0 PCI Express, 1 I3C. -/
def hostFenced (s : State) (i : Nat) : Bool := (fencedSites s .host).any fun x => x.index == i

/-! ### Rate limits (R573) -/

/-- The cap of a limiter's allowance, in thousandths. -/
def allowanceCap (pps : Nat) : Nat := max 1000 pps

/-- What is limited; a limiter's key joins this with the unit's number. -/
inductive LimitKind
  | filter | malformed | notify | dropReason | dropQuad | postcard
deriving DecidableEq, Repr

/-- The number of a limit kind in limiter keys. -/
def LimitKind.code : LimitKind → Nat
  | .filter => 0 | .malformed => 1 | .notify => 2 | .dropReason => 3 | .dropQuad => 4 | .postcard => 5

/-- The key of a limiter. -/
def limitKey (k : LimitKind) (unit : Nat) : Nat := k.code * 1048576 + unit

/-- `s` with a limit written: the allowance is full. A pps of zero is no limit. -/
def writeLimit (k : LimitKind) (unit quad pps : Nat) (s : State) : State :=
  { s with limits :=
      if pps == 0 then tabDel (limitKey k unit) s.limits
      else tabPut (limitKey k unit) { pps, quad, allowance := allowanceCap pps } s.limits }

/-- Whether the limiter lets an item be made, and the state after it takes its thousandths. -/
def takeLimit (k : LimitKind) (unit : Nat) (s : State) : Bool × State :=
  match tabFind s.limits (limitKey k unit) with
  | none => (true, s)
  | some l =>
    if l.allowance ≥ 1000 then
      (true, { s with limits := tabPut (limitKey k unit) { l with allowance := l.allowance - 1000 } s.limits })
    else (false, s)

/-- `s` with the limiter of a limit that stands at its default, full, if it has none yet. -/
def ensureLimit (k : LimitKind) (unit quad pps : Nat) (s : State) : State :=
  if pps == 0 || (tabFind s.limits (limitKey k unit)).isSome then s else writeLimit k unit quad pps s

/-- Whether the limiter would let an item be made. -/
def limitAllows (k : LimitKind) (unit : Nat) (s : State) : Bool := (takeLimit k unit s).1

/-- Every limiter of quadrant `q` after one millisecond of its reference. -/
def refillLimits (q : Nat) (s : State) : State :=
  { s with limits := s.limits.map fun e =>
      if e.2.quad == q then (e.1, { e.2 with allowance := min (allowanceCap e.2.pps) (e.2.allowance + e.2.pps) }) else e }

end Sys2Proof.Machine
end

