-- ==== Sys2Proof/Machine/Counters.lean ====
section
/-!
DEFINITION. The counters of every block, by group, scope kind and index (R378).
-/

namespace Sys2Proof.Machine

/-! ### Lane counters (R96); scope: the lane -/

def laneCnt (i : Nat) : Counter := ⟨1, 0, i⟩
def cAttempts : Counter := laneCnt 0
def cLinkDowns : Counter := laneCnt 1
def cReacquires : Counter := laneCnt 2
/-- fail_cause[1..11]. -/
def cFailCause (c : Nat) : Counter := laneCnt (2 + c)
def cPartnerViolations : Counter := laneCnt 14
def cSignalLosses : Counter := laneCnt 15
def cCdrLosses : Counter := laneCnt 16
def cBlockSlips : Counter := laneCnt 17
def cBlockLosses : Counter := laneCnt 18
def cInvalidSync : Counter := laneCnt 19
def cMarkerSlips : Counter := laneCnt 20
def cMarkerLosses : Counter := laneCnt 21
/-- fec_cw_bin[0..16]. -/
def cFecBin (b : Nat) : Counter := laneCnt (22 + b)
def cFecSymbols : Counter := laneCnt 39
def cDegraded : Counter := laneCnt 40
def cElasticSlips : Counter := laneCnt 41
def cD2dCorrected : Counter := laneCnt 42
def cChkBits : Counter := laneCnt 43
def cChkBitErrors : Counter := laneCnt 44
def cChkSymbolErrors : Counter := laneCnt 45
def cChkResyncs : Counter := laneCnt 46
def cInjEvents : Counter := laneCnt 47
def cSquelches : Counter := laneCnt 48

/-! ### MAC counters (R121); scope: the port, or for filters the pipeline -/

def portCnt (i : Nat) : Counter := ⟨2, 1, i⟩
def cRxFrames : Counter := portCnt 0
def cRxBytes : Counter := portCnt 1
def cRxUnicast : Counter := portCnt 2
def cRxMulticast : Counter := portCnt 3
def cRxBroadcast : Counter := portCnt 4
def cRxSize (i : Nat) : Counter := portCnt (5 + i)
def cRxRunt : Counter := portCnt 12
def cRxOversize : Counter := portCnt 13
def cRxFcs : Counter := portCnt 14
def cRxPcs : Counter := portCnt 15
def cRxOverrun : Counter := portCnt 16
def cRxPause : Counter := portCnt 17
def cRxPfc (c : Nat) : Counter := portCnt (18 + c)
def cRxPauseDisabled : Counter := portCnt 26
def cRxPauseIgnored : Counter := portCnt 27
def cRxMacControl : Counter := portCnt 28
def cStorms : Counter := portCnt 29
def cPfcPausedUs (c : Nat) : Counter := portCnt (30 + c)
def cTxFrames : Counter := portCnt 38
def cTxBytes : Counter := portCnt 39
def cTxPadded : Counter := portCnt 40
def cTxPause : Counter := portCnt 41
def cTxPfc (c : Nat) : Counter := portCnt (42 + c)
def cTxStomped : Counter := portCnt 50
def cTxAborted : Counter := portCnt 51
def cPreAssemblyOk : Counter := portCnt 52
def cPreAssemblyErrors : Counter := portCnt 53
def cPreSmdErrors : Counter := portCnt 54
def cPreFragRx : Counter := portCnt 55
def cPreFragTx : Counter := portCnt 56
def cPreHolds : Counter := portCnt 57
def cTxPtpErrors : Counter := portCnt 58
def cFilterHits (f : Nat) : Counter := ⟨3, 2, f⟩
def cFilterRateDrops (f : Nat) : Counter := ⟨3, 2, 16 + f⟩

/-! ### Parser counters (R146); scope: the pipeline -/

def prsCnt (i : Nat) : Counter := ⟨4, 2, i⟩
def cPrsFrames (src : Nat) : Counter := prsCnt src
def cPrsAccepted : Counter := prsCnt 4
/-- prs_malformed[1..6]. -/
def cPrsMalformed (c : Nat) : Counter := prsCnt (4 + c)
def cPrsTrapped : Counter := prsCnt 11
def cPrsVisits : Counter := prsCnt 12
def cPrsLong : Counter := prsCnt 13
def cPrsParkFull : Counter := prsCnt 14
def cPrsIntegrity : Counter := prsCnt 15

/-! ### Match-action, tree and action-engine counters (R186, R217) -/

/-- mat_lookups and mat_hits of a slot; scope: the stage. -/
def cMatLookups (slot : Nat) : Counter := ⟨5, 3, 2 * slot⟩
def cMatHits (slot : Nat) : Counter := ⟨5, 3, 2 * slot + 1⟩
/-! Scope: the pipeline. -/
def cMatQuiesces : Counter := ⟨5, 2, 0⟩
def cMatParts : Counter := ⟨5, 2, 1⟩
def cMatHoldFrames : Counter := ⟨5, 2, 2⟩
def cMatHoldOverrun : Counter := ⟨5, 2, 3⟩
def cMatRoWrites : Counter := ⟨5, 2, 4⟩
def cMatIntegrity : Counter := ⟨5, 2, 5⟩
/-! Scope: the quadrant. -/
def cTreeWalks : Counter := ⟨6, 4, 0⟩
def cTreeReads : Counter := ⟨6, 4, 1⟩
/-- tree_hit, tree_miss, tree_overflow, tree_depth, tree_error by status code 1 to 5. -/
def cTreeStatus (st : Nat) : Counter := ⟨6, 4, 1 + st⟩
/-- act counters of a stage (kind 3) and of its pipeline (kind 2). -/
def cAct (kind i : Nat) : Counter := ⟨7, kind, i⟩

/-! ### Forwarding-table counters (R255) -/

/-- Scope: the pipeline. -/
def fdbCnt (i : Nat) : Counter := ⟨8, 2, i⟩
def cFdbDstLookups : Counter := fdbCnt 0
def cFdbDstHits : Counter := fdbCnt 1
def cFdbSrcHits : Counter := fdbCnt 2
def cFdbLearnNew : Counter := fdbCnt 3
def cFdbMoves : Counter := fdbCnt 4
def cFdbFlaps : Counter := fdbCnt 5
def cFdbFrozen : Counter := fdbCnt 6
def cFdbViolations : Counter := fdbCnt 7
def cFdbFrozenMoves : Counter := fdbCnt 8
def cFdbRefused : Counter := fdbCnt 9
def cFdbLearnDrops : Counter := fdbCnt 10
def cFdbLearnGroup : Counter := fdbCnt 11
def cFdbLearnLost : Counter := fdbCnt 12
def cFdbRelocations : Counter := fdbCnt 13
def cFdbCmdOps : Counter := fdbCnt 14
def cLpmLookups : Counter := fdbCnt 15
def cLpmHits : Counter := fdbCnt 16
/-! Scope: the quadrant. -/
def cNtfRecords : Counter := ⟨8, 4, 0⟩
def cNtfLost : Counter := ⟨8, 4, 1⟩
def cHostLookups : Counter := ⟨9, 4, 0⟩
/-- host_hit, host_miss, host_overflow, host_error by status code 1 to 4. -/
def cHostStatus (st : Nat) : Counter := ⟨9, 4, st⟩
def cHostLateClocks : Counter := ⟨9, 4, 5⟩

/-! ### Signature counters (R272) -/

/-- Scope: the engine. -/
def sigCnt (i : Nat) : Counter := ⟨10, 9, i⟩
def cSigScans : Counter := sigCnt 0
def cSigBytes : Counter := sigCnt 1
def cSigMatch : Counter := sigCnt 2
def cSigNomatch : Counter := sigCnt 3
def cSigError : Counter := sigCnt 4
/-! Scope: the quadrant. -/
def cSigOverflow : Counter := ⟨10, 4, 0⟩
def cSigNotLoaded : Counter := ⟨10, 4, 1⟩
/-- sig_prio[0..15]. -/
def cSigPrio (p : Nat) : Counter := ⟨10, 4, 2 + p⟩
def cInspectFrames : Counter := ⟨10, 4, 18⟩
def cInspectOverrun : Counter := ⟨10, 4, 19⟩
/-- sig_rule_hits[0..4095]; scope: the set. -/
def cSigRuleHits (r : Nat) : Counter := ⟨10, 13, r⟩
/-- Scope: the pipeline. -/
def cInspectOrderWaits : Counter := ⟨10, 2, 0⟩

/-! ### Buffer counters (R305) -/

/-- Scope: the queue. buf_admitted, buf_admitted_cells, buf_drop_queue_limit, buf_drop_exhausted, buf_drop_spill_limit,
buf_drop_descriptor, buf_spilled, buf_returned. -/
def bufQueueCnt (i : Nat) : Counter := ⟨11, 5, i⟩
/-- buf_drop_ingress_limit of a class; scope: the port. -/
def cIngressLimit (c : Nat) : Counter := ⟨11, 1, c⟩
/-! Scope: the quadrant. -/
def bufCnt (i : Nat) : Counter := ⟨11, 4, i⟩
def cBufAlloc : Counter := bufCnt 0
def cBufRelease : Counter := bufCnt 1
def cBufDoubleFrees : Counter := bufCnt 2
def cBufConflicts : Counter := bufCnt 3
def cBufDescDoubleFrees : Counter := bufCnt 4
def cBufLeaks : Counter := bufCnt 5
def cBufHeadroom : Counter := bufCnt 6
def cBufSpillWrites : Counter := bufCnt 7
def cBufReturnReads : Counter := bufCnt 8
def cBufBypass : Counter := bufCnt 9
def cBufStalls : Counter := bufCnt 10
/-- dram_beats of a class; scope: the stack. -/
def cDramBeats (c : Nat) : Counter := ⟨11, 12, c⟩

/-! ### Policing and scheduling counters (R369) -/

/-- Scope: the policer. Frames and bytes of a colour: green 0, yellow 1, red 2. -/
def cPolFrames (colour : Nat) : Counter := ⟨14, 6, 2 * colour⟩
def cPolBytes (colour : Nat) : Counter := ⟨14, 6, 2 * colour + 1⟩
def cPolDropped : Counter := ⟨14, 6, 6⟩
/-! Scope: the queue. -/
def cSchFrames : Counter := ⟨15, 5, 0⟩
def cSchBytes : Counter := ⟨15, 5, 1⟩
def cGateOversize : Counter := ⟨15, 5, 2⟩
/-! Scope: the port. -/
def cSchCycles : Counter := ⟨15, 1, 0⟩
def cSchHolds : Counter := ⟨15, 1, 1⟩
def cSchCorrections : Counter := ⟨15, 1, 2⟩
/-! Scope: the leaf. -/
def cLeafFrames : Counter := ⟨15, 10, 0⟩
def cLeafBytes : Counter := ⟨15, 10, 1⟩

/-! ### Switching counters (R334) -/

/-- swc_drops[0..255]; scope: the quadrant. -/
def cSwcDrops (r : Nat) : Counter := ⟨12, 4, r⟩
def cSwcRecords : Counter := ⟨12, 4, 256⟩
def cSwcSuppressed : Counter := ⟨12, 4, 257⟩
def cSwcMcastCopies : Counter := ⟨12, 4, 258⟩
def cSwcMcastEmpty : Counter := ⟨12, 4, 259⟩
def cSwcRecirc : Counter := ⟨12, 4, 260⟩

/-! Scope: the port. -/

def cSwcCutThrough : Counter := ⟨12, 1, 0⟩
def cSwcStomped : Counter := ⟨12, 1, 1⟩
def cSwcHoldEntries : Counter := ⟨12, 1, 2⟩
def cSwcHoldResumed : Counter := ⟨12, 1, 3⟩
def cSwcFlushes : Counter := ⟨12, 1, 4⟩
def cSwcFlushCopies : Counter := ⟨12, 1, 5⟩

/-- swc_aged; scope: the queue. -/
def cSwcAged : Counter := ⟨12, 5, 0⟩

/-! Scope: the session. -/

def cMirrorSelected : Counter := ⟨12, 7, 0⟩
def cMirrorCopies : Counter := ⟨12, 7, 1⟩
def cMirrorTruncated : Counter := ⟨12, 7, 2⟩

/-! Scope: quadrant and destination. -/

def cSwcPathSwitches : Counter := ⟨12, 14, 0⟩
def cSwcRelay : Counter := ⟨12, 14, 1⟩

/-! Mesh counters; scope: the link direction. -/

def cMeshDirect : Counter := ⟨13, 8, 0⟩
def cMeshRelay : Counter := ⟨13, 8, 1⟩
def cMeshReplays : Counter := ⟨13, 8, 2⟩
def cMeshCorrected : Counter := ⟨13, 8, 3⟩

/-! ### Telemetry counters (R394); scope: the quadrant -/

def telCnt (i : Nat) : Counter := ⟨18, 4, i⟩
def cTelSweepOverruns : Counter := telCnt 0
def cTelFreezeMissed : Counter := telCnt 1
def cTelRolloverMissed : Counter := telCnt 2
def cTelIoamInserted : Counter := telCnt 3
def cTelIoamOverflow : Counter := telCnt 4
def cTelIoamErrors : Counter := telCnt 5
def cTelPostcards : Counter := telCnt 6
def cTelSuppressed : Counter := telCnt 7
def cTelUnrouted : Counter := telCnt 8
def cTelExportLost : Counter := telCnt 9
def cTelExportFrames : Counter := telCnt 10
def cTelExportDrops : Counter := telCnt 11
def cTelInexact : Counter := telCnt 12

/-! ### Mailbox counters (R484); scope: the slot -/

def cMbxCommands : Counter := ⟨19, 16, 0⟩
def cMbxFaults : Counter := ⟨19, 16, 1⟩
def cMbxLimited : Counter := ⟨19, 16, 2⟩
def cMbxCredential : Counter := ⟨19, 16, 3⟩

/-! Scope: the ring. -/

def ringCnt (i : Nat) : Counter := ⟨19, 15, i⟩
def cDmaRxFrames : Counter := ringCnt 0
def cDmaRxBytes : Counter := ringCnt 1
def cDmaRxFull : Counter := ringCnt 2
def cDmaTxFrames : Counter := ringCnt 3
def cDmaTxBytes : Counter := ringCnt 4
def cDmaTxErrors : Counter := ringCnt 5

/-! Scope: the host interface, 0 PCI Express or 1 I3C. -/

def cIfLinkDowns : Counter := ⟨19, 17, 0⟩
def cIfCorrected : Counter := ⟨19, 17, 1⟩
def cIfDiscarded : Counter := ⟨19, 17, 2⟩

/-! ### Energy counters (R407); scope kinds 2 pipeline, 4 quadrant, 5 queue of group 0 -/

/-- The calibration scale of a class (0 COMPUTE, 1 MEMORY, 2 LINKS) of quadrant `q`, in 1/65,536. -/
def energyScale (s : State) (q cls : Nat) : Nat := tabGet 65536 s.pow.scales (4 * q + cls)

/-- Adds `n` nJ to an energy counter. -/
def addEnergy (kind scope n : Nat) (s : State) : State :=
  modPow (fun t => { t with energy := tabMod 0 (counterKey 0 kind scope 0) (fun v => wrapAdd 64 v n) t.energy }) s

/-- Attributes `n` events of a kind: the coefficient times the calibration scale (R407). Kinds: 0 header slot, 1 parser visit,
2 lookup, 3 microword, 4 DRAM read, 5 cell written, 6 cell read, 7 byte sent. -/
def spendEnergy (kind scope q cls ev n : Nat) (s : State) : State :=
  addEnergy kind scope (n * Config.energyCoeff ev * energyScale s q cls / 65536) s

/-- Attributes events to a pipeline. -/
def spendPipe (g cls ev n : Nat) (s : State) : State := spendEnergy 2 g (quadOfPipe g) cls ev n s

/-- Attributes events to an egress queue. -/
def spendQueue (no cls ev n : Nat) (s : State) : State := spendEnergy 5 no (no / 5120) cls ev n s

end Sys2Proof.Machine
end

