-- ==== Sys2Proof/Machine/Frames.lean ====
section
/-!
DEFINITION. Frames, Eulis records and their export, and drops (R331, R332, R388 to R391).
-/

namespace Sys2Proof.Machine

/-! ### Frames -/

/-- Frame number `u`. -/
def frameOf (s : State) (u : Nat) : Frame := (tabFind s.fr.frames u).getD {}

/-- `s` with frame `u` set. -/
def setFrame (u : Nat) (v : Frame) (s : State) : State := modFr (fun t => { t with frames := tabPut u v t.frames }) s

/-- `s` with frame `u`, if it is in the device, changed. -/
def modFrame (u : Nat) (f : Frame → Frame) (s : State) : State :=
  modFr (fun t => { t with frames := tabUpd u f t.frames }) s

/-- A new frame, with its number. -/
def newFrame (v : Frame) (s : State) : Nat × State :=
  (s.fr.next, modFr (fun t => { t with frames := tabPut t.next v t.frames, next := t.next + 1 }) s)

/-- The frames of pipeline `p` at a place, in order of arrival. -/
def framesAt (s : State) (p : Nat) (pl : Place) : List Nat :=
  (s.fr.frames.filter fun e => e.2.pipe == p && e.2.place == pl).map Prod.fst

/-- A container of the header vector, or of U0–U15 (272 to 287) and F0–F15 (288 to 303). -/
def contOf (v : Frame) (c : Nat) : Nat := tabGet 0 v.hdr c

/-- Metadata Un. -/
def metaU (v : Frame) (n : Nat) : Nat := contOf v (272 + n)

/-- Metadata Fn. -/
def metaF (v : Frame) (n : Nat) : Nat := contOf v (288 + n)

/-- Puts a delivery where it waits for its ring. -/
def deliver (d : Delivery) (s : State) : State := modFr (fun t => { t with deliveries := t.deliveries ++ [d] }) s

/-- The 96-bit timestamp of R47. -/
def stamp96 (t : Stamp) : Nat := (t.sec % 2 ^ 48) * 2 ^ 48 + t.ns * 65536 + t.frac

/-! ### Exporters (R390, R391) -/

/-- `b` with the network-order field of `n` bytes at `off` set. -/
def putBe (b : Bytes) (off n v : Nat) : Bytes := putBytes b off (toBe n v)

/-- The length of the header at an IP offset, and the pseudo-header sum of its addresses. -/
def ipAddresses (b : Bytes) (ip : Nat) : Bytes :=
  if u8 b ip / 16 == 6 then slice b (ip + 8) 32 else slice b (ip + 12) 8

/-- Fills the IP length, the IPv4 header checksum, the UDP length and the UDP checksum (R391). -/
def fillLengths (b : Bytes) (ip udp : Nat) : Bytes :=
  let b1 :=
    if ip == 0 then b
    else if u8 b ip / 16 == 6 then putBe b (ip + 4) 2 (b.length - ip - 40)
    else
      let x := putBe (putBe b (ip + 2) 2 (b.length - ip)) (ip + 10) 2 0
      putBe x (ip + 10) 2 (inetSum (slice x ip (4 * (u8 x ip % 16))))
  if udp == 0 then b1
  else
    let len := b1.length - udp
    let x := putBe (putBe b1 (udp + 4) 2 len) (udp + 6) 2 0
    if ip == 0 then x
    else
      let c := inetSum (ipAddresses x ip ++ toBe 4 len ++ toBe 4 17 ++ x.drop udp)
      putBe x (udp + 6) 2 (if c == 0 then 0xFFFF else c)

/-- Exporter `e`. -/
def exporterOf (s : State) (e : Nat) : Exporter := tabGet {} s.tel.exporters e

/-- `s` with exporter `e` set. -/
def setExporter (e : Nat) (v : Exporter) (s : State) : State :=
  modTel (fun t => { t with exporters := tabSet {} e v t.exporters }) s

/-- Whether an exporter is enabled and in service. -/
def exporterOn (s : State) (e : Nat) : Bool :=
  bit (u8 (exporterOf s e).obj 1) 0 && !exporterFenced s e

/-- The template of an exporter. -/
def exporterTemplate (v : Exporter) : Bytes := slice (v.obj.drop 32) 0 (u8 v.obj 7)

/-- The records that fit one export frame of an exporter, and the rest. -/
def fitRecords (room : Nat) : List Bytes → List Bytes × List Bytes
  | [] => ([], [])
  | r :: t =>
    if r.length ≤ room then
      let (a, b) := fitRecords (room - r.length) t
      (r :: a, b)
    else ([], r :: t)

/-- The room for records in one export frame. -/
def exportRoom (v : Exporter) : Nat := u16 v.obj 10 - (u8 v.obj 7 + 24 + 4)

/-- An export frame without its FCS (R391). -/
def exportFrame (s : State) (e : Nat) (v : Exporter) (recs : List Bytes) : Bytes :=
  let t := datapathStamp s 0
  let head := toBe 1 1 ++ toBe 1 recs.length ++ toBe 1 e ++ toBe 1 0 ++ toBe 4 v.seq ++ toBe 4 (u32 v.obj 24) ++
    toBe 4 t.sec ++ toBe 4 t.ns ++ toBe 4 v.lost
  fillLengths (exporterTemplate v ++ head ++ recs.flatten) (u8 v.obj 8) (u8 v.obj 9)

/-- Sends one export frame with the records that fit (R391): to its ring, or to be admitted at its port. -/
def sendExport (e : Nat) (s : State) : State :=
  let v := exporterOf s e
  let (now, later) := fitRecords (exportRoom v) v.waiting
  let now' := now.take 255
  let body := exportFrame s e v now'
  let t := datapathStamp s 0
  let (u, s1) := newFrame { port := 0xFFFF, data := body ++ fcsOf body, ended := true, place := .spent,
                            ts := stamp96 t, tsPtp := stamp96 t, stamp := t } s
  let s2 := count cTelExportFrames e 1
    (setExporter e { v with waiting := now.drop 255 ++ later, seq := wrapAdd 32 v.seq 1, lost := 0 } s1)
  if bit (u8 v.obj 1) 3 then deliver { ring := u8 v.obj 5, frame := u, reason := 5, info := e } s2
  else
    let q := quadOfPort (u16 v.obj 2)
    modSw (fun t => { t with
      transfers := t.transfers ++ [{ id := t.nextTransfer, frame := u, src := q, dst := q,
                                     dest := .exported e (u16 v.obj 2) (u8 v.obj 4) }]
      nextTransfer := t.nextTransfer + 1 }) s2

/-- The bytes an exporter holds. -/
def exportHeld (v : Exporter) : Nat := (v.waiting.map List.length).foldl (· + ·) 0

/-- Exporter `e` loses `n` records (R391, R396). -/
def loseRecords (e n : Nat) (s : State) : State :=
  let v := exporterOf s e
  if n == 0 then s
  else kilnOnce 0x0C05 e [(1, e), (4, n)] (count cTelExportLost e n (setExporter e { v with lost := satAdd 32 v.lost n } s))

/-- Gives a record to an exporter: first the frame it no longer fits is sent; a full exporter loses it. -/
def exportRecord (e : Nat) (r : Bytes) (s : State) : State :=
  let v := exporterOf s e
  let s1 := if v.waiting.isEmpty || exportHeld v + r.length ≤ exportRoom v && v.waiting.length < 255 then s else sendExport e s
  let v1 := exporterOf s1 e
  if exportHeld v1 + r.length > 1048576 then
    loseRecords e 1 s1
  else setExporter e { v1 with waiting := v1.waiting ++ [r] } s1

/-- The exporter that takes a record of quadrant `q`: the lowest enabled one that names it and its type (R390). -/
def exporterFor (s : State) (q : Nat) (isDrop : Bool) : Option Nat :=
  firstIdx 4 fun e =>
    let o := (exporterOf s e).obj
    exporterOn s e && bit (u8 o 6) q && bit (u8 o 1) (if isDrop then 2 else 1)

/-! ### Eulis records (R388) -/

/-- What a record says of a copy: egress port, queue, class, colour, the queue's cells, and its marks. -/
structure CopyInfo where
  egress : Nat := 0xFFFF
  queue : Nat := 0xFF
  cls : Nat := 0
  colour : Nat := 3
  cells : Nat := 0
  throttled : Bool := false
  stomped : Bool := false
  mirror : Bool := false
  detail : Nat := 0

/-- Nanoseconds from a stamp to another, or all ones when they do not fit (R388). -/
def latencyNs (a b : Stamp) : Nat :=
  let d : Int := ((stampTotal b : Int) - stampTotal a) / 65536
  if d < 0 || d ≥ 0xFFFFFFFF then 0xFFFFFFFF else d.toNat

/-- A record of quadrant `q` for frame `v` (R388): `kind` 1 postcard, 2 drop; `at_` the egress or drop time. -/
def eulisRecord (s : State) (q kind reason : Nat) (v : Frame) (c : CopyInfo) (at_ : Stamp) (snap : Nat) : Bytes :=
  let fl := b2n c.throttled + 2 * b2n c.stomped + 4 * b2n c.mirror + 8 * b2n (v.stamp.holdover || at_.holdover)
  toBe 1 (16 + kind) ++ toBe 1 fl ++ toBe 1 reason ++ toBe 1 snap ++ toBe 4 (tabGet 0 s.tel.recordSeq q) ++ toBe 1 q ++
    toBe 1 (if v.reached then v.pipe else 0xFF) ++ toBe 2 (if v.source == 2 then 0xFFFF else v.port) ++ toBe 2 c.egress ++
    toBe 1 c.queue ++ toBe 1 (c.cls + 8 * c.colour) ++ toBe 4 (metaF v 5) ++ toBe 4 v.stamp.sec ++ toBe 4 v.stamp.ns ++
    toBe 4 (latencyNs v.stamp at_) ++ toBe 4 c.cells ++ toBe 2 v.data.length ++ toBe 2 0 ++ toBe 8 c.detail ++
    slice v.data 0 (8 * snap)

/-- Makes a record of quadrant `q` for an exporter. -/
def makeRecord (q : Nat) (e : Nat) (r : Bytes) (s : State) : State :=
  exportRecord e r (modTel (fun t => { t with recordSeq := tabMod 0 q (fun n => wrapAdd 32 n 1) t.recordSeq }) s)

/-! ### The throttled flag (R387, R400) -/

def powerCapDefault : Bytes :=
  image 32 [(4, 1, 0x09), (5, 1, 0xE4), (6, 1, 128), (7, 1, 4), (8, 4, 500), (13, 1, 2), (14, 1, 10), (15, 1, 2), (16, 1, 100),
            (17, 1, 60)]

/-- The POWER_CAP object. -/
def powerCap (s : State) : Bytes := if s.pow.cap.isEmpty then powerCapDefault else s.pow.cap

/-- The power partition of quadrant `q`. -/
def partitionOf (s : State) (q : Nat) : Nat := bits (u8 (powerCap s) 5) (2 * q) 2

/-- Whether the damper has inserted a bubble since frame `v` came in, into the partition that decided it or that of its egress
port. -/
def throttled (s : State) (v : Frame) (egress : Nat) : Bool :=
  (partitionOf s (quadOfPipe v.pipe) :: (if egress ≤ 1023 then [partitionOf s (quadOfPort egress)] else [])).any fun k =>
    match tabFind s.pow.bubbleAt k with
    | some t => stampTotal v.stamp ≤ t
    | none => false

/-! ### Drops (R331, R332) -/

/-- The DROP_POLICY object of a quadrant before it is written, quadrant_mask zero. -/
def dropPolicyDefault : Bytes :=
  putBytes (image 48 [(4, 4, 1000000), (8, 4, 100000)]) 16 (List.replicate 32 0xFF)

/-- The DROP_POLICY object of quadrant `q`, quadrant_mask zero. -/
def dropPolicyOf (s : State) (q : Nat) : Bytes := (tabFind s.sw.dropPolicy q).getD dropPolicyDefault

/-- Makes a drop record where R332 and R390 allow it. -/
def dropRecord (q reason : Nat) (v : Frame) (c : CopyInfo) (s : State) : State :=
  let pol := dropPolicyOf s q
  if reason == 0 || !bit (u8 pol (16 + reason / 8)) (reason % 8) then s
  else
    let unit := 256 * q + reason
    let s1 := ensureLimit .dropReason unit q (u32 pol 8) (ensureLimit .dropQuad q q (u32 pol 4) s)
    if limitAllows .dropQuad q s1 && limitAllows .dropReason unit s1 then
      match exporterFor s1 q true with
      | none => count cTelUnrouted q 1 s1
      | some e =>
        let s2 := (takeLimit .dropReason unit (takeLimit .dropQuad q s1).2).2
        makeRecord q e (eulisRecord s2 q 2 reason v c (datapathStamp s2 q) 0) (count cSwcRecords q 1 s2)
    else kilnOnce 0x090C q [(1, q), (1, reason)] (count cSwcSuppressed q 1 s1)

/-- A drop in quadrant `q`: counted under its reason and recorded (R332). -/
def dropIn (q reason : Nat) (v : Frame) (c : CopyInfo) (s : State) : State :=
  dropRecord q reason v c (count (cSwcDrops reason) q 1 s)

/-- Whether a delivery of frame `u` waits. -/
def hasDelivery (s : State) (u : Nat) : Bool := s.fr.deliveries.any fun d => d.frame == u

end Sys2Proof.Machine
end

