-- ==== Sys2Proof/Machine/Operands.lean ====
section
/-!
DEFINITION. Command payloads: the checks of object fields in ascending byte offset (R8, R26, R488, R489) and the
effective descriptor of a command (R459, R476).
-/

namespace Sys2Proof.Machine

/-- One field of an object layout: where it lies, whether it is a key of the object's read, and its check. -/
structure Fld where
  off : Nat
  len : Nat
  key : Bool := false
  chk : State → Bytes → Option Status := fun _ _ => none

/-- A status unless `ok` holds. -/
def orElse (ok : Bool) (st : Status) : Option Status := if ok then none else some st

/-- A field that any value suits. -/
def fAny (off len : Nat) : Fld := { off, len }

/-- A reserved field: zero, else BADARG (R8). -/
def fRsv (off len : Nat) : Fld := { off, len, chk := fun _ p => orElse (field p off len == 0) .badarg }

/-- A field checked by its value alone. -/
def fVal (off len : Nat) (f : Nat → Option Status) : Fld := { off, len, chk := fun _ p => f (field p off len) }

/-- A field whose value lies in `lo` to `hi`, else `st`. -/
def fRange (off len lo hi : Nat) (st : Status) : Fld := fVal off len fun v => orElse (inRange v lo hi) st

/-- A field whose bits outside `mask` are reserved. -/
def fBits (off len mask : Nat) : Fld := fVal off len fun v => orElse (v &&& mask == v) .badarg

/-- A field checked against the state and the rest of the object. -/
def fDep (off len : Nat) (f : State → Bytes → Option Status) : Fld := { off, len, chk := f }

/-- The field as a key of the object's read. -/
def Fld.asKey (f : Fld) : Fld := { f with key := true }

/-- The first failing field of a write, with its status. -/
def firstBad (s : State) (p : Bytes) : List Fld → Option (Nat × Status)
  | [] => none
  | f :: t => match f.chk s p with
    | some st => some (f.off, st)
    | none => firstBad s p t

/-- The first failing field of a read request: keys are checked, every other field is zero (R488). -/
def firstBadRead (s : State) (p : Bytes) : List Fld → Option (Nat × Status)
  | [] => none
  | f :: t =>
    if f.key then
      match f.chk s p with
      | some st => some (f.off, st)
      | none => firstBadRead s p t
    else if zeroAt p f.off f.len then firstBadRead s p t else some (f.off, .badarg)

/-- A mask of pipelines: not zero, and a read names exactly one. -/
def fPipeMask (off : Nat) (read : Bool) : Fld :=
  (fVal off 8 fun v => orElse (if read then isPow2 v else v != 0) .badarg).asKey

/-- A mask of quadrants, bits 3:0: not zero, and a read names exactly one. -/
def fQuadMask (off : Nat) (read : Bool) : Fld :=
  (fVal off 1 fun v => orElse (v < 16 && (if read then isPow2 v else v != 0)) .badarg).asKey

/-- Applies `f` for every unit of a mask. -/
def forMask (n m : Nat) (f : Nat → State → State) (s : State) : State := (maskBits n m).foldl (fun s i => f i s) s

/-- The role a command needs (R492). -/
inductive RoleReq
  | any
  | op
  | admin
deriving DecidableEq, Repr

/-- What the opcode tables give a command (R514 to R520) and the layout its payload is checked against. -/
structure OpDef where
  opcode : Nat
  role : RoleReq := .op
  write : Bool := true
  apply : Nat := 0
  len : Bytes → Bool
  fields : List Fld := []
  objRead : Bool := false
  grant : State → Nat → Bytes → Bool := fun _ _ _ => true
  replies : Bool := false

/-- The group of an opcode (R459). -/
def OpDef.group (d : OpDef) : Nat := d.opcode / 256

/-- Payloads of exactly `n` bytes. -/
def exactly (n : Nat) (p : Bytes) : Bool := p.length == n

/-- The 16-bit code of a status (R490). -/
def statusCode (st : Status) : Nat :=
  match st with
  | .ok => 0 | .busy => 1 | .badarg => 2 | .denied => 3 | .notsup => 4 | .range => 5 | .state => 6 | .nores => 7
  | .timeout => 8 | .integrity => 9 | .pending => 10 | .moved => 11 | .capUnreachable => 12

/-- The write of an object of `n` bytes with an IMMEDIATE or staged apply point. -/
def writeOp (opcode : Nat) (n : Nat) (fields : List Fld) : OpDef := { opcode, len := exactly n, fields }

/-- The read of an object of `n` bytes by its keys. -/
def readOp (opcode : Nat) (n : Nat) (fields : List Fld) : OpDef :=
  { opcode, len := exactly n, fields, write := false, objRead := true, replies := true }

/-- A request with a reply that is not an object read. -/
def requestOp (opcode : Nat) (n : Nat) (fields : List Fld) : OpDef :=
  { opcode, len := exactly n, fields, write := false, replies := true }

/-- What a command's own work answers. -/
inductive CmdResult
  /-- Rejected: nothing changes. -/
  | fail (st : Status) (data : Bytes)
  /-- Done, with its status, completion data and reply. -/
  | done (s : State) (st : Status) (data reply : Bytes)
  /-- Accepted: the work that ends it is told the number it runs under. -/
  | later (f : Nat → State)

/-- Rejected for the field at `off` (R489). -/
def badField (off : Nat) (st : Status) : CmdResult := .fail st (toLe 2 off)

/-- Rejected for no one field (R489). -/
def badAll (st : Status) : CmdResult := .fail st (toLe 2 0xFFFF)

/-- A write made or staged. -/
def okWrite (s : State) : CmdResult := .done s .ok [] []

/-- A read answered. -/
def okReply (s : State) (reply : Bytes) : CmdResult := .done s .ok [] reply

/-- The slot's registers and session. -/
def slotOf (s : State) (i : Nat) : Slot := tabGet {} s.host.slots i

/-- `s` with slot `i` set. -/
def setSlot (i : Nat) (v : Slot) (s : State) : State := modHost (fun h => { h with slots := tabSet {} i v h.slots }) s

/-- `s` with slot `i` changed. -/
def modSlot (i : Nat) (f : Slot → Slot) (s : State) : State := setSlot i (f (slotOf s i)) s

/-- The role code of HST_MBX_STATUS: 1 ADMIN, 2 OPERATOR, 3 OBSERVER. -/
def roleOf (s : State) (i : Nat) : Nat := (slotOf s i).role

/-- A descriptor of 64 bytes as a command of slot `i`; an indirect payload lies in the I3C payload buffer (R476). -/
def descriptorCmd (i : SlotNo) (d : Bytes) (buf : Store Byte) : Cmd :=
  let fl := u8 d 4
  let len := u16 d 6
  let addr := u64 d 24
  let indirect := bit fl 0
  { slot := i, tag := BitVec.ofNat 16 (u16 d 2), flags := BitVec.ofNat 8 fl,
    reservedZero := zeroAt d 5 1 && zeroAt d 10 6,
    payloadLen := BitVec.ofNat 16 len, replyMax := BitVec.ofNat 16 (u16 d 8),
    replyAddr := BitVec.ofNat 64 (u64 d 16), payloadAddr := if indirect then BitVec.ofNat 64 addr else 0,
    payload := if indirect then tabRange 0 buf addr (min len 4096) else slice d 24 (min len 40),
    tailZero := if indirect then zeroAt d 32 32 else zeroAt d (24 + min len 40) (40 - min len 40) }

/-- The command as Icoux sees it: of a session on I3C, the descriptor submitted; else the descriptor at the ring's head. -/
def effectiveCmd (c : Cmd) (s : State) : Cmd :=
  let sl := slotOf s c.slot.val
  match sl.i3c, sl.submitted with
  | true, some d => descriptorCmd c.slot d sl.payload
  | _, _ => c

/-- The payload bytes of a command. -/
def payloadOf (c : Cmd) : Bytes := slice c.payload 0 c.payloadLen.toNat

end Sys2Proof.Machine
end

