-- ==== Sys2Proof/Machine/Icoux.lean ====
section
/-!
DEFINITION. Icoux: taking a command, the checks of R489 in their order, and ending it (R461, R481, R482, R487 to R497).
-/

namespace Sys2Proof.Machine

/-! ### Transport faults and LIMITED (R481, R482) -/

/-- Enters LIMITED when 16 transport faults lie within the last second. -/
def enterLimited (i : Nat) (s : State) : State :=
  let sl := slotOf s i
  if sl.limited || sl.faultAt.length < 16 then s
  else
    let s1 := setSlot i { sl with limited := true, credit := false, lastTake := s.now } s
    count cMbxLimited i 1 (raiseFault 61 19 i false (kiln 0x0103 [(1, i), (4, sl.faultAt.length)] s1))

/-- Counts a transport fault of slot `i`. -/
def transportFault (i : Nat) (s : State) : State :=
  let sl := slotOf s i
  let s1 := setSlot i
    { sl with faults := BitVec.ofNat 32 (satAdd 32 sl.faults.toNat 1),
              faultAt := (s.now :: sl.faultAt.filter (fun t => s.now < t + tSec)).take 16 } s
  enterLimited i (count cMbxFaults i 1 s1)

/-! ### Taking a command -/

/-- Whether a command of slot `i` is in progress or ended and not yet completed, and satisfies `p` of write and group. -/
def inProgress (s : State) (i : Nat) (p : Bool → Nat → Bool) : Bool :=
  s.host.running.any (fun r => r.slot == i && p r.write (r.opcode / 256)) ||
  s.host.ended.any fun e => e.slot == i && !e.aside && p e.write (e.opcode / 256)

/-- The commands of slot `i` in progress. -/
def inProgressCount (s : State) (i : Nat) : Nat :=
  (s.host.running.filter fun r => r.slot == i).length + (s.host.ended.filter fun e => e.slot == i && !e.aside).length

/-- The ring order of R493: writes wait for every earlier write and for reads of their group; reads for writes of theirs. -/
def mustWait (s : State) (i : Nat) (write : Bool) (group : Nat) : Bool :=
  if write then inProgress s i fun w g => w || g == group
  else inProgress s i fun w g => w && g == group

/-- Whether the session's completion ring has no room (R461). -/
def cplFull (sl : Slot) : Bool :=
  !sl.i3c && 2 ^ (bits sl.ctrl.toNat 12 4) ≤ (sl.cplTail - sl.cplHead).toNat

/-- Whether the slot has a command waiting: a ring entry up to the doorbell, or a submitted descriptor of this opcode. -/
def hasCommand (sl : Slot) (link : Bool) (opcode : Nat) : Bool :=
  if sl.i3c then
    match sl.submitted with
    | some d => u16 d 0 == opcode
    | none => false
  else link && sl.cmdHead != sl.cmdProd

/-- Whether Icoux runs and takes commands (R461, R483, R491, R536). -/
def icouxTakes (s : State) : Bool :=
  match s.boot.stage with
  | .bisque | .warmRestart => false
  | .failed => !s.boot.failedInBisque
  | _ => true

/-- Whether a clock-profile change holds back this group (R521). -/
def heldByMode (s : State) (group : Nat) : Bool := s.time.switch.run.isSome && 3 ≤ group && group ≤ 13

/-- Whether Icoux takes this command now. -/
def canTake (opcode : Nat) (write : Bool) (i : Nat) (s : State) : Bool :=
  let sl := slotOf s i
  icouxTakes s && (sl.state == .pending || sl.state == .opened) && hasCommand sl s.host.linkUp opcode &&
    !cplFull sl && inProgressCount s i < 8 && (!sl.limited || sl.credit) && !sl.draining &&
    !mustWait s i write (opcode / 256) && !heldByMode s (opcode / 256)

/-- Takes the command: the head moves on, a submitted descriptor is used up, a LIMITED session spends its turn. -/
def takeCommand (i : Nat) (s : State) : State :=
  modSlot i (fun sl =>
    { sl with
      cmdHead := if sl.i3c then sl.cmdHead else sl.cmdHead + 1
      submitted := none
      reply := if sl.i3c then [] else sl.reply
      credit := false }) s

/-! ### Checks in the order of R489 -/

/-- The transport checks of a descriptor (R481): `some false` BADARG, `some true` INTEGRITY. -/
def transportBad (c : Cmd) (i3c : Bool) : Option Status :=
  let indirect := c.flags.getLsbD 0
  let len := c.payloadLen.toNat
  let lenOk := if indirect then 1 ≤ len && len ≤ 4096 else len ≤ 40
  let addrOk := (if indirect then c.payloadAddr.toNat % 8 == 0 else true) && c.replyAddr.toNat % 8 == 0
  let i3cOk := !i3c || (c.replyAddr == 0 && (!indirect || c.payloadAddr.toNat + len ≤ 4096))
  if c.flags >>> 1 == 0 && c.reservedZero && lenOk && c.replyMax.toNat ≤ 4096 && c.tailZero && addrOk && i3cOk then
    if len == 0 || c.readOk then none else some .integrity
  else some .badarg

/-- Whether the session's role permits the command (R463, R492). -/
def roleOk (s : State) (i : Nat) (r : RoleReq) : Bool :=
  match r with
  | .any => true
  | .op => roleOf s i == 1 || roleOf s i == 2
  | .admin => roleOf s i == 1

/-- Whether the device stage permits the group (R491). -/
def stageOk (s : State) (group : Nat) : Bool := s.boot.stage == .ready || group < 3 || 13 < group

/-- The completion data of a command that fails at payload offset `off`, 0xFFFF where no field is at fault (R489): bytes 0–1, but
bytes 6–7 of RULE_BATCH, whose bytes 0–4 name an entry and a pipeline (R516). -/
def failureData (opcode off : Nat) : Bytes := if opcode == 0x0602 then toLe 6 0 ++ toLe 2 off else toLe 2 off

/-- The outcome of the checks after the transport: the first failure decides (R489). -/
def checkCommand (d : OpDef) (c : Cmd) (s : State) : Option (Status × Bytes) :=
  let p := payloadOf c
  let whole := failureData d.opcode 0xFFFF
  if !roleOk s c.slot.val d.role || !d.grant s c.slot.val p then some (.denied, whole)
  else if !stageOk s d.group then some (.state, whole)
  else if !d.len p then some (.badarg, whole)
  else if d.replies && c.replyMax == 0 then some (.badarg, whole)
  else
    match (if d.objRead then firstBadRead s p d.fields else firstBad s p d.fields) with
    | some (off, st) => some (st, failureData d.opcode off)
    | none => none

/-! ### Ending a command -/

/-- Puts an ended command where its completion waits to be written. -/
def endCommand (e : Ended) (s : State) : State := modHost (fun h => { h with ended := h.ended ++ [e] }) s

/-- An ended command of this descriptor. -/
def endedOf (d : OpDef) (c : Cmd) (st : Status) (data reply : Bytes) (transport : Bool) : Ended :=
  { slot := c.slot.val, tag := c.tag.toNat, opcode := d.opcode, status := st, write := d.write, transport,
    apply := if st == .ok then d.apply else 0, data, reply, replyMax := c.replyMax.toNat, replyAddr := c.replyAddr }

/-- A payload read or reply write failed: INTEGRITY, nothing applied, and bit 60 for site 0 (R481). -/
def transferFailed (d : OpDef) (c : Cmd) (addr : BitVec 64) (s : State) : State :=
  transportFault c.slot.val
    (raiseFault 60 18 0 false (endCommand (endedOf d c .integrity [] [] true) (kiln 0x0107 [(1, 1), (4, c.slot.val), (4, addr.toNat)] s)))

/-- Ends a command that Icoux has finished. -/
def finishCommand (d : OpDef) (c : Cmd) (r : CmdResult) (s : State) : State :=
  match r with
  | .fail st data => endCommand (endedOf d c st data [] false) s
  | .done s' st data reply =>
    if reply.isEmpty || c.writeOk then endCommand (endedOf d c st data reply false) s'
    else transferFailed d c c.replyAddr s
  | .later f =>
    let id := s.host.nextId
    let run : Running := { id, slot := c.slot.val, tag := c.tag.toNat, opcode := d.opcode, write := d.write,
                           replyMax := c.replyMax.toNat, replyAddr := c.replyAddr }
    modHost (fun h => { h with running := h.running ++ [run], nextId := id + 1 }) (f id)

/-- Runs a taken command: the transport checks, the checks of R489, then its own work. -/
def runTaken (d : OpDef) (c : Cmd) (body : Nat → Bytes → State → CmdResult) (s : State) : State :=
  let sl := slotOf s c.slot.val
  match transportBad c sl.i3c with
  | some .integrity => transferFailed d c c.payloadAddr s
  | some st => transportFault c.slot.val (endCommand (endedOf d c st [] [] true) s)
  | none =>
    if sl.state == .pending && d.opcode != 0x0101 then endCommand (endedOf d c .state [] [] true) s
    else
      match checkCommand d c s with
      | some (st, data) => endCommand (endedOf d c st data [] false) s
      | none => finishCommand d c (body c.slot.val (payloadOf c) s) s

/-- One Icoux command: taken when its session's turn, ring and order allow, else nothing happens yet. -/
def icoux (d : OpDef) (c : Cmd) (body : Nat → Bytes → State → CmdResult) (s : State) : State :=
  let c' := effectiveCmd c s
  if canTake d.opcode d.write c.slot.val s then runTaken d c' body (takeCommand c.slot.val s) else s

/-- Ends the command running under `id`, if its session still waits for it. -/
def endRunning (id : Nat) (st : Status) (data reply : Bytes) (s : State) : State :=
  match s.host.running.find? (fun r => r.id == id) with
  | none => s
  | some r =>
    let e : Ended := { slot := r.slot, tag := r.tag, opcode := r.opcode, status := st, write := r.write, data, reply,
                       replyMax := r.replyMax, replyAddr := r.replyAddr }
    modHost (fun h => { h with running := h.running.filter (fun x => x.id != id), ended := h.ended ++ [e] }) s

end Sys2Proof.Machine
end

