-- ==== Sys2Proof/Machine/Time.lean ====
section
/-!
DEFINITION. Network time, alignment of the replicas, clock-profile changes, time pins and the firing schedule's
evaluator (chapter 02).
-/

namespace Sys2Proof.Machine

/-- The MAC state of port `p`. -/
def macPort (s : State) (p : Nat) : MacPort := tabGet {} s.mac.ports p

/-- `s` with the MAC state of port `p` set. -/
def setMacPort (p : Nat) (v : MacPort) (s : State) : State :=
  modMac (fun m => { m with ports := tabSet {} p v m.ports }) s

/-- Whether port `p` is configured (R101). -/
def configured (s : State) (p : Nat) : Bool := (macPort s p).config.isSome

/-- The PORT_CONFIG image of port `p`; zeros when it is not configured. -/
def portConfig (s : State) (p : Nat) : Bytes := ((macPort s p).config).getD (List.replicate 16 0)

/-- Whether port `p` is configured and enabled. -/
def portEnabled (s : State) (p : Nat) : Bool := configured s p && bit (u8 (portConfig s p) 4) 0

/-- The configured ports, ascending. -/
def configuredPorts (s : State) : List Nat := (s.mac.ports.filter fun e => e.2.config.isSome).map Prod.fst

/-- A check that a field names a configured port: above 1023 RANGE, not configured STATE. -/
def portCheck (s : State) (v : Nat) : Option Status :=
  if v > 1023 then some .range else orElse (configured s v) .state

/-! ### Increments (R35, R38, R42, R43, R45) -/

/-- Whether every copy counts the 156.25 MHz lane reference (R45). -/
def holdoverClocking (s : State) : Bool :=
  match s.time.switch.phase with
  | .relocking | .locked | .restoring | .restored | .stuck => true
  | _ => false

/-- One tick of the time counters in units of 1/35 ns: 0.5714 ns, 0.7143 ns or 6.4 ns (R35). -/
def tickUnits (s : State) : Nat := if holdoverClocking s then 224 else if s.time.eased then 25 else 20

/-- The rate of a domain relative to nominal, in 1/256 ppb: its adjustment, or the measured rate in REFCLK (R38, R40). -/
def domainRate (d : Domain) : Int := if d.source == 1 then d.lastGood else d.rateAdj

/-- The increment of the copy of domain `d` on die `q`, in units of 2^-32 ns, rounded to the nearest unit (R35). -/
def increment (s : State) (q d : Nat) : Int :=
  let dom := domainOf s d
  let rate := domainRate dom + tabGet 0 s.time.trim (4 * q + d)
  let d1 : Int := 256000000000
  let (so, d2) : Int × Int := match dom.slew with
    | none => (0, 1)
    | some w => (w.offset, 65536000 * w.durationUs)
  roundDiv ((tickUnits s : Int) * 4294967296 * (d1 * d2 + rate * d2 + so * d1)) (35 * (d1 * d2))

/-- TIM_INC_INT and TIM_INC_FRAC of die `q` for domain `d` (R35). -/
def incrementRegisters (s : State) (q d : Nat) : BitVec 32 × BitVec 32 :=
  let v := (increment s q d).toNat
  (BitVec.ofNat 32 (v / 4294967296), BitVec.ofNat 32 v)

/-- One core tick of a copy (R35). -/
def advanceCopy (inc : Int) (c : TimeCopy) : TimeCopy :=
  let i := inc.toNat
  let f := c.frac.toNat + i % 4294967296
  let ns := c.ns + i / 4294967296 + f / 4294967296
  if ns ≥ 1000000000 then { sec := c.sec + 1, ns := ns - 1000000000, frac := BitVec.ofNat 32 f }
  else { sec := c.sec, ns, frac := BitVec.ofNat 32 f }

/-! ### The firing schedule's evaluator (R57 to R65) -/

/-- The key of entry `i` of domain `d`. -/
def entryKey (d i : Nat) : Nat := 512 * d + i

/-- An entry's object before it is written. -/
def entryDefault (i : Nat) : Bytes := image 32 [(0, 2, i)]

/-- Entry `i` of domain `d`. -/
def entryOf (s : State) (d i : Nat) : FiringEntry := tabGet {} s.time.entries (entryKey d i)

/-- The object of entry `i` of domain `d`, with its enable bit as it stands. -/
def entryObj (s : State) (d i : Nat) : Bytes :=
  let e := entryOf s d i
  putField (if e.obj.isEmpty then entryDefault i else e.obj) 3 1 (b2n e.enabled)

/-- `s` with entry `i` of domain `d` set. -/
def setEntry (d i : Nat) (e : FiringEntry) (s : State) : State :=
  modTime (fun t => { t with entries := tabSet {} (entryKey d i) e t.entries }) s

def entryAction (e : FiringEntry) : Nat := u8 e.obj 2
def entryTarget (e : FiringEntry) : Nat := u32 e.obj 4
def entryStart (e : FiringEntry) : Nat := u64 e.obj 8 * 1000000000 + u32 e.obj 16
def entryPeriod (e : FiringEntry) : Nat := field e.obj 20 6
def entryArgument (e : FiringEntry) : Nat := u32 e.obj 28

/-- The dies that perform an action (R58). -/
def actionDies (action target : Nat) : List Nat :=
  if action == 3 then [quadOfPort target] else if action == 4 then [0] else [0, 1, 2, 3]

/-- The die whose firing an entry's counters count. -/
def countingDie (e : FiringEntry) : Nat := if entryAction e == 3 then quadOfPort (entryTarget e) else 0

/-- The time of a copy in whole nanoseconds. -/
def copyNs (c : TimeCopy) : Nat := c.sec.toNat * 1000000000 + c.ns

/-- The first instant start + k × period after `v`, for integer k (R60). -/
def nextAfter (start period v : Nat) : Nat :=
  ((start : Int) + (((v : Int) - start) / period + 1) * period).toNat

/-- The instant an entry waits for on each die, from the time of that die's copy. -/
def placedInstants (s : State) (d : Nat) (e : FiringEntry) : List (Option Nat) :=
  (List.range 4).map fun q =>
    if e.enabled && (actionDies (entryAction e) (entryTarget e)).contains q then
      if entryPeriod e == 0 then some (entryStart e)
      else some (nextAfter (entryStart e) (entryPeriod e) (copyNs (copyOf s q d)))
    else none

/-- The instant of an entry on die `q`. -/
def instantOn (e : FiringEntry) (q : Nat) : Option Nat := (e.instants[q]?).join

/-- Whether an entry is due on die `q` at its copy's time (R61). -/
def dueOn (s : State) (q d : Nat) (e : FiringEntry) : Bool :=
  !e.faulted && (domainOf s d).enable &&
    match instantOn e q with
    | some i => i ≤ copyNs (copyOf s q d)
    | none => false

/-- The due entries of domain `d` on die `q`, in the order of R62: freezes, rollovers, the rest, each by index. -/
def dueEntries (s : State) (q d : Nat) : List Nat :=
  let all := s.time.entries.filter fun e => e.1 / 512 == d && dueOn s q d e.2
  let pick : (Nat → Bool) → List Nat := fun p => (all.filter fun e => p (entryAction e.2)).map fun e => e.1 % 512
  pick (· == 1) ++ pick (· == 2) ++ pick fun a => a != 1 && a != 2

/-- How many entries domain `d` has fired on die `q` in this tick. -/
def firedCount (s : State) (q d : Nat) : Nat := tabGet 0 s.time.firedInTick (4 * q + d)

/-- Whether the evaluator fires this entry next on die `q`. -/
def firesNext (s : State) (q d i action : Nat) : Bool :=
  firedCount s q d < 16 && (dueEntries s q d).head? == some i && entryAction (entryOf s d i) == action

/-- The entry's state after it fires on die `q`, with the lag and fire counts of R62 and R65. -/
def firedEntry (s : State) (q d : Nat) (e : FiringEntry) : FiringEntry :=
  let next := if entryPeriod e == 0 then none
    else some (nextAfter (entryStart e) (entryPeriod e) (copyNs (copyOf s q d)))
  let e1 : FiringEntry :=
    { e with instants := e.instants.set q next, late := tabDel q e.late, stepped := e.stepped.filter (· != q) }
  if q == countingDie e then
    { e1 with
      lag := if tabGet 0 e.late q > 0 then satAdd 32 e.lag 1 else e.lag
      fires := wrapAdd 32 e.fires 1
      enabled := if entryPeriod e == 0 then false else e.enabled }
  else e1

/-- Fires entry `i` of domain `d` on die `q`: its counts, its next instant and FIRING_LAG when it fires late. -/
def fireEntry (q d i : Nat) (s : State) : State :=
  let e := entryOf s d i
  let s1 := setEntry d i (firedEntry s q d e) s
  let s2 := modTime (fun t => { t with firedInTick := tabSet 0 (4 * q + d) (firedCount s q d + 1) t.firedInTick }) s1
  let late := tabGet 0 e.late q
  if late > 0 && q == countingDie e then kilnOnce 0x0B06 (entryKey d i) [(1, d), (2, i), (4, late)] s2 else s2

/-- The instant at which a due entry of die `q` fires, and whether a step passed it (R63). -/
def firingInstant (s : State) (q d i : Nat) : Stamp × Bool :=
  let e := entryOf s d i
  let ns := (instantOn e q).getD 0
  ({ sec := ns / 1000000000, ns := ns % 1000000000, holdover := (domainOf s d).holdover }, e.stepped.contains q)

/-- Marks the due entries that this tick's 16 leave over as one tick later. -/
def markLate (q d : Nat) (s : State) : State :=
  (dueEntries s q d).foldl (fun s i =>
    let e := entryOf s d i
    setEntry d i { e with late := tabMod 0 q (· + 1) e.late } s) s

/-- Whether a due entry of die `q` must still fire in this tick. -/
def tickHolds (s : State) (q : Nat) : Bool :=
  (List.range 4).any fun d => firedCount s q d < 16 && !(dueEntries s q d).isEmpty

/-! ### Steps (R42, R60, R63) -/

/-- An entry after a STEP or SET of die `q`'s copy from `old` to `new` ns, with the instants skipped. -/
def steppedEntry (q old new : Nat) (e : FiringEntry) : FiringEntry × Nat :=
  match instantOn e q with
  | none => (e, 0)
  | some i =>
    let period := entryPeriod e
    if old < new && i ≤ new then
      let passed := if period == 0 then 1 else (new - i) / period + 1
      let last := i + (passed - 1) * period
      if entryAction e == 4 then
        let next := if period == 0 then none else some (nextAfter (entryStart e) period new)
        ({ e with instants := e.instants.set q next }, passed)
      else
        ({ e with instants := e.instants.set q (some last), stepped := q :: e.stepped.filter (· != q) }, passed - 1)
    else if new < old && period != 0 then
      ({ e with instants := e.instants.set q (some (nextAfter (entryStart e) period new)) }, 0)
    else (e, 0)

/-- Applies a step of die `q` to one entry: its instants, its skip counter and FIRING_SKIP. -/
def stepEntry (q d old new i : Nat) (s : State) : State :=
  let e := entryOf s d i
  let (e1, skipped) := steppedEntry q old new e
  if skipped > 0 && q == countingDie e then
    kiln 0x0B07 [(1, d), (2, i), (4, skipped)] (setEntry d i { e1 with skip := satAdd 32 e1.skip skipped } s)
  else setEntry d i e1 s

/-- The entries of domain `d`. -/
def domainEntries (s : State) (d : Nat) : List Nat :=
  (s.time.entries.filter fun e => e.1 / 512 == d).map fun e => e.1 % 512

/-- Moves the copy of die `q` by `offset` units of 2^-32 ns, or to `target`, and its entries with it. -/
def stepCopy (d : Nat) (move : TimeCopy → TimeCopy) (q : Nat) (s : State) : State :=
  let c := copyOf s q d
  let c' := move c
  (domainEntries s d).foldl (fun s i => stepEntry q d (copyNs c) (copyNs c') i s) (setCopy q d c' s)

/-- A STEP or SET of all four copies, logged as TIME_STEP with the offset in 1/65,536 ns. -/
def stepDomain (d : Nat) (move : TimeCopy → TimeCopy) (s : State) : State :=
  let c := copyOf s 0 d
  let off : Int := ((copyTotal (move c) : Int) - copyTotal c) / 65536
  (List.range 4).foldl (fun s q => stepCopy d move q s) (kiln 0x0B04 [(1, d), (8, ofSigned 64 off)] s)

/-- The part of a slew not yet applied, in 1/65,536 ns (R42). -/
def slewRest (s : State) (w : Slew) : Int :=
  w.offset - (w.offset * (min (s.now - w.began) (w.durationUs * tUs) : Nat)).tdiv (w.durationUs * tUs : Nat)

/-! ### Tagged writes (R38, R41, R43, R57) -/

/-- Applies a TIME_DOMAIN object at a strobe. Setting the datapath flag clears it on the other domains. -/
def applyDomain (o : Bytes) (s : State) : State :=
  let d := u8 o 0
  let fl := u8 o 1
  let old := domainOf s d
  let s1 := if bit fl 1 then
      (List.range 4).foldl (fun s k => setDomain k { domainOf s k with datapath := false } s) s
    else s
  setDomain d
    { old with enable := bit fl 0, datapath := bit fl 1, source := u8 o 2, refclkFreq := u8 o 3,
               rateAdj := s32 o 8, holdover := u8 o 2 == 1 && old.source == 1 && old.holdover,
               lastGood := if old.source == 1 then old.lastGood else 0 } s1

/-- Applies a TIME_ADJUST object at a strobe; answers the remainder of a slew it replaced. -/
def applyAdjust (o : Bytes) (s : State) : Int × State :=
  let d := u8 o 0
  let dom := domainOf s d
  match u8 o 1 with
  | 1 => (0, stepDomain d (fun _ => { sec := BitVec.ofNat 64 (u64 o 8), ns := u32 o 4, frac := 0 }) s)
  | 2 => (0, stepDomain d (fun c => copyFrom ((copyTotal c : Int) + s64 o 16 * 65536).toNat) s)
  | 3 => (match dom.slew with | none => 0 | some w => slewRest s w,
          setDomain d { dom with slew := some { offset := s64 o 16, durationUs := u32 o 24, began := s.now } } s)
  | _ => (0, setDomain d { dom with rateAdj := s32 o 28 } s)

/-- Writes a firing entry: counters clear (R65) and the next instants follow the present time (R60). -/
def placeEntry (d : Nat) (o : Bytes) (s : State) : State :=
  let e : FiringEntry := { obj := o, enabled := bit (u8 o 3) 0 }
  setEntry d (u16 o 0) { e with instants := placedInstants s d e } s

/-- Flips a multicast group to its new lists; the old ones stay for the transfers that carry the old version (R322). -/
def applyMcast (o : Bytes) (s : State) : Nat × State :=
  let g := u16 o 0
  let old := tabGet {} s.sw.groups g
  let v := wrapAdd 16 (u16 old.obj 6) 1
  let keep := if old.obj.isEmpty then old.old else old.old ++ [(u16 old.obj 6, old.obj)]
  (v, kiln 0x0909 [(2, g), (2, v)]
    (modSw (fun t => { t with groups := tabPut g { old with obj := putField o 6 2 v, old := keep } t.groups }) s))

/-- Applies one tagged write and ends its command. -/
def applyTagged (t : Tagged) (s : State) : State :=
  match t with
  | .domain o run => endRunning run .ok [] [] (applyDomain o s)
  | .adjust o run =>
    let (rest, s1) := applyAdjust o s
    let c := copyOf s1 0 (u8 o 0)
    endRunning run .ok (toLe 4 c.sec.toNat ++ toLe 4 c.ns ++ toLe 8 (ofSigned 64 rest)) [] s1
  | .entry d o run => endRunning run .ok [] [] (placeEntry d o s)
  | .own d o => placeEntry d o s
  | .mcast o run =>
    let (v, s1) := applyMcast o s
    endRunning run .ok (toLe 2 v) [] s1

/-- Queues a write for the next strobe. -/
def tagWrite (t : Tagged) (s : State) : State := modTime (fun x => { x with tagged := x.tagged ++ [t] }) s

/-- Icoux places its entry `i` of domain `d` anew, and clears it in the other domains (R56): action, target, argument and period
in ns; a period of zero clears it everywhere. Its first instant is at zero (assumption 54). -/
def placeOwn (d i action target arg period : Nat) (s : State) : State :=
  (List.range 4).foldl (fun s k =>
    if k == d && period != 0 then
      tagWrite (.own k (image 32 [(0, 2, i), (2, 1, action), (3, 1, 1), (4, 4, target), (20, 6, period), (28, 4, arg)])) s
    else if (tabFind s.time.entries (entryKey k i)).isSome then tagWrite (.own k (entryDefault i)) s
    else s) s

/-! ### Alignment of the replicas (R43, R44) -/

/-- The largest replica error left to the loop, 2 ns, in units of 2^-32 ns. -/
abbrev hardLimit : Int := 8589934592

/-- A trim the loop may choose: a free value within ±250 ppm, in 1/256 ppb (assumption 15). -/
def freeTrim (n : Nat) : Int := ((n % 128000001 : Nat) : Int) - 64000000

/-- Aligns the copy of domain `d` on replica `q` with the carried master time. -/
def alignCopy (q d : Nat) (s : State) : State :=
  let m := copyOf s 0 d
  let err : Int := (copyTotal (copyOf s q d) : Int) - copyTotal m
  let beyond := err > hardLimit || err < -hardLimit
  if beyond || tabGet false s.time.needHard q then
    let s1 := kiln 0x0B05 [(1, q), (1, d), (8, ofSigned 64 (err / 65536))] (setCopy q d m s)
    if beyond then raiseFault 49 7 q false s1 else s1
  else
    let (n, s1) := takeFree s
    modTime (fun t => { t with trim := tabSet 0 (4 * q + d) (freeTrim n) t.trim }) s1

/-- A strobe at replica `q`: heard, its copies align; not heard, one more period is missed (R66). -/
def strobeReplica (heard : Nat) (q : Nat) (s : State) : State :=
  if bit heard (q - 1) then
    let s1 := (List.range 4).foldl (fun s d => alignCopy q d s) s
    modTime (fun t => { t with missed := tabSet 0 q 0 t.missed, needHard := tabSet false q false t.needHard }) s1
  else modTime (fun t => { t with missed := tabMod 0 q (· + 1) t.missed }) s

/-- The clock-profile change at a strobe: steps 2 and 4 of R45, and the return to the old frequency. -/
def strobeSwitch (s : State) : State :=
  let w := s.time.switch
  let put := fun (p : SwitchPhase) => modTime (fun t => { t with switch := { w with phase := p } }) s
  match w.phase with
  | .staged => put .relocking
  | .locked => modTime (fun t => { t with eased := w.newEased, switch := { w with phase := .converging } }) s
  | .restored =>
    kiln 0x0B0A [(1, b2n s.time.eased)] (modTime (fun t => { t with switch := {} }) s)
  | _ => s

/-! ### Events -/

/-- CLOCK_SOURCE_SWITCH (R13, R66). -/
def execClockSourceSwitch (q : Quad) (s : State) : Host.Outcome State Fault Refusal :=
  if tabGet false s.time.altClock q.val then .next s
  else
    let s1 := kiln 0x0B01 [(1, q.val), (1, 2 * q.val + 1)]
      (modTime (fun t => { t with altClock := tabSet false q.val true t.altClock }) s)
    .next ((List.range 4).foldl (fun s d => raiseFault 48 15 d false s) s1)

/-- RATE_ALLOWANCE_REFILL (R573): every limiter of the quadrant gains its pps thousandths, up to its cap. -/
def execRateAllowanceRefill (q : Quad) (s : State) : Host.Outcome State Fault Refusal := .next (refillLimits q.val s)

/-- Advances every enabled domain of die `q` by one core tick (R35), after the tick's firings (R62). -/
def tickDie (q : Nat) (s : State) : State :=
  let s0 := (List.range 4).foldl (fun s d => markLate q d s) s
  let s1 := (List.range 4).foldl (fun s d =>
      if (domainOf s d).enable then setCopy q d (advanceCopy (increment s q d) (copyOf s q d)) s else s) s0
  let s2 := modTel (fun t => { t with latchedInTick := t.latchedInTick.filter (· != q) })
    (modTime (fun t => { t with firedInTick := tabKeep (fun k => k / 4 != q) t.firedInTick }) s1)
  if q == 0 then
    modTime (fun t => { t with strobeTicks := t.strobeTicks + 1 }) (elapse (tickUnits s) s2)
  else s2

/-- Whether the core clocks run: the Q0 PLL has locked, and neither a reset nor a thermal trip holds them (R417, R524, R532). -/
def clocked (s : State) : Bool := s.boot.romRan && s.boot.powered && !s.boot.resetLow && !s.boot.tripped

/-- TIME_ADVANCE (R35, R36): one tick of die `q`; the entries due in the old tick fire before it. -/
def execTimeAdvance (q : Quad) (s : State) : Host.Outcome State Fault Refusal :=
  .next (if !clocked s || tickHolds s q.val then s else tickDie q.val s)

/-- ALIGNMENT_STROBE (R43, R45): due every 1,024 Q0 ticks; `heard` says which of Q1 to Q3 receive it. -/
def execAlignmentStrobe (heard : Fin 8) (s : State) : Host.Outcome State Fault Refusal :=
  if s.time.strobeTicks < 1024 then .next s
  else
    let s1 := modTime (fun t => { t with strobeTicks := 0 }) s
    let s2 := [1, 2, 3].foldl (fun s q => strobeReplica heard.val q s) s1
    let s3 := s2.time.tagged.foldl (fun s t => applyTagged t s) (modTime (fun t => { t with tagged := [] }) s2)
    .next (strobeSwitch s3)

/-- STROBE_MISSING (R66): 4 periods without a strobe raise bit 49; the next strobe received aligns hard. -/
def execStrobeMissing (q : Quad) (s : State) : Host.Outcome State Fault Refusal :=
  if q.val == 0 || tabGet 0 s.time.missed q.val < 4 then .next s
  else .next (detect 49 7 q.val (fun _ => modTime fun t =>
    { t with needHard := tabSet false q.val true t.needHard, missed := tabSet 0 q.val 0 t.missed }) s)

/-- ±200 ppm in units of 1/256 ppb (R40). -/
abbrev refLimit : Int := 51200000

/-- REFCLK_WINDOW (R40): `present` says that edges came, `rate` is the measured rate in 1/256 ppb. -/
def execRefclkWindow (d : Domain') (present : Bool) (rate : Int) (s : State) : Host.Outcome State Fault Refusal :=
  let dom := domainOf s d.val
  if dom.source != 1 then .next s
  else if present && inRangeI rate (-refLimit) refLimit then
    let s1 := setDomain d.val { dom with holdover := false, lastGood := rate } s
    .next (if dom.holdover then kiln 0x0B03 [(1, d.val)] s1 else s1)
  else if dom.holdover then .next s
  else .next (detect 48 15 d.val (fun inj s =>
    kilnInj inj 0x0B02 [(1, d.val)] (setDomain d.val { dom with holdover := true } s)) s)

/-- SLEW_END (R42): the duration is over and the addition is removed. -/
def execSlewEnd (d : Domain') (s : State) : Host.Outcome State Fault Refusal :=
  let dom := domainOf s d.val
  match dom.slew with
  | none => .next s
  | some w => .next (setDomain d.val { dom with slew := none } (reach (w.began + w.durationUs * tUs) s))

/-- PLL_LOCK_REPORT (R45): die `q` reports lock at the frequency the change is waiting for. -/
def execPllLockReport (q : Quad) (s : State) : Host.Outcome State Fault Refusal :=
  let w := s.time.switch
  let locked := if w.locked.contains q.val then w.locked else q.val :: w.locked
  let next : SwitchPhase → State := fun p =>
    modTime (fun t => { t with switch := { w with locked := locked, phase := if locked.length == 4 then p else w.phase } }) s
  match w.phase with
  | .relocking => .next (next .locked)
  | .restoring | .stuck => .next (next .restored)
  | _ => .next s

/-- MODE_CHANGED (R499, R522): the changes made and the profiles now in force. -/
def modeChanged (flags : Nat) (s : State) : State :=
  kiln 0x0201 [(1, flags), (1, b2n s.time.eased), (1, s.tableProfile), (1, s.bufferProfile)] s

/-- PROFILE_SWITCH_DONE (R45 step 5): the loops have reconverged; the change completes. -/
def execProfileSwitchDone (s : State) : Host.Outcome State Fault Refusal :=
  let w := s.time.switch
  if w.phase == .converging then
    let s1 := modeChanged (u8 w.data 0) (kiln 0x0B08 [(1, b2n w.newEased)] (modTime (fun t => { t with switch := {} }) s))
    .next (match w.run with
      | none => s1
      | some r => endRunning r .ok w.data [] s1)
  else .next s

/-- PROFILE_SWITCH_TIMEOUT (R45): 100 µs without every lock; the command ends and the old increments are staged. -/
def execProfileSwitchTimeout (s : State) : Host.Outcome State Fault Refusal :=
  let w := s.time.switch
  if w.phase == .staged || w.phase == .relocking then
    let s1 := reach (w.began + 100 * tUs) s
    let s2 := modTime (fun t => { t with switch := { w with phase := .restoring, timedOut := s1.now, locked := [], run := none } }) s1
    let made := u8 w.data 0 - u8 w.data 0 % 2
    .next (match w.run with
      | none => modeChanged made s2
      | some r => endRunning r .timeout (toLe 1 made) [] (modeChanged made s2))
  else .next s

/-- PROFILE_RELOCK_TIMEOUT (R45): 100 µs after the TIMEOUT a PLL is unlocked; bit 48 is raised for every domain. -/
def execProfileRelockTimeout (s : State) : Host.Outcome State Fault Refusal :=
  let w := s.time.switch
  if w.phase == .restoring then
    let s1 := reach (w.timedOut + 100 * tUs) s
    let s2 := modTime (fun t => { t with switch := { w with phase := .stuck, lastTry := s1.now } }) s1
    .next ((List.range 4).foldl (fun s d => raiseFault 48 15 d false s) s2)
  else .next s

/-- PLL_RELOCK_RETRY (R45): every 10 ms Icoux retries the relock at the old frequency. -/
def execPllRelockRetry (s : State) : Host.Outcome State Fault Refusal :=
  let w := s.time.switch
  if w.phase == .stuck then
    let s1 := reach (w.lastTry + 10 * tMs) s
    .next (modTime (fun t => { t with switch := { w with lastTry := s1.now, locked := [] } }) s1)
  else .next s

/-! ### Time pins (R53 to R55) -/

/-- The state of time pin `p`. -/
def pinOf (s : State) (p : Nat) : TimePin := tabGet {} s.time.pins p

/-- `s` with time pin `p` set. -/
def setPin (p : Nat) (v : TimePin) (s : State) : State := modTime (fun t => { t with pins := tabSet {} p v t.pins }) s

/-- The level an output pin drives: active or inactive, by its polarity. -/
def pinLevel (v : TimePin) : Bool := v.active != bit v.flags 1

/-- The capture record of an edge (R54): the two-step layout, with the pin number and the edge count. -/
def captureRecord (p edges : Nat) (t : Stamp) : Bytes :=
  image 24 [(0, 2, p), (2, 2, edges), (8, 8, t.sec), (16, 4, t.ns), (20, 2, t.frac), (22, 1, b2n t.holdover)]

/-- PIN_EDGE_CAPTURE (R54): an edge of an input pin; `short` marks a pulse under 100 ns, `err` the uncertainty of the
timestamp in 1/65,536 ns, at most 1 ns. -/
def execPinEdgeCapture (p : Fin 4) (rising short : Bool) (err : Int) (s : State) : Host.Outcome State Fault Refusal :=
  let v := pinOf s p.val
  let active := rising != bit v.flags 1
  if !bit v.flags 0 || short || !(if active then bit v.flags 2 else bit v.flags 3) || !inRangeI err (-65536) 65536 then
    .next s
  else
    let edges := wrapAdd 16 v.edges 1
    if v.captures.length ≥ 16 then .next (setPin p.val { v with edges, overflow := v.overflow + 1 } s)
    else
      let t := stampOf s 0 v.domain
      let r := captureRecord p.val edges (stampFrom ((stampTotal t : Int) + err) t.holdover)
      .next (setPin p.val { v with edges, captures := v.captures ++ [r] } s)

/-- PIN_PULSE (R55, R58): a PIN_PULSE entry fires on Q0 and starts its pulse. -/
def execPinPulse (d : Domain') (i : Fin 512) (s : State) : Host.Outcome State Fault Refusal :=
  if firesNext s 0 d.val i.val 4 then
    let e := entryOf s d.val i.val
    let p := entryTarget e
    let v := pinOf s p
    let s1 := fireEntry 0 d.val i.val s
    if bit v.flags 0 then
      let v' := { v with active := true, pulseEnd := s.now + entryArgument e * 35 }
      .next (emit (.pin p (pinLevel v')) (setPin p v' s1))
    else .next s1
  else .next s

/-- PIN_PULSE_END (R55): the pulse has lasted its width. -/
def execPinPulseEnd (p : Fin 10) (s : State) : Host.Outcome State Fault Refusal :=
  let v := pinOf s p.val
  if v.active then
    let v' := { v with active := false }
    .next (emit (.pin p.val (pinLevel v')) (setPin p.val v' (reach v.pulseEnd s)))
  else .next s

/-! ### Uncorrectable time stores (R66) -/

/-- TIME_STORE on a firing entry: disabled until it is reloaded. -/
def storeHitEntry (d i : Nat) (s : State) : State :=
  detect 50 15 d (fun _ s => setEntry d i { entryOf s d i with faulted := true } s) s

/-- TIME_STORE (R66): `hit` is 0 for firing entry `i`, 1 to 3 for the replica of that die, 4 for a master register. -/
def execTimeStore (d : Domain') (hit : Fin 5) (i : Fin 512) (s : State) : Host.Outcome State Fault Refusal :=
  match hit.val with
  | 0 => .next (storeHitEntry d.val i.val s)
  | 4 => .next (modTime (fun t => { t with corrected := t.corrected + 1 }) s)
  | q => .next (detect 50 15 d.val (fun _ s => setCopy q d.val (copyOf s 0 d.val) s) s)

/-- An entry reloaded on die `q`: the instants missed meanwhile are skipped. -/
def reloadOn (s : State) (d q : Nat) (e : FiringEntry) : FiringEntry × Nat :=
  let now := copyNs (copyOf s q d)
  match instantOn e q with
  | none => (e, 0)
  | some i =>
    if i ≤ now then
      if entryPeriod e == 0 then ({ e with instants := e.instants.set q none }, 1)
      else ({ e with instants := e.instants.set q (some (nextAfter (entryStart e) (entryPeriod e) now)) },
            (now - i) / entryPeriod e + 1)
    else (e, 0)

/-- TIME_STORE_RELOAD (R66): the entry is reloaded from Icoux's copy and works again. -/
def execTimeStoreReload (d : Domain') (i : Fin 512) (s : State) : Host.Outcome State Fault Refusal :=
  let e := entryOf s d.val i.val
  if e.faulted then
    let (e1, skipped) := (List.range 4).foldl (fun (a : FiringEntry × Nat) q =>
        let r := reloadOn s d.val q a.1
        (r.1, if q == countingDie e then r.2 else a.2)) ({ e with faulted := false }, 0)
    let s1 := setEntry d.val i.val { e1 with skip := satAdd 32 e1.skip skipped } s
    .next (if skipped > 0 then kiln 0x0B07 [(1, d.val), (2, i.val), (4, skipped)] s1 else s1)
  else .next s

/-! ### Commands -/

/-- Domain numbers 0 to 3, else RANGE. -/
def fDomain (off : Nat) : Fld := fRange off 1 0 3 .range

/-- The fields of TIME_DOMAIN (R38). -/
def timeDomainFields : List Fld :=
  [ (fDomain 0).asKey, fBits 1 1 3, fRange 2 1 0 1 .badarg,
    fDep 3 1 (fun _ p => orElse (u8 p 3 ≤ 2 && !(u8 p 2 == 1 && u8 p 3 == 0)) .badarg),
    fRsv 4 4,
    fDep 8 4 (fun _ p => if !inRangeI (s32 p 8) (-128000000) 128000000 then some .range
      else orElse (!(u8 p 2 == 1 && s32 p 8 != 0)) .badarg),
    fRsv 12 4 ]

/-- Whether a configured port names domain `d` as its ptp_domain (R39). -/
def namedByPort (s : State) (d : Nat) : Bool :=
  (configuredPorts s).any fun p => u8 (tabGet [] s.time.portTime p) 2 == d

/-- The rejections of R39. -/
def timeDomainState (s : State) (p : Bytes) : Bool :=
  let d := u8 p 0
  let fl := u8 p 1
  let dp := datapathDomain s
  let busy := d == dp || namedByPort s d || (domainEntries s d).any fun i => (entryOf s d i).enabled
  (!bit fl 0 && (busy || bit fl 1)) || (bit fl 1 && d != dp && (configuredPorts s).any (portEnabled s)) ||
    (d == dp && !bit fl 1)

/-- TIME_DOMAIN_WRITE as the opcode tables of Icoux give it (R514 to R520), with the checks of its fields. -/
def opTimeDomainWrite : OpDef := writeOp 0x0B01 16 timeDomainFields

/-- TIME_DOMAIN write (R38, R39): checked, then applied on all copies at the next strobe. -/
def execTimeDomainWrite (c : Cmd) (s : State) : Host.Outcome State Fault Refusal :=
  .next (icoux opTimeDomainWrite c (fun _ p s =>
    if timeDomainState s p then badAll .state else .later fun id => tagWrite (.domain p id) s) s)

/-- The TIME_DOMAIN object of domain `d`. -/
def timeDomainObj (s : State) (d : Nat) : Bytes :=
  let v := domainOf s d
  image 16 [(0, 1, d), (1, 1, b2n v.enable + 2 * b2n v.datapath), (2, 1, v.source), (3, 1, v.refclkFreq),
            (8, 4, ofSigned 32 v.rateAdj)]

/-- TIME_DOMAIN_READ as the opcode tables of Icoux give it (R514 to R520), with the checks of its fields. -/
def opTimeDomainRead : OpDef := readOp 0x0B02 16 timeDomainFields

/-- TIME_DOMAIN read. -/
def execTimeDomainRead (c : Cmd) (s : State) : Host.Outcome State Fault Refusal :=
  .next (icoux opTimeDomainRead c (fun _ p s => okReply s (timeDomainObj s (u8 p 0))) s)

/-- A TIME_ADJUST field that only some kinds use (R41). -/
def adjustField (off len : Nat) (kinds : List Nat) (f : State → Bytes → Option Status) : Fld :=
  fDep off len fun s p => if kinds.contains (u8 p 1) then f s p else orElse (zeroAt p off len) .badarg

/-- The fields of TIME_ADJUST (R41). -/
def timeAdjustFields : List Fld :=
  [ fDomain 0, fRange 1 1 1 4 .badarg, fRsv 2 2,
    adjustField 4 4 [1] (fun _ p => orElse (u32 p 4 ≤ 999999999) .range),
    adjustField 8 8 [1] (fun _ _ => none),
    adjustField 16 8 [2, 3] (fun _ p => orElse (u64 p 16 != 0) .badarg),
    adjustField 24 4 [3] (fun _ p => if u32 p 24 == 0 then some .badarg else orElse (u32 p 24 ≤ 1000000) .range),
    adjustField 28 4 [4] (fun s p => if !inRangeI (s32 p 28) (-128000000) 128000000 then some .range
      else orElse ((domainOf s (u8 p 0)).source != 1) .state) ]

/-- Whether a SLEW asks for more than 1,000 ppm (R42). -/
def slewTooFast (p : Bytes) : Bool := u8 p 1 == 3 && (s64 p 16).natAbs > u32 p 24 * 65536

/-- TIME_ADJUST as the opcode tables of Icoux give it (R514 to R520), with the checks of its fields. -/
def opTimeAdjust : OpDef := writeOp 0x0B03 32 timeAdjustFields

/-- TIME_ADJUST (R41, R42): applied by all copies at the next strobe. -/
def execTimeAdjust (c : Cmd) (s : State) : Host.Outcome State Fault Refusal :=
  .next (icoux opTimeAdjust c (fun _ p s =>
    if slewTooFast p then badAll .range else .later fun id => tagWrite (.adjust p id) s) s)

/-- TIME_GET as the opcode tables of Icoux give it (R514 to R520), with the checks of its fields. -/
def opTimeGet : OpDef := { requestOp 0x0B04 8 [fDomain 0, fRsv 1 7] with replies := false }

/-- TIME_GET (R512, R518). -/
def execTimeGet (c : Cmd) (s : State) : Host.Outcome State Fault Refusal :=
  .next (icoux opTimeGet c (fun _ p s =>
    let d := u8 p 0
    let t := stampOf s 0 d
    .done s .ok (toLe 8 t.sec ++ toLe 4 t.ns ++ toLe 2 t.frac ++
      toLe 1 (b2n t.holdover + 2 * b2n (domainOf s d).enable)) []) s)

/-- The PORT_TIME object of a port before it is written. -/
def portTimeDefault (p : Nat) : Bytes := image 16 [(0, 2, p)]

/-- The PORT_TIME object of port `p`. -/
def portTimeObj (s : State) (p : Nat) : Bytes := (tabFind s.time.portTime p).getD (portTimeDefault p)

/-- An adjustment within ±1,000 ns (R49). -/
def fAdjust (off : Nat) : Fld := fDep off 4 fun _ p => orElse (inRangeI (s32 p off) (-65536000) 65536000) .range

/-- The fields of PORT_TIME (R49). -/
def portTimeFields : List Fld :=
  [ (fDep 0 2 fun s p => portCheck s (u16 p 0)).asKey,
    fDep 2 1 (fun s p => if u8 p 2 > 3 then some .range else orElse (domainOf s (u8 p 2)).enable .state),
    fRsv 3 1, fAdjust 4, fAdjust 8, fRsv 12 4 ]

/-- PORT_TIME_WRITE as the opcode tables of Icoux give it (R514 to R520), with the checks of its fields. -/
def opPortTimeWrite : OpDef := writeOp 0x0B05 16 portTimeFields

/-- PORT_TIME write (R49). -/
def execPortTimeWrite (c : Cmd) (s : State) : Host.Outcome State Fault Refusal :=
  .next (icoux opPortTimeWrite c (fun _ p s =>
    okWrite (modTime (fun t => { t with portTime := tabSet (portTimeDefault (u16 p 0)) (u16 p 0) p t.portTime }) s)) s)

/-- PORT_TIME_READ as the opcode tables of Icoux give it (R514 to R520), with the checks of its fields. -/
def opPortTimeRead : OpDef := readOp 0x0B06 16 portTimeFields

/-- PORT_TIME read. -/
def execPortTimeRead (c : Cmd) (s : State) : Host.Outcome State Fault Refusal :=
  .next (icoux opPortTimeRead c (fun _ p s => okReply s (portTimeObj s (u16 p 0))) s)

/-- Records taken from a FIFO, oldest first: what is returned and what stays. -/
def takeRecords (n : Nat) (l : List Bytes) : Bytes × List Bytes := ((l.take n).flatten, l.drop n)

/-- TWOSTEP_READ as the opcode tables of Icoux give it (R514 to R520), with the checks of its fields. -/
def opTwostepRead : OpDef := { writeOp 0x0B0C 8 [fRange 0 1 0 63 .range, fRsv 1 1, fRange 2 2 1 170 .range, fRsv 4 4] with
    replies := true }

/-- TWOSTEP_READ (R52, R512). -/
def execTwostepRead (c : Cmd) (s : State) : Host.Outcome State Fault Refusal :=
  .next (icoux opTwostepRead c (fun _ p s =>
    let v := tabGet {} s.time.twoStep (u8 p 0)
    let (r, rest) := takeRecords (u16 p 2) v.records
    .done (modTime (fun t => { t with twoStep := tabSet {} (u8 p 0) { v with records := rest } t.twoStep }) s) .ok
      (toLe 2 (v.records.length - rest.length) ++ toLe 2 rest.length) r) s)

/-- CAPTURE_READ as the opcode tables of Icoux give it (R514 to R520), with the checks of its fields. -/
def opCaptureRead : OpDef := { writeOp 0x0B0D 8 [fRange 0 1 0 3 .range, fRsv 1 1, fRange 2 2 1 16 .range, fRsv 4 4] with
    replies := true }

/-- CAPTURE_READ (R54, R512). -/
def execCaptureRead (c : Cmd) (s : State) : Host.Outcome State Fault Refusal :=
  .next (icoux opCaptureRead c (fun _ p s =>
    let v := pinOf s (u8 p 0)
    let (r, rest) := takeRecords (u16 p 2) v.captures
    .done (setPin (u8 p 0) { v with captures := rest } s) .ok
      (toLe 2 (v.captures.length - rest.length) ++ toLe 2 rest.length) r) s)

/-- The flags of TIME_PIN (R53): an enabled input names an edge, an output names none. -/
def pinFlagsOk (p : Bytes) : Bool :=
  let fl := u8 p 1
  fl < 16 && (if u8 p 0 < 4 then !(bit fl 0 && bits fl 2 2 == 0) else bits fl 2 2 == 0)

/-- The fields of TIME_PIN (R53). -/
def timePinFields : List Fld :=
  [ (fRange 0 1 0 9 .range).asKey, fDep 1 1 (fun _ p => orElse (pinFlagsOk p) .badarg),
    fDep 2 1 (fun _ p => orElse (u8 p 0 ≥ 4 || u8 p 2 ≤ 3) .range), fRsv 3 5 ]

/-- TIME_PIN_WRITE as the opcode tables of Icoux give it (R514 to R520), with the checks of its fields. -/
def opTimePinWrite : OpDef := writeOp 0x0B07 8 timePinFields

/-- TIME_PIN write (R53): a disabled output drives its inactive level. -/
def execTimePinWrite (c : Cmd) (s : State) : Host.Outcome State Fault Refusal :=
  .next (icoux opTimePinWrite c (fun _ p s =>
    let n := u8 p 0
    let old := pinOf s n
    let v := { old with flags := u8 p 1, domain := u8 p 2, active := old.active && bit (u8 p 1) 0 }
    let s1 := setPin n v s
    okWrite (if n ≥ 4 then emit (.pin n (pinLevel v)) s1 else s1)) s)

/-- TIME_PIN_READ as the opcode tables of Icoux give it (R514 to R520), with the checks of its fields. -/
def opTimePinRead : OpDef := readOp 0x0B08 8 timePinFields

/-- TIME_PIN read. -/
def execTimePinRead (c : Cmd) (s : State) : Host.Outcome State Fault Refusal :=
  .next (icoux opTimePinRead c (fun _ p s =>
    let v := pinOf s (u8 p 0)
    okReply s (image 8 [(0, 1, u8 p 0), (1, 1, v.flags), (2, 1, v.domain)])) s)

/-- The least period of an action, in ns (R58). -/
def minPeriod (action : Nat) : Nat :=
  match action with
  | 1 | 2 => 1000000
  | 3 | 4 => 1000
  | _ => 0

/-- Whether another enabled entry of any domain names pin `pin` (R59). -/
def pinTaken (s : State) (d i pin : Nat) : Bool :=
  s.time.entries.any fun e =>
    e.1 != entryKey d i && e.2.enabled && entryAction e.2 == 4 && entryTarget e.2 == pin

/-- The target check of a firing entry (R58, R59). -/
def targetCheck (s : State) (p : Bytes) : Option Status :=
  let v := u32 p 12
  match u8 p 10 with
  | 1 | 2 => orElse (v == 0) .badarg
  | 3 => orElse (v ≤ 1023) .range
  | 4 => if !inRange v 4 9 then some .range else orElse (!pinTaken s (u8 p 0) (u16 p 8) v) .state
  | _ => none

/-- The argument check of a firing entry (R58, R59). -/
def argumentCheck (p : Bytes) : Option Status :=
  let v := u32 p 36
  let period := field p 28 6
  match u8 p 10 with
  | 1 | 2 | 3 => orElse (v == 0) .badarg
  | 4 => orElse (8 ≤ v && (period == 0 || v + 8 ≤ period)) .range
  | _ => none

/-- The action check of a firing entry (R57, R58, R59). -/
def actionCheck (s : State) (p : Bytes) : Option Status :=
  let a := u8 p 10
  orElse (a ≤ 4 && !(a == 0 && bit (u8 p 11) 0) && !((a == 1 || a == 2) && u8 p 0 != datapathDomain s)) .badarg

/-- The fields of FIRING_ENTRY with its prefix (R57, R512). -/
def firingFields (write : Bool) : List Fld :=
  [ (fDomain 0).asKey, fRsv 1 7,
    (fDep 8 2 (fun _ p => if u16 p 8 > 511 then some .range else orElse (!write || u16 p 8 < 448) .denied)).asKey,
    fDep 10 1 actionCheck, fBits 11 1 1, fDep 12 4 targetCheck, fAny 16 8,
    fRange 24 4 0 999999999 .range,
    fDep 28 6 (fun _ p => orElse (field p 28 6 == 0 || minPeriod (u8 p 10) ≤ field p 28 6) .range),
    fRsv 34 2, fDep 36 4 fun _ p => argumentCheck p ]

/-- The enabled COUNTER_FREEZE entries of domain `d` other than entry `i`. -/
def otherFreezes (s : State) (d i : Nat) : Nat :=
  ((domainEntries s d).filter fun k => k != i && (entryOf s d k).enabled && entryAction (entryOf s d k) == 1).length

/-- FIRING_ENTRY_WRITE as the opcode tables of Icoux give it (R514 to R520), with the checks of its fields. -/
def opFiringEntryWrite : OpDef := writeOp 0x0B09 40 (firingFields true)

/-- FIRING_ENTRY write (R56 to R59): applied on all dies at the next strobe. -/
def execFiringEntryWrite (c : Cmd) (s : State) : Host.Outcome State Fault Refusal :=
  .next (icoux opFiringEntryWrite c (fun _ p s =>
    let d := u8 p 0
    let en := bit (u8 p 11) 0
    if en && u8 p 10 == 1 && otherFreezes s d (u16 p 8) ≥ 4 then badAll .nores
    else if en && field p 28 6 == 0 && u64 p 16 * 1000000000 + u32 p 24 ≤ copyNs (copyOf s 0 d) then badAll .range
    else .later fun id => tagWrite (.entry d (p.drop 8) id) s) s)

/-- FIRING_ENTRY_READ as the opcode tables of Icoux give it (R514 to R520), with the checks of its fields. -/
def opFiringEntryRead : OpDef := readOp 0x0B0A 40 (firingFields false)

/-- FIRING_ENTRY read: the reply is the object without its prefix. -/
def execFiringEntryRead (c : Cmd) (s : State) : Host.Outcome State Fault Refusal :=
  .next (icoux opFiringEntryRead c (fun _ p s =>
    okReply s (entryObj s (u8 p 0) (u16 p 8))) s)

/-- The FIRING_STATUS object (R65, R513). -/
def firingStatusObj (s : State) (d i : Nat) : Bytes :=
  let e := entryOf s d i
  let ns := (instantOn e (countingDie e)).getD 0
  image 32 [(0, 2, i), (2, 1, d), (3, 1, b2n e.enabled), (4, 8, ns / 1000000000), (12, 4, ns % 1000000000),
            (20, 4, e.lag), (24, 4, e.skip), (28, 4, e.fires)]

/-- FIRING_STATUS as the opcode tables of Icoux give it (R514 to R520), with the checks of its fields. -/
def opFiringStatus : OpDef := requestOp 0x0B0B 8 [fDomain 0, fRsv 1 1, fRange 2 2 0 511 .range, fRsv 4 4]

/-- FIRING_STATUS (R65, R512). -/
def execFiringStatus (c : Cmd) (s : State) : Host.Outcome State Fault Refusal :=
  .next (icoux opFiringStatus c (fun _ p s =>
    okReply s (firingStatusObj s (u8 p 0) (u16 p 2))) s)

end Sys2Proof.Machine
end

