-- ==== Sys2Proof/Machine/Buffer.lean ====
section
/-!
DEFINITION. The shared buffer's operations: cells, blocks, what queues and pools hold, admission, and the release of copies
(R276 to R296).
-/

namespace Sys2Proof.Machine

/-! ### Quadrants, queues and copies -/

/-- Quadrant `q`'s buffer. -/
def bufQuad (s : State) (q : Nat) : BufQuad := tabGet {} s.buf.quads q

/-- `s` with quadrant `q`'s buffer changed. -/
def modQuad (q : Nat) (f : BufQuad → BufQuad) (s : State) : State :=
  modBuf (fun b => { b with quads := tabMod {} q f b.quads }) s

/-- The number of queue `k` of port `p` among all queues (R378). -/
def queueNo (p k : Nat) : Nat := 20 * p + k

/-- A queue by its number. -/
def bufQueue (s : State) (n : Nat) : BufQueue := tabGet {} s.buf.queues n

/-- `s` with a queue changed. -/
def modQueue (n : Nat) (f : BufQueue → BufQueue) (s : State) : State :=
  modBuf (fun b => { b with queues := tabMod {} n f b.queues }) s

/-- Copy `c`. -/
def copyAt (s : State) (c : Nat) : Copy := (tabFind s.buf.copies c).getD { frame := 0, quad := 0, port := 0, queue := 0 }

/-- `s` with copy `c`, if it exists, changed. -/
def modCopy (c : Nat) (f : Copy → Copy) (s : State) : State :=
  modBuf (fun b => { b with copies := tabUpd c f b.copies }) s

/-- The copies with a property, by number. -/
def copiesWith (s : State) (p : Copy → Bool) : List Nat := (s.buf.copies.filter fun e => p e.2).map Prod.fst

/-- The sum of a measure of the copies with a property. -/
def sumCopies (s : State) (p : Copy → Bool) (f : Copy → Nat) : Nat :=
  ((s.buf.copies.filter fun e => p e.2).map fun e => f e.2).foldl (· + ·) 0

/-- The spill slots a copy holds. -/
def copySlots (c : Copy) : List Nat := match c.spill with | some x => x.slots | none => []

/-- Whether a copy stands in queue `n`. -/
def inQueue (n : Nat) (c : Copy) : Bool := queueNo c.port c.queue == n

/-- q.sram: the cells a queue holds or has reserved (R288). -/
def queueSram (s : State) (n : Nat) : Nat := sumCopies s (inQueue n) fun c => c.cells.length

/-- q.slots (R288). -/
def queueSlots (s : State) (n : Nat) : Nat := sumCopies s (inQueue n) fun c => (copySlots c).length

/-- The occupancy of ingress port `p` and class `c` in quadrant `q` (R113, R290). -/
def trueOccupancy (s : State) (q p c : Nat) : Nat :=
  sumCopies s (fun x => x.quad == q && x.ingress == some p && x.cls == c) fun x => x.cells.length + (copySlots x).length

/-- The beats a stack delivers in one window (R297). -/
abbrev windowBeats : Nat := 37500

/-- Whether stack `q` grants `n` beats to a class in this window (R298): all classes together take at most the window. -/
def beatsLeft (s : State) (q n : Nat) : Bool :=
  ((bufQuad s q).beats.map Prod.snd).foldl (· + ·) 0 + n ≤ windowBeats && (bufQuad s q).retrain.isNone

/-- Stack `q` grants `n` beats to class `c`: 0 background, 1 COUNT, 2 LOOKUP, 3 SPILL, 4 FIRMWARE. -/
def useBeats (q c n : Nat) (s : State) : State :=
  count (cDramBeats c) q n (modQuad q (fun b => { b with beats := tabMod 0 c (· + n) b.beats }) s)

/-! ### Objects (R282 to R285) -/

def poolDefault (q : Nat) : Bytes := image 16 [(0, 1, q), (8, 4, 3145728)]

/-- The BUFFER_POOL object of quadrant `q`. -/
def bufferPool (s : State) (q : Nat) : Bytes := let o := (bufQuad s q).pool; if o.isEmpty then poolDefault q else o

def headroomCells (s : State) (q : Nat) : Nat := u32 (bufferPool s q) 4
def spillBlocks (s : State) (q : Nat) : Nat := u32 (bufferPool s q) 8

def profileAdmitDefault (n : Nat) : Bytes :=
  image 32 [(1, 1, n), (3, 1, 6), (4, 1, 2), (8, 4, 8), (12, 4, 65536), (24, 4, 512)]

/-- Admission profile `n` of quadrant `q`, quadrant_mask zero. -/
def admitProfile (s : State) (q n : Nat) : Bytes := (tabFind s.buf.profiles (64 * q + n)).getD (profileAdmitDefault n)

def portAdmitDefault (p : Nat) : Bytes := image 64 [(0, 2, p)]

/-- The PORT_ADMIT object of port `p`. -/
def portAdmit (s : State) (p : Nat) : Bytes := (tabFind s.buf.portAdmit p).getD (portAdmitDefault p)

/-- The number of queue `k` of port `p`'s admission profile. -/
def profileNo (s : State) (p k : Nat) : Nat := u8 (portAdmit s p) (4 + k)

/-- The admission profile of queue `k` of port `p`. -/
def queueProfile (s : State) (p k : Nat) : Bytes := admitProfile s (quadOfPort p) (profileNo s p k)

def minCells (o : Bytes) : Nat := u32 o 8
def maxCells (o : Bytes) : Nat := u32 o 12
def spillOn (o : Bytes) : Nat := u32 o 16
def spillMax (o : Bytes) : Nat := u32 o 20
def returnCells (o : Bytes) : Nat := u32 o 24

/-- The sum of min_cells over the queues of quadrant `q`'s configured ports (R283). -/
def minCellsSum (s : State) (q : Nat) : Nat :=
  (((configuredPorts s).filter fun p => quadOfPort p == q).flatMap fun p =>
    (List.range 20).map fun k => minCells (queueProfile s p k)).foldl (· + ·) 0

/-- The cells of a quadrant. -/
abbrev allCells : Nat := 655360

/-- shared_cells of quadrant `q` (R283). -/
def sharedCells (s : State) (q : Nat) : Nat :=
  allCells - (bufQuad s q).retired.length - headroomCells s q - minCellsSum s q

/-- Whether the shared pool of every quadrant keeps its floor (R283). -/
def poolsFit (s : State) : Bool := (List.range 4).all fun q => 65536 ≤ sharedCells s q

def sharedFree (s : State) (q : Nat) : Nat := sharedCells s q - sumCopies s (fun c => c.quad == q) fun c => c.shared
def headroomUsed (s : State) (q : Nat) : Nat := sumCopies s (fun c => c.quad == q) fun c => c.headroom
def headroomFree (s : State) (q : Nat) : Nat := headroomCells s q - headroomUsed s q

/-- The cells free in quadrant `q`'s bitmap. -/
def freeCells (s : State) (q : Nat) : Nat := allCells - (bufQuad s q).cells.length

/-- The frame descriptors free in quadrant `q` (R281). -/
def freeDescriptors (s : State) (q : Nat) : Nat := 1048576 - (copiesWith s fun c => c.quad == q && !c.gone).length

/-- The spill blocks free in quadrant `q` (R291). -/
def freeBlocks (s : State) (q : Nat) : Nat := spillBlocks s q - ((bufQuad s q).blocks.filter fun e => e.1 < spillBlocks s q).length

/-! ### Cells (R278 to R280) -/

/-- The lowest key from `c` on that a table does not list. -/
def firstGap {α : Type} : Nat → Store α → Nat
  | c, [] => c
  | c, (k, _) :: t => if k < c then firstGap c t else if k == c then firstGap (c + 1) t else c

/-- The lowest free cell of a bank, by find-first-free. -/
def bankFree (b : BufQuad) (bank : Nat) : Option Nat :=
  let c := firstGap (bank * 8192) b.cells
  if c < bank * 8192 + 5120 then some c else none

/-- The bank that serves the next cell request: the first at or after the pointer that has a free cell and has not yet
allocated in this clock. -/
def pickBank (b : BufQuad) : Option Nat :=
  ((List.range 128).map fun i => (b.ptr + i) % 128).find? fun k => !b.used.contains k && (bankFree b k).isSome

/-- Allocates one cell in quadrant `q`. A request that finds every bank used goes on in the next clock. -/
def takeCell (q : Nat) (s : State) : Option (Nat × State) :=
  let b := bufQuad s q
  let b1 := if (pickBank b).isSome then b else { b with used := [] }
  match pickBank b1 with
  | none => none
  | some k => (bankFree b1 k).map fun c =>
      (c, modQuad q (fun _ => { b1 with cells := tabPut c 1 b1.cells, used := k :: b1.used }) s)

/-- Allocates `n` cells in quadrant `q`. -/
def takeCells (q : Nat) : Nat → State → Option (List Nat × State)
  | 0, s => some ([], s)
  | n + 1, s =>
    match takeCell q s with
    | none => none
    | some (c, s1) => (takeCells q n s1).map fun r => (c :: r.1, r.2)

/-- The lowest free count so far (R303). -/
def notePeakFree (q : Nat) (s : State) : State :=
  modQuad q (fun b => { b with minFree := some (min (b.minFree.getD allCells) (freeCells s q)) }) s

/-- Whether a cell is retired at its release: two uncorrectable words within 24 hours, at most 64 cells of a bank (R301). -/
def cellRetires (s : State) (q c : Nat) : Bool :=
  let b := bufQuad s q
  2 ≤ (b.suspect.filter fun x => x.1 == c && s.now ≤ x.2 + 86400 * tSec).length &&
    (b.retired.filter fun x => x / 8192 == c / 8192).length < 64

/-- Releases a cell for one copy; the last release puts it back into the pool, or retires it. `seen` says that the cell was
counted as allocated. -/
def releaseCell (seen : Bool) (q : Nat) (s : State) (c : Nat) : State :=
  match tabFind (bufQuad s q).cells c with
  | none => s
  | some n =>
    if n > 1 then modQuad q (fun b => { b with cells := tabPut c (n - 1) b.cells }) s
    else
      let s1 := if seen then count cBufRelease q 1 s else s
      if cellRetires s q c then
        kiln 0x0802 [(1, q), (4, c)] (modQuad q (fun b => { b with cells := tabPut c 0 b.cells, retired := b.retired ++ [c] }) s1)
      else modQuad q (fun b => { b with cells := tabDel c b.cells }) s1

/-! ### Spill blocks and slots (R291, R293) -/

/-- The slots a spilled frame of `n` cells takes: consecutive in the open block, then in newly allocated blocks. -/
def takeSlots (q no : Nat) : Nat → State → List Nat × State
  | 0, s => ([], s)
  | n + 1, s =>
    let (b, k) := match (bufQueue s no).openBlock with
      | some x => x
      | none => (firstGap 0 (bufQuad s q).blocks, 0)
    let last := k == 15
    let s1 := modQuad q (fun u => { u with blocks := tabMod {} b (fun x => { x with live := x.live + 1, closed := last }) u.blocks }) s
    let s2 := modQueue no (fun u => { u with openBlock := if last then none else some (b, k + 1) }) s1
    let (rest, s3) := takeSlots q no n s2
    ((16 * b + k) :: rest, s3)

/-- The new blocks that `n` more slots of a queue need. -/
def blocksNeeded (s : State) (no n : Nat) : Nat :=
  match (bufQueue s no).openBlock with
  | some (_, k) => ceilDiv (n - (16 - k)) 16
  | none => ceilDiv n 16

/-- Frees a block that is closed or full and holds no slot; a bad one is retired (R293, R301). -/
def settleBlock (q b : Nat) (s : State) : State :=
  let x := tabGet {} (bufQuad s q).blocks b
  if x.dead || !x.closed || x.live > 0 then s
  else if x.bad then kiln 0x0808 [(1, q), (4, b)] (modQuad q (fun u => { u with blocks := tabPut b { x with dead := true } u.blocks }) s)
  else modQuad q (fun u => { u with blocks := tabDel b u.blocks }) s

/-- Releases a slot. -/
def releaseSlot (q : Nat) (s : State) (k : Nat) : State :=
  let b := k / 16
  settleBlock q b (modQuad q (fun u => { u with blocks := tabUpd b (fun x => { x with live := x.live - 1 }) u.blocks }) s)

/-- The first copy of a queue's DRAM section. -/
def sectionHead (s : State) (no : Nat) : Option Nat := (bufQueue s no).fifo.find? fun c => (copyAt s c).spill.isSome

/-- Ends SPILLING when the queue's DRAM section is empty: the open block is closed (R292, R295). -/
def endSpill (q no : Nat) (s : State) : State :=
  let u := bufQueue s no
  if !u.spilling || (sectionHead s no).isSome then s
  else
    let s1 := modQueue no (fun u => { u with spilling := false, openBlock := none }) s
    match u.openBlock with
    | none => s1
    | some (b, _) =>
      settleBlock q b (modQuad q (fun x => { x with blocks := tabUpd b (fun y => { y with closed := true }) x.blocks }) s1)

/-! ### Releasing copies (R280, R281) -/

/-- Whether something in the device still needs frame `u`. -/
def frameNeeded (s : State) (u : Nat) : Bool :=
  hasDelivery s u || s.buf.copies.any (fun e => e.2.frame == u) || s.sw.transfers.any (fun t => t.frame == u) ||
    s.sw.lateMirrors.any fun x => x.2.1 == u

/-- A frame forgotten once nothing in the device needs it. -/
def forget (u : Nat) (s : State) : State :=
  if frameNeeded s u then s else modFr (fun t => { t with frames := tabDel u t.frames }) s

/-- Forgets frame `u` if it has ended and has no place left in its pipeline. -/
def settleFrame (u : Nat) (s : State) : State :=
  match tabFind s.fr.frames u with
  | some v => if v.ended && v.place == .spent then forget u s else s
  | none => s

/-- The scheduler's node of the queues of class `c` and of the leaves of a divided queue. -/
def classNode (c : Nat) : Nat := 1 + c
def leafNode (k : Nat) : Nat := 16 + k

/-- `s` with port `p`'s scheduler changed. -/
def portSched (s : State) (p : Nat) : PortSched := tabGet {} s.sch.ports p
def modPortSched (p : Nat) (f : PortSched → PortSched) (s : State) : State :=
  modSch (fun t => { t with ports := tabMod {} p f t.ports }) s

/-- A child of a node that now holds no copy wakes anew (R353). -/
def childEmpty (node k : Nat) (v : PortSched) : PortSched :=
  { v with nodes := tabUpd node (fun n => { n with kids := tabUpd k (fun x => { x with had := false, was := false }) n.kids }) v.nodes }

def portSchedDefault (p : Nat) : Bytes :=
  putBytes (image 128 ([(0, 2, p), (4, 4, 65536), (24, 1, 1), (25, 1, 3), (26, 1, 5), (27, 1, 7)] ++
    (List.range 16).map fun q => (8 + q, 1, q / 2))) 28 (List.replicate 20 1)

/-- The PORT_SCHED object in force of port `p` (R356). -/
def portSchedObj (s : State) (p : Nat) : Bytes := let o := (portSched s p).obj; if o.isEmpty then portSchedDefault p else o

/-- The class of queue `k` of port `p`. -/
def queueClass (s : State) (p k : Nat) : Nat := u8 (portSchedObj s p) (8 + k)

/-- The scheduler learns which children a queue's last departure left without a copy. -/
def noteEmpty (p k : Nat) (leaf : Option Nat) (s : State) : State :=
  let fifo := (bufQueue s (queueNo p k)).fifo
  let s1 := match leaf with
    | some l => if fifo.any fun c => (copyAt s c).leaf == some l then s else modPortSched p (childEmpty (leafNode k) l) s
    | none => s
  if fifo.isEmpty then modPortSched p (childEmpty (classNode (queueClass s p k)) k) s1 else s1

/-- A copy leaves its queue's order, for transmission or for good. -/
def unlinkCopy (c : Nat) (s : State) : State :=
  let x := copyAt s c
  noteEmpty x.port x.queue x.leaf (modQueue (queueNo x.port x.queue) (fun u => { u with fifo := u.fifo.filter (· != c) }) s)

/-- Releases what copy `c` holds: descriptor, cells and slots. Cells still being written are released once written (R280). -/
def releaseCopy (c : Nat) (s : State) : State :=
  match tabFind s.buf.copies c with
  | none => s
  | some x =>
    let no := queueNo x.port x.queue
    let s1 := unlinkCopy c s
    let s2 := (copySlots x).foldl (releaseSlot x.quad) (modCopy c (fun y => { y with spill := none }) s1)
    if (frameOf s x.frame).ended then
      let s3 := x.cells.foldl (releaseCell true x.quad) (modBuf (fun b => { b with copies := tabDel c b.copies }) s2)
      settleFrame x.frame (endSpill x.quad no s3)
    else endSpill x.quad no (modCopy c (fun y => { y with gone := true }) s2)

/-- What a drop record says of a copy. -/
def copyInfo (s : State) (x : Copy) : CopyInfo :=
  let no := queueNo x.port x.queue
  { egress := x.port, queue := x.queue, cls := x.cls, colour := x.colour, cells := queueSram s no + queueSlots s no,
    mirror := x.mirror.isSome, throttled := throttled s (frameOf s x.frame) x.port }

/-- Counts a drop and makes its record; a dropped export frame makes none (R332, R391). -/
def dropCopyIn (q reason : Nat) (exporter : Option Nat) (v : Frame) (i : CopyInfo) (s : State) : State :=
  match exporter with
  | some e => count cTelExportDrops e 1 (count (cSwcDrops reason) q 1 s)
  | none => dropIn q reason v i s

/-- Drops copy `c`. -/
def dropCopy (c reason : Nat) (detail : Nat) (s : State) : State :=
  let x := copyAt s c
  releaseCopy c (dropCopyIn x.quad reason x.exporter (frameOf s x.frame) { copyInfo s x with detail } s)

/-! ### Admission (R286 to R289) -/

/-- The cells of a frame of `len` bytes (R276). -/
def cellsOf (len : Nat) : Nat := ceilDiv len 256

/-- The length of a copy of frame `v`: its own or, truncated, less (R325). -/
def copyLen (v : Frame) (trunc : Nat) : Nat := if trunc != 0 && v.data.length > trunc then trunc else v.data.length

/-- A frame's reservation n (R287). -/
def reservation (v : Frame) (trunc : Nat) : Nat := cellsOf (if v.ended then copyLen v trunc else v.maxFrame)

/-- Whether a queue spills a copy of `n` cells (R288). -/
def spillsNow (s : State) (q p k n : Nat) : Bool :=
  let o := queueProfile s p k
  (bufQueue s (queueNo p k)).spilling ||
    (s.bufferProfile == 1 && !spillFenced s q && spillBlocks s q != 0 && spillOn o != 0 && queueSram s (queueNo p k) + n > spillOn o)

/-- The dynamic limit of a queue for a colour: green and none 8 eighths (R288). -/
def queueLimit (s : State) (q : Nat) (o : Bytes) (colour : Nat) : Nat :=
  let a := s8 o 2
  let free := sharedFree s q
  let dyn := if a ≥ 0 then free * 2 ^ a.toNat else free / 2 ^ (-a).toNat
  let eighths := if colour == 1 then u8 o 3 else if colour == 2 then u8 o 4 else 8
  min (maxCells o - minCells o) dyn * eighths / 8

/-- The cells of a copy of `n` within its queue's guarantee. -/
def guaranteed (s : State) (p k n : Nat) : Nat := min n (minCells (queueProfile s p k) - queueSram s (queueNo p k))

/-- The reason for which a copy is refused, or zero (R288); a queue whose counts are rebuilt admits only its guarantee (R306). -/
def admitReason (s : State) (x : Copy) (n : Nat) : Nat :=
  let no := queueNo x.port x.queue
  let o := queueProfile s x.port x.queue
  let g := guaranteed s x.port x.queue n
  let sh := n - g
  if freeDescriptors s x.quad == 0 then 0x24
  else if (bufQueue s no).rebuilding && sh > 0 then 0x22
  else
    let spill := spillsNow s x.quad x.port x.queue n
    if spill && (queueSlots s no + n > 16 * spillMax o || blocksNeeded s no n > freeBlocks s x.quad) then 0x25
    else if !spill && !x.lossless && queueSram s no - minCells o + sh > queueLimit s x.quad o x.colour then 0x22
    else if sh > sharedFree s x.quad && !(x.lossless && sh ≤ sharedFree s x.quad + headroomFree s x.quad) then 0x23
    else 0

/-- The counter of an admission drop. -/
def admitDropCounter (reason : Nat) : Option Counter :=
  match reason with
  | 0x22 => some (bufQueueCnt 2)
  | 0x23 => some (bufQueueCnt 3)
  | 0x25 => some (bufQueueCnt 4)
  | 0x24 => some (bufQueueCnt 5)
  | _ => none

/-- A copy refused at admission. -/
def refuseCopy (reason : Nat) (x : Copy) (s : State) : State :=
  let no := queueNo x.port x.queue
  let s1 := match admitDropCounter reason with | some k => count k no 1 s | none => s
  let s2 := if reason == 0x23 then kilnOnce 0x0806 x.quad [(1, x.quad)] s1
    else if reason == 0x25 then kilnOnce 0x0807 no [(1, x.quad), (2, x.port), (2, x.queue)] s1 else s1
  dropCopyIn x.quad reason x.exporter (frameOf s x.frame) (copyInfo s x) s2

/-- Stores an admitted copy with its cells: what it is charged, its place in the queue, its slots when it spills. -/
def storeCopy (x : Copy) (cells : List Nat) (s : State) : State :=
  let no := queueNo x.port x.queue
  let n := cells.length
  let g := guaranteed s x.port x.queue n
  let sh := min (n - g) (sharedFree s x.quad)
  let hr := n - g - sh
  let spill := spillsNow s x.quad x.port x.queue n
  let seq := (bufQueue s no).seq
  let (slots, s1) := if spill then takeSlots x.quad no n s else ([], s)
  let y : Copy := { x with cells, guar := g, shared := sh, headroom := hr
                           queueCells := queueSram s no + queueSlots s no + n + slots.length
                           quadCells := allCells - freeCells s x.quad
                           spill := if spill then some { seq, slots } else none }
  let id := s1.buf.nextCopy
  let s2 := modBuf (fun b => { b with copies := tabPut id y b.copies, nextCopy := id + 1 }) s1
  let s3 := modQueue no (fun u => { u with fifo := u.fifo ++ [id], spilling := u.spilling || spill
                                           seq := if spill then wrapAdd 16 u.seq 1 else u.seq
                                           peak := max u.peak (queueSram s2 no) }) s2
  let s4 := count (bufQueueCnt 0) no 1 (if spill then count (bufQueueCnt 6) no 1 s3 else s3)
  if hr > 0 then count cBufHeadroom x.quad 1 s4 else s4

/-- The cells an admitted copy's frame has in its quadrant: those an earlier copy wrote, which it shares, or new ones. -/
def copyCells (x : Copy) (chain : Option (List Nat)) (n : Nat) (ended : Bool) (s : State) : Option (List Nat × State) :=
  match chain with
  | some l => some (l, modQuad x.quad (fun b => { b with cells := l.foldl (fun t c => tabUpd c (· + 1) t) b.cells }) s)
  | none => (takeCells x.quad n s).map fun r => (r.1, if ended then count cBufAlloc x.quad n r.2 else r.2)

/-- Admits a copy, or drops it whole. `chain` holds the frame's cells when an earlier copy of the quadrant has written them:
answers the cells its frame now has there. -/
def admitCopy (x : Copy) (chain : Option (List Nat)) (s : State) : Option (List Nat) × State :=
  let v := frameOf s x.frame
  let n := reservation v x.trunc
  let reason := admitReason s x n
  if reason != 0 then (chain, refuseCopy reason x s)
  else
    match copyCells x chain n v.ended s with
    | none => (chain, refuseCopy 0x23 x s)
    | some (l, s1) =>
      let s2 := notePeakFree x.quad (storeCopy x l s1)
      let no := queueNo x.port x.queue
      (some l, if v.ended then spendQueue no 0 5 n (count (bufQueueCnt 1) no n s2) else s2)

/-! ### The end of a frame (R287) -/

/-- Takes `k` cells off a copy's charges, in the order headroom, shared, guarantee. -/
def uncharge (k : Nat) (x : Copy) : Copy :=
  let h := min k x.headroom
  let sh := min (k - h) x.shared
  { x with headroom := x.headroom - h, shared := x.shared - sh, guar := x.guar - (k - h - sh) }

/-- Trims copy `c` to the cells its frame has used; a copy whose descriptor is gone is released whole. Staging cells already
written have left the chain's front. -/
def trimCopy (c : Nat) (s : State) : State :=
  let x := copyAt s c
  let n := cellsOf (copyLen (frameOf s x.frame) x.trunc)
  let keep := n - (match x.spill with | some z => z.written | none => 0)
  let extra := x.cells.drop keep
  let first := !(s.buf.copies.any fun e => e.1 < c && e.2.frame == x.frame && e.2.quad == x.quad && e.2.cells.head? == x.cells.head?)
  let s1 := if first then count cBufAlloc x.quad n s else s
  let s2 := extra.foldl (releaseCell false x.quad) (modCopy c (fun y => { uncharge extra.length y with cells := y.cells.take keep }) s1)
  let s3 := ((copySlots x).drop n).foldl (releaseSlot x.quad)
    (modCopy c (fun y => { y with spill := y.spill.map fun z => { z with slots := z.slots.take n } }) s2)
  let s4 := spendQueue (queueNo x.port x.queue) 0 5 n (count (bufQueueCnt 1) (queueNo x.port x.queue) n s3)
  if x.gone then
    (x.cells.take keep).foldl (releaseCell true x.quad) (modBuf (fun b => { b with copies := tabDel c b.copies }) s4)
  else s4

end Sys2Proof.Machine
end

