-- ==== Sys2Proof/Machine/SchedOps.lean ====
section
/-!
DEFINITION. Token buckets and charges of policers, shapers and weighted nodes (R338, R342 to R345, R351 to R355).
-/

namespace Sys2Proof.Machine

/-! ### Buckets -/

/-- The increment of a rate of `r` kb/s at one refill, in 1/65,536 byte: round(r × 8.388608) (R338). -/
def rateInc (r : Nat) : Nat := (2 * r * 8388608 + 1000000) / 2000000

/-- A signed byte field. -/
def overheadOf (o : Bytes) (off : Nat) : Int := s8 o off

/-! ### Policers (R340 to R347) -/

def policerDefault (q i : Nat) : Bytes := image 32 [(0, 1, q), (4, 4, i)]

/-- The number of policer `i` of quadrant `q`. -/
def policerNo (q i : Nat) : Nat := 131072 * q + i

/-- A policer by its number. -/
def policerAt (s : State) (n : Nat) : Policer := tabGet {} s.sch.policers n

/-- `s` with a policer changed. -/
def modPolicer (n : Nat) (f : Policer → Policer) (s : State) : State :=
  modSch (fun t => { t with policers := tabMod {} n f t.policers }) s

/-- The object of a policer in force. -/
def policerObj (s : State) (n : Nat) : Bytes :=
  let o := (policerAt s n).obj
  if o.isEmpty then policerDefault (n / 131072) (n % 131072) else o

def polMode (o : Bytes) : Nat := u8 o 1
def polFlags (o : Bytes) : Nat := u8 o 2
def polCir (o : Bytes) : Nat := u32 o 8
def polCbs (o : Bytes) : Nat := u32 o 12
def polEir (o : Bytes) : Nat := u32 o 16
def polEbs (o : Bytes) : Nat := u32 o 20

/-- A burst in 1/65,536 byte. -/
def burstUnits (bytes : Nat) : Nat := bytes * 65536

/-- Applies a staged POLICER object at a refill: a changed mode fills both buckets, else each is capped (R347). -/
def applyPolicer (v : Policer) : Policer :=
  match v.staged with
  | none => v
  | some o =>
    let c := burstUnits (polCbs o)
    let e := burstUnits (polEbs o)
    let old := if v.obj.isEmpty then 0 else polMode v.obj
    if polMode o != old then { v with obj := o, staged := none, tc := c, te := e }
    else { v with obj := o, staged := none, tc := min v.tc c, te := min v.te e }

/-- One refill of a policer's buckets (R343). -/
def refillPolicer (v : Policer) : Policer :=
  let o := v.obj
  let c := burstUnits (polCbs o)
  let e := burstUnits (polEbs o)
  let full := v.tc + rateInc (polCir o)
  let excess := full - c
  let feed := match polMode o with
    | 1 => excess
    | _ => rateInc (polEir o) + if bit (polFlags o) 1 then excess else 0
  { v with tc := min full c, te := min (v.te + feed) e }

/-- A frame's policed length b (R342). -/
def policedLen (o : Bytes) (len : Nat) : Nat := ((len : Int) + overheadOf o 3).toNat

/-- The marking of R344: the colour of a frame of `b` bytes that came in as `pre`, and the buckets after it. -/
def markFrame (v : Policer) (o : Bytes) (b pre : Nat) : Nat × Policer :=
  let u := burstUnits b
  let colour := if bit (polFlags o) 0 && pre != 3 then pre else 0
  if polCir o == 0 then (2, v)
  else if colour == 0 && v.tc ≥ u then (0, { v with tc := v.tc - u })
  else if colour != 2 && v.te ≥ u then (1, { v with te := v.te - u })
  else (2, v)

/-- Polices frame `u` (R339 to R345): its colour, and whether its forwarding transfers are dropped. -/
def policeFrame (u : Nat) (s : State) : Nat × Bool × State :=
  let v := frameOf s u
  let f1 := metaF v 1
  let pre := bits f1 18 2
  let n := policerNo (quadOfPipe v.pipe) (bits f1 0 17)
  let p := policerAt s n
  let o := policerObj s n
  if !bit f1 17 || polMode o == 0 || p.reloading || policerFenced s n then (pre, false, s)
  else
    let b := policedLen o (if v.ended then v.data.length else v.maxFrame)
    let (colour, p1) := markFrame p o b pre
    let s1 := count (cPolBytes colour) n b (count (cPolFrames colour) n 1 (modPolicer n (fun _ => p1) s))
    let s2 := if v.ended then s1 else modFrame u (fun v => { v with policed := some (n, colour) }) s1
    let drop := (colour == 1 && bit (polFlags o) 2) || (colour == 2 && bit (polFlags o) 3)
    (colour, drop, if drop then count cPolDropped n 1 s2 else s2)

/-- Returns what a frame was charged beyond its length, at its end (R342). -/
def returnPoliced (u : Nat) (s : State) : State :=
  let v := frameOf s u
  match v.policed with
  | none => s
  | some (n, colour) =>
    let o := policerObj s n
    let back := burstUnits (v.maxFrame - v.data.length)
    let s1 := modPolicer n (fun p => match colour with
      | 0 => { p with tc := min (p.tc + back) (burstUnits (polCbs o)) }
      | 1 => { p with te := min (p.te + back) (burstUnits (polEbs o)) }
      | _ => p) s
    modFrame u (fun v => { v with policed := none }) s1

/-! ### Shapers (R354, R355) -/

def shaperDefault (i : Nat) : Bytes := image 16 [(2, 2, i), (8, 4, 16384)]

/-- SHAPER_PROFILE `i` of quadrant `q` in force, quadrant_mask zero. -/
def shaperProfile (s : State) (q i : Nat) : Bytes := (tabFind s.sch.shapers (4096 * q + i)).getD (shaperDefault i)

def shRate (o : Bytes) : Nat := u32 o 4
def shBurst (o : Bytes) : Nat := u32 o 8

/-- The profile number + 1 that PORT_SCHED gives shaper `i` of a port: 0 the port, 1 to 8 classes, 9 to 28 queues. -/
def shaperName (o : Bytes) (i : Nat) : Nat := if i == 0 then u16 o 56 else if i ≤ 8 then u16 o (56 + 2 * i) else u16 o (74 + 2 * (i - 9))

/-- The profile of shaper `i` of port `p`, if it has one. -/
def shaperOf (s : State) (p i : Nat) : Option Bytes :=
  match shaperName (portSchedObj s p) i with
  | 0 => none
  | n + 1 => some (shaperProfile s (quadOfPort p) n)

/-- Whether shaper `i` of port `p`, if any, permits its node (R349). -/
def shaperPermits (s : State) (p i : Nat) : Bool :=
  match shaperOf s p i with
  | none => true
  | some o => shRate o != 0 && (tabFind (portSched s p).buckets i).getD 0 ≥ 0

/-- The buckets of a port that changes from PORT_SCHED object `old` to `new`: a bucket starts full when its node first names
its profile. -/
def renameBuckets (s : State) (p : Nat) (old new : Bytes) (b : Store Int) : Store Int :=
  (List.range 29).foldl (fun b i =>
    let n := shaperName new i
    if n == 0 then tabDel i b
    else if n == shaperName old i then b
    else tabPut i (burstUnits (shBurst (shaperProfile s (quadOfPort p) (n - 1)))) b) b

/-- One refill of a port's buckets. -/
def refillBuckets (s : State) (p : Nat) (b : Store Int) : Store Int :=
  b.map fun e => match shaperOf s p e.1 with
    | none => e
    | some o => (e.1, min (e.2 + rateInc (shRate o)) (burstUnits (shBurst o)))

/-! ### Charges (R351) -/

/-- What a shaper is charged for a copy of `len` bytes, in 1/65,536 byte. -/
def shaperCharge (o : Bytes) (len : Nat) : Int := burstUnits ((len : Int) + overheadOf o 1).toNat

/-- What a weighted node is charged for a copy of `len` bytes. -/
def nodeCharge (o : Bytes) (len : Nat) : Nat := max 1 ((len : Int) + overheadOf o 3).toNat

/-- The shapers on the path of a copy of queue `k` and class `c`. -/
def shaperPath (k c : Nat) : List Nat := [9 + k, 1 + c, 0]

/-- Changes the buckets on a path by what a change of length from `old` to `new` costs. -/
def chargeBuckets (p k c old new : Nat) (s : State) : State :=
  (shaperPath k c).foldl (fun s i =>
    match shaperOf s p i with
    | none => s
    | some o => modPortSched p (fun v => { v with buckets := tabUpd i (· - (shaperCharge o new - shaperCharge o old)) v.buckets }) s) s

/-- The base-2^48 number of a tag. -/
def tag48 (v : Int) : Nat := (v % (2 ^ 48 : Int)).toNat

/-- Changes child `k` of a node by `diff` bytes: its credit, and its start tag (R353). -/
def correctChild (node k weight : Nat) (diff : Int) (v : PortSched) : PortSched :=
  { v with nodes := tabUpd node (fun n => { n with kids := tabUpd k (fun x =>
      { x with credit := x.credit - diff, tag := tag48 (x.tag + diff * 65536 / (max 1 weight : Nat)) }) n.kids }) v.nodes }

/-- The EXT_QUEUE object of queue number `n`, if it is divided. -/
def extQueue (s : State) (n : Nat) : Option Bytes := tabFind s.sch.ext n

def leafCount (o : Bytes) : Nat := u16 o 4
def firstLeaf (o : Bytes) : Nat := u32 o 8
def leafWeight (o : Bytes) (k : Nat) : Nat := u8 o (16 + k)

/-- Corrects every charge of copy `x` from the length it was charged with to `len` (R351). -/
def correctCharges (x : Copy) (len : Nat) (s : State) : State :=
  match x.charged with
  | none => s
  | some old =>
    if old == len then s
    else
      let o := portSchedObj s x.port
      let c := queueClass s x.port x.queue
      let diff : Int := (nodeCharge o len : Int) - nodeCharge o old
      let s1 := chargeBuckets x.port x.queue c old len s
      let fix := fun (v : PortSched) =>
        let v1 := correctChild (classNode c) x.queue (u8 o (28 + x.queue)) diff v
        let v2 := if bit (u8 o 2) c then correctChild 0 c (u8 o (48 + c)) diff v1 else v1
        match x.leaf, extQueue s (queueNo x.port x.queue) with
        | some l, some e => correctChild (leafNode x.queue) l (leafWeight e l) diff v2
        | _, _ => v2
      count cSchCorrections x.port 1 (modPortSched x.port fix s1)

end Sys2Proof.Machine
end

