-- ==== Sys2Proof/Machine/Mesh.lean ====
section
/-!
DEFINITION. Transfers: mesh links and paths, the send and relay queues, and mirror copies (R308 to R313, R324 to R326).
-/

namespace Sys2Proof.Machine

/-! ### Links (R10, R378) -/

/-- The number of the link between two quadrants: ML01, ML02, ML03, ML12, ML13, ML23. -/
def linkNo (a b : Nat) : Nat :=
  match min a b, max a b with
  | 0, 1 => 0 | 0, 2 => 1 | 0, 3 => 2 | 1, 2 => 3 | 1, 3 => 4 | _, _ => 5

/-- The two quadrants of a link, lower first. -/
def linkEnds (l : Nat) : Nat × Nat :=
  match l with
  | 0 => (0, 1) | 1 => (0, 2) | 2 => (0, 3) | 3 => (1, 2) | 4 => (1, 3) | _ => (2, 3)

/-- The number of the link direction from `a` to `b`: direction 0 is from the lower-numbered quadrant. -/
def dirNo (a b : Nat) : Nat := 2 * linkNo a b + b2n (decide (b < a))

/-- The source and destination of a link direction. -/
def dirEnds (d : Nat) : Nat × Nat := let e := linkEnds (d / 2); if d % 2 == 0 then e else (e.2, e.1)

/-- Whether transfers may take the direction from `a` to `b`. -/
def dirUp (s : State) (a b : Nat) : Bool :=
  !s.sw.linkDown.contains (linkNo a b) && !linkFenced s (linkNo a b) && (tabFind s.sw.dirDown (dirNo a b)).isNone

/-! ### Queues and paths (R310 to R313) -/

/-- The quadrant at the end of the first link of a transfer's path. -/
def firstHop (t : Transfer) : Nat := t.via.getD t.dst

/-- The bytes reserved in the send queue from `a` to `b` by transfers of a virtual channel (true: VC2), or of both. -/
def sendUsed (s : State) (a b : Nat) (vc : Option Bool) : Nat :=
  ((s.sw.transfers.filter fun t => t.place == .send && t.src == a && firstHop t == b &&
    (match vc with | none => true | some r => t.via.isSome == r)).map fun t => t.resv).foldl (· + ·) 0

/-- The bytes in the relay queue of quadrant `c` towards `b`. -/
def relayUsed (s : State) (c b : Nat) : Nat :=
  ((s.sw.transfers.filter fun t => (t.place == .relay || t.place == .arrived) && t.via == some c && t.dst == b).map
    fun t => t.resv).foldl (· + ·) 0

abbrev sendRoom : Nat := 4194304
abbrev relayRoom : Nat := 2097152

def meshDefault : Bytes := image 8 [(1, 1, 1), (2, 1, 50), (3, 1, 25)]

/-- The MESH_CONFIG object of quadrant `q`, quadrant_mask zero. -/
def meshConfig (s : State) (q : Nat) : Bytes := (tabFind s.sw.meshConfig q).getD meshDefault

/-- The value best_relay compares for the relay via `c`: occ(ac, VC2) or occ(relay queue cb), in units of 1/4 MiB percent. -/
def relayLoad (s : State) (a c b : Nat) : Nat := max (sendUsed s a c (some true) * 100) (relayUsed s c b * 200)

/-- best_relay (R312). -/
def bestRelay (s : State) (a b : Nat) : Option Nat :=
  let ok := (List.range 4).filter fun c =>
    c != a && c != b && dirUp s a c && dirUp s c b && relayLoad s a c b < u8 (meshConfig s a) 2 * sendRoom
  ok.find? fun c => ok.all fun d => relayLoad s a c b ≤ relayLoad s a d b

/-- in_flight(i, b) (R312). -/
def inFlight (s : State) (i b : Nat) : Nat :=
  (s.sw.transfers.filter fun t => t.counted && t.place != .admission && t.dst == b && (frameOf s t.frame).port == i).length

/-- The path of ingress port `i` towards quadrant `b`: none direct, or via a quadrant. -/
def portPath (s : State) (i b : Nat) : Option Nat := match tabGet 0 s.sw.paths (4 * i + b) with | 0 => none | c + 1 => some c

/-- The path that the next transfer of port `i` from `a` to `b` takes (R312): `none` when there is none. -/
def nextPath (s : State) (i a b : Nat) : Option (Option Nat) :=
  let cur := portPath s i b
  let cfg := meshConfig s a
  let occ := sendUsed s a b (some false) * 100
  if inFlight s i b > 0 then some cur
  else if !dirUp s a b then (bestRelay s a b).map some
  else
    let back := match cur with
      | some c => !(dirUp s a c && dirUp s c b) || occ ≤ u8 cfg 3 * sendRoom
      | none => false
    if cur.isNone && bit (u8 cfg 1) 0 && occ ≥ u8 cfg 2 * sendRoom then some (bestRelay s a b)
    else if back then some none
    else some cur

/-- Sets the path of port `i` from `a` to `b`; a change is counted, and a relay logged. -/
def setPath (i a b : Nat) (v : Option Nat) (s : State) : State :=
  if portPath s i b == v then s
  else
    let s1 := count cSwcPathSwitches (4 * a + b) 1
      (modSw (fun t => { t with paths := tabSet 0 (4 * i + b) (match v with | none => 0 | some c => c + 1) t.paths }) s)
    match v with
    | some c => kilnOnce 0x0904 a [(1, a), (1, b), (1, c)] s1
    | none => s1

/-! ### Transfers (R308, R310) -/

/-- The egress port, queue and session a drop record gives for a transfer. -/
def transferInfo (t : Transfer) : CopyInfo :=
  let base : CopyInfo := { cls := t.cls, colour := t.colour }
  match t.dest with
  | .unicast p k => { base with egress := p, queue := k }
  | .mcast _ _ => base
  | .mirror _ p k => { base with egress := p, queue := k, mirror := true }
  | .exported _ p k => { base with egress := p, queue := k }

/-- The exporter of an export frame's transfer. -/
def transferExporter (t : Transfer) : Option Nat := match t.dest with | .exported e _ _ => some e | _ => none

/-- The truncation of a transfer's copy. -/
def transferTrunc (s : State) (t : Transfer) : Nat :=
  match t.dest with
  | .mirror i _ _ => u16 (tabGet {} s.sw.sessions i).obj 12
  | _ => 0

/-- A transfer dropped in quadrant `q`. -/
def dropTransfer (q reason : Nat) (t : Transfer) (s : State) : State :=
  settleFrame t.frame (dropCopyIn q reason (transferExporter t) (frameOf s t.frame) (transferInfo t)
    (modSw (fun x => { x with transfers := x.transfers.filter fun y => y.id != t.id }) s))

/-- Adds a transfer in its quadrant. -/
def addTransfer (t : Transfer) (s : State) : State :=
  modSw (fun x => { x with transfers := x.transfers ++ [{ t with id := x.nextTransfer }], nextTransfer := x.nextTransfer + 1 }) s

/-- A transfer dropped before it is formed: no path, or no room in the send queue (R310). -/
def meshOverrun (t : Transfer) (hop : Nat) (s : State) : State :=
  kilnOnce 0x0905 t.src [(1, t.src), (1, linkNo t.src hop)]
    (dropCopyIn t.src 0x28 (transferExporter t) (frameOf s t.frame) (transferInfo t) s)

/-- Sends a transfer of port `i` towards its quadrant: straight to its admission unit, or over a path with room. `fixed` takes
the direct path when it is up (R312). -/
def sendTransfer (t : Transfer) (fixed : Bool) (s : State) : State :=
  if t.src == t.dst then addTransfer t s
  else
    let v := frameOf s t.frame
    let path := if fixed then (if dirUp s t.src t.dst then some none else (bestRelay s t.src t.dst).map some)
      else nextPath s v.port t.src t.dst
    match path with
    | none => meshOverrun t t.dst s
    | some via =>
      let s1 := if fixed then s else setPath v.port t.src t.dst via s
      let resv := if v.ended then copyLen v (transferTrunc s t) else v.maxFrame
      let t1 : Transfer := { t with via, place := .send, resv, counted := !fixed }
      if sendUsed s t.src (firstHop t1) none + resv > sendRoom then meshOverrun t (firstHop t1) s1
      else
        let s2 := addTransfer t1 s1
        if via.isSome then count cSwcRelay (4 * t.src + t.dst) 1 s2 else s2

/-- Whether the ingress-limit check of R288 passes for `n` cells of frame `v`. -/
def ingressFits (s : State) (v : Frame) (cls n : Nat) : Bool :=
  let lim := u32 (portAdmit s v.port) (32 + 4 * cls)
  v.source == 2 || lim == 0 ||
    ((List.range 4).map fun q => trueOccupancy s q v.port cls).foldl (· + ·) 0 + n ≤ lim

/-- A transfer that passes the ingress-limit check is sent; one that fails drops its `copies` copies with INGRESS_LIMIT. -/
def formTransfer (t : Transfer) (fixed : Bool) (copies : Nat) (s : State) : State :=
  let v := frameOf s t.frame
  if ingressFits s v t.cls (reservation v (transferTrunc s t)) then sendTransfer t fixed s
  else (List.range copies).foldl (fun s _ =>
    count (cIngressLimit t.cls) v.port 1 (dropIn t.src 0x21 v (transferInfo t) s)) s

/-! ### Mirror copies (R323 to R326) -/

def sessionDefault (i : Nat) : Bytes := image 96 [(0, 1, i / 16), (1, 1, i % 16), (3, 1, 1), (8, 4, 1)]

/-- Mirror session `i`: 16 × quadrant + session. -/
def sessionAt (s : State) (i : Nat) : MirrorSession := tabGet {} s.sw.sessions i

/-- The MIRROR_SESSION object of session `i`. -/
def sessionObj (s : State) (i : Nat) : Bytes := let o := (sessionAt s i).obj; if o.isEmpty then sessionDefault i else o

/-- Whether session `i` is enabled and in service. -/
def sessionOn (s : State) (i : Nat) : Bool := bit (u8 (sessionObj s i) 2) 0 && !mirrorFenced s i

/-- The bytes that pipeline `g`'s recirculation buffer holds (R316). -/
def recircUsed (s : State) (g : Nat) : Nat :=
  ((s.fr.frames.filter fun e => e.2.pipe == g && e.2.source == 1 && (e.2.place == .fifo || e.2.place == .parked)).map
    fun e => e.2.data.length).foldl (· + ·) 0

/-- The bytes of a mirror copy of frame `v`: truncated, a shorter frame with a new FCS (R325). -/
def mirrorBytes (v : Frame) (trunc : Nat) : Bytes :=
  if trunc != 0 && v.data.length > trunc then let b := v.data.take (trunc - 4); b ++ fcsOf b else v.data

/-- Makes the mirror copy of frame `u` that object `o` of session `i` asks for: to a ring, to a parser, or as a transfer. -/
def makeMirror (i u : Nat) (o : Bytes) (s : State) : State :=
  let v := frameOf s u
  let q := i / 16
  let fl := u8 o 2
  let trunc := u16 o 12
  if bit fl 1 then deliver { ring := u8 o 7, frame := u, reason := 4, info := i, trunc } s
  else if bit fl 2 then
    let g := u8 o 14
    let b := mirrorBytes v trunc
    if recircUsed s g + b.length > 131072 then dropIn q 0x1E v { mirror := true } s
    else
      (newFrame { port := v.port, pipe := g, source := 1, data := b, ended := true, ts := v.ts, tsPtp := v.tsPtp, tsHold := v.tsHold, stamp := v.stamp
                  hdr := tabPut 287 (0x80000000 + i) [], mirrorOf := some i } s).2
  else
    formTransfer { id := 0, frame := u, src := q, dst := quadOfPort (u16 o 4), dest := .mirror i (u16 o 4) (u8 o 6)
                   cls := bits (metaF v 1) 20 3, colour := u8 o 3 } true 1 s

/-- Session `i` selects frame `u`, or a copy of it: the first and every sample_n-th is copied. A copy that needs the whole
frame waits for its end. -/
def mirrorFrame (i u : Nat) (s : State) : State :=
  let m := sessionAt s i
  let o := sessionObj s i
  let v := frameOf s u
  let s1 := count cMirrorSelected i 1 (modSw (fun t =>
    { t with sessions := tabSet {} i { m with selected := m.selected + 1 } t.sessions }) s)
  if m.selected % max 1 (u32 o 8) != 0 then s1
  else if m.reloading then dropIn (i / 16) 0x2A v { mirror := true, detail := 43 } s1
  else
    let s2 := count cMirrorCopies i 1 s1
    let waits := !v.ended && (u16 o 12 != 0 || bit (u8 o 2) 2)
    if waits then modSw (fun t => { t with lateMirrors := t.lateMirrors ++ [(i, u, o)] }) s2
    else makeMirror i u o (if u16 o 12 != 0 && v.data.length > u16 o 12 then count cMirrorTruncated i 1 s2 else s2)

/-- The mirror copies of frame `u` that waited for its end (R325). -/
def endMirrors (u : Nat) (s : State) : State :=
  let mine := s.sw.lateMirrors.filter fun x => x.2.1 == u
  mine.foldl (fun s x =>
    let v := frameOf s u
    if v.bad != 0 then dropIn (x.1 / 16) v.bad v { mirror := true } s
    else makeMirror x.1 u x.2.2 (if u16 x.2.2 12 != 0 && v.data.length > u16 x.2.2 12 then count cMirrorTruncated x.1 1 s else s))
    (modSw (fun t => { t with lateMirrors := t.lateMirrors.filter fun x => x.2.1 != u }) s)

/-- The sessions that select frame `v` at ingress (R324): by port or by F2, each once. -/
def ingressSessions (s : State) (v : Frame) : List Nat :=
  let q := quadOfPipe v.pipe
  ((List.range 16).map (16 * q + ·)).filter fun i =>
    sessionOn s i && (bit (metaF v 2) (i % 16) ||
      (v.source != 2 && quadOfPort v.port == q && bit (leNat (slice (sessionObj s i) 16 32)) (v.port % 256)))

/-- The sessions that select a copy at egress port `p` (R324). -/
def egressSessions (s : State) (p : Nat) : List Nat :=
  ((List.range 16).map (16 * quadOfPort p + ·)).filter fun i =>
    sessionOn s i && bit (leNat (slice (sessionObj s i) 48 32)) (p % 256)

end Sys2Proof.Machine
end

