-- ==== Sys2Proof/Machine/Flush.lean ====
section
/-!
DEFINITION. Copies cut short, flushes, the end of a frame, and the hold FIFO of a pipeline.
-/

namespace Sys2Proof.Machine

/-! ### Transmission cut short (R318, R319) -/

/-- The complement of the correct FCS over `b`. -/
def badFcs (b : Bytes) : Bytes := (fcsOf b).map fun x => ~~~x

/-- The frame in transmission on port `p` that carries copy `c`, the preempted one included. -/
def txOf (s : State) (p c : Nat) : Option Tx :=
  match (portSched s p).tx, (portSched s p).preempted with
  | some t, some r => if t.copy == c then some t else if r.copy == c then some r else none
  | some t, none => if t.copy == c then some t else none
  | none, some r => if r.copy == c then some r else none
  | none, none => none

/-- Copy `c` leaves port `p`'s transmitter. -/
def clearTx (p c : Nat) (s : State) : State :=
  modPortSched p (fun v =>
    if (v.tx.map Tx.copy) == some c then { v with tx := none }
    else if (v.preempted.map Tx.copy) == some c then { v with preempted := none } else v) s

/-- A copy's bytes with the egress edits made. -/
def applyEdits (t : Tx) (b : Bytes) : Bytes :=
  let b1 := match t.insert with
    | some (at_, x) => b.take at_ ++ x ++ b.drop at_
    | none => b
  t.writes.foldl (fun b w => if w.1 < b.length then putBytes b w.1 w.2 else b) b1

/-- The bytes of a copy up to its FCS as they leave (R110, R325). -/
def txBody (v : Frame) (x : Copy) (t : Tx) : Bytes :=
  let b := mirrorBytes v x.trunc
  applyEdits t (if v.ended then b.take (b.length - 4) else b)

/-- The histogram bucket of a latency of `d` ns (R381). -/
def histBucket (d : Int) : Nat := if d < 16 then 0 else min 31 ((d / 16).toNat.log2 + 1)

/-- Counts a copy in its queue's histogram (R381, R382). -/
def histCount (no : Nat) (d : Int) (s : State) : State :=
  let at_ := fun (i : Nat) => 64 * no + i
  let up := fun (i n : Nat) (t : Store Nat) => tabMod 0 (at_ i) (fun v => wrapAdd 64 v n) t
  modTel (fun t =>
    let h := up 32 1 (up (histBucket d) 1 t.hist)
    { t with hist := if d < 0 then up 35 1 h
                     else tabMod 0 (at_ 34) (fun v => max v d.toNat) (up 33 d.toNat h) }) s

/-- A frame's latency to an egress time, in whole ns. -/
def frameLatency (v : Frame) (e : Stamp) : Int := ((stampTotal e : Int) - stampTotal v.stamp).tdiv 65536

/-- Counts `n` bytes of copy `x` as sent (R121, R369). -/
def countSent (x : Copy) (n : Nat) (s : State) : State :=
  let no := queueNo x.port x.queue
  let s0 := spendQueue no 2 7 n (spendQueue no 0 6 ((n + 255) / 256) s)
  let s1 := count cSchBytes no n (count cTxBytes x.port n (count cTxFrames x.port 1 s0))
  match x.leaf, extQueue s (queueNo x.port x.queue) with
  | some l, some e => count cLeafBytes (16384 * x.quad + firstLeaf e + l) n s1
  | _, _ => s1

/-- Stomps copy `c`, which has started, after `n` of its bytes (R318, R319): an inverted FCS ends it. -/
def stompCopy (c n reason detail : Nat) (s : State) : State :=
  let x := copyAt s c
  let v := frameOf s x.frame
  match txOf s x.port c with
  | none => s
  | some t =>
    let b := (txBody v x t).take n
    let s1 := emit (.transmit x.port (b ++ badFcs b) true) s
    let s2 := countSent x (b.length + 4) (count cSwcStomped x.port 1 (count cTxStomped x.port 1 s1))
    let s3 := kilnOnce 0x090B x.quad [(2, x.port), (1, reason)] (histCount (queueNo x.port x.queue) (frameLatency v t.egress) s2)
    let s4 := dropCopyIn x.quad reason x.exporter v { copyInfo s3 x with stomped := true, throttled := t.throttled, detail } s3
    clearTx x.port c (releaseCopy c (correctCharges x (b.length + 4) s4))

/-- A frame in transmission is cut off by link down: counted, and lost with PORT_DOWN (R120, R327). -/
def abortTransmit (p : Nat) (s : State) : State :=
  let cut := fun (s : State) (t : Option Tx) => match t with
    | none => s
    | some t => clearTx p t.copy (dropCopy t.copy 0x2B 0 (count cTxAborted p 1 s))
  cut (cut s (portSched s p).tx) (portSched s p).preempted

/-! ### Flushes (R327) -/

/-- Flushes queue `n` in its own order. -/
def flushQueue (reason detail : Nat) (s : State) (n : Nat) : State :=
  (bufQueue s n).fifo.foldl (fun s c => dropCopy c reason detail s) s

/-- Flushes every queue of port `p` with PORT_DOWN, ascending. -/
def flushPort (p : Nat) (s : State) : State :=
  let ns := (List.range 20).map (queueNo p)
  let n := (ns.map fun k => (bufQueue s k).fifo.length).foldl (· + ·) 0
  kiln 0x0908 [(2, p), (4, n)]
    (count cSwcFlushCopies p n (count cSwcFlushes p 1 (ns.foldl (flushQueue 0x2B 0) s)))

/-! ### The end of a frame (R104, R287, R319, R342) -/

/-- The bytes of a frame that were still crossing the mesh are counted at its end. -/
def endCrossings (u : Nat) (s : State) : State :=
  let n := (frameOf s u).data.length
  (s.sw.crossing.filter fun x => x.frame == u).foldl (fun s x =>
    count (if x.relayed then cMeshRelay else cMeshDirect) x.dir n s)
    (modSw (fun t => { t with crossing := t.crossing.filter fun x => x.frame != u }) s)

/-- The transfers of frame `u` give back what they reserved beyond its length; those of a bad frame are dropped. -/
def endTransfers (u : Nat) (s : State) : State :=
  let v := frameOf s u
  if v.bad == 0 then
    modSw (fun x => { x with transfers := x.transfers.map fun t =>
      if t.frame == u && t.place != .admission then { t with resv := min t.resv (copyLen v (transferTrunc s t)) } else t }) s
  else (s.sw.transfers.filter fun t => t.frame == u).foldl (fun s t => dropTransfer t.src v.bad t s) s

/-- A copy of a frame that has turned bad: stomped when it has started, after as many bytes as it happens to have sent. -/
def badCopy (reason : Nat) (s : State) (c : Nat) : State :=
  let x := copyAt s c
  if x.gone then s
  else if x.started then
    let (n, s1) := takeFree s
    let held := match txOf s x.port c with | some t => (txBody (frameOf s x.frame) x t).length | none => 0
    stompCopy c (n % (held + 1)) reason 0 s1
  else dropCopy c reason 0 s

/-- A copy whose frame has ended well: a charge made before the end is corrected. -/
def goodCopy (s : State) (c : Nat) : State :=
  let x := copyAt s c
  if x.started then correctCharges x (copyLen (frameOf s x.frame) x.trunc) (modCopy c (fun y => { y with charged := none }) s) else s

/-- Frame `u` has ended, good or bad: cells, charges, transfers and copies follow. -/
def frameFinished (u : Nat) (s : State) : State :=
  let v := frameOf s u
  let s1 := endMirrors u (endTransfers u (returnPoliced u (endCrossings u s)))
  let mine := copiesWith s1 fun x => x.frame == u
  let s2 := mine.foldl (fun s c => trimCopy c s) s1
  settleFrame u (mine.foldl (fun s c => if v.bad == 0 then goodCopy s c else badCopy v.bad s c) s2)

/-- Pipeline `g`'s batches and hold FIFO. -/
def matPipe (s : State) (g : Nat) : MatPipe := tabGet {} s.mat.pipes g

/-- `s` with a pipeline's batches set. -/
def setMatPipe (g : Nat) (v : MatPipe) (s : State) : State :=
  modMat (fun t => { t with pipes := tabSet {} g v t.pipes }) s

/-- Whether pipeline `g` stands still: a quiesce or a stage reload runs (R177, R187). -/
def pipeStill (s : State) (g : Nat) : Bool :=
  (matPipe s g).quiesce != .none || s.mat.stages.any fun e => e.1 / 32 == g && e.2.reloading

/-- Whether pipeline `g` takes no new frame: it stands still, or is held for an image while the frames inside it drain (R185). -/
def pipeClosed (s : State) (g : Nat) : Bool := pipeStill s g || (matPipe s g).imageHeld

/-- Whether an arriving frame goes to the hold FIFO (R179): `short` says that the ingress FIFO lacks room for it. -/
def holdTakes (s : State) (g : Nat) (short : Bool) : Bool :=
  let held := !(framesAt s g .hold).isEmpty
  held || (pipeClosed s g && short)

/-- The bytes in a pipeline's hold FIFO. -/
def holdUsed (s : State) (g : Nat) : Nat := ((framesAt s g .hold).map fun u => (frameOf s u).data.length).foldl (· + ·) 0

/-- Whether port `p` may be created: its queues' guarantees leave every shared pool its floor (R283). -/
def portFits (s : State) (p : Nat) : Bool :=
  poolsFit (setMacPort p { macPort s p with config := some (List.replicate 16 0) } s)

/-- The objects of a removed port return to their defaults (R102, R328, R357, R363). -/
def portRemoved (p : Nat) (s : State) : State :=
  modSw (fun t => { t with queueAge := tabDel p t.queueAge })
    (modSch (fun t => { t with ports := tabDel p t.ports, ext := tabKeep (fun n => n / 20 != p) t.ext }) s)

end Sys2Proof.Machine
end

