-- ==== Sys2Proof/Machine/Rx.lean ====
section
/-!
DEFINITION. Frames at a port's receiver: the checks of R103, filters (R106 to R108), bad frames (R104), MAC control
frames (R112) and received pause (R115, R116).
-/

namespace Sys2Proof.Machine

/-- A drop at the MAC of the frame's port. -/
def macDrop (reason : Nat) (v : Frame) (s : State) : State := dropIn (v.port / 256) reason v {} s

/-- The counter of a receive drop (R121). -/
def rxDropCounter (reason : Nat) : Option Counter :=
  match reason with
  | 1 => some cRxRunt
  | 2 => some cRxOversize
  | 3 => some cRxFcs
  | 4 => some cRxPcs
  | 9 => some cRxOverrun
  | _ => none

/-- Counts a receive drop of port `p`. -/
def countRxDrop (reason p : Nat) (s : State) : State :=
  match rxDropCounter reason with
  | some c => count c p 1 s
  | none => s

/-- The size bin of a good frame (R121). -/
def sizeBin (n : Nat) : Nat :=
  if n ≤ 64 then 0 else if n ≤ 127 then 1 else if n ≤ 255 then 2 else if n ≤ 511 then 3 else if n ≤ 1023 then 4
  else if n ≤ 1518 then 5 else 6

/-- Counts a good frame received (R121). -/
def countGood (v : Frame) (s : State) : State :=
  let dst := v.data.take 6
  let kind := if dst == List.replicate 6 0xFF then cRxBroadcast else if bit (u8 v.data 0) 0 then cRxMulticast else cRxUnicast
  count (cRxSize (sizeBin v.data.length)) v.port 1 (count kind v.port 1
    (count cRxBytes v.port v.data.length (count cRxFrames v.port 1 s)))

/-- Whether the frame's last four bytes are its FCS. -/
def fcsGood (b : Bytes) : Bool := 4 ≤ b.length && b.drop (b.length - 4) == fcsOf (b.take (b.length - 4))

/-- The MAC state of pipeline `g`. -/
def macPipe (s : State) (g : Nat) : MacPipe := tabGet {} s.mac.pipes g

/-- `s` with the MAC state of pipeline `g` set. -/
def setMacPipe (g : Nat) (v : MacPipe) (s : State) : State :=
  modMac (fun m => { m with pipes := tabSet {} g v m.pipes }) s

/-- The bytes of pipeline `g`'s ingress FIFO reserved (R19, R103). -/
def fifoUsed (s : State) (g : Nat) : Nat :=
  ((s.fr.frames.filter fun e => e.2.pipe == g && (e.2.source == 0 || e.2.source == 2)).map fun e => e.2.resv).foldl (· + ·) 0

/-! ### Filters -/

/-- One byte of the filters' CRC-16: polynomial 0x1021, most significant bit first (R107). -/
def crc16Byte (crc : Nat) (b : Byte) : Nat :=
  (List.range 8).foldl (fun c i =>
    let x := (bit c 15) != bit b.toNat (7 - i)
    let c2 := c * 2 % 65536
    if x then c2 ^^^ 0x1021 else c2) crc

/-- The CRC-16 of the bytes of `b` that `mask` selects, in ascending position (R107). -/
def filterCrc (mask : Nat) (b : Bytes) : Nat :=
  (maskBits 64 mask).foldl (fun c i => crc16Byte c (b.getD i 0)) 0xFFFF

/-- The stored half of a FRAME_FILTER object of pipeline `g`, pipeline_mask zero (R106). -/
def filterOf (s : State) (g i : Nat) : Bytes := (tabFind (macPipe s g).filters i).getD (image 32 [(0, 1, i)])

/-- Whether a filter matches a frame of port `p`. -/
def filterMatches (f : Bytes) (p : Nat) (b : Bytes) : Bool :=
  bit (u8 f 2) 0 && bit (u16 f 4) (p % 16) && filterCrc (u64 f 24) b == u16 f 22

/-- The matching filter with the lowest index (R25). -/
def matchingFilter (s : State) (p : Nat) (b : Bytes) : Option Nat :=
  firstIdx 16 fun i => filterMatches (filterOf s (pipeOfPort p) i) p b

/-! ### Frames that leave, and the hold FIFO -/

/-- A frame that has no further place in its pipeline; what its port still receives of it is counted at its end. -/
def spend (u : Nat) (s : State) : State :=
  let s1 := modFrame u (fun v => { v with place := .spent, resv := 0 }) s
  if (frameOf s1 u).ended then forget u s1 else s1

/-- Frame `u` is dropped in its pipeline's quadrant. -/
def dropFrame (u reason : Nat) (info : CopyInfo) (s : State) : State :=
  let v := frameOf s u
  spend u (dropIn (quadOfPipe v.pipe) reason v info s)

/-- A frame in the hold FIFO that holds more bytes: the peak follows, and a frame that no longer fits is dropped whole (R179). -/
def holdGrown (u : Nat) (s : State) : State :=
  let v := frameOf s u
  let g := v.pipe
  if v.place != .hold then s
  else if holdUsed s g > 262144 then
    dropFrame u 0x0A {} (kilnOnce 0x0602 g [(1, g)] (count cMatHoldOverrun g 1 s))
  else
    let p := matPipe s g
    setMatPipe g { p with holdPeak := max p.holdPeak (holdUsed s g) } s

/-- Bytes that arrive for frame `u`: they leave the FIFO as they come once the parser has taken the frame. -/
def moreBytes (u : Nat) (b : Bytes) (s : State) : State :=
  holdGrown u (modFrame u (fun v =>
    { v with data := v.data ++ b, resv := if v.place == .fifo then v.resv else v.resv - b.length }) s)

/-! ### The checks at the 64th byte (R103) -/

/-- Reserves the FIFO for frame `u` and dispatches it: checks 5 and 6. `trap` and `copy` name the filter that delivers it. -/
def reserveAndDispatch (u : Nat) (trap copy : Option Nat) (s : State) : State :=
  let v := frameOf s u
  let g := v.pipe
  let short := 65536 - fifoUsed s g < v.maxFrame
  let send := fun (i : Nat) (whole : Bool) (s : State) =>
    deliver { ring := u8 (filterOf s g i) 3, frame := u, reason := 1, info := i, whole, limit := 1 } s
  match trap with
  | some i =>
    if short then macDrop 9 v (countRxDrop 9 v.port (setFrame u { v with place := .spent, bad := 9 } s))
    else send i true (setFrame u { v with place := .spent, resv := v.maxFrame - v.data.length } s)
  | none =>
    let pass := fun (s : State) => match copy with
      | some i => send i false s
      | none => s
    if holdTakes s g short then holdGrown u (pass (count cMatHoldFrames g 1 (setFrame u { v with place := .hold } s)))
    else if short then macDrop 9 v (countRxDrop 9 v.port (setFrame u { v with place := .spent, bad := 9 } s))
    else pass (setFrame u { v with place := .fifo, resv := v.maxFrame } s)

/-- The filter check and what follows it (R103 check 4, R108). -/
def filterAndDispatch (u : Nat) (s : State) : State :=
  let v := frameOf s u
  match matchingFilter s v.port v.data with
  | none => reserveAndDispatch u none none s
  | some i =>
    let s1 := count (cFilterHits i) v.pipe 1 s
    match u8 (filterOf s v.pipe i) 1 with
    | 1 => macDrop 8 v (setFrame u { v with place := .spent, bad := 8 } s1)
    | 2 => reserveAndDispatch u (some i) none s1
    | 3 => reserveAndDispatch u none (some i) s1
    | _ => reserveAndDispatch u none none s1

/-- The frame that leaves the MAC at once, dropped at its head. -/
def headDrop (reason u : Nat) (s : State) : State :=
  let v := frameOf s u
  macDrop reason v (countRxDrop reason v.port (setFrame u { v with place := .spent, bad := reason, ended := true } s))

/-- The receive checks of a frame at its 64th byte or its end (R103). A pipeline whose filter store reloads drops it (R122). -/
def headChecks (u : Nat) (mark : Bool) (s : State) : State :=
  let v := frameOf s u
  if (macPipe s v.pipe).reloading then headDrop 0x0B u s
  else if mark then headDrop 4 u s
  else if v.data.length < 64 then headDrop 1 u s
  else if fieldBe v.data 12 2 == 0x8808 then setFrame u { v with place := .control } s
  else filterAndDispatch u s

/-! ### A frame's end (R104) -/

/-- The rate limit of a delivery from filter or parser, at the frame's good end (R108, R139, R573). -/
def limitDelivery (d : Delivery) (s : State) : Bool × State :=
  let v := frameOf s d.frame
  let g := v.pipe
  match d.limit with
  | 1 =>
    let (ok, s1) := takeLimit .filter (16 * g + d.info) s
    if ok then (true, s1)
    else (false, kilnOnce 0x0405 (16 * g + d.info) [(1, g), (1, d.info)]
      (macDrop 0x0C v (count (cFilterRateDrops d.info) g 1 s1)))
  | 2 =>
    let (ok, s1) := takeLimit .malformed g s
    if ok then (true, s1) else (false, kilnOnce 0x0522 g [(1, g)] (dropIn (quadOfPipe g) 0x0C v {} s1))
  | _ => (true, s)

/-- The deliveries of frame `u` at its end: a bad frame's are discarded, with a drop when the delivery was the whole frame. -/
def settleDelivery (u : Nat) (d : Delivery) (s : State) : State :=
  if d.frame != u then modFr (fun t => { t with deliveries := t.deliveries ++ [d] }) s
  else
    let v := frameOf s u
    if v.bad != 0 then (if d.whole then dropIn (quadOfPipe v.pipe) v.bad v { mirror := d.reason == 4 } s else s)
    else
      let (ok, s1) := limitDelivery d s
      if ok then modFr (fun t => { t with deliveries := t.deliveries ++ [{ d with limit := 0 }] }) s1 else s1

/-- Settles every delivery of frame `u`. -/
def settleDeliveries (u : Nat) (s : State) : State :=
  s.fr.deliveries.foldl (fun s d => settleDelivery u d s) (modFr (fun t => { t with deliveries := [] }) s)

/-- Ends frame `u` of a port with its last byte: `bad` is 0 for a good frame. -/
def endFrame (u bad : Nat) (s : State) : State :=
  let v := frameOf s u
  let was := v.bad
  let b := if was != 0 then was else bad
  let v' : Frame := { v with ended := true, bad := b, resv := if v.place == .fifo then v.data.length else 0 }
  let s1 := setFrame u v' s
  let s2 := if was == 0 && b == 0 || was == 8 && bad == 0 then countGood v' s1
    else if was == 0 then countRxDrop b v.port s1 else s1
  frameFinished u (settleDeliveries u s2)

/-- The frame a port is receiving, no longer arriving. -/
def clearRx (p u : Nat) (s : State) : State :=
  let m := macPort s p
  setMacPort p { m with rx := if m.rx == some u then none else m.rx
                        assembled := if m.assembled == some u then none else m.assembled } s

/-- Frame `u` turns bad before its end and the rest of it is discarded (R104, R105, R120). -/
def cutFrame (p u reason : Nat) (s : State) : State :=
  let v := frameOf s u
  if v.place == .control then forget u (headDrop reason u (clearRx p u s)) else endFrame u reason (clearRx p u s)

/-- The fragments that port `p` holds short of 64 bytes are dropped. -/
def dropPartial (p reason : Nat) (s : State) : State :=
  match (macPort s p).assembling with
  | some b =>
    macDrop reason { port := p, pipe := pipeOfPort p, data := b, stamp := datapathStamp s (quadOfPort p) }
      (countRxDrop reason p (setMacPort p { macPort s p with assembling := none } s))
  | none => s

/-- Whatever port `p` is receiving ends with PCS_ERROR (R120, R122). -/
def cutReceived (p : Nat) (s : State) : State :=
  let m := macPort s p
  let s1 := match m.rx with | some u => cutFrame p u 4 s | none => s
  let s2 := match m.assembled with | some u => cutFrame p u 4 s1 | none => s1
  dropPartial p 4 s2

/-! ### Received pause (R112, R115, R116) -/

def flowDefault (p : Nat) : Bytes := image 80 [(0, 2, p), (4, 2, 0xFFFF), (6, 2, 200), (8, 2, 1000)]

/-- The PORT_FLOW object of port `p` (R111). -/
def portFlow (s : State) (p : Nat) : Bytes := ((macPort s p).flow).getD (flowDefault p)

def flowMode (s : State) (p : Nat) : Nat := u8 (portFlow s p) 2
def flowMask (s : State) (p : Nat) : Nat := u8 (portFlow s p) 3
def flowQuanta (s : State) (p : Nat) : Nat := u16 (portFlow s p) 4

/-- The classes a port's flow control uses: class 0 stands for all in PAUSE mode. -/
def usedClasses (s : State) (p : Nat) : List Nat :=
  match flowMode s p with
  | 1 => [0]
  | 2 => maskBits 8 (flowMask s p)
  | _ => []

/-- The time of a number of pause quanta at a speed in Mb/s, in units of 1/35 ns. -/
def quantaTime (mbps n : Nat) : Nat := if mbps == 0 then 0 else n * 512 * 35000 / mbps

/-- Ends the pause of class `c` now or at `t`: the µs spent are counted (R121). -/
def endPause (p c t : Nat) (s : State) : State :=
  let m := macPort s p
  match tabFind m.pausedSince c with
  | none => s
  | some since =>
    let spent := tabGet 0 m.pausedRest c + (t - since)
    count (cPfcPausedUs c) p (spent / tUs)
      (setMacPort p { m with timers := tabDel c m.timers, pausedSince := tabDel c m.pausedSince,
                             pausedRest := tabSet 0 c (spent % tUs) m.pausedRest } s)

/-- Whether class `c` of port `p` is in storm recovery. -/
def inRecovery (s : State) (p c : Nat) : Bool := (tabFind (macPort s p).recoverAt c).isSome

/-- Loads the pause timer of class `c` with its time; zero clears it. A class in recovery ignores it. -/
def loadPause (p : Nat) (time : Nat) (c : Nat) (s : State) : State :=
  if inRecovery s p c then s
  else if time == 0 then endPause p c s.now s
  else
    let m := macPort s p
    setMacPort p { m with
      timers := tabPut c (s.now + time) m.timers
      pausedSince := if (tabFind m.pausedSince c).isSome then m.pausedSince else tabPut c s.now m.pausedSince } s

/-- Acts on an accepted pause or PFC frame: each named class with its quanta. -/
def actOnPause (p mbps : Nat) (named : List (Nat × Nat)) (s : State) : State :=
  let s1 := named.foldl (fun s n => loadPause p (quantaTime mbps n.2) n.1 s) s
  if named.any fun n => inRecovery s p n.1 then count cRxPauseIgnored p 1 s1 else s1

/-- The classes and quanta that a PFC frame names, of those the port enables. -/
def pfcNamed (b : Bytes) (mask : Nat) : List (Nat × Nat) :=
  ((maskBits 8 (fieldBe b 16 2)).filter (bit mask)).map fun c => (c, fieldBe b (18 + 2 * c) 2)

/-- A good MAC control frame of port `p` (R112). -/
def macControl (p mbps : Nat) (v : Frame) (s : State) : State :=
  let s1 := countGood v s
  let mode := flowMode s p
  let long : Bool := decide (v.data.length > 128)
  match (if long then 0 else fieldBe v.data 14 2) with
  | 0x0001 =>
    if mode == 1 then
      actOnPause p mbps ((List.range 8).map fun c => (c, fieldBe v.data 16 2)) (count cRxPause p 1 s1)
    else macDrop 7 v (count cRxPauseDisabled p 1 s1)
  | 0x0101 =>
    if mode == 2 then
      let s2 := (maskBits 8 (fieldBe v.data 16 2)).foldl (fun s c => count (cRxPfc c) p 1 s) s1
      actOnPause p mbps (pfcNamed v.data (flowMask s p)) s2
    else macDrop 7 v (count cRxPauseDisabled p 1 s1)
  | _ => macDrop 6 v (count cRxMacControl p 1 s1)

end Sys2Proof.Machine
end

