-- ==== Sys2Proof/Machine/Ports.lean ====
section
/-!
DEFINITION. Ports as groups of lanes: speeds and lanes (R12, R99), and what the MAC does when a port goes down or comes
up (R117, R120, R327).
-/

namespace Sys2Proof.Machine

/-- The width in lanes of a speed code (R99). -/
def speedWidth (sp : Nat) : Nat :=
  match sp with
  | 6 => 2 | 7 => 4 | 8 => 8 | _ => 1

/-- The lane rate code of a speed code (R99). -/
def speedRate (sp : Nat) : Nat := if sp ≥ 5 then 5 else sp

/-- The speed of a speed code in Mb/s. -/
def speedMbps (sp : Nat) : Nat :=
  match sp with
  | 1 => 10000 | 2 => 25000 | 3 => 50000 | 4 => 100000 | 5 => 200000 | 6 => 400000 | 7 => 800000 | 8 => 1600000 | _ => 0

/-- Whether a speed accepts a FEC code (R99). -/
def fecAccepted (sp fec : Nat) : Bool :=
  match sp with
  | 1 => fec ≤ 1
  | 2 => fec ≤ 2
  | _ => fec == 3

def portSpeed (s : State) (p : Nat) : Nat := u8 (portConfig s p) 2
def portFec (s : State) (p : Nat) : Nat := u8 (portConfig s p) 3
def portMaxFrame (s : State) (p : Nat) : Nat := u16 (portConfig s p) 6
def portHoldUs (s : State) (p : Nat) : Nat := u32 (portConfig s p) 8
def portCutThrough (s : State) (p : Nat) : Bool := bit (u8 (portConfig s p) 4) 1

/-- The lanes of a configured port, lowest first (R12). -/
def lanesOf (s : State) (p : Nat) : List Nat := (List.range (speedWidth (portSpeed s p))).map (p + ·)

/-- The configured port that owns a lane. -/
def portOfLane (s : State) (l : Nat) : Option Nat :=
  [l, l - l % 2, l - l % 4, l - l % 8].find? fun p => configured s p && l < p + speedWidth (portSpeed s p)

/-- The bring-up machine of port `p`. -/
def linkOf (s : State) (p : Nat) : Link := tabGet {} s.lane.links p

/-- `s` with the bring-up machine of port `p` set. -/
def setLink (p : Nat) (v : Link) (s : State) : State :=
  modLaneState (fun t => { t with links := tabSet {} p v t.links }) s

/-- Whether port `p` is ACTIVE. -/
def portActive (s : State) (p : Nat) : Bool := (linkOf s p).phase == .active

/-! ### Sending pause and priority flow control (R114, R117) -/

/-- A 64-byte MAC control frame with this opcode and parameters; its source address is the port's own (assumption 31). -/
def controlFrame (p op : Nat) (params : Bytes) : Bytes :=
  let body := toBe 6 0x0180C2000001 ++ toBe 6 (Config.portAddress p).toNat ++ toBe 2 0x8808 ++ toBe 2 op ++ params
  let b := slice body 0 60
  b ++ fcsOf b

/-- Whether port `p` is in far-end loopback: its balls carry the partner's own frames (R83). -/
def farEnd (s : State) (p : Nat) : Bool := u8 ((tabGet {} s.lane.lanes p).test.getD []) 2 == 3

/-- Sends a pause frame, or one PFC frame that names each class of `ns` with its quanta; only while the port is ACTIVE. -/
def sendQuanta (p mode : Nat) (ns : List (Nat × Nat)) (s : State) : State :=
  if ns.isEmpty || mode == 0 || !portActive s p || farEnd s p then s
  else
    let m := macPort s p
    let s1 := setMacPort p { m with
      sentAt := ns.foldl (fun t x => if x.2 == 0 then tabDel x.1 t else tabPut x.1 s.now t) m.sentAt } s
    let quanta := fun (c : Nat) => ((ns.find? fun x => x.1 == c).map Prod.snd).getD 0
    let f := if mode == 1 then controlFrame p 0x0001 (toBe 2 ((ns.map Prod.snd).headD 0))
      else controlFrame p 0x0101 (toBe 2 ((ns.map fun x => 2 ^ x.1).foldl (· + ·) 0) ++
        (List.range 8).flatMap fun c => toBe 2 (quanta c))
    let s2 := emit (.transmit p f false) (count cTxBytes p 64 (count cTxFrames p 1 s1))
    if mode == 1 then count cTxPause p 1 s2 else ns.foldl (fun s x => count (cTxPfc x.1) p 1 s) s2

/-- Sends the classes `cs` with quanta `n`. -/
def sendFlow (p mode : Nat) (cs : List Nat) (n : Nat) (s : State) : State := sendQuanta p mode (cs.map fun c => (c, n)) s

/-- The occupancy the MAC compares for a used class, in cells (R113). -/
def flowOccupancy (s : State) (p c : Nat) : Nat :=
  let m := macPort s p
  let cs := if flowMode s p == 1 then List.range 8 else [c]
  ((List.range 4).flatMap fun q => cs.map fun k => tabGet 0 m.occupancy (8 * q + k)).foldl (· + ·) 0

/-- Compares the port's occupancy with its thresholds and sends what changed, in one frame (R114). Held XOFF stays (R122). -/
def compareFlow (p : Nat) (s : State) : State :=
  let m := macPort s p
  if m.heldXoff then s
  else
    let o := portFlow s p
    let used := usedClasses s p
    let on := used.filter fun c => !bit m.xoff c && u32 o (16 + 4 * c) ≤ flowOccupancy s p c
    let off := used.filter fun c => bit m.xoff c && flowOccupancy s p c ≤ u32 o (48 + 4 * c)
    let mask := (List.range 8).foldl (fun x c => if on.contains c then setBits x c 1 1 else if off.contains c then setBits x c 1 0 else x) m.xoff
    sendQuanta p (flowMode s p) ((on.map fun c => (c, flowQuanta s p)) ++ off.map fun c => (c, 0)) (setMacPort p { m with xoff := mask } s)

/-! ### A port goes down or comes up (R117, R120, R327) -/

/-- Pause timers clear when the port goes down (R117). -/
def clearPause (p : Nat) (s : State) : State := (List.range 8).foldl (fun s c => endPause p c s.now s) s

/-- What the MAC does at once when the link goes down: frames arriving and in transmission are lost (R120). -/
def stopMac (p : Nat) (s : State) : State :=
  clearPause p (abortTransmit p (cutReceived p s))

/-- The port's hold ends without a return: its queues are flushed (R327). -/
def endHold (p : Nat) (s : State) : State := flushPort p (modSw (fun t => { t with hold := tabDel p t.hold }) s)

/-- Link down at the MAC (R120, R327): the port enters hold, or with hold_us zero is flushed at once. -/
def macLinkDown (p : Nat) (s : State) : State :=
  let s1 := stopMac p s
  if portHoldUs s p == 0 then endHold p s1
  else kiln 0x0906 [(2, p)] (count cSwcHoldEntries p 1 (modSw (fun t => { t with hold := tabPut p s1.now t.hold }) s1))

/-- The port is disabled, removed or fenced (R102, R333, R435): its queues are flushed at once. -/
def macPortStopped (p : Nat) (s : State) : State := endHold p (if portActive s p then stopMac p s else s)

/-- The port returns to ACTIVE: the hold stops, the flow-control state is sent, then frames are taken again (R117, R120). -/
def macLinkUp (p : Nat) (s : State) : State :=
  let s1 := match tabFind s.sw.hold p with
    | some t => kiln 0x0907 [(2, p), (4, (s.now - t) / tUs)] (count cSwcHoldResumed p 1
        (modSw (fun x => { x with hold := tabDel p x.hold }) s))
    | none => s
  sendFlow p (flowMode s p) ((usedClasses s p).filter (bit (macPort s p).xoff)) (flowQuanta s p) s1

end Sys2Proof.Machine
end

