-- ==== Sys2Proof/Machine/Lane.lean ====
section
/-!
DEFINITION. Lanes: bring-up, alignment, loopbacks, pattern checking, error injection, eye scans, and the lane faults
(chapter 03).
-/

namespace Sys2Proof.Machine

/-! ### Lanes and their objects -/

/-- Lane `l`. -/
def laneOf (s : State) (l : Nat) : LaneSt := tabGet {} s.lane.lanes l

/-- `s` with lane `l` changed. -/
def modLane (l : Nat) (f : LaneSt → LaneSt) (s : State) : State :=
  modLaneState (fun t => { t with lanes := tabMod {} l f t.lanes }) s

/-- `s` with every lane of port `p` changed. -/
def modLanes (p : Nat) (f : LaneSt → LaneSt) (s : State) : State :=
  (lanesOf s p).foldl (fun s l => modLane l f s) s

/-- Adds one to a counter of every lane of port `p`. -/
def countLanes (c : Counter) (p : Nat) (s : State) : State := (lanesOf s p).foldl (fun s l => count c l 1 s) s

/-- The LANE_CONFIG object of a lane before it is written (R70). -/
def laneDefault (l : Nat) : Bytes := image 32 [(0, 2, l), (3, 1, 0x0C), (6, 2, 10), (8, 2, 1280), (18, 1, 0xF4), (19, 1, 104)]

/-- The LANE_CONFIG object of lane `l`. -/
def laneConfig (s : State) (l : Nat) : Bytes := (laneOf s l).cfg.getD (laneDefault l)

/-- The configured power mode of a lane (R69): 0 LR, 1 MR, 2 SR. -/
def laneMode (s : State) (l : Nat) : Nat := u8 (laneConfig s l) 2
def laneFlags (s : State) (l : Nat) : Nat := u8 (laneConfig s l) 3
def laneAutoneg (s : State) (l : Nat) : Bool := bit (laneFlags s l) 2
def laneTraining (s : State) (l : Nat) : Bool := bit (laneFlags s l) 3
def laneMaxAttempts (s : State) (l : Nat) : Nat := u16 (laneConfig s l) 4
def laneBackoffMin (s : State) (l : Nat) : Nat := u16 (laneConfig s l) 6
def laneBackoffMax (s : State) (l : Nat) : Nat := u16 (laneConfig s l) 8
def laneDegrade (s : State) (l : Nat) : Nat := u32 (laneConfig s l) 12
def laneTaps (s : State) (l : Nat) : Bytes := slice (laneConfig s l) 16 5

/-- The LANE_TEST object of lane `l` as written; zeros before. -/
def laneTestOwn (s : State) (l : Nat) : Bytes := (laneOf s l).test.getD (image 32 [(0, 2, l)])

/-- The LANE_TEST object that governs lane `l`: the one on its port's lowest lane (R84). -/
def laneTest (s : State) (l : Nat) : Bytes := laneTestOwn s ((portOfLane s l).getD l)

def testLoopback (t : Bytes) : Nat := u8 t 2
def testGen (t : Bytes) : Bool := bit (u8 t 5) 0
def testChk (t : Bytes) : Bool := bit (u8 t 5) 1

/-- The state code of a bring-up phase (R75). -/
def phaseCode : LinkPhase → Nat
  | .disabled => 0 | .backoff => 1 | .rxDetect => 2 | .autoneg => 3 | .training => 4 | .lock => 5 | .align => 6
  | .active => 7 | .reacquireLock => 8 | .reacquireAlign => 8 | .failed => 9

/-- The state code of a lane (R75): its port's state, or TEST, or DISABLED; FAILED where its die failed start-up (R535). -/
def laneState (s : State) (l : Nat) : Nat :=
  match portOfLane s l with
  | some p => phaseCode (linkOf s p).phase
  | none => if (laneOf s l).inTest then 10 else if tabGet false s.boot.laneDieFailed (laneDieOf l) then 9 else 0

/-- Whether a lane is down (R71). -/
def laneDown (s : State) (l : Nat) : Bool := [0, 1, 2, 9].contains (laneState s l)

/-- The reference of a lane die. -/
def laneDieSt (s : State) (k : Nat) : LaneDieSt := tabGet {} s.lane.dies k

/-- `s` with a lane die's reference set. -/
def setLaneDie (k : Nat) (v : LaneDieSt) (s : State) : State :=
  modLaneState (fun t => { t with dies := tabSet {} k v t.dies }) s

/-- The 16 lanes of pipeline `g`: their transmit PLL and substrate bundle. -/
def laneGroup (s : State) (g : Nat) : LaneGroup := tabGet {} s.lane.groups g

/-- `s` with a lane group set. -/
def setLaneGroup (g : Nat) (v : LaneGroup) (s : State) : State :=
  modLaneState (fun t => { t with groups := tabSet {} g v t.groups }) s

/-- Whether a near-end serial loopback keeps a lane's own signal off its balls (R83). -/
def nesSilent (s : State) (l : Nat) : Bool := testLoopback (laneTest s l) == 1 && !bit (u8 (laneTest s l) 5) 3

/-- Whether a lane's transmitter is squelched (R74, R75, R83, R97). -/
def laneSquelched (s : State) (l : Nat) : Bool :=
  [0, 1, 9].contains (laneState s l) || nesSilent s l || (laneDieSt s (laneDieOf l)).squelched || (laneGroup s (pipeOfPort l)).pllLost

/-- The configured ports among the lanes from `lo` to `lo + n - 1`. -/
def portsAmong (s : State) (lo n : Nat) : List Nat := (configuredPorts s).filter fun p => lo ≤ p && p < lo + n

/-! ### Eye scans (R90 to R94) -/

/-- The grid of an eye scan: columns and rows (R91). -/
def scanGrid (req : Bytes) : Nat × Nat :=
  (2 * u8 req 6 / u8 req 4 + 1, 2 * u8 req 7 / u8 req 5 + 1)

/-- The points of an eye scan. -/
def scanPoints (req : Bytes) : Nat := (scanGrid req).1 * (scanGrid req).2

/-- A running scan ended early (R92). -/
def scanAborted (v : LaneSt) : LaneSt :=
  if v.scan.status == .running then { v with scan := { v.scan with status := .aborted } } else v

/-- A running scan during which the lane is in REACQUIRE (R94). -/
def scanReacquired (v : LaneSt) : LaneSt :=
  if v.scan.status == .running then { v with scan := { v.scan with flags := v.scan.flags ||| 2 } } else v

/-! ### Bring-up (R76 to R79) -/

/-- Receiver locks gone, as at a new acquisition. -/
def unlocked (v : LaneSt) : LaneSt :=
  { v with cdrLock := false, symbolLock := false, blockLock := false, fecLock := false, goodHeaders := 0, slips := 0,
           headerNo := 0, badHeaders := [], markerHits := 0, markerMisses := 0 }

/-- Port `p` enters a bring-up phase now. -/
def enterPhase (p : Nat) (ph : LinkPhase) (s : State) : State :=
  setLink p { linkOf s p with phase := ph, since := s.now } s

/-- The cause shown by every lane of the port. -/
def setCause (p cause detail : Nat) (s : State) : State :=
  modLanes p (fun v => { v with lastCause := cause, lastDetail := detail % 65536 }) s

/-- Port `p` enters RX_DETECT (R76 step 1) with the configured taps. -/
def enterRxDetect (p : Nat) (s : State) : State :=
  let s1 := (lanesOf s p).foldl (fun s l => modLane l (fun v =>
    { unlocked v with coeff := laneTaps s l, malformed := [], signal := false }) s) s
  setLink p { linkOf s1 p with phase := .rxDetect, since := s1.now, refclkWait := false } s1

/-- Port enable (R76, R77): b starts at its least value; a die without reference makes the port wait for it (R74). -/
def startBringUp (p : Nat) (s : State) : State :=
  let v : Link := { backoffMs := laneBackoffMin s p, since := s.now }
  if (laneDieSt s (laneDieOf p)).squelched then
    setCause p 9 p (setLink p { v with phase := .backoff, refclkWait := true } s)
  else enterRxDetect p (setLink p v s)

/-- What every exit from ACTIVE does (R96, R98, R406): the lanes return to their configured modes, attempts restarts, link_downs
counts, LANE_DOWN is logged. -/
def leaveActive (p cause : Nat) (s : State) : State :=
  let s1 := modPow (fun t => { t with steps := tabKeep (fun l => !(lanesOf s p).contains l) t.steps })
    ((lanesOf s p).foldl (fun s l => modLane l (fun v => { v with modeInUse := laneMode s l, eqReduced := false, stepAt := none }) s) s)
  kiln 0x0302 [(2, p), (1, cause)] (countLanes cLinkDowns p (countSet cAttempts p 0 s1))

/-- The attempts counter: 16 bits, saturating. -/
def countAttempt (p : Nat) (s : State) : State := countSet cAttempts p (satAdd 16 (countOf cAttempts p s) 1) s

/-- A failed attempt (R77). -/
def attemptFail (p cause detail : Nat) (s : State) : State :=
  let v := linkOf s p
  let s1 := setCause p cause detail (count (cFailCause cause) p 1 (countAttempt p s))
  let inRow := v.inRow + 1
  let bmax := laneBackoffMax s p
  let b := if cause == 4 then min (v.backoffMs * 4) bmax else v.backoffMs
  let out := laneMaxAttempts s p != 0 && inRow ≥ laneMaxAttempts s p
  let s2 := if v.failLogged && !out then s1
    else kiln 0x0303 [(2, p), (1, phaseCode v.phase), (1, cause), (2, detail)] s1
  let s3 := countLanes cSquelches p (modLanes p (fun v => scanAborted (unlocked v)) s2)
  let v' := { v with since := s.now, inRow, failLogged := true }
  if out then
    setLink p { v' with phase := .failed, backoffMs := b } (kiln 0x0305 [(2, p), (2, countOf cAttempts p s3)] s3)
  else setLink p { v' with phase := .backoff, waitMs := b, backoffMs := min (b * 2) bmax } s3

/-- A failed attempt of a bring-up step (R76). -/
def stepFail (p cause detail : Nat) (s : State) : State := attemptFail p cause detail s

/-- At a lane's first ACTIVE after its mode or tx_coeff was written, its eye height becomes its reference (R424): a free value, since
no margin sample need have been taken. -/
def noteReference (l : Nat) (s : State) : State :=
  if (laneOf s l).reference.isSome then s
  else
    let (n, s1) := takeFree s
    modLane l (fun v => { v with reference := some (n % 65536) }) s1

/-- Port `p` enters ACTIVE (R76 step 7, R79): link up, snapshots, LANE_UP. -/
def enterActive (p : Nat) (reacq : Bool) (s : State) : State :=
  let s0 := modLanes p (fun v => { v with cdrLock := true, symbolLock := true, blockLock := true, snapshot := v.coeff,
                                          fecLock := portFec s p != 0 }) s
  let s1 := (lanesOf s p).foldl (fun s l => noteReference l s) s0
  let s2 := setLink p { linkOf s1 p with phase := .active, since := s1.now, inRow := 0, failLogged := false } s1
  let s3 := if reacq then countLanes cReacquires p s2 else s2
  macLinkUp p (kiln 0x0301 [(2, p), (1, b2n reacq), (2, countOf cAttempts p s3)] s3)

/-- Port `p` goes from ACTIVE to REACQUIRE (R79): the snapshots are loaded. -/
def enterReacquire (p : Nat) (s : State) : State :=
  enterPhase p .reacquireLock
    (modLanes p (fun v => scanReacquired { unlocked v with coeff := v.snapshot, signal := v.signal }) s)

/-- Clearing enable (R77, R102): bring-up or ACTIVE ends with cause ADMIN. -/
def stopBringUp (p : Nat) (s : State) : State :=
  let v := linkOf s p
  let s1 := if v.phase == .active then leaveActive p 11 s else s
  let s2 := if v.phase == .failed || v.phase == .disabled then s1
    else setCause p 11 p (count (cFailCause 11) p 1 s1)
  enterPhase p .disabled (modLanes p (fun v => scanAborted (unlocked v)) s2)

/-- Whether a phase lasts from a real time with a limit not yet passed. -/
def within (s : State) (since limit : Nat) : Bool := s.now ≤ since + limit

/-- The phase of a port after signal has been found. -/
def afterDetect (s : State) (p : Nat) : LinkPhase :=
  match testLoopback (laneTest s p) with
  | 1 => .training
  | 2 => .lock
  | _ => if laneAutoneg s p then .autoneg else .training

/-- The lanes of a port that must show signal in RX_DETECT (R76). -/
def detectLanes (s : State) (p : Nat) : List Nat := if laneAutoneg s p then [p] else lanesOf s p

/-- SIGNAL_DETECTED (R76 step 2): signal for 1 ms on the lanes that must show it. A lane in TEST only gains its signal. -/
def execSignalDetected (p : Port) (s : State) : Host.Outcome State Fault Refusal :=
  let v := linkOf s p.val
  if !configured s p.val then
    .next (if (laneOf s p.val).inTest then modLane p.val (fun v => { v with signal := true }) s else s)
  else if v.phase == .rxDetect then
    .next (enterPhase p.val (afterDetect s p.val)
      (modLanes p.val (fun v => { v with signal := true }) (reach (v.since + tMs) s)))
  else .next s

/-- SIGNAL_BREAK (R76): in RX_DETECT the count of 1 ms starts again. -/
def execSignalBreak (l : Lane) (s : State) : Host.Outcome State Fault Refusal :=
  match portOfLane s l.val with
  | none => .next (modLane l.val (fun v => { v with signal := false }) s)
  | some p =>
    let v := linkOf s p
    .next (if v.phase == .rxDetect && (detectLanes s p).contains l.val then setLink p { v with since := s.now } s else s)

/-- AUTONEG_RESOLVED (R76 step 3): `matching` says that the resolved technology is the port's speed and type. -/
def execAutonegResolved (p : Port) (matching : Bool) (s : State) : Host.Outcome State Fault Refusal :=
  let v := linkOf s p.val
  if v.phase == .autoneg && within s v.since (3 * tSec) then
    .next (if matching then enterPhase p.val .training s else stepFail p.val 2 p.val s)
  else .next s

/-- AN_TIMEOUT (R76): AUTONEG has lasted 3 s. -/
def execAnTimeout (p : Port) (s : State) : Host.Outcome State Fault Refusal :=
  let v := linkOf s p.val
  .next (if v.phase == .autoneg then stepFail p.val 1 p.val (reach (v.since + 3 * tSec) s) else s)

/-- AN_PAGE_VIOLATION (R78): Clause 73 restarts; the violation is counted and the attempt goes on. -/
def execAnPageViolation (p : Port) (s : State) : Host.Outcome State Fault Refusal :=
  .next (if (linkOf s p.val).phase == .autoneg then count cPartnerViolations p.val 1 s else s)

/-- Whether port `p` trains with its partner; else its receiver adapts blindly (R76, R83). -/
def trainsWithPartner (s : State) (p : Nat) : Bool :=
  laneTraining s p && testLoopback (laneTest s p) != 1 && testLoopback (laneTest s p) != 2

/-- The limit of TRAINING: the PMD clause's max_wait_timer of the port's type, or 10 ms for blind adaptation (R76). -/
def trainingLimit (s : State) (p : Nat) : Nat :=
  if trainsWithPartner s p then (Config.maxWaitUs (portSpeed s p)) * tUs else 10 * tMs

/-- TRAINING_DONE (R76 step 4): every lane trained; `taps` are the transmit taps training has arrived at, lane by lane. -/
def execTrainingDone (p : Port) (taps : List Bytes) (s : State) : Host.Outcome State Fault Refusal :=
  let v := linkOf s p.val
  if v.phase == .training && within s v.since (trainingLimit s p.val) then
    let s1 := if trainsWithPartner s p.val then
        (lanesOf s p.val).foldl (fun s l =>
          match taps[l - p.val]? with
          | some t => modLane l (fun v => { v with coeff := slice t 0 5 }) s
          | none => s) s
      else s
    .next (enterPhase p.val .lock s1)
  else .next s

/-- TRAINING_TIMEOUT (R76): TRAINING has reached its limit with lane `l` not trained. -/
def execTrainingTimeout (p : Port) (l : Lane) (s : State) : Host.Outcome State Fault Refusal :=
  let v := linkOf s p.val
  .next (if v.phase == .training && (lanesOf s p.val).contains l.val then
      stepFail p.val 3 l.val (reach (v.since + trainingLimit s p.val) s)
    else s)

/-- LOCK_ACQUIRED (R76 step 5, R79): CDR and symbol lock on every lane. -/
def execLockAcquired (p : Port) (s : State) : Host.Outcome State Fault Refusal :=
  let v := linkOf s p.val
  let lock := modLanes p.val fun v => { v with cdrLock := true, symbolLock := true }
  match v.phase with
  | .lock => .next (if within s v.since (10 * tMs) then enterPhase p.val .align (lock s) else s)
  | .reacquireLock =>
    .next (if within s v.since (50 * tUs) && !(laneGroup s (pipeOfPort p.val)).pllLost then
        enterPhase p.val .reacquireAlign (lock s)
      else s)
  | _ => .next s

/-- LOCK_TIMEOUT (R76): LOCK has lasted 10 ms without lane `l`. -/
def execLockTimeout (p : Port) (l : Lane) (s : State) : Host.Outcome State Fault Refusal :=
  let v := linkOf s p.val
  .next (if v.phase == .lock && (lanesOf s p.val).contains l.val then
      stepFail p.val 5 l.val (reach (v.since + 10 * tMs) s)
    else s)

/-- CDR_LOCK_LOST (R76): counted; the lane keeps acquiring. -/
def execCdrLockLost (l : Lane) (s : State) : Host.Outcome State Fault Refusal :=
  match portOfLane s l.val with
  | none => .next s
  | some p =>
    .next (if [.training, .lock, .align, .reacquireLock, .reacquireAlign].contains (linkOf s p).phase then
        count cCdrLosses l.val 1 (modLane l.val (fun v => { v with cdrLock := false, symbolLock := false }) s)
      else s)

/-- LINK_UP (R76 step 7): lock, deskew and FEC lock on every lane within the limit of ALIGN. -/
def execLinkUp (p : Port) (s : State) : Host.Outcome State Fault Refusal :=
  let v := linkOf s p.val
  .next (if v.phase == .align && within s v.since (5 * tMs) then enterActive p.val false s else s)

/-- ALIGN_TIMEOUT (R76, R80, R81): skew above 180 ns or 4,096 slips on lane `l` at once, else when 5 ms have passed. -/
def execAlignTimeout (p : Port) (l : Lane) (skewNs : Nat) (s : State) : Host.Outcome State Fault Refusal :=
  let v := linkOf s p.val
  let here := (lanesOf s p.val).contains l.val
  let early := skewNs > 180 || (laneOf s l.val).slips ≥ 4096
  let detail := if skewNs > 180 then min skewNs 65535 else l.val
  match v.phase with
  | .align => .next (if here then stepFail p.val 6 detail (if early then s else reach (v.since + 5 * tMs) s) else s)
  | .reacquireAlign => .next (if here && early then stepFail p.val 6 detail s else s)
  | _ => .next s

/-- Whether a loss of signal on lane `l` fails the attempt of port `p` in this phase (R76). -/
def lossFails (p l : Nat) : LinkPhase → Bool
  | .autoneg => l == p
  | .training | .lock | .align | .reacquireLock | .reacquireAlign => true
  | _ => false

/-- SIGNAL_LOST (R76): no signal for 2 µs. -/
def execSignalLost (l : Lane) (s : State) : Host.Outcome State Fault Refusal :=
  let s1 := count cSignalLosses l.val 1 (modLane l.val (fun v => { v with signal := false }) s)
  match portOfLane s l.val with
  | none => .next (if (laneOf s l.val).inTest then s1 else s)
  | some p => .next (if lossFails p l.val (linkOf s p).phase then stepFail p 7 l.val s1 else s)

/-- BACKOFF_EXPIRED (R77): the wait is over and the port enters RX_DETECT. -/
def execBackoffExpired (p : Port) (s : State) : Host.Outcome State Fault Refusal :=
  let v := linkOf s p.val
  .next (if v.phase == .backoff && !v.refclkWait then enterRxDetect p.val (reach (v.since + v.waitMs * tMs) s) else s)

/-- BACKOFF_RESET (R77): ACTIVE for 10 s. -/
def execBackoffReset (p : Port) (s : State) : Host.Outcome State Fault Refusal :=
  let v := linkOf s p.val
  .next (if v.phase == .active then
      setLink p.val { v with backoffMs := laneBackoffMin s p.val } (reach (v.since + 10 * tSec) s)
    else s)

/-- TRAINING_FRAME_MALFORMED (R78): frame number `n` of lane `l`, with its control field. -/
def execTrainingFrameMalformed (l : Lane) (control : BitVec 16) (n : Nat) (s : State) : Host.Outcome State Fault Refusal :=
  match portOfLane s l.val with
  | none => .next s
  | some p =>
    if (linkOf s p).phase == .training && trainsWithPartner s p then
      let recent := n :: (laneOf s l.val).malformed.filter fun k => n < k + 1000
      let s1 := count cPartnerViolations l.val 1 (modLane l.val (fun v => { v with malformed := recent }) s)
      .next (if recent.length ≥ 8 then
          kiln 0x0304 [(2, l.val), (2, control.toNat)] (stepFail p 4 l.val s1)
        else s1)
    else .next s

/-- The FEC code of the port of lane `l`. -/
def laneFec (s : State) (l : Nat) : Nat := match portOfLane s l with | some p => portFec s p | none => 0

/-- What ends ACTIVE (R79). -/
def countDown (kind l : Nat) (s : State) : State :=
  match kind with
  | 0 => count cSignalLosses l 1 s
  | 1 => count cCdrLosses l 1 s
  | 2 =>
    if !(laneOf s l).blockLock then s
    else if 2 ≤ laneFec s l then count cMarkerLosses l 1 s
    else count cBlockLosses l 1 s
  | _ => s

/-- Port `p` leaves ACTIVE for a loss (R79): REACQUIRE after 10 ms of ACTIVE with signal everywhere, else a failed attempt. -/
def dropLink (p cause detail : Nat) (signalOnAll : Bool) (s : State) : State :=
  let long := (linkOf s p).since + 10 * tMs ≤ s.now
  let s1 := macLinkDown p (leaveActive p cause s)
  if signalOnAll && long then enterReacquire p s1 else attemptFail p cause detail s1

/-- LINK_DOWN (R79): `kind` 0 loss of signal, 1 of CDR lock, 2 of block or marker lock, 3 high symbol-error rate. -/
def execLinkDown (l : Lane) (kind : Fin 4) (signalOnAll : Bool) (s : State) : Host.Outcome State Fault Refusal :=
  match portOfLane s l.val with
  | none => .next s
  | some p =>
    if portActive s p then
      let cause := if kind.val == 0 then 7 else 8
      let s1 := countDown kind.val l.val s
      let s2 := modLane l.val (fun v => { v with signal := kind.val != 0 && v.signal }) s1
      .next (dropLink p cause l.val (signalOnAll && kind.val != 0) s2)
    else .next s

/-- REACQUIRE_DONE (R79): lock and alignment regained within 50 µs. -/
def execReacquireDone (p : Port) (s : State) : Host.Outcome State Fault Refusal :=
  let v := linkOf s p.val
  .next (if v.phase == .reacquireAlign && within s v.since (50 * tUs) then enterActive p.val true s else s)

/-- REACQUIRE_TIMEOUT (R79): LOCK or ALIGN has lasted 50 µs without lane `l`. -/
def execReacquireTimeout (p : Port) (l : Lane) (s : State) : Host.Outcome State Fault Refusal :=
  let v := linkOf s p.val
  let here := (lanesOf s p.val).contains l.val && !(laneGroup s (pipeOfPort p.val)).pllLost
  match v.phase with
  | .reacquireLock => .next (if here then stepFail p.val 5 l.val (reach (v.since + 50 * tUs) s) else s)
  | .reacquireAlign => .next (if here then stepFail p.val 6 l.val (reach (v.since + 50 * tUs) s) else s)
  | _ => .next s

/-! ### Alignment and FEC (R80 to R82, R100) -/

/-- Whether lane `l` receives symbols to align: its port is in ALIGN, REACQUIRE's ALIGN or ACTIVE. -/
def aligning (s : State) (l : Nat) : Bool :=
  match portOfLane s l with
  | some p => [.align, .reacquireAlign, .active].contains (linkOf s p).phase
  | none => false

/-- One sync header in hunt. -/
def huntHeader (l : Nat) (valid : Bool) (v : LaneSt) (s : State) : State :=
  if valid then
    modLane l (fun v => { v with goodHeaders := v.goodHeaders + 1, blockLock := v.goodHeaders + 1 ≥ 64,
                                 slips := if v.goodHeaders + 1 ≥ 64 then 0 else v.slips, headerNo := 0, badHeaders := [] }) s
  else count cBlockSlips l 1 (modLane l (fun _ => { v with goodHeaders := 0, slips := v.slips + 1 }) s)

/-- One sync header in lock: 16 invalid within 64 consecutive drop it. -/
def lockedHeader (l : Nat) (valid : Bool) (v : LaneSt) (s : State) : State :=
  let n := v.headerNo + 1
  let bad := (if valid then v.badHeaders else n :: v.badHeaders).filter fun k => n < k + 64
  let s1 := if valid then s else count cInvalidSync l 1 s
  if bad.length ≥ 16 then
    count cBlockLosses l 1 (modLane l (fun _ => { v with blockLock := false, goodHeaders := 0, headerNo := 0, badHeaders := [] }) s1)
  else modLane l (fun _ => { v with headerNo := n, badHeaders := bad }) s1

/-- SYNC_HEADER_RECEIVED (R80, R100): on a lane without RS-FEC. With BASE-R FEC it stands for a FEC block. -/
def execSyncHeaderReceived (l : Lane) (valid : Bool) (s : State) : Host.Outcome State Fault Refusal :=
  let v := laneOf s l.val
  if !aligning s l.val || 2 ≤ laneFec s l.val then .next s
  else .next (if v.blockLock then lockedHeader l.val valid v s else huntHeader l.val valid v s)

/-- ALIGNMENT_MARKER_RECEIVED (R81): on a lane with RS-FEC; lock after 2 matches, lost after 4 consecutive misses. -/
def execAlignmentMarkerReceived (l : Lane) (matching : Bool) (s : State) : Host.Outcome State Fault Refusal :=
  let v := laneOf s l.val
  if !aligning s l.val || laneFec s l.val < 2 then .next s
  else if v.blockLock then
    let misses := if matching then 0 else v.markerMisses + 1
    .next (if misses ≥ 4 then
        count cMarkerLosses l.val 1 (modLane l.val (fun v =>
          { v with blockLock := false, fecLock := false, markerHits := 0, markerMisses := 0 }) s)
      else modLane l.val (fun v => { v with markerMisses := misses }) s)
  else if matching then
    let hits := v.markerHits + 1
    .next (modLane l.val (fun v =>
      { v with markerHits := hits, markerMisses := 0, blockLock := hits ≥ 2, fecLock := hits ≥ 2 }) s)
  else .next (count cMarkerSlips l.val 1 (modLane l.val (fun v => { v with markerHits := 0 }) s))

/-- The most symbol errors a codeword may have and be corrected: RS(544,514) 15, RS(528,514) 7, BASE-R one block. -/
def fecLimit (fec : Nat) : Nat :=
  match fec with
  | 1 => 1 | 2 => 7 | 3 => 15 | _ => 0

/-- FEC_CODEWORD_DECODED (R82, R100): a codeword with this many symbol errors (BASE-R: 0 clean, 1 corrected block). -/
def execFecCodewordDecoded (l : Lane) (errors : Nat) (s : State) : Host.Outcome State Fault Refusal :=
  let fec := laneFec s l.val
  if fec == 0 || !aligning s l.val then .next s
  else if errors > fecLimit fec then .next (count (cFecBin 16) l.val 1 s)
  else
    let s1 := count (cFecBin errors) l.val 1 s
    .next (if fec == 1 then s1
      else count cFecSymbols l.val errors (modLane l.val (fun v => { v with windowSymbols := v.windowSymbols + errors }) s1))

/-- DEGRADE_WINDOW_END (R82): a window of 1 ms closes; the third degraded window in a row raises bit 4. -/
def execDegradeWindowEnd (l : Lane) (s : State) : Host.Outcome State Fault Refusal :=
  let v := laneOf s l.val
  let th := laneDegrade s l.val
  let deg := th != 0 && th < v.windowSymbols
  let run := if deg then v.degradedRun + 1 else 0
  let s1 := modLane l.val (fun v => { v with lastWindow := v.windowSymbols, windowSymbols := 0, degradedRun := run }) s
  let s2 := if deg then count cDegraded l.val 1 s1 else s1
  .next (if run ≥ 3 then
      detect 4 3 l.val (fun inj => kilnInj inj 0x0309 [(2, l.val), (4, min v.windowSymbols 0xFFFFFFFF)]) s2
    else s2)

/-! ### Loopback, patterns and injection (R73, R83 to R89) -/

/-- FAR_END_LOOPBACK_BLOCK (R73): a partner block `arrived`, a block was `sent`; `gap` says that the block concerned lies
between frames and may be deleted or repeated as an idle. -/
def execFarEndLoopbackBlock (p : Port) (arrived sent gap : Bool) (s : State) : Host.Outcome State Fault Refusal :=
  let v := laneOf s p.val
  if !(configured s p.val && testLoopback (laneTest s p.val) == 3) || arrived == sent || gap then .next s
  else if arrived && v.elastic ≥ 32 || sent && v.elastic == 0 then .next (count cElasticSlips p.val 1 s)
  else .next (modLane p.val (fun v => { v with elastic := if arrived then v.elastic + 1 else v.elastic - 1 }) s)

/-- Whether a lane's rate is PAM4 (R68): rate codes 3 to 5. -/
def lanePam4 (s : State) (l : Nat) : Bool :=
  match portOfLane s l with
  | some p => 3 ≤ speedRate (portSpeed s p)
  | none => 3 ≤ u8 (laneTest s l) 6

/-- Error-free bits at the checker: out of lock they count towards the 1,024 of lock; those after lock are compared. -/
def checkGood (l good : Nat) (s : State) : State :=
  let v := laneOf s l
  if v.chkLocked then count cChkBits l good s
  else
    let run := v.chkRun + good
    if run ≥ 1024 then count cChkBits l (run - 1024) (modLane l (fun v => { v with chkLocked := true, chkRun := 0, chkWindow := [] }) s)
    else modLane l (fun v => { v with chkRun := run }) s

/-- One wrong bit at the checker: 256 within 1,024 compared bits drop the lock. -/
def checkBad (l : Nat) (sym : Bool) (s : State) : State :=
  let v := laneOf s l
  if !v.chkLocked then modLane l (fun v => { v with chkRun := 0 }) s
  else
    let s1 := count cChkBitErrors l 1 (count cChkBits l 1 s)
    let s2 := if sym && lanePam4 s l then count cChkSymbolErrors l 1 s1 else s1
    let pos := countOf cChkBits l s2
    let win := pos :: v.chkWindow.filter fun k => pos < k + 1024
    if win.length ≥ 256 then
      let n := min (2 ^ 32 - 1) (countOf cChkResyncs l s2 + 1)
      countSet cChkResyncs l n (modLane l (fun v => { v with chkLocked := false, chkRun := 0, chkWindow := [] }) s2)
    else modLane l (fun v => { v with chkWindow := win }) s2

/-- PATTERN_BITS_CHECKED (R86): `good` bits as the pattern has them, then, if `err`, one wrong bit; `sym` says that it is
the first wrong bit of its PAM4 symbol. -/
def execPatternBitsChecked (l : Lane) (good : Nat) (err sym : Bool) (s : State) : Host.Outcome State Fault Refusal :=
  if testChk (laneTest s l.val) then
    let s1 := checkGood l.val good s
    .next (if err then checkBad l.val sym s1 else s1)
  else .next s

/-- ERROR_INJECTION_EVENT (R89): one event of the configured kind; one_shot ends the injection. -/
def execErrorInjectionEvent (l : Lane) (s : State) : Host.Outcome State Fault Refusal :=
  let own := (portOfLane s l.val).getD l.val
  let t := laneTestOwn s own
  if u8 t 7 == 0 then .next s
  else
    let s1 := count cInjEvents l.val 1 s
    .next (if bit (u8 t 5) 4 then modLane own (fun v => { v with test := some (putField t 7 1 0) }) s1 else s1)

/-! ### Eye scan points -/

/-- EYE_POINT_DONE (R91 to R93): the dwell of one point is complete with `errors`, or stopped early after `compared`
units of 1,024 symbols because stop_errors was reached. -/
def execEyePointDone (l : Lane) (compared errors : Nat) (s : State) : Host.Outcome State Fault Refusal :=
  let v := laneOf s l.val
  let full := 2 ^ (u8 v.scan.request 8 - 10)
  let stop := u16 v.scan.request 10
  if v.scan.status != .running || !(compared == full || (compared < full && stop != 0 && stop ≤ errors)) then .next s
  else
    let pts := v.scan.points ++ [(compared, min errors 0xFFFFFFFF)]
    .next (modLane l.val (fun v => { v with scan := { v.scan with
      points := pts, status := if pts.length ≥ scanPoints v.scan.request then .done else .running } }) s)

/-! ### Reference clocks (R74) -/

/-- LANE_REFCLK_LOST (R74 steps 1, 2). -/
def execLaneRefclkLost (k : LaneDie) (s : State) : Host.Outcome State Fault Refusal :=
  let v := laneDieSt s k.val
  if v.lostAt.isSome then .next s
  else .next (detect 0 1 k.val (fun inj s =>
    kilnInj inj 0x0306 [(1, k.val)] (setLaneDie k.val { v with lostAt := some s.now } s)) s)

/-- LANE_REFCLK_RELOCK (R74 step 3): valid for 100 µs before the holdover ends. -/
def execLaneRefclkRelock (k : LaneDie) (s : State) : Host.Outcome State Fault Refusal :=
  let v := laneDieSt s k.val
  match v.lostAt with
  | none => .next s
  | some t =>
    .next (if !v.squelched && s.now ≤ t + tMs then setLaneDie k.val { v with lostAt := none } (reach (t + 100 * tUs) s) else s)

/-- Port `p` of a squelched die enters BACKOFF with cause REFCLK and waits for the reference. -/
def refclkDown (p : Nat) (s : State) : State :=
  let v := linkOf s p
  match v.phase with
  | .disabled | .failed => s
  | .backoff => setCause p 9 p (setLink p { v with refclkWait := true } s)
  | ph =>
    let s1 := if ph == .active then macLinkDown p (leaveActive p 9 s) else s
    let s2 := attemptFail p 9 p s1
    setLink p { linkOf s2 p with refclkWait := (linkOf s2 p).phase == .backoff } s2

/-- LANE_REFCLK_HOLDOVER_END (R74 step 4): 1 ms of holdover has passed. -/
def execLaneRefclkHoldoverEnd (k : LaneDie) (s : State) : Host.Outcome State Fault Refusal :=
  let v := laneDieSt s k.val
  match v.lostAt with
  | none => .next s
  | some t =>
    if v.squelched then .next s
    else
      let s1 := setLaneDie k.val { v with squelched := true } (reach (t + tMs) s)
      .next ((portsAmong s (128 * k.val) 128).foldl (fun s p => refclkDown p s) s1)

/-- LANE_REFCLK_RESTORED (R74): valid for 1 ms after the squelch; the waiting ports restart bring-up. -/
def execLaneRefclkRestored (k : LaneDie) (s : State) : Host.Outcome State Fault Refusal :=
  let v := laneDieSt s k.val
  if v.squelched then
    let s1 := kiln 0x0307 [(1, k.val)] (setLaneDie k.val { v with squelched := false, lostAt := none } s)
    .next ((portsAmong s (128 * k.val) 128).foldl (fun s p =>
      if (linkOf s p).refclkWait then enterRxDetect p s else s) s1)
  else .next s

/-! ### Substrate bundles and lane faults (R95, R97) -/

/-- D2D_DOUBLE_BIT_ERROR (R95): a replay on bundle `g`; when 4 have failed within 1 µs, bit 2 and a retrain. -/
def execD2dDoubleBitError (g : Pipe) (replayed : Bool) (s : State) : Host.Outcome State Fault Refusal :=
  let v := laneGroup s g.val
  if replayed || v.retraining then .next s
  else
    let failed := (s.now :: v.failedReplays.filter fun t => s.now < t + tUs).take 4
    .next (if failed.length ≥ 4 then
        detect 2 2 g.val (fun inj s => kilnInj inj 0x0308 [(1, g.val / 8), (1, g.val % 8)]
          (setLaneGroup g.val { v with retraining := true, failedReplays := [] } s)) s
      else setLaneGroup g.val { v with failedReplays := failed } s)

/-- D2D_RETRAIN_DONE (R95): the bundle carries frames again. -/
def execD2dRetrainDone (g : Pipe) (s : State) : Host.Outcome State Fault Refusal :=
  .next (setLaneGroup g.val { laneGroup s g.val with retraining := false } s)

/-- A port taken from ACTIVE by a lane fault (R97): link down with cause LINK_INTERNAL, then REACQUIRE. -/
def faultReacquire (p : Nat) (s : State) : State :=
  match (linkOf s p).phase with
  | .active => enterReacquire p (setCause p 10 p (macLinkDown p (leaveActive p 10 s)))
  | .reacquireLock | .reacquireAlign => enterPhase p .reacquireLock s
  | _ => s

/-- LANE_PLL (R97): the 16 lanes of group `g` are squelched. -/
def execLanePll (g : Pipe) (s : State) : Host.Outcome State Fault Refusal :=
  let v := laneGroup s g.val
  if v.pllLost then .next s
  else .next (detect 1 2 g.val (fun _ s =>
    let s1 := setLaneGroup g.val { v with pllLost := true } s
    let s2 := (List.range 16).foldl (fun s i =>
      if [0, 1, 9].contains (laneState s (16 * g.val + i)) then s else count cSquelches (16 * g.val + i) 1 s) s1
    (portsAmong s (16 * g.val) 16).foldl (fun s p => faultReacquire p s) s2) s)

/-- LANE_PLL_RELOCK (R97): the PLL has relocked; its ports start REACQUIRE. -/
def execLanePllRelock (g : Pipe) (s : State) : Host.Outcome State Fault Refusal :=
  let v := laneGroup s g.val
  if v.pllLost then
    .next ((portsAmong s (16 * g.val) 16).foldl (fun s p => faultReacquire p s)
      (setLaneGroup g.val { v with pllLost := false } s))
  else .next s

/-- LANE_ADAPT (R97): the lane's last good snapshot is restored. -/
def execLaneAdapt (l : Lane) (s : State) : Host.Outcome State Fault Refusal :=
  .next (detect 3 3 l.val (fun inj s =>
    kilnInj inj 0x030A [(2, l.val), (1, 3)] (modLane l.val (fun v => { v with coeff := v.snapshot }) s)) s)

/-- LANE_STORE (R97): the die's store is reloaded. -/
def execLaneStore (k : LaneDie) (s : State) : Host.Outcome State Fault Refusal :=
  .next (detect 5 1 k.val (fun _ s => setLaneDie k.val { laneDieSt s k.val with reloading := true } s) s)

/-- LANE_STORE_RELOAD (R97): the reload completes and the die's lanes enter REACQUIRE. -/
def execLaneStoreReload (k : LaneDie) (s : State) : Host.Outcome State Fault Refusal :=
  let v := laneDieSt s k.val
  if v.reloading then
    .next ((portsAmong s (128 * k.val) 128).foldl (fun s p => faultReacquire p s)
      (setLaneDie k.val { v with reloading := false } s))
  else .next s

/-! ### Commands -/

/-- Lane numbers 0 to 1023, else RANGE. -/
def fLane (off : Nat) : Fld := fRange off 2 0 1023 .range

/-- A LANE_CONFIG field that may change only while the lane is down (R71). -/
def lockedField (s : State) (p : Bytes) (off len : Nat) : Option Status :=
  orElse (laneDown s (u16 p 0) || slice p off len == slice (laneConfig s (u16 p 0)) off len) .state

/-- The first failing check of two. -/
def orTry (a b : Option Status) : Option Status := match a with | some x => some x | none => b

/-- The sum of the magnitudes of the taps. -/
def tapSum (p : Bytes) : Nat := ((List.range 5).map fun i => (s8 p (16 + i)).natAbs).foldl (· + ·) 0

/-- The fields of LANE_CONFIG (R70, R71). -/
def laneConfigFields : List Fld :=
  [ (fLane 0).asKey,
    fDep 2 1 (fun s p => orTry (orElse (u8 p 2 ≤ 2) .badarg) (lockedField s p 2 1)),
    fDep 3 1 (fun s p => orTry (orElse (u8 p 3 < 16) .badarg) (lockedField s p 3 1)),
    fAny 4 2,
    fVal 6 2 (fun v => if v == 0 then some .badarg else orElse (v ≤ 10000) .range),
    fDep 8 2 (fun _ p => orElse (inRange (u16 p 8) (u16 p 6) 10000) .range),
    fRsv 10 2, fAny 12 4,
    fDep 16 5 (fun s p => orTry (orElse (inRangeI (s8 p 19) 32 127 && tapSum p ≤ 128) .range) (lockedField s p 16 5)),
    fRsv 21 11 ]

/-- LANE_CONFIG_WRITE as the opcode tables of Icoux give it (R514 to R520), with the checks of its fields. -/
def opLaneConfigWrite : OpDef := writeOp 0x0301 32 laneConfigFields

/-- LANE_CONFIG write (R70, R71): in RX_DETECT it restarts RX_DETECT. -/
def execLaneConfigWrite (c : Cmd) (s : State) : Host.Outcome State Fault Refusal :=
  .next (icoux opLaneConfigWrite c (fun _ p s =>
    let l := u16 p 0
    let down := laneDown s l
    let s1 := modLane l (fun v => { v with cfg := if p == laneDefault l then none else some p
                                           modeInUse := if down then u8 p 2 else v.modeInUse
                                           reference := if slice p 2 1 == slice (laneConfig s l) 2 1 &&
                                               slice p 16 5 == slice (laneConfig s l) 16 5 then v.reference else none }) s
    okWrite (match portOfLane s1 l with
      | some q => if (linkOf s1 q).phase == .rxDetect then enterRxDetect q s1 else s1
      | none => s1)) s)

/-- LANE_CONFIG_READ as the opcode tables of Icoux give it (R514 to R520), with the checks of its fields. -/
def opLaneConfigRead : OpDef := readOp 0x0302 32 laneConfigFields

/-- LANE_CONFIG read. -/
def execLaneConfigRead (c : Cmd) (s : State) : Host.Outcome State Fault Refusal :=
  .next (icoux opLaneConfigRead c (fun _ p s => okReply s (laneConfig s (u16 p 0))) s)

/-- The flags of LANE_STATUS (R96). -/
def laneStatusFlags (s : State) (l : Nat) : Nat :=
  let v := laneOf s l
  b2n v.signal + 2 * b2n v.cdrLock + 4 * b2n v.symbolLock + 8 * b2n v.blockLock + 16 * b2n v.fecLock +
    32 * b2n v.eqReduced + 64 * b2n (laneSquelched s l) +
    128 * b2n ((laneDieSt s (laneDieOf l)).lostAt.isSome && !(laneDieSt s (laneDieOf l)).squelched)

/-- The LANE_STATUS object (R96). -/
def laneStatusObj (s : State) (l : Nat) : Bytes :=
  let v := laneOf s l
  let p := (portOfLane s l).getD l
  let k := linkOf s p
  putBytes (image 32
    [(0, 2, l), (2, 1, laneState s l), (3, 1, v.lastCause), (4, 1, laneStatusFlags s l), (5, 1, v.modeInUse),
     (6, 2, countOf cAttempts l s), (8, 2, k.backoffMs), (10, 2, v.lastDetail), (20, 4, min v.lastWindow 0xFFFFFFFF),
     (24, 2, v.eyeHeight), (26, 2, v.eyeWidth),
     (28, 4, if k.phase == .active then min ((s.now - k.since) / tMs) 0xFFFFFFFF else 0)])
    12 (if v.coeff.isEmpty then laneTaps s l else v.coeff)

/-- LANE_STATUS as the opcode tables of Icoux give it (R514 to R520), with the checks of its fields. -/
def opLaneStatus : OpDef := readOp 0x0303 32 [(fLane 0).asKey, fRsv 2 30]

/-- LANE_STATUS (R96). -/
def execLaneStatus (c : Cmd) (s : State) : Host.Outcome State Fault Refusal :=
  .next (icoux opLaneStatus c (fun _ p s => okReply s (laneStatusObj s (u16 p 0))) s)

/-- Whether a lane may change its test settings (R84, R88): outside any port, or its port disabled. -/
def testFree (s : State) (l : Nat) : Bool :=
  match portOfLane s l with
  | none => true
  | some p => !portEnabled s p

/-- The NRZ or PAM4 modulation a LANE_TEST asks for. -/
def testPam4 (s : State) (p : Bytes) : Bool :=
  match portOfLane s (u16 p 0) with
  | some q => 3 ≤ speedRate (portSpeed s q)
  | none => 3 ≤ u8 p 6

/-- A pattern code that suits the lane's modulation (R85). -/
def patternOk (s : State) (p : Bytes) (v : Nat) : Bool := v ≤ 12 && (testPam4 s p || !inRange v 8 10)

/-- An injection kind allowed for the lane (R89). -/
def injectAllowed (s : State) (p : Bytes) : Bool :=
  match u8 p 7, portOfLane s (u16 p 0) with
  | 0, _ => true
  | 1, _ => testGen p
  | 2, some q | 4, some q => 2 ≤ portFec s q
  | 3, some q => portFec s q < 2
  | _, _ => false

/-- The fields of LANE_TEST (R84, R87 to R89). -/
def laneTestFields : List Fld :=
  [ (fDep 0 2 (fun s p => if u16 p 0 > 1023 then some .range
      else match portOfLane s (u16 p 0) with
        | some q => orElse (q == u16 p 0) .badarg
        | none => none)).asKey,
    fDep 2 1 (fun s p => orTry (orElse (u8 p 2 ≤ 3 && !(u8 p 2 == 3 && (portOfLane s (u16 p 0)).isNone)) .badarg)
      (orElse (testFree s (u16 p 0) || u8 p 2 == testLoopback (laneTestOwn s (u16 p 0))) .state)),
    fDep 3 1 (fun s p => orElse (patternOk s p (u8 p 3)) .badarg),
    fDep 4 1 (fun s p => orElse (patternOk s p (u8 p 4)) .badarg),
    fDep 5 1 (fun s p => orTry
      (orElse (u8 p 5 < 32 && !(testGen p && u8 p 3 == 0) && !(testChk p && u8 p 4 == 0)) .badarg)
      (orElse (testFree s (u16 p 0) || bits (u8 p 5) 0 2 == bits (u8 (laneTestOwn s (u16 p 0)) 5) 0 2) .state)),
    fDep 6 1 (fun s p => orElse (if (portOfLane s (u16 p 0)).isSome then u8 p 6 == 0 else inRange (u8 p 6) 1 5) .badarg),
    fDep 7 1 (fun s p => orElse (u8 p 7 ≤ 4 && injectAllowed s p) .badarg),
    fDep 8 2 (fun _ p => if u16 p 8 > 64 then some .range else orElse (!(u8 p 7 != 0 && u16 p 8 == 0)) .badarg),
    fDep 10 1 (fun _ p => if u8 p 10 > 64 then some .range
      else orElse (!(u8 p 10 == 0 && (u8 p 3 == 11 || u8 p 4 == 11))) .badarg),
    fRsv 11 1,
    fDep 12 4 (fun _ p => orElse (if bit (u8 p 5) 4 then u32 p 12 == 0 else !(u8 p 7 != 0 && u32 p 12 == 0)) .badarg),
    fAny 16 8, fRsv 24 8 ]

/-- Clears the checker counters of a lane (R86). -/
def clearChecker (l : Nat) (s : State) : State :=
  [cChkBits, cChkBitErrors, cChkSymbolErrors, cChkResyncs].foldl (fun s c => countSet c l 0 s)
    (modLane l (fun v => { v with chkLocked := false, chkRun := 0, chkWindow := [] }) s)

/-- LANE_TEST_WRITE as the opcode tables of Icoux give it (R514 to R520), with the checks of its fields. -/
def opLaneTestWrite : OpDef := writeOp 0x0304 32 laneTestFields

/-- LANE_TEST write (R84, R87, R88): a lane outside any port enters or leaves TEST. -/
def execLaneTestWrite (c : Cmd) (s : State) : Host.Outcome State Fault Refusal :=
  .next (icoux opLaneTestWrite c (fun _ p s =>
    let l := u16 p 0
    let was := testChk (laneTestOwn s l)
    let owned := (portOfLane s l).isSome
    let test := !owned && (testGen p || testChk p || testLoopback p != 0)
    let s1 := modLane l (fun v =>
      let v1 := { v with test := if p == image 32 [(0, 2, l)] then none else some p, inTest := test
                         signal := if owned then v.signal else test && (v.signal || inRange (testLoopback p) 1 2) }
      if test || owned then v1 else scanAborted v1) s
    let ls := if owned then lanesOf s l else [l]
    okWrite (if testChk p && !was then ls.foldl (fun s l => clearChecker l s) s1 else s1)) s)

/-- LANE_TEST_READ as the opcode tables of Icoux give it (R514 to R520), with the checks of its fields. -/
def opLaneTestRead : OpDef := readOp 0x0305 32 laneTestFields

/-- LANE_TEST read. -/
def execLaneTestRead (c : Cmd) (s : State) : Host.Outcome State Fault Refusal :=
  .next (icoux opLaneTestRead c (fun _ p s => okReply s (laneTestOwn s (u16 p 0))) s)

/-- A field from 1 to `hi`; zero is BADARG (R91). -/
def fOneTo (off len hi : Nat) : Fld := fVal off len fun v => if v == 0 then some .badarg else orElse (v ≤ hi) .range

/-- The fields of EYE_SCAN (R91, R92). -/
def eyeScanFields : List Fld :=
  [ fDep 0 2 (fun s p => if u16 p 0 > 1023 then some .range
      else if (laneOf s (u16 p 0)).scan.status == .running then some .busy
      else orElse ([7, 8, 10].contains (laneState s (u16 p 0)) && (laneOf s (u16 p 0)).signal) .state),
    fDep 2 1 (fun s p => orElse (if lanePam4 s (u16 p 0) then inRange (u8 p 2) 1 3 else u8 p 2 == 0) .badarg),
    fRsv 3 1, fOneTo 4 1 16, fOneTo 5 1 32, fOneTo 6 1 32, fOneTo 7 1 127,
    fVal 8 1 (fun v => if v == 0 then some .badarg else orElse (inRange v 20 40) .range),
    fRsv 9 1, fAny 10 2, fRsv 12 4 ]

/-- EYE_SCAN as the opcode tables of Icoux give it (R514 to R520), with the checks of its fields. -/
def opEyeScan : OpDef := writeOp 0x0306 16 eyeScanFields

/-- EYE_SCAN (R91, R92): the scan starts before the completion. -/
def execEyeScan (c : Cmd) (s : State) : Host.Outcome State Fault Refusal :=
  .next (icoux opEyeScan c (fun _ p s =>
    if scanPoints p > 4096 then badAll .range
    else
      let l := u16 p 0
      let fl := b2n (laneOf s l).eqReduced + 2 * b2n (laneState s l == 8)
      okWrite (modLane l (fun v => { v with scan := { status := .running, request := p, points := [], flags := fl } }) s)) s)

/-- EYE_SCAN_ABORT as the opcode tables of Icoux give it (R514 to R520), with the checks of its fields. -/
def opEyeScanAbort : OpDef := writeOp 0x0307 8
    [fDep 0 2 (fun s p => if u16 p 0 > 1023 then some .range
    else orElse ((laneOf s (u16 p 0)).scan.status == .running) .state), fRsv 2 6]

/-- EYE_SCAN_ABORT (R92). -/
def execEyeScanAbort (c : Cmd) (s : State) : Host.Outcome State Fault Refusal :=
  .next (icoux opEyeScanAbort c
    (fun _ p s => okWrite (modLane (u16 p 0) scanAborted s)) s)

/-- The unit interval of a lane rate in 0.01 ps, times 10,000: 10^12 over the symbol rate in 0.01 MBd. -/
def uiNumerator (rate : Nat) : Nat × Nat :=
  match rate with
  | 1 => (10000000000, 1031250)
  | 2 => (10000000000, 2578125)
  | 3 => (10000000000, 2656250)
  | 4 => (10000000000, 5312500)
  | 5 => (10000000000, 10625000)
  | _ => (0, 1)

/-- The rate code a lane runs at. -/
def laneRate (s : State) (l : Nat) : Nat :=
  match portOfLane s l with
  | some p => speedRate (portSpeed s p)
  | none => u8 (laneTestOwn s l) 6

/-- The status code of EYE_STATUS. -/
def scanCode : ScanStatus → Nat
  | .idle => 0 | .running => 1 | .done => 2 | .aborted => 3

/-- EYE_STATUS as the opcode tables of Icoux give it (R514 to R520), with the checks of its fields. -/
def opEyeStatus : OpDef := readOp 0x0308 24 [(fLane 0).asKey, fRsv 2 22]

/-- EYE_STATUS (R94, R513). The voltage step and the rounding of the unit interval are free values (assumption 20). -/
def execEyeStatus (c : Cmd) (s : State) : Host.Outcome State Fault Refusal :=
  .next (icoux opEyeStatus c (fun _ p s =>
    let l := u16 p 0
    let v := (laneOf s l).scan
    let g := if v.status == .idle then (0, 0) else scanGrid v.request
    let (step, s1) := takeFree s
    let (round, s2) := takeFree s1
    let (a, b) := uiNumerator (laneRate s l)
    let ui := if a % b == 0 then a / b else a / b + round % 2
    okReply s2 (image 24 [(0, 2, l), (2, 1, scanCode v.status), (3, 1, v.flags), (4, 2, v.points.length), (6, 2, g.1),
      (8, 2, g.2), (12, 4, step), (16, 4, ui)])) s)

/-- EYE_RESULT as the opcode tables of Icoux give it (R514 to R520), with the checks of its fields. -/
def opEyeResult : OpDef := requestOp 0x0309 8 [fLane 0, fRsv 2 2,
    fDep 4 4 (fun s p => orElse (u32 p 4 ≤ 7 && u32 p 4 * 512 < (laneOf s (u16 p 0)).scan.points.length) .range)]

/-- EYE_RESULT (R94, R512): one page of up to 512 points. -/
def execEyeResult (c : Cmd) (s : State) : Host.Outcome State Fault Refusal :=
  .next (icoux opEyeResult c
    (fun _ p s =>
      let pts := ((laneOf s (u16 p 0)).scan.points.drop (512 * u32 p 4)).take 512
      .done s .ok (toLe 2 pts.length) (pts.flatMap fun x => toLe 4 x.1 ++ toLe 4 x.2)) s)

end Sys2Proof.Machine
end

