-- ==== Sys2Proof/Machine/Mac.lean ====
section
/-!
DEFINITION. Ports and MAC: the port object, the receiver's events, filters, pause and priority flow control, preemption
and the MAC faults (chapter 04).
-/

namespace Sys2Proof.Machine

/-! ### Receiving (R103 to R105, R112) -/

/-- The speed of port `p` in Mb/s. -/
def portMbps (s : State) (p : Nat) : Nat := speedMbps (portSpeed s p)

/-- A time latched at the ingress of port `p` (R47, R48): `back` is the time since the start frame delimiter, `err` the
uncertainty, at most 1.5 ns, both in 1/65,536 ns; the board adjustment is added. -/
def ingressStamp (s : State) (p d back : Nat) (err : Int) : Stamp :=
  let t := stampOf s (quadOfPort p) d
  stampFrom ((stampTotal t : Int) - back + err + s32 (portTimeObj s p) 4) t.holdover

/-- The largest uncertainty of a port timestamp, 1.5 ns (R48). -/
abbrev stampError : Int := 98304

/-- The first bytes of a frame of port `p`, at its 64th byte or its end, become a frame in the device. -/
def startFrame (p : Nat) (b : Bytes) (back : Nat) (err : Int) (fragments : Bool) (s : State) : Nat × State :=
  let t := ingressStamp s p (datapathDomain s) back err
  let t' := ingressStamp s p (u8 (portTimeObj s p) 2) back err
  newFrame { port := p, pipe := pipeOfPort p, data := b, maxFrame := portMaxFrame s p, stamp := t, ts := stamp96 t,
             tsPtp := stamp96 t', tsHold := t'.holdover, reassembled := fragments } s

/-- The head of a frame of a port in far-end loopback: it is counted at its end and goes no further (R83). -/
def farEndHead (u : Nat) (mark : Bool) (s : State) : State :=
  let v := frameOf s u
  if mark then countRxDrop 4 v.port (setFrame u { v with place := .spent, bad := 4, ended := true } s)
  else if v.data.length < 64 then countRxDrop 1 v.port (setFrame u { v with place := .spent, bad := 1, ended := true } s)
  else setFrame u { v with place := .spent } s

/-- A frame's head is checked; a frame that its head drops is forgotten unless it must still be counted at its end. -/
def receiveHead (u : Nat) (mark : Bool) (s : State) : State :=
  let s1 := if farEnd s (frameOf s u).port then farEndHead u mark s else headChecks u mark s
  if (frameOf s1 u).ended then forget u (clearRx (frameOf s1 u).port u s1) else s1

/-- RX_FRAME_HEAD (R103): `b` is the frame up to its 64th byte, or all of it when it ended before; `mark` a PCS error mark. -/
def execRxFrameHead (p : Port) (b : Bytes) (mark : Bool) (back : Nat) (err : Int) (s : State) :
    Host.Outcome State Fault Refusal :=
  if !portActive s p.val || b.length > 64 || b.isEmpty || (macPort s p.val).rx.isSome ||
      !inRangeI err (-stampError) stampError then .next s
  else
    let (u, s1) := startFrame p.val b back err false s
    .next (receiveHead u mark (setMacPort p.val { macPort s1 p.val with rx := some u } s1))

/-- RX_OVERSIZE (R104): byte max_frame + 1 arrives; `b` is what came since, of which max_frame bytes in all are kept. -/
def execRxOversize (p : Port) (b : Bytes) (s : State) : Host.Outcome State Fault Refusal :=
  match (macPort s p.val).rx with
  | none => .next s
  | some u =>
    let v := frameOf s u
    if v.place == .control || v.data.length + b.length ≤ v.maxFrame then .next s
    else .next (cutFrame p.val u 2 (moreBytes u (b.take (v.maxFrame - v.data.length)) s))

/-- RX_PCS_ERROR_MARK (R104): an error mark within a frame that passed its head checks. -/
def execRxPcsErrorMark (p : Port) (s : State) : Host.Outcome State Fault Refusal :=
  match (macPort s p.val).rx with
  | none => .next s
  | some u => .next (cutFrame p.val u 4 s)

/-- RX_FRAME_END (R104): the frame's last bytes; its FCS is checked. -/
def execRxFrameEnd (p : Port) (b : Bytes) (s : State) : Host.Outcome State Fault Refusal :=
  match (macPort s p.val).rx with
  | none => .next s
  | some u =>
    let v := frameOf s u
    if v.place == .control || v.data.length + b.length > v.maxFrame then .next s
    else
      let s1 := moreBytes u b (clearRx p.val u s)
      .next (endFrame u (if fcsGood (v.data ++ b) then 0 else 3) s1)

/-- MAC_CONTROL_FRAME (R112): a MAC control frame ends and is acted on, or dropped. -/
def execMacControlFrame (p : Port) (b : Bytes) (s : State) : Host.Outcome State Fault Refusal :=
  match (macPort s p.val).rx with
  | none => .next s
  | some u =>
    let v := frameOf s u
    if v.place != .control then .next s
    else
      let v' : Frame := { v with data := v.data ++ b, ended := true, place := .spent }
      let s1 := setFrame u v' (clearRx p.val u s)
      .next (forget u (if fcsGood v'.data then macControl p.val (portMbps s p.val) v' s1
        else macDrop 3 v' (countRxDrop 3 p.val s1)))

/-- A failed reassembly (R105): the partial frame is dropped with PREEMPT_ERROR. -/
def fragmentError (p : Nat) (kind : Nat) (s : State) : State :=
  let m := macPort s p
  let s1 := dropPartial p 5 (count (if kind == 2 then cPreSmdErrors else cPreAssemblyErrors) p 1 s)
  match m.assembled with
  | some u => cutFrame p u 5 s1
  | none => s1

/-- The end of a reassembled frame (R105): its FCS is checked, and a MAC control frame is acted on. -/
def assembledEnd (p u : Nat) (s : State) : State :=
  let s1 := count cPreAssemblyOk p 1 (clearRx p u s)
  let v := frameOf s1 u
  if v.place == .control then
    let v' : Frame := { v with ended := true, place := .spent }
    forget u (if fcsGood v.data then macControl p (portMbps s p) v' (setFrame u v' s1)
      else macDrop 3 v' (countRxDrop 3 p (setFrame u v' s1)))
  else endFrame u (if fcsGood v.data then 0 else 3) s1

/-- RX_FRAGMENT (R105): a fragment of the preemptable frame of port `p`. `kind`: 0 in order, 1 an assembly error, 2 an
SMD error, 3 a lost fragment. -/
def execRxFragment (p : Port) (kind : Fin 4) (first last : Bool) (b : Bytes) (back : Nat) (err : Int) (s : State) :
    Host.Outcome State Fault Refusal :=
  let m := macPort s p.val
  if !portActive s p.val || m.preemptPhase != .active || !inRangeI err (-stampError) stampError then .next s
  else
    let s0 := if first then s else count cPreFragRx p.val 1 s
    if kind.val != 0 || first == (m.assembling.isSome || m.assembled.isSome) then
      .next (fragmentError p.val kind.val s0)
    else match m.assembled with
    | some u =>
      let v := frameOf s0 u
      if v.place != .control && v.data.length + b.length > v.maxFrame then
        .next (cutFrame p.val u 2 (moreBytes u (b.take (v.maxFrame - v.data.length)) s0))
      else
        let s1 := moreBytes u b s0
        .next (if last then assembledEnd p.val u s1 else s1)
    | none =>
      let all := m.assembling.getD [] ++ b
      if all.length < 64 && !last then .next (setMacPort p.val { m with assembling := some all } s0)
      else
        let (u, s1) := startFrame p.val (all.take 64) back err true s0
        let s2 := setMacPort p.val { macPort s1 p.val with assembling := none, assembled := some u } s1
        let s3 := receiveHead u false s2
        if (macPort s3 p.val).assembled != some u then .next s3
        else
          let s4 := moreBytes u (all.drop 64) s3
          .next (if last then assembledEnd p.val u s4 else s4)

/-! ### Flow control (R113 to R117) -/

/-- OCCUPANCY_REPORT (R113, R114): quadrant `q`'s occupancy of port `p` reaches the port's MAC. -/
def execOccupancyReport (q : Quad) (p : Port) (s : State) : Host.Outcome State Fault Refusal :=
  if !configured s p.val then .next s
  else
    let m := macPort s p.val
    let occ := (List.range 8).foldl (fun t c => tabSet 0 (8 * q.val + c) (trueOccupancy s q.val p.val c) t) m.occupancy
    .next (compareFlow p.val (setMacPort p.val { m with occupancy := occ } s))

/-- PAUSE_REFRESH (R114): half of the pause time last sent has elapsed while XOFF holds. -/
def execPauseRefresh (p : Port) (s : State) : Host.Outcome State Fault Refusal :=
  let m := macPort s p.val
  let half := quantaTime (portMbps s p.val) (flowQuanta s p.val) / 2
  let on := (usedClasses s p.val).filter fun c => bit m.xoff c && (tabFind m.sentAt c).isSome
  match on.map (tabGet 0 m.sentAt) with
  | [] => .next s
  | t :: ts =>
    let s1 := reach (ts.foldl min t + half) s
    .next (sendFlow p.val (flowMode s p.val) (on.filter fun c => tabGet 0 m.sentAt c + half ≤ s1.now)
      (flowQuanta s p.val) s1)

/-- PAUSE_TIMER_EXPIRY (R115): the receive pause timer of class `c` reaches zero. -/
def execPauseTimerExpiry (p : Port) (c : Fin 8) (s : State) : Host.Outcome State Fault Refusal :=
  match tabFind (macPort s p.val).timers c.val with
  | none => .next s
  | some t => .next (endPause p.val c.val t (reach t s))

/-- PAUSE_STORM (R116): the timer of class `c` has been nonzero for storm_ms; the class ignores pause for recovery_ms. -/
def execPauseStorm (p : Port) (c : Fin 8) (s : State) : Host.Outcome State Fault Refusal :=
  let m := macPort s p.val
  let o := portFlow s p.val
  match tabFind m.pausedSince c.val, tabFind m.timers c.val with
  | some since, some t =>
    let at_ := since + u16 o 6 * tMs
    if u16 o 6 == 0 || t < at_ then .next s
    else
      let s1 := reach at_ s
      let s2 := endPause p.val c.val s1.now s1
      let m2 := macPort s2 p.val
      .next (kiln 0x0402 [(2, p.val), (1, c.val)] (count cStorms p.val 1
        (setMacPort p.val { m2 with recoverAt := tabPut c.val (s1.now + u16 o 8 * tMs) m2.recoverAt } s2)))
  | _, _ => .next s

/-- STORM_RECOVERED (R116): the class obeys pause again. -/
def execStormRecovered (p : Port) (c : Fin 8) (s : State) : Host.Outcome State Fault Refusal :=
  match tabFind (macPort s p.val).recoverAt c.val with
  | none => .next s
  | some t =>
    let s1 := reach t s
    let m := macPort s1 p.val
    .next (kiln 0x0403 [(2, p.val), (1, c.val)]
      (setMacPort p.val { m with recoverAt := tabDel c.val m.recoverAt } s1))

/-! ### Preemption (R118, R119) -/

def preemptDefault (p : Nat) : Bytes := image 8 [(0, 2, p), (3, 1, 0xFF), (5, 1, 10)]

/-- The PORT_PREEMPT object of port `p`. -/
def portPreempt (s : State) (p : Nat) : Bytes := ((macPort s p).preempt).getD (preemptDefault p)

/-- Sends the next verify frame (R119). -/
def sendVerify (p : Nat) (s : State) : State :=
  let m := macPort s p
  emit (.verify p) (setMacPort p { m with preemptPhase := .verifying, verifyTries := m.verifyTries + 1, verifyAt := s.now } s)

/-- PREEMPT_VERIFY_TIMER (R119): verify_ms has passed without a response; the third failure ends it. -/
def execPreemptVerifyTimer (p : Port) (s : State) : Host.Outcome State Fault Refusal :=
  let m := macPort s p.val
  if m.preemptPhase == .verifying then
    let s1 := reach (m.verifyAt + u8 (portPreempt s p.val) 5 * tMs) s
    .next (if m.verifyTries < 3 then sendVerify p.val s1
      else kiln 0x0404 [(2, p.val), (1, 3)] (setMacPort p.val { m with preemptPhase := .failed } s1))
  else .next s

/-- PREEMPT_VERIFY (R119): a verify response arrives and preemption becomes active. -/
def execPreemptVerify (p : Port) (s : State) : Host.Outcome State Fault Refusal :=
  let m := macPort s p.val
  if m.preemptPhase == .verifying then
    .next (kiln 0x0404 [(2, p.val), (1, 2)] (setMacPort p.val { m with preemptPhase := .active } s))
  else .next s

/-! ### MAC faults (R122) -/

/-- MAC_FIFO (R122): the frame holding the bad word is dropped with MAC_INTEGRITY; the FIFO continues. -/
def execMacFifo (g : Pipe) (u : Nat) (s : State) : Host.Outcome State Fault Refusal :=
  if (framesAt s g.val .fifo).contains u && (frameOf s u).source == 0 then
    .next (detect 6 5 g.val (fun _ s =>
      let v := frameOf s u
      let s1 := clearRx v.port u (dropIn (quadOfPipe g.val) 0x0B v {} s)
      modFr (fun t => { t with frames := tabDel u t.frames, deliveries := t.deliveries.filter fun d => d.frame != u }) s1) s)
  else .next s

/-- MAC_STORE (R122): the port slots and filters of the pipeline are reloaded from Icoux's copy. -/
def execMacStore (g : Pipe) (s : State) : Host.Outcome State Fault Refusal :=
  .next (detect 7 5 g.val (fun inj s =>
    kilnInj inj 0x0406 [(1, g.val), (1, 7)] (setMacPipe g.val { macPipe s g.val with reloading := true } s)) s)

/-- MAC_RELOAD (R122): the reload is complete. -/
def execMacReload (g : Pipe) (s : State) : Host.Outcome State Fault Refusal :=
  .next (setMacPipe g.val { macPipe s g.val with reloading := false } s)

/-- PCS_CHECK (R122): the port's PCS is reset; frames in flight count as rx_pcs_errors. -/
def execPcsCheck (p : Port) (s : State) : Host.Outcome State Fault Refusal :=
  if !configured s p.val then .next s
  else .next (detect 8 4 p.val (fun _ => cutReceived p.val) s)

/-- MAC_FLOW (R122): the port's used classes are held in XOFF while its counts are rebuilt. -/
def execMacFlow (p : Port) (s : State) : Host.Outcome State Fault Refusal :=
  if !configured s p.val then .next s
  else .next (detect 9 4 p.val (fun _ s =>
    let m := macPort s p.val
    let used := usedClasses s p.val
    let fresh := used.filter fun c => !bit m.xoff c
    let mask := used.foldl (fun x c => setBits x c 1 1) m.xoff
    sendFlow p.val (flowMode s p.val) fresh (flowQuanta s p.val) (setMacPort p.val { m with xoff := mask, heldXoff := true } s)) s)

/-- FLOW_RESYNC (R122): the counts are rebuilt from the buffers and the held XOFF ends. -/
def execFlowResync (p : Port) (s : State) : Host.Outcome State Fault Refusal :=
  let m := macPort s p.val
  if !m.heldXoff then .next s
  else
    let occ := (List.range 32).foldl (fun t k => tabSet 0 k (trueOccupancy s (k / 8) p.val (k % 8)) t) m.occupancy
    .next (compareFlow p.val (kiln 0x0407 [(2, p.val)]
      (setMacPort p.val { m with heldXoff := false, occupancy := occ } s)))

/-! ### PORT_CONFIG (R101, R102) -/

/-- The checks of PORT_CONFIG's fields (R101): with speed 0 the fields that removal ignores are not checked. -/
def portConfigFields : List Fld :=
  let live := fun (p : Bytes) (r : Option Status) => if u8 p 2 == 0 then none else r
  [ (fDep 0 2 (fun _ p => if u16 p 0 > 1023 then some .range
      else orElse (u16 p 0 % speedWidth (u8 p 2) == 0) .badarg)).asKey,
    fRange 2 1 0 8 .badarg,
    fDep 3 1 (fun _ p => live p (orElse (fecAccepted (u8 p 2) (u8 p 3)) .badarg)),
    fDep 4 1 (fun _ p => live p (orElse (u8 p 4 < 4) .badarg)),
    fRsv 5 1,
    fDep 6 2 (fun _ p => live p (if u16 p 6 == 0 then some .badarg else orElse (inRange (u16 p 6) 1518 16383) .range)),
    fDep 8 4 (fun _ p => live p (orElse (u32 p 8 ≤ 10000) .range)),
    fRsv 12 4 ]

/-- Whether an enabled firing entry names port `p` as its target (R102). -/
def portIsTarget (s : State) (p : Nat) : Bool :=
  s.time.entries.any fun e => e.2.enabled && entryAction e.2 == 3 && entryTarget e.2 == p

/-- Whether a lane of the range belongs to a configured port other than `p` (R12). -/
def lanesTaken (s : State) (p w : Nat) : Bool :=
  (List.range w).any fun i => match portOfLane s (p + i) with | some q => q != p | none => false

/-- The rejections of R12, R102 and R283 for an object that names a speed. -/
def portConfigRefused (s : State) (b : Bytes) : Option Status :=
  let p := u16 b 0
  let w := speedWidth (u8 b 2)
  let old := portConfig s p
  if lanesTaken s p w then some .state
  else if configured s p then
    if portEnabled s p && (u8 b 2 != u8 old 2 || u8 b 3 != u8 old 3) then some .state
    else orElse ((List.range w).all fun i => (portOfLane s (p + i)).isSome || laneState s (p + i) == 0) .state
  else if (List.range w).any (fun i => laneState s (p + i) != 0) then some .state
  else orElse (portFits s p) .nores

/-- Removes port `p` (R102): its objects return to their defaults. -/
def removePort (p : Nat) (s : State) : State :=
  let s1 := portRemoved p s
  let s2 := modTime (fun t => { t with portTime := tabDel p t.portTime }) s1
  let s3 := modLaneState (fun t => { t with links := tabDel p t.links }) s2
  modMac (fun m => { m with ports := tabDel p m.ports }) s3

/-- Makes or changes port `p` (R102): setting enable starts bring-up, clearing it ends it and flushes the queues. -/
def applyPort (p : Nat) (b : Bytes) (s : State) : State :=
  let was := portEnabled s p
  let on := bit (u8 b 4) 0
  let s1 := if was && !on then stopBringUp p (macPortStopped p s) else s
  let s2 := setMacPort p { macPort s1 p with config := some b } s1
  if on && !was then startBringUp p s2 else s2

/-- PORT_CONFIG_WRITE as the opcode tables of Icoux give it (R514 to R520), with the checks of its fields. -/
def opPortConfigWrite : OpDef := writeOp 0x0401 16 portConfigFields

/-- PORT_CONFIG write (R101, R102). -/
def execPortConfigWrite (c : Cmd) (s : State) : Host.Outcome State Fault Refusal :=
  .next (icoux opPortConfigWrite c (fun _ b s =>
    let p := u16 b 0
    if u8 b 2 == 0 then
      if !configured s p || portEnabled s p || portIsTarget s p then badAll .state
      else okWrite (kiln 0x0401 [(2, p), (1, 0), (1, 0), (1, 0)] (removePort p s))
    else match portConfigRefused s b with
      | some st => badAll st
      | none => okWrite (kiln 0x0401 [(2, p), (1, u8 b 2), (1, u8 b 3), (1, b2n (bit (u8 b 4) 0))] (applyPort p b s))) s)

/-- PORT_CONFIG_READ as the opcode tables of Icoux give it (R514 to R520), with the checks of its fields. -/
def opPortConfigRead : OpDef := readOp 0x0402 16 [(fDep 0 2 fun s p => portCheck s (u16 p 0)).asKey, fRsv 2 14]

/-- PORT_CONFIG read (R102). -/
def execPortConfigRead (c : Cmd) (s : State) : Host.Outcome State Fault Refusal :=
  .next (icoux opPortConfigRead c (fun _ p s =>
    okReply s (portConfig s (u16 p 0))) s)

/-- The link code of PORT_STATUS (R121). -/
def linkCode (s : State) (p : Nat) : Nat :=
  if !portEnabled s p then 0 else if portActive s p then 2 else if (tabFind s.sw.hold p).isSome then 3 else 1

/-- The hold time left of a port in µs. -/
def holdLeft (s : State) (p : Nat) : Nat :=
  match tabFind s.sw.hold p with
  | none => 0
  | some t => portHoldUs s p - (s.now - t) / tUs

/-- PORT_STATUS as the opcode tables of Icoux give it (R514 to R520), with the checks of its fields. -/
def opPortStatus : OpDef := readOp 0x0403 16 [(fDep 0 2 fun s p => portCheck s (u16 p 0)).asKey, fRsv 2 14]

/-- PORT_STATUS (R121). -/
def execPortStatus (c : Cmd) (s : State) : Host.Outcome State Fault Refusal :=
  .next (icoux opPortStatus c (fun _ b s =>
    let p := u16 b 0
    let m := macPort s p
    let mask := fun (t : Store Nat) => (t.map fun e => 2 ^ e.1).foldl (· + ·) 0
    let pre := match m.preemptPhase with | .off => 0 | .verifying => 1 | .active => 2 | .failed => 3
    okReply s (image 16 [(0, 2, p), (2, 1, linkCode s p), (3, 1, mask m.timers), (4, 1, m.xoff), (5, 1, mask m.recoverAt),
      (6, 1, pre), (8, 4, holdLeft s p)])) s)

/-! ### PORT_FLOW and PORT_PREEMPT (R111, R118) -/

/-- Whether class `c` of a PORT_FLOW object is used. -/
def flowUses (b : Bytes) (c : Nat) : Bool := (u8 b 2 == 1 && c == 0) || (u8 b 2 == 2 && bit (u8 b 3) c)

/-- The fields of PORT_FLOW (R111). -/
def portFlowFields : List Fld :=
  [ (fDep 0 2 fun s p => portCheck s (u16 p 0)).asKey,
    fRange 2 1 0 2 .badarg,
    fDep 3 1 (fun _ p => orElse (u8 p 3 == 0 || u8 p 2 == 2) .badarg),
    fDep 4 2 (fun _ p => orElse (u16 p 4 != 0 || u8 p 2 == 0) .badarg),
    fDep 6 2 (fun _ p => orElse (u16 p 6 ≤ 10000) .range),
    fDep 8 2 (fun _ p => if u16 p 8 == 0 && u16 p 6 != 0 then some .badarg else orElse (u16 p 8 ≤ 60000) .range),
    fRsv 10 6 ] ++
  ((List.range 8).map fun c => fDep (16 + 4 * c) 4 (fun _ p =>
    let v := u32 p (16 + 4 * c)
    if !flowUses p c then none else if v == 0 then some .badarg else orElse (inRange v 2 67108863) .range)) ++
  (List.range 8).map fun c => fDep (48 + 4 * c) 4 (fun _ p =>
    orElse (!flowUses p c || u32 p (48 + 4 * c) < u32 p (16 + 4 * c)) .badarg)

/-- The classes in XOFF that a new PORT_FLOW object no longer uses in the same mode (R117). -/
def flowEnded (s : State) (p : Nat) (b : Bytes) : List Nat :=
  (usedClasses s p).filter fun c => bit (macPort s p).xoff c && !(flowMode s p == u8 b 2 && flowUses b c)

/-- PORT_FLOW_WRITE as the opcode tables of Icoux give it (R514 to R520), with the checks of its fields. -/
def opPortFlowWrite : OpDef := writeOp 0x0404 80 portFlowFields

/-- PORT_FLOW write (R111, R117): classes that end in XOFF first send quanta 0 under the old mode. -/
def execPortFlowWrite (c : Cmd) (s : State) : Host.Outcome State Fault Refusal :=
  .next (icoux opPortFlowWrite c (fun _ b s =>
    let p := u16 b 0
    let gone := flowEnded s p b
    let s1 := sendFlow p (flowMode s p) gone 0 s
    let m := macPort s1 p
    let mask := gone.foldl (fun x c => setBits x c 1 0) m.xoff
    okWrite (setMacPort p { m with flow := if b == flowDefault p then none else some b, xoff := mask } s1)) s)

/-- PORT_FLOW_READ as the opcode tables of Icoux give it (R514 to R520), with the checks of its fields. -/
def opPortFlowRead : OpDef := readOp 0x0405 80 portFlowFields

/-- PORT_FLOW read. -/
def execPortFlowRead (c : Cmd) (s : State) : Host.Outcome State Fault Refusal :=
  .next (icoux opPortFlowRead c (fun _ p s => okReply s (portFlow s (u16 p 0))) s)

/-- The fields of PORT_PREEMPT (R118). -/
def portPreemptFields : List Fld :=
  [ (fDep 0 2 fun s p => portCheck s (u16 p 0)).asKey, fBits 2 1 3, fAny 3 1, fRange 4 1 0 3 .range,
    fVal 5 1 (fun v => if v == 0 then some .badarg else orElse (v ≤ 128) .range), fRsv 6 2 ]

/-- PORT_PREEMPT_WRITE as the opcode tables of Icoux give it (R514 to R520), with the checks of its fields. -/
def opPortPreemptWrite : OpDef := writeOp 0x0406 8 portPreemptFields

/-- PORT_PREEMPT write (R118, R119). -/
def execPortPreemptWrite (c : Cmd) (s : State) : Host.Outcome State Fault Refusal :=
  .next (icoux opPortPreemptWrite c (fun _ b s =>
    let p := u16 b 0
    let m := { macPort s p with preempt := if b == preemptDefault p then none else some b }
    let was := u8 (portPreempt s p) 2
    let fl := u8 b 2
    if !bit fl 0 then okWrite (setMacPort p { m with preemptPhase := .off, verifyTries := 0 } s)
    else if bit fl 1 then okWrite (setMacPort p { m with preemptPhase := .active, verifyTries := 0 } s)
    else if bit was 0 && !bit was 1 then okWrite (setMacPort p m s)
    else okWrite (sendVerify p (setMacPort p { m with verifyTries := 0 } s))) s)

/-- PORT_PREEMPT_READ as the opcode tables of Icoux give it (R514 to R520), with the checks of its fields. -/
def opPortPreemptRead : OpDef := readOp 0x0407 8 portPreemptFields

/-- PORT_PREEMPT read. -/
def execPortPreemptRead (c : Cmd) (s : State) : Host.Outcome State Fault Refusal :=
  .next (icoux opPortPreemptRead c (fun _ p s => okReply s (portPreempt s (u16 p 0))) s)

/-! ### FRAME_FILTER (R106 to R109) -/

/-- The fields of FRAME_FILTER (R106). The check value is Icoux's own; a write's is ignored. -/
def frameFilterFields (read : Bool) : List Fld :=
  let on := fun (p : Bytes) => bit (u8 p 2) 0
  [ (fRange 0 1 0 15 .range).asKey,
    fDep 1 1 (fun _ p => orElse (u8 p 1 ≤ 4 && !(u8 p 1 == 0 && on p)) .badarg),
    fBits 2 1 1, fRange 3 1 0 63 .range,
    fDep 4 2 (fun _ p => orElse (!(u16 p 4 == 0 && on p)) .badarg),
    fRsv 6 2, fPipeMask 8 read, fAny 16 4, fRsv 20 2, fAny 22 2,
    fDep 24 8 (fun _ p => orElse (!(u64 p 24 == 0 && on p)) .badarg), fAny 32 64 ]

/-- FRAME_FILTER_WRITE as the opcode tables of Icoux give it (R514 to R520), with the checks of its fields. -/
def opFrameFilterWrite : OpDef := writeOp 0x0408 96 (frameFilterFields false)

/-- FRAME_FILTER write (R106, R107, R109): every named pipeline switches before the completion. -/
def execFrameFilterWrite (c : Cmd) (s : State) : Host.Outcome State Fault Refusal :=
  .next (icoux opFrameFilterWrite c (fun _ b s =>
    let i := u8 b 0
    let f := putField (putField (b.take 32) 8 8 0) 22 2 (filterCrc (u64 b 24) (b.drop 32))
    okWrite ((maskBits 64 (u64 b 8)).foldl (fun s g =>
      writeLimit .filter (16 * g + i) (quadOfPipe g) (u32 b 16)
        (setMacPipe g { macPipe s g with filters := tabPut i f (macPipe s g).filters } s)) s)) s)

/-- FRAME_FILTER_READ as the opcode tables of Icoux give it (R514 to R520), with the checks of its fields. -/
def opFrameFilterRead : OpDef := readOp 0x0409 96 (frameFilterFields true)

/-- FRAME_FILTER read (R106): the pattern reads zero. -/
def execFrameFilterRead (c : Cmd) (s : State) : Host.Outcome State Fault Refusal :=
  .next (icoux opFrameFilterRead c (fun _ b s =>
    let g := (u64 b 8).log2
    okReply s (slice (putField (filterOf s g (u8 b 0)) 8 8 (u64 b 8)) 0 96)) s)

end Sys2Proof.Machine
end

