-- ==== Sys2Proof/Machine/Parser.lean ====
section
/-!
DEFINITION. The parse graph: nodes, transitions, extractions, the visit, malformed ends and the parser faults (chapter 05).
-/

namespace Sys2Proof.Machine

/-! ### Header vector (R126, R127) -/

/-- The width in bytes of a container. -/
def containerBytes (c : Nat) : Nat := if c < 64 then 1 else if c < 160 then 2 else if c < 256 then 4 else 8

/-- Whether only the parser writes a container (R127). -/
def parserOnly (c : Nat) : Bool := inRange c 152 159 || inRange c 250 255

/-- Container `c` set to the low bits of `x` that it holds. -/
def setCont (c x : Nat) (h : Store Nat) : Store Nat := tabSet 0 c (x % 2 ^ (8 * containerBytes c)) h

/-! ### The graph (R129 to R133) -/

/-- Pipeline `g`'s parser. -/
def parserPipe (s : State) (g : Nat) : ParserPipe := tabGet {} s.prs.pipes g

/-- `s` with pipeline `g`'s parser set. -/
def setParserPipe (g : Nat) (v : ParserPipe) (s : State) : State :=
  modPrs (fun t => { t with pipes := tabSet {} g v t.pipes }) s

/-- The graph a frame is parsed under: the pipeline's, or the version its parse began with (R145). -/
def graphOf (s : State) (v : Frame) : Graph := v.graph.getD (parserPipe s v.pipe).graph

/-- Node, transition and extraction entries. -/
def nodeOf (g : Graph) (n : Nat) : Nat := tabGet 0 g.nodes n
def transOf (g : Graph) (n : Nat) : Nat := tabGet 0 g.trans n
def extOf (g : Graph) (n : Nat) : Nat := tabGet 0 g.exts n

/-- The extraction entries of a node, in order. -/
def nodeExts (g : Graph) (n : Nat) : List Nat := (List.range (bits n 71 5)).map fun i => extOf g (bits n 59 12 + i)

/-- The transition entries of a node, in order. -/
def nodeTrans (g : Graph) (n : Nat) : List Nat := (List.range (bits n 43 6)).map fun i => transOf g (bits n 32 11 + i)

/-- A field of `width` bits from bit `b` of byte `off`, most significant first (R130). -/
def netBits (d : Bytes) (off b width : Nat) : Nat := bits (fieldBe d off 3) (24 - b - width) width

/-- The 32-bit select key of a node at a cursor (R130). -/
def selectKey (d : Bytes) (cur n : Nat) : Nat :=
  let f := fun (byte b w : Nat) => if w == 0 then 0 else netBits d (cur + byte) b w
  f (bits n 4 6) (bits n 10 3) (bits n 13 5) + 65536 * f (bits n 18 6) (bits n 24 3) (bits n 27 5)

/-- Whether a node's advance is COMPUTED. -/
def nodeComputed (n : Nat) : Bool := bits n 2 2 == 1

/-- The highest byte a visit reads, if it reads any (R135 step 2). -/
def visitNeed (g : Graph) (cur n : Nat) : Option Nat :=
  let sel := fun (byte b w : Nat) => if w == 0 then [] else [cur + byte + (b + w - 1) / 8]
  let len := if nodeComputed n then [cur + bits n 84 6] else []
  let win := (nodeExts g n).flatMap fun e =>
    if bits e 0 2 == 0 then [cur + bits e 2 9 + containerBytes (bits e 11 9) - 1] else []
  (sel (bits n 4 6) (bits n 10 3) (bits n 13 5) ++ sel (bits n 18 6) (bits n 24 3) (bits n 27 5) ++ len ++ win).max?

/-- The advance of a visit (R133); none when it is below ADV_MIN. -/
def visitAdvance (d : Bytes) (cur n : Nat) : Option Nat :=
  if nodeComputed n then
    let v := netBits d (cur + bits n 84 6) (bits n 90 3) (bits n 93 4)
    let adv := bits n 76 8 + v * 2 ^ bits n 97 2
    if adv < bits n 99 8 then none else some adv
  else some (bits n 76 8)

/-- Whether a transition entry matches a key (R131). -/
def transMatches (key t : Nat) : Bool := key &&& bits t 32 32 == bits t 0 32

/-- Where a visit goes: none for NO_TRANSITION, else the next node (none for the end) and the taken entry (R135 step 4). -/
def visitNext (g : Graph) (d : Bytes) (cur n : Nat) : Option (Option Nat × Option Nat) :=
  if bit n 1 then some (none, none)
  else
    match (nodeTrans g n).find? (transMatches (selectKey d cur n)) with
    | some t => some (if bit t 72 then none else some (bits t 64 8), some t)
    | none =>
      match bits n 57 2 with
      | 0 => some (some (bits n 49 8), none)
      | 1 => some (none, none)
      | _ => none

/-- One extraction into the header vector (R132). -/
def extract (d : Bytes) (cur e : Nat) (h : Store Nat) : Store Nat :=
  let c := bits e 11 9
  match bits e 0 2 with
  | 0 => setCont c (fieldBe d (cur + bits e 2 9) (containerBytes c)) h
  | 1 => setCont c (cur + bits e 2 9) h
  | _ => setCont c (bits e 32 32) h

/-- The header-present bitmap with the flag of an entry set, where FLAG_EN says so. -/
def setFlag (idx en : Nat) (e present : Nat) : Nat := if bit e en then setBits present (bits e idx 6) 1 1 else present

/-- How a visit ends. -/
inductive Visit
  | waits
  | malformed (cls : Nat)
  | accepted
  | goesOn

/-- One visit (R135): its outcome and the frame after it. Steps 1 to 5 change nothing but the node visited. -/
def visit (g : Graph) (v : Frame) : Visit × Frame :=
  let d := if v.ended then v.data.take (v.data.length - 4) else v.data
  let n := nodeOf g v.node
  if v.visits == 32 then (.malformed 3, v)
  else if !bit n 0 then (.malformed 6, v)
  else
    let need := visitNeed g v.cursor n
    let present := match need with | none => true | some k => k < d.length
    if !present && !v.ended then (.waits, v)
    else if !present then (.malformed 1, v)
    else if (match need with | none => false | some k => decide (511 < k)) then (.malformed 2, v)
    else
      match visitAdvance d v.cursor n with
      | none => (.malformed 5, v)
      | some adv =>
        match visitNext g d v.cursor n with
        | none => (.malformed 6, v)
        | some (next, taken) =>
          if adv == 0 && next == some v.node then (.malformed 4, v)
          else
            let p1 := setFlag 107 113 n v.present
            let p2 := match taken with | some t => setFlag 73 79 t p1 | none => p1
            let v' := { v with hdr := (nodeExts g n).foldl (fun h e => extract d v.cursor e h) v.hdr
                               present := p2, visits := v.visits + 1, cursor := v.cursor + adv }
            match next with
            | none => (.accepted, v')
            | some k => (.goesOn, { v' with node := k })

/-- Visits until the parse waits or ends, at most `fuel` of them. -/
def visits (g : Graph) : Nat → Frame → Visit × Frame
  | 0, v => (.malformed 3, v)
  | fuel + 1, v =>
    match visit g v with
    | (.goesOn, v') => visits g fuel v'
    | r => r

/-- The parser metadata containers, written when the parse ends (R127). -/
def parseMetadata (v : Frame) : Store Nat :=
  let put := fun (h : Store Nat) (e : Nat × Nat) => setCont e.1 e.2 h
  [(152, v.port % 1024), (153, v.cursor), (154, v.malformed + 16 * v.visits), (155, v.node + 256 * v.source),
   (156, v.present), (157, v.present / 2 ^ 16), (158, v.present / 2 ^ 32), (159, v.present / 2 ^ 48),
   (250, v.ts / 2 ^ 64), (251, v.ts / 2 ^ 32), (252, v.ts),
   (253, v.tsPtp / 2 ^ 64), (254, v.tsPtp / 2 ^ 32), (255, v.tsPtp)].foldl put v.hdr

/-- The PARSER_MALFORMED object of a pipeline before it is written, pipeline_mask zero. -/
def malformedDefault : Bytes := image 24 [(8, 1, 1), (9, 1, 1), (10, 1, 2), (11, 1, 2), (12, 1, 2), (13, 1, 2)]

/-- The PARSER_MALFORMED object of pipeline `g`, pipeline_mask zero. -/
def malformedOf (s : State) (g : Nat) : Bytes :=
  if (parserPipe s g).malformed.isEmpty then malformedDefault else (parserPipe s g).malformed

/-- Delivers frame `u` to the malformed ring; an ended frame's delivery is limited at once, an arriving frame's at its end. -/
def deliverMalformed (u cls : Nat) (whole : Bool) (s : State) : State :=
  let v := frameOf s u
  let s1 := deliver { ring := u8 (malformedOf s v.pipe) 14, frame := u, reason := 2, info := cls, whole, limit := 2 } s
  if v.ended then settleDeliveries u s1 else s1

/-- A malformed end: counted, logged the first time in a second, and its class's action taken (R137, R139). -/
def endMalformed (u cls : Nat) (s : State) : State :=
  let v := frameOf s u
  let g := v.pipe
  let s1 := kilnOnce 0x0523 (8 * g + cls) [(1, g), (1, cls), (2, v.node)] (count (cPrsMalformed cls) g 1 s)
  match u8 (malformedOf s g) (7 + cls) with
  | 2 => dropFrame u 0x10 { detail := cls + 256 * v.node } s1
  | 3 => spend u (deliverMalformed u cls true s1)
  | 4 => modFrame u (fun v => { v with place := .parsed }) (deliverMalformed u cls false s1)
  | _ => modFrame u (fun v => { v with place := .parsed }) s1

/-- Runs the visits of frame `u` until it parks or its parse ends (R125, R135). -/
def runParse (u : Nat) (s : State) : State :=
  let v := frameOf s u
  let (r, v1) := visits (graphOf s v) 33 v
  let s1 := spendPipe v.pipe 0 1 (v1.visits - v.visits) (count cPrsVisits v.pipe (v1.visits - v.visits) s)
  let ending := fun (cls : Nat) =>
    let v2 := { v1 with malformed := cls }
    let s2 := setFrame u { v2 with hdr := parseMetadata v2, place := .parsed, graph := none } s1
    if v1.visits > 8 then count cPrsLong v.pipe 1 s2 else s2
  match r with
  | .waits | .goesOn => setFrame u { v1 with place := .parked } s1
  | .malformed cls => endMalformed u cls (ending cls)
  | .accepted => count cPrsAccepted v.pipe 1 (ending 0)

/-- The next frame of a source for the parser of pipeline `g`: the ingress FIFO's, then the hold FIFO's (R177). -/
def nextToParse (s : State) (g src : Nat) : Option Nat :=
  (framesAt s g .fifo ++ framesAt s g .hold).find? fun u => (frameOf s u).source == src

/-- PARSE_START (R125, R135, R140): the parser takes the next frame of a source in a granted slot. With the park buffer full
it takes none from the ingress FIFO. -/
def execParseStart (g : Pipe) (src : Fin 4) (s : State) : Host.Outcome State Fault Refusal :=
  match nextToParse s g.val src.val with
  | none => .next s
  | some u =>
    let v := frameOf s u
    if (parserPipe s g.val).reloading || pipeFenced s g.val || pipeClosed s g.val then .next s
    else if (src.val == 0 || src.val == 2) && (framesAt s g.val .parked).length ≥ 32 then
      .next (if v.parkHeld then s else count cPrsParkFull g.val 1 (setFrame u { v with parkHeld := true } s))
    else
      let start := ((parserPipe s g.val).graph.start[src.val]?).getD 0
      let v1 := { v with cursor := 0, visits := 0, node := start, malformed := 0, present := 0, reached := true
                         resv := if v.ended || v.place == .hold then 0 else v.maxFrame - v.data.length }
      .next (runParse u (spendPipe g.val 0 0 1 (count (cPrsFrames src.val) g.val 1 (setFrame u v1 s))))

/-- PARSE_RESUME (R125): bytes of a parked frame arrive, or it has ended; the parse goes on. -/
def execParseResume (u : Nat) (b : Bytes) (s : State) : Host.Outcome State Fault Refusal :=
  let v := frameOf s u
  if v.place != .parked || (v.ended && !b.isEmpty) || v.data.length + b.length > max v.maxFrame v.data.length then .next s
  else .next (runParse u (moreBytes u b s))

/-! ### Parser faults (R147) -/

/-- Drops frame `u` with PARSER_INTEGRITY. -/
def parserDrop (u : Nat) (s : State) : State :=
  dropFrame u 0x11 {} (count cPrsIntegrity (frameOf s u).pipe 1 s)

/-- Whether frame `u` is being parsed: parked, or the next to be taken. -/
def beingParsed (s : State) (g u : Nat) : Bool :=
  (frameOf s u).pipe == g && ((frameOf s u).place == .parked || nextToParse s g (frameOf s u).source == some u)

/-- PRS_STORE (R147): the frame being parsed, if any, is dropped and the parser section is reloaded. -/
def execPrsStore (g : Pipe) (u : Option Nat) (s : State) : Host.Outcome State Fault Refusal :=
  .next (detect 10 5 g.val (fun inj s =>
    let s1 := match u with
      | some u => if beingParsed s g.val u then parserDrop u s else s
      | none => s
    kilnInj inj 0x0520 [(1, g.val), (1, 10)] (setParserPipe g.val { parserPipe s1 g.val with reloading := true } s1)) s)

/-- PRS_VECTOR (R147): a header vector word between the parser and S0. -/
def execPrsVector (g : Pipe) (u : Nat) (s : State) : Host.Outcome State Fault Refusal :=
  if (framesAt s g.val .parsed).contains u then .next (detect 11 5 g.val (fun _ s => parserDrop u s) s) else .next s

/-- PRS_HANG (R147): the parse engine is reset and its frame dropped. -/
def execPrsHang (g : Pipe) (u : Nat) (s : State) : Host.Outcome State Fault Refusal :=
  if beingParsed s g.val u then
    let v := frameOf s u
    .next (detect 12 5 g.val (fun inj s =>
      parserDrop u (kilnInj inj 0x0521 [(1, g.val), (2, v.node), (4, v.visits)] s)) s)
  else .next s

/-- PRS_CHECK (R147): a residue check of cursor or advance arithmetic fails. -/
def execPrsCheck (g : Pipe) (u : Nat) (s : State) : Host.Outcome State Fault Refusal :=
  if beingParsed s g.val u then .next (detect 13 5 g.val (fun _ s => parserDrop u s) s) else .next s

/-- PARSER_RELOAD (R147): the parser section is reloaded and parsing resumes. -/
def execParserReload (g : Pipe) (s : State) : Host.Outcome State Fault Refusal :=
  .next (setParserPipe g.val { parserPipe s g.val with reloading := false } s)

/-! ### PARSER_MALFORMED (R138) -/

/-- The fields of PARSER_MALFORMED. -/
def parserMalformedFields (read : Bool) : List Fld :=
  [fPipeMask 0 read] ++ ((List.range 6).map fun i => fRange (8 + i) 1 1 4 .badarg) ++
  [fRange 14 1 0 63 .range, fRsv 15 1, fAny 16 4, fRsv 20 4]

/-- PARSER_MALFORMED_WRITE as the opcode tables of Icoux give it (R514 to R520), with the checks of its fields. -/
def opParserMalformedWrite : OpDef := writeOp 0x0507 24 (parserMalformedFields false)

/-- PARSER_MALFORMED write (R138): every named pipeline switches before the completion. -/
def execParserMalformedWrite (c : Cmd) (s : State) : Host.Outcome State Fault Refusal :=
  .next (icoux opParserMalformedWrite c (fun _ b s =>
    let o := putField b 0 8 0
    okWrite ((maskBits 64 (u64 b 0)).foldl (fun s g =>
      writeLimit .malformed g (quadOfPipe g) (u32 b 16)
        (setParserPipe g { parserPipe s g with malformed := if o == malformedDefault then [] else o } s)) s)) s)

/-- PARSER_MALFORMED_READ as the opcode tables of Icoux give it (R514 to R520), with the checks of its fields. -/
def opParserMalformedRead : OpDef := readOp 0x0508 24 (parserMalformedFields true)

/-- PARSER_MALFORMED read. -/
def execParserMalformedRead (c : Cmd) (s : State) : Host.Outcome State Fault Refusal :=
  .next (icoux opParserMalformedRead c (fun _ b s =>
    okReply s (putField (malformedOf s (u64 b 0).log2) 0 8 (u64 b 0))) s)

/-! ### The parser section of an image (R143, R144) -/

/-- The entries of a table in a section: `n` entries of `w` bytes from `off`. -/
def sectionTable (b : Bytes) (off w n : Nat) : Store Nat :=
  (List.range n).foldl (fun t i => tabSet 0 i (field b (off + w * i) w) t) []

/-- The graph of a parser section (R143). -/
def parserGraph (b : Bytes) : Graph :=
  let nn := u16 b 4
  let nt := u16 b 6
  { start := (b.take 4).map BitVec.toNat, nodes := sectionTable b 16 16 nn, trans := sectionTable b (16 + 16 * nn) 12 nt,
    exts := sectionTable b (16 + 16 * nn + 12 * nt) 8 (u16 b 8) }

/-- The tables that a load error names (R144): 0 the section header, 1 nodes, 2 transitions, 3 extractions. -/
def badNode (g : Graph) (nn nt ne i : Nat) : Bool :=
  let n := nodeOf g i
  let live := fun k => k < nn && bit (nodeOf g k) 0
  let self := bits n 2 2 == 0 && bits n 76 8 == 0
  bits n 114 14 != 0 ||
  (bit n 0 &&
    (bits n 43 6 > 32 || bits n 71 5 > 16 || bits n 59 12 + bits n 71 5 > ne || bits n 2 2 > 1 || bits n 57 2 == 3 ||
     bits n 13 5 > 16 || bits n 27 5 > 16 ||
     (nodeComputed n && !(inRange (bits n 93 4) 1 8 && bits n 90 3 + bits n 93 4 ≤ 8)) ||
     (!bit n 1 &&
       (bits n 32 11 + bits n 43 6 > nt || (bits n 57 2 == 0 && (!live (bits n 49 8) || (self && bits n 49 8 == i))) ||
        (nodeTrans g n).any fun t => !bit t 72 && (!live (bits t 64 8) || (self && bits t 64 8 == i))))))

/-- Whether a transition entry is used by a valid node that is not TERMINAL. -/
def transUsed (g : Graph) (nn i : Nat) : Bool :=
  (List.range nn).any fun k =>
    let n := nodeOf g k
    bit n 0 && !bit n 1 && bits n 32 11 ≤ i && i < bits n 32 11 + bits n 43 6

/-- Whether an extraction entry is used by a valid node. -/
def extUsed (g : Graph) (nn i : Nat) : Bool :=
  (List.range nn).any fun k =>
    let n := nodeOf g k
    bit n 0 && bits n 59 12 ≤ i && i < bits n 59 12 + bits n 71 5

/-- A transition entry that fails R144. -/
def badTrans (g : Graph) (nn i : Nat) : Bool :=
  let t := transOf g i
  bits t 80 16 != 0 || (transUsed g nn i && bits t 0 32 &&& bits t 32 32 != bits t 0 32)

/-- An extraction entry that fails R144. -/
def badExt (g : Graph) (nn i : Nat) : Bool :=
  let e := extOf g i
  bits e 20 12 != 0 ||
  (extUsed g nn i &&
    (bits e 0 2 == 3 || bits e 11 9 > 271 || parserOnly (bits e 11 9) ||
      (if bits e 0 2 == 2 then bits e 2 9 != 0 else bits e 32 32 != 0)))

/-- The first failing check of a parser section: its table and its entry (R144). -/
def parserSectionBad (b : Bytes) : Option (Nat × Nat) :=
  let nn := u16 b 4
  let nt := u16 b 6
  let ne := u16 b 8
  let g := parserGraph b
  if b.length < 16 || !inRange nn 1 256 || nt > 2048 || ne > 4096 || !zeroAt b 10 6 ||
      b.length != 16 + 16 * nn + 12 * nt + 8 * ne ||
      (g.start.any fun k => !(k < nn && bit (nodeOf g k) 0)) then some (0, 0)
  else
    match firstIdx nn (badNode g nn nt ne), firstIdx nt (badTrans g nn), firstIdx ne (badExt g nn) with
    | some i, _, _ => some (1, i)
    | _, some i, _ => some (2, i)
    | _, _, some i => some (3, i)
    | _, _, _ => none

end Sys2Proof.Machine
end

