-- ==== Sys2Proof/Machine/Mat.lean ====
section
/-!
DEFINITION. Match-action tables: descriptors, keys, lookups, the checks and writes of rule batches, and the retired view of
old-epoch frames (R149 to R161, R172 to R178, R183, R184).
-/

namespace Sys2Proof.Machine

/-! ### Stages and pipelines -/

/-- Stage `st` of pipeline `g`. -/
def matStage (s : State) (g st : Nat) : MatStage := tabGet {} s.mat.stages (32 * g + st)

/-- `s` with a stage set. -/
def setStage (g st : Nat) (v : MatStage) (s : State) : State :=
  modMat (fun t => { t with stages := tabSet {} (32 * g + st) v t.stages }) s

/-- `s` with a stage changed. -/
def modStage (g st : Nat) (f : MatStage → MatStage) (s : State) : State := setStage g st (f (matStage s g st)) s

/-! ### Descriptors (R153) -/

def descOf (v : MatStage) (slot : Nat) : Nat := tabGet 0 v.descs slot
def descValid (d : Nat) : Bool := bit d 0
/-- KIND: 0 EXACT, 1 TERNARY, 2 LPM, 3 FDB, 4 STEER. -/
def descKind (d : Nat) : Nat := bits d 1 3
/-- KEY_C0 to KEY_C5. -/
def descKey (d i : Nat) : Nat := bits d (4 + 9 * i) 9
def descWidth (d : Nat) : Nat := bits d 58 8
def descEntryBytes (d : Nat) : Nat := 16 * 2 ^ bits d 66 2
def descWays (d : Nat) : Nat := 2 ^ bits d 68 2
def descSeed (d : Nat) : Nat := bits d 70 3
def descWide (d : Nat) : Bool := bit d 73
def descMiss (d : Nat) : Nat := bits d 74 13
def descDataBits (d : Nat) : Nat := bits d 87 8
def descCounts (d : Nat) : Bool := bit d 95

/-- Whether a slot holds an EXACT, TERNARY or STEER table. -/
def slotTable (v : MatStage) (slot : Nat) : Bool :=
  let d := descOf v slot
  descValid d && (descKind d ≤ 1 || descKind d == 4)

/-- The indices of a map that name `slot`, ascending (R154). -/
def mapOwned (m : Bytes) (slot : Nat) : List Nat := (List.range m.length).filter fun i => u8 m i == slot

/-- The rows of one way of an EXACT slot (R156). -/
def wayRows (v : MatStage) (slot : Nat) : Nat :=
  let d := descOf v slot
  (mapOwned v.unitMap slot).length / descWays d * 65536 / descEntryBytes d

/-- The entries of a TERNARY or STEER slot (R157). -/
def ternSize (v : MatStage) (slot : Nat) : Nat :=
  let n := (mapOwned v.blockMap slot).length
  1024 * (if descWide (descOf v slot) then n / 2 else n)

/-! ### Keys and hashing (R155, R156) -/

/-- The width in bits of a container, metadata included. -/
def contBits (c : Nat) : Nat := if c < 272 then 8 * containerBytes c else 32

/-- Containers concatenated, the first most significant. -/
def joinConts (get : Nat → Nat) (cs : List Nat) : Nat := cs.foldl (fun a c => a * 2 ^ contBits c + get c) 0

/-- The used fragments among key fields `lo` to `hi - 1` of a descriptor. -/
def usedFragments (d lo n : Nat) : List Nat := ((List.range n).map fun i => descKey d (lo + i)).filter (· != 511)

/-- The key of an EXACT, TERNARY, STEER or LPM slot. -/
def slotKey (d : Nat) (v : Frame) : Nat := joinConts (contOf v) (usedFragments d 0 6) % 2 ^ descWidth d

/-- CRC-32C from an initial register value. -/
def crc32cFrom (init : Nat) (b : Bytes) : Nat :=
  (~~~ (b.foldl (crcByte 0x82F63B78#32) (BitVec.ofNat 32 init))).toNat

/-- The hash of a key in way `w` (R156). -/
def exactHash (d w key : Nat) : Nat :=
  crc32cFrom (0xFFFFFFFF ^^^ (descSeed d * 0x10000000) ^^^ (w * 0x01000000)) (toBe ((descWidth d + 7) / 8) key)

/-- The row of a key in way `w`. -/
def exactRowNo (v : MatStage) (slot w key : Nat) : Nat := exactHash (descOf v slot) w key % wayRows v slot

def exactKey (slot w row : Nat) : Nat := (slot * 4 + w) * 1048576 + row
def ternKey (slot idx : Nat) : Nat := slot * 1048576 + idx

/-! ### Lookups (R156 to R161) -/

/-- The way and row of an EXACT slot that hold a key. -/
def findExact (v : MatStage) (slot key : Nat) : Option (Nat × Nat × ExactRow) :=
  (List.range (descWays (descOf v slot))).findSome? fun w =>
    let r := exactRowNo v slot w key
    match tabFind v.exact (exactKey slot w r) with
    | some e => if e.key == key then some (w, r, e) else none
    | none => none

/-- The matching entry of a TERNARY or STEER slot with the lowest index (R161). -/
def findTern (v : MatStage) (slot key : Nat) : Option (Nat × TernRow) :=
  ((v.tern.filter fun e => e.1 / 1048576 == slot).find? fun e => key &&& e.2.mask == e.2.value).map
    fun e => (e.1 % 1048576, e.2)

/-- The codes under which rows of a stage are poisoned (R187): rows of exact-match units, ternary rows, result rows. -/
def exactCode (unit row : Nat) : Nat := unit * 4096 + row
def ternCode (block row : Nat) : Nat := 65536 + block * 1024 + row
def resultCode (block row : Nat) : Nat := 131072 + block * 1024 + row

/-- The unit and the row in it that hold row `r` of way `w` of an EXACT slot. -/
def exactPlace (v : MatStage) (slot w r : Nat) : Nat × Nat :=
  let d := descOf v slot
  let owned := mapOwned v.unitMap slot
  let per := 65536 / descEntryBytes d
  ((owned[w * (owned.length / descWays d) + r / per]?).getD 0, r % per)

/-- The block and row of an entry of a TERNARY or STEER slot; the even block's for a WIDE table. -/
def ternPlace (v : MatStage) (slot idx : Nat) : Nat × Nat :=
  let owned := mapOwned v.blockMap slot
  ((owned[(if descWide (descOf v slot) then 2 else 1) * (idx / 1024)]?).getD 0, idx % 1024)

/-- Whether a lookup of a slot reads a poisoned row (R187): any ternary row of its table is read, and the result row of a match. -/
def readsPoisoned (v : MatStage) (slot key : Nat) : Bool :=
  if v.poisoned.isEmpty then false
  else if descKind (descOf v slot) == 0 then
    (List.range (descWays (descOf v slot))).any fun w =>
      let (u, r) := exactPlace v slot w (exactRowNo v slot w key)
      v.poisoned.contains (exactCode u r)
  else
    (v.poisoned.any fun k => inRange k 65536 131071 && u8 v.blockMap ((k - 65536) / 1024) == slot) ||
    match findTern v slot key with
    | some (i, _) =>
      let (b, r) := ternPlace v slot i
      v.poisoned.contains (resultCode b r)
    | none => false

/-- The result of one slot for a frame, with its routine; the index of an EXACT entry is way × rows + row. -/
def slotLookup (v : MatStage) (slot : Nat) (f : Frame) : SlotResult × Nat :=
  let d := descOf v slot
  if !slotTable v slot then ({}, 0)
  else if descKind d == 0 then
    match findExact v slot (slotKey d f) with
    | some (w, r, e) => ({ hit := true, index := w * wayRows v slot + r, data := e.data }, e.routine)
    | none => ({}, 0)
  else
    match findTern v slot (slotKey d f) with
    | some (i, e) => ({ hit := true, index := i, data := e.data }, e.routine)
    | none => ({}, 0)

/-- The routine a stage selects (R160). -/
def selectRoutine (v : MatStage) (rs : List (SlotResult × Nat)) : Nat :=
  let at_ := fun slot => (rs[slot]?).getD ({}, 0)
  match firstIdx 8 fun slot => (at_ slot).1.hit && (at_ slot).2 != 0 with
  | some slot => (at_ slot).2
  | none =>
    match firstIdx 8 fun slot => slotTable v slot && !(at_ slot).1.hit && descMiss (descOf v slot) != 0 with
    | some slot => descMiss (descOf v slot)
    | none => 0

/-- The F6 fields of a STEER result row (R159): inspect_profile, sig_req, tree_req and tree. -/
def steerF6 (data : Nat) : Nat := bits data 10 8 + 256 * bits data 4 1 + 512 * bits data 5 1 + 1024 * bits data 6 4

/-- A hit's marks on its row: the HIT bit, and a STEER row's hit count. -/
def markHit (slot key : Nat) (v : MatStage) : MatStage :=
  if descKind (descOf v slot) == 0 then
    match findExact v slot key with
    | some (w, r, e) => { v with exact := tabPut (exactKey slot w r) { e with hit := true } v.exact }
    | none => v
  else
    match findTern v slot key with
    | some (i, e) => { v with tern := tabPut (ternKey slot i) { e with hit := true, hits := e.hits + 1 } v.tern }
    | none => v

/-- Whether this hit of a STEER row writes F6: every 2^sample_exp-th. -/
def steerFires (e : TernRow) : Bool := (e.hits + 1) % 2 ^ bits e.data 0 4 == 0

/-! ### Writes and the retired view (R173, R177, R178) -/

/-- The stage a write is for. -/
def writeStage : MatWrite → Nat
  | .exact st _ _ => st
  | .tern st _ _ => st

/-- One write to a stage. A row keeps the HIT bit its key or index had; a written STEER row counts its hits from zero. -/
def applyWrite (w : MatWrite) (v : MatStage) : MatStage :=
  match w with
  | .exact _ k none => { v with exact := tabDel k v.exact }
  | .exact _ k (some r) =>
    let old := v.exact.find? fun e => e.1 / 4194304 == k / 4194304 && e.2.key == r.key
    { v with exact := tabPut k { r with hit := match old with | some e => e.2.hit | none => false } v.exact }
  | .tern _ k none => { v with tern := tabDel k v.tern }
  | .tern _ k (some r) =>
    let hit := match tabFind v.tern k with | some e => e.hit | none => false
    { v with tern := tabPut k { r with hit, hits := 0 } v.tern }

/-- What puts back the content a write replaces. -/
def undoWrite (w : MatWrite) (v : MatStage) : MatWrite :=
  match w with
  | .exact st k _ => .exact st k (tabFind v.exact k)
  | .tern st k _ => .tern st k (tabFind v.tern k)

/-- The stage as a frame sees it: an old-epoch frame with the retired contents in place of the last part's (R178). -/
def stageSeen (s : State) (g st : Nat) (f : Frame) : MatStage :=
  let v := matStage s g st
  let p := matPipe s g
  match p.retired with
  | none => v
  | some ws => if f.epoch == p.epoch then v else (ws.filter fun w => writeStage w == st).foldl (fun v w => applyWrite w v) v

/-- Writes made to the stages of pipeline `g`, with what puts the replaced contents back, newest first. -/
def makeWrites (g : Nat) (ws : List MatWrite) (s : State) : List MatWrite × State :=
  ws.foldl (fun a w =>
    let st := writeStage w
    (undoWrite w (matStage a.2 g st) :: a.1, modStage g st (applyWrite w) a.2)) ([], s)

/-! ### The checks of a batch (R173) -/

def entryOp (b : Bytes) : Nat := u8 b 0
def entryStage (b : Bytes) : Nat := u8 b 1
def entrySlot (b : Bytes) : Nat := u8 b 2
def entryIndex (b : Bytes) : Nat := u32 b 4
def entryRoutine (b : Bytes) : Nat := u16 b 8
def entryKeyOf (b : Bytes) : Nat := field b 16 20
def entryMask (b : Bytes) : Nat := field b 36 20
def entryData (b : Bytes) : Nat := field b 56 16

/-- Places a key in an EXACT slot: in the lowest way with a free row, or by moving at most `fuel` resident keys, each to
another of its rows. The writes stand in an order that copies every moved key before its row is overwritten. -/
def placeExact (st slot : Nat) (v : MatStage) : Nat → ExactRow → List Nat → Option (List MatWrite)
  | fuel, e, busy =>
    let ways := List.range (descWays (descOf v slot))
    let at_ := fun w => exactKey slot w (exactRowNo v slot w e.key)
    match ways.find? fun w => (tabFind v.exact (at_ w)).isNone && !busy.contains (at_ w) with
    | some w => some [.exact st (at_ w) (some e)]
    | none =>
      match fuel with
      | 0 => none
      | k + 1 =>
        ways.findSome? fun w =>
          if busy.contains (at_ w) then none
          else
            match tabFind v.exact (at_ w) with
            | none => none
            | some old => (placeExact st slot v k old (at_ w :: busy)).map fun ws => ws ++ [.exact st (at_ w) (some e)]

/-- Places a key with as few moves as possible, at most 8 (R173). -/
def placeFewest (st slot : Nat) (v : MatStage) (e : ExactRow) : Option (List MatWrite) :=
  (List.range 9).findSome? fun n => placeExact st slot v n e []

/-- The checks of a RULE_ENTRY against its table that no session order changes (R156, R157, R172, R216): the offset of the field at
fault within the record (assumption 165) and its status. -/
def entryShape (v : MatStage) (b : Bytes) : Option (Nat × Status) :=
  let slot := entrySlot b
  let d := descOf v slot
  let kindExact := descKind d == 0
  if !slotTable v slot then some (2, .badarg)
  else if kindExact && entryIndex b != 0 then some (4, .badarg)
  else if !kindExact && entryIndex b ≥ ternSize v slot then some (4, .range)
  else if entryRoutine b > 8191 then some (8, .range)
  else if entryRoutine b != 0 && !v.entries.contains (entryRoutine b) then some (8, .badarg)
  else if entryKeyOf b ≥ 2 ^ descWidth d then some (16, .badarg)
  else if kindExact && entryMask b != 0 then some (36, .badarg)
  else if !kindExact && (entryKeyOf b &&& entryMask b != entryKeyOf b) then some (36, .badarg)
  else if entryData b ≥ 2 ^ descDataBits d then some (56, .badarg)
  else none

/-- The writes of one entry against the stage as the earlier entries leave it (R173). -/
def entryWrites (v : MatStage) (b : Bytes) : Except (Nat × Status) (List MatWrite) :=
  let st := entryStage b
  let slot := entrySlot b
  match entryShape v b with
  | some e => .error e
  | none =>
    if descKind (descOf v slot) == 0 then
      let row : ExactRow := { key := entryKeyOf b, routine := entryRoutine b, data := entryData b }
      match entryOp b, findExact v slot row.key with
      | 1, none => match placeFewest st slot v row with
        | some ws => .ok ws
        | none => .error (0xFFFF, .nores)
      | 2, some (w, r, _) => .ok [.exact st (exactKey slot w r) (some row)]
      | 3, some (w, r, _) => .ok [.exact st (exactKey slot w r) none]
      | _, _ => .error (0xFFFF, .state)
    else
      let k := ternKey slot (entryIndex b)
      let row : TernRow := { value := entryKeyOf b, mask := entryMask b, routine := entryRoutine b, data := entryData b }
      match entryOp b, tabFind v.tern k with
      | 1, none => .ok [.tern st k (some row)]
      | 2, some _ => .ok [.tern st k (some row)]
      | 3, some _ => .ok [.tern st k none]
      | _, _ => .error (0xFFFF, .state)

/-- Icoux's view of a pipeline's stages by stage number: a batch is checked against it entry by entry. -/
def checkEntries : Nat → List Bytes → Store MatStage → List (List MatWrite) →
    Except (Nat × Nat × Status) (Store MatStage × List (List MatWrite))
  | _, [], v, acc => .ok (v, acc.reverse)
  | n, b :: t, v, acc =>
    match entryWrites (tabGet {} v (entryStage b)) b with
    | .error e => .error (n, e)
    | .ok ws =>
      checkEntries (n + 1) t (tabMod {} (entryStage b) (fun m => ws.foldl (fun m w => applyWrite w m) m) v) (ws :: acc)

/-- A pipeline's stages as every committed part leaves them. -/
def stagesToBe (s : State) (g : Nat) : Store MatStage :=
  let now := (s.mat.stages.filter fun e => e.1 / 32 == g).map fun e => (e.1 % 32, e.2)
  ((matPipe s g).parts.flatMap fun p => p.writes).foldl (fun v w => tabMod {} (writeStage w) (applyWrite w) v) now

/-- The entries' writes in order, split into parts of at most 256, an entry's writes always in one part (R175). -/
def splitParts : List (List MatWrite) → List MatWrite → List (List MatWrite)
  | [], cur => if cur.isEmpty then [] else [cur]
  | ws :: t, cur =>
    if cur.length + ws.length > 256 then cur :: splitParts t ws else splitParts t (cur ++ ws)

/-! ### Descriptors and maps of an image (R154 to R159, R184) -/

/-- The regions of a table profile (R151): which units and blocks of a stage belong to the FDB or LPM, and whether the
stage has steering units and blocks. -/
def regionUnits (profile st : Nat) : Nat → Bool :=
  match profile with
  | 0 => fun u => inRange st 6 13 || (st == 15 && u < 8)
  | 1 => fun u => (st == 6 && u < 8) || inRange st 8 15
  | _ => fun u => inRange st 6 7 || inRange st 9 10 || ((st == 2 || st == 3) && u < 8)

def regionBlocks (profile st : Nat) : Nat → Bool :=
  match profile with
  | 0 => fun b => st == 14 && b < 2
  | 1 => fun _ => inRange st 7 14
  | _ => fun _ => st == 8

/-- Whether a stage is in the INSPECT steering region. -/
def steering (profile st : Nat) : Bool := profile == 2 && (st == 2 || st == 3)

/-- The first stage of the FDB region, of the LPM pivots, and the stages from which their results are seen (R151). -/
def fdbStage (_profile : Nat) : Nat := 6
def fdbResultStage (profile : Nat) : Nat := match profile with | 0 => 14 | 1 => 7 | _ => 8
def lpmStage (profile : Nat) : Nat := match profile with | 0 => 14 | 1 => 7 | _ => 8
def lpmResultStage (profile : Nat) : Nat := match profile with | 2 => 11 | _ => 16

/-- Whether the used fragments of a group come first. -/
def fragmentsFirst (d lo n : Nat) : Bool :=
  let l := (List.range n).map fun i => descKey d (lo + i)
  (l.dropWhile (· != 511)).all (· == 511)

/-- The total width of the used fragments of a group. -/
def fragmentsWidth (d lo n : Nat) : Nat := ((usedFragments d lo n).map contBits).foldl (· + ·) 0

/-- A descriptor of slot `slot` that fails R153 to R159, R221 or R246. -/
def badDesc (profile st slot : Nat) (v : MatStage) : Bool :=
  let d := descOf v slot
  let k := descKind d
  let units := (mapOwned v.unitMap slot).length
  let blocks := mapOwned v.blockMap slot
  let w := descWidth d
  bits d 96 32 != 0 ||
  if !descValid d then units != 0 || !blocks.isEmpty
  else
    k > 4 || !inRange w 1 160 || descDataBits d > 128 ||
    ((List.range 6).any fun i => inRange (descKey d i) 304 510) ||
    (if k == 3 then !(fragmentsFirst d 0 3 && fragmentsFirst d 3 3) || w > fragmentsWidth d 0 3 || w > fragmentsWidth d 3 3
     else !fragmentsFirst d 0 6 || w > fragmentsWidth d 0 6) ||
    (k != 0 && (bits d 66 2 != 0 || bits d 68 2 != 0 || bits d 70 3 != 0)) ||
    (k != 1 && k != 4 && descWide d) ||
    match k with
    | 0 => bits d 66 2 == 3 || bits d 68 2 == 3 || units == 0 || !blocks.isEmpty || units % descWays d != 0 ||
        !isPow2 (units / descWays d) || 16 + w + descDataBits d > 8 * descEntryBytes d
    | 2 => st != lpmStage profile || slot != 7 || units != 0 || !blocks.isEmpty || w != 144 || descMiss d != 0 || descDataBits d != 0
    | 3 => st != fdbStage profile || slot != 7 || units != 0 || !blocks.isEmpty || w != 60 || descMiss d != 0 || descDataBits d != 0
    | _ =>
      units != 0 || blocks.isEmpty || descDataBits d > 112 || w > (if descWide d then 160 else 80) ||
      (k == 4 && !steering profile st) || (k == 1 && steering profile st) ||
      (descWide d && !(blocks.all fun b => blocks.contains (if b % 2 == 0 then b + 1 else b - 1)))

/-- A unit or block map that fails R154. -/
def badMaps (profile st : Nat) (v : MatStage) : Bool :=
  ((List.range 16).any fun u =>
    let o := u8 v.unitMap u
    (regionUnits profile st u != (o == 0xFE)) || !(o < 8 || o == 0x80 || o == 0xFE || o == 0xFF)) ||
  (List.range 4).any fun b =>
    let o := u8 v.blockMap b
    (regionBlocks profile st b != (o == 0xFE)) || !(o < 8 || o == 0xFE || o == 0xFF) ||
    (steering profile st && o < 8 && descKind (descOf v o) != 4)

/-- A stage from a STAGE_TABLES section (R183). -/
def stageFromTables (b : Bytes) (v : MatStage) : MatStage :=
  { v with
    descs := (List.range 8).foldl (fun t i => tabSet 0 i (field b (16 * i) 16) t) []
    unitMap := slice b 128 16
    blockMap := slice b 144 4 }

/-- Whether a STAGE_TABLES section is well formed for a stage (R153 to R159, R183, R184). -/
def stageTablesBad (profile st : Nat) (b : Bytes) : Bool :=
  let v := stageFromTables b {}
  b.length != 160 || !zeroAt b 148 12 || badMaps profile st v || (List.range 8).any fun slot => badDesc profile st slot v

end Sys2Proof.Machine
end

