-- ==== Sys2Proof/Machine/Act.lean ====
section
/-!
DEFINITION. The action engines: contexts, microwords, nanowords, stateful memory, commit, abandonment, the checks of their
stores and their faults (chapter 07).
-/

namespace Sys2Proof.Machine

/-! ### Contexts and counters -/

/-- Context `k` of a stage, if a routine holds it. -/
def ctxOf (s : State) (g st k : Nat) : Option Ctx := tabFind (matStage s g st).ctxs k

/-- `s` with context `k` set. -/
def setCtx (g st k : Nat) (c : Ctx) (s : State) : State := modStage g st (fun v => { v with ctxs := tabPut k c v.ctxs }) s

/-- Adds to an action-engine counter of the stage and of its pipeline (R217). -/
def countAct (i g st n : Nat) (s : State) : State := count (cAct 3 i) (32 * g + st) n (count (cAct 2 i) g n s)

/-- The lowest free context of a stage (R190). -/
def freeCtx (v : MatStage) : Option Nat := firstIdx 64 fun k => (tabFind v.ctxs k).isNone

/-! ### Locks (R207) -/

/-- The lock of a row. -/
def lockOf (v : MatStage) (row : Nat) : RowLock := tabGet {} v.locks row

/-- A stage with the lock of a row set. -/
def setLock (row : Nat) (l : RowLock) (v : MatStage) : MatStage := { v with locks := tabSet {} row l v.locks }

/-- A stage after context `k` gives up the lock it holds or waits for. -/
def releaseLock (k : Nat) (c : Ctx) (v : MatStage) : MatStage :=
  match c.lockRow with
  | none => v
  | some r =>
    let l := lockOf v r
    setLock r { holder := if l.holder == some k then none else l.holder, waiters := l.waiters.filter (· != k) } v

/-! ### Abandonment (R204, R205, R207, R210) -/

/-- Context `k` is abandoned: its buffer and results are discarded, its lock released, its frame dropped. -/
def abandon (g st k reason : Nat) (info : CopyInfo) (s : State) : State :=
  match ctxOf s g st k with
  | none => s
  | some c =>
    dropFrame c.frame reason info
      (modStage g st (fun v => let w := releaseLock k c v; { w with ctxs := tabDel k w.ctxs }) s)

/-- A program error: counted, logged once a second for its cause, the frame dropped with ACTION_DROP. Causes: 1 lock,
2 overflow, 3 address (R219). -/
def routineError (g st k cause : Nat) (s : State) : State :=
  let idx := match cause with | 1 => 6 | 2 => 7 | _ => 8
  abandon g st k 0x18 {} (kilnOnce 0x0614 (4 * g + cause) [(1, g), (1, st), (1, cause)] (countAct idx g st 1 s))

/-! ### Stateful memory (R204, R206) -/

/-- The rows of a stage's STATE space: 4,096 for each 0x80 unit. -/
def stateRows (v : MatStage) : Nat := 4096 * (mapOwned v.unitMap 0x80).length

/-- The rows of a quadrant's counter bank that programs address. -/
abbrev cbankRows : Nat := 1048576

/-- A word of a STATE row. -/
def stateWord (v : MatStage) (row w : Nat) : Nat := tabGet 0 v.state (2 * row + w)

/-- A stage with a word of a STATE row set. -/
def setStateWord (row w x : Nat) (v : MatStage) : MatStage :=
  { v with state := tabSet 0 (2 * row + w) (x % 2 ^ 64) v.state }

/-- The counter of a word of a counter-bank row. -/
def cCbank (w : Nat) : Counter := ⟨16, 11, w⟩

/-- One deferred operation on a STATE row (R201). -/
def applyStateOp (o : MemOp) (v : MatStage) : MatStage :=
  let x := stateWord v o.row o.word
  let d := o.data2 * 4294967296 + o.data
  match o.op with
  | 3 => setStateWord o.row o.word d v
  | 4 => setStateWord o.row o.word (x + o.data) v
  | 5 => setStateWord o.row 1 (stateWord v o.row 1 + o.data2) (setStateWord o.row 0 (stateWord v o.row 0 + o.data) v)
  | 6 => setStateWord o.row o.word (min (x + o.data) (2 ^ 64 - 1)) v
  | 7 => setStateWord o.row o.word (x ||| d) v
  | _ => setStateWord o.row o.word (x &&& (2 ^ 64 - 1 - d)) v

/-- One deferred operation at commit (R206): on a STATE row or on the counter bank of the pipeline's quadrant. -/
def applyMemOp (g st : Nat) (o : MemOp) (s : State) : State :=
  if o.space == 0 then modStage g st (applyStateOp o) s
  else
    let row := 1048576 * quadOfPipe g + o.row
    if o.op == 5 then count (cCbank 1) row o.data2 (count (cCbank 0) row o.data s) else count (cCbank o.word) row o.data s

/-! ### Operands (R193) -/

/-- The value of a container as the routine sees it: its buffered value or the committed one. -/
def ctxCont (c : Ctx) (f : Frame) (n : Nat) : Nat := tabGet (contOf f n) c.writes n

/-- The result of a slot for the frame. -/
def slotOfFrame (f : Frame) (n : Nat) : SlotResult := (f.slots[n]?).getD {}

/-- The frame length that selector 390 reads: a free value while the frame still arrives, for its end is not yet known (assumption
166). -/
def lengthSeen (f : Frame) (s : State) : Nat × State :=
  if f.ended then (f.data.length, s) else ((takeFree s).1 % 2 ^ 32, (takeFree s).2)

/-- The value of an operand selector; `len` is the frame's length. -/
def operand (g st : Nat) (c : Ctx) (f : Frame) (imm len : Nat) (x : Nat) : Nat :=
  if x < 304 then ctxCont c f x % 2 ^ 32
  else if x < 320 then ctxCont c f (256 + (x - 304)) / 2 ^ 32
  else if x < 336 then tabGet 0 c.g (x - 320)
  else if x == 336 then imm
  else if x == 337 then ofSigned 32 (toSigned 12 imm)
  else if x < 346 then
    let r := slotOfFrame f (x - 338)
    r.index % 2 ^ 17 + 2 ^ 31 * b2n r.hit
  else if inRange x 350 381 then bits (slotOfFrame f ((x - 350) / 4)).data (32 * ((x - 350) % 4)) 32
  else if inRange x 382 389 then bits (tabGet 0 c.t ((x - 382) / 2)) (32 * ((x - 382) % 2)) 32
  else if x == 390 then len
  else if x == 391 then st + 256 * g
  else 0

/-- Whether a container's writes by routines are discarded (R163). -/
def readOnlyCont (n : Nat) : Bool := inRange n 295 303 || parserOnly n

/-- A context with a container's value buffered. -/
def bufferCont (n x : Nat) (c : Ctx) : Ctx := { c with writes := tabPut n (x % 2 ^ contBits n) c.writes }

/-- One write of a nanoword: the context after it, and whether it was discarded. -/
def writeDest (f : Frame) (dst x : Nat) (c : Ctx) : Ctx × Bool :=
  if dst < 304 then
    if readOnlyCont dst then (c, true)
    else if inRange dst 256 271 then (bufferCont dst (ctxCont c f dst / 2 ^ 32 * 2 ^ 32 + x) c, false)
    else (bufferCont dst x c, false)
  else if dst < 320 then
    let n := 256 + (dst - 304)
    (bufferCont n (ctxCont c f n % 2 ^ 32 + x * 2 ^ 32) c, false)
  else if dst < 336 then ({ c with g := tabSet 0 (dst - 320) (x % 2 ^ 32) c.g }, false)
  else (c, false)

/-! ### The ALUs and the hash unit (R198, R202) -/

/-- The flags a word sets. -/
structure AluFlags where
  z : Bool
  n : Bool
  c : Bool
  v : Bool

/-- Signed overflow of A + B and of A − B. -/
def addOverflow (a b : Nat) : Bool :=
  let r := toSigned 32 a + toSigned 32 b
  !inRangeI r (-2147483648) 2147483647
def subOverflow (a b : Nat) : Bool :=
  let r := toSigned 32 a - toSigned 32 b
  !inRangeI r (-2147483648) 2147483647

/-- An ALU operation: its result, C and V (R198). -/
def aluOp (op a b sh w : Nat) (z : Bool) : Nat × Bool × Bool :=
  let m := 2 ^ 32
  match op with
  | 1 => (a, false, false)
  | 2 => ((a + b) % m, decide (a + b ≥ m), addOverflow a b)
  | 3 | 13 => ((a + m - b) % m, decide (b ≤ a), subOverflow a b)
  | 4 => (a &&& b, false, false)
  | 5 => (a ||| b, false, false)
  | 6 => (a ^^^ b, false, false)
  | 7 => (a * 2 ^ sh % m, false, false)
  | 8 => (a / 2 ^ sh, false, false)
  | 9 => (a / 2 ^ sh % 2 ^ w, false, false)
  | 10 => (setBits a sh w b, false, false)
  | 11 => (min a b, false, false)
  | 12 => (max a b, false, false)
  | 14 => (if z then a else b, false, false)
  | 15 => (min (a + b) (m - 1), decide (a + b ≥ m), addOverflow a b)
  | _ => (0, false, false)

/-- An ALU lane (R197): what it writes, if anything, and the flags it sets, if any. -/
def aluLane (get : Nat → Nat) (z : Bool) (l : Nat) : Option (Nat × Nat) × Option AluFlags :=
  let op := bits l 0 5
  if op == 0 then (none, none)
  else
    let w := if bits l 40 6 == 0 then 32 else bits l 40 6
    let (r, c, v) := aluOp op (get (bits l 5 10)) (get (bits l 15 10)) (bits l 35 5) w z
    (if bits l 25 10 == 1023 then none else some (bits l 25 10, r),
     if bit l 46 then some { z := r == 0, n := bit r 31, c, v } else none)

/-- The hash lane (R202). -/
def hashLane (get : Nat → Nat) (l : Nat) : Option (Nat × Nat) :=
  let srcs := ([bits l 4 10, bits l 14 10, bits l 24 10, bits l 34 10]).filter (· != 1023)
  let b := srcs.flatMap fun x => toBe 4 (get x)
  match bits l 0 4 with
  | 1 => some (bits l 44 10, crc32c b)
  | 2 => some (bits l 44 10, b.foldl crc16Byte 0xFFFF)
  | _ => none

/-! ### The memory port (R200, R201, R204, R205) -/

/-- What a memory lane does to its routine. -/
inductive MemResult
  | ok (c : Ctx) (v : MatStage) (lockWait : Bool)
  | error (cause : Nat)

/-- The memory lane of a nanoword, with operands read at the start of the word. -/
def memLane (k : Nat) (get : Nat → Nat) (l : Nat) (c : Ctx) (v : MatStage) : MemResult :=
  let op := bits l 0 4
  if op == 0 then .ok c v false
  else
    let tag := bits l 4 2
    let row := get (bits l 6 10) + bits l 16 16
    let space := bits l 52 4
    let w := bits l 56 1
    if row ≥ (if space == 0 then stateRows v else cbankRows) then .error 3
    else if op == 1 then .ok { c with outstanding := tabPut tag (some (stateWord v row w)) c.outstanding } v false
    else if op == 2 then
      if c.lockRow.isSome then .error 1
      else
        let k' := lockOf v row
        let free := k'.holder.isNone && k'.waiters.isEmpty
        let c' := { c with lockRow := some row, lockTag := tag, lockWord := w,
                           outstanding := tabPut tag (if free then some (stateWord v row w) else none) c.outstanding }
        .ok c' (setLock row (if free then { holder := some k } else { k' with waiters := k'.waiters ++ [k] }) v) (!free)
    else if c.deferred.length ≥ 16 then .error 2
    else .ok { c with deferred := c.deferred ++
      [{ op, space, row, word := w, data := get (bits l 32 10), data2 := get (bits l 42 10) }] } v false

/-! ### One word (R195, R199) -/

/-- The nanoword of a stage at an address, lane by lane. -/
def nanoLane (v : MatStage) (addr lane : Nat) : Nat := bits (tabGet 0 v.nano addr) (64 * lane) 64

/-- Executes a nanoword for context `k` with immediate `imm`: the state after it, or the cause of its abandonment. -/
def runNano (g st k addr imm : Nat) (c : Ctx) (s : State) : Except Nat (Ctx × State) :=
  let v := matStage s g st
  let f := frameOf s c.frame
  let get := operand g st c f imm (lengthSeen f s).1
  let (w0, f0) := aluLane get c.z (nanoLane v addr 0)
  let (w1, f1) := aluLane get c.z (nanoLane v addr 1)
  let wh := hashLane get (nanoLane v addr 3)
  let c0 : Ctx := match f1.or f0 with
    | some x => { c with z := x.z, n := x.n, c := x.c, v := x.v }
    | none => c
  let (c1, ro) := ([w0, w1, wh].filterMap id).foldl (fun (a : Ctx × Nat) w =>
    let (c', d) := writeDest f w.1 w.2 a.1
    (c', a.2 + b2n d)) (c0, 0)
  let s0 := (lengthSeen f s).2
  let s1 := if ro == 0 then s0 else count cMatRoWrites g ro s0
  if c1.writes.length > 32 then .error 2
  else
    match memLane k get (nanoLane v addr 2) c1 v with
    | .error cause => .error cause
    | .ok c2 v' waits =>
      let s2 := modStage g st (fun _ => v') s1
      .ok (c2, spendPipe g 0 3 1 (countAct 1 g st 1 (if waits then countAct 4 g st 1 s2 else s2)))

/-- Whether a branch condition holds (R195). -/
def branchHolds (c : Ctx) (f : Frame) (cond : Nat) : Bool :=
  match cond with
  | 0 => true
  | 1 => c.z
  | 2 => c.n
  | 3 => c.c
  | 4 => c.n != c.v
  | 5 => f.slots.any fun r => r.hit
  | 14 => bits (ctxCont c f 288) 16 8 != 0
  | n => (slotOfFrame f (n - 6)).hit

/-- Whether a wait condition holds (R203). -/
def waitHolds (s : State) (g st : Nat) (c : Ctx) (cond tag : Nat) : Bool :=
  match cond with
  | 0 => (tabFind c.outstanding tag).isNone
  | 1 => c.outstanding.isEmpty
  | _ =>
    let p := (frameOf s c.frame).port
    !(matStage s g st).ctxs.any fun e => e.2.frame < c.frame && (frameOf s e.2.frame).port == p

/-- The microword at an address of a stage. -/
def microOf (v : MatStage) (pc : Nat) : Nat := tabGet 0 v.micro pc

/-- Executes the microword at the context's counter, its condition to execute already met. -/
def runMicro (g st k : Nat) (c : Ctx) (s : State) : State :=
  let w := microOf (matStage s g st) c.pc
  let fmt := bits w 0 2
  let f := frameOf s c.frame
  let imm := if fmt == 0 || fmt == 3 then bits w 12 12 else 0
  let next := if fmt == 1 && (branchHolds c f (bits w 12 4) != bit w 16) then c.pc + bits w 17 6 else c.pc + 1
  match runNano g st k (bits w 2 10) imm c s with
  | .error cause => routineError g st k cause s
  | .ok (c1, s1) =>
    setCtx g st k { c1 with pc := if fmt == 3 then c.pc else next, phase := if fmt == 3 then .ending else .running } s1

/-! ### Parity (R210, R211) -/

/-- The key of a word of a store: 0 microstore, 1 nanostore. -/
def wordKey (store addr : Nat) : Nat := 65536 * store + addr

/-- A word found bad: fault bit 20 or 21, MACHINE_CHECK logged once, the store's need of a whole reload judged. -/
def wordBad (g st store addr : Nat) (s : State) : State :=
  let v := matStage s g st
  let key := wordKey store addr
  let fresh := !v.faults.bad.contains key
  let errs := (key, s.now) :: v.faults.errors.filter fun e => s.now < e.2 + tSec
  let again := match tabFind v.faults.repaired key with | some t => decide (s.now < t + tSec) | none => false
  let many := (errs.filter fun e => e.1 / 65536 == store).length ≥ 4
  let s1 := if fresh then
      modStage g st (fun v => { v with faults := { v.faults with
        bad := key :: v.faults.bad, errors := errs,
        whole := if (again || many) && !v.faults.whole.contains store then store :: v.faults.whole else v.faults.whole } }) s
    else s
  detect (20 + store) 6 (32 * g + st) (fun inj s =>
    if fresh then kilnInj inj 0x0610 [(1, g), (1, st), (1, store), (4, addr)] s else s) s1

/-- The drop record's detail for a machine check (R388). -/
def machineCheckInfo (st store addr : Nat) : CopyInfo := { detail := st + 256 * store + 65536 * addr }

/-- A context that fetches a bad word is abandoned with MACHINE_CHECK (R210). -/
def machineCheck (g st k store addr : Nat) (s : State) : State :=
  abandon g st k 0x1B (machineCheckInfo st store addr) (countAct 5 g st 1 (wordBad g st store addr s))

/-- The bad word that context `c` would fetch, if any. -/
def fetchBad (v : MatStage) (c : Ctx) : Option (Nat × Nat) :=
  if v.faults.bad.isEmpty then none
  else if v.faults.bad.contains (wordKey 0 c.pc) then some (0, c.pc)
  else
    let n := bits (microOf v c.pc) 2 10
    if v.faults.bad.contains (wordKey 1 n) then some (1, n) else none

/-! ### Events -/

/-- Whether a pipeline's engines issue: not while a quiesce runs (R177, R208). -/
def engineIssues (s : State) (g : Nat) : Bool := !pipeStill s g

/-- ROUTINE_ISSUE (R190): the frame takes the lowest free context; with none free it waits, and the clock is counted. -/
def execRoutineIssue (u : Nat) (s : State) : Host.Outcome State Fault Refusal :=
  let f := frameOf s u
  let g := f.pipe
  if f.place != .issue || !engineIssues s g then .next s
  else
    match freeCtx (matStage s g f.stage) with
    | none => .next (countAct 3 g f.stage 1 s)
    | some k =>
      .next (setCtx g f.stage k { frame := u, pc := f.routine } (modFrame u (fun f => { f with place := .running }) s))

/-- The tag that the memory lane of the word at `pc` uses, if it makes a request (R201). -/
def wordTag (v : MatStage) (pc : Nat) : Option Nat :=
  let l := nanoLane v (bits (microOf v pc) 2 10) 2
  if bits l 0 4 == 1 || bits l 0 4 == 2 then some (bits l 4 2) else none

/-- Whether the word's request finds its tag free. -/
def tagFree (v : MatStage) (c : Ctx) : Bool :=
  match wordTag v c.pc with
  | none => true
  | some t => (tabFind c.outstanding t).isNone

/-- MICROWORD_EXECUTE (R195, R201, R203): context `k` executes its next word, after `stalled` clocks of waiting for its tag;
a WAIT word whose condition does not hold suspends the context. -/
def execMicrowordExecute (g : Pipe) (st : StageNo) (k : Fin 64) (stalled : Nat) (s : State) :
    Host.Outcome State Fault Refusal :=
  match ctxOf s g.val st.val k.val with
  | none => .next s
  | some c =>
    let v := matStage s g.val st.val
    if c.phase != .running then .next s
    else
      match fetchBad v c with
      | some (store, addr) => .next (machineCheck g.val st.val k.val store addr s)
      | none =>
        let w := microOf v c.pc
        if bits w 0 2 == 2 && !waitHolds s g.val st.val c (bits w 12 4) (bits w 16 2) then
          .next (setCtx g.val st.val k.val { c with phase := .waiting } s)
        else if !tagFree v c then .next s
        else .next (runMicro g.val st.val k.val c (countAct 2 g.val st.val stalled s))

/-- MEMORY_RESULT_RETURN (R201): the result on a tag returns 4 clocks after its issue or grant. -/
def execMemoryResultReturn (g : Pipe) (st : StageNo) (k : Fin 64) (tag : Fin 4) (s : State) :
    Host.Outcome State Fault Refusal :=
  match ctxOf s g.val st.val k.val with
  | none => .next s
  | some c =>
    match tabFind c.outstanding tag.val with
    | some (some x) =>
      .next (setCtx g.val st.val k.val
        { c with outstanding := tabDel tag.val c.outstanding, t := tabSet 0 tag.val x c.t } s)
    | _ => .next s

/-- LOCK_GRANTED (R207): the first waiter is granted its free row's lock and reads the row. -/
def execLockGranted (g : Pipe) (st : StageNo) (k : Fin 64) (s : State) : Host.Outcome State Fault Refusal :=
  match ctxOf s g.val st.val k.val with
  | none => .next s
  | some c =>
    match c.lockRow with
    | none => .next s
    | some row =>
      let v := matStage s g.val st.val
      let l := lockOf v row
      if l.holder.isNone && l.waiters.head? == some k.val then
        let c' := { c with outstanding := tabPut c.lockTag (some (stateWord v row c.lockWord)) c.outstanding }
        .next (setCtx g.val st.val k.val c'
          (modStage g.val st.val (setLock row { holder := some k.val, waiters := l.waiters.tail }) s))
      else .next s

/-- WAIT_RESUME (R203, R208): the condition of a suspended word holds and the word executes, after `clocks` of waiting. -/
def execWaitResume (g : Pipe) (st : StageNo) (k : Fin 64) (clocks : Nat) (s : State) : Host.Outcome State Fault Refusal :=
  match ctxOf s g.val st.val k.val with
  | none => .next s
  | some c =>
    let v := matStage s g.val st.val
    let w := microOf v c.pc
    if c.phase != .waiting || !engineIssues s g.val || !waitHolds s g.val st.val c (bits w 12 4) (bits w 16 2) then .next s
    else
      match fetchBad v c with
      | some (store, addr) => .next (machineCheck g.val st.val k.val store addr s)
      | none =>
        if !tagFree v c then .next s
        else .next (runMicro g.val st.val k.val { c with phase := .running } (countAct 2 g.val st.val clocks s))

/-- ROUTINE_COMMIT (R206): at END, with no request outstanding after `clocks` of waiting, everything takes effect at once. -/
def execRoutineCommit (g : Pipe) (st : StageNo) (k : Fin 64) (clocks : Nat) (s : State) :
    Host.Outcome State Fault Refusal :=
  match ctxOf s g.val st.val k.val with
  | none => .next s
  | some c =>
    if c.phase != .ending || !c.outstanding.isEmpty then .next s
    else
      let s1 := modFrame c.frame (fun f =>
        { f with hdr := c.writes.foldl (fun h e => tabSet 0 e.1 e.2 h) f.hdr, place := .sequenced }) s
      let s2 := c.deferred.foldl (fun s o => applyMemOp g.val st.val o s) s1
      let s3 := modStage g.val st.val (fun v =>
        let w := releaseLock k.val c v
        { w with ctxs := tabDel k.val w.ctxs }) s2
      .next (countAct 2 g.val st.val clocks (countAct 0 g.val st.val 1 s3))

/-- ACT_MICRO (R210, R218): a microword fails parity, at the fetch of context `k` or in the scan. -/
def execActMicro (g : Pipe) (st : StageNo) (addr : Fin 8192) (k : Option (Fin 64)) (s : State) :
    Host.Outcome State Fault Refusal :=
  match k with
  | none => .next (wordBad g.val st.val 0 addr.val s)
  | some k =>
    match ctxOf s g.val st.val k.val with
    | none => .next s
    | some c => .next (if c.pc == addr.val then machineCheck g.val st.val k.val 0 addr.val s else s)

/-- ACT_NANO (R210, R218): as ACT_MICRO, for a nanoword. -/
def execActNano (g : Pipe) (st : StageNo) (addr : Fin 1024) (k : Option (Fin 64)) (s : State) :
    Host.Outcome State Fault Refusal :=
  match k with
  | none => .next (wordBad g.val st.val 1 addr.val s)
  | some k =>
    match ctxOf s g.val st.val k.val with
    | none => .next s
    | some c =>
      .next (if bits (microOf (matStage s g.val st.val) c.pc) 2 10 == addr.val
        then machineCheck g.val st.val k.val 1 addr.val s else s)

/-- ACT_CONTEXT (R218): a context's registers, buffer or lock fail; the routine is abandoned. -/
def execActContext (g : Pipe) (st : StageNo) (k : Fin 64) (s : State) : Host.Outcome State Fault Refusal :=
  match ctxOf s g.val st.val k.val with
  | none => .next s
  | some c =>
    .next (detect 22 6 (32 * g.val + st.val) (fun _ s =>
      abandon g.val st.val k.val 0x1B (machineCheckInfo st.val 0 c.pc) s) s)

/-- ACT_HANG (R203, R218): a wait has lasted 4,096 clocks. -/
def execActHang (g : Pipe) (st : StageNo) (k : Fin 64) (s : State) : Host.Outcome State Fault Refusal :=
  match ctxOf s g.val st.val k.val with
  | none => .next s
  | some c =>
    let stuck := c.phase == .waiting || (c.phase == .ending && !c.outstanding.isEmpty)
    if !stuck then .next s
    else .next (detect 23 6 (32 * g.val + st.val) (fun inj s =>
      abandon g.val st.val k.val 0x1B (machineCheckInfo st.val 0 c.pc)
        (kilnInj inj 0x0612 [(1, g.val), (1, st.val), (2, k.val), (4, c.pc)]
          (countAct 2 g.val st.val 4096 (countAct 9 g.val st.val 1 s)))) s)

/-- STORE_RELOAD (R211): a bad word is repaired, or, with no address, a whole store is reloaded. -/
def execStoreReload (g : Pipe) (st : StageNo) (store : Fin 2) (addr : Option (Fin 8192)) (s : State) :
    Host.Outcome State Fault Refusal :=
  let f := (matStage s g.val st.val).faults
  match addr with
  | some a =>
    let key := wordKey store.val a.val
    if !f.bad.contains key || f.whole.contains store.val then .next s
    else .next (kiln 0x0611 [(1, g.val), (1, st.val), (1, store.val), (1, 1)]
      (modStage g.val st.val (fun v => { v with faults := { f with
        bad := f.bad.filter (· != key), repaired := tabPut key s.now f.repaired } }) s))
  | none =>
    if !f.whole.contains store.val then .next s
    else .next (kiln 0x0611 [(1, g.val), (1, st.val), (1, store.val), (1, 2)]
      (modStage g.val st.val (fun v => { v with faults := { f with
        bad := f.bad.filter fun k => k / 65536 != store.val, whole := f.whole.filter (· != store.val)
        errors := f.errors.filter fun e => e.1 / 65536 != store.val } }) s))

/-- The unit of a STATE row: the unit of its rank among the 0x80 units (R204). -/
def stateUnit (v : MatStage) (row : Nat) : Nat := ((mapOwned v.unitMap 0x80)[row / 4096]?).getD 0

/-- STATE_ROW_RESET (R212): a STATE row read with an uncorrectable error drops the frame of context `k` and is reset. -/
def execStateRowReset (g : Pipe) (st : StageNo) (row : Nat) (k : Option (Fin 64)) (s : State) :
    Host.Outcome State Fault Refusal :=
  let v := matStage s g.val st.val
  if row ≥ stateRows v then .next s
  else .next (detect 14 6 (32 * g.val + st.val) (fun inj s =>
    let s1 := match k with
      | some k => abandon g.val st.val k.val 0x1A { detail := 14 } (count cMatIntegrity g.val 1 s)
      | none => s
    let s2 := modStage g.val st.val (fun v =>
      setStateWord row 1 (tabGet 0 v.stateInit (2 * row + 1)) (setStateWord row 0 (tabGet 0 v.stateInit (2 * row)) v)) s1
    kilnInj inj 0x0613 [(1, g.val), (1, st.val), (1, stateUnit v row), (4, row % 4096)]
      (countAct 10 g.val st.val 1 s2)) s)

end Sys2Proof.Machine
end

