-- ==== Sys2Proof/Machine/Admission.lean ====
section
/-!
DEFINITION. Transfers on the mesh and at the admission unit, multicast replication, and the faults of mesh and switching core
(R288 to R289, R309 to R311, R321 to R322, R335).
-/

namespace Sys2Proof.Machine

/-! ### Admission of a transfer (R286 to R289, R321, R327) -/

/-- Whether a frame of class `c` is lossless (R286). -/
def framelossless (s : State) (v : Frame) (c : Nat) : Bool :=
  v.source != 2 && v.mirrorOf.isNone && (flowMode s v.port == 1 || (flowMode s v.port == 2 && bit (flowMask s v.port) c))

/-- Whether a copy may be sent before its frame is complete, as far as its admission decides it (R317). -/
def cutThroughAllowed (s : State) (v : Frame) (t : Transfer) (p : Nat) : Bool :=
  portCutThrough s p && !bit (metaF v 3) 2 && v.source == 0 && !v.reassembled && t.via.isNone && transferTrunc s t == 0 &&
    portSpeed s v.port ≥ portSpeed s p

/-- The leaf that a frame's copy joins in a divided queue (R360). -/
def leafOf (s : State) (v : Frame) (n : Nat) : Option Nat :=
  (extQueue s n).map fun o => (if u8 o 3 == 1 then metaF v 5 else v.port) % max 1 (leafCount o)

/-- Whether new copies for port `p` are taken: ACTIVE or in hold (R327). -/
def portTakes (s : State) (p : Nat) : Bool := portActive s p || (tabFind s.sw.hold p).isSome

/-- The copy of transfer `t` for queue `k` of port `p`. -/
def copyFor (s : State) (t : Transfer) (p k : Nat) : Copy :=
  let v := frameOf s t.frame
  let mirror := match t.dest with | .mirror i _ _ => some i | _ => v.mirrorOf
  let exp := transferExporter t
  let plain := mirror.isNone && exp.isNone
  { frame := t.frame, quad := t.dst, port := p, queue := k, leaf := leafOf s v (queueNo p k), cls := t.cls, colour := t.colour
    lossless := plain && framelossless s v t.cls, ingress := if plain && v.source != 2 then some v.port else none
    mirror, exporter := exp, trunc := transferTrunc s t, cutThrough := cutThroughAllowed s v t p }

/-- Admits one copy of a transfer, with the egress mirror copies it brings about (R324). `chain` as in admitCopy. -/
def admitMember (t : Transfer) (a : Option (List Nat) × State) (m : Nat × Nat) : Option (List Nat) × State :=
  let (chain, s) := a
  let x := copyFor s t m.1 m.2
  let v := frameOf s t.frame
  let refuse := fun (reason : Nat) => (chain, dropCopyIn t.dst reason x.exporter v (copyInfo s x) s)
  if v.bad != 0 then refuse v.bad
  else if quadFenced s t.dst then refuse 0x2B
  else if !configured s m.1 then refuse 0x19
  else if !portTakes s m.1 then refuse 0x2B
  else
    let n := s.buf.nextCopy
    let (l, s1) := admitCopy x chain s
    if x.mirror.isSome || s1.buf.nextCopy == n then (l, s1)
    else (l, (egressSessions s1 m.1).foldl (fun s i => mirrorFrame i t.frame s) s1)

/-- The members of a group's version after pruning: port and queue, in member order (R320, R321). -/
def groupMembers (s : State) (g ver : Nat) (v : Frame) : List (Nat × Nat) :=
  let grp := tabGet {} s.sw.groups g
  let o := if !grp.obj.isEmpty && u16 grp.obj 6 == ver then grp.obj else ((grp.old.find? fun x => x.1 == ver).map Prod.snd).getD []
  let all := (List.range (u16 o 4)).map fun i => (bits (u16 o (16 + 2 * i)) 0 10, 16 + bits (u16 o (16 + 2 * i)) 10 2)
  all.filter fun m => !(bit (u8 o 2) 0 && v.source != 2 && m.1 == v.port)

/-- The copies a transfer makes in its quadrant. -/
def transferMembers (s : State) (t : Transfer) : List (Nat × Nat) :=
  match t.dest with
  | .unicast p k => [(p, k)]
  | .mirror _ p k => [(p, k)]
  | .exported _ p k => [(p, k)]
  | .mcast g ver => (groupMembers s g ver (frameOf s t.frame)).filter fun m => quadOfPort m.1 == t.dst

/-- Whether the replication list of a transfer is being rewritten (R335). -/
def listBad (s : State) (t : Transfer) : Bool :=
  match t.dest with
  | .mcast g _ => (tabGet {} s.sw.groups g).reloading.contains t.dst
  | _ => false

/-- Find-first-free returns a cell whose STATE is 1: the cell is skipped and counted (R279). -/
def allocConflict (q : Nat) (s : State) : State :=
  match (pickBank (bufQuad s q)).bind (bankFree (bufQuad s q)) with
  | none => s
  | some c => detect 32 7 q (fun inj s =>
      kilnInj inj 0x0803 [(1, q), (1, 1), (4, c)] (count cBufConflicts q 1
        (modQuad q (fun b => { b with cells := tabPut c 0 b.cells }) s))) s

/-- Whether an earlier transfer waits at the same requester of its admission unit (R289). -/
def admissionWaits (s : State) (t : Transfer) : Bool :=
  s.sw.transfers.any fun x => x.id < t.id && x.place == .admission && x.dst == t.dst && x.src == t.src && x.via == t.via &&
    (x.src != x.dst || (frameOf s x.frame).pipe == (frameOf s t.frame).pipe)

/-- The counters of a transfer's copies made for a group. -/
def countMcast (t : Transfer) (n : Nat) (s : State) : State :=
  match t.dest with | .mcast _ _ => count cSwcMcastCopies t.dst n s | _ => s

/-- TRANSFER_ADMISSION (R288, R289, R321): the first transfer of its requester is evaluated; `conflict` says that its first cell
request meets a cell of STATE 1. -/
def execTransferAdmission (t : Nat) (conflict : Bool) (s : State) : Host.Outcome State Fault Refusal :=
  match s.sw.transfers.find? fun x => x.id == t with
  | none => .next s
  | some x =>
    if x.place != .admission || admissionWaits s x then .next s
    else
      let s1 := modSw (fun w => { w with transfers := w.transfers.filter fun y => y.id != t }) s
      let s2 := if conflict then allocConflict x.dst s1 else s1
      let ms := transferMembers s2 x
      let s3 := countMcast x ms.length s2
      let v := frameOf s3 x.frame
      let s4 := if listBad s3 x then
          ms.foldl (fun s m => dropIn x.dst 0x2A v { copyInfo s (copyFor s x m.1 m.2) with detail := 42 } s) s3
        else (ms.foldl (admitMember x) (none, s3)).2
      .next (settleFrame x.frame s4)

/-! ### The mesh (R309 to R311) -/

/-- The link direction that a transfer waits for, if any. -/
def nextDir (t : Transfer) : Option Nat :=
  match t.place with
  | .send => some (dirNo t.src (firstHop t))
  | .relay => t.via.map fun c => dirNo c t.dst
  | _ => none

/-- Whether an earlier transfer waits in the same FIFO. -/
def fifoWaits (s : State) (t : Transfer) : Bool :=
  (s.sw.transfers.takeWhile fun x => x.id != t.id).any fun x =>
    nextDir x == nextDir t && x.place == t.place && x.via.isSome == t.via.isSome

/-- `s` with a transfer changed. -/
def modTransfer (id : Nat) (f : Transfer → Transfer) (s : State) : State :=
  modSw (fun w => { w with transfers := w.transfers.map fun x => if x.id == id then f x else x }) s

/-- The frame bytes of a transfer that crosses direction `d` are counted, now or at the frame's end. -/
def countCrossing (d : Nat) (t : Transfer) (s : State) : State :=
  let v := frameOf s t.frame
  if v.ended then count (if t.via.isSome then cMeshRelay else cMeshDirect) d (copyLen v (transferTrunc s t)) s
  else modSw (fun w => { w with crossing := w.crossing ++ [{ frame := t.frame, dir := d, relayed := t.via.isSome }] }) s

/-- A transfer's first flit arrives over direction `d`: at the relaying quadrant, or at its admission unit. -/
def arrive (d : Nat) (t : Transfer) (s : State) : State :=
  let at_ := if t.place == .send && t.via.isSome then TransferPlace.arrived else .admission
  modTransfer t.id (fun x => { x with place := at_ }) (countCrossing d t s)

/-- What a failed link direction loses (R333, R335): the transfers on it, and the copies of frames that cross it. -/
def loseDirection (d bitNo : Nat) (s : State) : State :=
  let (a, b) := dirEnds d
  let s1 := (s.sw.transfers.filter fun t => nextDir t == some d).foldl (fun s t => dropTransfer a 0x29 t s) s
  (s1.sw.crossing.filter fun x => x.dir == d).foldl (fun s x =>
    let s2 := (s.sw.transfers.filter fun t => t.frame == x.frame && (t.via == some b || t.dst == b) && t.place != .send).foldl
      (fun s t => dropTransfer a 0x29 t s) s
    (copiesWith s2 fun y => y.frame == x.frame && y.quad == b && !y.gone).foldl (fun s c =>
      if (copyAt s c).started then
        let (n, s3) := takeFree s
        stompCopy c (n % ((frameOf s x.frame).data.length + 1)) 0x29 bitNo s3
      else dropCopy c 0x29 bitNo s) s2)
    (modSw (fun w => { w with crossing := w.crossing.filter fun x => x.dir != d }) s1)

/-- A replay of direction `d` fails: the fourth within 1 µs retrains it (R335). -/
def replayFails (d : Nat) (s : State) : State :=
  let ts := (s.now :: (tabGet [] s.sw.replays d).filter fun t => s.now ≤ t + tUs).take 4
  if ts.length < 4 then modSw (fun w => { w with replays := tabSet [] d ts w.replays }) s
  else detect 38 12 d (fun _ s => loseDirection d 38
    (modSw (fun w => { w with replays := tabDel d w.replays, dirDown := tabPut d s.now w.dirDown }) s)) s

/-- MESH_FLIT_RECEIVED (R309, R311): the flit of transfer `t` over direction `d`. `err`: 0 good, 1 a corrected word, 2 a
double-bit error, which is replayed, 3 a replay that fails. -/
def execMeshFlitReceived (d : LinkDir) (t : Nat) (err : Fin 4) (s : State) : Host.Outcome State Fault Refusal :=
  match s.sw.transfers.find? fun x => x.id == t && nextDir x == some d.val with
  | none => .next s
  | some x =>
    let full := x.place == .send && (match x.via with
      | some c => relayUsed s c x.dst + x.resv > relayRoom
      | none => false)
    if !dirUp s (dirEnds d.val).1 (dirEnds d.val).2 || fifoWaits s x || full then .next s
    else match err.val with
    | 0 => .next (arrive d.val x s)
    | 1 => .next (arrive d.val x (count cMeshCorrected d.val 1 s))
    | 2 => .next (count cMeshReplays d.val 1 s)
    | _ => .next (replayFails d.val (count cMeshReplays d.val 1 s))

/-- RELAY_TRANSFER (R311): the relaying quadrant queues an arrived transfer for its outbound link. -/
def execRelayTransfer (t : Nat) (s : State) : Host.Outcome State Fault Refusal :=
  match s.sw.transfers.find? fun x => x.id == t && x.place == .arrived with
  | none => .next s
  | some x =>
    let first := !((s.sw.transfers.takeWhile fun y => y.id != t).any fun y => y.place == .arrived && y.src == x.src && y.via == x.via)
    if !first then .next s
    else .next (modSw (fun w => { w with
      transfers := (w.transfers.filter fun y => y.id != t) ++ [{ x with place := .relay }] }) s)

/-- MESH_CREDIT_AUDIT (R335): a mismatch or a channel that makes no progress is drained and resynchronised. -/
def execMeshCreditAudit (d : LinkDir) (mismatch : Bool) (s : State) : Host.Outcome State Fault Refusal :=
  .next (if mismatch then raiseFault 40 12 d.val false s else s)

/-- MESH_RETRAIN (R335): the direction's retrain completes. -/
def execMeshRetrain (d : LinkDir) (s : State) : Host.Outcome State Fault Refusal :=
  match tabFind s.sw.dirDown d.val with
  | none => .next s
  | some t => .next (kiln 0x0901 [(1, d.val / 2), (1, d.val % 2), (4, (s.now - t) / tUs)]
      (modSw (fun w => { w with dirDown := tabDel d.val w.dirDown }) s))

/-- Marks a link down: what is on it is lost (R333, R335). -/
def linkDown (l : Nat) (s : State) : State :=
  kiln 0x0902 [(1, l)] (loseDirection (2 * l + 1) 39 (loseDirection (2 * l) 39
    (modSw (fun w => { w with linkDown := l :: w.linkDown, dirDown := tabDel (2 * l) (tabDel (2 * l + 1) w.dirDown) }) s)))

/-- MESH_LINK (R335): the link loses lock, or a retrain of it fails. -/
def execMeshLink (l : LinkNo) (s : State) : Host.Outcome State Fault Refusal :=
  if s.sw.linkDown.contains l.val then .next s
  else .next (detect 39 11 l.val (fun _ s => linkDown l.val s) s)

/-- MESH_TRAIN_RETRY (R335): Icoux retries training of a down link; `ok` says that it succeeds. A fenced link stays down. -/
def execMeshTrainRetry (l : LinkNo) (ok : Bool) (s : State) : Host.Outcome State Fault Refusal :=
  if s.sw.linkDown.contains l.val && ok && !linkFenced s l.val then
    .next (kiln 0x0903 [(1, l.val)] (modSw (fun w => { w with linkDown := w.linkDown.filter (· != l.val) }) s))
  else .next s

/-- MESH_MGMT (R335): VC0 of a link is reset; Icoux repeats its requests and the datapath is unaffected. -/
def execMeshMgmt (l : LinkNo) (s : State) : Host.Outcome State Fault Refusal := .next (raiseFault 41 11 l.val false s)

/-! ### Faults of the switching core (R335) -/

/-- SWC_REPL (R335): the replication list that transfer `t` needs has an uncorrectable word. -/
def execSwcRepl (t : Nat) (s : State) : Host.Outcome State Fault Refusal :=
  match s.sw.transfers.find? fun x => x.id == t && x.place == .admission with
  | none => .next s
  | some x => match x.dest with
    | .mcast g _ => .next (detect 42 7 x.dst (fun inj s =>
        let (n, s1) := takeFree s
        let s2 := kilnInj inj 0x090D [(1, x.dst), (1, n % 256), (1, 42)] s1
        modSw (fun w => { w with groups := tabMod {} g (fun y => { y with reloading := x.dst :: y.reloading }) w.groups }) s2) s)
    | _ => .next s

/-- SWC_MIRROR (R335): a session's store has an uncorrectable word; its copies are dropped until it is reloaded. -/
def execSwcMirror (q : Quad) (i : Fin 16) (s : State) : Host.Outcome State Fault Refusal :=
  let k := 16 * q.val + i.val
  .next (detect 43 13 k (fun inj s =>
    let (n, s1) := takeFree s
    kilnInj inj 0x090D [(1, q.val), (1, n % 256), (1, 43)]
      (modSw (fun w => { w with sessions := tabMod {} k (fun m => { m with reloading := true }) w.sessions }) s1)) s)

/-- SWC_PATH (R335): an uncorrectable word of transfer `t` in a send or relay queue, of frame `u` in the recirculation buffer or
the order queue, or an in_flight count of quadrant `q` that underflows. -/
def execSwcPath (q : Quad) (t u : Option Nat) (s : State) : Host.Outcome State Fault Refusal :=
  match t, u with
  | some t, _ =>
    match s.sw.transfers.find? fun x => x.id == t && x.src == q.val && x.place != .admission with
    | none => .next s
    | some x => .next (detect 44 7 q.val (fun _ s =>
        settleFrame x.frame (dropCopyIn q.val 0x2A (transferExporter x) (frameOf s x.frame) { transferInfo x with detail := 44 }
          (modSw (fun w => { w with transfers := w.transfers.filter fun y => y.id != t }) s))) s)
  | none, some u =>
    let v := frameOf s u
    if quadOfPipe v.pipe == q.val && ((v.source == 1 && v.place == .fifo) || v.place == .ordered) then
      .next (detect 44 7 q.val (fun _ s => dropFrame u 0x2A { detail := 44 } s) s)
    else .next s
  | none, none => .next (raiseFault 44 7 q.val false s)

/-- SWC_FLUSH (R335): a hold timer or flush stands still; its engine is reset and the flush goes on where it stopped. -/
def execSwcFlush (p : Port) (s : State) : Host.Outcome State Fault Refusal := .next (raiseFault 45 4 p.val false s)

/-- SWITCH_RELOAD (R335): the reload of a session, or of a group's list in quadrant `q`, is complete. -/
def execSwitchReload (q : Quad) (i : Option (Fin 16)) (g : Nat) (s : State) : Host.Outcome State Fault Refusal :=
  match i with
  | some i => .next (modSw (fun w =>
      { w with sessions := tabMod {} (16 * q.val + i.val) (fun m => { m with reloading := false }) w.sessions }) s)
  | none => .next (modSw (fun w =>
      { w with groups := tabUpd g (fun y => { y with reloading := y.reloading.filter (· != q.val) }) w.groups }) s)

/-! ### Hold and multicast events -/

/-- HOLD_EXPIRY (R327): hold ends and the port's queues are flushed. -/
def execHoldExpiry (p : Port) (s : State) : Host.Outcome State Fault Refusal :=
  match tabFind s.sw.hold p.val with
  | none => .next s
  | some t => .next (endHold p.val (reach (t + portHoldUs s p.val * tUs) s))

/-- Whether a transfer still carries a version of a group. -/
def versionUsed (s : State) (g ver : Nat) : Bool :=
  s.sw.transfers.any fun t => match t.dest with | .mcast a b => a == g && b == ver | _ => false

/-- MCAST_OLD_LIST_FREE (R322): the old lists that no transfer carries any more are freed. -/
def execMcastOldListFree (g : Fin 65536) (s : State) : Host.Outcome State Fault Refusal :=
  .next (modSw (fun w => { w with groups := tabUpd g.val (fun y =>
    { y with old := y.old.filter fun x => versionUsed s g.val x.1 }) w.groups }) s)

end Sys2Proof.Machine
end

