-- ==== Sys2Proof/Machine/Fdb.lean ====
section
/-!
DEFINITION. The FDB: rows, lookups, insertion with relocation, learning, notifications and the write arbiter's operations
(R220 to R245).
-/

namespace Sys2Proof.Machine

/-- Pipeline `g`'s forwarding tables. -/
def fwdPipe (s : State) (g : Nat) : FwdPipe := tabGet {} s.fwd.pipes g

/-- `s` with pipeline `g`'s forwarding tables set. -/
def setFwdPipe (g : Nat) (v : FwdPipe) (s : State) : State :=
  modFwd (fun t => { t with pipes := tabSet {} g v t.pipes }) s

/-- `s` with pipeline `g`'s forwarding tables changed. -/
def modFwdPipe (g : Nat) (f : FwdPipe → FwdPipe) (s : State) : State := setFwdPipe g (f (fwdPipe s g)) s

/-! ### Rows (R220 to R223) -/

/-- R, the rows of each way (R220). -/
def fdbRows (s : State) : Nat := match s.tableProfile with | 0 => 131072 | 1 => 8192 | _ => 32768

/-- The entries of the FDB. -/
def fdbSize (s : State) : Nat := 4 * fdbRows s

def rowStatic (r : Nat) : Bool := bit r 1
def rowHitDst (r : Nat) : Bool := bit r 2
def rowHitSrc (r : Nat) : Bool := bit r 3
def rowFrozen (r : Nat) : Bool := bit r 4
def rowFid (r : Nat) : Nat := bits r 8 12
def rowMac (r : Nat) : Nat := bits r 20 48
def rowPort (r : Nat) : Nat := bits r 68 10
def rowUser (r : Nat) : Nat := bits r 80 16
def rowFlaps (r : Nat) : Nat := bits r 96 8
def rowStamp (r : Nat) : Nat := bits r 104 24

/-- The 60-bit key of a row (R221). -/
def rowKey (r : Nat) : Nat := rowFid r * 2 ^ 48 + rowMac r

/-- A valid row without hits (R223). -/
def fdbRow (static frozen : Bool) (key port user flaps stamp : Nat) : Nat :=
  1 + 2 * b2n static + 16 * b2n frozen + 2 ^ 8 * bits key 48 12 + 2 ^ 20 * bits key 0 48 + 2 ^ 68 * (port % 1024) +
    2 ^ 80 * (user % 65536) + 2 ^ 96 * (flaps % 256) + 2 ^ 104 * (stamp % 2 ^ 24)

/-- A row with its hit bits set as given. -/
def rowHits (r : Nat) (dst src : Bool) : Nat := setBits r 2 2 (b2n dst + 2 * b2n src)

/-- The row with its hit bits, none for an empty row. -/
def fdbAt (s : State) (g idx : Nat) : Option Nat := tabFind (fwdPipe s g).fdb idx

/-- The FDB index of a key's candidate row in way `w` (R222). -/
def fdbCandidate (rows key w : Nat) : Nat :=
  w * rows + crc32cFrom (0xFFFFFFFF ^^^ (w * 0x01000000)) (toBe 8 key) % rows

/-- The entry of a key, in the lowest way that holds it. -/
def fdbFind (s : State) (g key : Nat) : Option (Nat × Nat) :=
  (List.range 4).findSome? fun w =>
    let i := fdbCandidate (fdbRows s) key w
    match fdbAt s g i with
    | some r => if rowKey r == key then some (i, r) else none
    | none => none

/-- `s` with one FDB row written; the write-through keeps the shadow the same, so a poisoned row is good again (R225). -/
def fdbPut (g idx : Nat) (r : Option Nat) (s : State) : State :=
  modFwdPipe g (fun v =>
    { v with fdb := match r with | some x => tabPut idx x v.fdb | none => tabDel idx v.fdb
             poisoned := v.poisoned.filter (· != idx) }) s

/-- The dynamic and the static entries of a pipeline's FDB. -/
def fdbDynamics (s : State) (g : Nat) : Nat := ((fwdPipe s g).fdb.filter fun e => !rowStatic e.2).length
def fdbStatics (s : State) (g : Nat) : Nat := ((fwdPipe s g).fdb.filter fun e => rowStatic e.2).length

/-- "now" of the stamps: datapath microseconds modulo 2^24 (R223, R228). -/
def fdbNow (s : State) (g : Nat) : Nat :=
  let t := datapathStamp s (quadOfPipe g)
  (t.sec * 1000000 + t.ns / 1000) % 2 ^ 24

/-! ### Insertion and relocation (R232) -/

/-- A breadth-first search in progress: the chain found, the chains of the next level, the rows seen and how many were read. -/
structure ChainSearch where
  found : Option (List Nat) := none
  next : List (List Nat) := []
  seen : List Nat := []
  read : Nat := 0

/-- Looks at one more row for a chain (newest row first). -/
def lookRow (t : Store Nat) (chain : List Nat) (a : ChainSearch) (i : Nat) : ChainSearch :=
  if a.found.isSome || a.read ≥ 64 || a.seen.contains i then a
  else if (tabFind t i).isNone then { a with found := some (i :: chain), read := a.read + 1 }
  else { a with next := a.next ++ [i :: chain], seen := i :: a.seen, read := a.read + 1 }

/-- Follows a chain from its newest row: a dynamic resident's candidate rows in its other ways, in way order. -/
def followChain (rows : Nat) (t : Store Nat) (a : ChainSearch) (chain : List Nat) : ChainSearch :=
  match chain with
  | [] => a
  | i :: _ =>
    match tabFind t i with
    | none => a
    | some r =>
      if rowStatic r then a
      else (((List.range 4).filter (· != i / rows)).map (fdbCandidate rows (rowKey r))).foldl (lookRow t chain) a

/-- Searches at most `depth` moves deep. -/
def searchChain (rows : Nat) (t : Store Nat) : Nat → ChainSearch → Option (List Nat)
  | 0, _ => none
  | d + 1, a =>
    let b := a.next.foldl (followChain rows t) { a with next := [] }
    match b.found with
    | some c => some c
    | none => searchChain rows t d b

/-- One move of an entry (R232). -/
def moveRow (g : Nat) (s : State) (m : Nat × Nat) : State :=
  let s1 := fdbPut g m.2 none (fdbPut g m.1 (fdbAt s g m.2) s)
  count cFdbRelocations g 1 (modFwdPipe g (fun v => { v with relgen := wrapAdd 32 v.relgen 1 }) s1)

/-- Places a new row: its index and the state after every move, or none when there is no room. -/
def fdbInsert (g row : Nat) (s : State) : Option (Nat × State) :=
  let rows := fdbRows s
  let t := (fwdPipe s g).fdb
  let cands := (List.range 4).map (fdbCandidate rows (rowKey row))
  match cands.find? fun i => (tabFind t i).isNone with
  | some i => some (i, fdbPut g i (some row) s)
  | none =>
    match searchChain rows t 3 { next := cands.map fun i => [i], seen := cands, read := 4 } with
    | none => none
    | some chain =>
      let s1 := (chain.zip chain.tail).foldl (moveRow g) s
      match chain.getLast? with
      | some i => some (i, fdbPut g i (some row) s1)
      | none => none

/-! ### FDB_LEARN (R231) and notifications (R235 to R237) -/

/-- The FDB_LEARN object of a pipeline, pipeline_mask zero. -/
def learnObj (s : State) (g : Nat) : Bytes :=
  if (fwdPipe s g).learn.isEmpty then image 16 [(8, 1, 8), (9, 1, 0x3F), (12, 4, fdbSize s)] else (fwdPipe s g).learn

def flapThreshold (s : State) (g : Nat) : Nat := u8 (learnObj s g) 8
def dynLimit (s : State) (g : Nat) : Nat := u32 (learnObj s g) 12

def ntfDefault (q : Nat) : Bytes := image 32 [(0, 1, q)]

/-- Quadrant `q`'s notification ring. -/
def ntfRing (s : State) (q : Nat) : NtfRing := tabGet {} s.fwd.rings q

/-- `s` with quadrant `q`'s ring set. -/
def setNtfRing (q : Nat) (v : NtfRing) (s : State) : State := modFwd (fun t => { t with rings := tabSet {} q v t.rings }) s

/-- The FDB_NOTIFY object of a quadrant. -/
def ntfObj (s : State) (q : Nat) : Bytes := if (ntfRing s q).obj.isEmpty then ntfDefault q else (ntfRing s q).obj

def ntfEnabled (s : State) (q : Nat) : Bool := bit (u8 (ntfObj s q) 1) 0

/-- Whether a quadrant's ring has no free record. -/
def ntfFull (s : State) (q : Nat) : Bool :=
  u32 (ntfObj s q) 4 ≤ ((ntfRing s q).producer - tabGet 0 s.host.ntfCons q).toNat

/-- Writes one record; its phase bit is 1 on the first pass through the ring (R236). -/
def ntfWrite (q : Nat) (rec : Bool → Bytes) (s : State) : State :=
  let v := ntfRing s q
  let n := u32 (ntfObj s q) 4
  let p := v.producer.toNat
  count cNtfRecords q 1
    (setNtfRing q { v with producer := v.producer + 1, pendingWb := true }
      (emit (.hostWrite (u64 (ntfObj s q) 8 + 32 * (p % n)) (rec (p / n % 2 == 0))) s))

/-- A LOST record carrying `n` (R236, R237). -/
def lostRecord (s : State) (q n : Nat) (phase : Bool) : Bytes :=
  let t := datapathStamp s q
  image 32 [(0, 1, 7), (2, 1, b2n phase), (16, 4, min n 0xFFFFFFFF), (24, 4, t.sec), (28, 4, t.ns)]

/-- One event to be notified (R237). -/
structure FdbEvent where
  kind : Nat
  key : Nat
  static : Bool := false
  detail : Nat := 0
  old : Nat := 0xFFFF
  new : Nat
  index : Nat := 0

/-- The record of an event. -/
def eventRecord (s : State) (g : Nat) (e : FdbEvent) (phase : Bool) : Bytes :=
  let t := datapathStamp s (quadOfPipe g)
  putBytes (image 32 [(0, 1, e.kind), (1, 1, g), (2, 1, b2n phase + 2 * b2n e.static), (3, 1, e.detail),
    (4, 2, bits e.key 48 12), (12, 2, e.old), (14, 2, e.new), (16, 4, e.index), (24, 4, t.sec), (28, 4, t.ns)])
    6 (toBe 6 (bits e.key 0 48))

/-- Whether an event repeats a held pair within 1 ms (R236). -/
def pairHeld (s : State) (g : Nat) (e : FdbEvent) : Bool :=
  (fwdPipe s g).held.any fun h => h.kind == e.kind && h.key == e.key && s.now < h.at_ + tMs

/-- Holds a pair, of the last 64. -/
def holdPair (g : Nat) (e : FdbEvent) (s : State) : State :=
  modFwdPipe g (fun v => { v with held :=
    (({ kind := e.kind, key := e.key, at_ := s.now } : HeldPair) ::
      v.held.filter fun h => !(h.kind == e.kind && h.key == e.key)).take 64 }) s

/-- Notifies an event where the ring, FDB_LEARN and the limits let it (R236). -/
def notify (g : Nat) (e : FdbEvent) (s : State) : State :=
  let q := quadOfPipe g
  if !ntfEnabled s q || !bit (u8 (learnObj s g) 9) (e.kind - 1) || pairHeld s g e then s
  else
    let lose := fun (s : State) => count cNtfLost q 1 (setNtfRing q { ntfRing s q with lost := (ntfRing s q).lost + 1 } s)
    if ntfFull s q then lose s
    else
    let (ok, s1) := takeLimit .notify q s
    if !ok then lose s1
    else
      let n := (ntfRing s1 q).lost
      let s2 := if n == 0 then s1
        else kiln 0x0625 [(1, q), (4, n)] (setNtfRing q { ntfRing (ntfWrite q (lostRecord s1 q n) s1) q with lost := 0 }
          (ntfWrite q (lostRecord s1 q n) s1))
      if ntfFull s2 q then lose s2 else holdPair g e (ntfWrite q (eventRecord s2 g e) s2)

/-! ### Learning (R226 to R230) -/

/-- A MAC address as its six wire bytes. -/
def macWire (key : Nat) : Nat := leNat (toBe 6 (bits key 0 48))

/-- The FDB descriptor of a pipeline, if it has one (R158). -/
def fdbDesc (s : State) (g : Nat) : Option Nat :=
  let d := descOf (matStage s g (fdbStage s.tableProfile)) 7
  if descValid d && descKind d == 3 then some d else none

/-- The learn request of a frame that leaves S23 (R226, R227). -/
def learnRequest (u : Nat) (s : State) : State :=
  let v := frameOf s u
  let g := v.pipe
  match v.srcKey with
  | none => s
  | some k =>
    if (fdbDesc s g).isNone || v.learned || !bit (metaF v 3) 0 then s
    else if bit k 40 then count cFdbLearnGroup g 1 s
    else if bit (metaF v 11) 10 && bit (metaF v 11) 13 then s
    else
      let s1 := modFrame u (fun v => { v with learned := true }) s
      let q := (fwdPipe s g).learnQ
      if learnFenced s g then count cFdbLearnLost g 1 s1
      else if q.contains (k, v.port) then s1
      else if q.length ≥ 1024 then count cFdbLearnDrops g 1 s1
      else modFwdPipe g (fun w => { w with learnQ := w.learnQ ++ [(k, v.port)] }) s1

/-- A refusal with its cause: 1 LIMIT, 2 NO_ROOM. -/
def refuseLearn (g key port cause : Nat) (s : State) : State :=
  notify g { kind := 6, key, detail := cause, new := port }
    (kilnOnce 0x0623 g [(1, g), (1, cause)] (count cFdbRefused g 1 s))

/-- A request handled by the learn engine (R228). -/
def learn (g key port : Nat) (s : State) : State :=
  let now := fdbNow s g
  match fdbFind s g key with
  | none =>
    if fdbDynamics s g ≥ dynLimit s g then refuseLearn g key port 1 s
    else
      match fdbInsert g (fdbRow false false key port 0 0 now) s with
      | none => refuseLearn g key port 2 s
      | some (i, s1) => notify g { kind := 1, key, new := port, index := i } (count cFdbLearnNew g 1 s1)
  | some (i, r) =>
    if rowPort r == port then s
    else if rowStatic r then
      notify g { kind := 5, key, static := true, old := rowPort r, new := port, index := i }
        (kilnOnce 0x0622 g [(1, g), (2, rowFid r), (6, macWire key), (2, port)] (count cFdbViolations g 1 s))
    else if rowFrozen r then count cFdbFrozenMoves g 1 s
    else
      let moved := fun (flaps : Nat) => setBits (setBits (setBits r 96 8 flaps) 68 10 port) 104 24 now
      if (now + 2 ^ 24 - rowStamp r) % 2 ^ 24 < 1000 then
        let flaps := min (rowFlaps r + 1) 255
        let s1 := kilnOnce 0x0620 g [(1, g), (2, rowFid r), (6, macWire key)] (count cFdbFlaps g 1 s)
        if flapThreshold s g > 0 && flaps ≥ flapThreshold s g then
          notify g { kind := 4, key, detail := flaps, old := rowPort r, new := port, index := i }
            (kiln 0x0621 [(1, g), (4, i)] (count cFdbFrozen g 1 (fdbPut g i (some (setBits (setBits r 96 8 flaps) 4 1 1)) s1)))
        else
          notify g { kind := 3, key, detail := flaps, old := rowPort r, new := port, index := i }
            (fdbPut g i (some (moved flaps)) s1)
      else
        notify g { kind := 2, key, detail := 0, old := rowPort r, new := port, index := i }
          (count cFdbMoves g 1 (fdbPut g i (some (moved 0)) s))

/-- LEARN_REQUEST_PROCESS (R227, R228): the learn engine, granted its turn, takes the oldest request. -/
def execLearnRequestProcess (g : Pipe) (s : State) : Host.Outcome State Fault Refusal :=
  let v := fwdPipe s g.val
  match v.learning, v.learnQ with
  | true, (k, p) :: rest => .next (learn g.val k p (setFwdPipe g.val { v with learning := false, learnQ := rest } s))
  | _, _ => .next s

/-! ### Writing and deleting entries (R234) -/

/-- Writes an entry: inserts it or replaces the entry of its key whole, which keeps its hit bits. dyn_limit holds back only a write that
adds a dynamic entry. -/
def fdbWrite (g row : Nat) (s : State) : Except Status (Nat × State) :=
  let old := fdbFind s g (rowKey row)
  let adds := !rowStatic row && (match old with | some (_, r) => rowStatic r | none => true)
  if adds && fdbDynamics s g ≥ dynLimit s g then .error .nores
  else
    match old with
    | some (i, r) => .ok (i, fdbPut g i (some (rowHits row (rowHitDst r) (rowHitSrc r))) s)
    | none =>
      match fdbInsert g row s with
      | some r => .ok r
      | none => .error .nores

/-- One FDB_ENTRY operation in one pipeline (R234). -/
def fdbEntryOp (g : Nat) (o : Bytes) (s : State) : Option Status × State :=
  let key := u16 o 12 * 2 ^ 48 + fieldBe o 14 6
  match u8 o 8 with
  | 1 =>
    match fdbWrite g (fdbRow (bit (u8 o 9) 0) (bit (u8 o 9) 1) key (u16 o 10) (u16 o 20) 0 (fdbNow s g)) s with
    | .ok (_, s1) => (none, s1)
    | .error e => (some e, s)
  | 2 =>
    match fdbFind s g key with
    | some (i, _) => (none, fdbPut g i none s)
    | none => (some .state, s)
  | _ =>
    (none, modFwdPipe g (fun v => { v with fdb := v.fdb.filter fun e => rowStatic e.2 || rowPort e.2 != u16 o 10 }) s)

/-! ### Command windows (R239 to R243) -/

/-- Whether the page of a pipeline is granted and its window in service. -/
def windowOpen (s : State) (g : Nat) : Bool :=
  (fwdPipe s g).window.session.isSome && !(fencedSites s .window).any fun x => x.index == g

/-- `s` with a pipeline's window changed. -/
def modWindow (g : Nat) (f : FdbWindow → FdbWindow) (s : State) : State :=
  modFwdPipe g (fun v => { v with window := f v.window }) s

/-- A host write of FDB_CMD with this operation (R240, R242). -/
def startWindow (g op : Nat) (clearHit : Bool) (s : State) : State :=
  if !windowOpen s g then s
  else
    modWindow g (fun w =>
      if w.busy then { w with rejects := satAdd 32 w.rejects 1 }
      else
        let w1 := { w with cmd := op + 32 * b2n clearHit }
        if op == 0 then w1 else { w1 with busy := true, done := false, kept := false }) s

/-- Ends a window's command: DATA, INDEX and RELGEN load together, then DONE sets and BUSY clears (R242). -/
def endWindow (g : Nat) (st : Status) (f : FdbWindow → FdbWindow) (s : State) : State :=
  let gen := (fwdPipe s g).relgen
  count cFdbCmdOps g 1 (modWindow g (fun w =>
    let w1 := f w
    { w1 with status := statusCode st, busy := false, done := true, relgen := gen }) s)

/-- The right that an operation on entries of this kind needs: bit 3 where a static entry is concerned, else bit 2 (R244). -/
def writeRight (w : FdbWindow) (static : Bool) : Bool := bit w.rights (if static then 3 else 2)

/-- INSERT and WRITE of a window (R241). -/
def windowPut (g : Nat) (insert : Bool) (s : State) : State :=
  let w := (fwdPipe s g).window
  let d := w.data
  let old := fdbFind s g (rowKey d)
  let oldStatic := match old with | some (_, r) => rowStatic r | none => false
  if !writeRight w (rowStatic d || (!insert && oldStatic)) then endWindow g .denied id s
  else if !bit d 0 || bits d 5 3 != 0 || bits d 78 2 != 0 then endWindow g .badarg id s
  else if insert && old.isSome then endWindow g .state id s
  else
    match fdbWrite g (fdbRow (rowStatic d) (rowFrozen d) (rowKey d) (rowPort d) (rowUser d) 0 (fdbNow s g)) s with
    | .error e => endWindow g e id s
    | .ok (i, s1) => endWindow g .ok (fun w => { w with index := i }) s1

/-- DELETE, DELETE_IF_IDLE, AGE and READ_KEY of a window, on the entry of the key in DATA (R241). -/
def windowKey (g op : Nat) (s : State) : State :=
  let w := (fwdPipe s g).window
  let may := match op with | 1 => bit w.rights 0 | 5 => bit w.rights 2 || bit w.rights 3 | _ => bit w.rights 1
  if !may then endWindow g .denied id s
  else
    match fdbFind s g (rowKey w.data) with
    | none => endWindow g .state id s
    | some (i, r) =>
      match op with
      | 1 => endWindow g .ok (fun w => { w with data := r, index := i }) s
      | 5 => if writeRight w (rowStatic r) then endWindow g .ok id (fdbPut g i none s) else endWindow g .denied id s
      | 6 =>
        if rowStatic r || rowHitDst r || rowHitSrc r then
          endWindow g .ok (fun w => { w with data := r, kept := true }) (fdbPut g i (some (rowHits r false false)) s)
        else endWindow g .ok (fun w => { w with data := r }) (fdbPut g i none s)
      | _ => endWindow g .ok (fun w => { w with data := r }) (fdbPut g i (some (rowHits r false false)) s)

/-- READ_INDEX of a window (R241). -/
def windowReadIndex (g : Nat) (s : State) : State :=
  let v := fwdPipe s g
  if !bit v.window.rights 0 then endWindow g .denied id s
  else if v.window.relgen != v.relgen then endWindow g .moved (fun w => { w with data := 0 }) s
  else if v.window.index ≥ fdbSize s then endWindow g .range id s
  else endWindow g .ok (fun w => { w with data := tabGet 0 v.fdb w.index }) s

/-- ITERATE of a window (R241). -/
def windowIterate (g : Nat) (s : State) : State :=
  let v := fwdPipe s g
  let clear := bit v.window.cmd 5
  if !bit v.window.rights (if clear then 1 else 0) then endWindow g .denied id s
  else
    match v.fdb.find? fun e => v.window.index ≤ e.1 with
    | none => endWindow g .state (fun w => { w with index := fdbSize s }) s
    | some (i, r) =>
      let s1 := if clear then fdbPut g i (some (rowHits r false false)) s else s
      endWindow g (if v.window.relgen == v.relgen then .ok else .moved) (fun w => { w with data := r, index := i }) s1

/-- The operation that a window's command names (R241). -/
def runWindow (g : Nat) (s : State) : State :=
  match bits (fwdPipe s g).window.cmd 0 5 with
  | 1 => windowKey g 1 s
  | 2 => windowReadIndex g s
  | 3 => windowPut g true s
  | 4 => windowPut g false s
  | 5 => windowKey g 5 s
  | 6 => windowKey g 6 s
  | 7 => windowKey g 7 s
  | 8 => windowIterate g s
  | _ => endWindow g .badarg id s

/-! ### The write arbiter (R238) -/

/-- The first job of Icoux that waits at pipeline `g`. -/
def jobFor (s : State) (g : Nat) : Option FdbJob := s.fwd.jobs.find? fun j => bit j.left g

/-- A job after its operation in pipeline `g`. -/
def jobAfter (g : Nat) (e : Option Status) (j : FdbJob) : FdbJob :=
  let j1 := { j with left := setBits j.left g 1 0 }
  match e with
  | none => j1
  | some st =>
    let c := (g, statusCode st)
    { j1 with failed := setBits j1.failed g 1 1
              first := match j1.first with | some f => if f.1 < g then some f else some c | none => some c }

/-- The status of a code (R490). -/
def statusOf (c : Nat) : Status :=
  match c with
  | 1 => .busy | 2 => .badarg | 3 => .denied | 4 => .notsup | 5 => .range | 6 => .state | 7 => .nores | 8 => .timeout
  | 9 => .integrity | 10 => .pending | 11 => .moved | 12 => .capUnreachable | _ => .ok

/-- Runs Icoux's operation in pipeline `g`; the command ends once every named pipeline has had its turn. -/
def runJob (g : Nat) (j : FdbJob) (s : State) : State :=
  let (e, s1) := fdbEntryOp g j.obj s
  let j1 := jobAfter g e j
  let others := s1.fwd.jobs.map fun x => if x.run == j.run then j1 else x
  if j1.left != 0 then modFwd (fun t => { t with jobs := others }) s1
  else
    let code := match j1.first with | some f => f.2 | none => 0
    endRunning j.run (statusOf code) (if j1.failed == 0 then [] else toLe 8 j1.failed ++ toLe 2 code) []
      (modFwd (fun t => { t with jobs := others.filter fun x => x.run != j.run }) s1)

/-- Whether a requester of pipeline `g`'s arbiter waits: 0 the learn engine, 1 Icoux, 2 the window. -/
def requesterWaits (s : State) (g r : Nat) : Bool :=
  match r with
  | 0 => !(fwdPipe s g).learnQ.isEmpty && !learnFenced s g
  | 1 => (jobFor s g).isSome
  | _ => (fwdPipe s g).window.busy

/-- FDB_ARBITER_GRANT (R238): the next waiting requester in turn; its operation runs whole. -/
def execFdbArbiterGrant (g : Pipe) (s : State) : Host.Outcome State Fault Refusal :=
  let v := fwdPipe s g.val
  if v.learning then .next s
  else
    match ([1, 2, 3].map fun i => (v.lastGrant + i) % 3).find? (requesterWaits s g.val) with
    | none => .next s
    | some r =>
      let s1 := setFwdPipe g.val { v with lastGrant := r, learning := r == 0 } s
      match r, jobFor s g.val with
      | 0, _ => .next s1
      | 1, some j => .next (runJob g.val j s1)
      | _, _ => .next (runWindow g.val s1)

end Sys2Proof.Machine
end

