-- ==== Sys2Proof/Machine/Fwd.lean ====
section
/-!
DEFINITION. The forwarding tables' commands: FDB objects and windows, the LPM table and the host table (R231 to R257).
-/

namespace Sys2Proof.Machine

/-! ### Notification rings -/

/-- NOTIFY_PRODUCER_WRITEBACK (R236, R474): the producer index is written and the ring's vector signalled. -/
def execNotifyProducerWriteback (q : Quad) (s : State) : Host.Outcome State Fault Refusal :=
  let v := ntfRing s q.val
  if v.pendingWb then
    .next (signal (160 + q.val) (emit (.hostWrite (u64 (ntfObj s q.val) 16) (toLe 4 v.producer.toNat))
      (setNtfRing q.val { v with pendingWb := false } s)))
  else .next s

/-- FDB_NTF_CONS_WRITE (R236, R455). -/
def execFdbNtfConsWrite (q : Quad) (v : BitVec 32) (s : State) : Host.Outcome State Fault Refusal :=
  .next (modHost (fun h => { h with ntfCons := tabSet 0 q.val v h.ntfCons }) s)

/-- A field that keeps its value while the object it belongs to is enabled. -/
def fKept (off len : Nat) (on : State → Bytes → Bool) (old : State → Bytes → Bytes) (chk : Bytes → Option Status) : Fld :=
  fDep off len fun s p =>
    match chk p with
    | some st => some st
    | none => orElse (!(on s p && field p off len != field (old s p) off len)) .state

/-- Whether a ring size is one that R235 accepts. -/
def ntfRecordsBad (p : Bytes) : Option Status :=
  let n := u32 p 4
  if n == 0 then orElse (!bit (u8 p 1) 0) .badarg else orElse (isPow2 n && inRange n 256 65536) .range

/-- The fields of FDB_NOTIFY (R235). -/
def fdbNotifyFields : List Fld :=
  let on := fun s (p : Bytes) => ntfEnabled s (u8 p 0)
  let old := fun s (p : Bytes) => ntfObj s (u8 p 0)
  [ (fRange 0 1 0 3 .range).asKey, fBits 1 1 1, fRsv 2 2, fKept 4 4 on old ntfRecordsBad,
    fKept 8 8 on old (fun p => orElse (u64 p 8 % 4096 == 0) .badarg),
    fKept 16 8 on old (fun p => orElse (u64 p 16 % 8 == 0) .badarg), fAny 24 4, fRsv 28 4 ]

/-- FDB_NOTIFY_WRITE as the opcode tables of Icoux give it (R514 to R520), with the checks of its fields. -/
def opFdbNotifyWrite : OpDef := writeOp 0x060E 32 fdbNotifyFields

/-- FDB_NOTIFY write (R235, R236). -/
def execFdbNotifyWrite (c : Cmd) (s : State) : Host.Outcome State Fault Refusal :=
  .next (icoux opFdbNotifyWrite c (fun _ b s =>
    let q := u8 b 0
    let rises := !ntfEnabled s q && bit (u8 b 1) 0
    let s1 := writeLimit .notify q q (u32 b 24) s
    let v := { ntfRing s q with obj := b }
    okWrite (if rises then
        modHost (fun h => { h with ntfCons := tabDel q h.ntfCons })
          (setNtfRing q { v with producer := 0, lost := 0, pendingWb := false } s1)
      else setNtfRing q v s1)) s)

/-- FDB_NOTIFY_READ as the opcode tables of Icoux give it (R514 to R520), with the checks of its fields. -/
def opFdbNotifyRead : OpDef := readOp 0x060F 32 fdbNotifyFields

/-- FDB_NOTIFY read. -/
def execFdbNotifyRead (c : Cmd) (s : State) : Host.Outcome State Fault Refusal :=
  .next (icoux opFdbNotifyRead c (fun _ b s => okReply s (ntfObj s (u8 b 0))) s)

/-! ### FDB_LEARN and FDB_ENTRY -/

/-- The fields of FDB_LEARN (R231). -/
def fdbLearnFields (read : Bool) : List Fld :=
  [fPipeMask 0 read, fAny 8 1, fBits 9 1 0x3F, fRsv 10 2, fDep 12 4 (fun s p => orElse (u32 p 12 ≤ fdbSize s) .range)]

/-- FDB_LEARN_WRITE as the opcode tables of Icoux give it (R514 to R520), with the checks of its fields. -/
def opFdbLearnWrite : OpDef := writeOp 0x060C 16 (fdbLearnFields false)

/-- FDB_LEARN write (R231). -/
def execFdbLearnWrite (c : Cmd) (s : State) : Host.Outcome State Fault Refusal :=
  .next (icoux opFdbLearnWrite c (fun _ b s =>
    okWrite (forMask 64 (u64 b 0) (fun g => modFwdPipe g fun v => { v with learn := putField b 0 8 0 }) s)) s)

/-- FDB_LEARN_READ as the opcode tables of Icoux give it (R514 to R520), with the checks of its fields. -/
def opFdbLearnRead : OpDef := readOp 0x060D 16 (fdbLearnFields true)

/-- FDB_LEARN read. -/
def execFdbLearnRead (c : Cmd) (s : State) : Host.Outcome State Fault Refusal :=
  .next (icoux opFdbLearnRead c (fun _ b s =>
    okReply s (putField (learnObj s (u64 b 0).log2) 0 8 (u64 b 0))) s)

/-- The fields of FDB_ENTRY (R233). FLUSH_PORT ignores fid and mac; RO bits are ignored. -/
def fdbEntryFields : List Fld :=
  [ fPipeMask 0 false, fRange 8 1 1 3 .badarg, fBits 9 1 0x0F, fRange 10 2 0 1023 .range,
    fDep 12 2 (fun _ p => orElse (u8 p 8 == 3 || u16 p 12 ≤ 4095) .range), fAny 14 6, fAny 20 2, fAny 22 1, fRsv 23 1,
    fAny 24 4, fRsv 28 4 ]

/-- FDB_ENTRY_WRITE as the opcode tables of Icoux give it (R514 to R520), with the checks of its fields. -/
def opFdbEntryWrite : OpDef := writeOp 0x060A 32 fdbEntryFields

/-- FDB_ENTRY write (R233, R234): every named pipeline applies it through its arbiter. -/
def execFdbEntryWrite (c : Cmd) (s : State) : Host.Outcome State Fault Refusal :=
  .next (icoux opFdbEntryWrite c (fun _ b s =>
    .later fun id => modFwd (fun t => { t with jobs := t.jobs ++ [{ run := id, obj := b, left := u64 b 0 }] }) s) s)

/-- The fields of an FDB_ENTRY read. -/
def fdbEntryReadFields : List Fld :=
  [ fPipeMask 0 true, fAny 8 4, (fRange 12 2 0 4095 .range).asKey, (fAny 14 6).asKey, fAny 20 12 ]

/-- FDB_ENTRY_READ as the opcode tables of Icoux give it (R514 to R520), with the checks of its fields. -/
def opFdbEntryRead : OpDef := readOp 0x060B 32 fdbEntryReadFields

/-- FDB_ENTRY read (R234). -/
def execFdbEntryRead (c : Cmd) (s : State) : Host.Outcome State Fault Refusal :=
  .next (icoux opFdbEntryRead c (fun _ b s =>
    match fdbFind s (u64 b 0).log2 (u16 b 12 * 2 ^ 48 + fieldBe b 14 6) with
    | none => badAll .state
    | some (i, r) =>
      let fl := b2n (rowStatic r) + 2 * b2n (rowFrozen r) + 4 * b2n (rowHitDst r) + 8 * b2n (rowHitSrc r)
      okReply s (putBytes (image 32 [(0, 8, u64 b 0), (9, 1, fl), (10, 2, rowPort r), (12, 2, rowFid r), (20, 2, rowUser r),
        (22, 1, rowFlaps r), (24, 4, i)]) 14 (toBe 6 (rowMac r)))) s)

/-! ### FDB_DELEGATE (R244) and the windows -/

/-- Whether another session holds a named pipeline's window. -/
def heldByOther (s : State) (p : Bytes) : Bool :=
  (maskBits 64 (u64 p 0)).any fun g => match (fwdPipe s g).window.session with | some x => x != u8 p 8 | none => false

/-- The fields of FDB_DELEGATE. -/
def fdbDelegateFields : List Fld :=
  [ fPipeMask 0 false,
    fDep 8 1 (fun s p =>
      if u8 p 8 > 31 then some .range
      else orElse ((slotOf s (u8 p 8)).state == .opened && !(u8 p 9 != 0 && heldByOther s p)) .state),
    fBits 9 1 0x0F, fRsv 10 6 ]

/-- Ends or makes a grant; each is logged (R244). -/
def delegate (sess rights g : Nat) (s : State) : State :=
  let w := (fwdPipe s g).window
  if rights == 0 && w.session != some sess then s
  else
    kiln 0x0624 [(1, g), (1, sess), (1, rights)]
      (modWindow g (fun w => { w with session := if rights == 0 then none else some sess, rights }) s)

/-- FDB_DELEGATE_WRITE as the opcode tables of Icoux give it (R514 to R520), with the checks of its fields. -/
def opFdbDelegateWrite : OpDef := { writeOp 0x0610 16 fdbDelegateFields with role := .admin }

/-- FDB_DELEGATE write (R244). -/
def execFdbDelegateWrite (c : Cmd) (s : State) : Host.Outcome State Fault Refusal :=
  .next (icoux opFdbDelegateWrite c (fun _ b s =>
    okWrite (forMask 64 (u64 b 0) (delegate (u8 b 8) (u8 b 9)) s)) s)

/-- FDB_DELEGATE_READ as the opcode tables of Icoux give it (R514 to R520), with the checks of its fields. -/
def opFdbDelegateRead : OpDef := readOp 0x0611 16 [fPipeMask 0 true, fAny 8 8]

/-- FDB_DELEGATE read. -/
def execFdbDelegateRead (c : Cmd) (s : State) : Host.Outcome State Fault Refusal :=
  .next (icoux opFdbDelegateRead c (fun _ b s =>
    let w := (fwdPipe s (u64 b 0).log2).window
    okReply s (image 16 [(0, 8, u64 b 0), (8, 1, w.session.getD 0), (9, 1, if w.session.isSome then w.rights else 0)])) s)

/-- FDB_CMD_READ_KEY (R240, R241): the host writes OP 1. The operation runs at its arbiter turn. -/
def execFdbCmdReadKey (g : Pipe) (clearHit : Bool) (s : State) : Host.Outcome State Fault Refusal :=
  .next (startWindow g.val 1 clearHit s)
/-- FDB_CMD_READ_INDEX (R241): OP 2. -/
def execFdbCmdReadIndex (g : Pipe) (clearHit : Bool) (s : State) : Host.Outcome State Fault Refusal :=
  .next (startWindow g.val 2 clearHit s)
/-- FDB_CMD_INSERT (R241): OP 3. -/
def execFdbCmdInsert (g : Pipe) (clearHit : Bool) (s : State) : Host.Outcome State Fault Refusal :=
  .next (startWindow g.val 3 clearHit s)
/-- FDB_CMD_WRITE (R241): OP 4. -/
def execFdbCmdWrite (g : Pipe) (clearHit : Bool) (s : State) : Host.Outcome State Fault Refusal :=
  .next (startWindow g.val 4 clearHit s)
/-- FDB_CMD_DELETE (R241): OP 5. -/
def execFdbCmdDelete (g : Pipe) (clearHit : Bool) (s : State) : Host.Outcome State Fault Refusal :=
  .next (startWindow g.val 5 clearHit s)
/-- FDB_CMD_DELETE_IF_IDLE (R241): OP 6. -/
def execFdbCmdDeleteIfIdle (g : Pipe) (clearHit : Bool) (s : State) : Host.Outcome State Fault Refusal :=
  .next (startWindow g.val 6 clearHit s)
/-- FDB_CMD_AGE (R241): OP 7. -/
def execFdbCmdAge (g : Pipe) (clearHit : Bool) (s : State) : Host.Outcome State Fault Refusal :=
  .next (startWindow g.val 7 clearHit s)
/-- FDB_CMD_ITERATE (R241): OP 8. -/
def execFdbCmdIterate (g : Pipe) (clearHit : Bool) (s : State) : Host.Outcome State Fault Refusal :=
  .next (startWindow g.val 8 clearHit s)
/-- FDB_CMD_INVALID_OP (R241): OP 9 to 31. -/
def execFdbCmdInvalidOp (g : Pipe) (op : Fin 23) (clearHit : Bool) (s : State) : Host.Outcome State Fault Refusal :=
  .next (startWindow g.val (9 + op.val) clearHit s)

/-- A window register after a write; reserved bits read zero. -/
def windowReg (reg v : Nat) (w : FdbWindow) : FdbWindow :=
  match reg with
  | 1 => { w with index := v % 2 ^ 19 }
  | 2 => { w with relgen := v }
  | _ => { w with data := setBits w.data (32 * (reg - 3)) 32 v }

/-- FDB_WINDOW_REG_WRITE (R239, R242): 0 FDB_CMD, 1 FDB_INDEX, 2 FDB_RELGEN, 3 to 6 FDB_DATA0 to FDB_DATA3. -/
def execFdbWindowRegWrite (g : Pipe) (reg : Fin 7) (v : BitVec 32) (s : State) : Host.Outcome State Fault Refusal :=
  if reg.val == 0 then .next (startWindow g.val (v.toNat % 32) (v.getLsbD 5) s)
  else if !windowOpen s g.val then .next s
  else
    .next (modWindow g.val (fun w =>
      if w.busy then { w with rejects := satAdd 32 w.rejects 1 } else windowReg reg.val v.toNat w) s)

/-- FDB_REJECTS_READ (R239): returned and cleared; a page not granted reads zero. -/
def execFdbRejectsRead (g : Pipe) (s : State) : Host.Outcome State Fault Refusal :=
  if windowOpen s g.val then
    .next (emit (.barRead (fwdPipe s g.val).window.rejects) (modWindow g.val (fun w => { w with rejects := 0 }) s))
  else .next (emit (.barRead 0) s)

/-! ### LPM (R246 to R250) -/

/-- The key of a route in the route list. -/
def routeKey (fam vrf len pfx : Nat) : Nat := ((fam * 32768 + vrf) * 256 + len) * 2 ^ 128 + pfx

def routeLen (k : Nat) : Nat := bits k 128 8
def routeV6 (k : Nat) : Bool := bit k 151

/-- The prefix of a route as the high bits of a 128-bit address. -/
def routeBits (k : Nat) : Nat := if routeV6 k then bits k 0 128 else bits k 0 32 * 2 ^ 96

/-- Whether a 144-bit key falls under a route. -/
def routeCovers (key k : Nat) : Bool :=
  bits k 136 16 == key / 2 ^ 128 && bits key 0 128 / 2 ^ (128 - routeLen k) == routeBits k / 2 ^ (128 - routeLen k)

/-- The longest prefix that covers a key, with its result (R248). The pivots and buckets that Icoux derives give the same
(assumption 43). -/
def lpmLookup (v : FwdPipe) (key : Nat) : Option (Nat × Nat) :=
  (v.routes.filter fun e => routeCovers key e.1).foldl (fun best e =>
    match best with
    | some b => if b.1 < routeLen e.1 then some (routeLen e.1, e.2) else best
    | none => some (routeLen e.1, e.2)) none

/-- F12 for a key (R248). -/
def lpmResult (v : FwdPipe) (key : Nat) : Nat :=
  match lpmLookup v key with
  | some (len, r) => r + 2 ^ 20 + 2 ^ 21 * len
  | none => 0

/-- The IPv4 prefixes that full buckets hold (R151); an IPv6 prefix takes the room of two. -/
def lpmRoom (s : State) : Nat := match s.tableProfile with | 0 => 65536 | 1 => 1048576 | _ => 262144

/-- The room that routes take in full buckets. -/
def lpmUsed (v : FwdPipe) : Nat := (v.routes.map fun e => if routeV6 e.1 then 2 else 1).foldl (· + ·) 0

/-- The key of an LPM_ROUTE object. -/
def routeOf (b : Bytes) : Nat := routeKey (u8 b 9) (u16 b 12) (u8 b 10) (if u8 b 9 == 0 then u32 b 24 else field b 24 16)

/-- Adds a route: below half of the room always, beyond the room never, between as Icoux's packing allows (R250). -/
def addRoute (g : Nat) (b : Bytes) (s : State) : Option Status × State :=
  let v := fwdPipe s g
  let k := routeOf b
  let add := fun (s : State) => modFwdPipe g (fun v => { v with routes := tabPut k (u32 b 16) v.routes }) s
  let full := fun (s : State) => (some Status.nores, kiln 0x0627 [(1, g), (1, u8 b 9)] s)
  let need := lpmUsed v + (if u8 b 9 == 1 then 2 else 1)
  if (tabFind v.routes k).isSome || 2 * need ≤ lpmRoom s then (none, add s)
  else if need + 32 * v.freeing.length > lpmRoom s then full s
  else
    let (x, s1) := takeFree s
    if x % 2 == 0 then full s1 else (none, add s1)

/-- Deletes a route; whether a pivot goes with it is Icoux's matter, and its bucket is free 2 µs later (R250). -/
def deleteRoute (g : Nat) (b : Bytes) (s : State) : Option Status × State :=
  let k := routeOf b
  if (tabFind (fwdPipe s g).routes k).isNone then (some .state, s)
  else
    let (x, s1) := takeFree s
    (none, modFwdPipe g (fun v =>
      { v with routes := tabDel k v.routes, freeing := if x % 2 == 0 then v.freeing else v.freeing ++ [s.now + 2 * tUs] }) s1)

/-- The fields of LPM_ROUTE (R249). -/
def lpmRouteFields (read : Bool) : List Fld :=
  [ fPipeMask 0 read, (if read then fAny 8 1 else fRange 8 1 1 2 .badarg), (fRange 9 1 0 1 .badarg).asKey,
    (fDep 10 1 (fun _ p => orElse (u8 p 10 ≤ (if u8 p 9 == 0 then 32 else 128)) .range)).asKey, fRsv 11 1,
    (fRange 12 2 0 32767 .range).asKey, fRsv 14 2, (if read then fAny 16 4 else fBits 16 4 0xFFFFF), fRsv 20 4,
    (fDep 24 16 (fun _ p =>
      let w := if u8 p 9 == 0 then 32 else 128
      orElse (field p 24 16 < 2 ^ w && field p 24 16 % 2 ^ (w - u8 p 10) == 0) .badarg)).asKey ]

/-- LPM_ROUTE_WRITE as the opcode tables of Icoux give it (R514 to R520), with the checks of its fields. -/
def opLpmRouteWrite : OpDef := writeOp 0x0612 40 (lpmRouteFields false)

/-- LPM_ROUTE write (R249, R250): pipelines that succeed keep the change. -/
def execLpmRouteWrite (c : Cmd) (s : State) : Host.Outcome State Fault Refusal :=
  .next (icoux opLpmRouteWrite c (fun _ b s =>
    let op := fun g s => if u8 b 8 == 1 then addRoute g b s else deleteRoute g b s
    let (bad, s1) := (maskBits 64 (u64 b 0)).foldl (fun (a : List (Nat × Status) × State) g =>
      match op g a.2 with
      | (none, s2) => (a.1, s2)
      | (some st, s2) => (a.1 ++ [(g, st)], s2)) ([], s)
    match bad.head? with
    | none => okWrite s1
    | some (_, st) =>
      .done s1 st (toLe 8 ((bad.map fun e => 2 ^ e.1).foldl (· + ·) 0) ++ toLe 2 (statusCode st)) []) s)

/-- LPM_ROUTE_READ as the opcode tables of Icoux give it (R514 to R520), with the checks of its fields. -/
def opLpmRouteRead : OpDef := readOp 0x0613 40 (lpmRouteFields true)

/-- LPM_ROUTE read. -/
def execLpmRouteRead (c : Cmd) (s : State) : Host.Outcome State Fault Refusal :=
  .next (icoux opLpmRouteRead c (fun _ b s =>
    match tabFind (fwdPipe s (u64 b 0).log2).routes (routeOf b) with
    | none => badAll .state
    | some r => okReply s (putField b 16 4 r)) s)

/-- LPM_BUCKET_FREE (R250): 2 µs after a pivot's removal its bucket is free. -/
def execLpmBucketFree (g : Pipe) (s : State) : Host.Outcome State Fault Refusal :=
  match (fwdPipe s g.val).freeing with
  | [] => .next s
  | t :: rest => .next (modFwdPipe g.val (fun v => { v with freeing := rest }) (reach t s))

/-! ### The host table (R251 to R254) -/

/-- The candidate buckets of a 144-bit key (R251). -/
def hostBucket (way key : Nat) : Nat := crc32cFrom (0xFFFFFFFF ^^^ (way * 0x01000000)) (toBe 18 key) % 2 ^ 22

def hostSlotKey (q bucket slot : Nat) : Nat := q * 2 ^ 24 + 4 * bucket + slot

/-- The slot of a bucket that holds a key. -/
def hostSlotIn (s : State) (q bucket key : Nat) : Option Nat :=
  firstIdx 4 fun i => match tabFind s.fwd.host (hostSlotKey q bucket i) with | some r => r.key == key | none => false

/-- The slot of the host table that holds a key: in b1, else in b2. -/
def hostFind (s : State) (q key : Nat) : Option (Nat × Nat) :=
  let b1 := hostBucket 0 key
  let b2 := hostBucket 1 key
  match hostSlotIn s q b1 key with
  | some i => some (b1, i)
  | none => (hostSlotIn s q b2 key).map fun i => (b2, i)

/-- Whether a bucket's slot 0 has alt_used set (R251). -/
def hostAltUsed (s : State) (q bucket : Nat) : Bool := tabGet 0 s.fwd.hostAlt (q * 2 ^ 22 + bucket) != 0

/-- Writes one slot; a written slot is good again. -/
def hostPut (q bucket slot : Nat) (r : Option HostRow) (s : State) : State :=
  let k := hostSlotKey q bucket slot
  modFwd (fun t =>
    { t with host := match r with | some x => tabPut k x t.host | none => tabDel k t.host
             hostBad := t.hostBad.filter (· != k) }) s

/-- Adds to, or takes from, the keys of a bucket that lie in their b2. -/
def hostAltAdd (q bucket : Nat) (up : Bool) (s : State) : State :=
  modFwd (fun t =>
    { t with hostAlt := tabMod 0 (q * 2 ^ 22 + bucket) (fun n => if up then n + 1 else n - 1) t.hostAlt }) s

/-- WRITE of a key (R254). -/
def hostWrite (q key result : Nat) (s : State) : Option State :=
  let row : HostRow := { key, result }
  let free := fun b => firstIdx 4 fun i => (tabFind s.fwd.host (hostSlotKey q b i)).isNone
  let b1 := hostBucket 0 key
  let b2 := hostBucket 1 key
  match hostFind s q key with
  | some (b, i) => some (hostPut q b i (some row) s)
  | none =>
    match free b1, free b2 with
    | some i, _ => some (hostPut q b1 i (some row) s)
    | none, some i => some (hostAltAdd q b1 true (hostPut q b2 i (some row) s))
    | none, none => none

/-- DELETE of the key at a slot: alt_used clears with the last such key (R254). -/
def hostDelete (q key b i : Nat) (s : State) : State :=
  let s1 := hostPut q b i none s
  if b == hostBucket 0 key then s1 else hostAltAdd q (hostBucket 0 key) false s1

/-- The key of a HOST_ENTRY object. -/
def hostEntryKey (b : Bytes) : Nat := u16 b 4 * 2 ^ 128 + field b 16 16

/-- The fields of HOST_ENTRY; READ and AGE need room for their reply (R488). -/
def hostEntryFields (replyMax : Nat) : List Fld :=
  [ { off := 0xFFFF, len := 0, chk := fun _ p => orElse (!((u8 p 1 == 3 || u8 p 1 == 4) && replyMax == 0)) .badarg },
    fRange 0 1 0 3 .range, fRange 1 1 1 4 .badarg, fAny 2 1, fRsv 3 1, fAny 4 2, fRsv 6 2, fBits 8 4 0xFFFFFFF, fRsv 12 4,
    fAny 16 16 ]

/-- HOST_ENTRY as the opcode tables of Icoux give it (R514 to R520), with the checks of its fields. -/
def opHostEntry (replyMax : Nat) : OpDef := writeOp 0x0614 32 (hostEntryFields replyMax)

/-- HOST_ENTRY (R254). -/
def execHostEntry (c : Cmd) (s : State) : Host.Outcome State Fault Refusal :=
  .next (icoux (opHostEntry (effectiveCmd c s).replyMax.toNat) c (fun _ b s =>
    let q := u8 b 0
    let key := hostEntryKey b
    match u8 b 1, hostFind s q key with
    | 1, _ => match hostWrite q key (u32 b 8) s with
      | some s1 => okWrite s1
      | none => badAll .nores
    | _, none => badAll .state
    | 2, some (k, i) => okWrite (hostDelete q key k i s)
    | op, some (k, i) =>
      match tabFind s.fwd.host (hostSlotKey q k i) with
      | none => badAll .state
      | some r =>
        let reply := putField (putField (putField b 1 1 0) 2 1 (1 + 2 * b2n r.hit)) 8 4 r.result
        okReply (if op == 4 then modFwd (fun t =>
            { t with host := tabPut (hostSlotKey q k i) { r with hit := false } t.host }) s else s) reply) s)

def hostLookupDefault : Bytes := putBytes (List.replicate 32 0) 14 (List.replicate 12 0xFF)

/-- The HOST_LOOKUP object of a pipeline, pipeline_mask zero (R252). -/
def hostLookupObj (s : State) (g : Nat) : Bytes :=
  if (fwdPipe s g).hostLookup.isEmpty then hostLookupDefault else (fwdPipe s g).hostLookup

/-- The used key fragments of a HOST_LOOKUP object. -/
def hostFragments (o : Bytes) : List Nat := ((List.range 6).map fun i => u16 o (14 + 2 * i)).filter (· != 0xFFFF)

/-- Whether a HOST_LOOKUP's fragments are containers, the used ones first, 144 bits wide or more. -/
def hostFragmentsBad (o : Bytes) : Option Status :=
  let l := (List.range 6).map fun i => u16 o (14 + 2 * i)
  if l.any fun c => inRange c 304 0xFFFE then some .range
  else if !((l.dropWhile (· != 0xFFFF)).all (· == 0xFFFF)) then some .badarg
  else orElse (144 ≤ ((hostFragments o).map contBits).foldl (· + ·) 0) .badarg

/-- The fields of HOST_LOOKUP. -/
def hostLookupFields : List Fld :=
  [ fPipeMask 0 false, fBits 8 1 1, fRange 9 1 0 13 .range,
    fDep 10 1 (fun _ p => orElse (inRange (u8 p 10) (u8 p 9 + 10) 23) .range),
    fDep 11 1 (fun _ p => orElse (u16 p 12 > 303 || u8 p 11 < contBits (u16 p 12)) .badarg),
    fRange 12 2 0 303 .range, fDep 14 12 (fun _ p => hostFragmentsBad p), fRsv 26 6 ]

/-- HOST_LOOKUP_WRITE as the opcode tables of Icoux give it (R514 to R520), with the checks of its fields. -/
def opHostLookupWrite : OpDef := writeOp 0x0615 32 hostLookupFields

/-- HOST_LOOKUP write (R252). -/
def execHostLookupWrite (c : Cmd) (s : State) : Host.Outcome State Fault Refusal :=
  .next (icoux opHostLookupWrite c (fun _ b s =>
    okWrite (forMask 64 (u64 b 0) (fun g => modFwdPipe g fun v => { v with hostLookup := putField b 0 8 0 }) s)) s)

/-- HOST_LOOKUP_READ as the opcode tables of Icoux give it (R514 to R520), with the checks of its fields. -/
def opHostLookupRead : OpDef := readOp 0x0616 32 [fPipeMask 0 true, fAny 8 24]

/-- HOST_LOOKUP read. -/
def execHostLookupRead (c : Cmd) (s : State) : Host.Outcome State Fault Refusal :=
  .next (icoux opHostLookupRead c (fun _ b s =>
    okReply s (putField (hostLookupObj s (u64 b 0).log2) 0 8 (u64 b 0))) s)

/-! ### Host-table reads (R253) -/

/-- The requests of quadrant `q`'s reader. -/
def hostReads (s : State) (q : Nat) : List HostRead := tabGet [] s.fwd.reads q

/-- `s` with a reader's requests set. -/
def setHostReads (q : Nat) (l : List HostRead) (s : State) : State :=
  modFwd (fun t => { t with reads := tabSet [] q l t.reads }) s

/-- A lookup ends: counted by status, its result held for result_stage; a stage that waits for it goes on. -/
def endHostRead (u status result late : Nat) (s : State) : State :=
  let v := frameOf s u
  let q := quadOfPipe v.pipe
  let s1 := count (cHostStatus status) q 1
    (setHostReads q ((hostReads s q).filter fun r => r.frame != u) s)
  let s2 := modFrame u (fun v => { v with hostDue := false, hostRes := status + 16 * result }) s1
  if v.place == .waiting then count cHostLateClocks q late (modFrame u (fun v => { v with place := .stage }) s2) else s2

/-- The request of a frame as its req_stage commits (R253). -/
def hostRequest (u : Nat) (s : State) : State :=
  let v := frameOf s u
  let o := v.hostCfg
  if !bit (u8 o 8) 0 || u8 o 9 != v.stage || !bit (contOf v (u16 o 12)) (u8 o 11) then s
  else
    let q := quadOfPipe v.pipe
    let key := joinConts (contOf v) (hostFragments o) % 2 ^ 144
    let s1 := spendPipe v.pipe 0 2 1 (count cHostLookups q 1 s)
    if readerFenced s q then endHostRead u 4 0 0 s1
    else if (hostReads s q).length ≥ 4096 then endHostRead u 3 0 0 s1
    else modFrame u (fun v => { v with hostDue := true }) (setHostReads q (hostReads s q ++ [{ frame := u, key }]) s1)

/-- HOST_BUCKET_READ_RETURN (R253): the bucket read of frame `u`'s request returns; `late` counts the clocks its stage waited. -/
def execHostBucketReadReturn (u late : Nat) (s : State) : Host.Outcome State Fault Refusal :=
  let q := quadOfPipe (frameOf s u).pipe
  match (hostReads s q).find? fun r => r.frame == u with
  | none => .next s
  | some r =>
    let b := hostBucket (b2n r.second) r.key
    if (bufQuad s q).retrain.isSome then .next s
    else
    let s := spendPipe (frameOf s u).pipe 1 4 1 s
    if readerFenced s q || s.fwd.hostBad.any (fun k => k / 4 == hostSlotKey q b 0 / 4) then .next (endHostRead u 4 0 late s)
    else
      match hostSlotIn s q b r.key with
      | some i =>
        match tabFind s.fwd.host (hostSlotKey q b i) with
        | none => .next s
        | some row =>
          .next (endHostRead u 1 row.result late (useBeats q 2 5
            (modFwd (fun t => { t with host := tabPut (hostSlotKey q b i) { row with hit := true } t.host }) s)))
      | none =>
        if !r.second && hostAltUsed s q b then
          .next (setHostReads q ((hostReads s q).map fun x => if x.frame == u then { x with second := true } else x) (useBeats q 2 4 s))
        else .next (endHostRead u 2 0 late (useBeats q 2 4 s))

/-- HOST_READ (R256): an uncorrectable bucket read; the slot is poisoned until it is rewritten. -/
def execHostRead (u : Nat) (slot : Fin 4) (s : State) : Host.Outcome State Fault Refusal :=
  let q := quadOfPipe (frameOf s u).pipe
  match (hostReads s q).find? fun r => r.frame == u with
  | none => .next s
  | some r =>
    let b := hostBucket (b2n r.second) r.key
    .next (detect 26 7 q (fun inj s =>
      kilnInj inj 0x0626 [(1, q), (4, b), (1, slot.val)] (endHostRead u 4 0 0
        (modFwd (fun t => { t with hostBad := hostSlotKey q b slot.val :: t.hostBad }) s))) s)

/-! ### Faults (R256) -/

/-- FDB_LEARN_FAULT (R256): the learn engine is reset and its queue discarded. -/
def execFdbLearnFault (g : Pipe) (s : State) : Host.Outcome State Fault Refusal :=
  .next (detect 24 5 g.val (fun _ s =>
    count cFdbLearnLost g.val (fwdPipe s g.val).learnQ.length
      (modFwdPipe g.val (fun v => { v with learnQ := [], learning := false }) s)) s)

/-- FDB_CMD_FAULT (R256): the operation ends with INTEGRITY before any write, and the window is reset. -/
def execFdbCmdFault (g : Pipe) (s : State) : Host.Outcome State Fault Refusal :=
  .next (detect 25 5 g.val (fun _ s =>
    modWindow g.val (fun w =>
      { session := w.session, rights := w.rights, status := if w.busy then statusCode .integrity else 0, done := w.busy }) s) s)

/-- FWD_AUDIT (R256): the audit finds `row` of the FDB duplicate or misplaced (none: an LPM row differs). The entry is removed;
a static one is restored from the shadow, and LPM rows are rewritten from the routes. -/
def execFwdAudit (g : Pipe) (row : Option Nat) (s : State) : Host.Outcome State Fault Refusal :=
  .next (detect 27 5 g.val (fun _ s =>
    match row with
    | none => s
    | some i =>
      match fdbAt s g.val i with
      | some r => if rowStatic r then s else fdbPut g.val i none s
      | none => s) s)

end Sys2Proof.Machine
end

