-- ==== Sys2Proof/Machine/Tree.lean ====
section
/-!
DEFINITION. The decision trees: their objects, rules, builds and walks (R166 to R171, R187).
-/

namespace Sys2Proof.Machine

/-! ### Trees and rules -/

/-- Tree `t` of quadrant `q`. -/
def treeOf (s : State) (q t : Nat) : Tree := tabGet {} s.mat.trees (16 * q + t)

/-- `s` with a tree set. -/
def setTree (q t : Nat) (v : Tree) (s : State) : State :=
  modMat (fun m => { m with trees := tabSet {} (16 * q + t) v m.trees }) s

def treeDefault (q t : Nat) : Bytes := putBytes (image 80 [(0, 1, q), (1, 1, t)]) 16 (List.replicate 64 0xFF)

/-- The TREE_TABLE object of a tree, root and generation filled in (R170). -/
def treeObj (s : State) (q t : Nat) : Bytes :=
  let v := treeOf s q t
  putField (putField (if v.obj.isEmpty then treeDefault q t else v.obj) 8 4 v.root) 12 4 v.generation

def treeEnabled (s : State) (q t : Nat) : Bool := bit (u8 (treeObj s q t) 2) 0
def treeCapacity (s : State) (q t : Nat) : Nat := u32 (treeObj s q t) 4

/-- The rule capacities of a quadrant's other trees. -/
def otherCapacity (s : State) (q t : Nat) : Nat :=
  (((List.range 16).filter (· != t)).map (treeCapacity s q)).foldl (· + ·) 0

/-- The checks of rule_capacity (R170). -/
def capacityCheck (s : State) (p : Bytes) : Option Status :=
  let q := u8 p 0
  let t := u8 p 1
  let n := u32 p 4
  if n > 1048576 then some .range
  else if n == 0 && bit (u8 p 2) 0 then some .badarg
  else if treeEnabled s q t && n != treeCapacity s q t then some .state
  else orElse (n + otherCapacity s q t ≤ 1048576) .nores

/-- The checks of key_map (R170). -/
def keyMapCheck (s : State) (p : Bytes) : Option Status :=
  if (List.range 32).any fun i => inRange (u16 p (16 + 2 * i)) 304 0xFFFE then some .range
  else orElse (!(treeEnabled s (u8 p 0) (u8 p 1) && slice p 16 64 != slice (treeObj s (u8 p 0) (u8 p 1)) 16 64)) .state

/-- The fields of TREE_TABLE. -/
def treeTableFields : List Fld :=
  [ (fRange 0 1 0 3 .range).asKey, (fRange 1 1 0 15 .range).asKey, fBits 2 1 1, fRsv 3 1, fDep 4 4 capacityCheck, fAny 8 4,
    fAny 12 4, fDep 16 64 keyMapCheck ]

/-- TREE_TABLE_WRITE as the opcode tables of Icoux give it (R514 to R520), with the checks of its fields. -/
def opTreeTableWrite : OpDef := writeOp 0x0605 80 treeTableFields

/-- TREE_TABLE write (R170). -/
def execTreeTableWrite (c : Cmd) (s : State) : Host.Outcome State Fault Refusal :=
  .next (icoux opTreeTableWrite c (fun _ b s =>
    okWrite (setTree (u8 b 0) (u8 b 1) { treeOf s (u8 b 0) (u8 b 1) with obj := putField b 8 8 0 } s)) s)

/-- TREE_TABLE_READ as the opcode tables of Icoux give it (R514 to R520), with the checks of its fields. -/
def opTreeTableRead : OpDef := readOp 0x0606 80 treeTableFields

/-- TREE_TABLE read. -/
def execTreeTableRead (c : Cmd) (s : State) : Host.Outcome State Fault Refusal :=
  .next (icoux opTreeTableRead c (fun _ b s => okReply s (treeObj s (u8 b 0) (u8 b 1))) s)

/-- The key of a rule in Icoux's rule list. -/
def ruleKey (q t i : Nat) : Nat := (16 * q + t) * 2 ^ 20 + i

/-- The rules of a tree in Icoux's list, by index. -/
def treeRules (s : State) (q t : Nat) : Store Bytes :=
  (s.mat.rules.filter fun e => e.1 / 2 ^ 20 == 16 * q + t).map fun e => (e.1 % 2 ^ 20, e.2)

/-- The matcher fields of a CLASSIFIER_RULE, 2 to 7. -/
def matcherFields : List Fld :=
  (List.range 6).flatMap fun i => [fRange (64 + 12 * i) 1 0 2 .badarg, fRsv (65 + 12 * i) 3, fAny (68 + 12 * i) 8]

/-- The index of a CLASSIFIER_RULE lies below the tree's rule_capacity (R171). -/
def ruleIndexFld : Fld := (fDep 4 4 fun s p => orElse (u32 p 4 < treeCapacity s (u8 p 0) (u8 p 1)) .range).asKey

/-- The fields of CLASSIFIER_RULE (R166, R171). -/
def classifierRuleFields : List Fld :=
  [ (fRange 0 1 0 3 .range).asKey, (fRange 1 1 0 15 .range).asKey, fRsv 2 2, ruleIndexFld, fAny 8 2, fBits 10 2 1, fAny 12 4,
    fRsv 16 8, fAny 24 32, fRange 56 1 0 128 .badarg, fRange 57 1 0 128 .badarg, fRsv 58 6 ] ++ matcherFields

/-- CLASSIFIER_RULE_WRITE as the opcode tables of Icoux give it (R514 to R520), with the checks of its fields. -/
def opClassifierRuleWrite : OpDef := writeOp 0x0607 136 classifierRuleFields

/-- CLASSIFIER_RULE write (R171): a rule with valid clear is deleted. -/
def execClassifierRuleWrite (c : Cmd) (s : State) : Host.Outcome State Fault Refusal :=
  .next (icoux opClassifierRuleWrite c (fun _ b s =>
    let k := ruleKey (u8 b 0) (u8 b 1) (u32 b 4)
    okWrite (modMat (fun m =>
      { m with rules := if bit (u8 b 10) 0 then tabPut k (b.drop 8) m.rules else tabDel k m.rules }) s)) s)

/-- CLASSIFIER_RULE_READ as the opcode tables of Icoux give it (R514 to R520), with the checks of its fields. -/
def opClassifierRuleRead : OpDef := readOp 0x0608 136 [(fRange 0 1 0 3 .range).asKey, (fRange 1 1 0 15 .range).asKey, fRsv 2 2, ruleIndexFld,
    fAny 8 128]

/-- CLASSIFIER_RULE read. -/
def execClassifierRuleRead (c : Cmd) (s : State) : Host.Outcome State Fault Refusal :=
  .next (icoux opClassifierRuleRead c (fun _ b s =>
    okReply s (b.take 8 ++ (tabFind s.mat.rules (ruleKey (u8 b 0) (u8 b 1) (u32 b 4))).getD (List.replicate 128 0))) s)

/-! ### Builds (R171) -/

/-- TREE_COMMIT as the opcode tables of Icoux give it (R514 to R520), with the checks of its fields. -/
def opTreeCommit : OpDef := writeOp 0x0609 8 [fRange 0 1 0 3 .range, fRange 1 1 0 15 .range, fRsv 2 6]

/-- TREE_COMMIT (R171, R497): a build of the next generation starts. -/
def execTreeCommit (c : Cmd) (s : State) : Host.Outcome State Fault Refusal :=
  .next (icoux opTreeCommit c (fun _ b s =>
    let q := u8 b 0
    let t := u8 b 1
    let v := treeOf s q t
    if v.building.isSome then badAll .busy
    else .done (setTree q t { v with building := some (treeRules s q t) } s) .pending (toLe 4 (wrapAdd 32 v.generation 1)) []) s)

/-- TREE_SWAP (R171): the build ends and takes the place of the old generation, with the root Icoux gave it; or node space ran
out and the old generation stays. -/
def execTreeSwap (q : Quad) (t : Fin 16) (ok : Bool) (root : Nat) (s : State) : Host.Outcome State Fault Refusal :=
  let v := treeOf s q.val t.val
  match v.building with
  | none => .next s
  | some rules =>
    if ok then
      let g := wrapAdd 32 v.generation 1
      .next (kiln 0x0605 [(1, q.val), (1, t.val), (4, g)]
        (setTree q.val t.val { v with generation := g, root := root % 2 ^ 24, built := rules, building := none,
                                      swappedAt := some s.now } s))
    else
      .next (kiln 0x0606 [(1, q.val), (1, t.val), (2, statusCode .nores)] (setTree q.val t.val { v with building := none } s))

/-- TREE_NODES_FREED (R171): 20 µs after the swap. -/
def execTreeNodesFreed (q : Quad) (t : Fin 16) (s : State) : Host.Outcome State Fault Refusal :=
  let v := treeOf s q.val t.val
  match v.swappedAt with
  | none => .next s
  | some a => .next (setTree q.val t.val { v with swappedAt := none } (reach (a + 20 * tUs) s))

/-! ### Walks (R167 to R169) -/

/-- The containers of field `f` of a tree's key. -/
def keyConts (o : Bytes) (f : Nat) : List Nat := ((List.range 4).map fun i => u16 o (16 + 8 * f + 2 * i)).filter (· != 0xFFFF)

/-- The eight fields of a walk key (R167): 0 and 1 left-aligned in 128 bits, the others right-aligned in 32. -/
def walkKey (o : Bytes) (v : Frame) : List Nat :=
  (List.range 8).map fun f =>
    let cs := keyConts o f
    let x := joinConts (contOf v) cs
    let w := (cs.map contBits).foldl (· + ·) 0
    if f < 2 then x * 2 ^ 128 / 2 ^ w % 2 ^ 128 else x % 2 ^ 32

/-- Whether a prefix of `len` bits of a 128-bit value matches. -/
def prefixMatches (x v len : Nat) : Bool := x / 2 ^ (128 - len) == v / 2 ^ (128 - len)

/-- Whether matcher `f`, 2 to 7, of a rule matches (R166). -/
def matcherMatches (r : Bytes) (f x : Nat) : Bool :=
  let o := 56 + 12 * (f - 2)
  match u8 r o with
  | 1 => u32 r (o + 4) ≤ x && x ≤ u32 r (o + 8)
  | 2 => x &&& u32 r (o + 8) == u32 r (o + 4)
  | _ => true

/-- Whether a rule matches a walk key. -/
def ruleMatches (r : Bytes) (key : List Nat) : Bool :=
  let x := fun f => (key[f]?).getD 0
  prefixMatches (x 0) (field r 16 16) (u8 r 48) && prefixMatches (x 1) (field r 32 16) (u8 r 49) &&
    (List.range 6).all fun i => matcherMatches r (2 + i) (x (2 + i))

/-- The matching rule of highest priority, lowest index among equals (R161, R168). -/
def bestRule (rules : Store Bytes) (key : List Nat) : Option (Nat × Bytes) :=
  rules.foldl (fun best e =>
    if !ruleMatches e.2 key then best
    else
      match best with
      | none => some e
      | some b => if u16 b.2 0 < u16 e.2 0 then some e else best) none

/-- The walk requests of quadrant `q`. -/
def walksOf (s : State) (q : Nat) : List Walk := tabGet [] s.mat.walks q

/-- `s` with a quadrant's walk requests set. -/
def setWalks (q : Nat) (l : List Walk) (s : State) : State := modMat (fun m => { m with walks := tabSet [] q l m.walks }) s

/-- The inspection requests of quadrant `q`. -/
def inspReqs (s : State) (q : Nat) : List InspReq := tabGet [] s.sig.reqs q

/-- `s` with a quadrant's inspection requests set. -/
def setInspReqs (q : Nat) (l : List InspReq) (s : State) : State := modSig (fun t => { t with reqs := tabSet [] q l t.reqs }) s

/-- `s` with the inspection request of frame `u` changed. -/
def modInspReq (q u : Nat) (f : InspReq → InspReq) (s : State) : State :=
  setInspReqs q ((inspReqs s q).map fun r => if r.frame == u then f r else r) s

/-- F8 of a walk's end. -/
def treeF8 (status rule t : Nat) : Nat := status + 256 * rule + 2 ^ 28 * t

/-- The finished walks at the head of a queue and the rest. -/
def finishedWalks : List Walk → List (Nat × (Nat × Nat)) × List Walk
  | [] => ([], [])
  | w :: t =>
    match w.result with
    | none => ([], w :: t)
    | some r =>
      let (a, b) := finishedWalks t
      ((w.frame, r) :: a, b)

/-- Results go to their requests in request order (R169). -/
def returnWalks (q : Nat) (s : State) : State :=
  let (ends, rest) := finishedWalks (walksOf s q)
  ends.foldl (fun s e => modInspReq q e.1 (fun r => { r with tree := some e.2 }) s) (setWalks q rest s)

/-- The walk of frame `u` ends with a status. -/
def endWalk (q u status rule data : Nat) (s : State) : State :=
  let ended := (walksOf s q).map fun w =>
    if w.frame == u then { w with result := some (treeF8 status rule w.tree, data) } else w
  returnWalks q (count (cTreeStatus status) q 1 (count cTreeWalks q 1 (setWalks q ended s)))

/-- The walk of frame `u` that has not ended. -/
def walkOf (s : State) (q u : Nat) : Option Walk := (walksOf s q).find? fun w => w.frame == u && w.result.isNone

/-- A walk request of frame `u` (R169, R170): refused at once, or queued. -/
def requestWalk (q u t : Nat) (s : State) : State :=
  let atOnce := fun (st : Nat) (s : State) =>
    count (cTreeStatus st) q 1 (modInspReq q u (fun r => { r with tree := some (treeF8 st 0 t, 0) }) s)
  if treeFenced s q t then atOnce 5 s
  else if !treeEnabled s q t then atOnce 2 s
  else if (walksOf s q).length ≥ 4096 then atOnce 3 (kilnOnce 0x0607 q [(1, q)] s)
  else setWalks q (walksOf s q ++ [{ frame := u, tree := t }]) s

/-- A walk that starts takes its key and the generation it walks. -/
def startWalk (s : State) (q u : Nat) (w : Walk) : Walk :=
  match w.began with
  | some _ => w
  | none => { w with began := some s.now, key := walkKey (treeObj s q w.tree) (frameOf s u), rules := (treeOf s q w.tree).built }

/-- A walk that goes wrong ends as ERROR, and Icoux rebuilds the tree from its rule list (R187, bit 19). -/
def treeFault (q u t : Nat) (s : State) : State :=
  detect 19 8 (16 * q + t) (fun _ s =>
    let v := treeOf s q t
    endWalk q u 5 0 0 (if v.building.isSome then s else setTree q t { v with building := some (treeRules s q t) } s)) s

/-- TREE_NODE_READ_RETURN (R168): a node of type `kind` returns, with `rules` rules read for a LEAF. A walk that ends finds what
the rules of its generation give (assumption 41). -/
def execTreeNodeReadReturn (u : Nat) (kind : Fin 4) (rules : Fin 17) (s : State) : Host.Outcome State Fault Refusal :=
  let q := quadOfPipe (frameOf s u).pipe
  match walkOf s q u with
  | none => .next s
  | some w0 =>
    if (bufQuad s q).retrain.isSome then .next s else
    let w := startWalk s q u w0
    let w' := { w with depth := w.depth + 1 }
    let s1 := setWalks q ((walksOf s q).map fun x => if x.frame == u then w' else x) s
    let reads := 1 + (if kind.val == 2 then 2 * rules.val else 0)
    let s2 := spendPipe (frameOf s u).pipe 1 4 reads (useBeats q 2 reads (count cTreeReads q reads s1))
    match kind.val with
    | 1 => .next (if w'.depth == 16 then endWalk q u 4 0 0 s2 else s2)
    | 3 => .next (treeFault q u w.tree s2)
    | _ =>
      match bestRule w.rules w.key with
      | some (i, r) => .next (endWalk q u 1 i (u32 r 4) s2)
      | none => .next (endWalk q u 2 0 0 s2)

/-- TREE_WALK_TIMEOUT (R168): a walk unfinished after 20 µs. -/
def execTreeWalkTimeout (u : Nat) (s : State) : Host.Outcome State Fault Refusal :=
  let q := quadOfPipe (frameOf s u).pipe
  match walkOf s q u with
  | none => .next s
  | some w => .next (treeFault q u w.tree (reach (w.began.getD s.now + 20 * tUs) s))

/-- MAT_TREE (R187): an uncorrectable node or rule read of the walk of frame `u`. -/
def execMatTree (q : Quad) (u : Nat) (s : State) : Host.Outcome State Fault Refusal :=
  match walkOf s q.val u with
  | none => .next s
  | some w => .next (treeFault q.val u w.tree s)

end Sys2Proof.Machine
end

