-- ==== Sys2Proof/Machine/Spill.lean ====
section
/-!
DEFINITION. DRAM spill and return, scrub, the objects and the faults of the shared buffer (R282 to R285, R291 to R307).
-/

namespace Sys2Proof.Machine

/-! ### Spill and return (R292 to R295) -/

/-- The first copy of a queue's DRAM section that has a staging cell to write, if that cell is completely written and no other
write of the queue runs. -/
def writableCopy (s : State) (no : Nat) : Option Nat :=
  let sect := (bufQueue s no).fifo.filter fun c => (copyAt s c).spill.isSome
  if sect.any fun c => ((copyAt s c).spill.map Spilled.writing) == some true then none
  else
    match sect.find? fun c => !(copyAt s c).cells.isEmpty && ((copyAt s c).spill.map Spilled.reading) == some false with
    | none => none
    | some c =>
      let x := copyAt s c
      let v := frameOf s x.frame
      let w := match x.spill with | some z => z.written | none => 0
      if v.ended || 256 * (w + 1) ≤ v.data.length then some c else none

/-- The spilling queues of quadrant `q` with a cell to write. -/
def writableQueues (s : State) (q : Nat) : List Nat :=
  (s.buf.queues.filter fun e => quadOfPort (e.1 / 20) == q && e.2.spilling && (writableCopy s e.1).isSome).map Prod.fst

/-- The next of some queues, round-robin after the queue served last. -/
def nextTurn (last : Nat) (l : List Nat) : Option Nat :=
  match l.find? (fun n => last < n) with
  | some n => some n
  | none => l.head?

/-- Whether SPILL may take `n` beats in this window: the damper's spill limit caps it (R298, R405). -/
def spillAllowed (s : State) (q n : Nat) : Bool :=
  beatsLeft s q n &&
    (s.pow.spillLimit ≥ 100 || tabGet 0 (bufQuad s q).beats 3 + n ≤ windowBeats * s.pow.spillLimit / 100)

/-- SPILL_WRITE (R292): the spill engine sends one staging cell to its slot. -/
def execSpillWrite (q : Quad) (s : State) : Host.Outcome State Fault Refusal :=
  match nextTurn (bufQuad s q.val).spillTurn (writableQueues s q.val) with
  | none => .next s
  | some no =>
    match writableCopy s no with
    | none => .next s
    | some c =>
      if !spillAllowed s q.val 4 then .next s
      else .next (useBeats q.val 3 4 (modQuad q.val (fun b => { b with spillTurn := no })
        (modCopy c (fun x => { x with spill := x.spill.map fun z => { z with writing := true } }) s)))

/-- SPILL_WRITE_DONE (R292): the write of the queue's cell is complete and the cell is released. -/
def execSpillWriteDone (p : Port) (k : Fin 20) (s : State) : Host.Outcome State Fault Refusal :=
  let no := queueNo p.val k.val
  match (bufQueue s no).fifo.find? fun c => ((copyAt s c).spill.map Spilled.writing) == some true with
  | none => .next s
  | some c =>
    let x := copyAt s c
    let s1 := modCopy c (fun y => { uncharge 1 y with
      cells := y.cells.drop 1, spill := y.spill.map fun z => { z with writing := false, written := z.written + 1 } }) s
    .next (count cBufSpillWrites x.quad 1 ((x.cells.take 1).foldl (releaseCell true x.quad) s1))

/-- The return window of a queue (R293). -/
def returnWindow (s : State) (no : Nat) : Nat :=
  (((bufQueue s no).fifo.takeWhile fun c => (copyAt s c).spill.isNone).map fun c => (copyAt s c).cells.length).foldl (· + ·) 0

/-- The QUEUE_AGE limit of a queue in µs (R328). -/
def ageLimit (s : State) (p k : Nat) : Nat := u32 (tabGet [] s.sw.queueAge p) (8 + 4 * k)

/-- Whether a copy is older than its queue's limit (R329). -/
def copyAged (s : State) (x : Copy) : Bool :=
  let lim := ageLimit s x.port x.queue
  let age : Int := (stampTotal (datapathStamp s x.quad) : Int) - stampTotal (frameOf s x.frame).stamp
  lim != 0 && age > lim * 65536000

/-- Drops a copy past its age limit. -/
def ageOut (c : Nat) (s : State) : State :=
  let x := copyAt s c
  dropCopy c 0x2C 0 (count cSwcAged (queueNo x.port x.queue) 1 s)

/-- A spilled copy is back in the window: its slots are released. -/
def returned (c : Nat) (s : State) : State :=
  let x := copyAt s c
  let no := queueNo x.port x.queue
  endSpill x.quad no (count (bufQueueCnt 7) no 1
    ((copySlots x).foldl (releaseSlot x.quad) (modCopy c (fun y => { y with spill := none }) s)))

/-- The read of a spilled copy's slots is issued: cells come from the shared pool, and the slots are released. -/
def startReturn (c : Nat) (s : State) : State :=
  let x := copyAt s c
  let n := (copySlots x).length
  match takeCells x.quad n s with
  | none => s
  | some (l, s1) =>
    let s2 := modCopy c (fun y => { y with cells := l, shared := n
                                           spill := y.spill.map fun z => { z with reading := true, stalled := false, slots := [] } }) s1
    let s3 := (copySlots x).foldl (releaseSlot x.quad) s2
    let s4 := modQueue (queueNo x.port x.queue) (fun u => { u with peak := max u.peak (queueSram s3 (queueNo x.port x.queue)) }) s3
    notePeakFree x.quad (useBeats x.quad 3 (4 * n) (count cBufReturnReads x.quad n (count cBufAlloc x.quad n s4)))

/-- The return engine takes the next copy of a queue's DRAM section: discarded, moved, read, or waiting for a cell. -/
def returnNext (c : Nat) (s : State) : State :=
  let x := copyAt s c
  match x.spill with
  | none => s
  | some z =>
    if z.reading || z.stalled then s
    else if copyAged s x then ageOut c s
    else if z.bad then dropCopy c 0x26 35 s
    else if z.written == 0 && !z.writing then count cBufBypass x.quad 1 (returned c s)
    else if !x.cells.isEmpty || z.writing then s
    else if z.slots.length > sharedFree s x.quad then
      count cBufStalls x.quad 1 (modCopy c (fun y => { y with spill := y.spill.map fun w => { w with stalled := true } }) s)
    else if spillAllowed s x.quad (4 * z.slots.length) then startReturn c s else s

/-- RETURN_READ (R293, R294): the queue's return window is below return_cells. -/
def execReturnRead (p : Port) (k : Fin 20) (s : State) : Host.Outcome State Fault Refusal :=
  let no := queueNo p.val k.val
  match sectionHead s no with
  | none => .next s
  | some c =>
    if returnWindow s no < returnCells (queueProfile s p.val k.val) && (bufQuad s (quadOfPort p.val)).retrain.isNone then
      .next (returnNext c s)
    else .next s

/-- RETURN_STALL_RESUME (R293): a return that waited for shared cells has them. -/
def execReturnStallResume (p : Port) (k : Fin 20) (s : State) : Host.Outcome State Fault Refusal :=
  let no := queueNo p.val k.val
  match (bufQueue s no).fifo.find? fun c => ((copyAt s c).spill.map Spilled.stalled) == some true with
  | none => .next s
  | some c =>
    if (copySlots (copyAt s c)).length ≤ sharedFree s (quadOfPort p.val) && spillAllowed s (quadOfPort p.val) 4 then
      .next (startReturn c s)
    else .next s

/-- Resets the spill engines: the queue's DRAM section is flushed and the queue returns to NORMAL (R306, bit 37). -/
def resetSection (p k : Nat) (inj : Bool) (s : State) : State :=
  let no := queueNo p k
  let sect := (bufQueue s no).fifo.filter fun c => (copyAt s c).spill.isSome
  kilnInj inj 0x080A [(1, quadOfPort p), (2, p), (1, k), (4, sect.length)]
    (endSpill (quadOfPort p) no (sect.foldl (fun s c => dropCopy c 0x26 37 s) s))

/-- SPILL_ORDER (R295, R306): a break in the sequence, or an engine that stands still. -/
def execSpillOrder (p : Port) (k : Fin 20) (s : State) : Host.Outcome State Fault Refusal :=
  if (bufQueue s (queueNo p.val k.val)).spilling then
    .next (detect 37 7 (quadOfPort p.val) (resetSection p.val k.val) s)
  else .next s

/-- RETURN_READ_DONE (R293, R295): the slots' data is in SRAM; `inOrder` says that the sequence number read follows the last. -/
def execReturnReadDone (p : Port) (k : Fin 20) (inOrder : Bool) (s : State) : Host.Outcome State Fault Refusal :=
  let no := queueNo p.val k.val
  match (bufQueue s no).fifo.find? fun c => ((copyAt s c).spill.map Spilled.reading) == some true with
  | none => .next s
  | some c =>
    if (bufQuad s (quadOfPort p.val)).retrain.isSome then .next s
    else if inOrder then .next (returned c s)
    else .next (detect 37 7 (quadOfPort p.val) (resetSection p.val k.val) s)

/-- DRAM_SHARE_WINDOW (R298): a 1 µs window of the stack ends and every share counts anew. -/
def execDramShareWindow (q : Quad) (s : State) : Host.Outcome State Fault Refusal :=
  .next (modQuad q.val (fun b => { b with beats := [] }) s)

/-! ### Scrub (R300, R301) -/

/-- The audit of class 1: cells that no copy reaches are released. -/
def auditCells (q : Nat) (s : State) : State :=
  let b := bufQuad s q
  let leaks := (b.cells.filter fun e => e.2 == 0 && !b.retired.contains e.1).map Prod.fst
  if leaks.isEmpty then s
  else
    let s1 := leaks.foldl (fun s c => modQuad q (fun b => { b with cells := tabDel c b.cells }) s) s
    raiseFault 31 7 q false (kiln 0x0805 [(1, q), (4, leaks.length)]
      (count cBufRelease q leaks.length (count cBufLeaks q leaks.length s1)))

/-- A scrub pass of class `c` in quadrant `q` has overrun its period; its mark becomes `mark`. -/
def countScrubOverrun (q c mark : Nat) (s : State) : State :=
  kiln 0x080B [(1, q), (1, c)] (modQuad q (fun b =>
    { b with scrubbing := tabSet 0 c mark b.scrubbing, overruns := tabMod 0 c (fun v => satAdd 32 v 1) b.overruns }) s)

/-- SCRUB_PASS_DONE (R300, R301, R32): a pass of class `c` ends; when the next is already due it starts at once. -/
def execScrubPassDone (q : Quad) (c : Fin 4) (s : State) : Host.Outcome State Fault Refusal :=
  match tabGet 0 (bufQuad s q.val).scrubbing c.val with
  | 0 => .next s
  | n =>
    let s1 := if c.val == 1 then auditCells q.val s else s
    match n with
    | 1 => .next (modQuad q.val (fun b => { b with scrubbing := tabSet 0 c.val 0 b.scrubbing }) s1)
    | 2 => .next (countScrubOverrun q.val c.val 1 s1)
    | _ => .next (modQuad q.val (fun b => { b with scrubbing := tabSet 0 c.val 1 b.scrubbing }) s1)

/-! ### Faults (R306) -/

/-- A copy with an uncorrectable word: a started copy is stomped, another dropped; a spilled one is dropped at its turn. -/
def badWord (detail : Nat) (s : State) (c : Nat) : State :=
  let x := copyAt s c
  if x.gone then s
  else if x.started then
    let (n, s1) := takeFree s
    stompCopy c (n % ((frameOf s x.frame).data.length + 1)) 0x26 detail s1
  else if x.spill.isSome then modCopy c (fun y => { y with spill := y.spill.map fun z => { z with bad := true } }) s
  else dropCopy c 0x26 detail s

/-- The copies of quadrant `q` that hold cell `c`. -/
def holders (s : State) (q c : Nat) : List Nat := copiesWith s fun x => x.quad == q && x.cells.contains c

/-- BUF_DATA (R306): an uncorrectable word in a cell's data. -/
def execBufData (q : Quad) (c : Nat) (s : State) : Host.Outcome State Fault Refusal :=
  .next (detect 30 7 q.val (fun _ s =>
    (holders s q.val c).foldl (badWord 30) (modQuad q.val (fun b => { b with suspect := (c, s.now) :: b.suspect }) s)) s)

/-- A copy whose chain is broken after cell `c`: the cells beyond are lost until the audit, and the copy is dropped. -/
def breakChain (c : Nat) (s : State) (k : Nat) : State :=
  let x := copyAt s k
  let kept := x.cells.take ((x.cells.findIdx fun y => y == c) + 1)
  let lost := x.cells.drop kept.length
  let s1 := modQuad x.quad (fun b => { b with cells := lost.foldl (fun t y => tabUpd y (· - 1) t) b.cells }) s
  let s2 := modCopy k (fun y => { uncharge lost.length y with cells := kept }) s1
  if x.started then
    let (n, s3) := takeFree s2
    stompCopy k (n % ((frameOf s x.frame).data.length + 1)) 0x26 31 s3
  else dropCopy k 0x26 31 s2

/-- BUF_LINK (R306): an uncorrectable link entry of cell `c`, or, without one, bitmap word. -/
def execBufLink (q : Quad) (c : Option Nat) (s : State) : Host.Outcome State Fault Refusal :=
  .next (detect 31 7 q.val (fun _ s => match c with
    | some c => (holders s q.val c).foldl (breakChain c) s
    | none => modQuad q.val (fun b => { b with rebuilds := b.rebuilds ++ [31] }) s) s)

/-- BUF_DESC (R281, R306): an uncorrectable word in the descriptor of copy `c`, or, when `double`, a second release of one. -/
def execBufDesc (q : Quad) (c : Nat) (double : Bool) (s : State) : Host.Outcome State Fault Refusal :=
  if double then
    .next (detect 33 7 q.val (fun inj s =>
      let (n, s1) := takeFree s
      kilnInj inj 0x0803 [(1, q.val), (1, 2), (4, n % 1048576)] (count cBufDescDoubleFrees q.val 1 s1)) s)
  else match tabFind s.buf.copies c with
    | none => .next s
    | some x =>
      if x.quad != q.val || x.gone then .next s
      else .next (detect 33 7 q.val (fun _ s =>
        if x.started then
          let (n, s1) := takeFree s
          stompCopy c (n % ((frameOf s x.frame).data.length + 1)) 0x26 33 s1
        else dropCopy c 0x26 33 s) s)

/-- BUF_COUNT (R306): a count of the queue underflows; the quadrant's counts are rebuilt. -/
def execBufCount (p : Port) (k : Fin 20) (s : State) : Host.Outcome State Fault Refusal :=
  let q := quadOfPort p.val
  .next (detect 34 7 q (fun _ s =>
    modQuad q (fun b => { b with rebuilds := b.rebuilds ++ [34] })
      (modQueue (queueNo p.val k.val) (fun u => { u with rebuilding := true }) s)) s)

/-- POOL_REBUILD (R306): the oldest rebuild of the quadrant is complete. -/
def execPoolRebuild (q : Quad) (s : State) : Host.Outcome State Fault Refusal :=
  match (bufQuad s q.val).rebuilds with
  | [] => .next s
  | b :: t =>
    let (n, s1) := takeFree s
    let s2 := kiln 0x0804 [(1, q.val), (1, n % 256), (1, b)] (modQuad q.val (fun x => { x with rebuilds := t }) s1)
    if b == 34 && !t.contains 34 then
      .next ((s2.buf.queues.filter fun e => quadOfPort (e.1 / 20) == q.val).foldl
        (fun s e => modQueue e.1 (fun u => { u with rebuilding := false }) s) s2)
    else .next s2

/-- DRAM_DATA (R301, R306): an uncorrectable beat in slot `k` (16 × block + slot): its frame is dropped at its turn, its block
retired once free. -/
def execDramData (q : Quad) (k : Nat) (s : State) : Host.Outcome State Fault Refusal :=
  let b := k / 16
  if b ≥ 3145728 then .next s
  else .next (detect 35 10 q.val (fun _ s =>
    let s1 := (copiesWith s fun x => x.quad == q.val && (copySlots x).contains k).foldl (fun s c =>
      modCopy c (fun y => { y with spill := y.spill.map fun z => { z with bad := true } }) s) s
    let free := (tabFind (bufQuad s q.val).blocks b).isNone
    settleBlock q.val b (modQuad q.val (fun u => { u with
      blocks := tabMod {} b (fun x => { x with bad := true, closed := x.closed || free }) u.blocks }) s1)) s)

/-- DRAM_LINK (R306): the stack's interface retrains; its requests are held. -/
def execDramLink (q : Quad) (s : State) : Host.Outcome State Fault Refusal :=
  .next (detect 36 10 q.val (fun _ s => modQuad q.val (fun b => { b with retrain := some (b.retrain.getD s.now) }) s) s)

/-- DRAM_RETRAIN (R306): the retrain completes and spill and return resume. -/
def execDramRetrain (q : Quad) (s : State) : Host.Outcome State Fault Refusal :=
  match (bufQuad s q.val).retrain with
  | none => .next s
  | some t => .next (kiln 0x0809 [(1, q.val), (4, (s.now - t) / tUs)] (modQuad q.val (fun b => { b with retrain := none }) s))

/-- DRAM_REQUEST_TIMEOUT (R306): a host read or tree walk of frame `u`, held 20 µs by a retrain, ends with ERROR. -/
def execDramRequestTimeout (q : Quad) (u : Nat) (s : State) : Host.Outcome State Fault Refusal :=
  match (bufQuad s q.val).retrain with
  | none => .next s
  | some t =>
    if quadOfPipe (frameOf s u).pipe != q.val then .next s
    else if (hostReads s q.val).any fun r => r.frame == u then
      .next (endHostRead u 4 0 0 (reach (t + 20 * tUs) s))
    else match walkOf s q.val u with
      | some _ => .next (endWalk q.val u 5 0 0 (reach (t + 20 * tUs) s))
      | none => .next s

/-! ### Commands (R282 to R285, R297, R300, R303, R304) -/

/-- A write that changes the pools, unless it leaves shared_cells below its floor (R283). -/
def poolWrite (s' : State) : CmdResult := if poolsFit s' then okWrite s' else badAll .nores

/-- The fields of BUFFER_POOL (R282). -/
def bufferPoolFields : List Fld :=
  [ (fRange 0 1 0 3 .range).asKey, fRsv 1 3, fRange 4 4 0 131072 .range, fRange 8 4 0 3145728 .range, fRsv 12 4 ]

/-- BUFFER_POOL_WRITE as the opcode tables of Icoux give it (R514 to R520), with the checks of its fields. -/
def opBufferPoolWrite : OpDef := writeOp 0x0801 16 bufferPoolFields

/-- BUFFER_POOL write (R282, R283). -/
def execBufferPoolWrite (c : Cmd) (s : State) : Host.Outcome State Fault Refusal :=
  .next (icoux opBufferPoolWrite c (fun _ b s =>
    poolWrite (modQuad (u8 b 0) (fun x => { x with pool := if b == poolDefault (u8 b 0) then [] else b }) s)) s)

/-- BUFFER_POOL_READ as the opcode tables of Icoux give it (R514 to R520), with the checks of its fields. -/
def opBufferPoolRead : OpDef := readOp 0x0802 16 bufferPoolFields

/-- BUFFER_POOL read. -/
def execBufferPoolRead (c : Cmd) (s : State) : Host.Outcome State Fault Refusal :=
  .next (icoux opBufferPoolRead c (fun _ b s => okReply s (bufferPool s (u8 b 0))) s)

/-- A field with `lo` to `hi`, else RANGE; zero is BADARG. -/
def fNonzero (off len lo hi : Nat) : Fld := fVal off len fun v => if v == 0 then some .badarg else orElse (inRange v lo hi) .range

/-- The fields of ADMIT_PROFILE (R284). -/
def admitProfileFields (read : Bool) : List Fld :=
  [ fQuadMask 0 read, (fRange 1 1 0 63 .range).asKey,
    fDep 2 1 (fun _ p => orElse (inRangeI (s8 p 2) (-7) 3) .range),
    fRange 3 1 0 8 .range, fRange 4 1 0 8 .range, fRsv 5 3, fRange 8 4 0 65536 .range,
    fDep 12 4 (fun _ p => if u32 p 12 == 0 then some .badarg else orElse (inRange (u32 p 12) (u32 p 8) 655360) .range),
    fDep 16 4 (fun _ p => orElse (u32 p 16 ≤ u32 p 12) .badarg),
    fDep 20 4 (fun _ p => if u32 p 20 == 0 && u32 p 16 != 0 then some .badarg else orElse (u32 p 20 ≤ 3145728) .range),
    fNonzero 24 4 16 4096, fRsv 28 4 ]

/-- Whether a divided queue would spill (R359). -/
def dividedSpills (s : State) : Bool :=
  s.bufferProfile == 1 && s.sch.ext.any fun e => spillOn (queueProfile s (e.1 / 20) (e.1 % 20)) != 0

/-- ADMIT_PROFILE_WRITE as the opcode tables of Icoux give it (R514 to R520), with the checks of its fields. -/
def opAdmitProfileWrite : OpDef := writeOp 0x0803 32 (admitProfileFields false)

/-- ADMIT_PROFILE write (R283, R284, R359). -/
def execAdmitProfileWrite (c : Cmd) (s : State) : Host.Outcome State Fault Refusal :=
  .next (icoux opAdmitProfileWrite c (fun _ b s =>
    let o := putField b 0 1 0
    let n := u8 b 1
    let s' := forMask 4 (u8 b 0) (fun q s => modBuf (fun t =>
      { t with profiles := tabSet (profileAdmitDefault n) (64 * q + n) o t.profiles }) s) s
    if dividedSpills s' then badAll .state else poolWrite s') s)

/-- ADMIT_PROFILE_READ as the opcode tables of Icoux give it (R514 to R520), with the checks of its fields. -/
def opAdmitProfileRead : OpDef := readOp 0x0804 32 (admitProfileFields true)

/-- ADMIT_PROFILE read. -/
def execAdmitProfileRead (c : Cmd) (s : State) : Host.Outcome State Fault Refusal :=
  .next (icoux opAdmitProfileRead c (fun _ b s =>
    okReply s (putField (admitProfile s (u8 b 0).log2 (u8 b 1)) 0 1 (u8 b 0))) s)

/-- A port number, of a port configured or not (R12): one beyond 1,023 is RANGE. -/
def fPortNo : Fld := (fRange 0 2 0 1023 .range).asKey

/-- The fields of PORT_ADMIT (R285). -/
def portAdmitFields : List Fld :=
  [fPortNo, fRsv 2 2] ++ ((List.range 20).map fun k => fRange (4 + k) 1 0 63 .range) ++ [fRsv 24 8] ++
  (List.range 8).map fun c => fVal (32 + 4 * c) 4 (fun v => orElse (v == 0 || inRange v 2 67108863) .range)

/-- PORT_ADMIT_WRITE as the opcode tables of Icoux give it (R514 to R520), with the checks of its fields. -/
def opPortAdmitWrite : OpDef := writeOp 0x0805 64 portAdmitFields

/-- PORT_ADMIT write (R283, R285, R359). -/
def execPortAdmitWrite (c : Cmd) (s : State) : Host.Outcome State Fault Refusal :=
  .next (icoux opPortAdmitWrite c (fun _ b s =>
    let p := u16 b 0
    let s' := modBuf (fun t => { t with portAdmit := tabSet (portAdmitDefault p) p b t.portAdmit }) s
    if dividedSpills s' then badAll .state else poolWrite s') s)

/-- PORT_ADMIT_READ as the opcode tables of Icoux give it (R514 to R520), with the checks of its fields. -/
def opPortAdmitRead : OpDef := readOp 0x0806 64 portAdmitFields

/-- PORT_ADMIT read. -/
def execPortAdmitRead (c : Cmd) (s : State) : Host.Outcome State Fault Refusal :=
  .next (icoux opPortAdmitRead c (fun _ b s => okReply s (portAdmit s (u16 b 0))) s)

def dramShareDefault : Bytes := image 8 [(1, 1, 40), (2, 1, 40)]

/-- The DRAM_SHARE object of stack `q`, quadrant_mask zero. -/
def dramShare (s : State) (q : Nat) : Bytes := let o := (bufQuad s q).share; if o.isEmpty then dramShareDefault else o

/-- The fields of DRAM_SHARE (R297). -/
def dramShareFields (read : Bool) : List Fld :=
  [ fQuadMask 0 read, fNonzero 1 1 10 90,
    fDep 2 1 (fun _ p => if u8 p 2 > 80 then some .range else orElse (u8 p 1 + u8 p 2 ≤ 90) .badarg), fRsv 3 5 ]

/-- DRAM_SHARE_WRITE as the opcode tables of Icoux give it (R514 to R520), with the checks of its fields. -/
def opDramShareWrite : OpDef := writeOp 0x0807 8 (dramShareFields false)

/-- DRAM_SHARE write (R297). -/
def execDramShareWrite (c : Cmd) (s : State) : Host.Outcome State Fault Refusal :=
  .next (icoux opDramShareWrite c (fun _ b s =>
    let o := putField b 0 1 0
    okWrite (forMask 4 (u8 b 0) (fun q s => modQuad q (fun x => { x with share := if o == dramShareDefault then [] else o }) s) s)) s)

/-- DRAM_SHARE_READ as the opcode tables of Icoux give it (R514 to R520), with the checks of its fields. -/
def opDramShareRead : OpDef := readOp 0x0808 8 (dramShareFields true)

/-- DRAM_SHARE read. -/
def execDramShareRead (c : Cmd) (s : State) : Host.Outcome State Fault Refusal :=
  .next (icoux opDramShareRead c (fun _ b s =>
    okReply s (putField (dramShare s (u8 b 0).log2) 0 1 (u8 b 0))) s)

def bufScrubDefault : Bytes := image 24 [(4, 4, 100), (8, 4, 100), (12, 4, 10000), (16, 4, 30000)]

/-- The BUF_SCRUB object. -/
def bufScrub (s : State) : Bytes := if s.buf.scrub.isEmpty then bufScrubDefault else s.buf.scrub

/-- A domain field: above 3 RANGE, disabled STATE. -/
def fLiveDomain (off : Nat) : Fld :=
  fDep off 1 fun s p => if u8 p off > 3 then some .range else orElse (domainOf s (u8 p off)).enable .state

/-- The fields of BUF_SCRUB (R300). -/
def bufScrubFields : List Fld :=
  [fLiveDomain 0, fRsv 1 3] ++
  ((List.range 4).map fun c => fVal (4 + 4 * c) 4 (fun v =>
    orElse (v == 0 || if c < 2 then v ≤ 60000 else inRange v 1000 600000) .range)) ++ [fRsv 20 4]

/-- Icoux's firing entry of a scrub class (assumption 54). -/
def scrubEntry (c : Nat) : Nat := 456 + c

/-- Places the SCRUB_EPOCH entries that a BUF_SCRUB object asks for. -/
def placeScrub (b : Bytes) (s : State) : State :=
  (List.range 4).foldl (fun s c => placeOwn (u8 b 0) (scrubEntry c) 0x11 c 0 (u32 b (4 + 4 * c) * 1000000) s) s

/-- BUF_SCRUB_WRITE as the opcode tables of Icoux give it (R514 to R520), with the checks of its fields. -/
def opBufScrubWrite : OpDef := writeOp 0x0809 24 bufScrubFields

/-- BUF_SCRUB write (R300). -/
def execBufScrubWrite (c : Cmd) (s : State) : Host.Outcome State Fault Refusal :=
  .next (icoux opBufScrubWrite c (fun _ b s =>
    okWrite (placeScrub b (modBuf (fun t => { t with scrub := if b == bufScrubDefault then [] else b }) s))) s)

/-- BUF_SCRUB_READ as the opcode tables of Icoux give it (R514 to R520), with the checks of its fields. -/
def opBufScrubRead : OpDef := readOp 0x080A 24 bufScrubFields

/-- BUF_SCRUB read. -/
def execBufScrubRead (c : Cmd) (s : State) : Host.Outcome State Fault Refusal :=
  .next (icoux opBufScrubRead c (fun _ _ s => okReply s (bufScrub s)) s)

/-- The BUFFER_STATUS object of quadrant `q` (R303). -/
def bufferStatusObj (s : State) (q : Nat) : Bytes :=
  let b := bufQuad s q
  image 56 ([(0, 1, q), (1, 1, s.bufferProfile), (4, 4, freeCells s q), (8, 4, b.minFree.getD allCells), (12, 4, sharedFree s q),
    (16, 4, headroomUsed s q), (20, 4, b.retired.length), (24, 4, freeDescriptors s q), (28, 4, freeBlocks s q),
    (32, 4, (b.blocks.filter fun e => e.2.dead).length),
    (36, 4, (s.buf.queues.filter fun e => quadOfPort (e.1 / 20) == q && e.2.spilling).length)] ++
    (List.range 4).map fun c => (40 + 4 * c, 4, tabGet 0 b.overruns c))

/-- BUFFER_STATUS as the opcode tables of Icoux give it (R514 to R520), with the checks of its fields. -/
def opBufferStatus : OpDef := readOp 0x080B 56 [(fRange 0 1 0 3 .range).asKey, fRsv 1 55]

/-- BUFFER_STATUS (R303): reading clears min_free_cells to what is free now. -/
def execBufferStatus (c : Cmd) (s : State) : Host.Outcome State Fault Refusal :=
  .next (icoux opBufferStatus c (fun _ b s =>
    okReply (modQuad (u8 b 0) (fun x => { x with minFree := if freeCells s (u8 b 0) == allCells then none else some (freeCells s (u8 b 0)) }) s)
      (bufferStatusObj s (u8 b 0))) s)

/-- QUEUE_BUFFER_STATUS as the opcode tables of Icoux give it (R514 to R520), with the checks of its fields. -/
def opQueueBufferStatus : OpDef := readOp 0x080C 24
    [(fDep 0 2 fun s p => portCheck s (u16 p 0)).asKey, (fRange 2 1 0 19 .range).asKey, fRsv 3 21]

/-- QUEUE_BUFFER_STATUS (R304): reading clears peak_cells to what is held now. -/
def execQueueBufferStatus (c : Cmd) (s : State) : Host.Outcome State Fault Refusal :=
  .next (icoux opQueueBufferStatus c (fun _ b s =>
    let no := queueNo (u16 b 0) (u8 b 2)
    let u := bufQueue s no
    okReply (modQueue no (fun u => { u with peak := queueSram s no }) s)
      (image 24 [(0, 2, u16 b 0), (2, 1, u8 b 2), (3, 1, b2n u.spilling), (4, 4, queueSram s no), (8, 4, queueSlots s no),
        (12, 4, u.fifo.length), (16, 4, u.peak), (20, 1, profileNo s (u16 b 0) (u8 b 2))])) s)

end Sys2Proof.Machine
end

