-- ==== Sys2Proof/Machine/SwitchCmd.lean ====
section
/-!
DEFINITION. The commands of the switching core: mesh, multicast groups, mirror sessions, age limits and the drop policy
(R313, R320, R322, R323, R328, R332).
-/

namespace Sys2Proof.Machine

/-! ### MESH_CONFIG (R313) -/

/-- The fields of MESH_CONFIG. -/
def meshFields (read : Bool) : List Fld :=
  [ fQuadMask 0 read, fBits 1 1 1, fNonzero 2 1 10 90, fDep 3 1 (fun _ p => orElse (u8 p 3 < u8 p 2) .badarg), fRsv 4 4 ]

/-- MESH_CONFIG_WRITE as the opcode tables of Icoux give it (R514 to R520), with the checks of its fields. -/
def opMeshConfigWrite : OpDef := writeOp 0x0901 8 (meshFields false)

/-- MESH_CONFIG write. -/
def execMeshConfigWrite (c : Cmd) (s : State) : Host.Outcome State Fault Refusal :=
  .next (icoux opMeshConfigWrite c (fun _ b s =>
    let o := putField b 0 1 0
    okWrite (forMask 4 (u8 b 0) (fun q s => modSw (fun w => { w with meshConfig := tabSet meshDefault q o w.meshConfig }) s) s)) s)

/-- MESH_CONFIG_READ as the opcode tables of Icoux give it (R514 to R520), with the checks of its fields. -/
def opMeshConfigRead : OpDef := readOp 0x0902 8 (meshFields true)

/-- MESH_CONFIG read. -/
def execMeshConfigRead (c : Cmd) (s : State) : Host.Outcome State Fault Refusal :=
  .next (icoux opMeshConfigRead c (fun _ b s =>
    okReply s (putField (meshConfig s (u8 b 0).log2) 0 1 (u8 b 0))) s)

/-! ### MCAST_GROUP (R320, R322) -/

/-- The members of a group's object: port and queue bits of each. -/
def mcastMembers (o : Bytes) : List Nat := (List.range (u16 o 4)).map fun i => u16 o (16 + 2 * i)

/-- The entries of quadrant `q` that a list of members takes. -/
def membersIn (q : Nat) (l : List Nat) : Nat := (l.filter fun m => quadOfPort (m % 1024) == q).length

/-- The entries in use in quadrant `q`'s replication table: every list in force, kept, or written and not yet in force. -/
def replicationUsed (s : State) (q : Nat) : Nat :=
  let groups := (s.sw.groups.map fun e =>
    membersIn q (mcastMembers e.2.obj) + (e.2.old.map fun x => membersIn q (mcastMembers x.2)).foldl (· + ·) 0).foldl (· + ·) 0
  let waiting := (s.time.tagged.map fun t => match t with | .mcast o _ => membersIn q (mcastMembers o) | _ => 0).foldl (· + ·) 0
  groups + waiting

/-- The first member that uses a reserved bit or names a port a second time. -/
def badMember (l : List Nat) : Option Nat :=
  firstIdx l.length fun i =>
    l.getD i 0 ≥ 4096 || (l.take i).any fun m => m % 1024 == l.getD i 0 % 1024

/-- The header fields of MCAST_GROUP. -/
def mcastFields : List Fld :=
  [ (fVal 0 2 fun v => orElse (v != 0) .badarg).asKey, fBits 2 1 1, fRsv 3 1, fRange 4 2 0 1024 .range, fAny 6 2, fRsv 8 8 ]

/-- MCAST_GROUP_WRITE as the opcode tables of Icoux give it (R514 to R520), with the checks of its fields. -/
def opMcastGroupWrite : OpDef := { writeOp 0x0903 16 mcastFields with len := fun p => 16 ≤ p.length && p.length == 16 + 2 * u16 p 4 }

/-- MCAST_GROUP write: the new lists are written, and the version flips at the next strobe. -/
def execMcastGroupWrite (c : Cmd) (s : State) : Host.Outcome State Fault Refusal :=
  .next (icoux opMcastGroupWrite c
    (fun _ b s =>
      let l := mcastMembers b
      match badMember l with
      | some i => badField (16 + 2 * i) .badarg
      | none =>
        if (List.range 4).all (fun q => replicationUsed s q + membersIn q l ≤ 262144) then
          .later fun id => tagWrite (.mcast b id) s
        else badAll .nores) s)

/-- MCAST_GROUP_READ as the opcode tables of Icoux give it (R514 to R520), with the checks of its fields. -/
def opMcastGroupRead : OpDef := readOp 0x0904 16 mcastFields

/-- MCAST_GROUP read: the request is the header, the reply the header and the members. -/
def execMcastGroupRead (c : Cmd) (s : State) : Host.Outcome State Fault Refusal :=
  .next (icoux opMcastGroupRead c (fun _ b s =>
    let o := (tabGet {} s.sw.groups (u16 b 0)).obj
    okReply s (if o.isEmpty then image 16 [(0, 2, u16 b 0)] else o)) s)

/-! ### MIRROR_SESSION (R323) -/

/-- The fields of MIRROR_SESSION. -/
def mirrorFields : List Fld :=
  [ (fRange 0 1 0 3 .range).asKey, (fRange 1 1 0 15 .range).asKey,
    fVal 2 1 (fun v => orElse (v < 8 && !(bit v 1 && bit v 2)) .badarg), fRange 3 1 0 2 .badarg,
    fDep 4 2 (fun s p => if bits (u8 p 2) 1 2 == 0 then portCheck s (u16 p 4) else orElse (u16 p 4 == 0) .badarg),
    fRange 6 1 0 19 .range, fDep 7 1 (fun _ p => orElse (!bit (u8 p 2) 1 || u8 p 7 ≤ 63) .range),
    fDep 8 4 (fun _ p => if u32 p 8 == 0 && bit (u8 p 2) 0 then some .badarg else orElse (u32 p 8 ≤ 16777216) .range),
    fVal 12 2 (fun v => orElse (v == 0 || inRange v 64 16383) .range),
    fDep 14 1 (fun _ p => orElse (!bit (u8 p 2) 2 || u8 p 14 / 16 == u8 p 0) .badarg),
    fRsv 15 1, fAny 16 32, fAny 48 32, fRsv 80 16 ]

/-- MIRROR_SESSION_WRITE as the opcode tables of Icoux give it (R514 to R520), with the checks of its fields. -/
def opMirrorSessionWrite : OpDef := writeOp 0x0905 96 mirrorFields

/-- MIRROR_SESSION write: sampling counts anew (R324). -/
def execMirrorSessionWrite (c : Cmd) (s : State) : Host.Outcome State Fault Refusal :=
  .next (icoux opMirrorSessionWrite c (fun _ b s =>
    let i := 16 * u8 b 0 + u8 b 1
    okWrite (kiln 0x090A [(1, u8 b 0), (1, u8 b 1)] (modSw (fun w =>
      { w with sessions := tabMod {} i (fun m => { m with obj := if b == sessionDefault i then [] else b, selected := 0 }) w.sessions }) s))) s)

/-- MIRROR_SESSION_READ as the opcode tables of Icoux give it (R514 to R520), with the checks of its fields. -/
def opMirrorSessionRead : OpDef := readOp 0x0906 96 mirrorFields

/-- MIRROR_SESSION read. -/
def execMirrorSessionRead (c : Cmd) (s : State) : Host.Outcome State Fault Refusal :=
  .next (icoux opMirrorSessionRead c (fun _ b s => okReply s (sessionObj s (16 * u8 b 0 + u8 b 1))) s)

/-! ### QUEUE_AGE (R328) -/

def queueAgeDefault (p : Nat) : Bytes := image 88 [(0, 2, p)]

/-- The fields of QUEUE_AGE. -/
def queueAgeFields : List Fld :=
  [(fDep 0 2 fun s p => portCheck s (u16 p 0)).asKey, fRsv 2 6] ++
  (List.range 20).map fun k => fRange (8 + 4 * k) 4 0 1000000 .range

/-- QUEUE_AGE_WRITE as the opcode tables of Icoux give it (R514 to R520), with the checks of its fields. -/
def opQueueAgeWrite : OpDef := writeOp 0x0907 88 queueAgeFields

/-- QUEUE_AGE write. -/
def execQueueAgeWrite (c : Cmd) (s : State) : Host.Outcome State Fault Refusal :=
  .next (icoux opQueueAgeWrite c (fun _ b s =>
    let p := u16 b 0
    okWrite (modSw (fun w => { w with queueAge := tabSet (queueAgeDefault p) p b w.queueAge }) s)) s)

/-- QUEUE_AGE_READ as the opcode tables of Icoux give it (R514 to R520), with the checks of its fields. -/
def opQueueAgeRead : OpDef := readOp 0x0908 88 queueAgeFields

/-- QUEUE_AGE read. -/
def execQueueAgeRead (c : Cmd) (s : State) : Host.Outcome State Fault Refusal :=
  .next (icoux opQueueAgeRead c (fun _ b s =>
    okReply s ((tabFind s.sw.queueAge (u16 b 0)).getD (queueAgeDefault (u16 b 0)))) s)

/-! ### DROP_POLICY (R332) -/

/-- The fields of DROP_POLICY. -/
def dropPolicyFields (read : Bool) : List Fld :=
  [ fQuadMask 0 read, fRsv 1 3, fAny 4 4, fAny 8 4, fRsv 12 4, fAny 16 32 ]

/-- DROP_POLICY_WRITE as the opcode tables of Icoux give it (R514 to R520), with the checks of its fields. -/
def opDropPolicyWrite : OpDef := writeOp 0x0909 48 (dropPolicyFields false)

/-- DROP_POLICY write: every limit it sets starts full (R573). -/
def execDropPolicyWrite (c : Cmd) (s : State) : Host.Outcome State Fault Refusal :=
  .next (icoux opDropPolicyWrite c (fun _ b s =>
    let o := putField b 0 1 0
    okWrite (forMask 4 (u8 b 0) (fun q s =>
      let s1 := modSw (fun w => { w with dropPolicy := tabSet dropPolicyDefault q o w.dropPolicy }) s
      (List.range 256).foldl (fun s r => writeLimit .dropReason (256 * q + r) q (u32 b 8) s)
        (writeLimit .dropQuad q q (u32 b 4) s1)) s)) s)

/-- DROP_POLICY_READ as the opcode tables of Icoux give it (R514 to R520), with the checks of its fields. -/
def opDropPolicyRead : OpDef := readOp 0x090A 48 (dropPolicyFields true)

/-- DROP_POLICY read. -/
def execDropPolicyRead (c : Cmd) (s : State) : Host.Outcome State Fault Refusal :=
  .next (icoux opDropPolicyRead c (fun _ b s =>
    okReply s (putField (dropPolicyOf s (u8 b 0).log2) 0 1 (u8 b 0))) s)

end Sys2Proof.Machine
end

