-- ==== Sys2Proof/Machine/Egress.lean ====
section
/-!
DEFINITION. What the egress MAC does to a copy: timestamps, IOAM data, IEEE 1588 operations, the wire bytes, and postcards
(R46 to R52, R110, R381, R384 to R389).
-/

namespace Sys2Proof.Machine

/-! ### Egress times (R46 to R48) -/

/-- The egress time of a copy of port `p` in domain `d`: `ahead` from now until its first bit crosses the balls, with the
uncertainty `err`, both in 1/65,536 ns. -/
def egressStamp (s : State) (p d ahead : Nat) (err : Int) : Stamp :=
  let t := stampOf s (quadOfPort p) d
  stampFrom ((stampTotal t : Int) + ahead + err + s32 (portTimeObj s p) 8) t.holdover

/-! ### IOAM (R384 to R386) -/

def telProfileDefault (n : Nat) : Bytes := image 40 [(1, 1, n), (8, 2, 272)]

/-- Telemetry profile `n` of quadrant `q`, quadrant_mask zero. -/
def telemetryProfile (s : State) (q n : Nat) : Bytes := (tabFind s.tel.profiles (256 * q + n)).getD (telProfileDefault n)

/-- RFC bit `i` of a profile's trace type. -/
def rfcBit (o : Bytes) (i : Nat) : Bool := bit (field o 4 3) (23 - i)

/-- `n` bytes of ones: a field the device cannot fill. -/
def ones (n : Nat) : Bytes := List.replicate n 0xFF

/-- The ingress time of a frame in domain `d`: latched in the datapath domain and in its port's ptp_domain only (R47). -/
def ingressIn (s : State) (v : Frame) (d : Nat) : Option (Nat × Nat) :=
  if !(domainOf s d).enable then none
  else if d == datapathDomain s then some (v.stamp.sec, v.stamp.ns)
  else if v.source != 2 && u8 (portTimeObj s v.port) 2 == d then some (bits v.tsPtp 48 48, bits v.tsPtp 16 32)
  else none

/-- The nanoseconds a frame spent in the device, as RFC bit 4 gives them. -/
def transitNs (v : Frame) (e : Stamp) : Nat :=
  let d := frameLatency v e
  if d < 0 || d ≥ 2147483648 then 0xFFFFFFFF else d.toNat

/-- One field of the node data (R385). -/
def nodeField (s : State) (o : Bytes) (v : Frame) (x : Copy) (e : Stamp) (thr : Bool) (i : Nat) : Bytes :=
  let hop := contOf v (u16 o 10) % 256
  let inPort := fun (n : Nat) => if v.source == 2 then ones n else toBe n v.port
  let time := ingressIn s v (u8 o 7)
  match i with
  | 0 => toBe 1 hop ++ toBe 3 (u64 o 12)
  | 1 => inPort 2 ++ toBe 2 x.port
  | 2 => match time with | some t => toBe 4 t.1 | none => ones 4
  | 3 => match time with | some t => toBe 4 t.2 | none => ones 4
  | 4 => toBe 4 (transitNs v e)
  | 5 => toBe 4 (u64 o 20 % 2 ^ 31 + 2 ^ 31 * b2n thr)
  | 6 => toBe 4 x.queueCells
  | 8 => toBe 1 hop ++ toBe 7 (u64 o 12)
  | 9 => inPort 4 ++ toBe 4 x.port
  | 10 => toBe 8 (u64 o 20 % 2 ^ 63 + 2 ^ 63 * b2n thr)
  | 11 => toBe 4 x.quadCells
  | _ => []

/-- The node data of a profile: its fields in RFC order. -/
def nodeData (s : State) (o : Bytes) (v : Frame) (x : Copy) (e : Stamp) (thr : Bool) : Bytes :=
  (List.range 12).flatMap fun i => if rfcBit o i then nodeField s o v x e thr i else []

/-- The edits of a frame, and the telemetry counter they count in. -/
structure Edits where
  insert : Option (Nat × Bytes) := none
  writes : List (Nat × Bytes) := []
  counter : Option Counter := none

/-- The enabled length fields of a profile: offset from T, width in bytes and unit. -/
def lengthFields (o : Bytes) : List (Int × Nat × Nat) :=
  ((List.range 3).map fun i => u16 o (28 + 2 * i)).filterMap fun w =>
    if bit w 10 then some (toSigned 8 w, if bit w 8 then 2 else 1, if bit w 9 then 8 else 1) else none

/-- What profile `o` does to a frame of `len` bytes with the bytes `b` at hand (R386). -/
def ioamEdits (o b data : Bytes) (t len : Nat) : Edits :=
  let lens := lengthFields o
  let w := fieldBe b (t + 2) 2
  let overflow : Edits := { writes := [(t + 2, toBe 2 (setBits w 10 1 1))], counter := some cTelIoamOverflow }
  if t + 8 > 256 || lens.any (fun f => (t : Int) + f.1 < 0) then { counter := some cTelIoamErrors }
  else if u8 o 2 == 1 then
    let n := data.length / 4
    if w % 128 < n then overflow
    else { writes := [(t + 8 + 4 * (w % 128 - n), data), (t + 2, toBe 2 (w - n))], counter := some cTelIoamInserted }
  else if len + data.length > 16383 then overflow
  else
    let raise := fun (f : Int × Nat × Nat) =>
      let at_ := ((t : Int) + f.1).toNat
      (at_, toBe f.2.1 (fieldBe b at_ f.2.1 + data.length / f.2.2))
    { insert := some (t + 8, data), writes := lens.map raise, counter := some cTelIoamInserted }

/-- Whether a copy carries what the program asked of the egress MAC: mirror copies and export frames leave as stored. -/
def plainCopy (x : Copy) : Bool := x.mirror.isNone && x.exporter.isNone

/-- The profile that a copy names, if it is enabled. -/
def activeProfile (s : State) (v : Frame) (x : Copy) : Option Bytes :=
  let n := bits (metaF v 3) 8 8
  let o := telemetryProfile s x.quad n
  if plainCopy x && n != 0 && bit (u8 o 3) 0 then some o else none

/-- The IOAM edits of a copy that is selected now. -/
def copyIoam (s : State) (v : Frame) (x : Copy) (e : Stamp) (thr : Bool) : Edits × Nat :=
  match activeProfile s v x with
  | none => ({}, 0)
  | some o =>
    if u8 o 2 == 0 || (exporterOf s x.quad).down then ({}, 0)
    else
      let t := contOf v (u16 o 8) % 512
      (ioamEdits o v.data (nodeData s o v x e thr) t (if v.ended then v.data.length else v.maxFrame), t)

/-! ### IEEE 1588 (R50 to R52) -/

/-- The UDP checksum `c` after the bytes `old` of its datagram have become `new`, both of even length and offset. -/
def udpUpdate (c : Nat) (old new : Bytes) : Nat :=
  let r := 65535 - fold16 ((65535 - c) + (65535 * (old.length / 2) - sum16 old) + sum16 new)
  if r == 0 then 0xFFFF else r

/-- The field updates of operation `op` at PTP offset `po`, with the UDP header at `uo`: correctionField, originTimestamp and the
UDP checksum (R50, R51). -/
def ptpWrites (op po uo : Nat) (b : Bytes) (resid : Int) (t : Stamp) : List (Nat × Bytes) :=
  let origin := op == 1 || op == 3
  let add := (if op == 2 || op == 3 then resid else 0) + (if origin then (t.frac : Int) else 0)
  let corr := toBe 8 (ofSigned 64 ((fieldBe b (po + 8) 8 : Int) + add))
  let w := (po + 8, corr) :: if origin then [(po + 34, toBe 6 t.sec ++ toBe 4 t.ns)] else []
  let c := fieldBe b (uo + 6) 2
  if uo == 0 || c == 0 then w
  else
    let from_ := if (po + 8 - uo) % 2 == 0 then po + 8 else po + 7
    let len := if from_ == po + 8 then 36 else 38
    let b1 := w.foldl (fun b x => putBytes b x.1 x.2) b
    w ++ [(uo + 6, toBe 2 (udpUpdate c (slice b from_ len) (slice b1 from_ len)))]

/-- A two-step record (R52). -/
def twoStepRecord (p po : Nat) (b : Bytes) (t : Stamp) : Bytes :=
  image 24 [(0, 2, p), (2, 2, fieldBe b (po + 30) 2), (4, 1, u8 b po % 16), (5, 1, u8 b (po + 4)), (8, 8, t.sec), (16, 4, t.ns),
            (20, 2, t.frac), (22, 1, b2n t.holdover)]

/-- Captures a two-step record in the FIFO of port `p`'s pipeline. -/
def captureTwoStep (p : Nat) (r : Bytes) (s : State) : State :=
  let g := pipeOfPort p
  let v := tabGet {} s.time.twoStep g
  if v.records.length ≥ 256 then
    kilnOnce 0x0B09 g [(1, g)] (modTime (fun t => { t with twoStep := tabSet {} g { v with overflow := v.overflow + 1 } t.twoStep }) s)
  else modTime (fun t => { t with twoStep := tabSet {} g { v with records := v.records ++ [r] } t.twoStep }) s

/-- The writes of a copy's ptp_op on the bytes `b`, whose IOAM data moved what lies beyond `t` by `n` bytes, and the state after
it: program errors counted, a two-step record captured. -/
def copyPtp (p : Nat) (v : Frame) (b : Bytes) (t n : Nat) (resid : Int) (e : Stamp) (s : State) : List (Nat × Bytes) × State :=
  let f4 := metaF v 4
  let op := bits f4 0 3
  let moved := fun (o : Nat) => if o > t then o + n else o
  let po := moved (bits f4 3 8)
  let uo := if bits f4 11 8 == 0 then 0 else moved (bits f4 11 8)
  if op == 0 then ([], s)
  else if op == 4 then ([], captureTwoStep p (twoStepRecord p po b e) s)
  else if op > 4 || po + 44 > 256 || (uo != 0 && uo ≥ po) then ([], count cTxPtpErrors p 1 s)
  else (ptpWrites op po uo b resid e, s)

/-- Starts copy `c` on its port (R46, R50, R386): its edits and its egress time are fixed. -/
def startCopy (c ahead : Nat) (err : Int) (s : State) : State :=
  let x := copyAt s c
  let v := frameOf s x.frame
  let p := x.port
  let e := egressStamp s p (datapathDomain s) ahead err
  let thr := throttled s v p
  let (io, t) := copyIoam s v x e thr
  let n := match io.insert with | some (_, d) => d.length | none => 0
  let b := applyEdits { copy := c, insert := io.insert, writes := io.writes } v.data
  let s1 := match io.counter with | some k => count k x.quad 1 s | none => s
  let (w, s2) := if plainCopy x then
      copyPtp p v b t n ((stampTotal e : Int) - stampTotal v.stamp) (egressStamp s p (u8 (portTimeObj s p) 2) ahead err) s1
    else ([], s1)
  modPortSched p (fun y => { y with tx := some { copy := c, insert := io.insert, writes := io.writes ++ w, egress := e, throttled := thr } }) s2

/-! ### The wire (R110) -/

/-- The bytes of a complete copy on the wire: padded to 60 bytes before its new FCS. -/
def wireBytes (v : Frame) (x : Copy) (t : Tx) : Bytes :=
  let b := txBody v x t
  let b1 := b ++ List.replicate (60 - b.length) 0
  b1 ++ fcsOf b1

/-! ### Postcards (R388, R389) -/

/-- The postcard of copy `x` that has left at time `e`, where its profile and its exporter allow it. -/
def postcard (x : Copy) (t : Tx) (s : State) : State :=
  let v := frameOf s x.frame
  let q := x.quad
  match activeProfile s v x with
  | none => s
  | some o =>
    if !bit (metaF v 3) 16 then s
    else
      let k := 256 * q + bits (metaF v 3) 8 8
      let n := tabGet 0 s.tel.postcardCount k
      let s1 := modTel (fun y => { y with postcardCount := tabPut k (n + 1) y.postcardCount }) s
      if n % 2 ^ u8 o 34 != 0 then s1
      else match exporterFor s1 q false with
        | none => count cTelUnrouted q 1 s1
        | some e =>
          let (ok, s2) := takeLimit .postcard e s1
          if !ok then count cTelSuppressed q 1 s2
          else
            let snap := min (u8 o 35 / 8) (v.data.length / 8)
            let i : CopyInfo := { copyInfo s2 x with cells := x.queueCells, throttled := t.throttled }
            makeRecord q e (eulisRecord s2 q 1 0 v i t.egress snap) (count cTelPostcards q 1 s2)

end Sys2Proof.Machine
end

