-- ==== Sys2Proof/Machine/Select.lean ====
section
/-!
DEFINITION. Gates, eligibility and the scheduler's choice (R317, R348 to R353, R361 to R365).
-/

namespace Sys2Proof.Machine

/-! ### Gate lists (R361 to R365) -/

/-- Entry `k` of a gate list: its gate states, its op and its duration in ns. -/
def gateStates (o : Bytes) (k : Nat) : Nat := u8 o (24 + 8 * k)
def gateOp (o : Bytes) (k : Nat) : Nat := u8 o (25 + 8 * k)
def gateNs (o : Bytes) (k : Nat) : Nat := u32 o (28 + 8 * k)
def gateCount (o : Bytes) : Nat := u16 o 4

/-- The list that works on port `p`: applied, enabled and started. -/
def liveGates (v : PortSched) : Option (Bytes × Nat × Nat) :=
  match v.gates, v.gateStart with
  | some o, some (t, d) => if bit (u8 o 2) 0 then some (o, t, d) else none
  | _, _ => none

/-- The gates that are open on a port, a bit per class (R363). -/
def openGates (v : PortSched) : Nat :=
  match liveGates v with
  | some (o, _, _) => gateStates o v.gateEntry
  | none => 0xFF

/-- The time from a cycle start to the start of entry `k`. -/
def entryOffset (o : Bytes) (k : Nat) : Nat := ((List.range k).map (gateNs o)).foldl (· + ·) 0

/-- The enabled GATE_CYCLE entries that name port `p`, with their domains. -/
def cycleEntries (s : State) (p : Nat) : List (Nat × FiringEntry) :=
  (s.time.entries.filter fun e => e.2.enabled && entryAction e.2 == 3 && entryTarget e.2 == p).map fun e => (e.1 / 512, e.2)

/-- The time in ns from now to the next cycle start of port `p`, if one comes; a start due now is zero. -/
def nextCycle (s : State) (p : Nat) : Option Nat :=
  let q := quadOfPort p
  ((cycleEntries s p).filterMap fun e => (instantOn e.2 q).map fun i => i - copyNs (copyOf s q e.1)).foldl
    (fun a x => match a with | none => some x | some y => some (min x y)) none

/-- The shortest period of the entries that name port `p`. -/
def cyclePeriod (s : State) (p : Nat) : Option Nat :=
  ((cycleEntries s p).filterMap fun e => if entryPeriod e.2 == 0 then none else some (entryPeriod e.2)).foldl
    (fun a x => match a with | none => some x | some y => some (min x y)) none

/-- A stretch of a list: whether class `c` is open, and for how long; none is without end. -/
abbrev Stretch := Bool × Option Nat

/-- The stretches of entries `k` on, cut off at `limit` ns; the last entry lasts until then. -/
def stretches (o : Bytes) (c : Nat) : Nat → Nat → Option Nat → List Stretch
  | 0, _, _ => []
  | fuel + 1, k, limit =>
    let isOpen := bit (gateStates o k) c
    if k + 1 ≥ gateCount o then [(isOpen, limit)]
    else match limit with
      | some l => if l ≤ gateNs o k then [(isOpen, some l)] else (isOpen, some (gateNs o k)) :: stretches o c fuel (k + 1) (some (l - gateNs o k))
      | none => (isOpen, some (gateNs o k)) :: stretches o c fuel (k + 1) none

/-- How long the first stretches stay open; none is without end. -/
def openFor : List Stretch → Option Nat
  | [] => none
  | (false, _) :: _ => some 0
  | (true, none) :: _ => none
  | (true, some n) :: t => (openFor t).map (n + ·)

/-- How long class `c` of port `p` stays open from now, looking ahead at most one full cycle beyond the next cycle start (R364). -/
def gateOpenFor (s : State) (p c : Nat) : Option Nat :=
  let v := portSched s p
  let next := nextCycle s p
  let now := match liveGates v with
    | none => [(true, next)]
    | some (o, t, d) =>
      let into := copyNs (copyOf s (quadOfPort p) d) - t
      let rest := entryOffset o (v.gateEntry + 1) - into
      if v.gateEntry + 1 ≥ gateCount o then [(bit (gateStates o v.gateEntry) c, next)]
      else match next with
        | some l => if l ≤ rest then [(bit (gateStates o v.gateEntry) c, some l)]
          else (bit (gateStates o v.gateEntry) c, some rest) :: stretches o c 128 (v.gateEntry + 1) (some (l - rest))
        | none => (bit (gateStates o v.gateEntry) c, some rest) :: stretches o c 128 (v.gateEntry + 1) none
  let after := match v.gatesStaged.or v.gates with
    | some o => if bit (u8 o 2) 0 then stretches o c 128 0 (cyclePeriod s p) else []
    | none => []
  if next.isNone then openFor now else openFor (now ++ after)

/-- The longest open interval of class `c` in port `p`'s list, one that wraps included; none when it is always or never open. -/
def longestOpen (s : State) (p c : Nat) : Option Nat :=
  match liveGates (portSched s p) with
  | none => none
  | some (o, _, _) =>
    let l := stretches o c 128 0 (cyclePeriod s p)
    if l.all (fun x => x.1) || !(l.any fun x => x.1) then none
    else
      (List.range l.length).foldl (fun a i =>
        match a, openFor (l.drop i ++ l.take i) with
        | some x, some y => some (max x y)
        | _, _ => none) (some 0)

/-- Whether `n` bytes on the wire of port `p`, with preamble and gap, fit an open time. -/
def fitsOpen (s : State) (p n : Nat) (t : Option Nat) : Bool :=
  match t with
  | none => true
  | some t => (max n 64 + 20) * 8000 ≤ t * portMbps s p

/-! ### Copies that may start (R317, R349) -/

/-- The length L with which a copy is charged (R351). -/
def chargeLen (s : State) (x : Copy) : Nat :=
  let v := frameOf s x.frame
  if v.ended then copyLen v x.trunc else v.maxFrame

/-- Whether copy `x` may start as far as its storage goes: it is whole, or cut-through lets it. -/
def startable (s : State) (x : Copy) : Bool :=
  let v := frameOf s x.frame
  x.spill.isNone && (v.ended || (x.cutThrough && 256 ≤ v.data.length && (bufQueue s (queueNo x.port x.queue)).fifo.length == 1))

/-- Whether preemption is active on port `p` and class `c` is preemptable there (R119). -/
def preemptable (s : State) (p c : Nat) : Bool := (macPort s p).preemptPhase == .active && !bit (u8 (portPreempt s p) 3) c

/-- The least size of a fragment of port `p`, its check sequence included (R118). -/
def minFragment (s : State) (p : Nat) : Nat := 64 * (1 + u8 (portPreempt s p) 4)

/-- What the gate check asks a copy of class `c` to fit. -/
def gateLen (s : State) (x : Copy) (c : Nat) : Nat := if preemptable s x.port c then minFragment s x.port else chargeLen s x

/-- Whether class `c` of port `p` is paused (R115). -/
def classPaused (s : State) (p c : Nat) : Bool :=
  match tabFind (macPort s p).timers c with
  | some t => s.now < t
  | none => false

/-- The head copies of queue `k` of port `p`: its first copy or, divided, the first of each leaf. -/
def leafHead (s : State) (p k : Nat) (leaf : Option Nat) : Option Nat :=
  let fifo := (bufQueue s (queueNo p k)).fifo
  match leaf with
  | none => fifo.head?
  | some l => fifo.find? fun c => (copyAt s c).leaf == some l

/-- The leaves of queue `k` that hold a copy, ascending; none stands for an undivided queue. -/
def liveLeaves (s : State) (p k : Nat) : List (Option Nat) :=
  match extQueue s (queueNo p k) with
  | none => [none]
  | some o => ((List.range (leafCount o)).filter fun l => (leafHead s p k (some l)).isSome).map some

/-- What a selection may take: any copy, express copies only, or the copies of a port in hold. -/
structure SelectRule where
  express : Bool := false

/-- Whether the head of a queue or leaf of class `c` is eligible, the queue's own tests apart. -/
def headEligible (s : State) (r : SelectRule) (p k c : Nat) (leaf : Option Nat) : Bool :=
  match leafHead s p k leaf with
  | none => false
  | some h =>
    let x := copyAt s h
    startable s x && (!r.express || !preemptable s p c) &&
      bit (openGates (portSched s p)) c && fitsOpen s p (gateLen s x c) (gateOpenFor s p c)

/-- Whether queue `k` of port `p` is eligible (R349). -/
def queueEligible (s : State) (r : SelectRule) (p k : Nat) : Bool :=
  let c := queueClass s p k
  !(bufQueue s (queueNo p k)).fifo.isEmpty && !classPaused s p c && shaperPermits s p (9 + k) &&
    (liveLeaves s p k).any (headEligible s r p k c)

/-- The queues of class `c`. -/
def classQueues (s : State) (p c : Nat) : List Nat := (List.range 20).filter fun k => queueClass s p k == c

/-- Whether class `c` of port `p` is eligible (R349). -/
def classEligible (s : State) (r : SelectRule) (p c : Nat) : Bool :=
  shaperPermits s p (1 + c) && (classQueues s p c).any (queueEligible s r p)

/-! ### Weighted nodes (R352, R353) -/

/-- What a weighted node is told of its children. -/
structure NodeView where
  kids : List Nat
  holds : Nat → Bool
  eligible : Nat → Bool
  weight : Nat → Nat
  charge : Nat → Nat
  burst : Nat

/-- A node's choice: none, the end of its round before a child was served, or a child; with the node after it. -/
inductive NodePick
  | nothing
  | roundEnd
  | child (k : Nat) (n : SchedNode)

def kidOf (n : SchedNode) (k : Nat) : SchedChild := tabGet {} n.kids k
def setKid (k : Nat) (x : SchedChild) (n : SchedNode) : SchedNode := { n with kids := tabSet {} k x n.kids }

/-- The credit of a child after a visit begins. -/
def visitCredit (v : NodeView) (k : Nat) (credit : Int) : Int :=
  let quantum := v.weight k * 256
  if v.holds k then min (credit + quantum) (max v.burst quantum : Nat) else min credit 0

/-- Visits children from position `pos` on until one is served. -/
def dwrrVisit (v : NodeView) (staged : Bool) : Nat → Nat → SchedNode → NodePick
  | 0, _, _ => .nothing
  | fuel + 1, pos, n =>
    match v.kids.find? (pos ≤ ·) with
    | none => if staged then .roundEnd else dwrrVisit v staged fuel 0 n
    | some k =>
      let x := kidOf n k
      let credit := visitCredit v k x.credit
      let n1 := setKid k { x with credit } n
      if v.holds k && credit > 0 && v.eligible k then .child k { n1 with ptr := k, inVisit := true }
      else dwrrVisit v staged fuel (k + 1) n1

/-- The choice of a DWRR node: the visit in progress goes on while its child has credit and is eligible (R352). A node none of
whose children is eligible makes no visit. -/
def dwrrPick (v : NodeView) (staged : Bool) (n : SchedNode) : NodePick :=
  if !(v.kids.any v.eligible) then .nothing
  else
    let k := n.ptr
    let x := kidOf n k
    if n.inVisit && v.kids.contains k && x.credit > 0 && v.eligible k then .child k n
    else
      let n1 := if n.inVisit && !v.holds k then setKid k { x with credit := min x.credit 0 } n else n
      if staged && !n.inVisit && n.ptr == 0 then .roundEnd
      else dwrrVisit v staged (140 * v.kids.length + 2) (if n.inVisit then k + 1 else k) n1

/-- Whether tag `a` comes after tag `b`, modulo 2^48. -/
def tagAfter (a b : Nat) : Bool := a != b && tag48 ((a : Int) - b) < 2 ^ 47

/-- A WFQ child as the node looks at it: woken, or released with its catch-up capped (R353). -/
def wfqLook (v : NodeView) (n : SchedNode) (k : Nat) : SchedNode :=
  let x := kidOf n k
  let floor := tag48 ((n.v : Int) - v.burst * 65536 / (max 1 (v.weight k) : Nat))
  let tag := if v.holds k && !x.had then n.v
    else if v.eligible k && !x.was && tagAfter floor x.tag then floor
    else x.tag
  setKid k { x with tag, had := v.holds k, was := v.eligible k } n

/-- The finish tag of a child. -/
def finishTag (v : NodeView) (n : SchedNode) (k : Nat) : Nat :=
  ((kidOf n k).tag + ceilDiv (v.charge k * 65536) (max 1 (v.weight k))) % 2 ^ 48

/-- The choice of a WFQ node: the eligible child with the smallest finish tag (R353). -/
def wfqPick (v : NodeView) (n : SchedNode) : NodePick :=
  let n1 := v.kids.foldl (wfqLook v) n
  let best := (v.kids.filter v.eligible).foldl (fun a k =>
    match a with
    | none => some k
    | some b => if tagAfter (finishTag v n1 b) (finishTag v n1 k) then some k else some b) none
  match best with
  | none => .nothing
  | some k => .child k n1

/-- A node's choice: WFQ with more than 16 children, else DWRR (R348). -/
def nodePick (v : NodeView) (staged : Bool) (n : SchedNode) : NodePick :=
  if v.kids.length > 16 then wfqPick v n else dwrrPick v staged n

/-- The node after it has served child `k`, which now holds a copy or not. -/
def nodeServe (v : NodeView) (k : Nat) (holds : Bool) (n : SchedNode) : SchedNode :=
  let x := kidOf n k
  if v.kids.length > 16 then
    setKid k { x with tag := finishTag v n k, had := x.had && holds, was := x.was && holds } { n with v := x.tag }
  else
    let credit := x.credit - v.charge k
    setKid k { x with credit := if holds then credit else min credit 0 } n

/-! ### The choice (R350) -/

def schedNode (s : State) (p i : Nat) : SchedNode := tabGet {} (portSched s p).nodes i

/-- What a copy costs at the weighted nodes. -/
def headCharge (s : State) (p : Nat) (h : Option Nat) : Nat :=
  match h with
  | some c => nodeCharge (portSchedObj s p) (chargeLen s (copyAt s c))
  | none => 0

/-- The cap on credits and catch-up. -/
def dwrrBurst (s : State) (p : Nat) : Nat := u32 (portSchedObj s p) 4

/-- The view of the leaf node of queue `k`. -/
def leafView (s : State) (r : SelectRule) (p k : Nat) (o : Bytes) : NodeView :=
  let c := queueClass s p k
  { kids := List.range (leafCount o), holds := fun l => (leafHead s p k (some l)).isSome
    eligible := fun l => headEligible s r p k c (some l), weight := leafWeight o
    charge := fun l => headCharge s p (leafHead s p k (some l)), burst := dwrrBurst s p }

/-- A queue's choice: its head copy, or its leaf node's leaf and that leaf's head copy. -/
def chooseCopy (s : State) (r : SelectRule) (p k : Nat) : Option (Nat × Option Nat × Option SchedNode) :=
  match extQueue s (queueNo p k) with
  | none => (leafHead s p k none).map fun c => (c, none, none)
  | some o =>
    match nodePick (leafView s r p k o) false (schedNode s p (leafNode k)) with
    | .child l n => (leafHead s p k (some l)).map fun c => (c, some l, some n)
    | _ => none

/-- The view of the node of class `c`. -/
def classView (s : State) (r : SelectRule) (p c : Nat) : NodeView :=
  let o := portSchedObj s p
  { kids := classQueues s p c, holds := fun k => !(bufQueue s (queueNo p k)).fifo.isEmpty, eligible := queueEligible s r p
    weight := fun k => u8 o (28 + k)
    charge := fun k => headCharge s p ((chooseCopy s r p k).map fun x => x.1), burst := dwrrBurst s p }

/-- Whether class `c` holds a copy. -/
def classHolds (s : State) (p c : Nat) : Bool := (classQueues s p c).any fun k => !(bufQueue s (queueNo p k)).fifo.isEmpty

/-- The view of the ETS node. -/
def etsView (s : State) (r : SelectRule) (p : Nat) : NodeView :=
  let o := portSchedObj s p
  { kids := (List.range 8).filter (bit (u8 o 2)), holds := classHolds s p, eligible := classEligible s r p
    weight := fun c => u8 o (48 + c), charge := fun _ => 0, burst := dwrrBurst s p }

/-- What a selection comes to: nothing, the end of the ETS round, or a copy with its class, queue and leaf, and the nodes that
chose it. -/
inductive Selection
  | nothing
  | roundEnd
  | copy (id cls queue : Nat) (leaf : Option Nat) (ets : Option SchedNode) (node : SchedNode) (leafN : Option SchedNode)

/-- The choice within class `c`. -/
def chooseIn (s : State) (r : SelectRule) (p c : Nat) (ets : Option SchedNode) : Selection :=
  match nodePick (classView s r p c) false (schedNode s p (classNode c)) with
  | .child k n =>
    match chooseCopy s r p k with
    | some (id, leaf, ln) => .copy id c k leaf ets n ln
    | none => .nothing
  | _ => .nothing

/-- The scheduler's choice on port `p` (R350). -/
def chooseNow (s : State) (r : SelectRule) (p : Nat) : Selection :=
  if !shaperPermits s p 0 then .nothing
  else
    let o := portSchedObj s p
    match ((List.range 8).reverse.filter fun c => !bit (u8 o 2) c).find? (classEligible s r p) with
    | some c => chooseIn s r p c none
    | none =>
      match dwrrPick (etsView s r p) (portSched s p).staged.isSome (schedNode s p 0) with
      | .nothing => .nothing
      | .roundEnd => .roundEnd
      | .child c n => chooseIn s r p c (some n)

end Sys2Proof.Machine
end

