-- ==== Sys2Proof/Machine/Sched.lean ====
section
/-!
DEFINITION. Refill instants, selection, transmission, gate cycles, and the commands and faults of policing and scheduling
(R318, R337 to R371, R381).
-/

namespace Sys2Proof.Machine

/-! ### Refill instants (R337, R341, R343, R355) -/

/-- The values of a table whose key satisfies `p`, changed by `f`. -/
def tabWhere {α : Type} (p : Nat → Bool) (f : Nat → α → α) (m : Store α) : Store α :=
  m.map fun e => if p e.1 then (e.1, f e.1 e.2) else e

/-- The staged shaper profiles of quadrant `q` come into force. -/
def applyShapers (q : Nat) (t : SchedState) : SchedState :=
  let mine := t.shapersStaged.filter fun e => e.1 / 4096 == q
  { t with shapers := mine.foldl (fun m e => tabSet (shaperDefault (e.1 % 4096)) e.1 e.2 m) t.shapers
           shapersStaged := t.shapersStaged.filter fun e => e.1 / 4096 != q }

/-- REFILL_INSTANT (R337): NEXT_REFILL writes of quadrant `q` apply, then every bucket of its policers and ports is refilled. -/
def execRefillInstant (q : Quad) (s : State) : Host.Outcome State Fault Refusal :=
  let s1 := modSch (applyShapers q.val) s
  .next (modSch (fun t =>
    { t with policers := tabWhere (fun k => k / 131072 == q.val) (fun _ v => refillPolicer (applyPolicer v)) t.policers
             ports := tabWhere (fun p => quadOfPort p == q.val) (fun p v => { v with buckets := refillBuckets s1 p v.buckets }) t.ports }) s1)

/-! ### Selection (R350, R351, R356) -/

/-- The staged PORT_SCHED of port `p` comes into force: every node of the port begins a round (R356). -/
def switchSched (p : Nat) (s : State) : State :=
  match (portSched s p).staged with
  | none => s
  | some o =>
    modPortSched p (fun v =>
      { v with obj := o, staged := none, buckets := renameBuckets s p (portSchedObj s p) o v.buckets
               nodes := v.nodes.map fun e => (e.1, { e.2 with ptr := 0, inVisit := false }) }) s

/-- Whether no round of the ETS node runs: no class is ETS, or no ETS class holds a copy. -/
def noRound (s : State) (p : Nat) : Bool := !((etsView s {} p).kids.any (classHolds s p))

/-- The first head copy that no open interval of its class can hold (R364). -/
def oversizedHead (s : State) (p : Nat) : Option (Nat × Nat) :=
  ((List.range 20).flatMap fun k => (liveLeaves s p k).filterMap fun l => (leafHead s p k l).map fun c => (c, k)).find? fun h =>
    let c := queueClass s p h.2
    let x := copyAt s h.1
    startable s x && match longestOpen s p c with
      | some n => !fitsOpen s p (gateLen s x c) (some n)
      | none => false

/-- Charges the shapers on the path of queue `k` and class `c` for a copy of `len` bytes. -/
def chargeShapers (p k c len : Nat) (s : State) : State :=
  (shaperPath k c).foldl (fun s i =>
    match shaperOf s p i with
    | none => s
    | some o => modPortSched p (fun v => { v with buckets := tabUpd i (· - shaperCharge o len) v.buckets }) s) s

/-- `s` with node `i` of port `p` set. -/
def setNode (p i : Nat) (n : SchedNode) (s : State) : State :=
  modPortSched p (fun v => { v with nodes := tabSet {} i n v.nodes }) s

/-- Serves a chosen copy: every node on its path is charged, and the copy starts (R351). -/
def serveCopy (p id c k : Nat) (leaf : Option Nat) (ets : Option SchedNode) (node : SchedNode) (leafN : Option SchedNode)
    (ahead : Nat) (err : Int) (s : State) : State :=
  let x := copyAt s id
  let ended := (frameOf s x.frame).ended
  let len := chargeLen s x
  let cost := fun (v : NodeView) => { v with charge := fun _ => nodeCharge (portSchedObj s p) len }
  let no := queueNo p k
  let s1 := chargeShapers p k c len (unlinkCopy id s)
  let s2 := setNode p (classNode c) (nodeServe (cost (classView s {} p c)) k (!(bufQueue s1 no).fifo.isEmpty) node) s1
  let s3 := match ets with
    | some n => setNode p 0 (nodeServe (cost (etsView s {} p)) c (classHolds s1 p c) n) s2
    | none => s2
  let s4 := match leafN, leaf, extQueue s no with
    | some n, some l, some o => setNode p (leafNode k) (nodeServe (cost (leafView s {} p k o)) l (leafHead s1 p k leaf).isSome n) s3
    | _, _, _ => s3
  let s5 := modCopy id (fun y => { y with started := true, charged := if ended then none else some len }) s4
  let s6 := count cSchFrames no 1 (if ended then s5 else count cSwcCutThrough p 1 s5)
  let s7 := match leaf, extQueue s no with
    | some l, some o => count cLeafFrames (16384 * x.quad + firstLeaf o + l) 1 s6
    | _, _ => s6
  startCopy id ahead err s7

/-- Acts on a selection that chose a copy: an aged copy is dropped without any charge (R329). Answers whether a copy started. -/
def takeSelection (p ahead : Nat) (err : Int) (c : Selection) (s : State) : Bool × State :=
  match c with
  | .copy id cls k leaf ets node leafN =>
    if copyAged s (copyAt s id) then (true, ageOut id s) else (true, serveCopy p id cls k leaf ets node leafN ahead err s)
  | _ => (false, s)

/-- One selection on port `p`; answers whether it took a copy. -/
def selectOn (r : SelectRule) (p ahead : Nat) (err : Int) (s : State) : Bool × State :=
  match chooseNow s r p with
  | .roundEnd =>
    let s1 := switchSched p s
    takeSelection p ahead err (chooseNow s1 r p) s1
  | c => takeSelection p ahead err c s

/-- Drops an oversized head copy (R364). -/
def dropOversized (p : Nat) (h : Nat × Nat) (s : State) : State :=
  dropCopy h.1 0x2D 0 (kilnOnce 0x0A02 p [(2, p), (2, h.2)] (count cGateOversize (queueNo p h.2) 1 s))

/-- Whether the frame in transmission, of which `sent` bytes have left, is at a legal point (R119). -/
def legalPoint (s : State) (p sent : Nat) (t : Tx) : Bool :=
  let x := copyAt s t.copy
  preemptable s p (queueClass s p x.queue) && t.sent + minFragment s p ≤ sent + 4 && sent + minFragment s p ≤ chargeLen s x

/-- SCHEDULER_SELECT (R350, R365): the MAC of port `p` can start a frame: it is free, or an express frame preempts the frame in
transmission after `sent` of its bytes. The first bit crosses the balls `ahead` later, known to within `err`. -/
def execSchedulerSelect (p : Port) (sent ahead : Nat) (err : Int) (s : State) : Host.Outcome State Fault Refusal :=
  let v := portSched s p.val
  if !portActive s p.val || farEnd s p.val || !inRangeI err (-stampError) stampError then .next s
  else
    let s0 := if noRound s p.val then switchSched p.val s else s
    match oversizedHead s0 p.val with
    | some h => .next (dropOversized p.val h s0)
    | none =>
      match v.tx, v.preempted with
      | none, none => .next (selectOn { express := v.gateHold } p.val ahead err s0).2
      | none, some t =>
        let (took, s1) := selectOn { express := true } p.val ahead err s0
        .next (if took || v.gateHold then s1 else modPortSched p.val (fun y => { y with tx := some t, preempted := none }) s1)
      | some t, none =>
        if !legalPoint s p.val sent t then .next s
        else
          let cut := count cPreFragTx p.val 1 (modPortSched p.val (fun y => { y with tx := none, preempted := some { t with sent } }) s0)
          let (took, s1) := selectOn { express := true } p.val ahead err cut
          .next (if took || v.gateHold then s1 else s)
      | some _, some _ => .next s

/-- TX_FRAME_END (R110, R381): the last byte of the copy in transmission on port `p` leaves; `dbl` says that the release of its
first cell finds the cell free. -/
def execTxFrameEnd (p : Port) (dbl : Bool) (s : State) : Host.Outcome State Fault Refusal :=
  match (portSched s p.val).tx with
  | none => .next s
  | some t =>
    let x := copyAt s t.copy
    let v := frameOf s x.frame
    if !v.ended || v.bad != 0 then .next s
    else
      let b := wireBytes v x t
      let s1 := emit (.transmit p.val b false) (if (txBody v x t).length < 60 then count cTxPadded p.val 1 s else s)
      let s2 := histCount (queueNo p.val x.queue) (frameLatency v t.egress) (countSent x b.length s1)
      let s3 := if t.sent > 0 then count cPreFragTx p.val 1 s2 else s2
      let s4 := releaseCopy t.copy (clearTx p.val t.copy (postcard x t s3))
      match dbl, x.cells.head? with
      | true, some c => .next (detect 32 7 x.quad (fun inj s =>
          kilnInj inj 0x0803 [(1, x.quad), (1, 0), (4, c)] (count cBufDoubleFrees x.quad 1 s)) s4)
      | _, _ => .next s4

/-- CUT_THROUGH_UNDERRUN (R318): the MAC of port `p` needs a byte that is not yet written, after `sent` bytes. -/
def execCutThroughUnderrun (p : Port) (sent : Nat) (s : State) : Host.Outcome State Fault Refusal :=
  match (portSched s p.val).tx with
  | none => .next s
  | some t =>
    let x := copyAt s t.copy
    let v := frameOf s x.frame
    if v.ended || sent > (txBody v x t).length then .next s
    else .next (stompCopy t.copy sent 0x2E 0 s)

/-! ### Gate cycles (R361 to R366) -/

/-- Entry `k` of port `p`'s list takes effect: its gates, and on a port with active preemption its hold or release. -/
def startEntry (p k : Nat) (s : State) : State :=
  let s1 := modPortSched p (fun v => { v with gateEntry := k }) s
  match liveGates (portSched s1 p) with
  | none => modPortSched p (fun v => { v with gateHold := false }) s1
  | some (o, _, _) =>
    if (macPort s p).preemptPhase != .active then s1
    else match gateOp o k with
      | 1 => count cSchHolds p 1 (modPortSched p (fun v => { v with gateHold := true }) s1)
      | 2 => modPortSched p (fun v => { v with gateHold := false }) s1
      | _ => s1

/-- Whether a staged list's instant has come on the port's die (R362). -/
def gateDue (s : State) (p : Nat) (o : Bytes) : Bool :=
  let at_ := u64 o 8 * 1000000000 + u32 o 16
  at_ == 0 || at_ ≤ copyNs (copyOf s (quadOfPort p) (u8 o 3))

/-- A cycle of port `p` starts at `start`, in ns of domain `d`. -/
def startCycle (p d start : Nat) (s : State) : State :=
  let v := portSched s p
  let s1 := count cSchCycles p 1 s
  if v.reloading then s1
  else
    let s2 := match v.gatesStaged with
      | none => s1
      | some o =>
        if gateDue s p o then
          let rel : Int := ((start : Int) - copyNs (copyOf s (quadOfPort p) d)) / 1000
          kiln 0x0A01 [(2, p), (4, ofSigned 32 rel)] (modPortSched p (fun v => { v with gates := some o, gatesStaged := none }) s1)
        else s1
    startEntry p 0 (modPortSched p (fun v => { v with gateStart := some (start, d) }) s2)

/-- GATE_CYCLE (R58, R361): an entry that names a port fires on the port's die and its list restarts. After a forward step the
cycle runs from the step (R366). -/
def execGateCycle (d : Domain') (i : Fin 512) (s : State) : Host.Outcome State Fault Refusal :=
  let p := entryTarget (entryOf s d.val i.val)
  let q := quadOfPort p
  if firesNext s q d.val i.val 3 then
    let (t, stepped) := firingInstant s q d.val i.val
    let start := if stepped then copyNs (copyOf s q d.val) else t.sec * 1000000000 + t.ns
    let s1 := fireEntry q d.val i.val s
    .next (if configured s p then startCycle p d.val start s1 else s1)
  else .next s

/-- GATE_ENTRY_START (R361): the next entry of port `p`'s list starts, unless a new cycle starts first. -/
def execGateEntryStart (p : Port) (s : State) : Host.Outcome State Fault Refusal :=
  let v := portSched s p.val
  match liveGates v with
  | none => .next s
  | some (o, t, d) =>
    let q := quadOfPort p.val
    let k := v.gateEntry + 1
    let rel : Int := (t : Int) + entryOffset o k - copyNs (copyOf s q d)
    let cut := (cycleEntries s p.val).any fun e => match instantOn e.2 q with
      | some i => (i : Int) - copyNs (copyOf s q e.1) ≤ rel
      | none => false
    if v.reloading || gateCount o ≤ k || rel > 0 || cut then .next s else .next (startEntry p.val k s)

/-! ### Faults (R370) -/

/-- A port's credits, tags and buckets after SCH_STATE. -/
def resetSched (s : State) (p : Nat) (v : PortSched) : PortSched :=
  { v with
    nodes := v.nodes.map fun e => (e.1, { e.2 with kids := e.2.kids.map fun x => (x.1, { x.2 with credit := 0, tag := e.2.v }) })
    buckets := v.buckets.map fun e => match shaperOf s p e.1 with
      | some o => (e.1, (burstUnits (shBurst o) : Int))
      | none => e
    reloading := true }

/-- SCH_STATE (R370): credits, tags and buckets restart; the configuration is reloaded while the gates hold. -/
def execSchState (p : Port) (s : State) : Host.Outcome State Fault Refusal :=
  .next (detect 46 4 p.val (fun inj s => kilnInj inj 0x0A03 [(2, p.val), (1, 46)] (modPortSched p.val (resetSched s p.val) s)) s)

/-- SCHED_RELOAD (R370): the port's configuration is whole again. -/
def execSchedReload (p : Port) (s : State) : Host.Outcome State Fault Refusal :=
  .next (modPortSched p.val (fun v => { v with reloading := false }) s)

/-- POL_STATE (R370): policer `i` of quadrant `q` acts as mode 0 until it is reloaded. -/
def execPolState (q : Quad) (i : Fin 131072) (s : State) : Host.Outcome State Fault Refusal :=
  let n := policerNo q.val i.val
  .next (detect 47 14 n (fun inj s =>
    kilnInj inj 0x0A04 [(1, q.val), (4, i.val)] (modPolicer n (fun v => { v with reloading := true }) s)) s)

/-- POLICER_RELOAD (R370): the policer is reloaded with full buckets. -/
def execPolicerReload (q : Quad) (i : Fin 131072) (s : State) : Host.Outcome State Fault Refusal :=
  .next (modPolicer (policerNo q.val i.val) (fun v =>
    if v.reloading then { v with reloading := false, tc := burstUnits (polCbs v.obj), te := burstUnits (polEbs v.obj) } else v) s)

/-! ### POLICER (R346) and SHAPER_PROFILE (R354) -/

/-- A signed byte within −64 to +63. -/
def fOverhead (off : Nat) : Fld := fDep off 1 fun _ p => orElse (inRangeI (s8 p off) (-64) 63) .range

/-- A policer's burst at `off` with its rate at `rate` (R338, R346). -/
def fBurst (off rate : Nat) : Fld := fDep off 4 fun _ p =>
  let b := u32 p off
  let r := u32 p rate
  if b == 0 && r != 0 then some .badarg else orElse (b ≤ 16777216 && (b == 0 || rateInc r ≤ burstUnits b)) .range

/-- The fields of POLICER. -/
def policerFields : List Fld :=
  [ (fRange 0 1 0 3 .range).asKey, fRange 1 1 0 2 .badarg,
    fDep 2 1 (fun _ p => orElse (u8 p 2 < 16 && !(bit (u8 p 2) 1 && u8 p 1 == 1)) .badarg), fOverhead 3,
    (fRange 4 4 0 131071 .range).asKey, fAny 8 4, fBurst 12 8,
    fDep 16 4 (fun _ p => orElse (!(u8 p 1 == 1 && u32 p 16 != 0)) .badarg), fBurst 20 16, fRsv 24 8 ]

/-- POLICER_WRITE as the opcode tables of Icoux give it (R514 to R520), with the checks of its fields. -/
def opPolicerWrite : OpDef := { writeOp 0x0A01 32 policerFields with apply := 1 }

/-- POLICER write: it applies at the quadrant's next refill. -/
def execPolicerWrite (c : Cmd) (s : State) : Host.Outcome State Fault Refusal :=
  .next (icoux opPolicerWrite c (fun _ b s =>
    okWrite (modPolicer (policerNo (u8 b 0) (u32 b 4)) (fun v => { v with staged := some b }) s)) s)

/-- POLICER_READ as the opcode tables of Icoux give it (R514 to R520), with the checks of its fields. -/
def opPolicerRead : OpDef := readOp 0x0A02 32 policerFields

/-- POLICER read. -/
def execPolicerRead (c : Cmd) (s : State) : Host.Outcome State Fault Refusal :=
  .next (icoux opPolicerRead c (fun _ b s =>
    okReply s (policerObj s (policerNo (u8 b 0) (u32 b 4)))) s)

/-- The fields of SHAPER_PROFILE. -/
def shaperFields (read : Bool) : List Fld :=
  [ fQuadMask 0 read, fOverhead 1, (fRange 2 2 0 4095 .range).asKey, fAny 4 4,
    fDep 8 4 (fun _ p => let b := u32 p 8
      if b == 0 then some .badarg else orElse (b ≤ 16777216 && rateInc (u32 p 4) ≤ burstUnits b) .range), fRsv 12 4 ]

/-- SHAPER_PROFILE_WRITE as the opcode tables of Icoux give it (R514 to R520), with the checks of its fields. -/
def opShaperProfileWrite : OpDef := { writeOp 0x0A03 16 (shaperFields false) with apply := 1 }

/-- SHAPER_PROFILE write: it applies at each quadrant's next refill. -/
def execShaperProfileWrite (c : Cmd) (s : State) : Host.Outcome State Fault Refusal :=
  .next (icoux opShaperProfileWrite c (fun _ b s =>
    let o := putField b 0 1 0
    okWrite (forMask 4 (u8 b 0) (fun q s => modSch (fun t =>
      { t with shapersStaged := tabPut (4096 * q + u16 b 2) o t.shapersStaged }) s) s)) s)

/-- SHAPER_PROFILE_READ as the opcode tables of Icoux give it (R514 to R520), with the checks of its fields. -/
def opShaperProfileRead : OpDef := readOp 0x0A04 16 (shaperFields true)

/-- SHAPER_PROFILE read. -/
def execShaperProfileRead (c : Cmd) (s : State) : Host.Outcome State Fault Refusal :=
  .next (icoux opShaperProfileRead c (fun _ b s =>
    okReply s (putField (shaperProfile s (u8 b 0).log2 (u16 b 2)) 0 1 (u8 b 0))) s)

/-! ### PORT_SCHED (R356, R357) -/

/-- The key of a port object: a configured port. -/
def fConfiguredPort : Fld := (fDep 0 2 fun s p => portCheck s (u16 p 0)).asKey

/-- ETS weight `c` of PORT_SCHED; the sum is a matter of the whole field. -/
def fEtsWeight (c : Nat) : Fld := fDep (48 + c) 1 fun _ p =>
  let mask := u8 p 2
  let w := u8 p (48 + c)
  let sum := ((maskBits 8 mask).map fun k => u8 p (48 + k)).foldl (· + ·) 0
  orElse ((c != 0 || mask == 0 || sum == 100) && (if bit mask c then inRange w 1 100 else w == 0)) .badarg

/-- The fields of PORT_SCHED. -/
def portSchedFields : List Fld :=
  [ fConfiguredPort, fAny 2 1, fOverhead 3, fNonzero 4 4 1024 1048576 ] ++
  ((List.range 20).map fun k => fRange (8 + k) 1 0 7 .range) ++
  ((List.range 20).map fun k => fRange (28 + k) 1 1 255 .badarg) ++
  ((List.range 8).map fEtsWeight) ++ ((List.range 29).map fun i => fRange (56 + 2 * i) 2 0 4096 .range) ++ [fRsv 114 14]

/-- PORT_SCHED_WRITE as the opcode tables of Icoux give it (R514 to R520), with the checks of its fields. -/
def opPortSchedWrite : OpDef := { writeOp 0x0A05 128 portSchedFields with apply := 2 }

/-- PORT_SCHED write: it applies at the next round. -/
def execPortSchedWrite (c : Cmd) (s : State) : Host.Outcome State Fault Refusal :=
  .next (icoux opPortSchedWrite c (fun _ b s =>
    let p := u16 b 0
    if (List.range 20).any fun k => u8 b (8 + k) != queueClass s p k && (copiesWith s (inQueue (queueNo p k))).length > 0 then
      badAll .state
    else okWrite (modPortSched p (fun v => { v with staged := some b }) s)) s)

/-- PORT_SCHED_READ as the opcode tables of Icoux give it (R514 to R520), with the checks of its fields. -/
def opPortSchedRead : OpDef := readOp 0x0A06 128 portSchedFields

/-- PORT_SCHED read. -/
def execPortSchedRead (c : Cmd) (s : State) : Host.Outcome State Fault Refusal :=
  .next (icoux opPortSchedRead c (fun _ b s => okReply s (portSchedObj s (u16 b 0))) s)

/-! ### EXT_QUEUE (R358, R359) -/

/-- The leaves in use in quadrant `q`: the first and the count of each division but queue `no`'s. -/
def leavesUsed (s : State) (q no : Nat) : List (Nat × Nat) :=
  (s.sch.ext.filter fun e => quadOfPort (e.1 / 20) == q && e.1 != no).map fun e => (firstLeaf e.2, leafCount e.2)

/-- The first leaf at which `n` consecutive leaves are free: zero or the end of a division. -/
def placeLeaves (used : List (Nat × Nat)) (n : Nat) : Option Nat :=
  (((0 : Nat) :: used.map fun u => u.1 + u.2).filter fun f =>
    f + n ≤ 16384 && used.all fun u => f + n ≤ u.1 || u.1 + u.2 ≤ f).foldl
      (fun a f => match a with | none => some f | some g => some (min f g)) none

/-- The header fields of EXT_QUEUE. -/
def extQueueFields : List Fld :=
  [ fConfiguredPort, (fRange 2 1 0 15 .range).asKey, fRange 3 1 0 1 .badarg,
    fVal 4 2 (fun v => orElse (v == 0 || (isPow2 v && inRange v 2 1024)) .range), fRsv 6 2, fAny 8 4, fRsv 12 4 ]

/-- EXT_QUEUE_WRITE as the opcode tables of Icoux give it (R514 to R520), with the checks of its fields. -/
def opExtQueueWrite : OpDef := { writeOp 0x0A07 16 extQueueFields with len := fun p => 16 ≤ p.length && p.length == 16 + u16 p 4 }

/-- EXT_QUEUE write. -/
def execExtQueueWrite (c : Cmd) (s : State) : Host.Outcome State Fault Refusal :=
  .next (icoux opExtQueueWrite c
    (fun _ b s =>
      let p := u16 b 0
      let k := u8 b 2
      let no := queueNo p k
      let n := u16 b 4
      let used := leavesUsed s (quadOfPort p) no
      match firstIdx n fun i => u8 b (16 + i) == 0 with
      | some i => badField (16 + i) .badarg
      | none =>
        if (copiesWith s (inQueue no)).length > 0 || (s.bufferProfile == 1 && spillOn (queueProfile s p k) != 0) then badAll .state
        else if n == 0 then
          .done (kiln 0x0A05 [(2, p), (2, k), (4, 0), (4, 0)] (modSch (fun t => { t with ext := tabDel no t.ext }) s)) .ok (toLe 4 0) []
        else match placeLeaves used n with
          | none => badAll .nores
          | some f => .done (kiln 0x0A05 [(2, p), (2, k), (4, n), (4, f)] (modPortSched p (fun v => { v with nodes := tabDel (leafNode k) v.nodes })
              (modSch (fun t => { t with ext := tabPut no (putField b 8 4 f) t.ext }) s))) .ok (toLe 4 f) []) s)

/-- EXT_QUEUE_READ as the opcode tables of Icoux give it (R514 to R520), with the checks of its fields. -/
def opExtQueueRead : OpDef := readOp 0x0A08 16 extQueueFields

/-- EXT_QUEUE read: the request is the header, the reply the header and the weights. -/
def execExtQueueRead (c : Cmd) (s : State) : Host.Outcome State Fault Refusal :=
  .next (icoux opExtQueueRead c (fun _ b s =>
    okReply s ((extQueue s (queueNo (u16 b 0) (u8 b 2))).getD (image 16 [(0, 2, u16 b 0), (2, 1, u8 b 2)]))) s)

/-! ### GATE_LIST (R362, R363) -/

/-- The header fields of GATE_LIST. -/
def gateFields : List Fld :=
  [ fConfiguredPort, fBits 2 1 1,
    fDep 3 1 (fun s p => if u8 p 3 > 3 then some .range
      else orElse ((u64 p 8 == 0 && u32 p 16 == 0) || (domainOf s (u8 p 3)).enable) .state),
    fDep 4 2 (fun _ p => if u16 p 4 == 0 && bit (u8 p 2) 0 then some .badarg else orElse (u16 p 4 ≤ 128) .range),
    fRsv 6 2, fAny 8 8, fRange 16 4 0 999999999 .range, fRsv 20 4 ]

/-- The first bad field of a gate entry at `off`. -/
def badGateEntry (b : Bytes) (off : Nat) : Option (Nat × Status) :=
  if u8 b (off + 1) > 2 then some (off + 1, .badarg)
  else if u16 b (off + 2) != 0 then some (off + 2, .badarg)
  else if u32 b (off + 4) == 0 then some (off + 4, .badarg)
  else if u32 b (off + 4) < 8 then some (off + 4, .range)
  else none

/-- GATE_LIST_WRITE as the opcode tables of Icoux give it (R514 to R520), with the checks of its fields. -/
def opGateListWrite : OpDef := { writeOp 0x0A09 24 gateFields with
    apply := 4, len := fun p => 24 ≤ p.length && p.length == 24 + 8 * u16 p 4 }

/-- GATE_LIST write: it is staged for the first cycle start at or after its instant. -/
def execGateListWrite (c : Cmd) (s : State) : Host.Outcome State Fault Refusal :=
  .next (icoux opGateListWrite c (fun _ b s =>
    match ((List.range (gateCount b)).filterMap fun k => badGateEntry b (24 + 8 * k)).head? with
    | some (off, st) => badField off st
    | none => okWrite (modPortSched (u16 b 0) (fun v => { v with gatesStaged := some b }) s)) s)

/-- GATE_LIST_READ as the opcode tables of Icoux give it (R514 to R520), with the checks of its fields. -/
def opGateListRead : OpDef := readOp 0x0A0A 24 gateFields

/-- GATE_LIST read: the request is the header, the reply the header and the entries. -/
def execGateListRead (c : Cmd) (s : State) : Host.Outcome State Fault Refusal :=
  .next (icoux opGateListRead c (fun _ b s =>
    okReply s ((portSched s (u16 b 0)).gates.getD (image 24 [(0, 2, u16 b 0)]))) s)

/-! ### PORT_SCHED_STATUS (R367) -/

/-- The PORT_SCHED_STATUS object of port `p`. -/
def portSchedStatus (s : State) (p : Nat) : Bytes :=
  let v := portSched s p
  let elig := ((List.range 8).map fun c => if classEligible s {} p c then 2 ^ c else 0).foldl (· + ·) 0
  let state := match v.gates, v.gatesStaged with | none, none => 0 | some _, none => 1 | some _, some _ => 2 | none, some _ => 3
  let tokens : Int := ((tabFind v.buckets 0).getD 0).tdiv 65536
  let start := (v.gateStart.map Prod.fst).getD 0
  image 32 [(0, 2, p), (2, 1, openGates v), (3, 1, elig), (4, 1, v.gateEntry), (5, 1, state), (6, 1, b2n v.gateHold),
            (8, 4, ofSigned 32 tokens), (16, 8, start / 1000000000), (24, 4, start % 1000000000)]

/-- PORT_SCHED_STATUS as the opcode tables of Icoux give it (R514 to R520), with the checks of its fields. -/
def opPortSchedStatus : OpDef := readOp 0x0A0B 32 [fConfiguredPort, fRsv 2 30]

/-- PORT_SCHED_STATUS. -/
def execPortSchedStatus (c : Cmd) (s : State) : Host.Outcome State Fault Refusal :=
  .next (icoux opPortSchedStatus c (fun _ b s => okReply s (portSchedStatus s (u16 b 0))) s)

end Sys2Proof.Machine
end

