-- ==== Sys2Proof/Machine/MatRun.lean ====
section
/-!
DEFINITION. Frames through the stages, quiesces, rule batches and the faults of the match tables (R149 to R163, R172 to R181,
R187, R188).
-/

namespace Sys2Proof.Machine

/-! ### Order between frames of a port (R142, R150, R192) -/

/-- Whether an earlier frame of the same port and pipeline satisfies `p`. -/
def earlierFrame (s : State) (u : Nat) (p : Frame → Bool) : Bool :=
  let v := frameOf s u
  s.fr.frames.any fun e => e.1 < u && e.2.pipe == v.pipe && e.2.port == v.port && p e.2

/-- Whether a frame is at or in front of stage `st`. -/
def atStage (st : Nat) (v : Frame) : Bool :=
  v.stage == st && match v.place with
    | .stage | .waiting | .issue | .running | .sequenced => true
    | _ => false

/-- Whether a frame is not yet past the parser. -/
def beforeStages (v : Frame) : Bool :=
  match v.place with
  | .fifo | .hold | .parked | .parsed => true
  | _ => false

/-! ### Forwarding lookups (R224, R248) -/

/-- The result of an FDB lookup (R224): F10 of a destination, F11 of a source. -/
def fdbResult (r : Option (Nat × Nat)) (source : Bool) (port : Nat) : Nat :=
  match r with
  | none => 0
  | some (_, x) =>
    let same := rowPort x == port
    rowPort x + 2 ^ 10 + 2 ^ 11 * b2n (rowStatic x) + 2 ^ 12 * b2n (rowFrozen x) +
      (if source then 2 ^ 13 * b2n same + 2 ^ 14 * b2n (rowStatic x && !same) else 0) + 2 ^ 16 * rowUser x

/-- Whether a key's lookup reads a poisoned FDB row. -/
def fdbPoisoned (s : State) (g key : Nat) : Bool :=
  (List.range 4).any fun w => (fwdPipe s g).poisoned.contains (fdbCandidate (fdbRows s) key w)

/-- A hit sets a hit bit of its row; it is not written through (R225). -/
def markFdb (g : Nat) (r : Option (Nat × Nat)) (b : Nat) (s : State) : State :=
  match r with
  | none => s
  | some (i, _) => modFwdPipe g (fun v => { v with fdb := tabUpd i (fun x => setBits x b 1 1) v.fdb }) s

/-- The destination and source lookups of a frame that enters the first stage of the FDB region; false when a poisoned row
is read. -/
def fdbLookup (u d : Nat) (s : State) : Bool × State :=
  let v := frameOf s u
  let g := v.pipe
  let key := fun lo => joinConts (contOf v) (usedFragments d lo 3) % 2 ^ descWidth d
  let dst := fdbFind s g (key 0)
  let src := fdbFind s g (key 3)
  let s1 := markFdb g src 3 (markFdb g dst 2 s)
  let s2 := count cFdbSrcHits g (b2n src.isSome) (count cFdbDstHits g (b2n dst.isSome) (count cFdbDstLookups g 1 (spendPipe g 0 2 2 s1)))
  (!(fdbPoisoned s g (key 0) || fdbPoisoned s g (key 3)),
    modFrame u (fun f => { f with srcKey := some (key 3), fdbDst := fdbResult dst false v.port,
                                  fdbSrc := fdbResult src true v.port }) s2)

/-- The LPM lookup of a frame that enters the first pivot stage; false when a poisoned row is read. Which bucket is the poisoned
one only Icoux's packing tells (assumption 43). -/
def lpmLookupFrame (u d : Nat) (s : State) : Bool × State :=
  let v := frameOf s u
  let g := v.pipe
  let r := lpmResult (fwdPipe s g) (slotKey d v)
  let (x, s0) := if (fwdPipe s g).bucketBad then takeFree s else (0, s)
  let s1 := count cLpmHits g (b2n (bit r 20)) (count cLpmLookups g 1 (spendPipe g 0 2 1 s0))
  (!((fwdPipe s g).pivotBad || x % 2 == 1), modFrame u (fun f => { f with lpmRes := r }) s1)

/-- A result container written as its stage is entered. -/
def putResult (n x : Nat) (f : Frame) : Frame := { f with hdr := tabSet 0 (288 + n) x f.hdr }

/-- Results that reach a frame as it enters stage `st` (R151, R253). -/
def resultsAt (profile st : Nat) (f : Frame) : Frame :=
  let f1 := if st == fdbResultStage profile then putResult 11 f.fdbSrc (putResult 10 f.fdbDst f) else f
  let f2 := if st == lpmResultStage profile then putResult 12 f1.lpmRes f1 else f1
  if bit (u8 f2.hostCfg 8) 0 && st == u8 f2.hostCfg 10 then putResult 13 f2.hostRes f2 else f2

/-! ### One stage (R150, R160, R163) -/

/-- Counts a slot's lookup where it keeps counters (R186). -/
def countSlot (g st : Nat) (v : MatStage) (slot : Nat) (hit : Bool) (s : State) : State :=
  let s1 := spendPipe g 0 2 1 s
  if descCounts (descOf v slot) then
    count (cMatHits slot) (32 * g + st) (b2n hit) (count (cMatLookups slot) (32 * g + st) 1 s1)
  else s1

/-- The F6 that a STEER hit of a slot writes, if it does (R159). -/
def steerWrite (v : MatStage) (slot : Nat) (f : Frame) : Option Nat :=
  if descKind (descOf v slot) != 4 then none
  else
    match findTern v slot (slotKey (descOf v slot) f) with
    | some (_, e) => if steerFires e then some (steerF6 e.data) else none
    | none => none

/-- One slot of a stage for frame `u`: counted, the hit marked, a STEER write made. -/
def slotEffects (g st : Nat) (v : MatStage) (u : Nat) (f : Frame) (s : State) (e : Nat × SlotResult) : State :=
  let slot := e.1
  if !slotTable v slot then s
  else
    let s1 := countSlot g st v slot e.2.hit s
    if !e.2.hit then s1
    else
      let s2 := modStage g st (markHit slot (slotKey (descOf v slot) f)) s1
      match steerWrite v slot f with
      | some x => modFrame u (fun f => { f with hdr := tabSet 0 294 x f.hdr }) s2
      | none => s2

/-- The table lookups of a stage and the routine they select. -/
def stageTables (u : Nat) (s : State) : State :=
  let f := frameOf s u
  let g := f.pipe
  let st := f.stage
  let v := stageSeen s g st f
  let rs := (List.range 8).map fun slot => slotLookup v slot f
  let s1 := ((List.range 8).zip (rs.map Prod.fst)).foldl (slotEffects g st v u f) s
  let r := selectRoutine v rs
  modFrame u (fun f => { f with slots := rs.map Prod.fst, routine := r, place := if r == 0 then .sequenced else .issue }) s1

/-- Whether a lookup of the stage's own tables reads a poisoned row: the fault bit of what was found. -/
def stagePoison (v : MatStage) (f : Frame) : Option Nat :=
  (firstIdx 8 fun slot => slotTable v slot && readsPoisoned v slot (slotKey (descOf v slot) f)).map fun slot =>
    if descKind (descOf v slot) == 0 then 14 else 15

/-- The drop of a frame that meets a bad word in a stage (R187). -/
def stageDrop (u b : Nat) (s : State) : State :=
  dropFrame u 0x1A { detail := b } (count cMatIntegrity (frameOf s u).pipe 1 s)

/-- The FDB or LPM lookup that starts at this stage, if any; false when a poisoned row is read. -/
def regionLookups (u : Nat) (s : State) : Bool × State :=
  let f := frameOf s u
  let d := descOf (matStage s f.pipe f.stage) 7
  if !descValid d then (true, s)
  else if descKind d == 3 then
    let (ok, s1) := fdbLookup u d s
    let n := b2n ((frameOf s1 u).fdbDst != 0) + b2n ((frameOf s1 u).fdbSrc != 0)
    (ok, if descCounts d then count (cMatHits 7) (32 * f.pipe + f.stage) n (count (cMatLookups 7) (32 * f.pipe + f.stage) 2 s1) else s1)
  else if descKind d == 2 then
    let (ok, s1) := lpmLookupFrame u d s
    (ok, countSlot f.pipe f.stage (matStage s f.pipe f.stage) 7 (bit (frameOf s1 u).lpmRes 20) s1)
  else (true, s)

/-- Frame `u` enters its stage: results due there reach it, tables are read, a routine is selected. -/
def enterStage (u : Nat) (s : State) : State :=
  let f := frameOf s u
  if bit (u8 f.hostCfg 8) 0 && f.stage == u8 f.hostCfg 10 && f.hostDue then modFrame u (fun f => { f with place := .waiting }) s
  else
    let s1 := modFrame u (resultsAt s.tableProfile f.stage) s
    let (ok, s2) := regionLookups u s1
    if !ok then stageDrop u 14 s2
    else
      match stagePoison (stageSeen s2 f.pipe f.stage (frameOf s2 u)) (frameOf s2 u) with
      | some b => stageDrop u b s2
      | none => stageTables u s2

/-- STAGE_LOOKUP (R150, R160, R178): the next frame of its port enters its stage; at S0 it takes the pipeline's epoch. -/
def execStageLookup (u : Nat) (s : State) : Host.Outcome State Fault Refusal :=
  let f := frameOf s u
  if pipeStill s f.pipe then .next s
  else if f.place == .parsed && !(matPipe s f.pipe).imageHeld && !earlierFrame s u beforeStages then
    .next (enterStage u (setFrame u { f with place := .stage, stage := 0, epoch := (matPipe s f.pipe).epoch
                                             hostCfg := hostLookupObj s f.pipe } s))
  else if f.place == .stage && !earlierFrame s u (fun e => atStage f.stage e && (e.place == .stage || e.place == .waiting)) then
    .next (enterStage u s)
  else .next s

/-- SEQUENCER_RELEASE (R150, R192): a frame leaves its stage after every earlier frame of its port. -/
def execSequencerRelease (u : Nat) (s : State) : Host.Outcome State Fault Refusal :=
  let f := frameOf s u
  if f.place != .sequenced || earlierFrame s u (atStage f.stage) then .next s
  else
    let s1 := hostRequest u s
    .next (modFrame u (fun f =>
      if f.stage ≥ 23 then { f with place := .decide } else { f with place := .stage, stage := f.stage + 1, slots := [], routine := 0 }) s1)

/-! ### Quiesce (R176 to R178) -/

/-- QUIESCE_START (R176, R177): the pipeline stops for its next part. -/
def execQuiesceStart (g : Pipe) (s : State) : Host.Outcome State Fault Refusal :=
  let p := matPipe s g.val
  if p.parts.isEmpty || p.retired.isSome || pipeClosed s g.val || !(framesAt s g.val .hold).isEmpty then .next s
  else .next (setMatPipe g.val { p with quiesce := .stopped } s)

/-- Whether every running routine has committed or reached a wait (R177 step 3). -/
def routinesStill (s : State) (g : Nat) : Bool :=
  s.mat.stages.all fun e => e.1 / 32 != g || e.2.ctxs.all fun c => c.2.phase == .waiting

/-- QUIESCE_WRITE (R177 steps 3 to 5): the part's writes are made and the epoch flips; `clocks` is the window's length. -/
def execQuiesceWrite (g : Pipe) (clocks : Fin 321) (s : State) : Host.Outcome State Fault Refusal :=
  let p := matPipe s g.val
  match p.parts with
  | [] => .next s
  | part :: rest =>
    if p.quiesce != .stopped || !routinesStill s g.val then .next s
    else
      let (undo, s1) := makeWrites g.val part.writes s
      .next (count cMatParts g.val 1 (count cMatQuiesces g.val 1
        (setMatPipe g.val { p with
          parts := rest, quiesce := .none, retired := some undo, epoch := p.epoch + 1, appliedSeq := part.seq
          appliedParts := if part.seq == p.appliedSeq then p.appliedParts + 1 else 1
          lastWindow := clocks.val, maxWindow := max p.maxWindow clocks.val } s1)))

/-- Whether a frame in the stages entered S0 before the last part. -/
def oldEpoch (p : MatPipe) (v : Frame) : Bool :=
  v.epoch != p.epoch && atStage v.stage v

/-- RETIRED_BUFFER_RELEASE (R177 step 6): no old-epoch frame is left in the stages. -/
def execRetiredBufferRelease (g : Pipe) (s : State) : Host.Outcome State Fault Refusal :=
  let p := matPipe s g.val
  if s.fr.frames.any fun e => e.2.pipe == g.val && oldEpoch p e.2 then .next s
  else .next (setMatPipe g.val { p with retired := none } s)

/-! ### Rule batches (R172 to R175, R181) -/

/-- The open batch of a session. -/
def openBatch (s : State) (i : Nat) : List Bytes := tabGet [] s.mat.openBatch i

/-- The fields of the `k`-th RULE_ENTRY of a RULE_ADD (R172). -/
def ruleEntryFields (k : Nat) : List Fld :=
  let o := 80 * k
  [ fRange o 1 1 3 .badarg, fRange (o + 1) 1 0 23 .range, fRange (o + 2) 1 0 7 .range, fRsv (o + 3) 1, fAny (o + 4) 4,
    fRange (o + 8) 2 0 8191 .range, fRsv (o + 10) 6, fAny (o + 16) 56, fRsv (o + 72) 8 ]

/-- The command RuleAdd of `n` entries as Icoux checks it. -/
def opRuleAdd (n : Nat) : OpDef :=
  { opcode := 0x0601, len := fun p => p.length % 80 == 0 && inRange (p.length / 80) 1 51, fields := (List.range n).flatMap ruleEntryFields }

/-- RULE_ADD (R172, R516): entries join the session's open batch. -/
def execRuleAdd (c : Cmd) (s : State) : Host.Outcome State Fault Refusal :=
  let n := (payloadOf (effectiveCmd c s)).length / 80
  .next (icoux (opRuleAdd n) c (fun i b s =>
    let all := openBatch s i ++ (List.range (b.length / 80)).map fun k => slice b (80 * k) 80
    if all.length > 65536 then badAll .range
    else .done (modMat (fun m => { m with openBatch := tabSet [] i all m.openBatch }) s) .ok (toLe 4 all.length) []) s)

/-- RULE_BATCH_ABORT as the opcode tables of Icoux give it (R514 to R520), with the checks of its fields. -/
def opRuleBatchAbort : OpDef := { opcode := 0x0603, len := fun p => p.isEmpty }

/-- RULE_BATCH_ABORT (R516). -/
def execRuleBatchAbort (c : Cmd) (s : State) : Host.Outcome State Fault Refusal :=
  .next (icoux opRuleBatchAbort c (fun i _ s =>
    .done (modMat (fun m => { m with openBatch := tabDel i m.openBatch }) s) .ok (toLe 4 (openBatch s i).length) []) s)

/-- Whether an image apply is pending on a named pipeline (R185). -/
def applyPending (s : State) (mask : Nat) : Bool := (maskBits 64 mask).any fun g => (matPipe s g).imageHeld || bit s.mat.applyLeft g

/-- The parts of a batch in every named pipeline, or the first entry and pipeline that fail, with the field at fault (R174). -/
def checkBatch (s : State) (es : List Bytes) : List Nat → Except (Nat × Nat × Nat × Status) (List (Nat × List (List MatWrite)))
  | [] => .ok []
  | g :: t =>
    match checkEntries 0 es (stagesToBe s g) [] with
    | .error (n, off, st) => .error (n, g, off, st)
    | .ok (_, ws) =>
      match checkBatch s es t with
      | .error e => .error e
      | .ok r => .ok ((g, splitParts ws []) :: r)

/-- The failure data of RULE_BATCH: entry, pipeline, and the field at fault, 0xFFFF where there is none (R516). -/
def batchFailure (entry pipe off : Nat) : Bytes := toLe 4 entry ++ toLe 1 pipe ++ toLe 1 0 ++ toLe 2 off

/-- RULE_BATCH as the opcode tables of Icoux give it (R514 to R520), with the checks of its fields; entry_count is checked only once
a batch is open (R174). -/
def opRuleBatch : OpDef := { writeOp 0x0602 16 [fVal 0 8 (fun v => orElse (v != 0) .badarg), fBits 8 1 1, fRsv 9 3, fAny 12 4] with
  apply := 3 }

/-- RULE_BATCH (R174, R175): the batch is checked against every named pipeline and its parts wait for their quiesces. -/
def execRuleBatch (c : Cmd) (s : State) : Host.Outcome State Fault Refusal :=
  .next (icoux opRuleBatch c (fun i b s =>
    let es := openBatch s i
    let fail := fun st => CmdResult.fail st (batchFailure 0 0 0xFFFF)
    if es.isEmpty then fail .state
    else if u32 b 12 == 0 then .fail .badarg (batchFailure 0 0 12)
    else if u32 b 12 > 65536 then .fail .range (batchFailure 0 0 12)
    else if es.length != u32 b 12 then fail .badarg
    else if applyPending s (u64 b 0) then fail .busy
    else
      match checkBatch s es (maskBits 64 (u64 b 0)) with
      | .error (n, g, off, st) => .fail st (batchFailure n g off)
      | .ok ps =>
        let parts := (ps.map fun p => p.2.length).foldl max 0
        if bit (u8 b 8) 0 && parts > 1 then fail .range
        else
          let seq := s.mat.nextSeq
          let s1 := ps.foldl (fun s p => setMatPipe p.1 { matPipe s p.1 with
            parts := (matPipe s p.1).parts ++ p.2.map fun ws => { seq, writes := ws } } s) s
          let s2 := modMat (fun m => { m with nextSeq := wrapAdd 32 m.nextSeq 1, openBatch := tabDel i m.openBatch }) s1
          .done (if parts > 1 then kiln 0x0601 [(4, seq), (4, parts)] s2 else s2) .ok (toLe 4 seq ++ toLe 2 parts) []) s)

/-- RULE_BATCH_STATUS as the opcode tables of Icoux give it (R514 to R520), with the checks of its fields. -/
def opRuleBatchStatus : OpDef := readOp 0x0604 24 [(fRange 0 1 0 63 .range).asKey, fAny 1 23]

/-- RULE_BATCH_STATUS (R181). -/
def execRuleBatchStatus (c : Cmd) (s : State) : Host.Outcome State Fault Refusal :=
  .next (icoux opRuleBatchStatus c (fun _ b s =>
    let p := matPipe s (u8 b 0)
    okReply s (image 24 [(0, 1, u8 b 0), (4, 4, p.appliedSeq), (8, 2, p.appliedParts), (10, 2, p.parts.length),
      (12, 2, p.lastWindow), (14, 2, p.maxWindow), (16, 4, p.holdPeak)])) s)

/-! ### Faults (R187) -/

/-- Drops the frame that holds a bad word, if it is in this stage of this pipeline. -/
def stageFrameDrop (g st b : Nat) (u : Option Nat) (s : State) : State :=
  match u with
  | none => s
  | some x => if (frameOf s x).pipe == g && atStage st (frameOf s x) then stageDrop x b s else s

/-- One more error in a row of an exact-match unit: the third within 24 h retires it to a spare row, of which a unit has 64. -/
def rowError (g st unit row : Nat) (s : State) : State :=
  let v := matStage s g st
  let k := exactCode unit row
  let times := s.now :: (tabGet [] v.rowErrors k).filter fun t => s.now < t + 86400 * tSec
  if times.length ≥ 3 && tabGet 0 v.retiredRows unit < 64 then
    kiln 0x0604 [(1, g), (1, st), (1, unit), (4, row)]
      (setStage g st { v with rowErrors := tabDel k v.rowErrors, retiredRows := tabMod 0 unit (· + 1) v.retiredRows } s)
  else setStage g st { v with rowErrors := tabSet [] k (times.take 3) v.rowErrors } s

/-- The FDB index of a row of an FDB unit (R220), if it is one. -/
def fdbIndexOf (profile st unit row : Nat) : Option Nat :=
  match profile with
  | 0 => if inRange st 6 13 then
      let n := st - 6
      some ((n / 2) * 131072 + (n % 2) * 65536 + unit * 4096 + row) else none
  | 1 => if st == 6 && unit < 8 then some ((unit / 2) * 8192 + (unit % 2) * 4096 + row) else none
  | _ => if inRange st 6 7 then
      let w := 2 * (st - 6) + unit / 8
      some (w * 32768 + (unit % 8) * 4096 + row) else none

/-- Whether a unit holds LPM buckets (R151). -/
def lpmUnit (profile st unit : Nat) : Bool :=
  match profile with
  | 0 => st == 15 && unit < 8
  | 1 => inRange st 8 15
  | _ => inRange st 9 10

/-- Poisons a row of an exact-match unit: an FDB row, an LPM bucket row or a row of a table. -/
def poisonExact (g st unit row : Nat) (s : State) : State :=
  match fdbIndexOf s.tableProfile st unit row with
  | some i => modFwdPipe g (fun v => { v with poisoned := i :: v.poisoned }) s
  | none =>
    if lpmUnit s.tableProfile st unit then modFwdPipe g (fun v => { v with bucketBad := true }) s
    else modStage g st (fun v => { v with poisoned := exactCode unit row :: v.poisoned }) s

/-- MAT_EXACT (R187). -/
def execMatExact (g : Pipe) (st : StageNo) (unit : Fin 16) (row : Fin 4096) (u : Option Nat) (s : State) :
    Host.Outcome State Fault Refusal :=
  .next (detect 14 6 (32 * g.val + st.val) (fun _ s =>
    stageFrameDrop g.val st.val 14 u (rowError g.val st.val unit.val row.val (poisonExact g.val st.val unit.val row.val s))) s)

/-- MAT_TERNARY (R187): the row's table drops its lookups until the row is rewritten; an LPM pivot's table is the LPM. -/
def execMatTernary (g : Pipe) (st : StageNo) (block : Fin 4) (row : Fin 1024) (u : Option Nat) (s : State) :
    Host.Outcome State Fault Refusal :=
  .next (detect 15 6 (32 * g.val + st.val) (fun _ s =>
    stageFrameDrop g.val st.val 15 u
      (if regionBlocks s.tableProfile st.val block.val then modFwdPipe g.val (fun v => { v with pivotBad := true }) s
       else modStage g.val st.val (fun v => { v with poisoned := ternCode block.val row.val :: v.poisoned }) s)) s)

/-- MAT_RESULT (R187). -/
def execMatResult (g : Pipe) (st : StageNo) (block : Fin 4) (row : Fin 1024) (u : Option Nat) (s : State) :
    Host.Outcome State Fault Refusal :=
  .next (detect 16 6 (32 * g.val + st.val) (fun _ s =>
    stageFrameDrop g.val st.val 16 u
      (if regionBlocks s.tableProfile st.val block.val then modFwdPipe g.val (fun v => { v with pivotBad := true }) s
       else modStage g.val st.val (fun v => { v with poisoned := resultCode block.val row.val :: v.poisoned }) s)) s)

/-- ROW_REWRITE (R187, R225): the row is rewritten from its shadow; an FDB row comes back with both hit bits set. -/
def execRowRewrite (g : Pipe) (st : StageNo) (r : RowRef) (s : State) : Host.Outcome State Fault Refusal :=
  let clear := fun (k : Nat) => modStage g.val st.val (fun v => { v with poisoned := v.poisoned.filter (· != k) }) s
  match r with
  | .exact unit row =>
    match fdbIndexOf s.tableProfile st.val unit.val row.val with
    | some i =>
      .next (modFwdPipe g.val (fun v =>
        { v with poisoned := v.poisoned.filter (· != i), fdb := tabUpd i (fun x => rowHits x true true) v.fdb }) s)
    | none =>
      if lpmUnit s.tableProfile st.val unit.val then .next (modFwdPipe g.val (fun v => { v with bucketBad := false }) s)
      else .next (clear (exactCode unit.val row.val))
  | .ternary block row =>
    if regionBlocks s.tableProfile st.val block.val then .next (modFwdPipe g.val (fun v => { v with pivotBad := false }) s)
    else .next (clear (ternCode block.val row.val))
  | .result block row =>
    if regionBlocks s.tableProfile st.val block.val then .next (modFwdPipe g.val (fun v => { v with pivotBad := false }) s)
    else .next (clear (resultCode block.val row.val))

/-- MAT_DESC (R187): the stage is reloaded under a quiesce. -/
def execMatDesc (g : Pipe) (st : StageNo) (u : Option Nat) (s : State) : Host.Outcome State Fault Refusal :=
  .next (detect 17 6 (32 * g.val + st.val) (fun inj s =>
    kilnInj inj 0x0603 [(1, g.val), (1, st.val), (1, 17)]
      (modStage g.val st.val (fun v => { v with reloading := true }) (stageFrameDrop g.val st.val 17 u s))) s)

/-- STAGE_RELOAD (R187): the reload from the shadow is complete. -/
def execStageReload (g : Pipe) (st : StageNo) (s : State) : Host.Outcome State Fault Refusal :=
  .next (modStage g.val st.val (fun v => { v with reloading := false, poisoned := [] }) s)

/-- MAT_PATH (R187): a bad word between stages or in the hold FIFO. -/
def execMatPath (g : Pipe) (u : Nat) (s : State) : Host.Outcome State Fault Refusal :=
  let f := frameOf s u
  if f.pipe == g.val && (f.place == .hold || f.place == .decide || atStage f.stage f) then
    .next (detect 18 5 g.val (fun _ s => stageDrop u 18 s) s)
  else .next s

end Sys2Proof.Machine
end

