-- ==== Sys2Proof/Machine/Sig.lean ====
section
/-!
DEFINITION. The signature engines and the inspection path: sets, scans, dispatch, return and faults (R258 to R275).
-/

namespace Sys2Proof.Machine

/-! ### Set images (R262, R263) -/

def stateNext (x : Nat) : Nat := bits x 0 16
def stateAccept (x : Nat) : Nat := bits x 16 16
def stateBase (x : Nat) : Nat := bits x 32 20
def stateCount (x : Nat) : Nat := bits x 52 9

/-- The entries of a set's table in an image. -/
def setTable (b : Bytes) (off w n : Nat) : Store Nat :=
  (List.range n).foldl (fun t i => tabSet 0 i (field b (off + w * i) w) t) []

/-- Whether the transitions of a state ascend in BYTE without repeats. -/
def transAscend (b : Bytes) (off base n : Nat) : Bool :=
  (List.range (n - 1)).all fun i => u8 b (off + 4 * (base + i)) < u8 b (off + 4 * (base + i + 1))

/-- The checks of a set image: the failing table (0 header, 1 state, 2 transition, 3 accept, 4 rule), entry and status. -/
def sigSetBad (b : Bytes) : Option (Nat × Nat × Status) :=
  let ns := u32 b 8
  let nt := u32 b 12
  let na := u32 b 16
  let nr := u16 b 20
  let ot := 32 + 8 * ns
  let oa := ot + 4 * nt
  let orr := oa + 2 * na
  if slice b 0 4 != [0x46, 0x42, 0x58, 0x53] then some (0, 0, .badarg)
  else if u16 b 4 != 1 then some (0, 0, .notsup)
  else if !inRange ns 1 65536 || nt > 1048576 || na > 65536 || !inRange nr 1 4096 || u16 b 6 ≥ ns || !zeroAt b 22 2 ||
      b.length != orr + 2 * nr then some (0, 0, .badarg)
  else if u32 b 28 != crc32c (b.drop 32) then some (0, 0, .integrity)
  else
    let badState := fun i =>
      let x := u64 b (32 + 8 * i)
      stateNext x ≥ ns || !(stateAccept x == 0xFFFF || stateAccept x < na) || stateCount x > 256 ||
        stateBase x + stateCount x > nt || bits x 61 3 != 0 || !transAscend b ot (stateBase x) (stateCount x) ||
        (i == u16 b 6 && stateAccept x != 0xFFFF)
    let badTrans := fun i => bits (u32 b (ot + 4 * i)) 8 16 ≥ ns || bits (u32 b (ot + 4 * i)) 24 8 != 0
    let badAccept := fun i =>
      let x := u16 b (oa + 2 * i)
      bits x 0 12 ≥ nr || bits x 12 3 != 0 || (i + 1 == na && !bit x 15)
    let badRule := fun i => u16 b (orr + 2 * i) ≥ 32
    match firstIdx ns badState, firstIdx nt badTrans, firstIdx na badAccept, firstIdx nr badRule with
    | some i, _, _, _ => some (1, i, .badarg)
    | _, some i, _, _ => some (2, i, .badarg)
    | _, _, some i, _ => some (3, i, .badarg)
    | _, _, _, some i => some (4, i, .badarg)
    | _, _, _, _ => none

/-- The set of an image. -/
def sigSetOf (b : Bytes) : SigSet :=
  let ns := u32 b 8
  let nt := u32 b 12
  let na := u32 b 16
  { tag := u32 b 24, start := u16 b 6, states := setTable b 32 8 ns, trans := setTable b (32 + 8 * ns) 4 nt
    accepts := setTable b (32 + 8 * ns + 4 * nt) 2 na, rules := setTable b (32 + 8 * ns + 4 * nt + 2 * na) 2 (u16 b 20)
    ruleCount := u16 b 20 }

/-! ### Scans (R264 to R266) -/

/-- The enabled rules of the accept list at entry `i`. -/
def acceptedRules (v : SigSet) : Nat → Nat → List Nat
  | 0, _ => []
  | fuel + 1, i =>
    let x := tabGet 0 v.accepts i
    let r := bits x 0 12
    let rest := if bit x 15 then [] else acceptedRules v fuel (i + 1)
    if bit (tabGet 0 v.rules r) 4 then r :: rest else rest

/-- The state after one byte of the window. -/
def scanNext (v : SigSet) (st : Nat) (b : Byte) : Nat :=
  let x := tabGet 0 v.states st
  match ((List.range (stateCount x)).map fun i => tabGet 0 v.trans (stateBase x + i)).find? fun t => bits t 0 8 == b.toNat with
  | some t => bits t 8 16
  | none => stateNext x

/-- The rules that a window matches, each once. -/
def scanWindow (v : SigSet) : Nat → List Nat → Bytes → List Nat
  | _, acc, [] => acc
  | st, acc, b :: t =>
    let n := scanNext v st b
    let a := stateAccept (tabGet 0 v.states n)
    let found := if a == 0xFFFF then [] else acceptedRules v 65536 a
    scanWindow v n (found.foldl (fun l r => if l.contains r then l else r :: l) acc) t

/-- The scan window of a frame (R264). -/
def scanBytes (d : Bytes) : Bytes := (d.take (d.length - 4)).take 1024

/-- The bit window_full of F7. -/
def windowFull (d : Bytes) : Nat := 2 ^ 27 * b2n (d.length > 1028)

/-- F7 of a status without a match. -/
def f7Status (st : Nat) (d : Bytes) : Nat := 2 ^ 24 * st + windowFull d

/-- F7 of a scan by an engine (R265, R266). -/
def f7Of (v : SigSet) (e : Nat) (rules : List Nat) (d : Bytes) : Nat :=
  if rules.isEmpty then f7Status 2 d + 2 ^ 28 * e
  else
    let prio := fun r => bits (tabGet 0 v.rules r) 0 4
    let p := (rules.map prio).foldl max 0
    let won := rules.filter fun r => prio r == p
    min won.length 255 + 256 * p + 4096 * won.foldl min 4095 + 2 ^ 24 + windowFull d + 2 ^ 28 * e

/-! ### Engines, profiles and dispatch (R267 to R270) -/

/-- Engine `e`. -/
def engineOf (s : State) (e : Nat) : SigEngine := tabGet {} s.sig.engines e

/-- `s` with an engine set. -/
def setEngine (e : Nat) (v : SigEngine) (s : State) : State := modSig (fun t => { t with engines := tabSet {} e v t.engines }) s

/-- The set an engine is assigned. -/
def engineSet (v : SigEngine) : Nat := u8 v.obj 2

/-- Whether an engine runs a set and takes scans. -/
def engineServes (s : State) (e set : Nat) : Bool :=
  let v := engineOf s e
  v.phase == .active && v.loaded.isSome && engineSet v == set && bit (u8 v.obj 1) 0 && !engineFenced s e

/-- Whether a request's scan runs on engine `e`. -/
def scansOn (e : Nat) (r : InspReq) : Bool := match r.scan with | .scanning x _ _ _ => x == e | _ => false

/-- The scans that run on an engine. -/
def engineLoad (s : State) (e : Nat) : Nat := ((inspReqs s (e / 4)).filter (scansOn e)).length

/-- The engines of quadrant `q` that serve a set. -/
def enginesFor (s : State) (q set : Nat) : List Nat := ((List.range 4).map (4 * q + ·)).filter fun e => engineServes s e set

def profileDefault (p : Nat) : Bytes := image 8 [(0, 1, p)]

/-- The SIG_PROFILE entry of a quadrant, quadrant_mask zero. -/
def sigProfile (s : State) (q p : Nat) : Bytes := (tabFind s.sig.profiles (256 * q + p)).getD (profileDefault p)

/-- Whether a profile names a set that an engine serves. -/
def profileServed (s : State) (q p : Nat) : Bool :=
  bit (u8 (sigProfile s q p) 2) 0 && !(enginesFor s q (u8 (sigProfile s q p) 3)).isEmpty

/-- The engine for a request: the fewest running scans, the lowest number among equals; none when all its threads are busy. -/
def pickEngine (s : State) (q set : Nat) : Option Nat :=
  ((enginesFor s q set).filter fun e => engineLoad s e < 64).foldl (fun best e =>
    match best with
    | none => some e
    | some b => if engineLoad s e < engineLoad s b then some e else best) none

/-- Whether a queued request only waits for a busy thread, so that others may pass it (R269). -/
def reqBlocked (s : State) (q : Nat) (r : InspReq) : Bool :=
  r.scan != .queued || (profileServed s q r.profile && (pickEngine s q (u8 (sigProfile s q r.profile) 3)).isNone)

/-- The requests before frame `u`'s. -/
def reqsBefore (l : List InspReq) (u : Nat) : List InspReq := l.takeWhile fun r => r.frame != u

/-- SIG_DISPATCH (R269): the request of frame `u` goes to an engine, or returns NOT_LOADED. -/
def execSigDispatch (u : Nat) (s : State) : Host.Outcome State Fault Refusal :=
  let v := frameOf s u
  let q := quadOfPipe v.pipe
  match (inspReqs s q).find? fun r => r.frame == u with
  | none => .next s
  | some r =>
    if r.scan != .queued || !((reqsBefore (inspReqs s q) u).all (reqBlocked s q)) then .next s
    else if inspectFenced s q then .next (modInspReq q u (fun r => { r with scan := .done (f7Status 5 v.data) }) s)
    else if !profileServed s q r.profile then
      .next (kilnOnce 0x0706 q [(1, q), (1, r.profile)] (count cSigNotLoaded q 1
        (modInspReq q u (fun r => { r with scan := .done (f7Status 4 v.data) }) s)))
    else
      let set := u8 (sigProfile s q r.profile) 3
      match pickEngine s q set with
      | none => .next s
      | some e =>
        match (engineOf s e).loaded with
        | none => .next s
        | some a =>
          let rules := scanWindow a a.start [] (scanBytes v.data)
          .next (modInspReq q u (fun r => { r with scan := .scanning e set (f7Of a e rules v.data) rules }) s)

/-- SIG_SCAN_DONE (R265, R272): the scan of frame `u` ends. -/
def execSigScanDone (u : Nat) (s : State) : Host.Outcome State Fault Refusal :=
  let v := frameOf s u
  let q := quadOfPipe v.pipe
  match (inspReqs s q).find? fun r => r.frame == u with
  | none => .next s
  | some r =>
    match r.scan with
    | .scanning e set f7 rules =>
      let s1 := modInspReq q u (fun r => { r with scan := .done f7 }) s
      let s2 := count cSigBytes e (scanBytes v.data).length (count cSigScans e 1 s1)
      let s3 := rules.foldl (fun s r => count (cSigRuleHits r) (16 * q + set) 1 s) s2
      .next (if rules.isEmpty then count cSigNomatch e 1 s3 else count (cSigPrio (bits f7 8 4)) q 1 (count cSigMatch e 1 s3))
    | _ => .next s

/-! ### The inspection path (R259, R260) -/

/-- The cells of a quadrant's inspection store in use. -/
def inspectUsed (s : State) (q : Nat) : Nat := ((inspReqs s q).map fun r => r.cells).foldl (· + ·) 0

/-- The scan part of a request as it joins: refused at once or queued (R259). -/
def joinScan (q u : Nat) (s : State) : State :=
  let d := (frameOf s u).data
  if inspectFenced s q then modInspReq q u (fun r => { r with scan := .done (f7Status 5 d) }) s
  else if ((inspReqs s q).filter fun r => r.scan == .queued).length ≥ 4096 then
    kilnOnce 0x0705 q [(1, q)] (count cSigOverflow q 1 (modInspReq q u (fun r => { r with scan := .done (f7Status 3 d) }) s))
  else modInspReq q u (fun r => { r with scan := .queued }) s

/-- Frame `u` takes the inspection path with its F6 (R258, R259); a frame for which the store lacks room is dropped. -/
def inspect (u : Nat) (s : State) : State :=
  let v := frameOf s u
  let q := quadOfPipe v.pipe
  let f6 := metaF v 6
  let sig := bit f6 8
  let tree := bit f6 9
  let cells := (v.data.length + 255) / 256
  if inspectUsed s q + cells > 32768 then
    dropFrame u 0x1C {} (kilnOnce 0x0707 q [(1, q)] (count cInspectOverrun q 1 s))
  else
    let s1 := setInspReqs q (inspReqs s q ++ [{ frame := u, cells, profile := bits f6 0 8, walk := tree }])
      (modFrame u (fun v => { v with place := .inspect }) (count cInspectFrames q 1 s))
    let s2 := if sig then joinScan q u s1 else s1
    if !tree then s2
    else if inspectFenced s q then modInspReq q u (fun r => { r with tree := some (treeF8 5 0 (bits f6 10 4), 0) }) s2
    else requestWalk q u (bits f6 10 4) s2

/-- F7 of a request, once it is there. -/
def reqF7 (r : InspReq) : Option Nat :=
  match r.scan with
  | .notAsked => some 0
  | .done f7 => some f7
  | _ => none

/-- F8 and F9 of a request, once they are there. -/
def reqTree (r : InspReq) : Option (Nat × Nat) := if r.walk then r.tree else some (0, 0)

/-- The results of a request; behind a fence what is missing is ERROR (R435). -/
def reqResults (s : State) (q : Nat) (r : InspReq) : Option (Nat × Nat × Nat) :=
  let d := (frameOf s r.frame).data
  let fenced := inspectFenced s q
  match (if fenced then some ((reqF7 r).getD (f7Status 5 d)) else reqF7 r),
        (if fenced then some ((reqTree r).getD (5, 0)) else reqTree r) with
  | some a, some b => some (a, b.1, b.2)
  | _, _ => none

/-- A request and its walk leave the inspection path. -/
def endInspection (q u : Nat) (s : State) : State :=
  returnWalks q (setWalks q ((walksOf s q).filter fun w => w.frame != u)
    (setInspReqs q ((inspReqs s q).filter fun r => r.frame != u) s))

/-- The containers that a new pass carries over: U0 to U15 (R165). -/
def carriedConts (v : Frame) : Store Nat := tabKeep (fun c => inRange c 272 287) v.hdr

/-- The number of a frame's first pass. -/
def arrivalOf (u : Nat) (v : Frame) : Nat := if v.returned || v.passes > 0 then v.orig else u

/-- Frame `u` as it begins another pass from `source` (R165, R259, R316). -/
def nextPass (u source : Nat) (v : Frame) : Frame :=
  { v with place := .fifo, source, hdr := carriedConts v, orig := arrivalOf u v, graph := none, cursor := 0, visits := 0
           node := 0, malformed := 0, present := 0, stage := 0, slots := [], routine := 0, resv := 0, srcKey := none
           fdbDst := 0, fdbSrc := 0, lpmRes := 0, hostCfg := [], hostDue := false, hostRes := 0 }

/-- INSPECTION_RETURN (R259, R260): with every result there, the frame re-enters its parser in request order of its port; a
fenced pipeline drops it. -/
def execInspectionReturn (u : Nat) (s : State) : Host.Outcome State Fault Refusal :=
  let v := frameOf s u
  let q := quadOfPipe v.pipe
  match (inspReqs s q).find? fun r => r.frame == u with
  | none => .next s
  | some r =>
    let earlier := (reqsBefore (inspReqs s q) u).any fun x =>
      (frameOf s x.frame).pipe == v.pipe && (frameOf s x.frame).port == v.port
    match reqResults s q r with
    | none => .next s
    | some (f7, f8, f9) =>
      if earlier then .next s
      else
        let n := { nextPass u 3 v with returned := true }
        let n1 := { n with hdr := tabSet 0 297 f9 (tabSet 0 296 f8 (tabSet 0 295 f7 n.hdr)) }
        .next (if pipeFenced s v.pipe then dropFrame u 0x2B {} (endInspection q u s)
          else (newFrame n1 (spend u (endInspection q u s))).2)

/-! ### Commands -/

/-- Whether set `n` of quadrant `q` is loaded. -/
def setLoaded (s : State) (q n : Nat) : Bool := (tabFind s.sig.sets (16 * q + n)).isSome

/-- The fields of SIG_ENGINE (R267). -/
def sigEngineFields : List Fld :=
  [ (fRange 0 1 0 15 .range).asKey, fBits 1 1 1,
    fDep 2 1 (fun s p => if u8 p 2 > 15 then some .range else orElse (setLoaded s (u8 p 0 / 4) (u8 p 2)) .state), fRsv 3 5 ]

/-- SIG_ENGINE_WRITE as the opcode tables of Icoux give it (R514 to R520), with the checks of its fields. -/
def opSigEngineWrite : OpDef := writeOp 0x0704 8 sigEngineFields

/-- SIG_ENGINE write (R267): the engine drains and loads; the completion follows. -/
def execSigEngineWrite (c : Cmd) (s : State) : Host.Outcome State Fault Refusal :=
  .next (icoux opSigEngineWrite c (fun _ b s =>
    .later fun id =>
      let e := u8 b 0
      modSig (fun t => { t with jobs := t.jobs ++ [{ run := id, engines := [e], data := [] }] })
        (setEngine e { engineOf s e with obj := b, phase := .loading } s)) s)

/-- SIG_ENGINE_READ as the opcode tables of Icoux give it (R514 to R520), with the checks of its fields. -/
def opSigEngineRead : OpDef := readOp 0x0705 8 [(fRange 0 1 0 15 .range).asKey, fAny 1 7]

/-- SIG_ENGINE read. -/
def execSigEngineRead (c : Cmd) (s : State) : Host.Outcome State Fault Refusal :=
  .next (icoux opSigEngineRead c (fun _ b s =>
    okReply s (putField (slice (engineOf s (u8 b 0)).obj 0 8) 0 1 (u8 b 0))) s)

/-- A job after engine `e` has loaded, and the next engine it names. -/
def jobLoaded (e : Nat) (j : SigJob) : SigJob × Option Nat :=
  match j.engines with
  | x :: t => if x == e then ({ j with engines := t }, t.head?) else (j, none)
  | [] => (j, none)

/-- Starts the loading of an engine. -/
def startLoading (e : Nat) (s : State) : State := setEngine e { engineOf s e with phase := .loading } s

/-- SIG_RELOAD (R267, R274, R508): the engine has copied its set from the shadow and returns to dispatch, or idles when it is
not enabled; a command that waits for its last engine ends. -/
def execSigReload (e : Engine) (s : State) : Host.Outcome State Fault Refusal :=
  let v := engineOf s e.val
  if !(v.phase == .loading || v.phase == .faulted) || (v.phase == .loading && engineLoad s e.val != 0) then .next s
  else
    let set := tabFind s.sig.sets (16 * (e.val / 4) + engineSet v)
    let on := bit (u8 v.obj 1) 0
    let s1 :=
      if on then
        kiln 0x0702 [(1, e.val), (1, engineSet v), (4, match set with | some a => a.tag | none => 0)]
          (setEngine e.val { v with phase := .active, loaded := set, loads := wrapAdd 32 v.loads 1 } s)
      else setEngine e.val { v with phase := .idle, loaded := none } s
    let after := s1.sig.jobs.map (jobLoaded e.val)
    let s2 := modSig (fun t => { t with jobs := (after.map Prod.fst).filter fun j => !j.engines.isEmpty }) s1
    let s3 := (after.filterMap Prod.snd).foldl (fun s n => startLoading n s) s2
    .next (((after.map Prod.fst).filter fun j => j.engines.isEmpty).foldl (fun s j => endRunning j.run .ok j.data [] s) s3)

/-- The fields of SIG_PROFILE (R268). -/
def sigProfileFields (read : Bool) : List Fld :=
  [(fAny 0 1).asKey, fQuadMask 1 read, fBits 2 1 1, fRange 3 1 0 15 .range, fRsv 4 4]

/-- SIG_PROFILE_WRITE as the opcode tables of Icoux give it (R514 to R520), with the checks of its fields. -/
def opSigProfileWrite : OpDef := writeOp 0x0706 8 (sigProfileFields false)

/-- SIG_PROFILE write (R268). -/
def execSigProfileWrite (c : Cmd) (s : State) : Host.Outcome State Fault Refusal :=
  .next (icoux opSigProfileWrite c (fun _ b s =>
    okWrite (forMask 4 (u8 b 1) (fun q => modSig fun t =>
      { t with profiles := tabPut (256 * q + u8 b 0) (putField b 1 1 0) t.profiles }) s)) s)

/-- SIG_PROFILE_READ as the opcode tables of Icoux give it (R514 to R520), with the checks of its fields. -/
def opSigProfileRead : OpDef := readOp 0x0707 8 (sigProfileFields true)

/-- SIG_PROFILE read. -/
def execSigProfileRead (c : Cmd) (s : State) : Host.Outcome State Fault Refusal :=
  .next (icoux opSigProfileRead c (fun _ b s =>
    okReply s (putField (sigProfile s (u8 b 1).log2 (u8 b 0)) 1 1 (u8 b 1))) s)

/-- Whether every named quadrant has the set, and the rule lies below its rule_count (R271). -/
def sigRuleCheck (s : State) (p : Bytes) : Option Status :=
  let sets := (maskBits 4 (u8 p 0)).map fun q => tabFind s.sig.sets (16 * q + u8 p 1)
  if sets.any fun a => a.isNone then none
  else orElse (sets.all fun a => match a with | some x => u16 p 2 < x.ruleCount | none => true) .range

/-- The fields of SIG_RULE (R271). -/
def sigRuleFields (read : Bool) : List Fld :=
  [ fQuadMask 0 read,
    (fDep 1 1 fun s p =>
      if u8 p 1 > 15 then some .range
      else orElse ((maskBits 4 (u8 p 0)).all fun q => setLoaded s q (u8 p 1)) .state).asKey,
    (fDep 2 2 sigRuleCheck).asKey, fBits 4 2 0x1F, fRsv 6 2 ]

/-- A set with one rule changed. -/
def setRule (r x : Nat) (a : SigSet) : SigSet := { a with rules := tabSet 0 r x a.rules }

/-- SIG_RULE_WRITE as the opcode tables of Icoux give it (R514 to R520), with the checks of its fields. -/
def opSigRuleWrite : OpDef := writeOp 0x0708 8 (sigRuleFields false)

/-- SIG_RULE write (R271): the shadow and every engine that runs the set; running scans keep what they started with. -/
def execSigRuleWrite (c : Cmd) (s : State) : Host.Outcome State Fault Refusal :=
  .next (icoux opSigRuleWrite c (fun _ b s =>
    let n := u8 b 1
    okWrite (forMask 4 (u8 b 0) (fun q => modSig fun t =>
      { t with sets := tabUpd (16 * q + n) (setRule (u16 b 2) (u16 b 4)) t.sets
               engines := t.engines.map fun e =>
                 if e.1 / 4 == q && engineSet e.2 == n then (e.1, { e.2 with loaded := e.2.loaded.map (setRule (u16 b 2) (u16 b 4)) })
                 else e }) s)) s)

/-- SIG_RULE_READ as the opcode tables of Icoux give it (R514 to R520), with the checks of its fields. -/
def opSigRuleRead : OpDef := readOp 0x0709 8 (sigRuleFields true)

/-- SIG_RULE read. -/
def execSigRuleRead (c : Cmd) (s : State) : Host.Outcome State Fault Refusal :=
  .next (icoux opSigRuleRead c (fun _ b s =>
    let a := (tabFind s.sig.sets (16 * (u8 b 0).log2 + u8 b 1)).getD {}
    okReply s (putField b 4 2 (tabGet 0 a.rules (u16 b 2)))) s)

/-- The state code of SIG_STATUS (R513). -/
def engineCode (p : EnginePhase) : Nat := match p with | .idle => 0 | .loading => 1 | .active => 2 | .faulted => 3

/-- SIG_STATUS as the opcode tables of Icoux give it (R514 to R520), with the checks of its fields. -/
def opSigStatus : OpDef := readOp 0x070A 24 [(fRange 0 1 0 15 .range).asKey, fAny 1 23]

/-- SIG_STATUS (R271, R513). -/
def execSigStatus (c : Cmd) (s : State) : Host.Outcome State Fault Refusal :=
  .next (icoux opSigStatus c (fun _ b s =>
    let v := engineOf s (u8 b 0)
    let tag := match v.loaded with | some a => a.tag | none => 0
    okReply s (image 24 [(0, 1, u8 b 0), (1, 1, engineCode v.phase), (2, 1, engineSet v), (4, 4, tag), (8, 4, v.loads),
      (12, 4, v.cleanNs), (16, 8, v.cleanSec)])) s)

/-! ### Faults (R273, R274) -/

/-- A time of day as signed µs from the present record's own time (R446). -/
def relativeUs (s : State) (sec ns : Nat) : Nat :=
  let t := datapathStamp s 0
  ofSigned 32 (((sec * 1000000000 + ns : Nat) : Int) / 1000 - ((t.sec * 1000000000 + t.ns : Nat) : Int) / 1000)

/-- The compare scrub finds a word of engine `e` that differs from its shadow: it is rewritten (R273). -/
def sigMismatch (e offset : Nat) (s : State) : State :=
  let v := engineOf s e
  detect 28 9 e (fun inj => kilnInj inj 0x0704 [(1, e), (4, offset), (4, relativeUs s v.cleanSec v.cleanNs)]) s

/-- SIG_STORE (R273, R274): a compare mismatch is rewritten from the shadow; an uncorrectable word ends the scan of `u` with
ERROR and takes the engine out of dispatch until it has reloaded. -/
def execSigStore (e : Engine) (mismatch : Bool) (offset : Nat) (u : Option Nat) (s : State) :
    Host.Outcome State Fault Refusal :=
  if mismatch then .next (sigMismatch e.val offset s)
  else
    .next (detect 28 9 e.val (fun inj s =>
      let v := engineOf s e.val
      let q := e.val / 4
      let s1 := kilnInj inj 0x0703 [(1, e.val), (1, 28)] (setEngine e.val { v with phase := .faulted } s)
      match u with
      | none => s1
      | some x =>
        match (inspReqs s q).find? fun r => r.frame == x with
        | none => s1
        | some r =>
          if scansOn e.val r then
            count cSigError e.val 1
              (modInspReq q x (fun r => { r with scan := .done (f7Status 5 (frameOf s x).data) }) s1)
          else s1) s)

/-- SIG_PATH (R274): a bad word or a hung scan of the request of frame `u`. -/
def execSigPath (q : Quad) (u : Nat) (s : State) : Host.Outcome State Fault Refusal :=
  if (inspReqs s q.val).any fun r => r.frame == u then
    .next (detect 29 7 q.val (fun _ s => dropFrame u 0x1D {} (endInspection q.val u s)) s)
  else .next s

end Sys2Proof.Machine
end

