-- ==== Sys2Proof/Machine/Observe.lean ====
section
/-!
DEFINITION. Freezes, rollovers, counter reads, telemetry profiles, exporters and observer grants (R372 to R396), and background
work (R29, R32).
-/

namespace Sys2Proof.Machine

/-! ### Which die keeps a counter (R61, R372) -/

/-- The die that keeps a counter of a scope kind: those of the host interfaces are on Q0. -/
def dieOfScope (kind scope : Nat) : Nat :=
  match kind with
  | 0 | 1 => scope / 256
  | 2 => scope / 16
  | 3 => scope / 512
  | 4 | 12 => scope
  | 5 => scope / 5120
  | 6 => scope / 131072
  | 7 | 13 => scope / 16
  | 8 => (dirEnds scope).1
  | 9 | 14 => scope / 4
  | 10 => scope / 16384
  | 11 => scope / 1048576
  | _ => 0

/-- The die of a counter by its key. -/
def dieOfKey (k : Nat) : Nat := dieOfScope (k / 65536 / 268435456 % 32) (k / 65536 % 268435456)

/-- The die of a histogram value by its key. -/
def dieOfHist (k : Nat) : Nat := k / 64 / 5120

/-! ### Freezes (R374 to R376) -/

/-- A number after `n`, from 1 to 2^32 − 1. -/
def nextSeq32 (n : Nat) : Nat := if n == 4294967295 then 1 else n + 1

/-- The position in a list of sweeps of the first that die `q` has not fired. -/
def unfired (l : List Sweep) (q : Nat) : Option Nat := l.findIdx? fun w => (tabFind w.fired q).isNone

/-- How many freezes or rollovers are taken and not yet published. -/
def unpublished (l : List Sweep) : Nat := (l.filter fun w => !w.missed).length

/-- Die `q` fires a sweep, adding the values it latches; a missed one is dropped once every die has fired it. -/
def fireSweep (now q i : Nat) (vals : Store Nat) (inex : Store Bool) (l : List Sweep) : List Sweep :=
  match l[i]? with
  | none => l
  | some w =>
    let w1 := if w.missed then { w with fired := tabPut q now w.fired }
      else { w with fired := tabPut q now w.fired
                    snap := { w.snap with values := vals.foldl (fun m e => tabPut e.1 e.2 m) w.snap.values
                                          inexact := inex.foldl (fun m e => tabPut e.1 e.2 m) w.snap.inexact } }
    if w1.missed && w1.fired.length == 4 then dropAt l i else setAt l i w1

/-- A new sweep at the end of a list; with two unpublished it is a missed one. -/
def newSweep (l : List Sweep) (seq : Nat) (t : Stamp) (stepped : Bool) : List Sweep × Bool :=
  if unpublished l ≥ 2 then (l ++ [{ snap := { seq := 0 }, missed := true }], false)
  else (l ++ [{ snap := { seq, at_ := t, stepped } }], true)

/-- An entry's skip counter after a missed action. -/
def skipEntry (d i : Nat) (s : State) : State :=
  let e := entryOf s d i
  setEntry d i { e with skip := satAdd 32 e.skip 1 } s

/-- The counters of die `q`, its energy counters among them. -/
def dieCounters (s : State) (q : Nat) : Store Nat :=
  (tabKeep (fun k => dieOfKey k == q) s.pow.energy).foldl (fun m e => tabPut e.1 e.2 m) (tabKeep (fun k => dieOfKey k == q) s.tel.counters)

/-- Die `q` takes a freeze of the instant `t`. -/
def takeFreeze (q d i : Nat) (t : Stamp) (stepped : Bool) (s : State) : State :=
  if s.tel.latchedInTick.contains q then s
  else
    let s0 := modTel (fun x => { x with latchedInTick := q :: x.latchedInTick }) s
    match unfired s.tel.freezes q with
    | some n =>
      let s1 := modTel (fun x => { x with freezes := fireSweep s.now q n (dieCounters s q) [] x.freezes }) s0
      if ((s.tel.freezes[n]?).map Sweep.missed) == some true then count cTelFreezeMissed q 1 s1 else s1
    | none =>
      let seq := nextSeq32 s.tel.freezeSeq
      let (l, taken) := newSweep s.tel.freezes seq t stepped
      let s1 := modTel (fun x => { x with freezes := fireSweep s.now q (l.length - 1) (dieCounters s q) [] l
                                          freezeSeq := if taken then seq else x.freezeSeq }) s0
      if taken then s1
      else kiln 0x0C01 [(4, s.tel.freezeSeq), (2, i)] (skipEntry d i (count cTelFreezeMissed q 1 s1))

/-- COUNTER_FREEZE (R374): an entry fires on die `q`; several of one tick are one freeze. -/
def execCounterFreeze (q : Quad) (d : Domain') (i : Fin 512) (s : State) : Host.Outcome State Fault Refusal :=
  if firesNext s q.val d.val i.val 1 then
    let (t, stepped) := firingInstant s q.val d.val i.val
    .next (takeFreeze q.val d.val i.val t stepped (fireEntry q.val d.val i.val s))
  else .next s

/-- Counts a sweep of die `q` that is past its period of 1 ms, once (R32, R374). -/
def countLateSweep (q n : Nat) (s : State) : State :=
  match s.tel.freezes[n]? with
  | none => s
  | some w =>
    if w.late.contains q || s.now ≤ tabGet 0 w.fired q + tMs then s
    else count cTelSweepOverruns q 1 (modTel (fun x => { x with freezes := setAt x.freezes n { w with late := q :: w.late } }) s)

/-- The first freeze whose sweep runs on die `q`. -/
def runningSweep (s : State) (q : Nat) : Option Nat :=
  s.tel.freezes.findIdx? fun w => !w.missed && (tabFind w.fired q).isSome && !w.done.contains q

/-- FREEZE_SWEEP_DONE (R374): die `q` finishes writing its frozen bank. -/
def execFreezeSweepDone (q : Quad) (s : State) : Host.Outcome State Fault Refusal :=
  match runningSweep s q.val with
  | none => .next s
  | some n =>
    let s1 := countLateSweep q.val n s
    match s1.tel.freezes[n]? with
    | none => .next s1
    | some w =>
      let s2 := modTel (fun x => { x with freezes := setAt x.freezes n { w with done := q.val :: w.done } }) s1
      let due := tabGet 0 w.fired q.val + tMs
      .next (if s.now > due then kiln 0x0C03 [(1, q.val), (4, w.snap.seq), (4, (s.now - due) / tUs)] s2 else s2)

/-- FREEZE_PUBLISH (R375): the sweeps of all dies are complete; the freeze is published everywhere at once. -/
def execFreezePublish (s : State) : Host.Outcome State Fault Refusal :=
  match s.tel.freezes.find? (fun w => !w.missed) with
  | none => .next s
  | some w =>
    if w.done.length < 4 then .next s
    else .next (modTel (fun x =>
      { x with frozen := some w.snap, previous := x.frozen, freezes := x.freezes.filter fun y => y.missed || y.snap.seq != w.snap.seq }) s)

/-! ### Histogram rollovers (R383) -/

/-- Die `q` rolls its histograms over: the closed values are latched and the live ones restart. -/
def rollDie (q n : Nat) (l : List Sweep) (s : State) : State :=
  modTel (fun x =>
    let mine := fun k => dieOfHist k == q
    { x with rollovers := fireSweep s.now q n (tabKeep mine x.hist) (tabKeep mine x.histInexact) l
             hist := tabKeep (fun k => !mine k) x.hist
             histInexact := tabKeep (fun k => !mine k) x.histInexact }) s

/-- Die `q` takes a rollover at `t`; one that would leave two intervals unpublished is missed. -/
def takeRollover (q d i : Nat) (t : Stamp) (s : State) : State :=
  match unfired s.tel.rollovers q with
  | some n =>
    if ((s.tel.rollovers[n]?).map Sweep.missed) == some true then
      count cTelRolloverMissed q 1 (modTel (fun x => { x with rollovers := fireSweep s.now q n [] [] x.rollovers }) s)
    else rollDie q n s.tel.rollovers s
  | none =>
    let l := s.tel.rollovers
    if unpublished l ≥ 1 then
      kiln 0x0C02 [(2, i)] (skipEntry d i (count cTelRolloverMissed q 1 (modTel (fun x =>
        { x with rollovers := fireSweep s.now q l.length [] [] (l ++ [{ snap := { seq := 0 }, missed := true }]) }) s)))
    else
      let seq := nextSeq32 s.tel.rolloverSeq
      rollDie q l.length (l ++ [{ snap := { seq, at_ := t } }]) (modTel (fun x => { x with rolloverSeq := seq }) s)

/-- HISTOGRAM_ROLLOVER (R383): an entry fires on die `q`. -/
def execHistogramRollover (q : Quad) (d : Domain') (i : Fin 512) (s : State) : Host.Outcome State Fault Refusal :=
  if firesNext s q.val d.val i.val 2 then
    let (t, _) := firingInstant s q.val d.val i.val
    .next (takeRollover q.val d.val i.val t (fireEntry q.val d.val i.val s))
  else .next s

/-- ROLLOVER_PUBLISH (R383): the closing sweeps are complete; the closed interval is published on all dies at once. -/
def execRolloverPublish (s : State) : Host.Outcome State Fault Refusal :=
  match s.tel.rollovers.find? (fun w => !w.missed) with
  | none => .next s
  | some w =>
    if w.fired.length < 4 then .next s
    else .next (modTel (fun x =>
      { x with closed := some w.snap, rollovers := x.rollovers.filter fun y => y.missed || y.snap.seq != w.snap.seq }) s)

/-! ### COUNTER_READ (R377 to R380, R392) -/

/-- The values of a scope of this kind in a group, if the group has the kind (R378). -/
def scopeSize (group kind : Nat) : Option Nat :=
  match group, kind with
  | 1, 0 => some 49
  | 2, 1 => some 59
  | 3, 2 => some 32
  | 4, 2 => some 16
  | 5, 2 => some 6 | 5, 3 => some 16
  | 6, 4 => some 7
  | 7, 2 => some 11 | 7, 3 => some 11
  | 8, 2 => some 17 | 8, 4 => some 2
  | 9, 4 => some 6
  | 10, 9 => some 5 | 10, 4 => some 20 | 10, 2 => some 1 | 10, 13 => some 4096
  | 11, 5 => some 8 | 11, 1 => some 8 | 11, 4 => some 11 | 11, 12 => some 5
  | 12, 4 => some 261 | 12, 1 => some 6 | 12, 5 => some 1 | 12, 7 => some 3 | 12, 14 => some 2
  | 13, 8 => some 4
  | 14, 6 => some 7
  | 15, 5 => some 3 | 15, 1 => some 3 | 15, 10 => some 2
  | 16, 11 => some 2
  | 17, 5 => some 36
  | 18, 4 => some 13
  | 19, 15 => some 6 | 19, 16 => some 4 | 19, 17 => some 3
  | _, _ => none

/-- Whether a scope index is within its kind's range. -/
def scopeExists (kind i : Nat) : Bool :=
  match kind with
  | 0 | 1 => i < 1024
  | 2 => i < 64
  | 3 => i < 2048 && i % 32 < 24
  | 4 | 12 => i < 4
  | 5 => i < 20480
  | 6 => i < 524288
  | 7 => i < 64
  | 8 => i < 12
  | 9 | 14 => i < 16
  | 10 => i < 65536
  | 11 => i < 4194304
  | 13 | 15 => i < 64
  | 16 => i < 32
  | 17 => i < 2
  | _ => false

/-- The check of a scope index. -/
def scopeCheck (s : State) (kind i : Nat) : Option Status :=
  if !scopeExists kind i then some .range else orElse (kind != 1 || configured s i) .state

/-- The grant of an observer session. -/
def grantOf (s : State) (i : Nat) : Bytes := tabGet [] s.tel.grants i

/-- Whether an observer's port mask has port `p`. -/
def grantsPort (g : Bytes) (p : Nat) : Bool := bit (u8 g (8 + p / 8)) (p % 8)

/-- Whether session `i` may read a scope (R392); sessions of other roles read everything. -/
def observerMay (s : State) (i kind scope : Nat) : Bool :=
  roleOf s i != 3 ||
    let g := grantOf s i
    bit (u8 g 1) 0 && match kind with
      | 1 => scope < 1024 && grantsPort g scope
      | 5 => scope < 20480 && grantsPort g (scope / 20)
      | 0 => match portOfLane s scope with | some p => grantsPort g p | none => false
      | _ => bit (u8 g 1) 1

/-- The fields of COUNTER_READ. -/
def counterReadFields : List Fld :=
  [ fRange 0 1 1 19 .badarg, fDep 1 1 (fun _ p => orElse (u8 p 1 ≤ (if u8 p 0 == 17 then 1 else 2)) .badarg),
    fDep 2 1 (fun _ p => orElse (scopeSize (u8 p 0) (u8 p 2)).isSome .badarg), fRsv 3 1,
    fDep 4 4 (fun s p => scopeCheck s (u8 p 2) (u32 p 4)), fAny 8 2,
    fDep 10 2 (fun _ p => if u16 p 10 == 0 then some .badarg
      else orElse (u16 p 10 ≤ 500 && u16 p 8 + u16 p 10 ≤ (scopeSize (u8 p 0) (u8 p 2)).getD 0) .range),
    fRsv 12 4 ]

/-- The snapshot a read of a bank returns: `none` when there is none yet. LIVE is a snapshot of now. -/
def readBank (s : State) (group bank : Nat) : Option Snapshot :=
  let now := datapathStamp s 0
  if group == 17 then
    if bank == 0 then some { seq := (s.tel.closed.map Snapshot.seq).getD 0, at_ := { now with holdover := false }, values := s.tel.hist
                             inexact := s.tel.histInexact }
    else s.tel.closed
  else
    match bank with
    | 0 => some { seq := (s.tel.frozen.map Snapshot.seq).getD 0, at_ := { now with holdover := false }, values := s.tel.counters }
    | 1 => s.tel.frozen
    | _ => s.tel.previous

/-- The key of value `i` of a scope in its bank. -/
def valueKey (group kind scope i : Nat) : Nat := if group == 17 then 64 * scope + i else counterKey group kind scope i

/-- Whether a value reads zero whatever its bank holds: a slot without COUNT_EN (R186). -/
def readsZero (s : State) (group kind scope i : Nat) : Bool :=
  group == 5 && kind == 3 && !descCounts (descOf (matStage s (scope / 32) (scope % 32)) (i / 2))

/-- The reply of a counter read (R379): `vals` names the keys of its values. -/
def counterReply (s : State) (group bank : Nat) (snap : Snapshot) (keys : List (Option Nat)) : Bytes :=
  let inex := fun (k : Nat) => if group == 17 then tabGet false snap.inexact k
    else tabGet false s.tel.inexact k || s.tel.inexactQuads.contains (dieOfKey k)
  let mask := (keys.mapIdx fun i k => match k with | some k => if inex k then 2 ^ i else 0 | none => 0).foldl (· + ·) 0
  image 32 [(0, 1, group), (1, 1, bank), (2, 1, b2n snap.stepped + 2 * b2n snap.at_.holdover), (4, 4, snap.seq), (8, 8, snap.at_.sec),
            (16, 4, snap.at_.ns), (20, 2, keys.length)] ++ toLe 64 mask ++
    keys.flatMap fun k => match k with | some k => toLe 8 (tabGet 0 snap.values k) | none => toLe 8 0

/-- COUNTER_READ as the opcode tables of Icoux give it (R514 to R520), with the checks of its fields. -/
def opCounterRead : OpDef := { requestOp 0x0C01 16 counterReadFields with
    role := .any, grant := fun s i p => observerMay s i (u8 p 2) (u32 p 4) }

/-- COUNTER_READ. -/
def execCounterRead (c : Cmd) (s : State) : Host.Outcome State Fault Refusal :=
  .next (icoux opCounterRead c (fun _ p s =>
    let g := u8 p 0
    let k := u8 p 2
    match readBank s g (u8 p 1) with
    | none => badAll .state
    | some snap =>
      okReply s (counterReply s g (u8 p 1) snap ((List.range (u16 p 10)).map fun i =>
        let n := u16 p 8 + i
        if readsZero s g k (u32 p 4) n then none else some (valueKey g k (u32 p 4) n)))) s)

/-! ### TELEMETRY_PROFILE (R384, R386) -/

/-- The bytes of node data a profile writes. -/
def nodeDataLen (o : Bytes) : Nat :=
  ((List.range 12).map fun i => if !rfcBit o i then 0 else if inRange i 8 10 then 8 else 4).foldl (· + ·) 0

/-- A length field of a profile. -/
def fLengthField (off : Nat) : Fld := fVal off 2 fun v =>
  if v ≥ 2048 then some .badarg else orElse (!bit v 10 || bit v 7) .range

/-- The fields of TELEMETRY_PROFILE. -/
def telProfileFields (read : Bool) : List Fld :=
  [ fQuadMask 0 read, (fRange 1 1 1 255 .badarg).asKey, fRange 2 1 0 2 .badarg, fBits 3 1 1,
    fDep 4 3 (fun _ p => if (List.range 24).any (fun i => rfcBit p i && !(i ≤ 6 || inRange i 8 11)) then some .notsup
      else orElse (u8 p 2 == 0 || rfcBit p 5 || rfcBit p 10) .badarg),
    fLiveDomain 7, fRange 8 2 272 287 .badarg, fRange 10 2 0 303 .range,
    fDep 12 8 (fun _ p => orElse (u8 p 19 == 0) .badarg),
    fDep 20 8 (fun _ p => orElse (!(rfcBit p 5 && bit (u64 p 20) 31) && !(rfcBit p 10 && bit (u64 p 20) 63)) .badarg),
    fLengthField 28, fLengthField 30, fLengthField 32, fRange 34 1 0 24 .range,
    fVal 35 1 (fun v => orElse (v ≤ 128 && v % 8 == 0) .badarg), fRsv 36 4 ]

/-- Whether an enabled length field in units of 8 bytes does not suit the node data. -/
def unitBroken (o : Bytes) : Bool := (lengthFields o).any fun f => f.2.2 == 8 && nodeDataLen o % 8 != 0

/-- TELEMETRY_PROFILE_WRITE as the opcode tables of Icoux give it (R514 to R520), with the checks of its fields. -/
def opTelemetryProfileWrite : OpDef := writeOp 0x0C02 40 (telProfileFields false)

/-- TELEMETRY_PROFILE write: postcards of the profile count anew (R389). -/
def execTelemetryProfileWrite (c : Cmd) (s : State) : Host.Outcome State Fault Refusal :=
  .next (icoux opTelemetryProfileWrite c (fun _ b s =>
    let o := putField b 0 1 0
    let n := u8 b 1
    if unitBroken b then badAll .badarg
    else okWrite (forMask 4 (u8 b 0) (fun q s => modTel (fun t =>
      { t with profiles := tabSet (telProfileDefault n) (256 * q + n) o t.profiles
               postcardCount := tabDel (256 * q + n) t.postcardCount }) s) s)) s)

/-- TELEMETRY_PROFILE_READ as the opcode tables of Icoux give it (R514 to R520), with the checks of its fields. -/
def opTelemetryProfileRead : OpDef := readOp 0x0C03 40 (telProfileFields true)

/-- TELEMETRY_PROFILE read. -/
def execTelemetryProfileRead (c : Cmd) (s : State) : Host.Outcome State Fault Refusal :=
  .next (icoux opTelemetryProfileRead c (fun _ b s =>
    okReply s (putField (telemetryProfile s (u8 b 0).log2 (u8 b 1)) 0 1 (u8 b 0))) s)

/-! ### EXPORTER (R390, R391) -/

def exporterDefault (e : Nat) : Bytes := image 32 [(0, 1, e), (10, 2, 1518), (12, 4, 1000)]

/-- The EXPORTER object of exporter `e`. -/
def exporterObj (s : State) (e : Nat) : Bytes := let o := (exporterOf s e).obj; if o.isEmpty then exporterDefault e else o

/-- The header fields of EXPORTER. -/
def exporterFields : List Fld :=
  [ (fRange 0 1 0 3 .range).asKey, fBits 1 1 15,
    fDep 2 2 (fun s p => if bit (u8 p 1) 3 then none else portCheck s (u16 p 2)), fRange 4 1 0 19 .range,
    fDep 5 1 (fun _ p => orElse (!bit (u8 p 1) 3 || u8 p 5 ≤ 63) .range),
    fDep 6 1 (fun _ p => orElse (u8 p 6 < 16 && !(u8 p 6 == 0 && bit (u8 p 1) 0)) .badarg),
    fDep 7 1 (fun _ p => orElse (!bit (u8 p 1) 0 || inRange (u8 p 7) 14 128) .range), fAny 8 1, fAny 9 1,
    fRange 10 2 512 9216 .range, fRange 12 4 100 1000000 .range, fLiveDomain 16, fRsv 17 3, fAny 20 4, fAny 24 4, fRsv 28 4 ]

/-- Icoux's firing entry of an exporter's epochs (assumption 54). -/
def exporterEntry (e : Nat) : Nat := 460 + e

/-- EXPORTER_WRITE as the opcode tables of Icoux give it (R514 to R520), with the checks of its fields. -/
def opExporterWrite : OpDef := { writeOp 0x0C04 32 exporterFields with len := fun p => 32 ≤ p.length && p.length == 32 + u8 p 7 }

/-- EXPORTER write: its epochs are placed, and its postcard limit starts full. -/
def execExporterWrite (c : Cmd) (s : State) : Host.Outcome State Fault Refusal :=
  .next (icoux opExporterWrite c (fun _ b s =>
    let e := u8 b 0
    let s1 := setExporter e { exporterOf s e with obj := b } s
    let period := if bit (u8 b 1) 0 then u32 b 12 * 1000 else 0
    okWrite (writeLimit .postcard e e (u32 b 20) (placeOwn (u8 b 16) (exporterEntry e) 0x12 e 0 period s1))) s)

/-- EXPORTER_READ as the opcode tables of Icoux give it (R514 to R520), with the checks of its fields. -/
def opExporterRead : OpDef := readOp 0x0C05 32 exporterFields

/-- EXPORTER read: the request is the header, the reply the header and the template. -/
def execExporterRead (c : Cmd) (s : State) : Host.Outcome State Fault Refusal :=
  .next (icoux opExporterRead c (fun _ b s => okReply s (exporterObj s (u8 b 0))) s)

/-- Sends export frames of `e` until nothing waits. -/
def flushExporter (e : Nat) : Nat → State → State
  | 0, s => s
  | n + 1, s => if (exporterOf s e).waiting.isEmpty then s else flushExporter e n (sendExport e s)

/-- TELEMETRY_EPOCH (R391): an entry fires on die `q`; the exporter of that number sends what it holds. -/
def execTelemetryEpoch (q : Quad) (d : Domain') (i : Fin 512) (s : State) : Host.Outcome State Fault Refusal :=
  let e := entryTarget (entryOf s d.val i.val)
  if firesNext s q.val d.val i.val 0x12 then
    let s1 := fireEntry q.val d.val i.val s
    .next (if q.val == e && exporterOn s e && !(exporterOf s e).down then flushExporter e (exporterOf s e).waiting.length s1 else s1)
  else .next s

/-! ### OBSERVER_GRANT (R392) -/

/-- The fields of OBSERVER_GRANT. -/
def grantFields : List Fld :=
  [ (fDep 0 1 fun s p => if u8 p 0 > 31 then some .range
      else orElse ((slotOf s (u8 p 0)).state == .opened && roleOf s (u8 p 0) == 3) .state).asKey,
    fBits 1 1 3, fRsv 2 6, fAny 8 128 ]

def grantDefault (i : Nat) : Bytes := image 136 [(0, 1, i)]

/-- OBSERVER_GRANT_WRITE as the opcode tables of Icoux give it (R514 to R520), with the checks of its fields. -/
def opObserverGrantWrite : OpDef := { writeOp 0x0C06 136 grantFields with role := .admin }

/-- OBSERVER_GRANT write. -/
def execObserverGrantWrite (c : Cmd) (s : State) : Host.Outcome State Fault Refusal :=
  .next (icoux opObserverGrantWrite c (fun _ b s =>
    okWrite (kiln 0x0C07 [(1, u8 b 0), (1, u8 b 1)] (modTel (fun t => { t with grants := tabPut (u8 b 0) b t.grants }) s))) s)

/-- OBSERVER_GRANT_READ as the opcode tables of Icoux give it (R514 to R520), with the checks of its fields. -/
def opObserverGrantRead : OpDef := { readOp 0x0C07 136 grantFields with role := .admin }

/-- OBSERVER_GRANT read. -/
def execObserverGrantRead (c : Cmd) (s : State) : Host.Outcome State Fault Refusal :=
  .next (icoux opObserverGrantRead c (fun _ b s =>
    okReply s ((tabFind s.tel.grants (u8 b 0)).getD (grantDefault (u8 b 0)))) s)

/-! ### Faults (R395) -/

/-- TEL_COUNTER (R395): the word of a counter, or of a histogram value, of quadrant `q` is lost: what it counted of late is lost
and it is inexact from then on. The area and word offset of the record are not stated (assumption 56). -/
def execTelCounter (q : Quad) (hist : Bool) (key : Nat) (s : State) : Host.Outcome State Fault Refusal :=
  if (if hist then dieOfHist key else dieOfKey key) != q.val then .next s
  else
    .next (detect 51 7 q.val (fun inj s =>
      let (n, s1) := takeFree s
      let (a, s2) := takeFree s1
      let lose := fun (v : Nat) => v - n % (v + 1)
      let s3 := modTel (fun t =>
        if hist then { t with hist := tabMod 0 key lose t.hist, histInexact := tabPut key true t.histInexact }
        else { t with counters := tabMod 0 key lose t.counters, inexact := tabPut key true t.inexact }) s2
      kilnInj inj 0x0C04 [(1, q.val), (1, a), (4, a / 256)] (count cTelInexact q.val 1 s3)) s)

/-- TEL_EXPORT (R395): `n` records of exporter `e` are lost; it is reset, and profiles and templates are reloaded. -/
def execTelExport (e : Fin 4) (n : Nat) (s : State) : Host.Outcome State Fault Refusal :=
  .next (detect 52 16 e.val (fun inj s =>
    let v := exporterOf s e.val
    let k := min n v.waiting.length
    kilnInj inj 0x0C06 [(1, e.val), (1, 52)]
      (loseRecords e.val k (setExporter e.val { v with waiting := v.waiting.drop k, down := true } s))) s)

/-- TEL_EXPORT_RELOAD (R395): profiles and templates are whole again. -/
def execTelExportReload (e : Fin 4) (s : State) : Host.Outcome State Fault Refusal :=
  .next (setExporter e.val { exporterOf s e.val with down := false } s)

/-! ### Background work (R29 to R32, R93, R273, R300) -/

/-- SCRUB_EPOCH (R300): an entry fires on die `q` and a pass of its class starts; one that still runs is late. -/
def execScrubEpoch (q : Quad) (d : Domain') (i : Fin 512) (s : State) : Host.Outcome State Fault Refusal :=
  let c := entryTarget (entryOf s d.val i.val)
  if firesNext s q.val d.val i.val 0x11 then
    .next (modQuad q.val (fun b =>
      { b with scrubbing := tabMod 0 c (fun n => if n == 0 then 1 else max n 2) b.scrubbing }) (fireEntry q.val d.val i.val s))
  else .next s

/-- BACKGROUND_PERIOD_END (R32): a scrub pass of class `task` (0 to 3), the freeze sweep (4) or the control cycle (5) has reached
the nominal end of its period unfinished on die `q`: its overrun is counted. -/
def execBackgroundPeriodEnd (q : Quad) (task : Fin 6) (s : State) : Host.Outcome State Fault Refusal :=
  match task.val with
  | 4 => match runningSweep s q.val with
    | some n => .next (countLateSweep q.val n s)
    | none => .next s
  | 5 => .next (modPow (fun p => { p with overruns := satAdd 32 p.overruns 1 }) s)
  | c =>
    if tabGet 0 (bufQuad s q.val).scrubbing c == 2 then .next (countScrubOverrun q.val c 3 s) else .next s

/-- BACKGROUND_SLOT_GRANT (R29, R30, R273): an at-risk task is given its slot. For the compare scrub of engine `e`, the slot may find
a word at `offset` that differs from its shadow, which is rewritten, or complete a clean compare. -/
def execBackgroundSlotGrant (e : Option Engine) (offset : Option Nat) (complete : Bool) (s : State) :
    Host.Outcome State Fault Refusal :=
  match e with
  | none => .next s
  | some e =>
    let s1 := match offset with
      | some o => sigMismatch e.val o s
      | none => s
    let t := datapathStamp s 0
    .next (if complete && offset.isNone then setEngine e.val { engineOf s1 e.val with cleanSec := t.sec, cleanNs := t.ns } s1 else s1)

end Sys2Proof.Machine
end

