-- ==== Sys2Proof/Machine/Power.lean ====
section
/-!
DEFINITION. Power capping, thermal control, core voltage, ageing and energy (chapter 14).
-/

namespace Sys2Proof.Machine

/-! ### Partitions and what a cycle sees (R399, R400, R416) -/

/-- The quadrants of partition `k`. -/
def quadsOf (s : State) (k : Nat) : List Nat := (List.range 4).filter fun q => partitionOf s q == k

/-- The partitions that are not empty. -/
def livePartitions (s : State) : List Nat := (List.range 4).filter fun k => !(quadsOf s k).isEmpty

/-- The n of partition `k`: the largest of its quadrants, which differ only until the next cycle after a merge (R427). -/
def partitionN (s : State) (k : Nat) : Nat := ((quadsOf s k).map (tabGet 0 s.pow.bubble)).foldl max 0

/-- `s` with the n of partition `k` set. -/
def setPartitionN (k n : Nat) (s : State) : State :=
  modPow (fun t => { t with bubble := (quadsOf s k).foldl (fun b q => tabSet 0 q n b) t.bubble }) s

/-- The power a partition would draw above its static estimate without bubbles, in mW (R399). -/
def dynamicPower (s : State) (m : PowerIn) (k : Nat) : Nat :=
  let sum := fun (l : List Nat) => ((quadsOf s k).map fun q => l.getD q 0).foldl (· + ·) 0
  (sum m.quadCompute - sum m.quadStatic) * 256 / (256 - partitionN s k)

/-- The sensor of a number: 20 of each core die, 4 of each lane die, one of each stack (R415). -/
def sensorOf (s : State) (n : Nat) : Sensor := tabGet {} s.pow.sensors n

/-- The first sensor of a die and how many it has: core dies 0 to 3, lane dies 4 to 11, stacks 12 to 15, in the order of R426. -/
def dieSensors (die : Nat) : Nat × Nat :=
  if die < 4 then (20 * die, 20) else if die < 12 then (80 + 4 * (die - 4), 4) else (112 + (die - 12), 1)

/-- The die of a sensor. -/
def sensorDie (n : Nat) : Nat := if n < 80 then n / 20 else if n < 112 then 4 + (n - 80) / 4 else n - 100

/-- The hottest sensor of a die that is not excluded, in 1/16 °C. -/
def dieTemp (s : State) (die : Nat) : Option Int :=
  let (a, n) := dieSensors die
  (((List.range n).map fun i => sensorOf s (a + i)).filter fun x => !x.excluded).foldl (fun m x =>
    match m with
    | none => some x.value
    | some v => some (max v x.value)) none

/-- 1/16 °C in a degree Celsius. -/
abbrev degree : Int := 16

/-- The dies that count towards T: core and lane dies, and stacks above 95 °C (R416). -/
def thermalDies (s : State) : List (Nat × Int) :=
  (List.range 16).filterMap fun d =>
    match dieTemp s d with
    | some v => if d < 12 || v > 95 * degree then some (d, v) else none
    | none => none

/-- T and its die: the hottest, the lowest die of equals. -/
def hottest (s : State) : Option (Nat × Int) :=
  (thermalDies s).foldl (fun m x =>
    match m with
    | none => some x
    | some y => if x.2 > y.2 then some x else some y) none

def thermalLimit (s : State) : Int := (u8 (powerCap s) 16 : Int) * degree

/-- The quadrant of a die. -/
def quadOfDie (d : Nat) : Nat := if d < 4 then d else if d < 12 then (d - 4) / 2 else d - 12

/-- The quadrants that hold a die above the thermal limit. -/
def hotQuads (s : State) : List Nat :=
  ((thermalDies s).filter fun x => x.2 > thermalLimit s).map fun x => quadOfDie x.1

/-- The thermal cap in mW, when there is one (R416). -/
def thermalCap (s : State) (p : Nat) : Option Int :=
  match hottest s with
  | none => none
  | some (_, t) => if t > thermalLimit s then some ((p : Int) - 10000 * (t - thermalLimit s) / degree) else none

def capMilliwatts (s : State) : Nat := u32 (powerCap s) 0 * 100

/-- capE in mW, and whether the thermal cap is its binding term (R412, R416). -/
def capEffective (s : State) (p : Nat) : Option Int × Bool :=
  let cap := capMilliwatts s
  match thermalCap s p with
  | none => (if cap == 0 then none else some (cap : Int), false)
  | some t => if cap == 0 || t < cap then (some t, true) else (some (cap : Int), false)

/-! ### Lanes under the link actuator (R406, R412) -/

/-- Power of a mode at 212.5 Gb/s, in mW (R69). -/
def modePower (m : Nat) : Nat := match m with | 0 => 700 | 1 => 450 | _ => 160

/-- A lane rate in 1/32 Gb/s (R68). -/
def laneRate32 (code : Nat) : Nat :=
  match code with
  | 1 => 330 | 2 => 825 | 3 => 1700 | 4 => 3400 | 5 => 6800 | _ => 0

/-- The mode a link level asks of an eligible lane of configured mode `m`. -/
def levelMode (level m : Nat) : Nat :=
  if m == 0 && level ≥ 1 then 1 else if m == 1 && level ≥ 2 then 2 else m

def laneAge (s : State) (l : Nat) : LaneAge := tabGet {} s.pow.ages l

/-- `s` with the ageing record of lane `l` set. -/
def setLaneAge (l : Nat) (v : LaneAge) (s : State) : State := modPow (fun t => { t with ages := tabSet {} l v t.ages }) s

/-- Whether a lane has not been made ineligible. -/
def laneEligible (s : State) (l : Nat) : Bool := let a := laneAge s l; a.barredUntil ≤ s.now && !a.below

/-- The lanes of ACTIVE ports. -/
def activeLanes (s : State) : List Nat := ((configuredPorts s).filter (portActive s)).flatMap (lanesOf s)

/-- The estimated saving of lane `l` between two link levels, in mW. -/
def laneSaving (s : State) (l a b : Nat) : Nat :=
  let m := laneMode s l
  let rate := match portOfLane s l with | some p => laneRate32 (speedRate (portSpeed s p)) | none => 0
  (modePower (levelMode a m) - modePower (levelMode b m)) * rate / 6800

/-- The eligible ACTIVE lanes that level `b` would step further down than level `a`. -/
def steppingLanes (s : State) (a b : Nat) : List Nat :=
  (activeLanes s).filter fun l => laneEligible s l && levelMode a (laneMode s l) != levelMode b (laneMode s l)

/-- The estimated saving of raising the link level to `b`. -/
def linkSaving (s : State) (b : Nat) : Nat :=
  ((steppingLanes s s.pow.linkLevel b).map fun l => laneSaving s l s.pow.linkLevel b).foldl (· + ·) 0

/-! ### The actuators (R412, R413) -/

/-- The partitions that COMPUTE steps apply to, and the largest n they may reach. -/
def computeReach (s : State) (thermal : Bool) : List Nat × Nat :=
  if thermal then ((livePartitions s).filter fun k => (quadsOf s k).any (hotQuads s).contains, 128)
  else (livePartitions s, u8 (powerCap s) 6)

def maxBubble (s : State) (thermal : Bool) : Nat := (computeReach s thermal).2

/-- The saving still available from a class, in mW. -/
def availableSaving (s : State) (m : PowerIn) (thermal : Bool) (cls : Nat) : Nat :=
  match cls with
  | 0 =>
    let (ks, top) := computeReach s thermal
    (ks.map fun k => (top - partitionN s k) * dynamicPower s m k / 256).foldl (· + ·) 0
  | 1 => (s.pow.spillLimit - u8 (powerCap s) 14 + 9) / 10 * m.memStep
  | _ => linkSaving s (max s.pow.linkLevel (u8 (powerCap s) 15))

/-- Whether a class is at its limit (R413). -/
def classAtLimit (s : State) (thermal : Bool) (cls : Nat) : Bool :=
  match cls with
  | 0 => let (ks, top) := computeReach s thermal; ks.all fun k => top ≤ partitionN s k
  | 1 => s.pow.spillLimit ≤ u8 (powerCap s) 14
  | _ => u8 (powerCap s) 15 ≤ s.pow.linkLevel || !(activeLanes s).any (laneEligible s)

/-- A COMPUTE step for a saving of `x`: n rises by ceil(256 × x / D) in every partition concerned. -/
def stepCompute (m : PowerIn) (thermal : Bool) (x : Nat) (s : State) : Nat × State :=
  let (ks, top) := computeReach s thermal
  let d := (ks.map (dynamicPower s m)).foldl (· + ·) 0
  if d == 0 then (0, s)
  else
    let rise := (256 * x + d - 1) / d
    let up := fun (n : Nat) => max n (min top (n + rise))
    ((ks.map fun k => (up (partitionN s k) - partitionN s k) * dynamicPower s m k / 256).foldl (· + ·) 0,
      ks.foldl (fun s k => setPartitionN k (up (partitionN s k)) s) s)

/-- A MEMORY step for a saving of `x`: the spill limit falls by whole steps of 10 points, to its floor at most. -/
def stepMemory (m : PowerIn) (x : Nat) (s : State) : Nat × State :=
  let floor := u8 (powerCap s) 14
  let left := (s.pow.spillLimit - floor + 9) / 10
  let n := if m.memStep == 0 then 0 else min left ((x + m.memStep - 1) / m.memStep)
  if n == 0 then (0, s) else (n * m.memStep, modPow (fun t => { t with spillLimit := max floor (t.spillLimit - 10 * n) }) s)

/-- A LINKS step for a saving of `x`: the least level that saves it. The saving of each lane is pending until it is made. -/
def stepLinks (x : Nat) (s : State) : Nat × State :=
  let top := u8 (powerCap s) 15
  let levels := (List.range 3).filter fun b => s.pow.linkLevel < b && b ≤ top
  match (levels.find? fun b => x ≤ linkSaving s b).orElse (fun _ => levels.getLast?) with
  | none => (0, s)
  | some b =>
    if linkSaving s b == 0 then (0, s)
    else (linkSaving s b, modPow (fun t =>
      { t with linkLevel := b
               steps := (steppingLanes s s.pow.linkLevel b).foldl (fun m l =>
                 tabPut l { saving := laneSaving s l s.pow.linkLevel b } m) t.steps }) s)

/-- The classes in reduce_order. -/
def reduceOrder (s : State) : List Nat := let o := u8 (powerCap s) 4; [bits o 0 2, bits o 2 2, bits o 4 2]

/-- One class's part in reducing the power by `x`. -/
def reduceClass (m : PowerIn) (thermal : Bool) (a : Int × State) (cls : Nat) : Int × State :=
  let (x, s) := a
  if x ≤ 0 then (x, s)
  else
    let want := min x.toNat (availableSaving s m thermal cls)
    if want == 0 then (x, s)
    else
      let (saved, s1) := match cls with
        | 0 => stepCompute m thermal want s
        | 1 => stepMemory m want s
        | _ => stepLinks want s
      (x - saved, s1)

/-- Whether a class is reduced. -/
def classReduced (s : State) (cls : Nat) : Bool :=
  match cls with
  | 0 => (List.range 4).any fun q => tabGet 0 s.pow.bubble q != 0
  | 1 => s.pow.spillLimit < 100
  | _ => s.pow.linkLevel != 0

/-- Releases one step of the reduced class that comes last in reduce_order. -/
def releaseStep (s : State) : State :=
  match (reduceOrder s).reverse.find? (classReduced s) with
  | some 0 => modPow (fun t =>
      { t with bubble := (List.range 4).foldl (fun b q => tabMod 0 q (· - u8 (powerCap s) 7) b) t.bubble }) s
  | some 1 => modPow (fun t => { t with spillLimit := min 100 (t.spillLimit + 10) }) s
  | some _ =>
    if (s.pow.linkReleased.map (· + 100 * tMs)).getD 0 ≤ s.now then
      modPow (fun t => { t with linkLevel := t.linkLevel - 1, linkReleased := some s.now }) s
    else s
  | none => s

/-! ### The control cycle (R412 to R416) -/

/-- The estimated saving of the steps that P does not yet reflect (R412): each step's share is the part of the last cycle in which
it was not in effect. -/
def pendingSaving (s : State) : Nat :=
  let len := s.now - s.pow.cycleAt
  (s.pow.steps.map fun e =>
    match e.2.doneAt with
    | none => e.2.saving
    | some t => if len == 0 || t ≤ s.pow.cycleAt then 0 else e.2.saving * (t - s.pow.cycleAt) / len).foldl (· + ·) 0

/-- The floor estimate: P less the saving still available (R414), in mW. -/
def floorEstimate (s : State) (m : PowerIn) (thermal : Bool) : Nat :=
  m.package - ([0, 1, 2].map (availableSaving s m thermal)).foldl (· + ·) 0

/-- The flag, the fault and the log entry when x stays above zero at the floor, and their end (R413, R414). -/
def watchFloor (x : Int) (m : PowerIn) (s : State) : State :=
  let p := s.pow
  let cap := u32 (powerCap s) 0
  if x ≤ 0 then
    let s1 := modPow (fun t => { t with floorRun := 0, belowFloor := false, unreachable := false }) s
    if p.unreachable then kiln 0x0D03 [(4, cap)] s1 else s1
  else if !p.atFloor then modPow (fun t => { t with floorRun := 0 }) s
  else
    let run := p.floorRun + 1
    let s1 := modPow (fun t => { t with floorRun := run }) s
    if p.unreachable || (run < 4 && !p.belowFloor) then s1
    else
      detect 53 0 0 (fun inj s => kilnInj inj 0x0D02 [(4, cap), (4, m.package / 100)]
        (modPow (fun t => { t with unreachable := true }) s)) s1

/-- Entering a thermally limited state is logged (R416). -/
def noteThermal (s : State) : State :=
  match hottest s with
  | some (d, t) =>
    let hot := decide (t > thermalLimit s)
    let s1 := modPow (fun p => { p with thermal := hot }) s
    if hot && !s.pow.thermal then kiln 0x0D04 [(1, d), (2, ofSigned 16 t)] s1 else s1
  | none => modPow (fun p => { p with thermal := false }) s

/-- The whole control cycle. While a clock-profile change runs every actuator holds (R427). -/
def controlCycle (m : PowerIn) (s : State) : State :=
  let s0 := (livePartitions s).foldl (fun s k => setPartitionN k (partitionN s k) s) (noteThermal s)
  let (cap, thermal) := capEffective s0 m.package
  let pending := pendingSaving s0
  let x : Int := match cap with | some c => (m.package : Int) - c - pending | none => 0
  let at_ := [0, 1, 2].all (classAtLimit s0 thermal)
  let s1 := watchFloor x m (modPow (fun t => { t with atFloor := at_, last := m, capEff := cap.map Int.toNat }) s0)
  let margin := u8 (powerCap s1) 13
  let s2 :=
    if s1.time.switch.phase != .idle then s1
    else if x > 0 then ((reduceOrder s1).foldl (reduceClass m thermal) (x, s1)).2
    else if pending == 0 && (match cap with | some c => decide ((m.package : Int) * 100 < c * (100 - margin)) | none => true) then
      releaseStep s1
    else s1
  modPow (fun t =>
    { t with cycleAt := s.now
             atFloor := [0, 1, 2].all (classAtLimit s2 thermal)
             steps := t.steps.filter fun e => match e.2.doneAt with | none => true | some d => d > s.pow.cycleAt }) s2

/-- Whether a POWER_CYCLE entry with this argument fires next on die `q`. -/
def powerFires (s : State) (q d i arg : Nat) : Bool :=
  firesNext s q d i 0x10 && entryArgument (entryOf s d i) == arg

/-- POWER_CYCLE (R401, R411, R412): an entry with argument 0 fires on die `q`. The first firing of an instant runs the cycle with
what was measured; the die takes its partition's fraction at its next frame. Without Icoux no cycle runs (R539). -/
def execPowerCycle (q : Quad) (d : Domain') (i : Fin 512) (m : PowerIn) (s : State) : Host.Outcome State Fault Refusal :=
  if powerFires s q.val d.val i.val 0 then
    let e := entryOf s d.val i.val
    let ns := instantOn e q.val
    let mark := 4 * q.val + entryTarget e
    let s1 := fireEntry q.val d.val i.val s
    let s2 := if icouxTakes s && (s1.pow.cycle != ns || s1.pow.cycleSeen.contains mark) then
        controlCycle m (modPow (fun t => { t with cycle := ns, cycleSeen := [] }) s1)
      else s1
    let s3 := modPow (fun t => { t with cycleSeen := mark :: t.cycleSeen }) s2
    .next (if entryTarget e == partitionOf s3 q.val then
        modPow (fun t => { t with armed := tabSet 0 q.val (partitionN s3 (partitionOf s3 q.val)) t.armed }) s3
      else s3)
  else .next s

/-- BUBBLE_FRAME_START (R401, R402): die `q` starts a frame of 256 clocks; its first n are bubbles. -/
def execBubbleFrameStart (q : Quad) (s : State) : Host.Outcome State Fault Refusal :=
  let n := tabGet 0 s.pow.armed q.val
  .next (modPow (fun t =>
    { t with inForce := tabSet 0 q.val n t.inForce
             bubbleAt := if n == 0 then t.bubbleAt
               else tabPut (partitionOf s q.val) (stampTotal (datapathStamp s q.val)) t.bubbleAt }) s)

/-! ### Lane equaliser steps (R406) -/

/-- The mode a lane shall use now: its level's while it is ACTIVE and eligible, else its own. -/
def wantedMode (s : State) (l : Nat) : Nat :=
  if laneState s l == 7 && laneEligible s l then levelMode s.pow.linkLevel (laneMode s l) else laneMode s l

/-- LANE_EQ_STEP (R406): at its adaptation boundary lane `l` changes to the mode the link level asks for. -/
def execLaneEqStep (l : Lane) (s : State) : Host.Outcome State Fault Refusal :=
  let m := wantedMode s l.val
  let v := laneOf s l.val
  if laneState s l.val != 7 || v.modeInUse == m then .next s
  else
    let down := decide (laneMode s l.val < m)
    let scan := if down && v.scan.status == .running then { v.scan with flags := v.scan.flags ||| 1 } else v.scan
    .next (modPow (fun t => { t with steps := tabUpd l.val (fun x => { x with doneAt := some s.now }) t.steps })
      (modLane l.val (fun v => { v with modeInUse := m, eqReduced := down, stepAt := if down then some s.now else none, scan }) s))

/-- LANE_STEP_CHECK (R406): 1 ms after a step the lane's eye is `height`; below the floor the lane returns to its own mode and is
ineligible for 24 h. -/
def execLaneStepCheck (l : Lane) (height : Nat) (s : State) : Host.Outcome State Fault Refusal :=
  let v := laneOf s l.val
  match v.stepAt with
  | none => .next s
  | some t =>
    let s1 := modLane l.val (fun v => { v with stepAt := none }) (reach (t + tMs) s)
    if height * 100 < v.reference.getD 0 * u8 (powerCap s) 17 then
      let s2 := modLane l.val (fun v => { v with modeInUse := laneMode s l.val, eqReduced := false }) s1
      let s3 := modPow (fun t => { t with steps := tabDel l.val t.steps }) s2
      .next (kiln 0x0D0C [(2, l.val), (2, height)]
        (setLaneAge l.val { laneAge s3 l.val with barredUntil := s3.now + 86400 * tSec } s3))
    else .next s1

/-! ### POWER_CAP, POWER_STATUS (R410, R411, R426) -/

/-- The fields of POWER_CAP. -/
def powerCapFields : List Fld :=
  [ fRange 0 4 0 20000 .range,
    fVal 4 1 (fun v => let l := [bits v 0 2, bits v 2 2, bits v 4 2]
      orElse (v < 64 && l.contains 0 && l.contains 1 && l.contains 2) .badarg),
    fAny 5 1, fRange 6 1 0 128 .range,
    fVal 7 1 (fun v => if v == 0 then some .badarg else orElse (v ≤ 128) .range),
    fVal 8 4 (fun v => if v == 0 then some .badarg else orElse (inRange v 100 100000) .range),
    fLiveDomain 12, fRange 13 1 0 20 .range,
    fVal 14 1 (fun v => if v == 0 then some .badarg else orElse (inRange v 5 100) .range),
    fRange 15 1 0 2 .range,
    fVal 16 1 (fun v => if v == 0 then some .badarg else orElse (inRange v 80 105) .range),
    fVal 17 1 (fun v => if v == 0 then some .badarg else orElse (inRange v 40 95) .range),
    fRsv 18 14 ]

/-- Icoux's firing entries of the control loops (assumption 54): cycles, gauge epochs and margin epochs. -/
def cycleEntry (k : Nat) : Nat := 464 + k
def gaugeEntry (k : Nat) : Nat := 468 + k
abbrev marginEntry : Nat := 472

/-- A minute in ns. -/
abbrev minuteNs : Nat := 60000000000

/-- Places the POWER_CYCLE entries that a POWER_CAP object asks for (R411, R421, R424). -/
def placePower (s : State) : State :=
  let d := u8 (powerCap s) 12
  let live := livePartitions s
  let put := fun (s : State) k =>
    let on := live.contains k
    placeOwn d (gaugeEntry k) 0x10 k 1 (if on then minuteNs else 0)
      (placeOwn d (cycleEntry k) 0x10 k 0 (if on then u32 (powerCap s) 8 * 1000 else 0) s)
  placeOwn d marginEntry 0x10 0 2 minuteNs ((List.range 4).foldl put s)

/-- POWER_CAP_WRITE as the opcode tables of Icoux give it (R514 to R520), with the checks of its fields. -/
def opPowerCapWrite : OpDef := { writeOp 0x0D01 32 powerCapFields with role := .admin }

/-- POWER_CAP write (R410, R411, R414): the entries are rewritten when their period, domain or partitions change. -/
def execPowerCapWrite (c : Cmd) (s : State) : Host.Outcome State Fault Refusal :=
  .next (icoux opPowerCapWrite c (fun _ b s =>
    let old := powerCap s
    let s1 := kiln 0x0D01 [(4, u32 b 0), (1, u8 b 4), (1, u8 b 5)]
      (modPow (fun t => { t with cap := if b == powerCapDefault then [] else b }) s)
    let same := slice old 8 5 == slice b 8 5 && u8 old 5 == u8 b 5
    let s2 := if same then s1 else placePower s1
    let below := u32 b 0 != 0 && decide (u32 b 0 * 100 < floorEstimate s2 s2.pow.last (capEffective s2 s2.pow.last.package).2)
    .done (modPow (fun t => { t with belowFloor := below }) s2) (if below then .capUnreachable else .ok) [] []) s)

/-- POWER_CAP_READ as the opcode tables of Icoux give it (R514 to R520), with the checks of its fields. -/
def opPowerCapRead : OpDef := readOp 0x0D02 32 (powerCapFields)

/-- POWER_CAP read. -/
def execPowerCapRead (c : Cmd) (s : State) : Host.Outcome State Fault Refusal :=
  .next (icoux opPowerCapRead c (fun _ _ s => okReply s (powerCap s)) s)

/-- Whether a fault bit has a site that is not QUIET, or a raise on its way. -/
def faultSet (s : State) (b : Nat) : Bool :=
  (s.flt.sites.any fun x => x.bit == b && x.level != .quiet) || s.flt.inFlight.any fun r => r.bit == b

/-- R420: while bit 55 is set VDD_CORE is not raised. -/
def avsHold (s : State) : Bool := faultSet s 55

/-- The POWER_STATUS object. -/
def powerStatusObj (s : State) : Bytes :=
  let p := s.pow
  image 72 ([(0, 1, b2n (u32 (powerCap s) 0 != 0) + 2 * b2n p.unreachable + 4 * b2n p.thermal + 8 * b2n (avsHold s) +
      16 * b2n p.atFloor),
    (2, 2, p.avs.reported), (4, 4, p.last.package / 100),
    (8, 4, match p.capEff with | some c => min (c / 100) 0xFFFFFFFF | none => if p.cycle.isSome then 0xFFFFFFFF else 0),
    (12, 4, p.last.compute / 100), (16, 4, p.last.memory / 100), (20, 4, p.last.links / 100), (24, 4, p.last.fixed / 100),
    (32, 1, p.spillLimit), (33, 1, p.linkLevel), (36, 4, p.overruns)] ++
    ((List.range 4).map fun k => (28 + k, 1, partitionN s k)) ++
    (List.range 16).map fun d => (40 + 2 * d, 2, ofSigned 16 ((dieTemp s d).getD 0)))

/-- POWER_STATUS as the opcode tables of Icoux give it (R514 to R520), with the checks of its fields. -/
def opPowerStatus : OpDef := readOp 0x0D03 72 [fRsv 0 72]

/-- POWER_STATUS (R426). -/
def execPowerStatus (c : Cmd) (s : State) : Host.Outcome State Fault Refusal :=
  .next (icoux opPowerStatus c (fun _ _ s => okReply s (powerStatusObj s)) s)

/-! ### Temperature (R415 to R417) -/

/-- A sensor after a reading: it keeps since when it has not changed and what its die read then. -/
def sampleSensor (now : Nat) (die : List Int) (x : Sensor) (v : Int) : Sensor :=
  if x.since == 0 || v != x.value then { x with value := v, since := now, refs := die } else x

/-- Whether a sensor that reads `die[i]` shall be excluded: out of range, or stuck for 10 s while a neighbour has moved 5 °C. -/
def sensorBad (now : Nat) (die : List Int) (i : Nat) (x : Sensor) : Bool :=
  let v := x.value
  !inRangeI v (-40 * degree) (150 * degree) ||
    (x.since + 10 * tSec ≤ now && (List.range die.length).any fun j =>
      j != i && decide (((die.getD j 0 - x.refs.getD j 0).natAbs : Int) ≥ 5 * degree))

/-- Samples the sensors of one die. -/
def sampleDie (readings : List Int) (die : Nat) (s : State) : State :=
  let (a, n) := dieSensors die
  let vals := (List.range n).map fun i => readings.getD (a + i) 0
  (List.range n).foldl (fun s i =>
    let old := sensorOf s (a + i)
    let x := sampleSensor s.now vals old (vals.getD i 0)
    let bad := !old.excluded && sensorBad s.now vals i x
    let x' := { x with excluded := old.excluded || bad }
    let s1 := modPow (fun t => { t with sensors := tabSet {} (a + i) x' t.sensors }) s
    let s2 := if bad then detect 54 0 0 (fun inj s => kilnInj inj 0x0D06 [(1, die), (1, i)] s) s1 else s1
    if !x'.excluded && x'.value > 105 * degree && (old.value ≤ 105 * degree) then raiseFault 54 0 0 false s2 else s2) s

/-- TEMP_SAMPLE (R415, R416): every 100 µs the 116 sensors are read, in 1/16 °C. A stack above 85 °C doubles its refresh. -/
def execTempSample (readings : List Int) (s : State) : Host.Outcome State Fault Refusal :=
  let s1 := reach (s.pow.sampleAt + 100 * tUs) s
  let s2 := (List.range 16).foldl (fun s d => sampleDie readings d s) s1
  .next (modPow (fun t =>
    { t with sampleAt := s1.now
             hotStacks := (List.range 4).filter fun k => match dieTemp s2 (12 + k) with | some v => v > 85 * degree | none => false }) s2)

/-- What outlives a reset (R417, R444, R525): real time, what the outside saw, the kiln log, the trip record, the fuses and the
flash. -/
def keptState (s : State) : State :=
  let r : State := {}
  { r with
    now := s.now, free := s.free, out := s.out, pending := s.pending
    flt := { r.flt with kiln := s.flt.kiln.map fun k => { k with preReset := true }, nextSeq := s.flt.nextSeq
                        newestIsLast := s.flt.newestIsLast }
    boot := { r.boot with
      cause := s.boot.cause, tripRecord := s.boot.tripRecord, tripped := s.boot.tripped, strap := s.boot.strap
      resetLow := s.boot.resetLow, resetLowSince := s.boot.resetLowSince
      slots := s.boot.slots, dataArea := s.boot.dataArea, otherArea := s.boot.otherArea, securityMin := s.boot.securityMin, powered := s.boot.powered
      tap := s.boot.tap } }

/-- THERMAL_TRIP (R417): a sensor of core die 0 to 3 or lane die 4 to 11 reaches 125 °C. THERMTRIP_N asserts and every clock stops;
only a reset leads on, and nothing the stopped device held outlives that. -/
def execThermalTrip (die : Fin 12) (sensor : Fin 20) (s : State) : Host.Outcome State Fault Refusal :=
  if (dieSensors die.val).2 ≤ sensor.val || !s.boot.powered then .next s
  else
    let s1 := modBoot (fun b => { b with tripped := true, tripRecord := some (b.tripRecord.getD (toLe 1 die.val ++ toLe 1 sensor.val)) }) s
    .next (emit (.pin pinThermtrip false) (keptState s1))

/-! ### Core voltage (R418 to R420) -/

/-- The target Icoux works towards: the planned one of the profile in use, FULL's while a change runs; held while bit 55 is set. -/
def avsWant (s : State) : Nat :=
  if avsHold s then s.pow.avs.target
  else if s.time.eased && s.time.switch.phase == .idle then s.pow.vddEased else s.pow.vddFull

/-- Ends an EASED-to-FULL change that waits for the voltage (R420). -/
def abandonRaise (s : State) : State :=
  let w := s.time.switch
  if w.phase == .raising then
    let s1 := modTime (fun t => { t with switch := {} }) s
    match w.run with
    | some r => endRunning r .state (toLe 2 0xFFFF) [] (modeChanged (u8 w.data 0 - u8 w.data 0 % 2) s1)
    | none => s1
  else s

/-- The voltage fault: bit 55 and AVS_ERROR with the difference from the target. -/
def avsFault (command status : Nat) (s : State) : State :=
  let v := s.pow.avs
  let diff := max v.target v.reported - min v.target v.reported
  abandonRaise (detect 55 0 0 (fun inj s => kilnInj inj 0x0D07 [(1, command), (1, status), (2, diff)] s) s)

/-- The next voltage write, at most 10 mV from the target the regulator has reached (R418). -/
def nextTarget (have_ want : Nat) : Nat := if have_ < want then min want (have_ + 10) else max want (have_ - 10)

/-- Once VDD_CORE is at the FULL target, a change that waited for it starts step 1 of R45 (R419). -/
def raiseDone (s : State) : State :=
  let w := s.time.switch
  if w.phase == .raising && s.pow.vddFull ≤ s.pow.avs.target && s.pow.avs.reported == s.pow.avs.target then
    modTime (fun t => { t with switch := { w with phase := .staged, began := s.now } }) s
  else s

/-- AVS_RESPONSE (R418, R420): the regulator answers with its voltage; `bad` is a fault status. At the target, the next step goes out. -/
def execAvsResponse (mv : Nat) (bad : Bool) (command status : Nat) (s : State) : Host.Outcome State Fault Refusal :=
  if !icouxTakes s then .next s
  else
    let s1 := modPow (fun t => { t with avs := { t.avs with reported := mv, failed := 0 } }) s
    let v := s1.pow.avs
    if bad || max v.target mv - min v.target mv > 15 then .next (avsFault command status s1)
    else
      let s2 := raiseDone s1
      .next (if mv == v.target then
          modPow (fun t => { t with avs := { t.avs with target := nextTarget v.target (avsWant s2) } }) s2
        else s2)

/-- AVS_TIMEOUT (R418): 100 µs without a valid response; the third failure raises bit 55, and VDD_CORE stays at its last confirmed
value. -/
def execAvsTimeout (command status : Nat) (s : State) : Host.Outcome State Fault Refusal :=
  if !icouxTakes s then .next s
  else if s.pow.avs.failed + 1 < 3 then .next (modPow (fun t => { t with avs := { t.avs with failed := t.avs.failed + 1 } }) s)
  else
    let s1 := avsFault command status s
    .next (modPow (fun t =>
      { t with avs := { t.avs with failed := 0, target := if t.avs.reported == 0 then t.avs.target else t.avs.reported } }) s1)

/-! ### Gauges and the voltage plan (R419, R421, R423) -/

/-- The rank-`i` element of a list. -/
def nthSmallest (l : List Int) (i : Nat) : Int := ((l.mergeSort (fun a b => decide (a ≤ b))).getD i 0)

/-- The median: of an even number, the mean of the middle two rounded down. -/
def median (l : List Int) : Int :=
  if l.length % 2 == 1 then nthSmallest l (l.length / 2)
  else (nthSmallest l (l.length / 2 - 1) + nthSmallest l (l.length / 2)) / 2

def gaugesOf (s : State) (q : Nat) : Gauges := tabGet {} s.pow.gauges q

/-- The slowdown of a quadrant: the median of its worst included gauge over the last 10 epochs. -/
def quadSlowdown (s : State) (q : Nat) : Nat :=
  let w := (gaugesOf s q).worst
  if w.isEmpty then 0 else (median (w.map Int.ofNat)).toNat

/-- The slowdown of the worst quadrant, with the quadrant. -/
def worstSlowdown (s : State) : Nat × Nat :=
  (List.range 4).foldl (fun m q => if quadSlowdown s q > m.1 then (quadSlowdown s q, q) else m) (0, 0)

/-- The voltage a slowdown asks for in a profile, before the ceiling, in mV (R419). -/
def vddAsked (eased : Bool) (slow : Nat) : Nat := Config.vBase eased + (Config.sensitivity * slow + 9999) / 10000 + 25

/-- A target within the limits of R418. -/
def vddClamp (v : Nat) : Nat := max 650 (min 800 v)

/-- Plans both targets for a slowdown; beyond the ceiling the guard is reduced and bit 56 raised for quadrant `q` (R423). `fresh`
plans anew, else the targets only rise. -/
def planVdd (fresh : Bool) (slow q : Nat) (s : State) : State :=
  let ask := vddAsked false slow
  let keep := fun (old new : Nat) => if fresh then new else max old new
  let s1 := modPow (fun t =>
    { t with vddFull := keep t.vddFull (vddClamp ask), vddEased := keep t.vddEased (vddClamp (vddAsked true slow))
             guard := 25 - (ask - 800), planSlowdown := slow }) s
  if ask > 800 then raiseFault 56 7 q false s1 else s1

/-- A guard re-plan, when it is due and bit 55 is clear (R420, R423). -/
def guardReplan (s : State) : State :=
  let (slow, q) := worstSlowdown s
  if slow < s.pow.planSlowdown + 2500 || avsHold s then s
  else
    let s1 := planVdd false slow q s
    modPow (fun t => { t with replans := satAdd 32 t.replans 1, lastReplan := (datapathStamp s 0).sec })
      (kiln 0x0D09 [(2, s.pow.vddFull), (2, s1.pow.vddFull), (2, s.pow.vddEased), (2, s1.pow.vddEased), (4, slow)] s1)

/-- 2 % of slowdown, in ppm. -/
abbrev gaugeBand : Int := 20000

/-- One epoch of the 64 gauges of quadrant `q`. -/
def gaugeEpoch (q : Nat) (ppm : List Int) (s : State) : State :=
  let g := gaugesOf s q
  let vals := (List.range 64).map fun i => ppm.getD i 0
  let mid := median vals
  let bad := (List.range 64).filter fun i =>
    let v := vals.getD i 0
    !g.excluded.contains i && (decide (v < 0) || decide (((v - mid).natAbs : Int) > gaugeBand))
  let excluded := g.excluded ++ bad
  let worst := ((List.range 64).filter fun i => !excluded.contains i).foldl (fun m i => max m (vals.getD i 0).toNat) 0
  let s1 := bad.foldl (fun s i => detect 56 7 q (fun inj s => kilnInj inj 0x0D0A [(1, q), (1, i)] s) s) s
  modPow (fun t => { t with gauges := tabSet {} q { excluded, worst := (worst :: g.worst).take 10 } t.gauges }) s1

/-- GAUGE_EPOCH (R421, R423): an entry with argument 1 fires on die `q`; with the entry of its own partition the die counts its
gauges, in ppm, while Icoux runs (R539). -/
def execGaugeEpoch (q : Quad) (d : Domain') (i : Fin 512) (ppm : List Int) (s : State) : Host.Outcome State Fault Refusal :=
  if powerFires s q.val d.val i.val 1 then
    let k := entryTarget (entryOf s d.val i.val)
    let s1 := fireEntry q.val d.val i.val s
    .next (if k == partitionOf s q.val && icouxTakes s then guardReplan (gaugeEpoch q.val ppm s1) else s1)
  else .next s

/-! ### Heat-work (R422) -/

/-- One in the fixed point of `expFixed`. -/
abbrev fixOne : Int := 18446744073709551616

/-- The Taylor sum of e^x, x in units of 2^-64, with `n` terms after `term`, the one of rank `k`. -/
def expTerms (x : Int) : Nat → Nat → Int → Int
  | 0, _, _ => 0
  | n + 1, k, term => term + expTerms x n (k + 1) (term * x / fixOne / ((k : Int) + 1))

/-- e^x in units of 2^-64: the Taylor sum of x / 16, squared four times. -/
def expFixed (x : Int) : Int :=
  let a := expTerms (x / 16) 24 0 fixOne
  let sq := fun (v : Int) => v * v / fixOne
  sq (sq (sq (sq a)))

/-- The acceleration A at a temperature in 1/16 °C, in units of 2^-64. -/
def acceleration (t : Int) : Int :=
  let k := 100 * t + 437040
  expFixed (81235 * fixOne * 100 / 368150 - 81235 * fixOne * 160 / k)

/-- HEAT_WORK_ACCUMULATE (R422): every second each quadrant adds the acceleration of its die's hottest sensor, for 1/3,600 h. -/
def execHeatWorkAccumulate (s : State) : Host.Outcome State Fault Refusal :=
  let s1 := reach (s.pow.heatAt + tSec) s
  let add := fun (h : Store Nat) (q : Nat) =>
    match dieTemp s q with
    | some t => tabMod 0 q (· + (acceleration t / (3600 * 4294967296)).toNat) h
    | none => h
  .next (modPow (fun t => { t with heatAt := s1.now, heat := (List.range 4).foldl add t.heat }) s1)

/-- A write of the data area (R531): the copies are written alternately, each with a higher seq. -/
def writeArea (f : DataArea → DataArea) (s : State) : State :=
  modBoot (fun b =>
    let a := f b.dataArea
    let seq := wrapAdd 32 b.dataArea.seq 1
    { b with otherArea := b.dataArea, dataArea := { a with seq, validA := a.validA || seq % 2 == 0, validB := a.validB || seq % 2 == 1 } }) s

/-- Icoux writes heat_work and the lane histories to the data area (R422, R531, R540). -/
def saveData (s : State) : State := writeArea (fun a => { a with heat := s.pow.heat, ages := s.pow.ages }) s

/-- DATA_AREA_SAVE (R540): every 6 h. -/
def execDataAreaSave (s : State) : Host.Outcome State Fault Refusal :=
  if icouxTakes s then .next (saveData s) else .next s

/-! ### Lane margins (R424) -/

/-- The lesser of each of two heights and widths. -/
def minEye (a : Option (Nat × Nat)) (b : Nat × Nat) : Nat × Nat :=
  match a with
  | none => b
  | some x => (min x.1 b.1, min x.2 b.2)

/-- MARGIN_EPOCH (R424): an entry with argument 2 fires on die `q`; each of its ACTIVE lanes takes a margin sample, the height and
width at its place in `eyes`, while Icoux runs (R539). -/
def execMarginEpoch (q : Quad) (d : Domain') (i : Fin 512) (eyes : List (Nat × Nat)) (s : State) : Host.Outcome State Fault Refusal :=
  if powerFires s q.val d.val i.val 2 then
    let s1 := fireEntry q.val d.val i.val s
    .next (((activeLanes s).filter fun l => quadOfPort l == q.val && icouxTakes s).foldl (fun s l =>
      let e := eyes.getD (l % 256) (0, 0)
      let a := laneAge s l
      setLaneAge l { a with today := some (minEye a.today e) }
        (modLane l (fun v => { v with eyeHeight := e.1 % 65536, eyeWidth := e.2 % 65536 }) s)) s1)
  else .next s

/-- The re-plan of one lane at the end of day `day`. -/
def replanLane (day l : Nat) (s : State) : State :=
  let a := laneAge s l
  match a.today with
  | none => s
  | some e =>
    let ref := ((laneOf s l).reference).getD 0
    let pct := if ref == 0 then 100 else min 255 (e.1 * 100 / ref)
    let below := decide (e.1 * 100 < ref * u8 (powerCap s) 17)
    let worn := decide (e.1 * 100 < ref * 40)
    let month := day / 30
    let a' := { a with today := none, days := (e :: a.days).take 365, below, worn
                       months := tabPut month (minEye (tabFind a.months month) e) a.months }
    let s1 := setLaneAge l a' s
    let s2 := if worn then modLane l (fun v => { v with snapshot := v.coeff }) s1 else s1
    if below == a.below && worn == a.worn then s2
    else kiln 0x0D0B [(2, l), (1, pct), (1, b2n (!below)), (1, b2n worn)] s2

/-- LANE_REPLAN (R424): a day of the datapath domain has ended; the lanes are re-planned from its minima. -/
def execLaneReplan (s : State) : Host.Outcome State Fault Refusal :=
  let day := (datapathStamp s 0).sec / 86400
  if day == s.pow.day then .next s
  else
    let s1 := (s.pow.ages.map Prod.fst).foldl (fun s l => replanLane s.pow.day l s) s
    .next (modPow (fun t => { t with day }) s1)

/-- The AGEING_STATUS object of quadrant `q` (R425). -/
def ageingStatusObj (s : State) (q : Nat) : Bytes :=
  let p := s.pow
  image 48 [(0, 1, q), (1, 1, (gaugesOf s q).excluded.length),
    (2, 2, (p.ages.filter fun e => quadOfPort e.1 == q && e.2.worn).length),
    (4, 4, min (tabGet 0 p.heat q / 4294967296) 0xFFFFFFFF), (8, 4, quadSlowdown s q), (12, 2, p.vddFull), (14, 2, p.vddEased),
    (16, 2, p.guard), (18, 2, 800 - p.vddFull), (20, 4, p.replans), (24, 8, p.lastReplan)]

/-- AGEING_STATUS as the opcode tables of Icoux give it (R514 to R520), with the checks of its fields. -/
def opAgeingStatus : OpDef := readOp 0x0D04 48 [(fRange 0 1 0 3 .range).asKey, fRsv 1 47]

/-- AGEING_STATUS (R425). -/
def execAgeingStatus (c : Cmd) (s : State) : Host.Outcome State Fault Refusal :=
  .next (icoux opAgeingStatus c (fun _ b s =>
    okReply s (ageingStatusObj s (u8 b 0))) s)

/-! ### Energy (R407 to R409) -/

/-- ENERGY_CALIBRATION (R408): the second's measurements ask for `scale` of class `k` of quadrant `q`, and leave `other` nJ
unattributed. -/
def execEnergyCalibration (q : Quad) (k : Fin 3) (scale other : Nat) (s : State) : Host.Outcome State Fault Refusal :=
  if !icouxTakes s then .next s
  else
  let v := max 52429 (min 81920 scale)
  let old := energyScale s q.val k.val
  let s1 := addEnergy 4 q.val other
    (modPow (fun t => { t with scales := tabSet 65536 (4 * q.val + k.val) v t.scales }) s)
  let s2 := if v != scale then raiseFault 53 0 0 false s1 else s1
  .next (if (max old v - min old v) * 20 > old then kiln 0x0D08 [(1, q.val), (1, k.val), (4, v)] s2 else s2)

/-- The fields of ENERGY_READ. -/
def energyReadFields : List Fld :=
  [ fRange 0 1 0 2 .badarg, fVal 1 1 (fun v => orElse (v == 2 || v == 4 || v == 5) .badarg), fRsv 2 2,
    fDep 4 4 (fun _ p => orElse (scopeExists (u8 p 1) (u32 p 4)) .range),
    fDep 8 2 (fun _ p => if u16 p 8 == 0 then some .badarg
      else orElse (u16 p 8 ≤ 500 && scopeExists (u8 p 1) (u32 p 4 + u16 p 8 - 1)) .range),
    fRsv 10 6 ]

/-- Whether session `i` may read every scope an ENERGY_READ names (R392, R409). -/
def energyMay (s : State) (i : Nat) (p : Bytes) : Bool :=
  (List.range (max 1 (min 500 (u16 p 8)))).all fun k => observerMay s i (u8 p 1) (u32 p 4 + k)

/-- ENERGY_READ as the opcode tables of Icoux give it (R514 to R520), with the checks of its fields. -/
def opEnergyRead : OpDef := { requestOp 0x0D05 16 energyReadFields with role := .any, grant := energyMay }

/-- ENERGY_READ (R409): the reply of R379 with group 0 and one value for each scope. -/
def execEnergyRead (c : Cmd) (s : State) : Host.Outcome State Fault Refusal :=
  .next (icoux opEnergyRead c (fun _ p s =>
    match readBank s 0 (u8 p 0) with
    | none => badAll .state
    | some snap =>
      let snap' := if u8 p 0 == 0 then { snap with values := s.pow.energy } else snap
      okReply s (counterReply s 0 (u8 p 0) snap' ((List.range (u16 p 8)).map fun k =>
        some (counterKey 0 (u8 p 1) (u32 p 4 + k) 0)))) s)

end Sys2Proof.Machine
end

