-- ==== Sys2Proof/Machine/Reset.lean ====
section
/-!
DEFINITION. What ends with a session (R465), the end of test mode (R441), a device reset (R439, R523 to R525) and the start of a warm
restart (R538, R539).
-/

namespace Sys2Proof.Machine

/-! ### Test mode and sessions -/

/-- Test mode ends: every point is disarmed (R441). -/
def endTestMode (s : State) : State :=
  if s.flt.testMode then
    kiln 0x0E08 [(1, s.flt.testSlot), (1, 0)] (modFlt (fun f => { f with testMode := false, points := [] }) s)
  else s

/-- Ring pair `r`. -/
def ringOf (s : State) (r : Nat) : Ring := tabGet {} s.host.rings r

/-- `s` with a ring pair set. -/
def setRing (r : Nat) (v : Ring) (s : State) : State := modHost (fun h => { h with rings := tabSet {} r v h.rings }) s

def rxEnabled (v : Ring) : Bool := bit (u8 v.obj 1) 0
def txEnabled (v : Ring) : Bool := bit (u8 v.obj 1) 1

/-- A ring pair disabled: its four indices are zero and no interrupt waits (R458). -/
def ringDisabled (v : Ring) : Ring :=
  let fl := u8 v.obj 1
  { obj := if v.obj.isEmpty then [] else putField v.obj 1 1 (fl - fl % 4) }

/-- Disables the ring pairs that satisfy `p`. -/
def disableRings (p : Ring → Bool) (s : State) : State :=
  modHost (fun h => { h with rings := h.rings.map fun e => (e.1, if p e.2 then ringDisabled e.2 else e.2) }) s

/-- The owner of a ring pair that has been configured. -/
def ringOwner (v : Ring) : Option Nat := if v.obj.isEmpty then none else some (u8 v.obj 3)

/-- The contents of every upload that slot `i` holds are discarded (R503). -/
def dropUploads (p : Option Nat → Bool) (s : State) : State :=
  modHost (fun h => { h with uploads := h.uploads.filter fun e => !p e.2.claim }) s

/-- What ends with a session, whatever closes it (R465, R503, R516). -/
def endSession (i cause : Nat) (s : State) : State :=
  let s1 := (List.range 64).foldl (fun s g => delegate i 0 g s) (kiln 0x0102 [(1, i), (1, cause)] s)
  let s2 := disableRings (fun v => ringOwner v == some i) s1
  let s3 := modTel (fun t => { t with grants := tabDel i t.grants }) s2
  let s4 := modMat (fun m => { m with openBatch := tabDel i m.openBatch }) (dropUploads (· == some i) s3)
  if s4.flt.testSlot == i then endTestMode s4 else s4

/-- Slot `i` loses the commands that run and those that have ended: what they do goes on, their completions are discarded. -/
def dropCommands (i : Nat) (s : State) : State :=
  modHost (fun h => { h with running := h.running.filter (fun r => r.slot != i), ended := h.ended.filter (fun e => e.slot != i) }) s

/-- A slot's registers as after reset, with what outlives a session: the lockout of R482. -/
def slotCleared (v : Slot) : Slot := { wrong := v.wrong, lockedUntil := v.lockedUntil }

/-- An abrupt close (R465): an open session shows CLOSING until the slot is free; a slot without a session is free at once. -/
def closeAbrupt (i cause : Nat) (s : State) : State :=
  let sl := slotOf s i
  match sl.state with
  | .opened => modSlot i (fun v => { v with state := .closing, submitted := none, draining := false }) (dropCommands i (endSession i cause s))
  | .pending => modSlot i (fun v => { v with state := .free, submitted := none }) (dropCommands i s)
  | _ => s

/-- Whether a MAILBOX fence holds slot `i`. -/
def mailboxFenced (s : State) (i : Nat) : Bool := (fencedSites s .mailbox).any fun x => x.index == i

/-! ### Device reset (R439, R523, R525) -/

/-- The device resets as an assertion of RESET_N would, with cause `cause`; start-up begins again at once. -/
def deviceReset (cause : Nat) (s : State) : State :=
  let r := keptState s
  modBoot (fun b => { b with cause, t0 := s.now, resetLow := false }) r

/-! ### Warm restart (R538, R539) -/

/-- Every command in progress ends with TIMEOUT. -/
def timeoutRunning (s : State) : State :=
  (s.host.running.map Running.id).foldl (fun s id => endRunning id .timeout (toLe 2 0xFFFF) [] s) s

/-- An apply of a program image stops: at once, or after the pipeline that is being loaded (R521). -/
def stopApply (s : State) : State :=
  if s.mat.applyState != 1 then s
  else if s.mat.pipes.any fun e => e.2.imageHeld then modMat (fun m => { m with applyStops := true }) s
  else
    kiln 0x0502 [(1, (maskBits 64 s.mat.applyLeft).headD 0), (2, statusCode .timeout)]
      (modMat (fun m => { m with applyState := 3, applyStatus := statusCode .timeout, applying := [] }) s)

/-- The tree builds that run are abandoned. -/
def abandonBuilds (s : State) : State :=
  (s.mat.trees.filter fun e => e.2.building.isSome).foldl (fun s e =>
    kiln 0x0606 [(1, e.1 / 16), (1, e.1 % 16), (2, statusCode .timeout)]
      (setTree (e.1 / 16) (e.1 % 16) { e.2 with building := none } s)) s

/-- A firmware write is abandoned and its slot left invalid. -/
def abandonWrite (s : State) : State :=
  if s.boot.update.writing.isSome then
    modBoot (fun b => { b with update := { b.update with state := 4, last := statusCode .timeout, writing := none } }) s
  else s

/-- The start of a warm restart into slot `target`; the third within 60 s is a reset with cause WARM_FAIL. -/
def warmStart (cause target : Nat) (s : State) : State :=
  let times := s.now :: s.boot.warmTimes.filter fun t => s.now ≤ t + 60 * tSec
  if times.length ≥ 3 then deviceReset 5 s
  else
    let s1 := modBoot (fun b => { b with stage := .warmRestart, capsReady := false, warmDue := none, warmBegan := s.now,
                                         warmTarget := target, warmTimes := times }) s
    let s2 := saveData (timeoutRunning (abandonRaise (kiln 0x0F16 [(1, cause), (1, target)] s1)))
    let s3 := dropUploads (·.isSome) (modMat (fun m => { m with openBatch := [] }) s2)
    endTestMode (abandonWrite (abandonBuilds (stopApply s3)))

end Sys2Proof.Machine
end

