-- ==== Sys2Proof/Machine/Fence.lean ====
section
/-!
DEFINITION. The fault collector: the fault word, the levels of a site, fences and escalation to device reset (R430 to R440).
-/

namespace Sys2Proof.Machine

/-! ### The fault word (R431) -/

/-- Whether fault bit `b` has a site that is not QUIET. -/
def fltBit (s : State) (b : Nat) : Bool := s.flt.sites.any fun x => x.bit == b

/-- FLT_STATUS. -/
def fltStatus (s : State) : Nat :=
  ((List.range 63).map fun b => if fltBit s b then 2 ^ b else 0).foldl (· + ·) 0 +
    (if s.flt.points.isEmpty then 0 else 2 ^ 63)

/-- Whether FLT_LATCH AND FLT_ALERT_EN is nonzero. -/
def alertOn (s : State) : Bool := s.flt.latch &&& s.flt.alertEn != 0

/-- Raises an in-band interrupt over I3C when interrupts are enabled (R479). -/
def raiseIbi (alert : Bool) (data : Byte) (s : State) : State :=
  if s.host.i3c.events then
    emit (.ibi data) (modHost (fun h => { h with i3c :=
      if alert then { h.i3c with alertIbi := some s.now } else { h.i3c with completionIbi := some s.now } }) s)
  else s

/-- What follows when the alert condition changes: ALERT_N, vector 164 and the in-band interrupt (R431, R474, R479). -/
def noteAlert (was : Bool) (s : State) : State :=
  if alertOn s == was then s
  else if was then emit (.pin pinAlert true) s
  else raiseIbi true 0x40 (signal 164 (emit (.pin pinAlert false) s))

/-- Sets bit `b` of FLT_LATCH. -/
def latchBit (b : Nat) (s : State) : State :=
  noteAlert (alertOn s) (modFlt (fun f => { f with latch := f.latch ||| BitVec.ofNat 64 (2 ^ b) }) s)

/-! ### Sites (R434) -/

/-- The policy a fault bit has before it is written (R436). -/
def policyDefault (b : Nat) : Policy := { maxLevel := if inRange b 57 59 || b == 62 then 3 else 2 }

/-- The escalation policy of fault bit `b`. -/
def policyOf (s : State) (b : Nat) : Policy := (tabFind s.flt.policy b).getD (policyDefault b)

/-- Whether `x` is the site of a bit and a unit. -/
def siteIs (b k i : Nat) (x : Site) : Bool := x.bit == b && x.kind == k && x.index == i

/-- The entry of a site that is not QUIET. -/
def siteAt (s : State) (b k i : Nat) : Option Site := s.flt.sites.find? (siteIs b k i)

/-- `s` with the entry of a site changed. -/
def modSite (b k i : Nat) (f : Site → Site) (s : State) : State :=
  modFlt (fun t => { t with sites := t.sites.map fun x => if siteIs b k i x then f x else x }) s

/-- `s` without the entry of a site: it is QUIET. -/
def dropSite (b k i : Nat) (s : State) : State :=
  modFlt (fun t => { t with sites := t.sites.filter fun x => !siteIs b k i x }) s

/-- The lanes that a unit holds, as the first and their number; none for a unit without lanes of its own. -/
def unitLanes (s : State) (k i : Nat) : Option (Nat × Nat) :=
  match k with
  | 1 => some (128 * i, 128)
  | 2 => some (16 * i, 16)
  | 3 => some (i, 1)
  | 4 => some (i, max 1 (lanesOf s i).length)
  | 5 => some (16 * i, 16)
  | 6 => some (16 * (i / 32), 16)
  | 7 => some (256 * i, 256)
  | _ => none

/-- Whether a unit's lanes lie within those from `lo` to `lo + n - 1`. -/
def lanesWithin (s : State) (k i lo n : Nat) : Bool :=
  match unitLanes s k i with
  | some (a, m) => lo ≤ a && a + m ≤ lo + n
  | none => false

/-- Whether a fence on `y` takes the unit out of service (R435, R440). -/
def fenceCovers (s : State) (y : Site) (k i : Nat) : Bool :=
  match fenceOf y.bit with
  | .ports => inRange k 1 4 && (match unitLanes s y.kind y.index with | some (lo, n) => lanesWithin s k i lo n | none => false)
  | .pipeline => inRange k 2 6 && lanesWithin s k i (16 * pipeOfSite y) 16
  | .quadrant => inRange k 1 7 && lanesWithin s k i (256 * y.index) 256
  | .link => (k == 11 && i == linkOfSite y) || (k == 12 && i / 2 == linkOfSite y)
  | .stack => (k == 10 && i == y.index) || (k == 8 && i / 16 == y.index)
  | _ => false

/-- Whether a site's unit lies inside another site's fence. -/
def insideFence (s : State) (x : Site) : Bool :=
  s.flt.sites.any fun y => y.level == .fenced && !siteIs x.bit x.kind x.index y && fenceCovers s y x.kind x.index

/-- Logs an event of a site. -/
def siteEvent (code : Nat) (x : Site) (more : List (Nat × Nat)) (s : State) : State :=
  kilnEvent code x.bit x.injected (pack ([(1, x.kind), (4, x.index)] ++ more)) s

/-! ### Fences (R435) -/

/-- PORTS for one port: FAILED with cause LINK_INTERNAL, squelched, its queues flushed at once. -/
def fencePort (s : State) (p : Nat) : State :=
  let ph := (linkOf s p).phase
  let s1 := macPortStopped p s
  let s2 := if ph == .active then leaveActive p 10 s1 else s1
  let s3 := setCause p 10 p (modLanes p (fun v => scanAborted (unlocked v)) s2)
  let s4 := if [0, 1, 9].contains (phaseCode ph) then s3 else countLanes cSquelches p s3
  enterPhase p .failed s4

/-- PORTS for every configured port that holds a lane of the range. -/
def fencePorts (lo n : Nat) (s : State) : State :=
  ((configuredPorts s).filter fun p => (lanesOf s p).any fun l => lo ≤ l && l < lo + n).foldl fencePort s

/-- A frame of a pipeline that stops is flushed with PORT_DOWN; its context and its host-table request go with it. -/
def flushFrame (s : State) (u : Nat) : State :=
  let v := frameOf s u
  let reason := if v.bad != 0 then v.bad else 0x2B
  let q := quadOfPipe v.pipe
  let s1 := setHostReads q ((hostReads s q).filter fun r => r.frame != u) s
  match (if v.place == .running then (matStage s v.pipe v.stage).ctxs.find? (fun e => e.2.frame == u) else none) with
  | some (k, _) => abandon v.pipe v.stage k reason {} s1
  | none => dropFrame u reason {} s1

/-- The frames that stand in pipeline `g`: not those at the inspection path, which drops them when they return. -/
def pipeFrames (s : State) (g : Nat) : List Nat :=
  (s.fr.frames.filter fun e => e.2.pipe == g && e.2.place != .spent && e.2.place != .inspect && e.2.place != .control).map Prod.fst

/-- PIPELINE: its ports are fenced and what stands in it is flushed. -/
def fencePipe (s : State) (g : Nat) : State :=
  let s1 := fencePorts (16 * g) 16 s
  (pipeFrames s1 g).foldl flushFrame s1

/-- TREE: the requests of a tree end with ERROR. -/
def fenceTree (q : Nat) (s : State) (t : Nat) : State :=
  ((walksOf s q).filter fun w => w.tree == t && w.result.isNone).foldl (fun s w => endWalk q w.frame 5 0 0 s) s

/-- READER: the host-table requests of a quadrant end with ERROR. -/
def fenceReader (q : Nat) (s : State) : State := (hostReads s q).foldl (fun s r => endHostRead r.frame 4 0 0 s) s

/-- LEARN: the learn requests of a pipeline are discarded and counted. -/
def fenceLearn (g : Nat) (s : State) : State :=
  count cFdbLearnLost g (fwdPipe s g).learnQ.length (modFwdPipe g (fun v => { v with learnQ := [] }) s)

/-- The DRAM section of a queue is flushed with BUFFER_INTEGRITY. -/
def flushSection (bitNo q : Nat) (s : State) (n : Nat) : State :=
  let sect := (bufQueue s n).fifo.filter fun c => (copyAt s c).spill.isSome
  endSpill q n (sect.foldl (fun s c => dropCopy c 0x26 bitNo s) s)

/-- SPILL: the DRAM sections of a quadrant are flushed. -/
def fenceSpill (bitNo q : Nat) (s : State) : State :=
  ((s.buf.queues.filter fun e => e.2.spilling && quadOfPort (e.1 / 20) == q).map Prod.fst).foldl (flushSection bitNo q) s

/-- STACK: SPILL, READER and every TREE of the quadrant, whose counter-bank words become inexact. -/
def fenceStack (bitNo q : Nat) (s : State) : State :=
  let s1 := (List.range 16).foldl (fenceTree q) (fenceReader q (fenceSpill bitNo q s))
  modTel (fun t => { t with inexactQuads := if t.inexactQuads.contains q then t.inexactQuads else q :: t.inexactQuads }) s1

/-- What a fence on a site does at once; what lasts follows from the site's level. -/
def applyFence (x : Site) (s : State) : State :=
  match fenceOf x.bit with
  | .ports => match unitLanes s x.kind x.index with | some (lo, n) => fencePorts lo n s | none => s
  | .pipeline => fencePipe s (pipeOfSite x)
  | .quadrant => ((List.range 16).map (16 * x.index + ·)).foldl fencePipe s
  | .tree => fenceTree (x.index / 16) s (x.index % 16)
  | .reader => fenceReader x.index s
  | .learn => fenceLearn x.index s
  | .window => match (fwdPipe s x.index).window.session with | some i => delegate i 0 x.index s | none => s
  | .spill => fenceSpill x.bit x.index s
  | .stack => fenceStack x.bit x.index s
  | .link => if s.sw.linkDown.contains (linkOfSite x) then s else linkDown (linkOfSite x) s
  | .control => modBoot (fun b => { b with warmDue := some (1, b.slot) }) s
  | .mailbox => closeAbrupt x.index 4 s
  | _ => s

/-! ### Escalation (R434, R439) -/

/-- A grace period of `ms` from now, when there is one. -/
def graceFrom (s : State) (ms : Nat) : Option Nat := if ms == 0 then none else some (s.now + ms * tMs)

/-- Counts an escalation of a fault bit. -/
def countEscalation (b : Nat) (s : State) : State :=
  modFlt (fun f => { f with stats := tabMod {} b (fun v => { v with escalations := satAdd 32 v.escalations 1 }) f.stats }) s

/-- A site is fenced. -/
def fenceSite (x : Site) (s : State) : State :=
  let g := graceFrom s (policyOf s x.bit).graceMs
  let s1 := modSite x.bit x.kind x.index (fun v => { v with level := .fenced, count := 0, overran := false, grace := g }) s
  siteEvent 0x0E02 x [(1, 2)] (countEscalation x.bit (applyFence x s1))

/-- The highest level a site may reach: the bit's max_level, CONTAINED without a fence, and what injections place on it. -/
def siteCap (s : State) (x : Site) : Nat :=
  if fenceOf x.bit == .none || x.capContained then 1
  else if x.capFenced then min 2 (policyOf s x.bit).maxLevel else (policyOf s x.bit).maxLevel

/-- escalate of R434. -/
def escalate (x : Site) (s : State) : State :=
  let next := if fenceOf x.bit == .device || x.level == .fenced then 3 else 2
  if next > siteCap s x then siteEvent 0x0E05 x [(1, next)] s
  else if next == 2 then fenceSite x s
  else deviceReset 2 (siteEvent 0x0E06 x [] (countEscalation x.bit s))

/-- evaluate of R434. -/
def evaluateSite (x : Site) (s : State) : State :=
  if !insideFence s x && (x.count > (policyOf s x.bit).repeatLimit || x.overran) then escalate x s else s

/-! ### Raises -/

/-- The counts of a raise: FLT_RAISES, the bit's, and the time of its last raise. -/
def countRaise (b : Nat) (s : State) : State :=
  let t := datapathStamp s 0
  modFlt (fun f => { f with
    raises := f.raises + 1
    stats := tabMod {} b (fun v => { v with raises := satAdd 32 v.raises 1, sec := t.sec, ns := t.ns }) f.stats }) s

/-- The entry of a raised site: a new one, or the one it has with this raise counted. -/
def raisedSite (s : State) (r : Raise) : Site :=
  match siteAt s r.bit r.kind r.index with
  | none => { bit := r.bit, kind := r.kind, index := r.index, level := .contained, count := 1, last := s.now, injected := r.injected
              capContained := r.noEscalate, capFenced := r.noReset, overran := r.overran }
  | some x => { x with count := x.count + 1, last := s.now, injected := x.injected || r.injected, overran := x.overran || r.overran
                       capContained := x.capContained && r.noEscalate, capFenced := x.capFenced && r.noReset }

/-- The site of a raise follows its rule: nothing while held or inside a fence, else an evaluation or a grace period. -/
def followSite (x : Site) (s : State) : State :=
  let ms := (policyOf s x.bit).graceMs
  if x.held || insideFence s x then s
  else if ms == 0 then evaluateSite x s
  else if x.grace.isNone then modSite x.bit x.kind x.index (fun v => { v with grace := graceFrom s ms }) s
  else s

/-- A raise that finds the site table full: it is latched and has no site (R440). -/
def tableFull (r : Raise) (s : State) : State :=
  let s1 := kilnEvent 0x0E09 r.bit r.injected (pack [(1, r.kind), (4, r.index)]) s
  if r.bit == 62 then s1 else raiseFault 62 0 0 false s1

/-- A raise reaches the saggar. -/
def takeRaise (r : Raise) (s : State) : State :=
  let s1 := latchBit r.bit (countRaise r.bit s)
  let new := (siteAt s1 r.bit r.kind r.index).isNone
  if new && s1.flt.sites.length ≥ 1024 then tableFull r s1
  else
    let x := raisedSite s1 r
    let s2 := if new then modFlt (fun f => { f with sites := f.sites ++ [x] }) s1 else modSite r.bit r.kind r.index (fun _ => x) s1
    let logs := new || bit (policyOf s2 r.bit).flags 0
    followSite x (if logs then kilnEvent 0x0E01 r.bit r.injected (pack [(1, r.kind), (4, r.index)]) s2 else s2)

/-- FAULT_RAISE (R430, R434): the oldest raise on a fault line arrives. -/
def execFaultRaise (s : State) : Host.Outcome State Fault Refusal :=
  match s.flt.inFlight with
  | [] => .next s
  | r :: t => .next (takeRaise r (modFlt (fun f => { f with inFlight := t }) s))

/-- GRACE_EXPIRY (R434): the grace period of a site ends. -/
def execGraceExpiry (b : Fin 63) (k i : Nat) (s : State) : Host.Outcome State Fault Refusal :=
  match siteAt s b.val k i with
  | none => .next s
  | some x =>
    match x.grace with
    | none => .next s
    | some t =>
      let s1 := modSite b.val k i (fun v => { v with grace := none }) (reach t s)
      .next (modSite b.val k i (fun v => { v with count := 0, overran := false }) (evaluateSite { x with grace := none } s1))

/-- QUIET_EXPIRY (R434): a CONTAINED site has been quiet long enough. -/
def execQuietExpiry (b : Fin 63) (k i : Nat) (s : State) : Host.Outcome State Fault Refusal :=
  match siteAt s b.val k i with
  | none => .next s
  | some x =>
    if x.level != .contained then .next s
    else
      let s1 := dropSite b.val k i (reach (x.last + (policyOf s b.val).quietMs * tMs) s)
      let n := satAdd 32 (tabGet {} s.flt.stats b.val).recoveries 1
      .next (siteEvent 0x0E03 x [(4, n)]
        (modFlt (fun f => { f with stats := tabMod {} b.val (fun v => { v with recoveries := n }) f.stats }) s1))

/-- Ends the fence of a site (R437, R440): it is QUIET, and sites that lay inside it start anew. -/
def unfence (b k i : Nat) (s : State) : State :=
  let s1 := dropSite b k i s
  modFlt (fun f => { f with sites := f.sites.map fun y =>
    if y.level == .contained && insideFence s y && !insideFence s1 y then { y with count := 0, grace := none, overran := false } else y }) s1

end Sys2Proof.Machine
end

