-- ==== Sys2Proof/Machine/Faults.lean ====
section
/-!
DEFINITION. Registers and commands of the fault collector, test mode and injection, the control complex's faults, and the kiln log's
window and commands (R431, R433, R436 to R442, R449, R450).
-/

namespace Sys2Proof.Machine

/-! ### BAR0 (R431, R532) -/

/-- Whether BAR0 answers: the link is up and the boot ROM's self-test has passed (R532 step 4). -/
def barLive (s : State) : Bool := s.host.linkUp && s.boot.romRan && !s.boot.resetLow && s.boot.powered

/-- Whether every register of BAR0 is live: past the bisque stage. -/
def barFull (s : State) : Bool :=
  barLive s && (match s.boot.stage with | .bisque => false | .failed => !s.boot.failedInBisque | _ => true)

/-- A 64-bit register by its two optional halves. -/
def withHalves (v : BitVec 64) (lo hi : Option (BitVec 32)) : BitVec 64 :=
  (hi.getD (v.extractLsb' 32 32)) ++ (lo.getD (v.extractLsb' 0 32))

/-- FLT_LATCH_WRITE (R431): a write of either half or of both; ones clear. -/
def execFltLatchWrite (lo hi : Option (BitVec 32)) (s : State) : Host.Outcome State Fault Refusal :=
  if !barLive s then .next s
  else .next (noteAlert (alertOn s) (modFlt (fun f => { f with latch := f.latch &&& ~~~(withHalves 0 lo hi) }) s))

/-- FLT_ALERT_EN_WRITE (R431). -/
def execFltAlertEnWrite (lo hi : Option (BitVec 32)) (s : State) : Host.Outcome State Fault Refusal :=
  if !barLive s then .next s
  else .next (noteAlert (alertOn s) (modFlt (fun f => { f with alertEn := withHalves f.alertEn lo hi }) s))

/-- The 64-bit registers of BAR0 (R431, R457). -/
def reg64 (s : State) (off : Nat) : Option Nat :=
  if off == 0x1000 then some (fltStatus s)
  else if off == 0x1008 then some s.flt.latch.toNat
  else if off == 0x1010 then some s.flt.alertEn.toNat
  else if inRange off 0x10000 0x11FFF && barFull s then
    let sl := slotOf s ((off - 0x10000) / 0x100)
    if off % 0x100 == 8 then some sl.cmdBase.toNat else if off % 0x100 == 0x10 then some sl.cplBase.toNat else none
  else none

/-- REG64_LOW_HALF_READ (R431): a read of the low half of the 64-bit register at `off`, or, when `high`, the next read of its high
half, which answers what the low half's read latched. -/
def execReg64LowHalfRead (off : Nat) (high : Bool) (s : State) : Host.Outcome State Fault Refusal :=
  if !barLive s then .next s
  else match reg64 s off with
    | none => .next s
    | some v =>
      if high then
        let x := (tabFind s.flt.halfLatch off).getD (BitVec.ofNat 32 (v / 4294967296))
        .next (emit (.barRead x.toNat) (modFlt (fun f => { f with halfLatch := tabDel off f.halfLatch }) s))
      else
        .next (emit (.barRead (v % 4294967296))
          (modFlt (fun f => { f with halfLatch := tabPut off (BitVec.ofNat 32 (v / 4294967296)) f.halfLatch }) s))

/-! ### Test mode (R441) -/

/-- The pending key is void; the third within 60 s locks FAULT_TEST_ENABLE for 60 s. -/
def voidKey (s : State) : State :=
  let l := s.now :: s.flt.voided.filter fun t => s.now ≤ t + 60 * tSec
  if l.length ≥ 3 then modFlt (fun f => { f with pendingKey := none, voided := [], lockedUntil := s.now + 60 * tSec }) s
  else modFlt (fun f => { f with pendingKey := none, voided := l }) s

/-- FLT_TEST_KEY_WRITE (R441). -/
def execFltTestKeyWrite (key : BitVec 32) (s : State) : Host.Outcome State Fault Refusal :=
  match s.flt.pendingKey with
  | none => .next s
  | some p =>
    if !barLive s then .next s
    else if p.key == key && s.now ≤ p.issued + tSec then
      .next (kiln 0x0E08 [(1, p.slot), (1, 1)]
        (modFlt (fun f => { f with pendingKey := none, testMode := true, testSlot := p.slot }) s))
    else .next (voidKey s)

/-- TEST_KEY_TIMEOUT (R441). -/
def execTestKeyTimeout (s : State) : Host.Outcome State Fault Refusal :=
  match s.flt.pendingKey with
  | none => .next s
  | some p => .next (voidKey (reach (p.issued + tSec) s))

/-- TEST_KEY_LOCKOUT_END (R441). -/
def execTestKeyLockoutEnd (s : State) : Host.Outcome State Fault Refusal :=
  if s.flt.lockedUntil == 0 then .next s
  else .next (modFlt (fun f => { f with lockedUntil := 0 }) (reach s.flt.lockedUntil s))

/-- FAULT_TEST_ENABLE as the opcode tables of Icoux give it (R514 to R520), with the checks of its fields. -/
def opFaultTestEnable : OpDef := { writeOp 0x0E06 0 [] with role := .admin }

/-- FAULT_TEST_ENABLE (R441, R519): the completion carries the key. -/
def execFaultTestEnable (c : Cmd) (s : State) : Host.Outcome State Fault Refusal :=
  .next (icoux opFaultTestEnable c (fun i _ s =>
    if (slotOf s i).i3c then badAll .notsup
    else if s.now < s.flt.lockedUntil then badAll .denied
    else
      let (n, s1) := takeFree s
      let key := BitVec.ofNat 32 n
      .done (modFlt (fun f => { f with pendingKey := some { key, slot := i, issued := s.now } }) s1) .ok (toLe 4 key.toNat) []) s)

/-- FAULT_TEST_DISABLE as the opcode tables of Icoux give it (R514 to R520), with the checks of its fields. -/
def opFaultTestDisable : OpDef := { writeOp 0x0E07 0 [] with role := .admin }

/-- FAULT_TEST_DISABLE (R441). -/
def execFaultTestDisable (c : Cmd) (s : State) : Host.Outcome State Fault Refusal :=
  .next (icoux opFaultTestDisable c (fun i _ s =>
    if (slotOf s i).i3c then badAll .notsup else okWrite (endTestMode s)) s)

/-- The injection kinds a bit's detector has (R442): 1 CORRECTABLE and 2 UNCORRECTABLE for words with the (72,64) code, 2 alone for
parity stores, 3 CONDITION for other conditions. -/
def injectionKinds (b : Nat) : List Nat :=
  if [5, 6, 7, 10, 11, 14, 15, 16, 18, 22, 24, 25, 26, 30, 35, 42, 43, 46, 47, 50, 51, 57].contains b then [1, 2]
  else if [17, 19, 28, 29, 31, 33, 41, 44, 52, 62].contains b then [1, 2, 3]
  else if b == 20 || b == 21 then [2]
  else [3]

/-- The fields of FAULT_INJECT. -/
def faultInjectFields : List Fld :=
  [ fVal 0 1 (fun v => if v == 63 then some .badarg else orElse (v ≤ 62) .range),
    fDep 1 1 (fun _ p => if inRange (u8 p 1) 1 3 then orElse ((injectionKinds (u8 p 0)).contains (u8 p 1)) .notsup else some .badarg),
    fBits 2 1 7, fDep 3 1 (fun _ p => orElse (u8 p 3 == siteKindOf (u8 p 0)) .badarg),
    fDep 4 4 (fun _ p => orElse (siteExists (u8 p 3) (u32 p 4)) .range),
    fDep 8 2 (fun _ p => orElse (u16 p 8 != 0 || !bit (u8 p 2) 0) .badarg), fRsv 10 2, fAny 12 4 ]

/-- Arms a point in place of the one of its bit, kind and site; FLT_LATCH bit 63 is set and the arming logged. -/
def armPoint (i : Nat) (b : Bytes) (s : State) : State :=
  let p : InjPoint := { bit := u8 b 0, kind := u8 b 1, flags := u8 b 2, siteKind := u8 b 3, siteIndex := u32 b 4, left := u16 b 8
                        intervalUs := u32 b 12 }
  let s1 := modFlt (fun f => { f with points :=
    (f.points.filter fun x => !(x.bit == p.bit && x.kind == p.kind && x.siteIndex == p.siteIndex)) ++
      (if bit p.flags 0 then [p] else []) }) s
  if bit p.flags 0 then
    latchBit 63 (kilnEvent 0x0E07 p.bit false (pack [(1, p.siteKind), (4, p.siteIndex), (1, p.kind), (4, p.left), (1, i)]) s1)
  else s1

/-- FAULT_INJECT as the opcode tables of Icoux give it (R514 to R520), with the checks of its fields. -/
def opFaultInject : OpDef := { writeOp 0x0E08 16 faultInjectFields with role := .admin, grant := fun s _ _ => s.flt.testMode }

/-- FAULT_INJECT (R442). -/
def execFaultInject (c : Cmd) (s : State) : Host.Outcome State Fault Refusal :=
  .next (icoux opFaultInject c (fun i b s =>
    okWrite (armPoint i b s)) s)

/-! ### FAULT_POLICY (R436) -/

/-- The fault bits a mask names: bit 63 is ignored. -/
def policyBits (p : Bytes) : Nat := u64 p 0 % 2 ^ 63

/-- The fields of FAULT_POLICY. -/
def faultPolicyFields (read : Bool) : List Fld :=
  [ (fDep 0 8 fun _ p => orElse (if read then isPow2 (policyBits p) else policyBits p != 0) .badarg).asKey,
    fRange 8 1 1 3 .badarg, fBits 9 1 1, fVal 10 2 (fun v => orElse (v != 0) .badarg), fRange 12 2 0 60000 .range,
    fNonzero 14 2 10 60000 ]

/-- FAULT_POLICY_WRITE as the opcode tables of Icoux give it (R514 to R520), with the checks of its fields. -/
def opFaultPolicyWrite : OpDef := { writeOp 0x0E01 16 (faultPolicyFields false) with role := .admin }

/-- FAULT_POLICY write. -/
def execFaultPolicyWrite (c : Cmd) (s : State) : Host.Outcome State Fault Refusal :=
  .next (icoux opFaultPolicyWrite c (fun _ b s =>
    let v : Policy := { maxLevel := u8 b 8, flags := u8 b 9, repeatLimit := u16 b 10, graceMs := u16 b 12, quietMs := u16 b 14 }
    okWrite (forMask 63 (policyBits b) (fun k s => modFlt (fun f => { f with policy := tabSet (policyDefault k) k v f.policy }) s) s)) s)

/-- FAULT_POLICY_READ as the opcode tables of Icoux give it (R514 to R520), with the checks of its fields. -/
def opFaultPolicyRead : OpDef := readOp 0x0E02 16 (faultPolicyFields true)

/-- FAULT_POLICY read. -/
def execFaultPolicyRead (c : Cmd) (s : State) : Host.Outcome State Fault Refusal :=
  .next (icoux opFaultPolicyRead c (fun _ b s =>
    let v := policyOf s (policyBits b).log2
    okReply s (image 16 [(0, 8, u64 b 0), (8, 1, v.maxLevel), (9, 1, v.flags), (10, 2, v.repeatLimit), (12, 2, v.graceMs),
      (14, 2, v.quietMs)])) s)

/-! ### FAULT_ACTION (R437) -/

/-- The fields of FAULT_ACTION. -/
def faultActionFields : List Fld :=
  [ fRange 0 1 0 62 .range, fRange 1 1 1 5 .badarg, fAny 2 1, fRsv 3 1, fAny 4 4, fRsv 8 8 ]

/-- RELEASE: the hold ends; a grace period starts now, or the site is evaluated at once. -/
def releaseSite (x : Site) (s : State) : State :=
  let ms := (policyOf s x.bit).graceMs
  let s1 := modSite x.bit x.kind x.index (fun v => { v with held := false, grace := graceFrom s ms }) s
  if ms == 0 then evaluateSite { x with held := false, grace := none } s1 else s1

/-- What an action does to the site it names, and STATE where the site does not permit it. -/
def actOnSite (a : Nat) (x : Site) (s : State) : CmdResult :=
  match a with
  | 5 => if x.level == .fenced then okWrite (unfence x.bit x.kind x.index s) else badAll .state
  | _ =>
    if x.level == .fenced then badAll .state
    else match a with
      | 2 => okWrite (modSite x.bit x.kind x.index (fun v => { v with held := true, grace := none }) s)
      | 3 => okWrite (releaseSite x s)
      | _ => okWrite (fenceSite x s)

/-- FAULT_ACTION as the opcode tables of Icoux give it (R514 to R520), with the checks of its fields. -/
def opFaultAction : OpDef := { writeOp 0x0E03 16 faultActionFields with grant := fun s i p => u8 p 1 != 5 || roleOf s i == 1 }

/-- FAULT_ACTION (R437). -/
def execFaultAction (c : Cmd) (s : State) : Host.Outcome State Fault Refusal :=
  .next (icoux opFaultAction c (fun i b s =>
    let bt := u8 b 0
    let log := fun (s : State) => kilnEvent 0x0E04 bt false (pack [(1, u8 b 2), (4, u32 b 4), (1, u8 b 1), (1, i)]) s
    if u8 b 1 == 1 then
      okWrite (noteAlert (alertOn s) (modFlt (fun f => { f with latch := f.latch &&& ~~~(BitVec.ofNat 64 (2 ^ bt)) }) (log s)))
    else if u8 b 1 == 4 && (fenceOf bt == .none || fenceOf bt == .device) then badAll .badarg
    else match siteAt s bt (u8 b 2) (u32 b 4) with
      | none => badAll .state
      | some x => match actOnSite (u8 b 1) x s with
        | .done _ .. => actOnSite (u8 b 1) x (log s)
        | r => r) s)

/-! ### FAULT_STATUS and FAULT_SITES (R438) -/

def levelCode : Level → Nat
  | .quiet => 0 | .contained => 1 | .fenced => 2

/-- FAULT_STATUS as the opcode tables of Icoux give it (R514 to R520), with the checks of its fields. -/
def opFaultStatus : OpDef := requestOp 0x0E04 8 [fRange 0 1 0 63 .range, fRsv 1 7]

/-- FAULT_STATUS. -/
def execFaultStatus (c : Cmd) (s : State) : Host.Outcome State Fault Refusal :=
  .next (icoux opFaultStatus c (fun _ p s =>
    let b := u8 p 0
    let xs := s.flt.sites.filter fun x => x.bit == b
    let v := tabGet {} s.flt.stats b
    okReply s (image 32 [(0, 1, b), (1, 1, (xs.map fun x => levelCode x.level).foldl max 0), (2, 2, xs.length), (4, 4, v.raises),
      (8, 4, v.escalations), (12, 4, v.recoveries), (16, 8, v.sec), (24, 4, v.ns)])) s)

/-- The whole milliseconds from now until `t`, rounded up, saturating. -/
def msUntil (s : State) (t : Nat) : Nat := min 65535 (ceilDiv (t - s.now) tMs)

/-- The 16-byte entry of a site. -/
def siteEntry (s : State) (x : Site) : Bytes :=
  let quiet := if x.level == .contained then msUntil s (x.last + (policyOf s x.bit).quietMs * tMs) else 0
  image 16 [(0, 1, x.bit), (1, 1, levelCode x.level), (2, 1, x.kind),
    (3, 1, b2n x.held + 2 * b2n x.injected + 4 * b2n (insideFence s x)), (4, 4, x.index), (8, 2, min 65535 x.count),
    (10, 2, match x.grace with | some t => msUntil s t | none => 0), (12, 2, quiet)]

/-- FAULT_SITES as the opcode tables of Icoux give it (R514 to R520), with the checks of its fields. -/
def opFaultSites : OpDef := requestOp 0x0E05 8 [fRange 0 4 0 1023 .range, fRsv 4 4]

/-- FAULT_SITES. -/
def execFaultSites (c : Cmd) (s : State) : Host.Outcome State Fault Refusal :=
  .next (icoux opFaultSites c (fun _ p s =>
    let xs := (s.flt.sites.drop (u32 p 0)).take 256
    .done s .ok (toLe 2 xs.length ++ toLe 2 s.flt.sites.length) (xs.flatMap (siteEntry s))) s)

/-! ### The control complex and the collector (R433, R440) -/

/-- The commands of a restarted task end. -/
def endTask (ids : List Nat) (st : Status) (s : State) : State := ids.foldl (fun s id => endRunning id st (toLe 2 0xFFFF) [] s) s

/-- CC_MEMORY (R433): a code word is reloaded; a data word restarts its task, whose commands `ids` end with INTEGRITY. `late` says that
the containment overran its bound. -/
def execCcMemory (code : Bool) (ids : List Nat) (late : Bool) (s : State) : Host.Outcome State Fault Refusal :=
  .next (raiseFault 57 0 0 late (if code then s else endTask ids .integrity s))

/-- CC_WATCHDOG (R433): the core is reset; the commands `ids` of its tasks end with TIMEOUT. -/
def execCcWatchdog (core : Fin 4) (ids : List Nat) (late : Bool) (s : State) : Host.Outcome State Fault Refusal :=
  .next (raiseFault 58 17 core.val late (endTask ids .timeout s))

/-- FW_CHECK (R433): the owning task is restarted and the hardware rewritten from Icoux's copy. -/
def execFwCheck (ids : List Nat) (late : Bool) (s : State) : Host.Outcome State Fault Refusal :=
  .next (raiseFault 59 0 0 late (endTask ids .integrity s))

/-- A site whose detector still asserts is recreated at CONTAINED with a new grace period. -/
def recreateSite (s : State) (x : Nat × Nat × Nat) : Site :=
  { bit := x.1, kind := x.2.1, index := x.2.2, level := .contained, last := s.now, grace := graceFrom s (policyOf s x.1).graceMs }

/-- FLT_SELF (R433, R440): the site table is rebuilt from the detectors that still assert, keeping the fenced sites; `bad` is a kiln
record with an uncorrectable word. -/
def execFltSelf (asserted : List (Nat × Nat × Nat)) (bad : Option Nat) (s : State) : Host.Outcome State Fault Refusal :=
  let fenced := s.flt.sites.filter fun x => x.level == .fenced
  let new := asserted.eraseDups.filter fun x =>
    x.1 ≤ 62 && x.2.1 == siteKindOf x.1 && siteExists x.2.1 x.2.2 && !fenced.any (siteIs x.1 x.2.1 x.2.2)
  let mark := fun (l : List KilnRec) => match bad with
    | none => l
    | some i => l.mapIdx fun j r => if j + i + 1 == l.length then { r with bad := true } else r
  .next (raiseFault 62 0 0 false (modFlt (fun f => { f with
    sites := (fenced ++ new.map (recreateSite s)).take 1024, kiln := mark f.kiln }) s))

/-! ### The kiln log's window and commands (R445, R449, R450) -/

/-- A record as it reads (R445, R449). -/
def recordBytes (r : KilnRec) : Bytes :=
  if r.bad then image 32 [(0, 2, 0x0EFF), (4, 4, r.seq.toNat)]
  else
    image 20 [(0, 2, r.code), (2, 2, r.times), (4, 4, r.seq.toNat), (8, 4, r.sec), (12, 4, r.ns), (16, 1, r.faultBit),
      (17, 1, b2n r.holdover + 2 * b2n r.injected + 4 * b2n r.preReset), (18, 2, r.lastMs)] ++ slice r.data 0 12

/-- Up to `n` records from index `i`, the oldest being record 0. -/
def kilnRecords (s : State) (i n : Nat) : List Bytes := ((s.flt.kiln.reverse.drop i).take n).map recordBytes

/-- KLN_CURSOR_WRITE (R449). -/
def execKlnCursorWrite (v : BitVec 32) (s : State) : Host.Outcome State Fault Refusal :=
  if !barLive s then .next s
  else .next (modFlt (fun f => { f with cursor := v &&& 0x7FFF, latching := true }) s)

/-- KLN_WINDOW_LATCHED (R449): positions beyond the log read zero. -/
def execKlnWindowLatched (s : State) : Host.Outcome State Fault Refusal :=
  if s.flt.latching then
    .next (modFlt (fun f => { f with latching := false, window := slice (kilnRecords s f.cursor.toNat 128).flatten 0 4096 }) s)
  else .next s

/-- KILN_READ as the opcode tables of Icoux give it (R514 to R520), with the checks of its fields. -/
def opKilnRead : OpDef := requestOp 0x0E09 8 [fRange 0 2 0 32767 .range, fNonzero 2 2 1 128, fRsv 4 4]

/-- KILN_READ (R450, R512). -/
def execKilnRead (c : Cmd) (s : State) : Host.Outcome State Fault Refusal :=
  .next (icoux opKilnRead c (fun _ p s =>
    let rs := kilnRecords s (u16 p 0) (u16 p 2)
    .done s .ok (toLe 2 rs.length) rs.flatten) s)

/-- Whether a record's seq is at or before `upto`, compared modulo 2^32 against KLN_NEXT_SEQ. -/
def seqUpTo (next upto seq : BitVec 32) : Bool := (next - upto).toNat ≤ (next - seq).toNat

/-- KILN_CLEAR as the opcode tables of Icoux give it (R514 to R520), with the checks of its fields. -/
def opKilnClear : OpDef := { writeOp 0x0E0A 8 [fAny 0 4, fRsv 4 4] with role := .admin }

/-- KILN_CLEAR (R450). -/
def execKilnClear (c : Cmd) (s : State) : Host.Outcome State Fault Refusal :=
  .next (icoux opKilnClear c (fun i p s =>
    let upto := BitVec.ofNat 32 (u32 p 0)
    let keep := s.flt.kiln.filter fun r => !seqUpTo s.flt.nextSeq upto r.seq
    let n := s.flt.kiln.length - keep.length
    let s1 := modFlt (fun f => { f with kiln := keep, newestIsLast := f.newestIsLast && !keep.isEmpty }) s
    .done (kiln 0x0E0B [(4, u32 p 0), (4, n), (1, i)] s1) .ok (toLe 4 n) []) s)

end Sys2Proof.Machine
end

