-- ==== Sys2Proof/Machine/HostRegs.lean ====
section
/-!
DEFINITION. The direct registers of BAR0 and the PCI Express interface (R452 to R458, R466 to R468, R474, R481, R482, R500).
-/

namespace Sys2Proof.Machine

/-! ### What BAR0 reads (R455 to R458) -/

/-- The code of STAGE (R456). -/
def stageCode : Stage → Nat
  | .bisque => 0 | .glazeInit => 1 | .ready => 2 | .failed => 3 | .warmRestart => 4

/-- HST_STATUS (R456). -/
def hstStatus (s : State) : Nat := stageCode s.boot.stage + 256 * s.boot.bootError + 65536 * b2n s.boot.capsReady

/-- HST_FW_VERSION: zero before the glaze stage (R455). -/
def fwVersion (s : State) : Nat := if s.boot.stage == .bisque then 0 else s.boot.running.version

/-- The code of a slot's STATE (R457). -/
def slotStateCode : SlotState → Nat
  | .free => 0 | .pending => 1 | .opened => 2 | .closing => 3

/-- HST_MBX_STATUS (R457). -/
def slotStatus (v : Slot) : Nat := slotStateCode v.state + 4 * b2n v.i3c + 8 * b2n v.limited + 16 * v.role

/-- The header of a capability, and its body (R466, R500): `off` is its own BAR0 offset, `next` the next one's. -/
def capability (id next : Nat) (body : Bytes) : Bytes :=
  toLe 2 id ++ toLe 1 1 ++ toLe 1 (body.length / 8) ++ toLe 3 next ++ toLe 1 1 ++ body

/-- The capability region (R467, R500, R501). -/
def capRegion (s : State) : Bytes :=
  capability 1 0x40020 (toLe 4 s.boot.running.version ++ slice s.boot.capModes 0 3 ++ toLe 1 s.boot.slot ++ toLe 8 Config.serial.toNat ++ toLe 8 0) ++
  capability 2 0x40030 ([32, 40] ++ toLe 2 4096 ++ [4, 10, 8, 0]) ++
  capability 3 0x40048 (List.replicate 15 1 ++ [0]) ++
  capability 4 0x40058 (toLe 2 64 ++ toLe 2 192 ++ toLe 4 65536) ++
  capability 5 0x40068 (toLe 4 65536 ++ toLe 2 64 ++ [1, 0]) ++
  capability 6 0x40078 ([1, 0] ++ toLe 2 1024 ++ toLe 4 0) ++
  capability 7 0x40088 (toLe 4 32768 ++ toLe 2 32 ++ toLe 2 0) ++
  capability 8 0 ([1, 0x3A] ++ toLe 2 68 ++ toLe 2 68 ++ toLe 2 0)

/-- A register of mailbox slot `v` at offset `o` of its page (R457). -/
def slotReg (v : Slot) (o : Nat) : Nat :=
  if o == 0 then v.ctrl.toNat
  else if o == 4 then slotStatus v
  else if o == 8 then (v.cmdBase.extractLsb' 0 32).toNat
  else if o == 0xC then (v.cmdBase.extractLsb' 32 32).toNat
  else if o == 0x10 then (v.cplBase.extractLsb' 0 32).toNat
  else if o == 0x14 then (v.cplBase.extractLsb' 32 32).toNat
  else if o == 0x18 then v.cmdHead.toNat
  else if o == 0x1C then v.cplTail.toNat
  else if o == 0x20 then v.cplHead.toNat
  else if o == 0x24 then v.faults.toNat
  else 0

/-- A register of a ring page (R458). -/
def ringReg (v : Ring) (o : Nat) : Nat :=
  if o == 0 then v.rxTail.toNat
  else if o == 4 then v.txTail.toNat
  else if o == 8 then v.rxHead.toNat
  else if o == 0xC then v.txHead.toNat
  else 0

/-- Dword `w` of the pending bits. -/
def pbaDword (s : State) (w : Nat) : Nat :=
  ((List.range 32).map fun i => if tabGet false s.host.pba (32 * w + i) then 2 ^ i else 0).foldl (· + ·) 0

/-- The registers that are live from the end of the boot ROM's self-test (R431, R532). -/
def bar0Early (s : State) (off : Nat) : Nat :=
  if off == 0 then 0x00A01024
  else if off == 4 then hstStatus s
  else if off == 0x1000 then fltStatus s % 2 ^ 32
  else if off == 0x1004 then fltStatus s / 2 ^ 32
  else if off == 0x1008 then (s.flt.latch.extractLsb' 0 32).toNat
  else if off == 0x100C then (s.flt.latch.extractLsb' 32 32).toNat
  else if off == 0x1010 then (s.flt.alertEn.extractLsb' 0 32).toNat
  else if off == 0x1014 then (s.flt.alertEn.extractLsb' 32 32).toNat
  else if off == 0x1018 then s.flt.raises.toNat
  else if off == 0x1020 then b2n s.flt.testMode
  else if off == 0x2000 then s.flt.kiln.length
  else if off == 0x2004 then s.flt.nextSeq.toNat
  else if off == 0x2008 then s.flt.cursor.toNat
  else if inRange off 0x3000 0x3FFF then field (slice s.flt.window (off - 0x3000) 4) 0 4
  else 0

/-- What an aligned 32-bit read of BAR0 returns; a reserved offset and a write-only register read zero (R453, R455). The effects of
reading the counts that clear are RC_COUNTER_READ's. -/
def bar0 (s : State) (off : Nat) : Nat :=
  if !barLive s then 0
  else if off == 0 || off == 4 || inRange off 0x1000 0x3FFF then bar0Early s off
  else if !barFull s then 0
  else if off == 8 then fwVersion s
  else if off == 0xC then if s.boot.capsReady then 0x40000 else 0
  else if off == 0x10 then s.host.scratch.toNat
  else if off == 0x14 then s.host.errCount.toNat
  else if inRange off 0x4000 0x400F then (tabGet 0 s.host.ntfCons ((off - 0x4000) / 4)).toNat
  else if inRange off 0x10000 0x11FFF then slotReg (slotOf s ((off - 0x10000) / 0x100)) (off % 0x100)
  else if inRange off 0x30000 0x30BFF then (msixDword s ((off - 0x30000) / 4)).toNat
  else if inRange off 0x31000 0x31017 then pbaDword s ((off - 0x31000) / 4)
  else if inRange off 0x40000 0x4FFFF then if s.boot.capsReady then field (slice (capRegion s) (off - 0x40000) 4) 0 4 else 0
  else if inRange off 0x200000 0x23FFFF then ringReg (ringOf s ((off - 0x200000) / 0x1000)) (off % 0x1000)
  else 0

/-! ### Ignored accesses and plain registers (R453, R455) -/

/-- An ignored access is counted in HST_ERR_COUNT, which saturates. -/
def ignored (s : State) : State := modHost (fun h => { h with errCount := BitVec.ofNat 32 (satAdd 32 h.errCount.toNat 1) }) s

/-- INVALID_BAR_ACCESS (R453): an access of a wrong size, alignment or target. -/
def execInvalidBarAccess (bar2 write : Bool) (s : State) : Host.Outcome State Fault Refusal :=
  if !barLive s then .next s
  else
    let s1 := if barFull s && (bar2 || write) then ignored s else s
    .next (if write then s1 else emit (.barRead 0) s1)

/-- A write of dword `i` of the MSI-X table: a pending vector that is unmasked is sent. -/
def writeMsix (i : Nat) (v : BitVec 32) (s : State) : State :=
  let ctl := i % 4 == 3
  let x := if ctl then v &&& 1 else v
  let s1 := modHost (fun h => { h with msixTable := tabSet (if ctl then 1 else 0) i x h.msixTable }) s
  let n := i / 4
  if ctl && !v.getLsbD 0 && tabGet false s1.host.pba n then
    emit (.vector n) (modHost (fun h => { h with pba := tabDel n h.pba }) s1)
  else s1

/-- A write of one half of a base of slot `i` (R457). -/
def writeBase (i o : Nat) (v : BitVec 32) (s : State) : State :=
  let sl := slotOf s i
  let put := fun (x : BitVec 64) (hi : Bool) => if hi then withHalves x none (some v) else withHalves x (some v) none
  if sl.ctrl.getLsbD 0 || sl.i3c then ignored s
  else if o < 0x10 then setSlot i { sl with cmdBase := put sl.cmdBase (o == 0xC) } s
  else setSlot i { sl with cplBase := put sl.cplBase (o == 0x14) } s

/-- Whether a write at this offset is a command of its own. -/
def hasOwnWrite (off : Nat) : Bool :=
  inRange off 0x1008 0x1017 || inRange off 0x101C 0x101F || inRange off 0x2008 0x200B || inRange off 0x4000 0x400F ||
  (inRange off 0x10000 0x11FFF && (off % 0x100 == 0 || off % 0x100 == 0x20)) ||
  (inRange off 0x100000 0x11FFFF && off % 0x1000 == 0) ||
  (inRange off 0x200000 0x23FFFF && (off % 0x1000 == 0 || off % 0x1000 == 4))

/-- REGISTER_WRITE (R453, R455): an aligned 32-bit write of a register without behaviour of its own. -/
def execRegisterWrite (off : Nat) (v : BitVec 32) (s : State) : Host.Outcome State Fault Refusal :=
  if !barFull s || hasOwnWrite off then .next s
  else if off == 0x10 then .next (modHost (fun h => { h with scratch := v }) s)
  else if inRange off 0x30000 0x30BFF && off % 4 == 0 then .next (writeMsix ((off - 0x30000) / 4) v s)
  else if inRange off 0x10000 0x11FFF && (off % 0x100 == 8 || off % 0x100 == 0xC || off % 0x100 == 0x10 || off % 0x100 == 0x14) then
    .next (writeBase ((off - 0x10000) / 0x100) (off % 0x100) v s)
  else .next (ignored s)

/-- RC_COUNTER_READ (R455, R457): HST_ERR_COUNT, or HST_MBX_FAULTS of a slot, is read and cleared. -/
def execRcCounterRead (slot : Option SlotNo) (s : State) : Host.Outcome State Fault Refusal :=
  if !barLive s then .next s
  else if !barFull s then .next (emit (.barRead 0) s)
  else match slot with
    | none => .next (emit (.barRead s.host.errCount.toNat) (modHost (fun h => { h with errCount := 0 }) s))
    | some i => .next (emit (.barRead (slotOf s i.val).faults.toNat) (modSlot i.val (fun v => { v with faults := 0 }) s))

/-! ### Mailbox registers (R457, R458, R462, R481) -/

/-- The entries of a slot's command and completion rings: none while ENABLE is clear. -/
def cmdEntries (v : Slot) : Nat := if v.ctrl.getLsbD 0 then 2 ^ bits v.ctrl.toNat 8 4 else 0
def cplEntries (v : Slot) : Nat := if v.ctrl.getLsbD 0 then 2 ^ bits v.ctrl.toNat 12 4 else 0

/-- Whether the orders of a control word and a slot's bases permit ENABLE. -/
def mayEnable (v : Slot) (ctrl : BitVec 32) : Bool :=
  inRange (bits ctrl.toNat 8 4) 4 10 && inRange (bits ctrl.toNat 12 4) 4 10 &&
    v.cmdBase.toNat % 4096 == 0 && v.cplBase.toNat % 4096 == 0

/-- The four indices of a slot set to zero. -/
def slotZeroed (v : Slot) : Slot := { v with cmdHead := 0, cmdProd := 0, cplTail := 0, cplHead := 0 }

/-- HST_MBX_CTRL_WRITE (R457, R462, R465). -/
def execHstMbxCtrlWrite (i : SlotNo) (v : BitVec 32) (s : State) : Host.Outcome State Fault Refusal :=
  let sl := slotOf s i.val
  let c := v &&& 0x1FF01
  if !barFull s then .next s
  else if sl.i3c then .next (ignored s)
  else if !c.getLsbD 0 then
    if sl.ctrl.getLsbD 0 then
      .next (modSlot i.val (fun x => { slotZeroed x with ctrl := c }) (closeAbrupt i.val 2 s))
    else .next (setSlot i.val { sl with ctrl := c } s)
  else if !mayEnable sl c then .next (ignored s)
  else if sl.ctrl.getLsbD 0 then
    if bits c.toNat 8 8 == bits sl.ctrl.toNat 8 8 then .next (setSlot i.val { sl with ctrl := c } s) else .next (ignored s)
  else if sl.state == .free && !mailboxFenced s i.val then .next (setSlot i.val { sl with ctrl := c, state := .pending } s)
  else .next (setSlot i.val { sl with ctrl := c } s)

/-- Whether a producer's write of `v` over `u`, to a ring of `n` entries whose consumer stands at `h`, is a doorbell fault. -/
def doorbellBad (v u h : BitVec 32) (n : Nat) : Bool := n < (v - h).toNat || n < (v - u).toNat

/-- The same test of a consumer's write of `v` over `u`, to a ring whose producer stands at `t`. -/
def consumerBad (v u t : BitVec 32) (n : Nat) : Bool := n < (t - v).toNat || n < (v - u).toNat

/-- A doorbell fault of session `i` (R481): kinds 1 command, 2 completion head, 3 receive, 4 transmit. -/
def doorbellFault (i kind idx : Nat) (s : State) : State :=
  transportFault i (raiseFault 61 19 i false (kiln 0x0105 [(1, i), (1, kind), (4, idx)] s))

/-- HST_MBX_DB (R458, R461). -/
def execHstMbxDb (i : SlotNo) (v : BitVec 32) (s : State) : Host.Outcome State Fault Refusal :=
  let sl := slotOf s i.val
  if !barFull s then .next s
  else if sl.i3c then .next (ignored s)
  else if doorbellBad v sl.cmdProd sl.cmdHead (cmdEntries sl) then .next (doorbellFault i.val 1 i.val s)
  else .next (setSlot i.val { sl with cmdProd := v } s)

/-- HST_MBX_CPL_HEAD_WRITE (R458, R461). -/
def execHstMbxCplHeadWrite (i : SlotNo) (v : BitVec 32) (s : State) : Host.Outcome State Fault Refusal :=
  let sl := slotOf s i.val
  if !barFull s then .next s
  else if sl.i3c then .next (ignored s)
  else if consumerBad v sl.cplHead sl.cplTail (cplEntries sl) then .next (doorbellFault i.val 2 i.val s)
  else .next (setSlot i.val { sl with cplHead := v } s)

/-- SESSION_CLOSE_DONE (R465): an abruptly closed slot becomes FREE. -/
def execSessionCloseDone (i : SlotNo) (s : State) : Host.Outcome State Fault Refusal :=
  let sl := slotOf s i.val
  if sl.state != .closing then .next s
  else if sl.i3c then .next (setSlot i.val (slotCleared sl) s)
  else .next (setSlot i.val
    { slotCleared sl with ctrl := sl.ctrl, cmdBase := sl.cmdBase, cplBase := sl.cplBase, cmdHead := sl.cmdHead, cmdProd := sl.cmdProd,
                          cplTail := sl.cplTail, cplHead := sl.cplHead, faults := sl.faults } s)

/-! ### The link (R454) -/

/-- The mailbox slots return to their reset values; an open session shows CLOSING until its slot is free. -/
def resetSlot (cause : Nat) (s : State) (i : Nat) : State :=
  if (slotOf s i).i3c then s
  else
    let s1 := closeAbrupt i cause s
    modSlot i (fun v => { slotCleared v with state := if v.state == .closing then .closing else .free }) s1

/-- PCIE_INTERFACE_LOST (R454, R485): the link leaves DL_Active, or, with `flr`, a function level reset leaves it up. -/
def execPcieInterfaceLost (flr : Bool) (s : State) : Host.Outcome State Fault Refusal :=
  if !s.host.linkUp then .next s
  else
    let s1 := (List.range 32).foldl (resetSlot (if flr then 5 else 3)) s
    let s2 := (List.range 64).foldl (fun s g =>
      match (fwdPipe s g).window.session with | some i => delegate i 0 g s | none => s) (disableRings (fun _ => true) s1)
    let s3 := count cIfLinkDowns 0 1 (modHost (fun h => { h with msixTable := [], pba := [] }) s2)
    if flr then .next s3
    else .next (raiseFault 60 18 0 false
      (kiln 0x0106 [(1, 0), (1, s.host.linkSpeed), (1, s.host.linkWidth)] (modHost (fun h => { h with linkUp := false }) s3)))

/-- PCIE_LINK_UP (R452, R454): the link trains at a speed in GT/s and a width. -/
def execPcieLinkUp (speed width : Nat) (s : State) : Host.Outcome State Fault Refusal :=
  if s.host.linkUp || s.boot.resetLow || !s.boot.powered || !s.boot.romRan then .next s
  else if !([2, 5, 8, 16, 32, 64] : List Nat).contains speed || !([1, 2, 4, 8] : List Nat).contains width then .next s
  else .next (kiln 0x0106 [(1, 1), (1, speed), (1, width)]
    (modHost (fun h => { h with linkUp := true, linkSpeed := speed, linkWidth := width }) s))

end Sys2Proof.Machine
end

