-- ==== Sys2Proof/Machine/Session.lean ====
section
/-!
DEFINITION. Completions, sessions, their limits, and the commands of groups 0x01 and 0x02 (R460 to R469, R482, R493, R498 to R501).
-/

namespace Sys2Proof.Machine

/-! ### Completions (R460, R461, R478) -/

/-- Whether an ended command's session lies on I3C; a NORES answer has no slot. -/
def endedOnI3c (s : State) (e : Ended) : Bool := 32 ≤ e.slot || (slotOf s e.slot).i3c

/-- The completion of an ended command. -/
def completionBytes (e : Ended) (phase : Bool) : Bytes :=
  let truncated := decide (e.replyMax < e.reply.length)
  toLe 2 e.tag ++ toLe 2 (statusCode e.status) ++ toLe 2 e.opcode ++ toLe 1 (b2n phase + 2 * b2n e.transport + 4 * b2n truncated) ++
    toLe 1 e.apply ++ toLe 4 e.reply.length ++ toLe 1 e.slot ++ toLe 3 0 ++ slice e.data 0 16

/-- Whether the completion of `e` waits for the session's other commands: SESSION_CLOSE and SESSION_SYNC complete after them (R465,
R493). -/
def completesLast (e : Ended) : Bool := e.opcode == 0x0102 && e.status == .ok || e.opcode == 0x0103 && e.status == .ok

/-- Whether a completion may be written now. -/
def mayComplete (s : State) (e : Ended) : Bool :=
  let sl := slotOf s e.slot
  let room := if endedOnI3c s e then decide (s.host.i3c.queue.length < 64)
    else s.host.linkUp && decide ((sl.cplTail - sl.cplHead).toNat < cplEntries sl)
  room && (!completesLast e || inProgressCount s e.slot == 1)

/-- Writes a completion to its session's ring, after the reply. -/
def writeCompletion (e : Ended) (s : State) : State :=
  let sl := slotOf s e.slot
  let n := cplEntries sl
  let t := sl.cplTail.toNat
  let r := e.reply.take e.replyMax
  let s1 := if r.isEmpty then s else emit (.hostWrite e.replyAddr.toNat r) s
  let s2 := emit (.hostWrite (sl.cplBase.toNat + 32 * (t % n)) (completionBytes e (t / n % 2 == 0))) s1
  let s3 := setSlot e.slot { sl with cplTail := sl.cplTail + 1 } s2
  if sl.ctrl.getLsbD 16 then signal (128 + e.slot) s3 else s3

/-- Queues a completion for I3C; the reply is kept in the session's reply buffer. -/
def queueCompletion (e : Ended) (s : State) : State :=
  let empty := s.host.i3c.queue.isEmpty
  let s1 := if e.aside then s else modSlot e.slot (fun v => { v with reply := e.reply.take e.replyMax }) s
  let s2 := modHost (fun h => { h with i3c := { h.i3c with queue := h.i3c.queue ++ [(e.slot, completionBytes e false)] } }) s1
  if empty then raiseIbi false (BitVec.ofNat 8 (0x20 + e.slot % 32)) s2 else s2

/-- What follows a completion: a closed session's slot becomes FREE, and so does that of a new I3C session that failed to open. -/
def afterCompletion (e : Ended) (s : State) : State :=
  if e.aside then s
  else if e.opcode == 0x0102 && e.status == .ok then
    let s1 := endSession e.slot 1 s
    let sl := slotOf s1 e.slot
    if sl.i3c then setSlot e.slot (slotCleared sl) s1
    else setSlot e.slot
      { slotCleared sl with ctrl := sl.ctrl, cmdBase := sl.cmdBase, cplBase := sl.cplBase, cmdHead := sl.cmdHead, cmdProd := sl.cmdProd,
                            cplTail := sl.cplTail, cplHead := sl.cplHead, faults := sl.faults } s1
  else
    let sl := slotOf s e.slot
    if sl.i3c && sl.state == .pending then setSlot e.slot (slotCleared sl) s else s

/-- COMMAND_COMPLETION (R461, R478): the completion of the `k`-th command that has ended is written, when its ring or queue has
room. -/
def execCommandCompletion (k : Nat) (s : State) : Host.Outcome State Fault Refusal :=
  match s.host.ended[k]? with
  | none => .next s
  | some e =>
    if !mayComplete s e then .next s
    else
      let s1 := if endedOnI3c s e then queueCompletion e s else writeCompletion e s
      let s2 := if 32 ≤ e.slot then s1 else count cMbxCommands e.slot 1 s1
      .next (afterCompletion e (modHost (fun h => { h with ended := dropAt h.ended k }) s2))

/-! ### Opcodes that do not exist (R481, R489) -/

/-- The number of opcodes of a group (R514 to R520). -/
def groupSize (g : Nat) : Nat := [0, 6, 3, 9, 9, 8, 0x16, 10, 12, 10, 11, 13, 7, 5, 10, 6].getD g 0

/-- Whether an opcode exists. -/
def opcodeExists (o : Nat) : Bool := inRange (o % 256) 1 (groupSize (o / 256))

/-- UNKNOWN_OPCODE (R481, R489): NOTSUP; of a group that cannot exist, a transport fault. -/
def execUnknownOpcode (c : Cmd) (opcode : BitVec 16) (s : State) : Host.Outcome State Fault Refusal :=
  let o := opcode.toNat
  let d : OpDef := { opcode := o, write := false, len := fun _ => true }
  let i := c.slot.val
  if opcodeExists o || !canTake o false i s then .next s
  else
    let c' := effectiveCmd c s
    let s1 := takeCommand i s
    let badGroup := o / 256 == 0 || 15 < o / 256
    .next (match transportBad c' (slotOf s i).i3c with
    | some .badarg => transportFault i (endCommand (endedOf d c' .badarg [] [] true) s1)
    | r =>
      if badGroup then transportFault i (endCommand (endedOf d c' .notsup [] [] true) s1)
      else if r.isSome then transferFailed d c' c'.payloadAddr s1
      else if (slotOf s i).state == .pending then endCommand (endedOf d c' .state [] [] true) s1
      else endCommand (endedOf d c' .notsup (toLe 2 0xFFFF) [] false) s1)

/-! ### Sessions (R462 to R465) -/

/-- The key of a role (R464). -/
def roleKey (s : State) (r : Nat) : Bytes := tabGet (List.replicate 16 0) s.boot.dataArea.keys r

/-- When SESSION_OPEN is accepted again on the slot, or on I3C (R482). -/
def lockedUntilOf (s : State) (i : Nat) : Nat := if (slotOf s i).i3c then s.host.i3c.lockedUntil else (slotOf s i).lockedUntil

/-- A wrong credential: the third within 60 s locks SESSION_OPEN for 60 s. -/
def wrongCredential (i : Nat) (s : State) : State :=
  let i3c := (slotOf s i).i3c
  let l := s.now :: (if i3c then s.host.i3c.wrong else (slotOf s i).wrong).filter fun t => s.now ≤ t + 60 * tSec
  let wrong := if l.length ≥ 3 then [] else l
  let put := fun (old : Nat) => if l.length ≥ 3 then s.now + 60 * tSec else old
  if i3c then modHost (fun h => { h with i3c := { h.i3c with wrong, lockedUntil := put h.i3c.lockedUntil } }) s
  else modSlot i (fun v => { v with wrong, lockedUntil := put v.lockedUntil }) s

/-- SESSION_OPEN as the opcode tables of Icoux give it (R514 to R520), with the checks of its fields; its payload is inline. -/
def opSessionOpen (inline : Bool) : OpDef :=
  { writeOp 0x0101 20 [fRange 0 1 1 3 .badarg, fRsv 1 3, fAny 4 16] with role := .any, len := fun p => p.length == 20 && inline }

/-- SESSION_OPEN (R463, R482). -/
def execSessionOpen (c : Cmd) (s : State) : Host.Outcome State Fault Refusal :=
  .next (icoux (opSessionOpen !(effectiveCmd c s).flags.getLsbD 0) c (fun i p s =>
    let sl := slotOf s i
    let role := u8 p 0
    if sl.state != .pending then badAll .state
    else if s.now < lockedUntilOf s i then badAll .denied
    else if slice p 4 16 != roleKey s role then
      .done (wrongCredential i (transportFault i (count cMbxCredential i 1 (kiln 0x0104 [(1, i), (1, role)] s)))) .denied (toLe 2 4) []
    else
      .done (kiln 0x0101 [(1, i), (1, role), (1, b2n sl.i3c)] (modSlot i (fun v => { v with state := .opened, role }) s)) .ok
        (toLe 1 i ++ toLe 1 role) []) s)

/-- SESSION_CLOSE as the opcode tables of Icoux give it (R514 to R520), with the checks of its fields. -/
def opSessionClose : OpDef := { writeOp 0x0102 0 [] with role := .any }

/-- SESSION_CLOSE (R465): what follows it in the ring is discarded. -/
def execSessionClose (c : Cmd) (s : State) : Host.Outcome State Fault Refusal :=
  .next (icoux opSessionClose c (fun i _ s =>
    okWrite (modSlot i (fun v => { v with draining := true }) s)) s)

/-- SESSION_SYNC as the opcode tables of Icoux give it (R514 to R520), with the checks of its fields. -/
def opSessionSync : OpDef := { writeOp 0x0103 0 [] with role := .any }

/-- SESSION_SYNC (R493). -/
def execSessionSync (c : Cmd) (s : State) : Host.Outcome State Fault Refusal :=
  .next (icoux opSessionSync c (fun _ _ s => okWrite s) s)

/-- ROLE_KEY as the opcode tables of Icoux give it (R514 to R520), with the checks of its fields. -/
def opRoleKey : OpDef := { writeOp 0x0104 20 [fRange 0 1 1 3 .badarg, fRsv 1 3, fAny 4 16] with role := .admin }

/-- ROLE_KEY (R464). -/
def execRoleKey (c : Cmd) (s : State) : Host.Outcome State Fault Refusal :=
  .next (icoux opRoleKey c (fun i p s =>
    okWrite (kiln 0x0109 [(1, u8 p 0), (1, i)]
      (writeArea (fun a => { a with keys := tabSet (List.replicate 16 0) (u8 p 0) (slice p 4 16) a.keys }) s))) s)

/-! ### Limits (R482) -/

/-- LIMITED_EXIT (R482): 10 s after its last fault. -/
def execLimitedExit (i : SlotNo) (s : State) : Host.Outcome State Fault Refusal :=
  let sl := slotOf s i.val
  if !sl.limited then .next s
  else .next (modSlot i.val (fun v => { v with limited := false, credit := false, faultAt := [] })
    (reach (sl.faultAt.headD s.now + 10 * tSec) s))

/-- LIMITED_COMMAND_TAKE (R482): 10 ms after its last turn a LIMITED session may have one more command taken. -/
def execLimitedCommandTake (i : SlotNo) (s : State) : Host.Outcome State Fault Refusal :=
  let sl := slotOf s i.val
  if !sl.limited then .next s
  else
    let s1 := reach (sl.lastTake + 10 * tMs) s
    .next (modSlot i.val (fun v => { v with credit := true, lastTake := s1.now }) s1)

/-- CREDENTIAL_LOCKOUT_END (R482): of a slot, or of new I3C sessions. -/
def execCredentialLockoutEnd (slot : Option SlotNo) (s : State) : Host.Outcome State Fault Refusal :=
  match slot with
  | none =>
    let t := s.host.i3c.lockedUntil
    if t == 0 then .next s else .next (modHost (fun h => { h with i3c := { h.i3c with lockedUntil := 0 } }) (reach t s))
  | some i =>
    let t := (slotOf s i.val).lockedUntil
    if t == 0 then .next s else .next (modSlot i.val (fun v => { v with lockedUntil := 0 }) (reach t s))

/-! ### DMA_RING (R469) -/

/-- Entries of a ring direction: none, or a power of two from 64 to 65,536. -/
def entriesOk (enabled : Bool) (n : Nat) : Option Status :=
  if n == 0 then orElse (!enabled) .badarg else orElse (isPow2 n && inRange n 64 65536) .range

/-- Whether slot `i` holds a session open on PCI Express. -/
def openOnPcie (s : State) (i : Nat) : Bool := i < 32 && (slotOf s i).state == .opened && !(slotOf s i).i3c

/-- The fields of DMA_RING. -/
def dmaRingFields : List Fld :=
  [ (fRange 0 1 0 63 .range).asKey, fBits 1 1 0xF, fRange 2 1 0 63 .range, fDep 3 1 (fun s p => orElse (openOnPcie s (u8 p 3)) .state),
    fDep 4 4 (fun _ p => entriesOk (bit (u8 p 1) 0) (u32 p 4)), fDep 8 4 (fun _ p => entriesOk (bit (u8 p 1) 1) (u32 p 8)),
    fRange 12 2 0 1000 .range, fRsv 14 2, fVal 16 8 (fun v => orElse (v % 4096 == 0) .badarg),
    fVal 24 8 (fun v => orElse (v % 4096 == 0) .badarg) ]

/-- Whether a write changes what an enabled direction holds fast. -/
def ringLocked (v : Ring) (p : Bytes) : Bool :=
  let o := v.obj
  (rxEnabled v && (u32 o 4 != u32 p 4 || u64 o 16 != u64 p 16 || u8 o 3 != u8 p 3)) ||
  (txEnabled v && (u32 o 8 != u32 p 8 || u64 o 24 != u64 p 24 || u8 o 2 != u8 p 2 || u8 o 3 != u8 p 3))

/-- A ring pair with a new object: the indices of a direction it leaves disabled are zero (R458). -/
def ringWritten (v : Ring) (p : Bytes) : Ring :=
  let a := if bit (u8 p 1) 0 then { v with obj := p } else { v with obj := p, rxTail := 0, rxHead := 0, rxIrqAt := none, rxIrqWaits := false }
  if bit (u8 p 1) 1 then a else { a with txTail := 0, txHead := 0, txIrqAt := none, txIrqWaits := false }

/-- Whether session `i` may write the ring pair of a DMA_RING object: ADMIN, or its owner that keeps it (R463, R469). -/
def ringMine (s : State) (i : Nat) (p : Bytes) : Bool :=
  roleOf s i == 1 || (u8 p 3 == i && (match ringOwner (ringOf s (u8 p 0)) with | some o => o == i | none => true))

/-- The command DmaRingWrite of a session on I3C or on PCI Express as Icoux checks it. -/
def opDmaRingWrite (i3c : Bool) : OpDef :=
  { writeOp 0x0105 32 (if i3c then [] else dmaRingFields) with grant := fun s i p => i3c || ringMine s i p }

/-- DMA_RING write (R469). -/
def execDmaRingWrite (c : Cmd) (s : State) : Host.Outcome State Fault Refusal :=
  let i3c := (slotOf s c.slot.val).i3c
  .next (icoux (opDmaRingWrite i3c) c (fun _ p s =>
    if i3c then badAll .notsup
    else if ringLocked (ringOf s (u8 p 0)) p then badAll .state
    else okWrite (setRing (u8 p 0) (ringWritten (ringOf s (u8 p 0)) p) s)) s)

/-- DMA_RING_READ as the opcode tables of Icoux give it (R514 to R520), with the checks of its fields. -/
def opDmaRingRead : OpDef := readOp 0x0106 32 dmaRingFields

/-- DMA_RING read (R469). -/
def execDmaRingRead (c : Cmd) (s : State) : Host.Outcome State Fault Refusal :=
  .next (icoux opDmaRingRead c (fun _ p s =>
    let o := (ringOf s (u8 p 0)).obj
    okReply s (if o.isEmpty then image 32 [(0, 1, u8 p 0)] else o)) s)

/-! ### Group 0x02 (R498 to R501) -/

/-- CAP_READ as the opcode tables of Icoux give it (R514 to R520), with the checks of its fields. -/
def opCapRead : OpDef := requestOp 0x0201 0 []

/-- CAP_READ (R501). -/
def execCapRead (c : Cmd) (s : State) : Host.Outcome State Fault Refusal :=
  .next (icoux opCapRead c (fun _ _ s => if s.boot.capsReady then okReply s (capRegion s) else badAll .state) s)

/-- The fields of MODE: profiles that change does not select are ignored. -/
def modeFields : List Fld :=
  let pick := fun (off b hi : Nat) => fDep off 1 fun _ p => orElse (!bit (u8 p 0) b || u8 p off ≤ hi) .badarg
  [ fRange 0 1 1 7 .badarg, pick 1 0 1, pick 2 1 2, pick 3 2 1, fRsv 4 4 ]

/-- Whether no port is enabled. -/
def allPortsDisabled (s : State) : Bool := !(configuredPorts s).any (portEnabled s)

/-- Whether R17, R20 and R420 permit the selected changes. -/
def modePermitted (s : State) (p : Bytes) : Bool :=
  let sel := u8 p 0
  let idle := allPortsDisabled s
  (!bit sel 2 || idle) &&
  (!bit sel 1 || !s.mat.everLoaded || (idle && !s.mat.pipes.any fun e => e.2.imageLoaded)) &&
  (!bit sel 0 || (idle && s.time.switch.phase == .idle && !(avsHold s && s.time.eased && u8 p 1 == 0)))

/-- A table change clears every FDB, LPM and STEER region (R499). -/
def changeTable (n : Nat) (s : State) : State :=
  let s1 := modFwd (fun t => { t with pipes := t.pipes.map fun e =>
    (e.1, { e.2 with fdb := [], poisoned := [], routes := [], freeing := [], learn := [], hostLookup := [] }) }) s
  modMat (fun t => { t with stages := t.stages.map fun e =>
    (e.1, { e.2 with exact := [], tern := [], poisoned := [], retiredRows := [] }) }) { s1 with tableProfile := n }

/-- The changes a MODE write makes: those selected whose value differs. -/
def modeMade (s : State) (p : Bytes) : Nat :=
  let sel := u8 p 0
  b2n (bit sel 0 && u8 p 1 != b2n s.time.eased) + 2 * b2n (bit sel 1 && u8 p 2 != s.tableProfile) +
    4 * b2n (bit sel 2 && u8 p 3 != s.bufferProfile)

/-- Starts a clock-profile change (R45, R419): to FULL, VDD_CORE rises first. -/
def startSwitch (eased : Bool) (made id : Nat) (s : State) : State :=
  raiseDone (modTime (fun t => { t with switch :=
    { phase := if eased then .staged else .raising, newEased := eased, began := s.now, run := some id, data := toLe 1 made } }) s)

/-- MODE_WRITE as the opcode tables of Icoux give it (R514 to R520), with the checks of its fields. -/
def opModeWrite : OpDef := { writeOp 0x0202 8 modeFields with role := .admin }

/-- MODE write (R499). -/
def execModeWrite (c : Cmd) (s : State) : Host.Outcome State Fault Refusal :=
  .next (icoux opModeWrite c (fun _ p s =>
    if !modePermitted s p then badAll .state
    else
      let made := modeMade s p
      let s1 := if bit made 2 then { s with bufferProfile := u8 p 3 } else s
      let s2 := if bit made 1 then changeTable (u8 p 2) s1 else s1
      if bit made 0 then .later fun id => startSwitch (u8 p 1 == 1) made id s2
      else .done (modeChanged made s2) .ok (toLe 1 made) []) s)

/-- MODE_READ as the opcode tables of Icoux give it (R514 to R520), with the checks of its fields. -/
def opModeRead : OpDef := requestOp 0x0203 0 []

/-- MODE read (R498). -/
def execModeRead (c : Cmd) (s : State) : Host.Outcome State Fault Refusal :=
  .next (icoux opModeRead c (fun _ _ s =>
    okReply s (image 8 [(1, 1, b2n s.time.eased), (2, 1, s.tableProfile), (3, 1, s.bufferProfile)])) s)

end Sys2Proof.Machine
end

