-- ==== Sys2Proof/Machine/Upload.lean ====
section
/-!
DEFINITION. Uploads and the signature-set commands (R502, R503, R508).
-/

namespace Sys2Proof.Machine

/-- The uploads: 0 program image, 1 signature set, 2 firmware. -/
def uploadOf (s : State) (k : Nat) : Upload := tabGet {} s.host.uploads k

/-- `s` with an upload set. -/
def setUpload (k : Nat) (v : Upload) (s : State) : State := modHost (fun h => { h with uploads := tabSet {} k v h.uploads }) s

/-- The least and the largest length of an upload. -/
def uploadMin (k : Nat) : Nat := match k with | 0 => 64 | 1 => 32 | _ => 4096
def uploadMax (k : Nat) : Nat := match k with | 0 => 134217728 | 1 => 16777216 | _ => 6291456

/-- The fields of UPLOAD_BEGIN. -/
def uploadBeginFields (k : Nat) : List Fld :=
  [fVal 0 4 (fun v => if v == 0 then some .badarg else orElse (inRange v (uploadMin k) (uploadMax k)) .range), fAny 4 4, fRsv 8 8]

/-- The BEGIN command of upload `k` as Icoux checks it. -/
def opUploadBegin (opcode k : Nat) : OpDef := { writeOp opcode 16 (uploadBeginFields k) with role := .admin }

/-- A BEGIN of upload `k`: it claims the buffer and discards what it held; `busy` says that its work runs (R497). -/
def uploadBegin (opcode k : Nat) (busy : State → Bool) (c : Cmd) (s : State) : State :=
  icoux (opUploadBegin opcode k) c (fun i p s =>
    if busy s then badAll .busy
    else match (uploadOf s k).claim with
      | some j => if j == i then okWrite (setUpload k { claim := some i, length := u32 p 0, crc := u32 p 4 } s) else badAll .busy
      | none => okWrite (setUpload k { claim := some i, length := u32 p 0, crc := u32 p 4 } s)) s

/-- The fields of UPLOAD_CHUNK from slot `i`. -/
def uploadChunkFields (k i : Nat) : List Fld :=
  [ fDep 0 4 (fun s p =>
      let v := uploadOf s k
      if u32 p 0 % 8 != 0 then some .badarg
      else orElse (v.claim != some i || u32 p 0 + (p.length - 8) ≤ v.length) .range), fRsv 4 4 ]

/-- The CHUNK command of upload `k` from slot `i` as Icoux checks it. -/
def opUploadChunk (opcode k i : Nat) : OpDef := { opcode, role := .admin, len := fun p => inRange p.length 9 4096, fields := uploadChunkFields k i }

/-- A CHUNK of upload `k`: where chunks overlap the later one wins. -/
def uploadChunk (opcode k : Nat) (c : Cmd) (s : State) : State :=
  icoux (opUploadChunk opcode k c.slot.val) c (fun i p s =>
    let v := uploadOf s k
    match v.claim with
    | none => badAll .state
    | some j =>
      if j != i then badAll .busy
      else okWrite (setUpload k { v with bytes := tabFill 0 (u32 p 0) (p.drop 8) v.bytes, written := (u32 p 0, p.length - 8) :: v.written } s)) s

/-- The end of what the pieces cover without a gap from `at_`; `n` bounds the pieces it passes. -/
def coveredTo (l : List (Nat × Nat)) : Nat → Nat → Nat
  | 0, at_ => at_
  | n + 1, at_ =>
    match l.find? fun e => e.1 ≤ at_ && at_ < e.1 + e.2 with
    | some e => coveredTo l n (e.1 + e.2)
    | none => at_

/-- The checks of a commit by slot `i` (R503): the whole upload, or a status with its completion data. -/
def uploadWhole (s : State) (k i : Nat) : Except (Status × Bytes) Bytes :=
  let v := uploadOf s k
  match v.claim with
  | none => .error (.state, toLe 2 0xFFFF)
  | some j =>
    if j != i then .error (.busy, toLe 2 0xFFFF)
    else
      let gap := coveredTo v.written v.written.length 0
      if gap < v.length then .error (.state, toLe 4 gap)
      else
        let b := tabRange 0 v.bytes 0 v.length
        if v.crc != 0 && crc32c b != v.crc then .error (.integrity, toLe 2 0xFFFF) else .ok b

/-- The claim of upload `k` ends. -/
def releaseUpload (k : Nat) (s : State) : State := modHost (fun h => { h with uploads := tabDel k h.uploads }) s

/-! ### Signature sets (R508) -/

/-- SIG_SET_BEGIN. -/
def execSigSetBegin (c : Cmd) (s : State) : Host.Outcome State Fault Refusal := .next (uploadBegin 0x0701 1 (fun _ => false) c s)

/-- SIG_SET_CHUNK. -/
def execSigSetChunk (c : Cmd) (s : State) : Host.Outcome State Fault Refusal := .next (uploadChunk 0x0702 1 c s)

/-- The enabled engines of the named quadrants that run a set, ascending. -/
def enginesOfSet (s : State) (mask set : Nat) : List Nat :=
  (List.range 16).filter fun e => bit mask (e / 4) && bit (u8 (engineOf s e).obj 1) 0 && engineSet (engineOf s e) == set

/-- Writes a set to the shadows of the named quadrants. -/
def writeSet (mask set : Nat) (v : SigSet) (s : State) : State :=
  (maskBits 4 mask).foldl (fun s q =>
    kiln 0x0701 [(1, q), (1, set), (4, v.tag)] (modSig (fun t => { t with sets := tabPut (16 * q + set) v t.sets }) s)) s

/-- SIG_SET_COMMIT as the opcode tables of Icoux give it (R514 to R520), with the checks of its fields. -/
def opSigSetCommit : OpDef := { writeOp 0x0703 8 [fRange 0 1 1 15 .badarg, fRange 1 1 0 15 .range, fRsv 2 6] with role := .admin }

/-- SIG_SET_COMMIT (R508): the completion follows the last engine that loads the set. -/
def execSigSetCommit (c : Cmd) (s : State) : Host.Outcome State Fault Refusal :=
  .next (icoux opSigSetCommit c (fun i p s =>
    match uploadWhole s 1 i with
    | .error (st, d) => .fail st d
    | .ok b =>
      let s0 := releaseUpload 1 s
      match sigSetBad b with
      | some (tbl, e, st) => .done s0 st (toLe 2 0xFFFF ++ toLe 1 tbl ++ toLe 1 0 ++ toLe 4 e) []
      | none =>
        let v := sigSetOf b
        let s1 := writeSet (u8 p 0) (u8 p 1) v s0
        match enginesOfSet s1 (u8 p 0) (u8 p 1) with
        | [] => .done s1 .ok (toLe 4 v.tag) []
        | e :: t => .later fun id =>
          modSig (fun x => { x with jobs := x.jobs ++ [{ run := id, engines := e :: t, data := toLe 4 v.tag }] }) (startLoading e s1)) s)

end Sys2Proof.Machine
end

