-- ==== Sys2Proof/Machine/Firmware.lean ====
section
/-!
DEFINITION. Firmware images, the firmware commands and software reset (R509 to R511, R523, R528, R529, R540).
-/

namespace Sys2Proof.Machine

/-! ### Images (R528, R529) -/

/-- Check 1, HEADER. -/
def fwHeaderOk (b : Bytes) : Bool :=
  slice b 0 4 == [0x46, 0x42, 0x58, 0x46] && u16 b 4 == 1 && u16 b 6 == 384 && inRange (u32 b 20) 4096 6291456 &&
    u16 b 16 ≤ u16 b 14 && u8 b 13 < 2 && zeroAt b 18 2 && zeroAt b 28 36 && zeroAt b 161 15 && zeroAt b 272 112 &&
    u8 b 12 ≤ 63 && u8 b 64 == 4 && u32 b 20 ≤ b.length

/-- The first failing check of an image but for the rollback check; 0 when none fails. -/
def fwCheck (b : Bytes) : Nat :=
  let body := slice b 384 (u32 b 20 - 384)
  if !fwHeaderOk b then 1
  else if crc32c body != u32 b 24 then 2
  else if !Config.keyTrusted (slice b 64 97) then 3
  else if !Config.signatureVerifies (slice b 64 97) (slice b 176 96) (slice b 0 176 ++ body) then 4
  else 0

/-- What a slot that holds these bytes holds. -/
def fwImageOf (b : Bytes) : FwImage :=
  { check := fwCheck b, version := u32 b 8, security := u8 b 12, raiseMinimum := bit (u8 b 13) 0, stateFormat := u16 b 14
    adoptFrom := u16 b 16 }

/-- The failing check of slot `k`, the rollback check among them: 0 for a valid image (R529). -/
def slotCheck (s : State) (k : Nat) : Nat :=
  let v := tabGet {} s.boot.slots k
  if v.check != 0 then v.check else if v.security < s.boot.securityMin then 5 else 0

/-- Whether a firmware write runs (R497). -/
def fwWrites (s : State) : Bool := s.boot.update.writing.isSome

/-! ### Commands -/

/-- FW_BEGIN. -/
def execFwBegin (c : Cmd) (s : State) : Host.Outcome State Fault Refusal := .next (uploadBegin 0x0F01 2 fwWrites c s)

/-- FW_CHUNK. -/
def execFwChunk (c : Cmd) (s : State) : Host.Outcome State Fault Refusal := .next (uploadChunk 0x0F02 2 c s)

/-- `s` with the state of the firmware update changed. -/
def modUpdate (f : FwUpdate → FwUpdate) (s : State) : State := modBoot (fun b => { b with update := f b.update }) s

/-- The status an uploaded image is rejected with (R509). -/
def commitBad (s : State) (b : Bytes) : Option Status :=
  match fwCheck b with
  | 0 => orElse (s.boot.securityMin ≤ u8 b 12) .state
  | 1 => some .badarg
  | _ => some .integrity

/-- FW_COMMIT as the opcode tables of Icoux give it (R514 to R520), with the checks of its fields. -/
def opFwCommit : OpDef := { writeOp 0x0F03 0 [] with role := .admin }

/-- FW_COMMIT (R509): the other slot is erased and written after the completion. -/
def execFwCommit (c : Cmd) (s : State) : Host.Outcome State Fault Refusal :=
  .next (icoux opFwCommit c (fun i _ s =>
    if fwWrites s then badAll .busy
    else match uploadWhole s 2 i with
      | .error (st, d) => .fail st d
      | .ok b =>
        let s1 := releaseUpload 2 s
        match commitBad s b with
        | some st => .done (modUpdate (fun u => { u with last := statusCode st }) s1) st (toLe 2 0xFFFF) []
        | none =>
          let k := 1 - s.boot.slot
          .done (modBoot (fun t => { t with
            slots := tabDel k t.slots, update := { state := 2, last := statusCode .pending, writing := some (k, fwImageOf b) } }) s1) .pending
            (toLe 4 (u32 b 8)) []) s)

/-- FW_WRITTEN (R509): the slot has been written and read back, or not. -/
def execFwWritten (ok : Bool) (s : State) : Host.Outcome State Fault Refusal :=
  match s.boot.update.writing with
  | none => .next s
  | some (k, v) =>
    if ok then
      .next (kiln 0x0F01 [(1, k), (4, v.version)] (modBoot (fun t => { t with slots := tabSet {} k v t.slots, update := { state := 3 } }) s))
    else
      let st := statusCode .integrity
      .next (kiln 0x0F02 [(2, st), (4, v.version)] (modUpdate (fun _ => { state := 4, last := st }) s))

/-- Whether a warm restart into slot `k` can adopt the running firmware's state (R537). -/
def adoptable (s : State) (k : Nat) : Bool :=
  let v := tabGet {} s.boot.slots k
  inRange s.boot.running.stateFormat v.adoptFrom v.stateFormat

/-- FW_ACTIVATE as the opcode tables of Icoux give it (R514 to R520), with the checks of its fields. -/
def opFwActivate : OpDef := { writeOp 0x0F04 8 [fRange 0 1 0 1 .range, fBits 1 1 1, fRsv 2 6] with role := .admin }

/-- FW_ACTIVATE (R510, R537). -/
def execFwActivate (c : Cmd) (s : State) : Host.Outcome State Fault Refusal :=
  .next (icoux opFwActivate c (fun _ p s =>
    let k := u8 p 0
    let now := bit (u8 p 1) 0
    if fwWrites s then badAll .busy
    else if slotCheck s k != 0 || (now && !adoptable s k) then badAll .state
    else
      let s1 := kiln 0x0F03 [(1, k), (1, u8 p 1)] (writeArea (fun a => { a with nextSlot := k }) s)
      okWrite (if now then modBoot (fun b => { b with warmDue := some (2, k) }) s1 else s1)) s)

/-- FW_STATUS as the opcode tables of Icoux give it (R514 to R520), with the checks of its fields. -/
def opFwStatus : OpDef := requestOp 0x0F05 0 []

/-- FW_STATUS (R511). -/
def execFwStatus (c : Cmd) (s : State) : Host.Outcome State Fault Refusal :=
  .next (icoux opFwStatus c (fun _ _ s =>
    let b := s.boot
    let up := uploadOf s 2
    let version := fun k => if slotCheck s k == 0 then (tabGet {} b.slots k).version else 0
    let state := if b.update.writing.isSome then 2 else if up.claim.isSome then 1 else b.update.state
    okReply s (image 24 [(0, 4, b.running.version), (4, 4, field (tabRange 0 up.bytes 8 4) 0 4), (8, 4, version 0), (12, 4, version 1),
      (16, 1, b.slot), (17, 1, b.dataArea.nextSlot), (18, 1, state), (20, 2, b.update.last)])) s)

/-- DEVICE_RESET as the opcode tables of Icoux give it (R514 to R520), with the checks of its fields. -/
def opDeviceReset : OpDef := { writeOp 0x0F06 0 [] with role := .admin }

/-- DEVICE_RESET (R510, R540). -/
def execDeviceReset (c : Cmd) (s : State) : Host.Outcome State Fault Refusal :=
  .next (icoux opDeviceReset c (fun i _ s =>
    okWrite (saveData (kiln 0x0F04 [(1, i)] (modBoot (fun b => { b with resetAt := some (s.now + 10 * tMs) }) s)))) s)

/-- SOFTWARE_RESET (R510): 10 ms after DEVICE_RESET the device resets with cause SOFTWARE. -/
def execSoftwareReset (s : State) : Host.Outcome State Fault Refusal :=
  match s.boot.resetAt with
  | none => .next s
  | some t => .next (deviceReset 3 (reach t s))

end Sys2Proof.Machine
end

