-- ==== Sys2Proof/Machine/Boot.lean ====
section
/-!
DEFINITION. Power-on, reset and start-up (chapter 18, R523 to R541) and the warm restart.
-/

namespace Sys2Proof.Machine

/-! ### Power and RESET_N (R523 to R525, R554) -/

/-- What RESET_N, or any source that acts as it, leaves of the state; RESET_N stays as it is (R525). -/
def heldInReset (s : State) : State := keptState s

/-- The boot flash as it has been programmed from outside. -/
def flashIn (f : FlashIn) (b : BootState) : BootState :=
  { b with slots := tabSet {} 0 f.slot0 (tabSet {} 1 f.slot1 []), dataArea := { validA := f.copyA, validB := f.copyB }, otherArea := {} }

/-- POWER_ON (R523, R554): VDD_IO rises while RESET_N is asserted; the always-on records and the kiln log are empty. -/
def execPowerOn (flash : Option FlashIn) (s : State) : Host.Outcome State Fault Refusal :=
  if !s.boot.resetLow then .next s
  else
    let s1 := modFlt (fun f => { f with kiln := [], nextSeq := 0, newestIsLast := false }) (heldInReset s)
    .next (modBoot (fun b =>
      let b1 := { b with cause := 0, tripRecord := none, tripped := false, powered := true, strap := 0, tap := {} }
      match flash with
      | none => b1
      | some f => flashIn f b1) s1)

/-- The data area when the write of its newer copy was cut: that copy is invalid and the other one is used (R541). -/
def cutArea (b : BootState) : BootState :=
  let o := b.otherArea
  { b with dataArea := { o with validA := o.validA && b.dataArea.seq % 2 != 0, validB := o.validB && b.dataArea.seq % 2 != 1 } }

/-- The thermal latch releases when RESET_N is asserted while every sensor reads below 115 °C (R417). -/
def releaseTrip (cool : Bool) (s : State) : State :=
  if cool && s.boot.tripped then emit (.pin pinThermtrip true) (modBoot (fun b => { b with tripped := false }) s) else s

/-- RESET_N_ASSERT (R417, R523 to R525, R541): `cool` when every sensor reads below 115 °C, `cut` when a write of the data area runs. -/
def execResetNAssert (cool cut : Bool) (s : State) : Host.Outcome State Fault Refusal :=
  if s.boot.resetLow then .next (releaseTrip cool s)
  else
    let s1 := heldInReset (modBoot (fun b =>
      let b1 := { b with resetLow := true, resetLowSince := s.now
                         cause := if !b.powered then b.cause else if b.tripRecord.isSome then 4 else 1 }
      if cut then cutArea b1 else b1) s)
    .next (releaseTrip cool s1)

/-- RESET_N_DEASSERT (R524, R526, R532): at least 10 µs after the assertion; the straps are sampled and start-up begins. -/
def execResetNDeassert (strap : Fin 4) (s : State) : Host.Outcome State Fault Refusal :=
  if !s.boot.resetLow || !s.boot.powered then .next s
  else
    let s1 := reach (s.boot.resetLowSince + 10 * tUs) s
    .next (modBoot (fun b => { b with resetLow := false, strap := strap.val, t0 := s1.now, stage := .bisque }) s1)

/-! ### Bisque stage (R532, R533) -/

/-- STAGE becomes FAILED with a BOOT_ERROR code (R535, R536). -/
def bootFailed (code : Nat) (s : State) : State :=
  let inBisque := s.boot.stage == .bisque
  kiln 0x0F14 [(1, code)] (modBoot (fun b => { b with stage := .failed, bootError := code, failedInBisque := inBisque }) s)

/-- Q0_PLL_LOCK (R532): the ROM runs and sets VDD_CORE to 0.750 V. `result` is 0, or the BOOT_ERROR code of its test that fails; with
BOOT_SEL HOLD the flash is not read. -/
def execQ0PllLock (result : Fin 5) (s : State) : Host.Outcome State Fault Refusal :=
  let b := s.boot
  if b.resetLow || !b.powered || b.tripped || b.romRan || b.stage != .bisque then .next s
  else
    let s1 := modPow (fun t => { t with avs := { target := 750 }, vddFull := 750, vddEased := 750 })
      (modBoot (fun b => { b with romRan := true }) s)
    .next (if result.val == 0 || (result.val == 4 && b.strap == 3) then s1 else bootFailed result.val s1)

/-- The failing check of slot `k` when its image is read from the flash: READ when the flash does not answer (R529). -/
def readCheck (s : State) (k : Nat) (fails : Bool) : Nat := if fails then 6 else slotCheck s k

/-- BOOT_FALLBACK from slot `k` (R533). -/
def fallback (k code : Nat) (s : State) : State := kiln 0x0F11 [(1, k), (1, code), (1, 1 - k)] s

/-- The slot that runs (R533): none when no slot passes. `fails` says of each slot that it cannot be read. -/
def chooseSlot (fails : Nat → Bool) (s : State) : Option Nat × State :=
  let ok := fun k => readCheck s k (fails k) == 0
  if s.boot.strap == 0 then
    let a := s.boot.dataArea.nextSlot
    let spent := decide (tabGet 0 s.boot.dataArea.trials a ≥ 3)
    let k := if spent then 1 - a else a
    let s1 := if spent then fallback a 0 s else s
    if ok k then (some k, s1)
    else
      let s2 := fallback k (readCheck s k (fails k)) s1
      (if ok (1 - k) then some (1 - k) else none, s2)
  else
    let k := s.boot.strap - 1
    (if ok k then some k else none, s)

/-- The data area's contents when neither copy is valid are the defaults (R531). -/
def areaOrDefault (b : BootState) : BootState :=
  if b.dataArea.validA || b.dataArea.validB then b else { b with dataArea := {}, otherArea := {} }

/-- Step 1 of the glaze stage (R531, R534): the data area is read, and RESET_CAUSE and THERMAL_TRIP are logged. -/
def glazeBegin (k : Nat) (lost : Bool) (s : State) : State :=
  let s1 := modBoot (fun b => { b with stage := .glazeInit, slot := k, running := tabGet {} b.slots k, g0 := s.now }) s
  let s2 := if lost then writeArea id (writeArea id (kiln 0x0F15 [(1, 3)] s1)) else s1
  let a := s2.boot.dataArea
  let s3 := modPow (fun t => { t with heat := a.heat, ages := a.ages }) s2
  let s4 := kiln 0x0F10 [(1, s3.boot.cause), (1, k), (1, s3.boot.strap)] s3
  match s4.boot.tripRecord with
  | none => s4
  | some r => modBoot (fun b => { b with tripRecord := none }) (kiln 0x0D05 [(1, u8 r 0), (1, u8 r 1)] s4)

/-- GLAZE_INIT (R532 to R534): steps 5 to 7 of the bisque stage and step 1 of the glaze stage. The operands say which slots the flash cannot be
read from. -/
def execGlazeInit (readFail0 readFail1 : Bool) (s : State) : Host.Outcome State Fault Refusal :=
  let b := s.boot
  if b.stage != .bisque || !clocked s || b.strap == 3 then .next s
  else
    let lost := !b.dataArea.validA && !b.dataArea.validB
    let s1 := modBoot areaOrDefault s
    match chooseSlot (fun k => if k == 0 then readFail0 else readFail1) s1 with
    | (none, s2) => .next (bootFailed 5 s2)
    | (some k, s2) =>
      let s3 := if b.strap == 0 then writeArea (fun a => { a with trials := tabMod 0 k (· + 1) a.trials }) s2 else s2
      .next (glazeBegin k lost s3)

/-! ### Glaze stage (R534, R535) -/

/-- The BOOT_ERROR of a step whose third failure is the device's. -/
def glazeError (step : Nat) : Option Nat :=
  match step with
  | 2 => some 0x10
  | 4 => some 0x11
  | 6 => some 0x12
  | _ => none

/-- A lane die that fails step 5 a third time: bit 5 is raised for its site, which is fenced. -/
def laneDieFails (die : Nat) (s : State) : State :=
  let s1 := modBoot (fun b => { b with laneDieFailed := tabSet false die true b.laneDieFailed }) s
  let s2 := takeRaise { bit := 5, kind := siteKindOf 5, index := die } s1
  match siteAt s2 5 (siteKindOf 5) die with
  | none => s2
  | some x => if x.level == .fenced then s2 else fenceSite x s2

/-- GLAZE_RETRY (R535): step `step` + 1 of the glaze stage fails with `status`, for step 5 on lane die `die`. -/
def execGlazeRetry (step : Fin 8) (die : Fin 8) (status : BitVec 16) (s : State) : Host.Outcome State Fault Refusal :=
  if s.boot.stage != .glazeInit then .next s
  else
    let n := step.val + 1
    let key := if n == 5 then 8 + die.val else n - 1
    let failed := tabGet 0 s.boot.tries key + 1
    let s1 := modBoot (fun b => { b with tries := tabSet 0 key failed b.tries }) s
    if failed ≤ 2 then .next (kiln 0x0F12 [(1, n), (2, status.toNat)] s1)
    else if failed != 3 then .next s1
    else if n == 5 then .next (laneDieFails die.val s1)
    else match glazeError n with
      | some code => .next (bootFailed code s1)
      | none => .next s1

/-- The first READY of an image that raises the minimum (R530). -/
def raiseMinimum (s : State) : State :=
  let v := s.boot.running
  if v.raiseMinimum && s.boot.securityMin < v.security then
    kiln 0x0F18 [(4, v.security)] (modBoot (fun b => { b with securityMin := v.security }) s)
  else s

/-- What READY does in the data area (R533): the slot's trials are zero, and the next boot is of this slot. -/
def confirmSlot (s : State) : State :=
  let k := s.boot.slot
  let changed := s.boot.dataArea.nextSlot != k
  let s1 := writeArea (fun a => { a with nextSlot := k, trials := if s.boot.strap == 0 then tabSet 0 k 0 a.trials else a.trials }) s
  if changed then kiln 0x0F19 [(1, k)] s1 else s1

/-- STAGE becomes READY: the capability list is published with the profiles in force (R18, R534, R538). -/
def becomeReady (s : State) : State :=
  modBoot (fun b => { b with
    stage := .ready, capsReady := true
    capModes := toLe 1 (b2n s.time.eased) ++ toLe 1 s.tableProfile ++ toLe 1 s.bufferProfile }) s

/-- The microseconds since a real time. -/
def microsSince (t : Nat) (s : State) : Nat := min 0xFFFFFFFF ((s.now - t) / tUs)

/-- GLAZE_READY (R534): steps 2 to 8 are done. `ppm` holds the gauges of each quadrant as they were counted. -/
def execGlazeReady (ppm : List (List Int)) (s : State) : Host.Outcome State Fault Refusal :=
  if s.boot.stage != .glazeInit then .next s
  else
    let s1 := (List.range 4).foldl (fun s q => gaugeEpoch q (ppm.getD q []) s) s
    let w := worstSlowdown s1
    let s2 := planVdd true w.1 w.2 s1
    let s3 := placePower (placeScrub (bufScrub s2) s2)
    let s4 := becomeReady (kiln 0x0F13 [(4, microsSince s3.boot.t0 s3)] s3)
    .next (raiseMinimum (confirmSlot s4))

/-! ### Warm restart (R538, R539) -/

/-- Whether the completion of an FW_ACTIVATE still waits. -/
def activateWaits (s : State) : Bool := s.host.ended.any fun e => e.opcode == 0x0F04

/-- WARM_RESTART_START (R510, R538, R541): a restart asked for begins; restart_now follows its completion. -/
def execWarmRestartStart (s : State) : Host.Outcome State Fault Refusal :=
  match s.boot.warmDue with
  | none => .next s
  | some (cause, target) =>
    if s.boot.stage != .ready && s.boot.stage != .warmRestart then .next s
    else if cause == 2 && activateWaits s then .next s
    else .next (warmStart cause target s)

/-- The slot a warm restart runs: the target, or the running one when that fails (R538). -/
def warmSlot (readFailTarget readFailRunning : Bool) (s : State) : Option Nat :=
  let b := s.boot
  if readCheck s b.warmTarget readFailTarget == 0 then some b.warmTarget
  else if readCheck s b.slot readFailRunning == 0 then some b.slot
  else none

/-- WARM_RESTART_DONE (R538): steps 2 to 5. The operands say which slots cannot be read and whether the saved state passes its check. -/
def execWarmRestartDone (readFailTarget readFailRunning stateOk : Bool) (s : State) : Host.Outcome State Fault Refusal :=
  if s.boot.stage != .warmRestart || s.boot.warmDue.isSome then .next s
  else
    match warmSlot readFailTarget readFailRunning s with
    | none => .next (deviceReset 5 s)
    | some k =>
      if !stateOk then .next (deviceReset 5 s)
      else
        let s1 := modBoot (fun b => { b with slot := k, running := tabGet {} b.slots k }) s
        let s2 := becomeReady (kiln 0x0F17 [(4, microsSince s1.boot.warmBegan s1), (1, k)] s1)
        .next (raiseMinimum (confirmSlot s2))

end Sys2Proof.Machine
end

