-- ==== Sys2Proof/Machine/Decide.lean ====
section
/-!
DEFINITION. The decision after S23 (R164): drops, inspection, recirculation, host deliveries and the transfers (R308), with the
order queue (R261).
-/

namespace Sys2Proof.Machine

/-! ### Order (R261, R314, R316) -/

def traffic (v : Frame) : Nat := bits (metaF v 1) 20 3

/-- F2 of a frame; that of a reparsed mirror copy is ignored (R326). -/
def mirrorAndGroup (v : Frame) : Nat := if v.mirrorOf.isSome then 0 else metaF v 2

/-- The destination and class that a frame's pass names: an egress port or a multicast group. -/
def namedDest (v : Frame) : Option Nat :=
  let f0 := metaF v 0
  let g := mirrorAndGroup v / 65536
  if bits f0 16 8 != 0 || bit f0 30 then none
  else if g != 0 then some (8 * (1024 + g) + traffic v)
  else if bit f0 15 then some (8 * bits f0 0 10 + traffic v)
  else none

/-- Whether frame `e` is on the inspection path, or on a later pass that has not been decided. -/
def stillOut (e : Frame) : Bool := e.place == .inspect || ((e.returned || e.passes > 0) && e.place != .spent)

/-- Whether frame `u` waits behind an earlier frame of its port that named the same destination and class. -/
def waitsInOrder (s : State) (u : Nat) : Bool :=
  let v := frameOf s u
  let mine := namedDest v
  v.mirrorOf.isNone && !v.returned && v.passes == 0 && mine.isSome && s.fr.frames.any fun e =>
    e.2.pipe == v.pipe && e.2.port == v.port && e.2.mirrorOf.isNone && arrivalOf e.1 e.2 < u &&
      ((stillOut e.2 && e.2.named == mine) || (e.2.place == .ordered && namedDest e.2 == mine))

/-- Whether an earlier frame of its port still stands at the end of S23. -/
def decidedLater (s : State) (u : Nat) : Bool :=
  let v := frameOf s u
  s.fr.frames.any fun e => e.1 < u && e.2.pipe == v.pipe && e.2.port == v.port && e.2.place == .decide

/-! ### Drops (R164 rule 1, R331) -/

/-- Whether a program may write a drop reason (R330). -/
def programReason (r : Nat) : Bool := r == 0x18 || r == 0x19 || inRange r 0x40 0x46 || 0x80 ≤ r

/-- The reason a program's drop has. -/
def dropReasonOf (r : Nat) : Nat := if programReason r then r else 0x18

/-- What a drop record of the deciding pipeline says of a frame. -/
def decisionInfo (v : Frame) (reason : Nat) : CopyInfo :=
  { cls := traffic v, colour := bits (metaF v 1) 18 2, mirror := v.mirrorOf.isSome
    detail := if programReason reason then metaU v 15 else 0 }

/-! ### Transfers (R308) -/

/-- Whether a frame's transfers take the direct path whatever the load (R312). -/
def fixedPath (v : Frame) : Bool := v.source == 2 || v.mirrorOf.isSome

/-- The ingress mirror copies of a frame on its final pass (R308, R324). -/
def ingressMirrors (u : Nat) (s : State) : State :=
  let v := frameOf s u
  if v.mirrorOf.isSome then s else (ingressSessions s v).foldl (fun s i => mirrorFrame i u s) s

/-- The delivery of R164 rule 4. -/
def programDelivery (u : Nat) (s : State) : State :=
  let v := frameOf s u
  deliver { ring := bits (metaF v 0) 24 6, frame := u, reason := 3, info := metaF v 5 } s

/-- A multicast frame: one transfer to each quadrant that holds a member (R321). -/
def replicate (u g : Nat) (s : State) : State :=
  let v := frameOf s u
  let q := quadOfPipe v.pipe
  let ver := u16 (tabGet {} s.sw.groups g).obj 6
  let ms := groupMembers s g ver v
  if ms.isEmpty then spend u (count cSwcMcastEmpty q 1 s)
  else
    let (colour, drop, s1) := policeFrame u s
    if drop then dropFrame u 0x20 { decisionInfo v 0 with colour } s1
    else
      spend u ((List.range 4).foldl (fun s d =>
        let n := (ms.filter fun m => quadOfPort m.1 == d).length
        if n == 0 then s
        else formTransfer { id := 0, frame := u, src := q, dst := d, dest := .mcast g ver, cls := traffic v, colour } (fixedPath v) n s) s1)

/-- A unicast frame: one transfer to its egress port's quadrant (R164 rule 5). -/
def unicast (u : Nat) (s : State) : State :=
  let v := frameOf s u
  let f0 := metaF v 0
  let p := bits f0 0 10
  let k := bits f0 10 5
  if !bit f0 15 || !configured s p then dropFrame u 0x19 (decisionInfo v 0x19) s
  else if k > 19 then dropFrame u 0x18 (decisionInfo v 0x18) s
  else
    let (colour, drop, s1) := policeFrame u s
    if drop then dropFrame u 0x20 { decisionInfo v 0 with colour, egress := p, queue := k } s1
    else spend u (formTransfer { id := 0, frame := u, src := quadOfPipe v.pipe, dst := quadOfPort p, dest := .unicast p k
                                 cls := traffic v, colour } (fixedPath v) 1 s1)

/-- Forwarding by rules 4 and 5. -/
def forward (u : Nat) (s : State) : State :=
  let v := frameOf s u
  let f0 := metaF v 0
  if bit f0 30 then spend u (programDelivery u (policeFrame u s).2.2)
  else
    let s1 := if bit f0 31 then programDelivery u s else s
    let g := mirrorAndGroup v / 65536
    if g != 0 then replicate u g s1 else unicast u s1

/-! ### Recirculation (R316) -/

/-- Frame `u` recirculates: it takes the place of its next pass, or is dropped when the buffer cannot hold it. -/
def recirculate (u : Nat) (s : State) : State :=
  let v := frameOf s u
  let q := quadOfPipe v.pipe
  if v.passes ≥ 4 then dropFrame u 0x1F (decisionInfo v 0) (ingressMirrors u s)
  else if recircUsed s v.pipe + v.data.length > 131072 then dropFrame u 0x1E (decisionInfo v 0) s
  else
    let named := if v.passes == 0 && !v.returned then namedDest v else v.named
    let n := { nextPass u 1 v with passes := v.passes + 1, named }
    (newFrame n (spend u (count cSwcRecirc q 1 s))).2

/-! ### The decision -/

/-- R164 on frame `u`, which no order holds back: the first rule that holds. -/
def decide164 (u : Nat) (s : State) : State :=
  let v := frameOf s u
  let f0 := metaF v 0
  let f6 := metaF v 6
  if v.bad != 0 then dropFrame u v.bad (decisionInfo v 0) (ingressMirrors u s)
  else if bits f0 16 8 != 0 then
    let r := dropReasonOf (bits f0 16 8)
    dropFrame u r (decisionInfo v r) (ingressMirrors u s)
  else if bits f6 8 2 != 0 && !v.returned then
    inspect u (modFrame u (fun v => { v with named := if v.passes == 0 then namedDest v else v.named }) s)
  else if bit (metaF v 3) 1 then recirculate u s
  else forward u (ingressMirrors u s)

/-- Whether the decision needs the whole frame: the inspection path and recirculation take ended frames (assumption 49). -/
def needsWhole (v : Frame) : Bool :=
  bits (metaF v 0) 16 8 == 0 && ((bits (metaF v 6) 8 2 != 0 && !v.returned) || bit (metaF v 3) 1)

/-- The frames in pipeline `g`'s order queue. -/
def orderQueue (s : State) (g : Nat) : Nat := (framesAt s g .ordered).length

/-- FRAME_DECISION (R164, R261, R308): frame `u` leaves S23, or the order queue. -/
def execFrameDecision (u : Nat) (s : State) : Host.Outcome State Fault Refusal :=
  let v := frameOf s u
  if !(v.place == .decide || v.place == .ordered) || decidedLater s u || (!v.ended && needsWhole v) then .next s
  else
    let s1 := if v.place == .decide then learnRequest u s else s
    if waitsInOrder s1 u && v.bad == 0 && !needsWhole v then
      if v.place == .ordered || orderQueue s v.pipe ≥ 1024 then .next s
      else .next (modFrame u (fun v => { v with place := .ordered }) (count cInspectOrderWaits v.pipe 1 s1))
    else .next (decide164 u s1)

end Sys2Proof.Machine
end

