-- ==== Sys2Proof/Machine/Image.lean ====
section
/-!
DEFINITION. Program images: their checks, their application to pipelines, and their commands (R182 to R185, R213 to R216, R504 to
R507).
-/

namespace Sys2Proof.Machine

/-! ### The directory (R182) -/

def imgSections (b : Bytes) : Nat := u16 b 8
def secKind (b : Bytes) (i : Nat) : Nat := u8 b (192 + 16 * i)
def secStage (b : Bytes) (i : Nat) : Nat := u8 b (193 + 16 * i)
def secMask (b : Bytes) (i : Nat) : Nat := u64 b (64 + 8 * u8 b (194 + 16 * i))

/-- The bytes of section `i`. -/
def secBytes (b : Bytes) (i : Nat) : Bytes := slice b (u32 b (196 + 16 * i)) (u32 b (200 + 16 * i))

/-- The section of a kind that covers a stage of pipeline `g`. -/
def secAt (b : Bytes) (kind g st : Nat) : Option Nat :=
  firstIdx (imgSections b) fun i => secKind b i == kind && secStage b i == st && bit (secMask b i) g

/-- The bytes of that section, or none. -/
def secOf (b : Bytes) (kind g st : Nat) : Option Bytes := (secAt b kind g st).map (secBytes b)

/-- A directory entry that fails R182 or covers what an earlier one covers (R184). -/
def badEntry (b : Bytes) (i : Nat) : Bool :=
  let k := secKind b i
  let o := u32 b (196 + 16 * i)
  !inRange k 1 6 || (if k == 1 then secStage b i != 0xFF else 23 < secStage b i) || u8 b 7 ≤ u8 b (194 + 16 * i) || u8 b (195 + 16 * i) != 0 ||
    o % 8 != 0 || b.length < o + u32 b (200 + 16 * i) || u32 b (204 + 16 * i) != 0 ||
    (List.range i).any fun j => secKind b j == k && secStage b j == secStage b i && secMask b j &&& secMask b i != 0

/-- A failing check: its status, the section's directory index, the table and the entry (R504). -/
abbrev ImageError := Status × Nat × Nat × Nat

/-- The first failing check of the header and the set table; the entry number is the field's offset. -/
def headerBad (profile : Nat) (b : Bytes) : Option ImageError :=
  let err := fun (ok : Bool) (st : Status) (off : Nat) => if ok then none else some (st, 0xFFFF, 0, off)
  [ err (b.take 4 == [0x46, 0x42, 0x58, 0x49]) .badarg 0, err (u16 b 4 == 1) .notsup 4, err (u8 b 6 == profile) .state 6,
    err (inRange (u8 b 7) 1 16) .badarg 7, err (inRange (u16 b 8) 1 4096) .badarg 8, err (zeroAt b 10 2) .badarg 10,
    err (u32 b 16 == b.length) .badarg 16, err (u32 b 20 == crc32c (b.drop 24)) .integrity 20, err (zeroAt b 24 40) .badarg 24,
    err (192 + 16 * imgSections b ≤ b.length) .badarg 8,
    err ((List.range 16).all fun k => k < u8 b 7 || u64 b (64 + 8 * k) == 0) .badarg 64 ].findSome? id

/-! ### Stores (R213 to R216) -/

/-- Where the words of a MICROSTORE section start: the list of entry addresses is padded to a multiple of 8. -/
def microWords (x : Bytes) : Nat := 8 + (2 * u16 x 2 + 7) / 8 * 8

/-- The entry addresses of a MICROSTORE section. -/
def microEntries (x : Bytes) : List Nat := (List.range (u16 x 2)).map fun i => u16 x (8 + 2 * i)

/-- Microword `a` of a MICROSTORE section; beyond its words, zero. -/
def microAt (x : Bytes) (a : Nat) : Nat := if a < u16 x 0 then u32 x (microWords x + 4 * a) else 0

/-- Whether the header or the entry list of a MICROSTORE section fails R213. -/
def microHeaderBad (x : Bytes) : Bool :=
  let n := u16 x 2
  !inRange (u16 x 0) 1 8192 || !inRange n 1 1024 || !zeroAt x 4 4 || x.length != microWords x + 4 * u16 x 0 ||
    !zeroAt x (8 + 2 * n) (microWords x - 8 - 2 * n) ||
    (List.range n).any fun i => !inRange (u16 x (8 + 2 * i)) 1 8191 || (i != 0 && u16 x (8 + 2 * i) ≤ u16 x (6 + 2 * i))

/-- A microword that uses a reserved code or bit, or a nanoword that is not loaded (R194, R195, R203, R216). -/
def badMicro (nanos : Nat) (w : Nat) : Bool :=
  w / 2 ^ 24 != 0 || nanos ≤ bits w 2 10 ||
    match bits w 0 2 with
    | 1 => bits w 12 4 == 15 || !inRange (bits w 17 6) 1 47 || bit w 23
    | 2 => 2 < bits w 12 4 || bits w 18 6 != 0
    | _ => false

/-- The addresses that the word at distance `o` from an entry leads to, as distances. -/
def microNext (w o : Nat) : List Nat :=
  match bits w 0 2 with
  | 3 => []
  | 1 =>
    let t := o + bits w 17 6
    if bits w 12 4 == 0 then (if bit w 16 then [o + 1] else [t]) else [o + 1, t]
  | _ => [o + 1]

/-- Follows the paths from entry address `e` (R216): `reach` holds the distances reached. The first address whose word leads out of
the 48 words. -/
def pathBad (x : Bytes) (e : Nat) : Nat → Nat → List Nat → Option Nat
  | 0, _, _ => none
  | n + 1, o, reach =>
    if !reach.contains o then pathBad x e n (o + 1) reach
    else
      let w := microAt x (e + o)
      let next := microNext w o
      let out := next.any fun d => 47 < d || 8191 < e + d
      if out || (bits w 0 2 == 1 && 47 < o + bits w 17 6) then some (e + o) else pathBad x e n (o + 1) (next ++ reach)

/-- Whether a selector may be read (R193). -/
def srcOk (x : Nat) : Bool := x ≤ 345 || inRange x 350 391 || x == 1023

/-- Whether a selector may be written. -/
def dstOk (x : Nat) : Bool := x ≤ 335 || x == 1023

/-- An ALU lane that fails R197 or R198. -/
def badAlu (l : Nat) : Bool :=
  let op := bits l 0 5
  let w := bits l 40 6
  15 < op || 32 < w || bits l 47 17 != 0 || !srcOk (bits l 5 10) || !srcOk (bits l 15 10) || !dstOk (bits l 25 10) ||
    (op == 13 && bits l 25 10 != 1023) || (op == 10 && 32 < bits l 35 5 + (if w == 0 then 32 else w))

/-- A memory lane that fails R200 or R201. -/
def badMem (l : Nat) : Bool :=
  let op := bits l 0 4
  8 < op || 1 < bits l 52 4 || bits l 57 7 != 0 || !srcOk (bits l 6 10) || !srcOk (bits l 32 10) || !srcOk (bits l 42 10) ||
    (op != 0 && bits l 52 4 == 1 && op != 4 && op != 5) || (op == 5 && bit l 56)

/-- A hash lane that fails R202. -/
def badHash (l : Nat) : Bool :=
  let srcs := (List.range 4).map fun i => bits l (4 + 10 * i) 10
  2 < bits l 0 4 || bits l 54 10 != 0 || !srcs.all srcOk || !dstOk (bits l 44 10) || (bits l 0 4 != 0 && srcs.all (· == 1023))

/-- Nanoword `i` of a NANOSTORE section. -/
def nanoAt (x : Bytes) (i : Nat) : Nat := field x (8 + 48 * i) 48

/-- A nanoword that fails R196 to R202; `hasState` says that the stage has a STATE unit. -/
def badNano (hasState : Bool) (w : Nat) : Bool :=
  let lane := fun k => bits w (64 * k) 64
  badAlu (lane 0) || badAlu (lane 1) || badMem (lane 2) || badHash (lane 3) || lane 4 != 0 || lane 5 != 0 ||
    (!hasState && bits (lane 2) 0 4 != 0 && bits (lane 2) 52 4 == 0)

/-- Whether a NANOSTORE section's header fails R214. -/
def nanoHeaderBad (x : Bytes) : Bool := !inRange (u16 x 0) 1 1024 || !zeroAt x 2 6 || x.length != 8 + 48 * u16 x 0

/-- A STATE_INIT record that fails R215. -/
def badInit (unitMap : Bytes) (x : Bytes) (i : Nat) : Bool :=
  let at_ := fun j => 8 + 24 * j
  !(mapOwned unitMap 0x80).contains (u8 x (at_ i)) || u8 x (at_ i + 1) != 0 || 4095 < u16 x (at_ i + 2) || u32 x (at_ i + 4) != 0 ||
    (List.range i).any fun j => u8 x (at_ j) == u8 x (at_ i) && u16 x (at_ j + 2) == u16 x (at_ i + 2)

/-- The STATE words of a section: records name a unit and a row in it. -/
def initWords (unitMap : Bytes) (x : Bytes) : Store Nat :=
  let units := mapOwned unitMap 0x80
  (List.range (u32 x 0)).foldl (fun t i =>
    let o := 8 + 24 * i
    let row := 4096 * units.idxOf (u8 x o) + u16 x (o + 2)
    tabSet 0 (2 * row + 1) (u64 x (o + 16)) (tabSet 0 (2 * row) (u64 x (o + 8)) t)) []

/-! ### A stage of an image -/

/-- A stage as an image gives it, before its entries. -/
def imageStage (b : Bytes) (g st : Nat) : MatStage :=
  let v : MatStage := match secOf b 2 g st with | some x => stageFromTables x {} | none => {}
  let v1 := match secOf b 3 g st with
    | some x => { v with micro := (List.range (u16 x 0)).foldl (fun t i => tabSet 0 i (microAt x i) t) [], entries := microEntries x }
    | none => v
  let v2 := match secOf b 4 g st with
    | some x => { v1 with nano := (List.range (u16 x 0)).foldl (fun t i => tabSet 0 i (nanoAt x i) t) [], nanoCount := u16 x 0 }
    | none => v1
  match secOf b 5 g st with
  | some x => let t := initWords v2.unitMap x; { v2 with state := t, stateInit := t }
  | none => v2

/-- The records of a STAGE_ENTRIES section. -/
def imageEntries (x : Bytes) : List Bytes := (List.range (x.length / 80)).map fun i => slice x (80 * i) 80

/-- A record that is no ADD of its stage with its fields in range (R172, R183). -/
def badRecord (st : Nat) (e : Bytes) : Option Status :=
  if entryOp e != 1 || (entryStage e ≤ 23 && entryStage e != st) then some .badarg
  else if 23 < entryStage e || 7 < entrySlot e then some .range
  else if !zeroAt e 3 1 || !zeroAt e 10 6 || !zeroAt e 72 8 then some .badarg
  else orElse (entryRoutine e ≤ 8191) .range

/-- The first failing part of a STAGE_TABLES section (R153 to R159, R216): table 4 a descriptor, 5 a map. -/
def tablesBad (profile st : Nat) (entries : List Nat) (x : Bytes) : Option (Nat × Nat) :=
  let v := stageFromTables x {}
  let missBad := fun k => slotTable v k && descMiss (descOf v k) != 0 && !entries.contains (descMiss (descOf v k))
  if x.length != 160 then some (4, 0)
  else match firstIdx 8 fun k => badDesc profile st k v || missBad k with
    | some k => some (4, k)
    | none => if badMaps profile st v || !zeroAt x 148 12 then some (5, 0) else none

/-- The first failing part of section `i` as pipeline `g` sees it: its status, table and entry. -/
def sectionBadFor (profile : Nat) (b : Bytes) (i g : Nat) : Option (Status × Nat × Nat) :=
  let x := secBytes b i
  let st := secStage b i
  let bad := fun (r : Option (Nat × Nat)) => r.map fun e => (Status.badarg, e.1, e.2)
  match secKind b i with
  | 1 => bad (parserSectionBad x)
  | 2 => bad (tablesBad profile st (match secOf b 3 g st with | some m => microEntries m | none => []) x)
  | 3 =>
    let nanos := match secOf b 4 g st with | some n => u16 n 0 | none => 0
    bad (if microHeaderBad x then some (6, 0)
      else match firstIdx (u16 x 0) fun a => badMicro nanos (microAt x a) with
        | some a => some (6, a)
        | none => ((microEntries x).findSome? fun e => pathBad x e 48 0 [0]).map fun a => (6, a))
  | 4 =>
    let v := imageStage b g st
    bad (if nanoHeaderBad x then some (7, 0)
      else (firstIdx (u16 x 0) fun k => badNano (stateRows v != 0) (nanoAt x k)).map fun k => (7, k))
  | 5 =>
    let v := imageStage b g st
    bad (if x.length != 8 + 24 * u32 x 0 || !zeroAt x 4 4 then some (8, 0)
      else (firstIdx (u32 x 0) fun k => badInit v.unitMap x k).map fun k => (8, k))
  | _ =>
    let es := imageEntries x
    if x.length % 80 != 0 then some (.badarg, 9, 0)
    else match firstIdx es.length fun k => (badRecord st (es[k]?.getD [])).isSome with
      | some k => (badRecord st (es[k]?.getD [])).map fun e => (e, 9, k)
      | none => match checkEntries 0 es [(st, imageStage b g st)] [] with
        | .error (n, _, e) => some (e, 9, n)
        | .ok _ => none

/-- The first failing part of section `i`. -/
def sectionBad (profile : Nat) (b : Bytes) (i : Nat) : Option ImageError :=
  ((maskBits 64 (secMask b i)).findSome? (sectionBadFor profile b i)).map fun e => (e.1, i, e.2.1, e.2.2)

/-- The first failing check of an image (R182 to R184). -/
def imageBad (profile : Nat) (b : Bytes) : Option ImageError :=
  let n := imgSections b
  match headerBad profile b with
  | some e => some e
  | none =>
    match firstIdx n (badEntry b), firstIdx 64 fun g => (secAt b 1 g 0xFF).isNone with
    | some i, _ => some (.badarg, i, 0, 0)
    | none, some g => some (.badarg, 0xFFFF, 0, g)
    | none, none => (List.range n).findSome? (sectionBad profile b)

/-! ### Loading (R185) -/

/-- STEER rows outlive an image; without a map they are kept by block: pseudo-slot 8 for narrow rows, 9 for wide ones, the row's
block and row as its index. -/
def steerKept (v : MatStage) : Store TernRow :=
  v.tern.foldl (fun t e =>
    let slot := e.1 / 1048576
    if 8 ≤ slot then tabPut e.1 e.2 t
    else if slotTable v slot && descKind (descOf v slot) == 4 then
      let (b, r) := ternPlace v slot (e.1 % 1048576)
      tabPut (ternKey (if descWide (descOf v slot) then 9 else 8) (1024 * b + r)) e.2 t
    else t) []

/-- Kept STEER rows under a stage's map: a row whose block now belongs to a table of its width is that table's. -/
def steerPlaced (v : MatStage) (kept : Store TernRow) : Store TernRow :=
  kept.foldl (fun t e =>
    let i := e.1 % 1048576
    let slot := u8 v.blockMap (i / 1024)
    let wide := e.1 / 1048576 == 9
    if slotTable v slot && slot < 8 && descWide (descOf v slot) == wide then
      let rank := (mapOwned v.blockMap slot).idxOf (i / 1024)
      tabPut (ternKey slot (1024 * (if wide then rank / 2 else rank) + i % 1024)) e.2 t
    else tabPut e.1 e.2 t) []

/-- A stage cleared but for its profile region and what its hardware has retired. -/
def clearedStage (v w : MatStage) : MatStage :=
  { w with tern := steerPlaced w (steerKept v), rowErrors := v.rowErrors, retiredRows := v.retiredRows }

/-- A stage of pipeline `g` loaded from an image. -/
def loadStage (b : Bytes) (g : Nat) (s : State) (st : Nat) : State :=
  let w := clearedStage (matStage s g st) (imageStage b g st)
  let es := match secOf b 6 g st with | some x => imageEntries x | none => []
  let v := match checkEntries 0 es [(st, { w with tern := [] })] [] with
    | .ok (_, ws) => ws.flatten.foldl (fun v x => applyWrite x v) w
    | .error _ => w
  setStage g st v s

/-- Frames parked in pipeline `g` finish under the graph they started with (R145). -/
def keepGraph (g : Nat) (s : State) : State :=
  (framesAt s g .parked).foldl (fun s u =>
    modFrame u (fun v => if v.graph.isNone then { v with graph := some (parserPipe s g).graph } else v) s) s

/-- The image switched into pipeline `g`: parser and stages together. -/
def loadImage (b : Bytes) (g : Nat) (s : State) : State :=
  let s1 := (List.range 24).foldl (loadStage b g) (keepGraph g s)
  let graph := match secOf b 1 g 0xFF with | some x => parserGraph x | none => {}
  let p := matPipe s1 g
  setMatPipe g { p with imageId := u32 b 12, imageLoaded := true, imageHeld := false, retired := none, epoch := p.epoch + 1 }
    (setParserPipe g { parserPipe s1 g with graph } s1)

/-- Whether a frame stands between S0 and S23 of pipeline `g`. -/
def framesInside (s : State) (g : Nat) : Bool :=
  s.fr.frames.any fun e => e.2.pipe == g && atStage e.2.stage e.2

/-- Whether a port of pipeline `g` is enabled. -/
def pipePortEnabled (s : State) (g : Nat) : Bool := (configuredPorts s).any fun p => pipeOfPort p == g && portEnabled s p

/-- The apply stops with a status at pipeline `g`. -/
def stopAt (g : Nat) (st : Status) (s : State) : State :=
  kiln 0x0502 [(1, g), (2, statusCode st)]
    (modMat (fun m => { m with applyState := 3, applyStatus := statusCode st, applying := [], applyStops := false }) s)

/-- What follows a pipeline's load: the apply is done, goes on, or stops for a warm restart. -/
def afterApply (g : Nat) (s : State) : State :=
  let left := s.mat.applyLeft - 2 ^ g
  let s1 := modMat (fun m => { m with applied := m.applied + 2 ^ g, applyLeft := left, everLoaded := true }) s
  if left == 0 then modMat (fun m => { m with applyState := 2, applying := [], applyStops := false }) s1
  else if s1.mat.applyStops then stopAt ((maskBits 64 left).headD 0) .timeout s1
  else s1

/-- IMAGE_PIPELINE_APPLY (R185, R505): the next pipeline's turn. It is checked; its committed batches apply first; it is held until the
frames inside it have left; then it is loaded. `window` is the hold's length in µs. -/
def execImagePipelineApply (window : Fin 2001) (s : State) : Host.Outcome State Fault Refusal :=
  match maskBits 64 s.mat.applyLeft with
  | [] => .next s
  | g :: _ =>
    let p := matPipe s g
    if s.mat.applyState != 1 || (!p.imageHeld && !icouxTakes s) then .next s
    else if !p.imageHeld && (u8 s.mat.applying 6 != s.tableProfile || (!s.mat.allowLoss && pipePortEnabled s g)) then .next (stopAt g .state s)
    else if !p.parts.isEmpty || pipeStill s g then .next s
    else if framesInside s g then .next (setMatPipe g { p with imageHeld := true } s)
    else
      .next (afterApply g (kiln 0x0530 [(1, g), (4, u32 s.mat.applying 12), (4, window.val)] (loadImage s.mat.applying g s)))

/-! ### Commands (R504 to R507) -/

/-- Whether an image apply runs (R497). -/
def applyRuns (s : State) : Bool := s.mat.applyState == 1

/-- IMAGE_BEGIN. -/
def execImageBegin (c : Cmd) (s : State) : Host.Outcome State Fault Refusal := .next (uploadBegin 0x0501 0 applyRuns c s)

/-- IMAGE_CHUNK. -/
def execImageChunk (c : Cmd) (s : State) : Host.Outcome State Fault Refusal := .next (uploadChunk 0x0502 0 c s)

/-- IMAGE_VERIFY as the opcode tables of Icoux give it (R514 to R520), with the checks of its fields. -/
def opImageVerify : OpDef := { writeOp 0x0503 0 [] with role := .admin }

/-- IMAGE_VERIFY (R504): once the buffer's checks pass the claim ends, whatever the image's checks find. -/
def execImageVerify (c : Cmd) (s : State) : Host.Outcome State Fault Refusal :=
  .next (icoux opImageVerify c (fun i _ s =>
    match uploadWhole s 0 i with
    | .error (st, d) => .fail st d
    | .ok b =>
      let s1 := releaseUpload 0 s
      match imageBad s.tableProfile b with
      | some (st, sec, tbl, e) => .done s1 st (toLe 2 sec ++ toLe 1 tbl ++ toLe 1 0 ++ toLe 4 e) []
      | none =>
        .done (kiln 0x0501 [(4, u32 b 12)] (modMat (fun m => { m with staged := b }) s1)) .ok (toLe 4 (u32 b 12) ++ toLe 2 (imgSections b)) []) s)

/-- IMAGE_APPLY as the opcode tables of Icoux give it (R514 to R520), with the checks of its fields. -/
def opImageApply : OpDef := { writeOp 0x0504 16 [fVal 0 8 (fun v => orElse (v != 0) .badarg), fBits 8 1 1, fRsv 9 7] with role := .admin }

/-- IMAGE_APPLY (R505). -/
def execImageApply (c : Cmd) (s : State) : Host.Outcome State Fault Refusal :=
  .next (icoux opImageApply c (fun _ p s =>
    let mask := u64 p 0
    let loss := bit (u8 p 8) 0
    if applyRuns s then badAll .busy
    else if s.mat.staged.isEmpty || u8 s.mat.staged 6 != s.tableProfile || (!loss && (maskBits 64 mask).any (pipePortEnabled s)) then
      badAll .state
    else
      .done (modMat (fun m => { m with
        applying := m.staged, applyState := 1, applyStatus := 0, applied := 0, applyLeft := mask, allowLoss := loss }) s) .pending
        (toLe 2 (popcount 64 mask)) []) s)

/-- The parser and the non-profile stage memories of a pipeline cleared (R506). -/
def unloadPipe (g : Nat) (s : State) : State :=
  let s1 := (List.range 24).foldl (fun s st => setStage g st (clearedStage (matStage s g st) {}) s) (keepGraph g s)
  let p := matPipe s1 g
  setMatPipe g { p with imageId := 0, imageLoaded := false, retired := none } (setParserPipe g { parserPipe s1 g with graph := {} } s1)

/-- IMAGE_UNLOAD as the opcode tables of Icoux give it (R514 to R520), with the checks of its fields. -/
def opImageUnload : OpDef := { writeOp 0x0505 8 [fVal 0 8 (fun v => orElse (v != 0) .badarg)] with role := .admin }

/-- Whether an IMAGE_UNLOAD that every check lets pass waits: frames stand in the stages of a named pipeline, whose ports are all disabled. -/
def unloadWaits (c : Cmd) (s : State) : Bool :=
  let e := effectiveCmd c s
  let named := maskBits 64 (u64 (payloadOf e) 0)
  (slotOf s c.slot.val).state == .opened && (transportBad e (slotOf s c.slot.val).i3c).isNone &&
    (checkCommand opImageUnload e (takeCommand c.slot.val s)).isNone && !applyRuns s && !named.any (pipePortEnabled s) &&
    named.any (framesInside s)

/-- IMAGE_UNLOAD (R506): it is rejected at once, or takes effect once no frame stands in the stages of the named pipelines. -/
def execImageUnload (c : Cmd) (s : State) : Host.Outcome State Fault Refusal :=
  if unloadWaits c s then .next s
  else
    .next (icoux opImageUnload c (fun _ p s =>
      if applyRuns s then badAll .busy
      else if (maskBits 64 (u64 p 0)).any (pipePortEnabled s) then badAll .state
      else okWrite (forMask 64 (u64 p 0) unloadPipe s)) s)

/-- IMAGE_STATUS as the opcode tables of Icoux give it (R514 to R520), with the checks of its fields. -/
def opImageStatus : OpDef := requestOp 0x0506 0 []

/-- IMAGE_STATUS (R507). -/
def execImageStatus (c : Cmd) (s : State) : Host.Outcome State Fault Refusal :=
  .next (icoux opImageStatus c (fun _ _ s =>
    let m := s.mat
    let state := if (uploadOf s 0).claim.isSome then 1 else if m.staged.isEmpty then 0 else 2
    okReply s (image 32 [(0, 4, u32 m.staged 12), (4, 1, state), (5, 1, m.applyState), (6, 2, m.applyStatus), (8, 8, m.applied),
      (16, 8, m.applyLeft)])) s)

end Sys2Proof.Machine
end

