-- ==== Sys2Proof/Machine/Rings.lean ====
section
/-!
DEFINITION. The DMA packet rings: posting, deliveries, injection and their interrupts (R458, R469 to R473).
-/

namespace Sys2Proof.Machine

/-! ### Indices and interrupts -/

/-- The entries of each direction of a ring pair: none while it is disabled. -/
def rxEntries (v : Ring) : Nat := if rxEnabled v then u32 v.obj 4 else 0
def txEntries (v : Ring) : Nat := if txEnabled v then u32 v.obj 8 else 0

/-- A tail write of ring `r`: a doorbell fault of its owner, or `put` takes it; a ring without an owner ignores it. -/
def tailWrite (r kind : Nat) (bad : Ring → Bool) (put : Ring → Ring) (s : State) : State :=
  let v := ringOf s r
  match ringOwner v with
  | none => ignored s
  | some o => if bad v then doorbellFault o kind r s else setRing r (put v) s

/-- HST_RX_TAIL_WRITE (R458). -/
def execHstRxTailWrite (r : RingNo) (v : BitVec 32) (s : State) : Host.Outcome State Fault Refusal :=
  if !barFull s then .next s
  else .next (tailWrite r.val 3 (fun x => doorbellBad v x.rxTail x.rxHead (rxEntries x)) (fun x => { x with rxTail := v }) s)

/-- HST_TX_TAIL_WRITE (R458). -/
def execHstTxTailWrite (r : RingNo) (v : BitVec 32) (s : State) : Host.Outcome State Fault Refusal :=
  if !barFull s then .next s
  else .next (tailWrite r.val 4 (fun x => doorbellBad v x.txTail x.txHead (txEntries x)) (fun x => { x with txTail := v }) s)

/-- The least time between interrupts of a direction. -/
def coalesce (v : Ring) : Nat := u16 v.obj 12 * tUs

/-- A write-back asks for its direction's interrupt: signalled at once, or when the coalescing time has passed (R469, R474). -/
def ringIrq (r : Nat) (tx : Bool) (s : State) : State :=
  let v := ringOf s r
  let vec := if tx then 64 + r else r
  let due := if tx then v.txIrqAt else v.rxIrqAt
  if !bit (u8 v.obj 1) (if tx then 3 else 2) then s
  else if coalesce v == 0 then signal vec s
  else match due with
    | some _ => setRing r (if tx then { v with txIrqWaits := true } else { v with rxIrqWaits := true }) s
    | none =>
      let t := some (s.now + coalesce v)
      signal vec (setRing r (if tx then { v with txIrqAt := t } else { v with rxIrqAt := t }) s)

/-- IRQ_COALESCE_EXPIRY (R469): a waiting interrupt is signalled and the time starts again. -/
def execIrqCoalesceExpiry (r : RingNo) (tx : Bool) (s : State) : Host.Outcome State Fault Refusal :=
  let v := ringOf s r.val
  match (if tx then v.txIrqAt else v.rxIrqAt) with
  | none => .next s
  | some t =>
    let s1 := reach t s
    let waits := if tx then v.txIrqWaits else v.rxIrqWaits
    let v1 := if tx then { v with txIrqAt := none, txIrqWaits := false } else { v with rxIrqAt := none, rxIrqWaits := false }
    let s2 := setRing r.val v1 s1
    .next (if waits then ringIrq r.val tx s2 else s2)

/-! ### Deliveries (R470, R471) -/

/-- Whether a delivery may be written: its frame has ended and its limit is settled. -/
def deliveryReady (s : State) (d : Delivery) : Bool := (frameOf s d.frame).ended && d.limit == 0

/-- The next delivery of ring `r`: the first that is ready and that no earlier frame of its ingress port precedes. -/
def nextDelivery (s : State) (r : Nat) : Option Delivery :=
  let mine := s.fr.deliveries.filter fun d => d.ring == r
  mine.find? fun d => deliveryReady s d && !mine.any fun e =>
    (frameOf s e.frame).port == (frameOf s d.frame).port && e.frame < d.frame

/-- The bytes a delivery writes: the frame without its FCS. -/
def deliveryBytes (s : State) (d : Delivery) : Bytes :=
  let b := mirrorBytes (frameOf s d.frame) d.trunc
  b.take (b.length - 4)

/-- The pieces of a delivery in the posted buffers, in order: none if they are too small. -/
def fillBuffers : List (Nat × Nat) → Bytes → Option (List (Nat × Bytes))
  | [], b => if b.isEmpty then some [] else none
  | (a, n) :: rest, b =>
    if b.isEmpty then some []
    else if n == 0 then none
    else (fillBuffers rest (b.drop n)).map ((a, b.take n) :: ·)

/-- The bytes 10 to 31 of a receive descriptor. -/
def rxWriteBack (v : Frame) (d : Delivery) (len : Nat) (phase sop eop : Bool) : Bytes :=
  toLe 2 len ++ toLe 1 (b2n phase + 2 * b2n sop + 4 * b2n eop + 8 * b2n v.tsHold) ++ toLe 1 d.reason ++
    toLe 2 (if v.source == 2 then 0xFFFF else v.port) ++ toLe 4 d.info ++ toLe 12 v.tsPtp

/-- Writes the pieces and their descriptors from free-running index `idx`. -/
def writePieces (ring : Ring) (v : Frame) (d : Delivery) : Nat → Bool → List (Nat × Bytes) → State → State
  | _, _, [], s => s
  | idx, sop, (a, b) :: t, s =>
    let n := rxEntries ring
    let s1 := emit (.hostWrite (u64 ring.obj 16 + 32 * (idx % n) + 10)
      (rxWriteBack v d b.length (idx / n % 2 == 0) sop t.isEmpty)) (emit (.hostWrite a b) s)
    writePieces ring v d (idx + 1) false t s1

/-- The delivery is over: its frame may be forgotten. -/
def deliveryDone (d : Delivery) (s : State) : State :=
  settleFrame d.frame (modFr (fun t => { t with deliveries := t.deliveries.erase d }) s)

/-- HOST_RING_FULL (R471). -/
def ringFull (r : Nat) (d : Delivery) (s : State) : State :=
  let v := frameOf s d.frame
  let s1 := count cDmaRxFull r 1 s
  if d.reason == 5 then dropCopyIn d.info 0x0D (some d.info) v {} s1
  else if d.reason == 4 then dropIn (d.info / 16) 0x0D v { mirror := true } s1
  else dropIn (quadOfPipe v.pipe) 0x0D v {} s1

/-- HOST_DELIVERY (R471): the next delivery of ring `r`. `bufs` are the addresses and sizes of its posted buffers, in order from
HST_RX_HEAD; `full` says that its staging is full. -/
def execHostDelivery (r : RingNo) (bufs : List (Nat × Nat)) (full : Bool) (s : State) : Host.Outcome State Fault Refusal :=
  match nextDelivery s r.val with
  | none => .next s
  | some d =>
    let v := ringOf s r.val
    let posted := (v.rxTail - v.rxHead).toNat
    let b := deliveryBytes s d
    if !full && hostFenced s 0 then .next s
    else if full || !rxEnabled v then .next (deliveryDone d (ringFull r.val d s))
    else match fillBuffers (bufs.take posted) b with
      | none => if bufs.length < posted then .next s else .next (deliveryDone d (ringFull r.val d s))
      | some ps =>
        let f := frameOf s d.frame
        let s1 := setRing r.val { v with rxHead := v.rxHead + BitVec.ofNat 32 ps.length } (writePieces v f d v.rxHead.toNat true ps s)
        let s2 := count cDmaRxBytes r.val b.length (count cDmaRxFrames r.val 1 s1)
        .next (ringIrq r.val false (deliveryDone d (if d.reason == 2 then count cPrsTrapped f.pipe 1 s2 else s2)))

/-! ### Injection (R472, R473) -/

/-- Whether a transmit descriptor ends a frame. -/
def txEop (b : Bytes) : Bool := bit (u8 b 10) 0

/-- The descriptors of one frame: those up to the first with eop. -/
def txFrame : List Bytes → List Bytes
  | [] => []
  | d :: t => if txEop d then [d] else d :: txFrame t

/-- Whether a descriptor has a reserved bit set or names no port. -/
def txBad (b : Bytes) : Bool := u8 b 10 / 4 != 0 || u16 b 12 > 1023 || !zeroAt b 14 2 || !zeroAt b 20 12

/-- Writes done and status into `n` descriptors from free-running index `idx`. -/
def writeDone (ring : Ring) (status : Nat) : Nat → List Bytes → State → State
  | _, [], s => s
  | idx, d :: t, s =>
    writeDone ring status (idx + 1) t (emit (.hostWrite (u64 ring.obj 24 + 32 * (idx % txEntries ring) + 10)
      (toLe 1 (u8 d 10 % 2 + 2) ++ toLe 1 status)) s)

/-- The descriptors of a frame complete with a status. -/
def txComplete (r status : Nat) (ds : List Bytes) (s : State) : State :=
  let v := ringOf s r
  let s1 := setRing r { v with txHead := v.txHead + BitVec.ofNat 32 ds.length } (writeDone v status v.txHead.toNat ds s)
  let s2 := if status == 0 then s1 else count cDmaTxErrors r 1 s1
  ringIrq r true (modHost (fun h => { h with txTurn := tabPut (u8 v.obj 2) r h.txTurn }) s2)

/-- A refused frame: a transport fault of the ring's owner. -/
def txRefused (r status : Nat) (ds : List Bytes) (s : State) : State :=
  let o := (ringOwner (ringOf s r)).getD 0
  transportFault o (txComplete r status ds s)

/-- A failed buffer read: the transfer is abandoned (R481, R485). -/
def txReadFailed (r : Nat) (ds : List Bytes) (s : State) : State :=
  let a := u64 (ds.headD []) 0 % 4294967296
  txRefused r 2 ds (count cIfDiscarded 0 1 (raiseFault 60 18 0 false (kiln 0x0107 [(1, 4), (4, r), (4, a)] s)))

/-- A frame of ring `r` enters its pipeline's FIFO (R473). -/
def injectFrame (r : Nat) (ds : List Bytes) (b : Bytes) (s : State) : State :=
  let g := u8 (ringOf s r).obj 2
  let d := ds.headD []
  let p := u16 d 12
  let t := datapathStamp s (quadOfPipe g)
  let t' := stampOf s (quadOfPipe g) (u8 (portTimeObj s p) 2)
  let data := b ++ fcsOf b
  let s1 := (newFrame { port := p, pipe := g, source := 2, data, ended := true, maxFrame := data.length, resv := data.length, stamp := t
                        ts := stamp96 t, tsPtp := stamp96 t', tsHold := t'.holdover, hdr := tabSet 0 286 (u32 d 16) [] } s).2
  txComplete r 0 ds (count cDmaTxBytes r b.length (count cDmaTxFrames r 1 s1))

/-- Whether ring `r` has its turn at its pipeline: no ring that comes before it in the round has descriptors waiting. -/
def txTurnOf (s : State) (r : Nat) : Bool :=
  let g := u8 (ringOf s r).obj 2
  let last := tabGet 63 s.host.txTurn g
  let at_ := fun (x : Nat) => (x + 63 - last) % 64
  !(List.range 64).any fun x =>
    let v := ringOf s x
    txEnabled v && u8 v.obj 2 == g && v.txTail != v.txHead && at_ x < at_ r

/-- HOST_INJECT (R473): the DMA engine reads the next frame of ring `r`. `ds` are its posted descriptors in order from HST_TX_HEAD,
`data` what its buffers hold, `readOk` says that their read succeeds. A frame of more than 16 descriptors is refused with all of them
(assumption 167). -/
def execHostInject (r : RingNo) (ds : List Bytes) (data : Bytes) (readOk : Bool) (s : State) : Host.Outcome State Fault Refusal :=
  let v := ringOf s r.val
  let g := u8 v.obj 2
  let posted := (v.txTail - v.txHead).toNat
  let fr := txFrame (ds.take posted)
  let whole := match fr.getLast? with | some d => txEop d || fr.length == txEntries v | none => false
  if !txEnabled v || hostFenced s 0 || posted == 0 || !txTurnOf s r.val then .next s
  else if !whole then
    if ds.length < posted then .next s else .next (modHost (fun h => { h with txTurn := tabPut g r.val h.txTurn }) s)
  else
    let len := (fr.map fun d => u16 d 8).foldl (· + ·) 0
    let last := fr.getLastD []
    if !txEop last || 16 < fr.length || !inRange len 60 16379 then .next (txRefused r.val 3 fr s)
    else if fr.any txBad then .next (txRefused r.val 1 fr s)
    else if !readOk then .next (txReadFailed r.val fr s)
    else
      let b := slice data 0 len
      if pipeFenced s g then
        .next (txComplete r.val 4 fr
          (dropIn (quadOfPipe g) 0x2B { port := u16 (fr.headD []) 12, pipe := g, source := 2, data := b ++ fcsOf b, ended := true
                                        stamp := datapathStamp s (quadOfPipe g) } {} s))
      else if 65536 < fifoUsed s g + len + 4 then .next s
      else .next (injectFrame r.val fr b s)

end Sys2Proof.Machine
end

