-- ==== Sys2Proof/Machine/Sideband.lean ====
section
/-!
DEFINITION. The I3C target: Umlimel frames, common command codes and in-band interrupts (R475 to R479, R485).
-/

namespace Sys2Proof.Machine

/-- `s` with the I3C target changed. -/
def modI3c (f : I3c → I3c) (s : State) : State := modHost (fun h => { h with i3c := f h.i3c }) s

/-- Whether the target answers common command codes: from the end of the boot ROM's self-test. -/
def i3cUp (s : State) : Bool := s.boot.romRan && !s.boot.resetLow && s.boot.powered

/-- Whether the target takes Umlimel frames: it has an address, the glaze stage has begun and no HOST fence holds it. -/
def umlimelUp (s : State) : Bool :=
  i3cUp s && s.host.i3c.dynAddr.isSome && !hostFenced s 1 &&
    (match s.boot.stage with | .bisque => false | .failed => !s.boot.failedInBisque | _ => true)

/-- Whether session byte `n` names a session open on I3C. -/
def i3cSession (s : State) (n : Nat) : Bool := n < 32 && (slotOf s n).i3c && (slotOf s n).state == .opened

/-- A frame that breaks R476 is discarded: a transport fault of its session, or counted against the interface. -/
def frameDiscarded (n : Nat) (s : State) : State :=
  let s1 := count cIfDiscarded 1 1 s
  if i3cSession s n then transportFault n s1 else s1

/-- A write frame arrives, in SDR or under HDR-DDR: NACKed while the target may not take it, else `f` takes it. For up to 2 µs after
the previous frame it may still be taking that one. -/
def writeFrame (ddr : Bool) (f : State → State) (s : State) : State :=
  if !i3cUp s || (ddr && !s.host.i3c.hdr) then s
  else if !umlimelUp s then emit .i3cNack s
  else
    let taken := fun (s : State) => f (modI3c (fun v => { v with lastFrame := some s.now, hdr := ddr }) s)
    match s.host.i3c.lastFrame with
    | none => taken s
    | some t =>
      if t + 2 * tUs ≤ s.now then taken s
      else
        let (n, s1) := takeFree s
        if n % 2 == 1 then emit .i3cNack s1 else taken s1

/-- UMLIMEL_PAYLOAD (R476). -/
def execUmlimelPayload (session off : Nat) (data : Bytes) (ddr : Bool) (s : State) : Host.Outcome State Fault Refusal :=
  .next (writeFrame ddr (fun s =>
    if i3cSession s session && data.length ≤ 64 && off + data.length ≤ 4096 then
      modSlot session (fun v => { v with payload := tabFill 0 off data v.payload }) s
    else frameDiscarded session s) s)

/-- The lowest FREE slot that no fence holds. -/
def freeSlot (s : State) : Option Nat := firstIdx 32 fun i => (slotOf s i).state == .free && !mailboxFenced s i

/-- An answer to a COMMAND that is never in progress. -/
def answerAside (i : Nat) (st : Status) (d : Bytes) (s : State) : State :=
  endCommand { slot := i, tag := u16 d 2, opcode := u16 d 0, status := st, aside := true } s

/-- UMLIMEL_COMMAND (R476, R478): a descriptor for a session, or SESSION_OPEN for a new one. -/
def execUmlimelCommand (session : Nat) (desc : Bytes) (ddr : Bool) (s : State) : Host.Outcome State Fault Refusal :=
  .next (writeFrame ddr (fun s =>
    if desc.length != 64 then frameDiscarded session s
    else if session == 0xFF then
      if u16 desc 0 != 0x0101 then frameDiscarded session s
      else match freeSlot s with
        | none => answerAside 0xFF .nores desc s
        | some i => modSlot i (fun v => { slotCleared v with i3c := true, state := .pending, submitted := some desc }) s
    else if !i3cSession s session then frameDiscarded session s
    else if (slotOf s session).submitted.isSome || 0 < inProgressCount s session then answerAside session .busy desc s
    else modSlot session (fun v => { v with submitted := some desc }) s) s)

/-- UMLIMEL_FETCH (R477). -/
def execUmlimelFetch (session off : Nat) (ddr : Bool) (s : State) : Host.Outcome State Fault Refusal :=
  .next (writeFrame ddr (fun s =>
    if i3cSession s session && off < 4096 then modI3c (fun v => { v with fetch := some (session, off) }) s
    else frameDiscarded session s) s)

/-- The reply chunk that a FETCH asks for next, with its session; none once the reply is over. -/
def replyChunk (s : State) : Option (Nat × Nat × Bytes) :=
  match s.host.i3c.fetch with
  | none => none
  | some (n, off) =>
    let b := ((slotOf s n).reply.drop off).take 64
    if i3cSession s n && !b.isEmpty then some (n, off + b.length, b) else none

/-- UMLIMEL_READ (R477): a reply chunk after a FETCH, else the oldest completion, else NONE. -/
def execUmlimelRead (ddr : Bool) (s : State) : Host.Outcome State Fault Refusal :=
  if !i3cUp s || (ddr && !s.host.i3c.hdr) then .next s
  else if !umlimelUp s then .next (emit .i3cNack s)
  else match replyChunk s with
    | some (n, off, b) =>
      .next (emit (.i3cRead (toLe 1 2 ++ toLe 1 n ++ toLe 2 b.length ++ b)) (modI3c (fun v => { v with fetch := some (n, off), hdr := ddr }) s))
    | none =>
      let s1 := modI3c (fun v => { v with fetch := none, hdr := ddr }) s
      match s.host.i3c.queue with
      | [] => .next (emit (.i3cRead (toLe 4 0)) s1)
      | (n, b) :: t => .next (emit (.i3cRead (toLe 1 1 ++ toLe 1 n ++ toLe 2 32 ++ b)) (modI3c (fun v => { v with queue := t }) s1))

/-- UMLIMEL_FRAME_INVALID (R476). -/
def execUmlimelFrameInvalid (session : Nat) (ddr : Bool) (s : State) : Host.Outcome State Fault Refusal :=
  .next (writeFrame ddr (frameDiscarded session) s)

/-- IBI_RETRY (R479): 100 µs after a declined interrupt it is raised again while its cause remains. -/
def execIbiRetry (alert : Bool) (s : State) : Host.Outcome State Fault Refusal :=
  let v := s.host.i3c
  match (if alert then v.alertIbi else v.completionIbi) with
  | none => .next s
  | some t =>
    if alert then .next (if alertOn s then raiseIbi true 0x40 (reach (t + 100 * tUs) s) else s)
    else match v.queue with
      | [] => .next s
      | (n, _) :: _ => .next (raiseIbi false (BitVec.ofNat 8 (0x20 + n % 32)) (reach (t + 100 * tUs) s))

/-! ### Common command codes (R475) -/

/-- A broadcast code, or a direct one that sets something. -/
def ccc (f : State → State) (s : State) : State := if i3cUp s then f (modI3c (fun v => { v with hdr := false }) s) else s

/-- A direct code that reads: a target without a dynamic address does not acknowledge. -/
def cccGet (b : State → Bytes × State) (s : State) : State :=
  if !i3cUp s then s
  else if s.host.i3c.dynAddr.isNone then emit .i3cNack s
  else
    let (x, s1) := b (modI3c (fun v => { v with hdr := false }) s)
    emit (.i3cRead x) s1

/-- The target has a dynamic address. -/
def setAddress (a : BitVec 7) (s : State) : State := kiln 0x0108 [(4, a.toNat)] (modI3c (fun v => { v with dynAddr := some a.toNat }) s)

/-- The frame state is reset; sessions are kept. -/
def resetFrames (s : State) : State :=
  count cIfLinkDowns 1 1 (modI3c (fun v => { v with fetch := none, lastFrame := none, hdr := false }) s)

/-- ENEC: bit 0 enables in-band interrupts. -/
def execEnec (events : BitVec 8) (s : State) : Host.Outcome State Fault Refusal :=
  .next (ccc (modI3c fun v => { v with events := v.events || events.getLsbD 0 }) s)

/-- DISEC. -/
def execDisec (events : BitVec 8) (s : State) : Host.Outcome State Fault Refusal :=
  .next (ccc (modI3c fun v => { v with events := v.events && !events.getLsbD 0 }) s)

/-- RSTDAA. -/
def execRstdaa (s : State) : Host.Outcome State Fault Refusal := .next (ccc (modI3c fun v => { v with dynAddr := none }) s)

/-- ENTDAA: a target without a dynamic address takes part. -/
def execEntdaa (a : BitVec 7) (s : State) : Host.Outcome State Fault Refusal :=
  .next (ccc (fun s => if s.host.i3c.dynAddr.isNone then setAddress a s else s) s)

/-- SETDASA, from static address 0x3A. -/
def execSetdasa (a : BitVec 7) (s : State) : Host.Outcome State Fault Refusal :=
  .next (ccc (fun s => if s.host.i3c.dynAddr.isNone then setAddress a s else s) s)

/-- SETNEWDA. -/
def execSetnewda (a : BitVec 7) (s : State) : Host.Outcome State Fault Refusal :=
  .next (ccc (fun s => if s.host.i3c.dynAddr.isSome then setAddress a s else s) s)

/-- SETMWL: values below 68 are ignored. -/
def execSetmwl (n : BitVec 16) (s : State) : Host.Outcome State Fault Refusal :=
  .next (ccc (modI3c fun v => if n.toNat < 68 then v else { v with mwl := n.toNat }) s)

/-- SETMRL. -/
def execSetmrl (n : BitVec 16) (s : State) : Host.Outcome State Fault Refusal :=
  .next (ccc (modI3c fun v => if n.toNat < 68 then v else { v with mrl := n.toNat }) s)

/-- GETMWL. -/
def execGetmwl (s : State) : Host.Outcome State Fault Refusal := .next (cccGet (fun s => (toBe 2 s.host.i3c.mwl, s)) s)

/-- GETMRL: the third byte is the length of the in-band interrupt's data. -/
def execGetmrl (s : State) : Host.Outcome State Fault Refusal := .next (cccGet (fun s => (toBe 2 s.host.i3c.mrl ++ toBe 1 1, s)) s)

/-- The provisional ID (R475). -/
def provisionalId : Nat := Config.mipiManufacturer.toNat * 2 ^ 33 + 0x1024 * 65536 + Config.serial.toNat % 65536

/-- GETPID. -/
def execGetpid (s : State) : Host.Outcome State Fault Refusal := .next (cccGet (fun s => (toBe 6 provisionalId, s)) s)

/-- GETBCR. -/
def execGetbcr (s : State) : Host.Outcome State Fault Refusal := .next (cccGet (fun s => (toBe 1 6, s)) s)

/-- GETDCR. -/
def execGetdcr (s : State) : Host.Outcome State Fault Refusal := .next (cccGet (fun s => (toBe 1 0, s)) s)

/-- GETSTATUS: the spec states no contents. -/
def execGetstatus (s : State) : Host.Outcome State Fault Refusal :=
  .next (cccGet (fun s => let (n, s1) := takeFree s; (toBe 2 n, s1)) s)

/-- GETMXDS: the spec states no contents. -/
def execGetmxds (s : State) : Host.Outcome State Fault Refusal :=
  .next (cccGet (fun s => let (n, s1) := takeFree s; (toBe 2 n, s1)) s)

/-- ENTHDR0. -/
def execEnthdr0 (s : State) : Host.Outcome State Fault Refusal := .next (ccc (modI3c fun v => { v with hdr := true }) s)

/-- RSTACT: action 0x01 resets the frame state; others are not supported. -/
def execRstact (action : BitVec 8) (s : State) : Host.Outcome State Fault Refusal :=
  .next (ccc (fun s => if action == 1 then resetFrames s else s) s)

/-! ### HST_LINK (R485) -/

/-- HST_LINK: a corrected error is counted; any other raises bit 60, and abandons a transfer of PCI Express or resets the I3C target's
frame state. -/
def execHstLink (site : Fin 2) (corrected : Bool) (s : State) : Host.Outcome State Fault Refusal :=
  if corrected then .next (count cIfCorrected site.val 1 s)
  else .next (detect 60 18 site.val (fun _ s => if site.val == 0 then count cIfDiscarded 0 1 s else resetFrames s) s)

end Sys2Proof.Machine
end

