-- ==== Sys2Proof/Machine/Tap.lean ====
section
/-!
DEFINITION. The test access port (R567) and the supplies (R552, R556 to R558).
-/

namespace Sys2Proof.Machine

/-! ### The test access port -/

/-- The cells of the boundary-scan register. -/
abbrev boundaryCells : Nat := 6262

/-- A list of exactly `n` bits. -/
def bitsOf (n : Nat) (l : List Bool) : List Bool := l.take n ++ List.replicate (n - l.length) false

/-- One scan of a data register: the bits that come out, first first, and the register afterwards. -/
def scan (reg tdi : List Bool) : List Bool × List Bool := ((reg ++ tdi).take tdi.length, (reg ++ tdi).drop tdi.length)

/-- Whether test instructions take effect: while RESET_N is asserted, or in BISQUE with BOOT_SEL HOLD. -/
def testWorks (s : State) : Bool := s.boot.resetLow || (s.boot.strap == 3 && s.boot.stage == .bisque)

/-- IDCODE: revision A0, part 0x1024, the manufacturer and a one. -/
def idcode : Nat := 0x1024 * 4096 + Config.jedecManufacturer.toNat * 2 + 1

/-- The bits of IDCODE from bit 0 up. -/
def idcodeBits : List Bool := (List.range 32).map fun i => bit idcode i

/-- A scan with instruction `i` loaded and register `reg` captured; nothing happens without VDD_IO. -/
def tapScan (i : TapInstr) (reg tdi : List Bool) (s : State) : State :=
  if !s.boot.powered then s
  else
    let (out, reg') := scan reg tdi
    emit (.tdo out) (modBoot (fun b => { b with tap := { b.tap with instr := i, shifted := reg' } }) s)

/-- What the scan left becomes the update stage of the boundary-scan register. -/
def tapUpdate (s : State) : State :=
  if s.boot.powered then modBoot (fun b => { b with tap := { b.tap with latched := b.tap.shifted } }) s else s

/-- The update stage drives the pins under instruction `i`. -/
def tapDrive (i : TapInstr) (s : State) : State :=
  if s.boot.powered then emit (.boundary i (bitsOf boundaryCells s.boot.tap.latched)) s else s

/-- BYPASS: one bit that captures 0. -/
def execBypass (tdi : List Bool) (s : State) : Host.Outcome State Fault Refusal := .next (tapScan .bypass [false] tdi s)

/-- IDCODE. -/
def execIdcode (tdi : List Bool) (s : State) : Host.Outcome State Fault Refusal := .next (tapScan .idcode idcodeBits tdi s)

/-- A test instruction on the boundary-scan register, which captures `pins`; where it may not work it acts as BYPASS. -/
def boundaryScan (i : TapInstr) (pins tdi : List Bool) (s : State) : State :=
  if testWorks s then tapUpdate (tapScan i (bitsOf boundaryCells pins) tdi s) else tapScan i [false] tdi s

/-- SAMPLE/PRELOAD: the pins are sampled and the update stage is loaded; the pins stay the device's. -/
def execSamplePreload (pins tdi : List Bool) (s : State) : Host.Outcome State Fault Refusal := .next (boundaryScan .samplePreload pins tdi s)

/-- An instruction that drives the pins from the boundary-scan register after its scan. -/
def drivingScan (i : TapInstr) (pins tdi : List Bool) (s : State) : State :=
  let s1 := boundaryScan i pins tdi s
  if testWorks s then tapDrive i s1 else s1

/-- EXTEST. -/
def execExtest (pins tdi : List Bool) (s : State) : Host.Outcome State Fault Refusal := .next (drivingScan .extest pins tdi s)

/-- EXTEST_PULSE: the AC-coupled lanes carry one pulse. -/
def execExtestPulse (pins tdi : List Bool) (s : State) : Host.Outcome State Fault Refusal := .next (drivingScan .extestPulse pins tdi s)

/-- EXTEST_TRAIN: the AC-coupled lanes carry a pulse train. -/
def execExtestTrain (pins tdi : List Bool) (s : State) : Host.Outcome State Fault Refusal := .next (drivingScan .extestTrain pins tdi s)

/-- An instruction that selects the bypass register and puts the pins under the test logic. -/
def holdingScan (i : TapInstr) (tdi : List Bool) (s : State) : State :=
  let s1 := tapScan i [false] tdi s
  if testWorks s then tapDrive i s1 else s1

/-- HIGHZ: the outputs are at high impedance. -/
def execHighz (tdi : List Bool) (s : State) : Host.Outcome State Fault Refusal := .next (holdingScan .highz tdi s)

/-- CLAMP: the outputs hold what the boundary-scan register holds. -/
def execClamp (tdi : List Bool) (s : State) : Host.Outcome State Fault Refusal := .next (holdingScan .clamp tdi s)

/-! ### Supplies -/

/-- The absolute maximum of a rail in mV (R558): VDD_IO, VDD_PLL, VDD_CORE, VDD_SRAM, VDD_DRAM, VDDQ_DRAM, VDDA_LANE, VDDH_LANE. -/
def railMax (r : Nat) : Int := [2100, 1000, 900, 900, 1250, 650, 1000, 1400].getD r 0

/-- The output pins whose levels the model shows: the time pins 4 to 9, ALERT_N and THERMTRIP_N. -/
def outputPins : List Nat := [4, 5, 6, 7, 8, 9, pinAlert, pinThermtrip]

/-- Output pin `p` goes to an undefined level: a free value (R571). -/
def undefinePin (s : State) (p : Nat) : State := emit (.pin p ((takeFree s).1 % 2 == 1)) (takeFree s).2

/-- SUPPLY_LEAVES_RANGE (R556 to R558): rail `rail` is at `mv`. VDD_IO below its threshold takes the reset cause, the trip record and
the latch, and leaves every output undefined (R571); VDD_PLL takes the kiln log. Beyond the ratings the spec states nothing. -/
def execSupplyLeavesRange (rail : Fin 8) (mv : Int) (s : State) : Host.Outcome State Fault Refusal :=
  if mv < -300 || mv > railMax rail.val then .fault .beyondRatings
  else if rail.val == 0 && mv < 1660 then
    .next (outputPins.foldl undefinePin (modBoot (fun b => { b with cause := 0, tripRecord := none, tripped := false, powered := false }) s))
  else if rail.val == 1 && mv ≤ 820 then
    .next (modFlt (fun f => { f with kiln := [], nextSeq := 0, newestIsLast := false }) s)
  else .next s

end Sys2Proof.Machine
end

