-- ==== Sys2Proof/Machine/Dispatch.lean ====
section
/-!
DEFINITION. exec: one arm per command of the opcode table, each one direct call of that command's meaning.
-/

namespace Sys2Proof.Machine

open Sys2Proof

def exec (i : Instr) (s : State) : Host.Outcome State Fault Refusal :=
  match i with
  | .clockSourceSwitch q => Sys2Proof.Machine.execClockSourceSwitch q s
  | .rateAllowanceRefill q => Sys2Proof.Machine.execRateAllowanceRefill q s
  | .backgroundPeriodEnd q task => Sys2Proof.Machine.execBackgroundPeriodEnd q task s
  | .backgroundSlotGrant e offset complete => Sys2Proof.Machine.execBackgroundSlotGrant e offset complete s
  | .timeAdvance q => Sys2Proof.Machine.execTimeAdvance q s
  | .alignmentStrobe heard => Sys2Proof.Machine.execAlignmentStrobe heard s
  | .strobeMissing q => Sys2Proof.Machine.execStrobeMissing q s
  | .refclkWindow d present rate => Sys2Proof.Machine.execRefclkWindow d present rate s
  | .timeDomainWrite c => Sys2Proof.Machine.execTimeDomainWrite c s
  | .timeDomainRead c => Sys2Proof.Machine.execTimeDomainRead c s
  | .timeAdjust c => Sys2Proof.Machine.execTimeAdjust c s
  | .slewEnd d => Sys2Proof.Machine.execSlewEnd d s
  | .timeGet c => Sys2Proof.Machine.execTimeGet c s
  | .pllLockReport q => Sys2Proof.Machine.execPllLockReport q s
  | .profileSwitchDone => Sys2Proof.Machine.execProfileSwitchDone s
  | .profileSwitchTimeout => Sys2Proof.Machine.execProfileSwitchTimeout s
  | .pllRelockRetry => Sys2Proof.Machine.execPllRelockRetry s
  | .portTimeWrite c => Sys2Proof.Machine.execPortTimeWrite c s
  | .portTimeRead c => Sys2Proof.Machine.execPortTimeRead c s
  | .twostepRead c => Sys2Proof.Machine.execTwostepRead c s
  | .timePinWrite c => Sys2Proof.Machine.execTimePinWrite c s
  | .timePinRead c => Sys2Proof.Machine.execTimePinRead c s
  | .pinEdgeCapture p rising short err => Sys2Proof.Machine.execPinEdgeCapture p rising short err s
  | .captureRead c => Sys2Proof.Machine.execCaptureRead c s
  | .pinPulseEnd p => Sys2Proof.Machine.execPinPulseEnd p s
  | .firingEntryWrite c => Sys2Proof.Machine.execFiringEntryWrite c s
  | .firingEntryRead c => Sys2Proof.Machine.execFiringEntryRead c s
  | .firingStatus c => Sys2Proof.Machine.execFiringStatus c s
  | .counterFreeze q d x => Sys2Proof.Machine.execCounterFreeze q d x s
  | .histogramRollover q d x => Sys2Proof.Machine.execHistogramRollover q d x s
  | .gateCycle d x => Sys2Proof.Machine.execGateCycle d x s
  | .pinPulse d x => Sys2Proof.Machine.execPinPulse d x s
  | .powerCycle q d x m => Sys2Proof.Machine.execPowerCycle q d x m s
  | .scrubEpoch q d x => Sys2Proof.Machine.execScrubEpoch q d x s
  | .telemetryEpoch q d x => Sys2Proof.Machine.execTelemetryEpoch q d x s
  | .timeStore d hit x => Sys2Proof.Machine.execTimeStore d hit x s
  | .laneConfigWrite c => Sys2Proof.Machine.execLaneConfigWrite c s
  | .laneConfigRead c => Sys2Proof.Machine.execLaneConfigRead c s
  | .laneStatus c => Sys2Proof.Machine.execLaneStatus c s
  | .laneTestWrite c => Sys2Proof.Machine.execLaneTestWrite c s
  | .laneTestRead c => Sys2Proof.Machine.execLaneTestRead c s
  | .eyeScan c => Sys2Proof.Machine.execEyeScan c s
  | .eyeScanAbort c => Sys2Proof.Machine.execEyeScanAbort c s
  | .eyeStatus c => Sys2Proof.Machine.execEyeStatus c s
  | .eyeResult c => Sys2Proof.Machine.execEyeResult c s
  | .eyePointDone l compared errors => Sys2Proof.Machine.execEyePointDone l compared errors s
  | .laneRefclkLost k => Sys2Proof.Machine.execLaneRefclkLost k s
  | .laneRefclkRelock k => Sys2Proof.Machine.execLaneRefclkRelock k s
  | .laneRefclkHoldoverEnd k => Sys2Proof.Machine.execLaneRefclkHoldoverEnd k s
  | .laneRefclkRestored k => Sys2Proof.Machine.execLaneRefclkRestored k s
  | .signalDetected p => Sys2Proof.Machine.execSignalDetected p s
  | .autonegResolved p matching => Sys2Proof.Machine.execAutonegResolved p matching s
  | .anTimeout p => Sys2Proof.Machine.execAnTimeout p s
  | .trainingDone p taps => Sys2Proof.Machine.execTrainingDone p taps s
  | .trainingTimeout p l => Sys2Proof.Machine.execTrainingTimeout p l s
  | .lockAcquired p => Sys2Proof.Machine.execLockAcquired p s
  | .lockTimeout p l => Sys2Proof.Machine.execLockTimeout p l s
  | .linkUp p => Sys2Proof.Machine.execLinkUp p s
  | .alignTimeout p l skewNs => Sys2Proof.Machine.execAlignTimeout p l skewNs s
  | .signalLost l => Sys2Proof.Machine.execSignalLost l s
  | .backoffExpired p => Sys2Proof.Machine.execBackoffExpired p s
  | .backoffReset p => Sys2Proof.Machine.execBackoffReset p s
  | .trainingFrameMalformed l control n => Sys2Proof.Machine.execTrainingFrameMalformed l control n s
  | .anPageViolation p => Sys2Proof.Machine.execAnPageViolation p s
  | .linkDown l kind signalOnAll => Sys2Proof.Machine.execLinkDown l kind signalOnAll s
  | .reacquireDone p => Sys2Proof.Machine.execReacquireDone p s
  | .reacquireTimeout p l => Sys2Proof.Machine.execReacquireTimeout p l s
  | .syncHeaderReceived l valid => Sys2Proof.Machine.execSyncHeaderReceived l valid s
  | .alignmentMarkerReceived l matching => Sys2Proof.Machine.execAlignmentMarkerReceived l matching s
  | .fecCodewordDecoded l errors => Sys2Proof.Machine.execFecCodewordDecoded l errors s
  | .degradeWindowEnd l => Sys2Proof.Machine.execDegradeWindowEnd l s
  | .farEndLoopbackBlock p arrived sent gap => Sys2Proof.Machine.execFarEndLoopbackBlock p arrived sent gap s
  | .patternBitsChecked l good err sym => Sys2Proof.Machine.execPatternBitsChecked l good err sym s
  | .errorInjectionEvent l => Sys2Proof.Machine.execErrorInjectionEvent l s
  | .d2dDoubleBitError g replayed => Sys2Proof.Machine.execD2dDoubleBitError g replayed s
  | .d2dRetrainDone g => Sys2Proof.Machine.execD2dRetrainDone g s
  | .lanePll g => Sys2Proof.Machine.execLanePll g s
  | .laneAdapt l => Sys2Proof.Machine.execLaneAdapt l s
  | .laneStore k => Sys2Proof.Machine.execLaneStore k s
  | .portConfigWrite c => Sys2Proof.Machine.execPortConfigWrite c s
  | .portConfigRead c => Sys2Proof.Machine.execPortConfigRead c s
  | .portStatus c => Sys2Proof.Machine.execPortStatus c s
  | .portFlowWrite c => Sys2Proof.Machine.execPortFlowWrite c s
  | .portFlowRead c => Sys2Proof.Machine.execPortFlowRead c s
  | .portPreemptWrite c => Sys2Proof.Machine.execPortPreemptWrite c s
  | .portPreemptRead c => Sys2Proof.Machine.execPortPreemptRead c s
  | .frameFilterWrite c => Sys2Proof.Machine.execFrameFilterWrite c s
  | .frameFilterRead c => Sys2Proof.Machine.execFrameFilterRead c s
  | .rxFrameHead p b mark back err => Sys2Proof.Machine.execRxFrameHead p b mark back err s
  | .rxFragment p kind first last b back err => Sys2Proof.Machine.execRxFragment p kind first last b back err s
  | .rxOversize p b => Sys2Proof.Machine.execRxOversize p b s
  | .rxPcsErrorMark p => Sys2Proof.Machine.execRxPcsErrorMark p s
  | .rxFrameEnd p b => Sys2Proof.Machine.execRxFrameEnd p b s
  | .macControlFrame p b => Sys2Proof.Machine.execMacControlFrame p b s
  | .occupancyReport q p => Sys2Proof.Machine.execOccupancyReport q p s
  | .pauseRefresh p => Sys2Proof.Machine.execPauseRefresh p s
  | .pauseTimerExpiry p c => Sys2Proof.Machine.execPauseTimerExpiry p c s
  | .pauseStorm p c => Sys2Proof.Machine.execPauseStorm p c s
  | .stormRecovered p c => Sys2Proof.Machine.execStormRecovered p c s
  | .preemptVerifyTimer p => Sys2Proof.Machine.execPreemptVerifyTimer p s
  | .preemptVerify p => Sys2Proof.Machine.execPreemptVerify p s
  | .macFifo g u => Sys2Proof.Machine.execMacFifo g u s
  | .macStore g => Sys2Proof.Machine.execMacStore g s
  | .pcsCheck p => Sys2Proof.Machine.execPcsCheck p s
  | .macFlow p => Sys2Proof.Machine.execMacFlow p s
  | .flowResync p => Sys2Proof.Machine.execFlowResync p s
  | .parseStart g src => Sys2Proof.Machine.execParseStart g src s
  | .parseResume u b => Sys2Proof.Machine.execParseResume u b s
  | .parserMalformedWrite c => Sys2Proof.Machine.execParserMalformedWrite c s
  | .parserMalformedRead c => Sys2Proof.Machine.execParserMalformedRead c s
  | .prsStore g u => Sys2Proof.Machine.execPrsStore g u s
  | .prsVector g u => Sys2Proof.Machine.execPrsVector g u s
  | .prsHang g u => Sys2Proof.Machine.execPrsHang g u s
  | .prsCheck g u => Sys2Proof.Machine.execPrsCheck g u s
  | .parserReload g => Sys2Proof.Machine.execParserReload g s
  | .stageLookup u => Sys2Proof.Machine.execStageLookup u s
  | .routineIssue u => Sys2Proof.Machine.execRoutineIssue u s
  | .microwordExecute g st k stalled => Sys2Proof.Machine.execMicrowordExecute g st k stalled s
  | .memoryResultReturn g st k tag => Sys2Proof.Machine.execMemoryResultReturn g st k tag s
  | .lockGranted g st k => Sys2Proof.Machine.execLockGranted g st k s
  | .waitResume g st k clocks => Sys2Proof.Machine.execWaitResume g st k clocks s
  | .routineCommit g st k clocks => Sys2Proof.Machine.execRoutineCommit g st k clocks s
  | .sequencerRelease u => Sys2Proof.Machine.execSequencerRelease u s
  | .frameDecision u => Sys2Proof.Machine.execFrameDecision u s
  | .hostDelivery r bufs full => Sys2Proof.Machine.execHostDelivery r bufs full s
  | .treeNodeReadReturn u kind rules => Sys2Proof.Machine.execTreeNodeReadReturn u kind rules s
  | .treeWalkTimeout u => Sys2Proof.Machine.execTreeWalkTimeout u s
  | .treeTableWrite c => Sys2Proof.Machine.execTreeTableWrite c s
  | .treeTableRead c => Sys2Proof.Machine.execTreeTableRead c s
  | .classifierRuleWrite c => Sys2Proof.Machine.execClassifierRuleWrite c s
  | .classifierRuleRead c => Sys2Proof.Machine.execClassifierRuleRead c s
  | .treeCommit c => Sys2Proof.Machine.execTreeCommit c s
  | .treeSwap q t ok root => Sys2Proof.Machine.execTreeSwap q t ok root s
  | .treeNodesFreed q t => Sys2Proof.Machine.execTreeNodesFreed q t s
  | .ruleAdd c => Sys2Proof.Machine.execRuleAdd c s
  | .ruleBatch c => Sys2Proof.Machine.execRuleBatch c s
  | .ruleBatchAbort c => Sys2Proof.Machine.execRuleBatchAbort c s
  | .ruleBatchStatus c => Sys2Proof.Machine.execRuleBatchStatus c s
  | .quiesceStart g => Sys2Proof.Machine.execQuiesceStart g s
  | .quiesceWrite g clocks => Sys2Proof.Machine.execQuiesceWrite g clocks s
  | .retiredBufferRelease g => Sys2Proof.Machine.execRetiredBufferRelease g s
  | .imagePipelineApply window => Sys2Proof.Machine.execImagePipelineApply window s
  | .matExact g st unit row u => Sys2Proof.Machine.execMatExact g st unit row u s
  | .matTernary g st block row u => Sys2Proof.Machine.execMatTernary g st block row u s
  | .matResult g st block row u => Sys2Proof.Machine.execMatResult g st block row u s
  | .matDesc g st u => Sys2Proof.Machine.execMatDesc g st u s
  | .matPath g u => Sys2Proof.Machine.execMatPath g u s
  | .matTree q u => Sys2Proof.Machine.execMatTree q u s
  | .stageReload g st => Sys2Proof.Machine.execStageReload g st s
  | .actMicro g st addr k => Sys2Proof.Machine.execActMicro g st addr k s
  | .actNano g st addr k => Sys2Proof.Machine.execActNano g st addr k s
  | .actContext g st k => Sys2Proof.Machine.execActContext g st k s
  | .actHang g st k => Sys2Proof.Machine.execActHang g st k s
  | .storeReload g st store addr => Sys2Proof.Machine.execStoreReload g st store addr s
  | .stateRowReset g st row k => Sys2Proof.Machine.execStateRowReset g st row k s
  | .learnRequestProcess g => Sys2Proof.Machine.execLearnRequestProcess g s
  | .fdbArbiterGrant g => Sys2Proof.Machine.execFdbArbiterGrant g s
  | .notifyProducerWriteback q => Sys2Proof.Machine.execNotifyProducerWriteback q s
  | .fdbNtfConsWrite q v => Sys2Proof.Machine.execFdbNtfConsWrite q v s
  | .fdbEntryWrite c => Sys2Proof.Machine.execFdbEntryWrite c s
  | .fdbEntryRead c => Sys2Proof.Machine.execFdbEntryRead c s
  | .fdbLearnWrite c => Sys2Proof.Machine.execFdbLearnWrite c s
  | .fdbLearnRead c => Sys2Proof.Machine.execFdbLearnRead c s
  | .fdbNotifyWrite c => Sys2Proof.Machine.execFdbNotifyWrite c s
  | .fdbNotifyRead c => Sys2Proof.Machine.execFdbNotifyRead c s
  | .fdbDelegateWrite c => Sys2Proof.Machine.execFdbDelegateWrite c s
  | .fdbDelegateRead c => Sys2Proof.Machine.execFdbDelegateRead c s
  | .fdbCmdReadKey g clearHit => Sys2Proof.Machine.execFdbCmdReadKey g clearHit s
  | .fdbCmdReadIndex g clearHit => Sys2Proof.Machine.execFdbCmdReadIndex g clearHit s
  | .fdbCmdInsert g clearHit => Sys2Proof.Machine.execFdbCmdInsert g clearHit s
  | .fdbCmdWrite g clearHit => Sys2Proof.Machine.execFdbCmdWrite g clearHit s
  | .fdbCmdDelete g clearHit => Sys2Proof.Machine.execFdbCmdDelete g clearHit s
  | .fdbCmdDeleteIfIdle g clearHit => Sys2Proof.Machine.execFdbCmdDeleteIfIdle g clearHit s
  | .fdbCmdAge g clearHit => Sys2Proof.Machine.execFdbCmdAge g clearHit s
  | .fdbCmdIterate g clearHit => Sys2Proof.Machine.execFdbCmdIterate g clearHit s
  | .fdbCmdInvalidOp g op clearHit => Sys2Proof.Machine.execFdbCmdInvalidOp g op clearHit s
  | .fdbWindowRegWrite g reg v => Sys2Proof.Machine.execFdbWindowRegWrite g reg v s
  | .fdbRejectsRead g => Sys2Proof.Machine.execFdbRejectsRead g s
  | .lpmRouteWrite c => Sys2Proof.Machine.execLpmRouteWrite c s
  | .lpmRouteRead c => Sys2Proof.Machine.execLpmRouteRead c s
  | .lpmBucketFree g => Sys2Proof.Machine.execLpmBucketFree g s
  | .hostEntry c => Sys2Proof.Machine.execHostEntry c s
  | .hostLookupWrite c => Sys2Proof.Machine.execHostLookupWrite c s
  | .hostLookupRead c => Sys2Proof.Machine.execHostLookupRead c s
  | .hostBucketReadReturn u lateClocks => Sys2Proof.Machine.execHostBucketReadReturn u lateClocks s
  | .fdbLearnFault g => Sys2Proof.Machine.execFdbLearnFault g s
  | .fdbCmdFault g => Sys2Proof.Machine.execFdbCmdFault g s
  | .hostRead u slot => Sys2Proof.Machine.execHostRead u slot s
  | .fwdAudit g row => Sys2Proof.Machine.execFwdAudit g row s
  | .sigDispatch u => Sys2Proof.Machine.execSigDispatch u s
  | .sigScanDone u => Sys2Proof.Machine.execSigScanDone u s
  | .inspectionReturn u => Sys2Proof.Machine.execInspectionReturn u s
  | .sigSetBegin c => Sys2Proof.Machine.execSigSetBegin c s
  | .sigSetChunk c => Sys2Proof.Machine.execSigSetChunk c s
  | .sigSetCommit c => Sys2Proof.Machine.execSigSetCommit c s
  | .sigEngineWrite c => Sys2Proof.Machine.execSigEngineWrite c s
  | .sigEngineRead c => Sys2Proof.Machine.execSigEngineRead c s
  | .sigProfileWrite c => Sys2Proof.Machine.execSigProfileWrite c s
  | .sigProfileRead c => Sys2Proof.Machine.execSigProfileRead c s
  | .sigRuleWrite c => Sys2Proof.Machine.execSigRuleWrite c s
  | .sigRuleRead c => Sys2Proof.Machine.execSigRuleRead c s
  | .sigStatus c => Sys2Proof.Machine.execSigStatus c s
  | .sigStore e mismatch offset u => Sys2Proof.Machine.execSigStore e mismatch offset u s
  | .sigPath q u => Sys2Proof.Machine.execSigPath q u s
  | .sigReload e => Sys2Proof.Machine.execSigReload e s
  | .transferAdmission t conflict => Sys2Proof.Machine.execTransferAdmission t conflict s
  | .spillWrite q => Sys2Proof.Machine.execSpillWrite q s
  | .spillWriteDone p k => Sys2Proof.Machine.execSpillWriteDone p k s
  | .returnRead p k => Sys2Proof.Machine.execReturnRead p k s
  | .returnReadDone p k inOrder => Sys2Proof.Machine.execReturnReadDone p k inOrder s
  | .returnStallResume p k => Sys2Proof.Machine.execReturnStallResume p k s
  | .dramShareWindow q => Sys2Proof.Machine.execDramShareWindow q s
  | .scrubPassDone q c => Sys2Proof.Machine.execScrubPassDone q c s
  | .bufferPoolWrite c => Sys2Proof.Machine.execBufferPoolWrite c s
  | .bufferPoolRead c => Sys2Proof.Machine.execBufferPoolRead c s
  | .admitProfileWrite c => Sys2Proof.Machine.execAdmitProfileWrite c s
  | .admitProfileRead c => Sys2Proof.Machine.execAdmitProfileRead c s
  | .portAdmitWrite c => Sys2Proof.Machine.execPortAdmitWrite c s
  | .portAdmitRead c => Sys2Proof.Machine.execPortAdmitRead c s
  | .dramShareWrite c => Sys2Proof.Machine.execDramShareWrite c s
  | .dramShareRead c => Sys2Proof.Machine.execDramShareRead c s
  | .bufScrubWrite c => Sys2Proof.Machine.execBufScrubWrite c s
  | .bufScrubRead c => Sys2Proof.Machine.execBufScrubRead c s
  | .bufferStatus c => Sys2Proof.Machine.execBufferStatus c s
  | .queueBufferStatus c => Sys2Proof.Machine.execQueueBufferStatus c s
  | .bufData q c => Sys2Proof.Machine.execBufData q c s
  | .bufLink q c => Sys2Proof.Machine.execBufLink q c s
  | .bufDesc q c double => Sys2Proof.Machine.execBufDesc q c double s
  | .bufCount p k => Sys2Proof.Machine.execBufCount p k s
  | .poolRebuild q => Sys2Proof.Machine.execPoolRebuild q s
  | .dramData q k => Sys2Proof.Machine.execDramData q k s
  | .dramLink q => Sys2Proof.Machine.execDramLink q s
  | .dramRetrain q => Sys2Proof.Machine.execDramRetrain q s
  | .dramRequestTimeout q u => Sys2Proof.Machine.execDramRequestTimeout q u s
  | .spillOrder p k => Sys2Proof.Machine.execSpillOrder p k s
  | .meshFlitReceived d t err => Sys2Proof.Machine.execMeshFlitReceived d t err s
  | .relayTransfer t => Sys2Proof.Machine.execRelayTransfer t s
  | .meshCreditAudit d mismatch => Sys2Proof.Machine.execMeshCreditAudit d mismatch s
  | .meshRetrain d => Sys2Proof.Machine.execMeshRetrain d s
  | .meshLink l => Sys2Proof.Machine.execMeshLink l s
  | .meshTrainRetry l ok => Sys2Proof.Machine.execMeshTrainRetry l ok s
  | .meshMgmt l => Sys2Proof.Machine.execMeshMgmt l s
  | .meshConfigWrite c => Sys2Proof.Machine.execMeshConfigWrite c s
  | .meshConfigRead c => Sys2Proof.Machine.execMeshConfigRead c s
  | .mcastGroupWrite c => Sys2Proof.Machine.execMcastGroupWrite c s
  | .mcastGroupRead c => Sys2Proof.Machine.execMcastGroupRead c s
  | .mcastOldListFree g => Sys2Proof.Machine.execMcastOldListFree g s
  | .mirrorSessionWrite c => Sys2Proof.Machine.execMirrorSessionWrite c s
  | .mirrorSessionRead c => Sys2Proof.Machine.execMirrorSessionRead c s
  | .cutThroughUnderrun p sent => Sys2Proof.Machine.execCutThroughUnderrun p sent s
  | .holdExpiry p => Sys2Proof.Machine.execHoldExpiry p s
  | .queueAgeWrite c => Sys2Proof.Machine.execQueueAgeWrite c s
  | .queueAgeRead c => Sys2Proof.Machine.execQueueAgeRead c s
  | .dropPolicyWrite c => Sys2Proof.Machine.execDropPolicyWrite c s
  | .dropPolicyRead c => Sys2Proof.Machine.execDropPolicyRead c s
  | .swcRepl t => Sys2Proof.Machine.execSwcRepl t s
  | .swcMirror q x => Sys2Proof.Machine.execSwcMirror q x s
  | .swcPath q t u => Sys2Proof.Machine.execSwcPath q t u s
  | .swcFlush p => Sys2Proof.Machine.execSwcFlush p s
  | .switchReload q x g => Sys2Proof.Machine.execSwitchReload q x g s
  | .refillInstant q => Sys2Proof.Machine.execRefillInstant q s
  | .schedulerSelect p sent ahead err => Sys2Proof.Machine.execSchedulerSelect p sent ahead err s
  | .txFrameEnd p dbl => Sys2Proof.Machine.execTxFrameEnd p dbl s
  | .gateEntryStart p => Sys2Proof.Machine.execGateEntryStart p s
  | .policerWrite c => Sys2Proof.Machine.execPolicerWrite c s
  | .policerRead c => Sys2Proof.Machine.execPolicerRead c s
  | .shaperProfileWrite c => Sys2Proof.Machine.execShaperProfileWrite c s
  | .shaperProfileRead c => Sys2Proof.Machine.execShaperProfileRead c s
  | .portSchedWrite c => Sys2Proof.Machine.execPortSchedWrite c s
  | .portSchedRead c => Sys2Proof.Machine.execPortSchedRead c s
  | .extQueueWrite c => Sys2Proof.Machine.execExtQueueWrite c s
  | .extQueueRead c => Sys2Proof.Machine.execExtQueueRead c s
  | .gateListWrite c => Sys2Proof.Machine.execGateListWrite c s
  | .gateListRead c => Sys2Proof.Machine.execGateListRead c s
  | .portSchedStatus c => Sys2Proof.Machine.execPortSchedStatus c s
  | .schState p => Sys2Proof.Machine.execSchState p s
  | .polState q x => Sys2Proof.Machine.execPolState q x s
  | .freezeSweepDone q => Sys2Proof.Machine.execFreezeSweepDone q s
  | .freezePublish => Sys2Proof.Machine.execFreezePublish s
  | .rolloverPublish => Sys2Proof.Machine.execRolloverPublish s
  | .counterRead c => Sys2Proof.Machine.execCounterRead c s
  | .telemetryProfileWrite c => Sys2Proof.Machine.execTelemetryProfileWrite c s
  | .telemetryProfileRead c => Sys2Proof.Machine.execTelemetryProfileRead c s
  | .exporterWrite c => Sys2Proof.Machine.execExporterWrite c s
  | .exporterRead c => Sys2Proof.Machine.execExporterRead c s
  | .observerGrantWrite c => Sys2Proof.Machine.execObserverGrantWrite c s
  | .observerGrantRead c => Sys2Proof.Machine.execObserverGrantRead c s
  | .telCounter q hist key => Sys2Proof.Machine.execTelCounter q hist key s
  | .telExport e n => Sys2Proof.Machine.execTelExport e n s
  | .bubbleFrameStart q => Sys2Proof.Machine.execBubbleFrameStart q s
  | .laneEqStep l => Sys2Proof.Machine.execLaneEqStep l s
  | .laneStepCheck l height => Sys2Proof.Machine.execLaneStepCheck l height s
  | .energyCalibration q k scale other => Sys2Proof.Machine.execEnergyCalibration q k scale other s
  | .tempSample readings => Sys2Proof.Machine.execTempSample readings s
  | .thermalTrip die sensor => Sys2Proof.Machine.execThermalTrip die sensor s
  | .avsResponse mv bad command status => Sys2Proof.Machine.execAvsResponse mv bad command status s
  | .avsTimeout command status => Sys2Proof.Machine.execAvsTimeout command status s
  | .gaugeEpoch q d x ppm => Sys2Proof.Machine.execGaugeEpoch q d x ppm s
  | .marginEpoch q d x eyes => Sys2Proof.Machine.execMarginEpoch q d x eyes s
  | .heatWorkAccumulate => Sys2Proof.Machine.execHeatWorkAccumulate s
  | .laneReplan => Sys2Proof.Machine.execLaneReplan s
  | .dataAreaSave => Sys2Proof.Machine.execDataAreaSave s
  | .powerCapWrite c => Sys2Proof.Machine.execPowerCapWrite c s
  | .powerCapRead c => Sys2Proof.Machine.execPowerCapRead c s
  | .powerStatus c => Sys2Proof.Machine.execPowerStatus c s
  | .ageingStatus c => Sys2Proof.Machine.execAgeingStatus c s
  | .energyRead c => Sys2Proof.Machine.execEnergyRead c s
  | .faultRaise => Sys2Proof.Machine.execFaultRaise s
  | .graceExpiry b k x => Sys2Proof.Machine.execGraceExpiry b k x s
  | .quietExpiry b k x => Sys2Proof.Machine.execQuietExpiry b k x s
  | .fltLatchWrite lo hi => Sys2Proof.Machine.execFltLatchWrite lo hi s
  | .fltAlertEnWrite lo hi => Sys2Proof.Machine.execFltAlertEnWrite lo hi s
  | .fltTestKeyWrite key => Sys2Proof.Machine.execFltTestKeyWrite key s
  | .testKeyTimeout => Sys2Proof.Machine.execTestKeyTimeout s
  | .reg64LowHalfRead off high => Sys2Proof.Machine.execReg64LowHalfRead off high s
  | .klnCursorWrite v => Sys2Proof.Machine.execKlnCursorWrite v s
  | .klnWindowLatched => Sys2Proof.Machine.execKlnWindowLatched s
  | .faultPolicyWrite c => Sys2Proof.Machine.execFaultPolicyWrite c s
  | .faultPolicyRead c => Sys2Proof.Machine.execFaultPolicyRead c s
  | .faultAction c => Sys2Proof.Machine.execFaultAction c s
  | .faultStatus c => Sys2Proof.Machine.execFaultStatus c s
  | .faultSites c => Sys2Proof.Machine.execFaultSites c s
  | .faultTestEnable c => Sys2Proof.Machine.execFaultTestEnable c s
  | .faultTestDisable c => Sys2Proof.Machine.execFaultTestDisable c s
  | .faultInject c => Sys2Proof.Machine.execFaultInject c s
  | .kilnRead c => Sys2Proof.Machine.execKilnRead c s
  | .kilnClear c => Sys2Proof.Machine.execKilnClear c s
  | .ccMemory code ids late => Sys2Proof.Machine.execCcMemory code ids late s
  | .ccWatchdog core ids late => Sys2Proof.Machine.execCcWatchdog core ids late s
  | .fwCheck ids late => Sys2Proof.Machine.execFwCheck ids late s
  | .fltSelf asserted bad => Sys2Proof.Machine.execFltSelf asserted bad s
  | .invalidBarAccess bar2 write => Sys2Proof.Machine.execInvalidBarAccess bar2 write s
  | .registerWrite off v => Sys2Proof.Machine.execRegisterWrite off v s
  | .rcCounterRead slot => Sys2Proof.Machine.execRcCounterRead slot s
  | .pcieInterfaceLost flr => Sys2Proof.Machine.execPcieInterfaceLost flr s
  | .pcieLinkUp speed width => Sys2Proof.Machine.execPcieLinkUp speed width s
  | .hstMbxCtrlWrite x v => Sys2Proof.Machine.execHstMbxCtrlWrite x v s
  | .hstMbxDb x v => Sys2Proof.Machine.execHstMbxDb x v s
  | .hstMbxCplHeadWrite x v => Sys2Proof.Machine.execHstMbxCplHeadWrite x v s
  | .commandCompletion k => Sys2Proof.Machine.execCommandCompletion k s
  | .unknownOpcode c opcode => Sys2Proof.Machine.execUnknownOpcode c opcode s
  | .hstRxTailWrite r v => Sys2Proof.Machine.execHstRxTailWrite r v s
  | .hstTxTailWrite r v => Sys2Proof.Machine.execHstTxTailWrite r v s
  | .hostInject r ds data readOk => Sys2Proof.Machine.execHostInject r ds data readOk s
  | .irqCoalesceExpiry r tx => Sys2Proof.Machine.execIrqCoalesceExpiry r tx s
  | .sessionOpen c => Sys2Proof.Machine.execSessionOpen c s
  | .sessionClose c => Sys2Proof.Machine.execSessionClose c s
  | .sessionCloseDone x => Sys2Proof.Machine.execSessionCloseDone x s
  | .sessionSync c => Sys2Proof.Machine.execSessionSync c s
  | .roleKey c => Sys2Proof.Machine.execRoleKey c s
  | .dmaRingWrite c => Sys2Proof.Machine.execDmaRingWrite c s
  | .dmaRingRead c => Sys2Proof.Machine.execDmaRingRead c s
  | .capRead c => Sys2Proof.Machine.execCapRead c s
  | .modeWrite c => Sys2Proof.Machine.execModeWrite c s
  | .modeRead c => Sys2Proof.Machine.execModeRead c s
  | .limitedExit x => Sys2Proof.Machine.execLimitedExit x s
  | .limitedCommandTake x => Sys2Proof.Machine.execLimitedCommandTake x s
  | .credentialLockoutEnd slot => Sys2Proof.Machine.execCredentialLockoutEnd slot s
  | .umlimelPayload session off data ddr => Sys2Proof.Machine.execUmlimelPayload session off data ddr s
  | .umlimelCommand session desc ddr => Sys2Proof.Machine.execUmlimelCommand session desc ddr s
  | .umlimelFetch session off ddr => Sys2Proof.Machine.execUmlimelFetch session off ddr s
  | .umlimelRead ddr => Sys2Proof.Machine.execUmlimelRead ddr s
  | .umlimelFrameInvalid session ddr => Sys2Proof.Machine.execUmlimelFrameInvalid session ddr s
  | .ibiRetry alert => Sys2Proof.Machine.execIbiRetry alert s
  | .enec events => Sys2Proof.Machine.execEnec events s
  | .disec events => Sys2Proof.Machine.execDisec events s
  | .rstdaa => Sys2Proof.Machine.execRstdaa s
  | .entdaa a => Sys2Proof.Machine.execEntdaa a s
  | .setdasa a => Sys2Proof.Machine.execSetdasa a s
  | .setnewda a => Sys2Proof.Machine.execSetnewda a s
  | .setmwl n => Sys2Proof.Machine.execSetmwl n s
  | .setmrl n => Sys2Proof.Machine.execSetmrl n s
  | .getmwl => Sys2Proof.Machine.execGetmwl s
  | .getmrl => Sys2Proof.Machine.execGetmrl s
  | .getpid => Sys2Proof.Machine.execGetpid s
  | .getbcr => Sys2Proof.Machine.execGetbcr s
  | .getdcr => Sys2Proof.Machine.execGetdcr s
  | .getstatus => Sys2Proof.Machine.execGetstatus s
  | .getmxds => Sys2Proof.Machine.execGetmxds s
  | .enthdr0 => Sys2Proof.Machine.execEnthdr0 s
  | .rstact action => Sys2Proof.Machine.execRstact action s
  | .hstLink site corrected => Sys2Proof.Machine.execHstLink site corrected s
  | .imageBegin c => Sys2Proof.Machine.execImageBegin c s
  | .imageChunk c => Sys2Proof.Machine.execImageChunk c s
  | .imageVerify c => Sys2Proof.Machine.execImageVerify c s
  | .imageApply c => Sys2Proof.Machine.execImageApply c s
  | .imageUnload c => Sys2Proof.Machine.execImageUnload c s
  | .imageStatus c => Sys2Proof.Machine.execImageStatus c s
  | .fwBegin c => Sys2Proof.Machine.execFwBegin c s
  | .fwChunk c => Sys2Proof.Machine.execFwChunk c s
  | .fwCommit c => Sys2Proof.Machine.execFwCommit c s
  | .fwWritten ok => Sys2Proof.Machine.execFwWritten ok s
  | .fwActivate c => Sys2Proof.Machine.execFwActivate c s
  | .fwStatus c => Sys2Proof.Machine.execFwStatus c s
  | .deviceReset c => Sys2Proof.Machine.execDeviceReset c s
  | .softwareReset => Sys2Proof.Machine.execSoftwareReset s
  | .powerOn flash => Sys2Proof.Machine.execPowerOn flash s
  | .resetNAssert cool cut => Sys2Proof.Machine.execResetNAssert cool cut s
  | .resetNDeassert strap => Sys2Proof.Machine.execResetNDeassert strap s
  | .q0PllLock result => Sys2Proof.Machine.execQ0PllLock result s
  | .glazeInit readFail0 readFail1 => Sys2Proof.Machine.execGlazeInit readFail0 readFail1 s
  | .glazeRetry step die status => Sys2Proof.Machine.execGlazeRetry step die status s
  | .glazeReady ppm => Sys2Proof.Machine.execGlazeReady ppm s
  | .warmRestartStart => Sys2Proof.Machine.execWarmRestartStart s
  | .warmRestartDone readFailTarget readFailRunning stateOk => Sys2Proof.Machine.execWarmRestartDone readFailTarget readFailRunning stateOk s
  | .bypass tdi => Sys2Proof.Machine.execBypass tdi s
  | .idcode tdi => Sys2Proof.Machine.execIdcode tdi s
  | .samplePreload pins tdi => Sys2Proof.Machine.execSamplePreload pins tdi s
  | .extest pins tdi => Sys2Proof.Machine.execExtest pins tdi s
  | .extestPulse pins tdi => Sys2Proof.Machine.execExtestPulse pins tdi s
  | .extestTrain pins tdi => Sys2Proof.Machine.execExtestTrain pins tdi s
  | .highz tdi => Sys2Proof.Machine.execHighz tdi s
  | .clamp tdi => Sys2Proof.Machine.execClamp tdi s
  | .signalBreak l => Sys2Proof.Machine.execSignalBreak l s
  | .cdrLockLost l => Sys2Proof.Machine.execCdrLockLost l s
  | .profileRelockTimeout => Sys2Proof.Machine.execProfileRelockTimeout s
  | .macReload g => Sys2Proof.Machine.execMacReload g s
  | .lanePllRelock g => Sys2Proof.Machine.execLanePllRelock g s
  | .laneStoreReload k => Sys2Proof.Machine.execLaneStoreReload k s
  | .rowRewrite g st r => Sys2Proof.Machine.execRowRewrite g st r s
  | .policerReload q x => Sys2Proof.Machine.execPolicerReload q x s
  | .schedReload p => Sys2Proof.Machine.execSchedReload p s
  | .timeStoreReload d x => Sys2Proof.Machine.execTimeStoreReload d x s
  | .telExportReload e => Sys2Proof.Machine.execTelExportReload e s
  | .testKeyLockoutEnd => Sys2Proof.Machine.execTestKeyLockoutEnd s
  | .supplyLeavesRange rail mv => Sys2Proof.Machine.execSupplyLeavesRange rail mv s

end Sys2Proof.Machine
end

