-- ==== Sys2Proof/Safety.lean ====
section
/-!
DEFINITION. The terms claims are stated in: the parts of the state and which of them a command may change, the kiln log's bound, and when
an Icoux command is taken, passes its checks and is answered.
-/

namespace Sys2Proof.Machine

open Sys2Proof

/-! ### Parts of the state -/

/-- The parts of the state, as frames name them; `fuse` is the security minimum of R530, which lies in `boot`. -/
inductive Part
  | now | free | out | table | bufp | limits | time | flt | tel | host | boot | lane | mac | fr | prs | sw | mat | fwd | sig | buf | sch
  | pow | fuse
deriving DecidableEq, Repr

/-- Every part but the fuses. -/
def allParts : List Part :=
  [.now, .free, .out, .table, .bufp, .limits, .time, .flt, .tel, .host, .boot, .lane, .mac, .fr, .prs, .sw, .mat, .fwd, .sig, .buf, .sch, .pow]

/-- The part of `t` is that of `s`. -/
def Same (p : Part) (s t : State) : Prop :=
  match p with
  | .now => t.now = s.now
  | .free => t.free = s.free
  | .out => t.out = s.out
  | .table => t.tableProfile = s.tableProfile
  | .bufp => t.bufferProfile = s.bufferProfile
  | .limits => t.limits = s.limits
  | .time => t.time = s.time
  | .flt => t.flt = s.flt
  | .tel => t.tel = s.tel
  | .host => t.host = s.host
  | .boot => t.boot = s.boot
  | .lane => t.lane = s.lane
  | .mac => t.mac = s.mac
  | .fr => t.fr = s.fr
  | .prs => t.prs = s.prs
  | .sw => t.sw = s.sw
  | .mat => t.mat = s.mat
  | .fwd => t.fwd = s.fwd
  | .sig => t.sig = s.sig
  | .buf => t.buf = s.buf
  | .sch => t.sch = s.sch
  | .pow => t.pow = s.pow
  | .fuse => t.boot.securityMin = s.boot.securityMin

/-- The kiln log's bound (R444, R448): at most 32,768 records, and a full log ends in LOG_FULL. -/
def KilnOk (f : FaultState) : Prop :=
  f.kiln.length ≤ 32768 ∧ (f.kiln.length = 32768 → f.kiln.head?.map KilnRec.code = some logFullCode)

/-! ### Icoux commands -/

/-- The state a command's own work sees: its session has spent the command. -/
def takenState (c : Cmd) (s : State) : State := takeCommand c.slot.val s

/-- The payload of a command as Icoux sees it. -/
def given (c : Cmd) (s : State) : Bytes := payloadOf (effectiveCmd c s)

/-- Whether Icoux takes this command now, and it passes the transport checks of R481 and the checks of R489. -/
def passes (d : OpDef) (c : Cmd) (s : State) : Bool :=
  canTake d.opcode d.write c.slot.val s && (transportBad (effectiveCmd c s) (slotOf s c.slot.val).i3c).isNone &&
    ((slotOf s c.slot.val).state == .opened || d.opcode == 0x0101) && (checkCommand d (effectiveCmd c s) (takenState c s)).isNone &&
    (effectiveCmd c s).writeOk

/-- From `s` to `t` exactly this command has ended, with this status, data and reply. -/
def answered (d : OpDef) (c : Cmd) (st : Status) (data reply : Bytes) (s t : State) : Prop :=
  t.host.ended = s.host.ended ++ [endedOf d (effectiveCmd c s) st data reply false]

/-- From `s` to `t` exactly this command has been accepted and is in progress; nothing more has ended. -/
def accepted (d : OpDef) (c : Cmd) (s t : State) : Prop :=
  t.host.ended = s.host.ended ∧ ∃ r, t.host.running = s.host.running ++ [r] ∧ r.id = s.host.nextId ∧ r.slot = c.slot.val ∧
    r.tag = (effectiveCmd c s).tag.toNat ∧ r.opcode = d.opcode ∧ r.write = d.write

/-- exec `i s` answers a next state, and `P` holds of it. -/
def Completes (i : Instr) (s : State) (P : State → Prop) : Prop := ∃ t, exec i s = .next t ∧ P t

/-- From `s` to `t` exactly one more raise is on its way to the saggar, for this bit and site. -/
def raised (b k i : Nat) (s t : State) : Prop :=
  ∃ r, t.flt.inFlight = s.flt.inFlight ++ [r] ∧ r.bit = b ∧ r.kind = k ∧ r.index = i

/-- From `s` to `t` exactly these raises are newly on their way to the saggar: bits, site kinds and site indices, in order. -/
def raisedAll (l : List (Nat × Nat × Nat)) (s t : State) : Prop :=
  ∃ rs : List Raise, t.flt.inFlight = s.flt.inFlight ++ rs ∧ rs.map (fun r => (r.bit, r.kind, r.index)) = l

/-- The newest record of `t`'s kiln log is of this event, or the log is full and counts it in LOG_FULL (R448). -/
def logged (code : Nat) (t : State) : Prop := ∃ r, t.flt.kiln.head? = some r ∧ (r.code = code ∨ r.code = logFullCode)

/-- A command taken from `s` that passes every check ends with status OK and this reply, and changes nothing outside `host`. -/
def Reads (d : OpDef) (c : Cmd) (i : Instr) (s : State) (reply : Bytes) : Prop :=
  passes d c s = true → Completes i s fun t => answered d c .ok [] reply s t ∧ ∀ p, p ≠ .host → Same p s t

/-- A command taken from `s` that passes every check ends with status OK and no reply, with this effect. -/
def Writes (d : OpDef) (c : Cmd) (i : Instr) (s : State) (P : State → Prop) : Prop :=
  passes d c s = true → Completes i s fun t => answered d c .ok [] [] s t ∧ P t

/-- A command taken from `s` that passes every check is accepted and stays in progress, with this effect. -/
def Starts (d : OpDef) (c : Cmd) (i : Instr) (s : State) (P : State → Prop) : Prop :=
  passes d c s = true → Completes i s fun t => accepted d c s t ∧ P t

/-! ### Lanes -/

/-- From `s` to `t` an attempt of port `p` has failed with this cause (R77): the attempts in a row count, and the port waits or, at its
limit of attempts, is FAILED. -/
def attemptEnded (p cause : Nat) (s t : State) : Prop :=
  let v := linkOf s p
  let b := if cause = 4 then min (v.backoffMs * 4) (laneBackoffMax s p) else v.backoffMs
  let out := laneMaxAttempts s p ≠ 0 ∧ laneMaxAttempts s p ≤ v.inRow + 1
  (linkOf t p).inRow = v.inRow + 1 ∧
    (out → (linkOf t p).phase = .failed ∧ (linkOf t p).backoffMs = b) ∧
    (¬ out → (linkOf t p).phase = .backoff ∧ (linkOf t p).waitMs = b ∧ (linkOf t p).backoffMs = min (b * 2) (laneBackoffMax s p))

/-- An attempt of port `p` has failed, and every lane of the port shows the cause and has lost its lock. -/
def attemptFailed (p cause : Nat) (s t : State) : Prop :=
  attemptEnded p cause s t ∧ ∀ l ∈ lanesOf s p, (laneOf t l).lastCause = cause ∧ (laneOf t l).cdrLock = false

/-- A counter of `t` is that of `s` with `n` added, modulo 2^64. -/
def counted (c : Counter) (scope n : Nat) (s t : State) : Prop := countOf c scope t = (countOf c scope s + n) % 2 ^ 64

/-- The latest raise on its way to the saggar is for this bit and site. -/
def raisedLast (b k i : Nat) (t : State) : Prop := ∃ r, t.flt.inFlight.getLast? = some r ∧ r.bit = b ∧ r.kind = k ∧ r.index = i

/-! ### Reset -/

/-- What a reset leaves (R417, R444, R525, R554): every part of the device as State.reset has it but for real time, what the outside saw, the
kiln log's records, marked as from before the reset, and the boot flash, fuses, straps and always-on records. -/
def resetFrom (s t : State) : Prop :=
  t.host = State.reset.host ∧ t.time = State.reset.time ∧ t.tel = State.reset.tel ∧ t.lane = State.reset.lane ∧ t.mac = State.reset.mac ∧
  t.fr = State.reset.fr ∧ t.prs = State.reset.prs ∧ t.sw = State.reset.sw ∧ t.mat = State.reset.mat ∧ t.fwd = State.reset.fwd ∧
  t.sig = State.reset.sig ∧ t.buf = State.reset.buf ∧ t.sch = State.reset.sch ∧ t.pow = State.reset.pow ∧ t.limits = State.reset.limits ∧
  t.tableProfile = State.reset.tableProfile ∧ t.bufferProfile = State.reset.bufferProfile ∧
  t.flt.kiln = (s.flt.kiln.map fun k => { k with preReset := true }) ∧ t.flt.sites = State.reset.flt.sites ∧
  t.boot.slots = s.boot.slots ∧ t.boot.securityMin = s.boot.securityMin ∧ t.boot.stage = .bisque ∧ t.boot.romRan = false ∧
  t.pending = s.pending ∧ s.now ≤ t.now

/-! ### Host accesses -/

/-- From `s` to `t` an access was ignored and counted in HST_ERR_COUNT, which saturates (R453, R455). -/
def accessIgnored (s t : State) : Prop :=
  t.host = { s.host with errCount := BitVec.ofNat 32 (min (s.host.errCount.toNat + 1) (2 ^ 32 - 1)) } ∧ ∀ p, p ≠ .host → Same p s t

/-- From `s` to `t` slot `i` has one more transport fault, which saturates, and the other slots stand (R481). -/
def faultCounted (i : Nat) (s t : State) : Prop :=
  (slotOf t i).faults = BitVec.ofNat 32 (min ((slotOf s i).faults.toNat + 1) (2 ^ 32 - 1)) ∧ ∀ j, j ≠ i → slotOf t j = slotOf s j

/-! ### The commands of Icoux -/

/-- The command of Icoux that `i` submits: what its opcode table gives it, and its descriptor. None is a command of a register, a pin, a wire
or an engine, and UNKNOWN_OPCODE. -/
def commandDef (i : Instr) (s : State) : Option (OpDef × Cmd) :=
  match i with
  | .timeDomainWrite c => some (opTimeDomainWrite, c)
  | .timeDomainRead c => some (opTimeDomainRead, c)
  | .timeAdjust c => some (opTimeAdjust, c)
  | .timeGet c => some (opTimeGet, c)
  | .portTimeWrite c => some (opPortTimeWrite, c)
  | .portTimeRead c => some (opPortTimeRead, c)
  | .twostepRead c => some (opTwostepRead, c)
  | .timePinWrite c => some (opTimePinWrite, c)
  | .timePinRead c => some (opTimePinRead, c)
  | .captureRead c => some (opCaptureRead, c)
  | .firingEntryWrite c => some (opFiringEntryWrite, c)
  | .firingEntryRead c => some (opFiringEntryRead, c)
  | .firingStatus c => some (opFiringStatus, c)
  | .laneConfigWrite c => some (opLaneConfigWrite, c)
  | .laneConfigRead c => some (opLaneConfigRead, c)
  | .laneStatus c => some (opLaneStatus, c)
  | .laneTestWrite c => some (opLaneTestWrite, c)
  | .laneTestRead c => some (opLaneTestRead, c)
  | .eyeScan c => some (opEyeScan, c)
  | .eyeScanAbort c => some (opEyeScanAbort, c)
  | .eyeStatus c => some (opEyeStatus, c)
  | .eyeResult c => some (opEyeResult, c)
  | .portConfigWrite c => some (opPortConfigWrite, c)
  | .portConfigRead c => some (opPortConfigRead, c)
  | .portStatus c => some (opPortStatus, c)
  | .portFlowWrite c => some (opPortFlowWrite, c)
  | .portFlowRead c => some (opPortFlowRead, c)
  | .portPreemptWrite c => some (opPortPreemptWrite, c)
  | .portPreemptRead c => some (opPortPreemptRead, c)
  | .frameFilterWrite c => some (opFrameFilterWrite, c)
  | .frameFilterRead c => some (opFrameFilterRead, c)
  | .parserMalformedWrite c => some (opParserMalformedWrite, c)
  | .parserMalformedRead c => some (opParserMalformedRead, c)
  | .treeTableWrite c => some (opTreeTableWrite, c)
  | .treeTableRead c => some (opTreeTableRead, c)
  | .classifierRuleWrite c => some (opClassifierRuleWrite, c)
  | .classifierRuleRead c => some (opClassifierRuleRead, c)
  | .treeCommit c => some (opTreeCommit, c)
  | .ruleAdd c => some (opRuleAdd ((payloadOf (effectiveCmd c s)).length / 80), c)
  | .ruleBatch c => some (opRuleBatch, c)
  | .ruleBatchAbort c => some (opRuleBatchAbort, c)
  | .ruleBatchStatus c => some (opRuleBatchStatus, c)
  | .fdbEntryWrite c => some (opFdbEntryWrite, c)
  | .fdbEntryRead c => some (opFdbEntryRead, c)
  | .fdbLearnWrite c => some (opFdbLearnWrite, c)
  | .fdbLearnRead c => some (opFdbLearnRead, c)
  | .fdbNotifyWrite c => some (opFdbNotifyWrite, c)
  | .fdbNotifyRead c => some (opFdbNotifyRead, c)
  | .fdbDelegateWrite c => some (opFdbDelegateWrite, c)
  | .fdbDelegateRead c => some (opFdbDelegateRead, c)
  | .lpmRouteWrite c => some (opLpmRouteWrite, c)
  | .lpmRouteRead c => some (opLpmRouteRead, c)
  | .hostEntry c => some (opHostEntry (effectiveCmd c s).replyMax.toNat, c)
  | .hostLookupWrite c => some (opHostLookupWrite, c)
  | .hostLookupRead c => some (opHostLookupRead, c)
  | .sigSetBegin c => some (opUploadBegin 0x0701 1, c)
  | .sigSetChunk c => some (opUploadChunk 0x0702 1 c.slot.val, c)
  | .sigSetCommit c => some (opSigSetCommit, c)
  | .sigEngineWrite c => some (opSigEngineWrite, c)
  | .sigEngineRead c => some (opSigEngineRead, c)
  | .sigProfileWrite c => some (opSigProfileWrite, c)
  | .sigProfileRead c => some (opSigProfileRead, c)
  | .sigRuleWrite c => some (opSigRuleWrite, c)
  | .sigRuleRead c => some (opSigRuleRead, c)
  | .sigStatus c => some (opSigStatus, c)
  | .bufferPoolWrite c => some (opBufferPoolWrite, c)
  | .bufferPoolRead c => some (opBufferPoolRead, c)
  | .admitProfileWrite c => some (opAdmitProfileWrite, c)
  | .admitProfileRead c => some (opAdmitProfileRead, c)
  | .portAdmitWrite c => some (opPortAdmitWrite, c)
  | .portAdmitRead c => some (opPortAdmitRead, c)
  | .dramShareWrite c => some (opDramShareWrite, c)
  | .dramShareRead c => some (opDramShareRead, c)
  | .bufScrubWrite c => some (opBufScrubWrite, c)
  | .bufScrubRead c => some (opBufScrubRead, c)
  | .bufferStatus c => some (opBufferStatus, c)
  | .queueBufferStatus c => some (opQueueBufferStatus, c)
  | .meshConfigWrite c => some (opMeshConfigWrite, c)
  | .meshConfigRead c => some (opMeshConfigRead, c)
  | .mcastGroupWrite c => some (opMcastGroupWrite, c)
  | .mcastGroupRead c => some (opMcastGroupRead, c)
  | .mirrorSessionWrite c => some (opMirrorSessionWrite, c)
  | .mirrorSessionRead c => some (opMirrorSessionRead, c)
  | .queueAgeWrite c => some (opQueueAgeWrite, c)
  | .queueAgeRead c => some (opQueueAgeRead, c)
  | .dropPolicyWrite c => some (opDropPolicyWrite, c)
  | .dropPolicyRead c => some (opDropPolicyRead, c)
  | .policerWrite c => some (opPolicerWrite, c)
  | .policerRead c => some (opPolicerRead, c)
  | .shaperProfileWrite c => some (opShaperProfileWrite, c)
  | .shaperProfileRead c => some (opShaperProfileRead, c)
  | .portSchedWrite c => some (opPortSchedWrite, c)
  | .portSchedRead c => some (opPortSchedRead, c)
  | .extQueueWrite c => some (opExtQueueWrite, c)
  | .extQueueRead c => some (opExtQueueRead, c)
  | .gateListWrite c => some (opGateListWrite, c)
  | .gateListRead c => some (opGateListRead, c)
  | .portSchedStatus c => some (opPortSchedStatus, c)
  | .counterRead c => some (opCounterRead, c)
  | .telemetryProfileWrite c => some (opTelemetryProfileWrite, c)
  | .telemetryProfileRead c => some (opTelemetryProfileRead, c)
  | .exporterWrite c => some (opExporterWrite, c)
  | .exporterRead c => some (opExporterRead, c)
  | .observerGrantWrite c => some (opObserverGrantWrite, c)
  | .observerGrantRead c => some (opObserverGrantRead, c)
  | .powerCapWrite c => some (opPowerCapWrite, c)
  | .powerCapRead c => some (opPowerCapRead, c)
  | .powerStatus c => some (opPowerStatus, c)
  | .ageingStatus c => some (opAgeingStatus, c)
  | .energyRead c => some (opEnergyRead, c)
  | .faultPolicyWrite c => some (opFaultPolicyWrite, c)
  | .faultPolicyRead c => some (opFaultPolicyRead, c)
  | .faultAction c => some (opFaultAction, c)
  | .faultStatus c => some (opFaultStatus, c)
  | .faultSites c => some (opFaultSites, c)
  | .faultTestEnable c => some (opFaultTestEnable, c)
  | .faultTestDisable c => some (opFaultTestDisable, c)
  | .faultInject c => some (opFaultInject, c)
  | .kilnRead c => some (opKilnRead, c)
  | .kilnClear c => some (opKilnClear, c)
  | .sessionOpen c => some (opSessionOpen !(effectiveCmd c s).flags.getLsbD 0, c)
  | .sessionClose c => some (opSessionClose, c)
  | .sessionSync c => some (opSessionSync, c)
  | .roleKey c => some (opRoleKey, c)
  | .dmaRingWrite c => some (opDmaRingWrite (slotOf s c.slot.val).i3c, c)
  | .dmaRingRead c => some (opDmaRingRead, c)
  | .capRead c => some (opCapRead, c)
  | .modeWrite c => some (opModeWrite, c)
  | .modeRead c => some (opModeRead, c)
  | .imageBegin c => some (opUploadBegin 0x0501 0, c)
  | .imageChunk c => some (opUploadChunk 0x0502 0 c.slot.val, c)
  | .imageVerify c => some (opImageVerify, c)
  | .imageApply c => some (opImageApply, c)
  | .imageUnload c => some (opImageUnload, c)
  | .imageStatus c => some (opImageStatus, c)
  | .fwBegin c => some (opUploadBegin 0x0F01 2, c)
  | .fwChunk c => some (opUploadChunk 0x0F02 2 c.slot.val, c)
  | .fwCommit c => some (opFwCommit, c)
  | .fwActivate c => some (opFwActivate, c)
  | .fwStatus c => some (opFwStatus, c)
  | .deviceReset c => some (opDeviceReset, c)
  | .clockSourceSwitch _ | .rateAllowanceRefill _ | .backgroundPeriodEnd _ _ | .backgroundSlotGrant _ _ _ | .timeAdvance _
  | .alignmentStrobe _ | .strobeMissing _ | .refclkWindow _ _ _ | .slewEnd _ | .pllLockReport _ | .profileSwitchDone
  | .profileSwitchTimeout | .pllRelockRetry | .pinEdgeCapture _ _ _ _ | .pinPulseEnd _ | .counterFreeze _ _ _ | .histogramRollover _ _ _
  | .gateCycle _ _ | .pinPulse _ _ | .powerCycle _ _ _ _ | .scrubEpoch _ _ _ | .telemetryEpoch _ _ _ | .timeStore _ _ _
  | .eyePointDone _ _ _ | .laneRefclkLost _ | .laneRefclkRelock _ | .laneRefclkHoldoverEnd _ | .laneRefclkRestored _ | .signalDetected _
  | .autonegResolved _ _ | .anTimeout _ | .trainingDone _ _ | .trainingTimeout _ _ | .lockAcquired _ | .lockTimeout _ _ | .linkUp _
  | .alignTimeout _ _ _ | .signalLost _ | .backoffExpired _ | .backoffReset _ | .trainingFrameMalformed _ _ _ | .anPageViolation _
  | .linkDown _ _ _ | .reacquireDone _ | .reacquireTimeout _ _ | .syncHeaderReceived _ _ | .alignmentMarkerReceived _ _
  | .fecCodewordDecoded _ _ | .degradeWindowEnd _ | .farEndLoopbackBlock _ _ _ _ | .patternBitsChecked _ _ _ _ | .errorInjectionEvent _
  | .d2dDoubleBitError _ _ | .d2dRetrainDone _ | .lanePll _ | .laneAdapt _ | .laneStore _ | .rxFrameHead _ _ _ _ _
  | .rxFragment _ _ _ _ _ _ _ | .rxOversize _ _ | .rxPcsErrorMark _ | .rxFrameEnd _ _ | .macControlFrame _ _ | .occupancyReport _ _
  | .pauseRefresh _ | .pauseTimerExpiry _ _ | .pauseStorm _ _ | .stormRecovered _ _ | .preemptVerifyTimer _ | .preemptVerify _
  | .macFifo _ _ | .macStore _ | .pcsCheck _ | .macFlow _ | .flowResync _ | .parseStart _ _ | .parseResume _ _ | .prsStore _ _
  | .prsVector _ _ | .prsHang _ _ | .prsCheck _ _ | .parserReload _ | .stageLookup _ | .routineIssue _ | .microwordExecute _ _ _ _
  | .memoryResultReturn _ _ _ _ | .lockGranted _ _ _ | .waitResume _ _ _ _ | .routineCommit _ _ _ _ | .sequencerRelease _
  | .frameDecision _ | .hostDelivery _ _ _ | .treeNodeReadReturn _ _ _ | .treeWalkTimeout _ | .treeSwap _ _ _ _ | .treeNodesFreed _ _
  | .quiesceStart _ | .quiesceWrite _ _ | .retiredBufferRelease _ | .imagePipelineApply _ | .matExact _ _ _ _ _ | .matTernary _ _ _ _ _
  | .matResult _ _ _ _ _ | .matDesc _ _ _ | .matPath _ _ | .matTree _ _ | .stageReload _ _ | .actMicro _ _ _ _ | .actNano _ _ _ _
  | .actContext _ _ _ | .actHang _ _ _ | .storeReload _ _ _ _ | .stateRowReset _ _ _ _ | .learnRequestProcess _ | .fdbArbiterGrant _
  | .notifyProducerWriteback _ | .fdbNtfConsWrite _ _ | .fdbCmdReadKey _ _ | .fdbCmdReadIndex _ _ | .fdbCmdInsert _ _ | .fdbCmdWrite _ _
  | .fdbCmdDelete _ _ | .fdbCmdDeleteIfIdle _ _ | .fdbCmdAge _ _ | .fdbCmdIterate _ _ | .fdbCmdInvalidOp _ _ _ | .fdbWindowRegWrite _ _ _
  | .fdbRejectsRead _ | .lpmBucketFree _ | .hostBucketReadReturn _ _ | .fdbLearnFault _ | .fdbCmdFault _ | .hostRead _ _ | .fwdAudit _ _
  | .sigDispatch _ | .sigScanDone _ | .inspectionReturn _ | .sigStore _ _ _ _ | .sigPath _ _ | .sigReload _ | .transferAdmission _ _
  | .spillWrite _ | .spillWriteDone _ _ | .returnRead _ _ | .returnReadDone _ _ _ | .returnStallResume _ _ | .dramShareWindow _
  | .scrubPassDone _ _ | .bufData _ _ | .bufLink _ _ | .bufDesc _ _ _ | .bufCount _ _ | .poolRebuild _ | .dramData _ _ | .dramLink _
  | .dramRetrain _ | .dramRequestTimeout _ _ | .spillOrder _ _ | .meshFlitReceived _ _ _ | .relayTransfer _ | .meshCreditAudit _ _
  | .meshRetrain _ | .meshLink _ | .meshTrainRetry _ _ | .meshMgmt _ | .mcastOldListFree _ | .cutThroughUnderrun _ _ | .holdExpiry _
  | .swcRepl _ | .swcMirror _ _ | .swcPath _ _ _ | .swcFlush _ | .switchReload _ _ _ | .refillInstant _ | .schedulerSelect _ _ _ _
  | .txFrameEnd _ _ | .gateEntryStart _ | .schState _ | .polState _ _ | .freezeSweepDone _ | .freezePublish | .rolloverPublish
  | .telCounter _ _ _ | .telExport _ _ | .bubbleFrameStart _ | .laneEqStep _ | .laneStepCheck _ _ | .energyCalibration _ _ _ _
  | .tempSample _ | .thermalTrip _ _ | .avsResponse _ _ _ _ | .avsTimeout _ _ | .gaugeEpoch _ _ _ _ | .marginEpoch _ _ _ _
  | .heatWorkAccumulate | .laneReplan | .dataAreaSave | .faultRaise | .graceExpiry _ _ _ | .quietExpiry _ _ _ | .fltLatchWrite _ _
  | .fltAlertEnWrite _ _ | .fltTestKeyWrite _ | .testKeyTimeout | .reg64LowHalfRead _ _ | .klnCursorWrite _ | .klnWindowLatched
  | .ccMemory _ _ _ | .ccWatchdog _ _ _ | .fwCheck _ _ | .fltSelf _ _ | .invalidBarAccess _ _ | .registerWrite _ _ | .rcCounterRead _
  | .pcieInterfaceLost _ | .pcieLinkUp _ _ | .hstMbxCtrlWrite _ _ | .hstMbxDb _ _ | .hstMbxCplHeadWrite _ _ | .commandCompletion _
  | .unknownOpcode _ _ | .hstRxTailWrite _ _ | .hstTxTailWrite _ _ | .hostInject _ _ _ _ | .irqCoalesceExpiry _ _ | .sessionCloseDone _
  | .limitedExit _ | .limitedCommandTake _ | .credentialLockoutEnd _ | .umlimelPayload _ _ _ _ | .umlimelCommand _ _ _
  | .umlimelFetch _ _ _ | .umlimelRead _ | .umlimelFrameInvalid _ _ | .ibiRetry _ | .enec _ | .disec _ | .rstdaa | .entdaa _ | .setdasa _
  | .setnewda _ | .setmwl _ | .setmrl _ | .getmwl | .getmrl | .getpid | .getbcr | .getdcr | .getstatus | .getmxds | .enthdr0 | .rstact _
  | .hstLink _ _ | .fwWritten _ | .softwareReset | .powerOn _ | .resetNAssert _ _ | .resetNDeassert _ | .q0PllLock _ | .glazeInit _ _
  | .glazeRetry _ _ _ | .glazeReady _ | .warmRestartStart | .warmRestartDone _ _ _ | .bypass _ | .idcode _ | .samplePreload _ _
  | .extest _ _ | .extestPulse _ _ | .extestTrain _ _ | .highz _ | .clamp _ | .signalBreak _ | .cdrLockLost _ | .profileRelockTimeout
  | .macReload _ | .lanePllRelock _ | .laneStoreReload _ | .rowRewrite _ _ _ | .policerReload _ _ | .schedReload _ | .timeStoreReload _ _
  | .telExportReload _ | .testKeyLockoutEnd | .supplyLeavesRange _ _ => none

/-- What a command may change: every other part of the state stays as it is. The queue is no part of it, and no command changes it. -/
def touches (i : Instr) : List Part :=
  match i with
  | .dataAreaSave => [.boot]
  | .dramShareWindow _ => [.buf]
  | .meshCreditAudit _ _ | .meshMgmt _ | .swcFlush _ | .fltTestKeyWrite _ | .klnCursorWrite _ | .klnWindowLatched | .fltSelf _ _ => [.flt]
  | .fdbCmdReadKey _ _ | .fdbCmdReadIndex _ _ | .fdbCmdInsert _ _ | .fdbCmdWrite _ _ | .fdbCmdDelete _ _ | .fdbCmdDeleteIfIdle _ _
  | .fdbCmdAge _ _ | .fdbCmdIterate _ _ | .fdbCmdInvalidOp _ _ _ | .fdbWindowRegWrite _ _ _ => [.fwd]
  | .fdbNtfConsWrite _ _ | .sessionCloseDone _ | .enec _ | .disec _ | .rstdaa | .setmwl _ | .setmrl _ | .enthdr0 => [.host]
  | .eyePointDone _ _ _ | .trainingDone _ _ | .lockAcquired _ | .d2dRetrainDone _ | .signalBreak _ => [.lane]
  | .rateAllowanceRefill _ => [.limits]
  | .macReload _ => [.mac]
  | .memoryResultReturn _ _ _ _ | .lockGranted _ _ _ | .quiesceStart _ | .retiredBufferRelease _ | .stageReload _ _ => [.mat]
  | .bubbleFrameStart _ => [.pow]
  | .parserReload _ => [.prs]
  | .refillInstant _ | .policerReload _ _ | .schedReload _ => [.sch]
  | .relayTransfer _ | .mcastOldListFree _ | .switchReload _ _ _ => [.sw]
  | .anPageViolation _ | .freezePublish | .rolloverPublish | .telExportReload _ => [.tel]
  | .pllLockReport _ | .pinEdgeCapture _ _ _ _ => [.time]
  | .fwWritten _ => [.flt, .boot]
  | .supplyLeavesRange _ _ => [.free, .out, .flt, .boot]
  | .bufCount _ _ | .dramData _ _ | .dramLink _ | .dramRetrain _ => [.flt, .buf]
  | .fdbCmdFault _ | .fwdAudit _ _ => [.flt, .fwd]
  | .ccMemory _ _ _ | .ccWatchdog _ _ _ | .fwCheck _ _ | .pcieLinkUp _ _ | .entdaa _ | .setdasa _ | .setnewda _ => [.flt, .host]
  | .laneRefclkLost _ | .laneRefclkRestored _ | .d2dDoubleBitError _ _ | .laneAdapt _ | .laneStore _ => [.flt, .lane]
  | .preemptVerify _ | .macStore _ => [.flt, .mac]
  | .treeSwap _ _ _ _ | .storeReload _ _ _ _ => [.flt, .mat]
  | .energyCalibration _ _ _ _ => [.flt, .pow]
  | .schState _ | .polState _ _ => [.flt, .sch]
  | .backgroundSlotGrant _ _ _ => [.flt, .sig]
  | .meshRetrain _ | .meshTrainRetry _ _ => [.flt, .sw]
  | .freezeSweepDone _ | .telExport _ _ => [.flt, .tel]
  | .laneEqStep _ => [.lane, .pow]
  | .rowRewrite _ _ _ => [.mat, .fwd]
  | .resetNDeassert _ => [.now, .boot]
  | .quietExpiry _ _ _ | .testKeyTimeout | .testKeyLockoutEnd => [.now, .flt]
  | .lpmBucketFree _ => [.now, .fwd]
  | .limitedExit _ | .limitedCommandTake _ | .credentialLockoutEnd _ => [.now, .host]
  | .laneRefclkRelock _ | .signalDetected _ | .backoffExpired _ | .backoffReset _ => [.now, .lane]
  | .treeNodesFreed _ _ => [.now, .mat]
  | .heatWorkAccumulate => [.now, .pow]
  | .slewEnd _ | .pllRelockRetry => [.now, .time]
  | .bypass _ | .idcode _ | .samplePreload _ _ | .extest _ _ | .extestPulse _ _ | .extestTrain _ _ | .highz _ | .clamp _ => [.out, .boot]
  | .reg64LowHalfRead _ _ => [.out, .flt]
  | .fdbRejectsRead _ => [.out, .fwd]
  | .invalidBarAccess _ _ | .registerWrite _ _ | .rcCounterRead _ | .umlimelRead _ | .getmwl | .getmrl | .getpid | .getbcr | .getdcr => [.out, .host]
  | .spillWrite _ => [.tel, .buf]
  | .rstact _ => [.tel, .host]
  | .syncHeaderReceived _ _ | .alignmentMarkerReceived _ _ | .fecCodewordDecoded _ _ | .farEndLoopbackBlock _ _ _ _
  | .patternBitsChecked _ _ _ _ | .errorInjectionEvent _ | .cdrLockLost _ => [.tel, .lane]
  | .quiesceWrite _ _ => [.tel, .mat]
  | .gateEntryStart _ => [.tel, .sch]
  | .sigScanDone _ => [.tel, .sig]
  | .clockSourceSwitch _ | .strobeMissing _ | .refclkWindow _ _ _ | .timeStore _ _ _ | .timeStoreReload _ _ => [.time, .flt]
  | .q0PllLock _ | .glazeInit _ _ => [.flt, .boot, .pow]
  | .sigReload _ => [.flt, .host, .sig]
  | .laneReplan => [.flt, .lane, .pow]
  | .spillWriteDone _ _ | .returnStallResume _ _ | .scrubPassDone _ _ => [.flt, .tel, .buf]
  | .fdbLearnFault _ => [.flt, .tel, .fwd]
  | .timeDomainRead _ | .timeGet _ | .portTimeRead _ | .timePinRead _ | .firingEntryRead _ | .firingStatus _ | .laneConfigRead _
  | .laneStatus _ | .laneTestRead _ | .eyeResult _ | .portConfigRead _ | .portStatus _ | .portFlowRead _ | .portPreemptRead _
  | .frameFilterRead _ | .parserMalformedRead _ | .treeTableRead _ | .classifierRuleRead _ | .ruleBatchStatus _ | .fdbEntryRead _
  | .fdbLearnRead _ | .fdbNotifyRead _ | .fdbDelegateRead _ | .lpmRouteRead _ | .hostLookupRead _ | .sigSetBegin _ | .sigSetChunk _
  | .sigEngineRead _ | .sigProfileRead _ | .sigRuleRead _ | .sigStatus _ | .bufferPoolRead _ | .admitProfileRead _
  | .portAdmitRead _ | .dramShareRead _ | .bufScrubRead _ | .meshConfigRead _ | .mcastGroupRead _ | .mirrorSessionRead _
  | .queueAgeRead _ | .dropPolicyRead _ | .policerRead _ | .shaperProfileRead _ | .portSchedRead _ | .extQueueRead _
  | .gateListRead _ | .portSchedStatus _ | .counterRead _ | .telemetryProfileWrite _ | .telemetryProfileRead _ | .exporterRead _
  | .observerGrantWrite _ | .observerGrantRead _ | .powerCapRead _ | .powerStatus _ | .ageingStatus _ | .energyRead _
  | .faultPolicyWrite _ | .faultPolicyRead _ | .faultStatus _ | .faultSites _ | .faultTestDisable _ | .kilnRead _ | .kilnClear _
  | .hstMbxDb _ _ | .hstMbxCplHeadWrite _ _ | .unknownOpcode _ _ | .hstRxTailWrite _ _ | .hstTxTailWrite _ _ | .sessionOpen _
  | .sessionClose _ | .sessionSync _ | .dmaRingWrite _ | .dmaRingRead _ | .capRead _ | .modeRead _ | .hstLink _ _ | .imageBegin _
  | .imageChunk _ | .imageStatus _ | .fwBegin _ | .fwChunk _ | .fwStatus _ => [.flt, .tel, .host]
  | .autonegResolved _ _ | .signalLost _ | .trainingFrameMalformed _ _ _ | .degradeWindowEnd _ => [.flt, .tel, .lane]
  | .sigDispatch _ | .sigStore _ _ _ _ => [.flt, .tel, .sig]
  | .poolRebuild _ => [.free, .flt, .buf]
  | .swcRepl _ | .swcMirror _ _ => [.free, .flt, .sw]
  | .telCounter _ _ _ => [.free, .flt, .tel]
  | .getstatus | .getmxds => [.free, .out, .host]
  | .stormRecovered _ _ => [.now, .flt, .mac]
  | .tempSample _ => [.now, .flt, .pow]
  | .irqCoalesceExpiry _ _ | .ibiRetry _ => [.now, .out, .host]
  | .pinPulseEnd _ => [.now, .out, .time]
  | .pauseTimerExpiry _ _ => [.now, .tel, .mac]
  | .profileRelockTimeout => [.now, .time, .flt]
  | .timeAdvance _ => [.now, .time, .tel]
  | .fltLatchWrite _ _ | .fltAlertEnWrite _ _ => [.out, .flt, .host]
  | .notifyProducerWriteback _ => [.out, .host, .fwd]
  | .occupancyReport _ _ => [.out, .tel, .mac]
  | .pinPulse _ _ => [.out, .time, .flt]
  | .routineIssue _ | .routineCommit _ _ _ _ => [.tel, .fr, .mat]
  | .fdbArbiterGrant _ => [.tel, .host, .fwd]
  | .scrubEpoch _ _ _ => [.time, .flt, .buf]
  | .profileSwitchDone => [.time, .flt, .host]
  | .powerCycle _ _ _ _ | .gaugeEpoch _ _ _ _ => [.time, .flt, .pow]
  | .counterFreeze _ _ _ | .histogramRollover _ _ _ => [.time, .flt, .tel]
  | .imagePipelineApply _ => [.flt, .fr, .prs, .mat]
  | .backgroundPeriodEnd _ _ => [.flt, .tel, .buf, .pow]
  | .hostRead _ _ => [.flt, .tel, .fr, .fwd]
  | .roleKey _ | .fwCommit _ | .fwActivate _ | .deviceReset _ => [.flt, .tel, .host, .boot]
  | .bufferPoolWrite _ | .admitProfileWrite _ | .portAdmitWrite _ | .dramShareWrite _ | .bufferStatus _ | .queueBufferStatus _ => [.flt, .tel, .host, .buf]
  | .fdbEntryWrite _ | .fdbLearnWrite _ | .fdbDelegateWrite _ | .hostEntry _ | .hostLookupWrite _ => [.flt, .tel, .host, .fwd]
  | .laneConfigWrite _ | .laneTestWrite _ | .eyeScan _ | .eyeScanAbort _ => [.flt, .tel, .host, .lane]
  | .treeTableWrite _ | .classifierRuleWrite _ | .treeCommit _ | .ruleAdd _ | .ruleBatch _ | .ruleBatchAbort _ | .imageVerify _
  | .imageApply _ => [.flt, .tel, .host, .mat]
  | .policerWrite _ | .shaperProfileWrite _ | .portSchedWrite _ | .extQueueWrite _ | .gateListWrite _ => [.flt, .tel, .host, .sch]
  | .sigSetCommit _ | .sigEngineWrite _ | .sigProfileWrite _ | .sigRuleWrite _ => [.flt, .tel, .host, .sig]
  | .meshConfigWrite _ | .mirrorSessionWrite _ | .queueAgeWrite _ => [.flt, .tel, .host, .sw]
  | .matTree _ _ => [.flt, .tel, .mat, .sig]
  | .eyeStatus _ | .faultTestEnable _ => [.free, .flt, .tel, .host]
  | .laneStepCheck _ _ => [.now, .flt, .lane, .pow]
  | .anTimeout _ | .trainingTimeout _ _ | .lockTimeout _ _ | .alignTimeout _ _ _ | .reacquireTimeout _ _ => [.now, .flt, .tel, .lane]
  | .pauseStorm _ _ => [.now, .flt, .tel, .mac]
  | .preemptVerifyTimer _ => [.now, .out, .flt, .mac]
  | .pauseRefresh _ => [.now, .out, .tel, .mac]
  | .profileSwitchTimeout => [.now, .time, .flt, .host]
  | .faultInject _ => [.out, .flt, .tel, .host]
  | .macFlow _ | .flowResync _ => [.out, .flt, .tel, .mac]
  | .sequencerRelease _ => [.tel, .fr, .fwd, .pow]
  | .avsResponse _ _ _ _ | .avsTimeout _ _ => [.time, .flt, .host, .pow]
  | .marginEpoch _ _ _ _ => [.time, .flt, .lane, .pow]
  | .timeDomainWrite _ | .timeAdjust _ | .portTimeWrite _ | .twostepRead _ | .captureRead _ | .firingEntryWrite _
  | .mcastGroupWrite _ => [.time, .flt, .tel, .host]
  | .gateCycle _ _ => [.time, .flt, .tel, .sch]
  | .pcieInterfaceLost _ | .hstMbxCtrlWrite _ _ => [.flt, .tel, .host, .mat, .fwd]
  | .lpmRouteWrite _ => [.free, .flt, .tel, .host, .fwd]
  | .umlimelPayload _ _ _ _ | .umlimelCommand _ _ _ | .umlimelFetch _ _ _ | .umlimelFrameInvalid _ _ => [.free, .out, .flt, .tel, .host]
  | .alignmentStrobe _ => [.free, .time, .flt, .host, .sw]
  | .prsVector _ _ | .prsHang _ _ | .prsCheck _ _ | .matPath _ _ | .swcPath _ _ _ => [.limits, .flt, .tel, .fr, .sw]
  | .fdbNotifyWrite _ => [.limits, .flt, .tel, .host, .fwd]
  | .frameFilterWrite _ => [.limits, .flt, .tel, .host, .mac]
  | .parserMalformedWrite _ => [.limits, .flt, .tel, .host, .prs]
  | .dropPolicyWrite _ => [.limits, .flt, .tel, .host, .sw]
  | .exporterWrite _ => [.limits, .time, .flt, .tel, .host]
  | .treeWalkTimeout _ => [.now, .flt, .tel, .mat, .sig]
  | .portFlowWrite _ | .portPreemptWrite _ => [.out, .flt, .tel, .host, .mac]
  | .learnRequestProcess _ => [.out, .limits, .flt, .tel, .fwd]
  | .timePinWrite _ => [.out, .time, .flt, .tel, .host]
  | .hostBucketReadReturn _ _ => [.tel, .fr, .fwd, .buf, .pow]
  | .glazeReady _ => [.time, .flt, .boot, .pow, .fuse]
  | .telemetryEpoch _ _ _ => [.time, .flt, .tel, .fr, .sw]
  | .bufScrubWrite _ => [.time, .flt, .tel, .host, .buf]
  | .powerCapWrite _ => [.time, .flt, .tel, .host, .pow]
  | .imageUnload _ => [.flt, .tel, .host, .fr, .prs, .mat]
  | .treeNodeReadReturn _ _ _ => [.flt, .tel, .mat, .sig, .buf, .pow]
  | .prsStore _ _ => [.limits, .flt, .tel, .fr, .prs, .sw]
  | .matDesc _ _ _ | .actMicro _ _ _ _ | .actNano _ _ _ _ | .actContext _ _ _ | .actHang _ _ _ | .stateRowReset _ _ _ _ => [.limits, .flt, .tel, .fr, .sw, .mat]
  | .parseStart _ _ => [.limits, .flt, .tel, .fr, .sw, .pow]
  | .macControlFrame _ _ | .macFifo _ _ => [.limits, .flt, .tel, .mac, .fr, .sw]
  | .dramRequestTimeout _ _ => [.now, .tel, .fr, .mat, .fwd, .sig]
  | .commandCompletion _ => [.out, .flt, .tel, .host, .mat, .fwd]
  | .linkUp _ | .reacquireDone _ => [.free, .out, .flt, .tel, .lane, .mac, .sw]
  | .transferAdmission _ _ => [.limits, .flt, .tel, .fr, .sw, .buf, .pow]
  | .returnRead _ _ | .returnReadDone _ _ _ | .spillOrder _ _ => [.limits, .flt, .tel, .fr, .sw, .buf, .sch]
  | .matExact _ _ _ _ _ | .matTernary _ _ _ _ _ | .matResult _ _ _ _ _ => [.limits, .flt, .tel, .fr, .sw, .mat, .fwd]
  | .parseResume _ _ => [.limits, .flt, .tel, .fr, .sw, .mat, .pow]
  | .microwordExecute _ _ _ _ | .waitResume _ _ _ _ => [.free, .limits, .flt, .tel, .fr, .sw, .mat, .pow]
  | .inspectionReturn _ | .sigPath _ _ => [.limits, .flt, .tel, .fr, .sw, .mat, .sig]
  | .rxFrameHead _ _ _ _ _ => [.limits, .flt, .tel, .mac, .fr, .sw, .mat]
  | .hostDelivery _ _ _ | .hostInject _ _ _ _ => [.out, .limits, .flt, .tel, .host, .fr, .sw]
  | .schedulerSelect _ _ _ _ => [.limits, .time, .flt, .tel, .fr, .sw, .buf, .sch]
  | .holdExpiry _ => [.now, .limits, .flt, .tel, .fr, .sw, .buf, .sch]
  | .modeWrite _ => [.table, .bufp, .time, .flt, .tel, .host, .mat, .fwd]
  | .stageLookup _ => [.free, .limits, .flt, .tel, .fr, .sw, .mat, .fwd, .pow]
  | .frameDecision _ => [.limits, .flt, .tel, .fr, .sw, .mat, .fwd, .sig, .sch]
  | .cutThroughUnderrun _ _ | .txFrameEnd _ _ => [.out, .limits, .flt, .tel, .fr, .sw, .buf, .sch, .pow]
  | .bufData _ _ | .bufLink _ _ | .bufDesc _ _ _ | .meshFlitReceived _ _ _ | .meshLink _ => [.free, .out, .limits, .flt, .tel, .fr, .sw, .buf, .sch, .pow]
  | .rxPcsErrorMark _ | .pcsCheck _ => [.free, .out, .limits, .flt, .tel, .mac, .fr, .sw, .buf, .sch, .pow]
  | .linkDown _ _ _ | .lanePll _ | .lanePllRelock _ | .laneStoreReload _ => [.free, .out, .limits, .flt, .tel, .lane, .mac, .fr, .sw, .buf, .sch, .pow]
  | .rxFragment _ _ _ _ _ _ _ | .rxOversize _ _ | .rxFrameEnd _ _ => [.free, .out, .limits, .flt, .tel, .mac, .fr, .sw, .mat, .buf, .sch, .pow]
  | .laneRefclkHoldoverEnd _ => [.now, .free, .out, .limits, .flt, .tel, .lane, .mac, .fr, .sw, .buf, .sch, .pow]
  | .portConfigWrite _ => [.free, .out, .limits, .time, .flt, .tel, .host, .lane, .mac, .fr, .sw, .buf, .sch, .pow]
  | .thermalTrip _ _ | .faultRaise | .graceExpiry _ _ _ | .faultAction _ | .softwareReset | .powerOn _ | .resetNAssert _ _
  | .glazeRetry _ _ _ | .warmRestartStart => allParts
  | .warmRestartDone _ _ _ => .fuse :: allParts

end Sys2Proof.Machine
end

