-- ==== Sys2Proof/Certificates/Slice0/Obligations.lean ====
section
/-!
DEFINITION. The statements for the provers.
-/

open Sys2Proof Sys2Proof.Machine

/-! ### The machine -/

/-- A step takes the command at the front of the queue and runs it on the state with the queue's rest; on an empty queue the block idles (the
model's choice, assumption 3). -/
def Obligations.StepRunsTheFrontCommand : Prop :=
  (∀ (c : Instr) (rest : List Instr) (s : State), s.pending = c :: rest → Machine.step s = exec c { s with pending := rest }) ∧
  (∀ s : State, s.pending = [] → Machine.step s = .next s)

/-- The state right after reset (R417, R431, R434, R439, R444, R455, R457, R475, R525): no command waits, every slot is FREE, no site is listed,
nothing is latched and every fault may alert, the log is empty, the device is in the bisque stage with RESET_N low, no timer runs, the queue
and buffers are empty, TD0 is the datapath domain, and the kiln log keeps its bound. -/
def Obligations.ResetStateIsAsTheSpecSays : Prop :=
  State.reset.pending = [] ∧ (∀ i, slotOf State.reset i = {}) ∧ State.reset.host.running = [] ∧ State.reset.host.ended = [] ∧
  State.reset.flt.sites = [] ∧ State.reset.flt.latch = 0 ∧ State.reset.flt.alertEn = 0xFFFFFFFFFFFFFFFF ∧ State.reset.flt.kiln = [] ∧
  KilnOk State.reset.flt ∧ State.reset.boot.stage = .bisque ∧ State.reset.boot.resetLow = true ∧ State.reset.boot.capsReady = false ∧
  State.reset.fr.frames = [] ∧ State.reset.buf.copies = [] ∧ State.reset.host.i3c.dynAddr = none ∧ State.reset.host.i3c.mwl = 68 ∧
  datapathDomain State.reset = 0 ∧ (∀ b, b < 63 → fltBit State.reset b = false) ∧ (∀ i, alertOn State.reset = false ∧ ringOf State.reset i = {}) ∧
  clocked State.reset = false ∧ icouxTakes State.reset = false

/-- Every command is answered by a next state in every state, but SUPPLY_LEAVES_RANGE where a rail passes its absolute maximum ratings (R558);
none is refused. -/
def Obligations.EveryCommandCompletes : Prop := ∀ (i : Instr) (s : State),
  ((∀ rail mv, i = .supplyLeavesRange rail mv → -300 ≤ mv ∧ mv ≤ railMax rail.val) → ∃ t, exec i s = .next t) ∧
  (∀ r, exec i s ≠ .refused r) ∧ (exec i s = .fault .beyondRatings → ∃ rail mv, i = .supplyLeavesRange rail mv)

/-- The frame of every command: what `touches` does not name stays as it is. -/
def Obligations.CommandsTouchOnlyTheirParts : Prop := ∀ (i : Instr) (s t : State), exec i s = .next t →
  ∀ p, (touches i).contains p = false → Same p s t

/-- What no command takes back: the queue stands, real time and the supply of free values only advance, what the outside has seen stays seen,
and the fused security minimum never falls (R530). -/
def Obligations.NothingIsTakenBack : Prop := ∀ (i : Instr) (s t : State), exec i s = .next t →
  t.pending = s.pending ∧ s.now ≤ t.now ∧ s.free ≤ t.free ∧ s.out <:+ t.out ∧ s.boot.securityMin ≤ t.boot.securityMin

/-- The kiln log's bound is an invariant of every step (R444, R448). -/
def Obligations.EveryStepKeepsTheKilnLogsBound : Prop := ∀ s t : State, KilnOk s.flt → Machine.step s = .next t → KilnOk t.flt

/-- Icoux takes a command only in its turn, and checks it in the order of R489: a command whose turn it is not changes nothing, a descriptor
that breaks R481 is a transport fault, a slot without a session answers STATE, and the first check that fails ends the command with its
status and changes nothing else. -/
def Obligations.CommandsAreCheckedInOrder : Prop := ∀ (i : Instr) (d : OpDef) (c : Cmd) (s : State), commandDef i s = some (d, c) →
  let e := effectiveCmd c s
  let sl := slotOf s c.slot.val
  let endsWith := fun (st : Status) (data : Bytes) (transport : Bool) (t : State) =>
    t.host.ended = s.host.ended ++ [endedOf d e st data [] transport] ∧ t.host.running = s.host.running
  let keeps := fun (t : State) => ∀ p, p ≠ .host → Same p s t
  (canTake d.opcode d.write c.slot.val s = false → exec i s = .next s) ∧
  (canTake d.opcode d.write c.slot.val s = true →
    (transportBad e sl.i3c = some .badarg → Completes i s fun t => endsWith .badarg [] true t ∧ faultCounted c.slot.val (takenState c s) t) ∧
    (transportBad e sl.i3c = some .integrity → Completes i s fun t => endsWith .integrity [] true t ∧ faultCounted c.slot.val (takenState c s) t) ∧
    (transportBad e sl.i3c = none →
      (sl.state = .pending → d.opcode ≠ 0x0101 → Completes i s fun t => endsWith .state [] true t ∧ keeps t) ∧
      (sl.state = .opened →
        (roleOk s c.slot.val d.role = false → Completes i s fun t => endsWith .denied (failureData d.opcode 0xFFFF) false t ∧ keeps t) ∧
        (roleOk s c.slot.val d.role = true → d.grant (takenState c s) c.slot.val (given c s) = true → s.boot.stage ≠ .ready → 3 ≤ d.group →
          d.group ≤ 13 → Completes i s fun t => endsWith .state (failureData d.opcode 0xFFFF) false t ∧ keeps t) ∧
        (∀ st data, checkCommand d e (takenState c s) = some (st, data) → Completes i s fun t => endsWith st data false t ∧ keeps t))))

/-! ### Network time, time pins and the firing schedule -/

/-- TIME_DOMAIN, PORT_TIME, TIME_PIN and FIRING_ENTRY reads, FIRING_STATUS and TIME_GET answer the state as it stands (R38, R49, R53, R57,
R65, R512, R513). TIME_DOMAIN, TIME_ADJUST and FIRING_ENTRY writes that their rules admit are accepted and tagged for the next strobe (R38,
R39, R41 to R43, R57, R59); PORT_TIME and TIME_PIN writes are in force at once, and a read gives back what was written (R49, R53). -/
def Obligations.TimeObjectsReadAndWrite : Prop :=
  (∀ (c : Cmd) (s : State),
    Reads opTimeDomainRead c (.timeDomainRead c) s (timeDomainObj s (u8 (given c s) 0)) ∧
    Reads opPortTimeRead c (.portTimeRead c) s (portTimeObj s (u16 (given c s) 0)) ∧
    Reads opTimePinRead c (.timePinRead c) s
      (image 8 [(0, 1, u8 (given c s) 0), (1, 1, (pinOf s (u8 (given c s) 0)).flags), (2, 1, (pinOf s (u8 (given c s) 0)).domain)]) ∧
    Reads opFiringEntryRead c (.firingEntryRead c) s (entryObj s (u8 (given c s) 0) (u16 (given c s) 8)) ∧
    Reads opFiringStatus c (.firingStatus c) s (firingStatusObj s (u8 (given c s) 0) (u16 (given c s) 2)) ∧
    (passes opTimeGet c s = true → Completes (.timeGet c) s fun t =>
      let d := u8 (given c s) 0
      answered opTimeGet c .ok (toLe 8 (copyOf s 0 d).sec.toNat ++ toLe 4 (copyOf s 0 d).ns ++ toLe 2 ((copyOf s 0 d).frac.toNat / 65536) ++
        toLe 1 (b2n (domainOf s d).holdover + 2 * b2n (domainOf s d).enable)) [] s t)) ∧
  (∀ (c : Cmd) (s : State),
    (timeDomainState s (given c s) = false → Starts opTimeDomainWrite c (.timeDomainWrite c) s fun t =>
      t.time.tagged = s.time.tagged ++ [.domain (given c s) s.host.nextId]) ∧
    (slewTooFast (given c s) = false → Starts opTimeAdjust c (.timeAdjust c) s fun t =>
      t.time.tagged = s.time.tagged ++ [.adjust (given c s) s.host.nextId]) ∧
    (bit (u8 (given c s) 11) 0 = false → Starts opFiringEntryWrite c (.firingEntryWrite c) s fun t =>
      t.time.tagged = s.time.tagged ++ [.entry (u8 (given c s) 0) ((given c s).drop 8) s.host.nextId]) ∧
    (bit (u8 (given c s) 11) 0 = true → u8 (given c s) 10 ≠ 1 → field (given c s) 28 6 ≠ 0 → Starts opFiringEntryWrite c (.firingEntryWrite c) s fun t =>
      t.time.tagged = s.time.tagged ++ [.entry (u8 (given c s) 0) ((given c s).drop 8) s.host.nextId]) ∧
    Writes opPortTimeWrite c (.portTimeWrite c) s (fun t =>
      portTimeObj t (u16 (given c s) 0) = given c s ∧ ∀ p, p ≠ u16 (given c s) 0 → portTimeObj t p = portTimeObj s p) ∧
    Writes opTimePinWrite c (.timePinWrite c) s (fun t =>
      (pinOf t (u8 (given c s) 0)).flags = u8 (given c s) 1 ∧ (pinOf t (u8 (given c s) 0)).domain = u8 (given c s) 2 ∧
      ∀ p, p ≠ u8 (given c s) 0 → pinOf t p = pinOf s p))

/-- A tick advances every enabled domain of its die by the increment and no other copy; a strobe received aligns or trims, ends the waiting
tagged writes and restarts the count; a refill gives every limiter of the quadrant its thousandths (R35, R36, R43, R45, R573). What the
strobe applies: a tagged object of its kind is in force after it, and its command has ended with OK (R38, R42, R43, R57). -/
def Obligations.ClocksTickAndStrobesApply : Prop :=
  (∀ (q : Quad) (heard : Fin 8) (s : State),
    (clocked s = true → tickHolds s q.val = false → Completes (.timeAdvance q) s fun t =>
      (∀ d, d < 4 → copyOf t q.val d =
        if (domainOf s d).enable then advanceCopy (increment s q.val d) (copyOf s q.val d) else copyOf s q.val d) ∧
      (∀ r d, r < 4 → d < 4 → r ≠ q.val → copyOf t r d = copyOf s r d) ∧
      (q.val = 0 → t.now = s.now + tickUnits s ∧ t.time.strobeTicks = s.time.strobeTicks + 1) ∧ (q.val ≠ 0 → t.now = s.now)) ∧
    (1024 ≤ s.time.strobeTicks → Completes (.alignmentStrobe heard) s fun t =>
      t.time.strobeTicks = 0 ∧ t.time.tagged = [] ∧
      (∀ r, r = 1 ∨ r = 2 ∨ r = 3 → tabGet 0 t.time.missed r = if bit heard.val (r - 1) then 0 else tabGet 0 s.time.missed r + 1) ∧
      (s.time.switch.phase = .staged → t.time.switch.phase = .relocking) ∧
      (s.time.switch.phase = .locked → t.time.switch.phase = .converging ∧ t.time.eased = s.time.switch.newEased)) ∧
    Completes (.rateAllowanceRefill q) s fun t => ∀ k, tabFind t.limits k = (tabFind s.limits k).map fun l =>
      if l.quad = q.val then { l with allowance := min (max 1000 l.pps) (l.allowance + l.pps) } else l) ∧
  (∀ (heard : Fin 8) (o : Bytes) (id : Nat) (r : Running) (s : State),
    1024 ≤ s.time.strobeTicks → s.host.running.find? (fun x => x.id == id) = some r → u8 o 0 < 4 →
    (s.time.tagged = [.domain o id] → Completes (.alignmentStrobe heard) s fun t =>
      (domainOf t (u8 o 0)).enable = bit (u8 o 1) 0 ∧ (domainOf t (u8 o 0)).datapath = bit (u8 o 1) 1 ∧
      (domainOf t (u8 o 0)).source = u8 o 2 ∧ (domainOf t (u8 o 0)).rateAdj = s32 o 8 ∧
      (bit (u8 o 1) 1 = true → ∀ d, d < 4 → d ≠ u8 o 0 → (domainOf t d).datapath = false) ∧
      ∃ e, t.host.ended = s.host.ended ++ [e] ∧ e.slot = r.slot ∧ e.tag = r.tag ∧ e.status = .ok) ∧
    (s.time.tagged = [.adjust o id] → u8 o 1 = 1 → Completes (.alignmentStrobe heard) s fun t =>
      ∀ q, q < 4 → copyOf t q (u8 o 0) = { sec := BitVec.ofNat 64 (u64 o 8), ns := u32 o 4, frac := 0 }) ∧
    (s.time.tagged = [.adjust o id] → u8 o 1 = 3 → Completes (.alignmentStrobe heard) s fun t =>
      (domainOf t (u8 o 0)).slew = some { offset := s64 o 16, durationUs := u32 o 24, began := s.now }) ∧
    (s.time.tagged = [.adjust o id] → u8 o 1 = 4 → Completes (.alignmentStrobe heard) s fun t =>
      (domainOf t (u8 o 0)).rateAdj = s32 o 28) ∧
    (∀ d, d < 4 → u16 o 0 < 512 → s.time.tagged = [.entry d o id] → Completes (.alignmentStrobe heard) s fun t =>
      (entryOf t d (u16 o 0)).obj = o ∧ (entryOf t d (u16 o 0)).enabled = bit (u8 o 3) 0 ∧ (entryOf t d (u16 o 0)).fires = 0 ∧
      (entryOf t d (u16 o 0)).lag = 0 ∧ (entryOf t d (u16 o 0)).skip = 0))

/-- Losing a reference, a strobe or a PLL lock: the alternate reference, holdover at the last good rate, hard alignment at the next strobe
(R13, R40, R45, R66). A clock-profile change and a slew: every PLL locked reaches the next step, the loops reconverged end the command with
OK, 100 µs without every lock end it with TIMEOUT, and a slew's end removes its addition (R42, R45). -/
def Obligations.ClockChangesAreContained : Prop :=
  (∀ (q : Quad) (d : Domain') (present : Bool) (rate : Int) (s : State),
    (tabGet false s.time.altClock q.val = false → Completes (.clockSourceSwitch q) s fun t =>
      tabGet false t.time.altClock q.val = true ∧ raisedAll [(48, 15, 0), (48, 15, 1), (48, 15, 2), (48, 15, 3)] s t ∧ logged 0x0B01 t) ∧
    (q.val ≠ 0 → 4 ≤ tabGet 0 s.time.missed q.val → Completes (.strobeMissing q) s fun t =>
      tabGet false t.time.needHard q.val = true ∧ tabGet 0 t.time.missed q.val = 0 ∧ raised 49 7 q.val s t) ∧
    ((domainOf s d.val).source = 1 → present = true → inRangeI rate (-51200000) 51200000 = true → Completes (.refclkWindow d present rate) s fun t =>
      (domainOf t d.val).holdover = false ∧ (domainOf t d.val).lastGood = rate ∧ ((domainOf s d.val).holdover = true → logged 0x0B03 t)) ∧
    ((domainOf s d.val).source = 1 → (present && inRangeI rate (-51200000) 51200000) = false → (domainOf s d.val).holdover = false →
      Completes (.refclkWindow d present rate) s fun t =>
        (domainOf t d.val).holdover = true ∧ (domainOf t d.val).lastGood = (domainOf s d.val).lastGood ∧ raised 48 15 d.val s t ∧ logged 0x0B02 t) ∧
    (s.time.switch.phase = .restoring → Completes .profileRelockTimeout s fun t =>
      t.time.switch.phase = .stuck ∧ s.time.switch.timedOut + 100 * tUs ≤ t.now ∧
      raisedAll [(48, 15, 0), (48, 15, 1), (48, 15, 2), (48, 15, 3)] s t) ∧
    (s.time.switch.phase = .stuck → Completes .pllRelockRetry s fun t =>
      t.time.switch.phase = .stuck ∧ t.time.switch.locked = [] ∧ s.time.switch.lastTry + 10 * tMs ≤ t.now)) ∧
  (∀ (q : Quad) (d : Domain') (w : Slew) (id : Nat) (r : Running) (s : State),
    ((domainOf s d.val).slew = some w → Completes (.slewEnd d) s fun t =>
      domainOf t d.val = { domainOf s d.val with slew := none } ∧ w.began + w.durationUs * tUs ≤ t.now) ∧
    (s.time.switch.phase = .relocking → q.val ∉ s.time.switch.locked → s.time.switch.locked.length = 3 → Completes (.pllLockReport q) s fun t =>
      t.time.switch.phase = .locked) ∧
    (s.time.switch.phase = .relocking → q.val ∉ s.time.switch.locked → s.time.switch.locked.length < 3 → Completes (.pllLockReport q) s fun t =>
      t.time.switch.phase = .relocking ∧ q.val ∈ t.time.switch.locked) ∧
    (s.time.switch.run = some id → s.host.running.find? (fun x => x.id == id) = some r →
      (s.time.switch.phase = .converging → Completes .profileSwitchDone s fun t => t.time.switch = {} ∧ logged 0x0201 t ∧
        ∃ e, t.host.ended = s.host.ended ++ [e] ∧ e.slot = r.slot ∧ e.tag = r.tag ∧ e.status = .ok) ∧
      (s.time.switch.phase = .staged ∨ s.time.switch.phase = .relocking → Completes .profileSwitchTimeout s fun t =>
        t.time.switch.phase = .restoring ∧ t.time.switch.run = none ∧ s.time.switch.began + 100 * tUs ≤ t.now ∧
        ∃ e, t.host.ended = s.host.ended ++ [e] ∧ e.slot = r.slot ∧ e.tag = r.tag ∧ e.status = .timeout)))

/-- The time pins: a captured edge leaves its record and counts, a pulse drives the pin and its end releases it (R53 to R55). TWOSTEP_READ
and CAPTURE_READ answer the oldest records, as many as asked for and held, and remove exactly those (R52, R54, R512). An uncorrectable time
store: a firing entry stops until its reload, which restarts it and skips what it missed; a replica's copy is taken from the master; the
master corrects and counts (R66). -/
def Obligations.TimePinsFifosAndStores : Prop :=
  (∀ (p : Fin 4) (o : Fin 10) (d : Domain') (i : Fin 512) (rising : Bool) (err : Int) (s : State),
    (bit (pinOf s p.val).flags 0 = true → bit (pinOf s p.val).flags 2 = true → bit (pinOf s p.val).flags 3 = true →
      inRangeI err (-65536) 65536 = true → (pinOf s p.val).captures.length < 16 → Completes (.pinEdgeCapture p rising false err) s fun t =>
        (pinOf t p.val).edges = ((pinOf s p.val).edges + 1) % 65536 ∧
        ∃ x, x.length = 24 ∧ (pinOf t p.val).captures = (pinOf s p.val).captures ++ [x]) ∧
    (bit (pinOf s p.val).flags 0 = true → bit (pinOf s p.val).flags 2 = true → bit (pinOf s p.val).flags 3 = true →
      inRangeI err (-65536) 65536 = true → 16 ≤ (pinOf s p.val).captures.length → Completes (.pinEdgeCapture p rising false err) s fun t =>
        (pinOf t p.val).overflow = (pinOf s p.val).overflow + 1 ∧ (pinOf t p.val).captures = (pinOf s p.val).captures) ∧
    (firesNext s 0 d.val i.val 4 = true → entryTarget (entryOf s d.val i.val) = o.val → bit (pinOf s o.val).flags 0 = true →
      Completes (.pinPulse d i) s fun t =>
        (pinOf t o.val).active = true ∧ (pinOf t o.val).pulseEnd = s.now + entryArgument (entryOf s d.val i.val) * 35 ∧
        t.out.head? = some (.pin o.val (!bit (pinOf s o.val).flags 1)) ∧
        (entryOf t d.val i.val).fires = ((entryOf s d.val i.val).fires + 1) % 2 ^ 32) ∧
    ((pinOf s o.val).active = true → Completes (.pinPulseEnd o) s fun t =>
      (pinOf t o.val).active = false ∧ t.out.head? = some (.pin o.val (bit (pinOf s o.val).flags 1)) ∧ (pinOf s o.val).pulseEnd ≤ t.now)) ∧
  (∀ (c : Cmd) (s : State),
    (passes opTwostepRead c s = true → Completes (.twostepRead c) s fun t =>
      let q := u8 (given c s) 0
      let l := (tabGet {} s.time.twoStep q).records
      let n := min (u16 (given c s) 2) l.length
      answered opTwostepRead c .ok (toLe 2 n ++ toLe 2 (l.length - n)) (l.take n).flatten s t ∧
        (tabGet {} t.time.twoStep q).records = l.drop n ∧ ∀ k, k ≠ q → tabGet {} t.time.twoStep k = tabGet {} s.time.twoStep k) ∧
    (passes opCaptureRead c s = true → Completes (.captureRead c) s fun t =>
      let p := u8 (given c s) 0
      let l := (pinOf s p).captures
      let n := min (u16 (given c s) 2) l.length
      answered opCaptureRead c .ok (toLe 2 n ++ toLe 2 (l.length - n)) (l.take n).flatten s t ∧
        (pinOf t p).captures = l.drop n ∧ ∀ k, k ≠ p → pinOf t k = pinOf s k)) ∧
  (∀ (d : Domain') (hit : Fin 5) (i : Fin 512) (s : State),
    (hit.val = 0 → Completes (.timeStore d hit i) s fun t =>
      entryOf t d.val i.val = { entryOf s d.val i.val with faulted := true } ∧ raised 50 15 d.val s t) ∧
    (hit.val = 4 → Completes (.timeStore d hit i) s fun t => t.time.corrected = s.time.corrected + 1 ∧ t.flt = s.flt) ∧
    (hit.val = 1 ∨ hit.val = 2 ∨ hit.val = 3 → Completes (.timeStore d hit i) s fun t =>
      copyOf t hit.val d.val = copyOf s 0 d.val ∧ raised 50 15 d.val s t) ∧
    ((entryOf s d.val i.val).faulted = true → Completes (.timeStoreReload d i) s fun t =>
      (entryOf t d.val i.val).faulted = false ∧ (entryOf t d.val i.val).obj = (entryOf s d.val i.val).obj ∧
      (entryOf t d.val i.val).enabled = (entryOf s d.val i.val).enabled ∧ (entryOf t d.val i.val).fires = (entryOf s d.val i.val).fires))

/-! ### Lanes -/

/-- Lane objects, lane status, eye status and eye results as they stand; the voltage step of an eye is open to the device and free here
(R70, R84, R94, R96, R512, R513; assumption 20). Lane objects read back as written and leave every other lane's alone; a scan starts with
its request and no points, and an abort ends it (R70, R71, R84, R91, R92). -/
def Obligations.LaneObjectsReadAndWrite : Prop :=
  (∀ (c : Cmd) (s : State),
    Reads opLaneConfigRead c (.laneConfigRead c) s (laneConfig s (u16 (given c s) 0)) ∧
    Reads opLaneStatus c (.laneStatus c) s (laneStatusObj s (u16 (given c s) 0)) ∧
    Reads opLaneTestRead c (.laneTestRead c) s (laneTestOwn s (u16 (given c s) 0)) ∧
    (passes opEyeResult c s = true → Completes (.eyeResult c) s fun t =>
      let pts := ((laneOf s (u16 (given c s) 0)).scan.points.drop (512 * u32 (given c s) 4)).take 512
      answered opEyeResult c .ok (toLe 2 pts.length) (pts.flatMap fun x => toLe 4 x.1 ++ toLe 4 x.2) s t ∧ t.lane = s.lane) ∧
    (passes opEyeStatus c s = true → Completes (.eyeStatus c) s fun t => ∃ step ui,
      let v := (laneOf s (u16 (given c s) 0)).scan
      let g := if v.status = .idle then (0, 0) else scanGrid v.request
      answered opEyeStatus c .ok [] (image 24 [(0, 2, u16 (given c s) 0), (2, 1, scanCode v.status), (3, 1, v.flags), (4, 2, v.points.length),
        (6, 2, g.1), (8, 2, g.2), (12, 4, step), (16, 4, ui)]) s t ∧ t.lane = s.lane)) ∧
  (∀ (c : Cmd) (s : State),
    Writes opLaneConfigWrite c (.laneConfigWrite c) s (fun t =>
      laneConfig t (u16 (given c s) 0) = given c s ∧ ∀ l, l ≠ u16 (given c s) 0 → laneConfig t l = laneConfig s l) ∧
    Writes opLaneTestWrite c (.laneTestWrite c) s (fun t =>
      laneTestOwn t (u16 (given c s) 0) = given c s ∧ ∀ l, l ≠ u16 (given c s) 0 → laneTestOwn t l = laneTestOwn s l) ∧
    (scanPoints (given c s) ≤ 4096 → Writes opEyeScan c (.eyeScan c) s fun t =>
      (laneOf t (u16 (given c s) 0)).scan.status = .running ∧ (laneOf t (u16 (given c s) 0)).scan.request = given c s ∧
      (laneOf t (u16 (given c s) 0)).scan.points = []) ∧
    ((laneOf s (u16 (given c s) 0)).scan.status = .running → Writes opEyeScanAbort c (.eyeScanAbort c) s fun t =>
      (laneOf t (u16 (given c s) 0)).scan.status = .aborted ∧
      (laneOf t (u16 (given c s) 0)).scan.points = (laneOf s (u16 (given c s) 0)).scan.points))

/-- Bring-up goes forward: each success within its step's limit takes the port to the next state (R75 to R77, R79). Bring-up fails: each
step's timeout or loss ends the attempt with its cause (R76 to R79). -/
def Obligations.BringUpAdvancesOrFails : Prop :=
  (∀ (p : Port) (taps : List Bytes) (s : State),
    (configured s p.val = true → (linkOf s p.val).phase = .rxDetect → Completes (.signalDetected p) s fun t =>
      (linkOf t p.val).phase = afterDetect s p.val ∧ (linkOf s p.val).since + tMs ≤ t.now ∧
      ∀ l ∈ lanesOf s p.val, (laneOf t l).signal = true) ∧
    ((linkOf s p.val).phase = .autoneg → s.now ≤ (linkOf s p.val).since + 3 * tSec → Completes (.autonegResolved p true) s fun t =>
      (linkOf t p.val).phase = .training ∧ (linkOf t p.val).since = s.now) ∧
    ((linkOf s p.val).phase = .training → s.now ≤ (linkOf s p.val).since + trainingLimit s p.val → Completes (.trainingDone p taps) s fun t =>
      (linkOf t p.val).phase = .lock ∧ (linkOf t p.val).since = s.now) ∧
    ((linkOf s p.val).phase = .lock → s.now ≤ (linkOf s p.val).since + 10 * tMs → Completes (.lockAcquired p) s fun t =>
      (linkOf t p.val).phase = .align ∧ ∀ l ∈ lanesOf s p.val, (laneOf t l).cdrLock = true ∧ (laneOf t l).symbolLock = true) ∧
    ((linkOf s p.val).phase = .reacquireLock → s.now ≤ (linkOf s p.val).since + 50 * tUs → (laneGroup s (p.val / 16)).pllLost = false →
      Completes (.lockAcquired p) s fun t => (linkOf t p.val).phase = .reacquireAlign) ∧
    ((linkOf s p.val).phase = .align → s.now ≤ (linkOf s p.val).since + 5 * tMs → Completes (.linkUp p) s fun t =>
      (linkOf t p.val).phase = .active ∧ (linkOf t p.val).inRow = 0 ∧ tabFind t.sw.hold p.val = none ∧
      ∀ l ∈ lanesOf s p.val, (laneOf t l).blockLock = true ∧ (laneOf t l).snapshot = (laneOf s l).coeff) ∧
    ((linkOf s p.val).phase = .reacquireAlign → s.now ≤ (linkOf s p.val).since + 50 * tUs → Completes (.reacquireDone p) s fun t =>
      (linkOf t p.val).phase = .active ∧ (linkOf t p.val).inRow = 0 ∧ tabFind t.sw.hold p.val = none) ∧
    ((linkOf s p.val).phase = .backoff → (linkOf s p.val).refclkWait = false → Completes (.backoffExpired p) s fun t =>
      (linkOf t p.val).phase = .rxDetect ∧ (linkOf s p.val).since + (linkOf s p.val).waitMs * tMs ≤ t.now) ∧
    ((linkOf s p.val).phase = .active → Completes (.backoffReset p) s fun t =>
      (linkOf t p.val).backoffMs = laneBackoffMin s p.val ∧ (linkOf t p.val).phase = .active)) ∧
  (∀ (p : Port) (l : Lane) (skewNs : Nat) (s : State),
    ((linkOf s p.val).phase = .autoneg → Completes (.anTimeout p) s fun t => attemptFailed p.val 1 s t) ∧
    ((linkOf s p.val).phase = .autoneg → s.now ≤ (linkOf s p.val).since + 3 * tSec → Completes (.autonegResolved p false) s fun t =>
      attemptFailed p.val 2 s t) ∧
    (l.val ∈ lanesOf s p.val →
      ((linkOf s p.val).phase = .training → Completes (.trainingTimeout p l) s fun t => attemptFailed p.val 3 s t) ∧
      ((linkOf s p.val).phase = .lock → Completes (.lockTimeout p l) s fun t => attemptFailed p.val 5 s t) ∧
      ((linkOf s p.val).phase = .align → Completes (.alignTimeout p l skewNs) s fun t => attemptFailed p.val 6 s t) ∧
      ((laneGroup s (p.val / 16)).pllLost = false →
        ((linkOf s p.val).phase = .reacquireLock → Completes (.reacquireTimeout p l) s fun t => attemptFailed p.val 5 s t) ∧
        ((linkOf s p.val).phase = .reacquireAlign → Completes (.reacquireTimeout p l) s fun t => attemptFailed p.val 6 s t))) ∧
    (portOfLane s l.val = some p.val → lossFails p.val l.val (linkOf s p.val).phase = true → Completes (.signalLost l) s fun t =>
      attemptFailed p.val 7 s t ∧ (laneOf t l.val).signal = false) ∧
    (portOfLane s l.val = some p.val → portActive s p.val = true → ∀ (kind : Fin 4) (all : Bool),
      ((all && kind.val != 0) = true → (linkOf s p.val).since + 10 * tMs ≤ s.now → Completes (.linkDown l kind all) s fun t =>
        (linkOf t p.val).phase = .reacquireLock) ∧
      (¬ ((all && kind.val != 0) = true ∧ (linkOf s p.val).since + 10 * tMs ≤ s.now) → Completes (.linkDown l kind all) s fun t =>
        attemptEnded p.val (if kind.val = 0 then 7 else 8) s t)))

/-- Partner violations, lost locks and breaks of signal during acquisition are counted or restart their count (R76, R78). Block and marker
lock, FEC decoding and the degrade window (R80 to R82, R100). -/
def Obligations.LanesAcquireAndAlign : Prop :=
  (∀ (p : Port) (l : Lane) (control : BitVec 16) (n : Nat) (s : State),
    ((linkOf s p.val).phase = .autoneg → Completes (.anPageViolation p) s fun t => counted cPartnerViolations p.val 1 s t ∧ t.lane = s.lane) ∧
    (portOfLane s l.val = none → Completes (.signalBreak l) s fun t => (laneOf t l.val).signal = false) ∧
    (portOfLane s l.val = some p.val → (linkOf s p.val).phase = .rxDetect → l.val ∈ detectLanes s p.val → Completes (.signalBreak l) s fun t =>
      (linkOf t p.val).since = s.now ∧ (linkOf t p.val).phase = .rxDetect) ∧
    (portOfLane s l.val = some p.val → (linkOf s p.val).phase = .lock → Completes (.cdrLockLost l) s fun t =>
      (laneOf t l.val).cdrLock = false ∧ (laneOf t l.val).symbolLock = false ∧ counted cCdrLosses l.val 1 s t ∧
      (linkOf t p.val).phase = .lock) ∧
    (portOfLane s l.val = some p.val → (linkOf s p.val).phase = .training → trainsWithPartner s p.val = true →
      (((laneOf s l.val).malformed.filter fun k => n < k + 1000).length < 7 → Completes (.trainingFrameMalformed l control n) s fun t =>
        counted cPartnerViolations l.val 1 s t ∧ (laneOf t l.val).malformed = n :: (laneOf s l.val).malformed.filter fun k => n < k + 1000) ∧
      (7 ≤ ((laneOf s l.val).malformed.filter fun k => n < k + 1000).length → Completes (.trainingFrameMalformed l control n) s fun t =>
        attemptFailed p.val 4 s t ∧ logged 0x0304 t))) ∧
  (∀ (l : Lane) (errors : Nat) (s : State),
    (aligning s l.val = true → laneFec s l.val < 2 →
      ((laneOf s l.val).blockLock = false → Completes (.syncHeaderReceived l true) s fun t =>
        (laneOf t l.val).goodHeaders = (laneOf s l.val).goodHeaders + 1 ∧
        (laneOf t l.val).blockLock = decide (64 ≤ (laneOf s l.val).goodHeaders + 1)) ∧
      ((laneOf s l.val).blockLock = false → Completes (.syncHeaderReceived l false) s fun t =>
        (laneOf t l.val).goodHeaders = 0 ∧ (laneOf t l.val).slips = (laneOf s l.val).slips + 1 ∧ counted cBlockSlips l.val 1 s t) ∧
      ((laneOf s l.val).blockLock = true →
        15 ≤ ((laneOf s l.val).badHeaders.filter fun k => (laneOf s l.val).headerNo + 1 < k + 64).length →
        Completes (.syncHeaderReceived l false) s fun t => (laneOf t l.val).blockLock = false ∧ counted cBlockLosses l.val 1 s t)) ∧
    (aligning s l.val = true → 2 ≤ laneFec s l.val →
      ((laneOf s l.val).blockLock = false → Completes (.alignmentMarkerReceived l true) s fun t =>
        (laneOf t l.val).markerHits = (laneOf s l.val).markerHits + 1 ∧
        (laneOf t l.val).blockLock = decide (2 ≤ (laneOf s l.val).markerHits + 1)) ∧
      ((laneOf s l.val).blockLock = false → Completes (.alignmentMarkerReceived l false) s fun t =>
        (laneOf t l.val).markerHits = 0 ∧ counted cMarkerSlips l.val 1 s t) ∧
      ((laneOf s l.val).blockLock = true → 3 ≤ (laneOf s l.val).markerMisses → Completes (.alignmentMarkerReceived l false) s fun t =>
        (laneOf t l.val).blockLock = false ∧ counted cMarkerLosses l.val 1 s t) ∧
      (errors ≤ fecLimit (laneFec s l.val) → Completes (.fecCodewordDecoded l errors) s fun t =>
        (laneOf t l.val).windowSymbols = (laneOf s l.val).windowSymbols + errors ∧ counted cFecSymbols l.val errors s t) ∧
      (fecLimit (laneFec s l.val) < errors → Completes (.fecCodewordDecoded l errors) s fun t =>
        counted (cFecBin 16) l.val 1 s t ∧ t.lane = s.lane)) ∧
    (Completes (.degradeWindowEnd l) s fun t =>
      (laneOf t l.val).lastWindow = (laneOf s l.val).windowSymbols ∧ (laneOf t l.val).windowSymbols = 0 ∧
      (laneOf t l.val).degradedRun =
        (if laneDegrade s l.val ≠ 0 ∧ laneDegrade s l.val < (laneOf s l.val).windowSymbols then (laneOf s l.val).degradedRun + 1 else 0) ∧
      (3 ≤ (laneOf t l.val).degradedRun → raised 4 3 l.val s t ∧ logged 0x0309 t) ∧
      ((laneOf t l.val).degradedRun < 3 → t.flt = s.flt)))

/-- The far-end loopback's elastic buffer, the pattern checker, error injection and the points of an eye scan (R73, R86, R89, R91 to R93). A
lane die's reference (R74): lost, it raises bit 0 and starts the holdover; back in time, the holdover ends; after 1 ms the die's lanes are
squelched; restored, its waiting ports restart. Lane faults (R95, R97): the fourth failed replay retrains the bundle, a lost PLL takes its
ports from ACTIVE into REACQUIRE, and so does a reload of the die's store; adaptation that fails goes back to the snapshot. -/
def Obligations.LaneTestsLossesAndFaults : Prop :=
  (∀ (p : Port) (l : Lane) (good compared errors : Nat) (sym : Bool) (s : State),
    (configured s p.val = true → testLoopback (laneTest s p.val) = 3 → (laneOf s p.val).elastic < 32 →
      Completes (.farEndLoopbackBlock p true false false) s fun t => (laneOf t p.val).elastic = (laneOf s p.val).elastic + 1) ∧
    (configured s p.val = true → testLoopback (laneTest s p.val) = 3 → (laneOf s p.val).elastic = 0 →
      Completes (.farEndLoopbackBlock p false true false) s fun t =>
        (laneOf t p.val).elastic = 0 ∧ counted cElasticSlips p.val 1 s t) ∧
    (testChk (laneTest s l.val) = true → (laneOf s l.val).chkLocked = true → Completes (.patternBitsChecked l good false sym) s fun t =>
      counted cChkBits l.val good s t ∧ (laneOf t l.val).chkLocked = true) ∧
    (testChk (laneTest s l.val) = true → (laneOf s l.val).chkLocked = false → 1024 ≤ (laneOf s l.val).chkRun + good →
      Completes (.patternBitsChecked l good false sym) s fun t =>
        (laneOf t l.val).chkLocked = true ∧ counted cChkBits l.val ((laneOf s l.val).chkRun + good - 1024) s t) ∧
    (testChk (laneTest s l.val) = true → (laneOf s l.val).chkLocked = false → (laneOf s l.val).chkRun + good < 1024 →
      Completes (.patternBitsChecked l good false sym) s fun t =>
        (laneOf t l.val).chkLocked = false ∧ (laneOf t l.val).chkRun = (laneOf s l.val).chkRun + good) ∧
    (testChk (laneTest s l.val) = true → (laneOf s l.val).chkLocked = true → Completes (.patternBitsChecked l 0 true sym) s fun t =>
      counted cChkBitErrors l.val 1 s t) ∧
    (u8 (laneTestOwn s ((portOfLane s l.val).getD l.val)) 7 ≠ 0 → Completes (.errorInjectionEvent l) s fun t =>
      counted cInjEvents l.val 1 s t ∧
      (bit (u8 (laneTestOwn s ((portOfLane s l.val).getD l.val)) 5) 4 = true →
        laneTestOwn t ((portOfLane s l.val).getD l.val) = putField (laneTestOwn s ((portOfLane s l.val).getD l.val)) 7 1 0)) ∧
    ((laneOf s l.val).scan.status = .running → compared = 2 ^ (u8 (laneOf s l.val).scan.request 8 - 10) → Completes (.eyePointDone l compared errors) s fun t =>
      (laneOf t l.val).scan.points = (laneOf s l.val).scan.points ++ [(compared, min errors 0xFFFFFFFF)] ∧
      (laneOf t l.val).scan.status =
        if scanPoints (laneOf s l.val).scan.request ≤ (laneOf s l.val).scan.points.length + 1 then .done else .running)) ∧
  (∀ (k : LaneDie) (s : State),
    ((laneDieSt s k.val).lostAt = none → Completes (.laneRefclkLost k) s fun t =>
      (laneDieSt t k.val).lostAt = some s.now ∧ raised 0 1 k.val s t ∧ logged 0x0306 t) ∧
    (∀ a, (laneDieSt s k.val).lostAt = some a → (laneDieSt s k.val).squelched = false →
      (s.now ≤ a + tMs → Completes (.laneRefclkRelock k) s fun t => (laneDieSt t k.val).lostAt = none ∧ a + 100 * tUs ≤ t.now) ∧
      Completes (.laneRefclkHoldoverEnd k) s fun t => (laneDieSt t k.val).squelched = true ∧ a + tMs ≤ t.now) ∧
    ((laneDieSt s k.val).squelched = true → Completes (.laneRefclkRestored k) s fun t =>
      (laneDieSt t k.val).squelched = false ∧ (laneDieSt t k.val).lostAt = none ∧
      ∀ p ∈ portsAmong s (128 * k.val) 128, (linkOf s p).refclkWait = true → (linkOf t p).phase = .rxDetect)) ∧
  (∀ (g : Pipe) (l : Lane) (k : LaneDie) (s : State),
    ((laneGroup s g.val).retraining = false →
      (((laneGroup s g.val).failedReplays.filter fun t => s.now < t + tUs).length < 3 → Completes (.d2dDoubleBitError g false) s fun t =>
        (laneGroup t g.val).retraining = false ∧ t.flt = s.flt) ∧
      (3 ≤ ((laneGroup s g.val).failedReplays.filter fun t => s.now < t + tUs).length → Completes (.d2dDoubleBitError g false) s fun t =>
        (laneGroup t g.val).retraining = true ∧ raised 2 2 g.val s t ∧ logged 0x0308 t)) ∧
    (Completes (.d2dRetrainDone g) s fun t => (laneGroup t g.val).retraining = false) ∧
    ((laneGroup s g.val).pllLost = false → Completes (.lanePll g) s fun t =>
      (laneGroup t g.val).pllLost = true ∧ ∀ p ∈ portsAmong s (16 * g.val) 16, (linkOf s p).phase = .active → (linkOf t p).phase = .reacquireLock) ∧
    ((laneGroup s g.val).pllLost = true → Completes (.lanePllRelock g) s fun t =>
      (laneGroup t g.val).pllLost = false ∧ ∀ p ∈ portsAmong s (16 * g.val) 16, (linkOf s p).phase = .reacquireAlign → (linkOf t p).phase = .reacquireLock) ∧
    (Completes (.laneAdapt l) s fun t =>
      (laneOf t l.val).coeff = (laneOf s l.val).snapshot ∧ raised 3 3 l.val s t ∧ logged 0x030A t) ∧
    (Completes (.laneStore k) s fun t => (laneDieSt t k.val).reloading = true ∧ raised 5 1 k.val s t) ∧
    ((laneDieSt s k.val).reloading = true → Completes (.laneStoreReload k) s fun t =>
      (laneDieSt t k.val).reloading = false ∧ ∀ p ∈ portsAmong s (128 * k.val) 128, (linkOf s p).phase = .active → (linkOf t p).phase = .reacquireLock))

/-! ### Ports and MAC -/

/-- Port, flow-control, preemption and filter objects and PORT_STATUS as they stand; a filter's pattern reads zero (R101, R106, R111, R118,
R121). Port objects read back as written; a port is made, changed or removed with its event; filters reach every pipeline named and no other
(R101, R102, R106, R109, R111, R118). -/
def Obligations.MacObjectsReadAndWrite : Prop :=
  (∀ (c : Cmd) (s : State),
    Reads opPortConfigRead c (.portConfigRead c) s (portConfig s (u16 (given c s) 0)) ∧
    Reads opPortFlowRead c (.portFlowRead c) s (portFlow s (u16 (given c s) 0)) ∧
    Reads opPortPreemptRead c (.portPreemptRead c) s (portPreempt s (u16 (given c s) 0)) ∧
    Reads opFrameFilterRead c (.frameFilterRead c) s
      (slice (putField (filterOf s (u64 (given c s) 8).log2 (u8 (given c s) 0)) 8 8 (u64 (given c s) 8)) 0 96) ∧
    (passes opPortStatus c s = true → Completes (.portStatus c) s fun t => ∃ reply rx tx, answered opPortStatus c .ok [] reply s t ∧
      reply = image 16 [(0, 2, u16 (given c s) 0), (2, 1, linkCode s (u16 (given c s) 0)), (3, 1, rx),
        (4, 1, (macPort s (u16 (given c s) 0)).xoff), (5, 1, tx),
        (6, 1, match (macPort s (u16 (given c s) 0)).preemptPhase with | .off => 0 | .verifying => 1 | .active => 2 | .failed => 3),
        (8, 4, holdLeft s (u16 (given c s) 0))])) ∧
  (∀ (c : Cmd) (s : State),
    (u8 (given c s) 2 ≠ 0 → portConfigRefused s (given c s) = none → Writes opPortConfigWrite c (.portConfigWrite c) s fun t =>
      portConfig t (u16 (given c s) 0) = given c s ∧ logged 0x0401 t ∧
      (bit (u8 (given c s) 4) 0 = true → portEnabled s (u16 (given c s) 0) = false →
        (laneDieSt s (u16 (given c s) 0 / 128)).squelched = false → (linkOf t (u16 (given c s) 0)).phase = .rxDetect)) ∧
    (u8 (given c s) 2 = 0 → configured s (u16 (given c s) 0) = true → portEnabled s (u16 (given c s) 0) = false →
      portIsTarget s (u16 (given c s) 0) = false → Writes opPortConfigWrite c (.portConfigWrite c) s fun t =>
        configured t (u16 (given c s) 0) = false ∧ logged 0x0401 t) ∧
    Writes opPortFlowWrite c (.portFlowWrite c) s (fun t =>
      portFlow t (u16 (given c s) 0) = given c s ∧ ∀ p, p ≠ u16 (given c s) 0 → macPort t p = macPort s p) ∧
    Writes opPortPreemptWrite c (.portPreemptWrite c) s (fun t =>
      portPreempt t (u16 (given c s) 0) = given c s ∧ (∀ p, p ≠ u16 (given c s) 0 → macPort t p = macPort s p) ∧
      (bit (u8 (given c s) 2) 0 = false → (macPort t (u16 (given c s) 0)).preemptPhase = .off) ∧
      (bit (u8 (given c s) 2) 0 = true → bit (u8 (given c s) 2) 1 = true → (macPort t (u16 (given c s) 0)).preemptPhase = .active)) ∧
    Writes opFrameFilterWrite c (.frameFilterWrite c) s (fun t =>
      (∀ g, g < 64 → bit (u64 (given c s) 8) g = true →
        filterOf t g (u8 (given c s) 0) =
          putField (putField ((given c s).take 32) 8 8 0) 22 2 (filterCrc (u64 (given c s) 24) ((given c s).drop 32))) ∧
      (∀ g, bit (u64 (given c s) 8) g = false → macPipe t g = macPipe s g)))

/-- A frame's first 64 bytes (R103): a PCS error or a runt is dropped and counted; a MAC control frame keeps arriving; a frame no filter
takes and that fits waits in the FIFO with max_frame bytes reserved; on a port in far-end loopback a frame goes no further. A frame ends, is
cut short, or arrives in fragments: the port no longer receives it; an accepted PAUSE loads every class's timer; a first fragment under 64
bytes is kept for reassembly and an assembly error drops what there is (R104, R105, R112, R115). -/
def Obligations.FramesAreReceived : Prop :=
  (∀ (p : Port) (b : Bytes) (mark : Bool) (back : Nat) (err : Int) (s : State),
    portActive s p.val = true → b ≠ [] → b.length ≤ 64 → (macPort s p.val).rx = none → inRangeI err (-98304) 98304 = true →
    (macPipe s (p.val / 16)).reloading = false →
    (farEnd s p.val = true → mark = false → b.length = 64 → Completes (.rxFrameHead p b mark back err) s fun t =>
      (macPort t p.val).rx = some s.fr.next ∧ (frameOf t s.fr.next).place = .spent ∧ t.tel = s.tel ∧ t.sw = s.sw) ∧
    (farEnd s p.val = false →
    (mark = true → Completes (.rxFrameHead p b mark back err) s fun t =>
      (macPort t p.val).rx = none ∧ counted (cSwcDrops 4) (p.val / 256) 1 s t) ∧
    (mark = false → b.length < 64 → Completes (.rxFrameHead p b mark back err) s fun t =>
      (macPort t p.val).rx = none ∧ counted (cSwcDrops 1) (p.val / 256) 1 s t) ∧
    (mark = false → b.length = 64 → fieldBe b 12 2 = 0x8808 → Completes (.rxFrameHead p b mark back err) s fun t =>
      (macPort t p.val).rx = some s.fr.next ∧ (frameOf t s.fr.next).place = .control ∧ (frameOf t s.fr.next).data = b ∧
      (frameOf t s.fr.next).port = p.val ∧ t.fr.next = s.fr.next + 1) ∧
    (mark = false → b.length = 64 → fieldBe b 12 2 ≠ 0x8808 → matchingFilter s p.val b = none → framesAt s (p.val / 16) .hold = [] →
      pipeClosed s (p.val / 16) = false → portMaxFrame s p.val ≤ 65536 - fifoUsed s (p.val / 16) →
      Completes (.rxFrameHead p b mark back err) s fun t =>
        (macPort t p.val).rx = some s.fr.next ∧ (frameOf t s.fr.next).place = .fifo ∧ (frameOf t s.fr.next).data = b ∧
        (frameOf t s.fr.next).port = p.val ∧ (frameOf t s.fr.next).resv = portMaxFrame s p.val ∧ t.fr.next = s.fr.next + 1))) ∧
  (∀ (p : Port) (u : Nat) (b : Bytes) (s : State),
    ((macPort s p.val).rx = some u →
      ((frameOf s u).place ≠ .control → (frameOf s u).data.length + b.length ≤ (frameOf s u).maxFrame → Completes (.rxFrameEnd p b) s fun t =>
        (macPort t p.val).rx = none) ∧
      ((frameOf s u).place ≠ .control → (frameOf s u).maxFrame < (frameOf s u).data.length + b.length → Completes (.rxOversize p b) s fun t =>
        (macPort t p.val).rx = none) ∧
      (Completes (.rxPcsErrorMark p) s fun t => (macPort t p.val).rx = none) ∧
      ((frameOf s u).place = .control → fcsGood ((frameOf s u).data ++ b) = true → ((frameOf s u).data ++ b).length ≤ 128 →
        fieldBe ((frameOf s u).data ++ b) 14 2 = 1 → flowMode s p.val = 1 → (∀ c, inRecovery s p.val c = false) →
        0 < quantaTime (portMbps s p.val) (fieldBe ((frameOf s u).data ++ b) 16 2) → Completes (.macControlFrame p b) s fun t =>
          (macPort t p.val).rx = none ∧ ∀ c, c < 8 →
            tabFind (macPort t p.val).timers c = some (s.now + quantaTime (portMbps s p.val) (fieldBe ((frameOf s u).data ++ b) 16 2))) ∧
      ((frameOf s u).place = .control → fcsGood ((frameOf s u).data ++ b) = false → Completes (.macControlFrame p b) s fun t =>
        (macPort t p.val).rx = none ∧ (macPort t p.val).timers = (macPort s p.val).timers ∧ counted (cSwcDrops 3) ((frameOf s u).port / 256) 1 s t)) ∧
    (portActive s p.val = true → (macPort s p.val).preemptPhase = .active →
      (∀ (back : Nat), (macPort s p.val).assembling = none → (macPort s p.val).assembled = none → b.length < 64 →
        Completes (.rxFragment p 0 true false b back 0) s fun t => (macPort t p.val).assembling = some b ∧ t.tel = s.tel) ∧
      (∀ (kind : Fin 4) (first last : Bool) (back : Nat), kind.val ≠ 0 → Completes (.rxFragment p kind first last b back 0) s fun t =>
        (macPort t p.val).assembling = none ∧ (macPort t p.val).assembled = none)))

/-- Flow control (R113 to R117): a report sets the occupancy and XOFF follows its thresholds, a refresh is sent while XOFF holds, and a
received pause ends with its timer. Preemption is verified in up to three tries; a response makes it active (R119). MAC faults (R122): a bad
FIFO word drops its frame, a bad store is reloaded, a PCS is reset and what it received is cut, and the used classes are held in XOFF until
the counts are rebuilt. -/
def Obligations.FlowControlPreemptionAndFaults : Prop :=
  (∀ (q : Quad) (p : Port) (c : Fin 8) (s : State),
    (configured s p.val = true → Completes (.occupancyReport q p) s fun t =>
      (∀ k, k < 8 → tabGet 0 (macPort t p.val).occupancy (8 * q.val + k) = trueOccupancy s q.val p.val k) ∧
      ((macPort s p.val).heldXoff = false → ∀ k ∈ usedClasses s p.val, bit (macPort t p.val).xoff k =
        if bit (macPort s p.val).xoff k then decide (u32 (portFlow s p.val) (48 + 4 * k) < flowOccupancy t p.val k)
        else decide (u32 (portFlow s p.val) (16 + 4 * k) ≤ flowOccupancy t p.val k))) ∧
    (portActive s p.val = true → farEnd s p.val = false → flowMode s p.val ≠ 0 →
      (∃ k ∈ usedClasses s p.val, bit (macPort s p.val).xoff k = true ∧ (tabFind (macPort s p.val).sentAt k).isSome = true) →
      Completes (.pauseRefresh p) s fun t => (∃ f, t.out = .transmit p.val f false :: s.out) ∧ (macPort t p.val).xoff = (macPort s p.val).xoff) ∧
    (∀ a, tabFind (macPort s p.val).timers c.val = some a → (tabFind (macPort s p.val).pausedSince c.val).isSome = true →
      Completes (.pauseTimerExpiry p c) s fun t =>
        tabFind (macPort t p.val).timers c.val = none ∧ tabFind (macPort t p.val).pausedSince c.val = none ∧ a ≤ t.now) ∧
    (∀ a b, tabFind (macPort s p.val).pausedSince c.val = some a → tabFind (macPort s p.val).timers c.val = some b →
      u16 (portFlow s p.val) 6 ≠ 0 → a + u16 (portFlow s p.val) 6 * tMs ≤ b → Completes (.pauseStorm p c) s fun t =>
        tabFind (macPort t p.val).recoverAt c.val = some (t.now + u16 (portFlow s p.val) 8 * tMs) ∧
        tabFind (macPort t p.val).timers c.val = none ∧ a + u16 (portFlow s p.val) 6 * tMs ≤ t.now ∧ logged 0x0402 t) ∧
    (∀ a, tabFind (macPort s p.val).recoverAt c.val = some a → Completes (.stormRecovered p c) s fun t =>
      tabFind (macPort t p.val).recoverAt c.val = none ∧ a ≤ t.now ∧ logged 0x0403 t)) ∧
  (∀ (p : Port) (s : State),
    (macPort s p.val).preemptPhase = .verifying →
    ((macPort s p.val).verifyTries < 3 → Completes (.preemptVerifyTimer p) s fun t =>
      t.out = .verify p.val :: s.out ∧ (macPort t p.val).verifyTries = (macPort s p.val).verifyTries + 1 ∧
      (macPort t p.val).preemptPhase = .verifying ∧ (macPort s p.val).verifyAt + u8 (portPreempt s p.val) 5 * tMs ≤ t.now) ∧
    (3 ≤ (macPort s p.val).verifyTries → Completes (.preemptVerifyTimer p) s fun t =>
      t.out = s.out ∧ (macPort t p.val).preemptPhase = .failed ∧ logged 0x0404 t) ∧
    (Completes (.preemptVerify p) s fun t => (macPort t p.val).preemptPhase = .active ∧ logged 0x0404 t)) ∧
  (∀ (g : Pipe) (p : Port) (u : Nat) (s : State),
    (u ∈ framesAt s g.val .fifo → (frameOf s u).source = 0 → Completes (.macFifo g u) s fun t =>
      tabFind t.fr.frames u = none ∧ (∀ d ∈ t.fr.deliveries, d.frame ≠ u) ∧ raisedLast 6 5 g.val t) ∧
    (Completes (.macStore g) s fun t => (macPipe t g.val).reloading = true ∧ raised 7 5 g.val s t ∧ logged 0x0406 t) ∧
    (Completes (.macReload g) s fun t => (macPipe t g.val).reloading = false ∧ (macPipe t g.val).filters = (macPipe s g.val).filters) ∧
    (configured s p.val = true → Completes (.pcsCheck p) s fun t =>
      (macPort t p.val).rx = none ∧ (macPort t p.val).assembled = none ∧ raisedLast 8 4 p.val t) ∧
    (configured s p.val = true → Completes (.macFlow p) s fun t =>
      (macPort t p.val).heldXoff = true ∧ (∀ c ∈ usedClasses s p.val, bit (macPort t p.val).xoff c = true) ∧ raised 9 4 p.val s t) ∧
    ((macPort s p.val).heldXoff = true → Completes (.flowResync p) s fun t =>
      (macPort t p.val).heldXoff = false ∧ (∀ k, k < 32 → tabGet 0 (macPort t p.val).occupancy k = trueOccupancy s (k / 8) p.val (k % 8)) ∧
      logged 0x0407 t))

/-! ### Parse graph -/

/-- The parser's malformed object reads as it stands, and a write reaches every pipeline named and no other (R138). A parse (R125, R135 to
R137): visits run until the frame waits for bytes, is accepted, or ends malformed; an accepted frame carries the parser's metadata and waits
for its first stage. Parser faults (R147): the frame concerned is dropped with PARSER_INTEGRITY and counted, a bad store is reloaded. -/
def Obligations.ParsesRunAndFault : Prop :=
  (∀ (c : Cmd) (s : State),
    Reads opParserMalformedRead c (.parserMalformedRead c) s
      (putField (malformedOf s (u64 (given c s) 0).log2) 0 8 (u64 (given c s) 0)) ∧
    (putField (given c s) 0 8 0 ≠ [] → Writes opParserMalformedWrite c (.parserMalformedWrite c) s fun t =>
      (∀ g, g < 64 → bit (u64 (given c s) 0) g = true → malformedOf t g = putField (given c s) 0 8 0) ∧
      ∀ g, bit (u64 (given c s) 0) g = false → malformedOf t g = malformedOf s g)) ∧
  (∀ (g : Pipe) (src : Fin 4) (u : Nat) (b : Bytes) (v w : Frame) (s : State),
    tabFind s.fr.frames u = some v → v.pipe = g.val →
    (nextToParse s g.val src.val = some u → (parserPipe s g.val).reloading = false → pipeFenced s g.val = false → pipeClosed s g.val = false →
      ((src.val ≠ 0 ∧ src.val ≠ 2) ∨ (framesAt s g.val .parked).length < 32) →
      let v1 := { v with cursor := 0, visits := 0, node := ((parserPipe s g.val).graph.start[src.val]?).getD 0, malformed := 0, present := 0,
                         reached := true, resv := if v.ended || v.place == .hold then 0 else v.maxFrame - v.data.length }
      (∀ x, visits (graphOf s v1) 33 v1 = (.accepted, x) → Completes (.parseStart g src) s fun t =>
        tabFind t.fr.frames u = some { x with malformed := 0, hdr := parseMetadata { x with malformed := 0 }, place := .parsed, graph := none } ∧
        counted cPrsAccepted g.val 1 s t ∧ counted (cPrsFrames src.val) g.val 1 s t) ∧
      (∀ x, visits (graphOf s v1) 33 v1 = (.waits, x) → Completes (.parseStart g src) s fun t =>
        tabFind t.fr.frames u = some { x with place := .parked } ∧ counted (cPrsFrames src.val) g.val 1 s t) ∧
      (∀ x cls, visits (graphOf s v1) 33 v1 = (.malformed cls, x) → x.pipe = g.val → 1 ≤ cls → cls ≤ 6 → u8 (malformedOf s g.val) (7 + cls) = 1 →
        Completes (.parseStart g src) s fun t => (frameOf t u).malformed = cls ∧ (frameOf t u).place = .parsed ∧
          counted (cPrsMalformed cls) g.val 1 s t)) ∧
    (v.place = .parked → (v.ended = true → b = []) → v.data.length + b.length ≤ max v.maxFrame v.data.length →
      (visits (graphOf s v) 33 { v with data := v.data ++ b, resv := v.resv - b.length } = (.accepted, w) → Completes (.parseResume u b) s fun t =>
        tabFind t.fr.frames u = some { w with malformed := 0, hdr := parseMetadata { w with malformed := 0 }, place := .parsed, graph := none } ∧
        counted cPrsAccepted g.val 1 s t) ∧
      (visits (graphOf s v) 33 { v with data := v.data ++ b, resv := v.resv - b.length } = (.waits, w) → Completes (.parseResume u b) s fun t =>
        tabFind t.fr.frames u = some { w with place := .parked }))) ∧
  (∀ (g : Pipe) (u : Nat) (s : State),
    (Completes (.prsStore g none) s fun t => (parserPipe t g.val).reloading = true ∧ raised 10 5 g.val s t ∧ logged 0x0520 t) ∧
    (Completes (.prsStore g (some u)) s fun t => (parserPipe t g.val).reloading = true ∧ raisedLast 10 5 g.val t ∧ logged 0x0520 t ∧
      (beingParsed s g.val u = true → counted (cSwcDrops 0x11) (g.val / 16) 1 s t)) ∧
    (u ∈ framesAt s g.val .parsed → Completes (.prsVector g u) s fun t => raisedLast 11 5 g.val t ∧
      counted (cSwcDrops 0x11) ((frameOf s u).pipe / 16) 1 s t) ∧
    (beingParsed s g.val u = true → (Completes (.prsHang g u) s fun t => raisedLast 12 5 g.val t ∧ counted (cSwcDrops 0x11) (g.val / 16) 1 s t) ∧
      Completes (.prsCheck g u) s fun t => raisedLast 13 5 g.val t ∧ counted (cSwcDrops 0x11) (g.val / 16) 1 s t) ∧
    (Completes (.parserReload g) s fun t => (parserPipe t g.val).reloading = false ∧ (parserPipe t g.val).graph = (parserPipe s g.val).graph))

/-! ### Match-action stages, action engines and decision trees -/

/-- A frame at a stage without forwarding lookups (R150, R160, R178): its tables are read and the routine they select is taken; at S0 it
takes the pipeline's epoch; out of the sequencer it goes to the next stage, out of S23 to its decision (R164, R192). -/
def Obligations.FramesPassTheStages : Prop := ∀ (u : Nat) (f : Frame) (s : State), tabFind s.fr.frames u = some f →
  (f.place = .stage → pipeStill s f.pipe = false → f.hostDue = false → (matPipe s f.pipe).retired = none →
    earlierFrame s u (fun e => atStage f.stage e && (e.place == .stage || e.place == .waiting)) = false →
    (matStage s f.pipe f.stage).poisoned = [] →
    (descValid (descOf (matStage s f.pipe f.stage) 7) = false ∨ descKind (descOf (matStage s f.pipe f.stage) 7) ≠ 2 ∧ descKind (descOf (matStage s f.pipe f.stage) 7) ≠ 3) →
    Completes (.stageLookup u) s fun t =>
      let v := matStage s f.pipe f.stage
      let rs := (List.range 8).map fun slot => slotLookup v slot (resultsAt s.tableProfile f.stage f)
      (frameOf t u).slots = rs.map Prod.fst ∧ (frameOf t u).routine = selectRoutine v rs ∧
        (frameOf t u).place = if selectRoutine v rs = 0 then .sequenced else .issue) ∧
  (f.place = .parsed → pipeStill s f.pipe = false → f.hostDue = false → (matPipe s f.pipe).retired = none →
    (matPipe s f.pipe).imageHeld = false → earlierFrame s u beforeStages = false → (matStage s f.pipe 0).descs = [] →
    Completes (.stageLookup u) s fun t =>
      (frameOf t u).stage = 0 ∧ (frameOf t u).epoch = (matPipe s f.pipe).epoch ∧ (frameOf t u).place = .sequenced ∧ (frameOf t u).routine = 0) ∧
  (f.place = .sequenced → earlierFrame s u (atStage f.stage) = false → Completes (.sequencerRelease u) s fun t =>
    (f.stage < 23 → (frameOf t u).place = .stage ∧ (frameOf t u).stage = f.stage + 1 ∧ (frameOf t u).routine = 0) ∧
    (23 ≤ f.stage → (frameOf t u).place = .decide))

/-- Thread contexts (R190, R195, R201, R203, R206, R207): a routine takes the lowest free context, executes its words, waits where its WAIT
word says, gets memory results and locks, and commits everything at once. Action-engine faults (R210 to R212, R218): a bad word is marked
and its routine abandoned with MACHINE_CHECK, a bad context or a wait of 4,096 clocks abandons the routine, a repaired word works again, and
a bad STATE row returns to its initial content. -/
def Obligations.RoutinesRunCommitAndFault : Prop :=
  (∀ (g : Pipe) (st : StageNo) (k : Fin 64) (tag : Fin 4) (n u : Nat) (f : Frame) (c : Ctx) (s : State),
    (tabFind s.fr.frames u = some f → f.place = .issue → pipeStill s f.pipe = false →
      (∀ j, freeCtx (matStage s f.pipe f.stage) = some j → Completes (.routineIssue u) s fun t =>
        ctxOf t f.pipe f.stage j = some { frame := u, pc := f.routine } ∧ (frameOf t u).place = .running) ∧
      (freeCtx (matStage s f.pipe f.stage) = none → Completes (.routineIssue u) s fun t =>
        counted (cAct 3 3) (32 * f.pipe + f.stage) 1 s t ∧ t.mat = s.mat)) ∧
    (ctxOf s g.val st.val k.val = some c →
      let v := matStage s g.val st.val
      let w := microOf v c.pc
      (c.phase = .running → fetchBad v c = none → bits w 0 2 = 2 → waitHolds s g.val st.val c (bits w 12 4) (bits w 16 2) = false →
        Completes (.microwordExecute g st k n) s fun t => ctxOf t g.val st.val k.val = some { c with phase := .waiting }) ∧
      (c.phase = .running → fetchBad v c = none → bits w 0 2 = 0 → tagFree v c = true → ∀ c1 s1,
        runNano g.val st.val k.val (bits w 2 10) (bits w 12 12) c (countAct 2 g.val st.val n s) = .ok (c1, s1) →
        Completes (.microwordExecute g st k n) s fun t => ctxOf t g.val st.val k.val = some { c1 with pc := c.pc + 1, phase := .running }) ∧
      (c.phase = .running → fetchBad v c = none → bits w 0 2 = 3 → tagFree v c = true → ∀ c1 s1,
        runNano g.val st.val k.val (bits w 2 10) (bits w 12 12) c (countAct 2 g.val st.val n s) = .ok (c1, s1) →
        Completes (.microwordExecute g st k n) s fun t => ctxOf t g.val st.val k.val = some { c1 with pc := c.pc, phase := .ending }) ∧
      (c.phase = .running → fetchBad v c = none → bits w 0 2 = 1 → tagFree v c = true → ∀ c1 s1,
        runNano g.val st.val k.val (bits w 2 10) 0 c (countAct 2 g.val st.val n s) = .ok (c1, s1) →
        Completes (.microwordExecute g st k n) s fun t => ctxOf t g.val st.val k.val = some { c1 with
          pc := if (branchHolds c (frameOf s c.frame) (bits w 12 4) != bit w 16) = true then c.pc + bits w 17 6 else c.pc + 1, phase := .running }) ∧
      (c.phase = .waiting → pipeStill s g.val = false → fetchBad v c = none → bits w 0 2 = 2 →
        waitHolds s g.val st.val c (bits w 12 4) (bits w 16 2) = true → tagFree v c = true → ∀ c1 s1,
        runNano g.val st.val k.val (bits w 2 10) 0 { c with phase := .running } (countAct 2 g.val st.val n s) = .ok (c1, s1) →
        Completes (.waitResume g st k n) s fun t => ctxOf t g.val st.val k.val = some { c1 with pc := c.pc + 1, phase := .running }) ∧
      (∀ x, tabFind c.outstanding tag.val = some (some x) → Completes (.memoryResultReturn g st k tag) s fun t =>
        ctxOf t g.val st.val k.val = some { c with outstanding := tabDel tag.val c.outstanding, t := tabSet 0 tag.val x c.t }) ∧
      (∀ row, c.lockRow = some row → (lockOf v row).holder = none → (lockOf v row).waiters.head? = some k.val → Completes (.lockGranted g st k) s fun t =>
        (lockOf (matStage t g.val st.val) row).holder = some k.val ∧
        (lockOf (matStage t g.val st.val) row).waiters = (lockOf v row).waiters.tail ∧
        ctxOf t g.val st.val k.val = some { c with outstanding := tabPut c.lockTag (some (stateWord v row c.lockWord)) c.outstanding }) ∧
      (c.phase = .ending → c.outstanding = [] → tabFind s.fr.frames c.frame = some f → Completes (.routineCommit g st k n) s fun t =>
        ctxOf t g.val st.val k.val = none ∧ (frameOf t c.frame).place = .sequenced ∧
        (frameOf t c.frame).hdr = c.writes.foldl (fun h e => tabSet 0 e.1 e.2 h) f.hdr ∧
        (∀ o, c.deferred = [o] → o.space = 0 → o.op = 4 →
          stateWord (matStage t g.val st.val) o.row o.word = (stateWord v o.row o.word + o.data) % 2 ^ 64)))) ∧
  (∀ (g : Pipe) (st : StageNo) (k : Fin 64) (addr : Fin 8192) (na : Fin 1024) (row : Nat) (c : Ctx) (s : State),
    ((matStage s g.val st.val).faults.bad = [] →
      (Completes (.actMicro g st addr none) s fun t => wordKey 0 addr.val ∈ (matStage t g.val st.val).faults.bad ∧
        raised 20 6 (32 * g.val + st.val) s t ∧ logged 0x0610 t) ∧
      (Completes (.actNano g st na none) s fun t => wordKey 1 na.val ∈ (matStage t g.val st.val).faults.bad ∧
        raised 21 6 (32 * g.val + st.val) s t ∧ logged 0x0610 t)) ∧
    (ctxOf s g.val st.val k.val = some c →
      (c.pc = addr.val → Completes (.actMicro g st addr (some k)) s fun t => ctxOf t g.val st.val k.val = none ∧
        counted (cSwcDrops 0x1B) ((frameOf s c.frame).pipe / 16) 1 s t) ∧
      (bits (microOf (matStage s g.val st.val) c.pc) 2 10 = na.val → Completes (.actNano g st na (some k)) s fun t => ctxOf t g.val st.val k.val = none ∧
        counted (cSwcDrops 0x1B) ((frameOf s c.frame).pipe / 16) 1 s t) ∧
      (Completes (.actContext g st k) s fun t => ctxOf t g.val st.val k.val = none ∧
        counted (cSwcDrops 0x1B) ((frameOf s c.frame).pipe / 16) 1 s t ∧ raisedLast 22 6 (32 * g.val + st.val) t) ∧
      (c.phase = .waiting → Completes (.actHang g st k) s fun t => ctxOf t g.val st.val k.val = none ∧
        counted (cSwcDrops 0x1B) ((frameOf s c.frame).pipe / 16) 1 s t ∧ raisedLast 23 6 (32 * g.val + st.val) t)) ∧
    (wordKey 0 addr.val ∈ (matStage s g.val st.val).faults.bad → 0 ∉ (matStage s g.val st.val).faults.whole →
      Completes (.storeReload g st 0 (some addr)) s fun t => wordKey 0 addr.val ∉ (matStage t g.val st.val).faults.bad ∧ logged 0x0611 t) ∧
    (1 ∈ (matStage s g.val st.val).faults.whole → Completes (.storeReload g st 1 none) s fun t =>
      (∀ x ∈ (matStage t g.val st.val).faults.bad, x / 65536 ≠ 1) ∧ 1 ∉ (matStage t g.val st.val).faults.whole ∧ logged 0x0611 t) ∧
    (row < stateRows (matStage s g.val st.val) → Completes (.stateRowReset g st row none) s fun t =>
      (∀ w, w < 2 → stateWord (matStage t g.val st.val) row w = tabGet 0 (matStage s g.val st.val).stateInit (2 * row + w) % 2 ^ 64) ∧
      raised 14 6 (32 * g.val + st.val) s t ∧ logged 0x0613 t))

/-- Faults of the match tables (R187): a bad row drops its lookups until it is rewritten, a bad descriptor stops the stage until its reload,
and a frame that holds a bad word is dropped. -/
def Obligations.TableFaultsPoisonUntilRewritten : Prop := ∀ (g : Pipe) (st : StageNo) (unit : Fin 16) (urow : Fin 4096) (block : Fin 4) (row : Fin 1024) (u : Nat) (s : State),
  (fdbIndexOf s.tableProfile st.val unit.val urow.val = none → lpmUnit s.tableProfile st.val unit.val = false →
    (Completes (.matExact g st unit urow none) s fun t => exactCode unit.val urow.val ∈ (matStage t g.val st.val).poisoned ∧
      raised 14 6 (32 * g.val + st.val) s t) ∧
    Completes (.rowRewrite g st (.exact unit urow)) s fun t => exactCode unit.val urow.val ∉ (matStage t g.val st.val).poisoned) ∧
  (∀ i, fdbIndexOf s.tableProfile st.val unit.val urow.val = some i →
    (Completes (.matExact g st unit urow none) s fun t => i ∈ (fwdPipe t g.val).poisoned ∧ raised 14 6 (32 * g.val + st.val) s t) ∧
    Completes (.rowRewrite g st (.exact unit urow)) s fun t => i ∉ (fwdPipe t g.val).poisoned) ∧
  (regionBlocks s.tableProfile st.val block.val = false →
    (Completes (.matTernary g st block row none) s fun t => ternCode block.val row.val ∈ (matStage t g.val st.val).poisoned ∧
      raised 15 6 (32 * g.val + st.val) s t) ∧
    (Completes (.matResult g st block row none) s fun t => resultCode block.val row.val ∈ (matStage t g.val st.val).poisoned ∧
      raised 16 6 (32 * g.val + st.val) s t) ∧
    (Completes (.rowRewrite g st (.ternary block row)) s fun t => ternCode block.val row.val ∉ (matStage t g.val st.val).poisoned) ∧
    Completes (.rowRewrite g st (.result block row)) s fun t => resultCode block.val row.val ∉ (matStage t g.val st.val).poisoned) ∧
  ((frameOf s u).pipe = g.val → atStage st.val (frameOf s u) = true →
    (Completes (.matExact g st unit urow (some u)) s fun t => raisedLast 14 6 (32 * g.val + st.val) t ∧ counted (cSwcDrops 0x1A) (g.val / 16) 1 s t) ∧
    Completes (.matTernary g st block row (some u)) s fun t => raisedLast 15 6 (32 * g.val + st.val) t ∧ counted (cSwcDrops 0x1A) (g.val / 16) 1 s t) ∧
  (Completes (.matDesc g st none) s fun t => (matStage t g.val st.val).reloading = true ∧ raised 17 6 (32 * g.val + st.val) s t ∧ logged 0x0603 t) ∧
  (Completes (.stageReload g st) s fun t => (matStage t g.val st.val).reloading = false ∧ (matStage t g.val st.val).poisoned = []) ∧
  ((frameOf s u).pipe = g.val → (frameOf s u).place = .hold → Completes (.matPath g u) s fun t =>
    raisedLast 18 5 g.val t ∧ counted (cSwcDrops 0x1A) (g.val / 16) 1 s t)

/-- Rule batches (R172 to R175, R181, R516): entries join the open batch, a commit hands its parts to the pipelines, an abort discards it. A
part is applied under a quiesce (R176 to R178): the pipeline stops, the part is written and the epoch flips, and the old contents go once no
frame of the old epoch is left. -/
def Obligations.RuleBatchesAndQuiesceApply : Prop :=
  (∀ (c : Cmd) (ps : List (Nat × List (List MatWrite))) (s : State),
    let n := (given c s).length / 80
    let all := openBatch s c.slot.val ++ (List.range n).map fun k => slice (given c s) (80 * k) 80
    let parts := (ps.map fun p => p.2.length).foldl max 0
    (all.length ≤ 65536 → passes (opRuleAdd n) c s = true → Completes (.ruleAdd c) s fun t =>
      answered (opRuleAdd n) c .ok (toLe 4 all.length) [] s t ∧ openBatch t c.slot.val = all) ∧
    (openBatch s c.slot.val ≠ [] → (openBatch s c.slot.val).length = u32 (given c s) 12 → u32 (given c s) 12 ≤ 65536 → applyPending s (u64 (given c s) 0) = false →
      checkBatch s (openBatch s c.slot.val) (maskBits 64 (u64 (given c s) 0)) = .ok ps → (bit (u8 (given c s) 8) 0 && decide (1 < parts)) = false →
      passes opRuleBatch c s = true → Completes (.ruleBatch c) s fun t =>
        answered opRuleBatch c .ok (toLe 4 s.mat.nextSeq ++ toLe 2 parts) [] s t ∧ openBatch t c.slot.val = [] ∧
        t.mat.nextSeq = (s.mat.nextSeq + 1) % 2 ^ 32 ∧ (1 < parts → logged 0x0601 t) ∧
        (∀ g ws, ps = [(g, ws)] → (matPipe t g).parts = (matPipe s g).parts ++ ws.map fun w => { seq := s.mat.nextSeq, writes := w })) ∧
    (openBatch s c.slot.val = [] → passes opRuleBatch c s = true → Completes (.ruleBatch c) s fun t =>
      answered opRuleBatch c .state (batchFailure 0 0 0xFFFF) [] s t ∧ t.mat = s.mat) ∧
    (passes opRuleBatchAbort c s = true → Completes (.ruleBatchAbort c) s fun t =>
      answered opRuleBatchAbort c .ok (toLe 4 (openBatch s c.slot.val).length) [] s t ∧ openBatch t c.slot.val = []) ∧
    Reads opRuleBatchStatus c (.ruleBatchStatus c) s (
      let p := matPipe s (u8 (given c s) 0)
      image 24 [(0, 1, u8 (given c s) 0), (4, 4, p.appliedSeq), (8, 2, p.appliedParts), (10, 2, p.parts.length), (12, 2, p.lastWindow),
        (14, 2, p.maxWindow), (16, 4, p.holdPeak)])) ∧
  (∀ (g : Pipe) (clocks : Fin 321) (part : BatchPart) (rest : List BatchPart) (s : State),
    ((matPipe s g.val).parts = part :: rest →
      ((matPipe s g.val).retired = none → pipeClosed s g.val = false → framesAt s g.val .hold = [] → Completes (.quiesceStart g) s fun t =>
        (matPipe t g.val).quiesce = .stopped ∧ (matPipe t g.val).parts = part :: rest) ∧
      ((matPipe s g.val).quiesce = .stopped → routinesStill s g.val = true → Completes (.quiesceWrite g clocks) s fun t =>
        (matPipe t g.val).parts = rest ∧ (matPipe t g.val).quiesce = .none ∧ (matPipe t g.val).retired.isSome = true ∧
        (matPipe t g.val).epoch = (matPipe s g.val).epoch + 1 ∧ (matPipe t g.val).appliedSeq = part.seq ∧
        (matPipe t g.val).lastWindow = clocks.val ∧ counted cMatQuiesces g.val 1 s t)) ∧
    ((s.fr.frames.all fun e => !(e.2.pipe == g.val && oldEpoch (matPipe s g.val) e.2)) = true → Completes (.retiredBufferRelease g) s fun t =>
      (matPipe t g.val).retired = none ∧ (matPipe t g.val).epoch = (matPipe s g.val).epoch))

/-- Decision trees (R166, R170, R171): the tree and rule objects, and a build from commit to swap to the freeing of the old nodes. Tree
walks (R168, R187): a walk goes one node deeper, ends with the best rule of its generation, at depth 16, or with an error that rebuilds the
tree. -/
def Obligations.TreesAreBuiltSwappedAndWalked : Prop :=
  (∀ (c : Cmd) (q : Quad) (n : Fin 16) (root : Nat) (rules : Store Bytes) (s : State),
    Reads opTreeTableRead c (.treeTableRead c) s (treeObj s (u8 (given c s) 0) (u8 (given c s) 1)) ∧
    Writes opTreeTableWrite c (.treeTableWrite c) s (fun t =>
      (treeOf t (u8 (given c s) 0) (u8 (given c s) 1)).obj = putField (given c s) 8 8 0 ∧
      ∀ k, k ≠ 16 * u8 (given c s) 0 + u8 (given c s) 1 → tabGet {} t.mat.trees k = tabGet {} s.mat.trees k) ∧
    Reads opClassifierRuleRead c (.classifierRuleRead c) s ((given c s).take 8 ++
      (tabFind s.mat.rules (ruleKey (u8 (given c s) 0) (u8 (given c s) 1) (u32 (given c s) 4))).getD (List.replicate 128 0)) ∧
    Writes opClassifierRuleWrite c (.classifierRuleWrite c) s (fun t =>
      let k := ruleKey (u8 (given c s) 0) (u8 (given c s) 1) (u32 (given c s) 4)
      tabFind t.mat.rules k = (if bit (u8 (given c s) 10) 0 = true then some ((given c s).drop 8) else none) ∧
      ∀ j, j ≠ k → tabFind t.mat.rules j = tabFind s.mat.rules j) ∧
    ((treeOf s (u8 (given c s) 0) (u8 (given c s) 1)).building = none → passes opTreeCommit c s = true → Completes (.treeCommit c) s fun t =>
      answered opTreeCommit c .pending (toLe 4 (((treeOf s (u8 (given c s) 0) (u8 (given c s) 1)).generation + 1) % 2 ^ 32)) [] s t ∧
      (treeOf t (u8 (given c s) 0) (u8 (given c s) 1)).building = some (treeRules s (u8 (given c s) 0) (u8 (given c s) 1))) ∧
    ((treeOf s q.val n.val).building = some rules →
      (Completes (.treeSwap q n true root) s fun t => (treeOf t q.val n.val).built = rules ∧ (treeOf t q.val n.val).building = none ∧
        (treeOf t q.val n.val).generation = ((treeOf s q.val n.val).generation + 1) % 2 ^ 32 ∧
        (treeOf t q.val n.val).swappedAt = some s.now ∧ logged 0x0605 t) ∧
      Completes (.treeSwap q n false root) s fun t => (treeOf t q.val n.val).built = (treeOf s q.val n.val).built ∧
        (treeOf t q.val n.val).generation = (treeOf s q.val n.val).generation ∧ (treeOf t q.val n.val).building = none ∧ logged 0x0606 t) ∧
    (∀ a, (treeOf s q.val n.val).swappedAt = some a → Completes (.treeNodesFreed q n) s fun t =>
      (treeOf t q.val n.val).swappedAt = none ∧ a + 20 * tUs ≤ t.now)) ∧
  (∀ (u : Nat) (rules : Fin 17) (w : Walk) (s : State),
    let q := (frameOf s u).pipe / 16
    walkOf s q u = some w →
    ((bufQuad s q).retrain = none →
      (w.depth ≠ 15 → Completes (.treeNodeReadReturn u 1 rules) s fun t => ∃ x, walkOf t q u = some x ∧ x.depth = w.depth + 1) ∧
      (w.depth = 15 → Completes (.treeNodeReadReturn u 1 rules) s fun t => walkOf t q u = none ∧ counted (cTreeStatus 4) q 1 s t) ∧
      (Completes (.treeNodeReadReturn u 2 rules) s fun t => walkOf t q u = none ∧
        counted (cTreeStatus (if (bestRule (startWalk s q u w).rules (startWalk s q u w).key).isSome then 1 else 2)) q 1 s t) ∧
      (Completes (.treeNodeReadReturn u 3 rules) s fun t => walkOf t q u = none ∧ counted (cTreeStatus 5) q 1 s t ∧
        raisedLast 19 8 (16 * q + w.tree) t)) ∧
    (Completes (.treeWalkTimeout u) s fun t => walkOf t q u = none ∧ counted (cTreeStatus 5) q 1 s t ∧
      raised 19 8 (16 * q + w.tree) s t ∧ w.began.getD s.now + 20 * tUs ≤ t.now ∧ (treeOf t q w.tree).building.isSome = true) ∧
    (∀ k : Quad, k.val = q → Completes (.matTree k u) s fun t => walkOf t q u = none ∧ counted (cTreeStatus 5) q 1 s t ∧
      raised 19 8 (16 * q + w.tree) s t ∧ (treeOf t q w.tree).building.isSome = true))

/-! ### Forwarding tables -/

/-- The FDB, LPM and host-table objects read as they stand, and writes take effect in every pipeline they name and in no other (R231, R234,
R235, R244, R249, R250, R252, R254). The FDB's command windows (R239 to R243): a command written to an idle window of an open page waits for
its turn, one written to a busy window is counted as rejected, and a page that is not granted ignores writes and reads zero. -/
def Obligations.ForwardingObjectsAndWindows : Prop :=
  (∀ (c : Cmd) (s : State),
    let b := given c s
    let named := fun g => bit (u64 b 0) g = true ∧ g < 64
    Reads opFdbLearnRead c (.fdbLearnRead c) s (putField (learnObj s (u64 b 0).log2) 0 8 (u64 b 0)) ∧
    Writes opFdbLearnWrite c (.fdbLearnWrite c) s (fun t => (∀ g, named g → (fwdPipe t g).learn = putField b 0 8 0) ∧
      ∀ g, ¬ named g → fwdPipe t g = fwdPipe s g) ∧
    Reads opFdbNotifyRead c (.fdbNotifyRead c) s (ntfObj s (u8 b 0)) ∧
    Writes opFdbNotifyWrite c (.fdbNotifyWrite c) s (fun t => (ntfRing t (u8 b 0)).obj = b ∧
      (ntfEnabled s (u8 b 0) = false → bit (u8 b 1) 0 = true → (ntfRing t (u8 b 0)).producer = 0 ∧ tabGet 0 t.host.ntfCons (u8 b 0) = 0) ∧
      ∀ q, q ≠ u8 b 0 → ntfRing t q = ntfRing s q) ∧
    Starts opFdbEntryWrite c (.fdbEntryWrite c) s (fun t =>
      t.fwd.jobs = s.fwd.jobs ++ [{ run := s.host.nextId, obj := b, left := u64 b 0 }] ∧ t.fwd.pipes = s.fwd.pipes) ∧
    (∀ i r, fdbFind s (u64 b 0).log2 (u16 b 12 * 2 ^ 48 + fieldBe b 14 6) = some (i, r) → Reads opFdbEntryRead c (.fdbEntryRead c) s
      (putBytes (image 32 [(0, 8, u64 b 0),
        (9, 1, b2n (rowStatic r) + 2 * b2n (rowFrozen r) + 4 * b2n (rowHitDst r) + 8 * b2n (rowHitSrc r)), (10, 2, rowPort r),
        (12, 2, rowFid r), (20, 2, rowUser r), (22, 1, rowFlaps r), (24, 4, i)]) 14 (toBe 6 (rowMac r)))) ∧
    Reads opFdbDelegateRead c (.fdbDelegateRead c) s (
      let w := (fwdPipe s (u64 b 0).log2).window
      image 16 [(0, 8, u64 b 0), (8, 1, w.session.getD 0), (9, 1, if w.session.isSome then w.rights else 0)]) ∧
    (u8 b 9 ≠ 0 → Writes opFdbDelegateWrite c (.fdbDelegateWrite c) s fun t => ∀ g, named g →
      (fwdPipe t g).window.session = some (u8 b 8) ∧ (fwdPipe t g).window.rights = u8 b 9) ∧
    (u8 b 9 = 0 → Writes opFdbDelegateWrite c (.fdbDelegateWrite c) s fun t => ∀ g, named g → (fwdPipe t g).window.session ≠ some (u8 b 8)) ∧
    (∀ r, tabFind (fwdPipe s (u64 b 0).log2).routes (routeOf b) = some r → Reads opLpmRouteRead c (.lpmRouteRead c) s (putField b 16 4 r)) ∧
    (u8 b 8 = 1 → (∀ g, named g → 2 * (lpmUsed (fwdPipe s g) + (if u8 b 9 = 1 then 2 else 1)) ≤ lpmRoom s) →
      Writes opLpmRouteWrite c (.lpmRouteWrite c) s fun t => ∀ g, named g → tabFind (fwdPipe t g).routes (routeOf b) = some (u32 b 16)) ∧
    (u8 b 8 ≠ 1 → (∀ g, named g → (tabFind (fwdPipe s g).routes (routeOf b)).isSome = true) →
      Writes opLpmRouteWrite c (.lpmRouteWrite c) s fun t => ∀ g, named g → tabFind (fwdPipe t g).routes (routeOf b) = none) ∧
    Reads opHostLookupRead c (.hostLookupRead c) s (putField (hostLookupObj s (u64 b 0).log2) 0 8 (u64 b 0)) ∧
    Writes opHostLookupWrite c (.hostLookupWrite c) s (fun t => (∀ g, named g → (fwdPipe t g).hostLookup = putField b 0 8 0) ∧
      ∀ g, ¬ named g → fwdPipe t g = fwdPipe s g) ∧
    (let d := opHostEntry (effectiveCmd c s).replyMax.toNat
     let q := u8 b 0
     let key := hostEntryKey b
     (∀ v, u8 b 1 = 1 → hostWrite q key (u32 b 8) s = some v → Writes d c (.hostEntry c) s fun t => t.fwd = v.fwd ∧
        ∃ k i r, hostFind t q key = some (k, i) ∧ tabFind t.fwd.host (hostSlotKey q k i) = some r ∧ r.key = key ∧ r.result = u32 b 8) ∧
     (∀ k i r, hostFind s q key = some (k, i) → tabFind s.fwd.host (hostSlotKey q k i) = some r →
       (u8 b 1 = 2 → Writes d c (.hostEntry c) s fun t => tabFind t.fwd.host (hostSlotKey q k i) = none) ∧
       (u8 b 1 = 3 ∨ u8 b 1 = 4 → passes d c s = true → Completes (.hostEntry c) s fun t =>
         answered d c .ok [] (putField (putField (putField b 1 1 0) 2 1 (1 + 2 * b2n r.hit)) 8 4 r.result) s t ∧
         tabFind t.fwd.host (hostSlotKey q k i) = some { r with hit := if u8 b 1 = 4 then false else r.hit })))) ∧
  (∀ (g : Pipe) (clear : Bool) (op : Fin 23) (reg : Fin 7) (x : BitVec 32) (s : State),
    let w := (fwdPipe s g.val).window
    let begun := fun (n : Nat) (t : State) => (fwdPipe t g.val).window = { w with cmd := n + 32 * b2n clear, busy := true, done := false, kept := false }
    let all := fun (P : Nat → State → Prop) =>
      Completes (.fdbCmdReadKey g clear) s (P 1) ∧ Completes (.fdbCmdReadIndex g clear) s (P 2) ∧ Completes (.fdbCmdInsert g clear) s (P 3) ∧
      Completes (.fdbCmdWrite g clear) s (P 4) ∧ Completes (.fdbCmdDelete g clear) s (P 5) ∧ Completes (.fdbCmdDeleteIfIdle g clear) s (P 6) ∧
      Completes (.fdbCmdAge g clear) s (P 7) ∧ Completes (.fdbCmdIterate g clear) s (P 8) ∧
      Completes (.fdbCmdInvalidOp g op clear) s (P (9 + op.val))
    (windowOpen s g.val = true → w.busy = false → all begun) ∧
    (windowOpen s g.val = true → w.busy = true → all fun _ t => (fwdPipe t g.val).window = { w with rejects := satAdd 32 w.rejects 1 }) ∧
    (windowOpen s g.val = false → all (fun _ t => t = s) ∧ (Completes (.fdbWindowRegWrite g reg x) s fun t => t = s) ∧
      Completes (.fdbRejectsRead g) s fun t => t = { s with out := .barRead 0 :: s.out }) ∧
    (windowOpen s g.val = true → w.busy = false → reg.val ≠ 0 → Completes (.fdbWindowRegWrite g reg x) s fun t =>
      (fwdPipe t g.val).window = windowReg reg.val x.toNat w) ∧
    (windowOpen s g.val = true → Completes (.fdbRejectsRead g) s fun t => t.out = .barRead w.rejects :: s.out ∧ (fwdPipe t g.val).window.rejects = 0))

/-- The FDB's write arbiter grants one waiting requester in turn (R238), a learn request learns a new key (R228), notification indexes reach
memory (R236), a freed bucket returns 2 µs later (R250), and a host-table read gives its frame the key's result or a miss (R253). -/
def Obligations.ForwardingEnginesRun : Prop := ∀ (g : Pipe) (q : Quad) (v : BitVec 32) (u late : Nat) (s : State),
  let p := fwdPipe s g.val
  (∀ r, p.learning = false → ([1, 2, 3].map fun i => (p.lastGrant + i) % 3).find? (requesterWaits s g.val) = some r →
    Completes (.fdbArbiterGrant g) s fun t => (fwdPipe t g.val).lastGrant = r ∧ (r = 0 → (fwdPipe t g.val).learning = true) ∧
      (∀ j, r = 1 → jobFor s g.val = some j → ∀ x ∈ t.fwd.jobs, x.run = j.run → bit x.left g.val = false) ∧
      (r = 2 → (fwdPipe t g.val).window.busy = false ∧ (fwdPipe t g.val).window.done = true)) ∧
  (∀ k port rest, p.learning = true → p.learnQ = (k, port) :: rest →
    (Completes (.learnRequestProcess g) s fun t => (fwdPipe t g.val).learnQ = rest ∧ (fwdPipe t g.val).learning = false) ∧
    (∀ i, fdbFind s g.val k = none → fdbDynamics s g.val < dynLimit s g.val →
      ((List.range 4).map (fdbCandidate (fdbRows s) (rowKey (fdbRow false false k port 0 0 (fdbNow s g.val))))).find?
        (fun i => (tabFind p.fdb i).isNone) = some i →
      Completes (.learnRequestProcess g) s fun t => fdbAt t g.val i = some (fdbRow false false k port 0 0 (fdbNow s g.val)) ∧
        counted cFdbLearnNew g.val 1 s t) ∧
    (∀ i r, fdbFind s g.val k = some (i, r) → rowPort r = port → Completes (.learnRequestProcess g) s fun t =>
      (fwdPipe t g.val).fdb = p.fdb)) ∧
  ((ntfRing s q.val).pendingWb = true → Completes (.notifyProducerWriteback q) s fun t => (ntfRing t q.val).pendingWb = false ∧
    .hostWrite (u64 (ntfObj s q.val) 16) (toLe 4 (ntfRing s q.val).producer.toNat) ∈ t.out) ∧
  (Completes (.fdbNtfConsWrite q v) s fun t => tabGet 0 t.host.ntfCons q.val = v ∧ ∀ k, k ≠ q.val → tabGet 0 t.host.ntfCons k = tabGet 0 s.host.ntfCons k) ∧
  (∀ a rest, p.freeing = a :: rest → Completes (.lpmBucketFree g) s fun t => (fwdPipe t g.val).freeing = rest ∧ a ≤ t.now ∧
    (fwdPipe t g.val).routes = p.routes) ∧
  (∀ f r, tabFind s.fr.frames u = some f → q.val = quadOfPipe f.pipe → (hostReads s q.val).find? (fun r => r.frame == u) = some r →
    (bufQuad s q.val).retrain = none → readerFenced s q.val = false →
    let b := hostBucket (b2n r.second) r.key
    (s.fwd.hostBad.any fun k => k / 4 == hostSlotKey q.val b 0 / 4) = false →
    (∀ i row, hostSlotIn s q.val b r.key = some i → tabFind s.fwd.host (hostSlotKey q.val b i) = some row →
      Completes (.hostBucketReadReturn u late) s fun t => (frameOf t u).hostDue = false ∧ (frameOf t u).hostRes = 1 + 16 * row.result ∧
        counted (cHostStatus 1) q.val 1 s t ∧ tabFind t.fwd.host (hostSlotKey q.val b i) = some { row with hit := true }) ∧
    (hostSlotIn s q.val b r.key = none → (!r.second && hostAltUsed s q.val b) = false → Completes (.hostBucketReadReturn u late) s fun t =>
      (frameOf t u).hostDue = false ∧ (frameOf t u).hostRes = 2 ∧ counted (cHostStatus 2) q.val 1 s t) ∧
    (hostSlotIn s q.val b r.key = none → (!r.second && hostAltUsed s q.val b) = true → Completes (.hostBucketReadReturn u late) s fun t =>
      (hostReads t q.val).find? (fun r => r.frame == u) = some { r with second := true }))

/-- Faults of the forwarding tables (R256): the learn queue is lost, the window's operation ends with INTEGRITY, a bad bucket's lookup ends
with status 4 and its slot is poisoned, and the audit removes a wrong dynamic entry. -/
def Obligations.ForwardingFaultsAreContained : Prop := ∀ (g : Pipe) (u : Nat) (slot : Fin 4) (s : State),
  (Completes (.fdbLearnFault g) s fun t => raised 24 5 g.val s t ∧ (fwdPipe t g.val).learnQ = [] ∧ (fwdPipe t g.val).learning = false ∧
    counted cFdbLearnLost g.val (fwdPipe s g.val).learnQ.length s t) ∧
  (Completes (.fdbCmdFault g) s fun t => raised 25 5 g.val s t ∧ (fwdPipe t g.val).window.busy = false ∧
    (fwdPipe t g.val).fdb = (fwdPipe s g.val).fdb ∧
    ((fwdPipe s g.val).window.busy = true → (fwdPipe t g.val).window.status = 9 ∧ (fwdPipe t g.val).window.done = true)) ∧
  (∀ f r, tabFind s.fr.frames u = some f → (hostReads s (quadOfPipe f.pipe)).find? (fun r => r.frame == u) = some r →
    Completes (.hostRead u slot) s fun t =>
      let q := quadOfPipe f.pipe
      raised 26 7 q s t ∧ logged 0x0626 t ∧ (frameOf t u).hostDue = false ∧ (frameOf t u).hostRes = 4 ∧
      hostSlotKey q (hostBucket (b2n r.second) r.key) slot.val ∈ t.fwd.hostBad) ∧
  (∀ i r, fdbAt s g.val i = some r → Completes (.fwdAudit g (some i)) s fun t => raised 27 5 g.val s t ∧
    fdbAt t g.val i = if rowStatic r then some r else none) ∧
  (Completes (.fwdAudit g none) s fun t => raised 27 5 g.val s t ∧ t.fwd = s.fwd)

/-! ### Signature engines and the inspection path -/

/-- The signature objects read as they stand and writes take effect: an engine's write drains and loads it, profiles and rules change in
every quadrant named and in no other (R267, R268, R271, R513). -/
def Obligations.SignatureObjectsReadAndWrite : Prop := ∀ (c : Cmd) (s : State),
  let b := given c s
  Reads opSigEngineRead c (.sigEngineRead c) s (putField (slice (engineOf s (u8 b 0)).obj 0 8) 0 1 (u8 b 0)) ∧
  Starts opSigEngineWrite c (.sigEngineWrite c) s (fun t =>
    engineOf t (u8 b 0) = { engineOf s (u8 b 0) with obj := b, phase := .loading } ∧
    t.sig.jobs = s.sig.jobs ++ [{ run := s.host.nextId, engines := [u8 b 0], data := [] }] ∧
    ∀ e, e ≠ u8 b 0 → engineOf t e = engineOf s e) ∧
  Reads opSigProfileRead c (.sigProfileRead c) s (putField (sigProfile s (u8 b 1).log2 (u8 b 0)) 1 1 (u8 b 1)) ∧
  Writes opSigProfileWrite c (.sigProfileWrite c) s (fun t => ∀ q k, q < 4 → k < 256 →
    sigProfile t q k = if bit (u8 b 1) q = true ∧ k = u8 b 0 then putField b 1 1 0 else sigProfile s q k) ∧
  Reads opSigRuleRead c (.sigRuleRead c) s
    (putField b 4 2 (tabGet 0 ((tabFind s.sig.sets (16 * (u8 b 0).log2 + u8 b 1)).getD {}).rules (u16 b 2))) ∧
  Writes opSigRuleWrite c (.sigRuleWrite c) s (fun t => ∀ q, q < 4 → bit (u8 b 0) q = true →
    tabFind t.sig.sets (16 * q + u8 b 1) = (tabFind s.sig.sets (16 * q + u8 b 1)).map (setRule (u16 b 2) (u16 b 4)) ∧
    ∀ e, e / 4 = q → engineSet (engineOf s e) = u8 b 1 →
      (engineOf t e).loaded = (engineOf s e).loaded.map (setRule (u16 b 2) (u16 b 4))) ∧
  Reads opSigStatus c (.sigStatus c) s (
    let v := engineOf s (u8 b 0)
    image 24 [(0, 1, u8 b 0), (1, 1, engineCode v.phase), (2, 1, engineSet v),
      (4, 4, match v.loaded with | some a => a.tag | none => 0), (8, 4, v.loads), (12, 4, v.cleanNs), (16, 8, v.cleanSec)])

/-- Inspection (R259, R260, R265 to R269, R272, R508): a request whose turn it is goes to the least loaded engine of its set or returns
NOT_LOADED, a scan's end is counted, a frame with its results re-enters its parser as a new pass, and a loaded engine serves again. Faults
of inspection (R273, R274): a word that differs is rewritten and logged, an uncorrectable one takes the engine out and ends the scan it met
with ERROR, and a frame whose request goes bad is dropped. -/
def Obligations.InspectionsRunAndFault : Prop :=
  (∀ (u : Nat) (e : Engine) (s : State),
    let v := frameOf s u
    let q := quadOfPipe v.pipe
    (∀ r, (inspReqs s q).find? (fun r => r.frame == u) = some r →
      (r.scan = .queued → (reqsBefore (inspReqs s q) u).all (reqBlocked s q) = true → inspectFenced s q = false →
        (profileServed s q r.profile = false → Completes (.sigDispatch u) s fun t =>
          (inspReqs t q).find? (fun r => r.frame == u) = some { r with scan := .done (f7Status 4 v.data) } ∧ counted cSigNotLoaded q 1 s t) ∧
        (∀ n a, profileServed s q r.profile = true → pickEngine s q (u8 (sigProfile s q r.profile) 3) = some n → (engineOf s n).loaded = some a →
          Completes (.sigDispatch u) s fun t =>
            let rules := scanWindow a a.start [] (scanBytes v.data)
            (inspReqs t q).find? (fun r => r.frame == u) =
              some { r with scan := .scanning n (u8 (sigProfile s q r.profile) 3) (f7Of a n rules v.data) rules })) ∧
      (∀ n set f7 rules, r.scan = .scanning n set f7 rules → Completes (.sigScanDone u) s fun t =>
        (inspReqs t q).find? (fun r => r.frame == u) = some { r with scan := .done f7 } ∧ counted cSigScans n 1 s t ∧
        counted cSigBytes n (scanBytes v.data).length s t ∧ (rules = [] → counted cSigNomatch n 1 s t) ∧
        (rules ≠ [] → counted cSigMatch n 1 s t)) ∧
      (∀ f7 f8 f9, reqResults s q r = some (f7, f8, f9) → pipeFenced s v.pipe = false →
        ((reqsBefore (inspReqs s q) u).any fun x => (frameOf s x.frame).pipe == v.pipe && (frameOf s x.frame).port == v.port) = false →
        Completes (.inspectionReturn u) s fun t =>
          tabFind t.fr.frames s.fr.next = some { nextPass u 3 v with
            returned := true, hdr := tabSet 0 297 f9 (tabSet 0 296 f8 (tabSet 0 295 f7 (nextPass u 3 v).hdr)) } ∧
          ∀ x ∈ inspReqs t q, x.frame ≠ u)) ∧
    ((engineOf s e.val).phase = .loading → engineLoad s e.val = 0 → (∀ j ∈ s.sig.jobs, j.engines.tail.head? ≠ some e.val) →
      (bit (u8 (engineOf s e.val).obj 1) 0 = true → Completes (.sigReload e) s fun t => (engineOf t e.val).phase = .active ∧
        (engineOf t e.val).loaded = tabFind s.sig.sets (16 * (e.val / 4) + engineSet (engineOf s e.val)) ∧
        (engineOf t e.val).loads = wrapAdd 32 (engineOf s e.val).loads 1 ∧ logged 0x0702 t) ∧
      (bit (u8 (engineOf s e.val).obj 1) 0 = false → Completes (.sigReload e) s fun t => (engineOf t e.val).phase = .idle ∧
        (engineOf t e.val).loaded = none) ∧
      (∀ j r, s.sig.jobs = [j] → j.engines = [e.val] → s.host.running.find? (fun r => r.id == j.run) = some r → Completes (.sigReload e) s fun t =>
        t.sig.jobs = [] ∧ ∃ x, t.host.ended = s.host.ended ++ [x] ∧ x.slot = r.slot ∧ x.tag = r.tag ∧ x.status = .ok ∧ x.data = j.data))) ∧
  (∀ (e : Engine) (q : Quad) (offset u : Nat) (x : Option Nat) (s : State),
    (Completes (.sigStore e true offset x) s fun t => raised 28 9 e.val s t ∧ logged 0x0704 t ∧ t.sig = s.sig) ∧
    (Completes (.sigStore e false offset none) s fun t => raised 28 9 e.val s t ∧ logged 0x0703 t ∧ (engineOf t e.val).phase = .faulted ∧
      t.sig.reqs = s.sig.reqs) ∧
    (∀ r, (inspReqs s (e.val / 4)).find? (fun r => r.frame == u) = some r → scansOn e.val r = true →
      Completes (.sigStore e false offset (some u)) s fun t => raised 28 9 e.val s t ∧ (engineOf t e.val).phase = .faulted ∧
        counted cSigError e.val 1 s t ∧
        (inspReqs t (e.val / 4)).find? (fun r => r.frame == u) = some { r with scan := .done (f7Status 5 (frameOf s u).data) }) ∧
    ((∃ r ∈ inspReqs s q.val, r.frame = u) → Completes (.sigPath q u) s fun t => raisedLast 29 7 q.val t ∧
      (∀ r ∈ inspReqs t q.val, r.frame ≠ u) ∧ counted (cSwcDrops 0x1D) (quadOfPipe (frameOf s u).pipe) 1 s t))

/-! ### The shared buffer and DRAM spill -/

/-- The buffer's objects read as they stand, and writes take effect where they name and nowhere else; a pool, profile or port write is taken
when every shared pool keeps its floor (R282 to R285, R297, R300, R303, R304). The switching core's objects read as they stand and writes
take effect; a multicast group's new list is tagged for the next strobe (R313, R320, R322, R323, R328, R332). -/
def Obligations.BufferAndSwitchObjectsReadAndWrite : Prop :=
  (∀ (c : Cmd) (s : State),
    let b := given c s
    let u := takenState c s
    Reads opBufferPoolRead c (.bufferPoolRead c) s (bufferPool s (u8 b 0)) ∧
    (b ≠ [] → poolsFit (modQuad (u8 b 0) (fun x => { x with pool := if b == poolDefault (u8 b 0) then [] else b }) u) = true →
      Writes opBufferPoolWrite c (.bufferPoolWrite c) s fun t => bufferPool t (u8 b 0) = b ∧ ∀ q, q ≠ u8 b 0 → bufQuad t q = bufQuad s q) ∧
    Reads opAdmitProfileRead c (.admitProfileRead c) s (putField (admitProfile s (u8 b 0).log2 (u8 b 1)) 0 1 (u8 b 0)) ∧
    (let v := forMask 4 (u8 b 0) (fun q s => modBuf (fun t =>
        { t with profiles := tabSet (profileAdmitDefault (u8 b 1)) (64 * q + u8 b 1) (putField b 0 1 0) t.profiles }) s) u
     dividedSpills v = false → poolsFit v = true → Writes opAdmitProfileWrite c (.admitProfileWrite c) s fun t =>
       ∀ q, q < 4 → bit (u8 b 0) q = true → admitProfile t q (u8 b 1) = putField b 0 1 0) ∧
    Reads opPortAdmitRead c (.portAdmitRead c) s (portAdmit s (u16 b 0)) ∧
    (let v := modBuf (fun t => { t with portAdmit := tabSet (portAdmitDefault (u16 b 0)) (u16 b 0) b t.portAdmit }) u
     dividedSpills v = false → poolsFit v = true → Writes opPortAdmitWrite c (.portAdmitWrite c) s fun t =>
       portAdmit t (u16 b 0) = b ∧ ∀ p, p ≠ u16 b 0 → portAdmit t p = portAdmit s p) ∧
    Reads opDramShareRead c (.dramShareRead c) s (putField (dramShare s (u8 b 0).log2) 0 1 (u8 b 0)) ∧
    (putField b 0 1 0 ≠ [] → Writes opDramShareWrite c (.dramShareWrite c) s fun t => ∀ q, q < 4 →
      dramShare t q = if bit (u8 b 0) q = true then putField b 0 1 0 else dramShare s q) ∧
    Reads opBufScrubRead c (.bufScrubRead c) s (bufScrub s) ∧
    (b ≠ [] → Writes opBufScrubWrite c (.bufScrubWrite c) s fun t => bufScrub t = b) ∧
    (passes opBufferStatus c s = true → Completes (.bufferStatus c) s fun t =>
      answered opBufferStatus c .ok [] (bufferStatusObj s (u8 b 0)) s t ∧ (bufQuad t (u8 b 0)).minFree.getD allCells = freeCells s (u8 b 0)) ∧
    (passes opQueueBufferStatus c s = true → Completes (.queueBufferStatus c) s fun t =>
      let no := queueNo (u16 b 0) (u8 b 2)
      let v := bufQueue s no
      answered opQueueBufferStatus c .ok [] (image 24 [(0, 2, u16 b 0), (2, 1, u8 b 2), (3, 1, b2n v.spilling), (4, 4, queueSram s no),
        (8, 4, queueSlots s no), (12, 4, v.fifo.length), (16, 4, v.peak), (20, 1, profileNo s (u16 b 0) (u8 b 2))]) s t ∧
      (bufQueue t no).peak = queueSram s no)) ∧
  (∀ (c : Cmd) (s : State),
    let b := given c s
    Reads opMeshConfigRead c (.meshConfigRead c) s (putField (meshConfig s (u8 b 0).log2) 0 1 (u8 b 0)) ∧
    Writes opMeshConfigWrite c (.meshConfigWrite c) s (fun t => ∀ q, q < 4 →
      meshConfig t q = if bit (u8 b 0) q = true then putField b 0 1 0 else meshConfig s q) ∧
    Reads opMcastGroupRead c (.mcastGroupRead c) s (
      let o := (tabGet {} s.sw.groups (u16 b 0)).obj
      if o.isEmpty then image 16 [(0, 2, u16 b 0)] else o) ∧
    (badMember (mcastMembers b) = none → (∀ q, q < 4 → replicationUsed s q + membersIn q (mcastMembers b) ≤ 262144) →
      Starts opMcastGroupWrite c (.mcastGroupWrite c) s fun t => t.time.tagged = s.time.tagged ++ [.mcast b s.host.nextId] ∧ t.sw = s.sw) ∧
    Reads opMirrorSessionRead c (.mirrorSessionRead c) s (sessionObj s (16 * u8 b 0 + u8 b 1)) ∧
    (b ≠ [] → Writes opMirrorSessionWrite c (.mirrorSessionWrite c) s fun t => sessionObj t (16 * u8 b 0 + u8 b 1) = b ∧
      (sessionAt t (16 * u8 b 0 + u8 b 1)).selected = 0 ∧ logged 0x090A t ∧
      ∀ i, i ≠ 16 * u8 b 0 + u8 b 1 → sessionAt t i = sessionAt s i) ∧
    Reads opQueueAgeRead c (.queueAgeRead c) s ((tabFind s.sw.queueAge (u16 b 0)).getD (queueAgeDefault (u16 b 0))) ∧
    Writes opQueueAgeWrite c (.queueAgeWrite c) s (fun t => (tabFind t.sw.queueAge (u16 b 0)).getD (queueAgeDefault (u16 b 0)) = b) ∧
    Reads opDropPolicyRead c (.dropPolicyRead c) s (putField (dropPolicyOf s (u8 b 0).log2) 0 1 (u8 b 0)) ∧
    Writes opDropPolicyWrite c (.dropPolicyWrite c) s (fun t => ∀ q, q < 4 →
      dropPolicyOf t q = if bit (u8 b 0) q = true then putField b 0 1 0 else dropPolicyOf s q))

/-- Spill and return (R292 to R295, R298, R300, R301): staging cells are written to their slots in turn, copies of the DRAM section return
in order by a read, by the bypass, or wait for shared cells, and windows and scrub passes end. Faults of the buffer (R281, R295, R301,
R306): a copy whose word, chain or descriptor is bad is dropped before it starts, lists are rebuilt, a broken section is flushed, and a
stack's interface retrains while lookups that waited end with ERROR. -/
def Obligations.CopiesSpillReturnAndFault : Prop :=
  (∀ (q : Quad) (p : Port) (k : Fin 20) (n : Fin 4) (c no : Nat) (x : Copy) (z : Spilled) (s : State),
    let m := queueNo p.val k.val
    (tabFind s.buf.copies c = some x → x.spill = some z →
      (nextTurn (bufQuad s q.val).spillTurn (writableQueues s q.val) = some no → writableCopy s no = some c → spillAllowed s q.val 4 = true →
        Completes (.spillWrite q) s fun t => tabFind t.buf.copies c = some { x with spill := some { z with writing := true } } ∧
          (bufQuad t q.val).spillTurn = no ∧ counted (cDramBeats 3) q.val 4 s t) ∧
      ((bufQueue s m).fifo.find? (fun c => ((copyAt s c).spill.map Spilled.writing) == some true) = some c →
        Completes (.spillWriteDone p k) s fun t => (copyAt t c).cells = x.cells.drop 1 ∧
          (copyAt t c).spill = some { z with writing := false, written := z.written + 1 } ∧ counted cBufSpillWrites x.quad 1 s t) ∧
      (sectionHead s m = some c → returnWindow s m < returnCells (queueProfile s p.val k.val) → (bufQuad s (quadOfPort p.val)).retrain = none →
        z.reading = false → z.stalled = false →
        (copyAged s x = true → Completes (.returnRead p k) s fun t => counted (cSwcDrops 0x2C) x.quad 1 s t ∧
          counted cSwcAged (queueNo x.port x.queue) 1 s t ∧ (copyAt t c).spill = none) ∧
        (copyAged s x = false → z.bad = true → Completes (.returnRead p k) s fun t => counted (cSwcDrops 0x26) x.quad 1 s t ∧
          (copyAt t c).spill = none) ∧
        (copyAged s x = false → z.bad = false →
          (z.written = 0 → z.writing = false → Completes (.returnRead p k) s fun t => counted cBufBypass x.quad 1 s t ∧
            tabFind t.buf.copies c = some { x with spill := none }) ∧
          (z.written ≠ 0 → x.cells = [] → z.writing = false →
            (sharedFree s x.quad < z.slots.length → Completes (.returnRead p k) s fun t => counted cBufStalls x.quad 1 s t ∧
              tabFind t.buf.copies c = some { x with spill := some { z with stalled := true } }) ∧
            (∀ l v, z.slots.length ≤ sharedFree s x.quad → spillAllowed s x.quad (4 * z.slots.length) = true →
              takeCells x.quad z.slots.length s = some (l, v) → Completes (.returnRead p k) s fun t =>
                tabFind t.buf.copies c = some { x with
                  cells := l, shared := z.slots.length, spill := some { z with reading := true, stalled := false, slots := [] } } ∧
                counted cBufReturnReads x.quad z.slots.length s t)))) ∧
      ((bufQueue s m).fifo.find? (fun c => ((copyAt s c).spill.map Spilled.stalled) == some true) = some c →
        z.slots.length ≤ sharedFree s (quadOfPort p.val) → spillAllowed s (quadOfPort p.val) 4 = true →
        (∀ l v, takeCells x.quad z.slots.length s = some (l, v) → Completes (.returnStallResume p k) s fun t =>
          tabFind t.buf.copies c = some { x with
            cells := l, shared := z.slots.length, spill := some { z with reading := true, stalled := false, slots := [] } })) ∧
      ((bufQueue s m).fifo.find? (fun c => ((copyAt s c).spill.map Spilled.reading) == some true) = some c →
        (bufQuad s (quadOfPort p.val)).retrain = none → Completes (.returnReadDone p k true) s fun t =>
          tabFind t.buf.copies c = some { x with spill := none })) ∧
    (Completes (.dramShareWindow q) s fun t => (bufQuad t q.val).beats = [] ∧ ∀ r, r ≠ q.val → bufQuad t r = bufQuad s r) ∧
    (tabGet 0 (bufQuad s q.val).scrubbing n.val = 1 → n.val ≠ 1 → Completes (.scrubPassDone q n) s fun t =>
      tabGet 0 (bufQuad t q.val).scrubbing n.val = 0) ∧
    (tabGet 0 (bufQuad s q.val).scrubbing n.val = 2 → n.val ≠ 1 → Completes (.scrubPassDone q n) s fun t =>
      tabGet 0 (bufQuad t q.val).scrubbing n.val = 1 ∧
      tabGet 0 (bufQuad t q.val).overruns n.val = satAdd 32 (tabGet 0 (bufQuad s q.val).overruns n.val) 1 ∧ logged 0x080B t)) ∧
  (∀ (q : Quad) (p : Port) (k : Fin 20) (cell c slot u : Nat) (x : Copy) (s : State),
    (Completes (.bufData q cell) s fun t => raisedLast 30 7 q.val t ∧ (cell, s.now) ∈ (bufQuad t q.val).suspect) ∧
    (Completes (.bufLink q none) s fun t => raised 31 7 q.val s t ∧ (bufQuad t q.val).rebuilds = (bufQuad s q.val).rebuilds ++ [31]) ∧
    (tabFind s.buf.copies c = some x → x.gone = false → x.started = false → x.quad = q.val →
      (holders s q.val cell = [c] → x.spill = none → (Completes (.bufData q cell) s fun t => counted (cSwcDrops 0x26) q.val 1 s t) ∧
        Completes (.bufLink q (some cell)) s fun t => raisedLast 31 7 q.val t ∧ counted (cSwcDrops 0x26) q.val 1 s t) ∧
      Completes (.bufDesc q c false) s fun t => raisedLast 33 7 q.val t ∧ counted (cSwcDrops 0x26) q.val 1 s t) ∧
    (Completes (.bufDesc q c true) s fun t => raised 33 7 q.val s t ∧ counted cBufDescDoubleFrees q.val 1 s t ∧ logged 0x0803 t ∧ t.buf = s.buf) ∧
    (Completes (.bufCount p k) s fun t => raised 34 7 (quadOfPort p.val) s t ∧ (bufQueue t (queueNo p.val k.val)).rebuilding = true ∧
      (bufQuad t (quadOfPort p.val)).rebuilds = (bufQuad s (quadOfPort p.val)).rebuilds ++ [34]) ∧
    (∀ b l, (bufQuad s q.val).rebuilds = b :: l → Completes (.poolRebuild q) s fun t => (bufQuad t q.val).rebuilds = l ∧ logged 0x0804 t) ∧
    ((bufQueue s (queueNo p.val k.val)).spilling = true → Completes (.spillOrder p k) s fun t =>
      raisedLast 37 7 (quadOfPort p.val) t ∧ logged 0x080A t ∧ (bufQueue t (queueNo p.val k.val)).spilling = false) ∧
    (slot / 16 < 3145728 → Completes (.dramData q slot) s fun t => raised 35 10 q.val s t ∧
      (tabGet {} (bufQuad t q.val).blocks (slot / 16)).bad = true) ∧
    (Completes (.dramLink q) s fun t => raised 36 10 q.val s t ∧ (bufQuad t q.val).retrain = some ((bufQuad s q.val).retrain.getD s.now)) ∧
    (∀ a, (bufQuad s q.val).retrain = some a →
      (Completes (.dramRetrain q) s fun t => (bufQuad t q.val).retrain = none ∧ logged 0x0809 t) ∧
      (quadOfPipe (frameOf s u).pipe = q.val →
        ((∃ r ∈ hostReads s q.val, r.frame = u) → Completes (.dramRequestTimeout q u) s fun t => counted (cHostStatus 4) q.val 1 s t ∧
          a + 20 * tUs ≤ t.now ∧ ∀ r ∈ hostReads t q.val, r.frame ≠ u) ∧
        (∀ w, (∀ r ∈ hostReads s q.val, r.frame ≠ u) → walkOf s q.val u = some w → Completes (.dramRequestTimeout q u) s fun t =>
          counted (cTreeStatus 5) q.val 1 s t ∧ walkOf t q.val u = none ∧ a + 20 * tUs ≤ t.now))))

/-! ### The switching core -/

/-- FRAME_DECISION (R164, R261, R308, R316): the first rule that holds drops the frame, sends it to inspection, recirculates it or forms its
transfer; one that must keep its order waits. Stated without ingress mirror copies. Transfers (R288, R289, R309, R311, R321, R322, R327): a
flit brings its transfer to the relay or to its admission unit, where one copy joins its queue or is refused with its reason; holds end by a
flush and old lists are freed. -/
def Obligations.DecisionsReachTheirQueues : Prop :=
  (∀ (u : Nat) (v : Frame) (s : State), tabFind s.fr.frames u = some v →
    v.place = .decide → decidedLater s u = false → v.ended = true → ingressSessions s v = [] →
    let q := quadOfPipe v.pipe
    let f0 := metaF v 0
    let f6 := metaF v 6
    (v.bad ≠ 0 → v.bad < 256 → Completes (.frameDecision u) s fun t => counted (cSwcDrops v.bad) q 1 s t) ∧
    (v.bad = 0 → bits f0 16 8 ≠ 0 → Completes (.frameDecision u) s fun t => counted (cSwcDrops (dropReasonOf (bits f0 16 8))) q 1 s t) ∧
    (v.bad = 0 → bits f0 16 8 = 0 →
      (bits f6 8 2 ≠ 0 → v.returned = false → inspectUsed s q + (v.data.length + 255) / 256 ≤ 32768 → Completes (.frameDecision u) s fun t =>
        (frameOf t u).place = .inspect ∧ ∃ r ∈ inspReqs t q, r.frame = u) ∧
      ((bits f6 8 2 = 0 ∨ v.returned = true) → bit (metaF v 3) 1 = true → v.passes < 4 → recircUsed s v.pipe + v.data.length ≤ 131072 →
        Completes (.frameDecision u) s fun t => (frameOf t s.fr.next).passes = v.passes + 1 ∧ (frameOf t s.fr.next).source = 1 ∧
          (frameOf t s.fr.next).data = v.data ∧ counted cSwcRecirc q 1 s t) ∧
      ((bits f6 8 2 = 0 ∨ v.returned = true) → bit (metaF v 3) 1 = false →
        (waitsInOrder (learnRequest u s) u = true → orderQueue s v.pipe < 1024 → Completes (.frameDecision u) s fun t =>
          (frameOf t u).place = .ordered ∧ counted cInspectOrderWaits v.pipe 1 s t ∧ t.sw.transfers = s.sw.transfers) ∧
        (waitsInOrder (learnRequest u s) u = false → bits f0 30 2 = 0 → mirrorAndGroup v / 65536 = 0 →
          (bit f0 15 = false → Completes (.frameDecision u) s fun t => counted (cSwcDrops 0x19) q 1 s t) ∧
          (bit f0 15 = true → configured s (bits f0 0 10) = true → bits f0 10 5 ≤ 19 → quadOfPort (bits f0 0 10) = q →
            u32 (portAdmit s v.port) (32 + 4 * traffic v) = 0 →
            (∀ colour w, policeFrame u (learnRequest u s) = (colour, false, w) → Completes (.frameDecision u) s fun t =>
              ∃ x, t.sw.transfers = s.sw.transfers ++ [x] ∧ x.frame = u ∧ x.src = q ∧ x.dst = q ∧
                x.dest = .unicast (bits f0 0 10) (bits f0 10 5) ∧ x.place = .admission ∧ x.colour = colour)))))) ∧
  (∀ (n p k : Nat) (d : LinkDir) (port : Port) (g : Fin 65536) (x : Transfer) (s : State),
    (s.sw.transfers.find? (fun y => y.id == n) = some x → x.place = .admission → admissionWaits s x = false → x.dest = .unicast p k →
      (frameOf s x.frame).bad = 0 → quadFenced s x.dst = false → configured s p = true → portTakes s p = true →
      let y := copyFor s x p k
      let cells := reservation (frameOf s x.frame) (transferTrunc s x)
      (admitReason s y cells = 0 → (takeCells x.dst cells s).isSome = true → Completes (.transferAdmission n false) s fun t =>
        x ∉ t.sw.transfers ∧ (bufQueue t (queueNo p k)).fifo = (bufQueue s (queueNo p k)).fifo ++ [s.buf.nextCopy] ∧
        ∃ z, tabFind t.buf.copies s.buf.nextCopy = some z ∧ z.frame = x.frame ∧ z.quad = x.dst ∧ z.port = p ∧ z.queue = k ∧
          z.cells.length = cells ∧ z.guar + z.shared + z.headroom = cells) ∧
      (∀ r, admitReason s y cells = r → r ≠ 0 → Completes (.transferAdmission n false) s fun t => counted (cSwcDrops r) x.dst 1 s t ∧
        t.buf.copies = s.buf.copies)) ∧
    (s.sw.transfers.find? (fun y => y.id == n && nextDir y == some d.val) = some x → x.place = .send → fifoWaits s x = false →
      dirUp s (dirEnds d.val).1 (dirEnds d.val).2 = true →
      (x.via = none → Completes (.meshFlitReceived d n 0) s fun t => { x with place := .admission } ∈ t.sw.transfers) ∧
      (∀ r, x.via = some r → relayUsed s r x.dst + x.resv ≤ relayRoom →
        (Completes (.meshFlitReceived d n 0) s fun t => { x with place := .arrived } ∈ t.sw.transfers) ∧
        Completes (.meshFlitReceived d n 1) s fun t => { x with place := .arrived } ∈ t.sw.transfers ∧ counted cMeshCorrected d.val 1 s t) ∧
      (x.via = none → Completes (.meshFlitReceived d n 2) s fun t => t.sw = s.sw ∧ counted cMeshReplays d.val 1 s t)) ∧
    (s.sw.transfers.find? (fun y => y.id == n && y.place == .arrived) = some x →
      ((s.sw.transfers.takeWhile fun y => y.id != n).any fun y => y.place == .arrived && y.src == x.src && y.via == x.via) = false →
      Completes (.relayTransfer n) s fun t => t.sw.transfers.getLast? = some { x with place := .relay }) ∧
    (∀ a, tabFind s.sw.hold port.val = some a → Completes (.holdExpiry port) s fun t => tabFind t.sw.hold port.val = none ∧ logged 0x0908 t ∧
      a + portHoldUs s port.val * tUs ≤ t.now ∧ counted cSwcFlushes port.val 1 s t) ∧
    (∀ y, tabFind s.sw.groups g.val = some y → Completes (.mcastOldListFree g) s fun t =>
      tabFind t.sw.groups g.val = some { y with old := y.old.filter fun z => versionUsed s g.val z.1 }))

/-- Faults of mesh and switching core (R333, R335): a link or direction that fails loses what is on it and trains again, a bad list or session
is reloaded, and a bad transfer or frame is dropped. -/
def Obligations.SwitchFaultsAreContained : Prop := ∀ (d : LinkDir) (l : LinkNo) (q : Quad) (i : Fin 16) (p : Port) (n u g : Nat) (x : Transfer) (s : State),
  (Completes (.meshCreditAudit d true) s fun t => raised 40 12 d.val s t ∧ t.sw = s.sw) ∧
  (Completes (.meshCreditAudit d false) s fun t => t = s) ∧
  (∀ a, tabFind s.sw.dirDown d.val = some a → Completes (.meshRetrain d) s fun t => tabFind t.sw.dirDown d.val = none ∧ logged 0x0901 t) ∧
  (l.val ∉ s.sw.linkDown → Completes (.meshLink l) s fun t => raisedLast 39 11 l.val t ∧ t.sw.linkDown = l.val :: s.sw.linkDown ∧ logged 0x0902 t ∧
    ∀ y ∈ t.sw.transfers, nextDir y ≠ some (2 * l.val) ∧ nextDir y ≠ some (2 * l.val + 1)) ∧
  (l.val ∈ s.sw.linkDown → linkFenced s l.val = false → Completes (.meshTrainRetry l true) s fun t => l.val ∉ t.sw.linkDown ∧ logged 0x0903 t) ∧
  (Completes (.meshTrainRetry l false) s fun t => t = s) ∧
  (Completes (.meshMgmt l) s fun t => raised 41 11 l.val s t ∧ t.sw = s.sw) ∧
  (∀ m ver, s.sw.transfers.find? (fun y => y.id == n && y.place == .admission) = some x → x.dest = .mcast m ver → Completes (.swcRepl n) s fun t =>
    raised 42 7 x.dst s t ∧ logged 0x090D t ∧ x.dst ∈ (tabGet {} t.sw.groups m).reloading) ∧
  (Completes (.swcMirror q i) s fun t => raised 43 13 (16 * q.val + i.val) s t ∧ logged 0x090D t ∧
    (sessionAt t (16 * q.val + i.val)).reloading = true) ∧
  (Completes (.switchReload q (some i) g) s fun t => sessionAt t (16 * q.val + i.val) = { sessionAt s (16 * q.val + i.val) with reloading := false }) ∧
  (Completes (.switchReload q none g) s fun t => q.val ∉ (tabGet {} t.sw.groups g).reloading) ∧
  (s.sw.transfers.find? (fun y => y.id == n && y.src == q.val && y.place != .admission) = some x → Completes (.swcPath q (some n) none) s fun t =>
    raisedLast 44 7 q.val t ∧ counted (cSwcDrops 0x2A) q.val 1 s t ∧ x ∉ t.sw.transfers) ∧
  (quadOfPipe (frameOf s u).pipe = q.val → (frameOf s u).place = .ordered → Completes (.swcPath q none (some u)) s fun t =>
    raisedLast 44 7 q.val t ∧ counted (cSwcDrops 0x2A) q.val 1 s t) ∧
  (Completes (.swcPath q none none) s fun t => raised 44 7 q.val s t ∧ t.sw = s.sw) ∧
  (Completes (.swcFlush p) s fun t => raised 45 4 p.val s t ∧ t.sw = s.sw)

/-! ### Policing, scheduling and gates -/

/-- The scheduler's objects read as they stand; writes are staged for the refill, the round or the cycle that applies them, and a divided queue
takes its leaves at once (R346, R347, R354, R356 to R359, R362, R367). -/
def Obligations.SchedulerObjectsReadAndWrite : Prop := ∀ (c : Cmd) (s : State),
  let b := given c s
  let p := u16 b 0
  Reads opPolicerRead c (.policerRead c) s (policerObj s (policerNo (u8 b 0) (u32 b 4))) ∧
  Writes opPolicerWrite c (.policerWrite c) s (fun t =>
    policerAt t (policerNo (u8 b 0) (u32 b 4)) = { policerAt s (policerNo (u8 b 0) (u32 b 4)) with staged := some b }) ∧
  Reads opShaperProfileRead c (.shaperProfileRead c) s (putField (shaperProfile s (u8 b 0).log2 (u16 b 2)) 0 1 (u8 b 0)) ∧
  Writes opShaperProfileWrite c (.shaperProfileWrite c) s (fun t => t.sch.shapers = s.sch.shapers ∧ ∀ q, q < 4 → bit (u8 b 0) q = true →
    tabFind t.sch.shapersStaged (4096 * q + u16 b 2) = some (putField b 0 1 0)) ∧
  Reads opPortSchedRead c (.portSchedRead c) s (portSchedObj s p) ∧
  ((∀ k, k < 20 → u8 b (8 + k) = queueClass s p k ∨ copiesWith s (inQueue (queueNo p k)) = []) →
    Writes opPortSchedWrite c (.portSchedWrite c) s fun t => portSched t p = { portSched s p with staged := some b }) ∧
  Reads opExtQueueRead c (.extQueueRead c) s ((extQueue s (queueNo p (u8 b 2))).getD (image 16 [(0, 2, p), (2, 1, u8 b 2)])) ∧
  (let no := queueNo p (u8 b 2)
   (∀ i, i < u16 b 4 → u8 b (16 + i) ≠ 0) → copiesWith s (inQueue no) = [] →
    (s.bufferProfile = 1 → spillOn (queueProfile s p (u8 b 2)) = 0) → passes opExtQueueWrite c s = true →
    (u16 b 4 = 0 → Completes (.extQueueWrite c) s fun t => answered opExtQueueWrite c .ok (toLe 4 0) [] s t ∧ extQueue t no = none ∧ logged 0x0A05 t) ∧
    (∀ f, u16 b 4 ≠ 0 → placeLeaves (leavesUsed s (quadOfPort p) no) (u16 b 4) = some f → Completes (.extQueueWrite c) s fun t =>
      answered opExtQueueWrite c .ok (toLe 4 f) [] s t ∧ extQueue t no = some (putField b 8 4 f) ∧ logged 0x0A05 t)) ∧
  Reads opGateListRead c (.gateListRead c) s ((portSched s p).gates.getD (image 24 [(0, 2, p)])) ∧
  ((∀ k, k < gateCount b → badGateEntry b (24 + 8 * k) = none) →
    Writes opGateListWrite c (.gateListWrite c) s fun t => portSched t p = { portSched s p with gatesStaged := some b }) ∧
  Reads opPortSchedStatus c (.portSchedStatus c) s (portSchedStatus s p)

/-- Refills and gates (R337, R343, R347, R355, R361, R362): a refill applies the staged policers and shapers and fills every bucket of its
quadrant, a cycle start brings a due list into force at its first entry, and entries follow one another. -/
def Obligations.RefillsAndGateCyclesApply : Prop := ∀ (q : Quad) (d : Domain') (i : Fin 512) (p : Port) (o : Bytes) (s : State),
  (Completes (.refillInstant q) s fun t =>
    (∀ k v, tabFind s.sch.policers k = some v →
      tabFind t.sch.policers k = some (if k / 131072 = q.val then refillPolicer (applyPolicer v) else v)) ∧
    (∀ n v, tabFind s.sch.ports n = some v → tabFind t.sch.ports n = some (if quadOfPort n = q.val then
      { v with buckets := refillBuckets (modSch (applyShapers q.val) s) n v.buckets } else v)) ∧
    (∀ k, k / 4096 = q.val → tabFind t.sch.shapersStaged k = none) ∧
    (∀ n x, n < 4096 → s.sch.shapersStaged = [(4096 * q.val + n, x)] → shaperProfile t q.val n = x)) ∧
  (firesNext s (quadOfPort (entryTarget (entryOf s d.val i.val))) d.val i.val 3 = true →
    let n := entryTarget (entryOf s d.val i.val)
    configured s n = true → (portSched s n).reloading = false → Completes (.gateCycle d i) s fun t => counted cSchCycles n 1 s t ∧
      (portSched t n).gateEntry = 0 ∧ (portSched t n).gateStart.isSome = true ∧
      (∀ x, (portSched s n).gatesStaged = some x → gateDue s n x = true → (portSched t n).gates = some x ∧ (portSched t n).gatesStaged = none ∧
        logged 0x0A01 t) ∧
      ((portSched s n).gatesStaged = none → (portSched t n).gates = (portSched s n).gates)) ∧
  (∀ a e, liveGates (portSched s p.val) = some (o, a, e) → (portSched s p.val).gateEntry + 1 < gateCount o → (portSched s p.val).reloading = false →
    (a : Int) + entryOffset o ((portSched s p.val).gateEntry + 1) ≤ copyNs (copyOf s (quadOfPort p.val) e) → cycleEntries s p.val = [] →
    Completes (.gateEntryStart p) s fun t => (portSched t p.val).gateEntry = (portSched s p.val).gateEntry + 1)

/-- Transmission (R110, R318, R350, R351, R365): the chosen head copy leaves its queue and starts, an express copy cuts in at a legal point,
a cut-off frame goes on, a complete one leaves with its FCS, and one that runs out of bytes is stomped. Faults of scheduling and policing
(R370): a port's credits restart while its configuration is reloaded, and a policer acts as mode 0 until it is reloaded with full buckets. -/
def Obligations.PortsTransmitAndReload : Prop :=
  (∀ (p : Port) (sent ahead id cls k : Nat) (leaf : Option Nat) (ets leafN : Option SchedNode)
      (node : SchedNode) (x : Copy) (a : Tx) (err : Int) (s : State),
    let v := portSched s p.val
    let no := queueNo p.val k
    (portActive s p.val = true → farEnd s p.val = false → inRangeI err (-stampError) stampError = true →
      let s0 := if noRound s p.val = true then switchSched p.val s else s
      oversizedHead s0 p.val = none →
      (v.tx = none → v.preempted = none → chooseNow s0 { express := v.gateHold } p.val = .copy id cls k leaf ets node leafN →
        tabFind s.buf.copies id = some x → x.port = p.val → x.queue = k →
        (copyAged s0 x = false → Completes (.schedulerSelect p sent ahead err) s fun t => (∃ y, (portSched t p.val).tx = some y ∧ y.copy = id) ∧
          (copyAt t id).started = true ∧ id ∉ (bufQueue t no).fifo ∧ counted cSchFrames no 1 s t) ∧
        (copyAged s0 x = true → Completes (.schedulerSelect p sent ahead err) s fun t => (portSched t p.val).tx = none ∧
          counted cSwcAged no 1 s t ∧ counted (cSwcDrops 0x2C) x.quad 1 s t)) ∧
      (v.tx = some a → v.preempted = none → legalPoint s p.val sent a = true →
        let cut := count cPreFragTx p.val 1 (modPortSched p.val (fun y => { y with tx := none, preempted := some { a with sent } }) s0)
        chooseNow cut { express := true } p.val = .copy id cls k leaf ets node leafN → tabFind s.buf.copies id = some x → x.port = p.val →
        copyAged cut x = false → Completes (.schedulerSelect p sent ahead err) s fun t => (portSched t p.val).preempted = some { a with sent } ∧
          (∃ y, (portSched t p.val).tx = some y ∧ y.copy = id) ∧ counted cPreFragTx p.val 1 s t) ∧
      (v.tx = none → v.preempted = some a → v.gateHold = false → chooseNow s0 { express := true } p.val = .nothing →
        Completes (.schedulerSelect p sent ahead err) s fun t => (portSched t p.val).tx = some a ∧ (portSched t p.val).preempted = none)) ∧
    (v.tx = some a → tabFind s.buf.copies a.copy = some x → x.port = p.val →
      ((frameOf s x.frame).ended = true → (frameOf s x.frame).bad = 0 → Completes (.txFrameEnd p false) s fun t => (portSched t p.val).tx = none ∧
        .transmit p.val (wireBytes (frameOf s x.frame) x a) false ∈ t.out ∧ counted cTxFrames p.val 1 s t) ∧
      ((frameOf s x.frame).ended = false → sent ≤ (txBody (frameOf s x.frame) x a).length → Completes (.cutThroughUnderrun p sent) s fun t =>
        let b := (txBody (frameOf s x.frame) x a).take sent
        (portSched t p.val).tx = none ∧ .transmit p.val (b ++ badFcs b) true ∈ t.out ∧ counted cSwcStomped p.val 1 s t ∧
        counted (cSwcDrops 0x2E) x.quad 1 s t))) ∧
  (∀ (p : Port) (q : Quad) (i : Fin 131072) (s : State),
    let n := policerNo q.val i.val
    (Completes (.schState p) s fun t => raised 46 4 p.val s t ∧ logged 0x0A03 t ∧ portSched t p.val = resetSched s p.val (portSched s p.val)) ∧
    (Completes (.schedReload p) s fun t => portSched t p.val = { portSched s p.val with reloading := false }) ∧
    (Completes (.polState q i) s fun t => raised 47 14 n s t ∧ logged 0x0A04 t ∧ policerAt t n = { policerAt s n with reloading := true }) ∧
    ((policerAt s n).reloading = true → Completes (.policerReload q i) s fun t => policerAt t n = { policerAt s n with
      reloading := false, tc := burstUnits (polCbs (policerAt s n).obj), te := burstUnits (polEbs (policerAt s n).obj) }))

/-! ### Telemetry and background work -/

/-- The objects of telemetry read as they stand and writes take effect; a counter read answers the values of its scope in its bank
(R377 to R380, R384, R386, R390 to R392). -/
def Obligations.TelemetryObjectsReadAndWrite : Prop := ∀ (c : Cmd) (s : State),
  let b := given c s
  (∀ snap, readBank s (u8 b 0) (u8 b 1) = some snap → Reads opCounterRead c (.counterRead c) s
    (counterReply s (u8 b 0) (u8 b 1) snap ((List.range (u16 b 10)).map fun i =>
      if readsZero s (u8 b 0) (u8 b 2) (u32 b 4) (u16 b 8 + i) then none else some (valueKey (u8 b 0) (u8 b 2) (u32 b 4) (u16 b 8 + i))))) ∧
  Reads opTelemetryProfileRead c (.telemetryProfileRead c) s (putField (telemetryProfile s (u8 b 0).log2 (u8 b 1)) 0 1 (u8 b 0)) ∧
  (unitBroken b = false → Writes opTelemetryProfileWrite c (.telemetryProfileWrite c) s fun t => ∀ q, q < 4 → bit (u8 b 0) q = true →
    telemetryProfile t q (u8 b 1) = putField b 0 1 0 ∧ tabFind t.tel.postcardCount (256 * q + u8 b 1) = none) ∧
  Reads opExporterRead c (.exporterRead c) s (exporterObj s (u8 b 0)) ∧
  Writes opExporterWrite c (.exporterWrite c) s (fun t => exporterOf t (u8 b 0) = { exporterOf s (u8 b 0) with obj := b } ∧
    ∀ e, e ≠ u8 b 0 → exporterOf t e = exporterOf s e) ∧
  Reads opObserverGrantRead c (.observerGrantRead c) s ((tabFind s.tel.grants (u8 b 0)).getD (grantDefault (u8 b 0))) ∧
  Writes opObserverGrantWrite c (.observerGrantWrite c) s (fun t => tabFind t.tel.grants (u8 b 0) = some b ∧ logged 0x0C07 t ∧
    ∀ i, i ≠ u8 b 0 → tabFind t.tel.grants i = tabFind s.tel.grants i)

/-- Freezes and rollovers (R374, R375, R383): a die that fires one latches its values under the next number, or counts it missed with two
unpublished; the bank is published once every die has finished. Exporters, scrubs and background tasks (R29, R30, R32, R273, R300, R391,
R395): an epoch sends what its exporter holds, a scrub epoch starts its class's pass or finds it late, overruns are counted, and lost words
and records are marked and logged. -/
def Obligations.SnapshotsAndBackgroundTasks : Prop :=
  (∀ (q : Quad) (d : Domain') (i : Fin 512) (n : Nat) (w : Sweep) (s : State),
    (firesNext s q.val d.val i.val 1 = true → q.val ∉ s.tel.latchedInTick → unfired s.tel.freezes q.val = none →
      (unpublished s.tel.freezes < 2 → Completes (.counterFreeze q d i) s fun t => ∃ x, t.tel.freezes = s.tel.freezes ++ [x] ∧
        x.snap.seq = nextSeq32 s.tel.freezeSeq ∧ x.missed = false ∧ tabFind x.fired q.val = some s.now ∧
        x.snap.values = (dieCounters s q.val).foldl (fun m e => tabPut e.1 e.2 m) []) ∧
      (2 ≤ unpublished s.tel.freezes → Completes (.counterFreeze q d i) s fun t => counted cTelFreezeMissed q.val 1 s t ∧
        t.tel.freezeSeq = s.tel.freezeSeq ∧ logged 0x0C01 t)) ∧
    (runningSweep s q.val = some n → s.tel.freezes[n]? = some w → Completes (.freezeSweepDone q) s fun t =>
      ∃ x, t.tel.freezes[n]? = some x ∧ q.val ∈ x.done ∧ x.snap = w.snap) ∧
    (s.tel.freezes.find? (fun w => !w.missed) = some w → 4 ≤ w.done.length → Completes .freezePublish s fun t =>
      t.tel.frozen = some w.snap ∧ t.tel.previous = s.tel.frozen) ∧
    (firesNext s q.val d.val i.val 2 = true → unfired s.tel.rollovers q.val = none →
      (unpublished s.tel.rollovers = 0 → Completes (.histogramRollover q d i) s fun t => t.tel.rolloverSeq = nextSeq32 s.tel.rolloverSeq ∧
        ∀ k, tabFind t.tel.hist k = if dieOfHist k = q.val then none else tabFind s.tel.hist k) ∧
      (1 ≤ unpublished s.tel.rollovers → Completes (.histogramRollover q d i) s fun t => counted cTelRolloverMissed q.val 1 s t ∧
        t.tel.hist = s.tel.hist ∧ logged 0x0C02 t)) ∧
    (s.tel.rollovers.find? (fun w => !w.missed) = some w → 4 ≤ w.fired.length → Completes .rolloverPublish s fun t => t.tel.closed = some w.snap)) ∧
  (∀ (q : Quad) (d : Domain') (i : Fin 512) (e : Fin 4) (eng : Engine) (o n key : Nat) (s : State),
    let target := entryTarget (entryOf s d.val i.val)
    (firesNext s q.val d.val i.val 0x12 = true →
      (target ≠ q.val → Completes (.telemetryEpoch q d i) s fun t => t.tel.exporters = s.tel.exporters) ∧
      (∀ r, target = q.val → exporterOn s q.val = true → (exporterOf s q.val).down = false → (exporterOf s q.val).waiting = [r] →
        r.length ≤ exportRoom (exporterOf s q.val) → Completes (.telemetryEpoch q d i) s fun t => (exporterOf t q.val).waiting = [] ∧
          (exporterOf t q.val).seq = wrapAdd 32 (exporterOf s q.val).seq 1 ∧ counted cTelExportFrames q.val 1 s t)) ∧
    (firesNext s q.val d.val i.val 0x11 = true → Completes (.scrubEpoch q d i) s fun t =>
      tabGet 0 (bufQuad t q.val).scrubbing target = if tabGet 0 (bufQuad s q.val).scrubbing target = 0 then 1
        else max (tabGet 0 (bufQuad s q.val).scrubbing target) 2) ∧
    (∀ c : Fin 6, c.val < 4 → tabGet 0 (bufQuad s q.val).scrubbing c.val = 2 → Completes (.backgroundPeriodEnd q c) s fun t =>
      tabGet 0 (bufQuad t q.val).scrubbing c.val = 3 ∧ logged 0x080B t) ∧
    (∀ w, runningSweep s q.val = some n → s.tel.freezes[n]? = some w → q.val ∉ w.late → tabGet 0 w.fired q.val + tMs < s.now →
      Completes (.backgroundPeriodEnd q 4) s fun t => counted cTelSweepOverruns q.val 1 s t) ∧
    (Completes (.backgroundPeriodEnd q 5) s fun t => t.pow.overruns = satAdd 32 s.pow.overruns 1) ∧
    (Completes (.backgroundSlotGrant (some eng) none true) s fun t => engineOf t eng.val = { engineOf s eng.val with
      cleanSec := (datapathStamp s 0).sec, cleanNs := (datapathStamp s 0).ns }) ∧
    (Completes (.backgroundSlotGrant (some eng) (some o) false) s fun t => raised 28 9 eng.val s t ∧ logged 0x0704 t ∧ t.sig = s.sig) ∧
    (dieOfHist key = q.val → Completes (.telCounter q true key) s fun t => raised 51 7 q.val s t ∧ logged 0x0C04 t ∧
      tabFind t.tel.histInexact key = some true ∧ counted cTelInexact q.val 1 s t) ∧
    (dieOfKey key = q.val → Completes (.telCounter q false key) s fun t => raised 51 7 q.val s t ∧ logged 0x0C04 t ∧
      tabFind t.tel.inexact key = some true) ∧
    (Completes (.telExport e n) s fun t => raised 52 16 e.val s t ∧ logged 0x0C06 t ∧ (exporterOf t e.val).down = true ∧
      (exporterOf t e.val).waiting = (exporterOf s e.val).waiting.drop (min n (exporterOf s e.val).waiting.length)) ∧
    (Completes (.telExportReload e) s fun t => exporterOf t e.val = { exporterOf s e.val with down := false }))

/-! ### Power, temperature, voltage and ageing -/

/-- POWER_CAP, POWER_STATUS, AGEING_STATUS and ENERGY_READ (R409 to R411, R414, R425, R426): the status objects answer the state, and a cap
write is in force whether or not the floor lets it be reached. -/
def Obligations.PowerObjectsReadAndWrite : Prop := ∀ (c : Cmd) (s : State),
  let b := given c s
  Reads opPowerCapRead c (.powerCapRead c) s (powerCap s) ∧
  (b ≠ [] → passes opPowerCapWrite c s = true → Completes (.powerCapWrite c) s fun t => powerCap t = b ∧ logged 0x0D01 t ∧
    ∃ st, answered opPowerCapWrite c st [] [] s t ∧ (st = .ok ∨ st = .capUnreachable) ∧ (u32 b 0 = 0 → st = .ok)) ∧
  Reads opPowerStatus c (.powerStatus c) s (powerStatusObj s) ∧
  Reads opAgeingStatus c (.ageingStatus c) s (ageingStatusObj s (u8 b 0)) ∧
  (∀ snap, readBank s 0 (u8 b 0) = some snap → Reads opEnergyRead c (.energyRead c) s
    (counterReply s 0 (u8 b 0) (if u8 b 0 = 0 then { snap with values := s.pow.energy } else snap)
      ((List.range (u16 b 8)).map fun k => some (counterKey 0 (u8 b 1) (u32 b 4 + k) 0))))

/-- The control loops (R401, R402, R406, R408, R411, R412, R415 to R418): a cycle takes its measurements and arms its die, lanes step with
the link level and back, sensors are sampled, a trip stops the device, and the regulator is led to its target by steps of 10 mV. Ageing
(R419, R421 to R424, R531, R540): gauges and margins are sampled at their epochs, heat-work accumulates by the second, lanes are re-planned
at the day's end, and what Icoux keeps is saved to the data area. -/
def Obligations.PowerLoopsAndAgeing : Prop :=
  (∀ (q : Quad) (d : Domain') (i : Fin 512) (l : Lane) (k : Fin 3) (die : Fin 12) (sensor : Fin 20)
      (m : PowerIn) (readings : List Int) (scale other height mv cmd st : Nat) (s : State),
    let e := entryOf s d.val i.val
    (powerFires s q.val d.val i.val 0 = true → icouxTakes s = true → s.pow.cycle ≠ instantOn e q.val → Completes (.powerCycle q d i m) s fun t =>
      t.pow.last = m ∧ t.pow.cycleAt = s.now ∧ t.pow.cycle = instantOn e q.val ∧
      (entryTarget e = partitionOf s q.val → tabGet 0 t.pow.armed q.val = partitionN t (partitionOf t q.val))) ∧
    (Completes (.bubbleFrameStart q) s fun t => tabGet 0 t.pow.inForce q.val = tabGet 0 s.pow.armed q.val ∧
      (tabGet 0 s.pow.armed q.val ≠ 0 → tabFind t.pow.bubbleAt (partitionOf s q.val) = some (stampTotal (datapathStamp s q.val)))) ∧
    (laneState s l.val = 7 → (laneOf s l.val).modeInUse ≠ wantedMode s l.val → Completes (.laneEqStep l) s fun t =>
      (laneOf t l.val).modeInUse = wantedMode s l.val ∧ ((laneOf t l.val).eqReduced = true ↔ laneMode s l.val < wantedMode s l.val)) ∧
    (∀ a, (laneOf s l.val).stepAt = some a →
      (height * 100 < (laneOf s l.val).reference.getD 0 * u8 (powerCap s) 17 → Completes (.laneStepCheck l height) s fun t =>
        (laneOf t l.val).modeInUse = laneMode s l.val ∧ (laneOf t l.val).stepAt = none ∧ a + tMs ≤ t.now ∧
        (laneAge t l.val).barredUntil = t.now + 86400 * tSec ∧ logged 0x0D0C t) ∧
      ((laneOf s l.val).reference.getD 0 * u8 (powerCap s) 17 ≤ height * 100 → Completes (.laneStepCheck l height) s fun t =>
        (laneOf t l.val).modeInUse = (laneOf s l.val).modeInUse ∧ (laneOf t l.val).stepAt = none ∧ a + tMs ≤ t.now)) ∧
    (icouxTakes s = true → Completes (.energyCalibration q k scale other) s fun t =>
      energyScale t q.val k.val = max 52429 (min 81920 scale) ∧ (max 52429 (min 81920 scale) ≠ scale → raised 53 0 0 s t)) ∧
    (Completes (.tempSample readings) s fun t => (∀ n, n < 116 → (sensorOf t n).value = readings.getD n 0 ∧
        ((sensorOf s n).excluded = true → (sensorOf t n).excluded = true)) ∧ s.pow.sampleAt + 100 * tUs ≤ t.now ∧ t.pow.sampleAt = t.now) ∧
    (sensor.val < (dieSensors die.val).2 → s.boot.powered = true → Completes (.thermalTrip die sensor) s fun t => t.boot.tripped = true ∧
      t.boot.tripRecord = some (s.boot.tripRecord.getD (toLe 1 die.val ++ toLe 1 sensor.val)) ∧ t.out = .pin pinThermtrip false :: s.out ∧
      t.host = State.reset.host ∧ t.fr = State.reset.fr ∧ t.boot.slots = s.boot.slots) ∧
    (icouxTakes s = true → s.time.switch.phase ≠ .raising →
      (max s.pow.avs.target mv - min s.pow.avs.target mv ≤ 15 → Completes (.avsResponse mv false cmd st) s fun t =>
        t.pow.avs.reported = mv ∧ t.pow.avs.failed = 0 ∧
        t.pow.avs.target = if mv = s.pow.avs.target then nextTarget s.pow.avs.target (avsWant s) else s.pow.avs.target) ∧
      (Completes (.avsResponse mv true cmd st) s fun t => raised 55 0 0 s t ∧ logged 0x0D07 t ∧ t.pow.avs.target = s.pow.avs.target) ∧
      (s.pow.avs.failed < 2 → Completes (.avsTimeout cmd st) s fun t => t.pow.avs.failed = s.pow.avs.failed + 1 ∧ t.flt = s.flt) ∧
      (2 ≤ s.pow.avs.failed → Completes (.avsTimeout cmd st) s fun t => raised 55 0 0 s t ∧ t.pow.avs.failed = 0 ∧ logged 0x0D07 t))) ∧
  (∀ (q : Quad) (d : Domain') (i : Fin 512) (ppm : List Int) (eyes : List (Nat × Nat)) (s : State),
    (powerFires s q.val d.val i.val 1 = true → icouxTakes s = true → entryTarget (entryOf s d.val i.val) = partitionOf s q.val →
      Completes (.gaugeEpoch q d i ppm) s fun t => (∀ n, n < 64 → ppm.getD n 0 < 0 → n ∈ (gaugesOf t q.val).excluded) ∧
        (∀ n ∈ (gaugesOf s q.val).excluded, n ∈ (gaugesOf t q.val).excluded) ∧
        (gaugesOf t q.val).worst.length = min 10 ((gaugesOf s q.val).worst.length + 1)) ∧
    (powerFires s q.val d.val i.val 2 = true → icouxTakes s = true → Completes (.marginEpoch q d i eyes) s fun t =>
      ∀ l ∈ activeLanes s, quadOfPort l = q.val → (laneOf t l).eyeHeight = (eyes.getD (l % 256) (0, 0)).1 % 65536 ∧
        (laneOf t l).eyeWidth = (eyes.getD (l % 256) (0, 0)).2 % 65536 ∧ (laneAge t l).today.isSome = true) ∧
    (Completes .heatWorkAccumulate s fun t => s.pow.heatAt + tSec ≤ t.now ∧ t.pow.heatAt = t.now ∧
      ∀ n v, n < 4 → dieTemp s n = some v → tabGet 0 t.pow.heat n = tabGet 0 s.pow.heat n + (acceleration v / (3600 * 4294967296)).toNat) ∧
    ((datapathStamp s 0).sec / 86400 ≠ s.pow.day → Completes .laneReplan s fun t => t.pow.day = (datapathStamp s 0).sec / 86400 ∧
      ∀ l, (laneAge t l).today = none) ∧
    (icouxTakes s = true → Completes .dataAreaSave s fun t => t.boot.dataArea.heat = s.pow.heat ∧ t.boot.dataArea.ages = s.pow.ages ∧
      t.boot.dataArea.seq = wrapAdd 32 s.boot.dataArea.seq 1 ∧ t.boot.otherArea = s.boot.dataArea))

/-! ### The fault collector, test mode and the kiln log -/

/-- Sites follow their levels (R430, R434, R439, R440): a raise counts, latches its bit and gives its site a grace period or an evaluation; an
expired grace period evaluates the site, which stays, is fenced, resets the device or is held at its cap; a quiet site recovers. -/
def Obligations.SitesFollowTheirLevels : Prop := ∀ (b : Fin 63) (k i : Nat) (s : State),
  (∀ r rest, s.flt.inFlight = r :: rest →
    let x := raisedSite s r
    let ms := (policyOf s r.bit).graceMs
    let at_ := fun (t : State) => siteAt t r.bit r.kind r.index
    let taken := fun (t : State) => t.flt.raises = s.flt.raises + 1 ∧ t.flt.inFlight = rest ∧ (r.bit < 64 → t.flt.latch.getLsbD r.bit = true) ∧
      ((at_ s).isNone = true → logged 0x0E01 t)
    let beyond := (policyOf s r.bit).repeatLimit < x.count ∨ x.overran = true
    ((at_ s).isSome = true ∨ s.flt.sites.length < 1024 →
      (x.held = true ∨ insideFence s x = true → Completes .faultRaise s fun t => taken t ∧ at_ t = some x) ∧
      (x.held = false → insideFence s x = false →
        (ms ≠ 0 → Completes .faultRaise s fun t => taken t ∧
          at_ t = some { x with grace := if x.grace.isNone then some (s.now + ms * tMs) else x.grace }) ∧
        (ms = 0 → ¬ beyond → Completes .faultRaise s fun t => taken t ∧ at_ t = some x) ∧
        (ms = 0 → beyond → fenceOf x.bit ≠ .device → x.level ≠ .fenced → 2 ≤ siteCap s x → Completes .faultRaise s fun t =>
          (at_ t).map Site.level = some .fenced ∧ t.flt.raises = s.flt.raises + 1))) ∧
    ((at_ s).isNone = true → 1024 ≤ s.flt.sites.length → Completes .faultRaise s fun t => t.flt.sites = s.flt.sites ∧ logged 0x0E09 t ∧
      (r.bit ≠ 62 → raisedLast 62 0 0 t))) ∧
  (∀ x g, siteAt s b.val k i = some x → x.grace = some g →
    let at_ := fun (t : State) => siteAt t b.val k i
    let beyond := (policyOf s x.bit).repeatLimit < x.count ∨ x.overran = true
    (insideFence s x = true ∨ ¬ beyond → Completes (.graceExpiry b k i) s fun t => g ≤ t.now ∧
      at_ t = some { x with grace := none, count := 0, overran := false }) ∧
    (insideFence s x = false → beyond →
      let next := if fenceOf x.bit = .device ∨ x.level = .fenced then 3 else 2
      (siteCap s x < next → Completes (.graceExpiry b k i) s fun t => g ≤ t.now ∧ logged 0x0E05 t ∧ (at_ t).map Site.level = some x.level) ∧
      (next ≤ siteCap s x → next = 2 → Completes (.graceExpiry b k i) s fun t => (at_ t).map Site.level = some .fenced) ∧
      (next ≤ siteCap s x → next = 3 → Completes (.graceExpiry b k i) s fun t => t.boot.cause = 2 ∧ t.boot.stage = .bisque ∧ t.flt.sites = []))) ∧
  (∀ x, siteAt s b.val k i = some x → x.level = .contained → Completes (.quietExpiry b k i) s fun t => siteAt t b.val k i = none ∧ logged 0x0E03 t ∧
    x.last + (policyOf s b.val).quietMs * tMs ≤ t.now ∧ ∀ b' k' i', (b', k', i') ≠ (b.val, k, i) → siteAt t b' k' i' = siteAt s b' k' i')

/-- The collector's registers (R431, R449): ones written to FLT_LATCH clear, FLT_ALERT_EN takes what is written, the low half of a 64-bit
register latches its high half for the next read, and the kiln window latches 128 records from its cursor. The fault commands (R436 to R438,
R450): policies read and write, the actions clear, hold, release, fence and unfence, and FAULT_STATUS, FAULT_SITES and the kiln log's reads
answer what stands; a clear leaves only later records. -/
def Obligations.FaultRegistersAndCommands : Prop :=
  (∀ (lo hi : Option (BitVec 32)) (v : BitVec 32) (off : Nat) (s : State),
    (barLive s = true →
      Completes (.fltLatchWrite lo hi) s (fun t => t.flt.latch = s.flt.latch &&& ~~~(withHalves 0 lo hi) ∧ t.flt.alertEn = s.flt.alertEn) ∧
      Completes (.fltAlertEnWrite lo hi) s (fun t => t.flt.alertEn = withHalves s.flt.alertEn lo hi ∧ t.flt.latch = s.flt.latch) ∧
      Completes (.klnCursorWrite v) s (fun t => t.flt.cursor = v &&& 0x7FFF ∧ t.flt.latching = true ∧ t.flt.kiln = s.flt.kiln) ∧
      (∀ x, reg64 s off = some x →
        Completes (.reg64LowHalfRead off false) s (fun t => t.out = .barRead (x % 2 ^ 32) :: s.out ∧
          tabFind t.flt.halfLatch off = some (BitVec.ofNat 32 (x / 2 ^ 32))) ∧
        Completes (.reg64LowHalfRead off true) s (fun t => tabFind t.flt.halfLatch off = none ∧
          t.out = .barRead ((tabFind s.flt.halfLatch off).getD (BitVec.ofNat 32 (x / 2 ^ 32))).toNat :: s.out))) ∧
    (barLive s = false → Completes (.fltLatchWrite lo hi) s (fun t => t = s) ∧ Completes (.fltAlertEnWrite lo hi) s (fun t => t = s)) ∧
    (s.flt.latching = true → Completes .klnWindowLatched s fun t => t.flt.latching = false ∧ t.flt.window.length = 4096 ∧
      t.flt.window = slice (((s.flt.kiln.reverse.drop s.flt.cursor.toNat).take 128).flatMap recordBytes) 0 4096)) ∧
  (∀ (c : Cmd) (s : State),
    let b := given c s
    let v : Policy := { maxLevel := u8 b 8, flags := u8 b 9, repeatLimit := u16 b 10, graceMs := u16 b 12, quietMs := u16 b 14 }
    let w := policyOf s (policyBits b).log2
    let at_ := fun (t : State) => siteAt t (u8 b 0) (u8 b 2) (u32 b 4)
    let act := fun (P : State → Prop) => Writes opFaultAction c (.faultAction c) s P
    let xs := s.flt.sites.filter fun x => x.bit == u8 b 0
    let st := tabGet {} s.flt.stats (u8 b 0)
    let listed := (s.flt.sites.drop (u32 b 0)).take 256
    let rs := kilnRecords s (u16 b 0) (u16 b 2)
    let upto := BitVec.ofNat 32 (u32 b 0)
    let n := (s.flt.kiln.filter fun r => seqUpTo s.flt.nextSeq upto r.seq).length
    Writes opFaultPolicyWrite c (.faultPolicyWrite c) s (fun t => ∀ k, k < 63 →
      policyOf t k = if bit (policyBits b) k = true then v else policyOf s k) ∧
    Reads opFaultPolicyRead c (.faultPolicyRead c) s
      (image 16 [(0, 8, u64 b 0), (8, 1, w.maxLevel), (9, 1, w.flags), (10, 2, w.repeatLimit), (12, 2, w.graceMs), (14, 2, w.quietMs)]) ∧
    (u8 b 1 = 1 → act fun t => t.flt.latch = s.flt.latch &&& ~~~(BitVec.ofNat 64 (2 ^ u8 b 0)) ∧ logged 0x0E04 t ∧ t.flt.sites = s.flt.sites) ∧
    (∀ x, at_ s = some x →
      (u8 b 1 = 2 → x.level ≠ .fenced → act fun t => at_ t = some { x with held := true, grace := none } ∧ logged 0x0E04 t) ∧
      (u8 b 1 = 3 → x.level ≠ .fenced → (policyOf s x.bit).graceMs ≠ 0 → act fun t => logged 0x0E04 t ∧
        at_ t = some { x with held := false, grace := some (s.now + (policyOf s x.bit).graceMs * tMs) }) ∧
      (u8 b 1 = 4 → x.level ≠ .fenced → fenceOf (u8 b 0) ≠ .none → fenceOf (u8 b 0) ≠ .device → passes opFaultAction c s = true →
        Completes (.faultAction c) s fun t => (at_ t).map Site.level = some .fenced) ∧
      (u8 b 1 = 5 → x.level = .fenced → act fun t => at_ t = none ∧ logged 0x0E04 t)) ∧
    Reads opFaultStatus c (.faultStatus c) s
      (image 32 [(0, 1, u8 b 0), (1, 1, (xs.map fun x => levelCode x.level).foldl max 0), (2, 2, xs.length), (4, 4, st.raises), (8, 4, st.escalations),
        (12, 4, st.recoveries), (16, 8, st.sec), (24, 4, st.ns)]) ∧
    (passes opFaultSites c s = true → Completes (.faultSites c) s fun t => (∀ p, p ≠ .host → Same p s t) ∧
      answered opFaultSites c .ok (toLe 2 listed.length ++ toLe 2 s.flt.sites.length) (listed.flatMap (siteEntry s)) s t) ∧
    (passes opKilnRead c s = true → Completes (.kilnRead c) s fun t => (∀ p, p ≠ .host → Same p s t) ∧
      answered opKilnRead c .ok (toLe 2 rs.length) rs.flatten s t) ∧
    (passes opKilnClear c s = true → Completes (.kilnClear c) s fun t => answered opKilnClear c .ok (toLe 4 n) [] s t ∧ logged 0x0E0B t ∧
      ∀ r ∈ t.flt.kiln.tail, r ∈ s.flt.kiln ∧ seqUpTo s.flt.nextSeq upto r.seq = false))

/-- Test mode (R441, R442): FAULT_TEST_ENABLE answers a key, writing it in time begins test mode, a wrong or late key is void and the third
within 60 s locks the command for 60 s; an injection arms its point in place of the one it had. -/
def Obligations.TestModeNeedsItsKey : Prop := ∀ (c : Cmd) (key : BitVec 32) (s : State),
  let b := given c s
  let k := BitVec.ofNat 32 (Config.freeNat s.free)
  let i3c := (slotOf s c.slot.val).i3c
  let locks := fun (t : State) => 2 ≤ (s.flt.voided.filter fun x => s.now ≤ x + 60 * tSec).length → t.flt.lockedUntil = s.now + 60 * tSec
  let p : InjPoint := { bit := u8 b 0, kind := u8 b 1, flags := u8 b 2, siteKind := u8 b 3, siteIndex := u32 b 4, left := u16 b 8
                        intervalUs := u32 b 12 }
  (passes opFaultTestEnable c s = true → i3c = false →
    (s.flt.lockedUntil ≤ s.now → Completes (.faultTestEnable c) s fun t => answered opFaultTestEnable c .ok (toLe 4 k.toNat) [] s t ∧
      t.flt.pendingKey = some { key := k, slot := c.slot.val, issued := s.now } ∧ t.flt.testMode = s.flt.testMode) ∧
    (s.now < s.flt.lockedUntil → Completes (.faultTestEnable c) s fun t => answered opFaultTestEnable c .denied (toLe 2 0xFFFF) [] s t)) ∧
  (passes opFaultTestEnable c s = true → i3c = true → Completes (.faultTestEnable c) s fun t =>
    answered opFaultTestEnable c .notsup (toLe 2 0xFFFF) [] s t ∧ t.flt = s.flt) ∧
  (i3c = false → Writes opFaultTestDisable c (.faultTestDisable c) s fun t => t.flt.testMode = false ∧ (s.flt.testMode = true → t.flt.points = [])) ∧
  (passes opFaultTestDisable c s = true → i3c = true → Completes (.faultTestDisable c) s fun t =>
    answered opFaultTestDisable c .notsup (toLe 2 0xFFFF) [] s t ∧ t.flt = s.flt) ∧
  (∀ q, s.flt.pendingKey = some q →
    (barLive s = true → q.key = key → s.now ≤ q.issued + tSec → Completes (.fltTestKeyWrite key) s fun t => t.flt.testMode = true ∧
      t.flt.testSlot = q.slot ∧ t.flt.pendingKey = none ∧ logged 0x0E08 t) ∧
    (barLive s = true → (q.key ≠ key ∨ q.issued + tSec < s.now) → Completes (.fltTestKeyWrite key) s fun t => t.flt.pendingKey = none ∧
      t.flt.testMode = s.flt.testMode ∧ locks t) ∧
    Completes .testKeyTimeout s (fun t => t.flt.pendingKey = none ∧ q.issued + tSec ≤ t.now ∧ t.flt.testMode = s.flt.testMode)) ∧
  (s.flt.lockedUntil ≠ 0 → Completes .testKeyLockoutEnd s fun t => t.flt.lockedUntil = 0 ∧ s.flt.lockedUntil ≤ t.now) ∧
  Writes opFaultInject c (.faultInject c) s (fun t => t.flt.points =
    (s.flt.points.filter fun x => !(x.bit == p.bit && x.kind == p.kind && x.siteIndex == p.siteIndex)) ++ (if bit p.flags 0 then [p] else []) ∧
    (bit p.flags 0 = true → t.flt.latch.getLsbD 63 = true))

/-- Faults of the control complex and the collector (R433, R440): each raises its bit, the commands of a restarted task end, and the site table
is rebuilt from what still asserts, every fenced site kept. -/
def Obligations.ControlFaultsAreContained : Prop := ∀ (core : Fin 4) (ids : List Nat) (late : Bool) (asserted : List (Nat × Nat × Nat))
    (bad : Option Nat) (s : State),
  let gone := fun (t : State) => ∀ id ∈ ids, ∀ r ∈ t.host.running, r.id ≠ id
  Completes (.ccMemory true ids late) s (fun t => raised 57 0 0 s t ∧ ∀ p, p ≠ .flt → Same p s t) ∧
  Completes (.ccMemory false ids late) s (fun t => raised 57 0 0 s t ∧ gone t) ∧
  Completes (.ccWatchdog core ids late) s (fun t => raised 58 17 core.val s t ∧ gone t) ∧
  Completes (.fwCheck ids late) s (fun t => raised 59 0 0 s t ∧ gone t) ∧
  Completes (.fltSelf asserted bad) s (fun t => raised 62 0 0 s t ∧ t.flt.sites.length ≤ 1024 ∧ t.flt.kiln.length = s.flt.kiln.length ∧
    (∀ x ∈ t.flt.sites, (x ∈ s.flt.sites ∧ x.level = .fenced) ∨ (x.level = .contained ∧ x.count = 0 ∧ (x.bit, x.kind, x.index) ∈ asserted)) ∧
    (s.flt.sites.length ≤ 1024 → ∀ x ∈ s.flt.sites, x.level = .fenced → x ∈ t.flt.sites))

/-! ### Host registers, sessions and rings -/

/-- BAR0's plain registers, the link and the mailbox registers (R431, R452 to R458, R462, R474, R481): each write takes effect or is ignored and
counted, a bad doorbell is a fault of its slot, and losing the interface disables the rings and closes the sessions. -/
def Obligations.HostRegistersReadAndWrite : Prop := ∀ (bar2 write flr : Bool) (v : BitVec 32) (x : SlotNo) (speed width : Nat) (s : State),
  let sl := slotOf s x.val
  let c := v &&& 0x1FF01
  let page := 0x10000 + 0x100 * x.val
  let half := fun (o : Nat) (t : State) => if o < 0x10 then (slotOf t x.val).cmdBase else (slotOf t x.val).cplBase
  (barFull s = true →
    (bar2 = true ∨ write = true → Completes (.invalidBarAccess bar2 write) s fun t => t.host.errCount =
      BitVec.ofNat 32 (min (s.host.errCount.toNat + 1) (2 ^ 32 - 1)) ∧ (write = false → t.out = .barRead 0 :: s.out)) ∧
    Completes (.registerWrite 0x10 v) s (fun t => t.host = { s.host with scratch := v } ∧ ∀ p, p ≠ .host → Same p s t) ∧
    Completes (.registerWrite 4 v) s (accessIgnored s) ∧
    (∀ i, i < 768 → Completes (.registerWrite (0x30000 + 4 * i) v) s fun t => msixDword t i = (if i % 4 = 3 then v &&& 1 else v) ∧
      (i % 4 = 3 → v.getLsbD 0 = false → tabGet false s.host.pba (i / 4) = true → t.out = .vector (i / 4) :: s.out ∧
        tabGet false t.host.pba (i / 4) = false)) ∧
    (∀ o ∈ [8, 0xC, 0x10, 0x14],
      (sl.ctrl.getLsbD 0 = true ∨ sl.i3c = true → Completes (.registerWrite (page + o) v) s (accessIgnored s)) ∧
      (sl.ctrl.getLsbD 0 = false → sl.i3c = false → Completes (.registerWrite (page + o) v) s fun t =>
        half o t = if o % 8 = 4 then withHalves (half o s) none (some v) else withHalves (half o s) (some v) none)) ∧
    Completes (.rcCounterRead none) s (fun t => t.out = .barRead s.host.errCount.toNat :: s.out ∧ t.host = { s.host with errCount := 0 }) ∧
    Completes (.rcCounterRead (some x)) s (fun t => t.out = .barRead sl.faults.toNat :: s.out ∧ slotOf t x.val = { sl with faults := 0 }) ∧
    (sl.i3c = true → Completes (.hstMbxCtrlWrite x v) s (accessIgnored s) ∧ Completes (.hstMbxDb x v) s (accessIgnored s) ∧
      Completes (.hstMbxCplHeadWrite x v) s (accessIgnored s)) ∧
    (sl.i3c = false →
      (c.getLsbD 0 = true → mayEnable sl c = false → Completes (.hstMbxCtrlWrite x v) s (accessIgnored s)) ∧
      (c.getLsbD 0 = true → mayEnable sl c = true → sl.ctrl.getLsbD 0 = false → sl.state = .free → mailboxFenced s x.val = false →
        Completes (.hstMbxCtrlWrite x v) s fun t => slotOf t x.val = { sl with ctrl := c, state := .pending }) ∧
      (c.getLsbD 0 = false → sl.ctrl.getLsbD 0 = true → Completes (.hstMbxCtrlWrite x v) s fun t =>
        (slotOf t x.val).ctrl = c ∧ (slotOf t x.val).cmdHead = 0 ∧ (slotOf t x.val).cmdProd = 0 ∧ (slotOf t x.val).cplTail = 0 ∧
        (slotOf t x.val).cplHead = 0 ∧ (slotOf t x.val).state = (match sl.state with | .opened => .closing | .pending => .free | z => z)) ∧
      (doorbellBad v sl.cmdProd sl.cmdHead (cmdEntries sl) = false → Completes (.hstMbxDb x v) s fun t =>
        slotOf t x.val = { sl with cmdProd := v }) ∧
      (doorbellBad v sl.cmdProd sl.cmdHead (cmdEntries sl) = true → Completes (.hstMbxDb x v) s fun t => faultCounted x.val s t ∧
        (slotOf t x.val).cmdProd = sl.cmdProd ∧ raisedLast 61 19 x.val t) ∧
      (consumerBad v sl.cplHead sl.cplTail (cplEntries sl) = false → Completes (.hstMbxCplHeadWrite x v) s fun t =>
        slotOf t x.val = { sl with cplHead := v }) ∧
      (consumerBad v sl.cplHead sl.cplTail (cplEntries sl) = true → Completes (.hstMbxCplHeadWrite x v) s fun t => faultCounted x.val s t ∧
        (slotOf t x.val).cplHead = sl.cplHead ∧ raisedLast 61 19 x.val t))) ∧
  (s.host.linkUp = false → s.boot.resetLow = false → s.boot.powered = true → s.boot.romRan = true → speed ∈ [2, 5, 8, 16, 32, 64] →
    width ∈ [1, 2, 4, 8] → Completes (.pcieLinkUp speed width) s fun t => logged 0x0106 t ∧
      t.host = { s.host with linkUp := true, linkSpeed := speed, linkWidth := width }) ∧
  (s.host.linkUp = true → Completes (.pcieInterfaceLost flr) s fun t => t.host.linkUp = flr ∧ t.host.msixTable = [] ∧ t.host.pba = [] ∧
    (flr = false → raisedLast 60 18 0 t ∧ logged 0x0106 t) ∧ (∀ r, rxEnabled (ringOf t r) = false ∧ txEnabled (ringOf t r) = false) ∧
    (sl.i3c = false → (slotOf t x.val).ctrl = 0 ∧ (slotOf t x.val).state = if sl.state = .opened ∨ sl.state = .closing then .closing else .free) ∧
    (sl.i3c = true → slotOf t x.val = sl)) ∧
  (sl.state = .closing → Completes (.sessionCloseDone x) s fun t => (slotOf t x.val).state = .free ∧ (slotOf t x.val).role = 0 ∧
    ∀ j, j ≠ x.val → slotOf t j = slotOf s j)

/-- Sessions (R461 to R465, R481, R482, R489, R493): SESSION_OPEN with its key opens a pending slot and a wrong key counts toward the lockout, a
completion is written once its ring has room, an opcode that does not exist is NOTSUP, and the limits end after their times. -/
def Obligations.SessionsOpenAndClose : Prop := ∀ (c : Cmd) (k : Nat) (opcode : BitVec 16) (x : SlotNo) (s : State),
  let b := given c s
  let i := c.slot.val
  let sl := slotOf s i
  let d := opSessionOpen !(effectiveCmd c s).flags.getLsbD 0
  let u : OpDef := { opcode := opcode.toNat, write := false, len := fun _ => true }
  let wrongs := (sl.wrong.filter fun a => s.now ≤ a + 60 * tSec).length
  (passes d c s = true → sl.state = .pending → lockedUntilOf s i ≤ s.now →
    (slice b 4 16 = roleKey s (u8 b 0) → Completes (.sessionOpen c) s fun t => answered d c .ok (toLe 1 i ++ toLe 1 (u8 b 0)) [] s t ∧
      (slotOf t i).state = .opened ∧ (slotOf t i).role = u8 b 0 ∧ logged 0x0101 t) ∧
    (slice b 4 16 ≠ roleKey s (u8 b 0) → Completes (.sessionOpen c) s fun t => answered d c .denied (toLe 2 4) [] s t ∧
      (slotOf t i).state = .pending ∧ counted cMbxCredential i 1 s t ∧
      (sl.i3c = false → 2 ≤ wrongs → (slotOf t i).lockedUntil = s.now + 60 * tSec))) ∧
  (passes d c s = true → sl.state = .pending → s.now < lockedUntilOf s i → Completes (.sessionOpen c) s fun t =>
    answered d c .denied (toLe 2 0xFFFF) [] s t ∧ (slotOf t i).state = .pending) ∧
  (passes d c s = true → sl.state ≠ .pending → Completes (.sessionOpen c) s fun t => answered d c .state (toLe 2 0xFFFF) [] s t) ∧
  Writes opSessionClose c (.sessionClose c) s (fun t => (slotOf t i).draining = true ∧ ∀ p, p ≠ .host → Same p s t) ∧
  Writes opSessionSync c (.sessionSync c) s (fun t => ∀ p, p ≠ .host → Same p s t) ∧
  Writes opRoleKey c (.roleKey c) s (fun t => logged 0x0109 t ∧
    ∀ r, roleKey t r = if r = u8 b 0 then slice b 4 16 else roleKey s r) ∧
  (∀ e, s.host.ended[k]? = some e → mayComplete s e = true → e.slot < 32 →
    let v := slotOf s e.slot
    let n := cplEntries v
    Completes (.commandCompletion k) s fun t => t.host.ended = s.host.ended.eraseIdx k ∧ counted cMbxCommands e.slot 1 s t ∧
      (v.i3c = false → .hostWrite (v.cplBase.toNat + 32 * (v.cplTail.toNat % n)) (completionBytes e (v.cplTail.toNat / n % 2 == 0)) ∈ t.out ∧
        (slotOf t e.slot).cplTail = v.cplTail + 1) ∧
      (v.i3c = true → (e.slot, completionBytes e false) ∈ t.host.i3c.queue) ∧
      (e.aside = false → e.opcode = 0x0102 → e.status = .ok → (slotOf t e.slot).state = .free)) ∧
  (opcodeExists opcode.toNat = false → canTake opcode.toNat false i s = true → 0 < opcode.toNat / 256 → opcode.toNat / 256 < 16 →
    transportBad (effectiveCmd c s) sl.i3c = none → sl.state ≠ .pending → Completes (.unknownOpcode c opcode) s fun t =>
      answered u c .notsup (toLe 2 0xFFFF) [] s t ∧ ∀ p, p ≠ .host → Same p s t) ∧
  ((slotOf s x.val).limited = true →
    Completes (.limitedExit x) s (fun t => (slotOf t x.val).limited = false ∧ (slotOf t x.val).faultAt = [] ∧
      (slotOf s x.val).faultAt.headD s.now + 10 * tSec ≤ t.now) ∧
    Completes (.limitedCommandTake x) s (fun t => (slotOf t x.val).credit = true ∧ (slotOf s x.val).lastTake + 10 * tMs ≤ t.now)) ∧
  ((slotOf s x.val).lockedUntil ≠ 0 → Completes (.credentialLockoutEnd (some x)) s fun t => (slotOf t x.val).lockedUntil = 0 ∧
    (slotOf s x.val).lockedUntil ≤ t.now) ∧
  (s.host.i3c.lockedUntil ≠ 0 → Completes (.credentialLockoutEnd none) s fun t => t.host.i3c.lockedUntil = 0 ∧ s.host.i3c.lockedUntil ≤ t.now)

/-- Rings, capabilities and modes (R458, R469, R498 to R501): an owner's tail write moves the tail or is a doorbell fault, DMA_RING replaces a ring
that is not held fast, and a MODE write makes the changes that the state permits. -/
def Obligations.RingsAndModesAreConfigured : Prop := ∀ (c : Cmd) (r : RingNo) (v : BitVec 32) (s : State),
  let b := given c s
  let i3c := (slotOf s c.slot.val).i3c
  let x := ringOf s r.val
  let made := modeMade s b
  (barFull s = true →
    (ringOwner x = none → Completes (.hstRxTailWrite r v) s (accessIgnored s) ∧ Completes (.hstTxTailWrite r v) s (accessIgnored s)) ∧
    (∀ o, ringOwner x = some o →
      (doorbellBad v x.rxTail x.rxHead (rxEntries x) = false → Completes (.hstRxTailWrite r v) s fun t => ringOf t r.val = { x with rxTail := v }) ∧
      (doorbellBad v x.rxTail x.rxHead (rxEntries x) = true → Completes (.hstRxTailWrite r v) s fun t => ringOf t r.val = x ∧
        faultCounted o s t ∧ raisedLast 61 19 o t) ∧
      (doorbellBad v x.txTail x.txHead (txEntries x) = false → Completes (.hstTxTailWrite r v) s fun t => ringOf t r.val = { x with txTail := v }) ∧
      (doorbellBad v x.txTail x.txHead (txEntries x) = true → Completes (.hstTxTailWrite r v) s fun t => ringOf t r.val = x ∧
        faultCounted o s t ∧ raisedLast 61 19 o t))) ∧
  (i3c = false → ringLocked (ringOf s (u8 b 0)) b = false → Writes (opDmaRingWrite false) c (.dmaRingWrite c) s fun t =>
    ∀ k, ringOf t k = if k = u8 b 0 then ringWritten (ringOf s (u8 b 0)) b else ringOf s k) ∧
  (i3c = false → ringLocked (ringOf s (u8 b 0)) b = true → passes (opDmaRingWrite false) c s = true → Completes (.dmaRingWrite c) s fun t =>
    answered (opDmaRingWrite false) c .state (toLe 2 0xFFFF) [] s t ∧ t.host.rings = s.host.rings) ∧
  (i3c = true → passes (opDmaRingWrite true) c s = true → Completes (.dmaRingWrite c) s fun t =>
    answered (opDmaRingWrite true) c .notsup (toLe 2 0xFFFF) [] s t ∧ t.host.rings = s.host.rings) ∧
  Reads opDmaRingRead c (.dmaRingRead c) s (
    let o := (ringOf s (u8 b 0)).obj
    if o.isEmpty then image 32 [(0, 1, u8 b 0)] else o) ∧
  (s.boot.capsReady = true → Reads opCapRead c (.capRead c) s (capRegion s)) ∧
  Reads opModeRead c (.modeRead c) s (image 8 [(1, 1, b2n s.time.eased), (2, 1, s.tableProfile), (3, 1, s.bufferProfile)]) ∧
  (passes opModeWrite c s = true → modePermitted s b = false → Completes (.modeWrite c) s fun t =>
    answered opModeWrite c .state (toLe 2 0xFFFF) [] s t ∧ ∀ p, p ≠ .host → Same p s t) ∧
  (passes opModeWrite c s = true → modePermitted s b = true → Completes (.modeWrite c) s fun t =>
    t.bufferProfile = (if bit (u8 b 0) 2 then u8 b 3 else s.bufferProfile) ∧ t.tableProfile = (if bit (u8 b 0) 1 then u8 b 2 else s.tableProfile) ∧
    (bit made 0 = false → answered opModeWrite c .ok (toLe 1 made) [] s t ∧ logged 0x0201 t) ∧
    (bit made 0 = true → accepted opModeWrite c s t ∧ t.time.switch.run = some s.host.nextId ∧
      t.time.switch.newEased = (u8 b 1 == 1)))

/-- Packets over the rings (R469 to R473): a delivery fills the posted buffers and moves the head, one that does not fit is HOST_RING_FULL, an
injected frame enters its pipeline's FIFO, a refused one is a fault of the owner, and a coalesced interrupt goes out when its time has passed. -/
def Obligations.RingsCarryFrames : Prop := ∀ (r : RingNo) (bufs : List (Nat × Nat)) (ds : List Bytes) (data : Bytes) (full readOk tx : Bool) (s : State),
  let v := ringOf s r.val
  let g := u8 v.obj 2
  let fr := txFrame (ds.take (v.txTail - v.txHead).toNat)
  let len := (fr.map fun d => u16 d 8).foldl (· + ·) 0
  (∀ d, nextDelivery s r.val = some d →
    let bytes := deliveryBytes s d
    (∀ ps, full = false → hostFenced s 0 = false → rxEnabled v = true →
      fillBuffers (bufs.take (v.rxTail - v.rxHead).toNat) bytes = some ps → Completes (.hostDelivery r bufs full) s fun t =>
        (ringOf t r.val).rxHead = v.rxHead + BitVec.ofNat 32 ps.length ∧ t.fr.deliveries = s.fr.deliveries.erase d ∧
        (∀ p ∈ ps, .hostWrite p.1 p.2 ∈ t.out) ∧ counted cDmaRxFrames r.val 1 s t ∧ counted cDmaRxBytes r.val bytes.length s t) ∧
    (full = true ∨ (hostFenced s 0 = false ∧ rxEnabled v = false) → Completes (.hostDelivery r bufs full) s fun t => ringOf t r.val = v ∧
      counted cDmaRxFull r.val 1 s t)) ∧
  (txEnabled v = true → hostFenced s 0 = false → v.txTail ≠ v.txHead → txTurnOf s r.val = true → fr ≠ [] →
    let last := fr.getLastD []
    let o := (ringOwner v).getD 0
    let refused := fun (t : State) => (ringOf t r.val).txHead = v.txHead + BitVec.ofNat 32 fr.length ∧ faultCounted o s t ∧
      counted cDmaTxErrors r.val 1 s t ∧ t.fr = s.fr
    (txEop last = true → 16 < fr.length ∨ len < 60 ∨ 16379 < len → Completes (.hostInject r ds data readOk) s refused) ∧
    (txEop last = true → fr.length ≤ 16 → 60 ≤ len → len ≤ 16379 → (fr.any txBad) = true → Completes (.hostInject r ds data readOk) s refused) ∧
    (txEop last = true → fr.length ≤ 16 → 60 ≤ len → len ≤ 16379 → (fr.any txBad) = false → readOk = false → Completes (.hostInject r ds data readOk) s fun t =>
      refused t ∧ counted cIfDiscarded 0 1 s t) ∧
    (txEop last = true → fr.length ≤ 16 → 60 ≤ len → len ≤ 16379 → (fr.any txBad) = false → readOk = true → pipeFenced s g = false → fifoUsed s g + len + 4 ≤ 65536 →
      Completes (.hostInject r ds data readOk) s fun t =>
        let b := slice data 0 len
        let f := frameOf t s.fr.next
        f.port = u16 (fr.headD []) 12 ∧ f.pipe = g ∧ f.source = 2 ∧ f.data = b ++ fcsOf b ∧ f.ended = true ∧ contOf f 286 = u32 (fr.headD []) 16 ∧
        t.fr.next = s.fr.next + 1 ∧ (ringOf t r.val).txHead = v.txHead + BitVec.ofNat 32 fr.length ∧ counted cDmaTxFrames r.val 1 s t ∧
        counted cDmaTxBytes r.val len s t ∧ tabFind t.host.txTurn g = some r.val)) ∧
  (∀ a, (if tx then v.txIrqAt else v.rxIrqAt) = some a → Completes (.irqCoalesceExpiry r tx) s fun t => a ≤ t.now ∧
    ((if tx then v.txIrqWaits else v.rxIrqWaits) = false → (if tx then (ringOf t r.val).txIrqAt else (ringOf t r.val).rxIrqAt) = none) ∧
    ((if tx then v.txIrqWaits else v.rxIrqWaits) = true → bit (u8 v.obj 1) (if tx then 3 else 2) = true → coalesce v ≠ 0 →
      (if tx then (ringOf t r.val).txIrqAt else (ringOf t r.val).rxIrqAt) = some (t.now + coalesce v)))

/-! ### The I3C target -/

/-- Umlimel (R476 to R479, R481): a write frame that the target may take puts payload bytes, submits a descriptor, asks for a reply or is
discarded, a read answers the reply, the oldest completion or NONE, a target that is not up does not acknowledge, and a declined interrupt is
raised again. -/
def Obligations.UmlimelFramesAreTaken : Prop := ∀ (n off i : Nat) (b : Bytes) (ddr : Bool) (s : State),
  let takes := umlimelUp s = true ∧ (ddr = true → s.host.i3c.hdr = true) ∧ ∀ a, s.host.i3c.lastFrame = some a → a + 2 * tUs ≤ s.now
  let discarded := fun (t : State) => counted cIfDiscarded 1 1 s t ∧ (i3cSession s n = true → faultCounted n s t)
  (takes → i3cSession s n = true →
    (b.length ≤ 64 → off + b.length ≤ 4096 → Completes (.umlimelPayload n off b ddr) s fun t =>
      (∀ k, tabGet 0 (slotOf t n).payload k = if off ≤ k ∧ k < off + b.length then b.getD (k - off) 0 else tabGet 0 (slotOf s n).payload k) ∧
      t.host.i3c.lastFrame = some s.now) ∧
    (off < 4096 → Completes (.umlimelFetch n off ddr) s fun t => t.host.i3c.fetch = some (n, off)) ∧
    (b.length = 64 → (slotOf s n).submitted = none → inProgressCount s n = 0 → Completes (.umlimelCommand n b ddr) s fun t =>
      slotOf t n = { slotOf s n with submitted := some b }) ∧
    (b.length = 64 → (slotOf s n).submitted.isSome = true ∨ 0 < inProgressCount s n → Completes (.umlimelCommand n b ddr) s fun t =>
      slotOf t n = slotOf s n ∧ ∃ e, t.host.ended = s.host.ended ++ [e] ∧ e.slot = n ∧ e.status = .busy ∧ e.aside = true)) ∧
  (takes → b.length = 64 → u16 b 0 = 0x0101 →
    (freeSlot s = some i → Completes (.umlimelCommand 0xFF b ddr) s fun t => (slotOf t i).state = .pending ∧ (slotOf t i).i3c = true ∧
      (slotOf t i).submitted = some b ∧ ∀ j, j ≠ i → slotOf t j = slotOf s j) ∧
    (freeSlot s = none → Completes (.umlimelCommand 0xFF b ddr) s fun t => ∃ e, t.host.ended = s.host.ended ++ [e] ∧ e.status = .nores ∧
      e.aside = true)) ∧
  (takes → Completes (.umlimelFrameInvalid n ddr) s discarded ∧
    (i3cSession s n = false → Completes (.umlimelPayload n off b ddr) s discarded ∧ Completes (.umlimelFetch n off ddr) s discarded)) ∧
  (i3cUp s = true → umlimelUp s = false → (ddr = true → s.host.i3c.hdr = true) →
    ∀ c ∈ [Instr.umlimelPayload n off b ddr, .umlimelCommand n b ddr, .umlimelFetch n off ddr, .umlimelFrameInvalid n ddr, .umlimelRead ddr],
      Completes c s fun t => t = emit .i3cNack s) ∧
  (umlimelUp s = true → (ddr = true → s.host.i3c.hdr = true) →
    (∀ m o x, replyChunk s = some (m, o, x) → Completes (.umlimelRead ddr) s fun t => t.host.i3c.fetch = some (m, o) ∧
      t.out = .i3cRead ([2] ++ toLe 1 m ++ toLe 2 x.length ++ x) :: s.out ∧ t.host.i3c.queue = s.host.i3c.queue) ∧
    (∀ m x q, replyChunk s = none → s.host.i3c.queue = (m, x) :: q → Completes (.umlimelRead ddr) s fun t => t.host.i3c.queue = q ∧
      t.out = .i3cRead ([1] ++ toLe 1 m ++ [32, 0] ++ x) :: s.out) ∧
    (replyChunk s = none → s.host.i3c.queue = [] → Completes (.umlimelRead ddr) s fun t => t.out = .i3cRead [0, 0, 0, 0] :: s.out)) ∧
  (s.host.i3c.events = true →
    (∀ a, s.host.i3c.alertIbi = some a → alertOn s = true → Completes (.ibiRetry true) s fun t => t.out = .ibi 0x40 :: s.out ∧
      a + 100 * tUs ≤ t.now ∧ t.host.i3c.alertIbi = some t.now) ∧
    (∀ a m x q, s.host.i3c.completionIbi = some a → s.host.i3c.queue = (m, x) :: q → Completes (.ibiRetry false) s fun t =>
      t.out = .ibi (BitVec.ofNat 8 (0x20 + m % 32)) :: s.out ∧ a + 100 * tUs ≤ t.now ∧ t.host.i3c.completionIbi = some t.now))

/-- Common command codes (R475, R485): they set the interrupts' enable, the address and the limits, direct reads answer once the target has an
address, and a link error is counted or raised. GETSTATUS and GETMXDS answer two free bytes, for the spec states none. -/
def Obligations.CommonCommandCodesAct : Prop := ∀ (e : BitVec 8) (a : BitVec 7) (n : BitVec 16) (site : Fin 2) (s : State),
  let v := s.host.i3c
  let only := fun (w : I3c) (t : State) => t.host = { s.host with i3c := { w with hdr := false } } ∧ ∀ p, p ≠ .host → Same p s t
  let answers := fun (i : Instr) (b : Bytes) =>
    (v.dynAddr.isSome = true → Completes i s fun t => t.out = .i3cRead b :: s.out ∧ t.host.i3c = { v with hdr := false }) ∧
    (v.dynAddr = none → Completes i s fun t => t = emit .i3cNack s)
  (i3cUp s = true →
    Completes (.enec e) s (only { v with events := v.events || e.getLsbD 0 }) ∧
    Completes (.disec e) s (only { v with events := v.events && !e.getLsbD 0 }) ∧
    Completes .rstdaa s (only { v with dynAddr := none }) ∧
    (v.dynAddr = none → ∀ i ∈ [Instr.entdaa a, .setdasa a], Completes i s fun t =>
      t.host.i3c = { v with dynAddr := some a.toNat, hdr := false } ∧ logged 0x0108 t) ∧
    (v.dynAddr.isSome = true → ∀ i ∈ [Instr.entdaa a, .setdasa a], Completes i s (only v)) ∧
    (v.dynAddr.isSome = true → Completes (.setnewda a) s fun t => t.host.i3c = { v with dynAddr := some a.toNat, hdr := false } ∧ logged 0x0108 t) ∧
    (v.dynAddr = none → Completes (.setnewda a) s (only v)) ∧
    Completes (.setmwl n) s (only (if n.toNat < 68 then v else { v with mwl := n.toNat })) ∧
    Completes (.setmrl n) s (only (if n.toNat < 68 then v else { v with mrl := n.toNat })) ∧
    answers .getmwl (toBe 2 v.mwl) ∧ answers .getmrl (toBe 2 v.mrl ++ [1]) ∧ answers .getpid (toBe 6 provisionalId) ∧ answers .getbcr [6] ∧
    answers .getdcr [0] ∧ answers .getstatus (toBe 2 (Config.freeNat s.free)) ∧ answers .getmxds (toBe 2 (Config.freeNat s.free)) ∧
    Completes .enthdr0 s (fun t => t.host = { s.host with i3c := { v with hdr := true } } ∧ ∀ p, p ≠ .host → Same p s t) ∧
    Completes (.rstact 1) s (fun t => t.host.i3c = { v with fetch := none, lastFrame := none, hdr := false } ∧ counted cIfLinkDowns 1 1 s t) ∧
    (e ≠ 1 → Completes (.rstact e) s (only v))) ∧
  Completes (.hstLink site true) s (fun t => counted cIfCorrected site.val 1 s t ∧ t.flt = s.flt ∧ t.host = s.host) ∧
  Completes (.hstLink 0 false) s (fun t => raised 60 18 0 s t ∧ counted cIfDiscarded 0 1 s t ∧ t.host = s.host) ∧
  Completes (.hstLink 1 false) s (fun t => raised 60 18 1 s t ∧ t.host.i3c.fetch = none ∧ t.host.i3c.hdr = false)

/-! ### Uploads, program images and firmware -/

/-- An upload's BEGIN claims its buffer, a CHUNK from the claimant puts its bytes, and neither touches another upload (R502, R503). Images
(R185, R504 to R507): a verified image is staged, an apply takes one pipeline after the other, each switched whole once no frame stands
inside it, and an unload clears the pipelines named. Signature sets and firmware are committed (R508 to R511, R529): a set reaches the
shadows of the quadrants named and the engines that run it load it, an image is written to the other slot after the completion, and an
activation names the slot of the next boot. -/
def Obligations.UploadsImagesAndFirmwareApply : Prop :=
  (∀ (c : Cmd) (s : State),
    let b := given c s
    let i := c.slot.val
    let open_ := fun (k : Nat) => (uploadOf s k).claim = none ∨ (uploadOf s k).claim = some i
    let begun := fun (k : Nat) (t : State) => uploadOf t k = { claim := some i, length := u32 b 0, crc := u32 b 4 } ∧
      ∀ j, j ≠ k → uploadOf t j = uploadOf s j
    let put := fun (k : Nat) (t : State) => uploadOf t k = { uploadOf s k with
        bytes := tabFill 0 (u32 b 0) (b.drop 8) (uploadOf s k).bytes, written := (u32 b 0, b.length - 8) :: (uploadOf s k).written } ∧
      ∀ j, j ≠ k → uploadOf t j = uploadOf s j
    (applyRuns s = false → open_ 0 → Writes (opUploadBegin 0x0501 0) c (.imageBegin c) s (begun 0)) ∧
    (open_ 1 → Writes (opUploadBegin 0x0701 1) c (.sigSetBegin c) s (begun 1)) ∧
    (fwWrites s = false → open_ 2 → Writes (opUploadBegin 0x0F01 2) c (.fwBegin c) s (begun 2)) ∧
    ((uploadOf s 0).claim = some i → Writes (opUploadChunk 0x0502 0 i) c (.imageChunk c) s (put 0)) ∧
    ((uploadOf s 1).claim = some i → Writes (opUploadChunk 0x0702 1 i) c (.sigSetChunk c) s (put 1)) ∧
    ((uploadOf s 2).claim = some i → Writes (opUploadChunk 0x0F02 2 i) c (.fwChunk c) s (put 2))) ∧
  (∀ (c : Cmd) (window : Fin 2001) (b : Bytes) (g : Nat) (rest : List Nat) (s : State),
    let o := given c s
    (uploadWhole s 0 c.slot.val = .ok b → imageBad s.tableProfile b = none → passes opImageVerify c s = true → Completes (.imageVerify c) s fun t =>
      answered opImageVerify c .ok (toLe 4 (u32 b 12) ++ toLe 2 (imgSections b)) [] s t ∧ t.mat.staged = b ∧ (uploadOf t 0).claim = none ∧
      logged 0x0501 t) ∧
    (applyRuns s = false → s.mat.staged ≠ [] → u8 s.mat.staged 6 = s.tableProfile →
      (bit (u8 o 8) 0 = true ∨ ∀ g, bit (u64 o 0) g = true → pipePortEnabled s g = false) → passes opImageApply c s = true → Completes (.imageApply c) s fun t =>
        answered opImageApply c .pending (toLe 2 (popcount 64 (u64 o 0))) [] s t ∧ t.mat.applying = s.mat.staged ∧ t.mat.applyState = 1 ∧
        t.mat.applyLeft = u64 o 0 ∧ t.mat.applied = 0) ∧
    (maskBits 64 s.mat.applyLeft = g :: rest → s.mat.applyState = 1 →
      ((matPipe s g).imageHeld = true ∨ (icouxTakes s = true ∧ u8 s.mat.applying 6 = s.tableProfile ∧
        (s.mat.allowLoss = true ∨ pipePortEnabled s g = false))) → (matPipe s g).parts = [] → pipeStill s g = false →
      (framesInside s g = true → Completes (.imagePipelineApply window) s fun t => (matPipe t g).imageHeld = true ∧ t.mat.applyLeft = s.mat.applyLeft) ∧
      (framesInside s g = false → Completes (.imagePipelineApply window) s fun t => (matPipe t g).imageId = u32 s.mat.applying 12 ∧
        (matPipe t g).imageLoaded = true ∧ (matPipe t g).imageHeld = false ∧ (matPipe t g).epoch = (matPipe s g).epoch + 1 ∧
        t.mat.applied = s.mat.applied + 2 ^ g ∧ t.mat.applyLeft = s.mat.applyLeft - 2 ^ g ∧
        (s.mat.applyLeft = 2 ^ g → t.mat.applyState = 2 ∧ logged 0x0530 t))) ∧
    (applyRuns s = false → (∀ g, bit (u64 o 0) g = true → framesInside s g = false ∧ pipePortEnabled s g = false) →
      Writes opImageUnload c (.imageUnload c) s fun t => ∀ g, g < 64 → bit (u64 o 0) g = true → (matPipe t g).imageId = 0 ∧
        (matPipe t g).imageLoaded = false) ∧
    Reads opImageStatus c (.imageStatus c) s (
      let m := s.mat
      image 32 [(0, 4, u32 m.staged 12), (4, 1, if (uploadOf s 0).claim.isSome then 1 else if m.staged.isEmpty then 0 else 2), (5, 1, m.applyState),
        (6, 2, m.applyStatus), (8, 8, m.applied), (16, 8, m.applyLeft)])) ∧
  (∀ (c : Cmd) (b : Bytes) (k : Nat) (v : FwImage) (s : State),
    let o := given c s
    (uploadWhole s 1 c.slot.val = .ok b → sigSetBad b = none →
      let shadowed := fun (t : State) => (∀ q, q < 4 → bit (u8 o 0) q = true → tabFind t.sig.sets (16 * q + u8 o 1) = some (sigSetOf b)) ∧
        (uploadOf t 1).claim = none
      (enginesOfSet s (u8 o 0) (u8 o 1) = [] → passes opSigSetCommit c s = true → Completes (.sigSetCommit c) s fun t =>
        answered opSigSetCommit c .ok (toLe 4 (sigSetOf b).tag) [] s t ∧ shadowed t) ∧
      (∀ e l, enginesOfSet s (u8 o 0) (u8 o 1) = e :: l → Starts opSigSetCommit c (.sigSetCommit c) s fun t => shadowed t ∧
        (engineOf t e).phase = .loading ∧
        t.sig.jobs = s.sig.jobs ++ [{ run := s.host.nextId, engines := e :: l, data := toLe 4 (sigSetOf b).tag }])) ∧
    (uploadWhole s 2 c.slot.val = .ok b → fwWrites s = false → commitBad s b = none → passes opFwCommit c s = true → Completes (.fwCommit c) s fun t =>
      answered opFwCommit c .pending (toLe 4 (u32 b 8)) [] s t ∧ t.boot.update.writing = some (1 - s.boot.slot, fwImageOf b) ∧
      tabFind t.boot.slots (1 - s.boot.slot) = none ∧ tabFind t.boot.slots s.boot.slot = tabFind s.boot.slots s.boot.slot) ∧
    (s.boot.update.writing = some (k, v) →
      (Completes (.fwWritten true) s fun t => tabGet {} t.boot.slots k = v ∧ t.boot.update.state = 3 ∧ t.boot.update.writing = none ∧ logged 0x0F01 t) ∧
      Completes (.fwWritten false) s fun t => t.boot.slots = s.boot.slots ∧ t.boot.update.state = 4 ∧ t.boot.update.last = 9 ∧ logged 0x0F02 t) ∧
    (fwWrites s = false → slotCheck s (u8 o 0) = 0 → (bit (u8 o 1) 0 = true → adoptable s (u8 o 0) = true) →
      Writes opFwActivate c (.fwActivate c) s fun t => t.boot.dataArea.nextSlot = u8 o 0 ∧ logged 0x0F03 t ∧
        t.boot.warmDue = if bit (u8 o 1) 0 = true then some (2, u8 o 0) else s.boot.warmDue) ∧
    Reads opFwStatus c (.fwStatus c) s (
      let version := fun k => if slotCheck s k == 0 then (tabGet {} s.boot.slots k).version else 0
      image 24 [(0, 4, s.boot.running.version), (4, 4, field (tabRange 0 (uploadOf s 2).bytes 8 4) 0 4), (8, 4, version 0), (12, 4, version 1),
        (16, 1, s.boot.slot), (17, 1, s.boot.dataArea.nextSlot),
        (18, 1, if s.boot.update.writing.isSome then 2 else if (uploadOf s 2).claim.isSome then 1 else s.boot.update.state),
        (20, 2, s.boot.update.last)]))

/-! ### Reset, start-up and the test access port -/

/-- Every source of reset leaves the same state (R523 to R525): RESET_N asserted, and the software reset 10 ms after DEVICE_RESET; RESET_N
released samples the straps and starts the bisque stage, and a power-on leaves no record. -/
def Obligations.ResetLeavesTheResetState : Prop := ∀ (c : Cmd) (cool cut : Bool) (strap : Fin 4) (flash : FlashIn) (s : State),
  (s.boot.resetLow = false → Completes (.resetNAssert cool cut) s fun t => resetFrom s t ∧ t.boot.resetLow = true ∧
    t.boot.resetLowSince = s.now ∧ (s.boot.powered = true → t.boot.cause = if s.boot.tripRecord.isSome then 4 else 1) ∧
    (cut = false → t.boot.dataArea = s.boot.dataArea)) ∧
  (s.boot.resetLow = true → s.boot.powered = true → Completes (.resetNDeassert strap) s fun t => t.boot.resetLow = false ∧
    t.boot.strap = strap.val ∧ t.boot.stage = .bisque ∧ s.boot.resetLowSince + 10 * tUs ≤ t.now ∧ t.boot.t0 = t.now) ∧
  (s.boot.resetLow = true → Completes (.powerOn none) s fun t => t.boot.cause = 0 ∧ t.boot.tripRecord = none ∧ t.boot.powered = true ∧
    t.flt.kiln = [] ∧ t.boot.slots = s.boot.slots ∧ t.host = State.reset.host) ∧
  (s.boot.resetLow = true → Completes (.powerOn (some flash)) s fun t => t.boot.cause = 0 ∧ t.flt.kiln = [] ∧
    tabGet {} t.boot.slots 0 = flash.slot0 ∧ tabGet {} t.boot.slots 1 = flash.slot1 ∧ t.boot.dataArea.validA = flash.copyA ∧
    t.boot.dataArea.validB = flash.copyB) ∧
  (Writes opDeviceReset c (.deviceReset c) s fun t => t.boot.resetAt = some (s.now + 10 * tMs) ∧ t.boot.dataArea.heat = s.pow.heat ∧
    t.boot.dataArea.ages = s.pow.ages) ∧
  (∀ a, s.boot.resetAt = some a → Completes .softwareReset s fun t => resetFrom s t ∧ t.boot.cause = 3 ∧ t.boot.resetLow = false ∧ a ≤ t.now)

/-- Start-up (R530, R532 to R536): the ROM's tests, the choice of the slot, retries of a glaze step and its third failure, and READY, which
publishes the capability list, confirms the slot and raises the fused minimum that its image asks for. -/
def Obligations.StartUpReachesReady : Prop := ∀ (result : Fin 5) (step die : Fin 8) (st : BitVec 16) (ppm : List (List Int)) (f0 f1 : Bool) (s : State),
  (s.boot.resetLow = false → s.boot.powered = true → s.boot.tripped = false → s.boot.romRan = false → s.boot.stage = .bisque →
    (result.val = 0 → Completes (.q0PllLock result) s fun t => t.boot.romRan = true ∧ t.boot.stage = .bisque ∧ t.pow.avs.target = 750) ∧
    (0 < result.val → result.val < 4 → Completes (.q0PllLock result) s fun t => t.boot.stage = .failed ∧ t.boot.bootError = result.val ∧
      t.boot.failedInBisque = true ∧ logged 0x0F14 t)) ∧
  (s.boot.stage = .bisque → clocked s = true → s.boot.strap = 1 ∨ s.boot.strap = 2 →
    let k := s.boot.strap - 1
    let fails := if k = 0 then f0 else f1
    (readCheck s k fails = 0 → Completes (.glazeInit f0 f1) s fun t => t.boot.stage = .glazeInit ∧ t.boot.slot = k ∧
      t.boot.running = tabGet {} s.boot.slots k ∧ t.boot.tripRecord = none) ∧
    (readCheck s k fails ≠ 0 → Completes (.glazeInit f0 f1) s fun t => t.boot.stage = .failed ∧ t.boot.bootError = 5)) ∧
  (s.boot.stage = .bisque → clocked s = true → s.boot.strap = 0 → (s.boot.dataArea.validA || s.boot.dataArea.validB) = true →
    let a := s.boot.dataArea.nextSlot
    (tabGet 0 s.boot.dataArea.trials a < 3 → readCheck s a (if a = 0 then f0 else f1) = 0 → Completes (.glazeInit f0 f1) s fun t =>
      t.boot.stage = .glazeInit ∧ t.boot.slot = a ∧ tabGet 0 t.boot.dataArea.trials a = tabGet 0 s.boot.dataArea.trials a + 1)) ∧
  (s.boot.stage = .glazeInit →
    (step.val + 1 ≠ 5 → tabGet 0 s.boot.tries step.val < 2 → Completes (.glazeRetry step die st) s fun t => logged 0x0F12 t ∧
      tabGet 0 t.boot.tries step.val = tabGet 0 s.boot.tries step.val + 1 ∧ t.boot.stage = .glazeInit) ∧
    (∀ code, glazeError (step.val + 1) = some code → tabGet 0 s.boot.tries step.val = 2 → Completes (.glazeRetry step die st) s fun t =>
      t.boot.stage = .failed ∧ t.boot.bootError = code ∧ logged 0x0F14 t) ∧
    (Completes (.glazeReady ppm) s fun t => t.boot.stage = .ready ∧ t.boot.capsReady = true ∧ t.boot.dataArea.nextSlot = s.boot.slot ∧
      t.boot.securityMin = if s.boot.running.raiseMinimum && decide (s.boot.securityMin < s.boot.running.security) then s.boot.running.security
        else s.boot.securityMin))

/-- Warm restarts (R537 to R539): one asked for ends every running command with TIMEOUT and empties the claims, the third within 60 s is a
reset with cause WARM_FAIL, and its end runs the target slot, the running one, or resets. -/
def Obligations.WarmRestartsKeepTheDatapath : Prop := ∀ (f0 f1 ok : Bool) (cause target : Nat) (s : State),
  (s.boot.warmDue = some (cause, target) → s.boot.stage = .ready → (cause = 2 → activateWaits s = false) →
    let recent := s.boot.warmTimes.filter fun t => s.now ≤ t + 60 * tSec
    (recent.length < 2 → Completes .warmRestartStart s fun t => t.boot.stage = .warmRestart ∧ t.boot.warmTarget = target ∧ t.boot.warmDue = none ∧
      t.boot.capsReady = false ∧ t.host.running = [] ∧ t.mat.openBatch = [] ∧ (∀ k, (uploadOf t k).claim = none) ∧ t.fr = s.fr ∧ t.buf = s.buf ∧
      t.sch = s.sch) ∧
    (2 ≤ recent.length → Completes .warmRestartStart s fun t => resetFrom s t ∧ t.boot.cause = 5)) ∧
  (s.boot.stage = .warmRestart → s.boot.warmDue = none →
    (∀ k, warmSlot f0 f1 s = some k → Completes (.warmRestartDone f0 f1 true) s fun t => t.boot.stage = .ready ∧ t.boot.slot = k ∧
      t.boot.capsReady = true ∧ t.boot.running = tabGet {} s.boot.slots k ∧ t.fr = s.fr) ∧
    (warmSlot f0 f1 s = none → Completes (.warmRestartDone f0 f1 ok) s fun t => resetFrom s t ∧ t.boot.cause = 5) ∧
    (Completes (.warmRestartDone f0 f1 false) s fun t => resetFrom s t ∧ t.boot.cause = 5))

/-- The test access port (R567): each instruction's scan shifts the register it selects, the test instructions work in reset or under
BOOT_SEL HOLD and act as BYPASS elsewhere, and no instruction changes anything but the port. The supplies (R556 to R558, R571): VDD_IO below
its threshold takes the always-on records and leaves every output pin at a free level, VDD_PLL at or below its own the kiln log, and a rail
beyond its ratings stops the model, for which the spec states nothing. -/
def Obligations.TestPortAndSupplies : Prop :=
  (∀ (pins tdi : List Bool) (s : State), s.boot.powered = true →
    let scans := fun (i : Instr) (n : TapInstr) (reg : List Bool) => Completes i s fun t =>
      t.boot.tap.instr = n ∧ t.boot.tap.shifted = (reg ++ tdi).drop tdi.length ∧ .tdo ((reg ++ tdi).take tdi.length) ∈ t.out ∧
      ∀ p, p ≠ .boot → p ≠ .out → Same p s t
    let cells := bitsOf 6262 pins
    scans (.bypass tdi) .bypass [false] ∧ scans (.idcode tdi) .idcode idcodeBits ∧ scans (.highz tdi) .highz [false] ∧
    scans (.clamp tdi) .clamp [false] ∧
    (∀ i n, (i, n) ∈ [(Instr.samplePreload pins tdi, TapInstr.samplePreload), (.extest pins tdi, .extest), (.extestPulse pins tdi, .extestPulse),
        (.extestTrain pins tdi, .extestTrain)] →
      (testWorks s = true → scans i n cells) ∧ (testWorks s = false → scans i n [false])) ∧
    (testWorks s = true → Completes (.extest pins tdi) s fun t => t.out.head? = some (.boundary .extest (bitsOf 6262 t.boot.tap.latched)) ∧
      t.boot.tap.latched = (cells ++ tdi).drop tdi.length)) ∧
  (∀ (rail : Fin 8) (mv : Int) (s : State),
    (mv < -300 ∨ railMax rail.val < mv → exec (.supplyLeavesRange rail mv) s = .fault .beyondRatings) ∧
    (-300 ≤ mv → mv < 1660 → Completes (.supplyLeavesRange 0 mv) s fun t => t.boot.cause = 0 ∧ t.boot.tripRecord = none ∧
      t.boot.powered = false ∧ t.flt = s.flt ∧
      ∀ p ∈ [4, 5, 6, 7, 8, 9, 16, 17], ∃ v, .pin p v ∈ t.out) ∧
    (-300 ≤ mv → mv ≤ 820 → Completes (.supplyLeavesRange 1 mv) s fun t => t.flt.kiln = [] ∧ t.boot = s.boot) ∧
    (2 ≤ rail.val → -300 ≤ mv → mv ≤ railMax rail.val → Completes (.supplyLeavesRange rail mv) s fun t => t = s))

/-! ### Rules of the spec, each stated whole -/

/-- R491: while STAGE is not READY, a command of groups 0x03 to 0x0D that Icoux takes, with a sound descriptor and a role that permits it (the
checks that R489 puts first), is rejected with STATE, and during WARM_RESTART Icoux takes no command at all. -/
def Obligations.CommandsWaitForReady : Prop := ∀ (i : Instr) (d : OpDef) (c : Cmd) (opcode : BitVec 16) (s : State),
  (s.boot.stage = .warmRestart → (commandDef i s = some (d, c) → exec i s = .next s) ∧ exec (.unknownOpcode c opcode) s = .next s) ∧
  (commandDef i s = some (d, c) → s.boot.stage ≠ .ready → 3 ≤ d.group → d.group ≤ 13 → canTake d.opcode d.write c.slot.val s = true →
    transportBad (effectiveCmd c s) (slotOf s c.slot.val).i3c = none → (slotOf s c.slot.val).state = .opened →
    roleOk s c.slot.val d.role = true → d.grant (takenState c s) c.slot.val (given c s) = true → Completes i s fun t =>
      answered d c .state (failureData d.opcode 0xFFFF) [] s t ∧ ∀ p, p ≠ .host → Same p s t)

/-- R501: CAP_READ answers the capability region from 0x04_0000 to the end of its last capability, each CAP_NEXT being the next one's BAR0 offset,
as BAR0 reads it; before CAPS_READY it is rejected with STATE. -/
def Obligations.CapReadAnswersTheRegion : Prop := ∀ (c : Cmd) (s : State),
  (s.boot.capsReady = true → Reads opCapRead c (.capRead c) s (capRegion s)) ∧
  (s.boot.capsReady = false → passes opCapRead c s = true → Completes (.capRead c) s fun t =>
    answered opCapRead c .state (toLe 2 0xFFFF) [] s t ∧ ∀ p, p ≠ .host → Same p s t) ∧
  (capRegion s).length = 152 ∧
  (s.boot.capsReady = true → barFull s = true → ∀ k, k < 38 → bar0 s (0x40000 + 4 * k) = u32 (capRegion s) (4 * k)) ∧
  (∀ j, j < 8 →
    let at_ := [0, 0x20, 0x30, 0x48, 0x58, 0x68, 0x78, 0x88]
    u16 (capRegion s) (at_.getD j 0) = j + 1 ∧
    field (capRegion s) (at_.getD j 0 + 4) 3 = if j = 7 then 0 else 0x40000 + at_.getD (j + 1) 0)

/-- R530: the first READY of an image that has raise_minimum set and a security_version above the minimum raises the fused minimum to it and logs
SECURITY_MIN_RAISED; no other event changes the minimum; an older image never passes the boot's checks again. -/
def Obligations.SecurityMinimumIsRaisedAtReady : Prop := ∀ (ppm : List (List Int)) (f0 f1 : Bool) (i : Instr) (s t : State),
  (s.boot.stage = .glazeInit → s.boot.running.raiseMinimum = true → s.boot.securityMin < s.boot.running.security →
    Completes (.glazeReady ppm) s fun t => t.boot.securityMin = s.boot.running.security ∧ logged 0x0F18 t) ∧
  (∀ k, s.boot.stage = .warmRestart → s.boot.warmDue = none → warmSlot f0 f1 s = some k → (tabGet {} s.boot.slots k).raiseMinimum = true →
    s.boot.securityMin < (tabGet {} s.boot.slots k).security → Completes (.warmRestartDone f0 f1 true) s fun t =>
      t.boot.securityMin = (tabGet {} s.boot.slots k).security ∧ logged 0x0F18 t) ∧
  (exec i s = .next t → t.boot.securityMin ≠ s.boot.securityMin → t.boot.stage = .ready ∧ t.boot.running.raiseMinimum = true ∧
    s.boot.securityMin < t.boot.running.security ∧ t.boot.securityMin = t.boot.running.security ∧ ((∃ ppm, i = .glazeReady ppm) ∨
      ∃ f0 f1, i = .warmRestartDone f0 f1 true)) ∧
  (∀ k fails, (tabGet {} s.boot.slots k).security < s.boot.securityMin → readCheck s k fails ≠ 0)

/-- R537: FW_ACTIVATE with restart_now is rejected with STATE when the running state_format lies outside adopt_from to state_format of the image in
the named slot, besides an image that fails its own check; one that passes both asks for the restart. -/
def Obligations.WarmActivationNeedsAnAdoptableState : Prop := ∀ (c : Cmd) (s : State),
  let k := u8 (given c s) 0
  let v := tabGet {} s.boot.slots k
  let f := s.boot.running.stateFormat
  passes opFwActivate c s = true → bit (u8 (given c s) 1) 0 = true → fwWrites s = false →
    (f < v.adoptFrom ∨ v.stateFormat < f ∨ slotCheck s k ≠ 0 → Completes (.fwActivate c) s fun t =>
      answered opFwActivate c .state (toLe 2 0xFFFF) [] s t ∧ ∀ p, p ≠ .host → Same p s t) ∧
    (v.adoptFrom ≤ f → f ≤ v.stateFormat → slotCheck s k = 0 → Completes (.fwActivate c) s fun t =>
      answered opFwActivate c .ok [] [] s t ∧ t.boot.warmDue = some (2, k) ∧ t.boot.dataArea.nextSlot = k)
end

