-- ==== Sys2Proof/Laws/State.lean ====
section
/-!
SUPPORT. The fields of the state after each update of one of its parts.
-/

namespace Sys2Proof.Laws

open Sys2Proof.Machine

section

variable (f : TimeState → TimeState) (s : State)

@[simp] theorem modTime_now : (modTime f s).now = s.now := rfl
@[simp] theorem modTime_free : (modTime f s).free = s.free := rfl
@[simp] theorem modTime_out : (modTime f s).out = s.out := rfl
@[simp] theorem modTime_pending : (modTime f s).pending = s.pending := rfl
@[simp] theorem modTime_tableProfile : (modTime f s).tableProfile = s.tableProfile := rfl
@[simp] theorem modTime_bufferProfile : (modTime f s).bufferProfile = s.bufferProfile := rfl
@[simp] theorem modTime_limits : (modTime f s).limits = s.limits := rfl
@[simp] theorem modTime_time : (modTime f s).time = f s.time := rfl
@[simp] theorem modTime_flt : (modTime f s).flt = s.flt := rfl
@[simp] theorem modTime_tel : (modTime f s).tel = s.tel := rfl
@[simp] theorem modTime_host : (modTime f s).host = s.host := rfl
@[simp] theorem modTime_boot : (modTime f s).boot = s.boot := rfl
@[simp] theorem modTime_lane : (modTime f s).lane = s.lane := rfl
@[simp] theorem modTime_mac : (modTime f s).mac = s.mac := rfl
@[simp] theorem modTime_fr : (modTime f s).fr = s.fr := rfl
@[simp] theorem modTime_prs : (modTime f s).prs = s.prs := rfl
@[simp] theorem modTime_sw : (modTime f s).sw = s.sw := rfl
@[simp] theorem modTime_mat : (modTime f s).mat = s.mat := rfl
@[simp] theorem modTime_fwd : (modTime f s).fwd = s.fwd := rfl
@[simp] theorem modTime_sig : (modTime f s).sig = s.sig := rfl
@[simp] theorem modTime_buf : (modTime f s).buf = s.buf := rfl
@[simp] theorem modTime_sch : (modTime f s).sch = s.sch := rfl
@[simp] theorem modTime_pow : (modTime f s).pow = s.pow := rfl

end

section

variable (f : FaultState → FaultState) (s : State)

@[simp] theorem modFlt_now : (modFlt f s).now = s.now := rfl
@[simp] theorem modFlt_free : (modFlt f s).free = s.free := rfl
@[simp] theorem modFlt_out : (modFlt f s).out = s.out := rfl
@[simp] theorem modFlt_pending : (modFlt f s).pending = s.pending := rfl
@[simp] theorem modFlt_tableProfile : (modFlt f s).tableProfile = s.tableProfile := rfl
@[simp] theorem modFlt_bufferProfile : (modFlt f s).bufferProfile = s.bufferProfile := rfl
@[simp] theorem modFlt_limits : (modFlt f s).limits = s.limits := rfl
@[simp] theorem modFlt_time : (modFlt f s).time = s.time := rfl
@[simp] theorem modFlt_flt : (modFlt f s).flt = f s.flt := rfl
@[simp] theorem modFlt_tel : (modFlt f s).tel = s.tel := rfl
@[simp] theorem modFlt_host : (modFlt f s).host = s.host := rfl
@[simp] theorem modFlt_boot : (modFlt f s).boot = s.boot := rfl
@[simp] theorem modFlt_lane : (modFlt f s).lane = s.lane := rfl
@[simp] theorem modFlt_mac : (modFlt f s).mac = s.mac := rfl
@[simp] theorem modFlt_fr : (modFlt f s).fr = s.fr := rfl
@[simp] theorem modFlt_prs : (modFlt f s).prs = s.prs := rfl
@[simp] theorem modFlt_sw : (modFlt f s).sw = s.sw := rfl
@[simp] theorem modFlt_mat : (modFlt f s).mat = s.mat := rfl
@[simp] theorem modFlt_fwd : (modFlt f s).fwd = s.fwd := rfl
@[simp] theorem modFlt_sig : (modFlt f s).sig = s.sig := rfl
@[simp] theorem modFlt_buf : (modFlt f s).buf = s.buf := rfl
@[simp] theorem modFlt_sch : (modFlt f s).sch = s.sch := rfl
@[simp] theorem modFlt_pow : (modFlt f s).pow = s.pow := rfl

end

section

variable (f : ObserveState → ObserveState) (s : State)

@[simp] theorem modTel_now : (modTel f s).now = s.now := rfl
@[simp] theorem modTel_free : (modTel f s).free = s.free := rfl
@[simp] theorem modTel_out : (modTel f s).out = s.out := rfl
@[simp] theorem modTel_pending : (modTel f s).pending = s.pending := rfl
@[simp] theorem modTel_tableProfile : (modTel f s).tableProfile = s.tableProfile := rfl
@[simp] theorem modTel_bufferProfile : (modTel f s).bufferProfile = s.bufferProfile := rfl
@[simp] theorem modTel_limits : (modTel f s).limits = s.limits := rfl
@[simp] theorem modTel_time : (modTel f s).time = s.time := rfl
@[simp] theorem modTel_flt : (modTel f s).flt = s.flt := rfl
@[simp] theorem modTel_tel : (modTel f s).tel = f s.tel := rfl
@[simp] theorem modTel_host : (modTel f s).host = s.host := rfl
@[simp] theorem modTel_boot : (modTel f s).boot = s.boot := rfl
@[simp] theorem modTel_lane : (modTel f s).lane = s.lane := rfl
@[simp] theorem modTel_mac : (modTel f s).mac = s.mac := rfl
@[simp] theorem modTel_fr : (modTel f s).fr = s.fr := rfl
@[simp] theorem modTel_prs : (modTel f s).prs = s.prs := rfl
@[simp] theorem modTel_sw : (modTel f s).sw = s.sw := rfl
@[simp] theorem modTel_mat : (modTel f s).mat = s.mat := rfl
@[simp] theorem modTel_fwd : (modTel f s).fwd = s.fwd := rfl
@[simp] theorem modTel_sig : (modTel f s).sig = s.sig := rfl
@[simp] theorem modTel_buf : (modTel f s).buf = s.buf := rfl
@[simp] theorem modTel_sch : (modTel f s).sch = s.sch := rfl
@[simp] theorem modTel_pow : (modTel f s).pow = s.pow := rfl

end

section

variable (f : HostState → HostState) (s : State)

@[simp] theorem modHost_now : (modHost f s).now = s.now := rfl
@[simp] theorem modHost_free : (modHost f s).free = s.free := rfl
@[simp] theorem modHost_out : (modHost f s).out = s.out := rfl
@[simp] theorem modHost_pending : (modHost f s).pending = s.pending := rfl
@[simp] theorem modHost_tableProfile : (modHost f s).tableProfile = s.tableProfile := rfl
@[simp] theorem modHost_bufferProfile : (modHost f s).bufferProfile = s.bufferProfile := rfl
@[simp] theorem modHost_limits : (modHost f s).limits = s.limits := rfl
@[simp] theorem modHost_time : (modHost f s).time = s.time := rfl
@[simp] theorem modHost_flt : (modHost f s).flt = s.flt := rfl
@[simp] theorem modHost_tel : (modHost f s).tel = s.tel := rfl
@[simp] theorem modHost_host : (modHost f s).host = f s.host := rfl
@[simp] theorem modHost_boot : (modHost f s).boot = s.boot := rfl
@[simp] theorem modHost_lane : (modHost f s).lane = s.lane := rfl
@[simp] theorem modHost_mac : (modHost f s).mac = s.mac := rfl
@[simp] theorem modHost_fr : (modHost f s).fr = s.fr := rfl
@[simp] theorem modHost_prs : (modHost f s).prs = s.prs := rfl
@[simp] theorem modHost_sw : (modHost f s).sw = s.sw := rfl
@[simp] theorem modHost_mat : (modHost f s).mat = s.mat := rfl
@[simp] theorem modHost_fwd : (modHost f s).fwd = s.fwd := rfl
@[simp] theorem modHost_sig : (modHost f s).sig = s.sig := rfl
@[simp] theorem modHost_buf : (modHost f s).buf = s.buf := rfl
@[simp] theorem modHost_sch : (modHost f s).sch = s.sch := rfl
@[simp] theorem modHost_pow : (modHost f s).pow = s.pow := rfl

end

section

variable (f : BootState → BootState) (s : State)

@[simp] theorem modBoot_now : (modBoot f s).now = s.now := rfl
@[simp] theorem modBoot_free : (modBoot f s).free = s.free := rfl
@[simp] theorem modBoot_out : (modBoot f s).out = s.out := rfl
@[simp] theorem modBoot_pending : (modBoot f s).pending = s.pending := rfl
@[simp] theorem modBoot_tableProfile : (modBoot f s).tableProfile = s.tableProfile := rfl
@[simp] theorem modBoot_bufferProfile : (modBoot f s).bufferProfile = s.bufferProfile := rfl
@[simp] theorem modBoot_limits : (modBoot f s).limits = s.limits := rfl
@[simp] theorem modBoot_time : (modBoot f s).time = s.time := rfl
@[simp] theorem modBoot_flt : (modBoot f s).flt = s.flt := rfl
@[simp] theorem modBoot_tel : (modBoot f s).tel = s.tel := rfl
@[simp] theorem modBoot_host : (modBoot f s).host = s.host := rfl
@[simp] theorem modBoot_boot : (modBoot f s).boot = f s.boot := rfl
@[simp] theorem modBoot_lane : (modBoot f s).lane = s.lane := rfl
@[simp] theorem modBoot_mac : (modBoot f s).mac = s.mac := rfl
@[simp] theorem modBoot_fr : (modBoot f s).fr = s.fr := rfl
@[simp] theorem modBoot_prs : (modBoot f s).prs = s.prs := rfl
@[simp] theorem modBoot_sw : (modBoot f s).sw = s.sw := rfl
@[simp] theorem modBoot_mat : (modBoot f s).mat = s.mat := rfl
@[simp] theorem modBoot_fwd : (modBoot f s).fwd = s.fwd := rfl
@[simp] theorem modBoot_sig : (modBoot f s).sig = s.sig := rfl
@[simp] theorem modBoot_buf : (modBoot f s).buf = s.buf := rfl
@[simp] theorem modBoot_sch : (modBoot f s).sch = s.sch := rfl
@[simp] theorem modBoot_pow : (modBoot f s).pow = s.pow := rfl

end

section

variable (f : LaneState → LaneState) (s : State)

@[simp] theorem modLaneState_now : (modLaneState f s).now = s.now := rfl
@[simp] theorem modLaneState_free : (modLaneState f s).free = s.free := rfl
@[simp] theorem modLaneState_out : (modLaneState f s).out = s.out := rfl
@[simp] theorem modLaneState_pending : (modLaneState f s).pending = s.pending := rfl
@[simp] theorem modLaneState_tableProfile : (modLaneState f s).tableProfile = s.tableProfile := rfl
@[simp] theorem modLaneState_bufferProfile : (modLaneState f s).bufferProfile = s.bufferProfile := rfl
@[simp] theorem modLaneState_limits : (modLaneState f s).limits = s.limits := rfl
@[simp] theorem modLaneState_time : (modLaneState f s).time = s.time := rfl
@[simp] theorem modLaneState_flt : (modLaneState f s).flt = s.flt := rfl
@[simp] theorem modLaneState_tel : (modLaneState f s).tel = s.tel := rfl
@[simp] theorem modLaneState_host : (modLaneState f s).host = s.host := rfl
@[simp] theorem modLaneState_boot : (modLaneState f s).boot = s.boot := rfl
@[simp] theorem modLaneState_lane : (modLaneState f s).lane = f s.lane := rfl
@[simp] theorem modLaneState_mac : (modLaneState f s).mac = s.mac := rfl
@[simp] theorem modLaneState_fr : (modLaneState f s).fr = s.fr := rfl
@[simp] theorem modLaneState_prs : (modLaneState f s).prs = s.prs := rfl
@[simp] theorem modLaneState_sw : (modLaneState f s).sw = s.sw := rfl
@[simp] theorem modLaneState_mat : (modLaneState f s).mat = s.mat := rfl
@[simp] theorem modLaneState_fwd : (modLaneState f s).fwd = s.fwd := rfl
@[simp] theorem modLaneState_sig : (modLaneState f s).sig = s.sig := rfl
@[simp] theorem modLaneState_buf : (modLaneState f s).buf = s.buf := rfl
@[simp] theorem modLaneState_sch : (modLaneState f s).sch = s.sch := rfl
@[simp] theorem modLaneState_pow : (modLaneState f s).pow = s.pow := rfl

end

section

variable (f : MacState → MacState) (s : State)

@[simp] theorem modMac_now : (modMac f s).now = s.now := rfl
@[simp] theorem modMac_free : (modMac f s).free = s.free := rfl
@[simp] theorem modMac_out : (modMac f s).out = s.out := rfl
@[simp] theorem modMac_pending : (modMac f s).pending = s.pending := rfl
@[simp] theorem modMac_tableProfile : (modMac f s).tableProfile = s.tableProfile := rfl
@[simp] theorem modMac_bufferProfile : (modMac f s).bufferProfile = s.bufferProfile := rfl
@[simp] theorem modMac_limits : (modMac f s).limits = s.limits := rfl
@[simp] theorem modMac_time : (modMac f s).time = s.time := rfl
@[simp] theorem modMac_flt : (modMac f s).flt = s.flt := rfl
@[simp] theorem modMac_tel : (modMac f s).tel = s.tel := rfl
@[simp] theorem modMac_host : (modMac f s).host = s.host := rfl
@[simp] theorem modMac_boot : (modMac f s).boot = s.boot := rfl
@[simp] theorem modMac_lane : (modMac f s).lane = s.lane := rfl
@[simp] theorem modMac_mac : (modMac f s).mac = f s.mac := rfl
@[simp] theorem modMac_fr : (modMac f s).fr = s.fr := rfl
@[simp] theorem modMac_prs : (modMac f s).prs = s.prs := rfl
@[simp] theorem modMac_sw : (modMac f s).sw = s.sw := rfl
@[simp] theorem modMac_mat : (modMac f s).mat = s.mat := rfl
@[simp] theorem modMac_fwd : (modMac f s).fwd = s.fwd := rfl
@[simp] theorem modMac_sig : (modMac f s).sig = s.sig := rfl
@[simp] theorem modMac_buf : (modMac f s).buf = s.buf := rfl
@[simp] theorem modMac_sch : (modMac f s).sch = s.sch := rfl
@[simp] theorem modMac_pow : (modMac f s).pow = s.pow := rfl

end

section

variable (f : FrameState → FrameState) (s : State)

@[simp] theorem modFr_now : (modFr f s).now = s.now := rfl
@[simp] theorem modFr_free : (modFr f s).free = s.free := rfl
@[simp] theorem modFr_out : (modFr f s).out = s.out := rfl
@[simp] theorem modFr_pending : (modFr f s).pending = s.pending := rfl
@[simp] theorem modFr_tableProfile : (modFr f s).tableProfile = s.tableProfile := rfl
@[simp] theorem modFr_bufferProfile : (modFr f s).bufferProfile = s.bufferProfile := rfl
@[simp] theorem modFr_limits : (modFr f s).limits = s.limits := rfl
@[simp] theorem modFr_time : (modFr f s).time = s.time := rfl
@[simp] theorem modFr_flt : (modFr f s).flt = s.flt := rfl
@[simp] theorem modFr_tel : (modFr f s).tel = s.tel := rfl
@[simp] theorem modFr_host : (modFr f s).host = s.host := rfl
@[simp] theorem modFr_boot : (modFr f s).boot = s.boot := rfl
@[simp] theorem modFr_lane : (modFr f s).lane = s.lane := rfl
@[simp] theorem modFr_mac : (modFr f s).mac = s.mac := rfl
@[simp] theorem modFr_fr : (modFr f s).fr = f s.fr := rfl
@[simp] theorem modFr_prs : (modFr f s).prs = s.prs := rfl
@[simp] theorem modFr_sw : (modFr f s).sw = s.sw := rfl
@[simp] theorem modFr_mat : (modFr f s).mat = s.mat := rfl
@[simp] theorem modFr_fwd : (modFr f s).fwd = s.fwd := rfl
@[simp] theorem modFr_sig : (modFr f s).sig = s.sig := rfl
@[simp] theorem modFr_buf : (modFr f s).buf = s.buf := rfl
@[simp] theorem modFr_sch : (modFr f s).sch = s.sch := rfl
@[simp] theorem modFr_pow : (modFr f s).pow = s.pow := rfl

end

section

variable (f : ParserState → ParserState) (s : State)

@[simp] theorem modPrs_now : (modPrs f s).now = s.now := rfl
@[simp] theorem modPrs_free : (modPrs f s).free = s.free := rfl
@[simp] theorem modPrs_out : (modPrs f s).out = s.out := rfl
@[simp] theorem modPrs_pending : (modPrs f s).pending = s.pending := rfl
@[simp] theorem modPrs_tableProfile : (modPrs f s).tableProfile = s.tableProfile := rfl
@[simp] theorem modPrs_bufferProfile : (modPrs f s).bufferProfile = s.bufferProfile := rfl
@[simp] theorem modPrs_limits : (modPrs f s).limits = s.limits := rfl
@[simp] theorem modPrs_time : (modPrs f s).time = s.time := rfl
@[simp] theorem modPrs_flt : (modPrs f s).flt = s.flt := rfl
@[simp] theorem modPrs_tel : (modPrs f s).tel = s.tel := rfl
@[simp] theorem modPrs_host : (modPrs f s).host = s.host := rfl
@[simp] theorem modPrs_boot : (modPrs f s).boot = s.boot := rfl
@[simp] theorem modPrs_lane : (modPrs f s).lane = s.lane := rfl
@[simp] theorem modPrs_mac : (modPrs f s).mac = s.mac := rfl
@[simp] theorem modPrs_fr : (modPrs f s).fr = s.fr := rfl
@[simp] theorem modPrs_prs : (modPrs f s).prs = f s.prs := rfl
@[simp] theorem modPrs_sw : (modPrs f s).sw = s.sw := rfl
@[simp] theorem modPrs_mat : (modPrs f s).mat = s.mat := rfl
@[simp] theorem modPrs_fwd : (modPrs f s).fwd = s.fwd := rfl
@[simp] theorem modPrs_sig : (modPrs f s).sig = s.sig := rfl
@[simp] theorem modPrs_buf : (modPrs f s).buf = s.buf := rfl
@[simp] theorem modPrs_sch : (modPrs f s).sch = s.sch := rfl
@[simp] theorem modPrs_pow : (modPrs f s).pow = s.pow := rfl

end

section

variable (f : MatState → MatState) (s : State)

@[simp] theorem modMat_now : (modMat f s).now = s.now := rfl
@[simp] theorem modMat_free : (modMat f s).free = s.free := rfl
@[simp] theorem modMat_out : (modMat f s).out = s.out := rfl
@[simp] theorem modMat_pending : (modMat f s).pending = s.pending := rfl
@[simp] theorem modMat_tableProfile : (modMat f s).tableProfile = s.tableProfile := rfl
@[simp] theorem modMat_bufferProfile : (modMat f s).bufferProfile = s.bufferProfile := rfl
@[simp] theorem modMat_limits : (modMat f s).limits = s.limits := rfl
@[simp] theorem modMat_time : (modMat f s).time = s.time := rfl
@[simp] theorem modMat_flt : (modMat f s).flt = s.flt := rfl
@[simp] theorem modMat_tel : (modMat f s).tel = s.tel := rfl
@[simp] theorem modMat_host : (modMat f s).host = s.host := rfl
@[simp] theorem modMat_boot : (modMat f s).boot = s.boot := rfl
@[simp] theorem modMat_lane : (modMat f s).lane = s.lane := rfl
@[simp] theorem modMat_mac : (modMat f s).mac = s.mac := rfl
@[simp] theorem modMat_fr : (modMat f s).fr = s.fr := rfl
@[simp] theorem modMat_prs : (modMat f s).prs = s.prs := rfl
@[simp] theorem modMat_sw : (modMat f s).sw = s.sw := rfl
@[simp] theorem modMat_mat : (modMat f s).mat = f s.mat := rfl
@[simp] theorem modMat_fwd : (modMat f s).fwd = s.fwd := rfl
@[simp] theorem modMat_sig : (modMat f s).sig = s.sig := rfl
@[simp] theorem modMat_buf : (modMat f s).buf = s.buf := rfl
@[simp] theorem modMat_sch : (modMat f s).sch = s.sch := rfl
@[simp] theorem modMat_pow : (modMat f s).pow = s.pow := rfl

end

section

variable (f : FwdState → FwdState) (s : State)

@[simp] theorem modFwd_now : (modFwd f s).now = s.now := rfl
@[simp] theorem modFwd_free : (modFwd f s).free = s.free := rfl
@[simp] theorem modFwd_out : (modFwd f s).out = s.out := rfl
@[simp] theorem modFwd_pending : (modFwd f s).pending = s.pending := rfl
@[simp] theorem modFwd_tableProfile : (modFwd f s).tableProfile = s.tableProfile := rfl
@[simp] theorem modFwd_bufferProfile : (modFwd f s).bufferProfile = s.bufferProfile := rfl
@[simp] theorem modFwd_limits : (modFwd f s).limits = s.limits := rfl
@[simp] theorem modFwd_time : (modFwd f s).time = s.time := rfl
@[simp] theorem modFwd_flt : (modFwd f s).flt = s.flt := rfl
@[simp] theorem modFwd_tel : (modFwd f s).tel = s.tel := rfl
@[simp] theorem modFwd_host : (modFwd f s).host = s.host := rfl
@[simp] theorem modFwd_boot : (modFwd f s).boot = s.boot := rfl
@[simp] theorem modFwd_lane : (modFwd f s).lane = s.lane := rfl
@[simp] theorem modFwd_mac : (modFwd f s).mac = s.mac := rfl
@[simp] theorem modFwd_fr : (modFwd f s).fr = s.fr := rfl
@[simp] theorem modFwd_prs : (modFwd f s).prs = s.prs := rfl
@[simp] theorem modFwd_sw : (modFwd f s).sw = s.sw := rfl
@[simp] theorem modFwd_mat : (modFwd f s).mat = s.mat := rfl
@[simp] theorem modFwd_fwd : (modFwd f s).fwd = f s.fwd := rfl
@[simp] theorem modFwd_sig : (modFwd f s).sig = s.sig := rfl
@[simp] theorem modFwd_buf : (modFwd f s).buf = s.buf := rfl
@[simp] theorem modFwd_sch : (modFwd f s).sch = s.sch := rfl
@[simp] theorem modFwd_pow : (modFwd f s).pow = s.pow := rfl

end

section

variable (f : SigState → SigState) (s : State)

@[simp] theorem modSig_now : (modSig f s).now = s.now := rfl
@[simp] theorem modSig_free : (modSig f s).free = s.free := rfl
@[simp] theorem modSig_out : (modSig f s).out = s.out := rfl
@[simp] theorem modSig_pending : (modSig f s).pending = s.pending := rfl
@[simp] theorem modSig_tableProfile : (modSig f s).tableProfile = s.tableProfile := rfl
@[simp] theorem modSig_bufferProfile : (modSig f s).bufferProfile = s.bufferProfile := rfl
@[simp] theorem modSig_limits : (modSig f s).limits = s.limits := rfl
@[simp] theorem modSig_time : (modSig f s).time = s.time := rfl
@[simp] theorem modSig_flt : (modSig f s).flt = s.flt := rfl
@[simp] theorem modSig_tel : (modSig f s).tel = s.tel := rfl
@[simp] theorem modSig_host : (modSig f s).host = s.host := rfl
@[simp] theorem modSig_boot : (modSig f s).boot = s.boot := rfl
@[simp] theorem modSig_lane : (modSig f s).lane = s.lane := rfl
@[simp] theorem modSig_mac : (modSig f s).mac = s.mac := rfl
@[simp] theorem modSig_fr : (modSig f s).fr = s.fr := rfl
@[simp] theorem modSig_prs : (modSig f s).prs = s.prs := rfl
@[simp] theorem modSig_sw : (modSig f s).sw = s.sw := rfl
@[simp] theorem modSig_mat : (modSig f s).mat = s.mat := rfl
@[simp] theorem modSig_fwd : (modSig f s).fwd = s.fwd := rfl
@[simp] theorem modSig_sig : (modSig f s).sig = f s.sig := rfl
@[simp] theorem modSig_buf : (modSig f s).buf = s.buf := rfl
@[simp] theorem modSig_sch : (modSig f s).sch = s.sch := rfl
@[simp] theorem modSig_pow : (modSig f s).pow = s.pow := rfl

end

section

variable (f : SwitchState → SwitchState) (s : State)

@[simp] theorem modSw_now : (modSw f s).now = s.now := rfl
@[simp] theorem modSw_free : (modSw f s).free = s.free := rfl
@[simp] theorem modSw_out : (modSw f s).out = s.out := rfl
@[simp] theorem modSw_pending : (modSw f s).pending = s.pending := rfl
@[simp] theorem modSw_tableProfile : (modSw f s).tableProfile = s.tableProfile := rfl
@[simp] theorem modSw_bufferProfile : (modSw f s).bufferProfile = s.bufferProfile := rfl
@[simp] theorem modSw_limits : (modSw f s).limits = s.limits := rfl
@[simp] theorem modSw_time : (modSw f s).time = s.time := rfl
@[simp] theorem modSw_flt : (modSw f s).flt = s.flt := rfl
@[simp] theorem modSw_tel : (modSw f s).tel = s.tel := rfl
@[simp] theorem modSw_host : (modSw f s).host = s.host := rfl
@[simp] theorem modSw_boot : (modSw f s).boot = s.boot := rfl
@[simp] theorem modSw_lane : (modSw f s).lane = s.lane := rfl
@[simp] theorem modSw_mac : (modSw f s).mac = s.mac := rfl
@[simp] theorem modSw_fr : (modSw f s).fr = s.fr := rfl
@[simp] theorem modSw_prs : (modSw f s).prs = s.prs := rfl
@[simp] theorem modSw_sw : (modSw f s).sw = f s.sw := rfl
@[simp] theorem modSw_mat : (modSw f s).mat = s.mat := rfl
@[simp] theorem modSw_fwd : (modSw f s).fwd = s.fwd := rfl
@[simp] theorem modSw_sig : (modSw f s).sig = s.sig := rfl
@[simp] theorem modSw_buf : (modSw f s).buf = s.buf := rfl
@[simp] theorem modSw_sch : (modSw f s).sch = s.sch := rfl
@[simp] theorem modSw_pow : (modSw f s).pow = s.pow := rfl

end

section

variable (f : BufState → BufState) (s : State)

@[simp] theorem modBuf_now : (modBuf f s).now = s.now := rfl
@[simp] theorem modBuf_free : (modBuf f s).free = s.free := rfl
@[simp] theorem modBuf_out : (modBuf f s).out = s.out := rfl
@[simp] theorem modBuf_pending : (modBuf f s).pending = s.pending := rfl
@[simp] theorem modBuf_tableProfile : (modBuf f s).tableProfile = s.tableProfile := rfl
@[simp] theorem modBuf_bufferProfile : (modBuf f s).bufferProfile = s.bufferProfile := rfl
@[simp] theorem modBuf_limits : (modBuf f s).limits = s.limits := rfl
@[simp] theorem modBuf_time : (modBuf f s).time = s.time := rfl
@[simp] theorem modBuf_flt : (modBuf f s).flt = s.flt := rfl
@[simp] theorem modBuf_tel : (modBuf f s).tel = s.tel := rfl
@[simp] theorem modBuf_host : (modBuf f s).host = s.host := rfl
@[simp] theorem modBuf_boot : (modBuf f s).boot = s.boot := rfl
@[simp] theorem modBuf_lane : (modBuf f s).lane = s.lane := rfl
@[simp] theorem modBuf_mac : (modBuf f s).mac = s.mac := rfl
@[simp] theorem modBuf_fr : (modBuf f s).fr = s.fr := rfl
@[simp] theorem modBuf_prs : (modBuf f s).prs = s.prs := rfl
@[simp] theorem modBuf_sw : (modBuf f s).sw = s.sw := rfl
@[simp] theorem modBuf_mat : (modBuf f s).mat = s.mat := rfl
@[simp] theorem modBuf_fwd : (modBuf f s).fwd = s.fwd := rfl
@[simp] theorem modBuf_sig : (modBuf f s).sig = s.sig := rfl
@[simp] theorem modBuf_buf : (modBuf f s).buf = f s.buf := rfl
@[simp] theorem modBuf_sch : (modBuf f s).sch = s.sch := rfl
@[simp] theorem modBuf_pow : (modBuf f s).pow = s.pow := rfl

end

section

variable (f : SchedState → SchedState) (s : State)

@[simp] theorem modSch_now : (modSch f s).now = s.now := rfl
@[simp] theorem modSch_free : (modSch f s).free = s.free := rfl
@[simp] theorem modSch_out : (modSch f s).out = s.out := rfl
@[simp] theorem modSch_pending : (modSch f s).pending = s.pending := rfl
@[simp] theorem modSch_tableProfile : (modSch f s).tableProfile = s.tableProfile := rfl
@[simp] theorem modSch_bufferProfile : (modSch f s).bufferProfile = s.bufferProfile := rfl
@[simp] theorem modSch_limits : (modSch f s).limits = s.limits := rfl
@[simp] theorem modSch_time : (modSch f s).time = s.time := rfl
@[simp] theorem modSch_flt : (modSch f s).flt = s.flt := rfl
@[simp] theorem modSch_tel : (modSch f s).tel = s.tel := rfl
@[simp] theorem modSch_host : (modSch f s).host = s.host := rfl
@[simp] theorem modSch_boot : (modSch f s).boot = s.boot := rfl
@[simp] theorem modSch_lane : (modSch f s).lane = s.lane := rfl
@[simp] theorem modSch_mac : (modSch f s).mac = s.mac := rfl
@[simp] theorem modSch_fr : (modSch f s).fr = s.fr := rfl
@[simp] theorem modSch_prs : (modSch f s).prs = s.prs := rfl
@[simp] theorem modSch_sw : (modSch f s).sw = s.sw := rfl
@[simp] theorem modSch_mat : (modSch f s).mat = s.mat := rfl
@[simp] theorem modSch_fwd : (modSch f s).fwd = s.fwd := rfl
@[simp] theorem modSch_sig : (modSch f s).sig = s.sig := rfl
@[simp] theorem modSch_buf : (modSch f s).buf = s.buf := rfl
@[simp] theorem modSch_sch : (modSch f s).sch = f s.sch := rfl
@[simp] theorem modSch_pow : (modSch f s).pow = s.pow := rfl

end

section

variable (f : PowerState → PowerState) (s : State)

@[simp] theorem modPow_now : (modPow f s).now = s.now := rfl
@[simp] theorem modPow_free : (modPow f s).free = s.free := rfl
@[simp] theorem modPow_out : (modPow f s).out = s.out := rfl
@[simp] theorem modPow_pending : (modPow f s).pending = s.pending := rfl
@[simp] theorem modPow_tableProfile : (modPow f s).tableProfile = s.tableProfile := rfl
@[simp] theorem modPow_bufferProfile : (modPow f s).bufferProfile = s.bufferProfile := rfl
@[simp] theorem modPow_limits : (modPow f s).limits = s.limits := rfl
@[simp] theorem modPow_time : (modPow f s).time = s.time := rfl
@[simp] theorem modPow_flt : (modPow f s).flt = s.flt := rfl
@[simp] theorem modPow_tel : (modPow f s).tel = s.tel := rfl
@[simp] theorem modPow_host : (modPow f s).host = s.host := rfl
@[simp] theorem modPow_boot : (modPow f s).boot = s.boot := rfl
@[simp] theorem modPow_lane : (modPow f s).lane = s.lane := rfl
@[simp] theorem modPow_mac : (modPow f s).mac = s.mac := rfl
@[simp] theorem modPow_fr : (modPow f s).fr = s.fr := rfl
@[simp] theorem modPow_prs : (modPow f s).prs = s.prs := rfl
@[simp] theorem modPow_sw : (modPow f s).sw = s.sw := rfl
@[simp] theorem modPow_mat : (modPow f s).mat = s.mat := rfl
@[simp] theorem modPow_fwd : (modPow f s).fwd = s.fwd := rfl
@[simp] theorem modPow_sig : (modPow f s).sig = s.sig := rfl
@[simp] theorem modPow_buf : (modPow f s).buf = s.buf := rfl
@[simp] theorem modPow_sch : (modPow f s).sch = s.sch := rfl
@[simp] theorem modPow_pow : (modPow f s).pow = f s.pow := rfl

end

section

variable (t : Nat) (s : State)

@[simp] theorem reach_now : (reach t s).now = max s.now t := rfl
@[simp] theorem reach_free : (reach t s).free = s.free := rfl
@[simp] theorem reach_out : (reach t s).out = s.out := rfl
@[simp] theorem reach_pending : (reach t s).pending = s.pending := rfl
@[simp] theorem reach_tableProfile : (reach t s).tableProfile = s.tableProfile := rfl
@[simp] theorem reach_bufferProfile : (reach t s).bufferProfile = s.bufferProfile := rfl
@[simp] theorem reach_limits : (reach t s).limits = s.limits := rfl
@[simp] theorem reach_time : (reach t s).time = s.time := rfl
@[simp] theorem reach_flt : (reach t s).flt = s.flt := rfl
@[simp] theorem reach_tel : (reach t s).tel = s.tel := rfl
@[simp] theorem reach_host : (reach t s).host = s.host := rfl
@[simp] theorem reach_boot : (reach t s).boot = s.boot := rfl
@[simp] theorem reach_lane : (reach t s).lane = s.lane := rfl
@[simp] theorem reach_mac : (reach t s).mac = s.mac := rfl
@[simp] theorem reach_fr : (reach t s).fr = s.fr := rfl
@[simp] theorem reach_prs : (reach t s).prs = s.prs := rfl
@[simp] theorem reach_sw : (reach t s).sw = s.sw := rfl
@[simp] theorem reach_mat : (reach t s).mat = s.mat := rfl
@[simp] theorem reach_fwd : (reach t s).fwd = s.fwd := rfl
@[simp] theorem reach_sig : (reach t s).sig = s.sig := rfl
@[simp] theorem reach_buf : (reach t s).buf = s.buf := rfl
@[simp] theorem reach_sch : (reach t s).sch = s.sch := rfl
@[simp] theorem reach_pow : (reach t s).pow = s.pow := rfl

end

section

variable (n : Nat) (s : State)

@[simp] theorem elapse_now : (elapse n s).now = s.now + n := rfl
@[simp] theorem elapse_free : (elapse n s).free = s.free := rfl
@[simp] theorem elapse_out : (elapse n s).out = s.out := rfl
@[simp] theorem elapse_pending : (elapse n s).pending = s.pending := rfl
@[simp] theorem elapse_tableProfile : (elapse n s).tableProfile = s.tableProfile := rfl
@[simp] theorem elapse_bufferProfile : (elapse n s).bufferProfile = s.bufferProfile := rfl
@[simp] theorem elapse_limits : (elapse n s).limits = s.limits := rfl
@[simp] theorem elapse_time : (elapse n s).time = s.time := rfl
@[simp] theorem elapse_flt : (elapse n s).flt = s.flt := rfl
@[simp] theorem elapse_tel : (elapse n s).tel = s.tel := rfl
@[simp] theorem elapse_host : (elapse n s).host = s.host := rfl
@[simp] theorem elapse_boot : (elapse n s).boot = s.boot := rfl
@[simp] theorem elapse_lane : (elapse n s).lane = s.lane := rfl
@[simp] theorem elapse_mac : (elapse n s).mac = s.mac := rfl
@[simp] theorem elapse_fr : (elapse n s).fr = s.fr := rfl
@[simp] theorem elapse_prs : (elapse n s).prs = s.prs := rfl
@[simp] theorem elapse_sw : (elapse n s).sw = s.sw := rfl
@[simp] theorem elapse_mat : (elapse n s).mat = s.mat := rfl
@[simp] theorem elapse_fwd : (elapse n s).fwd = s.fwd := rfl
@[simp] theorem elapse_sig : (elapse n s).sig = s.sig := rfl
@[simp] theorem elapse_buf : (elapse n s).buf = s.buf := rfl
@[simp] theorem elapse_sch : (elapse n s).sch = s.sch := rfl
@[simp] theorem elapse_pow : (elapse n s).pow = s.pow := rfl

end

section

variable (e : Emission) (s : State)

@[simp] theorem emit_now : (emit e s).now = s.now := rfl
@[simp] theorem emit_free : (emit e s).free = s.free := rfl
@[simp] theorem emit_out : (emit e s).out = e :: s.out := rfl
@[simp] theorem emit_pending : (emit e s).pending = s.pending := rfl
@[simp] theorem emit_tableProfile : (emit e s).tableProfile = s.tableProfile := rfl
@[simp] theorem emit_bufferProfile : (emit e s).bufferProfile = s.bufferProfile := rfl
@[simp] theorem emit_limits : (emit e s).limits = s.limits := rfl
@[simp] theorem emit_time : (emit e s).time = s.time := rfl
@[simp] theorem emit_flt : (emit e s).flt = s.flt := rfl
@[simp] theorem emit_tel : (emit e s).tel = s.tel := rfl
@[simp] theorem emit_host : (emit e s).host = s.host := rfl
@[simp] theorem emit_boot : (emit e s).boot = s.boot := rfl
@[simp] theorem emit_lane : (emit e s).lane = s.lane := rfl
@[simp] theorem emit_mac : (emit e s).mac = s.mac := rfl
@[simp] theorem emit_fr : (emit e s).fr = s.fr := rfl
@[simp] theorem emit_prs : (emit e s).prs = s.prs := rfl
@[simp] theorem emit_sw : (emit e s).sw = s.sw := rfl
@[simp] theorem emit_mat : (emit e s).mat = s.mat := rfl
@[simp] theorem emit_fwd : (emit e s).fwd = s.fwd := rfl
@[simp] theorem emit_sig : (emit e s).sig = s.sig := rfl
@[simp] theorem emit_buf : (emit e s).buf = s.buf := rfl
@[simp] theorem emit_sch : (emit e s).sch = s.sch := rfl
@[simp] theorem emit_pow : (emit e s).pow = s.pow := rfl

end

end Sys2Proof.Laws
end

