-- ==== Sys2Proof/Laws/Store.lean ====
section
/-!
SUPPORT. The sparse table: a read after a write, other keys, and the canonical form.
-/

namespace Sys2Proof.Laws

open Sys2Proof Sys2Proof.Machine

section Find

variable {α : Type} (k : Nat) (v : α) (m : Store α)

@[simp] theorem tabFind_put : tabFind (tabPut k v m) k = some v := by
  induction m with
  | nil => simp [tabPut, tabFind]
  | cons e t ih =>
    obtain ⟨k', v'⟩ := e
    simp only [tabPut]
    split
    · simp [tabFind]
    · split
      · simp [tabFind]
      · rename_i h1 h2
        have : ¬ k' = k := by
          intro e; subst e; simp at h2
        simp [tabFind, this, ih]

theorem tabFind_put_ne {k j : Nat} (h : j ≠ k) : tabFind (tabPut k v m) j = tabFind m j := by
  induction m with
  | nil => simp [tabPut, tabFind, Ne.symm h]
  | cons e t ih =>
    obtain ⟨k', v'⟩ := e
    simp only [tabPut]
    split
    · simp [tabFind, Ne.symm h]
    · split
      · rename_i h2
        have h2 : k = k' := by simpa using h2
        subst h2
        simp [tabFind, Ne.symm h]
      · simp [tabFind, ih]

theorem tabFind_del_ne {k j : Nat} (h : j ≠ k) : tabFind (tabDel k m) j = tabFind m j := by
  induction m with
  | nil => rfl
  | cons e t ih =>
    obtain ⟨k', v'⟩ := e
    simp only [tabDel]
    split
    · rename_i h2
      have h2 : k' = k := by simpa using h2
      subst h2
      simp [tabFind, Ne.symm h, ih]
    · simp [tabFind, ih]

/-- A deleted key reads as nothing. -/
@[simp] theorem tabFind_del : tabFind (tabDel k m) k = none := by
  induction m with
  | nil => rfl
  | cons e t ih =>
    obtain ⟨k', v'⟩ := e
    simp only [tabDel]
    split
    · exact ih
    · rename_i hk
      have hk : ¬ k' = k := by simpa using hk
      simp [tabFind, hk, ih]

end Find

/-! ### The canonical form -/

theorem tabRising_cons {α : Type} {a : Nat × α} {t : Store α} : tabRising (a :: t) = true ↔ (∀ e ∈ t.head?, a.1 < e.1) ∧ tabRising t = true := by
  cases t with
  | nil => simp [tabRising]
  | cons b t => simp [tabRising]

theorem tabRising_lt {α : Type} {a : Nat × α} {t : Store α} (h : tabRising (a :: t) = true) : ∀ e ∈ t, a.1 < e.1 := by
  induction t generalizing a with
  | nil => simp
  | cons b t ih =>
    simp only [tabRising, Bool.and_eq_true, decide_eq_true_eq] at h
    intro e he
    rcases List.mem_cons.mp he with rfl | he
    · exact h.1
    · exact h.1.trans (ih h.2 e he)

theorem tabFind_none_of_lt {α : Type} {k : Nat} {t : Store α} (h : ∀ e ∈ t, k < e.1) : tabFind t k = none := by
  induction t with
  | nil => rfl
  | cons b t ih =>
    have hb := h b (by simp)
    have : ¬ b.1 = k := by omega
    simp [tabFind, this, ih fun e he => h e (by simp [he])]

theorem tabRising_put {α : Type} (k : Nat) (v : α) {m : Store α} (h : tabRising m = true) : tabRising (tabPut k v m) = true := by
  induction m with
  | nil => rfl
  | cons e t ih =>
    obtain ⟨k', v'⟩ := e
    simp only [tabPut]
    split
    · rename_i hk
      simp only [tabRising, Bool.and_eq_true, decide_eq_true_eq]
      exact ⟨hk, h⟩
    · split
      · rename_i hk
        have hk : k = k' := by simpa using hk
        subst hk
        cases t <;> simp_all [tabRising]
      · rename_i h1 h2
        have h2 : k ≠ k' := by simpa using h2
        rw [tabRising_cons] at h ⊢
        refine ⟨?_, ih h.2⟩
        cases t with
        | nil => simp [tabPut]; omega
        | cons b t =>
          have hb : k' < b.1 := h.1 b (by simp)
          simp only [tabPut]
          split
          · simp; omega
          · split <;> simp_all

theorem tabDel_subset {α : Type} (k : Nat) (m : Store α) : ∀ e ∈ tabDel k m, e ∈ m := by
  induction m with
  | nil => simp [tabDel]
  | cons b l ih =>
    intro y hy
    simp only [tabDel] at hy
    split at hy
    · exact List.mem_cons_of_mem _ (ih y hy)
    · rcases List.mem_cons.mp hy with rfl | hy
      · simp
      · exact List.mem_cons_of_mem _ (ih y hy)

theorem tabRising_del {α : Type} (k : Nat) {m : Store α} (h : tabRising m = true) : tabRising (tabDel k m) = true := by
  induction m with
  | nil => rfl
  | cons e t ih =>
    obtain ⟨k', v'⟩ := e
    simp only [tabDel]
    have ht : tabRising t = true := (tabRising_cons.mp h).2
    split
    · exact ih ht
    · rw [tabRising_cons]
      exact ⟨fun x hx => tabRising_lt h x (tabDel_subset k t x (List.mem_of_mem_head? hx)), ih ht⟩

theorem tabPut_subset {α : Type} (k : Nat) (v : α) (m : Store α) : ∀ e ∈ tabPut k v m, e = (k, v) ∨ e ∈ m := by
  induction m with
  | nil => simp [tabPut]
  | cons b l ih =>
    intro y hy
    simp only [tabPut] at hy
    split at hy
    · rcases List.mem_cons.mp hy with rfl | hy
      · simp
      · exact .inr hy
    · split at hy
      · rcases List.mem_cons.mp hy with rfl | hy
        · simp
        · exact .inr (List.mem_cons_of_mem _ hy)
      · rcases List.mem_cons.mp hy with rfl | hy
        · simp
        · rcases ih y hy with h | h
          · exact .inl h
          · exact .inr (List.mem_cons_of_mem _ h)

section Set

variable {α : Type} [DecidableEq α] (d v : α) (k : Nat) {m : Store α}

/-- A write keeps the canonical form. -/
theorem tabWf_set (h : tabWf d m = true) : tabWf d (tabSet d k v m) = true := by
  simp only [tabWf, Bool.and_eq_true, List.all_eq_true] at h ⊢
  unfold tabSet
  split
  · exact ⟨tabRising_del k h.1, fun e he => h.2 e (tabDel_subset k m e he)⟩
  · rename_i hv
    refine ⟨tabRising_put k v h.1, fun e he => ?_⟩
    rcases tabPut_subset k v m e he with rfl | he
    · simpa using hv
    · exact h.2 e he

theorem tabWf_mod (f : α → α) (h : tabWf d m = true) : tabWf d (tabMod d k f m) = true := tabWf_set _ _ _ h

theorem tabWf_del (h : tabWf d m = true) : tabWf d (tabDel k m) = true := by
  simp only [tabWf, Bool.and_eq_true, List.all_eq_true] at h ⊢
  exact ⟨tabRising_del k h.1, fun e he => h.2 e (tabDel_subset k m e he)⟩

theorem tabWf_fill (l : List α) (h : tabWf d m = true) : tabWf d (tabFill d k l m) = true := by
  induction l generalizing m k with
  | nil => exact h
  | cons v t ih => exact ih (k + 1) (tabWf_set d v k h)

/-- A read after a write to the same key gives the value written. -/
@[simp] theorem tabGet_set (m : Store α) : tabGet d (tabSet d k v m) k = v := by
  unfold tabGet tabSet
  split
  · rename_i hv
    rw [tabFind_del, hv]; rfl
  · simp

/-- A write leaves every other key alone. -/
theorem tabGet_set_ne {k j : Nat} (h : j ≠ k) : tabGet d (tabSet d k v m) j = tabGet d m j := by
  unfold tabGet tabSet
  split
  · rw [tabFind_del_ne m h]
  · rw [tabFind_put_ne v m h]

@[simp] theorem tabGet_mod (f : α → α) (m : Store α) : tabGet d (tabMod d k f m) k = f (tabGet d m k) := tabGet_set _ _ _ _

theorem tabGet_mod_ne {k j : Nat} (f : α → α) (m : Store α) (h : j ≠ k) : tabGet d (tabMod d k f m) j = tabGet d m j := tabGet_set_ne _ _ h

end Set

@[simp] theorem tabGet_put {α : Type} (d v : α) (k : Nat) (m : Store α) : tabGet d (tabPut k v m) k = v := by simp [tabGet]

theorem tabGet_put_ne {α : Type} (d v : α) {k j : Nat} (m : Store α) (h : j ≠ k) : tabGet d (tabPut k v m) j = tabGet d m j := by
  simp [tabGet, tabFind_put_ne v m h]

end Sys2Proof.Laws
end

