-- ==== Sys2Proof/Laws/Shared.lean ====
section
/-!
SUPPORT. The fields of the state after each shared operation, and what those operations write.
-/

namespace Sys2Proof.Laws

open Sys2Proof Sys2Proof.Machine

theorem kilnEvent_flt (code fb : Nat) (inj : Bool) (d : Bytes) (s : State) :
    ∃ k q n, kilnEvent code fb inj d s = { s with flt := { s.flt with kiln := k, nextSeq := q, newestIsLast := n } } := by
  unfold kilnEvent
  split
  · split
    · exact ⟨_, _, _, rfl⟩
    · split
      · exact ⟨_, _, _, rfl⟩
      · split <;> exact ⟨_, _, _, rfl⟩
  · exact ⟨_, _, _, rfl⟩

/-- The newest record after an event is of that event, or LOG_FULL. -/
theorem kilnEvent_head (code fb : Nat) (inj : Bool) (d : Bytes) (s : State) :
    ∃ r, (kilnEvent code fb inj d s).flt.kiln.head? = some r ∧ (r.code = code ∨ r.code = logFullCode) := by
  unfold kilnEvent
  split
  · rename_i r t e
    split
    · rename_i h
      exact ⟨_, rfl, .inr (by simpa [kilnBump] using h)⟩
    · split
      · rename_i h
        refine ⟨_, rfl, .inl ?_⟩
        simp [kilnRepeats] at h
        simp [kilnBump, h]
      · split
        · exact ⟨_, rfl, .inr rfl⟩
        · exact ⟨_, rfl, .inl rfl⟩
  · exact ⟨_, rfl, .inl rfl⟩

theorem raiseFault_flt (b k i : Nat) (o : Bool) (s : State) :
    ∃ r p, raiseFault b k i o s = { s with flt := { s.flt with inFlight := s.flt.inFlight ++ [r], points := p } } ∧
      r.bit = b ∧ r.kind = k ∧ r.index = i := by
  unfold raiseFault
  split <;> exact ⟨_, _, rfl, rfl, rfl, rfl⟩

section

variable (code fb : Nat) (inj : Bool) (d : Bytes) (s : State)

@[simp] theorem kilnEvent_now : (kilnEvent code fb inj d s).now = s.now := by obtain ⟨_, _, _, h⟩ := kilnEvent_flt code fb inj d s; rw [h]
@[simp] theorem kilnEvent_free : (kilnEvent code fb inj d s).free = s.free := by obtain ⟨_, _, _, h⟩ := kilnEvent_flt code fb inj d s; rw [h]
@[simp] theorem kilnEvent_out : (kilnEvent code fb inj d s).out = s.out := by obtain ⟨_, _, _, h⟩ := kilnEvent_flt code fb inj d s; rw [h]
@[simp] theorem kilnEvent_pending : (kilnEvent code fb inj d s).pending = s.pending := by obtain ⟨_, _, _, h⟩ := kilnEvent_flt code fb inj d s; rw [h]
@[simp] theorem kilnEvent_tableProfile : (kilnEvent code fb inj d s).tableProfile = s.tableProfile := by obtain ⟨_, _, _, h⟩ := kilnEvent_flt code fb inj d s; rw [h]
@[simp] theorem kilnEvent_bufferProfile : (kilnEvent code fb inj d s).bufferProfile = s.bufferProfile := by obtain ⟨_, _, _, h⟩ := kilnEvent_flt code fb inj d s; rw [h]
@[simp] theorem kilnEvent_limits : (kilnEvent code fb inj d s).limits = s.limits := by obtain ⟨_, _, _, h⟩ := kilnEvent_flt code fb inj d s; rw [h]
@[simp] theorem kilnEvent_time : (kilnEvent code fb inj d s).time = s.time := by obtain ⟨_, _, _, h⟩ := kilnEvent_flt code fb inj d s; rw [h]
@[simp] theorem kilnEvent_tel : (kilnEvent code fb inj d s).tel = s.tel := by obtain ⟨_, _, _, h⟩ := kilnEvent_flt code fb inj d s; rw [h]
@[simp] theorem kilnEvent_host : (kilnEvent code fb inj d s).host = s.host := by obtain ⟨_, _, _, h⟩ := kilnEvent_flt code fb inj d s; rw [h]
@[simp] theorem kilnEvent_boot : (kilnEvent code fb inj d s).boot = s.boot := by obtain ⟨_, _, _, h⟩ := kilnEvent_flt code fb inj d s; rw [h]
@[simp] theorem kilnEvent_lane : (kilnEvent code fb inj d s).lane = s.lane := by obtain ⟨_, _, _, h⟩ := kilnEvent_flt code fb inj d s; rw [h]
@[simp] theorem kilnEvent_mac : (kilnEvent code fb inj d s).mac = s.mac := by obtain ⟨_, _, _, h⟩ := kilnEvent_flt code fb inj d s; rw [h]
@[simp] theorem kilnEvent_fr : (kilnEvent code fb inj d s).fr = s.fr := by obtain ⟨_, _, _, h⟩ := kilnEvent_flt code fb inj d s; rw [h]
@[simp] theorem kilnEvent_prs : (kilnEvent code fb inj d s).prs = s.prs := by obtain ⟨_, _, _, h⟩ := kilnEvent_flt code fb inj d s; rw [h]
@[simp] theorem kilnEvent_sw : (kilnEvent code fb inj d s).sw = s.sw := by obtain ⟨_, _, _, h⟩ := kilnEvent_flt code fb inj d s; rw [h]
@[simp] theorem kilnEvent_mat : (kilnEvent code fb inj d s).mat = s.mat := by obtain ⟨_, _, _, h⟩ := kilnEvent_flt code fb inj d s; rw [h]
@[simp] theorem kilnEvent_fwd : (kilnEvent code fb inj d s).fwd = s.fwd := by obtain ⟨_, _, _, h⟩ := kilnEvent_flt code fb inj d s; rw [h]
@[simp] theorem kilnEvent_sig : (kilnEvent code fb inj d s).sig = s.sig := by obtain ⟨_, _, _, h⟩ := kilnEvent_flt code fb inj d s; rw [h]
@[simp] theorem kilnEvent_buf : (kilnEvent code fb inj d s).buf = s.buf := by obtain ⟨_, _, _, h⟩ := kilnEvent_flt code fb inj d s; rw [h]
@[simp] theorem kilnEvent_sch : (kilnEvent code fb inj d s).sch = s.sch := by obtain ⟨_, _, _, h⟩ := kilnEvent_flt code fb inj d s; rw [h]
@[simp] theorem kilnEvent_pow : (kilnEvent code fb inj d s).pow = s.pow := by obtain ⟨_, _, _, h⟩ := kilnEvent_flt code fb inj d s; rw [h]
@[simp] theorem kilnEvent_flt_sites : (kilnEvent code fb inj d s).flt.sites = s.flt.sites := by obtain ⟨_, _, _, h⟩ := kilnEvent_flt code fb inj d s; rw [h]
@[simp] theorem kilnEvent_flt_policy : (kilnEvent code fb inj d s).flt.policy = s.flt.policy := by obtain ⟨_, _, _, h⟩ := kilnEvent_flt code fb inj d s; rw [h]
@[simp] theorem kilnEvent_flt_stats : (kilnEvent code fb inj d s).flt.stats = s.flt.stats := by obtain ⟨_, _, _, h⟩ := kilnEvent_flt code fb inj d s; rw [h]
@[simp] theorem kilnEvent_flt_inFlight : (kilnEvent code fb inj d s).flt.inFlight = s.flt.inFlight := by obtain ⟨_, _, _, h⟩ := kilnEvent_flt code fb inj d s; rw [h]
@[simp] theorem kilnEvent_flt_latch : (kilnEvent code fb inj d s).flt.latch = s.flt.latch := by obtain ⟨_, _, _, h⟩ := kilnEvent_flt code fb inj d s; rw [h]
@[simp] theorem kilnEvent_flt_alertEn : (kilnEvent code fb inj d s).flt.alertEn = s.flt.alertEn := by obtain ⟨_, _, _, h⟩ := kilnEvent_flt code fb inj d s; rw [h]
@[simp] theorem kilnEvent_flt_raises : (kilnEvent code fb inj d s).flt.raises = s.flt.raises := by obtain ⟨_, _, _, h⟩ := kilnEvent_flt code fb inj d s; rw [h]
@[simp] theorem kilnEvent_flt_testMode : (kilnEvent code fb inj d s).flt.testMode = s.flt.testMode := by obtain ⟨_, _, _, h⟩ := kilnEvent_flt code fb inj d s; rw [h]
@[simp] theorem kilnEvent_flt_testSlot : (kilnEvent code fb inj d s).flt.testSlot = s.flt.testSlot := by obtain ⟨_, _, _, h⟩ := kilnEvent_flt code fb inj d s; rw [h]
@[simp] theorem kilnEvent_flt_pendingKey : (kilnEvent code fb inj d s).flt.pendingKey = s.flt.pendingKey := by obtain ⟨_, _, _, h⟩ := kilnEvent_flt code fb inj d s; rw [h]
@[simp] theorem kilnEvent_flt_voided : (kilnEvent code fb inj d s).flt.voided = s.flt.voided := by obtain ⟨_, _, _, h⟩ := kilnEvent_flt code fb inj d s; rw [h]
@[simp] theorem kilnEvent_flt_lockedUntil : (kilnEvent code fb inj d s).flt.lockedUntil = s.flt.lockedUntil := by obtain ⟨_, _, _, h⟩ := kilnEvent_flt code fb inj d s; rw [h]
@[simp] theorem kilnEvent_flt_points : (kilnEvent code fb inj d s).flt.points = s.flt.points := by obtain ⟨_, _, _, h⟩ := kilnEvent_flt code fb inj d s; rw [h]
@[simp] theorem kilnEvent_flt_cursor : (kilnEvent code fb inj d s).flt.cursor = s.flt.cursor := by obtain ⟨_, _, _, h⟩ := kilnEvent_flt code fb inj d s; rw [h]
@[simp] theorem kilnEvent_flt_latching : (kilnEvent code fb inj d s).flt.latching = s.flt.latching := by obtain ⟨_, _, _, h⟩ := kilnEvent_flt code fb inj d s; rw [h]
@[simp] theorem kilnEvent_flt_window : (kilnEvent code fb inj d s).flt.window = s.flt.window := by obtain ⟨_, _, _, h⟩ := kilnEvent_flt code fb inj d s; rw [h]
@[simp] theorem kilnEvent_flt_halfLatch : (kilnEvent code fb inj d s).flt.halfLatch = s.flt.halfLatch := by obtain ⟨_, _, _, h⟩ := kilnEvent_flt code fb inj d s; rw [h]
@[simp] theorem kilnEvent_flt_onceSec : (kilnEvent code fb inj d s).flt.onceSec = s.flt.onceSec := by obtain ⟨_, _, _, h⟩ := kilnEvent_flt code fb inj d s; rw [h]

end

section

variable (code : Nat) (fs : List (Nat × Nat)) (s : State)

@[simp] theorem kiln_now : (kiln code fs s).now = s.now := by simp [kiln]
@[simp] theorem kiln_free : (kiln code fs s).free = s.free := by simp [kiln]
@[simp] theorem kiln_out : (kiln code fs s).out = s.out := by simp [kiln]
@[simp] theorem kiln_pending : (kiln code fs s).pending = s.pending := by simp [kiln]
@[simp] theorem kiln_tableProfile : (kiln code fs s).tableProfile = s.tableProfile := by simp [kiln]
@[simp] theorem kiln_bufferProfile : (kiln code fs s).bufferProfile = s.bufferProfile := by simp [kiln]
@[simp] theorem kiln_limits : (kiln code fs s).limits = s.limits := by simp [kiln]
@[simp] theorem kiln_time : (kiln code fs s).time = s.time := by simp [kiln]
@[simp] theorem kiln_tel : (kiln code fs s).tel = s.tel := by simp [kiln]
@[simp] theorem kiln_host : (kiln code fs s).host = s.host := by simp [kiln]
@[simp] theorem kiln_boot : (kiln code fs s).boot = s.boot := by simp [kiln]
@[simp] theorem kiln_lane : (kiln code fs s).lane = s.lane := by simp [kiln]
@[simp] theorem kiln_mac : (kiln code fs s).mac = s.mac := by simp [kiln]
@[simp] theorem kiln_fr : (kiln code fs s).fr = s.fr := by simp [kiln]
@[simp] theorem kiln_prs : (kiln code fs s).prs = s.prs := by simp [kiln]
@[simp] theorem kiln_sw : (kiln code fs s).sw = s.sw := by simp [kiln]
@[simp] theorem kiln_mat : (kiln code fs s).mat = s.mat := by simp [kiln]
@[simp] theorem kiln_fwd : (kiln code fs s).fwd = s.fwd := by simp [kiln]
@[simp] theorem kiln_sig : (kiln code fs s).sig = s.sig := by simp [kiln]
@[simp] theorem kiln_buf : (kiln code fs s).buf = s.buf := by simp [kiln]
@[simp] theorem kiln_sch : (kiln code fs s).sch = s.sch := by simp [kiln]
@[simp] theorem kiln_pow : (kiln code fs s).pow = s.pow := by simp [kiln]
@[simp] theorem kiln_flt_sites : (kiln code fs s).flt.sites = s.flt.sites := by simp [kiln]
@[simp] theorem kiln_flt_policy : (kiln code fs s).flt.policy = s.flt.policy := by simp [kiln]
@[simp] theorem kiln_flt_stats : (kiln code fs s).flt.stats = s.flt.stats := by simp [kiln]
@[simp] theorem kiln_flt_inFlight : (kiln code fs s).flt.inFlight = s.flt.inFlight := by simp [kiln]
@[simp] theorem kiln_flt_latch : (kiln code fs s).flt.latch = s.flt.latch := by simp [kiln]
@[simp] theorem kiln_flt_alertEn : (kiln code fs s).flt.alertEn = s.flt.alertEn := by simp [kiln]
@[simp] theorem kiln_flt_raises : (kiln code fs s).flt.raises = s.flt.raises := by simp [kiln]
@[simp] theorem kiln_flt_testMode : (kiln code fs s).flt.testMode = s.flt.testMode := by simp [kiln]
@[simp] theorem kiln_flt_testSlot : (kiln code fs s).flt.testSlot = s.flt.testSlot := by simp [kiln]
@[simp] theorem kiln_flt_pendingKey : (kiln code fs s).flt.pendingKey = s.flt.pendingKey := by simp [kiln]
@[simp] theorem kiln_flt_voided : (kiln code fs s).flt.voided = s.flt.voided := by simp [kiln]
@[simp] theorem kiln_flt_lockedUntil : (kiln code fs s).flt.lockedUntil = s.flt.lockedUntil := by simp [kiln]
@[simp] theorem kiln_flt_points : (kiln code fs s).flt.points = s.flt.points := by simp [kiln]
@[simp] theorem kiln_flt_cursor : (kiln code fs s).flt.cursor = s.flt.cursor := by simp [kiln]
@[simp] theorem kiln_flt_latching : (kiln code fs s).flt.latching = s.flt.latching := by simp [kiln]
@[simp] theorem kiln_flt_window : (kiln code fs s).flt.window = s.flt.window := by simp [kiln]
@[simp] theorem kiln_flt_halfLatch : (kiln code fs s).flt.halfLatch = s.flt.halfLatch := by simp [kiln]
@[simp] theorem kiln_flt_onceSec : (kiln code fs s).flt.onceSec = s.flt.onceSec := by simp [kiln]

end

section

variable (inj : Bool) (code : Nat) (fs : List (Nat × Nat)) (s : State)

@[simp] theorem kilnInj_now : (kilnInj inj code fs s).now = s.now := by simp [kilnInj]
@[simp] theorem kilnInj_free : (kilnInj inj code fs s).free = s.free := by simp [kilnInj]
@[simp] theorem kilnInj_out : (kilnInj inj code fs s).out = s.out := by simp [kilnInj]
@[simp] theorem kilnInj_pending : (kilnInj inj code fs s).pending = s.pending := by simp [kilnInj]
@[simp] theorem kilnInj_tableProfile : (kilnInj inj code fs s).tableProfile = s.tableProfile := by simp [kilnInj]
@[simp] theorem kilnInj_bufferProfile : (kilnInj inj code fs s).bufferProfile = s.bufferProfile := by simp [kilnInj]
@[simp] theorem kilnInj_limits : (kilnInj inj code fs s).limits = s.limits := by simp [kilnInj]
@[simp] theorem kilnInj_time : (kilnInj inj code fs s).time = s.time := by simp [kilnInj]
@[simp] theorem kilnInj_tel : (kilnInj inj code fs s).tel = s.tel := by simp [kilnInj]
@[simp] theorem kilnInj_host : (kilnInj inj code fs s).host = s.host := by simp [kilnInj]
@[simp] theorem kilnInj_boot : (kilnInj inj code fs s).boot = s.boot := by simp [kilnInj]
@[simp] theorem kilnInj_lane : (kilnInj inj code fs s).lane = s.lane := by simp [kilnInj]
@[simp] theorem kilnInj_mac : (kilnInj inj code fs s).mac = s.mac := by simp [kilnInj]
@[simp] theorem kilnInj_fr : (kilnInj inj code fs s).fr = s.fr := by simp [kilnInj]
@[simp] theorem kilnInj_prs : (kilnInj inj code fs s).prs = s.prs := by simp [kilnInj]
@[simp] theorem kilnInj_sw : (kilnInj inj code fs s).sw = s.sw := by simp [kilnInj]
@[simp] theorem kilnInj_mat : (kilnInj inj code fs s).mat = s.mat := by simp [kilnInj]
@[simp] theorem kilnInj_fwd : (kilnInj inj code fs s).fwd = s.fwd := by simp [kilnInj]
@[simp] theorem kilnInj_sig : (kilnInj inj code fs s).sig = s.sig := by simp [kilnInj]
@[simp] theorem kilnInj_buf : (kilnInj inj code fs s).buf = s.buf := by simp [kilnInj]
@[simp] theorem kilnInj_sch : (kilnInj inj code fs s).sch = s.sch := by simp [kilnInj]
@[simp] theorem kilnInj_pow : (kilnInj inj code fs s).pow = s.pow := by simp [kilnInj]
@[simp] theorem kilnInj_flt_sites : (kilnInj inj code fs s).flt.sites = s.flt.sites := by simp [kilnInj]
@[simp] theorem kilnInj_flt_policy : (kilnInj inj code fs s).flt.policy = s.flt.policy := by simp [kilnInj]
@[simp] theorem kilnInj_flt_stats : (kilnInj inj code fs s).flt.stats = s.flt.stats := by simp [kilnInj]
@[simp] theorem kilnInj_flt_inFlight : (kilnInj inj code fs s).flt.inFlight = s.flt.inFlight := by simp [kilnInj]
@[simp] theorem kilnInj_flt_latch : (kilnInj inj code fs s).flt.latch = s.flt.latch := by simp [kilnInj]
@[simp] theorem kilnInj_flt_alertEn : (kilnInj inj code fs s).flt.alertEn = s.flt.alertEn := by simp [kilnInj]
@[simp] theorem kilnInj_flt_raises : (kilnInj inj code fs s).flt.raises = s.flt.raises := by simp [kilnInj]
@[simp] theorem kilnInj_flt_testMode : (kilnInj inj code fs s).flt.testMode = s.flt.testMode := by simp [kilnInj]
@[simp] theorem kilnInj_flt_testSlot : (kilnInj inj code fs s).flt.testSlot = s.flt.testSlot := by simp [kilnInj]
@[simp] theorem kilnInj_flt_pendingKey : (kilnInj inj code fs s).flt.pendingKey = s.flt.pendingKey := by simp [kilnInj]
@[simp] theorem kilnInj_flt_voided : (kilnInj inj code fs s).flt.voided = s.flt.voided := by simp [kilnInj]
@[simp] theorem kilnInj_flt_lockedUntil : (kilnInj inj code fs s).flt.lockedUntil = s.flt.lockedUntil := by simp [kilnInj]
@[simp] theorem kilnInj_flt_points : (kilnInj inj code fs s).flt.points = s.flt.points := by simp [kilnInj]
@[simp] theorem kilnInj_flt_cursor : (kilnInj inj code fs s).flt.cursor = s.flt.cursor := by simp [kilnInj]
@[simp] theorem kilnInj_flt_latching : (kilnInj inj code fs s).flt.latching = s.flt.latching := by simp [kilnInj]
@[simp] theorem kilnInj_flt_window : (kilnInj inj code fs s).flt.window = s.flt.window := by simp [kilnInj]
@[simp] theorem kilnInj_flt_halfLatch : (kilnInj inj code fs s).flt.halfLatch = s.flt.halfLatch := by simp [kilnInj]
@[simp] theorem kilnInj_flt_onceSec : (kilnInj inj code fs s).flt.onceSec = s.flt.onceSec := by simp [kilnInj]

end

section

variable (code unit : Nat) (fs : List (Nat × Nat)) (s : State)

@[simp] theorem kilnOnce_now : (kilnOnce code unit fs s).now = s.now := by unfold kilnOnce; dsimp only; split <;> simp
@[simp] theorem kilnOnce_free : (kilnOnce code unit fs s).free = s.free := by unfold kilnOnce; dsimp only; split <;> simp
@[simp] theorem kilnOnce_out : (kilnOnce code unit fs s).out = s.out := by unfold kilnOnce; dsimp only; split <;> simp
@[simp] theorem kilnOnce_pending : (kilnOnce code unit fs s).pending = s.pending := by unfold kilnOnce; dsimp only; split <;> simp
@[simp] theorem kilnOnce_tableProfile : (kilnOnce code unit fs s).tableProfile = s.tableProfile := by unfold kilnOnce; dsimp only; split <;> simp
@[simp] theorem kilnOnce_bufferProfile : (kilnOnce code unit fs s).bufferProfile = s.bufferProfile := by unfold kilnOnce; dsimp only; split <;> simp
@[simp] theorem kilnOnce_limits : (kilnOnce code unit fs s).limits = s.limits := by unfold kilnOnce; dsimp only; split <;> simp
@[simp] theorem kilnOnce_time : (kilnOnce code unit fs s).time = s.time := by unfold kilnOnce; dsimp only; split <;> simp
@[simp] theorem kilnOnce_tel : (kilnOnce code unit fs s).tel = s.tel := by unfold kilnOnce; dsimp only; split <;> simp
@[simp] theorem kilnOnce_host : (kilnOnce code unit fs s).host = s.host := by unfold kilnOnce; dsimp only; split <;> simp
@[simp] theorem kilnOnce_boot : (kilnOnce code unit fs s).boot = s.boot := by unfold kilnOnce; dsimp only; split <;> simp
@[simp] theorem kilnOnce_lane : (kilnOnce code unit fs s).lane = s.lane := by unfold kilnOnce; dsimp only; split <;> simp
@[simp] theorem kilnOnce_mac : (kilnOnce code unit fs s).mac = s.mac := by unfold kilnOnce; dsimp only; split <;> simp
@[simp] theorem kilnOnce_fr : (kilnOnce code unit fs s).fr = s.fr := by unfold kilnOnce; dsimp only; split <;> simp
@[simp] theorem kilnOnce_prs : (kilnOnce code unit fs s).prs = s.prs := by unfold kilnOnce; dsimp only; split <;> simp
@[simp] theorem kilnOnce_sw : (kilnOnce code unit fs s).sw = s.sw := by unfold kilnOnce; dsimp only; split <;> simp
@[simp] theorem kilnOnce_mat : (kilnOnce code unit fs s).mat = s.mat := by unfold kilnOnce; dsimp only; split <;> simp
@[simp] theorem kilnOnce_fwd : (kilnOnce code unit fs s).fwd = s.fwd := by unfold kilnOnce; dsimp only; split <;> simp
@[simp] theorem kilnOnce_sig : (kilnOnce code unit fs s).sig = s.sig := by unfold kilnOnce; dsimp only; split <;> simp
@[simp] theorem kilnOnce_buf : (kilnOnce code unit fs s).buf = s.buf := by unfold kilnOnce; dsimp only; split <;> simp
@[simp] theorem kilnOnce_sch : (kilnOnce code unit fs s).sch = s.sch := by unfold kilnOnce; dsimp only; split <;> simp
@[simp] theorem kilnOnce_pow : (kilnOnce code unit fs s).pow = s.pow := by unfold kilnOnce; dsimp only; split <;> simp
@[simp] theorem kilnOnce_flt_sites : (kilnOnce code unit fs s).flt.sites = s.flt.sites := by unfold kilnOnce; dsimp only; split <;> simp
@[simp] theorem kilnOnce_flt_policy : (kilnOnce code unit fs s).flt.policy = s.flt.policy := by unfold kilnOnce; dsimp only; split <;> simp
@[simp] theorem kilnOnce_flt_stats : (kilnOnce code unit fs s).flt.stats = s.flt.stats := by unfold kilnOnce; dsimp only; split <;> simp
@[simp] theorem kilnOnce_flt_inFlight : (kilnOnce code unit fs s).flt.inFlight = s.flt.inFlight := by unfold kilnOnce; dsimp only; split <;> simp
@[simp] theorem kilnOnce_flt_latch : (kilnOnce code unit fs s).flt.latch = s.flt.latch := by unfold kilnOnce; dsimp only; split <;> simp
@[simp] theorem kilnOnce_flt_alertEn : (kilnOnce code unit fs s).flt.alertEn = s.flt.alertEn := by unfold kilnOnce; dsimp only; split <;> simp
@[simp] theorem kilnOnce_flt_raises : (kilnOnce code unit fs s).flt.raises = s.flt.raises := by unfold kilnOnce; dsimp only; split <;> simp
@[simp] theorem kilnOnce_flt_testMode : (kilnOnce code unit fs s).flt.testMode = s.flt.testMode := by unfold kilnOnce; dsimp only; split <;> simp
@[simp] theorem kilnOnce_flt_testSlot : (kilnOnce code unit fs s).flt.testSlot = s.flt.testSlot := by unfold kilnOnce; dsimp only; split <;> simp
@[simp] theorem kilnOnce_flt_pendingKey : (kilnOnce code unit fs s).flt.pendingKey = s.flt.pendingKey := by unfold kilnOnce; dsimp only; split <;> simp
@[simp] theorem kilnOnce_flt_voided : (kilnOnce code unit fs s).flt.voided = s.flt.voided := by unfold kilnOnce; dsimp only; split <;> simp
@[simp] theorem kilnOnce_flt_lockedUntil : (kilnOnce code unit fs s).flt.lockedUntil = s.flt.lockedUntil := by unfold kilnOnce; dsimp only; split <;> simp
@[simp] theorem kilnOnce_flt_points : (kilnOnce code unit fs s).flt.points = s.flt.points := by unfold kilnOnce; dsimp only; split <;> simp
@[simp] theorem kilnOnce_flt_cursor : (kilnOnce code unit fs s).flt.cursor = s.flt.cursor := by unfold kilnOnce; dsimp only; split <;> simp
@[simp] theorem kilnOnce_flt_latching : (kilnOnce code unit fs s).flt.latching = s.flt.latching := by unfold kilnOnce; dsimp only; split <;> simp
@[simp] theorem kilnOnce_flt_window : (kilnOnce code unit fs s).flt.window = s.flt.window := by unfold kilnOnce; dsimp only; split <;> simp
@[simp] theorem kilnOnce_flt_halfLatch : (kilnOnce code unit fs s).flt.halfLatch = s.flt.halfLatch := by unfold kilnOnce; dsimp only; split <;> simp

end

section

variable (b k i : Nat) (o : Bool) (s : State)

@[simp] theorem raiseFault_now : (raiseFault b k i o s).now = s.now := by obtain ⟨_, _, h, _⟩ := raiseFault_flt b k i o s; rw [h]
@[simp] theorem raiseFault_free : (raiseFault b k i o s).free = s.free := by obtain ⟨_, _, h, _⟩ := raiseFault_flt b k i o s; rw [h]
@[simp] theorem raiseFault_out : (raiseFault b k i o s).out = s.out := by obtain ⟨_, _, h, _⟩ := raiseFault_flt b k i o s; rw [h]
@[simp] theorem raiseFault_pending : (raiseFault b k i o s).pending = s.pending := by obtain ⟨_, _, h, _⟩ := raiseFault_flt b k i o s; rw [h]
@[simp] theorem raiseFault_tableProfile : (raiseFault b k i o s).tableProfile = s.tableProfile := by obtain ⟨_, _, h, _⟩ := raiseFault_flt b k i o s; rw [h]
@[simp] theorem raiseFault_bufferProfile : (raiseFault b k i o s).bufferProfile = s.bufferProfile := by obtain ⟨_, _, h, _⟩ := raiseFault_flt b k i o s; rw [h]
@[simp] theorem raiseFault_limits : (raiseFault b k i o s).limits = s.limits := by obtain ⟨_, _, h, _⟩ := raiseFault_flt b k i o s; rw [h]
@[simp] theorem raiseFault_time : (raiseFault b k i o s).time = s.time := by obtain ⟨_, _, h, _⟩ := raiseFault_flt b k i o s; rw [h]
@[simp] theorem raiseFault_tel : (raiseFault b k i o s).tel = s.tel := by obtain ⟨_, _, h, _⟩ := raiseFault_flt b k i o s; rw [h]
@[simp] theorem raiseFault_host : (raiseFault b k i o s).host = s.host := by obtain ⟨_, _, h, _⟩ := raiseFault_flt b k i o s; rw [h]
@[simp] theorem raiseFault_boot : (raiseFault b k i o s).boot = s.boot := by obtain ⟨_, _, h, _⟩ := raiseFault_flt b k i o s; rw [h]
@[simp] theorem raiseFault_lane : (raiseFault b k i o s).lane = s.lane := by obtain ⟨_, _, h, _⟩ := raiseFault_flt b k i o s; rw [h]
@[simp] theorem raiseFault_mac : (raiseFault b k i o s).mac = s.mac := by obtain ⟨_, _, h, _⟩ := raiseFault_flt b k i o s; rw [h]
@[simp] theorem raiseFault_fr : (raiseFault b k i o s).fr = s.fr := by obtain ⟨_, _, h, _⟩ := raiseFault_flt b k i o s; rw [h]
@[simp] theorem raiseFault_prs : (raiseFault b k i o s).prs = s.prs := by obtain ⟨_, _, h, _⟩ := raiseFault_flt b k i o s; rw [h]
@[simp] theorem raiseFault_sw : (raiseFault b k i o s).sw = s.sw := by obtain ⟨_, _, h, _⟩ := raiseFault_flt b k i o s; rw [h]
@[simp] theorem raiseFault_mat : (raiseFault b k i o s).mat = s.mat := by obtain ⟨_, _, h, _⟩ := raiseFault_flt b k i o s; rw [h]
@[simp] theorem raiseFault_fwd : (raiseFault b k i o s).fwd = s.fwd := by obtain ⟨_, _, h, _⟩ := raiseFault_flt b k i o s; rw [h]
@[simp] theorem raiseFault_sig : (raiseFault b k i o s).sig = s.sig := by obtain ⟨_, _, h, _⟩ := raiseFault_flt b k i o s; rw [h]
@[simp] theorem raiseFault_buf : (raiseFault b k i o s).buf = s.buf := by obtain ⟨_, _, h, _⟩ := raiseFault_flt b k i o s; rw [h]
@[simp] theorem raiseFault_sch : (raiseFault b k i o s).sch = s.sch := by obtain ⟨_, _, h, _⟩ := raiseFault_flt b k i o s; rw [h]
@[simp] theorem raiseFault_pow : (raiseFault b k i o s).pow = s.pow := by obtain ⟨_, _, h, _⟩ := raiseFault_flt b k i o s; rw [h]
@[simp] theorem raiseFault_flt_sites : (raiseFault b k i o s).flt.sites = s.flt.sites := by obtain ⟨_, _, h, _⟩ := raiseFault_flt b k i o s; rw [h]
@[simp] theorem raiseFault_flt_policy : (raiseFault b k i o s).flt.policy = s.flt.policy := by obtain ⟨_, _, h, _⟩ := raiseFault_flt b k i o s; rw [h]
@[simp] theorem raiseFault_flt_stats : (raiseFault b k i o s).flt.stats = s.flt.stats := by obtain ⟨_, _, h, _⟩ := raiseFault_flt b k i o s; rw [h]
@[simp] theorem raiseFault_flt_latch : (raiseFault b k i o s).flt.latch = s.flt.latch := by obtain ⟨_, _, h, _⟩ := raiseFault_flt b k i o s; rw [h]
@[simp] theorem raiseFault_flt_alertEn : (raiseFault b k i o s).flt.alertEn = s.flt.alertEn := by obtain ⟨_, _, h, _⟩ := raiseFault_flt b k i o s; rw [h]
@[simp] theorem raiseFault_flt_raises : (raiseFault b k i o s).flt.raises = s.flt.raises := by obtain ⟨_, _, h, _⟩ := raiseFault_flt b k i o s; rw [h]
@[simp] theorem raiseFault_flt_testMode : (raiseFault b k i o s).flt.testMode = s.flt.testMode := by obtain ⟨_, _, h, _⟩ := raiseFault_flt b k i o s; rw [h]
@[simp] theorem raiseFault_flt_testSlot : (raiseFault b k i o s).flt.testSlot = s.flt.testSlot := by obtain ⟨_, _, h, _⟩ := raiseFault_flt b k i o s; rw [h]
@[simp] theorem raiseFault_flt_pendingKey : (raiseFault b k i o s).flt.pendingKey = s.flt.pendingKey := by obtain ⟨_, _, h, _⟩ := raiseFault_flt b k i o s; rw [h]
@[simp] theorem raiseFault_flt_voided : (raiseFault b k i o s).flt.voided = s.flt.voided := by obtain ⟨_, _, h, _⟩ := raiseFault_flt b k i o s; rw [h]
@[simp] theorem raiseFault_flt_lockedUntil : (raiseFault b k i o s).flt.lockedUntil = s.flt.lockedUntil := by obtain ⟨_, _, h, _⟩ := raiseFault_flt b k i o s; rw [h]
@[simp] theorem raiseFault_flt_kiln : (raiseFault b k i o s).flt.kiln = s.flt.kiln := by obtain ⟨_, _, h, _⟩ := raiseFault_flt b k i o s; rw [h]
@[simp] theorem raiseFault_flt_nextSeq : (raiseFault b k i o s).flt.nextSeq = s.flt.nextSeq := by obtain ⟨_, _, h, _⟩ := raiseFault_flt b k i o s; rw [h]
@[simp] theorem raiseFault_flt_newestIsLast : (raiseFault b k i o s).flt.newestIsLast = s.flt.newestIsLast := by obtain ⟨_, _, h, _⟩ := raiseFault_flt b k i o s; rw [h]
@[simp] theorem raiseFault_flt_cursor : (raiseFault b k i o s).flt.cursor = s.flt.cursor := by obtain ⟨_, _, h, _⟩ := raiseFault_flt b k i o s; rw [h]
@[simp] theorem raiseFault_flt_latching : (raiseFault b k i o s).flt.latching = s.flt.latching := by obtain ⟨_, _, h, _⟩ := raiseFault_flt b k i o s; rw [h]
@[simp] theorem raiseFault_flt_window : (raiseFault b k i o s).flt.window = s.flt.window := by obtain ⟨_, _, h, _⟩ := raiseFault_flt b k i o s; rw [h]
@[simp] theorem raiseFault_flt_halfLatch : (raiseFault b k i o s).flt.halfLatch = s.flt.halfLatch := by obtain ⟨_, _, h, _⟩ := raiseFault_flt b k i o s; rw [h]
@[simp] theorem raiseFault_flt_onceSec : (raiseFault b k i o s).flt.onceSec = s.flt.onceSec := by obtain ⟨_, _, h, _⟩ := raiseFault_flt b k i o s; rw [h]

end

section

variable (c : Counter) (x n : Nat) (s : State)

@[simp] theorem count_now : (count c x n s).now = s.now := by rfl
@[simp] theorem count_free : (count c x n s).free = s.free := by rfl
@[simp] theorem count_out : (count c x n s).out = s.out := by rfl
@[simp] theorem count_pending : (count c x n s).pending = s.pending := by rfl
@[simp] theorem count_tableProfile : (count c x n s).tableProfile = s.tableProfile := by rfl
@[simp] theorem count_bufferProfile : (count c x n s).bufferProfile = s.bufferProfile := by rfl
@[simp] theorem count_limits : (count c x n s).limits = s.limits := by rfl
@[simp] theorem count_time : (count c x n s).time = s.time := by rfl
@[simp] theorem count_flt : (count c x n s).flt = s.flt := by rfl
@[simp] theorem count_host : (count c x n s).host = s.host := by rfl
@[simp] theorem count_boot : (count c x n s).boot = s.boot := by rfl
@[simp] theorem count_lane : (count c x n s).lane = s.lane := by rfl
@[simp] theorem count_mac : (count c x n s).mac = s.mac := by rfl
@[simp] theorem count_fr : (count c x n s).fr = s.fr := by rfl
@[simp] theorem count_prs : (count c x n s).prs = s.prs := by rfl
@[simp] theorem count_sw : (count c x n s).sw = s.sw := by rfl
@[simp] theorem count_mat : (count c x n s).mat = s.mat := by rfl
@[simp] theorem count_fwd : (count c x n s).fwd = s.fwd := by rfl
@[simp] theorem count_sig : (count c x n s).sig = s.sig := by rfl
@[simp] theorem count_buf : (count c x n s).buf = s.buf := by rfl
@[simp] theorem count_sch : (count c x n s).sch = s.sch := by rfl
@[simp] theorem count_pow : (count c x n s).pow = s.pow := by rfl

end

section

variable (c : Counter) (x n : Nat) (s : State)

@[simp] theorem countSet_now : (countSet c x n s).now = s.now := by rfl
@[simp] theorem countSet_free : (countSet c x n s).free = s.free := by rfl
@[simp] theorem countSet_out : (countSet c x n s).out = s.out := by rfl
@[simp] theorem countSet_pending : (countSet c x n s).pending = s.pending := by rfl
@[simp] theorem countSet_tableProfile : (countSet c x n s).tableProfile = s.tableProfile := by rfl
@[simp] theorem countSet_bufferProfile : (countSet c x n s).bufferProfile = s.bufferProfile := by rfl
@[simp] theorem countSet_limits : (countSet c x n s).limits = s.limits := by rfl
@[simp] theorem countSet_time : (countSet c x n s).time = s.time := by rfl
@[simp] theorem countSet_flt : (countSet c x n s).flt = s.flt := by rfl
@[simp] theorem countSet_host : (countSet c x n s).host = s.host := by rfl
@[simp] theorem countSet_boot : (countSet c x n s).boot = s.boot := by rfl
@[simp] theorem countSet_lane : (countSet c x n s).lane = s.lane := by rfl
@[simp] theorem countSet_mac : (countSet c x n s).mac = s.mac := by rfl
@[simp] theorem countSet_fr : (countSet c x n s).fr = s.fr := by rfl
@[simp] theorem countSet_prs : (countSet c x n s).prs = s.prs := by rfl
@[simp] theorem countSet_sw : (countSet c x n s).sw = s.sw := by rfl
@[simp] theorem countSet_mat : (countSet c x n s).mat = s.mat := by rfl
@[simp] theorem countSet_fwd : (countSet c x n s).fwd = s.fwd := by rfl
@[simp] theorem countSet_sig : (countSet c x n s).sig = s.sig := by rfl
@[simp] theorem countSet_buf : (countSet c x n s).buf = s.buf := by rfl
@[simp] theorem countSet_sch : (countSet c x n s).sch = s.sch := by rfl
@[simp] theorem countSet_pow : (countSet c x n s).pow = s.pow := by rfl

end

section

variable (id : Nat) (st : Status) (d r : Bytes) (s : State)

@[simp] theorem endRunning_now : (endRunning id st d r s).now = s.now := by unfold endRunning; split <;> rfl
@[simp] theorem endRunning_free : (endRunning id st d r s).free = s.free := by unfold endRunning; split <;> rfl
@[simp] theorem endRunning_out : (endRunning id st d r s).out = s.out := by unfold endRunning; split <;> rfl
@[simp] theorem endRunning_pending : (endRunning id st d r s).pending = s.pending := by unfold endRunning; split <;> rfl
@[simp] theorem endRunning_tableProfile : (endRunning id st d r s).tableProfile = s.tableProfile := by unfold endRunning; split <;> rfl
@[simp] theorem endRunning_bufferProfile : (endRunning id st d r s).bufferProfile = s.bufferProfile := by unfold endRunning; split <;> rfl
@[simp] theorem endRunning_limits : (endRunning id st d r s).limits = s.limits := by unfold endRunning; split <;> rfl
@[simp] theorem endRunning_time : (endRunning id st d r s).time = s.time := by unfold endRunning; split <;> rfl
@[simp] theorem endRunning_flt : (endRunning id st d r s).flt = s.flt := by unfold endRunning; split <;> rfl
@[simp] theorem endRunning_tel : (endRunning id st d r s).tel = s.tel := by unfold endRunning; split <;> rfl
@[simp] theorem endRunning_boot : (endRunning id st d r s).boot = s.boot := by unfold endRunning; split <;> rfl
@[simp] theorem endRunning_lane : (endRunning id st d r s).lane = s.lane := by unfold endRunning; split <;> rfl
@[simp] theorem endRunning_mac : (endRunning id st d r s).mac = s.mac := by unfold endRunning; split <;> rfl
@[simp] theorem endRunning_fr : (endRunning id st d r s).fr = s.fr := by unfold endRunning; split <;> rfl
@[simp] theorem endRunning_prs : (endRunning id st d r s).prs = s.prs := by unfold endRunning; split <;> rfl
@[simp] theorem endRunning_sw : (endRunning id st d r s).sw = s.sw := by unfold endRunning; split <;> rfl
@[simp] theorem endRunning_mat : (endRunning id st d r s).mat = s.mat := by unfold endRunning; split <;> rfl
@[simp] theorem endRunning_fwd : (endRunning id st d r s).fwd = s.fwd := by unfold endRunning; split <;> rfl
@[simp] theorem endRunning_sig : (endRunning id st d r s).sig = s.sig := by unfold endRunning; split <;> rfl
@[simp] theorem endRunning_buf : (endRunning id st d r s).buf = s.buf := by unfold endRunning; split <;> rfl
@[simp] theorem endRunning_sch : (endRunning id st d r s).sch = s.sch := by unfold endRunning; split <;> rfl
@[simp] theorem endRunning_pow : (endRunning id st d r s).pow = s.pow := by unfold endRunning; split <;> rfl

end

section

variable (e : Ended) (s : State)

@[simp] theorem endCommand_now : (endCommand e s).now = s.now := by rfl
@[simp] theorem endCommand_free : (endCommand e s).free = s.free := by rfl
@[simp] theorem endCommand_out : (endCommand e s).out = s.out := by rfl
@[simp] theorem endCommand_pending : (endCommand e s).pending = s.pending := by rfl
@[simp] theorem endCommand_tableProfile : (endCommand e s).tableProfile = s.tableProfile := by rfl
@[simp] theorem endCommand_bufferProfile : (endCommand e s).bufferProfile = s.bufferProfile := by rfl
@[simp] theorem endCommand_limits : (endCommand e s).limits = s.limits := by rfl
@[simp] theorem endCommand_time : (endCommand e s).time = s.time := by rfl
@[simp] theorem endCommand_flt : (endCommand e s).flt = s.flt := by rfl
@[simp] theorem endCommand_tel : (endCommand e s).tel = s.tel := by rfl
@[simp] theorem endCommand_boot : (endCommand e s).boot = s.boot := by rfl
@[simp] theorem endCommand_lane : (endCommand e s).lane = s.lane := by rfl
@[simp] theorem endCommand_mac : (endCommand e s).mac = s.mac := by rfl
@[simp] theorem endCommand_fr : (endCommand e s).fr = s.fr := by rfl
@[simp] theorem endCommand_prs : (endCommand e s).prs = s.prs := by rfl
@[simp] theorem endCommand_sw : (endCommand e s).sw = s.sw := by rfl
@[simp] theorem endCommand_mat : (endCommand e s).mat = s.mat := by rfl
@[simp] theorem endCommand_fwd : (endCommand e s).fwd = s.fwd := by rfl
@[simp] theorem endCommand_sig : (endCommand e s).sig = s.sig := by rfl
@[simp] theorem endCommand_buf : (endCommand e s).buf = s.buf := by rfl
@[simp] theorem endCommand_sch : (endCommand e s).sch = s.sch := by rfl
@[simp] theorem endCommand_pow : (endCommand e s).pow = s.pow := by rfl

end

/-- An event has been logged. -/
theorem kiln_head (code : Nat) (fs : List (Nat × Nat)) (s : State) :
    ∃ r, (kiln code fs s).flt.kiln.head? = some r ∧ (r.code = code ∨ r.code = logFullCode) := kilnEvent_head _ _ _ _ _

theorem kilnInj_head (inj : Bool) (code : Nat) (fs : List (Nat × Nat)) (s : State) :
    ∃ r, (kilnInj inj code fs s).flt.kiln.head? = some r ∧ (r.code = code ∨ r.code = logFullCode) := kilnEvent_head _ _ _ _ _

/-- A raise is on its way. -/
theorem raiseFault_inFlight (b k i : Nat) (o : Bool) (s : State) :
    ∃ r, (raiseFault b k i o s).flt.inFlight = s.flt.inFlight ++ [r] ∧ r.bit = b ∧ r.kind = k ∧ r.index = i := by
  obtain ⟨r, p, h, hr⟩ := raiseFault_flt b k i o s
  exact ⟨r, by rw [h], hr⟩

/-- A command in progress has ended. -/
theorem endRunning_ended {id : Nat} {r : Running} {s : State} (st : Status) (d x : Bytes) (h : s.host.running.find? (fun y => y.id == id) = some r) :
    (endRunning id st d x s).host.ended = s.host.ended ++
      [{ slot := r.slot, tag := r.tag, opcode := r.opcode, status := st, write := r.write, data := d, reply := x,
         replyMax := r.replyMax, replyAddr := r.replyAddr }] := by
  unfold endRunning
  rw [h]
  rfl

end Sys2Proof.Laws
end

