-- ==== Sys2Proof/Laws/Icoux.lean ====
section
/-!
SUPPORT. What a command that Icoux takes and that passes every check leaves, by what its own work answers.
-/

namespace Sys2Proof.Laws

open Sys2Proof Sys2Proof.Machine

@[simp] theorem slotOf_takeCommand_state (i : Nat) (s : State) : (slotOf (takeCommand i s) i).state = (slotOf s i).state := by
  simp [takeCommand, modSlot, slotOf, setSlot]

@[simp] theorem slotOf_takeCommand_i3c (i : Nat) (s : State) : (slotOf (takeCommand i s) i).i3c = (slotOf s i).i3c := by
  simp [takeCommand, modSlot, slotOf, setSlot]

@[simp] theorem slotOf_takeCommand_role (i : Nat) (s : State) : (slotOf (takeCommand i s) i).role = (slotOf s i).role := by
  simp [takeCommand, modSlot, slotOf, setSlot]

/-- The state a taken command's work sees differs in `host` alone. -/
theorem takenState_eq (c : Cmd) (s : State) : ∃ h, takenState c s = { s with host := h } := ⟨_, rfl⟩

@[simp] theorem takenState_now (c : Cmd) (s : State) : (takenState c s).now = s.now := rfl
@[simp] theorem takenState_free (c : Cmd) (s : State) : (takenState c s).free = s.free := rfl
@[simp] theorem takenState_out (c : Cmd) (s : State) : (takenState c s).out = s.out := rfl
@[simp] theorem takenState_pending (c : Cmd) (s : State) : (takenState c s).pending = s.pending := rfl
@[simp] theorem takenState_tableProfile (c : Cmd) (s : State) : (takenState c s).tableProfile = s.tableProfile := rfl
@[simp] theorem takenState_bufferProfile (c : Cmd) (s : State) : (takenState c s).bufferProfile = s.bufferProfile := rfl
@[simp] theorem takenState_limits (c : Cmd) (s : State) : (takenState c s).limits = s.limits := rfl
@[simp] theorem takenState_time (c : Cmd) (s : State) : (takenState c s).time = s.time := rfl
@[simp] theorem takenState_flt (c : Cmd) (s : State) : (takenState c s).flt = s.flt := rfl
@[simp] theorem takenState_tel (c : Cmd) (s : State) : (takenState c s).tel = s.tel := rfl
@[simp] theorem takenState_boot (c : Cmd) (s : State) : (takenState c s).boot = s.boot := rfl
@[simp] theorem takenState_lane (c : Cmd) (s : State) : (takenState c s).lane = s.lane := rfl
@[simp] theorem takenState_mac (c : Cmd) (s : State) : (takenState c s).mac = s.mac := rfl
@[simp] theorem takenState_fr (c : Cmd) (s : State) : (takenState c s).fr = s.fr := rfl
@[simp] theorem takenState_prs (c : Cmd) (s : State) : (takenState c s).prs = s.prs := rfl
@[simp] theorem takenState_sw (c : Cmd) (s : State) : (takenState c s).sw = s.sw := rfl
@[simp] theorem takenState_mat (c : Cmd) (s : State) : (takenState c s).mat = s.mat := rfl
@[simp] theorem takenState_fwd (c : Cmd) (s : State) : (takenState c s).fwd = s.fwd := rfl
@[simp] theorem takenState_sig (c : Cmd) (s : State) : (takenState c s).sig = s.sig := rfl
@[simp] theorem takenState_buf (c : Cmd) (s : State) : (takenState c s).buf = s.buf := rfl
@[simp] theorem takenState_sch (c : Cmd) (s : State) : (takenState c s).sch = s.sch := rfl
@[simp] theorem takenState_pow (c : Cmd) (s : State) : (takenState c s).pow = s.pow := rfl
@[simp] theorem takenState_ended (c : Cmd) (s : State) : (takenState c s).host.ended = s.host.ended := rfl
@[simp] theorem takenState_running (c : Cmd) (s : State) : (takenState c s).host.running = s.host.running := rfl
@[simp] theorem takenState_nextId (c : Cmd) (s : State) : (takenState c s).host.nextId = s.host.nextId := rfl

@[simp] theorem effectiveCmd_slot (c : Cmd) (s : State) : (effectiveCmd c s).slot = c.slot := by
  unfold effectiveCmd
  generalize slotOf s c.slot.val = sl
  dsimp only
  split <;> rfl

theorem runTaken_passes {d : OpDef} {c : Cmd} {body : Nat → Bytes → State → CmdResult} {s : State} (h : passes d c s = true) :
    icoux d c body s = finishCommand d (effectiveCmd c s) (body c.slot.val (given c s) (takenState c s)) (takenState c s) := by
  simp only [passes, Bool.and_eq_true, Option.isNone_iff_eq_none, Bool.or_eq_true, beq_iff_eq] at h
  obtain ⟨⟨⟨⟨h1, h2⟩, h3⟩, h4⟩, -⟩ := h
  have h5 : ¬ ((slotOf s c.slot.val).state = .pending ∧ d.opcode ≠ 257) := by
    rintro ⟨ha, hb⟩
    rcases h3 with h | h
    · rw [h] at ha; cases ha
    · exact hb h
  have h6 : ((slotOf s c.slot.val).state == .pending && d.opcode != 257) = false := by
    simpa using h5
  unfold icoux
  simp only [h1, if_true]
  unfold runTaken
  simp only [effectiveCmd_slot, slotOf_takeCommand_i3c, h2, slotOf_takeCommand_state, h6, takenState] at *
  rw [h4]
  simp [given]

/-- A command whose work is done: it has ended so. -/
theorem icoux_done {d : OpDef} {c : Cmd} {body : Nat → Bytes → State → CmdResult} {s u : State} {st : Status} {data reply : Bytes}
    (h : passes d c s = true) (e : body c.slot.val (given c s) (takenState c s) = .done u st data reply) :
    icoux d c body s = endCommand (endedOf d (effectiveCmd c s) st data reply false) u := by
  rw [runTaken_passes h, e]
  have : (effectiveCmd c s).writeOk = true := by
    simp only [passes, Bool.and_eq_true] at h; exact h.2
  simp [finishCommand, this]

/-- The entry of an accepted command. -/
def runningOf (d : OpDef) (c : Cmd) (s : State) : Running :=
  let c' := effectiveCmd c s
  ⟨s.host.nextId, c.slot.val, c'.tag.toNat, d.opcode, d.write, c'.replyMax.toNat, c'.replyAddr⟩

/-- A command whose work has been accepted: it is in progress. -/
theorem icoux_later {d : OpDef} {c : Cmd} {body : Nat → Bytes → State → CmdResult} {s : State} {f : Nat → State}
    (h : passes d c s = true) (e : body c.slot.val (given c s) (takenState c s) = .later f) :
    icoux d c body s =
      modHost (fun x => { x with running := x.running ++ [runningOf d c s], nextId := s.host.nextId + 1 }) (f s.host.nextId) := by
  rw [runTaken_passes h, e]
  simp [finishCommand, runningOf]

/-- A command its own work rejects has ended so and changed nothing. -/
theorem icoux_fail {d : OpDef} {c : Cmd} {body : Nat → Bytes → State → CmdResult} {s : State} {st : Status} {data : Bytes}
    (h : passes d c s = true) (e : body c.slot.val (given c s) (takenState c s) = .fail st data) :
    icoux d c body s = endCommand (endedOf d (effectiveCmd c s) st data [] false) (takenState c s) := by
  rw [runTaken_passes h, e]
  rfl

/-- A read command's outcome. -/
theorem reads_of {d : OpDef} {c : Cmd} {i : Instr} {s : State} {body : Nat → Bytes → State → CmdResult} {reply : Bytes}
    (hi : exec i s = .next (icoux d c body s)) (e : passes d c s = true → body c.slot.val (given c s) (takenState c s) = .done (takenState c s) .ok [] reply) :
    Reads d c i s reply := by
  intro h
  refine ⟨_, hi, ?_, ?_⟩
  · rw [icoux_done h (e h)]; simp [answered, endCommand]
  · rw [icoux_done h (e h)]
    intro p hp
    cases p <;> first | rfl | exact absurd rfl hp

/-- A write command's outcome. -/
theorem writes_of {d : OpDef} {c : Cmd} {i : Instr} {s : State} {body : Nat → Bytes → State → CmdResult} {P : State → Prop}
    (hi : exec i s = .next (icoux d c body s))
    (e : passes d c s = true → ∃ u, body c.slot.val (given c s) (takenState c s) = .done u .ok [] [] ∧ u.host.ended = s.host.ended ∧
      P (endCommand (endedOf d (effectiveCmd c s) .ok [] [] false) u)) :
    Writes d c i s P := by
  intro h
  obtain ⟨u, hu, he, hp⟩ := e h
  refine ⟨_, hi, ?_, ?_⟩
  · rw [icoux_done h hu]; simp [answered, endCommand, he]
  · rw [icoux_done h hu]; exact hp

/-- An accepted command's outcome. -/
theorem starts_of {d : OpDef} {c : Cmd} {i : Instr} {s : State} {body : Nat → Bytes → State → CmdResult} {P : State → Prop}
    (hi : exec i s = .next (icoux d c body s))
    (e : passes d c s = true → ∃ f, body c.slot.val (given c s) (takenState c s) = .later f ∧ (f s.host.nextId).host.ended = s.host.ended ∧
      (f s.host.nextId).host.running = s.host.running ∧
      P (modHost (fun x => { x with running := x.running ++ [runningOf d c s], nextId := s.host.nextId + 1 }) (f s.host.nextId))) :
    Starts d c i s P := by
  intro h
  obtain ⟨f, hf, h1, h2, hp⟩ := e h
  refine ⟨_, hi, ?_, ?_⟩
  · rw [icoux_later h hf]
    exact ⟨h1, _, by simp [h2]; rfl, rfl, rfl, rfl, rfl, rfl⟩
  · rw [icoux_later h hf]; exact hp

end Sys2Proof.Laws
end

