-- ==== Sys2Proof/Laws/Keeps.lean ====
section
/-!
SUPPORT. What every operation does and does not change: the relation Keeps, and how it composes.
-/

namespace Sys2Proof.Laws

open Sys2Proof.Machine

/-- Whether every part of `a` is one of `b`. -/
def within (a b : List Part) : Bool := a.all fun p => b.contains p

theorem same_refl (p : Part) (s : State) : Same p s s := by cases p <;> rfl

theorem same_trans {p : Part} {a b c : State} (h : Same p a b) (k : Same p b c) : Same p a c := by
  cases p <;> exact Eq.trans k h

theorem kilnOk_empty {f : FaultState} (e : f.kiln = []) : KilnOk f := ⟨by simp [e], by simp [e]⟩

/-- From `s` to `t` only the parts `m` may change; the queue never does, real time and the supply of free values only advance, what the outside
has seen stays seen, and the kiln log keeps its bound. -/
structure Keeps (m : List Part) (s t : State) : Prop where
  pending : t.pending = s.pending
  now_le : s.now ≤ t.now
  free_le : s.free ≤ t.free
  seen : s.out <:+ t.out
  kiln : KilnOk s.flt → KilnOk t.flt
  same : ∀ p, m.contains p = false → Same p s t

theorem Keeps.refl (m : List Part) (s : State) : Keeps m s s :=
  ⟨rfl, le_rfl, le_rfl, List.suffix_refl _, id, fun p _ => same_refl p s⟩

theorem Keeps.trans {m : List Part} {a b c : State} (h : Keeps m a b) (k : Keeps m b c) : Keeps m a c :=
  ⟨k.pending.trans h.pending, h.now_le.trans k.now_le, h.free_le.trans k.free_le, h.seen.trans k.seen,
    fun x => k.kiln (h.kiln x), fun p x => same_trans (h.same p x) (k.same p x)⟩

theorem within_contains {a b : List Part} (h : within a b = true) {p : Part} (hp : b.contains p = false) : a.contains p = false := by
  simp only [within, List.all_eq_true] at h
  cases ha : a.contains p with
  | false => rfl
  | true =>
    have := h p (by simpa using ha)
    simp_all

theorem within_trans {a b c : List Part} (h : within a b = true) (k : within b c = true) : within a c = true := by
  simp only [within, List.all_eq_true] at *
  exact fun p hp => k p (by simpa using h p hp)

/-- A wider list of parts. -/
theorem Keeps.mono {a b : List Part} {s t : State} (h : Keeps a s t) (w : within a b = true) : Keeps b s t :=
  { h with same := fun p hp => h.same p (within_contains w hp) }

/-- Composition with an operation that keeps less. -/
theorem Keeps.step {a m : List Part} {s0 s t : State} (h : Keeps m s0 s) (k : Keeps a s t) (w : within a m = true) : Keeps m s0 t :=
  h.trans (k.mono w)

/-! ### Updates of one part -/

section Parts

variable {m : List Part} {s0 s : State}

theorem keeps_reach (t : Nat) (h : Keeps m s0 s) (w : within [.now] m = true) : Keeps m s0 (reach t s) :=
  h.step ⟨rfl, Nat.le_max_left _ _, le_rfl, List.suffix_refl _, id, by intro p hp; cases p <;> first | rfl | simp at hp⟩ w

theorem keeps_elapse (n : Nat) (h : Keeps m s0 s) (w : within [.now] m = true) : Keeps m s0 (elapse n s) :=
  h.step ⟨rfl, Nat.le_add_right _ _, le_rfl, List.suffix_refl _, id, by intro p hp; cases p <;> first | rfl | simp at hp⟩ w

theorem keeps_emit (e : Emission) (h : Keeps m s0 s) (w : within [.out] m = true) : Keeps m s0 (emit e s) :=
  h.step ⟨rfl, le_rfl, le_rfl, List.suffix_cons _ _, id, by intro p hp; cases p <;> first | rfl | simp at hp⟩ w

theorem keeps_takeFree (h : Keeps m s0 s) (w : within [.free] m = true) : Keeps m s0 (takeFree s).2 :=
  h.step ⟨rfl, le_rfl, Nat.le_succ _, List.suffix_refl _, id, by intro p hp; cases p <;> first | rfl | simp at hp⟩ w

theorem keeps_modTime (f : TimeState → TimeState) (h : Keeps m s0 s) (w : within [.time] m = true) : Keeps m s0 (modTime f s) :=
  h.step ⟨rfl, le_rfl, le_rfl, List.suffix_refl _, id, by intro p hp; cases p <;> first | rfl | simp at hp⟩ w

theorem keeps_modFlt (f : FaultState → FaultState) (h : Keeps m s0 s) (k : KilnOk s.flt → KilnOk (f s.flt)) (w : within [.flt] m = true) :
    Keeps m s0 (modFlt f s) :=
  h.step ⟨rfl, le_rfl, le_rfl, List.suffix_refl _, k, by intro p hp; cases p <;> first | rfl | simp at hp⟩ w

theorem keeps_modTel (f : ObserveState → ObserveState) (h : Keeps m s0 s) (w : within [.tel] m = true) : Keeps m s0 (modTel f s) :=
  h.step ⟨rfl, le_rfl, le_rfl, List.suffix_refl _, id, by intro p hp; cases p <;> first | rfl | simp at hp⟩ w

theorem keeps_modHost (f : HostState → HostState) (h : Keeps m s0 s) (w : within [.host] m = true) : Keeps m s0 (modHost f s) :=
  h.step ⟨rfl, le_rfl, le_rfl, List.suffix_refl _, id, by intro p hp; cases p <;> first | rfl | simp at hp⟩ w

theorem keeps_modBoot (f : BootState → BootState) (h : Keeps m s0 s) (k : (f s.boot).securityMin = s.boot.securityMin)
    (w : within [.boot] m = true) : Keeps m s0 (modBoot f s) :=
  h.step ⟨rfl, le_rfl, le_rfl, List.suffix_refl _, id, by intro p hp; cases p <;> first | exact k | rfl | simp at hp⟩ w

theorem keeps_modFuse (f : BootState → BootState) (h : Keeps m s0 s) (w : within [.boot, .fuse] m = true) : Keeps m s0 (modBoot f s) :=
  h.step ⟨rfl, le_rfl, le_rfl, List.suffix_refl _, id, by intro p hp; cases p <;> first | rfl | simp at hp⟩ w

theorem keeps_modLaneState (f : LaneState → LaneState) (h : Keeps m s0 s) (w : within [.lane] m = true) : Keeps m s0 (modLaneState f s) :=
  h.step ⟨rfl, le_rfl, le_rfl, List.suffix_refl _, id, by intro p hp; cases p <;> first | rfl | simp at hp⟩ w

theorem keeps_modMac (f : MacState → MacState) (h : Keeps m s0 s) (w : within [.mac] m = true) : Keeps m s0 (modMac f s) :=
  h.step ⟨rfl, le_rfl, le_rfl, List.suffix_refl _, id, by intro p hp; cases p <;> first | rfl | simp at hp⟩ w

theorem keeps_modFr (f : FrameState → FrameState) (h : Keeps m s0 s) (w : within [.fr] m = true) : Keeps m s0 (modFr f s) :=
  h.step ⟨rfl, le_rfl, le_rfl, List.suffix_refl _, id, by intro p hp; cases p <;> first | rfl | simp at hp⟩ w

theorem keeps_modPrs (f : ParserState → ParserState) (h : Keeps m s0 s) (w : within [.prs] m = true) : Keeps m s0 (modPrs f s) :=
  h.step ⟨rfl, le_rfl, le_rfl, List.suffix_refl _, id, by intro p hp; cases p <;> first | rfl | simp at hp⟩ w

theorem keeps_modMat (f : MatState → MatState) (h : Keeps m s0 s) (w : within [.mat] m = true) : Keeps m s0 (modMat f s) :=
  h.step ⟨rfl, le_rfl, le_rfl, List.suffix_refl _, id, by intro p hp; cases p <;> first | rfl | simp at hp⟩ w

theorem keeps_modFwd (f : FwdState → FwdState) (h : Keeps m s0 s) (w : within [.fwd] m = true) : Keeps m s0 (modFwd f s) :=
  h.step ⟨rfl, le_rfl, le_rfl, List.suffix_refl _, id, by intro p hp; cases p <;> first | rfl | simp at hp⟩ w

theorem keeps_modSig (f : SigState → SigState) (h : Keeps m s0 s) (w : within [.sig] m = true) : Keeps m s0 (modSig f s) :=
  h.step ⟨rfl, le_rfl, le_rfl, List.suffix_refl _, id, by intro p hp; cases p <;> first | rfl | simp at hp⟩ w

theorem keeps_modSw (f : SwitchState → SwitchState) (h : Keeps m s0 s) (w : within [.sw] m = true) : Keeps m s0 (modSw f s) :=
  h.step ⟨rfl, le_rfl, le_rfl, List.suffix_refl _, id, by intro p hp; cases p <;> first | rfl | simp at hp⟩ w

theorem keeps_modBuf (f : BufState → BufState) (h : Keeps m s0 s) (w : within [.buf] m = true) : Keeps m s0 (modBuf f s) :=
  h.step ⟨rfl, le_rfl, le_rfl, List.suffix_refl _, id, by intro p hp; cases p <;> first | rfl | simp at hp⟩ w

theorem keeps_modSch (f : SchedState → SchedState) (h : Keeps m s0 s) (w : within [.sch] m = true) : Keeps m s0 (modSch f s) :=
  h.step ⟨rfl, le_rfl, le_rfl, List.suffix_refl _, id, by intro p hp; cases p <;> first | rfl | simp at hp⟩ w

theorem keeps_modPow (f : PowerState → PowerState) (h : Keeps m s0 s) (w : within [.pow] m = true) : Keeps m s0 (modPow f s) :=
  h.step ⟨rfl, le_rfl, le_rfl, List.suffix_refl _, id, by intro p hp; cases p <;> first | rfl | simp at hp⟩ w

theorem keeps_setLimits (v : Store Limiter) (h : Keeps m s0 s) (w : within [.limits] m = true) : Keeps m s0 { s with limits := v } :=
  h.step ⟨rfl, le_rfl, le_rfl, List.suffix_refl _, id, by intro p hp; cases p <;> first | rfl | simp at hp⟩ w

theorem keeps_setTime (v : TimeState) (h : Keeps m s0 s) (w : within [.time] m = true) : Keeps m s0 { s with time := v } :=
  h.step ⟨rfl, le_rfl, le_rfl, List.suffix_refl _, id, by intro p hp; cases p <;> first | rfl | simp at hp⟩ w

theorem keeps_setFlt (v : FaultState) (h : Keeps m s0 s) (k : KilnOk s.flt → KilnOk v) (w : within [.flt] m = true) :
    Keeps m s0 { s with flt := v } :=
  h.step ⟨rfl, le_rfl, le_rfl, List.suffix_refl _, k, by intro p hp; cases p <;> first | rfl | simp at hp⟩ w

theorem keeps_setTable (v : Nat) (h : Keeps m s0 s) (w : within [.table] m = true) : Keeps m s0 { s with tableProfile := v } :=
  h.step ⟨rfl, le_rfl, le_rfl, List.suffix_refl _, id, by intro p hp; cases p <;> first | rfl | simp at hp⟩ w

theorem keeps_setBufp (v : Nat) (h : Keeps m s0 s) (w : within [.bufp] m = true) : Keeps m s0 { s with bufferProfile := v } :=
  h.step ⟨rfl, le_rfl, le_rfl, List.suffix_refl _, id, by intro p hp; cases p <;> first | rfl | simp at hp⟩ w

/-! ### Shapes of a body -/

theorem keeps_ite {p : Prop} [Decidable p] {a b : State} (ha : Keeps m s0 a) (hb : Keeps m s0 b) : Keeps m s0 (if p then a else b) := by
  split <;> assumption

theorem keeps_foldl {α : Type} (l : List α) (f : State → α → State) (h : Keeps m s0 s) (k : ∀ x s', Keeps m s0 s' → Keeps m s0 (f s' x)) :
    Keeps m s0 (l.foldl f s) := by
  induction l generalizing s with
  | nil => exact h
  | cons x t ih => exact ih (k x s h)

theorem keeps_pair_foldl {α β : Type} (l : List α) (f : β × State → α → β × State) (b : β) (h : Keeps m s0 s)
    (k : ∀ x (a : β × State), Keeps m s0 a.2 → Keeps m s0 (f a x).2) : Keeps m s0 (l.foldl f (b, s)).2 := by
  suffices ∀ a : β × State, Keeps m s0 a.2 → Keeps m s0 (l.foldl f a).2 from this (b, s) h
  induction l with
  | nil => exact fun _ h => h
  | cons x t ih => exact fun a ha => ih (f a x) (k x a ha)

end Parts

/-! ### Outcomes -/

/-- A step from `s` that answers a next state keeps all but `m`. -/
def KeepsOut (m : List Part) (s : State) (o : Host.Outcome State Fault Refusal) : Prop := ∀ t, o = .next t → Keeps m s t

theorem keepsOut_next {m : List Part} {s t : State} (h : Keeps m s t) : KeepsOut m s (.next t) := by
  intro u hu; cases hu; exact h

theorem keepsOut_fault {m : List Part} {s : State} (r : Fault) : KeepsOut m s (.fault r) := by intro u hu; cases hu

theorem keepsOut_ite {m : List Part} {s : State} {p : Prop} [Decidable p] {a b : Host.Outcome State Fault Refusal}
    (ha : KeepsOut m s a) (hb : KeepsOut m s b) : KeepsOut m s (if p then a else b) := by
  split <;> assumption

theorem KeepsOut.mono {a b : List Part} {s : State} {o : Host.Outcome State Fault Refusal} (h : KeepsOut a s o) (w : within a b = true) :
    KeepsOut b s o := fun t e => (h t e).mono w

theorem keeps_of_pair {α : Type} {m : List Part} {s0 : State} {x : α × State} {a : α} {t : State} (e : x = (a, t)) (h : Keeps m s0 x.2) :
    Keeps m s0 t := by subst e; exact h

/-- What a command's own work answers keeps all but `m`. -/
def KeepsRes (m : List Part) (s : State) (r : CmdResult) : Prop :=
  match r with
  | .fail _ _ => True
  | .done t _ _ _ => Keeps m s t
  | .later f => ∀ id, Keeps m s (f id)

theorem KeepsRes.mono {a b : List Part} {s : State} {r : CmdResult} (h : KeepsRes a s r) (w : within a b = true) : KeepsRes b s r := by
  cases r with
  | fail => trivial
  | done => exact Keeps.mono h w
  | later f => exact fun id => (h id).mono w

theorem KeepsRes.step {a m : List Part} {s0 s : State} {r : CmdResult} (h : Keeps m s0 s) (k : KeepsRes a s r) (w : within a m = true) :
    KeepsRes m s0 r := by
  cases r with
  | fail => trivial
  | done => exact h.step k w
  | later f => exact fun id => h.step (k id) w

theorem keepsRes_ite {m : List Part} {s : State} {p : Prop} [Decidable p] {a b : CmdResult} (ha : KeepsRes m s a) (hb : KeepsRes m s b) :
    KeepsRes m s (if p then a else b) := by
  split <;> assumption

theorem keepsRes_done {m : List Part} {s t : State} {st : Status} {d r : Bytes} (h : Keeps m s t) : KeepsRes m s (.done t st d r) := h

theorem keepsRes_later {m : List Part} {s : State} {f : Nat → State} (h : ∀ id, Keeps m s (f id)) : KeepsRes m s (.later f) := h

theorem keepsRes_fail {m : List Part} {s : State} {st : Status} {d : Bytes} : KeepsRes m s (.fail st d) := trivial

theorem keepsRes_okWrite {m : List Part} {s t : State} (h : Keeps m s t) : KeepsRes m s (okWrite t) := h

theorem keepsRes_okReply {m : List Part} {s t : State} {r : Bytes} (h : Keeps m s t) : KeepsRes m s (okReply t r) := h

theorem keepsRes_badAll {m : List Part} {s : State} {st : Status} : KeepsRes m s (badAll st) := trivial

theorem keepsRes_badField {m : List Part} {s : State} {n : Nat} {st : Status} : KeepsRes m s (badField n st) := trivial

/-- An optional state and value. -/
def KeepsOpt {α : Type} (m : List Part) (s : State) (r : Option (α × State)) : Prop := ∀ a t, r = some (a, t) → Keeps m s t

/-- A checked state and value. -/
def KeepsExc {ε α : Type} (m : List Part) (s : State) (r : Except ε (α × State)) : Prop := ∀ a t, r = .ok (a, t) → Keeps m s t

/-- An optional state. -/
def KeepsSome (m : List Part) (s : State) (r : Option State) : Prop := ∀ t, r = some t → Keeps m s t

theorem keepsSome_none {m : List Part} {s : State} : KeepsSome m s none := by intro t e; cases e

theorem keepsSome_some {m : List Part} {s t : State} (h : Keeps m s t) : KeepsSome m s (some t) := by intro u e; cases e; exact h

theorem keepsOpt_none {α : Type} {m : List Part} {s : State} : KeepsOpt (α := α) m s none := by intro a t e; cases e

theorem keepsOpt_some {α : Type} {m : List Part} {s t : State} {a : α} (h : Keeps m s t) : KeepsOpt m s (some (a, t)) := by
  intro b u e; cases e; exact h

theorem keepsOpt_map {α β : Type} {m : List Part} {s : State} {o : Option β} {f : β → α × State} (h : ∀ b, Keeps m s (f b).2) :
    KeepsOpt m s (o.map f) := by
  intro a t e
  obtain ⟨b, _, hb⟩ := Option.map_eq_some_iff.mp e
  exact keeps_of_pair hb (h b)

theorem keepsOpt_then {α β : Type} {m : List Part} {s : State} {o : Option (β × State)} {f : β × State → α × State} (h : KeepsOpt m s o)
    (k : ∀ b t, Keeps m s t → Keeps m s (f (b, t)).2) : KeepsOpt m s (o.map f) := by
  intro a t e
  obtain ⟨⟨b, u⟩, ho, hb⟩ := Option.map_eq_some_iff.mp e
  exact keeps_of_pair hb (k b u (h b u ho))

theorem KeepsOpt.mono {α : Type} {a b : List Part} {s : State} {o : Option (α × State)} (h : KeepsOpt a s o) (w : within a b = true) :
    KeepsOpt b s o := fun x t e => (h x t e).mono w

theorem keeps_opt_step {α : Type} {a m : List Part} {s0 s t : State} {o : Option (α × State)} {x : α} (k : KeepsOpt a s o)
    (e : o = some (x, t)) (h : Keeps m s0 s) (w : within a m = true) : Keeps m s0 t := h.step (k x t e) w

theorem keeps_exc_step {ε α : Type} {a m : List Part} {s0 s t : State} {o : Except ε (α × State)} {x : α} (k : KeepsExc a s o)
    (e : o = .ok (x, t)) (h : Keeps m s0 s) (w : within a m = true) : Keeps m s0 t := h.step (k x t e) w

theorem keeps_some_step {a m : List Part} {s0 s t : State} {o : Option State} (k : KeepsSome a s o)
    (e : o = some t) (h : Keeps m s0 s) (w : within a m = true) : Keeps m s0 t := h.step (k t e) w

theorem keepsExc_error {ε α : Type} {m : List Part} {s : State} {x : ε} : KeepsExc (α := α) m s (.error x) := by intro a t e; cases e

theorem keepsExc_ok {ε α : Type} {m : List Part} {s t : State} {a : α} (h : Keeps m s t) : KeepsExc (ε := ε) m s (.ok (a, t)) := by
  intro b u e; cases e; exact h

end Sys2Proof.Laws
end

