-- ==== Sys2Proof/Laws/KeepsOps.lean ====
section
/-!
SUPPORT. What the operations of Ops keep.
-/

set_option linter.all false

namespace Sys2Proof.Laws

open Sys2Proof Sys2Proof.Machine

theorem keeps_signal (x1 : Nat) (s : State) : Keeps [.out, .host] s (signal x1 s) := by
  unfold signal
  try dsimp only
  repeat' first
    | with_reducible apply Keeps.refl
    | (with_reducible apply keeps_modHost; case w => decide)
    | (with_reducible apply keeps_emit; case w => decide)
    | split

theorem keeps_setDomain (x1 : Nat) (x2 : Domain) (s : State) : Keeps [.time] s (setDomain x1 x2 s) := by
  unfold setDomain
  try dsimp only
  repeat' first
    | with_reducible apply Keeps.refl
    | (with_reducible apply keeps_setTime; case w => decide)

theorem keeps_setCopy (x1 : Nat) (x2 : Nat) (x3 : TimeCopy) (s : State) : Keeps [.time] s (setCopy x1 x2 x3 s) := by
  unfold setCopy
  try dsimp only
  repeat' first
    | with_reducible apply Keeps.refl
    | (with_reducible apply keeps_setTime; case w => decide)

theorem kilnOk_cons {f g : FaultState} {r : KilnRec} (e : g.kiln = r :: f.kiln) (h : f.kiln.length < 32767) : KilnOk g := by
  refine ⟨by simp [e]; omega, fun x => ?_⟩
  simp [e] at x
  omega

theorem kilnOk_full {f g : FaultState} {r : KilnRec} (e : g.kiln = r :: f.kiln) (c : r.code = logFullCode) (h : f.kiln.length < 32768) : KilnOk g :=
  ⟨by simp [e]; omega, fun _ => by simp [e, c]⟩

theorem kilnOk_bump {s : State} {r : KilnRec} {g : FaultState} {r' : KilnRec} {l : List KilnRec} (e : s.flt.kiln = r :: l)
    (e' : g.kiln = r' :: s.flt.kiln.tail) (c : r'.code = r.code) (h : KilnOk s.flt) : KilnOk g := by
  obtain ⟨h1, h2⟩ := h
  simp only [e, List.length_cons, List.head?_cons, Option.map_some, Option.some.injEq, List.tail_cons] at h1 h2 e'
  refine ⟨by simpa [e'] using h1, fun x => ?_⟩
  simp only [e', List.length_cons, List.head?_cons, Option.map_some, Option.some.injEq] at x ⊢
  exact c.trans (h2 x)

theorem kilnOk_event (code fb : Nat) (inj : Bool) (data : Bytes) (s : State) (h : KilnOk s.flt) : KilnOk (kilnEvent code fb inj data s).flt := by
  unfold kilnEvent
  split
  · rename_i r l e
    split
    · exact kilnOk_bump e rfl rfl h
    · split
      · exact kilnOk_bump e rfl rfl h
      · rename_i n _
        have hl : s.flt.kiln.length ≠ 32768 := by
          intro x
          have := h.2 x
          simp [e] at this n
          exact n this
        have := h.1
        split
        · exact kilnOk_full (f := s.flt) rfl rfl (by omega)
        · exact kilnOk_cons (f := s.flt) rfl (by omega)
  · rename_i e
    exact kilnOk_cons (f := s.flt) rfl (by simp [e])

theorem keeps_kilnEvent (code fb : Nat) (inj : Bool) (data : Bytes) (s : State) : Keeps [.flt] s (kilnEvent code fb inj data s) := by
  refine ⟨?_, ?_, ?_, ?_, kilnOk_event code fb inj data s, ?_⟩ <;> unfold kilnEvent kilnReplace kilnAppend
  · (repeat' split) <;> rfl
  · (repeat' split) <;> exact le_rfl
  · (repeat' split) <;> exact le_rfl
  · (repeat' split) <;> exact List.suffix_refl _
  · intro p hp
    (repeat' split) <;> cases p <;> first | rfl | simp at hp

theorem keeps_kiln (x1 : Nat) (x2 : List (Nat × Nat)) (s : State) : Keeps [.flt] s (kiln x1 x2 s) := by
  unfold kiln
  try dsimp only
  repeat' first
    | with_reducible apply Keeps.refl
    | (with_reducible apply Keeps.step (k := keeps_kilnEvent _ _ _ _ _); case w => decide)

theorem keeps_kilnInj (x1 : Bool) (x2 : Nat) (x3 : List (Nat × Nat)) (s : State) : Keeps [.flt] s (kilnInj x1 x2 x3 s) := by
  unfold kilnInj
  try dsimp only
  repeat' first
    | with_reducible apply Keeps.refl
    | (with_reducible apply Keeps.step (k := keeps_kilnEvent _ _ _ _ _); case w => decide)

theorem keeps_kilnOnce (x1 : Nat) (x2 : Nat) (x3 : List (Nat × Nat)) (s : State) : Keeps [.flt] s (kilnOnce x1 x2 x3 s) := by
  unfold kilnOnce
  try dsimp only
  repeat' first
    | with_reducible apply Keeps.refl
    | exact fun hy => hy
    | (with_reducible apply Keeps.step (k := keeps_kiln _ _ _); case w => decide)
    | split
    | (with_reducible apply keeps_setFlt; case w => decide)

theorem keeps_count (x1 : Counter) (x2 : Nat) (x3 : Nat) (s : State) : Keeps [.tel] s (count x1 x2 x3 s) := by
  unfold count
  try dsimp only
  repeat' first
    | with_reducible apply Keeps.refl
    | (with_reducible apply keeps_modTel; case w => decide)

theorem keeps_countSet (x1 : Counter) (x2 : Nat) (x3 : Nat) (s : State) : Keeps [.tel] s (countSet x1 x2 x3 s) := by
  unfold countSet
  try dsimp only
  repeat' first
    | with_reducible apply Keeps.refl
    | (with_reducible apply keeps_modTel; case w => decide)

theorem keeps_raiseFault (x1 : Nat) (x2 : Nat) (x3 : Nat) (x4 : Bool) (s : State) : Keeps [.flt] s (raiseFault x1 x2 x3 x4 s) := by
  unfold raiseFault
  try dsimp only
  repeat' first
    | with_reducible apply Keeps.refl
    | exact fun hy => hy
    | (with_reducible apply keeps_modFlt; case w => decide)
    | split

theorem keeps_detect {m : List Part} {s0 s : State} (b k i : Nat) (c : Bool → State → State) (h : Keeps m s0 s)
    (hc : ∀ j s', Keeps m s0 s' → Keeps m s0 (c j s')) (w : within [.flt] m = true) : Keeps m s0 (detect b k i c s) :=
  (hc _ _ h).step (keeps_raiseFault _ _ _ _ _) w

theorem keeps_writeLimit (x1 : LimitKind) (x2 : Nat) (x3 : Nat) (x4 : Nat) (s : State) : Keeps [.limits] s (writeLimit x1 x2 x3 x4 s) := by
  unfold writeLimit
  try dsimp only
  repeat' first
    | with_reducible apply Keeps.refl
    | split
    | (with_reducible apply keeps_setLimits; case w => decide)

theorem keeps_takeLimit (x1 : LimitKind) (x2 : Nat) (s : State) : Keeps [.limits] s (takeLimit x1 x2 s).2 := by
  unfold takeLimit
  try dsimp only
  repeat' first
    | with_reducible apply Keeps.refl
    | split
    | dsimp only
    | (with_reducible apply keeps_setLimits; case w => decide)

theorem keeps_ensureLimit (x1 : LimitKind) (x2 : Nat) (x3 : Nat) (x4 : Nat) (s : State) : Keeps [.limits] s (ensureLimit x1 x2 x3 x4 s) := by
  unfold ensureLimit
  try dsimp only
  repeat' first
    | with_reducible apply Keeps.refl
    | (with_reducible apply Keeps.step (k := keeps_writeLimit _ _ _ _ _); case w => decide)
    | split

theorem keeps_refillLimits (x1 : Nat) (s : State) : Keeps [.limits] s (refillLimits x1 s) := by
  unfold refillLimits
  try dsimp only
  repeat' first
    | with_reducible apply Keeps.refl
    | (with_reducible apply keeps_setLimits; case w => decide)

end Sys2Proof.Laws
end

