-- ==== Sys2Proof/Laws/KeepsCounters.lean ====
section
/-!
SUPPORT. What the operations of Counters keep.
-/

set_option linter.all false

namespace Sys2Proof.Laws

open Sys2Proof Sys2Proof.Machine

theorem keeps_addEnergy (x1 : Nat) (x2 : Nat) (x3 : Nat) (s : State) : Keeps [.pow] s (addEnergy x1 x2 x3 s) := by
  unfold addEnergy
  try dsimp only
  repeat' first
    | with_reducible apply Keeps.refl
    | (with_reducible apply keeps_modPow; case w => decide)

theorem keeps_spendEnergy (x1 : Nat) (x2 : Nat) (x3 : Nat) (x4 : Nat) (x5 : Nat) (x6 : Nat) (s : State) : Keeps [.pow] s (spendEnergy x1 x2 x3 x4 x5 x6 s) := by
  unfold spendEnergy
  try dsimp only
  repeat' first
    | with_reducible apply Keeps.refl
    | (with_reducible apply Keeps.step (k := keeps_addEnergy _ _ _ _); case w => decide)

theorem keeps_spendPipe (x1 : Nat) (x2 : Nat) (x3 : Nat) (x4 : Nat) (s : State) : Keeps [.pow] s (spendPipe x1 x2 x3 x4 s) := by
  unfold spendPipe
  try dsimp only
  repeat' first
    | with_reducible apply Keeps.refl
    | (with_reducible apply Keeps.step (k := keeps_spendEnergy _ _ _ _ _ _ _); case w => decide)

theorem keeps_spendQueue (x1 : Nat) (x2 : Nat) (x3 : Nat) (x4 : Nat) (s : State) : Keeps [.pow] s (spendQueue x1 x2 x3 x4 s) := by
  unfold spendQueue
  try dsimp only
  repeat' first
    | with_reducible apply Keeps.refl
    | (with_reducible apply Keeps.step (k := keeps_spendEnergy _ _ _ _ _ _ _); case w => decide)

end Sys2Proof.Laws
end

