-- ==== Sys2Proof/Laws/KeepsFrames.lean ====
section
/-!
SUPPORT. What the operations of Frames keep.
-/

set_option linter.all false

namespace Sys2Proof.Laws

open Sys2Proof Sys2Proof.Machine

theorem keeps_setFrame (x1 : Nat) (x2 : Frame) (s : State) : Keeps [.fr] s (setFrame x1 x2 s) := by
  unfold setFrame
  try dsimp only
  repeat' first
    | with_reducible apply Keeps.refl
    | (with_reducible apply keeps_modFr; case w => decide)

theorem keeps_modFrame (x1 : Nat) (x2 : Frame → Frame) (s : State) : Keeps [.fr] s (modFrame x1 x2 s) := by
  unfold modFrame
  try dsimp only
  repeat' first
    | with_reducible apply Keeps.refl
    | (with_reducible apply keeps_modFr; case w => decide)

theorem keeps_newFrame (x1 : Frame) (s : State) : Keeps [.fr] s (newFrame x1 s).2 := by
  unfold newFrame
  try dsimp only
  repeat' first
    | with_reducible apply Keeps.refl
    | (with_reducible apply keeps_modFr; case w => decide)

theorem keeps_deliver (x1 : Delivery) (s : State) : Keeps [.fr] s (deliver x1 s) := by
  unfold deliver
  try dsimp only
  repeat' first
    | with_reducible apply Keeps.refl
    | (with_reducible apply keeps_modFr; case w => decide)

theorem keeps_setExporter (x1 : Nat) (x2 : Exporter) (s : State) : Keeps [.tel] s (setExporter x1 x2 s) := by
  unfold setExporter
  try dsimp only
  repeat' first
    | with_reducible apply Keeps.refl
    | (with_reducible apply keeps_modTel; case w => decide)

theorem keeps_sendExport (x1 : Nat) (s : State) : Keeps [.tel, .fr, .sw] s (sendExport x1 s) := by
  unfold sendExport
  try dsimp only
  repeat' first
    | with_reducible apply Keeps.refl
    | (with_reducible apply Keeps.step (k := keeps_newFrame _ _); case w => decide)
    | (with_reducible apply Keeps.step (k := keeps_count _ _ _ _); case w => decide)
    | (with_reducible apply Keeps.step (k := keeps_setExporter _ _ _); case w => decide)
    | (with_reducible apply Keeps.step (k := keeps_deliver _ _); case w => decide)
    | (with_reducible apply keeps_modSw; case w => decide)
    | split

theorem keeps_loseRecords (x1 : Nat) (x2 : Nat) (s : State) : Keeps [.flt, .tel] s (loseRecords x1 x2 s) := by
  unfold loseRecords
  try dsimp only
  repeat' first
    | with_reducible apply Keeps.refl
    | (with_reducible apply Keeps.step (k := keeps_kilnOnce _ _ _ _); case w => decide)
    | (with_reducible apply Keeps.step (k := keeps_count _ _ _ _); case w => decide)
    | (with_reducible apply Keeps.step (k := keeps_setExporter _ _ _); case w => decide)
    | split

theorem keeps_exportRecord (x1 : Nat) (x2 : Bytes) (s : State) : Keeps [.flt, .tel, .fr, .sw] s (exportRecord x1 x2 s) := by
  unfold exportRecord
  try dsimp only
  repeat' first
    | with_reducible apply Keeps.refl
    | (with_reducible apply Keeps.step (k := keeps_sendExport _ _); case w => decide)
    | (with_reducible apply Keeps.step (k := keeps_loseRecords _ _ _); case w => decide)
    | (with_reducible apply Keeps.step (k := keeps_setExporter _ _ _); case w => decide)
    | split

theorem keeps_makeRecord (x1 : Nat) (x2 : Nat) (x3 : Bytes) (s : State) : Keeps [.flt, .tel, .fr, .sw] s (makeRecord x1 x2 x3 s) := by
  unfold makeRecord
  try dsimp only
  repeat' first
    | with_reducible apply Keeps.refl
    | (with_reducible apply Keeps.step (k := keeps_exportRecord _ _ _); case w => decide)
    | (with_reducible apply keeps_modTel; case w => decide)

theorem keeps_dropRecord (x1 : Nat) (x2 : Nat) (x3 : Frame) (x4 : CopyInfo) (s : State) : Keeps [.limits, .flt, .tel, .fr, .sw] s (dropRecord x1 x2 x3 x4 s) := by
  unfold dropRecord
  try dsimp only
  repeat' first
    | with_reducible apply Keeps.refl
    | (with_reducible apply Keeps.step (k := keeps_ensureLimit _ _ _ _ _); case w => decide)
    | (with_reducible apply Keeps.step (k := keeps_count _ _ _ _); case w => decide)
    | (with_reducible apply Keeps.step (k := keeps_takeLimit _ _ _); case w => decide)
    | (with_reducible apply Keeps.step (k := keeps_makeRecord _ _ _ _); case w => decide)
    | (with_reducible apply Keeps.step (k := keeps_kilnOnce _ _ _ _); case w => decide)
    | split

theorem keeps_dropIn (x1 : Nat) (x2 : Nat) (x3 : Frame) (x4 : CopyInfo) (s : State) : Keeps [.limits, .flt, .tel, .fr, .sw] s (dropIn x1 x2 x3 x4 s) := by
  unfold dropIn
  try dsimp only
  repeat' first
    | with_reducible apply Keeps.refl
    | (with_reducible apply Keeps.step (k := keeps_dropRecord _ _ _ _ _); case w => decide)
    | (with_reducible apply Keeps.step (k := keeps_count _ _ _ _); case w => decide)

end Sys2Proof.Laws
end

