-- ==== Sys2Proof/Laws/KeepsOperands.lean ====
section
/-!
SUPPORT. What the operations of Operands keep.
-/

set_option linter.all false

namespace Sys2Proof.Laws

open Sys2Proof Sys2Proof.Machine

theorem keeps_forMask {m : List Part} {s0 s : State} (n k : Nat) (f : Nat → State → State) (h : Keeps m s0 s)
    (hf : ∀ i s', Keeps m s0 s' → Keeps m s0 (f i s')) : Keeps m s0 (forMask n k f s) :=
  keeps_foldl _ _ h hf

theorem keeps_setSlot (x1 : Nat) (x2 : Slot) (s : State) : Keeps [.host] s (setSlot x1 x2 s) := by
  unfold setSlot
  try dsimp only
  repeat' first
    | with_reducible apply Keeps.refl
    | (with_reducible apply keeps_modHost; case w => decide)

theorem keeps_modSlot (x1 : Nat) (x2 : Slot → Slot) (s : State) : Keeps [.host] s (modSlot x1 x2 s) := by
  unfold modSlot
  try dsimp only
  repeat' first
    | with_reducible apply Keeps.refl
    | (with_reducible apply Keeps.step (k := keeps_setSlot _ _ _); case w => decide)

end Sys2Proof.Laws
end

