-- ==== Sys2Proof/Laws/KeepsIcoux.lean ====
section
/-!
SUPPORT. What the operations of Icoux keep.
-/

set_option linter.all false

namespace Sys2Proof.Laws

open Sys2Proof Sys2Proof.Machine

theorem keeps_enterLimited (x1 : Nat) (s : State) : Keeps [.flt, .tel, .host] s (enterLimited x1 s) := by
  unfold enterLimited
  try dsimp only
  repeat' first
    | with_reducible apply Keeps.refl
    | (with_reducible apply Keeps.step (k := keeps_setSlot _ _ _); case w => decide)
    | (with_reducible apply Keeps.step (k := keeps_count _ _ _ _); case w => decide)
    | (with_reducible apply Keeps.step (k := keeps_raiseFault _ _ _ _ _); case w => decide)
    | (with_reducible apply Keeps.step (k := keeps_kiln _ _ _); case w => decide)
    | split

theorem keeps_transportFault (x1 : Nat) (s : State) : Keeps [.flt, .tel, .host] s (transportFault x1 s) := by
  unfold transportFault
  try dsimp only
  repeat' first
    | with_reducible apply Keeps.refl
    | (with_reducible apply Keeps.step (k := keeps_setSlot _ _ _); case w => decide)
    | (with_reducible apply Keeps.step (k := keeps_enterLimited _ _); case w => decide)
    | (with_reducible apply Keeps.step (k := keeps_count _ _ _ _); case w => decide)

theorem keeps_takeCommand (x1 : Nat) (s : State) : Keeps [.host] s (takeCommand x1 s) := by
  unfold takeCommand
  try dsimp only
  repeat' first
    | with_reducible apply Keeps.refl
    | (with_reducible apply Keeps.step (k := keeps_modSlot _ _ _); case w => decide)

theorem keeps_endCommand (x1 : Ended) (s : State) : Keeps [.host] s (endCommand x1 s) := by
  unfold endCommand
  try dsimp only
  repeat' first
    | with_reducible apply Keeps.refl
    | (with_reducible apply keeps_modHost; case w => decide)

theorem keeps_transferFailed (x1 : OpDef) (x2 : Cmd) (x3 : BitVec 64) (s : State) : Keeps [.flt, .tel, .host] s (transferFailed x1 x2 x3 s) := by
  unfold transferFailed
  try dsimp only
  repeat' first
    | with_reducible apply Keeps.refl
    | (with_reducible apply Keeps.step (k := keeps_transportFault _ _); case w => decide)
    | (with_reducible apply Keeps.step (k := keeps_raiseFault _ _ _ _ _); case w => decide)
    | (with_reducible apply Keeps.step (k := keeps_endCommand _ _); case w => decide)
    | (with_reducible apply Keeps.step (k := keeps_kiln _ _ _); case w => decide)

theorem keeps_finishCommand {m : List Part} (d : OpDef) (c : Cmd) (r : CmdResult) (s0 s : State) (h : Keeps m s0 s) (hr : KeepsRes m s r)
    (w : within [.flt, .tel, .host] m = true) : Keeps m s0 (finishCommand d c r s) := by
  unfold finishCommand
  split
  · exact h.step (keeps_endCommand _ _) (within_trans rfl w)
  · split
    · exact (h.trans hr).step (keeps_endCommand _ _) (within_trans rfl w)
    · exact h.step (keeps_transferFailed _ _ _ _) (within_trans rfl w)
  · exact keeps_modHost _ (h.trans (hr _)) (within_trans rfl w)

theorem keeps_runTaken {m : List Part} (d : OpDef) (c : Cmd) (body : Nat → Bytes → State → CmdResult) (s0 s : State) (h : Keeps m s0 s)
    (hb : ∀ i p s', KeepsRes m s' (body i p s')) (w : within [.flt, .tel, .host] m = true) : Keeps m s0 (runTaken d c body s) := by
  unfold runTaken
  dsimp only
  repeat' split
  · exact h.step (keeps_transferFailed _ _ _ _) (within_trans rfl w)
  · exact (h.step (keeps_endCommand _ _) (within_trans rfl w)).step (keeps_transportFault _ _) (within_trans rfl w)
  · exact h.step (keeps_endCommand _ _) (within_trans rfl w)
  · exact h.step (keeps_endCommand _ _) (within_trans rfl w)
  · exact keeps_finishCommand _ _ _ _ _ h (hb _ _ _) w

/-- What a command keeps, from what its own work keeps. -/
theorem keeps_icoux {m : List Part} {s0 s : State} (d : OpDef) (c : Cmd) (body : Nat → Bytes → State → CmdResult) (h : Keeps m s0 s)
    (hb : ∀ i p s', KeepsRes m s' (body i p s')) (w : within [.flt, .tel, .host] m = true) : Keeps m s0 (icoux d c body s) := by
  unfold icoux
  dsimp only
  split
  · exact keeps_runTaken _ _ _ _ _ (h.step (keeps_takeCommand _ _) (within_trans rfl w)) hb w
  · exact h

theorem keeps_endRunning (x1 : Nat) (x2 : Status) (x3 : Bytes) (x4 : Bytes) (s : State) : Keeps [.host] s (endRunning x1 x2 x3 x4 s) := by
  unfold endRunning
  try dsimp only
  repeat' first
    | with_reducible apply Keeps.refl
    | (with_reducible apply keeps_modHost; case w => decide)
    | split

end Sys2Proof.Laws
end

