-- ==== Sys2Proof/Laws/KeepsTime.lean ====
section
/-!
SUPPORT. What the operations of Time keep.
-/

set_option linter.all false

namespace Sys2Proof.Laws

open Sys2Proof Sys2Proof.Machine

theorem keeps_setMacPort (x1 : Nat) (x2 : MacPort) (s : State) : Keeps [.mac] s (setMacPort x1 x2 s) := by
  unfold setMacPort
  try dsimp only
  repeat' first
    | with_reducible apply Keeps.refl
    | (with_reducible apply keeps_modMac; case w => decide)

theorem keeps_setEntry (x1 : Nat) (x2 : Nat) (x3 : FiringEntry) (s : State) : Keeps [.time] s (setEntry x1 x2 x3 s) := by
  unfold setEntry
  try dsimp only
  repeat' first
    | with_reducible apply Keeps.refl
    | (with_reducible apply keeps_modTime; case w => decide)

theorem keeps_fireEntry (x1 : Nat) (x2 : Nat) (x3 : Nat) (s : State) : Keeps [.time, .flt] s (fireEntry x1 x2 x3 s) := by
  unfold fireEntry
  try dsimp only
  repeat' first
    | with_reducible apply Keeps.refl
    | (with_reducible apply Keeps.step (k := keeps_setEntry _ _ _ _); case w => decide)
    | (with_reducible apply keeps_modTime; case w => decide)
    | (with_reducible apply Keeps.step (k := keeps_kilnOnce _ _ _ _); case w => decide)
    | split

theorem keeps_markLate (x1 : Nat) (x2 : Nat) (s : State) : Keeps [.time] s (markLate x1 x2 s) := by
  unfold markLate
  try dsimp only
  repeat' first
    | with_reducible assumption
    | with_reducible apply Keeps.refl
    | with_reducible intro _
    | with_reducible apply keeps_foldl
    | (with_reducible apply Keeps.step (k := keeps_setEntry _ _ _ _); case w => decide)

theorem keeps_stepEntry (x1 : Nat) (x2 : Nat) (x3 : Nat) (x4 : Nat) (x5 : Nat) (s : State) : Keeps [.time, .flt] s (stepEntry x1 x2 x3 x4 x5 s) := by
  unfold stepEntry
  try dsimp only
  repeat' first
    | with_reducible apply Keeps.refl
    | (with_reducible apply Keeps.step (k := keeps_kiln _ _ _); case w => decide)
    | (with_reducible apply Keeps.step (k := keeps_setEntry _ _ _ _); case w => decide)
    | split

theorem keeps_stepCopy (x1 : Nat) (x2 : TimeCopy → TimeCopy) (x3 : Nat) (s : State) : Keeps [.time, .flt] s (stepCopy x1 x2 x3 s) := by
  unfold stepCopy
  try dsimp only
  repeat' first
    | with_reducible assumption
    | with_reducible apply Keeps.refl
    | with_reducible intro _
    | with_reducible apply keeps_foldl
    | (with_reducible apply Keeps.step (k := keeps_stepEntry _ _ _ _ _ _); case w => decide)
    | (with_reducible apply Keeps.step (k := keeps_setCopy _ _ _ _); case w => decide)

theorem keeps_stepDomain (x1 : Nat) (x2 : TimeCopy → TimeCopy) (s : State) : Keeps [.time, .flt] s (stepDomain x1 x2 s) := by
  unfold stepDomain
  try dsimp only
  repeat' first
    | with_reducible assumption
    | with_reducible apply Keeps.refl
    | with_reducible intro _
    | with_reducible apply keeps_foldl
    | (with_reducible apply Keeps.step (k := keeps_stepCopy _ _ _ _); case w => decide)
    | (with_reducible apply Keeps.step (k := keeps_kiln _ _ _); case w => decide)

theorem keeps_applyDomain (x1 : Bytes) (s : State) : Keeps [.time] s (applyDomain x1 s) := by
  unfold applyDomain
  try dsimp only
  repeat' first
    | with_reducible assumption
    | with_reducible apply Keeps.refl
    | with_reducible intro _
    | with_reducible apply keeps_foldl
    | (with_reducible apply Keeps.step (k := keeps_setDomain _ _ _); case w => decide)
    | split

theorem keeps_applyAdjust (x1 : Bytes) (s : State) : Keeps [.time, .flt] s (applyAdjust x1 s).2 := by
  unfold applyAdjust
  try dsimp only
  repeat' first
    | with_reducible apply Keeps.refl
    | (with_reducible apply Keeps.step (k := keeps_stepDomain _ _ _); case w => decide)
    | (with_reducible apply Keeps.step (k := keeps_setDomain _ _ _); case w => decide)
    | split

theorem keeps_placeEntry (x1 : Nat) (x2 : Bytes) (s : State) : Keeps [.time] s (placeEntry x1 x2 s) := by
  unfold placeEntry
  try dsimp only
  repeat' first
    | with_reducible apply Keeps.refl
    | (with_reducible apply Keeps.step (k := keeps_setEntry _ _ _ _); case w => decide)

theorem keeps_applyMcast (x1 : Bytes) (s : State) : Keeps [.flt, .sw] s (applyMcast x1 s).2 := by
  unfold applyMcast
  try dsimp only
  repeat' first
    | with_reducible apply Keeps.refl
    | (with_reducible apply Keeps.step (k := keeps_kiln _ _ _); case w => decide)
    | (with_reducible apply keeps_modSw; case w => decide)

theorem keeps_applyTagged (x1 : Tagged) (s : State) : Keeps [.time, .flt, .host, .sw] s (applyTagged x1 s) := by
  unfold applyTagged
  try dsimp only
  repeat' first
    | with_reducible apply Keeps.refl
    | (with_reducible apply Keeps.step (k := keeps_endRunning _ _ _ _ _); case w => decide)
    | (with_reducible apply Keeps.step (k := keeps_applyDomain _ _); case w => decide)
    | (with_reducible apply Keeps.step (k := keeps_applyAdjust _ _); case w => decide)
    | (with_reducible apply Keeps.step (k := keeps_placeEntry _ _ _); case w => decide)
    | (with_reducible apply Keeps.step (k := keeps_applyMcast _ _); case w => decide)
    | split

theorem keeps_tagWrite (x1 : Tagged) (s : State) : Keeps [.time] s (tagWrite x1 s) := by
  unfold tagWrite
  try dsimp only
  repeat' first
    | with_reducible apply Keeps.refl
    | (with_reducible apply keeps_modTime; case w => decide)

theorem keeps_placeOwn (x1 : Nat) (x2 : Nat) (x3 : Nat) (x4 : Nat) (x5 : Nat) (x6 : Nat) (s : State) : Keeps [.time] s (placeOwn x1 x2 x3 x4 x5 x6 s) := by
  unfold placeOwn
  try dsimp only
  repeat' first
    | with_reducible assumption
    | with_reducible apply Keeps.refl
    | with_reducible intro _
    | with_reducible apply keeps_foldl
    | (with_reducible apply Keeps.step (k := keeps_tagWrite _ _); case w => decide)
    | split

theorem keeps_alignCopy (x1 : Nat) (x2 : Nat) (s : State) : Keeps [.free, .time, .flt] s (alignCopy x1 x2 s) := by
  unfold alignCopy
  try dsimp only
  repeat' first
    | with_reducible apply Keeps.refl
    | (with_reducible apply Keeps.step (k := keeps_kiln _ _ _); case w => decide)
    | (with_reducible apply Keeps.step (k := keeps_setCopy _ _ _ _); case w => decide)
    | (with_reducible apply Keeps.step (k := keeps_raiseFault _ _ _ _ _); case w => decide)
    | (with_reducible apply keeps_takeFree; case w => decide)
    | (with_reducible apply keeps_modTime; case w => decide)
    | split

theorem keeps_strobeReplica (x1 : Nat) (x2 : Nat) (s : State) : Keeps [.free, .time, .flt] s (strobeReplica x1 x2 s) := by
  unfold strobeReplica
  try dsimp only
  repeat' first
    | with_reducible assumption
    | with_reducible apply Keeps.refl
    | with_reducible intro _
    | with_reducible apply keeps_foldl
    | (with_reducible apply Keeps.step (k := keeps_alignCopy _ _ _); case w => decide)
    | (with_reducible apply keeps_modTime; case w => decide)
    | split

theorem keeps_strobeSwitch (s : State) : Keeps [.time, .flt] s (strobeSwitch s) := by
  unfold strobeSwitch
  try dsimp only
  repeat' first
    | with_reducible apply Keeps.refl
    | (with_reducible apply keeps_modTime; case w => decide)
    | (with_reducible apply Keeps.step (k := keeps_kiln _ _ _); case w => decide)
    | split

theorem keeps_execClockSourceSwitch (x1 : Quad) (s : State) : KeepsOut [.time, .flt] s (execClockSourceSwitch x1 s) := by
  unfold execClockSourceSwitch
  try dsimp only
  repeat' first
    | with_reducible assumption
    | with_reducible apply Keeps.refl
    | with_reducible apply keepsOut_next
    | with_reducible intro _
    | with_reducible apply keeps_foldl
    | (with_reducible apply Keeps.step (k := keeps_kiln _ _ _); case w => decide)
    | (with_reducible apply keeps_modTime; case w => decide)
    | (with_reducible apply Keeps.step (k := keeps_raiseFault _ _ _ _ _); case w => decide)
    | split

theorem keeps_execRateAllowanceRefill (x1 : Quad) (s : State) : KeepsOut [.limits] s (execRateAllowanceRefill x1 s) := by
  unfold execRateAllowanceRefill
  try dsimp only
  repeat' first
    | with_reducible apply Keeps.refl
    | with_reducible apply keepsOut_next
    | (with_reducible apply Keeps.step (k := keeps_refillLimits _ _); case w => decide)

theorem keeps_tickDie (x1 : Nat) (s : State) : Keeps [.now, .time, .tel] s (tickDie x1 s) := by
  unfold tickDie
  try dsimp only
  repeat' first
    | with_reducible assumption
    | with_reducible apply Keeps.refl
    | with_reducible intro _
    | with_reducible apply keeps_foldl
    | (with_reducible apply Keeps.step (k := keeps_markLate _ _ _); case w => decide)
    | (with_reducible apply Keeps.step (k := keeps_setCopy _ _ _ _); case w => decide)
    | (with_reducible apply keeps_modTel; case w => decide)
    | (with_reducible apply keeps_modTime; case w => decide)
    | (with_reducible apply keeps_elapse; case w => decide)
    | split

theorem keeps_execTimeAdvance (x1 : Quad) (s : State) : KeepsOut [.now, .time, .tel] s (execTimeAdvance x1 s) := by
  unfold execTimeAdvance
  try dsimp only
  repeat' first
    | with_reducible apply Keeps.refl
    | with_reducible apply keepsOut_next
    | (with_reducible apply Keeps.step (k := keeps_tickDie _ _); case w => decide)
    | split

theorem keeps_execAlignmentStrobe (x1 : Fin 8) (s : State) : KeepsOut [.free, .time, .flt, .host, .sw] s (execAlignmentStrobe x1 s) := by
  unfold execAlignmentStrobe
  try dsimp only
  repeat' first
    | with_reducible assumption
    | with_reducible apply Keeps.refl
    | with_reducible apply keepsOut_next
    | with_reducible intro _
    | with_reducible apply keeps_foldl
    | (with_reducible apply keeps_modTime; case w => decide)
    | (with_reducible apply Keeps.step (k := keeps_strobeReplica _ _ _); case w => decide)
    | (with_reducible apply Keeps.step (k := keeps_applyTagged _ _); case w => decide)
    | (with_reducible apply Keeps.step (k := keeps_strobeSwitch _); case w => decide)
    | split

theorem keeps_execStrobeMissing (x1 : Quad) (s : State) : KeepsOut [.time, .flt] s (execStrobeMissing x1 s) := by
  unfold execStrobeMissing
  try dsimp only
  repeat' first
    | with_reducible assumption
    | with_reducible apply Keeps.refl
    | with_reducible apply keepsOut_next
    | with_reducible intro _
    | (with_reducible apply keeps_detect; case w => decide)
    | (with_reducible apply keeps_modTime; case w => decide)
    | split

theorem keeps_execRefclkWindow (x1 : Domain') (x2 : Bool) (x3 : Int) (s : State) : KeepsOut [.time, .flt] s (execRefclkWindow x1 x2 x3 s) := by
  unfold execRefclkWindow
  try dsimp only
  repeat' first
    | with_reducible assumption
    | with_reducible apply Keeps.refl
    | with_reducible apply keepsOut_next
    | with_reducible intro _
    | (with_reducible apply Keeps.step (k := keeps_setDomain _ _ _); case w => decide)
    | (with_reducible apply Keeps.step (k := keeps_kiln _ _ _); case w => decide)
    | (with_reducible apply keeps_detect; case w => decide)
    | (with_reducible apply Keeps.step (k := keeps_kilnInj _ _ _ _); case w => decide)
    | split

theorem keeps_execSlewEnd (x1 : Domain') (s : State) : KeepsOut [.now, .time] s (execSlewEnd x1 s) := by
  unfold execSlewEnd
  try dsimp only
  repeat' first
    | with_reducible apply Keeps.refl
    | with_reducible apply keepsOut_next
    | (with_reducible apply Keeps.step (k := keeps_setDomain _ _ _); case w => decide)
    | (with_reducible apply keeps_reach; case w => decide)
    | split

theorem keeps_execPllLockReport (x1 : Quad) (s : State) : KeepsOut [.time] s (execPllLockReport x1 s) := by
  unfold execPllLockReport
  try dsimp only
  repeat' first
    | with_reducible apply Keeps.refl
    | with_reducible apply keepsOut_next
    | (with_reducible apply keeps_modTime; case w => decide)
    | split

theorem keeps_modeChanged (x1 : Nat) (s : State) : Keeps [.flt] s (modeChanged x1 s) := by
  unfold modeChanged
  try dsimp only
  repeat' first
    | with_reducible apply Keeps.refl
    | (with_reducible apply Keeps.step (k := keeps_kiln _ _ _); case w => decide)

theorem keeps_execProfileSwitchDone (s : State) : KeepsOut [.time, .flt, .host] s (execProfileSwitchDone s) := by
  unfold execProfileSwitchDone
  try dsimp only
  repeat' first
    | with_reducible apply Keeps.refl
    | with_reducible apply keepsOut_next
    | (with_reducible apply Keeps.step (k := keeps_modeChanged _ _); case w => decide)
    | (with_reducible apply Keeps.step (k := keeps_kiln _ _ _); case w => decide)
    | (with_reducible apply keeps_modTime; case w => decide)
    | (with_reducible apply Keeps.step (k := keeps_endRunning _ _ _ _ _); case w => decide)
    | split

theorem keeps_execProfileSwitchTimeout (s : State) : KeepsOut [.now, .time, .flt, .host] s (execProfileSwitchTimeout s) := by
  unfold execProfileSwitchTimeout
  try dsimp only
  repeat' first
    | with_reducible apply Keeps.refl
    | with_reducible apply keepsOut_next
    | (with_reducible apply keeps_reach; case w => decide)
    | (with_reducible apply keeps_modTime; case w => decide)
    | (with_reducible apply Keeps.step (k := keeps_modeChanged _ _); case w => decide)
    | (with_reducible apply Keeps.step (k := keeps_endRunning _ _ _ _ _); case w => decide)
    | split

theorem keeps_execProfileRelockTimeout (s : State) : KeepsOut [.now, .time, .flt] s (execProfileRelockTimeout s) := by
  unfold execProfileRelockTimeout
  try dsimp only
  repeat' first
    | with_reducible assumption
    | with_reducible apply Keeps.refl
    | with_reducible apply keepsOut_next
    | with_reducible intro _
    | with_reducible apply keeps_foldl
    | (with_reducible apply keeps_reach; case w => decide)
    | (with_reducible apply keeps_modTime; case w => decide)
    | (with_reducible apply Keeps.step (k := keeps_raiseFault _ _ _ _ _); case w => decide)
    | split

theorem keeps_execPllRelockRetry (s : State) : KeepsOut [.now, .time] s (execPllRelockRetry s) := by
  unfold execPllRelockRetry
  try dsimp only
  repeat' first
    | with_reducible apply Keeps.refl
    | with_reducible apply keepsOut_next
    | (with_reducible apply keeps_reach; case w => decide)
    | (with_reducible apply keeps_modTime; case w => decide)
    | split

theorem keeps_setPin (x1 : Nat) (x2 : TimePin) (s : State) : Keeps [.time] s (setPin x1 x2 s) := by
  unfold setPin
  try dsimp only
  repeat' first
    | with_reducible apply Keeps.refl
    | (with_reducible apply keeps_modTime; case w => decide)

theorem keeps_execPinEdgeCapture (x1 : Fin 4) (x2 : Bool) (x3 : Bool) (x4 : Int) (s : State) : KeepsOut [.time] s (execPinEdgeCapture x1 x2 x3 x4 s) := by
  unfold execPinEdgeCapture
  try dsimp only
  repeat' first
    | with_reducible apply Keeps.refl
    | with_reducible apply keepsOut_next
    | (with_reducible apply Keeps.step (k := keeps_setPin _ _ _); case w => decide)
    | split

theorem keeps_execPinPulse (x1 : Domain') (x2 : Fin 512) (s : State) : KeepsOut [.out, .time, .flt] s (execPinPulse x1 x2 s) := by
  unfold execPinPulse
  try dsimp only
  repeat' first
    | with_reducible apply Keeps.refl
    | with_reducible apply keepsOut_next
    | (with_reducible apply Keeps.step (k := keeps_fireEntry _ _ _ _); case w => decide)
    | (with_reducible apply keeps_emit; case w => decide)
    | (with_reducible apply Keeps.step (k := keeps_setPin _ _ _); case w => decide)
    | split

theorem keeps_execPinPulseEnd (x1 : Fin 10) (s : State) : KeepsOut [.now, .out, .time] s (execPinPulseEnd x1 s) := by
  unfold execPinPulseEnd
  try dsimp only
  repeat' first
    | with_reducible apply Keeps.refl
    | with_reducible apply keepsOut_next
    | (with_reducible apply keeps_emit; case w => decide)
    | (with_reducible apply Keeps.step (k := keeps_setPin _ _ _); case w => decide)
    | (with_reducible apply keeps_reach; case w => decide)
    | split

theorem keeps_storeHitEntry (x1 : Nat) (x2 : Nat) (s : State) : Keeps [.time, .flt] s (storeHitEntry x1 x2 s) := by
  unfold storeHitEntry
  try dsimp only
  repeat' first
    | with_reducible assumption
    | with_reducible apply Keeps.refl
    | with_reducible intro _
    | (with_reducible apply keeps_detect; case w => decide)
    | (with_reducible apply Keeps.step (k := keeps_setEntry _ _ _ _); case w => decide)

theorem keeps_execTimeStore (x1 : Domain') (x2 : Fin 5) (x3 : Fin 512) (s : State) : KeepsOut [.time, .flt] s (execTimeStore x1 x2 x3 s) := by
  unfold execTimeStore
  try dsimp only
  repeat' first
    | with_reducible assumption
    | with_reducible apply Keeps.refl
    | with_reducible apply keepsOut_next
    | with_reducible intro _
    | (with_reducible apply Keeps.step (k := keeps_storeHitEntry _ _ _); case w => decide)
    | (with_reducible apply keeps_modTime; case w => decide)
    | (with_reducible apply keeps_detect; case w => decide)
    | (with_reducible apply Keeps.step (k := keeps_setCopy _ _ _ _); case w => decide)
    | split

theorem keeps_execTimeStoreReload (x1 : Domain') (x2 : Fin 512) (s : State) : KeepsOut [.time, .flt] s (execTimeStoreReload x1 x2 s) := by
  unfold execTimeStoreReload
  try dsimp only
  repeat' first
    | with_reducible apply Keeps.refl
    | with_reducible apply keepsOut_next
    | (with_reducible apply Keeps.step (k := keeps_setEntry _ _ _ _); case w => decide)
    | (with_reducible apply Keeps.step (k := keeps_kiln _ _ _); case w => decide)
    | split

theorem keeps_execTimeDomainWrite (x1 : Cmd) (s : State) : KeepsOut [.time, .flt, .tel, .host] s (execTimeDomainWrite x1 s) := by
  unfold execTimeDomainWrite
  try dsimp only
  repeat' first
    | with_reducible apply Keeps.refl
    | with_reducible apply keepsOut_next
    | exact trivial
    | with_reducible apply keepsRes_later
    | with_reducible intro _
    | (with_reducible apply keeps_icoux; case w => decide)
    | (with_reducible apply Keeps.step (k := keeps_tagWrite _ _); case w => decide)
    | split

theorem keeps_execTimeDomainRead (x1 : Cmd) (s : State) : KeepsOut [.flt, .tel, .host] s (execTimeDomainRead x1 s) := by
  unfold execTimeDomainRead
  try dsimp only
  repeat' first
    | with_reducible apply Keeps.refl
    | with_reducible apply keepsOut_next
    | with_reducible apply keepsRes_okReply
    | with_reducible intro _
    | (with_reducible apply keeps_icoux; case w => decide)

theorem keeps_execTimeAdjust (x1 : Cmd) (s : State) : KeepsOut [.time, .flt, .tel, .host] s (execTimeAdjust x1 s) := by
  unfold execTimeAdjust
  try dsimp only
  repeat' first
    | with_reducible apply Keeps.refl
    | with_reducible apply keepsOut_next
    | exact trivial
    | with_reducible apply keepsRes_later
    | with_reducible intro _
    | (with_reducible apply keeps_icoux; case w => decide)
    | (with_reducible apply Keeps.step (k := keeps_tagWrite _ _); case w => decide)
    | split

theorem keeps_execTimeGet (x1 : Cmd) (s : State) : KeepsOut [.flt, .tel, .host] s (execTimeGet x1 s) := by
  unfold execTimeGet
  try dsimp only
  repeat' first
    | with_reducible apply Keeps.refl
    | with_reducible apply keepsOut_next
    | with_reducible apply keepsRes_done
    | with_reducible intro _
    | (with_reducible apply keeps_icoux; case w => decide)

theorem keeps_execPortTimeWrite (x1 : Cmd) (s : State) : KeepsOut [.time, .flt, .tel, .host] s (execPortTimeWrite x1 s) := by
  unfold execPortTimeWrite
  try dsimp only
  repeat' first
    | with_reducible apply Keeps.refl
    | with_reducible apply keepsOut_next
    | with_reducible apply keepsRes_okWrite
    | with_reducible intro _
    | (with_reducible apply keeps_icoux; case w => decide)
    | (with_reducible apply keeps_modTime; case w => decide)

theorem keeps_execPortTimeRead (x1 : Cmd) (s : State) : KeepsOut [.flt, .tel, .host] s (execPortTimeRead x1 s) := by
  unfold execPortTimeRead
  try dsimp only
  repeat' first
    | with_reducible apply Keeps.refl
    | with_reducible apply keepsOut_next
    | with_reducible apply keepsRes_okReply
    | with_reducible intro _
    | (with_reducible apply keeps_icoux; case w => decide)

theorem keeps_execTwostepRead (x1 : Cmd) (s : State) : KeepsOut [.time, .flt, .tel, .host] s (execTwostepRead x1 s) := by
  unfold execTwostepRead
  try dsimp only
  repeat' first
    | with_reducible apply Keeps.refl
    | with_reducible apply keepsOut_next
    | with_reducible apply keepsRes_done
    | with_reducible intro _
    | (with_reducible apply keeps_icoux; case w => decide)
    | (with_reducible apply keeps_modTime; case w => decide)

theorem keeps_execCaptureRead (x1 : Cmd) (s : State) : KeepsOut [.time, .flt, .tel, .host] s (execCaptureRead x1 s) := by
  unfold execCaptureRead
  try dsimp only
  repeat' first
    | with_reducible apply Keeps.refl
    | with_reducible apply keepsOut_next
    | with_reducible apply keepsRes_done
    | with_reducible intro _
    | (with_reducible apply keeps_icoux; case w => decide)
    | (with_reducible apply Keeps.step (k := keeps_setPin _ _ _); case w => decide)

theorem keeps_execTimePinWrite (x1 : Cmd) (s : State) : KeepsOut [.out, .time, .flt, .tel, .host] s (execTimePinWrite x1 s) := by
  unfold execTimePinWrite
  try dsimp only
  repeat' first
    | with_reducible apply Keeps.refl
    | with_reducible apply keepsOut_next
    | with_reducible apply keepsRes_okWrite
    | with_reducible intro _
    | (with_reducible apply keeps_icoux; case w => decide)
    | (with_reducible apply Keeps.step (k := keeps_setPin _ _ _); case w => decide)
    | (with_reducible apply keeps_emit; case w => decide)
    | split

theorem keeps_execTimePinRead (x1 : Cmd) (s : State) : KeepsOut [.flt, .tel, .host] s (execTimePinRead x1 s) := by
  unfold execTimePinRead
  try dsimp only
  repeat' first
    | with_reducible apply Keeps.refl
    | with_reducible apply keepsOut_next
    | with_reducible apply keepsRes_okReply
    | with_reducible intro _
    | (with_reducible apply keeps_icoux; case w => decide)

theorem keeps_execFiringEntryWrite (x1 : Cmd) (s : State) : KeepsOut [.time, .flt, .tel, .host] s (execFiringEntryWrite x1 s) := by
  unfold execFiringEntryWrite
  try dsimp only
  repeat' first
    | with_reducible apply Keeps.refl
    | with_reducible apply keepsOut_next
    | exact trivial
    | with_reducible apply keepsRes_later
    | with_reducible intro _
    | (with_reducible apply keeps_icoux; case w => decide)
    | (with_reducible apply Keeps.step (k := keeps_tagWrite _ _); case w => decide)
    | split

theorem keeps_execFiringEntryRead (x1 : Cmd) (s : State) : KeepsOut [.flt, .tel, .host] s (execFiringEntryRead x1 s) := by
  unfold execFiringEntryRead
  try dsimp only
  repeat' first
    | with_reducible apply Keeps.refl
    | with_reducible apply keepsOut_next
    | with_reducible apply keepsRes_okReply
    | with_reducible intro _
    | (with_reducible apply keeps_icoux; case w => decide)

theorem keeps_execFiringStatus (x1 : Cmd) (s : State) : KeepsOut [.flt, .tel, .host] s (execFiringStatus x1 s) := by
  unfold execFiringStatus
  try dsimp only
  repeat' first
    | with_reducible apply Keeps.refl
    | with_reducible apply keepsOut_next
    | with_reducible apply keepsRes_okReply
    | with_reducible intro _
    | (with_reducible apply keeps_icoux; case w => decide)

end Sys2Proof.Laws
end

