-- ==== Sys2Proof/Laws/KeepsBuffer.lean ====
section
/-!
SUPPORT. What the operations of Buffer keep.
-/

set_option linter.all false

namespace Sys2Proof.Laws

open Sys2Proof Sys2Proof.Machine

theorem keeps_modQuad (x1 : Nat) (x2 : BufQuad → BufQuad) (s : State) : Keeps [.buf] s (modQuad x1 x2 s) := by
  unfold modQuad
  try dsimp only
  repeat' first
    | with_reducible apply Keeps.refl
    | (with_reducible apply keeps_modBuf; case w => decide)

theorem keeps_modQueue (x1 : Nat) (x2 : BufQueue → BufQueue) (s : State) : Keeps [.buf] s (modQueue x1 x2 s) := by
  unfold modQueue
  try dsimp only
  repeat' first
    | with_reducible apply Keeps.refl
    | (with_reducible apply keeps_modBuf; case w => decide)

theorem keeps_modCopy (x1 : Nat) (x2 : Copy → Copy) (s : State) : Keeps [.buf] s (modCopy x1 x2 s) := by
  unfold modCopy
  try dsimp only
  repeat' first
    | with_reducible apply Keeps.refl
    | (with_reducible apply keeps_modBuf; case w => decide)

theorem keeps_useBeats (x1 : Nat) (x2 : Nat) (x3 : Nat) (s : State) : Keeps [.tel, .buf] s (useBeats x1 x2 x3 s) := by
  unfold useBeats
  try dsimp only
  repeat' first
    | with_reducible apply Keeps.refl
    | (with_reducible apply Keeps.step (k := keeps_count _ _ _ _); case w => decide)
    | (with_reducible apply Keeps.step (k := keeps_modQuad _ _ _); case w => decide)

theorem keeps_takeCell (x1 : Nat) (s : State) : KeepsOpt [.buf] s (takeCell x1 s) := by
  unfold takeCell
  try dsimp only
  repeat' first
    | with_reducible apply Keeps.refl
    | with_reducible apply keepsOpt_none
    | with_reducible apply keepsOpt_map
    | with_reducible intro _
    | (with_reducible apply Keeps.step (k := keeps_modQuad _ _ _); case w => decide)
    | split

theorem keeps_takeCells (q n : Nat) (s : State) : KeepsOpt [.buf] s (takeCells q n s) := by
  induction n generalizing s with
  | zero => intro a t e; simp only [takeCells, Option.some.injEq, Prod.mk.injEq] at e; rw [← e.2]; exact Keeps.refl _ _
  | succ n ih =>
    intro a t e
    simp only [takeCells] at e
    split at e
    · cases e
    · rename_i c s1 h
      simp only [Option.map_eq_some_iff, Prod.mk.injEq] at e
      obtain ⟨r, hr, _, rfl⟩ := e
      exact (keeps_takeCell _ _ _ _ h).trans (ih _ _ _ hr)

theorem keeps_notePeakFree (x1 : Nat) (s : State) : Keeps [.buf] s (notePeakFree x1 s) := by
  unfold notePeakFree
  try dsimp only
  repeat' first
    | with_reducible apply Keeps.refl
    | (with_reducible apply Keeps.step (k := keeps_modQuad _ _ _); case w => decide)

theorem keeps_releaseCell (x1 : Bool) (x2 : Nat) (s : State) (x4 : Nat) : Keeps [.flt, .tel, .buf] s (releaseCell x1 x2 s x4) := by
  unfold releaseCell
  try dsimp only
  repeat' first
    | with_reducible apply Keeps.refl
    | (with_reducible apply Keeps.step (k := keeps_modQuad _ _ _); case w => decide)
    | (with_reducible apply Keeps.step (k := keeps_count _ _ _ _); case w => decide)
    | (with_reducible apply Keeps.step (k := keeps_kiln _ _ _); case w => decide)
    | split

theorem keeps_takeSlots (q no n : Nat) (s : State) : Keeps [.buf] s (takeSlots q no n s).2 := by
  induction n generalizing s with
  | zero => exact Keeps.refl _ _
  | succ n ih =>
    simp only [takeSlots]
    exact Keeps.trans (((Keeps.refl _ s).step (keeps_modQuad _ _ _) (by decide)).step (keeps_modQueue _ _ _) (by decide)) (ih _)

theorem keeps_settleBlock (x1 : Nat) (x2 : Nat) (s : State) : Keeps [.flt, .buf] s (settleBlock x1 x2 s) := by
  unfold settleBlock
  try dsimp only
  repeat' first
    | with_reducible apply Keeps.refl
    | (with_reducible apply Keeps.step (k := keeps_kiln _ _ _); case w => decide)
    | (with_reducible apply Keeps.step (k := keeps_modQuad _ _ _); case w => decide)
    | split

theorem keeps_releaseSlot (x1 : Nat) (s : State) (x3 : Nat) : Keeps [.flt, .buf] s (releaseSlot x1 s x3) := by
  unfold releaseSlot
  try dsimp only
  repeat' first
    | with_reducible apply Keeps.refl
    | (with_reducible apply Keeps.step (k := keeps_settleBlock _ _ _); case w => decide)
    | (with_reducible apply Keeps.step (k := keeps_modQuad _ _ _); case w => decide)

theorem keeps_endSpill (x1 : Nat) (x2 : Nat) (s : State) : Keeps [.flt, .buf] s (endSpill x1 x2 s) := by
  unfold endSpill
  try dsimp only
  repeat' first
    | with_reducible apply Keeps.refl
    | (with_reducible apply Keeps.step (k := keeps_modQueue _ _ _); case w => decide)
    | (with_reducible apply Keeps.step (k := keeps_settleBlock _ _ _); case w => decide)
    | (with_reducible apply Keeps.step (k := keeps_modQuad _ _ _); case w => decide)
    | split

theorem keeps_forget (x1 : Nat) (s : State) : Keeps [.fr] s (forget x1 s) := by
  unfold forget
  try dsimp only
  repeat' first
    | with_reducible apply Keeps.refl
    | (with_reducible apply keeps_modFr; case w => decide)
    | split

theorem keeps_settleFrame (x1 : Nat) (s : State) : Keeps [.fr] s (settleFrame x1 s) := by
  unfold settleFrame
  try dsimp only
  repeat' first
    | with_reducible apply Keeps.refl
    | (with_reducible apply Keeps.step (k := keeps_forget _ _); case w => decide)
    | split

theorem keeps_modPortSched (x1 : Nat) (x2 : PortSched → PortSched) (s : State) : Keeps [.sch] s (modPortSched x1 x2 s) := by
  unfold modPortSched
  try dsimp only
  repeat' first
    | with_reducible apply Keeps.refl
    | (with_reducible apply keeps_modSch; case w => decide)

theorem keeps_noteEmpty (x1 : Nat) (x2 : Nat) (x3 : Option Nat) (s : State) : Keeps [.sch] s (noteEmpty x1 x2 x3 s) := by
  unfold noteEmpty
  try dsimp only
  repeat' first
    | with_reducible apply Keeps.refl
    | (with_reducible apply Keeps.step (k := keeps_modPortSched _ _ _); case w => decide)
    | split

theorem keeps_unlinkCopy (x1 : Nat) (s : State) : Keeps [.buf, .sch] s (unlinkCopy x1 s) := by
  unfold unlinkCopy
  try dsimp only
  repeat' first
    | with_reducible apply Keeps.refl
    | (with_reducible apply Keeps.step (k := keeps_noteEmpty _ _ _ _); case w => decide)
    | (with_reducible apply Keeps.step (k := keeps_modQueue _ _ _); case w => decide)

theorem keeps_releaseCopy (x1 : Nat) (s : State) : Keeps [.flt, .tel, .fr, .buf, .sch] s (releaseCopy x1 s) := by
  unfold releaseCopy
  try dsimp only
  repeat' first
    | with_reducible assumption
    | with_reducible apply Keeps.refl
    | with_reducible intro _
    | with_reducible apply keeps_foldl
    | (with_reducible apply Keeps.step (k := keeps_unlinkCopy _ _); case w => decide)
    | (with_reducible apply Keeps.step (k := keeps_releaseSlot _ _ _); case w => decide)
    | (with_reducible apply Keeps.step (k := keeps_modCopy _ _ _); case w => decide)
    | (with_reducible apply Keeps.step (k := keeps_releaseCell _ _ _ _); case w => decide)
    | (with_reducible apply keeps_modBuf; case w => decide)
    | (with_reducible apply Keeps.step (k := keeps_settleFrame _ _); case w => decide)
    | (with_reducible apply Keeps.step (k := keeps_endSpill _ _ _); case w => decide)
    | split

theorem keeps_dropCopyIn (x1 : Nat) (x2 : Nat) (x3 : Option Nat) (x4 : Frame) (x5 : CopyInfo) (s : State) : Keeps [.limits, .flt, .tel, .fr, .sw] s (dropCopyIn x1 x2 x3 x4 x5 s) := by
  unfold dropCopyIn
  try dsimp only
  repeat' first
    | with_reducible apply Keeps.refl
    | (with_reducible apply Keeps.step (k := keeps_count _ _ _ _); case w => decide)
    | (with_reducible apply Keeps.step (k := keeps_dropIn _ _ _ _ _); case w => decide)
    | split

theorem keeps_dropCopy (x1 : Nat) (x2 : Nat) (x3 : Nat) (s : State) : Keeps [.limits, .flt, .tel, .fr, .sw, .buf, .sch] s (dropCopy x1 x2 x3 s) := by
  unfold dropCopy
  try dsimp only
  repeat' first
    | with_reducible apply Keeps.refl
    | (with_reducible apply Keeps.step (k := keeps_releaseCopy _ _); case w => decide)
    | (with_reducible apply Keeps.step (k := keeps_dropCopyIn _ _ _ _ _ _); case w => decide)

theorem keeps_refuseCopy (x1 : Nat) (x2 : Copy) (s : State) : Keeps [.limits, .flt, .tel, .fr, .sw] s (refuseCopy x1 x2 s) := by
  unfold refuseCopy
  try dsimp only
  repeat' first
    | with_reducible apply Keeps.refl
    | (with_reducible apply Keeps.step (k := keeps_count _ _ _ _); case w => decide)
    | (with_reducible apply Keeps.step (k := keeps_kilnOnce _ _ _ _); case w => decide)
    | (with_reducible apply Keeps.step (k := keeps_dropCopyIn _ _ _ _ _ _); case w => decide)
    | split

theorem keeps_storeCopy (x1 : Copy) (x2 : List Nat) (s : State) : Keeps [.tel, .buf] s (storeCopy x1 x2 s) := by
  unfold storeCopy
  try dsimp only
  repeat' first
    | with_reducible apply Keeps.refl
    | (with_reducible apply Keeps.step (k := keeps_takeSlots _ _ _ _); case w => decide)
    | (with_reducible apply keeps_modBuf; case w => decide)
    | (with_reducible apply Keeps.step (k := keeps_modQueue _ _ _); case w => decide)
    | (with_reducible apply Keeps.step (k := keeps_count _ _ _ _); case w => decide)
    | split

theorem keeps_copyCells (x : Copy) (chain : Option (List Nat)) (n : Nat) (e : Bool) (s : State) : KeepsOpt [.tel, .buf] s (copyCells x chain n e s) := by
  unfold copyCells
  split
  · exact keepsOpt_some ((Keeps.refl _ _).step (keeps_modQuad _ _ _) (by decide))
  · refine keepsOpt_then ((keeps_takeCells _ _ _).mono (by decide)) fun b t h => ?_
    dsimp only
    split
    · exact h.step (keeps_count _ _ _ _) (by decide)
    · exact h

theorem keeps_admitCopy (x1 : Copy) (x2 : Option (List Nat)) (s : State) : Keeps [.limits, .flt, .tel, .fr, .sw, .buf, .pow] s (admitCopy x1 x2 s).2 := by
  unfold admitCopy
  try dsimp only
  repeat' first
    | with_reducible apply Keeps.refl
    | (with_reducible apply Keeps.step (k := keeps_refuseCopy _ _ _); case w => decide)
    | (with_reducible apply keeps_opt_step (k := keeps_copyCells _ _ _ _ _); (case e => with_reducible assumption); case w => decide)
    | (with_reducible apply Keeps.step (k := keeps_notePeakFree _ _); case w => decide)
    | (with_reducible apply Keeps.step (k := keeps_storeCopy _ _ _); case w => decide)
    | (with_reducible apply Keeps.step (k := keeps_spendQueue _ _ _ _ _); case w => decide)
    | (with_reducible apply Keeps.step (k := keeps_count _ _ _ _); case w => decide)
    | split

theorem keeps_trimCopy (x1 : Nat) (s : State) : Keeps [.flt, .tel, .buf, .pow] s (trimCopy x1 s) := by
  unfold trimCopy
  try dsimp only
  repeat' first
    | with_reducible assumption
    | with_reducible apply Keeps.refl
    | with_reducible intro _
    | with_reducible apply keeps_foldl
    | (with_reducible apply Keeps.step (k := keeps_count _ _ _ _); case w => decide)
    | (with_reducible apply Keeps.step (k := keeps_releaseCell _ _ _ _); case w => decide)
    | (with_reducible apply Keeps.step (k := keeps_modCopy _ _ _); case w => decide)
    | (with_reducible apply Keeps.step (k := keeps_releaseSlot _ _ _); case w => decide)
    | (with_reducible apply Keeps.step (k := keeps_spendQueue _ _ _ _ _); case w => decide)
    | (with_reducible apply keeps_modBuf; case w => decide)
    | split

end Sys2Proof.Laws
end

