-- ==== Sys2Proof/Laws/KeepsSchedOps.lean ====
section
/-!
SUPPORT. What the operations of SchedOps keep.
-/

set_option linter.all false

namespace Sys2Proof.Laws

open Sys2Proof Sys2Proof.Machine

theorem keeps_modPolicer (x1 : Nat) (x2 : Policer → Policer) (s : State) : Keeps [.sch] s (modPolicer x1 x2 s) := by
  unfold modPolicer
  try dsimp only
  repeat' first
    | with_reducible apply Keeps.refl
    | (with_reducible apply keeps_modSch; case w => decide)

theorem keeps_policeFrame (x1 : Nat) (s : State) : Keeps [.tel, .fr, .sch] s (policeFrame x1 s).2.2 := by
  unfold policeFrame
  try dsimp only
  repeat' first
    | with_reducible apply Keeps.refl
    | (with_reducible apply Keeps.step (k := keeps_count _ _ _ _); case w => decide)
    | (with_reducible apply Keeps.step (k := keeps_modPolicer _ _ _); case w => decide)
    | (with_reducible apply Keeps.step (k := keeps_modFrame _ _ _); case w => decide)
    | split

theorem keeps_returnPoliced (x1 : Nat) (s : State) : Keeps [.fr, .sch] s (returnPoliced x1 s) := by
  unfold returnPoliced
  try dsimp only
  repeat' first
    | with_reducible apply Keeps.refl
    | (with_reducible apply Keeps.step (k := keeps_modPolicer _ _ _); case w => decide)
    | (with_reducible apply Keeps.step (k := keeps_modFrame _ _ _); case w => decide)
    | split

theorem keeps_chargeBuckets (x1 : Nat) (x2 : Nat) (x3 : Nat) (x4 : Nat) (x5 : Nat) (s : State) : Keeps [.sch] s (chargeBuckets x1 x2 x3 x4 x5 s) := by
  unfold chargeBuckets
  try dsimp only
  repeat' first
    | with_reducible assumption
    | with_reducible apply Keeps.refl
    | with_reducible intro _
    | with_reducible apply keeps_foldl
    | (with_reducible apply Keeps.step (k := keeps_modPortSched _ _ _); case w => decide)
    | split

theorem keeps_correctCharges (x1 : Copy) (x2 : Nat) (s : State) : Keeps [.tel, .sch] s (correctCharges x1 x2 s) := by
  unfold correctCharges
  try dsimp only
  repeat' first
    | with_reducible apply Keeps.refl
    | (with_reducible apply Keeps.step (k := keeps_chargeBuckets _ _ _ _ _ _); case w => decide)
    | (with_reducible apply Keeps.step (k := keeps_count _ _ _ _); case w => decide)
    | (with_reducible apply Keeps.step (k := keeps_modPortSched _ _ _); case w => decide)
    | split

end Sys2Proof.Laws
end

