-- ==== Sys2Proof/Laws/KeepsMesh.lean ====
section
/-!
SUPPORT. What the operations of Mesh keep.
-/

set_option linter.all false

namespace Sys2Proof.Laws

open Sys2Proof Sys2Proof.Machine

theorem keeps_setPath (x1 : Nat) (x2 : Nat) (x3 : Nat) (x4 : Option Nat) (s : State) : Keeps [.flt, .tel, .sw] s (setPath x1 x2 x3 x4 s) := by
  unfold setPath
  try dsimp only
  repeat' first
    | with_reducible apply Keeps.refl
    | (with_reducible apply Keeps.step (k := keeps_count _ _ _ _); case w => decide)
    | (with_reducible apply keeps_modSw; case w => decide)
    | (with_reducible apply Keeps.step (k := keeps_kilnOnce _ _ _ _); case w => decide)
    | split

theorem keeps_dropTransfer (x1 : Nat) (x2 : Nat) (x3 : Transfer) (s : State) : Keeps [.limits, .flt, .tel, .fr, .sw] s (dropTransfer x1 x2 x3 s) := by
  unfold dropTransfer
  try dsimp only
  repeat' first
    | with_reducible apply Keeps.refl
    | (with_reducible apply Keeps.step (k := keeps_settleFrame _ _); case w => decide)
    | (with_reducible apply Keeps.step (k := keeps_dropCopyIn _ _ _ _ _ _); case w => decide)
    | (with_reducible apply keeps_modSw; case w => decide)

theorem keeps_addTransfer (x1 : Transfer) (s : State) : Keeps [.sw] s (addTransfer x1 s) := by
  unfold addTransfer
  try dsimp only
  repeat' first
    | with_reducible apply Keeps.refl
    | (with_reducible apply keeps_modSw; case w => decide)

theorem keeps_meshOverrun (x1 : Transfer) (x2 : Nat) (s : State) : Keeps [.limits, .flt, .tel, .fr, .sw] s (meshOverrun x1 x2 s) := by
  unfold meshOverrun
  try dsimp only
  repeat' first
    | with_reducible apply Keeps.refl
    | (with_reducible apply Keeps.step (k := keeps_kilnOnce _ _ _ _); case w => decide)
    | (with_reducible apply Keeps.step (k := keeps_dropCopyIn _ _ _ _ _ _); case w => decide)

theorem keeps_sendTransfer (x1 : Transfer) (x2 : Bool) (s : State) : Keeps [.limits, .flt, .tel, .fr, .sw] s (sendTransfer x1 x2 s) := by
  unfold sendTransfer
  try dsimp only
  repeat' first
    | with_reducible apply Keeps.refl
    | (with_reducible apply Keeps.step (k := keeps_addTransfer _ _); case w => decide)
    | (with_reducible apply Keeps.step (k := keeps_meshOverrun _ _ _); case w => decide)
    | (with_reducible apply Keeps.step (k := keeps_setPath _ _ _ _ _); case w => decide)
    | (with_reducible apply Keeps.step (k := keeps_count _ _ _ _); case w => decide)
    | split

theorem keeps_formTransfer (x1 : Transfer) (x2 : Bool) (x3 : Nat) (s : State) : Keeps [.limits, .flt, .tel, .fr, .sw] s (formTransfer x1 x2 x3 s) := by
  unfold formTransfer
  try dsimp only
  repeat' first
    | with_reducible assumption
    | with_reducible apply Keeps.refl
    | with_reducible intro _
    | with_reducible apply keeps_foldl
    | (with_reducible apply Keeps.step (k := keeps_sendTransfer _ _ _); case w => decide)
    | (with_reducible apply Keeps.step (k := keeps_count _ _ _ _); case w => decide)
    | (with_reducible apply Keeps.step (k := keeps_dropIn _ _ _ _ _); case w => decide)
    | split

theorem keeps_makeMirror (x1 : Nat) (x2 : Nat) (x3 : Bytes) (s : State) : Keeps [.limits, .flt, .tel, .fr, .sw] s (makeMirror x1 x2 x3 s) := by
  unfold makeMirror
  try dsimp only
  repeat' first
    | with_reducible apply Keeps.refl
    | (with_reducible apply Keeps.step (k := keeps_deliver _ _); case w => decide)
    | (with_reducible apply Keeps.step (k := keeps_dropIn _ _ _ _ _); case w => decide)
    | (with_reducible apply Keeps.step (k := keeps_newFrame _ _); case w => decide)
    | (with_reducible apply Keeps.step (k := keeps_formTransfer _ _ _ _); case w => decide)
    | split

theorem keeps_mirrorFrame (x1 : Nat) (x2 : Nat) (s : State) : Keeps [.limits, .flt, .tel, .fr, .sw] s (mirrorFrame x1 x2 s) := by
  unfold mirrorFrame
  try dsimp only
  repeat' first
    | with_reducible apply Keeps.refl
    | (with_reducible apply Keeps.step (k := keeps_count _ _ _ _); case w => decide)
    | (with_reducible apply keeps_modSw; case w => decide)
    | (with_reducible apply Keeps.step (k := keeps_dropIn _ _ _ _ _); case w => decide)
    | (with_reducible apply Keeps.step (k := keeps_makeMirror _ _ _ _); case w => decide)
    | split

theorem keeps_endMirrors (x1 : Nat) (s : State) : Keeps [.limits, .flt, .tel, .fr, .sw] s (endMirrors x1 s) := by
  unfold endMirrors
  try dsimp only
  repeat' first
    | with_reducible assumption
    | with_reducible apply Keeps.refl
    | with_reducible intro _
    | with_reducible apply keeps_foldl
    | (with_reducible apply Keeps.step (k := keeps_dropIn _ _ _ _ _); case w => decide)
    | (with_reducible apply Keeps.step (k := keeps_makeMirror _ _ _ _); case w => decide)
    | (with_reducible apply Keeps.step (k := keeps_count _ _ _ _); case w => decide)
    | (with_reducible apply keeps_modSw; case w => decide)
    | split

end Sys2Proof.Laws
end

