-- ==== Sys2Proof/Laws/KeepsFlush.lean ====
section
/-!
SUPPORT. What the operations of Flush keep.
-/

set_option linter.all false

namespace Sys2Proof.Laws

open Sys2Proof Sys2Proof.Machine

theorem keeps_clearTx (x1 : Nat) (x2 : Nat) (s : State) : Keeps [.sch] s (clearTx x1 x2 s) := by
  unfold clearTx
  try dsimp only
  repeat' first
    | with_reducible apply Keeps.refl
    | (with_reducible apply Keeps.step (k := keeps_modPortSched _ _ _); case w => decide)

theorem keeps_histCount (x1 : Nat) (x2 : Int) (s : State) : Keeps [.tel] s (histCount x1 x2 s) := by
  unfold histCount
  try dsimp only
  repeat' first
    | with_reducible apply Keeps.refl
    | (with_reducible apply keeps_modTel; case w => decide)

theorem keeps_countSent (x1 : Copy) (x2 : Nat) (s : State) : Keeps [.tel, .pow] s (countSent x1 x2 s) := by
  unfold countSent
  try dsimp only
  repeat' first
    | with_reducible apply Keeps.refl
    | (with_reducible apply Keeps.step (k := keeps_spendQueue _ _ _ _ _); case w => decide)
    | (with_reducible apply Keeps.step (k := keeps_count _ _ _ _); case w => decide)
    | split

theorem keeps_stompCopy (x1 : Nat) (x2 : Nat) (x3 : Nat) (x4 : Nat) (s : State) : Keeps [.out, .limits, .flt, .tel, .fr, .sw, .buf, .sch, .pow] s (stompCopy x1 x2 x3 x4 s) := by
  unfold stompCopy
  try dsimp only
  repeat' first
    | with_reducible apply Keeps.refl
    | (with_reducible apply keeps_emit; case w => decide)
    | (with_reducible apply Keeps.step (k := keeps_countSent _ _ _); case w => decide)
    | (with_reducible apply Keeps.step (k := keeps_count _ _ _ _); case w => decide)
    | (with_reducible apply Keeps.step (k := keeps_kilnOnce _ _ _ _); case w => decide)
    | (with_reducible apply Keeps.step (k := keeps_histCount _ _ _); case w => decide)
    | (with_reducible apply Keeps.step (k := keeps_dropCopyIn _ _ _ _ _ _); case w => decide)
    | (with_reducible apply Keeps.step (k := keeps_clearTx _ _ _); case w => decide)
    | (with_reducible apply Keeps.step (k := keeps_releaseCopy _ _); case w => decide)
    | (with_reducible apply Keeps.step (k := keeps_correctCharges _ _ _); case w => decide)
    | split

theorem keeps_abortTransmit (x1 : Nat) (s : State) : Keeps [.limits, .flt, .tel, .fr, .sw, .buf, .sch] s (abortTransmit x1 s) := by
  unfold abortTransmit
  try dsimp only
  repeat' first
    | with_reducible apply Keeps.refl
    | (with_reducible apply Keeps.step (k := keeps_clearTx _ _ _); case w => decide)
    | (with_reducible apply Keeps.step (k := keeps_dropCopy _ _ _ _); case w => decide)
    | (with_reducible apply Keeps.step (k := keeps_count _ _ _ _); case w => decide)
    | split

theorem keeps_flushQueue (x1 : Nat) (x2 : Nat) (s : State) (x4 : Nat) : Keeps [.limits, .flt, .tel, .fr, .sw, .buf, .sch] s (flushQueue x1 x2 s x4) := by
  unfold flushQueue
  try dsimp only
  repeat' first
    | with_reducible assumption
    | with_reducible apply Keeps.refl
    | with_reducible intro _
    | with_reducible apply keeps_foldl
    | (with_reducible apply Keeps.step (k := keeps_dropCopy _ _ _ _); case w => decide)

theorem keeps_flushPort (x1 : Nat) (s : State) : Keeps [.limits, .flt, .tel, .fr, .sw, .buf, .sch] s (flushPort x1 s) := by
  unfold flushPort
  try dsimp only
  repeat' first
    | with_reducible assumption
    | with_reducible apply Keeps.refl
    | with_reducible intro _
    | with_reducible apply keeps_foldl
    | (with_reducible apply Keeps.step (k := keeps_kiln _ _ _); case w => decide)
    | (with_reducible apply Keeps.step (k := keeps_count _ _ _ _); case w => decide)
    | (with_reducible apply Keeps.step (k := keeps_flushQueue _ _ _ _); case w => decide)

theorem keeps_endCrossings (x1 : Nat) (s : State) : Keeps [.tel, .sw] s (endCrossings x1 s) := by
  unfold endCrossings
  try dsimp only
  repeat' first
    | with_reducible assumption
    | with_reducible apply Keeps.refl
    | with_reducible intro _
    | with_reducible apply keeps_foldl
    | (with_reducible apply Keeps.step (k := keeps_count _ _ _ _); case w => decide)
    | (with_reducible apply keeps_modSw; case w => decide)

theorem keeps_endTransfers (x1 : Nat) (s : State) : Keeps [.limits, .flt, .tel, .fr, .sw] s (endTransfers x1 s) := by
  unfold endTransfers
  try dsimp only
  repeat' first
    | with_reducible assumption
    | with_reducible apply Keeps.refl
    | with_reducible intro _
    | with_reducible apply keeps_foldl
    | (with_reducible apply keeps_modSw; case w => decide)
    | (with_reducible apply Keeps.step (k := keeps_dropTransfer _ _ _ _); case w => decide)
    | split

theorem keeps_badCopy (x1 : Nat) (s : State) (x3 : Nat) : Keeps [.free, .out, .limits, .flt, .tel, .fr, .sw, .buf, .sch, .pow] s (badCopy x1 s x3) := by
  unfold badCopy
  try dsimp only
  repeat' first
    | with_reducible apply Keeps.refl
    | (with_reducible apply keeps_takeFree; case w => decide)
    | (with_reducible apply Keeps.step (k := keeps_stompCopy _ _ _ _ _); case w => decide)
    | (with_reducible apply Keeps.step (k := keeps_dropCopy _ _ _ _); case w => decide)
    | split

theorem keeps_goodCopy (s : State) (x2 : Nat) : Keeps [.tel, .buf, .sch] s (goodCopy s x2) := by
  unfold goodCopy
  try dsimp only
  repeat' first
    | with_reducible apply Keeps.refl
    | (with_reducible apply Keeps.step (k := keeps_correctCharges _ _ _); case w => decide)
    | (with_reducible apply Keeps.step (k := keeps_modCopy _ _ _); case w => decide)
    | split

theorem keeps_frameFinished (x1 : Nat) (s : State) : Keeps [.free, .out, .limits, .flt, .tel, .fr, .sw, .buf, .sch, .pow] s (frameFinished x1 s) := by
  unfold frameFinished
  try dsimp only
  repeat' first
    | with_reducible assumption
    | with_reducible apply Keeps.refl
    | with_reducible intro _
    | with_reducible apply keeps_foldl
    | (with_reducible apply Keeps.step (k := keeps_endMirrors _ _); case w => decide)
    | (with_reducible apply Keeps.step (k := keeps_endTransfers _ _); case w => decide)
    | (with_reducible apply Keeps.step (k := keeps_returnPoliced _ _); case w => decide)
    | (with_reducible apply Keeps.step (k := keeps_endCrossings _ _); case w => decide)
    | (with_reducible apply Keeps.step (k := keeps_trimCopy _ _); case w => decide)
    | (with_reducible apply Keeps.step (k := keeps_settleFrame _ _); case w => decide)
    | (with_reducible apply Keeps.step (k := keeps_goodCopy _ _); case w => decide)
    | (with_reducible apply Keeps.step (k := keeps_badCopy _ _ _); case w => decide)
    | split

theorem keeps_setMatPipe (x1 : Nat) (x2 : MatPipe) (s : State) : Keeps [.mat] s (setMatPipe x1 x2 s) := by
  unfold setMatPipe
  try dsimp only
  repeat' first
    | with_reducible apply Keeps.refl
    | (with_reducible apply keeps_modMat; case w => decide)

theorem keeps_portRemoved (x1 : Nat) (s : State) : Keeps [.sw, .sch] s (portRemoved x1 s) := by
  unfold portRemoved
  try dsimp only
  repeat' first
    | with_reducible apply Keeps.refl
    | (with_reducible apply keeps_modSw; case w => decide)
    | (with_reducible apply keeps_modSch; case w => decide)

end Sys2Proof.Laws
end

