-- ==== Sys2Proof/Laws/KeepsRx.lean ====
section
/-!
SUPPORT. What the operations of Rx keep.
-/

set_option linter.all false

namespace Sys2Proof.Laws

open Sys2Proof Sys2Proof.Machine

theorem keeps_macDrop (x1 : Nat) (x2 : Frame) (s : State) : Keeps [.limits, .flt, .tel, .fr, .sw] s (macDrop x1 x2 s) := by
  unfold macDrop
  try dsimp only
  repeat' first
    | with_reducible apply Keeps.refl
    | (with_reducible apply Keeps.step (k := keeps_dropIn _ _ _ _ _); case w => decide)

theorem keeps_countRxDrop (x1 : Nat) (x2 : Nat) (s : State) : Keeps [.tel] s (countRxDrop x1 x2 s) := by
  unfold countRxDrop
  try dsimp only
  repeat' first
    | with_reducible apply Keeps.refl
    | (with_reducible apply Keeps.step (k := keeps_count _ _ _ _); case w => decide)
    | split

theorem keeps_countGood (x1 : Frame) (s : State) : Keeps [.tel] s (countGood x1 s) := by
  unfold countGood
  try dsimp only
  repeat' first
    | with_reducible apply Keeps.refl
    | (with_reducible apply Keeps.step (k := keeps_count _ _ _ _); case w => decide)

theorem keeps_setMacPipe (x1 : Nat) (x2 : MacPipe) (s : State) : Keeps [.mac] s (setMacPipe x1 x2 s) := by
  unfold setMacPipe
  try dsimp only
  repeat' first
    | with_reducible apply Keeps.refl
    | (with_reducible apply keeps_modMac; case w => decide)

theorem keeps_spend (x1 : Nat) (s : State) : Keeps [.fr] s (spend x1 s) := by
  unfold spend
  try dsimp only
  repeat' first
    | with_reducible apply Keeps.refl
    | (with_reducible apply Keeps.step (k := keeps_modFrame _ _ _); case w => decide)
    | (with_reducible apply Keeps.step (k := keeps_forget _ _); case w => decide)
    | split

theorem keeps_dropFrame (x1 : Nat) (x2 : Nat) (x3 : CopyInfo) (s : State) : Keeps [.limits, .flt, .tel, .fr, .sw] s (dropFrame x1 x2 x3 s) := by
  unfold dropFrame
  try dsimp only
  repeat' first
    | with_reducible apply Keeps.refl
    | (with_reducible apply Keeps.step (k := keeps_spend _ _); case w => decide)
    | (with_reducible apply Keeps.step (k := keeps_dropIn _ _ _ _ _); case w => decide)

theorem keeps_holdGrown (x1 : Nat) (s : State) : Keeps [.limits, .flt, .tel, .fr, .sw, .mat] s (holdGrown x1 s) := by
  unfold holdGrown
  try dsimp only
  repeat' first
    | with_reducible apply Keeps.refl
    | (with_reducible apply Keeps.step (k := keeps_dropFrame _ _ _ _); case w => decide)
    | (with_reducible apply Keeps.step (k := keeps_kilnOnce _ _ _ _); case w => decide)
    | (with_reducible apply Keeps.step (k := keeps_count _ _ _ _); case w => decide)
    | (with_reducible apply Keeps.step (k := keeps_setMatPipe _ _ _); case w => decide)
    | split

theorem keeps_moreBytes (x1 : Nat) (x2 : Bytes) (s : State) : Keeps [.limits, .flt, .tel, .fr, .sw, .mat] s (moreBytes x1 x2 s) := by
  unfold moreBytes
  try dsimp only
  repeat' first
    | with_reducible apply Keeps.refl
    | (with_reducible apply Keeps.step (k := keeps_holdGrown _ _); case w => decide)
    | (with_reducible apply Keeps.step (k := keeps_modFrame _ _ _); case w => decide)

theorem keeps_reserveAndDispatch (x1 : Nat) (x2 : Option Nat) (x3 : Option Nat) (s : State) : Keeps [.limits, .flt, .tel, .fr, .sw, .mat] s (reserveAndDispatch x1 x2 x3 s) := by
  unfold reserveAndDispatch
  try dsimp only
  repeat' first
    | with_reducible apply Keeps.refl
    | (with_reducible apply Keeps.step (k := keeps_deliver _ _); case w => decide)
    | (with_reducible apply Keeps.step (k := keeps_macDrop _ _ _); case w => decide)
    | (with_reducible apply Keeps.step (k := keeps_countRxDrop _ _ _); case w => decide)
    | (with_reducible apply Keeps.step (k := keeps_setFrame _ _ _); case w => decide)
    | (with_reducible apply Keeps.step (k := keeps_holdGrown _ _); case w => decide)
    | (with_reducible apply Keeps.step (k := keeps_count _ _ _ _); case w => decide)
    | split

theorem keeps_filterAndDispatch (x1 : Nat) (s : State) : Keeps [.limits, .flt, .tel, .fr, .sw, .mat] s (filterAndDispatch x1 s) := by
  unfold filterAndDispatch
  try dsimp only
  repeat' first
    | with_reducible apply Keeps.refl
    | (with_reducible apply Keeps.step (k := keeps_reserveAndDispatch _ _ _ _); case w => decide)
    | (with_reducible apply Keeps.step (k := keeps_count _ _ _ _); case w => decide)
    | (with_reducible apply Keeps.step (k := keeps_macDrop _ _ _); case w => decide)
    | (with_reducible apply Keeps.step (k := keeps_setFrame _ _ _); case w => decide)
    | split

theorem keeps_headDrop (x1 : Nat) (x2 : Nat) (s : State) : Keeps [.limits, .flt, .tel, .fr, .sw] s (headDrop x1 x2 s) := by
  unfold headDrop
  try dsimp only
  repeat' first
    | with_reducible apply Keeps.refl
    | (with_reducible apply Keeps.step (k := keeps_macDrop _ _ _); case w => decide)
    | (with_reducible apply Keeps.step (k := keeps_countRxDrop _ _ _); case w => decide)
    | (with_reducible apply Keeps.step (k := keeps_setFrame _ _ _); case w => decide)

theorem keeps_headChecks (x1 : Nat) (x2 : Bool) (s : State) : Keeps [.limits, .flt, .tel, .fr, .sw, .mat] s (headChecks x1 x2 s) := by
  unfold headChecks
  try dsimp only
  repeat' first
    | with_reducible apply Keeps.refl
    | (with_reducible apply Keeps.step (k := keeps_headDrop _ _ _); case w => decide)
    | (with_reducible apply Keeps.step (k := keeps_setFrame _ _ _); case w => decide)
    | (with_reducible apply Keeps.step (k := keeps_filterAndDispatch _ _); case w => decide)
    | split

theorem keeps_limitDelivery (x1 : Delivery) (s : State) : Keeps [.limits, .flt, .tel, .fr, .sw] s (limitDelivery x1 s).2 := by
  unfold limitDelivery
  try dsimp only
  repeat' first
    | with_reducible apply Keeps.refl
    | (with_reducible apply Keeps.step (k := keeps_takeLimit _ _ _); case w => decide)
    | (with_reducible apply Keeps.step (k := keeps_kilnOnce _ _ _ _); case w => decide)
    | (with_reducible apply Keeps.step (k := keeps_macDrop _ _ _); case w => decide)
    | (with_reducible apply Keeps.step (k := keeps_count _ _ _ _); case w => decide)
    | (with_reducible apply Keeps.step (k := keeps_dropIn _ _ _ _ _); case w => decide)
    | split

theorem keeps_settleDelivery (x1 : Nat) (x2 : Delivery) (s : State) : Keeps [.limits, .flt, .tel, .fr, .sw] s (settleDelivery x1 x2 s) := by
  unfold settleDelivery
  try dsimp only
  repeat' first
    | with_reducible apply Keeps.refl
    | (with_reducible apply keeps_modFr; case w => decide)
    | (with_reducible apply Keeps.step (k := keeps_dropIn _ _ _ _ _); case w => decide)
    | (with_reducible apply Keeps.step (k := keeps_limitDelivery _ _); case w => decide)
    | split

theorem keeps_settleDeliveries (x1 : Nat) (s : State) : Keeps [.limits, .flt, .tel, .fr, .sw] s (settleDeliveries x1 s) := by
  unfold settleDeliveries
  try dsimp only
  repeat' first
    | with_reducible assumption
    | with_reducible apply Keeps.refl
    | with_reducible intro _
    | with_reducible apply keeps_foldl
    | (with_reducible apply Keeps.step (k := keeps_settleDelivery _ _ _); case w => decide)
    | (with_reducible apply keeps_modFr; case w => decide)

theorem keeps_endFrame (x1 : Nat) (x2 : Nat) (s : State) : Keeps [.free, .out, .limits, .flt, .tel, .fr, .sw, .buf, .sch, .pow] s (endFrame x1 x2 s) := by
  unfold endFrame
  try dsimp only
  repeat' first
    | with_reducible apply Keeps.refl
    | (with_reducible apply Keeps.step (k := keeps_setFrame _ _ _); case w => decide)
    | (with_reducible apply Keeps.step (k := keeps_countGood _ _); case w => decide)
    | (with_reducible apply Keeps.step (k := keeps_countRxDrop _ _ _); case w => decide)
    | (with_reducible apply Keeps.step (k := keeps_frameFinished _ _); case w => decide)
    | (with_reducible apply Keeps.step (k := keeps_settleDeliveries _ _); case w => decide)
    | split

theorem keeps_clearRx (x1 : Nat) (x2 : Nat) (s : State) : Keeps [.mac] s (clearRx x1 x2 s) := by
  unfold clearRx
  try dsimp only
  repeat' first
    | with_reducible apply Keeps.refl
    | (with_reducible apply Keeps.step (k := keeps_setMacPort _ _ _); case w => decide)

theorem keeps_cutFrame (x1 : Nat) (x2 : Nat) (x3 : Nat) (s : State) : Keeps [.free, .out, .limits, .flt, .tel, .mac, .fr, .sw, .buf, .sch, .pow] s (cutFrame x1 x2 x3 s) := by
  unfold cutFrame
  try dsimp only
  repeat' first
    | with_reducible apply Keeps.refl
    | (with_reducible apply Keeps.step (k := keeps_forget _ _); case w => decide)
    | (with_reducible apply Keeps.step (k := keeps_headDrop _ _ _); case w => decide)
    | (with_reducible apply Keeps.step (k := keeps_clearRx _ _ _); case w => decide)
    | (with_reducible apply Keeps.step (k := keeps_endFrame _ _ _); case w => decide)
    | split

theorem keeps_dropPartial (x1 : Nat) (x2 : Nat) (s : State) : Keeps [.limits, .flt, .tel, .mac, .fr, .sw] s (dropPartial x1 x2 s) := by
  unfold dropPartial
  try dsimp only
  repeat' first
    | with_reducible apply Keeps.refl
    | (with_reducible apply Keeps.step (k := keeps_macDrop _ _ _); case w => decide)
    | (with_reducible apply Keeps.step (k := keeps_countRxDrop _ _ _); case w => decide)
    | (with_reducible apply Keeps.step (k := keeps_setMacPort _ _ _); case w => decide)
    | split

theorem keeps_cutReceived (x1 : Nat) (s : State) : Keeps [.free, .out, .limits, .flt, .tel, .mac, .fr, .sw, .buf, .sch, .pow] s (cutReceived x1 s) := by
  unfold cutReceived
  try dsimp only
  repeat' first
    | with_reducible apply Keeps.refl
    | (with_reducible apply Keeps.step (k := keeps_dropPartial _ _ _); case w => decide)
    | (with_reducible apply Keeps.step (k := keeps_cutFrame _ _ _ _); case w => decide)
    | split

theorem keeps_endPause (x1 : Nat) (x2 : Nat) (x3 : Nat) (s : State) : Keeps [.tel, .mac] s (endPause x1 x2 x3 s) := by
  unfold endPause
  try dsimp only
  repeat' first
    | with_reducible apply Keeps.refl
    | (with_reducible apply Keeps.step (k := keeps_count _ _ _ _); case w => decide)
    | (with_reducible apply Keeps.step (k := keeps_setMacPort _ _ _); case w => decide)
    | split

theorem keeps_loadPause (x1 : Nat) (x2 : Nat) (x3 : Nat) (s : State) : Keeps [.tel, .mac] s (loadPause x1 x2 x3 s) := by
  unfold loadPause
  try dsimp only
  repeat' first
    | with_reducible apply Keeps.refl
    | (with_reducible apply Keeps.step (k := keeps_endPause _ _ _ _); case w => decide)
    | (with_reducible apply Keeps.step (k := keeps_setMacPort _ _ _); case w => decide)
    | split

theorem keeps_actOnPause (x1 : Nat) (x2 : Nat) (x3 : List (Nat × Nat)) (s : State) : Keeps [.tel, .mac] s (actOnPause x1 x2 x3 s) := by
  unfold actOnPause
  try dsimp only
  repeat' first
    | with_reducible assumption
    | with_reducible apply Keeps.refl
    | with_reducible intro _
    | with_reducible apply keeps_foldl
    | (with_reducible apply Keeps.step (k := keeps_loadPause _ _ _ _); case w => decide)
    | (with_reducible apply Keeps.step (k := keeps_count _ _ _ _); case w => decide)
    | split

theorem keeps_macControl (x1 : Nat) (x2 : Nat) (x3 : Frame) (s : State) : Keeps [.limits, .flt, .tel, .mac, .fr, .sw] s (macControl x1 x2 x3 s) := by
  unfold macControl
  try dsimp only
  repeat' first
    | with_reducible assumption
    | with_reducible apply Keeps.refl
    | with_reducible intro _
    | with_reducible apply keeps_foldl
    | (with_reducible apply Keeps.step (k := keeps_countGood _ _); case w => decide)
    | (with_reducible apply Keeps.step (k := keeps_actOnPause _ _ _ _); case w => decide)
    | (with_reducible apply Keeps.step (k := keeps_count _ _ _ _); case w => decide)
    | (with_reducible apply Keeps.step (k := keeps_macDrop _ _ _); case w => decide)
    | split

end Sys2Proof.Laws
end

