-- ==== Sys2Proof/Laws/KeepsPorts.lean ====
section
/-!
SUPPORT. What the operations of Ports keep.
-/

set_option linter.all false

namespace Sys2Proof.Laws

open Sys2Proof Sys2Proof.Machine

theorem keeps_setLink (x1 : Nat) (x2 : Link) (s : State) : Keeps [.lane] s (setLink x1 x2 s) := by
  unfold setLink
  try dsimp only
  repeat' first
    | with_reducible apply Keeps.refl
    | (with_reducible apply keeps_modLaneState; case w => decide)

theorem keeps_sendQuanta (x1 : Nat) (x2 : Nat) (x3 : List (Nat × Nat)) (s : State) : Keeps [.out, .tel, .mac] s (sendQuanta x1 x2 x3 s) := by
  unfold sendQuanta
  try dsimp only
  repeat' first
    | with_reducible assumption
    | with_reducible apply Keeps.refl
    | with_reducible intro _
    | with_reducible apply keeps_foldl
    | (with_reducible apply Keeps.step (k := keeps_setMacPort _ _ _); case w => decide)
    | (with_reducible apply keeps_emit; case w => decide)
    | (with_reducible apply Keeps.step (k := keeps_count _ _ _ _); case w => decide)
    | split

theorem keeps_sendFlow (x1 : Nat) (x2 : Nat) (x3 : List Nat) (x4 : Nat) (s : State) : Keeps [.out, .tel, .mac] s (sendFlow x1 x2 x3 x4 s) :=
  keeps_sendQuanta _ _ _ _

theorem keeps_compareFlow (x1 : Nat) (s : State) : Keeps [.out, .tel, .mac] s (compareFlow x1 s) := by
  unfold compareFlow
  try dsimp only
  repeat' first
    | with_reducible apply Keeps.refl
    | (with_reducible apply Keeps.step (k := keeps_sendQuanta _ _ _ _); case w => decide)
    | (with_reducible apply Keeps.step (k := keeps_setMacPort _ _ _); case w => decide)
    | split

theorem keeps_clearPause (x1 : Nat) (s : State) : Keeps [.tel, .mac] s (clearPause x1 s) := by
  unfold clearPause
  try dsimp only
  repeat' first
    | with_reducible assumption
    | with_reducible apply Keeps.refl
    | with_reducible intro _
    | with_reducible apply keeps_foldl
    | (with_reducible apply Keeps.step (k := keeps_endPause _ _ _ _); case w => decide)

theorem keeps_stopMac (x1 : Nat) (s : State) : Keeps [.free, .out, .limits, .flt, .tel, .mac, .fr, .sw, .buf, .sch, .pow] s (stopMac x1 s) := by
  unfold stopMac
  try dsimp only
  repeat' first
    | with_reducible apply Keeps.refl
    | (with_reducible apply Keeps.step (k := keeps_cutReceived _ _); case w => decide)
    | (with_reducible apply Keeps.step (k := keeps_clearPause _ _); case w => decide)
    | (with_reducible apply Keeps.step (k := keeps_abortTransmit _ _); case w => decide)
    | split

theorem keeps_endHold (x1 : Nat) (s : State) : Keeps [.limits, .flt, .tel, .fr, .sw, .buf, .sch] s (endHold x1 s) := by
  unfold endHold
  try dsimp only
  repeat' first
    | with_reducible apply Keeps.refl
    | (with_reducible apply Keeps.step (k := keeps_flushPort _ _); case w => decide)
    | (with_reducible apply keeps_modSw; case w => decide)

theorem keeps_macLinkDown (x1 : Nat) (s : State) : Keeps [.free, .out, .limits, .flt, .tel, .mac, .fr, .sw, .buf, .sch, .pow] s (macLinkDown x1 s) := by
  unfold macLinkDown
  try dsimp only
  repeat' first
    | with_reducible apply Keeps.refl
    | (with_reducible apply Keeps.step (k := keeps_stopMac _ _); case w => decide)
    | (with_reducible apply Keeps.step (k := keeps_endHold _ _); case w => decide)
    | (with_reducible apply Keeps.step (k := keeps_kiln _ _ _); case w => decide)
    | (with_reducible apply Keeps.step (k := keeps_count _ _ _ _); case w => decide)
    | (with_reducible apply keeps_modSw; case w => decide)
    | split

theorem keeps_macPortStopped (x1 : Nat) (s : State) : Keeps [.free, .out, .limits, .flt, .tel, .mac, .fr, .sw, .buf, .sch, .pow] s (macPortStopped x1 s) := by
  unfold macPortStopped
  try dsimp only
  repeat' first
    | with_reducible apply Keeps.refl
    | (with_reducible apply Keeps.step (k := keeps_endHold _ _); case w => decide)
    | (with_reducible apply Keeps.step (k := keeps_stopMac _ _); case w => decide)
    | split

theorem keeps_macLinkUp (x1 : Nat) (s : State) : Keeps [.out, .flt, .tel, .mac, .sw] s (macLinkUp x1 s) := by
  unfold macLinkUp
  try dsimp only
  repeat' first
    | with_reducible apply Keeps.refl
    | (with_reducible apply Keeps.step (k := keeps_kiln _ _ _); case w => decide)
    | (with_reducible apply Keeps.step (k := keeps_count _ _ _ _); case w => decide)
    | (with_reducible apply keeps_modSw; case w => decide)
    | (with_reducible apply Keeps.step (k := keeps_sendFlow _ _ _ _ _); case w => decide)
    | split

end Sys2Proof.Laws
end

