-- ==== Sys2Proof/Laws/KeepsLane.lean ====
section
/-!
SUPPORT. What the operations of Lane keep.
-/

set_option linter.all false

namespace Sys2Proof.Laws

open Sys2Proof Sys2Proof.Machine

theorem keeps_modLane (x1 : Nat) (x2 : LaneSt → LaneSt) (s : State) : Keeps [.lane] s (modLane x1 x2 s) := by
  unfold modLane
  try dsimp only
  repeat' first
    | with_reducible apply Keeps.refl
    | (with_reducible apply keeps_modLaneState; case w => decide)

theorem keeps_modLanes (x1 : Nat) (x2 : LaneSt → LaneSt) (s : State) : Keeps [.lane] s (modLanes x1 x2 s) := by
  unfold modLanes
  try dsimp only
  repeat' first
    | with_reducible assumption
    | with_reducible apply Keeps.refl
    | with_reducible intro _
    | with_reducible apply keeps_foldl
    | (with_reducible apply Keeps.step (k := keeps_modLane _ _ _); case w => decide)

theorem keeps_countLanes (x1 : Counter) (x2 : Nat) (s : State) : Keeps [.tel] s (countLanes x1 x2 s) := by
  unfold countLanes
  try dsimp only
  repeat' first
    | with_reducible assumption
    | with_reducible apply Keeps.refl
    | with_reducible intro _
    | with_reducible apply keeps_foldl
    | (with_reducible apply Keeps.step (k := keeps_count _ _ _ _); case w => decide)

theorem keeps_setLaneDie (x1 : Nat) (x2 : LaneDieSt) (s : State) : Keeps [.lane] s (setLaneDie x1 x2 s) := by
  unfold setLaneDie
  try dsimp only
  repeat' first
    | with_reducible apply Keeps.refl
    | (with_reducible apply keeps_modLaneState; case w => decide)

theorem keeps_setLaneGroup (x1 : Nat) (x2 : LaneGroup) (s : State) : Keeps [.lane] s (setLaneGroup x1 x2 s) := by
  unfold setLaneGroup
  try dsimp only
  repeat' first
    | with_reducible apply Keeps.refl
    | (with_reducible apply keeps_modLaneState; case w => decide)

theorem keeps_enterPhase (x1 : Nat) (x2 : LinkPhase) (s : State) : Keeps [.lane] s (enterPhase x1 x2 s) := by
  unfold enterPhase
  try dsimp only
  repeat' first
    | with_reducible apply Keeps.refl
    | (with_reducible apply Keeps.step (k := keeps_setLink _ _ _); case w => decide)

theorem keeps_setCause (x1 : Nat) (x2 : Nat) (x3 : Nat) (s : State) : Keeps [.lane] s (setCause x1 x2 x3 s) := by
  unfold setCause
  try dsimp only
  repeat' first
    | with_reducible apply Keeps.refl
    | (with_reducible apply Keeps.step (k := keeps_modLanes _ _ _); case w => decide)

theorem keeps_enterRxDetect (x1 : Nat) (s : State) : Keeps [.lane] s (enterRxDetect x1 s) := by
  unfold enterRxDetect
  try dsimp only
  repeat' first
    | with_reducible assumption
    | with_reducible apply Keeps.refl
    | with_reducible intro _
    | with_reducible apply keeps_foldl
    | (with_reducible apply Keeps.step (k := keeps_modLane _ _ _); case w => decide)
    | (with_reducible apply Keeps.step (k := keeps_setLink _ _ _); case w => decide)

theorem keeps_startBringUp (x1 : Nat) (s : State) : Keeps [.lane] s (startBringUp x1 s) := by
  unfold startBringUp
  try dsimp only
  repeat' first
    | with_reducible apply Keeps.refl
    | (with_reducible apply Keeps.step (k := keeps_setCause _ _ _ _); case w => decide)
    | (with_reducible apply Keeps.step (k := keeps_setLink _ _ _); case w => decide)
    | (with_reducible apply Keeps.step (k := keeps_enterRxDetect _ _); case w => decide)
    | split

theorem keeps_leaveActive (x1 : Nat) (x2 : Nat) (s : State) : Keeps [.flt, .tel, .lane, .pow] s (leaveActive x1 x2 s) := by
  unfold leaveActive
  try dsimp only
  repeat' first
    | with_reducible assumption
    | with_reducible apply Keeps.refl
    | with_reducible intro _
    | with_reducible apply keeps_foldl
    | (with_reducible apply keeps_modPow; case w => decide)
    | (with_reducible apply Keeps.step (k := keeps_modLane _ _ _); case w => decide)
    | (with_reducible apply Keeps.step (k := keeps_kiln _ _ _); case w => decide)
    | (with_reducible apply Keeps.step (k := keeps_countLanes _ _ _); case w => decide)
    | (with_reducible apply Keeps.step (k := keeps_countSet _ _ _ _); case w => decide)

theorem keeps_countAttempt (x1 : Nat) (s : State) : Keeps [.tel] s (countAttempt x1 s) := by
  unfold countAttempt
  try dsimp only
  repeat' first
    | with_reducible apply Keeps.refl
    | (with_reducible apply Keeps.step (k := keeps_countSet _ _ _ _); case w => decide)

theorem keeps_attemptFail (x1 : Nat) (x2 : Nat) (x3 : Nat) (s : State) : Keeps [.flt, .tel, .lane] s (attemptFail x1 x2 x3 s) := by
  unfold attemptFail
  try dsimp only
  repeat' first
    | with_reducible apply Keeps.refl
    | (with_reducible apply Keeps.step (k := keeps_setCause _ _ _ _); case w => decide)
    | (with_reducible apply Keeps.step (k := keeps_count _ _ _ _); case w => decide)
    | (with_reducible apply Keeps.step (k := keeps_countAttempt _ _); case w => decide)
    | (with_reducible apply Keeps.step (k := keeps_kiln _ _ _); case w => decide)
    | (with_reducible apply Keeps.step (k := keeps_countLanes _ _ _); case w => decide)
    | (with_reducible apply Keeps.step (k := keeps_modLanes _ _ _); case w => decide)
    | (with_reducible apply Keeps.step (k := keeps_setLink _ _ _); case w => decide)
    | split

theorem keeps_stepFail (x1 : Nat) (x2 : Nat) (x3 : Nat) (s : State) : Keeps [.flt, .tel, .lane] s (stepFail x1 x2 x3 s) := by
  unfold stepFail
  try dsimp only
  repeat' first
    | with_reducible apply Keeps.refl
    | (with_reducible apply Keeps.step (k := keeps_attemptFail _ _ _ _); case w => decide)

theorem keeps_noteReference (x1 : Nat) (s : State) : Keeps [.free, .lane] s (noteReference x1 s) := by
  unfold noteReference
  try dsimp only
  repeat' first
    | with_reducible apply Keeps.refl
    | (with_reducible apply keeps_takeFree; case w => decide)
    | (with_reducible apply Keeps.step (k := keeps_modLane _ _ _); case w => decide)
    | split

theorem keeps_enterActive (x1 : Nat) (x2 : Bool) (s : State) : Keeps [.free, .out, .flt, .tel, .lane, .mac, .sw] s (enterActive x1 x2 s) := by
  unfold enterActive
  try dsimp only
  repeat' first
    | with_reducible assumption
    | with_reducible apply Keeps.refl
    | with_reducible intro _
    | with_reducible apply keeps_foldl
    | (with_reducible apply Keeps.step (k := keeps_modLanes _ _ _); case w => decide)
    | (with_reducible apply Keeps.step (k := keeps_noteReference _ _); case w => decide)
    | (with_reducible apply Keeps.step (k := keeps_setLink _ _ _); case w => decide)
    | (with_reducible apply Keeps.step (k := keeps_countLanes _ _ _); case w => decide)
    | (with_reducible apply Keeps.step (k := keeps_macLinkUp _ _); case w => decide)
    | (with_reducible apply Keeps.step (k := keeps_kiln _ _ _); case w => decide)
    | split

theorem keeps_enterReacquire (x1 : Nat) (s : State) : Keeps [.lane] s (enterReacquire x1 s) := by
  unfold enterReacquire
  try dsimp only
  repeat' first
    | with_reducible apply Keeps.refl
    | (with_reducible apply Keeps.step (k := keeps_enterPhase _ _ _); case w => decide)
    | (with_reducible apply Keeps.step (k := keeps_modLanes _ _ _); case w => decide)

theorem keeps_stopBringUp (x1 : Nat) (s : State) : Keeps [.flt, .tel, .lane, .pow] s (stopBringUp x1 s) := by
  unfold stopBringUp
  try dsimp only
  repeat' first
    | with_reducible apply Keeps.refl
    | (with_reducible apply Keeps.step (k := keeps_leaveActive _ _ _); case w => decide)
    | (with_reducible apply Keeps.step (k := keeps_setCause _ _ _ _); case w => decide)
    | (with_reducible apply Keeps.step (k := keeps_count _ _ _ _); case w => decide)
    | (with_reducible apply Keeps.step (k := keeps_enterPhase _ _ _); case w => decide)
    | (with_reducible apply Keeps.step (k := keeps_modLanes _ _ _); case w => decide)
    | split

theorem keeps_execSignalDetected (x1 : Port) (s : State) : KeepsOut [.now, .lane] s (execSignalDetected x1 s) := by
  unfold execSignalDetected
  try dsimp only
  repeat' first
    | with_reducible apply Keeps.refl
    | with_reducible apply keepsOut_next
    | (with_reducible apply Keeps.step (k := keeps_modLane _ _ _); case w => decide)
    | (with_reducible apply Keeps.step (k := keeps_enterPhase _ _ _); case w => decide)
    | (with_reducible apply Keeps.step (k := keeps_modLanes _ _ _); case w => decide)
    | (with_reducible apply keeps_reach; case w => decide)
    | split

theorem keeps_execSignalBreak (x1 : Lane) (s : State) : KeepsOut [.lane] s (execSignalBreak x1 s) := by
  unfold execSignalBreak
  try dsimp only
  repeat' first
    | with_reducible apply Keeps.refl
    | with_reducible apply keepsOut_next
    | (with_reducible apply Keeps.step (k := keeps_modLane _ _ _); case w => decide)
    | (with_reducible apply Keeps.step (k := keeps_setLink _ _ _); case w => decide)
    | split

theorem keeps_execAutonegResolved (x1 : Port) (x2 : Bool) (s : State) : KeepsOut [.flt, .tel, .lane] s (execAutonegResolved x1 x2 s) := by
  unfold execAutonegResolved
  try dsimp only
  repeat' first
    | with_reducible apply Keeps.refl
    | with_reducible apply keepsOut_next
    | (with_reducible apply Keeps.step (k := keeps_enterPhase _ _ _); case w => decide)
    | (with_reducible apply Keeps.step (k := keeps_stepFail _ _ _ _); case w => decide)
    | split

theorem keeps_execAnTimeout (x1 : Port) (s : State) : KeepsOut [.now, .flt, .tel, .lane] s (execAnTimeout x1 s) := by
  unfold execAnTimeout
  try dsimp only
  repeat' first
    | with_reducible apply Keeps.refl
    | with_reducible apply keepsOut_next
    | (with_reducible apply Keeps.step (k := keeps_stepFail _ _ _ _); case w => decide)
    | (with_reducible apply keeps_reach; case w => decide)
    | split

theorem keeps_execAnPageViolation (x1 : Port) (s : State) : KeepsOut [.tel] s (execAnPageViolation x1 s) := by
  unfold execAnPageViolation
  try dsimp only
  repeat' first
    | with_reducible apply Keeps.refl
    | with_reducible apply keepsOut_next
    | (with_reducible apply Keeps.step (k := keeps_count _ _ _ _); case w => decide)
    | split

theorem keeps_execTrainingDone (x1 : Port) (x2 : List Bytes) (s : State) : KeepsOut [.lane] s (execTrainingDone x1 x2 s) := by
  unfold execTrainingDone
  try dsimp only
  repeat' first
    | with_reducible assumption
    | with_reducible apply Keeps.refl
    | with_reducible apply keepsOut_next
    | with_reducible intro _
    | with_reducible apply keeps_foldl
    | (with_reducible apply Keeps.step (k := keeps_modLane _ _ _); case w => decide)
    | (with_reducible apply Keeps.step (k := keeps_enterPhase _ _ _); case w => decide)
    | split

theorem keeps_execTrainingTimeout (x1 : Port) (x2 : Lane) (s : State) : KeepsOut [.now, .flt, .tel, .lane] s (execTrainingTimeout x1 x2 s) := by
  unfold execTrainingTimeout
  try dsimp only
  repeat' first
    | with_reducible apply Keeps.refl
    | with_reducible apply keepsOut_next
    | (with_reducible apply Keeps.step (k := keeps_stepFail _ _ _ _); case w => decide)
    | (with_reducible apply keeps_reach; case w => decide)
    | split

theorem keeps_execLockAcquired (x1 : Port) (s : State) : KeepsOut [.lane] s (execLockAcquired x1 s) := by
  unfold execLockAcquired
  try dsimp only
  repeat' first
    | with_reducible apply Keeps.refl
    | with_reducible apply keepsOut_next
    | (with_reducible apply Keeps.step (k := keeps_modLanes _ _ _); case w => decide)
    | (with_reducible apply Keeps.step (k := keeps_enterPhase _ _ _); case w => decide)
    | split

theorem keeps_execLockTimeout (x1 : Port) (x2 : Lane) (s : State) : KeepsOut [.now, .flt, .tel, .lane] s (execLockTimeout x1 x2 s) := by
  unfold execLockTimeout
  try dsimp only
  repeat' first
    | with_reducible apply Keeps.refl
    | with_reducible apply keepsOut_next
    | (with_reducible apply Keeps.step (k := keeps_stepFail _ _ _ _); case w => decide)
    | (with_reducible apply keeps_reach; case w => decide)
    | split

theorem keeps_execCdrLockLost (x1 : Lane) (s : State) : KeepsOut [.tel, .lane] s (execCdrLockLost x1 s) := by
  unfold execCdrLockLost
  try dsimp only
  repeat' first
    | with_reducible apply Keeps.refl
    | with_reducible apply keepsOut_next
    | (with_reducible apply Keeps.step (k := keeps_count _ _ _ _); case w => decide)
    | (with_reducible apply Keeps.step (k := keeps_modLane _ _ _); case w => decide)
    | split

theorem keeps_execLinkUp (x1 : Port) (s : State) : KeepsOut [.free, .out, .flt, .tel, .lane, .mac, .sw] s (execLinkUp x1 s) := by
  unfold execLinkUp
  try dsimp only
  repeat' first
    | with_reducible apply Keeps.refl
    | with_reducible apply keepsOut_next
    | (with_reducible apply Keeps.step (k := keeps_enterActive _ _ _); case w => decide)
    | split

theorem keeps_execAlignTimeout (x1 : Port) (x2 : Lane) (x3 : Nat) (s : State) : KeepsOut [.now, .flt, .tel, .lane] s (execAlignTimeout x1 x2 x3 s) := by
  unfold execAlignTimeout
  try dsimp only
  repeat' first
    | with_reducible apply Keeps.refl
    | with_reducible apply keepsOut_next
    | (with_reducible apply Keeps.step (k := keeps_stepFail _ _ _ _); case w => decide)
    | (with_reducible apply keeps_reach; case w => decide)
    | split

theorem keeps_execSignalLost (x1 : Lane) (s : State) : KeepsOut [.flt, .tel, .lane] s (execSignalLost x1 s) := by
  unfold execSignalLost
  try dsimp only
  repeat' first
    | with_reducible apply Keeps.refl
    | with_reducible apply keepsOut_next
    | (with_reducible apply Keeps.step (k := keeps_count _ _ _ _); case w => decide)
    | (with_reducible apply Keeps.step (k := keeps_modLane _ _ _); case w => decide)
    | (with_reducible apply Keeps.step (k := keeps_stepFail _ _ _ _); case w => decide)
    | split

theorem keeps_execBackoffExpired (x1 : Port) (s : State) : KeepsOut [.now, .lane] s (execBackoffExpired x1 s) := by
  unfold execBackoffExpired
  try dsimp only
  repeat' first
    | with_reducible apply Keeps.refl
    | with_reducible apply keepsOut_next
    | (with_reducible apply Keeps.step (k := keeps_enterRxDetect _ _); case w => decide)
    | (with_reducible apply keeps_reach; case w => decide)
    | split

theorem keeps_execBackoffReset (x1 : Port) (s : State) : KeepsOut [.now, .lane] s (execBackoffReset x1 s) := by
  unfold execBackoffReset
  try dsimp only
  repeat' first
    | with_reducible apply Keeps.refl
    | with_reducible apply keepsOut_next
    | (with_reducible apply Keeps.step (k := keeps_setLink _ _ _); case w => decide)
    | (with_reducible apply keeps_reach; case w => decide)
    | split

theorem keeps_execTrainingFrameMalformed (x1 : Lane) (x2 : BitVec 16) (x3 : Nat) (s : State) : KeepsOut [.flt, .tel, .lane] s (execTrainingFrameMalformed x1 x2 x3 s) := by
  unfold execTrainingFrameMalformed
  try dsimp only
  repeat' first
    | with_reducible apply Keeps.refl
    | with_reducible apply keepsOut_next
    | (with_reducible apply Keeps.step (k := keeps_count _ _ _ _); case w => decide)
    | (with_reducible apply Keeps.step (k := keeps_modLane _ _ _); case w => decide)
    | (with_reducible apply Keeps.step (k := keeps_kiln _ _ _); case w => decide)
    | (with_reducible apply Keeps.step (k := keeps_stepFail _ _ _ _); case w => decide)
    | split

theorem keeps_countDown (x1 : Nat) (x2 : Nat) (s : State) : Keeps [.tel] s (countDown x1 x2 s) := by
  unfold countDown
  try dsimp only
  repeat' first
    | with_reducible apply Keeps.refl
    | (with_reducible apply Keeps.step (k := keeps_count _ _ _ _); case w => decide)
    | split

theorem keeps_dropLink (x1 : Nat) (x2 : Nat) (x3 : Nat) (x4 : Bool) (s : State) : Keeps [.free, .out, .limits, .flt, .tel, .lane, .mac, .fr, .sw, .buf, .sch, .pow] s (dropLink x1 x2 x3 x4 s) := by
  unfold dropLink
  try dsimp only
  repeat' first
    | with_reducible apply Keeps.refl
    | (with_reducible apply Keeps.step (k := keeps_macLinkDown _ _); case w => decide)
    | (with_reducible apply Keeps.step (k := keeps_leaveActive _ _ _); case w => decide)
    | (with_reducible apply Keeps.step (k := keeps_enterReacquire _ _); case w => decide)
    | (with_reducible apply Keeps.step (k := keeps_attemptFail _ _ _ _); case w => decide)
    | split

theorem keeps_execLinkDown (x1 : Lane) (x2 : Fin 4) (x3 : Bool) (s : State) : KeepsOut [.free, .out, .limits, .flt, .tel, .lane, .mac, .fr, .sw, .buf, .sch, .pow] s (execLinkDown x1 x2 x3 s) := by
  unfold execLinkDown
  try dsimp only
  repeat' first
    | with_reducible apply Keeps.refl
    | with_reducible apply keepsOut_next
    | (with_reducible apply Keeps.step (k := keeps_countDown _ _ _); case w => decide)
    | (with_reducible apply Keeps.step (k := keeps_modLane _ _ _); case w => decide)
    | (with_reducible apply Keeps.step (k := keeps_dropLink _ _ _ _ _); case w => decide)
    | split

theorem keeps_execReacquireDone (x1 : Port) (s : State) : KeepsOut [.free, .out, .flt, .tel, .lane, .mac, .sw] s (execReacquireDone x1 s) := by
  unfold execReacquireDone
  try dsimp only
  repeat' first
    | with_reducible apply Keeps.refl
    | with_reducible apply keepsOut_next
    | (with_reducible apply Keeps.step (k := keeps_enterActive _ _ _); case w => decide)
    | split

theorem keeps_execReacquireTimeout (x1 : Port) (x2 : Lane) (s : State) : KeepsOut [.now, .flt, .tel, .lane] s (execReacquireTimeout x1 x2 s) := by
  unfold execReacquireTimeout
  try dsimp only
  repeat' first
    | with_reducible apply Keeps.refl
    | with_reducible apply keepsOut_next
    | (with_reducible apply Keeps.step (k := keeps_stepFail _ _ _ _); case w => decide)
    | (with_reducible apply keeps_reach; case w => decide)
    | split

theorem keeps_huntHeader (x1 : Nat) (x2 : Bool) (x3 : LaneSt) (s : State) : Keeps [.tel, .lane] s (huntHeader x1 x2 x3 s) := by
  unfold huntHeader
  try dsimp only
  repeat' first
    | with_reducible apply Keeps.refl
    | (with_reducible apply Keeps.step (k := keeps_modLane _ _ _); case w => decide)
    | (with_reducible apply Keeps.step (k := keeps_count _ _ _ _); case w => decide)
    | split

theorem keeps_lockedHeader (x1 : Nat) (x2 : Bool) (x3 : LaneSt) (s : State) : Keeps [.tel, .lane] s (lockedHeader x1 x2 x3 s) := by
  unfold lockedHeader
  try dsimp only
  repeat' first
    | with_reducible apply Keeps.refl
    | (with_reducible apply Keeps.step (k := keeps_count _ _ _ _); case w => decide)
    | (with_reducible apply Keeps.step (k := keeps_modLane _ _ _); case w => decide)
    | split

theorem keeps_execSyncHeaderReceived (x1 : Lane) (x2 : Bool) (s : State) : KeepsOut [.tel, .lane] s (execSyncHeaderReceived x1 x2 s) := by
  unfold execSyncHeaderReceived
  try dsimp only
  repeat' first
    | with_reducible apply Keeps.refl
    | with_reducible apply keepsOut_next
    | (with_reducible apply Keeps.step (k := keeps_lockedHeader _ _ _ _); case w => decide)
    | (with_reducible apply Keeps.step (k := keeps_huntHeader _ _ _ _); case w => decide)
    | split

theorem keeps_execAlignmentMarkerReceived (x1 : Lane) (x2 : Bool) (s : State) : KeepsOut [.tel, .lane] s (execAlignmentMarkerReceived x1 x2 s) := by
  unfold execAlignmentMarkerReceived
  try dsimp only
  repeat' first
    | with_reducible apply Keeps.refl
    | with_reducible apply keepsOut_next
    | (with_reducible apply Keeps.step (k := keeps_count _ _ _ _); case w => decide)
    | (with_reducible apply Keeps.step (k := keeps_modLane _ _ _); case w => decide)
    | split

theorem keeps_execFecCodewordDecoded (x1 : Lane) (x2 : Nat) (s : State) : KeepsOut [.tel, .lane] s (execFecCodewordDecoded x1 x2 s) := by
  unfold execFecCodewordDecoded
  try dsimp only
  repeat' first
    | with_reducible apply Keeps.refl
    | with_reducible apply keepsOut_next
    | (with_reducible apply Keeps.step (k := keeps_count _ _ _ _); case w => decide)
    | (with_reducible apply Keeps.step (k := keeps_modLane _ _ _); case w => decide)
    | split

theorem keeps_execDegradeWindowEnd (x1 : Lane) (s : State) : KeepsOut [.flt, .tel, .lane] s (execDegradeWindowEnd x1 s) := by
  unfold execDegradeWindowEnd
  try dsimp only
  repeat' first
    | with_reducible assumption
    | with_reducible apply Keeps.refl
    | with_reducible apply keepsOut_next
    | with_reducible intro _
    | (with_reducible apply Keeps.step (k := keeps_modLane _ _ _); case w => decide)
    | (with_reducible apply Keeps.step (k := keeps_count _ _ _ _); case w => decide)
    | (with_reducible apply keeps_detect; case w => decide)
    | (with_reducible apply Keeps.step (k := keeps_kilnInj _ _ _ _); case w => decide)
    | split

theorem keeps_execFarEndLoopbackBlock (x1 : Port) (x2 : Bool) (x3 : Bool) (x4 : Bool) (s : State) : KeepsOut [.tel, .lane] s (execFarEndLoopbackBlock x1 x2 x3 x4 s) := by
  unfold execFarEndLoopbackBlock
  try dsimp only
  repeat' first
    | with_reducible apply Keeps.refl
    | with_reducible apply keepsOut_next
    | (with_reducible apply Keeps.step (k := keeps_count _ _ _ _); case w => decide)
    | (with_reducible apply Keeps.step (k := keeps_modLane _ _ _); case w => decide)
    | split

theorem keeps_checkGood (x1 : Nat) (x2 : Nat) (s : State) : Keeps [.tel, .lane] s (checkGood x1 x2 s) := by
  unfold checkGood
  try dsimp only
  repeat' first
    | with_reducible apply Keeps.refl
    | (with_reducible apply Keeps.step (k := keeps_count _ _ _ _); case w => decide)
    | (with_reducible apply Keeps.step (k := keeps_modLane _ _ _); case w => decide)
    | split

theorem keeps_checkBad (x1 : Nat) (x2 : Bool) (s : State) : Keeps [.tel, .lane] s (checkBad x1 x2 s) := by
  unfold checkBad
  try dsimp only
  repeat' first
    | with_reducible apply Keeps.refl
    | (with_reducible apply Keeps.step (k := keeps_modLane _ _ _); case w => decide)
    | (with_reducible apply Keeps.step (k := keeps_count _ _ _ _); case w => decide)
    | (with_reducible apply Keeps.step (k := keeps_countSet _ _ _ _); case w => decide)
    | split

theorem keeps_execPatternBitsChecked (x1 : Lane) (x2 : Nat) (x3 : Bool) (x4 : Bool) (s : State) : KeepsOut [.tel, .lane] s (execPatternBitsChecked x1 x2 x3 x4 s) := by
  unfold execPatternBitsChecked
  try dsimp only
  repeat' first
    | with_reducible apply Keeps.refl
    | with_reducible apply keepsOut_next
    | (with_reducible apply Keeps.step (k := keeps_checkGood _ _ _); case w => decide)
    | (with_reducible apply Keeps.step (k := keeps_checkBad _ _ _); case w => decide)
    | split

theorem keeps_execErrorInjectionEvent (x1 : Lane) (s : State) : KeepsOut [.tel, .lane] s (execErrorInjectionEvent x1 s) := by
  unfold execErrorInjectionEvent
  try dsimp only
  repeat' first
    | with_reducible apply Keeps.refl
    | with_reducible apply keepsOut_next
    | (with_reducible apply Keeps.step (k := keeps_count _ _ _ _); case w => decide)
    | (with_reducible apply Keeps.step (k := keeps_modLane _ _ _); case w => decide)
    | split

theorem keeps_execEyePointDone (x1 : Lane) (x2 : Nat) (x3 : Nat) (s : State) : KeepsOut [.lane] s (execEyePointDone x1 x2 x3 s) := by
  unfold execEyePointDone
  try dsimp only
  repeat' first
    | with_reducible apply Keeps.refl
    | with_reducible apply keepsOut_next
    | (with_reducible apply Keeps.step (k := keeps_modLane _ _ _); case w => decide)
    | split

theorem keeps_execLaneRefclkLost (x1 : LaneDie) (s : State) : KeepsOut [.flt, .lane] s (execLaneRefclkLost x1 s) := by
  unfold execLaneRefclkLost
  try dsimp only
  repeat' first
    | with_reducible assumption
    | with_reducible apply Keeps.refl
    | with_reducible apply keepsOut_next
    | with_reducible intro _
    | (with_reducible apply keeps_detect; case w => decide)
    | (with_reducible apply Keeps.step (k := keeps_kilnInj _ _ _ _); case w => decide)
    | (with_reducible apply Keeps.step (k := keeps_setLaneDie _ _ _); case w => decide)
    | split

theorem keeps_execLaneRefclkRelock (x1 : LaneDie) (s : State) : KeepsOut [.now, .lane] s (execLaneRefclkRelock x1 s) := by
  unfold execLaneRefclkRelock
  try dsimp only
  repeat' first
    | with_reducible apply Keeps.refl
    | with_reducible apply keepsOut_next
    | (with_reducible apply Keeps.step (k := keeps_setLaneDie _ _ _); case w => decide)
    | (with_reducible apply keeps_reach; case w => decide)
    | split

theorem keeps_refclkDown (x1 : Nat) (s : State) : Keeps [.free, .out, .limits, .flt, .tel, .lane, .mac, .fr, .sw, .buf, .sch, .pow] s (refclkDown x1 s) := by
  unfold refclkDown
  try dsimp only
  repeat' first
    | with_reducible apply Keeps.refl
    | (with_reducible apply Keeps.step (k := keeps_setCause _ _ _ _); case w => decide)
    | (with_reducible apply Keeps.step (k := keeps_setLink _ _ _); case w => decide)
    | (with_reducible apply Keeps.step (k := keeps_macLinkDown _ _); case w => decide)
    | (with_reducible apply Keeps.step (k := keeps_leaveActive _ _ _); case w => decide)
    | (with_reducible apply Keeps.step (k := keeps_attemptFail _ _ _ _); case w => decide)
    | split

theorem keeps_execLaneRefclkHoldoverEnd (x1 : LaneDie) (s : State) : KeepsOut [.now, .free, .out, .limits, .flt, .tel, .lane, .mac, .fr, .sw, .buf, .sch, .pow] s (execLaneRefclkHoldoverEnd x1 s) := by
  unfold execLaneRefclkHoldoverEnd
  try dsimp only
  repeat' first
    | with_reducible assumption
    | with_reducible apply Keeps.refl
    | with_reducible apply keepsOut_next
    | with_reducible intro _
    | with_reducible apply keeps_foldl
    | (with_reducible apply Keeps.step (k := keeps_setLaneDie _ _ _); case w => decide)
    | (with_reducible apply keeps_reach; case w => decide)
    | (with_reducible apply Keeps.step (k := keeps_refclkDown _ _); case w => decide)
    | split

theorem keeps_execLaneRefclkRestored (x1 : LaneDie) (s : State) : KeepsOut [.flt, .lane] s (execLaneRefclkRestored x1 s) := by
  unfold execLaneRefclkRestored
  try dsimp only
  repeat' first
    | with_reducible assumption
    | with_reducible apply Keeps.refl
    | with_reducible apply keepsOut_next
    | with_reducible intro _
    | with_reducible apply keeps_foldl
    | (with_reducible apply Keeps.step (k := keeps_kiln _ _ _); case w => decide)
    | (with_reducible apply Keeps.step (k := keeps_setLaneDie _ _ _); case w => decide)
    | (with_reducible apply Keeps.step (k := keeps_enterRxDetect _ _); case w => decide)
    | split

theorem keeps_execD2dDoubleBitError (x1 : Pipe) (x2 : Bool) (s : State) : KeepsOut [.flt, .lane] s (execD2dDoubleBitError x1 x2 s) := by
  unfold execD2dDoubleBitError
  try dsimp only
  repeat' first
    | with_reducible assumption
    | with_reducible apply Keeps.refl
    | with_reducible apply keepsOut_next
    | with_reducible intro _
    | (with_reducible apply keeps_detect; case w => decide)
    | (with_reducible apply Keeps.step (k := keeps_kilnInj _ _ _ _); case w => decide)
    | (with_reducible apply Keeps.step (k := keeps_setLaneGroup _ _ _); case w => decide)
    | split

theorem keeps_execD2dRetrainDone (x1 : Pipe) (s : State) : KeepsOut [.lane] s (execD2dRetrainDone x1 s) := by
  unfold execD2dRetrainDone
  try dsimp only
  repeat' first
    | with_reducible apply Keeps.refl
    | with_reducible apply keepsOut_next
    | (with_reducible apply Keeps.step (k := keeps_setLaneGroup _ _ _); case w => decide)

theorem keeps_faultReacquire (x1 : Nat) (s : State) : Keeps [.free, .out, .limits, .flt, .tel, .lane, .mac, .fr, .sw, .buf, .sch, .pow] s (faultReacquire x1 s) := by
  unfold faultReacquire
  try dsimp only
  repeat' first
    | with_reducible apply Keeps.refl
    | (with_reducible apply Keeps.step (k := keeps_enterReacquire _ _); case w => decide)
    | (with_reducible apply Keeps.step (k := keeps_setCause _ _ _ _); case w => decide)
    | (with_reducible apply Keeps.step (k := keeps_macLinkDown _ _); case w => decide)
    | (with_reducible apply Keeps.step (k := keeps_leaveActive _ _ _); case w => decide)
    | (with_reducible apply Keeps.step (k := keeps_enterPhase _ _ _); case w => decide)
    | split

theorem keeps_execLanePll (x1 : Pipe) (s : State) : KeepsOut [.free, .out, .limits, .flt, .tel, .lane, .mac, .fr, .sw, .buf, .sch, .pow] s (execLanePll x1 s) := by
  unfold execLanePll
  try dsimp only
  repeat' first
    | with_reducible assumption
    | with_reducible apply Keeps.refl
    | with_reducible apply keepsOut_next
    | with_reducible intro _
    | with_reducible apply keeps_foldl
    | (with_reducible apply keeps_detect; case w => decide)
    | (with_reducible apply Keeps.step (k := keeps_setLaneGroup _ _ _); case w => decide)
    | (with_reducible apply Keeps.step (k := keeps_count _ _ _ _); case w => decide)
    | (with_reducible apply Keeps.step (k := keeps_faultReacquire _ _); case w => decide)
    | split

theorem keeps_execLanePllRelock (x1 : Pipe) (s : State) : KeepsOut [.free, .out, .limits, .flt, .tel, .lane, .mac, .fr, .sw, .buf, .sch, .pow] s (execLanePllRelock x1 s) := by
  unfold execLanePllRelock
  try dsimp only
  repeat' first
    | with_reducible assumption
    | with_reducible apply Keeps.refl
    | with_reducible apply keepsOut_next
    | with_reducible intro _
    | with_reducible apply keeps_foldl
    | (with_reducible apply Keeps.step (k := keeps_faultReacquire _ _); case w => decide)
    | (with_reducible apply Keeps.step (k := keeps_setLaneGroup _ _ _); case w => decide)
    | split

theorem keeps_execLaneAdapt (x1 : Lane) (s : State) : KeepsOut [.flt, .lane] s (execLaneAdapt x1 s) := by
  unfold execLaneAdapt
  try dsimp only
  repeat' first
    | with_reducible assumption
    | with_reducible apply Keeps.refl
    | with_reducible apply keepsOut_next
    | with_reducible intro _
    | (with_reducible apply keeps_detect; case w => decide)
    | (with_reducible apply Keeps.step (k := keeps_kilnInj _ _ _ _); case w => decide)
    | (with_reducible apply Keeps.step (k := keeps_modLane _ _ _); case w => decide)

theorem keeps_execLaneStore (x1 : LaneDie) (s : State) : KeepsOut [.flt, .lane] s (execLaneStore x1 s) := by
  unfold execLaneStore
  try dsimp only
  repeat' first
    | with_reducible assumption
    | with_reducible apply Keeps.refl
    | with_reducible apply keepsOut_next
    | with_reducible intro _
    | (with_reducible apply keeps_detect; case w => decide)
    | (with_reducible apply Keeps.step (k := keeps_setLaneDie _ _ _); case w => decide)

theorem keeps_execLaneStoreReload (x1 : LaneDie) (s : State) : KeepsOut [.free, .out, .limits, .flt, .tel, .lane, .mac, .fr, .sw, .buf, .sch, .pow] s (execLaneStoreReload x1 s) := by
  unfold execLaneStoreReload
  try dsimp only
  repeat' first
    | with_reducible assumption
    | with_reducible apply Keeps.refl
    | with_reducible apply keepsOut_next
    | with_reducible intro _
    | with_reducible apply keeps_foldl
    | (with_reducible apply Keeps.step (k := keeps_faultReacquire _ _); case w => decide)
    | (with_reducible apply Keeps.step (k := keeps_setLaneDie _ _ _); case w => decide)
    | split

theorem keeps_execLaneConfigWrite (x1 : Cmd) (s : State) : KeepsOut [.flt, .tel, .host, .lane] s (execLaneConfigWrite x1 s) := by
  unfold execLaneConfigWrite
  try dsimp only
  repeat' first
    | with_reducible apply Keeps.refl
    | with_reducible apply keepsOut_next
    | with_reducible apply keepsRes_okWrite
    | with_reducible intro _
    | (with_reducible apply keeps_icoux; case w => decide)
    | (with_reducible apply Keeps.step (k := keeps_modLane _ _ _); case w => decide)
    | (with_reducible apply Keeps.step (k := keeps_enterRxDetect _ _); case w => decide)
    | split

theorem keeps_execLaneConfigRead (x1 : Cmd) (s : State) : KeepsOut [.flt, .tel, .host] s (execLaneConfigRead x1 s) := by
  unfold execLaneConfigRead
  try dsimp only
  repeat' first
    | with_reducible apply Keeps.refl
    | with_reducible apply keepsOut_next
    | with_reducible apply keepsRes_okReply
    | with_reducible intro _
    | (with_reducible apply keeps_icoux; case w => decide)

theorem keeps_execLaneStatus (x1 : Cmd) (s : State) : KeepsOut [.flt, .tel, .host] s (execLaneStatus x1 s) := by
  unfold execLaneStatus
  try dsimp only
  repeat' first
    | with_reducible apply Keeps.refl
    | with_reducible apply keepsOut_next
    | with_reducible apply keepsRes_okReply
    | with_reducible intro _
    | (with_reducible apply keeps_icoux; case w => decide)

theorem keeps_clearChecker (x1 : Nat) (s : State) : Keeps [.tel, .lane] s (clearChecker x1 s) := by
  unfold clearChecker
  try dsimp only
  repeat' first
    | with_reducible assumption
    | with_reducible apply Keeps.refl
    | with_reducible intro _
    | with_reducible apply keeps_foldl
    | (with_reducible apply Keeps.step (k := keeps_countSet _ _ _ _); case w => decide)
    | (with_reducible apply Keeps.step (k := keeps_modLane _ _ _); case w => decide)

theorem keeps_execLaneTestWrite (x1 : Cmd) (s : State) : KeepsOut [.flt, .tel, .host, .lane] s (execLaneTestWrite x1 s) := by
  unfold execLaneTestWrite
  try dsimp only
  repeat' first
    | with_reducible assumption
    | with_reducible apply Keeps.refl
    | with_reducible apply keepsOut_next
    | with_reducible apply keepsRes_okWrite
    | with_reducible intro _
    | with_reducible apply keeps_foldl
    | (with_reducible apply keeps_icoux; case w => decide)
    | (with_reducible apply Keeps.step (k := keeps_modLane _ _ _); case w => decide)
    | (with_reducible apply Keeps.step (k := keeps_clearChecker _ _); case w => decide)
    | split

theorem keeps_execLaneTestRead (x1 : Cmd) (s : State) : KeepsOut [.flt, .tel, .host] s (execLaneTestRead x1 s) := by
  unfold execLaneTestRead
  try dsimp only
  repeat' first
    | with_reducible apply Keeps.refl
    | with_reducible apply keepsOut_next
    | with_reducible apply keepsRes_okReply
    | with_reducible intro _
    | (with_reducible apply keeps_icoux; case w => decide)

theorem keeps_execEyeScan (x1 : Cmd) (s : State) : KeepsOut [.flt, .tel, .host, .lane] s (execEyeScan x1 s) := by
  unfold execEyeScan
  try dsimp only
  repeat' first
    | with_reducible apply Keeps.refl
    | with_reducible apply keepsOut_next
    | exact trivial
    | with_reducible apply keepsRes_okWrite
    | with_reducible intro _
    | (with_reducible apply keeps_icoux; case w => decide)
    | (with_reducible apply Keeps.step (k := keeps_modLane _ _ _); case w => decide)
    | split

theorem keeps_execEyeScanAbort (x1 : Cmd) (s : State) : KeepsOut [.flt, .tel, .host, .lane] s (execEyeScanAbort x1 s) := by
  unfold execEyeScanAbort
  try dsimp only
  repeat' first
    | with_reducible apply Keeps.refl
    | with_reducible apply keepsOut_next
    | with_reducible apply keepsRes_okWrite
    | with_reducible intro _
    | (with_reducible apply keeps_icoux; case w => decide)
    | (with_reducible apply Keeps.step (k := keeps_modLane _ _ _); case w => decide)

theorem keeps_execEyeStatus (x1 : Cmd) (s : State) : KeepsOut [.free, .flt, .tel, .host] s (execEyeStatus x1 s) := by
  unfold execEyeStatus
  try dsimp only
  repeat' first
    | with_reducible apply Keeps.refl
    | with_reducible apply keepsOut_next
    | with_reducible apply keepsRes_okReply
    | with_reducible intro _
    | (with_reducible apply keeps_icoux; case w => decide)
    | (with_reducible apply keeps_takeFree; case w => decide)

theorem keeps_execEyeResult (x1 : Cmd) (s : State) : KeepsOut [.flt, .tel, .host] s (execEyeResult x1 s) := by
  unfold execEyeResult
  try dsimp only
  repeat' first
    | with_reducible apply Keeps.refl
    | with_reducible apply keepsOut_next
    | with_reducible apply keepsRes_done
    | with_reducible intro _
    | (with_reducible apply keeps_icoux; case w => decide)

end Sys2Proof.Laws
end

