-- ==== Sys2Proof/Laws/KeepsMac.lean ====
section
/-!
SUPPORT. What the operations of Mac keep.
-/

set_option linter.all false

namespace Sys2Proof.Laws

open Sys2Proof Sys2Proof.Machine

theorem keeps_startFrame (x1 : Nat) (x2 : Bytes) (x3 : Nat) (x4 : Int) (x5 : Bool) (s : State) : Keeps [.fr] s (startFrame x1 x2 x3 x4 x5 s).2 := by
  unfold startFrame
  try dsimp only
  repeat' first
    | with_reducible apply Keeps.refl
    | (with_reducible apply Keeps.step (k := keeps_newFrame _ _); case w => decide)

theorem keeps_farEndHead (x1 : Nat) (x2 : Bool) (s : State) : Keeps [.tel, .fr] s (farEndHead x1 x2 s) := by
  unfold farEndHead
  try dsimp only
  repeat' first
    | with_reducible apply Keeps.refl
    | (with_reducible apply Keeps.step (k := keeps_countRxDrop _ _ _); case w => decide)
    | (with_reducible apply Keeps.step (k := keeps_setFrame _ _ _); case w => decide)
    | split

theorem keeps_receiveHead (x1 : Nat) (x2 : Bool) (s : State) : Keeps [.limits, .flt, .tel, .mac, .fr, .sw, .mat] s (receiveHead x1 x2 s) := by
  unfold receiveHead
  try dsimp only
  repeat' first
    | with_reducible apply Keeps.refl
    | (with_reducible apply Keeps.step (k := keeps_headChecks _ _ _); case w => decide)
    | (with_reducible apply Keeps.step (k := keeps_farEndHead _ _ _); case w => decide)
    | (with_reducible apply Keeps.step (k := keeps_forget _ _); case w => decide)
    | (with_reducible apply Keeps.step (k := keeps_clearRx _ _ _); case w => decide)
    | split

theorem keeps_execRxFrameHead (x1 : Port) (x2 : Bytes) (x3 : Bool) (x4 : Nat) (x5 : Int) (s : State) : KeepsOut [.limits, .flt, .tel, .mac, .fr, .sw, .mat] s (execRxFrameHead x1 x2 x3 x4 x5 s) := by
  unfold execRxFrameHead
  try dsimp only
  repeat' first
    | with_reducible apply Keeps.refl
    | with_reducible apply keepsOut_next
    | (with_reducible apply Keeps.step (k := keeps_startFrame _ _ _ _ _ _); case w => decide)
    | (with_reducible apply Keeps.step (k := keeps_receiveHead _ _ _); case w => decide)
    | (with_reducible apply Keeps.step (k := keeps_setMacPort _ _ _); case w => decide)
    | split

theorem keeps_execRxOversize (x1 : Port) (x2 : Bytes) (s : State) : KeepsOut [.free, .out, .limits, .flt, .tel, .mac, .fr, .sw, .mat, .buf, .sch, .pow] s (execRxOversize x1 x2 s) := by
  unfold execRxOversize
  try dsimp only
  repeat' first
    | with_reducible apply Keeps.refl
    | with_reducible apply keepsOut_next
    | (with_reducible apply Keeps.step (k := keeps_cutFrame _ _ _ _); case w => decide)
    | (with_reducible apply Keeps.step (k := keeps_moreBytes _ _ _); case w => decide)
    | split

theorem keeps_execRxPcsErrorMark (x1 : Port) (s : State) : KeepsOut [.free, .out, .limits, .flt, .tel, .mac, .fr, .sw, .buf, .sch, .pow] s (execRxPcsErrorMark x1 s) := by
  unfold execRxPcsErrorMark
  try dsimp only
  repeat' first
    | with_reducible apply Keeps.refl
    | with_reducible apply keepsOut_next
    | (with_reducible apply Keeps.step (k := keeps_cutFrame _ _ _ _); case w => decide)
    | split

theorem keeps_execRxFrameEnd (x1 : Port) (x2 : Bytes) (s : State) : KeepsOut [.free, .out, .limits, .flt, .tel, .mac, .fr, .sw, .mat, .buf, .sch, .pow] s (execRxFrameEnd x1 x2 s) := by
  unfold execRxFrameEnd
  try dsimp only
  repeat' first
    | with_reducible apply Keeps.refl
    | with_reducible apply keepsOut_next
    | (with_reducible apply Keeps.step (k := keeps_moreBytes _ _ _); case w => decide)
    | (with_reducible apply Keeps.step (k := keeps_clearRx _ _ _); case w => decide)
    | (with_reducible apply Keeps.step (k := keeps_endFrame _ _ _); case w => decide)
    | split

theorem keeps_execMacControlFrame (x1 : Port) (x2 : Bytes) (s : State) : KeepsOut [.limits, .flt, .tel, .mac, .fr, .sw] s (execMacControlFrame x1 x2 s) := by
  unfold execMacControlFrame
  try dsimp only
  repeat' first
    | with_reducible apply Keeps.refl
    | with_reducible apply keepsOut_next
    | (with_reducible apply Keeps.step (k := keeps_setFrame _ _ _); case w => decide)
    | (with_reducible apply Keeps.step (k := keeps_clearRx _ _ _); case w => decide)
    | (with_reducible apply Keeps.step (k := keeps_forget _ _); case w => decide)
    | (with_reducible apply Keeps.step (k := keeps_macControl _ _ _ _); case w => decide)
    | (with_reducible apply Keeps.step (k := keeps_macDrop _ _ _); case w => decide)
    | (with_reducible apply Keeps.step (k := keeps_countRxDrop _ _ _); case w => decide)
    | split

theorem keeps_fragmentError (x1 : Nat) (x2 : Nat) (s : State) : Keeps [.free, .out, .limits, .flt, .tel, .mac, .fr, .sw, .buf, .sch, .pow] s (fragmentError x1 x2 s) := by
  unfold fragmentError
  try dsimp only
  repeat' first
    | with_reducible apply Keeps.refl
    | (with_reducible apply Keeps.step (k := keeps_count _ _ _ _); case w => decide)
    | (with_reducible apply Keeps.step (k := keeps_dropPartial _ _ _); case w => decide)
    | (with_reducible apply Keeps.step (k := keeps_cutFrame _ _ _ _); case w => decide)
    | split

theorem keeps_assembledEnd (x1 : Nat) (x2 : Nat) (s : State) : Keeps [.free, .out, .limits, .flt, .tel, .mac, .fr, .sw, .buf, .sch, .pow] s (assembledEnd x1 x2 s) := by
  unfold assembledEnd
  try dsimp only
  repeat' first
    | with_reducible apply Keeps.refl
    | (with_reducible apply Keeps.step (k := keeps_count _ _ _ _); case w => decide)
    | (with_reducible apply Keeps.step (k := keeps_clearRx _ _ _); case w => decide)
    | (with_reducible apply Keeps.step (k := keeps_forget _ _); case w => decide)
    | (with_reducible apply Keeps.step (k := keeps_macControl _ _ _ _); case w => decide)
    | (with_reducible apply Keeps.step (k := keeps_setFrame _ _ _); case w => decide)
    | (with_reducible apply Keeps.step (k := keeps_macDrop _ _ _); case w => decide)
    | (with_reducible apply Keeps.step (k := keeps_countRxDrop _ _ _); case w => decide)
    | (with_reducible apply Keeps.step (k := keeps_endFrame _ _ _); case w => decide)
    | split

theorem keeps_execRxFragment (x1 : Port) (x2 : Fin 4) (x3 : Bool) (x4 : Bool) (x5 : Bytes) (x6 : Nat) (x7 : Int) (s : State) : KeepsOut [.free, .out, .limits, .flt, .tel, .mac, .fr, .sw, .mat, .buf, .sch, .pow] s (execRxFragment x1 x2 x3 x4 x5 x6 x7 s) := by
  unfold execRxFragment
  try dsimp only
  repeat' first
    | with_reducible apply Keeps.refl
    | with_reducible apply keepsOut_next
    | (with_reducible apply Keeps.step (k := keeps_count _ _ _ _); case w => decide)
    | (with_reducible apply Keeps.step (k := keeps_fragmentError _ _ _); case w => decide)
    | (with_reducible apply Keeps.step (k := keeps_cutFrame _ _ _ _); case w => decide)
    | (with_reducible apply Keeps.step (k := keeps_moreBytes _ _ _); case w => decide)
    | (with_reducible apply Keeps.step (k := keeps_assembledEnd _ _ _); case w => decide)
    | (with_reducible apply Keeps.step (k := keeps_setMacPort _ _ _); case w => decide)
    | (with_reducible apply Keeps.step (k := keeps_startFrame _ _ _ _ _ _); case w => decide)
    | (with_reducible apply Keeps.step (k := keeps_receiveHead _ _ _); case w => decide)
    | split

theorem keeps_execOccupancyReport (x1 : Quad) (x2 : Port) (s : State) : KeepsOut [.out, .tel, .mac] s (execOccupancyReport x1 x2 s) := by
  unfold execOccupancyReport
  try dsimp only
  repeat' first
    | with_reducible apply Keeps.refl
    | with_reducible apply keepsOut_next
    | (with_reducible apply Keeps.step (k := keeps_compareFlow _ _); case w => decide)
    | (with_reducible apply Keeps.step (k := keeps_setMacPort _ _ _); case w => decide)
    | split

theorem keeps_execPauseRefresh (x1 : Port) (s : State) : KeepsOut [.now, .out, .tel, .mac] s (execPauseRefresh x1 s) := by
  unfold execPauseRefresh
  try dsimp only
  repeat' first
    | with_reducible apply Keeps.refl
    | with_reducible apply keepsOut_next
    | (with_reducible apply keeps_reach; case w => decide)
    | (with_reducible apply Keeps.step (k := keeps_sendFlow _ _ _ _ _); case w => decide)
    | split

theorem keeps_execPauseTimerExpiry (x1 : Port) (x2 : Fin 8) (s : State) : KeepsOut [.now, .tel, .mac] s (execPauseTimerExpiry x1 x2 s) := by
  unfold execPauseTimerExpiry
  try dsimp only
  repeat' first
    | with_reducible apply Keeps.refl
    | with_reducible apply keepsOut_next
    | (with_reducible apply Keeps.step (k := keeps_endPause _ _ _ _); case w => decide)
    | (with_reducible apply keeps_reach; case w => decide)
    | split

theorem keeps_execPauseStorm (x1 : Port) (x2 : Fin 8) (s : State) : KeepsOut [.now, .flt, .tel, .mac] s (execPauseStorm x1 x2 s) := by
  unfold execPauseStorm
  try dsimp only
  repeat' first
    | with_reducible apply Keeps.refl
    | with_reducible apply keepsOut_next
    | (with_reducible apply keeps_reach; case w => decide)
    | (with_reducible apply Keeps.step (k := keeps_endPause _ _ _ _); case w => decide)
    | (with_reducible apply Keeps.step (k := keeps_kiln _ _ _); case w => decide)
    | (with_reducible apply Keeps.step (k := keeps_count _ _ _ _); case w => decide)
    | (with_reducible apply Keeps.step (k := keeps_setMacPort _ _ _); case w => decide)
    | split

theorem keeps_execStormRecovered (x1 : Port) (x2 : Fin 8) (s : State) : KeepsOut [.now, .flt, .mac] s (execStormRecovered x1 x2 s) := by
  unfold execStormRecovered
  try dsimp only
  repeat' first
    | with_reducible apply Keeps.refl
    | with_reducible apply keepsOut_next
    | (with_reducible apply keeps_reach; case w => decide)
    | (with_reducible apply Keeps.step (k := keeps_kiln _ _ _); case w => decide)
    | (with_reducible apply Keeps.step (k := keeps_setMacPort _ _ _); case w => decide)
    | split

theorem keeps_sendVerify (x1 : Nat) (s : State) : Keeps [.out, .mac] s (sendVerify x1 s) := by
  unfold sendVerify
  try dsimp only
  repeat' first
    | with_reducible apply Keeps.refl
    | (with_reducible apply keeps_emit; case w => decide)
    | (with_reducible apply Keeps.step (k := keeps_setMacPort _ _ _); case w => decide)

theorem keeps_execPreemptVerifyTimer (x1 : Port) (s : State) : KeepsOut [.now, .out, .flt, .mac] s (execPreemptVerifyTimer x1 s) := by
  unfold execPreemptVerifyTimer
  try dsimp only
  repeat' first
    | with_reducible apply Keeps.refl
    | with_reducible apply keepsOut_next
    | (with_reducible apply keeps_reach; case w => decide)
    | (with_reducible apply Keeps.step (k := keeps_sendVerify _ _); case w => decide)
    | (with_reducible apply Keeps.step (k := keeps_kiln _ _ _); case w => decide)
    | (with_reducible apply Keeps.step (k := keeps_setMacPort _ _ _); case w => decide)
    | split

theorem keeps_execPreemptVerify (x1 : Port) (s : State) : KeepsOut [.flt, .mac] s (execPreemptVerify x1 s) := by
  unfold execPreemptVerify
  try dsimp only
  repeat' first
    | with_reducible apply Keeps.refl
    | with_reducible apply keepsOut_next
    | (with_reducible apply Keeps.step (k := keeps_kiln _ _ _); case w => decide)
    | (with_reducible apply Keeps.step (k := keeps_setMacPort _ _ _); case w => decide)
    | split

theorem keeps_execMacFifo (x1 : Pipe) (x2 : Nat) (s : State) : KeepsOut [.limits, .flt, .tel, .mac, .fr, .sw] s (execMacFifo x1 x2 s) := by
  unfold execMacFifo
  try dsimp only
  repeat' first
    | with_reducible assumption
    | with_reducible apply Keeps.refl
    | with_reducible apply keepsOut_next
    | with_reducible intro _
    | (with_reducible apply keeps_detect; case w => decide)
    | (with_reducible apply Keeps.step (k := keeps_clearRx _ _ _); case w => decide)
    | (with_reducible apply Keeps.step (k := keeps_dropIn _ _ _ _ _); case w => decide)
    | (with_reducible apply keeps_modFr; case w => decide)
    | split

theorem keeps_execMacStore (x1 : Pipe) (s : State) : KeepsOut [.flt, .mac] s (execMacStore x1 s) := by
  unfold execMacStore
  try dsimp only
  repeat' first
    | with_reducible assumption
    | with_reducible apply Keeps.refl
    | with_reducible apply keepsOut_next
    | with_reducible intro _
    | (with_reducible apply keeps_detect; case w => decide)
    | (with_reducible apply Keeps.step (k := keeps_kilnInj _ _ _ _); case w => decide)
    | (with_reducible apply Keeps.step (k := keeps_setMacPipe _ _ _); case w => decide)

theorem keeps_execMacReload (x1 : Pipe) (s : State) : KeepsOut [.mac] s (execMacReload x1 s) := by
  unfold execMacReload
  try dsimp only
  repeat' first
    | with_reducible apply Keeps.refl
    | with_reducible apply keepsOut_next
    | (with_reducible apply Keeps.step (k := keeps_setMacPipe _ _ _); case w => decide)

theorem keeps_execPcsCheck (x1 : Port) (s : State) : KeepsOut [.free, .out, .limits, .flt, .tel, .mac, .fr, .sw, .buf, .sch, .pow] s (execPcsCheck x1 s) := by
  unfold execPcsCheck
  try dsimp only
  repeat' first
    | with_reducible assumption
    | with_reducible apply Keeps.refl
    | with_reducible apply keepsOut_next
    | with_reducible intro _
    | (with_reducible apply keeps_detect; case w => decide)
    | (with_reducible apply Keeps.step (k := keeps_cutReceived _ _); case w => decide)
    | split

theorem keeps_execMacFlow (x1 : Port) (s : State) : KeepsOut [.out, .flt, .tel, .mac] s (execMacFlow x1 s) := by
  unfold execMacFlow
  try dsimp only
  repeat' first
    | with_reducible assumption
    | with_reducible apply Keeps.refl
    | with_reducible apply keepsOut_next
    | with_reducible intro _
    | (with_reducible apply keeps_detect; case w => decide)
    | (with_reducible apply Keeps.step (k := keeps_sendFlow _ _ _ _ _); case w => decide)
    | (with_reducible apply Keeps.step (k := keeps_setMacPort _ _ _); case w => decide)
    | split

theorem keeps_execFlowResync (x1 : Port) (s : State) : KeepsOut [.out, .flt, .tel, .mac] s (execFlowResync x1 s) := by
  unfold execFlowResync
  try dsimp only
  repeat' first
    | with_reducible apply Keeps.refl
    | with_reducible apply keepsOut_next
    | (with_reducible apply Keeps.step (k := keeps_compareFlow _ _); case w => decide)
    | (with_reducible apply Keeps.step (k := keeps_kiln _ _ _); case w => decide)
    | (with_reducible apply Keeps.step (k := keeps_setMacPort _ _ _); case w => decide)
    | split

theorem keeps_removePort (x1 : Nat) (s : State) : Keeps [.time, .lane, .mac, .sw, .sch] s (removePort x1 s) := by
  unfold removePort
  try dsimp only
  repeat' first
    | with_reducible apply Keeps.refl
    | (with_reducible apply Keeps.step (k := keeps_portRemoved _ _); case w => decide)
    | (with_reducible apply keeps_modTime; case w => decide)
    | (with_reducible apply keeps_modLaneState; case w => decide)
    | (with_reducible apply keeps_modMac; case w => decide)

theorem keeps_applyPort (x1 : Nat) (x2 : Bytes) (s : State) : Keeps [.free, .out, .limits, .flt, .tel, .lane, .mac, .fr, .sw, .buf, .sch, .pow] s (applyPort x1 x2 s) := by
  unfold applyPort
  try dsimp only
  repeat' first
    | with_reducible apply Keeps.refl
    | (with_reducible apply Keeps.step (k := keeps_stopBringUp _ _); case w => decide)
    | (with_reducible apply Keeps.step (k := keeps_macPortStopped _ _); case w => decide)
    | (with_reducible apply Keeps.step (k := keeps_setMacPort _ _ _); case w => decide)
    | (with_reducible apply Keeps.step (k := keeps_startBringUp _ _); case w => decide)
    | split

theorem keeps_execPortConfigWrite (x1 : Cmd) (s : State) : KeepsOut [.free, .out, .limits, .time, .flt, .tel, .host, .lane, .mac, .fr, .sw, .buf, .sch, .pow] s (execPortConfigWrite x1 s) := by
  unfold execPortConfigWrite
  try dsimp only
  repeat' first
    | with_reducible apply Keeps.refl
    | with_reducible apply keepsOut_next
    | exact trivial
    | with_reducible apply keepsRes_okWrite
    | with_reducible intro _
    | (with_reducible apply keeps_icoux; case w => decide)
    | (with_reducible apply Keeps.step (k := keeps_kiln _ _ _); case w => decide)
    | (with_reducible apply Keeps.step (k := keeps_removePort _ _); case w => decide)
    | (with_reducible apply Keeps.step (k := keeps_applyPort _ _ _); case w => decide)
    | split

theorem keeps_execPortConfigRead (x1 : Cmd) (s : State) : KeepsOut [.flt, .tel, .host] s (execPortConfigRead x1 s) := by
  unfold execPortConfigRead
  try dsimp only
  repeat' first
    | with_reducible apply Keeps.refl
    | with_reducible apply keepsOut_next
    | with_reducible apply keepsRes_okReply
    | with_reducible intro _
    | (with_reducible apply keeps_icoux; case w => decide)

theorem keeps_execPortStatus (x1 : Cmd) (s : State) : KeepsOut [.flt, .tel, .host] s (execPortStatus x1 s) := by
  unfold execPortStatus
  try dsimp only
  repeat' first
    | with_reducible apply Keeps.refl
    | with_reducible apply keepsOut_next
    | with_reducible apply keepsRes_okReply
    | with_reducible intro _
    | (with_reducible apply keeps_icoux; case w => decide)

theorem keeps_execPortFlowWrite (x1 : Cmd) (s : State) : KeepsOut [.out, .flt, .tel, .host, .mac] s (execPortFlowWrite x1 s) := by
  unfold execPortFlowWrite
  try dsimp only
  repeat' first
    | with_reducible apply Keeps.refl
    | with_reducible apply keepsOut_next
    | with_reducible apply keepsRes_okWrite
    | with_reducible intro _
    | (with_reducible apply keeps_icoux; case w => decide)
    | (with_reducible apply Keeps.step (k := keeps_sendFlow _ _ _ _ _); case w => decide)
    | (with_reducible apply Keeps.step (k := keeps_setMacPort _ _ _); case w => decide)

theorem keeps_execPortFlowRead (x1 : Cmd) (s : State) : KeepsOut [.flt, .tel, .host] s (execPortFlowRead x1 s) := by
  unfold execPortFlowRead
  try dsimp only
  repeat' first
    | with_reducible apply Keeps.refl
    | with_reducible apply keepsOut_next
    | with_reducible apply keepsRes_okReply
    | with_reducible intro _
    | (with_reducible apply keeps_icoux; case w => decide)

theorem keeps_execPortPreemptWrite (x1 : Cmd) (s : State) : KeepsOut [.out, .flt, .tel, .host, .mac] s (execPortPreemptWrite x1 s) := by
  unfold execPortPreemptWrite
  try dsimp only
  repeat' first
    | with_reducible apply Keeps.refl
    | with_reducible apply keepsOut_next
    | with_reducible apply keepsRes_okWrite
    | with_reducible intro _
    | (with_reducible apply keeps_icoux; case w => decide)
    | (with_reducible apply Keeps.step (k := keeps_setMacPort _ _ _); case w => decide)
    | (with_reducible apply Keeps.step (k := keeps_sendVerify _ _); case w => decide)
    | split

theorem keeps_execPortPreemptRead (x1 : Cmd) (s : State) : KeepsOut [.flt, .tel, .host] s (execPortPreemptRead x1 s) := by
  unfold execPortPreemptRead
  try dsimp only
  repeat' first
    | with_reducible apply Keeps.refl
    | with_reducible apply keepsOut_next
    | with_reducible apply keepsRes_okReply
    | with_reducible intro _
    | (with_reducible apply keeps_icoux; case w => decide)

theorem keeps_execFrameFilterWrite (x1 : Cmd) (s : State) : KeepsOut [.limits, .flt, .tel, .host, .mac] s (execFrameFilterWrite x1 s) := by
  unfold execFrameFilterWrite
  try dsimp only
  repeat' first
    | with_reducible assumption
    | with_reducible apply Keeps.refl
    | with_reducible apply keepsOut_next
    | with_reducible apply keepsRes_okWrite
    | with_reducible intro _
    | with_reducible apply keeps_foldl
    | (with_reducible apply keeps_icoux; case w => decide)
    | (with_reducible apply Keeps.step (k := keeps_writeLimit _ _ _ _ _); case w => decide)
    | (with_reducible apply Keeps.step (k := keeps_setMacPipe _ _ _); case w => decide)

theorem keeps_execFrameFilterRead (x1 : Cmd) (s : State) : KeepsOut [.flt, .tel, .host] s (execFrameFilterRead x1 s) := by
  unfold execFrameFilterRead
  try dsimp only
  repeat' first
    | with_reducible apply Keeps.refl
    | with_reducible apply keepsOut_next
    | with_reducible apply keepsRes_okReply
    | with_reducible intro _
    | (with_reducible apply keeps_icoux; case w => decide)

end Sys2Proof.Laws
end

