-- ==== Sys2Proof/Laws/KeepsParser.lean ====
section
/-!
SUPPORT. What the operations of Parser keep.
-/

set_option linter.all false

namespace Sys2Proof.Laws

open Sys2Proof Sys2Proof.Machine

theorem keeps_setParserPipe (x1 : Nat) (x2 : ParserPipe) (s : State) : Keeps [.prs] s (setParserPipe x1 x2 s) := by
  unfold setParserPipe
  try dsimp only
  repeat' first
    | with_reducible apply Keeps.refl
    | (with_reducible apply keeps_modPrs; case w => decide)

theorem keeps_deliverMalformed (x1 : Nat) (x2 : Nat) (x3 : Bool) (s : State) : Keeps [.limits, .flt, .tel, .fr, .sw] s (deliverMalformed x1 x2 x3 s) := by
  unfold deliverMalformed
  try dsimp only
  repeat' first
    | with_reducible apply Keeps.refl
    | (with_reducible apply Keeps.step (k := keeps_deliver _ _); case w => decide)
    | (with_reducible apply Keeps.step (k := keeps_settleDeliveries _ _); case w => decide)
    | split

theorem keeps_endMalformed (x1 : Nat) (x2 : Nat) (s : State) : Keeps [.limits, .flt, .tel, .fr, .sw] s (endMalformed x1 x2 s) := by
  unfold endMalformed
  try dsimp only
  repeat' first
    | with_reducible apply Keeps.refl
    | (with_reducible apply Keeps.step (k := keeps_kilnOnce _ _ _ _); case w => decide)
    | (with_reducible apply Keeps.step (k := keeps_count _ _ _ _); case w => decide)
    | (with_reducible apply Keeps.step (k := keeps_dropFrame _ _ _ _); case w => decide)
    | (with_reducible apply Keeps.step (k := keeps_spend _ _); case w => decide)
    | (with_reducible apply Keeps.step (k := keeps_deliverMalformed _ _ _ _); case w => decide)
    | (with_reducible apply Keeps.step (k := keeps_modFrame _ _ _); case w => decide)
    | split

theorem keeps_runParse (x1 : Nat) (s : State) : Keeps [.limits, .flt, .tel, .fr, .sw, .pow] s (runParse x1 s) := by
  unfold runParse
  try dsimp only
  repeat' first
    | with_reducible apply Keeps.refl
    | (with_reducible apply Keeps.step (k := keeps_spendPipe _ _ _ _ _); case w => decide)
    | (with_reducible apply Keeps.step (k := keeps_count _ _ _ _); case w => decide)
    | (with_reducible apply Keeps.step (k := keeps_setFrame _ _ _); case w => decide)
    | (with_reducible apply Keeps.step (k := keeps_endMalformed _ _ _); case w => decide)
    | split

theorem keeps_execParseStart (x1 : Pipe) (x2 : Fin 4) (s : State) : KeepsOut [.limits, .flt, .tel, .fr, .sw, .pow] s (execParseStart x1 x2 s) := by
  unfold execParseStart
  try dsimp only
  repeat' first
    | with_reducible apply Keeps.refl
    | with_reducible apply keepsOut_next
    | (with_reducible apply Keeps.step (k := keeps_count _ _ _ _); case w => decide)
    | (with_reducible apply Keeps.step (k := keeps_setFrame _ _ _); case w => decide)
    | (with_reducible apply Keeps.step (k := keeps_runParse _ _); case w => decide)
    | (with_reducible apply Keeps.step (k := keeps_spendPipe _ _ _ _ _); case w => decide)
    | split

theorem keeps_execParseResume (x1 : Nat) (x2 : Bytes) (s : State) : KeepsOut [.limits, .flt, .tel, .fr, .sw, .mat, .pow] s (execParseResume x1 x2 s) := by
  unfold execParseResume
  try dsimp only
  repeat' first
    | with_reducible apply Keeps.refl
    | with_reducible apply keepsOut_next
    | (with_reducible apply Keeps.step (k := keeps_runParse _ _); case w => decide)
    | (with_reducible apply Keeps.step (k := keeps_moreBytes _ _ _); case w => decide)
    | split

theorem keeps_parserDrop (x1 : Nat) (s : State) : Keeps [.limits, .flt, .tel, .fr, .sw] s (parserDrop x1 s) := by
  unfold parserDrop
  try dsimp only
  repeat' first
    | with_reducible apply Keeps.refl
    | (with_reducible apply Keeps.step (k := keeps_dropFrame _ _ _ _); case w => decide)
    | (with_reducible apply Keeps.step (k := keeps_count _ _ _ _); case w => decide)

theorem keeps_execPrsStore (x1 : Pipe) (x2 : Option Nat) (s : State) : KeepsOut [.limits, .flt, .tel, .fr, .prs, .sw] s (execPrsStore x1 x2 s) := by
  unfold execPrsStore
  try dsimp only
  repeat' first
    | with_reducible assumption
    | with_reducible apply Keeps.refl
    | with_reducible apply keepsOut_next
    | with_reducible intro _
    | (with_reducible apply keeps_detect; case w => decide)
    | (with_reducible apply Keeps.step (k := keeps_parserDrop _ _); case w => decide)
    | (with_reducible apply Keeps.step (k := keeps_kilnInj _ _ _ _); case w => decide)
    | (with_reducible apply Keeps.step (k := keeps_setParserPipe _ _ _); case w => decide)
    | split

theorem keeps_execPrsVector (x1 : Pipe) (x2 : Nat) (s : State) : KeepsOut [.limits, .flt, .tel, .fr, .sw] s (execPrsVector x1 x2 s) := by
  unfold execPrsVector
  try dsimp only
  repeat' first
    | with_reducible assumption
    | with_reducible apply Keeps.refl
    | with_reducible apply keepsOut_next
    | with_reducible intro _
    | (with_reducible apply keeps_detect; case w => decide)
    | (with_reducible apply Keeps.step (k := keeps_parserDrop _ _); case w => decide)
    | split

theorem keeps_execPrsHang (x1 : Pipe) (x2 : Nat) (s : State) : KeepsOut [.limits, .flt, .tel, .fr, .sw] s (execPrsHang x1 x2 s) := by
  unfold execPrsHang
  try dsimp only
  repeat' first
    | with_reducible assumption
    | with_reducible apply Keeps.refl
    | with_reducible apply keepsOut_next
    | with_reducible intro _
    | (with_reducible apply keeps_detect; case w => decide)
    | (with_reducible apply Keeps.step (k := keeps_parserDrop _ _); case w => decide)
    | (with_reducible apply Keeps.step (k := keeps_kilnInj _ _ _ _); case w => decide)
    | split

theorem keeps_execPrsCheck (x1 : Pipe) (x2 : Nat) (s : State) : KeepsOut [.limits, .flt, .tel, .fr, .sw] s (execPrsCheck x1 x2 s) := by
  unfold execPrsCheck
  try dsimp only
  repeat' first
    | with_reducible assumption
    | with_reducible apply Keeps.refl
    | with_reducible apply keepsOut_next
    | with_reducible intro _
    | (with_reducible apply keeps_detect; case w => decide)
    | (with_reducible apply Keeps.step (k := keeps_parserDrop _ _); case w => decide)
    | split

theorem keeps_execParserReload (x1 : Pipe) (s : State) : KeepsOut [.prs] s (execParserReload x1 s) := by
  unfold execParserReload
  try dsimp only
  repeat' first
    | with_reducible apply Keeps.refl
    | with_reducible apply keepsOut_next
    | (with_reducible apply Keeps.step (k := keeps_setParserPipe _ _ _); case w => decide)

theorem keeps_execParserMalformedWrite (x1 : Cmd) (s : State) : KeepsOut [.limits, .flt, .tel, .host, .prs] s (execParserMalformedWrite x1 s) := by
  unfold execParserMalformedWrite
  try dsimp only
  repeat' first
    | with_reducible assumption
    | with_reducible apply Keeps.refl
    | with_reducible apply keepsOut_next
    | with_reducible apply keepsRes_okWrite
    | with_reducible intro _
    | with_reducible apply keeps_foldl
    | (with_reducible apply keeps_icoux; case w => decide)
    | (with_reducible apply Keeps.step (k := keeps_writeLimit _ _ _ _ _); case w => decide)
    | (with_reducible apply Keeps.step (k := keeps_setParserPipe _ _ _); case w => decide)

theorem keeps_execParserMalformedRead (x1 : Cmd) (s : State) : KeepsOut [.flt, .tel, .host] s (execParserMalformedRead x1 s) := by
  unfold execParserMalformedRead
  try dsimp only
  repeat' first
    | with_reducible apply Keeps.refl
    | with_reducible apply keepsOut_next
    | with_reducible apply keepsRes_okReply
    | with_reducible intro _
    | (with_reducible apply keeps_icoux; case w => decide)

end Sys2Proof.Laws
end

