-- ==== Sys2Proof/Laws/KeepsMat.lean ====
section
/-!
SUPPORT. What the operations of Mat keep.
-/

set_option linter.all false

namespace Sys2Proof.Laws

open Sys2Proof Sys2Proof.Machine

theorem keeps_setStage (x1 : Nat) (x2 : Nat) (x3 : MatStage) (s : State) : Keeps [.mat] s (setStage x1 x2 x3 s) := by
  unfold setStage
  try dsimp only
  repeat' first
    | with_reducible apply Keeps.refl
    | (with_reducible apply keeps_modMat; case w => decide)

theorem keeps_modStage (x1 : Nat) (x2 : Nat) (x3 : MatStage → MatStage) (s : State) : Keeps [.mat] s (modStage x1 x2 x3 s) := by
  unfold modStage
  try dsimp only
  repeat' first
    | with_reducible apply Keeps.refl
    | (with_reducible apply Keeps.step (k := keeps_setStage _ _ _ _); case w => decide)

theorem keeps_makeWrites (x1 : Nat) (x2 : List MatWrite) (s : State) : Keeps [.mat] s (makeWrites x1 x2 s).2 := by
  unfold makeWrites
  try dsimp only
  repeat' first
    | with_reducible assumption
    | with_reducible apply Keeps.refl
    | with_reducible intro _
    | with_reducible apply keeps_pair_foldl
    | (with_reducible apply Keeps.step (k := keeps_modStage _ _ _ _); case w => decide)

end Sys2Proof.Laws
end

