-- ==== Sys2Proof/Laws/KeepsAct.lean ====
section
/-!
SUPPORT. What the operations of Act keep.
-/

set_option linter.all false

namespace Sys2Proof.Laws

open Sys2Proof Sys2Proof.Machine

theorem keeps_setCtx (x1 : Nat) (x2 : Nat) (x3 : Nat) (x4 : Ctx) (s : State) : Keeps [.mat] s (setCtx x1 x2 x3 x4 s) := by
  unfold setCtx
  try dsimp only
  repeat' first
    | with_reducible apply Keeps.refl
    | (with_reducible apply Keeps.step (k := keeps_modStage _ _ _ _); case w => decide)

theorem keeps_countAct (x1 : Nat) (x2 : Nat) (x3 : Nat) (x4 : Nat) (s : State) : Keeps [.tel] s (countAct x1 x2 x3 x4 s) := by
  unfold countAct
  try dsimp only
  repeat' first
    | with_reducible apply Keeps.refl
    | (with_reducible apply Keeps.step (k := keeps_count _ _ _ _); case w => decide)

theorem keeps_abandon (x1 : Nat) (x2 : Nat) (x3 : Nat) (x4 : Nat) (x5 : CopyInfo) (s : State) : Keeps [.limits, .flt, .tel, .fr, .sw, .mat] s (abandon x1 x2 x3 x4 x5 s) := by
  unfold abandon
  try dsimp only
  repeat' first
    | with_reducible apply Keeps.refl
    | (with_reducible apply Keeps.step (k := keeps_dropFrame _ _ _ _); case w => decide)
    | (with_reducible apply Keeps.step (k := keeps_modStage _ _ _ _); case w => decide)
    | split

theorem keeps_routineError (x1 : Nat) (x2 : Nat) (x3 : Nat) (x4 : Nat) (s : State) : Keeps [.limits, .flt, .tel, .fr, .sw, .mat] s (routineError x1 x2 x3 x4 s) := by
  unfold routineError
  try dsimp only
  repeat' first
    | with_reducible apply Keeps.refl
    | (with_reducible apply Keeps.step (k := keeps_abandon _ _ _ _ _ _); case w => decide)
    | (with_reducible apply Keeps.step (k := keeps_kilnOnce _ _ _ _); case w => decide)
    | (with_reducible apply Keeps.step (k := keeps_countAct _ _ _ _ _); case w => decide)

theorem keeps_applyMemOp (x1 : Nat) (x2 : Nat) (x3 : MemOp) (s : State) : Keeps [.tel, .mat] s (applyMemOp x1 x2 x3 s) := by
  unfold applyMemOp
  try dsimp only
  repeat' first
    | with_reducible apply Keeps.refl
    | (with_reducible apply Keeps.step (k := keeps_modStage _ _ _ _); case w => decide)
    | (with_reducible apply Keeps.step (k := keeps_count _ _ _ _); case w => decide)
    | split

theorem keeps_lengthSeen (f : Frame) (s : State) : Keeps [.free] s (lengthSeen f s).2 := by
  unfold lengthSeen
  split
  · exact Keeps.refl _ _
  · exact keeps_takeFree (Keeps.refl _ _) (by decide)

theorem keeps_runNano (x1 : Nat) (x2 : Nat) (x3 : Nat) (x4 : Nat) (x5 : Nat) (x6 : Ctx) (s : State) : KeepsExc [.free, .tel, .mat, .pow] s (runNano x1 x2 x3 x4 x5 x6 s) := by
  unfold runNano
  try dsimp only
  repeat' first
    | with_reducible apply Keeps.refl
    | with_reducible apply keepsExc_error
    | with_reducible apply keepsExc_ok
    | (with_reducible apply Keeps.step (k := keeps_count _ _ _ _); case w => decide)
    | (with_reducible apply Keeps.step (k := keeps_modStage _ _ _ _); case w => decide)
    | (with_reducible apply Keeps.step (k := keeps_spendPipe _ _ _ _ _); case w => decide)
    | (with_reducible apply Keeps.step (k := keeps_countAct _ _ _ _ _); case w => decide)
    | (with_reducible apply Keeps.step (k := keeps_lengthSeen _ _); case w => decide)
    | split

theorem keeps_runMicro (x1 : Nat) (x2 : Nat) (x3 : Nat) (x4 : Ctx) (s : State) : Keeps [.free, .limits, .flt, .tel, .fr, .sw, .mat, .pow] s (runMicro x1 x2 x3 x4 s) := by
  unfold runMicro
  try dsimp only
  repeat' first
    | with_reducible apply Keeps.refl
    | (with_reducible apply keeps_exc_step (k := keeps_runNano _ _ _ _ _ _ _); (case e => with_reducible assumption); case w => decide)
    | (with_reducible apply Keeps.step (k := keeps_routineError _ _ _ _ _); case w => decide)
    | (with_reducible apply Keeps.step (k := keeps_setCtx _ _ _ _ _); case w => decide)
    | split

theorem keeps_wordBad (x1 : Nat) (x2 : Nat) (x3 : Nat) (x4 : Nat) (s : State) : Keeps [.flt, .mat] s (wordBad x1 x2 x3 x4 s) := by
  unfold wordBad
  try dsimp only
  repeat' first
    | with_reducible assumption
    | with_reducible apply Keeps.refl
    | with_reducible intro _
    | (with_reducible apply Keeps.step (k := keeps_modStage _ _ _ _); case w => decide)
    | (with_reducible apply keeps_detect; case w => decide)
    | (with_reducible apply Keeps.step (k := keeps_kilnInj _ _ _ _); case w => decide)
    | split

theorem keeps_machineCheck (x1 : Nat) (x2 : Nat) (x3 : Nat) (x4 : Nat) (x5 : Nat) (s : State) : Keeps [.limits, .flt, .tel, .fr, .sw, .mat] s (machineCheck x1 x2 x3 x4 x5 s) := by
  unfold machineCheck
  try dsimp only
  repeat' first
    | with_reducible apply Keeps.refl
    | (with_reducible apply Keeps.step (k := keeps_abandon _ _ _ _ _ _); case w => decide)
    | (with_reducible apply Keeps.step (k := keeps_countAct _ _ _ _ _); case w => decide)
    | (with_reducible apply Keeps.step (k := keeps_wordBad _ _ _ _ _); case w => decide)

theorem keeps_execRoutineIssue (x1 : Nat) (s : State) : KeepsOut [.tel, .fr, .mat] s (execRoutineIssue x1 s) := by
  unfold execRoutineIssue
  try dsimp only
  repeat' first
    | with_reducible apply Keeps.refl
    | with_reducible apply keepsOut_next
    | (with_reducible apply Keeps.step (k := keeps_countAct _ _ _ _ _); case w => decide)
    | (with_reducible apply Keeps.step (k := keeps_setCtx _ _ _ _ _); case w => decide)
    | (with_reducible apply Keeps.step (k := keeps_modFrame _ _ _); case w => decide)
    | split

theorem keeps_execMicrowordExecute (x1 : Pipe) (x2 : StageNo) (x3 : Fin 64) (x4 : Nat) (s : State) : KeepsOut [.free, .limits, .flt, .tel, .fr, .sw, .mat, .pow] s (execMicrowordExecute x1 x2 x3 x4 s) := by
  unfold execMicrowordExecute
  try dsimp only
  repeat' first
    | with_reducible apply Keeps.refl
    | with_reducible apply keepsOut_next
    | (with_reducible apply Keeps.step (k := keeps_machineCheck _ _ _ _ _ _); case w => decide)
    | (with_reducible apply Keeps.step (k := keeps_setCtx _ _ _ _ _); case w => decide)
    | (with_reducible apply Keeps.step (k := keeps_runMicro _ _ _ _ _); case w => decide)
    | (with_reducible apply Keeps.step (k := keeps_countAct _ _ _ _ _); case w => decide)
    | split

theorem keeps_execMemoryResultReturn (x1 : Pipe) (x2 : StageNo) (x3 : Fin 64) (x4 : Fin 4) (s : State) : KeepsOut [.mat] s (execMemoryResultReturn x1 x2 x3 x4 s) := by
  unfold execMemoryResultReturn
  try dsimp only
  repeat' first
    | with_reducible apply Keeps.refl
    | with_reducible apply keepsOut_next
    | (with_reducible apply Keeps.step (k := keeps_setCtx _ _ _ _ _); case w => decide)
    | split

theorem keeps_execLockGranted (x1 : Pipe) (x2 : StageNo) (x3 : Fin 64) (s : State) : KeepsOut [.mat] s (execLockGranted x1 x2 x3 s) := by
  unfold execLockGranted
  try dsimp only
  repeat' first
    | with_reducible apply Keeps.refl
    | with_reducible apply keepsOut_next
    | (with_reducible apply Keeps.step (k := keeps_setCtx _ _ _ _ _); case w => decide)
    | (with_reducible apply Keeps.step (k := keeps_modStage _ _ _ _); case w => decide)
    | split

theorem keeps_execWaitResume (x1 : Pipe) (x2 : StageNo) (x3 : Fin 64) (x4 : Nat) (s : State) : KeepsOut [.free, .limits, .flt, .tel, .fr, .sw, .mat, .pow] s (execWaitResume x1 x2 x3 x4 s) := by
  unfold execWaitResume
  try dsimp only
  repeat' first
    | with_reducible apply Keeps.refl
    | with_reducible apply keepsOut_next
    | (with_reducible apply Keeps.step (k := keeps_machineCheck _ _ _ _ _ _); case w => decide)
    | (with_reducible apply Keeps.step (k := keeps_runMicro _ _ _ _ _); case w => decide)
    | (with_reducible apply Keeps.step (k := keeps_countAct _ _ _ _ _); case w => decide)
    | split

theorem keeps_execRoutineCommit (x1 : Pipe) (x2 : StageNo) (x3 : Fin 64) (x4 : Nat) (s : State) : KeepsOut [.tel, .fr, .mat] s (execRoutineCommit x1 x2 x3 x4 s) := by
  unfold execRoutineCommit
  try dsimp only
  repeat' first
    | with_reducible assumption
    | with_reducible apply Keeps.refl
    | with_reducible apply keepsOut_next
    | with_reducible intro _
    | with_reducible apply keeps_foldl
    | (with_reducible apply Keeps.step (k := keeps_modFrame _ _ _); case w => decide)
    | (with_reducible apply Keeps.step (k := keeps_applyMemOp _ _ _ _); case w => decide)
    | (with_reducible apply Keeps.step (k := keeps_modStage _ _ _ _); case w => decide)
    | (with_reducible apply Keeps.step (k := keeps_countAct _ _ _ _ _); case w => decide)
    | split

theorem keeps_execActMicro (x1 : Pipe) (x2 : StageNo) (x3 : Fin 8192) (x4 : Option (Fin 64)) (s : State) : KeepsOut [.limits, .flt, .tel, .fr, .sw, .mat] s (execActMicro x1 x2 x3 x4 s) := by
  unfold execActMicro
  try dsimp only
  repeat' first
    | with_reducible apply Keeps.refl
    | with_reducible apply keepsOut_next
    | (with_reducible apply Keeps.step (k := keeps_wordBad _ _ _ _ _); case w => decide)
    | (with_reducible apply Keeps.step (k := keeps_machineCheck _ _ _ _ _ _); case w => decide)
    | split

theorem keeps_execActNano (x1 : Pipe) (x2 : StageNo) (x3 : Fin 1024) (x4 : Option (Fin 64)) (s : State) : KeepsOut [.limits, .flt, .tel, .fr, .sw, .mat] s (execActNano x1 x2 x3 x4 s) := by
  unfold execActNano
  try dsimp only
  repeat' first
    | with_reducible apply Keeps.refl
    | with_reducible apply keepsOut_next
    | (with_reducible apply Keeps.step (k := keeps_wordBad _ _ _ _ _); case w => decide)
    | (with_reducible apply Keeps.step (k := keeps_machineCheck _ _ _ _ _ _); case w => decide)
    | split

theorem keeps_execActContext (x1 : Pipe) (x2 : StageNo) (x3 : Fin 64) (s : State) : KeepsOut [.limits, .flt, .tel, .fr, .sw, .mat] s (execActContext x1 x2 x3 s) := by
  unfold execActContext
  try dsimp only
  repeat' first
    | with_reducible assumption
    | with_reducible apply Keeps.refl
    | with_reducible apply keepsOut_next
    | with_reducible intro _
    | (with_reducible apply keeps_detect; case w => decide)
    | (with_reducible apply Keeps.step (k := keeps_abandon _ _ _ _ _ _); case w => decide)
    | split

theorem keeps_execActHang (x1 : Pipe) (x2 : StageNo) (x3 : Fin 64) (s : State) : KeepsOut [.limits, .flt, .tel, .fr, .sw, .mat] s (execActHang x1 x2 x3 s) := by
  unfold execActHang
  try dsimp only
  repeat' first
    | with_reducible assumption
    | with_reducible apply Keeps.refl
    | with_reducible apply keepsOut_next
    | with_reducible intro _
    | (with_reducible apply keeps_detect; case w => decide)
    | (with_reducible apply Keeps.step (k := keeps_abandon _ _ _ _ _ _); case w => decide)
    | (with_reducible apply Keeps.step (k := keeps_kilnInj _ _ _ _); case w => decide)
    | (with_reducible apply Keeps.step (k := keeps_countAct _ _ _ _ _); case w => decide)
    | split

theorem keeps_execStoreReload (x1 : Pipe) (x2 : StageNo) (x3 : Fin 2) (x4 : Option (Fin 8192)) (s : State) : KeepsOut [.flt, .mat] s (execStoreReload x1 x2 x3 x4 s) := by
  unfold execStoreReload
  try dsimp only
  repeat' first
    | with_reducible apply Keeps.refl
    | with_reducible apply keepsOut_next
    | (with_reducible apply Keeps.step (k := keeps_kiln _ _ _); case w => decide)
    | (with_reducible apply Keeps.step (k := keeps_modStage _ _ _ _); case w => decide)
    | split

theorem keeps_execStateRowReset (x1 : Pipe) (x2 : StageNo) (x3 : Nat) (x4 : Option (Fin 64)) (s : State) : KeepsOut [.limits, .flt, .tel, .fr, .sw, .mat] s (execStateRowReset x1 x2 x3 x4 s) := by
  unfold execStateRowReset
  try dsimp only
  repeat' first
    | with_reducible assumption
    | with_reducible apply Keeps.refl
    | with_reducible apply keepsOut_next
    | with_reducible intro _
    | (with_reducible apply keeps_detect; case w => decide)
    | (with_reducible apply Keeps.step (k := keeps_abandon _ _ _ _ _ _); case w => decide)
    | (with_reducible apply Keeps.step (k := keeps_count _ _ _ _); case w => decide)
    | (with_reducible apply Keeps.step (k := keeps_modStage _ _ _ _); case w => decide)
    | (with_reducible apply Keeps.step (k := keeps_kilnInj _ _ _ _); case w => decide)
    | (with_reducible apply Keeps.step (k := keeps_countAct _ _ _ _ _); case w => decide)
    | split

end Sys2Proof.Laws
end

