-- ==== Sys2Proof/Laws/KeepsAdmission.lean ====
section
/-!
SUPPORT. What the operations of Admission keep.
-/

set_option linter.all false

namespace Sys2Proof.Laws

open Sys2Proof Sys2Proof.Machine

theorem keeps_admitMember (t : Transfer) (a : Option (List Nat) × State) (m : Nat × Nat) : Keeps [.limits, .flt, .tel, .fr, .sw, .buf, .pow] a.2 (admitMember t a m).2 := by
  unfold admitMember
  dsimp only
  repeat' first
    | with_reducible assumption
    | with_reducible apply Keeps.refl
    | (with_reducible apply keeps_of_pair; case e => with_reducible assumption)
    | (with_reducible apply Keeps.step (k := keeps_dropCopyIn _ _ _ _ _ _); case w => decide)
    | (with_reducible apply Keeps.step (k := keeps_admitCopy _ _ _); case w => decide)
    | (with_reducible apply Keeps.step (k := keeps_mirrorFrame _ _ _); case w => decide)
    | with_reducible intro _
    | with_reducible apply keeps_foldl
    | split
    | dsimp only

theorem keeps_allocConflict (x1 : Nat) (s : State) : Keeps [.flt, .tel, .buf] s (allocConflict x1 s) := by
  unfold allocConflict
  try dsimp only
  repeat' first
    | with_reducible assumption
    | with_reducible apply Keeps.refl
    | with_reducible intro _
    | (with_reducible apply keeps_detect; case w => decide)
    | (with_reducible apply Keeps.step (k := keeps_kilnInj _ _ _ _); case w => decide)
    | (with_reducible apply Keeps.step (k := keeps_count _ _ _ _); case w => decide)
    | (with_reducible apply Keeps.step (k := keeps_modQuad _ _ _); case w => decide)
    | split

theorem keeps_countMcast (x1 : Transfer) (x2 : Nat) (s : State) : Keeps [.tel] s (countMcast x1 x2 s) := by
  unfold countMcast
  try dsimp only
  repeat' first
    | with_reducible apply Keeps.refl
    | (with_reducible apply Keeps.step (k := keeps_count _ _ _ _); case w => decide)
    | split

theorem keeps_execTransferAdmission (x1 : Nat) (x2 : Bool) (s : State) : KeepsOut [.limits, .flt, .tel, .fr, .sw, .buf, .pow] s (execTransferAdmission x1 x2 s) := by
  unfold execTransferAdmission
  try dsimp only
  repeat' first
    | with_reducible assumption
    | with_reducible apply Keeps.refl
    | with_reducible apply keepsOut_next
    | with_reducible intro _
    | with_reducible apply keeps_foldl
    | with_reducible apply keeps_pair_foldl
    | (with_reducible apply keeps_modSw; case w => decide)
    | (with_reducible apply Keeps.step (k := keeps_allocConflict _ _); case w => decide)
    | (with_reducible apply Keeps.step (k := keeps_countMcast _ _ _); case w => decide)
    | (with_reducible apply Keeps.step (k := keeps_dropIn _ _ _ _ _); case w => decide)
    | (with_reducible apply Keeps.step (k := keeps_admitMember _ _ _); case w => decide)
    | (with_reducible apply Keeps.step (k := keeps_settleFrame _ _); case w => decide)
    | split

theorem keeps_modTransfer (x1 : Nat) (x2 : Transfer → Transfer) (s : State) : Keeps [.sw] s (modTransfer x1 x2 s) := by
  unfold modTransfer
  try dsimp only
  repeat' first
    | with_reducible apply Keeps.refl
    | (with_reducible apply keeps_modSw; case w => decide)

theorem keeps_countCrossing (x1 : Nat) (x2 : Transfer) (s : State) : Keeps [.tel, .sw] s (countCrossing x1 x2 s) := by
  unfold countCrossing
  try dsimp only
  repeat' first
    | with_reducible apply Keeps.refl
    | (with_reducible apply Keeps.step (k := keeps_count _ _ _ _); case w => decide)
    | (with_reducible apply keeps_modSw; case w => decide)
    | split

theorem keeps_arrive (x1 : Nat) (x2 : Transfer) (s : State) : Keeps [.tel, .sw] s (arrive x1 x2 s) := by
  unfold arrive
  try dsimp only
  repeat' first
    | with_reducible apply Keeps.refl
    | (with_reducible apply Keeps.step (k := keeps_modTransfer _ _ _); case w => decide)
    | (with_reducible apply Keeps.step (k := keeps_countCrossing _ _ _); case w => decide)

theorem keeps_loseDirection (x1 : Nat) (x2 : Nat) (s : State) : Keeps [.free, .out, .limits, .flt, .tel, .fr, .sw, .buf, .sch, .pow] s (loseDirection x1 x2 s) := by
  unfold loseDirection
  try dsimp only
  repeat' first
    | with_reducible assumption
    | with_reducible apply Keeps.refl
    | with_reducible intro _
    | with_reducible apply keeps_foldl
    | (with_reducible apply Keeps.step (k := keeps_dropTransfer _ _ _ _); case w => decide)
    | (with_reducible apply keeps_takeFree; case w => decide)
    | (with_reducible apply Keeps.step (k := keeps_stompCopy _ _ _ _ _); case w => decide)
    | (with_reducible apply Keeps.step (k := keeps_dropCopy _ _ _ _); case w => decide)
    | (with_reducible apply keeps_modSw; case w => decide)
    | split

theorem keeps_replayFails (x1 : Nat) (s : State) : Keeps [.free, .out, .limits, .flt, .tel, .fr, .sw, .buf, .sch, .pow] s (replayFails x1 s) := by
  unfold replayFails
  try dsimp only
  repeat' first
    | with_reducible assumption
    | with_reducible apply Keeps.refl
    | with_reducible intro _
    | (with_reducible apply keeps_modSw; case w => decide)
    | (with_reducible apply keeps_detect; case w => decide)
    | (with_reducible apply Keeps.step (k := keeps_loseDirection _ _ _); case w => decide)
    | split

theorem keeps_execMeshFlitReceived (x1 : LinkDir) (x2 : Nat) (x3 : Fin 4) (s : State) : KeepsOut [.free, .out, .limits, .flt, .tel, .fr, .sw, .buf, .sch, .pow] s (execMeshFlitReceived x1 x2 x3 s) := by
  unfold execMeshFlitReceived
  try dsimp only
  repeat' first
    | with_reducible apply Keeps.refl
    | with_reducible apply keepsOut_next
    | (with_reducible apply Keeps.step (k := keeps_arrive _ _ _); case w => decide)
    | (with_reducible apply Keeps.step (k := keeps_count _ _ _ _); case w => decide)
    | (with_reducible apply Keeps.step (k := keeps_replayFails _ _); case w => decide)
    | split

theorem keeps_execRelayTransfer (x1 : Nat) (s : State) : KeepsOut [.sw] s (execRelayTransfer x1 s) := by
  unfold execRelayTransfer
  try dsimp only
  repeat' first
    | with_reducible apply Keeps.refl
    | with_reducible apply keepsOut_next
    | (with_reducible apply keeps_modSw; case w => decide)
    | split

theorem keeps_execMeshCreditAudit (x1 : LinkDir) (x2 : Bool) (s : State) : KeepsOut [.flt] s (execMeshCreditAudit x1 x2 s) := by
  unfold execMeshCreditAudit
  try dsimp only
  repeat' first
    | with_reducible apply Keeps.refl
    | with_reducible apply keepsOut_next
    | (with_reducible apply Keeps.step (k := keeps_raiseFault _ _ _ _ _); case w => decide)
    | split

theorem keeps_execMeshRetrain (x1 : LinkDir) (s : State) : KeepsOut [.flt, .sw] s (execMeshRetrain x1 s) := by
  unfold execMeshRetrain
  try dsimp only
  repeat' first
    | with_reducible apply Keeps.refl
    | with_reducible apply keepsOut_next
    | (with_reducible apply Keeps.step (k := keeps_kiln _ _ _); case w => decide)
    | (with_reducible apply keeps_modSw; case w => decide)
    | split

theorem keeps_linkDown (x1 : Nat) (s : State) : Keeps [.free, .out, .limits, .flt, .tel, .fr, .sw, .buf, .sch, .pow] s (linkDown x1 s) := by
  unfold linkDown
  try dsimp only
  repeat' first
    | with_reducible apply Keeps.refl
    | (with_reducible apply Keeps.step (k := keeps_kiln _ _ _); case w => decide)
    | (with_reducible apply Keeps.step (k := keeps_loseDirection _ _ _); case w => decide)
    | (with_reducible apply keeps_modSw; case w => decide)

theorem keeps_execMeshLink (x1 : LinkNo) (s : State) : KeepsOut [.free, .out, .limits, .flt, .tel, .fr, .sw, .buf, .sch, .pow] s (execMeshLink x1 s) := by
  unfold execMeshLink
  try dsimp only
  repeat' first
    | with_reducible assumption
    | with_reducible apply Keeps.refl
    | with_reducible apply keepsOut_next
    | with_reducible intro _
    | (with_reducible apply keeps_detect; case w => decide)
    | (with_reducible apply Keeps.step (k := keeps_linkDown _ _); case w => decide)
    | split

theorem keeps_execMeshTrainRetry (x1 : LinkNo) (x2 : Bool) (s : State) : KeepsOut [.flt, .sw] s (execMeshTrainRetry x1 x2 s) := by
  unfold execMeshTrainRetry
  try dsimp only
  repeat' first
    | with_reducible apply Keeps.refl
    | with_reducible apply keepsOut_next
    | (with_reducible apply Keeps.step (k := keeps_kiln _ _ _); case w => decide)
    | (with_reducible apply keeps_modSw; case w => decide)
    | split

theorem keeps_execMeshMgmt (x1 : LinkNo) (s : State) : KeepsOut [.flt] s (execMeshMgmt x1 s) := by
  unfold execMeshMgmt
  try dsimp only
  repeat' first
    | with_reducible apply Keeps.refl
    | with_reducible apply keepsOut_next
    | (with_reducible apply Keeps.step (k := keeps_raiseFault _ _ _ _ _); case w => decide)

theorem keeps_execSwcRepl (x1 : Nat) (s : State) : KeepsOut [.free, .flt, .sw] s (execSwcRepl x1 s) := by
  unfold execSwcRepl
  try dsimp only
  repeat' first
    | with_reducible assumption
    | with_reducible apply Keeps.refl
    | with_reducible apply keepsOut_next
    | with_reducible intro _
    | (with_reducible apply keeps_detect; case w => decide)
    | (with_reducible apply keeps_takeFree; case w => decide)
    | (with_reducible apply Keeps.step (k := keeps_kilnInj _ _ _ _); case w => decide)
    | (with_reducible apply keeps_modSw; case w => decide)
    | split

theorem keeps_execSwcMirror (x1 : Quad) (x2 : Fin 16) (s : State) : KeepsOut [.free, .flt, .sw] s (execSwcMirror x1 x2 s) := by
  unfold execSwcMirror
  try dsimp only
  repeat' first
    | with_reducible assumption
    | with_reducible apply Keeps.refl
    | with_reducible apply keepsOut_next
    | with_reducible intro _
    | (with_reducible apply keeps_detect; case w => decide)
    | (with_reducible apply keeps_takeFree; case w => decide)
    | (with_reducible apply Keeps.step (k := keeps_kilnInj _ _ _ _); case w => decide)
    | (with_reducible apply keeps_modSw; case w => decide)

theorem keeps_execSwcPath (x1 : Quad) (x2 : Option Nat) (x3 : Option Nat) (s : State) : KeepsOut [.limits, .flt, .tel, .fr, .sw] s (execSwcPath x1 x2 x3 s) := by
  unfold execSwcPath
  try dsimp only
  repeat' first
    | with_reducible assumption
    | with_reducible apply Keeps.refl
    | with_reducible apply keepsOut_next
    | with_reducible intro _
    | (with_reducible apply keeps_detect; case w => decide)
    | (with_reducible apply Keeps.step (k := keeps_settleFrame _ _); case w => decide)
    | (with_reducible apply Keeps.step (k := keeps_dropCopyIn _ _ _ _ _ _); case w => decide)
    | (with_reducible apply keeps_modSw; case w => decide)
    | (with_reducible apply Keeps.step (k := keeps_dropFrame _ _ _ _); case w => decide)
    | (with_reducible apply Keeps.step (k := keeps_raiseFault _ _ _ _ _); case w => decide)
    | split

theorem keeps_execSwcFlush (x1 : Port) (s : State) : KeepsOut [.flt] s (execSwcFlush x1 s) := by
  unfold execSwcFlush
  try dsimp only
  repeat' first
    | with_reducible apply Keeps.refl
    | with_reducible apply keepsOut_next
    | (with_reducible apply Keeps.step (k := keeps_raiseFault _ _ _ _ _); case w => decide)

theorem keeps_execSwitchReload (x1 : Quad) (x2 : Option (Fin 16)) (x3 : Nat) (s : State) : KeepsOut [.sw] s (execSwitchReload x1 x2 x3 s) := by
  unfold execSwitchReload
  try dsimp only
  repeat' first
    | with_reducible apply Keeps.refl
    | with_reducible apply keepsOut_next
    | (with_reducible apply keeps_modSw; case w => decide)
    | split

theorem keeps_execHoldExpiry (x1 : Port) (s : State) : KeepsOut [.now, .limits, .flt, .tel, .fr, .sw, .buf, .sch] s (execHoldExpiry x1 s) := by
  unfold execHoldExpiry
  try dsimp only
  repeat' first
    | with_reducible apply Keeps.refl
    | with_reducible apply keepsOut_next
    | (with_reducible apply Keeps.step (k := keeps_endHold _ _); case w => decide)
    | (with_reducible apply keeps_reach; case w => decide)
    | split

theorem keeps_execMcastOldListFree (x1 : Fin 65536) (s : State) : KeepsOut [.sw] s (execMcastOldListFree x1 s) := by
  unfold execMcastOldListFree
  try dsimp only
  repeat' first
    | with_reducible apply Keeps.refl
    | with_reducible apply keepsOut_next
    | (with_reducible apply keeps_modSw; case w => decide)

end Sys2Proof.Laws
end

