-- ==== Sys2Proof/Laws/KeepsFdb.lean ====
section
/-!
SUPPORT. What the operations of Fdb keep.
-/

set_option linter.all false

namespace Sys2Proof.Laws

open Sys2Proof Sys2Proof.Machine

theorem keeps_setFwdPipe (x1 : Nat) (x2 : FwdPipe) (s : State) : Keeps [.fwd] s (setFwdPipe x1 x2 s) := by
  unfold setFwdPipe
  try dsimp only
  repeat' first
    | with_reducible apply Keeps.refl
    | (with_reducible apply keeps_modFwd; case w => decide)

theorem keeps_modFwdPipe (x1 : Nat) (x2 : FwdPipe → FwdPipe) (s : State) : Keeps [.fwd] s (modFwdPipe x1 x2 s) := by
  unfold modFwdPipe
  try dsimp only
  repeat' first
    | with_reducible apply Keeps.refl
    | (with_reducible apply Keeps.step (k := keeps_setFwdPipe _ _ _); case w => decide)

theorem keeps_fdbPut (x1 : Nat) (x2 : Nat) (x3 : Option Nat) (s : State) : Keeps [.fwd] s (fdbPut x1 x2 x3 s) := by
  unfold fdbPut
  try dsimp only
  repeat' first
    | with_reducible apply Keeps.refl
    | (with_reducible apply Keeps.step (k := keeps_modFwdPipe _ _ _); case w => decide)

theorem keeps_moveRow (x1 : Nat) (s : State) (x3 : Nat × Nat) : Keeps [.tel, .fwd] s (moveRow x1 s x3) := by
  unfold moveRow
  try dsimp only
  repeat' first
    | with_reducible apply Keeps.refl
    | (with_reducible apply Keeps.step (k := keeps_fdbPut _ _ _ _); case w => decide)
    | (with_reducible apply Keeps.step (k := keeps_count _ _ _ _); case w => decide)
    | (with_reducible apply Keeps.step (k := keeps_modFwdPipe _ _ _); case w => decide)

theorem keeps_fdbInsert (x1 : Nat) (x2 : Nat) (s : State) : KeepsOpt [.tel, .fwd] s (fdbInsert x1 x2 s) := by
  unfold fdbInsert
  try dsimp only
  repeat' first
    | with_reducible assumption
    | with_reducible apply Keeps.refl
    | with_reducible apply keepsOpt_none
    | with_reducible apply keepsOpt_some
    | with_reducible intro _
    | with_reducible apply keeps_foldl
    | (with_reducible apply Keeps.step (k := keeps_fdbPut _ _ _ _); case w => decide)
    | (with_reducible apply Keeps.step (k := keeps_moveRow _ _ _); case w => decide)
    | split

theorem keeps_setNtfRing (x1 : Nat) (x2 : NtfRing) (s : State) : Keeps [.fwd] s (setNtfRing x1 x2 s) := by
  unfold setNtfRing
  try dsimp only
  repeat' first
    | with_reducible apply Keeps.refl
    | (with_reducible apply keeps_modFwd; case w => decide)

theorem keeps_ntfWrite (x1 : Nat) (x2 : Bool → Bytes) (s : State) : Keeps [.out, .tel, .fwd] s (ntfWrite x1 x2 s) := by
  unfold ntfWrite
  try dsimp only
  repeat' first
    | with_reducible apply Keeps.refl
    | (with_reducible apply Keeps.step (k := keeps_count _ _ _ _); case w => decide)
    | (with_reducible apply Keeps.step (k := keeps_setNtfRing _ _ _); case w => decide)
    | (with_reducible apply keeps_emit; case w => decide)

theorem keeps_holdPair (x1 : Nat) (x2 : FdbEvent) (s : State) : Keeps [.fwd] s (holdPair x1 x2 s) := by
  unfold holdPair
  try dsimp only
  repeat' first
    | with_reducible apply Keeps.refl
    | (with_reducible apply Keeps.step (k := keeps_modFwdPipe _ _ _); case w => decide)

theorem keeps_notify (x1 : Nat) (x2 : FdbEvent) (s : State) : Keeps [.out, .limits, .flt, .tel, .fwd] s (notify x1 x2 s) := by
  unfold notify
  try dsimp only
  repeat' first
    | with_reducible apply Keeps.refl
    | (with_reducible apply Keeps.step (k := keeps_count _ _ _ _); case w => decide)
    | (with_reducible apply Keeps.step (k := keeps_setNtfRing _ _ _); case w => decide)
    | (with_reducible apply Keeps.step (k := keeps_takeLimit _ _ _); case w => decide)
    | (with_reducible apply Keeps.step (k := keeps_kiln _ _ _); case w => decide)
    | (with_reducible apply Keeps.step (k := keeps_ntfWrite _ _ _); case w => decide)
    | (with_reducible apply Keeps.step (k := keeps_holdPair _ _ _); case w => decide)
    | split

theorem keeps_learnRequest (x1 : Nat) (s : State) : Keeps [.tel, .fr, .fwd] s (learnRequest x1 s) := by
  unfold learnRequest
  try dsimp only
  repeat' first
    | with_reducible apply Keeps.refl
    | (with_reducible apply Keeps.step (k := keeps_count _ _ _ _); case w => decide)
    | (with_reducible apply Keeps.step (k := keeps_modFrame _ _ _); case w => decide)
    | (with_reducible apply Keeps.step (k := keeps_modFwdPipe _ _ _); case w => decide)
    | split

theorem keeps_refuseLearn (x1 : Nat) (x2 : Nat) (x3 : Nat) (x4 : Nat) (s : State) : Keeps [.out, .limits, .flt, .tel, .fwd] s (refuseLearn x1 x2 x3 x4 s) := by
  unfold refuseLearn
  try dsimp only
  repeat' first
    | with_reducible apply Keeps.refl
    | (with_reducible apply Keeps.step (k := keeps_notify _ _ _); case w => decide)
    | (with_reducible apply Keeps.step (k := keeps_kilnOnce _ _ _ _); case w => decide)
    | (with_reducible apply Keeps.step (k := keeps_count _ _ _ _); case w => decide)

theorem keeps_learn (x1 : Nat) (x2 : Nat) (x3 : Nat) (s : State) : Keeps [.out, .limits, .flt, .tel, .fwd] s (learn x1 x2 x3 s) := by
  unfold learn
  try dsimp only
  repeat' first
    | with_reducible apply Keeps.refl
    | (with_reducible apply Keeps.step (k := keeps_refuseLearn _ _ _ _ _); case w => decide)
    | (with_reducible apply keeps_opt_step (k := keeps_fdbInsert _ _ _); (case e => with_reducible assumption); case w => decide)
    | (with_reducible apply Keeps.step (k := keeps_notify _ _ _); case w => decide)
    | (with_reducible apply Keeps.step (k := keeps_count _ _ _ _); case w => decide)
    | (with_reducible apply Keeps.step (k := keeps_kilnOnce _ _ _ _); case w => decide)
    | (with_reducible apply Keeps.step (k := keeps_kiln _ _ _); case w => decide)
    | (with_reducible apply Keeps.step (k := keeps_fdbPut _ _ _ _); case w => decide)
    | split

theorem keeps_execLearnRequestProcess (x1 : Pipe) (s : State) : KeepsOut [.out, .limits, .flt, .tel, .fwd] s (execLearnRequestProcess x1 s) := by
  unfold execLearnRequestProcess
  try dsimp only
  repeat' first
    | with_reducible apply Keeps.refl
    | with_reducible apply keepsOut_next
    | (with_reducible apply Keeps.step (k := keeps_learn _ _ _ _); case w => decide)
    | (with_reducible apply Keeps.step (k := keeps_setFwdPipe _ _ _); case w => decide)
    | split

theorem keeps_fdbWrite (x1 : Nat) (x2 : Nat) (s : State) : KeepsExc [.tel, .fwd] s (fdbWrite x1 x2 s) := by
  unfold fdbWrite
  try dsimp only
  repeat' first
    | with_reducible apply Keeps.refl
    | with_reducible apply keepsExc_error
    | with_reducible apply keepsExc_ok
    | (with_reducible apply Keeps.step (k := keeps_fdbPut _ _ _ _); case w => decide)
    | (with_reducible apply keeps_opt_step (k := keeps_fdbInsert _ _ _); (case e => with_reducible assumption); case w => decide)
    | split

theorem keeps_fdbEntryOp (x1 : Nat) (x2 : Bytes) (s : State) : Keeps [.tel, .fwd] s (fdbEntryOp x1 x2 s).2 := by
  unfold fdbEntryOp
  try dsimp only
  repeat' first
    | with_reducible apply Keeps.refl
    | (with_reducible apply keeps_exc_step (k := keeps_fdbWrite _ _ _); (case e => with_reducible assumption); case w => decide)
    | (with_reducible apply Keeps.step (k := keeps_fdbPut _ _ _ _); case w => decide)
    | (with_reducible apply Keeps.step (k := keeps_modFwdPipe _ _ _); case w => decide)
    | split

theorem keeps_modWindow (x1 : Nat) (x2 : FdbWindow → FdbWindow) (s : State) : Keeps [.fwd] s (modWindow x1 x2 s) := by
  unfold modWindow
  try dsimp only
  repeat' first
    | with_reducible apply Keeps.refl
    | (with_reducible apply Keeps.step (k := keeps_modFwdPipe _ _ _); case w => decide)

theorem keeps_startWindow (x1 : Nat) (x2 : Nat) (x3 : Bool) (s : State) : Keeps [.fwd] s (startWindow x1 x2 x3 s) := by
  unfold startWindow
  try dsimp only
  repeat' first
    | with_reducible apply Keeps.refl
    | (with_reducible apply Keeps.step (k := keeps_modWindow _ _ _); case w => decide)
    | split

theorem keeps_endWindow (x1 : Nat) (x2 : Status) (x3 : FdbWindow → FdbWindow) (s : State) : Keeps [.tel, .fwd] s (endWindow x1 x2 x3 s) := by
  unfold endWindow
  try dsimp only
  repeat' first
    | with_reducible apply Keeps.refl
    | (with_reducible apply Keeps.step (k := keeps_count _ _ _ _); case w => decide)
    | (with_reducible apply Keeps.step (k := keeps_modWindow _ _ _); case w => decide)

theorem keeps_windowPut (x1 : Nat) (x2 : Bool) (s : State) : Keeps [.tel, .fwd] s (windowPut x1 x2 s) := by
  unfold windowPut
  try dsimp only
  repeat' first
    | with_reducible apply Keeps.refl
    | (with_reducible apply Keeps.step (k := keeps_endWindow _ _ _ _); case w => decide)
    | (with_reducible apply keeps_exc_step (k := keeps_fdbWrite _ _ _); (case e => with_reducible assumption); case w => decide)
    | split

theorem keeps_windowKey (x1 : Nat) (x2 : Nat) (s : State) : Keeps [.tel, .fwd] s (windowKey x1 x2 s) := by
  unfold windowKey
  try dsimp only
  repeat' first
    | with_reducible apply Keeps.refl
    | (with_reducible apply Keeps.step (k := keeps_endWindow _ _ _ _); case w => decide)
    | (with_reducible apply Keeps.step (k := keeps_fdbPut _ _ _ _); case w => decide)
    | split

theorem keeps_windowReadIndex (x1 : Nat) (s : State) : Keeps [.tel, .fwd] s (windowReadIndex x1 s) := by
  unfold windowReadIndex
  try dsimp only
  repeat' first
    | with_reducible apply Keeps.refl
    | (with_reducible apply Keeps.step (k := keeps_endWindow _ _ _ _); case w => decide)
    | split

theorem keeps_windowIterate (x1 : Nat) (s : State) : Keeps [.tel, .fwd] s (windowIterate x1 s) := by
  unfold windowIterate
  try dsimp only
  repeat' first
    | with_reducible apply Keeps.refl
    | (with_reducible apply Keeps.step (k := keeps_endWindow _ _ _ _); case w => decide)
    | (with_reducible apply Keeps.step (k := keeps_fdbPut _ _ _ _); case w => decide)
    | split

theorem keeps_runWindow (x1 : Nat) (s : State) : Keeps [.tel, .fwd] s (runWindow x1 s) := by
  unfold runWindow
  try dsimp only
  repeat' first
    | with_reducible apply Keeps.refl
    | (with_reducible apply Keeps.step (k := keeps_windowKey _ _ _); case w => decide)
    | (with_reducible apply Keeps.step (k := keeps_windowReadIndex _ _); case w => decide)
    | (with_reducible apply Keeps.step (k := keeps_windowPut _ _ _); case w => decide)
    | (with_reducible apply Keeps.step (k := keeps_windowIterate _ _); case w => decide)
    | (with_reducible apply Keeps.step (k := keeps_endWindow _ _ _ _); case w => decide)
    | split

theorem keeps_runJob (x1 : Nat) (x2 : FdbJob) (s : State) : Keeps [.tel, .host, .fwd] s (runJob x1 x2 s) := by
  unfold runJob
  try dsimp only
  repeat' first
    | with_reducible apply Keeps.refl
    | (with_reducible apply Keeps.step (k := keeps_fdbEntryOp _ _ _); case w => decide)
    | (with_reducible apply keeps_modFwd; case w => decide)
    | (with_reducible apply Keeps.step (k := keeps_endRunning _ _ _ _ _); case w => decide)
    | split

theorem keeps_execFdbArbiterGrant (x1 : Pipe) (s : State) : KeepsOut [.tel, .host, .fwd] s (execFdbArbiterGrant x1 s) := by
  unfold execFdbArbiterGrant
  try dsimp only
  repeat' first
    | with_reducible apply Keeps.refl
    | with_reducible apply keepsOut_next
    | (with_reducible apply Keeps.step (k := keeps_setFwdPipe _ _ _); case w => decide)
    | (with_reducible apply Keeps.step (k := keeps_runJob _ _ _); case w => decide)
    | (with_reducible apply Keeps.step (k := keeps_runWindow _ _); case w => decide)
    | split

end Sys2Proof.Laws
end

