-- ==== Sys2Proof/Laws/KeepsFwd.lean ====
section
/-!
SUPPORT. What the operations of Fwd keep.
-/

set_option linter.all false

namespace Sys2Proof.Laws

open Sys2Proof Sys2Proof.Machine

theorem keeps_execNotifyProducerWriteback (x1 : Quad) (s : State) : KeepsOut [.out, .host, .fwd] s (execNotifyProducerWriteback x1 s) := by
  unfold execNotifyProducerWriteback
  try dsimp only
  repeat' first
    | with_reducible apply Keeps.refl
    | with_reducible apply keepsOut_next
    | (with_reducible apply Keeps.step (k := keeps_signal _ _); case w => decide)
    | (with_reducible apply keeps_emit; case w => decide)
    | (with_reducible apply Keeps.step (k := keeps_setNtfRing _ _ _); case w => decide)
    | split

theorem keeps_execFdbNtfConsWrite (x1 : Quad) (x2 : BitVec 32) (s : State) : KeepsOut [.host] s (execFdbNtfConsWrite x1 x2 s) := by
  unfold execFdbNtfConsWrite
  try dsimp only
  repeat' first
    | with_reducible apply Keeps.refl
    | with_reducible apply keepsOut_next
    | (with_reducible apply keeps_modHost; case w => decide)

theorem keeps_execFdbNotifyWrite (x1 : Cmd) (s : State) : KeepsOut [.limits, .flt, .tel, .host, .fwd] s (execFdbNotifyWrite x1 s) := by
  unfold execFdbNotifyWrite
  try dsimp only
  repeat' first
    | with_reducible apply Keeps.refl
    | with_reducible apply keepsOut_next
    | with_reducible apply keepsRes_okWrite
    | with_reducible intro _
    | (with_reducible apply keeps_icoux; case w => decide)
    | (with_reducible apply Keeps.step (k := keeps_writeLimit _ _ _ _ _); case w => decide)
    | (with_reducible apply keeps_modHost; case w => decide)
    | (with_reducible apply Keeps.step (k := keeps_setNtfRing _ _ _); case w => decide)
    | split

theorem keeps_execFdbNotifyRead (x1 : Cmd) (s : State) : KeepsOut [.flt, .tel, .host] s (execFdbNotifyRead x1 s) := by
  unfold execFdbNotifyRead
  try dsimp only
  repeat' first
    | with_reducible apply Keeps.refl
    | with_reducible apply keepsOut_next
    | with_reducible apply keepsRes_okReply
    | with_reducible intro _
    | (with_reducible apply keeps_icoux; case w => decide)

theorem keeps_execFdbLearnWrite (x1 : Cmd) (s : State) : KeepsOut [.flt, .tel, .host, .fwd] s (execFdbLearnWrite x1 s) := by
  unfold execFdbLearnWrite
  try dsimp only
  repeat' first
    | with_reducible assumption
    | with_reducible apply Keeps.refl
    | with_reducible apply keepsOut_next
    | with_reducible apply keepsRes_okWrite
    | with_reducible intro _
    | (with_reducible apply keeps_icoux; case w => decide)
    | with_reducible apply keeps_forMask
    | (with_reducible apply Keeps.step (k := keeps_modFwdPipe _ _ _); case w => decide)

theorem keeps_execFdbLearnRead (x1 : Cmd) (s : State) : KeepsOut [.flt, .tel, .host] s (execFdbLearnRead x1 s) := by
  unfold execFdbLearnRead
  try dsimp only
  repeat' first
    | with_reducible apply Keeps.refl
    | with_reducible apply keepsOut_next
    | with_reducible apply keepsRes_okReply
    | with_reducible intro _
    | (with_reducible apply keeps_icoux; case w => decide)

theorem keeps_execFdbEntryWrite (x1 : Cmd) (s : State) : KeepsOut [.flt, .tel, .host, .fwd] s (execFdbEntryWrite x1 s) := by
  unfold execFdbEntryWrite
  try dsimp only
  repeat' first
    | with_reducible apply Keeps.refl
    | with_reducible apply keepsOut_next
    | with_reducible apply keepsRes_later
    | with_reducible intro _
    | (with_reducible apply keeps_icoux; case w => decide)
    | (with_reducible apply keeps_modFwd; case w => decide)

theorem keeps_execFdbEntryRead (x1 : Cmd) (s : State) : KeepsOut [.flt, .tel, .host] s (execFdbEntryRead x1 s) := by
  unfold execFdbEntryRead
  try dsimp only
  repeat' first
    | with_reducible apply Keeps.refl
    | with_reducible apply keepsOut_next
    | exact trivial
    | with_reducible apply keepsRes_okReply
    | with_reducible intro _
    | (with_reducible apply keeps_icoux; case w => decide)
    | split

theorem keeps_delegate (x1 : Nat) (x2 : Nat) (x3 : Nat) (s : State) : Keeps [.flt, .fwd] s (delegate x1 x2 x3 s) := by
  unfold delegate
  try dsimp only
  repeat' first
    | with_reducible apply Keeps.refl
    | (with_reducible apply Keeps.step (k := keeps_kiln _ _ _); case w => decide)
    | (with_reducible apply Keeps.step (k := keeps_modWindow _ _ _); case w => decide)
    | split

theorem keeps_execFdbDelegateWrite (x1 : Cmd) (s : State) : KeepsOut [.flt, .tel, .host, .fwd] s (execFdbDelegateWrite x1 s) := by
  unfold execFdbDelegateWrite
  try dsimp only
  repeat' first
    | with_reducible assumption
    | with_reducible apply Keeps.refl
    | with_reducible apply keepsOut_next
    | with_reducible apply keepsRes_okWrite
    | with_reducible intro _
    | (with_reducible apply keeps_icoux; case w => decide)
    | with_reducible apply keeps_forMask
    | (with_reducible apply Keeps.step (k := keeps_delegate _ _ _ _); case w => decide)

theorem keeps_execFdbDelegateRead (x1 : Cmd) (s : State) : KeepsOut [.flt, .tel, .host] s (execFdbDelegateRead x1 s) := by
  unfold execFdbDelegateRead
  try dsimp only
  repeat' first
    | with_reducible apply Keeps.refl
    | with_reducible apply keepsOut_next
    | with_reducible apply keepsRes_okReply
    | with_reducible intro _
    | (with_reducible apply keeps_icoux; case w => decide)

theorem keeps_execFdbCmdReadKey (x1 : Pipe) (x2 : Bool) (s : State) : KeepsOut [.fwd] s (execFdbCmdReadKey x1 x2 s) := by
  unfold execFdbCmdReadKey
  try dsimp only
  repeat' first
    | with_reducible apply Keeps.refl
    | with_reducible apply keepsOut_next
    | (with_reducible apply Keeps.step (k := keeps_startWindow _ _ _ _); case w => decide)

theorem keeps_execFdbCmdReadIndex (x1 : Pipe) (x2 : Bool) (s : State) : KeepsOut [.fwd] s (execFdbCmdReadIndex x1 x2 s) := by
  unfold execFdbCmdReadIndex
  try dsimp only
  repeat' first
    | with_reducible apply Keeps.refl
    | with_reducible apply keepsOut_next
    | (with_reducible apply Keeps.step (k := keeps_startWindow _ _ _ _); case w => decide)

theorem keeps_execFdbCmdInsert (x1 : Pipe) (x2 : Bool) (s : State) : KeepsOut [.fwd] s (execFdbCmdInsert x1 x2 s) := by
  unfold execFdbCmdInsert
  try dsimp only
  repeat' first
    | with_reducible apply Keeps.refl
    | with_reducible apply keepsOut_next
    | (with_reducible apply Keeps.step (k := keeps_startWindow _ _ _ _); case w => decide)

theorem keeps_execFdbCmdWrite (x1 : Pipe) (x2 : Bool) (s : State) : KeepsOut [.fwd] s (execFdbCmdWrite x1 x2 s) := by
  unfold execFdbCmdWrite
  try dsimp only
  repeat' first
    | with_reducible apply Keeps.refl
    | with_reducible apply keepsOut_next
    | (with_reducible apply Keeps.step (k := keeps_startWindow _ _ _ _); case w => decide)

theorem keeps_execFdbCmdDelete (x1 : Pipe) (x2 : Bool) (s : State) : KeepsOut [.fwd] s (execFdbCmdDelete x1 x2 s) := by
  unfold execFdbCmdDelete
  try dsimp only
  repeat' first
    | with_reducible apply Keeps.refl
    | with_reducible apply keepsOut_next
    | (with_reducible apply Keeps.step (k := keeps_startWindow _ _ _ _); case w => decide)

theorem keeps_execFdbCmdDeleteIfIdle (x1 : Pipe) (x2 : Bool) (s : State) : KeepsOut [.fwd] s (execFdbCmdDeleteIfIdle x1 x2 s) := by
  unfold execFdbCmdDeleteIfIdle
  try dsimp only
  repeat' first
    | with_reducible apply Keeps.refl
    | with_reducible apply keepsOut_next
    | (with_reducible apply Keeps.step (k := keeps_startWindow _ _ _ _); case w => decide)

theorem keeps_execFdbCmdAge (x1 : Pipe) (x2 : Bool) (s : State) : KeepsOut [.fwd] s (execFdbCmdAge x1 x2 s) := by
  unfold execFdbCmdAge
  try dsimp only
  repeat' first
    | with_reducible apply Keeps.refl
    | with_reducible apply keepsOut_next
    | (with_reducible apply Keeps.step (k := keeps_startWindow _ _ _ _); case w => decide)

theorem keeps_execFdbCmdIterate (x1 : Pipe) (x2 : Bool) (s : State) : KeepsOut [.fwd] s (execFdbCmdIterate x1 x2 s) := by
  unfold execFdbCmdIterate
  try dsimp only
  repeat' first
    | with_reducible apply Keeps.refl
    | with_reducible apply keepsOut_next
    | (with_reducible apply Keeps.step (k := keeps_startWindow _ _ _ _); case w => decide)

theorem keeps_execFdbCmdInvalidOp (x1 : Pipe) (x2 : Fin 23) (x3 : Bool) (s : State) : KeepsOut [.fwd] s (execFdbCmdInvalidOp x1 x2 x3 s) := by
  unfold execFdbCmdInvalidOp
  try dsimp only
  repeat' first
    | with_reducible apply Keeps.refl
    | with_reducible apply keepsOut_next
    | (with_reducible apply Keeps.step (k := keeps_startWindow _ _ _ _); case w => decide)

theorem keeps_execFdbWindowRegWrite (x1 : Pipe) (x2 : Fin 7) (x3 : BitVec 32) (s : State) : KeepsOut [.fwd] s (execFdbWindowRegWrite x1 x2 x3 s) := by
  unfold execFdbWindowRegWrite
  try dsimp only
  repeat' first
    | with_reducible apply Keeps.refl
    | with_reducible apply keepsOut_next
    | (with_reducible apply Keeps.step (k := keeps_startWindow _ _ _ _); case w => decide)
    | (with_reducible apply Keeps.step (k := keeps_modWindow _ _ _); case w => decide)
    | split

theorem keeps_execFdbRejectsRead (x1 : Pipe) (s : State) : KeepsOut [.out, .fwd] s (execFdbRejectsRead x1 s) := by
  unfold execFdbRejectsRead
  try dsimp only
  repeat' first
    | with_reducible apply Keeps.refl
    | with_reducible apply keepsOut_next
    | (with_reducible apply keeps_emit; case w => decide)
    | (with_reducible apply Keeps.step (k := keeps_modWindow _ _ _); case w => decide)
    | split

theorem keeps_addRoute (x1 : Nat) (x2 : Bytes) (s : State) : Keeps [.free, .flt, .fwd] s (addRoute x1 x2 s).2 := by
  unfold addRoute
  try dsimp only
  repeat' first
    | with_reducible apply Keeps.refl
    | (with_reducible apply Keeps.step (k := keeps_modFwdPipe _ _ _); case w => decide)
    | (with_reducible apply Keeps.step (k := keeps_kiln _ _ _); case w => decide)
    | (with_reducible apply keeps_takeFree; case w => decide)
    | split

theorem keeps_deleteRoute (x1 : Nat) (x2 : Bytes) (s : State) : Keeps [.free, .fwd] s (deleteRoute x1 x2 s).2 := by
  unfold deleteRoute
  try dsimp only
  repeat' first
    | with_reducible apply Keeps.refl
    | (with_reducible apply keeps_takeFree; case w => decide)
    | (with_reducible apply Keeps.step (k := keeps_modFwdPipe _ _ _); case w => decide)
    | split

theorem keeps_execLpmRouteWrite (x1 : Cmd) (s : State) : KeepsOut [.free, .flt, .tel, .host, .fwd] s (execLpmRouteWrite x1 s) := by
  unfold execLpmRouteWrite
  try dsimp only
  repeat' first
    | with_reducible assumption
    | with_reducible apply Keeps.refl
    | (with_reducible apply keeps_of_pair; case e => with_reducible assumption)
    | with_reducible apply keepsOut_next
    | with_reducible apply keepsRes_done
    | with_reducible apply keepsRes_okWrite
    | with_reducible intro _
    | with_reducible apply keeps_pair_foldl
    | (with_reducible apply keeps_icoux; case w => decide)
    | (with_reducible apply Keeps.step (k := keeps_addRoute _ _ _); case w => decide)
    | (with_reducible apply Keeps.step (k := keeps_deleteRoute _ _ _); case w => decide)
    | split

theorem keeps_execLpmRouteRead (x1 : Cmd) (s : State) : KeepsOut [.flt, .tel, .host] s (execLpmRouteRead x1 s) := by
  unfold execLpmRouteRead
  try dsimp only
  repeat' first
    | with_reducible apply Keeps.refl
    | with_reducible apply keepsOut_next
    | exact trivial
    | with_reducible apply keepsRes_okReply
    | with_reducible intro _
    | (with_reducible apply keeps_icoux; case w => decide)
    | split

theorem keeps_execLpmBucketFree (x1 : Pipe) (s : State) : KeepsOut [.now, .fwd] s (execLpmBucketFree x1 s) := by
  unfold execLpmBucketFree
  try dsimp only
  repeat' first
    | with_reducible apply Keeps.refl
    | with_reducible apply keepsOut_next
    | (with_reducible apply Keeps.step (k := keeps_modFwdPipe _ _ _); case w => decide)
    | (with_reducible apply keeps_reach; case w => decide)
    | split

theorem keeps_hostPut (x1 : Nat) (x2 : Nat) (x3 : Nat) (x4 : Option HostRow) (s : State) : Keeps [.fwd] s (hostPut x1 x2 x3 x4 s) := by
  unfold hostPut
  try dsimp only
  repeat' first
    | with_reducible apply Keeps.refl
    | (with_reducible apply keeps_modFwd; case w => decide)

theorem keeps_hostAltAdd (x1 : Nat) (x2 : Nat) (x3 : Bool) (s : State) : Keeps [.fwd] s (hostAltAdd x1 x2 x3 s) := by
  unfold hostAltAdd
  try dsimp only
  repeat' first
    | with_reducible apply Keeps.refl
    | (with_reducible apply keeps_modFwd; case w => decide)

theorem keeps_hostWrite (x1 : Nat) (x2 : Nat) (x3 : Nat) (s : State) : KeepsSome [.fwd] s (hostWrite x1 x2 x3 s) := by
  unfold hostWrite
  try dsimp only
  repeat' first
    | with_reducible apply Keeps.refl
    | with_reducible apply keepsSome_none
    | with_reducible apply keepsSome_some
    | (with_reducible apply Keeps.step (k := keeps_hostPut _ _ _ _ _); case w => decide)
    | (with_reducible apply Keeps.step (k := keeps_hostAltAdd _ _ _ _); case w => decide)
    | split

theorem keeps_hostDelete (x1 : Nat) (x2 : Nat) (x3 : Nat) (x4 : Nat) (s : State) : Keeps [.fwd] s (hostDelete x1 x2 x3 x4 s) := by
  unfold hostDelete
  try dsimp only
  repeat' first
    | with_reducible apply Keeps.refl
    | (with_reducible apply Keeps.step (k := keeps_hostPut _ _ _ _ _); case w => decide)
    | (with_reducible apply Keeps.step (k := keeps_hostAltAdd _ _ _ _); case w => decide)
    | split

theorem keeps_execHostEntry (x1 : Cmd) (s : State) : KeepsOut [.flt, .tel, .host, .fwd] s (execHostEntry x1 s) := by
  unfold execHostEntry
  try dsimp only
  repeat' first
    | with_reducible apply Keeps.refl
    | with_reducible apply keepsOut_next
    | exact trivial
    | with_reducible apply keepsRes_okWrite
    | with_reducible apply keepsRes_okReply
    | with_reducible intro _
    | (with_reducible apply keeps_icoux; case w => decide)
    | (with_reducible apply keeps_some_step (k := keeps_hostWrite _ _ _ _); (case e => with_reducible assumption); case w => decide)
    | (with_reducible apply Keeps.step (k := keeps_hostDelete _ _ _ _ _); case w => decide)
    | (with_reducible apply keeps_modFwd; case w => decide)
    | split

theorem keeps_execHostLookupWrite (x1 : Cmd) (s : State) : KeepsOut [.flt, .tel, .host, .fwd] s (execHostLookupWrite x1 s) := by
  unfold execHostLookupWrite
  try dsimp only
  repeat' first
    | with_reducible assumption
    | with_reducible apply Keeps.refl
    | with_reducible apply keepsOut_next
    | with_reducible apply keepsRes_okWrite
    | with_reducible intro _
    | (with_reducible apply keeps_icoux; case w => decide)
    | with_reducible apply keeps_forMask
    | (with_reducible apply Keeps.step (k := keeps_modFwdPipe _ _ _); case w => decide)

theorem keeps_execHostLookupRead (x1 : Cmd) (s : State) : KeepsOut [.flt, .tel, .host] s (execHostLookupRead x1 s) := by
  unfold execHostLookupRead
  try dsimp only
  repeat' first
    | with_reducible apply Keeps.refl
    | with_reducible apply keepsOut_next
    | with_reducible apply keepsRes_okReply
    | with_reducible intro _
    | (with_reducible apply keeps_icoux; case w => decide)

theorem keeps_setHostReads (x1 : Nat) (x2 : List HostRead) (s : State) : Keeps [.fwd] s (setHostReads x1 x2 s) := by
  unfold setHostReads
  try dsimp only
  repeat' first
    | with_reducible apply Keeps.refl
    | (with_reducible apply keeps_modFwd; case w => decide)

theorem keeps_endHostRead (x1 : Nat) (x2 : Nat) (x3 : Nat) (x4 : Nat) (s : State) : Keeps [.tel, .fr, .fwd] s (endHostRead x1 x2 x3 x4 s) := by
  unfold endHostRead
  try dsimp only
  repeat' first
    | with_reducible apply Keeps.refl
    | (with_reducible apply Keeps.step (k := keeps_count _ _ _ _); case w => decide)
    | (with_reducible apply Keeps.step (k := keeps_setHostReads _ _ _); case w => decide)
    | (with_reducible apply Keeps.step (k := keeps_modFrame _ _ _); case w => decide)
    | split

theorem keeps_hostRequest (x1 : Nat) (s : State) : Keeps [.tel, .fr, .fwd, .pow] s (hostRequest x1 s) := by
  unfold hostRequest
  try dsimp only
  repeat' first
    | with_reducible apply Keeps.refl
    | (with_reducible apply Keeps.step (k := keeps_spendPipe _ _ _ _ _); case w => decide)
    | (with_reducible apply Keeps.step (k := keeps_count _ _ _ _); case w => decide)
    | (with_reducible apply Keeps.step (k := keeps_endHostRead _ _ _ _ _); case w => decide)
    | (with_reducible apply Keeps.step (k := keeps_modFrame _ _ _); case w => decide)
    | (with_reducible apply Keeps.step (k := keeps_setHostReads _ _ _); case w => decide)
    | split

theorem keeps_execHostBucketReadReturn (x1 : Nat) (x2 : Nat) (s : State) : KeepsOut [.tel, .fr, .fwd, .buf, .pow] s (execHostBucketReadReturn x1 x2 s) := by
  unfold execHostBucketReadReturn
  try dsimp only
  repeat' first
    | with_reducible apply Keeps.refl
    | with_reducible apply keepsOut_next
    | (with_reducible apply Keeps.step (k := keeps_spendPipe _ _ _ _ _); case w => decide)
    | (with_reducible apply Keeps.step (k := keeps_endHostRead _ _ _ _ _); case w => decide)
    | (with_reducible apply Keeps.step (k := keeps_useBeats _ _ _ _); case w => decide)
    | (with_reducible apply keeps_modFwd; case w => decide)
    | (with_reducible apply Keeps.step (k := keeps_setHostReads _ _ _); case w => decide)
    | split

theorem keeps_execHostRead (x1 : Nat) (x2 : Fin 4) (s : State) : KeepsOut [.flt, .tel, .fr, .fwd] s (execHostRead x1 x2 s) := by
  unfold execHostRead
  try dsimp only
  repeat' first
    | with_reducible assumption
    | with_reducible apply Keeps.refl
    | with_reducible apply keepsOut_next
    | with_reducible intro _
    | (with_reducible apply keeps_detect; case w => decide)
    | (with_reducible apply Keeps.step (k := keeps_kilnInj _ _ _ _); case w => decide)
    | (with_reducible apply Keeps.step (k := keeps_endHostRead _ _ _ _ _); case w => decide)
    | (with_reducible apply keeps_modFwd; case w => decide)
    | split

theorem keeps_execFdbLearnFault (x1 : Pipe) (s : State) : KeepsOut [.flt, .tel, .fwd] s (execFdbLearnFault x1 s) := by
  unfold execFdbLearnFault
  try dsimp only
  repeat' first
    | with_reducible assumption
    | with_reducible apply Keeps.refl
    | with_reducible apply keepsOut_next
    | with_reducible intro _
    | (with_reducible apply keeps_detect; case w => decide)
    | (with_reducible apply Keeps.step (k := keeps_count _ _ _ _); case w => decide)
    | (with_reducible apply Keeps.step (k := keeps_modFwdPipe _ _ _); case w => decide)

theorem keeps_execFdbCmdFault (x1 : Pipe) (s : State) : KeepsOut [.flt, .fwd] s (execFdbCmdFault x1 s) := by
  unfold execFdbCmdFault
  try dsimp only
  repeat' first
    | with_reducible assumption
    | with_reducible apply Keeps.refl
    | with_reducible apply keepsOut_next
    | with_reducible intro _
    | (with_reducible apply keeps_detect; case w => decide)
    | (with_reducible apply Keeps.step (k := keeps_modWindow _ _ _); case w => decide)

theorem keeps_execFwdAudit (x1 : Pipe) (x2 : Option Nat) (s : State) : KeepsOut [.flt, .fwd] s (execFwdAudit x1 x2 s) := by
  unfold execFwdAudit
  try dsimp only
  repeat' first
    | with_reducible assumption
    | with_reducible apply Keeps.refl
    | with_reducible apply keepsOut_next
    | with_reducible intro _
    | (with_reducible apply keeps_detect; case w => decide)
    | (with_reducible apply Keeps.step (k := keeps_fdbPut _ _ _ _); case w => decide)
    | split

end Sys2Proof.Laws
end

