-- ==== Sys2Proof/Laws/KeepsTree.lean ====
section
/-!
SUPPORT. What the operations of Tree keep.
-/

set_option linter.all false

namespace Sys2Proof.Laws

open Sys2Proof Sys2Proof.Machine

theorem keeps_setTree (x1 : Nat) (x2 : Nat) (x3 : Tree) (s : State) : Keeps [.mat] s (setTree x1 x2 x3 s) := by
  unfold setTree
  try dsimp only
  repeat' first
    | with_reducible apply Keeps.refl
    | (with_reducible apply keeps_modMat; case w => decide)

theorem keeps_execTreeTableWrite (x1 : Cmd) (s : State) : KeepsOut [.flt, .tel, .host, .mat] s (execTreeTableWrite x1 s) := by
  unfold execTreeTableWrite
  try dsimp only
  repeat' first
    | with_reducible apply Keeps.refl
    | with_reducible apply keepsOut_next
    | with_reducible apply keepsRes_okWrite
    | with_reducible intro _
    | (with_reducible apply keeps_icoux; case w => decide)
    | (with_reducible apply Keeps.step (k := keeps_setTree _ _ _ _); case w => decide)

theorem keeps_execTreeTableRead (x1 : Cmd) (s : State) : KeepsOut [.flt, .tel, .host] s (execTreeTableRead x1 s) := by
  unfold execTreeTableRead
  try dsimp only
  repeat' first
    | with_reducible apply Keeps.refl
    | with_reducible apply keepsOut_next
    | with_reducible apply keepsRes_okReply
    | with_reducible intro _
    | (with_reducible apply keeps_icoux; case w => decide)

theorem keeps_execClassifierRuleWrite (x1 : Cmd) (s : State) : KeepsOut [.flt, .tel, .host, .mat] s (execClassifierRuleWrite x1 s) := by
  unfold execClassifierRuleWrite
  try dsimp only
  repeat' first
    | with_reducible apply Keeps.refl
    | with_reducible apply keepsOut_next
    | with_reducible apply keepsRes_okWrite
    | with_reducible intro _
    | (with_reducible apply keeps_icoux; case w => decide)
    | (with_reducible apply keeps_modMat; case w => decide)

theorem keeps_execClassifierRuleRead (x1 : Cmd) (s : State) : KeepsOut [.flt, .tel, .host] s (execClassifierRuleRead x1 s) := by
  unfold execClassifierRuleRead
  try dsimp only
  repeat' first
    | with_reducible apply Keeps.refl
    | with_reducible apply keepsOut_next
    | with_reducible apply keepsRes_okReply
    | with_reducible intro _
    | (with_reducible apply keeps_icoux; case w => decide)

theorem keeps_execTreeCommit (x1 : Cmd) (s : State) : KeepsOut [.flt, .tel, .host, .mat] s (execTreeCommit x1 s) := by
  unfold execTreeCommit
  try dsimp only
  repeat' first
    | with_reducible apply Keeps.refl
    | with_reducible apply keepsOut_next
    | exact trivial
    | with_reducible apply keepsRes_done
    | with_reducible intro _
    | (with_reducible apply keeps_icoux; case w => decide)
    | (with_reducible apply Keeps.step (k := keeps_setTree _ _ _ _); case w => decide)
    | split

theorem keeps_execTreeSwap (x1 : Quad) (x2 : Fin 16) (x3 : Bool) (x4 : Nat) (s : State) : KeepsOut [.flt, .mat] s (execTreeSwap x1 x2 x3 x4 s) := by
  unfold execTreeSwap
  try dsimp only
  repeat' first
    | with_reducible apply Keeps.refl
    | with_reducible apply keepsOut_next
    | (with_reducible apply Keeps.step (k := keeps_kiln _ _ _); case w => decide)
    | (with_reducible apply Keeps.step (k := keeps_setTree _ _ _ _); case w => decide)
    | split

theorem keeps_execTreeNodesFreed (x1 : Quad) (x2 : Fin 16) (s : State) : KeepsOut [.now, .mat] s (execTreeNodesFreed x1 x2 s) := by
  unfold execTreeNodesFreed
  try dsimp only
  repeat' first
    | with_reducible apply Keeps.refl
    | with_reducible apply keepsOut_next
    | (with_reducible apply Keeps.step (k := keeps_setTree _ _ _ _); case w => decide)
    | (with_reducible apply keeps_reach; case w => decide)
    | split

theorem keeps_setWalks (x1 : Nat) (x2 : List Walk) (s : State) : Keeps [.mat] s (setWalks x1 x2 s) := by
  unfold setWalks
  try dsimp only
  repeat' first
    | with_reducible apply Keeps.refl
    | (with_reducible apply keeps_modMat; case w => decide)

theorem keeps_setInspReqs (x1 : Nat) (x2 : List InspReq) (s : State) : Keeps [.sig] s (setInspReqs x1 x2 s) := by
  unfold setInspReqs
  try dsimp only
  repeat' first
    | with_reducible apply Keeps.refl
    | (with_reducible apply keeps_modSig; case w => decide)

theorem keeps_modInspReq (x1 : Nat) (x2 : Nat) (x3 : InspReq → InspReq) (s : State) : Keeps [.sig] s (modInspReq x1 x2 x3 s) := by
  unfold modInspReq
  try dsimp only
  repeat' first
    | with_reducible apply Keeps.refl
    | (with_reducible apply Keeps.step (k := keeps_setInspReqs _ _ _); case w => decide)

theorem keeps_returnWalks (x1 : Nat) (s : State) : Keeps [.mat, .sig] s (returnWalks x1 s) := by
  unfold returnWalks
  try dsimp only
  repeat' first
    | with_reducible assumption
    | with_reducible apply Keeps.refl
    | with_reducible intro _
    | with_reducible apply keeps_foldl
    | (with_reducible apply Keeps.step (k := keeps_modInspReq _ _ _ _); case w => decide)
    | (with_reducible apply Keeps.step (k := keeps_setWalks _ _ _); case w => decide)

theorem keeps_endWalk (x1 : Nat) (x2 : Nat) (x3 : Nat) (x4 : Nat) (x5 : Nat) (s : State) : Keeps [.tel, .mat, .sig] s (endWalk x1 x2 x3 x4 x5 s) := by
  unfold endWalk
  try dsimp only
  repeat' first
    | with_reducible apply Keeps.refl
    | (with_reducible apply Keeps.step (k := keeps_returnWalks _ _); case w => decide)
    | (with_reducible apply Keeps.step (k := keeps_count _ _ _ _); case w => decide)
    | (with_reducible apply Keeps.step (k := keeps_setWalks _ _ _); case w => decide)

theorem keeps_requestWalk (x1 : Nat) (x2 : Nat) (x3 : Nat) (s : State) : Keeps [.flt, .tel, .mat, .sig] s (requestWalk x1 x2 x3 s) := by
  unfold requestWalk
  try dsimp only
  repeat' first
    | with_reducible apply Keeps.refl
    | (with_reducible apply Keeps.step (k := keeps_count _ _ _ _); case w => decide)
    | (with_reducible apply Keeps.step (k := keeps_modInspReq _ _ _ _); case w => decide)
    | (with_reducible apply Keeps.step (k := keeps_kilnOnce _ _ _ _); case w => decide)
    | (with_reducible apply Keeps.step (k := keeps_setWalks _ _ _); case w => decide)
    | split

theorem keeps_treeFault (x1 : Nat) (x2 : Nat) (x3 : Nat) (s : State) : Keeps [.flt, .tel, .mat, .sig] s (treeFault x1 x2 x3 s) := by
  unfold treeFault
  try dsimp only
  repeat' first
    | with_reducible assumption
    | with_reducible apply Keeps.refl
    | with_reducible intro _
    | (with_reducible apply keeps_detect; case w => decide)
    | (with_reducible apply Keeps.step (k := keeps_endWalk _ _ _ _ _ _); case w => decide)
    | (with_reducible apply Keeps.step (k := keeps_setTree _ _ _ _); case w => decide)
    | split

theorem keeps_execTreeNodeReadReturn (x1 : Nat) (x2 : Fin 4) (x3 : Fin 17) (s : State) : KeepsOut [.flt, .tel, .mat, .sig, .buf, .pow] s (execTreeNodeReadReturn x1 x2 x3 s) := by
  unfold execTreeNodeReadReturn
  try dsimp only
  repeat' first
    | with_reducible apply Keeps.refl
    | with_reducible apply keepsOut_next
    | (with_reducible apply Keeps.step (k := keeps_setWalks _ _ _); case w => decide)
    | (with_reducible apply Keeps.step (k := keeps_spendPipe _ _ _ _ _); case w => decide)
    | (with_reducible apply Keeps.step (k := keeps_useBeats _ _ _ _); case w => decide)
    | (with_reducible apply Keeps.step (k := keeps_count _ _ _ _); case w => decide)
    | (with_reducible apply Keeps.step (k := keeps_endWalk _ _ _ _ _ _); case w => decide)
    | (with_reducible apply Keeps.step (k := keeps_treeFault _ _ _ _); case w => decide)
    | split

theorem keeps_execTreeWalkTimeout (x1 : Nat) (s : State) : KeepsOut [.now, .flt, .tel, .mat, .sig] s (execTreeWalkTimeout x1 s) := by
  unfold execTreeWalkTimeout
  try dsimp only
  repeat' first
    | with_reducible apply Keeps.refl
    | with_reducible apply keepsOut_next
    | (with_reducible apply Keeps.step (k := keeps_treeFault _ _ _ _); case w => decide)
    | (with_reducible apply keeps_reach; case w => decide)
    | split

theorem keeps_execMatTree (x1 : Quad) (x2 : Nat) (s : State) : KeepsOut [.flt, .tel, .mat, .sig] s (execMatTree x1 x2 s) := by
  unfold execMatTree
  try dsimp only
  repeat' first
    | with_reducible apply Keeps.refl
    | with_reducible apply keepsOut_next
    | (with_reducible apply Keeps.step (k := keeps_treeFault _ _ _ _); case w => decide)
    | split

end Sys2Proof.Laws
end

