-- ==== Sys2Proof/Laws/KeepsSpill.lean ====
section
/-!
SUPPORT. What the operations of Spill keep.
-/

set_option linter.all false

namespace Sys2Proof.Laws

open Sys2Proof Sys2Proof.Machine

theorem keeps_execSpillWrite (x1 : Quad) (s : State) : KeepsOut [.tel, .buf] s (execSpillWrite x1 s) := by
  unfold execSpillWrite
  try dsimp only
  repeat' first
    | with_reducible apply Keeps.refl
    | with_reducible apply keepsOut_next
    | (with_reducible apply Keeps.step (k := keeps_useBeats _ _ _ _); case w => decide)
    | (with_reducible apply Keeps.step (k := keeps_modQuad _ _ _); case w => decide)
    | (with_reducible apply Keeps.step (k := keeps_modCopy _ _ _); case w => decide)
    | split

theorem keeps_execSpillWriteDone (x1 : Port) (x2 : Fin 20) (s : State) : KeepsOut [.flt, .tel, .buf] s (execSpillWriteDone x1 x2 s) := by
  unfold execSpillWriteDone
  try dsimp only
  repeat' first
    | with_reducible assumption
    | with_reducible apply Keeps.refl
    | with_reducible apply keepsOut_next
    | with_reducible intro _
    | with_reducible apply keeps_foldl
    | (with_reducible apply Keeps.step (k := keeps_modCopy _ _ _); case w => decide)
    | (with_reducible apply Keeps.step (k := keeps_count _ _ _ _); case w => decide)
    | (with_reducible apply Keeps.step (k := keeps_releaseCell _ _ _ _); case w => decide)
    | split

theorem keeps_ageOut (x1 : Nat) (s : State) : Keeps [.limits, .flt, .tel, .fr, .sw, .buf, .sch] s (ageOut x1 s) := by
  unfold ageOut
  try dsimp only
  repeat' first
    | with_reducible apply Keeps.refl
    | (with_reducible apply Keeps.step (k := keeps_dropCopy _ _ _ _); case w => decide)
    | (with_reducible apply Keeps.step (k := keeps_count _ _ _ _); case w => decide)

theorem keeps_returned (x1 : Nat) (s : State) : Keeps [.flt, .tel, .buf] s (returned x1 s) := by
  unfold returned
  try dsimp only
  repeat' first
    | with_reducible assumption
    | with_reducible apply Keeps.refl
    | with_reducible intro _
    | with_reducible apply keeps_foldl
    | (with_reducible apply Keeps.step (k := keeps_endSpill _ _ _); case w => decide)
    | (with_reducible apply Keeps.step (k := keeps_count _ _ _ _); case w => decide)
    | (with_reducible apply Keeps.step (k := keeps_releaseSlot _ _ _); case w => decide)
    | (with_reducible apply Keeps.step (k := keeps_modCopy _ _ _); case w => decide)

theorem keeps_startReturn (x1 : Nat) (s : State) : Keeps [.flt, .tel, .buf] s (startReturn x1 s) := by
  unfold startReturn
  try dsimp only
  repeat' first
    | with_reducible assumption
    | with_reducible apply Keeps.refl
    | with_reducible intro _
    | with_reducible apply keeps_foldl
    | (with_reducible apply keeps_opt_step (k := keeps_takeCells _ _ _); (case e => with_reducible assumption); case w => decide)
    | (with_reducible apply Keeps.step (k := keeps_modCopy _ _ _); case w => decide)
    | (with_reducible apply Keeps.step (k := keeps_releaseSlot _ _ _); case w => decide)
    | (with_reducible apply Keeps.step (k := keeps_modQueue _ _ _); case w => decide)
    | (with_reducible apply Keeps.step (k := keeps_notePeakFree _ _); case w => decide)
    | (with_reducible apply Keeps.step (k := keeps_useBeats _ _ _ _); case w => decide)
    | (with_reducible apply Keeps.step (k := keeps_count _ _ _ _); case w => decide)
    | split

theorem keeps_returnNext (x1 : Nat) (s : State) : Keeps [.limits, .flt, .tel, .fr, .sw, .buf, .sch] s (returnNext x1 s) := by
  unfold returnNext
  try dsimp only
  repeat' first
    | with_reducible apply Keeps.refl
    | (with_reducible apply Keeps.step (k := keeps_ageOut _ _); case w => decide)
    | (with_reducible apply Keeps.step (k := keeps_dropCopy _ _ _ _); case w => decide)
    | (with_reducible apply Keeps.step (k := keeps_count _ _ _ _); case w => decide)
    | (with_reducible apply Keeps.step (k := keeps_returned _ _); case w => decide)
    | (with_reducible apply Keeps.step (k := keeps_modCopy _ _ _); case w => decide)
    | (with_reducible apply Keeps.step (k := keeps_startReturn _ _); case w => decide)
    | split

theorem keeps_execReturnRead (x1 : Port) (x2 : Fin 20) (s : State) : KeepsOut [.limits, .flt, .tel, .fr, .sw, .buf, .sch] s (execReturnRead x1 x2 s) := by
  unfold execReturnRead
  try dsimp only
  repeat' first
    | with_reducible apply Keeps.refl
    | with_reducible apply keepsOut_next
    | (with_reducible apply Keeps.step (k := keeps_returnNext _ _); case w => decide)
    | split

theorem keeps_execReturnStallResume (x1 : Port) (x2 : Fin 20) (s : State) : KeepsOut [.flt, .tel, .buf] s (execReturnStallResume x1 x2 s) := by
  unfold execReturnStallResume
  try dsimp only
  repeat' first
    | with_reducible apply Keeps.refl
    | with_reducible apply keepsOut_next
    | (with_reducible apply Keeps.step (k := keeps_startReturn _ _); case w => decide)
    | split

theorem keeps_resetSection (x1 : Nat) (x2 : Nat) (x3 : Bool) (s : State) : Keeps [.limits, .flt, .tel, .fr, .sw, .buf, .sch] s (resetSection x1 x2 x3 s) := by
  unfold resetSection
  try dsimp only
  repeat' first
    | with_reducible assumption
    | with_reducible apply Keeps.refl
    | with_reducible intro _
    | with_reducible apply keeps_foldl
    | (with_reducible apply Keeps.step (k := keeps_kilnInj _ _ _ _); case w => decide)
    | (with_reducible apply Keeps.step (k := keeps_endSpill _ _ _); case w => decide)
    | (with_reducible apply Keeps.step (k := keeps_dropCopy _ _ _ _); case w => decide)

theorem keeps_execSpillOrder (x1 : Port) (x2 : Fin 20) (s : State) : KeepsOut [.limits, .flt, .tel, .fr, .sw, .buf, .sch] s (execSpillOrder x1 x2 s) := by
  unfold execSpillOrder
  try dsimp only
  repeat' first
    | with_reducible assumption
    | with_reducible apply Keeps.refl
    | with_reducible apply keepsOut_next
    | with_reducible intro _
    | (with_reducible apply keeps_detect; case w => decide)
    | (with_reducible apply Keeps.step (k := keeps_resetSection _ _ _ _); case w => decide)
    | split

theorem keeps_execReturnReadDone (x1 : Port) (x2 : Fin 20) (x3 : Bool) (s : State) : KeepsOut [.limits, .flt, .tel, .fr, .sw, .buf, .sch] s (execReturnReadDone x1 x2 x3 s) := by
  unfold execReturnReadDone
  try dsimp only
  repeat' first
    | with_reducible assumption
    | with_reducible apply Keeps.refl
    | with_reducible apply keepsOut_next
    | with_reducible intro _
    | (with_reducible apply Keeps.step (k := keeps_returned _ _); case w => decide)
    | (with_reducible apply keeps_detect; case w => decide)
    | (with_reducible apply Keeps.step (k := keeps_resetSection _ _ _ _); case w => decide)
    | split

theorem keeps_execDramShareWindow (x1 : Quad) (s : State) : KeepsOut [.buf] s (execDramShareWindow x1 s) := by
  unfold execDramShareWindow
  try dsimp only
  repeat' first
    | with_reducible apply Keeps.refl
    | with_reducible apply keepsOut_next
    | (with_reducible apply Keeps.step (k := keeps_modQuad _ _ _); case w => decide)

theorem keeps_auditCells (x1 : Nat) (s : State) : Keeps [.flt, .tel, .buf] s (auditCells x1 s) := by
  unfold auditCells
  try dsimp only
  repeat' first
    | with_reducible assumption
    | with_reducible apply Keeps.refl
    | with_reducible intro _
    | with_reducible apply keeps_foldl
    | (with_reducible apply Keeps.step (k := keeps_modQuad _ _ _); case w => decide)
    | (with_reducible apply Keeps.step (k := keeps_raiseFault _ _ _ _ _); case w => decide)
    | (with_reducible apply Keeps.step (k := keeps_kiln _ _ _); case w => decide)
    | (with_reducible apply Keeps.step (k := keeps_count _ _ _ _); case w => decide)
    | split

theorem keeps_countScrubOverrun (x1 : Nat) (x2 : Nat) (x3 : Nat) (s : State) : Keeps [.flt, .buf] s (countScrubOverrun x1 x2 x3 s) := by
  unfold countScrubOverrun
  try dsimp only
  repeat' first
    | with_reducible apply Keeps.refl
    | (with_reducible apply Keeps.step (k := keeps_kiln _ _ _); case w => decide)
    | (with_reducible apply Keeps.step (k := keeps_modQuad _ _ _); case w => decide)

theorem keeps_execScrubPassDone (x1 : Quad) (x2 : Fin 4) (s : State) : KeepsOut [.flt, .tel, .buf] s (execScrubPassDone x1 x2 s) := by
  unfold execScrubPassDone
  try dsimp only
  repeat' first
    | with_reducible apply Keeps.refl
    | with_reducible apply keepsOut_next
    | (with_reducible apply Keeps.step (k := keeps_auditCells _ _); case w => decide)
    | (with_reducible apply Keeps.step (k := keeps_modQuad _ _ _); case w => decide)
    | (with_reducible apply Keeps.step (k := keeps_countScrubOverrun _ _ _ _); case w => decide)
    | split

theorem keeps_badWord (x1 : Nat) (s : State) (x3 : Nat) : Keeps [.free, .out, .limits, .flt, .tel, .fr, .sw, .buf, .sch, .pow] s (badWord x1 s x3) := by
  unfold badWord
  try dsimp only
  repeat' first
    | with_reducible apply Keeps.refl
    | (with_reducible apply keeps_takeFree; case w => decide)
    | (with_reducible apply Keeps.step (k := keeps_stompCopy _ _ _ _ _); case w => decide)
    | (with_reducible apply Keeps.step (k := keeps_modCopy _ _ _); case w => decide)
    | (with_reducible apply Keeps.step (k := keeps_dropCopy _ _ _ _); case w => decide)
    | split

theorem keeps_execBufData (x1 : Quad) (x2 : Nat) (s : State) : KeepsOut [.free, .out, .limits, .flt, .tel, .fr, .sw, .buf, .sch, .pow] s (execBufData x1 x2 s) := by
  unfold execBufData
  try dsimp only
  repeat' first
    | with_reducible assumption
    | with_reducible apply Keeps.refl
    | with_reducible apply keepsOut_next
    | with_reducible intro _
    | with_reducible apply keeps_foldl
    | (with_reducible apply keeps_detect; case w => decide)
    | (with_reducible apply Keeps.step (k := keeps_badWord _ _ _); case w => decide)
    | (with_reducible apply Keeps.step (k := keeps_modQuad _ _ _); case w => decide)

theorem keeps_breakChain (x1 : Nat) (s : State) (x3 : Nat) : Keeps [.free, .out, .limits, .flt, .tel, .fr, .sw, .buf, .sch, .pow] s (breakChain x1 s x3) := by
  unfold breakChain
  try dsimp only
  repeat' first
    | with_reducible apply Keeps.refl
    | (with_reducible apply Keeps.step (k := keeps_modQuad _ _ _); case w => decide)
    | (with_reducible apply Keeps.step (k := keeps_modCopy _ _ _); case w => decide)
    | (with_reducible apply keeps_takeFree; case w => decide)
    | (with_reducible apply Keeps.step (k := keeps_stompCopy _ _ _ _ _); case w => decide)
    | (with_reducible apply Keeps.step (k := keeps_dropCopy _ _ _ _); case w => decide)
    | split

theorem keeps_execBufLink (x1 : Quad) (x2 : Option Nat) (s : State) : KeepsOut [.free, .out, .limits, .flt, .tel, .fr, .sw, .buf, .sch, .pow] s (execBufLink x1 x2 s) := by
  unfold execBufLink
  try dsimp only
  repeat' first
    | with_reducible assumption
    | with_reducible apply Keeps.refl
    | with_reducible apply keepsOut_next
    | with_reducible intro _
    | with_reducible apply keeps_foldl
    | (with_reducible apply keeps_detect; case w => decide)
    | (with_reducible apply Keeps.step (k := keeps_breakChain _ _ _); case w => decide)
    | (with_reducible apply Keeps.step (k := keeps_modQuad _ _ _); case w => decide)
    | split

theorem keeps_execBufDesc (x1 : Quad) (x2 : Nat) (x3 : Bool) (s : State) : KeepsOut [.free, .out, .limits, .flt, .tel, .fr, .sw, .buf, .sch, .pow] s (execBufDesc x1 x2 x3 s) := by
  unfold execBufDesc
  try dsimp only
  repeat' first
    | with_reducible assumption
    | with_reducible apply Keeps.refl
    | with_reducible apply keepsOut_next
    | with_reducible intro _
    | (with_reducible apply keeps_detect; case w => decide)
    | (with_reducible apply keeps_takeFree; case w => decide)
    | (with_reducible apply Keeps.step (k := keeps_kilnInj _ _ _ _); case w => decide)
    | (with_reducible apply Keeps.step (k := keeps_count _ _ _ _); case w => decide)
    | (with_reducible apply Keeps.step (k := keeps_stompCopy _ _ _ _ _); case w => decide)
    | (with_reducible apply Keeps.step (k := keeps_dropCopy _ _ _ _); case w => decide)
    | split

theorem keeps_execBufCount (x1 : Port) (x2 : Fin 20) (s : State) : KeepsOut [.flt, .buf] s (execBufCount x1 x2 s) := by
  unfold execBufCount
  try dsimp only
  repeat' first
    | with_reducible assumption
    | with_reducible apply Keeps.refl
    | with_reducible apply keepsOut_next
    | with_reducible intro _
    | (with_reducible apply keeps_detect; case w => decide)
    | (with_reducible apply Keeps.step (k := keeps_modQuad _ _ _); case w => decide)
    | (with_reducible apply Keeps.step (k := keeps_modQueue _ _ _); case w => decide)

theorem keeps_execPoolRebuild (x1 : Quad) (s : State) : KeepsOut [.free, .flt, .buf] s (execPoolRebuild x1 s) := by
  unfold execPoolRebuild
  try dsimp only
  repeat' first
    | with_reducible assumption
    | with_reducible apply Keeps.refl
    | with_reducible apply keepsOut_next
    | with_reducible intro _
    | with_reducible apply keeps_foldl
    | (with_reducible apply keeps_takeFree; case w => decide)
    | (with_reducible apply Keeps.step (k := keeps_kiln _ _ _); case w => decide)
    | (with_reducible apply Keeps.step (k := keeps_modQuad _ _ _); case w => decide)
    | (with_reducible apply Keeps.step (k := keeps_modQueue _ _ _); case w => decide)
    | split

theorem keeps_execDramData (x1 : Quad) (x2 : Nat) (s : State) : KeepsOut [.flt, .buf] s (execDramData x1 x2 s) := by
  unfold execDramData
  try dsimp only
  repeat' first
    | with_reducible assumption
    | with_reducible apply Keeps.refl
    | with_reducible apply keepsOut_next
    | with_reducible intro _
    | with_reducible apply keeps_foldl
    | (with_reducible apply keeps_detect; case w => decide)
    | (with_reducible apply Keeps.step (k := keeps_modCopy _ _ _); case w => decide)
    | (with_reducible apply Keeps.step (k := keeps_settleBlock _ _ _); case w => decide)
    | (with_reducible apply Keeps.step (k := keeps_modQuad _ _ _); case w => decide)
    | split

theorem keeps_execDramLink (x1 : Quad) (s : State) : KeepsOut [.flt, .buf] s (execDramLink x1 s) := by
  unfold execDramLink
  try dsimp only
  repeat' first
    | with_reducible assumption
    | with_reducible apply Keeps.refl
    | with_reducible apply keepsOut_next
    | with_reducible intro _
    | (with_reducible apply keeps_detect; case w => decide)
    | (with_reducible apply Keeps.step (k := keeps_modQuad _ _ _); case w => decide)

theorem keeps_execDramRetrain (x1 : Quad) (s : State) : KeepsOut [.flt, .buf] s (execDramRetrain x1 s) := by
  unfold execDramRetrain
  try dsimp only
  repeat' first
    | with_reducible apply Keeps.refl
    | with_reducible apply keepsOut_next
    | (with_reducible apply Keeps.step (k := keeps_kiln _ _ _); case w => decide)
    | (with_reducible apply Keeps.step (k := keeps_modQuad _ _ _); case w => decide)
    | split

theorem keeps_execDramRequestTimeout (x1 : Quad) (x2 : Nat) (s : State) : KeepsOut [.now, .tel, .fr, .mat, .fwd, .sig] s (execDramRequestTimeout x1 x2 s) := by
  unfold execDramRequestTimeout
  try dsimp only
  repeat' first
    | with_reducible apply Keeps.refl
    | with_reducible apply keepsOut_next
    | (with_reducible apply Keeps.step (k := keeps_endHostRead _ _ _ _ _); case w => decide)
    | (with_reducible apply keeps_reach; case w => decide)
    | (with_reducible apply Keeps.step (k := keeps_endWalk _ _ _ _ _ _); case w => decide)
    | split

theorem keeps_poolWrite (s : State) : KeepsRes [] s (poolWrite s) := by
  unfold poolWrite
  try dsimp only
  repeat' first
    | with_reducible apply Keeps.refl
    | exact trivial
    | with_reducible apply keepsRes_okWrite
    | split

theorem keeps_execBufferPoolWrite (x1 : Cmd) (s : State) : KeepsOut [.flt, .tel, .host, .buf] s (execBufferPoolWrite x1 s) := by
  unfold execBufferPoolWrite
  try dsimp only
  repeat' first
    | with_reducible apply Keeps.refl
    | with_reducible apply keepsOut_next
    | with_reducible intro _
    | (with_reducible apply keeps_icoux; case w => decide)
    | (with_reducible apply KeepsRes.step (k := keeps_poolWrite _); case w => decide)
    | (with_reducible apply Keeps.step (k := keeps_modQuad _ _ _); case w => decide)

theorem keeps_execBufferPoolRead (x1 : Cmd) (s : State) : KeepsOut [.flt, .tel, .host] s (execBufferPoolRead x1 s) := by
  unfold execBufferPoolRead
  try dsimp only
  repeat' first
    | with_reducible apply Keeps.refl
    | with_reducible apply keepsOut_next
    | with_reducible apply keepsRes_okReply
    | with_reducible intro _
    | (with_reducible apply keeps_icoux; case w => decide)

theorem keeps_execAdmitProfileWrite (x1 : Cmd) (s : State) : KeepsOut [.flt, .tel, .host, .buf] s (execAdmitProfileWrite x1 s) := by
  unfold execAdmitProfileWrite
  try dsimp only
  repeat' first
    | with_reducible assumption
    | with_reducible apply Keeps.refl
    | with_reducible apply keepsOut_next
    | exact trivial
    | with_reducible intro _
    | (with_reducible apply keeps_icoux; case w => decide)
    | with_reducible apply keeps_forMask
    | (with_reducible apply keeps_modBuf; case w => decide)
    | (with_reducible apply KeepsRes.step (k := keeps_poolWrite _); case w => decide)
    | split

theorem keeps_execAdmitProfileRead (x1 : Cmd) (s : State) : KeepsOut [.flt, .tel, .host] s (execAdmitProfileRead x1 s) := by
  unfold execAdmitProfileRead
  try dsimp only
  repeat' first
    | with_reducible apply Keeps.refl
    | with_reducible apply keepsOut_next
    | with_reducible apply keepsRes_okReply
    | with_reducible intro _
    | (with_reducible apply keeps_icoux; case w => decide)

theorem keeps_execPortAdmitWrite (x1 : Cmd) (s : State) : KeepsOut [.flt, .tel, .host, .buf] s (execPortAdmitWrite x1 s) := by
  unfold execPortAdmitWrite
  try dsimp only
  repeat' first
    | with_reducible apply Keeps.refl
    | with_reducible apply keepsOut_next
    | exact trivial
    | with_reducible intro _
    | (with_reducible apply keeps_icoux; case w => decide)
    | (with_reducible apply keeps_modBuf; case w => decide)
    | (with_reducible apply KeepsRes.step (k := keeps_poolWrite _); case w => decide)
    | split

theorem keeps_execPortAdmitRead (x1 : Cmd) (s : State) : KeepsOut [.flt, .tel, .host] s (execPortAdmitRead x1 s) := by
  unfold execPortAdmitRead
  try dsimp only
  repeat' first
    | with_reducible apply Keeps.refl
    | with_reducible apply keepsOut_next
    | with_reducible apply keepsRes_okReply
    | with_reducible intro _
    | (with_reducible apply keeps_icoux; case w => decide)

theorem keeps_execDramShareWrite (x1 : Cmd) (s : State) : KeepsOut [.flt, .tel, .host, .buf] s (execDramShareWrite x1 s) := by
  unfold execDramShareWrite
  try dsimp only
  repeat' first
    | with_reducible assumption
    | with_reducible apply Keeps.refl
    | with_reducible apply keepsOut_next
    | with_reducible apply keepsRes_okWrite
    | with_reducible intro _
    | (with_reducible apply keeps_icoux; case w => decide)
    | with_reducible apply keeps_forMask
    | (with_reducible apply Keeps.step (k := keeps_modQuad _ _ _); case w => decide)

theorem keeps_execDramShareRead (x1 : Cmd) (s : State) : KeepsOut [.flt, .tel, .host] s (execDramShareRead x1 s) := by
  unfold execDramShareRead
  try dsimp only
  repeat' first
    | with_reducible apply Keeps.refl
    | with_reducible apply keepsOut_next
    | with_reducible apply keepsRes_okReply
    | with_reducible intro _
    | (with_reducible apply keeps_icoux; case w => decide)

theorem keeps_placeScrub (x1 : Bytes) (s : State) : Keeps [.time] s (placeScrub x1 s) := by
  unfold placeScrub
  try dsimp only
  repeat' first
    | with_reducible assumption
    | with_reducible apply Keeps.refl
    | with_reducible intro _
    | with_reducible apply keeps_foldl
    | (with_reducible apply Keeps.step (k := keeps_placeOwn _ _ _ _ _ _ _); case w => decide)

theorem keeps_execBufScrubWrite (x1 : Cmd) (s : State) : KeepsOut [.time, .flt, .tel, .host, .buf] s (execBufScrubWrite x1 s) := by
  unfold execBufScrubWrite
  try dsimp only
  repeat' first
    | with_reducible apply Keeps.refl
    | with_reducible apply keepsOut_next
    | with_reducible apply keepsRes_okWrite
    | with_reducible intro _
    | (with_reducible apply keeps_icoux; case w => decide)
    | (with_reducible apply Keeps.step (k := keeps_placeScrub _ _); case w => decide)
    | (with_reducible apply keeps_modBuf; case w => decide)

theorem keeps_execBufScrubRead (x1 : Cmd) (s : State) : KeepsOut [.flt, .tel, .host] s (execBufScrubRead x1 s) := by
  unfold execBufScrubRead
  try dsimp only
  repeat' first
    | with_reducible apply Keeps.refl
    | with_reducible apply keepsOut_next
    | with_reducible apply keepsRes_okReply
    | with_reducible intro _
    | (with_reducible apply keeps_icoux; case w => decide)

theorem keeps_execBufferStatus (x1 : Cmd) (s : State) : KeepsOut [.flt, .tel, .host, .buf] s (execBufferStatus x1 s) := by
  unfold execBufferStatus
  try dsimp only
  repeat' first
    | with_reducible apply Keeps.refl
    | with_reducible apply keepsOut_next
    | with_reducible apply keepsRes_okReply
    | with_reducible intro _
    | (with_reducible apply keeps_icoux; case w => decide)
    | (with_reducible apply Keeps.step (k := keeps_modQuad _ _ _); case w => decide)

theorem keeps_execQueueBufferStatus (x1 : Cmd) (s : State) : KeepsOut [.flt, .tel, .host, .buf] s (execQueueBufferStatus x1 s) := by
  unfold execQueueBufferStatus
  try dsimp only
  repeat' first
    | with_reducible apply Keeps.refl
    | with_reducible apply keepsOut_next
    | with_reducible apply keepsRes_okReply
    | with_reducible intro _
    | (with_reducible apply keeps_icoux; case w => decide)
    | (with_reducible apply Keeps.step (k := keeps_modQueue _ _ _); case w => decide)

end Sys2Proof.Laws
end

