-- ==== Sys2Proof/Laws/KeepsSwitchCmd.lean ====
section
/-!
SUPPORT. What the operations of SwitchCmd keep.
-/

set_option linter.all false

namespace Sys2Proof.Laws

open Sys2Proof Sys2Proof.Machine

theorem keeps_execMeshConfigWrite (x1 : Cmd) (s : State) : KeepsOut [.flt, .tel, .host, .sw] s (execMeshConfigWrite x1 s) := by
  unfold execMeshConfigWrite
  try dsimp only
  repeat' first
    | with_reducible assumption
    | with_reducible apply Keeps.refl
    | with_reducible apply keepsOut_next
    | with_reducible apply keepsRes_okWrite
    | with_reducible intro _
    | (with_reducible apply keeps_icoux; case w => decide)
    | with_reducible apply keeps_forMask
    | (with_reducible apply keeps_modSw; case w => decide)

theorem keeps_execMeshConfigRead (x1 : Cmd) (s : State) : KeepsOut [.flt, .tel, .host] s (execMeshConfigRead x1 s) := by
  unfold execMeshConfigRead
  try dsimp only
  repeat' first
    | with_reducible apply Keeps.refl
    | with_reducible apply keepsOut_next
    | with_reducible apply keepsRes_okReply
    | with_reducible intro _
    | (with_reducible apply keeps_icoux; case w => decide)

theorem keeps_execMcastGroupWrite (x1 : Cmd) (s : State) : KeepsOut [.time, .flt, .tel, .host] s (execMcastGroupWrite x1 s) := by
  unfold execMcastGroupWrite
  try dsimp only
  repeat' first
    | with_reducible apply Keeps.refl
    | with_reducible apply keepsOut_next
    | exact trivial
    | with_reducible apply keepsRes_later
    | with_reducible intro _
    | (with_reducible apply keeps_icoux; case w => decide)
    | (with_reducible apply Keeps.step (k := keeps_tagWrite _ _); case w => decide)
    | split

theorem keeps_execMcastGroupRead (x1 : Cmd) (s : State) : KeepsOut [.flt, .tel, .host] s (execMcastGroupRead x1 s) := by
  unfold execMcastGroupRead
  try dsimp only
  repeat' first
    | with_reducible apply Keeps.refl
    | with_reducible apply keepsOut_next
    | with_reducible apply keepsRes_okReply
    | with_reducible intro _
    | (with_reducible apply keeps_icoux; case w => decide)

theorem keeps_execMirrorSessionWrite (x1 : Cmd) (s : State) : KeepsOut [.flt, .tel, .host, .sw] s (execMirrorSessionWrite x1 s) := by
  unfold execMirrorSessionWrite
  try dsimp only
  repeat' first
    | with_reducible apply Keeps.refl
    | with_reducible apply keepsOut_next
    | with_reducible apply keepsRes_okWrite
    | with_reducible intro _
    | (with_reducible apply keeps_icoux; case w => decide)
    | (with_reducible apply Keeps.step (k := keeps_kiln _ _ _); case w => decide)
    | (with_reducible apply keeps_modSw; case w => decide)

theorem keeps_execMirrorSessionRead (x1 : Cmd) (s : State) : KeepsOut [.flt, .tel, .host] s (execMirrorSessionRead x1 s) := by
  unfold execMirrorSessionRead
  try dsimp only
  repeat' first
    | with_reducible apply Keeps.refl
    | with_reducible apply keepsOut_next
    | with_reducible apply keepsRes_okReply
    | with_reducible intro _
    | (with_reducible apply keeps_icoux; case w => decide)

theorem keeps_execQueueAgeWrite (x1 : Cmd) (s : State) : KeepsOut [.flt, .tel, .host, .sw] s (execQueueAgeWrite x1 s) := by
  unfold execQueueAgeWrite
  try dsimp only
  repeat' first
    | with_reducible apply Keeps.refl
    | with_reducible apply keepsOut_next
    | with_reducible apply keepsRes_okWrite
    | with_reducible intro _
    | (with_reducible apply keeps_icoux; case w => decide)
    | (with_reducible apply keeps_modSw; case w => decide)

theorem keeps_execQueueAgeRead (x1 : Cmd) (s : State) : KeepsOut [.flt, .tel, .host] s (execQueueAgeRead x1 s) := by
  unfold execQueueAgeRead
  try dsimp only
  repeat' first
    | with_reducible apply Keeps.refl
    | with_reducible apply keepsOut_next
    | with_reducible apply keepsRes_okReply
    | with_reducible intro _
    | (with_reducible apply keeps_icoux; case w => decide)

theorem keeps_execDropPolicyWrite (x1 : Cmd) (s : State) : KeepsOut [.limits, .flt, .tel, .host, .sw] s (execDropPolicyWrite x1 s) := by
  unfold execDropPolicyWrite
  try dsimp only
  repeat' first
    | with_reducible assumption
    | with_reducible apply Keeps.refl
    | with_reducible apply keepsOut_next
    | with_reducible apply keepsRes_okWrite
    | with_reducible intro _
    | with_reducible apply keeps_foldl
    | (with_reducible apply keeps_icoux; case w => decide)
    | with_reducible apply keeps_forMask
    | (with_reducible apply keeps_modSw; case w => decide)
    | (with_reducible apply Keeps.step (k := keeps_writeLimit _ _ _ _ _); case w => decide)

theorem keeps_execDropPolicyRead (x1 : Cmd) (s : State) : KeepsOut [.flt, .tel, .host] s (execDropPolicyRead x1 s) := by
  unfold execDropPolicyRead
  try dsimp only
  repeat' first
    | with_reducible apply Keeps.refl
    | with_reducible apply keepsOut_next
    | with_reducible apply keepsRes_okReply
    | with_reducible intro _
    | (with_reducible apply keeps_icoux; case w => decide)

end Sys2Proof.Laws
end

