-- ==== Sys2Proof/Laws/KeepsEgress.lean ====
section
/-!
SUPPORT. What the operations of Egress keep.
-/

set_option linter.all false

namespace Sys2Proof.Laws

open Sys2Proof Sys2Proof.Machine

theorem keeps_captureTwoStep (x1 : Nat) (x2 : Bytes) (s : State) : Keeps [.time, .flt] s (captureTwoStep x1 x2 s) := by
  unfold captureTwoStep
  try dsimp only
  repeat' first
    | with_reducible apply Keeps.refl
    | (with_reducible apply Keeps.step (k := keeps_kilnOnce _ _ _ _); case w => decide)
    | (with_reducible apply keeps_modTime; case w => decide)
    | split

theorem keeps_copyPtp (x1 : Nat) (x2 : Frame) (x3 : Bytes) (x4 : Nat) (x5 : Nat) (x6 : Int) (x7 : Stamp) (s : State) : Keeps [.time, .flt, .tel] s (copyPtp x1 x2 x3 x4 x5 x6 x7 s).2 := by
  unfold copyPtp
  try dsimp only
  repeat' first
    | with_reducible apply Keeps.refl
    | (with_reducible apply Keeps.step (k := keeps_captureTwoStep _ _ _); case w => decide)
    | (with_reducible apply Keeps.step (k := keeps_count _ _ _ _); case w => decide)
    | split

theorem keeps_startCopy (x1 : Nat) (x2 : Nat) (x3 : Int) (s : State) : Keeps [.time, .flt, .tel, .sch] s (startCopy x1 x2 x3 s) := by
  unfold startCopy
  try dsimp only
  repeat' first
    | with_reducible apply Keeps.refl
    | (with_reducible apply Keeps.step (k := keeps_count _ _ _ _); case w => decide)
    | (with_reducible apply Keeps.step (k := keeps_copyPtp _ _ _ _ _ _ _ _); case w => decide)
    | (with_reducible apply Keeps.step (k := keeps_modPortSched _ _ _); case w => decide)
    | split

theorem keeps_postcard (x1 : Copy) (x2 : Tx) (s : State) : Keeps [.limits, .flt, .tel, .fr, .sw] s (postcard x1 x2 s) := by
  unfold postcard
  try dsimp only
  repeat' first
    | with_reducible apply Keeps.refl
    | (with_reducible apply keeps_modTel; case w => decide)
    | (with_reducible apply Keeps.step (k := keeps_count _ _ _ _); case w => decide)
    | (with_reducible apply Keeps.step (k := keeps_takeLimit _ _ _); case w => decide)
    | (with_reducible apply Keeps.step (k := keeps_makeRecord _ _ _ _); case w => decide)
    | split

end Sys2Proof.Laws
end

