-- ==== Sys2Proof/Laws/KeepsSched.lean ====
section
/-!
SUPPORT. What the operations of Sched keep.
-/

set_option linter.all false

namespace Sys2Proof.Laws

open Sys2Proof Sys2Proof.Machine

theorem keeps_execRefillInstant (x1 : Quad) (s : State) : KeepsOut [.sch] s (execRefillInstant x1 s) := by
  unfold execRefillInstant
  try dsimp only
  repeat' first
    | with_reducible apply Keeps.refl
    | with_reducible apply keepsOut_next
    | (with_reducible apply keeps_modSch; case w => decide)

theorem keeps_switchSched (x1 : Nat) (s : State) : Keeps [.sch] s (switchSched x1 s) := by
  unfold switchSched
  try dsimp only
  repeat' first
    | with_reducible apply Keeps.refl
    | (with_reducible apply Keeps.step (k := keeps_modPortSched _ _ _); case w => decide)
    | split

theorem keeps_chargeShapers (x1 : Nat) (x2 : Nat) (x3 : Nat) (x4 : Nat) (s : State) : Keeps [.sch] s (chargeShapers x1 x2 x3 x4 s) := by
  unfold chargeShapers
  try dsimp only
  repeat' first
    | with_reducible assumption
    | with_reducible apply Keeps.refl
    | with_reducible intro _
    | with_reducible apply keeps_foldl
    | (with_reducible apply Keeps.step (k := keeps_modPortSched _ _ _); case w => decide)
    | split

theorem keeps_setNode (x1 : Nat) (x2 : Nat) (x3 : SchedNode) (s : State) : Keeps [.sch] s (setNode x1 x2 x3 s) := by
  unfold setNode
  try dsimp only
  repeat' first
    | with_reducible apply Keeps.refl
    | (with_reducible apply Keeps.step (k := keeps_modPortSched _ _ _); case w => decide)

theorem keeps_serveCopy (x1 : Nat) (x2 : Nat) (x3 : Nat) (x4 : Nat) (x5 : Option Nat) (x6 : Option SchedNode) (x7 : SchedNode) (x8 : Option SchedNode) (x9 : Nat) (x10 : Int) (s : State) : Keeps [.time, .flt, .tel, .buf, .sch] s (serveCopy x1 x2 x3 x4 x5 x6 x7 x8 x9 x10 s) := by
  unfold serveCopy
  try dsimp only
  repeat' first
    | with_reducible apply Keeps.refl
    | (with_reducible apply Keeps.step (k := keeps_chargeShapers _ _ _ _ _); case w => decide)
    | (with_reducible apply Keeps.step (k := keeps_unlinkCopy _ _); case w => decide)
    | (with_reducible apply Keeps.step (k := keeps_setNode _ _ _ _); case w => decide)
    | (with_reducible apply Keeps.step (k := keeps_modCopy _ _ _); case w => decide)
    | (with_reducible apply Keeps.step (k := keeps_count _ _ _ _); case w => decide)
    | (with_reducible apply Keeps.step (k := keeps_startCopy _ _ _ _); case w => decide)
    | split

theorem keeps_takeSelection (x1 : Nat) (x2 : Nat) (x3 : Int) (x4 : Selection) (s : State) : Keeps [.limits, .time, .flt, .tel, .fr, .sw, .buf, .sch] s (takeSelection x1 x2 x3 x4 s).2 := by
  unfold takeSelection
  try dsimp only
  repeat' first
    | with_reducible apply Keeps.refl
    | (with_reducible apply Keeps.step (k := keeps_ageOut _ _); case w => decide)
    | (with_reducible apply Keeps.step (k := keeps_serveCopy _ _ _ _ _ _ _ _ _ _ _); case w => decide)
    | split

theorem keeps_selectOn (x1 : SelectRule) (x2 : Nat) (x3 : Nat) (x4 : Int) (s : State) : Keeps [.limits, .time, .flt, .tel, .fr, .sw, .buf, .sch] s (selectOn x1 x2 x3 x4 s).2 := by
  unfold selectOn
  try dsimp only
  repeat' first
    | with_reducible apply Keeps.refl
    | (with_reducible apply Keeps.step (k := keeps_switchSched _ _); case w => decide)
    | (with_reducible apply Keeps.step (k := keeps_takeSelection _ _ _ _ _); case w => decide)
    | split

theorem keeps_dropOversized (x1 : Nat) (x2 : Nat × Nat) (s : State) : Keeps [.limits, .flt, .tel, .fr, .sw, .buf, .sch] s (dropOversized x1 x2 s) := by
  unfold dropOversized
  try dsimp only
  repeat' first
    | with_reducible apply Keeps.refl
    | (with_reducible apply Keeps.step (k := keeps_dropCopy _ _ _ _); case w => decide)
    | (with_reducible apply Keeps.step (k := keeps_kilnOnce _ _ _ _); case w => decide)
    | (with_reducible apply Keeps.step (k := keeps_count _ _ _ _); case w => decide)

theorem keeps_execSchedulerSelect (x1 : Port) (x2 : Nat) (x3 : Nat) (x4 : Int) (s : State) : KeepsOut [.limits, .time, .flt, .tel, .fr, .sw, .buf, .sch] s (execSchedulerSelect x1 x2 x3 x4 s) := by
  unfold execSchedulerSelect
  try dsimp only
  repeat' first
    | with_reducible apply Keeps.refl
    | with_reducible apply keepsOut_next
    | (with_reducible apply Keeps.step (k := keeps_switchSched _ _); case w => decide)
    | (with_reducible apply Keeps.step (k := keeps_dropOversized _ _ _); case w => decide)
    | (with_reducible apply Keeps.step (k := keeps_selectOn _ _ _ _ _); case w => decide)
    | (with_reducible apply Keeps.step (k := keeps_modPortSched _ _ _); case w => decide)
    | (with_reducible apply Keeps.step (k := keeps_count _ _ _ _); case w => decide)
    | split

theorem keeps_execTxFrameEnd (x1 : Port) (x2 : Bool) (s : State) : KeepsOut [.out, .limits, .flt, .tel, .fr, .sw, .buf, .sch, .pow] s (execTxFrameEnd x1 x2 s) := by
  unfold execTxFrameEnd
  try dsimp only
  repeat' first
    | with_reducible assumption
    | with_reducible apply Keeps.refl
    | with_reducible apply keepsOut_next
    | with_reducible intro _
    | (with_reducible apply keeps_emit; case w => decide)
    | (with_reducible apply Keeps.step (k := keeps_count _ _ _ _); case w => decide)
    | (with_reducible apply Keeps.step (k := keeps_histCount _ _ _); case w => decide)
    | (with_reducible apply Keeps.step (k := keeps_countSent _ _ _); case w => decide)
    | (with_reducible apply Keeps.step (k := keeps_releaseCopy _ _); case w => decide)
    | (with_reducible apply Keeps.step (k := keeps_clearTx _ _ _); case w => decide)
    | (with_reducible apply Keeps.step (k := keeps_postcard _ _ _); case w => decide)
    | (with_reducible apply keeps_detect; case w => decide)
    | (with_reducible apply Keeps.step (k := keeps_kilnInj _ _ _ _); case w => decide)
    | split

theorem keeps_execCutThroughUnderrun (x1 : Port) (x2 : Nat) (s : State) : KeepsOut [.out, .limits, .flt, .tel, .fr, .sw, .buf, .sch, .pow] s (execCutThroughUnderrun x1 x2 s) := by
  unfold execCutThroughUnderrun
  try dsimp only
  repeat' first
    | with_reducible apply Keeps.refl
    | with_reducible apply keepsOut_next
    | (with_reducible apply Keeps.step (k := keeps_stompCopy _ _ _ _ _); case w => decide)
    | split

theorem keeps_startEntry (x1 : Nat) (x2 : Nat) (s : State) : Keeps [.tel, .sch] s (startEntry x1 x2 s) := by
  unfold startEntry
  try dsimp only
  repeat' first
    | with_reducible apply Keeps.refl
    | (with_reducible apply Keeps.step (k := keeps_modPortSched _ _ _); case w => decide)
    | (with_reducible apply Keeps.step (k := keeps_count _ _ _ _); case w => decide)
    | split

theorem keeps_startCycle (x1 : Nat) (x2 : Nat) (x3 : Nat) (s : State) : Keeps [.flt, .tel, .sch] s (startCycle x1 x2 x3 s) := by
  unfold startCycle
  try dsimp only
  repeat' first
    | with_reducible apply Keeps.refl
    | (with_reducible apply Keeps.step (k := keeps_count _ _ _ _); case w => decide)
    | (with_reducible apply Keeps.step (k := keeps_kiln _ _ _); case w => decide)
    | (with_reducible apply Keeps.step (k := keeps_modPortSched _ _ _); case w => decide)
    | (with_reducible apply Keeps.step (k := keeps_startEntry _ _ _); case w => decide)
    | split

theorem keeps_execGateCycle (x1 : Domain') (x2 : Fin 512) (s : State) : KeepsOut [.time, .flt, .tel, .sch] s (execGateCycle x1 x2 s) := by
  unfold execGateCycle
  try dsimp only
  repeat' first
    | with_reducible apply Keeps.refl
    | with_reducible apply keepsOut_next
    | (with_reducible apply Keeps.step (k := keeps_fireEntry _ _ _ _); case w => decide)
    | (with_reducible apply Keeps.step (k := keeps_startCycle _ _ _ _); case w => decide)
    | split

theorem keeps_execGateEntryStart (x1 : Port) (s : State) : KeepsOut [.tel, .sch] s (execGateEntryStart x1 s) := by
  unfold execGateEntryStart
  try dsimp only
  repeat' first
    | with_reducible apply Keeps.refl
    | with_reducible apply keepsOut_next
    | (with_reducible apply Keeps.step (k := keeps_startEntry _ _ _); case w => decide)
    | split

theorem keeps_execSchState (x1 : Port) (s : State) : KeepsOut [.flt, .sch] s (execSchState x1 s) := by
  unfold execSchState
  try dsimp only
  repeat' first
    | with_reducible assumption
    | with_reducible apply Keeps.refl
    | with_reducible apply keepsOut_next
    | with_reducible intro _
    | (with_reducible apply keeps_detect; case w => decide)
    | (with_reducible apply Keeps.step (k := keeps_kilnInj _ _ _ _); case w => decide)
    | (with_reducible apply Keeps.step (k := keeps_modPortSched _ _ _); case w => decide)

theorem keeps_execSchedReload (x1 : Port) (s : State) : KeepsOut [.sch] s (execSchedReload x1 s) := by
  unfold execSchedReload
  try dsimp only
  repeat' first
    | with_reducible apply Keeps.refl
    | with_reducible apply keepsOut_next
    | (with_reducible apply Keeps.step (k := keeps_modPortSched _ _ _); case w => decide)

theorem keeps_execPolState (x1 : Quad) (x2 : Fin 131072) (s : State) : KeepsOut [.flt, .sch] s (execPolState x1 x2 s) := by
  unfold execPolState
  try dsimp only
  repeat' first
    | with_reducible assumption
    | with_reducible apply Keeps.refl
    | with_reducible apply keepsOut_next
    | with_reducible intro _
    | (with_reducible apply keeps_detect; case w => decide)
    | (with_reducible apply Keeps.step (k := keeps_kilnInj _ _ _ _); case w => decide)
    | (with_reducible apply Keeps.step (k := keeps_modPolicer _ _ _); case w => decide)

theorem keeps_execPolicerReload (x1 : Quad) (x2 : Fin 131072) (s : State) : KeepsOut [.sch] s (execPolicerReload x1 x2 s) := by
  unfold execPolicerReload
  try dsimp only
  repeat' first
    | with_reducible apply Keeps.refl
    | with_reducible apply keepsOut_next
    | (with_reducible apply Keeps.step (k := keeps_modPolicer _ _ _); case w => decide)

theorem keeps_execPolicerWrite (x1 : Cmd) (s : State) : KeepsOut [.flt, .tel, .host, .sch] s (execPolicerWrite x1 s) := by
  unfold execPolicerWrite
  try dsimp only
  repeat' first
    | with_reducible apply Keeps.refl
    | with_reducible apply keepsOut_next
    | with_reducible apply keepsRes_okWrite
    | with_reducible intro _
    | (with_reducible apply keeps_icoux; case w => decide)
    | (with_reducible apply Keeps.step (k := keeps_modPolicer _ _ _); case w => decide)

theorem keeps_execPolicerRead (x1 : Cmd) (s : State) : KeepsOut [.flt, .tel, .host] s (execPolicerRead x1 s) := by
  unfold execPolicerRead
  try dsimp only
  repeat' first
    | with_reducible apply Keeps.refl
    | with_reducible apply keepsOut_next
    | with_reducible apply keepsRes_okReply
    | with_reducible intro _
    | (with_reducible apply keeps_icoux; case w => decide)

theorem keeps_execShaperProfileWrite (x1 : Cmd) (s : State) : KeepsOut [.flt, .tel, .host, .sch] s (execShaperProfileWrite x1 s) := by
  unfold execShaperProfileWrite
  try dsimp only
  repeat' first
    | with_reducible assumption
    | with_reducible apply Keeps.refl
    | with_reducible apply keepsOut_next
    | with_reducible apply keepsRes_okWrite
    | with_reducible intro _
    | (with_reducible apply keeps_icoux; case w => decide)
    | with_reducible apply keeps_forMask
    | (with_reducible apply keeps_modSch; case w => decide)

theorem keeps_execShaperProfileRead (x1 : Cmd) (s : State) : KeepsOut [.flt, .tel, .host] s (execShaperProfileRead x1 s) := by
  unfold execShaperProfileRead
  try dsimp only
  repeat' first
    | with_reducible apply Keeps.refl
    | with_reducible apply keepsOut_next
    | with_reducible apply keepsRes_okReply
    | with_reducible intro _
    | (with_reducible apply keeps_icoux; case w => decide)

theorem keeps_execPortSchedWrite (x1 : Cmd) (s : State) : KeepsOut [.flt, .tel, .host, .sch] s (execPortSchedWrite x1 s) := by
  unfold execPortSchedWrite
  try dsimp only
  repeat' first
    | with_reducible apply Keeps.refl
    | with_reducible apply keepsOut_next
    | exact trivial
    | with_reducible apply keepsRes_okWrite
    | with_reducible intro _
    | (with_reducible apply keeps_icoux; case w => decide)
    | (with_reducible apply Keeps.step (k := keeps_modPortSched _ _ _); case w => decide)
    | split

theorem keeps_execPortSchedRead (x1 : Cmd) (s : State) : KeepsOut [.flt, .tel, .host] s (execPortSchedRead x1 s) := by
  unfold execPortSchedRead
  try dsimp only
  repeat' first
    | with_reducible apply Keeps.refl
    | with_reducible apply keepsOut_next
    | with_reducible apply keepsRes_okReply
    | with_reducible intro _
    | (with_reducible apply keeps_icoux; case w => decide)

theorem keeps_execExtQueueWrite (x1 : Cmd) (s : State) : KeepsOut [.flt, .tel, .host, .sch] s (execExtQueueWrite x1 s) := by
  unfold execExtQueueWrite
  try dsimp only
  repeat' first
    | with_reducible apply Keeps.refl
    | with_reducible apply keepsOut_next
    | exact trivial
    | with_reducible apply keepsRes_done
    | with_reducible intro _
    | (with_reducible apply keeps_icoux; case w => decide)
    | (with_reducible apply Keeps.step (k := keeps_kiln _ _ _); case w => decide)
    | (with_reducible apply keeps_modSch; case w => decide)
    | (with_reducible apply Keeps.step (k := keeps_modPortSched _ _ _); case w => decide)
    | split

theorem keeps_execExtQueueRead (x1 : Cmd) (s : State) : KeepsOut [.flt, .tel, .host] s (execExtQueueRead x1 s) := by
  unfold execExtQueueRead
  try dsimp only
  repeat' first
    | with_reducible apply Keeps.refl
    | with_reducible apply keepsOut_next
    | with_reducible apply keepsRes_okReply
    | with_reducible intro _
    | (with_reducible apply keeps_icoux; case w => decide)

theorem keeps_execGateListWrite (x1 : Cmd) (s : State) : KeepsOut [.flt, .tel, .host, .sch] s (execGateListWrite x1 s) := by
  unfold execGateListWrite
  try dsimp only
  repeat' first
    | with_reducible apply Keeps.refl
    | with_reducible apply keepsOut_next
    | exact trivial
    | with_reducible apply keepsRes_okWrite
    | with_reducible intro _
    | (with_reducible apply keeps_icoux; case w => decide)
    | (with_reducible apply Keeps.step (k := keeps_modPortSched _ _ _); case w => decide)
    | split

theorem keeps_execGateListRead (x1 : Cmd) (s : State) : KeepsOut [.flt, .tel, .host] s (execGateListRead x1 s) := by
  unfold execGateListRead
  try dsimp only
  repeat' first
    | with_reducible apply Keeps.refl
    | with_reducible apply keepsOut_next
    | with_reducible apply keepsRes_okReply
    | with_reducible intro _
    | (with_reducible apply keeps_icoux; case w => decide)

theorem keeps_execPortSchedStatus (x1 : Cmd) (s : State) : KeepsOut [.flt, .tel, .host] s (execPortSchedStatus x1 s) := by
  unfold execPortSchedStatus
  try dsimp only
  repeat' first
    | with_reducible apply Keeps.refl
    | with_reducible apply keepsOut_next
    | with_reducible apply keepsRes_okReply
    | with_reducible intro _
    | (with_reducible apply keeps_icoux; case w => decide)

end Sys2Proof.Laws
end

