-- ==== Sys2Proof/Laws/KeepsMatRun.lean ====
section
/-!
SUPPORT. What the operations of MatRun keep.
-/

set_option linter.all false

namespace Sys2Proof.Laws

open Sys2Proof Sys2Proof.Machine

theorem keeps_markFdb (x1 : Nat) (x2 : Option (Nat × Nat)) (x3 : Nat) (s : State) : Keeps [.fwd] s (markFdb x1 x2 x3 s) := by
  unfold markFdb
  try dsimp only
  repeat' first
    | with_reducible apply Keeps.refl
    | (with_reducible apply Keeps.step (k := keeps_modFwdPipe _ _ _); case w => decide)
    | split

theorem keeps_fdbLookup (x1 : Nat) (x2 : Nat) (s : State) : Keeps [.tel, .fr, .fwd, .pow] s (fdbLookup x1 x2 s).2 := by
  unfold fdbLookup
  try dsimp only
  repeat' first
    | with_reducible apply Keeps.refl
    | (with_reducible apply Keeps.step (k := keeps_markFdb _ _ _ _); case w => decide)
    | (with_reducible apply Keeps.step (k := keeps_count _ _ _ _); case w => decide)
    | (with_reducible apply Keeps.step (k := keeps_spendPipe _ _ _ _ _); case w => decide)
    | (with_reducible apply Keeps.step (k := keeps_modFrame _ _ _); case w => decide)

theorem keeps_lpmLookupFrame (x1 : Nat) (x2 : Nat) (s : State) : Keeps [.free, .tel, .fr, .pow] s (lpmLookupFrame x1 x2 s).2 := by
  unfold lpmLookupFrame
  try dsimp only
  repeat' first
    | with_reducible apply Keeps.refl
    | (with_reducible apply keeps_takeFree; case w => decide)
    | (with_reducible apply Keeps.step (k := keeps_count _ _ _ _); case w => decide)
    | (with_reducible apply Keeps.step (k := keeps_spendPipe _ _ _ _ _); case w => decide)
    | (with_reducible apply Keeps.step (k := keeps_modFrame _ _ _); case w => decide)
    | split

theorem keeps_countSlot (x1 : Nat) (x2 : Nat) (x3 : MatStage) (x4 : Nat) (x5 : Bool) (s : State) : Keeps [.tel, .pow] s (countSlot x1 x2 x3 x4 x5 s) := by
  unfold countSlot
  try dsimp only
  repeat' first
    | with_reducible apply Keeps.refl
    | (with_reducible apply Keeps.step (k := keeps_spendPipe _ _ _ _ _); case w => decide)
    | (with_reducible apply Keeps.step (k := keeps_count _ _ _ _); case w => decide)
    | split

theorem keeps_slotEffects (x1 : Nat) (x2 : Nat) (x3 : MatStage) (x4 : Nat) (x5 : Frame) (s : State) (x7 : Nat × SlotResult) : Keeps [.tel, .fr, .mat, .pow] s (slotEffects x1 x2 x3 x4 x5 s x7) := by
  unfold slotEffects
  try dsimp only
  repeat' first
    | with_reducible apply Keeps.refl
    | (with_reducible apply Keeps.step (k := keeps_countSlot _ _ _ _ _ _); case w => decide)
    | (with_reducible apply Keeps.step (k := keeps_modStage _ _ _ _); case w => decide)
    | (with_reducible apply Keeps.step (k := keeps_modFrame _ _ _); case w => decide)
    | split

theorem keeps_stageTables (x1 : Nat) (s : State) : Keeps [.tel, .fr, .mat, .pow] s (stageTables x1 s) := by
  unfold stageTables
  try dsimp only
  repeat' first
    | with_reducible assumption
    | with_reducible apply Keeps.refl
    | with_reducible intro _
    | with_reducible apply keeps_foldl
    | (with_reducible apply Keeps.step (k := keeps_slotEffects _ _ _ _ _ _ _); case w => decide)
    | (with_reducible apply Keeps.step (k := keeps_modFrame _ _ _); case w => decide)

theorem keeps_stageDrop (x1 : Nat) (x2 : Nat) (s : State) : Keeps [.limits, .flt, .tel, .fr, .sw] s (stageDrop x1 x2 s) := by
  unfold stageDrop
  try dsimp only
  repeat' first
    | with_reducible apply Keeps.refl
    | (with_reducible apply Keeps.step (k := keeps_dropFrame _ _ _ _); case w => decide)
    | (with_reducible apply Keeps.step (k := keeps_count _ _ _ _); case w => decide)

theorem keeps_regionLookups (x1 : Nat) (s : State) : Keeps [.free, .tel, .fr, .fwd, .pow] s (regionLookups x1 s).2 := by
  unfold regionLookups
  try dsimp only
  repeat' first
    | with_reducible apply Keeps.refl
    | (with_reducible apply Keeps.step (k := keeps_fdbLookup _ _ _); case w => decide)
    | (with_reducible apply Keeps.step (k := keeps_count _ _ _ _); case w => decide)
    | (with_reducible apply Keeps.step (k := keeps_lpmLookupFrame _ _ _); case w => decide)
    | (with_reducible apply Keeps.step (k := keeps_countSlot _ _ _ _ _ _); case w => decide)
    | split

theorem keeps_enterStage (x1 : Nat) (s : State) : Keeps [.free, .limits, .flt, .tel, .fr, .sw, .mat, .fwd, .pow] s (enterStage x1 s) := by
  unfold enterStage
  try dsimp only
  repeat' first
    | with_reducible apply Keeps.refl
    | (with_reducible apply Keeps.step (k := keeps_modFrame _ _ _); case w => decide)
    | (with_reducible apply Keeps.step (k := keeps_regionLookups _ _); case w => decide)
    | (with_reducible apply Keeps.step (k := keeps_stageDrop _ _ _); case w => decide)
    | (with_reducible apply Keeps.step (k := keeps_stageTables _ _); case w => decide)
    | split

theorem keeps_execStageLookup (x1 : Nat) (s : State) : KeepsOut [.free, .limits, .flt, .tel, .fr, .sw, .mat, .fwd, .pow] s (execStageLookup x1 s) := by
  unfold execStageLookup
  try dsimp only
  repeat' first
    | with_reducible apply Keeps.refl
    | with_reducible apply keepsOut_next
    | (with_reducible apply Keeps.step (k := keeps_enterStage _ _); case w => decide)
    | (with_reducible apply Keeps.step (k := keeps_setFrame _ _ _); case w => decide)
    | split

theorem keeps_execSequencerRelease (x1 : Nat) (s : State) : KeepsOut [.tel, .fr, .fwd, .pow] s (execSequencerRelease x1 s) := by
  unfold execSequencerRelease
  try dsimp only
  repeat' first
    | with_reducible apply Keeps.refl
    | with_reducible apply keepsOut_next
    | (with_reducible apply Keeps.step (k := keeps_hostRequest _ _); case w => decide)
    | (with_reducible apply Keeps.step (k := keeps_modFrame _ _ _); case w => decide)
    | split

theorem keeps_execQuiesceStart (x1 : Pipe) (s : State) : KeepsOut [.mat] s (execQuiesceStart x1 s) := by
  unfold execQuiesceStart
  try dsimp only
  repeat' first
    | with_reducible apply Keeps.refl
    | with_reducible apply keepsOut_next
    | (with_reducible apply Keeps.step (k := keeps_setMatPipe _ _ _); case w => decide)
    | split

theorem keeps_execQuiesceWrite (x1 : Pipe) (x2 : Fin 321) (s : State) : KeepsOut [.tel, .mat] s (execQuiesceWrite x1 x2 s) := by
  unfold execQuiesceWrite
  try dsimp only
  repeat' first
    | with_reducible apply Keeps.refl
    | with_reducible apply keepsOut_next
    | (with_reducible apply Keeps.step (k := keeps_makeWrites _ _ _); case w => decide)
    | (with_reducible apply Keeps.step (k := keeps_count _ _ _ _); case w => decide)
    | (with_reducible apply Keeps.step (k := keeps_setMatPipe _ _ _); case w => decide)
    | split

theorem keeps_execRetiredBufferRelease (x1 : Pipe) (s : State) : KeepsOut [.mat] s (execRetiredBufferRelease x1 s) := by
  unfold execRetiredBufferRelease
  try dsimp only
  repeat' first
    | with_reducible apply Keeps.refl
    | with_reducible apply keepsOut_next
    | (with_reducible apply Keeps.step (k := keeps_setMatPipe _ _ _); case w => decide)
    | split

theorem keeps_execRuleAdd (x1 : Cmd) (s : State) : KeepsOut [.flt, .tel, .host, .mat] s (execRuleAdd x1 s) := by
  unfold execRuleAdd
  try dsimp only
  repeat' first
    | with_reducible apply Keeps.refl
    | with_reducible apply keepsOut_next
    | exact trivial
    | with_reducible apply keepsRes_done
    | with_reducible intro _
    | (with_reducible apply keeps_icoux; case w => decide)
    | (with_reducible apply keeps_modMat; case w => decide)
    | split

theorem keeps_execRuleBatchAbort (x1 : Cmd) (s : State) : KeepsOut [.flt, .tel, .host, .mat] s (execRuleBatchAbort x1 s) := by
  unfold execRuleBatchAbort
  try dsimp only
  repeat' first
    | with_reducible apply Keeps.refl
    | with_reducible apply keepsOut_next
    | with_reducible apply keepsRes_done
    | with_reducible intro _
    | (with_reducible apply keeps_icoux; case w => decide)
    | (with_reducible apply keeps_modMat; case w => decide)

theorem keeps_execRuleBatch (x1 : Cmd) (s : State) : KeepsOut [.flt, .tel, .host, .mat] s (execRuleBatch x1 s) := by
  unfold execRuleBatch
  try dsimp only
  repeat' first
    | with_reducible assumption
    | with_reducible apply Keeps.refl
    | with_reducible apply keepsOut_next
    | exact trivial
    | with_reducible apply keepsRes_done
    | with_reducible intro _
    | with_reducible apply keeps_foldl
    | (with_reducible apply keeps_icoux; case w => decide)
    | (with_reducible apply Keeps.step (k := keeps_setMatPipe _ _ _); case w => decide)
    | (with_reducible apply keeps_modMat; case w => decide)
    | (with_reducible apply Keeps.step (k := keeps_kiln _ _ _); case w => decide)
    | split

theorem keeps_execRuleBatchStatus (x1 : Cmd) (s : State) : KeepsOut [.flt, .tel, .host] s (execRuleBatchStatus x1 s) := by
  unfold execRuleBatchStatus
  try dsimp only
  repeat' first
    | with_reducible apply Keeps.refl
    | with_reducible apply keepsOut_next
    | with_reducible apply keepsRes_okReply
    | with_reducible intro _
    | (with_reducible apply keeps_icoux; case w => decide)

theorem keeps_stageFrameDrop (x1 : Nat) (x2 : Nat) (x3 : Nat) (x4 : Option Nat) (s : State) : Keeps [.limits, .flt, .tel, .fr, .sw] s (stageFrameDrop x1 x2 x3 x4 s) := by
  unfold stageFrameDrop
  try dsimp only
  repeat' first
    | with_reducible apply Keeps.refl
    | (with_reducible apply Keeps.step (k := keeps_stageDrop _ _ _); case w => decide)
    | split

theorem keeps_rowError (x1 : Nat) (x2 : Nat) (x3 : Nat) (x4 : Nat) (s : State) : Keeps [.flt, .mat] s (rowError x1 x2 x3 x4 s) := by
  unfold rowError
  try dsimp only
  repeat' first
    | with_reducible apply Keeps.refl
    | (with_reducible apply Keeps.step (k := keeps_kiln _ _ _); case w => decide)
    | (with_reducible apply Keeps.step (k := keeps_setStage _ _ _ _); case w => decide)
    | split

theorem keeps_poisonExact (x1 : Nat) (x2 : Nat) (x3 : Nat) (x4 : Nat) (s : State) : Keeps [.mat, .fwd] s (poisonExact x1 x2 x3 x4 s) := by
  unfold poisonExact
  try dsimp only
  repeat' first
    | with_reducible apply Keeps.refl
    | (with_reducible apply Keeps.step (k := keeps_modFwdPipe _ _ _); case w => decide)
    | (with_reducible apply Keeps.step (k := keeps_modStage _ _ _ _); case w => decide)
    | split

theorem keeps_execMatExact (x1 : Pipe) (x2 : StageNo) (x3 : Fin 16) (x4 : Fin 4096) (x5 : Option Nat) (s : State) : KeepsOut [.limits, .flt, .tel, .fr, .sw, .mat, .fwd] s (execMatExact x1 x2 x3 x4 x5 s) := by
  unfold execMatExact
  try dsimp only
  repeat' first
    | with_reducible assumption
    | with_reducible apply Keeps.refl
    | with_reducible apply keepsOut_next
    | with_reducible intro _
    | (with_reducible apply keeps_detect; case w => decide)
    | (with_reducible apply Keeps.step (k := keeps_stageFrameDrop _ _ _ _ _); case w => decide)
    | (with_reducible apply Keeps.step (k := keeps_rowError _ _ _ _ _); case w => decide)
    | (with_reducible apply Keeps.step (k := keeps_poisonExact _ _ _ _ _); case w => decide)

theorem keeps_execMatTernary (x1 : Pipe) (x2 : StageNo) (x3 : Fin 4) (x4 : Fin 1024) (x5 : Option Nat) (s : State) : KeepsOut [.limits, .flt, .tel, .fr, .sw, .mat, .fwd] s (execMatTernary x1 x2 x3 x4 x5 s) := by
  unfold execMatTernary
  try dsimp only
  repeat' first
    | with_reducible assumption
    | with_reducible apply Keeps.refl
    | with_reducible apply keepsOut_next
    | with_reducible intro _
    | (with_reducible apply keeps_detect; case w => decide)
    | (with_reducible apply Keeps.step (k := keeps_stageFrameDrop _ _ _ _ _); case w => decide)
    | (with_reducible apply Keeps.step (k := keeps_modFwdPipe _ _ _); case w => decide)
    | (with_reducible apply Keeps.step (k := keeps_modStage _ _ _ _); case w => decide)
    | split

theorem keeps_execMatResult (x1 : Pipe) (x2 : StageNo) (x3 : Fin 4) (x4 : Fin 1024) (x5 : Option Nat) (s : State) : KeepsOut [.limits, .flt, .tel, .fr, .sw, .mat, .fwd] s (execMatResult x1 x2 x3 x4 x5 s) := by
  unfold execMatResult
  try dsimp only
  repeat' first
    | with_reducible assumption
    | with_reducible apply Keeps.refl
    | with_reducible apply keepsOut_next
    | with_reducible intro _
    | (with_reducible apply keeps_detect; case w => decide)
    | (with_reducible apply Keeps.step (k := keeps_stageFrameDrop _ _ _ _ _); case w => decide)
    | (with_reducible apply Keeps.step (k := keeps_modFwdPipe _ _ _); case w => decide)
    | (with_reducible apply Keeps.step (k := keeps_modStage _ _ _ _); case w => decide)
    | split

theorem keeps_execRowRewrite (x1 : Pipe) (x2 : StageNo) (x3 : RowRef) (s : State) : KeepsOut [.mat, .fwd] s (execRowRewrite x1 x2 x3 s) := by
  unfold execRowRewrite
  try dsimp only
  repeat' first
    | with_reducible apply Keeps.refl
    | with_reducible apply keepsOut_next
    | (with_reducible apply Keeps.step (k := keeps_modStage _ _ _ _); case w => decide)
    | (with_reducible apply Keeps.step (k := keeps_modFwdPipe _ _ _); case w => decide)
    | split

theorem keeps_execMatDesc (x1 : Pipe) (x2 : StageNo) (x3 : Option Nat) (s : State) : KeepsOut [.limits, .flt, .tel, .fr, .sw, .mat] s (execMatDesc x1 x2 x3 s) := by
  unfold execMatDesc
  try dsimp only
  repeat' first
    | with_reducible assumption
    | with_reducible apply Keeps.refl
    | with_reducible apply keepsOut_next
    | with_reducible intro _
    | (with_reducible apply keeps_detect; case w => decide)
    | (with_reducible apply Keeps.step (k := keeps_kilnInj _ _ _ _); case w => decide)
    | (with_reducible apply Keeps.step (k := keeps_modStage _ _ _ _); case w => decide)
    | (with_reducible apply Keeps.step (k := keeps_stageFrameDrop _ _ _ _ _); case w => decide)

theorem keeps_execStageReload (x1 : Pipe) (x2 : StageNo) (s : State) : KeepsOut [.mat] s (execStageReload x1 x2 s) := by
  unfold execStageReload
  try dsimp only
  repeat' first
    | with_reducible apply Keeps.refl
    | with_reducible apply keepsOut_next
    | (with_reducible apply Keeps.step (k := keeps_modStage _ _ _ _); case w => decide)

theorem keeps_execMatPath (x1 : Pipe) (x2 : Nat) (s : State) : KeepsOut [.limits, .flt, .tel, .fr, .sw] s (execMatPath x1 x2 s) := by
  unfold execMatPath
  try dsimp only
  repeat' first
    | with_reducible assumption
    | with_reducible apply Keeps.refl
    | with_reducible apply keepsOut_next
    | with_reducible intro _
    | (with_reducible apply keeps_detect; case w => decide)
    | (with_reducible apply Keeps.step (k := keeps_stageDrop _ _ _); case w => decide)
    | split

end Sys2Proof.Laws
end

