-- ==== Sys2Proof/Laws/KeepsSig.lean ====
section
/-!
SUPPORT. What the operations of Sig keep.
-/

set_option linter.all false

namespace Sys2Proof.Laws

open Sys2Proof Sys2Proof.Machine

theorem keeps_setEngine (x1 : Nat) (x2 : SigEngine) (s : State) : Keeps [.sig] s (setEngine x1 x2 s) := by
  unfold setEngine
  try dsimp only
  repeat' first
    | with_reducible apply Keeps.refl
    | (with_reducible apply keeps_modSig; case w => decide)

theorem keeps_execSigDispatch (x1 : Nat) (s : State) : KeepsOut [.flt, .tel, .sig] s (execSigDispatch x1 s) := by
  unfold execSigDispatch
  try dsimp only
  repeat' first
    | with_reducible apply Keeps.refl
    | with_reducible apply keepsOut_next
    | (with_reducible apply Keeps.step (k := keeps_modInspReq _ _ _ _); case w => decide)
    | (with_reducible apply Keeps.step (k := keeps_kilnOnce _ _ _ _); case w => decide)
    | (with_reducible apply Keeps.step (k := keeps_count _ _ _ _); case w => decide)
    | split

theorem keeps_execSigScanDone (x1 : Nat) (s : State) : KeepsOut [.tel, .sig] s (execSigScanDone x1 s) := by
  unfold execSigScanDone
  try dsimp only
  repeat' first
    | with_reducible assumption
    | with_reducible apply Keeps.refl
    | with_reducible apply keepsOut_next
    | with_reducible intro _
    | with_reducible apply keeps_foldl
    | (with_reducible apply Keeps.step (k := keeps_modInspReq _ _ _ _); case w => decide)
    | (with_reducible apply Keeps.step (k := keeps_count _ _ _ _); case w => decide)
    | split

theorem keeps_joinScan (x1 : Nat) (x2 : Nat) (s : State) : Keeps [.flt, .tel, .sig] s (joinScan x1 x2 s) := by
  unfold joinScan
  try dsimp only
  repeat' first
    | with_reducible apply Keeps.refl
    | (with_reducible apply Keeps.step (k := keeps_modInspReq _ _ _ _); case w => decide)
    | (with_reducible apply Keeps.step (k := keeps_kilnOnce _ _ _ _); case w => decide)
    | (with_reducible apply Keeps.step (k := keeps_count _ _ _ _); case w => decide)
    | split

theorem keeps_inspect (x1 : Nat) (s : State) : Keeps [.limits, .flt, .tel, .fr, .sw, .mat, .sig] s (inspect x1 s) := by
  unfold inspect
  try dsimp only
  repeat' first
    | with_reducible apply Keeps.refl
    | (with_reducible apply Keeps.step (k := keeps_dropFrame _ _ _ _); case w => decide)
    | (with_reducible apply Keeps.step (k := keeps_kilnOnce _ _ _ _); case w => decide)
    | (with_reducible apply Keeps.step (k := keeps_count _ _ _ _); case w => decide)
    | (with_reducible apply Keeps.step (k := keeps_setInspReqs _ _ _); case w => decide)
    | (with_reducible apply Keeps.step (k := keeps_modFrame _ _ _); case w => decide)
    | (with_reducible apply Keeps.step (k := keeps_joinScan _ _ _); case w => decide)
    | (with_reducible apply Keeps.step (k := keeps_modInspReq _ _ _ _); case w => decide)
    | (with_reducible apply Keeps.step (k := keeps_requestWalk _ _ _ _); case w => decide)
    | split

theorem keeps_endInspection (x1 : Nat) (x2 : Nat) (s : State) : Keeps [.mat, .sig] s (endInspection x1 x2 s) := by
  unfold endInspection
  try dsimp only
  repeat' first
    | with_reducible apply Keeps.refl
    | (with_reducible apply Keeps.step (k := keeps_returnWalks _ _); case w => decide)
    | (with_reducible apply Keeps.step (k := keeps_setWalks _ _ _); case w => decide)
    | (with_reducible apply Keeps.step (k := keeps_setInspReqs _ _ _); case w => decide)

theorem keeps_execInspectionReturn (x1 : Nat) (s : State) : KeepsOut [.limits, .flt, .tel, .fr, .sw, .mat, .sig] s (execInspectionReturn x1 s) := by
  unfold execInspectionReturn
  try dsimp only
  repeat' first
    | with_reducible apply Keeps.refl
    | with_reducible apply keepsOut_next
    | (with_reducible apply Keeps.step (k := keeps_dropFrame _ _ _ _); case w => decide)
    | (with_reducible apply Keeps.step (k := keeps_endInspection _ _ _); case w => decide)
    | (with_reducible apply Keeps.step (k := keeps_newFrame _ _); case w => decide)
    | (with_reducible apply Keeps.step (k := keeps_spend _ _); case w => decide)
    | split

theorem keeps_execSigEngineWrite (x1 : Cmd) (s : State) : KeepsOut [.flt, .tel, .host, .sig] s (execSigEngineWrite x1 s) := by
  unfold execSigEngineWrite
  try dsimp only
  repeat' first
    | with_reducible apply Keeps.refl
    | with_reducible apply keepsOut_next
    | with_reducible apply keepsRes_later
    | with_reducible intro _
    | (with_reducible apply keeps_icoux; case w => decide)
    | (with_reducible apply keeps_modSig; case w => decide)
    | (with_reducible apply Keeps.step (k := keeps_setEngine _ _ _); case w => decide)

theorem keeps_execSigEngineRead (x1 : Cmd) (s : State) : KeepsOut [.flt, .tel, .host] s (execSigEngineRead x1 s) := by
  unfold execSigEngineRead
  try dsimp only
  repeat' first
    | with_reducible apply Keeps.refl
    | with_reducible apply keepsOut_next
    | with_reducible apply keepsRes_okReply
    | with_reducible intro _
    | (with_reducible apply keeps_icoux; case w => decide)

theorem keeps_startLoading (x1 : Nat) (s : State) : Keeps [.sig] s (startLoading x1 s) := by
  unfold startLoading
  try dsimp only
  repeat' first
    | with_reducible apply Keeps.refl
    | (with_reducible apply Keeps.step (k := keeps_setEngine _ _ _); case w => decide)

theorem keeps_execSigReload (x1 : Engine) (s : State) : KeepsOut [.flt, .host, .sig] s (execSigReload x1 s) := by
  unfold execSigReload
  try dsimp only
  repeat' first
    | with_reducible assumption
    | with_reducible apply Keeps.refl
    | with_reducible apply keepsOut_next
    | with_reducible intro _
    | with_reducible apply keeps_foldl
    | (with_reducible apply Keeps.step (k := keeps_kiln _ _ _); case w => decide)
    | (with_reducible apply Keeps.step (k := keeps_setEngine _ _ _); case w => decide)
    | (with_reducible apply keeps_modSig; case w => decide)
    | (with_reducible apply Keeps.step (k := keeps_startLoading _ _); case w => decide)
    | (with_reducible apply Keeps.step (k := keeps_endRunning _ _ _ _ _); case w => decide)
    | split

theorem keeps_execSigProfileWrite (x1 : Cmd) (s : State) : KeepsOut [.flt, .tel, .host, .sig] s (execSigProfileWrite x1 s) := by
  unfold execSigProfileWrite
  try dsimp only
  repeat' first
    | with_reducible assumption
    | with_reducible apply Keeps.refl
    | with_reducible apply keepsOut_next
    | with_reducible apply keepsRes_okWrite
    | with_reducible intro _
    | (with_reducible apply keeps_icoux; case w => decide)
    | with_reducible apply keeps_forMask
    | (with_reducible apply keeps_modSig; case w => decide)

theorem keeps_execSigProfileRead (x1 : Cmd) (s : State) : KeepsOut [.flt, .tel, .host] s (execSigProfileRead x1 s) := by
  unfold execSigProfileRead
  try dsimp only
  repeat' first
    | with_reducible apply Keeps.refl
    | with_reducible apply keepsOut_next
    | with_reducible apply keepsRes_okReply
    | with_reducible intro _
    | (with_reducible apply keeps_icoux; case w => decide)

theorem keeps_execSigRuleWrite (x1 : Cmd) (s : State) : KeepsOut [.flt, .tel, .host, .sig] s (execSigRuleWrite x1 s) := by
  unfold execSigRuleWrite
  try dsimp only
  repeat' first
    | with_reducible assumption
    | with_reducible apply Keeps.refl
    | with_reducible apply keepsOut_next
    | with_reducible apply keepsRes_okWrite
    | with_reducible intro _
    | (with_reducible apply keeps_icoux; case w => decide)
    | with_reducible apply keeps_forMask
    | (with_reducible apply keeps_modSig; case w => decide)

theorem keeps_execSigRuleRead (x1 : Cmd) (s : State) : KeepsOut [.flt, .tel, .host] s (execSigRuleRead x1 s) := by
  unfold execSigRuleRead
  try dsimp only
  repeat' first
    | with_reducible apply Keeps.refl
    | with_reducible apply keepsOut_next
    | with_reducible apply keepsRes_okReply
    | with_reducible intro _
    | (with_reducible apply keeps_icoux; case w => decide)

theorem keeps_execSigStatus (x1 : Cmd) (s : State) : KeepsOut [.flt, .tel, .host] s (execSigStatus x1 s) := by
  unfold execSigStatus
  try dsimp only
  repeat' first
    | with_reducible apply Keeps.refl
    | with_reducible apply keepsOut_next
    | with_reducible apply keepsRes_okReply
    | with_reducible intro _
    | (with_reducible apply keeps_icoux; case w => decide)

theorem keeps_sigMismatch (x1 : Nat) (x2 : Nat) (s : State) : Keeps [.flt] s (sigMismatch x1 x2 s) := by
  unfold sigMismatch
  try dsimp only
  repeat' first
    | with_reducible assumption
    | with_reducible apply Keeps.refl
    | with_reducible intro _
    | (with_reducible apply keeps_detect; case w => decide)
    | (with_reducible apply Keeps.step (k := keeps_kilnInj _ _ _ _); case w => decide)

theorem keeps_execSigStore (x1 : Engine) (x2 : Bool) (x3 : Nat) (x4 : Option Nat) (s : State) : KeepsOut [.flt, .tel, .sig] s (execSigStore x1 x2 x3 x4 s) := by
  unfold execSigStore
  try dsimp only
  repeat' first
    | with_reducible assumption
    | with_reducible apply Keeps.refl
    | with_reducible apply keepsOut_next
    | with_reducible intro _
    | (with_reducible apply Keeps.step (k := keeps_sigMismatch _ _ _); case w => decide)
    | (with_reducible apply keeps_detect; case w => decide)
    | (with_reducible apply Keeps.step (k := keeps_kilnInj _ _ _ _); case w => decide)
    | (with_reducible apply Keeps.step (k := keeps_setEngine _ _ _); case w => decide)
    | (with_reducible apply Keeps.step (k := keeps_count _ _ _ _); case w => decide)
    | (with_reducible apply Keeps.step (k := keeps_modInspReq _ _ _ _); case w => decide)
    | split

theorem keeps_execSigPath (x1 : Quad) (x2 : Nat) (s : State) : KeepsOut [.limits, .flt, .tel, .fr, .sw, .mat, .sig] s (execSigPath x1 x2 s) := by
  unfold execSigPath
  try dsimp only
  repeat' first
    | with_reducible assumption
    | with_reducible apply Keeps.refl
    | with_reducible apply keepsOut_next
    | with_reducible intro _
    | (with_reducible apply keeps_detect; case w => decide)
    | (with_reducible apply Keeps.step (k := keeps_dropFrame _ _ _ _); case w => decide)
    | (with_reducible apply Keeps.step (k := keeps_endInspection _ _ _); case w => decide)
    | split

end Sys2Proof.Laws
end

