-- ==== Sys2Proof/Laws/KeepsObserve.lean ====
section
/-!
SUPPORT. What the operations of Observe keep.
-/

set_option linter.all false

namespace Sys2Proof.Laws

open Sys2Proof Sys2Proof.Machine

theorem keeps_skipEntry (x1 : Nat) (x2 : Nat) (s : State) : Keeps [.time] s (skipEntry x1 x2 s) := by
  unfold skipEntry
  try dsimp only
  repeat' first
    | with_reducible apply Keeps.refl
    | (with_reducible apply Keeps.step (k := keeps_setEntry _ _ _ _); case w => decide)

theorem keeps_takeFreeze (x1 : Nat) (x2 : Nat) (x3 : Nat) (x4 : Stamp) (x5 : Bool) (s : State) : Keeps [.time, .flt, .tel] s (takeFreeze x1 x2 x3 x4 x5 s) := by
  unfold takeFreeze
  try dsimp only
  repeat' first
    | with_reducible apply Keeps.refl
    | (with_reducible apply keeps_modTel; case w => decide)
    | (with_reducible apply Keeps.step (k := keeps_count _ _ _ _); case w => decide)
    | (with_reducible apply Keeps.step (k := keeps_kiln _ _ _); case w => decide)
    | (with_reducible apply Keeps.step (k := keeps_skipEntry _ _ _); case w => decide)
    | split

theorem keeps_execCounterFreeze (x1 : Quad) (x2 : Domain') (x3 : Fin 512) (s : State) : KeepsOut [.time, .flt, .tel] s (execCounterFreeze x1 x2 x3 s) := by
  unfold execCounterFreeze
  try dsimp only
  repeat' first
    | with_reducible apply Keeps.refl
    | with_reducible apply keepsOut_next
    | (with_reducible apply Keeps.step (k := keeps_takeFreeze _ _ _ _ _ _); case w => decide)
    | (with_reducible apply Keeps.step (k := keeps_fireEntry _ _ _ _); case w => decide)
    | split

theorem keeps_countLateSweep (x1 : Nat) (x2 : Nat) (s : State) : Keeps [.tel] s (countLateSweep x1 x2 s) := by
  unfold countLateSweep
  try dsimp only
  repeat' first
    | with_reducible apply Keeps.refl
    | (with_reducible apply Keeps.step (k := keeps_count _ _ _ _); case w => decide)
    | (with_reducible apply keeps_modTel; case w => decide)
    | split

theorem keeps_execFreezeSweepDone (x1 : Quad) (s : State) : KeepsOut [.flt, .tel] s (execFreezeSweepDone x1 s) := by
  unfold execFreezeSweepDone
  try dsimp only
  repeat' first
    | with_reducible apply Keeps.refl
    | with_reducible apply keepsOut_next
    | (with_reducible apply Keeps.step (k := keeps_countLateSweep _ _ _); case w => decide)
    | (with_reducible apply keeps_modTel; case w => decide)
    | (with_reducible apply Keeps.step (k := keeps_kiln _ _ _); case w => decide)
    | split

theorem keeps_execFreezePublish (s : State) : KeepsOut [.tel] s (execFreezePublish s) := by
  unfold execFreezePublish
  try dsimp only
  repeat' first
    | with_reducible apply Keeps.refl
    | with_reducible apply keepsOut_next
    | (with_reducible apply keeps_modTel; case w => decide)
    | split

theorem keeps_rollDie (x1 : Nat) (x2 : Nat) (x3 : List Sweep) (s : State) : Keeps [.tel] s (rollDie x1 x2 x3 s) := by
  unfold rollDie
  try dsimp only
  repeat' first
    | with_reducible apply Keeps.refl
    | (with_reducible apply keeps_modTel; case w => decide)

theorem keeps_takeRollover (x1 : Nat) (x2 : Nat) (x3 : Nat) (x4 : Stamp) (s : State) : Keeps [.time, .flt, .tel] s (takeRollover x1 x2 x3 x4 s) := by
  unfold takeRollover
  try dsimp only
  repeat' first
    | with_reducible apply Keeps.refl
    | (with_reducible apply Keeps.step (k := keeps_count _ _ _ _); case w => decide)
    | (with_reducible apply keeps_modTel; case w => decide)
    | (with_reducible apply Keeps.step (k := keeps_rollDie _ _ _ _); case w => decide)
    | (with_reducible apply Keeps.step (k := keeps_kiln _ _ _); case w => decide)
    | (with_reducible apply Keeps.step (k := keeps_skipEntry _ _ _); case w => decide)
    | split

theorem keeps_execHistogramRollover (x1 : Quad) (x2 : Domain') (x3 : Fin 512) (s : State) : KeepsOut [.time, .flt, .tel] s (execHistogramRollover x1 x2 x3 s) := by
  unfold execHistogramRollover
  try dsimp only
  repeat' first
    | with_reducible apply Keeps.refl
    | with_reducible apply keepsOut_next
    | (with_reducible apply Keeps.step (k := keeps_takeRollover _ _ _ _ _); case w => decide)
    | (with_reducible apply Keeps.step (k := keeps_fireEntry _ _ _ _); case w => decide)
    | split

theorem keeps_execRolloverPublish (s : State) : KeepsOut [.tel] s (execRolloverPublish s) := by
  unfold execRolloverPublish
  try dsimp only
  repeat' first
    | with_reducible apply Keeps.refl
    | with_reducible apply keepsOut_next
    | (with_reducible apply keeps_modTel; case w => decide)
    | split

theorem keeps_execCounterRead (x1 : Cmd) (s : State) : KeepsOut [.flt, .tel, .host] s (execCounterRead x1 s) := by
  unfold execCounterRead
  try dsimp only
  repeat' first
    | with_reducible apply Keeps.refl
    | with_reducible apply keepsOut_next
    | exact trivial
    | with_reducible apply keepsRes_okReply
    | with_reducible intro _
    | (with_reducible apply keeps_icoux; case w => decide)
    | split

theorem keeps_execTelemetryProfileWrite (x1 : Cmd) (s : State) : KeepsOut [.flt, .tel, .host] s (execTelemetryProfileWrite x1 s) := by
  unfold execTelemetryProfileWrite
  try dsimp only
  repeat' first
    | with_reducible assumption
    | with_reducible apply Keeps.refl
    | with_reducible apply keepsOut_next
    | exact trivial
    | with_reducible apply keepsRes_okWrite
    | with_reducible intro _
    | (with_reducible apply keeps_icoux; case w => decide)
    | with_reducible apply keeps_forMask
    | (with_reducible apply keeps_modTel; case w => decide)
    | split

theorem keeps_execTelemetryProfileRead (x1 : Cmd) (s : State) : KeepsOut [.flt, .tel, .host] s (execTelemetryProfileRead x1 s) := by
  unfold execTelemetryProfileRead
  try dsimp only
  repeat' first
    | with_reducible apply Keeps.refl
    | with_reducible apply keepsOut_next
    | with_reducible apply keepsRes_okReply
    | with_reducible intro _
    | (with_reducible apply keeps_icoux; case w => decide)

theorem keeps_execExporterWrite (x1 : Cmd) (s : State) : KeepsOut [.limits, .time, .flt, .tel, .host] s (execExporterWrite x1 s) := by
  unfold execExporterWrite
  try dsimp only
  repeat' first
    | with_reducible apply Keeps.refl
    | with_reducible apply keepsOut_next
    | with_reducible apply keepsRes_okWrite
    | with_reducible intro _
    | (with_reducible apply keeps_icoux; case w => decide)
    | (with_reducible apply Keeps.step (k := keeps_setExporter _ _ _); case w => decide)
    | (with_reducible apply Keeps.step (k := keeps_writeLimit _ _ _ _ _); case w => decide)
    | (with_reducible apply Keeps.step (k := keeps_placeOwn _ _ _ _ _ _ _); case w => decide)

theorem keeps_execExporterRead (x1 : Cmd) (s : State) : KeepsOut [.flt, .tel, .host] s (execExporterRead x1 s) := by
  unfold execExporterRead
  try dsimp only
  repeat' first
    | with_reducible apply Keeps.refl
    | with_reducible apply keepsOut_next
    | with_reducible apply keepsRes_okReply
    | with_reducible intro _
    | (with_reducible apply keeps_icoux; case w => decide)

theorem keeps_flushExporter (e n : Nat) (s : State) : Keeps [.tel, .fr, .sw] s (flushExporter e n s) := by
  induction n generalizing s with
  | zero => exact Keeps.refl _ _
  | succ n ih =>
    simp only [flushExporter]
    split
    · exact Keeps.refl _ _
    · exact (Keeps.step (Keeps.refl _ _) (keeps_sendExport _ _) (by decide)).trans (ih _)

theorem keeps_execTelemetryEpoch (x1 : Quad) (x2 : Domain') (x3 : Fin 512) (s : State) : KeepsOut [.time, .flt, .tel, .fr, .sw] s (execTelemetryEpoch x1 x2 x3 s) := by
  unfold execTelemetryEpoch
  try dsimp only
  repeat' first
    | with_reducible apply Keeps.refl
    | with_reducible apply keepsOut_next
    | (with_reducible apply Keeps.step (k := keeps_fireEntry _ _ _ _); case w => decide)
    | (with_reducible apply Keeps.step (k := keeps_flushExporter _ _ _); case w => decide)
    | split

theorem keeps_execObserverGrantWrite (x1 : Cmd) (s : State) : KeepsOut [.flt, .tel, .host] s (execObserverGrantWrite x1 s) := by
  unfold execObserverGrantWrite
  try dsimp only
  repeat' first
    | with_reducible apply Keeps.refl
    | with_reducible apply keepsOut_next
    | with_reducible apply keepsRes_okWrite
    | with_reducible intro _
    | (with_reducible apply keeps_icoux; case w => decide)
    | (with_reducible apply Keeps.step (k := keeps_kiln _ _ _); case w => decide)
    | (with_reducible apply keeps_modTel; case w => decide)

theorem keeps_execObserverGrantRead (x1 : Cmd) (s : State) : KeepsOut [.flt, .tel, .host] s (execObserverGrantRead x1 s) := by
  unfold execObserverGrantRead
  try dsimp only
  repeat' first
    | with_reducible apply Keeps.refl
    | with_reducible apply keepsOut_next
    | with_reducible apply keepsRes_okReply
    | with_reducible intro _
    | (with_reducible apply keeps_icoux; case w => decide)

theorem keeps_execTelCounter (x1 : Quad) (x2 : Bool) (x3 : Nat) (s : State) : KeepsOut [.free, .flt, .tel] s (execTelCounter x1 x2 x3 s) := by
  unfold execTelCounter
  try dsimp only
  repeat' first
    | with_reducible assumption
    | with_reducible apply Keeps.refl
    | with_reducible apply keepsOut_next
    | with_reducible intro _
    | (with_reducible apply keeps_detect; case w => decide)
    | (with_reducible apply keeps_takeFree; case w => decide)
    | (with_reducible apply keeps_modTel; case w => decide)
    | (with_reducible apply Keeps.step (k := keeps_kilnInj _ _ _ _); case w => decide)
    | (with_reducible apply Keeps.step (k := keeps_count _ _ _ _); case w => decide)
    | split

theorem keeps_execTelExport (x1 : Fin 4) (x2 : Nat) (s : State) : KeepsOut [.flt, .tel] s (execTelExport x1 x2 s) := by
  unfold execTelExport
  try dsimp only
  repeat' first
    | with_reducible assumption
    | with_reducible apply Keeps.refl
    | with_reducible apply keepsOut_next
    | with_reducible intro _
    | (with_reducible apply keeps_detect; case w => decide)
    | (with_reducible apply Keeps.step (k := keeps_kilnInj _ _ _ _); case w => decide)
    | (with_reducible apply Keeps.step (k := keeps_loseRecords _ _ _); case w => decide)
    | (with_reducible apply Keeps.step (k := keeps_setExporter _ _ _); case w => decide)

theorem keeps_execTelExportReload (x1 : Fin 4) (s : State) : KeepsOut [.tel] s (execTelExportReload x1 s) := by
  unfold execTelExportReload
  try dsimp only
  repeat' first
    | with_reducible apply Keeps.refl
    | with_reducible apply keepsOut_next
    | (with_reducible apply Keeps.step (k := keeps_setExporter _ _ _); case w => decide)

theorem keeps_execScrubEpoch (x1 : Quad) (x2 : Domain') (x3 : Fin 512) (s : State) : KeepsOut [.time, .flt, .buf] s (execScrubEpoch x1 x2 x3 s) := by
  unfold execScrubEpoch
  try dsimp only
  repeat' first
    | with_reducible apply Keeps.refl
    | with_reducible apply keepsOut_next
    | (with_reducible apply Keeps.step (k := keeps_modQuad _ _ _); case w => decide)
    | (with_reducible apply Keeps.step (k := keeps_fireEntry _ _ _ _); case w => decide)
    | split

theorem keeps_execBackgroundPeriodEnd (x1 : Quad) (x2 : Fin 6) (s : State) : KeepsOut [.flt, .tel, .buf, .pow] s (execBackgroundPeriodEnd x1 x2 s) := by
  unfold execBackgroundPeriodEnd
  try dsimp only
  repeat' first
    | with_reducible apply Keeps.refl
    | with_reducible apply keepsOut_next
    | (with_reducible apply Keeps.step (k := keeps_countLateSweep _ _ _); case w => decide)
    | (with_reducible apply keeps_modPow; case w => decide)
    | (with_reducible apply Keeps.step (k := keeps_countScrubOverrun _ _ _ _); case w => decide)
    | split

theorem keeps_execBackgroundSlotGrant (x1 : Option Engine) (x2 : Option Nat) (x3 : Bool) (s : State) : KeepsOut [.flt, .sig] s (execBackgroundSlotGrant x1 x2 x3 s) := by
  unfold execBackgroundSlotGrant
  try dsimp only
  repeat' first
    | with_reducible apply Keeps.refl
    | with_reducible apply keepsOut_next
    | (with_reducible apply Keeps.step (k := keeps_sigMismatch _ _ _); case w => decide)
    | (with_reducible apply Keeps.step (k := keeps_setEngine _ _ _); case w => decide)
    | split

end Sys2Proof.Laws
end

