-- ==== Sys2Proof/Laws/KeepsPower.lean ====
section
/-!
SUPPORT. What the operations of Power keep.
-/

set_option linter.all false

namespace Sys2Proof.Laws

open Sys2Proof Sys2Proof.Machine

theorem keeps_setPartitionN (x1 : Nat) (x2 : Nat) (s : State) : Keeps [.pow] s (setPartitionN x1 x2 s) := by
  unfold setPartitionN
  try dsimp only
  repeat' first
    | with_reducible apply Keeps.refl
    | (with_reducible apply keeps_modPow; case w => decide)

theorem keeps_setLaneAge (x1 : Nat) (x2 : LaneAge) (s : State) : Keeps [.pow] s (setLaneAge x1 x2 s) := by
  unfold setLaneAge
  try dsimp only
  repeat' first
    | with_reducible apply Keeps.refl
    | (with_reducible apply keeps_modPow; case w => decide)

theorem keeps_stepCompute (x1 : PowerIn) (x2 : Bool) (x3 : Nat) (s : State) : Keeps [.pow] s (stepCompute x1 x2 x3 s).2 := by
  unfold stepCompute
  try dsimp only
  repeat' first
    | with_reducible assumption
    | with_reducible apply Keeps.refl
    | with_reducible intro _
    | with_reducible apply keeps_foldl
    | (with_reducible apply Keeps.step (k := keeps_setPartitionN _ _ _); case w => decide)
    | split

theorem keeps_stepMemory (x1 : PowerIn) (x2 : Nat) (s : State) : Keeps [.pow] s (stepMemory x1 x2 s).2 := by
  unfold stepMemory
  try dsimp only
  repeat' first
    | with_reducible apply Keeps.refl
    | (with_reducible apply keeps_modPow; case w => decide)
    | split

theorem keeps_stepLinks (x1 : Nat) (s : State) : Keeps [.pow] s (stepLinks x1 s).2 := by
  unfold stepLinks
  try dsimp only
  repeat' first
    | with_reducible apply Keeps.refl
    | (with_reducible apply keeps_modPow; case w => decide)
    | split

theorem keeps_reduceClass (p : PowerIn) (th : Bool) (a : Int × State) (c : Nat) : Keeps [.pow] a.2 (reduceClass p th a c).2 := by
  unfold reduceClass
  dsimp only
  repeat' first
    | with_reducible assumption
    | with_reducible apply Keeps.refl
    | (with_reducible apply keeps_of_pair; case e => with_reducible assumption)
    | (with_reducible apply Keeps.step (k := keeps_stepCompute _ _ _ _); case w => decide)
    | (with_reducible apply Keeps.step (k := keeps_stepMemory _ _ _); case w => decide)
    | (with_reducible apply Keeps.step (k := keeps_stepLinks _ _); case w => decide)
    | split

theorem keeps_releaseStep (s : State) : Keeps [.pow] s (releaseStep s) := by
  unfold releaseStep
  try dsimp only
  repeat' first
    | with_reducible apply Keeps.refl
    | (with_reducible apply keeps_modPow; case w => decide)
    | split

theorem keeps_watchFloor (x1 : Int) (x2 : PowerIn) (s : State) : Keeps [.flt, .pow] s (watchFloor x1 x2 s) := by
  unfold watchFloor
  try dsimp only
  repeat' first
    | with_reducible assumption
    | with_reducible apply Keeps.refl
    | with_reducible intro _
    | (with_reducible apply keeps_modPow; case w => decide)
    | (with_reducible apply Keeps.step (k := keeps_kiln _ _ _); case w => decide)
    | (with_reducible apply keeps_detect; case w => decide)
    | (with_reducible apply Keeps.step (k := keeps_kilnInj _ _ _ _); case w => decide)
    | split

theorem keeps_noteThermal (s : State) : Keeps [.flt, .pow] s (noteThermal s) := by
  unfold noteThermal
  try dsimp only
  repeat' first
    | with_reducible apply Keeps.refl
    | (with_reducible apply keeps_modPow; case w => decide)
    | (with_reducible apply Keeps.step (k := keeps_kiln _ _ _); case w => decide)
    | split

theorem keeps_controlCycle (x1 : PowerIn) (s : State) : Keeps [.flt, .pow] s (controlCycle x1 s) := by
  unfold controlCycle
  try dsimp only
  repeat' first
    | with_reducible assumption
    | with_reducible apply Keeps.refl
    | with_reducible intro _
    | with_reducible apply keeps_foldl
    | with_reducible apply keeps_pair_foldl
    | (with_reducible apply Keeps.step (k := keeps_setPartitionN _ _ _); case w => decide)
    | (with_reducible apply Keeps.step (k := keeps_noteThermal _); case w => decide)
    | (with_reducible apply Keeps.step (k := keeps_watchFloor _ _ _); case w => decide)
    | (with_reducible apply keeps_modPow; case w => decide)
    | (with_reducible apply Keeps.step (k := keeps_reduceClass _ _ _ _); case w => decide)
    | (with_reducible apply Keeps.step (k := keeps_releaseStep _); case w => decide)
    | split

theorem keeps_execPowerCycle (x1 : Quad) (x2 : Domain') (x3 : Fin 512) (x4 : PowerIn) (s : State) : KeepsOut [.time, .flt, .pow] s (execPowerCycle x1 x2 x3 x4 s) := by
  unfold execPowerCycle
  try dsimp only
  repeat' first
    | with_reducible apply Keeps.refl
    | with_reducible apply keepsOut_next
    | (with_reducible apply Keeps.step (k := keeps_fireEntry _ _ _ _); case w => decide)
    | (with_reducible apply Keeps.step (k := keeps_controlCycle _ _); case w => decide)
    | (with_reducible apply keeps_modPow; case w => decide)
    | split

theorem keeps_execBubbleFrameStart (x1 : Quad) (s : State) : KeepsOut [.pow] s (execBubbleFrameStart x1 s) := by
  unfold execBubbleFrameStart
  try dsimp only
  repeat' first
    | with_reducible apply Keeps.refl
    | with_reducible apply keepsOut_next
    | (with_reducible apply keeps_modPow; case w => decide)

theorem keeps_execLaneEqStep (x1 : Lane) (s : State) : KeepsOut [.lane, .pow] s (execLaneEqStep x1 s) := by
  unfold execLaneEqStep
  try dsimp only
  repeat' first
    | with_reducible apply Keeps.refl
    | with_reducible apply keepsOut_next
    | (with_reducible apply keeps_modPow; case w => decide)
    | (with_reducible apply Keeps.step (k := keeps_modLane _ _ _); case w => decide)
    | split

theorem keeps_execLaneStepCheck (x1 : Lane) (x2 : Nat) (s : State) : KeepsOut [.now, .flt, .lane, .pow] s (execLaneStepCheck x1 x2 s) := by
  unfold execLaneStepCheck
  try dsimp only
  repeat' first
    | with_reducible apply Keeps.refl
    | with_reducible apply keepsOut_next
    | (with_reducible apply Keeps.step (k := keeps_modLane _ _ _); case w => decide)
    | (with_reducible apply keeps_reach; case w => decide)
    | (with_reducible apply keeps_modPow; case w => decide)
    | (with_reducible apply Keeps.step (k := keeps_kiln _ _ _); case w => decide)
    | (with_reducible apply Keeps.step (k := keeps_setLaneAge _ _ _); case w => decide)
    | split

theorem keeps_placePower (s : State) : Keeps [.time] s (placePower s) := by
  unfold placePower
  try dsimp only
  repeat' first
    | with_reducible assumption
    | with_reducible apply Keeps.refl
    | with_reducible intro _
    | with_reducible apply keeps_foldl
    | (with_reducible apply Keeps.step (k := keeps_placeOwn _ _ _ _ _ _ _); case w => decide)

theorem keeps_execPowerCapWrite (x1 : Cmd) (s : State) : KeepsOut [.time, .flt, .tel, .host, .pow] s (execPowerCapWrite x1 s) := by
  unfold execPowerCapWrite
  try dsimp only
  repeat' first
    | with_reducible apply Keeps.refl
    | with_reducible apply keepsOut_next
    | with_reducible apply keepsRes_done
    | with_reducible intro _
    | (with_reducible apply keeps_icoux; case w => decide)
    | (with_reducible apply Keeps.step (k := keeps_kiln _ _ _); case w => decide)
    | (with_reducible apply keeps_modPow; case w => decide)
    | (with_reducible apply Keeps.step (k := keeps_placePower _); case w => decide)
    | split

theorem keeps_execPowerCapRead (x1 : Cmd) (s : State) : KeepsOut [.flt, .tel, .host] s (execPowerCapRead x1 s) := by
  unfold execPowerCapRead
  try dsimp only
  repeat' first
    | with_reducible apply Keeps.refl
    | with_reducible apply keepsOut_next
    | with_reducible apply keepsRes_okReply
    | with_reducible intro _
    | (with_reducible apply keeps_icoux; case w => decide)

theorem keeps_execPowerStatus (x1 : Cmd) (s : State) : KeepsOut [.flt, .tel, .host] s (execPowerStatus x1 s) := by
  unfold execPowerStatus
  try dsimp only
  repeat' first
    | with_reducible apply Keeps.refl
    | with_reducible apply keepsOut_next
    | with_reducible apply keepsRes_okReply
    | with_reducible intro _
    | (with_reducible apply keeps_icoux; case w => decide)

theorem keeps_sampleDie (x1 : List Int) (x2 : Nat) (s : State) : Keeps [.flt, .pow] s (sampleDie x1 x2 s) := by
  unfold sampleDie
  try dsimp only
  repeat' first
    | with_reducible assumption
    | with_reducible apply Keeps.refl
    | with_reducible intro _
    | with_reducible apply keeps_foldl
    | (with_reducible apply keeps_modPow; case w => decide)
    | (with_reducible apply keeps_detect; case w => decide)
    | (with_reducible apply Keeps.step (k := keeps_kilnInj _ _ _ _); case w => decide)
    | (with_reducible apply Keeps.step (k := keeps_raiseFault _ _ _ _ _); case w => decide)
    | split

theorem keeps_execTempSample (x1 : List Int) (s : State) : KeepsOut [.now, .flt, .pow] s (execTempSample x1 s) := by
  unfold execTempSample
  try dsimp only
  repeat' first
    | with_reducible assumption
    | with_reducible apply Keeps.refl
    | with_reducible apply keepsOut_next
    | with_reducible intro _
    | with_reducible apply keeps_foldl
    | (with_reducible apply keeps_reach; case w => decide)
    | (with_reducible apply Keeps.step (k := keeps_sampleDie _ _ _); case w => decide)
    | (with_reducible apply keeps_modPow; case w => decide)

theorem keeps_keptState (s : State) : Keeps allParts s (keptState s) := by
  refine ⟨rfl, le_rfl, le_rfl, List.suffix_refl _, fun ⟨h1, h2⟩ => ⟨?_, fun x => ?_⟩, ?_⟩
  · simpa [keptState] using h1
  · simp only [keptState, List.length_map, List.head?_map, Option.map_map] at x ⊢
    exact h2 x
  · intro p hp
    cases p <;> first | rfl | exact absurd hp (by decide)

theorem keeps_execThermalTrip (x1 : Fin 12) (x2 : Fin 20) (s : State) : KeepsOut allParts s (execThermalTrip x1 x2 s) := by
  unfold execThermalTrip
  try dsimp only
  repeat' first
    | with_reducible apply Keeps.refl
    | with_reducible apply keepsOut_next
    | exact (rfl : _ = _)
    | (with_reducible apply keeps_modBoot; case w => decide)
    | (with_reducible apply keeps_emit; case w => decide)
    | (with_reducible apply Keeps.step (k := keeps_keptState _); case w => decide)
    | split

theorem keeps_abandonRaise (s : State) : Keeps [.time, .flt, .host] s (abandonRaise s) := by
  unfold abandonRaise
  try dsimp only
  repeat' first
    | with_reducible apply Keeps.refl
    | (with_reducible apply keeps_modTime; case w => decide)
    | (with_reducible apply Keeps.step (k := keeps_endRunning _ _ _ _ _); case w => decide)
    | (with_reducible apply Keeps.step (k := keeps_modeChanged _ _); case w => decide)
    | split

theorem keeps_avsFault (x1 : Nat) (x2 : Nat) (s : State) : Keeps [.time, .flt, .host] s (avsFault x1 x2 s) := by
  unfold avsFault
  try dsimp only
  repeat' first
    | with_reducible assumption
    | with_reducible apply Keeps.refl
    | with_reducible intro _
    | (with_reducible apply Keeps.step (k := keeps_abandonRaise _); case w => decide)
    | (with_reducible apply keeps_detect; case w => decide)
    | (with_reducible apply Keeps.step (k := keeps_kilnInj _ _ _ _); case w => decide)

theorem keeps_raiseDone (s : State) : Keeps [.time] s (raiseDone s) := by
  unfold raiseDone
  try dsimp only
  repeat' first
    | with_reducible apply Keeps.refl
    | (with_reducible apply keeps_modTime; case w => decide)
    | split

theorem keeps_execAvsResponse (x1 : Nat) (x2 : Bool) (x3 : Nat) (x4 : Nat) (s : State) : KeepsOut [.time, .flt, .host, .pow] s (execAvsResponse x1 x2 x3 x4 s) := by
  unfold execAvsResponse
  try dsimp only
  repeat' first
    | with_reducible apply Keeps.refl
    | with_reducible apply keepsOut_next
    | (with_reducible apply keeps_modPow; case w => decide)
    | (with_reducible apply Keeps.step (k := keeps_avsFault _ _ _); case w => decide)
    | (with_reducible apply Keeps.step (k := keeps_raiseDone _); case w => decide)
    | split

theorem keeps_execAvsTimeout (x1 : Nat) (x2 : Nat) (s : State) : KeepsOut [.time, .flt, .host, .pow] s (execAvsTimeout x1 x2 s) := by
  unfold execAvsTimeout
  try dsimp only
  repeat' first
    | with_reducible apply Keeps.refl
    | with_reducible apply keepsOut_next
    | (with_reducible apply keeps_modPow; case w => decide)
    | (with_reducible apply Keeps.step (k := keeps_avsFault _ _ _); case w => decide)
    | split

theorem keeps_planVdd (x1 : Bool) (x2 : Nat) (x3 : Nat) (s : State) : Keeps [.flt, .pow] s (planVdd x1 x2 x3 s) := by
  unfold planVdd
  try dsimp only
  repeat' first
    | with_reducible apply Keeps.refl
    | (with_reducible apply keeps_modPow; case w => decide)
    | (with_reducible apply Keeps.step (k := keeps_raiseFault _ _ _ _ _); case w => decide)
    | split

theorem keeps_guardReplan (s : State) : Keeps [.flt, .pow] s (guardReplan s) := by
  unfold guardReplan
  try dsimp only
  repeat' first
    | with_reducible apply Keeps.refl
    | (with_reducible apply Keeps.step (k := keeps_planVdd _ _ _ _); case w => decide)
    | (with_reducible apply keeps_modPow; case w => decide)
    | (with_reducible apply Keeps.step (k := keeps_kiln _ _ _); case w => decide)
    | split

theorem keeps_gaugeEpoch (x1 : Nat) (x2 : List Int) (s : State) : Keeps [.flt, .pow] s (gaugeEpoch x1 x2 s) := by
  unfold gaugeEpoch
  try dsimp only
  repeat' first
    | with_reducible assumption
    | with_reducible apply Keeps.refl
    | with_reducible intro _
    | with_reducible apply keeps_foldl
    | (with_reducible apply keeps_detect; case w => decide)
    | (with_reducible apply Keeps.step (k := keeps_kilnInj _ _ _ _); case w => decide)
    | (with_reducible apply keeps_modPow; case w => decide)

theorem keeps_execGaugeEpoch (x1 : Quad) (x2 : Domain') (x3 : Fin 512) (x4 : List Int) (s : State) : KeepsOut [.time, .flt, .pow] s (execGaugeEpoch x1 x2 x3 x4 s) := by
  unfold execGaugeEpoch
  try dsimp only
  repeat' first
    | with_reducible apply Keeps.refl
    | with_reducible apply keepsOut_next
    | (with_reducible apply Keeps.step (k := keeps_fireEntry _ _ _ _); case w => decide)
    | (with_reducible apply Keeps.step (k := keeps_guardReplan _); case w => decide)
    | (with_reducible apply Keeps.step (k := keeps_gaugeEpoch _ _ _); case w => decide)
    | split

theorem keeps_execHeatWorkAccumulate (s : State) : KeepsOut [.now, .pow] s (execHeatWorkAccumulate s) := by
  unfold execHeatWorkAccumulate
  try dsimp only
  repeat' first
    | with_reducible apply Keeps.refl
    | with_reducible apply keepsOut_next
    | (with_reducible apply keeps_reach; case w => decide)
    | (with_reducible apply keeps_modPow; case w => decide)

theorem keeps_writeArea (x1 : DataArea → DataArea) (s : State) : Keeps [.boot] s (writeArea x1 s) := by
  unfold writeArea
  try dsimp only
  repeat' first
    | with_reducible apply Keeps.refl
    | exact (rfl : _ = _)
    | (with_reducible apply keeps_modBoot; case w => decide)

theorem keeps_saveData (s : State) : Keeps [.boot] s (saveData s) := by
  unfold saveData
  try dsimp only
  repeat' first
    | with_reducible apply Keeps.refl
    | (with_reducible apply Keeps.step (k := keeps_writeArea _ _); case w => decide)

theorem keeps_execDataAreaSave (s : State) : KeepsOut [.boot] s (execDataAreaSave s) := by
  unfold execDataAreaSave
  try dsimp only
  repeat' first
    | with_reducible apply Keeps.refl
    | with_reducible apply keepsOut_next
    | (with_reducible apply Keeps.step (k := keeps_saveData _); case w => decide)
    | split

theorem keeps_execMarginEpoch (x1 : Quad) (x2 : Domain') (x3 : Fin 512) (x4 : List (Nat × Nat)) (s : State) : KeepsOut [.time, .flt, .lane, .pow] s (execMarginEpoch x1 x2 x3 x4 s) := by
  unfold execMarginEpoch
  try dsimp only
  repeat' first
    | with_reducible assumption
    | with_reducible apply Keeps.refl
    | with_reducible apply keepsOut_next
    | with_reducible intro _
    | with_reducible apply keeps_foldl
    | (with_reducible apply Keeps.step (k := keeps_fireEntry _ _ _ _); case w => decide)
    | (with_reducible apply Keeps.step (k := keeps_setLaneAge _ _ _); case w => decide)
    | (with_reducible apply Keeps.step (k := keeps_modLane _ _ _); case w => decide)
    | split

theorem keeps_replanLane (x1 : Nat) (x2 : Nat) (s : State) : Keeps [.flt, .lane, .pow] s (replanLane x1 x2 s) := by
  unfold replanLane
  try dsimp only
  repeat' first
    | with_reducible apply Keeps.refl
    | (with_reducible apply Keeps.step (k := keeps_setLaneAge _ _ _); case w => decide)
    | (with_reducible apply Keeps.step (k := keeps_modLane _ _ _); case w => decide)
    | (with_reducible apply Keeps.step (k := keeps_kiln _ _ _); case w => decide)
    | split

theorem keeps_execLaneReplan (s : State) : KeepsOut [.flt, .lane, .pow] s (execLaneReplan s) := by
  unfold execLaneReplan
  try dsimp only
  repeat' first
    | with_reducible assumption
    | with_reducible apply Keeps.refl
    | with_reducible apply keepsOut_next
    | with_reducible intro _
    | with_reducible apply keeps_foldl
    | (with_reducible apply Keeps.step (k := keeps_replanLane _ _ _); case w => decide)
    | (with_reducible apply keeps_modPow; case w => decide)
    | split

theorem keeps_execAgeingStatus (x1 : Cmd) (s : State) : KeepsOut [.flt, .tel, .host] s (execAgeingStatus x1 s) := by
  unfold execAgeingStatus
  try dsimp only
  repeat' first
    | with_reducible apply Keeps.refl
    | with_reducible apply keepsOut_next
    | with_reducible apply keepsRes_okReply
    | with_reducible intro _
    | (with_reducible apply keeps_icoux; case w => decide)

theorem keeps_execEnergyCalibration (x1 : Quad) (x2 : Fin 3) (x3 : Nat) (x4 : Nat) (s : State) : KeepsOut [.flt, .pow] s (execEnergyCalibration x1 x2 x3 x4 s) := by
  unfold execEnergyCalibration
  try dsimp only
  repeat' first
    | with_reducible apply Keeps.refl
    | with_reducible apply keepsOut_next
    | (with_reducible apply Keeps.step (k := keeps_addEnergy _ _ _ _); case w => decide)
    | (with_reducible apply keeps_modPow; case w => decide)
    | (with_reducible apply Keeps.step (k := keeps_raiseFault _ _ _ _ _); case w => decide)
    | (with_reducible apply Keeps.step (k := keeps_kiln _ _ _); case w => decide)
    | split

theorem keeps_execEnergyRead (x1 : Cmd) (s : State) : KeepsOut [.flt, .tel, .host] s (execEnergyRead x1 s) := by
  unfold execEnergyRead
  try dsimp only
  repeat' first
    | with_reducible apply Keeps.refl
    | with_reducible apply keepsOut_next
    | exact trivial
    | with_reducible apply keepsRes_okReply
    | with_reducible intro _
    | (with_reducible apply keeps_icoux; case w => decide)
    | split

end Sys2Proof.Laws
end

