-- ==== Sys2Proof/Laws/KeepsReset.lean ====
section
/-!
SUPPORT. What the operations of Reset keep.
-/

set_option linter.all false

namespace Sys2Proof.Laws

open Sys2Proof Sys2Proof.Machine

theorem keeps_endTestMode (s : State) : Keeps [.flt] s (endTestMode s) := by
  unfold endTestMode
  try dsimp only
  repeat' first
    | with_reducible apply Keeps.refl
    | exact fun hy => hy
    | (with_reducible apply Keeps.step (k := keeps_kiln _ _ _); case w => decide)
    | (with_reducible apply keeps_modFlt; case w => decide)
    | split

theorem keeps_setRing (x1 : Nat) (x2 : Ring) (s : State) : Keeps [.host] s (setRing x1 x2 s) := by
  unfold setRing
  try dsimp only
  repeat' first
    | with_reducible apply Keeps.refl
    | (with_reducible apply keeps_modHost; case w => decide)

theorem keeps_disableRings (x1 : Ring → Bool) (s : State) : Keeps [.host] s (disableRings x1 s) := by
  unfold disableRings
  try dsimp only
  repeat' first
    | with_reducible apply Keeps.refl
    | (with_reducible apply keeps_modHost; case w => decide)

theorem keeps_dropUploads (x1 : Option Nat → Bool) (s : State) : Keeps [.host] s (dropUploads x1 s) := by
  unfold dropUploads
  try dsimp only
  repeat' first
    | with_reducible apply Keeps.refl
    | (with_reducible apply keeps_modHost; case w => decide)

theorem keeps_endSession (x1 : Nat) (x2 : Nat) (s : State) : Keeps [.flt, .tel, .host, .mat, .fwd] s (endSession x1 x2 s) := by
  unfold endSession
  try dsimp only
  repeat' first
    | with_reducible assumption
    | with_reducible apply Keeps.refl
    | with_reducible intro _
    | with_reducible apply keeps_foldl
    | (with_reducible apply Keeps.step (k := keeps_delegate _ _ _ _); case w => decide)
    | (with_reducible apply Keeps.step (k := keeps_kiln _ _ _); case w => decide)
    | (with_reducible apply Keeps.step (k := keeps_disableRings _ _); case w => decide)
    | (with_reducible apply keeps_modTel; case w => decide)
    | (with_reducible apply keeps_modMat; case w => decide)
    | (with_reducible apply Keeps.step (k := keeps_dropUploads _ _); case w => decide)
    | (with_reducible apply Keeps.step (k := keeps_endTestMode _); case w => decide)
    | split

theorem keeps_dropCommands (x1 : Nat) (s : State) : Keeps [.host] s (dropCommands x1 s) := by
  unfold dropCommands
  try dsimp only
  repeat' first
    | with_reducible apply Keeps.refl
    | (with_reducible apply keeps_modHost; case w => decide)

theorem keeps_closeAbrupt (x1 : Nat) (x2 : Nat) (s : State) : Keeps [.flt, .tel, .host, .mat, .fwd] s (closeAbrupt x1 x2 s) := by
  unfold closeAbrupt
  try dsimp only
  repeat' first
    | with_reducible apply Keeps.refl
    | (with_reducible apply Keeps.step (k := keeps_modSlot _ _ _); case w => decide)
    | (with_reducible apply Keeps.step (k := keeps_dropCommands _ _); case w => decide)
    | (with_reducible apply Keeps.step (k := keeps_endSession _ _ _); case w => decide)
    | split

theorem keeps_deviceReset (x1 : Nat) (s : State) : Keeps allParts s (deviceReset x1 s) := by
  unfold deviceReset
  try dsimp only
  repeat' first
    | with_reducible apply Keeps.refl
    | exact (rfl : _ = _)
    | (with_reducible apply Keeps.step (k := keeps_keptState _); case w => decide)
    | (with_reducible apply keeps_modBoot; case w => decide)

theorem keeps_timeoutRunning (s : State) : Keeps [.host] s (timeoutRunning s) := by
  unfold timeoutRunning
  try dsimp only
  repeat' first
    | with_reducible assumption
    | with_reducible apply Keeps.refl
    | with_reducible intro _
    | with_reducible apply keeps_foldl
    | (with_reducible apply Keeps.step (k := keeps_endRunning _ _ _ _ _); case w => decide)

theorem keeps_stopApply (s : State) : Keeps [.flt, .mat] s (stopApply s) := by
  unfold stopApply
  try dsimp only
  repeat' first
    | with_reducible apply Keeps.refl
    | (with_reducible apply keeps_modMat; case w => decide)
    | (with_reducible apply Keeps.step (k := keeps_kiln _ _ _); case w => decide)
    | split

theorem keeps_abandonBuilds (s : State) : Keeps [.flt, .mat] s (abandonBuilds s) := by
  unfold abandonBuilds
  try dsimp only
  repeat' first
    | with_reducible assumption
    | with_reducible apply Keeps.refl
    | with_reducible intro _
    | with_reducible apply keeps_foldl
    | (with_reducible apply Keeps.step (k := keeps_kiln _ _ _); case w => decide)
    | (with_reducible apply Keeps.step (k := keeps_setTree _ _ _ _); case w => decide)

theorem keeps_abandonWrite (s : State) : Keeps [.boot] s (abandonWrite s) := by
  unfold abandonWrite
  try dsimp only
  repeat' first
    | with_reducible apply Keeps.refl
    | exact (rfl : _ = _)
    | (with_reducible apply keeps_modBoot; case w => decide)
    | split

theorem keeps_warmStart (x1 : Nat) (x2 : Nat) (s : State) : Keeps allParts s (warmStart x1 x2 s) := by
  unfold warmStart
  try dsimp only
  repeat' first
    | with_reducible apply Keeps.refl
    | exact (rfl : _ = _)
    | (with_reducible apply Keeps.step (k := keeps_deviceReset _ _); case w => decide)
    | (with_reducible apply keeps_modBoot; case w => decide)
    | (with_reducible apply Keeps.step (k := keeps_saveData _); case w => decide)
    | (with_reducible apply Keeps.step (k := keeps_timeoutRunning _); case w => decide)
    | (with_reducible apply Keeps.step (k := keeps_abandonRaise _); case w => decide)
    | (with_reducible apply Keeps.step (k := keeps_kiln _ _ _); case w => decide)
    | (with_reducible apply Keeps.step (k := keeps_dropUploads _ _); case w => decide)
    | (with_reducible apply keeps_modMat; case w => decide)
    | (with_reducible apply Keeps.step (k := keeps_endTestMode _); case w => decide)
    | (with_reducible apply Keeps.step (k := keeps_abandonWrite _); case w => decide)
    | (with_reducible apply Keeps.step (k := keeps_abandonBuilds _); case w => decide)
    | (with_reducible apply Keeps.step (k := keeps_stopApply _); case w => decide)
    | split

end Sys2Proof.Laws
end

