-- ==== Sys2Proof/Laws/KeepsFence.lean ====
section
/-!
SUPPORT. What the operations of Fence keep.
-/

set_option linter.all false

namespace Sys2Proof.Laws

open Sys2Proof Sys2Proof.Machine

theorem keeps_raiseIbi (x1 : Bool) (x2 : Byte) (s : State) : Keeps [.out, .host] s (raiseIbi x1 x2 s) := by
  unfold raiseIbi
  try dsimp only
  repeat' first
    | with_reducible apply Keeps.refl
    | (with_reducible apply keeps_emit; case w => decide)
    | (with_reducible apply keeps_modHost; case w => decide)
    | split

theorem keeps_noteAlert (x1 : Bool) (s : State) : Keeps [.out, .host] s (noteAlert x1 s) := by
  unfold noteAlert
  try dsimp only
  repeat' first
    | with_reducible apply Keeps.refl
    | (with_reducible apply keeps_emit; case w => decide)
    | (with_reducible apply Keeps.step (k := keeps_raiseIbi _ _ _); case w => decide)
    | (with_reducible apply Keeps.step (k := keeps_signal _ _); case w => decide)
    | split

theorem keeps_latchBit (x1 : Nat) (s : State) : Keeps [.out, .flt, .host] s (latchBit x1 s) := by
  unfold latchBit
  try dsimp only
  repeat' first
    | with_reducible apply Keeps.refl
    | exact fun hy => hy
    | (with_reducible apply Keeps.step (k := keeps_noteAlert _ _); case w => decide)
    | (with_reducible apply keeps_modFlt; case w => decide)

theorem keeps_modSite (x1 : Nat) (x2 : Nat) (x3 : Nat) (x4 : Site → Site) (s : State) : Keeps [.flt] s (modSite x1 x2 x3 x4 s) := by
  unfold modSite
  try dsimp only
  repeat' first
    | with_reducible apply Keeps.refl
    | exact fun hy => hy
    | (with_reducible apply keeps_modFlt; case w => decide)

theorem keeps_dropSite (x1 : Nat) (x2 : Nat) (x3 : Nat) (s : State) : Keeps [.flt] s (dropSite x1 x2 x3 s) := by
  unfold dropSite
  try dsimp only
  repeat' first
    | with_reducible apply Keeps.refl
    | exact fun hy => hy
    | (with_reducible apply keeps_modFlt; case w => decide)

theorem keeps_siteEvent (x1 : Nat) (x2 : Site) (x3 : List (Nat × Nat)) (s : State) : Keeps [.flt] s (siteEvent x1 x2 x3 s) := by
  unfold siteEvent
  try dsimp only
  repeat' first
    | with_reducible apply Keeps.refl
    | (with_reducible apply Keeps.step (k := keeps_kilnEvent _ _ _ _ _); case w => decide)

theorem keeps_fencePort (s : State) (x2 : Nat) : Keeps [.free, .out, .limits, .flt, .tel, .lane, .mac, .fr, .sw, .buf, .sch, .pow] s (fencePort s x2) := by
  unfold fencePort
  try dsimp only
  repeat' first
    | with_reducible apply Keeps.refl
    | (with_reducible apply Keeps.step (k := keeps_macPortStopped _ _); case w => decide)
    | (with_reducible apply Keeps.step (k := keeps_leaveActive _ _ _); case w => decide)
    | (with_reducible apply Keeps.step (k := keeps_setCause _ _ _ _); case w => decide)
    | (with_reducible apply Keeps.step (k := keeps_modLanes _ _ _); case w => decide)
    | (with_reducible apply Keeps.step (k := keeps_countLanes _ _ _); case w => decide)
    | (with_reducible apply Keeps.step (k := keeps_enterPhase _ _ _); case w => decide)
    | split

theorem keeps_fencePorts (x1 : Nat) (x2 : Nat) (s : State) : Keeps [.free, .out, .limits, .flt, .tel, .lane, .mac, .fr, .sw, .buf, .sch, .pow] s (fencePorts x1 x2 s) := by
  unfold fencePorts
  try dsimp only
  repeat' first
    | with_reducible assumption
    | with_reducible apply Keeps.refl
    | with_reducible intro _
    | with_reducible apply keeps_foldl
    | (with_reducible apply Keeps.step (k := keeps_fencePort _ _); case w => decide)

theorem keeps_flushFrame (s : State) (x2 : Nat) : Keeps [.limits, .flt, .tel, .fr, .sw, .mat, .fwd] s (flushFrame s x2) := by
  unfold flushFrame
  try dsimp only
  repeat' first
    | with_reducible apply Keeps.refl
    | (with_reducible apply Keeps.step (k := keeps_setHostReads _ _ _); case w => decide)
    | (with_reducible apply Keeps.step (k := keeps_abandon _ _ _ _ _ _); case w => decide)
    | (with_reducible apply Keeps.step (k := keeps_dropFrame _ _ _ _); case w => decide)
    | split

theorem keeps_fencePipe (s : State) (x2 : Nat) : Keeps [.free, .out, .limits, .flt, .tel, .lane, .mac, .fr, .sw, .mat, .fwd, .buf, .sch, .pow] s (fencePipe s x2) := by
  unfold fencePipe
  try dsimp only
  repeat' first
    | with_reducible assumption
    | with_reducible apply Keeps.refl
    | with_reducible intro _
    | with_reducible apply keeps_foldl
    | (with_reducible apply Keeps.step (k := keeps_fencePorts _ _ _); case w => decide)
    | (with_reducible apply Keeps.step (k := keeps_flushFrame _ _); case w => decide)

theorem keeps_fenceTree (x1 : Nat) (s : State) (x3 : Nat) : Keeps [.tel, .mat, .sig] s (fenceTree x1 s x3) := by
  unfold fenceTree
  try dsimp only
  repeat' first
    | with_reducible assumption
    | with_reducible apply Keeps.refl
    | with_reducible intro _
    | with_reducible apply keeps_foldl
    | (with_reducible apply Keeps.step (k := keeps_endWalk _ _ _ _ _ _); case w => decide)

theorem keeps_fenceReader (x1 : Nat) (s : State) : Keeps [.tel, .fr, .fwd] s (fenceReader x1 s) := by
  unfold fenceReader
  try dsimp only
  repeat' first
    | with_reducible assumption
    | with_reducible apply Keeps.refl
    | with_reducible intro _
    | with_reducible apply keeps_foldl
    | (with_reducible apply Keeps.step (k := keeps_endHostRead _ _ _ _ _); case w => decide)

theorem keeps_fenceLearn (x1 : Nat) (s : State) : Keeps [.tel, .fwd] s (fenceLearn x1 s) := by
  unfold fenceLearn
  try dsimp only
  repeat' first
    | with_reducible apply Keeps.refl
    | (with_reducible apply Keeps.step (k := keeps_count _ _ _ _); case w => decide)
    | (with_reducible apply Keeps.step (k := keeps_modFwdPipe _ _ _); case w => decide)

theorem keeps_flushSection (x1 : Nat) (x2 : Nat) (s : State) (x4 : Nat) : Keeps [.limits, .flt, .tel, .fr, .sw, .buf, .sch] s (flushSection x1 x2 s x4) := by
  unfold flushSection
  try dsimp only
  repeat' first
    | with_reducible assumption
    | with_reducible apply Keeps.refl
    | with_reducible intro _
    | with_reducible apply keeps_foldl
    | (with_reducible apply Keeps.step (k := keeps_endSpill _ _ _); case w => decide)
    | (with_reducible apply Keeps.step (k := keeps_dropCopy _ _ _ _); case w => decide)

theorem keeps_fenceSpill (x1 : Nat) (x2 : Nat) (s : State) : Keeps [.limits, .flt, .tel, .fr, .sw, .buf, .sch] s (fenceSpill x1 x2 s) := by
  unfold fenceSpill
  try dsimp only
  repeat' first
    | with_reducible assumption
    | with_reducible apply Keeps.refl
    | with_reducible intro _
    | with_reducible apply keeps_foldl
    | (with_reducible apply Keeps.step (k := keeps_flushSection _ _ _ _); case w => decide)

theorem keeps_fenceStack (x1 : Nat) (x2 : Nat) (s : State) : Keeps [.limits, .flt, .tel, .fr, .sw, .mat, .fwd, .sig, .buf, .sch] s (fenceStack x1 x2 s) := by
  unfold fenceStack
  try dsimp only
  repeat' first
    | with_reducible assumption
    | with_reducible apply Keeps.refl
    | with_reducible intro _
    | with_reducible apply keeps_foldl
    | (with_reducible apply Keeps.step (k := keeps_fenceTree _ _ _); case w => decide)
    | (with_reducible apply Keeps.step (k := keeps_fenceReader _ _); case w => decide)
    | (with_reducible apply Keeps.step (k := keeps_fenceSpill _ _ _); case w => decide)
    | (with_reducible apply keeps_modTel; case w => decide)

theorem keeps_applyFence (x1 : Site) (s : State) : Keeps [.free, .out, .limits, .flt, .tel, .host, .boot, .lane, .mac, .fr, .sw, .mat, .fwd, .sig, .buf, .sch, .pow] s (applyFence x1 s) := by
  unfold applyFence
  try dsimp only
  repeat' first
    | with_reducible assumption
    | with_reducible apply Keeps.refl
    | exact (rfl : _ = _)
    | with_reducible intro _
    | with_reducible apply keeps_foldl
    | (with_reducible apply Keeps.step (k := keeps_fencePorts _ _ _); case w => decide)
    | (with_reducible apply Keeps.step (k := keeps_fencePipe _ _); case w => decide)
    | (with_reducible apply Keeps.step (k := keeps_fenceTree _ _ _); case w => decide)
    | (with_reducible apply Keeps.step (k := keeps_fenceReader _ _); case w => decide)
    | (with_reducible apply Keeps.step (k := keeps_fenceLearn _ _); case w => decide)
    | (with_reducible apply Keeps.step (k := keeps_delegate _ _ _ _); case w => decide)
    | (with_reducible apply Keeps.step (k := keeps_fenceSpill _ _ _); case w => decide)
    | (with_reducible apply Keeps.step (k := keeps_fenceStack _ _ _); case w => decide)
    | (with_reducible apply Keeps.step (k := keeps_linkDown _ _); case w => decide)
    | (with_reducible apply keeps_modBoot; case w => decide)
    | (with_reducible apply Keeps.step (k := keeps_closeAbrupt _ _ _); case w => decide)
    | split

theorem keeps_countEscalation (x1 : Nat) (s : State) : Keeps [.flt] s (countEscalation x1 s) := by
  unfold countEscalation
  try dsimp only
  repeat' first
    | with_reducible apply Keeps.refl
    | exact fun hy => hy
    | (with_reducible apply keeps_modFlt; case w => decide)

theorem keeps_fenceSite (x1 : Site) (s : State) : Keeps [.free, .out, .limits, .flt, .tel, .host, .boot, .lane, .mac, .fr, .sw, .mat, .fwd, .sig, .buf, .sch, .pow] s (fenceSite x1 s) := by
  unfold fenceSite
  try dsimp only
  repeat' first
    | with_reducible apply Keeps.refl
    | (with_reducible apply Keeps.step (k := keeps_modSite _ _ _ _ _); case w => decide)
    | (with_reducible apply Keeps.step (k := keeps_siteEvent _ _ _ _); case w => decide)
    | (with_reducible apply Keeps.step (k := keeps_countEscalation _ _); case w => decide)
    | (with_reducible apply Keeps.step (k := keeps_applyFence _ _); case w => decide)

theorem keeps_escalate (x1 : Site) (s : State) : Keeps allParts s (escalate x1 s) := by
  unfold escalate
  try dsimp only
  repeat' first
    | with_reducible apply Keeps.refl
    | (with_reducible apply Keeps.step (k := keeps_siteEvent _ _ _ _); case w => decide)
    | (with_reducible apply Keeps.step (k := keeps_fenceSite _ _); case w => decide)
    | (with_reducible apply Keeps.step (k := keeps_deviceReset _ _); case w => decide)
    | (with_reducible apply Keeps.step (k := keeps_countEscalation _ _); case w => decide)
    | split

theorem keeps_evaluateSite (x1 : Site) (s : State) : Keeps allParts s (evaluateSite x1 s) := by
  unfold evaluateSite
  try dsimp only
  repeat' first
    | with_reducible apply Keeps.refl
    | (with_reducible apply Keeps.step (k := keeps_escalate _ _); case w => decide)
    | split

theorem keeps_countRaise (x1 : Nat) (s : State) : Keeps [.flt] s (countRaise x1 s) := by
  unfold countRaise
  try dsimp only
  repeat' first
    | with_reducible apply Keeps.refl
    | exact fun hy => hy
    | (with_reducible apply keeps_modFlt; case w => decide)

theorem keeps_followSite (x1 : Site) (s : State) : Keeps allParts s (followSite x1 s) := by
  unfold followSite
  try dsimp only
  repeat' first
    | with_reducible apply Keeps.refl
    | (with_reducible apply Keeps.step (k := keeps_evaluateSite _ _); case w => decide)
    | (with_reducible apply Keeps.step (k := keeps_modSite _ _ _ _ _); case w => decide)
    | split

theorem keeps_tableFull (x1 : Raise) (s : State) : Keeps [.flt] s (tableFull x1 s) := by
  unfold tableFull
  try dsimp only
  repeat' first
    | with_reducible apply Keeps.refl
    | (with_reducible apply Keeps.step (k := keeps_kilnEvent _ _ _ _ _); case w => decide)
    | (with_reducible apply Keeps.step (k := keeps_raiseFault _ _ _ _ _); case w => decide)
    | split

theorem keeps_takeRaise (x1 : Raise) (s : State) : Keeps allParts s (takeRaise x1 s) := by
  unfold takeRaise
  try dsimp only
  repeat' first
    | with_reducible apply Keeps.refl
    | exact fun hy => hy
    | (with_reducible apply Keeps.step (k := keeps_latchBit _ _); case w => decide)
    | (with_reducible apply Keeps.step (k := keeps_countRaise _ _); case w => decide)
    | (with_reducible apply Keeps.step (k := keeps_tableFull _ _); case w => decide)
    | (with_reducible apply keeps_modFlt; case w => decide)
    | (with_reducible apply Keeps.step (k := keeps_modSite _ _ _ _ _); case w => decide)
    | (with_reducible apply Keeps.step (k := keeps_followSite _ _); case w => decide)
    | (with_reducible apply Keeps.step (k := keeps_kilnEvent _ _ _ _ _); case w => decide)
    | split

theorem keeps_execFaultRaise (s : State) : KeepsOut allParts s (execFaultRaise s) := by
  unfold execFaultRaise
  try dsimp only
  repeat' first
    | with_reducible apply Keeps.refl
    | with_reducible apply keepsOut_next
    | exact fun hy => hy
    | (with_reducible apply Keeps.step (k := keeps_takeRaise _ _); case w => decide)
    | (with_reducible apply keeps_modFlt; case w => decide)
    | split

theorem keeps_execGraceExpiry (x1 : Fin 63) (x2 : Nat) (x3 : Nat) (s : State) : KeepsOut allParts s (execGraceExpiry x1 x2 x3 s) := by
  unfold execGraceExpiry
  try dsimp only
  repeat' first
    | with_reducible apply Keeps.refl
    | with_reducible apply keepsOut_next
    | (with_reducible apply Keeps.step (k := keeps_modSite _ _ _ _ _); case w => decide)
    | (with_reducible apply keeps_reach; case w => decide)
    | (with_reducible apply Keeps.step (k := keeps_evaluateSite _ _); case w => decide)
    | split

theorem keeps_execQuietExpiry (x1 : Fin 63) (x2 : Nat) (x3 : Nat) (s : State) : KeepsOut [.now, .flt] s (execQuietExpiry x1 x2 x3 s) := by
  unfold execQuietExpiry
  try dsimp only
  repeat' first
    | with_reducible apply Keeps.refl
    | with_reducible apply keepsOut_next
    | exact fun hy => hy
    | (with_reducible apply Keeps.step (k := keeps_dropSite _ _ _ _); case w => decide)
    | (with_reducible apply keeps_reach; case w => decide)
    | (with_reducible apply Keeps.step (k := keeps_siteEvent _ _ _ _); case w => decide)
    | (with_reducible apply keeps_modFlt; case w => decide)
    | split

theorem keeps_unfence (x1 : Nat) (x2 : Nat) (x3 : Nat) (s : State) : Keeps [.flt] s (unfence x1 x2 x3 s) := by
  unfold unfence
  try dsimp only
  repeat' first
    | with_reducible apply Keeps.refl
    | exact fun hy => hy
    | (with_reducible apply Keeps.step (k := keeps_dropSite _ _ _ _); case w => decide)
    | (with_reducible apply keeps_modFlt; case w => decide)

end Sys2Proof.Laws
end

