-- ==== Sys2Proof/Laws/KeepsFaults.lean ====
section
/-!
SUPPORT. What the operations of Faults keep.
-/

set_option linter.all false

namespace Sys2Proof.Laws

open Sys2Proof Sys2Proof.Machine

theorem keeps_execFltLatchWrite (x1 : Option (BitVec 32)) (x2 : Option (BitVec 32)) (s : State) : KeepsOut [.out, .flt, .host] s (execFltLatchWrite x1 x2 s) := by
  unfold execFltLatchWrite
  try dsimp only
  repeat' first
    | with_reducible apply Keeps.refl
    | with_reducible apply keepsOut_next
    | exact fun hy => hy
    | (with_reducible apply Keeps.step (k := keeps_noteAlert _ _); case w => decide)
    | (with_reducible apply keeps_modFlt; case w => decide)
    | split

theorem keeps_execFltAlertEnWrite (x1 : Option (BitVec 32)) (x2 : Option (BitVec 32)) (s : State) : KeepsOut [.out, .flt, .host] s (execFltAlertEnWrite x1 x2 s) := by
  unfold execFltAlertEnWrite
  try dsimp only
  repeat' first
    | with_reducible apply Keeps.refl
    | with_reducible apply keepsOut_next
    | exact fun hy => hy
    | (with_reducible apply Keeps.step (k := keeps_noteAlert _ _); case w => decide)
    | (with_reducible apply keeps_modFlt; case w => decide)
    | split

theorem keeps_execReg64LowHalfRead (x1 : Nat) (x2 : Bool) (s : State) : KeepsOut [.out, .flt] s (execReg64LowHalfRead x1 x2 s) := by
  unfold execReg64LowHalfRead
  try dsimp only
  repeat' first
    | with_reducible apply Keeps.refl
    | with_reducible apply keepsOut_next
    | exact fun hy => hy
    | (with_reducible apply keeps_emit; case w => decide)
    | (with_reducible apply keeps_modFlt; case w => decide)
    | split

theorem keeps_voidKey (s : State) : Keeps [.flt] s (voidKey s) := by
  unfold voidKey
  try dsimp only
  repeat' first
    | with_reducible apply Keeps.refl
    | exact fun hy => hy
    | (with_reducible apply keeps_modFlt; case w => decide)
    | split

theorem keeps_execFltTestKeyWrite (x1 : BitVec 32) (s : State) : KeepsOut [.flt] s (execFltTestKeyWrite x1 s) := by
  unfold execFltTestKeyWrite
  try dsimp only
  repeat' first
    | with_reducible apply Keeps.refl
    | with_reducible apply keepsOut_next
    | exact fun hy => hy
    | (with_reducible apply Keeps.step (k := keeps_kiln _ _ _); case w => decide)
    | (with_reducible apply keeps_modFlt; case w => decide)
    | (with_reducible apply Keeps.step (k := keeps_voidKey _); case w => decide)
    | split

theorem keeps_execTestKeyTimeout (s : State) : KeepsOut [.now, .flt] s (execTestKeyTimeout s) := by
  unfold execTestKeyTimeout
  try dsimp only
  repeat' first
    | with_reducible apply Keeps.refl
    | with_reducible apply keepsOut_next
    | (with_reducible apply Keeps.step (k := keeps_voidKey _); case w => decide)
    | (with_reducible apply keeps_reach; case w => decide)
    | split

theorem keeps_execTestKeyLockoutEnd (s : State) : KeepsOut [.now, .flt] s (execTestKeyLockoutEnd s) := by
  unfold execTestKeyLockoutEnd
  try dsimp only
  repeat' first
    | with_reducible apply Keeps.refl
    | with_reducible apply keepsOut_next
    | exact fun hy => hy
    | (with_reducible apply keeps_modFlt; case w => decide)
    | (with_reducible apply keeps_reach; case w => decide)
    | split

theorem keeps_execFaultTestEnable (x1 : Cmd) (s : State) : KeepsOut [.free, .flt, .tel, .host] s (execFaultTestEnable x1 s) := by
  unfold execFaultTestEnable
  try dsimp only
  repeat' first
    | with_reducible apply Keeps.refl
    | with_reducible apply keepsOut_next
    | exact trivial
    | with_reducible apply keepsRes_done
    | exact fun hy => hy
    | with_reducible intro _
    | (with_reducible apply keeps_icoux; case w => decide)
    | (with_reducible apply keeps_takeFree; case w => decide)
    | (with_reducible apply keeps_modFlt; case w => decide)
    | split

theorem keeps_execFaultTestDisable (x1 : Cmd) (s : State) : KeepsOut [.flt, .tel, .host] s (execFaultTestDisable x1 s) := by
  unfold execFaultTestDisable
  try dsimp only
  repeat' first
    | with_reducible apply Keeps.refl
    | with_reducible apply keepsOut_next
    | exact trivial
    | with_reducible apply keepsRes_okWrite
    | with_reducible intro _
    | (with_reducible apply keeps_icoux; case w => decide)
    | (with_reducible apply Keeps.step (k := keeps_endTestMode _); case w => decide)
    | split

theorem keeps_armPoint (x1 : Nat) (x2 : Bytes) (s : State) : Keeps [.out, .flt, .host] s (armPoint x1 x2 s) := by
  unfold armPoint
  try dsimp only
  repeat' first
    | with_reducible apply Keeps.refl
    | exact fun hy => hy
    | (with_reducible apply keeps_modFlt; case w => decide)
    | (with_reducible apply Keeps.step (k := keeps_latchBit _ _); case w => decide)
    | (with_reducible apply Keeps.step (k := keeps_kilnEvent _ _ _ _ _); case w => decide)
    | split

theorem keeps_execFaultInject (x1 : Cmd) (s : State) : KeepsOut [.out, .flt, .tel, .host] s (execFaultInject x1 s) := by
  unfold execFaultInject
  try dsimp only
  repeat' first
    | with_reducible apply Keeps.refl
    | with_reducible apply keepsOut_next
    | with_reducible apply keepsRes_okWrite
    | with_reducible intro _
    | (with_reducible apply keeps_icoux; case w => decide)
    | (with_reducible apply Keeps.step (k := keeps_armPoint _ _ _); case w => decide)

theorem keeps_execFaultPolicyWrite (x1 : Cmd) (s : State) : KeepsOut [.flt, .tel, .host] s (execFaultPolicyWrite x1 s) := by
  unfold execFaultPolicyWrite
  try dsimp only
  repeat' first
    | with_reducible assumption
    | with_reducible apply Keeps.refl
    | with_reducible apply keepsOut_next
    | with_reducible apply keepsRes_okWrite
    | exact fun hy => hy
    | with_reducible intro _
    | (with_reducible apply keeps_icoux; case w => decide)
    | with_reducible apply keeps_forMask
    | (with_reducible apply keeps_modFlt; case w => decide)

theorem keeps_execFaultPolicyRead (x1 : Cmd) (s : State) : KeepsOut [.flt, .tel, .host] s (execFaultPolicyRead x1 s) := by
  unfold execFaultPolicyRead
  try dsimp only
  repeat' first
    | with_reducible apply Keeps.refl
    | with_reducible apply keepsOut_next
    | with_reducible apply keepsRes_okReply
    | with_reducible intro _
    | (with_reducible apply keeps_icoux; case w => decide)

theorem keeps_releaseSite (x1 : Site) (s : State) : Keeps allParts s (releaseSite x1 s) := by
  unfold releaseSite
  try dsimp only
  repeat' first
    | with_reducible apply Keeps.refl
    | (with_reducible apply Keeps.step (k := keeps_modSite _ _ _ _ _); case w => decide)
    | (with_reducible apply Keeps.step (k := keeps_evaluateSite _ _); case w => decide)
    | split

theorem keeps_actOnSite (x1 : Nat) (x2 : Site) (s : State) : KeepsRes allParts s (actOnSite x1 x2 s) := by
  unfold actOnSite
  try dsimp only
  repeat' first
    | with_reducible apply Keeps.refl
    | exact trivial
    | with_reducible apply keepsRes_okWrite
    | (with_reducible apply Keeps.step (k := keeps_unfence _ _ _ _); case w => decide)
    | (with_reducible apply Keeps.step (k := keeps_modSite _ _ _ _ _); case w => decide)
    | (with_reducible apply Keeps.step (k := keeps_releaseSite _ _); case w => decide)
    | (with_reducible apply Keeps.step (k := keeps_fenceSite _ _); case w => decide)
    | split

theorem keeps_execFaultAction (x1 : Cmd) (s : State) : KeepsOut allParts s (execFaultAction x1 s) := by
  unfold execFaultAction
  try dsimp only
  repeat' first
    | with_reducible apply Keeps.refl
    | with_reducible apply keepsOut_next
    | exact trivial
    | with_reducible apply keepsRes_okWrite
    | exact fun hy => hy
    | with_reducible intro _
    | (with_reducible apply keeps_icoux; case w => decide)
    | (with_reducible apply Keeps.step (k := keeps_kilnEvent _ _ _ _ _); case w => decide)
    | (with_reducible apply Keeps.step (k := keeps_noteAlert _ _); case w => decide)
    | (with_reducible apply keeps_modFlt; case w => decide)
    | (with_reducible apply KeepsRes.step (k := keeps_actOnSite _ _ _); case w => decide)
    | split

theorem keeps_execFaultStatus (x1 : Cmd) (s : State) : KeepsOut [.flt, .tel, .host] s (execFaultStatus x1 s) := by
  unfold execFaultStatus
  try dsimp only
  repeat' first
    | with_reducible apply Keeps.refl
    | with_reducible apply keepsOut_next
    | with_reducible apply keepsRes_okReply
    | with_reducible intro _
    | (with_reducible apply keeps_icoux; case w => decide)

theorem keeps_execFaultSites (x1 : Cmd) (s : State) : KeepsOut [.flt, .tel, .host] s (execFaultSites x1 s) := by
  unfold execFaultSites
  try dsimp only
  repeat' first
    | with_reducible apply Keeps.refl
    | with_reducible apply keepsOut_next
    | with_reducible apply keepsRes_done
    | with_reducible intro _
    | (with_reducible apply keeps_icoux; case w => decide)

theorem keeps_endTask (x1 : List Nat) (x2 : Status) (s : State) : Keeps [.host] s (endTask x1 x2 s) := by
  unfold endTask
  try dsimp only
  repeat' first
    | with_reducible assumption
    | with_reducible apply Keeps.refl
    | with_reducible intro _
    | with_reducible apply keeps_foldl
    | (with_reducible apply Keeps.step (k := keeps_endRunning _ _ _ _ _); case w => decide)

theorem keeps_execCcMemory (x1 : Bool) (x2 : List Nat) (x3 : Bool) (s : State) : KeepsOut [.flt, .host] s (execCcMemory x1 x2 x3 s) := by
  unfold execCcMemory
  try dsimp only
  repeat' first
    | with_reducible apply Keeps.refl
    | with_reducible apply keepsOut_next
    | (with_reducible apply Keeps.step (k := keeps_raiseFault _ _ _ _ _); case w => decide)
    | (with_reducible apply Keeps.step (k := keeps_endTask _ _ _); case w => decide)
    | split

theorem keeps_execCcWatchdog (x1 : Fin 4) (x2 : List Nat) (x3 : Bool) (s : State) : KeepsOut [.flt, .host] s (execCcWatchdog x1 x2 x3 s) := by
  unfold execCcWatchdog
  try dsimp only
  repeat' first
    | with_reducible apply Keeps.refl
    | with_reducible apply keepsOut_next
    | (with_reducible apply Keeps.step (k := keeps_raiseFault _ _ _ _ _); case w => decide)
    | (with_reducible apply Keeps.step (k := keeps_endTask _ _ _); case w => decide)

theorem keeps_execFwCheck (x1 : List Nat) (x2 : Bool) (s : State) : KeepsOut [.flt, .host] s (execFwCheck x1 x2 s) := by
  unfold execFwCheck
  try dsimp only
  repeat' first
    | with_reducible apply Keeps.refl
    | with_reducible apply keepsOut_next
    | (with_reducible apply Keeps.step (k := keeps_raiseFault _ _ _ _ _); case w => decide)
    | (with_reducible apply Keeps.step (k := keeps_endTask _ _ _); case w => decide)

theorem kilnOk_codes {f g : FaultState} (e : g.kiln.map KilnRec.code = f.kiln.map KilnRec.code) (h : KilnOk f) : KilnOk g := by
  have hl : g.kiln.length = f.kiln.length := by simpa using congrArg List.length e
  have hh : g.kiln.head?.map KilnRec.code = f.kiln.head?.map KilnRec.code := by
    rw [← List.head?_map, ← List.head?_map, e]
  exact ⟨hl ▸ h.1, fun x => hh.trans (h.2 (hl ▸ x))⟩

theorem kilnOk_sublist {f g : FaultState} (e : g.kiln.Sublist f.kiln) (h : KilnOk f) : KilnOk g := by
  refine ⟨e.length_le.trans h.1, fun x => ?_⟩
  have : g.kiln = f.kiln := e.eq_of_length_le (by have := h.1; omega)
  rw [this] at x ⊢
  exact h.2 x

theorem keeps_execFltSelf (a : List (Nat × Nat × Nat)) (bad : Option Nat) (s : State) : KeepsOut [.flt] s (execFltSelf a bad s) := by
  unfold execFltSelf
  refine keepsOut_next (Keeps.step (keeps_modFlt _ (Keeps.refl _ _) (fun h => kilnOk_codes ?_ h) (by decide)) (keeps_raiseFault _ _ _ _ _) (by decide))
  cases bad with
  | none => rfl
  | some i =>
    apply List.ext_getElem?
    intro n
    simp only [List.getElem?_map, List.getElem?_mapIdx, Option.map_map]
    congr 1
    funext r
    simp only [Function.comp]
    split <;> rfl

theorem keeps_execKlnCursorWrite (x1 : BitVec 32) (s : State) : KeepsOut [.flt] s (execKlnCursorWrite x1 s) := by
  unfold execKlnCursorWrite
  try dsimp only
  repeat' first
    | with_reducible apply Keeps.refl
    | with_reducible apply keepsOut_next
    | exact fun hy => hy
    | (with_reducible apply keeps_modFlt; case w => decide)
    | split

theorem keeps_execKlnWindowLatched (s : State) : KeepsOut [.flt] s (execKlnWindowLatched s) := by
  unfold execKlnWindowLatched
  try dsimp only
  repeat' first
    | with_reducible apply Keeps.refl
    | with_reducible apply keepsOut_next
    | exact fun hy => hy
    | (with_reducible apply keeps_modFlt; case w => decide)
    | split

theorem keeps_execKilnRead (x1 : Cmd) (s : State) : KeepsOut [.flt, .tel, .host] s (execKilnRead x1 s) := by
  unfold execKilnRead
  try dsimp only
  repeat' first
    | with_reducible apply Keeps.refl
    | with_reducible apply keepsOut_next
    | with_reducible apply keepsRes_done
    | with_reducible intro _
    | (with_reducible apply keeps_icoux; case w => decide)

theorem keeps_execKilnClear (c : Cmd) (s : State) : KeepsOut [.flt, .tel, .host] s (execKilnClear c s) := by
  unfold execKilnClear
  refine keepsOut_next (keeps_icoux _ _ _ (Keeps.refl _ _) (fun i p s' => keepsRes_done ?_) (by decide))
  exact Keeps.step (keeps_modFlt _ (Keeps.refl _ _) (fun h => kilnOk_sublist List.filter_sublist h) (by decide)) (keeps_kiln _ _ _) (by decide)

end Sys2Proof.Laws
end

