-- ==== Sys2Proof/Laws/KeepsHostRegs.lean ====
section
/-!
SUPPORT. What the operations of HostRegs keep.
-/

set_option linter.all false

namespace Sys2Proof.Laws

open Sys2Proof Sys2Proof.Machine

theorem keeps_ignored (s : State) : Keeps [.host] s (ignored s) := by
  unfold ignored
  try dsimp only
  repeat' first
    | with_reducible apply Keeps.refl
    | (with_reducible apply keeps_modHost; case w => decide)

theorem keeps_execInvalidBarAccess (x1 : Bool) (x2 : Bool) (s : State) : KeepsOut [.out, .host] s (execInvalidBarAccess x1 x2 s) := by
  unfold execInvalidBarAccess
  try dsimp only
  repeat' first
    | with_reducible apply Keeps.refl
    | with_reducible apply keepsOut_next
    | (with_reducible apply Keeps.step (k := keeps_ignored _); case w => decide)
    | (with_reducible apply keeps_emit; case w => decide)
    | split

theorem keeps_writeMsix (x1 : Nat) (x2 : BitVec 32) (s : State) : Keeps [.out, .host] s (writeMsix x1 x2 s) := by
  unfold writeMsix
  try dsimp only
  repeat' first
    | with_reducible apply Keeps.refl
    | (with_reducible apply keeps_modHost; case w => decide)
    | (with_reducible apply keeps_emit; case w => decide)
    | split

theorem keeps_writeBase (x1 : Nat) (x2 : Nat) (x3 : BitVec 32) (s : State) : Keeps [.host] s (writeBase x1 x2 x3 s) := by
  unfold writeBase
  try dsimp only
  repeat' first
    | with_reducible apply Keeps.refl
    | (with_reducible apply Keeps.step (k := keeps_ignored _); case w => decide)
    | (with_reducible apply Keeps.step (k := keeps_setSlot _ _ _); case w => decide)
    | split

theorem keeps_execRegisterWrite (x1 : Nat) (x2 : BitVec 32) (s : State) : KeepsOut [.out, .host] s (execRegisterWrite x1 x2 s) := by
  unfold execRegisterWrite
  try dsimp only
  repeat' first
    | with_reducible apply Keeps.refl
    | with_reducible apply keepsOut_next
    | (with_reducible apply keeps_modHost; case w => decide)
    | (with_reducible apply Keeps.step (k := keeps_writeMsix _ _ _); case w => decide)
    | (with_reducible apply Keeps.step (k := keeps_writeBase _ _ _ _); case w => decide)
    | (with_reducible apply Keeps.step (k := keeps_ignored _); case w => decide)
    | split

theorem keeps_execRcCounterRead (x1 : Option SlotNo) (s : State) : KeepsOut [.out, .host] s (execRcCounterRead x1 s) := by
  unfold execRcCounterRead
  try dsimp only
  repeat' first
    | with_reducible apply Keeps.refl
    | with_reducible apply keepsOut_next
    | (with_reducible apply keeps_emit; case w => decide)
    | (with_reducible apply keeps_modHost; case w => decide)
    | (with_reducible apply Keeps.step (k := keeps_modSlot _ _ _); case w => decide)
    | split

theorem keeps_execHstMbxCtrlWrite (x1 : SlotNo) (x2 : BitVec 32) (s : State) : KeepsOut [.flt, .tel, .host, .mat, .fwd] s (execHstMbxCtrlWrite x1 x2 s) := by
  unfold execHstMbxCtrlWrite
  try dsimp only
  repeat' first
    | with_reducible apply Keeps.refl
    | with_reducible apply keepsOut_next
    | (with_reducible apply Keeps.step (k := keeps_ignored _); case w => decide)
    | (with_reducible apply Keeps.step (k := keeps_modSlot _ _ _); case w => decide)
    | (with_reducible apply Keeps.step (k := keeps_closeAbrupt _ _ _); case w => decide)
    | (with_reducible apply Keeps.step (k := keeps_setSlot _ _ _); case w => decide)
    | split

theorem keeps_doorbellFault (x1 : Nat) (x2 : Nat) (x3 : Nat) (s : State) : Keeps [.flt, .tel, .host] s (doorbellFault x1 x2 x3 s) := by
  unfold doorbellFault
  try dsimp only
  repeat' first
    | with_reducible apply Keeps.refl
    | (with_reducible apply Keeps.step (k := keeps_transportFault _ _); case w => decide)
    | (with_reducible apply Keeps.step (k := keeps_raiseFault _ _ _ _ _); case w => decide)
    | (with_reducible apply Keeps.step (k := keeps_kiln _ _ _); case w => decide)

theorem keeps_execHstMbxDb (x1 : SlotNo) (x2 : BitVec 32) (s : State) : KeepsOut [.flt, .tel, .host] s (execHstMbxDb x1 x2 s) := by
  unfold execHstMbxDb
  try dsimp only
  repeat' first
    | with_reducible apply Keeps.refl
    | with_reducible apply keepsOut_next
    | (with_reducible apply Keeps.step (k := keeps_ignored _); case w => decide)
    | (with_reducible apply Keeps.step (k := keeps_doorbellFault _ _ _ _); case w => decide)
    | (with_reducible apply Keeps.step (k := keeps_setSlot _ _ _); case w => decide)
    | split

theorem keeps_execHstMbxCplHeadWrite (x1 : SlotNo) (x2 : BitVec 32) (s : State) : KeepsOut [.flt, .tel, .host] s (execHstMbxCplHeadWrite x1 x2 s) := by
  unfold execHstMbxCplHeadWrite
  try dsimp only
  repeat' first
    | with_reducible apply Keeps.refl
    | with_reducible apply keepsOut_next
    | (with_reducible apply Keeps.step (k := keeps_ignored _); case w => decide)
    | (with_reducible apply Keeps.step (k := keeps_doorbellFault _ _ _ _); case w => decide)
    | (with_reducible apply Keeps.step (k := keeps_setSlot _ _ _); case w => decide)
    | split

theorem keeps_execSessionCloseDone (x1 : SlotNo) (s : State) : KeepsOut [.host] s (execSessionCloseDone x1 s) := by
  unfold execSessionCloseDone
  try dsimp only
  repeat' first
    | with_reducible apply Keeps.refl
    | with_reducible apply keepsOut_next
    | (with_reducible apply Keeps.step (k := keeps_setSlot _ _ _); case w => decide)
    | split

theorem keeps_resetSlot (x1 : Nat) (s : State) (x3 : Nat) : Keeps [.flt, .tel, .host, .mat, .fwd] s (resetSlot x1 s x3) := by
  unfold resetSlot
  try dsimp only
  repeat' first
    | with_reducible apply Keeps.refl
    | (with_reducible apply Keeps.step (k := keeps_closeAbrupt _ _ _); case w => decide)
    | (with_reducible apply Keeps.step (k := keeps_modSlot _ _ _); case w => decide)
    | split

theorem keeps_execPcieInterfaceLost (x1 : Bool) (s : State) : KeepsOut [.flt, .tel, .host, .mat, .fwd] s (execPcieInterfaceLost x1 s) := by
  unfold execPcieInterfaceLost
  try dsimp only
  repeat' first
    | with_reducible assumption
    | with_reducible apply Keeps.refl
    | with_reducible apply keepsOut_next
    | with_reducible intro _
    | with_reducible apply keeps_foldl
    | (with_reducible apply Keeps.step (k := keeps_resetSlot _ _ _); case w => decide)
    | (with_reducible apply Keeps.step (k := keeps_delegate _ _ _ _); case w => decide)
    | (with_reducible apply Keeps.step (k := keeps_disableRings _ _); case w => decide)
    | (with_reducible apply Keeps.step (k := keeps_count _ _ _ _); case w => decide)
    | (with_reducible apply keeps_modHost; case w => decide)
    | (with_reducible apply Keeps.step (k := keeps_raiseFault _ _ _ _ _); case w => decide)
    | (with_reducible apply Keeps.step (k := keeps_kiln _ _ _); case w => decide)
    | split

theorem keeps_execPcieLinkUp (x1 : Nat) (x2 : Nat) (s : State) : KeepsOut [.flt, .host] s (execPcieLinkUp x1 x2 s) := by
  unfold execPcieLinkUp
  try dsimp only
  repeat' first
    | with_reducible apply Keeps.refl
    | with_reducible apply keepsOut_next
    | (with_reducible apply Keeps.step (k := keeps_kiln _ _ _); case w => decide)
    | (with_reducible apply keeps_modHost; case w => decide)
    | split

end Sys2Proof.Laws
end

