-- ==== Sys2Proof/Laws/KeepsSession.lean ====
section
/-!
SUPPORT. What the operations of Session keep.
-/

set_option linter.all false

namespace Sys2Proof.Laws

open Sys2Proof Sys2Proof.Machine

theorem keeps_writeCompletion (x1 : Ended) (s : State) : Keeps [.out, .host] s (writeCompletion x1 s) := by
  unfold writeCompletion
  try dsimp only
  repeat' first
    | with_reducible apply Keeps.refl
    | (with_reducible apply keeps_emit; case w => decide)
    | (with_reducible apply Keeps.step (k := keeps_setSlot _ _ _); case w => decide)
    | (with_reducible apply Keeps.step (k := keeps_signal _ _); case w => decide)
    | split

theorem keeps_queueCompletion (x1 : Ended) (s : State) : Keeps [.out, .host] s (queueCompletion x1 s) := by
  unfold queueCompletion
  try dsimp only
  repeat' first
    | with_reducible apply Keeps.refl
    | (with_reducible apply Keeps.step (k := keeps_modSlot _ _ _); case w => decide)
    | (with_reducible apply keeps_modHost; case w => decide)
    | (with_reducible apply Keeps.step (k := keeps_raiseIbi _ _ _); case w => decide)
    | split

theorem keeps_afterCompletion (x1 : Ended) (s : State) : Keeps [.flt, .tel, .host, .mat, .fwd] s (afterCompletion x1 s) := by
  unfold afterCompletion
  try dsimp only
  repeat' first
    | with_reducible apply Keeps.refl
    | (with_reducible apply Keeps.step (k := keeps_endSession _ _ _); case w => decide)
    | (with_reducible apply Keeps.step (k := keeps_setSlot _ _ _); case w => decide)
    | split

theorem keeps_execCommandCompletion (x1 : Nat) (s : State) : KeepsOut [.out, .flt, .tel, .host, .mat, .fwd] s (execCommandCompletion x1 s) := by
  unfold execCommandCompletion
  try dsimp only
  repeat' first
    | with_reducible apply Keeps.refl
    | with_reducible apply keepsOut_next
    | (with_reducible apply Keeps.step (k := keeps_queueCompletion _ _); case w => decide)
    | (with_reducible apply Keeps.step (k := keeps_writeCompletion _ _); case w => decide)
    | (with_reducible apply Keeps.step (k := keeps_count _ _ _ _); case w => decide)
    | (with_reducible apply Keeps.step (k := keeps_afterCompletion _ _); case w => decide)
    | (with_reducible apply keeps_modHost; case w => decide)
    | split

theorem keeps_execUnknownOpcode (x1 : Cmd) (x2 : BitVec 16) (s : State) : KeepsOut [.flt, .tel, .host] s (execUnknownOpcode x1 x2 s) := by
  unfold execUnknownOpcode
  try dsimp only
  repeat' first
    | with_reducible apply Keeps.refl
    | with_reducible apply keepsOut_next
    | (with_reducible apply Keeps.step (k := keeps_takeCommand _ _); case w => decide)
    | (with_reducible apply Keeps.step (k := keeps_transportFault _ _); case w => decide)
    | (with_reducible apply Keeps.step (k := keeps_endCommand _ _); case w => decide)
    | (with_reducible apply Keeps.step (k := keeps_transferFailed _ _ _ _); case w => decide)
    | split

theorem keeps_wrongCredential (x1 : Nat) (s : State) : Keeps [.host] s (wrongCredential x1 s) := by
  unfold wrongCredential
  try dsimp only
  repeat' first
    | with_reducible apply Keeps.refl
    | (with_reducible apply keeps_modHost; case w => decide)
    | (with_reducible apply Keeps.step (k := keeps_modSlot _ _ _); case w => decide)
    | split

theorem keeps_execSessionOpen (x1 : Cmd) (s : State) : KeepsOut [.flt, .tel, .host] s (execSessionOpen x1 s) := by
  unfold execSessionOpen
  try dsimp only
  repeat' first
    | with_reducible apply Keeps.refl
    | with_reducible apply keepsOut_next
    | exact trivial
    | with_reducible apply keepsRes_done
    | with_reducible intro _
    | (with_reducible apply keeps_icoux; case w => decide)
    | (with_reducible apply Keeps.step (k := keeps_wrongCredential _ _); case w => decide)
    | (with_reducible apply Keeps.step (k := keeps_transportFault _ _); case w => decide)
    | (with_reducible apply Keeps.step (k := keeps_count _ _ _ _); case w => decide)
    | (with_reducible apply Keeps.step (k := keeps_kiln _ _ _); case w => decide)
    | (with_reducible apply Keeps.step (k := keeps_modSlot _ _ _); case w => decide)
    | split

theorem keeps_execSessionClose (x1 : Cmd) (s : State) : KeepsOut [.flt, .tel, .host] s (execSessionClose x1 s) := by
  unfold execSessionClose
  try dsimp only
  repeat' first
    | with_reducible apply Keeps.refl
    | with_reducible apply keepsOut_next
    | with_reducible apply keepsRes_okWrite
    | with_reducible intro _
    | (with_reducible apply keeps_icoux; case w => decide)
    | (with_reducible apply Keeps.step (k := keeps_modSlot _ _ _); case w => decide)

theorem keeps_execSessionSync (x1 : Cmd) (s : State) : KeepsOut [.flt, .tel, .host] s (execSessionSync x1 s) := by
  unfold execSessionSync
  try dsimp only
  repeat' first
    | with_reducible apply Keeps.refl
    | with_reducible apply keepsOut_next
    | with_reducible apply keepsRes_okWrite
    | with_reducible intro _
    | (with_reducible apply keeps_icoux; case w => decide)

theorem keeps_execRoleKey (x1 : Cmd) (s : State) : KeepsOut [.flt, .tel, .host, .boot] s (execRoleKey x1 s) := by
  unfold execRoleKey
  try dsimp only
  repeat' first
    | with_reducible apply Keeps.refl
    | with_reducible apply keepsOut_next
    | with_reducible apply keepsRes_okWrite
    | with_reducible intro _
    | (with_reducible apply keeps_icoux; case w => decide)
    | (with_reducible apply Keeps.step (k := keeps_kiln _ _ _); case w => decide)
    | (with_reducible apply Keeps.step (k := keeps_writeArea _ _); case w => decide)

theorem keeps_execLimitedExit (x1 : SlotNo) (s : State) : KeepsOut [.now, .host] s (execLimitedExit x1 s) := by
  unfold execLimitedExit
  try dsimp only
  repeat' first
    | with_reducible apply Keeps.refl
    | with_reducible apply keepsOut_next
    | (with_reducible apply Keeps.step (k := keeps_modSlot _ _ _); case w => decide)
    | (with_reducible apply keeps_reach; case w => decide)
    | split

theorem keeps_execLimitedCommandTake (x1 : SlotNo) (s : State) : KeepsOut [.now, .host] s (execLimitedCommandTake x1 s) := by
  unfold execLimitedCommandTake
  try dsimp only
  repeat' first
    | with_reducible apply Keeps.refl
    | with_reducible apply keepsOut_next
    | (with_reducible apply keeps_reach; case w => decide)
    | (with_reducible apply Keeps.step (k := keeps_modSlot _ _ _); case w => decide)
    | split

theorem keeps_execCredentialLockoutEnd (x1 : Option SlotNo) (s : State) : KeepsOut [.now, .host] s (execCredentialLockoutEnd x1 s) := by
  unfold execCredentialLockoutEnd
  try dsimp only
  repeat' first
    | with_reducible apply Keeps.refl
    | with_reducible apply keepsOut_next
    | (with_reducible apply keeps_modHost; case w => decide)
    | (with_reducible apply keeps_reach; case w => decide)
    | (with_reducible apply Keeps.step (k := keeps_modSlot _ _ _); case w => decide)
    | split

theorem keeps_execDmaRingWrite (x1 : Cmd) (s : State) : KeepsOut [.flt, .tel, .host] s (execDmaRingWrite x1 s) := by
  unfold execDmaRingWrite
  try dsimp only
  repeat' first
    | with_reducible apply Keeps.refl
    | with_reducible apply keepsOut_next
    | exact trivial
    | with_reducible apply keepsRes_okWrite
    | with_reducible intro _
    | (with_reducible apply keeps_icoux; case w => decide)
    | (with_reducible apply Keeps.step (k := keeps_setRing _ _ _); case w => decide)
    | split

theorem keeps_execDmaRingRead (x1 : Cmd) (s : State) : KeepsOut [.flt, .tel, .host] s (execDmaRingRead x1 s) := by
  unfold execDmaRingRead
  try dsimp only
  repeat' first
    | with_reducible apply Keeps.refl
    | with_reducible apply keepsOut_next
    | with_reducible apply keepsRes_okReply
    | with_reducible intro _
    | (with_reducible apply keeps_icoux; case w => decide)

theorem keeps_execCapRead (x1 : Cmd) (s : State) : KeepsOut [.flt, .tel, .host] s (execCapRead x1 s) := by
  unfold execCapRead
  try dsimp only
  repeat' first
    | with_reducible apply Keeps.refl
    | with_reducible apply keepsOut_next
    | exact trivial
    | with_reducible apply keepsRes_okReply
    | with_reducible intro _
    | (with_reducible apply keeps_icoux; case w => decide)
    | split

theorem keeps_changeTable (x1 : Nat) (s : State) : Keeps [.table, .mat, .fwd] s (changeTable x1 s) := by
  unfold changeTable
  try dsimp only
  repeat' first
    | with_reducible apply Keeps.refl
    | (with_reducible apply keeps_modFwd; case w => decide)
    | (with_reducible apply keeps_modMat; case w => decide)
    | (with_reducible apply keeps_setTable; case w => decide)

theorem keeps_startSwitch (x1 : Bool) (x2 : Nat) (x3 : Nat) (s : State) : Keeps [.time] s (startSwitch x1 x2 x3 s) := by
  unfold startSwitch
  try dsimp only
  repeat' first
    | with_reducible apply Keeps.refl
    | (with_reducible apply Keeps.step (k := keeps_raiseDone _); case w => decide)
    | (with_reducible apply keeps_modTime; case w => decide)

theorem keeps_execModeWrite (x1 : Cmd) (s : State) : KeepsOut [.table, .bufp, .time, .flt, .tel, .host, .mat, .fwd] s (execModeWrite x1 s) := by
  unfold execModeWrite
  try dsimp only
  repeat' first
    | with_reducible apply Keeps.refl
    | with_reducible apply keepsOut_next
    | exact trivial
    | with_reducible apply keepsRes_done
    | with_reducible apply keepsRes_later
    | with_reducible intro _
    | (with_reducible apply keeps_icoux; case w => decide)
    | (with_reducible apply Keeps.step (k := keeps_changeTable _ _); case w => decide)
    | (with_reducible apply Keeps.step (k := keeps_startSwitch _ _ _ _); case w => decide)
    | (with_reducible apply Keeps.step (k := keeps_modeChanged _ _); case w => decide)
    | split
    | (with_reducible apply keeps_setBufp; case w => decide)

theorem keeps_execModeRead (x1 : Cmd) (s : State) : KeepsOut [.flt, .tel, .host] s (execModeRead x1 s) := by
  unfold execModeRead
  try dsimp only
  repeat' first
    | with_reducible apply Keeps.refl
    | with_reducible apply keepsOut_next
    | with_reducible apply keepsRes_okReply
    | with_reducible intro _
    | (with_reducible apply keeps_icoux; case w => decide)

end Sys2Proof.Laws
end

