-- ==== Sys2Proof/Laws/KeepsUpload.lean ====
section
/-!
SUPPORT. What the operations of Upload keep.
-/

set_option linter.all false

namespace Sys2Proof.Laws

open Sys2Proof Sys2Proof.Machine

theorem keeps_setUpload (x1 : Nat) (x2 : Upload) (s : State) : Keeps [.host] s (setUpload x1 x2 s) := by
  unfold setUpload
  try dsimp only
  repeat' first
    | with_reducible apply Keeps.refl
    | (with_reducible apply keeps_modHost; case w => decide)

theorem keeps_uploadBegin (x1 : Nat) (x2 : Nat) (x3 : State → Bool) (x4 : Cmd) (s : State) : Keeps [.flt, .tel, .host] s (uploadBegin x1 x2 x3 x4 s) := by
  unfold uploadBegin
  try dsimp only
  repeat' first
    | with_reducible apply Keeps.refl
    | exact trivial
    | with_reducible apply keepsRes_okWrite
    | with_reducible intro _
    | (with_reducible apply keeps_icoux; case w => decide)
    | (with_reducible apply Keeps.step (k := keeps_setUpload _ _ _); case w => decide)
    | split

theorem keeps_uploadChunk (x1 : Nat) (x2 : Nat) (x3 : Cmd) (s : State) : Keeps [.flt, .tel, .host] s (uploadChunk x1 x2 x3 s) := by
  unfold uploadChunk
  try dsimp only
  repeat' first
    | with_reducible apply Keeps.refl
    | exact trivial
    | with_reducible apply keepsRes_okWrite
    | with_reducible intro _
    | (with_reducible apply keeps_icoux; case w => decide)
    | (with_reducible apply Keeps.step (k := keeps_setUpload _ _ _); case w => decide)
    | split

theorem keeps_releaseUpload (x1 : Nat) (s : State) : Keeps [.host] s (releaseUpload x1 s) := by
  unfold releaseUpload
  try dsimp only
  repeat' first
    | with_reducible apply Keeps.refl
    | (with_reducible apply keeps_modHost; case w => decide)

theorem keeps_execSigSetBegin (x1 : Cmd) (s : State) : KeepsOut [.flt, .tel, .host] s (execSigSetBegin x1 s) := by
  unfold execSigSetBegin
  try dsimp only
  repeat' first
    | with_reducible apply Keeps.refl
    | with_reducible apply keepsOut_next
    | (with_reducible apply Keeps.step (k := keeps_uploadBegin _ _ _ _ _); case w => decide)

theorem keeps_execSigSetChunk (x1 : Cmd) (s : State) : KeepsOut [.flt, .tel, .host] s (execSigSetChunk x1 s) := by
  unfold execSigSetChunk
  try dsimp only
  repeat' first
    | with_reducible apply Keeps.refl
    | with_reducible apply keepsOut_next
    | (with_reducible apply Keeps.step (k := keeps_uploadChunk _ _ _ _); case w => decide)

theorem keeps_writeSet (x1 : Nat) (x2 : Nat) (x3 : SigSet) (s : State) : Keeps [.flt, .sig] s (writeSet x1 x2 x3 s) := by
  unfold writeSet
  try dsimp only
  repeat' first
    | with_reducible assumption
    | with_reducible apply Keeps.refl
    | with_reducible intro _
    | with_reducible apply keeps_foldl
    | (with_reducible apply Keeps.step (k := keeps_kiln _ _ _); case w => decide)
    | (with_reducible apply keeps_modSig; case w => decide)

theorem keeps_execSigSetCommit (x1 : Cmd) (s : State) : KeepsOut [.flt, .tel, .host, .sig] s (execSigSetCommit x1 s) := by
  unfold execSigSetCommit
  try dsimp only
  repeat' first
    | with_reducible apply Keeps.refl
    | with_reducible apply keepsOut_next
    | exact trivial
    | with_reducible apply keepsRes_done
    | with_reducible apply keepsRes_later
    | with_reducible intro _
    | (with_reducible apply keeps_icoux; case w => decide)
    | (with_reducible apply Keeps.step (k := keeps_releaseUpload _ _); case w => decide)
    | (with_reducible apply Keeps.step (k := keeps_writeSet _ _ _ _); case w => decide)
    | (with_reducible apply keeps_modSig; case w => decide)
    | (with_reducible apply Keeps.step (k := keeps_startLoading _ _); case w => decide)
    | split

end Sys2Proof.Laws
end

