-- ==== Sys2Proof/Laws/KeepsFirmware.lean ====
section
/-!
SUPPORT. What the operations of Firmware keep.
-/

set_option linter.all false

namespace Sys2Proof.Laws

open Sys2Proof Sys2Proof.Machine

theorem keeps_execFwBegin (x1 : Cmd) (s : State) : KeepsOut [.flt, .tel, .host] s (execFwBegin x1 s) := by
  unfold execFwBegin
  try dsimp only
  repeat' first
    | with_reducible apply Keeps.refl
    | with_reducible apply keepsOut_next
    | (with_reducible apply Keeps.step (k := keeps_uploadBegin _ _ _ _ _); case w => decide)

theorem keeps_execFwChunk (x1 : Cmd) (s : State) : KeepsOut [.flt, .tel, .host] s (execFwChunk x1 s) := by
  unfold execFwChunk
  try dsimp only
  repeat' first
    | with_reducible apply Keeps.refl
    | with_reducible apply keepsOut_next
    | (with_reducible apply Keeps.step (k := keeps_uploadChunk _ _ _ _); case w => decide)

theorem keeps_modUpdate (x1 : FwUpdate → FwUpdate) (s : State) : Keeps [.boot] s (modUpdate x1 s) := by
  unfold modUpdate
  try dsimp only
  repeat' first
    | with_reducible apply Keeps.refl
    | exact (rfl : _ = _)
    | (with_reducible apply keeps_modBoot; case w => decide)

theorem keeps_execFwCommit (x1 : Cmd) (s : State) : KeepsOut [.flt, .tel, .host, .boot] s (execFwCommit x1 s) := by
  unfold execFwCommit
  try dsimp only
  repeat' first
    | with_reducible apply Keeps.refl
    | with_reducible apply keepsOut_next
    | exact trivial
    | with_reducible apply keepsRes_done
    | exact (rfl : _ = _)
    | with_reducible intro _
    | (with_reducible apply keeps_icoux; case w => decide)
    | (with_reducible apply Keeps.step (k := keeps_releaseUpload _ _); case w => decide)
    | (with_reducible apply Keeps.step (k := keeps_modUpdate _ _); case w => decide)
    | (with_reducible apply keeps_modBoot; case w => decide)
    | split

theorem keeps_execFwWritten (x1 : Bool) (s : State) : KeepsOut [.flt, .boot] s (execFwWritten x1 s) := by
  unfold execFwWritten
  try dsimp only
  repeat' first
    | with_reducible apply Keeps.refl
    | with_reducible apply keepsOut_next
    | exact (rfl : _ = _)
    | (with_reducible apply Keeps.step (k := keeps_kiln _ _ _); case w => decide)
    | (with_reducible apply keeps_modBoot; case w => decide)
    | (with_reducible apply Keeps.step (k := keeps_modUpdate _ _); case w => decide)
    | split

theorem keeps_execFwActivate (x1 : Cmd) (s : State) : KeepsOut [.flt, .tel, .host, .boot] s (execFwActivate x1 s) := by
  unfold execFwActivate
  try dsimp only
  repeat' first
    | with_reducible apply Keeps.refl
    | with_reducible apply keepsOut_next
    | exact trivial
    | with_reducible apply keepsRes_okWrite
    | exact (rfl : _ = _)
    | with_reducible intro _
    | (with_reducible apply keeps_icoux; case w => decide)
    | (with_reducible apply Keeps.step (k := keeps_kiln _ _ _); case w => decide)
    | (with_reducible apply Keeps.step (k := keeps_writeArea _ _); case w => decide)
    | (with_reducible apply keeps_modBoot; case w => decide)
    | split

theorem keeps_execFwStatus (x1 : Cmd) (s : State) : KeepsOut [.flt, .tel, .host] s (execFwStatus x1 s) := by
  unfold execFwStatus
  try dsimp only
  repeat' first
    | with_reducible apply Keeps.refl
    | with_reducible apply keepsOut_next
    | with_reducible apply keepsRes_okReply
    | with_reducible intro _
    | (with_reducible apply keeps_icoux; case w => decide)

theorem keeps_execDeviceReset (x1 : Cmd) (s : State) : KeepsOut [.flt, .tel, .host, .boot] s (execDeviceReset x1 s) := by
  unfold execDeviceReset
  try dsimp only
  repeat' first
    | with_reducible apply Keeps.refl
    | with_reducible apply keepsOut_next
    | with_reducible apply keepsRes_okWrite
    | exact (rfl : _ = _)
    | with_reducible intro _
    | (with_reducible apply keeps_icoux; case w => decide)
    | (with_reducible apply Keeps.step (k := keeps_saveData _); case w => decide)
    | (with_reducible apply Keeps.step (k := keeps_kiln _ _ _); case w => decide)
    | (with_reducible apply keeps_modBoot; case w => decide)

theorem keeps_execSoftwareReset (s : State) : KeepsOut allParts s (execSoftwareReset s) := by
  unfold execSoftwareReset
  try dsimp only
  repeat' first
    | with_reducible apply Keeps.refl
    | with_reducible apply keepsOut_next
    | (with_reducible apply Keeps.step (k := keeps_deviceReset _ _); case w => decide)
    | (with_reducible apply keeps_reach; case w => decide)
    | split

end Sys2Proof.Laws
end

