-- ==== Sys2Proof/Laws/KeepsBoot.lean ====
section
/-!
SUPPORT. What the operations of Boot keep.
-/

set_option linter.all false

namespace Sys2Proof.Laws

open Sys2Proof Sys2Proof.Machine

theorem keeps_heldInReset (s : State) : Keeps allParts s (heldInReset s) := by
  unfold heldInReset
  try dsimp only
  repeat' first
    | with_reducible apply Keeps.refl
    | (with_reducible apply Keeps.step (k := keeps_keptState _); case w => decide)

theorem keeps_execPowerOn (x1 : Option FlashIn) (s : State) : KeepsOut allParts s (execPowerOn x1 s) := by
  unfold execPowerOn
  try dsimp only
  repeat' first
    | with_reducible apply Keeps.refl
    | exact fun _ => kilnOk_empty rfl
    | with_reducible apply keepsOut_next
    | exact (rfl : _ = _)
    | (with_reducible apply keeps_modFlt; case w => decide)
    | (with_reducible apply Keeps.step (k := keeps_heldInReset _); case w => decide)
    | (with_reducible apply keeps_modBoot; case w => decide)
    | split

theorem keeps_releaseTrip (x1 : Bool) (s : State) : Keeps [.out, .boot] s (releaseTrip x1 s) := by
  unfold releaseTrip
  try dsimp only
  repeat' first
    | with_reducible apply Keeps.refl
    | exact (rfl : _ = _)
    | (with_reducible apply keeps_emit; case w => decide)
    | (with_reducible apply keeps_modBoot; case w => decide)
    | split

theorem keeps_execResetNAssert (x1 : Bool) (x2 : Bool) (s : State) : KeepsOut allParts s (execResetNAssert x1 x2 s) := by
  unfold execResetNAssert
  try dsimp only
  repeat' first
    | with_reducible apply Keeps.refl
    | with_reducible apply keepsOut_next
    | exact (rfl : _ = _)
    | (with_reducible apply Keeps.step (k := keeps_releaseTrip _ _); case w => decide)
    | (with_reducible apply Keeps.step (k := keeps_heldInReset _); case w => decide)
    | (with_reducible apply keeps_modBoot; case w => decide)
    | split

theorem keeps_execResetNDeassert (x1 : Fin 4) (s : State) : KeepsOut [.now, .boot] s (execResetNDeassert x1 s) := by
  unfold execResetNDeassert
  try dsimp only
  repeat' first
    | with_reducible apply Keeps.refl
    | with_reducible apply keepsOut_next
    | exact (rfl : _ = _)
    | (with_reducible apply keeps_reach; case w => decide)
    | (with_reducible apply keeps_modBoot; case w => decide)
    | split

theorem keeps_bootFailed (x1 : Nat) (s : State) : Keeps [.flt, .boot] s (bootFailed x1 s) := by
  unfold bootFailed
  try dsimp only
  repeat' first
    | with_reducible apply Keeps.refl
    | exact (rfl : _ = _)
    | (with_reducible apply Keeps.step (k := keeps_kiln _ _ _); case w => decide)
    | (with_reducible apply keeps_modBoot; case w => decide)

theorem keeps_execQ0PllLock (x1 : Fin 5) (s : State) : KeepsOut [.flt, .boot, .pow] s (execQ0PllLock x1 s) := by
  unfold execQ0PllLock
  try dsimp only
  repeat' first
    | with_reducible apply Keeps.refl
    | with_reducible apply keepsOut_next
    | exact (rfl : _ = _)
    | (with_reducible apply keeps_modPow; case w => decide)
    | (with_reducible apply keeps_modBoot; case w => decide)
    | (with_reducible apply Keeps.step (k := keeps_bootFailed _ _); case w => decide)
    | split

theorem keeps_fallback (x1 : Nat) (x2 : Nat) (s : State) : Keeps [.flt] s (fallback x1 x2 s) := by
  unfold fallback
  try dsimp only
  repeat' first
    | with_reducible apply Keeps.refl
    | (with_reducible apply Keeps.step (k := keeps_kiln _ _ _); case w => decide)

theorem keeps_chooseSlot (x1 : Nat → Bool) (s : State) : Keeps [.flt] s (chooseSlot x1 s).2 := by
  unfold chooseSlot
  try dsimp only
  repeat' first
    | with_reducible apply Keeps.refl
    | (with_reducible apply Keeps.step (k := keeps_fallback _ _ _); case w => decide)
    | split

theorem areaOrDefault_fuse (b : BootState) : (areaOrDefault b).securityMin = b.securityMin := by
  unfold areaOrDefault
  split <;> rfl

theorem keeps_glazeBegin (x1 : Nat) (x2 : Bool) (s : State) : Keeps [.flt, .boot, .pow] s (glazeBegin x1 x2 s) := by
  unfold glazeBegin
  try dsimp only
  repeat' first
    | with_reducible apply Keeps.refl
    | exact (rfl : _ = _)
    | (with_reducible apply keeps_modBoot; case w => decide)
    | (with_reducible apply Keeps.step (k := keeps_writeArea _ _); case w => decide)
    | (with_reducible apply Keeps.step (k := keeps_kiln _ _ _); case w => decide)
    | (with_reducible apply keeps_modPow; case w => decide)
    | split

theorem keeps_execGlazeInit (x1 : Bool) (x2 : Bool) (s : State) : KeepsOut [.flt, .boot, .pow] s (execGlazeInit x1 x2 s) := by
  unfold execGlazeInit
  try dsimp only
  repeat' first
    | with_reducible apply Keeps.refl
    | (with_reducible apply keeps_of_pair; case e => with_reducible assumption)
    | with_reducible apply keepsOut_next
    | exact areaOrDefault_fuse _
    | (with_reducible apply keeps_modBoot; case w => decide)
    | (with_reducible apply Keeps.step (k := keeps_chooseSlot _ _); case w => decide)
    | (with_reducible apply Keeps.step (k := keeps_bootFailed _ _); case w => decide)
    | (with_reducible apply Keeps.step (k := keeps_writeArea _ _); case w => decide)
    | (with_reducible apply Keeps.step (k := keeps_glazeBegin _ _ _); case w => decide)
    | split

theorem keeps_laneDieFails (x1 : Nat) (s : State) : Keeps allParts s (laneDieFails x1 s) := by
  unfold laneDieFails
  try dsimp only
  repeat' first
    | with_reducible apply Keeps.refl
    | exact (rfl : _ = _)
    | (with_reducible apply keeps_modBoot; case w => decide)
    | (with_reducible apply Keeps.step (k := keeps_takeRaise _ _); case w => decide)
    | (with_reducible apply Keeps.step (k := keeps_fenceSite _ _); case w => decide)
    | split

theorem keeps_execGlazeRetry (x1 : Fin 8) (x2 : Fin 8) (x3 : BitVec 16) (s : State) : KeepsOut allParts s (execGlazeRetry x1 x2 x3 s) := by
  unfold execGlazeRetry
  try dsimp only
  repeat' first
    | with_reducible apply Keeps.refl
    | with_reducible apply keepsOut_next
    | exact (rfl : _ = _)
    | (with_reducible apply keeps_modBoot; case w => decide)
    | (with_reducible apply Keeps.step (k := keeps_kiln _ _ _); case w => decide)
    | (with_reducible apply Keeps.step (k := keeps_laneDieFails _ _); case w => decide)
    | (with_reducible apply Keeps.step (k := keeps_bootFailed _ _); case w => decide)
    | split

theorem keeps_raiseMinimum (s : State) : Keeps [.flt, .boot, .fuse] s (raiseMinimum s) := by
  unfold raiseMinimum
  dsimp only
  split
  · exact Keeps.step (keeps_modFuse _ (Keeps.refl _ _) (by decide)) (keeps_kiln _ _ _) (by decide)
  · exact Keeps.refl _ _

theorem keeps_confirmSlot (s : State) : Keeps [.flt, .boot] s (confirmSlot s) := by
  unfold confirmSlot
  try dsimp only
  repeat' first
    | with_reducible apply Keeps.refl
    | (with_reducible apply Keeps.step (k := keeps_writeArea _ _); case w => decide)
    | (with_reducible apply Keeps.step (k := keeps_kiln _ _ _); case w => decide)
    | split

theorem keeps_becomeReady (s : State) : Keeps [.boot] s (becomeReady s) := by
  unfold becomeReady
  try dsimp only
  repeat' first
    | with_reducible apply Keeps.refl
    | exact (rfl : _ = _)
    | (with_reducible apply keeps_modBoot; case w => decide)

theorem keeps_execGlazeReady (x1 : List (List Int)) (s : State) : KeepsOut [.time, .flt, .boot, .pow, .fuse] s (execGlazeReady x1 s) := by
  unfold execGlazeReady
  try dsimp only
  repeat' first
    | with_reducible assumption
    | with_reducible apply Keeps.refl
    | with_reducible apply keepsOut_next
    | with_reducible intro _
    | with_reducible apply keeps_foldl
    | (with_reducible apply Keeps.step (k := keeps_gaugeEpoch _ _ _); case w => decide)
    | (with_reducible apply Keeps.step (k := keeps_planVdd _ _ _ _); case w => decide)
    | (with_reducible apply Keeps.step (k := keeps_placePower _); case w => decide)
    | (with_reducible apply Keeps.step (k := keeps_placeScrub _ _); case w => decide)
    | (with_reducible apply Keeps.step (k := keeps_becomeReady _); case w => decide)
    | (with_reducible apply Keeps.step (k := keeps_kiln _ _ _); case w => decide)
    | (with_reducible apply Keeps.step (k := keeps_raiseMinimum _); case w => decide)
    | (with_reducible apply Keeps.step (k := keeps_confirmSlot _); case w => decide)
    | split

theorem keeps_execWarmRestartStart (s : State) : KeepsOut allParts s (execWarmRestartStart s) := by
  unfold execWarmRestartStart
  try dsimp only
  repeat' first
    | with_reducible apply Keeps.refl
    | with_reducible apply keepsOut_next
    | (with_reducible apply Keeps.step (k := keeps_warmStart _ _ _); case w => decide)
    | split

theorem keeps_execWarmRestartDone (x1 : Bool) (x2 : Bool) (x3 : Bool) (s : State) : KeepsOut [.now, .free, .out, .table, .bufp, .limits, .time, .flt, .tel, .host, .boot, .lane, .mac, .fr, .prs, .sw, .mat, .fwd, .sig, .buf, .sch, .pow, .fuse] s (execWarmRestartDone x1 x2 x3 s) := by
  unfold execWarmRestartDone
  try dsimp only
  repeat' first
    | with_reducible apply Keeps.refl
    | with_reducible apply keepsOut_next
    | exact (rfl : _ = _)
    | (with_reducible apply Keeps.step (k := keeps_deviceReset _ _); case w => decide)
    | (with_reducible apply keeps_modBoot; case w => decide)
    | (with_reducible apply Keeps.step (k := keeps_becomeReady _); case w => decide)
    | (with_reducible apply Keeps.step (k := keeps_kiln _ _ _); case w => decide)
    | (with_reducible apply Keeps.step (k := keeps_raiseMinimum _); case w => decide)
    | (with_reducible apply Keeps.step (k := keeps_confirmSlot _); case w => decide)
    | split

end Sys2Proof.Laws
end

