-- ==== Sys2Proof/Laws/KeepsDecide.lean ====
section
/-!
SUPPORT. What the operations of Decide keep.
-/

set_option linter.all false

namespace Sys2Proof.Laws

open Sys2Proof Sys2Proof.Machine

theorem keeps_ingressMirrors (x1 : Nat) (s : State) : Keeps [.limits, .flt, .tel, .fr, .sw] s (ingressMirrors x1 s) := by
  unfold ingressMirrors
  try dsimp only
  repeat' first
    | with_reducible assumption
    | with_reducible apply Keeps.refl
    | with_reducible intro _
    | with_reducible apply keeps_foldl
    | (with_reducible apply Keeps.step (k := keeps_mirrorFrame _ _ _); case w => decide)
    | split

theorem keeps_programDelivery (x1 : Nat) (s : State) : Keeps [.fr] s (programDelivery x1 s) := by
  unfold programDelivery
  try dsimp only
  repeat' first
    | with_reducible apply Keeps.refl
    | (with_reducible apply Keeps.step (k := keeps_deliver _ _); case w => decide)

theorem keeps_replicate (x1 : Nat) (x2 : Nat) (s : State) : Keeps [.limits, .flt, .tel, .fr, .sw, .sch] s (replicate x1 x2 s) := by
  unfold replicate
  try dsimp only
  repeat' first
    | with_reducible assumption
    | with_reducible apply Keeps.refl
    | with_reducible intro _
    | with_reducible apply keeps_foldl
    | (with_reducible apply Keeps.step (k := keeps_spend _ _); case w => decide)
    | (with_reducible apply Keeps.step (k := keeps_count _ _ _ _); case w => decide)
    | (with_reducible apply Keeps.step (k := keeps_policeFrame _ _); case w => decide)
    | (with_reducible apply Keeps.step (k := keeps_dropFrame _ _ _ _); case w => decide)
    | (with_reducible apply Keeps.step (k := keeps_formTransfer _ _ _ _); case w => decide)
    | split

theorem keeps_unicast (x1 : Nat) (s : State) : Keeps [.limits, .flt, .tel, .fr, .sw, .sch] s (unicast x1 s) := by
  unfold unicast
  try dsimp only
  repeat' first
    | with_reducible apply Keeps.refl
    | (with_reducible apply Keeps.step (k := keeps_dropFrame _ _ _ _); case w => decide)
    | (with_reducible apply Keeps.step (k := keeps_policeFrame _ _); case w => decide)
    | (with_reducible apply Keeps.step (k := keeps_spend _ _); case w => decide)
    | (with_reducible apply Keeps.step (k := keeps_formTransfer _ _ _ _); case w => decide)
    | split

theorem keeps_forward (x1 : Nat) (s : State) : Keeps [.limits, .flt, .tel, .fr, .sw, .sch] s (forward x1 s) := by
  unfold forward
  try dsimp only
  repeat' first
    | with_reducible apply Keeps.refl
    | (with_reducible apply Keeps.step (k := keeps_spend _ _); case w => decide)
    | (with_reducible apply Keeps.step (k := keeps_programDelivery _ _); case w => decide)
    | (with_reducible apply Keeps.step (k := keeps_policeFrame _ _); case w => decide)
    | (with_reducible apply Keeps.step (k := keeps_replicate _ _ _); case w => decide)
    | (with_reducible apply Keeps.step (k := keeps_unicast _ _); case w => decide)
    | split

theorem keeps_recirculate (x1 : Nat) (s : State) : Keeps [.limits, .flt, .tel, .fr, .sw] s (recirculate x1 s) := by
  unfold recirculate
  try dsimp only
  repeat' first
    | with_reducible apply Keeps.refl
    | (with_reducible apply Keeps.step (k := keeps_dropFrame _ _ _ _); case w => decide)
    | (with_reducible apply Keeps.step (k := keeps_ingressMirrors _ _); case w => decide)
    | (with_reducible apply Keeps.step (k := keeps_newFrame _ _); case w => decide)
    | (with_reducible apply Keeps.step (k := keeps_spend _ _); case w => decide)
    | (with_reducible apply Keeps.step (k := keeps_count _ _ _ _); case w => decide)
    | split

theorem keeps_decide164 (x1 : Nat) (s : State) : Keeps [.limits, .flt, .tel, .fr, .sw, .mat, .sig, .sch] s (decide164 x1 s) := by
  unfold decide164
  try dsimp only
  repeat' first
    | with_reducible apply Keeps.refl
    | (with_reducible apply Keeps.step (k := keeps_dropFrame _ _ _ _); case w => decide)
    | (with_reducible apply Keeps.step (k := keeps_ingressMirrors _ _); case w => decide)
    | (with_reducible apply Keeps.step (k := keeps_inspect _ _); case w => decide)
    | (with_reducible apply Keeps.step (k := keeps_modFrame _ _ _); case w => decide)
    | (with_reducible apply Keeps.step (k := keeps_recirculate _ _); case w => decide)
    | (with_reducible apply Keeps.step (k := keeps_forward _ _); case w => decide)
    | split

theorem keeps_execFrameDecision (x1 : Nat) (s : State) : KeepsOut [.limits, .flt, .tel, .fr, .sw, .mat, .fwd, .sig, .sch] s (execFrameDecision x1 s) := by
  unfold execFrameDecision
  try dsimp only
  repeat' first
    | with_reducible apply Keeps.refl
    | with_reducible apply keepsOut_next
    | (with_reducible apply Keeps.step (k := keeps_learnRequest _ _); case w => decide)
    | (with_reducible apply Keeps.step (k := keeps_modFrame _ _ _); case w => decide)
    | (with_reducible apply Keeps.step (k := keeps_count _ _ _ _); case w => decide)
    | (with_reducible apply Keeps.step (k := keeps_decide164 _ _); case w => decide)
    | split

end Sys2Proof.Laws
end

