-- ==== Sys2Proof/Laws/KeepsImage.lean ====
section
/-!
SUPPORT. What the operations of Image keep.
-/

set_option linter.all false

namespace Sys2Proof.Laws

open Sys2Proof Sys2Proof.Machine

theorem keeps_loadStage (x1 : Bytes) (x2 : Nat) (s : State) (x4 : Nat) : Keeps [.mat] s (loadStage x1 x2 s x4) := by
  unfold loadStage
  try dsimp only
  repeat' first
    | with_reducible apply Keeps.refl
    | (with_reducible apply Keeps.step (k := keeps_setStage _ _ _ _); case w => decide)

theorem keeps_keepGraph (x1 : Nat) (s : State) : Keeps [.fr] s (keepGraph x1 s) := by
  unfold keepGraph
  try dsimp only
  repeat' first
    | with_reducible assumption
    | with_reducible apply Keeps.refl
    | with_reducible intro _
    | with_reducible apply keeps_foldl
    | (with_reducible apply Keeps.step (k := keeps_modFrame _ _ _); case w => decide)

theorem keeps_loadImage (x1 : Bytes) (x2 : Nat) (s : State) : Keeps [.fr, .prs, .mat] s (loadImage x1 x2 s) := by
  unfold loadImage
  try dsimp only
  repeat' first
    | with_reducible assumption
    | with_reducible apply Keeps.refl
    | with_reducible intro _
    | with_reducible apply keeps_foldl
    | (with_reducible apply Keeps.step (k := keeps_loadStage _ _ _ _); case w => decide)
    | (with_reducible apply Keeps.step (k := keeps_keepGraph _ _); case w => decide)
    | (with_reducible apply Keeps.step (k := keeps_setMatPipe _ _ _); case w => decide)
    | (with_reducible apply Keeps.step (k := keeps_setParserPipe _ _ _); case w => decide)

theorem keeps_stopAt (x1 : Nat) (x2 : Status) (s : State) : Keeps [.flt, .mat] s (stopAt x1 x2 s) := by
  unfold stopAt
  try dsimp only
  repeat' first
    | with_reducible apply Keeps.refl
    | (with_reducible apply Keeps.step (k := keeps_kiln _ _ _); case w => decide)
    | (with_reducible apply keeps_modMat; case w => decide)

theorem keeps_afterApply (x1 : Nat) (s : State) : Keeps [.flt, .mat] s (afterApply x1 s) := by
  unfold afterApply
  try dsimp only
  repeat' first
    | with_reducible apply Keeps.refl
    | (with_reducible apply keeps_modMat; case w => decide)
    | (with_reducible apply Keeps.step (k := keeps_stopAt _ _ _); case w => decide)
    | split

theorem keeps_execImagePipelineApply (x1 : Fin 2001) (s : State) : KeepsOut [.flt, .fr, .prs, .mat] s (execImagePipelineApply x1 s) := by
  unfold execImagePipelineApply
  try dsimp only
  repeat' first
    | with_reducible apply Keeps.refl
    | with_reducible apply keepsOut_next
    | (with_reducible apply Keeps.step (k := keeps_stopAt _ _ _); case w => decide)
    | (with_reducible apply Keeps.step (k := keeps_setMatPipe _ _ _); case w => decide)
    | (with_reducible apply Keeps.step (k := keeps_afterApply _ _); case w => decide)
    | (with_reducible apply Keeps.step (k := keeps_kiln _ _ _); case w => decide)
    | (with_reducible apply Keeps.step (k := keeps_loadImage _ _ _); case w => decide)
    | split

theorem keeps_execImageBegin (x1 : Cmd) (s : State) : KeepsOut [.flt, .tel, .host] s (execImageBegin x1 s) := by
  unfold execImageBegin
  try dsimp only
  repeat' first
    | with_reducible apply Keeps.refl
    | with_reducible apply keepsOut_next
    | (with_reducible apply Keeps.step (k := keeps_uploadBegin _ _ _ _ _); case w => decide)

theorem keeps_execImageChunk (x1 : Cmd) (s : State) : KeepsOut [.flt, .tel, .host] s (execImageChunk x1 s) := by
  unfold execImageChunk
  try dsimp only
  repeat' first
    | with_reducible apply Keeps.refl
    | with_reducible apply keepsOut_next
    | (with_reducible apply Keeps.step (k := keeps_uploadChunk _ _ _ _); case w => decide)

theorem keeps_execImageVerify (x1 : Cmd) (s : State) : KeepsOut [.flt, .tel, .host, .mat] s (execImageVerify x1 s) := by
  unfold execImageVerify
  try dsimp only
  repeat' first
    | with_reducible apply Keeps.refl
    | with_reducible apply keepsOut_next
    | exact trivial
    | with_reducible apply keepsRes_done
    | with_reducible intro _
    | (with_reducible apply keeps_icoux; case w => decide)
    | (with_reducible apply Keeps.step (k := keeps_releaseUpload _ _); case w => decide)
    | (with_reducible apply Keeps.step (k := keeps_kiln _ _ _); case w => decide)
    | (with_reducible apply keeps_modMat; case w => decide)
    | split

theorem keeps_execImageApply (x1 : Cmd) (s : State) : KeepsOut [.flt, .tel, .host, .mat] s (execImageApply x1 s) := by
  unfold execImageApply
  try dsimp only
  repeat' first
    | with_reducible apply Keeps.refl
    | with_reducible apply keepsOut_next
    | exact trivial
    | with_reducible apply keepsRes_done
    | with_reducible intro _
    | (with_reducible apply keeps_icoux; case w => decide)
    | (with_reducible apply keeps_modMat; case w => decide)
    | split

theorem keeps_unloadPipe (x1 : Nat) (s : State) : Keeps [.fr, .prs, .mat] s (unloadPipe x1 s) := by
  unfold unloadPipe
  try dsimp only
  repeat' first
    | with_reducible assumption
    | with_reducible apply Keeps.refl
    | with_reducible intro _
    | with_reducible apply keeps_foldl
    | (with_reducible apply Keeps.step (k := keeps_setStage _ _ _ _); case w => decide)
    | (with_reducible apply Keeps.step (k := keeps_keepGraph _ _); case w => decide)
    | (with_reducible apply Keeps.step (k := keeps_setMatPipe _ _ _); case w => decide)
    | (with_reducible apply Keeps.step (k := keeps_setParserPipe _ _ _); case w => decide)

theorem keeps_execImageUnload (x1 : Cmd) (s : State) : KeepsOut [.flt, .tel, .host, .fr, .prs, .mat] s (execImageUnload x1 s) := by
  unfold execImageUnload
  try dsimp only
  repeat' first
    | with_reducible assumption
    | with_reducible apply Keeps.refl
    | with_reducible apply keepsOut_next
    | exact trivial
    | with_reducible apply keepsRes_okWrite
    | with_reducible intro _
    | (with_reducible apply keeps_icoux; case w => decide)
    | with_reducible apply keeps_forMask
    | (with_reducible apply Keeps.step (k := keeps_unloadPipe _ _); case w => decide)
    | split

theorem keeps_execImageStatus (x1 : Cmd) (s : State) : KeepsOut [.flt, .tel, .host] s (execImageStatus x1 s) := by
  unfold execImageStatus
  try dsimp only
  repeat' first
    | with_reducible apply Keeps.refl
    | with_reducible apply keepsOut_next
    | with_reducible apply keepsRes_okReply
    | with_reducible intro _
    | (with_reducible apply keeps_icoux; case w => decide)

end Sys2Proof.Laws
end

