-- ==== Sys2Proof/Laws/KeepsRings.lean ====
section
/-!
SUPPORT. What the operations of Rings keep.
-/

set_option linter.all false

namespace Sys2Proof.Laws

open Sys2Proof Sys2Proof.Machine

theorem keeps_tailWrite (x1 : Nat) (x2 : Nat) (x3 : Ring → Bool) (x4 : Ring → Ring) (s : State) : Keeps [.flt, .tel, .host] s (tailWrite x1 x2 x3 x4 s) := by
  unfold tailWrite
  try dsimp only
  repeat' first
    | with_reducible apply Keeps.refl
    | (with_reducible apply Keeps.step (k := keeps_ignored _); case w => decide)
    | (with_reducible apply Keeps.step (k := keeps_doorbellFault _ _ _ _); case w => decide)
    | (with_reducible apply Keeps.step (k := keeps_setRing _ _ _); case w => decide)
    | split

theorem keeps_execHstRxTailWrite (x1 : RingNo) (x2 : BitVec 32) (s : State) : KeepsOut [.flt, .tel, .host] s (execHstRxTailWrite x1 x2 s) := by
  unfold execHstRxTailWrite
  try dsimp only
  repeat' first
    | with_reducible apply Keeps.refl
    | with_reducible apply keepsOut_next
    | (with_reducible apply Keeps.step (k := keeps_tailWrite _ _ _ _ _); case w => decide)
    | split

theorem keeps_execHstTxTailWrite (x1 : RingNo) (x2 : BitVec 32) (s : State) : KeepsOut [.flt, .tel, .host] s (execHstTxTailWrite x1 x2 s) := by
  unfold execHstTxTailWrite
  try dsimp only
  repeat' first
    | with_reducible apply Keeps.refl
    | with_reducible apply keepsOut_next
    | (with_reducible apply Keeps.step (k := keeps_tailWrite _ _ _ _ _); case w => decide)
    | split

theorem keeps_ringIrq (x1 : Nat) (x2 : Bool) (s : State) : Keeps [.out, .host] s (ringIrq x1 x2 s) := by
  unfold ringIrq
  try dsimp only
  repeat' first
    | with_reducible apply Keeps.refl
    | (with_reducible apply Keeps.step (k := keeps_signal _ _); case w => decide)
    | (with_reducible apply Keeps.step (k := keeps_setRing _ _ _); case w => decide)
    | split

theorem keeps_execIrqCoalesceExpiry (x1 : RingNo) (x2 : Bool) (s : State) : KeepsOut [.now, .out, .host] s (execIrqCoalesceExpiry x1 x2 s) := by
  unfold execIrqCoalesceExpiry
  try dsimp only
  repeat' first
    | with_reducible apply Keeps.refl
    | with_reducible apply keepsOut_next
    | (with_reducible apply keeps_reach; case w => decide)
    | (with_reducible apply Keeps.step (k := keeps_setRing _ _ _); case w => decide)
    | (with_reducible apply Keeps.step (k := keeps_ringIrq _ _ _); case w => decide)
    | split

theorem keeps_writePieces (ring : Ring) (v : Frame) (d : Delivery) (i : Nat) (p : Bool) (l : List (Nat × Bytes)) (s : State) :
    Keeps [.out] s (writePieces ring v d i p l s) := by
  induction l generalizing s i p with
  | nil => exact Keeps.refl _ _
  | cons x t ih => exact (keeps_emit _ (keeps_emit _ (Keeps.refl _ _) (by decide)) (by decide)).trans (ih _ _ _)

theorem keeps_deliveryDone (x1 : Delivery) (s : State) : Keeps [.fr] s (deliveryDone x1 s) := by
  unfold deliveryDone
  try dsimp only
  repeat' first
    | with_reducible apply Keeps.refl
    | (with_reducible apply Keeps.step (k := keeps_settleFrame _ _); case w => decide)
    | (with_reducible apply keeps_modFr; case w => decide)

theorem keeps_ringFull (x1 : Nat) (x2 : Delivery) (s : State) : Keeps [.limits, .flt, .tel, .fr, .sw] s (ringFull x1 x2 s) := by
  unfold ringFull
  try dsimp only
  repeat' first
    | with_reducible apply Keeps.refl
    | (with_reducible apply Keeps.step (k := keeps_count _ _ _ _); case w => decide)
    | (with_reducible apply Keeps.step (k := keeps_dropCopyIn _ _ _ _ _ _); case w => decide)
    | (with_reducible apply Keeps.step (k := keeps_dropIn _ _ _ _ _); case w => decide)
    | split

theorem keeps_execHostDelivery (x1 : RingNo) (x2 : List (Nat × Nat)) (x3 : Bool) (s : State) : KeepsOut [.out, .limits, .flt, .tel, .host, .fr, .sw] s (execHostDelivery x1 x2 x3 s) := by
  unfold execHostDelivery
  try dsimp only
  repeat' first
    | with_reducible apply Keeps.refl
    | with_reducible apply keepsOut_next
    | (with_reducible apply Keeps.step (k := keeps_deliveryDone _ _); case w => decide)
    | (with_reducible apply Keeps.step (k := keeps_ringFull _ _ _); case w => decide)
    | (with_reducible apply Keeps.step (k := keeps_setRing _ _ _); case w => decide)
    | (with_reducible apply Keeps.step (k := keeps_writePieces _ _ _ _ _ _ _); case w => decide)
    | (with_reducible apply Keeps.step (k := keeps_count _ _ _ _); case w => decide)
    | (with_reducible apply Keeps.step (k := keeps_ringIrq _ _ _); case w => decide)
    | split

theorem keeps_writeDone (ring : Ring) (st i : Nat) (l : List Bytes) (s : State) : Keeps [.out] s (writeDone ring st i l s) := by
  induction l generalizing s i with
  | nil => exact Keeps.refl _ _
  | cons d t ih => exact (keeps_emit _ (Keeps.refl _ _) (by decide)).trans (ih _ _)

theorem keeps_txComplete (x1 : Nat) (x2 : Nat) (x3 : List Bytes) (s : State) : Keeps [.out, .tel, .host] s (txComplete x1 x2 x3 s) := by
  unfold txComplete
  try dsimp only
  repeat' first
    | with_reducible apply Keeps.refl
    | (with_reducible apply Keeps.step (k := keeps_setRing _ _ _); case w => decide)
    | (with_reducible apply Keeps.step (k := keeps_writeDone _ _ _ _ _); case w => decide)
    | (with_reducible apply Keeps.step (k := keeps_count _ _ _ _); case w => decide)
    | (with_reducible apply Keeps.step (k := keeps_ringIrq _ _ _); case w => decide)
    | (with_reducible apply keeps_modHost; case w => decide)
    | split

theorem keeps_txRefused (x1 : Nat) (x2 : Nat) (x3 : List Bytes) (s : State) : Keeps [.out, .flt, .tel, .host] s (txRefused x1 x2 x3 s) := by
  unfold txRefused
  try dsimp only
  repeat' first
    | with_reducible apply Keeps.refl
    | (with_reducible apply Keeps.step (k := keeps_transportFault _ _); case w => decide)
    | (with_reducible apply Keeps.step (k := keeps_txComplete _ _ _ _); case w => decide)

theorem keeps_txReadFailed (x1 : Nat) (x2 : List Bytes) (s : State) : Keeps [.out, .flt, .tel, .host] s (txReadFailed x1 x2 s) := by
  unfold txReadFailed
  try dsimp only
  repeat' first
    | with_reducible apply Keeps.refl
    | (with_reducible apply Keeps.step (k := keeps_txRefused _ _ _ _); case w => decide)
    | (with_reducible apply Keeps.step (k := keeps_count _ _ _ _); case w => decide)
    | (with_reducible apply Keeps.step (k := keeps_raiseFault _ _ _ _ _); case w => decide)
    | (with_reducible apply Keeps.step (k := keeps_kiln _ _ _); case w => decide)

theorem keeps_injectFrame (x1 : Nat) (x2 : List Bytes) (x3 : Bytes) (s : State) : Keeps [.out, .tel, .host, .fr] s (injectFrame x1 x2 x3 s) := by
  unfold injectFrame
  try dsimp only
  repeat' first
    | with_reducible apply Keeps.refl
    | (with_reducible apply Keeps.step (k := keeps_newFrame _ _); case w => decide)
    | (with_reducible apply Keeps.step (k := keeps_txComplete _ _ _ _); case w => decide)
    | (with_reducible apply Keeps.step (k := keeps_count _ _ _ _); case w => decide)

theorem keeps_execHostInject (x1 : RingNo) (x2 : List Bytes) (x3 : Bytes) (x4 : Bool) (s : State) : KeepsOut [.out, .limits, .flt, .tel, .host, .fr, .sw] s (execHostInject x1 x2 x3 x4 s) := by
  unfold execHostInject
  try dsimp only
  repeat' first
    | with_reducible apply Keeps.refl
    | with_reducible apply keepsOut_next
    | (with_reducible apply keeps_modHost; case w => decide)
    | (with_reducible apply Keeps.step (k := keeps_txRefused _ _ _ _); case w => decide)
    | (with_reducible apply Keeps.step (k := keeps_txReadFailed _ _ _); case w => decide)
    | (with_reducible apply Keeps.step (k := keeps_txComplete _ _ _ _); case w => decide)
    | (with_reducible apply Keeps.step (k := keeps_dropIn _ _ _ _ _); case w => decide)
    | (with_reducible apply Keeps.step (k := keeps_injectFrame _ _ _ _); case w => decide)
    | split

end Sys2Proof.Laws
end

