-- ==== Sys2Proof/Laws/KeepsSideband.lean ====
section
/-!
SUPPORT. What the operations of Sideband keep.
-/

set_option linter.all false

namespace Sys2Proof.Laws

open Sys2Proof Sys2Proof.Machine

theorem keeps_modI3c (x1 : I3c → I3c) (s : State) : Keeps [.host] s (modI3c x1 s) := by
  unfold modI3c
  try dsimp only
  repeat' first
    | with_reducible apply Keeps.refl
    | (with_reducible apply keeps_modHost; case w => decide)

theorem keeps_frameDiscarded (x1 : Nat) (s : State) : Keeps [.flt, .tel, .host] s (frameDiscarded x1 s) := by
  unfold frameDiscarded
  try dsimp only
  repeat' first
    | with_reducible apply Keeps.refl
    | (with_reducible apply Keeps.step (k := keeps_count _ _ _ _); case w => decide)
    | (with_reducible apply Keeps.step (k := keeps_transportFault _ _); case w => decide)
    | split

theorem keeps_writeFrame {m : List Part} {s0 s : State} (ddr : Bool) (f : State → State) (h : Keeps m s0 s)
    (k : ∀ s', Keeps m s0 s' → Keeps m s0 (f s')) (w : within [.free, .out, .host] m = true) : Keeps m s0 (writeFrame ddr f s) := by
  unfold writeFrame
  dsimp only
  split
  · exact h
  · split
    · exact keeps_emit _ h (within_trans rfl w)
    · split
      · exact k _ (h.step (keeps_modI3c _ _) (within_trans rfl w))
      · split
        · exact k _ (h.step (keeps_modI3c _ _) (within_trans rfl w))
        · have hf := keeps_takeFree h (within_trans rfl w)
          split
          · exact keeps_emit _ hf (within_trans rfl w)
          · exact k _ (hf.step (keeps_modI3c _ _) (within_trans rfl w))

theorem keeps_execUmlimelPayload (x1 : Nat) (x2 : Nat) (x3 : Bytes) (x4 : Bool) (s : State) : KeepsOut [.free, .out, .flt, .tel, .host] s (execUmlimelPayload x1 x2 x3 x4 s) := by
  unfold execUmlimelPayload
  try dsimp only
  repeat' first
    | with_reducible assumption
    | with_reducible apply Keeps.refl
    | with_reducible apply keepsOut_next
    | with_reducible intro _
    | (with_reducible apply keeps_writeFrame; case w => decide)
    | (with_reducible apply Keeps.step (k := keeps_modSlot _ _ _); case w => decide)
    | (with_reducible apply Keeps.step (k := keeps_frameDiscarded _ _); case w => decide)
    | split

theorem keeps_answerAside (x1 : Nat) (x2 : Status) (x3 : Bytes) (s : State) : Keeps [.host] s (answerAside x1 x2 x3 s) := by
  unfold answerAside
  try dsimp only
  repeat' first
    | with_reducible apply Keeps.refl
    | (with_reducible apply Keeps.step (k := keeps_endCommand _ _); case w => decide)

theorem keeps_execUmlimelCommand (x1 : Nat) (x2 : Bytes) (x3 : Bool) (s : State) : KeepsOut [.free, .out, .flt, .tel, .host] s (execUmlimelCommand x1 x2 x3 s) := by
  unfold execUmlimelCommand
  try dsimp only
  repeat' first
    | with_reducible assumption
    | with_reducible apply Keeps.refl
    | with_reducible apply keepsOut_next
    | with_reducible intro _
    | (with_reducible apply keeps_writeFrame; case w => decide)
    | (with_reducible apply Keeps.step (k := keeps_frameDiscarded _ _); case w => decide)
    | (with_reducible apply Keeps.step (k := keeps_answerAside _ _ _ _); case w => decide)
    | (with_reducible apply Keeps.step (k := keeps_modSlot _ _ _); case w => decide)
    | split

theorem keeps_execUmlimelFetch (x1 : Nat) (x2 : Nat) (x3 : Bool) (s : State) : KeepsOut [.free, .out, .flt, .tel, .host] s (execUmlimelFetch x1 x2 x3 s) := by
  unfold execUmlimelFetch
  try dsimp only
  repeat' first
    | with_reducible assumption
    | with_reducible apply Keeps.refl
    | with_reducible apply keepsOut_next
    | with_reducible intro _
    | (with_reducible apply keeps_writeFrame; case w => decide)
    | (with_reducible apply Keeps.step (k := keeps_modI3c _ _); case w => decide)
    | (with_reducible apply Keeps.step (k := keeps_frameDiscarded _ _); case w => decide)
    | split

theorem keeps_execUmlimelRead (x1 : Bool) (s : State) : KeepsOut [.out, .host] s (execUmlimelRead x1 s) := by
  unfold execUmlimelRead
  try dsimp only
  repeat' first
    | with_reducible apply Keeps.refl
    | with_reducible apply keepsOut_next
    | (with_reducible apply keeps_emit; case w => decide)
    | (with_reducible apply Keeps.step (k := keeps_modI3c _ _); case w => decide)
    | split

theorem keeps_execUmlimelFrameInvalid (x1 : Nat) (x2 : Bool) (s : State) : KeepsOut [.free, .out, .flt, .tel, .host] s (execUmlimelFrameInvalid x1 x2 s) := by
  unfold execUmlimelFrameInvalid
  try dsimp only
  repeat' first
    | with_reducible assumption
    | with_reducible apply Keeps.refl
    | with_reducible apply keepsOut_next
    | with_reducible intro _
    | (with_reducible apply keeps_writeFrame; case w => decide)
    | (with_reducible apply Keeps.step (k := keeps_frameDiscarded _ _); case w => decide)

theorem keeps_execIbiRetry (x1 : Bool) (s : State) : KeepsOut [.now, .out, .host] s (execIbiRetry x1 s) := by
  unfold execIbiRetry
  try dsimp only
  repeat' first
    | with_reducible apply Keeps.refl
    | with_reducible apply keepsOut_next
    | (with_reducible apply Keeps.step (k := keeps_raiseIbi _ _ _); case w => decide)
    | (with_reducible apply keeps_reach; case w => decide)
    | split

theorem keeps_ccc {m : List Part} {s0 s : State} (f : State → State) (h : Keeps m s0 s)
    (k : ∀ s', Keeps m s0 s' → Keeps m s0 (f s')) (w : within [.host] m = true) : Keeps m s0 (ccc f s) := by
  unfold ccc
  split
  · exact k _ (h.step (keeps_modI3c _ _) w)
  · exact h

theorem keeps_cccGet {m : List Part} {s0 s : State} (b : State → Bytes × State) (h : Keeps m s0 s)
    (k : ∀ s', Keeps m s0 s' → Keeps m s0 (b s').2) (w : within [.out, .host] m = true) : Keeps m s0 (cccGet b s) := by
  unfold cccGet
  split
  · exact h
  · split
    · exact keeps_emit _ h (within_trans rfl w)
    · exact keeps_emit _ (k _ (h.step (keeps_modI3c _ _) (within_trans rfl w))) (within_trans rfl w)

theorem keeps_setAddress (x1 : BitVec 7) (s : State) : Keeps [.flt, .host] s (setAddress x1 s) := by
  unfold setAddress
  try dsimp only
  repeat' first
    | with_reducible apply Keeps.refl
    | (with_reducible apply Keeps.step (k := keeps_kiln _ _ _); case w => decide)
    | (with_reducible apply Keeps.step (k := keeps_modI3c _ _); case w => decide)

theorem keeps_resetFrames (s : State) : Keeps [.tel, .host] s (resetFrames s) := by
  unfold resetFrames
  try dsimp only
  repeat' first
    | with_reducible apply Keeps.refl
    | (with_reducible apply Keeps.step (k := keeps_count _ _ _ _); case w => decide)
    | (with_reducible apply Keeps.step (k := keeps_modI3c _ _); case w => decide)

theorem keeps_execEnec (x1 : BitVec 8) (s : State) : KeepsOut [.host] s (execEnec x1 s) := by
  unfold execEnec
  try dsimp only
  repeat' first
    | with_reducible assumption
    | with_reducible apply Keeps.refl
    | with_reducible apply keepsOut_next
    | with_reducible intro _
    | (with_reducible apply keeps_ccc; case w => decide)
    | (with_reducible apply Keeps.step (k := keeps_modI3c _ _); case w => decide)

theorem keeps_execDisec (x1 : BitVec 8) (s : State) : KeepsOut [.host] s (execDisec x1 s) := by
  unfold execDisec
  try dsimp only
  repeat' first
    | with_reducible assumption
    | with_reducible apply Keeps.refl
    | with_reducible apply keepsOut_next
    | with_reducible intro _
    | (with_reducible apply keeps_ccc; case w => decide)
    | (with_reducible apply Keeps.step (k := keeps_modI3c _ _); case w => decide)

theorem keeps_execRstdaa (s : State) : KeepsOut [.host] s (execRstdaa s) := by
  unfold execRstdaa
  try dsimp only
  repeat' first
    | with_reducible assumption
    | with_reducible apply Keeps.refl
    | with_reducible apply keepsOut_next
    | with_reducible intro _
    | (with_reducible apply keeps_ccc; case w => decide)
    | (with_reducible apply Keeps.step (k := keeps_modI3c _ _); case w => decide)

theorem keeps_execEntdaa (x1 : BitVec 7) (s : State) : KeepsOut [.flt, .host] s (execEntdaa x1 s) := by
  unfold execEntdaa
  try dsimp only
  repeat' first
    | with_reducible assumption
    | with_reducible apply Keeps.refl
    | with_reducible apply keepsOut_next
    | with_reducible intro _
    | (with_reducible apply keeps_ccc; case w => decide)
    | (with_reducible apply Keeps.step (k := keeps_setAddress _ _); case w => decide)
    | split

theorem keeps_execSetdasa (x1 : BitVec 7) (s : State) : KeepsOut [.flt, .host] s (execSetdasa x1 s) := by
  unfold execSetdasa
  try dsimp only
  repeat' first
    | with_reducible assumption
    | with_reducible apply Keeps.refl
    | with_reducible apply keepsOut_next
    | with_reducible intro _
    | (with_reducible apply keeps_ccc; case w => decide)
    | (with_reducible apply Keeps.step (k := keeps_setAddress _ _); case w => decide)
    | split

theorem keeps_execSetnewda (x1 : BitVec 7) (s : State) : KeepsOut [.flt, .host] s (execSetnewda x1 s) := by
  unfold execSetnewda
  try dsimp only
  repeat' first
    | with_reducible assumption
    | with_reducible apply Keeps.refl
    | with_reducible apply keepsOut_next
    | with_reducible intro _
    | (with_reducible apply keeps_ccc; case w => decide)
    | (with_reducible apply Keeps.step (k := keeps_setAddress _ _); case w => decide)
    | split

theorem keeps_execSetmwl (x1 : BitVec 16) (s : State) : KeepsOut [.host] s (execSetmwl x1 s) := by
  unfold execSetmwl
  try dsimp only
  repeat' first
    | with_reducible assumption
    | with_reducible apply Keeps.refl
    | with_reducible apply keepsOut_next
    | with_reducible intro _
    | (with_reducible apply keeps_ccc; case w => decide)
    | (with_reducible apply Keeps.step (k := keeps_modI3c _ _); case w => decide)

theorem keeps_execSetmrl (x1 : BitVec 16) (s : State) : KeepsOut [.host] s (execSetmrl x1 s) := by
  unfold execSetmrl
  try dsimp only
  repeat' first
    | with_reducible assumption
    | with_reducible apply Keeps.refl
    | with_reducible apply keepsOut_next
    | with_reducible intro _
    | (with_reducible apply keeps_ccc; case w => decide)
    | (with_reducible apply Keeps.step (k := keeps_modI3c _ _); case w => decide)

theorem keeps_execGetmwl (s : State) : KeepsOut [.out, .host] s (execGetmwl s) := by
  unfold execGetmwl
  try dsimp only
  repeat' first
    | with_reducible assumption
    | with_reducible apply Keeps.refl
    | with_reducible apply keepsOut_next
    | with_reducible intro _
    | (with_reducible apply keeps_cccGet; case w => decide)

theorem keeps_execGetmrl (s : State) : KeepsOut [.out, .host] s (execGetmrl s) := by
  unfold execGetmrl
  try dsimp only
  repeat' first
    | with_reducible assumption
    | with_reducible apply Keeps.refl
    | with_reducible apply keepsOut_next
    | with_reducible intro _
    | (with_reducible apply keeps_cccGet; case w => decide)

theorem keeps_execGetpid (s : State) : KeepsOut [.out, .host] s (execGetpid s) := by
  unfold execGetpid
  try dsimp only
  repeat' first
    | with_reducible assumption
    | with_reducible apply Keeps.refl
    | with_reducible apply keepsOut_next
    | with_reducible intro _
    | (with_reducible apply keeps_cccGet; case w => decide)

theorem keeps_execGetbcr (s : State) : KeepsOut [.out, .host] s (execGetbcr s) := by
  unfold execGetbcr
  try dsimp only
  repeat' first
    | with_reducible assumption
    | with_reducible apply Keeps.refl
    | with_reducible apply keepsOut_next
    | with_reducible intro _
    | (with_reducible apply keeps_cccGet; case w => decide)

theorem keeps_execGetdcr (s : State) : KeepsOut [.out, .host] s (execGetdcr s) := by
  unfold execGetdcr
  try dsimp only
  repeat' first
    | with_reducible assumption
    | with_reducible apply Keeps.refl
    | with_reducible apply keepsOut_next
    | with_reducible intro _
    | (with_reducible apply keeps_cccGet; case w => decide)

theorem keeps_execGetstatus (s : State) : KeepsOut [.free, .out, .host] s (execGetstatus s) := by
  unfold execGetstatus
  try dsimp only
  repeat' first
    | with_reducible assumption
    | with_reducible apply Keeps.refl
    | with_reducible apply keepsOut_next
    | with_reducible intro _
    | (with_reducible apply keeps_cccGet; case w => decide)
    | (with_reducible apply keeps_takeFree; case w => decide)

theorem keeps_execGetmxds (s : State) : KeepsOut [.free, .out, .host] s (execGetmxds s) := by
  unfold execGetmxds
  try dsimp only
  repeat' first
    | with_reducible assumption
    | with_reducible apply Keeps.refl
    | with_reducible apply keepsOut_next
    | with_reducible intro _
    | (with_reducible apply keeps_cccGet; case w => decide)
    | (with_reducible apply keeps_takeFree; case w => decide)

theorem keeps_execEnthdr0 (s : State) : KeepsOut [.host] s (execEnthdr0 s) := by
  unfold execEnthdr0
  try dsimp only
  repeat' first
    | with_reducible assumption
    | with_reducible apply Keeps.refl
    | with_reducible apply keepsOut_next
    | with_reducible intro _
    | (with_reducible apply keeps_ccc; case w => decide)
    | (with_reducible apply Keeps.step (k := keeps_modI3c _ _); case w => decide)

theorem keeps_execRstact (x1 : BitVec 8) (s : State) : KeepsOut [.tel, .host] s (execRstact x1 s) := by
  unfold execRstact
  try dsimp only
  repeat' first
    | with_reducible assumption
    | with_reducible apply Keeps.refl
    | with_reducible apply keepsOut_next
    | with_reducible intro _
    | (with_reducible apply keeps_ccc; case w => decide)
    | (with_reducible apply Keeps.step (k := keeps_resetFrames _); case w => decide)
    | split

theorem keeps_execHstLink (x1 : Fin 2) (x2 : Bool) (s : State) : KeepsOut [.flt, .tel, .host] s (execHstLink x1 x2 s) := by
  unfold execHstLink
  try dsimp only
  repeat' first
    | with_reducible assumption
    | with_reducible apply Keeps.refl
    | with_reducible apply keepsOut_next
    | with_reducible intro _
    | (with_reducible apply Keeps.step (k := keeps_count _ _ _ _); case w => decide)
    | (with_reducible apply keeps_detect; case w => decide)
    | (with_reducible apply Keeps.step (k := keeps_resetFrames _); case w => decide)
    | split

end Sys2Proof.Laws
end

