-- ==== Sys2Proof/Laws/KeepsTap.lean ====
section
/-!
SUPPORT. What the operations of Tap keep.
-/

set_option linter.all false

namespace Sys2Proof.Laws

open Sys2Proof Sys2Proof.Machine

theorem keeps_tapScan (x1 : TapInstr) (x2 : List Bool) (x3 : List Bool) (s : State) : Keeps [.out, .boot] s (tapScan x1 x2 x3 s) := by
  unfold tapScan
  try dsimp only
  repeat' first
    | with_reducible apply Keeps.refl
    | exact (rfl : _ = _)
    | (with_reducible apply keeps_emit; case w => decide)
    | (with_reducible apply keeps_modBoot; case w => decide)
    | split

theorem keeps_tapUpdate (s : State) : Keeps [.boot] s (tapUpdate s) := by
  unfold tapUpdate
  try dsimp only
  repeat' first
    | with_reducible apply Keeps.refl
    | exact (rfl : _ = _)
    | (with_reducible apply keeps_modBoot; case w => decide)
    | split

theorem keeps_tapDrive (x1 : TapInstr) (s : State) : Keeps [.out] s (tapDrive x1 s) := by
  unfold tapDrive
  try dsimp only
  repeat' first
    | with_reducible apply Keeps.refl
    | (with_reducible apply keeps_emit; case w => decide)
    | split

theorem keeps_execBypass (x1 : List Bool) (s : State) : KeepsOut [.out, .boot] s (execBypass x1 s) := by
  unfold execBypass
  try dsimp only
  repeat' first
    | with_reducible apply Keeps.refl
    | with_reducible apply keepsOut_next
    | (with_reducible apply Keeps.step (k := keeps_tapScan _ _ _ _); case w => decide)

theorem keeps_execIdcode (x1 : List Bool) (s : State) : KeepsOut [.out, .boot] s (execIdcode x1 s) := by
  unfold execIdcode
  try dsimp only
  repeat' first
    | with_reducible apply Keeps.refl
    | with_reducible apply keepsOut_next
    | (with_reducible apply Keeps.step (k := keeps_tapScan _ _ _ _); case w => decide)

theorem keeps_boundaryScan (x1 : TapInstr) (x2 : List Bool) (x3 : List Bool) (s : State) : Keeps [.out, .boot] s (boundaryScan x1 x2 x3 s) := by
  unfold boundaryScan
  try dsimp only
  repeat' first
    | with_reducible apply Keeps.refl
    | (with_reducible apply Keeps.step (k := keeps_tapUpdate _); case w => decide)
    | (with_reducible apply Keeps.step (k := keeps_tapScan _ _ _ _); case w => decide)
    | split

theorem keeps_execSamplePreload (x1 : List Bool) (x2 : List Bool) (s : State) : KeepsOut [.out, .boot] s (execSamplePreload x1 x2 s) := by
  unfold execSamplePreload
  try dsimp only
  repeat' first
    | with_reducible apply Keeps.refl
    | with_reducible apply keepsOut_next
    | (with_reducible apply Keeps.step (k := keeps_boundaryScan _ _ _ _); case w => decide)

theorem keeps_drivingScan (x1 : TapInstr) (x2 : List Bool) (x3 : List Bool) (s : State) : Keeps [.out, .boot] s (drivingScan x1 x2 x3 s) := by
  unfold drivingScan
  try dsimp only
  repeat' first
    | with_reducible apply Keeps.refl
    | (with_reducible apply Keeps.step (k := keeps_boundaryScan _ _ _ _); case w => decide)
    | (with_reducible apply Keeps.step (k := keeps_tapDrive _ _); case w => decide)
    | split

theorem keeps_execExtest (x1 : List Bool) (x2 : List Bool) (s : State) : KeepsOut [.out, .boot] s (execExtest x1 x2 s) := by
  unfold execExtest
  try dsimp only
  repeat' first
    | with_reducible apply Keeps.refl
    | with_reducible apply keepsOut_next
    | (with_reducible apply Keeps.step (k := keeps_drivingScan _ _ _ _); case w => decide)

theorem keeps_execExtestPulse (x1 : List Bool) (x2 : List Bool) (s : State) : KeepsOut [.out, .boot] s (execExtestPulse x1 x2 s) := by
  unfold execExtestPulse
  try dsimp only
  repeat' first
    | with_reducible apply Keeps.refl
    | with_reducible apply keepsOut_next
    | (with_reducible apply Keeps.step (k := keeps_drivingScan _ _ _ _); case w => decide)

theorem keeps_execExtestTrain (x1 : List Bool) (x2 : List Bool) (s : State) : KeepsOut [.out, .boot] s (execExtestTrain x1 x2 s) := by
  unfold execExtestTrain
  try dsimp only
  repeat' first
    | with_reducible apply Keeps.refl
    | with_reducible apply keepsOut_next
    | (with_reducible apply Keeps.step (k := keeps_drivingScan _ _ _ _); case w => decide)

theorem keeps_holdingScan (x1 : TapInstr) (x2 : List Bool) (s : State) : Keeps [.out, .boot] s (holdingScan x1 x2 s) := by
  unfold holdingScan
  try dsimp only
  repeat' first
    | with_reducible apply Keeps.refl
    | (with_reducible apply Keeps.step (k := keeps_tapScan _ _ _ _); case w => decide)
    | (with_reducible apply Keeps.step (k := keeps_tapDrive _ _); case w => decide)
    | split

theorem keeps_execHighz (x1 : List Bool) (s : State) : KeepsOut [.out, .boot] s (execHighz x1 s) := by
  unfold execHighz
  try dsimp only
  repeat' first
    | with_reducible apply Keeps.refl
    | with_reducible apply keepsOut_next
    | (with_reducible apply Keeps.step (k := keeps_holdingScan _ _ _); case w => decide)

theorem keeps_execClamp (x1 : List Bool) (s : State) : KeepsOut [.out, .boot] s (execClamp x1 s) := by
  unfold execClamp
  try dsimp only
  repeat' first
    | with_reducible apply Keeps.refl
    | with_reducible apply keepsOut_next
    | (with_reducible apply Keeps.step (k := keeps_holdingScan _ _ _); case w => decide)

theorem keeps_undefinePin (x : Nat) {s0 s : State} (h : Keeps [.free, .out, .flt, .boot] s0 s) :
    Keeps [.free, .out, .flt, .boot] s0 (undefinePin s x) := keeps_emit _ (keeps_takeFree h (by decide)) (by decide)

theorem keeps_execSupplyLeavesRange (x1 : Fin 8) (x2 : Int) (s : State) :
    KeepsOut [.free, .out, .flt, .boot] s (execSupplyLeavesRange x1 x2 s) := by
  unfold execSupplyLeavesRange
  repeat' split
  · exact keepsOut_fault _
  · exact keepsOut_next (keeps_foldl _ _ (keeps_modBoot _ (Keeps.refl _ _) rfl (by decide)) fun x _ h => keeps_undefinePin x h)
  · exact keepsOut_next (keeps_modFlt _ (Keeps.refl _ _) (fun _ => kilnOk_empty rfl) (by decide))
  · exact keepsOut_next (Keeps.refl _ _)

end Sys2Proof.Laws
end

