-- ==== Sys2Proof/WellFormed.lean ====
section
/-!
DEFINITION. Well-formed commands: operands that the widths of the spec's fields admit. No meaning needs it; exec is total.
-/

namespace Sys2Proof

/-- A descriptor that carries no more than the longest payload (R459). -/
def cmdOk (c : Cmd) : Bool := decide (c.payload.length ≤ 4096)

/-- Whether the operands of a command are such as the outside can send: lengths of descriptors, frames and scans, offsets in their alignment and
counts within what is counted (R82, R93, R103, R421, R431, R433, R452, R453, R459, R470, R472, R476, R567). -/
def Instr.wellFormed (i : Instr) : Bool :=
  match i with
  | .unknownOpcode c opcode => cmdOk c && decide (1 ≤ opcode.toNat)
  | .eyePointDone _ compared errors => decide (errors ≤ compared)
  | .fecCodewordDecoded _ errors => decide (errors ≤ 16)
  | .rxFrameHead _ b _ _ _ => decide (b.length ≤ 64)
  | .hostDelivery _ bufs _ => bufs.all fun p => decide (p.2 < 65536)
  | .hostInject _ ds _ _ => ds.all fun d => d.length == 32
  | .gaugeEpoch _ _ _ ppm => decide (ppm.length ≤ 64)
  | .glazeReady ppm => decide (ppm.length ≤ 4) && ppm.all fun q => decide (q.length ≤ 64)
  | .fltSelf asserted _ => asserted.all fun x => decide (x.1 ≤ 62)
  | .reg64LowHalfRead off _ => off % 8 == 0
  | .registerWrite off _ => off % 4 == 0
  | .pcieLinkUp speed width => decide (speed ∈ [2, 5, 8, 16, 32, 64]) && decide (width ∈ [1, 2, 4, 8])
  | .umlimelPayload session off data _ => decide (session < 256) && decide (off < 65536) && decide (data.length ≤ 64)
  | .umlimelCommand session desc _ => decide (session < 256) && decide (desc.length ≤ 64)
  | .umlimelFetch session off _ => decide (session < 256) && decide (off < 65536)
  | .umlimelFrameInvalid session _ => decide (session < 256)
  | .samplePreload pins _ => decide (pins.length ≤ 6262)
  | .extest pins _ => decide (pins.length ≤ 6262)
  | .extestPulse pins _ => decide (pins.length ≤ 6262)
  | .extestTrain pins _ => decide (pins.length ≤ 6262)
  | .timeDomainWrite c | .timeDomainRead c | .timeAdjust c | .timeGet c | .portTimeWrite c | .portTimeRead c | .twostepRead c
  | .timePinWrite c | .timePinRead c | .captureRead c | .firingEntryWrite c | .firingEntryRead c | .firingStatus c | .laneConfigWrite c
  | .laneConfigRead c | .laneStatus c | .laneTestWrite c | .laneTestRead c | .eyeScan c | .eyeScanAbort c | .eyeStatus c | .eyeResult c
  | .portConfigWrite c | .portConfigRead c | .portStatus c | .portFlowWrite c | .portFlowRead c | .portPreemptWrite c | .portPreemptRead c
  | .frameFilterWrite c | .frameFilterRead c | .parserMalformedWrite c | .parserMalformedRead c | .treeTableWrite c | .treeTableRead c
  | .classifierRuleWrite c | .classifierRuleRead c | .treeCommit c | .ruleAdd c | .ruleBatch c | .ruleBatchAbort c | .ruleBatchStatus c
  | .fdbEntryWrite c | .fdbEntryRead c | .fdbLearnWrite c | .fdbLearnRead c | .fdbNotifyWrite c | .fdbNotifyRead c | .fdbDelegateWrite c
  | .fdbDelegateRead c | .lpmRouteWrite c | .lpmRouteRead c | .hostEntry c | .hostLookupWrite c | .hostLookupRead c | .sigSetBegin c
  | .sigSetChunk c | .sigSetCommit c | .sigEngineWrite c | .sigEngineRead c | .sigProfileWrite c | .sigProfileRead c | .sigRuleWrite c
  | .sigRuleRead c | .sigStatus c | .bufferPoolWrite c | .bufferPoolRead c | .admitProfileWrite c | .admitProfileRead c
  | .portAdmitWrite c | .portAdmitRead c | .dramShareWrite c | .dramShareRead c | .bufScrubWrite c | .bufScrubRead c | .bufferStatus c
  | .queueBufferStatus c | .meshConfigWrite c | .meshConfigRead c | .mcastGroupWrite c | .mcastGroupRead c | .mirrorSessionWrite c
  | .mirrorSessionRead c | .queueAgeWrite c | .queueAgeRead c | .dropPolicyWrite c | .dropPolicyRead c | .policerWrite c | .policerRead c
  | .shaperProfileWrite c | .shaperProfileRead c | .portSchedWrite c | .portSchedRead c | .extQueueWrite c | .extQueueRead c
  | .gateListWrite c | .gateListRead c | .portSchedStatus c | .counterRead c | .telemetryProfileWrite c | .telemetryProfileRead c
  | .exporterWrite c | .exporterRead c | .observerGrantWrite c | .observerGrantRead c | .powerCapWrite c | .powerCapRead c
  | .powerStatus c | .ageingStatus c | .energyRead c | .faultPolicyWrite c | .faultPolicyRead c | .faultAction c | .faultStatus c
  | .faultSites c | .faultTestEnable c | .faultTestDisable c | .faultInject c | .kilnRead c | .kilnClear c | .sessionOpen c
  | .sessionClose c | .sessionSync c | .roleKey c | .dmaRingWrite c | .dmaRingRead c | .capRead c | .modeWrite c | .modeRead c
  | .imageBegin c | .imageChunk c | .imageVerify c | .imageApply c | .imageUnload c | .imageStatus c | .fwBegin c | .fwChunk c
  | .fwCommit c | .fwActivate c | .fwStatus c | .deviceReset c => cmdOk c
  | .clockSourceSwitch _ | .rateAllowanceRefill _ | .backgroundPeriodEnd _ _ | .backgroundSlotGrant _ _ _ | .timeAdvance _
  | .alignmentStrobe _ | .strobeMissing _ | .refclkWindow _ _ _ | .slewEnd _ | .pllLockReport _ | .profileSwitchDone
  | .profileSwitchTimeout | .pllRelockRetry | .pinEdgeCapture _ _ _ _ | .pinPulseEnd _ | .counterFreeze _ _ _ | .histogramRollover _ _ _
  | .gateCycle _ _ | .pinPulse _ _ | .powerCycle _ _ _ _ | .scrubEpoch _ _ _ | .telemetryEpoch _ _ _ | .timeStore _ _ _
  | .laneRefclkLost _ | .laneRefclkRelock _ | .laneRefclkHoldoverEnd _ | .laneRefclkRestored _ | .signalDetected _ | .autonegResolved _ _
  | .anTimeout _ | .trainingDone _ _ | .trainingTimeout _ _ | .lockAcquired _ | .lockTimeout _ _ | .linkUp _ | .alignTimeout _ _ _
  | .signalLost _ | .backoffExpired _ | .backoffReset _ | .trainingFrameMalformed _ _ _ | .anPageViolation _ | .linkDown _ _ _
  | .reacquireDone _ | .reacquireTimeout _ _ | .syncHeaderReceived _ _ | .alignmentMarkerReceived _ _ | .degradeWindowEnd _
  | .farEndLoopbackBlock _ _ _ _ | .patternBitsChecked _ _ _ _ | .errorInjectionEvent _ | .d2dDoubleBitError _ _ | .d2dRetrainDone _
  | .lanePll _ | .laneAdapt _ | .laneStore _ | .rxFragment _ _ _ _ _ _ _ | .rxOversize _ _ | .rxPcsErrorMark _ | .rxFrameEnd _ _
  | .macControlFrame _ _ | .occupancyReport _ _ | .pauseRefresh _ | .pauseTimerExpiry _ _ | .pauseStorm _ _ | .stormRecovered _ _
  | .preemptVerifyTimer _ | .preemptVerify _ | .macFifo _ _ | .macStore _ | .pcsCheck _ | .macFlow _ | .flowResync _ | .parseStart _ _
  | .parseResume _ _ | .prsStore _ _ | .prsVector _ _ | .prsHang _ _ | .prsCheck _ _ | .parserReload _ | .stageLookup _ | .routineIssue _
  | .microwordExecute _ _ _ _ | .memoryResultReturn _ _ _ _ | .lockGranted _ _ _ | .waitResume _ _ _ _ | .routineCommit _ _ _ _
  | .sequencerRelease _ | .frameDecision _ | .treeNodeReadReturn _ _ _ | .treeWalkTimeout _ | .treeSwap _ _ _ _ | .treeNodesFreed _ _
  | .quiesceStart _ | .quiesceWrite _ _ | .retiredBufferRelease _ | .imagePipelineApply _ | .matExact _ _ _ _ _ | .matTernary _ _ _ _ _
  | .matResult _ _ _ _ _ | .matDesc _ _ _ | .matPath _ _ | .matTree _ _ | .stageReload _ _ | .actMicro _ _ _ _ | .actNano _ _ _ _
  | .actContext _ _ _ | .actHang _ _ _ | .storeReload _ _ _ _ | .stateRowReset _ _ _ _ | .learnRequestProcess _ | .fdbArbiterGrant _
  | .notifyProducerWriteback _ | .fdbNtfConsWrite _ _ | .fdbCmdReadKey _ _ | .fdbCmdReadIndex _ _ | .fdbCmdInsert _ _ | .fdbCmdWrite _ _
  | .fdbCmdDelete _ _ | .fdbCmdDeleteIfIdle _ _ | .fdbCmdAge _ _ | .fdbCmdIterate _ _ | .fdbCmdInvalidOp _ _ _ | .fdbWindowRegWrite _ _ _
  | .fdbRejectsRead _ | .lpmBucketFree _ | .hostBucketReadReturn _ _ | .fdbLearnFault _ | .fdbCmdFault _ | .hostRead _ _ | .fwdAudit _ _
  | .sigDispatch _ | .sigScanDone _ | .inspectionReturn _ | .sigStore _ _ _ _ | .sigPath _ _ | .sigReload _ | .transferAdmission _ _
  | .spillWrite _ | .spillWriteDone _ _ | .returnRead _ _ | .returnReadDone _ _ _ | .returnStallResume _ _ | .dramShareWindow _
  | .scrubPassDone _ _ | .bufData _ _ | .bufLink _ _ | .bufDesc _ _ _ | .bufCount _ _ | .poolRebuild _ | .dramData _ _ | .dramLink _
  | .dramRetrain _ | .dramRequestTimeout _ _ | .spillOrder _ _ | .meshFlitReceived _ _ _ | .relayTransfer _ | .meshCreditAudit _ _
  | .meshRetrain _ | .meshLink _ | .meshTrainRetry _ _ | .meshMgmt _ | .mcastOldListFree _ | .cutThroughUnderrun _ _ | .holdExpiry _
  | .swcRepl _ | .swcMirror _ _ | .swcPath _ _ _ | .swcFlush _ | .switchReload _ _ _ | .refillInstant _ | .schedulerSelect _ _ _ _
  | .txFrameEnd _ _ | .gateEntryStart _ | .schState _ | .polState _ _ | .freezeSweepDone _ | .freezePublish | .rolloverPublish
  | .telCounter _ _ _ | .telExport _ _ | .bubbleFrameStart _ | .laneEqStep _ | .laneStepCheck _ _ | .energyCalibration _ _ _ _
  | .tempSample _ | .thermalTrip _ _ | .avsResponse _ _ _ _ | .avsTimeout _ _ | .marginEpoch _ _ _ _ | .heatWorkAccumulate | .laneReplan
  | .dataAreaSave | .faultRaise | .graceExpiry _ _ _ | .quietExpiry _ _ _ | .fltLatchWrite _ _ | .fltAlertEnWrite _ _ | .fltTestKeyWrite _
  | .testKeyTimeout | .klnCursorWrite _ | .klnWindowLatched | .ccMemory _ _ _ | .ccWatchdog _ _ _ | .fwCheck _ _ | .invalidBarAccess _ _
  | .rcCounterRead _ | .pcieInterfaceLost _ | .hstMbxCtrlWrite _ _ | .hstMbxDb _ _ | .hstMbxCplHeadWrite _ _ | .commandCompletion _
  | .hstRxTailWrite _ _ | .hstTxTailWrite _ _ | .irqCoalesceExpiry _ _ | .sessionCloseDone _ | .limitedExit _ | .limitedCommandTake _
  | .credentialLockoutEnd _ | .umlimelRead _ | .ibiRetry _ | .enec _ | .disec _ | .rstdaa | .entdaa _ | .setdasa _ | .setnewda _
  | .setmwl _ | .setmrl _ | .getmwl | .getmrl | .getpid | .getbcr | .getdcr | .getstatus | .getmxds | .enthdr0 | .rstact _ | .hstLink _ _
  | .fwWritten _ | .softwareReset | .powerOn _ | .resetNAssert _ _ | .resetNDeassert _ | .q0PllLock _ | .glazeInit _ _ | .glazeRetry _ _ _
  | .warmRestartStart | .warmRestartDone _ _ _ | .bypass _ | .idcode _ | .highz _ | .clamp _ | .signalBreak _ | .cdrLockLost _
  | .profileRelockTimeout | .macReload _ | .lanePllRelock _ | .laneStoreReload _ | .rowRewrite _ _ _ | .policerReload _ _ | .schedReload _
  | .timeStoreReload _ _ | .telExportReload _ | .testKeyLockoutEnd | .supplyLeavesRange _ _ => true

end Sys2Proof
end

