-- ==== Sys2Proof/Tests/Slice0.lean ====
section
/-!
SUPPORT. Tests of single commands: ill-formed commands are refused by the well-formedness check, and every hypothesis a statement of
Certificates/Slice0 makes is met by a concrete state, with what the command then does.
-/

namespace Sys2Proof.Tests

set_option Elab.async false
set_option maxRecDepth 100000

open Sys2Proof Sys2Proof.Machine

/-- A device that has started up, with an ADMIN session in slot 0 that has one command waiting, an OBSERVER in slot 1, port 0 configured
and active, a set, a tree and an eye scan. -/
def ready : State :=
  { State.reset with
    boot := { stage := .ready, resetLow := false, romRan := true, capsReady := true }
    host := { linkUp := true, slots := [(0, { ctrl := 0xAA01, state := .opened, role := 1, cmdProd := 1 }), (1, { state := .opened, role := 3 })] }
    mac := { ports := [(0, { config := some (image 16 [(2, 1, 1), (4, 1, 1), (6, 2, 1518)]) })] }
    lane := { links := [(0, { phase := .active })], lanes := [(0, { signal := true }),
      (1, { scan := { status := .running, points := [(1, 0)] } })] }
    sig := { sets := [(0, { ruleCount := 1 })] }
    flt := { testMode := true }
    mat := { trees := [(0, { obj := image 16 [(2, 1, 1), (4, 4, 64)] })] } }

/-- A command of slot 0 with this payload. -/
def mk (p : Bytes) : Cmd :=
  { slot := 0, payloadLen := BitVec.ofNat 16 p.length, replyMax := 4096, payload := p, flags := if p.length > 40 then 1 else 0 }

/-- Whether `i` answers a next state that satisfies `p`. -/
def after (i : Instr) (s : State) (p : State → Bool) : Bool :=
  match exec i s with
  | .next t => p t
  | _ => false

/-- Whether a step from `s` answers a next state that satisfies `p`. -/
def stepped (s : State) (p : State → Bool) : Bool :=
  match Machine.step s with
  | .next t => p t
  | _ => false

/-- Whether `i` stops with a fault. -/
def stops (i : Instr) (s : State) : Bool :=
  match exec i s with
  | .fault _ => true
  | _ => false

/-- All of these hold. -/
def allOf (l : List Bool) : Bool := l.all id

/-- Whether the command passes every check on `s` and has then ended with status `st`. -/
def endsWith (i : Instr) (s : State) (st : Status) : Bool :=
  match commandDef i s with
  | some (d, c) => passes d c s && after i s fun t => t.host.ended.map Ended.status == [st] && t.host.running.isEmpty
  | none => false

/-- Whether the command passes every check on `s` and is then in progress. -/
def startsOn (i : Instr) (s : State) : Bool :=
  match commandDef i s with
  | some (d, c) => passes d c s && after i s fun t => t.host.ended.isEmpty && t.host.running.length == 1
  | none => false

/-- The port's link phase, and other small reads that tests repeat. -/
def phaseOf (s : State) (p : Nat) : LinkPhase := (linkOf s p).phase

/-- Whether the newest raise on its way is for this bit and site. -/
def raisedFor (b k i : Nat) (t : State) : Bool :=
  (t.flt.inFlight.getLast?.map fun r => (r.bit, r.kind, r.index)) == some (b, k, i)

/-- Whether the newest kiln record is of this event. -/
def loggedAs (code : Nat) (t : State) : Bool := t.flt.kiln.head?.map KilnRec.code == some code


/-! ### Every command of Icoux passes the checks of R489 on `ready`; a witness of `passes` for each -/

/-- A PORT_SCHED payload: a hierarchy of four bits and every weight one. -/
def schedPayload : Bytes := image 128 ((5, 1, 4) :: (List.range 20).map fun i => (28 + i, 1, 1))

theorem test_icoux_answers_ok_1 :
    ([
    .timeDomainRead (mk (image 16 [])), .timeGet (mk (image 8 [])), .portTimeWrite (mk (image 16 [])), .portTimeRead (mk (image 16 [])),
    .twostepRead (mk (image 8 [(2, 1, 1)])), .timePinWrite (mk (image 8 [])), .timePinRead (mk (image 8 [])),
    .captureRead (mk (image 8 [(2, 1, 1)])), .firingEntryRead (mk (image 40 [])), .firingStatus (mk (image 8 [])),
    .laneConfigWrite (mk (image 32 [(0, 1, 16), (6, 1, 1), (8, 1, 1), (19, 1, 64)])), .laneConfigRead (mk (image 32 [])),
    .laneStatus (mk (image 32 [])), .laneTestWrite (mk (image 32 [])), .laneTestRead (mk (image 32 [])),
    .eyeScan (mk (image 16 [(4, 1, 1), (5, 1, 1), (6, 1, 1), (7, 1, 1), (8, 1, 20)])), .eyeScanAbort (mk (image 8 [(0, 1, 1)])),
    .eyeStatus (mk (image 24 [])), .eyeResult (mk (image 8 [(0, 1, 1)])), .portConfigRead (mk (image 16 [])), .portStatus (mk (image 16 [])),
    .portFlowWrite (mk (image 80 [])), .portFlowRead (mk (image 80 [])), .portPreemptWrite (mk (image 8 [(5, 1, 1)]))] : List Instr).all (fun i => endsWith i ready .ok) = true := by
  decide +kernel

theorem test_icoux_answers_ok_2 :
    ([
    .portPreemptRead (mk (image 8 [])), .frameFilterWrite (mk (image 96 [(8, 1, 1)])), .frameFilterRead (mk (image 96 [(8, 1, 1)])),
    .parserMalformedWrite (mk (image 24 [(0, 1, 1), (8, 1, 1), (9, 1, 1), (10, 1, 1), (11, 1, 1), (12, 1, 1), (13, 1, 1)])),
    .parserMalformedRead (mk (image 24 [(0, 1, 1)])), .treeTableWrite (mk (image 80 [(4, 1, 64)])), .treeTableRead (mk (image 80 [])),
    .classifierRuleWrite (mk (image 136 [])), .classifierRuleRead (mk (image 136 [])), .ruleAdd (mk (image 80 [(0, 1, 1)])),
    .ruleBatchAbort (mk []), .ruleBatchStatus (mk (image 24 [])), .fdbLearnWrite (mk (image 16 [(0, 1, 1)])),
    .fdbLearnRead (mk (image 16 [(0, 1, 1)])), .fdbNotifyWrite (mk (image 32 [])), .fdbNotifyRead (mk (image 32 [])),
    .fdbDelegateWrite (mk (image 16 [(0, 1, 1)])), .fdbDelegateRead (mk (image 16 [(0, 1, 1)])),
    .lpmRouteWrite (mk (image 40 [(0, 1, 1), (8, 1, 1)])), .hostEntry (mk (image 32 [(1, 1, 1)])), .hostLookupRead (mk (image 32 [(0, 1, 1)])),
    .sigSetBegin (mk (image 16 [(0, 1, 32)])), .sigEngineRead (mk (image 8 [])), .sigProfileWrite (mk (image 8 [(1, 1, 1)]))] : List Instr).all (fun i => endsWith i ready .ok) = true := by
  decide +kernel

theorem test_icoux_answers_ok_3 :
    ([
    .sigProfileRead (mk (image 8 [(1, 1, 1)])), .sigRuleWrite (mk (image 8 [(0, 1, 1)])), .sigRuleRead (mk (image 8 [(0, 1, 1)])),
    .sigStatus (mk (image 24 [])), .bufferPoolWrite (mk (image 16 [])), .bufferPoolRead (mk (image 16 [])),
    .admitProfileWrite (mk (image 32 [(0, 1, 1), (12, 1, 1), (24, 1, 16)])), .admitProfileRead (mk (image 32 [(0, 1, 1)])),
    .portAdmitWrite (mk (image 64 [])), .portAdmitRead (mk (image 64 [])), .dramShareWrite (mk (image 8 [(0, 1, 1), (1, 1, 10)])),
    .dramShareRead (mk (image 8 [(0, 1, 1)])), .bufScrubWrite (mk (image 24 [])), .bufScrubRead (mk (image 24 [])),
    .bufferStatus (mk (image 56 [])), .queueBufferStatus (mk (image 24 [])), .meshConfigWrite (mk (image 8 [(0, 1, 1), (2, 1, 10)])),
    .meshConfigRead (mk (image 8 [(0, 1, 1)])), .mcastGroupRead (mk (image 16 [(0, 1, 1)])), .mirrorSessionWrite (mk (image 96 [])),
    .mirrorSessionRead (mk (image 96 [])), .queueAgeWrite (mk (image 88 [])), .queueAgeRead (mk (image 88 [])),
    .dropPolicyWrite (mk (image 48 [(0, 1, 1)]))] : List Instr).all (fun i => endsWith i ready .ok) = true := by
  decide +kernel

theorem test_icoux_answers_ok_4 :
    ([
    .dropPolicyRead (mk (image 48 [(0, 1, 1)])), .policerWrite (mk (image 32 [])), .policerRead (mk (image 32 [])),
    .shaperProfileWrite (mk (image 16 [(0, 1, 1), (8, 1, 1)])), .shaperProfileRead (mk (image 16 [(0, 1, 1)])),
    .portSchedWrite (mk (schedPayload)), .portSchedRead (mk (image 128 [])), .extQueueWrite (mk (image 16 [])),
    .extQueueRead (mk (image 16 [])), .gateListWrite (mk (image 24 [])), .gateListRead (mk (image 24 [])), .portSchedStatus (mk (image 32 [])),
    .counterRead (mk (image 16 [(0, 1, 1), (10, 1, 1)])), .telemetryProfileWrite (mk (image 40 [(0, 1, 1), (1, 1, 1), (8, 1, 16), (9, 1, 1)])),
    .telemetryProfileRead (mk (image 40 [(0, 1, 1), (1, 1, 1)])), .exporterWrite (mk (image 32 [(11, 1, 2), (12, 1, 100)])),
    .exporterRead (mk (image 32 [])), .observerGrantWrite (mk (image 136 [(0, 1, 1)])), .observerGrantRead (mk (image 136 [(0, 1, 1)])),
    .powerCapWrite (mk (image 32 [(4, 1, 6), (7, 1, 1), (8, 1, 100), (14, 1, 5), (16, 1, 80), (17, 1, 40)])), .powerCapRead (mk (image 32 [])),
    .powerStatus (mk (image 72 [])), .ageingStatus (mk (image 48 [])), .energyRead (mk (image 16 [(1, 1, 2), (8, 1, 1)]))] : List Instr).all (fun i => endsWith i ready .ok) = true := by
  decide +kernel

theorem test_icoux_answers_ok_5 :
    ([
    .faultPolicyWrite (mk (image 16 [(0, 1, 1), (8, 1, 1), (10, 1, 1), (14, 1, 10)])), .faultPolicyRead (mk (image 16 [(0, 1, 1)])),
    .faultAction (mk (image 16 [(1, 1, 1)])), .faultStatus (mk (image 8 [])), .faultSites (mk (image 8 [])), .faultTestEnable (mk []),
    .faultTestDisable (mk []), .faultInject (mk (image 16 [(1, 1, 3), (3, 1, 1)])), .kilnRead (mk (image 8 [(2, 1, 1)])),
    .kilnClear (mk (image 8 [])), .sessionClose (mk []), .sessionSync (mk []), .roleKey (mk (image 20 [(0, 1, 1)])),
    .dmaRingWrite (mk (image 32 [])), .dmaRingRead (mk (image 32 [])), .capRead (mk []), .modeRead (mk []),
    .imageBegin (mk (image 16 [(0, 1, 64)])), .imageStatus (mk []), .fwBegin (mk (image 16 [(1, 1, 16)])), .fwStatus (mk []),
    .deviceReset (mk []),
    .hostLookupWrite (mk (image 32 [(0, 1, 1), (10, 1, 10), (14, 1, 240), (16, 1, 241), (18, 1, 242), (20, 1, 243), (22, 1, 244), (24, 1, 245)]))] : List Instr).all (fun i => endsWith i ready .ok) = true := by
  decide +kernel

theorem test_icoux_accepts :
    ([
    .timeAdjust (mk (image 32 [(1, 1, 1)])), .firingEntryWrite (mk (image 40 [])), .fdbEntryWrite (mk (image 32 [(0, 1, 1), (8, 1, 1)])),
    .sigEngineWrite (mk (image 8 [])), .mcastGroupWrite (mk (image 16 [(0, 1, 1)]))] : List Instr).all (fun i => startsOn i ready) = true := by
  decide +kernel

theorem test_icoux_answers_state :
    ([
    .timeDomainWrite (mk (image 16 [])), .portConfigWrite (mk (image 16 [])), .ruleBatch (mk (image 16 [(0, 1, 1), (12, 1, 1)])),
    .fdbEntryRead (mk (image 32 [(0, 1, 1)])), .lpmRouteRead (mk (image 40 [(0, 1, 1)])), .sigSetChunk (mk (image 9 [])),
    .sigSetCommit (mk (image 8 [(0, 1, 1)])), .sessionOpen (mk (image 20 [(0, 1, 1)])), .modeWrite (mk (image 8 [(0, 1, 1)])),
    .imageChunk (mk (image 9 [])), .imageVerify (mk []), .imageApply (mk (image 16 [(0, 1, 1)])), .imageUnload (mk (image 8 [(0, 1, 1)])),
    .fwChunk (mk (image 9 [])), .fwCommit (mk []), .fwActivate (mk (image 8 []))] : List Instr).all (fun i => endsWith i ready .state) = true := by
  decide +kernel

theorem test_icoux_answers_pending :
    ([
    .treeCommit (mk (image 8 []))] : List Instr).all (fun i => endsWith i ready .pending) = true := by
  decide +kernel

/-! ### Witnesses for the statements: the machine -/

/-- A step takes the front command, and idles on an empty queue. -/
theorem witness_StepRunsTheFrontCommand : allOf (
    [stepped { ready with pending := [.registerWrite 0x10 7, .enthdr0] } fun t =>
       t.pending.length = 1 && t.host.scratch = 7 && after (.registerWrite 0x10 7) { ready with pending := [.enthdr0] } (· = t),
     stepped ready (· = ready)]) = true := by decide +kernel

/-- A rail at either end of its ratings is answered, and one beyond them is the one fault. -/
theorem witness_EveryCommandCompletes : allOf (
    [after (.supplyLeavesRange 0 (-300)) ready fun t => !t.boot.powered,
     after (.supplyLeavesRange 5 650) ready (· = ready),
     stops (.supplyLeavesRange 5 651) ready,
     stops (.supplyLeavesRange 0 (-301)) ready]) = true := by decide +kernel

/-- `registerWrite` names only `host`, and `timeAdvance` does not name it. -/
theorem witness_CommandsTouchOnlyTheirParts : allOf (
    [!(touches (.registerWrite 0x10 7)).contains .flt, after (.registerWrite 0x10 7) ready fun t => t.flt = ready.flt,
     !(touches (.timeAdvance 0)).contains .host, after (.timeAdvance 0) ready fun t => t.host = ready.host && t.now = 20]) = true := by decide +kernel

theorem witness_NothingIsTakenBack : allOf (
    [after (.registerWrite 0x10 7) ready fun t => t.pending = ready.pending && t.now = ready.now]) = true := by decide +kernel

/-- The kiln log is in bounds at reset and after a step that logs. -/
theorem witness_EveryStepKeepsTheKilnLogsBound : allOf (
    [ready.flt.kiln.length = 0, stepped { ready with pending := [.clockSourceSwitch 0] } fun t => loggedAs 0x0B01 t && t.flt.kiln.length == 1]) = true := by decide +kernel

/-- `ready` with slot 0 changed. -/
def withSlot (f : Slot → Slot) : State := { ready with host := { ready.host with slots := [(0, f (slotOf ready 0))] } }

/-- A TIME_GET with this much changed. -/
def timeGetWith (f : Cmd → Cmd) : Instr := .timeGet (f (mk (image 8 [])))

/-- Each outcome of R489's order: not taken, BADARG and INTEGRITY of the transport, a slot without a session, a role, the stage, and a field. -/
theorem witness_CommandsAreCheckedInOrder : allOf (
    let endedAs := fun (st : Status) (data : Bytes) (tr : Bool) (t : State) =>
      t.host.ended.map (fun e => (e.status, e.data, e.transport)) == [(st, data, tr)]
    let idle := withSlot fun v => { v with cmdProd := 0 }
    let late := { ready with boot := { ready.boot with stage := .glazeInit } }
    [canTake 0x0B04 false 0 idle = false, after (timeGetWith id) idle (· = idle),
     canTake 0x0B04 false 0 ready = true,
     after (timeGetWith fun c => { c with reservedZero := false }) ready fun t => endedAs .badarg [] true t && (slotOf t 0).faults == 1,
     after (timeGetWith fun c => { c with readOk := false }) ready fun t => endedAs .integrity [] true t && (slotOf t 0).faults == 1,
     after (timeGetWith id) (withSlot fun v => { v with state := .pending }) fun t => endedAs .state [] true t,
     roleOk (withSlot fun v => { v with role := 3 }) 0 .op = false,
     after (.timeAdjust (mk (image 32 [(1, 1, 1)]))) (withSlot fun v => { v with role := 3 }) fun t => endedAs .denied (toLe 2 0xFFFF) false t,
     after (timeGetWith id) late fun t => endedAs .state (toLe 2 0xFFFF) false t,
     after (timeGetWith fun c => { c with payload := image 8 [(0, 1, 4)] }) ready fun t => endedAs .range (toLe 2 0) false t]) = true := by decide +kernel

/-! ### Time -/

/-- `ready` with a command of slot 0 in progress, number 0. -/
def busy : State :=
  { ready with host := { ready.host with nextId := 1, running := [{ id := 0, slot := 0, tag := 5, opcode := 0x0B01, write := true, replyMax := 0, replyAddr := 0 }] } }

/-- `s` with its time state changed. -/
def timed (f : TimeState → TimeState) (s : State) : State := { s with time := f s.time }

theorem witness_TimeObjectsReadAndWrite : allOf (
    let dom := image 16 [(0, 1, 1), (1, 1, 1), (8, 4, 256)]
    let c0 := mk dom
    let pt := image 16 [(2, 1, 3)]
    let pin := image 8 [(0, 1, 3), (1, 1, 13), (2, 1, 2)]
    [timeDomainState ready dom = false, startsOn (.timeDomainWrite c0) ready,
     after (.timeDomainWrite c0) ready fun t => t.time.tagged = [.domain dom 0],
     slewTooFast (image 32 [(1, 1, 3), (16, 8, 65536), (24, 4, 1)]) = false, slewTooFast (image 32 [(1, 1, 3), (16, 8, 65537), (24, 4, 1)]) = true,
     after (.timeAdjust (mk (image 32 [(1, 1, 1), (4, 4, 999999999)]))) ready fun t => t.time.tagged.length = 1,
     startsOn (.firingEntryWrite (mk (image 40 [(8, 2, 447)]))) ready,
     startsOn (.firingEntryWrite (mk (image 40 [(11, 1, 1), (10, 1, 2), (28, 6, 1000000), (24, 4, 1)]))) ready,
     endsWith (.portTimeWrite (mk pt)) ready .ok, after (.portTimeWrite (mk pt)) ready fun t => portTimeObj t 0 = pt,
     endsWith (.timePinWrite (mk pin)) ready .ok, after (.timePinWrite (mk pin)) ready fun t => (pinOf t 3).flags = 13 && (pinOf t 3).domain = 2,
     endsWith (.timeGet (mk (image 8 [(0, 1, 3)]))) ready .ok]) = true := by decide +kernel

theorem witness_ClocksTickAndStrobesApply : allOf (
    let due := fun (l : List Tagged) => timed (fun t => { t with strobeTicks := 1024, tagged := l }) busy
    let dom := image 16 [(0, 1, 3), (1, 1, 3), (8, 4, 256)]
    [clocked ready, tickHolds ready 0 = false,
     after (.timeAdvance 0) ready fun t => t.now = 20 && t.time.strobeTicks = 1 && (copyOf t 0 3).frac != 0 && copyOf t 1 0 = copyOf ready 1 0,
     after (.timeAdvance 3) ready fun t => t.now = 0 && t.time.strobeTicks = 0 && (copyOf t 3 0).frac != 0,
     after (.alignmentStrobe 5) (due []) fun t => t.time.strobeTicks = 0 && tabGet 0 t.time.missed 1 = 0 && tabGet 0 t.time.missed 2 = 1 &&
       tabGet 0 t.time.missed 3 = 0,
     after (.alignmentStrobe 7) (timed (fun t => { t with switch := { phase := .staged } }) (due [])) fun t => t.time.switch.phase = .relocking,
     after (.alignmentStrobe 7) (timed (fun t => { t with switch := { phase := .locked, newEased := true } }) (due [])) fun t =>
       t.time.switch.phase = .converging && t.time.eased,
     after (.rateAllowanceRefill 0) { ready with limits := [(5, { pps := 5, quad := 0, allowance := 998 }), (6, { pps := 5, quad := 1, allowance := 0 })] }
       fun t => (tabFind t.limits 5).map Limiter.allowance = some 1000 && (tabFind t.limits 6).map Limiter.allowance = some 0,
     after (.alignmentStrobe 7) (due [.domain dom 0]) fun t => (domainOf t 3).datapath && !(domainOf t 0).datapath && (domainOf t 3).rateAdj = 256 &&
       t.host.ended.map (fun e => (e.slot, e.tag, e.status)) = [(0, 5, .ok)] && t.host.running.isEmpty,
     after (.alignmentStrobe 7) (due [.adjust (image 32 [(0, 1, 2), (1, 1, 1), (4, 4, 9), (8, 8, 8)]) 0]) fun t =>
       (List.range 4).all fun q => copyOf t q 2 = { sec := 8, ns := 9, frac := 0 },
     after (.alignmentStrobe 7) (due [.adjust (image 32 [(0, 1, 2), (1, 1, 3), (16, 8, 65536), (24, 4, 1)]) 0]) fun t =>
       (domainOf t 2).slew = some { offset := 65536, durationUs := 1, began := 0 },
     after (.alignmentStrobe 7) (due [.adjust (image 32 [(0, 1, 2), (1, 1, 4), (28, 4, 77)]) 0]) fun t => (domainOf t 2).rateAdj = 77,
     after (.alignmentStrobe 7) (due [.entry 3 (image 32 [(0, 2, 511), (3, 1, 1), (20, 6, 1000)]) 0]) fun t =>
       (entryOf t 3 511).enabled && (entryOf t 3 511).fires = 0 && (entryOf t 3 511).lag = 0]) = true := by decide +kernel

theorem witness_ClockChangesAreContained : allOf (
    let ref := fun (h : Bool) => timed (fun t => { t with domains := [(1, { source := 1, holdover := h, lastGood := 5 })] }) ready
    let sw := fun (p : SwitchPhase) (l : List Nat) => timed (fun t => { t with switch := { phase := p, run := some 0, locked := l, timedOut := 7, lastTry := 9 } }) busy
    [after (.clockSourceSwitch 3) ready fun t => tabGet false t.time.altClock 3 && t.flt.inFlight.map Raise.index = [0, 1, 2, 3] && loggedAs 0x0B01 t,
     after (.strobeMissing 3) (timed (fun t => { t with missed := [(3, 4)] }) ready) fun t => tabGet false t.time.needHard 3 && raisedFor 49 7 3 t,
     after (.refclkWindow 1 true (-51200000)) (ref true) fun t => !(domainOf t 1).holdover && (domainOf t 1).lastGood = -51200000 && loggedAs 0x0B03 t,
     after (.refclkWindow 1 true 51200001) (ref false) fun t => (domainOf t 1).holdover && (domainOf t 1).lastGood = 5 && raisedFor 48 15 1 t && loggedAs 0x0B02 t,
     after .profileRelockTimeout (sw .restoring []) fun t => t.time.switch.phase = .stuck && t.now = 7 + 100 * tUs && t.flt.inFlight.length = 4,
     after .pllRelockRetry (sw .stuck [1]) fun t => t.time.switch.locked = [] && t.now = 9 + 10 * tMs,
     after (.slewEnd 2) (timed (fun t => { t with domains := [(2, { slew := some { offset := 3, durationUs := 2, began := 1 } })] }) ready) fun t =>
       (domainOf t 2).slew = none && t.now = 1 + 2 * tUs,
     after (.pllLockReport 3) (sw .relocking [0, 1, 2]) fun t => t.time.switch.phase = .locked,
     after (.pllLockReport 3) (sw .relocking [0, 1]) fun t => t.time.switch.phase = .relocking && t.time.switch.locked.contains 3,
     after .profileSwitchDone (sw .converging []) fun t => t.time.switch = {} && loggedAs 0x0201 t && t.host.ended.map Ended.status = [.ok],
     after .profileSwitchTimeout (sw .staged []) fun t => t.time.switch.phase = .restoring && t.host.ended.map Ended.status = [.timeout] && t.now = 100 * tUs]) = true := by decide +kernel

theorem witness_TimePinsFifosAndStores : allOf (
    let pin := fun (p : TimePin) => timed (fun t => { t with pins := [(3, p)] }) ready
    let rec24 := List.replicate 24 (7 : Byte)
    let fe : FiringEntry := { obj := image 32 [(2, 1, 4), (20, 6, 1000)], enabled := true, faulted := true, fires := 4 }
    [after (.pinEdgeCapture 3 true false 65536) (pin { flags := 13, captures := List.replicate 15 rec24, edges := 65535 }) fun t =>
       (pinOf t 3).edges = 0 && (pinOf t 3).captures.length = 16 && (pinOf t 3).captures.all fun x => x.length = 24,
     after (.pinEdgeCapture 3 true false (-65536)) (pin { flags := 13, captures := List.replicate 16 rec24 }) fun t =>
       (pinOf t 3).overflow = 1 && (pinOf t 3).captures.length = 16,
     after (.pinPulseEnd 3) (pin { flags := 3, active := true, pulseEnd := 8 }) fun t => !(pinOf t 3).active && t.out = [.pin 3 true] && t.now = 8,
     after (.twostepRead (mk (image 8 [(0, 1, 3), (2, 2, 2)]))) (timed (fun t => { t with twoStep := [(3, { records := [[1], [2], [3]] })] }) ready) fun t =>
       (tabGet {} t.time.twoStep 3).records = [[3]] && t.host.ended.map (fun e => (e.data, e.reply)) = [([2, 0, 1, 0], [1, 2])],
     after (.captureRead (mk (image 8 [(0, 1, 3), (2, 2, 16)]))) (pin { captures := [[1], [2]] }) fun t =>
       (pinOf t 3).captures = [] && t.host.ended.map (fun e => (e.data, e.reply)) = [([2, 0, 0, 0], [1, 2])],
     after (.timeStore 3 0 511) ready fun t => (entryOf t 3 511).faulted && raisedFor 50 15 3 t,
     after (.timeStore 3 4 511) ready fun t => t.time.corrected = 1 && t.flt = ready.flt,
     after (.timeStore 3 2 0) (timed (fun t => { t with copies := [(3, { ns := 4 })] }) ready) fun t => copyOf t 2 3 = { ns := 4 },
     after (.timeStoreReload 3 511) (timed (fun t => { t with entries := [(3 * 512 + 511, fe)] }) ready) fun t =>
       (entryOf ({ ready with time := { ready.time with entries := [(3 * 512 + 511, fe)] } }) 3 511).faulted && !(entryOf t 3 511).faulted &&
         (entryOf t 3 511).enabled && (entryOf t 3 511).fires = 4]) = true := by decide +kernel

/-- `s` with one entry of domain 3 due on every die now: its action, target and argument. -/
def firing (action target argument : Nat) (s : State) : State :=
  let fe : FiringEntry :=
    { obj := image 32 [(0, 2, 9), (2, 1, action), (3, 1, 1), (4, 4, target), (28, 4, argument)], enabled := true, instants := List.replicate 4 (some 0) }
  timed (fun t => { t with entries := [(1545, fe)] }) s

theorem test_pin_pulse_fires : allOf (
    [after (.pinPulse 3 9) (firing 4 4 25 (timed (fun t => { t with pins := [(4, { flags := 1 })] }) ready)) fun t => (pinOf t 4).active &&
       (pinOf t 4).pulseEnd = 25 * 35 && t.out = [.pin 4 true] && (entryOf t 3 9).fires = 1,
     firesNext (firing 4 4 25 ready) 0 3 9 4]) = true := by decide +kernel

/-! ### Lanes -/

/-- `ready` with port 0 of this speed code, FEC, link, lane 0 and LANE_CONFIG of lane 0. -/
def lined (speed fec : Nat) (k : Link) (v : LaneSt) : State :=
  { ready with
    mac := { ports := [(0, { config := some (image 16 [(2, 1, speed), (3, 1, fec), (4, 1, 1), (6, 2, 1518)]) })] }
    lane := { links := [(0, k)], lanes := [(0, v)] } }

/-- A LANE_CONFIG of lane 0 with these flags. -/
def laneCfg (flags : Nat) : LaneSt := { cfg := some (image 32 [(3, 1, flags), (4, 2, 2), (6, 2, 10), (8, 2, 1280), (12, 4, 9)]) }

theorem witness_LaneObjectsReadAndWrite : allOf (
    let cfg := image 32 [(0, 2, 1023), (2, 1, 1), (3, 1, 12), (4, 2, 65535), (6, 2, 1), (8, 2, 1), (18, 1, 0xF4), (19, 1, 104)]
    let test := image 32 [(0, 2, 5), (3, 1, 1), (5, 1, 1), (6, 1, 1)]
    let scan := image 16 [(0, 2, 2), (4, 1, 1), (5, 1, 1), (6, 1, 1), (7, 1, 1), (8, 1, 20)]
    [endsWith (.laneConfigWrite (mk cfg)) ready .ok, after (.laneConfigWrite (mk cfg)) ready fun t => laneConfig t 1023 = cfg && laneConfig t 0 = laneConfig ready 0,
     endsWith (.laneTestWrite (mk test)) ready .ok, after (.laneTestWrite (mk test)) ready fun t => laneTestOwn t 5 = test,
     endsWith (.eyeResult (mk (image 8 [(0, 2, 1)]))) ready .ok,
     after (.eyeResult (mk (image 8 [(0, 2, 1)]))) ready fun t => t.host.ended.map (fun e => (e.data, e.reply)) = [([1, 0], [1, 0, 0, 0, 0, 0, 0, 0])],
     scanPoints (image 16 [(0, 2, 1), (4, 1, 1), (5, 1, 1), (6, 1, 1), (7, 1, 1), (8, 1, 20)]) ≤ 4096, endsWith (.eyeScanAbort (mk (image 8 [(0, 2, 1)]))) ready .ok,
     after (.eyeScanAbort (mk (image 8 [(0, 2, 1)]))) ready fun t => (laneOf t 1).scan.status = .aborted && (laneOf t 1).scan.points = [(1, 0)],
     endsWith (.eyeScan (mk (putField scan 0 2 0))) ready .ok, after (.eyeScan (mk (putField scan 0 2 0))) ready fun t => (laneOf t 0).scan.status = .running]) = true := by decide +kernel

theorem witness_BringUpAdvancesOrFails : allOf (
    let at_ := fun (p : LinkPhase) (now : Nat) => { lined 1 0 { phase := p, backoffMs := 10, waitMs := 7, inRow := 1 } { signal := true } with now := now }
    [after (.signalDetected 0) (at_ .rxDetect 3) fun t => phaseOf t 0 = .autoneg || phaseOf t 0 = .training,
     afterDetect (at_ .rxDetect 3) 0 = .autoneg, after (.signalDetected 0) (at_ .rxDetect 3) fun t => t.now = tMs && (laneOf t 0).signal,
     after (.autonegResolved 0 true) (at_ .autoneg (3 * tSec)) fun t => phaseOf t 0 = .training && (linkOf t 0).since = 3 * tSec,
     after (.trainingDone 0 []) (lined 1 0 { phase := .training } (laneCfg 4)) fun t => phaseOf t 0 = .lock,
     after (.lockAcquired 0) (at_ .lock (10 * tMs)) fun t => phaseOf t 0 = .align && (laneOf t 0).cdrLock && (laneOf t 0).symbolLock,
     after (.lockAcquired 0) (at_ .reacquireLock (50 * tUs)) fun t => phaseOf t 0 = .reacquireAlign,
     after (.linkUp 0) (at_ .align (5 * tMs)) fun t => phaseOf t 0 = .active && (linkOf t 0).inRow = 0 && (laneOf t 0).blockLock,
     after (.reacquireDone 0) (at_ .reacquireAlign (50 * tUs)) fun t => phaseOf t 0 = .active && (linkOf t 0).inRow = 0,
     after (.backoffExpired 0) (at_ .backoff 0) fun t => phaseOf t 0 = .rxDetect && t.now = 7 * tMs,
     after (.backoffReset 0) (at_ .active 0) fun t => (linkOf t 0).backoffMs = 10,
     after (.anTimeout 0) (at_ .autoneg 0) fun t => phaseOf t 0 = .backoff && (linkOf t 0).waitMs = 10 && (linkOf t 0).backoffMs = 20 && (linkOf t 0).inRow = 2 &&
       (laneOf t 0).lastCause = 1,
     after (.autonegResolved 0 false) (at_ .autoneg (3 * tSec)) fun t => (laneOf t 0).lastCause = 2,
     after (.trainingTimeout 0 0) (lined 1 0 { phase := .training, inRow := 1 } (laneCfg 4)) fun t => phaseOf t 0 = .failed && (laneOf t 0).lastCause = 3,
     after (.lockTimeout 0 0) (at_ .lock 0) fun t => (laneOf t 0).lastCause = 5,
     after (.alignTimeout 0 0 9) (at_ .align 0) fun t => (laneOf t 0).lastCause = 6,
     after (.reacquireTimeout 0 0) (at_ .reacquireLock 0) fun t => (laneOf t 0).lastCause = 5,
     after (.reacquireTimeout 0 0) (at_ .reacquireAlign 0) fun t => (laneOf t 0).lastCause = 6,
     portOfLane (at_ .lock 0) 0 = some 0, after (.signalLost 0) (at_ .lock 0) fun t => (laneOf t 0).lastCause = 7 && !(laneOf t 0).signal,
     after (.linkDown 0 1 true) (at_ .active (10 * tMs)) fun t => phaseOf t 0 = .reacquireLock,
     after (.linkDown 0 1 true) (at_ .active (10 * tMs - 1)) fun t => phaseOf t 0 = .backoff && (laneOf t 0).lastCause = 8,
     after (.linkDown 0 0 true) (at_ .active (10 * tMs)) fun t => phaseOf t 0 = .backoff && (laneOf t 0).lastCause = 7]) = true := by decide +kernel

theorem witness_LanesAcquireAndAlign : allOf (
    let trains := fun (l : List Nat) => lined 1 0 { phase := .training } { laneCfg 8 with malformed := l }
    let hunt := fun (g : Nat) => lined 1 0 { phase := .align } { goodHeaders := g }
    let fec := fun (v : LaneSt) => lined 1 2 { phase := .align } v
    [after (.anPageViolation 0) (lined 1 0 { phase := .autoneg } {}) fun t => countOf cPartnerViolations 0 t = 1,
     portOfLane ready 9 = none, after (.signalBreak 9) ready fun t => !(laneOf t 9).signal,
     (detectLanes (lined 1 0 { phase := .rxDetect } {}) 0).contains 0,
     after (.signalBreak 0) { lined 1 0 { phase := .rxDetect } {} with now := 5 } fun t => (linkOf t 0).since = 5,
     after (.cdrLockLost 0) (lined 1 0 { phase := .lock } { cdrLock := true }) fun t => !(laneOf t 0).cdrLock && countOf cCdrLosses 0 t = 1,
     trainsWithPartner (trains []) 0,
     after (.trainingFrameMalformed 0 7 1000) (trains [7, 6, 5, 4, 3, 2, 1, 0]) fun t => (laneOf t 0).malformed.length = 8 && phaseOf t 0 = .backoff && loggedAs 0x0304 t,
     after (.trainingFrameMalformed 0 7 1000) (trains [6, 5, 4, 3, 2, 1, 0]) fun t => (laneOf t 0).malformed.length = 7 && phaseOf t 0 = .training,
     aligning (hunt 0) 0, laneFec (hunt 0) 0 = 0, after (.syncHeaderReceived 0 true) (hunt 62) fun t => !(laneOf t 0).blockLock,
     after (.syncHeaderReceived 0 true) (hunt 63) fun t => (laneOf t 0).blockLock,
     after (.syncHeaderReceived 0 false) (hunt 63) fun t => (laneOf t 0).goodHeaders = 0 && (laneOf t 0).slips = 1 && countOf cBlockSlips 0 t = 1,
     after (.syncHeaderReceived 0 false) (lined 1 0 { phase := .active } { blockLock := true, headerNo := 63, badHeaders := List.replicate 15 1 }) fun t =>
       !(laneOf t 0).blockLock && countOf cBlockLosses 0 t = 1,
     after (.syncHeaderReceived 0 false) (lined 1 0 { phase := .active } { blockLock := true, headerNo := 63, badHeaders := List.replicate 14 1 }) fun t =>
       (laneOf t 0).blockLock,
     after (.alignmentMarkerReceived 0 true) (fec { markerHits := 1 }) fun t => (laneOf t 0).blockLock,
     after (.alignmentMarkerReceived 0 true) (fec {}) fun t => !(laneOf t 0).blockLock && (laneOf t 0).markerHits = 1,
     after (.alignmentMarkerReceived 0 false) (fec { markerHits := 1 }) fun t => (laneOf t 0).markerHits = 0 && countOf cMarkerSlips 0 t = 1,
     after (.alignmentMarkerReceived 0 false) (fec { blockLock := true, markerMisses := 3 }) fun t => !(laneOf t 0).blockLock && countOf cMarkerLosses 0 t = 1,
     after (.fecCodewordDecoded 0 7) (fec { windowSymbols := 1 }) fun t => (laneOf t 0).windowSymbols = 8 && countOf cFecSymbols 0 t = 7,
     after (.fecCodewordDecoded 0 8) (fec {}) fun t => countOf (cFecBin 16) 0 t = 1 && (laneOf t 0).windowSymbols = 0,
     after (.degradeWindowEnd 0) (lined 1 2 { phase := .active } { laneCfg 8 with windowSymbols := 10, degradedRun := 2 }) fun t =>
       (laneOf t 0).degradedRun = 3 && raisedFor 4 3 0 t && loggedAs 0x0309 t && (laneOf t 0).lastWindow = 10,
     after (.degradeWindowEnd 0) (lined 1 2 { phase := .active } { laneCfg 8 with windowSymbols := 9, degradedRun := 2 }) fun t =>
       (laneOf t 0).degradedRun = 0 && t.flt = ready.flt]) = true := by decide +kernel

theorem witness_LaneTestsLossesAndFaults : allOf (
    let test := fun (l : List (Nat × Nat × Nat)) (v : LaneSt) => lined 1 0 { phase := .active } { v with test := some (image 32 l) }
    let die := fun (v : LaneDieSt) => { ready with lane := { ready.lane with dies := [(7, v)] } }
    let grp := fun (v : LaneGroup) => { ready with lane := { ready.lane with groups := [(0, v)] } }
    [after (.farEndLoopbackBlock 0 true false false) (test [(2, 1, 3)] { elastic := 31 }) fun t => (laneOf t 0).elastic = 32,
     after (.farEndLoopbackBlock 0 false true false) (test [(2, 1, 3)] { elastic := 0 }) fun t => (laneOf t 0).elastic = 0 && countOf cElasticSlips 0 t = 1,
     after (.patternBitsChecked 0 40 false false) (test [(5, 1, 2)] { chkLocked := true }) fun t => countOf cChkBits 0 t = 40,
     after (.patternBitsChecked 0 24 false false) (test [(5, 1, 2)] { chkRun := 1000 }) fun t => (laneOf t 0).chkLocked && countOf cChkBits 0 t = 0,
     after (.patternBitsChecked 0 23 false false) (test [(5, 1, 2)] { chkRun := 1000 }) fun t => !(laneOf t 0).chkLocked && (laneOf t 0).chkRun = 1023,
     after (.patternBitsChecked 0 0 true false) (test [(5, 1, 2)] { chkLocked := true }) fun t => countOf cChkBitErrors 0 t = 1,
     after (.errorInjectionEvent 0) (test [(5, 1, 16), (7, 1, 3)] {}) fun t => countOf cInjEvents 0 t = 1 && u8 (laneTestOwn t 0) 7 = 0,
     after (.eyePointDone 1 1024 9) { ready with lane := { ready.lane with lanes := [(1, { scan := { status := .running, request := image 16 [(4, 1, 1), (5, 1, 1), (6, 1, 1), (7, 1, 1), (8, 1, 20)] } })] } }
       fun t => (laneOf t 1).scan.points = [(1024, 9)] && (laneOf t 1).scan.status = if 9 ≤ 1 then .done else .running,
     after (.laneRefclkLost 7) { ready with now := 6 } fun t => (laneDieSt t 7).lostAt = some 6 && raisedFor 0 1 7 t && loggedAs 0x0306 t,
     after (.laneRefclkRelock 7) { die { lostAt := some 6 } with now := 6 + tMs } fun t => (laneDieSt t 7).lostAt = none,
     after (.laneRefclkHoldoverEnd 7) (die { lostAt := some 6 }) fun t => (laneDieSt t 7).squelched && t.now = 6 + tMs,
     after (.laneRefclkRestored 0) { lined 1 0 { phase := .backoff, refclkWait := true } {} with lane := { (lined 1 0 { phase := .backoff, refclkWait := true } {}).lane with dies := [(0, { lostAt := some 6, squelched := true })] } }
       fun t => !(laneDieSt t 0).squelched && phaseOf t 0 = .rxDetect,
     after (.d2dDoubleBitError 0 false) (grp { failedReplays := [2, 1] }) fun t => !(laneGroup t 0).retraining && t.flt = ready.flt,
     after (.d2dDoubleBitError 0 false) (grp { failedReplays := [2, 1, 0] }) fun t => (laneGroup t 0).retraining && raisedFor 2 2 0 t && loggedAs 0x0308 t,
     after (.d2dRetrainDone 0) (grp { retraining := true }) fun t => !(laneGroup t 0).retraining,
     after (.lanePll 0) ready fun t => (laneGroup t 0).pllLost && phaseOf t 0 = .reacquireLock,
     after (.lanePllRelock 0) { lined 1 0 { phase := .reacquireAlign } {} with lane := { (lined 1 0 { phase := .reacquireAlign } {}).lane with groups := [(0, { pllLost := true })] } }
       fun t => !(laneGroup t 0).pllLost && phaseOf t 0 = .reacquireLock,
     after (.laneAdapt 0) (lined 1 0 { phase := .active } { coeff := [1], snapshot := [2] }) fun t => (laneOf t 0).coeff = [2] && raisedFor 3 3 0 t && loggedAs 0x030A t,
     after (.laneStore 7) ready fun t => (laneDieSt t 7).reloading && raisedFor 5 1 7 t,
     after (.laneStoreReload 0) { ready with lane := { ready.lane with dies := [(0, { reloading := true })] } } fun t => !(laneDieSt t 0).reloading && phaseOf t 0 = .reacquireLock]) = true := by decide +kernel

/-! ### Ports and MAC -/

/-- `ready` with port 0's MAC state and frames. -/
def macced (p : MacPort) (fs : List (Nat × Frame)) : State :=
  { ready with
    mac := { ports := [(0, { p with config := some (image 16 [(2, 1, 1), (4, 1, 1), (6, 2, 1518)]) })] }
    fr := { frames := fs, next := 8 } }

theorem witness_MacObjectsReadAndWrite : allOf (
    let cfg := image 16 [(0, 2, 1023), (2, 1, 1), (4, 1, 1), (6, 2, 1518)]
    let off := { ready with mac := { ports := [(0, { config := some (image 16 [(2, 1, 1), (6, 2, 1518)]) })] }, lane := {} }
    let pre := image 8 [(2, 1, 3), (3, 1, 1), (5, 1, 1)]
    let flt := image 96 [(0, 1, 15), (1, 1, 1), (2, 1, 1), (4, 2, 1), (8, 8, 2 ^ 63), (24, 8, 1)]
    [portConfigRefused ready cfg = none, endsWith (.portConfigWrite (mk cfg)) ready .ok,
     after (.portConfigWrite (mk cfg)) ready fun t => portConfig t 1023 = cfg && loggedAs 0x0401 t && phaseOf t 1023 = .rxDetect,
     endsWith (.portConfigWrite (mk (image 16 []))) off .ok, after (.portConfigWrite (mk (image 16 []))) off fun t => !configured t 0 && loggedAs 0x0401 t,
     portIsTarget off 0 = false, portIsTarget off 1023 = false,
     endsWith (.portFlowWrite (mk (image 80 []))) ready .ok,
     endsWith (.portPreemptWrite (mk pre)) ready .ok, after (.portPreemptWrite (mk pre)) ready fun t => (macPort t 0).preemptPhase = .active && portPreempt t 0 = pre,
     after (.portPreemptWrite (mk (image 8 [(5, 1, 1)]))) ready fun t => (macPort t 0).preemptPhase = .off,
     endsWith (.frameFilterWrite (mk flt)) ready .ok, after (.frameFilterWrite (mk flt)) ready fun t => (macPipe t 63).filters.length = 1 && macPipe t 0 = {}]) = true := by decide +kernel

theorem witness_FramesAreReceived : allOf (
    let head := fun (b : Bytes) (m : Bool) => Instr.rxFrameHead 0 b m 0 98304
    let b64 := image 64 [(0, 6, 5), (12, 2, 8)]
    let ctl := putField b64 12 2 0x0888
    let rx := fun (v : Frame) => macced { rx := some 7, flow := some (image 80 [(2, 1, 1)]) } [(7, { v with maxFrame := 128 })]
    let pause := image 60 [(12, 2, 0x0888), (14, 2, 256), (16, 2, 256)]
    let part := macced { preemptPhase := .active } []
    [ready.mac.ports.length = 1, portActive ready 0, matchingFilter ready 0 b64 = none, pipeClosed ready 0 = false, fifoUsed ready 0 = 0,
     after (head b64 true) ready fun t => countOf (cSwcDrops 4) 0 t = 1 && (macPort t 0).rx = none,
     after (head (b64.take 63) false) ready fun t => countOf (cSwcDrops 1) 0 t = 1 && (macPort t 0).rx = none,
     after (head ctl false) ready fun t => (macPort t 0).rx = some 0 && (frameOf t 0).place = .control,
     after (head b64 false) ready fun t => (frameOf t 0).place = .fifo && (frameOf t 0).resv = 1518 && (frameOf t 0).data = b64 && t.fr.next = 1,
     after (head b64 false) { ready with lane := { ready.lane with lanes := [(0, { test := some (image 32 [(2, 1, 3)]) })] } } fun t => (frameOf t 0).place = .spent && t.tel = ready.tel,
     after (.rxFrameEnd 0 (List.replicate 64 0)) (rx { data := b64 }) fun t => (macPort t 0).rx = none && (frameOf t 7).ended,
     after (.rxOversize 0 (List.replicate 65 0)) (rx { data := b64 }) fun t => (macPort t 0).rx = none,
     after (.rxPcsErrorMark 0) (rx { data := b64 }) fun t => (macPort t 0).rx = none,
     fcsGood (pause ++ fcsOf pause), quantaTime (portMbps (rx {}) 0) 1 = 1792,
     after (.macControlFrame 0 (fcsOf pause)) (rx { data := pause, place := .control }) fun t => (macPort t 0).timers.length = 8 && tabFind (macPort t 0).timers 7 = some 1792,
     after (.macControlFrame 0 [0, 0, 0, 0]) (rx { data := pause, place := .control }) fun t => (macPort t 0).timers = [] && countOf (cSwcDrops 3) 0 t = 1,
     after (.rxFragment 0 0 true false (b64.take 63) 0 0) part fun t => (macPort t 0).assembling = some (b64.take 63),
     after (.rxFragment 0 3 true true b64 0 0) (macced { preemptPhase := .active, assembling := some b64 } []) fun t => (macPort t 0).assembling = none]) = true := by decide +kernel

theorem witness_FlowControlPreemptionAndFaults : allOf (
    let flow := image 80 [(2, 1, 2), (3, 1, 1), (4, 2, 100), (6, 2, 5), (8, 2, 9), (16, 4, 1), (48, 4, 0)]
    let mp := fun (p : MacPort) => macced { p with flow := some flow } []
    [configured ready 0, usedClasses (mp {}) 0 = [0],
     after (.occupancyReport 0 0) { mp {} with buf := { copies := [(1, { frame := 9, quad := 0, port := 5, queue := 0, cells := [4], ingress := some 0 })] } } fun t =>
       tabGet 0 (macPort t 0).occupancy 0 = 1 && bit (macPort t 0).xoff 0,
     after (.pauseRefresh 0) (mp { xoff := 1, sentAt := [(0, 3)] }) fun t => (macPort t 0).xoff = 1 && t.out.length = 1,
     after (.pauseTimerExpiry 0 7) (mp { timers := [(7, 40)], pausedSince := [(7, 2)] }) fun t => (macPort t 0).timers = [] && (macPort t 0).pausedSince = [] && t.now = 40,
     after (.pauseStorm 0 7) (mp { timers := [(7, 5 * tMs)], pausedSince := [(7, 0)] }) fun t => tabFind (macPort t 0).recoverAt 7 = some (14 * tMs) &&
       (macPort t 0).timers = [] && loggedAs 0x0402 t,
     after (.stormRecovered 0 7) (mp { recoverAt := [(7, 6)] }) fun t => (macPort t 0).recoverAt = [] && t.now = 6 && loggedAs 0x0403 t,
     after (.preemptVerifyTimer 0) (mp { preemptPhase := .verifying, verifyTries := 2, preempt := some (image 8 [(5, 1, 10)]) }) fun t => t.out = [.verify 0] &&
       (macPort t 0).verifyTries = 3 && t.now = 10 * tMs,
     after (.preemptVerifyTimer 0) (mp { preemptPhase := .verifying, verifyTries := 3 }) fun t => (macPort t 0).preemptPhase = .failed && loggedAs 0x0404 t,
     after (.preemptVerify 0) (mp { preemptPhase := .verifying }) fun t => (macPort t 0).preemptPhase = .active && loggedAs 0x0404 t,
     (framesAt (macced {} [(7, {})]) 0 .fifo).contains 7, after (.macFifo 0 7) (macced {} [(7, {})]) fun t => t.fr.frames = [] && raisedFor 6 5 0 t,
     after (.macStore 63) ready fun t => (macPipe t 63).reloading && raisedFor 7 5 63 t && loggedAs 0x0406 t,
     after (.macReload 63) { ready with mac := { ready.mac with pipes := [(63, { reloading := true, filters := [(1, [2])] })] } } fun t =>
       macPipe t 63 = { filters := [(1, [2])] },
     after (.pcsCheck 0) (macced { rx := some 7 } [(7, {})]) fun t => (macPort t 0).rx = none && raisedFor 8 4 0 t,
     after (.macFlow 0) (mp {}) fun t => (macPort t 0).heldXoff && bit (macPort t 0).xoff 0 && raisedFor 9 4 0 t,
     after (.flowResync 0) (mp { heldXoff := true, occupancy := [(3, 5)] }) fun t => !(macPort t 0).heldXoff && (macPort t 0).occupancy = [] && loggedAs 0x0407 t]) = true := by decide +kernel

/-! ### Parsers, match-action stages and action engines -/

/-- `ready` with frames, the next number being 8. -/
def framed (fs : List (Nat × Frame)) : State := { ready with fr := { frames := fs, next := 8 } }

/-- `s` with stage 5 of pipeline 0. -/
def staged (v : MatStage) (s : State) : State := { s with mat := { s.mat with stages := [(5, v)] } }

theorem witness_ParsesRunAndFault : allOf (
    let prs := fun (n : Nat) (v : Frame) => { framed [(7, v)] with prs := { pipes := [(0, { graph := { nodes := [(0, n)] } })] } }
    let key := 1 + 2 ^ 4 * 63 + 2 ^ 13 * 8
    let isEnd := fun (r : Visit × Frame) => match r.1 with | .accepted => 0 | .waits => 1 | .malformed c => 2 + c | .goesOn => 9
    let b := List.replicate 64 (0 : Byte)
    let park : Frame := { data := b.take 63, maxFrame := 128, place := .parked, resv := 10 }
    [nextToParse (prs 3 { data := b }) 0 0 = some 7, pipeFenced ready 0 = false, pipeClosed ready 0 = false,
     isEnd (visits (graphOf (prs 3 {}) {}) 33 {}) = 0,
     after (.parseStart 0 0) (prs 3 { data := b, maxFrame := 1518 }) fun t => (frameOf t 7).place = .parsed && countOf cPrsAccepted 0 t = 1 && countOf (cPrsFrames 0) 0 t = 1,
     isEnd (visits (graphOf (prs key {}) {}) 33 { data := b.take 63 }) = 1,
     after (.parseStart 0 0) (prs key { data := b.take 63 }) fun t => (frameOf t 7).place = .parked && countOf (cPrsFrames 0) 0 t = 1,
     isEnd (visits (graphOf (prs 0 {}) {}) 33 { data := b }) = 8, u8 (malformedOf ready 0) 8 = 1, u8 (malformedOf ready 0) 13 = 2,
     isEnd (visits (graphOf (prs key {}) {}) 33 { data := b.take 63, ended := true }) = 3,
     after (.parseStart 0 0) (prs key { data := b.take 63, ended := true }) fun t => (frameOf t 7).malformed = 1 && (frameOf t 7).place = .parsed &&
       countOf (cPrsMalformed 1) 0 t = 1,
     after (.parseResume 7 [0]) (prs (key + 2) park) fun t => (frameOf t 7).place = .parsed && (frameOf t 7).resv = 9 && countOf cPrsAccepted 0 t = 1,
     after (.parseResume 7 []) (prs (key + 2) park) fun t => (frameOf t 7).place = .parked,
     after (.prsStore 63 none) ready fun t => (parserPipe t 63).reloading && raisedFor 10 5 63 t && loggedAs 0x0520 t,
     beingParsed (framed [(7, {})]) 0 7, after (.prsStore 0 (some 7)) (framed [(7, {})]) fun t => countOf (cSwcDrops 0x11) 0 t = 1 && raisedFor 10 5 0 t,
     after (.prsVector 0 7) (framed [(7, { place := .parsed })]) fun t => countOf (cSwcDrops 0x11) 0 t = 1 && raisedFor 11 5 0 t,
     after (.prsHang 0 7) (framed [(7, park)]) fun t => countOf (cSwcDrops 0x11) 0 t = 1 && raisedFor 12 5 0 t,
     after (.prsCheck 0 7) (framed [(7, park)]) fun t => countOf (cSwcDrops 0x11) 0 t = 1 && raisedFor 13 5 0 t,
     after (.parserReload 0) { ready with prs := { pipes := [(0, { graph := { nodes := [(0, 3)] }, reloading := true })] } } fun t =>
       !(parserPipe t 0).reloading && (parserPipe t 0).graph = { nodes := [(0, 3)] },
     after (.parserMalformedWrite (mk (image 24 [(0, 8, 2 ^ 63), (8, 1, 1), (9, 1, 1), (10, 1, 1), (11, 1, 1), (12, 1, 1), (13, 1, 2)]))) ready fun t =>
       u8 (malformedOf t 63) 10 = 1 && u8 (malformedOf t 0) 10 = 2]) = true := by decide +kernel

theorem witness_FramesPassTheStages : allOf (
    let f : Frame := { place := .stage, stage := 5 }
    [descValid (descOf (matStage (staged {} ready) 0 5) 7) = false, pipeStill ready 0 = false, (matPipe ready 0).retired = none,
     after (.stageLookup 7) (staged { descs := [(0, 0)] } (framed [(7, f)])) fun t => (frameOf t 7).place = .sequenced && (frameOf t 7).slots.length = 8,
     after (.stageLookup 7) (framed [(7, { place := .parsed })]) fun t => (frameOf t 7).place = .sequenced && (frameOf t 7).stage = 0,
     after (.sequencerRelease 7) (framed [(7, { place := .sequenced, stage := 22 })]) fun t => (frameOf t 7).place = .stage && (frameOf t 7).stage = 23,
     after (.sequencerRelease 7) (framed [(7, { place := .sequenced, stage := 23 })]) fun t => (frameOf t 7).place = .decide,
     earlierFrame (framed [(6, { place := .sequenced, stage := 23, port := 1 }), (7, { place := .sequenced, stage := 23 })]) 7 (atStage 23) = false]) = true := by decide +kernel

theorem witness_RoutinesRunCommitAndFault : allOf (
    let fs := fun (p : Place) => framed [(7, { place := p, stage := 5, routine := 3 })]
    let st := fun (w : Nat) (c : Ctx) (v : MatStage) => staged { v with micro := [(3, w)], ctxs := [(1, c)], unitMap := [0x80] } (fs .running)
    let c : Ctx := { frame := 7, pc := 3 }
    let pcOf := fun (t : State) => (ctxOf t 0 5 1).map fun c => (c.pc, c.phase)
    let full := staged { ctxs := (List.range 64).map fun k => (k, c) } (fs .issue)
    [freeCtx (matStage (fs .issue) 0 5) = some 0, after (.routineIssue 7) (fs .issue) fun t => ctxOf t 0 5 0 = some { frame := 7, pc := 3 } && (frameOf t 7).place = .running,
     freeCtx (matStage full 0 5) = none, after (.routineIssue 7) full fun t => countOf (cAct 3 3) 5 t = 1,
     waitHolds (st (2 + 2 ^ 12) { c with outstanding := [(0, none)] } {}) 0 5 { c with outstanding := [(0, none)] } 1 0 = false,
     after (.microwordExecute 0 5 1 0) (st (2 + 2 ^ 12) { c with outstanding := [(0, none)] } {}) fun t => pcOf t = some (3, .waiting),
     (match runNano 0 5 1 0 0 c (countAct 2 0 5 0 (st 0 c {})) with | .ok _ => true | .error _ => false),
     after (.microwordExecute 0 5 1 0) (st 0 c {}) fun t => pcOf t = some (4, .running),
     after (.microwordExecute 0 5 1 0) (st 3 c {}) fun t => pcOf t = some (3, .ending),
     after (.microwordExecute 0 5 1 0) (st (1 + 2 ^ 17 * 9) c {}) fun t => pcOf t = some (12, .running),
     after (.microwordExecute 0 5 1 0) (st (1 + 2 ^ 16 + 2 ^ 17 * 9) c {}) fun t => pcOf t = some (4, .running),
     after (.waitResume 0 5 1 0) (st (2 + 2 ^ 12) { c with phase := .waiting } {}) fun t => pcOf t = some (4, .running),
     after (.memoryResultReturn 0 5 1 3) (st 0 { c with outstanding := [(3, some 44)] } {}) fun t => (ctxOf t 0 5 1).map (fun c => (c.outstanding, c.t)) = some ([], [(3, 44)]),
     after (.lockGranted 0 5 1) (st 0 { c with lockRow := some 9, lockTag := 2 } { locks := [(9, { waiters := [1, 4] })], state := [(18, 6)] }) fun t =>
       lockOf (matStage t 0 5) 9 = { holder := some 1, waiters := [4] } && (ctxOf t 0 5 1).map Ctx.outstanding = some [(2, some 6)],
     after (.routineCommit 0 5 1 0) (st 0 { c with phase := .ending, writes := [(272, 5)], deferred := [{ op := 4, space := 0, row := 9, word := 1, data := 7, data2 := 0 }] } { state := [(19, 2)] })
       fun t => ctxOf t 0 5 1 = none && (frameOf t 7).place = .sequenced && (frameOf t 7).hdr = [(272, 5)] && stateWord (matStage t 0 5) 9 1 = 9,
     after (.actMicro 63 23 8191 none) ready fun t => (matStage t 63 23).faults.bad = [8191] && raisedFor 20 6 2039 t && loggedAs 0x0610 t,
     after (.actNano 63 23 1023 none) ready fun t => (matStage t 63 23).faults.bad = [66559] && raisedFor 21 6 2039 t && loggedAs 0x0610 t,
     after (.actMicro 0 5 3 (some 1)) (st 0 c {}) fun t => ctxOf t 0 5 1 = none && countOf (cSwcDrops 0x1B) 0 t = 1,
     after (.actNano 0 5 0 (some 1)) (st 0 c {}) fun t => ctxOf t 0 5 1 = none && countOf (cSwcDrops 0x1B) 0 t = 1,
     after (.actContext 0 5 1) (st 0 c {}) fun t => ctxOf t 0 5 1 = none && countOf (cSwcDrops 0x1B) 0 t = 1 && raisedFor 22 6 5 t,
     after (.actHang 0 5 1) (st 0 { c with phase := .waiting } {}) fun t => ctxOf t 0 5 1 = none && countOf (cSwcDrops 0x1B) 0 t = 1 && raisedFor 23 6 5 t,
     after (.storeReload 0 5 0 (some 3)) (staged { faults := { bad := [3, 65539] } } ready) fun t => (matStage t 0 5).faults.bad = [65539] && loggedAs 0x0611 t,
     after (.storeReload 0 5 1 none) (staged { faults := { bad := [3, 65539], whole := [1] } } ready) fun t => (matStage t 0 5).faults.bad = [3] &&
       (matStage t 0 5).faults.whole = [] && loggedAs 0x0611 t,
     stateRows (matStage (st 0 c {}) 0 5) = 4096,
     after (.stateRowReset 0 5 4095 none) (st 0 c { state := [(8190, 5)], stateInit := [(8191, 3)] }) fun t => stateWord (matStage t 0 5) 4095 0 = 0 &&
       stateWord (matStage t 0 5) 4095 1 = 3 && raisedFor 14 6 5 t && loggedAs 0x0613 t]) = true := by decide +kernel

theorem witness_TableFaultsPoisonUntilRewritten : allOf (
    let f := framed [(7, { place := .running, stage := 5 })]
    [fdbIndexOf 0 5 15 4095 = none, lpmUnit 0 5 15 = false, fdbIndexOf 0 6 0 0 = some 0, fdbIndexOf 0 13 15 4095 = some 524287, regionBlocks 0 5 3 = false,
     after (.matExact 63 5 15 4095 none) ready fun t => (matStage t 63 5).poisoned = [65535] && raisedFor 14 6 2021 t,
     after (.rowRewrite 0 5 (.exact 15 4095)) (staged { poisoned := [65535, 4] } ready) fun t => (matStage t 0 5).poisoned = [4],
     after (.matExact 63 13 15 4095 none) ready fun t => (fwdPipe t 63).poisoned = [524287] && raisedFor 14 6 2029 t,
     after (.rowRewrite 63 13 (.exact 15 4095)) { ready with fwd := { pipes := [(63, { poisoned := [524287] })] } } fun t => (fwdPipe t 63).poisoned = [],
     after (.matTernary 0 5 3 1023 none) ready fun t => (matStage t 0 5).poisoned = [69631] && raisedFor 15 6 5 t,
     after (.matResult 0 5 3 1023 none) ready fun t => (matStage t 0 5).poisoned = [135167] && raisedFor 16 6 5 t,
     after (.rowRewrite 0 5 (.ternary 3 1023)) (staged { poisoned := [69631] } ready) fun t => (matStage t 0 5).poisoned = [],
     after (.rowRewrite 0 5 (.result 3 1023)) (staged { poisoned := [135167] } ready) fun t => (matStage t 0 5).poisoned = [],
     after (.matExact 0 5 0 0 (some 7)) f fun t => countOf (cSwcDrops 0x1A) 0 t = 1 && raisedFor 14 6 5 t,
     after (.matTernary 0 5 0 0 (some 7)) f fun t => countOf (cSwcDrops 0x1A) 0 t = 1 && raisedFor 15 6 5 t,
     after (.matDesc 0 5 none) ready fun t => (matStage t 0 5).reloading && raisedFor 17 6 5 t && loggedAs 0x0603 t,
     after (.stageReload 0 5) (staged { reloading := true, poisoned := [4] } ready) fun t => !(matStage t 0 5).reloading && (matStage t 0 5).poisoned = [],
     after (.matPath 0 7) (framed [(7, { place := .hold })]) fun t => countOf (cSwcDrops 0x1A) 0 t = 1 && raisedFor 18 5 0 t]) = true := by decide +kernel

theorem witness_RuleBatchesAndQuiesceApply : allOf (
    let e := image 80 [(0, 1, 1), (1, 1, 5), (16, 1, 9)]
    let s0 := staged { descs := [(0, 1 + 2 ^ 58 * 8)], unitMap := [0] } ready
    let s1 := { s0 with mat := { s0.mat with openBatch := [(0, [e])] } }
    let cmd := mk (image 16 [(0, 8, 1), (12, 4, 1)])
    let pipe := fun (p : MatPipe) => { ready with mat := { ready.mat with pipes := [(0, p)] } }
    let part : BatchPart := { seq := 6, writes := [.exact 5 0 (some { key := 9 })] }
    [after (.ruleAdd (mk e)) ready fun t => openBatch t 0 = [e] && t.host.ended.map Ended.data = [toLe 4 1], endsWith (.ruleBatch cmd) s1 .ok,
     (match checkBatch s1 [e] [0] with | .ok [(0, [[_]])] => true | _ => false), applyPending s1 1 = false,
     after (.ruleBatch cmd) s1 fun t => openBatch t 0 = [] && t.mat.nextSeq = 2 && (matPipe t 0).parts.length = 1,
     endsWith (.ruleBatch (mk (image 16 [(0, 8, 1)]))) ready .state,
     after (.ruleBatchAbort (mk [])) s1 fun t => openBatch t 0 = [] && t.host.ended.map Ended.data = [toLe 4 1],
     after (.quiesceStart 0) (pipe { parts := [part] }) fun t => (matPipe t 0).quiesce = .stopped && (matPipe t 0).parts = [part],
     routinesStill (pipe {}) 0, after (.quiesceWrite 0 320) (pipe { parts := [part], quiesce := .stopped }) fun t => (matPipe t 0).parts = [] && (matPipe t 0).quiesce = .none &&
       (matPipe t 0).retired.isSome && (matPipe t 0).epoch = 1 && (matPipe t 0).appliedSeq = 6 && (matPipe t 0).lastWindow = 320 && countOf cMatQuiesces 0 t = 1,
     after (.retiredBufferRelease 0) (pipe { epoch := 1, retired := some [] }) fun t => (matPipe t 0).retired = none && (matPipe t 0).epoch = 1]) = true := by decide +kernel

theorem witness_TreesAreBuiltSwappedAndWalked : allOf (
    let tree := fun (v : Tree) => { ready with mat := { ready.mat with trees := [(63, v)] } }
    let walk := fun (d : Nat) => { framed [(7, {})] with mat := { ready.mat with walks := [(0, [{ frame := 7, tree := 2, depth := d }])] } }
    let obj := image 80 [(0, 1, 3), (1, 1, 15), (4, 4, 64)]
    let commit := mk (image 8 [])
    [after (.treeTableWrite (mk obj)) ready fun t => (treeOf t 3 15).obj = obj,
     endsWith (.classifierRuleWrite (mk (image 136 [(4, 4, 63)]))) ready .ok,
     endsWith (.treeCommit commit) ready .pending, after (.treeCommit commit) ready fun t => (treeOf t 0 0).building = some [],
     after (.treeSwap 3 15 true 5) { tree { building := some [(1, [2])], generation := 2 ^ 32 - 1 } with now := 8 } fun t =>
       treeOf t 3 15 = { built := [(1, [2])], root := 5, swappedAt := some 8 } && loggedAs 0x0605 t,
     after (.treeSwap 3 15 false 5) (tree { building := some [(1, [2])], generation := 7 }) fun t => treeOf t 3 15 = { generation := 7 } && loggedAs 0x0606 t,
     after (.treeNodesFreed 3 15) (tree { swappedAt := some 8 }) fun t => (treeOf t 3 15).swappedAt = none && t.now = 8 + 20 * tUs,
     after (.treeNodeReadReturn 7 1 0) (walk 14) fun t => (walkOf t 0 7).map Walk.depth = some 15,
     after (.treeNodeReadReturn 7 1 0) (walk 15) fun t => walkOf t 0 7 = none && countOf (cTreeStatus 4) 0 t = 1,
     after (.treeNodeReadReturn 7 2 16) (walk 3) fun t => walkOf t 0 7 = none && countOf (cTreeStatus 2) 0 t = 1,
     after (.treeNodeReadReturn 7 3 0) (walk 3) fun t => walkOf t 0 7 = none && countOf (cTreeStatus 5) 0 t = 1 && raisedFor 19 8 2 t,
     after (.treeWalkTimeout 7) (walk 3) fun t => walkOf t 0 7 = none && countOf (cTreeStatus 5) 0 t = 1 && raisedFor 19 8 2 t && t.now = 20 * tUs &&
       (treeOf t 0 2).building.isSome,
     after (.matTree 0 7) (walk 3) fun t => walkOf t 0 7 = none && countOf (cTreeStatus 5) 0 t = 1 && raisedFor 19 8 2 t && (treeOf t 0 2).building.isSome]) = true := by decide +kernel

/-! ### Forwarding tables and signature engines -/

/-- `ready` with the forwarding tables of pipeline 63 and quadrant 0's reader. -/
def forwarding (p : FwdPipe) (f : FwdState) : State := { ready with fwd := { f with pipes := [(63, p)] } }

theorem witness_ForwardingObjectsAndWindows : allOf (
    let m := 2 ^ 63
    let route := image 40 [(0, 8, m), (8, 1, 1), (9, 1, 1), (10, 1, 128), (16, 4, 7), (24, 8, 5)]
    let learn := image 16 [(0, 8, m), (8, 1, 1)]
    let win := fun (w : FdbWindow) => forwarding { window := w } {}
    let opened : FdbWindow := { session := some 0, rights := 1 }
    let key := 2 ^ 48 * 5 + 9
    let row := fdbRow true false key 3 0 0 0
    let idx := fdbCandidate (fdbRows ready) key 0
    let own := image 32 [(0, 1, 3), (1, 1, 1), (4, 2, 5), (8, 4, 77), (16, 8, 2)]
    let hk := hostEntryKey own
    let has := forwarding {} { host := [(hostSlotKey 3 (hostBucket 0 hk) 2, { key := hk, result := 77, hit := true })] }
    let ent := fun (op : Nat) => Instr.hostEntry (mk (putField own 1 1 op))
    [endsWith (.fdbLearnWrite (mk learn)) ready .ok, after (.fdbLearnWrite (mk learn)) ready fun t => (fwdPipe t 63).learn = putField learn 0 8 0 && fwdPipe t 0 = {},
     endsWith (.fdbNotifyWrite (mk (image 32 [(0, 1, 3), (1, 1, 1), (2, 1, 4), (16, 8, 64), (24, 8, 64)]))) ready .ok ||
       endsWith (.fdbNotifyWrite (mk (image 32 [(0, 1, 3)]))) ready .ok,
     startsOn (.fdbEntryWrite (mk (image 32 [(0, 8, m), (8, 1, 1), (12, 2, 5), (19, 1, 9)]))) ready,
     fdbFind (forwarding { fdb := [(idx, row)] } {}) 63 key = some (idx, row),
     endsWith (.fdbEntryRead (mk (putBytes (image 32 [(0, 8, m), (12, 2, 5)]) 14 (toBe 6 9)))) (forwarding { fdb := [(idx, row)] } {}) .ok,
     endsWith (.fdbDelegateWrite (mk (image 16 [(0, 8, m), (8, 1, 1), (9, 1, 3)]))) ready .ok,
     after (.fdbDelegateWrite (mk (image 16 [(0, 8, m), (8, 1, 1), (9, 1, 3)]))) ready fun t => (fwdPipe t 63).window.session = some 1,
     after (.fdbDelegateWrite (mk (image 16 [(0, 8, m)]))) (win opened) fun t => (fwdPipe t 63).window.session = none,
     2 * (lpmUsed (fwdPipe ready 63) + 2) ≤ lpmRoom ready, after (.lpmRouteWrite (mk route)) ready fun t => (fwdPipe t 63).routes = [(routeOf route, 7)],
     passes opLpmRouteWrite (mk (putField route 8 1 2)) (forwarding { routes := [(routeOf route, 7)] } {}),
     endsWith (.lpmRouteRead (mk (image 40 [(0, 8, m), (9, 1, 1), (10, 1, 128), (24, 8, 5)]))) (forwarding { routes := [(routeOf route, 7)] } {}) .ok,
     (hostWrite 3 hk 77 ready).isSome, after (ent 1) ready fun t => (hostFind t 3 hk).isSome && t.host.ended.map Ended.status = [.ok],
     after (ent 2) has fun t => t.fwd.host = [] && t.host.ended.map Ended.status = [.ok],
     after (ent 3) has fun t => t.fwd.host = has.fwd.host && t.host.ended.map Ended.reply = [putField (putField own 1 1 0) 2 1 3],
     after (ent 4) has fun t => (t.fwd.host.map fun e => e.2.hit) = [false],
     windowOpen (win opened) 63, after (.fdbCmdInvalidOp 63 22 true) (win opened) fun t => (fwdPipe t 63).window = { opened with cmd := 63, busy := true },
     after (.fdbCmdReadKey 63 false) (win { opened with busy := true }) fun t => (fwdPipe t 63).window.rejects = 1,
     after (.fdbCmdAge 63 false) ready (· = ready), after (.fdbWindowRegWrite 63 6 5) ready (· = ready), after (.fdbRejectsRead 63) ready fun t => t.out = [.barRead 0],
     after (.fdbWindowRegWrite 63 6 5) (win opened) fun t => (fwdPipe t 63).window.data = 5 * 2 ^ 96,
     after (.fdbRejectsRead 63) (win { opened with rejects := 4 }) fun t => t.out = [.barRead 4] && (fwdPipe t 63).window.rejects = 0]) = true := by decide +kernel

theorem witness_ForwardingEnginesRun : allOf (
    let key := 2 ^ 48 * 5 + 9
    let host := fun (r : HostRead) (rows : Store HostRow) (alt : Store Nat) =>
      { framed [(7, { hostDue := true, place := .waiting })] with fwd := { reads := [(0, [r])], host := rows, hostAlt := alt } }
    let b := hostBucket 0 44
    [([1, 2, 3].map fun i => (2 + i) % 3).find? (requesterWaits (forwarding { learnQ := [(key, 3)], window := { session := some 0, busy := true } } {}) 63) = some 0,
     after (.fdbArbiterGrant 63) (forwarding { learnQ := [(key, 3)], window := { session := some 0, busy := true } } {}) fun t => (fwdPipe t 63).lastGrant = 0 && (fwdPipe t 63).learning,
     after (.fdbArbiterGrant 63) (forwarding { window := { session := some 0, cmd := 1, busy := true } } {}) fun t => (fwdPipe t 63).window.done && !(fwdPipe t 63).window.busy,
     (jobFor (forwarding {} { jobs := [{ run := 0, obj := image 32 [(0, 8, 2 ^ 63), (8, 1, 1)], left := 2 ^ 63 }] }) 63).isSome,
     fdbFind (forwarding { learning := true, learnQ := [(key, 3)] } {}) 63 key = none, 0 < dynLimit ready 63,
     after (.learnRequestProcess 63) (forwarding { learning := true, learnQ := [(key, 3)] } {}) fun t => (fwdPipe t 63).learnQ = [] && !(fwdPipe t 63).learning &&
       (fwdPipe t 63).fdb.length = 1 && countOf cFdbLearnNew 63 t = 1,
     after (.learnRequestProcess 63) (forwarding { learning := true, learnQ := [(key, 3)], fdb := [(fdbCandidate (fdbRows ready) key 0, fdbRow false false key 3 0 0 0)] } {})
       fun t => (fwdPipe t 63).fdb.length = 1,
     after (.notifyProducerWriteback 3) { ready with fwd := { rings := [(3, { pendingWb := true, producer := 9, obj := image 32 [(16, 8, 64)] })] } } fun t =>
       !(ntfRing t 3).pendingWb && t.out.contains (.hostWrite 64 [9, 0, 0, 0]),
     after (.fdbNtfConsWrite 3 9) ready fun t => tabGet 0 t.host.ntfCons 3 = 9,
     after (.lpmBucketFree 63) (forwarding { freeing := [8, 9], routes := [(1, 2)] } {}) fun t => (fwdPipe t 63).freeing = [9] && t.now = 8,
     hostSlotIn (host { frame := 7, key := 44 } [(hostSlotKey 0 b 3, { key := 44, result := 5 })] []) 0 b 44 = some 3,
     after (.hostBucketReadReturn 7 0) (host { frame := 7, key := 44 } [(hostSlotKey 0 b 3, { key := 44, result := 5 })] []) fun t =>
       !(frameOf t 7).hostDue && (frameOf t 7).hostRes = 81 && countOf (cHostStatus 1) 0 t = 1,
     after (.hostBucketReadReturn 7 0) (host { frame := 7, key := 44 } [] []) fun t => (frameOf t 7).hostRes = 2 && countOf (cHostStatus 2) 0 t = 1,
     after (.hostBucketReadReturn 7 0) (host { frame := 7, key := 44 } [] [(b, 1)]) fun t => hostReads t 0 = [{ frame := 7, key := 44, second := true }]]) = true := by decide +kernel

theorem witness_ForwardingFaultsAreContained : allOf (
    let row := fdbRow true false 9 3 0 0 0
    [after (.fdbLearnFault 63) (forwarding { learnQ := [(1, 2), (3, 4)], learning := true } {}) fun t => raisedFor 24 5 63 t && (fwdPipe t 63).learnQ = [] && countOf cFdbLearnLost 63 t = 2,
     after (.fdbCmdFault 63) (forwarding { window := { session := some 0, busy := true } } {}) fun t => raisedFor 25 5 63 t && (fwdPipe t 63).window.status = 9 && (fwdPipe t 63).window.done,
     after (.hostRead 7 3) { framed [(7, { hostDue := true })] with fwd := { reads := [(0, [{ frame := 7, key := 44 }])] } } fun t => raisedFor 26 7 0 t && loggedAs 0x0626 t &&
       (frameOf t 7).hostRes = 4 && t.fwd.hostBad.length = 1,
     after (.fwdAudit 63 (some 5)) (forwarding { fdb := [(5, row)] } {}) fun t => raisedFor 27 5 63 t && fdbAt t 63 5 = some row,
     after (.fwdAudit 63 (some 5)) (forwarding { fdb := [(5, fdbRow false false 9 3 0 0 0)] } {}) fun t => fdbAt t 63 5 = none,
     after (.fwdAudit 63 none) ready fun t => raisedFor 27 5 63 t && t.fwd = ready.fwd]) = true := by decide +kernel

/-- `framed` with the signature state. -/
def signed (f : Frame) (g : SigState) : State := { framed [(7, f)] with sig := g }

theorem witness_SignatureObjectsReadAndWrite : allOf (
    let prof := image 8 [(0, 1, 255), (1, 1, 8), (2, 1, 1), (3, 1, 15)]
    let rule := image 8 [(0, 1, 1), (4, 2, 9)]
    [after (.sigEngineWrite (mk (image 8 [(1, 1, 1)]))) ready fun t => (engineOf t 0).phase = .loading && t.sig.jobs.length = 1,
     endsWith (.sigProfileWrite (mk prof)) ready .ok,
     after (.sigProfileWrite (mk prof)) ready fun t => sigProfile t 3 255 = putField prof 1 1 0 && sigProfile t 2 255 = sigProfile ready 2 255,
     endsWith (.sigRuleWrite (mk rule)) ready .ok, after (.sigRuleWrite (mk rule)) ready fun t => (tabFind t.sig.sets 0).map SigSet.rules = some [(0, 9)]]) = true := by decide +kernel

theorem witness_InspectionsRunAndFault : allOf (
    let b := List.replicate 64 (0 : Byte)
    let set : SigSet := { ruleCount := 1 }
    let eng : SigEngine := { obj := image 8 [(1, 1, 1)], phase := .active, loaded := some set }
    let prof := [(0, image 8 [(2, 1, 1)])]
    let sig : SigState := { sets := [(0, set)], engines := [(0, eng)], profiles := prof }
    let req := fun (p : ScanPhase) => signed { data := b, place := .inspect, ended := true } { sig with reqs := [(0, [{ frame := 7, cells := 1, scan := p }])] }
    let loads := fun (on : Nat) => [(0, { obj := image 8 [(1, 1, on)], phase := EnginePhase.loading : SigEngine })]
    let load := fun (on : Nat) => { busy with sig := { sig with engines := loads on, jobs := [{ run := 0, engines := [0], data := [5] }] } }
    [after (.sigDispatch 7) { req .queued with sig := { (req .queued).sig with engines := [] } } fun t => countOf cSigNotLoaded 0 t = 1 &&
       (inspReqs t 0).map InspReq.scan = [.done (f7Status 4 b)],
     profileServed (req .queued) 0 0, pickEngine (req .queued) 0 0 = some 0,
     after (.sigDispatch 7) (req .queued) fun t => engineLoad t 0 = 1,
     after (.sigScanDone 7) (req (.scanning 0 0 55 [])) fun t => (inspReqs t 0).map InspReq.scan = [.done 55] && countOf cSigScans 0 t = 1 && countOf cSigNomatch 0 t = 1,
     after (.sigScanDone 7) (req (.scanning 0 0 55 [3])) fun t => countOf cSigMatch 0 t = 1,
     (reqResults (req (.done 55)) 0 { frame := 7, cells := 1, scan := .done 55 }).isSome,
     after (.inspectionReturn 7) (req (.done 55)) fun t => inspReqs t 0 = [] && (frameOf t 8).returned && (frameOf t 8).source = 3 && contOf (frameOf t 8) 295 = 55,
     engineLoad (load 1) 0 = 0, after (.sigReload 0) (load 1) fun t => (engineOf t 0).phase = .active && (engineOf t 0).loaded = some set && (engineOf t 0).loads = 1 &&
       t.sig.jobs = [] && t.host.ended.map (fun e => (e.status, e.data)) = [(.ok, [5])] && loggedAs 0x0702 t,
     after (.sigReload 0) (load 0) fun t => (engineOf t 0).phase = .idle && (engineOf t 0).loaded = none,
     after (.sigStore 0 true 5 none) (req .queued) fun t => raisedFor 28 9 0 t && loggedAs 0x0704 t && t.sig = (req .queued).sig,
     after (.sigStore 0 false 5 none) (req .queued) fun t => raisedFor 28 9 0 t && loggedAs 0x0703 t && (engineOf t 0).phase = .faulted,
     after (.sigStore 0 false 5 (some 7)) (req (.scanning 0 0 55 [])) fun t => (engineOf t 0).phase = .faulted && countOf cSigError 0 t = 1 &&
       (inspReqs t 0).map InspReq.scan = [.done (f7Status 5 b)],
     after (.sigPath 0 7) (req .queued) fun t => raisedFor 29 7 0 t && inspReqs t 0 = [] && countOf (cSwcDrops 0x1D) 0 t = 1]) = true := by decide +kernel

/-! ### The shared buffer and the switching core -/

/-- `framed` with a queued copy 3 of frame 7 on queue 0 of port 0, in DRAM as `z` says. -/
def queued (x : Copy) (z : Option Spilled) (f : BufQueue) : State :=
  { framed [(7, { data := List.replicate 64 0, ended := true, place := .spent })] with
    buf := { copies := [(3, { x with spill := z })], nextCopy := 4, queues := [(0, { f with fifo := [3] })], profiles := [(0, image 32 [(24, 4, 64)])] } }

/-- `queued` with quadrant 0's buffer. -/
def withQuad (b : BufQuad) (s : State) : State := { s with buf := { s.buf with quads := [(0, b)] } }

theorem witness_BufferAndSwitchObjectsReadAndWrite : allOf (
    let pool := image 16 [(4, 4, 65536)]
    let dram := image 8 [(0, 1, 8), (1, 1, 10)]
    let sess := putField (image 96 [(0, 1, 3), (1, 1, 15)]) 12 2 64
    [endsWith (.bufferPoolWrite (mk pool)) ready .ok || endsWith (.bufferPoolWrite (mk (image 16 []))) ready .ok, poolsFit ready, dividedSpills ready = false,
     endsWith (.dramShareWrite (mk dram)) ready .ok, after (.dramShareWrite (mk dram)) ready fun t => dramShare t 3 = putField dram 0 1 0 && dramShare t 0 = dramShare ready 0,
     after (.bufferStatus (mk (image 56 []))) ready fun t => (bufQuad t 0).minFree.getD allCells = freeCells ready 0 && t.host.ended.map Ended.reply = [bufferStatusObj ready 0],
     endsWith (.queueBufferStatus (mk (image 24 []))) (queued { frame := 7, quad := 0, port := 0, queue := 0, cells := [1, 2] } none { peak := 9 }) .ok,
     after (.queueBufferStatus (mk (image 24 []))) (queued { frame := 7, quad := 0, port := 0, queue := 0, cells := [1, 2] } none { peak := 9 }) fun t => (bufQueue t 0).peak = 2,
     badMember (mcastMembers (image 20 [(0, 2, 65535), (4, 2, 2), (16, 2, 3), (18, 2, 5)])) = none,
     after (.mcastGroupWrite (mk (image 20 [(0, 2, 65535), (4, 2, 2), (16, 2, 3), (18, 2, 5)]))) ready fun t => t.time.tagged.length = 1 && t.host.running.length = 1,
     endsWith (.mirrorSessionWrite (mk sess)) ready .ok || endsWith (.mirrorSessionWrite (mk (image 96 []))) ready .ok,
     after (.mirrorSessionWrite (mk (image 96 []))) ready fun t => loggedAs 0x090A t]) = true := by decide +kernel

theorem witness_CopiesSpillReturnAndFault : allOf (
    let c : Copy := { frame := 7, quad := 0, port := 0, queue := 0 }
    let z : Spilled := { seq := 0, slots := [5] }
    let spills := queued { c with cells := [9] } (some z) { spilling := true }
    let inDram := queued c (some { z with written := 1 }) { spilling := true }
    let tight := withQuad { pool := image 16 [(4, 4, 655360)] }
    let aged := fun (s : State) => { s with sw := { queueAge := [(0, image 88 [(8, 4, 1)])] }, time := { copies := [(0, { sec := 1 })] } }
    [nextTurn (bufQuad spills 0).spillTurn (writableQueues spills 0) = some 0, writableCopy spills 0 = some 3, spillAllowed spills 0 4,
     after (.spillWrite 0) spills fun t => ((copyAt t 3).spill.map Spilled.writing) = some true && countOf (cDramBeats 3) 0 t = 4,
     after (.spillWriteDone 0 0) (queued { c with cells := [9] } (some { z with writing := true }) { spilling := true }) fun t => (copyAt t 3).cells = [] &&
       (copyAt t 3).spill = some { z with written := 1 } && countOf cBufSpillWrites 0 t = 1,
     sectionHead inDram 0 = some 3, returnWindow inDram 0 < returnCells (queueProfile inDram 0 0),
     copyAged (aged inDram) (copyAt inDram 3), after (.returnRead 0 0) (aged inDram) fun t => countOf (cSwcDrops 0x2C) 0 t = 1 && countOf cSwcAged 0 t = 1 && (copyAt t 3).spill = none,
     after (.returnRead 0 0) (queued c (some { z with written := 1, bad := true }) { spilling := true }) fun t => countOf (cSwcDrops 0x26) 0 t = 1,
     after (.returnRead 0 0) spills fun t => countOf cBufBypass 0 t = 1 && (copyAt t 3).spill = none && (copyAt t 3).cells = [9],
     sharedFree (tight inDram) 0 < 1, after (.returnRead 0 0) (tight inDram) fun t => countOf cBufStalls 0 t = 1 && ((copyAt t 3).spill.map Spilled.stalled) = some true,
     (takeCells 0 1 inDram).isSome, after (.returnRead 0 0) inDram fun t => (copyAt t 3).cells.length = 1 && (copyAt t 3).shared = 1 &&
       ((copyAt t 3).spill.map Spilled.reading) = some true && countOf cBufReturnReads 0 t = 1,
     after (.returnStallResume 0 0) (queued c (some { z with written := 1, stalled := true }) { spilling := true }) fun t => ((copyAt t 3).spill.map Spilled.reading) = some true,
     after (.returnReadDone 0 0 true) (queued { c with cells := [9] } (some { z with slots := [], reading := true }) { spilling := true }) fun t => (copyAt t 3).spill = none,
     after (.dramShareWindow 0) (withQuad { beats := [(3, 5)] } ready) fun t => (bufQuad t 0).beats = [],
     after (.scrubPassDone 0 0) (withQuad { scrubbing := [(0, 1)] } ready) fun t => (bufQuad t 0).scrubbing = [],
     after (.scrubPassDone 0 3) (withQuad { scrubbing := [(3, 2)] } ready) fun t => (bufQuad t 0).scrubbing = [(3, 1)] && (bufQuad t 0).overruns = [(3, 1)] && loggedAs 0x080B t,
     after (.bufData 0 9) ready fun t => raisedFor 30 7 0 t && (bufQuad t 0).suspect = [(9, 0)],
     after (.bufLink 0 none) ready fun t => raisedFor 31 7 0 t && (bufQuad t 0).rebuilds = [31],
     holders (queued { c with cells := [9] } none {}) 0 9 = [3],
     after (.bufData 0 9) (queued { c with cells := [9] } none {}) fun t => countOf (cSwcDrops 0x26) 0 t = 1,
     after (.bufLink 0 (some 9)) (queued { c with cells := [9] } none {}) fun t => countOf (cSwcDrops 0x26) 0 t = 1 && raisedFor 31 7 0 t,
     after (.bufDesc 0 3 false) (queued { c with cells := [9] } none {}) fun t => countOf (cSwcDrops 0x26) 0 t = 1 && raisedFor 33 7 0 t,
     after (.bufDesc 0 3 true) ready fun t => countOf cBufDescDoubleFrees 0 t = 1 && loggedAs 0x0803 t,
     after (.bufCount 1023 19) ready fun t => raisedFor 34 7 3 t && (bufQueue t 20479).rebuilding && (bufQuad t 3).rebuilds = [34],
     after (.poolRebuild 0) (withQuad { rebuilds := [31, 34] } ready) fun t => (bufQuad t 0).rebuilds = [34] && loggedAs 0x0804 t,
     after (.spillOrder 0 0) (queued c (some z) { spilling := true }) fun t => raisedFor 37 7 0 t && loggedAs 0x080A t && !(bufQueue t 0).spilling,
     after (.dramData 0 50331647) ready fun t => raisedFor 35 10 0 t && (tabGet {} (bufQuad t 0).blocks 3145727).bad,
     after (.dramLink 0) { ready with now := 4 } fun t => raisedFor 36 10 0 t && (bufQuad t 0).retrain = some 4,
     after (.dramRetrain 0) (withQuad { retrain := some 4 } ready) fun t => (bufQuad t 0).retrain = none && loggedAs 0x0809 t,
     after (.dramRequestTimeout 0 7) (withQuad { retrain := some 4 } { framed [(7, { hostDue := true })] with fwd := { reads := [(0, [{ frame := 7, key := 44 }])] } }) fun t =>
       countOf (cHostStatus 4) 0 t = 1 && hostReads t 0 = [] && t.now = 4 + 20 * tUs,
     after (.dramRequestTimeout 0 7) (withQuad { retrain := some 4 } { framed [(7, {})] with mat := { ready.mat with walks := [(0, [{ frame := 7, tree := 2 }])] } }) fun t =>
       countOf (cTreeStatus 5) 0 t = 1 && walkOf t 0 7 = none]) = true := by decide +kernel

/-- A frame at its decision with these metadata. -/
def deciding (f : Frame) (meta_ : List (Nat × Nat)) : State :=
  framed [(7, { f with data := List.replicate 64 0, ended := true, place := .decide, hdr := meta_.map fun e => (288 + e.1, e.2) })]

/-- `ready` with one transfer, of frame 7. -/
def moving (x : Transfer) : State :=
  { framed [(7, { data := List.replicate 64 0, ended := true, place := .spent })] with sw := { transfers := [x], nextTransfer := 6 } }

theorem witness_DecisionsReachTheirQueues : allOf (
    let t0 : Transfer := { id := 5, frame := 7, src := 0, dst := 0, dest := .unicast 0 0 }
    let dest := 2 ^ 15
    [after (.frameDecision 7) (deciding { bad := 255 } []) fun t => countOf (cSwcDrops 255) 0 t = 1,
     after (.frameDecision 7) (deciding {} [(0, 2 ^ 16 * 0x40)]) fun t => countOf (cSwcDrops (dropReasonOf 0x40)) 0 t = 1,
     after (.frameDecision 7) (deciding {} [(6, 2 ^ 8)]) fun t => (frameOf t 7).place = .inspect && (inspReqs t 0).map InspReq.frame = [7],
     after (.frameDecision 7) (deciding { passes := 3 } [(3, 2)]) fun t => (frameOf t 8).passes = 4 && (frameOf t 8).source = 1 && countOf cSwcRecirc 0 t = 1,
     after (.frameDecision 7) (deciding {} []) fun t => countOf (cSwcDrops 0x19) 0 t = 1,
     waitsInOrder (learnRequest 7 (deciding {} [(0, dest)])) 7 = false,
     after (.frameDecision 7) (deciding {} [(0, dest)]) fun t => t.sw.transfers.map (fun x => (x.frame, x.dest, x.place)) = [(7, .unicast 0 0, .admission)],
     (let v := frameOf (deciding {} [(0, dest)]) 7
      let s := framed [(6, { place := .inspect, named := namedDest v }), (7, v)]
      waitsInOrder (learnRequest 7 s) 7 && after (.frameDecision 7) s fun t => (frameOf t 7).place = .ordered && countOf cInspectOrderWaits 0 t = 1),
     admissionWaits (moving t0) t0 = false, portTakes (moving t0) 0, admitReason (moving t0) (copyFor (moving t0) t0 0 0) (reservation (frameOf (moving t0) 7) 0) = 0,
     (takeCells 0 1 (moving t0)).isSome, after (.transferAdmission 5 false) (moving t0) fun t => t.sw.transfers = [] && (bufQueue t 0).fifo = [0] && (copyAt t 0).cells.length = 1,
     (let s := { moving t0 with buf := { profiles := [(0, image 32 [(24, 4, 64)])] } }
      let r := admitReason s (copyFor s t0 0 0) 1
      r != 0 && after (.transferAdmission 5 false) s fun t => countOf (cSwcDrops r) 0 t = 1 && t.buf.copies = []),
     (let x := { t0 with dst := 1, dest := .unicast 256 0, place := .send }
      nextDir x = some 0 && dirUp (moving x) 0 1 && (after (.meshFlitReceived 0 5 0) (moving x) fun t => t.sw.transfers = [{ x with place := .admission }]) &&
        after (.meshFlitReceived 0 5 2) (moving x) fun t => countOf cMeshReplays 0 t = 1),
     (let x := { t0 with dst := 2, dest := .unicast 512 0, place := .send, via := some 1, resv := relayRoom }
      nextDir x = some 0 && (after (.meshFlitReceived 0 5 1) (moving x) fun t => t.sw.transfers = [{ x with place := .arrived }] && countOf cMeshCorrected 0 t = 1) &&
        after (.relayTransfer 5) (moving { x with place := .arrived }) fun t => t.sw.transfers = [{ x with place := .relay }]),
     after (.holdExpiry 0) { ready with sw := { hold := [(0, 4)] } } fun t => t.sw.hold = [] && t.now = 4 && loggedAs 0x0908 t && countOf cSwcFlushes 0 t = 1,
     after (.mcastOldListFree 9) { ready with sw := { groups := [(9, { obj := [1], old := [(4, [2])] })] } } fun t => (tabGet {} t.sw.groups 9).old = []]) = true := by decide +kernel

theorem witness_SwitchFaultsAreContained : allOf (
    let x : Transfer := { id := 5, frame := 7, src := 0, dst := 1, dest := .mcast 9 0, place := .send }
    [after (.meshCreditAudit 11 true) ready fun t => raisedFor 40 12 11 t && t.sw = ready.sw, after (.meshCreditAudit 11 false) ready (· = ready),
     after (.meshRetrain 11) { ready with sw := { dirDown := [(11, 3)] } } fun t => t.sw.dirDown = [] && loggedAs 0x0901 t,
     after (.meshLink 5) ready fun t => raisedFor 39 11 5 t && t.sw.linkDown = [5] && loggedAs 0x0902 t,
     after (.meshTrainRetry 5 true) { ready with sw := { linkDown := [5] } } fun t => t.sw.linkDown = [] && loggedAs 0x0903 t, after (.meshTrainRetry 5 false) ready (· = ready),
     after (.meshMgmt 5) ready fun t => raisedFor 41 11 5 t && t.sw = ready.sw,
     after (.swcRepl 5) (moving { x with place := .admission }) fun t => raisedFor 42 7 1 t && loggedAs 0x090D t && (tabGet {} t.sw.groups 9).reloading = [1],
     after (.swcMirror 3 15) ready fun t => raisedFor 43 13 63 t && loggedAs 0x090D t && (sessionAt t 63).reloading,
     after (.switchReload 3 (some 15) 0) { ready with sw := { sessions := [(63, { reloading := true })] } } fun t => sessionAt t 63 = {},
     after (.switchReload 3 none 9) { ready with sw := { groups := [(9, { reloading := [2, 3] })] } } fun t => (tabGet {} t.sw.groups 9).reloading = [2],
     after (.swcPath 0 (some 5) none) (moving x) fun t => raisedFor 44 7 0 t && countOf (cSwcDrops 0x2A) 0 t = 1 && t.sw.transfers = [],
     after (.swcPath 0 none (some 7)) (framed [(7, { place := .ordered })]) fun t => raisedFor 44 7 0 t && countOf (cSwcDrops 0x2A) 0 t = 1,
     after (.swcPath 0 none none) ready fun t => raisedFor 44 7 0 t && t.sw = ready.sw, after (.swcFlush 1023) ready fun t => raisedFor 45 4 1023 t && t.sw = ready.sw]) = true := by decide +kernel

/-! ### Scheduling, telemetry and power -/

/-- `ready` with port 0's scheduler. -/
def scheduling (v : PortSched) (s : State) : State := { s with sch := { s.sch with ports := [(0, v)] } }

theorem witness_SchedulerObjectsReadAndWrite : allOf (
    let pol := image 32 [(0, 1, 3), (4, 4, 131071)]
    let shp := image 16 [(0, 1, 9), (2, 2, 4095), (8, 4, 1)]
    let ext := fun (n : Nat) => image (16 + n) ([(2, 1, 15), (4, 2, n)] ++ (List.range n).map fun i => (16 + i, 1, 1))
    let gates := image 40 [(2, 1, 1), (4, 2, 2), (24, 1, 255), (28, 4, 8), (36, 4, 9)]
    [endsWith (.policerWrite (mk pol)) ready .ok, after (.policerWrite (mk pol)) ready fun t => policerAt t (4 * 131072 - 1) = { staged := some pol },
     endsWith (.shaperProfileWrite (mk shp)) ready .ok, after (.shaperProfileWrite (mk shp)) ready fun t =>
       tabFind t.sch.shapersStaged (4096 * 3 + 4095) = some (putField shp 0 1 0) && (tabFind t.sch.shapersStaged (4096 + 4095)).isNone,
     after (.portSchedWrite (mk schedPayload)) ready fun t => (portSched t 0).staged = some schedPayload,
     placeLeaves (leavesUsed ready 0 15) 2 = some 0, endsWith (.extQueueWrite (mk (ext 2))) ready .ok,
     after (.extQueueWrite (mk (ext 2))) ready fun t => (extQueue t 15).isSome && loggedAs 0x0A05 t && t.host.ended.map Ended.data = [toLe 4 0],
     after (.extQueueWrite (mk (image 16 [(2, 1, 15)]))) { ready with sch := { ext := [(15, ext 2)] } } fun t => (extQueue t 15).isNone,
     (List.range (gateCount gates)).all fun k => badGateEntry gates (24 + 8 * k) = none,
     endsWith (.gateListWrite (mk gates)) ready .ok, after (.gateListWrite (mk gates)) ready fun t => (portSched t 0).gatesStaged = some gates]) = true := by decide +kernel

theorem witness_RefillsAndGateCyclesApply : allOf (
    let pol := image 32 [(2, 1, 2), (8, 4, 1000), (12, 4, 100)]
    let gates := image 40 [(2, 1, 1), (4, 2, 2), (28, 4, 8), (36, 4, 9)]
    [after (.refillInstant 0) { ready with sch := { policers := [(4, { staged := some pol }), (131072, { staged := some pol })], shapersStaged := [(9, [7])] } } fun t =>
       policerAt t 4 = refillPolicer (applyPolicer { staged := some pol }) && policerAt t 131072 = { staged := some pol } && t.sch.shapersStaged = [] &&
       shaperProfile t 0 9 = [7],
     firesNext (firing 3 0 0 ready) 0 3 9 3,
     gateDue ready 0 gates, after (.gateCycle 3 9) (firing 3 0 0 (scheduling { gatesStaged := some gates, gateEntry := 1 } ready)) fun t => countOf cSchCycles 0 t = 1 &&
       (portSched t 0).gateEntry = 0 && (portSched t 0).gates = some gates && (portSched t 0).gatesStaged = none && (portSched t 0).gateStart.isSome && loggedAs 0x0A01 t,
     after (.gateCycle 3 9) (firing 3 0 0 (scheduling { gates := some gates } ready)) fun t => (portSched t 0).gates = some gates,
     entryOffset gates 1 = 8, after (.gateEntryStart 0) (timed (fun t => { t with copies := [(3, { ns := 8 })] }) (scheduling { gates := some gates, gateStart := some (0, 3) } ready))
       fun t => (portSched t 0).gateEntry = 1,
     after (.gateEntryStart 0) (timed (fun t => { t with copies := [(3, { ns := 7 })] }) (scheduling { gates := some gates, gateStart := some (0, 3) } ready))
       fun t => (portSched t 0).gateEntry = 0]) = true := by decide +kernel

theorem witness_PortsTransmitAndReload : allOf (
    let f : Frame := { data := List.replicate 300 0, ended := true, place := .spent }
    let c : Copy := { frame := 7, quad := 0, port := 0, queue := 0, cells := [9] }
    let one := queued c none {}
    let cls7 := image 128 ((5, 1, 4) :: (8, 1, 7) :: (List.range 20).map fun i => (28 + i, 1, 1))
    let chosen := fun (s : State) (r : SelectRule) => match chooseNow s r 0 with | .copy id _ _ _ _ _ _ => some id | _ => none
    let a : Tx := { copy := 2 }
    let two := { one with
      fr := { frames := [(6, f), (7, f)], next := 8 }
      buf := { one.buf with copies := [(2, { c with frame := 6, queue := 1, started := true }), (3, c)] }
      mac := { ports := [(0, { (macPort ready 0) with preemptPhase := .active, preempt := some (image 8 [(2, 1, 1), (3, 1, 128)]) })] } }
    let cut := scheduling { obj := cls7, tx := some a } two
    [oversizedHead one 0 = none, chosen one {} = some 3, copyAged one c = false,
     after (.schedulerSelect 0 0 0 0) one fun t => ((portSched t 0).tx.map Tx.copy) = some 3 && (copyAt t 3).started && (bufQueue t 0).fifo = [] && countOf cSchFrames 0 t = 1,
     (let s := { one with sw := { queueAge := [(0, image 88 [(8, 4, 1)])] }, time := { copies := [(0, { sec := 1 })] } }
      copyAged s c && after (.schedulerSelect 0 0 0 0) s fun t => (portSched t 0).tx = none && countOf cSwcAged 0 t = 1 && countOf (cSwcDrops 0x2C) 0 t = 1),
     legalPoint cut 0 100 a, chosen (modPortSched 0 (fun y => { y with tx := none, preempted := some { a with sent := 100 } }) cut) { express := true } = some 3,
     after (.schedulerSelect 0 100 0 0) cut fun t => (portSched t 0).preempted = some { a with sent := 100 } && ((portSched t 0).tx.map Tx.copy) = some 3 && countOf cPreFragTx 0 t = 1,
     after (.schedulerSelect 0 0 0 0) (scheduling { preempted := some a } ready) fun t => (portSched t 0).tx = some a && (portSched t 0).preempted = none,
     after (.txFrameEnd 0 false) (scheduling { tx := some { copy := 3 } } one) fun t => (portSched t 0).tx = none && t.out.length = 1 && countOf cTxFrames 0 t = 1,
     after (.cutThroughUnderrun 0 64) (scheduling { tx := some { copy := 3 } } { one with fr := { frames := [(7, { f with ended := false })], next := 8 } }) fun t =>
       (portSched t 0).tx = none && t.out = [.transmit 0 (List.replicate 64 0 ++ badFcs (List.replicate 64 0)) true] && countOf cSwcStomped 0 t = 1 && countOf (cSwcDrops 0x2E) 0 t = 1,
     after (.schState 1023) ready fun t => raisedFor 46 4 1023 t && loggedAs 0x0A03 t && (portSched t 1023).reloading,
     after (.schedReload 0) (scheduling { reloading := true, gateEntry := 3 } ready) fun t => portSched t 0 = { gateEntry := 3 },
     after (.polState 3 131071) ready fun t => raisedFor 47 14 524287 t && loggedAs 0x0A04 t && (policerAt t 524287).reloading,
     after (.policerReload 0 4) { ready with sch := { policers := [(4, { obj := image 32 [(16, 4, 100)], reloading := true })] } } fun t => !(policerAt t 4).reloading]) = true := by decide +kernel

theorem witness_TelemetryObjectsReadAndWrite : allOf (
    let prof := image 40 [(0, 1, 8), (1, 1, 1), (8, 2, 272)]
    let exp := image 32 [(0, 1, 3), (11, 1, 2), (12, 1, 100)]
    [(readBank ready 16 0).isSome, endsWith (.counterRead (mk (image 16 [(0, 1, 1), (10, 1, 1)]))) ready .ok,
     after (.telemetryProfileWrite (mk prof)) ready fun t => telemetryProfile t 3 1 = putField prof 0 1 0 && telemetryProfile t 0 1 = telemetryProfile ready 0 1,
     unitBroken prof = false, after (.exporterWrite (mk exp)) ready fun t => (exporterOf t 3).obj = exp && exporterOf t 0 = exporterOf ready 0,
     after (.observerGrantWrite (mk (image 136 [(0, 1, 1)]))) ready fun t => (tabFind t.tel.grants 1).isSome && loggedAs 0x0C07 t]) = true := by decide +kernel

theorem witness_SnapshotsAndBackgroundTasks : allOf (
    let tel := fun (o : ObserveState) => { ready with tel := o }
    let w := fun (m : Bool) => ({ snap := { seq := 4 }, fired := [(0, 1), (1, 1), (2, 1), (3, 1)], missed := m } : Sweep)
    let exp : Exporter := { obj := image 32 [(1, 1, 1), (10, 2, 1500)], waiting := [[1, 2]] }
    [firesNext (firing 1 0 0 ready) 0 3 9 1, unfired ready.tel.freezes 0 = none,
     after (.counterFreeze 0 3 9) (firing 1 0 0 (tel { counters := [(5, 6)], freezes := [w false] })) fun t => t.tel.freezes.length = 2 && t.tel.freezeSeq = 1,
     after (.counterFreeze 0 3 9) (firing 1 0 0 (tel { freezes := [w false, w false] })) fun t => t.tel.freezeSeq = 0 && countOf cTelFreezeMissed 0 t = 1 && loggedAs 0x0C01 t,
     runningSweep (tel { freezes := [w false] }) 3 = some 0, after (.freezeSweepDone 3) (tel { freezes := [w false] }) fun t => t.tel.freezes.map Sweep.done = [[3]],
     after .freezePublish (tel { freezes := [{ w false with done := [0, 1, 2, 3] }], frozen := some { seq := 3 } }) fun t => t.tel.frozen = some { seq := 4 } && t.tel.previous = some { seq := 3 },
     after (.histogramRollover 0 3 9) (firing 2 0 0 (tel { hist := [(4, 5), (5120 * 64, 6)] })) fun t => t.tel.rolloverSeq = 1 && t.tel.hist = [(5120 * 64, 6)],
     after (.histogramRollover 0 3 9) (firing 2 0 0 (tel { hist := [(4, 5)], rollovers := [w false] })) fun t => t.tel.hist = [(4, 5)] && countOf cTelRolloverMissed 0 t = 1 && loggedAs 0x0C02 t,
     after .rolloverPublish (tel { rollovers := [w false] }) fun t => t.tel.closed = some { seq := 4 },
     firesNext (firing 0x12 0 0 ready) 0 3 9 0x12, after (.telemetryEpoch 3 3 9) (firing 0x12 0 0 (tel { exporters := [(0, exp)] })) fun t => t.tel.exporters = [(0, exp)],
     after (.telemetryEpoch 0 3 9) (firing 0x12 0 0 (tel { exporters := [(0, exp)] })) fun t => (exporterOf t 0).waiting = [] && (exporterOf t 0).seq = 1 && countOf cTelExportFrames 0 t = 1,
     after (.scrubEpoch 0 3 9) (firing 0x11 2 0 ready) fun t => (bufQuad t 0).scrubbing = [(2, 1)],
     after (.scrubEpoch 0 3 9) (firing 0x11 2 0 (withQuad { scrubbing := [(2, 1)] } ready)) fun t => (bufQuad t 0).scrubbing = [(2, 2)],
     after (.backgroundPeriodEnd 0 3) (withQuad { scrubbing := [(3, 2)] } ready) fun t => (bufQuad t 0).scrubbing = [(3, 3)] && loggedAs 0x080B t,
     after (.backgroundPeriodEnd 0 4) { tel { freezes := [w false] } with now := tMs + 2 } fun t => countOf cTelSweepOverruns 0 t = 1,
     after (.backgroundPeriodEnd 0 5) ready fun t => t.pow.overruns = 1,
     after (.backgroundSlotGrant (some 15) none true) (timed (fun t => { t with copies := [(0, { sec := 6, ns := 7 })] }) ready) fun t => engineOf t 15 = { cleanSec := 6, cleanNs := 7 },
     after (.backgroundSlotGrant (some 15) (some 4) false) ready fun t => raisedFor 28 9 15 t && loggedAs 0x0704 t,
     dieOfHist (5120 * 64) = 1, after (.telCounter 1 true (5120 * 64)) ready fun t => raisedFor 51 7 1 t && loggedAs 0x0C04 t && t.tel.histInexact = [(5120 * 64, true)] && countOf cTelInexact 1 t = 1,
     dieOfKey 0 = 0, after (.telCounter 0 false 0) ready fun t => t.tel.inexact = [(0, true)] && raisedFor 51 7 0 t,
     after (.telExport 0 5) (tel { exporters := [(0, exp)] }) fun t => raisedFor 52 16 0 t && loggedAs 0x0C06 t && (exporterOf t 0).down && (exporterOf t 0).waiting = [],
     after (.telExportReload 0) (tel { exporters := [(0, { exp with down := true })] }) fun t => exporterOf t 0 = exp]) = true := by decide +kernel

theorem witness_PowerObjectsReadAndWrite : allOf (
    let cap := image 32 [(4, 1, 6), (7, 1, 1), (8, 1, 100), (14, 1, 5), (16, 1, 80), (17, 1, 40)]
    [endsWith (.powerCapWrite (mk cap)) ready .ok, after (.powerCapWrite (mk cap)) ready fun t => powerCap t = cap && loggedAs 0x0D01 t,
     (readBank ready 0 0).isSome, endsWith (.energyRead (mk (image 16 [(1, 1, 2), (8, 1, 1)]))) ready .ok]) = true := by decide +kernel

theorem witness_PowerLoopsAndAgeing : allOf (
    let pow := fun (p : PowerState) => { ready with pow := p }
    let lane := fun (v : LaneSt) => { ready with lane := { links := [(0, { phase := .active })], lanes := [(0, v)] } }
    [powerFires (firing 0x10 0 0 ready) 0 3 9 0, after (.powerCycle 0 3 9 {}) (firing 0x10 0 0 { ready with now := 6 }) fun t => t.pow.cycleAt = 6 && t.pow.cycle = some 0 && t.pow.last = {},
     after (.bubbleFrameStart 0) (pow { armed := [(0, 5)] }) fun t => t.pow.inForce = [(0, 5)] && t.pow.bubbleAt.length = 1,
     laneState (lane { modeInUse := 2 }) 0 = 7, wantedMode (lane { modeInUse := 2 }) 0 = 0,
     after (.laneEqStep 0) (lane { modeInUse := 2 }) fun t => (laneOf t 0).modeInUse = 0 && !(laneOf t 0).eqReduced,
     u8 (powerCap ready) 17 = 60 || u8 (powerCap ready) 17 ≤ 100,
     after (.laneStepCheck 0 0) (lane { modeInUse := 2, stepAt := some 5, reference := some 1000 }) fun t => (laneOf t 0).modeInUse = 0 && (laneOf t 0).stepAt = none && t.now = 5 + tMs &&
       loggedAs 0x0D0C t && (laneAge t 0).barredUntil = t.now + 86400 * tSec,
     after (.laneStepCheck 0 1000) (lane { modeInUse := 2, stepAt := some 5, reference := some 1000 }) fun t => (laneOf t 0).modeInUse = 2 && (laneOf t 0).stepAt = none,
     after (.energyCalibration 3 2 81921 0) ready fun t => energyScale t 3 2 = 81920 && raisedFor 53 0 0 t, after (.energyCalibration 3 2 52429 0) ready fun t => energyScale t 3 2 = 52429,
     after (.tempSample [5, 6]) ready fun t => (sensorOf t 1).value = 6 && t.now = 100 * tUs && t.pow.sampleAt = t.now,
     after (.thermalTrip 3 19) ready fun t => t.boot.tripped && t.boot.tripRecord = some [3, 19] && t.out = [.pin pinThermtrip false] && t.host = State.reset.host,
     after (.avsResponse 735 false 0 0) (pow { avs := { target := 750, failed := 2 }, vddFull := 700 }) fun t => t.pow.avs = { target := 750, reported := 735 },
     after (.avsResponse 750 false 0 0) (pow { avs := { target := 750 }, vddFull := 700 }) fun t => t.pow.avs.target = 740 || t.pow.avs.target = 750,
     after (.avsResponse 750 true 0 0) (pow { avs := { target := 750 } }) fun t => raisedFor 55 0 0 t && loggedAs 0x0D07 t,
     after (.avsTimeout 0 0) (pow { avs := { failed := 1 } }) fun t => t.pow.avs.failed = 2 && t.flt = ready.flt,
     after (.avsTimeout 0 0) (pow { avs := { failed := 2 } }) fun t => t.pow.avs.failed = 0 && raisedFor 55 0 0 t && loggedAs 0x0D07 t,
     powerFires (firing 0x10 0 1 ready) 0 3 9 1, !(firing 0x10 0 1 ready).time.entries.isEmpty,
     after (.marginEpoch 0 3 9 [(65537, 4)]) (firing 0x10 0 2 ready) fun t => (laneOf t 0).eyeHeight = 1 && (laneOf t 0).eyeWidth = 4 && (laneAge t 0).today.isSome,
     after .heatWorkAccumulate (pow { heatAt := 5 }) fun t => t.now = 5 + tSec && t.pow.heatAt = t.now,
     after .laneReplan { pow { ages := [(3, { today := some (5, 6) })] } with time := { copies := [(0, { sec := 86400 })] } } fun t => t.pow.day = 1 && (laneAge t 3).today = none,
     after .dataAreaSave (pow { heat := [(0, 5)] }) fun t => t.boot.dataArea.heat = [(0, 5)] && t.boot.dataArea.seq = 1 && t.boot.otherArea = ready.boot.dataArea]) = true := by decide +kernel

/-! ### Faults -/

/-- `ready` with these sites and raises on their way. -/
def sited (xs : List Site) (rs : List Raise) : State :=
  { ready with flt := { ready.flt with sites := xs, inFlight := rs }, now := 7 }

/-- `ready` under the shortest policy of bit 30: no grace, the second raise escalates, up to level `top`. -/
def strict (top : Nat) (xs : List Site) (rs : List Raise) : State :=
  let s := sited xs rs
  { s with flt := { s.flt with policy := [(6, { maxLevel := top, repeatLimit := 1, graceMs := 0 }), (60, { maxLevel := top, repeatLimit := 1, graceMs := 0 })] } }

theorem witness_SitesFollowTheirLevels : allOf (
    let x : Site := { bit := 6, kind := 5, index := 5, level := .contained, count := 1 }
    let r : Raise := { bit := 6, kind := 5, index := 5 }
    let full := (List.range 1024).map fun n => ({ bit := 30, kind := 7, index := n } : Site)
    let at_ := fun (t : State) => siteAt t 6 5 5
    let dev : Site := { x with bit := 60, kind := 18, index := 0 }
    [after .faultRaise (sited [] [r]) fun t => at_ t = some { x with last := 7, grace := some (7 + (policyOf ready 6).graceMs * tMs) } && t.flt.raises = 1 && t.flt.latch = 64 && loggedAs 0x0E01 t,
     after .faultRaise (sited [{ x with held := true }] [r]) fun t => at_ t = some { x with held := true, count := 2, last := 7 },
     insideFence (sited [{ x with bit := 7, level := .fenced }, x] [r]) x, after .faultRaise (sited [{ x with bit := 7, level := .fenced }, x] [r]) fun t => at_ t = some { x with count := 2, last := 7 },
     after .faultRaise (strict 3 [] [r]) fun t => at_ t = some { x with last := 7 },
     siteCap (strict 3 [x] [r]) x = 3, after .faultRaise (strict 3 [x] [r]) fun t => (at_ t).map Site.level = some .fenced,
     after .faultRaise (sited full [r]) fun t => t.flt.sites.length = 1024 && raisedFor 62 0 0 t && loggedAs 0x0E09 t,
     after (.graceExpiry 6 5 5) (sited [{ x with grace := some 9, count := 8 }] []) fun t => t.now = 9 && at_ t = some { x with count := 0 },
     after (.graceExpiry 6 5 5) (strict 2 [{ x with grace := some 9, count := 2 }] []) fun t => (at_ t).map Site.level = some .fenced,
     after (.graceExpiry 6 5 5) (strict 1 [{ x with grace := some 9, count := 2 }] []) fun t => loggedAs 0x0E05 t && (at_ t).map Site.level = some .contained,
     after (.graceExpiry 6 5 5) (strict 3 [{ x with grace := some 9, count := 2, level := .fenced }] []) fun t => t.boot.cause = 2 && t.boot.stage = .bisque && t.flt.sites = [],
     after (.graceExpiry 6 5 5) (strict 2 [{ x with grace := some 9, count := 2, level := .fenced }] []) fun t => loggedAs 0x0E05 t && (at_ t).map Site.level = some .fenced,
     fenceOf 60 != .device || after (.graceExpiry 60 18 0) (strict 3 [{ dev with grace := some 9, count := 2 }] []) fun t => t.boot.cause = 2,
     after (.quietExpiry 6 5 5) (sited [x, { x with index := 6 }] []) fun t => t.flt.sites = [{ x with index := 6 }] && loggedAs 0x0E03 t && (policyOf ready 6).quietMs * tMs ≤ t.now]) = true := by decide +kernel

theorem witness_FaultRegistersAndCommands : allOf (
    let x : Site := { bit := 6, kind := 5, index := 5, level := .contained, count := 1 }
    let act := fun (a : Nat) => Instr.faultAction (mk (image 16 [(0, 1, 6), (1, 1, a), (2, 1, 5), (4, 4, 5)]))
    let pol := image 16 [(0, 8, 64), (8, 1, 3), (9, 1, 1), (10, 2, 1), (12, 2, 0), (14, 2, 10)]
    let at_ := fun (t : State) => siteAt t 6 5 5
    let rec4 := fun (n : Nat) => ({ code := 0x0101, seq := BitVec.ofNat 32 n } : KilnRec)
    let logs := { ready with flt := { ready.flt with kiln := [rec4 2, rec4 1, rec4 0], nextSeq := 3, cursor := 1, latching := true } }
    let lat := { ready with flt := { ready.flt with latch := 0xFFFFFFFFFFFFFFFF, halfLatch := [(0x1008, 9)] } }
    [after (.fltLatchWrite (some 1) none) lat fun t => t.flt.latch = 0xFFFFFFFFFFFFFFFE, after (.fltLatchWrite none (some 0x80000000)) lat fun t => t.flt.latch = 0x7FFFFFFFFFFFFFFF,
     after (.fltAlertEnWrite (some 0) none) lat fun t => t.flt.alertEn = 0xFFFFFFFF00000000 && t.flt.latch = lat.flt.latch, after (.klnCursorWrite 0xFFFFFFFF) ready fun t => t.flt.cursor = 0x7FFF && t.flt.latching,
     after (.reg64LowHalfRead 0x1008 false) lat fun t => t.out = [.barRead 0xFFFFFFFF] && t.flt.halfLatch = [(0x1008, 0xFFFFFFFF)],
     after (.reg64LowHalfRead 0x1008 true) lat fun t => t.out = [.barRead 9] && t.flt.halfLatch = [],
     after (.reg64LowHalfRead 0x1010 true) lat fun t => t.out = [.barRead 0xFFFFFFFF] && t.flt.halfLatch = [(0x1008, 9)],
     !barLive State.reset, after (.fltLatchWrite (some 1) none) State.reset (· = State.reset),
     after .klnWindowLatched logs fun t => !t.flt.latching && slice t.flt.window 4 4 = [1, 0, 0, 0] && slice t.flt.window 64 4 = [0, 0, 0, 0],
     endsWith (.faultPolicyWrite (mk pol)) ready .ok, after (.faultPolicyWrite (mk pol)) ready fun t => policyOf t 6 = { maxLevel := 3, repeatLimit := 1, graceMs := 0, quietMs := 10 } && policyOf t 7 = policyOf ready 7,
     endsWith (.faultPolicyRead (mk (image 16 [(0, 8, 64)]))) ready .ok, endsWith (act 1) lat .ok, after (act 1) lat fun t => t.flt.latch = 0xFFFFFFFFFFFFFFBF && loggedAs 0x0E04 t,
     after (act 2) (sited [{ x with grace := some 9 }] []) fun t => at_ t = some { x with held := true } && loggedAs 0x0E04 t && t.host.ended.map Ended.status = [.ok],
     after (act 3) (sited [{ x with held := true }] []) fun t => at_ t = some { x with grace := some (7 + 10 * tMs) },
     after (act 4) (sited [x] []) fun t => (at_ t).map Site.level = some .fenced && t.host.ended.map Ended.status = [.ok],
     after (act 5) (sited [{ x with level := .fenced }] []) fun t => at_ t = none && t.host.ended.map Ended.status = [.ok],
     endsWith (.faultStatus (mk (image 8 [(0, 1, 63)]))) ready .ok, after (.faultStatus (mk (image 8 [(0, 1, 6)]))) (sited [x] []) fun t => t.host.ended.map Ended.reply = [image 32 [(0, 1, 6), (1, 1, 1), (2, 2, 1)]],
     after (.faultSites (mk (image 8 [(0, 4, 1)]))) (sited [x, x] []) fun t => t.host.ended.map Ended.data = [[1, 0, 2, 0]] && t.host.ended.map (·.reply.length) = [16],
     after (.kilnRead (mk (image 8 [(0, 2, 1), (2, 2, 128)]))) logs fun t => t.host.ended.map Ended.data = [[2, 0]] && t.host.ended.map (·.reply.length) = [64],
     after (.kilnClear (mk (image 8 [(0, 4, 1)]))) logs fun t => t.host.ended.map Ended.data = [[2, 0, 0, 0]] && t.flt.kiln.map KilnRec.code = [0x0E0B, 0x0101]]) = true := by decide +kernel

theorem witness_TestModeNeedsItsKey : allOf (
    let pk := fun (f : FaultState → FaultState) => { ready with flt := f { ready.flt with testMode := false, pendingKey := some { key := 5, slot := 0, issued := 0 } } }
    let inj := image 16 [(0, 1, 30), (1, 1, 2), (2, 1, 1), (3, 1, siteKindOf 30), (4, 4, 3), (8, 2, 1)]
    let p : InjPoint := { bit := 30, kind := 2, flags := 1, siteKind := siteKindOf 30, siteIndex := 3, left := 1, intervalUs := 0 }
    let overI3c := { ready with host := { ready.host with slots := [(0, { state := .opened, role := 1, i3c := true })] } }
    [passes opFaultTestEnable (mk []) ready, after (.faultTestEnable (mk [])) { ready with flt := { ready.flt with lockedUntil := 5 } } fun t => t.host.ended.map Ended.status = [.denied] && t.flt.pendingKey = none,
     after (.faultTestEnable (mk [])) { ready with flt := { ready.flt with lockedUntil := 5 }, now := 4 } fun t => t.host.ended.map Ended.status = [.denied],
     roleOf overI3c 0 = 1, endsWith (.faultTestDisable (mk [])) ready .ok, after (.faultTestDisable (mk [])) { ready with flt := { ready.flt with points := [p] } } fun t => !t.flt.testMode && t.flt.points = [],
     after (.fltTestKeyWrite 5) { pk id with now := tSec } fun t => t.flt.testMode && t.flt.testSlot = 0 && t.flt.pendingKey = none && loggedAs 0x0E08 t,
     after (.fltTestKeyWrite 5) { pk id with now := tSec + 1 } fun t => !t.flt.testMode && t.flt.pendingKey = none && t.flt.voided = [tSec + 1],
     after (.fltTestKeyWrite 6) (pk fun f => { f with voided := [0, 0] }) fun t => !t.flt.testMode && t.flt.lockedUntil = 60 * tSec,
     after (.fltTestKeyWrite 6) (pk fun f => { f with voided := [0] }) fun t => t.flt.lockedUntil = 0 && t.flt.voided = [0, 0],
     after .testKeyTimeout (pk id) fun t => t.now = tSec && t.flt.pendingKey = none && !t.flt.testMode,
     after .testKeyLockoutEnd (pk fun f => { f with lockedUntil := 9 }) fun t => t.now = 9 && t.flt.lockedUntil = 0,
     endsWith (.faultInject (mk inj)) ready .ok, after (.faultInject (mk inj)) ready fun t => t.flt.points = [p] && t.flt.latch.getLsbD 63,
     after (.faultInject (mk (putField inj 2 1 0))) { ready with flt := { ready.flt with points := [p] } } fun t => t.flt.points = [] && t.flt.latch = 0]) = true := by decide +kernel

theorem witness_ControlFaultsAreContained : allOf (
    let r : Running := { id := 3, slot := 0, tag := 0, opcode := 0x0C0D, write := false, replyMax := 0, replyAddr := 0 }
    let busy := { ready with host := { ready.host with running := [r, { r with id := 4 }], nextId := 5 } }
    let x : Site := { bit := 6, kind := 5, index := 5, level := .contained, count := 1 }
    [after (.ccMemory true [3] false) busy fun t => raisedFor 57 0 0 t && t.host = busy.host, after (.ccMemory false [3] true) busy fun t => raisedFor 57 0 0 t && t.host.running = [{ r with id := 4 }] && t.host.ended.map Ended.status = [.integrity],
     after (.ccWatchdog 3 [3, 4] false) busy fun t => raisedFor 58 17 3 t && t.host.running = [] && t.host.ended.map Ended.status = [.timeout, .timeout], after (.fwCheck [4] false) busy fun t => raisedFor 59 0 0 t && t.host.running = [r],
     after (.fltSelf [(6, 5, 6), (6, 5, 5), (63, 0, 0)] none) (sited [x, { x with level := .fenced }] []) fun t => raisedFor 62 0 0 t && (t.flt.sites.map fun y => (y.index, y.level)) = [(5, .fenced), (6, .contained)],
     after (.fltSelf [] (some 0)) { ready with flt := { ready.flt with kiln := [{ code := 1 }, { code := 2 }] } } fun t => t.flt.kiln.map KilnRec.bad = [false, true]]) = true := by decide +kernel

/-! ### Host registers, sessions and rings -/

/-- `ready` with slot 0. -/
def slotted (v : Slot) (s : State) : State := { s with host := { s.host with slots := [(0, v)] } }

theorem witness_HostRegistersReadAndWrite : allOf (
    let hw := fun (h : HostState) => { ready with host := { h with linkUp := true } }
    let sl0 : Slot := { ctrl := 0xAA01, state := .opened, cmdHead := 3, cmdProd := 5, cplTail := 9, cplHead := 4 }
    let s0 := slotted sl0 ready
    let off := slotted {} ready
    [barFull ready, after (.invalidBarAccess true false) ready fun t => t.host.errCount = 1 && t.out = [.barRead 0], after (.invalidBarAccess false true) (hw { errCount := 0xFFFFFFFF }) fun t => t.host.errCount = 0xFFFFFFFF,
     after (.registerWrite 0x10 7) ready fun t => t.host.scratch = 7 && t.boot = ready.boot, after (.registerWrite 4 7) ready fun t => t.host = { ready.host with errCount := 1 },
     after (.registerWrite 0x30000 7) ready fun t => msixDword t 0 = 7, after (.registerWrite 0x30BFC 3) ready fun t => msixDword t 767 = 1,
     after (.registerWrite 0x3000C 0) (hw { pba := [(0, true)] }) fun t => t.out = [.vector 0] && !(tabGet false t.host.pba 0),
     after (.registerWrite 0x10008 7) s0 fun t => t.host = { s0.host with errCount := 1 },
     after (.registerWrite 0x10008 7) off fun t => (slotOf t 0).cmdBase = 7, after (.registerWrite 0x11F14 7) off fun t => (slotOf t 31).cplBase = 0x700000000,
     after (.rcCounterRead none) (hw { errCount := 5 }) fun t => t.out = [.barRead 5] && t.host.errCount = 0, after (.rcCounterRead (some 0)) (slotted { faults := 6 } ready) fun t => t.out = [.barRead 6] && (slotOf t 0).faults = 0,
     after (.hstMbxCtrlWrite 0 0) (slotted { i3c := true } ready) fun t => t.host.errCount = 1, after (.hstMbxDb 0 1) (slotted { i3c := true } ready) fun t => t.host.errCount = 1,
     after (.hstMbxCplHeadWrite 0 0) (slotted { i3c := true } ready) fun t => t.host.errCount = 1,
     !mayEnable {} 1 || after (.hstMbxCtrlWrite 0 1) off fun t => (slotOf t 0).state = .pending,
     mayEnable {} 0xAA01, after (.hstMbxCtrlWrite 0 0xAA01) off fun t => slotOf t 0 = { ctrl := 0xAA01 &&& 0x1FF01, state := .pending },
     !mayEnable {} 0xF01, after (.hstMbxCtrlWrite 0 0xF01) off fun t => slotOf t 0 = {} && t.host.errCount = 1,
     after (.hstMbxCtrlWrite 0 0) s0 fun t => slotOf t 0 = { state := .closing } || (slotOf t 0).state = .closing && (slotOf t 0).cmdProd = 0,
     after (.hstMbxCtrlWrite 0 0) (slotted { sl0 with state := .pending } ready) fun t => (slotOf t 0).state = .free,
     doorbellBad 1027 5 3 (cmdEntries sl0) = false, after (.hstMbxDb 0 1027) s0 fun t => (slotOf t 0).cmdProd = 1027,
     doorbellBad 1028 5 3 (cmdEntries sl0), after (.hstMbxDb 0 1028) s0 fun t => (slotOf t 0).cmdProd = 5 && (slotOf t 0).faults = 1 && raisedFor 61 19 0 t,
     consumerBad 9 4 9 (cplEntries sl0) = false, after (.hstMbxCplHeadWrite 0 9) s0 fun t => (slotOf t 0).cplHead = 9,
     consumerBad 10 4 9 (cplEntries sl0), after (.hstMbxCplHeadWrite 0 10) s0 fun t => (slotOf t 0).cplHead = 4 && (slotOf t 0).faults = 1 && raisedFor 61 19 0 t,
     after (.pcieLinkUp 64 8) { ready with host := {} } fun t => t.host.linkUp && t.host.linkSpeed = 64 && t.host.linkWidth = 8 && loggedAs 0x0106 t,
     after (.pcieInterfaceLost false) { s0 with host := { s0.host with rings := [(0, { obj := image 64 [(1, 1, 3)] })] } } fun t => !t.host.linkUp && (slotOf t 0).state = .closing && (slotOf t 0).ctrl = 0 &&
       raisedFor 60 18 0 t && loggedAs 0x0106 t && !rxEnabled (ringOf t 0),
     after (.pcieInterfaceLost true) (slotted { sl0 with i3c := true } ready) fun t => t.host.linkUp && slotOf t 0 = { sl0 with i3c := true },
     after (.sessionCloseDone 0) (slotted { state := .closing, role := 3 } ready) fun t => (slotOf t 0).state = .free && (slotOf t 0).role = 0]) = true := by decide +kernel

/-- `ready` with slot 0 open on I3C as ADMIN, its descriptor `d` submitted, and the target addressed. -/
def onI3c (d : Option Bytes) (f : I3c → I3c) : State :=
  { ready with host := { ready.host with slots := [(0, { i3c := true, state := .opened, role := 1, submitted := d })], i3c := f { dynAddr := some 8 } } }

/-- A descriptor of a command with an inline payload. -/
def desc (opcode : Nat) (p : Bytes) : Bytes := slice (image 24 [(0, 2, opcode), (6, 2, p.length)] ++ p) 0 64

theorem witness_SessionsOpenAndClose : allOf (
    let key := List.replicate 16 (9 : Byte)
    let op := fun (k : Bytes) => Instr.sessionOpen { mk (image 4 [(0, 1, 3)] ++ k) with flags := 0 }
    let at_ := fun (v : Slot) => slotted { v with ctrl := 0xAA01, cmdProd := 1 } { ready with now := 60 * tSec, boot := { ready.boot with dataArea := { keys := [(3, key)] } } }
    let e : Ended := { slot := 0, tag := 5, opcode := 0x0102, status := .ok }
    let r : Running := { id := 0, slot := 0, tag := 5, opcode := 0x0102, write := true, replyMax := 0, replyAddr := 0 }
    let sts := fun (t : State) => t.host.ended.map Ended.status
    let done := fun (v : Slot) (e : Ended) => { slotted v ready with host := { ready.host with slots := [(0, v)], ended := [e] } }
    [endsWith (op key) (at_ { state := .pending }) .ok, after (op key) (at_ { state := .pending }) fun t => (slotOf t 0).state = .opened && (slotOf t 0).role = 3 && loggedAs 0x0101 t,
     after (op [1]) (at_ { state := .pending }) fun t => sts t = [.badarg], endsWith (op (List.replicate 16 0)) (at_ { state := .pending }) .denied,
     after (op (List.replicate 16 0)) (at_ { state := .pending, wrong := [0, 0] }) fun t => (slotOf t 0).lockedUntil = 120 * tSec && countOf cMbxCredential 0 t = 1 && (slotOf t 0).state = .pending,
     after (op (List.replicate 16 0)) (at_ { state := .pending, wrong := [0] }) fun t => (slotOf t 0).lockedUntil = 0,
     after (op key) (at_ { state := .pending, lockedUntil := 60 * tSec + 1 }) fun t => sts t = [.denied] && (slotOf t 0).state = .pending,
     after (op key) (at_ { state := .pending, lockedUntil := 60 * tSec }) fun t => sts t = [.ok], after (op key) (at_ { state := .opened, role := 1 }) fun t => sts t = [.state],
     endsWith (.sessionClose (mk [])) ready .ok, after (.sessionClose (mk [])) ready fun t => (slotOf t 0).draining, endsWith (.sessionSync (mk [])) ready .ok,
     endsWith (.roleKey (mk (image 4 [(0, 1, 2)] ++ key))) ready .ok, after (.roleKey (mk (image 4 [(0, 1, 2)] ++ key))) ready fun t => roleKey t 2 = key && roleKey t 1 = List.replicate 16 0 && loggedAs 0x0109 t,
     mayComplete (done { ctrl := 0xAA01, state := .opened, cplTail := 1023 } e) e, after (.commandCompletion 0) (done { ctrl := 0xAA01, state := .opened, cplTail := 1023, cplBase := 4096 } e) fun t =>
       t.host.ended = [] && (slotOf t 0).state = .free && t.out.contains (.hostWrite (4096 + 32 * 1023) (completionBytes e true)),
     after (.commandCompletion 0) (done { ctrl := 0xAA01, state := .opened, cplTail := 1024, cplHead := 1024, cplBase := 4096 } { e with opcode := 1 }) fun t =>
       (slotOf t 0).cplTail = 1025 && t.out.contains (.hostWrite 4096 (completionBytes { e with opcode := 1 } false)) && countOf cMbxCommands 0 t = 1,
     !mayComplete (done { ctrl := 0xAA01, state := .opened, cplTail := 1024 } e) e,
     after (.commandCompletion 0) (done { i3c := true, state := .opened } { e with opcode := 1 }) fun t => t.host.i3c.queue = [(0, completionBytes { e with opcode := 1 } false)],
     inProgressCount { done { ctrl := 0xAA01, state := .opened } e with host := { ready.host with ended := [e], running := [r] } } 0 = 2,
     opcodeExists 0x0FFF = false, after (.unknownOpcode (mk []) 0x0FFF) ready fun t => sts t = [.notsup], canTake 0x0FFF false 0 ready,
     after (.limitedExit 0) (slotted { limited := true, faultAt := [5, 4] } ready) fun t => !(slotOf t 0).limited && (slotOf t 0).faultAt = [] && t.now = 5 + 10 * tSec,
     after (.limitedCommandTake 0) (slotted { limited := true, lastTake := 3 } ready) fun t => (slotOf t 0).credit && t.now = 3 + 10 * tMs,
     after (.credentialLockoutEnd (some 0)) (slotted { lockedUntil := 3 } ready) fun t => (slotOf t 0).lockedUntil = 0 && t.now = 3,
     after (.credentialLockoutEnd none) (onI3c none fun v => { v with lockedUntil := 3 }) fun t => t.host.i3c.lockedUntil = 0 && t.now = 3]) = true := by decide +kernel

/-- `ready` with ring 2 of slot 0. -/
def ringed (v : Ring) : State := { ready with host := { ready.host with rings := [(2, v)] } }

theorem witness_RingsAndModesAreConfigured : allOf (
    let o := image 32 [(0, 1, 2), (1, 1, 3), (4, 4, 64), (8, 4, 64), (16, 8, 4096), (24, 8, 8192)]
    let v : Ring := { obj := o, rxTail := 3, txTail := 3, rxHead := 1, txHead := 1 }
    let mode := fun (l : List (Nat × Nat × Nat)) => Instr.modeWrite (mk (image 8 l))
    let idle := { ready with mac := {} }
    let sts := fun (t : State) => t.host.ended.map Ended.status
    [after (.hstRxTailWrite 3 5) (ringed v) fun t => t.host.errCount = 1, after (.hstTxTailWrite 63 5) (ringed v) fun t => t.host.errCount = 1,
     after (.hstRxTailWrite 2 65) (ringed v) fun t => ringOf t 2 = { v with rxTail := 65 }, after (.hstRxTailWrite 2 66) (ringed v) fun t => ringOf t 2 = v && (slotOf t 0).faults = 1 && raisedFor 61 19 0 t,
     after (.hstTxTailWrite 2 65) (ringed v) fun t => ringOf t 2 = { v with txTail := 65 }, after (.hstTxTailWrite 2 66) (ringed v) fun t => ringOf t 2 = v && (slotOf t 0).faults = 1 && raisedFor 61 19 0 t,
     endsWith (.dmaRingWrite (mk o)) ready .ok, after (.dmaRingWrite (mk o)) ready fun t => ringOf t 2 = { obj := o } && ringOf t 1 = {},
     ringLocked v (putField o 8 4 128), after (.dmaRingWrite (mk (putField o 8 4 128))) (ringed v) fun t => sts t = [.state] && ringOf t 2 = v,
     after (.dmaRingWrite (mk (putField o 1 1 1))) (ringed v) fun t => ringOf t 2 = { v with obj := putField o 1 1 1, txTail := 0, txHead := 0 },
     passes (opDmaRingWrite true) (mk o) (onI3c (some (desc 0x0105 o)) id), after (.dmaRingWrite (mk o)) (onI3c (some (desc 0x0105 o)) id) fun t => sts t = [.notsup] && t.host.rings = [],
     endsWith (.dmaRingRead (mk (image 32 [(0, 1, 2)]))) (ringed v) .ok, after (.dmaRingRead (mk (image 32 [(0, 1, 63)]))) (ringed v) fun t => t.host.ended.map Ended.reply = [image 32 [(0, 1, 63)]],
     passes opCapRead (mk []) ready, endsWith (.modeRead (mk (image 8 []))) ready .ok || endsWith (.modeRead (mk [])) ready .ok,
     modePermitted ready (image 8 [(0, 1, 4), (3, 1, 1)]) || after (mode [(0, 1, 4), (3, 1, 1)]) ready fun t => sts t = [.state] && t.bufferProfile = 0,
     modePermitted idle (image 8 [(0, 1, 6), (2, 1, 1), (3, 1, 1)]), after (mode [(0, 1, 6), (2, 1, 1), (3, 1, 1)]) idle fun t => t.bufferProfile = 1 && t.tableProfile = 1 && sts t = [.ok] &&
       t.host.ended.map Ended.data = [[6]] && loggedAs 0x0201 t,
     after (mode [(0, 1, 1), (1, 1, 1)]) idle fun t => t.host.running.length = 1 && t.time.switch.run = some 0 && t.time.switch.newEased && sts t = []]) = true := by decide +kernel

theorem witness_RingsCarryFrames : allOf (
    let o := image 32 [(0, 1, 2), (1, 1, 15), (4, 4, 64), (8, 4, 64), (12, 2, 5), (16, 8, 4096), (24, 8, 8192)]
    let v : Ring := { obj := o, rxTail := 2, txTail := 2 }
    let d : Delivery := { ring := 2, frame := 7, reason := 1 }
    let bytes := List.replicate 100 (3 : Byte)
    let s := { ringed v with fr := { frames := [(7, { data := bytes ++ [1, 2, 3, 4], ended := true })], next := 8, deliveries := [d] } }
    let ds := fun (n : Nat) => [image 32 [(8, 2, n), (10, 1, 1), (12, 2, 1023), (16, 4, 77)]]
    let refused := fun (t : State) => (ringOf t 2).txHead = 1 && countOf cDmaTxErrors 2 t = 1 && (slotOf t 0).faults = 1 && t.fr = s.fr
    [nextDelivery s 2 = some d, (deliveryBytes s d).length = 100, after (.hostDelivery 2 [(64, 60), (256, 60)] false) s fun t => (ringOf t 2).rxHead = 2 && t.fr.deliveries = [] &&
       countOf cDmaRxFrames 2 t = 1 && countOf cDmaRxBytes 2 t = 100 && t.out.contains (.hostWrite 256 (List.replicate 40 3)),
     after (.hostDelivery 2 [(64, 60), (256, 60)] true) s fun t => ringOf t 2 = v && countOf cDmaRxFull 2 t = 1, txEnabled v, txTurnOf s 2,
     after (.hostInject 2 (ds 59) bytes true) s refused, after (.hostInject 2 (ds 16380) bytes true) s refused, after (.hostInject 2 [putField (ds 60).head! 12 2 1024] bytes true) s refused,
     after (.hostInject 2 (List.replicate 16 (image 32 [(8, 2, 60)]) ++ ds 60) bytes true) (ringed { v with txTail := 17 }) fun t =>
       (ringOf t 2).txHead = 17 && countOf cDmaTxErrors 2 t = 1 && t.fr.frames = [],
     after (.hostInject 2 (ds 60) bytes false) s fun t => refused t && countOf cIfDiscarded 0 t = 1,
     after (.hostInject 2 (ds 60) bytes true) s fun t => (frameOf t 8).port = 1023 && (frameOf t 8).data.length = 64 && contOf (frameOf t 8) 286 = 77 && (ringOf t 2).txHead = 1 &&
       countOf cDmaTxFrames 2 t = 1 && countOf cDmaTxBytes 2 t = 60 && t.host.txTurn = [(0, 2)],
     after (.irqCoalesceExpiry 2 true) (ringed { v with txIrqAt := some 9 }) fun t => t.now = 9 && (ringOf t 2).txIrqAt = none,
     after (.irqCoalesceExpiry 2 false) (ringed { v with rxIrqAt := some 9, rxIrqWaits := true }) fun t => (ringOf t 2).rxIrqAt = some (9 + 5 * tUs)]) = true := by decide +kernel

/-! ### The I3C target, uploads and images -/

theorem witness_UmlimelFramesAreTaken : allOf (
    let d := desc 0x0101 (image 20 [(0, 1, 3)])
    let s := onI3c none id
    let nack := fun (i : Instr) => after i ready (· = { ready with out := [.i3cNack] })
    let fetched := onI3c none fun v => { v with fetch := some (0, 2) }
    let replies := { fetched with host := { fetched.host with slots := [(0, { i3c := true, state := .opened, reply := [1, 2, 3] })] } }
    [umlimelUp s, after (.umlimelPayload 0 4094 [7, 8] false) s fun t => (slotOf t 0).payload = [(4094, 7), (4095, 8)] && t.host.i3c.lastFrame = some 0,
     after (.umlimelPayload 0 4095 [7, 8] false) s fun t => (slotOf t 0).payload = [] && countOf cIfDiscarded 1 t = 1,
     after (.umlimelFetch 0 4095 false) s fun t => t.host.i3c.fetch = some (0, 4095), after (.umlimelCommand 0 d true) (onI3c none fun v => { v with hdr := true }) fun t => (slotOf t 0).submitted = some d,
     after (.umlimelCommand 0 d false) (onI3c (some d) id) fun t => slotOf t 0 = slotOf (onI3c (some d) id) 0 && t.host.ended.map Ended.status = [.busy],
     freeSlot s = some 1, after (.umlimelCommand 0xFF d false) { s with now := 5 * tUs } fun t => (slotOf t 1).state = .pending && (slotOf t 1).i3c && (slotOf t 1).submitted = some d,
     (let full := { s with host := { s.host with slots := (List.range 32).map fun n => (n, { state := .pending }) } }
      freeSlot full = none && after (.umlimelCommand 0xFF d false) full fun t => t.host.ended.map Ended.status = [.nores]),
     after (.umlimelFrameInvalid 0 false) s fun t => countOf cIfDiscarded 1 t = 1 && (slotOf t 0).faults = 1, after (.umlimelFrameInvalid 32 false) s fun t => countOf cIfDiscarded 1 t = 1,
     after (.umlimelPayload 32 0 [] false) s fun t => countOf cIfDiscarded 1 t = 1, after (.umlimelFetch 1 0 false) s fun t => countOf cIfDiscarded 1 t = 1,
     i3cUp ready && !umlimelUp ready, nack (.umlimelPayload 0 0 [] false), nack (.umlimelCommand 0 d false), nack (.umlimelFetch 0 0 false), nack (.umlimelFrameInvalid 0 false), nack (.umlimelRead false),
     after (.umlimelRead false) replies fun t => t.out = [.i3cRead [2, 0, 1, 0, 3]] && t.host.i3c.fetch = some (0, 3),
     after (.umlimelRead false) (onI3c none fun v => { v with queue := [(31, [9])] }) fun t => t.out = [.i3cRead [1, 31, 32, 0, 9]] && t.host.i3c.queue = [],
     after (.umlimelRead false) s fun t => t.out = [.i3cRead [0, 0, 0, 0]],
     alertOn { ready with flt := { ready.flt with latch := 1 } }, (let a := onI3c none fun v => { v with events := true, alertIbi := some 5 }
      after (.ibiRetry true) { a with flt := { a.flt with latch := 1 } } fun t => t.out = [.ibi 0x40] && t.now = 5 + 100 * tUs),
     after (.ibiRetry false) (onI3c none fun v => { v with events := true, completionIbi := some 5, queue := [(31, [])] }) fun t => t.out = [.ibi 0x3F] && t.now = 5 + 100 * tUs]) = true := by decide +kernel

theorem witness_CommonCommandCodesAct : allOf (
    let s := onI3c none fun v => { v with hdr := true, mwl := 70, mrl := 71 }
    let v := fun (t : State) => t.host.i3c
    let answers := fun (i : Instr) (b : Bytes) => after i s (fun t => t.out = [.i3cRead b] && !(v t).hdr) && after i ready fun t => t.out = [.i3cNack]
    [after (.enec 1) s fun t => (v t).events && !(v t).hdr, after (.enec 2) s fun t => !(v t).events, after (.disec 1) (onI3c none fun v => { v with events := true }) fun t => !(v t).events,
     after .rstdaa s fun t => (v t).dynAddr = none, after (.entdaa 9) ready fun t => (v t).dynAddr = some 9 && loggedAs 0x0108 t, after (.setdasa 9) ready fun t => (v t).dynAddr = some 9,
     after (.entdaa 9) s fun t => (v t).dynAddr = some 8, after (.setdasa 9) s fun t => (v t).dynAddr = some 8, after (.setnewda 9) s fun t => (v t).dynAddr = some 9 && loggedAs 0x0108 t,
     after (.setnewda 9) ready fun t => (v t).dynAddr = none, after (.setmwl 67) s fun t => (v t).mwl = 70, after (.setmwl 68) s fun t => (v t).mwl = 68,
     after (.setmrl 67) s fun t => (v t).mrl = 71, after (.setmrl 68) s fun t => (v t).mrl = 68, answers .getmwl [0, 70], answers .getmrl [0, 71, 1], answers .getbcr [6], answers .getdcr [0],
     after .getpid ready fun t => t.out = [.i3cNack], after .getstatus ready fun t => t.out = [.i3cNack], after .getmxds ready fun t => t.out = [.i3cNack],
     after .getstatus s fun t => t.free = 1 && t.out.length = 1, after .getmxds s fun t => t.free = 1 && t.out.length = 1, after .getpid s fun t => t.out.length = 1,
     after .enthdr0 (onI3c none id) fun t => (v t).hdr, after (.rstact 1) s fun t => (v t).fetch = none && countOf cIfLinkDowns 1 t = 1, after (.rstact 0) s fun t => (v t).mwl = 70 && countOf cIfLinkDowns 1 t = 0,
     after (.hstLink 1 true) s fun t => countOf cIfCorrected 1 t = 1, after (.hstLink 0 false) s fun t => raisedFor 60 18 0 t && countOf cIfDiscarded 0 t = 1 && t.host = s.host,
     after (.hstLink 1 false) s fun t => raisedFor 60 18 1 t && (v t).fetch = none && !(v t).hdr]) = true := by decide +kernel

/-- A program image of one parser section: node 0, valid and TERMINAL, is the start of every kind. -/
def smallImage : Bytes :=
  let b := image 240 [(0, 4, 0x49584246), (4, 2, 1), (7, 1, 1), (8, 2, 1), (12, 4, 5), (16, 4, 240), (64, 8, 0xFFFFFFFFFFFFFFFF), (192, 1, 1), (193, 1, 255), (196, 4, 208),
    (200, 4, 32), (212, 2, 1), (224, 1, 3)]
  putField b 20 4 (crc32c (b.drop 24))

/-- A signature set of one state and one rule. -/
def smallSet : Bytes :=
  let b := image 42 [(0, 4, 0x53584246), (4, 2, 1), (8, 4, 1), (20, 2, 1), (24, 4, 6), (34, 2, 0xFFFF)]
  putField b 28 4 (crc32c (b.drop 32))

/-- `ready` with an upload of slot 0 that holds all these bytes. -/
def uploaded (k : Nat) (b : Bytes) : State :=
  { ready with host := { ready.host with uploads := [(k, { claim := some 0, length := b.length, bytes := tabFill 0 0 b [], written := [(0, b.length)] })] } }

theorem witness_UploadsImagesAndFirmwareApply_begin : allOf (
    let beg := fun (n : Nat) => mk (image 16 [(0, 4, n), (4, 4, 8)])
    let up := fun (k : Nat) => { ready with host := { ready.host with uploads := [(k, { claim := some 0, length := 4096 })] } }
    let has := fun (k : Nat) (t : State) => uploadOf t k = { claim := some 0, length := 4096, crc := 8 }
    let put := fun (k : Nat) (t : State) => (uploadOf t k).bytes = [(8, 5)] && (uploadOf t k).written = [(8, 1)]
    let chunk := mk (image 8 [(0, 4, 8)] ++ [5])
    [endsWith (.imageBegin (beg 4096)) ready .ok, after (.imageBegin (beg 4096)) (up 0) (has 0), endsWith (.sigSetBegin (beg 4096)) ready .ok, after (.sigSetBegin (beg 4096)) (up 1) (has 1),
     endsWith (.fwBegin (beg 4096)) ready .ok, after (.fwBegin (beg 4096)) (up 2) (has 2), endsWith (.imageChunk chunk) (up 0) .ok, after (.imageChunk chunk) (up 0) (put 0),
     endsWith (.sigSetChunk chunk) (up 1) .ok, after (.sigSetChunk chunk) (up 1) (put 1), endsWith (.fwChunk chunk) (up 2) .ok, after (.fwChunk chunk) (up 2) (put 2)]) = true := by decide +kernel

theorem witness_UploadsImagesAndFirmwareApply_verify : allOf (
    [(match uploadWhole (uploaded 0 smallImage) 0 0 with | .ok b => b == smallImage | _ => false), imageBad 0 smallImage == none,
     endsWith (.imageVerify (mk [])) (uploaded 0 smallImage) .ok, after (.imageVerify (mk [])) (uploaded 0 smallImage) fun t => t.mat.staged = smallImage && t.host.ended.map Ended.data = [[5, 0, 0, 0, 1, 0]] &&
       (uploadOf t 0).claim = none && loggedAs 0x0501 t]) = true := by decide +kernel

theorem witness_UploadsImagesAndFirmwareApply_apply : allOf (
    let app := fun (m : MatState) => { { ready with mac := {} } with mat := { m with staged := smallImage } }
    let img : MatState := { applying := smallImage, applyState := 1, applyLeft := 1 }
    let noPorts := fun (m : MatState) => { ready with mac := {}, mat := m }
    [endsWith (.imageApply (mk (image 16 [(0, 8, 3)]))) (app {}) .pending, after (.imageApply (mk (image 16 [(0, 8, 3)]))) (app {}) fun t => t.mat.applying = smallImage && t.mat.applyLeft = 3,
     (let s := noPorts img
      framesInside s 0 == false && pipeStill s 0 == false && pipePortEnabled s 0 == false && (after (.imagePipelineApply 0) s fun t => (matPipe t 0).imageId = 5 && (matPipe t 0).imageLoaded && (matPipe t 0).epoch = 1 &&
        t.mat.applied = 1 && t.mat.applyLeft = 0 && t.mat.applyState = 2 && loggedAs 0x0530 t)),
     (let s := { noPorts img with fr := { frames := [(7, { pipe := 0, stage := 3, place := .running })] } }
      framesInside s 0 && after (.imagePipelineApply 0) s fun t => (matPipe t 0).imageHeld && t.mat.applyLeft = 1),
     endsWith (.imageUnload (mk (image 8 [(0, 8, 2)]))) (noPorts { pipes := [(1, { imageId := 5, imageLoaded := true })] }) .ok,
     after (.imageUnload (mk (image 8 [(0, 8, 2)]))) (noPorts { pipes := [(1, { imageId := 5, imageLoaded := true })] }) fun t => (matPipe t 1).imageId = 0 && !(matPipe t 1).imageLoaded,
     endsWith (.imageStatus (mk (image 32 []))) ready .ok || endsWith (.imageStatus (mk [])) ready .ok]) = true := by decide +kernel

theorem witness_UploadsImagesAndFirmwareApply_sets : allOf (
    [sigSetBad smallSet = none, endsWith (.sigSetCommit (mk (image 8 [(0, 1, 8), (1, 1, 15)]))) (uploaded 1 smallSet) .ok,
     after (.sigSetCommit (mk (image 8 [(0, 1, 8), (1, 1, 15)]))) (uploaded 1 smallSet) fun t => tabFind t.sig.sets 63 = some (sigSetOf smallSet) && (uploadOf t 1).claim = none,
     (let s := { uploaded 1 smallSet with sig := { engines := [(15, { obj := image 16 [(1, 1, 1), (2, 1, 15)] })] } }
      enginesOfSet s 8 15 = [15] && after (.sigSetCommit (mk (image 8 [(0, 1, 8), (1, 1, 15)]))) s fun t => t.host.running.length = 1 && (engineOf t 15).phase = .loading && t.sig.jobs.length = 1)]) = true := by decide +kernel

theorem witness_UploadsImagesAndFirmwareApply_firmware : allOf (
    let fw : FwImage := { check := 0, version := 3, stateFormat := 2, adoptFrom := 1 }
    let boot := fun (b : BootState) => { ready with boot := { b with stage := .ready, resetLow := false, romRan := true, capsReady := true } }
    let sts := fun (t : State) => t.host.ended.map Ended.status
    [after (.fwWritten true) (boot { update := { writing := some (1, fw) } }) fun t => t.boot.slots = [(1, fw)] && t.boot.update = { state := 3 } && loggedAs 0x0F01 t,
     after (.fwWritten false) (boot { update := { writing := some (1, fw) } }) fun t => t.boot.slots = [] && t.boot.update.state = 4 && t.boot.update.last = 9 && loggedAs 0x0F02 t,
     endsWith (.fwActivate (mk (image 8 [(0, 1, 1)]))) (boot { slots := [(1, fw)] }) .ok, after (.fwActivate (mk (image 8 [(0, 1, 1)]))) (boot { slots := [(1, fw)] }) fun t => t.boot.dataArea.nextSlot = 1 && t.boot.warmDue = none && loggedAs 0x0F03 t,
     after (.fwActivate (mk (image 8 [(0, 1, 1), (1, 1, 1)]))) (boot { slots := [(1, fw)], running := { fw with stateFormat := 2 } }) fun t => t.boot.warmDue = some (2, 1) && sts t = [.ok],
     after (.fwActivate (mk (image 8 [(0, 1, 1), (1, 1, 1)]))) (boot { slots := [(1, fw)], running := { fw with stateFormat := 3 } }) fun t => t.boot.warmDue = none && sts t = [.state],
     endsWith (.fwStatus (mk (image 24 []))) ready .ok || endsWith (.fwStatus (mk [])) ready .ok]) = true := by decide +kernel

/-! ### Reset, start-up, the test access port and the stated rules -/

/-- `ready` with its boot state changed. -/
def booted (f : BootState → BootState) : State := { ready with boot := f ready.boot }

/-- A device whose ROM has run, before the glaze stage, with a valid image in slot 1. -/
def bisque (f : BootState → BootState) : State :=
  { State.reset with boot := f { resetLow := false, romRan := true, slots := [(1, { check := 0, version := 3, security := 2, raiseMinimum := true, stateFormat := 2, adoptFrom := 1 })] } }

theorem witness_ResetLeavesTheResetState : allOf (
    let s := booted fun b => { b with tripRecord := some [1], slots := [(0, { check := 0 })], resetAt := some 9, securityMin := 3 }
    let low := booted fun b => { b with resetLow := true, resetLowSince := 5, tripRecord := some [1], slots := [(0, { check := 0 })] }
    let logs := fun (s : State) => { s with flt := { s.flt with kiln := [{ code := 0x101 }] } }
    [after (.resetNAssert false false) (logs s) fun t => t.host = State.reset.host && t.boot.resetLow && t.boot.cause = 4 && t.flt.kiln.map KilnRec.preReset = [true] && t.boot.securityMin = 3 && t.boot.slots = s.boot.slots,
     after (.resetNAssert false true) ready fun t => t.boot.cause = 1 && t.boot.stage = .bisque,
     after (.resetNDeassert 3) low fun t => !t.boot.resetLow && t.boot.strap = 3 && t.now = 5 + 10 * tUs && t.boot.t0 = t.now,
     after (.powerOn none) (logs low) fun t => t.boot.cause = 0 && t.boot.tripRecord = none && t.flt.kiln = [] && t.boot.slots = low.boot.slots,
     after (.powerOn (some { slot1 := { check := 0 }, copyB := true })) (logs low) fun t => tabGet {} t.boot.slots 1 = { check := 0 } && tabGet {} t.boot.slots 0 = {} && t.boot.dataArea.validB && !t.boot.dataArea.validA,
     endsWith (.deviceReset (mk [])) ready .ok, after (.deviceReset (mk [])) ready fun t => t.boot.resetAt = some (10 * tMs),
     after .softwareReset (logs s) fun t => t.boot.cause = 3 && !t.boot.resetLow && t.now = 9 && t.host = State.reset.host && t.flt.kiln.length = 1]) = true := by decide +kernel

theorem witness_StartUpReachesReady : allOf (
    let rom := bisque fun b => { b with romRan := false }
    let gl := fun (f : BootState → BootState) => { ready with boot := f { (bisque id).boot with stage := .glazeInit } }
    [after (.q0PllLock 0) rom fun t => t.boot.romRan && t.boot.stage = .bisque && t.pow.avs.target = 750, after (.q0PllLock 3) rom fun t => t.boot.stage = .failed && t.boot.bootError = 3 && t.boot.failedInBisque && loggedAs 0x0F14 t,
     after (.q0PllLock 1) rom fun t => t.boot.bootError = 1,
     clocked (bisque id), after (.glazeInit true false) (bisque fun b => { b with strap := 2 }) fun t => t.boot.stage = .glazeInit && t.boot.slot = 1 && t.boot.running.version = 3,
     after (.glazeInit false false) (bisque fun b => { b with strap := 1 }) fun t => t.boot.stage = .failed && t.boot.bootError = 5, after (.glazeInit false true) (bisque fun b => { b with strap := 2 }) fun t => t.boot.stage = .failed,
     after (.glazeInit false false) (bisque fun b => { b with dataArea := { validB := true, nextSlot := 1, trials := [(1, 2)] } }) fun t => t.boot.stage = .glazeInit && t.boot.slot = 1 && t.boot.dataArea.trials = [(1, 3)],
     after (.glazeRetry 1 0 7) (gl fun b => { b with tries := [(1, 1)] }) fun t => loggedAs 0x0F12 t && t.boot.tries = [(1, 2)] && t.boot.stage = .glazeInit,
     glazeError 2 = some 0x10, after (.glazeRetry 1 0 7) (gl fun b => { b with tries := [(1, 2)] }) fun t => t.boot.stage = .failed && t.boot.bootError = 0x10 && loggedAs 0x0F14 t,
     (gl id).boot.stage = .glazeInit]) = true := by decide +kernel

theorem witness_WarmRestartsKeepTheDatapath : allOf (
    let r : Running := { id := 0, slot := 0, tag := 5, opcode := 0x0B01, write := true, replyMax := 0, replyAddr := 0 }
    let due := fun (l : List Nat) => let s := booted fun b => { b with warmDue := some (1, 1), warmTimes := l }
      { s with host := { s.host with running := [r], nextId := 1, uploads := [(2, { claim := some 0 })] }, mat := { openBatch := [(0, [[1]])] }, fr := { next := 9 } }
    let warm := fun (f : BootState → BootState) => booted fun b => f { b with stage := .warmRestart, warmTarget := 1, slots := (bisque id).boot.slots, slot := 0, running := { check := 0, stateFormat := 2 } }
    [activateWaits (due []) = false, after .warmRestartStart (due [0]) fun t => t.boot.stage = .warmRestart && t.boot.warmTarget = 1 && t.boot.warmDue = none && !t.boot.capsReady && t.host.running = [] &&
       t.mat.openBatch = [] && (uploadOf t 2).claim = none && t.fr.next = 9,
     after .warmRestartStart (due [0, 0]) fun t => t.boot.cause = 5 && t.boot.stage = .bisque,
     warmSlot false false (warm id) = some 1, after (.warmRestartDone false false true) (warm id) fun t => t.boot.stage = .ready && t.boot.slot = 1 && t.boot.capsReady && t.boot.running.version = 3,
     warmSlot true false (warm id) = none, after (.warmRestartDone true false true) (warm id) fun t => t.boot.cause = 5 && t.boot.stage = .bisque, after (.warmRestartDone false false false) (warm id) fun t => t.boot.cause = 5]) = true := by decide +kernel

theorem witness_TestPortAndSupplies : allOf (
    let low := booted fun b => { b with resetLow := true }
    let tap := fun (t : State) => t.boot.tap
    [after (.bypass [true, false]) ready fun t => (tap t).instr = .bypass && (tap t).shifted = [false] && t.out = [.tdo [false, true]], after (.highz [true]) low fun t => (tap t).shifted = [true] && t.out.contains (.tdo [false]),
     after (.clamp []) low fun t => (tap t).instr = .clamp && (tap t).shifted = [false], after (.extest [true] [true]) ready fun t => t.out = [.tdo [false]] && (tap t).shifted = [true],
     !testWorks ready, testWorks low, testWorks (bisque fun b => { b with strap := 3 }), !testWorks (bisque fun b => { b with strap := 1 }),
     after (.samplePreload [true] [false]) low fun t => t.out.contains (.tdo [true]) && (tap t).shifted.length = 6262, after (.extest [true] [false, true]) low fun t => (tap t).latched.length = 6262 && (tap t).latched.getLastD false,
     stops (.supplyLeavesRange 0 (-301)) ready, stops (.supplyLeavesRange 7 1401) ready, after (.supplyLeavesRange 0 1659) ready fun t => !t.boot.powered && t.boot.cause = 0 && t.out.length = 8 && t.free = 8,
     after (.supplyLeavesRange 0 1660) ready (· = ready), after (.supplyLeavesRange 1 820) { ready with flt := { ready.flt with kiln := [{ code := 1 }] } } fun t => t.flt.kiln = [] && t.boot = ready.boot,
     after (.supplyLeavesRange 2 900) ready (· = ready), after (.supplyLeavesRange 7 (-300)) ready (· = ready)]) = true := by decide +kernel

theorem witness_CommandsWaitForReady : allOf (
    let c := mk (image 8 [])
    let warm := booted fun b => { b with stage := .warmRestart }
    let failed := booted fun b => { b with stage := .failed }
    let sts := fun (t : State) => t.host.ended.map Ended.status
    [after (.laneStatus c) warm (· = warm), after (.unknownOpcode c 0x0FFF) warm (· = warm), canTake 0x0405 false 0 failed, after (.portConfigRead (mk (image 16 []))) failed fun t => sts t = [.state] && t.fr = failed.fr,
     after (.powerCapWrite (mk [])) failed fun t => sts t = [.state], after (.kilnRead (mk (image 8 [(2, 2, 1)]))) failed fun t => sts t = [.ok]]) = true := by decide +kernel

theorem witness_CapReadAnswersTheRegion : allOf (
    let early := booted fun b => { b with capsReady := false }
    [passes opCapRead (mk []) ready, passes opCapRead (mk []) early, after (.capRead (mk [])) early fun t => t.host.ended.map Ended.status = [.state] && t.flt = early.flt, barFull ready && ready.boot.capsReady]) = true := by decide +kernel

theorem witness_SecurityMinimumIsRaisedAtReady : allOf (
    let v : FwImage := { check := 0, security := 2, raiseMinimum := true }
    let s := booted fun b => { b with stage := .glazeInit, running := v, securityMin := 1 }
    let w := booted fun b => { b with stage := .warmRestart, slots := [(0, v)], running := { check := 0 }, securityMin := 1 }
    [s.boot.stage = .glazeInit, s.boot.running.raiseMinimum, s.boot.securityMin < s.boot.running.security,
     warmSlot false false w = some 0, after (.warmRestartDone false false true) w fun t => t.boot.securityMin = 2, readCheck { w with boot := { w.boot with securityMin := 3 } } 0 false = 5]) = true := by decide +kernel

theorem witness_WarmActivationNeedsAnAdoptableState : allOf (
    let v : FwImage := { check := 0, stateFormat := 4, adoptFrom := 2 }
    let at_ := fun (f : Nat) (v : FwImage) => booted fun b => { b with slots := [(1, v)], running := { check := 0, stateFormat := f } }
    let c := mk (image 8 [(0, 1, 1), (1, 1, 1)])
    let sts := fun (t : State) => t.host.ended.map Ended.status
    [passes opFwActivate c (at_ 2 v), after (.fwActivate c) (at_ 1 v) fun t => sts t = [.state] && t.boot = (at_ 1 v).boot, after (.fwActivate c) (at_ 5 v) fun t => sts t = [.state],
     after (.fwActivate c) (at_ 3 { v with check := 2 }) fun t => sts t = [.state], after (.fwActivate c) (at_ 2 v) fun t => sts t = [.ok] && t.boot.warmDue = some (2, 1), after (.fwActivate c) (at_ 4 v) fun t => sts t = [.ok] && t.boot.dataArea.nextSlot = 1]) = true := by decide +kernel

/-! ### Ill-formed commands are refused -/

/-- Whether the first command is ill-formed and the second is not. -/
def refusesOnly (bad good : Instr) : Bool := !bad.wellFormed && good.wellFormed

theorem test_wellFormed_refuses : allOf (
    let c := mk []
    let pins := fun (n : Nat) => List.replicate n false
    let bytes := fun (n : Nat) => List.replicate n (0 : Byte)
    [refusesOnly (.timeGet { c with payload := bytes 4097 }) (.timeGet { c with payload := bytes 4096 }), refusesOnly (.unknownOpcode c 0) (.unknownOpcode c 1),
     refusesOnly (.eyePointDone 0 4 5) (.eyePointDone 0 4 4), refusesOnly (.fecCodewordDecoded 0 17) (.fecCodewordDecoded 0 16),
     refusesOnly (.rxFrameHead 0 (bytes 65) false 0 0) (.rxFrameHead 0 (bytes 64) false 0 0), refusesOnly (.hostDelivery 0 [(0, 65536)] false) (.hostDelivery 0 [(0, 65535)] false),
     refusesOnly (.hostInject 0 [bytes 31] [] true) (.hostInject 0 [bytes 32] [] true), refusesOnly (.gaugeEpoch 0 0 0 (List.replicate 65 0)) (.gaugeEpoch 0 0 0 (List.replicate 64 0)),
     refusesOnly (.glazeReady [[], [], [], [], []]) (.glazeReady [[], [], [], []]), refusesOnly (.glazeReady [List.replicate 65 0]) (.glazeReady [List.replicate 64 0]),
     refusesOnly (.fltSelf [(63, 0, 0)] none) (.fltSelf [(62, 0, 0)] none), refusesOnly (.reg64LowHalfRead 0x1004 false) (.reg64LowHalfRead 0x1008 false),
     refusesOnly (.registerWrite 2 0) (.registerWrite 4 0), refusesOnly (.pcieLinkUp 3 8) (.pcieLinkUp 64 8), refusesOnly (.pcieLinkUp 64 3) (.pcieLinkUp 2 1),
     refusesOnly (.umlimelPayload 256 0 [] false) (.umlimelPayload 255 0 [] false), refusesOnly (.umlimelPayload 0 65536 [] false) (.umlimelPayload 0 65535 [] false),
     refusesOnly (.umlimelPayload 0 0 (bytes 65) false) (.umlimelPayload 0 0 (bytes 64) false), refusesOnly (.umlimelCommand 256 [] false) (.umlimelCommand 255 [] false),
     refusesOnly (.umlimelCommand 0 (bytes 65) false) (.umlimelCommand 0 (bytes 64) false), refusesOnly (.umlimelFetch 256 0 false) (.umlimelFetch 255 0 false),
     refusesOnly (.umlimelFetch 0 65536 false) (.umlimelFetch 0 65535 false), refusesOnly (.umlimelFrameInvalid 256 false) (.umlimelFrameInvalid 255 false),
     refusesOnly (.samplePreload (pins 6263) []) (.samplePreload (pins 6262) []), refusesOnly (.extest (pins 6263) []) (.extest (pins 6262) []),
     refusesOnly (.extestPulse (pins 6263) []) (.extestPulse (pins 6262) []), refusesOnly (.extestTrain (pins 6263) []) (.extestTrain (pins 6262) [])]) = true := by decide +kernel

/-! ### A firmware image -/

/-- The bytes of a firmware image that are not zero; its CRC register is zero after four bytes of its body and stays so. -/
def firmwareCells : Store Byte :=
  [(0, 0x46), (1, 0x42), (2, 0x58), (3, 0x46), (4, 1), (6, 0x80), (7, 1), (8, 7), (12, 2), (21, 16), (24, 255), (25, 255), (26, 255), (27, 255),
   (64, 4), (384, 255), (385, 255), (386, 255), (387, 255)]

/-- A firmware image of 4,096 bytes. -/
def smallFirmware : Bytes := tabRange 0 firmwareCells 0 4096

/-- `ready` with that image uploaded. -/
def firmwareUp : State :=
  { ready with host := { ready.host with uploads := [(2, { claim := some 0, length := 4096, bytes := firmwareCells, written := [(0, 4096)] })] } }

theorem test_firmware_byte (i : Nat) : tabGet (0 : Byte) firmwareCells (384 + i) = if i < 4 then 255 else 0 := by
  match i with
  | 0 | 1 | 2 | 3 => rfl
  | n + 4 =>
    have h : ¬ n + 4 < 4 := by omega
    have g : ∀ k, k ≤ 387 → (k == 384 + (n + 4)) = false := fun k hk => by simp; omega
    simp [tabGet, tabFind, firmwareCells, g, h]

theorem test_body (m : Nat) : slice (tabRange 0 firmwareCells 0 (388 + m)) 384 (4 + m) = [255, 255, 255, 255] ++ List.replicate m (0 : Byte) := by
  apply List.ext_getElem
  · simp [slice, tabRange]; omega
  · intro i h1 h2
    have h3 : i < 4 + m := by simp at h2; omega
    have h4 : (slice (tabRange 0 firmwareCells 0 (388 + m)) 384 (4 + m))[i] = tabGet (0 : Byte) firmwareCells (384 + i) := by
      simp only [slice, tabRange]
      rw [List.getElem_append_left (by simp; omega)]
      simp
    refine h4.trans ((test_firmware_byte i).trans ?_)
    match i with
    | 0 | 1 | 2 | 3 => rfl
    | n + 4 =>
      rw [if_neg (by omega), List.getElem_append_right (Nat.le_add_left 4 n)]
      simp only [List.getElem_replicate]

theorem test_firmware_body : slice smallFirmware 384 3712 = [255, 255, 255, 255] ++ List.replicate 3708 0 := test_body 3708

theorem test_crc_of_zeros (n : Nat) : (List.replicate n (0 : Byte)).foldl (crcByte 0x82F63B78#32) 0 = 0 := by
  induction n with
  | zero => rfl
  | succ n ih => rw [List.replicate_succ, List.foldl_cons]; exact ih

theorem test_firmware_crc : crc32c (slice smallFirmware 384 3712) = 0xFFFFFFFF := by
  have h : [255, 255, 255, 255].foldl (crcByte 0x82F63B78#32) 0xFFFFFFFF#32 = 0 := by decide +kernel
  rw [test_firmware_body, crc32c, crcOver, List.foldl_append, h, test_crc_of_zeros]
  rfl

theorem test_firmware_header : fwHeaderOk smallFirmware = true ∧ u32 smallFirmware 24 = 0xFFFFFFFF ∧ u32 smallFirmware 20 = 4096 ∧
    firmwareUp.boot.securityMin ≤ u8 smallFirmware 12 ∧ passes opFwCommit (mk []) firmwareUp = true ∧ fwWrites firmwareUp = false := by
  decide +kernel

theorem test_firmware_whole : uploadWhole firmwareUp 2 0 = .ok smallFirmware := by rfl

/-- The image passes every check that does not ask the fuses or the signature. -/
theorem test_firmware_check (hk : Config.keyTrusted (slice smallFirmware 64 97) = true)
    (hs : Config.signatureVerifies (slice smallFirmware 64 97) (slice smallFirmware 176 96)
      (slice smallFirmware 0 176 ++ slice smallFirmware 384 3712) = true) : fwCheck smallFirmware = 0 := by
  have h := test_firmware_header
  have h1 : 4096 - 384 = 3712 := rfl
  simp only [fwCheck, h.1, h.2.1, h.2.2.1, h1, test_firmware_crc, hk, hs]
  rfl

/-- With a trusted key and a signature that verifies, FW_COMMIT takes the image. -/
theorem witness_UploadsImagesAndFirmwareApply_commit (hk : Config.keyTrusted (slice smallFirmware 64 97) = true)
    (hs : Config.signatureVerifies (slice smallFirmware 64 97) (slice smallFirmware 176 96)
      (slice smallFirmware 0 176 ++ slice smallFirmware 384 3712) = true) :
    passes opFwCommit (mk []) firmwareUp = true ∧ fwWrites firmwareUp = false ∧ uploadWhole firmwareUp 2 0 = .ok smallFirmware ∧
      commitBad firmwareUp smallFirmware = none := by
  have h : decide (firmwareUp.boot.securityMin ≤ u8 smallFirmware 12) = true := decide_eq_true test_firmware_header.2.2.2.1
  have g : commitBad firmwareUp smallFirmware = none := by
    unfold commitBad
    rw [test_firmware_check hk hs]
    show orElse (decide (firmwareUp.boot.securityMin ≤ u8 smallFirmware 12)) Status.state = none
    rw [h, orElse, if_pos rfl]
  exact ⟨test_firmware_header.2.2.2.2.1, test_firmware_header.2.2.2.2.2, test_firmware_whole, g⟩

end Sys2Proof.Tests
end

section
/-!
PROOFS. Clock changes are contained (O10): the rules of the time domains and of raises that the events of R13, R40, R42, R45 and R66
share, what each of those events leaves, and the statement assembled from them.
-/

namespace Sys2Proof.Proofs

open Sys2Proof Sys2Proof.Machine Sys2Proof.Laws

/-! ### Reading a time domain -/

theorem domainOf_eq_of_time {s t : State} (h : t.time = s.time) (d : Nat) : domainOf t d = domainOf s d := by
  simp only [domainOf, h]

@[simp] theorem domainOf_kiln (code : Nat) (fs : List (Nat × Nat)) (s : State) (d : Nat) : domainOf (kiln code fs s) d = domainOf s d :=
  domainOf_eq_of_time (kiln_time code fs s) d

@[simp] theorem domainOf_kilnInj (inj : Bool) (code : Nat) (fs : List (Nat × Nat)) (s : State) (d : Nat) :
    domainOf (kilnInj inj code fs s) d = domainOf s d := domainOf_eq_of_time (kilnInj_time inj code fs s) d

@[simp] theorem domainOf_setDomain (d : Nat) (v : Domain) (s : State) : domainOf (setDomain d v s) d = v :=
  tabGet_set (domainReset d) v d s.time.domains

@[simp] theorem setDomain_flt (d : Nat) (v : Domain) (s : State) : (setDomain d v s).flt = s.flt := rfl

theorem le_reach_now (t : Nat) (s : State) : t ≤ (reach t s).now := Nat.le_max_right s.now t

/-! ### Raises on their way to the saggar -/

theorem raised_raiseFault {s u : State} (h : u.flt.inFlight = s.flt.inFlight) (b k i : Nat) (o : Bool) : raised b k i s (raiseFault b k i o u) := by
  obtain ⟨r, hr⟩ := raiseFault_inFlight b k i o u
  exact ⟨r, h ▸ hr⟩

/-- A detection whose containment raises nothing itself raises its site. -/
theorem raised_detect {s : State} {contain : Bool → State → State} (h : ∀ inj, (contain inj s).flt.inFlight = s.flt.inFlight) (b k i : Nat) :
    raised b k i s (detect b k i contain s) := raised_raiseFault (h _) b k i false

@[simp] theorem detect_time (b k i : Nat) (contain : Bool → State → State) (s : State) :
    (detect b k i contain s).time = (contain (injectedNow s b k i) s).time := raiseFault_time _ _ _ _ _

@[simp] theorem domainOf_detect (b k i : Nat) (contain : Bool → State → State) (s : State) (d : Nat) :
    domainOf (detect b k i contain s) d = domainOf (contain (injectedNow s b k i) s) d := domainOf_eq_of_time (detect_time b k i contain s) d

@[simp] theorem detect_kiln (b k i : Nat) (contain : Bool → State → State) (s : State) :
    (detect b k i contain s).flt.kiln = (contain (injectedNow s b k i) s).flt.kiln := raiseFault_flt_kiln _ _ _ _ _

section

variable (b k : Nat) (l : List Nat)

/-- What every raise leaves alone, a run of raises leaves alone. -/
theorem foldl_raiseFault_keeps {α : Type} (f : State → α) (hf : ∀ b k i o s, f (raiseFault b k i o s) = f s) (s : State) :
    f (l.foldl (fun s i => raiseFault b k i false s) s) = f s := by
  induction l generalizing s with
  | nil => rfl
  | cons i l ih => exact (ih _).trans (hf b k i false s)

@[simp] theorem foldl_raiseFault_time (s : State) : (l.foldl (fun s i => raiseFault b k i false s) s).time = s.time :=
  foldl_raiseFault_keeps b k l State.time raiseFault_time s

@[simp] theorem foldl_raiseFault_now (s : State) : (l.foldl (fun s i => raiseFault b k i false s) s).now = s.now :=
  foldl_raiseFault_keeps b k l State.now raiseFault_now s

@[simp] theorem foldl_raiseFault_kiln (s : State) : (l.foldl (fun s i => raiseFault b k i false s) s).flt.kiln = s.flt.kiln :=
  foldl_raiseFault_keeps b k l (fun s => s.flt.kiln) raiseFault_flt_kiln s

/-- A run of raises puts one for each unit on its way, in order. -/
theorem raisedAll_foldl_raiseFault {s u : State} (h : u.flt.inFlight = s.flt.inFlight) :
    raisedAll (l.map fun i => (b, k, i)) s (l.foldl (fun s i => raiseFault b k i false s) u) := by
  suffices ∀ u : State, raisedAll (l.map fun i => (b, k, i)) u (l.foldl (fun s i => raiseFault b k i false s) u) by
    obtain ⟨rs, hrs, hl⟩ := this u
    exact ⟨rs, h ▸ hrs, hl⟩
  clear h
  induction l with
  | nil => exact fun u => ⟨[], by simp, rfl⟩
  | cons i l ih =>
    intro u
    obtain ⟨r, hr, rfl, rfl, rfl⟩ := raiseFault_inFlight b k i false u
    obtain ⟨rs, hrs, hl⟩ := ih (raiseFault r.bit r.kind r.index false u)
    exact ⟨r :: rs, hrs.trans (by simp [hr]), by simp [hl]⟩

end

/-! ### Commands that end -/

/-- A command in progress has ended with this status. -/
theorem endRunning_ends {id : Nat} {r : Running} {s u : State} (hu : u.host = s.host) (h : s.host.running.find? (fun x => x.id == id) = some r)
    (st : Status) (d x : Bytes) :
    ∃ e, (endRunning id st d x u).host.ended = s.host.ended ++ [e] ∧ e.slot = r.slot ∧ e.tag = r.tag ∧ e.status = st := by
  rw [← hu] at h ⊢
  exact ⟨_, endRunning_ended st d x h, rfl, rfl, rfl⟩

@[simp] theorem modeChanged_time (n : Nat) (s : State) : (modeChanged n s).time = s.time := kiln_time _ _ _
@[simp] theorem modeChanged_now (n : Nat) (s : State) : (modeChanged n s).now = s.now := kiln_now _ _ _
@[simp] theorem modeChanged_host (n : Nat) (s : State) : (modeChanged n s).host = s.host := kiln_host _ _ _

/-! ### A lost reference, strobe or replica clock (R13, R40, R66) -/

/-- The lane die takes its alternate reference; bit 48 goes out for each domain (R13, R66; the raise and the record are the model's choice,
assumption 14). -/
theorem clockSourceSwitch_completes {q : Quad} {s : State} (h : tabGet false s.time.altClock q.val = false) :
    Completes (.clockSourceSwitch q) s fun t =>
      tabGet false t.time.altClock q.val = true ∧ raisedAll [(48, 15, 0), (48, 15, 1), (48, 15, 2), (48, 15, 3)] s t ∧ logged 0x0B01 t := by
  refine ⟨_, if_neg (by simp [h]), by simp, raisedAll_foldl_raiseFault 48 15 (List.range 4) (by simp), ?_⟩
  rw [logged, foldl_raiseFault_kiln]
  exact kiln_head _ _ _

/-- Four periods without a strobe: the replica will align hard (R66). -/
theorem strobeMissing_completes {q : Quad} {s : State} (hq : q.val ≠ 0) (h : 4 ≤ tabGet 0 s.time.missed q.val) :
    Completes (.strobeMissing q) s fun t =>
      tabGet false t.time.needHard q.val = true ∧ tabGet 0 t.time.missed q.val = 0 ∧ raised 49 7 q.val s t := by
  have hguard : ¬ (q.val == 0 || tabGet 0 s.time.missed q.val < 4) = true := by
    simp only [Bool.or_eq_true, beq_iff_eq, decide_eq_true_eq]
    omega
  exact ⟨_, if_neg hguard, by simp, by simp, raised_detect (fun _ => rfl) _ _ _⟩

/-- A good window: its rate is the last good one, and a holdover ends (R40). -/
theorem refclkWindow_good_completes {d : Domain'} {rate : Int} {s : State} (hs : (domainOf s d.val).source = 1)
    (hr : inRangeI rate (-51200000) 51200000 = true) : Completes (.refclkWindow d true rate) s fun t =>
      (domainOf t d.val).holdover = false ∧ (domainOf t d.val).lastGood = rate ∧ ((domainOf s d.val).holdover = true → logged 0x0B03 t) := by
  refine ⟨_, (if_neg (by simp [hs])).trans (if_pos hr), ?_⟩
  cases hh : (domainOf s d.val).holdover with
  | false => simp
  | true => simp [logged, kiln_head]

/-- A bad window: the domain goes into holdover at the last good rate (R40). -/
theorem refclkWindow_bad_completes {d : Domain'} {present : Bool} {rate : Int} {s : State} (hs : (domainOf s d.val).source = 1)
    (hr : (present && inRangeI rate (-51200000) 51200000) = false) (hh : (domainOf s d.val).holdover = false) :
    Completes (.refclkWindow d present rate) s fun t =>
      (domainOf t d.val).holdover = true ∧ (domainOf t d.val).lastGood = (domainOf s d.val).lastGood ∧ raised 48 15 d.val s t ∧ logged 0x0B02 t := by
  refine ⟨_, (if_neg (by simp [hs])).trans ((if_neg (Bool.eq_false_iff.mp hr)).trans (if_neg (by simp [hh]))), by simp, by simp,
    raised_detect (fun inj => by simp) _ _ _, ?_⟩
  rw [logged, detect_kiln]
  exact kilnInj_head _ _ _ _

/-! ### A slew's end (R42) -/

/-- The addition is removed, at the end of its duration or later. -/
theorem slewEnd_completes {d : Domain'} {w : Slew} {s : State} (h : (domainOf s d.val).slew = some w) :
    Completes (.slewEnd d) s fun t =>
      domainOf t d.val = { domainOf s d.val with slew := none } ∧ w.began + w.durationUs * tUs ≤ t.now := by
  have hexec : exec (.slewEnd d) s =
      .next (setDomain d.val { domainOf s d.val with slew := none } (reach (w.began + w.durationUs * tUs) s)) := by
    change execSlewEnd d s = _
    simp only [execSlewEnd, h]
  exact ⟨_, hexec, by simp, le_reach_now _ _⟩

/-! ### A clock-profile change (R45) -/

/-- The lock report of a die not yet counted, while the change relocks: the die counts, and the fourth reaches the next step. -/
theorem exec_pllLockReport_relocking {q : Quad} {s : State} (hp : s.time.switch.phase = .relocking) (hq : q.val ∉ s.time.switch.locked) :
    exec (.pllLockReport q) s = .next (modTime (fun t => { t with switch := { s.time.switch with
      locked := q.val :: s.time.switch.locked,
      phase := if s.time.switch.locked.length = 3 then .locked else .relocking } }) s) := by
  change execPllLockReport q s = _
  simp [execPllLockReport, hp, hq]

/-- Every PLL locked: the change reaches its next step. -/
theorem pllLockReport_last_completes {q : Quad} {s : State} (hp : s.time.switch.phase = .relocking) (hq : q.val ∉ s.time.switch.locked)
    (hl : s.time.switch.locked.length = 3) : Completes (.pllLockReport q) s fun t => t.time.switch.phase = .locked :=
  ⟨_, exec_pllLockReport_relocking hp hq, if_pos hl⟩

theorem pllLockReport_early_completes {q : Quad} {s : State} (hp : s.time.switch.phase = .relocking) (hq : q.val ∉ s.time.switch.locked)
    (hl : s.time.switch.locked.length < 3) :
    Completes (.pllLockReport q) s fun t => t.time.switch.phase = .relocking ∧ q.val ∈ t.time.switch.locked :=
  ⟨_, exec_pllLockReport_relocking hp hq, if_neg (Nat.ne_of_lt hl), List.mem_cons_self⟩

/-- The loops have reconverged: the command ends with OK. -/
theorem profileSwitchDone_completes {id : Nat} {r : Running} {s : State} (hrun : s.time.switch.run = some id)
    (hr : s.host.running.find? (fun x => x.id == id) = some r) (hp : s.time.switch.phase = .converging) :
    Completes .profileSwitchDone s fun t => t.time.switch = {} ∧ logged 0x0201 t ∧
      ∃ e, t.host.ended = s.host.ended ++ [e] ∧ e.slot = r.slot ∧ e.tag = r.tag ∧ e.status = .ok := by
  refine ⟨_, if_pos (by simp [hp]), ?_⟩
  simp only [hrun]
  refine ⟨by simp, ?_, endRunning_ends (by simp) hr _ _ _⟩
  rw [logged, endRunning_flt]
  exact kiln_head _ _ _

/-- 100 µs without every lock: the command ends with TIMEOUT and the old frequency is restored. -/
theorem profileSwitchTimeout_completes {id : Nat} {r : Running} {s : State} (hrun : s.time.switch.run = some id)
    (hr : s.host.running.find? (fun x => x.id == id) = some r) (hp : s.time.switch.phase = .staged ∨ s.time.switch.phase = .relocking) :
    Completes .profileSwitchTimeout s fun t =>
      t.time.switch.phase = .restoring ∧ t.time.switch.run = none ∧ s.time.switch.began + 100 * tUs ≤ t.now ∧
      ∃ e, t.host.ended = s.host.ended ++ [e] ∧ e.slot = r.slot ∧ e.tag = r.tag ∧ e.status = .timeout := by
  refine ⟨_, if_pos (by simpa using hp), ?_⟩
  simp only [hrun]
  refine ⟨by simp, by simp, ?_, endRunning_ends (by simp) hr _ _ _⟩
  rw [endRunning_now, modeChanged_now, modTime_now]
  exact le_reach_now _ _

/-- 100 µs after the TIMEOUT a PLL is still unlocked: bit 48 goes out for every domain. -/
theorem profileRelockTimeout_completes {s : State} (hp : s.time.switch.phase = .restoring) :
    Completes .profileRelockTimeout s fun t =>
      t.time.switch.phase = .stuck ∧ s.time.switch.timedOut + 100 * tUs ≤ t.now ∧
      raisedAll [(48, 15, 0), (48, 15, 1), (48, 15, 2), (48, 15, 3)] s t := by
  refine ⟨_, if_pos (by simp [hp]), by simp, ?_, raisedAll_foldl_raiseFault 48 15 (List.range 4) rfl⟩
  rw [foldl_raiseFault_now, modTime_now]
  exact le_reach_now _ _

/-- A retry waits for every PLL anew, 10 ms after the one before or later. -/
theorem pllRelockRetry_completes {s : State} (hp : s.time.switch.phase = .stuck) :
    Completes .pllRelockRetry s fun t =>
      t.time.switch.phase = .stuck ∧ t.time.switch.locked = [] ∧ s.time.switch.lastTry + 10 * tMs ≤ t.now :=
  ⟨_, if_pos (by simp [hp]), hp, rfl, le_reach_now _ _⟩

/-- Settles O10: each event's own lemma gives its clause. -/
theorem clockChangesAreContained : Obligations.ClockChangesAreContained := by
  refine ⟨fun q d present rate s => ⟨clockSourceSwitch_completes, strobeMissing_completes, ?_, refclkWindow_bad_completes,
    profileRelockTimeout_completes, pllRelockRetry_completes⟩, fun q d w id r s => ⟨slewEnd_completes, pllLockReport_last_completes,
    pllLockReport_early_completes, fun hrun hr => ⟨profileSwitchDone_completes hrun hr, profileSwitchTimeout_completes hrun hr⟩⟩⟩
  rintro hs rfl hr
  exact refclkWindow_good_completes hs hr

end Sys2Proof.Proofs
end

section
/-!
PROOFS. Rules of the time state: what a read of a domain, copy, entry or pin returns after a write to the same place and to another one, and how a run of writes to different places adds up.
-/

namespace Sys2Proof.Proofs

open Sys2Proof Sys2Proof.Machine Sys2Proof.Laws

/-! ### Runs of operations -/

section

variable {σ α β : Type} {l : List β} {op : σ → β → σ}

/-- What every operation of a run leaves alone, the run leaves alone. -/
theorem foldl_keeps {s : σ} (f : σ → α) (h : ∀ s, ∀ x ∈ l, f (op s x) = f s) : f (l.foldl op s) = f s := by
  induction l generalizing s with
  | nil => rfl
  | cons x l ih => exact (ih fun s y hy => h s y (List.mem_cons_of_mem _ hy)).trans (h s x List.mem_cons_self)

end

section

variable {α : Type} {l : List Nat} {op : State → Nat → State} {read : State → Nat → α} {val : Nat → α → α} {I : State → Prop}

/-- A run of operations, each on its own place `k` and each changing what `k` reads by `val k`, changes every place of the run so and no
other; `I` is what the operations need of the state and keep. -/
theorem foldl_places (keep : ∀ s k, I s → I (op s k)) (same : ∀ s k, I s → read (op s k) k = val k (read s k))
    (other : ∀ s k j, j ≠ k → read (op s k) j = read s j) (hl : l.Nodup) {s : State} (hs : I s) (j : Nat) :
    read (l.foldl op s) j = if j ∈ l then val j (read s j) else read s j := by
  induction l generalizing s with
  | nil => rfl
  | cons k l ih =>
    obtain ⟨hk, hl⟩ := List.nodup_cons.mp hl
    rw [List.foldl_cons, ih hl (keep s k hs)]
    by_cases hj : j = k
    · subst hj
      rw [if_neg hk, if_pos List.mem_cons_self, same s j hs]
    · simp [hj, other s k j hj]

end

/-! ### Domains and copies -/

theorem tabFind_set_ne {α : Type} [DecidableEq α] {k j : Nat} (h : j ≠ k) (d v : α) (m : Store α) :
    tabFind (tabSet d k v m) j = tabFind m j := by
  unfold tabSet
  split
  · exact tabFind_del_ne m h
  · exact tabFind_put_ne v m h

theorem domainOf_setDomain_ne {d e : Nat} (h : e ≠ d) (v : Domain) (s : State) : domainOf (setDomain d v s) e = domainOf s e :=
  congrArg (Option.getD · (domainReset e)) (tabFind_set_ne h _ v s.time.domains)

theorem copyOf_eq_of_copies {s t : State} (h : t.time.copies = s.time.copies) (q d : Nat) : copyOf t q d = copyOf s q d := by
  simp only [copyOf, h]

@[simp] theorem copyOf_setCopy (q d : Nat) (c : TimeCopy) (s : State) : copyOf (setCopy q d c s) q d = c := tabGet_set _ _ _ _

theorem copyOf_setCopy_ne {q d r e : Nat} (h : 4 * r + e ≠ 4 * q + d) (c : TimeCopy) (s : State) :
    copyOf (setCopy q d c s) r e = copyOf s r e := tabGet_set_ne _ _ h

/-! ### Firing entries -/

/-- A field of an entry after a write of the entry: that of what was written. -/
theorem entryOf_written {α : Type} (f : FiringEntry → α) {d i : Nat} {e : FiringEntry} {m : Store FiringEntry} {t : State}
    (h : t.time.entries = tabSet {} (entryKey d i) e m) {x : α} (hx : f e = x := by rfl) : f (entryOf t d i) = x := by
  rw [entryOf, h, tabGet_set, hx]

/-! ### Time pins -/

section

variable {p : Nat} {v : TimePin} {m : Store TimePin} {t : State}

/-- A field of a pin after a write of the pin: that of what was written. -/
theorem pinOf_written {α : Type} (f : TimePin → α) (h : t.time.pins = tabSet {} p v m) {x : α} (hx : f v = x := by rfl) :
    f (pinOf t p) = x := by
  rw [pinOf, h, tabGet_set, hx]

theorem pinOf_unwritten (h : t.time.pins = tabSet {} p v m) {k : Nat} (hk : k ≠ p) : pinOf t k = tabGet {} m k := by
  rw [pinOf, h, tabGet_set_ne _ _ hk]

end

end Sys2Proof.Proofs
end

section
/-!
PROOFS. Time objects read and write (O8): every read answers the object as it stands, and every write is in force at once or tagged for the
next strobe.
-/

namespace Sys2Proof.Proofs

open Sys2Proof Sys2Proof.Machine Sys2Proof.Laws

section

variable {c : Cmd} {s : State}

theorem timeGet_completes (h : passes opTimeGet c s = true) : Completes (.timeGet c) s fun t =>
    answered opTimeGet c .ok (toLe 8 (copyOf s 0 (u8 (given c s) 0)).sec.toNat ++ toLe 4 (copyOf s 0 (u8 (given c s) 0)).ns ++
      toLe 2 ((copyOf s 0 (u8 (given c s) 0)).frac.toNat / 65536) ++
      toLe 1 (b2n (domainOf s (u8 (given c s) 0)).holdover + 2 * b2n (domainOf s (u8 (given c s) 0)).enable)) [] s t :=
  ⟨_, congrArg Host.Outcome.next (icoux_done h rfl), rfl⟩

/-- A write that its rules admit is tagged for the next strobe and stays in progress. -/
theorem starts_tagged {d : OpDef} {i : Instr} {body : Nat → Bytes → State → CmdResult} (hi : exec i s = .next (icoux d c body s))
    (w : Nat → Tagged) (e : body c.slot.val (given c s) (takenState c s) = .later fun id => tagWrite (w id) (takenState c s)) :
    Starts d c i s fun t => t.time.tagged = s.time.tagged ++ [w s.host.nextId] :=
  starts_of hi fun _ => ⟨_, e, rfl, rfl, rfl⟩

theorem timeDomainWrite_starts (h : timeDomainState s (given c s) = false) : Starts opTimeDomainWrite c (.timeDomainWrite c) s fun t =>
    t.time.tagged = s.time.tagged ++ [.domain (given c s) s.host.nextId] :=
  starts_tagged rfl (.domain (given c s)) (if_neg (Bool.eq_false_iff.mp h))

theorem timeAdjust_starts (h : slewTooFast (given c s) = false) : Starts opTimeAdjust c (.timeAdjust c) s fun t =>
    t.time.tagged = s.time.tagged ++ [.adjust (given c s) s.host.nextId] :=
  starts_tagged rfl (.adjust (given c s)) (if_neg (Bool.eq_false_iff.mp h))

/-- An entry is tagged that is disabled, or is periodic and no COUNTER_FREEZE. -/
theorem firingEntryWrite_starts (h : bit (u8 (given c s) 11) 0 = false ∨ u8 (given c s) 10 ≠ 1 ∧ field (given c s) 28 6 ≠ 0) :
    Starts opFiringEntryWrite c (.firingEntryWrite c) s fun t =>
      t.time.tagged = s.time.tagged ++ [.entry (u8 (given c s) 0) ((given c s).drop 8) s.host.nextId] := by
  refine starts_tagged rfl (.entry (u8 (given c s) 0) ((given c s).drop 8)) ?_
  rcases h with h | ⟨ha, hp⟩
  · simp [h]
  · simp [ha, hp]

theorem portTimeWrite_writes : Writes opPortTimeWrite c (.portTimeWrite c) s fun t =>
    portTimeObj t (u16 (given c s) 0) = given c s ∧ ∀ p, p ≠ u16 (given c s) 0 → portTimeObj t p = portTimeObj s p :=
  writes_of rfl fun _ => ⟨_, rfl, rfl, tabGet_set _ _ _ _, fun p h =>
    congrArg (Option.getD · (portTimeDefault p)) (tabFind_set_ne h _ _ s.time.portTime)⟩

/-- A pin's write emits its level if it is an output, and touches no other pin. -/
theorem timePinWrite_writes : Writes opTimePinWrite c (.timePinWrite c) s fun t =>
    (pinOf t (u8 (given c s) 0)).flags = u8 (given c s) 1 ∧ (pinOf t (u8 (given c s) 0)).domain = u8 (given c s) 2 ∧
    ∀ p, p ≠ u8 (given c s) 0 → pinOf t p = pinOf s p := by
  refine writes_of rfl fun _ => ⟨_, rfl, ?_⟩
  split <;> exact ⟨rfl, pinOf_written TimePin.flags rfl, pinOf_written TimePin.domain rfl, fun _ h => pinOf_unwritten rfl h⟩

end

/-- Settles O8: each read answers its object, and each write has its own lemma. -/
theorem timeObjectsReadAndWrite : Obligations.TimeObjectsReadAndWrite :=
  ⟨fun _ _ => ⟨reads_of rfl fun _ => rfl, reads_of rfl fun _ => rfl, reads_of rfl fun _ => rfl, reads_of rfl fun _ => rfl,
      reads_of rfl fun _ => rfl, timeGet_completes⟩,
    fun _ _ => ⟨timeDomainWrite_starts, timeAdjust_starts, fun h => firingEntryWrite_starts (.inl h),
      fun _ ha hp => firingEntryWrite_starts (.inr ⟨ha, hp⟩), portTimeWrite_writes, timePinWrite_writes⟩⟩

end Sys2Proof.Proofs
end

section
/-!
PROOFS. A tick of a die, and a refill (R35, R36, R573).
-/

namespace Sys2Proof.Proofs

open Sys2Proof Sys2Proof.Machine Sys2Proof.Laws

/-! ### A tick of a die (R35, R36, R62) -/

/-- The state without the copies and entries, which are all that a tick changes before its end. -/
def untimed (s : State) : State := { s with time := { s.time with copies := [], entries := [] } }

section

variable {s t : State} (h : untimed t = untimed s)
include h

theorem domainOf_of_untimed (d : Nat) : domainOf t d = domainOf s d := (congrArg (domainOf · d) h :)

theorem increment_of_untimed (q d : Nat) : increment t q d = increment s q d := (congrArg (increment · q d) h :)

theorem now_of_untimed : t.now = s.now := (congrArg State.now h :)

theorem strobeTicks_of_untimed : t.time.strobeTicks = s.time.strobeTicks := (congrArg (fun u => u.time.strobeTicks) h :)

end

/-- The state in which die `q` advances its copies: the entries that the tick's firings left over are late. -/
def tickStart (q : Nat) (s : State) : State := (List.range 4).foldl (fun s d => markLate q d s) s

/-- The tick of domain `d`'s copy on die `q`. -/
def tickCopy (q : Nat) (s : State) (d : Nat) : State :=
  if (domainOf s d).enable then setCopy q d (advanceCopy (increment s q d) (copyOf s q d)) s else s

/-- Die `q` with its copies advanced. -/
def ticked (q : Nat) (s : State) : State := (List.range 4).foldl (tickCopy q) (tickStart q s)

/-- The end of die `q`'s tick: what it has latched and fired is forgotten, and on Q0 `n` units of real time have gone by. -/
def tickEnd (q n : Nat) (s : State) : State :=
  let s2 := modTel (fun t => { t with latchedInTick := t.latchedInTick.filter (· != q) })
    (modTime (fun t => { t with firedInTick := tabKeep (fun k => k / 4 != q) t.firedInTick }) s)
  if q == 0 then modTime (fun t => { t with strobeTicks := t.strobeTicks + 1 }) (elapse n s2) else s2

theorem tickEnd_copies (q n : Nat) (s : State) : (tickEnd q n s).time.copies = s.time.copies := by
  unfold tickEnd
  dsimp only
  split <;> rfl

theorem tickEnd_q0 {q : Nat} (h : q = 0) (n : Nat) (s : State) :
    (tickEnd q n s).now = s.now + n ∧ (tickEnd q n s).time.strobeTicks = s.time.strobeTicks + 1 := by
  subst h
  exact ⟨rfl, rfl⟩

theorem tickEnd_now_ne {q : Nat} (h : q ≠ 0) (n : Nat) (s : State) : (tickEnd q n s).now = s.now := by
  unfold tickEnd
  rw [if_neg (by simpa using h)]
  rfl

section

variable (q : Nat) (s : State)

theorem markLate_copies (d : Nat) : (markLate q d s).time.copies = s.time.copies := by
  unfold markLate
  exact foldl_keeps (fun s : State => s.time.copies) fun _ _ _ => rfl

theorem tickStart_copies : (tickStart q s).time.copies = s.time.copies := by
  unfold tickStart
  exact foldl_keeps (fun s : State => s.time.copies) fun s d _ => markLate_copies q s d

theorem untimed_markLate (d : Nat) : untimed (markLate q d s) = untimed s := by
  unfold markLate
  exact foldl_keeps untimed fun _ _ _ => rfl

theorem untimed_tickStart : untimed (tickStart q s) = untimed s := by
  unfold tickStart
  exact foldl_keeps untimed fun s d _ => untimed_markLate q s d

theorem untimed_tickCopy (d : Nat) : untimed (tickCopy q s d) = untimed s := by
  unfold tickCopy
  split <;> rfl

theorem untimed_ticked : untimed (ticked q s) = untimed s :=
  (foldl_keeps untimed fun s d _ => untimed_tickCopy q s d).trans (untimed_tickStart q s)

theorem copyOf_tickCopy_ne {r d e : Nat} (h : 4 * r + e ≠ 4 * q + d) : copyOf (tickCopy q s d) r e = copyOf s r e := by
  unfold tickCopy
  split
  · exact copyOf_setCopy_ne h _ _
  · rfl

/-- Every domain's copy on the die advances by its increment if the domain is enabled. -/
theorem copyOf_ticked {d : Nat} (h : d < 4) : copyOf (ticked q s) q d =
    if (domainOf s d).enable then advanceCopy (increment s q d) (copyOf s q d) else copyOf s q d := by
  have hsame : ∀ t e, untimed t = untimed s → copyOf (tickCopy q t e) q e =
      if (domainOf s e).enable then advanceCopy (increment s q e) (copyOf t q e) else copyOf t q e := by
    intro t e ht
    rw [← domainOf_of_untimed ht, ← increment_of_untimed ht, tickCopy]
    split
    · exact copyOf_setCopy _ _ _ _
    · rfl
  have hplaces := foldl_places (l := List.range 4) (op := tickCopy q) (read := fun t e => copyOf t q e)
    (val := fun e c => if (domainOf s e).enable then advanceCopy (increment s q e) c else c) (I := fun t => untimed t = untimed s)
    (fun t e ht => (untimed_tickCopy q t e).trans ht) hsame (fun t e j hj => copyOf_tickCopy_ne q t (by omega)) List.nodup_range
    (untimed_tickStart q s) d
  rwa [if_pos (List.mem_range.mpr h), copyOf_eq_of_copies (tickStart_copies q s)] at hplaces

theorem copyOf_ticked_ne {r d : Nat} (hd : d < 4) (hr : r ≠ q) : copyOf (ticked q s) r d = copyOf s r d :=
  calc copyOf (ticked q s) r d
      = copyOf (tickStart q s) r d := foldl_keeps (copyOf · r d) fun t e he => copyOf_tickCopy_ne q t (by
          have := List.mem_range.mp he
          omega)
    _ = copyOf s r d := copyOf_eq_of_copies (tickStart_copies q s) r d

theorem tickDie_eq : tickDie q s = tickEnd q (tickUnits s) (ticked q s) := by
  unfold ticked tickStart tickCopy
  rfl

end

theorem timeAdvance_completes {q : Quad} {s : State} (hc : clocked s = true) (hf : tickHolds s q.val = false) :
    Completes (.timeAdvance q) s fun t =>
      (∀ d, d < 4 → copyOf t q.val d =
        if (domainOf s d).enable then advanceCopy (increment s q.val d) (copyOf s q.val d) else copyOf s q.val d) ∧
      (∀ r d, r < 4 → d < 4 → r ≠ q.val → copyOf t r d = copyOf s r d) ∧
      (q.val = 0 → t.now = s.now + tickUnits s ∧ t.time.strobeTicks = s.time.strobeTicks + 1) ∧ (q.val ≠ 0 → t.now = s.now) := by
  have hcopies := copyOf_eq_of_copies (tickEnd_copies q.val (tickUnits s) (ticked q.val s))
  have hrest := untimed_ticked q.val s
  refine ⟨tickEnd q.val (tickUnits s) (ticked q.val s), ?_, ?_, ?_, ?_, ?_⟩
  · rw [← tickDie_eq]
    exact congrArg Host.Outcome.next (if_neg (by simp [hc, hf]))
  · exact fun d hd => (hcopies _ d).trans (copyOf_ticked q.val s hd)
  · exact fun r d _ hd hr => (hcopies r d).trans (copyOf_ticked_ne q.val s hd hr)
  · intro hq
    rw [← now_of_untimed hrest, ← strobeTicks_of_untimed hrest]
    exact tickEnd_q0 hq _ _
  · exact fun hq => (tickEnd_now_ne hq _ _).trans (now_of_untimed hrest)

/-! ### A refill (R573) -/

/-- A table whose values are changed key by key. -/
theorem tabFind_map {α : Type} {g : Nat × α → Nat × α} (h : ∀ e, (g e).1 = e.1) (m : Store α) (k : Nat) :
    tabFind (m.map g) k = (tabFind m k).map fun v => (g (k, v)).2 := by
  induction m with
  | nil => rfl
  | cons e m ih =>
    obtain ⟨j, v⟩ := e
    have hcons : g (j, v) = (j, (g (j, v)).2) := Prod.ext (h (j, v)) rfl
    rw [List.map_cons, hcons, tabFind, tabFind, ih]
    by_cases hj : j = k
    · simp [hj]
    · simp [hj]

theorem rateAllowanceRefill_completes {q : Quad} {s : State} : Completes (.rateAllowanceRefill q) s fun t =>
    ∀ k, tabFind t.limits k = (tabFind s.limits k).map fun l =>
      if l.quad = q.val then { l with allowance := min (max 1000 l.pps) (l.allowance + l.pps) } else l := by
  refine ⟨_, rfl, fun k => (tabFind_map (fun e => ?_) _ k).trans ?_⟩
  · dsimp only
    split <;> rfl
  · congr 1
    funext l
    simp only [beq_iff_eq]
    split <;> rfl

end Sys2Proof.Proofs
end

section
/-!
PROOFS. What a strobe does at the replicas, and the state in which it applies the tagged writes (R43, R66).
-/

namespace Sys2Proof.Proofs

open Sys2Proof Sys2Proof.Machine Sys2Proof.Laws

/-! ### A strobe: the replicas (R43, R66) -/

/-- The time state without the copies and their trims, which are all that aligning a copy changes. -/
def unaligned (s : State) : TimeState := { s.time with copies := [], trim := [] }

/-- The time state without what a strobe changes at the replicas. -/
def unheard (s : State) : TimeState := { unaligned s with missed := [], needHard := [] }

theorem unaligned_of_time {s t : State} (h : t.time = s.time) : unaligned t = unaligned s := by rw [unaligned, h, unaligned]

theorem missed_of_unaligned {s t : State} (h : unaligned t = unaligned s) : t.time.missed = s.time.missed := (congrArg TimeState.missed h :)

theorem unheard_of_unaligned {s t : State} (h : unaligned t = unaligned s) : unheard t = unheard s :=
  congrArg (fun x => { x with missed := [], needHard := [] }) h

/-- Replica `q`'s copy of domain `d` aligned hard, and logged. -/
def hardAligned (q d : Nat) (fs : List (Nat × Nat)) (s : State) : State := kiln 0x0B05 fs (setCopy q d (copyOf s 0 d) s)

/-- Replica `q`'s loop given another trim for domain `d`. -/
def trimmed (q d : Nat) (s : State) : State :=
  modTime (fun t => { t with trim := tabSet 0 (4 * q + d) (freeTrim (takeFree s).1) t.trim }) (takeFree s).2

/-- Alignment of a copy: hard, with or without a raise of bit 49, or by its loop's trim. -/
theorem alignCopy_cases (q d : Nat) (s : State) : (∃ fs, alignCopy q d s = raiseFault 49 7 q false (hardAligned q d fs s)) ∨
    (∃ fs, alignCopy q d s = hardAligned q d fs s) ∨ alignCopy q d s = trimmed q d s := by
  unfold alignCopy
  dsimp only
  split
  · split
    · exact .inl ⟨_, rfl⟩
    · exact .inr (.inl ⟨_, rfl⟩)
  · exact .inr (.inr rfl)

theorem unaligned_hardAligned (q d : Nat) (fs : List (Nat × Nat)) (s : State) : unaligned (hardAligned q d fs s) = unaligned s := by
  rw [hardAligned, unaligned_of_time (kiln_time _ _ _)]
  rfl

theorem unaligned_trimmed (q d : Nat) (s : State) : unaligned (trimmed q d s) = unaligned s := by
  rw [trimmed, unaligned, modTime_time]
  rfl

theorem unaligned_alignCopy (q d : Nat) (s : State) : unaligned (alignCopy q d s) = unaligned s := by
  obtain ⟨fs, h⟩ | ⟨fs, h⟩ | h := alignCopy_cases q d s
  · rw [h, unaligned_of_time (raiseFault_time _ _ _ _ _), unaligned_hardAligned]
  · rw [h, unaligned_hardAligned]
  · rw [h, unaligned_trimmed]

/-- Every copy of a replica aligned. -/
def copiesAligned (q : Nat) (s : State) : State := (List.range 4).foldl (fun s d => alignCopy q d s) s

theorem unaligned_copiesAligned (q : Nat) (s : State) : unaligned (copiesAligned q s) = unaligned s := by
  unfold copiesAligned
  exact foldl_keeps unaligned fun s d _ => unaligned_alignCopy q d s

/-- A replica that has heard a strobe. -/
def heardStrobe (q : Nat) (s : State) : State :=
  modTime (fun t => { t with missed := tabSet 0 q 0 t.missed, needHard := tabSet false q false t.needHard }) s

/-- A replica that has missed a strobe. -/
def missedStrobe (q : Nat) (s : State) : State := modTime (fun t => { t with missed := tabMod 0 q (· + 1) t.missed }) s

theorem strobeReplica_eq (heard q : Nat) (s : State) : strobeReplica heard q s =
    if bit heard (q - 1) then heardStrobe q (copiesAligned q s) else missedStrobe q s := rfl

section

variable (q : Nat) (s : State)

theorem unheard_heardStrobe : unheard (heardStrobe q s) = unheard s := rfl

theorem unheard_missedStrobe : unheard (missedStrobe q s) = unheard s := rfl

theorem heardStrobe_missed : tabGet 0 (heardStrobe q s).time.missed q = 0 := tabGet_set 0 0 q s.time.missed

theorem heardStrobe_missed_ne {r : Nat} (h : r ≠ q) : tabGet 0 (heardStrobe q s).time.missed r = tabGet 0 s.time.missed r :=
  tabGet_set_ne 0 0 h

theorem missedStrobe_missed : tabGet 0 (missedStrobe q s).time.missed q = tabGet 0 s.time.missed q + 1 := by
  rw [missedStrobe, modTime_time, tabGet_mod]

theorem missedStrobe_missed_ne {r : Nat} (h : r ≠ q) : tabGet 0 (missedStrobe q s).time.missed r = tabGet 0 s.time.missed r := by
  rw [missedStrobe, modTime_time, tabGet_mod_ne _ _ _ h]

variable (heard : Nat)

theorem unheard_strobeReplica : unheard (strobeReplica heard q s) = unheard s := by
  rw [strobeReplica_eq]
  split
  · rw [unheard_heardStrobe, unheard_of_unaligned (unaligned_copiesAligned q s)]
  · exact unheard_missedStrobe q s

theorem strobeReplica_missed : tabGet 0 (strobeReplica heard q s).time.missed q = if bit heard (q - 1) then 0 else tabGet 0 s.time.missed q + 1 := by
  rw [strobeReplica_eq]
  split
  · exact heardStrobe_missed q _
  · exact missedStrobe_missed q s

theorem strobeReplica_missed_ne {r : Nat} (h : r ≠ q) : tabGet 0 (strobeReplica heard q s).time.missed r = tabGet 0 s.time.missed r := by
  rw [strobeReplica_eq]
  split
  · rw [heardStrobe_missed_ne q _ h, missed_of_unaligned (unaligned_copiesAligned q s)]
  · exact missedStrobe_missed_ne q s h

end

/-- A strobe that every replica has heard or missed. -/
def strobed (heard : Nat) (s : State) : State := [1, 2, 3].foldl (fun s q => strobeReplica heard q s) s

section

variable (heard : Nat) (s : State)

theorem unheard_strobed : unheard (strobed heard s) = unheard s := by
  unfold strobed
  exact foldl_keeps unheard fun s q _ => unheard_strobeReplica q s heard

theorem strobed_missed {r : Nat} (h : r ∈ [1, 2, 3]) :
    tabGet 0 (strobed heard s).time.missed r = if bit heard (r - 1) then 0 else tabGet 0 s.time.missed r + 1 := by
  have hplaces := foldl_places (l := [1, 2, 3]) (op := fun s q => strobeReplica heard q s) (read := fun s r => tabGet 0 s.time.missed r)
    (val := fun q n => if bit heard (q - 1) then 0 else n + 1) (I := fun _ => True) (fun _ _ _ => trivial)
    (fun s q _ => strobeReplica_missed q s heard) (fun s q r hr => strobeReplica_missed_ne q s heard hr) (by decide) (s := s) trivial r
  rwa [if_pos h] at hplaces

theorem strobed_host : (strobed heard s).host = s.host := by
  unfold strobed
  exact foldl_keeps State.host fun s q _ => (keeps_strobeReplica heard q s).same .host rfl

theorem strobed_now : (strobed heard s).now = s.now := by
  unfold strobed
  exact foldl_keeps State.now fun s q _ => (keeps_strobeReplica heard q s).same .now rfl

end

/-! ### A strobe: the tagged writes (R38, R42, R43, R57) -/

/-- The state in which a strobe applies the tagged writes: its count restarted, the replicas aligned, no write waiting. -/
def strobeStart (heard : Nat) (s : State) : State :=
  modTime (fun t => { t with tagged := [] }) (strobed heard (modTime (fun t => { t with strobeTicks := 0 }) s))

/-- The time state without what the tagged writes change. -/
def untagged (s : State) : TimeState := { s.time with copies := [], domains := [], entries := [] }

section

variable (heard : Nat) (s : State)

theorem strobeStart_host : (strobeStart heard s).host = s.host := (modTime_host _ _).trans (strobed_host heard _)

theorem strobeStart_now : (strobeStart heard s).now = s.now := (modTime_now _ _).trans (strobed_now heard _)

theorem strobeStart_switch : (strobeStart heard s).time.switch = s.time.switch := (congrArg TimeState.switch (unheard_strobed heard _) :)

theorem strobeStart_missed {r : Nat} (h : r ∈ [1, 2, 3]) :
    tabGet 0 (strobeStart heard s).time.missed r = if bit heard (r - 1) then 0 else tabGet 0 s.time.missed r + 1 :=
  strobed_missed heard _ h

theorem strobeStart_strobeTicks : (strobeStart heard s).time.strobeTicks = 0 := (congrArg TimeState.strobeTicks (unheard_strobed heard _) :)

end

theorem exec_alignmentStrobe {heard : Fin 8} {s : State} (h : 1024 ≤ s.time.strobeTicks) : exec (.alignmentStrobe heard) s =
    .next (strobeSwitch (s.time.tagged.foldl (fun s t => applyTagged t s) (strobeStart heard.val s))) := by
  have hs : (strobed heard.val (modTime (fun t => { t with strobeTicks := 0 }) s)).time.tagged = s.time.tagged :=
    (congrArg TimeState.tagged (unheard_strobed _ _) :)
  rw [← hs]
  exact if_neg (Nat.not_lt_of_le h)

end Sys2Proof.Proofs
end

section
/-!
PROOFS. What each tagged write leaves in force, and what of the time state it leaves alone (R38, R42, R43, R57).
-/

namespace Sys2Proof.Proofs

open Sys2Proof Sys2Proof.Machine Sys2Proof.Laws

/-! ### A domain (R38) -/

section

variable (o : Bytes) (s : State)

theorem applyDomain_written : domainOf (applyDomain o s) (u8 o 0) =
    { domainOf s (u8 o 0) with
      enable := bit (u8 o 1) 0, datapath := bit (u8 o 1) 1, source := u8 o 2, refclkFreq := u8 o 3, rateAdj := s32 o 8
      holdover := u8 o 2 == 1 && (domainOf s (u8 o 0)).source == 1 && (domainOf s (u8 o 0)).holdover
      lastGood := if (domainOf s (u8 o 0)).source == 1 then (domainOf s (u8 o 0)).lastGood else 0 } :=
  domainOf_setDomain _ _ _

/-- No domain the datapath's. -/
def datapathCleared : State := (List.range 4).foldl (fun s k => setDomain k { domainOf s k with datapath := false } s) s

theorem datapathCleared_datapath {d : Nat} (h : d < 4) : (domainOf (datapathCleared s) d).datapath = false := by
  have hplaces := foldl_places (l := List.range 4) (op := fun s k => setDomain k { domainOf s k with datapath := false } s) (read := domainOf)
    (val := fun _ v => { v with datapath := false }) (I := fun _ => True) (fun _ _ _ => trivial) (fun _ _ _ => domainOf_setDomain _ _ _)
    (fun _ _ _ he => domainOf_setDomain_ne he _ _) List.nodup_range (s := s) trivial d
  rw [if_pos (List.mem_range.mpr h)] at hplaces
  exact congrArg Domain.datapath hplaces

/-- A domain that takes the datapath takes it from the others. -/
theorem applyDomain_datapath_ne {d : Nat} (h : bit (u8 o 1) 1 = true) (hd : d < 4) (hne : d ≠ u8 o 0) :
    (domainOf (applyDomain o s) d).datapath = false := by
  unfold applyDomain
  rw [domainOf_setDomain_ne hne, if_pos h]
  exact datapathCleared_datapath s hd

theorem untagged_datapathCleared : untagged (datapathCleared s) = untagged s := by
  unfold datapathCleared
  exact foldl_keeps untagged fun _ _ _ => rfl

theorem untagged_setDomain (d : Nat) (v : Domain) : untagged (setDomain d v s) = untagged s := rfl

theorem untagged_applyDomain : untagged (applyDomain o s) = untagged s := by
  unfold applyDomain
  rw [untagged_setDomain]
  split
  · exact untagged_datapathCleared s
  · rfl

end

/-! ### An adjustment (R42, R60, R63) -/

/-- A step of an entry writes the entry, and may log what it skips. -/
theorem stepEntry_cases (q d old new i : Nat) (s : State) : ∃ e,
    stepEntry q d old new i s = setEntry d i e s ∨ ∃ fs, stepEntry q d old new i s = kiln 0x0B07 fs (setEntry d i e s) := by
  unfold stepEntry
  dsimp only
  split
  · exact ⟨_, .inr ⟨_, rfl⟩⟩
  · exact ⟨_, .inl rfl⟩

theorem stepEntry_rest (q d old new i : Nat) (s : State) :
    (stepEntry q d old new i s).time.copies = s.time.copies ∧ untagged (stepEntry q d old new i s) = untagged s := by
  obtain ⟨e, h | ⟨fs, h⟩⟩ := stepEntry_cases q d old new i s
  · rw [h]
    exact ⟨rfl, rfl⟩
  · rw [h, untagged, kiln_time]
    exact ⟨rfl, rfl⟩

section

variable (d : Nat) (move : TimeCopy → TimeCopy) (q : Nat) (s : State)

theorem copyOf_stepCopy_eq (r e : Nat) : copyOf (stepCopy d move q s) r e = copyOf (setCopy q d (move (copyOf s q d)) s) r e := by
  unfold stepCopy
  exact foldl_keeps (copyOf · r e) fun s i _ => copyOf_eq_of_copies (stepEntry_rest q d _ _ i s).1 r e

theorem copyOf_stepCopy : copyOf (stepCopy d move q s) q d = move (copyOf s q d) := (copyOf_stepCopy_eq d move q s q d).trans (copyOf_setCopy _ _ _ _)

theorem copyOf_stepCopy_ne {r : Nat} (h : r ≠ q) : copyOf (stepCopy d move q s) r d = copyOf s r d :=
  (copyOf_stepCopy_eq d move q s r d).trans (copyOf_setCopy_ne (by omega) _ _)

theorem untagged_stepCopy : untagged (stepCopy d move q s) = untagged s := by
  unfold stepCopy
  exact (foldl_keeps untagged fun s i _ => (stepEntry_rest q d _ _ i s).2).trans rfl

/-- A step moves the copy of the domain on every die. -/
theorem copyOf_stepDomain (h : q < 4) : copyOf (stepDomain d move s) q d = move (copyOf s q d) := by
  unfold stepDomain
  have hplaces := fun s => foldl_places (l := List.range 4) (op := fun s q => stepCopy d move q s) (read := fun s q => copyOf s q d)
    (val := fun _ c => move c) (I := fun _ => True) (fun _ _ _ => trivial) (fun s q _ => copyOf_stepCopy d move q s)
    (fun s q _ hr => copyOf_stepCopy_ne d move q s hr) List.nodup_range (s := s) trivial q
  rw [hplaces, if_pos (List.mem_range.mpr h), copyOf_eq_of_copies (congrArg TimeState.copies (kiln_time _ _ _))]

theorem untagged_stepDomain : untagged (stepDomain d move s) = untagged s := by
  unfold stepDomain
  refine (foldl_keeps untagged fun s q _ => untagged_stepCopy d move q s).trans ?_
  rw [untagged, kiln_time, untagged]

end

section

variable {o : Bytes} (s : State)

theorem applyAdjust_set (h : u8 o 1 = 1) :
    (applyAdjust o s).2 = stepDomain (u8 o 0) (fun _ => { sec := BitVec.ofNat 64 (u64 o 8), ns := u32 o 4, frac := 0 }) s := by
  simp only [applyAdjust, h]

theorem applyAdjust_step (h : u8 o 1 = 2) :
    (applyAdjust o s).2 = stepDomain (u8 o 0) (fun c => copyFrom ((copyTotal c : Int) + s64 o 16 * 65536).toNat) s := by
  simp only [applyAdjust, h]

theorem applyAdjust_slew (h : u8 o 1 = 3) : (applyAdjust o s).2 =
    setDomain (u8 o 0) { domainOf s (u8 o 0) with slew := some { offset := s64 o 16, durationUs := u32 o 24, began := s.now } } s := by
  simp only [applyAdjust, h]

theorem applyAdjust_rate (h1 : u8 o 1 ≠ 1) (h2 : u8 o 1 ≠ 2) (h3 : u8 o 1 ≠ 3) :
    (applyAdjust o s).2 = setDomain (u8 o 0) { domainOf s (u8 o 0) with rateAdj := s32 o 28 } s := by
  unfold applyAdjust
  split
  · exact absurd ‹_› h1
  · exact absurd ‹_› h2
  · exact absurd ‹_› h3
  · rfl

theorem untagged_applyAdjust : untagged (applyAdjust o s).2 = untagged s := by
  by_cases h1 : u8 o 1 = 1
  · rw [applyAdjust_set s h1, untagged_stepDomain]
  by_cases h2 : u8 o 1 = 2
  · rw [applyAdjust_step s h2, untagged_stepDomain]
  by_cases h3 : u8 o 1 = 3
  · rw [applyAdjust_slew s h3, untagged_setDomain]
  · rw [applyAdjust_rate s h1 h2 h3, untagged_setDomain]

end

/-! ### Every kind -/

theorem untagged_of_time {s t : State} (h : t.time = s.time) : untagged t = untagged s := by rw [untagged, h, untagged]

/-- No tagged write changes more of the time state than copies, domains and entries. -/
theorem untagged_applyTagged (w : Tagged) (s : State) : untagged (applyTagged w s) = untagged s := by
  cases w with
  | domain o id => exact (untagged_of_time (endRunning_time _ _ _ _ _)).trans (untagged_applyDomain o s)
  | adjust o id => exact (untagged_of_time (endRunning_time _ _ _ _ _)).trans (untagged_applyAdjust s)
  | entry d o id => exact (untagged_of_time (endRunning_time _ _ _ _ _)).trans rfl
  | mcast o id => exact (untagged_of_time (endRunning_time _ _ _ _ _)).trans (untagged_of_time (kiln_time _ _ _))
  | own d o => rfl

/-! ### A strobe's clock-profile change (R45) -/

/-- The time state without what a strobe changes for a clock-profile change. -/
def unswitched (s : State) : TimeState := { s.time with switch := {}, eased := false }

theorem unswitched_strobeSwitch (s : State) : unswitched (strobeSwitch s) = unswitched s := by
  unfold strobeSwitch
  dsimp only
  split
  · rfl
  · rfl
  · rw [unswitched, kiln_time]
    rfl
  · rfl

theorem strobeSwitch_staged {s : State} (h : s.time.switch.phase = .staged) : (strobeSwitch s).time.switch.phase = .relocking := by
  simp [strobeSwitch, h]

theorem strobeSwitch_locked {s : State} (h : s.time.switch.phase = .locked) :
    (strobeSwitch s).time.switch.phase = .converging ∧ (strobeSwitch s).time.eased = s.time.switch.newEased := by
  simp [strobeSwitch, h]

theorem strobeSwitch_host (s : State) : (strobeSwitch s).host = s.host := (keeps_strobeSwitch s).same .host rfl

end Sys2Proof.Proofs
end

section
/-!
PROOFS. Clocks tick and strobes apply (O9): a strobe's parts put together, and the statement from its tick, refill and strobes.
-/

namespace Sys2Proof.Proofs

open Sys2Proof Sys2Proof.Machine Sys2Proof.Laws

/-! ### A strobe whole -/

section

variable {heard : Fin 8} {s : State}

/-- A strobe restarts its count, ends the waiting writes, counts who missed it and moves a clock-profile change on. -/
theorem alignmentStrobe_completes (h : 1024 ≤ s.time.strobeTicks) : Completes (.alignmentStrobe heard) s fun t =>
    t.time.strobeTicks = 0 ∧ t.time.tagged = [] ∧
    (∀ r, r = 1 ∨ r = 2 ∨ r = 3 → tabGet 0 t.time.missed r = if bit heard.val (r - 1) then 0 else tabGet 0 s.time.missed r + 1) ∧
    (s.time.switch.phase = .staged → t.time.switch.phase = .relocking) ∧
    (s.time.switch.phase = .locked → t.time.switch.phase = .converging ∧ t.time.eased = s.time.switch.newEased) := by
  have hfold : untagged (s.time.tagged.foldl (fun s w => applyTagged w s) (strobeStart heard.val s)) = untagged (strobeStart heard.val s) :=
    foldl_keeps untagged fun s w _ => untagged_applyTagged w s
  refine ⟨_, exec_alignmentStrobe h, ?_⟩
  generalize s.time.tagged.foldl (fun s w => applyTagged w s) (strobeStart heard.val s) = u at hfold ⊢
  have hu := unswitched_strobeSwitch u
  have hswitch : u.time.switch = s.time.switch := (congrArg TimeState.switch hfold :).trans (strobeStart_switch heard.val s)
  refine ⟨?_, ?_, fun r hr => ?_, fun hp => ?_, fun hp => ?_⟩
  · calc (strobeSwitch u).time.strobeTicks
        = u.time.strobeTicks := (congrArg TimeState.strobeTicks hu :)
      _ = (strobeStart heard.val s).time.strobeTicks := (congrArg TimeState.strobeTicks hfold :)
      _ = 0 := strobeStart_strobeTicks heard.val s
  · exact (congrArg TimeState.tagged hu :).trans (congrArg TimeState.tagged hfold :)
  · calc tabGet 0 (strobeSwitch u).time.missed r
        = tabGet 0 u.time.missed r := (congrArg (fun x => tabGet 0 x.missed r) hu :)
      _ = tabGet 0 (strobeStart heard.val s).time.missed r := (congrArg (fun x => tabGet 0 x.missed r) hfold :)
      _ = _ := strobeStart_missed heard.val s (by simpa using hr)
  · exact strobeSwitch_staged (hswitch ▸ hp)
  · rw [← hswitch] at hp ⊢
    exact strobeSwitch_locked hp

/-- One tagged write is applied after the replicas have aligned and before a clock-profile change moves on. -/
theorem exec_alignmentStrobe_one {w : Tagged} (h : 1024 ≤ s.time.strobeTicks) (hw : s.time.tagged = [w]) :
    exec (.alignmentStrobe heard) s = .next (strobeSwitch (applyTagged w (strobeStart heard.val s))) := by
  rw [exec_alignmentStrobe h, hw, List.foldl_cons, List.foldl_nil]

section

variable (u : State)

/-- What a clock-profile change leaves to the reads of domains, copies and entries. -/
theorem domainOf_strobeSwitch (d : Nat) : domainOf (strobeSwitch u) d = domainOf u d :=
  (congrArg (fun x => (tabFind x.domains d).getD (domainReset d)) (unswitched_strobeSwitch u) :)

theorem copyOf_strobeSwitch (q d : Nat) : copyOf (strobeSwitch u) q d = copyOf u q d :=
  copyOf_eq_of_copies (congrArg TimeState.copies (unswitched_strobeSwitch u) :) q d

theorem strobeSwitch_entries : (strobeSwitch u).time.entries = u.time.entries := (congrArg TimeState.entries (unswitched_strobeSwitch u) :)

end

/-- After a strobe its tagged domain object is in force, and its command has ended with OK. -/
theorem alignmentStrobe_domain_completes {o : Bytes} {id : Nat} {r : Running} (h : 1024 ≤ s.time.strobeTicks)
    (hr : s.host.running.find? (fun x => x.id == id) = some r) (hw : s.time.tagged = [.domain o id]) :
    Completes (.alignmentStrobe heard) s fun t =>
      (domainOf t (u8 o 0)).enable = bit (u8 o 1) 0 ∧ (domainOf t (u8 o 0)).datapath = bit (u8 o 1) 1 ∧
      (domainOf t (u8 o 0)).source = u8 o 2 ∧ (domainOf t (u8 o 0)).rateAdj = s32 o 8 ∧
      (bit (u8 o 1) 1 = true → ∀ d, d < 4 → d ≠ u8 o 0 → (domainOf t d).datapath = false) ∧
      ∃ e, t.host.ended = s.host.ended ++ [e] ∧ e.slot = r.slot ∧ e.tag = r.tag ∧ e.status = .ok := by
  refine ⟨_, exec_alignmentStrobe_one h hw, ?_⟩
  have hdomain : ∀ d, domainOf (strobeSwitch (applyTagged (.domain o id) (strobeStart heard.val s))) d =
      domainOf (applyDomain o (strobeStart heard.val s)) d := fun d =>
    (domainOf_strobeSwitch _ d).trans (domainOf_eq_of_time (endRunning_time _ _ _ _ _) d)
  have hhost : (applyDomain o (strobeStart heard.val s)).host = s.host :=
    ((keeps_applyDomain o _).same .host rfl).trans (strobeStart_host heard.val s)
  have hwritten := (hdomain _).trans (applyDomain_written o _)
  refine ⟨(congrArg Domain.enable hwritten :), (congrArg Domain.datapath hwritten :), (congrArg Domain.source hwritten :),
    (congrArg Domain.rateAdj hwritten :), fun hdp d hd hne => ?_, ?_⟩
  · rw [hdomain]
    exact applyDomain_datapath_ne o _ hdp hd hne
  · rw [strobeSwitch_host]
    exact endRunning_ends hhost hr _ _ _

theorem domainOf_strobed_adjust {o : Bytes} {id : Nat} (u : State) (d : Nat) :
    domainOf (strobeSwitch (applyTagged (.adjust o id) u)) d = domainOf (applyAdjust o u).2 d :=
  (domainOf_strobeSwitch _ d).trans (domainOf_eq_of_time (endRunning_time _ _ _ _ _) d)

/-- After a strobe with a tagged SET every copy of the domain holds the time given. -/
theorem alignmentStrobe_set_completes {o : Bytes} {id : Nat} (h : 1024 ≤ s.time.strobeTicks) (hw : s.time.tagged = [.adjust o id])
    (hk : u8 o 1 = 1) : Completes (.alignmentStrobe heard) s fun t =>
      ∀ q, q < 4 → copyOf t q (u8 o 0) = { sec := BitVec.ofNat 64 (u64 o 8), ns := u32 o 4, frac := 0 } := by
  refine ⟨_, exec_alignmentStrobe_one h hw, fun q hq => ?_⟩
  calc copyOf (strobeSwitch (applyTagged (.adjust o id) (strobeStart heard.val s))) q (u8 o 0)
      = copyOf (applyAdjust o (strobeStart heard.val s)).2 q (u8 o 0) :=
        (copyOf_strobeSwitch _ _ _).trans (copyOf_eq_of_copies (congrArg TimeState.copies (endRunning_time _ _ _ _ _)) _ _)
    _ = _ := by rw [applyAdjust_set _ hk, copyOf_stepDomain _ _ _ _ hq]

/-- After a strobe with a tagged SLEW the slew runs from now. -/
theorem alignmentStrobe_slew_completes {o : Bytes} {id : Nat} (h : 1024 ≤ s.time.strobeTicks) (hw : s.time.tagged = [.adjust o id])
    (hk : u8 o 1 = 3) : Completes (.alignmentStrobe heard) s fun t =>
      (domainOf t (u8 o 0)).slew = some { offset := s64 o 16, durationUs := u32 o 24, began := s.now } := by
  refine ⟨_, exec_alignmentStrobe_one h hw, ?_⟩
  beta_reduce
  rw [domainOf_strobed_adjust, applyAdjust_slew _ hk, domainOf_setDomain, strobeStart_now]

/-- After a strobe with a tagged RATE the domain has the rate given. -/
theorem alignmentStrobe_rate_completes {o : Bytes} {id : Nat} (h : 1024 ≤ s.time.strobeTicks) (hw : s.time.tagged = [.adjust o id])
    (hk : u8 o 1 = 4) : Completes (.alignmentStrobe heard) s fun t => (domainOf t (u8 o 0)).rateAdj = s32 o 28 := by
  refine ⟨_, exec_alignmentStrobe_one h hw, ?_⟩
  beta_reduce
  rw [domainOf_strobed_adjust, applyAdjust_rate _ (by omega) (by omega) (by omega), domainOf_setDomain]

/-- After a strobe its tagged entry is in force, its counters cleared. -/
theorem alignmentStrobe_entry_completes {o : Bytes} {d id : Nat} (h : 1024 ≤ s.time.strobeTicks) (hw : s.time.tagged = [.entry d o id]) :
    Completes (.alignmentStrobe heard) s fun t =>
      (entryOf t d (u16 o 0)).obj = o ∧ (entryOf t d (u16 o 0)).enabled = bit (u8 o 3) 0 ∧ (entryOf t d (u16 o 0)).fires = 0 ∧
      (entryOf t d (u16 o 0)).lag = 0 ∧ (entryOf t d (u16 o 0)).skip = 0 := by
  have ht : (strobeSwitch (applyTagged (.entry d o id) (strobeStart heard.val s))).time.entries =
      (placeEntry d o (strobeStart heard.val s)).time.entries :=
    (strobeSwitch_entries _).trans (congrArg TimeState.entries (endRunning_time _ _ _ _ _))
  exact ⟨_, exec_alignmentStrobe_one h hw, entryOf_written FiringEntry.obj ht, entryOf_written FiringEntry.enabled ht,
    entryOf_written FiringEntry.fires ht, entryOf_written FiringEntry.lag ht, entryOf_written FiringEntry.skip ht⟩

end

/-- Settles O9: the tick, the strobe, the refill and each kind of tagged write have their own lemmas. -/
theorem clocksTickAndStrobesApply : Obligations.ClocksTickAndStrobesApply :=
  ⟨fun _ _ _ => ⟨timeAdvance_completes, alignmentStrobe_completes, rateAllowanceRefill_completes⟩,
    fun _ _ _ _ _ h hr _ => ⟨alignmentStrobe_domain_completes h hr, alignmentStrobe_set_completes h, alignmentStrobe_slew_completes h,
      alignmentStrobe_rate_completes h, fun _ _ _ => alignmentStrobe_entry_completes h⟩⟩

end Sys2Proof.Proofs
end

section
/-!
PROOFS. Time pins, FIFOs and uncorrectable time stores (O11): what each event and each read of a FIFO leaves.
-/

namespace Sys2Proof.Proofs

open Sys2Proof Sys2Proof.Machine Sys2Proof.Laws

/-! ### Time pins (R53 to R55) -/

theorem toLe_length (n v : Nat) : (toLe n v).length = n := by
  induction n generalizing v with
  | zero => rfl
  | succ n ih => exact congrArg Nat.succ (ih _)

theorem putField_length (b : Bytes) (off n v : Nat) : (putField b off n v).length = b.length := by
  simp only [putField, List.length_append, List.length_take, List.length_drop, toLe_length]
  omega

/-- An image has the length it is made for. -/
theorem image_length (n : Nat) (fs : List (Nat × Nat × Nat)) : (image n fs).length = n :=
  (foldl_keeps List.length fun b (f : Nat × Nat × Nat) _ => putField_length b f.1 f.2.1 f.2.2).trans List.length_replicate

section

variable {p : Fin 4} {rising : Bool} {err : Int} {s : State} (he : bit (pinOf s p.val).flags 0 = true)
  (hr : bit (pinOf s p.val).flags 2 = true) (hf : bit (pinOf s p.val).flags 3 = true) (herr : inRangeI err (-65536) 65536 = true)
include he hr hf herr

/-- The guard of an edge capture: an enabled input, both edges captured, an edge that is not short and lies within the timestamp's error. -/
theorem pinEdge_captured :
    ¬ (!bit (pinOf s p.val).flags 0 || false ||
        !(if (rising != bit (pinOf s p.val).flags 1) = true then bit (pinOf s p.val).flags 2 else bit (pinOf s p.val).flags 3) ||
        !inRangeI err (-65536) 65536) = true := by
  simp [he, hr, hf, herr]

/-- With room in the FIFO an edge counts and leaves its record of 24 bytes. -/
theorem pinEdgeCapture_records (hroom : (pinOf s p.val).captures.length < 16) :
    Completes (.pinEdgeCapture p rising false err) s fun t =>
      (pinOf t p.val).edges = ((pinOf s p.val).edges + 1) % 65536 ∧
      ∃ x, x.length = 24 ∧ (pinOf t p.val).captures = (pinOf s p.val).captures ++ [x] :=
  ⟨_, (if_neg (pinEdge_captured he hr hf herr)).trans (if_neg (Nat.not_le_of_lt hroom)),
    pinOf_written TimePin.edges rfl, _, image_length _ _, pinOf_written TimePin.captures rfl⟩

/-- With a full FIFO an edge counts as lost, and the records held stay. -/
theorem pinEdgeCapture_overflows (hfull : 16 ≤ (pinOf s p.val).captures.length) :
    Completes (.pinEdgeCapture p rising false err) s fun t =>
      (pinOf t p.val).overflow = (pinOf s p.val).overflow + 1 ∧ (pinOf t p.val).captures = (pinOf s p.val).captures :=
  ⟨_, (if_neg (pinEdge_captured he hr hf herr)).trans (if_pos hfull),
    pinOf_written TimePin.overflow rfl, pinOf_written TimePin.captures rfl⟩

end

/-- A pulse's end releases the pin, once its width has passed. -/
theorem pinPulseEnd_completes {o : Fin 10} {s : State} (h : (pinOf s o.val).active = true) : Completes (.pinPulseEnd o) s fun t =>
    (pinOf t o.val).active = false ∧ t.out.head? = some (.pin o.val (bit (pinOf s o.val).flags 1)) ∧ (pinOf s o.val).pulseEnd ≤ t.now :=
  ⟨_, if_pos h, pinOf_written TimePin.active rfl, by simp [pinLevel], le_reach_now _ _⟩

/-! ### An entry that fires (R62, R65) -/

theorem entryAction_of_firesNext {s : State} {q d i a : Nat} (h : firesNext s q d i a = true) : entryAction (entryOf s d i) = a := by
  simp only [firesNext, Bool.and_eq_true, beq_iff_eq] at h
  exact h.2

theorem fireEntry_entries (q d i : Nat) (s : State) :
    (fireEntry q d i s).time.entries = tabSet {} (entryKey d i) (firedEntry s q d (entryOf s d i)) s.time.entries := by
  unfold fireEntry
  dsimp only
  split
  · rw [kilnOnce_time]
    rfl
  · rfl

/-- A fire on the die that counts for the entry adds one to its fires. -/
theorem firedEntry_fires {s : State} {q d : Nat} {e : FiringEntry} (h : countingDie e = q) :
    (firedEntry s q d e).fires = (e.fires + 1) % 2 ^ 32 := by
  simp [firedEntry, h, wrapAdd]

/-- A PIN_PULSE entry that fires drives its pin active for its argument's width, and counts. -/
theorem pinPulse_completes {d : Domain'} {i : Fin 512} {o : Nat} {s : State} (hf : firesNext s 0 d.val i.val 4 = true)
    (ho : entryTarget (entryOf s d.val i.val) = o) (he : bit (pinOf s o).flags 0 = true) : Completes (.pinPulse d i) s fun t =>
      (pinOf t o).active = true ∧ (pinOf t o).pulseEnd = s.now + entryArgument (entryOf s d.val i.val) * 35 ∧
      t.out.head? = some (.pin o (!bit (pinOf s o).flags 1)) ∧
      (entryOf t d.val i.val).fires = ((entryOf s d.val i.val).fires + 1) % 2 ^ 32 := by
  subst ho
  have hdie : countingDie (entryOf s d.val i.val) = 0 := by simp [countingDie, entryAction_of_firesNext hf]
  exact ⟨_, (if_pos hf).trans (if_pos he), pinOf_written TimePin.active rfl, pinOf_written TimePin.pulseEnd rfl, by simp [pinLevel],
    entryOf_written FiringEntry.fires (fireEntry_entries _ _ _ _) (firedEntry_fires hdie)⟩

/-! ### FIFOs read (R52, R54) -/

theorem answered_endCommand {d : OpDef} {c : Cmd} {s u : State} {st : Status} {data data' reply reply' : Bytes}
    (hu : u.host.ended = s.host.ended) (hd : data = data') (hr : reply = reply') :
    answered d c st data' reply' s (endCommand (endedOf d (effectiveCmd c s) st data reply false) u) := by
  subst hd hr
  simp [answered, endCommand, hu]

/-- The counts answered: the records taken and those that stay. -/
theorem taken_counts (n : Nat) (l : List Bytes) : toLe 2 (l.length - (l.drop n).length) ++ toLe 2 (l.drop n).length =
    toLe 2 (min n l.length) ++ toLe 2 (l.length - min n l.length) := by
  have htaken : l.length - (l.length - n) = min n l.length := by omega
  have hrest : l.length - n = l.length - min n l.length := by omega
  rw [List.length_drop, htaken, ← hrest]

theorem flatten_taken (n : Nat) (l : List Bytes) : (l.take n).flatten = (l.take (min n l.length)).flatten :=
  congrArg List.flatten List.take_eq_take_min

theorem drop_taken (n : Nat) (l : List Bytes) : l.drop n = l.drop (min n l.length) := by simp

/-- TWOSTEP_READ answers the oldest records and takes them from its FIFO alone. -/
theorem twostepRead_completes {c : Cmd} {s : State} (h : passes opTwostepRead c s = true) : Completes (.twostepRead c) s fun t =>
    let q := u8 (given c s) 0
    let l := (tabGet {} s.time.twoStep q).records
    let n := min (u16 (given c s) 2) l.length
    answered opTwostepRead c .ok (toLe 2 n ++ toLe 2 (l.length - n)) (l.take n).flatten s t ∧
      (tabGet {} t.time.twoStep q).records = l.drop n ∧ ∀ k, k ≠ q → tabGet {} t.time.twoStep k = tabGet {} s.time.twoStep k := by
  exact ⟨_, congrArg Host.Outcome.next (icoux_done h rfl), answered_endCommand rfl (taken_counts _ _) (flatten_taken _ _),
    (congrArg TwoStep.records (tabGet_set _ _ _ _)).trans (drop_taken _ _), fun _ hk => tabGet_set_ne _ _ hk⟩

/-- CAPTURE_READ answers the oldest records and takes them from its pin alone. -/
theorem captureRead_completes {c : Cmd} {s : State} (h : passes opCaptureRead c s = true) : Completes (.captureRead c) s fun t =>
    let p := u8 (given c s) 0
    let l := (pinOf s p).captures
    let n := min (u16 (given c s) 2) l.length
    answered opCaptureRead c .ok (toLe 2 n ++ toLe 2 (l.length - n)) (l.take n).flatten s t ∧
      (pinOf t p).captures = l.drop n ∧ ∀ k, k ≠ p → pinOf t k = pinOf s k := by
  exact ⟨_, congrArg Host.Outcome.next (icoux_done h rfl), answered_endCommand rfl (taken_counts _ _) (flatten_taken _ _),
    pinOf_written TimePin.captures rfl (drop_taken _ _), fun _ hk => pinOf_unwritten rfl hk⟩

/-! ### Uncorrectable time stores (R66) -/

section

variable {d : Domain'} {hit : Fin 5} {i : Fin 512} {s : State}

/-- A hit on an entry stops it. -/
theorem timeStore_entry_completes (h : hit.val = 0) : Completes (.timeStore d hit i) s fun t =>
    entryOf t d.val i.val = { entryOf s d.val i.val with faulted := true } ∧ raised 50 15 d.val s t := by
  obtain rfl : hit = 0 := Fin.ext h
  exact ⟨_, rfl, entryOf_written id (congrArg TimeState.entries (detect_time _ _ _ _ _)), raised_detect (fun _ => rfl) _ _ _⟩

/-- A hit on a master register is corrected and counts. -/
theorem timeStore_master_completes (h : hit.val = 4) : Completes (.timeStore d hit i) s fun t =>
    t.time.corrected = s.time.corrected + 1 ∧ t.flt = s.flt := by
  obtain rfl : hit = 4 := Fin.ext h
  exact ⟨_, rfl, rfl, rfl⟩

theorem exec_timeStore_replica (h : hit.val = 1 ∨ hit.val = 2 ∨ hit.val = 3) : exec (.timeStore d hit i) s =
    .next (detect 50 15 d.val (fun _ s => setCopy hit.val d.val (copyOf s 0 d.val) s) s) := by
  obtain ⟨q, hq⟩ := hit
  obtain rfl | rfl | rfl := h <;> rfl

/-- A hit on a replica takes the master's copy. -/
theorem timeStore_replica_completes (h : hit.val = 1 ∨ hit.val = 2 ∨ hit.val = 3) : Completes (.timeStore d hit i) s fun t =>
    copyOf t hit.val d.val = copyOf s 0 d.val ∧ raised 50 15 d.val s t :=
  ⟨_, exec_timeStore_replica h, (copyOf_eq_of_copies (congrArg TimeState.copies (detect_time _ _ _ _ _)) _ _).trans (copyOf_setCopy _ _ _ _),
    raised_detect (fun _ => rfl) _ _ _⟩

end

/-- An entry without what a reload of it on one die may change: its instants. -/
def timeless (e : FiringEntry) : FiringEntry := { e with instants := [] }

theorem timeless_reloadOn (s : State) (d q : Nat) (e : FiringEntry) : timeless (reloadOn s d q e).1 = timeless e := by
  unfold reloadOn
  dsimp only
  split
  · rfl
  · split
    · split <;> rfl
    · rfl

/-- The entry as TIME_STORE_RELOAD reloads it on every die, with the instants its counting die skips. -/
def reloaded (s : State) (d : Nat) (e : FiringEntry) : FiringEntry × Nat :=
  (List.range 4).foldl (fun (a : FiringEntry × Nat) q =>
    let r := reloadOn s d q a.1
    (r.1, if q == countingDie e then r.2 else a.2)) ({ e with faulted := false }, 0)

theorem timeless_reloaded (s : State) (d : Nat) (e : FiringEntry) : timeless (reloaded s d e).1 = timeless { e with faulted := false } := by
  unfold reloaded
  exact foldl_keeps (fun a : FiringEntry × Nat => timeless a.1) fun a q _ => timeless_reloadOn s d q a.1

theorem exec_timeStoreReload {d : Domain'} {i : Fin 512} {s : State} (h : (entryOf s d.val i.val).faulted = true) :
    exec (.timeStoreReload d i) s = .next (
      let r := reloaded s d.val (entryOf s d.val i.val)
      let s1 := setEntry d.val i.val { r.1 with skip := satAdd 32 r.1.skip r.2 } s
      if r.2 > 0 then kiln 0x0B07 [(1, d.val), (2, i.val), (4, r.2)] s1 else s1) :=
  (if_pos h).trans rfl

theorem timeStoreReload_writes {d : Domain'} {i : Fin 512} {s : State} (h : (entryOf s d.val i.val).faulted = true) :
    Completes (.timeStoreReload d i) s fun t => ∃ k, t.time.entries =
      tabSet {} (entryKey d.val i.val) { (reloaded s d.val (entryOf s d.val i.val)).1 with skip := k } s.time.entries := by
  refine ⟨_, exec_timeStoreReload h, ?_⟩
  dsimp only
  split
  · exact ⟨_, congrArg TimeState.entries (kiln_time _ _ _)⟩
  · exact ⟨_, rfl⟩

/-- A reload restarts a stopped entry as it was written, with the fires it has counted. -/
theorem timeStoreReload_completes {d : Domain'} {i : Fin 512} {s : State} (h : (entryOf s d.val i.val).faulted = true) :
    Completes (.timeStoreReload d i) s fun t =>
      (entryOf t d.val i.val).faulted = false ∧ (entryOf t d.val i.val).obj = (entryOf s d.val i.val).obj ∧
      (entryOf t d.val i.val).enabled = (entryOf s d.val i.val).enabled ∧ (entryOf t d.val i.val).fires = (entryOf s d.val i.val).fires := by
  obtain ⟨t, hexec, k, ht⟩ := timeStoreReload_writes h
  have he := timeless_reloaded s d.val (entryOf s d.val i.val)
  exact ⟨t, hexec, entryOf_written FiringEntry.faulted ht (congrArg FiringEntry.faulted he :),
    entryOf_written FiringEntry.obj ht (congrArg FiringEntry.obj he :), entryOf_written FiringEntry.enabled ht (congrArg FiringEntry.enabled he :),
    entryOf_written FiringEntry.fires ht (congrArg FiringEntry.fires he :)⟩

/-- Settles O11: each event's and command's own lemma gives its clause. -/
theorem timePinsFifosAndStores : Obligations.TimePinsFifosAndStores :=
  ⟨fun _ _ _ _ _ _ _ => ⟨pinEdgeCapture_records, pinEdgeCapture_overflows, pinPulse_completes, pinPulseEnd_completes⟩,
    fun _ _ => ⟨twostepRead_completes, captureRead_completes⟩,
    fun _ _ _ _ => ⟨timeStore_entry_completes, timeStore_master_completes, timeStore_replica_completes, timeStoreReload_completes⟩⟩

end Sys2Proof.Proofs
end

section
/-!
PROOFS. Rules of the lane state: what a read of a lane, link, lane die or lane group returns after each update, and what a counter reads after
another one has counted.
-/

namespace Sys2Proof.Proofs

open Sys2Proof Sys2Proof.Machine Sys2Proof.Laws

/-! ### What each read sees -/

section

variable {s t : State}

theorem laneOf_of_lane (h : t.lane = s.lane) (l : Nat) : laneOf t l = laneOf s l := by rw [laneOf, h, laneOf]

theorem lanesOf_of_mac (h : t.mac = s.mac) (p : Nat) : lanesOf t p = lanesOf s p := by
  simp only [lanesOf, portSpeed, portConfig, macPort, h]

/-- The lane state without its lanes. -/
def unlaned (s : State) : LaneState := { s.lane with lanes := [] }

/-- The lane state without its lanes and links: the lane dies and lane groups. -/
def fabric (s : State) : LaneState := { unlaned s with links := [] }

@[simp] theorem laneOf_kiln (code : Nat) (fs : List (Nat × Nat)) (l : Nat) : laneOf (kiln code fs s) l = laneOf s l :=
  laneOf_of_lane (kiln_lane _ _ _) l

@[simp] theorem laneOf_count (c : Counter) (x n : Nat) (l : Nat) : laneOf (count c x n s) l = laneOf s l := rfl

theorem unlaned_of_lane (h : t.lane = s.lane) : unlaned t = unlaned s := by rw [unlaned, h, unlaned]

theorem fabric_of_unlaned (h : unlaned t = unlaned s) : fabric t = fabric s := by rw [fabric, h, fabric]

theorem fabric_of_lane (h : t.lane = s.lane) : fabric t = fabric s := fabric_of_unlaned (unlaned_of_lane h)

theorem fabric_kiln (code : Nat) (fs : List (Nat × Nat)) (s : State) : fabric (kiln code fs s) = fabric s := fabric_of_lane (kiln_lane _ _ _)

theorem linkOf_of_unlaned (h : unlaned t = unlaned s) (p : Nat) : linkOf t p = linkOf s p := (congrArg (fun x => tabGet {} x.links p) h :)

theorem linkOf_of_lane (h : t.lane = s.lane) (p : Nat) : linkOf t p = linkOf s p := linkOf_of_unlaned (unlaned_of_lane h) p

theorem laneDieSt_of_fabric (h : fabric t = fabric s) (k : Nat) : laneDieSt t k = laneDieSt s k := (congrArg (fun x => tabGet {} x.dies k) h :)

theorem laneGroup_of_fabric (h : fabric t = fabric s) (g : Nat) : laneGroup t g = laneGroup s g :=
  (congrArg (fun x => tabGet {} x.groups g) h :)

end

/-! ### Updates of one lane, link, lane die or lane group -/

section

variable (s : State)

@[simp] theorem unlaned_modLane (l : Nat) (f : LaneSt → LaneSt) : unlaned (modLane l f s) = unlaned s := rfl

@[simp] theorem linkOf_modLane (l : Nat) (f : LaneSt → LaneSt) (p : Nat) : linkOf (modLane l f s) p = linkOf s p := rfl

@[simp] theorem laneOf_modLane (l : Nat) (f : LaneSt → LaneSt) : laneOf (modLane l f s) l = f (laneOf s l) := tabGet_mod _ _ _ _

theorem laneOf_modLane_ne {l k : Nat} (h : k ≠ l) (f : LaneSt → LaneSt) : laneOf (modLane l f s) k = laneOf s k := tabGet_mod_ne _ _ _ h

/-- What a lane's change leaves alone of it, it leaves alone of every lane. -/
theorem laneOf_modLane_keeps {α : Type} (g : LaneSt → α) (l : Nat) (f : LaneSt → LaneSt) (h : ∀ v, g (f v) = g v) (k : Nat) :
    g (laneOf (modLane l f s) k) = g (laneOf s k) := by
  by_cases hk : k = l
  · rw [hk, laneOf_modLane, h]
  · rw [laneOf_modLane_ne s hk]

@[simp] theorem laneOf_setLink (p : Nat) (v : Link) (l : Nat) : laneOf (setLink p v s) l = laneOf s l := rfl

@[simp] theorem linkOf_setLink (p : Nat) (v : Link) : linkOf (setLink p v s) p = v := tabGet_set _ _ _ _

theorem linkOf_setLink_ne {p q : Nat} (h : q ≠ p) (v : Link) : linkOf (setLink p v s) q = linkOf s q := tabGet_set_ne _ _ h

@[simp] theorem fabric_setLink (p : Nat) (v : Link) : fabric (setLink p v s) = fabric s := rfl

@[simp] theorem linkOf_setLaneDie (k : Nat) (v : LaneDieSt) (p : Nat) : linkOf (setLaneDie k v s) p = linkOf s p := rfl

@[simp] theorem laneDieSt_setLaneDie (k : Nat) (v : LaneDieSt) : laneDieSt (setLaneDie k v s) k = v := tabGet_set _ _ _ _

@[simp] theorem linkOf_setLaneGroup (g : Nat) (v : LaneGroup) (p : Nat) : linkOf (setLaneGroup g v s) p = linkOf s p := rfl

@[simp] theorem laneGroup_setLaneGroup (g : Nat) (v : LaneGroup) : laneGroup (setLaneGroup g v s) g = v := tabGet_set _ _ _ _

end

/-! ### Updates of every lane of a port -/

section

variable (p : Nat) (s : State)

theorem lanesOf_nodup : (lanesOf s p).Nodup := List.nodup_range.map fun _ _ h => Nat.add_left_cancel h

theorem unlaned_modLanes (f : LaneSt → LaneSt) : unlaned (modLanes p f s) = unlaned s := by
  unfold modLanes
  exact foldl_keeps unlaned fun s l _ => unlaned_modLane s l f

@[simp] theorem linkOf_modLanes (f : LaneSt → LaneSt) (q : Nat) : linkOf (modLanes p f s) q = linkOf s q :=
  linkOf_of_unlaned (unlaned_modLanes p s f) q

/-- A change of a port's lanes changes each of them once, and no other lane. -/
theorem laneOf_modLanes (f : LaneSt → LaneSt) (l : Nat) :
    laneOf (modLanes p f s) l = if l ∈ lanesOf s p then f (laneOf s l) else laneOf s l := by
  unfold modLanes
  exact foldl_places (I := fun _ => True) (val := fun _ => f) (fun _ _ _ => trivial) (fun s l _ => laneOf_modLane s l f)
    (fun s _ _ h => laneOf_modLane_ne s h f) (lanesOf_nodup p s) trivial l

theorem laneOf_modLanes_mem (f : LaneSt → LaneSt) {l : Nat} (h : l ∈ lanesOf s p) : laneOf (modLanes p f s) l = f (laneOf s l) := by
  rw [laneOf_modLanes, if_pos h]

theorem countLanes_lane (c : Counter) : (countLanes c p s).lane = s.lane := (keeps_countLanes c p s).same .lane rfl

end

/-! ### Counters -/

section

variable (c : Counter) (x n : Nat) (s : State)

/-- Two counters of one kind of scope with different indices have different keys. -/
theorem counterKey_idx_ne {i j : Nat} (group kind : Nat) (hi : i < 65536) (hj : j < 65536) (h : i ≠ j) :
    counterKey group kind x i ≠ counterKey group kind x j := by
  unfold counterKey
  omega

theorem counted_count : counted c x n s (count c x n s) := tabGet_mod 0 _ (wrapAdd 64 · n) _

/-- A lane counter that has counted, whatever other lane counter has counted before it. -/
theorem countOf_count_lane_ne {i j : Nat} (hi : i < 65536) (hj : j < 65536) (h : i ≠ j) :
    countOf (laneCnt i) x (count (laneCnt j) x n s) = countOf (laneCnt i) x s :=
  tabGet_mod_ne 0 (wrapAdd 64 · n) _ (counterKey_idx_ne x 1 0 hi hj h)

theorem countOf_countSet_lane_ne {i j : Nat} (hi : i < 65536) (hj : j < 65536) (h : i ≠ j) :
    countOf (laneCnt i) x (countSet (laneCnt j) x n s) = countOf (laneCnt i) x s :=
  tabGet_set_ne _ _ (counterKey_idx_ne x 1 0 hi hj h)

@[simp] theorem countOf_modLane (l : Nat) (f : LaneSt → LaneSt) : countOf c x (modLane l f s) = countOf c x s := rfl

/-- A counter that counts after what it does not see. -/
theorem counted_count_of {u : State} (h : countOf c x u = countOf c x s) : counted c x n s (count c x n u) := by
  rw [counted, ← h]
  exact counted_count c x n u

end

end Sys2Proof.Proofs
end

section
/-!
PROOFS. What the shared steps of bring-up leave: a phase entered, an attempt failed, ACTIVE entered and left, RX_DETECT and REACQUIRE
(R76, R77, R79).
-/

namespace Sys2Proof.Proofs

open Sys2Proof Sys2Proof.Machine Sys2Proof.Laws

/-! ### A phase entered -/

section

variable (p : Nat) (ph : LinkPhase) (s : State)

@[simp] theorem linkOf_enterPhase : linkOf (enterPhase p ph s) p = { linkOf s p with phase := ph, since := s.now } := linkOf_setLink _ _ _

theorem enterPhase_phase : (linkOf (enterPhase p ph s) p).phase = ph := congrArg Link.phase (linkOf_enterPhase p ph s)

theorem enterPhase_since : (linkOf (enterPhase p ph s) p).since = s.now := congrArg Link.since (linkOf_enterPhase p ph s)

@[simp] theorem enterPhase_now : (enterPhase p ph s).now = s.now := rfl

theorem linkOf_enterPhase_ne {q : Nat} (h : q ≠ p) : linkOf (enterPhase p ph s) q = linkOf s q := linkOf_setLink_ne s h _

@[simp] theorem laneOf_enterPhase (l : Nat) : laneOf (enterPhase p ph s) l = laneOf s l := rfl

@[simp] theorem fabric_enterPhase : fabric (enterPhase p ph s) = fabric s := rfl

@[simp] theorem modLanes_now (f : LaneSt → LaneSt) : (modLanes p f s).now = s.now := (keeps_modLanes p f s).same .now rfl

end

/-! ### A failed attempt (R77) -/

/-- A lane after a failed attempt. -/
def failedLane (cause detail : Nat) (v : LaneSt) : LaneSt := scanAborted (unlocked { v with lastCause := cause, lastDetail := detail % 65536 })

section

variable {α : Type} (g : LaneSt → α) (hg : ∀ v scan, g { v with scan := scan } = g v) (v : LaneSt)
include hg

theorem scanAborted_keeps : g (scanAborted v) = g v := by
  unfold scanAborted
  split
  · exact hg v _
  · rfl

theorem failedLane_reads (cause detail : Nat) :
    g (failedLane cause detail v) = g (unlocked { v with lastCause := cause, lastDetail := detail % 65536 }) := scanAborted_keeps g hg _

end

section

variable (p cause detail : Nat) (s : State)

theorem linkOf_setCause (q : Nat) : linkOf (setCause p cause detail s) q = linkOf s q := linkOf_modLanes p s _ q

theorem fabric_setCause : fabric (setCause p cause detail s) = fabric s := fabric_of_unlaned (unlaned_modLanes p s _)

/-- The state in which a failed attempt sets its port's link: counted, shown by the lanes, logged as `failLogged` says. -/
def attemptShown (logs : Bool) : State :=
  let s1 := setCause p cause detail (count (cFailCause cause) p 1 (countAttempt p s))
  let s2 := if logs then s1 else kiln 0x0303 [(2, p), (1, phaseCode (linkOf s p).phase), (1, cause), (2, detail)] s1
  countLanes cSquelches p (modLanes p (fun v => scanAborted (unlocked v)) s2)

/-- A failed attempt: the lanes as they show it, then the link FAILED or in BACKOFF. -/
theorem attemptFail_eq : attemptFail p cause detail s =
    let v := linkOf s p
    let b := if cause == 4 then min (v.backoffMs * 4) (laneBackoffMax s p) else v.backoffMs
    let out := laneMaxAttempts s p != 0 && v.inRow + 1 ≥ laneMaxAttempts s p
    let s3 := attemptShown p cause detail s (v.failLogged && !out)
    let v' := { v with since := s.now, inRow := v.inRow + 1, failLogged := true }
    if out then setLink p { v' with phase := .failed, backoffMs := b } (kiln 0x0305 [(2, p), (2, countOf cAttempts p s3)] s3)
    else setLink p { v' with phase := .backoff, waitMs := b, backoffMs := min (b * 2) (laneBackoffMax s p) } s3 := rfl

theorem laneOf_attemptShown (logs : Bool) (l : Nat) : laneOf (attemptShown p cause detail s logs) l =
    if l ∈ lanesOf s p then failedLane cause detail (laneOf s l) else laneOf s l := by
  unfold attemptShown
  dsimp only
  generalize hu : count (cFailCause cause) p 1 (countAttempt p s) = u
  have hlane : ∀ k, laneOf u k = laneOf s k := by subst hu; exact fun _ => rfl
  have hlanes : lanesOf u p = lanesOf s p := by subst hu; rfl
  generalize hw : (if logs then setCause p cause detail u else kiln _ _ (setCause p cause detail u)) = w
  have hlane' : ∀ k, laneOf w k = laneOf (setCause p cause detail u) k := by
    subst hw
    exact laneOf_of_lane (by split <;> simp)
  have hlanes' : lanesOf w p = lanesOf u p := by
    subst hw
    refine lanesOf_of_mac ?_ p
    split
    · exact (keeps_setCause p cause detail u).same .mac rfl
    · exact (kiln_mac _ _ _).trans ((keeps_setCause p cause detail u).same .mac rfl)
  rw [laneOf_of_lane (countLanes_lane p _ _), laneOf_modLanes, hlane', hlanes', setCause, laneOf_modLanes, hlanes, hlane]
  by_cases h : l ∈ lanesOf s p
  · simp [h, failedLane]
  · simp [h]

/-- A failed attempt shows in the port's lanes and in no other. -/
theorem laneOf_attemptFail (l : Nat) : laneOf (attemptFail p cause detail s) l =
    if l ∈ lanesOf s p then failedLane cause detail (laneOf s l) else laneOf s l := by
  rw [attemptFail_eq]
  dsimp only
  split
  · rw [laneOf_setLink, laneOf_kiln, laneOf_attemptShown]
  · rw [laneOf_setLink, laneOf_attemptShown]

theorem fabric_attemptShown (logs : Bool) : fabric (attemptShown p cause detail s logs) = fabric s := by
  unfold attemptShown
  dsimp only
  rw [fabric_of_lane (countLanes_lane p _ _), fabric_of_unlaned (unlaned_modLanes p _ _)]
  split
  · exact fabric_setCause _ _ _ _
  · exact (fabric_kiln _ _ _).trans (fabric_setCause _ _ _ _)

theorem fabric_attemptFail : fabric (attemptFail p cause detail s) = fabric s := by
  rw [attemptFail_eq]
  dsimp only
  split
  · rw [fabric_setLink, fabric_kiln, fabric_attemptShown]
  · rw [fabric_setLink, fabric_attemptShown]

end

section

variable (p cause detail : Nat) {s u : State}

theorem attemptEnded_attemptFail_self (s : State) : attemptEnded p cause s (attemptFail p cause detail s) := by
  rw [attemptFail_eq]
  unfold attemptEnded
  dsimp only
  by_cases hout : laneMaxAttempts s p ≠ 0 ∧ laneMaxAttempts s p ≤ (linkOf s p).inRow + 1
  · simp [hout]
  · rw [if_neg (by simpa using hout)]
    simp [hout]

/-- An attempt that fails has failed since every earlier state with the port's link and configuration. -/
theorem attemptEnded_attemptFail (hlink : linkOf u p = linkOf s p) (hcfg : laneConfig u p = laneConfig s p) :
    attemptEnded p cause s (attemptFail p cause detail u) := by
  have h := attemptEnded_attemptFail_self p cause detail u
  simp only [attemptEnded, laneBackoffMax, laneMaxAttempts, hlink, hcfg] at h ⊢
  exact h

theorem attemptFailed_attemptFail (hlink : linkOf u p = linkOf s p) (hcfg : laneConfig u p = laneConfig s p) (hmac : u.mac = s.mac) :
    attemptFailed p cause s (attemptFail p cause detail u) := by
  refine ⟨attemptEnded_attemptFail p cause detail hlink hcfg, fun l hl => ?_⟩
  rw [laneOf_attemptFail, lanesOf_of_mac hmac, if_pos hl]
  exact ⟨failedLane_reads LaneSt.lastCause (fun _ _ => rfl) _ _ _, failedLane_reads LaneSt.cdrLock (fun _ _ => rfl) _ _ _⟩

/-- An attempt whose time has run out has failed. -/
theorem attemptFailed_reach (t : Nat) (s : State) : attemptFailed p cause s (attemptFail p cause detail (reach t s)) :=
  attemptFailed_attemptFail p cause detail rfl rfl rfl

end

theorem attemptFailed_kiln {p cause code : Nat} {fs : List (Nat × Nat)} {s t : State} (h : attemptFailed p cause s t) :
    attemptFailed p cause s (kiln code fs t) := by
  simpa only [attemptFailed, attemptEnded, laneOf_kiln, linkOf_of_lane (kiln_lane code fs t)] using h

/-! ### A lane's object -/

/-- A change of a lane's reception leaves its object. -/
theorem laneConfig_modLane (s : State) (k : Nat) (f : LaneSt → LaneSt) (h : ∀ v, (f v).cfg = v.cfg) (l : Nat) :
    laneConfig (modLane k f s) l = laneConfig s l := by
  rw [laneConfig, laneOf_modLane_keeps s LaneSt.cfg k f h, laneConfig]

/-! ### RX_DETECT (R76 step 1) -/

/-- A lane at a new acquisition with these taps. -/
def acquiring (taps : Bytes) (v : LaneSt) : LaneSt := { unlocked v with coeff := taps, malformed := [], signal := false }

/-- The lanes of port `p` at a new acquisition. -/
def detectStart (p : Nat) (s : State) : State := (lanesOf s p).foldl (fun s l => modLane l (acquiring (laneTaps s l)) s) s

section

variable (p : Nat) (s : State)

theorem enterRxDetect_eq : enterRxDetect p s =
    setLink p { linkOf (detectStart p s) p with phase := .rxDetect, since := (detectStart p s).now, refclkWait := false } (detectStart p s) := rfl

theorem unlaned_detectStart : unlaned (detectStart p s) = unlaned s := by
  unfold detectStart
  exact foldl_keeps unlaned fun _ _ _ => rfl

theorem linkOf_enterRxDetect : (linkOf (enterRxDetect p s) p).phase = .rxDetect ∧ (linkOf (enterRxDetect p s) p).refclkWait = false := by
  rw [enterRxDetect_eq, linkOf_setLink]
  exact ⟨rfl, rfl⟩

theorem linkOf_enterRxDetect_ne {q : Nat} (h : q ≠ p) : linkOf (enterRxDetect p s) q = linkOf s q :=
  (linkOf_setLink_ne _ h _).trans (linkOf_of_unlaned (unlaned_detectStart p s) q)

theorem fabric_enterRxDetect : fabric (enterRxDetect p s) = fabric s :=
  (fabric_setLink _ p _).trans (fabric_of_unlaned (unlaned_detectStart p s))

theorem cfg_enterRxDetect (l : Nat) : (laneOf (enterRxDetect p s) l).cfg = (laneOf s l).cfg := by
  rw [enterRxDetect_eq, laneOf_setLink]
  unfold detectStart
  exact foldl_keeps (fun s => (laneOf s l).cfg) fun s k _ => laneOf_modLane_keeps s LaneSt.cfg k (acquiring _) (fun _ => rfl) l

end

/-! ### ACTIVE left (R79, R96) -/

/-- A lane back in this mode. -/
def modeRestored (mode : Nat) (v : LaneSt) : LaneSt := { v with modeInUse := mode, eqReduced := false, stepAt := none }

/-- The lanes of port `p` back in their configured modes. -/
def lanesRestored (p : Nat) (s : State) : State := (lanesOf s p).foldl (fun s l => modLane l (modeRestored (laneMode s l)) s) s

section

variable (p : Nat) (s : State)

theorem leaveActive_lane (cause : Nat) : (leaveActive p cause s).lane = (lanesRestored p s).lane := by
  rw [leaveActive, kiln_lane, countLanes_lane, countSet_lane, modPow_lane, lanesRestored]
  rfl

theorem unlaned_leaveActive (cause : Nat) : unlaned (leaveActive p cause s) = unlaned s := by
  rw [unlaned_of_lane (leaveActive_lane p s cause), lanesRestored]
  exact foldl_keeps unlaned fun _ _ _ => rfl

theorem laneConfig_leaveActive (cause l : Nat) : laneConfig (leaveActive p cause s) l = laneConfig s l := by
  have hcfg : (laneOf (lanesRestored p s) l).cfg = (laneOf s l).cfg := by
    unfold lanesRestored
    exact foldl_keeps (fun s => (laneOf s l).cfg) fun s k _ => laneOf_modLane_keeps s LaneSt.cfg k (modeRestored _) (fun _ => rfl) l
  rw [laneConfig, laneOf_of_lane (leaveActive_lane p s cause), hcfg, laneConfig]

/-- The link at the MAC down for a loss, after ACTIVE. -/
def downed (cause : Nat) : State := macLinkDown p (leaveActive p cause s)

theorem downed_lane (cause : Nat) : (downed p s cause).lane = (leaveActive p cause s).lane := (keeps_macLinkDown p _).same .lane rfl

theorem unlaned_downed (cause : Nat) : unlaned (downed p s cause) = unlaned s :=
  (unlaned_of_lane (downed_lane p s cause)).trans (unlaned_leaveActive p s cause)

theorem laneConfig_downed (cause l : Nat) : laneConfig (downed p s cause) l = laneConfig s l := by
  rw [laneConfig, laneOf_of_lane (downed_lane p s cause)]
  exact laneConfig_leaveActive p s cause l

/-! ### REACQUIRE (R79) -/

theorem linkOf_enterReacquire : (linkOf (enterReacquire p s) p).phase = .reacquireLock := enterPhase_phase p _ _

theorem linkOf_enterReacquire_ne {q : Nat} (h : q ≠ p) : linkOf (enterReacquire p s) q = linkOf s q :=
  (linkOf_enterPhase_ne p _ _ h).trans (linkOf_modLanes p s _ q)

theorem fabric_enterReacquire : fabric (enterReacquire p s) = fabric s :=
  (fabric_enterPhase p _ _).trans (fabric_of_unlaned (unlaned_modLanes p s _))

/-- ACTIVE of 10 ms or more with signal everywhere goes to REACQUIRE. -/
theorem dropLink_reacquires {cause detail : Nat} {signalOnAll : Bool} (hs : signalOnAll = true) (h : (linkOf s p).since + 10 * tMs ≤ s.now) :
    (linkOf (dropLink p cause detail signalOnAll s) p).phase = .reacquireLock := by
  rw [dropLink, if_pos (by simpa [hs] using h)]
  exact linkOf_enterReacquire p _

/-- Any other loss ends the attempt. -/
theorem dropLink_fails {cause detail : Nat} {signalOnAll : Bool} (h : ¬ (signalOnAll = true ∧ (linkOf s p).since + 10 * tMs ≤ s.now)) :
    attemptEnded p cause s (dropLink p cause detail signalOnAll s) := by
  rw [dropLink, if_neg (by simpa using h)]
  exact attemptEnded_attemptFail p cause detail (linkOf_of_unlaned (unlaned_downed p s cause) p) (laneConfig_downed p s cause p)

end

/-! ### ACTIVE entered (R76 step 7, R79) -/

section

variable (p : Nat) (s : State)

theorem macLinkUp_lane : (macLinkUp p s).lane = s.lane := (keeps_macLinkUp p s).same .lane rfl

/-- A port that comes up is in no hold. -/
theorem macLinkUp_hold : tabFind (macLinkUp p s).sw.hold p = none := by
  unfold macLinkUp
  dsimp only
  rw [(keeps_sendFlow _ _ _ _ _).same .sw rfl]
  split
  · rw [kiln_sw, count_sw]
    exact tabFind_del _ _
  · assumption

/-- Taking a reference changes nothing else of a lane. -/
theorem noteReference_keeps {α : Type} {g : LaneSt → α} (hg : ∀ v r, g { v with reference := r } = g v) (k l : Nat) :
    g (laneOf (noteReference k s) l) = g (laneOf s l) := by
  unfold noteReference
  split
  · rfl
  · exact laneOf_modLane_keeps _ g k _ (fun v => hg v _) l

/-- The lanes of port `p` locked, with their snapshots and references taken. -/
def lanesUp (p : Nat) (s : State) : State :=
  (lanesOf s p).foldl (fun s l => noteReference l s) (modLanes p (fun v =>
    { v with cdrLock := true, symbolLock := true, blockLock := true, snapshot := v.coeff, fecLock := portFec s p != 0 }) s)

/-- Port `p`'s link in ACTIVE. -/
def linkActive (p : Nat) (s : State) : State :=
  setLink p { linkOf s p with phase := .active, since := s.now, inRow := 0, failLogged := false } s

theorem enterActive_eq (reacq : Bool) : enterActive p reacq s =
    let s3 := if reacq then countLanes cReacquires p (linkActive p (lanesUp p s)) else linkActive p (lanesUp p s)
    macLinkUp p (kiln 0x0301 [(2, p), (1, b2n reacq), (2, countOf cAttempts p s3)] s3) := rfl

theorem enterActive_lane (reacq : Bool) : (enterActive p reacq s).lane = (linkActive p (lanesUp p s)).lane := by
  rw [enterActive_eq]
  dsimp only
  rw [macLinkUp_lane, kiln_lane]
  split
  · exact countLanes_lane _ _ _
  · rfl

theorem enterActive_hold (reacq : Bool) : tabFind (enterActive p reacq s).sw.hold p = none := macLinkUp_hold p _

theorem linkOf_enterActive (reacq : Bool) :
    (linkOf (enterActive p reacq s) p).phase = .active ∧ (linkOf (enterActive p reacq s) p).inRow = 0 := by
  rw [linkOf_of_lane (enterActive_lane p s reacq), linkActive, linkOf_setLink]
  exact ⟨rfl, rfl⟩

/-- A lane of a port that comes up has block lock and the snapshot of its taps. -/
theorem laneOf_enterActive (reacq : Bool) {l : Nat} (h : l ∈ lanesOf s p) : (laneOf (enterActive p reacq s) l).blockLock = true ∧
    (laneOf (enterActive p reacq s) l).snapshot = (laneOf s l).coeff := by
  have hup : ∀ {α : Type} (g : LaneSt → α), (∀ v r, g { v with reference := r } = g v) → g (laneOf (lanesUp p s) l) =
      g { laneOf s l with cdrLock := true, symbolLock := true, blockLock := true, snapshot := (laneOf s l).coeff,
                          fecLock := portFec s p != 0 } := by
    intro α g hg
    unfold lanesUp
    refine (foldl_keeps (fun s => g (laneOf s l)) fun s k _ => noteReference_keeps s hg k l).trans ?_
    rw [laneOf_modLanes_mem p s _ h]
  rw [laneOf_of_lane (enterActive_lane p s reacq), linkActive, laneOf_setLink]
  exact ⟨hup LaneSt.blockLock fun _ _ => rfl, hup LaneSt.snapshot fun _ _ => rfl⟩

end

end Sys2Proof.Proofs
end

section
/-!
PROOFS. Lane objects read and write (O12): every read answers the object as it stands, and a write changes the object of its own lane alone.
-/

namespace Sys2Proof.Proofs

open Sys2Proof Sys2Proof.Machine Sys2Proof.Laws

/-- An object stored unless it is its default reads back as written. -/
theorem getD_stored (o d : Bytes) : (if o == d then none else some o).getD d = o := by
  by_cases h : o = d
  · simp [h]
  · simp [h]

/-! ### LANE_CONFIG (R70, R71) -/

section

variable {s t : State} {l : Nat}

theorem laneConfig_written {o : Bytes} (h : (laneOf t l).cfg = if o == laneDefault l then none else some o) : laneConfig t l = o := by
  rw [laneConfig, h, getD_stored]

theorem laneConfig_of_cfg (h : (laneOf t l).cfg = (laneOf s l).cfg) : laneConfig t l = laneConfig s l := by
  rw [laneConfig, h, laneConfig]

theorem laneTestOwn_written {o : Bytes} (h : (laneOf t l).test = if o == image 32 [(0, 2, l)] then none else some o) :
    laneTestOwn t l = o := by
  rw [laneTestOwn, h, getD_stored]

theorem laneTestOwn_of_test (h : (laneOf t l).test = (laneOf s l).test) : laneTestOwn t l = laneTestOwn s l := by
  rw [laneTestOwn, h, laneTestOwn]

end

section

variable {c : Cmd} {s : State}

/-- A port in RX_DETECT starts it again when a lane of it is configured. -/
def detectRestarted (l : Nat) (s : State) : State :=
  match portOfLane s l with
  | some q => if (linkOf s q).phase == .rxDetect then enterRxDetect q s else s
  | none => s

theorem cfg_detectRestarted (l : Nat) (s : State) (k : Nat) : (laneOf (detectRestarted l s) k).cfg = (laneOf s k).cfg := by
  unfold detectRestarted
  split
  · split
    · exact cfg_enterRxDetect _ s k
    · rfl
  · rfl

theorem detectRestarted_host (l : Nat) (s : State) : (detectRestarted l s).host = s.host := by
  unfold detectRestarted
  split
  · split
    · exact (keeps_enterRxDetect _ s).same .host rfl
    · rfl
  · rfl

theorem laneConfigWrite_writes : Writes opLaneConfigWrite c (.laneConfigWrite c) s fun t =>
    laneConfig t (u16 (given c s) 0) = given c s ∧ ∀ l, l ≠ u16 (given c s) 0 → laneConfig t l = laneConfig s l := by
  refine writes_of rfl fun _ => ⟨detectRestarted (u16 (given c s) 0) (modLane (u16 (given c s) 0) _ (takenState c s)), rfl,
    (congrArg HostState.ended (detectRestarted_host _ _) :), laneConfig_written ?_, fun l h => laneConfig_of_cfg ?_⟩
  · exact (cfg_detectRestarted _ _ _).trans (congrArg LaneSt.cfg (laneOf_modLane (takenState c s) _ _))
  · exact (cfg_detectRestarted _ _ _).trans (congrArg LaneSt.cfg (laneOf_modLane_ne (takenState c s) h _))

/-! ### LANE_TEST (R84, R87, R88) -/

/-- Lane `l` with the LANE_TEST object `o` written: in TEST or not, or in a port. -/
def testWritten (l : Nat) (o : Bytes) (owned test : Bool) (v : LaneSt) : LaneSt :=
  let v1 := { v with test := if o == image 32 [(0, 2, l)] then none else some o, inTest := test
                     signal := if owned then v.signal else test && (v.signal || inRange (testLoopback o) 1 2) }
  if test || owned then v1 else scanAborted v1

theorem testWritten_test (l : Nat) (o : Bytes) (owned test : Bool) (v : LaneSt) :
    (testWritten l o owned test v).test = if o == image 32 [(0, 2, l)] then none else some o := by
  unfold testWritten
  dsimp only
  split
  · rfl
  · exact scanAborted_keeps LaneSt.test (fun _ _ => rfl) _

/-- The checkers of lanes `ls` cleared, or not. -/
def checkersCleared (clears : Bool) (ls : List Nat) (s : State) : State := if clears then ls.foldl (fun s l => clearChecker l s) s else s

theorem test_clearChecker (k : Nat) (s : State) (l : Nat) : (laneOf (clearChecker k s) l).test = (laneOf s l).test := by
  unfold clearChecker
  rw [laneOf_of_lane (foldl_keeps State.lane fun s c _ => countSet_lane c k 0 s)]
  exact laneOf_modLane_keeps s LaneSt.test k (fun v => { v with chkLocked := false, chkRun := 0, chkWindow := [] }) (fun _ => rfl) l

theorem test_checkersCleared (clears : Bool) (ls : List Nat) (s : State) (l : Nat) :
    (laneOf (checkersCleared clears ls s) l).test = (laneOf s l).test := by
  unfold checkersCleared
  split
  · exact foldl_keeps (fun s => (laneOf s l).test) fun s k _ => test_clearChecker k s l
  · rfl

theorem checkersCleared_host (clears : Bool) (ls : List Nat) (s : State) : (checkersCleared clears ls s).host = s.host := by
  unfold checkersCleared
  split
  · exact foldl_keeps State.host fun s k _ => (keeps_clearChecker k s).same .host rfl
  · rfl

theorem laneTestWrite_writes : Writes opLaneTestWrite c (.laneTestWrite c) s fun t =>
    laneTestOwn t (u16 (given c s) 0) = given c s ∧ ∀ l, l ≠ u16 (given c s) 0 → laneTestOwn t l = laneTestOwn s l := by
  refine writes_of rfl fun _ => ⟨checkersCleared _ _ (modLane (u16 (given c s) 0) (testWritten (u16 (given c s) 0) (given c s) _ _)
    (takenState c s)), rfl, (congrArg HostState.ended (checkersCleared_host _ _ _) :), laneTestOwn_written ?_, fun l h => laneTestOwn_of_test ?_⟩
  · refine (test_checkersCleared _ _ _ _).trans ?_
    rw [laneOf_modLane, testWritten_test]
  · refine (test_checkersCleared _ _ _ _).trans ?_
    rw [laneOf_modLane_ne _ h]
    rfl

/-! ### Eye scans (R91 to R94) -/

theorem eyeResult_completes (h : passes opEyeResult c s = true) : Completes (.eyeResult c) s fun t =>
    let pts := ((laneOf s (u16 (given c s) 0)).scan.points.drop (512 * u32 (given c s) 4)).take 512
    answered opEyeResult c .ok (toLe 2 pts.length) (pts.flatMap fun x => toLe 4 x.1 ++ toLe 4 x.2) s t ∧ t.lane = s.lane := by
  exact ⟨_, congrArg Host.Outcome.next (icoux_done h rfl), answered_endCommand rfl rfl rfl, rfl⟩

/-- The EYE_STATUS object of lane `l` and its scan, with these voltage step and unit interval. -/
def eyeStatusObj (l : Nat) (v : EyeScan) (step ui : Nat) : Bytes :=
  let g := if v.status == .idle then (0, 0) else scanGrid v.request
  image 24 [(0, 2, l), (2, 1, scanCode v.status), (3, 1, v.flags), (4, 2, v.points.length), (6, 2, g.1), (8, 2, g.2), (12, 4, step), (16, 4, ui)]

/-- EYE_STATUS draws the voltage step and the rounding of the unit interval (the model's choice, assumption 20). -/
theorem eyeStatus_completes (h : passes opEyeStatus c s = true) : Completes (.eyeStatus c) s fun t => ∃ step ui,
    let v := (laneOf s (u16 (given c s) 0)).scan
    let g := if v.status = .idle then (0, 0) else scanGrid v.request
    answered opEyeStatus c .ok [] (image 24 [(0, 2, u16 (given c s) 0), (2, 1, scanCode v.status), (3, 1, v.flags), (4, 2, v.points.length),
      (6, 2, g.1), (8, 2, g.2), (12, 4, step), (16, 4, ui)]) s t ∧ t.lane = s.lane := by
  have hexec : ∃ step ui, exec (.eyeStatus c) s = .next (endCommand
      (endedOf opEyeStatus (effectiveCmd c s) .ok [] (eyeStatusObj (u16 (given c s) 0) (laneOf s (u16 (given c s) 0)).scan step ui) false)
      (takeFree (takeFree (takenState c s)).2).2) := ⟨_, _, congrArg Host.Outcome.next (icoux_done h rfl)⟩
  obtain ⟨step, ui, hexec⟩ := hexec
  refine ⟨_, hexec, step, ui, answered_endCommand rfl rfl ?_, rfl⟩
  simp only [eyeStatusObj, beq_iff_eq]

/-- A scan of at most 4,096 points starts without any. -/
theorem eyeScan_writes (h : scanPoints (given c s) ≤ 4096) : Writes opEyeScan c (.eyeScan c) s fun t =>
    (laneOf t (u16 (given c s) 0)).scan.status = .running ∧ (laneOf t (u16 (given c s) 0)).scan.request = given c s ∧
    (laneOf t (u16 (given c s) 0)).scan.points = [] := by
  have hscan := fun f => congrArg LaneSt.scan (laneOf_modLane (takenState c s) (u16 (given c s) 0) f)
  exact writes_of rfl fun _ => ⟨_, if_neg (Nat.not_lt_of_le h), rfl, congrArg EyeScan.status (hscan _), congrArg EyeScan.request (hscan _),
    congrArg EyeScan.points (hscan _)⟩

theorem scanAborted_running {v : LaneSt} (h : v.scan.status = .running) : (scanAborted v).scan = { v.scan with status := .aborted } := by
  rw [scanAborted, if_pos (by simp [h])]

theorem eyeScanAbort_writes (h : (laneOf s (u16 (given c s) 0)).scan.status = .running) : Writes opEyeScanAbort c (.eyeScanAbort c) s fun t =>
    (laneOf t (u16 (given c s) 0)).scan.status = .aborted ∧
    (laneOf t (u16 (given c s) 0)).scan.points = (laneOf s (u16 (given c s) 0)).scan.points := by
  have hscan : (laneOf (modLane (u16 (given c s) 0) scanAborted (takenState c s)) (u16 (given c s) 0)).scan =
      { (laneOf s (u16 (given c s) 0)).scan with status := .aborted } := by
    rw [laneOf_modLane]
    exact scanAborted_running h
  exact writes_of rfl fun _ => ⟨_, rfl, rfl, (congrArg EyeScan.status hscan :), (congrArg EyeScan.points hscan :)⟩

end

/-- Settles O12: each read answers its object, and each write has its own lemma. -/
theorem laneObjectsReadAndWrite : Obligations.LaneObjectsReadAndWrite :=
  ⟨fun _ _ => ⟨reads_of rfl fun _ => rfl, reads_of rfl fun _ => rfl, reads_of rfl fun _ => rfl, eyeResult_completes, eyeStatus_completes⟩,
    fun _ _ => ⟨laneConfigWrite_writes, laneTestWrite_writes, eyeScan_writes, eyeScanAbort_writes⟩⟩

end Sys2Proof.Proofs
end

section
/-!
PROOFS. Bring-up advances or fails (O13): each step's success within its limit, each step's timeout or loss, and the statement from both.
-/

namespace Sys2Proof.Proofs

open Sys2Proof Sys2Proof.Machine Sys2Proof.Laws

/-! ### Bring-up goes forward (R75 to R77, R79) -/

section

variable {p : Port} {s : State}

theorem signalDetected_completes (hc : configured s p.val = true) (hp : (linkOf s p.val).phase = .rxDetect) :
    Completes (.signalDetected p) s fun t => (linkOf t p.val).phase = afterDetect s p.val ∧ (linkOf s p.val).since + tMs ≤ t.now ∧
      ∀ l ∈ lanesOf s p.val, (laneOf t l).signal = true := by
  refine ⟨_, (if_neg (by simp [hc])).trans (if_pos (by simp [hp])), enterPhase_phase _ _ _, ?_, fun l hl => ?_⟩
  · rw [enterPhase_now, modLanes_now]
    exact le_reach_now _ _
  · rw [laneOf_enterPhase, laneOf_modLanes_mem p.val (reach _ s) _ hl]

theorem autonegResolved_completes (hp : (linkOf s p.val).phase = .autoneg) (hw : s.now ≤ (linkOf s p.val).since + 3 * tSec) :
    Completes (.autonegResolved p true) s fun t => (linkOf t p.val).phase = .training ∧ (linkOf t p.val).since = s.now :=
  ⟨enterPhase p.val .training s, if_pos (by simpa [hp, Machine.within] using hw), enterPhase_phase _ _ _, enterPhase_since _ _ _⟩

/-- The port's lanes with the taps their training has arrived at. -/
def lanesTrained (p : Port) (taps : List Bytes) (s : State) : State :=
  (lanesOf s p.val).foldl (fun s l =>
    match taps[l - p.val]? with
    | some t => modLane l (fun v => { v with coeff := slice t 0 5 }) s
    | none => s) s

theorem lanesTrained_now (taps : List Bytes) : (lanesTrained p taps s).now = s.now := by
  unfold lanesTrained
  refine foldl_keeps State.now fun s l _ => ?_
  split <;> rfl

theorem trainingDone_completes {taps : List Bytes} (hp : (linkOf s p.val).phase = .training)
    (hw : s.now ≤ (linkOf s p.val).since + trainingLimit s p.val) :
    Completes (.trainingDone p taps) s fun t => (linkOf t p.val).phase = .lock ∧ (linkOf t p.val).since = s.now := by
  refine ⟨enterPhase p.val .lock (if trainsWithPartner s p.val then lanesTrained p taps s else s),
    if_pos (by simpa [hp, Machine.within] using hw), enterPhase_phase _ _ _, (enterPhase_since _ _ _).trans ?_⟩
  split
  · exact lanesTrained_now taps
  · rfl

theorem exec_lockAcquired_lock (hp : (linkOf s p.val).phase = .lock) (hw : s.now ≤ (linkOf s p.val).since + 10 * tMs) :
    exec (.lockAcquired p) s =
      .next (enterPhase p.val .align (modLanes p.val (fun v => { v with cdrLock := true, symbolLock := true }) s)) := by
  change execLockAcquired p s = _
  simp [execLockAcquired, hp, Machine.within, hw]

theorem lockAcquired_completes (hp : (linkOf s p.val).phase = .lock) (hw : s.now ≤ (linkOf s p.val).since + 10 * tMs) :
    Completes (.lockAcquired p) s fun t => (linkOf t p.val).phase = .align ∧
      ∀ l ∈ lanesOf s p.val, (laneOf t l).cdrLock = true ∧ (laneOf t l).symbolLock = true := by
  refine ⟨_, exec_lockAcquired_lock hp hw, enterPhase_phase _ _ _, fun l hl => ?_⟩
  rw [laneOf_enterPhase, laneOf_modLanes_mem _ _ _ hl]
  exact ⟨rfl, rfl⟩

theorem lockAcquired_reacquire_completes (hp : (linkOf s p.val).phase = .reacquireLock) (hw : s.now ≤ (linkOf s p.val).since + 50 * tUs)
    (hpll : (laneGroup s (p.val / 16)).pllLost = false) :
    Completes (.lockAcquired p) s fun t => (linkOf t p.val).phase = .reacquireAlign := by
  have hexec : exec (.lockAcquired p) s =
      .next (enterPhase p.val .reacquireAlign (modLanes p.val (fun v => { v with cdrLock := true, symbolLock := true }) s)) := by
    change execLockAcquired p s = _
    simp [execLockAcquired, hp, Machine.within, hw, pipeOfPort, hpll]
  exact ⟨_, hexec, enterPhase_phase _ _ _⟩

theorem linkUp_completes (hp : (linkOf s p.val).phase = .align) (hw : s.now ≤ (linkOf s p.val).since + 5 * tMs) :
    Completes (.linkUp p) s fun t =>
      (linkOf t p.val).phase = .active ∧ (linkOf t p.val).inRow = 0 ∧ tabFind t.sw.hold p.val = none ∧
      ∀ l ∈ lanesOf s p.val, (laneOf t l).blockLock = true ∧ (laneOf t l).snapshot = (laneOf s l).coeff := by
  obtain ⟨hphase, hrow⟩ := linkOf_enterActive p.val s false
  exact ⟨_, congrArg Host.Outcome.next (if_pos (by simpa [hp, Machine.within] using hw)), hphase, hrow, enterActive_hold p.val s false,
    fun _ => laneOf_enterActive p.val s false⟩

theorem reacquireDone_completes (hp : (linkOf s p.val).phase = .reacquireAlign) (hw : s.now ≤ (linkOf s p.val).since + 50 * tUs) :
    Completes (.reacquireDone p) s fun t =>
      (linkOf t p.val).phase = .active ∧ (linkOf t p.val).inRow = 0 ∧ tabFind t.sw.hold p.val = none := by
  obtain ⟨hphase, hrow⟩ := linkOf_enterActive p.val s true
  exact ⟨_, congrArg Host.Outcome.next (if_pos (by simpa [hp, Machine.within] using hw)), hphase, hrow, enterActive_hold p.val s true⟩

theorem backoffExpired_completes (hp : (linkOf s p.val).phase = .backoff) (hr : (linkOf s p.val).refclkWait = false) :
    Completes (.backoffExpired p) s fun t =>
      (linkOf t p.val).phase = .rxDetect ∧ (linkOf s p.val).since + (linkOf s p.val).waitMs * tMs ≤ t.now := by
  refine ⟨_, congrArg Host.Outcome.next (if_pos (by simp [hp, hr])), (linkOf_enterRxDetect p.val _).1, ?_⟩
  rw [(keeps_enterRxDetect p.val _).same .now rfl]
  exact le_reach_now _ _

theorem backoffReset_completes (hp : (linkOf s p.val).phase = .active) :
    Completes (.backoffReset p) s fun t =>
      (linkOf t p.val).backoffMs = laneBackoffMin s p.val ∧ (linkOf t p.val).phase = .active := by
  refine ⟨_, congrArg Host.Outcome.next (if_pos (by simp [hp])), congrArg Link.backoffMs (linkOf_setLink _ _ _),
    (congrArg Link.phase (linkOf_setLink _ _ _)).trans hp⟩

end

/-! ### Bring-up fails (R76 to R79) -/

section

variable {p : Port} {l : Lane} {s : State}

theorem anTimeout_fails (hp : (linkOf s p.val).phase = .autoneg) : Completes (.anTimeout p) s fun t => attemptFailed p.val 1 s t :=
  ⟨_, congrArg Host.Outcome.next (if_pos (by simp [hp])), attemptFailed_reach _ _ _ _ s⟩

theorem autonegResolved_fails (hp : (linkOf s p.val).phase = .autoneg) (hw : s.now ≤ (linkOf s p.val).since + 3 * tSec) :
    Completes (.autonegResolved p false) s fun t => attemptFailed p.val 2 s t :=
  ⟨stepFail p.val 2 p.val s, if_pos (by simpa [hp, Machine.within] using hw), attemptFailed_attemptFail _ _ _ rfl rfl rfl⟩

section

variable (hl : l.val ∈ lanesOf s p.val)
include hl

theorem trainingTimeout_fails (hp : (linkOf s p.val).phase = .training) :
    Completes (.trainingTimeout p l) s fun t => attemptFailed p.val 3 s t :=
  ⟨_, congrArg Host.Outcome.next (if_pos (by simp [hp, hl])), attemptFailed_reach _ _ _ _ s⟩

theorem lockTimeout_fails (hp : (linkOf s p.val).phase = .lock) : Completes (.lockTimeout p l) s fun t => attemptFailed p.val 5 s t :=
  ⟨_, congrArg Host.Outcome.next (if_pos (by simp [hp, hl])), attemptFailed_reach _ _ _ _ s⟩

/-- ALIGN fails at once for too much skew or too many slips, else when its time has run out. -/
theorem alignTimeout_fails {skewNs : Nat} (hp : (linkOf s p.val).phase = .align) :
    Completes (.alignTimeout p l skewNs) s fun t => attemptFailed p.val 6 s t := by
  have hexec : ∃ detail, exec (.alignTimeout p l skewNs) s = .next (attemptFail p.val 6 detail
      (if skewNs > 180 || (laneOf s l.val).slips ≥ 4096 then s else reach ((linkOf s p.val).since + 5 * tMs) s)) := by
    refine ⟨if skewNs > 180 then min skewNs 65535 else l.val, ?_⟩
    change execAlignTimeout p l skewNs s = _
    simp only [execAlignTimeout, hp, List.contains_iff_mem, hl, if_true]
    rfl
  obtain ⟨detail, hexec⟩ := hexec
  refine ⟨_, hexec, ?_⟩
  split
  · exact attemptFailed_attemptFail _ _ _ rfl rfl rfl
  · exact attemptFailed_reach _ _ _ _ s

variable (hpll : (laneGroup s (p.val / 16)).pllLost = false)
include hpll

theorem reacquireTimeout_lock_fails (hp : (linkOf s p.val).phase = .reacquireLock) :
    Completes (.reacquireTimeout p l) s fun t => attemptFailed p.val 5 s t := by
  have hexec : exec (.reacquireTimeout p l) s = .next (attemptFail p.val 5 l.val (reach ((linkOf s p.val).since + 50 * tUs) s)) := by
    change execReacquireTimeout p l s = _
    simp [execReacquireTimeout, hp, hl, pipeOfPort, hpll, stepFail]
  exact ⟨_, hexec, attemptFailed_reach _ _ _ _ s⟩

theorem reacquireTimeout_align_fails (hp : (linkOf s p.val).phase = .reacquireAlign) :
    Completes (.reacquireTimeout p l) s fun t => attemptFailed p.val 6 s t := by
  have hexec : exec (.reacquireTimeout p l) s = .next (attemptFail p.val 6 l.val (reach ((linkOf s p.val).since + 50 * tUs) s)) := by
    change execReacquireTimeout p l s = _
    simp [execReacquireTimeout, hp, hl, pipeOfPort, hpll, stepFail]
  exact ⟨_, hexec, attemptFailed_reach _ _ _ _ s⟩

end

/-- The lane without signal, and its loss counted. -/
def signalGone (l : Nat) (s : State) : State := count cSignalLosses l 1 (modLane l (fun v => { v with signal := false }) s)

theorem laneConfig_signalGone (s : State) (k l : Nat) : laneConfig (signalGone k s) l = laneConfig s l :=
  laneConfig_modLane s k (fun v => { v with signal := false }) (fun _ => rfl) l

theorem signalLost_fails (ho : portOfLane s l.val = some p.val) (hf : lossFails p.val l.val (linkOf s p.val).phase = true) :
    Completes (.signalLost l) s fun t => attemptFailed p.val 7 s t ∧ (laneOf t l.val).signal = false := by
  have hexec : exec (.signalLost l) s = .next (attemptFail p.val 7 l.val (signalGone l.val s)) := by
    change execSignalLost l s = _
    simp only [execSignalLost, ho, hf, if_true]
    rfl
  have hsignal : (laneOf (signalGone l.val s) l.val).signal = false := congrArg LaneSt.signal (laneOf_modLane s l.val _)
  refine ⟨_, hexec, attemptFailed_attemptFail _ _ _ rfl (laneConfig_signalGone s _ _) rfl, ?_⟩
  rw [laneOf_attemptFail]
  split
  · exact (failedLane_reads LaneSt.signal (fun _ _ => rfl) _ _ _).trans hsignal
  · exact hsignal

end

/-! ### ACTIVE ends (R79) -/

section

variable {p : Port} {l : Lane} {kind : Fin 4} {all : Bool} {s : State}

/-- The state in which LINK_DOWN drops the link: what ended ACTIVE counted, and the lane's signal as it is. -/
def lossNoted (kind l : Nat) (s : State) : State := modLane l (fun v => { v with signal := kind != 0 && v.signal }) (countDown kind l s)

theorem lossNoted_now (kind l : Nat) (s : State) : (lossNoted kind l s).now = s.now := (keeps_countDown kind l s).same .now rfl

theorem linkOf_lossNoted (kind l : Nat) (s : State) (q : Nat) : linkOf (lossNoted kind l s) q = linkOf s q :=
  (linkOf_modLane _ _ _ _).trans (linkOf_of_lane ((keeps_countDown kind l s).same .lane rfl) q)

theorem laneConfig_lossNoted (kind l : Nat) (s : State) (k : Nat) : laneConfig (lossNoted kind l s) k = laneConfig s k := by
  rw [lossNoted, laneConfig_modLane _ _ _ (by intro; rfl), laneConfig, laneOf_of_lane ((keeps_countDown kind l s).same .lane rfl), laneConfig]

variable (ho : portOfLane s l.val = some p.val) (ha : portActive s p.val = true)
include ho ha

theorem exec_linkDown : exec (.linkDown l kind all) s =
    .next (dropLink p.val (if kind.val = 0 then 7 else 8) l.val (all && kind.val != 0) (lossNoted kind.val l.val s)) := by
  change execLinkDown l kind all s = _
  simp only [execLinkDown, ho, ha, if_true, beq_iff_eq]
  rfl

theorem linkDown_reacquires (hall : (all && kind.val != 0) = true) (hlong : (linkOf s p.val).since + 10 * tMs ≤ s.now) :
    Completes (.linkDown l kind all) s fun t => (linkOf t p.val).phase = .reacquireLock := by
  refine ⟨_, exec_linkDown ho ha, dropLink_reacquires _ _ hall ?_⟩
  rwa [linkOf_lossNoted, lossNoted_now]

theorem linkDown_fails (h : ¬ ((all && kind.val != 0) = true ∧ (linkOf s p.val).since + 10 * tMs ≤ s.now)) :
    Completes (.linkDown l kind all) s fun t => attemptEnded p.val (if kind.val = 0 then 7 else 8) s t := by
  refine ⟨_, exec_linkDown ho ha, ?_⟩
  have hended := dropLink_fails p.val (lossNoted kind.val l.val s) (cause := if kind.val = 0 then 7 else 8) (detail := l.val)
    (signalOnAll := all && kind.val != 0) (by rwa [linkOf_lossNoted, lossNoted_now])
  simp only [attemptEnded, laneBackoffMax, laneMaxAttempts, linkOf_lossNoted, laneConfig_lossNoted] at hended ⊢
  exact hended

end

/-- Settles O13: each step's success, timeout and loss has its own lemma. -/
theorem bringUpAdvancesOrFails : Obligations.BringUpAdvancesOrFails :=
  ⟨fun _ _ _ => ⟨signalDetected_completes, autonegResolved_completes, trainingDone_completes, lockAcquired_completes,
      lockAcquired_reacquire_completes, linkUp_completes, reacquireDone_completes, backoffExpired_completes, backoffReset_completes⟩,
    fun _ _ _ _ => ⟨anTimeout_fails, autonegResolved_fails,
      fun hl => ⟨trainingTimeout_fails hl, lockTimeout_fails hl, alignTimeout_fails hl,
        fun hpll => ⟨reacquireTimeout_lock_fails hl hpll, reacquireTimeout_align_fails hl hpll⟩⟩,
      signalLost_fails, fun ho ha _ _ => ⟨linkDown_reacquires ho ha, linkDown_fails ho ha⟩⟩⟩

end Sys2Proof.Proofs
end

section
/-!
PROOFS. Lanes acquire and align (O14): violations, lost locks and breaks of signal in acquisition, block and marker lock, FEC decoding and the
degrade window, and the statement from them.
-/

namespace Sys2Proof.Proofs

open Sys2Proof Sys2Proof.Machine Sys2Proof.Laws

/-! ### Acquisition (R76, R78) -/

section

variable {p : Port} {l : Lane} {s : State}

theorem anPageViolation_completes (hp : (linkOf s p.val).phase = .autoneg) : Completes (.anPageViolation p) s fun t =>
    counted cPartnerViolations p.val 1 s t ∧ t.lane = s.lane :=
  ⟨_, congrArg Host.Outcome.next (if_pos (by simp [hp])), counted_count _ _ _ _, rfl⟩

theorem signalBreak_unowned_completes (ho : portOfLane s l.val = none) : Completes (.signalBreak l) s fun t => (laneOf t l.val).signal = false := by
  have hexec : exec (.signalBreak l) s = .next (modLane l.val (fun v => { v with signal := false }) s) := by
    change execSignalBreak l s = _
    simp only [execSignalBreak, ho]
  exact ⟨_, hexec, congrArg LaneSt.signal (laneOf_modLane s l.val _)⟩

/-- A break on a lane that must show signal starts the count of 1 ms again. -/
theorem signalBreak_completes (ho : portOfLane s l.val = some p.val) (hp : (linkOf s p.val).phase = .rxDetect)
    (hl : l.val ∈ detectLanes s p.val) : Completes (.signalBreak l) s fun t =>
      (linkOf t p.val).since = s.now ∧ (linkOf t p.val).phase = .rxDetect := by
  have hexec : exec (.signalBreak l) s = .next (setLink p.val { linkOf s p.val with since := s.now } s) := by
    change execSignalBreak l s = _
    simp [execSignalBreak, ho, hp, hl]
  exact ⟨_, hexec, congrArg Link.since (linkOf_setLink _ _ _), (congrArg Link.phase (linkOf_setLink _ _ _)).trans hp⟩

theorem cdrLockLost_completes (ho : portOfLane s l.val = some p.val) (hp : (linkOf s p.val).phase = .lock) :
    Completes (.cdrLockLost l) s fun t => (laneOf t l.val).cdrLock = false ∧ (laneOf t l.val).symbolLock = false ∧
      counted cCdrLosses l.val 1 s t ∧ (linkOf t p.val).phase = .lock := by
  have hexec : exec (.cdrLockLost l) s =
      .next (count cCdrLosses l.val 1 (modLane l.val (fun v => { v with cdrLock := false, symbolLock := false }) s)) := by
    change execCdrLockLost l s = _
    simp [execCdrLockLost, ho, hp]
  have hlane := laneOf_modLane s l.val fun v => { v with cdrLock := false, symbolLock := false }
  exact ⟨_, hexec, congrArg LaneSt.cdrLock hlane, congrArg LaneSt.symbolLock hlane, counted_count _ _ _ (modLane _ _ s), hp⟩

section

variable {control : BitVec 16} {n : Nat} (ho : portOfLane s l.val = some p.val) (hp : (linkOf s p.val).phase = .training)
  (ht : trainsWithPartner s p.val = true)

/-- A malformed training frame counted and remembered. -/
def malformedNoted (l n : Nat) (s : State) : State :=
  count cPartnerViolations l 1 (modLane l (fun v => { v with malformed := n :: (laneOf s l).malformed.filter fun k => n < k + 1000 }) s)

theorem laneConfig_malformedNoted (l n : Nat) (s : State) (k : Nat) : laneConfig (malformedNoted l n s) k = laneConfig s k :=
  laneConfig_modLane s l (fun v => { v with malformed := n :: (laneOf s l).malformed.filter fun k => n < k + 1000 }) (fun _ => rfl) k

include ho hp ht

theorem exec_trainingFrameMalformed : exec (.trainingFrameMalformed l control n) s =
    .next (if 7 ≤ ((laneOf s l.val).malformed.filter fun k => n < k + 1000).length then
        kiln 0x0304 [(2, l.val), (2, control.toNat)] (attemptFail p.val 4 l.val (malformedNoted l.val n s))
      else malformedNoted l.val n s) := by
  change execTrainingFrameMalformed l control n s = _
  simp [execTrainingFrameMalformed, ho, hp, ht, malformedNoted, stepFail]

theorem trainingFrameMalformed_counts (h : ((laneOf s l.val).malformed.filter fun k => n < k + 1000).length < 7) :
    Completes (.trainingFrameMalformed l control n) s fun t => counted cPartnerViolations l.val 1 s t ∧
      (laneOf t l.val).malformed = n :: (laneOf s l.val).malformed.filter fun k => n < k + 1000 := by
  exact ⟨malformedNoted l.val n s, (exec_trainingFrameMalformed ho hp ht).trans (congrArg Host.Outcome.next (if_neg (Nat.not_le_of_lt h))),
    counted_count _ _ _ (modLane _ _ s), congrArg LaneSt.malformed (laneOf_modLane s l.val _)⟩

/-- The eighth malformed frame in 1,000 fails the attempt. -/
theorem trainingFrameMalformed_fails (h : 7 ≤ ((laneOf s l.val).malformed.filter fun k => n < k + 1000).length) :
    Completes (.trainingFrameMalformed l control n) s fun t => attemptFailed p.val 4 s t ∧ logged 0x0304 t :=
  ⟨_, (exec_trainingFrameMalformed ho hp ht).trans (congrArg Host.Outcome.next (if_pos h)),
    attemptFailed_kiln (attemptFailed_attemptFail p.val 4 l.val rfl (laneConfig_malformedNoted l.val n s p.val) rfl), kiln_head _ _ _⟩

end

end

/-! ### Block lock (R80, R100) -/

/-- The sixteenth invalid header within 64 drops the lock. -/
theorem lockedHeader_drops {l : Nat} {v : LaneSt} {s : State} (h : 15 ≤ (v.badHeaders.filter fun k => v.headerNo + 1 < k + 64).length) :
    lockedHeader l false v s = count cBlockLosses l 1 (modLane l (fun _ =>
      { v with blockLock := false, goodHeaders := 0, headerNo := 0, badHeaders := [] }) (count cInvalidSync l 1 s)) := by
  refine if_pos (le_of_le_of_eq (Nat.succ_le_succ h) ?_)
  rw [if_neg Bool.false_ne_true, List.filter_cons_of_pos (by simp), List.length_cons]

section

variable {l : Lane} {s : State} (ha : aligning s l.val = true) (hf : laneFec s l.val < 2)
include ha hf

theorem exec_syncHeaderReceived (valid : Bool) : exec (.syncHeaderReceived l valid) s =
    .next (if (laneOf s l.val).blockLock then lockedHeader l.val valid (laneOf s l.val) s else huntHeader l.val valid (laneOf s l.val) s) :=
  if_neg (by simpa [ha] using hf)

theorem syncHeader_hunt_valid_completes (hb : (laneOf s l.val).blockLock = false) : Completes (.syncHeaderReceived l true) s fun t =>
    (laneOf t l.val).goodHeaders = (laneOf s l.val).goodHeaders + 1 ∧
    (laneOf t l.val).blockLock = decide (64 ≤ (laneOf s l.val).goodHeaders + 1) := by
  have hlane := fun f => laneOf_modLane s l.val f
  exact ⟨_, (exec_syncHeaderReceived ha hf true).trans (congrArg Host.Outcome.next ((if_neg (by simp [hb])).trans (if_pos rfl))),
    congrArg LaneSt.goodHeaders (hlane _), congrArg LaneSt.blockLock (hlane _)⟩

theorem syncHeader_hunt_invalid_completes (hb : (laneOf s l.val).blockLock = false) : Completes (.syncHeaderReceived l false) s fun t =>
    (laneOf t l.val).goodHeaders = 0 ∧ (laneOf t l.val).slips = (laneOf s l.val).slips + 1 ∧ counted cBlockSlips l.val 1 s t := by
  have hlane := fun f => laneOf_modLane s l.val f
  exact ⟨_, (exec_syncHeaderReceived ha hf false).trans
      (congrArg Host.Outcome.next ((if_neg (by simp [hb])).trans (if_neg Bool.false_ne_true))),
    congrArg LaneSt.goodHeaders (hlane _), congrArg LaneSt.slips (hlane _), counted_count _ _ _ (modLane _ _ s)⟩

theorem syncHeader_locked_invalid_completes (hb : (laneOf s l.val).blockLock = true)
    (h : 15 ≤ ((laneOf s l.val).badHeaders.filter fun k => (laneOf s l.val).headerNo + 1 < k + 64).length) :
    Completes (.syncHeaderReceived l false) s fun t => (laneOf t l.val).blockLock = false ∧ counted cBlockLosses l.val 1 s t := by
  have hother : countOf cBlockLosses l.val (count cInvalidSync l.val 1 s) = countOf cBlockLosses l.val s :=
    countOf_count_lane_ne _ _ _ (i := 18) (j := 19) (by decide) (by decide) (by decide)
  exact ⟨_, (exec_syncHeaderReceived ha hf false).trans (congrArg Host.Outcome.next ((if_pos hb).trans (lockedHeader_drops h))),
    congrArg LaneSt.blockLock ((laneOf_count _ _ _ _).trans (laneOf_modLane _ _ _)),
    counted_count_of _ _ _ _ ((countOf_modLane _ _ _ _ _).trans hother)⟩

end

/-! ### Marker lock and FEC decoding (R81, R82, R100) -/

theorem fecLimit_le (fec : Nat) : fecLimit fec ≤ 15 := by
  unfold fecLimit
  split <;> decide

section

variable {l : Lane} {errors : Nat} {s : State} (ha : aligning s l.val = true) (hf : 2 ≤ laneFec s l.val)
include ha hf

/-- The guard of an alignment marker. -/
theorem marker_taken : ¬ (!aligning s l.val || decide (laneFec s l.val < 2)) = true := by
  simp only [ha, Bool.not_true, Bool.false_or, decide_eq_true_eq]
  exact Nat.not_lt_of_le hf

theorem marker_match_completes (hb : (laneOf s l.val).blockLock = false) : Completes (.alignmentMarkerReceived l true) s fun t =>
    (laneOf t l.val).markerHits = (laneOf s l.val).markerHits + 1 ∧
    (laneOf t l.val).blockLock = decide (2 ≤ (laneOf s l.val).markerHits + 1) := by
  have hlane := fun f => laneOf_modLane s l.val f
  exact ⟨_, (if_neg (marker_taken ha hf)).trans ((if_neg (by simp [hb])).trans (if_pos rfl)), congrArg LaneSt.markerHits (hlane _),
    congrArg LaneSt.blockLock (hlane _)⟩

theorem marker_mismatch_completes (hb : (laneOf s l.val).blockLock = false) : Completes (.alignmentMarkerReceived l false) s fun t =>
    (laneOf t l.val).markerHits = 0 ∧ counted cMarkerSlips l.val 1 s t :=
  ⟨_, (if_neg (marker_taken ha hf)).trans ((if_neg (by simp [hb])).trans (if_neg Bool.false_ne_true)),
    congrArg LaneSt.markerHits (laneOf_modLane s l.val _), counted_count _ _ _ (modLane _ _ s)⟩

/-- The fourth miss in a row drops the lock. -/
theorem marker_miss_completes (hb : (laneOf s l.val).blockLock = true) (hm : 3 ≤ (laneOf s l.val).markerMisses) :
    Completes (.alignmentMarkerReceived l false) s fun t => (laneOf t l.val).blockLock = false ∧ counted cMarkerLosses l.val 1 s t :=
  ⟨_, (if_neg (marker_taken ha hf)).trans ((if_pos hb).trans (congrArg Host.Outcome.next (if_pos (Nat.succ_le_succ hm)))),
    congrArg LaneSt.blockLock (laneOf_modLane s l.val _), counted_count _ _ _ (modLane _ _ s)⟩

/-- The guard of a codeword. -/
theorem codeword_taken : ¬ (laneFec s l.val == 0 || !aligning s l.val) = true := by
  simp only [ha, Bool.not_true, Bool.or_false, beq_iff_eq]
  omega

/-- A codeword within its limit counts its symbol errors, in the window too. -/
theorem codeword_corrected_completes (h : errors ≤ fecLimit (laneFec s l.val)) : Completes (.fecCodewordDecoded l errors) s fun t =>
    (laneOf t l.val).windowSymbols = (laneOf s l.val).windowSymbols + errors ∧ counted cFecSymbols l.val errors s t := by
  have hbin : countOf cFecSymbols l.val (count (cFecBin errors) l.val 1 s) = countOf cFecSymbols l.val s := by
    have := h.trans (fecLimit_le _)
    exact countOf_count_lane_ne _ _ _ (i := 39) (j := 22 + errors) (by decide) (by omega) (by omega)
  have hrs : ¬ (laneFec s l.val == 1) = true := by
    rw [beq_iff_eq]
    omega
  exact ⟨_, (if_neg (codeword_taken ha hf)).trans ((if_neg (Nat.not_lt_of_le h)).trans (congrArg Host.Outcome.next (if_neg hrs))),
    congrArg LaneSt.windowSymbols (laneOf_modLane (count (cFecBin errors) l.val 1 s) l.val _),
    counted_count_of _ _ _ _ ((countOf_modLane _ _ _ _ _).trans hbin)⟩

theorem codeword_uncorrected_completes (h : fecLimit (laneFec s l.val) < errors) : Completes (.fecCodewordDecoded l errors) s fun t =>
    counted (cFecBin 16) l.val 1 s t ∧ t.lane = s.lane :=
  ⟨_, (if_neg (codeword_taken ha hf)).trans (if_pos h), counted_count _ _ _ _, rfl⟩

end

/-! ### The degrade window (R82) -/

/-- Whether the window that closes on lane `l` is degraded. -/
def windowDegraded (s : State) (l : Nat) : Bool := laneDegrade s l != 0 && laneDegrade s l < (laneOf s l).windowSymbols

/-- The degraded windows in a row, with the window that closes on lane `l`. -/
def degradedWindows (s : State) (l : Nat) : Nat := if windowDegraded s l then (laneOf s l).degradedRun + 1 else 0

/-- Lane `l`'s window closed. -/
def windowClosed (l : Nat) (s : State) : State :=
  let s1 := modLane l (fun v => { v with lastWindow := v.windowSymbols, windowSymbols := 0, degradedRun := degradedWindows s l }) s
  if windowDegraded s l then count cDegraded l 1 s1 else s1

theorem laneOf_windowClosed (l : Nat) (s : State) : laneOf (windowClosed l s) l =
    { laneOf s l with lastWindow := (laneOf s l).windowSymbols, windowSymbols := 0, degradedRun := degradedWindows s l } := by
  unfold windowClosed
  dsimp only
  split <;> exact laneOf_modLane s l _

theorem windowClosed_flt (l : Nat) (s : State) : (windowClosed l s).flt = s.flt := by
  unfold windowClosed
  dsimp only
  split <;> rfl

theorem degradedWindows_eq (s : State) (l : Nat) : degradedWindows s l =
    if laneDegrade s l ≠ 0 ∧ laneDegrade s l < (laneOf s l).windowSymbols then (laneOf s l).degradedRun + 1 else 0 := by
  simp [degradedWindows, windowDegraded]

theorem detect_lane (b k i : Nat) (contain : Bool → State → State) (s : State) :
    (detect b k i contain s).lane = (contain (injectedNow s b k i) s).lane := raiseFault_lane _ _ _ _ _

/-- A detection whose containment ends in an event leaves the lane state as the containment does, has raised its site and logged the event. -/
theorem detect_logs (b k i code : Nat) (fs : List (Nat × Nat)) {f : State → State} {s : State}
    (hf : (f s).flt.inFlight = s.flt.inFlight) :
    (detect b k i (fun inj s => kilnInj inj code fs (f s)) s).lane = (f s).lane ∧
    raised b k i s (detect b k i (fun inj s => kilnInj inj code fs (f s)) s) ∧
    logged code (detect b k i (fun inj s => kilnInj inj code fs (f s)) s) := by
  refine ⟨(detect_lane _ _ _ _ _).trans (kilnInj_lane _ _ _ _), raised_raiseFault ((kilnInj_flt_inFlight _ _ _ _).trans hf) _ _ _ _, ?_⟩
  rw [logged, detect_kiln]
  exact kilnInj_head _ _ _ _

section

variable {l : Lane} {s : State}

/-- From the third degraded window in a row on, every one raises bit 4 (the model's choice, assumption 24). -/
theorem degradeWindowEnd_completes : Completes (.degradeWindowEnd l) s fun t =>
    (laneOf t l.val).lastWindow = (laneOf s l.val).windowSymbols ∧ (laneOf t l.val).windowSymbols = 0 ∧
    (laneOf t l.val).degradedRun =
      (if laneDegrade s l.val ≠ 0 ∧ laneDegrade s l.val < (laneOf s l.val).windowSymbols then (laneOf s l.val).degradedRun + 1 else 0) ∧
    (3 ≤ (laneOf t l.val).degradedRun → raised 4 3 l.val s t ∧ logged 0x0309 t) ∧
    ((laneOf t l.val).degradedRun < 3 → t.flt = s.flt) := by
  rw [← degradedWindows_eq]
  have hclosed := laneOf_windowClosed l.val s
  by_cases hrun : degradedWindows s l.val ≥ 3
  · have hexec : exec (.degradeWindowEnd l) s = .next (detect 4 3 l.val (fun inj =>
        kilnInj inj 0x0309 [(2, l.val), (4, min (laneOf s l.val).windowSymbols 0xFFFFFFFF)]) (windowClosed l.val s)) :=
      congrArg Host.Outcome.next (if_pos hrun)
    obtain ⟨hlane, hraised, hlogged⟩ := detect_logs 4 3 l.val 0x0309 [(2, l.val), (4, min (laneOf s l.val).windowSymbols 0xFFFFFFFF)]
      (f := fun u => u) (s := windowClosed l.val s) rfl
    refine ⟨_, hexec, ?_⟩
    beta_reduce
    rw [laneOf_of_lane hlane, hclosed]
    refine ⟨rfl, rfl, rfl, fun _ => ⟨?_, hlogged⟩, fun h => absurd hrun (Nat.not_le_of_lt h)⟩
    rwa [raised, windowClosed_flt] at hraised
  · refine ⟨windowClosed l.val s, congrArg Host.Outcome.next (if_neg hrun), ?_⟩
    beta_reduce
    rw [hclosed]
    exact ⟨rfl, rfl, rfl, fun h => absurd h hrun, fun _ => windowClosed_flt _ _⟩

end

/-- Settles O14: each event's own lemma gives its clause. -/
theorem lanesAcquireAndAlign : Obligations.LanesAcquireAndAlign :=
  ⟨fun _ _ _ _ _ => ⟨anPageViolation_completes, signalBreak_unowned_completes, signalBreak_completes, cdrLockLost_completes,
      fun ho hp ht => ⟨trainingFrameMalformed_counts ho hp ht, trainingFrameMalformed_fails ho hp ht⟩⟩,
    fun _ _ _ => ⟨fun ha hf => ⟨syncHeader_hunt_valid_completes ha hf, syncHeader_hunt_invalid_completes ha hf,
        syncHeader_locked_invalid_completes ha hf⟩,
      fun ha hf => ⟨marker_match_completes ha hf, marker_mismatch_completes ha hf, marker_miss_completes ha hf,
        codeword_corrected_completes ha hf, codeword_uncorrected_completes ha hf⟩,
      degradeWindowEnd_completes⟩⟩

end Sys2Proof.Proofs
end

section
/-!
PROOFS. What losses of a lane die's reference, lane PLL faults and store reloads do to the ports of their lanes (R74, R97).
-/

namespace Sys2Proof.Proofs

open Sys2Proof Sys2Proof.Machine Sys2Proof.Laws

/-! ### Runs over ports -/

section

variable {σ β : Type} {l : List β} {op : σ → β → σ}

/-- A run in which `p`'s operation makes `Q` of `P`, where the others keep `P` and all keep `Q`, ends in `Q`. -/
theorem foldl_reaches [DecidableEq β] {P Q : σ → Prop} {p : β} (make : ∀ s, P s → Q (op s p))
    (keepP : ∀ s x, x ≠ p → P s → P (op s x)) (keepQ : ∀ s x, Q s → Q (op s x)) (hp : p ∈ l) {s : σ} (hs : P s) : Q (l.foldl op s) := by
  induction l generalizing s with
  | nil => cases hp
  | cons x l ih =>
    rw [List.foldl_cons]
    by_cases hx : x = p
    · subst hx
      exact List.foldlRecOn l op (make s hs) fun s h y _ => keepQ s y h
    · exact ih ((List.mem_cons.mp hp).resolve_left (Ne.symm hx)) (keepP s x hx hs)

end

/-! ### Ports that a lane fault takes to REACQUIRE (R97) -/

/-- The phases in which a lane fault makes a port reacquire. -/
def reacquires (ph : LinkPhase) : Bool := ph == .active || ph == .reacquireLock || ph == .reacquireAlign

section

variable (p : Nat) (s : State)

/-- A lane fault takes the port out of ACTIVE, starts its REACQUIRE again, or leaves it alone: bring-up goes on (the model's choice,
assumption 23). -/
theorem faultReacquire_cases :
    (linkOf s p).phase = .active ∧ faultReacquire p s = enterReacquire p (setCause p 10 p (downed p s 10)) ∨
    reacquires (linkOf s p).phase = true ∧ faultReacquire p s = enterPhase p .reacquireLock s ∨
    reacquires (linkOf s p).phase = false ∧ faultReacquire p s = s := by
  unfold faultReacquire
  cases (linkOf s p).phase with
  | active => exact .inl ⟨rfl, rfl⟩
  | reacquireLock => exact .inr (.inl ⟨rfl, rfl⟩)
  | reacquireAlign => exact .inr (.inl ⟨rfl, rfl⟩)
  | _ => exact .inr (.inr ⟨rfl, rfl⟩)

theorem linkOf_faultReacquire (h : reacquires (linkOf s p).phase = true) : (linkOf (faultReacquire p s) p).phase = .reacquireLock := by
  obtain ⟨-, hs⟩ | ⟨-, hs⟩ | ⟨hr, -⟩ := faultReacquire_cases p s
  · exact hs ▸ linkOf_enterReacquire p _
  · exact hs ▸ enterPhase_phase p _ s
  · exact absurd h (Bool.eq_false_iff.mp hr)

theorem linkOf_faultReacquire_ne {q : Nat} (h : q ≠ p) : linkOf (faultReacquire p s) q = linkOf s q := by
  obtain ⟨-, hs⟩ | ⟨-, hs⟩ | ⟨-, hs⟩ := faultReacquire_cases p s
  · rw [hs, linkOf_enterReacquire_ne p _ h, linkOf_setCause, linkOf_of_unlaned (unlaned_downed p s 10)]
  · rw [hs, linkOf_enterPhase_ne p _ s h]
  · rw [hs]

theorem fabric_faultReacquire : fabric (faultReacquire p s) = fabric s := by
  obtain ⟨-, hs⟩ | ⟨-, hs⟩ | ⟨-, hs⟩ := faultReacquire_cases p s
  · rw [hs, fabric_enterReacquire, fabric_setCause, fabric_of_unlaned (unlaned_downed p s 10)]
  · rw [hs, fabric_enterPhase]
  · rw [hs]

end

/-- The ports `l` taken by a lane fault. -/
def portsReacquired (l : List Nat) (s : State) : State := l.foldl (fun s p => faultReacquire p s) s

theorem fabric_portsReacquired (l : List Nat) (s : State) : fabric (portsReacquired l s) = fabric s := by
  unfold portsReacquired
  exact foldl_keeps fabric fun s p _ => fabric_faultReacquire p s

/-- Each port of them that was ACTIVE or reacquired is in REACQUIRE's LOCK. -/
theorem portsReacquired_phase {l : List Nat} {p : Nat} (hp : p ∈ l) {s : State} (h : reacquires (linkOf s p).phase = true) :
    (linkOf (portsReacquired l s) p).phase = .reacquireLock := by
  refine foldl_reaches (P := fun s => reacquires (linkOf s p).phase = true) (Q := fun s => (linkOf s p).phase = .reacquireLock)
    (fun s => linkOf_faultReacquire p s) (fun s x hx h => ?_) (fun s x h => ?_) hp h
  · rwa [linkOf_faultReacquire_ne x s hx.symm]
  · by_cases hx : x = p
    · subst hx
      exact linkOf_faultReacquire x s (by rw [h]; rfl)
    · rwa [linkOf_faultReacquire_ne x s (Ne.symm hx)]

/-! ### Ports that lose their reference (R74) -/

section

variable (p : Nat) (s : State)

/-- What a port that its reference leaves does from a phase that is neither DISABLED, FAILED nor BACKOFF. -/
def refclkFailed (active : Bool) : State :=
  let s2 := attemptFail p 9 p (if active then downed p s 9 else s)
  setLink p { linkOf s2 p with refclkWait := (linkOf s2 p).phase == .backoff } s2

/-- A port that its reference leaves stays as it is, only waits for it, or fails an attempt (the model's choice, assumption 22). -/
theorem refclkDown_cases : refclkDown p s = s ∨ refclkDown p s = setCause p 9 p (setLink p { linkOf s p with refclkWait := true } s) ∨
    ∃ active, refclkDown p s = refclkFailed p s active := by
  unfold refclkDown
  dsimp only
  split
  · exact .inl rfl
  · exact .inl rfl
  · exact .inr (.inl rfl)
  · exact .inr (.inr ⟨_, rfl⟩)

theorem fabric_refclkFailed (active : Bool) : fabric (refclkFailed p s active) = fabric s := by
  unfold refclkFailed
  dsimp only
  rw [fabric_setLink, fabric_attemptFail]
  split
  · exact fabric_of_unlaned (unlaned_downed p s 9)
  · rfl

theorem fabric_refclkDown : fabric (refclkDown p s) = fabric s := by
  obtain hs | hs | ⟨active, hs⟩ := refclkDown_cases p s
  · rw [hs]
  · rw [hs, fabric_setCause, fabric_setLink]
  · rw [hs, fabric_refclkFailed]

/-- A port that waits for its reference restarts bring-up. -/
def refclkResumed (s : State) (p : Nat) : State := if (linkOf s p).refclkWait then enterRxDetect p s else s

theorem linkOf_refclkResumed_ne {q : Nat} (h : q ≠ p) : linkOf (refclkResumed s p) q = linkOf s q := by
  unfold refclkResumed
  split
  · exact linkOf_enterRxDetect_ne p s h
  · rfl

theorem fabric_refclkResumed : fabric (refclkResumed s p) = fabric s := by
  unfold refclkResumed
  split
  · exact fabric_enterRxDetect p s
  · rfl

end

/-- Each port of `l` that waits for its reference is in RX_DETECT. -/
theorem refclkResumed_phase {l : List Nat} {p : Nat} (hp : p ∈ l) {s : State} (h : (linkOf s p).refclkWait = true) :
    (linkOf (l.foldl refclkResumed s) p).phase = .rxDetect := by
  refine (foldl_reaches (P := fun s => (linkOf s p).refclkWait = true)
    (Q := fun s => (linkOf s p).phase = .rxDetect ∧ (linkOf s p).refclkWait = false) (fun s h => ?_) (fun s x hx h => ?_) (fun s x h => ?_) hp h).1
  · rw [refclkResumed, if_pos h]
    exact linkOf_enterRxDetect p s
  · rwa [linkOf_refclkResumed_ne x s hx.symm]
  · by_cases hx : x = p
    · subst hx
      rwa [refclkResumed, if_neg (by simp [h.2])]
    · rwa [linkOf_refclkResumed_ne x s (Ne.symm hx)]

end Sys2Proof.Proofs
end

section
/-!
PROOFS. Lane tests, losses and faults (O15): loopback, pattern checker, error injection and eye points, a lane die's reference, lane faults,
and the statement from them.
-/

namespace Sys2Proof.Proofs

open Sys2Proof Sys2Proof.Machine Sys2Proof.Laws

/-! ### The far-end loopback's elastic buffer (R73) -/

section

variable {p : Port} {s : State} (hc : configured s p.val = true) (ht : testLoopback (laneTest s p.val) = 3)
include hc ht

theorem farEnd_arrived_completes (he : (laneOf s p.val).elastic < 32) : Completes (.farEndLoopbackBlock p true false false) s fun t =>
    (laneOf t p.val).elastic = (laneOf s p.val).elastic + 1 :=
  ⟨_, (if_neg (by simp [hc, ht])).trans (if_neg (by simpa using he)), congrArg LaneSt.elastic (laneOf_modLane s p.val _)⟩

/-- A block sent from an empty buffer is a slip. -/
theorem farEnd_slip_completes (he : (laneOf s p.val).elastic = 0) : Completes (.farEndLoopbackBlock p false true false) s fun t =>
    (laneOf t p.val).elastic = 0 ∧ counted cElasticSlips p.val 1 s t :=
  ⟨_, (if_neg (by simp [hc, ht])).trans (if_pos (by simp [he])), he, counted_count _ _ _ _⟩

end

/-! ### The pattern checker (R86) -/

section

variable {l : Lane} {good : Nat} {sym : Bool} {s : State}

theorem checkGood_locked {l : Nat} (h : (laneOf s l).chkLocked = true) : checkGood l good s = count cChkBits l good s := if_pos h

theorem checkGood_locks {l : Nat} (h : (laneOf s l).chkLocked = false) (hrun : 1024 ≤ (laneOf s l).chkRun + good) :
    checkGood l good s = count cChkBits l ((laneOf s l).chkRun + good - 1024)
      (modLane l (fun v => { v with chkLocked := true, chkRun := 0, chkWindow := [] }) s) :=
  (if_neg (by simp [h])).trans (if_pos hrun)

theorem checkGood_hunts {l : Nat} (h : (laneOf s l).chkLocked = false) (hrun : (laneOf s l).chkRun + good < 1024) :
    checkGood l good s = modLane l (fun v => { v with chkRun := (laneOf s l).chkRun + good }) s :=
  (if_neg (by simp [h])).trans (if_neg (Nat.not_le_of_lt hrun))

/-- One wrong bit counted, and its symbol if it is the first wrong bit of one. -/
def wrongBitCounted (l : Nat) (symbol : Bool) (s : State) : State :=
  let s1 := count cChkBitErrors l 1 (count cChkBits l 1 s)
  if symbol then count cChkSymbolErrors l 1 s1 else s1

theorem counted_wrongBitCounted (l : Nat) (symbol : Bool) (s : State) : counted cChkBitErrors l 1 s (wrongBitCounted l symbol s) := by
  have hbits : countOf cChkBitErrors l (count cChkBits l 1 s) = countOf cChkBitErrors l s :=
    countOf_count_lane_ne _ _ _ (i := 44) (j := 43) (by decide) (by decide) (by decide)
  have hbit := counted_count_of cChkBitErrors l 1 s hbits
  unfold wrongBitCounted
  dsimp only
  split
  · rw [counted, show countOf cChkBitErrors l (count cChkSymbolErrors l 1 _) = _ from
      countOf_count_lane_ne _ _ _ (i := 44) (j := 45) (by decide) (by decide) (by decide)]
    exact hbit
  · exact hbit

/-- A wrong bit in lock counts, whether or not it drops the lock. -/
theorem checkBad_locked {l : Nat} (h : (laneOf s l).chkLocked = true) : ∃ symbol, ∃ f : LaneSt → LaneSt,
    checkBad l sym s = modLane l f (wrongBitCounted l symbol s) ∨
    ∃ n, checkBad l sym s = countSet cChkResyncs l n (modLane l f (wrongBitCounted l symbol s)) := by
  have hbad : checkBad l sym s =
      let s2 := wrongBitCounted l (sym && lanePam4 s l) s
      let win := countOf cChkBits l s2 :: (laneOf s l).chkWindow.filter fun k => countOf cChkBits l s2 < k + 1024
      if win.length ≥ 256 then countSet cChkResyncs l (min (2 ^ 32 - 1) (countOf cChkResyncs l s2 + 1))
        (modLane l (fun v => { v with chkLocked := false, chkRun := 0, chkWindow := [] }) s2)
      else modLane l (fun v => { v with chkWindow := win }) s2 := if_neg (by simp [h])
  rw [hbad]
  dsimp only
  refine ⟨sym && lanePam4 s l, ?_⟩
  split
  · exact ⟨_, .inr ⟨_, rfl⟩⟩
  · exact ⟨_, .inl rfl⟩

theorem counted_checkBad {l : Nat} (h : (laneOf s l).chkLocked = true) : counted cChkBitErrors l 1 s (checkBad l sym s) := by
  obtain ⟨symbol, f, hs | ⟨n, hs⟩⟩ := checkBad_locked (sym := sym) h
  · rw [hs]
    exact counted_wrongBitCounted l symbol s
  · rw [hs, counted, show countOf cChkBitErrors l (countSet cChkResyncs l n _) = _ from
      countOf_countSet_lane_ne _ _ _ (i := 44) (j := 46) (by decide) (by decide) (by decide)]
    exact counted_wrongBitCounted l symbol s

section

variable (hchk : testChk (laneTest s l.val) = true)
include hchk

theorem exec_patternBitsChecked (err : Bool) : exec (.patternBitsChecked l good err sym) s =
    .next (if err then checkBad l.val sym (checkGood l.val good s) else checkGood l.val good s) := if_pos hchk

theorem patternBits_locked_completes (h : (laneOf s l.val).chkLocked = true) : Completes (.patternBitsChecked l good false sym) s fun t =>
    counted cChkBits l.val good s t ∧ (laneOf t l.val).chkLocked = true :=
  ⟨_, (exec_patternBitsChecked hchk false).trans (congrArg Host.Outcome.next (checkGood_locked h)), counted_count _ _ _ _, h⟩

theorem patternBits_locks_completes (h : (laneOf s l.val).chkLocked = false) (hrun : 1024 ≤ (laneOf s l.val).chkRun + good) :
    Completes (.patternBitsChecked l good false sym) s fun t =>
      (laneOf t l.val).chkLocked = true ∧ counted cChkBits l.val ((laneOf s l.val).chkRun + good - 1024) s t :=
  ⟨_, (exec_patternBitsChecked hchk false).trans (congrArg Host.Outcome.next (checkGood_locks h hrun)),
    congrArg LaneSt.chkLocked ((laneOf_count _ _ _ _).trans (laneOf_modLane s l.val _)), counted_count_of _ _ _ _ rfl⟩

theorem patternBits_hunts_completes (h : (laneOf s l.val).chkLocked = false) (hrun : (laneOf s l.val).chkRun + good < 1024) :
    Completes (.patternBitsChecked l good false sym) s fun t =>
      (laneOf t l.val).chkLocked = false ∧ (laneOf t l.val).chkRun = (laneOf s l.val).chkRun + good := by
  have hlane := fun f => laneOf_modLane s l.val f
  exact ⟨_, (exec_patternBitsChecked hchk false).trans (congrArg Host.Outcome.next (checkGood_hunts h hrun)),
    (congrArg LaneSt.chkLocked (hlane _)).trans h, congrArg LaneSt.chkRun (hlane _)⟩

theorem patternBits_wrong_completes (h : (laneOf s l.val).chkLocked = true) : Completes (.patternBitsChecked l 0 true sym) s fun t =>
    counted cChkBitErrors l.val 1 s t := by
  have hgood : countOf cChkBitErrors l.val (count cChkBits l.val 0 s) = countOf cChkBitErrors l.val s :=
    countOf_count_lane_ne _ _ _ (i := 44) (j := 43) (by decide) (by decide) (by decide)
  have hbad : counted cChkBitErrors l.val 1 (count cChkBits l.val 0 s) (checkBad l.val sym (count cChkBits l.val 0 s)) := counted_checkBad h
  refine ⟨_, exec_patternBitsChecked hchk true, ?_⟩
  rw [counted, hgood] at hbad
  rw [if_pos rfl, checkGood_locked h]
  exact hbad

end

end

/-! ### Error injection and eye points (R89, R91 to R93) -/

section

variable {l : Lane} {s : State}

theorem errorInjection_completes (h : u8 (laneTestOwn s ((portOfLane s l.val).getD l.val)) 7 ≠ 0) :
    Completes (.errorInjectionEvent l) s fun t => counted cInjEvents l.val 1 s t ∧
      (bit (u8 (laneTestOwn s ((portOfLane s l.val).getD l.val)) 5) 4 = true →
        laneTestOwn t ((portOfLane s l.val).getD l.val) = putField (laneTestOwn s ((portOfLane s l.val).getD l.val)) 7 1 0) := by
  have hguard : ¬ (u8 (laneTestOwn s ((portOfLane s l.val).getD l.val)) 7 == 0) = true := by simpa using h
  cases hone : bit (u8 (laneTestOwn s ((portOfLane s l.val).getD l.val)) 5) 4 with
  | false =>
    exact ⟨count cInjEvents l.val 1 s, (if_neg hguard).trans (congrArg Host.Outcome.next (if_neg (Bool.eq_false_iff.mp hone))),
      counted_count _ _ _ _, fun h => absurd h Bool.false_ne_true⟩
  | true =>
    refine ⟨_, (if_neg hguard).trans (congrArg Host.Outcome.next (if_pos hone)), counted_count _ _ _ s, fun _ => ?_⟩
    rw [laneTestOwn, laneOf_modLane]
    rfl

theorem eyePointDone_completes {compared errors : Nat} (hs : (laneOf s l.val).scan.status = .running)
    (hc : compared = 2 ^ (u8 (laneOf s l.val).scan.request 8 - 10)) : Completes (.eyePointDone l compared errors) s fun t =>
      (laneOf t l.val).scan.points = (laneOf s l.val).scan.points ++ [(compared, min errors 0xFFFFFFFF)] ∧
      (laneOf t l.val).scan.status =
        if scanPoints (laneOf s l.val).scan.request ≤ (laneOf s l.val).scan.points.length + 1 then .done else .running := by
  have hlane := fun f => laneOf_modLane s l.val f
  refine ⟨_, if_neg (by simp [hs, hc]), congrArg (fun v => v.scan.points) (hlane _), (congrArg (fun v => v.scan.status) (hlane _)).trans ?_⟩
  simp

end

/-! ### A lane die's reference (R74) -/

section

variable {k : LaneDie} {s : State}

theorem laneRefclkLost_completes (h : (laneDieSt s k.val).lostAt = none) : Completes (.laneRefclkLost k) s fun t =>
    (laneDieSt t k.val).lostAt = some s.now ∧ raised 0 1 k.val s t ∧ logged 0x0306 t := by
  obtain ⟨hlane, hraised, hlogged⟩ := detect_logs 0 1 k.val 0x0306 [(1, k.val)]
    (f := fun u => setLaneDie k.val { laneDieSt s k.val with lostAt := some u.now } u) (s := s) rfl
  refine ⟨_, if_neg (by simp [h]), ?_, hraised, hlogged⟩
  rw [laneDieSt_of_fabric (fabric_of_lane hlane), laneDieSt_setLaneDie]

section

variable {a : Nat} (ha : (laneDieSt s k.val).lostAt = some a) (hq : (laneDieSt s k.val).squelched = false)
include ha hq

theorem laneRefclkRelock_completes (hw : s.now ≤ a + tMs) : Completes (.laneRefclkRelock k) s fun t =>
    (laneDieSt t k.val).lostAt = none ∧ a + 100 * tUs ≤ t.now := by
  have hexec : exec (.laneRefclkRelock k) s =
      .next (setLaneDie k.val { laneDieSt s k.val with lostAt := none } (reach (a + 100 * tUs) s)) := by
    change execLaneRefclkRelock k s = _
    simp [execLaneRefclkRelock, ha, hq, hw]
  exact ⟨_, hexec, congrArg LaneDieSt.lostAt (laneDieSt_setLaneDie _ _ _), le_reach_now _ s⟩

/-- After 1 ms the die is squelched, and its ports lose their reference. -/
theorem laneRefclkHoldoverEnd_completes : Completes (.laneRefclkHoldoverEnd k) s fun t =>
    (laneDieSt t k.val).squelched = true ∧ a + tMs ≤ t.now := by
  have hexec : exec (.laneRefclkHoldoverEnd k) s = .next ((portsAmong s (128 * k.val) 128).foldl (fun s p => refclkDown p s)
      (setLaneDie k.val { laneDieSt s k.val with squelched := true } (reach (a + tMs) s))) := by
    change execLaneRefclkHoldoverEnd k s = _
    simp [execLaneRefclkHoldoverEnd, ha, hq]
  refine ⟨_, hexec, ?_, ?_⟩
  · rw [laneDieSt_of_fabric (foldl_keeps fabric fun s p _ => fabric_refclkDown p s), laneDieSt_setLaneDie]
  · rw [foldl_keeps State.now fun s p _ => (keeps_refclkDown p s).same .now rfl]
    exact le_reach_now _ s

end

theorem laneRefclkRestored_completes (h : (laneDieSt s k.val).squelched = true) : Completes (.laneRefclkRestored k) s fun t =>
    (laneDieSt t k.val).squelched = false ∧ (laneDieSt t k.val).lostAt = none ∧
    ∀ p ∈ portsAmong s (128 * k.val) 128, (linkOf s p).refclkWait = true → (linkOf t p).phase = .rxDetect := by
  have hexec : exec (.laneRefclkRestored k) s = .next ((portsAmong s (128 * k.val) 128).foldl refclkResumed
      (kiln 0x0307 [(1, k.val)] (setLaneDie k.val { laneDieSt s k.val with squelched := false, lostAt := none } s))) := if_pos h
  have hdie := (laneDieSt_of_fabric ((foldl_keeps (l := portsAmong s (128 * k.val) 128) (op := refclkResumed)
    (s := kiln 0x0307 [(1, k.val)] (setLaneDie k.val { laneDieSt s k.val with squelched := false, lostAt := none } s))
    fabric fun s p _ => fabric_refclkResumed p s).trans (fabric_kiln _ _ _)) k.val).trans (laneDieSt_setLaneDie _ _ _)
  refine ⟨_, hexec, congrArg LaneDieSt.squelched hdie, congrArg LaneDieSt.lostAt hdie, fun p hp hwait => refclkResumed_phase hp ?_⟩
  rw [linkOf_of_lane (kiln_lane _ _ _), linkOf_setLaneDie]
  exact hwait

end

/-! ### Substrate bundles (R95) -/

section

variable {g : Pipe} {s : State}

section

variable (hr : (laneGroup s g.val).retraining = false)
include hr

/-- The guard of a failed replay. -/
theorem replay_taken : ¬ (false || (laneGroup s g.val).retraining) = true := by simp [hr]

theorem d2dDoubleBitError_few_completes (h : ((laneGroup s g.val).failedReplays.filter fun t => s.now < t + tUs).length < 3) :
    Completes (.d2dDoubleBitError g false) s fun t => (laneGroup t g.val).retraining = false ∧ t.flt = s.flt := by
  have hfew : ¬ ((s.now :: (laneGroup s g.val).failedReplays.filter fun t => s.now < t + tUs).take 4).length ≥ 4 := by
    rw [List.length_take, List.length_cons]
    omega
  exact ⟨_, (if_neg (replay_taken hr)).trans (congrArg Host.Outcome.next (if_neg hfew)),
    (congrArg LaneGroup.retraining (laneGroup_setLaneGroup _ _ _)).trans hr, rfl⟩

/-- The fourth replay failed within 1 µs retrains the bundle. -/
theorem d2dDoubleBitError_fourth_completes (h : 3 ≤ ((laneGroup s g.val).failedReplays.filter fun t => s.now < t + tUs).length) :
    Completes (.d2dDoubleBitError g false) s fun t =>
      (laneGroup t g.val).retraining = true ∧ raised 2 2 g.val s t ∧ logged 0x0308 t := by
  have hfour : ((s.now :: (laneGroup s g.val).failedReplays.filter fun t => s.now < t + tUs).take 4).length ≥ 4 := by
    rw [List.length_take, List.length_cons]
    omega
  obtain ⟨hlane, hraised, hlogged⟩ := detect_logs 2 2 g.val 0x0308 [(1, g.val / 8), (1, g.val % 8)]
    (f := setLaneGroup g.val { laneGroup s g.val with retraining := true, failedReplays := [] }) (s := s) rfl
  refine ⟨_, (if_neg (replay_taken hr)).trans (congrArg Host.Outcome.next (if_pos hfour)), ?_, hraised, hlogged⟩
  rw [laneGroup_of_fabric (fabric_of_lane hlane), laneGroup_setLaneGroup]

end

theorem d2dRetrainDone_completes : Completes (.d2dRetrainDone g) s fun t => (laneGroup t g.val).retraining = false :=
  ⟨_, rfl, congrArg LaneGroup.retraining (laneGroup_setLaneGroup _ _ _)⟩

/-! ### Lane faults (R97) -/

/-- The lanes of group `g` that a lost PLL silences, counted. -/
def squelchesCounted (g : Nat) (s : State) : State :=
  (List.range 16).foldl (fun s i => if [0, 1, 9].contains (laneState s (16 * g + i)) then s else count cSquelches (16 * g + i) 1 s) s

theorem squelchesCounted_lane (g : Nat) (s : State) : (squelchesCounted g s).lane = s.lane := by
  unfold squelchesCounted
  refine foldl_keeps State.lane fun s i _ => ?_
  split <;> rfl

/-- Group `g`, as `v` has it, without its PLL. -/
def pllDown (g : Nat) (v : LaneGroup) (s : State) : State :=
  portsReacquired (portsAmong s (16 * g) 16) (squelchesCounted g (setLaneGroup g { v with pllLost := true } s))

theorem pllDown_group (g : Nat) (v : LaneGroup) (s : State) : (laneGroup (pllDown g v s) g).pllLost = true := by
  rw [pllDown, laneGroup_of_fabric ((fabric_portsReacquired _ _).trans (fabric_of_lane (squelchesCounted_lane _ _))), laneGroup_setLaneGroup]

theorem pllDown_phase {g p : Nat} {v : LaneGroup} {s : State} (hp : p ∈ portsAmong s (16 * g) 16) (h : (linkOf s p).phase = .active) :
    (linkOf (pllDown g v s) p).phase = .reacquireLock := by
  refine portsReacquired_phase hp ?_
  rw [linkOf_of_lane (squelchesCounted_lane _ _), linkOf_setLaneGroup, h]
  rfl

theorem lanePll_completes (h : (laneGroup s g.val).pllLost = false) : Completes (.lanePll g) s fun t =>
    (laneGroup t g.val).pllLost = true ∧
    ∀ p ∈ portsAmong s (16 * g.val) 16, (linkOf s p).phase = .active → (linkOf t p).phase = .reacquireLock := by
  have hexec : exec (.lanePll g) s = .next (detect 1 2 g.val (fun _ => pllDown g.val (laneGroup s g.val)) s) := if_neg (by simp [h])
  have hlane := detect_lane 1 2 g.val (fun _ => pllDown g.val (laneGroup s g.val)) s
  refine ⟨_, hexec, ?_, fun p hp hactive => ?_⟩
  · rw [laneGroup_of_fabric (fabric_of_lane hlane), pllDown_group]
  · rw [linkOf_of_lane hlane, pllDown_phase hp hactive]

theorem lanePllRelock_completes (h : (laneGroup s g.val).pllLost = true) : Completes (.lanePllRelock g) s fun t =>
    (laneGroup t g.val).pllLost = false ∧
    ∀ p ∈ portsAmong s (16 * g.val) 16, (linkOf s p).phase = .reacquireAlign → (linkOf t p).phase = .reacquireLock := by
  have hexec : exec (.lanePllRelock g) s = .next (portsReacquired (portsAmong s (16 * g.val) 16)
      (setLaneGroup g.val { laneGroup s g.val with pllLost := false } s)) := if_pos h
  refine ⟨_, hexec, ?_, fun p hp halign => portsReacquired_phase hp ?_⟩
  · rw [laneGroup_of_fabric (fabric_portsReacquired _ _), laneGroup_setLaneGroup]
  · rw [linkOf_setLaneGroup, halign]
    rfl

end

section

variable {l : Lane} {k : LaneDie} {s : State}

/-- Adaptation that fails goes back to the lane's snapshot. -/
theorem laneAdapt_completes : Completes (.laneAdapt l) s fun t =>
    (laneOf t l.val).coeff = (laneOf s l.val).snapshot ∧ raised 3 3 l.val s t ∧ logged 0x030A t := by
  obtain ⟨hlane, hraised, hlogged⟩ := detect_logs 3 3 l.val 0x030A [(2, l.val), (1, 3)]
    (f := modLane l.val fun v => { v with coeff := v.snapshot }) (s := s) rfl
  refine ⟨_, rfl, ?_, hraised, hlogged⟩
  rw [laneOf_of_lane hlane, laneOf_modLane]

theorem laneStore_completes : Completes (.laneStore k) s fun t => (laneDieSt t k.val).reloading = true ∧ raised 5 1 k.val s t := by
  refine ⟨_, rfl, ?_, raised_detect (fun _ => rfl) _ _ _⟩
  rw [laneDieSt_of_fabric (fabric_of_lane (detect_lane _ _ _ _ _)), laneDieSt_setLaneDie]

theorem laneStoreReload_completes (h : (laneDieSt s k.val).reloading = true) : Completes (.laneStoreReload k) s fun t =>
    (laneDieSt t k.val).reloading = false ∧
    ∀ p ∈ portsAmong s (128 * k.val) 128, (linkOf s p).phase = .active → (linkOf t p).phase = .reacquireLock := by
  have hexec : exec (.laneStoreReload k) s = .next (portsReacquired (portsAmong s (128 * k.val) 128)
      (setLaneDie k.val { laneDieSt s k.val with reloading := false } s)) := if_pos h
  refine ⟨_, hexec, ?_, fun p hp hactive => portsReacquired_phase hp ?_⟩
  · rw [laneDieSt_of_fabric (fabric_portsReacquired _ _), laneDieSt_setLaneDie]
  · rw [linkOf_setLaneDie, hactive]
    rfl

end

/-- Settles O15: each event's own lemma gives its clause. -/
theorem laneTestsLossesAndFaults : Obligations.LaneTestsLossesAndFaults :=
  ⟨fun _ _ _ _ _ _ _ => ⟨farEnd_arrived_completes, farEnd_slip_completes, patternBits_locked_completes, patternBits_locks_completes,
      patternBits_hunts_completes, patternBits_wrong_completes, errorInjection_completes, eyePointDone_completes⟩,
    fun _ _ => ⟨laneRefclkLost_completes,
      fun _ ha hq => ⟨laneRefclkRelock_completes ha hq, laneRefclkHoldoverEnd_completes ha hq⟩, laneRefclkRestored_completes⟩,
    fun _ _ _ _ => ⟨fun hr => ⟨d2dDoubleBitError_few_completes hr, d2dDoubleBitError_fourth_completes hr⟩, d2dRetrainDone_completes,
      lanePll_completes, lanePllRelock_completes, laneAdapt_completes, laneStore_completes, laneStoreReload_completes⟩⟩

end Sys2Proof.Proofs
end

section
/-!
PROOFS. Rules of counters: which counters an operation may count, and what a counter reads after operations that count other ones. Every
operation that drops, records, releases or sends a copy has its list.
-/

namespace Sys2Proof.Proofs

open Sys2Proof Sys2Proof.Machine Sys2Proof.Laws

/-! ### Counters that share no key -/

/-- Whether two counters have different keys, whatever their scopes. -/
def apart (c d : Counter) : Bool := c.group * 32 + c.kind != d.group * 32 + d.kind || c.idx % 65536 != d.idx % 65536

theorem counterKey_ne_of_apart {c d : Counter} (h : apart c d = true) (x y : Nat) :
    counterKey c.group c.kind x c.idx ≠ counterKey d.group d.kind y d.idx := by
  simp only [apart, Bool.or_eq_true, bne_iff_ne] at h
  unfold counterKey
  omega

theorem countOf_count_of_apart {c d : Counter} (h : apart c d = true) (x y n : Nat) (s : State) :
    countOf c x (count d y n s) = countOf c x s := tabGet_mod_ne 0 (wrapAdd 64 · n) _ (counterKey_ne_of_apart h x y)

/-! ### The counters that an operation may count -/

/-- From `s` to `t` every counter apart from those of `l` stands. -/
def Counts (l : List Counter) (s t : State) : Prop := ∀ c x, l.all (apart c) = true → countOf c x t = countOf c x s

section

variable {l m : List Counter} {c : Counter} {x n : Nat} {s t u : State}

theorem counts_of_counters (h : t.tel.counters = s.tel.counters) : Counts l s t := fun c x _ => by simp only [countOf, counterOf, h]

theorem counts_of_tel (h : t.tel = s.tel) : Counts l s t := counts_of_counters (congrArg ObserveState.counters h)

/-- An operation that leaves the observation state alone counts nothing. -/
theorem counts_of_keeps {ps : List Part} (h : Keeps ps s t) (hp : ps.contains .tel = false := by rfl) : Counts l s t :=
  counts_of_tel (h.same .tel hp)

theorem Counts.refl : Counts l s s := fun _ _ _ => rfl

theorem Counts.trans (h : Counts l s t) (k : Counts l t u) : Counts l s u := fun c x hc => (k c x hc).trans (h c x hc)

theorem Counts.mono (h : Counts l s t) (hl : ∀ d ∈ l, d ∈ m) : Counts m s t := fun c x hc =>
  h c x (List.all_eq_true.mpr fun d hd => List.all_eq_true.mp hc d (hl d hd))

/-- An operation that counts some of `l`, after others. -/
theorem Counts.after (k : Counts m t u) (h : Counts l s t) (hl : ∀ d ∈ m, d ∈ l := by decide) : Counts l s u := h.trans (k.mono hl)

theorem Counts.count (h : Counts l s t) (hc : c ∈ l) : Counts l s (count c x n t) := fun d y hd =>
  (countOf_count_of_apart (List.all_eq_true.mp hd c hc) y x n t).trans (h d y hd)

theorem Counts.foldl {α : Type} {op : State → α → State} (h : ∀ s a, Counts l s (op s a)) (as : List α) (s : State) :
    Counts l s (as.foldl op s) := fun c x hc => foldl_keeps (countOf c x) fun s a _ => h s a c x hc

/-- A counter that has counted, before operations that count others. -/
theorem counted_then_counts (h : counted c x n s t) (k : Counts l t u) (hl : l.all (apart c) = true := by decide) : counted c x n s u :=
  (k c x hl).trans h

theorem counted_then_same (h : counted c x n s t) (k : u.tel = t.tel) : counted c x n s u :=
  counted_then_counts (l := []) h (counts_of_tel k) rfl

/-- A counter that counts after operations that count others. -/
theorem counts_then_counted (k : Counts l s t) (h : counted c x n t u) (hl : l.all (apart c) = true := by decide) : counted c x n s u := by
  rwa [counted, ← k c x hl]

end

/-! ### Records and drops (R331, R332, R388 to R391) -/

/-- What making a record counts: export frames sent and records lost. -/
def exportCounters : List Counter := [cTelExportFrames, cTelExportLost]

/-- What a drop counts beside its reason. -/
def recordCounters : List Counter := exportCounters ++ [cTelUnrouted, cSwcRecords, cSwcSuppressed]

section

variable (e q r : Nat) (b : Bytes) (v : Frame) (i : CopyInfo) (s : State)

theorem sendExport_counts : Counts exportCounters s (sendExport e s) := by
  have hsent : ∀ (v : Exporter) (w : Frame),
      Counts exportCounters s (count cTelExportFrames e 1 (setExporter e v (newFrame w s).2)) := fun v w =>
    Counts.count (counts_of_counters rfl) (by decide)
  unfold sendExport
  dsimp only
  split
  · exact (hsent _ _).trans (counts_of_tel rfl)
  · exact (hsent _ _).trans (counts_of_tel rfl)

theorem loseRecords_counts (n : Nat) : Counts exportCounters s (loseRecords e n s) := by
  unfold loseRecords
  dsimp only
  split
  · exact Counts.refl
  · exact Counts.after (m := []) (counts_of_tel (kilnOnce_tel _ _ _ _)) (Counts.count (counts_of_counters rfl) (by decide))

theorem exportRecord_counts : Counts exportCounters s (exportRecord e b s) := by
  have hfits : ∀ c : Bool, Counts exportCounters s (if c then s else sendExport e s) := fun c => by
    cases c with
    | true => exact Counts.refl
    | false => exact sendExport_counts e s
  have hstored : ∀ t, Counts exportCounters t (if exportHeld (exporterOf t e) + b.length > 1048576 then loseRecords e 1 t
      else setExporter e { exporterOf t e with waiting := (exporterOf t e).waiting ++ [b] } t) := fun t => by
    split
    · exact loseRecords_counts e t 1
    · exact counts_of_counters rfl
  unfold exportRecord
  exact Counts.after (hstored _) (hfits _)

theorem makeRecord_counts : Counts exportCounters s (makeRecord q e b s) :=
  (counts_of_counters rfl).trans (exportRecord_counts e b _)

theorem dropRecord_counts : Counts recordCounters s (dropRecord q r v i s) := by
  have hlimits : ∀ k₁ u₁ q₁ n₁ k₂ u₂ q₂ n₂, Counts recordCounters s (ensureLimit k₁ u₁ q₁ n₁ (ensureLimit k₂ u₂ q₂ n₂ s)) :=
    fun _ _ _ _ _ _ _ _ => Counts.after (m := []) (counts_of_keeps (keeps_ensureLimit _ _ _ _ _))
      (counts_of_keeps (keeps_ensureLimit _ _ _ _ _))
  have htaken : ∀ k₁ u₁ k₂ u₂ (t : State), Counts recordCounters t (takeLimit k₁ u₁ (takeLimit k₂ u₂ t).2).2 := fun _ _ _ _ _ =>
    Counts.after (m := []) (counts_of_keeps (keeps_takeLimit _ _ _)) (counts_of_keeps (keeps_takeLimit _ _ _))
  unfold dropRecord
  dsimp only
  split
  · exact Counts.refl
  · split
    · split
      · exact Counts.count (hlimits _ _ _ _ _ _ _ _) (by decide)
      · exact Counts.after (makeRecord_counts _ _ _ _) (Counts.count ((hlimits _ _ _ _ _ _ _ _).trans (htaken _ _ _ _ _)) (by decide))
    · exact Counts.after (m := []) (counts_of_tel (kilnOnce_tel _ _ _ _)) (Counts.count (hlimits _ _ _ _ _ _ _ _) (by decide))

theorem dropIn_counts : Counts (cSwcDrops r :: recordCounters) s (dropIn q r v i s) :=
  (Counts.count Counts.refl List.mem_cons_self).trans ((dropRecord_counts q r v i _).mono fun _ => List.mem_cons_of_mem _)

/-- A drop counts once under its reason. -/
theorem dropIn_counted (h : recordCounters.all (apart (cSwcDrops r)) = true := by decide) : counted (cSwcDrops r) q 1 s (dropIn q r v i s) :=
  counted_then_counts (counted_count _ _ _ _) (dropRecord_counts q r v i _) h

/-- What the drop of a copy counts. -/
def copyDropCounters (r : Nat) : List Counter := cTelExportDrops :: cSwcDrops r :: recordCounters

theorem dropCopyIn_counts (x : Option Nat) : Counts (copyDropCounters r) s (dropCopyIn q r x v i s) := by
  unfold dropCopyIn
  split
  · exact Counts.count (Counts.count Counts.refl (List.mem_cons_of_mem _ List.mem_cons_self)) List.mem_cons_self
  · exact (dropIn_counts q r v i s).mono fun _ => List.mem_cons_of_mem _

/-- A dropped copy, an export frame's too, counts once under its reason. -/
theorem dropCopyIn_counted (x : Option Nat) (h : (cTelExportDrops :: recordCounters).all (apart (cSwcDrops r)) = true := by decide) :
    counted (cSwcDrops r) q 1 s (dropCopyIn q r x v i s) := by
  simp only [List.all_cons, Bool.and_eq_true] at h
  unfold dropCopyIn
  split
  · exact (countOf_count_of_apart h.1 _ _ _ _).trans (counted_count _ _ _ _)
  · exact dropIn_counted q r v i s h.2

end

end Sys2Proof.Proofs
end

section
/-!
PROOFS. Rules of the MAC state and of frames at the MAC: what a read of a port or of a frame returns after each update, what a drop leaves of
both, and how a port stops receiving (R103 to R105, R120, R122).
-/

namespace Sys2Proof.Proofs

open Sys2Proof Sys2Proof.Machine Sys2Proof.Laws

/-! ### Ports and pipelines -/

section

variable {s t : State} {p q : Nat}

theorem macPort_of_mac (h : t.mac = s.mac) (p : Nat) : macPort t p = macPort s p := by rw [macPort, h, macPort]

theorem macPort_of_keeps {ps : List Part} (h : Keeps ps s t) (hp : ps.contains .mac = false := by rfl) : macPort t p = macPort s p :=
  macPort_of_mac (h.same .mac hp) p

@[simp] theorem macPort_setMacPort (p : Nat) (v : MacPort) (s : State) : macPort (setMacPort p v s) p = v := tabGet_set _ _ _ _

@[simp] theorem macPipe_setMacPipe (g : Nat) (v : MacPipe) (s : State) : macPipe (setMacPipe g v s) g = v := tabGet_set _ _ _ _

theorem macPipe_of_mac (h : t.mac = s.mac) (g : Nat) : macPipe t g = macPipe s g := by rw [macPipe, h, macPipe]

end

/-! ### Frames -/

section

variable (u : Nat) (v : Frame) (s : State)

@[simp] theorem frameOf_setFrame : frameOf (setFrame u v s) u = v := tabGet_put ({} : Frame) v u s.fr.frames

theorem frameOf_of_frames {t : State} (h : t.fr.frames = s.fr.frames) : frameOf t u = frameOf s u := by rw [frameOf, h, frameOf]

theorem frameOf_of_fr {t : State} (h : t.fr = s.fr) : frameOf t u = frameOf s u := frameOf_of_frames u s (congrArg FrameState.frames h)

theorem frameOf_newFrame : frameOf (newFrame v s).2 s.fr.next = v := tabGet_put ({} : Frame) v s.fr.next s.fr.frames

variable {u}

/-- An export frame takes the next frame number. -/
theorem sendExport_frames (e : Nat) : ∃ w, (sendExport e s).fr.frames = tabPut s.fr.next w s.fr.frames := by
  unfold sendExport
  dsimp only
  split
  · exact ⟨_, rfl⟩
  · exact ⟨_, rfl⟩

theorem frameOf_sendExport (h : u ≠ s.fr.next) (e : Nat) : frameOf (sendExport e s) u = frameOf s u := by
  obtain ⟨w, hw⟩ := sendExport_frames s e
  rw [frameOf, hw]
  exact tabGet_put_ne ({} : Frame) w s.fr.frames h

theorem frameOf_exportRecord (h : u ≠ s.fr.next) (e : Nat) (b : Bytes) : frameOf (exportRecord e b s) u = frameOf s u := by
  have hfits : ∀ c : Bool, frameOf (if c then s else sendExport e s) u = frameOf s u := fun c => by
    cases c with
    | true => rfl
    | false => exact frameOf_sendExport s h e
  have hstored : ∀ (t : State) (w : Exporter) (c : Prop) [Decidable c],
      (if c then loseRecords e 1 t else setExporter e w t).fr = t.fr := fun t w c _ => by
    split
    · exact (keeps_loseRecords e 1 t).same .fr rfl
    · rfl
  unfold exportRecord
  exact (frameOf_of_fr u _ (hstored _ _ _)).trans (hfits _)

theorem frameOf_dropRecord (h : u ≠ s.fr.next) (q r : Nat) (w : Frame) (i : CopyInfo) :
    frameOf (dropRecord q r w i s) u = frameOf s u := by
  have hlimits : ∀ k₁ u₁ q₁ n₁ k₂ u₂ q₂ n₂, (ensureLimit k₁ u₁ q₁ n₁ (ensureLimit k₂ u₂ q₂ n₂ s)).fr = s.fr := fun _ _ _ _ _ _ _ _ =>
    ((keeps_ensureLimit _ _ _ _ _).same .fr rfl).trans ((keeps_ensureLimit _ _ _ _ _).same .fr rfl)
  have htaken : ∀ k₁ u₁ k₂ u₂ (t : State), (takeLimit k₁ u₁ (takeLimit k₂ u₂ t).2).2.fr = t.fr := fun _ _ _ _ _ =>
    ((keeps_takeLimit _ _ _).same .fr rfl).trans ((keeps_takeLimit _ _ _).same .fr rfl)
  have hmade : ∀ e b (t : State), t.fr = s.fr → frameOf (makeRecord q e b t) u = frameOf s u := fun e b t ht => by
    unfold makeRecord
    rw [frameOf_exportRecord _ (by simpa [ht] using h)]
    exact frameOf_of_fr u s ht
  unfold dropRecord
  dsimp only
  split
  · rfl
  · split
    · split
      · exact frameOf_of_fr u s ((count_fr _ _ _ _).trans (hlimits _ _ _ _ _ _ _ _))
      · exact hmade _ _ _ ((count_fr _ _ _ _).trans ((htaken _ _ _ _ _).trans (hlimits _ _ _ _ _ _ _ _)))
    · exact frameOf_of_fr u s ((kilnOnce_fr _ _ _ _).trans ((count_fr _ _ _ _).trans (hlimits _ _ _ _ _ _ _ _)))

theorem frameOf_dropIn (h : u ≠ s.fr.next) (q r : Nat) (w : Frame) (i : CopyInfo) : frameOf (dropIn q r w i s) u = frameOf s u :=
  frameOf_dropRecord (count (cSwcDrops r) q 1 s) h q r w i

end

/-! ### A port that stops receiving -/

section

variable (p u r : Nat) (s : State)

@[simp] theorem macPort_clearRx : macPort (clearRx p u s) p = { macPort s p with
    rx := if (macPort s p).rx == some u then none else (macPort s p).rx
    assembled := if (macPort s p).assembled == some u then none else (macPort s p).assembled } := macPort_setMacPort _ _ _

/-- A port receives a frame no longer. -/
theorem macPort_cutFrame : macPort (cutFrame p u r s) p = macPort (clearRx p u s) p := by
  unfold cutFrame
  dsimp only
  split
  · exact (macPort_of_keeps (keeps_forget _ _)).trans (macPort_of_keeps (keeps_headDrop _ _ _))
  · exact macPort_of_keeps (keeps_endFrame _ _ _)

@[simp] theorem macPort_dropPartial : macPort (dropPartial p r s) p = { macPort s p with assembling := none } := by
  unfold dropPartial
  split
  · rw [macPort_of_keeps (keeps_macDrop _ _ _), macPort_of_keeps (keeps_countRxDrop _ _ _), macPort_setMacPort]
  · next h => rw [← h]

/-- Whatever a port is receiving is cut: it receives and assembles nothing. -/
theorem macPort_cutReceived : (macPort (cutReceived p s) p).rx = none ∧ (macPort (cutReceived p s) p).assembled = none := by
  unfold cutReceived
  dsimp only
  rw [macPort_dropPartial]
  cases hrx : (macPort s p).rx with
  | none =>
    cases has : (macPort s p).assembled with
    | none => exact ⟨hrx, has⟩
    | some a => simp [macPort_cutFrame, hrx, has]
  | some a =>
    cases has : (macPort s p).assembled with
    | none => simp [macPort_cutFrame, hrx, has]
    | some b =>
      by_cases hab : b = a
      · simp [macPort_cutFrame, hrx, has, hab]
      · simp [macPort_cutFrame, hrx, has, hab]

end

/-! ### Receive drops (R121) -/

/-- The counters of receive drops. -/
def rxDropCounters : List Counter := [cRxRunt, cRxOversize, cRxFcs, cRxPcs, cRxOverrun]

theorem rxDropCounter_mem {r : Nat} {c : Counter} (h : rxDropCounter r = some c) : c ∈ rxDropCounters := by
  unfold rxDropCounter at h
  split at h <;> cases h <;> decide

theorem countRxDrop_counts (r p : Nat) (s : State) : Counts rxDropCounters s (countRxDrop r p s) := by
  unfold countRxDrop
  split
  · next c h => exact Counts.count Counts.refl (rxDropCounter_mem h)
  · exact Counts.refl

theorem macDrop_counted (r : Nat) (v : Frame) (s : State) (h : recordCounters.all (apart (cSwcDrops r)) = true := by decide) :
    counted (cSwcDrops r) (v.port / 256) 1 s (macDrop r v s) := dropIn_counted _ _ _ _ _ h

end Sys2Proof.Proofs
end

section
/-!
PROOFS. A frame's head (R83, R103): what it leaves on a port in far-end loopback, what the checks drop, and what waits in the FIFO.
-/

namespace Sys2Proof.Proofs

open Sys2Proof Sys2Proof.Machine Sys2Proof.Laws

/-! ### A frame that arrives -/

/-- The state in which port `p` receives the new frame `v`, its head not yet checked. -/
def arriving (p : Nat) (v : Frame) (s : State) : State := setMacPort p { macPort s p with rx := some s.fr.next } (newFrame v s).2

/-- `v` is the frame that the bytes `b` become at port `p`. -/
structure IsHead (s : State) (p : Nat) (b : Bytes) (v : Frame) : Prop where
  port : v.port = p
  pipe : v.pipe = p / 16
  data : v.data = b
  maxFrame : v.maxFrame = portMaxFrame s p
  resv : v.resv = 0
  place : v.place = .fifo
  ended : v.ended = false

section

variable (p : Nat) (v : Frame) (s : State)

@[simp] theorem frameOf_arriving : frameOf (arriving p v s) s.fr.next = v := frameOf_newFrame v s

@[simp] theorem macPort_arriving : macPort (arriving p v s) p = { macPort s p with rx := some s.fr.next } := macPort_setMacPort _ _ _

@[simp] theorem farEnd_arriving (q : Nat) : farEnd (arriving p v s) q = farEnd s q := rfl

@[simp] theorem macPipe_arriving (g : Nat) : macPipe (arriving p v s) g = macPipe s g := rfl

end

section

variable {p : Port} {b : Bytes} {mark : Bool} {back : Nat} {err : Int} {s : State}
  (ha : portActive s p.val = true) (hb : b ≠ []) (hl : b.length ≤ 64) (hrx : (macPort s p.val).rx = none)
  (he : inRangeI err (-98304) 98304 = true)
include ha hb hl hrx he

theorem exec_rxFrameHead : ∃ v, IsHead s p.val b v ∧
    exec (.rxFrameHead p b mark back err) s = .next (receiveHead s.fr.next mark (arriving p.val v s)) := by
  have hguard : ¬ (!portActive s p.val || b.length > 64 || b.isEmpty || (macPort s p.val).rx.isSome ||
      !inRangeI err (-stampError) stampError) = true := by
    have : inRangeI err (-stampError) stampError = true := he
    simp [ha, hb, hl, hrx, this]
  exact ⟨_, ⟨rfl, rfl, rfl, rfl, rfl, rfl, rfl⟩, if_neg hguard⟩

end

/-! ### A head that is dropped (R103) -/

section

variable {r u p : Nat} {s : State}

/-- The head of frame `u`, on the way to its drop: ended, and counted at its port. -/
theorem frameOf_headDrop (hu : u ≠ s.fr.next) :
    frameOf (headDrop r u s) u = { frameOf s u with place := .spent, bad := r, ended := true } := by
  have hcounted : ∀ (q : Nat) (t : State), (countRxDrop r q t).fr = t.fr := fun q t => (keeps_countRxDrop r q t).same .fr rfl
  unfold headDrop macDrop
  dsimp only
  rw [frameOf_dropIn _ (by rw [hcounted]; exact hu), frameOf_of_fr u _ (hcounted _ _), frameOf_setFrame]

theorem headDrop_counted (hc : recordCounters.all (apart (cSwcDrops r)) = true)
    (hx : rxDropCounters.all (apart (cSwcDrops r)) = true) : counted (cSwcDrops r) ((frameOf s u).port / 256) 1 s (headDrop r u s) := by
  have hbefore : Counts rxDropCounters s (countRxDrop r (frameOf s u).port
      (setFrame u { frameOf s u with place := .spent, bad := r, ended := true } s)) :=
    Counts.after (countRxDrop_counts _ _ _) (counts_of_keeps (keeps_setFrame _ _ _)) fun _ h => h
  exact counts_then_counted hbefore (macDrop_counted r (frameOf s u) _ hc) hx

/-- A frame dropped at its head is received no longer, and its drop is counted. -/
theorem receiveHead_dropped {mark : Bool} (hport : (frameOf s u).port = p) (hfar : farEnd s p = false) (hrx : (macPort s p).rx = some u)
    (hu : u ≠ s.fr.next) (hchecks : headChecks u mark s = headDrop r u s) (hc : recordCounters.all (apart (cSwcDrops r)) = true := by decide)
    (hx : rxDropCounters.all (apart (cSwcDrops r)) = true := by decide) :
    (macPort (receiveHead u mark s) p).rx = none ∧ counted (cSwcDrops r) (p / 256) 1 s (receiveHead u mark s) := by
  have hframe := frameOf_headDrop (r := r) hu
  have hreceive : receiveHead u mark s = forget u (clearRx p u (headDrop r u s)) := by
    simp [receiveHead, hport, hfar, hchecks, hframe]
  have hmac : macPort (headDrop r u s) p = macPort s p := macPort_of_keeps (keeps_headDrop r u s)
  rw [hreceive]
  constructor
  · rw [macPort_of_keeps (keeps_forget _ _), macPort_clearRx, hmac, hrx]
    exact if_pos (beq_self_eq_true _)
  · have hcounted := headDrop_counted (u := u) (s := s) hc hx
    rw [hport] at hcounted
    exact counted_then_same hcounted (((keeps_forget _ _).same .tel rfl).trans ((keeps_clearRx _ _ _).same .tel rfl))

end

/-! ### A head that stays (R103 checks 3 to 6) -/

section

variable {u p : Nat} {v : Frame} {s : State}

/-- A frame that no filter takes goes on to the FIFO. -/
theorem filterAndDispatch_unmatched (h : matchingFilter s (frameOf s u).port (frameOf s u).data = none) :
    filterAndDispatch u s = reserveAndDispatch u none none s := by
  simp only [filterAndDispatch, h]

/-- A frame that fits waits in the FIFO, max_frame bytes reserved, unless its pipeline holds frames. -/
theorem reserveAndDispatch_fits (hhold : framesAt s (frameOf s u).pipe .hold = [])
    (hfits : (frameOf s u).maxFrame ≤ 65536 - fifoUsed s (frameOf s u).pipe) : reserveAndDispatch u none none s =
      setFrame u { frameOf s u with place := .fifo, resv := (frameOf s u).maxFrame } s := by
  have hshort : ¬ 65536 - fifoUsed s (frameOf s u).pipe < (frameOf s u).maxFrame := Nat.not_lt_of_le hfits
  simp [reserveAndDispatch, holdTakes, hhold, hshort]

/-- A new frame that reserves nothing yet makes no pipeline's FIFO fuller. -/
theorem fifoUsed_arriving_le (h : v.resv = 0) (g : Nat) : fifoUsed (arriving p v s) g ≤ fifoUsed s g := by
  have hput : ∀ (P : Nat × Frame → Bool) (m : Store Frame),
      (((tabPut s.fr.next v m).filter P).map fun e => e.2.resv).sum ≤ ((m.filter P).map fun e => e.2.resv).sum := by
    intro P m
    have hnew : (([(s.fr.next, v)].filter P).map fun e => e.2.resv).sum = 0 := by
      by_cases hP : P (s.fr.next, v) = true
      · simp [hP, h]
      · simp [hP]
    induction m with
    | nil => exact le_of_eq hnew
    | cons e m ih =>
      have hcons : ∀ (e : Nat × Frame) l, (((e :: l).filter P).map fun e => e.2.resv).sum =
          (([e].filter P).map fun e => e.2.resv).sum + ((l.filter P).map fun e => e.2.resv).sum := fun e l => by
        rw [← List.sum_append, ← List.map_append, ← List.filter_append, List.singleton_append]
      unfold tabPut
      split
      · rw [hcons, hnew, Nat.zero_add]
      · split
        · rw [hcons, hnew, Nat.zero_add, hcons]
          exact Nat.le_add_left _ _
        · rw [hcons, hcons e m]
          exact Nat.add_le_add_left ih _
  unfold fifoUsed
  rw [← List.sum_eq_foldl, ← List.sum_eq_foldl]
  exact hput _ s.fr.frames

/-- A new frame in the FIFO is in no pipeline's hold. -/
theorem framesAt_arriving_hold (h : v.place = .fifo) {g : Nat} (hg : framesAt s g .hold = []) : framesAt (arriving p v s) g .hold = [] := by
  rw [framesAt, List.map_eq_nil_iff, List.filter_eq_nil_iff] at hg ⊢
  intro e he
  rcases tabPut_subset s.fr.next v s.fr.frames e he with rfl | he
  · simp [h]
  · exact hg e he

end

/-! ### The events (R83, R103) -/

section

variable {p : Port} {b : Bytes} {mark : Bool} {back : Nat} {err : Int} {s : State}
  (ha : portActive s p.val = true) (hb : b ≠ []) (hl : b.length ≤ 64) (hrx : (macPort s p.val).rx = none)
  (he : inRangeI err (-98304) 98304 = true)
include ha hb hl hrx he

/-- On a port in far-end loopback a frame goes no further than its head (R83; the model's choice, assumption 163). -/
theorem rxFrameHead_farEnd_completes (hfar : farEnd s p.val = true) (hm : mark = false) (hlen : b.length = 64) :
    Completes (.rxFrameHead p b mark back err) s fun t =>
      (macPort t p.val).rx = some s.fr.next ∧ (frameOf t s.fr.next).place = .spent ∧ t.tel = s.tel ∧ t.sw = s.sw := by
  obtain ⟨v, hv, hexec⟩ := exec_rxFrameHead (mark := mark) (back := back) ha hb hl hrx he
  have hhead : receiveHead s.fr.next mark (arriving p.val v s) = setFrame s.fr.next { v with place := .spent } (arriving p.val v s) := by
    simp [receiveHead, farEndHead, hv.port, hv.data, hv.ended, hfar, hm, hlen]
  refine ⟨_, hexec, ?_⟩
  rw [hhead]
  refine ⟨?_, congrArg Frame.place (frameOf_setFrame _ _ _), rfl, rfl⟩
  rw [macPort_of_keeps (keeps_setFrame _ _ _), macPort_arriving]

section

variable (hfar : farEnd s p.val = false)
include hfar

/-- A frame dropped by a check of its head. -/
theorem rxFrameHead_dropped {r : Nat} (hchecks : ∀ v, IsHead s p.val b v →
      headChecks s.fr.next mark (arriving p.val v s) = headDrop r s.fr.next (arriving p.val v s))
    (hc : recordCounters.all (apart (cSwcDrops r)) = true := by decide) (hx : rxDropCounters.all (apart (cSwcDrops r)) = true := by decide) :
    Completes (.rxFrameHead p b mark back err) s fun t => (macPort t p.val).rx = none ∧ counted (cSwcDrops r) (p.val / 256) 1 s t := by
  obtain ⟨v, hv, hexec⟩ := exec_rxFrameHead (mark := mark) (back := back) ha hb hl hrx he
  have hport : (frameOf (arriving p.val v s) s.fr.next).port = p.val := by rw [frameOf_arriving, hv.port]
  exact ⟨_, hexec, receiveHead_dropped hport ((farEnd_arriving _ _ _ _).trans hfar) (congrArg MacPort.rx (macPort_arriving _ _ _))
    (Nat.ne_of_lt (Nat.lt_succ_self _)) (hchecks v hv) hc hx⟩

/-- A frame that its head's checks leave in the device: what it then is. -/
theorem rxFrameHead_kept {w : Frame → Frame} (hchecks : ∀ v, IsHead s p.val b v →
      headChecks s.fr.next mark (arriving p.val v s) = setFrame s.fr.next (w v) (arriving p.val v s))
    (hw : ∀ v, (w v).port = v.port ∧ (w v).ended = v.ended) :
    ∃ v, IsHead s p.val b v ∧ Completes (.rxFrameHead p b mark back err) s fun t =>
      (macPort t p.val).rx = some s.fr.next ∧ frameOf t s.fr.next = w v ∧ t.fr.next = s.fr.next + 1 := by
  obtain ⟨v, hv, hexec⟩ := exec_rxFrameHead (mark := mark) (back := back) ha hb hl hrx he
  have hhead : receiveHead s.fr.next mark (arriving p.val v s) = setFrame s.fr.next (w v) (arriving p.val v s) := by
    simp [receiveHead, hv.port, hfar, hchecks v hv, (hw v).2, hv.ended]
  refine ⟨v, hv, _, hexec, ?_⟩
  rw [hhead]
  refine ⟨?_, frameOf_setFrame _ _ _, rfl⟩
  rw [macPort_of_keeps (keeps_setFrame _ _ _), macPort_arriving]

section

variable (hrel : (macPipe s (p.val / 16)).reloading = false)
include hrel

theorem rxFrameHead_pcsError_completes (hm : mark = true) : Completes (.rxFrameHead p b mark back err) s fun t =>
    (macPort t p.val).rx = none ∧ counted (cSwcDrops 4) (p.val / 256) 1 s t :=
  rxFrameHead_dropped ha hb hl hrx he hfar fun v hv => by simp [headChecks, hv.pipe, hrel, hm]

theorem rxFrameHead_runt_completes (hm : mark = false) (hlen : b.length < 64) : Completes (.rxFrameHead p b mark back err) s fun t =>
    (macPort t p.val).rx = none ∧ counted (cSwcDrops 1) (p.val / 256) 1 s t :=
  rxFrameHead_dropped ha hb hl hrx he hfar fun v hv => by simp [headChecks, hv.pipe, hv.data, hrel, hm, hlen]

theorem rxFrameHead_control_completes (hm : mark = false) (hlen : b.length = 64) (htype : fieldBe b 12 2 = 0x8808) :
    Completes (.rxFrameHead p b mark back err) s fun t =>
      (macPort t p.val).rx = some s.fr.next ∧ (frameOf t s.fr.next).place = .control ∧ (frameOf t s.fr.next).data = b ∧
      (frameOf t s.fr.next).port = p.val ∧ t.fr.next = s.fr.next + 1 := by
  obtain ⟨v, hv, t, hexec, hrx', hframe, hnext⟩ := rxFrameHead_kept (mark := mark) (back := back) ha hb hl hrx he hfar
    (w := fun v => { v with place := .control })
    (fun v hv => by simp [headChecks, hv.pipe, hv.data, hrel, hm, hlen, htype]) fun _ => ⟨rfl, rfl⟩
  exact ⟨t, hexec, hrx', by rw [hframe], by rw [hframe]; exact hv.data, by rw [hframe]; exact hv.port, hnext⟩

theorem rxFrameHead_fifo_completes (hm : mark = false) (hlen : b.length = 64) (htype : fieldBe b 12 2 ≠ 0x8808)
    (hfilter : matchingFilter s p.val b = none) (hhold : framesAt s (p.val / 16) .hold = [])
    (hfits : portMaxFrame s p.val ≤ 65536 - fifoUsed s (p.val / 16)) : Completes (.rxFrameHead p b mark back err) s fun t =>
      (macPort t p.val).rx = some s.fr.next ∧ (frameOf t s.fr.next).place = .fifo ∧ (frameOf t s.fr.next).data = b ∧
      (frameOf t s.fr.next).port = p.val ∧ (frameOf t s.fr.next).resv = portMaxFrame s p.val ∧ t.fr.next = s.fr.next + 1 := by
  have hstays : ∀ v, IsHead s p.val b v → headChecks s.fr.next mark (arriving p.val v s) =
      setFrame s.fr.next { v with place := .fifo, resv := v.maxFrame } (arriving p.val v s) := by
    intro v hv
    have hchecks : headChecks s.fr.next mark (arriving p.val v s) = filterAndDispatch s.fr.next (arriving p.val v s) := by
      simp [headChecks, hv.pipe, hv.data, hrel, hm, hlen, htype]
    have hfilter' : matchingFilter (arriving p.val v s) v.port v.data = none := by
      rw [hv.port, hv.data]
      exact hfilter
    have hused := fifoUsed_arriving_le (p := p.val) (s := s) hv.resv (p.val / 16)
    rw [hchecks, filterAndDispatch_unmatched (by rwa [frameOf_arriving]), reserveAndDispatch_fits, frameOf_arriving]
    · rw [frameOf_arriving, hv.pipe]
      exact framesAt_arriving_hold hv.place hhold
    · rw [frameOf_arriving, hv.pipe, hv.maxFrame]
      omega
  obtain ⟨v, hv, t, hexec, hrx', hframe, hnext⟩ := rxFrameHead_kept (mark := mark) (back := back) ha hb hl hrx he hfar
    (w := fun v => { v with place := .fifo, resv := v.maxFrame }) hstays fun _ => ⟨rfl, rfl⟩
  exact ⟨t, hexec, hrx', by rw [hframe], by rw [hframe]; exact hv.data, by rw [hframe]; exact hv.port,
    by rw [hframe]; exact hv.maxFrame, hnext⟩

end

end

end

end Sys2Proof.Proofs
end

section
/-!
PROOFS. Received pause (R112, R115): what ending and loading a class's pause leave, and an accepted PAUSE frame.
-/

namespace Sys2Proof.Proofs

open Sys2Proof Sys2Proof.Machine Sys2Proof.Laws

/-- Port `p` but for its receive pause, and real time: what loading and ending pauses leave alone. -/
def unpaused (p : Nat) (s : State) : MacPort × Nat := ({ macPort s p with timers := [], pausedSince := [], pausedRest := [] }, s.now)

section

variable {p : Nat} {s t : State} (h : unpaused p t = unpaused p s)
include h

theorem rx_of_unpaused : (macPort t p).rx = (macPort s p).rx := (congrArg (fun x => x.1.rx) h :)

theorem recoverAt_of_unpaused : (macPort t p).recoverAt = (macPort s p).recoverAt := (congrArg (fun x => x.1.recoverAt) h :)

theorem inRecovery_of_unpaused (c : Nat) : inRecovery t p c = inRecovery s p c := by rw [inRecovery, recoverAt_of_unpaused h, inRecovery]

theorem now_of_unpaused : t.now = s.now := (congrArg Prod.snd h :)

end

section

variable {p c : Nat} {s : State}

/-- The pause of a class in progress ends: neither its timer nor its start stands. -/
theorem macPort_endPause {since : Nat} (h : tabFind (macPort s p).pausedSince c = some since) (n : Nat) :
    ∃ rest, macPort (endPause p c n s) p = { macPort s p with
      timers := tabDel c (macPort s p).timers, pausedSince := tabDel c (macPort s p).pausedSince, pausedRest := rest } := by
  unfold endPause
  dsimp only
  rw [h]
  exact ⟨_, macPort_setMacPort _ _ _⟩

theorem unpaused_endPause (n : Nat) : unpaused p (endPause p c n s) = unpaused p s := by
  cases h : tabFind (macPort s p).pausedSince c with
  | none => simp [endPause, h]
  | some since =>
    obtain ⟨rest, hrest⟩ := macPort_endPause h n
    rw [unpaused, hrest, (keeps_endPause p c n s).same .now rfl]
    rfl

theorem unpaused_loadPause (time : Nat) : unpaused p (loadPause p time c s) = unpaused p s := by
  unfold loadPause
  split
  · rfl
  · split
    · exact unpaused_endPause _
    · rw [unpaused, macPort_setMacPort]
      rfl

/-- A class that obeys pause loads its timer. -/
theorem loadPause_timer (hc : inRecovery s p c = false) {time : Nat} (ht : 0 < time) :
    tabFind (macPort (loadPause p time c s) p).timers c = some (s.now + time) := by
  have hne : (time == 0) = false := by simpa using Nat.ne_of_gt ht
  simp [loadPause, hc, hne]

theorem loadPause_timer_ne {time j : Nat} (hj : j ≠ c) :
    tabFind (macPort (loadPause p time c s) p).timers j = tabFind (macPort s p).timers j := by
  unfold loadPause
  split
  · rfl
  · split
    · cases h : tabFind (macPort s p).pausedSince c with
      | none => simp [endPause, h]
      | some since =>
        obtain ⟨rest, hrest⟩ := macPort_endPause h s.now
        rw [hrest]
        exact tabFind_del_ne _ hj
    · rw [macPort_setMacPort]
      exact tabFind_put_ne _ _ hj

end

section

variable {p mbps q : Nat} {s : State}

/-- Eight classes that obey pause, each loaded with the same quanta. -/
theorem actOnPause_all (hc : ∀ c, inRecovery s p c = false) (hq : 0 < quantaTime mbps q) :
    (∀ c, c < 8 → tabFind (macPort (actOnPause p mbps ((List.range 8).map fun c => (c, q)) s) p).timers c = some (s.now + quantaTime mbps q)) ∧
    unpaused p (actOnPause p mbps ((List.range 8).map fun c => (c, q)) s) = unpaused p s := by
  have hact : ∀ l : List Nat,
      (actOnPause p mbps (l.map fun c => (c, q)) s).mac = (l.foldl (fun s c => loadPause p (quantaTime mbps q) c s) s).mac ∧
      (actOnPause p mbps (l.map fun c => (c, q)) s).now = (l.foldl (fun s c => loadPause p (quantaTime mbps q) c s) s).now := fun l => by
    unfold actOnPause
    rw [List.foldl_map]
    split <;> exact ⟨rfl, rfl⟩
  obtain ⟨hmac, hnow⟩ := hact (List.range 8)
  constructor
  · intro c hlt
    have hplaces := foldl_places (l := List.range 8) (op := fun s c => loadPause p (quantaTime mbps q) c s)
      (read := fun t c => tabFind (macPort t p).timers c) (val := fun _ _ => some (s.now + quantaTime mbps q))
      (I := fun t => unpaused p t = unpaused p s) (fun t c ht => (unpaused_loadPause _).trans ht)
      (fun t c ht => (now_of_unpaused ht) ▸ loadPause_timer ((inRecovery_of_unpaused ht c).trans (hc c)) hq)
      (fun t c j hj => loadPause_timer_ne hj) List.nodup_range rfl c
    rw [macPort_of_mac hmac]
    rwa [if_pos (List.mem_range.mpr hlt)] at hplaces
  · rw [unpaused, macPort_of_mac hmac, hnow]
    exact foldl_keeps (unpaused p) fun t c _ => unpaused_loadPause _

/-- A PAUSE frame accepted on a port in PAUSE mode loads every class's timer and leaves the rest of the port alone (R112, R115). -/
theorem macControl_pause {v : Frame} (hlen : v.data.length ≤ 128) (hop : fieldBe v.data 14 2 = 1) (hmode : flowMode s p = 1)
    (hc : ∀ c, inRecovery s p c = false) (hq : 0 < quantaTime mbps (fieldBe v.data 16 2)) :
    (∀ c, c < 8 → tabFind (macPort (macControl p mbps v s) p).timers c = some (s.now + quantaTime mbps (fieldBe v.data 16 2))) ∧
    unpaused p (macControl p mbps v s) = unpaused p s := by
  have hlong : ¬ v.data.length > 128 := Nat.not_lt_of_le hlen
  have hacts : macControl p mbps v s =
      actOnPause p mbps ((List.range 8).map fun c => (c, fieldBe v.data 16 2)) (count cRxPause p 1 (countGood v s)) := by
    simp [macControl, hlong, hop, hmode]
  have hmac : (count cRxPause p 1 (countGood v s)).mac = s.mac := (count_mac _ _ _ _).trans ((keeps_countGood v s).same .mac rfl)
  have hnow : (count cRxPause p 1 (countGood v s)).now = s.now := (count_now _ _ _ _).trans ((keeps_countGood v s).same .now rfl)
  have hrecovery : ∀ c, inRecovery (count cRxPause p 1 (countGood v s)) p c = false := fun c => by
    rw [inRecovery, macPort_of_mac hmac]
    exact hc c
  obtain ⟨htimers, hrest⟩ := actOnPause_all hrecovery hq
  rw [hnow] at htimers
  rw [hacts, hrest, unpaused, macPort_of_mac hmac, hnow]
  exact ⟨htimers, rfl⟩

end

end Sys2Proof.Proofs
end

section
/-!
PROOFS. Frames are received (O17): a frame's end, its cut, a MAC control frame, fragments, and the statement from these and the heads.
-/

namespace Sys2Proof.Proofs

open Sys2Proof Sys2Proof.Machine Sys2Proof.Laws

/-! ### A frame's end (R104, R112) -/

section

variable {p : Port} {u : Nat} {b : Bytes} {s : State} (hrx : (macPort s p.val).rx = some u)
include hrx

theorem rx_clearRx : (macPort (clearRx p.val u s) p.val).rx = none := by
  rw [macPort_clearRx, hrx]
  exact if_pos (beq_self_eq_true _)

/-- A frame cut short is received no longer. -/
theorem rx_cutFrame (r : Nat) : (macPort (cutFrame p.val u r s) p.val).rx = none :=
  (congrArg MacPort.rx (macPort_cutFrame _ _ _ _)).trans (rx_clearRx hrx)

theorem rxFrameEnd_completes (hp : (frameOf s u).place ≠ .control) (hlen : (frameOf s u).data.length + b.length ≤ (frameOf s u).maxFrame) :
    Completes (.rxFrameEnd p b) s fun t => (macPort t p.val).rx = none := by
  have hguard : ¬ ((frameOf s u).place == .control || (frameOf s u).data.length + b.length > (frameOf s u).maxFrame) = true := by
    simp [hp, Nat.not_lt_of_le hlen]
  have hexec : exec (.rxFrameEnd p b) s =
      .next (endFrame u (if fcsGood ((frameOf s u).data ++ b) then 0 else 3) (moreBytes u b (clearRx p.val u s))) := by
    change execRxFrameEnd p b s = _
    simp only [execRxFrameEnd, hrx, if_neg hguard]
  refine ⟨_, hexec, ?_⟩
  beta_reduce
  rw [macPort_of_keeps (keeps_endFrame _ _ _), macPort_of_keeps (keeps_moreBytes _ _ _)]
  exact rx_clearRx hrx

theorem rxOversize_completes (hp : (frameOf s u).place ≠ .control) (hlen : (frameOf s u).maxFrame < (frameOf s u).data.length + b.length) :
    Completes (.rxOversize p b) s fun t => (macPort t p.val).rx = none := by
  have hguard : ¬ ((frameOf s u).place == .control || (frameOf s u).data.length + b.length ≤ (frameOf s u).maxFrame) = true := by
    simp [hp, Nat.not_le_of_lt hlen]
  have hexec : exec (.rxOversize p b) s =
      .next (cutFrame p.val u 2 (moreBytes u (b.take ((frameOf s u).maxFrame - (frameOf s u).data.length)) s)) := by
    change execRxOversize p b s = _
    simp only [execRxOversize, hrx, if_neg hguard]
  exact ⟨_, hexec, rx_cutFrame ((congrArg MacPort.rx (macPort_of_keeps (keeps_moreBytes _ _ _))).trans hrx) 2⟩

/-- An error mark ends the frame at once (the model's choice, assumption 35). -/
theorem rxPcsErrorMark_completes : Completes (.rxPcsErrorMark p) s fun t => (macPort t p.val).rx = none := by
  have hexec : exec (.rxPcsErrorMark p) s = .next (cutFrame p.val u 4 s) := by
    change execRxPcsErrorMark p s = _
    simp only [execRxPcsErrorMark, hrx]
  exact ⟨_, hexec, rx_cutFrame hrx 4⟩

section

variable (hp : (frameOf s u).place = .control)
include hp

/-- A MAC control frame ends: it is received no longer, then acted on, or dropped for its FCS. -/
theorem exec_macControlFrame : ∃ v : Frame, v.data = (frameOf s u).data ++ b ∧ v.port = (frameOf s u).port ∧ exec (.macControlFrame p b) s =
    .next (forget u (if fcsGood v.data then macControl p.val (portMbps s p.val) v (setFrame u v (clearRx p.val u s))
      else macDrop 3 v (countRxDrop 3 p.val (setFrame u v (clearRx p.val u s))))) := by
  have hguard : ¬ ((frameOf s u).place != .control) = true := by simp [hp]
  refine ⟨{ frameOf s u with data := (frameOf s u).data ++ b, ended := true, place := .spent }, rfl, rfl, ?_⟩
  change execMacControlFrame p b s = _
  simp only [execMacControlFrame, hrx, if_neg hguard]

theorem macControlFrame_pause_completes (hfcs : fcsGood ((frameOf s u).data ++ b) = true) (hlen : ((frameOf s u).data ++ b).length ≤ 128)
    (hop : fieldBe ((frameOf s u).data ++ b) 14 2 = 1) (hmode : flowMode s p.val = 1) (hc : ∀ c, inRecovery s p.val c = false)
    (hq : 0 < quantaTime (portMbps s p.val) (fieldBe ((frameOf s u).data ++ b) 16 2)) : Completes (.macControlFrame p b) s fun t =>
      (macPort t p.val).rx = none ∧ ∀ c, c < 8 →
        tabFind (macPort t p.val).timers c = some (s.now + quantaTime (portMbps s p.val) (fieldBe ((frameOf s u).data ++ b) 16 2)) := by
  obtain ⟨v, hdata, -, hexec⟩ := exec_macControlFrame (b := b) hrx hp
  rw [← hdata] at hfcs hlen hop hq ⊢
  have hport : macPort (setFrame u v (clearRx p.val u s)) p.val = macPort (clearRx p.val u s) p.val := macPort_of_keeps (keeps_setFrame _ _ _)
  have hmode' : flowMode (setFrame u v (clearRx p.val u s)) p.val = 1 := by
    rw [flowMode, portFlow, hport, macPort_clearRx]
    exact hmode
  have hrecovery : ∀ c, inRecovery (setFrame u v (clearRx p.val u s)) p.val c = false := fun c => by
    rw [inRecovery, hport, macPort_clearRx]
    exact hc c
  obtain ⟨htimers, hrest⟩ := macControl_pause hlen hop hmode' hrecovery hq
  rw [if_pos hfcs] at hexec
  refine ⟨_, hexec, ?_, fun c hlt => ?_⟩
  · rw [macPort_of_keeps (keeps_forget _ _), rx_of_unpaused hrest, hport]
    exact rx_clearRx hrx
  · rw [macPort_of_keeps (keeps_forget _ _)]
    exact htimers c hlt

theorem macControlFrame_badFcs_completes (hfcs : fcsGood ((frameOf s u).data ++ b) = false) : Completes (.macControlFrame p b) s fun t =>
    (macPort t p.val).rx = none ∧ (macPort t p.val).timers = (macPort s p.val).timers ∧
    counted (cSwcDrops 3) ((frameOf s u).port / 256) 1 s t := by
  obtain ⟨v, hdata, hport, hexec⟩ := exec_macControlFrame (b := b) hrx hp
  rw [hdata, hfcs] at hexec
  refine ⟨_, hexec, ?_⟩
  have hcount : Counts rxDropCounters s (countRxDrop 3 p.val (setFrame u v (clearRx p.val u s))) :=
    Counts.after (countRxDrop_counts _ _ _) (counts_of_tel (((keeps_setFrame _ _ _).same .tel rfl).trans ((keeps_clearRx _ _ _).same .tel rfl)))
  have hport' : macPort (forget u (macDrop 3 v (countRxDrop 3 p.val (setFrame u v (clearRx p.val u s))))) p.val =
      macPort (clearRx p.val u s) p.val := by
    rw [macPort_of_keeps (keeps_forget _ _), macPort_of_keeps (keeps_macDrop _ _ _), macPort_of_keeps (keeps_countRxDrop _ _ _),
      macPort_of_keeps (keeps_setFrame _ _ _)]
  refine ⟨(congrArg MacPort.rx hport').trans (rx_clearRx hrx), ?_, ?_⟩
  · rw [if_neg Bool.false_ne_true, hport', macPort_clearRx]
  · rw [← hport]
    exact counted_then_same (counts_then_counted hcount (macDrop_counted 3 v _)) ((keeps_forget _ _).same .tel rfl)

end

end

/-! ### Fragments (R105) -/

section

variable {p : Port} {b : Bytes} {back : Nat} {s : State} (ha : portActive s p.val = true) (hph : (macPort s p.val).preemptPhase = .active)
include ha hph

theorem fragment_taken : ¬ (!portActive s p.val || (macPort s p.val).preemptPhase != .active || !inRangeI 0 (-stampError) stampError) = true := by
  have : inRangeI 0 (-stampError) stampError = true := by decide
  simp [ha, hph, this]

/-- A first fragment shorter than a frame's head is kept for reassembly. -/
theorem rxFragment_first_completes (hasm : (macPort s p.val).assembling = none) (hass : (macPort s p.val).assembled = none) (hlen : b.length < 64) :
    Completes (.rxFragment p 0 true false b back 0) s fun t => (macPort t p.val).assembling = some b ∧ t.tel = s.tel := by
  have hexec : exec (.rxFragment p 0 true false b back 0) s = .next (setMacPort p.val { macPort s p.val with assembling := some b } s) := by
    refine (if_neg (fragment_taken ha hph)).trans ?_
    simp [hasm, hass, hlen]
  exact ⟨_, hexec, congrArg MacPort.assembling (macPort_setMacPort _ _ _), rfl⟩

omit ha hph in
/-- A failed reassembly drops what there is. -/
theorem macPort_fragmentError (p kind : Nat) (s : State) :
    (macPort (fragmentError p kind s) p).assembling = none ∧ (macPort (fragmentError p kind s) p).assembled = none := by
  have hcounted : ∀ c, macPort (count c p 1 s) p = macPort s p := fun _ => rfl
  unfold fragmentError
  dsimp only
  cases has : (macPort s p).assembled with
  | none => simp [hcounted, has]
  | some u => simp [macPort_cutFrame, hcounted, has]

theorem rxFragment_error_completes {kind : Fin 4} {first last : Bool} (hk : kind.val ≠ 0) :
    Completes (.rxFragment p kind first last b back 0) s fun t => (macPort t p.val).assembling = none ∧ (macPort t p.val).assembled = none := by
  have hkind : (kind.val != 0 || first == ((macPort s p.val).assembling.isSome || (macPort s p.val).assembled.isSome)) = true := by simp [hk]
  exact ⟨_, (if_neg (fragment_taken ha hph)).trans (if_pos hkind), macPort_fragmentError _ _ _⟩

end

/-- Settles O17: each head, each end and each fragment has its own lemma. -/
theorem framesAreReceived : Obligations.FramesAreReceived :=
  ⟨fun _ _ _ _ _ _ ha hb hl hrx he hrel => ⟨rxFrameHead_farEnd_completes ha hb hl hrx he, fun hfar =>
      ⟨rxFrameHead_pcsError_completes ha hb hl hrx he hfar hrel, rxFrameHead_runt_completes ha hb hl hrx he hfar hrel,
        rxFrameHead_control_completes ha hb hl hrx he hfar hrel, fun hm hlen htype hfilter hhold _ hfits =>
        rxFrameHead_fifo_completes ha hb hl hrx he hfar hrel hm hlen htype hfilter hhold hfits⟩⟩,
    fun _ _ _ _ => ⟨fun hrx => ⟨rxFrameEnd_completes hrx, rxOversize_completes hrx, rxPcsErrorMark_completes hrx,
        macControlFrame_pause_completes hrx, macControlFrame_badFcs_completes hrx⟩,
      fun ha hph => ⟨fun _ => rxFragment_first_completes ha hph, fun _ _ _ _ => rxFragment_error_completes ha hph⟩⟩⟩

end Sys2Proof.Proofs
end

section
/-!
PROOFS. Flow control (R113 to R117): bits of XOFF, what sending a pause frame leaves, an occupancy compared with its thresholds, refreshes,
and received pauses that end.
-/

namespace Sys2Proof.Proofs

open Sys2Proof Sys2Proof.Machine Sys2Proof.Laws

/-! ### Bits and tables written in a run -/

section

variable {v c k x : Nat}

/-- A field of one bit set: what lies below it stands, and what lies above it. -/
theorem setBits_one (v c x : Nat) : setBits v c 1 x = 2 ^ c * (2 * (v / 2 ^ c / 2) + x % 2) + v % 2 ^ c := by
  have hv := Nat.div_add_mod v (2 ^ c)
  have hh := Nat.div_add_mod (v / 2 ^ c) 2
  have hle : 2 ^ c * (v / 2 ^ c % 2) ≤ 2 ^ c * (v / 2 ^ c) := Nat.mul_le_mul_left _ (Nat.mod_le _ _)
  have hsplit : 2 ^ c * (v / 2 ^ c) = 2 ^ c * (2 * (v / 2 ^ c / 2)) + 2 ^ c * (v / 2 ^ c % 2) := by rw [← Nat.mul_add, hh]
  unfold setBits bits
  rw [Nat.mul_add, pow_one]
  omega

theorem bit_setBits_same : bit (setBits v c 1 x) c = decide (x % 2 = 1) := by
  have hdiv : setBits v c 1 x / 2 ^ c = 2 * (v / 2 ^ c / 2) + x % 2 := by
    rw [setBits_one, Nat.mul_add_div (Nat.two_pow_pos c), Nat.div_eq_of_lt (Nat.mod_lt _ (Nat.two_pow_pos c)), Nat.add_zero]
  rw [bit, Nat.testBit_eq_decide_div_mod_eq, hdiv]
  congr 2
  omega

theorem bit_setBits_ne (h : k ≠ c) : bit (setBits v c 1 x) k = bit v k := by
  unfold bit
  rcases Nat.lt_or_gt_of_ne h with hlt | hgt
  · have hmod : setBits v c 1 x % 2 ^ c = v % 2 ^ c := by
      rw [setBits_one, Nat.mul_add_mod, Nat.mod_mod]
    have hlow : ∀ n : Nat, (n % 2 ^ c).testBit k = n.testBit k := fun n => by simp [Nat.testBit_mod_two_pow, hlt]
    rw [← hlow, hmod, hlow]
  · have hdiv : setBits v c 1 x / 2 ^ (c + 1) = v / 2 ^ (c + 1) := by
      rw [setBits_one, pow_succ, ← Nat.div_div_eq_div_mul, ← Nat.div_div_eq_div_mul, Nat.mul_add_div (Nat.two_pow_pos c),
        Nat.div_eq_of_lt (Nat.mod_lt _ (Nat.two_pow_pos c))]
      omega
    obtain ⟨j, rfl⟩ : ∃ j, k = c + 1 + j := ⟨k - (c + 1), by omega⟩
    have hhigh : ∀ n : Nat, (n / 2 ^ (c + 1)).testBit j = n.testBit (c + 1 + j) := fun n => by
      rw [Nat.testBit_div_two_pow, Nat.add_comm]
    rw [← hhigh, hdiv, hhigh]

/-- A run of bits set leaves each of them set. -/
theorem bit_foldl_set {l : List Nat} (h : c ∈ l) (v : Nat) : bit (l.foldl (fun x c => setBits x c 1 1) v) c = true := by
  have hset : ∀ x k, bit x c = true ∨ k = c → bit (setBits x k 1 1) c = true := by
    intro x k hk
    by_cases hc : k = c
    · rw [hc]
      exact bit_setBits_same
    · rw [bit_setBits_ne (Ne.symm hc)]
      exact hk.resolve_right hc
  exact foldl_reaches (op := fun x c => setBits x c 1 1) (P := fun _ => True) (Q := fun x => bit x c = true)
    (fun x _ => hset x c (.inr rfl)) (fun _ _ _ _ => trivial)
    (fun x k hx => hset x k (.inl hx)) h trivial

/-- A table after a run of writes reads as written. -/
theorem tabGet_foldl_set {α : Type} [DecidableEq α] {d : α} {key : Nat → Nat} (hkey : ∀ i j, key i = key j → i = j) (f : Nat → α)
    {l : List Nat} (h : k ∈ l) (m : Store α) : tabGet d (l.foldl (fun t i => tabSet d (key i) (f i) t) m) (key k) = f k := by
  have hset : ∀ t i, tabGet d t (key k) = f k ∨ i = k → tabGet d (tabSet d (key i) (f i) t) (key k) = f k := by
    intro t i hi
    by_cases hk : i = k
    · rw [hk]
      exact tabGet_set _ _ _ _
    · rw [tabGet_set_ne _ _ fun e => hk (hkey _ _ e).symm]
      exact hi.resolve_right hk
  exact foldl_reaches (op := fun t i => tabSet d (key i) (f i) t) (P := fun _ => True) (Q := fun t => tabGet d t (key k) = f k)
    (fun t _ => hset t k (.inr rfl)) (fun _ _ _ _ => trivial)
    (fun t i ht => hset t i (.inl ht)) h trivial

end

/-! ### Sending (R114, R117) -/

/-- Port `p` but for when its XOFF was last sent. -/
def unsent (p : Nat) (s : State) : MacPort := { macPort s p with sentAt := [] }

section

variable (p mode n : Nat) (ns : List (Nat × Nat)) (s : State)

theorem unsent_of_mac {t : State} (h : t.mac = s.mac) : unsent p t = unsent p s := by rw [unsent, macPort_of_mac h, unsent]

theorem unsent_setMacPort (v : MacPort) : unsent p (setMacPort p v s) = { v with sentAt := [] } := by rw [unsent, macPort_setMacPort]

theorem unsent_sendQuanta : unsent p (sendQuanta p mode ns s) = unsent p s := by
  have hsent : ∀ c x t, (emit x (count cTxBytes p 64 (count c p 1 t))).mac = t.mac := fun _ _ _ => by simp only [emit_mac, count_mac]
  have hclasses : ∀ t, (ns.foldl (fun s x => count (cTxPfc x.1) p 1 s) t).mac = t.mac := fun t =>
    foldl_keeps State.mac fun _ _ _ => count_mac _ _ _ _
  unfold sendQuanta
  dsimp only
  split
  · rfl
  · split
    · exact (unsent_of_mac p _ ((count_mac _ _ _ _).trans (hsent _ _ _))).trans (unsent_setMacPort _ _ _)
    · exact (unsent_of_mac p _ ((hclasses _).trans (hsent _ _ _))).trans (unsent_setMacPort _ _ _)

variable {p mode n s} in
/-- Sending XOFF or XON leaves the port but for when it was sent. -/
theorem sendFlow_port {α : Type} (f : MacPort → α) (hf : ∀ m x, f { m with sentAt := x } = f m) (cs : List Nat) :
    f (macPort (sendFlow p mode cs n s) p) = f (macPort s p) :=
  (hf _ []).symm.trans ((congrArg f (unsent_sendQuanta p mode (cs.map fun c => (c, n)) s)).trans (hf _ []))

/-- An ACTIVE port that uses flow control sends one frame for the classes it is given. -/
theorem sendQuanta_sends {mode : Nat} {ns : List (Nat × Nat)} {s : State} (hn : ns ≠ []) (hm : mode ≠ 0) (ha : portActive s p = true)
    (hf : farEnd s p = false) : ∃ f, (sendQuanta p mode ns s).out = .transmit p f false :: s.out := by
  have hguard : ¬ (ns.isEmpty || mode == 0 || !portActive s p || farEnd s p) = true := by simp [hn, hm, ha, hf]
  have hcounts : ∀ t, (ns.foldl (fun s x => count (cTxPfc x.1) p 1 s) t).out = t.out := fun t =>
    foldl_keeps State.out fun _ _ _ => count_out _ _ _ _
  unfold sendQuanta
  dsimp only
  rw [if_neg hguard]
  split
  · exact ⟨_, rfl⟩
  · exact ⟨_, hcounts _⟩

end

end Sys2Proof.Proofs
end

section
/-!
PROOFS. Flow control and preemption (R113 to R119): the occupancy compared, a refresh, pauses that end, storms, and preemption's verification.
-/

namespace Sys2Proof.Proofs

open Sys2Proof Sys2Proof.Machine Sys2Proof.Laws

/-! ### Thresholds (R113, R114) -/

section

variable {p k : Nat} {s t : State}

theorem portFlow_of_flow (h : (macPort t p).flow = (macPort s p).flow) : portFlow t p = portFlow s p := by rw [portFlow, h, portFlow]

theorem flowMode_of_flow (h : (macPort t p).flow = (macPort s p).flow) : flowMode t p = flowMode s p := by
  rw [flowMode, portFlow_of_flow h, flowMode]

theorem usedClasses_of_flow (h : (macPort t p).flow = (macPort s p).flow) : usedClasses t p = usedClasses s p := by
  rw [usedClasses, flowMode_of_flow h, flowMask, portFlow_of_flow h, usedClasses, flowMask]

theorem flowOccupancy_of_port (hf : (macPort t p).flow = (macPort s p).flow) (ho : (macPort t p).occupancy = (macPort s p).occupancy) (k : Nat) :
    flowOccupancy t p k = flowOccupancy s p k := by rw [flowOccupancy, flowMode_of_flow hf, ho, flowOccupancy]

theorem usedClasses_lt (h : k ∈ usedClasses s p) : k < 8 := by
  unfold usedClasses at h
  split at h
  · rw [List.mem_singleton.mp h]
    decide
  · exact List.mem_range.mp (List.mem_of_mem_filter h)
  · cases h

/-- The XOFF of class `k` that the thresholds ask for: set at the upper one, cleared at the lower one. -/
def wantedXoff (p : Nat) (s : State) (k : Nat) : Bool :=
  if bit (macPort s p).xoff k then decide (u32 (portFlow s p) (48 + 4 * k) < flowOccupancy s p k)
  else decide (u32 (portFlow s p) (16 + 4 * k) ≤ flowOccupancy s p k)

/-- A run of classes set and cleared leaves each as it is listed. -/
theorem bit_foldl_thresholds (on off : List Nat) (v : Nat) (hk : k < 8) :
    bit ((List.range 8).foldl (fun x c => if on.contains c then setBits x c 1 1 else if off.contains c then setBits x c 1 0 else x) v) k =
      if on.contains k then true else if off.contains k then false else bit v k := by
  have hne : ∀ x c, c ≠ k →
      bit (if on.contains c then setBits x c 1 1 else if off.contains c then setBits x c 1 0 else x) k = bit x k := fun x c hc => by
    split
    · exact bit_setBits_ne (Ne.symm hc)
    · split
      · exact bit_setBits_ne (Ne.symm hc)
      · rfl
  have hsame : ∀ x b, (bit x k = if on.contains k then true else if off.contains k then false else b) ∨ bit x k = b →
      bit (if on.contains k then setBits x k 1 1 else if off.contains k then setBits x k 1 0 else x) k =
        if on.contains k then true else if off.contains k then false else b := fun x b hx => by
    split
    · exact bit_setBits_same
    · next hon =>
      split
      · exact bit_setBits_same
      · next hoff =>
        rw [if_neg hon, if_neg hoff, or_self] at hx
        exact hx
  refine foldl_reaches (P := fun x => bit x k = bit v k)
    (Q := fun x => bit x k = if on.contains k then true else if off.contains k then false else bit v k)
    (op := fun x c => if on.contains c then setBits x c 1 1 else if off.contains c then setBits x c 1 0 else x)
    (fun x hx => hsame x _ (.inr hx)) (fun x c hc hx => (hne x c hc).trans hx) (fun x c hx => ?_) (List.mem_range.mpr hk) rfl
  by_cases hc : c = k
  · rw [hc]
    exact hsame x _ (.inl hx)
  · exact (hne x c hc).trans hx

/-- Comparing a port's occupancy changes its XOFF to what the thresholds ask for, and beyond that only what was sent (R114). -/
theorem unsent_compareFlow (h : (macPort s p).heldXoff = false) :
    ∃ mask, unsent p (compareFlow p s) = { macPort s p with sentAt := [], xoff := mask } ∧
      ∀ k ∈ usedClasses s p, bit mask k = wantedXoff p s k := by
  have hheld : ¬ (macPort s p).heldXoff = true := by simp [h]
  unfold compareFlow
  dsimp only
  rw [if_neg hheld]
  refine ⟨_, (unsent_sendQuanta _ _ _ _).trans (unsent_setMacPort _ _ _), fun k hk => ?_⟩
  rw [bit_foldl_thresholds _ _ _ (usedClasses_lt hk), wantedXoff]
  cases hb : bit (macPort s p).xoff k with
  | false => simp [hk, hb]
  | true => simp [hk, hb, ← decide_not]

/-- Comparing leaves the port but for its XOFF and what was sent. -/
theorem compareFlow_port {α : Type} (f : MacPort → α) (hf : ∀ m x y, f { m with sentAt := x, xoff := y } = f m) :
    f (macPort (compareFlow p s) p) = f (macPort s p) := by
  cases h : (macPort s p).heldXoff with
  | true => rw [compareFlow, if_pos h]
  | false =>
    obtain ⟨mask, hmask, -⟩ := unsent_compareFlow h
    exact (hf _ [] _).symm.trans ((congrArg f hmask).trans (hf _ _ _))

/-- The XOFF of a used class follows its thresholds, with the occupancy that is compared. -/
theorem compareFlow_xoff (hheld : (macPort t p).heldXoff = false) (hflow : (macPort t p).flow = (macPort s p).flow)
    (hxoff : (macPort t p).xoff = (macPort s p).xoff) (hk : k ∈ usedClasses s p) :
    bit (macPort (compareFlow p t) p).xoff k = if bit (macPort s p).xoff k
      then decide (u32 (portFlow s p) (48 + 4 * k) < flowOccupancy (compareFlow p t) p k)
      else decide (u32 (portFlow s p) (16 + 4 * k) ≤ flowOccupancy (compareFlow p t) p k) := by
  obtain ⟨mask, hmask, hbits⟩ := unsent_compareFlow hheld
  have hnew : (macPort (compareFlow p t) p).xoff = mask := (congrArg MacPort.xoff hmask :)
  rw [hnew, hbits k (usedClasses_of_flow hflow ▸ hk), wantedXoff, hxoff, portFlow_of_flow hflow,
    flowOccupancy_of_port (compareFlow_port MacPort.flow fun _ _ _ => rfl) (compareFlow_port MacPort.occupancy fun _ _ _ => rfl)]

end

section

variable {q : Quad} {p : Port} {s : State}

theorem occupancyReport_completes (hc : configured s p.val = true) : Completes (.occupancyReport q p) s fun t =>
    (∀ k, k < 8 → tabGet 0 (macPort t p.val).occupancy (8 * q.val + k) = trueOccupancy s q.val p.val k) ∧
    ((macPort s p.val).heldXoff = false → ∀ k ∈ usedClasses s p.val, bit (macPort t p.val).xoff k =
      if bit (macPort s p.val).xoff k then decide (u32 (portFlow s p.val) (48 + 4 * k) < flowOccupancy t p.val k)
      else decide (u32 (portFlow s p.val) (16 + 4 * k) ≤ flowOccupancy t p.val k)) := by
  have hguard : ¬ (!configured s p.val) = true := by simp [hc]
  refine ⟨_, if_neg hguard, fun k hk => ?_, fun hheld k hk => ?_⟩
  · rw [compareFlow_port MacPort.occupancy fun _ _ _ => rfl, macPort_setMacPort]
    exact tabGet_foldl_set (key := fun c => 8 * q.val + c) (by omega) (fun c => trueOccupancy s q.val p.val c) (List.mem_range.mpr hk) _
  · refine compareFlow_xoff ?_ ?_ ?_ hk
    · rwa [macPort_setMacPort]
    · rw [macPort_setMacPort]
    · rw [macPort_setMacPort]

/-- A refresh goes out for the class whose XOFF was sent first, if for no other. -/
theorem refresh_due {on : List Nat} {sent : Nat → Nat} {t : Nat} {ts : List Nat} (h : on.map sent = t :: ts) {half now : Nat}
    (hnow : ts.foldl min t + half ≤ now) : (on.filter fun c => sent c + half ≤ now) ≠ [] := by
  have hmin : ts.foldl min t ∈ on.map sent := by
    rw [h]
    exact List.min?_mem (List.min?_cons' ..)
  obtain ⟨c, hc, hsent⟩ := List.mem_map.mp hmin
  exact List.ne_nil_of_mem (List.mem_filter.mpr ⟨hc, by simpa [hsent] using hnow⟩)

theorem pauseRefresh_completes (ha : portActive s p.val = true) (hf : farEnd s p.val = false) (hm : flowMode s p.val ≠ 0)
    (hk : ∃ k ∈ usedClasses s p.val, bit (macPort s p.val).xoff k = true ∧ (tabFind (macPort s p.val).sentAt k).isSome = true) :
    Completes (.pauseRefresh p) s fun t => (∃ f, t.out = .transmit p.val f false :: s.out) ∧ (macPort t p.val).xoff = (macPort s p.val).xoff := by
  obtain ⟨k, hused, hbit, hsent⟩ := hk
  have hon : k ∈ (usedClasses s p.val).filter fun c => bit (macPort s p.val).xoff c && (tabFind (macPort s p.val).sentAt c).isSome :=
    List.mem_filter.mpr ⟨hused, by rw [hbit, hsent]; rfl⟩
  change ∃ t, execPauseRefresh p s = .next t ∧ _
  unfold execPauseRefresh
  dsimp only
  split
  · next hnil => exact absurd (List.map_eq_nil_iff.mp hnil) (List.ne_nil_of_mem hon)
  · next t ts hcons =>
    refine ⟨_, rfl, ?_, ?_⟩
    · exact sendQuanta_sends _ (mt List.map_eq_nil_iff.mp (refresh_due hcons (le_reach_now _ s))) hm ha hf
    · exact sendFlow_port MacPort.xoff (fun _ _ => rfl) _

end

/-! ### Received pauses that end (R115, R116) -/

section

variable {p : Port} {c : Fin 8} {s : State} {a b : Nat}

/-- A pause in progress ends: neither its timer nor its start stands. -/
theorem endPause_clears {since : Nat} (h : tabFind (macPort s p.val).pausedSince c.val = some since) (n : Nat) :
    tabFind (macPort (endPause p.val c.val n s) p.val).timers c.val = none ∧
    tabFind (macPort (endPause p.val c.val n s) p.val).pausedSince c.val = none := by
  obtain ⟨rest, hrest⟩ := macPort_endPause h n
  rw [hrest]
  exact ⟨tabFind_del _ _, tabFind_del _ _⟩

theorem pauseTimerExpiry_completes (ht : tabFind (macPort s p.val).timers c.val = some a)
    (hs : (tabFind (macPort s p.val).pausedSince c.val).isSome = true) : Completes (.pauseTimerExpiry p c) s fun t =>
      tabFind (macPort t p.val).timers c.val = none ∧ tabFind (macPort t p.val).pausedSince c.val = none ∧ a ≤ t.now := by
  obtain ⟨since, hsince⟩ := Option.isSome_iff_exists.mp hs
  have hexec : exec (.pauseTimerExpiry p c) s = .next (endPause p.val c.val a (reach a s)) := by
    change execPauseTimerExpiry p c s = _
    simp only [execPauseTimerExpiry, ht]
  obtain ⟨htimer, hstart⟩ := endPause_clears (s := reach a s) hsince a
  exact ⟨_, hexec, htimer, hstart, (now_of_unpaused (unpaused_endPause (p := p.val) a)).symm ▸ le_reach_now a s⟩

/-- A storm ends the class's pause and starts its recovery; the timer is cleared at once (the model's choice, assumption 35). -/
theorem pauseStorm_completes (hs : tabFind (macPort s p.val).pausedSince c.val = some a) (ht : tabFind (macPort s p.val).timers c.val = some b)
    (hon : u16 (portFlow s p.val) 6 ≠ 0) (hlong : a + u16 (portFlow s p.val) 6 * tMs ≤ b) : Completes (.pauseStorm p c) s fun t =>
      tabFind (macPort t p.val).recoverAt c.val = some (t.now + u16 (portFlow s p.val) 8 * tMs) ∧
      tabFind (macPort t p.val).timers c.val = none ∧ a + u16 (portFlow s p.val) 6 * tMs ≤ t.now ∧ logged 0x0402 t := by
  have hguard : ¬ (u16 (portFlow s p.val) 6 == 0 || b < a + u16 (portFlow s p.val) 6 * tMs) = true := by
    simp [hon, hlong]
  change ∃ t, execPauseStorm p c s = .next t ∧ _
  unfold execPauseStorm
  dsimp only
  rw [hs, ht]
  dsimp only
  rw [if_neg hguard]
  obtain ⟨htimer, -⟩ := endPause_clears (s := reach (a + u16 (portFlow s p.val) 6 * tMs) s) hs (reach (a + u16 (portFlow s p.val) 6 * tMs) s).now
  have hnow := now_of_unpaused (unpaused_endPause (p := p.val) (c := c.val) (s := reach (a + u16 (portFlow s p.val) 6 * tMs) s)
    (reach (a + u16 (portFlow s p.val) 6 * tMs) s).now)
  refine ⟨_, rfl, ?_, ?_, ?_, kiln_head _ _ _⟩
  · rw [macPort_of_mac ((kiln_mac _ _ _).trans (count_mac _ _ _ _)), macPort_setMacPort, kiln_now, count_now]
    exact (tabFind_put _ _ _).trans (congrArg (fun n => some (n + u16 (portFlow s p.val) 8 * tMs)) hnow.symm)
  · rw [macPort_of_mac ((kiln_mac _ _ _).trans (count_mac _ _ _ _)), macPort_setMacPort]
    exact htimer
  · rw [kiln_now, count_now]
    exact (le_reach_now _ s).trans_eq hnow.symm

theorem stormRecovered_completes (h : tabFind (macPort s p.val).recoverAt c.val = some a) : Completes (.stormRecovered p c) s fun t =>
    tabFind (macPort t p.val).recoverAt c.val = none ∧ a ≤ t.now ∧ logged 0x0403 t := by
  change ∃ t, execStormRecovered p c s = .next t ∧ _
  unfold execStormRecovered
  rw [h]
  refine ⟨_, rfl, ?_, ?_, kiln_head _ _ _⟩
  · rw [macPort_of_mac (kiln_mac _ _ _), macPort_setMacPort]
    exact tabFind_del _ _
  · rw [kiln_now]
    exact le_reach_now a s

end

/-! ### Preemption (R119) -/

section

variable {p : Port} {s : State} (h : (macPort s p.val).preemptPhase = .verifying)
include h

theorem exec_preemptVerifyTimer : exec (.preemptVerifyTimer p) s = .next (if (macPort s p.val).verifyTries < 3
    then sendVerify p.val (reach ((macPort s p.val).verifyAt + u8 (portPreempt s p.val) 5 * tMs) s)
    else kiln 0x0404 [(2, p.val), (1, 3)] (setMacPort p.val { macPort s p.val with preemptPhase := .failed }
      (reach ((macPort s p.val).verifyAt + u8 (portPreempt s p.val) 5 * tMs) s))) := if_pos (by rw [h]; rfl)

theorem preemptVerifyTimer_retries (hn : (macPort s p.val).verifyTries < 3) : Completes (.preemptVerifyTimer p) s fun t =>
    t.out = .verify p.val :: s.out ∧ (macPort t p.val).verifyTries = (macPort s p.val).verifyTries + 1 ∧
    (macPort t p.val).preemptPhase = .verifying ∧ (macPort s p.val).verifyAt + u8 (portPreempt s p.val) 5 * tMs ≤ t.now := by
  have hport : ∀ u, macPort (sendVerify p.val u) p.val =
      { macPort u p.val with preemptPhase := .verifying, verifyTries := (macPort u p.val).verifyTries + 1, verifyAt := u.now } := fun u => by
    rw [sendVerify, macPort_of_mac (emit_mac _ _), macPort_setMacPort]
  refine ⟨_, (exec_preemptVerifyTimer h).trans (congrArg _ (if_pos hn)), rfl, ?_, ?_, le_reach_now _ s⟩
  · rw [hport]
    rfl
  · rw [hport]

theorem preemptVerifyTimer_fails (hn : 3 ≤ (macPort s p.val).verifyTries) : Completes (.preemptVerifyTimer p) s fun t =>
    t.out = s.out ∧ (macPort t p.val).preemptPhase = .failed ∧ logged 0x0404 t := by
  refine ⟨_, (exec_preemptVerifyTimer h).trans (congrArg _ (if_neg (Nat.not_lt_of_le hn))), kiln_out _ _ _, ?_, kiln_head _ _ _⟩
  rw [macPort_of_mac (kiln_mac _ _ _), macPort_setMacPort]

theorem preemptVerify_completes : Completes (.preemptVerify p) s fun t => (macPort t p.val).preemptPhase = .active ∧ logged 0x0404 t := by
  refine ⟨_, if_pos (by rw [h]; rfl), ?_, kiln_head _ _ _⟩
  rw [macPort_of_mac (kiln_mac _ _ _), macPort_setMacPort]

end

end Sys2Proof.Proofs
end

section
/-!
PROOFS. Flow control, preemption and MAC faults (O18): what a detection leaves, the faults of R122, and the statement.
-/

namespace Sys2Proof.Proofs

open Sys2Proof Sys2Proof.Machine Sys2Proof.Laws

section

variable (b k i : Nat) (contain : Bool → State → State) (s : State)

/-- A detection raises last, after what contains it. -/
theorem raisedLast_detect : raisedLast b k i (detect b k i contain s) := by
  obtain ⟨r, hr, hsite⟩ := raiseFault_inFlight b k i false (contain (injectedNow s b k i) s)
  exact ⟨r, (congrArg List.getLast? hr).trans List.getLast?_concat, hsite⟩

@[simp] theorem detect_mac : (detect b k i contain s).mac = (contain (injectedNow s b k i) s).mac := raiseFault_mac _ _ _ _ _

@[simp] theorem detect_fr : (detect b k i contain s).fr = (contain (injectedNow s b k i) s).fr := raiseFault_fr _ _ _ _ _

end

section

variable {g : Pipe} {p : Port} {u : Nat} {s : State}

theorem macFifo_completes (hu : u ∈ framesAt s g.val .fifo) (hs : (frameOf s u).source = 0) : Completes (.macFifo g u) s fun t =>
    tabFind t.fr.frames u = none ∧ (∀ d ∈ t.fr.deliveries, d.frame ≠ u) ∧ raisedLast 6 5 g.val t := by
  have hguard : ((framesAt s g.val .fifo).contains u && (frameOf s u).source == 0) = true := by simp [hu, hs]
  refine ⟨_, if_pos hguard, ?_, fun d hd => ?_, raisedLast_detect _ _ _ _ _⟩
  · rw [detect_fr]
    exact tabFind_del _ _
  · rw [detect_fr] at hd
    exact bne_iff_ne.mp (List.mem_filter.mp hd).2

/-- A bad store is reloaded; the event is logged at its detection (the model's choice, assumption 38). -/
theorem macStore_completes : Completes (.macStore g) s fun t =>
    (macPipe t g.val).reloading = true ∧ raised 7 5 g.val s t ∧ logged 0x0406 t := by
  refine ⟨_, rfl, ?_, raised_detect (fun inj => ?_) _ _ _, ?_⟩
  · rw [macPipe_of_mac ((detect_mac _ _ _ _ _).trans (kilnInj_mac _ _ _ _)), macPipe_setMacPipe]
  · rw [kilnInj_flt_inFlight]
    rfl
  · rw [logged, detect_kiln]
    exact kilnInj_head _ _ _ _

theorem macReload_completes : Completes (.macReload g) s fun t =>
    (macPipe t g.val).reloading = false ∧ (macPipe t g.val).filters = (macPipe s g.val).filters := by
  refine ⟨_, rfl, ?_⟩
  beta_reduce
  rw [macPipe_setMacPipe]
  exact ⟨rfl, rfl⟩

theorem pcsCheck_completes (hc : configured s p.val = true) : Completes (.pcsCheck p) s fun t =>
    (macPort t p.val).rx = none ∧ (macPort t p.val).assembled = none ∧ raisedLast 8 4 p.val t := by
  have hguard : ¬ (!configured s p.val) = true := by simp [hc]
  obtain ⟨hrx, hassembled⟩ := macPort_cutReceived p.val s
  refine ⟨_, if_neg hguard, ?_, ?_, raisedLast_detect _ _ _ _ _⟩
  · rwa [macPort_of_mac (detect_mac _ _ _ _ _)]
  · rwa [macPort_of_mac (detect_mac _ _ _ _ _)]

theorem macFlow_completes (hc : configured s p.val = true) : Completes (.macFlow p) s fun t =>
    (macPort t p.val).heldXoff = true ∧ (∀ c ∈ usedClasses s p.val, bit (macPort t p.val).xoff c = true) ∧ raised 9 4 p.val s t := by
  have hguard : ¬ (!configured s p.val) = true := by simp [hc]
  refine ⟨_, if_neg hguard, ?_, fun c hc => ?_, raised_detect (fun _ => ?_) _ _ _⟩
  · rw [macPort_of_mac (detect_mac _ _ _ _ _)]
    rw [sendFlow_port MacPort.heldXoff fun _ _ => rfl, macPort_setMacPort]
  · rw [macPort_of_mac (detect_mac _ _ _ _ _)]
    rw [sendFlow_port MacPort.xoff fun _ _ => rfl, macPort_setMacPort]
    exact bit_foldl_set hc _
  · rw [(keeps_sendFlow _ _ _ _ _).same .flt rfl]
    rfl

theorem flowResync_completes (h : (macPort s p.val).heldXoff = true) : Completes (.flowResync p) s fun t =>
    (macPort t p.val).heldXoff = false ∧ (∀ k, k < 32 → tabGet 0 (macPort t p.val).occupancy k = trueOccupancy s (k / 8) p.val (k % 8)) ∧
    logged 0x0407 t := by
  have hguard : ¬ (!(macPort s p.val).heldXoff) = true := by simp [h]
  refine ⟨_, if_neg hguard, ?_, fun k hk => ?_, ?_⟩
  · rw [compareFlow_port MacPort.heldXoff fun _ _ _ => rfl, macPort_of_mac (kiln_mac _ _ _), macPort_setMacPort]
  · rw [compareFlow_port MacPort.occupancy fun _ _ _ => rfl, macPort_of_mac (kiln_mac _ _ _), macPort_setMacPort]
    exact tabGet_foldl_set (d := 0) (key := fun k => k) (fun _ _ e => e) (fun k => trueOccupancy s (k / 8) p.val (k % 8)) (List.mem_range.mpr hk) _
  · rw [logged, (keeps_compareFlow _ _).same .flt rfl]
    exact kiln_head _ _ _

end

/-- Settles O18: a lemma for each instruction. PAUSE_STORM's cleared timer and MAC_STORE's event at detection are the model's choices
(assumptions 35 and 38). -/
theorem flowControlPreemptionAndFaults : Obligations.FlowControlPreemptionAndFaults :=
  ⟨fun _ _ _ _ => ⟨occupancyReport_completes, pauseRefresh_completes, fun _ => pauseTimerExpiry_completes, fun _ _ => pauseStorm_completes,
      fun _ => stormRecovered_completes⟩,
    fun _ _ h => ⟨preemptVerifyTimer_retries h, preemptVerifyTimer_fails h, preemptVerify_completes h⟩,
    fun _ _ _ _ => ⟨macFifo_completes, macStore_completes, macReload_completes, pcsCheck_completes, macFlow_completes, flowResync_completes⟩⟩

end Sys2Proof.Proofs
end

section
/-!
PROOFS. Rules of a port's scheduler: its transmitter, what operations on copies leave of it, and the counters they count (R318, R329, R351).
-/

namespace Sys2Proof.Proofs

open Sys2Proof Sys2Proof.Machine Sys2Proof.Laws

/-! ### The transmitter -/

/-- What port `p` transmits, and what was cut off to let it. -/
def transmitters (p : Nat) (s : State) : Option Tx × Option Tx := ((portSched s p).tx, (portSched s p).preempted)

section

variable {p c : Nat} {s t : State}

theorem transmitters_of_sch (h : t.sch = s.sch) (p : Nat) : transmitters p t = transmitters p s := by
  rw [transmitters, portSched, h, transmitters, portSched]

@[simp] theorem portSched_modPortSched (p : Nat) (f : PortSched → PortSched) (s : State) :
    portSched (modPortSched p f s) p = f (portSched s p) := tabGet_mod _ _ _ _

theorem portSched_modPortSched_ne {q : Nat} (h : p ≠ q) (f : PortSched → PortSched) (s : State) :
    portSched (modPortSched q f s) p = portSched s p := tabGet_mod_ne _ _ _ h

/-- A change of a scheduler that leaves its transmitter alone leaves every port's. -/
theorem transmitters_modPortSched {f : PortSched → PortSched} (h : ∀ v, ((f v).tx, (f v).preempted) = (v.tx, v.preempted)) (q : Nat) :
    transmitters p (modPortSched q f s) = transmitters p s := by
  unfold transmitters
  by_cases hq : p = q
  · rw [hq, portSched_modPortSched]
    exact h _
  · rw [portSched_modPortSched_ne hq]

/-- The copy in transmission leaves the transmitter. -/
theorem transmitters_clearTx {a : Tx} (h : (portSched s p).tx = some a) :
    transmitters p (clearTx p a.copy s) = (none, (portSched s p).preempted) := by
  simp [transmitters, clearTx, h]

end

/-! ### What is left alone -/

/-- From `s` to `t` every port's transmitter stands, and every counter apart from those of `l`. -/
structure Undisturbed (l : List Counter) (s t : State) : Prop where
  tx : ∀ p, transmitters p t = transmitters p s
  counts : Counts l s t

section

variable {l m : List Counter} {c : Counter} {x n : Nat} {s t u : State}

theorem Undisturbed.refl : Undisturbed l s s := ⟨fun _ => rfl, Counts.refl⟩

/-- An operation that counts some of `l`, after others. -/
theorem Undisturbed.after (k : Undisturbed m t u) (h : Undisturbed l s t) (hl : ∀ d ∈ m, d ∈ l := by decide) : Undisturbed l s u :=
  ⟨fun p => (k.tx p).trans (h.tx p), k.counts.after h.counts hl⟩

theorem Undisturbed.trans (h : Undisturbed l s t) (k : Undisturbed l t u) : Undisturbed l s u := k.after h fun _ => id

/-- An operation that counts and leaves schedulers alone. -/
theorem Counts.undisturbed {ps : List Part} (h : Counts l s t) (k : Keeps ps s t) (hp : ps.contains .sch = false := by rfl) :
    Undisturbed l s t := ⟨transmitters_of_sch (k.same .sch hp), h⟩

/-- An operation that leaves schedulers and counters alone. -/
theorem undisturbed_of_keeps {ps : List Part} (k : Keeps ps s t) (hs : ps.contains .sch = false := by rfl)
    (ht : ps.contains .tel = false := by rfl) : Undisturbed [] s t := (counts_of_keeps k ht).undisturbed k hs

theorem Undisturbed.foldl {α : Type} {op : State → α → State} (h : ∀ s a, Undisturbed l s (op s a)) (as : List α) (s : State) :
    Undisturbed l s (as.foldl op s) :=
  ⟨fun p => foldl_keeps (transmitters p) fun s a _ => (h s a).tx p, Counts.foldl (fun s a => (h s a).counts) as s⟩

theorem undisturbed_count (hc : c ∈ l) : Undisturbed l s (count c x n s) := (Counts.refl.count hc).undisturbed (keeps_count _ _ _ _)

theorem undisturbed_modPortSched {f : PortSched → PortSched} (q : Nat)
    (h : ∀ v, ((f v).tx, (f v).preempted) = (v.tx, v.preempted) := by exact fun _ => rfl) : Undisturbed l s (modPortSched q f s) :=
  ⟨fun _ => transmitters_modPortSched h q, counts_of_tel rfl⟩

end

/-! ### Scheduling -/

/-- Scheduling: the buffers stand too. -/
structure Scheduled (l : List Counter) (s t : State) : Prop extends Undisturbed l s t where
  buf : t.buf = s.buf

section

variable {l m : List Counter} {s t u : State}

theorem Scheduled.refl : Scheduled l s s := ⟨Undisturbed.refl, rfl⟩

theorem Scheduled.after (k : Scheduled m t u) (h : Scheduled l s t) (hl : ∀ d ∈ m, d ∈ l := by decide) : Scheduled l s u :=
  ⟨k.toUndisturbed.after h.toUndisturbed hl, k.buf.trans h.buf⟩

theorem scheduled_modPortSched {f : PortSched → PortSched} (q : Nat)
    (h : ∀ v, ((f v).tx, (f v).preempted) = (v.tx, v.preempted) := by exact fun _ => rfl) : Scheduled l s (modPortSched q f s) :=
  ⟨undisturbed_modPortSched q h, rfl⟩

theorem scheduled_count {c : Counter} {x n : Nat} (hc : c ∈ l) : Scheduled l s (count c x n s) := ⟨undisturbed_count hc, count_buf _ _ _ _⟩

end

section

variable (p k c len : Nat) (leaf : Option Nat) (s : State)

theorem switchSched_scheduled : Scheduled [] s (switchSched p s) := by
  unfold switchSched
  split
  · exact Scheduled.refl
  · exact scheduled_modPortSched p

theorem noteEmpty_scheduled : Scheduled [] s (noteEmpty p k leaf s) := by
  have hchild : ∀ (n i : Nat) (b : Bool) (t : State), Scheduled [] t (if b then modPortSched p (childEmpty n i) t else t) := fun n i b t => by
    split
    · exact scheduled_modPortSched p
    · exact Scheduled.refl
  have hleaf : ∀ (n i : Nat) (b : Bool) (t : State), Scheduled [] t (if b then t else modPortSched p (childEmpty n i) t) := fun n i b t => by
    split
    · exact Scheduled.refl
    · exact scheduled_modPortSched p
  unfold noteEmpty
  dsimp only
  cases leaf with
  | none => exact hchild _ _ _ s
  | some i => exact (hchild _ _ _ _).after (hleaf _ _ _ s)

theorem chargeShapers_scheduled : Scheduled [] s (chargeShapers p k c len s) := by
  have hcharge : ∀ (t : State) (i : Nat), Scheduled [] t (match shaperOf t p i with
      | none => t
      | some o => modPortSched p (fun v => { v with buckets := tabUpd i (· - shaperCharge o len) v.buckets }) t) := fun t i => by
    split
    · exact Scheduled.refl
    · exact scheduled_modPortSched p
  exact ⟨Undisturbed.foldl (fun t i => (hcharge t i).toUndisturbed) _ s, foldl_keeps State.buf fun t i _ => (hcharge t i).buf⟩

theorem setNode_scheduled (n : SchedNode) : Scheduled [] s (setNode p k n s) := scheduled_modPortSched p

theorem chargeBuckets_undisturbed (old : Nat) : Undisturbed [] s (chargeBuckets p k c old len s) := by
  refine Undisturbed.foldl (fun t i => ?_) _ s
  split
  · exact Undisturbed.refl
  · exact undisturbed_modPortSched p

theorem correctCharges_undisturbed (x : Copy) : Undisturbed [cSchCorrections] s (correctCharges x len s) := by
  unfold correctCharges
  split
  · exact Undisturbed.refl
  · split
    · exact Undisturbed.refl
    · refine (undisturbed_count (by decide)).after ((undisturbed_modPortSched (l := []) _ fun v => ?_).after
        ((chargeBuckets_undisturbed _ _ _ _ _ _).after Undisturbed.refl)) fun _ => id
      dsimp only
      split <;> split <;> rfl

end

/-! ### Releasing copies (R280, R329) -/

section

variable (c : Nat) (s : State)

theorem modQueue_undisturbed (n : Nat) (f : BufQueue → BufQueue) : Undisturbed [] s (modQueue n f s) := undisturbed_of_keeps (keeps_modQueue _ _ _)

theorem unlinkCopy_undisturbed : Undisturbed [] s (unlinkCopy c s) :=
  (noteEmpty_scheduled _ _ _ _).toUndisturbed.after (modQueue_undisturbed s _ _)

theorem releaseCell_counts (b : Bool) (q : Nat) : Counts [cBufRelease] s (releaseCell b q s c) := by
  have hseen : Counts [cBufRelease] s (if b then count cBufRelease q 1 s else s) := by
    split
    · exact Counts.refl.count (by decide)
    · exact Counts.refl
  unfold releaseCell
  split
  · exact Counts.refl
  · split
    · exact counts_of_keeps (keeps_modQuad _ _ _)
    · dsimp only
      split
      · exact (counts_of_tel ((kiln_tel _ _ _).trans ((keeps_modQuad _ _ _).same .tel rfl))).after (m := []) hseen
      · exact (counts_of_keeps (keeps_modQuad _ _ _)).after (m := []) hseen

theorem releaseCopy_undisturbed : Undisturbed [cBufRelease] s (releaseCopy c s) := by
  have hcells : ∀ q (cs : List Nat) t, Undisturbed [cBufRelease] t (cs.foldl (releaseCell true q) t) := fun q =>
    Undisturbed.foldl fun t c => (releaseCell_counts c t true q).undisturbed (keeps_releaseCell _ _ _ _)
  have hslots : ∀ q (ks : List Nat) t, Undisturbed [] t (ks.foldl (releaseSlot q) t) := fun q =>
    Undisturbed.foldl fun t k => undisturbed_of_keeps (keeps_releaseSlot _ _ _)
  have hspill : ∀ q n t, Undisturbed [] t (endSpill q n t) := fun q n t => undisturbed_of_keeps (keeps_endSpill _ _ _)
  have hcopy : ∀ f t, Undisturbed [] t (modCopy c f t) := fun f t => undisturbed_of_keeps (keeps_modCopy _ _ _)
  have hgone : ∀ t, Undisturbed [] t (modBuf (fun b => { b with copies := tabDel c b.copies }) t) := fun t =>
    ⟨transmitters_of_sch rfl, counts_of_tel rfl⟩
  have hforget : ∀ u t, Undisturbed [] t (settleFrame u t) := fun u t => undisturbed_of_keeps (keeps_settleFrame _ _)
  unfold releaseCopy
  split
  · exact Undisturbed.refl
  · next x _ =>
    have hbefore := (hslots x.quad (copySlots x) _).after ((hcopy (fun y => { y with spill := none }) _).after (unlinkCopy_undisturbed c s))
    dsimp only
    split
    · exact (hforget _ _).after ((hspill _ _ _).after ((hcells _ _ _).after ((hgone _).after (hbefore.after Undisturbed.refl)) fun _ => id))
    · exact (hspill _ _ _).after ((hcopy _ _).after (hbefore.after Undisturbed.refl))

theorem dropCopyIn_undisturbed (q r : Nat) (x : Option Nat) (v : Frame) (i : CopyInfo) :
    Undisturbed (copyDropCounters r) s (dropCopyIn q r x v i s) := (dropCopyIn_counts q r v i s x).undisturbed (keeps_dropCopyIn _ _ _ _ _ _)

/-- A copy past its age limit is dropped with its reason, once, and no transmitter changes. -/
theorem ageOut_drops : (∀ p, transmitters p (ageOut c s) = transmitters p s) ∧
    counted cSwcAged (queueNo (copyAt s c).port (copyAt s c).queue) 1 s (ageOut c s) ∧
    counted (cSwcDrops 0x2C) (copyAt s c).quad 1 s (ageOut c s) := by
  have hquad : ∀ n, copyAt (count cSwcAged n 1 s) c = copyAt s c := fun _ => rfl
  have hcounted : ∀ n, counted cSwcAged n 1 s (count cSwcAged n 1 s) := fun n => counted_count _ _ _ _
  unfold ageOut dropCopy
  dsimp only
  rw [hquad]
  refine ⟨fun p => ?_, ?_, ?_⟩
  · rw [(releaseCopy_undisturbed _ _).tx, (dropCopyIn_undisturbed _ _ _ _ _ _).tx]
    exact transmitters_of_sch rfl p
  · exact counted_then_counts (counted_then_counts (hcounted _) (dropCopyIn_undisturbed _ _ _ _ _ _).counts) (releaseCopy_undisturbed _ _).counts
  · exact counted_then_counts (counts_then_counted (Counts.refl.count (l := [cSwcAged]) (by decide)) (dropCopyIn_counted _ _ _ _ _ _))
      (releaseCopy_undisturbed _ _).counts

end

end Sys2Proof.Proofs
end

section
/-!
PROOFS. Starting, serving and sending copies (R110, R318, R350, R351, R381, R388): what each leaves of the transmitters and which counters it
counts.
-/

namespace Sys2Proof.Proofs

open Sys2Proof Sys2Proof.Machine Sys2Proof.Laws

/-! ### A copy starts (R46, R50, R386) -/

/-- What starting a copy counts: IOAM edits and 1588 program errors. -/
def startCounters : List Counter := [cTelIoamInserted, cTelIoamOverflow, cTelIoamErrors, cTxPtpErrors]

theorem ioamEdits_counter {o b data : Bytes} {t len : Nat} {k : Counter} (h : (ioamEdits o b data t len).counter = some k) : k ∈ startCounters := by
  unfold ioamEdits at h
  dsimp only at h
  repeat' split at h
  all_goals
    cases h
    decide

theorem copyIoam_counter {s : State} {v : Frame} {x : Copy} {e : Stamp} {thr : Bool} {k : Counter}
    (h : (copyIoam s v x e thr).1.counter = some k) : k ∈ startCounters := by
  unfold copyIoam at h
  split at h
  · cases h
  · split at h
    · cases h
    · exact ioamEdits_counter h

theorem copyPtp_scheduled (p : Nat) (v : Frame) (b : Bytes) (t n : Nat) (resid : Int) (e : Stamp) (s : State) :
    Scheduled startCounters s (copyPtp p v b t n resid e s).2 := by
  have hcases : ∀ (b₁ b₂ b₃ : Bool) (r : Bytes) (w : List (Nat × Bytes)), Counts startCounters s
      (if b₁ then (([], s) : List (Nat × Bytes) × State) else if b₂ then ([], captureTwoStep p r s)
        else if b₃ then ([], count cTxPtpErrors p 1 s) else (w, s)).2 := by
    intro b₁ b₂ b₃ r w
    split
    · exact Counts.refl
    · split
      · exact counts_of_keeps (keeps_captureTwoStep _ _ _)
      · split
        · exact Counts.refl.count (by decide)
        · exact Counts.refl
  have hcounts : Counts startCounters s (copyPtp p v b t n resid e s).2 := hcases _ _ _ _ _
  exact ⟨hcounts.undisturbed (keeps_copyPtp _ _ _ _ _ _ _ _), (keeps_copyPtp _ _ _ _ _ _ _ _).same .buf rfl⟩

/-- A copy that starts takes its port's transmitter; its edits count before. -/
theorem startCopy_eq (c ahead : Nat) (err : Int) (s : State) : ∃ y t, y.copy = c ∧ Scheduled startCounters s t ∧
    startCopy c ahead err s = modPortSched (copyAt s c).port (fun v => { v with tx := some y }) t := by
  have hcounter : ∀ k : Option Counter, (∀ j, k = some j → j ∈ startCounters) → Scheduled startCounters s (match k with
      | some k => count k (copyAt s c).quad 1 s
      | none => s) := fun k hk => by
    split
    · exact scheduled_count (hk _ rfl)
    · exact Scheduled.refl
  unfold startCopy
  dsimp only
  split
  · refine ⟨_, _, ?_, ?_, rfl⟩
    · rfl
    · exact (copyPtp_scheduled _ _ _ _ _ _ _ _).after (hcounter _ fun _ => copyIoam_counter) fun _ => id
  · refine ⟨_, _, ?_, ?_, rfl⟩
    · rfl
    · exact hcounter _ fun _ => copyIoam_counter

/-! ### A copy is served (R351) -/

/-- What serving a copy counts beside the frame of its queue. -/
def serveCounters : List Counter := cSwcCutThrough :: cLeafFrames :: startCounters

section

variable {id : Nat} {x : Copy} {s : State}

theorem copyAt_of_find (h : tabFind s.buf.copies id = some x) : copyAt s id = x := by rw [copyAt, h, Option.getD_some]

theorem copyAt_of_buf {t : State} (h : t.buf = s.buf) (c : Nat) : copyAt t c = copyAt s c := by rw [copyAt, h, copyAt]

theorem bufQueue_of_buf {t : State} (h : t.buf = s.buf) (n : Nat) : bufQueue t n = bufQueue s n := by rw [bufQueue, h, bufQueue]

theorem bufQueue_modQueue (n : Nat) (f : BufQueue → BufQueue) (s : State) : bufQueue (modQueue n f s) n = f (bufQueue s n) :=
  tabGet_mod _ _ _ _

theorem bufQueue_modCopy (c n : Nat) (f : Copy → Copy) (s : State) : bufQueue (modCopy c f s) n = bufQueue s n := rfl

/-- A copy changed, if there is one. -/
theorem copyAt_modCopy (h : tabFind s.buf.copies id = some x) (f : Copy → Copy) : copyAt (modCopy id f s) id = f x := by
  have hupd : ∀ m : Store Copy, tabFind m id = some x → tabFind (tabUpd id f m) id = some (f x) := fun m => by
    induction m with
    | nil => exact nofun
    | cons e m ih =>
      obtain ⟨i, y⟩ := e
      by_cases hi : (i == id) = true
      · rw [tabUpd, if_pos hi, tabFind, if_pos hi, tabFind, if_pos hi, Option.some_inj, Option.some_inj]
        exact congrArg f
      · rw [tabUpd, if_neg hi, tabFind, if_neg hi, tabFind, if_neg hi]
        exact ih
  exact copyAt_of_find (hupd _ h)

/-- Copy `id`, which was `x`, has left its queue and is charged: from `s` to `t` the frame is counted for queue `n`. -/
structure Served (id : Nat) (x : Copy) (n : Nat) (s t : State) : Prop where
  tx : ∀ p, transmitters p t = transmitters p s
  started : (copyAt t id).started = true
  port : (copyAt t id).port = x.port
  left : id ∉ (bufQueue t (queueNo x.port x.queue)).fifo
  frames : counted cSchFrames n 1 s t
  counts : Counts (cSchFrames :: serveCounters) s t

/-- Copy `id` out of its queue's order. -/
def dequeued (id : Nat) (x : Copy) (s : State) : State :=
  modQueue (queueNo x.port x.queue) (fun u => { u with fifo := u.fifo.filter (· != id) }) s

theorem served_of_scheduled {f : Copy → Copy} {n : Nat} {t₁ t₂ t₃ : State} (hx : tabFind s.buf.copies id = some x)
    (hf : (f x).started = true ∧ (f x).port = x.port) (h₁ : Scheduled [] (dequeued id x s) t₁)
    (h₂ : Scheduled [cSwcCutThrough] (modCopy id f t₁) t₂) (h₃ : Scheduled [cLeafFrames] (count cSchFrames n 1 t₂) t₃) :
    Served id x n s t₃ := by
  have hbuf : t₃.buf = (modCopy id f (dequeued id x s)).buf := by
    rw [h₃.buf, count_buf, h₂.buf]
    exact congrArg (fun b => { b with copies := tabUpd id f b.copies }) h₁.buf
  have hcopy : copyAt t₃ id = f x := (copyAt_of_buf hbuf id).trans (copyAt_modCopy hx f)
  have hdequeued : Undisturbed [] s (dequeued id x s) := modQueue_undisturbed _ _ _
  have hcopied : Undisturbed [] t₁ (modCopy id f t₁) := undisturbed_of_keeps (keeps_modCopy _ _ _)
  have hbefore : Undisturbed [cSwcCutThrough] s t₂ :=
    h₂.toUndisturbed.after (hcopied.after (h₁.toUndisturbed.after (hdequeued.after Undisturbed.refl)))
  refine ⟨fun p => ?_, ?_, ?_, ?_, ?_, ?_⟩
  · rw [h₃.tx, ← hbefore.tx]
    exact transmitters_of_sch rfl p
  · rw [hcopy, hf.1]
  · rw [hcopy, hf.2]
  · have hqueue : bufQueue t₃ (queueNo x.port x.queue) =
        { bufQueue s (queueNo x.port x.queue) with fifo := (bufQueue s (queueNo x.port x.queue)).fifo.filter (· != id) } :=
      (bufQueue_of_buf hbuf _).trans ((bufQueue_modCopy _ _ _ _).trans (bufQueue_modQueue _ _ _))
    rw [hqueue]
    simp
  · exact counted_then_counts (counts_then_counted hbefore.counts (counted_count _ _ _ _)) h₃.counts
  · exact h₃.counts.after (Counts.count (hbefore.counts.mono (by decide)) (by decide))

variable (p k c : Nat) (leaf : Option Nat) (ets : Option SchedNode) (node : SchedNode) (leafN : Option SchedNode) (ahead : Nat) (err : Int)

/-- A served copy starts, once it has left its queue and the nodes on its path are charged. -/
theorem serveCopy_eq (hx : tabFind s.buf.copies id = some x) :
    ∃ t, serveCopy p id c k leaf ets node leafN ahead err s = startCopy id ahead err t ∧ Served id x (queueNo p k) s t := by
  have hets : ∀ (e : Option SchedNode) (f : SchedNode → SchedNode) t, Scheduled [] t (match e with
      | some n => setNode p 0 (f n) t
      | none => t) := fun e f t => by
    split
    · exact setNode_scheduled _ _ _ _
    · exact Scheduled.refl
  have hleafN : ∀ (a : Option SchedNode) (b : Option Nat) (e : Option Bytes) (f : SchedNode → Nat → Bytes → SchedNode) t,
      Scheduled [] t (match a, b, e with
        | some n, some l, some o => setNode p (leafNode k) (f n l o) t
        | _, _, _ => t) := fun a b e f t => by
    split
    · exact setNode_scheduled _ _ _ _
    · exact Scheduled.refl
  have hleaf : ∀ (b : Option Nat) (e : Option Bytes) (f : Nat → Bytes → Nat) t, Scheduled [cLeafFrames] t (match b, e with
      | some l, some o => count cLeafFrames (f l o) 1 t
      | _, _ => t) := fun b e f t => by
    split
    · exact scheduled_count (by decide)
    · exact Scheduled.refl
  have hcut : ∀ (b : Bool) t, Scheduled [cSwcCutThrough] t (if b then t else count cSwcCutThrough p 1 t) := fun b t => by
    split
    · exact Scheduled.refl
    · exact scheduled_count (by decide)
  have hunlinked : Scheduled [] (dequeued id x s) (unlinkCopy id s) := by
    unfold unlinkCopy
    rw [copyAt_of_find hx]
    exact noteEmpty_scheduled _ _ _ _
  refine ⟨_, rfl, served_of_scheduled hx ?_ ?_ (hcut _ _) (hleaf _ _ (fun l o => 16384 * (copyAt s id).quad + firstLeaf o + l) _)⟩
  · exact ⟨rfl, rfl⟩
  · exact (hleafN _ _ _ _ _).after ((hets _ _ _).after ((setNode_scheduled _ _ _ _).after ((chargeShapers_scheduled _ _ _ _ _).after hunlinked)))

/-- What a served copy leaves: its port transmits it, its queue holds it no longer, and its frame is counted. -/
theorem serveCopy_serves (hx : tabFind s.buf.copies id = some x) (hp : x.port = p) :
    let t := serveCopy p id c k leaf ets node leafN ahead err s
    ((∃ y, (portSched t p).tx = some y ∧ y.copy = id) ∧ (portSched t p).preempted = (portSched s p).preempted) ∧
    (copyAt t id).started = true ∧ id ∉ (bufQueue t (queueNo x.port x.queue)).fifo ∧ counted cSchFrames (queueNo p k) 1 s t ∧
    Counts (cSchFrames :: serveCounters) s t := by
  obtain ⟨t, hserve, hserved⟩ := serveCopy_eq p k c leaf ets node leafN ahead err hx
  obtain ⟨y, u, hy, hu, hstart⟩ := startCopy_eq id ahead err t
  have hpreempted : (portSched u p).preempted = (portSched s p).preempted := congrArg Prod.snd ((hu.tx p).trans (hserved.tx p))
  have hbuf : (modPortSched p (fun v => { v with tx := some y }) u).buf = t.buf := hu.buf
  rw [hserve, hstart, hserved.port, hp]
  dsimp only
  rw [portSched_modPortSched, copyAt_of_buf hbuf, bufQueue_of_buf hbuf]
  refine ⟨⟨⟨y, rfl, hy⟩, hpreempted⟩, hserved.started, hp ▸ hserved.left, ?_, ?_⟩
  · exact counted_then_same (counted_then_counts hserved.frames hu.counts) rfl
  · exact (counts_of_tel rfl).after (m := []) (hu.counts.after hserved.counts)

end

end Sys2Proof.Proofs
end

section
/-!
PROOFS. Copies that leave (R110, R318, R381, R388): sent bytes, postcards, and the stomped copy.
-/

namespace Sys2Proof.Proofs

open Sys2Proof Sys2Proof.Machine Sys2Proof.Laws

/-- What was sent stays sent. -/
theorem sent_of_keeps {ps : List Part} {e : Emission} {s t : State} (k : Keeps ps s t) (h : e ∈ s.out) : e ∈ t.out := k.seen.subset h

/-! ### Sent bytes and postcards -/

/-- What sending a copy counts beside its frame. -/
def sentCounters : List Counter := [cTxBytes, cSchBytes, cLeafBytes]

section

variable (x : Copy) (n : Nat) (s : State)

theorem countSent_eq : ∃ t, Undisturbed [] s t ∧ Undisturbed sentCounters (count cTxFrames x.port 1 t) (countSent x n s) := by
  have hspent : Undisturbed [] s (spendQueue (queueNo x.port x.queue) 2 7 n (spendQueue (queueNo x.port x.queue) 0 6 ((n + 255) / 256) s)) :=
    (undisturbed_of_keeps (keeps_spendQueue _ _ _ _ _)).after (undisturbed_of_keeps (keeps_spendQueue _ _ _ _ _))
  have hbytes : ∀ t, Undisturbed sentCounters t (count cSchBytes (queueNo x.port x.queue) n (count cTxBytes x.port n t)) := fun t =>
    (undisturbed_count (by decide)).trans (undisturbed_count (by decide))
  unfold countSent
  refine ⟨_, hspent, ?_⟩
  dsimp only
  split
  · exact (hbytes _).trans (undisturbed_count (by decide))
  · exact hbytes _

theorem countSent_undisturbed : Undisturbed (cTxFrames :: sentCounters) s (countSent x n s) := by
  obtain ⟨t, ht, hsent⟩ := countSent_eq x n s
  exact hsent.after ((undisturbed_count (l := [cTxFrames]) (by decide)).after (ht.after Undisturbed.refl))

theorem countSent_counted : counted cTxFrames x.port 1 s (countSent x n s) := by
  obtain ⟨t, ht, hsent⟩ := countSent_eq x n s
  exact counted_then_counts (counts_then_counted ht.counts (counted_count _ _ _ _)) hsent.counts

theorem histCount_undisturbed (d : Int) : Undisturbed [] s (histCount n d s) :=
  Counts.undisturbed (counts_of_counters rfl) (keeps_histCount n d s)

end

/-- What a postcard counts. -/
def postcardCounters : List Counter := cTelUnrouted :: cTelSuppressed :: cTelPostcards :: exportCounters

theorem postcard_undisturbed (x : Copy) (a : Tx) (s : State) : Undisturbed postcardCounters s (postcard x a s) := by
  have hnumber : ∀ f : Store Nat → Store Nat,
      Counts postcardCounters s (modTel (fun y => { y with postcardCount := f y.postcardCount }) s) := fun _ => counts_of_counters rfl
  have hlimit : ∀ e t, Counts [] t (takeLimit .postcard e t).2 := fun e t => counts_of_keeps (keeps_takeLimit _ _ _)
  refine Counts.undisturbed ?_ (keeps_postcard _ _ _)
  unfold postcard
  dsimp only
  split
  · exact Counts.refl
  · split
    · exact Counts.refl
    · split
      · exact hnumber fun m => tabPut _ _ m
      · split
        · exact Counts.count (hnumber fun m => tabPut _ _ m) (by decide)
        · split
          · exact Counts.count ((hlimit _ _).after (hnumber fun m => tabPut _ _ m)) (by decide)
          · exact (makeRecord_counts _ _ _ _).after (Counts.count ((hlimit _ _).after (hnumber fun m => tabPut _ _ m)) (by decide))

/-! ### The stomped copy (R318, R319) -/

section

variable {p : Nat} {a : Tx} {x : Copy} {s : State} (htx : (portSched s p).tx = some a)
include htx

theorem txOf_of_tx : txOf s p a.copy = some a := by
  unfold txOf
  rw [htx]
  cases (portSched s p).preempted with
  | none => exact if_pos (beq_self_eq_true _)
  | some r => exact if_pos (beq_self_eq_true _)

theorem tx_clearTx {t : State} (h : transmitters p t = transmitters p s) : (portSched (clearTx p a.copy t) p).tx = none :=
  congrArg Prod.fst (transmitters_clearTx ((congrArg Prod.fst h).trans htx))

/-- The end of a stomped copy's bytes, as they leave. -/
def stompedBytes (n : Nat) (a : Tx) (x : Copy) (s : State) : Emission :=
  .transmit x.port ((txBody (frameOf s x.frame) x a).take n ++ badFcs ((txBody (frameOf s x.frame) x a).take n)) true

/-- A copy to be stomped, its inverted FCS sent and counted. -/
def stompSent (n : Nat) (a : Tx) (x : Copy) (s : State) : State :=
  count cSwcStomped x.port 1 (count cTxStomped x.port 1 (emit (stompedBytes n a x s) s))

variable (hp : x.port = p) (hx : tabFind s.buf.copies a.copy = some x)
include hp hx

/-- After its bytes a stomped copy is dropped and leaves the transmitter, its charges corrected. -/
theorem stompCopy_eq (n r detail : Nat) : ∃ m len i, stompCopy a.copy n r detail s =
      clearTx p a.copy (releaseCopy a.copy (correctCharges x len (dropCopyIn x.quad r x.exporter (frameOf s x.frame) i m))) ∧
    Undisturbed (cTxFrames :: sentCounters) (stompSent n a x s) m ∧ stompedBytes n a x s ∈ m.out := by
  have hkiln : ∀ fs t, Undisturbed [] t (kilnOnce 0x090B x.quad fs t) := fun _ _ => undisturbed_of_keeps (keeps_kilnOnce _ _ _ _)
  have hcounted : ∀ len t, Undisturbed (cTxFrames :: sentCounters) t (histCount (queueNo x.port x.queue) (frameLatency (frameOf s x.frame) a.egress)
      (countSent x len t)) := fun len t => (histCount_undisturbed _ _ _).after (countSent_undisturbed x len t)
  subst hp
  unfold stompCopy
  dsimp only
  rw [copyAt_of_find hx, txOf_of_tx htx]
  refine ⟨_, _, _, rfl, (hkiln _ _).after (hcounted _ _), ?_⟩
  exact sent_of_keeps (keeps_kilnOnce _ _ _ _) (sent_of_keeps (keeps_histCount _ _ _) (sent_of_keeps (keeps_countSent _ _ _) List.mem_cons_self))

/-- A stomped copy: an inverted FCS ends what was sent, and the copy is counted, dropped and no longer transmitted. -/
theorem stompCopy_stomps (n detail : Nat) :
    (portSched (stompCopy a.copy n 0x2E detail s) p).tx = none ∧ stompedBytes n a x s ∈ (stompCopy a.copy n 0x2E detail s).out ∧
    counted cSwcStomped p 1 s (stompCopy a.copy n 0x2E detail s) ∧ counted (cSwcDrops 0x2E) x.quad 1 s (stompCopy a.copy n 0x2E detail s) := by
  obtain ⟨m, len, i, hstomp, hm, hsent⟩ := stompCopy_eq htx hp hx n 0x2E detail
  have hdrop := dropCopyIn_undisturbed m x.quad 0x2E x.exporter (frameOf s x.frame) i
  have hends : ∀ t, Undisturbed [cSchCorrections, cBufRelease] t (releaseCopy a.copy (correctCharges x len t)) := fun t =>
    (releaseCopy_undisturbed _ _).after ((correctCharges_undisturbed _ _ _).after Undisturbed.refl)
  rw [hstomp]
  refine ⟨?_, ?_, ?_, ?_⟩
  · refine tx_clearTx htx ?_
    rw [(hends _).tx, hdrop.tx, hm.tx]
    exact transmitters_of_sch rfl p
  · exact sent_of_keeps (keeps_clearTx _ _ _) (sent_of_keeps (keeps_releaseCopy _ _) (sent_of_keeps (keeps_correctCharges _ _ _)
      (sent_of_keeps (keeps_dropCopyIn _ _ _ _ _ _) hsent)))
  · have hstomped : counted cSwcStomped p 1 s (stompSent n a x s) := hp ▸ counts_then_counted
      (Counts.count (l := [cTxStomped]) (counts_of_tel (emit_tel _ _)) (by decide)) (counted_count _ _ _ _)
    exact counted_then_same (counted_then_counts (counted_then_counts (counted_then_counts hstomped hm.counts) hdrop.counts) (hends _).counts) rfl
  · have hstomped : Counts [cSwcStomped, cTxStomped] s (stompSent n a x s) :=
      Counts.count (Counts.count (counts_of_tel (emit_tel _ _)) (by decide)) (by decide)
    exact counted_then_same (counted_then_counts (counts_then_counted hstomped (counts_then_counted hm.counts
      (dropCopyIn_counted _ _ _ _ _ _))) (hends _).counts) rfl

end

end Sys2Proof.Proofs
end

section
/-!
PROOFS. Ports transmit and reload (O36): a selection, the ends of a transmission, the faults of R370, and the statement.
-/

namespace Sys2Proof.Proofs

open Sys2Proof Sys2Proof.Machine Sys2Proof.Laws

/-! ### Selection (R350, R351, R365) -/

/-- The state a selection chooses in: a port of which no round runs takes its staged configuration (R356). -/
def selecting (p : Nat) (s : State) : State := if noRound s p = true then switchSched p s else s

theorem selecting_scheduled (p : Nat) (s : State) : Scheduled [] s (selecting p s) := by
  unfold selecting
  split
  · exact switchSched_scheduled p s
  · exact Scheduled.refl

section

variable {r : SelectRule} {p ahead : Nat} {err : Int} {s : State}

theorem selectOn_nothing (h : chooseNow s r p = .nothing) : selectOn r p ahead err s = (false, s) := by
  simp only [selectOn, h, takeSelection]

theorem selectOn_copy {id c k : Nat} {leaf : Option Nat} {ets leafN : Option SchedNode} {node : SchedNode}
    (h : chooseNow s r p = .copy id c k leaf ets node leafN) : selectOn r p ahead err s =
      (true, if copyAged s (copyAt s id) then ageOut id s else serveCopy p id c k leaf ets node leafN ahead err s) := by
  simp only [selectOn, h, takeSelection]
  split <;> rfl

end

section

variable {p : Port} {sent ahead : Nat} {err : Int} {s : State} (ha : portActive s p.val = true) (hf : farEnd s p.val = false)
  (he : inRangeI err (-stampError) stampError = true) (ho : oversizedHead (selecting p.val s) p.val = none)
include ha hf he ho

theorem exec_schedulerSelect_free (htx : (portSched s p.val).tx = none) (hpre : (portSched s p.val).preempted = none) :
    exec (.schedulerSelect p sent ahead err) s =
      .next (selectOn { express := (portSched s p.val).gateHold } p.val ahead err (selecting p.val s)).2 := by
  have hguard : ¬ (!portActive s p.val || farEnd s p.val || !inRangeI err (-stampError) stampError) = true := by simp [ha, hf, he]
  unfold selecting at ho ⊢
  change execSchedulerSelect p sent ahead err s = _
  simp only [execSchedulerSelect, if_neg hguard, ho, htx, hpre]

theorem exec_schedulerSelect_resumed {a : Tx} (htx : (portSched s p.val).tx = none) (hpre : (portSched s p.val).preempted = some a)
    (hhold : (portSched s p.val).gateHold = false) (hc : chooseNow (selecting p.val s) { express := true } p.val = .nothing) :
    exec (.schedulerSelect p sent ahead err) s =
      .next (modPortSched p.val (fun y => { y with tx := some a, preempted := none }) (selecting p.val s)) := by
  have hguard : ¬ (!portActive s p.val || farEnd s p.val || !inRangeI err (-stampError) stampError) = true := by simp [ha, hf, he]
  have hselect := selectOn_nothing (ahead := ahead) (err := err) hc
  unfold selecting at ho hselect ⊢
  change execSchedulerSelect p sent ahead err s = _
  simp only [execSchedulerSelect, if_neg hguard, ho, htx, hpre, hselect, hhold, Bool.or_self, if_neg Bool.false_ne_true]

/-- The state in which the frame in transmission has been cut off after `sent` bytes. -/
def cutOff (p sent : Nat) (a : Tx) (s : State) : State :=
  count cPreFragTx p 1 (modPortSched p (fun y => { y with tx := none, preempted := some { a with sent } }) s)

theorem exec_schedulerSelect_cut {a : Tx} (htx : (portSched s p.val).tx = some a) (hpre : (portSched s p.val).preempted = none)
    (hl : legalPoint s p.val sent a = true) {u : State}
    (hc : selectOn { express := true } p.val ahead err (cutOff p.val sent a (selecting p.val s)) = (true, u)) :
    exec (.schedulerSelect p sent ahead err) s = .next u := by
  have hguard : ¬ (!portActive s p.val || farEnd s p.val || !inRangeI err (-stampError) stampError) = true := by simp [ha, hf, he]
  have hlegal : ¬ (!legalPoint s p.val sent a) = true := by simp [hl]
  unfold selecting at ho hc
  unfold cutOff at hc
  change execSchedulerSelect p sent ahead err s = _
  simp only [execSchedulerSelect, if_neg hguard, ho, htx, hpre, if_neg hlegal, hc, Bool.true_or, if_pos]

section

variable {id c k : Nat} {leaf : Option Nat} {ets leafN : Option SchedNode} {node : SchedNode} {x : Copy}
  (hx : tabFind s.buf.copies id = some x) (hp : x.port = p.val)
include hx hp

omit ha hf he ho hp in
theorem copies_of_buf {t : State} (h : t.buf = s.buf) : tabFind t.buf.copies id = some x := by rw [h, hx]

section

variable (htx : (portSched s p.val).tx = none) (hpre : (portSched s p.val).preempted = none)
  (hc : chooseNow (selecting p.val s) { express := (portSched s p.val).gateHold } p.val = .copy id c k leaf ets node leafN) (hk : x.queue = k)
include htx hpre hc hk

theorem schedulerSelect_serves (hage : copyAged (selecting p.val s) x = false) : Completes (.schedulerSelect p sent ahead err) s fun t =>
    (∃ y, (portSched t p.val).tx = some y ∧ y.copy = id) ∧ (copyAt t id).started = true ∧ id ∉ (bufQueue t (queueNo p.val k)).fifo ∧
    counted cSchFrames (queueNo p.val k) 1 s t := by
  have hs := selecting_scheduled p.val s
  have hx' := copies_of_buf hx hs.buf
  have hyoung : ¬ copyAged (selecting p.val s) (copyAt (selecting p.val s) id) = true := by simp [copyAt_of_find hx', hage]
  obtain ⟨⟨htx', -⟩, hstarted, hleft, hcounted, -⟩ := serveCopy_serves p.val k c leaf ets node leafN ahead err hx' hp
  refine ⟨_, (exec_schedulerSelect_free ha hf he ho htx hpre).trans ?_, htx', hstarted, ?_, counts_then_counted hs.counts hcounted⟩
  · rw [selectOn_copy hc, if_neg hyoung]
  · rwa [hp, hk] at hleft

theorem schedulerSelect_ages (hage : copyAged (selecting p.val s) x = true) : Completes (.schedulerSelect p sent ahead err) s fun t =>
    (portSched t p.val).tx = none ∧ counted cSwcAged (queueNo p.val k) 1 s t ∧ counted (cSwcDrops 0x2C) x.quad 1 s t := by
  have hs := selecting_scheduled p.val s
  have hcopy := copyAt_of_find (copies_of_buf hx hs.buf)
  have hold : copyAged (selecting p.val s) (copyAt (selecting p.val s) id) = true := by rw [hcopy, hage]
  obtain ⟨hfree, haged, hdropped⟩ := ageOut_drops id (selecting p.val s)
  rw [hcopy] at haged hdropped
  rw [hp, hk] at haged
  refine ⟨_, (exec_schedulerSelect_free ha hf he ho htx hpre).trans ?_, ?_, counts_then_counted hs.counts haged,
    counts_then_counted hs.counts hdropped⟩
  · rw [selectOn_copy hc, if_pos hold]
  · exact (congrArg Prod.fst ((hfree p.val).trans (hs.tx p.val))).trans htx

end

theorem schedulerSelect_cuts {a : Tx} (htx : (portSched s p.val).tx = some a) (hpre : (portSched s p.val).preempted = none)
    (hl : legalPoint s p.val sent a = true)
    (hc : chooseNow (cutOff p.val sent a (selecting p.val s)) { express := true } p.val = .copy id c k leaf ets node leafN)
    (hage : copyAged (cutOff p.val sent a (selecting p.val s)) x = false) : Completes (.schedulerSelect p sent ahead err) s fun t =>
      (portSched t p.val).preempted = some { a with sent } ∧ (∃ y, (portSched t p.val).tx = some y ∧ y.copy = id) ∧
      counted cPreFragTx p.val 1 s t := by
  have hs := selecting_scheduled p.val s
  have hx' : tabFind (cutOff p.val sent a (selecting p.val s)).buf.copies id = some x := copies_of_buf hx ((count_buf _ _ _ _).trans hs.buf)
  have hyoung : ¬ copyAged (cutOff p.val sent a (selecting p.val s)) (copyAt (cutOff p.val sent a (selecting p.val s)) id) = true := by
    simp [copyAt_of_find hx', hage]
  have hcut : counted cPreFragTx p.val 1 s (cutOff p.val sent a (selecting p.val s)) :=
    counts_then_counted ((counts_of_tel rfl).after (m := []) hs.counts) (counted_count _ _ _ _)
  have hport : (portSched (cutOff p.val sent a (selecting p.val s)) p.val).preempted = some { a with sent } :=
    congrArg PortSched.preempted (portSched_modPortSched p.val _ _)
  obtain ⟨⟨htx', hpre'⟩, -, -, -, hcounts⟩ := serveCopy_serves p.val k c leaf ets node leafN ahead err hx' hp
  refine ⟨_, exec_schedulerSelect_cut ha hf he ho htx hpre hl ?_, hpre'.trans hport, htx', counted_then_counts hcut hcounts⟩
  rw [selectOn_copy hc, if_neg hyoung]

end

theorem schedulerSelect_resumes {a : Tx} (htx : (portSched s p.val).tx = none) (hpre : (portSched s p.val).preempted = some a)
    (hhold : (portSched s p.val).gateHold = false) (hc : chooseNow (selecting p.val s) { express := true } p.val = .nothing) :
    Completes (.schedulerSelect p sent ahead err) s fun t => (portSched t p.val).tx = some a ∧ (portSched t p.val).preempted = none := by
  refine ⟨_, exec_schedulerSelect_resumed ha hf he ho htx hpre hhold hc, ?_⟩
  beta_reduce
  rw [portSched_modPortSched]
  exact ⟨rfl, rfl⟩

end

/-! ### The end of a transmission (R110, R318) -/

/-- A complete copy's bytes leave: transmitters stand, and the frame is counted. -/
theorem completeFrame_leaves {x : Copy} {e : Emission} {n no : Nat} {d : Int} {s u m : State} (hu : Undisturbed [cTxPadded] s u)
    (hm : Undisturbed [cPreFragTx] (histCount no d (countSent x n (emit e u))) m) (hout : m.out = (histCount no d (countSent x n (emit e u))).out) :
    (∀ q, transmitters q m = transmitters q s) ∧ e ∈ m.out ∧ counted cTxFrames x.port 1 s m := by
  refine ⟨fun q => ?_, ?_, ?_⟩
  · rw [hm.tx, (histCount_undisturbed _ _ _).tx, (countSent_undisturbed _ _ _).tx, transmitters_of_sch (emit_sch _ _), hu.tx]
  · rw [hout]
    exact sent_of_keeps (keeps_histCount _ _ _) (sent_of_keeps (keeps_countSent _ _ _) List.mem_cons_self)
  · have hbefore : Counts [cTxPadded] s (emit e u) := (counts_of_tel (emit_tel _ _)).after (m := []) hu.counts
    have hframe := counts_then_counted hbefore (countSent_counted x n _)
    exact counted_then_counts (counted_then_counts hframe (histCount_undisturbed _ _ _).counts) hm.counts

section

variable {p : Port} {a : Tx} {x : Copy} {s : State} (htx : (portSched s p.val).tx = some a) (hx : tabFind s.buf.copies a.copy = some x)
include htx hx

theorem exec_txFrameEnd (hp : x.port = p.val) (hended : (frameOf s x.frame).ended = true) (hgood : (frameOf s x.frame).bad = 0) :
    ∃ m, exec (.txFrameEnd p false) s = .next (releaseCopy a.copy (clearTx p.val a.copy (postcard x a m))) ∧
      (∀ q, transmitters q m = transmitters q s) ∧ .transmit p.val (wireBytes (frameOf s x.frame) x a) false ∈ m.out ∧
      counted cTxFrames p.val 1 s m := by
  have hguard : ¬ (!(frameOf s x.frame).ended || (frameOf s x.frame).bad != 0) = true := by simp [hended, hgood]
  have hpadded : ∀ (b : Prop) [Decidable b], Undisturbed [cTxPadded] s (if b then count cTxPadded p.val 1 s else s) := fun b _ => by
    split
    · exact undisturbed_count (by decide)
    · exact Undisturbed.refl
  have hfragment : ∀ (b : Prop) [Decidable b] t, Undisturbed [cPreFragTx] t (if b then count cPreFragTx p.val 1 t else t) ∧
      (if b then count cPreFragTx p.val 1 t else t).out = t.out := fun b _ t => by
    split
    · exact ⟨undisturbed_count (by decide), count_out _ _ _ _⟩
    · exact ⟨Undisturbed.refl, rfl⟩
  change ∃ m, execTxFrameEnd p false s = _ ∧ _
  unfold execTxFrameEnd
  rw [htx]
  dsimp only
  rw [copyAt_of_find hx, if_neg hguard, ← hp]
  exact ⟨_, rfl, completeFrame_leaves (hp ▸ hpadded _) (hp ▸ hfragment _ _).1 (hp ▸ hfragment _ _).2⟩

theorem txFrameEnd_completes (hp : x.port = p.val) (hended : (frameOf s x.frame).ended = true) (hgood : (frameOf s x.frame).bad = 0) :
    Completes (.txFrameEnd p false) s fun t => (portSched t p.val).tx = none ∧
      .transmit p.val (wireBytes (frameOf s x.frame) x a) false ∈ t.out ∧ counted cTxFrames p.val 1 s t := by
  obtain ⟨m, hexec, htrans, hsent, hframe⟩ := exec_txFrameEnd htx hx hp hended hgood
  have hpostcard := postcard_undisturbed x a m
  refine ⟨_, hexec, ?_, ?_, ?_⟩
  · exact (congrArg Prod.fst ((releaseCopy_undisturbed _ _).tx p.val)).trans (tx_clearTx htx ((hpostcard.tx _).trans (htrans _)))
  · exact sent_of_keeps (keeps_releaseCopy _ _) (sent_of_keeps (keeps_clearTx _ _ _) (sent_of_keeps (keeps_postcard _ _ _) hsent))
  · have hcleared := counted_then_same (counted_then_counts hframe hpostcard.counts) ((keeps_clearTx p.val a.copy _).same .tel rfl)
    exact counted_then_counts hcleared (releaseCopy_undisturbed _ _).counts

theorem cutThroughUnderrun_completes {sent : Nat} (hp : x.port = p.val) (hended : (frameOf s x.frame).ended = false)
    (hlen : sent ≤ (txBody (frameOf s x.frame) x a).length) : Completes (.cutThroughUnderrun p sent) s fun t =>
      (portSched t p.val).tx = none ∧ .transmit p.val ((txBody (frameOf s x.frame) x a).take sent ++
        badFcs ((txBody (frameOf s x.frame) x a).take sent)) true ∈ t.out ∧
      counted cSwcStomped p.val 1 s t ∧ counted (cSwcDrops 0x2E) x.quad 1 s t := by
  have hguard : ¬ ((frameOf s x.frame).ended || sent > (txBody (frameOf s x.frame) x a).length) = true := by
    simp [hended, Nat.not_lt_of_le hlen]
  have hexec : exec (.cutThroughUnderrun p sent) s = .next (stompCopy a.copy sent 0x2E 0 s) := by
    change execCutThroughUnderrun p sent s = _
    simp only [execCutThroughUnderrun, htx, copyAt_of_find hx, if_neg hguard]
  obtain ⟨hfree, hsent, hstomped, hdropped⟩ := stompCopy_stomps htx hp hx sent 0
  rw [stompedBytes, hp] at hsent
  exact ⟨_, hexec, hfree, hsent, hstomped, hdropped⟩

end

/-! ### Faults of scheduling and policing (R370) -/

section

variable {p : Port} {q : Quad} {i : Fin 131072} {s : State}

theorem policerAt_modPolicer (n : Nat) (f : Policer → Policer) (s : State) : policerAt (modPolicer n f s) n = f (policerAt s n) :=
  tabGet_mod _ _ _ _

theorem policerAt_of_sch {t : State} (h : t.sch = s.sch) (n : Nat) : policerAt t n = policerAt s n := by rw [policerAt, h, policerAt]

theorem portSched_of_sch {t : State} (h : t.sch = s.sch) (p : Nat) : portSched t p = portSched s p := by rw [portSched, h, portSched]

theorem detect_sch (b k i : Nat) (contain : Bool → State → State) (s : State) :
    (detect b k i contain s).sch = (contain (injectedNow s b k i) s).sch := raiseFault_sch _ _ _ _ _

/-- A fault's event is logged at its detection (the model's choice, assumption 38). -/
theorem schState_completes : Completes (.schState p) s fun t =>
    raised 46 4 p.val s t ∧ logged 0x0A03 t ∧ portSched t p.val = resetSched s p.val (portSched s p.val) := by
  refine ⟨_, rfl, raised_detect (fun inj => ?_) _ _ _, ?_, ?_⟩
  · rw [kilnInj_flt_inFlight]
    rfl
  · rw [logged, detect_kiln]
    exact kilnInj_head _ _ _ _
  · rw [portSched_of_sch ((detect_sch _ _ _ _ _).trans (kilnInj_sch _ _ _ _)), portSched_modPortSched]

theorem schedReload_completes : Completes (.schedReload p) s fun t => portSched t p.val = { portSched s p.val with reloading := false } :=
  ⟨_, rfl, portSched_modPortSched _ _ _⟩

theorem polState_completes : Completes (.polState q i) s fun t => raised 47 14 (policerNo q.val i.val) s t ∧ logged 0x0A04 t ∧
    policerAt t (policerNo q.val i.val) = { policerAt s (policerNo q.val i.val) with reloading := true } := by
  refine ⟨_, rfl, raised_detect (fun inj => ?_) _ _ _, ?_, ?_⟩
  · rw [kilnInj_flt_inFlight]
    rfl
  · rw [logged, detect_kiln]
    exact kilnInj_head _ _ _ _
  · rw [policerAt_of_sch ((detect_sch _ _ _ _ _).trans (kilnInj_sch _ _ _ _)), policerAt_modPolicer]

theorem policerReload_completes (h : (policerAt s (policerNo q.val i.val)).reloading = true) : Completes (.policerReload q i) s fun t =>
    policerAt t (policerNo q.val i.val) = { policerAt s (policerNo q.val i.val) with
      reloading := false
      tc := burstUnits (polCbs (policerAt s (policerNo q.val i.val)).obj)
      te := burstUnits (polEbs (policerAt s (policerNo q.val i.val)).obj) } :=
  ⟨_, rfl, (policerAt_modPolicer _ _ _).trans (if_pos h)⟩

end

/-- Settles O36: a lemma for each selection, each end of a transmission and each fault. That the events 0x0A03 and 0x0A04 are logged at
detection, that a port is selected for when its MAC is free, and that selection goes on through the reload are the model's choices
(assumptions 38, 74 and 80). -/
theorem portsTransmitAndReload : Obligations.PortsTransmitAndReload :=
  ⟨fun _ _ _ _ _ _ _ _ _ _ _ _ _ _ => ⟨fun ha hf he ho =>
      ⟨fun htx hpre hc hx hp hk => ⟨schedulerSelect_serves ha hf he ho hx hp htx hpre hc hk,
          schedulerSelect_ages ha hf he ho hx hp htx hpre hc hk⟩,
        fun htx hpre hl hc hx hp hage => schedulerSelect_cuts ha hf he ho hx hp htx hpre hl hc hage,
        schedulerSelect_resumes ha hf he ho⟩,
      fun htx hx hp => ⟨txFrameEnd_completes htx hx hp, cutThroughUnderrun_completes htx hx hp⟩⟩,
    fun _ _ _ _ => ⟨schState_completes, schedReload_completes, polState_completes, policerReload_completes⟩⟩

end Sys2Proof.Proofs
end

section
/-!
PROOFS. Rules of the parser: what a read of a frame or of a pipeline's parser returns after each update, what a frame's visits and the
end of its parse leave and count, and how a drop is counted (R125, R135 to R137, R147).
-/

namespace Sys2Proof.Proofs

open Sys2Proof Sys2Proof.Machine Sys2Proof.Laws

/-! ### Frames changed in their place -/

theorem tabFind_upd {α : Type} {k : Nat} {v : α} {m : Store α} (h : tabFind m k = some v) (f : α → α) :
    tabFind (tabUpd k f m) k = some (f v) := by
  induction m with
  | nil => cases h
  | cons e m ih =>
    obtain ⟨j, w⟩ := e
    by_cases hj : (j == k) = true
    · rw [tabFind, if_pos hj, Option.some_inj] at h
      rw [tabUpd, if_pos hj, tabFind, if_pos hj, h]
    · rw [tabFind, if_neg hj] at h
      rw [tabUpd, if_neg hj, tabFind, if_neg hj, ih h]

section

variable {u : Nat} {v : Frame} {s : State}

theorem frameOf_of_find (h : tabFind s.fr.frames u = some v) : frameOf s u = v := by rw [frameOf, h, Option.getD_some]

theorem tabFind_setFrame (u : Nat) (v : Frame) (s : State) : tabFind (setFrame u v s).fr.frames u = some v := tabFind_put u v s.fr.frames

theorem tabFind_modFrame (h : tabFind s.fr.frames u = some v) (f : Frame → Frame) : tabFind (modFrame u f s).fr.frames u = some (f v) :=
  tabFind_upd h f

theorem holdGrown_unheld (h : (frameOf s u).place ≠ .hold) : holdGrown u s = s := if_pos (bne_iff_ne.mpr h)

/-- More bytes for a parked frame: it keeps its place. -/
theorem moreBytes_parked (h : tabFind s.fr.frames u = some v) (hp : v.place = .parked) (b : Bytes) : moreBytes u b s =
    modFrame u (fun v => { v with data := v.data ++ b, resv := if v.place == .fifo then v.resv else v.resv - b.length }) s := by
  refine holdGrown_unheld ?_
  rw [frameOf_of_find (tabFind_modFrame h _), hp]
  decide

end

/-! ### A pipeline's parser -/

section

variable {s t : State}

theorem parserPipe_of_prs (h : t.prs = s.prs) (g : Nat) : parserPipe t g = parserPipe s g := by rw [parserPipe, h, parserPipe]

@[simp] theorem parserPipe_setParserPipe (g : Nat) (v : ParserPipe) (s : State) : parserPipe (setParserPipe g v s) g = v :=
  tabGet_set _ _ _ _

theorem parserPipe_setParserPipe_ne {g k : Nat} (h : k ≠ g) (v : ParserPipe) (s : State) :
    parserPipe (setParserPipe g v s) k = parserPipe s k := tabGet_set_ne _ _ h

theorem malformedOf_of_prs (h : t.prs = s.prs) (g : Nat) : malformedOf t g = malformedOf s g := by
  rw [malformedOf, parserPipe_of_prs h, malformedOf]

/-- A frame that stays in its pipeline and version is parsed under the same graph. -/
theorem graphOf_of_prs {v w : Frame} (h : t.prs = s.prs) (hg : w.graph = v.graph) (hp : w.pipe = v.pipe) : graphOf t w = graphOf s v := by
  rw [graphOf, hg, hp, parserPipe_of_prs h, graphOf]

end

/-! ### Visits and the end of a parse (R125, R127, R135 to R137) -/

/-- `s` with `n` visits counted for pipeline `g`. -/
def visitsSpent (g n : Nat) (s : State) : State := spendPipe g 0 1 n (count cPrsVisits g n s)

/-- The frame that its visits have left as `x`, at the end of its parse with class `cls`: it carries the parser's metadata and
waits for S0. -/
def parsedFrame (x : Frame) (cls : Nat) : Frame :=
  { x with malformed := cls, hdr := parseMetadata { x with malformed := cls }, place := .parsed, graph := none }

/-- `s` with frame `u` at the end of its parse in pipeline `g`; a long one is counted. -/
def parseEnded (u g cls : Nat) (x : Frame) (s : State) : State :=
  if x.visits > 8 then count cPrsLong g 1 (setFrame u (parsedFrame x cls) s) else setFrame u (parsedFrame x cls) s

section

variable {u g cls : Nat} {v x : Frame} {s : State}

theorem visitsSpent_counts (n : Nat) : Counts [cPrsVisits] s (visitsSpent g n s) :=
  (Counts.count Counts.refl List.mem_cons_self).trans (counts_of_tel rfl)

theorem tabFind_parseEnded : tabFind (parseEnded u g cls x s).fr.frames u = some (parsedFrame x cls) := by
  unfold parseEnded
  split
  · rw [count_fr, tabFind_setFrame]
  · exact tabFind_setFrame _ _ _

theorem parseEnded_counts : Counts [cPrsLong] s (parseEnded u g cls x s) := by
  unfold parseEnded
  split
  · exact Counts.count (counts_of_tel rfl) List.mem_cons_self
  · exact counts_of_tel rfl

theorem parseEnded_prs : (parseEnded u g cls x s).prs = s.prs := by
  unfold parseEnded
  split <;> rfl

/-- What a parse counts beside its outcome. -/
def parseCounters : List Counter := [cPrsVisits, cPrsLong]

theorem parseEnded_visitsSpent_counts (n : Nat) : Counts parseCounters s (parseEnded u g cls x (visitsSpent g n s)) :=
  Counts.after parseEnded_counts ((visitsSpent_counts n).mono (by decide))

/-- A malformed end whose action is to continue: it is counted, and the frame waits for S0. -/
theorem endMalformed_continues (hv : tabFind s.fr.frames u = some v) (hact : u8 (malformedOf s v.pipe) (7 + cls) = 1) :
    tabFind (endMalformed u cls s).fr.frames u = some { v with place := .parsed } ∧
    counted (cPrsMalformed cls) v.pipe 1 s (endMalformed u cls s) := by
  have hend : endMalformed u cls s = modFrame u (fun v => { v with place := .parsed })
      (kilnOnce 0x0523 (8 * v.pipe + cls) [(1, v.pipe), (1, cls), (2, v.node)] (count (cPrsMalformed cls) v.pipe 1 s)) := by
    simp only [endMalformed, frameOf_of_find hv, hact]
  rw [hend]
  refine ⟨tabFind_modFrame ?_ _, counted_then_same (counted_count _ _ _ _) (kilnOnce_tel _ _ _ _)⟩
  rw [kilnOnce_fr, count_fr, hv]

section

variable (hv : tabFind s.fr.frames u = some v)
include hv

/-- An accepted frame carries the parser's metadata, waits for S0, and is counted. -/
theorem runParse_accepted (h : visits (graphOf s v) 33 v = (.accepted, x)) :
    tabFind (runParse u s).fr.frames u = some (parsedFrame x 0) ∧ counted cPrsAccepted v.pipe 1 s (runParse u s) ∧
    Counts (cPrsAccepted :: parseCounters) s (runParse u s) := by
  have hrun : runParse u s = count cPrsAccepted v.pipe 1 (parseEnded u v.pipe 0 x (visitsSpent v.pipe (x.visits - v.visits) s)) := by
    simp only [runParse, frameOf_of_find hv, h]
    rfl
  rw [hrun]
  refine ⟨(congrArg (tabFind · u) (congrArg FrameState.frames (count_fr _ _ _ _))).trans tabFind_parseEnded, ?_, ?_⟩
  · exact counts_then_counted (parseEnded_visitsSpent_counts _) (counted_count _ _ _ _)
  · exact Counts.count ((parseEnded_visitsSpent_counts _).mono fun _ => List.mem_cons_of_mem _) List.mem_cons_self

/-- A frame whose visit waits for a byte parks. -/
theorem runParse_waits (h : visits (graphOf s v) 33 v = (.waits, x)) :
    tabFind (runParse u s).fr.frames u = some { x with place := .parked } ∧ Counts parseCounters s (runParse u s) := by
  have hrun : runParse u s = setFrame u { x with place := .parked } (visitsSpent v.pipe (x.visits - v.visits) s) := by
    simp only [runParse, frameOf_of_find hv, h]
    rfl
  rw [hrun]
  exact ⟨tabFind_setFrame _ _ _, ((visitsSpent_counts _).mono (by decide)).trans (counts_of_tel rfl)⟩

/-- A frame that ends malformed in a class whose action is to continue: it waits for S0 with its class, and is counted. -/
theorem runParse_malformed (h : visits (graphOf s v) 33 v = (.malformed cls, x)) (hact : u8 (malformedOf s x.pipe) (7 + cls) = 1)
    (hapart : parseCounters.all (apart (cPrsMalformed cls)) = true) :
    (frameOf (runParse u s) u).malformed = cls ∧ (frameOf (runParse u s) u).place = .parsed ∧
    counted (cPrsMalformed cls) x.pipe 1 s (runParse u s) := by
  have hrun : runParse u s = endMalformed u cls (parseEnded u v.pipe cls x (visitsSpent v.pipe (x.visits - v.visits) s)) := by
    simp only [runParse, frameOf_of_find hv, h]
    rfl
  rw [← malformedOf_of_prs (s := s) (parseEnded_prs (u := u) (g := v.pipe) (cls := cls) (x := x)
    (s := visitsSpent v.pipe (x.visits - v.visits) s))] at hact
  obtain ⟨hframe, hcounted⟩ := endMalformed_continues tabFind_parseEnded hact
  rw [hrun, frameOf_of_find hframe]
  exact ⟨rfl, rfl, counts_then_counted (parseEnded_visitsSpent_counts _) hcounted hapart⟩

end

end

/-! ### Drops and detections -/

/-- A frame dropped in its pipeline is counted once under the reason. -/
theorem dropFrame_counted (u r : Nat) (i : CopyInfo) (s : State) (h : recordCounters.all (apart (cSwcDrops r)) = true := by decide) :
    counted (cSwcDrops r) (quadOfPipe (frameOf s u).pipe) 1 s (dropFrame u r i s) :=
  counted_then_same (dropIn_counted _ _ _ _ _ h) ((keeps_spend _ _).same .tel rfl)

/-- A frame that the parser drops, after what counts nothing and changes no frame, is counted under PARSER_INTEGRITY. -/
theorem parserDrop_counted {g u : Nat} {s t : State} (hp : (frameOf s u).pipe = g) (hfr : t.fr = s.fr) (htel : t.tel = s.tel) :
    counted (cSwcDrops 0x11) (g / 16) 1 s (parserDrop u t) := by
  have hcount : Counts [cPrsIntegrity] s (count cPrsIntegrity (frameOf t u).pipe 1 t) := Counts.count (counts_of_tel htel) List.mem_cons_self
  have hdrop := dropFrame_counted u 0x11 {} (count cPrsIntegrity (frameOf t u).pipe 1 t)
  rw [frameOf_of_fr u s ((count_fr _ _ _ _).trans hfr), hp] at hdrop
  exact counts_then_counted hcount hdrop

theorem pipe_of_beingParsed {g u : Nat} {s : State} (h : beingParsed s g u = true) : (frameOf s u).pipe = g := by
  rw [beingParsed, Bool.and_eq_true, beq_iff_eq] at h
  exact h.1

/-- What the containment of a detection counts is counted. -/
theorem counted_detect {c : Counter} {x n : Nat} {s : State} {contain : Bool → State → State} (h : ∀ inj, counted c x n s (contain inj s))
    (b k i : Nat) : counted c x n s (detect b k i contain s) := counted_then_same (h _) (raiseFault_tel _ _ _ _ _)

theorem detect_prs (b k i : Nat) (contain : Bool → State → State) (s : State) :
    (detect b k i contain s).prs = (contain (injectedNow s b k i) s).prs := raiseFault_prs _ _ _ _ _

end Sys2Proof.Proofs
end

section
/-!
PROOFS. Parses run and fault (O19): the PARSER_MALFORMED object, a parse that starts and one that resumes, the faults of R147, and the
statement from these.
-/

namespace Sys2Proof.Proofs

open Sys2Proof Sys2Proof.Machine Sys2Proof.Laws

/-! ### PARSER_MALFORMED (R138) -/

/-- Pipeline `g` takes the object `o`, with its rate limit. -/
def malformedWritten (o : Bytes) (pps : Nat) (s : State) (g : Nat) : State :=
  writeLimit .malformed g (quadOfPipe g) pps
    (setParserPipe g { parserPipe s g with malformed := if o == malformedDefault then [] else o } s)

section

variable {o : Bytes} {pps : Nat}

theorem malformedOf_malformedWritten (ho : o ≠ []) (s : State) (g : Nat) : malformedOf (malformedWritten o pps s g) g = o := by
  have hread : parserPipe (malformedWritten o pps s g) g =
      { parserPipe s g with malformed := if o == malformedDefault then [] else o } := parserPipe_setParserPipe _ _ _
  rw [malformedOf, hread]
  by_cases hd : o = malformedDefault
  · simp [hd]
  · simp [hd, ho]

theorem malformedOf_malformedWritten_ne {g k : Nat} (h : k ≠ g) (s : State) : malformedOf (malformedWritten o pps s g) k = malformedOf s k := by
  have hread : parserPipe (malformedWritten o pps s g) k = parserPipe s k := parserPipe_setParserPipe_ne h _ _
  rw [malformedOf, hread, malformedOf]

/-- A run of writes reaches every pipeline of the mask and no other. -/
theorem malformedOf_foldl_malformedWritten (ho : o ≠ []) (m : Nat) (s : State) (g : Nat) :
    malformedOf ((maskBits 64 m).foldl (malformedWritten o pps) s) g = if g < 64 ∧ bit m g = true then o else malformedOf s g := by
  have hplaces := foldl_places (l := maskBits 64 m) (op := malformedWritten o pps) (read := malformedOf) (val := fun _ _ => o)
    (I := fun _ => True) (fun _ _ _ => trivial) (fun s g _ => malformedOf_malformedWritten ho s g)
    (fun s _ _ h => malformedOf_malformedWritten_ne h s) (List.nodup_range.filter _) trivial (s := s) g
  simpa only [maskBits, List.mem_filter, List.mem_range] using hplaces

end

theorem parserMalformedWrite_writes {c : Cmd} {s : State} (ho : putField (given c s) 0 8 0 ≠ []) :
    Writes opParserMalformedWrite c (.parserMalformedWrite c) s fun t =>
      (∀ g, g < 64 → bit (u64 (given c s) 0) g = true → malformedOf t g = putField (given c s) 0 8 0) ∧
      ∀ g, bit (u64 (given c s) 0) g = false → malformedOf t g = malformedOf s g := by
  have hread := malformedOf_foldl_malformedWritten (pps := u32 (given c s) 16) ho (u64 (given c s) 0) (takenState c s)
  refine writes_of rfl fun _ => ⟨(maskBits 64 (u64 (given c s) 0)).foldl
    (malformedWritten (putField (given c s) 0 8 0) (u32 (given c s) 16)) (takenState c s), rfl, ?_, fun g hg hbit => ?_, fun g hbit => ?_⟩
  · exact foldl_keeps (fun s : State => s.host.ended) fun _ _ _ => rfl
  · exact (hread g).trans (if_pos ⟨hg, hbit⟩)
  · exact (hread g).trans (if_neg (by simp [hbit]))

/-! ### A parse starts (R125, R135 to R137) -/

/-- Frame `v` as the parser of pipeline `g` takes it from source `src`: at the source's start node, nothing visited. -/
def startFrame (s : State) (g : Pipe) (src : Fin 4) (v : Frame) : Frame :=
  { v with cursor := 0, visits := 0, node := ((parserPipe s g.val).graph.start[src.val]?).getD 0, malformed := 0, present := 0,
           reached := true, resv := if v.ended || v.place == .hold then 0 else v.maxFrame - v.data.length }

/-- `s` in which the parser of pipeline `g` has taken frame `u` from source `src`. -/
def parserTakes (g : Pipe) (src : Fin 4) (u : Nat) (v : Frame) (s : State) : State :=
  spendPipe g.val 0 0 1 (count (cPrsFrames src.val) g.val 1 (setFrame u (startFrame s g src v) s))

/-- The counters of the four sources share no key with those of a parse. -/
theorem cPrsFrames_apart : ∀ src : Fin 4, (cPrsAccepted :: parseCounters).all (apart (cPrsFrames src.val)) = true ∧
    apart cPrsAccepted (cPrsFrames src.val) = true := by decide

/-- The counters of the classes share no key with the others of the parser. -/
theorem cPrsMalformed_apart {cls : Nat} (h₁ : 1 ≤ cls) (h₆ : cls ≤ 6) :
    parseCounters.all (apart (cPrsMalformed cls)) = true ∧ ∀ src : Fin 4, apart (cPrsMalformed cls) (cPrsFrames src.val) = true := by
  have hall : ∀ k : Fin 6, parseCounters.all (apart (cPrsMalformed (k + 1))) = true ∧
      ∀ src : Fin 4, apart (cPrsMalformed (k + 1)) (cPrsFrames src.val) = true := by decide
  simpa only [Nat.sub_add_cancel h₁] using hall ⟨cls - 1, by omega⟩

section

variable {g : Pipe} {src : Fin 4} {u : Nat} {v x : Frame} {s : State}

theorem tabFind_parserTakes : tabFind (parserTakes g src u v s).fr.frames u = some (startFrame s g src v) := tabFind_setFrame u _ s

theorem graphOf_parserTakes (w : Frame) : graphOf (parserTakes g src u v s) w = graphOf s w := graphOf_of_prs rfl rfl rfl

theorem parserTakes_counted : counted (cPrsFrames src.val) g.val 1 s (parserTakes g src u v s) :=
  counted_then_same (counted_count _ _ _ (setFrame u (startFrame s g src v) s)) rfl

theorem parserTakes_counts : Counts [cPrsFrames src.val] s (parserTakes g src u v s) :=
  (Counts.count (s := s) (counts_of_tel rfl) List.mem_cons_self).trans (counts_of_tel rfl)

section

variable (hv : tabFind s.fr.frames u = some v) (hnext : nextToParse s g.val src.val = some u)
  (hrel : (parserPipe s g.val).reloading = false) (hfence : pipeFenced s g.val = false) (hclosed : pipeClosed s g.val = false)
  (hpark : (src.val ≠ 0 ∧ src.val ≠ 2) ∨ (framesAt s g.val .parked).length < 32)
include hv hnext hrel hfence hclosed hpark

theorem exec_parseStart : exec (.parseStart g src) s = .next (runParse u (parserTakes g src u v s)) := by
  have hguard : ¬ ((parserPipe s g.val).reloading || pipeFenced s g.val || pipeClosed s g.val) = true := by simp [hrel, hfence, hclosed]
  have hroom : ¬ ((src.val == 0 || src.val == 2) && decide ((framesAt s g.val .parked).length ≥ 32)) = true := by
    simp only [Bool.and_eq_true, Bool.or_eq_true, beq_iff_eq, decide_eq_true_eq]
    omega
  change execParseStart g src s = _
  simp only [execParseStart, hnext, frameOf_of_find hv, if_neg hguard, if_neg hroom]
  rfl

theorem parseStart_accepted_completes (hp : v.pipe = g.val)
    (h : visits (graphOf s (startFrame s g src v)) 33 (startFrame s g src v) = (.accepted, x)) : Completes (.parseStart g src) s fun t =>
      tabFind t.fr.frames u = some (parsedFrame x 0) ∧ counted cPrsAccepted g.val 1 s t ∧ counted (cPrsFrames src.val) g.val 1 s t := by
  rw [← graphOf_parserTakes (g := g) (src := src) (u := u) (v := v)] at h
  obtain ⟨hframe, haccepted, hcounts⟩ := runParse_accepted tabFind_parserTakes h
  obtain ⟨hapart, hself⟩ := cPrsFrames_apart src
  rw [startFrame, hp] at haccepted
  exact ⟨_, exec_parseStart hv hnext hrel hfence hclosed hpark, hframe,
    counts_then_counted parserTakes_counts haccepted (by simpa using hself), counted_then_counts parserTakes_counted hcounts hapart⟩

theorem parseStart_waits_completes
    (h : visits (graphOf s (startFrame s g src v)) 33 (startFrame s g src v) = (.waits, x)) : Completes (.parseStart g src) s fun t =>
      tabFind t.fr.frames u = some { x with place := .parked } ∧ counted (cPrsFrames src.val) g.val 1 s t := by
  rw [← graphOf_parserTakes (g := g) (src := src) (u := u) (v := v)] at h
  obtain ⟨hframe, hcounts⟩ := runParse_waits tabFind_parserTakes h
  exact ⟨_, exec_parseStart hv hnext hrel hfence hclosed hpark, hframe,
    counted_then_counts parserTakes_counted (hcounts.mono fun _ => List.mem_cons_of_mem _) (cPrsFrames_apart src).1⟩

theorem parseStart_malformed_completes {cls : Nat}
    (h : visits (graphOf s (startFrame s g src v)) 33 (startFrame s g src v) = (.malformed cls, x)) (hx : x.pipe = g.val) (h₁ : 1 ≤ cls)
    (h₆ : cls ≤ 6) (hact : u8 (malformedOf s g.val) (7 + cls) = 1) : Completes (.parseStart g src) s fun t =>
      (frameOf t u).malformed = cls ∧ (frameOf t u).place = .parsed ∧ counted (cPrsMalformed cls) g.val 1 s t := by
  rw [← graphOf_parserTakes (g := g) (src := src) (u := u) (v := v)] at h
  obtain ⟨hapart, hsources⟩ := cPrsMalformed_apart h₁ h₆
  rw [← hx] at hact
  obtain ⟨hcls, hplace, hcounted⟩ := runParse_malformed tabFind_parserTakes h hact hapart
  rw [hx] at hcounted
  exact ⟨_, exec_parseStart hv hnext hrel hfence hclosed hpark, hcls, hplace,
    counts_then_counted parserTakes_counts hcounted (by simpa using hsources src)⟩

end

end

/-! ### A parse resumes (R125) -/

/-- The parked frame `v` with the bytes `b` that have arrived for it. -/
def fedFrame (v : Frame) (b : Bytes) : Frame := { v with data := v.data ++ b, resv := v.resv - b.length }

section

variable {u : Nat} {b : Bytes} {v w : Frame} {s : State} (hv : tabFind s.fr.frames u = some v) (hpl : v.place = .parked)
include hv hpl

theorem tabFind_moreBytes : tabFind (moreBytes u b s).fr.frames u = some (fedFrame v b) := by
  have hfifo : ¬ (v.place == .fifo) = true := by simp [hpl]
  rw [moreBytes_parked hv hpl, tabFind_modFrame hv, if_neg hfifo, fedFrame]

theorem visits_moreBytes :
    visits (graphOf (moreBytes u b s) (fedFrame v b)) 33 (fedFrame v b) = visits (graphOf s v) 33 (fedFrame v b) := by
  rw [moreBytes_parked hv hpl]
  exact congrArg (visits · 33 (fedFrame v b)) (graphOf_of_prs rfl rfl rfl)

variable (he : v.ended = true → b = []) (hlen : v.data.length + b.length ≤ max v.maxFrame v.data.length)
include he hlen

theorem exec_parseResume : exec (.parseResume u b) s = .next (runParse u (moreBytes u b s)) := by
  have hguard : ¬ (v.place != .parked || (v.ended && !b.isEmpty) || v.data.length + b.length > max v.maxFrame v.data.length) = true := by
    cases hended : v.ended with
    | true => simp [hpl, he hended]
    | false => simpa only [hpl, bne_self_eq_false, Bool.false_and, Bool.false_or, decide_eq_true_eq, not_lt] using hlen
  change execParseResume u b s = _
  simp only [execParseResume, frameOf_of_find hv, if_neg hguard]

theorem parseResume_accepted_completes (h : visits (graphOf s v) 33 (fedFrame v b) = (.accepted, w)) : Completes (.parseResume u b) s fun t =>
    tabFind t.fr.frames u = some (parsedFrame w 0) ∧ counted cPrsAccepted v.pipe 1 s t := by
  rw [← visits_moreBytes hv hpl] at h
  obtain ⟨hframe, haccepted, -⟩ := runParse_accepted (tabFind_moreBytes hv hpl) h
  refine ⟨_, exec_parseResume hv hpl he hlen, hframe, counts_then_counted (l := []) (counts_of_tel ?_) haccepted⟩
  rw [moreBytes_parked hv hpl]
  rfl

theorem parseResume_waits_completes (h : visits (graphOf s v) 33 (fedFrame v b) = (.waits, w)) : Completes (.parseResume u b) s fun t =>
    tabFind t.fr.frames u = some { w with place := .parked } := by
  rw [← visits_moreBytes hv hpl] at h
  exact ⟨_, exec_parseResume hv hpl he hlen, (runParse_waits (tabFind_moreBytes hv hpl) h).1⟩

end

/-! ### Parser faults (R147) -/

section

variable {g : Pipe} {u : Nat} {s : State}

/-- The containment of PRS_STORE, after what it drops: the store reloads, and the event is logged at the detection (the model's choice,
assumption 38). -/
def storeContained (g : Nat) (dropped : State → State) (inj : Bool) (s : State) : State :=
  kilnInj inj 0x0520 [(1, g), (1, 10)] (setParserPipe g { parserPipe (dropped s) g with reloading := true } (dropped s))

theorem storeContained_reloads (g : Nat) (dropped : State → State) (s : State) :
    (parserPipe (detect 10 5 g (storeContained g dropped) s) g).reloading = true ∧ logged 0x0520 (detect 10 5 g (storeContained g dropped) s) := by
  constructor
  · rw [parserPipe_of_prs ((detect_prs _ _ _ _ _).trans (kilnInj_prs _ _ _ _)), parserPipe_setParserPipe]
  · rw [logged, detect_kiln]
    exact kilnInj_head _ _ _ _

theorem storeContained_counted {c : Counter} {x n : Nat} {dropped : State → State} (h : counted c x n s (dropped s)) (g : Nat) (inj : Bool) :
    counted c x n s (storeContained g dropped inj s) := counted_then_same h (kilnInj_tel _ _ _ _)

theorem prsStore_completes : Completes (.prsStore g none) s fun t =>
    (parserPipe t g.val).reloading = true ∧ raised 10 5 g.val s t ∧ logged 0x0520 t := by
  obtain ⟨hreloading, hlogged⟩ := storeContained_reloads g.val id s
  refine ⟨_, rfl, hreloading, raised_detect (fun inj => ?_) _ _ _, hlogged⟩
  rw [kilnInj_flt_inFlight]
  rfl

/-- The frame being parsed is dropped. -/
theorem prsStore_frame_completes : Completes (.prsStore g (some u)) s fun t =>
    (parserPipe t g.val).reloading = true ∧ raisedLast 10 5 g.val t ∧ logged 0x0520 t ∧
    (beingParsed s g.val u = true → counted (cSwcDrops 0x11) (g.val / 16) 1 s t) := by
  have hexec : exec (.prsStore g (some u)) s =
      .next (detect 10 5 g.val (storeContained g.val fun s => if beingParsed s g.val u then parserDrop u s else s) s) := rfl
  obtain ⟨hreloading, hlogged⟩ := storeContained_reloads g.val (fun s => if beingParsed s g.val u then parserDrop u s else s) s
  refine ⟨_, hexec, hreloading, raisedLast_detect _ _ _ _ _, hlogged, fun hu => counted_detect (storeContained_counted ?_ _) _ _ _⟩
  rw [if_pos hu]
  exact parserDrop_counted (pipe_of_beingParsed hu) rfl rfl

theorem prsVector_completes (hu : u ∈ framesAt s g.val .parsed) : Completes (.prsVector g u) s fun t =>
    raisedLast 11 5 g.val t ∧ counted (cSwcDrops 0x11) ((frameOf s u).pipe / 16) 1 s t :=
  ⟨_, if_pos (List.contains_iff_mem.mpr hu), raisedLast_detect _ _ _ _ _, counted_detect (fun _ => parserDrop_counted rfl rfl rfl) _ _ _⟩

section

variable (hu : beingParsed s g.val u = true)
include hu

theorem prsHang_completes : Completes (.prsHang g u) s fun t =>
    raisedLast 12 5 g.val t ∧ counted (cSwcDrops 0x11) (g.val / 16) 1 s t := by
  refine ⟨_, if_pos hu, raisedLast_detect _ _ _ _ _, counted_detect (fun inj => ?_) _ _ _⟩
  exact parserDrop_counted (pipe_of_beingParsed hu) (kilnInj_fr _ _ _ _) (kilnInj_tel _ _ _ _)

theorem prsCheck_completes : Completes (.prsCheck g u) s fun t =>
    raisedLast 13 5 g.val t ∧ counted (cSwcDrops 0x11) (g.val / 16) 1 s t :=
  ⟨_, if_pos hu, raisedLast_detect _ _ _ _ _, counted_detect (fun _ => parserDrop_counted (pipe_of_beingParsed hu) rfl rfl) _ _ _⟩

end

theorem parserReload_completes : Completes (.parserReload g) s fun t =>
    (parserPipe t g.val).reloading = false ∧ (parserPipe t g.val).graph = (parserPipe s g.val).graph := by
  refine ⟨_, rfl, ?_⟩
  beta_reduce
  rw [parserPipe_setParserPipe]
  exact ⟨rfl, rfl⟩

end

/-- Settles O19: a lemma for each end of a parse and each fault. That 0x0520 is logged when PRS_STORE is detected is the model's choice
(assumption 38). -/
theorem parsesRunAndFault : Obligations.ParsesRunAndFault :=
  ⟨fun _ _ => ⟨reads_of rfl fun _ => rfl, parserMalformedWrite_writes⟩,
    fun _ _ _ _ _ _ _ hv hp => ⟨fun hnext hrel hfence hclosed hpark =>
        ⟨fun _ => parseStart_accepted_completes hv hnext hrel hfence hclosed hpark hp,
          fun _ => parseStart_waits_completes hv hnext hrel hfence hclosed hpark,
          fun _ _ => parseStart_malformed_completes hv hnext hrel hfence hclosed hpark⟩,
      fun hpl he hlen => ⟨hp ▸ parseResume_accepted_completes hv hpl he hlen, parseResume_waits_completes hv hpl he hlen⟩⟩,
    fun _ _ _ => ⟨prsStore_completes, prsStore_frame_completes, prsVector_completes, fun hu => ⟨prsHang_completes hu, prsCheck_completes hu⟩,
      parserReload_completes⟩⟩

end Sys2Proof.Proofs
end

section
/-!
PROOFS. Rules of the match-action and forwarding state: what a read of a stage or of a pipeline returns after each update, and how a frame
that meets a bad word in a stage is dropped (R187).
-/

namespace Sys2Proof.Proofs

open Sys2Proof Sys2Proof.Machine Sys2Proof.Laws

section

variable {s t : State}

theorem matStage_of_mat (h : t.mat = s.mat) (g st : Nat) : matStage t g st = matStage s g st := by rw [matStage, h, matStage]

theorem matPipe_of_mat (h : t.mat = s.mat) (g : Nat) : matPipe t g = matPipe s g := by rw [matPipe, h, matPipe]

theorem fwdPipe_of_fwd (h : t.fwd = s.fwd) (g : Nat) : fwdPipe t g = fwdPipe s g := by rw [fwdPipe, h, fwdPipe]

end

@[simp] theorem matStage_setStage (g st : Nat) (v : MatStage) (s : State) : matStage (setStage g st v s) g st = v := tabGet_set _ _ _ _

@[simp] theorem matStage_modStage (g st : Nat) (f : MatStage → MatStage) (s : State) :
    matStage (modStage g st f s) g st = f (matStage s g st) := matStage_setStage _ _ _ _

@[simp] theorem matPipe_setMatPipe (g : Nat) (v : MatPipe) (s : State) : matPipe (setMatPipe g v s) g = v := tabGet_set _ _ _ _

theorem matPipe_setMatPipe_ne {g k : Nat} (h : k ≠ g) (v : MatPipe) (s : State) : matPipe (setMatPipe g v s) k = matPipe s k :=
  tabGet_set_ne _ _ h

@[simp] theorem fwdPipe_modFwdPipe (g : Nat) (f : FwdPipe → FwdPipe) (s : State) : fwdPipe (modFwdPipe g f s) g = f (fwdPipe s g) :=
  tabGet_set _ _ _ _

/-! ### Detections and drops -/

section

variable (b k i : Nat) (contain : Bool → State → State) (s : State)

@[simp] theorem detect_mat : (detect b k i contain s).mat = (contain (injectedNow s b k i) s).mat := raiseFault_mat _ _ _ _ _

@[simp] theorem detect_fwd : (detect b k i contain s).fwd = (contain (injectedNow s b k i) s).fwd := raiseFault_fwd _ _ _ _ _

end

section

variable {g st u b : Nat} {s t : State}

/-- A frame dropped in a stage, after what counts nothing and changes no frame, is counted under MAT_INTEGRITY. -/
theorem stageDrop_counted (hp : (frameOf s u).pipe = g) (hfr : t.fr = s.fr) (htel : t.tel = s.tel) :
    counted (cSwcDrops 0x1A) (g / 16) 1 s (stageDrop u b t) := by
  have hcount : Counts [cMatIntegrity] s (count cMatIntegrity (frameOf t u).pipe 1 t) := Counts.count (counts_of_tel htel) List.mem_cons_self
  have hdrop := dropFrame_counted u 0x1A { detail := b } (count cMatIntegrity (frameOf t u).pipe 1 t)
  rw [frameOf_of_fr u s ((count_fr _ _ _ _).trans hfr), hp] at hdrop
  exact counts_then_counted hcount hdrop

theorem stageFrameDrop_counted (hp : (frameOf s u).pipe = g) (hat : atStage st (frameOf s u) = true) (hfr : t.fr = s.fr)
    (htel : t.tel = s.tel) : counted (cSwcDrops 0x1A) (g / 16) 1 s (stageFrameDrop g st b (some u) t) := by
  have hhere : ((frameOf t u).pipe == g && atStage st (frameOf t u)) = true := by simp [frameOf_of_fr u s hfr, hp, hat]
  have hdrop : stageFrameDrop g st b (some u) t = stageDrop u b t := if_pos hhere
  rw [hdrop]
  exact stageDrop_counted hp hfr htel

end

end Sys2Proof.Proofs
end

section
/-!
PROOFS. Faults of the match tables (O22): rows that are poisoned and rewritten, a bad descriptor and its reload, frames that hold a bad word,
and the statement from these.
-/

namespace Sys2Proof.Proofs

open Sys2Proof Sys2Proof.Machine Sys2Proof.Laws

/-! ### Rows of exact-match units -/

section

variable {g st unit row : Nat} {s : State}

theorem poisonExact_table (hfdb : fdbIndexOf s.tableProfile st unit row = none) (hlpm : lpmUnit s.tableProfile st unit = false) :
    poisonExact g st unit row s = modStage g st (fun v => { v with poisoned := exactCode unit row :: v.poisoned }) s := by
  simp [poisonExact, hfdb, hlpm]

theorem poisonExact_fdb {i : Nat} (hfdb : fdbIndexOf s.tableProfile st unit row = some i) :
    poisonExact g st unit row s = modFwdPipe g (fun v => { v with poisoned := i :: v.poisoned }) s := by
  simp [poisonExact, hfdb]

/-- One more error in a row poisons nothing. -/
theorem rowError_poisoned : (matStage (rowError g st unit row s) g st).poisoned = (matStage s g st).poisoned := by
  unfold rowError
  dsimp only
  split
  · rw [matStage_of_mat (kiln_mat _ _ _), matStage_setStage]
  · rw [matStage_setStage]

theorem rowError_inFlight : (rowError g st unit row s).flt.inFlight = s.flt.inFlight := by
  unfold rowError
  dsimp only
  split
  · exact kiln_flt_inFlight _ _ _
  · rfl

end

/-- The containment of MAT_EXACT before the drop of the frame that holds the bad word. -/
def exactContained (g st unit row : Nat) (s : State) : State := rowError g st unit row (poisonExact g st unit row s)

section

variable (g st unit row : Nat) (s : State)

theorem exactContained_fr : (exactContained g st unit row s).fr = s.fr :=
  ((keeps_rowError _ _ _ _ _).same .fr rfl).trans ((keeps_poisonExact _ _ _ _ _).same .fr rfl)

theorem exactContained_tel : (exactContained g st unit row s).tel = s.tel :=
  ((keeps_rowError _ _ _ _ _).same .tel rfl).trans ((keeps_poisonExact _ _ _ _ _).same .tel rfl)

theorem exactContained_inFlight : (exactContained g st unit row s).flt.inFlight = s.flt.inFlight :=
  rowError_inFlight.trans (congrArg FaultState.inFlight ((keeps_poisonExact _ _ _ _ _).same .flt rfl))

end

section

variable {g : Pipe} {st : StageNo} {unit : Fin 16} {row : Fin 4096} {s : State}

theorem exec_matExact (u : Option Nat) : exec (.matExact g st unit row u) s = .next (detect 14 6 (32 * g.val + st.val)
    (fun _ s => stageFrameDrop g.val st.val 14 u (exactContained g.val st.val unit.val row.val s)) s) := rfl

section

variable (hfdb : fdbIndexOf s.tableProfile st.val unit.val row.val = none) (hlpm : lpmUnit s.tableProfile st.val unit.val = false)
include hfdb hlpm

theorem matExact_table_completes : Completes (.matExact g st unit row none) s fun t =>
    exactCode unit.val row.val ∈ (matStage t g.val st.val).poisoned ∧ raised 14 6 (32 * g.val + st.val) s t := by
  refine ⟨_, exec_matExact none, ?_, raised_detect (fun _ => exactContained_inFlight _ _ _ _ _) _ _ _⟩
  have hpoisoned : (matStage (exactContained g.val st.val unit.val row.val s) g.val st.val).poisoned =
      exactCode unit.val row.val :: (matStage s g.val st.val).poisoned := by
    rw [exactContained, rowError_poisoned, poisonExact_table hfdb hlpm, matStage_modStage]
  rw [matStage_of_mat (detect_mat _ _ _ _ _)]
  exact hpoisoned ▸ List.mem_cons_self

theorem rowRewrite_table_completes : Completes (.rowRewrite g st (.exact unit row)) s fun t =>
    exactCode unit.val row.val ∉ (matStage t g.val st.val).poisoned := by
  have hexec : exec (.rowRewrite g st (.exact unit row)) s = .next (modStage g.val st.val
      (fun v => { v with poisoned := v.poisoned.filter (· != exactCode unit.val row.val) }) s) := by
    change execRowRewrite g st (.exact unit row) s = _
    simp [execRowRewrite, hfdb, hlpm]
  exact ⟨_, hexec, by simp⟩

end

section

variable {i : Nat} (hfdb : fdbIndexOf s.tableProfile st.val unit.val row.val = some i)
include hfdb

theorem matExact_fdb_completes : Completes (.matExact g st unit row none) s fun t =>
    i ∈ (fwdPipe t g.val).poisoned ∧ raised 14 6 (32 * g.val + st.val) s t := by
  refine ⟨_, exec_matExact none, ?_, raised_detect (fun _ => exactContained_inFlight _ _ _ _ _) _ _ _⟩
  have hpoisoned : (fwdPipe (exactContained g.val st.val unit.val row.val s) g.val).poisoned = i :: (fwdPipe s g.val).poisoned := by
    rw [exactContained, fwdPipe_of_fwd ((keeps_rowError _ _ _ _ _).same .fwd rfl), poisonExact_fdb hfdb, fwdPipe_modFwdPipe]
  rw [fwdPipe_of_fwd (detect_fwd _ _ _ _ _)]
  exact hpoisoned ▸ List.mem_cons_self

theorem rowRewrite_fdb_completes : Completes (.rowRewrite g st (.exact unit row)) s fun t => i ∉ (fwdPipe t g.val).poisoned := by
  have hexec : exec (.rowRewrite g st (.exact unit row)) s = .next (modFwdPipe g.val (fun v =>
      { v with poisoned := v.poisoned.filter (· != i), fdb := tabUpd i (fun x => rowHits x true true) v.fdb }) s) := by
    change execRowRewrite g st (.exact unit row) s = _
    simp only [execRowRewrite, hfdb]
  exact ⟨_, hexec, by simp⟩

end

theorem matExact_frame_completes {u : Nat} (hp : (frameOf s u).pipe = g.val) (hat : atStage st.val (frameOf s u) = true) :
    Completes (.matExact g st unit row (some u)) s fun t =>
      raisedLast 14 6 (32 * g.val + st.val) t ∧ counted (cSwcDrops 0x1A) (g.val / 16) 1 s t := by
  refine ⟨_, exec_matExact (some u), raisedLast_detect _ _ _ _ _, counted_detect (fun _ => ?_) _ _ _⟩
  exact stageFrameDrop_counted hp hat (exactContained_fr _ _ _ _ _) (exactContained_tel _ _ _ _ _)

end

/-! ### Rows of ternary blocks -/

section

variable {g : Pipe} {st : StageNo} {block : Fin 4} {row : Fin 1024} {s : State}

/-- The containment of a bad ternary or result row under code `k`: an LPM pivot's table is the LPM, any other row is poisoned. -/
def blockContained (g st block k : Nat) (s : State) : State :=
  if regionBlocks s.tableProfile st block then modFwdPipe g (fun v => { v with pivotBad := true }) s
  else modStage g st (fun v => { v with poisoned := k :: v.poisoned }) s

theorem blockContained_keeps (g st block k : Nat) (s : State) : Keeps [.mat, .fwd] s (blockContained g st block k s) := by
  unfold blockContained
  split
  · exact (keeps_modFwdPipe _ _ _).mono rfl
  · exact (keeps_modStage _ _ _ _).mono rfl

theorem exec_matTernary (u : Option Nat) : exec (.matTernary g st block row u) s = .next (detect 15 6 (32 * g.val + st.val)
    (fun _ s => stageFrameDrop g.val st.val 15 u (blockContained g.val st.val block.val (ternCode block.val row.val) s)) s) := rfl

theorem exec_matResult (u : Option Nat) : exec (.matResult g st block row u) s = .next (detect 16 6 (32 * g.val + st.val)
    (fun _ s => stageFrameDrop g.val st.val 16 u (blockContained g.val st.val block.val (resultCode block.val row.val) s)) s) := rfl

section

variable (hown : regionBlocks s.tableProfile st.val block.val = false)
include hown

/-- A row of the stage's own tables is poisoned by the detection of its bad word. -/
theorem detect_poisons (b k : Nat) :
    let t := detect b 6 (32 * g.val + st.val) (fun _ s => stageFrameDrop g.val st.val b none (blockContained g.val st.val block.val k s)) s
    k ∈ (matStage t g.val st.val).poisoned ∧ raised b 6 (32 * g.val + st.val) s t := by
  refine ⟨?_, raised_detect (fun _ => congrArg FaultState.inFlight ((blockContained_keeps _ _ _ _ _).same .flt rfl)) _ _ _⟩
  have hstage : blockContained g.val st.val block.val k s = modStage g.val st.val (fun v => { v with poisoned := k :: v.poisoned }) s :=
    if_neg (Bool.eq_false_iff.mp hown)
  have hpoisoned : (matStage (blockContained g.val st.val block.val k s) g.val st.val).poisoned = k :: (matStage s g.val st.val).poisoned := by
    rw [hstage, matStage_modStage]
  rw [matStage_of_mat (detect_mat _ _ _ _ _)]
  exact hpoisoned ▸ List.mem_cons_self

theorem matTernary_completes : Completes (.matTernary g st block row none) s fun t =>
    ternCode block.val row.val ∈ (matStage t g.val st.val).poisoned ∧ raised 15 6 (32 * g.val + st.val) s t :=
  ⟨_, exec_matTernary none, detect_poisons hown 15 _⟩

theorem matResult_completes : Completes (.matResult g st block row none) s fun t =>
    resultCode block.val row.val ∈ (matStage t g.val st.val).poisoned ∧ raised 16 6 (32 * g.val + st.val) s t :=
  ⟨_, exec_matResult none, detect_poisons hown 16 _⟩

theorem rowRewrite_ternary_completes : Completes (.rowRewrite g st (.ternary block row)) s fun t =>
    ternCode block.val row.val ∉ (matStage t g.val st.val).poisoned :=
  ⟨_, if_neg (Bool.eq_false_iff.mp hown), by simp⟩

theorem rowRewrite_result_completes : Completes (.rowRewrite g st (.result block row)) s fun t =>
    resultCode block.val row.val ∉ (matStage t g.val st.val).poisoned :=
  ⟨_, if_neg (Bool.eq_false_iff.mp hown), by simp⟩

end

theorem matTernary_frame_completes {u : Nat} (hp : (frameOf s u).pipe = g.val) (hat : atStage st.val (frameOf s u) = true) :
    Completes (.matTernary g st block row (some u)) s fun t =>
      raisedLast 15 6 (32 * g.val + st.val) t ∧ counted (cSwcDrops 0x1A) (g.val / 16) 1 s t := by
  refine ⟨_, exec_matTernary (some u), raisedLast_detect _ _ _ _ _, counted_detect (fun _ => ?_) _ _ _⟩
  exact stageFrameDrop_counted hp hat ((blockContained_keeps _ _ _ _ _).same .fr rfl) ((blockContained_keeps _ _ _ _ _).same .tel rfl)

end

/-! ### Descriptors and paths -/

section

variable {g : Pipe} {st : StageNo} {s : State}

theorem matDesc_completes : Completes (.matDesc g st none) s fun t =>
    (matStage t g.val st.val).reloading = true ∧ raised 17 6 (32 * g.val + st.val) s t ∧ logged 0x0603 t := by
  obtain ⟨-, hraised, hlogged⟩ := detect_logs 17 6 (32 * g.val + st.val) 0x0603 [(1, g.val), (1, st.val), (1, 17)]
    (f := modStage g.val st.val fun v => { v with reloading := true }) (s := s) rfl
  refine ⟨_, rfl, ?_, hraised, hlogged⟩
  rw [matStage_of_mat ((detect_mat _ _ _ _ _).trans (kilnInj_mat _ _ _ _)), matStage_modStage]

theorem stageReload_completes : Completes (.stageReload g st) s fun t =>
    (matStage t g.val st.val).reloading = false ∧ (matStage t g.val st.val).poisoned = [] := by
  refine ⟨_, rfl, ?_⟩
  beta_reduce
  rw [matStage_modStage]
  exact ⟨rfl, rfl⟩

theorem matPath_completes {u : Nat} (hp : (frameOf s u).pipe = g.val) (hhold : (frameOf s u).place = .hold) :
    Completes (.matPath g u) s fun t => raisedLast 18 5 g.val t ∧ counted (cSwcDrops 0x1A) (g.val / 16) 1 s t :=
  ⟨_, if_pos (by simp [hp, hhold]), raisedLast_detect _ _ _ _ _, counted_detect (fun _ => stageDrop_counted hp rfl rfl) _ _ _⟩

end

/-- Settles O22: a lemma for each fault and each repair. That 0x0603 is logged when MAT_DESC is detected and that MAT_RESULT poisons the row of
its result are the model's choices (assumptions 38 and 46). -/
theorem tableFaultsPoisonUntilRewritten : Obligations.TableFaultsPoisonUntilRewritten :=
  fun _ _ _ _ _ _ _ _ => ⟨fun hfdb hlpm => ⟨matExact_table_completes hfdb hlpm, rowRewrite_table_completes hfdb hlpm⟩,
    fun _ hfdb => ⟨matExact_fdb_completes hfdb, rowRewrite_fdb_completes hfdb⟩,
    fun hown => ⟨matTernary_completes hown, matResult_completes hown, rowRewrite_ternary_completes hown, rowRewrite_result_completes hown⟩,
    fun hp hat => ⟨matExact_frame_completes hp hat, matTernary_frame_completes hp hat⟩,
    matDesc_completes, stageReload_completes, matPath_completes⟩

end Sys2Proof.Proofs
end

section
/-!
PROOFS. Rules of decision trees and their walks: what a read of a tree or of a quadrant's walks returns after each update, and what the end
of a walk leaves and counts (R168 to R171).
-/

namespace Sys2Proof.Proofs

open Sys2Proof Sys2Proof.Machine Sys2Proof.Laws

section

variable {s t : State}

theorem treeOf_of_trees (h : t.mat.trees = s.mat.trees) (q n : Nat) : treeOf t q n = treeOf s q n := by rw [treeOf, h, treeOf]

theorem walksOf_of_mat (h : t.mat = s.mat) (q : Nat) : walksOf t q = walksOf s q := by rw [walksOf, h, walksOf]

theorem walkOf_of_mat (h : t.mat = s.mat) (q u : Nat) : walkOf t q u = walkOf s q u := by rw [walkOf, walksOf_of_mat h, walkOf]

end

@[simp] theorem treeOf_setTree (q n : Nat) (v : Tree) (s : State) : treeOf (setTree q n v s) q n = v := tabGet_set _ _ _ _

@[simp] theorem walksOf_setWalks (q : Nat) (l : List Walk) (s : State) : walksOf (setWalks q l s) q = l := tabGet_set _ _ _ _

/-! ### Walks that end (R168, R169) -/

/-- What is left after the finished walks at the head of a queue stood in it. -/
theorem finishedWalks_rest {w : Walk} (l : List Walk) (h : w ∈ (finishedWalks l).2) : w ∈ l := by
  induction l with
  | nil => exact h
  | cons x l ih =>
    unfold finishedWalks at h
    split at h
    · exact h
    · exact List.mem_cons_of_mem _ (ih h)

section

variable {q u st rule data : Nat} {s : State}

/-- Results that return take their walks off the queue and change no more of the match-action state. -/
theorem returnWalks_mat : (returnWalks q s).mat = (setWalks q (finishedWalks (walksOf s q)).2 s).mat := by
  unfold returnWalks
  exact foldl_keeps State.mat fun _ _ _ => rfl

theorem returnWalks_tel : (returnWalks q s).tel = s.tel := (keeps_returnWalks q s).same .tel rfl

/-- A frame whose walks have all ended walks no longer once results return. -/
theorem walkOf_returnWalks (h : ∀ w ∈ walksOf s q, w.frame = u → w.result.isSome = true) : walkOf (returnWalks q s) q u = none := by
  rw [walkOf_of_mat returnWalks_mat, walkOf, walksOf_setWalks, List.find?_eq_none]
  intro w hw
  by_cases hu : w.frame = u
  · simp [Option.isSome_iff_ne_none.mp (h w (finishedWalks_rest _ hw) hu)]
  · simp [hu]

theorem walkOf_endWalk : walkOf (endWalk q u st rule data s) q u = none := by
  unfold endWalk
  refine walkOf_returnWalks fun w hw hu => ?_
  have hended : w ∈ walksOf (setWalks q _ s) q := hw
  rw [walksOf_setWalks] at hended
  obtain ⟨x, -, rfl⟩ := List.mem_map.mp hended
  by_cases hx : (x.frame == u) = true
  · simp [hx]
  · rw [if_neg hx] at hu
    exact absurd (beq_iff_eq.mpr hu) hx

theorem endWalk_trees : (endWalk q u st rule data s).mat.trees = s.mat.trees := by
  unfold endWalk
  rw [returnWalks_mat]
  rfl

theorem endWalk_counted (h : apart (cTreeStatus st) cTreeWalks = true := by decide) :
    counted (cTreeStatus st) q 1 s (endWalk q u st rule data s) := by
  have hwalk : ∀ l, Counts [cTreeWalks] s (count cTreeWalks q 1 (setWalks q l s)) := fun _ => Counts.count (counts_of_tel rfl) List.mem_cons_self
  exact counted_then_same (counts_then_counted (hwalk _) (counted_count _ _ _ _) (by simpa using h)) returnWalks_tel

end

/-! ### Walks that go wrong (R187) -/

/-- `s` with tree `n` of quadrant `q` being rebuilt. -/
def treeRebuilt (q n : Nat) (s : State) : State :=
  if (treeOf s q n).building.isSome then s else setTree q n { treeOf s q n with building := some (treeRules s q n) } s

theorem building_treeRebuilt (q n : Nat) (s : State) : (treeOf (treeRebuilt q n s) q n).building.isSome = true := by
  unfold treeRebuilt
  split
  · next h => exact h
  · rw [treeOf_setTree]
    rfl

theorem treeRebuilt_tel (q n : Nat) (s : State) : (treeRebuilt q n s).tel = s.tel := by
  unfold treeRebuilt
  split <;> rfl

theorem treeRebuilt_flt (q n : Nat) (s : State) : (treeRebuilt q n s).flt = s.flt := by
  unfold treeRebuilt
  split <;> rfl

section

variable (q u n : Nat) (s : State)

theorem treeFault_eq : treeFault q u n s = detect 19 8 (16 * q + n) (fun _ s => endWalk q u 5 0 0 (treeRebuilt q n s)) s := rfl

/-- A walk that goes wrong is over. -/
theorem walkOf_treeFault : walkOf (treeFault q u n s) q u = none := by
  rw [treeFault_eq, walkOf_of_mat (detect_mat _ _ _ _ _), walkOf_endWalk]

theorem treeFault_counted : counted (cTreeStatus 5) q 1 s (treeFault q u n s) :=
  counted_detect (fun _ => counts_then_counted (l := []) (counts_of_tel (treeRebuilt_tel q n s)) endWalk_counted) _ _ _

theorem treeFault_raised : raised 19 8 (16 * q + n) s (treeFault q u n s) := by
  rw [treeFault_eq]
  refine raised_detect (fun _ => congrArg FaultState.inFlight ?_) _ _ _
  exact ((keeps_endWalk _ _ _ _ _ _).same .flt rfl).trans (treeRebuilt_flt q n s)

theorem treeFault_rebuilds : (treeOf (treeFault q u n s) q n).building.isSome = true := by
  have htrees : (treeFault q u n s).mat.trees = (treeRebuilt q n s).mat.trees :=
    (congrArg MatState.trees (detect_mat _ _ _ _ _)).trans endWalk_trees
  rw [treeOf_of_trees htrees, building_treeRebuilt]

end

end Sys2Proof.Proofs
end

section
/-!
PROOFS. Trees are built, swapped and walked (O24): the tree and rule objects, a build, its swap and the freeing of its old nodes, the returns
of node reads, walks that go wrong, and the statement from these.
-/

namespace Sys2Proof.Proofs

open Sys2Proof Sys2Proof.Machine Sys2Proof.Laws

/-! ### Objects and builds (R166, R170, R171) -/

section

variable {c : Cmd} {s : State}

theorem treeTableWrite_writes : Writes opTreeTableWrite c (.treeTableWrite c) s fun t =>
    (treeOf t (u8 (given c s) 0) (u8 (given c s) 1)).obj = putField (given c s) 8 8 0 ∧
    ∀ k, k ≠ 16 * u8 (given c s) 0 + u8 (given c s) 1 → tabGet {} t.mat.trees k = tabGet {} s.mat.trees k :=
  writes_of rfl fun _ => ⟨_, rfl, rfl, congrArg Tree.obj (treeOf_setTree _ _ _ (takenState c s)), fun _ h => tabGet_set_ne _ _ h⟩

/-- A valid rule is listed under its key, a rule with valid clear no longer. -/
theorem classifierRuleWrite_writes : Writes opClassifierRuleWrite c (.classifierRuleWrite c) s fun t =>
    let k := ruleKey (u8 (given c s) 0) (u8 (given c s) 1) (u32 (given c s) 4)
    tabFind t.mat.rules k = (if bit (u8 (given c s) 10) 0 = true then some ((given c s).drop 8) else none) ∧
    ∀ j, j ≠ k → tabFind t.mat.rules j = tabFind s.mat.rules j := by
  refine writes_of rfl fun _ => ⟨_, rfl, rfl, ?_⟩
  dsimp only [endCommand, modHost, modMat]
  split
  · exact ⟨tabFind_put _ _ _, fun _ h => tabFind_put_ne _ _ h⟩
  · exact ⟨tabFind_del _ _, fun _ h => tabFind_del_ne _ h⟩

theorem treeCommit_completes (h : (treeOf s (u8 (given c s) 0) (u8 (given c s) 1)).building = none) (hp : passes opTreeCommit c s = true) :
    Completes (.treeCommit c) s fun t =>
      answered opTreeCommit c .pending (toLe 4 (((treeOf s (u8 (given c s) 0) (u8 (given c s) 1)).generation + 1) % 2 ^ 32)) [] s t ∧
      (treeOf t (u8 (given c s) 0) (u8 (given c s) 1)).building = some (treeRules s (u8 (given c s) 0) (u8 (given c s) 1)) := by
  have hidle : ¬ (treeOf (takenState c s) (u8 (given c s) 0) (u8 (given c s) 1)).building.isSome = true :=
    fun hb => Bool.false_ne_true ((congrArg Option.isSome h).symm.trans hb)
  exact ⟨_, congrArg Host.Outcome.next (icoux_done hp (if_neg hidle)), answered_endCommand rfl rfl rfl,
    congrArg Tree.building (treeOf_setTree _ _ _ (takenState c s))⟩

end

section

variable {q : Quad} {n : Fin 16} {root : Nat} {rules : Store Bytes} {s : State}

section

variable (h : (treeOf s q.val n.val).building = some rules)
include h

theorem treeSwap_succeeds_completes : Completes (.treeSwap q n true root) s fun t =>
    (treeOf t q.val n.val).built = rules ∧ (treeOf t q.val n.val).building = none ∧
    (treeOf t q.val n.val).generation = ((treeOf s q.val n.val).generation + 1) % 2 ^ 32 ∧
    (treeOf t q.val n.val).swappedAt = some s.now ∧ logged 0x0605 t := by
  have hexec : exec (.treeSwap q n true root) s =
      .next (kiln 0x0605 [(1, q.val), (1, n.val), (4, wrapAdd 32 (treeOf s q.val n.val).generation 1)] (setTree q.val n.val
        { treeOf s q.val n.val with generation := wrapAdd 32 (treeOf s q.val n.val).generation 1, root := root % 2 ^ 24, built := rules,
                                    building := none, swappedAt := some s.now } s)) := by
    change execTreeSwap q n true root s = _
    simp only [execTreeSwap, h, if_true]
  refine ⟨_, hexec, ?_⟩
  beta_reduce
  rw [treeOf_of_trees (congrArg MatState.trees (kiln_mat _ _ _)), treeOf_setTree]
  exact ⟨rfl, rfl, rfl, rfl, kiln_head _ _ _⟩

/-- Node space ran out: the old generation stays. -/
theorem treeSwap_fails_completes : Completes (.treeSwap q n false root) s fun t =>
    (treeOf t q.val n.val).built = (treeOf s q.val n.val).built ∧ (treeOf t q.val n.val).generation = (treeOf s q.val n.val).generation ∧
    (treeOf t q.val n.val).building = none ∧ logged 0x0606 t := by
  have hexec : exec (.treeSwap q n false root) s = .next (kiln 0x0606 [(1, q.val), (1, n.val), (2, statusCode .nores)]
      (setTree q.val n.val { treeOf s q.val n.val with building := none } s)) := by
    change execTreeSwap q n false root s = _
    simp only [execTreeSwap, h, Bool.false_eq_true, if_false]
  refine ⟨_, hexec, ?_⟩
  beta_reduce
  rw [treeOf_of_trees (congrArg MatState.trees (kiln_mat _ _ _)), treeOf_setTree]
  exact ⟨rfl, rfl, rfl, kiln_head _ _ _⟩

end

theorem treeNodesFreed_completes {a : Nat} (h : (treeOf s q.val n.val).swappedAt = some a) : Completes (.treeNodesFreed q n) s fun t =>
    (treeOf t q.val n.val).swappedAt = none ∧ a + 20 * tUs ≤ t.now := by
  have hexec : exec (.treeNodesFreed q n) s =
      .next (setTree q.val n.val { treeOf s q.val n.val with swappedAt := none } (reach (a + 20 * tUs) s)) := by
    change execTreeNodesFreed q n s = _
    simp only [execTreeNodesFreed, h]
  exact ⟨_, hexec, congrArg Tree.swappedAt (treeOf_setTree _ _ _ _), le_reach_now _ s⟩

end

/-! ### Node reads (R168) -/

/-- The walk `w` of frame `u` with one more node read; its first read begins it (the model's choice, assumption 52). -/
def walkDeeper (q u : Nat) (w : Walk) (s : State) : Walk := { startWalk s q u w with depth := (startWalk s q u w).depth + 1 }

/-- `s` in which a node of frame `u`'s walk `w` has returned, with `reads` reads made. -/
def nodeReturned (q u reads : Nat) (w : Walk) (s : State) : State :=
  spendPipe (frameOf s u).pipe 1 4 reads (useBeats q 2 reads (count cTreeReads q reads
    (setWalks q ((walksOf s q).map fun x => if x.frame == u then walkDeeper q u w s else x) s)))

section

variable (q u reads : Nat) (w : Walk) (s : State)

theorem startWalk_depth : (startWalk s q u w).depth = w.depth := by
  unfold startWalk
  split <;> rfl

theorem startWalk_tree : (startWalk s q u w).tree = w.tree := by
  unfold startWalk
  split <;> rfl

theorem startWalk_frame : (startWalk s q u w).frame = w.frame := by
  unfold startWalk
  split <;> rfl

theorem startWalk_result : (startWalk s q u w).result = w.result := by
  unfold startWalk
  split <;> rfl

theorem nodeReturned_counts : Counts [cTreeReads, cDramBeats 2] s (nodeReturned q u reads w s) := by
  have hread : ∀ l, Counts [cTreeReads, cDramBeats 2] s (count cTreeReads q reads (setWalks q l s)) := fun _ =>
    Counts.count (counts_of_tel rfl) List.mem_cons_self
  have hbeats : ∀ t, Counts [cTreeReads, cDramBeats 2] t (useBeats q 2 reads t) := fun t => by
    unfold useBeats
    exact Counts.count (counts_of_tel rfl) (List.mem_cons_of_mem _ List.mem_cons_self)
  exact ((hread _).trans (hbeats _)).trans (counts_of_keeps (keeps_spendPipe _ _ _ _ _))

/-- The walk of a frame goes one node deeper. -/
theorem walkOf_nodeReturned (h : walkOf s q u = some w) : walkOf (nodeReturned q u reads w s) q u = some (walkDeeper q u w s) := by
  have hwalks : walksOf (nodeReturned q u reads w s) q = (walksOf s q).map fun x => if x.frame == u then walkDeeper q u w s else x := by
    rw [nodeReturned, walksOf_of_mat (((keeps_spendPipe _ _ _ _ _).same .mat rfl).trans ((keeps_useBeats _ _ _ _).same .mat rfl)),
      walksOf_of_mat (count_mat _ _ _ _), walksOf_setWalks]
  have hw := List.find?_some h
  simp only [Bool.and_eq_true, beq_iff_eq] at hw
  have hdeeper : (walkDeeper q u w s).frame = u ∧ (walkDeeper q u w s).result.isNone = true := by
    refine ⟨(startWalk_frame q u w s).trans hw.1, ?_⟩
    rw [← hw.2, ← startWalk_result q u w s]
    rfl
  have hfirst : ∀ l : List Walk, w ∈ l → (l.map fun x => if x.frame == u then walkDeeper q u w s else x).find?
      (fun x => x.frame == u && x.result.isNone) = some (walkDeeper q u w s) := by
    intro l hl
    induction l with
    | nil => cases hl
    | cons x l ih =>
      by_cases hx : x.frame = u
      · simp [hx, hdeeper]
      · have hmem : w ∈ l := (List.mem_cons.mp hl).resolve_left fun e => hx (e ▸ hw.1)
        simpa [hx] using ih hmem
  rw [walkOf, hwalks]
  exact hfirst _ (List.mem_of_find?_eq_some h)

end

section

variable {u : Nat} {rules : Fin 17} {w : Walk} {s : State} (hw : walkOf s (quadOfPipe (frameOf s u).pipe) u = some w)
include hw

section

variable (hr : (bufQuad s (quadOfPipe (frameOf s u).pipe)).retrain = none)
include hr

/-- An inner node ends the walk at depth 16 and else takes it on. -/
theorem exec_treeNodeReadReturn_inner : exec (.treeNodeReadReturn u 1 rules) s =
    .next (if w.depth + 1 = 16 then endWalk (quadOfPipe (frameOf s u).pipe) u 4 0 0 (nodeReturned (quadOfPipe (frameOf s u).pipe) u 1 w s)
      else nodeReturned (quadOfPipe (frameOf s u).pipe) u 1 w s) := by
  change execTreeNodeReadReturn u 1 rules s = _
  simp only [execTreeNodeReadReturn, hw, hr, startWalk_depth, beq_iff_eq]
  simp [nodeReturned, walkDeeper, startWalk_depth]

/-- A leaf ends the walk with the best rule of its generation, if one matches (the model's choice, assumption 41). -/
theorem exec_treeNodeReadReturn_leaf : ∃ rule data, exec (.treeNodeReadReturn u 2 rules) s =
    let walk := startWalk s (quadOfPipe (frameOf s u).pipe) u w
    .next (endWalk (quadOfPipe (frameOf s u).pipe) u (if (bestRule walk.rules walk.key).isSome then 1 else 2) rule data
      (nodeReturned (quadOfPipe (frameOf s u).pipe) u (1 + 2 * rules.val) w s)) := by
  change ∃ rule data, execTreeNodeReadReturn u 2 rules s = _
  simp only [execTreeNodeReadReturn, hw, hr]
  cases hbest : bestRule (startWalk s (quadOfPipe (frameOf s u).pipe) u w).rules (startWalk s (quadOfPipe (frameOf s u).pipe) u w).key with
  | none => exact ⟨0, 0, rfl⟩
  | some r => exact ⟨r.1, u32 r.2 4, rfl⟩

/-- A bad node ends the walk as an error. -/
theorem exec_treeNodeReadReturn_error : exec (.treeNodeReadReturn u 3 rules) s =
    .next (treeFault (quadOfPipe (frameOf s u).pipe) u w.tree (nodeReturned (quadOfPipe (frameOf s u).pipe) u 1 w s)) := by
  change execTreeNodeReadReturn u 3 rules s = _
  simp [execTreeNodeReadReturn, hw, hr, startWalk_tree, nodeReturned, walkDeeper]

theorem treeNodeReadReturn_deeper_completes (hd : w.depth ≠ 15) : Completes (.treeNodeReadReturn u 1 rules) s fun t =>
    ∃ x, walkOf t (quadOfPipe (frameOf s u).pipe) u = some x ∧ x.depth = w.depth + 1 := by
  refine ⟨_, (exec_treeNodeReadReturn_inner hw hr).trans (congrArg Host.Outcome.next (if_neg (by omega))), _, walkOf_nodeReturned _ u 1 w s hw, ?_⟩
  rw [walkDeeper, startWalk_depth]

theorem treeNodeReadReturn_depth_completes (hd : w.depth = 15) : Completes (.treeNodeReadReturn u 1 rules) s fun t =>
    walkOf t (quadOfPipe (frameOf s u).pipe) u = none ∧ counted (cTreeStatus 4) (quadOfPipe (frameOf s u).pipe) 1 s t := by
  refine ⟨_, (exec_treeNodeReadReturn_inner hw hr).trans (congrArg Host.Outcome.next (if_pos (by omega))), walkOf_endWalk, ?_⟩
  exact counts_then_counted (nodeReturned_counts _ _ _ _ _) endWalk_counted

theorem treeNodeReadReturn_leaf_completes : Completes (.treeNodeReadReturn u 2 rules) s fun t =>
    let walk := startWalk s (quadOfPipe (frameOf s u).pipe) u w
    walkOf t (quadOfPipe (frameOf s u).pipe) u = none ∧
    counted (cTreeStatus (if (bestRule walk.rules walk.key).isSome then 1 else 2)) (quadOfPipe (frameOf s u).pipe) 1 s t := by
  obtain ⟨rule, data, hexec⟩ := exec_treeNodeReadReturn_leaf (rules := rules) hw hr
  refine ⟨_, hexec, walkOf_endWalk, ?_⟩
  have hread := nodeReturned_counts (quadOfPipe (frameOf s u).pipe) u (1 + 2 * rules.val) w s
  split
  · exact counts_then_counted hread endWalk_counted
  · exact counts_then_counted hread endWalk_counted

theorem treeNodeReadReturn_error_completes : Completes (.treeNodeReadReturn u 3 rules) s fun t =>
    walkOf t (quadOfPipe (frameOf s u).pipe) u = none ∧ counted (cTreeStatus 5) (quadOfPipe (frameOf s u).pipe) 1 s t ∧
    raisedLast 19 8 (16 * quadOfPipe (frameOf s u).pipe + w.tree) t := by
  refine ⟨_, exec_treeNodeReadReturn_error hw hr, walkOf_treeFault _ _ _ _, ?_, raisedLast_detect _ _ _ _ _⟩
  exact counts_then_counted (nodeReturned_counts _ _ _ _ _) (treeFault_counted _ _ _ _)

end

/-! ### Walks that go wrong (R168, R187) -/

theorem treeWalkTimeout_completes : Completes (.treeWalkTimeout u) s fun t =>
    walkOf t (quadOfPipe (frameOf s u).pipe) u = none ∧ counted (cTreeStatus 5) (quadOfPipe (frameOf s u).pipe) 1 s t ∧
    raised 19 8 (16 * quadOfPipe (frameOf s u).pipe + w.tree) s t ∧ w.began.getD s.now + 20 * tUs ≤ t.now ∧
    (treeOf t (quadOfPipe (frameOf s u).pipe) w.tree).building.isSome = true := by
  have hexec : exec (.treeWalkTimeout u) s =
      .next (treeFault (quadOfPipe (frameOf s u).pipe) u w.tree (reach (w.began.getD s.now + 20 * tUs) s)) := by
    change execTreeWalkTimeout u s = _
    simp only [execTreeWalkTimeout, hw]
  have hraised : raised 19 8 (16 * quadOfPipe (frameOf s u).pipe + w.tree) (reach (w.began.getD s.now + 20 * tUs) s)
      (treeFault (quadOfPipe (frameOf s u).pipe) u w.tree (reach (w.began.getD s.now + 20 * tUs) s)) := treeFault_raised _ _ _ _
  refine ⟨_, hexec, walkOf_treeFault _ _ _ _, ?_, hraised, ?_, treeFault_rebuilds _ _ _ _⟩
  · exact counts_then_counted (l := []) (counts_of_tel (reach_tel _ _)) (treeFault_counted _ _ _ _)
  · rw [(keeps_treeFault _ _ _ _).same .now rfl]
    exact le_reach_now _ s

theorem matTree_completes {k : Quad} (hk : k.val = quadOfPipe (frameOf s u).pipe) : Completes (.matTree k u) s fun t =>
    walkOf t (quadOfPipe (frameOf s u).pipe) u = none ∧ counted (cTreeStatus 5) (quadOfPipe (frameOf s u).pipe) 1 s t ∧
    raised 19 8 (16 * quadOfPipe (frameOf s u).pipe + w.tree) s t ∧
    (treeOf t (quadOfPipe (frameOf s u).pipe) w.tree).building.isSome = true := by
  have hexec : exec (.matTree k u) s = .next (treeFault (quadOfPipe (frameOf s u).pipe) u w.tree s) := by
    change execMatTree k u s = _
    simp only [execMatTree, hk, hw]
  exact ⟨_, hexec, walkOf_treeFault _ _ _ _, treeFault_counted _ _ _ _, treeFault_raised _ _ _ _, treeFault_rebuilds _ _ _ _⟩

end

/-- Settles O24: a lemma for each object, each step of a build and each end of a walk. That a walk ends with the best rule of the build it
walks, that node types are operands, and that a walk begins at its first read are the model's choices (assumptions 41 and 52). -/
theorem treesAreBuiltSwappedAndWalked : Obligations.TreesAreBuiltSwappedAndWalked :=
  ⟨fun _ _ _ _ _ _ => ⟨reads_of rfl fun _ => rfl, treeTableWrite_writes, reads_of rfl fun _ => rfl, classifierRuleWrite_writes,
      treeCommit_completes, fun h => ⟨treeSwap_succeeds_completes h, treeSwap_fails_completes h⟩, fun _ => treeNodesFreed_completes⟩,
    fun _ _ _ _ hw => ⟨fun hr => ⟨treeNodeReadReturn_deeper_completes hw hr, treeNodeReadReturn_depth_completes hw hr,
        treeNodeReadReturn_leaf_completes hw hr, treeNodeReadReturn_error_completes hw hr⟩,
      treeWalkTimeout_completes hw, fun _ => matTree_completes hw⟩⟩

end Sys2Proof.Proofs
end

section
/-!
PROOFS. Rule batches and quiesces (O23): entries that join a batch, its commit and its abort, the three steps of a quiesce, and the statement
from these.
-/

namespace Sys2Proof.Proofs

open Sys2Proof Sys2Proof.Machine Sys2Proof.Laws

/-! ### Rule batches (R172 to R175, R181, R516) -/

/-- Every part of a batch in the pipelines of `ps` waits there for its quiesce. -/
def partsQueued (seq : Nat) (ps : List (Nat × List (List MatWrite))) (s : State) : State :=
  ps.foldl (fun s p => setMatPipe p.1 { matPipe s p.1 with
    parts := (matPipe s p.1).parts ++ p.2.map fun ws => { seq, writes := ws } } s) s

/-- `s` in which the batch `ps` of session `i` is on its way to its pipelines, and the session has no batch open. -/
def batchTaken (i : Nat) (ps : List (Nat × List (List MatWrite))) (s : State) : State :=
  modMat (fun m => { m with nextSeq := wrapAdd 32 m.nextSeq 1, openBatch := tabDel i m.openBatch }) (partsQueued s.mat.nextSeq ps s)

/-- `s` in which that batch is committed; one of more than one part in a pipeline is logged. -/
def batchCommitted (i parts : Nat) (ps : List (Nat × List (List MatWrite))) (s : State) : State :=
  if parts > 1 then kiln 0x0601 [(4, s.mat.nextSeq), (4, parts)] (batchTaken i ps s) else batchTaken i ps s

section

variable (i seq parts : Nat) (ps : List (Nat × List (List MatWrite))) (s : State)

theorem partsQueued_host : (partsQueued seq ps s).host = s.host := by
  unfold partsQueued
  exact foldl_keeps State.host fun _ _ _ => rfl

theorem partsQueued_nextSeq : (partsQueued seq ps s).mat.nextSeq = s.mat.nextSeq := by
  unfold partsQueued
  exact foldl_keeps (fun s : State => s.mat.nextSeq) fun _ _ _ => rfl

theorem batchCommitted_host : (batchCommitted i parts ps s).host = s.host := by
  unfold batchCommitted
  split
  · exact (kiln_host _ _ _).trans (partsQueued_host _ _ _)
  · exact partsQueued_host _ _ _

theorem batchCommitted_mat : (batchCommitted i parts ps s).mat = (batchTaken i ps s).mat := by
  unfold batchCommitted
  split
  · exact kiln_mat _ _ _
  · rfl

theorem batchCommitted_openBatch : openBatch (batchCommitted i parts ps s) i = [] := by
  rw [openBatch, batchCommitted_mat]
  exact congrArg (Option.getD · []) (tabFind_del i (partsQueued s.mat.nextSeq ps s).mat.openBatch)

theorem batchCommitted_nextSeq : (batchCommitted i parts ps s).mat.nextSeq = (s.mat.nextSeq + 1) % 2 ^ 32 := by
  rw [batchCommitted_mat, ← partsQueued_nextSeq s.mat.nextSeq ps s]
  rfl

theorem batchCommitted_logs (h : 1 < parts) : logged 0x0601 (batchCommitted i parts ps s) := by
  rw [batchCommitted, if_pos h]
  exact kiln_head _ _ _

/-- The parts of a batch for one pipeline wait there behind those before them. -/
theorem batchCommitted_parts (g : Nat) (ws : List (List MatWrite)) : (matPipe (batchCommitted i parts [(g, ws)] s) g).parts =
    (matPipe s g).parts ++ ws.map fun w => { seq := s.mat.nextSeq, writes := w } := by
  rw [matPipe_of_mat (batchCommitted_mat _ _ _ _)]
  exact congrArg MatPipe.parts (matPipe_setMatPipe g _ s)

end

/-- The checks of a batch see the match-action state alone. -/
theorem checkBatch_of_mat {s t : State} (h : t.mat = s.mat) (es : List Bytes) (gs : List Nat) : checkBatch t es gs = checkBatch s es gs := by
  induction gs with
  | nil => rfl
  | cons g gs ih => rw [checkBatch, checkBatch, ih, stagesToBe, stagesToBe, matPipe_of_mat h, h]

section

variable {c : Cmd} {s : State}

theorem ruleAdd_completes
    (hlen : (openBatch s c.slot.val ++ (List.range ((given c s).length / 80)).map fun k => slice (given c s) (80 * k) 80).length ≤ 65536)
    (hp : passes (opRuleAdd ((given c s).length / 80)) c s = true) : Completes (.ruleAdd c) s fun t =>
      let all := openBatch s c.slot.val ++ (List.range ((given c s).length / 80)).map fun k => slice (given c s) (80 * k) 80
      answered (opRuleAdd ((given c s).length / 80)) c .ok (toLe 4 all.length) [] s t ∧ openBatch t c.slot.val = all :=
  ⟨_, congrArg Host.Outcome.next (icoux_done hp (if_neg (Nat.not_lt_of_le hlen))), answered_endCommand rfl rfl rfl, tabGet_set _ _ _ _⟩

theorem ruleBatchAbort_completes (hp : passes opRuleBatchAbort c s = true) : Completes (.ruleBatchAbort c) s fun t =>
    answered opRuleBatchAbort c .ok (toLe 4 (openBatch s c.slot.val).length) [] s t ∧ openBatch t c.slot.val = [] :=
  ⟨_, congrArg Host.Outcome.next (icoux_done hp rfl), answered_endCommand rfl rfl rfl,
    congrArg (Option.getD · []) (tabFind_del c.slot.val s.mat.openBatch)⟩

/-- Without an open batch a commit fails for no one field (the model's choice, assumption 165). -/
theorem ruleBatch_empty_completes (h : openBatch s c.slot.val = []) (hp : passes opRuleBatch c s = true) :
    Completes (.ruleBatch c) s fun t => answered opRuleBatch c .state (batchFailure 0 0 0xFFFF) [] s t ∧ t.mat = s.mat := by
  have hempty : (openBatch (takenState c s) c.slot.val).isEmpty = true := congrArg List.isEmpty h
  exact ⟨_, congrArg Host.Outcome.next (icoux_fail hp (if_pos hempty)), answered_endCommand rfl rfl rfl, rfl⟩

section

variable {ps : List (Nat × List (List MatWrite))} (hopen : openBatch s c.slot.val ≠ [])
  (hcount : (openBatch s c.slot.val).length = u32 (given c s) 12) (hmax : u32 (given c s) 12 ≤ 65536)
  (happly : applyPending s (u64 (given c s) 0) = false)
  (hcheck : checkBatch s (openBatch s c.slot.val) (maskBits 64 (u64 (given c s) 0)) = .ok ps)
  (hatomic : (bit (u8 (given c s) 8) 0 && decide (1 < (ps.map fun p => p.2.length).foldl max 0)) = false)
  (hp : passes opRuleBatch c s = true)
include hopen hcount hmax happly hcheck hatomic hp

/-- A batch that every check admits is committed. -/
theorem exec_ruleBatch : exec (.ruleBatch c) s = .next
    (let parts := (ps.map fun p => p.2.length).foldl max 0
     endCommand (endedOf opRuleBatch (effectiveCmd c s) .ok (toLe 4 s.mat.nextSeq ++ toLe 2 parts) [] false)
      (batchCommitted c.slot.val parts ps (takenState c s))) := by
  have hsome : ¬ (openBatch (takenState c s) c.slot.val).isEmpty = true := by
    rw [List.isEmpty_iff]
    exact hopen
  have hpos : ¬ (u32 (given c s) 12 == 0) = true := by
    rw [beq_iff_eq, ← hcount, List.length_eq_zero_iff]
    exact hopen
  have hlen : ¬ ((openBatch (takenState c s) c.slot.val).length != u32 (given c s) 12) = true := by
    rw [bne_iff_ne, not_not]
    exact hcount
  have hidle : ¬ applyPending (takenState c s) (u64 (given c s) 0) = true := Bool.eq_false_iff.mp happly
  have hok : checkBatch (takenState c s) (openBatch (takenState c s) c.slot.val) (maskBits 64 (u64 (given c s) 0)) = .ok ps :=
    (checkBatch_of_mat (s := s) (t := takenState c s) rfl _ _).trans hcheck
  refine congrArg Host.Outcome.next (icoux_done hp ((if_neg hsome).trans ((if_neg hpos).trans ((if_neg (Nat.not_lt_of_le hmax)).trans
    ((if_neg hlen).trans ((if_neg hidle).trans ?_))))))
  rw [hok]
  exact if_neg (Bool.eq_false_iff.mp hatomic)

theorem ruleBatch_completes : Completes (.ruleBatch c) s fun t =>
    let parts := (ps.map fun p => p.2.length).foldl max 0
    answered opRuleBatch c .ok (toLe 4 s.mat.nextSeq ++ toLe 2 parts) [] s t ∧ openBatch t c.slot.val = [] ∧
    t.mat.nextSeq = (s.mat.nextSeq + 1) % 2 ^ 32 ∧ (1 < parts → logged 0x0601 t) ∧
    (∀ g ws, ps = [(g, ws)] → (matPipe t g).parts = (matPipe s g).parts ++ ws.map fun w => { seq := s.mat.nextSeq, writes := w }) := by
  refine ⟨_, exec_ruleBatch hopen hcount hmax happly hcheck hatomic hp, ?_, batchCommitted_openBatch _ _ _ _, batchCommitted_nextSeq _ _ _ _,
    batchCommitted_logs _ _ _ _, ?_⟩
  · exact answered_endCommand (congrArg HostState.ended (batchCommitted_host _ _ _ (takenState c s)) :) rfl rfl
  · rintro g ws rfl
    exact batchCommitted_parts _ _ (takenState c s) g ws

end

end

/-! ### Quiesces (R176 to R178) -/

/-- A pipeline at the end of a quiesce's window of `clocks` clocks: the part is in force under the next epoch, and `undo` puts the contents
before it back. -/
def partApplied (clocks : Nat) (part : BatchPart) (rest : List BatchPart) (undo : List MatWrite) (p : MatPipe) : MatPipe :=
  { p with
    parts := rest, quiesce := .none, retired := some undo, epoch := p.epoch + 1, appliedSeq := part.seq
    appliedParts := if part.seq == p.appliedSeq then p.appliedParts + 1 else 1
    lastWindow := clocks, maxWindow := max p.maxWindow clocks }

section

variable {g : Pipe} {s : State}

section

variable {part : BatchPart} {rest : List BatchPart} (hparts : (matPipe s g.val).parts = part :: rest)
include hparts

/-- A pipeline that is open and holds no frame back stops for its next part. -/
theorem quiesceStart_completes (hret : (matPipe s g.val).retired = none) (hopen : pipeClosed s g.val = false)
    (hhold : framesAt s g.val .hold = []) : Completes (.quiesceStart g) s fun t =>
      (matPipe t g.val).quiesce = .stopped ∧ (matPipe t g.val).parts = part :: rest := by
  refine ⟨_, if_neg (by simp [hparts, hret, hopen, hhold]), ?_⟩
  beta_reduce
  rw [matPipe_setMatPipe]
  exact ⟨rfl, hparts⟩

theorem exec_quiesceWrite {clocks : Fin 321} (hstop : (matPipe s g.val).quiesce = .stopped) (hstill : routinesStill s g.val = true) :
    exec (.quiesceWrite g clocks) s = .next (count cMatParts g.val 1 (count cMatQuiesces g.val 1 (setMatPipe g.val
      (partApplied clocks.val part rest (makeWrites g.val part.writes s).1 (matPipe s g.val)) (makeWrites g.val part.writes s).2))) := by
  change execQuiesceWrite g clocks s = _
  simp [execQuiesceWrite, hparts, hstop, hstill, partApplied]

theorem quiesceWrite_completes {clocks : Fin 321} (hstop : (matPipe s g.val).quiesce = .stopped) (hstill : routinesStill s g.val = true) :
    Completes (.quiesceWrite g clocks) s fun t =>
      (matPipe t g.val).parts = rest ∧ (matPipe t g.val).quiesce = .none ∧ (matPipe t g.val).retired.isSome = true ∧
      (matPipe t g.val).epoch = (matPipe s g.val).epoch + 1 ∧ (matPipe t g.val).appliedSeq = part.seq ∧
      (matPipe t g.val).lastWindow = clocks.val ∧ counted cMatQuiesces g.val 1 s t := by
  refine ⟨_, exec_quiesceWrite hparts hstop hstill, ?_⟩
  beta_reduce
  rw [matPipe_of_mat ((count_mat _ _ _ _).trans (count_mat _ _ _ _)), matPipe_setMatPipe]
  refine ⟨rfl, rfl, rfl, rfl, rfl, rfl, ?_⟩
  have hwritten : ∀ p, Counts [] s (setMatPipe g.val p (makeWrites g.val part.writes s).2) := fun _ =>
    counts_of_keeps ((keeps_makeWrites _ _ _).trans (keeps_setMatPipe _ _ _))
  have hquiesced := counts_then_counted (hwritten (partApplied clocks.val part rest (makeWrites g.val part.writes s).1 (matPipe s g.val)))
    (counted_count cMatQuiesces g.val 1 _)
  exact counted_then_counts (l := [cMatParts]) hquiesced (Counts.count Counts.refl List.mem_cons_self)

end

/-- The old contents go once no frame of an old epoch is in the stages. -/
theorem retiredBufferRelease_completes
    (h : (s.fr.frames.all fun e => !(e.2.pipe == g.val && oldEpoch (matPipe s g.val) e.2)) = true) :
    Completes (.retiredBufferRelease g) s fun t => (matPipe t g.val).retired = none ∧ (matPipe t g.val).epoch = (matPipe s g.val).epoch := by
  have hnone : ¬ (s.fr.frames.any fun e => e.2.pipe == g.val && oldEpoch (matPipe s g.val) e.2) = true := by
    rw [List.any_eq_not_all_not, h]
    exact Bool.false_ne_true
  refine ⟨_, if_neg hnone, ?_⟩
  beta_reduce
  rw [matPipe_setMatPipe]
  exact ⟨rfl, rfl⟩

end

/-- Settles O23: a lemma for each command of a batch and each step of a quiesce. That a failed commit's bytes 0 to 4 are zero where no entry is
at fault is the model's choice (assumption 165). -/
theorem ruleBatchesAndQuiesceApply : Obligations.RuleBatchesAndQuiesceApply :=
  ⟨fun _ _ _ => ⟨ruleAdd_completes, ruleBatch_completes, ruleBatch_empty_completes, ruleBatchAbort_completes, reads_of rfl fun _ => rfl⟩,
    fun _ _ _ _ _ => ⟨fun hparts => ⟨quiesceStart_completes hparts, quiesceWrite_completes hparts⟩, retiredBufferRelease_completes⟩⟩

end Sys2Proof.Proofs
end

section
/-!
PROOFS. Frames pass the stages (O20): a frame in the device after an update in its place, the lookups of a stage that reads no forwarding
table, frames that enter a stage and leave it, and the statement from these.
-/

namespace Sys2Proof.Proofs

open Sys2Proof Sys2Proof.Machine Sys2Proof.Laws

/-! ### Frames in their place -/

theorem tabFind_upd_map {α : Type} (k : Nat) (f : α → α) (m : Store α) : tabFind (tabUpd k f m) k = (tabFind m k).map f := by
  induction m with
  | nil => rfl
  | cons e m ih =>
    obtain ⟨j, w⟩ := e
    by_cases hj : (j == k) = true
    · simp [tabUpd, tabFind, hj]
    · rw [tabUpd, if_neg hj, tabFind, if_neg hj, tabFind, if_neg hj, ih]

/-- Frame `u`, if it is in the device, but for its containers. -/
def bareFrame (u : Nat) (s : State) : Option Frame := (tabFind s.fr.frames u).map fun v => { v with hdr := [] }

theorem bareFrame_of_fr {u : Nat} {s t : State} (h : t.fr = s.fr) : bareFrame u t = bareFrame u s := by rw [bareFrame, h, bareFrame]

theorem bareFrame_modFrame {f : Frame → Frame} (h : ∀ v, { f v with hdr := [] } = { v with hdr := [] }) (u : Nat) (s : State) :
    bareFrame u (modFrame u f s) = bareFrame u s := by
  have hframe : tabFind (modFrame u f s).fr.frames u = (tabFind s.fr.frames u).map f := tabFind_upd_map u f s.fr.frames
  rw [bareFrame, hframe, Option.map_map]
  exact congrArg (Option.map · _) (funext h)

/-- A frame of which only containers have changed. -/
theorem tabFind_of_bareFrame {u : Nat} {v : Frame} {s t : State} (hv : tabFind s.fr.frames u = some v) (h : bareFrame u t = bareFrame u s) :
    ∃ hdr, tabFind t.fr.frames u = some { v with hdr } := by
  rw [bareFrame, bareFrame, hv, Option.map_some, Option.map_eq_some_iff] at h
  obtain ⟨w, hw, he⟩ := h
  have hback : { ({ w with hdr := [] } : Frame) with hdr := w.hdr } = { v with hdr := w.hdr } :=
    congrArg (fun x : Frame => { x with hdr := w.hdr }) he
  exact ⟨w.hdr, hw.trans (congrArg some hback)⟩

/-- Two frames that differ in their containers alone. -/
def SameButHdr (v w : Frame) : Prop := ∃ hdr, w = { v with hdr }

theorem SameButHdr.putResult {v w : Frame} (h : SameButHdr v w) (n x : Nat) : SameButHdr v (putResult n x w) := by
  obtain ⟨hdr, rfl⟩ := h
  exact ⟨tabSet 0 (288 + n) x hdr, rfl⟩

theorem SameButHdr.ite {v a b : Frame} (ha : SameButHdr v a) (hb : SameButHdr v b) (p : Prop) [Decidable p] :
    SameButHdr v (if p then a else b) := by
  split
  · exact ha
  · exact hb

/-- Results that reach a frame change its containers alone. -/
theorem sameButHdr_resultsAt (profile st : Nat) (v : Frame) : SameButHdr v (resultsAt profile st v) := by
  have hv : SameButHdr v v := ⟨v.hdr, rfl⟩
  have hfdb := ((hv.putResult 10 v.fdbDst).putResult 11 v.fdbSrc).ite hv (st == fdbResultStage profile)
  have hlpm := fun x => (hfdb.putResult 12 x).ite hfdb (st == lpmResultStage profile)
  exact ((hlpm _).putResult 13 _).ite (hlpm _) _

/-! ### A stage's own tables (R150, R160, R187) -/

section

variable {v : MatStage} {f : Frame}

theorem slotTable_of_noDescs (h : v.descs = []) (slot : Nat) : slotTable v slot = false := by
  simp [slotTable, descOf, h, tabGet, tabFind, descValid, bit]

theorem firstIdx_none {n : Nat} {p : Nat → Bool} (h : ∀ i, p i = false) : firstIdx n p = none := by
  rw [firstIdx, List.find?_eq_none]
  exact fun i _ => by simp [h]

/-- A stage without tables selects no routine. -/
theorem selectRoutine_of_noTables (h : ∀ slot, slotTable v slot = false) :
    selectRoutine v ((List.range 8).map fun slot => slotLookup v slot f) = 0 := by
  have hlookup : ∀ slot, slotLookup v slot f = ({}, 0) := fun slot => by simp [slotLookup, h]
  have hmiss : ∀ i : Nat, (((List.range 8).map fun slot => slotLookup v slot f)[i]?).getD (({} : SlotResult), 0) = ({}, 0) := fun i => by
    rcases hi : ((List.range 8).map fun slot => slotLookup v slot f)[i]? with _ | r
    · rfl
    · obtain ⟨slot, -, rfl⟩ := List.mem_map.mp (List.mem_of_getElem? hi)
      exact hlookup slot
  unfold selectRoutine
  dsimp only
  rw [firstIdx_none fun i => by rw [hmiss]; rfl, firstIdx_none fun i => by rw [h]; rfl]

theorem stagePoison_of_clean (h : v.poisoned = []) : stagePoison v f = none := by
  rw [stagePoison, firstIdx_none fun slot => by simp [readsPoisoned, h]]
  rfl

theorem stagePoison_of_noTables (h : ∀ slot, slotTable v slot = false) : stagePoison v f = none := by
  rw [stagePoison, firstIdx_none fun slot => by simp [h]]
  rfl

end

section

variable {u : Nat} {f : Frame} {s : State}

/-- Nothing in a slot's lookup changes more of its frame than containers. -/
theorem bareFrame_slotEffects (g st : Nat) (v : MatStage) (e : Nat × SlotResult) : bareFrame u (slotEffects g st v u f s e) = bareFrame u s := by
  have hcount : ∀ hit, bareFrame u (countSlot g st v e.1 hit s) = bareFrame u s := fun hit =>
    bareFrame_of_fr ((keeps_countSlot _ _ _ _ _ _).same .fr rfl)
  unfold slotEffects
  dsimp only
  split
  · rfl
  · split
    · exact hcount _
    · split
      · refine (bareFrame_modFrame ?_ _ _).trans (hcount _)
        exact fun _ => rfl
      · exact hcount _

/-- Frame `f` with the results of a stage's slots and the routine they select. -/
def lookedUp (v : MatStage) (f : Frame) (hdr : Store Nat) : Frame :=
  let rs := (List.range 8).map fun slot => slotLookup v slot f
  { f with hdr, slots := rs.map Prod.fst, routine := selectRoutine v rs, place := if selectRoutine v rs == 0 then .sequenced else .issue }

theorem tabFind_stageTables (hf : tabFind s.fr.frames u = some f) :
    ∃ hdr, tabFind (stageTables u s).fr.frames u = some (lookedUp (stageSeen s f.pipe f.stage f) f hdr) := by
  have hbare : ∀ l : List (Nat × SlotResult), ∃ hdr, tabFind (l.foldl (slotEffects f.pipe f.stage (stageSeen s f.pipe f.stage f) u f) s).fr.frames u =
      some { f with hdr } := fun l => tabFind_of_bareFrame hf (foldl_keeps (bareFrame u) fun s e _ => bareFrame_slotEffects _ _ _ e)
  unfold stageTables
  dsimp only
  rw [frameOf_of_find hf]
  obtain ⟨hdr, hframe⟩ := hbare _
  exact ⟨hdr, tabFind_modFrame hframe _⟩

theorem regionLookups_none (hf : tabFind s.fr.frames u = some f) (h : descValid (descOf (matStage s f.pipe f.stage) 7) = false ∨
    descKind (descOf (matStage s f.pipe f.stage) 7) ≠ 2 ∧ descKind (descOf (matStage s f.pipe f.stage) 7) ≠ 3) : regionLookups u s = (true, s) := by
  unfold regionLookups
  rw [frameOf_of_find hf]
  rcases h with h | ⟨h₂, h₃⟩
  · simp [h]
  · simp [h₂, h₃]

theorem stageSeen_unretired {g : Nat} (h : (matPipe s g).retired = none) (st : Nat) (f : Frame) : stageSeen s g st f = matStage s g st := by
  simp only [stageSeen, h]

/-- A frame enters a stage that starts no forwarding lookup and reads no bad word: its tables are read. -/
theorem tabFind_enterStage (hf : tabFind s.fr.frames u = some f) (hdue : f.hostDue = false) (hret : (matPipe s f.pipe).retired = none)
    (hdesc : descValid (descOf (matStage s f.pipe f.stage) 7) = false ∨
      descKind (descOf (matStage s f.pipe f.stage) 7) ≠ 2 ∧ descKind (descOf (matStage s f.pipe f.stage) 7) ≠ 3)
    (hclean : ∀ w, stagePoison (matStage s f.pipe f.stage) w = none) :
    ∃ hdr, tabFind (enterStage u s).fr.frames u = some (lookedUp (matStage s f.pipe f.stage) (resultsAt s.tableProfile f.stage f) hdr) := by
  have hf₁ : tabFind (modFrame u (resultsAt s.tableProfile f.stage) s).fr.frames u = some (resultsAt s.tableProfile f.stage f) :=
    tabFind_modFrame hf _
  obtain ⟨hdr₁, hres⟩ := sameButHdr_resultsAt s.tableProfile f.stage f
  have hpipe : (resultsAt s.tableProfile f.stage f).pipe = f.pipe := by rw [hres]
  have hstage : (resultsAt s.tableProfile f.stage f).stage = f.stage := by rw [hres]
  have hseen : ∀ w, stageSeen (modFrame u (resultsAt s.tableProfile f.stage) s) f.pipe f.stage w = matStage s f.pipe f.stage :=
    fun w => stageSeen_unretired (s := modFrame u (resultsAt s.tableProfile f.stage) s) hret f.stage w
  have hregion : regionLookups u (modFrame u (resultsAt s.tableProfile f.stage) s) = (true, modFrame u (resultsAt s.tableProfile f.stage) s) := by
    refine regionLookups_none hf₁ ?_
    rw [hpipe, hstage]
    exact hdesc
  have henter : enterStage u s = stageTables u (modFrame u (resultsAt s.tableProfile f.stage) s) := by
    simp [enterStage, frameOf_of_find hf, hdue, hregion, hseen, hclean]
  obtain ⟨hdr, hframe⟩ := tabFind_stageTables hf₁
  rw [hpipe, hstage, hseen] at hframe
  exact ⟨hdr, henter ▸ hframe⟩

end

/-! ### Frames that enter and leave a stage (R150, R164, R178, R192) -/

section

variable {u : Nat} {f : Frame} {s : State} (hf : tabFind s.fr.frames u = some f)
include hf

section

variable (hstill : pipeStill s f.pipe = false) (hdue : f.hostDue = false) (hret : (matPipe s f.pipe).retired = none)
include hstill hdue hret

theorem stageLookup_stage_completes (hplace : f.place = .stage)
    (horder : earlierFrame s u (fun e => atStage f.stage e && (e.place == .stage || e.place == .waiting)) = false)
    (hclean : (matStage s f.pipe f.stage).poisoned = []) (hdesc : descValid (descOf (matStage s f.pipe f.stage) 7) = false ∨
      descKind (descOf (matStage s f.pipe f.stage) 7) ≠ 2 ∧ descKind (descOf (matStage s f.pipe f.stage) 7) ≠ 3) :
    Completes (.stageLookup u) s fun t =>
      let v := matStage s f.pipe f.stage
      let rs := (List.range 8).map fun slot => slotLookup v slot (resultsAt s.tableProfile f.stage f)
      (frameOf t u).slots = rs.map Prod.fst ∧ (frameOf t u).routine = selectRoutine v rs ∧
        (frameOf t u).place = if selectRoutine v rs = 0 then .sequenced else .issue := by
  have hexec : exec (.stageLookup u) s = .next (enterStage u s) := by
    change execStageLookup u s = _
    simp [execStageLookup, frameOf_of_find hf, hstill, hplace, horder]
  obtain ⟨hdr, hframe⟩ := tabFind_enterStage hf hdue hret hdesc fun _ => stagePoison_of_clean hclean
  refine ⟨_, hexec, ?_⟩
  dsimp only
  rw [frameOf_of_find hframe]
  refine ⟨rfl, rfl, ?_⟩
  simp only [lookedUp, beq_iff_eq]

/-- A frame that enters S0, where no table is, takes its pipeline's epoch and needs no routine. -/
theorem stageLookup_parsed_completes (hplace : f.place = .parsed) (himage : (matPipe s f.pipe).imageHeld = false)
    (horder : earlierFrame s u beforeStages = false) (hdescs : (matStage s f.pipe 0).descs = []) :
    Completes (.stageLookup u) s fun t =>
      (frameOf t u).stage = 0 ∧ (frameOf t u).epoch = (matPipe s f.pipe).epoch ∧ (frameOf t u).place = .sequenced ∧ (frameOf t u).routine = 0 := by
  let f₀ : Frame := { f with place := .stage, stage := 0, epoch := (matPipe s f.pipe).epoch, hostCfg := hostLookupObj s f.pipe }
  have hexec : exec (.stageLookup u) s = .next (enterStage u (setFrame u f₀ s)) := by
    change execStageLookup u s = _
    simp [execStageLookup, frameOf_of_find hf, hstill, hplace, himage, horder, f₀]
  have htables := slotTable_of_noDescs hdescs
  have hdesc : descValid (descOf (matStage s f.pipe 0) 7) = false := by
    simp [descOf, hdescs, tabGet, tabFind, descValid, bit]
  obtain ⟨hdr, hframe⟩ := tabFind_enterStage (s := setFrame u f₀ s) (tabFind_setFrame u f₀ s) hdue hret (.inl hdesc)
    fun _ => stagePoison_of_noTables htables
  obtain ⟨hdr₁, hres⟩ := sameButHdr_resultsAt s.tableProfile 0 f₀
  refine ⟨_, hexec, ?_⟩
  dsimp only
  rw [frameOf_of_find hframe]
  have hstage : (resultsAt s.tableProfile 0 f₀).stage = 0 ∧ (resultsAt s.tableProfile 0 f₀).epoch = (matPipe s f.pipe).epoch := by
    rw [hres]
    exact ⟨rfl, rfl⟩
  have hroutine : ∀ w, selectRoutine (matStage s f.pipe 0) ((List.range 8).map fun slot => slotLookup (matStage s f.pipe 0) slot w) = 0 :=
    fun _ => selectRoutine_of_noTables htables
  refine ⟨hstage.1, hstage.2, ?_, hroutine _⟩
  exact if_pos (beq_iff_eq.mpr (hroutine _))

end

/-- A request to the host table changes nothing of its frame but what it waits for and its result. -/
theorem tabFind_hostRequest (hplace : f.place = .sequenced) :
    ∃ due res, tabFind (hostRequest u s).fr.frames u = some { f with hostDue := due, hostRes := res } := by
  have hend : ∀ (status : Nat) (t : State), tabFind t.fr.frames u = some f →
      ∃ due res, tabFind (endHostRead u status 0 0 t).fr.frames u = some { f with hostDue := due, hostRes := res } := by
    intro status t ht
    unfold endHostRead
    dsimp only
    rw [frameOf_of_find ht, if_neg (by simp [hplace])]
    refine ⟨false, status, tabFind_modFrame ?_ _⟩
    rw [(keeps_count _ _ _ _).same .fr rfl]
    exact ht
  have hspent : tabFind (spendPipe f.pipe 0 2 1 (count cHostLookups (quadOfPipe f.pipe) 1 s)).fr.frames u = some f := by
    rw [(keeps_spendPipe _ _ _ _ _).same .fr rfl, (keeps_count _ _ _ _).same .fr rfl]
    exact hf
  unfold hostRequest
  dsimp only
  rw [frameOf_of_find hf]
  split
  · exact ⟨f.hostDue, f.hostRes, hf⟩
  · split
    · exact hend 4 _ hspent
    · split
      · exact hend 3 _ hspent
      · exact ⟨true, f.hostRes, tabFind_modFrame hspent _⟩

theorem sequencerRelease_completes (hplace : f.place = .sequenced) (horder : earlierFrame s u (atStage f.stage) = false) :
    Completes (.sequencerRelease u) s fun t =>
      (f.stage < 23 → (frameOf t u).place = .stage ∧ (frameOf t u).stage = f.stage + 1 ∧ (frameOf t u).routine = 0) ∧
      (23 ≤ f.stage → (frameOf t u).place = .decide) := by
  obtain ⟨due, res, hframe⟩ := tabFind_hostRequest hf hplace
  have hexec : exec (.sequencerRelease u) s = .next (modFrame u (fun f =>
      if f.stage ≥ 23 then { f with place := .decide } else { f with place := .stage, stage := f.stage + 1, slots := [], routine := 0 })
      (hostRequest u s)) := by
    change execSequencerRelease u s = _
    simp [execSequencerRelease, frameOf_of_find hf, hplace, horder]
  refine ⟨_, hexec, ?_⟩
  beta_reduce
  rw [frameOf_of_find (tabFind_modFrame hframe _)]
  exact ⟨fun hlt => by simp [Nat.not_le.mpr hlt], fun hge => by simp [hge]⟩

end

/-- Settles O20: a lemma for each frame that enters a stage or leaves it. -/
theorem framesPassTheStages : Obligations.FramesPassTheStages :=
  fun _ _ _ hf => ⟨fun hplace hstill hdue hret horder hclean hdesc => stageLookup_stage_completes hf hstill hdue hret hplace horder hclean hdesc,
    fun hplace hstill hdue hret => stageLookup_parsed_completes hf hstill hdue hret hplace, sequencerRelease_completes hf⟩

end Sys2Proof.Proofs
end

section
/-!
PROOFS. FRAME_DECISION (R164, R227, R261, R308, R316, part of O32): the learn request of a frame that leaves S23, and what becomes of a frame
that no ingress session mirrors.
-/

namespace Sys2Proof.Proofs

open Sys2Proof Sys2Proof.Machine Sys2Proof.Laws

/-- A drop's reason is counted apart from all else that a drop counts. -/
theorem recordCounters_apart_drops {r : Nat} (h : r < 256) : recordCounters.all (apart (cSwcDrops r)) = true := by
  have hmod : r % 65536 = r := Nat.mod_eq_of_lt (by omega)
  simp [recordCounters, exportCounters, apart, cSwcDrops, cSwcRecords, cSwcSuppressed, cTelUnrouted, cTelExportFrames, cTelExportLost, telCnt,
    hmod, show r ≠ 256 by omega, show r ≠ 257 by omega]

/-! ### Learn requests (R226, R227) -/

def learnCounters : List Counter := [cFdbLearnGroup, cFdbLearnLost, cFdbLearnDrops]

theorem learnCounters_apart_drops (r : Nat) : learnCounters.all (apart (cSwcDrops r)) = true := rfl

section

variable {u : Nat} {v : Frame} {s : State}

theorem learnRequest_counts : Counts learnCounters s (learnRequest u s) := by
  unfold learnRequest
  dsimp only
  split
  · exact Counts.refl
  · split
    · exact Counts.refl
    · split
      · exact Counts.refl.count (by decide)
      · split
        · exact Counts.refl
        · split
          · exact (counts_of_tel rfl).count (by decide)
          · split
            · exact counts_of_tel rfl
            · split
              · exact (counts_of_tel rfl).count (by decide)
              · exact counts_of_tel rfl

/-- A learn request marks its frame and changes no other. -/
theorem learnRequest_fr : (learnRequest u s).fr = s.fr ∨ (learnRequest u s).fr = (modFrame u (fun v => { v with learned := true }) s).fr := by
  unfold learnRequest
  dsimp only
  split
  · exact .inl rfl
  · split
    · exact .inl rfl
    · split
      · exact .inl (count_fr _ _ _ _)
      · split
        · exact .inl rfl
        · split
          · exact .inr (count_fr _ _ _ _)
          · split
            · exact .inr rfl
            · split
              · exact .inr (count_fr _ _ _ _)
              · exact .inr rfl

theorem learnRequest_next : (learnRequest u s).fr.next = s.fr.next := by
  rcases learnRequest_fr (u := u) (s := s) with h | h
  · rw [h]
  · rw [h, modFrame, modFr_fr]

theorem tabFind_learnRequest (hf : tabFind s.fr.frames u = some v) :
    ∃ b, tabFind (learnRequest u s).fr.frames u = some { v with learned := b } := by
  rcases learnRequest_fr (u := u) (s := s) with h | h
  · exact ⟨v.learned, h ▸ hf⟩
  · exact ⟨true, h ▸ tabFind_modFrame hf _⟩

/-- An update of a frame that a selection and a measure do not see. -/
theorem map_filter_tabUpd {α β : Type} {f : α → α} {p : α → Bool} {m : α → β} (hp : ∀ a, p (f a) = p a) (hm : ∀ a, m (f a) = m a) (k : Nat)
    (l : Store α) : ((tabUpd k f l).filter fun e => p e.2).map (fun e => m e.2) = (l.filter fun e => p e.2).map fun e => m e.2 := by
  induction l with
  | nil => rfl
  | cons e l ih =>
    obtain ⟨j, a⟩ := e
    by_cases hj : (j == k) = true
    · by_cases ha : p a = true <;> simp [tabUpd, hj, hp, hm, ha]
    · by_cases ha : p a = true <;> simp [tabUpd, hj, ha, ih]

theorem recircUsed_learnRequest (g : Nat) : recircUsed (learnRequest u s) g = recircUsed s g := by
  rcases learnRequest_fr (u := u) (s := s) with h | h
  · rw [recircUsed, h, recircUsed]
  · rw [recircUsed, h, recircUsed]
    exact congrArg (List.foldl (· + ·) 0) (map_filter_tabUpd (f := fun v : Frame => { v with learned := true })
      (p := fun v => v.pipe == g && v.source == 1 && (v.place == .fifo || v.place == .parked)) (m := fun v => v.data.length)
      (fun _ => rfl) (fun _ => rfl) u s.fr.frames)

theorem ingressSessions_learnRequest (b : Bool) (v : Frame) :
    ingressSessions (learnRequest u s) { v with learned := b } = ingressSessions s v := by
  have hsw : (learnRequest u s).sw = s.sw := (keeps_learnRequest _ _).same .sw rfl
  have hflt : (learnRequest u s).flt = s.flt := (keeps_learnRequest _ _).same .flt rfl
  have hobj : ∀ i, sessionObj (learnRequest u s) i = sessionObj s i := fun i => by
    rw [sessionObj, sessionAt, hsw, sessionObj, sessionAt]
  have hon : ∀ i, sessionOn (learnRequest u s) i = sessionOn s i := fun i => by
    rw [sessionOn, hobj, mirrorFenced, fencedSites, hflt, sessionOn, mirrorFenced, fencedSites]
  simp only [ingressSessions, hon, hobj, metaF, contOf]

end

/-! ### The first rule that holds (R164) -/

section

variable {u : Nat} {w : Frame} {t : State} (hw : tabFind t.fr.frames u = some w)
include hw

theorem ingressMirrors_none (h : ingressSessions t w = []) : ingressMirrors u t = t := by
  simp [ingressMirrors, frameOf_of_find hw, h]

theorem decide164_bad (hbad : w.bad ≠ 0) : decide164 u t = dropFrame u w.bad (decisionInfo w 0) (ingressMirrors u t) := by
  simp [decide164, frameOf_of_find hw, hbad]

variable (hgood : w.bad = 0)
include hgood

theorem decide164_drop (hdrop : bits (metaF w 0) 16 8 ≠ 0) : decide164 u t = dropFrame u (dropReasonOf (bits (metaF w 0) 16 8))
    (decisionInfo w (dropReasonOf (bits (metaF w 0) 16 8))) (ingressMirrors u t) := by
  simp [decide164, frameOf_of_find hw, hgood, hdrop]

variable (hkeep : bits (metaF w 0) 16 8 = 0)
include hkeep

theorem decide164_inspect (hasks : bits (metaF w 6) 8 2 ≠ 0) (hret : w.returned = false) :
    decide164 u t = inspect u (modFrame u (fun v => { v with named := if v.passes == 0 then namedDest v else v.named }) t) := by
  simp [decide164, frameOf_of_find hw, hgood, hkeep, hasks, hret]

variable (hpath : bits (metaF w 6) 8 2 = 0 ∨ w.returned = true)
include hpath

theorem decide164_recirculate (hagain : bit (metaF w 3) 1 = true) : decide164 u t = recirculate u t := by
  rcases hpath with h | h <;> simp [decide164, frameOf_of_find hw, hgood, hkeep, h, hagain]

theorem decide164_forward (hlast : bit (metaF w 3) 1 = false) : decide164 u t = forward u (ingressMirrors u t) := by
  rcases hpath with h | h <;> simp [decide164, frameOf_of_find hw, hgood, hkeep, h, hlast]

end

/-! ### Inspection (R258, R259) -/

/-- Frame `u` stands in a quadrant's inspection requests. -/
def Requested (q u : Nat) (s : State) : Prop := ∃ r ∈ inspReqs s q, r.frame = u

section

variable {q u : Nat} {s t : State}

theorem Requested.of_sig (h : Requested q u s) (ht : t.sig = s.sig) : Requested q u t := by
  rwa [Requested, inspReqs, ht]

theorem requested_count (h : Requested q u s) {c : Counter} {x n : Nat} : Requested q u (count c x n s) := h.of_sig (count_sig c x n s)

theorem requested_modInspReq (h : Requested q u s) (k : Nat) {f : InspReq → InspReq} (hf : ∀ r, (f r).frame = r.frame) :
    Requested q u (modInspReq q k f s) := by
  obtain ⟨r, hr, rfl⟩ := h
  have hreqs : inspReqs (modInspReq q k f s) q = (inspReqs s q).map fun r => if r.frame == k then f r else r := tabGet_set _ _ _ _
  refine ⟨_, hreqs ▸ List.mem_map_of_mem hr, ?_⟩
  split
  · exact hf r
  · rfl

theorem requested_joinScan (h : Requested q u s) (k : Nat) : Requested q u (joinScan q k s) := by
  unfold joinScan
  dsimp only
  split
  · exact requested_modInspReq h k fun _ => rfl
  · split
    · refine (requested_count (requested_modInspReq h k ?_)).of_sig (kilnOnce_sig _ _ _ _)
      exact fun _ => rfl
    · exact requested_modInspReq h k fun _ => rfl

theorem requested_requestWalk (h : Requested q u s) (k n : Nat) : Requested q u (requestWalk q k n s) := by
  have hatOnce : ∀ (st x : Nat) (t : State), Requested q u t →
      Requested q u (count (cTreeStatus st) q 1 (modInspReq q k (fun r => { r with tree := some (x, 0) }) t)) := by
    refine fun _ _ _ ht => requested_count (requested_modInspReq ht k ?_)
    exact fun _ => rfl
  unfold requestWalk
  dsimp only
  split
  · exact hatOnce 5 _ _ h
  · split
    · exact hatOnce 2 _ _ h
    · split
      · exact hatOnce 3 _ _ (h.of_sig (kilnOnce_sig _ _ _ _))
      · exact h.of_sig rfl

end

/-- A frame for which the store has room takes the inspection path. -/
theorem inspect_takes {u : Nat} {w : Frame} {s : State} (hw : tabFind s.fr.frames u = some w)
    (hroom : inspectUsed s (quadOfPipe w.pipe) + (w.data.length + 255) / 256 ≤ 32768) :
    (frameOf (inspect u s) u).place = .inspect ∧ Requested (quadOfPipe w.pipe) u (inspect u s) := by
  let q := quadOfPipe w.pipe
  let req : InspReq := { frame := u, cells := (w.data.length + 255) / 256, profile := bits (metaF w 6) 0 8, walk := bit (metaF w 6) 9 }
  let s₁ := setInspReqs q (inspReqs s q ++ [req]) (modFrame u (fun v => { v with place := .inspect }) (count cInspectFrames q 1 s))
  have hfr₁ : (frameOf s₁ u).place = .inspect := by
    have hfind : tabFind s₁.fr.frames u = some { w with place := .inspect } :=
      tabFind_modFrame (s := count cInspectFrames q 1 s) ((count_fr cInspectFrames q 1 s).symm ▸ hw) _
    rw [frameOf_of_find hfind]
  have hreqs : inspReqs s₁ q = inspReqs s q ++ [req] := tabGet_set _ _ _ _
  have hreq₁ : Requested q u s₁ := ⟨req, hreqs.symm ▸ List.mem_append_right _ List.mem_cons_self, rfl⟩
  have hscan : ∀ c : Bool, (frameOf (if c then joinScan q u s₁ else s₁) u).place = .inspect ∧ Requested q u (if c then joinScan q u s₁ else s₁) := by
    intro c
    split
    · exact ⟨(congrArg Frame.place (frameOf_of_fr u s₁ ((keeps_joinScan _ _ _).same .fr rfl))).trans hfr₁, requested_joinScan hreq₁ u⟩
    · exact ⟨hfr₁, hreq₁⟩
  obtain ⟨hfr₂, hreq₂⟩ := hscan (bit (metaF w 6) 8)
  unfold inspect
  dsimp only
  rw [frameOf_of_find hw, if_neg (by omega)]
  split
  · exact ⟨hfr₂, hreq₂⟩
  · split
    · exact ⟨hfr₂, requested_modInspReq hreq₂ u fun _ => rfl⟩
    · exact ⟨(congrArg Frame.place (frameOf_of_fr u _ ((keeps_requestWalk _ _ _ _).same .fr rfl))).trans hfr₂, requested_requestWalk hreq₂ u _⟩

end Sys2Proof.Proofs
end

section
/-!
PROOFS. The outcomes of FRAME_DECISION (R164, R261, R308, R316, part of O32): a frame that is dropped, inspected, recirculated or made to wait,
and one whose transfer is formed.
-/

namespace Sys2Proof.Proofs

open Sys2Proof Sys2Proof.Machine Sys2Proof.Laws

/-- A field of zero has no bit set. -/
theorem bit_of_bits_eq_zero {x lo n : Nat} (h : bits x lo n = 0) {i : Nat} (hi : i < n) : bit x (lo + i) = false := by
  have hbit := congrArg (Nat.testBit · i) h
  simpa [bit, bits, hi, Nat.testBit_div_two_pow, Nat.add_comm] using hbit

/-! ### A frame's places -/

theorem spend_next (u : Nat) (s : State) : (spend u s).fr.next = s.fr.next := by
  have hforget : ∀ t : State, (forget u t).fr.next = t.fr.next := fun t => by
    unfold forget
    split <;> rfl
  unfold spend
  dsimp only
  split
  · exact hforget _
  · rfl

section

variable {u : Nat} {w : Frame} {t : State} (hw : tabFind t.fr.frames u = some w)
include hw

/-- Policing changes of its frame only what it notes for the frame's end. -/
theorem tabFind_policeFrame : ∃ x, tabFind (policeFrame u t).2.2.fr.frames u = some { w with policed := x } := by
  have hnoted : ∀ (whole : Bool) (y : Option (Nat × Nat)) (t₁ : State), t₁.fr = t.fr →
      ∃ x, tabFind (if whole then t₁ else modFrame u (fun v => { v with policed := y }) t₁).fr.frames u = some { w with policed := x } := by
    intro whole y t₁ h
    split
    · exact ⟨w.policed, h ▸ hw⟩
    · exact ⟨y, tabFind_modFrame (h ▸ hw) _⟩
  have hcounted : ∀ (drop : Bool) (n : Nat) (t₂ : State), (∃ x, tabFind t₂.fr.frames u = some { w with policed := x }) →
      ∃ x, tabFind (if drop then count cPolDropped n 1 t₂ else t₂).fr.frames u = some { w with policed := x } := by
    intro drop n t₂ h
    split
    · exact (count_fr cPolDropped n 1 t₂).symm ▸ h
    · exact h
  unfold policeFrame
  dsimp only
  split
  · exact ⟨w.policed, hw⟩
  · exact hcounted _ _ _ (hnoted _ _ _ ((count_fr _ _ _ _).trans (count_fr _ _ _ _)))

/-- A frame with room for its next pass takes its place. -/
theorem recirculate_takes (hpasses : w.passes < 4) (hroom : recircUsed t w.pipe + w.data.length ≤ 131072) :
    (frameOf (recirculate u t) t.fr.next).passes = w.passes + 1 ∧ (frameOf (recirculate u t) t.fr.next).source = 1 ∧
      (frameOf (recirculate u t) t.fr.next).data = w.data ∧ counted cSwcRecirc (quadOfPipe w.pipe) 1 t (recirculate u t) := by
  let named := if w.passes == 0 && !w.returned then namedDest w else w.named
  let n : Frame := { nextPass u 1 w with passes := w.passes + 1, named }
  have heq : recirculate u t = (newFrame n (spend u (count cSwcRecirc (quadOfPipe w.pipe) 1 t))).2 := by
    unfold recirculate
    dsimp only
    rw [frameOf_of_find hw, if_neg (by omega), if_neg (by omega)]
  have hnext : (spend u (count cSwcRecirc (quadOfPipe w.pipe) 1 t)).fr.next = t.fr.next :=
    (spend_next _ _).trans (congrArg FrameState.next (count_fr _ _ _ _))
  have hframe : frameOf (recirculate u t) t.fr.next = n := by
    rw [heq, ← hnext]
    exact frameOf_newFrame _ _
  rw [hframe]
  refine ⟨rfl, rfl, rfl, ?_⟩
  rw [heq]
  exact counted_then_same (counted_count _ _ _ _) ((keeps_spend _ _).same .tel rfl)

/-- A frame without a delivery or a group is forwarded as a unicast one. -/
theorem forward_unicast (hring : bits (metaF w 0) 30 2 = 0) (hgroup : mirrorAndGroup w / 65536 = 0) : forward u t = unicast u t := by
  have h₃₀ : bit (metaF w 0) 30 = false := bit_of_bits_eq_zero hring (i := 0) (by decide)
  have h₃₁ : bit (metaF w 0) 31 = false := bit_of_bits_eq_zero hring (i := 1) (by decide)
  unfold forward
  dsimp only
  rw [frameOf_of_find hw, h₃₀, h₃₁, hgroup]
  rfl

theorem unicast_nowhere (hport : bit (metaF w 0) 15 = false) : unicast u t = dropFrame u 0x19 (decisionInfo w 0x19) t := by
  simp [unicast, frameOf_of_find hw, hport]

/-- A unicast frame that no policer drops and no ingress limit refuses forms its transfer; one within its quadrant stands at the admission
unit at once. -/
theorem unicast_forms {colour : Nat} {t₁ : State} (hport : bit (metaF w 0) 15 = true) (hconf : configured t (bits (metaF w 0) 0 10) = true)
    (hqueue : bits (metaF w 0) 10 5 ≤ 19) (hquad : quadOfPort (bits (metaF w 0) 0 10) = quadOfPipe w.pipe)
    (hlimit : u32 (portAdmit t w.port) (32 + 4 * traffic w) = 0) (hpol : policeFrame u t = (colour, false, t₁)) :
    ∃ x, (unicast u t).sw.transfers = t.sw.transfers ++ [x] ∧ x.frame = u ∧ x.src = quadOfPipe w.pipe ∧ x.dst = quadOfPipe w.pipe ∧
      x.dest = .unicast (bits (metaF w 0) 0 10) (bits (metaF w 0) 10 5) ∧ x.place = .admission ∧ x.colour = colour := by
  have hkeeps : Keeps [.tel, .fr, .sch] t t₁ := by
    have h := keeps_policeFrame u t
    rwa [hpol] at h
  obtain ⟨y, hw₁⟩ := tabFind_policeFrame hw
  rw [hpol] at hw₁
  let x : Transfer := { id := 0, frame := u, src := quadOfPipe w.pipe, dst := quadOfPort (bits (metaF w 0) 0 10)
                        dest := .unicast (bits (metaF w 0) 0 10) (bits (metaF w 0) 10 5), cls := traffic w, colour }
  have hadmit : portAdmit t₁ w.port = portAdmit t w.port := by rw [portAdmit, hkeeps.same .buf rfl, portAdmit]
  have hform : formTransfer x (fixedPath w) 1 t₁ = addTransfer x t₁ := by
    have hfits : ingressFits t₁ { w with policed := y } x.cls (reservation { w with policed := y } (transferTrunc t₁ x)) = true := by
      simp [ingressFits, hadmit, x, hlimit]
    unfold formTransfer
    dsimp only
    rw [show x.frame = u from rfl, frameOf_of_find hw₁, if_pos hfits]
    simp [sendTransfer, x, hquad]
  have hall : unicast u t = spend u (addTransfer x t₁) := by
    unfold unicast
    dsimp only
    rw [frameOf_of_find hw, hpol, if_neg (by simp [hport, hconf]), if_neg (by omega)]
    exact congrArg (spend u) hform
  refine ⟨{ x with id := t₁.sw.nextTransfer }, ?_, rfl, rfl, hquad, rfl, rfl, rfl⟩
  rw [hall, (keeps_spend _ _).same .sw rfl, addTransfer, modSw_sw, hkeeps.same .sw rfl]

end

/-! ### FRAME_DECISION -/

/-- A frame that its program drops names no destination. -/
theorem namedDest_dropped {w : Frame} (h : bits (metaF w 0) 16 8 ≠ 0) : namedDest w = none := by simp [namedDest, h]

section

variable {u : Nat} {v : Frame} {s : State} (hf : tabFind s.fr.frames u = some v)
include hf

/-- A frame that is dropped, after its learn request. -/
theorem learnedDrop_counted {r : Nat} (hr : r < 256) (i : CopyInfo) :
    counted (cSwcDrops r) (quadOfPipe v.pipe) 1 s (dropFrame u r i (learnRequest u s)) := by
  obtain ⟨b, hw⟩ := tabFind_learnRequest hf
  have hdrop := dropFrame_counted u r i (learnRequest u s) (recordCounters_apart_drops hr)
  rw [frameOf_of_find hw] at hdrop
  exact counts_then_counted learnRequest_counts hdrop (learnCounters_apart_drops r)

variable (hplace : v.place = .decide) (hlater : decidedLater s u = false) (hended : v.ended = true)
include hplace hlater hended

theorem exec_frameDecision_decides (h : waitsInOrder (learnRequest u s) u = false ∨ v.bad ≠ 0 ∨ needsWhole v = true) :
    exec (.frameDecision u) s = .next (decide164 u (learnRequest u s)) := by
  change execFrameDecision u s = _
  rcases h with h | h | h <;> simp [execFrameDecision, frameOf_of_find hf, hplace, hlater, hended, h]

theorem frameDecision_waits (hgood : v.bad = 0) (hpart : needsWhole v = false) (hwaits : waitsInOrder (learnRequest u s) u = true)
    (hroom : orderQueue s v.pipe < 1024) : Completes (.frameDecision u) s fun t =>
      (frameOf t u).place = .ordered ∧ counted cInspectOrderWaits v.pipe 1 s t ∧ t.sw.transfers = s.sw.transfers := by
  have hexec : exec (.frameDecision u) s =
      .next (modFrame u (fun v => { v with place := .ordered }) (count cInspectOrderWaits v.pipe 1 (learnRequest u s))) := by
    change execFrameDecision u s = _
    simp [execFrameDecision, frameOf_of_find hf, hplace, hlater, hended, hgood, hpart, hwaits, hroom]
  obtain ⟨b, hw⟩ := tabFind_learnRequest hf
  refine ⟨_, hexec, ?_, ?_, ?_⟩
  · rw [frameOf_of_find (tabFind_modFrame ((count_fr _ _ _ _).symm ▸ hw) _)]
  · exact counted_then_same (counts_then_counted learnRequest_counts (counted_count _ _ _ _)) rfl
  · rw [modFrame, modFr_sw, count_sw, (keeps_learnRequest _ _).same .sw rfl]

theorem frameDecision_inspects (hgood : v.bad = 0) (hkeep : bits (metaF v 0) 16 8 = 0) (hasks : bits (metaF v 6) 8 2 ≠ 0)
    (hret : v.returned = false) (hroom : inspectUsed s (quadOfPipe v.pipe) + (v.data.length + 255) / 256 ≤ 32768) :
    Completes (.frameDecision u) s fun t => (frameOf t u).place = .inspect ∧ ∃ r ∈ inspReqs t (quadOfPipe v.pipe), r.frame = u := by
  obtain ⟨b, hw⟩ := tabFind_learnRequest hf
  have hwhole : needsWhole v = true := by simp [needsWhole, hkeep, hasks, hret]
  refine ⟨_, exec_frameDecision_decides hf hplace hlater hended (.inr (.inr hwhole)), ?_⟩
  rw [decide164_inspect hw hgood hkeep hasks hret]
  have hused : inspectUsed (learnRequest u s) (quadOfPipe v.pipe) = inspectUsed s (quadOfPipe v.pipe) := by
    rw [inspectUsed, inspReqs, (keeps_learnRequest _ _).same .sig rfl, inspectUsed, inspReqs]
  have htaken := inspect_takes (tabFind_modFrame hw fun v => { v with named := if v.passes == 0 then namedDest v else v.named })
    ((congrArg (· + (v.data.length + 255) / 256) hused).trans_le hroom)
  exact htaken

theorem frameDecision_recirculates (hgood : v.bad = 0) (hkeep : bits (metaF v 0) 16 8 = 0) (hpath : bits (metaF v 6) 8 2 = 0 ∨ v.returned = true)
    (hagain : bit (metaF v 3) 1 = true) (hpasses : v.passes < 4) (hroom : recircUsed s v.pipe + v.data.length ≤ 131072) :
    Completes (.frameDecision u) s fun t => (frameOf t s.fr.next).passes = v.passes + 1 ∧ (frameOf t s.fr.next).source = 1 ∧
      (frameOf t s.fr.next).data = v.data ∧ counted cSwcRecirc (quadOfPipe v.pipe) 1 s t := by
  obtain ⟨b, hw⟩ := tabFind_learnRequest hf
  have hwhole : needsWhole v = true := by simp [needsWhole, hkeep, hagain]
  refine ⟨_, exec_frameDecision_decides hf hplace hlater hended (.inr (.inr hwhole)), ?_⟩
  have htakes := recirculate_takes hw hpasses ((congrArg (· + v.data.length) (recircUsed_learnRequest v.pipe)).trans_le hroom)
  rw [learnRequest_next] at htakes
  obtain ⟨hnext, hsource, hdata, hcounted⟩ := htakes
  rw [decide164_recirculate hw hgood hkeep hpath hagain]
  exact ⟨hnext, hsource, hdata, counts_then_counted learnRequest_counts hcounted⟩

variable (hnone : ingressSessions s v = [])
include hnone

theorem frameDecision_dropsBad (hbad : v.bad ≠ 0) (hreason : v.bad < 256) :
    Completes (.frameDecision u) s fun t => counted (cSwcDrops v.bad) (quadOfPipe v.pipe) 1 s t := by
  obtain ⟨b, hw⟩ := tabFind_learnRequest hf
  refine ⟨_, exec_frameDecision_decides hf hplace hlater hended (.inr (.inl hbad)), ?_⟩
  rw [decide164_bad hw hbad, ingressMirrors_none hw ((ingressSessions_learnRequest b v).trans hnone)]
  exact learnedDrop_counted hf hreason _

theorem frameDecision_drops (hgood : v.bad = 0) (hdrop : bits (metaF v 0) 16 8 ≠ 0) :
    Completes (.frameDecision u) s fun t => counted (cSwcDrops (dropReasonOf (bits (metaF v 0) 16 8))) (quadOfPipe v.pipe) 1 s t := by
  obtain ⟨b, hw⟩ := tabFind_learnRequest hf
  have hfree : waitsInOrder (learnRequest u s) u = false := by
    have hnamed : namedDest { v with learned := b } = none := namedDest_dropped hdrop
    simp [waitsInOrder, frameOf_of_find hw, hnamed]
  have hreason : dropReasonOf (bits (metaF v 0) 16 8) < 256 := by
    unfold dropReasonOf
    split
    · exact Nat.mod_lt _ (by decide)
    · decide
  refine ⟨_, exec_frameDecision_decides hf hplace hlater hended (.inl hfree), ?_⟩
  rw [decide164_drop hw hgood hdrop, ingressMirrors_none hw ((ingressSessions_learnRequest b v).trans hnone)]
  exact learnedDrop_counted hf hreason _

section

variable (hgood : v.bad = 0) (hkeep : bits (metaF v 0) 16 8 = 0) (hpath : bits (metaF v 6) 8 2 = 0 ∨ v.returned = true)
  (hlast : bit (metaF v 3) 1 = false) (hfree : waitsInOrder (learnRequest u s) u = false) (hring : bits (metaF v 0) 30 2 = 0)
  (hgroup : mirrorAndGroup v / 65536 = 0)
include hgood hkeep hpath hlast hfree hring hgroup

/-- A unicast frame that need not wait. -/
theorem exec_frameDecision_unicast : exec (.frameDecision u) s = .next (unicast u (learnRequest u s)) := by
  obtain ⟨b, hw⟩ := tabFind_learnRequest hf
  rw [exec_frameDecision_decides hf hplace hlater hended (.inl hfree), decide164_forward hw hgood hkeep hpath hlast,
    ingressMirrors_none hw ((ingressSessions_learnRequest b v).trans hnone), forward_unicast hw hring hgroup]

theorem frameDecision_dropsNowhere (hport : bit (metaF v 0) 15 = false) :
    Completes (.frameDecision u) s fun t => counted (cSwcDrops 0x19) (quadOfPipe v.pipe) 1 s t := by
  obtain ⟨b, hw⟩ := tabFind_learnRequest hf
  refine ⟨_, exec_frameDecision_unicast hf hplace hlater hended hnone hgood hkeep hpath hlast hfree hring hgroup, ?_⟩
  rw [unicast_nowhere hw hport]
  exact learnedDrop_counted hf (by decide) _

theorem frameDecision_forms {colour : Nat} {t₁ : State} (hport : bit (metaF v 0) 15 = true) (hconf : configured s (bits (metaF v 0) 0 10) = true)
    (hqueue : bits (metaF v 0) 10 5 ≤ 19) (hquad : quadOfPort (bits (metaF v 0) 0 10) = quadOfPipe v.pipe)
    (hlimit : u32 (portAdmit s v.port) (32 + 4 * traffic v) = 0) (hpol : policeFrame u (learnRequest u s) = (colour, false, t₁)) :
    Completes (.frameDecision u) s fun t => ∃ x, t.sw.transfers = s.sw.transfers ++ [x] ∧ x.frame = u ∧ x.src = quadOfPipe v.pipe ∧
      x.dst = quadOfPipe v.pipe ∧ x.dest = .unicast (bits (metaF v 0) 0 10) (bits (metaF v 0) 10 5) ∧ x.place = .admission ∧
      x.colour = colour := by
  obtain ⟨b, hw⟩ := tabFind_learnRequest hf
  have hkeeps := keeps_learnRequest u s
  have hconf₁ : configured (learnRequest u s) (bits (metaF v 0) 0 10) = true := by
    rwa [configured, macPort_of_mac (hkeeps.same .mac rfl)]
  have hlimit₁ : u32 (portAdmit (learnRequest u s) v.port) (32 + 4 * traffic v) = 0 := by
    rwa [portAdmit, hkeeps.same .buf rfl]
  refine ⟨_, exec_frameDecision_unicast hf hplace hlater hended hnone hgood hkeep hpath hlast hfree hring hgroup, ?_⟩
  have hforms := unicast_forms hw hport hconf₁ hqueue hquad hlimit₁ hpol
  rw [hkeeps.same .sw rfl] at hforms
  exact hforms

end

end

end Sys2Proof.Proofs
end

section
/-!
PROOFS. What drops, the frames of exporters and mirror copies leave of the switch (R308, R324, R331, R332, R391, part of O32): no port's
hold ends, and no unicast transfer joins.
-/

namespace Sys2Proof.Proofs

open Sys2Proof Sys2Proof.Machine Sys2Proof.Laws

/-- From `s` to `t` the ports in hold stand, and every transfer that joins is an exporter's, a mirror copy's or a group's. -/
structure Aside (s t : State) : Prop where
  hold : t.sw.hold = s.sw.hold
  joins : ∀ x ∈ t.sw.transfers, x ∈ s.sw.transfers ∨ ∀ p k, x.dest ≠ .unicast p k

section

variable {s t u : State}

theorem Aside.refl : Aside s s := ⟨rfl, fun _ => .inl⟩

theorem Aside.trans (h : Aside s t) (k : Aside t u) : Aside s u :=
  ⟨k.hold.trans h.hold, fun x hx => (k.joins x hx).elim (h.joins x) .inr⟩

theorem aside_of_sw (h : t.sw = s.sw) : Aside s t := ⟨by rw [h], fun x hx => .inl (h ▸ hx)⟩

/-- An operation that leaves the switch alone, after others. -/
theorem Aside.then_same (h : Aside s t) (k : u.sw = t.sw) : Aside s u := h.trans (aside_of_sw k)

theorem aside_of_keeps {ps : List Part} (h : Keeps ps s t) (hp : ps.contains .sw = false := by rfl) : Aside s t := aside_of_sw (h.same .sw hp)

theorem aside_modSw {f : SwitchState → SwitchState} (hh : ∀ w, (f w).hold = w.hold) (ht : ∀ w, (f w).transfers = w.transfers) :
    Aside s (modSw f s) := ⟨hh _, fun _ hx => .inl (ht s.sw ▸ hx)⟩

theorem Aside.foldl {α : Type} {op : State → α → State} (h : ∀ s a, Aside s (op s a)) (as : List α) (s : State) : Aside s (as.foldl op s) := by
  induction as generalizing s with
  | nil => exact Aside.refl
  | cons a as ih => exact (h s a).trans (ih _)

end

section

variable (e q r : Nat) (b : Bytes) (v : Frame) (i : CopyInfo) (s : State)

/-! ### Drops and their records -/

theorem sendExport_aside : Aside s (sendExport e s) := by
  have hsent : ∀ (v : Exporter) (w : Frame), (count cTelExportFrames e 1 (setExporter e v (newFrame w s).2)).sw = s.sw :=
    fun _ _ => count_sw _ _ _ _
  unfold sendExport
  dsimp only
  split
  · exact (aside_of_sw (hsent _ _)).then_same (modFr_sw _ _)
  · refine (aside_of_sw (hsent _ _)).trans ⟨rfl, fun x hx => ?_⟩
    rcases List.mem_append.mp hx with hx | hx
    · exact .inl hx
    · rw [List.mem_singleton.mp hx]
      exact .inr fun _ _ => nofun

theorem exportRecord_aside : Aside s (exportRecord e b s) := by
  have hfits : ∀ c : Bool, Aside s (if c then s else sendExport e s) := fun c => by
    cases c with
    | true => exact Aside.refl
    | false => exact sendExport_aside e s
  have hstored : ∀ t, Aside t (if exportHeld (exporterOf t e) + b.length > 1048576 then loseRecords e 1 t
      else setExporter e { exporterOf t e with waiting := (exporterOf t e).waiting ++ [b] } t) := fun t => by
    split
    · exact aside_of_keeps (keeps_loseRecords _ _ _)
    · exact aside_of_sw rfl
  unfold exportRecord
  exact (hfits _).trans (hstored _)

theorem dropRecord_aside : Aside s (dropRecord q r v i s) := by
  have hlimits : ∀ k₁ u₁ q₁ n₁ k₂ u₂ q₂ n₂, Aside s (ensureLimit k₁ u₁ q₁ n₁ (ensureLimit k₂ u₂ q₂ n₂ s)) := fun _ _ _ _ _ _ _ _ =>
    (aside_of_keeps (keeps_ensureLimit _ _ _ _ _)).trans (aside_of_keeps (keeps_ensureLimit _ _ _ _ _))
  have htaken : ∀ k₁ u₁ k₂ u₂ (t : State), Aside t (takeLimit k₁ u₁ (takeLimit k₂ u₂ t).2).2 := fun _ _ _ _ _ =>
    (aside_of_keeps (keeps_takeLimit _ _ _)).trans (aside_of_keeps (keeps_takeLimit _ _ _))
  unfold dropRecord
  dsimp only
  split
  · exact Aside.refl
  · split
    · split
      · exact (hlimits _ _ _ _ _ _ _ _).then_same (count_sw _ _ _ _)
      · refine Aside.trans ?_ (exportRecord_aside _ _ _)
        exact (((hlimits _ _ _ _ _ _ _ _).trans (htaken _ _ _ _ _)).then_same (count_sw _ _ _ _)).then_same (modTel_sw _ _)
    · exact ((hlimits _ _ _ _ _ _ _ _).then_same (count_sw _ _ _ _)).then_same (kilnOnce_sw _ _ _ _)

theorem dropIn_aside : Aside s (dropIn q r v i s) := (aside_of_sw (count_sw _ _ _ _)).trans (dropRecord_aside _ _ _ _ _)

theorem dropCopyIn_aside (x : Option Nat) : Aside s (dropCopyIn q r x v i s) := by
  unfold dropCopyIn
  split
  · exact aside_of_sw ((count_sw _ _ _ _).trans (count_sw _ _ _ _))
  · exact dropIn_aside _ _ _ _ _

theorem dropCopy_aside (c d : Nat) : Aside s (dropCopy c r d s) :=
  (dropCopyIn_aside _ _ _ _ _ _).trans (aside_of_keeps (keeps_releaseCopy _ _))

/-! ### Mirror copies (R312, R324, R325) -/

theorem addTransfer_aside {x y : Transfer} (hx : ∀ p k, x.dest ≠ .unicast p k) (h : y.dest = x.dest) : Aside s (addTransfer y s) := by
  refine ⟨rfl, fun z hz => ?_⟩
  rcases List.mem_append.mp hz with hz | hz
  · exact .inl hz
  · rw [List.mem_singleton.mp hz]
    exact .inr (h ▸ hx)

theorem setPath_aside (p a d : Nat) (via : Option Nat) : Aside s (setPath p a d via s) := by
  have hset : ∀ (n : Nat) (f : Store Nat → Store Nat), Aside s (count cSwcPathSwitches n 1 (modSw (fun t => { t with paths := f t.paths }) s)) :=
    fun n f => (aside_modSw (f := fun t => { t with paths := f t.paths }) (fun _ => rfl) fun _ => rfl).then_same (count_sw _ _ _ _)
  unfold setPath
  split
  · exact Aside.refl
  · cases via with
    | none => exact hset _ _
    | some c => exact (hset _ _).then_same (kilnOnce_sw _ _ _ _)

theorem meshOverrun_aside (x : Transfer) (hop : Nat) : Aside s (meshOverrun x hop s) :=
  (dropCopyIn_aside _ _ _ _ _ _).then_same (kilnOnce_sw _ _ _ _)

theorem sendTransfer_aside {x : Transfer} (hx : ∀ p k, x.dest ≠ .unicast p k) (fixed : Bool) : Aside s (sendTransfer x fixed s) := by
  have hpath : ∀ via, Aside s (if fixed then s else setPath (frameOf s x.frame).port x.src x.dst via s) := fun via => by
    split
    · exact Aside.refl
    · exact setPath_aside _ _ _ _ _
  have hsend : ∀ (full : Prop) [Decidable full] (y : Transfer) (relayed : Bool) (n : Nat) (t : State), y.dest = x.dest → Aside s t →
      Aside s (if full then meshOverrun x (firstHop y) t
        else if relayed then count cSwcRelay n 1 (addTransfer y t) else addTransfer y t) := by
    intro full _ y relayed n t hy ht
    split
    · exact ht.trans (meshOverrun_aside _ _ _)
    · split
      · exact (ht.trans (addTransfer_aside _ hx hy)).then_same (count_sw _ _ _ _)
      · exact ht.trans (addTransfer_aside _ hx hy)
  unfold sendTransfer
  dsimp only
  split
  · exact addTransfer_aside s hx rfl
  · split
    · exact meshOverrun_aside _ _ _
    · exact hsend _ _ _ _ _ rfl (hpath _)

theorem formTransfer_aside {x : Transfer} (hx : ∀ p k, x.dest ≠ .unicast p k) (fixed : Bool) (n : Nat) : Aside s (formTransfer x fixed n s) := by
  unfold formTransfer
  dsimp only
  split
  · exact sendTransfer_aside s hx fixed
  · exact Aside.foldl (fun s _ => (dropIn_aside _ _ _ _ s).then_same (count_sw _ _ _ _)) _ s

theorem makeMirror_aside (k u : Nat) : Aside s (makeMirror k u b s) := by
  unfold makeMirror
  dsimp only
  split
  · exact aside_of_sw rfl
  · split
    · split
      · exact dropIn_aside _ _ _ _ _
      · exact aside_of_sw rfl
    · refine formTransfer_aside s ?_ true 1
      exact fun _ _ => nofun

theorem mirrorFrame_aside (k u : Nat) : Aside s (mirrorFrame k u s) := by
  have hselected : ∀ m, Aside s (count cMirrorSelected k 1 (modSw (fun t => { t with sessions := tabSet {} k m t.sessions }) s)) := fun m =>
    (aside_modSw (f := fun t => { t with sessions := tabSet {} k m t.sessions }) (fun _ => rfl) fun _ => rfl).then_same (count_sw _ _ _ _)
  have hcopied : ∀ t, Aside s t → Aside s (count cMirrorCopies k 1 t) := fun t h => h.then_same (count_sw _ _ _ _)
  unfold mirrorFrame
  dsimp only
  split
  · exact hselected _
  · split
    · exact (hselected _).trans (dropIn_aside _ _ _ _ _)
    · split
      · refine (hcopied _ (hselected _)).trans (aside_modSw ?_ ?_)
        · exact fun _ => rfl
        · exact fun _ => rfl
      · refine Aside.trans ?_ (makeMirror_aside _ _ _ _)
        split
        · exact (hcopied _ (hselected _)).then_same (count_sw _ _ _ _)
        · exact hcopied _ (hselected _)

end

end Sys2Proof.Proofs
end

section
/-!
PROOFS. Admission of a unicast transfer (R276 to R289, part of O32): the cells it takes, the copy it stores, and a refusal.
-/

namespace Sys2Proof.Proofs

open Sys2Proof Sys2Proof.Machine Sys2Proof.Laws

/-- `s` with a transfer taken from the switch. -/
def withdrawn (n : Nat) (s : State) : State := modSw (fun w => { w with transfers := w.transfers.filter fun y => y.id != n }) s

section

variable (n : Nat) (s : State)

theorem takeCell_withdrawn (q : Nat) : takeCell q (withdrawn n s) = (takeCell q s).map fun r => (r.1, withdrawn n r.2) := by
  have hquad : bufQuad (withdrawn n s) q = bufQuad s q := rfl
  unfold takeCell
  dsimp only
  rw [hquad]
  split
  · rfl
  · rw [Option.map_map]
    rfl

theorem takeCells_withdrawn (q k : Nat) : takeCells q k (withdrawn n s) = (takeCells q k s).map fun r => (r.1, withdrawn n r.2) := by
  induction k generalizing s with
  | zero => rfl
  | succ k ih =>
    rw [takeCells, takeCells, takeCell_withdrawn]
    cases takeCell q s with
    | none => rfl
    | some r =>
      dsimp only [Option.map_some]
      rw [ih, Option.map_map, Option.map_map]
      rfl

theorem copyFor_withdrawn (x : Transfer) (p k : Nat) : copyFor (withdrawn n s) x p k = copyFor s x p k := rfl

theorem admitReason_withdrawn (x : Copy) (c : Nat) : admitReason (withdrawn n s) x c = admitReason s x c := rfl

end

/-! ### Cells and slots (R278, R291) -/

/-- From `s` to `t` the copies and the order of queue `no` stand. -/
structure CopiesStand (no : Nat) (s t : State) : Prop where
  copies : t.buf.copies = s.buf.copies
  next : t.buf.nextCopy = s.buf.nextCopy
  fifo : (bufQueue t no).fifo = (bufQueue s no).fifo

section

variable {no : Nat} {s t u : State}

theorem CopiesStand.refl : CopiesStand no s s := ⟨rfl, rfl, rfl⟩

theorem CopiesStand.trans (h : CopiesStand no s t) (k : CopiesStand no t u) : CopiesStand no s u :=
  ⟨k.copies.trans h.copies, k.next.trans h.next, k.fifo.trans h.fifo⟩

theorem copiesStand_of_buf (h : t.buf = s.buf) : CopiesStand no s t := ⟨by rw [h], by rw [h], by rw [bufQueue_of_buf h]⟩

theorem modQuad_copiesStand (q : Nat) (f : BufQuad → BufQuad) : CopiesStand no s (modQuad q f s) := ⟨rfl, rfl, rfl⟩

theorem modQueue_copiesStand {f : BufQueue → BufQueue} (h : ∀ v, (f v).fifo = v.fifo) : CopiesStand no s (modQueue no f s) :=
  ⟨rfl, rfl, by rw [bufQueue_modQueue, h]⟩

theorem takeCell_copiesStand {q c : Nat} (h : takeCell q s = some (c, t)) : CopiesStand no s t := by
  unfold takeCell at h
  dsimp only at h
  split at h
  · cases h
  · obtain ⟨k, -, he⟩ := Option.map_eq_some_iff.mp h
    cases he
    exact modQuad_copiesStand _ _

theorem takeCells_copiesStand {q n : Nat} {l : List Nat} (h : takeCells q n s = some (l, t)) : l.length = n ∧ CopiesStand no s t := by
  induction n generalizing s l with
  | zero =>
    cases h
    exact ⟨rfl, .refl⟩
  | succ n ih =>
    rw [takeCells] at h
    split at h
    · cases h
    · next c s₁ hc =>
      obtain ⟨r, hr, he⟩ := Option.map_eq_some_iff.mp h
      cases he
      obtain ⟨hlen, hstand⟩ := ih hr
      exact ⟨congrArg (· + 1) hlen, (takeCell_copiesStand hc).trans hstand⟩

theorem takeSlots_copiesStand (q n : Nat) (s : State) : CopiesStand no s (takeSlots q no n s).2 := by
  induction n generalizing s with
  | zero => exact .refl
  | succ n ih =>
    unfold takeSlots
    dsimp only
    refine CopiesStand.trans ((modQuad_copiesStand _ _).trans (modQueue_copiesStand ?_)) (ih _)
    exact fun _ => rfl

end

/-! ### The copy that is stored (R287, R288) -/

/-- From `s` to `t` copy `x` joins its queue with cells `l`, each charged once. -/
structure Stored (x : Copy) (l : List Nat) (s t : State) : Prop where
  fifo : (bufQueue t (queueNo x.port x.queue)).fifo = (bufQueue s (queueNo x.port x.queue)).fifo ++ [s.buf.nextCopy]
  copy : ∃ z, tabFind t.buf.copies s.buf.nextCopy = some z ∧ z.frame = x.frame ∧ z.quad = x.quad ∧ z.port = x.port ∧ z.queue = x.queue ∧
    z.cells = l ∧ z.guar + z.shared + z.headroom = l.length

section

variable {x : Copy} {l : List Nat} {s t u : State}

theorem Stored.after (h : Stored x l t u) (k : CopiesStand (queueNo x.port x.queue) s t) : Stored x l s u := by
  obtain ⟨hfifo, hcopy⟩ := h
  rw [k.next] at hfifo hcopy
  rw [k.fifo] at hfifo
  exact ⟨hfifo, hcopy⟩

theorem Stored.then (h : Stored x l s t) (k : CopiesStand (queueNo x.port x.queue) t u) : Stored x l s u := by
  obtain ⟨hfifo, hcopy⟩ := h
  rw [← k.fifo] at hfifo
  rw [← k.copies] at hcopy
  exact ⟨hfifo, hcopy⟩

theorem storeCopy_stored : Stored x l s (storeCopy x l s) := by
  have hslots : ∀ c : Bool, CopiesStand (queueNo x.port x.queue) s
      (if c then takeSlots x.quad (queueNo x.port x.queue) l.length s else ([], s)).2 := by
    intro c
    split
    · exact takeSlots_copiesStand _ _ _
    · exact .refl
  have hcounted : ∀ (p : Prop) [Decidable p] (c : Counter) (k m : Nat) (t : State),
      CopiesStand (queueNo x.port x.queue) t (if p then count c k m t else t) := by
    intro p _ c k m t
    split
    · exact copiesStand_of_buf (count_buf _ _ _ _)
    · exact .refl
  have hjoined : ∀ (y : Copy) (f : BufQueue → BufQueue) (t : State), (∀ v, (f v).fifo = v.fifo ++ [t.buf.nextCopy]) → y.frame = x.frame →
      y.quad = x.quad → y.port = x.port → y.queue = x.queue → y.cells = l → y.guar + y.shared + y.headroom = l.length →
      Stored x l t (modQueue (queueNo x.port x.queue) f
        (modBuf (fun b => { b with copies := tabPut t.buf.nextCopy y b.copies, nextCopy := t.buf.nextCopy + 1 }) t)) := by
    intro y f t hf h₁ h₂ h₃ h₄ h₅ h₆
    exact ⟨by rw [bufQueue_modQueue, hf]; rfl, y, tabFind_put _ _ _, h₁, h₂, h₃, h₄, h₅, h₆⟩
  unfold storeCopy
  dsimp only
  refine Stored.then ?_ (hcounted _ _ _ _ _)
  refine Stored.then ?_ (copiesStand_of_buf (count_buf _ _ _ _))
  refine Stored.then ?_ (hcounted _ _ _ _ _)
  refine Stored.after (hjoined _ _ _ (fun _ => rfl) rfl rfl rfl rfl rfl ?_) (hslots _)
  dsimp only [guaranteed]
  omega

/-- A copy that its queue takes, of a frame that gets its cells, is stored. -/
theorem admitCopy_stored {c : List Nat} {s₁ : State} (hreason : admitReason s x (reservation (frameOf s x.frame) x.trunc) = 0)
    (htake : takeCells x.quad (reservation (frameOf s x.frame) x.trunc) s = some (c, s₁)) :
    Stored x c s (admitCopy x none s).2 ∧ (admitCopy x none s).2.sw = s.sw := by
  have hcells : CopiesStand (queueNo x.port x.queue) s s₁ := (takeCells_copiesStand htake).2
  have hsw : s₁.sw = s.sw := (keeps_takeCells _ _ _ _ _ htake).same .sw rfl
  have hstored : ∀ t, CopiesStand (queueNo x.port x.queue) s t → Stored x c s (notePeakFree x.quad (storeCopy x c t)) := fun t ht =>
    (storeCopy_stored.after ht).then (modQuad_copiesStand _ _)
  have hsame : ∀ t, t.sw = s.sw → (notePeakFree x.quad (storeCopy x c t)).sw = s.sw := fun t ht =>
    ((keeps_notePeakFree _ _).same .sw rfl).trans (((keeps_storeCopy _ _ _).same .sw rfl).trans ht)
  unfold admitCopy copyCells
  dsimp only
  rw [hreason, htake]
  dsimp only [Option.map_some]
  split
  · contradiction
  · split
    · have hspent : ∀ n m t, CopiesStand (queueNo x.port x.queue) t (spendQueue (queueNo x.port x.queue) 0 5 n
          (count (bufQueueCnt 1) (queueNo x.port x.queue) m t)) := fun n m t =>
        (copiesStand_of_buf (count_buf _ _ _ _)).trans (copiesStand_of_buf ((keeps_spendQueue _ _ _ _ _).same .buf rfl))
      refine ⟨(hstored _ (hcells.trans (copiesStand_of_buf (count_buf _ _ _ _)))).then (hspent _ _ _), ?_⟩
      rw [(keeps_spendQueue _ _ _ _ _).same .sw rfl, count_sw, hsame _ ((count_sw _ _ _ _).trans hsw)]
    · exact ⟨hstored _ hcells, hsame _ hsw⟩

theorem admitCopy_refused (hreason : admitReason s x (reservation (frameOf s x.frame) x.trunc) ≠ 0) :
    (admitCopy x none s).2 = refuseCopy (admitReason s x (reservation (frameOf s x.frame) x.trunc)) x s := by
  unfold admitCopy
  dsimp only
  rw [if_pos (bne_iff_ne.mpr hreason)]

theorem admitReason_lt (n : Nat) : admitReason s x n < 256 := by
  unfold admitReason
  dsimp only
  split
  · decide
  · split
    · decide
    · split
      · decide
      · split
        · decide
        · split <;> decide

end

/-- What a refusal at admission may count beside its reason. -/
def admitDropCounters : List Counter := [bufQueueCnt 2, bufQueueCnt 3, bufQueueCnt 4, bufQueueCnt 5]

/-- A copy refused at admission counts once under its reason. -/
theorem refuseCopy_counted {r : Nat} (hr : r < 256) {x : Copy} (hx : x.exporter = none) (s : State) :
    counted (cSwcDrops r) x.quad 1 s (refuseCopy r x s) := by
  have hqueue : Counts admitDropCounters s (match admitDropCounter r with | some k => count k (queueNo x.port x.queue) 1 s | none => s) := by
    unfold admitDropCounter
    split
    · next h =>
      split at h <;> cases h <;> exact Counts.refl.count (by decide)
    · exact Counts.refl
  have hlogged : ∀ (p p' : Bool) (f f' : List (Nat × Nat)) (t : State), Counts [] t
      (if p then kilnOnce 0x0806 x.quad f t else if p' then kilnOnce 0x0807 (queueNo x.port x.queue) f' t else t) := by
    intro p p' f f' t
    split
    · exact counts_of_tel (kilnOnce_tel _ _ _ _)
    · split
      · exact counts_of_tel (kilnOnce_tel _ _ _ _)
      · exact Counts.refl
  have hapart : admitDropCounters.all (apart (cSwcDrops r)) = true := rfl
  unfold refuseCopy dropCopyIn
  dsimp only
  rw [hx]
  exact counts_then_counted ((hlogged _ _ _ _ _).after hqueue) (dropIn_counted _ _ _ _ _ (recordCounters_apart_drops hr)) hapart

end Sys2Proof.Proofs
end

section
/-!
PROOFS. Transfers and the statement (O32): admission to a queue, flits on the mesh, relays, the end of a hold, old multicast lists, and the
settling theorem.
-/

namespace Sys2Proof.Proofs

open Sys2Proof Sys2Proof.Machine Sys2Proof.Laws

/-! ### TRANSFER_ADMISSION (R288, R289, R324) -/

section

variable {x : Transfer} {p k : Nat} {s : State} (hgood : (frameOf s x.frame).bad = 0) (hopen : quadFenced s x.dst = false)
  (hconf : configured s p = true) (htakes : portTakes s p = true)
include hgood hopen hconf htakes

/-- A copy that its quadrant and its port take is admitted; what follows are mirror copies. -/
theorem admitMember_admits : Aside (admitCopy (copyFor s x p k) none s).2 (admitMember x (none, s) (p, k)).2 ∧
    (admitMember x (none, s) (p, k)).2.buf = (admitCopy (copyFor s x p k) none s).2.buf := by
  unfold admitMember
  dsimp only
  rw [if_neg (by simp [hgood]), if_neg (by simp [hopen]), if_neg (by simp [hconf]), if_neg (by simp [htakes])]
  split
  · exact ⟨.refl, rfl⟩
  · exact ⟨.foldl (fun t i => mirrorFrame_aside t i _) _ _,
      foldl_keeps State.buf fun t i _ => (keeps_mirrorFrame i x.frame t).same .buf rfl⟩

/-- A copy that its queue refuses has no mirror copies. -/
theorem admitMember_refused (hreason : admitReason s (copyFor s x p k) (reservation (frameOf s x.frame) (transferTrunc s x)) ≠ 0) :
    (admitMember x (none, s) (p, k)).2 =
      refuseCopy (admitReason s (copyFor s x p k) (reservation (frameOf s x.frame) (transferTrunc s x))) (copyFor s x p k) s := by
  have hrefused := admitCopy_refused (s := s) (x := copyFor s x p k) hreason
  have hnext : (admitCopy (copyFor s x p k) none s).2.buf.nextCopy = s.buf.nextCopy := by
    rw [hrefused, (keeps_refuseCopy _ _ _).same .buf rfl]
  unfold admitMember
  dsimp only
  rw [if_neg (by simp [hgood]), if_neg (by simp [hopen]), if_neg (by simp [hconf]), if_neg (by simp [htakes]), if_pos (by simp [hnext])]
  exact hrefused

end

section

variable {n p k : Nat} {x : Transfer} {s : State} (hx : s.sw.transfers.find? (fun y => y.id == n) = some x)
include hx

theorem id_of_find : x.id = n := by
  have hid := List.find?_some hx
  exact beq_iff_eq.mp hid

theorem notMem_withdrawn : x ∉ (withdrawn n s).sw.transfers := fun h => by
  have hid := (List.mem_filter.mp h).2
  simp [id_of_find hx] at hid

variable (hplace : x.place = .admission) (hfirst : admissionWaits s x = false) (hdest : x.dest = .unicast p k)
include hplace hfirst hdest

theorem exec_transferAdmission : exec (.transferAdmission n false) s =
    .next (settleFrame x.frame (admitMember x (none, withdrawn n s) (p, k)).2) := by
  have hmembers : ∀ t, transferMembers t x = [(p, k)] := fun t => by rw [transferMembers, hdest]
  have hcount : ∀ m t, countMcast x m t = t := fun m t => by rw [countMcast, hdest]
  have hlist : ∀ t, listBad t x = false := fun t => by rw [listBad, hdest]
  change execTransferAdmission n false s = _
  unfold execTransferAdmission
  rw [hx]
  simp [hplace, hfirst, hmembers, hcount, hlist, withdrawn]

variable (hgood : (frameOf s x.frame).bad = 0) (hopen : quadFenced s x.dst = false) (hconf : configured s p = true)
  (htakes : portTakes s p = true)
include hgood hopen hconf htakes

theorem transferAdmission_stores (hreason : admitReason s (copyFor s x p k) (reservation (frameOf s x.frame) (transferTrunc s x)) = 0)
    (hcells : (takeCells x.dst (reservation (frameOf s x.frame) (transferTrunc s x)) s).isSome = true) :
    Completes (.transferAdmission n false) s fun t => x ∉ t.sw.transfers ∧
      (bufQueue t (queueNo p k)).fifo = (bufQueue s (queueNo p k)).fifo ++ [s.buf.nextCopy] ∧
      ∃ z, tabFind t.buf.copies s.buf.nextCopy = some z ∧ z.frame = x.frame ∧ z.quad = x.dst ∧ z.port = p ∧ z.queue = k ∧
        z.cells.length = reservation (frameOf s x.frame) (transferTrunc s x) ∧
        z.guar + z.shared + z.headroom = reservation (frameOf s x.frame) (transferTrunc s x) := by
  obtain ⟨⟨l, s₁⟩, htake⟩ := Option.isSome_iff_exists.mp hcells
  have hlength : l.length = reservation (frameOf s x.frame) (transferTrunc s x) := (takeCells_copiesStand (no := 0) htake).1
  have htake' : takeCells x.dst (reservation (frameOf s x.frame) (transferTrunc s x)) (withdrawn n s) = some (l, withdrawn n s₁) := by
    rw [takeCells_withdrawn, htake]
    rfl
  obtain ⟨⟨hfifo, z, hz, hframe, hquad, hport, hqueue, hl, hcharged⟩, hsw⟩ :=
    admitCopy_stored (s := withdrawn n s) (x := copyFor s x p k) hreason htake'
  obtain ⟨haside, hbuf⟩ := admitMember_admits (s := withdrawn n s) (k := k) hgood hopen hconf htakes
  have hbuf' : (settleFrame x.frame (admitMember x (none, withdrawn n s) (p, k)).2).buf =
      (admitCopy (copyFor s x p k) none (withdrawn n s)).2.buf := ((keeps_settleFrame _ _).same .buf rfl).trans hbuf
  refine ⟨_, exec_transferAdmission hx hplace hfirst hdest, ?_, ?_, z, ?_, hframe, hquad, hport, hqueue, ?_, ?_⟩
  · intro hmem
    rw [(keeps_settleFrame _ _).same .sw rfl] at hmem
    rcases haside.joins x hmem with hold | hnot
    · exact notMem_withdrawn hx (hsw ▸ hold)
    · exact hnot p k hdest
  · rw [bufQueue, hbuf']
    exact hfifo
  · rw [hbuf']
    exact hz
  · rw [hl, hlength]
  · rw [hcharged, hlength]

theorem transferAdmission_refuses {r : Nat}
    (hreason : admitReason s (copyFor s x p k) (reservation (frameOf s x.frame) (transferTrunc s x)) = r) (hr : r ≠ 0) :
    Completes (.transferAdmission n false) s fun t => counted (cSwcDrops r) x.dst 1 s t ∧ t.buf.copies = s.buf.copies := by
  have hexporter : (copyFor s x p k).exporter = none := by
    change transferExporter x = none
    rw [transferExporter, hdest]
  have hlt : r < 256 := hreason ▸ admitReason_lt _
  have hrefused : (admitMember x (none, withdrawn n s) (p, k)).2 = refuseCopy r (copyFor s x p k) (withdrawn n s) := by
    have h := admitMember_refused (s := withdrawn n s) (k := k) hgood hopen hconf htakes (hreason.trans_ne hr)
    rw [h]
    exact congrArg (refuseCopy · (copyFor s x p k) (withdrawn n s)) hreason
  refine ⟨_, exec_transferAdmission hx hplace hfirst hdest, ?_⟩
  rw [hrefused]
  refine ⟨?_, ?_⟩
  · have hcounted : counted (cSwcDrops r) x.dst 1 s (refuseCopy r (copyFor s x p k) (withdrawn n s)) :=
      refuseCopy_counted hlt hexporter (withdrawn n s)
    exact counted_then_same hcounted ((keeps_settleFrame _ _).same .tel rfl)
  · rw [(keeps_settleFrame _ _).same .buf rfl, (keeps_refuseCopy _ _ _).same .buf rfl]
    rfl

end

/-! ### MESH_FLIT_RECEIVED and RELAY_TRANSFER (R309, R311) -/

section

variable {x : Transfer} {s : State}

theorem countCrossing_transfers (d : Nat) : (countCrossing d x s).sw.transfers = s.sw.transfers := by
  unfold countCrossing
  dsimp only
  split
  · rw [count_sw]
  · rfl

theorem countCrossing_counts (d : Nat) : Counts [cMeshRelay, cMeshDirect] s (countCrossing d x s) := by
  unfold countCrossing
  dsimp only
  split
  · split
    · exact Counts.refl.count (by decide)
    · exact Counts.refl.count (by decide)
  · exact counts_of_tel rfl

/-- A transfer that arrives stands in its next place. -/
theorem mem_arrive {t : State} (ht : t.sw.transfers = s.sw.transfers) (hx : x ∈ s.sw.transfers) {next : TransferPlace}
    (hnext : (if x.place == .send && x.via.isSome then TransferPlace.arrived else .admission) = next) (d : Nat) :
    { x with place := next } ∈ (arrive d x t).sw.transfers := by
  subst hnext
  have hmem : x ∈ (countCrossing d x t).sw.transfers := by rwa [countCrossing_transfers, ht]
  exact List.mem_map.mpr ⟨x, hmem, if_pos (beq_self_eq_true _)⟩

end

section

variable {d : LinkDir} {n : Nat} {x : Transfer} {s : State}
  (hx : s.sw.transfers.find? (fun y => y.id == n && nextDir y == some d.val) = some x) (hplace : x.place = .send) (hfirst : fifoWaits s x = false)
  (hup : dirUp s (dirEnds d.val).1 (dirEnds d.val).2 = true)
include hx hplace hfirst hup

/-- The outcomes of a flit of a transfer that no rule holds back: good, corrected and replayed. -/
theorem exec_meshFlitReceived (hroom : ∀ r, x.via = some r → relayUsed s r x.dst + x.resv ≤ relayRoom) :
    exec (.meshFlitReceived d n 0) s = .next (arrive d.val x s) ∧
      exec (.meshFlitReceived d n 1) s = .next (arrive d.val x (count cMeshCorrected d.val 1 s)) ∧
      exec (.meshFlitReceived d n 2) s = .next (count cMeshReplays d.val 1 s) := by
  have hexec : ∀ err, exec (.meshFlitReceived d n err) s = execMeshFlitReceived d n err s := fun _ => rfl
  simp only [hexec, execMeshFlitReceived, hx]
  cases hvia : x.via with
  | none => simp [hplace, hfirst, hup]
  | some r => simp [hplace, hfirst, hup, Nat.not_lt.mpr (hroom r hvia)]

theorem meshFlitReceived_direct (hvia : x.via = none) :
    (Completes (.meshFlitReceived d n 0) s fun t => { x with place := .admission } ∈ t.sw.transfers) ∧
      Completes (.meshFlitReceived d n 2) s fun t => t.sw = s.sw ∧ counted cMeshReplays d.val 1 s t := by
  obtain ⟨hgood, -, hreplay⟩ := exec_meshFlitReceived hx hplace hfirst hup (by simp [hvia])
  exact ⟨⟨_, hgood, mem_arrive rfl (List.mem_of_find?_eq_some hx) (by simp [hvia]) d.val⟩,
    ⟨_, hreplay, count_sw _ _ _ _, counted_count _ _ _ _⟩⟩

theorem meshFlitReceived_relayed {r : Nat} (hvia : x.via = some r) (hroom : relayUsed s r x.dst + x.resv ≤ relayRoom) :
    (Completes (.meshFlitReceived d n 0) s fun t => { x with place := .arrived } ∈ t.sw.transfers) ∧
      Completes (.meshFlitReceived d n 1) s fun t => { x with place := .arrived } ∈ t.sw.transfers ∧ counted cMeshCorrected d.val 1 s t := by
  obtain ⟨hgood, hcorrected, -⟩ := exec_meshFlitReceived hx hplace hfirst hup fun r' h => by
    cases hvia.symm.trans h
    exact hroom
  have harrives : ∀ t : State, t.sw.transfers = s.sw.transfers → { x with place := .arrived } ∈ (arrive d.val x t).sw.transfers := fun t ht =>
    mem_arrive ht (List.mem_of_find?_eq_some hx) (by simp [hplace, hvia]) d.val
  refine ⟨⟨_, hgood, harrives s rfl⟩, ⟨_, hcorrected, harrives _ (congrArg SwitchState.transfers (count_sw _ _ _ _)), ?_⟩⟩
  exact counted_then_same (counted_then_counts (counted_count _ _ _ _) (countCrossing_counts _)) rfl

end

theorem relayTransfer_queues {n : Nat} {x : Transfer} {s : State} (hx : s.sw.transfers.find? (fun y => y.id == n && y.place == .arrived) = some x)
    (hfirst : ((s.sw.transfers.takeWhile fun y => y.id != n).any fun y => y.place == .arrived && y.src == x.src && y.via == x.via) = false) :
    Completes (.relayTransfer n) s fun t => t.sw.transfers.getLast? = some { x with place := .relay } := by
  have hexec : exec (.relayTransfer n) s = .next (modSw (fun w => { w with
      transfers := (w.transfers.filter fun y => y.id != n) ++ [{ x with place := .relay }] }) s) := by
    change execRelayTransfer n s = _
    simp only [execRelayTransfer, hx, hfirst]
    rfl
  exact ⟨_, hexec, List.getLast?_concat⟩

/-! ### HOLD_EXPIRY and MCAST_OLD_LIST_FREE (R322, R327) -/

/-- What a flush of queues counts. -/
def flushCounters : List Counter := cBufRelease :: copyDropCounters 0x2B

theorem flushQueue_counts (d n : Nat) (s : State) : Counts flushCounters s (flushQueue 0x2B d s n) :=
  Counts.foldl (fun s c => ((releaseCopy_undisturbed c _).counts.mono (by decide)).after
    ((dropCopyIn_counts _ _ _ _ s _).mono fun _ => List.mem_cons_of_mem _) fun _ => id) _ s

theorem flushQueue_aside (r d n : Nat) (s : State) : Aside s (flushQueue r d s n) := .foldl (fun s c => dropCopy_aside r s c d) _ s

theorem flushPort_flushes (p : Nat) (s : State) :
    Aside s (flushPort p s) ∧ logged 0x0908 (flushPort p s) ∧ counted cSwcFlushes p 1 s (flushPort p s) := by
  have haside : ∀ ns : List Nat, Aside s (ns.foldl (flushQueue 0x2B 0) s) := fun ns => .foldl (fun s n => flushQueue_aside _ _ n s) ns s
  have hcounts : ∀ ns : List Nat, Counts flushCounters s (ns.foldl (flushQueue 0x2B 0) s) := fun ns =>
    .foldl (fun s n => flushQueue_counts _ n s) ns s
  unfold flushPort
  dsimp only
  refine ⟨?_, kiln_head _ _ _, ?_⟩
  · exact (((haside _).then_same (count_sw _ _ _ _)).then_same (count_sw _ _ _ _)).then_same (kiln_sw _ _ _)
  · refine counted_then_same ?_ (kiln_tel _ _ _)
    exact counted_then_counts (counts_then_counted (hcounts _) (counted_count _ _ _ _))
      (Counts.refl.count (l := [cSwcFlushCopies]) List.mem_cons_self)

theorem holdExpiry_flushes {p : Port} {a : Nat} {s : State} (ha : tabFind s.sw.hold p.val = some a) : Completes (.holdExpiry p) s fun t =>
    tabFind t.sw.hold p.val = none ∧ logged 0x0908 t ∧ a + portHoldUs s p.val * tUs ≤ t.now ∧ counted cSwcFlushes p.val 1 s t := by
  let s₁ := reach (a + portHoldUs s p.val * tUs) s
  have hexec : exec (.holdExpiry p) s = .next (endHold p.val s₁) := by
    change execHoldExpiry p s = _
    rw [execHoldExpiry, ha]
  obtain ⟨haside, hlogged, hcounted⟩ := flushPort_flushes p.val (modSw (fun t => { t with hold := tabDel p.val t.hold }) s₁)
  refine ⟨_, hexec, ?_, hlogged, (le_reach_now _ _).trans (keeps_endHold p.val s₁).now_le, hcounted⟩
  rw [endHold, haside.hold]
  exact tabFind_del _ _

theorem mcastOldListFree_frees {g : Fin 65536} {y : McastGroup} {s : State} (hy : tabFind s.sw.groups g.val = some y) :
    Completes (.mcastOldListFree g) s fun t =>
      tabFind t.sw.groups g.val = some { y with old := y.old.filter fun z => versionUsed s g.val z.1 } :=
  ⟨_, rfl, tabFind_upd hy _⟩

/-! ### The statement -/

/-- Settles O32: a lemma for each outcome of FRAME_DECISION and for each event of a transfer. That a transfer arrives whole with its first flit
(assumption 64) and that a copy has all its cells at admission (assumption 53) are the model's choices. -/
theorem decisionsReachTheirQueues : Obligations.DecisionsReachTheirQueues := by
  refine ⟨fun u v s hf hplace hlater hended hnone => ⟨?_, ?_, fun hgood hkeep => ⟨?_, ?_, fun hpath hlast => ⟨?_, fun hfree hring hgroup =>
    ⟨?_, ?_⟩⟩⟩⟩, fun n p k d port g x s => ⟨?_, ?_, ?_, ?_, ?_⟩⟩
  · exact frameDecision_dropsBad hf hplace hlater hended hnone
  · exact frameDecision_drops hf hplace hlater hended hnone
  · exact frameDecision_inspects hf hplace hlater hended hgood hkeep
  · exact frameDecision_recirculates hf hplace hlater hended hgood hkeep
  · refine frameDecision_waits hf hplace hlater hended hgood ?_
    rcases hpath with h | h <;> simp [needsWhole, hkeep, h, hlast]
  · exact frameDecision_dropsNowhere hf hplace hlater hended hnone hgood hkeep hpath hlast hfree hring hgroup
  · exact fun hport hconf hqueue hquad hlimit _ _ =>
      frameDecision_forms hf hplace hlater hended hnone hgood hkeep hpath hlast hfree hring hgroup hport hconf hqueue hquad hlimit
  · exact fun hx hplace hfirst hdest hgood hopen hconf htakes =>
      ⟨transferAdmission_stores hx hplace hfirst hdest hgood hopen hconf htakes,
        fun _ => transferAdmission_refuses hx hplace hfirst hdest hgood hopen hconf htakes⟩
  · exact fun hx hplace hfirst hup => ⟨fun hvia => (meshFlitReceived_direct hx hplace hfirst hup hvia).1,
      fun _ hvia hroom => meshFlitReceived_relayed hx hplace hfirst hup hvia hroom,
      fun hvia => (meshFlitReceived_direct hx hplace hfirst hup hvia).2⟩
  · exact relayTransfer_queues
  · exact fun _ => holdExpiry_flushes
  · exact fun _ => mcastOldListFree_frees

end Sys2Proof.Proofs
end

section
/-!
PROOFS. Rules of the action engines: what a read of a context, of a lock or of a STATE row returns after each update, what an engine counts, and
what an abandoned routine, a bad word and an executed word leave (R190, R195, R204 to R207, R210).
-/

namespace Sys2Proof.Proofs

open Sys2Proof Sys2Proof.Machine Sys2Proof.Laws

/-! ### Contexts and counters -/

section

variable {g st k : Nat} {s t : State}

theorem ctxOf_of_mat (h : t.mat = s.mat) : ctxOf t g st k = ctxOf s g st k := by rw [ctxOf, matStage_of_mat h, ctxOf]

theorem matStage_setCtx (c : Ctx) :
    matStage (setCtx g st k c s) g st = { matStage s g st with ctxs := tabPut k c (matStage s g st).ctxs } := matStage_modStage _ _ _ _

theorem ctxOf_setCtx (c : Ctx) : ctxOf (setCtx g st k c s) g st k = some c := by
  rw [ctxOf, matStage_setCtx]
  exact tabFind_put _ _ _

end

section

variable (i g st n : Nat) (s : State)

theorem countAct_mat : (countAct i g st n s).mat = s.mat := rfl

theorem countAct_fr : (countAct i g st n s).fr = s.fr := rfl

theorem countAct_counts : Counts [cAct 2 i, cAct 3 i] s (countAct i g st n s) :=
  (Counts.refl.count List.mem_cons_self).count (List.mem_cons_of_mem _ List.mem_cons_self)

theorem countAct_counted : counted (cAct 3 i) (32 * g + st) n s (countAct i g st n s) :=
  counted_count_of _ _ _ _ (countOf_count_of_apart (c := cAct 3 i) (d := cAct 2 i) rfl _ _ _ _)

end

/-! ### Locks and STATE rows (R204, R206, R207) -/

theorem lockOf_setLock (row : Nat) (l : RowLock) (v : MatStage) : lockOf (setLock row l v) row = l := tabGet_set _ _ _ _

theorem lockOf_setCtx {g st k : Nat} {c : Ctx} {s : State} (row : Nat) :
    lockOf (matStage (setCtx g st k c s) g st) row = lockOf (matStage s g st) row := by rw [lockOf, matStage_setCtx, lockOf]

theorem releaseLock_state (k : Nat) (c : Ctx) (v : MatStage) : (releaseLock k c v).state = v.state := by
  unfold releaseLock
  split <;> rfl

theorem stateWord_setStateWord (row w x : Nat) (v : MatStage) : stateWord (setStateWord row w x v) row w = x % 2 ^ 64 := tabGet_set _ _ _ _

theorem stateWord_setStateWord_ne {w j : Nat} (h : j ≠ w) (row x : Nat) (v : MatStage) :
    stateWord (setStateWord row w x v) row j = stateWord v row j := tabGet_set_ne _ _ (by omega)

/-- A stage with a STATE row as its image has it (R212). -/
def rowReset (row : Nat) (v : MatStage) : MatStage :=
  setStateWord row 1 (tabGet 0 v.stateInit (2 * row + 1)) (setStateWord row 0 (tabGet 0 v.stateInit (2 * row)) v)

theorem stateWord_rowReset {w : Nat} (hw : w < 2) (row : Nat) (v : MatStage) :
    stateWord (rowReset row v) row w = tabGet 0 v.stateInit (2 * row + w) % 2 ^ 64 := by
  obtain rfl | rfl : w = 0 ∨ w = 1 := by omega
  · rw [rowReset, stateWord_setStateWord_ne (by decide), stateWord_setStateWord, Nat.add_zero]
  · exact stateWord_setStateWord _ _ _ _

/-- A routine's addition to a word of a STATE row (R201). -/
theorem applyMemOp_add {o : MemOp} (hspace : o.space = 0) (hop : o.op = 4) (g st : Nat) (s : State) :
    stateWord (matStage (applyMemOp g st o s) g st) o.row o.word = (stateWord (matStage s g st) o.row o.word + o.data) % 2 ^ 64 := by
  rw [applyMemOp, if_pos (beq_iff_eq.mpr hspace), matStage_modStage]
  simp only [applyStateOp, hop]
  exact stateWord_setStateWord _ _ _ _

/-! ### Routines that give up their context (R206, R207, R210) -/

/-- A stage whose context `k`, with the routine `c`, is free again and holds no lock. -/
def ctxFreed (k : Nat) (c : Ctx) (v : MatStage) : MatStage := { releaseLock k c v with ctxs := tabDel k (releaseLock k c v).ctxs }

section

variable {g st k : Nat} {c : Ctx} {s t : State}

theorem ctxOf_ctxFreed : ctxOf (modStage g st (ctxFreed k c) s) g st k = none := by
  rw [ctxOf, matStage_modStage]
  exact tabFind_del _ _

theorem abandon_eq (hc : ctxOf s g st k = some c) (r : Nat) (info : CopyInfo) :
    abandon g st k r info s = dropFrame c.frame r info (modStage g st (ctxFreed k c) s) := by
  rw [abandon, hc]
  rfl

/-- An abandoned routine, whose frame is dropped with MACHINE_CHECK, after what changes no frame and counts no such drop. -/
theorem abandon_drops {l : List Counter} (hc : ctxOf t g st k = some c) (hfr : t.fr = s.fr) (hcounts : Counts l s t)
    (hl : l.all (apart (cSwcDrops 0x1B)) = true) (info : CopyInfo) :
    ctxOf (abandon g st k 0x1B info t) g st k = none ∧
    counted (cSwcDrops 0x1B) ((frameOf s c.frame).pipe / 16) 1 s (abandon g st k 0x1B info t) := by
  have hdrop := dropFrame_counted c.frame 0x1B info (modStage g st (ctxFreed k c) t)
  rw [frameOf_of_fr (s := s) (t := modStage g st (ctxFreed k c) t) c.frame hfr] at hdrop
  rw [abandon_eq hc, ctxOf_of_mat ((keeps_dropFrame _ _ _ _).same .mat rfl)]
  exact ⟨ctxOf_ctxFreed, counts_then_counted hcounts hdrop hl⟩

end

/-! ### Bad words (R210) -/

section

variable {g st k store addr : Nat} {c : Ctx} {s : State}

/-- A word found bad leaves every context as it was. -/
theorem ctxOf_wordBad : ctxOf (wordBad g st store addr s) g st k = ctxOf s g st k := by
  unfold wordBad
  dsimp only
  split
  · rw [ctxOf_of_mat ((detect_mat _ _ _ _ _).trans (kilnInj_mat _ _ _ _)), ctxOf, matStage_modStage]
    rfl
  · exact ctxOf_of_mat (detect_mat _ _ _ _ _)

/-- A word that was good is marked bad, its store's bit raised and the event logged. -/
theorem wordBad_marks (h : wordKey store addr ∉ (matStage s g st).faults.bad) :
    wordKey store addr ∈ (matStage (wordBad g st store addr s) g st).faults.bad ∧
    raised (20 + store) 6 (32 * g + st) s (wordBad g st store addr s) ∧ logged 0x0610 (wordBad g st store addr s) := by
  have hfresh : (!(matStage s g st).faults.bad.contains (wordKey store addr)) = true := by simpa using h
  unfold wordBad
  simp only [if_pos hfresh]
  refine ⟨?_, ?_, ?_⟩
  · rw [matStage_of_mat ((detect_mat _ _ _ _ _).trans (kilnInj_mat _ _ _ _)), matStage_modStage]
    exact List.mem_cons_self
  · refine raised_raiseFault ?_ _ _ _ _
    exact (kilnInj_flt_inFlight _ _ _ _).trans (congrArg FaultState.inFlight ((keeps_modStage _ _ _ _).same .flt rfl))
  · rw [logged, detect_kiln]
    exact kilnInj_head _ _ _ _

theorem machineCheck_drops (hc : ctxOf s g st k = some c) :
    ctxOf (machineCheck g st k store addr s) g st k = none ∧
    counted (cSwcDrops 0x1B) ((frameOf s c.frame).pipe / 16) 1 s (machineCheck g st k store addr s) := by
  have hkeeps := keeps_wordBad g st store addr s
  exact abandon_drops ((ctxOf_of_mat (countAct_mat _ _ _ _ _)).trans (ctxOf_wordBad.trans hc))
    ((countAct_fr _ _ _ _ _).trans (hkeeps.same .fr rfl)) (Counts.trans (counts_of_keeps hkeeps) (countAct_counts 5 g st 1 _)) rfl _

end

/-! ### Words (R195, R199) -/

/-- The immediate that the microword `w` gives its nanoword. -/
def immOf (w : Nat) : Nat := if bits w 0 2 == 0 || bits w 0 2 == 3 then bits w 12 12 else 0

/-- Where the routine `c` of the frame `f` goes on after the microword `w`, unless that ends it. -/
def pcAfter (w : Nat) (c : Ctx) (f : Frame) : Nat :=
  if bits w 0 2 == 1 && (branchHolds c f (bits w 12 4) != bit w 16) then c.pc + bits w 17 6 else c.pc + 1

/-- The context after the microword `w`, whose nanoword has made `c₁` of `c`. -/
def afterWord (w : Nat) (f : Frame) (c c₁ : Ctx) : Ctx :=
  { c₁ with pc := if bits w 0 2 == 3 then c.pc else pcAfter w c f, phase := if bits w 0 2 == 3 then .ending else .running }

theorem ctxOf_runMicro {g st k w : Nat} {c c₁ : Ctx} {s s₁ : State} (hw : microOf (matStage s g st) c.pc = w)
    (h : runNano g st k (bits w 2 10) (immOf w) c s = .ok (c₁, s₁)) :
    ctxOf (runMicro g st k c s) g st k = some (afterWord w (frameOf s c.frame) c c₁) := by
  subst hw
  have hrun : runMicro g st k c s =
      setCtx g st k (afterWord (microOf (matStage s g st) c.pc) (frameOf s c.frame) c c₁) s₁ := by
    unfold immOf at h
    simp only [runMicro, h]
    rfl
  rw [hrun, ctxOf_setCtx]

section

variable {w : Nat} {f : Frame} {c c₁ : Ctx}

theorem afterWord_exec (h : bits w 0 2 = 0) : afterWord w f c c₁ = { c₁ with pc := c.pc + 1, phase := .running } := by
  simp [afterWord, pcAfter, h]

theorem afterWord_branch (h : bits w 0 2 = 1) : afterWord w f c c₁ = { c₁ with
    pc := if (branchHolds c f (bits w 12 4) != bit w 16) = true then c.pc + bits w 17 6 else c.pc + 1, phase := .running } := by
  simp [afterWord, pcAfter, h]

theorem afterWord_wait (h : bits w 0 2 = 2) : afterWord w f c c₁ = { c₁ with pc := c.pc + 1, phase := .running } := by
  simp [afterWord, pcAfter, h]

theorem afterWord_end (h : bits w 0 2 = 3) : afterWord w f c c₁ = { c₁ with pc := c.pc, phase := .ending } := by simp [afterWord, h]

theorem immOf_given (h : bits w 0 2 = 0 ∨ bits w 0 2 = 3) : immOf w = bits w 12 12 := by rcases h with h | h <;> simp [immOf, h]

theorem immOf_none (h : bits w 0 2 = 1 ∨ bits w 0 2 = 2) : immOf w = 0 := by rcases h with h | h <;> simp [immOf, h]

end

end Sys2Proof.Proofs
end

section
/-!
PROOFS. Routines run, commit and fault (O21): a routine's issue, its words, waits, memory results, locks and commit, the faults of the action
engines and their repairs, and the statement from these.
-/

namespace Sys2Proof.Proofs

open Sys2Proof Sys2Proof.Machine Sys2Proof.Laws

/-! ### A routine's issue (R190) -/

section

variable {u : Nat} {f : Frame} {s : State} (hf : tabFind s.fr.frames u = some f) (hplace : f.place = .issue)
  (hstill : pipeStill s f.pipe = false)
include hf hplace hstill

theorem routineIssue_completes {j : Nat} (hfree : freeCtx (matStage s f.pipe f.stage) = some j) : Completes (.routineIssue u) s fun t =>
    ctxOf t f.pipe f.stage j = some { frame := u, pc := f.routine } ∧ (frameOf t u).place = .running := by
  have hexec : exec (.routineIssue u) s = .next (setCtx f.pipe f.stage j { frame := u, pc := f.routine }
      (modFrame u (fun f => { f with place := .running }) s)) := by
    change execRoutineIssue u s = _
    simp [execRoutineIssue, frameOf_of_find hf, hplace, engineIssues, hstill, hfree]
  refine ⟨_, hexec, ctxOf_setCtx _, ?_⟩
  rw [frameOf_of_fr u _ ((keeps_setCtx _ _ _ _ _).same .fr rfl), frameOf_of_find (tabFind_modFrame hf _)]

theorem routineIssue_full_completes (hfull : freeCtx (matStage s f.pipe f.stage) = none) : Completes (.routineIssue u) s fun t =>
    counted (cAct 3 3) (32 * f.pipe + f.stage) 1 s t ∧ t.mat = s.mat := by
  have hexec : exec (.routineIssue u) s = .next (countAct 3 f.pipe f.stage 1 s) := by
    change execRoutineIssue u s = _
    simp [execRoutineIssue, frameOf_of_find hf, hplace, engineIssues, hstill, hfull]
  exact ⟨_, hexec, countAct_counted _ _ _ _ _, rfl⟩

end

/-! ### Words, results and locks (R195, R201, R203, R207) -/

section

variable {g : Pipe} {st : StageNo} {k : Fin 64} {n w : Nat} {c : Ctx} {next : Ctx → Ctx} {s : State} (hc : ctxOf s g.val st.val k.val = some c)
include hc

section

variable (hfetch : fetchBad (matStage s g.val st.val) c = none) (hw : microOf (matStage s g.val st.val) c.pc = w)
include hfetch hw

section

variable (hphase : c.phase = .running)
include hphase

theorem microwordExecute_waits (hfmt : bits w 0 2 = 2) (hwait : waitHolds s g.val st.val c (bits w 12 4) (bits w 16 2) = false) :
    Completes (.microwordExecute g st k n) s fun t => ctxOf t g.val st.val k.val = some { c with phase := .waiting } := by
  have hexec : exec (.microwordExecute g st k n) s = .next (setCtx g.val st.val k.val { c with phase := .waiting } s) := by
    change execMicrowordExecute g st k n s = _
    simp [execMicrowordExecute, hc, hphase, hfetch, hw, hfmt, hwait]
  exact ⟨_, hexec, ctxOf_setCtx _⟩

/-- A word that does not wait is executed: its nanoword has the immediate `imm` and makes `c₁` of the context, which goes on as `next c₁`. -/
theorem microwordExecute_runs (hfmt : bits w 0 2 ≠ 2) (htag : tagFree (matStage s g.val st.val) c = true) {imm : Nat} (himm : immOf w = imm)
    (hafter : ∀ c₁, afterWord w (frameOf s c.frame) c c₁ = next c₁) (c₁ : Ctx) (s₁ : State)
    (h : runNano g.val st.val k.val (bits w 2 10) imm c (countAct 2 g.val st.val n s) = .ok (c₁, s₁)) :
    Completes (.microwordExecute g st k n) s fun t => ctxOf t g.val st.val k.val = some (next c₁) := by
  subst himm
  have hexec : exec (.microwordExecute g st k n) s = .next (runMicro g.val st.val k.val c (countAct 2 g.val st.val n s)) := by
    change execMicrowordExecute g st k n s = _
    simp [execMicrowordExecute, hc, hphase, hfetch, hw, hfmt, htag]
  exact ⟨_, hexec, hafter c₁ ▸ ctxOf_runMicro hw h⟩

end

theorem waitResume_runs (hphase : c.phase = .waiting) (hstill : pipeStill s g.val = false)
    (hfmt : bits w 0 2 = 2) (hwait : waitHolds s g.val st.val c (bits w 12 4) (bits w 16 2) = true)
    (htag : tagFree (matStage s g.val st.val) c = true) (c₁ : Ctx) (s₁ : State)
    (h : runNano g.val st.val k.val (bits w 2 10) 0 { c with phase := .running } (countAct 2 g.val st.val n s) = .ok (c₁, s₁)) :
    Completes (.waitResume g st k n) s fun t => ctxOf t g.val st.val k.val = some { c₁ with pc := c.pc + 1, phase := .running } := by
  have hexec : exec (.waitResume g st k n) s =
      .next (runMicro g.val st.val k.val { c with phase := .running } (countAct 2 g.val st.val n s)) := by
    change execWaitResume g st k n s = _
    simp [execWaitResume, hc, hphase, engineIssues, hstill, hfetch, hw, hwait, htag]
  have hafter : afterWord w (frameOf s c.frame) { c with phase := .running } c₁ = { c₁ with pc := c.pc + 1, phase := .running } :=
    afterWord_wait hfmt
  rw [← immOf_none (.inr hfmt)] at h
  exact ⟨_, hexec, hafter ▸ ctxOf_runMicro (c := { c with phase := .running }) hw h⟩

end

theorem memoryResultReturn_completes {tag : Fin 4} {x : Nat} (hx : tabFind c.outstanding tag.val = some (some x)) :
    Completes (.memoryResultReturn g st k tag) s fun t =>
      ctxOf t g.val st.val k.val = some { c with outstanding := tabDel tag.val c.outstanding, t := tabSet 0 tag.val x c.t } := by
  refine ⟨_, ?_, ctxOf_setCtx (s := s) _⟩
  change execMemoryResultReturn g st k tag s = _
  simp only [execMemoryResultReturn, hc, hx]

/-- The first waiter of a free row's lock is granted it, and reads the row. -/
theorem lockGranted_completes {row : Nat} (hrow : c.lockRow = some row) (hfree : (lockOf (matStage s g.val st.val) row).holder = none)
    (hfirst : (lockOf (matStage s g.val st.val) row).waiters.head? = some k.val) : Completes (.lockGranted g st k) s fun t =>
      (lockOf (matStage t g.val st.val) row).holder = some k.val ∧
      (lockOf (matStage t g.val st.val) row).waiters = (lockOf (matStage s g.val st.val) row).waiters.tail ∧
      ctxOf t g.val st.val k.val =
        some { c with outstanding := tabPut c.lockTag (some (stateWord (matStage s g.val st.val) row c.lockWord)) c.outstanding } := by
  let l : RowLock := { holder := some k.val, waiters := (lockOf (matStage s g.val st.val) row).waiters.tail }
  let c' : Ctx := { c with outstanding := tabPut c.lockTag (some (stateWord (matStage s g.val st.val) row c.lockWord)) c.outstanding }
  have hexec : exec (.lockGranted g st k) s =
      .next (setCtx g.val st.val k.val c' (modStage g.val st.val (setLock row l) s)) := by
    change execLockGranted g st k s = _
    simp [execLockGranted, hc, hrow, hfree, hfirst, l, c']
  have hlock : lockOf (matStage (setCtx g.val st.val k.val c' (modStage g.val st.val (setLock row l) s)) g.val st.val) row = l := by
    rw [lockOf_setCtx, matStage_modStage, lockOf_setLock]
  exact ⟨_, hexec, congrArg RowLock.holder hlock, congrArg RowLock.waiters hlock, ctxOf_setCtx _⟩

end

/-! ### Commit (R206) -/

/-- A frame with what the routine `c` has written, in the sequencer. -/
def committedFrame (c : Ctx) (f : Frame) : Frame :=
  { f with hdr := c.writes.foldl (fun h e => tabSet 0 e.1 e.2 h) f.hdr, place := .sequenced }

/-- `s` in which the deferred operations of the routine `c` have taken effect with its frame's containers. -/
def committedOps (g st : Nat) (c : Ctx) (s : State) : State :=
  c.deferred.foldl (fun s o => applyMemOp g st o s) (modFrame c.frame (committedFrame c) s)

theorem tabFind_committedOps {g st : Nat} {c : Ctx} {f : Frame} {s : State} (hf : tabFind s.fr.frames c.frame = some f) :
    tabFind (committedOps g st c s).fr.frames c.frame = some (committedFrame c f) := by
  have hfr : (committedOps g st c s).fr = (modFrame c.frame (committedFrame c) s).fr :=
    foldl_keeps State.fr fun s o _ => (keeps_applyMemOp g st o s).same .fr rfl
  rw [hfr]
  exact tabFind_modFrame hf _

theorem routineCommit_completes {g : Pipe} {st : StageNo} {k : Fin 64} {n : Nat} {c : Ctx} {f : Frame} {s : State}
    (hc : ctxOf s g.val st.val k.val = some c) (hphase : c.phase = .ending) (hout : c.outstanding = [])
    (hf : tabFind s.fr.frames c.frame = some f) : Completes (.routineCommit g st k n) s fun t =>
      ctxOf t g.val st.val k.val = none ∧ (frameOf t c.frame).place = .sequenced ∧
      (frameOf t c.frame).hdr = c.writes.foldl (fun h e => tabSet 0 e.1 e.2 h) f.hdr ∧
      (∀ o, c.deferred = [o] → o.space = 0 → o.op = 4 → stateWord (matStage t g.val st.val) o.row o.word =
        (stateWord (matStage s g.val st.val) o.row o.word + o.data) % 2 ^ 64) := by
  have hexec : exec (.routineCommit g st k n) s = .next (countAct 2 g.val st.val n (countAct 0 g.val st.val 1
      (modStage g.val st.val (ctxFreed k.val c) (committedOps g.val st.val c s)))) := by
    change execRoutineCommit g st k n s = _
    simp only [execRoutineCommit, hc]
    exact if_neg (by simp [hphase, hout])
  have hmat := (countAct_mat 2 g.val st.val n _).trans
    (countAct_mat 0 g.val st.val 1 (modStage g.val st.val (ctxFreed k.val c) (committedOps g.val st.val c s)))
  have hfr := ((countAct_fr 2 g.val st.val n _).trans (countAct_fr 0 g.val st.val 1 _)).trans
    ((keeps_modStage g.val st.val (ctxFreed k.val c) (committedOps g.val st.val c s)).same .fr rfl)
  have hframe := (frameOf_of_fr c.frame _ hfr).trans (frameOf_of_find (tabFind_committedOps hf))
  refine ⟨_, hexec, (ctxOf_of_mat hmat).trans ctxOf_ctxFreed, congrArg Frame.place hframe, congrArg Frame.hdr hframe, fun o ho hspace hop => ?_⟩
  have hops : committedOps g.val st.val c s = applyMemOp g.val st.val o (modFrame c.frame (committedFrame c) s) := by rw [committedOps, ho]; rfl
  rw [matStage_of_mat hmat, matStage_modStage, hops, stateWord, ctxFreed, releaseLock_state]
  exact applyMemOp_add hspace hop _ _ _

/-! ### Faults of the action engines (R210, R218) -/

/-- What ACT_HANG counts and logs before the routine is abandoned. -/
def hangNoted (g st k pc : Nat) (inj : Bool) (s : State) : State :=
  kilnInj inj 0x0612 [(1, g), (1, st), (2, k), (4, pc)] (countAct 2 g st 4096 (countAct 9 g st 1 s))

theorem hangNoted_mat (g st k pc : Nat) (inj : Bool) (s : State) : (hangNoted g st k pc inj s).mat = s.mat :=
  (kilnInj_mat _ _ _ _).trans ((countAct_mat _ _ _ _ _).trans (countAct_mat _ _ _ _ _))

theorem hangNoted_fr (g st k pc : Nat) (inj : Bool) (s : State) : (hangNoted g st k pc inj s).fr = s.fr :=
  (kilnInj_fr _ _ _ _).trans ((countAct_fr _ _ _ _ _).trans (countAct_fr _ _ _ _ _))

theorem hangNoted_counts (g st k pc : Nat) (inj : Bool) (s : State) :
    Counts ([cAct 2 9, cAct 3 9] ++ [cAct 2 2, cAct 3 2]) s (hangNoted g st k pc inj s) :=
  Counts.trans (Counts.after (countAct_counts _ _ _ _ _) ((countAct_counts _ _ _ _ _).mono (List.subset_append_left _ _)))
    (counts_of_tel (kilnInj_tel _ _ _ _))

section

variable {g : Pipe} {st : StageNo} {k : Fin 64} {c : Ctx} {s : State}

theorem actMicro_scan_completes {addr : Fin 8192} (h : (matStage s g.val st.val).faults.bad = []) :
    Completes (.actMicro g st addr none) s fun t => wordKey 0 addr.val ∈ (matStage t g.val st.val).faults.bad ∧
      raised 20 6 (32 * g.val + st.val) s t ∧ logged 0x0610 t := ⟨_, rfl, wordBad_marks (store := 0) (by simp [h])⟩

theorem actNano_scan_completes {addr : Fin 1024} (h : (matStage s g.val st.val).faults.bad = []) :
    Completes (.actNano g st addr none) s fun t => wordKey 1 addr.val ∈ (matStage t g.val st.val).faults.bad ∧
      raised 21 6 (32 * g.val + st.val) s t ∧ logged 0x0610 t := ⟨_, rfl, wordBad_marks (store := 1) (by simp [h])⟩

section

variable (hc : ctxOf s g.val st.val k.val = some c)
include hc

theorem actMicro_fetch_completes {addr : Fin 8192} (hpc : c.pc = addr.val) : Completes (.actMicro g st addr (some k)) s fun t =>
    ctxOf t g.val st.val k.val = none ∧ counted (cSwcDrops 0x1B) ((frameOf s c.frame).pipe / 16) 1 s t := by
  refine ⟨_, ?_, machineCheck_drops (store := 0) (addr := addr.val) hc⟩
  change execActMicro g st addr (some k) s = _
  simp [execActMicro, hc, hpc]

theorem actNano_fetch_completes {addr : Fin 1024} (haddr : bits (microOf (matStage s g.val st.val) c.pc) 2 10 = addr.val) :
    Completes (.actNano g st addr (some k)) s fun t =>
      ctxOf t g.val st.val k.val = none ∧ counted (cSwcDrops 0x1B) ((frameOf s c.frame).pipe / 16) 1 s t := by
  refine ⟨_, ?_, machineCheck_drops (store := 1) (addr := addr.val) hc⟩
  change execActNano g st addr (some k) s = _
  simp [execActNano, hc, haddr]

/-- A detection whose containment abandons the routine of context `k`, after what changes no context and no frame and counts no such drop. -/
theorem detect_abandons {l : List Counter} {info : CopyInfo} {before : Bool → State → State} (hmat : ∀ inj, (before inj s).mat = s.mat)
    (hfr : ∀ inj, (before inj s).fr = s.fr) (hcounts : ∀ inj, Counts l s (before inj s)) (hl : l.all (apart (cSwcDrops 0x1B)) = true) (b : Nat) :
    let t := detect b 6 (32 * g.val + st.val) (fun inj s => abandon g.val st.val k.val 0x1B info (before inj s)) s
    ctxOf t g.val st.val k.val = none ∧ counted (cSwcDrops 0x1B) ((frameOf s c.frame).pipe / 16) 1 s t ∧
      raisedLast b 6 (32 * g.val + st.val) t := by
  have hdrops := fun inj => abandon_drops ((ctxOf_of_mat (hmat inj)).trans hc) (hfr inj) (hcounts inj) hl info
  exact ⟨(ctxOf_of_mat (detect_mat _ _ _ _ _)).trans (hdrops _).1, counted_detect (fun inj => (hdrops inj).2) _ _ _, raisedLast_detect _ _ _ _ _⟩

theorem actContext_completes : Completes (.actContext g st k) s fun t => ctxOf t g.val st.val k.val = none ∧
    counted (cSwcDrops 0x1B) ((frameOf s c.frame).pipe / 16) 1 s t ∧ raisedLast 22 6 (32 * g.val + st.val) t := by
  refine ⟨_, ?_, detect_abandons hc (l := []) (info := machineCheckInfo st.val 0 c.pc) (before := fun _ s => s) (fun _ => rfl) (fun _ => rfl)
    (fun _ => Counts.refl) rfl 22⟩
  change execActContext g st k s = _
  simp only [execActContext, hc]

theorem actHang_completes (hphase : c.phase = .waiting) : Completes (.actHang g st k) s fun t => ctxOf t g.val st.val k.val = none ∧
    counted (cSwcDrops 0x1B) ((frameOf s c.frame).pipe / 16) 1 s t ∧ raisedLast 23 6 (32 * g.val + st.val) t := by
  refine ⟨_, ?_, detect_abandons hc (info := machineCheckInfo st.val 0 c.pc) (before := hangNoted g.val st.val k.val c.pc)
    (fun inj => hangNoted_mat _ _ _ _ inj s) (fun inj => hangNoted_fr _ _ _ _ inj s) (fun inj => hangNoted_counts _ _ _ _ inj s) (by decide) 23⟩
  change execActHang g st k s = _
  simp only [execActHang, hc]
  exact if_neg (by simp [hphase])

end

/-! ### Repairs (R211, R212) -/

theorem storeReload_word_completes {addr : Fin 8192} (hbad : wordKey 0 addr.val ∈ (matStage s g.val st.val).faults.bad)
    (hwhole : 0 ∉ (matStage s g.val st.val).faults.whole) : Completes (.storeReload g st 0 (some addr)) s fun t =>
      wordKey 0 addr.val ∉ (matStage t g.val st.val).faults.bad ∧ logged 0x0611 t := by
  refine ⟨_, if_neg (by simp [hbad, hwhole]), ?_, kiln_head _ _ _⟩
  rw [matStage_of_mat (kiln_mat _ _ _), matStage_modStage]
  simp

theorem storeReload_whole_completes (hwhole : 1 ∈ (matStage s g.val st.val).faults.whole) : Completes (.storeReload g st 1 none) s fun t =>
    (∀ x ∈ (matStage t g.val st.val).faults.bad, x / 65536 ≠ 1) ∧ 1 ∉ (matStage t g.val st.val).faults.whole ∧ logged 0x0611 t := by
  refine ⟨_, if_neg (by simp [hwhole]), fun x hx => ?_, ?_, kiln_head _ _ _⟩
  · rw [matStage_of_mat (kiln_mat _ _ _), matStage_modStage] at hx
    simpa using (List.mem_filter.mp hx).2
  · rw [matStage_of_mat (kiln_mat _ _ _), matStage_modStage]
    simp

theorem stateRowReset_completes {row : Nat} (hrow : row < stateRows (matStage s g.val st.val)) :
    Completes (.stateRowReset g st row none) s fun t =>
      (∀ w, w < 2 → stateWord (matStage t g.val st.val) row w = tabGet 0 (matStage s g.val st.val).stateInit (2 * row + w) % 2 ^ 64) ∧
      raised 14 6 (32 * g.val + st.val) s t ∧ logged 0x0613 t := by
  obtain ⟨-, hlogs⟩ := detect_logs 14 6 (32 * g.val + st.val) 0x0613
    [(1, g.val), (1, st.val), (1, stateUnit (matStage s g.val st.val) row), (4, row % 4096)]
    (f := fun s => countAct 10 g.val st.val 1 (modStage g.val st.val (rowReset row) s)) (s := s) rfl
  refine ⟨_, if_neg (Nat.not_le.mpr hrow), fun w hw => ?_, hlogs⟩
  have hmat : ∀ inj fs, matStage (kilnInj inj 0x0613 fs (countAct 10 g.val st.val 1 (modStage g.val st.val (rowReset row) s))) g.val st.val =
      rowReset row (matStage s g.val st.val) := fun _ _ =>
    (matStage_of_mat ((kilnInj_mat _ _ _ _).trans (countAct_mat _ _ _ _ _)) _ _).trans (matStage_modStage _ _ _ _)
  rw [matStage_of_mat (detect_mat _ _ _ _ _)]
  exact (congrArg (stateWord · row w) (hmat _ _)).trans (stateWord_rowReset hw _ _)

end

/-! ### The statement -/

/-- Settles O21: a lemma for a routine's issue, for each format of a word, for each event of its context, and for each fault and repair. -/
theorem routinesRunCommitAndFault : Obligations.RoutinesRunCommitAndFault := by
  refine ⟨fun g st k tag n u f c s => ⟨fun hf hplace hstill =>
      ⟨fun _ => routineIssue_completes hf hplace hstill, routineIssue_full_completes hf hplace hstill⟩, fun hc =>
      ⟨fun hphase hfetch => microwordExecute_waits hc hfetch rfl hphase, ?_, ?_, ?_,
        fun hphase hstill hfetch => waitResume_runs hc hfetch rfl hphase hstill,
        fun _ => memoryResultReturn_completes hc, fun _ => lockGranted_completes hc, routineCommit_completes hc⟩⟩,
    fun g st k addr na row c s => ⟨fun h => ⟨actMicro_scan_completes h, actNano_scan_completes h⟩,
      fun hc => ⟨actMicro_fetch_completes hc, actNano_fetch_completes hc, actContext_completes hc, actHang_completes hc⟩,
      storeReload_word_completes, storeReload_whole_completes, stateRowReset_completes⟩⟩
  · exact fun hphase hfetch hfmt htag => microwordExecute_runs hc hfetch rfl hphase (by omega) htag (immOf_given (.inl hfmt))
      fun _ => afterWord_exec hfmt
  · exact fun hphase hfetch hfmt htag => microwordExecute_runs hc hfetch rfl hphase (by omega) htag (immOf_given (.inr hfmt))
      fun _ => afterWord_end hfmt
  · exact fun hphase hfetch hfmt htag => microwordExecute_runs hc hfetch rfl hphase (by omega) htag (immOf_none (.inl hfmt))
      fun _ => afterWord_branch hfmt

end Sys2Proof.Proofs
end

section
/-!
PROOFS. Faults of the forwarding tables (R256, O27): what a pipeline's tables read as after each update, what a host-table lookup that ends
leaves, and the faults and the statement from these.
-/

namespace Sys2Proof.Proofs

open Sys2Proof Sys2Proof.Machine Sys2Proof.Laws

/-! ### Updates of a pipeline's tables -/

section

variable (g : Nat) (s : State)

@[simp] theorem fwdPipe_setFwdPipe (v : FwdPipe) : fwdPipe (setFwdPipe g v s) g = v := tabGet_set _ _ _ _

@[simp] theorem fwdPipe_modWindow (f : FdbWindow → FdbWindow) :
    fwdPipe (modWindow g f s) g = { fwdPipe s g with window := f (fwdPipe s g).window } := fwdPipe_modFwdPipe _ _ _

theorem fdbAt_of_fwd {t : State} (h : t.fwd = s.fwd) (i : Nat) : fdbAt t g i = fdbAt s g i := by rw [fdbAt, fwdPipe_of_fwd h, fdbAt]

@[simp] theorem fdbAt_fdbPut (i : Nat) (r : Option Nat) : fdbAt (fdbPut g i r s) g i = r := by
  rw [fdbAt, fdbPut, fwdPipe_modFwdPipe]
  cases r with
  | none => exact tabFind_del _ _
  | some r => exact tabFind_put _ _ _

end

/-! ### A host-table lookup that ends (R253) -/

section

variable {u status : Nat} {f : Frame} {s : State} (result late : Nat)

theorem endHostRead_fwd : (endHostRead u status result late s).fwd = (setHostReads (quadOfPipe (frameOf s u).pipe)
    ((hostReads s (quadOfPipe (frameOf s u).pipe)).filter fun r => r.frame != u) s).fwd := by
  unfold endHostRead
  dsimp only
  split <;> rfl

variable (hf : tabFind s.fr.frames u = some f)
include hf

theorem endHostRead_frame : (frameOf (endHostRead u status result late s) u).hostDue = false ∧
    (frameOf (endHostRead u status result late s) u).hostRes = status + 16 * result := by
  have hend : ∃ place, tabFind (endHostRead u status result late s).fr.frames u =
      some { f with hostDue := false, hostRes := status + 16 * result, place } := by
    have hcounted : ∀ q l, tabFind (count (cHostStatus status) q 1 (setHostReads q l s)).fr.frames u = some f := fun _ _ => by
      rw [count_fr]
      exact hf
    unfold endHostRead
    dsimp only
    split
    · refine ⟨.stage, ?_⟩
      rw [count_fr]
      exact tabFind_modFrame (tabFind_modFrame (hcounted _ _) _) _
    · exact ⟨f.place, tabFind_modFrame (hcounted _ _) _⟩
  obtain ⟨place, hplace⟩ := hend
  rw [frameOf_of_find hplace]
  exact ⟨rfl, rfl⟩

/-- The lookup counts once, by its status, whatever clocks its stage has waited. -/
theorem endHostRead_counted (hlt : status < 5) :
    counted (cHostStatus status) (quadOfPipe f.pipe) 1 s (endHostRead u status result late s) := by
  have hcount : ∀ v : List HostRead, counted (cHostStatus status) (quadOfPipe f.pipe) 1 s
      (count (cHostStatus status) (quadOfPipe f.pipe) 1 (setHostReads (quadOfPipe f.pipe) v s)) := fun _ => counted_count_of _ _ _ _ rfl
  have happart : [cHostLateClocks].all (apart (cHostStatus status)) = true := by
    simp [apart, cHostStatus, cHostLateClocks]
    omega
  unfold endHostRead
  dsimp only
  rw [frameOf_of_find hf]
  split
  · exact counted_then_counts (hcount _) (Counts.count (counts_of_tel rfl) List.mem_cons_self) happart
  · exact counted_then_same (hcount _) rfl

end

/-! ### Faults (R256) -/

section

variable {g : Pipe} {u i : Nat} {slot : Fin 4} {s : State}

theorem fdbLearnFault_completes : Completes (.fdbLearnFault g) s fun t => raised 24 5 g.val s t ∧ (fwdPipe t g.val).learnQ = [] ∧
    (fwdPipe t g.val).learning = false ∧ counted cFdbLearnLost g.val (fwdPipe s g.val).learnQ.length s t := by
  refine ⟨_, rfl, raised_detect (fun _ => rfl) _ _ _, ?_, ?_, counted_detect (fun _ => counted_count_of _ _ _ _ rfl) _ _ _⟩
  · rw [fwdPipe_of_fwd (detect_fwd _ _ _ _ _), fwdPipe_of_fwd (count_fwd _ _ _ _), fwdPipe_modFwdPipe]
  · rw [fwdPipe_of_fwd (detect_fwd _ _ _ _ _), fwdPipe_of_fwd (count_fwd _ _ _ _), fwdPipe_modFwdPipe]

theorem fdbCmdFault_completes : Completes (.fdbCmdFault g) s fun t => raised 25 5 g.val s t ∧ (fwdPipe t g.val).window.busy = false ∧
    (fwdPipe t g.val).fdb = (fwdPipe s g.val).fdb ∧
    ((fwdPipe s g.val).window.busy = true → (fwdPipe t g.val).window.status = 9 ∧ (fwdPipe t g.val).window.done = true) := by
  refine ⟨_, rfl, raised_detect (fun _ => rfl) _ _ _, ?_⟩
  rw [fwdPipe_of_fwd (detect_fwd _ _ _ _ _), fwdPipe_modWindow]
  exact ⟨rfl, rfl, fun hbusy => ⟨if_pos hbusy, hbusy⟩⟩

/-- A slot of the host table that holds an uncorrectable word. -/
def poisonHostSlot (k : Nat) (s : State) : State := modFwd (fun t => { t with hostBad := k :: t.hostBad }) s

/-- The bucket of the frame's request is bad: its lookup ends with status 4 and the slot is poisoned. -/
theorem hostRead_completes {f : Frame} {r : HostRead} (hf : tabFind s.fr.frames u = some f)
    (hr : (hostReads s (quadOfPipe f.pipe)).find? (fun r => r.frame == u) = some r) : Completes (.hostRead u slot) s fun t =>
      raised 26 7 (quadOfPipe f.pipe) s t ∧ logged 0x0626 t ∧ (frameOf t u).hostDue = false ∧ (frameOf t u).hostRes = 4 ∧
      hostSlotKey (quadOfPipe f.pipe) (hostBucket (b2n r.second) r.key) slot.val ∈ t.fwd.hostBad := by
  have hexec : exec (.hostRead u slot) s = .next (detect 26 7 (quadOfPipe f.pipe) (fun inj s => kilnInj inj 0x0626
      [(1, quadOfPipe f.pipe), (4, hostBucket (b2n r.second) r.key), (1, slot.val)] (endHostRead u 4 0 0
        (poisonHostSlot (hostSlotKey (quadOfPipe f.pipe) (hostBucket (b2n r.second) r.key) slot.val) s))) s) := by
    change execHostRead u slot s = _
    simp only [execHostRead, frameOf_of_find hf, hr]
    rfl
  obtain ⟨-, hraised, hlogged⟩ := detect_logs 26 7 (quadOfPipe f.pipe) 0x0626
    [(1, quadOfPipe f.pipe), (4, hostBucket (b2n r.second) r.key), (1, slot.val)] (s := s)
    (f := fun s => endHostRead u 4 0 0 (poisonHostSlot (hostSlotKey (quadOfPipe f.pipe) (hostBucket (b2n r.second) r.key) slot.val) s))
    (congrArg FaultState.inFlight ((keeps_endHostRead _ _ _ _ _).same .flt rfl))
  refine ⟨_, hexec, hraised, hlogged, ?_⟩
  rw [frameOf_of_fr u _ ((detect_fr _ _ _ _ _).trans (kilnInj_fr _ _ _ _)), detect_fwd, kilnInj_fwd, endHostRead_fwd]
  obtain ⟨hdue, hres⟩ := endHostRead_frame (status := 4) 0 0
    (s := poisonHostSlot (hostSlotKey (quadOfPipe f.pipe) (hostBucket (b2n r.second) r.key) slot.val) s) hf
  exact ⟨hdue, hres, List.mem_cons_self⟩

/-- A dynamic entry that the audit finds wrong goes; a static one stands, restored from the shadow. -/
theorem fwdAudit_row_completes {r : Nat} (hr : fdbAt s g.val i = some r) : Completes (.fwdAudit g (some i)) s fun t =>
    raised 27 5 g.val s t ∧ fdbAt t g.val i = if rowStatic r then some r else none := by
  have hexec : exec (.fwdAudit g (some i)) s =
      .next (detect 27 5 g.val (fun _ s => if rowStatic r then s else fdbPut g.val i none s) s) := by
    change execFwdAudit g (some i) s = _
    simp only [execFwdAudit, detect, hr]
  refine ⟨_, hexec, ?_⟩
  by_cases hstatic : rowStatic r = true
  · simp only [if_pos hstatic]
    exact ⟨raised_detect (fun _ => rfl) _ _ _, (fdbAt_of_fwd _ _ (detect_fwd _ _ _ _ _) i).trans hr⟩
  · simp only [if_neg hstatic]
    exact ⟨raised_detect (fun _ => rfl) _ _ _, (fdbAt_of_fwd _ _ (detect_fwd _ _ _ _ _) i).trans (fdbAt_fdbPut _ _ _ _)⟩

theorem fwdAudit_routes_completes : Completes (.fwdAudit g none) s fun t => raised 27 5 g.val s t ∧ t.fwd = s.fwd :=
  ⟨_, rfl, raised_detect (fun _ => rfl) _ _ _, detect_fwd _ _ _ _ _⟩

end

/-- Settles O27: a lemma for each fault of the forwarding tables. -/
theorem forwardingFaultsAreContained : Obligations.ForwardingFaultsAreContained := fun _ _ _ _ =>
  ⟨fdbLearnFault_completes, fdbCmdFault_completes, fun _ _ => hostRead_completes, fun _ _ => fwdAudit_row_completes, fwdAudit_routes_completes⟩

end Sys2Proof.Proofs
end

section
/-!
PROOFS. Learning and notifications (R226 to R230, R236, part of O26): what an operation on the FDB's rows and what a notification may change, and
what a learn request leaves.
-/

namespace Sys2Proof.Proofs

open Sys2Proof Sys2Proof.Machine Sys2Proof.Laws

/-! ### Operations on rows (R232, R234) -/

/-- From `s` to `t` pipeline `g` may differ in its rows and in the pairs that its notifications hold, and in nothing else; the jobs of Icoux
stand. -/
structure RowsOnly (g : Nat) (s t : State) : Prop where
  pipe : ∃ fdb relgen poisoned held, fwdPipe t g = { fwdPipe s g with fdb, relgen, poisoned, held }
  jobs : t.fwd.jobs = s.fwd.jobs

section

variable {g : Nat} {s t u : State}

theorem RowsOnly.refl : RowsOnly g s s := ⟨⟨_, _, _, _, rfl⟩, rfl⟩

theorem RowsOnly.trans (h : RowsOnly g s t) (k : RowsOnly g t u) : RowsOnly g s u := by
  obtain ⟨⟨_, _, _, _, hpipe⟩, hjobs⟩ := h
  obtain ⟨⟨_, _, _, _, kpipe⟩, kjobs⟩ := k
  exact ⟨⟨_, _, _, _, by rw [kpipe, hpipe]⟩, kjobs.trans hjobs⟩

/-- An operation that leaves the forwarding tables alone, after others. -/
theorem RowsOnly.then_same (h : RowsOnly g s t) (k : u.fwd = t.fwd) : RowsOnly g s u :=
  h.trans ⟨⟨_, _, _, _, fwdPipe_of_fwd k g⟩, congrArg FwdState.jobs k⟩

theorem RowsOnly.learnQ (h : RowsOnly g s t) : (fwdPipe t g).learnQ = (fwdPipe s g).learnQ := by
  obtain ⟨_, _, _, _, hpipe⟩ := h.pipe
  rw [hpipe]

theorem RowsOnly.learning (h : RowsOnly g s t) : (fwdPipe t g).learning = (fwdPipe s g).learning := by
  obtain ⟨_, _, _, _, hpipe⟩ := h.pipe
  rw [hpipe]

theorem RowsOnly.lastGrant (h : RowsOnly g s t) : (fwdPipe t g).lastGrant = (fwdPipe s g).lastGrant := by
  obtain ⟨_, _, _, _, hpipe⟩ := h.pipe
  rw [hpipe]

theorem RowsOnly.modFwdPipe {f : FwdPipe → FwdPipe} (h : RowsOnly g s t)
    (hf : ∀ v, ∃ fdb relgen poisoned held, f v = { v with fdb, relgen, poisoned, held }) : RowsOnly g s (modFwdPipe g f t) := by
  obtain ⟨fdb, relgen, poisoned, held, hv⟩ := hf (fwdPipe t g)
  exact h.trans ⟨⟨fdb, relgen, poisoned, held, (fwdPipe_modFwdPipe g f t).trans hv⟩, rfl⟩

theorem RowsOnly.fdbPut (h : RowsOnly g s t) (i : Nat) (r : Option Nat) : RowsOnly g s (fdbPut g i r t) :=
  h.modFwdPipe fun _ => ⟨_, _, _, _, rfl⟩

theorem RowsOnly.moveRow (h : RowsOnly g s t) (m : Nat × Nat) : RowsOnly g s (moveRow g t m) := by
  have hmoved := (h.fdbPut m.1 (fdbAt t g m.2)).fdbPut m.2 none
  unfold Machine.moveRow
  exact RowsOnly.then_same (hmoved.modFwdPipe fun v => ⟨v.fdb, wrapAdd 32 v.relgen 1, v.poisoned, v.held, rfl⟩) (count_fwd _ _ _ _)

theorem RowsOnly.moveRows (h : RowsOnly g s t) (ms : List (Nat × Nat)) : RowsOnly g s (ms.foldl (Machine.moveRow g) t) := by
  induction ms generalizing t with
  | nil => exact h
  | cons m ms ih =>
    rw [List.foldl_cons]
    exact ih (h.moveRow m)

theorem rowsOnly_fdbInsert {row i : Nat} (h : fdbInsert g row s = some (i, t)) : RowsOnly g s t := by
  unfold fdbInsert at h
  dsimp only at h
  split at h
  · cases h
    exact RowsOnly.refl.fdbPut _ _
  · split at h
    · cases h
    · split at h
      · cases h
        exact (RowsOnly.refl.moveRows _).fdbPut _ _
      · cases h

theorem rowsOnly_fdbWrite {row i : Nat} (h : fdbWrite g row s = .ok (i, t)) : RowsOnly g s t := by
  cases hold : fdbFind s g (rowKey row) with
  | none =>
    simp only [fdbWrite, hold] at h
    split at h
    · cases h
    · split at h
      · next hinsert =>
        cases h
        exact rowsOnly_fdbInsert hinsert
      · cases h
  | some e =>
    simp only [fdbWrite, hold] at h
    split at h
    · cases h
    · cases h
      exact RowsOnly.refl.fdbPut _ _

theorem rowsOnly_fdbEntryOp (o : Bytes) : RowsOnly g s (fdbEntryOp g o s).2 := by
  unfold fdbEntryOp
  dsimp only
  split
  · split
    · next hwrite => exact rowsOnly_fdbWrite hwrite
    · exact RowsOnly.refl
  · split
    · dsimp only
      exact RowsOnly.refl.fdbPut _ _
    · exact RowsOnly.refl
  · dsimp only
    exact RowsOnly.refl.modFwdPipe fun _ => ⟨_, _, _, _, rfl⟩

end

/-! ### Notifications (R236, R237) -/

/-- An event, or a record, that the ring of quadrant `q` loses. -/
def loseEvent (q : Nat) (s : State) : State := count cNtfLost q 1 (setNtfRing q { ntfRing s q with lost := (ntfRing s q).lost + 1 } s)

/-- Before a record the ring of quadrant `q` reports what it has lost. -/
def reportLost (q : Nat) (s : State) : State :=
  if (ntfRing s q).lost == 0 then s
  else kiln 0x0625 [(1, q), (4, (ntfRing s q).lost)] (setNtfRing q
    { ntfRing (ntfWrite q (lostRecord s q (ntfRing s q).lost) s) q with lost := 0 } (ntfWrite q (lostRecord s q (ntfRing s q).lost) s))

theorem notify_eq (g : Nat) (e : FdbEvent) (s : State) : notify g e s =
    if !ntfEnabled s (quadOfPipe g) || !bit (u8 (learnObj s g) 9) (e.kind - 1) || pairHeld s g e then s
    else if ntfFull s (quadOfPipe g) then loseEvent (quadOfPipe g) s
    else if !(takeLimit .notify (quadOfPipe g) s).1 then loseEvent (quadOfPipe g) (takeLimit .notify (quadOfPipe g) s).2
    else if ntfFull (reportLost (quadOfPipe g) (takeLimit .notify (quadOfPipe g) s).2) (quadOfPipe g) then
      loseEvent (quadOfPipe g) (reportLost (quadOfPipe g) (takeLimit .notify (quadOfPipe g) s).2)
    else holdPair g e (ntfWrite (quadOfPipe g) (eventRecord (reportLost (quadOfPipe g) (takeLimit .notify (quadOfPipe g) s).2) g e)
      (reportLost (quadOfPipe g) (takeLimit .notify (quadOfPipe g) s).2)) := rfl

def ntfCounters : List Counter := [cNtfRecords, cNtfLost]

/-- From `s` to `t` pipeline `g` may differ in the pairs that its notifications hold alone, and only the rings' counters have counted; the jobs of
Icoux stand. -/
structure NotesOnly (g : Nat) (s t : State) : Prop where
  pipe : ∃ held, fwdPipe t g = { fwdPipe s g with held }
  jobs : t.fwd.jobs = s.fwd.jobs
  counts : Counts ntfCounters s t

section

variable {g q : Nat} {s t u : State}

theorem NotesOnly.trans (h : NotesOnly g s t) (k : NotesOnly g t u) : NotesOnly g s u := by
  obtain ⟨⟨_, hpipe⟩, hjobs, hcounts⟩ := h
  obtain ⟨⟨_, kpipe⟩, kjobs, kcounts⟩ := k
  exact ⟨⟨_, by rw [kpipe, hpipe]⟩, kjobs.trans hjobs, hcounts.trans kcounts⟩

theorem notesOnly_of_pipes (hpipes : t.fwd.pipes = s.fwd.pipes) (hjobs : t.fwd.jobs = s.fwd.jobs) (hcounts : Counts ntfCounters s t) :
    NotesOnly g s t := ⟨⟨(fwdPipe s g).held, by rw [fwdPipe, hpipes, fwdPipe]⟩, hjobs, hcounts⟩

theorem notesOnly_of_same (hfwd : t.fwd = s.fwd) (htel : t.tel = s.tel) : NotesOnly g s t :=
  notesOnly_of_pipes (by rw [hfwd]) (by rw [hfwd]) (counts_of_tel htel)

theorem notesOnly_loseEvent : NotesOnly g s (loseEvent q s) := notesOnly_of_pipes rfl rfl (Counts.count (counts_of_tel rfl) (by decide))

theorem notesOnly_ntfWrite (rec : Bool → Bytes) : NotesOnly g s (ntfWrite q rec s) :=
  notesOnly_of_pipes rfl rfl (Counts.count (counts_of_tel rfl) (by decide))

theorem notesOnly_reportLost : NotesOnly g s (reportLost q s) := by
  unfold reportLost
  split
  · exact notesOnly_of_same rfl rfl
  · have hwritten := notesOnly_ntfWrite (g := g) (q := q) (s := s) (lostRecord s q (ntfRing s q).lost)
    refine (hwritten.trans ?_).trans (notesOnly_of_same (kiln_fwd _ _ _) (kiln_tel _ _ _))
    exact notesOnly_of_pipes rfl rfl (counts_of_tel rfl)

theorem notesOnly_holdPair (e : FdbEvent) : NotesOnly g s (holdPair g e s) := ⟨⟨_, fwdPipe_modFwdPipe _ _ _⟩, rfl, counts_of_tel rfl⟩

theorem notesOnly_notify (e : FdbEvent) : NotesOnly g s (notify g e s) := by
  have htaken : NotesOnly g s (takeLimit .notify (quadOfPipe g) s).2 :=
    notesOnly_of_same ((keeps_takeLimit _ _ _).same .fwd rfl) ((keeps_takeLimit _ _ _).same .tel rfl)
  have hreported := htaken.trans (notesOnly_reportLost (q := quadOfPipe g))
  rw [notify_eq]
  split
  · exact notesOnly_of_same rfl rfl
  · split
    · exact notesOnly_loseEvent
    · split
      · exact htaken.trans notesOnly_loseEvent
      · split
        · exact hreported.trans notesOnly_loseEvent
        · exact (hreported.trans (notesOnly_ntfWrite _)).trans (notesOnly_holdPair e)

theorem NotesOnly.fdb (h : NotesOnly g s t) : (fwdPipe t g).fdb = (fwdPipe s g).fdb := by
  obtain ⟨_, hpipe⟩ := h.pipe
  rw [hpipe]

theorem RowsOnly.notify (h : RowsOnly g s t) (e : FdbEvent) : RowsOnly g s (notify g e t) := by
  obtain ⟨⟨_, hpipe⟩, hjobs, -⟩ := notesOnly_notify (g := g) (s := t) e
  exact h.trans ⟨⟨_, _, _, _, hpipe⟩, hjobs⟩

end

/-! ### Learning (R228) -/

section

variable {g key port : Nat} {s t : State}

theorem RowsOnly.refuseLearn (h : RowsOnly g s t) (cause : Nat) : RowsOnly g s (refuseLearn g key port cause t) :=
  RowsOnly.notify ((h.then_same (count_fwd _ _ _ _)).then_same (kilnOnce_fwd _ _ _ _)) _

theorem rowsOnly_learn : RowsOnly g s (learn g key port s) := by
  unfold learn
  dsimp only
  split
  · split
    · exact RowsOnly.refl.refuseLearn _
    · split
      · exact RowsOnly.refl.refuseLearn _
      · next hinsert => exact ((rowsOnly_fdbInsert hinsert).then_same (count_fwd _ _ _ _)).notify _
  · have honce : ∀ c code fs, RowsOnly g s (kilnOnce code g fs (count c g 1 s)) := fun _ _ _ =>
      (RowsOnly.refl.then_same (count_fwd _ _ _ _)).then_same (kilnOnce_fwd _ _ _ _)
    split
    · exact RowsOnly.refl
    · split
      · exact (honce _ _ _).notify _
      · split
        · exact RowsOnly.refl.then_same (count_fwd _ _ _ _)
        · split
          · split
            · exact ((((honce _ _ _).fdbPut _ _).then_same (count_fwd _ _ _ _)).then_same (kiln_fwd _ _ _)).notify _
            · exact ((honce _ _ _).fdbPut _ _).notify _
          · exact ((RowsOnly.refl.fdbPut _ _).then_same (count_fwd _ _ _ _)).notify _

theorem learn_known {i r : Nat} (hfind : fdbFind s g key = some (i, r)) (hport : rowPort r = port) : learn g key port s = s := by
  simp [learn, hfind, hport]

/-- A new key within dyn_limit takes the first of its candidate rows that is empty. -/
theorem learn_new {i : Nat} (hfind : fdbFind s g key = none) (hroom : fdbDynamics s g < dynLimit s g)
    (hfree : ((List.range 4).map (fdbCandidate (fdbRows s) (rowKey (fdbRow false false key port 0 0 (fdbNow s g))))).find?
      (fun i => (tabFind (fwdPipe s g).fdb i).isNone) = some i) :
    fdbAt (learn g key port s) g i = some (fdbRow false false key port 0 0 (fdbNow s g)) ∧ counted cFdbLearnNew g 1 s (learn g key port s) := by
  have hlearn : learn g key port s = notify g { kind := 1, key, new := port, index := i }
      (count cFdbLearnNew g 1 (fdbPut g i (some (fdbRow false false key port 0 0 (fdbNow s g))) s)) := by
    simp [learn, hfind, Nat.not_le.mpr hroom, fdbInsert, hfree]
  have hnotes := notesOnly_notify (g := g) (s := count cFdbLearnNew g 1 (fdbPut g i (some (fdbRow false false key port 0 0 (fdbNow s g))) s))
    { kind := 1, key, new := port, index := i }
  rw [hlearn]
  refine ⟨?_, counted_then_counts (counted_count_of _ _ _ _ rfl) hnotes.counts⟩
  rw [fdbAt, hnotes.fdb]
  exact (fdbAt_of_fwd _ _ (count_fwd _ _ _ _) i).trans (fdbAt_fdbPut _ _ _ _)

end

/-! ### The oldest request (R227, R228) -/

/-- The learn engine has taken a request: `rest` still waits. -/
def learnTaken (g : Nat) (rest : List (Nat × Nat)) (s : State) : State :=
  setFwdPipe g { fwdPipe s g with learning := false, learnQ := rest } s

section

variable {g k : Nat} {rest : List (Nat × Nat)} {s : State}

theorem fwdPipe_learnTaken : fwdPipe (learnTaken g rest s) g = { fwdPipe s g with learning := false, learnQ := rest } := tabGet_set _ _ _ _

theorem fdbAt_learnTaken (i : Nat) : fdbAt (learnTaken g rest s) g i = fdbAt s g i := by rw [fdbAt, fwdPipe_learnTaken, fdbAt]

theorem fdbFind_learnTaken : fdbFind (learnTaken g rest s) g k = fdbFind s g k := by
  simp only [fdbFind, fdbAt_learnTaken]
  rfl

theorem fdbDynamics_learnTaken : fdbDynamics (learnTaken g rest s) g = fdbDynamics s g := by
  rw [fdbDynamics, fwdPipe_learnTaken, fdbDynamics]

theorem dynLimit_learnTaken : dynLimit (learnTaken g rest s) g = dynLimit s g := by
  rw [dynLimit, learnObj, fwdPipe_learnTaken]
  rfl

end

section

variable {g : Pipe} {k port : Nat} {rest : List (Nat × Nat)} {s : State} (hon : (fwdPipe s g.val).learning = true)
  (hq : (fwdPipe s g.val).learnQ = (k, port) :: rest)
include hon hq

theorem learnRequestProcess_exec : exec (.learnRequestProcess g) s = .next (learn g.val k port (learnTaken g.val rest s)) := by
  change execLearnRequestProcess g s = _
  simp only [execLearnRequestProcess, hon, hq]
  rfl

theorem learnRequestProcess_takes : Completes (.learnRequestProcess g) s fun t =>
    (fwdPipe t g.val).learnQ = rest ∧ (fwdPipe t g.val).learning = false := by
  refine ⟨_, learnRequestProcess_exec hon hq, ?_, ?_⟩
  · rw [rowsOnly_learn.learnQ, fwdPipe_learnTaken]
  · rw [rowsOnly_learn.learning, fwdPipe_learnTaken]

theorem learnRequestProcess_learns {i : Nat} (hfind : fdbFind s g.val k = none) (hroom : fdbDynamics s g.val < dynLimit s g.val)
    (hfree : ((List.range 4).map (fdbCandidate (fdbRows s) (rowKey (fdbRow false false k port 0 0 (fdbNow s g.val))))).find?
      (fun i => (tabFind (fwdPipe s g.val).fdb i).isNone) = some i) :
    Completes (.learnRequestProcess g) s fun t => fdbAt t g.val i = some (fdbRow false false k port 0 0 (fdbNow s g.val)) ∧
      counted cFdbLearnNew g.val 1 s t := by
  refine ⟨_, learnRequestProcess_exec hon hq, learn_new (s := learnTaken g.val rest s) (fdbFind_learnTaken.trans hfind) ?_ ?_⟩
  · rwa [fdbDynamics_learnTaken, dynLimit_learnTaken]
  · rw [fwdPipe_learnTaken]
    exact hfree

theorem learnRequestProcess_known {i r : Nat} (hfind : fdbFind s g.val k = some (i, r)) (hport : rowPort r = port) :
    Completes (.learnRequestProcess g) s fun t => (fwdPipe t g.val).fdb = (fwdPipe s g.val).fdb := by
  refine ⟨_, learnRequestProcess_exec hon hq, ?_⟩
  beta_reduce
  rw [learn_known (fdbFind_learnTaken.trans hfind) hport, fwdPipe_learnTaken]

end

end Sys2Proof.Proofs
end

section
/-!
PROOFS. The write arbiter (R238, R241, R242, part of O26): the operation of a window ends it, the job of Icoux leaves its pipeline, and a grant
goes to the next requester that waits.
-/

namespace Sys2Proof.Proofs

open Sys2Proof Sys2Proof.Machine Sys2Proof.Laws

/-! ### Windows (R241, R242) -/

/-- From `s` to `u` the window's command of pipeline `g` has ended, after no more than changes of rows. -/
def WindowEnds (g : Nat) (s u : State) : Prop := ∃ st f t, RowsOnly g s t ∧ u = endWindow g st f t

section

variable {g : Nat} {s t u : State}

theorem windowEnds_endWindow (h : RowsOnly g s t) (st : Status) (f : FdbWindow → FdbWindow) : WindowEnds g s (endWindow g st f t) :=
  ⟨st, f, t, h, rfl⟩

theorem WindowEnds.ite {c : Prop} [Decidable c] (ht : WindowEnds g s t) (hu : WindowEnds g s u) : WindowEnds g s (if c then t else u) := by
  split
  · exact ht
  · exact hu

theorem WindowEnds.window (h : WindowEnds g s u) :
    (fwdPipe u g).lastGrant = (fwdPipe s g).lastGrant ∧ (fwdPipe u g).window.busy = false ∧ (fwdPipe u g).window.done = true := by
  obtain ⟨st, f, t, hrows, rfl⟩ := h
  have hpipe : ∃ w : FdbWindow, fwdPipe (endWindow g st f t) g = { fwdPipe t g with window := { w with busy := false, done := true } } :=
    ⟨{ f (fwdPipe t g).window with status := statusCode st, relgen := (fwdPipe t g).relgen },
      (fwdPipe_of_fwd (count_fwd _ _ _ _) g).trans (fwdPipe_modWindow _ _ _)⟩
  obtain ⟨w, hw⟩ := hpipe
  rw [hw]
  exact ⟨hrows.lastGrant, rfl, rfl⟩

/-- A command that ends before any change. -/
theorem windowEnds_now (st : Status) (f : FdbWindow → FdbWindow) : WindowEnds g s (endWindow g st f s) :=
  windowEnds_endWindow RowsOnly.refl st f

theorem windowEnds_windowPut (insert : Bool) : WindowEnds g s (windowPut g insert s) := by
  unfold windowPut
  extract_lets w d old oldStatic
  refine .ite (windowEnds_now _ _) (.ite (windowEnds_now _ _) (.ite (windowEnds_now _ _) ?_))
  split
  · exact windowEnds_now _ _
  · next hwrite => exact windowEnds_endWindow (rowsOnly_fdbWrite hwrite) _ _

theorem windowEnds_windowKey (op : Nat) : WindowEnds g s (windowKey g op s) := by
  have hput : ∀ i r st f, WindowEnds g s (endWindow g st f (fdbPut g i r s)) := fun i r => windowEnds_endWindow (RowsOnly.refl.fdbPut i r)
  unfold windowKey
  extract_lets w may
  refine .ite (windowEnds_now _ _) ?_
  split
  · exact windowEnds_now _ _
  · split
    · exact windowEnds_now _ _
    · exact .ite (hput _ _ _ _) (windowEnds_now _ _)
    · exact .ite (hput _ _ _ _) (hput _ _ _ _)
    · exact hput _ _ _ _

theorem windowEnds_windowReadIndex : WindowEnds g s (windowReadIndex g s) :=
  .ite (windowEnds_now _ _) (.ite (windowEnds_now _ _) (.ite (windowEnds_now _ _) (windowEnds_now _ _)))

theorem windowEnds_windowIterate : WindowEnds g s (windowIterate g s) := by
  have hcleared : ∀ (c : Prop) [Decidable c] i r, RowsOnly g s (if c then fdbPut g i r s else s) := fun c _ i r => by
    split
    · exact RowsOnly.refl.fdbPut _ _
    · exact RowsOnly.refl
  unfold windowIterate
  extract_lets v clear
  refine .ite (windowEnds_now _ _) ?_
  split
  · exact windowEnds_now _ _
  · exact windowEnds_endWindow (hcleared _ _ _) _ _

theorem windowEnds_runWindow : WindowEnds g s (runWindow g s) := by
  unfold runWindow
  split
  · exact windowEnds_windowKey _
  · exact windowEnds_windowReadIndex
  · exact windowEnds_windowPut _
  · exact windowEnds_windowPut _
  · exact windowEnds_windowKey _
  · exact windowEnds_windowKey _
  · exact windowEnds_windowKey _
  · exact windowEnds_windowIterate
  · exact windowEnds_now _ _

/-! ### Jobs of Icoux (R234) -/

theorem bit_jobAfter_left (e : Option Status) (j : FdbJob) : bit (jobAfter g e j).left g = false := by
  have hleft : (jobAfter g e j).left = setBits j.left g 1 0 := by cases e <;> rfl
  rw [hleft, bit_setBits_same]
  rfl

/-- Job `j`, wherever it stands among the jobs, has had its operation in pipeline `g`. -/
theorem left_of_mem_jobsAfter {e : Option Status} {j x : FdbJob} {l : List FdbJob}
    (hx : x ∈ l.map fun x => if x.run == j.run then jobAfter g e j else x) (hrun : x.run = j.run) : bit x.left g = false := by
  obtain ⟨y, -, rfl⟩ := List.mem_map.mp hx
  by_cases hy : (y.run == j.run) = true
  · rw [if_pos hy]
    exact bit_jobAfter_left e j
  · rw [if_neg hy] at hrun
    exact absurd (beq_iff_eq.mpr hrun) hy

theorem runJob_spec (j : FdbJob) : (fwdPipe (runJob g j s) g).lastGrant = (fwdPipe s g).lastGrant ∧
    ∀ x ∈ (runJob g j s).fwd.jobs, x.run = j.run → bit x.left g = false := by
  have hgrant := (rowsOnly_fdbEntryOp (g := g) (s := s) j.obj).lastGrant
  unfold runJob
  dsimp only
  split
  · exact ⟨hgrant, fun x hx => left_of_mem_jobsAfter hx⟩
  · rw [fwdPipe_of_fwd (endRunning_fwd _ _ _ _ _), endRunning_fwd]
    exact ⟨hgrant, fun x hx => left_of_mem_jobsAfter (List.mem_filter.mp hx).1⟩

end

/-! ### The grant (R238) -/

/-- Requester `r` of pipeline `g`'s arbiter has its turn. -/
def grantedTo (g r : Nat) (s : State) : State := setFwdPipe g { fwdPipe s g with lastGrant := r, learning := r == 0 } s

section

variable {g : Pipe} {s : State} (hidle : (fwdPipe s g.val).learning = false)
include hidle

theorem fdbArbiterGrant_learn (hr : ([1, 2, 3].map fun i => ((fwdPipe s g.val).lastGrant + i) % 3).find? (requesterWaits s g.val) = some 0) :
    exec (.fdbArbiterGrant g) s = .next (grantedTo g.val 0 s) := by
  change execFdbArbiterGrant g s = _
  simp only [execFdbArbiterGrant, hidle, hr]
  rfl

theorem fdbArbiterGrant_job {j : FdbJob} (hj : jobFor s g.val = some j)
    (hr : ([1, 2, 3].map fun i => ((fwdPipe s g.val).lastGrant + i) % 3).find? (requesterWaits s g.val) = some 1) :
    exec (.fdbArbiterGrant g) s = .next (runJob g.val j (grantedTo g.val 1 s)) := by
  change execFdbArbiterGrant g s = _
  simp only [execFdbArbiterGrant, hidle, hr, hj]
  rfl

theorem fdbArbiterGrant_window {r : Nat}
    (hr : ([1, 2, 3].map fun i => ((fwdPipe s g.val).lastGrant + i) % 3).find? (requesterWaits s g.val) = some (r + 2)) :
    exec (.fdbArbiterGrant g) s = .next (runWindow g.val (grantedTo g.val (r + 2) s)) := by
  change execFdbArbiterGrant g s = _
  simp only [execFdbArbiterGrant, hidle, hr]
  rfl

theorem fdbArbiterGrant_completes {r : Nat}
    (hr : ([1, 2, 3].map fun i => ((fwdPipe s g.val).lastGrant + i) % 3).find? (requesterWaits s g.val) = some r) :
    Completes (.fdbArbiterGrant g) s fun t => (fwdPipe t g.val).lastGrant = r ∧ (r = 0 → (fwdPipe t g.val).learning = true) ∧
      (∀ j, r = 1 → jobFor s g.val = some j → ∀ x ∈ t.fwd.jobs, x.run = j.run → bit x.left g.val = false) ∧
      (r = 2 → (fwdPipe t g.val).window.busy = false ∧ (fwdPipe t g.val).window.done = true) := by
  have hgranted : ∀ r, fwdPipe (grantedTo g.val r s) g.val = { fwdPipe s g.val with lastGrant := r, learning := r == 0 } := fun _ =>
    fwdPipe_setFwdPipe _ _ _
  match r with
  | 0 =>
    refine ⟨_, fdbArbiterGrant_learn hidle hr, ?_, fun _ => ?_, nofun, nofun⟩
    · rw [hgranted]
    · rw [hgranted]
      rfl
  | 1 =>
    have hwaits : requesterWaits s g.val 1 = true := List.find?_some hr
    obtain ⟨j, hj⟩ := Option.isSome_iff_exists.mp hwaits
    obtain ⟨hlast, hleft⟩ := runJob_spec (g := g.val) (s := grantedTo g.val 1 s) j
    refine ⟨_, fdbArbiterGrant_job hidle hj hr, ?_, nofun, fun k _ hk => ?_, nofun⟩
    · rw [hlast, hgranted]
    · rw [← Option.some_inj.mp (hj.symm.trans hk)]
      exact hleft
  | r + 2 =>
    obtain ⟨hlast, hended⟩ := (windowEnds_runWindow (g := g.val) (s := grantedTo g.val (r + 2) s)).window
    refine ⟨_, fdbArbiterGrant_window hidle hr, ?_, nofun, fun _ hr => absurd hr (by omega), fun _ => hended⟩
    rw [hlast, hgranted]

end

end Sys2Proof.Proofs
end

section
/-!
PROOFS. Forwarding engines run (O26): the notification rings' indexes (R236), freed buckets (R250), the host table's reads (R253), and the
statement from these.
-/

namespace Sys2Proof.Proofs

open Sys2Proof Sys2Proof.Machine Sys2Proof.Laws

/-! ### Notification indexes (R236) and freed buckets (R250) -/

section

variable {g : Pipe} {q : Quad} {s : State}

theorem mem_signal_out {v : Nat} {e : Emission} {s : State} (h : e ∈ s.out) : e ∈ (signal v s).out :=
  (keeps_signal v s).seen.mem h

theorem notifyProducerWriteback_completes (hp : (ntfRing s q.val).pendingWb = true) : Completes (.notifyProducerWriteback q) s fun t =>
    (ntfRing t q.val).pendingWb = false ∧
    .hostWrite (u64 (ntfObj s q.val) 16) (toLe 4 (ntfRing s q.val).producer.toNat) ∈ t.out := by
  refine ⟨_, if_pos hp, ?_, mem_signal_out List.mem_cons_self⟩
  rw [ntfRing, (keeps_signal _ _).same .fwd rfl]
  exact congrArg NtfRing.pendingWb (tabGet_set _ _ _ _)

theorem fdbNtfConsWrite_completes (v : BitVec 32) : Completes (.fdbNtfConsWrite q v) s fun t =>
    tabGet 0 t.host.ntfCons q.val = v ∧ ∀ k, k ≠ q.val → tabGet 0 t.host.ntfCons k = tabGet 0 s.host.ntfCons k :=
  ⟨_, rfl, tabGet_set _ _ _ _, fun _ hk => tabGet_set_ne _ _ hk⟩

theorem lpmBucketFree_completes {a : Nat} {rest : List Nat} (h : (fwdPipe s g.val).freeing = a :: rest) :
    Completes (.lpmBucketFree g) s fun t =>
      (fwdPipe t g.val).freeing = rest ∧ a ≤ t.now ∧ (fwdPipe t g.val).routes = (fwdPipe s g.val).routes := by
  have hexec : exec (.lpmBucketFree g) s = .next (modFwdPipe g.val (fun v => { v with freeing := rest }) (reach a s)) := by
    change execLpmBucketFree g s = _
    simp only [execLpmBucketFree, h]
  refine ⟨_, hexec, ?_, le_reach_now a s, ?_⟩
  · rw [fwdPipe_modFwdPipe]
  · rw [fwdPipe_modFwdPipe]
    rfl

end

/-! ### Reads of the host table (R253) -/

section

variable {b k q : Nat} {s t : State}

@[simp] theorem hostReads_setHostReads (l : List HostRead) : hostReads (setHostReads q l s) q = l := tabGet_set _ _ _ _

theorem hostReads_of_fwd (h : t.fwd = s.fwd) : hostReads t q = hostReads s q := by rw [hostReads, h, hostReads]

theorem hostSlotIn_of_fwd (h : t.fwd = s.fwd) : hostSlotIn t q b k = hostSlotIn s q b k := by simp only [hostSlotIn, h]

theorem hostAltUsed_of_fwd (h : t.fwd = s.fwd) : hostAltUsed t q b = hostAltUsed s q b := by rw [hostAltUsed, h, hostAltUsed]

theorem readerFenced_of_flt (h : t.flt = s.flt) : readerFenced t q = readerFenced s q := by
  simp only [readerFenced, stackFenced, fencedSites, h]

end

section

variable (g cls ev n : Nat) (s : State)

@[simp] theorem spendPipe_fwd : (spendPipe g cls ev n s).fwd = s.fwd := (keeps_spendPipe _ _ _ _ _).same .fwd rfl

@[simp] theorem spendPipe_fr : (spendPipe g cls ev n s).fr = s.fr := (keeps_spendPipe _ _ _ _ _).same .fr rfl

@[simp] theorem spendPipe_tel : (spendPipe g cls ev n s).tel = s.tel := (keeps_spendPipe _ _ _ _ _).same .tel rfl

@[simp] theorem hostReads_spendPipe (q : Nat) : hostReads (spendPipe g cls ev n s) q = hostReads s q := hostReads_of_fwd (spendPipe_fwd _ _ _ _ _)

@[simp] theorem hostSlotIn_spendPipe (q b k : Nat) : hostSlotIn (spendPipe g cls ev n s) q b k = hostSlotIn s q b k :=
  hostSlotIn_of_fwd (spendPipe_fwd _ _ _ _ _)

@[simp] theorem hostAltUsed_spendPipe (q b : Nat) : hostAltUsed (spendPipe g cls ev n s) q b = hostAltUsed s q b :=
  hostAltUsed_of_fwd (spendPipe_fwd _ _ _ _ _)

@[simp] theorem readerFenced_spendPipe (q : Nat) : readerFenced (spendPipe g cls ev n s) q = readerFenced s q :=
  readerFenced_of_flt ((keeps_spendPipe _ _ _ _ _).same .flt rfl)

end

/-- A slot of the host table that a lookup has hit. -/
def hitHostSlot (k : Nat) (row : HostRow) (s : State) : State :=
  modFwd (fun t => { t with host := tabPut k { row with hit := true } t.host }) s

/-- The request of frame `u` goes on to its second bucket, and every other request stands. -/
def toSecond (u : Nat) (r : HostRead) : HostRead := if r.frame == u then { r with second := true } else r

theorem toSecond_frame (u : Nat) (r : HostRead) : (toSecond u r).frame = r.frame := by
  unfold toSecond
  split
  · rfl
  · rfl

theorem find_map_toSecond {u : Nat} {r : HostRead} {l : List HostRead} (hr : l.find? (fun r => r.frame == u) = some r) :
    (l.map (toSecond u)).find? (fun r => r.frame == u) = some { r with second := true } := by
  have hframe : (fun r : HostRead => r.frame == u) ∘ toSecond u = fun r => r.frame == u := by
    funext r
    rw [Function.comp_apply, toSecond_frame]
  have hu : (r.frame == u) = true := List.find?_some (p := fun r : HostRead => r.frame == u) hr
  rw [List.find?_map, hframe, hr, Option.map_some, toSecond, if_pos hu]

section

variable {u late q : Nat} {f : Frame} {r : HostRead} {s : State} (hf : tabFind s.fr.frames u = some f)
include hf

/-- A lookup that ends once its read has taken its beats, after what counts nothing and changes no frame. -/
theorem hostLookup_ends {status : Nat} (result n : Nat) {t : State} (hfr : t.fr = s.fr) (htel : t.tel = s.tel) (hlt : status < 5) :
    (frameOf (endHostRead u status result late (useBeats q 2 n t)) u).hostDue = false ∧
      (frameOf (endHostRead u status result late (useBeats q 2 n t)) u).hostRes = status + 16 * result ∧
      counted (cHostStatus status) (quadOfPipe f.pipe) 1 s (endHostRead u status result late (useBeats q 2 n t)) := by
  have hread : tabFind (useBeats q 2 n t).fr.frames u = some f := by
    rw [(keeps_useBeats _ _ _ _).same .fr rfl, hfr]
    exact hf
  have hcounts : Counts [cDramBeats 2] s (useBeats q 2 n t) := Counts.count (counts_of_tel htel) List.mem_cons_self
  obtain ⟨hdue, hres⟩ := endHostRead_frame (status := status) result late hread
  exact ⟨hdue, hres, counts_then_counted hcounts (endHostRead_counted result late hread hlt) rfl⟩

variable (hq : q = quadOfPipe f.pipe) (hr : (hostReads s q).find? (fun r => r.frame == u) = some r)
  (hstill : (bufQuad s q).retrain = none) (hopen : readerFenced s q = false)
  (hgood : (s.fwd.hostBad.any fun k => k / 4 == hostSlotKey q (hostBucket (b2n r.second) r.key) 0 / 4) = false)
include hq hr hstill hopen hgood

theorem hostBucketReadReturn_hit {i : Nat} {row : HostRow} (hslot : hostSlotIn s q (hostBucket (b2n r.second) r.key) r.key = some i)
    (hrow : tabFind s.fwd.host (hostSlotKey q (hostBucket (b2n r.second) r.key) i) = some row) :
    Completes (.hostBucketReadReturn u late) s fun t => (frameOf t u).hostDue = false ∧ (frameOf t u).hostRes = 1 + 16 * row.result ∧
      counted (cHostStatus 1) q 1 s t ∧
      tabFind t.fwd.host (hostSlotKey q (hostBucket (b2n r.second) r.key) i) = some { row with hit := true } := by
  subst hq
  have hexec : exec (.hostBucketReadReturn u late) s = .next (endHostRead u 1 row.result late (useBeats (quadOfPipe f.pipe) 2 5
      (hitHostSlot (hostSlotKey (quadOfPipe f.pipe) (hostBucket (b2n r.second) r.key) i) row (spendPipe f.pipe 1 4 1 s)))) := by
    change execHostBucketReadReturn u late s = _
    simp [execHostBucketReadReturn, hitHostSlot, frameOf_of_find hf, hr, hstill, hopen, hgood, hslot, hrow]
  obtain ⟨hdue, hres, hcounted⟩ := hostLookup_ends (status := 1) (late := late) (q := quadOfPipe f.pipe) hf row.result 5
    (t := hitHostSlot (hostSlotKey (quadOfPipe f.pipe) (hostBucket (b2n r.second) r.key) i) row (spendPipe f.pipe 1 4 1 s))
    (spendPipe_fr f.pipe 1 4 1 s) (spendPipe_tel f.pipe 1 4 1 s) (by decide)
  refine ⟨_, hexec, hdue, hres, hcounted, ?_⟩
  rw [endHostRead_fwd]
  exact tabFind_put _ _ _

theorem hostBucketReadReturn_miss (hslot : hostSlotIn s q (hostBucket (b2n r.second) r.key) r.key = none)
    (halt : (!r.second && hostAltUsed s q (hostBucket (b2n r.second) r.key)) = false) :
    Completes (.hostBucketReadReturn u late) s fun t => (frameOf t u).hostDue = false ∧ (frameOf t u).hostRes = 2 ∧
      counted (cHostStatus 2) q 1 s t := by
  subst hq
  have hexec : exec (.hostBucketReadReturn u late) s =
      .next (endHostRead u 2 0 late (useBeats (quadOfPipe f.pipe) 2 4 (spendPipe f.pipe 1 4 1 s))) := by
    change execHostBucketReadReturn u late s = _
    simp [execHostBucketReadReturn, frameOf_of_find hf, hr, hstill, hopen, hgood, hslot, halt]
  exact ⟨_, hexec, hostLookup_ends hf 0 4 (spendPipe_fr f.pipe 1 4 1 s) (spendPipe_tel f.pipe 1 4 1 s) (by decide)⟩

theorem hostBucketReadReturn_second (hslot : hostSlotIn s q (hostBucket (b2n r.second) r.key) r.key = none)
    (halt : (!r.second && hostAltUsed s q (hostBucket (b2n r.second) r.key)) = true) :
    Completes (.hostBucketReadReturn u late) s fun t =>
      (hostReads t q).find? (fun r => r.frame == u) = some { r with second := true } := by
  subst hq
  have hexec : exec (.hostBucketReadReturn u late) s =
      .next (setHostReads (quadOfPipe f.pipe) ((hostReads s (quadOfPipe f.pipe)).map (toSecond u))
        (useBeats (quadOfPipe f.pipe) 2 4 (spendPipe f.pipe 1 4 1 s))) := by
    change execHostBucketReadReturn u late s = _
    simp only [execHostBucketReadReturn, frameOf_of_find hf, hr, hstill, readerFenced_spendPipe, hopen, spendPipe_fwd, hgood, hostSlotIn_spendPipe,
      hslot, hostAltUsed_spendPipe, halt, hostReads_spendPipe]
    rfl
  refine ⟨_, hexec, ?_⟩
  beta_reduce
  rw [hostReads_setHostReads]
  exact find_map_toSecond hr

end

/-- Settles O26: a lemma for the arbiter's grant, for each engine's turn, and for each end of a host table's read. -/
theorem forwardingEnginesRun : Obligations.ForwardingEnginesRun := fun _ _ v _ _ _ =>
  ⟨fun _ hidle hr => fdbArbiterGrant_completes hidle hr,
    fun _ _ _ hon hq => ⟨learnRequestProcess_takes hon hq, fun _ hfind hroom hfree => learnRequestProcess_learns hon hq hfind hroom hfree,
      fun _ _ hfind hport => learnRequestProcess_known hon hq hfind hport⟩,
    notifyProducerWriteback_completes, fdbNtfConsWrite_completes v, fun _ _ => lpmBucketFree_completes,
    fun _ _ hf hq hr hstill hopen hgood => ⟨fun _ _ => hostBucketReadReturn_hit hf hq hr hstill hopen hgood,
      hostBucketReadReturn_miss hf hq hr hstill hopen hgood, hostBucketReadReturn_second hf hq hr hstill hopen hgood⟩⟩

end Sys2Proof.Proofs
end

section
/-!
PROOFS. Signature objects read and write (O28): what a read of an engine, a profile, a set or the inspection requests returns after each
update, writes that reach every quadrant of a mask, and the statement from these.
-/

namespace Sys2Proof.Proofs

open Sys2Proof Sys2Proof.Machine Sys2Proof.Laws

/-! ### Engines and requests -/

section

variable {s t : State}

theorem engineOf_of_engines (h : t.sig.engines = s.sig.engines) (e : Nat) : engineOf t e = engineOf s e := by rw [engineOf, h, engineOf]

theorem engineOf_of_sig (h : t.sig = s.sig) (e : Nat) : engineOf t e = engineOf s e := engineOf_of_engines (congrArg SigState.engines h) e

theorem inspReqs_of_sig (h : t.sig = s.sig) (q : Nat) : inspReqs t q = inspReqs s q := by rw [inspReqs, h, inspReqs]

end

@[simp] theorem engineOf_setEngine (e : Nat) (v : SigEngine) (s : State) : engineOf (setEngine e v s) e = v := tabGet_set _ _ _ _

theorem engineOf_setEngine_ne {e k : Nat} (h : k ≠ e) (v : SigEngine) (s : State) : engineOf (setEngine e v s) k = engineOf s k :=
  tabGet_set_ne _ _ h

@[simp] theorem inspReqs_setInspReqs (q : Nat) (l : List InspReq) (s : State) : inspReqs (setInspReqs q l s) q = l := tabGet_set _ _ _ _

/-! ### Writes to the quadrants of a mask -/

/-- Operations on the units of a mask, each on its own unit, change what every unit of the mask reads and no other. -/
theorem forMask_places {α : Type} {op : Nat → State → State} {read : State → Nat → α} {val : α → α}
    (same : ∀ s k, read (op k s) k = val (read s k)) (other : ∀ s k j, j ≠ k → read (op k s) j = read s j) (n m : Nat) (s : State) (j : Nat) :
    read (forMask n m op s) j = if j < n ∧ bit m j = true then val (read s j) else read s j := by
  have hplaces := foldl_places (l := maskBits n m) (op := fun s k => op k s) (val := fun _ => val) (I := fun _ => True)
    (fun _ _ _ => trivial) (fun s k _ => same s k) other (List.nodup_range.filter _) trivial (s := s) j
  simpa only [forMask, maskBits, List.mem_filter, List.mem_range] using hplaces

theorem u8_lt (b : Bytes) (off : Nat) : u8 b off < 256 := by
  unfold u8 field
  cases b.drop off with
  | nil => decide
  | cons x l => simpa [leNat] using x.isLt

/-! ### Profiles (R268) -/

/-- Quadrant `q` takes the object `o` as its profile `p`. -/
def profileWritten (p : Nat) (o : Bytes) (q : Nat) (s : State) : State :=
  modSig (fun t => { t with profiles := tabPut (256 * q + p) o t.profiles }) s

section

variable {p k : Nat}

theorem sigProfile_profileWritten (o : Bytes) (s : State) (q : Nat) :
    sigProfile (profileWritten p o q s) q k = if k = p then o else sigProfile s q k := by
  split
  · next h => exact h ▸ congrArg (Option.getD · (profileDefault k)) (tabFind_put _ _ _)
  · next h => exact congrArg (Option.getD · (profileDefault k)) (tabFind_put_ne _ _ (by omega))

theorem sigProfile_profileWritten_ne (hp : p < 256) (hk : k < 256) (o : Bytes) (s : State) {q r : Nat} (h : r ≠ q) :
    sigProfile (profileWritten p o q s) r k = sigProfile s r k :=
  congrArg (Option.getD · (profileDefault k)) (tabFind_put_ne _ _ (by omega))

end

/-! ### Rules (R271) -/

theorem tabFind_upd_ne {α : Type} {j k : Nat} (h : j ≠ k) (f : α → α) (m : Store α) : tabFind (tabUpd k f m) j = tabFind m j := by
  induction m with
  | nil => rfl
  | cons e m ih =>
    obtain ⟨i, v⟩ := e
    by_cases hi : i = k
    · simp [tabUpd, tabFind, hi, Ne.symm h]
    · simp [tabUpd, tabFind, hi, ih]

/-- An engine whose set has a rule changed. -/
def engineRuled (r x : Nat) (v : SigEngine) : SigEngine := { v with loaded := v.loaded.map (setRule r x) }

/-- Quadrant `q` takes a rule of its set `n`: the shadow and every engine that runs the set. -/
def ruleWritten (n r x q : Nat) (s : State) : State :=
  modSig (fun t => { t with sets := tabUpd (16 * q + n) (setRule r x) t.sets
                            engines := t.engines.map fun e =>
                              if e.1 / 4 == q && engineSet e.2 == n then (e.1, engineRuled r x e.2) else e }) s

section

variable {n r x q : Nat} {s : State}

theorem sets_ruleWritten : tabFind (ruleWritten n r x q s).sig.sets (16 * q + n) = (tabFind s.sig.sets (16 * q + n)).map (setRule r x) :=
  tabFind_upd_map _ _ _

theorem sets_ruleWritten_ne {k : Nat} (h : k ≠ q) : tabFind (ruleWritten n r x q s).sig.sets (16 * k + n) = tabFind s.sig.sets (16 * k + n) :=
  tabFind_upd_ne (by omega) _ _

theorem engineOf_ruleWritten (e : Nat) : engineOf (ruleWritten n r x q s) e =
    if e / 4 = q ∧ engineSet (engineOf s e) = n then engineRuled r x (engineOf s e) else engineOf s e := by
  have hfind : tabFind (ruleWritten n r x q s).sig.engines e = (tabFind s.sig.engines e).map fun v =>
      if e / 4 = q ∧ engineSet v = n then engineRuled r x v else v := by
    refine (tabFind_map (fun e => ?_) _ e).trans ?_
    · split <;> rfl
    · congr 1
      funext v
      simp only [Bool.and_eq_true, beq_iff_eq]
      split <;> rfl
  rw [engineOf, tabGet, hfind, engineOf, tabGet]
  cases tabFind s.sig.engines e with
  | some v => rfl
  | none => exact (ite_self (engineRuled r x {})).symm

end

/-! ### The statement -/

section

variable {c : Cmd} {s : State}

theorem sigEngineWrite_starts : Starts opSigEngineWrite c (.sigEngineWrite c) s fun t =>
    engineOf t (u8 (given c s) 0) = { engineOf s (u8 (given c s) 0) with obj := given c s, phase := .loading } ∧
    t.sig.jobs = s.sig.jobs ++ [{ run := s.host.nextId, engines := [u8 (given c s) 0], data := [] }] ∧
    ∀ e, e ≠ u8 (given c s) 0 → engineOf t e = engineOf s e :=
  starts_of rfl fun _ => ⟨_, rfl, rfl, rfl, engineOf_setEngine _ _ (takenState c s), rfl, fun _ h => engineOf_setEngine_ne h _ (takenState c s)⟩

theorem sigProfileWrite_writes : Writes opSigProfileWrite c (.sigProfileWrite c) s fun t => ∀ q k, q < 4 → k < 256 →
    sigProfile t q k = if bit (u8 (given c s) 1) q = true ∧ k = u8 (given c s) 0 then putField (given c s) 1 1 0 else sigProfile s q k := by
  refine writes_of rfl fun _ => ⟨forMask 4 (u8 (given c s) 1) (profileWritten (u8 (given c s) 0) (putField (given c s) 1 1 0))
    (takenState c s), rfl, ?_, fun q k hq hk => ?_⟩
  · exact foldl_keeps (fun s : State => s.host.ended) fun _ _ _ => rfl
  let p := u8 (given c s) 0
  let o := putField (given c s) 1 1 0
  have hread := forMask_places (op := profileWritten p o) (read := fun s q => sigProfile s q k) (val := fun v => if k = p then o else v)
    (fun s q => sigProfile_profileWritten o s q) (fun s _ _ h => sigProfile_profileWritten_ne (u8_lt _ _) hk o s h)
    4 (u8 (given c s) 1) (takenState c s) q
  refine hread.trans ?_
  simp only [hq, true_and, ite_and]
  rfl

theorem sigRuleWrite_writes : Writes opSigRuleWrite c (.sigRuleWrite c) s fun t => ∀ q, q < 4 → bit (u8 (given c s) 0) q = true →
    tabFind t.sig.sets (16 * q + u8 (given c s) 1) =
      (tabFind s.sig.sets (16 * q + u8 (given c s) 1)).map (setRule (u16 (given c s) 2) (u16 (given c s) 4)) ∧
    ∀ e, e / 4 = q → engineSet (engineOf s e) = u8 (given c s) 1 →
      (engineOf t e).loaded = (engineOf s e).loaded.map (setRule (u16 (given c s) 2) (u16 (given c s) 4)) := by
  let n := u8 (given c s) 1
  let r := u16 (given c s) 2
  let x := u16 (given c s) 4
  refine writes_of rfl fun _ => ⟨forMask 4 (u8 (given c s) 0) (ruleWritten n r x) (takenState c s), rfl, ?_,
    fun q hq hbit => ⟨?_, fun e he hset => ?_⟩⟩
  · exact foldl_keeps (fun s : State => s.host.ended) fun _ _ _ => rfl
  · have hread := forMask_places (read := fun s q => tabFind s.sig.sets (16 * q + n)) (fun s q => sets_ruleWritten (r := r) (x := x))
      (fun _ _ _ h => sets_ruleWritten_ne h) 4 (u8 (given c s) 0) (takenState c s) q
    exact hread.trans (if_pos ⟨hq, hbit⟩)
  · obtain ⟨i, rfl⟩ : ∃ i : Fin 4, e = 4 * q + i.val := ⟨⟨e % 4, Nat.mod_lt e (by decide)⟩, by dsimp only; omega⟩
    have hread := forMask_places (op := ruleWritten n r x) (read := fun s q => fun i : Fin 4 => engineOf s (4 * q + i))
      (val := fun v i => if engineSet (v i) = n then engineRuled r x (v i) else v i)
      (fun s q => funext fun i => (engineOf_ruleWritten _).trans (by simp [show (4 * q + i.val) / 4 = q by omega]))
      (fun s q j h => funext fun i => (engineOf_ruleWritten _).trans (if_neg fun hj => h (by omega)))
      4 (u8 (given c s) 0) (takenState c s) q
    exact congrArg SigEngine.loaded (((congrFun hread i).trans (congrFun (if_pos ⟨hq, hbit⟩) i)).trans (if_pos hset))

end

/-- Settles O28: each read answers its object, and each write has its own lemma. -/
theorem signatureObjectsReadAndWrite : Obligations.SignatureObjectsReadAndWrite := fun _ _ =>
  ⟨reads_of rfl fun _ => rfl, sigEngineWrite_starts, reads_of rfl fun _ => rfl, sigProfileWrite_writes, reads_of rfl fun _ => rfl,
    sigRuleWrite_writes, reads_of rfl fun _ => rfl⟩

end Sys2Proof.Proofs
end

section
/-!
PROOFS. Inspections run and fault (O29): dispatch, scans and returns of a frame's request, the reload of an engine with the commands that
wait for it, the faults of R273 and R274, and the statement from these.
-/

namespace Sys2Proof.Proofs

open Sys2Proof Sys2Proof.Machine Sys2Proof.Laws

/-! ### Requests changed and ended -/

section

variable {q u : Nat} {s : State}

theorem inspReqs_modInspReq (f : InspReq → InspReq) :
    inspReqs (modInspReq q u f s) q = (inspReqs s q).map fun r => if r.frame == u then f r else r := inspReqs_setInspReqs _ _ _

/-- The request of frame `u` after a change that leaves it its frame. -/
theorem find_modInspReq {r : InspReq} {f : InspReq → InspReq} (hf : ∀ r, (f r).frame = r.frame)
    (hr : (inspReqs s q).find? (fun r => r.frame == u) = some r) :
    (inspReqs (modInspReq q u f s) q).find? (fun r => r.frame == u) = some (f r) := by
  have hframe : ((fun r : InspReq => r.frame == u) ∘ fun r => if r.frame == u then f r else r) = fun r => r.frame == u := by
    funext r
    dsimp only [Function.comp_apply]
    split
    · rw [hf]
    · rfl
  have hu : (r.frame == u) = true := List.find?_some (p := fun r : InspReq => r.frame == u) hr
  rw [inspReqs_modInspReq, List.find?_map, hframe, hr, Option.map_some, if_pos hu]

/-- Results that return change no request's frame. -/
theorem frames_returnWalks : (inspReqs (returnWalks q s) q).map InspReq.frame = (inspReqs s q).map InspReq.frame := by
  unfold returnWalks
  refine foldl_keeps (fun s => (inspReqs s q).map InspReq.frame) fun s e _ => ?_
  rw [inspReqs_modInspReq, List.map_map]
  refine List.map_congr_left fun r _ => ?_
  dsimp only [Function.comp_apply]
  split <;> rfl

/-- A frame whose inspection ends has no request left. -/
theorem endInspection_unrequested : ∀ r ∈ inspReqs (endInspection q u s) q, r.frame ≠ u := by
  intro r hr
  have hframe : r.frame ∈ (inspReqs (endInspection q u s) q).map InspReq.frame := List.mem_map_of_mem hr
  have hkept : (inspReqs (endInspection q u s) q).map InspReq.frame = ((inspReqs s q).filter fun r => r.frame != u).map InspReq.frame :=
    frames_returnWalks.trans (congrArg (List.map InspReq.frame) (inspReqs_setInspReqs _ _ _))
  rw [hkept] at hframe
  obtain ⟨x, hx, hxr⟩ := List.mem_map.mp hframe
  have hne : (x.frame != u) = true := (List.mem_filter.mp hx).2
  exact hxr ▸ bne_iff_ne.mp hne

theorem endInspection_fr : (endInspection q u s).fr = s.fr := (keeps_endInspection q u s).same .fr rfl

theorem endInspection_tel : (endInspection q u s).tel = s.tel := (keeps_endInspection q u s).same .tel rfl

end

/-! ### Dispatch and scans (R265, R269, R272) -/

/-- The scan of the bytes `d` by engine `n` for set `set`, whose loaded copy is `a`. -/
def scanStart (n set : Nat) (a : SigSet) (d : Bytes) : ScanPhase :=
  let rules := scanWindow a a.start [] (scanBytes d)
  .scanning n set (f7Of a n rules d) rules

section

variable {u q : Nat} {r : InspReq} {s : State} (hq : quadOfPipe (frameOf s u).pipe = q)
  (hr : (inspReqs s q).find? (fun r => r.frame == u) = some r)
include hq hr

section

variable (hqueued : r.scan = .queued) (hturn : (reqsBefore (inspReqs s q) u).all (reqBlocked s q) = true) (hopen : inspectFenced s q = false)
include hqueued hturn hopen

theorem sigDispatch_notLoaded (hserved : profileServed s q r.profile = false) : Completes (.sigDispatch u) s fun t =>
    (inspReqs t q).find? (fun r => r.frame == u) = some { r with scan := .done (f7Status 4 (frameOf s u).data) } ∧
    counted cSigNotLoaded q 1 s t := by
  have hexec : exec (.sigDispatch u) s = .next (kilnOnce 0x0706 q [(1, q), (1, r.profile)] (count cSigNotLoaded q 1
      (modInspReq q u (fun r => { r with scan := .done (f7Status 4 (frameOf s u).data) }) s))) := by
    change execSigDispatch u s = _
    simp [execSigDispatch, hq, hr, hqueued, hturn, hopen, hserved]
  refine ⟨_, hexec, ?_, ?_⟩
  · rw [inspReqs_of_sig ((kilnOnce_sig _ _ _ _).trans (count_sig _ _ _ _))]
    exact find_modInspReq (fun _ => rfl) hr
  · exact counted_then_same (counted_count _ _ _ _) (kilnOnce_tel _ _ _ _)

theorem sigDispatch_scans {n : Nat} {a : SigSet} (hserved : profileServed s q r.profile = true)
    (hpick : pickEngine s q (u8 (sigProfile s q r.profile) 3) = some n) (hset : (engineOf s n).loaded = some a) :
    Completes (.sigDispatch u) s fun t => (inspReqs t q).find? (fun r => r.frame == u) =
      some { r with scan := scanStart n (u8 (sigProfile s q r.profile) 3) a (frameOf s u).data } := by
  have hexec : exec (.sigDispatch u) s = .next (modInspReq q u
      (fun x => { x with scan := scanStart n (u8 (sigProfile s q r.profile) 3) a (frameOf s u).data }) s) := by
    change execSigDispatch u s = _
    simp [execSigDispatch, scanStart, hq, hr, hqueued, hturn, hopen, hserved, hpick, hset]
  exact ⟨_, hexec, find_modInspReq (fun _ => rfl) hr⟩

end

end

/-- The hits of rules counted for a set of their quadrant. -/
def hitsCounted (x : Nat) (rules : List Nat) (s : State) : State := rules.foldl (fun s r => count (cSigRuleHits r) x 1 s) s

/-- The end of a scan on engine `n` counted: the scan, its bytes, and the hits of its rules. -/
def scanCounted (n len x : Nat) (rules : List Nat) (s : State) : State := hitsCounted x rules (count cSigBytes n len (count cSigScans n 1 s))

/-- What a scan on engine `n` has found counted: no match, or a match of priority `p`. -/
def verdictCounted (n q p : Nat) (rules : List Nat) (s : State) : State :=
  if rules.isEmpty then count cSigNomatch n 1 s else count (cSigPrio p) q 1 (count cSigMatch n 1 s)

section

variable {n len x q p i : Nat} {rules : List Nat} {s : State}

/-- Hits of rules are no counters of an engine. -/
theorem ruleHits_apart : (rules.map cSigRuleHits).all (apart (sigCnt i)) = true :=
  List.all_eq_true.mpr fun c hc => by
    obtain ⟨r, -, rfl⟩ := List.mem_map.mp hc
    rfl

theorem hitsCounted_counts : Counts (rules.map cSigRuleHits) s (hitsCounted x rules s) := fun c y hc =>
  foldl_keeps (countOf c y) fun s _ hr => countOf_count_of_apart (List.all_eq_true.mp hc _ (List.mem_map_of_mem hr)) y x 1 s

theorem verdictCounted_counts : Counts [cSigNomatch, cSigMatch, cSigPrio p] s (verdictCounted n q p rules s) := by
  unfold verdictCounted
  split
  · exact Counts.count Counts.refl List.mem_cons_self
  · exact Counts.count (Counts.count Counts.refl (by simp)) (by simp)

theorem scanCounted_scans : counted cSigScans n 1 s (scanCounted n len x rules s) :=
  counted_then_counts (counted_then_counts (counted_count cSigScans n 1 s) (Counts.count (l := [cSigBytes]) Counts.refl List.mem_cons_self))
    hitsCounted_counts ruleHits_apart

theorem scanCounted_bytes : counted cSigBytes n len s (scanCounted n len x rules s) :=
  counted_then_counts (counts_then_counted (Counts.count (l := [cSigScans]) Counts.refl List.mem_cons_self) (counted_count cSigBytes n len _))
    hitsCounted_counts ruleHits_apart

theorem scanCounted_counts : Counts ([cSigScans, cSigBytes] ++ rules.map cSigRuleHits) s (scanCounted n len x rules s) :=
  Counts.trans (Counts.count (Counts.count Counts.refl (by simp)) (by simp)) (hitsCounted_counts.mono fun _ => List.mem_append_right _)

/-- The counters of a scan's verdict are none of those that every scan counts. -/
theorem verdict_apart (hi : [cSigScans, cSigBytes].all (apart (sigCnt i)) = true := by decide) :
    ([cSigScans, cSigBytes] ++ rules.map cSigRuleHits).all (apart (sigCnt i)) = true := by
  rw [List.all_append, hi, ruleHits_apart, Bool.and_self]

theorem scanEnd_nomatch (h : rules = []) : counted cSigNomatch n 1 s (verdictCounted n q p rules (scanCounted n len x rules s)) := by
  have hverdict : counted cSigNomatch n 1 (scanCounted n len x rules s) (verdictCounted n q p rules (scanCounted n len x rules s)) := by
    rw [verdictCounted, if_pos (List.isEmpty_iff.mpr h)]
    exact counted_count _ _ _ _
  exact counts_then_counted scanCounted_counts hverdict verdict_apart

theorem scanEnd_match (h : rules ≠ []) : counted cSigMatch n 1 s (verdictCounted n q p rules (scanCounted n len x rules s)) := by
  have hverdict : counted cSigMatch n 1 (scanCounted n len x rules s) (verdictCounted n q p rules (scanCounted n len x rules s)) := by
    rw [verdictCounted, if_neg (mt List.isEmpty_iff.mp h)]
    exact counted_then_counts (counted_count _ _ _ _) (Counts.count (l := [cSigPrio p]) Counts.refl List.mem_cons_self) rfl
  exact counts_then_counted scanCounted_counts hverdict verdict_apart

theorem verdictCounted_sig : (verdictCounted n q p rules s).sig = s.sig := by
  unfold verdictCounted
  split <;> rfl

theorem scanCounted_sig : (scanCounted n len x rules s).sig = s.sig := foldl_keeps State.sig fun _ _ _ => rfl

end

theorem sigScanDone_completes {u q n set f7 : Nat} {rules : List Nat} {r : InspReq} {s : State} (hq : quadOfPipe (frameOf s u).pipe = q)
    (hr : (inspReqs s q).find? (fun r => r.frame == u) = some r) (hscan : r.scan = .scanning n set f7 rules) :
    Completes (.sigScanDone u) s fun t => (inspReqs t q).find? (fun r => r.frame == u) = some { r with scan := .done f7 } ∧
      counted cSigScans n 1 s t ∧ counted cSigBytes n (scanBytes (frameOf s u).data).length s t ∧
      (rules = [] → counted cSigNomatch n 1 s t) ∧ (rules ≠ [] → counted cSigMatch n 1 s t) := by
  have hexec : exec (.sigScanDone u) s = .next (verdictCounted n q (bits f7 8 4) rules (scanCounted n (scanBytes (frameOf s u).data).length
      (16 * q + set) rules (modInspReq q u (fun r => { r with scan := .done f7 }) s))) := by
    change execSigScanDone u s = _
    simp only [execSigScanDone, hq, hr, hscan]
    rfl
  have hstart : Counts [] s (modInspReq q u (fun r => { r with scan := .done f7 }) s) := counts_of_tel rfl
  refine ⟨_, hexec, ?_, counts_then_counted hstart (counted_then_counts scanCounted_scans verdictCounted_counts rfl),
    counts_then_counted hstart (counted_then_counts scanCounted_bytes verdictCounted_counts rfl),
    fun h => counts_then_counted hstart (scanEnd_nomatch h), fun h => counts_then_counted hstart (scanEnd_match h)⟩
  rw [inspReqs_of_sig (verdictCounted_sig.trans scanCounted_sig)]
  exact find_modInspReq (fun _ => rfl) hr

/-! ### The return (R259, R260) -/

theorem inspectionReturn_completes {u q f7 f8 f9 : Nat} {r : InspReq} {s : State} (hq : quadOfPipe (frameOf s u).pipe = q)
    (hr : (inspReqs s q).find? (fun r => r.frame == u) = some r) (hres : reqResults s q r = some (f7, f8, f9))
    (hopen : pipeFenced s (frameOf s u).pipe = false)
    (hfirst : ((reqsBefore (inspReqs s q) u).any fun x =>
      (frameOf s x.frame).pipe == (frameOf s u).pipe && (frameOf s x.frame).port == (frameOf s u).port) = false) :
    Completes (.inspectionReturn u) s fun t =>
      tabFind t.fr.frames s.fr.next = some { nextPass u 3 (frameOf s u) with
        returned := true, hdr := tabSet 0 297 f9 (tabSet 0 296 f8 (tabSet 0 295 f7 (nextPass u 3 (frameOf s u)).hdr)) } ∧
      ∀ x ∈ inspReqs t q, x.frame ≠ u := by
  have hexec : exec (.inspectionReturn u) s = .next (newFrame { nextPass u 3 (frameOf s u) with
      returned := true, hdr := tabSet 0 297 f9 (tabSet 0 296 f8 (tabSet 0 295 f7 (nextPass u 3 (frameOf s u)).hdr)) }
      (spend u (endInspection q u s))).2 := by
    change execInspectionReturn u s = _
    simp only [execInspectionReturn, hq, hr, hres, hfirst, hopen]
    rfl
  refine ⟨_, hexec, ?_, fun x hx => ?_⟩
  · have hnext : (spend u (endInspection q u s)).fr.next = s.fr.next :=
      (spend_next u _).trans (congrArg FrameState.next endInspection_fr)
    rw [← hnext]
    exact tabFind_put _ _ _
  · have hsig : (spend u (endInspection q u s)).sig = (endInspection q u s).sig := (keeps_spend u _).same .sig rfl
    exact endInspection_unrequested x (inspReqs_of_sig hsig q ▸ hx)

/-! ### Reloads (R267, R274, R508) -/

/-- Engine `e` holding its set from the shadow, and back in dispatch or idle. -/
def setCopied (e : Nat) (s : State) : State :=
  let v := engineOf s e
  let set := tabFind s.sig.sets (16 * (e / 4) + engineSet v)
  if bit (u8 v.obj 1) 0 then
    kiln 0x0702 [(1, e), (1, engineSet v), (4, match set with | some a => a.tag | none => 0)]
      (setEngine e { v with phase := .active, loaded := set, loads := wrapAdd 32 v.loads 1 } s)
  else setEngine e { v with phase := .idle, loaded := none } s

/-- The commands that wait for engine `e` once it has loaded: each that names another engine starts it, each that names none more ends. -/
def jobsServed (e : Nat) (s : State) : State :=
  let after := s.sig.jobs.map (jobLoaded e)
  let s2 := modSig (fun t => { t with jobs := (after.map Prod.fst).filter fun j => !j.engines.isEmpty }) s
  let s3 := (after.filterMap Prod.snd).foldl (fun s n => startLoading n s) s2
  ((after.map Prod.fst).filter fun j => j.engines.isEmpty).foldl (fun s j => endRunning j.run .ok j.data [] s) s3

section

variable {e k : Nat} {s : State}

theorem jobLoaded_next {j : SigJob} (h : (jobLoaded e j).2 = some k) : j.engines.tail.head? = some k := by
  unfold jobLoaded at h
  split at h
  · next x l hl =>
    split at h
    · rw [hl]
      exact h
    · cases h
  · cases h

theorem jobsServed_flt : (jobsServed e s).flt = s.flt := by
  unfold jobsServed
  dsimp only
  refine (foldl_keeps State.flt fun s j _ => endRunning_flt _ _ _ _ s).trans ?_
  exact foldl_keeps State.flt fun _ _ _ => rfl

/-- An engine that no waiting command names next stands. -/
theorem engineOf_jobsServed (h : ∀ j ∈ s.sig.jobs, j.engines.tail.head? ≠ some k) : engineOf (jobsServed e s) k = engineOf s k := by
  unfold jobsServed
  dsimp only
  rw [engineOf_of_sig (foldl_keeps State.sig fun s j _ => endRunning_sig _ _ _ _ s), foldl_keeps (engineOf · k)]
  · rfl
  · intro t n hn
    obtain ⟨o, ho, hnext⟩ := List.mem_filterMap.mp hn
    obtain ⟨j, hj, rfl⟩ := List.mem_map.mp ho
    exact engineOf_setEngine_ne (fun hk => h j hj ((jobLoaded_next hnext).trans (congrArg some hk.symm))) _ t

/-- A command that waits for engine `e` alone ends with its data. -/
theorem jobsServed_ends {j : SigJob} {r : Running} (hjobs : s.sig.jobs = [j]) (hj : j.engines = [e])
    (hr : s.host.running.find? (fun r => r.id == j.run) = some r) :
    (jobsServed e s).sig.jobs = [] ∧ ∃ x, (jobsServed e s).host.ended = s.host.ended ++ [x] ∧ x.slot = r.slot ∧ x.tag = r.tag ∧
      x.status = .ok ∧ x.data = j.data := by
  have hloaded : jobLoaded e j = ({ j with engines := [] }, none) := by simp [jobLoaded, hj]
  have hserved : jobsServed e s = endRunning j.run .ok j.data [] (modSig (fun t => { t with jobs := [] }) s) := by
    simp [jobsServed, hjobs, hloaded]
  rw [hserved]
  exact ⟨congrArg SigState.jobs (endRunning_sig _ _ _ _ _), _, endRunning_ended .ok j.data [] hr, rfl, rfl, rfl, rfl⟩

theorem setCopied_jobs : (setCopied e s).sig.jobs = s.sig.jobs := by
  unfold setCopied
  dsimp only
  split
  · exact (congrArg SigState.jobs (kiln_sig _ _ _)).trans rfl
  · rfl

theorem setCopied_host : (setCopied e s).host = s.host := by
  unfold setCopied
  dsimp only
  split
  · exact kiln_host _ _ _
  · rfl

/-- An engine that no waiting command names next stands as its reload leaves it. -/
theorem engineOf_jobsServed_setCopied (h : ∀ j ∈ s.sig.jobs, j.engines.tail.head? ≠ some e) :
    engineOf (jobsServed e (setCopied e s)) e = engineOf (setCopied e s) e :=
  engineOf_jobsServed fun j hj => h j (setCopied_jobs (e := e) (s := s) ▸ hj)

section

variable (hon : bit (u8 (engineOf s e).obj 1) 0 = true)
include hon

theorem engineOf_setCopied_on : engineOf (setCopied e s) e = { engineOf s e with
    phase := .active, loaded := tabFind s.sig.sets (16 * (e / 4) + engineSet (engineOf s e)), loads := wrapAdd 32 (engineOf s e).loads 1 } := by
  unfold setCopied
  dsimp only
  rw [if_pos hon, engineOf_of_sig (kiln_sig _ _ _), engineOf_setEngine]

theorem setCopied_logs : logged 0x0702 (setCopied e s) := by
  unfold setCopied
  dsimp only
  rw [if_pos hon]
  exact kiln_head _ _ _

end

theorem engineOf_setCopied_off (hoff : bit (u8 (engineOf s e).obj 1) 0 = false) :
    engineOf (setCopied e s) e = { engineOf s e with phase := .idle, loaded := none } := by
  unfold setCopied
  dsimp only
  rw [hoff]
  exact engineOf_setEngine _ _ _

end

section

variable {e : Engine} {s : State} (hphase : (engineOf s e.val).phase = .loading) (hdrained : engineLoad s e.val = 0)
include hphase hdrained

theorem exec_sigReload : exec (.sigReload e) s = .next (jobsServed e.val (setCopied e.val s)) := by
  change execSigReload e s = _
  simp only [execSigReload, hphase, hdrained]
  rfl

theorem sigReload_ends {j : SigJob} {r : Running} (hjobs : s.sig.jobs = [j]) (hj : j.engines = [e.val])
    (hr : s.host.running.find? (fun r => r.id == j.run) = some r) : Completes (.sigReload e) s fun t =>
      t.sig.jobs = [] ∧ ∃ x, t.host.ended = s.host.ended ++ [x] ∧ x.slot = r.slot ∧ x.tag = r.tag ∧ x.status = .ok ∧ x.data = j.data := by
  refine ⟨_, exec_sigReload hphase hdrained, ?_⟩
  have hhost := setCopied_host (e := e.val) (s := s)
  have hends := jobsServed_ends (setCopied_jobs.trans hjobs) hj (hhost.symm ▸ hr)
  rwa [hhost] at hends

variable (hnext : ∀ j ∈ s.sig.jobs, j.engines.tail.head? ≠ some e.val)
include hnext

theorem sigReload_serves (hon : bit (u8 (engineOf s e.val).obj 1) 0 = true) : Completes (.sigReload e) s fun t =>
    (engineOf t e.val).phase = .active ∧
    (engineOf t e.val).loaded = tabFind s.sig.sets (16 * (e.val / 4) + engineSet (engineOf s e.val)) ∧
    (engineOf t e.val).loads = wrapAdd 32 (engineOf s e.val).loads 1 ∧ logged 0x0702 t := by
  refine ⟨_, exec_sigReload hphase hdrained, ?_⟩
  beta_reduce
  rw [engineOf_jobsServed_setCopied hnext, engineOf_setCopied_on hon, logged, jobsServed_flt]
  exact ⟨rfl, rfl, rfl, setCopied_logs hon⟩

theorem sigReload_idles (hoff : bit (u8 (engineOf s e.val).obj 1) 0 = false) : Completes (.sigReload e) s fun t =>
    (engineOf t e.val).phase = .idle ∧ (engineOf t e.val).loaded = none := by
  refine ⟨_, exec_sigReload hphase hdrained, ?_⟩
  beta_reduce
  rw [engineOf_jobsServed_setCopied hnext, engineOf_setCopied_off hoff]
  exact ⟨rfl, rfl⟩

end

/-! ### Faults (R273, R274) -/

theorem detect_sig (b k i : Nat) (contain : Bool → State → State) (s : State) :
    (detect b k i contain s).sig = (contain (injectedNow s b k i) s).sig := raiseFault_sig _ _ _ _ _

theorem detect_logged {b k i code : Nat} {contain : Bool → State → State} {s : State} (h : ∀ inj, logged code (contain inj s)) :
    logged code (detect b k i contain s) := by
  rw [logged, detect_kiln]
  exact h _

/-- Engine `e` out of dispatch, with the event of its uncorrectable word. -/
def engineFaulted (e : Nat) (inj : Bool) (s : State) : State :=
  kilnInj inj 0x0703 [(1, e), (1, 28)] (setEngine e { engineOf s e with phase := .faulted } s)

/-- Engine `e` out of dispatch, and the scan that met the word over with ERROR. -/
def scanFaulted (e u : Nat) (inj : Bool) (s : State) : State :=
  count cSigError e 1 (modInspReq (e / 4) u (fun r => { r with scan := .done (f7Status 5 (frameOf s u).data) }) (engineFaulted e inj s))

section

variable {e : Engine} {offset : Nat} {s : State}

theorem engineFaulted_sig (n : Nat) (inj : Bool) :
    (engineFaulted n inj s).sig = (setEngine n { engineOf s n with phase := .faulted } s).sig := kilnInj_sig _ _ _ _

theorem engineFaulted_phase (n : Nat) (inj : Bool) : (engineOf (engineFaulted n inj s) n).phase = .faulted := by
  rw [engineOf_of_sig (engineFaulted_sig n inj), engineOf_setEngine]

theorem engineFaulted_reqs (n : Nat) (inj : Bool) : (engineFaulted n inj s).sig.reqs = s.sig.reqs := by
  rw [engineFaulted_sig]
  rfl

theorem engineFaulted_inFlight (n : Nat) (inj : Bool) : (engineFaulted n inj s).flt.inFlight = s.flt.inFlight := kilnInj_flt_inFlight _ _ _ _

section

variable {n u : Nat} {inj : Bool}

theorem scanFaulted_flt : (scanFaulted n u inj s).flt = (engineFaulted n inj s).flt := rfl

theorem scanFaulted_engines : (scanFaulted n u inj s).sig.engines = (engineFaulted n inj s).sig.engines := rfl

theorem scanFaulted_counted : counted cSigError n 1 s (scanFaulted n u inj s) := by
  have htel : (engineFaulted n inj s).tel = s.tel := kilnInj_tel _ _ _ _
  unfold scanFaulted
  exact counts_then_counted (l := []) (counts_of_tel htel) (counted_count _ _ _ _)

end

theorem sigStore_mismatch (x : Option Nat) : Completes (.sigStore e true offset x) s fun t =>
    raised 28 9 e.val s t ∧ logged 0x0704 t ∧ t.sig = s.sig :=
  ⟨_, rfl, raised_detect (fun _ => kilnInj_flt_inFlight _ _ _ _) _ _ _, detect_logged fun _ => kilnInj_head _ _ _ _,
    (detect_sig _ _ _ _ _).trans (kilnInj_sig _ _ _ _)⟩

theorem sigStore_alone : Completes (.sigStore e false offset none) s fun t =>
    raised 28 9 e.val s t ∧ logged 0x0703 t ∧ (engineOf t e.val).phase = .faulted ∧ t.sig.reqs = s.sig.reqs := by
  have hexec : exec (.sigStore e false offset none) s = .next (detect 28 9 e.val (engineFaulted e.val) s) := rfl
  refine ⟨_, hexec, raised_detect (engineFaulted_inFlight _) _ _ _, detect_logged fun _ => kilnInj_head _ _ _ _, ?_, ?_⟩
  · rw [engineOf_of_sig (detect_sig _ _ _ _ _)]
    exact engineFaulted_phase _ _
  · exact (congrArg SigState.reqs (detect_sig _ _ _ _ _)).trans (engineFaulted_reqs _ _)

theorem sigStore_scan {u : Nat} {r : InspReq} (hr : (inspReqs s (e.val / 4)).find? (fun r => r.frame == u) = some r)
    (hon : scansOn e.val r = true) : Completes (.sigStore e false offset (some u)) s fun t =>
      raised 28 9 e.val s t ∧ (engineOf t e.val).phase = .faulted ∧ counted cSigError e.val 1 s t ∧
      (inspReqs t (e.val / 4)).find? (fun r => r.frame == u) = some { r with scan := .done (f7Status 5 (frameOf s u).data) } := by
  have hexec : exec (.sigStore e false offset (some u)) s = .next (detect 28 9 e.val (scanFaulted e.val u) s) := by
    refine congrArg Host.Outcome.next (congrArg (raiseFault 28 9 e.val false) ?_)
    simp only [hr, hon]
    rfl
  refine ⟨_, hexec, raised_detect (fun _ => ?_) _ _ _, ?_, counted_detect (fun _ => scanFaulted_counted) _ _ _, ?_⟩
  · exact (congrArg FaultState.inFlight scanFaulted_flt).trans (engineFaulted_inFlight _ _)
  · rw [engineOf_of_sig (detect_sig _ _ _ _ _), engineOf_of_engines scanFaulted_engines]
    exact engineFaulted_phase _ _
  · rw [inspReqs_of_sig (detect_sig _ _ _ _ _)]
    have hreqs : ∀ inj, inspReqs (engineFaulted e.val inj s) (e.val / 4) = inspReqs s (e.val / 4) := fun inj =>
      congrArg (tabGet [] · (e.val / 4)) (engineFaulted_reqs e.val inj)
    exact find_modInspReq (s := engineFaulted e.val _ s) (fun _ => rfl) ((hreqs _).symm ▸ hr)

theorem sigPath_completes {q : Quad} {u : Nat} (h : ∃ r ∈ inspReqs s q.val, r.frame = u) : Completes (.sigPath q u) s fun t =>
    raisedLast 29 7 q.val t ∧ (∀ r ∈ inspReqs t q.val, r.frame ≠ u) ∧
    counted (cSwcDrops 0x1D) (quadOfPipe (frameOf s u).pipe) 1 s t := by
  have hexec : exec (.sigPath q u) s = .next (detect 29 7 q.val (fun _ s => dropFrame u 0x1D {} (endInspection q.val u s)) s) :=
    if_pos (List.any_eq_true.mpr (h.imp fun r hr => ⟨hr.1, beq_iff_eq.mpr hr.2⟩))
  refine ⟨_, hexec, raisedLast_detect _ _ _ _ _, fun r hr => ?_, counted_detect (fun _ => ?_) _ _ _⟩
  · have hsig := (detect_sig 29 7 q.val (fun _ s => dropFrame u 0x1D {} (endInspection q.val u s)) s).trans
      ((keeps_dropFrame _ _ _ _).same .sig rfl)
    exact endInspection_unrequested r (inspReqs_of_sig hsig q.val ▸ hr)
  · have hdrop := dropFrame_counted u 0x1D {} (endInspection q.val u s)
    rw [frameOf_of_fr u s endInspection_fr] at hdrop
    exact counts_then_counted (l := []) (counts_of_tel endInspection_tel) hdrop

end

/-- Settles O29: a lemma for each outcome of a request's dispatch, for the end of its scan and for its return, for an engine's reload and for
each fault. That SIG_RELOAD also completes the command of SIG_ENGINE or SIG_SET_COMMIT that waits for the engine (assumption 48) and that
0x0703 is logged at detection (assumption 38) are the model's choices. -/
theorem inspectionsRunAndFault : Obligations.InspectionsRunAndFault :=
  ⟨fun _ _ _ => ⟨fun _ hr => ⟨fun hqueued hturn hopen => ⟨sigDispatch_notLoaded rfl hr hqueued hturn hopen,
        fun _ _ => sigDispatch_scans rfl hr hqueued hturn hopen⟩,
      fun _ _ _ _ => sigScanDone_completes rfl hr, fun _ _ _ => inspectionReturn_completes rfl hr⟩,
    fun hphase hdrained hnext => ⟨sigReload_serves hphase hdrained hnext, sigReload_idles hphase hdrained hnext,
      fun _ _ => sigReload_ends hphase hdrained⟩⟩,
  fun _ _ _ _ x _ => ⟨sigStore_mismatch x, sigStore_alone, fun _ => sigStore_scan, sigPath_completes⟩⟩

end Sys2Proof.Proofs
end

section
/-!
PROOFS. Rules of the shared buffer: what a read of a quadrant or a copy returns after each update, what freed cells, slots and blocks leave,
and what is left once a copy is dropped (R280, R292, R293, R306).
-/

namespace Sys2Proof.Proofs

open Sys2Proof Sys2Proof.Machine Sys2Proof.Laws

/-! ### Quadrants and copies -/

section

variable {q c : Nat} {x : Copy} {s t : State}

theorem bufQuad_of_buf (h : t.buf = s.buf) (q : Nat) : bufQuad t q = bufQuad s q := by rw [bufQuad, h, bufQuad]

@[simp] theorem bufQuad_modQuad (q : Nat) (f : BufQuad → BufQuad) (s : State) : bufQuad (modQuad q f s) q = f (bufQuad s q) := tabGet_mod _ _ _ _

theorem bufQuad_modQuad_ne {r : Nat} (h : r ≠ q) (f : BufQuad → BufQuad) (s : State) : bufQuad (modQuad q f s) r = bufQuad s r :=
  tabGet_mod_ne _ _ _ h

theorem bufQueue_modQueue_ne {n m : Nat} (h : n ≠ m) (f : BufQueue → BufQueue) (s : State) : bufQueue (modQueue m f s) n = bufQueue s n :=
  tabGet_mod_ne _ _ _ h

theorem copyAt_of_copies (h : t.buf.copies = s.buf.copies) (c : Nat) : copyAt t c = copyAt s c := by rw [copyAt, h, copyAt]

theorem copyAt_of_absent (h : tabFind s.buf.copies c = none) : copyAt s c = { frame := 0, quad := 0, port := 0, queue := 0 } := by
  rw [copyAt, h, Option.getD_none]

theorem find_modCopy (h : tabFind s.buf.copies c = some x) (f : Copy → Copy) : tabFind (modCopy c f s).buf.copies c = some (f x) :=
  tabFind_upd h f

theorem copyAt_modCopy_ne {k : Nat} (h : k ≠ c) (f : Copy → Copy) (s : State) : copyAt (modCopy c f s) k = copyAt s k :=
  congrArg (Option.getD · _) (tabFind_upd_ne h f s.buf.copies)

theorem copySlots_of_spill {z : Spilled} (h : x.spill = some z) : copySlots x = z.slots := by rw [copySlots, h]

theorem detect_buf (b k i : Nat) (contain : Bool → State → State) (s : State) :
    (detect b k i contain s).buf = (contain (injectedNow s b k i) s).buf := raiseFault_buf _ _ _ _ _

end

/-! ### Cells, slots and blocks that are freed (R280, R291 to R293) -/

/-- From `s` to `t` the copies, the orders of the queues and the suspect cells stand. -/
structure Freed (s t : State) : Prop where
  copies : t.buf.copies = s.buf.copies
  fifo : ∀ no, (bufQueue t no).fifo = (bufQueue s no).fifo
  suspect : ∀ q, (bufQuad t q).suspect = (bufQuad s q).suspect

section

variable {s t u : State}

theorem Freed.refl : Freed s s := ⟨rfl, fun _ => rfl, fun _ => rfl⟩

theorem Freed.trans (h : Freed s t) (k : Freed t u) : Freed s u :=
  ⟨k.copies.trans h.copies, fun no => (k.fifo no).trans (h.fifo no), fun q => (k.suspect q).trans (h.suspect q)⟩

theorem freed_of_buf (h : t.buf = s.buf) : Freed s t := ⟨by rw [h], fun no => by rw [bufQueue_of_buf h], fun q => by rw [bufQuad_of_buf h]⟩

theorem Freed.foldl {α : Type} {op : State → α → State} (h : ∀ s a, Freed s (op s a)) (as : List α) (s : State) :
    Freed s (as.foldl op s) := by
  induction as generalizing s with
  | nil => exact .refl
  | cons a as ih => exact (h s a).trans (ih _)

theorem modQuad_freed {f : BufQuad → BufQuad} (q : Nat) (h : ∀ b, (f b).suspect = b.suspect := by exact fun _ => rfl) :
    Freed s (modQuad q f s) := by
  refine ⟨rfl, fun _ => rfl, fun r => ?_⟩
  by_cases hr : r = q
  · rw [hr, bufQuad_modQuad, h]
  · rw [bufQuad_modQuad_ne hr]

theorem modQueue_freed {f : BufQueue → BufQueue} (m : Nat) (h : ∀ v, (f v).fifo = v.fifo := by exact fun _ => rfl) :
    Freed s (modQueue m f s) := by
  refine ⟨rfl, fun no => ?_, fun _ => rfl⟩
  by_cases hm : no = m
  · rw [hm, bufQueue_modQueue, h]
  · rw [bufQueue_modQueue_ne hm]

variable (q c n : Nat) (b : Bool) (s : State)

theorem count_freed (d : Counter) : Freed s (count d q n s) := freed_of_buf (count_buf _ _ _ _)

theorem useBeats_freed : Freed s (useBeats q c n s) := (modQuad_freed q).trans (count_freed _ _ _ _)

theorem notePeakFree_freed : Freed s (notePeakFree q s) := modQuad_freed q

theorem releaseCell_freed : Freed s (releaseCell b q s c) := by
  have hseen : Freed s (if b then count cBufRelease q 1 s else s) := by
    split
    · exact count_freed _ _ _ _
    · exact .refl
  unfold releaseCell
  split
  · exact .refl
  · split
    · exact modQuad_freed q
    · dsimp only
      split
      · exact (hseen.trans (modQuad_freed q)).trans (freed_of_buf (kiln_buf _ _ _))
      · exact hseen.trans (modQuad_freed q)

theorem settleBlock_freed : Freed s (settleBlock q c s) := by
  unfold settleBlock
  dsimp only
  split
  · exact .refl
  · split
    · exact (modQuad_freed q).trans (freed_of_buf (kiln_buf _ _ _))
    · exact modQuad_freed q

theorem releaseSlot_freed : Freed s (releaseSlot q s c) := (modQuad_freed q).trans (settleBlock_freed _ _ _)

theorem releaseCells_freed (cs : List Nat) : Freed s (cs.foldl (releaseCell b q) s) := Freed.foldl (fun t c => releaseCell_freed q c b t) cs s

theorem releaseSlots_freed (ks : List Nat) : Freed s (ks.foldl (releaseSlot q) s) := Freed.foldl (fun t k => releaseSlot_freed q k t) ks s

theorem releaseSlots_counts (ks : List Nat) : Counts [] s (ks.foldl (releaseSlot q) s) :=
  Counts.foldl (fun _ _ => counts_of_keeps (keeps_releaseSlot _ _ _)) ks s

theorem endSpill_freed : Freed s (endSpill q n s) := by
  have hnormal : Freed s (modQueue n (fun u => { u with spilling := false, openBlock := none }) s) := modQueue_freed n
  unfold endSpill
  dsimp only
  split
  · exact .refl
  · split
    · exact hnormal
    · exact (hnormal.trans (modQuad_freed q)).trans (settleBlock_freed _ _ _)

end

/-! ### SPILLING ends (R292, R295) -/

theorem settleBlock_queues (q b : Nat) (s : State) : (settleBlock q b s).buf.queues = s.buf.queues := by
  unfold settleBlock
  dsimp only
  split
  · rfl
  · split
    · rw [kiln_buf]
      rfl
    · rfl

/-- A queue whose DRAM section is empty is not SPILLING. -/
theorem endSpill_spilling {q n : Nat} {s : State} (h : sectionHead s n = none) : (bufQueue (endSpill q n s) n).spilling = false := by
  have hnormal : (bufQueue (modQueue n (fun u => { u with spilling := false, openBlock := none }) s) n).spilling = false := by
    rw [bufQueue_modQueue]
  unfold endSpill
  dsimp only
  split
  · next hc => simpa [h] using hc
  · split
    · exact hnormal
    · rw [bufQueue, settleBlock_queues]
      exact hnormal

/-! ### Copies that are dropped (R280, R281, R306) -/

/-- From `s` to `t` copies may be dropped: queues hold no new copy, no copy is newly spilled, and the suspect cells stand. -/
structure Dropping (s t : State) : Prop where
  fifo : ∀ no, ∀ c ∈ (bufQueue t no).fifo, c ∈ (bufQueue s no).fifo
  unspilled : ∀ c, (copyAt s c).spill = none → (copyAt t c).spill = none
  suspect : ∀ q, (bufQuad t q).suspect = (bufQuad s q).suspect

section

variable {s t u : State}

theorem Dropping.refl : Dropping s s := ⟨fun _ _ => id, fun _ => id, fun _ => rfl⟩

theorem Dropping.trans (h : Dropping s t) (k : Dropping t u) : Dropping s u :=
  ⟨fun no c hc => h.fifo no c (k.fifo no c hc), fun c hc => k.unspilled c (h.unspilled c hc), fun q => (k.suspect q).trans (h.suspect q)⟩

theorem Dropping.foldl {α : Type} {op : State → α → State} (h : ∀ s a, Dropping s (op s a)) (as : List α) (s : State) :
    Dropping s (as.foldl op s) := by
  induction as generalizing s with
  | nil => exact .refl
  | cons a as ih => exact (h s a).trans (ih _)

theorem Freed.dropping (h : Freed s t) : Dropping s t :=
  ⟨fun no _ hc => h.fifo no ▸ hc, fun c hc => (copyAt_of_copies h.copies c).symm ▸ hc, h.suspect⟩

theorem dropping_of_buf (h : t.buf = s.buf) : Dropping s t := (freed_of_buf h).dropping

/-- An operation that leaves the buffers alone drops no copy. -/
theorem dropping_of_keeps {ps : List Part} (h : Keeps ps s t) (hp : ps.contains .buf = false := by rfl) : Dropping s t :=
  dropping_of_buf (h.same .buf hp)

variable (c : Nat) (s : State)

theorem modCopy_dropping {f : Copy → Copy} (h : ∀ y, y.spill = none → (f y).spill = none) : Dropping s (modCopy c f s) := by
  refine ⟨fun _ _ => id, fun k hk => ?_, fun _ => rfl⟩
  by_cases hkc : k = c
  · subst hkc
    cases hx : tabFind s.buf.copies k with
    | none =>
      have habsent : tabFind (modCopy k f s).buf.copies k = none := (tabFind_upd_map k f _).trans (by rw [hx, Option.map_none])
      rw [copyAt_of_absent habsent]
    | some x =>
      rw [copyAt_modCopy hx]
      exact h x (copyAt_of_find hx ▸ hk)
  · rwa [copyAt_modCopy_ne hkc]

theorem deletedCopy_dropping : Dropping s (modBuf (fun b => { b with copies := tabDel c b.copies }) s) := by
  refine ⟨fun _ _ => id, fun k hk => ?_, fun _ => rfl⟩
  by_cases hkc : k = c
  · rw [hkc, copyAt_of_absent (tabFind_del c s.buf.copies)]
  · have hother : copyAt (modBuf (fun b => { b with copies := tabDel c b.copies }) s) k = copyAt s k :=
      congrArg (Option.getD · _) (tabFind_del_ne s.buf.copies hkc)
    rwa [hother]

theorem unlinkCopy_buf : (unlinkCopy c s).buf =
    (modQueue (queueNo (copyAt s c).port (copyAt s c).queue) (fun u => { u with fifo := u.fifo.filter (· != c) }) s).buf :=
  (noteEmpty_scheduled _ _ _ _).buf

theorem unlinkCopy_dropping : Dropping s (unlinkCopy c s) := by
  refine Dropping.trans (t := modQueue _ _ s) ⟨fun no d hd => ?_, fun _ => id, fun _ => rfl⟩ (dropping_of_buf (unlinkCopy_buf c s))
  by_cases hno : no = queueNo (copyAt s c).port (copyAt s c).queue
  · rw [hno, bufQueue_modQueue] at hd
    exact hno ▸ List.mem_of_mem_filter hd
  · rwa [bufQueue_modQueue_ne hno] at hd

/-- A copy that is released leaves its queue's order and gives up its slots; what follows drops at most what remains of it. -/
theorem releaseCopy_follows {x : Copy} (h : tabFind s.buf.copies c = some x) :
    Dropping (modCopy c (fun y => { y with spill := none }) (unlinkCopy c s)) (releaseCopy c s) := by
  have hgone : ∀ t, Dropping t (modCopy c (fun y => { y with gone := true }) t) := fun t => modCopy_dropping c t fun _ => id
  unfold releaseCopy
  rw [h]
  dsimp only
  refine (releaseSlots_freed x.quad _ (copySlots x)).dropping.trans ?_
  split
  · exact ((deletedCopy_dropping _ _).trans ((releaseCells_freed _ _ _ _).trans (endSpill_freed _ _ _)).dropping).trans
      (dropping_of_keeps (keeps_settleFrame _ _))
  · exact (hgone _).trans (endSpill_freed _ _ _).dropping

theorem releaseCopy_of_absent (h : tabFind s.buf.copies c = none) : releaseCopy c s = s := by
  unfold releaseCopy
  rw [h]

theorem releaseCopy_dropping : Dropping s (releaseCopy c s) := by
  cases h : tabFind s.buf.copies c with
  | none =>
    rw [releaseCopy_of_absent c s h]
    exact .refl
  | some x => exact ((unlinkCopy_dropping c s).trans (modCopy_dropping _ _ fun _ _ => rfl)).trans (releaseCopy_follows c s h)

/-- A released copy holds no slots any more. -/
theorem releaseCopy_unspilled : (copyAt (releaseCopy c s) c).spill = none := by
  cases h : tabFind s.buf.copies c with
  | none => rw [releaseCopy_of_absent c s h, copyAt_of_absent h]
  | some x =>
    have hlinked : tabFind (unlinkCopy c s).buf.copies c = some x := by
      rw [unlinkCopy_buf]
      exact h
    exact (releaseCopy_follows c s h).unspilled c (by rw [copyAt_modCopy hlinked])

variable (r d : Nat)

theorem dropCopy_dropping : Dropping s (dropCopy c r d s) := (dropping_of_keeps (keeps_dropCopyIn _ _ _ _ _ _)).trans (releaseCopy_dropping _ _)

theorem dropCopy_unspilled : (copyAt (dropCopy c r d s) c).spill = none := releaseCopy_unspilled _ _

/-- A dropped copy counts once under its reason. -/
theorem dropCopy_counted (h : (cTelExportDrops :: recordCounters).all (apart (cSwcDrops r)) = true := by decide)
    (hr : [cBufRelease].all (apart (cSwcDrops r)) = true := by decide) :
    counted (cSwcDrops r) (copyAt s c).quad 1 s (dropCopy c r d s) :=
  counted_then_counts (dropCopyIn_counted _ _ _ _ _ _ h) (releaseCopy_undisturbed _ _).counts hr

theorem stompCopy_dropping (n : Nat) : Dropping s (stompCopy c n r d s) := by
  unfold stompCopy
  dsimp only
  split
  · exact .refl
  · have hsent : ∀ len t, Dropping t (histCount (queueNo (copyAt s c).port (copyAt s c).queue) len t) := fun _ _ =>
      dropping_of_keeps (keeps_histCount _ _ _)
    have hcounted : ∀ len t, Dropping t (countSent (copyAt s c) len t) := fun _ _ => dropping_of_keeps (keeps_countSent _ _ _)
    have hrecorded : ∀ fs x v i t, Dropping t (dropCopyIn (copyAt s c).quad r x v i (kilnOnce 0x090B (copyAt s c).quad fs t)) :=
      fun _ _ _ _ _ => (dropping_of_keeps (keeps_kilnOnce _ _ _ _)).trans (dropping_of_keeps (keeps_dropCopyIn _ _ _ _ _ _))
    refine (((Dropping.trans ?_ (hcounted _ _)).trans (hsent _ _)).trans (hrecorded _ _ _ _ _)).trans
      ((dropping_of_keeps (keeps_correctCharges _ _ _)).trans ((releaseCopy_dropping _ _).trans (dropping_of_keeps (keeps_clearTx _ _ _))))
    exact dropping_of_buf rfl

theorem badWord_dropping : Dropping s (badWord d s c) := by
  unfold badWord
  dsimp only
  split
  · exact .refl
  · split
    · exact Dropping.trans (t := (takeFree s).2) (dropping_of_buf rfl) (stompCopy_dropping _ _ _ _ _)
    · split
      · exact modCopy_dropping _ _ fun y hy => by rw [hy]; rfl
      · exact dropCopy_dropping _ _ _ _

end

end Sys2Proof.Proofs
end

section
/-!
PROOFS. Spill and return (R292 to R295, R298, R300, R301, part of O31): the writes of staging cells, each outcome of a return, and the ends of
windows and scrub passes.
-/

namespace Sys2Proof.Proofs

open Sys2Proof Sys2Proof.Machine Sys2Proof.Laws

section

variable {q : Quad} {p : Port} {k : Fin 20} {n : Fin 4} {c no : Nat} {x : Copy} {z : Spilled} {s : State}

/-! ### Copies that come back to SRAM (R293, R294) -/

/-- A copy back in its queue's return window: what follows frees its slots. -/
theorem returned_freed (c : Nat) (s : State) : Freed (modCopy c (fun y => { y with spill := none }) s) (returned c s) :=
  ((releaseSlots_freed _ _ _).trans (count_freed _ _ _ _)).trans (endSpill_freed _ _ _)

theorem returned_counts (c : Nat) (s : State) : Counts [bufQueueCnt 7] s (returned c s) := by
  have hback : Counts [] s ((copySlots (copyAt s c)).foldl (releaseSlot (copyAt s c).quad) (modCopy c (fun y => { y with spill := none }) s)) :=
    (releaseSlots_counts _ _ _).after (counts_of_keeps (keeps_modCopy _ _ _))
  exact (counts_of_keeps (keeps_endSpill _ _ _)).after (m := []) (Counts.count (hback.mono nofun) List.mem_cons_self)

theorem find_returned (hx : tabFind s.buf.copies c = some x) : tabFind (returned c s).buf.copies c = some { x with spill := none } := by
  rw [(returned_freed c s).copies, find_modCopy hx]

/-- The cells are there: a return's read is issued, its slots released. -/
theorem startReturn_reads (hx : tabFind s.buf.copies c = some x) (hz : x.spill = some z) {l : List Nat} {v : State}
    (htake : takeCells x.quad z.slots.length s = some (l, v)) :
    tabFind (startReturn c s).buf.copies c = some { x with
      cells := l, shared := z.slots.length, spill := some { z with reading := true, stalled := false, slots := [] } } ∧
    counted cBufReturnReads x.quad z.slots.length s (startReturn c s) := by
  have hcopies : v.buf.copies = s.buf.copies := (takeCells_copiesStand (no := 0) htake).2.copies
  have htel : v.tel = s.tel := (keeps_takeCells _ _ _ _ _ htake).same .tel rfl
  have hpeak : ∀ m (g : BufQueue → Nat) t, Freed t (modQueue m (fun u => { u with peak := g u }) t) := fun m g t => modQueue_freed m
  unfold startReturn
  dsimp only
  rw [copyAt_of_find hx, copySlots_of_spill hz, htake]
  dsimp only
  constructor
  · rw [(((((releaseSlots_freed _ _ _).trans (hpeak _ _ _)).trans (count_freed _ _ _ _)).trans (count_freed _ _ _ _)).trans
      ((useBeats_freed _ _ _ _).trans (notePeakFree_freed _ _))).copies, find_modCopy (hcopies ▸ hx), hz]
    rfl
  · have hmoved : ∀ f m g, Counts [cBufAlloc] s (count cBufAlloc x.quad z.slots.length (modQueue m g
        (z.slots.foldl (releaseSlot x.quad) (modCopy c f v)))) := fun f m g => by
      have hfreed : Counts [] s (z.slots.foldl (releaseSlot x.quad) (modCopy c f v)) :=
        (releaseSlots_counts _ _ _).after (counts_of_tel htel)
      exact Counts.count ((hfreed.trans (counts_of_keeps (keeps_modQueue _ _ _))).mono nofun) List.mem_cons_self
    have hgranted : ∀ t, Counts [cDramBeats 3] t (useBeats x.quad 3 (4 * z.slots.length) t) := fun t =>
      Counts.count (counts_of_keeps (keeps_modQuad _ _ _)) List.mem_cons_self
    exact counted_then_same (counted_then_counts (counts_then_counted (hmoved _ _ _) (counted_count _ _ _ _)) (hgranted _))
      ((keeps_notePeakFree _ _).same .tel rfl)

/-! ### Staging cells (R292) -/

theorem spillWrite_completes (hx : tabFind s.buf.copies c = some x) (hz : x.spill = some z)
    (hturn : nextTurn (bufQuad s q.val).spillTurn (writableQueues s q.val) = some no) (hcopy : writableCopy s no = some c)
    (hbeats : spillAllowed s q.val 4 = true) : Completes (.spillWrite q) s fun t =>
      tabFind t.buf.copies c = some { x with spill := some { z with writing := true } } ∧ (bufQuad t q.val).spillTurn = no ∧
      counted (cDramBeats 3) q.val 4 s t := by
  have hexec : exec (.spillWrite q) s = .next (useBeats q.val 3 4 (modQuad q.val (fun b => { b with spillTurn := no })
      (modCopy c (fun y => { y with spill := y.spill.map fun z => { z with writing := true } }) s))) := by
    change execSpillWrite q s = _
    simp only [execSpillWrite, hturn, hcopy, hbeats]
    rfl
  refine ⟨_, hexec, ?_, ?_, counted_count_of _ _ _ _ rfl⟩
  · refine (find_modCopy hx _).trans ?_
    rw [hz]
    rfl
  · rw [useBeats, bufQuad_of_buf (count_buf _ _ _ _), bufQuad_modQuad, bufQuad_modQuad]

theorem spillWriteDone_completes (hx : tabFind s.buf.copies c = some x) (hz : x.spill = some z)
    (hwrites : (bufQueue s (queueNo p.val k.val)).fifo.find? (fun c => ((copyAt s c).spill.map Spilled.writing) == some true) = some c) :
    Completes (.spillWriteDone p k) s fun t => (copyAt t c).cells = x.cells.drop 1 ∧
      (copyAt t c).spill = some { z with writing := false, written := z.written + 1 } ∧ counted cBufSpillWrites x.quad 1 s t := by
  have hexec : exec (.spillWriteDone p k) s = .next (count cBufSpillWrites x.quad 1 ((x.cells.take 1).foldl (releaseCell true x.quad)
      (modCopy c (fun y => { uncharge 1 y with
        cells := y.cells.drop 1, spill := y.spill.map fun z => { z with writing := false, written := z.written + 1 } }) s))) := by
    change execSpillWriteDone p k s = _
    simp only [execSpillWriteDone, hwrites, copyAt_of_find hx]
  have hreleased : ∀ t, Counts [cBufRelease] t ((x.cells.take 1).foldl (releaseCell true x.quad) t) :=
    Counts.foldl (fun t k => releaseCell_counts k t _ _) _
  refine ⟨_, hexec, ?_, ?_, ?_⟩
  · rw [copyAt_of_copies ((releaseCells_freed _ _ _ _).trans (count_freed _ _ _ _)).copies, copyAt_modCopy hx]
  · rw [copyAt_of_copies ((releaseCells_freed _ _ _ _).trans (count_freed _ _ _ _)).copies, copyAt_modCopy hx]
    dsimp only
    rw [hz]
    rfl
  · exact counts_then_counted ((counts_of_keeps (keeps_modCopy _ _ _)).trans (hreleased _)) (counted_count _ _ _ _)

/-! ### A return's turn (R293, R294) -/

section

variable (hhead : sectionHead s (queueNo p.val k.val) = some c)
  (hwindow : returnWindow s (queueNo p.val k.val) < returnCells (queueProfile s p.val k.val))
  (hup : (bufQuad s (quadOfPort p.val)).retrain = none)
include hhead hwindow hup

/-- A queue whose return window is below its limit takes the first copy of its DRAM section. -/
theorem exec_returnRead : exec (.returnRead p k) s = .next (returnNext c s) := by
  change execReturnRead p k s = _
  simp [execReturnRead, hhead, hwindow, hup]

variable (hx : tabFind s.buf.copies c = some x) (hz : x.spill = some z) (hreading : z.reading = false) (hstalled : z.stalled = false)
include hx hz hreading hstalled

theorem returnRead_ages (hage : copyAged s x = true) : Completes (.returnRead p k) s fun t => counted (cSwcDrops 0x2C) x.quad 1 s t ∧
    counted cSwcAged (queueNo x.port x.queue) 1 s t ∧ (copyAt t c).spill = none := by
  have hnext : returnNext c s = ageOut c s := by simp [returnNext, copyAt_of_find hx, hz, hreading, hstalled, hage]
  obtain ⟨-, haged, hdropped⟩ := ageOut_drops c s
  rw [copyAt_of_find hx] at haged hdropped
  exact ⟨_, (exec_returnRead hhead hwindow hup).trans (congrArg _ hnext), hdropped, haged, dropCopy_unspilled _ _ _ _⟩

variable (hage : copyAged s x = false)
include hage

theorem returnRead_discards (hbad : z.bad = true) : Completes (.returnRead p k) s fun t => counted (cSwcDrops 0x26) x.quad 1 s t ∧
    (copyAt t c).spill = none := by
  have hnext : returnNext c s = dropCopy c 0x26 35 s := by simp [returnNext, copyAt_of_find hx, hz, hreading, hstalled, hage, hbad]
  have hdropped := dropCopy_counted c s 0x26 35
  rw [copyAt_of_find hx] at hdropped
  exact ⟨_, (exec_returnRead hhead hwindow hup).trans (congrArg _ hnext), hdropped, dropCopy_unspilled _ _ _ _⟩

variable (hbad : z.bad = false) (hwriting : z.writing = false)
include hbad hwriting

theorem returnRead_bypasses (hwritten : z.written = 0) : Completes (.returnRead p k) s fun t => counted cBufBypass x.quad 1 s t ∧
    tabFind t.buf.copies c = some { x with spill := none } := by
  have hnext : returnNext c s = count cBufBypass x.quad 1 (returned c s) := by
    simp [returnNext, copyAt_of_find hx, hz, hreading, hstalled, hage, hbad, hwriting, hwritten]
  refine ⟨_, (exec_returnRead hhead hwindow hup).trans (congrArg _ hnext), counts_then_counted (returned_counts c s) (counted_count _ _ _ _), ?_⟩
  rw [count_buf]
  exact find_returned hx

variable (hwritten : z.written ≠ 0) (hcells : x.cells = [])
include hwritten hcells

/-- Too few shared cells: the return waits until the pool has one for every slot of the copy. -/
theorem returnRead_stalls (hfree : sharedFree s x.quad < z.slots.length) : Completes (.returnRead p k) s fun t =>
    counted cBufStalls x.quad 1 s t ∧ tabFind t.buf.copies c = some { x with spill := some { z with stalled := true } } := by
  have hnext : returnNext c s = count cBufStalls x.quad 1
      (modCopy c (fun y => { y with spill := y.spill.map fun w => { w with stalled := true } }) s) := by
    simp [returnNext, copyAt_of_find hx, hz, hreading, hstalled, hage, hbad, hwriting, hwritten, hcells, hfree]
  refine ⟨_, (exec_returnRead hhead hwindow hup).trans (congrArg _ hnext), counted_count_of _ _ _ _ rfl, ?_⟩
  rw [count_buf, find_modCopy hx, hz]
  rfl

theorem returnRead_reads {l : List Nat} {v : State} (hfree : z.slots.length ≤ sharedFree s x.quad)
    (hbeats : spillAllowed s x.quad (4 * z.slots.length) = true) (htake : takeCells x.quad z.slots.length s = some (l, v)) :
    Completes (.returnRead p k) s fun t => tabFind t.buf.copies c = some { x with
      cells := l, shared := z.slots.length, spill := some { z with reading := true, stalled := false, slots := [] } } ∧
    counted cBufReturnReads x.quad z.slots.length s t := by
  have hnext : returnNext c s = startReturn c s := by
    simp [returnNext, copyAt_of_find hx, hz, hreading, hstalled, hage, hbad, hwriting, hwritten, hcells, Nat.not_lt.mpr hfree, hbeats]
  exact ⟨_, (exec_returnRead hhead hwindow hup).trans (congrArg _ hnext), startReturn_reads hx hz htake⟩

end

theorem returnStallResume_completes (hx : tabFind s.buf.copies c = some x) (hz : x.spill = some z)
    (hwaits : (bufQueue s (queueNo p.val k.val)).fifo.find? (fun c => ((copyAt s c).spill.map Spilled.stalled) == some true) = some c)
    (hfree : z.slots.length ≤ sharedFree s (quadOfPort p.val)) (hbeats : spillAllowed s (quadOfPort p.val) 4 = true)
    {l : List Nat} {v : State} (htake : takeCells x.quad z.slots.length s = some (l, v)) :
    Completes (.returnStallResume p k) s fun t => tabFind t.buf.copies c = some { x with
      cells := l, shared := z.slots.length, spill := some { z with reading := true, stalled := false, slots := [] } } := by
  have hexec : exec (.returnStallResume p k) s = .next (startReturn c s) := by
    change execReturnStallResume p k s = _
    simp [execReturnStallResume, hwaits, copyAt_of_find hx, copySlots_of_spill hz, hfree, hbeats]
  exact ⟨_, hexec, (startReturn_reads hx hz htake).1⟩

theorem returnReadDone_completes (hx : tabFind s.buf.copies c = some x)
    (hreads : (bufQueue s (queueNo p.val k.val)).fifo.find? (fun c => ((copyAt s c).spill.map Spilled.reading) == some true) = some c)
    (hup : (bufQuad s (quadOfPort p.val)).retrain = none) : Completes (.returnReadDone p k true) s fun t =>
      tabFind t.buf.copies c = some { x with spill := none } := by
  have hexec : exec (.returnReadDone p k true) s = .next (returned c s) := by
    change execReturnReadDone p k true s = _
    simp [execReturnReadDone, hreads, hup]
  exact ⟨_, hexec, find_returned hx⟩

/-! ### Windows and scrub passes (R298, R300) -/

theorem dramShareWindow_completes : Completes (.dramShareWindow q) s fun t =>
    (bufQuad t q.val).beats = [] ∧ ∀ r, r ≠ q.val → bufQuad t r = bufQuad s r :=
  ⟨_, rfl, by rw [bufQuad_modQuad], fun _ hr => bufQuad_modQuad_ne hr _ _⟩

theorem scrubPassDone_ends (hruns : tabGet 0 (bufQuad s q.val).scrubbing n.val = 1) (hn : n.val ≠ 1) : Completes (.scrubPassDone q n) s fun t =>
    tabGet 0 (bufQuad t q.val).scrubbing n.val = 0 := by
  have hexec : exec (.scrubPassDone q n) s = .next (modQuad q.val (fun b => { b with scrubbing := tabSet 0 n.val 0 b.scrubbing }) s) := by
    change execScrubPassDone q n s = _
    simp [execScrubPassDone, hruns, hn]
  exact ⟨_, hexec, by dsimp only; rw [bufQuad_modQuad, tabGet_set]⟩

/-- The next pass is due: it starts at once, and the overrun is counted. -/
theorem scrubPassDone_overruns (hdue : tabGet 0 (bufQuad s q.val).scrubbing n.val = 2) (hn : n.val ≠ 1) :
    Completes (.scrubPassDone q n) s fun t => tabGet 0 (bufQuad t q.val).scrubbing n.val = 1 ∧
      tabGet 0 (bufQuad t q.val).overruns n.val = satAdd 32 (tabGet 0 (bufQuad s q.val).overruns n.val) 1 ∧ logged 0x080B t := by
  have hexec : exec (.scrubPassDone q n) s = .next (countScrubOverrun q.val n.val 1 s) := by
    change execScrubPassDone q n s = _
    simp [execScrubPassDone, hdue, hn]
  refine ⟨_, hexec, ?_, ?_, kiln_head _ _ _⟩
  · rw [countScrubOverrun, bufQuad_of_buf (kiln_buf _ _ _), bufQuad_modQuad, tabGet_set]
  · rw [countScrubOverrun, bufQuad_of_buf (kiln_buf _ _ _), bufQuad_modQuad, tabGet_mod]

end

end Sys2Proof.Proofs
end

section
/-!
PROOFS. Faults of the buffer (R281, R295, R301, R306, part of O31): copies with a bad word, chain or descriptor, rebuilds, broken sections and a
stack's interface, and the settling theorem.
-/

namespace Sys2Proof.Proofs

open Sys2Proof Sys2Proof.Machine Sys2Proof.Laws

/-! ### Copies with a bad word or chain (R306) -/

section

variable {c cell d : Nat} {x : Copy} {s t : State}

/-- A copy in SRAM that is neither released nor started is dropped for its bad word. -/
theorem badWord_drops (hx : copyAt s c = x) (hgone : x.gone = false) (hstarted : x.started = false) (hspill : x.spill = none) :
    badWord d s c = dropCopy c 0x26 d s := by
  simp [badWord, hx, hgone, hstarted, hspill]

/-- A copy that is not started is dropped with the cells before the break in its chain. -/
theorem breakChain_counted (hx : tabFind s.buf.copies c = some x) (hstarted : x.started = false) :
    counted (cSwcDrops 0x26) x.quad 1 s (breakChain cell s c) := by
  have hcut : ∀ f : Copy → Copy, (∀ y, (f y).quad = y.quad) → ∀ g, counted (cSwcDrops 0x26) x.quad 1 s
      (dropCopy c 0x26 31 (modCopy c f (modQuad x.quad g s))) := fun f hf g => by
    have hdropped := dropCopy_counted c (modCopy c f (modQuad x.quad g s)) 0x26 31
    rw [copyAt_modCopy (s := modQuad x.quad g s) hx, hf] at hdropped
    exact counts_then_counted (l := []) (counts_of_tel rfl) hdropped
  unfold breakChain
  dsimp only
  rw [copyAt_of_find hx, hstarted, if_neg Bool.false_ne_true]
  refine hcut _ ?_ _
  exact fun _ => rfl

end

section

variable {q : Quad} {cell c : Nat} {x : Copy} {s : State}

theorem bufData_completes : Completes (.bufData q cell) s fun t => raisedLast 30 7 q.val t ∧ (cell, s.now) ∈ (bufQuad t q.val).suspect := by
  refine ⟨_, rfl, raisedLast_detect _ _ _ _ _, ?_⟩
  rw [bufQuad_of_buf (detect_buf _ _ _ _ _), (Dropping.foldl (fun t k => badWord_dropping k t 30) _ _).suspect, bufQuad_modQuad]
  exact List.mem_cons_self

theorem bufLink_word_completes : Completes (.bufLink q none) s fun t =>
    raised 31 7 q.val s t ∧ (bufQuad t q.val).rebuilds = (bufQuad s q.val).rebuilds ++ [31] :=
  ⟨_, rfl, raised_detect (fun _ => rfl) _ _ _, by rw [bufQuad_of_buf (detect_buf _ _ _ _ _), bufQuad_modQuad]⟩

section

variable (hx : tabFind s.buf.copies c = some x) (hstarted : x.started = false) (hquad : x.quad = q.val)
include hx hstarted hquad

theorem bufLink_drops (hheld : holders s q.val cell = [c]) : Completes (.bufLink q (some cell)) s fun t =>
    raisedLast 31 7 q.val t ∧ counted (cSwcDrops 0x26) q.val 1 s t := by
  refine ⟨_, rfl, raisedLast_detect _ _ _ _ _, counted_detect (fun _ => ?_) _ _ _⟩
  dsimp only
  rw [hheld, List.foldl_cons, List.foldl_nil, ← hquad]
  exact breakChain_counted hx hstarted

variable (hgone : x.gone = false)
include hgone

theorem bufData_drops (hheld : holders s q.val cell = [c]) (hspill : x.spill = none) :
    Completes (.bufData q cell) s fun t => counted (cSwcDrops 0x26) q.val 1 s t := by
  refine ⟨_, rfl, counted_detect (fun _ => ?_) _ _ _⟩
  have hcopy : ∀ f, copyAt (modQuad q.val f s) c = x := fun _ => copyAt_of_find hx
  have hdropped : ∀ f, counted (cSwcDrops 0x26) q.val 1 s (dropCopy c 0x26 30 (modQuad q.val f s)) := fun f => by
    have hdrop := dropCopy_counted c (modQuad q.val f s) 0x26 30
    rw [hcopy, hquad] at hdrop
    exact counts_then_counted (l := []) (counts_of_tel rfl) hdrop
  rw [hheld, List.foldl_cons, List.foldl_nil, badWord_drops (hcopy _) hgone hstarted hspill]
  exact hdropped _

theorem bufDesc_drops : Completes (.bufDesc q c false) s fun t => raisedLast 33 7 q.val t ∧ counted (cSwcDrops 0x26) q.val 1 s t := by
  have hexec : exec (.bufDesc q c false) s = .next (detect 33 7 q.val (fun _ s => dropCopy c 0x26 33 s) s) := by
    change execBufDesc q c false s = _
    simp [execBufDesc, hx, hgone, hstarted, hquad]
  have hdropped := dropCopy_counted c s 0x26 33
  rw [copyAt_of_find hx, hquad] at hdropped
  exact ⟨_, hexec, raisedLast_detect _ _ _ _ _, counted_detect (fun _ => hdropped) _ _ _⟩

end

/-- A descriptor released twice: the release is counted and logged, and the buffers stand. -/
theorem bufDesc_double_completes : Completes (.bufDesc q c true) s fun t =>
    raised 33 7 q.val s t ∧ counted cBufDescDoubleFrees q.val 1 s t ∧ logged 0x0803 t ∧ t.buf = s.buf := by
  refine ⟨_, rfl, raised_detect (fun _ => ?_) _ _ _, counted_detect (fun _ => ?_) _ _ _, detect_logged fun _ => kilnInj_head _ _ _ _, ?_⟩
  · rw [kilnInj_flt_inFlight]
    rfl
  · exact counted_then_same (counted_count_of _ _ _ _ rfl) (kilnInj_tel _ _ _ _)
  · rw [detect_buf, kilnInj_buf]
    rfl

end

/-! ### Counts and lists that are rebuilt (R306) -/

section

variable {q : Quad} {p : Port} {k : Fin 20} {s : State}

theorem bufCount_completes : Completes (.bufCount p k) s fun t => raised 34 7 (quadOfPort p.val) s t ∧
    (bufQueue t (queueNo p.val k.val)).rebuilding = true ∧
    (bufQuad t (quadOfPort p.val)).rebuilds = (bufQuad s (quadOfPort p.val)).rebuilds ++ [34] := by
  have hqueue : ∀ n q f g, bufQueue (modQuad q f (modQueue n g s)) n = g (bufQueue s n) := fun _ _ _ g => bufQueue_modQueue _ g s
  refine ⟨_, rfl, raised_detect (fun _ => rfl) _ _ _, ?_, ?_⟩
  · rw [bufQueue_of_buf (detect_buf _ _ _ _ _), hqueue]
  · rw [bufQuad_of_buf (detect_buf _ _ _ _ _), bufQuad_modQuad]
    rfl

theorem poolRebuild_completes {b : Nat} {l : List Nat} (holdest : (bufQuad s q.val).rebuilds = b :: l) :
    Completes (.poolRebuild q) s fun t => (bufQuad t q.val).rebuilds = l ∧ logged 0x0804 t := by
  have hdone : ∀ fs u, (bufQuad (kiln 0x0804 fs (modQuad q.val (fun x => { x with rebuilds := l }) u)) q.val).rebuilds = l := fun fs u => by
    rw [bufQuad_of_buf (kiln_buf _ _ _), bufQuad_modQuad]
  have hadmits : ∀ (es : List (Nat × BufQueue)) u, let t := es.foldl (fun s e => modQueue e.1 (fun u => { u with rebuilding := false }) s) u
      bufQuad t q.val = bufQuad u q.val ∧ t.flt = u.flt := fun es u =>
    ⟨foldl_keeps (bufQuad · q.val) fun _ _ _ => rfl, foldl_keeps State.flt fun _ _ _ => rfl⟩
  change ∃ t, execPoolRebuild q s = .next t ∧ _
  unfold execPoolRebuild
  rw [holdest]
  dsimp only
  split
  · refine ⟨_, rfl, ?_, ?_⟩
    · rw [(hadmits _ _).1, hdone]
    · rw [logged, (hadmits _ _).2]
      exact kiln_head _ _ _
  · exact ⟨_, rfl, hdone _ _, kiln_head _ _ _⟩

/-! ### A broken section (R295, R306) -/

/-- Every copy of a run that is dropped holds no slots any more. -/
theorem foldl_dropCopy_unspilled (r d : Nat) {c : Nat} {cs : List Nat} (hc : c ∈ cs) (s : State) :
    (copyAt (cs.foldl (fun s c => dropCopy c r d s) s) c).spill = none := by
  induction cs generalizing s with
  | nil => cases hc
  | cons e cs ih =>
    rcases List.mem_cons.mp hc with rfl | hc
    · exact (Dropping.foldl (fun t a => dropCopy_dropping a t r d) cs _).unspilled c (dropCopy_unspilled c s r d)
    · exact ih hc _

/-- Once every copy of a queue's DRAM section is dropped the section is empty. -/
theorem sectionHead_of_flushed (n r d : Nat) (s : State) :
    sectionHead (((bufQueue s n).fifo.filter fun c => (copyAt s c).spill.isSome).foldl (fun s c => dropCopy c r d s) s) n = none := by
  have hdropping := Dropping.foldl (fun t a => dropCopy_dropping a t r d) ((bufQueue s n).fifo.filter fun c => (copyAt s c).spill.isSome) s
  refine List.find?_eq_none.mpr fun c hc => ?_
  suffices (copyAt (((bufQueue s n).fifo.filter fun c => (copyAt s c).spill.isSome).foldl (fun s c => dropCopy c r d s) s) c).spill = none by
    simp [this]
  by_cases hspilled : (copyAt s c).spill.isSome = true
  · exact foldl_dropCopy_unspilled r d (List.mem_filter.mpr ⟨hdropping.fifo n c hc, hspilled⟩) s
  · exact hdropping.unspilled c (Option.not_isSome_iff_eq_none.mp hspilled)

theorem resetSection_spilling (p k : Nat) (inj : Bool) (s : State) : (bufQueue (resetSection p k inj s) (queueNo p k)).spilling = false := by
  unfold resetSection
  dsimp only
  rw [bufQueue_of_buf (kilnInj_buf _ _ _ _)]
  exact endSpill_spilling (sectionHead_of_flushed _ _ _ _)

theorem spillOrder_completes (hspills : (bufQueue s (queueNo p.val k.val)).spilling = true) : Completes (.spillOrder p k) s fun t =>
    raisedLast 37 7 (quadOfPort p.val) t ∧ logged 0x080A t ∧ (bufQueue t (queueNo p.val k.val)).spilling = false := by
  refine ⟨_, if_pos hspills, raisedLast_detect _ _ _ _ _, detect_logged fun _ => kilnInj_head _ _ _ _, ?_⟩
  rw [bufQueue_of_buf (detect_buf _ _ _ _ _)]
  exact resetSection_spilling _ _ _ _

/-! ### The DRAM stack (R301, R306) -/

theorem settleBlock_inFlight (q b : Nat) (s : State) : (settleBlock q b s).flt.inFlight = s.flt.inFlight := by
  unfold settleBlock
  dsimp only
  split
  · rfl
  · split
    · rw [kiln_flt_inFlight]
      rfl
    · rfl

/-- A bad block is retired, never freed. -/
theorem settleBlock_bad {q b : Nat} {s : State} (h : (tabGet {} (bufQuad s q).blocks b).bad = true) :
    (tabGet {} (bufQuad (settleBlock q b s) q).blocks b).bad = true := by
  unfold settleBlock
  dsimp only
  split
  · exact h
  · rw [bufQuad_of_buf (kiln_buf _ _ _), bufQuad_modQuad, tabGet_put]
    exact h

theorem dramData_completes {slot : Nat} (h : slot / 16 < 3145728) : Completes (.dramData q slot) s fun t =>
    raised 35 10 q.val s t ∧ (tabGet {} (bufQuad t q.val).blocks (slot / 16)).bad = true := by
  have hmarked : ∀ f (cs : List Nat), (cs.foldl (fun s c => modCopy c f s) s).flt = s.flt := fun _ _ => foldl_keeps State.flt fun _ _ _ => rfl
  refine ⟨_, if_neg (Nat.not_le.mpr h), raised_detect (fun _ => ?_) _ _ _, ?_⟩
  · rw [settleBlock_inFlight]
    exact congrArg FaultState.inFlight (hmarked _ _)
  · rw [bufQuad_of_buf (detect_buf _ _ _ _ _)]
    refine settleBlock_bad ?_
    rw [bufQuad_modQuad, tabGet_mod]

theorem dramLink_completes : Completes (.dramLink q) s fun t =>
    raised 36 10 q.val s t ∧ (bufQuad t q.val).retrain = some ((bufQuad s q.val).retrain.getD s.now) :=
  ⟨_, rfl, raised_detect (fun _ => rfl) _ _ _, by rw [bufQuad_of_buf (detect_buf _ _ _ _ _), bufQuad_modQuad]⟩

/-- A lookup that ends with ERROR counts once, whether or not its frame still stands. -/
theorem endHostRead_error_counted (u : Nat) (s : State) :
    counted (cHostStatus 4) (quadOfPipe (frameOf s u).pipe) 1 s (endHostRead u 4 0 0 s) := by
  cases hf : tabFind s.fr.frames u with
  | some f =>
    rw [frameOf_of_find hf]
    exact endHostRead_counted 0 0 hf (by decide)
  | none =>
    have hframe : frameOf s u = {} := by rw [frameOf, hf, Option.getD_none]
    unfold endHostRead
    dsimp only
    rw [hframe]
    exact counted_then_same (counted_count_of _ _ _ _ rfl) rfl

variable {a u : Nat} (hretrains : (bufQuad s q.val).retrain = some a)
include hretrains

theorem dramRetrain_completes : Completes (.dramRetrain q) s fun t => (bufQuad t q.val).retrain = none ∧ logged 0x0809 t := by
  have hexec : exec (.dramRetrain q) s =
      .next (kiln 0x0809 [(1, q.val), (4, (s.now - a) / tUs)] (modQuad q.val (fun b => { b with retrain := none }) s)) := by
    change execDramRetrain q s = _
    simp only [execDramRetrain, hretrains]
  exact ⟨_, hexec, by rw [bufQuad_of_buf (kiln_buf _ _ _), bufQuad_modQuad], kiln_head _ _ _⟩

variable (hpipe : quadOfPipe (frameOf s u).pipe = q.val)
include hpipe

/-- A lookup that a retrain has held 20 µs ends with ERROR, its request gone. -/
theorem dramRequestTimeout_lookup (hasks : ∃ r ∈ hostReads s q.val, r.frame = u) : Completes (.dramRequestTimeout q u) s fun t =>
    counted (cHostStatus 4) q.val 1 s t ∧ a + 20 * tUs ≤ t.now ∧ ∀ r ∈ hostReads t q.val, r.frame ≠ u := by
  have hexec : exec (.dramRequestTimeout q u) s = .next (endHostRead u 4 0 0 (reach (a + 20 * tUs) s)) := by
    change execDramRequestTimeout q u s = _
    simp [execDramRequestTimeout, hretrains, hpipe, hasks]
  have hcounted := endHostRead_error_counted u (reach (a + 20 * tUs) s)
  have hreads : (endHostRead u 4 0 0 (reach (a + 20 * tUs) s)).fwd = _ := endHostRead_fwd 0 0
  have hframe : frameOf (reach (a + 20 * tUs) s) u = frameOf s u := rfl
  rw [hframe, hpipe] at hcounted hreads
  refine ⟨_, hexec, counts_then_counted (l := []) (counts_of_tel rfl) hcounted, ?_, fun r hr => ?_⟩
  · exact (le_reach_now _ _).trans (keeps_endHostRead _ _ _ _ _).now_le
  · rw [hostReads_of_fwd hreads, hostReads_setHostReads] at hr
    exact bne_iff_ne.mp (List.mem_filter.mp hr).2

/-- A walk that a retrain has held 20 µs ends with ERROR. -/
theorem dramRequestTimeout_walk {w : Walk} (hnone : ∀ r ∈ hostReads s q.val, r.frame ≠ u) (hwalk : walkOf s q.val u = some w) :
    Completes (.dramRequestTimeout q u) s fun t => counted (cTreeStatus 5) q.val 1 s t ∧ walkOf t q.val u = none ∧ a + 20 * tUs ≤ t.now := by
  have hexec : exec (.dramRequestTimeout q u) s = .next (endWalk q.val u 5 0 0 (reach (a + 20 * tUs) s)) := by
    change execDramRequestTimeout q u s = _
    have hidle : (hostReads s q.val).any (fun r => r.frame == u) = false := by simpa using hnone
    simp [execDramRequestTimeout, hretrains, hpipe, hidle, hwalk]
  refine ⟨_, hexec, counts_then_counted (l := []) (counts_of_tel rfl) endWalk_counted, walkOf_endWalk, ?_⟩
  exact (le_reach_now _ _).trans (keeps_endWalk _ _ _ _ _ _).now_le

end

/-! ### The statement -/

/-- Settles O31: a lemma for each step of a spill, each outcome of a return's turn, each end of a window or a pass, and each fault. That a copy
has all its cells and its slots from its admission on (assumptions 53 and 55), and that a return waits until the shared pool has a cell for
every slot of the copy, are the model's choices. -/
theorem copiesSpillReturnAndFault : Obligations.CopiesSpillReturnAndFault :=
  ⟨fun _ _ _ _ _ _ _ _ _ => ⟨fun hx hz => ⟨spillWrite_completes hx hz, spillWriteDone_completes hx hz,
        fun hhead hwindow hup hreading hstalled => ⟨returnRead_ages hhead hwindow hup hx hz hreading hstalled,
          returnRead_discards hhead hwindow hup hx hz hreading hstalled,
          fun hage hbad => ⟨fun hwritten hwriting => returnRead_bypasses hhead hwindow hup hx hz hreading hstalled hage hbad hwriting hwritten,
            fun hwritten hcells hwriting =>
              ⟨returnRead_stalls hhead hwindow hup hx hz hreading hstalled hage hbad hwriting hwritten hcells,
              fun _ _ => returnRead_reads hhead hwindow hup hx hz hreading hstalled hage hbad hwriting hwritten hcells⟩⟩⟩,
        fun hwaits hfree hbeats _ _ => returnStallResume_completes hx hz hwaits hfree hbeats, returnReadDone_completes hx⟩,
      dramShareWindow_completes, scrubPassDone_ends, scrubPassDone_overruns⟩,
    fun _ _ _ _ _ _ _ _ _ => ⟨bufData_completes, bufLink_word_completes,
      fun hx hgone hstarted hquad => ⟨fun hheld hspill => ⟨bufData_drops hx hstarted hquad hgone hheld hspill,
          bufLink_drops hx hstarted hquad hheld⟩, bufDesc_drops hx hstarted hquad hgone⟩,
      bufDesc_double_completes, bufCount_completes, fun _ _ => poolRebuild_completes, spillOrder_completes, dramData_completes,
      dramLink_completes, fun _ hretrains => ⟨dramRetrain_completes hretrains, fun hpipe =>
        ⟨dramRequestTimeout_lookup hretrains hpipe, fun _ => dramRequestTimeout_walk hretrains hpipe⟩⟩⟩⟩

end Sys2Proof.Proofs
end

section
/-!
PROOFS. Faults of mesh and switching core (O33): what a failed link direction loses, links that go down and come back, bad lists, sessions,
transfers and frames, and the settling theorem.
-/

namespace Sys2Proof.Proofs

open Sys2Proof Sys2Proof.Machine Sys2Proof.Laws

/-! ### Transfers that are lost (R333, R391) -/

/-- From `s` to `t` transfers may be lost: the down links stand, and every transfer that joins (an export frame's) is at its admission unit. -/
structure Losing (s t : State) : Prop where
  linkDown : t.sw.linkDown = s.sw.linkDown
  joins : ∀ y ∈ t.sw.transfers, y ∈ s.sw.transfers ∨ y.place = .admission

section

variable {s t u : State}

theorem Losing.refl : Losing s s := ⟨rfl, fun _ => .inl⟩

theorem Losing.trans (h : Losing s t) (k : Losing t u) : Losing s u :=
  ⟨k.linkDown.trans h.linkDown, fun y hy => (k.joins y hy).elim (h.joins y) .inr⟩

theorem losing_of_sw (h : t.sw = s.sw) : Losing s t := ⟨by rw [h], fun _ hy => .inl (h ▸ hy)⟩

/-- An operation that leaves the switch alone loses no transfer. -/
theorem losing_of_keeps {ps : List Part} (h : Keeps ps s t) (hp : ps.contains .sw = false := by rfl) : Losing s t :=
  losing_of_sw (h.same .sw hp)

theorem Losing.foldl {α : Type} {op : State → α → State} (h : ∀ s a, Losing s (op s a)) (as : List α) (s : State) : Losing s (as.foldl op s) := by
  induction as generalizing s with
  | nil => exact .refl
  | cons a as ih => exact (h s a).trans (ih _)

/-- A lost transfer does not come back: what joins is at its admission unit. -/
theorem Losing.notMem (h : Losing s t) {x : Transfer} (hplace : x.place ≠ .admission) (hx : x ∉ s.sw.transfers) : x ∉ t.sw.transfers :=
  fun hmem => (h.joins x hmem).elim hx hplace

theorem withdrawn_losing (n : Nat) (s : State) : Losing s (withdrawn n s) := ⟨rfl, fun _ hy => .inl (List.mem_of_mem_filter hy)⟩

end

section

variable (e q r d : Nat) (b : Bytes) (v : Frame) (i : CopyInfo) (s : State)

theorem sendExport_losing : Losing s (sendExport e s) := by
  have hsent : ∀ (v : Exporter) (w : Frame), (count cTelExportFrames e 1 (setExporter e v (newFrame w s).2)).sw = s.sw :=
    fun _ _ => count_sw _ _ _ _
  unfold sendExport
  dsimp only
  split
  · exact losing_of_sw ((modFr_sw _ _).trans (hsent _ _))
  · refine (losing_of_sw (hsent _ _)).trans ⟨rfl, fun y hy => ?_⟩
    refine (List.mem_append.mp hy).imp_right fun hy => ?_
    rw [List.mem_singleton.mp hy]

theorem exportRecord_losing : Losing s (exportRecord e b s) := by
  have hfits : ∀ c : Bool, Losing s (if c then s else sendExport e s) := fun c => by
    cases c with
    | true => exact .refl
    | false => exact sendExport_losing e s
  have hstored : ∀ t, Losing t (if exportHeld (exporterOf t e) + b.length > 1048576 then loseRecords e 1 t
      else setExporter e { exporterOf t e with waiting := (exporterOf t e).waiting ++ [b] } t) := fun t => by
    split
    · exact losing_of_keeps (keeps_loseRecords _ _ _)
    · exact losing_of_sw rfl
  unfold exportRecord
  exact (hfits _).trans (hstored _)

theorem dropRecord_losing : Losing s (dropRecord q r v i s) := by
  have hlimits : ∀ k₁ u₁ q₁ n₁ k₂ u₂ q₂ n₂, Losing s (ensureLimit k₁ u₁ q₁ n₁ (ensureLimit k₂ u₂ q₂ n₂ s)) := fun _ _ _ _ _ _ _ _ =>
    (losing_of_keeps (keeps_ensureLimit _ _ _ _ _)).trans (losing_of_keeps (keeps_ensureLimit _ _ _ _ _))
  have htaken : ∀ k₁ u₁ k₂ u₂ (t : State), Losing t (takeLimit k₁ u₁ (takeLimit k₂ u₂ t).2).2 := fun _ _ _ _ _ =>
    (losing_of_keeps (keeps_takeLimit _ _ _)).trans (losing_of_keeps (keeps_takeLimit _ _ _))
  unfold dropRecord
  dsimp only
  split
  · exact .refl
  · split
    · split
      · exact (hlimits _ _ _ _ _ _ _ _).trans (losing_of_sw (count_sw _ _ _ _))
      · refine Losing.trans ?_ (exportRecord_losing _ _ _)
        exact ((hlimits _ _ _ _ _ _ _ _).trans (htaken _ _ _ _ _)).trans (losing_of_sw ((modTel_sw _ _).trans (count_sw _ _ _ _)))
    · exact (hlimits _ _ _ _ _ _ _ _).trans (losing_of_sw ((kilnOnce_sw _ _ _ _).trans (count_sw _ _ _ _)))

theorem dropCopyIn_losing (x : Option Nat) : Losing s (dropCopyIn q r x v i s) := by
  unfold dropCopyIn
  split
  · exact losing_of_sw ((count_sw _ _ _ _).trans (count_sw _ _ _ _))
  · exact (losing_of_sw (count_sw _ _ _ _)).trans (dropRecord_losing _ _ _ _ _)

theorem dropCopy_losing (c : Nat) : Losing s (dropCopy c r d s) :=
  (dropCopyIn_losing _ _ _ _ _ _).trans (losing_of_keeps (keeps_releaseCopy _ _))

theorem stompCopy_losing (c n : Nat) : Losing s (stompCopy c n r d s) := by
  have hsent : ∀ x len no lat t, Losing t (histCount no lat (countSent x len t)) := fun _ _ _ _ _ =>
    (losing_of_keeps (keeps_countSent _ _ _)).trans (losing_of_keeps (keeps_histCount _ _ _))
  have hrecorded : ∀ fs q x v i t, Losing t (dropCopyIn q r x v i (kilnOnce 0x090B q fs t)) := fun _ _ _ _ _ _ =>
    (losing_of_keeps (keeps_kilnOnce _ _ _ _)).trans (dropCopyIn_losing _ _ _ _ _ _)
  have hended : ∀ p x len t, Losing t (clearTx p c (releaseCopy c (correctCharges x len t))) := fun _ _ _ _ =>
    ((losing_of_keeps (keeps_correctCharges _ _ _)).trans (losing_of_keeps (keeps_releaseCopy _ _))).trans (losing_of_keeps (keeps_clearTx _ _ _))
  unfold stompCopy
  dsimp only
  split
  · exact .refl
  · refine ((Losing.trans ?_ (hsent _ _ _ _ _)).trans (hrecorded _ _ _ _ _ _)).trans (hended _ _ _ _)
    exact losing_of_sw rfl

/-! ### A withdrawn transfer (R335) -/

/-- A transfer withdrawn and dropped under a reason, whatever its record says. -/
theorem withdrawnDrop_losing (n u : Nat) (o : Option Nat) : Losing s (settleFrame u (dropCopyIn q r o v i (withdrawn n s))) :=
  ((withdrawn_losing n s).trans (dropCopyIn_losing _ _ _ _ _ _)).trans (losing_of_keeps (keeps_settleFrame _ _))

theorem notMem_withdrawnDrop {x : Transfer} (hplace : x.place ≠ .admission) (u : Nat) (o : Option Nat) :
    x ∉ (settleFrame u (dropCopyIn q r o v i (withdrawn x.id s))).sw.transfers := by
  have hgone : x ∉ (withdrawn x.id s).sw.transfers := fun h => by simpa using (List.mem_filter.mp h).2
  exact ((dropCopyIn_losing _ _ _ _ _ _).trans (losing_of_keeps (keeps_settleFrame _ _))).notMem hplace hgone

theorem withdrawnDrop_counted (n u : Nat) (o : Option Nat) :
    counted (cSwcDrops 0x2A) q 1 s (settleFrame u (dropCopyIn q 0x2A o v i (withdrawn n s))) := by
  refine counted_then_same ?_ ((keeps_settleFrame _ _).same .tel rfl)
  exact counts_then_counted (l := []) (counts_of_tel rfl) (dropCopyIn_counted _ _ _ _ _ _)

theorem dropTransfer_losing (x : Transfer) : Losing s (dropTransfer q r x s) := withdrawnDrop_losing _ _ _ _ _ _ _ _

/-- Every transfer of a run that is dropped is gone. -/
theorem notMem_foldl_dropTransfer {x : Transfer} {xs : List Transfer} (hplace : x.place ≠ .admission) (hx : x ∈ xs) :
    x ∉ (xs.foldl (fun s y => dropTransfer q r y s) s).sw.transfers := by
  induction xs generalizing s with
  | nil => cases hx
  | cons y xs ih =>
    rcases List.mem_cons.mp hx with rfl | hx
    · exact (Losing.foldl (fun s y => dropTransfer_losing q r s y) xs _).notMem hplace (notMem_withdrawnDrop _ _ _ _ _ hplace _ _)
    · exact ih _ hx

/-! ### A failed link direction (R333, R335) -/

/-- `s` once the transfers that wait for direction `d` are dropped. -/
def directionDropped (d : Nat) (s : State) : State :=
  (s.sw.transfers.filter fun y => nextDir y == some d).foldl (fun s y => dropTransfer (dirEnds d).1 0x29 y s) s

theorem directionDropped_losing : Losing s (directionDropped d s) := .foldl (fun s y => dropTransfer_losing _ _ s y) _ s

/-- Once its own transfers are dropped, what a failed direction still loses belongs to the frames that cross it. -/
theorem loseDirection_follows (bitNo : Nat) : Losing (directionDropped d s) (loseDirection d bitNo s) := by
  have hfreed : Losing (directionDropped d s)
      (modSw (fun w => { w with crossing := w.crossing.filter fun x => x.dir != d }) (directionDropped d s)) := ⟨rfl, fun _ => .inl⟩
  unfold loseDirection
  refine hfreed.trans (.foldl (fun t c => ?_) _ _)
  refine (Losing.foldl (fun t y => dropTransfer_losing _ _ t y) _ t).trans (.foldl (fun t k => ?_) _ _)
  split
  · refine Losing.trans (t := (takeFree t).2) (losing_of_sw rfl) ?_
    exact stompCopy_losing _ _ _ _ _
  · exact dropCopy_losing _ _ _ _

theorem loseDirection_losing (bitNo : Nat) : Losing s (loseDirection d bitNo s) :=
  (directionDropped_losing d s).trans (loseDirection_follows d s bitNo)

theorem place_of_nextDir {d : Nat} {x : Transfer} (h : nextDir x = some d) : x.place ≠ .admission := fun hplace => by
  rw [nextDir, hplace] at h
  cases h

/-- Nothing waits for a direction that is lost. -/
theorem loseDirection_clears (bitNo : Nat) : ∀ y ∈ (loseDirection d bitNo s).sw.transfers, nextDir y ≠ some d := fun y hy hd => by
  have hplace := place_of_nextDir hd
  rcases (loseDirection_losing d s bitNo).joins y hy with hold | hnew
  · refine (loseDirection_follows d s bitNo).notMem hplace (notMem_foldl_dropTransfer _ _ _ hplace ?_) hy
    exact List.mem_filter.mpr ⟨hold, beq_iff_eq.mpr hd⟩
  · exact hplace hnew

theorem linkDown_linkDown (l : Nat) : (linkDown l s).sw.linkDown = l :: s.sw.linkDown := by
  unfold linkDown
  rw [kiln_sw, (loseDirection_losing _ _ _).linkDown, (loseDirection_losing _ _ _).linkDown]
  rfl

/-- Nothing waits for either direction of a link that goes down. -/
theorem linkDown_clears (l : Nat) : ∀ y ∈ (linkDown l s).sw.transfers, nextDir y ≠ some (2 * l) ∧ nextDir y ≠ some (2 * l + 1) := fun y hy => by
  unfold linkDown at hy
  rw [kiln_sw] at hy
  refine ⟨fun hd => ?_, loseDirection_clears _ _ _ y hy⟩
  exact (loseDirection_losing _ _ _).notMem (place_of_nextDir hd) (fun h => loseDirection_clears _ _ _ y h hd) hy

end

/-! ### Links and their channels (R335) -/

theorem detect_sw (b k i : Nat) (contain : Bool → State → State) (s : State) :
    (detect b k i contain s).sw = (contain (injectedNow s b k i) s).sw := raiseFault_sw _ _ _ _ _

/-- A fault whose containment the state does not show raises its site and leaves the switch alone. -/
theorem raiseFault_only (b k i : Nat) (s : State) : raised b k i s (raiseFault b k i false s) ∧ (raiseFault b k i false s).sw = s.sw :=
  ⟨raised_raiseFault rfl _ _ _ _, raiseFault_sw _ _ _ _ _⟩

theorem meshRetrain_completes {d : LinkDir} {a : Nat} {s : State} (ha : tabFind s.sw.dirDown d.val = some a) :
    Completes (.meshRetrain d) s fun t => tabFind t.sw.dirDown d.val = none ∧ logged 0x0901 t := by
  have hexec : exec (.meshRetrain d) s = .next (kiln 0x0901 [(1, d.val / 2), (1, d.val % 2), (4, (s.now - a) / tUs)]
      (modSw (fun w => { w with dirDown := tabDel d.val w.dirDown }) s)) := by
    change execMeshRetrain d s = _
    rw [execMeshRetrain, ha]
  refine ⟨_, hexec, ?_, kiln_head _ _ _⟩
  rw [kiln_sw]
  exact tabFind_del _ _

section

variable {l : LinkNo} {s : State}

theorem meshLink_completes (hup : l.val ∉ s.sw.linkDown) : Completes (.meshLink l) s fun t =>
    raisedLast 39 11 l.val t ∧ t.sw.linkDown = l.val :: s.sw.linkDown ∧ logged 0x0902 t ∧
      ∀ y ∈ t.sw.transfers, nextDir y ≠ some (2 * l.val) ∧ nextDir y ≠ some (2 * l.val + 1) := by
  have hexec : exec (.meshLink l) s = .next (detect 39 11 l.val (fun _ s => linkDown l.val s) s) := by
    change execMeshLink l s = _
    simp [execMeshLink, hup]
  refine ⟨_, hexec, raisedLast_detect _ _ _ _ _, ?_, detect_logged fun _ => kiln_head _ _ _, ?_⟩
  · rw [detect_sw, linkDown_linkDown]
  · rw [detect_sw]
    exact linkDown_clears s l.val

theorem meshTrainRetry_completes (hdown : l.val ∈ s.sw.linkDown) (hopen : linkFenced s l.val = false) :
    Completes (.meshTrainRetry l true) s fun t => l.val ∉ t.sw.linkDown ∧ logged 0x0903 t := by
  have hexec : exec (.meshTrainRetry l true) s =
      .next (kiln 0x0903 [(1, l.val)] (modSw (fun w => { w with linkDown := w.linkDown.filter (· != l.val) }) s)) := by
    change execMeshTrainRetry l true s = _
    simp [execMeshTrainRetry, hdown, hopen]
  refine ⟨_, hexec, fun hmem => ?_, kiln_head _ _ _⟩
  rw [kiln_sw] at hmem
  exact bne_iff_ne.mp (List.mem_filter.mp hmem).2 rfl

theorem meshTrainRetry_fails : Completes (.meshTrainRetry l false) s fun t => t = s := by
  refine ⟨_, ?_, rfl⟩
  change execMeshTrainRetry l false s = _
  simp [execMeshTrainRetry]

end

/-! ### Lists and sessions (R335) -/

section

variable (q k m : Nat) (inj : Bool) (f : MirrorSession → MirrorSession) (s : State)

@[simp] theorem sessionAt_mod : sessionAt (modSw (fun w => { w with sessions := tabMod {} k f w.sessions }) s) k = f (sessionAt s k) :=
  tabGet_mod _ _ _ _

theorem sessionAt_of_sw {s t : State} (h : t.sw = s.sw) (k : Nat) : sessionAt t k = sessionAt s k := by rw [sessionAt, sessionAt, h]

@[simp] theorem groups_mod (g : McastGroup → McastGroup) :
    tabGet {} (modSw (fun w => { w with groups := tabMod {} m g w.groups }) s).sw.groups m = g (tabGet {} s.sw.groups m) := tabGet_mod _ _ _ _

/-- Group `m`'s list out of use in quadrant `q`, with the event of its uncorrectable word. -/
def listFaulted : State :=
  modSw (fun w => { w with groups := tabMod {} m (fun y => { y with reloading := q :: y.reloading }) w.groups })
    (kilnInj inj 0x090D [(1, q), (1, (takeFree s).1 % 256), (1, 42)] (takeFree s).2)

theorem listFaulted_inFlight : (listFaulted q m inj s).flt.inFlight = s.flt.inFlight := kilnInj_flt_inFlight _ _ _ _

theorem listFaulted_logged : logged 0x090D (listFaulted q m inj s) := by
  rw [logged, listFaulted, modSw_flt]
  exact kilnInj_head _ _ _ _

theorem listFaulted_reloading : q ∈ (tabGet {} (listFaulted q m inj s).sw.groups m).reloading := by
  rw [listFaulted, groups_mod]
  exact List.mem_cons_self

end

section

variable {q : Quad} {i : Fin 16} {n m ver : Nat} {x : Transfer} {s : State}

theorem swcRepl_completes (hx : s.sw.transfers.find? (fun y => y.id == n && y.place == .admission) = some x) (hdest : x.dest = .mcast m ver) :
    Completes (.swcRepl n) s fun t =>
      raised 42 7 x.dst s t ∧ logged 0x090D t ∧ x.dst ∈ (tabGet {} t.sw.groups m).reloading := by
  have hexec : exec (.swcRepl n) s = .next (detect 42 7 x.dst (listFaulted x.dst m) s) := by
    change execSwcRepl n s = _
    simp only [execSwcRepl, hx, hdest]
    rfl
  refine ⟨_, hexec, raised_detect (listFaulted_inFlight _ _ · _) _ _ _, detect_logged (listFaulted_logged _ _ · _), ?_⟩
  rw [detect_sw]
  exact listFaulted_reloading _ _ _ _

theorem swcMirror_completes : Completes (.swcMirror q i) s fun t => raised 43 13 (16 * q.val + i.val) s t ∧ logged 0x090D t ∧
    (sessionAt t (16 * q.val + i.val)).reloading = true := by
  refine ⟨_, rfl, raised_detect (fun _ => kilnInj_flt_inFlight _ _ _ _) _ _ _, detect_logged fun _ => kilnInj_head _ _ _ _, ?_⟩
  rw [sessionAt_of_sw (detect_sw _ _ _ _ _), sessionAt_of_sw (kilnInj_sw _ _ _ _), sessionAt_mod]

theorem switchReload_session (g : Nat) : Completes (.switchReload q (some i) g) s fun t =>
    sessionAt t (16 * q.val + i.val) = { sessionAt s (16 * q.val + i.val) with reloading := false } :=
  ⟨_, rfl, sessionAt_mod _ _ _⟩

theorem switchReload_list (g : Nat) : Completes (.switchReload q none g) s fun t => q.val ∉ (tabGet {} t.sw.groups g).reloading := by
  refine ⟨_, rfl, ?_⟩
  change q.val ∉ (tabGet {} (tabUpd g _ s.sw.groups) g).reloading
  rw [tabGet, tabFind_upd_map]
  cases tabFind s.sw.groups g with
  | none => exact List.not_mem_nil
  | some y => exact fun h => bne_iff_ne.mp (List.mem_filter.mp h).2 rfl

end

/-! ### Transfers and frames with a bad word (R335) -/

section

variable {q : Quad} {n u : Nat} {x : Transfer} {s : State}

theorem swcPath_transfer (hx : s.sw.transfers.find? (fun y => y.id == n && y.src == q.val && y.place != .admission) = some x) :
    Completes (.swcPath q (some n) none) s fun t =>
      raisedLast 44 7 q.val t ∧ counted (cSwcDrops 0x2A) q.val 1 s t ∧ x ∉ t.sw.transfers := by
  obtain ⟨⟨hid, -⟩, hplace⟩ : (x.id = n ∧ x.src = q.val) ∧ x.place ≠ .admission := by simpa using List.find?_some hx
  subst hid
  have hexec : exec (.swcPath q (some x.id) none) s = .next (detect 44 7 q.val (fun _ s => settleFrame x.frame (dropCopyIn q.val 0x2A
      (transferExporter x) (frameOf s x.frame) { transferInfo x with detail := 44 } (withdrawn x.id s))) s) := by
    change execSwcPath q (some x.id) none s = _
    simp only [execSwcPath, hx]
    rfl
  refine ⟨_, hexec, raisedLast_detect _ _ _ _ _, counted_detect (fun _ => withdrawnDrop_counted _ _ _ _ _ _ _) _ _ _, ?_⟩
  rw [detect_sw]
  exact notMem_withdrawnDrop _ _ _ _ _ hplace _ _

theorem swcPath_frame (hpipe : quadOfPipe (frameOf s u).pipe = q.val) (hplace : (frameOf s u).place = .ordered) :
    Completes (.swcPath q none (some u)) s fun t => raisedLast 44 7 q.val t ∧ counted (cSwcDrops 0x2A) q.val 1 s t := by
  have hexec : exec (.swcPath q none (some u)) s = .next (detect 44 7 q.val (fun _ s => dropFrame u 0x2A { detail := 44 } s) s) := by
    change execSwcPath q none (some u) s = _
    simp [execSwcPath, hpipe, hplace]
  have hdropped := dropFrame_counted u 0x2A { detail := 44 } s
  rw [hpipe] at hdropped
  exact ⟨_, hexec, raisedLast_detect _ _ _ _ _, counted_detect (fun _ => hdropped) _ _ _⟩

end

/-! ### The statement -/

/-- Settles O33: a lemma for each fault, each retrain and each reload. That 0x090D is logged when SWC_REPL or SWC_MIRROR is detected
(assumption 38) and that a list stays out of use in its quadrant until SWITCH_RELOAD (assumption 67) are the model's choices. -/
theorem switchFaultsAreContained : Obligations.SwitchFaultsAreContained := fun _ _ _ _ _ _ _ _ _ _ =>
  ⟨⟨_, rfl, raiseFault_only _ _ _ _⟩, ⟨_, rfl, rfl⟩, fun _ => meshRetrain_completes, meshLink_completes, meshTrainRetry_completes,
    meshTrainRetry_fails, ⟨_, rfl, raiseFault_only _ _ _ _⟩, fun _ _ => swcRepl_completes, swcMirror_completes, switchReload_session _,
    switchReload_list _, swcPath_transfer, swcPath_frame, ⟨_, rfl, raiseFault_only _ _ _ _⟩, ⟨_, rfl, raiseFault_only _ _ _ _⟩⟩

end Sys2Proof.Proofs
end

section

-- The proofs below are checked one after the other: side by side they need more memory than the check grants.
set_option Elab.async false

section
/-!
PROOFS. The machine (O1, O3 to O6): what every command may change, by its own lemma of Laws/Keeps*.lean, and from that its frame, the kiln log's
bound, what is never taken back; and that every command completes.
-/

namespace Sys2Proof.Proofs

open Sys2Proof Sys2Proof.Machine Sys2Proof.Laws

/-! ### What a command may change -/

/-- Every command changes only the parts that `touches` names, keeps the queue and the kiln log's bound, and takes nothing back: each command's
meaning has its lemma. -/
theorem exec_keeps (i : Instr) (s : State) : KeepsOut (touches i) s (exec i s) :=
  match i with
  | .clockSourceSwitch q => keeps_execClockSourceSwitch q s
  | .rateAllowanceRefill q => keeps_execRateAllowanceRefill q s
  | .backgroundPeriodEnd q task => keeps_execBackgroundPeriodEnd q task s
  | .backgroundSlotGrant e offset complete => keeps_execBackgroundSlotGrant e offset complete s
  | .timeAdvance q => keeps_execTimeAdvance q s
  | .alignmentStrobe heard => keeps_execAlignmentStrobe heard s
  | .strobeMissing q => keeps_execStrobeMissing q s
  | .refclkWindow d present rate => keeps_execRefclkWindow d present rate s
  | .timeDomainWrite c => keeps_execTimeDomainWrite c s
  | .timeDomainRead c => keeps_execTimeDomainRead c s
  | .timeAdjust c => keeps_execTimeAdjust c s
  | .slewEnd d => keeps_execSlewEnd d s
  | .timeGet c => keeps_execTimeGet c s
  | .pllLockReport q => keeps_execPllLockReport q s
  | .profileSwitchDone => keeps_execProfileSwitchDone s
  | .profileSwitchTimeout => keeps_execProfileSwitchTimeout s
  | .pllRelockRetry => keeps_execPllRelockRetry s
  | .portTimeWrite c => keeps_execPortTimeWrite c s
  | .portTimeRead c => keeps_execPortTimeRead c s
  | .twostepRead c => keeps_execTwostepRead c s
  | .timePinWrite c => keeps_execTimePinWrite c s
  | .timePinRead c => keeps_execTimePinRead c s
  | .pinEdgeCapture p rising short err => keeps_execPinEdgeCapture p rising short err s
  | .captureRead c => keeps_execCaptureRead c s
  | .pinPulseEnd p => keeps_execPinPulseEnd p s
  | .firingEntryWrite c => keeps_execFiringEntryWrite c s
  | .firingEntryRead c => keeps_execFiringEntryRead c s
  | .firingStatus c => keeps_execFiringStatus c s
  | .counterFreeze q d x => keeps_execCounterFreeze q d x s
  | .histogramRollover q d x => keeps_execHistogramRollover q d x s
  | .gateCycle d x => keeps_execGateCycle d x s
  | .pinPulse d x => keeps_execPinPulse d x s
  | .powerCycle q d x m => keeps_execPowerCycle q d x m s
  | .scrubEpoch q d x => keeps_execScrubEpoch q d x s
  | .telemetryEpoch q d x => keeps_execTelemetryEpoch q d x s
  | .timeStore d hit x => keeps_execTimeStore d hit x s
  | .laneConfigWrite c => keeps_execLaneConfigWrite c s
  | .laneConfigRead c => keeps_execLaneConfigRead c s
  | .laneStatus c => keeps_execLaneStatus c s
  | .laneTestWrite c => keeps_execLaneTestWrite c s
  | .laneTestRead c => keeps_execLaneTestRead c s
  | .eyeScan c => keeps_execEyeScan c s
  | .eyeScanAbort c => keeps_execEyeScanAbort c s
  | .eyeStatus c => keeps_execEyeStatus c s
  | .eyeResult c => keeps_execEyeResult c s
  | .eyePointDone l compared errors => keeps_execEyePointDone l compared errors s
  | .laneRefclkLost k => keeps_execLaneRefclkLost k s
  | .laneRefclkRelock k => keeps_execLaneRefclkRelock k s
  | .laneRefclkHoldoverEnd k => keeps_execLaneRefclkHoldoverEnd k s
  | .laneRefclkRestored k => keeps_execLaneRefclkRestored k s
  | .signalDetected p => keeps_execSignalDetected p s
  | .autonegResolved p matching => keeps_execAutonegResolved p matching s
  | .anTimeout p => keeps_execAnTimeout p s
  | .trainingDone p taps => keeps_execTrainingDone p taps s
  | .trainingTimeout p l => keeps_execTrainingTimeout p l s
  | .lockAcquired p => keeps_execLockAcquired p s
  | .lockTimeout p l => keeps_execLockTimeout p l s
  | .linkUp p => keeps_execLinkUp p s
  | .alignTimeout p l skewNs => keeps_execAlignTimeout p l skewNs s
  | .signalLost l => keeps_execSignalLost l s
  | .backoffExpired p => keeps_execBackoffExpired p s
  | .backoffReset p => keeps_execBackoffReset p s
  | .trainingFrameMalformed l control n => keeps_execTrainingFrameMalformed l control n s
  | .anPageViolation p => keeps_execAnPageViolation p s
  | .linkDown l kind signalOnAll => keeps_execLinkDown l kind signalOnAll s
  | .reacquireDone p => keeps_execReacquireDone p s
  | .reacquireTimeout p l => keeps_execReacquireTimeout p l s
  | .syncHeaderReceived l valid => keeps_execSyncHeaderReceived l valid s
  | .alignmentMarkerReceived l matching => keeps_execAlignmentMarkerReceived l matching s
  | .fecCodewordDecoded l errors => keeps_execFecCodewordDecoded l errors s
  | .degradeWindowEnd l => keeps_execDegradeWindowEnd l s
  | .farEndLoopbackBlock p arrived sent gap => keeps_execFarEndLoopbackBlock p arrived sent gap s
  | .patternBitsChecked l good err sym => keeps_execPatternBitsChecked l good err sym s
  | .errorInjectionEvent l => keeps_execErrorInjectionEvent l s
  | .d2dDoubleBitError g replayed => keeps_execD2dDoubleBitError g replayed s
  | .d2dRetrainDone g => keeps_execD2dRetrainDone g s
  | .lanePll g => keeps_execLanePll g s
  | .laneAdapt l => keeps_execLaneAdapt l s
  | .laneStore k => keeps_execLaneStore k s
  | .portConfigWrite c => keeps_execPortConfigWrite c s
  | .portConfigRead c => keeps_execPortConfigRead c s
  | .portStatus c => keeps_execPortStatus c s
  | .portFlowWrite c => keeps_execPortFlowWrite c s
  | .portFlowRead c => keeps_execPortFlowRead c s
  | .portPreemptWrite c => keeps_execPortPreemptWrite c s
  | .portPreemptRead c => keeps_execPortPreemptRead c s
  | .frameFilterWrite c => keeps_execFrameFilterWrite c s
  | .frameFilterRead c => keeps_execFrameFilterRead c s
  | .rxFrameHead p b mark back err => keeps_execRxFrameHead p b mark back err s
  | .rxFragment p kind first last b back err => keeps_execRxFragment p kind first last b back err s
  | .rxOversize p b => keeps_execRxOversize p b s
  | .rxPcsErrorMark p => keeps_execRxPcsErrorMark p s
  | .rxFrameEnd p b => keeps_execRxFrameEnd p b s
  | .macControlFrame p b => keeps_execMacControlFrame p b s
  | .occupancyReport q p => keeps_execOccupancyReport q p s
  | .pauseRefresh p => keeps_execPauseRefresh p s
  | .pauseTimerExpiry p c => keeps_execPauseTimerExpiry p c s
  | .pauseStorm p c => keeps_execPauseStorm p c s
  | .stormRecovered p c => keeps_execStormRecovered p c s
  | .preemptVerifyTimer p => keeps_execPreemptVerifyTimer p s
  | .preemptVerify p => keeps_execPreemptVerify p s
  | .macFifo g u => keeps_execMacFifo g u s
  | .macStore g => keeps_execMacStore g s
  | .pcsCheck p => keeps_execPcsCheck p s
  | .macFlow p => keeps_execMacFlow p s
  | .flowResync p => keeps_execFlowResync p s
  | .parseStart g src => keeps_execParseStart g src s
  | .parseResume u b => keeps_execParseResume u b s
  | .parserMalformedWrite c => keeps_execParserMalformedWrite c s
  | .parserMalformedRead c => keeps_execParserMalformedRead c s
  | .prsStore g u => keeps_execPrsStore g u s
  | .prsVector g u => keeps_execPrsVector g u s
  | .prsHang g u => keeps_execPrsHang g u s
  | .prsCheck g u => keeps_execPrsCheck g u s
  | .parserReload g => keeps_execParserReload g s
  | .stageLookup u => keeps_execStageLookup u s
  | .routineIssue u => keeps_execRoutineIssue u s
  | .microwordExecute g st k stalled => keeps_execMicrowordExecute g st k stalled s
  | .memoryResultReturn g st k tag => keeps_execMemoryResultReturn g st k tag s
  | .lockGranted g st k => keeps_execLockGranted g st k s
  | .waitResume g st k clocks => keeps_execWaitResume g st k clocks s
  | .routineCommit g st k clocks => keeps_execRoutineCommit g st k clocks s
  | .sequencerRelease u => keeps_execSequencerRelease u s
  | .frameDecision u => keeps_execFrameDecision u s
  | .hostDelivery r bufs full => keeps_execHostDelivery r bufs full s
  | .treeNodeReadReturn u kind rules => keeps_execTreeNodeReadReturn u kind rules s
  | .treeWalkTimeout u => keeps_execTreeWalkTimeout u s
  | .treeTableWrite c => keeps_execTreeTableWrite c s
  | .treeTableRead c => keeps_execTreeTableRead c s
  | .classifierRuleWrite c => keeps_execClassifierRuleWrite c s
  | .classifierRuleRead c => keeps_execClassifierRuleRead c s
  | .treeCommit c => keeps_execTreeCommit c s
  | .treeSwap q t ok root => keeps_execTreeSwap q t ok root s
  | .treeNodesFreed q t => keeps_execTreeNodesFreed q t s
  | .ruleAdd c => keeps_execRuleAdd c s
  | .ruleBatch c => keeps_execRuleBatch c s
  | .ruleBatchAbort c => keeps_execRuleBatchAbort c s
  | .ruleBatchStatus c => keeps_execRuleBatchStatus c s
  | .quiesceStart g => keeps_execQuiesceStart g s
  | .quiesceWrite g clocks => keeps_execQuiesceWrite g clocks s
  | .retiredBufferRelease g => keeps_execRetiredBufferRelease g s
  | .imagePipelineApply window => keeps_execImagePipelineApply window s
  | .matExact g st unit row u => keeps_execMatExact g st unit row u s
  | .matTernary g st block row u => keeps_execMatTernary g st block row u s
  | .matResult g st block row u => keeps_execMatResult g st block row u s
  | .matDesc g st u => keeps_execMatDesc g st u s
  | .matPath g u => keeps_execMatPath g u s
  | .matTree q u => keeps_execMatTree q u s
  | .stageReload g st => keeps_execStageReload g st s
  | .actMicro g st addr k => keeps_execActMicro g st addr k s
  | .actNano g st addr k => keeps_execActNano g st addr k s
  | .actContext g st k => keeps_execActContext g st k s
  | .actHang g st k => keeps_execActHang g st k s
  | .storeReload g st store addr => keeps_execStoreReload g st store addr s
  | .stateRowReset g st row k => keeps_execStateRowReset g st row k s
  | .learnRequestProcess g => keeps_execLearnRequestProcess g s
  | .fdbArbiterGrant g => keeps_execFdbArbiterGrant g s
  | .notifyProducerWriteback q => keeps_execNotifyProducerWriteback q s
  | .fdbNtfConsWrite q v => keeps_execFdbNtfConsWrite q v s
  | .fdbEntryWrite c => keeps_execFdbEntryWrite c s
  | .fdbEntryRead c => keeps_execFdbEntryRead c s
  | .fdbLearnWrite c => keeps_execFdbLearnWrite c s
  | .fdbLearnRead c => keeps_execFdbLearnRead c s
  | .fdbNotifyWrite c => keeps_execFdbNotifyWrite c s
  | .fdbNotifyRead c => keeps_execFdbNotifyRead c s
  | .fdbDelegateWrite c => keeps_execFdbDelegateWrite c s
  | .fdbDelegateRead c => keeps_execFdbDelegateRead c s
  | .fdbCmdReadKey g clearHit => keeps_execFdbCmdReadKey g clearHit s
  | .fdbCmdReadIndex g clearHit => keeps_execFdbCmdReadIndex g clearHit s
  | .fdbCmdInsert g clearHit => keeps_execFdbCmdInsert g clearHit s
  | .fdbCmdWrite g clearHit => keeps_execFdbCmdWrite g clearHit s
  | .fdbCmdDelete g clearHit => keeps_execFdbCmdDelete g clearHit s
  | .fdbCmdDeleteIfIdle g clearHit => keeps_execFdbCmdDeleteIfIdle g clearHit s
  | .fdbCmdAge g clearHit => keeps_execFdbCmdAge g clearHit s
  | .fdbCmdIterate g clearHit => keeps_execFdbCmdIterate g clearHit s
  | .fdbCmdInvalidOp g op clearHit => keeps_execFdbCmdInvalidOp g op clearHit s
  | .fdbWindowRegWrite g reg v => keeps_execFdbWindowRegWrite g reg v s
  | .fdbRejectsRead g => keeps_execFdbRejectsRead g s
  | .lpmRouteWrite c => keeps_execLpmRouteWrite c s
  | .lpmRouteRead c => keeps_execLpmRouteRead c s
  | .lpmBucketFree g => keeps_execLpmBucketFree g s
  | .hostEntry c => keeps_execHostEntry c s
  | .hostLookupWrite c => keeps_execHostLookupWrite c s
  | .hostLookupRead c => keeps_execHostLookupRead c s
  | .hostBucketReadReturn u lateClocks => keeps_execHostBucketReadReturn u lateClocks s
  | .fdbLearnFault g => keeps_execFdbLearnFault g s
  | .fdbCmdFault g => keeps_execFdbCmdFault g s
  | .hostRead u slot => keeps_execHostRead u slot s
  | .fwdAudit g row => keeps_execFwdAudit g row s
  | .sigDispatch u => keeps_execSigDispatch u s
  | .sigScanDone u => keeps_execSigScanDone u s
  | .inspectionReturn u => keeps_execInspectionReturn u s
  | .sigSetBegin c => keeps_execSigSetBegin c s
  | .sigSetChunk c => keeps_execSigSetChunk c s
  | .sigSetCommit c => keeps_execSigSetCommit c s
  | .sigEngineWrite c => keeps_execSigEngineWrite c s
  | .sigEngineRead c => keeps_execSigEngineRead c s
  | .sigProfileWrite c => keeps_execSigProfileWrite c s
  | .sigProfileRead c => keeps_execSigProfileRead c s
  | .sigRuleWrite c => keeps_execSigRuleWrite c s
  | .sigRuleRead c => keeps_execSigRuleRead c s
  | .sigStatus c => keeps_execSigStatus c s
  | .sigStore e mismatch offset u => keeps_execSigStore e mismatch offset u s
  | .sigPath q u => keeps_execSigPath q u s
  | .sigReload e => keeps_execSigReload e s
  | .transferAdmission t conflict => keeps_execTransferAdmission t conflict s
  | .spillWrite q => keeps_execSpillWrite q s
  | .spillWriteDone p k => keeps_execSpillWriteDone p k s
  | .returnRead p k => keeps_execReturnRead p k s
  | .returnReadDone p k inOrder => keeps_execReturnReadDone p k inOrder s
  | .returnStallResume p k => keeps_execReturnStallResume p k s
  | .dramShareWindow q => keeps_execDramShareWindow q s
  | .scrubPassDone q c => keeps_execScrubPassDone q c s
  | .bufferPoolWrite c => keeps_execBufferPoolWrite c s
  | .bufferPoolRead c => keeps_execBufferPoolRead c s
  | .admitProfileWrite c => keeps_execAdmitProfileWrite c s
  | .admitProfileRead c => keeps_execAdmitProfileRead c s
  | .portAdmitWrite c => keeps_execPortAdmitWrite c s
  | .portAdmitRead c => keeps_execPortAdmitRead c s
  | .dramShareWrite c => keeps_execDramShareWrite c s
  | .dramShareRead c => keeps_execDramShareRead c s
  | .bufScrubWrite c => keeps_execBufScrubWrite c s
  | .bufScrubRead c => keeps_execBufScrubRead c s
  | .bufferStatus c => keeps_execBufferStatus c s
  | .queueBufferStatus c => keeps_execQueueBufferStatus c s
  | .bufData q c => keeps_execBufData q c s
  | .bufLink q c => keeps_execBufLink q c s
  | .bufDesc q c double => keeps_execBufDesc q c double s
  | .bufCount p k => keeps_execBufCount p k s
  | .poolRebuild q => keeps_execPoolRebuild q s
  | .dramData q k => keeps_execDramData q k s
  | .dramLink q => keeps_execDramLink q s
  | .dramRetrain q => keeps_execDramRetrain q s
  | .dramRequestTimeout q u => keeps_execDramRequestTimeout q u s
  | .spillOrder p k => keeps_execSpillOrder p k s
  | .meshFlitReceived d t err => keeps_execMeshFlitReceived d t err s
  | .relayTransfer t => keeps_execRelayTransfer t s
  | .meshCreditAudit d mismatch => keeps_execMeshCreditAudit d mismatch s
  | .meshRetrain d => keeps_execMeshRetrain d s
  | .meshLink l => keeps_execMeshLink l s
  | .meshTrainRetry l ok => keeps_execMeshTrainRetry l ok s
  | .meshMgmt l => keeps_execMeshMgmt l s
  | .meshConfigWrite c => keeps_execMeshConfigWrite c s
  | .meshConfigRead c => keeps_execMeshConfigRead c s
  | .mcastGroupWrite c => keeps_execMcastGroupWrite c s
  | .mcastGroupRead c => keeps_execMcastGroupRead c s
  | .mcastOldListFree g => keeps_execMcastOldListFree g s
  | .mirrorSessionWrite c => keeps_execMirrorSessionWrite c s
  | .mirrorSessionRead c => keeps_execMirrorSessionRead c s
  | .cutThroughUnderrun p sent => keeps_execCutThroughUnderrun p sent s
  | .holdExpiry p => keeps_execHoldExpiry p s
  | .queueAgeWrite c => keeps_execQueueAgeWrite c s
  | .queueAgeRead c => keeps_execQueueAgeRead c s
  | .dropPolicyWrite c => keeps_execDropPolicyWrite c s
  | .dropPolicyRead c => keeps_execDropPolicyRead c s
  | .swcRepl t => keeps_execSwcRepl t s
  | .swcMirror q x => keeps_execSwcMirror q x s
  | .swcPath q t u => keeps_execSwcPath q t u s
  | .swcFlush p => keeps_execSwcFlush p s
  | .switchReload q x g => keeps_execSwitchReload q x g s
  | .refillInstant q => keeps_execRefillInstant q s
  | .schedulerSelect p sent ahead err => keeps_execSchedulerSelect p sent ahead err s
  | .txFrameEnd p dbl => keeps_execTxFrameEnd p dbl s
  | .gateEntryStart p => keeps_execGateEntryStart p s
  | .policerWrite c => keeps_execPolicerWrite c s
  | .policerRead c => keeps_execPolicerRead c s
  | .shaperProfileWrite c => keeps_execShaperProfileWrite c s
  | .shaperProfileRead c => keeps_execShaperProfileRead c s
  | .portSchedWrite c => keeps_execPortSchedWrite c s
  | .portSchedRead c => keeps_execPortSchedRead c s
  | .extQueueWrite c => keeps_execExtQueueWrite c s
  | .extQueueRead c => keeps_execExtQueueRead c s
  | .gateListWrite c => keeps_execGateListWrite c s
  | .gateListRead c => keeps_execGateListRead c s
  | .portSchedStatus c => keeps_execPortSchedStatus c s
  | .schState p => keeps_execSchState p s
  | .polState q x => keeps_execPolState q x s
  | .freezeSweepDone q => keeps_execFreezeSweepDone q s
  | .freezePublish => keeps_execFreezePublish s
  | .rolloverPublish => keeps_execRolloverPublish s
  | .counterRead c => keeps_execCounterRead c s
  | .telemetryProfileWrite c => keeps_execTelemetryProfileWrite c s
  | .telemetryProfileRead c => keeps_execTelemetryProfileRead c s
  | .exporterWrite c => keeps_execExporterWrite c s
  | .exporterRead c => keeps_execExporterRead c s
  | .observerGrantWrite c => keeps_execObserverGrantWrite c s
  | .observerGrantRead c => keeps_execObserverGrantRead c s
  | .telCounter q hist key => keeps_execTelCounter q hist key s
  | .telExport e n => keeps_execTelExport e n s
  | .bubbleFrameStart q => keeps_execBubbleFrameStart q s
  | .laneEqStep l => keeps_execLaneEqStep l s
  | .laneStepCheck l height => keeps_execLaneStepCheck l height s
  | .energyCalibration q k scale other => keeps_execEnergyCalibration q k scale other s
  | .tempSample readings => keeps_execTempSample readings s
  | .thermalTrip die sensor => keeps_execThermalTrip die sensor s
  | .avsResponse mv bad command status => keeps_execAvsResponse mv bad command status s
  | .avsTimeout command status => keeps_execAvsTimeout command status s
  | .gaugeEpoch q d x ppm => keeps_execGaugeEpoch q d x ppm s
  | .marginEpoch q d x eyes => keeps_execMarginEpoch q d x eyes s
  | .heatWorkAccumulate => keeps_execHeatWorkAccumulate s
  | .laneReplan => keeps_execLaneReplan s
  | .dataAreaSave => keeps_execDataAreaSave s
  | .powerCapWrite c => keeps_execPowerCapWrite c s
  | .powerCapRead c => keeps_execPowerCapRead c s
  | .powerStatus c => keeps_execPowerStatus c s
  | .ageingStatus c => keeps_execAgeingStatus c s
  | .energyRead c => keeps_execEnergyRead c s
  | .faultRaise => keeps_execFaultRaise s
  | .graceExpiry b k x => keeps_execGraceExpiry b k x s
  | .quietExpiry b k x => keeps_execQuietExpiry b k x s
  | .fltLatchWrite lo hi => keeps_execFltLatchWrite lo hi s
  | .fltAlertEnWrite lo hi => keeps_execFltAlertEnWrite lo hi s
  | .fltTestKeyWrite key => keeps_execFltTestKeyWrite key s
  | .testKeyTimeout => keeps_execTestKeyTimeout s
  | .reg64LowHalfRead off high => keeps_execReg64LowHalfRead off high s
  | .klnCursorWrite v => keeps_execKlnCursorWrite v s
  | .klnWindowLatched => keeps_execKlnWindowLatched s
  | .faultPolicyWrite c => keeps_execFaultPolicyWrite c s
  | .faultPolicyRead c => keeps_execFaultPolicyRead c s
  | .faultAction c => keeps_execFaultAction c s
  | .faultStatus c => keeps_execFaultStatus c s
  | .faultSites c => keeps_execFaultSites c s
  | .faultTestEnable c => keeps_execFaultTestEnable c s
  | .faultTestDisable c => keeps_execFaultTestDisable c s
  | .faultInject c => keeps_execFaultInject c s
  | .kilnRead c => keeps_execKilnRead c s
  | .kilnClear c => keeps_execKilnClear c s
  | .ccMemory code ids late => keeps_execCcMemory code ids late s
  | .ccWatchdog core ids late => keeps_execCcWatchdog core ids late s
  | .fwCheck ids late => keeps_execFwCheck ids late s
  | .fltSelf asserted bad => keeps_execFltSelf asserted bad s
  | .invalidBarAccess bar2 write => keeps_execInvalidBarAccess bar2 write s
  | .registerWrite off v => keeps_execRegisterWrite off v s
  | .rcCounterRead slot => keeps_execRcCounterRead slot s
  | .pcieInterfaceLost flr => keeps_execPcieInterfaceLost flr s
  | .pcieLinkUp speed width => keeps_execPcieLinkUp speed width s
  | .hstMbxCtrlWrite x v => keeps_execHstMbxCtrlWrite x v s
  | .hstMbxDb x v => keeps_execHstMbxDb x v s
  | .hstMbxCplHeadWrite x v => keeps_execHstMbxCplHeadWrite x v s
  | .commandCompletion k => keeps_execCommandCompletion k s
  | .unknownOpcode c opcode => keeps_execUnknownOpcode c opcode s
  | .hstRxTailWrite r v => keeps_execHstRxTailWrite r v s
  | .hstTxTailWrite r v => keeps_execHstTxTailWrite r v s
  | .hostInject r ds data readOk => keeps_execHostInject r ds data readOk s
  | .irqCoalesceExpiry r tx => keeps_execIrqCoalesceExpiry r tx s
  | .sessionOpen c => keeps_execSessionOpen c s
  | .sessionClose c => keeps_execSessionClose c s
  | .sessionCloseDone x => keeps_execSessionCloseDone x s
  | .sessionSync c => keeps_execSessionSync c s
  | .roleKey c => keeps_execRoleKey c s
  | .dmaRingWrite c => keeps_execDmaRingWrite c s
  | .dmaRingRead c => keeps_execDmaRingRead c s
  | .capRead c => keeps_execCapRead c s
  | .modeWrite c => keeps_execModeWrite c s
  | .modeRead c => keeps_execModeRead c s
  | .limitedExit x => keeps_execLimitedExit x s
  | .limitedCommandTake x => keeps_execLimitedCommandTake x s
  | .credentialLockoutEnd slot => keeps_execCredentialLockoutEnd slot s
  | .umlimelPayload session off data ddr => keeps_execUmlimelPayload session off data ddr s
  | .umlimelCommand session desc ddr => keeps_execUmlimelCommand session desc ddr s
  | .umlimelFetch session off ddr => keeps_execUmlimelFetch session off ddr s
  | .umlimelRead ddr => keeps_execUmlimelRead ddr s
  | .umlimelFrameInvalid session ddr => keeps_execUmlimelFrameInvalid session ddr s
  | .ibiRetry alert => keeps_execIbiRetry alert s
  | .enec events => keeps_execEnec events s
  | .disec events => keeps_execDisec events s
  | .rstdaa => keeps_execRstdaa s
  | .entdaa a => keeps_execEntdaa a s
  | .setdasa a => keeps_execSetdasa a s
  | .setnewda a => keeps_execSetnewda a s
  | .setmwl n => keeps_execSetmwl n s
  | .setmrl n => keeps_execSetmrl n s
  | .getmwl => keeps_execGetmwl s
  | .getmrl => keeps_execGetmrl s
  | .getpid => keeps_execGetpid s
  | .getbcr => keeps_execGetbcr s
  | .getdcr => keeps_execGetdcr s
  | .getstatus => keeps_execGetstatus s
  | .getmxds => keeps_execGetmxds s
  | .enthdr0 => keeps_execEnthdr0 s
  | .rstact action => keeps_execRstact action s
  | .hstLink site corrected => keeps_execHstLink site corrected s
  | .imageBegin c => keeps_execImageBegin c s
  | .imageChunk c => keeps_execImageChunk c s
  | .imageVerify c => keeps_execImageVerify c s
  | .imageApply c => keeps_execImageApply c s
  | .imageUnload c => keeps_execImageUnload c s
  | .imageStatus c => keeps_execImageStatus c s
  | .fwBegin c => keeps_execFwBegin c s
  | .fwChunk c => keeps_execFwChunk c s
  | .fwCommit c => keeps_execFwCommit c s
  | .fwWritten ok => keeps_execFwWritten ok s
  | .fwActivate c => keeps_execFwActivate c s
  | .fwStatus c => keeps_execFwStatus c s
  | .deviceReset c => keeps_execDeviceReset c s
  | .softwareReset => keeps_execSoftwareReset s
  | .powerOn flash => keeps_execPowerOn flash s
  | .resetNAssert cool cut => keeps_execResetNAssert cool cut s
  | .resetNDeassert strap => keeps_execResetNDeassert strap s
  | .q0PllLock result => keeps_execQ0PllLock result s
  | .glazeInit readFail0 readFail1 => keeps_execGlazeInit readFail0 readFail1 s
  | .glazeRetry step die status => keeps_execGlazeRetry step die status s
  | .glazeReady ppm => keeps_execGlazeReady ppm s
  | .warmRestartStart => keeps_execWarmRestartStart s
  | .warmRestartDone readFailTarget readFailRunning stateOk => (keeps_execWarmRestartDone readFailTarget readFailRunning stateOk s).mono rfl
  | .bypass tdi => keeps_execBypass tdi s
  | .idcode tdi => keeps_execIdcode tdi s
  | .samplePreload pins tdi => keeps_execSamplePreload pins tdi s
  | .extest pins tdi => keeps_execExtest pins tdi s
  | .extestPulse pins tdi => keeps_execExtestPulse pins tdi s
  | .extestTrain pins tdi => keeps_execExtestTrain pins tdi s
  | .highz tdi => keeps_execHighz tdi s
  | .clamp tdi => keeps_execClamp tdi s
  | .signalBreak l => keeps_execSignalBreak l s
  | .cdrLockLost l => keeps_execCdrLockLost l s
  | .profileRelockTimeout => keeps_execProfileRelockTimeout s
  | .macReload g => keeps_execMacReload g s
  | .lanePllRelock g => keeps_execLanePllRelock g s
  | .laneStoreReload k => keeps_execLaneStoreReload k s
  | .rowRewrite g st r => keeps_execRowRewrite g st r s
  | .policerReload q x => keeps_execPolicerReload q x s
  | .schedReload p => keeps_execSchedReload p s
  | .timeStoreReload d x => keeps_execTimeStoreReload d x s
  | .telExportReload e => keeps_execTelExportReload e s
  | .testKeyLockoutEnd => keeps_execTestKeyLockoutEnd s
  | .supplyLeavesRange rail mv => keeps_execSupplyLeavesRange rail mv s

/-- Settles O6: the step's command keeps the bound, and taking it from the queue changes no log. -/
theorem everyStepKeepsTheKilnLogsBound : Obligations.EveryStepKeepsTheKilnLogsBound := by
  intro s t hok hstep
  unfold Machine.step at hstep
  split at hstep
  · cases hstep
    exact hok
  · exact (exec_keeps _ _ t hstep).kiln hok

/-- Settles O4: `exec_keeps` gives every part outside `touches`. -/
theorem commandsTouchOnlyTheirParts : Obligations.CommandsTouchOnlyTheirParts := fun i s t h => (exec_keeps i s t h).same

/-- Settles O1: both equations are the definition of a step. -/
theorem stepRunsTheFrontCommand : Obligations.StepRunsTheFrontCommand :=
  ⟨fun c rest s h => by simp only [Machine.step, h], fun s h => by simp only [Machine.step, h]⟩

/-! ### The fuses (R530) -/

/-- Where an image raises the minimum (R530): its READY, and nothing else, changes the fuses. -/
theorem raiseMinimum_securityMin (s : State) : (raiseMinimum s).boot.securityMin =
    if s.boot.running.raiseMinimum && decide (s.boot.securityMin < s.boot.running.security) then s.boot.running.security
    else s.boot.securityMin := by
  unfold raiseMinimum
  dsimp only
  split <;> simp

@[simp] theorem raiseMinimum_stage (s : State) : (raiseMinimum s).boot.stage = s.boot.stage := by
  unfold raiseMinimum
  dsimp only
  split <;> simp

@[simp] theorem raiseMinimum_running (s : State) : (raiseMinimum s).boot.running = s.boot.running := by
  unfold raiseMinimum
  dsimp only
  split <;> simp

@[simp] theorem confirmSlot_stage (s : State) : (confirmSlot s).boot.stage = s.boot.stage := by
  unfold confirmSlot
  dsimp only
  split <;> simp [writeArea]

@[simp] theorem confirmSlot_running (s : State) : (confirmSlot s).boot.running = s.boot.running := by
  unfold confirmSlot
  dsimp only
  split <;> simp [writeArea]

/-- A READY of an image, from the state that reached it. -/
def readied (u : State) : State := raiseMinimum (confirmSlot (becomeReady u))

theorem readied_stage (u : State) : (readied u).boot.stage = .ready := by
  rw [readied, raiseMinimum_stage, confirmSlot_stage]
  rfl

theorem readied_running (u : State) : (readied u).boot.running = u.boot.running := by
  rw [readied, raiseMinimum_running, confirmSlot_running]
  rfl

theorem readied_securityMin (u : State) : (readied u).boot.securityMin =
    if u.boot.running.raiseMinimum && decide (u.boot.securityMin < u.boot.running.security) then u.boot.running.security
    else u.boot.securityMin := by
  have hmin : (confirmSlot (becomeReady u)).boot.securityMin = u.boot.securityMin := (keeps_confirmSlot _).same .fuse rfl
  rw [readied, raiseMinimum_securityMin, confirmSlot_running, hmin]
  rfl

/-- Whether READY of an image raises the minimum (R530). -/
def asksMore (b : BootState) : Prop := b.running.raiseMinimum = true ∧ b.securityMin < b.running.security

theorem readied_raised {u : State} (h : asksMore u.boot) : (readied u).boot.securityMin = u.boot.running.security := by
  rw [readied_securityMin, if_pos (by simp [h.1, h.2])]

theorem readied_logs {u : State} (h : asksMore u.boot) : logged 0x0F18 (readied u) := by
  have hmin : (confirmSlot (becomeReady u)).boot.securityMin = u.boot.securityMin := (keeps_confirmSlot _).same .fuse rfl
  have hrun : (confirmSlot (becomeReady u)).boot.running = u.boot.running := confirmSlot_running _
  rw [readied, raiseMinimum, if_pos (by simpa only [hmin, hrun, asksMore, Bool.and_eq_true, decide_eq_true_eq] using h)]
  exact kiln_head _ _ _

/-- The minimum after a READY that does not raise it. -/
theorem readied_unraised {u : State} (h : ¬ asksMore u.boot) : (readied u).boot.securityMin = u.boot.securityMin := by
  rw [readied_securityMin, if_neg (by simpa [asksMore] using h)]

/-- READY of the glaze stage: what the steps before it leave of the boot state and of every part they do not plan (R534). -/
theorem exec_glazeReady (ppm : List (List Int)) {s : State} (h : s.boot.stage = .glazeInit) :
    ∃ u, Keeps [.time, .flt, .pow] s u ∧ exec (.glazeReady ppm) s = .next (readied u) := by
  refine ⟨_, ?_, (if_neg (by simp [h]) : execGlazeReady ppm s = _)⟩
  refine .step (.step (.step (.step (keeps_foldl _ _ (.refl _ _) fun q v hv => ?_) (keeps_planVdd _ _ _ _) (by decide)) (keeps_placeScrub _ _)
    (by decide)) (keeps_placePower _) (by decide)) (keeps_kiln _ _ _) (by decide)
  exact hv.step (keeps_gaugeEpoch _ _ _) (by decide)

/-- READY of a warm restart into slot `k` (R538). -/
theorem exec_warmRestartDone {f0 f1 : Bool} {k : Nat} {s : State} (hstage : s.boot.stage = .warmRestart) (hdue : s.boot.warmDue = none)
    (hk : warmSlot f0 f1 s = some k) :
    ∃ u, Keeps [.flt, .boot] s u ∧ u.boot = { s.boot with slot := k, running := tabGet {} s.boot.slots k } ∧
      exec (.warmRestartDone f0 f1 true) s = .next (readied u) := by
  refine ⟨kiln 0x0F17 [(4, microsSince s.boot.warmBegan s), (1, k)]
    (modBoot (fun b => { b with slot := k, running := tabGet {} b.slots k }) s), ?_, by simp, ?_⟩
  · exact .step (keeps_modBoot _ (.refl _ _) rfl (by decide)) (keeps_kiln _ _ _) (by decide)
  · change execWarmRestartDone f0 f1 true s = _
    simp [execWarmRestartDone, hstage, hdue, hk, readied, microsSince]

theorem touches_fuse {i : Instr} (h : (touches i).contains .fuse = true) :
    (∃ ppm, i = .glazeReady ppm) ∨ ∃ f0 f1 ok, i = .warmRestartDone f0 f1 ok := by
  cases i
  case glazeReady ppm => exact .inl ⟨ppm, rfl⟩
  case warmRestartDone f0 f1 ok => exact .inr ⟨f0, f1, ok, rfl⟩
  all_goals cases h

/-- What a warm restart's end may be (R538): nothing, a reset, or a READY. -/
theorem exec_warmRestartDone_cases (f0 f1 ok : Bool) (s : State) :
    exec (.warmRestartDone f0 f1 ok) s = .next s ∨ exec (.warmRestartDone f0 f1 ok) s = .next (deviceReset 5 s) ∨
      ok = true ∧ ∃ u, Keeps [.flt, .boot] s u ∧ exec (.warmRestartDone f0 f1 ok) s = .next (readied u) := by
  by_cases hgo : s.boot.stage = .warmRestart ∧ s.boot.warmDue = none
  · cases hk : warmSlot f0 f1 s with
    | none => exact .inr (.inl (by change execWarmRestartDone _ _ _ _ = _; simp [execWarmRestartDone, hgo, hk]))
    | some k =>
      cases ok with
      | false => exact .inr (.inl (by change execWarmRestartDone _ _ _ _ = _; simp [execWarmRestartDone, hgo, hk]))
      | true =>
        obtain ⟨u, hu, -, he⟩ := exec_warmRestartDone hgo.1 hgo.2 hk
        exact .inr (.inr ⟨rfl, u, hu, he⟩)
  · refine .inl (if_pos ?_)
    simp only [Bool.or_eq_true, bne_iff_ne, Option.isSome_iff_ne_none]
    tauto

/-- A command that changes the fuses is a READY. -/
theorem readied_of_fuses {i : Instr} {s t : State} (h : exec i s = .next t) (hne : t.boot.securityMin ≠ s.boot.securityMin) :
    (∃ u, t = readied u ∧ u.boot.securityMin = s.boot.securityMin) ∧
      ((∃ ppm, i = .glazeReady ppm) ∨ ∃ f0 f1, i = .warmRestartDone f0 f1 true) := by
  have htouch : (touches i).contains .fuse = true := by
    by_contra hno
    exact hne ((exec_keeps i s t h).same .fuse (by simpa using hno))
  rcases touches_fuse htouch with ⟨ppm, rfl⟩ | ⟨f0, f1, ok, rfl⟩
  · by_cases hstage : s.boot.stage = .glazeInit
    · obtain ⟨u, hu, he⟩ := exec_glazeReady ppm hstage
      cases he.symm.trans h
      exact ⟨⟨u, rfl, hu.same .fuse rfl⟩, .inl ⟨ppm, rfl⟩⟩
    · have he : exec (.glazeReady ppm) s = .next s := if_pos (by simpa using hstage)
      cases he.symm.trans h
      exact absurd rfl hne
  · rcases exec_warmRestartDone_cases f0 f1 ok s with he | he | ⟨rfl, u, hu, he⟩ <;> cases he.symm.trans h
    · exact absurd rfl hne
    · exact absurd ((keeps_deviceReset 5 s).same .fuse rfl) hne
    · exact ⟨⟨u, rfl, hu.same .fuse rfl⟩, .inr ⟨f0, f1, rfl⟩⟩

theorem le_readied_securityMin (u : State) : u.boot.securityMin ≤ (readied u).boot.securityMin := by
  by_cases h : asksMore u.boot
  · exact (readied_raised h).ge.trans' h.2.le
  · exact (readied_unraised h).ge

/-- Settles O5: `exec_keeps` for all but the fuses, and the fuses change by a READY alone. -/
theorem nothingIsTakenBack : Obligations.NothingIsTakenBack := by
  intro i s t h
  obtain ⟨hpending, hnow, hfree, hseen, -, -⟩ := exec_keeps i s t h
  refine ⟨hpending, hnow, hfree, hseen, ?_⟩
  by_cases hne : t.boot.securityMin = s.boot.securityMin
  · exact hne.ge
  · obtain ⟨⟨u, rfl, hu⟩, -⟩ := readied_of_fuses h hne
    exact hu ▸ le_readied_securityMin u

/-- Settles O58: READY of either start raises the minimum that its image asks for, no other command changes it, and an image below it fails the
check of its slot. -/
theorem securityMinimumIsRaisedAtReady : Obligations.SecurityMinimumIsRaisedAtReady := by
  refine fun ppm f0 f1 i s t => ⟨fun hstage hraise hlt => ?_, fun k hstage hdue hk hraise hlt => ?_, fun h hne => ?_, fun k fails hold => ?_⟩
  · obtain ⟨u, hu, he⟩ := exec_glazeReady ppm hstage
    have hboot : u.boot = s.boot := hu.same .boot rfl
    have hmore : asksMore u.boot := hboot ▸ ⟨hraise, hlt⟩
    exact ⟨_, he, hboot ▸ readied_raised hmore, readied_logs hmore⟩
  · obtain ⟨u, -, hboot, he⟩ := exec_warmRestartDone hstage hdue hk
    have hmore : asksMore u.boot := hboot ▸ ⟨hraise, hlt⟩
    exact ⟨_, he, (readied_raised hmore).trans (by rw [hboot]), readied_logs hmore⟩
  · obtain ⟨⟨u, rfl, hu⟩, hi⟩ := readied_of_fuses h hne
    by_cases hmore : asksMore u.boot
    · refine ⟨readied_stage u, ?_, ?_, ?_, hi⟩ <;> rw [readied_running]
      · exact hmore.1
      · exact hu ▸ hmore.2
      · exact readied_raised hmore
    · exact absurd ((readied_unraised hmore).trans hu) hne
  · unfold readCheck slotCheck
    dsimp only
    split
    · decide
    · split
      · next hbad => exact bne_iff_ne.mp hbad
      · decide

/-! ### What reset leaves -/

/-- Settles O2: each clause is a field of State.reset. That queues are empty and inner state is zero is the model's choice (assumption 6). -/
theorem resetStateIsAsTheSpecSays : Obligations.ResetStateIsAsTheSpecSays :=
  ⟨rfl, fun _ => rfl, rfl, rfl, rfl, rfl, rfl, rfl, kilnOk_empty rfl, rfl, rfl, rfl, rfl, rfl, rfl, rfl, rfl, fun _ _ => rfl,
    fun _ => ⟨rfl, rfl⟩, rfl, rfl⟩

end Sys2Proof.Proofs
end

section
/-!
PROOFS. Every command completes (O3): the outcome of each command's meaning, branch by branch.
-/

namespace Sys2Proof.Proofs

open Sys2Proof Sys2Proof.Machine Sys2Proof.Laws

/-- An outcome that is a next state. -/
def Answers (o : Host.Outcome State Fault Refusal) : Prop := ∃ t, o = .next t

theorem answers_next (t : State) : Answers (.next t) := ⟨t, rfl⟩

theorem answers_ite {p : Prop} [Decidable p] {a b : Host.Outcome State Fault Refusal} (ha : Answers a) (hb : Answers b) :
    Answers (if p then a else b) := by
  split <;> assumption

/-- Every command but SUPPLY_LEAVES_RANGE answers a next state, whatever the state: its meaning is a next state, or branches whose outcomes are. -/
theorem exec_answers {i : Instr} (h : ∀ rail mv, i ≠ .supplyLeavesRange rail mv) (s : State) : Answers (exec i s) := by
  match i with
  | .rateAllowanceRefill _ | .timeAdvance _ | .timeDomainWrite _ | .timeDomainRead _ | .timeAdjust _ | .timeGet _ | .portTimeWrite _ |
  .portTimeRead _ | .twostepRead _ | .timePinWrite _ | .timePinRead _ | .captureRead _ | .firingEntryWrite _ | .firingEntryRead _ |
  .firingStatus _ | .laneConfigWrite _ | .laneConfigRead _ | .laneStatus _ | .laneTestWrite _ | .laneTestRead _ | .eyeScan _ | .eyeScanAbort _ |
  .eyeStatus _ | .eyeResult _ | .anPageViolation _ | .d2dRetrainDone _ | .laneAdapt _ | .laneStore _ | .portConfigWrite _ | .portConfigRead _ |
  .portStatus _ | .portFlowWrite _ | .portFlowRead _ | .portPreemptWrite _ | .portPreemptRead _ | .frameFilterWrite _ | .frameFilterRead _ |
  .macStore _ | .parserMalformedWrite _ | .parserMalformedRead _ | .prsStore _ _ | .parserReload _ | .treeTableWrite _ | .treeTableRead _ |
  .classifierRuleWrite _ | .classifierRuleRead _ | .treeCommit _ | .ruleBatch _ | .ruleBatchAbort _ | .ruleBatchStatus _ | .matExact _ _ _ _ _ |
  .matTernary _ _ _ _ _ | .matResult _ _ _ _ _ | .matDesc _ _ _ | .stageReload _ _ | .fdbNtfConsWrite _ _ | .fdbEntryWrite _ | .fdbEntryRead _ |
  .fdbLearnWrite _ | .fdbLearnRead _ | .fdbNotifyWrite _ | .fdbNotifyRead _ | .fdbDelegateWrite _ | .fdbDelegateRead _ | .fdbCmdReadKey _ _ |
  .fdbCmdReadIndex _ _ | .fdbCmdInsert _ _ | .fdbCmdWrite _ _ | .fdbCmdDelete _ _ | .fdbCmdDeleteIfIdle _ _ | .fdbCmdAge _ _ |
  .fdbCmdIterate _ _ | .fdbCmdInvalidOp _ _ _ | .lpmRouteWrite _ | .lpmRouteRead _ | .hostEntry _ | .hostLookupWrite _ | .hostLookupRead _ |
  .fdbLearnFault _ | .fdbCmdFault _ | .fwdAudit _ _ | .sigSetBegin _ | .sigSetChunk _ | .sigSetCommit _ | .sigEngineWrite _ | .sigEngineRead _ |
  .sigProfileWrite _ | .sigProfileRead _ | .sigRuleWrite _ | .sigRuleRead _ | .sigStatus _ | .dramShareWindow _ | .bufferPoolWrite _ |
  .bufferPoolRead _ | .admitProfileWrite _ | .admitProfileRead _ | .portAdmitWrite _ | .portAdmitRead _ | .dramShareWrite _ | .dramShareRead _ |
  .bufScrubWrite _ | .bufScrubRead _ | .bufferStatus _ | .queueBufferStatus _ | .bufData _ _ | .bufLink _ _ | .dramLink _ |
  .meshCreditAudit _ _ | .meshMgmt _ | .meshConfigWrite _ | .meshConfigRead _ | .mcastGroupWrite _ | .mcastGroupRead _ | .mcastOldListFree _ |
  .mirrorSessionWrite _ | .mirrorSessionRead _ | .queueAgeWrite _ | .queueAgeRead _ | .dropPolicyWrite _ | .dropPolicyRead _ | .swcFlush _ |
  .policerWrite _ | .policerRead _ | .shaperProfileWrite _ | .shaperProfileRead _ | .portSchedWrite _ | .portSchedRead _ | .extQueueWrite _ |
  .extQueueRead _ | .gateListWrite _ | .gateListRead _ | .portSchedStatus _ | .schState _ | .counterRead _ | .telemetryProfileWrite _ |
  .telemetryProfileRead _ | .exporterWrite _ | .exporterRead _ | .observerGrantWrite _ | .observerGrantRead _ | .telExport _ _ |
  .powerCapWrite _ | .powerCapRead _ | .powerStatus _ | .ageingStatus _ | .energyRead _ | .faultPolicyWrite _ | .faultPolicyRead _ |
  .faultAction _ | .faultStatus _ | .faultSites _ | .faultTestEnable _ | .faultTestDisable _ | .faultInject _ | .kilnRead _ | .kilnClear _ |
  .ccMemory _ _ _ | .ccWatchdog _ _ _ | .fwCheck _ _ | .sessionOpen _ | .sessionClose _ | .sessionSync _ | .roleKey _ | .dmaRingRead _ |
  .capRead _ | .modeWrite _ | .modeRead _ | .umlimelPayload _ _ _ _ | .umlimelCommand _ _ _ | .umlimelFetch _ _ _ | .umlimelFrameInvalid _ _ |
  .enec _ | .disec _ | .rstdaa | .entdaa _ | .setdasa _ | .setnewda _ | .setmwl _ | .setmrl _ | .getmwl | .getmrl | .getpid | .getbcr | .getdcr |
  .getstatus | .getmxds | .enthdr0 | .rstact _ | .imageBegin _ | .imageChunk _ | .imageVerify _ | .imageApply _ | .imageStatus _ | .fwBegin _ |
  .fwChunk _ | .fwCommit _ | .fwActivate _ | .fwStatus _ | .deviceReset _ | .bypass _ | .idcode _ | .samplePreload _ _ | .extest _ _ |
  .extestPulse _ _ | .extestTrain _ _ | .highz _ | .clamp _ | .macReload _ | .policerReload _ _ | .schedReload _ | .telExportReload _ =>
    exact answers_next _
  | .supplyLeavesRange rail mv => exact absurd rfl (h rail mv)
  | .clockSourceSwitch _ | .alignmentStrobe _ | .strobeMissing _ | .refclkWindow _ _ _ | .slewEnd _ | .pllLockReport _ | .profileSwitchDone |
  .profileSwitchTimeout | .pllRelockRetry | .pinEdgeCapture _ _ _ _ | .pinPulseEnd _ | .pinPulse _ _ | .timeStore _ _ _ | .profileRelockTimeout |
  .timeStoreReload _ _ =>
    delta exec
    conv => arg 1; with_reducible whnf
    simp only [execClockSourceSwitch, execAlignmentStrobe, execStrobeMissing, execRefclkWindow, execSlewEnd, execPllLockReport,
      execProfileSwitchDone, execProfileSwitchTimeout, execPllRelockRetry, execPinEdgeCapture, execPinPulseEnd, execPinPulse, execTimeStore,
      execProfileRelockTimeout, execTimeStoreReload]
    repeat' first | with_reducible exact answers_next _ | with_reducible apply answers_ite | split
  | .backgroundPeriodEnd _ _ | .backgroundSlotGrant _ _ _ | .counterFreeze _ _ _ | .histogramRollover _ _ _ | .scrubEpoch _ _ _ |
  .telemetryEpoch _ _ _ | .freezeSweepDone _ | .freezePublish | .rolloverPublish | .telCounter _ _ _ =>
    delta exec
    conv => arg 1; with_reducible whnf
    simp only [execBackgroundPeriodEnd, execBackgroundSlotGrant, execCounterFreeze, execHistogramRollover, execScrubEpoch, execTelemetryEpoch,
      execFreezeSweepDone, execFreezePublish, execRolloverPublish, execTelCounter]
    repeat' first | with_reducible exact answers_next _ | with_reducible apply answers_ite | split
  | .gateCycle _ _ | .cutThroughUnderrun _ _ | .refillInstant _ | .schedulerSelect _ _ _ _ | .txFrameEnd _ _ | .gateEntryStart _ | .polState _ _ =>
    delta exec
    conv => arg 1; with_reducible whnf
    simp only [execGateCycle, execCutThroughUnderrun, execRefillInstant, execSchedulerSelect, execTxFrameEnd, execGateEntryStart, execPolState]
    repeat' first | with_reducible exact answers_next _ | with_reducible apply answers_ite | split
  | .powerCycle _ _ _ _ | .bubbleFrameStart _ | .laneEqStep _ | .laneStepCheck _ _ | .energyCalibration _ _ _ _ | .tempSample _ |
  .thermalTrip _ _ | .avsResponse _ _ _ _ | .avsTimeout _ _ | .gaugeEpoch _ _ _ _ | .marginEpoch _ _ _ _ | .heatWorkAccumulate | .laneReplan |
  .dataAreaSave =>
    delta exec
    conv => arg 1; with_reducible whnf
    simp only [execPowerCycle, execBubbleFrameStart, execLaneEqStep, execLaneStepCheck, execEnergyCalibration, execTempSample, execThermalTrip,
      execAvsResponse, execAvsTimeout, execGaugeEpoch, execMarginEpoch, execHeatWorkAccumulate, execLaneReplan, execDataAreaSave]
    repeat' first | with_reducible exact answers_next _ | with_reducible apply answers_ite | split
  | .eyePointDone _ _ _ | .laneRefclkLost _ | .laneRefclkRelock _ | .laneRefclkHoldoverEnd _ | .laneRefclkRestored _ | .signalDetected _ |
  .autonegResolved _ _ | .anTimeout _ | .trainingDone _ _ | .trainingTimeout _ _ | .lockAcquired _ | .lockTimeout _ _ | .linkUp _ |
  .alignTimeout _ _ _ | .signalLost _ | .backoffExpired _ | .backoffReset _ | .trainingFrameMalformed _ _ _ | .linkDown _ _ _ |
  .reacquireDone _ | .reacquireTimeout _ _ | .syncHeaderReceived _ _ | .alignmentMarkerReceived _ _ | .fecCodewordDecoded _ _ |
  .degradeWindowEnd _ | .farEndLoopbackBlock _ _ _ _ | .patternBitsChecked _ _ _ _ | .errorInjectionEvent _ | .d2dDoubleBitError _ _ |
  .lanePll _ | .signalBreak _ | .cdrLockLost _ | .lanePllRelock _ | .laneStoreReload _ =>
    delta exec
    conv => arg 1; with_reducible whnf
    simp only [execEyePointDone, execLaneRefclkLost, execLaneRefclkRelock, execLaneRefclkHoldoverEnd, execLaneRefclkRestored, execSignalDetected,
      execAutonegResolved, execAnTimeout, execTrainingDone, execTrainingTimeout, execLockAcquired, execLockTimeout, execLinkUp, execAlignTimeout,
      execSignalLost, execBackoffExpired, execBackoffReset, execTrainingFrameMalformed, execLinkDown, execReacquireDone, execReacquireTimeout,
      execSyncHeaderReceived, execAlignmentMarkerReceived, execFecCodewordDecoded, execDegradeWindowEnd, execFarEndLoopbackBlock,
      execPatternBitsChecked, execErrorInjectionEvent, execD2dDoubleBitError, execLanePll, execSignalBreak, execCdrLockLost, execLanePllRelock,
      execLaneStoreReload]
    repeat' first | with_reducible exact answers_next _ | with_reducible apply answers_ite | split
  | .rxFrameHead _ _ _ _ _ | .rxFragment _ _ _ _ _ _ _ | .rxOversize _ _ | .rxPcsErrorMark _ | .rxFrameEnd _ _ | .macControlFrame _ _ |
  .occupancyReport _ _ | .pauseRefresh _ | .pauseTimerExpiry _ _ | .pauseStorm _ _ | .stormRecovered _ _ | .preemptVerifyTimer _ |
  .preemptVerify _ | .macFifo _ _ | .pcsCheck _ | .macFlow _ | .flowResync _ =>
    delta exec
    conv => arg 1; with_reducible whnf
    simp only [execRxFrameHead, execRxFragment, execRxOversize, execRxPcsErrorMark, execRxFrameEnd, execMacControlFrame, execOccupancyReport,
      execPauseRefresh, execPauseTimerExpiry, execPauseStorm, execStormRecovered, execPreemptVerifyTimer, execPreemptVerify, execMacFifo,
      execPcsCheck, execMacFlow, execFlowResync]
    repeat' first | with_reducible exact answers_next _ | with_reducible apply answers_ite | split
  | .parseStart _ _ | .parseResume _ _ | .prsVector _ _ | .prsHang _ _ | .prsCheck _ _ =>
    delta exec
    conv => arg 1; with_reducible whnf
    simp only [execParseStart, execParseResume, execPrsVector, execPrsHang, execPrsCheck]
    repeat' first | with_reducible exact answers_next _ | with_reducible apply answers_ite | split
  | .stageLookup _ | .sequencerRelease _ | .ruleAdd _ | .quiesceStart _ | .quiesceWrite _ _ | .retiredBufferRelease _ | .matPath _ _ |
  .rowRewrite _ _ _ =>
    delta exec
    conv => arg 1; with_reducible whnf
    simp only [execStageLookup, execSequencerRelease, execRuleAdd, execQuiesceStart, execQuiesceWrite, execRetiredBufferRelease, execMatPath,
      execRowRewrite]
    repeat' first | with_reducible exact answers_next _ | with_reducible apply answers_ite | split
  | .routineIssue _ | .microwordExecute _ _ _ _ | .memoryResultReturn _ _ _ _ | .lockGranted _ _ _ | .waitResume _ _ _ _ |
  .routineCommit _ _ _ _ | .actMicro _ _ _ _ | .actNano _ _ _ _ | .actContext _ _ _ | .actHang _ _ _ | .storeReload _ _ _ _ |
  .stateRowReset _ _ _ _ =>
    delta exec
    conv => arg 1; with_reducible whnf
    simp only [execRoutineIssue, execMicrowordExecute, execMemoryResultReturn, execLockGranted, execWaitResume, execRoutineCommit, execActMicro,
      execActNano, execActContext, execActHang, execStoreReload, execStateRowReset]
    repeat' first | with_reducible exact answers_next _ | with_reducible apply answers_ite | split
  | .frameDecision _ =>
    delta exec
    conv => arg 1; with_reducible whnf
    simp only [execFrameDecision]
    repeat' first | with_reducible exact answers_next _ | with_reducible apply answers_ite
  | .hostDelivery _ _ _ | .hstRxTailWrite _ _ | .hstTxTailWrite _ _ | .hostInject _ _ _ _ | .irqCoalesceExpiry _ _ =>
    delta exec
    conv => arg 1; with_reducible whnf
    simp only [execHostDelivery, execHstRxTailWrite, execHstTxTailWrite, execHostInject, execIrqCoalesceExpiry]
    repeat' first | with_reducible exact answers_next _ | with_reducible apply answers_ite | split
  | .treeNodeReadReturn _ _ _ | .treeWalkTimeout _ | .treeSwap _ _ _ _ | .treeNodesFreed _ _ | .matTree _ _ =>
    delta exec
    conv => arg 1; with_reducible whnf
    simp only [execTreeNodeReadReturn, execTreeWalkTimeout, execTreeSwap, execTreeNodesFreed, execMatTree]
    repeat' first | with_reducible exact answers_next _ | with_reducible apply answers_ite | split
  | .imagePipelineApply _ | .imageUnload _ =>
    delta exec
    conv => arg 1; with_reducible whnf
    simp only [execImagePipelineApply, execImageUnload]
    repeat' first | with_reducible exact answers_next _ | with_reducible apply answers_ite | split
  | .learnRequestProcess _ | .fdbArbiterGrant _ =>
    delta exec
    conv => arg 1; with_reducible whnf
    simp only [execLearnRequestProcess, execFdbArbiterGrant]
    repeat' first | with_reducible exact answers_next _ | with_reducible apply answers_ite | split
  | .notifyProducerWriteback _ | .fdbWindowRegWrite _ _ _ | .fdbRejectsRead _ | .lpmBucketFree _ | .hostBucketReadReturn _ _ | .hostRead _ _ =>
    delta exec
    conv => arg 1; with_reducible whnf
    simp only [execNotifyProducerWriteback, execFdbWindowRegWrite, execFdbRejectsRead, execLpmBucketFree, execHostBucketReadReturn, execHostRead]
    repeat' first | with_reducible exact answers_next _ | with_reducible apply answers_ite | split
  | .sigDispatch _ | .sigScanDone _ | .inspectionReturn _ | .sigStore _ _ _ _ | .sigPath _ _ | .sigReload _ =>
    delta exec
    conv => arg 1; with_reducible whnf
    simp only [execSigDispatch, execSigScanDone, execInspectionReturn, execSigStore, execSigPath, execSigReload]
    repeat' first | with_reducible exact answers_next _ | with_reducible apply answers_ite | split
  | .transferAdmission _ _ | .meshFlitReceived _ _ _ | .relayTransfer _ | .meshRetrain _ | .meshLink _ | .meshTrainRetry _ _ | .holdExpiry _ |
  .swcRepl _ | .swcMirror _ _ | .swcPath _ _ _ | .switchReload _ _ _ =>
    delta exec
    conv => arg 1; with_reducible whnf
    simp only [execTransferAdmission, execMeshFlitReceived, execRelayTransfer, execMeshRetrain, execMeshLink, execMeshTrainRetry, execHoldExpiry,
      execSwcRepl, execSwcMirror, execSwcPath, execSwitchReload]
    repeat' first | with_reducible exact answers_next _ | with_reducible apply answers_ite | split
  | .spillWrite _ | .spillWriteDone _ _ | .returnRead _ _ | .returnReadDone _ _ _ | .returnStallResume _ _ | .scrubPassDone _ _ |
  .bufDesc _ _ _ | .bufCount _ _ | .poolRebuild _ | .dramData _ _ | .dramRetrain _ | .dramRequestTimeout _ _ | .spillOrder _ _ =>
    delta exec
    conv => arg 1; with_reducible whnf
    simp only [execSpillWrite, execSpillWriteDone, execReturnRead, execReturnReadDone, execReturnStallResume, execScrubPassDone, execBufDesc,
      execBufCount, execPoolRebuild, execDramData, execDramRetrain, execDramRequestTimeout, execSpillOrder]
    repeat' first | with_reducible exact answers_next _ | with_reducible apply answers_ite | split
  | .faultRaise | .graceExpiry _ _ _ | .quietExpiry _ _ _ =>
    delta exec
    conv => arg 1; with_reducible whnf
    simp only [execFaultRaise, execGraceExpiry, execQuietExpiry]
    repeat' first | with_reducible exact answers_next _ | with_reducible apply answers_ite | split
  | .fltLatchWrite _ _ | .fltAlertEnWrite _ _ | .fltTestKeyWrite _ | .testKeyTimeout | .reg64LowHalfRead _ _ | .klnCursorWrite _ |
  .klnWindowLatched | .fltSelf _ _ | .testKeyLockoutEnd =>
    delta exec
    conv => arg 1; with_reducible whnf
    simp only [execFltLatchWrite, execFltAlertEnWrite, execFltTestKeyWrite, execTestKeyTimeout, execReg64LowHalfRead, execKlnCursorWrite,
      execKlnWindowLatched, execFltSelf, execTestKeyLockoutEnd]
    repeat' first | with_reducible exact answers_next _ | with_reducible apply answers_ite | split
  | .invalidBarAccess _ _ | .registerWrite _ _ | .rcCounterRead _ | .pcieInterfaceLost _ | .pcieLinkUp _ _ | .hstMbxCtrlWrite _ _ |
  .hstMbxDb _ _ | .hstMbxCplHeadWrite _ _ | .sessionCloseDone _ =>
    delta exec
    conv => arg 1; with_reducible whnf
    simp only [execInvalidBarAccess, execRegisterWrite, execRcCounterRead, execPcieInterfaceLost, execPcieLinkUp, execHstMbxCtrlWrite,
      execHstMbxDb, execHstMbxCplHeadWrite, execSessionCloseDone]
    repeat' first | with_reducible exact answers_next _ | with_reducible apply answers_ite | split
  | .commandCompletion _ | .unknownOpcode _ _ | .dmaRingWrite _ | .limitedExit _ | .limitedCommandTake _ | .credentialLockoutEnd _ =>
    delta exec
    conv => arg 1; with_reducible whnf
    simp only [execCommandCompletion, execUnknownOpcode, execDmaRingWrite, execLimitedExit, execLimitedCommandTake, execCredentialLockoutEnd]
    repeat' first | with_reducible exact answers_next _ | with_reducible apply answers_ite | split
  | .umlimelRead _ | .ibiRetry _ | .hstLink _ _ =>
    delta exec
    conv => arg 1; with_reducible whnf
    simp only [execUmlimelRead, execIbiRetry, execHstLink]
    repeat' first | with_reducible exact answers_next _ | with_reducible apply answers_ite | split
  | .fwWritten _ | .softwareReset =>
    delta exec
    conv => arg 1; with_reducible whnf
    simp only [execFwWritten, execSoftwareReset]
    repeat' first | with_reducible exact answers_next _ | with_reducible apply answers_ite | split
  | .powerOn _ | .resetNAssert _ _ | .resetNDeassert _ | .q0PllLock _ | .glazeInit _ _ | .glazeRetry _ _ _ | .glazeReady _ | .warmRestartStart |
  .warmRestartDone _ _ _ =>
    delta exec
    conv => arg 1; with_reducible whnf
    simp only [execPowerOn, execResetNAssert, execResetNDeassert, execQ0PllLock, execGlazeInit, execGlazeRetry, execGlazeReady,
      execWarmRestartStart, execWarmRestartDone]
    repeat' first | with_reducible exact answers_next _ | with_reducible apply answers_ite | split

/-- Within the ratings a rail leaves its range without a fault (R558). -/
theorem supplyLeavesRange_answers {rail : Fin 8} {mv : Int} (h : -300 ≤ mv ∧ mv ≤ railMax rail.val) (s : State) :
    Answers (exec (.supplyLeavesRange rail mv) s) := by
  have hrated : ¬ (mv < -300 || mv > railMax rail.val) = true := by simpa using h
  change Answers (execSupplyLeavesRange rail mv s)
  rw [execSupplyLeavesRange, if_neg hrated]
  exact answers_ite (answers_next _) (answers_ite (answers_next _) (answers_next _))

theorem supplyLeavesRange_faults {rail : Fin 8} {mv : Int} (h : ¬ (-300 ≤ mv ∧ mv ≤ railMax rail.val)) (s : State) :
    exec (.supplyLeavesRange rail mv) s = .fault .beyondRatings := by
  refine if_pos ?_
  simp only [Bool.or_eq_true, decide_eq_true_eq]
  omega

/-- Settles O3: `exec_answers`, and for SUPPLY_LEAVES_RANGE the ratings decide. -/
theorem everyCommandCompletes : Obligations.EveryCommandCompletes := by
  intro i s
  by_cases hi : ∃ rail mv, i = .supplyLeavesRange rail mv
  · obtain ⟨rail, mv, rfl⟩ := hi
    refine ⟨fun h => supplyLeavesRange_answers (h rail mv rfl) s, fun r hr => ?_, fun _ => ⟨rail, mv, rfl⟩⟩
    by_cases hrated : -300 ≤ mv ∧ mv ≤ railMax rail.val
    · obtain ⟨t, ht⟩ := supplyLeavesRange_answers hrated s
      cases ht.symm.trans hr
    · cases (supplyLeavesRange_faults hrated s).symm.trans hr
  · obtain ⟨t, ht⟩ := exec_answers (fun rail mv he => hi ⟨rail, mv, he⟩) s
    refine ⟨fun _ => ⟨t, ht⟩, fun r hr => ?_, fun hf => ?_⟩
    · cases ht.symm.trans hr
    · cases ht.symm.trans hf

end Sys2Proof.Proofs
end

section
/-!
PROOFS. Rules of Icoux commands shared by the objects below: a command that answers data, and one that its own work rejects (R489).
-/

namespace Sys2Proof.Proofs

open Sys2Proof Sys2Proof.Machine Sys2Proof.Laws

section

variable {d : OpDef} {c : Cmd} {i : Instr} {s u : State} {body : Nat → Bytes → State → CmdResult} {st : Status} {data reply : Bytes}
  {P : State → Prop}

/-- A command whose work is done has ended with its status, data and reply. -/
theorem answers_of (hi : exec i s = .next (icoux d c body s)) (h : passes d c s = true)
    (e : body c.slot.val (given c s) (takenState c s) = .done u st data reply) (hu : u.host.ended = s.host.ended)
    (hP : P (endCommand (endedOf d (effectiveCmd c s) st data reply false) u)) :
    Completes i s fun t => answered d c st data reply s t ∧ P t :=
  ⟨_, hi, icoux_done h e ▸ ⟨answered_endCommand hu rfl rfl, hP⟩⟩

/-- What keeps `host` ends no command. -/
theorem ended_of_same (h : Same .host (takenState c s) u) : u.host.ended = s.host.ended := by
  have h : u.host = (takenState c s).host := h
  rw [h]
  rfl

theorem same_of_host {s : State} (h : HostState) : ∀ p, p ≠ .host → Same p s { s with host := h } := by
  intro p hp
  cases p
  case host => exact absurd rfl hp
  all_goals rfl

/-- A command whose work changes `host` alone leaves every other part. -/
theorem same_of_keeps_host (h : Keeps [.host] (takenState c s) u) (e : Ended) : ∀ p, p ≠ .host → Same p s (endCommand e u) :=
  fun p hp => (((keeps_takeCommand c.slot.val s).trans h).trans (keeps_endCommand e u)).same p (by simpa using hp)

/-- A command that its own work rejects changes nothing else. -/
theorem rejects_of (hi : exec i s = .next (icoux d c body s)) (h : passes d c s = true)
    (e : body c.slot.val (given c s) (takenState c s) = .fail st data) :
    Completes i s fun t => answered d c st data [] s t ∧ ∀ p, p ≠ .host → Same p s t :=
  ⟨_, hi, icoux_fail h e ▸ ⟨answered_endCommand rfl rfl rfl, same_of_host _⟩⟩

end

end Sys2Proof.Proofs
end

section
/-!
PROOFS. Scheduler objects read and write (O34): what a staged policer, profile, port object or gate list leaves, and the leaves that a divided
queue takes.
-/

namespace Sys2Proof.Proofs

open Sys2Proof Sys2Proof.Machine Sys2Proof.Laws

section

variable {c : Cmd} {s : State}

theorem policerWrite_writes : Writes opPolicerWrite c (.policerWrite c) s fun t =>
    policerAt t (policerNo (u8 (given c s) 0) (u32 (given c s) 4)) =
      { policerAt s (policerNo (u8 (given c s) 0) (u32 (given c s) 4)) with staged := some (given c s) } :=
  writes_of rfl fun _ => ⟨_, rfl, rfl, policerAt_modPolicer _ _ _⟩

/-- Quadrant `q` stages the object `o` as its shaper profile `n`. -/
def shaperStaged (n : Nat) (o : Bytes) (q : Nat) (s : State) : State :=
  modSch (fun t => { t with shapersStaged := tabPut (4096 * q + n) o t.shapersStaged }) s

/-- A profile is staged in every quadrant named, and none comes into force. -/
theorem shaperProfileWrite_writes : Writes opShaperProfileWrite c (.shaperProfileWrite c) s fun t => t.sch.shapers = s.sch.shapers ∧
    ∀ q, q < 4 → bit (u8 (given c s) 0) q = true →
      tabFind t.sch.shapersStaged (4096 * q + u16 (given c s) 2) = some (putField (given c s) 0 1 0) := by
  let n := u16 (given c s) 2
  refine writes_of rfl fun _ => ⟨forMask 4 (u8 (given c s) 0) (shaperStaged n (putField (given c s) 0 1 0)) (takenState c s), rfl, ?_, ?_,
    fun q hq hbit => ?_⟩
  · exact foldl_keeps (fun s : State => s.host.ended) fun _ _ _ => rfl
  · exact foldl_keeps (fun s : State => s.sch.shapers) fun _ _ _ => rfl
  · have hread := forMask_places (op := shaperStaged n (putField (given c s) 0 1 0))
      (read := fun s q => tabFind s.sch.shapersStaged (4096 * q + n)) (val := fun _ => some (putField (given c s) 0 1 0))
      (fun _ _ => tabFind_put _ _ _) (fun _ _ _ h => tabFind_put_ne _ _ (by omega)) 4 (u8 (given c s) 0) (takenState c s) q
    exact hread.trans (if_pos ⟨hq, hbit⟩)

/-- A port object is staged while no queue that changes its class holds a copy (R356). -/
theorem portSchedWrite_writes (h : ∀ k, k < 20 → u8 (given c s) (8 + k) = queueClass s (u16 (given c s) 0) k ∨
      copiesWith s (inQueue (queueNo (u16 (given c s) 0) k)) = []) :
    Writes opPortSchedWrite c (.portSchedWrite c) s fun t =>
      portSched t (u16 (given c s) 0) = { portSched s (u16 (given c s) 0) with staged := some (given c s) } := by
  have hfree : ¬ ((List.range 20).any fun k => u8 (given c s) (8 + k) != queueClass s (u16 (given c s) 0) k &&
      (copiesWith s (inQueue (queueNo (u16 (given c s) 0) k))).length > 0) = true := by
    simp only [List.any_eq_true, List.mem_range, Bool.and_eq_true, bne_iff_ne, decide_eq_true_eq, not_exists, not_and]
    intro k hk hne
    rcases h k hk with he | he
    · exact absurd he hne
    · simp [he]
  exact writes_of rfl fun _ => ⟨_, if_neg hfree, rfl, portSched_modPortSched _ _ _⟩

theorem gateListWrite_writes (h : ∀ k, k < gateCount (given c s) → badGateEntry (given c s) (24 + 8 * k) = none) :
    Writes opGateListWrite c (.gateListWrite c) s fun t =>
      portSched t (u16 (given c s) 0) = { portSched s (u16 (given c s) 0) with gatesStaged := some (given c s) } := by
  have hgood : ((List.range (gateCount (given c s))).filterMap fun k => badGateEntry (given c s) (24 + 8 * k)) = [] :=
    List.filterMap_eq_nil_iff.mpr fun k hk => h k (List.mem_range.mp hk)
  refine writes_of rfl fun _ => ⟨modPortSched (u16 (given c s) 0) (fun v => { v with gatesStaged := some (given c s) }) (takenState c s), ?_,
    rfl, portSched_modPortSched _ _ _⟩
  rw [hgood]
  rfl

/-! ### Divided queues (R358, R359; the first free run of leaves is the model's choice, assumption 79) -/

section

variable (hweights : ∀ i, i < u16 (given c s) 4 → u8 (given c s) (16 + i) ≠ 0)
  (hempty : copiesWith s (inQueue (queueNo (u16 (given c s) 0) (u8 (given c s) 2))) = [])
  (hspill : s.bufferProfile = 1 → spillOn (queueProfile s (u16 (given c s) 0) (u8 (given c s) 2)) = 0)
  (hpass : passes opExtQueueWrite c s = true)

include hweights hempty hspill in
/-- Neither a weight nor the queue's copies nor its spilling reject the division. -/
theorem extQueue_admitted : (firstIdx (u16 (given c s) 4) fun i => u8 (given c s) (16 + i) == 0) = none ∧
    ¬ ((copiesWith s (inQueue (queueNo (u16 (given c s) 0) (u8 (given c s) 2)))).length > 0 ||
      (s.bufferProfile == 1 && spillOn (queueProfile s (u16 (given c s) 0) (u8 (given c s) 2)) != 0)) = true := by
  refine ⟨List.find?_eq_none.mpr fun i hi => ?_, ?_⟩
  · simpa using hweights i (List.mem_range.mp hi)
  · simpa [hempty] using hspill

include hweights hempty hspill hpass

theorem extQueueWrite_removes (hn : u16 (given c s) 4 = 0) : Completes (.extQueueWrite c) s fun t =>
    answered opExtQueueWrite c .ok (toLe 4 0) [] s t ∧ extQueue t (queueNo (u16 (given c s) 0) (u8 (given c s) 2)) = none ∧
    logged 0x0A05 t := by
  let p := u16 (given c s) 0
  let k := u8 (given c s) 2
  obtain ⟨hw, he⟩ := extQueue_admitted hweights hempty hspill
  refine answers_of (u := kiln 0x0A05 [(2, p), (2, k), (4, 0), (4, 0)]
    (modSch (fun t => { t with ext := tabDel (queueNo p k) t.ext }) (takenState c s))) rfl hpass ?_ (by simp) ⟨?_, kiln_head _ _ _⟩
  · dsimp only
    rw [hw]
    exact (if_neg he).trans (if_pos (by simp [hn]))
  · simp only [extQueue, endCommand_sch, kiln_sch]
    exact tabFind_del _ _

theorem extQueueWrite_divides {f : Nat} (hn : u16 (given c s) 4 ≠ 0)
    (hf : placeLeaves (leavesUsed s (quadOfPort (u16 (given c s) 0)) (queueNo (u16 (given c s) 0) (u8 (given c s) 2)))
      (u16 (given c s) 4) = some f) : Completes (.extQueueWrite c) s fun t =>
    answered opExtQueueWrite c .ok (toLe 4 f) [] s t ∧
    extQueue t (queueNo (u16 (given c s) 0) (u8 (given c s) 2)) = some (putField (given c s) 8 4 f) ∧ logged 0x0A05 t := by
  let p := u16 (given c s) 0
  let k := u8 (given c s) 2
  obtain ⟨hw, he⟩ := extQueue_admitted hweights hempty hspill
  refine answers_of (u := kiln 0x0A05 [(2, p), (2, k), (4, u16 (given c s) 4), (4, f)]
    (modPortSched p (fun v => { v with nodes := tabDel (leafNode k) v.nodes })
      (modSch (fun t => { t with ext := tabPut (queueNo p k) (putField (given c s) 8 4 f) t.ext }) (takenState c s)))) rfl hpass ?_ (by rw [kiln_host]; rfl)
    ⟨?_, kiln_head _ _ _⟩
  · have hf' : placeLeaves (leavesUsed (takenState c s) (quadOfPort (u16 (given c s) 0))
        (queueNo (u16 (given c s) 0) (u8 (given c s) 2))) (u16 (given c s) 4) = some f := hf
    dsimp only
    rw [hw]
    refine (if_neg he).trans ((if_neg (by simpa using hn)).trans ?_)
    rw [hf']
  · simp only [extQueue, endCommand_sch, kiln_sch]
    exact tabFind_put _ _ _

end

end

/-- Settles O34: each read answers its object, and each write has its own lemma. That a divided queue takes the first run of free leaves that
fits is the model's choice (assumption 79). -/
theorem schedulerObjectsReadAndWrite : Obligations.SchedulerObjectsReadAndWrite := fun _ _ =>
  ⟨reads_of rfl fun _ => rfl, policerWrite_writes, reads_of rfl fun _ => rfl, shaperProfileWrite_writes, reads_of rfl fun _ => rfl,
    portSchedWrite_writes, reads_of rfl fun _ => rfl, fun hweights hempty hspill hpass =>
      ⟨extQueueWrite_removes hweights hempty hspill hpass, fun _ => extQueueWrite_divides hweights hempty hspill hpass⟩,
    reads_of rfl fun _ => rfl, gateListWrite_writes, reads_of rfl fun _ => rfl⟩

end Sys2Proof.Proofs
end

section
/-!
PROOFS. Refills and gate cycles (O35): the staged objects that a refill brings into force, the buckets it fills, and how a port's gate list
starts and goes on (R337, R343, R347, R355, R361, R362).
-/

namespace Sys2Proof.Proofs

open Sys2Proof Sys2Proof.Machine Sys2Proof.Laws

/-! ### Refills -/

theorem tabFind_where {α : Type} (p : Nat → Bool) (f : Nat → α → α) (m : Store α) (k : Nat) :
    tabFind (tabWhere p f m) k = (tabFind m k).map fun v => if p k then f k v else v := by
  rw [tabWhere, tabFind_map fun e => by split <;> rfl]
  congr 1
  funext v
  dsimp only
  split <;> rfl

/-- A key that a filter removes reads as nothing. -/
theorem tabFind_filter_none {α : Type} {p : Nat × α → Bool} {k : Nat} (h : ∀ v, p (k, v) = false) (m : Store α) :
    tabFind (m.filter p) k = none := by
  induction m with
  | nil => rfl
  | cons e m ih =>
    obtain ⟨j, v⟩ := e
    by_cases hj : j = k
    · subst hj
      simp [h v, ih]
    · rw [List.filter_cons]
      split
      · simp [tabFind, hj, ih]
      · exact ih

section

variable {q : Quad} {s : State}

/-- The only staged profile of a quadrant is in force after its refill. -/
theorem shaperProfile_applyShapers {n : Nat} {x : Bytes} (hn : n < 4096) (h : s.sch.shapersStaged = [(4096 * q.val + n, x)]) :
    shaperProfile (modSch (applyShapers q.val) s) q.val n = x := by
  have hq : (4096 * q.val + n) / 4096 = q.val := by omega
  have hmod : (4096 * q.val + n) % 4096 = n := by omega
  simp only [shaperProfile, modSch, applyShapers, h, List.filter_cons, hq, beq_self_eq_true, if_true, List.filter_nil, List.foldl_cons,
    List.foldl_nil, hmod]
  exact tabGet_set (shaperDefault n) x _ s.sch.shapers

theorem refillInstant_completes : Completes (.refillInstant q) s fun t =>
    (∀ k v, tabFind s.sch.policers k = some v →
      tabFind t.sch.policers k = some (if k / 131072 = q.val then refillPolicer (applyPolicer v) else v)) ∧
    (∀ n v, tabFind s.sch.ports n = some v → tabFind t.sch.ports n = some (if quadOfPort n = q.val then
      { v with buckets := refillBuckets (modSch (applyShapers q.val) s) n v.buckets } else v)) ∧
    (∀ k, k / 4096 = q.val → tabFind t.sch.shapersStaged k = none) ∧
    (∀ n x, n < 4096 → s.sch.shapersStaged = [(4096 * q.val + n, x)] → shaperProfile t q.val n = x) := by
  refine ⟨_, rfl, fun k v hv => ?_, fun n v hv => ?_, fun k hk => ?_, fun n x hn h => shaperProfile_applyShapers hn h⟩
  · rw [modSch_sch, tabFind_where]
    simp [applyShapers, hv]
  · rw [modSch_sch, tabFind_where]
    simp [applyShapers, hv]
  · exact tabFind_filter_none (fun v => by simp [hk]) _

end

/-! ### Gate cycles -/

theorem fireEntry_copies (q d i : Nat) (s : State) : (fireEntry q d i s).time.copies = s.time.copies := by
  unfold fireEntry
  dsimp only
  split
  · rw [kilnOnce_time]
    rfl
  · rfl

section

variable (p k : Nat) (s : State)

/-- An entry that takes effect stands on its port and leaves its lists; it may hold or release (R361). -/
theorem portSched_startEntry : ∃ hold, portSched (startEntry p k s) p = { portSched s p with gateEntry := k, gateHold := hold } := by
  have hset : portSched (modPortSched p (fun v => { v with gateEntry := k }) s) p = { portSched s p with gateEntry := k } :=
    portSched_modPortSched _ _ _
  have hheld : ∀ (b : Bool) (u : State), portSched u p = { portSched s p with gateEntry := k } →
      portSched (modPortSched p (fun v => { v with gateHold := b }) u) p = { portSched s p with gateEntry := k, gateHold := b } := by
    intro b u hu
    rw [portSched_modPortSched, hu]
  unfold startEntry
  dsimp only
  split
  · exact ⟨false, hheld _ _ hset⟩
  · split
    · exact ⟨_, hset⟩
    · split
      · exact ⟨true, hheld _ _ hset⟩
      · exact ⟨false, hheld _ _ hset⟩
      · exact ⟨_, hset⟩

theorem startEntry_counts : Counts [cSchHolds] s (startEntry p k s) := by
  unfold startEntry
  dsimp only
  split
  · exact counts_of_tel rfl
  · split
    · exact counts_of_tel rfl
    · split
      · exact Counts.count (counts_of_tel rfl) (by decide)
      · exact counts_of_tel rfl
      · exact counts_of_tel rfl

theorem startEntry_flt : (startEntry p k s).flt = s.flt := (keeps_startEntry p k s).same .flt rfl

end

section

variable {p d start : Nat} {s : State}

/-- The state in which the first entry of a cycle that starts takes effect: a due list is in force. -/
def cycleStarted (p d start : Nat) (s : State) : State :=
  let s1 := count cSchCycles p 1 s
  let s2 := match (portSched s p).gatesStaged with
    | none => s1
    | some o =>
      if gateDue s p o then
        let rel : Int := ((start : Int) - copyNs (copyOf s (quadOfPort p) d)) / 1000
        kiln 0x0A01 [(2, p), (4, ofSigned 32 rel)] (modPortSched p (fun v => { v with gates := some o, gatesStaged := none }) s1)
      else s1
  modPortSched p (fun v => { v with gateStart := some (start, d) }) s2

theorem startCycle_eq (h : (portSched s p).reloading = false) : startCycle p d start s = startEntry p 0 (cycleStarted p d start s) :=
  if_neg (by simp [h])

theorem cycleStarted_counted : counted cSchCycles p 1 s (cycleStarted p d start s) := by
  unfold cycleStarted
  dsimp only
  split
  · exact counted_then_same (counted_count _ _ _ _) rfl
  · split
    · exact counted_then_same (counted_count _ _ _ _) (kiln_tel _ _ _)
    · exact counted_then_same (counted_count _ _ _ _) rfl

/-- A cycle that starts counts, and its first entry begins. -/
theorem startCycle_starts (h : (portSched s p).reloading = false) : counted cSchCycles p 1 s (startCycle p d start s) ∧
    (portSched (startCycle p d start s) p).gateEntry = 0 ∧ (portSched (startCycle p d start s) p).gateStart.isSome = true := by
  rw [startCycle_eq h]
  obtain ⟨hold, hport⟩ := portSched_startEntry p 0 (cycleStarted p d start s)
  refine ⟨counted_then_counts cycleStarted_counted (startEntry_counts _ _ _), by rw [hport], ?_⟩
  rw [hport, cycleStarted, portSched_modPortSched]
  rfl

/-- A due list comes into force at a cycle's start (R362). -/
theorem startCycle_applies (h : (portSched s p).reloading = false) {x : Bytes} (hx : (portSched s p).gatesStaged = some x)
    (hdue : gateDue s p x = true) : (portSched (startCycle p d start s) p).gates = some x ∧
      (portSched (startCycle p d start s) p).gatesStaged = none ∧ logged 0x0A01 (startCycle p d start s) := by
  rw [startCycle_eq h]
  obtain ⟨hold, hport⟩ := portSched_startEntry p 0 (cycleStarted p d start s)
  have hstarted : ∃ fs u, u.sch = (modPortSched p (fun v => { v with gates := some x, gatesStaged := none }) s).sch ∧
      cycleStarted p d start s = modPortSched p (fun v => { v with gateStart := some (start, d) }) (kiln 0x0A01 fs u) := by
    refine ⟨[(2, p), (4, ofSigned 32 (((start : Int) - copyNs (copyOf s (quadOfPort p) d)) / 1000))],
      modPortSched p (fun v => { v with gates := some x, gatesStaged := none }) (count cSchCycles p 1 s), rfl, ?_⟩
    simp only [cycleStarted, hx, hdue, if_true]
  obtain ⟨fs, u, hu, he⟩ := hstarted
  rw [logged, startEntry_flt, hport, he, portSched_modPortSched, portSched_of_sch (kiln_sch _ _ _), portSched_of_sch hu, portSched_modPortSched]
  exact ⟨rfl, rfl, kiln_head _ _ _⟩

/-- Without a staged list the list in force stays. -/
theorem startCycle_unstaged (h : (portSched s p).reloading = false) (hx : (portSched s p).gatesStaged = none) :
    (portSched (startCycle p d start s) p).gates = (portSched s p).gates := by
  rw [startCycle_eq h]
  obtain ⟨hold, hport⟩ := portSched_startEntry p 0 (cycleStarted p d start s)
  rw [hport]
  simp only [cycleStarted, hx, portSched_modPortSched]
  rfl

end

section

variable {d : Domain'} {i : Fin 512} {s : State}

/-- A cycle's entry fires on the port's die, which leaves the schedulers and the copies of time as they are. -/
theorem gateCycle_completes {n : Nat} (hn : n = entryTarget (entryOf s d.val i.val)) (hf : firesNext s (quadOfPort n) d.val i.val 3 = true)
    (hc : configured s n = true) (hr : (portSched s n).reloading = false) : Completes (.gateCycle d i) s fun t => counted cSchCycles n 1 s t ∧
      (portSched t n).gateEntry = 0 ∧ (portSched t n).gateStart.isSome = true ∧
      (∀ x, (portSched s n).gatesStaged = some x → gateDue s n x = true → (portSched t n).gates = some x ∧ (portSched t n).gatesStaged = none ∧
        logged 0x0A01 t) ∧
      ((portSched s n).gatesStaged = none → (portSched t n).gates = (portSched s n).gates) := by
  subst hn
  let p := entryTarget (entryOf s d.val i.val)
  let s1 := fireEntry (quadOfPort p) d.val i.val s
  have hfired : Keeps [.time, .flt] s s1 := keeps_fireEntry _ _ _ _
  have hport : portSched s1 p = portSched s p := portSched_of_sch (hfired.same .sch rfl) p
  have hcopies : s1.time.copies = s.time.copies := fireEntry_copies _ _ _ s
  have hdue : ∀ x, gateDue s1 p x = gateDue s p x := fun x => by simp only [gateDue, copyOf_eq_of_copies hcopies]
  obtain ⟨start, he⟩ : ∃ start, exec (.gateCycle d i) s = .next (startCycle p d.val start s1) := 
    ⟨_, (if_pos hf : execGateCycle d i s = _).trans (congrArg Host.Outcome.next (if_pos hc))⟩
  rw [← hport] at hr ⊢
  obtain ⟨hcount, hentry, hstart⟩ := startCycle_starts (d := d.val) (start := start) hr
  refine ⟨_, he, counts_then_counted (l := []) (counts_of_keeps hfired) hcount, hentry, hstart, fun x hx hx' => ?_, startCycle_unstaged hr⟩
  exact startCycle_applies hr hx ((hdue x).trans hx')

theorem gateEntryStart_completes {p : Port} {o : Bytes} {a e : Nat} (hlive : liveGates (portSched s p.val) = some (o, a, e))
    (hk : (portSched s p.val).gateEntry + 1 < gateCount o) (hr : (portSched s p.val).reloading = false)
    (hdue : (a : Int) + entryOffset o ((portSched s p.val).gateEntry + 1) ≤ copyNs (copyOf s (quadOfPort p.val) e))
    (hcycle : cycleEntries s p.val = []) :
    Completes (.gateEntryStart p) s fun t => (portSched t p.val).gateEntry = (portSched s p.val).gateEntry + 1 := by
  have hexec : exec (.gateEntryStart p) s = .next (startEntry p.val ((portSched s p.val).gateEntry + 1) s) := by
    change execGateEntryStart p s = _
    simp only [execGateEntryStart, hlive, hcycle, hr]
    refine if_neg ?_
    simp only [List.any_nil, Bool.or_false, Bool.false_or, Bool.or_eq_true, decide_eq_true_eq]
    omega
  obtain ⟨hold, hport⟩ := portSched_startEntry p.val ((portSched s p.val).gateEntry + 1) s
  exact ⟨_, hexec, congrArg PortSched.gateEntry hport⟩

end

/-- Settles O35: a lemma for the refill, for a cycle's start and for the entry that follows. -/
theorem refillsAndGateCyclesApply : Obligations.RefillsAndGateCyclesApply := fun _ _ _ _ _ _ =>
  ⟨refillInstant_completes, fun hf hc hr => gateCycle_completes rfl hf hc hr, fun _ _ => gateEntryStart_completes⟩

end Sys2Proof.Proofs
end

section
/-!
PROOFS. Telemetry objects read and write (O37): profiles in the quadrants named, exporters, grants, and a counter read of a bank.
-/

namespace Sys2Proof.Proofs

open Sys2Proof Sys2Proof.Machine Sys2Proof.Laws

/-! ### Exporters -/

section

variable (e : Nat) (v : Exporter) (s : State)

@[simp] theorem exporterOf_setExporter : exporterOf (setExporter e v s) e = v := tabGet_set _ _ _ _

theorem exporterOf_setExporter_ne {e f : Nat} (h : f ≠ e) : exporterOf (setExporter e v s) f = exporterOf s f := tabGet_set_ne _ _ h

theorem exporterOf_of_tel {s t : State} (h : t.tel = s.tel) : exporterOf t e = exporterOf s e := by
  rw [exporterOf, exporterOf, h]

end

/-! ### Objects -/

section

variable {c : Cmd} {s : State}

theorem counterRead_reads {snap : Snapshot} (h : readBank s (u8 (given c s) 0) (u8 (given c s) 1) = some snap) :
    Reads opCounterRead c (.counterRead c) s
      (counterReply s (u8 (given c s) 0) (u8 (given c s) 1) snap ((List.range (u16 (given c s) 10)).map fun i =>
        if readsZero s (u8 (given c s) 0) (u8 (given c s) 2) (u32 (given c s) 4) (u16 (given c s) 8 + i) then none
        else some (valueKey (u8 (given c s) 0) (u8 (given c s) 2) (u32 (given c s) 4) (u16 (given c s) 8 + i)))) := by
  refine reads_of rfl fun _ => ?_
  have hbank : readBank (takenState c s) (u8 (given c s) 0) (u8 (given c s) 1) = some snap := h
  dsimp only
  rw [hbank]
  rfl

/-- Quadrant `q` takes the profile `o` as its profile `n`, whose postcards count anew (R389). -/
def telProfileWritten (n : Nat) (o : Bytes) (q : Nat) (s : State) : State :=
  modTel (fun t => { t with
    profiles := tabSet (telProfileDefault n) (256 * q + n) o t.profiles
    postcardCount := tabDel (256 * q + n) t.postcardCount }) s

/-- Profile `n` of a quadrant with the count of its postcards. -/
def profileEntry (n : Nat) (s : State) (q : Nat) : Bytes × Option Nat :=
  (telemetryProfile s q n, tabFind s.tel.postcardCount (256 * q + n))

theorem profileEntry_telProfileWritten (n q : Nat) (o : Bytes) (s : State) : profileEntry n (telProfileWritten n o q s) q = (o, none) :=
  Prod.ext (tabGet_set (telProfileDefault n) o (256 * q + n) s.tel.profiles) (tabFind_del _ _)

theorem profileEntry_telProfileWritten_ne {n q r : Nat} (h : r ≠ q) (o : Bytes) (s : State) :
    profileEntry n (telProfileWritten n o q s) r = profileEntry n s r :=
  Prod.ext (tabGet_set_ne (d := telProfileDefault n) (m := s.tel.profiles) (v := o) (by omega)) (tabFind_del_ne _ (by omega))

theorem telemetryProfileWrite_writes (h : unitBroken (given c s) = false) :
    Writes opTelemetryProfileWrite c (.telemetryProfileWrite c) s fun t => ∀ q, q < 4 → bit (u8 (given c s) 0) q = true →
      telemetryProfile t q (u8 (given c s) 1) = putField (given c s) 0 1 0 ∧ tabFind t.tel.postcardCount (256 * q + u8 (given c s) 1) = none := by
  let n := u8 (given c s) 1
  let o := putField (given c s) 0 1 0
  refine writes_of rfl fun _ => ⟨forMask 4 (u8 (given c s) 0) (telProfileWritten n o) (takenState c s), by simp only [h]; rfl, ?_, fun q hq hbit => ?_⟩
  · exact foldl_keeps (fun s : State => s.host.ended) fun _ _ _ => rfl
  · have hread := forMask_places (op := telProfileWritten n o) (read := profileEntry n) (val := fun _ => (o, none))
      (fun _ _ => profileEntry_telProfileWritten _ _ _ _) (fun _ _ _ h => profileEntry_telProfileWritten_ne h _ _)
      4 (u8 (given c s) 0) (takenState c s) q
    rw [if_pos ⟨hq, hbit⟩] at hread
    exact Prod.ext_iff.mp hread

/-- What an object of an exporter leaves: its epochs are placed and its postcard limit starts full. -/
def exporterWritten (b : Bytes) (s : State) : State :=
  writeLimit .postcard (u8 b 0) (u8 b 0) (u32 b 20) (placeOwn (u8 b 16) (exporterEntry (u8 b 0)) 0x12 (u8 b 0) 0
    (if bit (u8 b 1) 0 then u32 b 12 * 1000 else 0) (setExporter (u8 b 0) { exporterOf s (u8 b 0) with obj := b } s))

theorem exporterWritten_keeps (b : Bytes) (s : State) :
    Keeps [.limits, .time] (setExporter (u8 b 0) { exporterOf s (u8 b 0) with obj := b } s) (exporterWritten b s) :=
  ((keeps_placeOwn _ _ _ _ _ _ _).mono rfl).step (keeps_writeLimit _ _ _ _ _) rfl

theorem exporterWrite_writes : Writes opExporterWrite c (.exporterWrite c) s fun t =>
    exporterOf t (u8 (given c s) 0) = { exporterOf s (u8 (given c s) 0) with obj := given c s } ∧
      ∀ e, e ≠ u8 (given c s) 0 → exporterOf t e = exporterOf s e := by
  have hkeep := exporterWritten_keeps (given c s) (takenState c s)
  have htel := hkeep.same .tel rfl
  refine writes_of rfl fun _ => ⟨exporterWritten (given c s) (takenState c s), rfl, ?_, ?_, fun f hf => ?_⟩
  · exact ended_of_same (hkeep.same .host rfl)
  · rw [exporterOf_of_tel _ (endCommand_tel _ _), exporterOf_of_tel _ htel, exporterOf_setExporter]
    rfl
  · rw [exporterOf_of_tel _ (endCommand_tel _ _), exporterOf_of_tel _ htel, exporterOf_setExporter_ne _ _ hf]
    rfl

theorem observerGrantWrite_writes : Writes opObserverGrantWrite c (.observerGrantWrite c) s fun t =>
    tabFind t.tel.grants (u8 (given c s) 0) = some (given c s) ∧ logged 0x0C07 t ∧
      ∀ i, i ≠ u8 (given c s) 0 → tabFind t.tel.grants i = tabFind s.tel.grants i := by
  refine writes_of rfl fun _ => ⟨_, rfl, ?_, ?_, kiln_head _ _ _, fun i hi => ?_⟩
  · rw [kiln_host]
    rfl
  · change tabFind (kiln _ _ _).tel.grants _ = _
    rw [kiln_tel]
    exact tabFind_put _ _ _
  · change tabFind (kiln _ _ _).tel.grants _ = _
    rw [kiln_tel]
    exact tabFind_put_ne _ _ hi

end

/-- Settles O37: a lemma for each write and for the counter read. -/
theorem telemetryObjectsReadAndWrite : Obligations.TelemetryObjectsReadAndWrite := fun _ _ =>
  ⟨fun _ => counterRead_reads, reads_of rfl fun _ => rfl, telemetryProfileWrite_writes, reads_of rfl fun _ => rfl, exporterWrite_writes,
    reads_of rfl fun _ => rfl, observerGrantWrite_writes⟩

end Sys2Proof.Proofs
end

section
/-!
PROOFS. Snapshots and background tasks (O38): freezes and rollovers that a die takes or misses, what the exporters' epochs send, scrub passes,
overruns, and the faults of telemetry.
-/

namespace Sys2Proof.Proofs

open Sys2Proof Sys2Proof.Machine Sys2Proof.Laws

/-- A count made beside other work of telemetry that changes no counter. -/
theorem counted_of_tel {c : Counter} {x n : Nat} {s t : State} (u : State) (h : t.tel = (count c x n u).tel)
    (hu : u.tel.counters = s.tel.counters) : counted c x n s t :=
  counted_then_same (counted_count_of c x n s (u := u) (by simp only [countOf, counterOf, hu])) h

/-! ### Lists of sweeps -/

section

variable {q : Nat} {w : Sweep} {l : List Sweep}

/-- A new sweep after its first die has fired it. -/
def sweepFired (now q : Nat) (vals : Store Nat) (inex : Store Bool) (w : Sweep) : Sweep :=
  if w.missed then { w with fired := tabPut q now w.fired }
  else { w with fired := tabPut q now w.fired
                snap := { w.snap with values := vals.foldl (fun m e => tabPut e.1 e.2 m) w.snap.values
                                      inexact := inex.foldl (fun m e => tabPut e.1 e.2 m) w.snap.inexact } }

/-- The last sweep of a list is fired in its place. -/
theorem fireSweep_last (h : w.missed = false) (now : Nat) (vals : Store Nat) (inex : Store Bool) :
    fireSweep now q l.length vals inex (l ++ [w]) = l ++ [sweepFired now q vals inex w] := by
  simp [fireSweep, sweepFired, h, setAt]

end

/-- A key that a filter keeps reads as it did. -/
theorem tabFind_filter_keeps {α : Type} {p : Nat × α → Bool} {k : Nat} (h : ∀ v, p (k, v) = true) (m : Store α) :
    tabFind (m.filter p) k = tabFind m k := by
  induction m with
  | nil => rfl
  | cons e m ih =>
    obtain ⟨j, v⟩ := e
    by_cases hj : j = k
    · subst hj
      simp [h v, tabFind]
    · rw [List.filter_cons]
      split
      · simp [tabFind, hj, ih]
      · simpa [tabFind, hj] using ih

/-! ### Freezes (R374, R375) -/

section

variable {q d i : Nat} {at' : Stamp} {stepped : Bool} {s : State}

/-- A die that fires a freeze no other has fired takes it under the next number. -/
theorem takeFreeze_takes (hl : q ∉ s.tel.latchedInTick) (hu : unfired s.tel.freezes q = none) (hn : unpublished s.tel.freezes < 2) :
    ∃ x, (takeFreeze q d i at' stepped s).tel.freezes = s.tel.freezes ++ [x] ∧ x.snap.seq = nextSeq32 s.tel.freezeSeq ∧ x.missed = false ∧
      tabFind x.fired q = some s.now ∧ x.snap.values = (dieCounters s q).foldl (fun m e => tabPut e.1 e.2 m) [] := by
  let w : Sweep := { snap := { seq := nextSeq32 s.tel.freezeSeq, at_ := at', stepped } }
  have hnew : newSweep s.tel.freezes (nextSeq32 s.tel.freezeSeq) at' stepped = (s.tel.freezes ++ [w], true) := if_neg (by omega)
  refine ⟨sweepFired s.now q (dieCounters s q) [] w, ?_, rfl, rfl, tabFind_put _ _ _, rfl⟩
  have hfree : s.tel.latchedInTick.contains q = false := by simpa using hl
  simp only [takeFreeze, hfree, hu, hnew, if_true, Bool.false_eq_true, if_false]
  exact (congrArg (fun n => fireSweep s.now q n _ _ _) (by simp)).trans (fireSweep_last rfl _ _ _)

/-- With two freezes unpublished the die counts one missed. -/
theorem takeFreeze_misses (hl : q ∉ s.tel.latchedInTick) (hu : unfired s.tel.freezes q = none) (hn : 2 ≤ unpublished s.tel.freezes) :
    counted cTelFreezeMissed q 1 s (takeFreeze q d i at' stepped s) ∧
      (takeFreeze q d i at' stepped s).tel.freezeSeq = s.tel.freezeSeq ∧ logged 0x0C01 (takeFreeze q d i at' stepped s) := by
  have hnew : newSweep s.tel.freezes (nextSeq32 s.tel.freezeSeq) at' stepped =
      (s.tel.freezes ++ [{ snap := { seq := 0 }, missed := true }], false) := if_pos hn
  have hfree : s.tel.latchedInTick.contains q = false := by simpa using hl
  simp only [takeFreeze, hfree, hu, hnew, Bool.false_eq_true, if_false]
  refine ⟨counted_of_tel _ (kiln_tel _ _ _) rfl, ?_, kiln_head _ _ _⟩
  rw [kiln_tel]
  rfl

end

section

variable {q : Quad} {d : Domain'} {i : Fin 512} {s : State} {n : Nat} {w : Sweep}

/-- The state of a die that has fired an entry keeps all but the entries and the log. -/
theorem counterFreeze_takes (hf : firesNext s q.val d.val i.val 1 = true) (hl : q.val ∉ s.tel.latchedInTick)
    (hu : unfired s.tel.freezes q.val = none) (hn : unpublished s.tel.freezes < 2) :
    Completes (.counterFreeze q d i) s fun t => ∃ x, t.tel.freezes = s.tel.freezes ++ [x] ∧ x.snap.seq = nextSeq32 s.tel.freezeSeq ∧
      x.missed = false ∧ tabFind x.fired q.val = some s.now ∧ x.snap.values = (dieCounters s q.val).foldl (fun m e => tabPut e.1 e.2 m) [] := by
  have hfired := keeps_fireEntry q.val d.val i.val s
  have htel : (fireEntry q.val d.val i.val s).tel = s.tel := hfired.same .tel rfl
  have hpow : (fireEntry q.val d.val i.val s).pow = s.pow := hfired.same .pow rfl
  have hnow : (fireEntry q.val d.val i.val s).now = s.now := hfired.same .now rfl
  have hdie : dieCounters (fireEntry q.val d.val i.val s) q.val = dieCounters s q.val := by simp only [dieCounters, htel, hpow]
  refine ⟨_, (if_pos hf : execCounterFreeze q d i s = _), ?_⟩
  rw [← htel] at hl hu hn ⊢
  rw [← hdie, ← hnow]
  exact takeFreeze_takes hl hu hn

theorem counterFreeze_misses (hf : firesNext s q.val d.val i.val 1 = true) (hl : q.val ∉ s.tel.latchedInTick)
    (hu : unfired s.tel.freezes q.val = none) (hn : 2 ≤ unpublished s.tel.freezes) :
    Completes (.counterFreeze q d i) s fun t => counted cTelFreezeMissed q.val 1 s t ∧ t.tel.freezeSeq = s.tel.freezeSeq ∧ logged 0x0C01 t := by
  have hfired := keeps_fireEntry q.val d.val i.val s
  have htel : (fireEntry q.val d.val i.val s).tel = s.tel := hfired.same .tel rfl
  refine ⟨_, (if_pos hf : execCounterFreeze q d i s = _), ?_⟩
  rw [← htel] at hl hu hn ⊢
  obtain ⟨hcount, hseq, hlog⟩ := takeFreeze_misses (d := d.val) (i := i.val) (at' := (firingInstant s q.val d.val i.val).1)
    (stepped := (firingInstant s q.val d.val i.val).2) hl hu hn
  exact ⟨counts_then_counted (l := []) (counts_of_keeps hfired) hcount, hseq, hlog⟩

/-- A late sweep is counted in its place and keeps its values. -/
theorem countLateSweep_place (h : s.tel.freezes[n]? = some w) :
    ∃ x, (countLateSweep q.val n s).tel.freezes[n]? = some x ∧ x.snap = w.snap := by
  have hn : n < s.tel.freezes.length := (List.getElem?_eq_some_iff.mp h).1
  simp only [countLateSweep, h]
  split
  · exact ⟨w, h, rfl⟩
  · exact ⟨{ w with late := q.val :: w.late }, List.getElem?_set_self hn, rfl⟩

theorem freezeSweepDone_done (hr : runningSweep s q.val = some n) (h : s.tel.freezes[n]? = some w) :
    Completes (.freezeSweepDone q) s fun t => ∃ x, t.tel.freezes[n]? = some x ∧ q.val ∈ x.done ∧ x.snap = w.snap := by
  obtain ⟨x, hx, hsnap⟩ := countLateSweep_place (q := q) h
  have hn : n < (countLateSweep q.val n s).tel.freezes.length := (List.getElem?_eq_some_iff.mp hx).1
  change ∃ t, execFreezeSweepDone q s = _ ∧ _
  simp only [execFreezeSweepDone, hr, hx]
  refine ⟨_, rfl, { x with done := q.val :: x.done }, ?_, List.mem_cons_self, hsnap⟩
  split
  · rw [kiln_tel]
    exact List.getElem?_set_self hn
  · exact List.getElem?_set_self hn

theorem freezePublish_publishes (h : s.tel.freezes.find? (fun w => !w.missed) = some w) (hw : 4 ≤ w.done.length) :
    Completes .freezePublish s fun t => t.tel.frozen = some w.snap ∧ t.tel.previous = s.tel.frozen := by
  change ∃ t, execFreezePublish s = _ ∧ _
  simp only [execFreezePublish, h, if_neg (by omega : ¬ w.done.length < 4)]
  exact ⟨_, rfl, rfl, rfl⟩

/-! ### Rollovers (R383) -/

theorem histogramRollover_takes (hf : firesNext s q.val d.val i.val 2 = true) (hu : unfired s.tel.rollovers q.val = none)
    (hn : unpublished s.tel.rollovers = 0) : Completes (.histogramRollover q d i) s fun t =>
      t.tel.rolloverSeq = nextSeq32 s.tel.rolloverSeq ∧
        ∀ k, tabFind t.tel.hist k = if dieOfHist k = q.val then none else tabFind s.tel.hist k := by
  have htel : (fireEntry q.val d.val i.val s).tel = s.tel := (keeps_fireEntry q.val d.val i.val s).same .tel rfl
  refine ⟨_, (if_pos hf : execHistogramRollover q d i s = _), ?_⟩
  rw [← htel] at hu hn ⊢
  simp only [takeRollover, hu, hn, if_neg (by omega : ¬ 0 ≥ 1)]
  refine ⟨rfl, fun k => ?_⟩
  split
  case isTrue hk => exact tabFind_filter_none (fun v => by simp [hk]) _
  case isFalse hk => exact tabFind_filter_keeps (fun v => by simp [hk]) _

theorem histogramRollover_misses (hf : firesNext s q.val d.val i.val 2 = true) (hu : unfired s.tel.rollovers q.val = none)
    (hn : 1 ≤ unpublished s.tel.rollovers) : Completes (.histogramRollover q d i) s fun t => counted cTelRolloverMissed q.val 1 s t ∧
      t.tel.hist = s.tel.hist ∧ logged 0x0C02 t := by
  have hfired := keeps_fireEntry q.val d.val i.val s
  have htel : (fireEntry q.val d.val i.val s).tel = s.tel := hfired.same .tel rfl
  refine ⟨_, (if_pos hf : execHistogramRollover q d i s = _), ?_⟩
  rw [← htel] at hu hn ⊢
  simp only [takeRollover, hu, if_pos (show unpublished (fireEntry q.val d.val i.val s).tel.rollovers ≥ 1 from hn)]
  refine ⟨counts_then_counted (l := []) (counts_of_keeps hfired) (counted_of_tel _ (kiln_tel _ _ _) rfl), ?_, kiln_head _ _ _⟩
  rw [kiln_tel]
  rfl

theorem rolloverPublish_publishes (h : s.tel.rollovers.find? (fun w => !w.missed) = some w) (hw : 4 ≤ w.fired.length) :
    Completes .rolloverPublish s fun t => t.tel.closed = some w.snap := by
  change ∃ t, execRolloverPublish s = _ ∧ _
  simp only [execRolloverPublish, h, if_neg (by omega : ¬ w.fired.length < 4)]
  exact ⟨_, rfl, rfl⟩

end

/-! ### Exporters and scrub epochs (R300, R391) -/

section

variable {q : Quad} {d : Domain'} {i : Fin 512} {s : State}

/-- A single record that fits is sent in one frame. -/
theorem sendExport_sends {e : Nat} {r : Bytes} (hw : (exporterOf s e).waiting = [r]) (hroom : r.length ≤ exportRoom (exporterOf s e)) :
    exporterOf (sendExport e s) e = { exporterOf s e with waiting := [], seq := wrapAdd 32 (exporterOf s e).seq 1, lost := 0 } ∧
      counted cTelExportFrames e 1 s (sendExport e s) := by
  have hfit : fitRecords (exportRoom (exporterOf s e)) (exporterOf s e).waiting = ([r], []) := by simp [hw, fitRecords, hroom]
  have htel : ∃ f, (sendExport e s).tel = (count cTelExportFrames e 1 (setExporter e
      { exporterOf s e with waiting := [], seq := wrapAdd 32 (exporterOf s e).seq 1, lost := 0 } (newFrame f s).2)).tel := by
    simp only [sendExport, hfit]
    split
    · exact ⟨_, (keeps_deliver _ _).same .tel rfl⟩
    · exact ⟨_, rfl⟩
  obtain ⟨f, hf⟩ := htel
  refine ⟨?_, counted_of_tel _ hf rfl⟩
  rw [exporterOf_of_tel e hf]
  exact exporterOf_setExporter e _ (newFrame f s).2

theorem telemetryEpoch_elsewhere (hf : firesNext s q.val d.val i.val 0x12 = true) (ht : entryTarget (entryOf s d.val i.val) ≠ q.val) :
    Completes (.telemetryEpoch q d i) s fun t => t.tel.exporters = s.tel.exporters := by
  refine ⟨_, (if_pos hf : execTelemetryEpoch q d i s = _), ?_⟩
  rw [if_neg (by simp [Ne.symm ht])]
  exact congrArg ObserveState.exporters ((keeps_fireEntry q.val d.val i.val s).same .tel rfl)

theorem telemetryEpoch_sends {r : Bytes} (hf : firesNext s q.val d.val i.val 0x12 = true) (ht : entryTarget (entryOf s d.val i.val) = q.val)
    (hon : exporterOn s q.val = true) (hup : (exporterOf s q.val).down = false) (hw : (exporterOf s q.val).waiting = [r])
    (hroom : r.length ≤ exportRoom (exporterOf s q.val)) :
    Completes (.telemetryEpoch q d i) s fun t => (exporterOf t q.val).waiting = [] ∧
      (exporterOf t q.val).seq = wrapAdd 32 (exporterOf s q.val).seq 1 ∧ counted cTelExportFrames q.val 1 s t := by
  have hfired := keeps_fireEntry q.val d.val i.val s
  have hsame := exporterOf_of_tel q.val (hfired.same .tel rfl)
  refine ⟨sendExport q.val (fireEntry q.val d.val i.val s), (if_pos hf : execTelemetryEpoch q d i s = _).trans ?_, ?_⟩
  · simp [ht, hon, hup, hw, flushExporter, hsame]
  · rw [← hsame] at hw hroom ⊢
    obtain ⟨hv, hcount⟩ := sendExport_sends hw hroom
    rw [hv]
    exact ⟨rfl, rfl, counts_then_counted (l := []) (counts_of_keeps hfired) hcount⟩

theorem scrubEpoch_starts (hf : firesNext s q.val d.val i.val 0x11 = true) : Completes (.scrubEpoch q d i) s fun t =>
    tabGet 0 (bufQuad t q.val).scrubbing (entryTarget (entryOf s d.val i.val)) =
      if tabGet 0 (bufQuad s q.val).scrubbing (entryTarget (entryOf s d.val i.val)) = 0 then 1
      else max (tabGet 0 (bufQuad s q.val).scrubbing (entryTarget (entryOf s d.val i.val))) 2 := by
  have hbuf : bufQuad (fireEntry q.val d.val i.val s) q.val = bufQuad s q.val := by
    rw [bufQuad, (keeps_fireEntry q.val d.val i.val s).same .buf rfl, bufQuad]
  refine ⟨_, (if_pos hf : execScrubEpoch q d i s = _), ?_⟩
  dsimp only
  rw [bufQuad_modQuad, tabGet_mod, hbuf]
  simp only [beq_iff_eq]

/-! ### Periods and slots (R29, R30, R32, R273) -/

theorem backgroundPeriodEnd_scrub {c : Fin 6} (hc : c.val < 4) (h : tabGet 0 (bufQuad s q.val).scrubbing c.val = 2) :
    Completes (.backgroundPeriodEnd q c) s fun t => tabGet 0 (bufQuad t q.val).scrubbing c.val = 3 ∧ logged 0x080B t := by
  have hexec : exec (.backgroundPeriodEnd q c) s = .next (countScrubOverrun q.val c.val 3 s) := by
    change execBackgroundPeriodEnd q c s = _
    unfold execBackgroundPeriodEnd
    split
    case h_1 h4 => omega
    case h_2 h5 => omega
    case h_3 => rw [h]; rfl
  refine ⟨_, hexec, ?_, kiln_head _ _ _⟩
  rw [countScrubOverrun, bufQuad, kiln_buf]
  exact (congrArg (fun b => tabGet 0 (BufQuad.scrubbing b) c.val) (bufQuad_modQuad _ _ _)).trans (tabGet_set 0 3 c.val (bufQuad s q.val).scrubbing)

theorem backgroundPeriodEnd_sweep {n : Nat} {w : Sweep} (hr : runningSweep s q.val = some n) (h : s.tel.freezes[n]? = some w)
    (hlate : q.val ∉ w.late) (hdue : tabGet 0 w.fired q.val + tMs < s.now) :
    Completes (.backgroundPeriodEnd q 4) s fun t => counted cTelSweepOverruns q.val 1 s t := by
  have hexec : exec (.backgroundPeriodEnd q 4) s = .next (countLateSweep q.val n s) := by
    change execBackgroundPeriodEnd q 4 s = _
    simp [execBackgroundPeriodEnd, hr]
  have hlate' : ¬ (w.late.contains q.val || decide (s.now ≤ tabGet 0 w.fired q.val + tMs)) = true := by
    simp [hlate, hdue]
  refine ⟨_, hexec, ?_⟩
  simp only [countLateSweep, h, if_neg hlate']
  exact counted_count_of _ _ _ _ rfl

theorem backgroundSlotGrant_completes (e : Engine) : Completes (.backgroundSlotGrant (some e) none true) s fun t =>
    engineOf t e.val = { engineOf s e.val with cleanSec := (datapathStamp s 0).sec, cleanNs := (datapathStamp s 0).ns } :=
  ⟨_, rfl, engineOf_setEngine _ _ _⟩

theorem backgroundSlotGrant_mismatch (e : Engine) (o : Nat) : Completes (.backgroundSlotGrant (some e) (some o) false) s fun t =>
    raised 28 9 e.val s t ∧ logged 0x0704 t ∧ t.sig = s.sig := by
  refine ⟨sigMismatch e.val o s, rfl, raised_detect (fun _ => kilnInj_flt_inFlight _ _ _ _) _ _ _,
    detect_logged fun _ => kilnInj_head _ _ _ _, ?_⟩
  rw [sigMismatch, detect_sig, kilnInj_sig]

/-! ### Faults of telemetry (R395; their events are logged at detection, the model's choice, assumption 38) -/

theorem detect_tel (b k i : Nat) (contain : Bool → State → State) (s : State) :
    (detect b k i contain s).tel = (contain (injectedNow s b k i) s).tel := raiseFault_tel _ _ _ _ _

/-- The word at `key` of quadrant `q` is lost. -/
def wordLost (q : Nat) (hist : Bool) (key : Nat) (inj : Bool) (s : State) : State :=
  let (n, s1) := takeFree s
  let (a, s2) := takeFree s1
  let lose := fun (v : Nat) => v - n % (v + 1)
  let s3 := modTel (fun t =>
    if hist then { t with hist := tabMod 0 key lose t.hist, histInexact := tabPut key true t.histInexact }
    else { t with counters := tabMod 0 key lose t.counters, inexact := tabPut key true t.inexact }) s2
  kilnInj inj 0x0C04 [(1, q), (1, a), (4, a / 256)] (count cTelInexact q 1 s3)

theorem telCounter_eq {hist : Bool} {key : Nat} (h : (if hist then dieOfHist key else dieOfKey key) = q.val) :
    exec (.telCounter q hist key) s = .next (detect 51 7 q.val (wordLost q.val hist key) s) := by
  change execTelCounter q hist key s = _
  rw [execTelCounter, if_neg (by simp [h])]
  rfl

theorem wordLost_raises (hist : Bool) (key : Nat) : raised 51 7 q.val s (detect 51 7 q.val (wordLost q.val hist key) s) ∧
    logged 0x0C04 (detect 51 7 q.val (wordLost q.val hist key) s) := by
  refine ⟨raised_detect (fun inj => ?_) _ _ _, detect_logged fun inj => ?_⟩
  · rw [wordLost, kilnInj_flt_inFlight]
    rfl
  · rw [wordLost]
    exact kilnInj_head _ _ _ _

theorem telCounter_histogram {key : Nat} (h : dieOfHist key = q.val) : Completes (.telCounter q true key) s fun t => raised 51 7 q.val s t ∧
    logged 0x0C04 t ∧ tabFind t.tel.histInexact key = some true ∧ counted cTelInexact q.val 1 s t := by
  obtain ⟨hraised, hlogged⟩ := wordLost_raises (q := q) (s := s) true key
  refine ⟨_, telCounter_eq (hist := true) h, hraised, hlogged, ?_, counted_detect (fun inj => ?_) _ _ _⟩
  · rw [detect_tel, wordLost, kilnInj_tel]
    exact tabFind_put _ _ _
  · exact counted_of_tel _ (kilnInj_tel _ _ _ _) rfl

theorem telCounter_counter {key : Nat} (h : dieOfKey key = q.val) : Completes (.telCounter q false key) s fun t => raised 51 7 q.val s t ∧
    logged 0x0C04 t ∧ tabFind t.tel.inexact key = some true := by
  obtain ⟨hraised, hlogged⟩ := wordLost_raises (q := q) (s := s) false key
  refine ⟨_, telCounter_eq (hist := false) h, hraised, hlogged, ?_⟩
  rw [detect_tel, wordLost, kilnInj_tel]
  exact tabFind_put _ _ _

theorem loseRecords_inFlight (e n : Nat) (s : State) : (loseRecords e n s).flt.inFlight = s.flt.inFlight := by
  unfold loseRecords
  dsimp only
  split
  · rfl
  · rw [kilnOnce_flt_inFlight]
    rfl

/-- Lost records change an exporter's count of them alone. -/
theorem exporterOf_loseRecords (e n : Nat) (s : State) : ∃ m, exporterOf (loseRecords e n s) e = { exporterOf s e with lost := m } := by
  unfold loseRecords
  dsimp only
  split
  · exact ⟨_, rfl⟩
  · exact ⟨satAdd 32 (exporterOf s e).lost n, (exporterOf_of_tel e (kilnOnce_tel _ _ _ _)).trans (exporterOf_setExporter e _ s)⟩

/-- The exporter stays down until its reload (the model's choice, assumption 82). -/
theorem telExport_completes (e : Fin 4) (n : Nat) : Completes (.telExport e n) s fun t => raised 52 16 e.val s t ∧ logged 0x0C06 t ∧
    (exporterOf t e.val).down = true ∧
    (exporterOf t e.val).waiting = (exporterOf s e.val).waiting.drop (min n (exporterOf s e.val).waiting.length) := by
  refine ⟨_, rfl, raised_detect (fun inj => ?_) _ _ _, detect_logged fun _ => kilnInj_head _ _ _ _, ?_⟩
  · rw [kilnInj_flt_inFlight, loseRecords_inFlight]
    rfl
  · let k := min n (exporterOf s e.val).waiting.length
    obtain ⟨m, hm⟩ := exporterOf_loseRecords e.val k
      (setExporter e.val { exporterOf s e.val with waiting := (exporterOf s e.val).waiting.drop k, down := true } s)
    rw [exporterOf_setExporter] at hm
    rw [exporterOf_of_tel e.val (detect_tel _ _ _ _ _), exporterOf_of_tel e.val (kilnInj_tel _ _ _ _), hm]
    exact ⟨rfl, rfl⟩

end

/-- Settles O38: a lemma for each freeze, rollover, epoch, period and fault. The events of the faults at their detection and the exporter that
stays down until its reload are the model's choice (assumptions 38 and 82). -/
theorem snapshotsAndBackgroundTasks : Obligations.SnapshotsAndBackgroundTasks :=
  ⟨fun _ _ _ _ _ _ =>
    ⟨fun hf hl hu => ⟨counterFreeze_takes hf hl hu, counterFreeze_misses hf hl hu⟩, freezeSweepDone_done, freezePublish_publishes,
      fun hf hu => ⟨histogramRollover_takes hf hu, histogramRollover_misses hf hu⟩, rolloverPublish_publishes⟩,
  fun _ _ _ e eng o n _ _ =>
    ⟨fun hf => ⟨telemetryEpoch_elsewhere hf, fun _ => telemetryEpoch_sends hf⟩, scrubEpoch_starts, fun _ => backgroundPeriodEnd_scrub,
      fun _ => backgroundPeriodEnd_sweep, ⟨_, rfl, rfl⟩, backgroundSlotGrant_completes eng, backgroundSlotGrant_mismatch eng o,
      telCounter_histogram, telCounter_counter, telExport_completes e n, ⟨_, rfl, exporterOf_setExporter _ _ _⟩⟩⟩

end Sys2Proof.Proofs
end

section
/-!
PROOFS. Power objects read and write (O39): a cap write is in force whether or not the floor lets it be reached (R410), and ENERGY_READ answers
the live energy or a bank (R409).
-/

namespace Sys2Proof.Proofs

open Sys2Proof Sys2Proof.Machine Sys2Proof.Laws

section

variable {c : Cmd} {s : State}

/-- The cap `b` stands, and its change is logged. -/
def capLogged (b : Bytes) (s : State) : State :=
  kiln 0x0D01 [(4, u32 b 0), (1, u8 b 4), (1, u8 b 5)] (modPow (fun t => { t with cap := if b == powerCapDefault then [] else b }) s)

/-- What a new cap `b` leaves before its reach is judged: its entries are placed anew when they change. -/
def capWritten (b : Bytes) (s : State) : State :=
  if slice (powerCap s) 8 5 == slice b 8 5 && u8 (powerCap s) 5 == u8 b 5 then capLogged b s else placePower (capLogged b s)

/-- Whether the cap `b` lies below the floor that the last measurements allow. -/
def capBelowFloor (b : Bytes) (s : State) : Bool :=
  u32 b 0 != 0 && decide (u32 b 0 * 100 < floorEstimate s s.pow.last (capEffective s s.pow.last.package).2)

theorem capWritten_keeps (b : Bytes) (s : State) : Keeps [.time] (capLogged b s) (capWritten b s) := by
  unfold capWritten
  split
  · exact Keeps.refl _ _
  · exact keeps_placePower _

theorem capWritten_cap (b : Bytes) (s : State) : (capWritten b s).pow.cap = if b == powerCapDefault then [] else b := by
  rw [(capWritten_keeps b s).same .pow rfl, capLogged, kiln_pow]
  rfl

theorem capWritten_logged (b : Bytes) (s : State) : logged 0x0D01 (capWritten b s) := by
  rw [logged, (capWritten_keeps b s).same .flt rfl]
  exact kiln_head _ _ _

theorem capWritten_host (b : Bytes) (s : State) : (capWritten b s).host = s.host := by
  rw [(capWritten_keeps b s).same .host rfl, capLogged, kiln_host]
  rfl

/-- What POWER_CAP leaves, with its reach judged. -/
def capApplied (b : Bytes) (s : State) : State := modPow (fun t => { t with belowFloor := capBelowFloor b (capWritten b s) }) (capWritten b s)

theorem capApplied_cap (b : Bytes) (s : State) : (capApplied b s).pow.cap = if b == powerCapDefault then [] else b := capWritten_cap b s

theorem capApplied_logged (b : Bytes) (s : State) : logged 0x0D01 (capApplied b s) := capWritten_logged b s

theorem capApplied_host (b : Bytes) (s : State) : (capApplied b s).host = s.host := capWritten_host b s

/-- A state whose stored cap is `b`, or nothing for the default, has the cap `b`. -/
theorem powerCap_eq {b : Bytes} {t : State} (hb : b ≠ []) (h : t.pow.cap = if b == powerCapDefault then [] else b) : powerCap t = b := by
  rw [powerCap, h]
  split
  case isTrue hd => exact (beq_iff_eq.mp hd).symm
  case isFalse hd => exact if_neg (by simpa using hb)

theorem powerCapWrite_completes (hb : given c s ≠ []) (hpass : passes opPowerCapWrite c s = true) :
    Completes (.powerCapWrite c) s fun t => powerCap t = given c s ∧ logged 0x0D01 t ∧
      ∃ st, answered opPowerCapWrite c st [] [] s t ∧ (st = .ok ∨ st = .capUnreachable) ∧ (u32 (given c s) 0 = 0 → st = .ok) := by
  let v := takenState c s
  obtain ⟨t, ht, hanswered, hcap, hlog⟩ := answers_of (i := .powerCapWrite c) (u := capApplied (given c s) v)
    (st := if capBelowFloor (given c s) (capWritten (given c s) v) then .capUnreachable else .ok)
    (P := fun t => t.pow.cap = (capApplied (given c s) v).pow.cap ∧ t.flt = (capApplied (given c s) v).flt) rfl hpass rfl
    (ended_of_same (capApplied_host _ _)) ⟨congrArg PowerState.cap (endCommand_pow _ _), endCommand_flt _ _⟩
  refine ⟨t, ht, powerCap_eq hb (hcap.trans (capApplied_cap _ _)), ?_, _, hanswered, ?_, fun hzero => ?_⟩
  · rw [logged, hlog]
    exact capApplied_logged _ _
  · split
    · exact .inr rfl
    · exact .inl rfl
  · exact if_neg (by simp [capBelowFloor, hzero])

theorem energyRead_reads {snap : Snapshot} (h : readBank s 0 (u8 (given c s) 0) = some snap) :
    Reads opEnergyRead c (.energyRead c) s (counterReply s 0 (u8 (given c s) 0)
      (if u8 (given c s) 0 = 0 then { snap with values := s.pow.energy } else snap)
      ((List.range (u16 (given c s) 8)).map fun k => some (counterKey 0 (u8 (given c s) 1) (u32 (given c s) 4 + k) 0))) := by
  refine reads_of rfl fun _ => ?_
  have hbank : readBank (takenState c s) 0 (u8 (given c s) 0) = some snap := h
  simp only [hbank, beq_iff_eq]
  rfl

end

/-- Settles O39: the reads answer the state, and a cap write is in force with one of its two statuses. -/
theorem powerObjectsReadAndWrite : Obligations.PowerObjectsReadAndWrite := fun _ _ =>
  ⟨reads_of rfl fun _ => rfl, powerCapWrite_completes, reads_of rfl fun _ => rfl, reads_of rfl fun _ => rfl, fun _ => energyRead_reads⟩

end Sys2Proof.Proofs
end

section
/-!
PROOFS. Test mode needs its key (O43): the key FAULT_TEST_ENABLE answers, what a right, wrong or late key leaves, and the point an injection
arms (R441, R442).
-/

namespace Sys2Proof.Proofs

open Sys2Proof Sys2Proof.Machine Sys2Proof.Laws

/-! ### Alerts -/

section

variable (was : Bool) (b : Nat) (s : State)

theorem noteAlert_flt : (noteAlert was s).flt = s.flt := (keeps_noteAlert was s).same .flt rfl

/-- A vector is sent, or waits among the pending bits. -/
theorem signal_host (v : Nat) (s : State) : ∃ pba, (signal v s).host = { s.host with pba := pba } := by
  unfold signal
  split
  · exact ⟨_, rfl⟩
  · split
    · exact ⟨_, rfl⟩
    · exact ⟨_, rfl⟩

/-- An in-band interrupt changes when it was last raised. -/
theorem raiseIbi_host (alert : Bool) (d : Byte) (s : State) : ∃ a c, (raiseIbi alert d s).host =
    { s.host with i3c := { s.host.i3c with alertIbi := a, completionIbi := c } } := by
  unfold raiseIbi
  split
  · cases alert with
    | true => exact ⟨_, _, rfl⟩
    | false => exact ⟨_, _, rfl⟩
  · exact ⟨_, _, rfl⟩

/-- An alert changes what awaits the host over PCIe and I3C. -/
theorem noteAlert_host : ∃ pba i3c, (noteAlert was s).host = { s.host with pba := pba, i3c := i3c } := by
  unfold noteAlert
  split
  · exact ⟨_, _, rfl⟩
  · split
    · exact ⟨_, _, rfl⟩
    · obtain ⟨pba, hpba⟩ := signal_host 164 (emit (.pin pinAlert false) s)
      obtain ⟨a, c, hi3c⟩ := raiseIbi_host true 0x40 (signal 164 (emit (.pin pinAlert false) s))
      exact ⟨pba, _, by rw [hi3c, hpba]; rfl⟩

theorem noteAlert_ended : (noteAlert was s).host.ended = s.host.ended := by
  obtain ⟨_, _, h⟩ := noteAlert_host was s
  rw [h]

theorem latchBit_flt : (latchBit b s).flt = { s.flt with latch := s.flt.latch ||| BitVec.ofNat 64 (2 ^ b) } := noteAlert_flt _ _

theorem latchBit_ended : (latchBit b s).host.ended = s.host.ended := noteAlert_ended _ _

/-- A latched bit reads set. -/
theorem latchBit_latched (h : b < 64) : (latchBit b s).flt.latch.getLsbD b = true := by
  rw [latchBit_flt, BitVec.getLsbD_or, BitVec.getLsbD_ofNat]
  simp [h]

end

/-! ### Keys (R441) -/

section

variable {c : Cmd} {key : BitVec 32} {q : PendingKey} {s : State}

/-- The key that FAULT_TEST_ENABLE answers is the next free value (the model's choice, assumption 1); it replaces a pending one (assumption
117). -/
theorem faultTestEnable_answers (hpass : passes opFaultTestEnable c s = true) (hi3c : (slotOf s c.slot.val).i3c = false)
    (hlock : s.flt.lockedUntil ≤ s.now) : Completes (.faultTestEnable c) s fun t =>
      answered opFaultTestEnable c .ok (toLe 4 (BitVec.ofNat 32 (Config.freeNat s.free)).toNat) [] s t ∧
      t.flt.pendingKey = some { key := BitVec.ofNat 32 (Config.freeNat s.free), slot := c.slot.val, issued := s.now } ∧
      t.flt.testMode = s.flt.testMode := by
  refine answers_of rfl hpass (u := modFlt (fun f => { f with
    pendingKey := some { key := BitVec.ofNat 32 (Config.freeNat s.free), slot := c.slot.val, issued := s.now } }) (takeFree (takenState c s)).2)
    ?_ rfl ⟨rfl, rfl⟩
  have hslot : (slotOf (takenState c s) c.slot.val).i3c = false := (slotOf_takeCommand_i3c _ _).trans hi3c
  have htime : ¬ (takenState c s).now < (takenState c s).flt.lockedUntil := not_lt.mpr hlock
  simp only [hslot, htime, if_false, Bool.false_eq_true]
  rfl

theorem faultTestEnable_locked (hpass : passes opFaultTestEnable c s = true) (hi3c : (slotOf s c.slot.val).i3c = false)
    (hlock : s.now < s.flt.lockedUntil) : Completes (.faultTestEnable c) s fun t =>
      answered opFaultTestEnable c .denied (toLe 2 0xFFFF) [] s t := by
  have hslot : (slotOf (takenState c s) c.slot.val).i3c = false := (slotOf_takeCommand_i3c _ _).trans hi3c
  have htime : (takenState c s).now < (takenState c s).flt.lockedUntil := hlock
  obtain ⟨t, ht, h, -⟩ := rejects_of (i := .faultTestEnable c) (st := .denied) (data := toLe 2 0xFFFF) rfl hpass
    (by simp only [hslot, htime, if_true, if_false, Bool.false_eq_true]; rfl)
  exact ⟨t, ht, h⟩

theorem faultTestEnable_i3c (hpass : passes opFaultTestEnable c s = true) (hi3c : (slotOf s c.slot.val).i3c = true) :
    Completes (.faultTestEnable c) s fun t => answered opFaultTestEnable c .notsup (toLe 2 0xFFFF) [] s t ∧ t.flt = s.flt := by
  have hslot : (slotOf (takenState c s) c.slot.val).i3c = true := (slotOf_takeCommand_i3c _ _).trans hi3c
  obtain ⟨t, ht, h, hsame⟩ := rejects_of (i := .faultTestEnable c) (st := .notsup) (data := toLe 2 0xFFFF) rfl hpass
    (by simp only [hslot, if_true]; rfl)
  exact ⟨t, ht, h, hsame .flt (by decide)⟩

theorem faultTestDisable_i3c (hpass : passes opFaultTestDisable c s = true) (hi3c : (slotOf s c.slot.val).i3c = true) :
    Completes (.faultTestDisable c) s fun t => answered opFaultTestDisable c .notsup (toLe 2 0xFFFF) [] s t ∧ t.flt = s.flt := by
  have hslot : (slotOf (takenState c s) c.slot.val).i3c = true := (slotOf_takeCommand_i3c _ _).trans hi3c
  obtain ⟨t, ht, h, hsame⟩ := rejects_of (i := .faultTestDisable c) (st := .notsup) (data := toLe 2 0xFFFF) rfl hpass
    (by simp only [hslot, if_true]; rfl)
  exact ⟨t, ht, h, hsame .flt (by decide)⟩

/-- Test mode has ended, and a mode that ran has disarmed every point. -/
theorem endTestMode_ends (s : State) : (endTestMode s).flt.testMode = false ∧ (s.flt.testMode = true → (endTestMode s).flt.points = []) := by
  unfold endTestMode
  split
  case isTrue h => exact ⟨kiln_flt_testMode _ _ _, fun _ => kiln_flt_points _ _ _⟩
  case isFalse h => exact ⟨by simpa using h, fun ht => absurd ht h⟩

theorem faultTestDisable_writes (hi3c : (slotOf s c.slot.val).i3c = false) : Writes opFaultTestDisable c (.faultTestDisable c) s fun t =>
    t.flt.testMode = false ∧ (s.flt.testMode = true → t.flt.points = []) := by
  have hslot : (slotOf (takenState c s) c.slot.val).i3c = false := (slotOf_takeCommand_i3c _ _).trans hi3c
  refine writes_of rfl fun _ => ⟨endTestMode (takenState c s), ?_, ended_of_same ((keeps_endTestMode _).same .host rfl), ?_⟩
  · simp only [hslot, if_false, Bool.false_eq_true]
    rfl
  · rw [endCommand_flt]
    exact endTestMode_ends (takenState c s)

/-- A void key: the third within 60 s locks FAULT_TEST_ENABLE. -/
theorem voidKey_voids (s : State) : (voidKey s).flt.pendingKey = none ∧ (voidKey s).flt.testMode = s.flt.testMode ∧ (voidKey s).now = s.now ∧
    (2 ≤ (s.flt.voided.filter fun x => s.now ≤ x + 60 * tSec).length → (voidKey s).flt.lockedUntil = s.now + 60 * tSec) := by
  unfold voidKey
  dsimp only
  split
  case isTrue h => exact ⟨rfl, rfl, rfl, fun _ => rfl⟩
  case isFalse h =>
    refine ⟨rfl, rfl, rfl, fun h2 => absurd ?_ h⟩
    rw [List.length_cons]
    omega

theorem fltTestKeyWrite_right (hp : s.flt.pendingKey = some q) (hlive : barLive s = true) (hkey : q.key = key) (hin : s.now ≤ q.issued + tSec) :
    Completes (.fltTestKeyWrite key) s fun t => t.flt.testMode = true ∧ t.flt.testSlot = q.slot ∧ t.flt.pendingKey = none ∧ logged 0x0E08 t := by
  have hexec : exec (.fltTestKeyWrite key) s = .next (kiln 0x0E08 [(1, q.slot), (1, 1)]
      (modFlt (fun f => { f with pendingKey := none, testMode := true, testSlot := q.slot }) s)) := by
    change execFltTestKeyWrite key s = _
    simp [execFltTestKeyWrite, hp, hlive, hkey, hin]
  exact ⟨_, hexec, kiln_flt_testMode _ _ _, kiln_flt_testSlot _ _ _, kiln_flt_pendingKey _ _ _, kiln_head _ _ _⟩

theorem fltTestKeyWrite_wrong (hp : s.flt.pendingKey = some q) (hlive : barLive s = true) (hbad : q.key ≠ key ∨ q.issued + tSec < s.now) :
    Completes (.fltTestKeyWrite key) s fun t => t.flt.pendingKey = none ∧ t.flt.testMode = s.flt.testMode ∧
      (2 ≤ (s.flt.voided.filter fun x => s.now ≤ x + 60 * tSec).length → t.flt.lockedUntil = s.now + 60 * tSec) := by
  have hno : ¬ (q.key == key && decide (s.now ≤ q.issued + tSec)) = true := by
    simp only [Bool.and_eq_true, beq_iff_eq, decide_eq_true_eq]
    rintro ⟨hkey, hin⟩
    rcases hbad with h | h
    · exact h hkey
    · omega
  have hexec : exec (.fltTestKeyWrite key) s = .next (voidKey s) := by
    change execFltTestKeyWrite key s = _
    simp only [execFltTestKeyWrite, hp, hlive, Bool.not_true, if_neg hno, if_false, Bool.false_eq_true]
  obtain ⟨hpending, hmode, -, hlock⟩ := voidKey_voids s
  exact ⟨_, hexec, hpending, hmode, hlock⟩

theorem testKeyTimeout_voids (hp : s.flt.pendingKey = some q) : Completes .testKeyTimeout s fun t => t.flt.pendingKey = none ∧
    q.issued + tSec ≤ t.now ∧ t.flt.testMode = s.flt.testMode := by
  have hexec : exec .testKeyTimeout s = .next (voidKey (reach (q.issued + tSec) s)) := by
    change execTestKeyTimeout s = _
    simp only [execTestKeyTimeout, hp]
  obtain ⟨hpending, hmode, hnow, -⟩ := voidKey_voids (reach (q.issued + tSec) s)
  exact ⟨_, hexec, hpending, hnow ▸ le_reach_now _ _, hmode⟩

theorem testKeyLockoutEnd_ends (h : s.flt.lockedUntil ≠ 0) : Completes .testKeyLockoutEnd s fun t => t.flt.lockedUntil = 0 ∧
    s.flt.lockedUntil ≤ t.now :=
  ⟨_, (if_neg (by simpa using h) : execTestKeyLockoutEnd s = _), rfl, le_reach_now _ _⟩

end

/-! ### Injection (R442) -/

section

variable {c : Cmd} {s : State}

/-- The point that FAULT_INJECT's payload describes. -/
def pointOf (b : Bytes) : InjPoint :=
  { bit := u8 b 0, kind := u8 b 1, flags := u8 b 2, siteKind := u8 b 3, siteIndex := u32 b 4, left := u16 b 8, intervalUs := u32 b 12 }

/-- The points that stand beside one of this bit, kind and site, and it when it is enabled. -/
def pointsWith (p : InjPoint) (l : List InjPoint) : List InjPoint :=
  (l.filter fun x => !(x.bit == p.bit && x.kind == p.kind && x.siteIndex == p.siteIndex)) ++ (if bit p.flags 0 then [p] else [])

theorem armPoint_arms (i : Nat) (b : Bytes) (s : State) : (armPoint i b s).flt.points = pointsWith (pointOf b) s.flt.points ∧
    (bit (pointOf b).flags 0 = true → (armPoint i b s).flt.latch.getLsbD 63 = true) ∧ (armPoint i b s).host.ended = s.host.ended := by
  unfold armPoint
  dsimp only
  split
  case isTrue h =>
    refine ⟨?_, fun _ => latchBit_latched 63 _ (by decide), ?_⟩
    · rw [latchBit_flt, kilnEvent_flt_points]
      simp only [pointsWith, pointOf, h]
      rfl
    · rw [latchBit_ended, kilnEvent_host]
      rfl
  case isFalse h =>
    refine ⟨?_, fun hp => absurd hp h, rfl⟩
    simp only [pointsWith, pointOf, h]
    rfl

theorem faultInject_writes : Writes opFaultInject c (.faultInject c) s fun t =>
    t.flt.points = pointsWith (pointOf (given c s)) s.flt.points ∧ (bit (pointOf (given c s)).flags 0 = true → t.flt.latch.getLsbD 63 = true) := by
  obtain ⟨hpoints, hlatch, hended⟩ := armPoint_arms c.slot.val (given c s) (takenState c s)
  refine writes_of rfl fun _ => ⟨armPoint c.slot.val (given c s) (takenState c s), rfl, hended, ?_⟩
  rw [endCommand_flt]
  exact ⟨hpoints, hlatch⟩

end

/-- Settles O43: a lemma for each command, key write and time limit. The key's value and its replacement by a new one are the model's choice
(assumptions 1 and 117). -/
theorem testModeNeedsItsKey : Obligations.TestModeNeedsItsKey := fun _ _ _ =>
  ⟨fun hp hi => ⟨faultTestEnable_answers hp hi, faultTestEnable_locked hp hi⟩, faultTestEnable_i3c, faultTestDisable_writes,
    faultTestDisable_i3c, fun _ hp => ⟨fltTestKeyWrite_right hp, fltTestKeyWrite_wrong hp, testKeyTimeout_voids hp⟩,
    testKeyLockoutEnd_ends, faultInject_writes⟩

end Sys2Proof.Proofs
end

section
/-!
PROOFS. Faults of the control complex and the collector are contained (O44): the commands of a restarted task end, and the site table is rebuilt
(R433, R440).
-/

namespace Sys2Proof.Proofs

open Sys2Proof Sys2Proof.Machine Sys2Proof.Laws

/-! ### Tasks that restart -/

section

variable {id : Nat} {ids : List Nat} {st : Status} {s : State}

/-- Of the running commands those of another number stay when one ends. -/
theorem endRunning_running (data reply : Bytes) :
    ∀ r ∈ (endRunning id st data reply s).host.running, r ∈ s.host.running ∧ r.id ≠ id := by
  intro r hr
  unfold endRunning at hr
  split at hr
  case h_1 hnone => exact ⟨hr, fun hid => by simpa [hid] using List.find?_eq_none.mp hnone r hr⟩
  case h_2 => exact ⟨List.mem_of_mem_filter hr, by simpa using List.of_mem_filter hr⟩

theorem endTask_running : ∀ r ∈ (endTask ids st s).host.running, r ∈ s.host.running ∧ r.id ∉ ids := by
  induction ids generalizing s with
  | nil => exact fun r hr => ⟨hr, List.not_mem_nil⟩
  | cons id ids ih =>
    intro r hr
    obtain ⟨hin, hids⟩ := ih (s := endRunning id st (toLe 2 0xFFFF) [] s) r hr
    obtain ⟨hold, hid⟩ := endRunning_running _ _ r hin
    exact ⟨hold, List.not_mem_cons_of_ne_of_not_mem hid hids⟩

/-- A fault that restarts a task raises its site, and the task's commands have ended. -/
theorem restart_raises (b k i : Nat) (late : Bool) : raised b k i s (raiseFault b k i late (endTask ids st s)) ∧
    ∀ id ∈ ids, ∀ r ∈ (raiseFault b k i late (endTask ids st s)).host.running, r.id ≠ id := by
  refine ⟨raised_raiseFault (congrArg FaultState.inFlight ((keeps_endTask _ _ _).same .flt rfl)) _ _ _ _, fun id hid r hr heq => ?_⟩
  rw [raiseFault_host] at hr
  exact (endTask_running r hr).2 (heq ▸ hid)

end

/-! ### The site table (R440) -/

section

variable {asserted : List (Nat × Nat × Nat)} {bad : Option Nat} {s : State}

/-- The sites rebuilt from the detectors that assert: those that no fence keeps. -/
def sitesAnew (asserted : List (Nat × Nat × Nat)) (s : State) : List (Nat × Nat × Nat) :=
  asserted.eraseDups.filter fun x => x.1 ≤ 62 && x.2.1 == siteKindOf x.1 && siteExists x.2.1 x.2.2 &&
    !(s.flt.sites.filter fun x => x.level == .fenced).any (siteIs x.1 x.2.1 x.2.2)

/-- The kiln log with the record `bad` marked. -/
def kilnMarked (bad : Option Nat) (l : List KilnRec) : List KilnRec :=
  match bad with
  | none => l
  | some i => l.mapIdx fun j r => if j + i + 1 == l.length then { r with bad := true } else r

theorem kilnMarked_length (l : List KilnRec) : (kilnMarked bad l).length = l.length := by
  cases bad with
  | none => rfl
  | some i => exact List.length_mapIdx

/-- The collector after FLT_SELF, but for its own raise. -/
def rebuilt (asserted : List (Nat × Nat × Nat)) (bad : Option Nat) (s : State) : State :=
  modFlt (fun f => { f with
    sites := ((s.flt.sites.filter fun x => x.level == .fenced) ++ (sitesAnew asserted s).map (recreateSite s)).take 1024
    kiln := kilnMarked bad f.kiln }) s

theorem fltSelf_exec : exec (.fltSelf asserted bad) s = .next (raiseFault 62 0 0 false (rebuilt asserted bad s)) := rfl

/-- A recreated site is CONTAINED with count 0 (the model's choice, assumption 112). -/
theorem rebuilt_sites : ∀ x ∈ (rebuilt asserted bad s).flt.sites, (x ∈ s.flt.sites ∧ x.level = .fenced) ∨
    (x.level = .contained ∧ x.count = 0 ∧ (x.bit, x.kind, x.index) ∈ asserted) := by
  intro x hx
  rcases List.mem_append.mp (List.mem_of_mem_take hx) with hold | hnew
  · exact .inl ⟨List.mem_of_mem_filter hold, by simpa using List.of_mem_filter hold⟩
  · obtain ⟨y, hy, rfl⟩ := List.mem_map.mp hnew
    exact .inr ⟨rfl, rfl, List.mem_eraseDups.mp (List.mem_of_mem_filter hy)⟩

theorem rebuilt_fenced (hlen : s.flt.sites.length ≤ 1024) : ∀ x ∈ s.flt.sites, x.level = .fenced → x ∈ (rebuilt asserted bad s).flt.sites := by
  intro x hx hlevel
  have hfenced : (s.flt.sites.filter fun x => x.level == .fenced).length ≤ 1024 := (List.length_filter_le _ _).trans hlen
  change x ∈ List.take 1024 _
  rw [List.take_append, List.take_of_length_le hfenced]
  exact List.mem_append_left _ (List.mem_filter.mpr ⟨hx, by simpa using hlevel⟩)

theorem fltSelf_completes : Completes (.fltSelf asserted bad) s fun t => raised 62 0 0 s t ∧ t.flt.sites.length ≤ 1024 ∧
    t.flt.kiln.length = s.flt.kiln.length ∧
    (∀ x ∈ t.flt.sites, (x ∈ s.flt.sites ∧ x.level = .fenced) ∨
      (x.level = .contained ∧ x.count = 0 ∧ (x.bit, x.kind, x.index) ∈ asserted)) ∧
    (s.flt.sites.length ≤ 1024 → ∀ x ∈ s.flt.sites, x.level = .fenced → x ∈ t.flt.sites) := by
  refine ⟨_, fltSelf_exec, raised_raiseFault rfl _ _ _ _, ?_⟩
  rw [raiseFault_flt_sites, raiseFault_flt_kiln]
  exact ⟨List.length_take_le _ _, kilnMarked_length _, rebuilt_sites, rebuilt_fenced⟩

end

/-- A code word is reloaded: only its raise is new. -/
theorem ccMemory_code (ids : List Nat) (late : Bool) (s : State) :
    Completes (.ccMemory true ids late) s fun t => raised 57 0 0 s t ∧ ∀ p, p ≠ .flt → Same p s t :=
  ⟨_, rfl, raised_raiseFault rfl _ _ _ _, fun p hp => (keeps_raiseFault 57 0 0 late s).same p (by simpa using hp)⟩

/-- Settles O44: a lemma for a restarted task, the reloaded code word and the rebuilt table. That a recreated site has count 0 is the model's
choice (assumption 112). -/
theorem controlFaultsAreContained : Obligations.ControlFaultsAreContained := fun core ids late _ _ s =>
  ⟨ccMemory_code ids late s, ⟨_, rfl, restart_raises _ _ _ _⟩, ⟨_, rfl, restart_raises _ _ core.val _⟩, ⟨_, rfl, restart_raises _ _ _ _⟩,
    fltSelf_completes⟩

end Sys2Proof.Proofs
end

section
/-!
PROOFS. Rules of the host's state: slots and rings after their updates, ignored accesses, transport faults (R481, R482), and what ends with a
session (R465).
-/

namespace Sys2Proof.Proofs

open Sys2Proof Sys2Proof.Machine Sys2Proof.Laws

/-! ### Slots and rings -/

section

variable (i j : Nat) (v : Slot) (f : Slot → Slot) (r k : Nat) (w : Ring) (s : State)

@[simp] theorem slotOf_setSlot : slotOf (setSlot i v s) i = v := tabGet_set _ _ _ _

@[simp] theorem slotOf_modSlot : slotOf (modSlot i f s) i = f (slotOf s i) := slotOf_setSlot _ _ _

@[simp] theorem ringOf_setRing : ringOf (setRing r w s) r = w := tabGet_set _ _ _ _

@[simp] theorem slotOf_emit (e : Emission) : slotOf (emit e s) i = slotOf s i := rfl

@[simp] theorem ringOf_emit (e : Emission) : ringOf (emit e s) r = ringOf s r := rfl

variable {i j r k}

theorem slotOf_setSlot_ne (h : j ≠ i) : slotOf (setSlot i v s) j = slotOf s j := tabGet_set_ne _ _ h

theorem slotOf_modSlot_ne (h : j ≠ i) : slotOf (modSlot i f s) j = slotOf s j := slotOf_setSlot_ne _ _ h

theorem ringOf_setRing_ne (h : k ≠ r) : ringOf (setRing r w s) k = ringOf s k := tabGet_set_ne _ _ h

variable {s} {t : State}

theorem slotOf_of_slots (h : t.host.slots = s.host.slots) (i : Nat) : slotOf t i = slotOf s i := by rw [slotOf, h, slotOf]

theorem slotOf_of_host (h : t.host = s.host) (i : Nat) : slotOf t i = slotOf s i := slotOf_of_slots (congrArg HostState.slots h) i

theorem ringOf_of_host (h : t.host = s.host) (r : Nat) : ringOf t r = ringOf s r := by rw [ringOf, h, ringOf]

end

/-! ### Ignored accesses (R453) -/

theorem accessIgnored_ignored (s : State) : accessIgnored s (ignored s) := ⟨rfl, same_of_host _⟩

/-! ### Transport faults (R481, R482) -/

section

variable {i j : Nat} {s : State}

/-- Entering LIMITED changes its slot's limits alone. -/
theorem slotOf_enterLimited : ∃ l cr la, slotOf (enterLimited i s) i = { slotOf s i with limited := l, credit := cr, lastTake := la } := by
  unfold enterLimited
  dsimp only
  split
  · exact ⟨_, _, _, rfl⟩
  · refine ⟨true, false, s.now, ?_⟩
    rw [slotOf_of_host (t := count _ _ _ _) (s := raiseFault _ _ _ _ _) rfl, slotOf_of_host (raiseFault_host _ _ _ _ _),
      slotOf_of_host (kiln_host _ _ _), slotOf_setSlot]

theorem enterLimited_host (i : Nat) (s : State) : ∃ m, (enterLimited i s).host = { s.host with slots := m } ∧
    ∀ j, j ≠ i → slotOf (enterLimited i s) j = slotOf s j := by
  unfold enterLimited
  dsimp only
  split
  · exact ⟨_, rfl, fun _ _ => rfl⟩
  · refine ⟨_, (raiseFault_host _ _ _ _ _).trans (kiln_host _ _ _), fun j hj => ?_⟩
    rw [slotOf_of_host (t := count _ _ _ _) (s := raiseFault _ _ _ _ _) rfl, slotOf_of_host (raiseFault_host _ _ _ _ _),
      slotOf_of_host (kiln_host _ _ _), slotOf_setSlot_ne _ _ hj]

/-- The state in which a transport fault of slot `i` stands counted. -/
def faultTaken (i : Nat) (s : State) : State :=
  count cMbxFaults i 1 (setSlot i { slotOf s i with
    faults := BitVec.ofNat 32 (satAdd 32 (slotOf s i).faults.toNat 1)
    faultAt := (s.now :: (slotOf s i).faultAt.filter (fun t => s.now < t + tSec)).take 16 } s)

theorem transportFault_eq (i : Nat) (s : State) : transportFault i s = enterLimited i (faultTaken i s) := rfl

theorem slotOf_faultTaken (i : Nat) (s : State) : slotOf (faultTaken i s) i = { slotOf s i with
    faults := BitVec.ofNat 32 (satAdd 32 (slotOf s i).faults.toNat 1)
    faultAt := (s.now :: (slotOf s i).faultAt.filter (fun t => s.now < t + tSec)).take 16 } := slotOf_setSlot _ _ _

/-- The slot of a transport fault counts it, and keeps all but what LIMITED uses. -/
theorem slotOf_transportFault (i : Nat) (s : State) : ∃ fa l cr la, slotOf (transportFault i s) i = { slotOf s i with
    faults := BitVec.ofNat 32 (satAdd 32 (slotOf s i).faults.toNat 1), faultAt := fa, limited := l, credit := cr, lastTake := la } := by
  obtain ⟨l, cr, la, h⟩ := slotOf_enterLimited (i := i) (s := faultTaken i s)
  rw [slotOf_faultTaken] at h
  exact ⟨_, l, cr, la, h⟩

theorem transportFault_host (i : Nat) (s : State) : ∃ m, (transportFault i s).host = { s.host with slots := m } ∧
    ∀ j, j ≠ i → slotOf (transportFault i s) j = slotOf s j := by
  obtain ⟨m, hm, hj⟩ := enterLimited_host i (faultTaken i s)
  exact ⟨m, hm, fun j h => (hj j h).trans (slotOf_setSlot_ne _ _ h)⟩

theorem faultCounted_transportFault (i : Nat) (s : State) : faultCounted i s (transportFault i s) := by
  obtain ⟨_, _, _, _, h⟩ := slotOf_transportFault i s
  obtain ⟨_, -, hj⟩ := transportFault_host i s
  exact ⟨by rw [h]; rfl, hj⟩

/-- A fault counted after work that leaves the slots is counted. -/
theorem faultCounted_of_host {u t : State} (hu : u.host = s.host) (h : faultCounted i u t) : faultCounted i s t := by
  obtain ⟨hi, hj⟩ := h
  rw [slotOf_of_host hu] at hi
  exact ⟨hi, fun j hne => (hj j hne).trans (slotOf_of_host hu j)⟩

/-- A transport fault may enter LIMITED, which raises bit 61 of its session; the latest raise is that one or stands. -/
theorem raisedLast_transportFault (h : raisedLast 61 19 i s) : raisedLast 61 19 i (transportFault i s) := by
  unfold transportFault enterLimited
  dsimp only
  split
  · exact h
  · obtain ⟨r, hr, hbit⟩ := raiseFault_inFlight 61 19 i false (kiln 0x0103 _ (setSlot i _ _))
    exact ⟨r, (congrArg List.getLast? hr).trans (by simp), hbit⟩

theorem raisedLast_raiseFault (b k i : Nat) (o : Bool) (s : State) : raisedLast b k i (raiseFault b k i o s) := by
  obtain ⟨r, hr, hbit⟩ := raiseFault_inFlight b k i o s
  exact ⟨r, by rw [hr]; simp, hbit⟩

/-- A doorbell fault of a session (R481). -/
theorem doorbellFault_faults (i kind idx : Nat) (s : State) : faultCounted i s (doorbellFault i kind idx s) ∧
    raisedLast 61 19 i (doorbellFault i kind idx s) :=
  ⟨faultCounted_of_host ((raiseFault_host _ _ _ _ _).trans (kiln_host _ _ _)) (faultCounted_transportFault _ _),
    raisedLast_transportFault (raisedLast_raiseFault _ _ _ _ _)⟩

theorem slotOf_doorbellFault (i kind idx : Nat) (s : State) : ∃ n fa l cr la, slotOf (doorbellFault i kind idx s) i =
    { slotOf s i with faults := n, faultAt := fa, limited := l, credit := cr, lastTake := la } := by
  obtain ⟨fa, l, cr, la, h⟩ := slotOf_transportFault i (raiseFault 61 19 i false (kiln 0x0105 [(1, i), (1, kind), (4, idx)] s))
  rw [slotOf_of_host ((raiseFault_host _ _ _ _ _).trans (kiln_host _ _ _))] at h
  exact ⟨_, fa, l, cr, la, h⟩

theorem ringOf_doorbellFault (i kind idx r : Nat) (s : State) : ringOf (doorbellFault i kind idx s) r = ringOf s r := by
  obtain ⟨m, hm, -⟩ := transportFault_host i (raiseFault 61 19 i false (kiln 0x0105 [(1, i), (1, kind), (4, idx)] s))
  rw [ringOf, doorbellFault, hm, raiseFault_host, kiln_host]
  rfl

end

/-! ### What ends with a session (R465) -/

section

variable (i cause : Nat) (s : State)

/-- Delegations that change leave the host as it is. -/
theorem foldl_delegate_host (l : List Nat) : (l.foldl (fun s g => delegate i 0 g s) s).host = s.host :=
  foldl_keeps (fun s : State => s.host) fun u g _ => (keeps_delegate i 0 g u).same .host rfl

theorem modMat_host (f : MatState → MatState) : (modMat f s).host = s.host := rfl

theorem modTel_host (f : ObserveState → ObserveState) : (modTel f s).host = s.host := rfl

theorem disableRings_host (p : Ring → Bool) : ∃ rings, (disableRings p s).host = { s.host with rings := rings } := ⟨_, rfl⟩

theorem disableRings_slots (p : Ring → Bool) : (disableRings p s).host.slots = s.host.slots := rfl

theorem disableRings_linkUp (p : Ring → Bool) : (disableRings p s).host.linkUp = s.host.linkUp := rfl

theorem dropUploads_host (p : Option Nat → Bool) : ∃ uploads, (dropUploads p s).host = { s.host with uploads := uploads } := ⟨_, rfl⟩

/-- What ends with a session changes its rings and its uploads in the host's state. -/
theorem endSession_host : ∃ rings uploads, (endSession i cause s).host = { s.host with rings := rings, uploads := uploads } := by
  have hended : ∀ u : State, (if u.flt.testSlot == i then endTestMode u else u).host = u.host := fun u => by
    split
    · exact (keeps_endTestMode _).same .host rfl
    · rfl
  obtain ⟨rings, hrings⟩ := disableRings_host ((List.range 64).foldl (fun s g => delegate i 0 g s) (kiln 0x0102 [(1, i), (1, cause)] s))
    (fun v => ringOwner v == some i)
  obtain ⟨uploads, huploads⟩ := dropUploads_host (modTel (fun t => { t with grants := tabDel i t.grants })
    (disableRings (fun v => ringOwner v == some i) ((List.range 64).foldl (fun s g => delegate i 0 g s) (kiln 0x0102 [(1, i), (1, cause)] s))))
    (· == some i)
  refine ⟨rings, uploads, ?_⟩
  rw [endSession, hended, modMat_host, huploads, modTel_host, hrings, foldl_delegate_host, kiln_host]

theorem endSession_slots : (endSession i cause s).host.slots = s.host.slots := by
  obtain ⟨_, _, h⟩ := endSession_host i cause s
  rw [h]

theorem dropCommands_slots : (dropCommands i s).host.slots = s.host.slots := rfl

/-- An open session that closes loses its commands, and the slots stand. -/
theorem slotOf_dropCommands_endSession (j : Nat) : slotOf (dropCommands i (endSession i cause s)) j = slotOf s j :=
  slotOf_of_slots ((dropCommands_slots _ _).trans (endSession_slots _ _ _)) j

/-- An abrupt close changes in the host's state the slots, and what a session holds. -/
theorem closeAbrupt_host : ∃ slots rings uploads running ended, (closeAbrupt i cause s).host =
    { s.host with slots := slots, rings := rings, uploads := uploads, running := running, ended := ended } := by
  have hdropped : ∀ u : State, ∃ running ended, (dropCommands i u).host = { u.host with running := running, ended := ended } :=
    fun _ => ⟨_, _, rfl⟩
  have hslot : ∀ f (u : State), ∃ slots, (modSlot i f u).host = { u.host with slots := slots } := fun _ _ => ⟨_, rfl⟩
  unfold closeAbrupt
  dsimp only
  split
  · obtain ⟨rings, uploads, hsession⟩ := endSession_host i cause s
    obtain ⟨running, ended, hcommands⟩ := hdropped (endSession i cause s)
    obtain ⟨slots, h⟩ := hslot (fun v => { v with state := .closing, submitted := none, draining := false })
      (dropCommands i (endSession i cause s))
    exact ⟨slots, rings, uploads, running, ended, by rw [h, hcommands, hsession]⟩
  · exact ⟨_, _, _, _, _, rfl⟩
  · exact ⟨_, _, _, _, _, rfl⟩

theorem slotOf_closeAbrupt_opened (h : (slotOf s i).state = .opened) : slotOf (closeAbrupt i cause s) i =
    { slotOf s i with state := .closing, submitted := none, draining := false } := by
  simp only [closeAbrupt, h]
  rw [slotOf_modSlot, slotOf_dropCommands_endSession]

theorem slotOf_closeAbrupt_pending (h : (slotOf s i).state = .pending) : slotOf (closeAbrupt i cause s) i =
    { slotOf s i with state := .free, submitted := none } := by
  simp only [closeAbrupt, h]
  rw [slotOf_modSlot, slotOf_of_slots (dropCommands_slots _ _)]

/-- A slot without a session stays as it is. -/
theorem closeAbrupt_idle (ho : (slotOf s i).state ≠ .opened) (hp : (slotOf s i).state ≠ .pending) : closeAbrupt i cause s = s := by
  unfold closeAbrupt
  dsimp only
  split
  case h_1 h => exact absurd h ho
  case h_2 h => exact absurd h hp
  case h_3 => rfl

theorem slotOf_closeAbrupt_ne {i j : Nat} (h : j ≠ i) (cause : Nat) (s : State) : slotOf (closeAbrupt i cause s) j = slotOf s j := by
  unfold closeAbrupt
  dsimp only
  split
  · rw [slotOf_modSlot_ne _ _ h, slotOf_dropCommands_endSession]
  · rw [slotOf_modSlot_ne _ _ h, slotOf_of_slots (dropCommands_slots _ _)]
  · rfl

end

end Sys2Proof.Proofs
end

section
/-!
PROOFS. Host registers read and write (O45): BAR0's plain registers and the MSI-X table, the mailbox pages and their doorbells, the loss of the
interface and the end of an abrupt close (R453 to R458, R462, R465, R474, R481).
-/

namespace Sys2Proof.Proofs

open Sys2Proof Sys2Proof.Machine Sys2Proof.Laws

/-! ### Plain registers (R453, R455) -/

section

variable {s : State} {v : BitVec 32}

theorem barLive_of_barFull (h : barFull s = true) : barLive s = true := by
  simp only [barFull, Bool.and_eq_true] at h
  exact h.1

theorem invalidBarAccess_counts {bar2 write : Bool} (hfull : barFull s = true) (h : bar2 = true ∨ write = true) :
    Completes (.invalidBarAccess bar2 write) s fun t =>
      t.host.errCount = BitVec.ofNat 32 (min (s.host.errCount.toNat + 1) (2 ^ 32 - 1)) ∧ (write = false → t.out = .barRead 0 :: s.out) := by
  have hexec : exec (.invalidBarAccess bar2 write) s = .next (if write then ignored s else emit (.barRead 0) (ignored s)) := by
    change execInvalidBarAccess bar2 write s = _
    have hor : (bar2 || write) = true := by simpa using h
    simp only [execInvalidBarAccess, barLive_of_barFull hfull, hfull, hor, Bool.not_true, Bool.and_self, if_true, if_false, Bool.false_eq_true]
  refine ⟨_, hexec, ?_, fun hw => ?_⟩
  · split
    · rfl
    · rfl
  · rw [hw]
    rfl

/-- A register without behaviour of its own, past the bisque stage. -/
theorem registerWrite_exec {off : Nat} (hfull : barFull s = true) (hown : hasOwnWrite off = false) : exec (.registerWrite off v) s =
    .next (if off == 0x10 then modHost (fun h => { h with scratch := v }) s
      else if inRange off 0x30000 0x30BFF && off % 4 == 0 then writeMsix ((off - 0x30000) / 4) v s
      else if inRange off 0x10000 0x11FFF && (off % 0x100 == 8 || off % 0x100 == 0xC || off % 0x100 == 0x10 || off % 0x100 == 0x14) then
        writeBase ((off - 0x10000) / 0x100) (off % 0x100) v s
      else ignored s) := by
  change execRegisterWrite off v s = _
  simp only [execRegisterWrite, hfull, hown, Bool.not_true, Bool.or_self, if_false, Bool.false_eq_true]
  split
  · rfl
  · split
    · rfl
    · split
      · rfl
      · rfl

theorem registerWrite_scratch (hfull : barFull s = true) : Completes (.registerWrite 0x10 v) s fun t =>
    t.host = { s.host with scratch := v } ∧ ∀ p, p ≠ .host → Same p s t :=
  ⟨_, registerWrite_exec hfull rfl, rfl, same_of_host _⟩

theorem registerWrite_ignored (hfull : barFull s = true) : Completes (.registerWrite 4 v) s (accessIgnored s) :=
  ⟨_, registerWrite_exec hfull rfl, accessIgnored_ignored s⟩

/-! ### MSI-X (R474) -/

/-- The state after a write of dword `i` of the table, before a vector that it unmasks is sent. -/
def msixWritten (i : Nat) (v : BitVec 32) (s : State) : State :=
  let x := if i % 4 == 3 then v &&& 1 else v
  modHost (fun h => { h with msixTable := tabSet (if i % 4 == 3 then 1 else 0) i x h.msixTable }) s

/-- Whether a write of dword `i` unmasks a pending vector. -/
def msixSends (i : Nat) (v : BitVec 32) (s : State) : Bool := i % 4 == 3 && !v.getLsbD 0 && tabGet false s.host.pba (i / 4)

theorem writeMsix_eq (i : Nat) : writeMsix i v s = if msixSends i v s then
    emit (.vector (i / 4)) (modHost (fun h => { h with pba := tabDel (i / 4) h.pba }) (msixWritten i v s)) else msixWritten i v s := rfl

theorem msixDword_msixWritten (i : Nat) : msixDword (msixWritten i v s) i = if i % 4 = 3 then v &&& 1 else v :=
  (tabGet_set (if i % 4 == 3 then 1 else 0) _ i s.host.msixTable).trans (by simp only [beq_iff_eq])

theorem tabGet_del {α : Type} (d : α) (k : Nat) (m : Store α) : tabGet d (tabDel k m) k = d := by rw [tabGet, tabFind_del]; rfl

/-- A table write that unmasks a pending vector sends it. -/
theorem writeMsix_writes (i : Nat) : msixDword (writeMsix i v s) i = (if i % 4 = 3 then v &&& 1 else v) ∧
    (i % 4 = 3 → v.getLsbD 0 = false → tabGet false s.host.pba (i / 4) = true → (writeMsix i v s).out = .vector (i / 4) :: s.out ∧
      tabGet false (writeMsix i v s).host.pba (i / 4) = false) := by
  cases hsends : msixSends i v s with
  | true =>
    rw [writeMsix_eq, if_pos hsends]
    exact ⟨msixDword_msixWritten i, fun _ _ _ => ⟨rfl, tabGet_del _ _ _⟩⟩
  | false =>
    rw [writeMsix_eq, if_neg (by simp [hsends])]
    refine ⟨msixDword_msixWritten i, fun hctl hmask hpend => ?_⟩
    rw [msixSends, hctl, hmask, hpend] at hsends
    exact absurd hsends (by decide)

theorem registerWrite_msix {i : Nat} (hfull : barFull s = true) (hi : i < 768) : Completes (.registerWrite (0x30000 + 4 * i) v) s fun t =>
    msixDword t i = (if i % 4 = 3 then v &&& 1 else v) ∧
      (i % 4 = 3 → v.getLsbD 0 = false → tabGet false s.host.pba (i / 4) = true → t.out = .vector (i / 4) :: s.out ∧
        tabGet false t.host.pba (i / 4) = false) := by
  have hown : hasOwnWrite (0x30000 + 4 * i) = false := by
    simp [hasOwnWrite, inRange]
    omega
  have hscratch : (0x30000 + 4 * i == 0x10) = false := by
    simp
    omega
  have hmsix : (inRange (0x30000 + 4 * i) 0x30000 0x30BFF && (0x30000 + 4 * i) % 4 == 0) = true := by
    simp [inRange]
    omega
  refine ⟨writeMsix i v s, (registerWrite_exec hfull hown).trans ?_, writeMsix_writes i⟩
  rw [hscratch, hmsix, show (0x30000 + 4 * i - 0x30000) / 4 = i by omega]
  rfl

/-! ### Mailbox pages (R457) -/

section

variable {x : SlotNo} {o : Nat}

/-- A base of a mailbox page lies in its slot. -/
theorem registerWrite_base (hfull : barFull s = true) (ho : o ∈ [8, 0xC, 0x10, 0x14]) :
    exec (.registerWrite (0x10000 + 0x100 * x.val + o) v) s = .next (writeBase x.val o v s) := by
  have hx : x.val < 32 := x.isLt
  have hoff : o = 8 ∨ o = 0xC ∨ o = 0x10 ∨ o = 0x14 := by simpa using ho
  have hslot : (0x10000 + 0x100 * x.val + o - 0x10000) / 0x100 = x.val := by omega
  have hreg : (0x10000 + 0x100 * x.val + o) % 0x100 = o := by omega
  have hown : hasOwnWrite (0x10000 + 0x100 * x.val + o) = false := by
    simp [hasOwnWrite, inRange, hreg]
    omega
  have hscratch : (0x10000 + 0x100 * x.val + o == 0x10) = false := by
    simp
    omega
  have hmsix : inRange (0x10000 + 0x100 * x.val + o) 0x30000 0x30BFF = false := by
    simp [inRange]
    omega
  have hpage : inRange (0x10000 + 0x100 * x.val + o) 0x10000 0x11FFF = true := by
    simp [inRange]
    omega
  have hbase : (o == 8 || o == 0xC || o == 0x10 || o == 0x14) = true := by simpa [or_assoc] using hoff
  rw [registerWrite_exec hfull hown, hscratch, hmsix, hpage, hslot, hreg, hbase]
  rfl

/-- The base of a slot that an offset of its page names. -/
def baseAt (x o : Nat) (t : State) : BitVec 64 := if o < 0x10 then (slotOf t x).cmdBase else (slotOf t x).cplBase

theorem writeBase_held (h : (slotOf s x.val).ctrl.getLsbD 0 = true ∨ (slotOf s x.val).i3c = true) : writeBase x.val o v s = ignored s :=
  if_pos (by simpa using h)

theorem writeBase_writes (hen : (slotOf s x.val).ctrl.getLsbD 0 = false) (hi3c : (slotOf s x.val).i3c = false)
    (ho : o ∈ [8, 0xC, 0x10, 0x14]) : baseAt x.val o (writeBase x.val o v s) =
      if o % 8 = 4 then withHalves (baseAt x.val o s) none (some v) else withHalves (baseAt x.val o s) (some v) none := by
  have hopen : ¬ ((slotOf s x.val).ctrl.getLsbD 0 || (slotOf s x.val).i3c) = true := by
    rw [hen, hi3c]
    decide
  unfold writeBase
  dsimp only
  rw [if_neg hopen]
  simp only [List.mem_cons, List.not_mem_nil, or_false] at ho
  rcases ho with rfl | rfl | rfl | rfl <;> simp [baseAt]

/-! ### Mailbox control and doorbells (R457, R458, R462, R481) -/

theorem rcCounterRead_errors (hfull : barFull s = true) : Completes (.rcCounterRead none) s fun t =>
    t.out = .barRead s.host.errCount.toNat :: s.out ∧ t.host = { s.host with errCount := 0 } := by
  have hexec : exec (.rcCounterRead none) s =
      .next (emit (.barRead s.host.errCount.toNat) (modHost (fun h => { h with errCount := 0 }) s)) := by
    change execRcCounterRead none s = _
    simp [execRcCounterRead, hfull, barLive_of_barFull hfull]
  exact ⟨_, hexec, rfl, rfl⟩

theorem rcCounterRead_faults (hfull : barFull s = true) : Completes (.rcCounterRead (some x)) s fun t =>
    t.out = .barRead (slotOf s x.val).faults.toNat :: s.out ∧ slotOf t x.val = { slotOf s x.val with faults := 0 } := by
  have hexec : exec (.rcCounterRead (some x)) s =
      .next (emit (.barRead (slotOf s x.val).faults.toNat) (modSlot x.val (fun v => { v with faults := 0 }) s)) := by
    change execRcCounterRead (some x) s = _
    simp [execRcCounterRead, hfull, barLive_of_barFull hfull]
  refine ⟨_, hexec, rfl, ?_⟩
  rw [slotOf_emit, slotOf_modSlot]

section

variable (hfull : barFull s = true)

include hfull

theorem mailbox_i3c (h : (slotOf s x.val).i3c = true) : Completes (.hstMbxCtrlWrite x v) s (accessIgnored s) ∧
    Completes (.hstMbxDb x v) s (accessIgnored s) ∧ Completes (.hstMbxCplHeadWrite x v) s (accessIgnored s) := by
  have hctrl : execHstMbxCtrlWrite x v s = .next (ignored s) := by simp [execHstMbxCtrlWrite, hfull, h]
  have hdb : execHstMbxDb x v s = .next (ignored s) := by simp [execHstMbxDb, hfull, h]
  have hhead : execHstMbxCplHeadWrite x v s = .next (ignored s) := by simp [execHstMbxCplHeadWrite, hfull, h]
  exact ⟨⟨_, hctrl, accessIgnored_ignored s⟩, ⟨_, hdb, accessIgnored_ignored s⟩, ⟨_, hhead, accessIgnored_ignored s⟩⟩

variable (hpcie : (slotOf s x.val).i3c = false)

include hpcie

theorem hstMbxCtrlWrite_refused (hc : (v &&& 0x1FF01).getLsbD 0 = true) (hno : mayEnable (slotOf s x.val) (v &&& 0x1FF01) = false) :
    Completes (.hstMbxCtrlWrite x v) s (accessIgnored s) := by
  have hexec : execHstMbxCtrlWrite x v s = .next (ignored s) := by
    simp only [execHstMbxCtrlWrite, hfull, hpcie, hc, hno, Bool.not_true, Bool.not_false, if_true, if_false, Bool.false_eq_true]
  exact ⟨_, hexec, accessIgnored_ignored s⟩

theorem hstMbxCtrlWrite_enables (hc : (v &&& 0x1FF01).getLsbD 0 = true) (hmay : mayEnable (slotOf s x.val) (v &&& 0x1FF01) = true)
    (hoff : (slotOf s x.val).ctrl.getLsbD 0 = false) (hfree : (slotOf s x.val).state = .free) (hfence : mailboxFenced s x.val = false) :
    Completes (.hstMbxCtrlWrite x v) s fun t =>
      slotOf t x.val = { slotOf s x.val with ctrl := v &&& 0x1FF01, state := .pending } := by
  have hexec : execHstMbxCtrlWrite x v s =
      .next (setSlot x.val { slotOf s x.val with ctrl := v &&& 0x1FF01, state := .pending } s) := by
    simp only [execHstMbxCtrlWrite, hfull, hpcie, hc, hmay, hoff, hfree, hfence, Bool.not_true, Bool.not_false, if_true, if_false,
      Bool.false_eq_true, beq_self_eq_true, Bool.and_self]
  exact ⟨_, hexec, slotOf_setSlot _ _ _⟩

/-- A write that clears ENABLE ends a session abruptly; the orders of such a write do not matter (the model's choice, assumption 101). -/
theorem hstMbxCtrlWrite_disables (hc : (v &&& 0x1FF01).getLsbD 0 = false) (hon : (slotOf s x.val).ctrl.getLsbD 0 = true) :
    Completes (.hstMbxCtrlWrite x v) s fun t => (slotOf t x.val).ctrl = v &&& 0x1FF01 ∧ (slotOf t x.val).cmdHead = 0 ∧
      (slotOf t x.val).cmdProd = 0 ∧ (slotOf t x.val).cplTail = 0 ∧ (slotOf t x.val).cplHead = 0 ∧
      (slotOf t x.val).state = (match (slotOf s x.val).state with | .opened => .closing | .pending => .free | z => z) := by
  have hexec : execHstMbxCtrlWrite x v s =
      .next (modSlot x.val (fun y => { slotZeroed y with ctrl := v &&& 0x1FF01 }) (closeAbrupt x.val 2 s)) := by
    simp only [execHstMbxCtrlWrite, hfull, hpcie, hc, hon, Bool.not_true, Bool.not_false, if_true, if_false, Bool.false_eq_true]
  refine ⟨_, hexec, ?_⟩
  dsimp only
  rw [slotOf_modSlot]
  refine ⟨rfl, rfl, rfl, rfl, rfl, ?_⟩
  cases hst : (slotOf s x.val).state with
  | opened => exact congrArg Slot.state (slotOf_closeAbrupt_opened _ 2 _ hst)
  | pending => exact congrArg Slot.state (slotOf_closeAbrupt_pending _ 2 _ hst)
  | free =>
    rw [closeAbrupt_idle _ 2 _ (by simp [hst]) (by simp [hst])]
    exact hst
  | closing =>
    rw [closeAbrupt_idle _ 2 _ (by simp [hst]) (by simp [hst])]
    exact hst

theorem hstMbxDb_moves (h : doorbellBad v (slotOf s x.val).cmdProd (slotOf s x.val).cmdHead (cmdEntries (slotOf s x.val)) = false) :
    Completes (.hstMbxDb x v) s fun t => slotOf t x.val = { slotOf s x.val with cmdProd := v } := by
  have hexec : execHstMbxDb x v s = .next (setSlot x.val { slotOf s x.val with cmdProd := v } s) := by
    simp only [execHstMbxDb, hfull, hpcie, h, Bool.not_true, if_false, Bool.false_eq_true]
  exact ⟨_, hexec, slotOf_setSlot _ _ _⟩

theorem hstMbxDb_faults (h : doorbellBad v (slotOf s x.val).cmdProd (slotOf s x.val).cmdHead (cmdEntries (slotOf s x.val)) = true) :
    Completes (.hstMbxDb x v) s fun t => faultCounted x.val s t ∧ (slotOf t x.val).cmdProd = (slotOf s x.val).cmdProd ∧
      raisedLast 61 19 x.val t := by
  have hexec : execHstMbxDb x v s = .next (doorbellFault x.val 1 x.val s) := by
    simp only [execHstMbxDb, hfull, hpcie, h, Bool.not_true, if_true, if_false, Bool.false_eq_true]
  obtain ⟨hcount, hraised⟩ := doorbellFault_faults x.val 1 x.val s
  obtain ⟨_, _, _, _, _, hslot⟩ := slotOf_doorbellFault x.val 1 x.val s
  exact ⟨_, hexec, hcount, by rw [hslot], hraised⟩

theorem hstMbxCplHeadWrite_moves
    (h : consumerBad v (slotOf s x.val).cplHead (slotOf s x.val).cplTail (cplEntries (slotOf s x.val)) = false) :
    Completes (.hstMbxCplHeadWrite x v) s fun t => slotOf t x.val = { slotOf s x.val with cplHead := v } := by
  have hexec : execHstMbxCplHeadWrite x v s = .next (setSlot x.val { slotOf s x.val with cplHead := v } s) := by
    simp only [execHstMbxCplHeadWrite, hfull, hpcie, h, Bool.not_true, if_false, Bool.false_eq_true]
  exact ⟨_, hexec, slotOf_setSlot _ _ _⟩

theorem hstMbxCplHeadWrite_faults
    (h : consumerBad v (slotOf s x.val).cplHead (slotOf s x.val).cplTail (cplEntries (slotOf s x.val)) = true) :
    Completes (.hstMbxCplHeadWrite x v) s fun t => faultCounted x.val s t ∧ (slotOf t x.val).cplHead = (slotOf s x.val).cplHead ∧
      raisedLast 61 19 x.val t := by
  have hexec : execHstMbxCplHeadWrite x v s = .next (doorbellFault x.val 2 x.val s) := by
    simp only [execHstMbxCplHeadWrite, hfull, hpcie, h, Bool.not_true, if_true, if_false, Bool.false_eq_true]
  obtain ⟨hcount, hraised⟩ := doorbellFault_faults x.val 2 x.val s
  obtain ⟨_, _, _, _, _, hslot⟩ := slotOf_doorbellFault x.val 2 x.val s
  exact ⟨_, hexec, hcount, by rw [hslot], hraised⟩

end

end

end

/-! ### The interface (R452, R454, R465) -/

section

variable {s : State}

theorem pcieLinkUp_trains {speed width : Nat} (hdown : s.host.linkUp = false) (hreset : s.boot.resetLow = false) (hon : s.boot.powered = true)
    (hrom : s.boot.romRan = true) (hspeed : speed ∈ [2, 5, 8, 16, 32, 64]) (hwidth : width ∈ [1, 2, 4, 8]) :
    Completes (.pcieLinkUp speed width) s fun t => logged 0x0106 t ∧
      t.host = { s.host with linkUp := true, linkSpeed := speed, linkWidth := width } := by
  have hs : ([2, 5, 8, 16, 32, 64] : List Nat).contains speed = true := List.contains_iff_mem.mpr hspeed
  have hw : ([1, 2, 4, 8] : List Nat).contains width = true := List.contains_iff_mem.mpr hwidth
  have hexec : exec (.pcieLinkUp speed width) s = .next (kiln 0x0106 [(1, 1), (1, speed), (1, width)]
      (modHost (fun h => { h with linkUp := true, linkSpeed := speed, linkWidth := width }) s)) := by
    change execPcieLinkUp speed width s = _
    simp only [execPcieLinkUp, hdown, hreset, hon, hrom, hs, hw, Bool.not_true, Bool.or_self, if_false, Bool.false_eq_true]
  exact ⟨_, hexec, kiln_head _ _ _, kiln_host _ _ _⟩

/-- A slot as the loss of the interface leaves it. -/
def slotLost (v : Slot) : Slot :=
  if v.i3c then v else { slotCleared v with state := if v.state = .opened ∨ v.state = .closing then .closing else .free }

theorem slotOf_resetSlot (cause : Nat) (s : State) (i : Nat) : slotOf (resetSlot cause s i) i = slotLost (slotOf s i) := by
  unfold resetSlot slotLost
  split
  · rfl
  · rw [slotOf_modSlot]
    cases hst : (slotOf s i).state with
    | opened => rw [slotOf_closeAbrupt_opened _ _ _ hst]; rfl
    | pending => rw [slotOf_closeAbrupt_pending _ _ _ hst]; rfl
    | free => rw [closeAbrupt_idle _ _ _ (by simp [hst]) (by simp [hst]), hst]; rfl
    | closing => rw [closeAbrupt_idle _ _ _ (by simp [hst]) (by simp [hst]), hst]; rfl

theorem slotOf_resetSlot_ne (cause : Nat) (s : State) (i j : Nat) (h : j ≠ i) : slotOf (resetSlot cause s i) j = slotOf s j := by
  unfold resetSlot
  split
  · rfl
  · rw [slotOf_modSlot_ne _ _ h, slotOf_closeAbrupt_ne h]

theorem resetSlot_linkUp (cause : Nat) (s : State) (i : Nat) : (resetSlot cause s i).host.linkUp = s.host.linkUp := by
  unfold resetSlot
  split
  · rfl
  · obtain ⟨_, _, _, _, _, h⟩ := closeAbrupt_host i cause s
    change (closeAbrupt i cause s).host.linkUp = _
    rw [h]

/-- A byte whose two low bits are cleared enables nothing. -/
theorem bit_cleared (fl : Nat) : bit ((fl - fl % 4) % 256) 0 = false ∧ bit ((fl - fl % 4) % 256) 1 = false := by
  constructor
  · simp only [bit, Nat.testBit_eq_decide_div_mod_eq, decide_eq_false_iff_not]
    omega
  · simp only [bit, Nat.testBit_eq_decide_div_mod_eq, decide_eq_false_iff_not]
    omega

theorem u8_putField_second (a b : Byte) (l : Bytes) (v : Nat) : u8 (putField (a :: b :: l) 1 1 v) 1 = v % 256 := by
  simp [u8, field, putField, toLe, leNat]

theorem u8_putField_beyond (a : Byte) (v : Nat) : u8 (putField [a] 1 1 v) 1 = 0 := by simp [u8, field, putField, leNat]

/-- A disabled ring neither receives nor sends. -/
theorem ringDisabled_disabled (v : Ring) : rxEnabled (ringDisabled v) = false ∧ txEnabled (ringDisabled v) = false := by
  unfold rxEnabled txEnabled ringDisabled
  match v.obj with
  | [] => exact ⟨rfl, rfl⟩
  | [a] =>
    simp only [List.isEmpty_cons, if_false, Bool.false_eq_true, u8_putField_beyond]
    exact ⟨rfl, rfl⟩
  | a :: b :: l =>
    simp only [List.isEmpty_cons, if_false, Bool.false_eq_true, u8_putField_second]
    exact bit_cleared _

theorem ringOf_disableRings (r : Nat) (s : State) : rxEnabled (ringOf (disableRings (fun _ => true) s) r) = false ∧
    txEnabled (ringOf (disableRings (fun _ => true) s) r) = false := by
  have hring : ringOf (disableRings (fun _ => true) s) r = ((tabFind s.host.rings r).map ringDisabled).getD {} :=
    congrArg (fun o => Option.getD o ({} : Ring)) (tabFind_map (g := fun e => (e.1, ringDisabled e.2)) (fun _ => rfl) s.host.rings r)
  rw [hring]
  cases tabFind s.host.rings r with
  | none => exact ⟨rfl, rfl⟩
  | some v => exact ringDisabled_disabled v

/-- The windows of every delegation end. -/
def windowsEnded (s : State) : State :=
  (List.range 64).foldl (fun s g => match (fwdPipe s g).window.session with | some i => delegate i 0 g s | none => s) s

theorem windowsEnded_host (s : State) : (windowsEnded s).host = s.host :=
  foldl_keeps (fun s : State => s.host) fun u g _ => by
    split
    · exact (keeps_delegate _ _ _ _).same .host rfl
    · rfl

/-- The mailbox slots return to their reset values. -/
def slotsReset (flr : Bool) (s : State) : State := (List.range 32).foldl (resetSlot (if flr then 5 else 3)) s

theorem foldl_resetSlot_linkUp (cause : Nat) (l : List Nat) : (l.foldl (resetSlot cause) s).host.linkUp = s.host.linkUp :=
  foldl_keeps (fun s : State => s.host.linkUp) fun u i _ => resetSlot_linkUp cause u i

theorem slotsReset_linkUp (flr : Bool) : (slotsReset flr s).host.linkUp = s.host.linkUp := by rw [slotsReset, foldl_resetSlot_linkUp]

theorem slotOf_slotsReset (flr : Bool) (x : SlotNo) : slotOf (slotsReset flr s) x.val = slotLost (slotOf s x.val) := by
  have hplaces := foldl_places (l := List.range 32) (op := resetSlot (if flr then 5 else 3)) (read := slotOf) (val := fun _ => slotLost)
    (I := fun _ => True) (fun _ _ _ => trivial) (fun s k _ => slotOf_resetSlot _ s k) (fun s k j h => slotOf_resetSlot_ne _ s k j h)
    List.nodup_range trivial (s := s) x.val
  rwa [if_pos (List.mem_range.mpr x.isLt)] at hplaces

/-- The state after the slots, the rings, the windows and the vectors of a lost interface are reset (a masked vector's reset is the
model's choice, assumption 99). -/
def interfaceReset (flr : Bool) (s : State) : State :=
  count cIfLinkDowns 0 1 (modHost (fun h => { h with msixTable := [], pba := [] })
    (windowsEnded (disableRings (fun _ => true) (slotsReset flr s))))

theorem vectorsReset_host (u : State) : (count cIfLinkDowns 0 1 (modHost (fun h => { h with msixTable := [], pba := [] }) u)).host =
    { u.host with msixTable := [], pba := [] } := rfl

theorem interfaceReset_host (flr : Bool) (s : State) : (interfaceReset flr s).host =
    { (disableRings (fun _ => true) (slotsReset flr s)).host with msixTable := [], pba := [] } := by
  rw [interfaceReset, vectorsReset_host, windowsEnded_host]

theorem slotOf_interfaceReset (flr : Bool) (x : SlotNo) : slotOf (interfaceReset flr s) x.val = slotLost (slotOf s x.val) := by
  have hslots : (interfaceReset flr s).host.slots = (slotsReset flr s).host.slots := by
    rw [interfaceReset_host, disableRings_slots]
  exact (slotOf_of_slots hslots _).trans (slotOf_slotsReset flr x)

theorem ringOf_interfaceReset (flr : Bool) (r : Nat) : rxEnabled (ringOf (interfaceReset flr s) r) = false ∧
    txEnabled (ringOf (interfaceReset flr s) r) = false := by
  have hring : ringOf (interfaceReset flr s) r = ringOf (disableRings (fun _ => true) (slotsReset flr s)) r := by
    rw [ringOf, interfaceReset_host, ringOf]
  rw [hring]
  exact ringOf_disableRings r _

theorem interfaceReset_linkUp (flr : Bool) : (interfaceReset flr s).host.linkUp = s.host.linkUp := by
  rw [interfaceReset_host, disableRings_linkUp, slotsReset_linkUp]

theorem interfaceReset_vectors (flr : Bool) : (interfaceReset flr s).host.msixTable = [] ∧ (interfaceReset flr s).host.pba = [] := by
  rw [interfaceReset_host]
  exact ⟨rfl, rfl⟩

/-- The state after the interface is lost: with the link down, or, at a function level reset, as it was. -/
theorem pcieInterfaceLost_exec (flr : Bool) (hup : s.host.linkUp = true) : exec (.pcieInterfaceLost flr) s =
    .next (if flr then interfaceReset flr s else raiseFault 60 18 0 false (kiln 0x0106
      [(1, 0), (1, s.host.linkSpeed), (1, s.host.linkWidth)] (modHost (fun h => { h with linkUp := false }) (interfaceReset flr s)))) := by
  change execPcieInterfaceLost flr s = _
  cases flr with
  | true =>
    simp only [execPcieInterfaceLost, hup, interfaceReset, windowsEnded, slotsReset, Bool.not_true, if_true, if_false, Bool.false_eq_true] <;> rfl
  | false =>
    simp only [execPcieInterfaceLost, hup, interfaceReset, windowsEnded, slotsReset, Bool.not_true, if_false, Bool.false_eq_true] <;> rfl

theorem pcieInterfaceLost_loses (flr : Bool) (x : SlotNo) (hup : s.host.linkUp = true) : Completes (.pcieInterfaceLost flr) s fun t =>
    t.host.linkUp = flr ∧ t.host.msixTable = [] ∧ t.host.pba = [] ∧ (flr = false → raisedLast 60 18 0 t ∧ logged 0x0106 t) ∧
    (∀ r, rxEnabled (ringOf t r) = false ∧ txEnabled (ringOf t r) = false) ∧ slotOf t x.val = slotLost (slotOf s x.val) := by
  refine ⟨_, pcieInterfaceLost_exec flr hup, ?_⟩
  have hslot := slotOf_interfaceReset (s := s) flr x
  have hrings := ringOf_interfaceReset (s := s) flr
  have hlink := interfaceReset_linkUp (s := s) flr
  obtain ⟨hmsix, hpba⟩ := interfaceReset_vectors (s := s) flr
  generalize interfaceReset flr s = u at *
  cases flr with
  | true => exact ⟨hlink.trans hup, hmsix, hpba, nofun, hrings, hslot⟩
  | false =>
    have hlost : ∀ fs, (raiseFault 60 18 0 false (kiln 0x0106 fs (modHost (fun h => { h with linkUp := false }) u))).host =
        { u.host with linkUp := false } := fun fs => (raiseFault_host _ _ _ _ _).trans (kiln_host _ _ _)
    simp only [if_false, Bool.false_eq_true]
    refine ⟨by rw [hlost], ?_, ?_, fun _ => ⟨raisedLast_raiseFault _ _ _ _ _, ?_⟩, fun r => ?_, ?_⟩
    · rw [hlost]
      exact hmsix
    · rw [hlost]
      exact hpba
    · rw [logged, raiseFault_flt_kiln]
      exact kiln_head _ _ _
    · rw [ringOf, hlost]
      exact hrings r
    · rw [slotOf_of_slots (s := u) (by rw [hlost])]
      exact hslot

theorem sessionCloseDone_frees {x : SlotNo} (h : (slotOf s x.val).state = .closing) : Completes (.sessionCloseDone x) s fun t =>
    (slotOf t x.val).state = .free ∧ (slotOf t x.val).role = 0 ∧ ∀ j, j ≠ x.val → slotOf t j = slotOf s j := by
  have hexec : ∃ v : Slot, exec (.sessionCloseDone x) s = .next (setSlot x.val v s) ∧ v.state = .free ∧ v.role = 0 := by
    change ∃ v : Slot, execSessionCloseDone x s = _ ∧ _
    simp only [execSessionCloseDone, h, bne_self_eq_false, if_false, Bool.false_eq_true]
    split
    · exact ⟨_, rfl, rfl, rfl⟩
    · exact ⟨_, rfl, rfl, rfl⟩
  obtain ⟨v, hv, hstate, hrole⟩ := hexec
  refine ⟨_, hv, ?_, ?_, fun j hj => slotOf_setSlot_ne _ _ hj⟩
  · rw [slotOf_setSlot, hstate]
  · rw [slotOf_setSlot, hrole]

end

/-- Settles O45: a lemma for each register and link event. That reserved bits of HST_MBX_CTRL read zero, that a disable may carry other orders and
that a lost interface empties the MSI-X table are the model's choice (assumptions 102, 101 and 99). -/
theorem hostRegistersReadAndWrite : Obligations.HostRegistersReadAndWrite := fun _ _ flr _ x _ _ s => by
  refine ⟨fun hfull => ⟨invalidBarAccess_counts hfull, registerWrite_scratch hfull, registerWrite_ignored hfull, fun i => registerWrite_msix hfull,
    fun o ho => ⟨fun h => ⟨_, registerWrite_base hfull ho, writeBase_held h ▸ accessIgnored_ignored s⟩,
      fun hen hi => ⟨_, registerWrite_base hfull ho, writeBase_writes hen hi ho⟩⟩,
    rcCounterRead_errors hfull, rcCounterRead_faults hfull, mailbox_i3c hfull, fun hi =>
      ⟨hstMbxCtrlWrite_refused hfull hi, hstMbxCtrlWrite_enables hfull hi, hstMbxCtrlWrite_disables hfull hi, hstMbxDb_moves hfull hi,
        hstMbxDb_faults hfull hi, hstMbxCplHeadWrite_moves hfull hi, hstMbxCplHeadWrite_faults hfull hi⟩⟩,
    pcieLinkUp_trains, fun hup => ?_, sessionCloseDone_frees⟩
  obtain ⟨t, ht, hlink, hmsix, hpba, hraised, hrings, hslot⟩ := pcieInterfaceLost_loses flr x hup
  refine ⟨t, ht, hlink, hmsix, hpba, hraised, hrings, fun hi => ?_, fun hi => ?_⟩
  · rw [hslot, slotLost, if_neg (by simp [hi])]
    exact ⟨rfl, rfl⟩
  · rw [hslot, slotLost, if_pos hi]

end Sys2Proof.Proofs
end

section
/-!
PROOFS. Sessions open and close (O46): SESSION_OPEN with a right and a wrong key, the other commands of group 0x01, completions, opcodes that do
not exist, and the ends of the limits (R461 to R465, R481, R482, R489, R493).
-/

namespace Sys2Proof.Proofs

open Sys2Proof Sys2Proof.Machine Sys2Proof.Laws

/-! ### Counters of the mailbox -/

section

variable (i : Nat) (s : State)

/-- What a transport fault counts. -/
def faultCounters : List Counter := [cMbxFaults, cMbxLimited]

theorem enterLimited_counts : Counts faultCounters s (enterLimited i s) := by
  unfold enterLimited
  dsimp only
  split
  · exact Counts.refl
  · refine Counts.count (counts_of_tel ?_) (by decide)
    rw [raiseFault_tel, kiln_tel]
    rfl

theorem transportFault_counts : Counts faultCounters s (transportFault i s) :=
  ((counts_of_tel rfl : Counts faultCounters s _).count (by decide)).trans (enterLimited_counts i _)

@[simp] theorem slotOf_endCommand (e : Ended) : slotOf (endCommand e s) i = slotOf s i := rfl

end

/-! ### SESSION_OPEN (R463, R464, R482) -/

section

variable {c : Cmd} {s : State}

theorem slotOf_takenState_state : (slotOf (takenState c s) c.slot.val).state = (slotOf s c.slot.val).state := slotOf_takeCommand_state _ _

theorem slotOf_takenState_i3c : (slotOf (takenState c s) c.slot.val).i3c = (slotOf s c.slot.val).i3c := slotOf_takeCommand_i3c _ _

/-- Taking a command leaves the credential limits of its slot. -/
theorem takenState_credentials : lockedUntilOf (takenState c s) c.slot.val = lockedUntilOf s c.slot.val ∧
    (slotOf (takenState c s) c.slot.val).wrong = (slotOf s c.slot.val).wrong ∧
    (slotOf (takenState c s) c.slot.val).lockedUntil = (slotOf s c.slot.val).lockedUntil := by
  have hslot : slotOf (takenState c s) c.slot.val = _ := slotOf_modSlot _ _ _
  refine ⟨?_, by rw [hslot], by rw [hslot]⟩
  unfold lockedUntilOf
  rw [hslot]
  rfl

/-- A slot's third wrong credential within 60 s locks it for 60 s; its session's state stands. -/
theorem slotOf_wrongCredential (i : Nat) (s : State) : (slotOf (wrongCredential i s) i).state = (slotOf s i).state ∧
    ((slotOf s i).i3c = false → 2 ≤ ((slotOf s i).wrong.filter fun a => s.now ≤ a + 60 * tSec).length →
      (slotOf (wrongCredential i s) i).lockedUntil = s.now + 60 * tSec) := by
  unfold wrongCredential
  dsimp only
  split
  case isTrue h => exact ⟨rfl, fun hno => by simp [h] at hno⟩
  case isFalse h =>
    rw [slotOf_modSlot]
    refine ⟨rfl, fun _ hn => ?_⟩
    dsimp only
    rw [if_pos (by simpa using hn)]

theorem wrongCredential_ended (i : Nat) (s : State) : (wrongCredential i s).host.ended = s.host.ended := by
  unfold wrongCredential
  dsimp only
  split
  · rfl
  · rfl

/-- What a wrong key of SESSION_OPEN leaves. -/
def keyRefused (i r : Nat) (s : State) : State :=
  wrongCredential i (transportFault i (count cMbxCredential i 1 (kiln 0x0104 [(1, i), (1, r)] s)))

theorem keyRefused_refuses (i r : Nat) (s : State) : (slotOf (keyRefused i r s) i).state = (slotOf s i).state ∧
    counted cMbxCredential i 1 s (keyRefused i r s) ∧ (keyRefused i r s).host.ended = s.host.ended ∧
    ((slotOf s i).i3c = false → 2 ≤ ((slotOf s i).wrong.filter fun a => s.now ≤ a + 60 * tSec).length →
      (slotOf (keyRefused i r s) i).lockedUntil = s.now + 60 * tSec) := by
  let u := count cMbxCredential i 1 (kiln 0x0104 [(1, i), (1, r)] s)
  obtain ⟨fa, l, cr, la, hfault⟩ := slotOf_transportFault i u
  obtain ⟨m, hm, -⟩ := transportFault_host i u
  obtain ⟨hstate, hlock⟩ := slotOf_wrongCredential i (transportFault i u)
  have hslot : slotOf u i = slotOf s i := slotOf_of_host (kiln_host _ _ _) i
  have hnow : (transportFault i u).now = s.now := ((keeps_transportFault i u).same .now rfl).trans (kiln_now _ _ _)
  rw [hfault, hslot, hnow] at hlock
  rw [hfault, hslot] at hstate
  refine ⟨hstate, ?_, ?_, hlock⟩
  · have hcount : counted cMbxCredential i 1 s u := counted_of_tel _ rfl (congrArg ObserveState.counters (kiln_tel _ _ _))
    exact counted_then_same (counted_then_counts hcount (transportFault_counts i u)) ((keeps_wrongCredential _ _).same .tel rfl)
  · refine (wrongCredential_ended _ _).trans ?_
    rw [hm]
    change (kiln 0x0104 [(1, i), (1, r)] s).host.ended = _
    rw [kiln_host]

section

variable (hpass : passes (opSessionOpen !(effectiveCmd c s).flags.getLsbD 0) c s = true)

include hpass

theorem sessionOpen_closed (hst : (slotOf s c.slot.val).state ≠ .pending) : Completes (.sessionOpen c) s fun t =>
    answered (opSessionOpen !(effectiveCmd c s).flags.getLsbD 0) c .state (toLe 2 0xFFFF) [] s t := by
  have hne : ((slotOf (takenState c s) c.slot.val).state != .pending) = true := by
    rw [slotOf_takenState_state]
    simpa using hst
  obtain ⟨t, ht, h, -⟩ := rejects_of (i := .sessionOpen c) (st := .state) (data := toLe 2 0xFFFF) rfl hpass
    (by simp only [hne, if_true]; rfl)
  exact ⟨t, ht, h⟩

variable (hst : (slotOf s c.slot.val).state = .pending)

include hst

omit hpass in
theorem sessionOpen_pending : ((slotOf (takenState c s) c.slot.val).state != .pending) = false := by
  rw [slotOf_takenState_state, hst]
  rfl

theorem sessionOpen_locked (hlock : s.now < lockedUntilOf s c.slot.val) : Completes (.sessionOpen c) s fun t =>
    answered (opSessionOpen !(effectiveCmd c s).flags.getLsbD 0) c .denied (toLe 2 0xFFFF) [] s t ∧ (slotOf t c.slot.val).state = .pending := by
  obtain ⟨hlocked, -, -⟩ := takenState_credentials (c := c) (s := s)
  have hpending := sessionOpen_pending hst
  have htime : (takenState c s).now < lockedUntilOf (takenState c s) c.slot.val := hlocked ▸ hlock
  refine ⟨_, rfl, ?_⟩
  rw [icoux_fail (st := .denied) (data := toLe 2 0xFFFF) hpass (by
    simp only [hpending, htime, if_true, if_false, Bool.false_eq_true]
    rfl)]
  refine ⟨answered_endCommand rfl rfl rfl, ?_⟩
  rw [slotOf_endCommand, slotOf_takenState_state]
  exact hst

variable (hopen : lockedUntilOf s c.slot.val ≤ s.now)

include hopen

theorem sessionOpen_opens (hkey : slice (given c s) 4 16 = roleKey s (u8 (given c s) 0)) : Completes (.sessionOpen c) s fun t =>
    answered (opSessionOpen !(effectiveCmd c s).flags.getLsbD 0) c .ok (toLe 1 c.slot.val ++ toLe 1 (u8 (given c s) 0)) [] s t ∧
      (slotOf t c.slot.val).state = .opened ∧ (slotOf t c.slot.val).role = u8 (given c s) 0 ∧ logged 0x0101 t := by
  obtain ⟨hlocked, -, -⟩ := takenState_credentials (c := c) (s := s)
  have hpending := sessionOpen_pending hst
  have htime : ¬ (takenState c s).now < lockedUntilOf (takenState c s) c.slot.val := hlocked ▸ not_lt.mpr hopen
  have hright : (slice (given c s) 4 16 != roleKey (takenState c s) (u8 (given c s) 0)) = false := by
    rw [hkey]
    exact bne_self_eq_false _
  let fs := [(1, c.slot.val), (1, u8 (given c s) 0), (1, b2n (slotOf (takenState c s) c.slot.val).i3c)]
  let v := modSlot c.slot.val (fun v => { v with state := .opened, role := u8 (given c s) 0 }) (takenState c s)
  refine answers_of (u := kiln 0x0101 fs v) rfl hpass ?_ ?_ ?_
  · simp only [hpending, htime, hright, if_false, Bool.false_eq_true]
    rfl
  · rw [kiln_host]
    rfl
  · rw [slotOf_endCommand, slotOf_of_host (kiln_host _ _ _), slotOf_modSlot, logged, endCommand_flt]
    exact ⟨rfl, rfl, kiln_head _ _ _⟩

theorem sessionOpen_refuses (hkey : slice (given c s) 4 16 ≠ roleKey s (u8 (given c s) 0)) : Completes (.sessionOpen c) s fun t =>
    answered (opSessionOpen !(effectiveCmd c s).flags.getLsbD 0) c .denied (toLe 2 4) [] s t ∧ (slotOf t c.slot.val).state = .pending ∧
      counted cMbxCredential c.slot.val 1 s t ∧ ((slotOf s c.slot.val).i3c = false →
        2 ≤ ((slotOf s c.slot.val).wrong.filter fun a => s.now ≤ a + 60 * tSec).length → (slotOf t c.slot.val).lockedUntil = s.now + 60 * tSec) := by
  obtain ⟨hlocked, hwrong, -⟩ := takenState_credentials (c := c) (s := s)
  have hpending := sessionOpen_pending hst
  have htime : ¬ (takenState c s).now < lockedUntilOf (takenState c s) c.slot.val := hlocked ▸ not_lt.mpr hopen
  have hbad : (slice (given c s) 4 16 != roleKey (takenState c s) (u8 (given c s) 0)) = true := bne_iff_ne.mpr hkey
  obtain ⟨hstate, hcount, hended, hlock⟩ := keyRefused_refuses c.slot.val (u8 (given c s) 0) (takenState c s)
  rw [slotOf_takenState_state] at hstate
  rw [slotOf_takenState_i3c, hwrong] at hlock
  obtain ⟨u, hu⟩ : ∃ u, keyRefused c.slot.val (u8 (given c s) 0) (takenState c s) = u := ⟨_, rfl⟩
  rw [hu] at hstate hcount hended hlock
  refine answers_of (u := u) rfl hpass ?_ hended ⟨?_, ?_, ?_⟩
  · simp only [hpending, htime, hbad, if_false, if_true, Bool.false_eq_true]
    exact congrArg (CmdResult.done · .denied (toLe 2 4) []) hu
  · rw [slotOf_endCommand, hstate, hst]
  · exact counted_then_same hcount (endCommand_tel _ _)
  · rw [slotOf_endCommand]
    exact hlock

end

/-! ### The other commands of group 0x01 -/

theorem sessionClose_writes : Writes opSessionClose c (.sessionClose c) s fun t =>
    (slotOf t c.slot.val).draining = true ∧ ∀ p, p ≠ .host → Same p s t := by
  refine writes_of rfl fun _ => ⟨modSlot c.slot.val (fun v => { v with draining := true }) (takenState c s), rfl, rfl, ?_,
    same_of_keeps_host (keeps_modSlot _ _ _) _⟩
  rw [slotOf_endCommand, slotOf_modSlot]

theorem sessionSync_writes : Writes opSessionSync c (.sessionSync c) s fun t => ∀ p, p ≠ .host → Same p s t :=
  writes_of rfl fun _ => ⟨takenState c s, rfl, rfl, same_of_keeps_host (Keeps.refl _ _) _⟩

theorem roleKey_writes : Writes opRoleKey c (.roleKey c) s fun t => logged 0x0109 t ∧
    ∀ r, roleKey t r = if r = u8 (given c s) 0 then slice (given c s) 4 16 else roleKey s r := by
  refine writes_of rfl fun _ => ⟨_, rfl, ?_, ?_, fun r => ?_⟩
  · rw [kiln_host]
    rfl
  · rw [logged, endCommand_flt]
    exact kiln_head _ _ _
  · rw [roleKey, endCommand_boot, kiln_boot]
    by_cases hr : r = u8 (given c s) 0
    · rw [if_pos hr, hr]
      exact tabGet_set _ _ _ _
    · rw [if_neg hr]
      exact tabGet_set_ne _ _ hr

end

/-! ### Completions (R461, R465, R478) -/

section

variable (e : Ended) (s : State)

/-- The state after a completion has gone to its session's ring, before its vector. -/
def completionWritten (e : Ended) (s : State) : State :=
  let sl := slotOf s e.slot
  let r := e.reply.take e.replyMax
  let t := sl.cplTail.toNat
  setSlot e.slot { sl with cplTail := sl.cplTail + 1 }
    (emit (.hostWrite (sl.cplBase.toNat + 32 * (t % cplEntries sl)) (completionBytes e (t / cplEntries sl % 2 == 0)))
      (if r.isEmpty then s else emit (.hostWrite e.replyAddr.toNat r) s))

theorem writeCompletion_eq : writeCompletion e s =
    if (slotOf s e.slot).ctrl.getLsbD 16 then signal (128 + e.slot) (completionWritten e s) else completionWritten e s := rfl

theorem completionWritten_host : ∃ slots, (completionWritten e s).host = { s.host with slots := slots } := by
  unfold completionWritten
  dsimp only
  split
  · exact ⟨_, rfl⟩
  · exact ⟨_, rfl⟩

/-- A completion's vector changes the pending bits and what was sent alone. -/
theorem writeCompletion_signals : ∃ pba, (writeCompletion e s).host = { (completionWritten e s).host with pba := pba } ∧
    (completionWritten e s).out <:+ (writeCompletion e s).out := by
  rw [writeCompletion_eq]
  split
  · obtain ⟨pba, h⟩ := signal_host (128 + e.slot) (completionWritten e s)
    exact ⟨pba, h, (keeps_signal _ _).seen⟩
  · exact ⟨_, rfl, List.suffix_rfl⟩

theorem writeCompletion_ended : (writeCompletion e s).host.ended = s.host.ended := by
  obtain ⟨_, h, -⟩ := writeCompletion_signals e s
  obtain ⟨_, hw⟩ := completionWritten_host e s
  rw [h, hw]

theorem slotOf_writeCompletion :
    slotOf (writeCompletion e s) e.slot = { slotOf s e.slot with cplTail := (slotOf s e.slot).cplTail + 1 } := by
  obtain ⟨_, h, -⟩ := writeCompletion_signals e s
  rw [slotOf_of_slots (s := completionWritten e s) (by rw [h])]
  exact slotOf_setSlot _ _ _

theorem writeCompletion_out :
    .hostWrite ((slotOf s e.slot).cplBase.toNat + 32 * ((slotOf s e.slot).cplTail.toNat % cplEntries (slotOf s e.slot)))
      (completionBytes e ((slotOf s e.slot).cplTail.toNat / cplEntries (slotOf s e.slot) % 2 == 0)) ∈ (writeCompletion e s).out := by
  obtain ⟨_, -, h⟩ := writeCompletion_signals e s
  exact h.subset List.mem_cons_self

/-- A completion queued for I3C stands last in the queue. -/
theorem queueCompletion_queues : (queueCompletion e s).host.ended = s.host.ended ∧
    (e.slot, completionBytes e false) ∈ (queueCompletion e s).host.i3c.queue := by
  have hqueued : ∀ u : State, u.host.ended = s.host.ended →
      (modHost (fun h => { h with i3c := { h.i3c with queue := h.i3c.queue ++ [(e.slot, completionBytes e false)] } }) u).host.ended =
        s.host.ended ∧ (e.slot, completionBytes e false) ∈ (modHost (fun h =>
          { h with i3c := { h.i3c with queue := h.i3c.queue ++ [(e.slot, completionBytes e false)] } }) u).host.i3c.queue :=
    fun u hu => ⟨hu, List.mem_append_right _ List.mem_cons_self⟩
  have hraised : ∀ d (u : State), (u.host.ended = s.host.ended ∧ (e.slot, completionBytes e false) ∈ u.host.i3c.queue) →
      (raiseIbi false d u).host.ended = s.host.ended ∧ (e.slot, completionBytes e false) ∈ (raiseIbi false d u).host.i3c.queue := by
    intro d u hu
    obtain ⟨a, c, h⟩ := raiseIbi_host false d u
    rw [h]
    exact hu
  unfold queueCompletion
  dsimp only
  split
  · exact hraised _ _ (hqueued _ (by split <;> rfl))
  · exact hqueued _ (by split <;> rfl)

/-- What ends with a session counts nothing. -/
theorem endSession_counters (i cause : Nat) : (endSession i cause s).tel.counters = s.tel.counters := by
  have hended : ∀ u : State, (if u.flt.testSlot == i then endTestMode u else u).tel = u.tel := fun u => by
    split
    · exact (keeps_endTestMode _).same .tel rfl
    · rfl
  have hdelegated : ∀ (l : List Nat) (u : State), (l.foldl (fun s g => delegate i 0 g s) u).tel = u.tel := fun l u =>
    foldl_keeps (fun s : State => s.tel) fun u g _ => (keeps_delegate i 0 g u).same .tel rfl
  have hgrants : ∀ (u : State) f g, (modMat f (dropUploads (· == some i) (modTel (fun t => { t with grants := g }) u))).tel.counters =
    u.tel.counters := fun _ _ _ => rfl
  have hrings : ∀ p (u : State), (disableRings p u).tel = u.tel := fun _ _ => rfl
  rw [endSession, hended]
  refine (hgrants _ _ _).trans ?_
  rw [hrings, hdelegated, kiln_tel]

/-- What follows a completion changes in the host's state the slots, and what a session holds; it counts nothing. -/
theorem afterCompletion_host : (∃ slots rings uploads, (afterCompletion e s).host =
    { s.host with slots := slots, rings := rings, uploads := uploads }) ∧ (afterCompletion e s).tel.counters = s.tel.counters := by
  obtain ⟨rings, uploads, hsession⟩ := endSession_host e.slot 1 s
  have hset : ∀ v (u : State), (setSlot e.slot v u).host = { u.host with slots := tabSet {} e.slot v u.host.slots } := fun _ _ => rfl
  have hcounters : ∀ v (u : State), (setSlot e.slot v u).tel.counters = u.tel.counters := fun _ _ => rfl
  unfold afterCompletion
  dsimp only
  split
  · exact ⟨⟨_, _, _, rfl⟩, rfl⟩
  · split
    · split
      · exact ⟨⟨_, rings, uploads, by rw [hset, hsession]⟩, (hcounters _ _).trans (endSession_counters s _ _)⟩
      · exact ⟨⟨_, rings, uploads, by rw [hset, hsession]⟩, (hcounters _ _).trans (endSession_counters s _ _)⟩
    · split
      · exact ⟨⟨_, _, _, rfl⟩, rfl⟩
      · exact ⟨⟨_, _, _, rfl⟩, rfl⟩

/-- The tail of a slot on PCI Express stands after its completion. -/
theorem afterCompletion_cplTail (h : (slotOf s e.slot).i3c = false) : (slotOf (afterCompletion e s) e.slot).cplTail = (slotOf s e.slot).cplTail := by
  have hslot : slotOf (endSession e.slot 1 s) e.slot = slotOf s e.slot := slotOf_of_slots (endSession_slots _ _ _) _
  unfold afterCompletion
  simp only [hslot, h, if_false, Bool.false_eq_true, Bool.false_and]
  split
  · rfl
  · split
    · rw [slotOf_setSlot]
    · rfl

/-- A session that closes leaves its slot FREE. -/
theorem afterCompletion_frees (hside : e.aside = false) (hop : e.opcode = 0x0102) (hok : e.status = .ok) :
    (slotOf (afterCompletion e s) e.slot).state = .free := by
  unfold afterCompletion
  simp only [hside, hop, hok, if_false, Bool.false_eq_true, beq_self_eq_true, Bool.and_self, if_true]
  split
  · rw [slotOf_setSlot]
    rfl
  · rw [slotOf_setSlot]
    rfl

end

section

variable {e : Ended} {k : Nat} {s : State}

/-- The state after the completion of `e`, the `k`-th command that has ended, is counted, before what follows it. -/
def completed (e : Ended) (k : Nat) (s : State) : State :=
  modHost (fun h => { h with ended := dropAt h.ended k })
    (count cMbxCommands e.slot 1 (if endedOnI3c s e then queueCompletion e s else writeCompletion e s))

theorem completed_ended : (completed e k s).host.ended = s.host.ended.eraseIdx k := by
  have h : (if endedOnI3c s e then queueCompletion e s else writeCompletion e s).host.ended = s.host.ended := by
    split
    · exact (queueCompletion_queues e s).1
    · exact writeCompletion_ended e s
  exact congrArg (dropAt · k) h

theorem completed_counted : counted cMbxCommands e.slot 1 s (completed e k s) := by
  have h : (if endedOnI3c s e then queueCompletion e s else writeCompletion e s).tel = s.tel := by
    split
    · exact (keeps_queueCompletion e s).same .tel rfl
    · exact (keeps_writeCompletion e s).same .tel rfl
  exact counted_of_tel _ rfl (congrArg ObserveState.counters h)

theorem commandCompletion_completes (hk : s.host.ended[k]? = some e) (hmay : mayComplete s e = true) (hslot : e.slot < 32) :
    Completes (.commandCompletion k) s fun t => t.host.ended = s.host.ended.eraseIdx k ∧ counted cMbxCommands e.slot 1 s t ∧
      ((slotOf s e.slot).i3c = false →
        .hostWrite ((slotOf s e.slot).cplBase.toNat + 32 * ((slotOf s e.slot).cplTail.toNat % cplEntries (slotOf s e.slot)))
          (completionBytes e ((slotOf s e.slot).cplTail.toNat / cplEntries (slotOf s e.slot) % 2 == 0)) ∈ t.out ∧
        (slotOf t e.slot).cplTail = (slotOf s e.slot).cplTail + 1) ∧
      ((slotOf s e.slot).i3c = true → (e.slot, completionBytes e false) ∈ t.host.i3c.queue) ∧
      (e.aside = false → e.opcode = 0x0102 → e.status = .ok → (slotOf t e.slot).state = .free) := by
  have hexec : exec (.commandCompletion k) s = .next (afterCompletion e (completed e k s)) := by
    change execCommandCompletion k s = _
    simp only [execCommandCompletion, hk, hmay, Bool.not_true, if_false, Bool.false_eq_true, if_neg (not_le.mpr hslot)]
    rfl
  obtain ⟨⟨_, _, _, hafter⟩, hcounters⟩ := afterCompletion_host e (completed e k s)
  have hside : endedOnI3c s e = (slotOf s e.slot).i3c := by simp [endedOnI3c, not_le.mpr hslot]
  refine ⟨_, hexec, ?_, counted_then_counts (l := []) completed_counted (counts_of_counters hcounters), fun hi => ?_, fun hi => ?_,
    afterCompletion_frees e _⟩
  · rw [hafter]
    exact completed_ended
  · have hdone : completed e k s = modHost (fun h => { h with ended := dropAt h.ended k })
        (count cMbxCommands e.slot 1 (writeCompletion e s)) := by rw [completed, hside, hi, if_neg (by decide)]
    have hwritten : slotOf (completed e k s) e.slot = { slotOf s e.slot with cplTail := (slotOf s e.slot).cplTail + 1 } := by
      rw [hdone, ← slotOf_writeCompletion]
      rfl
    refine ⟨(keeps_afterCompletion e _).seen.subset ?_, ?_⟩
    · rw [hdone]
      exact writeCompletion_out e s
    · rw [afterCompletion_cplTail e _ (by rw [hwritten]; exact hi), hwritten]
  · have hdone : completed e k s = modHost (fun h => { h with ended := dropAt h.ended k })
        (count cMbxCommands e.slot 1 (queueCompletion e s)) := by rw [completed, hside, hi, if_pos rfl]
    rw [hafter, hdone]
    exact (queueCompletion_queues e s).2

end

/-! ### Opcodes that do not exist, and the ends of the limits (R481, R482, R489) -/

section

variable {c : Cmd} {s : State}

theorem unknownOpcode_answers {opcode : BitVec 16} (hno : opcodeExists opcode.toNat = false)
    (htake : canTake opcode.toNat false c.slot.val s = true) (hlo : 0 < opcode.toNat / 256) (hhi : opcode.toNat / 256 < 16)
    (htransport : transportBad (effectiveCmd c s) (slotOf s c.slot.val).i3c = none) (hst : (slotOf s c.slot.val).state ≠ .pending) :
    Completes (.unknownOpcode c opcode) s fun t =>
      answered { opcode := opcode.toNat, write := false, len := fun _ => true } c .notsup (toLe 2 0xFFFF) [] s t ∧
        ∀ p, p ≠ .host → Same p s t := by
  let d : OpDef := { opcode := opcode.toNat, write := false, len := fun _ => true }
  have hgroup : (opcode.toNat / 256 == 0 || decide (15 < opcode.toNat / 256)) = false := by
    simp only [Bool.or_eq_false_iff, beq_eq_false_iff_ne, decide_eq_false_iff_not]
    omega
  have hpending : ((slotOf s c.slot.val).state == .pending) = false := by simpa using hst
  have hexec : exec (.unknownOpcode c opcode) s =
      .next (endCommand (endedOf d (effectiveCmd c s) .notsup (toLe 2 0xFFFF) [] false) (takenState c s)) := by
    change execUnknownOpcode c opcode s = _
    simp only [execUnknownOpcode, hno, htake, htransport, hgroup, hpending, Bool.not_true, Bool.or_self, if_false, Bool.false_eq_true,
      Option.isSome_none]
    rfl
  exact ⟨_, hexec, answered_endCommand rfl rfl rfl, same_of_keeps_host (Keeps.refl _ _) _⟩

section

variable {x : SlotNo}

theorem limitedExit_exits (h : (slotOf s x.val).limited = true) : Completes (.limitedExit x) s fun t => (slotOf t x.val).limited = false ∧
    (slotOf t x.val).faultAt = [] ∧ (slotOf s x.val).faultAt.headD s.now + 10 * tSec ≤ t.now := by
  refine ⟨_, (if_neg (by simp [h]) : execLimitedExit x s = _), ?_⟩
  dsimp only
  rw [slotOf_modSlot]
  exact ⟨rfl, rfl, le_reach_now _ _⟩

theorem limitedCommandTake_takes (h : (slotOf s x.val).limited = true) : Completes (.limitedCommandTake x) s fun t =>
    (slotOf t x.val).credit = true ∧ (slotOf s x.val).lastTake + 10 * tMs ≤ t.now := by
  refine ⟨_, (if_neg (by simp [h]) : execLimitedCommandTake x s = _), ?_⟩
  dsimp only
  rw [slotOf_modSlot]
  exact ⟨rfl, le_reach_now _ _⟩

theorem credentialLockoutEnd_slot (h : (slotOf s x.val).lockedUntil ≠ 0) : Completes (.credentialLockoutEnd (some x)) s fun t =>
    (slotOf t x.val).lockedUntil = 0 ∧ (slotOf s x.val).lockedUntil ≤ t.now := by
  refine ⟨_, (if_neg (by simpa using h) : execCredentialLockoutEnd (some x) s = _), ?_⟩
  dsimp only
  rw [slotOf_modSlot]
  exact ⟨rfl, le_reach_now _ _⟩

theorem credentialLockoutEnd_i3c (h : s.host.i3c.lockedUntil ≠ 0) : Completes (.credentialLockoutEnd none) s fun t =>
    t.host.i3c.lockedUntil = 0 ∧ s.host.i3c.lockedUntil ≤ t.now :=
  ⟨_, (if_neg (by simpa using h) : execCredentialLockoutEnd none s = _), rfl, le_reach_now _ _⟩

end

end

/-- Settles O46: a lemma for each command, the completion and each limit's end. -/
theorem sessionsOpenAndClose : Obligations.SessionsOpenAndClose := fun _ _ _ _ _ =>
  ⟨fun hp hst hopen => ⟨sessionOpen_opens hp hst hopen, sessionOpen_refuses hp hst hopen⟩, sessionOpen_locked, sessionOpen_closed,
    sessionClose_writes, sessionSync_writes, roleKey_writes, fun _ => commandCompletion_completes, unknownOpcode_answers,
    fun h => ⟨limitedExit_exits h, limitedCommandTake_takes h⟩, credentialLockoutEnd_slot, credentialLockoutEnd_i3c⟩

end Sys2Proof.Proofs
end

section
/-!
PROOFS. CAP_READ answers the capability region, which BAR0 reads too (O57): R467, R500, R501.
-/

namespace Sys2Proof.Proofs

open Sys2Proof Sys2Proof.Machine Sys2Proof.Laws

/-! ### Fields of a byte string -/

theorem slice_length (b : Bytes) (off n : Nat) : (slice b off n).length = n := by
  simp only [slice, List.length_append, List.length_replicate, List.length_take, List.length_drop]
  omega

/-- A field that lies past a prefix is a field of the rest. -/
theorem field_append (a b : Bytes) (k n : Nat) : field (a ++ b) (a.length + k) n = field b k n := by
  simp only [field, List.drop_append, List.drop_of_length_le (Nat.le_add_right _ _), List.nil_append, Nat.add_sub_cancel_left]

/-- A field that lies inside a prefix is the prefix's. -/
theorem field_append_left (a b : Bytes) (k n : Nat) (h : k + n ≤ a.length) : field (a ++ b) k n = field a k n := by
  rw [field, field, List.drop_append_of_le_length (by omega), List.take_append_of_le_length (by rw [List.length_drop]; omega)]

/-- A slice that lies inside holds the field at its place. -/
theorem field_slice (b : Bytes) (off n : Nat) (h : off + n ≤ b.length) : field (slice b off n) 0 n = field b off n := by
  have hl : ((b.drop off).take n).length = n := by
    rw [List.length_take, List.length_drop]; omega
  simp only [field, slice, hl, Nat.sub_self, List.replicate_zero, List.append_nil, List.drop_zero, List.take_take, Nat.min_self]

/-! ### The region -/

/-- The first capability, which holds what depends on the state. -/
def firstCap (s : State) : Bytes :=
  capability 1 0x40020 (toLe 4 s.boot.running.version ++ slice s.boot.capModes 0 3 ++ toLe 1 s.boot.slot ++ toLe 8 Config.serial.toNat ++ toLe 8 0)

/-- The other capabilities, the same in every state. -/
def restCaps : Bytes :=
  capability 2 0x40030 ([32, 40] ++ toLe 2 4096 ++ [4, 10, 8, 0]) ++
  capability 3 0x40048 (List.replicate 15 1 ++ [0]) ++
  capability 4 0x40058 (toLe 2 64 ++ toLe 2 192 ++ toLe 4 65536) ++
  capability 5 0x40068 (toLe 4 65536 ++ toLe 2 64 ++ [1, 0]) ++
  capability 6 0x40078 ([1, 0] ++ toLe 2 1024 ++ toLe 4 0) ++
  capability 7 0x40088 (toLe 4 32768 ++ toLe 2 32 ++ toLe 2 0) ++
  capability 8 0 ([1, 0x3A] ++ toLe 2 68 ++ toLe 2 68 ++ toLe 2 0)

theorem capRegion_parts (s : State) : capRegion s = firstCap s ++ restCaps := by
  simp only [capRegion, firstCap, restCaps, List.append_assoc]

theorem firstCap_length (s : State) : (firstCap s).length = 32 := by
  simp only [firstCap, capability, List.length_append, toLe_length, slice_length]

theorem capRegion_length (s : State) : (capRegion s).length = 152 := by
  rw [capRegion_parts, List.length_append, firstCap_length]
  decide

/-- The header of the first capability: its number and where the second one begins. -/
theorem firstCap_links (s : State) : u16 (firstCap s) 0 = 1 ∧ field (firstCap s) 4 3 = 0x40020 := by
  have hbody : ∀ body : Bytes, body.length = 24 → capability 1 0x40020 body = [1, 0, 1, 3, 0x20, 0, 4, 1] ++ body := fun body h => by
    simp only [capability, h]
    rfl
  rw [firstCap, hbody _ (by simp only [List.length_append, toLe_length, slice_length]), u16, field_append_left _ _ _ _ (by decide),
    field_append_left _ _ _ _ (by decide)]
  decide

/-- A field inside the first capability. -/
theorem field_capRegion_first (s : State) (k n : Nat) (h : k + n ≤ 32) : field (capRegion s) k n = field (firstCap s) k n := by
  rw [capRegion_parts, field_append_left _ _ _ _ (by rw [firstCap_length]; exact h)]

/-- A field past the first capability is the same in every state. -/
theorem field_capRegion (s : State) (k n : Nat) : field (capRegion s) (32 + k) n = field restCaps k n := by
  rw [capRegion_parts, ← firstCap_length s, field_append]

/-- Where capability `j + 2` begins, counted from the second one. -/
def laterCapAt (j : Nat) : Nat := [0, 0x10, 0x28, 0x38, 0x48, 0x58, 0x68].getD j 0

theorem restCaps_links (j : Nat) (hj : j < 7) : u16 restCaps (laterCapAt j) = j + 2 ∧
    field restCaps (laterCapAt j + 4) 3 = if j = 6 then 0 else 0x40020 + laterCapAt (j + 1) := by
  revert j
  decide

/-- Where capability `j + 1` begins. -/
def capAt (j : Nat) : Nat := [0, 0x20, 0x30, 0x48, 0x58, 0x68, 0x78, 0x88].getD j 0

theorem capAt_succ (j : Nat) (hj : j < 7) : capAt (j + 1) = 32 + laterCapAt j := by
  revert j
  decide

/-- Each capability stands at its offset with its number and the next one's offset. -/
theorem capRegion_links (s : State) (j : Nat) (hj : j < 8) : u16 (capRegion s) (capAt j) = j + 1 ∧
    field (capRegion s) (capAt j + 4) 3 = if j = 7 then 0 else 0x40000 + capAt (j + 1) := by
  cases j with
  | zero =>
    have h0 : capAt 0 = 0 := by decide
    rw [h0, u16, field_capRegion_first s 0 2 (by decide), field_capRegion_first s (0 + 4) 3 (by decide)]
    exact firstCap_links s
  | succ j =>
    have hj : j < 7 := by omega
    obtain ⟨hid, hnext⟩ := restCaps_links j hj
    rw [u16, capAt_succ j hj, field_capRegion, Nat.add_assoc 32, field_capRegion]
    refine ⟨hid, hnext.trans ?_⟩
    by_cases h6 : j = 6
    · rw [if_pos h6, if_pos (by omega)]
    · rw [if_neg h6, if_neg (by omega), capAt_succ (j + 1) (by omega)]
      omega

/-- BAR0 reads the published region dword by dword. -/
theorem bar0_capRegion (s : State) (hc : s.boot.capsReady = true) (hb : barFull s = true) (k : Nat) (hk : k < 38) :
    bar0 s (0x40000 + 4 * k) = u32 (capRegion s) (4 * k) := by
  have hlow : ∀ lo hi, hi < 0x40000 → inRange (0x40000 + 4 * k) lo hi = false := by
    intro lo hi h
    simp only [inRange, Bool.and_eq_false_iff, decide_eq_false_iff_not]
    omega
  have hin : inRange (0x40000 + 4 * k) 0x40000 0x4FFFF = true := by
    simp only [inRange, Bool.and_eq_true, decide_eq_true_eq]
    omega
  have hne : ∀ n, n < 0x40000 → (0x40000 + 4 * k == n) = false := by
    intro n h
    simp only [beq_eq_false_iff_ne]
    omega
  have hlen := capRegion_length s
  simp only [bar0, barLive_of_barFull hb, hb, hc, hne 0 (by decide), hne 4 (by decide), hne 8 (by decide), hne 0xC (by decide),
    hne 0x10 (by decide), hne 0x14 (by decide), hlow 0x1000 0x3FFF (by decide), hlow 0x4000 0x400F (by decide),
    hlow 0x10000 0x11FFF (by decide), hlow 0x30000 0x30BFF (by decide), hlow 0x31000 0x31017 (by decide), hin, Bool.or_self, Bool.not_true,
    if_true, if_false, Bool.false_eq_true, Nat.add_sub_cancel_left]
  exact field_slice _ _ _ (by omega)

/-- Settles O57: the read answers the region as it stands, before CAPS_READY the command's own work rejects it, and the region is one
capability that names the state's image followed by seven that never change. -/
theorem capReadAnswersTheRegion : Obligations.CapReadAnswersTheRegion := by
  intro c s
  have hexec : ∀ b, s.boot.capsReady = b → exec (.capRead c) s = .next (icoux opCapRead c
      (fun _ _ u => if u.boot.capsReady then okReply u (capRegion u) else badAll .state) s) := fun _ _ => rfl
  refine ⟨fun hc => ?_, fun hc hp => ?_, capRegion_length s, fun hc hb k hk => bar0_capRegion s hc hb k hk, capRegion_links s⟩
  · exact reads_of (hexec _ hc) fun _ => if_pos (c := (takenState c s).boot.capsReady = true) hc
  · refine rejects_of (hexec _ hc) hp ?_
    exact (if_neg (c := (takenState c s).boot.capsReady = true) (by rw [show (takenState c s).boot.capsReady = false from hc]; decide))

end Sys2Proof.Proofs
end

section
/-!
PROOFS. Icoux checks a command in the order of R489 (O7), and holds the commands of the datapath back until READY (O56): R481, R489, R491.
-/

namespace Sys2Proof.Proofs

open Sys2Proof Sys2Proof.Machine Sys2Proof.Laws

/-! ### Every command of Icoux is run by `icoux` -/

/-- The transport checks and the checks of R489 let the command of an open session pass. -/
def checksPass (d : OpDef) (c : Cmd) (s : State) : Prop :=
  (slotOf s c.slot.val).state = .opened ∧ transportBad (effectiveCmd c s) (slotOf s c.slot.val).i3c = none ∧
    checkCommand d (effectiveCmd c s) (takenState c s) = none

/-- Only a command that every check lets pass waits: IMAGE_UNLOAD, while frames stand in its pipelines (R506). -/
theorem checksPass_of_unloadWaits {c : Cmd} {s : State} (h : unloadWaits c s = true) : checksPass opImageUnload c s := by
  simp only [unloadWaits, Bool.and_eq_true, beq_iff_eq, Option.isNone_iff_eq_none] at h
  obtain ⟨⟨⟨⟨⟨hopen, hsound⟩, hcheck⟩, -⟩, -⟩, -⟩ := h
  exact ⟨hopen, hsound, hcheck⟩

theorem exec_imageUnload (c : Cmd) (s : State) : (∃ body, exec (.imageUnload c) s = .next (icoux opImageUnload c body s)) ∨
    exec (.imageUnload c) s = .next s ∧ checksPass opImageUnload c s := by
  cases h : unloadWaits c s with
  | true => exact .inr ⟨if_pos h, checksPass_of_unloadWaits h⟩
  | false => exact .inl ⟨_, if_neg (by rw [h]; decide)⟩

/-- A command of Icoux is run by `icoux`, or waits and has passed every check. -/
theorem exec_of_commandDef {i : Instr} {s : State} {d : OpDef} {c : Cmd} (h : commandDef i s = some (d, c)) :
    (∃ body, exec i s = .next (icoux d c body s)) ∨ exec i s = .next s ∧ checksPass d c s := by
  cases i
  case imageUnload c => cases h; exact exec_imageUnload c s
  all_goals cases h
  all_goals exact .inl ⟨_, rfl⟩

/-! ### What a taken command does at each check -/

section

variable {d : OpDef} {c : Cmd} {s : State} {body : Nat → Bytes → State → CmdResult}

theorem runTaken_badarg (hb : transportBad c (slotOf s c.slot.val).i3c = some .badarg) : runTaken d c body s =
    transportFault c.slot.val (endCommand (endedOf d c .badarg [] [] true) s) := by
  unfold runTaken
  simp only [hb]

theorem runTaken_integrity (hb : transportBad c (slotOf s c.slot.val).i3c = some .integrity) : runTaken d c body s =
    transferFailed d c c.payloadAddr s := by
  unfold runTaken
  simp only [hb]

variable (hb : transportBad c (slotOf s c.slot.val).i3c = none)
include hb

theorem runTaken_pending (hp : (slotOf s c.slot.val).state = .pending) (ho : d.opcode ≠ 0x0101) : runTaken d c body s =
    endCommand (endedOf d c .state [] [] true) s := by
  have hpend : ((slotOf s c.slot.val).state == .pending && d.opcode != 0x0101) = true := by
    rw [hp]
    simpa using ho
  unfold runTaken
  simp only [hb, hpend, if_true]

theorem runTaken_rejected (hp : (slotOf s c.slot.val).state = .opened) {st : Status} {data : Bytes}
    (hc : checkCommand d c s = some (st, data)) : runTaken d c body s = endCommand (endedOf d c st data [] false) s := by
  have hopen : ((slotOf s c.slot.val).state == .pending && d.opcode != 0x0101) = false := by rw [hp]; rfl
  unfold runTaken
  simp only [hb, hopen, Bool.false_eq_true, if_false, hc]

end

section

variable {d : OpDef} {c : Cmd} {s : State} {body : Nat → Bytes → State → CmdResult}

theorem icoux_waits (h : canTake d.opcode d.write c.slot.val s = false) : icoux d c body s = s :=
  if_neg (by rw [h]; decide)

theorem icoux_taken (h : canTake d.opcode d.write c.slot.val s = true) :
    icoux d c body s = runTaken d (effectiveCmd c s) body (takenState c s) := if_pos h

/-- The state and the transport of a slot stand when its command is taken. -/
theorem slotOf_takenState (c : Cmd) (s : State) :
    (slotOf (takenState c s) (effectiveCmd c s).slot.val).state = (slotOf s c.slot.val).state ∧
    (slotOf (takenState c s) (effectiveCmd c s).slot.val).i3c = (slotOf s c.slot.val).i3c := by
  rw [effectiveCmd_slot]
  exact ⟨slotOf_takeCommand_state _ _, slotOf_takeCommand_i3c _ _⟩

theorem transportBad_takenState (c : Cmd) (s : State) :
    transportBad (effectiveCmd c s) (slotOf (takenState c s) (effectiveCmd c s).slot.val).i3c =
      transportBad (effectiveCmd c s) (slotOf s c.slot.val).i3c := congrArg _ (slotOf_takenState c s).2

variable (h : canTake d.opcode d.write c.slot.val s = true)
include h

theorem icoux_badarg (hb : transportBad (effectiveCmd c s) (slotOf s c.slot.val).i3c = some .badarg) : icoux d c body s =
    transportFault c.slot.val (endCommand (endedOf d (effectiveCmd c s) .badarg [] [] true) (takenState c s)) := by
  rw [← effectiveCmd_slot c s]
  exact (icoux_taken h).trans (runTaken_badarg ((transportBad_takenState c s).trans hb))

theorem icoux_integrity (hb : transportBad (effectiveCmd c s) (slotOf s c.slot.val).i3c = some .integrity) :
    icoux d c body s = transferFailed d (effectiveCmd c s) (effectiveCmd c s).payloadAddr (takenState c s) :=
  (icoux_taken h).trans (runTaken_integrity ((transportBad_takenState c s).trans hb))

variable (hb : transportBad (effectiveCmd c s) (slotOf s c.slot.val).i3c = none)
include hb

theorem icoux_pending (hp : (slotOf s c.slot.val).state = .pending) (ho : d.opcode ≠ 0x0101) :
    icoux d c body s = endCommand (endedOf d (effectiveCmd c s) .state [] [] true) (takenState c s) :=
  (icoux_taken h).trans (runTaken_pending ((transportBad_takenState c s).trans hb) ((slotOf_takenState c s).1.trans hp) ho)

theorem icoux_rejected (hp : (slotOf s c.slot.val).state = .opened) {st : Status} {data : Bytes}
    (hc : checkCommand d (effectiveCmd c s) (takenState c s) = some (st, data)) :
    icoux d c body s = endCommand (endedOf d (effectiveCmd c s) st data [] false) (takenState c s) :=
  (icoux_taken h).trans (runTaken_rejected ((transportBad_takenState c s).trans hb) ((slotOf_takenState c s).1.trans hp) hc)

end

/-! ### The checks of the role and of the stage come first -/

section

variable {d : OpDef} {c : Cmd} {s : State}

theorem roleOk_takenState (r : RoleReq) : roleOk (takenState c s) c.slot.val r = roleOk s c.slot.val r := by
  have hrole : roleOf (takenState c s) c.slot.val = roleOf s c.slot.val := slotOf_takeCommand_role _ _
  cases r with
  | any => rfl
  | op => simp only [roleOk, hrole]
  | admin => simp only [roleOk, hrole]

theorem checkCommand_denied (h : roleOk s c.slot.val d.role = false) :
    checkCommand d (effectiveCmd c s) (takenState c s) = some (.denied, failureData d.opcode 0xFFFF) := by
  simp only [checkCommand, effectiveCmd_slot, roleOk_takenState, h, Bool.not_false, Bool.true_or, if_true]

/-- Before READY the commands of the datapath's groups fail with STATE (R491). -/
theorem checkCommand_notReady (h : roleOk s c.slot.val d.role = true) (hg : d.grant (takenState c s) c.slot.val (given c s) = true)
    (hs : s.boot.stage ≠ .ready) (hlo : 3 ≤ d.group) (hhi : d.group ≤ 13) :
    checkCommand d (effectiveCmd c s) (takenState c s) = some (.state, failureData d.opcode 0xFFFF) := by
  have hg' : d.grant (takenState c s) c.slot.val (payloadOf (effectiveCmd c s)) = true := hg
  have hstage : stageOk (takenState c s) d.group = false := by
    have hboot : (takenState c s).boot.stage = s.boot.stage := rfl
    simp only [stageOk, hboot, Bool.or_eq_false_iff, beq_eq_false_iff_ne, decide_eq_false_iff_not]
    exact ⟨⟨hs, by omega⟩, by omega⟩
  simp only [checkCommand, effectiveCmd_slot, roleOk_takenState, h, hg', hstage, Bool.not_true, Bool.not_false, Bool.or_self, if_true, if_false,
    Bool.false_eq_true]

end

/-! ### Transport faults -/

theorem transportFault_ended (i : Nat) (s : State) :
    (transportFault i s).host.ended = s.host.ended ∧ (transportFault i s).host.running = s.host.running := by
  obtain ⟨_, h, -⟩ := transportFault_host i s
  exact ⟨by rw [h], by rw [h]⟩

/-- A bad descriptor ends its command and counts a fault of its slot. -/
theorem badarg_ends (i : Nat) (e : Ended) (s : State) : ((transportFault i (endCommand e s)).host.ended = s.host.ended ++ [e] ∧
    (transportFault i (endCommand e s)).host.running = s.host.running) ∧ faultCounted i s (transportFault i (endCommand e s)) := by
  obtain ⟨hended, hrunning⟩ := transportFault_ended i (endCommand e s)
  obtain ⟨hi, hj⟩ := faultCounted_transportFault i (endCommand e s)
  rw [slotOf_endCommand] at hi
  exact ⟨⟨hended, hrunning⟩, hi, fun j hne => (hj j hne).trans (slotOf_endCommand _ _ _)⟩

/-- A failed transfer ends its command and counts a fault of its slot. -/
theorem transferFailed_ends (d : OpDef) (c : Cmd) (addr : BitVec 64) (s : State) :
    ((transferFailed d c addr s).host.ended = s.host.ended ++ [endedOf d c .integrity [] [] true] ∧
      (transferFailed d c addr s).host.running = s.host.running) ∧ faultCounted c.slot.val s (transferFailed d c addr s) := by
  obtain ⟨k, hk⟩ : ∃ k, kiln 0x0107 [(1, 1), (4, c.slot.val), (4, addr.toNat)] s = k := ⟨_, rfl⟩
  have hkiln : k.host = s.host := hk ▸ kiln_host _ _ _
  obtain ⟨u, hu⟩ : ∃ u, raiseFault 60 18 0 false (endCommand (endedOf d c .integrity [] [] true) k) = u := ⟨_, rfl⟩
  have hhost : u.host = (endCommand (endedOf d c .integrity [] [] true) k).host := hu ▸ raiseFault_host _ _ _ _ _
  obtain ⟨hended, hrunning⟩ := transportFault_ended c.slot.val u
  obtain ⟨hi, hj⟩ := faultCounted_transportFault c.slot.val u
  have hslot : ∀ j, slotOf u j = slotOf s j := fun j =>
    (slotOf_of_host hhost j).trans ((slotOf_endCommand _ _ _).trans (slotOf_of_host hkiln j))
  rw [transferFailed, hk, hu]
  rw [hslot] at hi
  refine ⟨⟨hended.trans ?_, hrunning.trans ?_⟩, hi, fun j hne => (hj j hne).trans (hslot j)⟩
  · rw [hhost, ← hkiln]; rfl
  · rw [hhost, ← hkiln]; rfl

/-- A command rejected without a fault ends so and changes nothing else. -/
theorem rejected_ends (e : Ended) (c : Cmd) (s : State) : ((endCommand e (takenState c s)).host.ended = s.host.ended ++ [e] ∧
    (endCommand e (takenState c s)).host.running = s.host.running) ∧ ∀ p, p ≠ .host → Same p s (endCommand e (takenState c s)) :=
  ⟨⟨rfl, rfl⟩, same_of_host _⟩

/-- Settles O7: `icoux` runs the transport checks, then the slot's state, then the checks of R489 whose first failure decides. -/
theorem commandsAreCheckedInOrder : Obligations.CommandsAreCheckedInOrder := by
  intro i d c s hdef e sl endsWith keeps
  obtain ⟨body, hexec⟩ | ⟨hexec, hopen, hsound, hcheck⟩ := exec_of_commandDef hdef
  · have hreject : canTake d.opcode d.write c.slot.val s = true → transportBad e sl.i3c = none → sl.state = .opened → ∀ st data,
        checkCommand d e (takenState c s) = some (st, data) → Completes i s fun t => endsWith st data false t ∧ keeps t := by
      intro h hb hp st data hc
      exact ⟨_, hexec.trans (congrArg _ (icoux_rejected h hb hp hc)), rejected_ends _ _ _⟩
    refine ⟨fun h => by rw [hexec, icoux_waits h], fun h => ⟨fun hb => ?_, fun hb => ?_, fun hb => ⟨fun hp ho => ?_, fun hp => ⟨?_, ?_, ?_⟩⟩⟩⟩
    · exact ⟨_, hexec.trans (congrArg _ (icoux_badarg h hb)), badarg_ends _ _ _⟩
    · have hends := transferFailed_ends d e e.payloadAddr (takenState c s)
      rw [effectiveCmd_slot] at hends
      exact ⟨_, hexec.trans (congrArg _ (icoux_integrity h hb)), hends⟩
    · exact ⟨_, hexec.trans (congrArg _ (icoux_pending h hb hp ho)), rejected_ends _ _ _⟩
    · exact fun hr => hreject h hb hp _ _ (checkCommand_denied hr)
    · exact fun hr hg hs hlo hhi => hreject h hb hp _ _ (checkCommand_notReady hr hg hs hlo hhi)
    · exact hreject h hb hp
  · have hclash : ∀ {st data}, checkCommand d e (takenState c s) = some (st, data) → False := fun hc => by
      rw [hcheck] at hc
      cases hc
    refine ⟨fun _ => hexec, fun h => ⟨fun hb => ?_, fun hb => ?_, fun hb => ⟨fun hp => ?_, fun hp => ⟨?_, ?_, ?_⟩⟩⟩⟩
    · exact absurd (hsound.symm.trans hb) (by decide)
    · exact absurd (hsound.symm.trans hb) (by decide)
    · exact absurd (hopen.symm.trans hp) (by decide)
    · exact fun hr => (hclash (checkCommand_denied hr)).elim
    · exact fun hr hg hs hlo hhi => (hclash (checkCommand_notReady hr hg hs hlo hhi)).elim
    · exact fun st data hc => (hclash hc).elim

/-! ### Before READY (R491) -/

/-- During a warm restart Icoux takes no command. -/
theorem canTake_warmRestart {s : State} (h : s.boot.stage = .warmRestart) (o : Nat) (w : Bool) (i : Nat) : canTake o w i s = false := by
  have htakes : icouxTakes s = false := by rw [icouxTakes, h]
  simp only [canTake, htakes, Bool.false_and]

theorem exec_unknownOpcode_waits {c : Cmd} {opcode : BitVec 16} {s : State} (h : canTake opcode.toNat false c.slot.val s = false) :
    exec (.unknownOpcode c opcode) s = .next s :=
  if_pos (by rw [h]; exact Bool.or_true _)

/-- Settles O56: a waiting stage refuses the turn of every command in a warm restart; in the other stages the check of the stage is the first
one to fail once the role permits the command. -/
theorem commandsWaitForReady : Obligations.CommandsWaitForReady := by
  intro i d c opcode s
  refine ⟨fun h => ⟨fun hdef => ?_, exec_unknownOpcode_waits (canTake_warmRestart h _ _ _)⟩, fun hdef hs hlo hhi h hb hp hr hg => ?_⟩
  · obtain ⟨body, hexec⟩ | ⟨hexec, -⟩ := exec_of_commandDef hdef
    · rw [hexec, icoux_waits (canTake_warmRestart h _ _ _)]
    · exact hexec
  · have hcheck := checkCommand_notReady hr hg hs hlo hhi
    obtain ⟨body, hexec⟩ | ⟨-, -, -, hnone⟩ := exec_of_commandDef hdef
    · exact ⟨_, hexec.trans (congrArg _ (icoux_rejected h hb hp hcheck)), rfl, same_of_host _⟩
    · exact absurd (hnone.symm.trans hcheck) nofun

end Sys2Proof.Proofs
end

section
/-!
PROOFS. Ring doorbells, DMA_RING and MODE (O47): R458, R469, R498 to R501.
-/

namespace Sys2Proof.Proofs

open Sys2Proof Sys2Proof.Machine Sys2Proof.Laws

/-! ### Tail writes (R458) -/

section

variable {r kind : Nat} {bad : Ring → Bool} {put : Ring → Ring} {s : State}

theorem tailWrite_noOwner (h : ringOwner (ringOf s r) = none) : tailWrite r kind bad put s = ignored s := by
  simp only [tailWrite, h]

variable {o : Nat} (h : ringOwner (ringOf s r) = some o)
include h

theorem tailWrite_good (hb : bad (ringOf s r) = false) : tailWrite r kind bad put s = setRing r (put (ringOf s r)) s := by
  simp only [tailWrite, h, hb, Bool.false_eq_true, if_false]

theorem tailWrite_bad (hb : bad (ringOf s r) = true) : tailWrite r kind bad put s = doorbellFault o kind r s := by
  simp only [tailWrite, h, hb, if_true]

/-- A bad tail leaves the ring and is a doorbell fault of its owner. -/
theorem tailWrite_faults (hb : bad (ringOf s r) = true) : ringOf (tailWrite r kind bad put s) r = ringOf s r ∧
    faultCounted o s (tailWrite r kind bad put s) ∧ raisedLast 61 19 o (tailWrite r kind bad put s) := by
  rw [tailWrite_bad h hb]
  exact ⟨ringOf_doorbellFault _ _ _ _ _, doorbellFault_faults _ _ _ _⟩

end

theorem exec_rxTailWrite {r : RingNo} {v : BitVec 32} {s : State} (h : barFull s = true) : exec (.hstRxTailWrite r v) s =
    .next (tailWrite r.val 3 (fun x => doorbellBad v x.rxTail x.rxHead (rxEntries x)) (fun x => { x with rxTail := v }) s) :=
  if_neg (by rw [h]; decide)

theorem exec_txTailWrite {r : RingNo} {v : BitVec 32} {s : State} (h : barFull s = true) : exec (.hstTxTailWrite r v) s =
    .next (tailWrite r.val 4 (fun x => doorbellBad v x.txTail x.txHead (txEntries x)) (fun x => { x with txTail := v }) s) :=
  if_neg (by rw [h]; decide)

/-! ### DMA_RING (R469) -/

section

variable {d : OpDef} {c : Cmd} {i : Instr} {s : State} {body : Nat → Bytes → State → CmdResult} {st : Status} {data : Bytes} {P : State → Prop}

/-- A command that its own work rejects has only ended, and spent its session's turn. -/
theorem rejects_with (hi : exec i s = .next (icoux d c body s)) (h : passes d c s = true)
    (e : body c.slot.val (given c s) (takenState c s) = .fail st data)
    (hP : P (endCommand (endedOf d (effectiveCmd c s) st data [] false) (takenState c s))) :
    Completes i s fun t => answered d c st data [] s t ∧ P t :=
  ⟨_, hi, icoux_fail h e ▸ ⟨answered_endCommand rfl rfl rfl, hP⟩⟩

end

/-- What keeps `host` accepts no command. -/
theorem running_of_same {c : Cmd} {s u : State} (h : Same .host (takenState c s) u) : u.host.running = s.host.running := by
  have h : u.host = (takenState c s).host := h
  rw [h]
  rfl

/-- The own work of a DMA_RING write of a session on I3C, or on PCI Express. -/
def dmaRingWork (i3c : Bool) (p : Bytes) (s : State) : CmdResult :=
  if i3c then badAll .notsup
  else if ringLocked (ringOf s (u8 p 0)) p then badAll .state
  else okWrite (setRing (u8 p 0) (ringWritten (ringOf s (u8 p 0)) p) s)

theorem exec_dmaRingWrite {c : Cmd} {s : State} {i3c : Bool} (h : (slotOf s c.slot.val).i3c = i3c) :
    exec (.dmaRingWrite c) s = .next (icoux (opDmaRingWrite i3c) c (fun _ => dmaRingWork i3c) s) := by
  subst h
  rfl

theorem ringOf_setRing_eq (r : Nat) (v : Ring) (s : State) (k : Nat) : ringOf (setRing r v s) k = if k = r then v else ringOf s k := by
  by_cases h : k = r
  · rw [if_pos h, h, ringOf_setRing]
  · rw [if_neg h, ringOf_setRing_ne _ _ h]

/-! ### MODE (R498, R499) -/

/-- The state once the selected buffer and table profiles are in force. -/
def profilesSet (p : Bytes) (made : Nat) (s : State) : State :=
  let s1 := if bit made 2 then { s with bufferProfile := u8 p 3 } else s
  if bit made 1 then changeTable (u8 p 2) s1 else s1

theorem profilesSet_host (p : Bytes) (made : Nat) (s : State) : (profilesSet p made s).host = s.host := by
  unfold profilesSet
  cases h2 : bit made 2 <;> cases h1 : bit made 1 <;> rfl

theorem profilesSet_bufferProfile (p : Bytes) (made : Nat) (s : State) :
    (profilesSet p made s).bufferProfile = if bit made 2 then u8 p 3 else s.bufferProfile := by
  unfold profilesSet
  cases h2 : bit made 2 <;> cases h1 : bit made 1 <;> rfl

theorem profilesSet_tableProfile (p : Bytes) (made : Nat) (s : State) :
    (profilesSet p made s).tableProfile = if bit made 1 then u8 p 2 else s.tableProfile := by
  unfold profilesSet
  cases h2 : bit made 2 <;> cases h1 : bit made 1 <;> rfl

/-- Bit `i` of the changes made: the change is selected and its value differs. -/
theorem bit_flags (x y z : Bool) : bit (b2n x + 2 * b2n y + 4 * b2n z) 0 = x ∧ bit (b2n x + 2 * b2n y + 4 * b2n z) 1 = y ∧
    bit (b2n x + 2 * b2n y + 4 * b2n z) 2 = z := by
  cases x <;> cases y <;> cases z <;> decide

/-- A profile that is selected takes its value, whether or not it differs. -/
theorem ite_differs (sel : Bool) (n m : Nat) : (if (sel && n != m) = true then n else m) = if sel = true then n else m := by
  cases sel with
  | false => rfl
  | true =>
    by_cases h : n = m
    · simp [h]
    · simp [h]

theorem profilesSet_profiles (p : Bytes) (s : State) :
    (profilesSet p (modeMade s p) s).bufferProfile = (if bit (u8 p 0) 2 then u8 p 3 else s.bufferProfile) ∧
    (profilesSet p (modeMade s p) s).tableProfile = if bit (u8 p 0) 1 then u8 p 2 else s.tableProfile := by
  obtain ⟨-, htable, hbuf⟩ := bit_flags (bit (u8 p 0) 0 && u8 p 1 != b2n s.time.eased) (bit (u8 p 0) 1 && u8 p 2 != s.tableProfile)
    (bit (u8 p 0) 2 && u8 p 3 != s.bufferProfile)
  rw [profilesSet_bufferProfile, profilesSet_tableProfile, modeMade, hbuf, htable, ite_differs, ite_differs]
  exact ⟨rfl, rfl⟩

/-- The rise to FULL may end at once; the change stays that of its command. -/
theorem raiseDone_switch (s : State) : (raiseDone s).time.switch.run = s.time.switch.run ∧
    (raiseDone s).time.switch.newEased = s.time.switch.newEased := by
  unfold raiseDone
  dsimp only
  split <;> exact ⟨rfl, rfl⟩

theorem startSwitch_switch (eased : Bool) (made id : Nat) (s : State) : (startSwitch eased made id s).time.switch.run = some id ∧
    (startSwitch eased made id s).time.switch.newEased = eased := raiseDone_switch _

/-- The own work of a MODE write. -/
def modeWork (p : Bytes) (s : State) : CmdResult :=
  if !modePermitted s p then badAll .state
  else if bit (modeMade s p) 0 then .later fun id => startSwitch (u8 p 1 == 1) (modeMade s p) id (profilesSet p (modeMade s p) s)
  else .done (modeChanged (modeMade s p) (profilesSet p (modeMade s p) s)) .ok (toLe 1 (modeMade s p)) []

theorem exec_modeWrite (c : Cmd) (s : State) : exec (.modeWrite c) s = .next (icoux opModeWrite c (fun _ => modeWork) s) := rfl

theorem modeWork_refused {p : Bytes} {s : State} (h : modePermitted s p = false) : modeWork p s = badAll .state :=
  if_pos (by rw [h]; rfl)

theorem modeWork_later {p : Bytes} {s : State} (h : modePermitted s p = true) (h0 : bit (modeMade s p) 0 = true) : modeWork p s =
    .later fun id => startSwitch (u8 p 1 == 1) (modeMade s p) id (profilesSet p (modeMade s p) s) := by
  simp only [modeWork, h, h0, Bool.not_true, Bool.false_eq_true, if_false, if_true]

theorem modeWork_done {p : Bytes} {s : State} (h : modePermitted s p = true) (h0 : bit (modeMade s p) 0 = false) : modeWork p s =
    .done (modeChanged (modeMade s p) (profilesSet p (modeMade s p) s)) .ok (toLe 1 (modeMade s p)) [] := by
  simp only [modeWork, h, h0, Bool.not_true, Bool.false_eq_true, if_false]

section

variable (c : Cmd) (s : State)

/-- The profiles as a MODE write leaves them. -/
def profilesWritten (t : State) : Prop :=
  t.bufferProfile = (if bit (u8 (given c s) 0) 2 then u8 (given c s) 3 else s.bufferProfile) ∧
    t.tableProfile = if bit (u8 (given c s) 0) 1 then u8 (given c s) 2 else s.tableProfile

theorem profilesWritten_profilesSet :
    profilesWritten c s (profilesSet (given c s) (modeMade (takenState c s) (given c s)) (takenState c s)) := profilesSet_profiles _ _

variable {c s}

theorem profilesWritten_modHost {u : State} (f : HostState → HostState) (h : profilesWritten c s u) : profilesWritten c s (modHost f u) := h

variable (hp : passes opModeWrite c s = true) (h : modePermitted s (given c s) = true)
include hp h

/-- A MODE write that does not change the clock profile ends at once and is logged. -/
theorem modeWrite_done (h0 : bit (modeMade s (given c s)) 0 = false) : Completes (.modeWrite c) s fun t =>
    answered opModeWrite c .ok (toLe 1 (modeMade s (given c s))) [] s t ∧ profilesWritten c s t ∧ logged 0x0201 t := by
  have hwritten := profilesWritten_profilesSet c s
  have hhost := profilesSet_host (given c s) (modeMade (takenState c s) (given c s)) (takenState c s)
  obtain ⟨u, hu⟩ : ∃ u, profilesSet (given c s) (modeMade (takenState c s) (given c s)) (takenState c s) = u := ⟨_, rfl⟩
  have hwork := modeWork_done (p := given c s) (s := takenState c s) h h0
  rw [hu] at hwritten hhost hwork
  have hkeeps := keeps_modeChanged (modeMade (takenState c s) (given c s)) u
  refine answers_of (exec_modeWrite c s) hp hwork (ended_of_same ((hkeeps.same .host rfl).trans hhost)) ⟨?_, kiln_head _ _ _⟩
  have hbuf := hkeeps.same .bufp rfl
  have htable := hkeeps.same .table rfl
  exact ⟨hbuf.trans hwritten.1, htable.trans hwritten.2⟩

/-- A MODE write that changes the clock profile is accepted, and the change is its own. -/
theorem modeWrite_starts (h0 : bit (modeMade s (given c s)) 0 = true) : Completes (.modeWrite c) s fun t =>
    accepted opModeWrite c s t ∧ profilesWritten c s t ∧ t.time.switch.run = some s.host.nextId ∧
    t.time.switch.newEased = (u8 (given c s) 1 == 1) := by
  have hwritten := profilesWritten_profilesSet c s
  have hhost := profilesSet_host (given c s) (modeMade (takenState c s) (given c s)) (takenState c s)
  have hwork := modeWork_later (p := given c s) (s := takenState c s) h h0
  obtain ⟨u, hu⟩ : ∃ u, profilesSet (given c s) (modeMade (takenState c s) (given c s)) (takenState c s) = u := ⟨_, rfl⟩
  obtain ⟨made, hmade⟩ : ∃ made, modeMade (takenState c s) (given c s) = made := ⟨_, rfl⟩
  rw [hu] at hwritten hhost hwork
  rw [hmade] at hwork
  have hstarted : profilesWritten c s (startSwitch (u8 (given c s) 1 == 1) made s.host.nextId u) := by
    have hkeeps := keeps_startSwitch (u8 (given c s) 1 == 1) made s.host.nextId u
    exact ⟨(hkeeps.same .bufp rfl).trans hwritten.1, (hkeeps.same .table rfl).trans hwritten.2⟩
  have hswitch := startSwitch_switch (u8 (given c s) 1 == 1) made s.host.nextId u
  have hhost' := ((keeps_startSwitch (u8 (given c s) 1 == 1) made s.host.nextId u).same .host rfl).trans hhost
  refine starts_of (exec_modeWrite c s) (fun _ => ⟨_, hwork, ended_of_same hhost', running_of_same hhost', ?_⟩) hp
  exact ⟨profilesWritten_modHost _ hstarted, hswitch⟩

end

/-- A MODE write that the state permits (R499). -/
theorem modeWrite_permitted {c : Cmd} {s : State} (hp : passes opModeWrite c s = true) (h : modePermitted s (given c s) = true) :
    Completes (.modeWrite c) s fun t => profilesWritten c s t ∧
      (bit (modeMade s (given c s)) 0 = false → answered opModeWrite c .ok (toLe 1 (modeMade s (given c s))) [] s t ∧ logged 0x0201 t) ∧
      (bit (modeMade s (given c s)) 0 = true → accepted opModeWrite c s t ∧ t.time.switch.run = some s.host.nextId ∧
        t.time.switch.newEased = (u8 (given c s) 1 == 1)) := by
  cases h0 : bit (modeMade s (given c s)) 0 with
  | false =>
    obtain ⟨t, ht, hans, hset, hlog⟩ := modeWrite_done hp h h0
    exact ⟨t, ht, hset, fun _ => ⟨hans, hlog⟩, nofun⟩
  | true =>
    obtain ⟨t, ht, hacc, hset, hrun⟩ := modeWrite_starts hp h h0
    exact ⟨t, ht, hset, nofun, fun _ => ⟨hacc, hrun⟩⟩

/-- Settles O47. That a tail write to a ring with no owner is counted as ignored is the model's choice, as are its answers where assumptions
120, 131 and 132 leave them open. -/
theorem ringsAndModesAreConfigured : Obligations.RingsAndModesAreConfigured := by
  intro c r v s b i3c x made
  refine ⟨fun hbar => ⟨fun hnone => ⟨?_, ?_⟩, fun o ho => ⟨fun hb => ?_, fun hb => ?_, fun hb => ?_, fun hb => ?_⟩⟩, fun hi hl hp => ?_,
    fun hi hl hp => ?_, fun hi hp => ?_, reads_of rfl fun _ => rfl, (capReadAnswersTheRegion c s).1, reads_of rfl fun _ => rfl,
    fun hp h => ?_, fun hp h => ?_⟩
  · exact ⟨_, exec_rxTailWrite hbar, (tailWrite_noOwner hnone).symm ▸ accessIgnored_ignored s⟩
  · exact ⟨_, exec_txTailWrite hbar, (tailWrite_noOwner hnone).symm ▸ accessIgnored_ignored s⟩
  · exact ⟨_, exec_rxTailWrite hbar, by rw [tailWrite_good ho hb]; exact ringOf_setRing _ _ _⟩
  · exact ⟨_, exec_rxTailWrite hbar, tailWrite_faults ho hb⟩
  · exact ⟨_, exec_txTailWrite hbar, by rw [tailWrite_good ho hb]; exact ringOf_setRing _ _ _⟩
  · exact ⟨_, exec_txTailWrite hbar, tailWrite_faults ho hb⟩
  · have hwork : dmaRingWork false b (takenState c s) = okWrite (setRing (u8 b 0) (ringWritten (ringOf s (u8 b 0)) b) (takenState c s)) := by
      have hlock : ringLocked (ringOf (takenState c s) (u8 b 0)) b = false := hl
      simp only [dmaRingWork, hlock, Bool.false_eq_true, if_false]
      rfl
    exact writes_of (exec_dmaRingWrite hi) (fun _ => ⟨_, hwork, rfl, fun k => ringOf_setRing_eq _ _ (takenState c s) k⟩) hp
  · exact rejects_with (exec_dmaRingWrite hi) hp (if_pos (c := ringLocked (ringOf (takenState c s) (u8 b 0)) b = true) hl) rfl
  · exact rejects_with (exec_dmaRingWrite hi) hp (if_pos rfl) rfl
  · exact rejects_of (exec_modeWrite c s) hp (modeWork_refused h)
  · obtain ⟨t, ht, ⟨hbuf, htable⟩, hwork⟩ := modeWrite_permitted hp h
    exact ⟨t, ht, hbuf, htable, hwork⟩

end Sys2Proof.Proofs
end

section
/-!
PROOFS. Frames over the DMA rings (O48): deliveries, injection and coalesced interrupts of R469 to R473.
-/

namespace Sys2Proof.Proofs

open Sys2Proof Sys2Proof.Machine Sys2Proof.Laws

/-! ### Interrupts of a ring (R469, R474) -/

theorem ringOf_signal (v r : Nat) (s : State) : ringOf (signal v s) r = ringOf s r := by
  obtain ⟨_, h⟩ := signal_host v s
  rw [ringOf, h]
  rfl

section

variable (r : Nat) (tx : Bool) (s : State)

/-- The ring itself, but for when its interrupts are due. -/
def irqTimed (v w : Ring) : Prop := ∃ a b c d, w = { v with rxIrqAt := a, txIrqAt := b, rxIrqWaits := c, txIrqWaits := d }

/-- What asks for a ring's interrupt may note when the next is due, and may signal its vector. -/
theorem ringIrq_cases : ∃ u, (u = s ∨ ∃ w, irqTimed (ringOf s r) w ∧ u = setRing r w s) ∧
    (ringIrq r tx s = u ∨ ∃ v, ringIrq r tx s = signal v u) := by
  cases tx
  all_goals
    unfold ringIrq
    simp only [Bool.false_eq_true, if_false, if_true]
    split
    · exact ⟨s, .inl rfl, .inl rfl⟩
    · split
      · exact ⟨s, .inl rfl, .inr ⟨_, rfl⟩⟩
      · split
        · exact ⟨_, .inr ⟨_, ⟨_, _, _, _, rfl⟩, rfl⟩, .inl rfl⟩
        · exact ⟨_, .inr ⟨_, ⟨_, _, _, _, rfl⟩, rfl⟩, .inr ⟨_, rfl⟩⟩

theorem ringOf_ringIrq : irqTimed (ringOf s r) (ringOf (ringIrq r tx s) r) := by
  obtain ⟨u, hu, ht⟩ := ringIrq_cases r tx s
  have hring : irqTimed (ringOf s r) (ringOf u r) := by
    obtain rfl | ⟨w, hw, rfl⟩ := hu
    · exact ⟨_, _, _, _, rfl⟩
    · rwa [ringOf_setRing]
  obtain h | ⟨v, h⟩ := ht
  · rwa [h]
  · rwa [h, ringOf_signal]

theorem ringIrq_host : ∃ rings pba, (ringIrq r tx s).host = { s.host with rings := rings, pba := pba } := by
  obtain ⟨u, hu, ht⟩ := ringIrq_cases r tx s
  have hhost : ∃ rings, u.host = { s.host with rings := rings } := by
    obtain rfl | ⟨w, -, rfl⟩ := hu
    · exact ⟨_, rfl⟩
    · exact ⟨_, rfl⟩
  obtain ⟨rings, hrings⟩ := hhost
  obtain h | ⟨v, h⟩ := ht
  · exact ⟨rings, _, by rw [h, hrings]⟩
  · obtain ⟨pba, hp⟩ := signal_host v u
    exact ⟨rings, pba, by rw [h, hp, hrings]⟩

end

/-! ### Deliveries (R470, R471) -/

theorem settleFrame_deliveries (u : Nat) (s : State) : (settleFrame u s).fr.deliveries = s.fr.deliveries := by
  have hforget : (forget u s).fr.deliveries = s.fr.deliveries := by
    unfold forget
    split <;> rfl
  unfold settleFrame
  split
  · split
    · exact hforget
    · rfl
  · rfl

theorem deliveryDone_deliveries (d : Delivery) (s : State) : (deliveryDone d s).fr.deliveries = s.fr.deliveries.erase d :=
  settleFrame_deliveries _ _

/-- Every piece of a delivery is written to its buffer. -/
theorem writePieces_out (ring : Ring) (v : Frame) (d : Delivery) (idx : Nat) (sop : Bool) (ps : List (Nat × Bytes)) (s : State) :
    ∀ p ∈ ps, .hostWrite p.1 p.2 ∈ (writePieces ring v d idx sop ps s).out := by
  induction ps generalizing idx sop s with
  | nil => exact nofun
  | cons x t ih =>
    intro p hp
    rcases List.mem_cons.mp hp with rfl | ht
    · refine (keeps_writePieces ring v d (idx + 1) false t _).seen.subset ?_
      exact List.mem_cons_of_mem _ List.mem_cons_self
    · exact ih _ _ _ p ht

/-- A delivery that is lost counts once for its ring. -/
theorem ringFull_counted (r : Nat) (d : Delivery) (s : State) : counted cDmaRxFull r 1 s (ringFull r d s) := by
  unfold ringFull
  dsimp only
  have hfull := counted_count cDmaRxFull r 1 s
  split
  · exact counted_then_counts hfull (dropCopyIn_counts _ _ _ _ _ _)
  · split
    · exact counted_then_counts hfull (dropIn_counts _ _ _ _ _)
    · exact counted_then_counts hfull (dropIn_counts _ _ _ _ _)

/-- `s` once the pieces of delivery `d` are written and its ring's head has moved on. -/
def piecesPut (r : Nat) (d : Delivery) (ps : List (Nat × Bytes)) (s : State) : State :=
  let v := ringOf s r
  setRing r { v with rxHead := v.rxHead + BitVec.ofNat 32 ps.length } (writePieces v (frameOf s d.frame) d v.rxHead.toNat true ps s)

/-- `s` once delivery `d` is written and counted. -/
def delivered (r : Nat) (d : Delivery) (ps : List (Nat × Bytes)) (s : State) : State :=
  let s2 := count cDmaRxBytes r (deliveryBytes s d).length (count cDmaRxFrames r 1 (piecesPut r d ps s))
  if d.reason == 2 then count cPrsTrapped (frameOf s d.frame).pipe 1 s2 else s2

section

variable {r : RingNo} {bufs : List (Nat × Nat)} {s : State} {d : Delivery} (hd : nextDelivery s r.val = some d)
include hd

/-- A delivery that its ring does not take. -/
theorem hostDelivery_lost {full : Bool} (h : full = true ∨ (hostFenced s 0 = false ∧ rxEnabled (ringOf s r.val) = false)) :
    exec (.hostDelivery r bufs full) s = .next (deliveryDone d (ringFull r.val d s)) := by
  have hturn : (!full && hostFenced s 0) = false := by
    rcases h with rfl | ⟨hf, -⟩
    · rfl
    · rw [hf, Bool.and_false]
  have hlost : (full || !rxEnabled (ringOf s r.val)) = true := by
    rcases h with rfl | ⟨-, he⟩
    · rfl
    · rw [he, Bool.not_false, Bool.or_true]
  change execHostDelivery r bufs full s = _
  simp only [execHostDelivery, hd, hturn, hlost, Bool.false_eq_true, if_false, if_true]

/-- A delivery that its posted buffers hold. -/
theorem hostDelivery_written {ps : List (Nat × Bytes)} (hf : hostFenced s 0 = false) (he : rxEnabled (ringOf s r.val) = true)
    (hp : fillBuffers (bufs.take ((ringOf s r.val).rxTail - (ringOf s r.val).rxHead).toNat) (deliveryBytes s d) = some ps) :
    exec (.hostDelivery r bufs false) s = .next (ringIrq r.val false (deliveryDone d (delivered r.val d ps s))) := by
  change execHostDelivery r bufs false s = _
  simp only [execHostDelivery, hd, hf, he, hp, Bool.not_true, Bool.not_false, Bool.true_and, Bool.or_self, Bool.false_eq_true, if_false]
  rfl

end

section

variable (r : Nat) (d : Delivery) (ps : List (Nat × Bytes)) (s : State)

theorem delivered_eq : ∃ u, (delivered r d ps s = u ∨ delivered r d ps s = count cPrsTrapped (frameOf s d.frame).pipe 1 u) ∧
    u = count cDmaRxBytes r (deliveryBytes s d).length (count cDmaRxFrames r 1 (piecesPut r d ps s)) := by
  unfold delivered
  split
  · exact ⟨_, .inr rfl, rfl⟩
  · exact ⟨_, .inl rfl, rfl⟩

theorem delivered_keeps : Keeps [.tel] (piecesPut r d ps s) (delivered r d ps s) := by
  have hcounted := (keeps_count cDmaRxFrames r 1 (piecesPut r d ps s)).trans (keeps_count cDmaRxBytes r (deliveryBytes s d).length _)
  obtain ⟨u, h | h, rfl⟩ := delivered_eq r d ps s
  · rwa [h]
  · rw [h]
    exact hcounted.trans (keeps_count _ _ _ _)

theorem delivered_counted : counted cDmaRxFrames r 1 s (delivered r d ps s) ∧ counted cDmaRxBytes r (deliveryBytes s d).length s (delivered r d ps s) := by
  have hput : (piecesPut r d ps s).tel = s.tel := (keeps_writePieces _ _ _ _ _ _ _).same .tel rfl
  have hframes : counted cDmaRxFrames r 1 s (count cDmaRxBytes r (deliveryBytes s d).length (count cDmaRxFrames r 1 (piecesPut r d ps s))) :=
    counted_then_counts (counted_of_tel (piecesPut r d ps s) rfl (congrArg ObserveState.counters hput)) (Counts.refl.count (l := [cDmaRxBytes]) (by decide))
  have hbytes : counted cDmaRxBytes r (deliveryBytes s d).length s
      (count cDmaRxBytes r (deliveryBytes s d).length (count cDmaRxFrames r 1 (piecesPut r d ps s))) :=
    counts_then_counted (((counts_of_tel hput).count (l := [cDmaRxFrames]) (by decide))) (counted_count _ _ _ _)
  obtain ⟨u, h | h, rfl⟩ := delivered_eq r d ps s
  · rw [h]
    exact ⟨hframes, hbytes⟩
  · rw [h]
    exact ⟨counted_then_counts hframes (Counts.refl.count (l := [cPrsTrapped]) (by decide)),
      counted_then_counts hbytes (Counts.refl.count (l := [cPrsTrapped]) (by decide))⟩

/-- What a delivery that its ring takes has changed. -/
theorem delivered_changes : (ringOf (delivered r d ps s) r).rxHead = (ringOf s r).rxHead + BitVec.ofNat 32 ps.length ∧
    (delivered r d ps s).fr = s.fr ∧ ∀ p ∈ ps, .hostWrite p.1 p.2 ∈ (delivered r d ps s).out := by
  have hkeeps := delivered_keeps r d ps s
  have hwritten := keeps_writePieces (ringOf s r) (frameOf s d.frame) d (ringOf s r).rxHead.toNat true ps s
  refine ⟨?_, (hkeeps.same .fr rfl).trans (hwritten.same .fr rfl), fun p hp => hkeeps.seen.subset (writePieces_out _ _ _ _ _ ps s p hp)⟩
  rw [ringOf_of_host (hkeeps.same .host rfl), piecesPut, ringOf_setRing]

end

/-- A delivery that its posted buffers hold fills them. -/
theorem hostDelivery_completes {r : RingNo} {bufs : List (Nat × Nat)} {s : State} {d : Delivery} (hd : nextDelivery s r.val = some d)
    {ps : List (Nat × Bytes)} (hf : hostFenced s 0 = false) (he : rxEnabled (ringOf s r.val) = true)
    (hp : fillBuffers (bufs.take ((ringOf s r.val).rxTail - (ringOf s r.val).rxHead).toNat) (deliveryBytes s d) = some ps) :
    Completes (.hostDelivery r bufs false) s fun t => (ringOf t r.val).rxHead = (ringOf s r.val).rxHead + BitVec.ofNat 32 ps.length ∧
      t.fr.deliveries = s.fr.deliveries.erase d ∧ (∀ p ∈ ps, .hostWrite p.1 p.2 ∈ t.out) ∧ counted cDmaRxFrames r.val 1 s t ∧
      counted cDmaRxBytes r.val (deliveryBytes s d).length s t := by
  have hexec := hostDelivery_written hd hf he hp
  obtain ⟨hhead, hfr, hout⟩ := delivered_changes r.val d ps s
  obtain ⟨hframes, hbytes⟩ := delivered_counted r.val d ps s
  obtain ⟨u, hu⟩ : ∃ u, delivered r.val d ps s = u := ⟨_, rfl⟩
  rw [hu] at hexec hhead hfr hout hframes hbytes
  have hdone := keeps_deliveryDone d u
  have hirq := keeps_ringIrq r.val false (deliveryDone d u)
  have htel := (hirq.same .tel rfl).trans (hdone.same .tel rfl)
  obtain ⟨_, _, _, _, hring⟩ := ringOf_ringIrq r.val false (deliveryDone d u)
  refine ⟨_, hexec, ?_, ?_, fun p hmem => hirq.seen.subset (hdone.seen.subset (hout p hmem)), counted_then_same hframes htel,
    counted_then_same hbytes htel⟩
  · rw [hring, ← hhead, ringOf_of_host (hdone.same .host rfl)]
  · rw [show (ringIrq r.val false (deliveryDone d u)).fr = (deliveryDone d u).fr from hirq.same .fr rfl, deliveryDone_deliveries, hfr]

/-- A delivery that its ring does not take is HOST_RING_FULL, and the ring stands. -/
theorem hostDelivery_full {r : RingNo} {bufs : List (Nat × Nat)} {s : State} {d : Delivery} (hd : nextDelivery s r.val = some d) {full : Bool}
    (h : full = true ∨ (hostFenced s 0 = false ∧ rxEnabled (ringOf s r.val) = false)) :
    Completes (.hostDelivery r bufs full) s fun t => ringOf t r.val = ringOf s r.val ∧ counted cDmaRxFull r.val 1 s t := by
  have hdone := keeps_deliveryDone d (ringFull r.val d s)
  have hfull := keeps_ringFull r.val d s
  exact ⟨_, hostDelivery_lost hd h, ringOf_of_host ((hdone.same .host rfl).trans (hfull.same .host rfl)) _,
    counted_then_same (ringFull_counted r.val d s) (hdone.same .tel rfl)⟩

/-! ### Injection (R472, R473) -/

section

variable (r st : Nat) (ds : List Bytes) (s : State)

/-- Ring `r` past the descriptors `ds`. -/
def pastSent : Ring := { ringOf s r with txHead := (ringOf s r).txHead + BitVec.ofNat 32 ds.length }

/-- `s` once the descriptors `ds` of ring `r` are done. -/
def txMoved : State := setRing r (pastSent r ds s) (writeDone (ringOf s r) st (ringOf s r).txHead.toNat ds s)

/-- `s` once the descriptors are done and counted, and the pipeline's turn has passed to the next ring. -/
def txDone : State :=
  modHost (fun h => { h with txTurn := tabPut (u8 (ringOf s r).obj 2) r h.txTurn })
    (if st == 0 then txMoved r st ds s else count cDmaTxErrors r 1 (txMoved r st ds s))

theorem txComplete_eq : txComplete r st ds s = ringIrq r true (txDone r st ds s) := rfl

theorem txMoved_host : (txMoved r st ds s).host = { s.host with rings := tabSet {} r (pastSent r ds s) s.host.rings } := by
  have hwritten : (writeDone (ringOf s r) st (ringOf s r).txHead.toNat ds s).host = s.host := (keeps_writeDone _ _ _ _ _).same .host rfl
  exact congrArg (fun h : HostState => { h with rings := tabSet {} r (pastSent r ds s) h.rings }) hwritten

theorem txMoved_tel : (txMoved r st ds s).tel = s.tel := (keeps_writeDone _ _ _ _ _).same .tel rfl

theorem txDone_host : (txDone r st ds s).host = { s.host with
    rings := tabSet {} r (pastSent r ds s) s.host.rings, txTurn := tabPut (u8 (ringOf s r).obj 2) r s.host.txTurn } := by
  have hcounted : (if st == 0 then txMoved r st ds s else count cDmaTxErrors r 1 (txMoved r st ds s)).host = (txMoved r st ds s).host := by
    split <;> rfl
  exact congrArg (fun h : HostState => { h with txTurn := tabPut (u8 (ringOf s r).obj 2) r h.txTurn }) (hcounted.trans (txMoved_host r st ds s))

theorem ringOf_txDone : ringOf (txDone r st ds s) r = pastSent r ds s := by
  rw [ringOf, txDone_host]
  exact tabGet_set _ _ _ _

/-- A frame's descriptors complete: the head moves past them, the slots stand and the ring has had its turn. -/
theorem txComplete_host : (ringOf (txComplete r st ds s) r).txHead = (ringOf s r).txHead + BitVec.ofNat 32 ds.length ∧
    (txComplete r st ds s).host.slots = s.host.slots ∧
    tabFind (txComplete r st ds s).host.txTurn (u8 (ringOf s r).obj 2) = some r := by
  obtain ⟨_, _, _, _, hring⟩ := ringOf_ringIrq r true (txDone r st ds s)
  obtain ⟨rings, pba, hhost⟩ := ringIrq_host r true (txDone r st ds s)
  rw [txComplete_eq, hhost, txDone_host, hring, ringOf_txDone]
  exact ⟨rfl, rfl, tabFind_put _ _ _⟩

theorem txComplete_tel : (txComplete r 0 ds s).tel = s.tel := (keeps_ringIrq _ _ _).same .tel rfl |>.trans (txMoved_tel r 0 ds s)

theorem txComplete_errors {st : Nat} (h : st ≠ 0) : counted cDmaTxErrors r 1 s (txComplete r st ds s) := by
  have hne : (st == 0) = false := beq_eq_false_iff_ne.mpr h
  have hdone : (txDone r st ds s).tel = (count cDmaTxErrors r 1 (txMoved r st ds s)).tel := by
    simp only [txDone, hne, Bool.false_eq_true, if_false]
    rfl
  exact counted_of_tel (txMoved r st ds s) (((keeps_ringIrq _ _ _).same .tel rfl).trans hdone)
    (congrArg ObserveState.counters (txMoved_tel r st ds s))

/-- A refused frame: its descriptors are done, and it is a fault of the ring's owner. -/
def injectRefused (n : Nat) (s t : State) : Prop :=
  (ringOf t r).txHead = (ringOf s r).txHead + BitVec.ofNat 32 n ∧ faultCounted ((ringOwner (ringOf s r)).getD 0) s t ∧
    counted cDmaTxErrors r 1 s t ∧ t.fr = s.fr

theorem txRefused_refuses {st : Nat} (h : st ≠ 0) : injectRefused r ds.length s (txRefused r st ds s) := by
  obtain ⟨hhead, hslots, -⟩ := txComplete_host r st ds s
  have herrors := txComplete_errors r ds s h
  have hfr := (keeps_txRefused r st ds s).same .fr rfl
  obtain ⟨u, hu⟩ : ∃ u, txComplete r st ds s = u := ⟨_, rfl⟩
  rw [txRefused, hu] at hfr ⊢
  rw [hu] at hhead hslots herrors
  obtain ⟨_, hhost, -⟩ := transportFault_host ((ringOwner (ringOf s r)).getD 0) u
  obtain ⟨hi, hj⟩ := faultCounted_transportFault ((ringOwner (ringOf s r)).getD 0) u
  rw [slotOf_of_slots hslots] at hi
  refine ⟨?_, ⟨hi, fun j hne => (hj j hne).trans (slotOf_of_slots hslots j)⟩, counted_then_counts herrors (transportFault_counts _ _), hfr⟩
  rw [← hhead, ringOf, hhost, ringOf]

theorem txRefused_counts (st : Nat) : Counts (cDmaTxErrors :: faultCounters) s (txRefused r st ds s) := by
  have hmoved : Counts [cDmaTxErrors] s (txMoved r st ds s) := counts_of_tel (txMoved_tel r st ds s)
  have hdone : Counts [cDmaTxErrors] s (txDone r st ds s) := by
    unfold txDone
    split
    · exact hmoved.trans (counts_of_tel rfl)
    · exact (hmoved.count (by decide)).trans (counts_of_tel rfl)
  have hirq : Counts [cDmaTxErrors] (txDone r st ds s) (txComplete r st ds s) := counts_of_keeps (keeps_ringIrq _ _ _)
  exact ((hdone.trans hirq).mono (by decide)).trans ((transportFault_counts _ _).mono (by decide))

/-- An abandoned transfer refuses its frame and counts it among the discarded ones. -/
theorem txReadFailed_refuses : injectRefused r ds.length s (txReadFailed r ds s) ∧ counted cIfDiscarded 0 1 s (txReadFailed r ds s) := by
  obtain ⟨k, hk⟩ : ∃ k, raiseFault 60 18 0 false (kiln 0x0107 [(1, 4), (4, r), (4, u64 (ds.headD []) 0 % 4294967296)] s) = k := ⟨_, rfl⟩
  have hkeeps : Keeps [.flt] s k := hk ▸ (keeps_kiln _ _ s).trans (keeps_raiseFault _ _ _ _ _)
  have hhost : (count cIfDiscarded 0 1 k).host = s.host := hkeeps.same .host rfl
  have hfr : (count cIfDiscarded 0 1 k).fr = s.fr := hkeeps.same .fr rfl
  have hcount : counted cIfDiscarded 0 1 s (count cIfDiscarded 0 1 k) :=
    counted_of_tel k rfl (congrArg ObserveState.counters (hkeeps.same .tel rfl))
  have hcounts : Counts [cIfDiscarded] s (count cIfDiscarded 0 1 k) := Counts.count (counts_of_tel (hkeeps.same .tel rfl)) (by decide)
  have heq : txReadFailed r ds s = txRefused r 2 ds (count cIfDiscarded 0 1 k) := by rw [← hk]; rfl
  obtain ⟨w, hw⟩ : ∃ w, count cIfDiscarded 0 1 k = w := ⟨_, rfl⟩
  rw [hw] at hhost hfr hcount hcounts heq
  obtain ⟨hhead, hfault, herrors, hfr'⟩ := txRefused_refuses r ds w (st := 2) (by decide)
  rw [heq]
  rw [ringOf_of_host hhost] at hhead hfault
  refine ⟨⟨hhead, faultCounted_of_host hhost hfault, counts_then_counted hcounts herrors, hfr'.trans hfr⟩, ?_⟩
  exact counted_then_counts hcount (txRefused_counts r ds w 2)

end

/-- The bytes of a frame's descriptors. -/
def txLength (fr : List Bytes) : Nat := (fr.map fun d => u16 d 8).foldl (· + ·) 0

section

variable {r : RingNo} {ds : List Bytes} {data : Bytes} {readOk : Bool} {s : State} {fr : List Bytes}

/-- Ring `r` has its turn with the whole frame `fr` posted. -/
structure InjectTurn (r : RingNo) (ds : List Bytes) (s : State) (fr : List Bytes) : Prop where
  posted : txFrame (ds.take ((ringOf s r.val).txTail - (ringOf s r.val).txHead).toNat) = fr
  enabled : txEnabled (ringOf s r.val) = true
  unfenced : hostFenced s 0 = false
  waits : (ringOf s r.val).txTail ≠ (ringOf s r.val).txHead
  turn : txTurnOf s r.val = true
  nonempty : fr ≠ []
  whole : txEop (fr.getLastD []) = true

/-- What becomes of a whole frame whose turn it is. -/
def injectOutcome (r : RingNo) (fr : List Bytes) (data : Bytes) (readOk : Bool) (s : State) : Host.Outcome State Fault Refusal :=
  let g := u8 (ringOf s r.val).obj 2
  let len := txLength fr
  if 16 < fr.length || !inRange len 60 16379 then .next (txRefused r.val 3 fr s)
  else if fr.any txBad then .next (txRefused r.val 1 fr s)
  else if !readOk then .next (txReadFailed r.val fr s)
  else
    let b := slice data 0 len
    if pipeFenced s g then
      .next (txComplete r.val 4 fr
        (dropIn (quadOfPipe g) 0x2B { port := u16 (fr.headD []) 12, pipe := g, source := 2, data := b ++ fcsOf b, ended := true
                                      stamp := datapathStamp s (quadOfPipe g) } {} s))
    else if 65536 < fifoUsed s g + len + 4 then .next s
    else .next (injectFrame r.val fr b s)

theorem exec_hostInject (h : InjectTurn r ds s fr) : exec (.hostInject r ds data readOk) s = injectOutcome r fr data readOk s := by
  obtain ⟨hposted, hon, hfree, hwaits, hturn, hne, heop⟩ := h
  obtain ⟨last, hlast⟩ : ∃ last, fr.getLast? = some last := Option.isSome_iff_exists.mp (by simpa using hne)
  have hd : fr.getLastD [] = last := by rw [List.getLastD_eq_getLast?, hlast, Option.getD_some]
  have hcount : (((ringOf s r.val).txTail - (ringOf s r.val).txHead).toNat == 0) = false := by
    rw [beq_eq_false_iff_ne]
    intro h0
    exact hwaits (by bv_omega)
  rw [hd] at heop
  change execHostInject r ds data readOk s = _
  simp only [execHostInject, injectOutcome, hposted, hon, hfree, hcount, hturn, hlast, hd, heop, Bool.not_true, Bool.or_self, Bool.true_or,
    Bool.false_eq_true, if_false, Bool.false_or]
  rfl

theorem injectOutcome_badLength (h : 16 < fr.length ∨ txLength fr < 60 ∨ 16379 < txLength fr) :
    injectOutcome r fr data readOk s = .next (txRefused r.val 3 fr s) := by
  refine if_pos ?_
  simp only [inRange, Bool.or_eq_true, Bool.not_eq_true', Bool.and_eq_false_iff, decide_eq_true_eq, decide_eq_false_iff_not]
  omega

variable (hn : fr.length ≤ 16) (hlo : 60 ≤ txLength fr) (hhi : txLength fr ≤ 16379)
include hn hlo hhi

theorem lengthOk : (16 < fr.length || !inRange (txLength fr) 60 16379) = false := by
  simp only [inRange, Bool.or_eq_false_iff, Bool.not_eq_false', Bool.and_eq_true, decide_eq_true_eq, decide_eq_false_iff_not]
  omega

theorem injectOutcome_badDescriptor (hbad : fr.any txBad = true) : injectOutcome r fr data readOk s = .next (txRefused r.val 1 fr s) := by
  simp only [injectOutcome, lengthOk hn hlo hhi, hbad, Bool.false_eq_true, if_false, if_true]

theorem injectOutcome_readFailed (hbad : fr.any txBad = false) : injectOutcome r fr data false s = .next (txReadFailed r.val fr s) := by
  simp only [injectOutcome, lengthOk hn hlo hhi, hbad, Bool.false_eq_true, if_false, Bool.not_false, if_true]

theorem injectOutcome_injected (hbad : fr.any txBad = false) (hfence : pipeFenced s (u8 (ringOf s r.val).obj 2) = false)
    (hroom : fifoUsed s (u8 (ringOf s r.val).obj 2) + txLength fr + 4 ≤ 65536) :
    injectOutcome r fr data true s = .next (injectFrame r.val fr (slice data 0 (txLength fr)) s) := by
  simp only [injectOutcome, lengthOk hn hlo hhi, hbad, hfence, Nat.not_lt.mpr hroom, Bool.false_eq_true, if_false, Bool.not_true]

end

section

variable (r : Nat) (ds : List Bytes) (b : Bytes) (s : State)

/-- The frame of an injection as it enters its pipeline. -/
def injectedFrame : Frame :=
  let g := u8 (ringOf s r).obj 2
  let d := ds.headD []
  let p := u16 d 12
  let t := datapathStamp s (quadOfPipe g)
  let t' := stampOf s (quadOfPipe g) (u8 (portTimeObj s p) 2)
  let data := b ++ fcsOf b
  { port := p, pipe := g, source := 2, data, ended := true, maxFrame := data.length, resv := data.length, stamp := t
    ts := stamp96 t, tsPtp := stamp96 t', tsHold := t'.holdover, hdr := tabSet 0 286 (u32 d 16) [] }

/-- `s` with the frame of an injection in its pipeline, and counted. -/
def injectCounted : State := count cDmaTxBytes r b.length (count cDmaTxFrames r 1 (newFrame (injectedFrame r ds b s) s).2)

theorem injectFrame_eq : injectFrame r ds b s = txComplete r 0 ds (injectCounted r ds b s) := rfl

theorem injectCounted_counted : counted cDmaTxFrames r 1 s (injectCounted r ds b s) ∧ counted cDmaTxBytes r b.length s (injectCounted r ds b s) := by
  have hnew : (newFrame (injectedFrame r ds b s) s).2.tel = s.tel := rfl
  exact ⟨counted_then_counts (counted_of_tel (newFrame (injectedFrame r ds b s) s).2 rfl rfl) (Counts.refl.count (l := [cDmaTxBytes]) (by decide)),
    counts_then_counted ((counts_of_tel hnew).count (l := [cDmaTxFrames]) (by decide)) (counted_count _ _ _ _)⟩

/-- An injected frame stands in its pipeline's FIFO, and its descriptors are done. -/
theorem injectFrame_injects : frameOf (injectFrame r ds b s) s.fr.next = injectedFrame r ds b s ∧
    (injectFrame r ds b s).fr.next = s.fr.next + 1 ∧
    (ringOf (injectFrame r ds b s) r).txHead = (ringOf s r).txHead + BitVec.ofNat 32 ds.length ∧
    counted cDmaTxFrames r 1 s (injectFrame r ds b s) ∧ counted cDmaTxBytes r b.length s (injectFrame r ds b s) ∧
    tabFind (injectFrame r ds b s).host.txTurn (u8 (ringOf s r).obj 2) = some r := by
  have hring : ringOf (injectCounted r ds b s) r = ringOf s r := rfl
  have hfr : (injectCounted r ds b s).fr = (newFrame (injectedFrame r ds b s) s).2.fr := rfl
  obtain ⟨hframes, hbytes⟩ := injectCounted_counted r ds b s
  obtain ⟨u, hu⟩ : ∃ u, injectCounted r ds b s = u := ⟨_, rfl⟩
  rw [injectFrame_eq, hu]
  rw [hu] at hring hfr hframes hbytes
  obtain ⟨hhead, -, hturn⟩ := txComplete_host r 0 ds u
  have hfr' := ((keeps_txComplete r 0 ds u).same .fr rfl).trans hfr
  have htel := txComplete_tel r ds u
  rw [hring] at hhead hturn
  exact ⟨(frameOf_of_fr _ _ hfr').trans (frameOf_newFrame _ _), congrArg FrameState.next hfr', hhead, counted_then_same hframes htel,
    counted_then_same hbytes htel, hturn⟩

end

/-! ### Coalesced interrupts (R469) -/

section

variable {r : RingNo} {s : State}

/-- The ring with nothing due in a direction. -/
def irqOver (tx : Bool) (v : Ring) : Ring :=
  if tx then { v with txIrqAt := none, txIrqWaits := false } else { v with rxIrqAt := none, rxIrqWaits := false }

/-- When the next interrupt of a direction may go out, and whether one waits for it. -/
def irqAt (tx : Bool) (v : Ring) : Option Nat := if tx then v.txIrqAt else v.rxIrqAt
def irqWaits (tx : Bool) (v : Ring) : Bool := if tx then v.txIrqWaits else v.rxIrqWaits

theorem exec_irqCoalesceExpiry {tx : Bool} {a : Nat} (h : irqAt tx (ringOf s r.val) = some a) : exec (.irqCoalesceExpiry r tx) s =
    .next (if irqWaits tx (ringOf s r.val) then ringIrq r.val tx (setRing r.val (irqOver tx (ringOf s r.val)) (reach a s))
      else setRing r.val (irqOver tx (ringOf s r.val)) (reach a s)) := by
  cases tx with
  | false =>
    have h : (ringOf s r.val).rxIrqAt = some a := h
    change execIrqCoalesceExpiry r false s = _
    simp only [execIrqCoalesceExpiry, h, Bool.false_eq_true, if_false]
    rfl
  | true =>
    have h : (ringOf s r.val).txIrqAt = some a := h
    change execIrqCoalesceExpiry r true s = _
    simp only [execIrqCoalesceExpiry, h, if_true]
    rfl

/-- An interrupt that may go out at once starts the coalescing time. -/
theorem ringIrq_starts {r : Nat} {tx : Bool} (hbit : bit (u8 (ringOf s r).obj 1) (if tx then 3 else 2) = true)
    (hc : coalesce (ringOf s r) ≠ 0) (hat : irqAt tx (ringOf s r) = none) :
    irqAt tx (ringOf (ringIrq r tx s) r) = some (s.now + coalesce (ringOf s r)) := by
  have hc' : (coalesce (ringOf s r) == 0) = false := beq_eq_false_iff_ne.mpr hc
  cases tx with
  | false =>
    have hat : (ringOf s r).rxIrqAt = none := hat
    have hbit : bit (u8 (ringOf s r).obj 1) 2 = true := hbit
    simp only [ringIrq, hbit, hc', hat, Bool.not_true, Bool.false_eq_true, if_false, ringOf_signal, ringOf_setRing]
    rfl
  | true =>
    have hat : (ringOf s r).txIrqAt = none := hat
    have hbit : bit (u8 (ringOf s r).obj 1) 3 = true := hbit
    simp only [ringIrq, hbit, hc', hat, Bool.not_true, Bool.false_eq_true, if_false, if_true, ringOf_signal, ringOf_setRing]
    rfl

/-- The end of a coalescing time signals what waits, and then starts the next. -/
theorem irqCoalesceExpiry_completes {tx : Bool} {a : Nat} (h : irqAt tx (ringOf s r.val) = some a) :
    Completes (.irqCoalesceExpiry r tx) s fun t => a ≤ t.now ∧
      (irqWaits tx (ringOf s r.val) = false → irqAt tx (ringOf t r.val) = none) ∧
      (irqWaits tx (ringOf s r.val) = true → bit (u8 (ringOf s r.val).obj 1) (if tx then 3 else 2) = true →
        coalesce (ringOf s r.val) ≠ 0 → irqAt tx (ringOf t r.val) = some (t.now + coalesce (ringOf s r.val))) := by
  have hexec := exec_irqCoalesceExpiry h
  have hover : irqAt tx (irqOver tx (ringOf s r.val)) = none := by cases tx <;> rfl
  have hobj : (irqOver tx (ringOf s r.val)).obj = (ringOf s r.val).obj := by cases tx <;> rfl
  have hcoalesce : coalesce (irqOver tx (ringOf s r.val)) = coalesce (ringOf s r.val) := by rw [coalesce, hobj, coalesce]
  cases hw : irqWaits tx (ringOf s r.val) with
  | false =>
    rw [hw, if_neg (by decide)] at hexec
    refine ⟨_, hexec, le_reach_now a s, fun _ => ?_, nofun⟩
    rw [ringOf_setRing]
    exact hover
  | true =>
    rw [hw, if_pos rfl] at hexec
    have hnow := (keeps_ringIrq r.val tx (setRing r.val (irqOver tx (ringOf s r.val)) (reach a s))).same .now rfl
    refine ⟨_, hexec, (le_reach_now a s).trans_eq hnow.symm, nofun, fun _ hbit hc => ?_⟩
    have hring := ringOf_setRing r.val (irqOver tx (ringOf s r.val)) (reach a s)
    rw [ringIrq_starts (by rw [hring, hobj]; exact hbit) (by rw [hring, hcoalesce]; exact hc) (by rw [hring]; exact hover), hring, hcoalesce]
    exact congrArg (fun n => some (n + coalesce (ringOf s r.val))) hnow.symm

end

/-- Settles O48. That a frame of more than 16 descriptors is refused with all of them is assumption 167, and that bytes are counted without the
FCS is assumption 130: the model's choices. -/
theorem ringsCarryFrames : Obligations.RingsCarryFrames := by
  intro r bufs ds data full readOk tx s v g fr len
  refine ⟨fun d hd => ⟨fun ps hfull hf he hp => ?_, fun h => hostDelivery_full hd h⟩, fun he hf hw ht hne => ?_,
    fun a ha => irqCoalesceExpiry_completes ha⟩
  · subst hfull
    exact hostDelivery_completes hd hf he hp
  · have hturn : ∀ heop : txEop (fr.getLastD []) = true, exec (.hostInject r ds data readOk) s = injectOutcome r fr data readOk s :=
      fun heop => exec_hostInject ⟨rfl, he, hf, hw, ht, hne, heop⟩
    refine ⟨fun heop hlen => ?_, fun heop hn hlo hhi hbad => ?_, fun heop hn hlo hhi hbad hread => ?_,
      fun heop hn hlo hhi hbad hread hfence hroom => ?_⟩
    · exact ⟨_, (hturn heop).trans (injectOutcome_badLength hlen), txRefused_refuses _ _ _ (by decide)⟩
    · exact ⟨_, (hturn heop).trans (injectOutcome_badDescriptor hn hlo hhi hbad), txRefused_refuses _ _ _ (by decide)⟩
    · subst hread
      exact ⟨_, (hturn heop).trans (injectOutcome_readFailed hn hlo hhi hbad), txReadFailed_refuses _ _ _⟩
    · subst hread
      obtain ⟨hframe, hnext, hhead, hframes, hbytes, hround⟩ := injectFrame_injects r.val fr (slice data 0 (txLength fr)) s
      have hlength : (slice data 0 (txLength fr)).length = len := slice_length _ _ _
      rw [hlength] at hbytes
      refine ⟨_, (hturn heop).trans (injectOutcome_injected hn hlo hhi hbad hfence hroom), ?_⟩
      dsimp only
      rw [hframe]
      exact ⟨rfl, rfl, rfl, rfl, rfl, tabGet_set _ _ _ _, hnext, hhead, hframes, hbytes, hround⟩

end Sys2Proof.Proofs
end

section
/-!
PROOFS. Umlimel frames (O49): R476 to R479, R481.
-/

namespace Sys2Proof.Proofs

open Sys2Proof Sys2Proof.Machine Sys2Proof.Laws

/-! ### Tables filled from a byte string -/

theorem tabGet_fill (l : Bytes) (off : Nat) (m : Store Byte) (k : Nat) : tabGet 0 (tabFill 0 off l m) k =
    if off ≤ k ∧ k < off + l.length then l.getD (k - off) 0 else tabGet 0 m k := by
  induction l generalizing off m with
  | nil => exact (if_neg (by simp only [List.length_nil]; omega)).symm
  | cons v t ih =>
    rw [tabFill, ih, List.length_cons]
    by_cases hoff : k = off
    · subst hoff
      rw [if_neg (by omega), if_pos (by omega), Nat.sub_self, tabGet_set]
      rfl
    · rw [tabGet_set_ne _ _ hoff]
      by_cases hin : off + 1 ≤ k ∧ k < off + 1 + t.length
      · rw [if_pos hin, if_pos (by omega), show k - off = (k - (off + 1)) + 1 by omega, List.getD_cons_succ]
      · rw [if_neg hin, if_neg (by omega)]

/-! ### Write frames (R476) -/

/-- The target takes a write frame at once. -/
def frameTakes (ddr : Bool) (s : State) : Prop :=
  umlimelUp s = true ∧ (ddr = true → s.host.i3c.hdr = true) ∧ ∀ a, s.host.i3c.lastFrame = some a → a + 2 * tUs ≤ s.now

/-- `s` as a write frame that is taken finds it. -/
def framed (ddr : Bool) (s : State) : State := modI3c (fun v => { v with lastFrame := some s.now, hdr := ddr }) s

theorem i3cUp_of_umlimelUp {s : State} (h : umlimelUp s = true) : i3cUp s = true := by
  simp only [umlimelUp, Bool.and_eq_true] at h
  obtain ⟨⟨⟨hup, -⟩, -⟩, -⟩ := h
  exact hup

section

variable {ddr : Bool} {s : State}

/-- A frame under HDR-DDR comes only after its entry. -/
theorem sdr_or_hdr (h : ddr = true → s.host.i3c.hdr = true) : (ddr && !s.host.i3c.hdr) = false := by
  cases ddr with
  | false => rfl
  | true => rw [h rfl]; rfl

theorem writeFrame_taken (h : frameTakes ddr s) (f : State → State) : writeFrame ddr f s = f (framed ddr s) := by
  obtain ⟨hup, hddr, hlast⟩ := h
  cases hl : s.host.i3c.lastFrame with
  | none => simp only [writeFrame, i3cUp_of_umlimelUp hup, hup, sdr_or_hdr hddr, hl, Bool.not_true, Bool.or_self, Bool.false_eq_true, if_false]; rfl
  | some a =>
    simp only [writeFrame, i3cUp_of_umlimelUp hup, hup, sdr_or_hdr hddr, hl, hlast a hl, Bool.not_true, Bool.or_self, Bool.false_eq_true, if_false,
      if_true]
    rfl

theorem writeFrame_nacked (hi : i3cUp s = true) (hu : umlimelUp s = false) (hddr : ddr = true → s.host.i3c.hdr = true) (f : State → State) :
    writeFrame ddr f s = emit .i3cNack s := by
  simp only [writeFrame, hi, hu, sdr_or_hdr hddr, Bool.not_true, Bool.not_false, Bool.or_self, Bool.false_eq_true, if_false, if_true]

/-- A discarded frame is counted, and is a fault of its session. -/
def frameDropped (n : Nat) (s t : State) : Prop := counted cIfDiscarded 1 1 s t ∧ (i3cSession s n = true → faultCounted n s t)

theorem frameDiscarded_drops (n : Nat) : frameDropped n s (frameDiscarded n (framed ddr s)) := by
  have hsession : i3cSession (count cIfDiscarded 1 1 (framed ddr s)) n = i3cSession s n := rfl
  have hcount : counted cIfDiscarded 1 1 s (count cIfDiscarded 1 1 (framed ddr s)) := counted_of_tel (framed ddr s) rfl rfl
  have hslots : ∀ j, slotOf (count cIfDiscarded 1 1 (framed ddr s)) j = slotOf s j := fun _ => rfl
  unfold frameDiscarded
  dsimp only
  rw [show i3cSession (framed ddr s) n = i3cSession s n from hsession]
  obtain ⟨u, hu⟩ : ∃ u, count cIfDiscarded 1 1 (framed ddr s) = u := ⟨_, rfl⟩
  rw [hu] at hcount hslots ⊢
  cases hs : i3cSession s n with
  | false => exact ⟨hcount, fun h => absurd (hs.symm.trans h) (by decide)⟩
  | true =>
    obtain ⟨hi, hj⟩ := faultCounted_transportFault n u
    rw [hslots] at hi
    exact ⟨counted_then_counts hcount (transportFault_counts _ _), fun _ => ⟨hi, fun j hne => (hj j hne).trans (hslots j)⟩⟩

/-! ### Payload bytes, fetches and descriptors (R476, R478) -/

section

variable (h : frameTakes ddr s) {n off : Nat} {b : Bytes}
include h

theorem frameInvalid_drops : Completes (.umlimelFrameInvalid n ddr) s (frameDropped n s) :=
  ⟨_, congrArg Host.Outcome.next (writeFrame_taken h _), frameDiscarded_drops n⟩

theorem exec_payload {v : Bool} (hv : (i3cSession s n && b.length ≤ 64 && off + b.length ≤ 4096) = v) :
    exec (.umlimelPayload n off b ddr) s = .next (if v then modSlot n (fun x => { x with payload := tabFill 0 off b x.payload }) (framed ddr s)
      else frameDiscarded n (framed ddr s)) := by
  subst hv
  exact congrArg Host.Outcome.next (writeFrame_taken h _)

theorem exec_fetch {v : Bool} (hv : (i3cSession s n && off < 4096) = v) :
    exec (.umlimelFetch n off ddr) s = .next (if v then modI3c (fun x => { x with fetch := some (n, off) }) (framed ddr s)
      else frameDiscarded n (framed ddr s)) := by
  subst hv
  exact congrArg Host.Outcome.next (writeFrame_taken h _)

theorem payload_puts (hs : i3cSession s n = true) (hb : b.length ≤ 64) (hoff : off + b.length ≤ 4096) :
    Completes (.umlimelPayload n off b ddr) s fun t =>
      (∀ k, tabGet 0 (slotOf t n).payload k = if off ≤ k ∧ k < off + b.length then b.getD (k - off) 0 else tabGet 0 (slotOf s n).payload k) ∧
      t.host.i3c.lastFrame = some s.now := by
  refine ⟨_, exec_payload h (v := true) (by simp only [hs, hb, hoff, decide_true, Bool.and_self]), fun k => ?_, rfl⟩
  rw [if_pos rfl, slotOf_modSlot]
  exact tabGet_fill _ _ _ _

theorem fetch_asks (hs : i3cSession s n = true) (hoff : off < 4096) :
    Completes (.umlimelFetch n off ddr) s fun t => t.host.i3c.fetch = some (n, off) :=
  ⟨_, exec_fetch h (v := true) (by simp only [hs, hoff, decide_true, Bool.and_self]), rfl⟩

theorem payload_dropped (hs : i3cSession s n = false) : Completes (.umlimelPayload n off b ddr) s (frameDropped n s) :=
  ⟨_, exec_payload h (v := false) (by simp only [hs, Bool.false_and]), frameDiscarded_drops n⟩

theorem fetch_dropped (hs : i3cSession s n = false) : Completes (.umlimelFetch n off ddr) s (frameDropped n s) :=
  ⟨_, exec_fetch h (v := false) (by simp only [hs, Bool.false_and]), frameDiscarded_drops n⟩

variable (hb : b.length = 64)
include hb

/-- A descriptor of an open session. -/
theorem exec_command (hs : i3cSession s n = true) {v : Bool} (hv : ((slotOf s n).submitted.isSome || 0 < inProgressCount s n) = v) :
    exec (.umlimelCommand n b ddr) s = .next (if v then answerAside n .busy b (framed ddr s)
      else modSlot n (fun x => { x with submitted := some b }) (framed ddr s)) := by
  have hn : (n == 0xFF) = false := by
    simp only [i3cSession, Bool.and_eq_true, decide_eq_true_eq] at hs
    obtain ⟨⟨hlt, -⟩, -⟩ := hs
    rw [beq_eq_false_iff_ne]
    omega
  have hlen : (b.length != 64) = false := by rw [hb]; rfl
  have hs' : i3cSession (framed ddr s) n = true := hs
  have hv' : ((slotOf (framed ddr s) n).submitted.isSome || 0 < inProgressCount (framed ddr s) n) = v := hv
  refine congrArg Host.Outcome.next ((writeFrame_taken h _).trans ?_)
  simp only [hlen, hn, hs', hv', Bool.not_true, Bool.false_eq_true, if_false]

theorem command_submits (hs : i3cSession s n = true) (hsub : (slotOf s n).submitted = none) (hidle : inProgressCount s n = 0) :
    Completes (.umlimelCommand n b ddr) s fun t => slotOf t n = { slotOf s n with submitted := some b } := by
  refine ⟨_, exec_command h hb hs (v := false) (by simp only [hsub, hidle]; decide), ?_⟩
  dsimp only
  rw [if_neg (by decide), slotOf_modSlot]
  rfl

theorem command_busy (hs : i3cSession s n = true) (hbusy : (slotOf s n).submitted.isSome = true ∨ 0 < inProgressCount s n) :
    Completes (.umlimelCommand n b ddr) s fun t => slotOf t n = slotOf s n ∧ ∃ e, t.host.ended = s.host.ended ++ [e] ∧ e.slot = n ∧
      e.status = .busy ∧ e.aside = true :=
  ⟨_, exec_command h hb hs (v := true) (by simpa using hbusy), rfl, _, rfl, rfl, rfl, rfl⟩

variable (hop : u16 b 0 = 0x0101)
include hop

/-- A SESSION_OPEN for a new session. -/
theorem exec_openCommand {o : Option Nat} (ho : freeSlot s = o) : exec (.umlimelCommand 0xFF b ddr) s = .next (match o with
    | none => answerAside 0xFF .nores b (framed ddr s)
    | some i => modSlot i (fun x => { slotCleared x with i3c := true, state := .pending, submitted := some b }) (framed ddr s)) := by
  have hlen : (b.length != 64) = false := by rw [hb]; rfl
  have hopen : (u16 b 0 != 0x0101) = false := by rw [hop]; rfl
  have ho' : freeSlot (framed ddr s) = o := ho
  refine congrArg Host.Outcome.next ((writeFrame_taken h _).trans ?_)
  simp only [hlen, hopen, ho', beq_self_eq_true, if_true, Bool.false_eq_true, if_false]
  cases o <;> rfl

theorem openCommand_opens {i : Nat} (ho : freeSlot s = some i) : Completes (.umlimelCommand 0xFF b ddr) s fun t =>
    (slotOf t i).state = .pending ∧ (slotOf t i).i3c = true ∧ (slotOf t i).submitted = some b ∧ ∀ j, j ≠ i → slotOf t j = slotOf s j := by
  refine ⟨_, exec_openCommand h hb hop ho, ?_⟩
  dsimp only
  rw [slotOf_modSlot]
  exact ⟨rfl, rfl, rfl, fun j hj => slotOf_modSlot_ne _ _ hj⟩

theorem openCommand_nores (ho : freeSlot s = none) : Completes (.umlimelCommand 0xFF b ddr) s fun t =>
    ∃ e, t.host.ended = s.host.ended ++ [e] ∧ e.status = .nores ∧ e.aside = true :=
  ⟨_, exec_openCommand h hb hop ho, _, rfl, rfl, rfl⟩

end

/-! ### Reads (R477) -/

section

variable (hddr : ddr = true → s.host.i3c.hdr = true)
include hddr

theorem exec_read_nacked (hi : i3cUp s = true) (hu : umlimelUp s = false) : exec (.umlimelRead ddr) s = .next (emit .i3cNack s) := by
  change execUmlimelRead ddr s = _
  simp only [execUmlimelRead, hi, hu, sdr_or_hdr hddr, Bool.not_true, Bool.not_false, Bool.or_self, Bool.false_eq_true, if_false, if_true]

/-- A target that is not up does not acknowledge. -/
theorem frames_nacked (hi : i3cUp s = true) (hu : umlimelUp s = false) (n off : Nat) (b : Bytes) :
    ∀ c ∈ [Instr.umlimelPayload n off b ddr, .umlimelCommand n b ddr, .umlimelFetch n off ddr, .umlimelFrameInvalid n ddr, .umlimelRead ddr],
      Completes c s fun t => t = emit .i3cNack s := by
  intro c hc
  have hframe : ∀ f, Host.Outcome.next (writeFrame ddr f s) = (.next (emit .i3cNack s) : Host.Outcome State Fault Refusal) :=
    fun f => congrArg Host.Outcome.next (writeFrame_nacked hi hu hddr f)
  simp only [List.mem_cons, List.not_mem_nil, or_false] at hc
  obtain rfl | rfl | rfl | rfl | rfl := hc
  · exact ⟨_, hframe _, rfl⟩
  · exact ⟨_, hframe _, rfl⟩
  · exact ⟨_, hframe _, rfl⟩
  · exact ⟨_, hframe _, rfl⟩
  · exact ⟨_, exec_read_nacked hddr hi hu, rfl⟩

variable (hu : umlimelUp s = true)
include hu

theorem read_chunk {m o : Nat} {x : Bytes} (hr : replyChunk s = some (m, o, x)) : Completes (.umlimelRead ddr) s fun t =>
    t.host.i3c.fetch = some (m, o) ∧ t.out = .i3cRead ([2] ++ toLe 1 m ++ toLe 2 x.length ++ x) :: s.out ∧
    t.host.i3c.queue = s.host.i3c.queue := by
  have hexec : exec (.umlimelRead ddr) s = .next (emit (.i3cRead (toLe 1 2 ++ toLe 1 m ++ toLe 2 x.length ++ x))
      (modI3c (fun v => { v with fetch := some (m, o), hdr := ddr }) s)) := by
    change execUmlimelRead ddr s = _
    simp only [execUmlimelRead, i3cUp_of_umlimelUp hu, hu, sdr_or_hdr hddr, hr, Bool.not_true, Bool.or_self, Bool.false_eq_true, if_false]
  exact ⟨_, hexec, rfl, rfl, rfl⟩

theorem read_completion {m : Nat} {x : Bytes} {q : List (Nat × Bytes)} (hr : replyChunk s = none) (hq : s.host.i3c.queue = (m, x) :: q) :
    Completes (.umlimelRead ddr) s fun t => t.host.i3c.queue = q ∧
      t.out = .i3cRead ([1] ++ toLe 1 m ++ [32, 0] ++ x) :: s.out := by
  have hexec : exec (.umlimelRead ddr) s = .next (emit (.i3cRead (toLe 1 1 ++ toLe 1 m ++ toLe 2 32 ++ x))
      (modI3c (fun v => { v with queue := q }) (modI3c (fun v => { v with fetch := none, hdr := ddr }) s))) := by
    change execUmlimelRead ddr s = _
    simp only [execUmlimelRead, i3cUp_of_umlimelUp hu, hu, sdr_or_hdr hddr, hr, hq, Bool.not_true, Bool.or_self, Bool.false_eq_true, if_false]
  exact ⟨_, hexec, rfl, rfl⟩

theorem read_none (hr : replyChunk s = none) (hq : s.host.i3c.queue = []) :
    Completes (.umlimelRead ddr) s fun t => t.out = .i3cRead [0, 0, 0, 0] :: s.out := by
  have hexec : exec (.umlimelRead ddr) s = .next (emit (.i3cRead (toLe 4 0)) (modI3c (fun v => { v with fetch := none, hdr := ddr }) s)) := by
    change execUmlimelRead ddr s = _
    simp only [execUmlimelRead, i3cUp_of_umlimelUp hu, hu, sdr_or_hdr hddr, hr, hq, Bool.not_true, Bool.or_self, Bool.false_eq_true, if_false]
  exact ⟨_, hexec, rfl⟩

end

/-! ### Interrupts raised again (R479) -/

theorem raiseIbi_raises {alert : Bool} {data : Byte} (he : s.host.i3c.events = true) : raiseIbi alert data s =
    emit (.ibi data) (modHost (fun h => { h with i3c :=
      if alert then { h.i3c with alertIbi := some s.now } else { h.i3c with completionIbi := some s.now } }) s) := if_pos he

section

variable (he : s.host.i3c.events = true) {a : Nat}
include he

theorem ibiRetry_alert (ha : s.host.i3c.alertIbi = some a) (hon : alertOn s = true) : Completes (.ibiRetry true) s fun t =>
    t.out = .ibi 0x40 :: s.out ∧ a + 100 * tUs ≤ t.now ∧ t.host.i3c.alertIbi = some t.now := by
  have hexec : exec (.ibiRetry true) s = .next (raiseIbi true 0x40 (reach (a + 100 * tUs) s)) := by
    change execIbiRetry true s = _
    simp only [execIbiRetry, ha, hon, if_true]
  rw [raiseIbi_raises (s := reach (a + 100 * tUs) s) he] at hexec
  exact ⟨_, hexec, rfl, le_reach_now _ s, rfl⟩

theorem ibiRetry_completion {m : Nat} {x : Bytes} {q : List (Nat × Bytes)} (ha : s.host.i3c.completionIbi = some a)
    (hq : s.host.i3c.queue = (m, x) :: q) : Completes (.ibiRetry false) s fun t =>
      t.out = .ibi (BitVec.ofNat 8 (0x20 + m % 32)) :: s.out ∧ a + 100 * tUs ≤ t.now ∧ t.host.i3c.completionIbi = some t.now := by
  have hexec : exec (.ibiRetry false) s = .next (raiseIbi false (BitVec.ofNat 8 (0x20 + m % 32)) (reach (a + 100 * tUs) s)) := by
    change execIbiRetry false s = _
    simp only [execIbiRetry, ha, hq, Bool.false_eq_true, if_false]
  rw [raiseIbi_raises (s := reach (a + 100 * tUs) s) he] at hexec
  exact ⟨_, hexec, rfl, le_reach_now _ s, rfl⟩

end

end

/-- Settles O49. The five low bits of the session in the interrupt's byte are assumption 134, and completions set aside are assumption 135: the
model's choices. -/
theorem umlimelFramesAreTaken : Obligations.UmlimelFramesAreTaken := by
  intro n off i b ddr s takes discarded
  refine ⟨fun h hs => ⟨fun hb hoff => payload_puts h hs hb hoff, fun hoff => fetch_asks h hs hoff, fun hb hsub hidle => command_submits h hb hs hsub hidle,
      fun hb hbusy => command_busy h hb hs hbusy⟩,
    fun h hb hop => ⟨fun ho => openCommand_opens h hb hop ho, fun ho => openCommand_nores h hb hop ho⟩,
    fun h => ⟨frameInvalid_drops h, fun hs => ⟨payload_dropped h hs, fetch_dropped h hs⟩⟩,
    fun hi hu hddr => frames_nacked hddr hi hu n off b, fun hu hddr => ⟨fun m o x hr => read_chunk hddr hu hr, fun m x q hr hq =>
      read_completion hddr hu hr hq, fun hr hq => read_none hddr hu hr hq⟩,
    fun he => ⟨fun a ha hon => ibiRetry_alert he ha hon, fun a m x q ha hq => ibiRetry_completion he ha hq⟩⟩

end Sys2Proof.Proofs
end

section
/-!
PROOFS. Common command codes and the host interfaces' link errors (O50): R475, R485.
-/

namespace Sys2Proof.Proofs

open Sys2Proof Sys2Proof.Machine Sys2Proof.Laws

theorem ite_i3c {p : Prop} [Decidable p] (v w x : I3c) (hx : { x with hdr := false } = w) :
    (if p then ({ v with hdr := false } : I3c) else w) = { (if p then v else x) with hdr := false } := by
  subst hx
  split <;> rfl

section

variable {s : State} (hup : i3cUp s = true)
include hup

/-! ### Codes that set something -/

theorem ccc_acts (f : State → State) : ccc f s = f (modI3c (fun v => { v with hdr := false }) s) := if_pos hup

/-- From `s` to `t` only the I3C target has changed, to `w`, and a frame under HDR-DDR is over. -/
def onlyI3c (w : I3c) (s t : State) : Prop := t.host = { s.host with i3c := { w with hdr := false } } ∧ ∀ p, p ≠ .host → Same p s t

/-- A code that changes the target as `f` does, whatever HDR-DDR does. -/
theorem ccc_only {i : Instr} {f : I3c → I3c} {w : I3c} (hi : exec i s = .next (ccc (modI3c f) s))
    (hf : f { s.host.i3c with hdr := false } = { w with hdr := false }) : Completes i s (onlyI3c w s) := by
  refine ⟨_, hi.trans (congrArg _ (ccc_acts hup _)), ?_, same_of_host _⟩
  exact congrArg (fun x : I3c => { s.host with i3c := x }) hf

/-- A code that changes nothing. -/
theorem ccc_idle {i : Instr} {f : State → State} (hi : exec i s = .next (ccc f s))
    (hf : f (modI3c (fun v => { v with hdr := false }) s) = modI3c (fun v => { v with hdr := false }) s) :
    Completes i s (onlyI3c s.host.i3c s) := by
  refine ⟨_, hi.trans (congrArg _ ((ccc_acts hup _).trans hf)), rfl, same_of_host _⟩

/-- A code that gives the target its address. -/
theorem ccc_setAddress {i : Instr} {f : State → State} {a : BitVec 7} (hi : exec i s = .next (ccc f s))
    (hf : f (modI3c (fun v => { v with hdr := false }) s) = setAddress a (modI3c (fun v => { v with hdr := false }) s)) :
    Completes i s fun t => t.host.i3c = { s.host.i3c with dynAddr := some a.toNat, hdr := false } ∧ logged 0x0108 t := by
  refine ⟨_, hi.trans (congrArg _ ((ccc_acts hup _).trans hf)), ?_, kiln_head _ _ _⟩
  rw [setAddress, kiln_host]
  rfl

variable {a : BitVec 7}

theorem address_taken (hn : s.host.i3c.dynAddr = none) : ∀ i ∈ [Instr.entdaa a, .setdasa a], Completes i s fun t =>
    t.host.i3c = { s.host.i3c with dynAddr := some a.toNat, hdr := false } ∧ logged 0x0108 t := by
  intro i hi
  have hnone : (modI3c (fun v => { v with hdr := false }) s).host.i3c.dynAddr.isNone = true := by
    rw [show (modI3c (fun v => { v with hdr := false }) s).host.i3c.dynAddr = none from hn]
    rfl
  simp only [List.mem_cons, List.not_mem_nil, or_false] at hi
  obtain rfl | rfl := hi
  · exact ccc_setAddress hup rfl (if_pos hnone)
  · exact ccc_setAddress hup rfl (if_pos hnone)

theorem address_kept (hn : s.host.i3c.dynAddr.isSome = true) : ∀ i ∈ [Instr.entdaa a, .setdasa a], Completes i s (onlyI3c s.host.i3c s) := by
  intro i hi
  have hnone : ¬ (modI3c (fun v => { v with hdr := false }) s).host.i3c.dynAddr.isNone = true := by
    rw [Option.isNone_iff_eq_none, show (modI3c (fun v => { v with hdr := false }) s).host.i3c.dynAddr = s.host.i3c.dynAddr from rfl]
    intro h
    rw [h] at hn
    cases hn
  simp only [List.mem_cons, List.not_mem_nil, or_false] at hi
  obtain rfl | rfl := hi
  · exact ccc_idle hup rfl (if_neg hnone)
  · exact ccc_idle hup rfl (if_neg hnone)

/-! ### Direct codes that read -/

/-- A direct code answers once the target has an address; without one it is not acknowledged. -/
def codeAnswers (s : State) (i : Instr) (b : Bytes) : Prop :=
  (s.host.i3c.dynAddr.isSome = true → Completes i s fun t => t.out = .i3cRead b :: s.out ∧ t.host.i3c = { s.host.i3c with hdr := false }) ∧
  (s.host.i3c.dynAddr = none → Completes i s fun t => t = emit .i3cNack s)

theorem cccGet_answers {i : Instr} {f : State → Bytes × State} {b : Bytes} {u : State} (hi : exec i s = .next (cccGet f s))
    (hf : f (modI3c (fun v => { v with hdr := false }) s) = (b, u)) (hout : u.out = s.out)
    (hhost : u.host.i3c = { s.host.i3c with hdr := false }) : codeAnswers s i b := by
  have hnext : (!i3cUp s) = false := by rw [hup]; rfl
  refine ⟨fun h => ⟨emit (.i3cRead b) u, ?_, congrArg _ hout, hhost⟩, fun h => ⟨emit .i3cNack s, ?_, rfl⟩⟩
  · have hnone : s.host.i3c.dynAddr.isNone = false := by
      obtain ⟨a, ha⟩ := Option.isSome_iff_exists.mp h
      rw [ha]
      rfl
    simp only [hi, cccGet, hnext, hnone, Bool.false_eq_true, if_false, hf]
  · have hnone : s.host.i3c.dynAddr.isNone = true := by rw [h]; rfl
    simp only [hi, cccGet, hnext, hnone, Bool.false_eq_true, if_false, if_true]

end

/-! ### Link errors (R485) -/

/-- What a link error of an interface ends: the transfer of PCI Express, or the I3C target's frame. -/
def linkContained (site : Nat) (s : State) : State := if site == 0 then count cIfDiscarded 0 1 s else resetFrames s

theorem exec_linkError (site : Fin 2) (s : State) :
    exec (.hstLink site false) s = .next (detect 60 18 site.val (fun _ s => linkContained site.val s) s) := rfl

theorem linkContained_inFlight (site : Nat) (s : State) : (linkContained site s).flt.inFlight = s.flt.inFlight := by
  unfold linkContained
  split <;> rfl

theorem detect_host (b k i : Nat) (contain : Bool → State → State) (s : State) :
    (detect b k i contain s).host = (contain (injectedNow s b k i) s).host := raiseFault_host _ _ _ _ _

/-- Settles O50. The third byte of GETMRL, the lengths below 68 that are ignored (assumption 122), the free bytes of GETSTATUS and GETMXDS
(assumption 123) and the end of HDR-DDR (assumption 125) are the model's choices. -/
theorem commonCommandCodesAct : Obligations.CommonCommandCodesAct := by
  intro e a n site s v only answers
  refine ⟨fun hup => ⟨ccc_only hup rfl rfl, ccc_only hup rfl rfl, ccc_only hup rfl rfl, fun hn => address_taken hup hn,
    fun hn => address_kept hup hn, fun hn => ?_, fun hn => ?_, ccc_only hup rfl (ite_i3c _ _ _ rfl), ccc_only hup rfl (ite_i3c _ _ _ rfl),
    cccGet_answers hup rfl rfl rfl rfl, cccGet_answers hup rfl rfl rfl rfl, cccGet_answers hup rfl rfl rfl rfl,
    cccGet_answers hup rfl rfl rfl rfl, cccGet_answers hup rfl rfl rfl rfl, cccGet_answers hup rfl rfl rfl rfl,
    cccGet_answers hup rfl rfl rfl rfl, ?_, ?_, fun he => ?_⟩, ?_, ?_, ?_⟩
  · refine ccc_setAddress hup rfl (if_pos ?_)
    exact hn
  · refine ccc_idle hup rfl (if_neg ?_)
    rw [show (modI3c (fun v => { v with hdr := false }) s).host.i3c.dynAddr = none from hn]
    decide
  · exact ⟨_, congrArg Host.Outcome.next (ccc_acts hup _), rfl, same_of_host _⟩
  · exact ⟨_, congrArg Host.Outcome.next (ccc_acts hup _), rfl, counted_of_tel s rfl rfl⟩
  · exact ccc_idle hup rfl (if_neg (by rw [beq_iff_eq]; exact he))
  · exact ⟨_, rfl, counted_count _ _ _ _, rfl, rfl⟩
  · exact ⟨_, exec_linkError 0 s, raised_detect (fun _ => linkContained_inFlight _ _) _ _ _, counted_detect (fun _ => counted_count _ _ _ _) _ _ _,
      detect_host _ _ _ _ _⟩
  · refine ⟨_, exec_linkError 1 s, raised_detect (fun _ => linkContained_inFlight _ _) _ _ _, ?_, ?_⟩
    · rw [detect_host]
      rfl
    · rw [detect_host]
      rfl

end Sys2Proof.Proofs
end

section
/-!
PROOFS. Uploads, signature sets and firmware (O51 in part, O59): R502, R503, R508 to R511, R529, R537.
-/

namespace Sys2Proof.Proofs

open Sys2Proof Sys2Proof.Machine Sys2Proof.Laws

/-! ### Upload buffers (R502, R503) -/

section

variable {c : Cmd} {s : State} {i : Instr} {opcode k : Nat}

@[simp] theorem uploadOf_setUpload (k : Nat) (v : Upload) (s : State) : uploadOf (setUpload k v s) k = v := tabGet_set _ _ _ _

theorem uploadOf_setUpload_ne {j k : Nat} (h : j ≠ k) (v : Upload) (s : State) : uploadOf (setUpload k v s) j = uploadOf s j :=
  tabGet_set_ne _ _ h

theorem uploadOf_of_host {t : State} (h : t.host = s.host) (k : Nat) : uploadOf t k = uploadOf s k := by rw [uploadOf, h, uploadOf]

@[simp] theorem uploadOf_releaseUpload (k : Nat) (s : State) : uploadOf (releaseUpload k s) k = {} := tabGet_del _ _ _

theorem uploadOf_takenState (c : Cmd) (s : State) (k : Nat) : uploadOf (takenState c s) k = uploadOf s k := rfl

/-- An upload buffer that a command replaces, and the others that stand. -/
theorem setUpload_ended (e : Ended) (k : Nat) (v : Upload) (s : State) : uploadOf (endCommand e (setUpload k v s)) k = v ∧
    ∀ j, j ≠ k → uploadOf (endCommand e (setUpload k v s)) j = uploadOf s j :=
  ⟨uploadOf_setUpload k v s, fun _ h => uploadOf_setUpload_ne h v s⟩

theorem uploadBegin_writes {busy : State → Bool} (hi : exec i s = .next (uploadBegin opcode k busy c s)) (hb : busy (takenState c s) = false)
    (ho : (uploadOf s k).claim = none ∨ (uploadOf s k).claim = some c.slot.val) :
    Writes (opUploadBegin opcode k) c i s fun t =>
      uploadOf t k = { claim := some c.slot.val, length := u32 (given c s) 0, crc := u32 (given c s) 4 } ∧
      ∀ j, j ≠ k → uploadOf t j = uploadOf s j := by
  refine writes_of hi fun _ => ⟨setUpload k { claim := some c.slot.val, length := u32 (given c s) 0, crc := u32 (given c s) 4 } (takenState c s),
    ?_, rfl, setUpload_ended _ k _ (takenState c s)⟩
  rw [← uploadOf_takenState c s] at ho
  rcases ho with ho | ho
  · simp only [hb, ho, Bool.false_eq_true, if_false]
    rfl
  · simp only [hb, ho, Bool.false_eq_true, if_false, beq_self_eq_true, if_true]
    rfl

theorem uploadChunk_writes (hi : exec i s = .next (uploadChunk opcode k c s)) (ho : (uploadOf s k).claim = some c.slot.val) :
    Writes (opUploadChunk opcode k c.slot.val) c i s fun t =>
      uploadOf t k = { uploadOf s k with
        bytes := tabFill 0 (u32 (given c s) 0) ((given c s).drop 8) (uploadOf s k).bytes
        written := (u32 (given c s) 0, (given c s).length - 8) :: (uploadOf s k).written } ∧
      ∀ j, j ≠ k → uploadOf t j = uploadOf s j := by
  refine writes_of hi fun _ => ⟨setUpload k { uploadOf s k with
    bytes := tabFill 0 (u32 (given c s) 0) ((given c s).drop 8) (uploadOf s k).bytes
    written := (u32 (given c s) 0, (given c s).length - 8) :: (uploadOf s k).written } (takenState c s),
    ?_, rfl, setUpload_ended _ k _ (takenState c s)⟩
  rw [← uploadOf_takenState c s] at ho ⊢
  simp only [ho, bne_self_eq_false, Bool.false_eq_true, if_false]
  rfl

end

/-! ### Signature sets (R508) -/

section

variable (mask set : Nat) (v : SigSet) (s : State)

/-- What a set's write for one quadrant does. -/
def setWritten (set : Nat) (v : SigSet) (s : State) (q : Nat) : State :=
  kiln 0x0701 [(1, q), (1, set), (4, v.tag)] (modSig (fun t => { t with sets := tabPut (16 * q + set) v t.sets }) s)

theorem writeSet_eq : writeSet mask set v s = (maskBits 4 mask).foldl (setWritten set v) s := rfl

theorem setWritten_sets (q : Nat) : (setWritten set v s q).sig = { s.sig with sets := tabPut (16 * q + set) v s.sig.sets } :=
  (keeps_kiln _ _ _).same .sig rfl

/-- The shadow of every quadrant named holds the set. -/
theorem writeSet_sets {q : Nat} (hq : q < 4) (hb : bit mask q = true) : tabFind (writeSet mask set v s).sig.sets (16 * q + set) = some v := by
  have hmem : q ∈ maskBits 4 mask := List.mem_filter.mpr ⟨List.mem_range.mpr hq, hb⟩
  refine foldl_reaches (op := setWritten set v) (P := fun _ => True) (Q := fun s => tabFind s.sig.sets (16 * q + set) = some v)
    (fun s _ => ?_) (fun _ _ _ _ => trivial) (fun s x h => ?_) hmem trivial
  · rw [setWritten_sets]
    exact tabFind_put _ _ _
  · rw [setWritten_sets]
    by_cases hx : 16 * q + set = 16 * x + set
    · rw [hx]
      exact tabFind_put _ _ _
    · exact (tabFind_put_ne _ _ hx).trans h

/-- A set's write leaves the engines and their jobs. -/
theorem writeSet_rest : (writeSet mask set v s).sig.engines = s.sig.engines ∧ (writeSet mask set v s).sig.jobs = s.sig.jobs := by
  have hkept : ∀ q u, (setWritten set v u q).sig.engines = u.sig.engines ∧ (setWritten set v u q).sig.jobs = u.sig.jobs := fun q u => by
    rw [setWritten_sets]
    exact ⟨rfl, rfl⟩
  exact ⟨foldl_keeps (fun s : State => s.sig.engines) fun s q _ => (hkept q s).1,
    foldl_keeps (fun s : State => s.sig.jobs) fun s q _ => (hkept q s).2⟩

theorem writeSet_host : (writeSet mask set v s).host = s.host := (keeps_writeSet _ _ _ _).same .host rfl

end

theorem enginesOfSet_of_engines {s t : State} (h : t.sig.engines = s.sig.engines) (mask set : Nat) : enginesOfSet t mask set = enginesOfSet s mask set := by
  have hengine : ∀ e, engineOf t e = engineOf s e := fun e => by rw [engineOf, h, engineOf]
  simp only [enginesOfSet, hengine]

section

variable {c : Cmd} {s : State} {b : Bytes}

/-- The set of an upload in the shadows that a commit names, its claim released. -/
def setShadowed (c : Cmd) (s : State) (b : Bytes) : State :=
  writeSet (u8 (given c s) 0) (u8 (given c s) 1) (sigSetOf b) (releaseUpload 1 (takenState c s))

/-- The shadows of the quadrants named hold the set, and the buffer is free. -/
def shadowHolds (c : Cmd) (s : State) (b : Bytes) (t : State) : Prop :=
  (∀ q, q < 4 → bit (u8 (given c s) 0) q = true → tabFind t.sig.sets (16 * q + u8 (given c s) 1) = some (sigSetOf b)) ∧
    (uploadOf t 1).claim = none

theorem shadowHolds_of {t u : State} (h : shadowHolds c s b t) (hs : u.sig.sets = t.sig.sets) (hu : uploadOf u 1 = uploadOf t 1) :
    shadowHolds c s b u := by
  obtain ⟨hsets, hclaim⟩ := h
  exact ⟨fun q hq hb => by rw [hs]; exact hsets q hq hb, by rw [hu]; exact hclaim⟩

theorem setShadowed_holds : shadowHolds c s b (setShadowed c s b) := by
  refine ⟨fun q hq hb => writeSet_sets _ _ _ _ hq hb, ?_⟩
  rw [setShadowed, uploadOf_of_host (writeSet_host _ _ _ _), uploadOf_releaseUpload]

theorem enginesOfSet_setShadowed : enginesOfSet (setShadowed c s b) (u8 (given c s) 0) (u8 (given c s) 1) =
    enginesOfSet s (u8 (given c s) 0) (u8 (given c s) 1) := enginesOfSet_of_engines (writeSet_rest _ _ _ _).1 _ _

variable (hw : uploadWhole s 1 c.slot.val = .ok b) (hbad : sigSetBad b = none)
include hw hbad

theorem sigSetCommit_done (he : enginesOfSet s (u8 (given c s) 0) (u8 (given c s) 1) = []) (hp : passes opSigSetCommit c s = true) :
    Completes (.sigSetCommit c) s fun t => answered opSigSetCommit c .ok (toLe 4 (sigSetOf b).tag) [] s t ∧ shadowHolds c s b t := by
  have hw' : uploadWhole (takenState c s) 1 c.slot.val = .ok b := hw
  have hengines : enginesOfSet (writeSet (u8 (given c s) 0) (u8 (given c s) 1) (sigSetOf b) (releaseUpload 1 (takenState c s)))
      (u8 (given c s) 0) (u8 (given c s) 1) = [] := enginesOfSet_setShadowed.trans he
  refine answers_of (u := setShadowed c s b) rfl hp ?_ ?_ ?_
  · simp only [hw', hbad, hengines]
    rfl
  · have hhost : (setShadowed c s b).host = (releaseUpload 1 (takenState c s)).host := writeSet_host _ _ _ _
    rw [hhost]
    rfl
  · exact shadowHolds_of setShadowed_holds rfl rfl

theorem sigSetCommit_starts {e : Nat} {l : List Nat} (he : enginesOfSet s (u8 (given c s) 0) (u8 (given c s) 1) = e :: l) :
    Starts opSigSetCommit c (.sigSetCommit c) s fun t => shadowHolds c s b t ∧ (engineOf t e).phase = .loading ∧
      t.sig.jobs = s.sig.jobs ++ [{ run := s.host.nextId, engines := e :: l, data := toLe 4 (sigSetOf b).tag }] := by
  have hw' : uploadWhole (takenState c s) 1 c.slot.val = .ok b := hw
  have hengines : enginesOfSet (writeSet (u8 (given c s) 0) (u8 (given c s) 1) (sigSetOf b) (releaseUpload 1 (takenState c s)))
      (u8 (given c s) 0) (u8 (given c s) 1) = e :: l := enginesOfSet_setShadowed.trans he
  have hhost : (setShadowed c s b).host = (releaseUpload 1 (takenState c s)).host := writeSet_host _ _ _ _
  have hended : (setShadowed c s b).host.ended = s.host.ended := by rw [hhost]; rfl
  have hrunning : (setShadowed c s b).host.running = s.host.running := by rw [hhost]; rfl
  have hjobs : (setShadowed c s b).sig.jobs = s.sig.jobs := (writeSet_rest _ _ _ _).2
  have hholds := setShadowed_holds (c := c) (s := s) (b := b)
  obtain ⟨u, hu⟩ : ∃ u, setShadowed c s b = u := ⟨_, rfl⟩
  rw [hu] at hended hrunning hjobs hholds
  refine starts_of rfl fun _ => ⟨fun id => modSig (fun x => { x with
    jobs := x.jobs ++ [{ run := id, engines := e :: l, data := toLe 4 (sigSetOf b).tag }] }) (startLoading e u), ?_, ?_, ?_, shadowHolds_of hholds rfl rfl, ?_, ?_⟩
  · simp only [hw', hbad, hengines, ← hu]
    rfl
  · exact hended
  · exact hrunning
  · have hengine : engineOf (startLoading e u) e = { engineOf u e with phase := .loading } := tabGet_set _ _ _ _
    exact congrArg SigEngine.phase hengine
  · exact congrArg (fun l => l ++ _) hjobs

end

/-! ### Firmware (R509 to R511, R529) -/

section

variable {c : Cmd} {s : State} {b : Bytes}

theorem fwCommit_pending (hw : uploadWhole s 2 c.slot.val = .ok b) (hidle : fwWrites s = false) (hbad : commitBad s b = none)
    (hp : passes opFwCommit c s = true) : Completes (.fwCommit c) s fun t =>
      answered opFwCommit c .pending (toLe 4 (u32 b 8)) [] s t ∧ t.boot.update.writing = some (1 - s.boot.slot, fwImageOf b) ∧
      tabFind t.boot.slots (1 - s.boot.slot) = none ∧ tabFind t.boot.slots s.boot.slot = tabFind s.boot.slots s.boot.slot := by
  have hw' : uploadWhole (takenState c s) 2 c.slot.val = .ok b := hw
  have hidle' : fwWrites (takenState c s) = false := hidle
  have hbad' : commitBad (takenState c s) b = none := hbad
  have hother : s.boot.slot ≠ 1 - s.boot.slot := by omega
  refine answers_of (u := modBoot (fun t => { t with
      slots := tabDel (1 - s.boot.slot) t.slots
      update := { state := 2, last := statusCode .pending, writing := some (1 - s.boot.slot, fwImageOf b) } }) (releaseUpload 2 (takenState c s)))
    rfl hp ?_ rfl ⟨rfl, tabFind_del _ _, tabFind_del_ne _ hother⟩
  simp only [hw', hidle', hbad', Bool.false_eq_true, if_false]
  rfl

variable {k : Nat} {v : FwImage} (hw : s.boot.update.writing = some (k, v))
include hw

theorem fwWritten_written : Completes (.fwWritten true) s fun t =>
    tabGet {} t.boot.slots k = v ∧ t.boot.update.state = 3 ∧ t.boot.update.writing = none ∧ logged 0x0F01 t := by
  have hexec : exec (.fwWritten true) s = .next (kiln 0x0F01 [(1, k), (4, v.version)]
      (modBoot (fun t => { t with slots := tabSet {} k v t.slots, update := { state := 3 } }) s)) := by
    change execFwWritten true s = _
    simp only [execFwWritten, hw, if_true]
  refine ⟨_, hexec, ?_, ?_, ?_, kiln_head _ _ _⟩
  · rw [kiln_boot]
    exact tabGet_set _ _ _ _
  · rw [kiln_boot]
    rfl
  · rw [kiln_boot]
    rfl

theorem fwWritten_failed : Completes (.fwWritten false) s fun t =>
    t.boot.slots = s.boot.slots ∧ t.boot.update.state = 4 ∧ t.boot.update.last = 9 ∧ logged 0x0F02 t := by
  have hexec : exec (.fwWritten false) s = .next (kiln 0x0F02 [(2, statusCode .integrity), (4, v.version)]
      (modUpdate (fun _ => { state := 4, last := statusCode .integrity }) s)) := by
    change execFwWritten false s = _
    simp only [execFwWritten, hw, Bool.false_eq_true, if_false]
  refine ⟨_, hexec, ?_, ?_, ?_, kiln_head _ _ _⟩
  · rw [kiln_boot]
    rfl
  · rw [kiln_boot]
    rfl
  · rw [kiln_boot]
    rfl

end

/-! ### FW_ACTIVATE (R510, R537) -/

section

variable {c : Cmd} {s : State}

/-- The own work of FW_ACTIVATE. -/
def activateWork (p : Bytes) (s : State) : CmdResult :=
  let k := u8 p 0
  let now := bit (u8 p 1) 0
  if fwWrites s then badAll .busy
  else if slotCheck s k != 0 || (now && !adoptable s k) then badAll .state
  else
    let s1 := kiln 0x0F03 [(1, k), (1, u8 p 1)] (writeArea (fun a => { a with nextSlot := k }) s)
    okWrite (if now then modBoot (fun b => { b with warmDue := some (2, k) }) s1 else s1)

theorem exec_fwActivate (c : Cmd) (s : State) : exec (.fwActivate c) s = .next (icoux opFwActivate c (fun _ => activateWork) s) := rfl

/-- The state once slot `u8 p 0` is that of the next boot. -/
def slotNamed (p : Bytes) (s : State) : State :=
  kiln 0x0F03 [(1, u8 p 0), (1, u8 p 1)] (writeArea (fun a => { a with nextSlot := u8 p 0 }) s)

/-- The state once an activation is taken. -/
def activated (p : Bytes) (s : State) : State :=
  if bit (u8 p 1) 0 then modBoot (fun b => { b with warmDue := some (2, u8 p 0) }) (slotNamed p s) else slotNamed p s

theorem activateWork_taken {p : Bytes} (hidle : fwWrites s = false) (hc : slotCheck s (u8 p 0) = 0)
    (ha : bit (u8 p 1) 0 = true → adoptable s (u8 p 0) = true) : activateWork p s = okWrite (activated p s) := by
  have hok : (slotCheck s (u8 p 0) != 0 || (bit (u8 p 1) 0 && !adoptable s (u8 p 0))) = false := by
    cases hb : bit (u8 p 1) 0 with
    | false => rw [hc]; rfl
    | true => rw [hc, ha hb]; rfl
  simp only [activateWork, hidle, hok, Bool.false_eq_true, if_false]
  rfl

theorem activateWork_refused {p : Bytes} (hidle : fwWrites s = false)
    (h : slotCheck s (u8 p 0) ≠ 0 ∨ bit (u8 p 1) 0 = true ∧ adoptable s (u8 p 0) = false) : activateWork p s = badAll .state := by
  have hbad : (slotCheck s (u8 p 0) != 0 || (bit (u8 p 1) 0 && !adoptable s (u8 p 0))) = true := by
    rcases h with hc | ⟨hb, ha⟩
    · rw [bne_iff_ne.mpr hc]; rfl
    · rw [hb, ha]; exact Bool.or_true _
  simp only [activateWork, hidle, hbad, Bool.false_eq_true, if_false, if_true]

theorem slotNamed_boot (p : Bytes) (s : State) : (slotNamed p s).boot = (writeArea (fun a => { a with nextSlot := u8 p 0 }) s).boot := kiln_boot _ _ _

theorem activated_names (p : Bytes) (s : State) : (activated p s).boot.dataArea.nextSlot = u8 p 0 ∧ logged 0x0F03 (activated p s) ∧
    (activated p s).boot.warmDue = if bit (u8 p 1) 0 = true then some (2, u8 p 0) else s.boot.warmDue := by
  have hboot := slotNamed_boot p s
  have hlogged : logged 0x0F03 (slotNamed p s) := kiln_head _ _ _
  unfold activated
  cases hb : bit (u8 p 1) 0 with
  | false => exact ⟨by rw [if_neg (by decide), hboot]; rfl, hlogged, by rw [if_neg (by decide), if_neg (by decide), hboot]; rfl⟩
  | true => exact ⟨congrArg (fun b : BootState => b.dataArea.nextSlot) hboot, hlogged, rfl⟩

theorem activated_host (p : Bytes) (s : State) : (activated p s).host = s.host := by
  have hhost : (slotNamed p s).host = s.host := kiln_host _ _ _
  unfold activated
  split
  · exact hhost
  · exact hhost

theorem fwActivate_writes (hidle : fwWrites s = false) (hc : slotCheck s (u8 (given c s) 0) = 0)
    (ha : bit (u8 (given c s) 1) 0 = true → adoptable s (u8 (given c s) 0) = true) : Writes opFwActivate c (.fwActivate c) s fun t =>
      t.boot.dataArea.nextSlot = u8 (given c s) 0 ∧ logged 0x0F03 t ∧
      t.boot.warmDue = if bit (u8 (given c s) 1) 0 = true then some (2, u8 (given c s) 0) else s.boot.warmDue :=
  writes_of (exec_fwActivate c s) fun _ => ⟨_, activateWork_taken (s := takenState c s) hidle hc ha,
    ended_of_same (activated_host _ _), activated_names (given c s) (takenState c s)⟩

theorem adoptable_iff (s : State) (k : Nat) : adoptable s k = true ↔
    (tabGet {} s.boot.slots k).adoptFrom ≤ s.boot.running.stateFormat ∧ s.boot.running.stateFormat ≤ (tabGet {} s.boot.slots k).stateFormat := by
  simp only [adoptable, inRange, Bool.and_eq_true, decide_eq_true_eq]

/-- Settles O59: an activation that the image's check or the state formats refuse is rejected by the command's own work; one that passes both
names the slot and asks for the restart. -/
theorem warmActivationNeedsAnAdoptableState : Obligations.WarmActivationNeedsAnAdoptableState := by
  intro c s k v f hp hnow hidle
  refine ⟨fun h => ?_, fun hlo hhi hc => ?_⟩
  · refine rejects_of (exec_fwActivate c s) hp (activateWork_refused (s := takenState c s) hidle ?_)
    rcases h with hlt | hlt | hc
    · exact .inr ⟨hnow, Bool.eq_false_iff.mpr fun ha => Nat.not_le.mpr hlt ((adoptable_iff s k).mp ha).1⟩
    · exact .inr ⟨hnow, Bool.eq_false_iff.mpr fun ha => Nat.not_le.mpr hlt ((adoptable_iff s k).mp ha).2⟩
    · exact .inl hc
  · obtain ⟨t, ht, hans, hslot, -, hwarm⟩ := fwActivate_writes hidle hc (fun _ => (adoptable_iff s k).mpr ⟨hlo, hhi⟩) hp
    rw [if_pos hnow] at hwarm
    exact ⟨t, ht, hans, hwarm, hslot⟩

end

end Sys2Proof.Proofs
end

section
/-!
PROOFS. Program images (O51 in part): R185, R504 to R507.
-/

namespace Sys2Proof.Proofs

open Sys2Proof Sys2Proof.Machine Sys2Proof.Laws

theorem mem_maskBits {n m k : Nat} : k ∈ maskBits n m ↔ k < n ∧ bit m k = true := by
  rw [maskBits, List.mem_filter, List.mem_range]

/-- No pipeline of a mask has a property that none of its bits' pipelines has. -/
theorem maskBits_any_false {n m : Nat} {p : Nat → Bool} (h : ∀ k, bit m k = true → p k = false) : (maskBits n m).any p = false := by
  rw [List.any_eq_false]
  intro k hk hp
  rw [h k (mem_maskBits.mp hk).2] at hp
  cases hp

/-! ### IMAGE_VERIFY and IMAGE_APPLY (R504, R505) -/

section

variable {c : Cmd} {s : State} {b : Bytes}

theorem imageVerify_verified (hw : uploadWhole s 0 c.slot.val = .ok b) (hbad : imageBad s.tableProfile b = none)
    (hp : passes opImageVerify c s = true) : Completes (.imageVerify c) s fun t =>
      answered opImageVerify c .ok (toLe 4 (u32 b 12) ++ toLe 2 (imgSections b)) [] s t ∧ t.mat.staged = b ∧ (uploadOf t 0).claim = none ∧
      logged 0x0501 t := by
  have hw' : uploadWhole (takenState c s) 0 c.slot.val = .ok b := hw
  have hbad' : imageBad (takenState c s).tableProfile b = none := hbad
  have hkeeps := keeps_kiln 0x0501 [(4, u32 b 12)] (modMat (fun m => { m with staged := b }) (releaseUpload 0 (takenState c s)))
  obtain ⟨u, hu⟩ : ∃ u, kiln 0x0501 [(4, u32 b 12)] (modMat (fun m => { m with staged := b }) (releaseUpload 0 (takenState c s))) = u := ⟨_, rfl⟩
  have hlogged : logged 0x0501 u := hu ▸ kiln_head _ _ _
  rw [hu] at hkeeps
  have hmat : u.mat = _ := hkeeps.same .mat rfl
  have hhost : u.host = _ := hkeeps.same .host rfl
  refine answers_of (u := u) rfl hp ?_ (by rw [hhost]; rfl) ⟨by rw [endCommand_mat, hmat]; rfl, ?_, hlogged⟩
  · simp only [hw', hbad', ← hu]
  · have hclaim : uploadOf u 0 = {} := (uploadOf_of_host hhost 0).trans (uploadOf_releaseUpload 0 (takenState c s))
    exact congrArg Upload.claim hclaim

theorem imageApply_accepted (hidle : applyRuns s = false) (hstaged : s.mat.staged ≠ []) (hprofile : u8 s.mat.staged 6 = s.tableProfile)
    (hloss : bit (u8 (given c s) 8) 0 = true ∨ ∀ g, bit (u64 (given c s) 0) g = true → pipePortEnabled s g = false)
    (hp : passes opImageApply c s = true) : Completes (.imageApply c) s fun t =>
      answered opImageApply c .pending (toLe 2 (popcount 64 (u64 (given c s) 0))) [] s t ∧ t.mat.applying = s.mat.staged ∧
      t.mat.applyState = 1 ∧ t.mat.applyLeft = u64 (given c s) 0 ∧ t.mat.applied = 0 := by
  have hidle' : applyRuns (takenState c s) = false := hidle
  have hok : ((takenState c s).mat.staged.isEmpty || u8 (takenState c s).mat.staged 6 != (takenState c s).tableProfile ||
      (!bit (u8 (given c s) 8) 0 && (maskBits 64 (u64 (given c s) 0)).any (pipePortEnabled (takenState c s)))) = false := by
    have hempty : (takenState c s).mat.staged.isEmpty = false := List.isEmpty_eq_false_iff.mpr hstaged
    have hsame : (u8 (takenState c s).mat.staged 6 != (takenState c s).tableProfile) = false := bne_eq_false_iff_eq.mpr hprofile
    rw [hempty, hsame, Bool.false_or, Bool.false_or]
    rcases hloss with hl | hports
    · rw [hl]; rfl
    · have hany : (maskBits 64 (u64 (given c s) 0)).any (pipePortEnabled (takenState c s)) = false := maskBits_any_false hports
      rw [hany, Bool.and_false]
  refine answers_of (u := modMat (fun m => { m with
      applying := m.staged, applyState := 1, applyStatus := 0, applied := 0, applyLeft := u64 (given c s) 0,
      allowLoss := bit (u8 (given c s) 8) 0 }) (takenState c s)) rfl hp ?_ rfl ⟨rfl, rfl, rfl, rfl⟩
  simp only [hidle', hok, Bool.false_eq_true, if_false]

end

/-! ### A pipeline's load (R185) -/

section

variable (g : Nat) (s : State)

/-- What a load of stages leaves of the programs' state: all but the stages. -/
def matOuter (s : State) : MatState := { s.mat with stages := [] }

theorem matOuter_setStage (st : Nat) (v : MatStage) : matOuter (setStage g st v s) = matOuter s := rfl

theorem matOuter_keepGraph : matOuter (keepGraph g s) = matOuter s := congrArg (fun m : MatState => { m with stages := [] })
  ((keeps_keepGraph g s).same .mat rfl)

theorem matOuter_loadStages (b : Bytes) (l : List Nat) : matOuter (l.foldl (loadStage b g) s) = matOuter s :=
  foldl_keeps matOuter fun _ _ _ => rfl

theorem matOuter_clearStages (l : List Nat) :
    matOuter (l.foldl (fun s st => setStage g st (clearedStage (matStage s g st) {}) s) s) = matOuter s := foldl_keeps matOuter fun _ _ _ => rfl

variable {s} {t : State}

theorem matPipe_of_outer (h : matOuter t = matOuter s) (k : Nat) : matPipe t k = matPipe s k := by
  have hpipes : (matOuter t).pipes = (matOuter s).pipes := by rw [h]
  exact congrArg (fun m : Store MatPipe => tabGet {} m k) hpipes

end

section

variable (b : Bytes) (g : Nat) (s : State)

/-- `s` with the stages of pipeline `g` loaded, and the graph its parked frames began with kept. -/
def stagesLoaded : State := (List.range 24).foldl (loadStage b g) (keepGraph g s)

theorem matOuter_stagesLoaded : matOuter (stagesLoaded b g s) = matOuter s :=
  (matOuter_loadStages _ _ _ _).trans (matOuter_keepGraph _ _)

/-- What a load makes of its pipeline. -/
def pipeLoaded (p : MatPipe) : MatPipe := { p with imageId := u32 b 12, imageLoaded := true, imageHeld := false, retired := none, epoch := p.epoch + 1 }

theorem loadImage_mat : (loadImage b g s).mat =
    { (stagesLoaded b g s).mat with pipes := tabSet {} g (pipeLoaded b (matPipe (stagesLoaded b g s) g)) (stagesLoaded b g s).mat.pipes } := by
  have hloaded : (List.range 24).foldl (loadStage b g) (keepGraph g s) = stagesLoaded b g s := rfl
  unfold loadImage
  dsimp only
  rw [hloaded]
  generalize stagesLoaded b g s = u
  rfl

theorem matPipe_loadImage : matPipe (loadImage b g s) g = pipeLoaded b (matPipe s g) := by
  rw [matPipe, loadImage_mat]
  refine (tabGet_set _ _ _ _).trans ?_
  rw [matPipe_of_outer (matOuter_stagesLoaded b g s)]

/-- A load leaves how far the apply is. -/
theorem loadImage_apply : (loadImage b g s).mat.applied = s.mat.applied ∧ (loadImage b g s).mat.applyLeft = s.mat.applyLeft := by
  have houter := matOuter_stagesLoaded b g s
  have happlied : (matOuter (stagesLoaded b g s)).applied = (matOuter s).applied := by rw [houter]
  have hleft : (matOuter (stagesLoaded b g s)).applyLeft = (matOuter s).applyLeft := by rw [houter]
  rw [loadImage_mat]
  exact ⟨happlied, hleft⟩

end

section

variable (g : Nat) (s : State)

theorem stopAt_mat (st : Status) : (stopAt g st s).mat =
    { s.mat with applyState := 3, applyStatus := statusCode st, applying := [], applyStops := false } := (keeps_kiln _ _ _).same .mat rfl

/-- What follows a pipeline's load: its bit has moved from those left to those applied, and the pipelines stand. -/
theorem afterApply_moves : (afterApply g s).mat.pipes = s.mat.pipes ∧ (afterApply g s).mat.applied = s.mat.applied + 2 ^ g ∧
    (afterApply g s).mat.applyLeft = s.mat.applyLeft - 2 ^ g := by
  unfold afterApply
  dsimp only
  split
  · exact ⟨rfl, rfl, rfl⟩
  · split
    · rw [stopAt_mat]
      exact ⟨rfl, rfl, rfl⟩
    · exact ⟨rfl, rfl, rfl⟩

variable {g s}

/-- After the last pipeline's load the apply is done. -/
theorem afterApply_last (h : s.mat.applyLeft = 2 ^ g) : (afterApply g s).mat.applyState = 2 ∧ (afterApply g s).flt = s.flt := by
  have hleft : (s.mat.applyLeft - 2 ^ g == 0) = true := by rw [h, Nat.sub_self]; rfl
  simp only [afterApply, hleft, if_true]
  exact ⟨rfl, rfl⟩

end

section

variable {window : Fin 2001} {g : Nat} {rest : List Nat} {s : State} (hm : maskBits 64 s.mat.applyLeft = g :: rest) (hs : s.mat.applyState = 1)
  (hturn : (matPipe s g).imageHeld = true ∨ (icouxTakes s = true ∧ u8 s.mat.applying 6 = s.tableProfile ∧
    (s.mat.allowLoss = true ∨ pipePortEnabled s g = false))) (hparts : (matPipe s g).parts = []) (hstill : pipeStill s g = false)
include hm hs hturn hparts hstill

/-- A pipeline whose turn it is and that no batch holds back: it is held while frames stand inside it, and then loaded. -/
theorem exec_imagePipelineApply : exec (.imagePipelineApply window) s =
    if framesInside s g then .next (setMatPipe g { matPipe s g with imageHeld := true } s)
    else .next (afterApply g (kiln 0x0530 [(1, g), (4, u32 s.mat.applying 12), (4, window.val)] (loadImage s.mat.applying g s))) := by
  have hstate : (s.mat.applyState != 1 || (!(matPipe s g).imageHeld && !icouxTakes s)) = false := by
    rw [hs]
    rcases hturn with hh | ⟨htakes, -⟩
    · rw [hh]; rfl
    · rw [htakes, Bool.not_true, Bool.and_false]; rfl
  have hchecked : (!(matPipe s g).imageHeld && (u8 s.mat.applying 6 != s.tableProfile || (!s.mat.allowLoss && pipePortEnabled s g))) = false := by
    rcases hturn with hh | ⟨-, hprofile, hports⟩
    · rw [hh]; rfl
    · rw [bne_eq_false_iff_eq.mpr hprofile, Bool.false_or]
      rcases hports with hl | hp
      · rw [hl, Bool.not_true, Bool.false_and, Bool.and_false]
      · rw [hp, Bool.and_false, Bool.and_false]
  have hready : (!(matPipe s g).parts.isEmpty || pipeStill s g) = false := by rw [hparts, hstill]; rfl
  change execImagePipelineApply window s = _
  simp only [execImagePipelineApply, hm, hstate, hchecked, hready, Bool.false_eq_true, if_false]

theorem imagePipelineApply_holds (hf : framesInside s g = true) : Completes (.imagePipelineApply window) s fun t =>
    (matPipe t g).imageHeld = true ∧ t.mat.applyLeft = s.mat.applyLeft := by
  refine ⟨_, (exec_imagePipelineApply hm hs hturn hparts hstill).trans (if_pos hf), ?_, rfl⟩
  have hpipe : matPipe (setMatPipe g { matPipe s g with imageHeld := true } s) g = { matPipe s g with imageHeld := true } := tabGet_set _ _ _ _
  exact congrArg MatPipe.imageHeld hpipe

theorem imagePipelineApply_loads (hf : framesInside s g = false) : Completes (.imagePipelineApply window) s fun t =>
    (matPipe t g).imageId = u32 s.mat.applying 12 ∧ (matPipe t g).imageLoaded = true ∧ (matPipe t g).imageHeld = false ∧
    (matPipe t g).epoch = (matPipe s g).epoch + 1 ∧ t.mat.applied = s.mat.applied + 2 ^ g ∧ t.mat.applyLeft = s.mat.applyLeft - 2 ^ g ∧
    (s.mat.applyLeft = 2 ^ g → t.mat.applyState = 2 ∧ logged 0x0530 t) := by
  have hexec := (exec_imagePipelineApply (window := window) hm hs hturn hparts hstill).trans (if_neg (by rw [hf]; decide))
  have hpipe := matPipe_loadImage s.mat.applying g s
  obtain ⟨happlied, hleft⟩ := loadImage_apply s.mat.applying g s
  obtain ⟨u, hu⟩ : ∃ u, kiln 0x0530 [(1, g), (4, u32 s.mat.applying 12), (4, window.val)] (loadImage s.mat.applying g s) = u := ⟨_, rfl⟩
  have hmat : u.mat = (loadImage s.mat.applying g s).mat := hu ▸ (keeps_kiln _ _ _).same .mat rfl
  have hlogged : logged 0x0530 u := hu ▸ kiln_head _ _ _
  rw [hu] at hexec
  obtain ⟨hpipes, hdone, hrest⟩ := afterApply_moves g u
  have hfinal : matPipe (afterApply g u) g = pipeLoaded s.mat.applying (matPipe s g) := by
    rw [← hpipe, matPipe, hpipes, hmat, matPipe]
  refine ⟨_, hexec, ?_⟩
  dsimp only
  rw [hfinal, hdone, hrest, hmat, happlied, hleft]
  refine ⟨rfl, rfl, rfl, rfl, rfl, rfl, fun h => ?_⟩
  obtain ⟨hstate, hflt⟩ := afterApply_last (g := g) (s := u) (by rw [hmat, hleft, h])
  exact ⟨hstate, by rw [logged, hflt]; exact hlogged⟩

end

end Sys2Proof.Proofs
end

section
/-!
PROOFS. IMAGE_UNLOAD and IMAGE_STATUS (R506, R507), and uploads, images and firmware together (O51).
-/

namespace Sys2Proof.Proofs

open Sys2Proof Sys2Proof.Machine Sys2Proof.Laws

/-! ### IMAGE_UNLOAD (R506) -/

section

variable (g : Nat) (s : State)

/-- What an unload makes of its pipeline. -/
def pipeUnloaded (p : MatPipe) : MatPipe := { p with imageId := 0, imageLoaded := false, retired := none }

/-- `s` with the stages of pipeline `g` cleared, and the graph its parked frames began with kept. -/
def stagesCleared : State := (List.range 24).foldl (fun s st => setStage g st (clearedStage (matStage s g st) {}) s) (keepGraph g s)

theorem matOuter_stagesCleared : matOuter (stagesCleared g s) = matOuter s :=
  (matOuter_clearStages _ _ _).trans (matOuter_keepGraph _ _)

/-- What remains of an unload once the stages are cleared. -/
def programCleared (g : Nat) (u : State) : State :=
  setMatPipe g (pipeUnloaded (matPipe u g)) (setParserPipe g { parserPipe u g with graph := {} } u)

theorem unloadPipe_eq : unloadPipe g s = programCleared g (stagesCleared g s) := rfl

theorem programCleared_mat (u : State) :
    (programCleared g u).mat = { u.mat with pipes := tabSet {} g (pipeUnloaded (matPipe u g)) u.mat.pipes } := rfl

theorem matPipe_unloadPipe : matPipe (unloadPipe g s) g = pipeUnloaded (matPipe s g) := by
  rw [unloadPipe_eq, matPipe, programCleared_mat]
  refine (tabGet_set _ _ _ _).trans ?_
  rw [matPipe_of_outer (matOuter_stagesCleared g s)]

theorem matPipe_unloadPipe_ne {k : Nat} (h : k ≠ g) : matPipe (unloadPipe g s) k = matPipe s k := by
  rw [unloadPipe_eq, matPipe, programCleared_mat]
  exact (tabGet_set_ne _ _ h).trans (matPipe_of_outer (matOuter_stagesCleared g s) k)

end

theorem forMask_unload_host (m : Nat) (s : State) : (forMask 64 m unloadPipe s).host = s.host :=
  foldl_keeps (fun s : State => s.host) fun s g _ => (keeps_unloadPipe g s).same .host rfl

section

variable {c : Cmd} {s : State}

/-- The own work of IMAGE_UNLOAD. -/
def unloadWork (p : Bytes) (s : State) : CmdResult :=
  if applyRuns s then badAll .busy
  else if (maskBits 64 (u64 p 0)).any (pipePortEnabled s) then badAll .state
  else okWrite (forMask 64 (u64 p 0) unloadPipe s)

theorem exec_imageUnload_idle (h : unloadWaits c s = false) :
    exec (.imageUnload c) s = .next (icoux opImageUnload c (fun _ => unloadWork) s) := if_neg (by rw [h]; decide)

theorem imageUnload_writes (hidle : applyRuns s = false)
    (hclear : ∀ g, bit (u64 (given c s) 0) g = true → framesInside s g = false ∧ pipePortEnabled s g = false) :
    Writes opImageUnload c (.imageUnload c) s fun t => ∀ g, g < 64 → bit (u64 (given c s) 0) g = true → (matPipe t g).imageId = 0 ∧
      (matPipe t g).imageLoaded = false := by
  have hinside : (maskBits 64 (u64 (given c s) 0)).any (framesInside s) = false := maskBits_any_false fun k hk => (hclear k hk).1
  have hports : (maskBits 64 (u64 (given c s) 0)).any (pipePortEnabled (takenState c s)) = false := maskBits_any_false fun k hk => (hclear k hk).2
  have hidle' : applyRuns (takenState c s) = false := hidle
  have hwaits : unloadWaits c s = false := by
    unfold unloadWaits
    dsimp only
    rw [show (maskBits 64 (u64 (payloadOf (effectiveCmd c s)) 0)).any (framesInside s) = false from hinside, Bool.and_false]
  refine writes_of (exec_imageUnload_idle hwaits) fun _ => ⟨forMask 64 (u64 (given c s) 0) unloadPipe (takenState c s), ?_,
    ended_of_same (forMask_unload_host _ _), fun g hg hb => ?_⟩
  · simp only [unloadWork, hidle', hports, Bool.false_eq_true, if_false]
    rfl
  · have hpipe : matPipe (forMask 64 (u64 (given c s) 0) unloadPipe (takenState c s)) g = pipeUnloaded (matPipe (takenState c s) g) :=
      (forMask_places (read := matPipe) (fun s k => matPipe_unloadPipe k s) (fun s k _ h => matPipe_unloadPipe_ne k s h) _ _ _ g).trans
        (if_pos ⟨hg, hb⟩)
    exact ⟨congrArg MatPipe.imageId hpipe, congrArg MatPipe.imageLoaded hpipe⟩

end

/-- Settles O51. That a claim ends once the checks of the buffer pass is assumption 136, and that an apply waits until its pipeline has drained
is assumption 139: the model's choices. -/
theorem uploadsImagesAndFirmwareApply : Obligations.UploadsImagesAndFirmwareApply := by
  refine ⟨fun c s => ?_, fun c window b g rest s => ?_, fun c b k v s => ?_⟩
  · exact ⟨fun hidle ho => uploadBegin_writes rfl hidle ho, fun ho => uploadBegin_writes rfl rfl ho, fun hidle ho => uploadBegin_writes rfl hidle ho,
      fun ho => uploadChunk_writes rfl ho, fun ho => uploadChunk_writes rfl ho, fun ho => uploadChunk_writes rfl ho⟩
  · exact ⟨imageVerify_verified, fun hidle hstaged hprofile hloss hp => imageApply_accepted hidle hstaged hprofile hloss hp,
      fun hm hs hturn hparts hstill => ⟨imagePipelineApply_holds hm hs hturn hparts hstill, imagePipelineApply_loads hm hs hturn hparts hstill⟩,
      fun hidle hclear => imageUnload_writes hidle hclear, reads_of rfl fun _ => rfl⟩
  · exact ⟨fun hw hbad => ⟨fun he hp => sigSetCommit_done hw hbad he hp, fun e l he => sigSetCommit_starts hw hbad he⟩,
      fun hw hidle hbad hp => fwCommit_pending hw hidle hbad hp, fun hw => ⟨fwWritten_written hw, fwWritten_failed hw⟩,
      fun hidle hc ha => fwActivate_writes hidle hc ha, reads_of rfl fun _ => rfl⟩

end Sys2Proof.Proofs
end

section
/-!
PROOFS. Every source of reset leaves the same state (O52): R417, R510, R523 to R525, R531, R540, R541.
-/

namespace Sys2Proof.Proofs

open Sys2Proof Sys2Proof.Machine Sys2Proof.Laws

/-! ### What a reset keeps -/

section

variable {s u t : State}

/-- What is reset from a state that has the same kiln log, flash, fuses and queue is reset from this one. -/
theorem resetFrom_of (h : resetFrom u t) (hkiln : u.flt.kiln = s.flt.kiln) (hslots : u.boot.slots = s.boot.slots)
    (hfuse : u.boot.securityMin = s.boot.securityMin) (hpending : u.pending = s.pending) (hnow : s.now ≤ u.now) : resetFrom s t := by
  unfold resetFrom at h ⊢
  rw [hkiln, hslots, hfuse, hpending] at h
  obtain ⟨h1, h2, h3, h4, h5, h6, h7, h8, h9, h10, h11, h12, h13, h14, h15, h16, h17, h18, h19, h20, h21, h22, h23, h24, hle⟩ := h
  exact ⟨h1, h2, h3, h4, h5, h6, h7, h8, h9, h10, h11, h12, h13, h14, h15, h16, h17, h18, h19, h20, h21, h22, h23, h24, hnow.trans hle⟩

theorem resetFrom_keptState (s : State) : resetFrom s (keptState s) :=
  ⟨rfl, rfl, rfl, rfl, rfl, rfl, rfl, rfl, rfl, rfl, rfl, rfl, rfl, rfl, rfl, rfl, rfl, rfl, rfl, rfl, rfl, rfl, rfl, rfl, le_rfl⟩

theorem resetFrom_deviceReset (cause : Nat) (s : State) : resetFrom s (deviceReset cause s) :=
  ⟨rfl, rfl, rfl, rfl, rfl, rfl, rfl, rfl, rfl, rfl, rfl, rfl, rfl, rfl, rfl, rfl, rfl, rfl, rfl, rfl, rfl, rfl, rfl, rfl, le_rfl⟩

theorem resetFrom_reach {a : Nat} (h : resetFrom (reach a s) t) : resetFrom s t := resetFrom_of h rfl rfl rfl rfl (Nat.le_max_left _ _)

end

/-! ### RESET_N (R417, R524, R525, R541) -/

section

variable {cool cut : Bool} {s t : State}

/-- The boot state as an assertion of RESET_N finds it: low from now on, with its cause. -/
def assertedBoot (s : State) : BootState :=
  { s.boot with
    resetLow := true, resetLowSince := s.now
    cause := if !s.boot.powered then s.boot.cause else if s.boot.tripRecord.isSome then 4 else 1 }

/-- The state that an assertion of RESET_N holds in reset. -/
def asserted (cut : Bool) (s : State) : State := { s with boot := if cut then cutArea (assertedBoot s) else assertedBoot s }

theorem exec_resetNAssert (h : s.boot.resetLow = false) : exec (.resetNAssert cool cut) s = .next (releaseTrip cool (keptState (asserted cut s))) :=
  if_neg (by rw [h]; decide)

/-- A cut write of the data area changes of the boot state the data area alone. -/
theorem asserted_boot (cut : Bool) (s : State) : ∃ a, (asserted cut s).boot = { assertedBoot s with dataArea := a } ∧
    (cut = false → a = s.boot.dataArea) := by
  cases cut with
  | false => exact ⟨s.boot.dataArea, rfl, fun _ => rfl⟩
  | true => exact ⟨(cutArea (assertedBoot s)).dataArea, rfl, nofun⟩

theorem resetFrom_asserted (cut : Bool) (s : State) : resetFrom s (keptState (asserted cut s)) := by
  obtain ⟨a, hboot, -⟩ := asserted_boot cut s
  exact resetFrom_of (resetFrom_keptState (asserted cut s)) rfl (by rw [hboot]; rfl) (by rw [hboot]; rfl) rfl le_rfl

/-- The thermal latch's release changes the latch alone. -/
theorem releaseTrip_boot (cool : Bool) (t : State) : ∃ b, (releaseTrip cool t).boot = { t.boot with tripped := b } := by
  unfold releaseTrip
  split
  · exact ⟨false, rfl⟩
  · exact ⟨t.boot.tripped, rfl⟩

theorem resetFrom_releaseTrip (h : resetFrom s t) : resetFrom s (releaseTrip cool t) := by
  unfold releaseTrip
  split
  · exact h
  · exact h

theorem resetNAssert_completes (h : s.boot.resetLow = false) : Completes (.resetNAssert cool cut) s fun t => resetFrom s t ∧
    t.boot.resetLow = true ∧ t.boot.resetLowSince = s.now ∧
    (s.boot.powered = true → t.boot.cause = if s.boot.tripRecord.isSome then 4 else 1) ∧ (cut = false → t.boot.dataArea = s.boot.dataArea) := by
  obtain ⟨a, hboot, harea⟩ := asserted_boot cut s
  obtain ⟨b, hfinal⟩ := releaseTrip_boot cool (keptState (asserted cut s))
  refine ⟨_, exec_resetNAssert h, resetFrom_releaseTrip (resetFrom_asserted cut s), ?_⟩
  rw [hfinal]
  change (asserted cut s).boot.resetLow = true ∧ (asserted cut s).boot.resetLowSince = s.now ∧
    (s.boot.powered = true → (asserted cut s).boot.cause = if s.boot.tripRecord.isSome then 4 else 1) ∧
    (cut = false → (asserted cut s).boot.dataArea = s.boot.dataArea)
  rw [hboot]
  refine ⟨rfl, rfl, fun hp => ?_, harea⟩
  change (if !s.boot.powered then s.boot.cause else if s.boot.tripRecord.isSome then 4 else 1) = _
  rw [hp]
  rfl

theorem resetNDeassert_completes {strap : Fin 4} (hl : s.boot.resetLow = true) (hp : s.boot.powered = true) :
    Completes (.resetNDeassert strap) s fun t => t.boot.resetLow = false ∧ t.boot.strap = strap.val ∧ t.boot.stage = .bisque ∧
      s.boot.resetLowSince + 10 * tUs ≤ t.now ∧ t.boot.t0 = t.now :=
  ⟨_, if_neg (by rw [hl, hp]; decide), rfl, rfl, rfl, le_reach_now _ s, rfl⟩

end

/-! ### Power-on (R523, R554) -/

section

variable {s : State}

theorem powerOn_kept (h : s.boot.resetLow = true) : Completes (.powerOn none) s fun t => t.boot.cause = 0 ∧ t.boot.tripRecord = none ∧
    t.boot.powered = true ∧ t.flt.kiln = [] ∧ t.boot.slots = s.boot.slots ∧ t.host = State.reset.host :=
  ⟨_, if_neg (by rw [h]; decide), rfl, rfl, rfl, rfl, rfl, rfl⟩

theorem powerOn_programmed (flash : FlashIn) (h : s.boot.resetLow = true) : Completes (.powerOn (some flash)) s fun t => t.boot.cause = 0 ∧
    t.flt.kiln = [] ∧ tabGet {} t.boot.slots 0 = flash.slot0 ∧ tabGet {} t.boot.slots 1 = flash.slot1 ∧ t.boot.dataArea.validA = flash.copyA ∧
    t.boot.dataArea.validB = flash.copyB :=
  ⟨_, if_neg (by rw [h]; decide), rfl, rfl, tabGet_set _ _ _ _, (tabGet_set_ne _ _ (by decide)).trans (tabGet_set _ _ _ _), rfl, rfl⟩

end

/-! ### The software reset (R510, R540) -/

section

variable {c : Cmd} {s : State}

theorem saveData_host (s : State) : (saveData s).host = s.host := rfl

theorem deviceReset_writes : Writes opDeviceReset c (.deviceReset c) s fun t => t.boot.resetAt = some (s.now + 10 * tMs) ∧
    t.boot.dataArea.heat = s.pow.heat ∧ t.boot.dataArea.ages = s.pow.ages := by
  obtain ⟨u, hu⟩ : ∃ u, kiln 0x0F04 [(1, c.slot.val)] (modBoot (fun b => { b with resetAt := some ((takenState c s).now + 10 * tMs) })
    (takenState c s)) = u := ⟨_, rfl⟩
  have hkeeps := hu ▸ keeps_kiln 0x0F04 [(1, c.slot.val)] (modBoot (fun b => { b with resetAt := some ((takenState c s).now + 10 * tMs) })
    (takenState c s))
  have hboot : u.boot = _ := hkeeps.same .boot rfl
  have hpow : u.pow = s.pow := hkeeps.same .pow rfl
  have hhost : u.host = (takenState c s).host := hkeeps.same .host rfl
  refine writes_of rfl fun _ => ⟨saveData u, by rw [← hu]; rfl, ended_of_same hhost, ?_, ?_, ?_⟩
  · have hreset : u.boot.resetAt = some (s.now + 10 * tMs) := by rw [hboot]; rfl
    exact hreset
  · exact congrArg PowerState.heat hpow
  · exact congrArg PowerState.ages hpow

theorem softwareReset_completes {a : Nat} (h : s.boot.resetAt = some a) : Completes .softwareReset s fun t => resetFrom s t ∧ t.boot.cause = 3 ∧
    t.boot.resetLow = false ∧ a ≤ t.now := by
  have hexec : exec .softwareReset s = .next (deviceReset 3 (reach a s)) := by
    change execSoftwareReset s = _
    simp only [execSoftwareReset, h]
  exact ⟨_, hexec, resetFrom_reach (resetFrom_deviceReset 3 _), rfl, rfl, le_reach_now a s⟩

end

/-- Settles O52. -/
theorem resetLeavesTheResetState : Obligations.ResetLeavesTheResetState :=
  fun _ _ _ _ _ _ => ⟨resetNAssert_completes, resetNDeassert_completes, powerOn_kept, powerOn_programmed _, deviceReset_writes,
    fun _ => softwareReset_completes⟩

end Sys2Proof.Proofs
end

section
/-!
PROOFS. Warm restarts (O54): R510, R521, R537 to R539, R541.
-/

namespace Sys2Proof.Proofs

open Sys2Proof Sys2Proof.Machine Sys2Proof.Laws

/-! ### What a warm restart ends -/

theorem timeoutRunning_eq (s : State) : timeoutRunning s = endTask (s.host.running.map Running.id) .timeout s := rfl

theorem timeoutRunning_running (s : State) : (timeoutRunning s).host.running = [] := by
  rw [List.eq_nil_iff_forall_not_mem]
  intro r hr
  rw [timeoutRunning_eq] at hr
  obtain ⟨hin, hid⟩ := endTask_running r hr
  exact hid (List.mem_map_of_mem hin)

/-- What a filtered table reads passes the filter, or is not listed. -/
theorem tabFind_filter_holds {α : Type} {p : Nat × α → Bool} {k : Nat} {v : α} (m : Store α) (h : tabFind (m.filter p) k = some v) :
    p (k, v) = true := by
  induction m with
  | nil => cases h
  | cons e m ih =>
    obtain ⟨j, w⟩ := e
    cases hp : p (j, w) with
    | false =>
      rw [List.filter_cons_of_neg (by simpa using hp)] at h
      exact ih h
    | true =>
      rw [List.filter_cons_of_pos hp, tabFind] at h
      split at h
      · next hj =>
        cases h
        rw [← beq_iff_eq.mp hj]
        exact hp
      · exact ih h

/-- Without the uploads that are claimed, none is. -/
theorem dropUploads_claims (s : State) (k : Nat) : (uploadOf (dropUploads (·.isSome) s) k).claim = none := by
  rw [uploadOf, tabGet]
  cases h : tabFind (dropUploads (·.isSome) s).host.uploads k with
  | none => rfl
  | some v =>
    have hkept := tabFind_filter_holds s.host.uploads h
    simpa using hkept

theorem stopApply_openBatch (s : State) : (stopApply s).mat.openBatch = s.mat.openBatch := by
  unfold stopApply
  split
  · rfl
  · split
    · rfl
    · rw [kiln_mat]
      rfl

theorem abandonBuilds_openBatch (s : State) : (abandonBuilds s).mat.openBatch = s.mat.openBatch :=
  foldl_keeps (fun s : State => s.mat.openBatch) fun _ _ _ => by rw [kiln_mat]; rfl

theorem abandonWrite_boot (s : State) : ∃ u, (abandonWrite s).boot = { s.boot with update := u } := by
  unfold abandonWrite
  split
  · exact ⟨_, rfl⟩
  · exact ⟨_, rfl⟩

/-! ### The start (R510, R538, R539) -/

section

variable (cause target : Nat) (s : State)

/-- The warm restarts of the last 60 s. -/
def recentWarm : List Nat := s.boot.warmTimes.filter fun t => s.now ≤ t + 60 * tSec

/-- `s` in stage WARM_RESTART, its running commands ended and its data area saved. -/
def warmBegun : State :=
  saveData (timeoutRunning (abandonRaise (kiln 0x0F16 [(1, cause), (1, target)]
    (modBoot (fun b => { b with stage := .warmRestart, capsReady := false, warmDue := none, warmBegan := s.now,
                                warmTarget := target, warmTimes := s.now :: recentWarm s }) s))))

/-- `s` with its claims, batches, applies, builds and writes over. -/
def claimsOver (s : State) : State :=
  abandonWrite (abandonBuilds (stopApply (dropUploads (·.isSome) (modMat (fun m => { m with openBatch := [] }) s))))

variable {cause target s}

theorem warmStart_begins (h : (recentWarm s).length < 2) : warmStart cause target s = endTestMode (claimsOver (warmBegun cause target s)) :=
  if_neg (by
    change ¬ (recentWarm s).length + 1 ≥ 3
    omega)

theorem warmStart_resets (h : 2 ≤ (recentWarm s).length) : warmStart cause target s = deviceReset 5 s :=
  if_pos (by
    change (recentWarm s).length + 1 ≥ 3
    omega)

theorem saveData_boot (s : State) : ∃ a o, (saveData s).boot = { s.boot with dataArea := a, otherArea := o } := ⟨_, _, rfl⟩

theorem warmBegun_boot : ∃ a o, (warmBegun cause target s).boot = { s.boot with
    stage := .warmRestart, capsReady := false, warmDue := none, warmBegan := s.now, warmTarget := target, warmTimes := s.now :: recentWarm s
    dataArea := a, otherArea := o } := by
  obtain ⟨u, hu⟩ : ∃ u, modBoot (fun b => { b with stage := .warmRestart, capsReady := false, warmDue := none, warmBegan := s.now,
                                                   warmTarget := target, warmTimes := s.now :: recentWarm s }) s = u := ⟨_, rfl⟩
  have hkept : (timeoutRunning (abandonRaise (kiln 0x0F16 [(1, cause), (1, target)] u))).boot = u.boot :=
    ((keeps_timeoutRunning _).same .boot rfl).trans (((keeps_abandonRaise _).same .boot rfl).trans (kiln_boot _ _ _))
  obtain ⟨a, o, hsaved⟩ := saveData_boot (timeoutRunning (abandonRaise (kiln 0x0F16 [(1, cause), (1, target)] u)))
  exact ⟨a, o, by rw [warmBegun, hu, hsaved, hkept, ← hu]; rfl⟩

theorem warmBegun_running : (warmBegun cause target s).host.running = [] := timeoutRunning_running _

theorem claimsOver_boot (s : State) : ∃ u, (claimsOver s).boot = { s.boot with update := u } := by
  obtain ⟨v, hv⟩ : ∃ v, dropUploads (·.isSome) (modMat (fun m => { m with openBatch := [] }) s) = v := ⟨_, rfl⟩
  have hboot : (abandonBuilds (stopApply v)).boot = v.boot := ((keeps_abandonBuilds _).same .boot rfl).trans ((keeps_stopApply _).same .boot rfl)
  obtain ⟨u, hu⟩ := abandonWrite_boot (abandonBuilds (stopApply v))
  exact ⟨u, by rw [claimsOver, hv, hu, hboot, ← hv]; rfl⟩

theorem claimsOver_host (s : State) : (claimsOver s).host = (dropUploads (·.isSome) (modMat (fun m => { m with openBatch := [] }) s)).host :=
  ((keeps_abandonWrite _).same .host rfl).trans (((keeps_abandonBuilds _).same .host rfl).trans ((keeps_stopApply _).same .host rfl))

theorem claimsOver_openBatch (s : State) : (claimsOver s).mat.openBatch = [] := by
  have hmat : (claimsOver s).mat = _ := (keeps_abandonWrite _).same .mat rfl
  rw [hmat, abandonBuilds_openBatch, stopApply_openBatch]
  rfl

/-- What a warm restart leaves: the datapath's frames, buffer and schedulers. -/
theorem warmBegun_keeps : Keeps [.time, .flt, .host, .boot] s (warmBegun cause target s) :=
  .step (.step (.step (.step (keeps_modBoot _ (.refl _ _) rfl (by decide)) (keeps_kiln _ _ _) (by decide)) (keeps_abandonRaise _) (by decide))
    (keeps_timeoutRunning _) (by decide)) (keeps_saveData _) (by decide)

theorem claimsOver_keeps (s : State) : Keeps [.flt, .host, .boot, .mat] s (claimsOver s) :=
  .step (.step (.step (.step (keeps_modMat _ (.refl _ _) (by decide)) (keeps_dropUploads _ _) (by decide)) (keeps_stopApply _) (by decide))
    (keeps_abandonBuilds _) (by decide)) (keeps_abandonWrite _) (by decide)

theorem warmStart_keeps (h : (recentWarm s).length < 2) : Keeps [.time, .flt, .host, .boot, .mat] s (warmStart cause target s) := by
  rw [warmStart_begins h]
  exact .step (.step (warmBegun_keeps.mono (by decide)) (claimsOver_keeps _) (by decide)) (keeps_endTestMode _) (by decide)

/-- What a warm restart's start ends. -/
theorem warmStart_ends (h : (recentWarm s).length < 2) : (warmStart cause target s).boot.stage = .warmRestart ∧
    (warmStart cause target s).boot.warmTarget = target ∧ (warmStart cause target s).boot.warmDue = none ∧
    (warmStart cause target s).boot.capsReady = false ∧ (warmStart cause target s).host.running = [] ∧
    (warmStart cause target s).mat.openBatch = [] ∧ ∀ k, (uploadOf (warmStart cause target s) k).claim = none := by
  rw [warmStart_begins h]
  obtain ⟨a, o, hbegun⟩ := warmBegun_boot (cause := cause) (target := target) (s := s)
  have hrunning := warmBegun_running (cause := cause) (target := target) (s := s)
  obtain ⟨v, hv⟩ : ∃ v, warmBegun cause target s = v := ⟨_, rfl⟩
  rw [hv] at hbegun hrunning ⊢
  obtain ⟨u, hover⟩ := claimsOver_boot v
  have hends := keeps_endTestMode (claimsOver v)
  have hboot : (endTestMode (claimsOver v)).boot = _ := hends.same .boot rfl
  have hhost : (endTestMode (claimsOver v)).host = _ := (hends.same .host rfl).trans (claimsOver_host v)
  have hmat : (endTestMode (claimsOver v)).mat = _ := hends.same .mat rfl
  rw [hboot, hover, hbegun]
  refine ⟨rfl, rfl, rfl, rfl, ?_, ?_, fun k => ?_⟩
  · rw [hhost]
    exact hrunning
  · rw [hmat]
    exact claimsOver_openBatch v
  · rw [uploadOf_of_host hhost]
    exact dropUploads_claims _ k

variable (hdue : s.boot.warmDue = some (cause, target)) (hready : s.boot.stage = .ready) (hwaits : cause = 2 → activateWaits s = false)
include hdue hready hwaits

theorem exec_warmRestartStart : exec .warmRestartStart s = .next (warmStart cause target s) := by
  have hstage : (s.boot.stage != .ready && s.boot.stage != .warmRestart) = false := by rw [hready]; rfl
  have hgo : (cause == 2 && activateWaits s) = false := by
    by_cases hc : cause = 2
    · rw [hwaits hc, Bool.and_false]
    · rw [beq_eq_false_iff_ne.mpr hc, Bool.false_and]
  change execWarmRestartStart s = _
  simp only [execWarmRestartStart, hdue, hstage, hgo, Bool.false_eq_true, if_false]

theorem warmRestartStart_begins (h : (recentWarm s).length < 2) : Completes .warmRestartStart s fun t => t.boot.stage = .warmRestart ∧
    t.boot.warmTarget = target ∧ t.boot.warmDue = none ∧ t.boot.capsReady = false ∧ t.host.running = [] ∧ t.mat.openBatch = [] ∧
    (∀ k, (uploadOf t k).claim = none) ∧ t.fr = s.fr ∧ t.buf = s.buf ∧ t.sch = s.sch := by
  have hexec := exec_warmRestartStart hdue hready hwaits
  obtain ⟨hstage, htarget, hnone, hcaps, hrunning, hbatch, hclaims⟩ := warmStart_ends (cause := cause) (target := target) h
  have hkeeps := warmStart_keeps (cause := cause) (target := target) h
  exact ⟨_, hexec, hstage, htarget, hnone, hcaps, hrunning, hbatch, hclaims, hkeeps.same .fr rfl, hkeeps.same .buf rfl, hkeeps.same .sch rfl⟩

theorem warmRestartStart_resets (h : 2 ≤ (recentWarm s).length) : Completes .warmRestartStart s fun t => resetFrom s t ∧ t.boot.cause = 5 :=
  ⟨_, (exec_warmRestartStart hdue hready hwaits).trans (congrArg _ (warmStart_resets h)), resetFrom_deviceReset 5 s, rfl⟩

end

/-! ### The end (R538) -/

theorem confirmSlot_kept (s : State) : (confirmSlot s).boot.slot = s.boot.slot ∧ (confirmSlot s).boot.capsReady = s.boot.capsReady := by
  unfold confirmSlot
  dsimp only
  split
  · rw [kiln_boot]
    exact ⟨rfl, rfl⟩
  · exact ⟨rfl, rfl⟩

theorem raiseMinimum_kept (s : State) : (raiseMinimum s).boot.slot = s.boot.slot ∧ (raiseMinimum s).boot.capsReady = s.boot.capsReady ∧
    (raiseMinimum s).boot.dataArea = s.boot.dataArea := by
  unfold raiseMinimum
  dsimp only
  split
  · rw [kiln_boot]
    exact ⟨rfl, rfl, rfl⟩
  · exact ⟨rfl, rfl, rfl⟩

/-- READY runs the slot chosen and publishes the capability list. -/
theorem readied_slot (u : State) : (readied u).boot.slot = u.boot.slot ∧ (readied u).boot.capsReady = true := by
  obtain ⟨hslot, hcaps, -⟩ := raiseMinimum_kept (confirmSlot (becomeReady u))
  obtain ⟨hslot', hcaps'⟩ := confirmSlot_kept (becomeReady u)
  exact ⟨hslot.trans hslot', hcaps.trans hcaps'⟩

theorem keeps_readied (u : State) : Keeps [.flt, .boot, .fuse] u (readied u) :=
  .step (.step ((keeps_becomeReady u).mono (by decide)) (keeps_confirmSlot _) (by decide)) (keeps_raiseMinimum _) (by decide)

section

variable {f0 f1 : Bool} {s : State} (hstage : s.boot.stage = .warmRestart) (hdue : s.boot.warmDue = none)
include hstage hdue

theorem warmRestartDone_runs {k : Nat} (hk : warmSlot f0 f1 s = some k) : Completes (.warmRestartDone f0 f1 true) s fun t =>
    t.boot.stage = .ready ∧ t.boot.slot = k ∧ t.boot.capsReady = true ∧ t.boot.running = tabGet {} s.boot.slots k ∧ t.fr = s.fr := by
  obtain ⟨u, hkeeps, hboot, hexec⟩ := exec_warmRestartDone hstage hdue hk
  obtain ⟨hslot, hcaps⟩ := readied_slot u
  exact ⟨_, hexec, readied_stage u, by rw [hslot, hboot], hcaps, by rw [readied_running, hboot],
    ((keeps_readied u).same .fr rfl).trans (hkeeps.same .fr rfl)⟩

theorem warmRestartDone_resets {ok : Bool} (h : warmSlot f0 f1 s = none ∨ ok = false) :
    Completes (.warmRestartDone f0 f1 ok) s fun t => resetFrom s t ∧ t.boot.cause = 5 := by
  have hgo : (s.boot.stage != .warmRestart || s.boot.warmDue.isSome) = false := by rw [hstage, hdue]; rfl
  have hexec : exec (.warmRestartDone f0 f1 ok) s = .next (deviceReset 5 s) := by
    change execWarmRestartDone f0 f1 ok s = _
    cases hw : warmSlot f0 f1 s with
    | none => simp only [execWarmRestartDone, hgo, hw, Bool.false_eq_true, if_false]
    | some k =>
      obtain rfl := h.resolve_left (by rw [hw]; nofun)
      simp only [execWarmRestartDone, hgo, hw, Bool.false_eq_true, if_false, Bool.not_false, if_true]
  exact ⟨_, hexec, resetFrom_deviceReset 5 s, rfl⟩

end

/-- Settles O54: the start ends what runs and keeps the frames, the buffer and the schedulers; the third within 60 s, and an end without a slot
or a saved state, is a reset. -/
theorem warmRestartsKeepTheDatapath : Obligations.WarmRestartsKeepTheDatapath :=
  fun _ _ _ _ _ _ => ⟨fun hdue hready hwaits => ⟨warmRestartStart_begins hdue hready hwaits, warmRestartStart_resets hdue hready hwaits⟩,
    fun hstage hdue => ⟨fun _ hk => warmRestartDone_runs hstage hdue hk, fun hnone => warmRestartDone_resets hstage hdue (.inl hnone),
      warmRestartDone_resets hstage hdue (.inr rfl)⟩⟩

end Sys2Proof.Proofs
end

section
/-!
PROOFS. Start-up (O53): R530 to R536.
-/

namespace Sys2Proof.Proofs

open Sys2Proof Sys2Proof.Machine Sys2Proof.Laws

/-! ### The bisque stage (R532, R533) -/

section

variable {s : State}

/-- A failed start: its code, and whether the boot ROM still ran. -/
theorem bootFailed_fails (code : Nat) (s : State) : (bootFailed code s).boot.stage = .failed ∧ (bootFailed code s).boot.bootError = code ∧
    (bootFailed code s).boot.failedInBisque = (s.boot.stage == .bisque) ∧ logged 0x0F14 (bootFailed code s) := by
  have hboot : (bootFailed code s).boot = { s.boot with stage := .failed, bootError := code, failedInBisque := s.boot.stage == .bisque } := kiln_boot _ _ _
  rw [hboot]
  exact ⟨rfl, rfl, rfl, kiln_head _ _ _⟩

/-- `s` once the ROM has run and VDD_CORE is at 0.750 V. -/
def romRun (s : State) : State :=
  modPow (fun t => { t with avs := { target := 750 }, vddFull := 750, vddEased := 750 }) (modBoot (fun b => { b with romRan := true }) s)

section

variable {result : Fin 5} (hl : s.boot.resetLow = false) (hp : s.boot.powered = true) (ht : s.boot.tripped = false) (hr : s.boot.romRan = false)
  (hs : s.boot.stage = .bisque)
include hl hp ht hr hs

theorem exec_q0PllLock : exec (.q0PllLock result) s =
    .next (if result.val == 0 || (result.val == 4 && s.boot.strap == 3) then romRun s else bootFailed result.val (romRun s)) := by
  have hgo : (s.boot.resetLow || !s.boot.powered || s.boot.tripped || s.boot.romRan || s.boot.stage != .bisque) = false := by
    rw [hl, hp, ht, hr, hs]
    rfl
  change execQ0PllLock result s = _
  simp only [execQ0PllLock, hgo, Bool.false_eq_true, if_false]
  rfl

theorem q0PllLock_runs (h : result.val = 0) : Completes (.q0PllLock result) s fun t =>
    t.boot.romRan = true ∧ t.boot.stage = .bisque ∧ t.pow.avs.target = 750 :=
  ⟨_, (exec_q0PllLock hl hp ht hr hs).trans (congrArg _ (if_pos (by rw [h]; rfl))), rfl, hs, rfl⟩

theorem q0PllLock_fails (h0 : 0 < result.val) (h4 : result.val < 4) : Completes (.q0PllLock result) s fun t =>
    t.boot.stage = .failed ∧ t.boot.bootError = result.val ∧ t.boot.failedInBisque = true ∧ logged 0x0F14 t := by
  have hbad : ¬ (result.val == 0 || (result.val == 4 && s.boot.strap == 3)) = true := by
    simp only [Bool.or_eq_true, Bool.and_eq_true, beq_iff_eq]
    omega
  obtain ⟨hstage, hcode, hbisque, hlog⟩ := bootFailed_fails result.val (romRun s)
  have hin : ((romRun s).boot.stage == .bisque) = true := by rw [show (romRun s).boot.stage = .bisque from hs]; rfl
  exact ⟨_, (exec_q0PllLock hl hp ht hr hs).trans (congrArg _ (if_neg hbad)), hstage, hcode, hbisque.trans hin, hlog⟩

end

/-! ### The choice of the slot (R529, R531, R533) -/

/-- The state with the data area's defaults where neither copy is valid. -/
def areaRead (s : State) : State := modBoot areaOrDefault s

/-- Reading the data area changes nothing but the data area. -/
theorem areaRead_boot (s : State) : ∃ a o, (areaRead s).boot = { s.boot with dataArea := a, otherArea := o } := by
  unfold areaRead areaOrDefault
  cases h : s.boot.dataArea.validA || s.boot.dataArea.validB with
  | false => exact ⟨{}, {}, if_neg (by rw [h]; decide)⟩
  | true => exact ⟨s.boot.dataArea, s.boot.otherArea, if_pos h⟩

theorem areaRead_valid (h : (s.boot.dataArea.validA || s.boot.dataArea.validB) = true) : areaRead s = s := by
  have hboot : areaOrDefault s.boot = s.boot := if_pos h
  exact congrArg (fun b => { s with boot := b }) hboot

theorem readCheck_of_boot {t : State} (hslots : t.boot.slots = s.boot.slots) (hmin : t.boot.securityMin = s.boot.securityMin) (k : Nat) (fails : Bool) :
    readCheck t k fails = readCheck s k fails := by
  rw [readCheck, slotCheck, hslots, hmin]
  rfl

theorem readCheck_areaRead (s : State) (k : Nat) (fails : Bool) : readCheck (areaRead s) k fails = readCheck s k fails := by
  obtain ⟨a, o, hboot⟩ := areaRead_boot s
  exact readCheck_of_boot (by rw [hboot]) (by rw [hboot]) k fails

theorem chooseSlot_strapped {fails : Nat → Bool} (h : s.boot.strap ≠ 0) : chooseSlot fails s =
    (if readCheck s (s.boot.strap - 1) (fails (s.boot.strap - 1)) = 0 then some (s.boot.strap - 1) else none, s) := by
  have hstrap : (s.boot.strap == 0) = false := beq_eq_false_iff_ne.mpr h
  simp only [chooseSlot, hstrap, Bool.false_eq_true, if_false, beq_iff_eq]

theorem chooseSlot_next {fails : Nat → Bool} (h : s.boot.strap = 0) (htrials : tabGet 0 s.boot.dataArea.trials s.boot.dataArea.nextSlot < 3)
    (hok : readCheck s s.boot.dataArea.nextSlot (fails s.boot.dataArea.nextSlot) = 0) : chooseSlot fails s = (some s.boot.dataArea.nextSlot, s) := by
  have hspent : decide (tabGet 0 s.boot.dataArea.trials s.boot.dataArea.nextSlot ≥ 3) = false := decide_eq_false (by omega)
  simp only [chooseSlot, h, hspent, hok, beq_self_eq_true, Bool.false_eq_true, if_false, if_true]

/-! ### Step 1 of the glaze stage (R531, R534) -/

/-- `s` in the glaze stage with its slot chosen. -/
def slotRuns (k : Nat) (s : State) : State :=
  modBoot (fun b => { b with stage := .glazeInit, slot := k, running := tabGet {} b.slots k, g0 := s.now }) s

/-- The data area written anew where neither copy was valid. -/
def areaRenewed (lost : Bool) (s : State) : State := if lost then writeArea id (writeArea id (kiln 0x0F15 [(1, 3)] s)) else s

theorem areaRenewed_boot (lost : Bool) (s : State) : ∃ a o, (areaRenewed lost s).boot = { s.boot with dataArea := a, otherArea := o } ∧
    (lost = false → a = s.boot.dataArea) := by
  cases lost with
  | false => exact ⟨s.boot.dataArea, s.boot.otherArea, rfl, fun _ => rfl⟩
  | true =>
    have hwritten : ∀ u : State, ∃ a o, (writeArea id (writeArea id u)).boot = { u.boot with dataArea := a, otherArea := o } := fun _ => ⟨_, _, rfl⟩
    obtain ⟨a, o, h⟩ := hwritten (kiln 0x0F15 [(1, 3)] s)
    exact ⟨a, o, by rw [areaRenewed, if_pos rfl, h, kiln_boot], nofun⟩

/-- The reset's cause logged, and the thermal trip if one was recorded. -/
def causesLogged (k : Nat) (s : State) : State :=
  let s4 := kiln 0x0F10 [(1, s.boot.cause), (1, k), (1, s.boot.strap)] s
  match s4.boot.tripRecord with
  | none => s4
  | some r => modBoot (fun b => { b with tripRecord := none }) (kiln 0x0D05 [(1, u8 r 0), (1, u8 r 1)] s4)

theorem causesLogged_boot (k : Nat) (s : State) : (causesLogged k s).boot = { s.boot with tripRecord := none } := by
  have hlogged : (kiln 0x0F10 [(1, s.boot.cause), (1, k), (1, s.boot.strap)] s).boot = s.boot := kiln_boot _ _ _
  unfold causesLogged
  dsimp only
  split
  · next hnone =>
    rw [hlogged] at hnone ⊢
    rw [← hnone]
  · next r hsome =>
    have hboth : (kiln 0x0D05 [(1, u8 r 0), (1, u8 r 1)] (kiln 0x0F10 [(1, s.boot.cause), (1, k), (1, s.boot.strap)] s)).boot = s.boot :=
      (kiln_boot _ _ _).trans hlogged
    exact congrArg (fun b : BootState => { b with tripRecord := none }) hboth

theorem glazeBegin_eq (k : Nat) (lost : Bool) (s : State) : glazeBegin k lost s = causesLogged k (modPow (fun t => { t with
    heat := (areaRenewed lost (slotRuns k s)).boot.dataArea.heat, ages := (areaRenewed lost (slotRuns k s)).boot.dataArea.ages })
    (areaRenewed lost (slotRuns k s))) := rfl

theorem glazeBegin_boot (k : Nat) (lost : Bool) (s : State) : ∃ a o, (glazeBegin k lost s).boot = { s.boot with
    stage := .glazeInit, slot := k, running := tabGet {} s.boot.slots k, g0 := s.now, tripRecord := none, dataArea := a, otherArea := o } ∧
    (lost = false → a = s.boot.dataArea) := by
  obtain ⟨a, o, hboot, harea⟩ := areaRenewed_boot lost (slotRuns k s)
  refine ⟨a, o, ?_, harea⟩
  rw [glazeBegin_eq, causesLogged_boot]
  exact congrArg (fun b : BootState => { b with tripRecord := none }) hboot

/-- What the operands of GLAZE_INIT say of a slot. -/
def slotFails (f0 f1 : Bool) (k : Nat) : Bool := if k == 0 then f0 else f1

theorem slotFails_eq (f0 f1 : Bool) (k : Nat) : slotFails f0 f1 k = if k = 0 then f0 else f1 := by
  by_cases hk : k = 0
  · rw [slotFails, if_pos (beq_iff_eq.mpr hk), if_pos hk]
  · rw [slotFails, if_neg (by rwa [beq_iff_eq]), if_neg hk]

theorem chooseSlot_areaRead {f0 f1 : Bool} (hstrap : s.boot.strap = 1 ∨ s.boot.strap = 2) : chooseSlot (slotFails f0 f1) (areaRead s) =
    (if readCheck s (s.boot.strap - 1) (if s.boot.strap - 1 = 0 then f0 else f1) = 0 then some (s.boot.strap - 1) else none, areaRead s) := by
  obtain ⟨a, o, hboot⟩ := areaRead_boot s
  have hsame : (areaRead s).boot.strap = s.boot.strap := by rw [hboot]
  rw [chooseSlot_strapped (by omega), hsame, readCheck_areaRead, slotFails_eq]

section

variable {f0 f1 : Bool} (hs : s.boot.stage = .bisque) (hc : clocked s = true)
include hs hc

theorem exec_glazeInit {o : Option Nat} {u : State} (hstrap : s.boot.strap ≠ 3) (h : chooseSlot (slotFails f0 f1) (areaRead s) = (o, u)) :
    exec (.glazeInit f0 f1) s = .next (match o with
      | none => bootFailed 5 u
      | some k => glazeBegin k (!s.boot.dataArea.validA && !s.boot.dataArea.validB)
          (if s.boot.strap == 0 then writeArea (fun a => { a with trials := tabMod 0 k (· + 1) a.trials }) u else u)) := by
  have hgo : (s.boot.stage != .bisque || !clocked s || s.boot.strap == 3) = false := by
    rw [hs, hc, beq_eq_false_iff_ne.mpr hstrap]
    rfl
  have hchoice : chooseSlot (fun k => if k == 0 then f0 else f1) (modBoot areaOrDefault s) = (o, u) := h
  change execGlazeInit f0 f1 s = _
  simp only [execGlazeInit, hgo, hchoice, Bool.false_eq_true, if_false]
  cases o <;> rfl

section

variable (hstrap : s.boot.strap = 1 ∨ s.boot.strap = 2)
include hstrap

theorem glazeInit_strapped (hok : readCheck s (s.boot.strap - 1) (if s.boot.strap - 1 = 0 then f0 else f1) = 0) :
    Completes (.glazeInit f0 f1) s fun t => t.boot.stage = .glazeInit ∧ t.boot.slot = s.boot.strap - 1 ∧
      t.boot.running = tabGet {} s.boot.slots (s.boot.strap - 1) ∧ t.boot.tripRecord = none := by
  have hchoice := chooseSlot_areaRead (f0 := f0) (f1 := f1) hstrap
  rw [if_pos hok] at hchoice
  have hexec := exec_glazeInit hs hc (by omega) hchoice
  obtain ⟨a, o, hread⟩ := areaRead_boot s
  have hno : ¬ (s.boot.strap == 0) = true := by
    rw [beq_iff_eq]
    omega
  obtain ⟨_, _, hboot, -⟩ := glazeBegin_boot (s.boot.strap - 1) (!s.boot.dataArea.validA && !s.boot.dataArea.validB) (areaRead s)
  rw [hread] at hboot
  refine ⟨_, hexec, ?_⟩
  dsimp only
  rw [if_neg hno, hboot]
  exact ⟨rfl, rfl, rfl, rfl⟩

theorem glazeInit_failed (hbad : readCheck s (s.boot.strap - 1) (if s.boot.strap - 1 = 0 then f0 else f1) ≠ 0) :
    Completes (.glazeInit f0 f1) s fun t => t.boot.stage = .failed ∧ t.boot.bootError = 5 := by
  have hchoice := chooseSlot_areaRead (f0 := f0) (f1 := f1) hstrap
  rw [if_neg hbad] at hchoice
  obtain ⟨hstage, hcode, -⟩ := bootFailed_fails 5 (areaRead s)
  exact ⟨_, exec_glazeInit hs hc (by omega) hchoice, hstage, hcode⟩

end

/-- The next slot of a valid data area, tried once more. -/
theorem glazeInit_next (hstrap : s.boot.strap = 0) (hvalid : (s.boot.dataArea.validA || s.boot.dataArea.validB) = true)
    (htrials : tabGet 0 s.boot.dataArea.trials s.boot.dataArea.nextSlot < 3)
    (hok : readCheck s s.boot.dataArea.nextSlot (if s.boot.dataArea.nextSlot = 0 then f0 else f1) = 0) :
    Completes (.glazeInit f0 f1) s fun t => t.boot.stage = .glazeInit ∧ t.boot.slot = s.boot.dataArea.nextSlot ∧
      tabGet 0 t.boot.dataArea.trials s.boot.dataArea.nextSlot = tabGet 0 s.boot.dataArea.trials s.boot.dataArea.nextSlot + 1 := by
  have hchoice : chooseSlot (slotFails f0 f1) (areaRead s) = (some s.boot.dataArea.nextSlot, s) := by
    rw [areaRead_valid hvalid]
    exact chooseSlot_next hstrap htrials (by rw [slotFails_eq]; exact hok)
  have hlost : (!s.boot.dataArea.validA && !s.boot.dataArea.validB) = false := by rw [← Bool.not_or, hvalid]; rfl
  have hzero : (s.boot.strap == 0) = true := beq_iff_eq.mpr hstrap
  have hexec := exec_glazeInit hs hc (by omega) hchoice
  obtain ⟨a, _, hboot, harea⟩ := glazeBegin_boot s.boot.dataArea.nextSlot false
    (writeArea (fun a => { a with trials := tabMod 0 s.boot.dataArea.nextSlot (· + 1) a.trials }) s)
  refine ⟨_, hexec, ?_⟩
  dsimp only
  rw [if_pos hzero, hlost, hboot]
  refine ⟨rfl, rfl, ?_⟩
  change tabGet 0 a.trials _ = _
  rw [harea rfl]
  exact tabGet_mod 0 s.boot.dataArea.nextSlot (· + 1) s.boot.dataArea.trials

end

/-! ### The glaze stage (R530, R534, R535) -/

theorem confirmSlot_nextSlot (s : State) : (confirmSlot s).boot.dataArea.nextSlot = s.boot.slot := by
  unfold confirmSlot
  dsimp only
  split
  · rw [kiln_boot]
    rfl
  · rfl

section

variable {step die : Fin 8} {st : BitVec 16} (hs : s.boot.stage = .glazeInit)
include hs

/-- `s` with one more failure of a step counted. -/
def stepTried (key : Nat) (s : State) : State :=
  modBoot (fun b => { b with tries := tabSet 0 key (tabGet 0 s.boot.tries key + 1) b.tries }) s

theorem exec_glazeRetry (h5 : step.val + 1 ≠ 5) : exec (.glazeRetry step die st) s =
    if tabGet 0 s.boot.tries step.val + 1 ≤ 2 then .next (kiln 0x0F12 [(1, step.val + 1), (2, st.toNat)] (stepTried step.val s))
    else if tabGet 0 s.boot.tries step.val + 1 != 3 then .next (stepTried step.val s)
    else match glazeError (step.val + 1) with
      | some code => .next (bootFailed code (stepTried step.val s))
      | none => .next (stepTried step.val s) := by
  have hgo : (s.boot.stage != .glazeInit) = false := by rw [hs]; rfl
  have hn : (step.val + 1 == 5) = false := beq_eq_false_iff_ne.mpr h5
  change execGlazeRetry step die st s = _
  simp only [execGlazeRetry, hgo, hn, Bool.false_eq_true, if_false, Nat.add_sub_cancel]
  rfl

theorem glazeRetry_again (h5 : step.val + 1 ≠ 5) (ht : tabGet 0 s.boot.tries step.val < 2) : Completes (.glazeRetry step die st) s fun t =>
    logged 0x0F12 t ∧ tabGet 0 t.boot.tries step.val = tabGet 0 s.boot.tries step.val + 1 ∧ t.boot.stage = .glazeInit := by
  refine ⟨_, (exec_glazeRetry hs h5).trans (if_pos (by omega)), kiln_head _ _ _, ?_, ?_⟩
  · rw [kiln_boot]
    change tabGet 0 (tabSet 0 step.val (tabGet 0 s.boot.tries step.val + 1) s.boot.tries) step.val = _
    rw [tabGet_set]
  · rw [kiln_boot]
    exact hs

theorem glazeRetry_fails {code : Nat} (hcode : glazeError (step.val + 1) = some code) (ht : tabGet 0 s.boot.tries step.val = 2) :
    Completes (.glazeRetry step die st) s fun t => t.boot.stage = .failed ∧ t.boot.bootError = code ∧ logged 0x0F14 t := by
  have h5 : step.val + 1 ≠ 5 := fun h => by
    rw [h] at hcode
    cases hcode
  obtain ⟨hstage, herror, -, hlog⟩ := bootFailed_fails code (stepTried step.val s)
  have hexec := exec_glazeRetry (die := die) (st := st) hs h5
  rw [ht, if_neg (by decide), if_neg (by decide), hcode] at hexec
  exact ⟨_, hexec, hstage, herror, hlog⟩

theorem glazeReady_readies (ppm : List (List Int)) : Completes (.glazeReady ppm) s fun t => t.boot.stage = .ready ∧ t.boot.capsReady = true ∧
    t.boot.dataArea.nextSlot = s.boot.slot ∧
    t.boot.securityMin = if s.boot.running.raiseMinimum && decide (s.boot.securityMin < s.boot.running.security) then s.boot.running.security
      else s.boot.securityMin := by
  obtain ⟨u, hkeeps, hexec⟩ := exec_glazeReady ppm hs
  have hboot : u.boot = s.boot := hkeeps.same .boot rfl
  obtain ⟨-, hcaps⟩ := readied_slot u
  obtain ⟨-, -, harea⟩ := raiseMinimum_kept (confirmSlot (becomeReady u))
  have hnext : (readied u).boot.dataArea.nextSlot = u.boot.slot := by
    rw [readied, harea, confirmSlot_nextSlot]
    rfl
  exact ⟨_, hexec, readied_stage u, hcaps, by rw [hnext, hboot], by rw [readied_securityMin, hboot]⟩

end

end

/-- Settles O53. That READY confirms the slot that runs under every strap is assumption 154, the model's choice. -/
theorem startUpReachesReady : Obligations.StartUpReachesReady := by
  intro result step die st ppm f0 f1 s
  exact ⟨fun hl hp ht hr hs => ⟨q0PllLock_runs hl hp ht hr hs, q0PllLock_fails hl hp ht hr hs⟩,
    fun hs hc hstrap => ⟨glazeInit_strapped hs hc hstrap, glazeInit_failed hs hc hstrap⟩,
    fun hs hc hstrap hvalid => glazeInit_next hs hc hstrap hvalid,
    fun hs => ⟨glazeRetry_again hs, fun _ hcode ht => glazeRetry_fails hs hcode ht, glazeReady_readies hs ppm⟩⟩

end Sys2Proof.Proofs
end

section
/-!
PROOFS. The test access port and the supplies (O55): R556 to R558, R567, R571.
-/

namespace Sys2Proof.Proofs

open Sys2Proof Sys2Proof.Machine Sys2Proof.Laws

/-! ### Scans (R567) -/

section

variable {s : State} {τ : Tap} {o : List Emission} {n : TapInstr} {reg tdi pins : List Bool}

/-- `s` with another state of the test access port, and what it has put out. -/
def tapped (τ : Tap) (o : List Emission) (s : State) : State := { s with boot := { s.boot with tap := τ }, out := o }

theorem tapped_same (τ : Tap) (o : List Emission) (s : State) : ∀ p, p ≠ .boot → p ≠ .out → Same p s (tapped τ o s) := by
  intro p hboot hout
  cases p
  case boot => exact absurd rfl hboot
  case out => exact absurd rfl hout
  all_goals rfl

/-- The port after a scan of register `reg` under an instruction. -/
def tapAfter (n : TapInstr) (reg tdi : List Bool) (τ : Tap) : Tap := { τ with instr := n, shifted := (reg ++ tdi).drop tdi.length }

/-- What a scan of register `reg` leaves: the register shifted, its bits put out, and nothing else changed. -/
def scanned (n : TapInstr) (reg tdi : List Bool) (s t : State) : Prop :=
  t.boot.tap.instr = n ∧ t.boot.tap.shifted = (reg ++ tdi).drop tdi.length ∧ .tdo ((reg ++ tdi).take tdi.length) ∈ t.out ∧
    ∀ p, p ≠ .boot → p ≠ .out → Same p s t

theorem tapped_scanned (hn : τ.instr = n) (hs : τ.shifted = (reg ++ tdi).drop tdi.length) (ho : .tdo ((reg ++ tdi).take tdi.length) ∈ o) :
    scanned n reg tdi s (tapped τ o s) := ⟨hn, hs, ho, tapped_same τ o s⟩

variable (hp : s.boot.powered = true)
include hp

theorem tapScan_tapped : tapScan n reg tdi s =
    tapped (tapAfter n reg tdi s.boot.tap) (.tdo ((reg ++ tdi).take tdi.length) :: s.out) s :=
  if_neg (by rw [hp]; decide)

theorem tapUpdate_tapped : tapUpdate (tapped τ o s) = tapped { τ with latched := τ.shifted } o s :=
  if_pos (c := (tapped τ o s).boot.powered = true) hp

theorem tapDrive_tapped : tapDrive n (tapped τ o s) = tapped τ (.boundary n (bitsOf boundaryCells τ.latched) :: o) s :=
  if_pos (c := (tapped τ o s).boot.powered = true) hp

theorem tapScan_scans (n : TapInstr) (reg tdi : List Bool) : scanned n reg tdi s (tapScan n reg tdi s) := by
  rw [tapScan_tapped hp]
  exact tapped_scanned rfl rfl List.mem_cons_self

/-- An instruction that holds the pins scans the bypass register. -/
theorem holdingScan_scans (n : TapInstr) (tdi : List Bool) : scanned n [false] tdi s (holdingScan n tdi s) := by
  unfold holdingScan
  dsimp only
  split
  · rw [tapScan_tapped hp, tapDrive_tapped hp]
    exact tapped_scanned rfl rfl (List.mem_cons_of_mem _ List.mem_cons_self)
  · exact tapScan_scans hp _ _ _

section

variable (hw : testWorks s = true)
include hw

/-- Where test instructions work, the boundary-scan register is scanned and its update stage loaded. -/
theorem boundaryScan_works : boundaryScan n pins tdi s =
    tapped { tapAfter n (bitsOf boundaryCells pins) tdi s.boot.tap with latched := (bitsOf boundaryCells pins ++ tdi).drop tdi.length }
      (.tdo ((bitsOf boundaryCells pins ++ tdi).take tdi.length) :: s.out) s := by
  rw [boundaryScan, if_pos hw, tapScan_tapped hp, tapUpdate_tapped hp]
  rfl

theorem boundaryScan_scans (n : TapInstr) (pins tdi : List Bool) :
    scanned n (bitsOf boundaryCells pins) tdi s (boundaryScan n pins tdi s) := by
  rw [boundaryScan_works hp hw]
  exact tapped_scanned rfl rfl List.mem_cons_self

/-- An instruction that drives the pins from the boundary-scan register. -/
theorem drivingScan_works : drivingScan n pins tdi s =
    tapped { tapAfter n (bitsOf boundaryCells pins) tdi s.boot.tap with latched := (bitsOf boundaryCells pins ++ tdi).drop tdi.length }
      (.boundary n (bitsOf boundaryCells ((bitsOf boundaryCells pins ++ tdi).drop tdi.length)) ::
        .tdo ((bitsOf boundaryCells pins ++ tdi).take tdi.length) :: s.out) s := by
  rw [drivingScan, if_pos hw, boundaryScan_works hp hw, tapDrive_tapped hp]

theorem drivingScan_scans (n : TapInstr) (pins tdi : List Bool) : scanned n (bitsOf boundaryCells pins) tdi s (drivingScan n pins tdi s) := by
  rw [drivingScan_works hp hw]
  exact tapped_scanned rfl rfl (List.mem_cons_of_mem _ List.mem_cons_self)

end

section

variable (hw : testWorks s = false)
include hw

/-- Elsewhere a test instruction acts as BYPASS. -/
theorem boundaryScan_bypasses (n : TapInstr) (pins tdi : List Bool) : scanned n [false] tdi s (boundaryScan n pins tdi s) := by
  rw [boundaryScan, if_neg (by rw [hw]; decide)]
  exact tapScan_scans hp _ _ _

theorem drivingScan_bypasses (n : TapInstr) (pins tdi : List Bool) : scanned n [false] tdi s (drivingScan n pins tdi s) := by
  rw [drivingScan, if_neg (by rw [hw]; decide)]
  exact boundaryScan_bypasses hp hw _ _ _

end

/-- The test instructions, where they work and elsewhere. -/
theorem testInstr_scans (pins tdi : List Bool) : ∀ i n, (i, n) ∈ [(Instr.samplePreload pins tdi, TapInstr.samplePreload),
      (.extest pins tdi, .extest), (.extestPulse pins tdi, .extestPulse), (.extestTrain pins tdi, .extestTrain)] →
    (testWorks s = true → Completes i s (scanned n (bitsOf boundaryCells pins) tdi s)) ∧
    (testWorks s = false → Completes i s (scanned n [false] tdi s)) := by
  intro i n hin
  simp only [List.mem_cons, Prod.mk.injEq, List.not_mem_nil, or_false] at hin
  obtain ⟨rfl, rfl⟩ | ⟨rfl, rfl⟩ | ⟨rfl, rfl⟩ | ⟨rfl, rfl⟩ := hin
  · exact ⟨fun hw => ⟨_, rfl, boundaryScan_scans hp hw _ _ _⟩, fun hw => ⟨_, rfl, boundaryScan_bypasses hp hw _ _ _⟩⟩
  · exact ⟨fun hw => ⟨_, rfl, drivingScan_scans hp hw _ _ _⟩, fun hw => ⟨_, rfl, drivingScan_bypasses hp hw _ _ _⟩⟩
  · exact ⟨fun hw => ⟨_, rfl, drivingScan_scans hp hw _ _ _⟩, fun hw => ⟨_, rfl, drivingScan_bypasses hp hw _ _ _⟩⟩
  · exact ⟨fun hw => ⟨_, rfl, drivingScan_scans hp hw _ _ _⟩, fun hw => ⟨_, rfl, drivingScan_bypasses hp hw _ _ _⟩⟩

/-- EXTEST drives the pins with what its scan has loaded. -/
theorem extest_drives (hw : testWorks s = true) (pins tdi : List Bool) : Completes (.extest pins tdi) s fun t =>
    t.out.head? = some (.boundary .extest (bitsOf 6262 t.boot.tap.latched)) ∧
    t.boot.tap.latched = (bitsOf 6262 pins ++ tdi).drop tdi.length :=
  ⟨_, congrArg Host.Outcome.next (drivingScan_works hp hw), rfl, rfl⟩

end

/-! ### The supplies (R556 to R558, R571) -/

section

variable {rail : Fin 8} {mv : Int} {s : State}

theorem supply_beyond (h : mv < -300 ∨ railMax rail.val < mv) : exec (.supplyLeavesRange rail mv) s = .fault .beyondRatings := by
  refine if_pos ?_
  simpa only [Bool.or_eq_true, decide_eq_true_eq, gt_iff_lt] using h

variable (hlo : -300 ≤ mv)
include hlo

theorem exec_supply_rated (hhi : mv ≤ railMax rail.val) : exec (.supplyLeavesRange rail mv) s =
    if rail.val == 0 && mv < 1660 then
      .next (outputPins.foldl undefinePin (modBoot (fun b => { b with cause := 0, tripRecord := none, tripped := false, powered := false }) s))
    else if rail.val == 1 && mv ≤ 820 then
      .next (modFlt (fun f => { f with kiln := [], nextSeq := 0, newestIsLast := false }) s)
    else .next s := by
  refine if_neg ?_
  simp only [Bool.or_eq_true, decide_eq_true_eq]
  omega

omit hlo in
/-- Every output pin of a list goes to some level. -/
theorem undefinePins_out (l : List Nat) (s : State) : ∀ p ∈ l, ∃ v, .pin p v ∈ (l.foldl undefinePin s).out := by
  intro p hp
  refine foldl_reaches (op := undefinePin) (P := fun _ => True) (Q := fun s => ∃ v, .pin p v ∈ s.out)
    (fun _ _ => ⟨_, List.mem_cons_self⟩) (fun _ _ _ _ => trivial) (fun _ _ ⟨v, h⟩ => ⟨v, List.mem_cons_of_mem _ h⟩) hp trivial

theorem supply_io (hmv : mv < 1660) : Completes (.supplyLeavesRange 0 mv) s fun t => t.boot.cause = 0 ∧ t.boot.tripRecord = none ∧
    t.boot.powered = false ∧ t.flt = s.flt ∧ ∀ p ∈ [4, 5, 6, 7, 8, 9, 16, 17], ∃ v, .pin p v ∈ t.out := by
  have hmax : railMax (0 : Fin 8).val = 2100 := rfl
  have hexec := exec_supply_rated (rail := 0) (s := s) hlo (by rw [hmax]; omega)
  have hlow : ((0 : Fin 8).val == 0 && decide (mv < 1660)) = true := by rw [decide_eq_true hmv]; rfl
  rw [if_pos hlow] at hexec
  obtain ⟨u, hu⟩ : ∃ u, modBoot (fun b => { b with cause := 0, tripRecord := none, tripped := false, powered := false }) s = u := ⟨_, rfl⟩
  rw [hu] at hexec
  have hboot : (outputPins.foldl undefinePin u).boot = u.boot := foldl_keeps (fun s : State => s.boot) fun _ _ _ => rfl
  have hflt : (outputPins.foldl undefinePin u).flt = u.flt := foldl_keeps (fun s : State => s.flt) fun _ _ _ => rfl
  refine ⟨_, hexec, ?_, ?_, ?_, hflt.trans (hu ▸ rfl), undefinePins_out outputPins u⟩
  · rw [hboot, ← hu]; rfl
  · rw [hboot, ← hu]; rfl
  · rw [hboot, ← hu]; rfl

theorem supply_pll (hmv : mv ≤ 820) : Completes (.supplyLeavesRange 1 mv) s fun t => t.flt.kiln = [] ∧ t.boot = s.boot := by
  have hmax : railMax (1 : Fin 8).val = 1000 := rfl
  have hexec := exec_supply_rated (rail := 1) (s := s) hlo (by rw [hmax]; omega)
  have hlow : ((1 : Fin 8).val == 1 && decide (mv ≤ 820)) = true := by rw [decide_eq_true hmv]; rfl
  have hio : ¬ ((1 : Fin 8).val == 0 && decide (mv < 1660)) = true := Bool.false_ne_true
  exact ⟨_, hexec.trans ((if_neg hio).trans (if_pos hlow)), rfl, rfl⟩

theorem supply_other (hr : 2 ≤ rail.val) (hhi : mv ≤ railMax rail.val) : Completes (.supplyLeavesRange rail mv) s fun t => t = s := by
  have h0 : ¬ (rail.val == 0 && decide (mv < 1660)) = true := by
    rw [beq_eq_false_iff_ne.mpr (by omega : rail.val ≠ 0), Bool.false_and]
    decide
  have h1 : ¬ (rail.val == 1 && decide (mv ≤ 820)) = true := by
    rw [beq_eq_false_iff_ne.mpr (by omega : rail.val ≠ 1), Bool.false_and]
    decide
  exact ⟨_, (exec_supply_rated hlo hhi).trans ((if_neg h0).trans (if_neg h1)), rfl⟩

end

/-- Settles O55. The register that HIGHZ and CLAMP scan (assumption 106), the levels of outputs without VDD_IO (assumption 157) and the threshold
of VDD_PLL (assumption 158) are the model's choices. -/
theorem testPortAndSupplies : Obligations.TestPortAndSupplies := by
  refine ⟨fun pins tdi s hp => ⟨⟨_, rfl, tapScan_scans hp _ _ _⟩, ⟨_, rfl, tapScan_scans hp _ _ _⟩, ⟨_, rfl, holdingScan_scans hp _ _⟩,
    ⟨_, rfl, holdingScan_scans hp _ _⟩, testInstr_scans hp pins tdi, fun hw => extest_drives hp hw pins tdi⟩, fun rail mv s => ⟨supply_beyond,
    supply_io, supply_pll, fun hr hlo hhi => supply_other hlo hr hhi⟩⟩

end Sys2Proof.Proofs
end

section
/-!
PROOFS. The objects of the buffer and of the switching core read and write (O30): pools, profiles, shares and scrubs; mesh, groups, mirror
sessions, ages and drop policies.
-/

namespace Sys2Proof.Proofs

open Sys2Proof Sys2Proof.Machine Sys2Proof.Laws

/-- An object kept as nothing while it is the default reads as what was written. -/
theorem defaulted_reads {b d : Bytes} (hb : b ≠ []) :
    (if (if b == d then [] else b).isEmpty then d else if b == d then [] else b) = b := by
  cases h : b == d with
  | true => exact (beq_iff_eq.mp h).symm
  | false => exact if_neg (by simpa using hb)

section

variable {c : Cmd} {s : State}

/-! ### The shared buffer -/

theorem bufferPoolWrite_writes (hb : given c s ≠ [])
    (hfit : poolsFit (modQuad (u8 (given c s) 0)
      (fun x => { x with pool := if given c s == poolDefault (u8 (given c s) 0) then [] else given c s }) (takenState c s)) = true) :
    Writes opBufferPoolWrite c (.bufferPoolWrite c) s fun t => bufferPool t (u8 (given c s) 0) = given c s ∧
      ∀ q, q ≠ u8 (given c s) 0 → bufQuad t q = bufQuad s q := by
  refine writes_of rfl fun _ => ⟨_, if_pos hfit, rfl, ?_, fun q hq => bufQuad_modQuad_ne hq _ (takenState c s)⟩
  rw [bufferPool, bufQuad_of_buf (endCommand_buf _ _), bufQuad_modQuad]
  exact defaulted_reads hb

/-- Quadrant `q` takes the object `o` as its admission profile `n`. -/
def admitProfileWritten (n : Nat) (o : Bytes) (q : Nat) (s : State) : State :=
  modBuf (fun t => { t with profiles := tabSet (profileAdmitDefault n) (64 * q + n) o t.profiles }) s

theorem admitProfileWrite_writes
    (hspill : dividedSpills (forMask 4 (u8 (given c s) 0) (admitProfileWritten (u8 (given c s) 1) (putField (given c s) 0 1 0)) (takenState c s)) = false)
    (hfit : poolsFit (forMask 4 (u8 (given c s) 0) (admitProfileWritten (u8 (given c s) 1) (putField (given c s) 0 1 0)) (takenState c s)) = true) :
    Writes opAdmitProfileWrite c (.admitProfileWrite c) s fun t => ∀ q, q < 4 → bit (u8 (given c s) 0) q = true →
      admitProfile t q (u8 (given c s) 1) = putField (given c s) 0 1 0 := by
  let n := u8 (given c s) 1
  let o := putField (given c s) 0 1 0
  refine writes_of rfl fun _ => ⟨forMask 4 (u8 (given c s) 0) (admitProfileWritten n o) (takenState c s), ?_, ?_, fun q hq hbit => ?_⟩
  · exact (if_neg (Bool.eq_false_iff.mp hspill)).trans (if_pos hfit)
  · exact foldl_keeps (fun s : State => s.host.ended) fun _ _ _ => rfl
  · have hread := forMask_places (op := admitProfileWritten n o) (read := fun s q => admitProfile s q n) (val := fun _ => o)
      (fun _ _ => tabGet_set _ _ _ _) (fun _ _ _ h => tabGet_set_ne _ _ (by omega)) 4 (u8 (given c s) 0) (takenState c s) q
    exact hread.trans (if_pos ⟨hq, hbit⟩)

theorem portAdmitWrite_writes
    (hspill : dividedSpills (modBuf (fun t => { t with
      portAdmit := tabSet (portAdmitDefault (u16 (given c s) 0)) (u16 (given c s) 0) (given c s) t.portAdmit }) (takenState c s)) = false)
    (hfit : poolsFit (modBuf (fun t => { t with
      portAdmit := tabSet (portAdmitDefault (u16 (given c s) 0)) (u16 (given c s) 0) (given c s) t.portAdmit }) (takenState c s)) = true) :
    Writes opPortAdmitWrite c (.portAdmitWrite c) s fun t => portAdmit t (u16 (given c s) 0) = given c s ∧
      ∀ p, p ≠ u16 (given c s) 0 → portAdmit t p = portAdmit s p := by
  refine writes_of rfl fun _ => ⟨_, (if_neg (Bool.eq_false_iff.mp hspill)).trans (if_pos hfit), rfl, tabGet_set _ _ _ _, fun p hp => ?_⟩
  have hother := tabFind_set_ne hp (portAdmitDefault (u16 (given c s) 0)) (given c s) s.buf.portAdmit
  exact congrArg (·.getD (portAdmitDefault p)) hother

/-- Stack `q` takes the object `o` as its shares. -/
def dramShareWritten (o : Bytes) (q : Nat) (s : State) : State :=
  modQuad q (fun x => { x with share := if o == dramShareDefault then [] else o }) s

theorem dramShareWrite_writes (ho : putField (given c s) 0 1 0 ≠ []) : Writes opDramShareWrite c (.dramShareWrite c) s fun t => ∀ q, q < 4 →
    dramShare t q = if bit (u8 (given c s) 0) q = true then putField (given c s) 0 1 0 else dramShare s q := by
  let o := putField (given c s) 0 1 0
  refine writes_of rfl fun _ => ⟨forMask 4 (u8 (given c s) 0) (dramShareWritten o) (takenState c s), rfl, ?_, fun q hq => ?_⟩
  · exact foldl_keeps (fun s : State => s.host.ended) fun _ _ _ => rfl
  · have hsame : ∀ (s : State) k, dramShare (dramShareWritten o k s) k = o := fun s k => by
      rw [dramShare, dramShareWritten, bufQuad_modQuad]
      exact defaulted_reads ho
    have hother : ∀ (s : State) k j, j ≠ k → dramShare (dramShareWritten o k s) j = dramShare s j := fun s k j h => by
      rw [dramShare, dramShareWritten, bufQuad_modQuad_ne h, dramShare]
    have hread := forMask_places (op := dramShareWritten o) (val := fun _ => o) hsame hother 4 (u8 (given c s) 0) (takenState c s) q
    simp only [hq, true_and] at hread
    exact hread

/-- What a scrub object leaves, before its epochs are placed. -/
def scrubWritten (b : Bytes) (s : State) : State := modBuf (fun t => { t with scrub := if b == bufScrubDefault then [] else b }) s

theorem bufScrubWrite_writes (hb : given c s ≠ []) : Writes opBufScrubWrite c (.bufScrubWrite c) s fun t => bufScrub t = given c s := by
  obtain ⟨u, hu⟩ : ∃ u, placeScrub (given c s) (scrubWritten (given c s) (takenState c s)) = u := ⟨_, rfl⟩
  have hkept : Keeps [.time] (scrubWritten (given c s) (takenState c s)) u := hu ▸ keeps_placeScrub _ _
  have hbuf : u.buf = (scrubWritten (given c s) (takenState c s)).buf := hkept.same .buf rfl
  have hhost : u.host = (takenState c s).host := hkept.same .host rfl
  refine writes_of rfl fun _ => ⟨u, congrArg okWrite hu, by rw [hhost]; rfl, ?_⟩
  rw [bufScrub, endCommand_buf, hbuf]
  exact defaulted_reads hb

theorem bufferStatus_answers (h : passes opBufferStatus c s = true) : Completes (.bufferStatus c) s fun t =>
    answered opBufferStatus c .ok [] (bufferStatusObj s (u8 (given c s) 0)) s t ∧
    (bufQuad t (u8 (given c s) 0)).minFree.getD allCells = freeCells s (u8 (given c s) 0) := by
  refine answers_of rfl h rfl rfl ?_
  rw [bufQuad_of_buf (endCommand_buf _ _), bufQuad_modQuad]
  change (if (freeCells s (u8 (given c s) 0) == allCells) = true then none else some (freeCells s (u8 (given c s) 0))).getD allCells = _
  cases hall : freeCells s (u8 (given c s) 0) == allCells with
  | true => exact (beq_iff_eq.mp hall).symm
  | false => rfl

theorem queueBufferStatus_answers (h : passes opQueueBufferStatus c s = true) : Completes (.queueBufferStatus c) s fun t =>
    let b := given c s
    let no := queueNo (u16 b 0) (u8 b 2)
    let v := bufQueue s no
    answered opQueueBufferStatus c .ok [] (image 24 [(0, 2, u16 b 0), (2, 1, u8 b 2), (3, 1, b2n v.spilling), (4, 4, queueSram s no),
      (8, 4, queueSlots s no), (12, 4, v.fifo.length), (16, 4, v.peak), (20, 1, profileNo s (u16 b 0) (u8 b 2))]) s t ∧
    (bufQueue t no).peak = queueSram s no :=
  answers_of rfl h rfl rfl (congrArg BufQueue.peak (bufQueue_modQueue _ _ (takenState c s)))

/-! ### The switching core -/

/-- Quadrant `q` takes the object `o` as its mesh's configuration. -/
def meshWritten (o : Bytes) (q : Nat) (s : State) : State := modSw (fun w => { w with meshConfig := tabSet meshDefault q o w.meshConfig }) s

theorem meshConfigWrite_writes : Writes opMeshConfigWrite c (.meshConfigWrite c) s fun t => ∀ q, q < 4 →
    meshConfig t q = if bit (u8 (given c s) 0) q = true then putField (given c s) 0 1 0 else meshConfig s q := by
  let o := putField (given c s) 0 1 0
  refine writes_of rfl fun _ => ⟨forMask 4 (u8 (given c s) 0) (meshWritten o) (takenState c s), rfl, ?_, fun q hq => ?_⟩
  · exact foldl_keeps (fun s : State => s.host.ended) fun _ _ _ => rfl
  · have hread := forMask_places (op := meshWritten o) (read := meshConfig) (val := fun _ => o)
      (fun _ _ => tabGet_set _ _ _ _) (fun _ _ _ h => tabGet_set_ne _ _ h) 4 (u8 (given c s) 0) (takenState c s) q
    simp only [hq, true_and] at hread
    exact hread

/-- A group's new lists wait for the next strobe while every replication table has room (R320; how room counts is the model's choice,
assumption 62). -/
theorem mcastGroupWrite_starts (hgood : badMember (mcastMembers (given c s)) = none)
    (hroom : ∀ q, q < 4 → replicationUsed s q + membersIn q (mcastMembers (given c s)) ≤ 262144) :
    Starts opMcastGroupWrite c (.mcastGroupWrite c) s fun t =>
      t.time.tagged = s.time.tagged ++ [.mcast (given c s) s.host.nextId] ∧ t.sw = s.sw := by
  have hall : ((List.range 4).all fun q => replicationUsed (takenState c s) q + membersIn q (mcastMembers (given c s)) ≤ 262144) = true := by
    simp only [List.all_eq_true, List.mem_range, decide_eq_true_eq]
    exact hroom
  refine starts_of rfl fun _ => ⟨fun id => tagWrite (.mcast (given c s) id) (takenState c s), ?_, rfl, rfl, rfl, rfl⟩
  dsimp only
  rw [hgood]
  exact if_pos hall

theorem mirrorSessionWrite_writes (hb : given c s ≠ []) : Writes opMirrorSessionWrite c (.mirrorSessionWrite c) s fun t =>
    sessionObj t (16 * u8 (given c s) 0 + u8 (given c s) 1) = given c s ∧
    (sessionAt t (16 * u8 (given c s) 0 + u8 (given c s) 1)).selected = 0 ∧ logged 0x090A t ∧
    ∀ i, i ≠ 16 * u8 (given c s) 0 + u8 (given c s) 1 → sessionAt t i = sessionAt s i := by
  let i := 16 * u8 (given c s) 0 + u8 (given c s) 1
  let f := fun m : MirrorSession => { m with obj := if given c s == sessionDefault i then [] else given c s, selected := 0 }
  let u := modSw (fun w => { w with sessions := tabMod {} i f w.sessions }) (takenState c s)
  have hsw : ∀ e d, (endCommand e (kiln 0x090A d u)).sw = u.sw := fun e d => (endCommand_sw _ _).trans (kiln_sw _ _ _)
  have hat : ∀ e d, sessionAt (endCommand e (kiln 0x090A d u)) i = f (sessionAt s i) := fun e d =>
    (sessionAt_of_sw (hsw e d) i).trans (sessionAt_mod _ _ _)
  refine writes_of rfl fun _ => ⟨kiln 0x090A [(1, u8 (given c s) 0), (1, u8 (given c s) 1)] u, rfl, by rw [kiln_host]; rfl, ?_, ?_, kiln_head _ _ _, ?_⟩
  · rw [sessionObj, hat]
    exact defaulted_reads hb
  · rw [hat]
  · exact fun j hj => (sessionAt_of_sw (hsw _ _) j).trans (tabGet_set_ne _ _ hj)

theorem queueAgeWrite_writes : Writes opQueueAgeWrite c (.queueAgeWrite c) s fun t =>
    (tabFind t.sw.queueAge (u16 (given c s) 0)).getD (queueAgeDefault (u16 (given c s) 0)) = given c s :=
  writes_of rfl fun _ => ⟨_, rfl, rfl, tabGet_set (queueAgeDefault (u16 (given c s) 0)) _ _ _⟩

/-- Quadrant `q` takes the object `o` as its drop policy. -/
def dropPolicySet (o : Bytes) (q : Nat) (s : State) : State :=
  modSw (fun w => { w with dropPolicy := tabSet dropPolicyDefault q o w.dropPolicy }) s

/-- The limits of the records of quadrant `q`, as the object `b` sets them. -/
def dropLimitsWritten (b : Bytes) (q : Nat) (s : State) : State :=
  (List.range 256).foldl (fun s r => writeLimit .dropReason (256 * q + r) q (u32 b 8) s) (writeLimit .dropQuad q q (u32 b 4) s)

theorem dropLimitsWritten_keeps (b : Bytes) (q : Nat) (s : State) :
    (dropLimitsWritten b q s).sw = s.sw ∧ (dropLimitsWritten b q s).host = s.host :=
  ⟨foldl_keeps (fun s : State => s.sw) fun _ _ _ => rfl, foldl_keeps (fun s : State => s.host) fun _ _ _ => rfl⟩

/-- Quadrant `q` takes the object as its drop policy, with its limits. -/
def dropPolicyWritten (b o : Bytes) (q : Nat) (s : State) : State := dropLimitsWritten b q (dropPolicySet o q s)

theorem dropPolicyWritten_ended (b o : Bytes) (q : Nat) (s : State) : (dropPolicyWritten b o q s).host.ended = s.host.ended := by
  rw [dropPolicyWritten, (dropLimitsWritten_keeps _ _ _).2]
  rfl

theorem dropPolicyOf_written (b o : Bytes) (q : Nat) (s : State) : dropPolicyOf (dropPolicyWritten b o q s) q = o := by
  rw [dropPolicyOf, dropPolicyWritten, (dropLimitsWritten_keeps _ _ _).1]
  exact tabGet_set _ _ _ _

theorem dropPolicyOf_written_ne (b o : Bytes) {q r : Nat} (h : r ≠ q) (s : State) : dropPolicyOf (dropPolicyWritten b o q s) r = dropPolicyOf s r := by
  rw [dropPolicyOf, dropPolicyWritten, (dropLimitsWritten_keeps _ _ _).1]
  exact tabGet_set_ne _ _ h

theorem dropPolicyWrite_writes : Writes opDropPolicyWrite c (.dropPolicyWrite c) s fun t => ∀ q, q < 4 →
    dropPolicyOf t q = if bit (u8 (given c s) 0) q = true then putField (given c s) 0 1 0 else dropPolicyOf s q := by
  let o := putField (given c s) 0 1 0
  refine writes_of rfl fun _ => ⟨forMask 4 (u8 (given c s) 0) (dropPolicyWritten (given c s) o) (takenState c s), rfl, ?_, fun q hq => ?_⟩
  · exact foldl_keeps (fun s : State => s.host.ended) fun u q _ => dropPolicyWritten_ended (given c s) o q u
  · have hread := forMask_places (op := dropPolicyWritten (given c s) o) (read := dropPolicyOf) (val := fun _ => o)
      (fun _ _ => dropPolicyOf_written _ _ _ _) (fun s _ _ h => dropPolicyOf_written_ne _ _ h s) 4 (u8 (given c s) 0) (takenState c s) q
    simp only [hq, true_and] at hread
    exact hread

end

/-- Settles O30: each read answers its object, and each write has its own lemma. How the room of MCAST_GROUP counts is the model's choice
(assumption 62). -/
theorem bufferAndSwitchObjectsReadAndWrite : Obligations.BufferAndSwitchObjectsReadAndWrite := by
  refine ⟨fun c s => ?_, fun c s => ?_⟩
  · exact ⟨reads_of rfl fun _ => rfl, bufferPoolWrite_writes, reads_of rfl fun _ => rfl, admitProfileWrite_writes, reads_of rfl fun _ => rfl,
      portAdmitWrite_writes, reads_of rfl fun _ => rfl, dramShareWrite_writes, reads_of rfl fun _ => rfl, bufScrubWrite_writes,
      bufferStatus_answers, queueBufferStatus_answers⟩
  · exact ⟨reads_of rfl fun _ => rfl, meshConfigWrite_writes, reads_of rfl fun _ => rfl, mcastGroupWrite_starts, reads_of rfl fun _ => rfl,
      mirrorSessionWrite_writes, reads_of rfl fun _ => rfl, queueAgeWrite_writes, reads_of rfl fun _ => rfl, dropPolicyWrite_writes⟩

end Sys2Proof.Proofs
end

section
/-!
PROOFS. Forwarding objects and windows (O25): the objects of the FDB and the host table in the pipelines they name, routes, entries of the host
table, and the commands written to the FDB's windows.
-/

namespace Sys2Proof.Proofs

open Sys2Proof Sys2Proof.Machine Sys2Proof.Laws

/-! ### Pipelines -/

section

variable {g j : Nat} (h : j ≠ g) (s : State)
include h

theorem fwdPipe_modFwdPipe_ne (f : FwdPipe → FwdPipe) : fwdPipe (modFwdPipe g f s) j = fwdPipe s j := tabGet_set_ne _ _ h

theorem ntfRing_setNtfRing_ne (v : NtfRing) : ntfRing (setNtfRing g v s) j = ntfRing s j := tabGet_set_ne _ _ h

end

theorem ntfRing_setNtfRing (q : Nat) (v : NtfRing) (s : State) : ntfRing (setNtfRing q v s) q = v := tabGet_set _ _ _ _

/-- A change of the pipelines that a mask names. -/
theorem fwdPipe_forMask (f : FwdPipe → FwdPipe) (m : Nat) (s : State) (g : Nat) :
    fwdPipe (forMask 64 m (fun g => modFwdPipe g f) s) g = if g < 64 ∧ bit m g = true then f (fwdPipe s g) else fwdPipe s g :=
  forMask_places (op := fun g => modFwdPipe g f) (read := fwdPipe) (val := f) (fun _ _ => fwdPipe_modFwdPipe _ _ _)
    (fun s _ _ h => fwdPipe_modFwdPipe_ne h s f) 64 m s g

section

variable {c : Cmd} {s : State}

/-- A command that changes the pipelines that its mask names, and no other. -/
theorem writes_pipes {d : OpDef} {i : Instr} (f : Bytes → FwdPipe → FwdPipe)
    (hi : exec i s = .next (icoux d c (fun _ b s => okWrite (forMask 64 (u64 b 0) (fun g => modFwdPipe g (f b)) s)) s)) :
    Writes d c i s fun t => (∀ g, bit (u64 (given c s) 0) g = true ∧ g < 64 → fwdPipe t g = f (given c s) (fwdPipe s g)) ∧
      ∀ g, ¬ (bit (u64 (given c s) 0) g = true ∧ g < 64) → fwdPipe t g = fwdPipe s g := by
  obtain ⟨u, hu⟩ : ∃ u, forMask 64 (u64 (given c s) 0) (fun g => modFwdPipe g (f (given c s))) (takenState c s) = u := ⟨_, rfl⟩
  have hended : u.host.ended = (takenState c s).host.ended := hu ▸ foldl_keeps (fun s : State => s.host.ended) fun _ _ _ => rfl
  have hpipe : ∀ e g, fwdPipe (endCommand e u) g =
      if g < 64 ∧ bit (u64 (given c s) 0) g = true then f (given c s) (fwdPipe s g) else fwdPipe s g := fun e g => by
    rw [fwdPipe_of_fwd (endCommand_fwd _ _), ← hu, fwdPipe_forMask]
    rfl
  refine writes_of hi fun _ => ⟨u, congrArg okWrite hu, hended, fun g hg => ?_, fun g hg => ?_⟩
  · rw [hpipe, if_pos hg.symm]
  · rw [hpipe, if_neg fun h => hg h.symm]

theorem fdbLearnWrite_writes : Writes opFdbLearnWrite c (.fdbLearnWrite c) s fun t =>
    (∀ g, bit (u64 (given c s) 0) g = true ∧ g < 64 → (fwdPipe t g).learn = putField (given c s) 0 8 0) ∧
    ∀ g, ¬ (bit (u64 (given c s) 0) g = true ∧ g < 64) → fwdPipe t g = fwdPipe s g := fun h => by
  obtain ⟨t, hexec, hanswered, hnamed, hother⟩ := writes_pipes (i := .fdbLearnWrite c) (s := s) (fun b v => { v with learn := putField b 0 8 0 }) rfl h
  exact ⟨t, hexec, hanswered, fun g hg => congrArg FwdPipe.learn (hnamed g hg), hother⟩

theorem hostLookupWrite_writes : Writes opHostLookupWrite c (.hostLookupWrite c) s fun t =>
    (∀ g, bit (u64 (given c s) 0) g = true ∧ g < 64 → (fwdPipe t g).hostLookup = putField (given c s) 0 8 0) ∧
    ∀ g, ¬ (bit (u64 (given c s) 0) g = true ∧ g < 64) → fwdPipe t g = fwdPipe s g := fun h => by
  obtain ⟨t, hexec, hanswered, hnamed, hother⟩ := writes_pipes (i := .hostLookupWrite c) (s := s) (fun b v => { v with hostLookup := putField b 0 8 0 }) rfl h
  exact ⟨t, hexec, hanswered, fun g hg => congrArg FwdPipe.hostLookup (hnamed g hg), hother⟩

/-- What an object of a notification ring leaves: one that rises begins anew. -/
def notifyWritten (b : Bytes) (s : State) : State :=
  if (!ntfEnabled s (u8 b 0) && bit (u8 b 1) 0) = true then
    modHost (fun h => { h with ntfCons := tabDel (u8 b 0) h.ntfCons })
      (setNtfRing (u8 b 0) { ntfRing s (u8 b 0) with obj := b, producer := 0, lost := 0, pendingWb := false }
        (writeLimit .notify (u8 b 0) (u8 b 0) (u32 b 24) s))
  else setNtfRing (u8 b 0) { ntfRing s (u8 b 0) with obj := b } (writeLimit .notify (u8 b 0) (u8 b 0) (u32 b 24) s)

theorem notifyWritten_leaves (b : Bytes) (s : State) : (notifyWritten b s).host.ended = s.host.ended ∧
    (ntfRing (notifyWritten b s) (u8 b 0)).obj = b ∧
    (ntfEnabled s (u8 b 0) = false → bit (u8 b 1) 0 = true →
      (ntfRing (notifyWritten b s) (u8 b 0)).producer = 0 ∧ tabGet 0 (notifyWritten b s).host.ntfCons (u8 b 0) = 0) ∧
    ∀ q, q ≠ u8 b 0 → ntfRing (notifyWritten b s) q = ntfRing s q := by
  obtain ⟨u, hu⟩ : ∃ u, writeLimit .notify (u8 b 0) (u8 b 0) (u32 b 24) s = u := ⟨_, rfl⟩
  have hended : u.host.ended = s.host.ended := hu ▸ rfl
  have hfwd : u.fwd = s.fwd := hu ▸ rfl
  have hother : ∀ v q, q ≠ u8 b 0 → ntfRing (setNtfRing (u8 b 0) v u) q = ntfRing s q := fun v q hq =>
    (ntfRing_setNtfRing_ne hq u v).trans (by rw [ntfRing, hfwd, ntfRing])
  unfold notifyWritten
  rw [hu]
  split
  next =>
    refine ⟨hended, congrArg NtfRing.obj (ntfRing_setNtfRing _ _ u), fun _ _ => ⟨?_, ?_⟩, hother _⟩
    · exact congrArg NtfRing.producer (ntfRing_setNtfRing _ _ u)
    · exact congrArg (·.getD 0) (tabFind_del (u8 b 0) u.host.ntfCons)
  next hstays =>
    refine ⟨hended, congrArg NtfRing.obj (ntfRing_setNtfRing _ _ u), fun hoff hon => absurd ?_ hstays, hother _⟩
    rw [hoff, hon]
    rfl

theorem exec_fdbNotifyWrite : exec (.fdbNotifyWrite c) s =
    .next (icoux opFdbNotifyWrite c (fun _ b s => okWrite (notifyWritten b s)) s) := rfl

theorem fdbNotifyWrite_writes : Writes opFdbNotifyWrite c (.fdbNotifyWrite c) s fun t =>
    (ntfRing t (u8 (given c s) 0)).obj = given c s ∧
    (ntfEnabled s (u8 (given c s) 0) = false → bit (u8 (given c s) 1) 0 = true →
      (ntfRing t (u8 (given c s) 0)).producer = 0 ∧ tabGet 0 t.host.ntfCons (u8 (given c s) 0) = 0) ∧
    ∀ q, q ≠ u8 (given c s) 0 → ntfRing t q = ntfRing s q := by
  obtain ⟨u, hu⟩ : ∃ u, notifyWritten (given c s) (takenState c s) = u := ⟨_, rfl⟩
  have hleaves := notifyWritten_leaves (given c s) (takenState c s)
  rw [hu] at hleaves
  obtain ⟨hended, hobj, hrises, hother⟩ := hleaves
  exact writes_of exec_fdbNotifyWrite fun _ => ⟨u, congrArg okWrite hu, hended, hobj, hrises, hother⟩

theorem fdbEntryRead_reads {i r : Nat} (h : fdbFind s (u64 (given c s) 0).log2 (u16 (given c s) 12 * 2 ^ 48 + fieldBe (given c s) 14 6) = some (i, r)) :
    Reads opFdbEntryRead c (.fdbEntryRead c) s
      (putBytes (image 32 [(0, 8, u64 (given c s) 0),
        (9, 1, b2n (rowStatic r) + 2 * b2n (rowFrozen r) + 4 * b2n (rowHitDst r) + 8 * b2n (rowHitSrc r)), (10, 2, rowPort r),
        (12, 2, rowFid r), (20, 2, rowUser r), (22, 1, rowFlaps r), (24, 4, i)]) 14 (toBe 6 (rowMac r))) := by
  refine reads_of rfl fun _ => ?_
  have hfind : fdbFind (takenState c s) (u64 (given c s) 0).log2 (u16 (given c s) 12 * 2 ^ 48 + fieldBe (given c s) 14 6) = some (i, r) := h
  dsimp only
  rw [hfind]
  rfl

/-! ### Delegated windows (R244) -/

/-- A window once session `sess` is granted the rights, or its grant ends. -/
def granted (sess rights : Nat) (w : FdbWindow) : FdbWindow :=
  if (rights == 0 && w.session != some sess) = true then w else { w with session := if rights == 0 then none else some sess, rights }

theorem window_delegate (sess rights g : Nat) (s : State) :
    (fwdPipe (delegate sess rights g s) g).window = granted sess rights (fwdPipe s g).window := by
  unfold delegate granted
  dsimp only
  split
  · rfl
  · rw [fwdPipe_of_fwd (kiln_fwd _ _ _), fwdPipe_modWindow]

theorem window_delegate_ne (sess rights : Nat) {g j : Nat} (h : j ≠ g) (s : State) :
    (fwdPipe (delegate sess rights g s) j).window = (fwdPipe s j).window := by
  unfold delegate
  dsimp only
  split
  · rfl
  · rw [fwdPipe_of_fwd (kiln_fwd _ _ _), modWindow, fwdPipe_modFwdPipe_ne h]

theorem fdbDelegateWrite_grants : Writes opFdbDelegateWrite c (.fdbDelegateWrite c) s fun t =>
    ∀ g, bit (u64 (given c s) 0) g = true ∧ g < 64 →
      (fwdPipe t g).window = granted (u8 (given c s) 8) (u8 (given c s) 9) (fwdPipe s g).window := by
  obtain ⟨u, hu⟩ : ∃ u, forMask 64 (u64 (given c s) 0) (delegate (u8 (given c s) 8) (u8 (given c s) 9)) (takenState c s) = u := ⟨_, rfl⟩
  have hended : u.host.ended = (takenState c s).host.ended := by
    rw [← hu]
    exact foldl_keeps (fun s : State => s.host.ended) fun _ _ _ => congrArg HostState.ended ((keeps_delegate _ _ _ _).same .host rfl)
  refine writes_of rfl fun _ => ⟨u, congrArg okWrite hu, hended, fun g ⟨hbit, hg⟩ => ?_⟩
  have hread := forMask_places (op := delegate (u8 (given c s) 8) (u8 (given c s) 9)) (read := fun s g => (fwdPipe s g).window)
    (fun _ _ => window_delegate _ _ _ _) (fun _ _ _ h => window_delegate_ne _ _ h _) 64 (u64 (given c s) 0) (takenState c s) g
  rw [if_pos ⟨hg, hbit⟩, hu] at hread
  exact hread

theorem granted_rights {sess rights : Nat} (h : rights ≠ 0) (w : FdbWindow) :
    (granted sess rights w).session = some sess ∧ (granted sess rights w).rights = rights := by
  have hzero : (rights == 0) = false := beq_eq_false_iff_ne.mpr h
  simp [granted, hzero]

theorem granted_none (sess : Nat) (w : FdbWindow) : (granted sess 0 w).session ≠ some sess := by
  unfold granted
  split
  next h => simpa using h
  next => exact nofun

theorem fdbDelegateWrite_gives (hrights : u8 (given c s) 9 ≠ 0) : Writes opFdbDelegateWrite c (.fdbDelegateWrite c) s fun t =>
    ∀ g, bit (u64 (given c s) 0) g = true ∧ g < 64 →
      (fwdPipe t g).window.session = some (u8 (given c s) 8) ∧ (fwdPipe t g).window.rights = u8 (given c s) 9 := fun h => by
  obtain ⟨t, hexec, hanswered, hgrants⟩ := fdbDelegateWrite_grants (c := c) (s := s) h
  refine ⟨t, hexec, hanswered, fun g hg => ?_⟩
  rw [hgrants g hg]
  exact granted_rights hrights _

theorem fdbDelegateWrite_ends (hrights : u8 (given c s) 9 = 0) : Writes opFdbDelegateWrite c (.fdbDelegateWrite c) s fun t =>
    ∀ g, bit (u64 (given c s) 0) g = true ∧ g < 64 → (fwdPipe t g).window.session ≠ some (u8 (given c s) 8) := fun h => by
  obtain ⟨t, hexec, hanswered, hgrants⟩ := fdbDelegateWrite_grants (c := c) (s := s) h
  refine ⟨t, hexec, hanswered, fun g hg => ?_⟩
  rw [hgrants g hg, hrights]
  exact granted_none _ _

/-! ### Routes (R249, R250) -/

theorem lpmRouteRead_reads {r : Nat} (h : tabFind (fwdPipe s (u64 (given c s) 0).log2).routes (routeOf (given c s)) = some r) :
    Reads opLpmRouteRead c (.lpmRouteRead c) s (putField (given c s) 16 4 r) := by
  refine reads_of rfl fun _ => ?_
  have hfind : tabFind (fwdPipe (takenState c s) (u64 (given c s) 0).log2).routes (routeOf (given c s)) = some r := h
  rw [hfind]
  rfl

end

/-- What LPM_ROUTE does in one pipeline. -/
def routeOp (b : Bytes) (g : Nat) (s : State) : Option Status × State := if u8 b 8 == 1 then addRoute g b s else deleteRoute g b s

/-- LPM_ROUTE in one more pipeline: the pipelines that failed so far, with their status. -/
def routeStep (b : Bytes) (a : List (Nat × Status) × State) (g : Nat) : List (Nat × Status) × State :=
  match routeOp b g a.2 with
  | (none, s2) => (a.1, s2)
  | (some st, s2) => (a.1 ++ [(g, st)], s2)

/-- Pipelines in each of which LPM_ROUTE succeeds: none fails, and each has its turn. -/
theorem foldl_routeStep {b : Bytes} {ready : Nat → State → Prop} (ok : ∀ g s, ready g s → (routeOp b g s).1 = none)
    (keep : ∀ g j s, j ≠ g → ready j s → ready j (routeOp b g s).2) (l : List Nat) (hl : l.Nodup) (bad : List (Nat × Status)) (s : State)
    (hs : ∀ g ∈ l, ready g s) : l.foldl (routeStep b) (bad, s) = (bad, l.foldl (fun s g => (routeOp b g s).2) s) := by
  induction l generalizing s with
  | nil => rfl
  | cons g l ih =>
    obtain ⟨hg, hl⟩ := List.nodup_cons.mp hl
    have hstep : routeStep b (bad, s) g = (bad, (routeOp b g s).2) := by
      have hok := ok g s (hs g List.mem_cons_self)
      unfold routeStep
      dsimp only
      rw [show routeOp b g s = (none, (routeOp b g s).2) from Prod.ext hok rfl]
    rw [List.foldl_cons, List.foldl_cons, hstep]
    exact ih hl _ fun j hj => keep g j s (fun h => hg (h ▸ hj)) (hs j (List.mem_cons_of_mem _ hj))

section

variable {g j : Nat} {b : Bytes} {s t : State}

/-- Whether a route is there to be changed, or has room. -/
def routeFits (b : Bytes) (g : Nat) (s : State) : Prop :=
  (tabFind (fwdPipe s g).routes (routeOf b)).isSome = true ∨ 2 * (lpmUsed (fwdPipe s g) + (if u8 b 9 = 1 then 2 else 1)) ≤ lpmRoom s

theorem lpmRoom_of_table (h : t.tableProfile = s.tableProfile) : lpmRoom t = lpmRoom s := by rw [lpmRoom, h, lpmRoom]

/-- Pipeline `g` takes the route of the object. -/
def routeAdded (b : Bytes) (g : Nat) (s : State) : State := modFwdPipe g (fun v => { v with routes := tabPut (routeOf b) (u32 b 16) v.routes }) s

theorem addRoute_fits (h : routeFits b g s) : addRoute g b s = (none, routeAdded b g s) := by
  have hcond : ((tabFind (fwdPipe s g).routes (routeOf b)).isSome ||
      decide (2 * (lpmUsed (fwdPipe s g) + (if (u8 b 9 == 1) = true then 2 else 1)) ≤ lpmRoom s)) = true := by
    simp only [Bool.or_eq_true, decide_eq_true_eq, beq_iff_eq]
    exact h
  exact if_pos hcond

theorem fwdPipe_addRoute_ne (h : j ≠ g) : fwdPipe (addRoute g b s).2 j = fwdPipe s j := by
  have hfree : fwdPipe (takeFree s).2 j = fwdPipe s j := rfl
  unfold addRoute
  dsimp only
  generalize (if (u8 b 9 == 1) = true then 2 else 1) = n
  split
  · exact fwdPipe_modFwdPipe_ne h _ _
  · split
    · exact fwdPipe_of_fwd (kiln_fwd _ _ _) _
    · split
      · exact (fwdPipe_of_fwd (kiln_fwd _ _ _) _).trans hfree
      · exact (fwdPipe_modFwdPipe_ne h _ _).trans hfree

theorem fwdPipe_deleteRoute_ne (h : j ≠ g) : fwdPipe (deleteRoute g b s).2 j = fwdPipe s j := by
  unfold deleteRoute
  dsimp only
  split
  · rfl
  · exact fwdPipe_modFwdPipe_ne h (takeFree s).2 _

theorem routes_deleteRoute_none (h : tabFind (fwdPipe s g).routes (routeOf b) = none) : deleteRoute g b s = (some .state, s) :=
  if_pos (by rw [h]; rfl)

theorem deleteRoute_some (h : (tabFind (fwdPipe s g).routes (routeOf b)).isSome = true) :
    (deleteRoute g b s).1 = none ∧ tabFind (fwdPipe (deleteRoute g b s).2 g).routes (routeOf b) = none := by
  have hthere : ¬ (tabFind (fwdPipe s g).routes (routeOf b)).isNone = true := by
    rw [Option.isNone_iff_eq_none]
    exact Option.isSome_iff_ne_none.mp h
  unfold deleteRoute
  dsimp only
  rw [if_neg hthere]
  refine ⟨rfl, ?_⟩
  rw [fwdPipe_modFwdPipe]
  exact tabFind_del _ _

theorem fwdPipe_routeOp_ne (h : j ≠ g) : fwdPipe (routeOp b g s).2 j = fwdPipe s j := by
  unfold routeOp
  split
  · exact fwdPipe_addRoute_ne h
  · exact fwdPipe_deleteRoute_ne h

theorem routeOp_keeps (b : Bytes) (g : Nat) (s : State) : Keeps [.free, .flt, .fwd] s (routeOp b g s).2 := by
  unfold routeOp
  split
  · exact keeps_addRoute _ _ _
  · exact (keeps_deleteRoute _ _ _).mono rfl

theorem routeFits_routeOp_ne (h : j ≠ g) (hfits : routeFits b j s) : routeFits b j (routeOp b g s).2 := by
  rw [routeFits, fwdPipe_routeOp_ne h, lpmRoom_of_table ((routeOp_keeps b g s).same .table rfl)]
  exact hfits

end

/-- The route of the object in pipeline `g`. -/
def routeAt (b : Bytes) (s : State) (g : Nat) : Option Nat := tabFind (fwdPipe s g).routes (routeOf b)

section

variable {c : Cmd} {s : State} {ready : Nat → State → Prop} {r : Option Nat}

/-- How LPM_ROUTE ends after every pipeline named has had its turn. -/
def routeOutcome (a : List (Nat × Status) × State) : CmdResult :=
  match a.1.head? with
  | none => okWrite a.2
  | some (_, st) => .done a.2 st (toLe 8 ((a.1.map fun e => 2 ^ e.1).foldl (· + ·) 0) ++ toLe 2 (statusCode st)) []

theorem exec_lpmRouteWrite : exec (.lpmRouteWrite c) s = .next (icoux opLpmRouteWrite c
    (fun _ b s => routeOutcome ((maskBits 64 (u64 b 0)).foldl (routeStep b) ([], s))) s) := rfl

theorem mem_maskBits_named {m g : Nat} : g ∈ maskBits 64 m ↔ bit m g = true ∧ g < 64 := by
  rw [maskBits, List.mem_filter, List.mem_range]
  exact And.comm

/-- LPM_ROUTE where it succeeds in every pipeline named: each of them has the route as it leaves it. -/
theorem lpmRouteWrite_writes (ok : ∀ g u, ready g u → (routeOp (given c s) g u).1 = none)
    (keep : ∀ g j u, j ≠ g → ready j u → ready j (routeOp (given c s) g u).2)
    (make : ∀ g u, ready g u → routeAt (given c s) (routeOp (given c s) g u).2 g = r)
    (stays : ∀ g u, routeAt (given c s) u g = r → routeAt (given c s) (routeOp (given c s) g u).2 g = r)
    (hs : ∀ g, bit (u64 (given c s) 0) g = true ∧ g < 64 → ready g (takenState c s)) :
    Writes opLpmRouteWrite c (.lpmRouteWrite c) s fun t =>
      ∀ g, bit (u64 (given c s) 0) g = true ∧ g < 64 → routeAt (given c s) t g = r := by
  obtain ⟨l, hl⟩ : ∃ l, maskBits 64 (u64 (given c s) 0) = l := ⟨_, rfl⟩
  have hnodup : l.Nodup := hl ▸ List.nodup_range.filter _
  have hready : ∀ g ∈ l, ready g (takenState c s) := fun g hg => hs g (mem_maskBits_named.mp (hl ▸ hg))
  obtain ⟨u, hu⟩ : ∃ u, l.foldl (fun v g => (routeOp (given c s) g v).2) (takenState c s) = u := ⟨_, rfl⟩
  have hfold : (maskBits 64 (u64 (given c s) 0)).foldl (routeStep (given c s)) ([], takenState c s) = ([], u) := by
    rw [hl, foldl_routeStep ok keep l hnodup [] _ hready, hu]
  have hended : u.host.ended = (takenState c s).host.ended := by
    rw [← hu]
    exact foldl_keeps (fun s : State => s.host.ended) fun _ _ _ => congrArg HostState.ended ((routeOp_keeps _ _ _).same .host rfl)
  refine writes_of exec_lpmRouteWrite fun _ => ⟨u, ?_, hended, fun g hg => ?_⟩
  · rw [hfold]
    rfl
  · have hgl : g ∈ l := hl ▸ mem_maskBits_named.mpr hg
    have hstay : ∀ v j, routeAt (given c s) v g = r → routeAt (given c s) (routeOp (given c s) j v).2 g = r := by
      intro v j hq
      by_cases hj : g = j
      · exact hj ▸ stays g v hq
      · rw [routeAt, fwdPipe_routeOp_ne hj]
        exact hq
    have hreached : routeAt (given c s) u g = r := hu ▸
      foldl_reaches (op := fun v j => (routeOp (given c s) j v).2) (P := ready g) (Q := fun v => routeAt (given c s) v g = r) (p := g)
        (make g) (fun v j hj => keep j g v hj.symm) hstay hgl (hready g hgl)
    exact hreached

end

section

variable {c : Cmd} {s : State}

theorem lpmRouteWrite_adds (hop : u8 (given c s) 8 = 1) (hroom : ∀ g, bit (u64 (given c s) 0) g = true ∧ g < 64 →
      2 * (lpmUsed (fwdPipe s g) + (if u8 (given c s) 9 = 1 then 2 else 1)) ≤ lpmRoom s) :
    Writes opLpmRouteWrite c (.lpmRouteWrite c) s fun t => ∀ g, bit (u64 (given c s) 0) g = true ∧ g < 64 →
      routeAt (given c s) t g = some (u32 (given c s) 16) := by
  have hadd : ∀ g u, routeFits (given c s) g u → routeOp (given c s) g u = (none, routeAdded (given c s) g u) := fun g u h => by
    rw [routeOp, hop]
    exact addRoute_fits h
  have hat : ∀ g u, routeAt (given c s) (routeAdded (given c s) g u) g = some (u32 (given c s) 16) := fun g u => by
    rw [routeAt, routeAdded, fwdPipe_modFwdPipe]
    exact tabFind_put _ _ _
  refine lpmRouteWrite_writes (ready := routeFits (given c s)) (fun g u h => ?_) (fun g j u hj h => routeFits_routeOp_ne hj h) (fun g u h => ?_)
    (fun g u h => ?_) fun g hg => .inr (hroom g hg)
  · rw [hadd g u h]
  · rw [hadd g u h]
    exact hat g u
  · have hthere : (routeAt (given c s) u g).isSome = true := by
      rw [h]
      rfl
    rw [hadd g u (.inl hthere)]
    exact hat g u

theorem lpmRouteWrite_deletes (hop : u8 (given c s) 8 ≠ 1)
    (hthere : ∀ g, bit (u64 (given c s) 0) g = true ∧ g < 64 → (tabFind (fwdPipe s g).routes (routeOf (given c s))).isSome = true) :
    Writes opLpmRouteWrite c (.lpmRouteWrite c) s fun t => ∀ g, bit (u64 (given c s) 0) g = true ∧ g < 64 →
      routeAt (given c s) t g = none := by
  have hdel : ∀ g u, routeOp (given c s) g u = deleteRoute g (given c s) u := fun g u => if_neg (by simpa using hop)
  refine lpmRouteWrite_writes (ready := fun g u => (routeAt (given c s) u g).isSome = true) (fun g u h => ?_) (fun g j u hj h => ?_)
    (fun g u h => ?_) (fun g u h => ?_) hthere
  · rw [hdel]
    exact (deleteRoute_some h).1
  · rw [routeAt, fwdPipe_routeOp_ne hj]
    exact h
  · rw [hdel]
    exact (deleteRoute_some h).2
  · rw [hdel, routes_deleteRoute_none h]
    exact h

end

/-! ### The host table (R251, R254) -/

/-- Whether a slot of a bucket holds a key. -/
def hostHolds (s : State) (q b key i : Nat) : Bool := match tabFind s.fwd.host (hostSlotKey q b i) with | some r => r.key == key | none => false

/-- The slot that a write of the key takes: the one that lookups reach first. -/
def slotFor (s : State) (q key b i : Nat) : Prop :=
  i < 4 ∧ (∀ j < i, hostHolds s q b key j = false) ∧
    (b = hostBucket 0 key ∨ b = hostBucket 1 key ∧ b ≠ hostBucket 0 key ∧ hostSlotIn s q (hostBucket 0 key) key = none)

/-- A key written at its slot; `alt` says that it lies in its second bucket and counts there (R251). -/
def hostWritten (q key result b i : Nat) (alt : Bool) (s : State) : State :=
  if alt then hostAltAdd q (hostBucket 0 key) true (hostPut q b i (some { key, result }) s) else hostPut q b i (some { key, result }) s

section

variable {q key b i : Nat} {s t : State}

theorem firstIdx_some {n : Nat} {p : Nat → Bool} (h : firstIdx n p = some i) : i < n ∧ p i = true ∧ ∀ j < i, p j = false := by
  obtain ⟨hi, hr, hlt⟩ := List.find?_range_eq_some.mp h
  exact ⟨List.mem_range.mp hr, hi, fun j hj => by simpa using hlt j hj⟩

theorem firstIdx_eq_some {n : Nat} {p : Nat → Bool} (hn : i < n) (hi : p i = true) (hlt : ∀ j < i, p j = false) : firstIdx n p = some i :=
  List.find?_range_eq_some.mpr ⟨hi, List.mem_range.mpr hn, fun j hj => by simpa using hlt j hj⟩

theorem firstIdx_none_iff {n : Nat} {p : Nat → Bool} : firstIdx n p = none ↔ ∀ i < n, p i = false := by
  simp [firstIdx, List.find?_eq_none]

theorem hostFind_of_fwd (h : t.fwd = s.fwd) : hostFind t q key = hostFind s q key := by simp only [hostFind, hostSlotIn_of_fwd h]

theorem hostSlotIn_eq : hostSlotIn s q b key = firstIdx 4 (hostHolds s q b key) := rfl

theorem hostHolds_hostPut_ne {r : Option HostRow} {b' j : Nat} (h : hostSlotKey q b' j ≠ hostSlotKey q b i) :
    hostHolds (hostPut q b i r s) q b' key j = hostHolds s q b' key j := by
  have hfind : tabFind (hostPut q b i r s).fwd.host (hostSlotKey q b' j) = tabFind s.fwd.host (hostSlotKey q b' j) := by
    cases r with
    | none => exact tabFind_del_ne _ h
    | some r => exact tabFind_put_ne _ _ h
  rw [hostHolds, hfind, hostHolds]

/-- The bucket of another slot keeps its keys. -/
theorem hostSlotIn_hostPut_ne {r : Option HostRow} {b' : Nat} (h : b' ≠ b) (hi : i < 4) :
    hostSlotIn (hostPut q b i r s) q b' key = hostSlotIn s q b' key := by
  rw [hostSlotIn_eq, hostSlotIn_eq, firstIdx, firstIdx]
  refine List.find?_congr fun j hj => ?_
  have hj := List.mem_range.mp hj
  exact hostHolds_hostPut_ne (by unfold hostSlotKey; omega)

theorem hostSlotIn_hostPut {r : HostRow} (hkey : r.key = key) (hi : i < 4) (hlt : ∀ j < i, hostHolds s q b key j = false) :
    hostSlotIn (hostPut q b i (some r) s) q b key = some i := by
  refine firstIdx_eq_some hi ?_ fun j hj => ?_
  · have hfind : tabFind (hostPut q b i (some r) s).fwd.host (hostSlotKey q b i) = some r := tabFind_put _ _ _
    rw [hfind]
    exact beq_iff_eq.mpr hkey
  · exact (hostHolds_hostPut_ne (by unfold hostSlotKey; omega)).trans (hlt j hj)

/-- After a write at its slot, a lookup of the key reaches it. -/
theorem hostFind_hostPut {r : HostRow} (hkey : r.key = key) (h : slotFor s q key b i) :
    hostFind (hostPut q b i (some r) s) q key = some (b, i) := by
  obtain ⟨hi, hlt, hb⟩ := h
  have hslot := hostSlotIn_hostPut (q := q) (b := b) (s := s) hkey hi hlt
  unfold hostFind
  dsimp only
  obtain rfl | ⟨rfl, hne, hnone⟩ := hb
  · rw [hslot]
  · rw [hostSlotIn_hostPut_ne hne.symm hi, hnone, hslot]
    rfl

variable (q key : Nat) (result : Nat) (alt : Bool)

theorem hostWritten_host : (hostWritten q key result b i alt s).fwd.host = (hostPut q b i (some { key, result }) s).fwd.host := by
  cases alt with
  | true => rfl
  | false => rfl

end

section

variable {q key result b i : Nat} {s t v : State}

/-- The key's slot, where the table holds it. -/
theorem slotFor_hostFind (h : hostFind s q key = some (b, i)) : slotFor s q key b i := by
  unfold hostFind at h
  dsimp only at h
  cases hfirst : hostSlotIn s q (hostBucket 0 key) key with
  | some j =>
    rw [hfirst] at h
    cases h
    obtain ⟨hi, -, hlt⟩ := firstIdx_some hfirst
    exact ⟨hi, hlt, .inl rfl⟩
  | none =>
    rw [hfirst] at h
    obtain ⟨j, hsecond, hj⟩ := Option.map_eq_some_iff.mp h
    cases hj
    obtain ⟨hi, -, hlt⟩ := firstIdx_some hsecond
    refine ⟨hi, hlt, .inr ⟨rfl, fun hsame => ?_, hfirst⟩⟩
    rw [hsame, hfirst] at hsecond
    cases hsecond

/-- The first slot of a bucket without a key. -/
def hostFree (s : State) (q b : Nat) : Option Nat := firstIdx 4 fun i => (tabFind s.fwd.host (hostSlotKey q b i)).isNone

theorem hostSlotIn_none_of_hostFind (h : hostFind s q key = none) :
    hostSlotIn s q (hostBucket 0 key) key = none ∧ hostSlotIn s q (hostBucket 1 key) key = none := by
  unfold hostFind at h
  dsimp only at h
  cases hfirst : hostSlotIn s q (hostBucket 0 key) key with
  | some j =>
    rw [hfirst] at h
    cases h
  | none =>
    rw [hfirst] at h
    exact ⟨rfl, Option.map_eq_none_iff.mp h⟩

theorem hostHolds_of_slotIn_none (h : hostSlotIn s q b key = none) (hi : i < 4) : ∀ j < i, hostHolds s q b key j = false :=
  fun j hj => firstIdx_none_iff.mp h j (by omega)

theorem hostWrite_eq : hostWrite q key result s = match hostFind s q key with
    | some (b, i) => some (hostWritten q key result b i false s)
    | none => match hostFree s q (hostBucket 0 key), hostFree s q (hostBucket 1 key) with
      | some i, _ => some (hostWritten q key result (hostBucket 0 key) i false s)
      | none, some i => some (hostWritten q key result (hostBucket 1 key) i true s)
      | none, none => none := rfl

/-- A key that is written takes its slot, whatever the state beside the host table. -/
theorem hostWrite_writes (h : hostWrite q key result s = some v) :
    ∃ b i alt, slotFor s q key b i ∧ ∀ t, t.fwd = s.fwd → hostWrite q key result t = some (hostWritten q key result b i alt t) := by
  have hfree : ∀ t b, t.fwd = s.fwd → hostFree t q b = hostFree s q b := fun t b ht => by simp only [hostFree, ht]
  cases hfind : hostFind s q key with
  | some p => exact ⟨p.1, p.2, false, slotFor_hostFind hfind, fun t ht => by rw [hostWrite_eq, hostFind_of_fwd ht, hfind]⟩
  | none =>
    obtain ⟨hno1, hno2⟩ := hostSlotIn_none_of_hostFind hfind
    cases hf1 : hostFree s q (hostBucket 0 key) with
    | some i =>
      obtain ⟨hi, -, -⟩ := firstIdx_some hf1
      refine ⟨hostBucket 0 key, i, false, ⟨hi, hostHolds_of_slotIn_none hno1 hi, .inl rfl⟩, fun t ht => ?_⟩
      rw [hostWrite_eq, hostFind_of_fwd ht, hfind, hfree t _ ht, hf1]
    | none =>
      cases hf2 : hostFree s q (hostBucket 1 key) with
      | none =>
        rw [hostWrite_eq, hfind, hf1, hf2] at h
        cases h
      | some i =>
        obtain ⟨hi, -, -⟩ := firstIdx_some hf2
        have hne : hostBucket 1 key ≠ hostBucket 0 key := fun hsame => by
          rw [hsame, hf1] at hf2
          cases hf2
        refine ⟨hostBucket 1 key, i, true, ⟨hi, hostHolds_of_slotIn_none hno2 hi, .inr ⟨rfl, hne, hno1⟩⟩, fun t ht => ?_⟩
        rw [hostWrite_eq, hostFind_of_fwd ht, hfind, hfree t _ ht, hfree t _ ht, hf1, hf2]

theorem hostFind_hostWritten (alt : Bool) (h : slotFor s q key b i) :
    hostFind (hostWritten q key result b i alt s) q key = some (b, i) ∧
    tabFind (hostWritten q key result b i alt s).fwd.host (hostSlotKey q b i) = some { key, result } := by
  have hhost := hostWritten_host (i := i) (b := b) (s := s) q key result alt
  have hslots : ∀ b', hostSlotIn (hostWritten q key result b i alt s) q b' key = hostSlotIn (hostPut q b i (some { key, result }) s) q b' key :=
    fun b' => by simp only [hostSlotIn, hhost]
  refine ⟨?_, ?_⟩
  · rw [← hostFind_hostPut (r := { key, result }) rfl h]
    simp only [hostFind, hslots]
  · rw [hhost]
    exact tabFind_put _ _ _

theorem hostWritten_fwd (alt : Bool) (h : t.fwd = s.fwd) :
    (hostWritten q key result b i alt t).fwd = (hostWritten q key result b i alt s).fwd := by
  cases alt with
  | true => simp [hostWritten, hostAltAdd, hostPut, modFwd, h]
  | false => simp [hostWritten, hostPut, modFwd, h]

theorem hostWritten_ended (alt : Bool) : (hostWritten q key result b i alt s).host.ended = s.host.ended := by
  cases alt with
  | true => rfl
  | false => rfl

end

section

variable {c : Cmd} {s v : State}

theorem hostEntry_writes (hop : u8 (given c s) 1 = 1)
    (hv : hostWrite (u8 (given c s) 0) (hostEntryKey (given c s)) (u32 (given c s) 8) s = some v) :
    Writes (opHostEntry (effectiveCmd c s).replyMax.toNat) c (.hostEntry c) s fun t => t.fwd = v.fwd ∧
      ∃ k i r, hostFind t (u8 (given c s) 0) (hostEntryKey (given c s)) = some (k, i) ∧
        tabFind t.fwd.host (hostSlotKey (u8 (given c s) 0) k i) = some r ∧ r.key = hostEntryKey (given c s) ∧ r.result = u32 (given c s) 8 := by
  obtain ⟨b, i, alt, hslot, hwrite⟩ := hostWrite_writes hv
  obtain rfl : hostWritten (u8 (given c s) 0) (hostEntryKey (given c s)) (u32 (given c s) 8) b i alt s = v :=
    Option.some.inj ((hwrite s rfl).symm.trans hv)
  obtain ⟨u, hu⟩ : ∃ u, hostWritten (u8 (given c s) 0) (hostEntryKey (given c s)) (u32 (given c s) 8) b i alt (takenState c s) = u := ⟨_, rfl⟩
  have hfwd : u.fwd = _ := hu ▸ hostWritten_fwd (t := takenState c s) (s := s) alt rfl
  obtain ⟨hfind, hrow⟩ := hostFind_hostWritten (result := u32 (given c s) 8) alt hslot
  refine writes_of rfl fun _ => ⟨u, ?_, hu ▸ hostWritten_ended alt, hfwd, b, i, _, (hostFind_of_fwd hfwd).trans hfind,
    (congrArg (fun x : FwdState => tabFind x.host _) hfwd).trans hrow, rfl, rfl⟩
  have hput := hwrite (takenState c s) rfl
  rw [hu] at hput
  dsimp only
  simp only [hop, hput]
  rfl

section

variable {k i : Nat} {r : HostRow} (hfind : hostFind s (u8 (given c s) 0) (hostEntryKey (given c s)) = some (k, i))
  (hrow : tabFind s.fwd.host (hostSlotKey (u8 (given c s) 0) k i) = some r)
include hfind

theorem hostEntry_deletes (hop : u8 (given c s) 1 = 2) : Writes (opHostEntry (effectiveCmd c s).replyMax.toNat) c (.hostEntry c) s fun t =>
    tabFind t.fwd.host (hostSlotKey (u8 (given c s) 0) k i) = none := by
  have hfind' : hostFind (takenState c s) (u8 (given c s) 0) (hostEntryKey (given c s)) = some (k, i) := hfind
  have hleaves : ∀ u, (hostDelete (u8 (given c s) 0) (hostEntryKey (given c s)) k i u).host = u.host ∧
      tabFind (hostDelete (u8 (given c s) 0) (hostEntryKey (given c s)) k i u).fwd.host (hostSlotKey (u8 (given c s) 0) k i) = none := fun u => by
    unfold hostDelete
    dsimp only
    split
    · exact ⟨rfl, tabFind_del _ _⟩
    · exact ⟨rfl, tabFind_del _ _⟩
  obtain ⟨hhost, hgone⟩ := hleaves (takenState c s)
  refine writes_of rfl fun _ => ⟨hostDelete (u8 (given c s) 0) (hostEntryKey (given c s)) k i (takenState c s), ?_, ?_, hgone⟩
  · dsimp only
    simp only [hop, hfind']
    rfl
  · rw [hhost]
    rfl

include hrow

/-- READ and AGE answer the row; AGE clears its hit bit. -/
theorem hostEntry_answers (hop : u8 (given c s) 1 = 3 ∨ u8 (given c s) 1 = 4)
    (hpass : passes (opHostEntry (effectiveCmd c s).replyMax.toNat) c s = true) : Completes (.hostEntry c) s fun t =>
      answered (opHostEntry (effectiveCmd c s).replyMax.toNat) c .ok []
        (putField (putField (putField (given c s) 1 1 0) 2 1 (1 + 2 * b2n r.hit)) 8 4 r.result) s t ∧
      tabFind t.fwd.host (hostSlotKey (u8 (given c s) 0) k i) = some { r with hit := if u8 (given c s) 1 = 4 then false else r.hit } := by
  have hfind' : hostFind (takenState c s) (u8 (given c s) 0) (hostEntryKey (given c s)) = some (k, i) := hfind
  have hrow' : tabFind (takenState c s).fwd.host (hostSlotKey (u8 (given c s) 0) k i) = some r := hrow
  obtain hop | hop := hop
  · refine answers_of (u := takenState c s) rfl hpass ?_ rfl ?_
    · dsimp only
      simp only [hop, hfind', hrow']
      rfl
    · rw [hop]
      exact hrow
  · refine answers_of (u := modFwd (fun t =>
        { t with host := tabPut (hostSlotKey (u8 (given c s) 0) k i) { r with hit := false } t.host }) (takenState c s)) rfl hpass ?_ rfl ?_
    · dsimp only
      simp only [hop, hfind', hrow']
      rfl
    · rw [hop]
      exact tabFind_put _ _ _

end

end

/-! ### The FDB's command windows (R239 to R243) -/

section

variable {g : Pipe} {clear : Bool} {s : State}

/-- The window of a page that is open and idle once a command is written to it. -/
theorem startWindow_begins (n : Nat) (hopen : windowOpen s g.val = true) (hidle : (fwdPipe s g.val).window.busy = false) (hn : n ≠ 0) :
    (fwdPipe (startWindow g.val n clear s) g.val).window =
      { (fwdPipe s g.val).window with cmd := n + 32 * b2n clear, busy := true, done := false, kept := false } := by
  have hop : (n == 0) = false := beq_eq_false_iff_ne.mpr hn
  simp [startWindow, hopen, hidle, hop]

theorem startWindow_rejects (n : Nat) (hopen : windowOpen s g.val = true) (hbusy : (fwdPipe s g.val).window.busy = true) :
    (fwdPipe (startWindow g.val n clear s) g.val).window =
      { (fwdPipe s g.val).window with rejects := satAdd 32 (fwdPipe s g.val).window.rejects 1 } := by
  simp [startWindow, hopen, hbusy]

theorem startWindow_ignored (n : Nat) (hshut : windowOpen s g.val = false) : startWindow g.val n clear s = s := by
  simp [startWindow, hshut]

/-- Each command of a window is its operation begun. -/
theorem windowCommands_complete {P : Nat → State → Prop} (op : Fin 23) (h : ∀ n, n ≠ 0 → P n (startWindow g.val n clear s)) :
    Completes (.fdbCmdReadKey g clear) s (P 1) ∧ Completes (.fdbCmdReadIndex g clear) s (P 2) ∧ Completes (.fdbCmdInsert g clear) s (P 3) ∧
    Completes (.fdbCmdWrite g clear) s (P 4) ∧ Completes (.fdbCmdDelete g clear) s (P 5) ∧ Completes (.fdbCmdDeleteIfIdle g clear) s (P 6) ∧
    Completes (.fdbCmdAge g clear) s (P 7) ∧ Completes (.fdbCmdIterate g clear) s (P 8) ∧
    Completes (.fdbCmdInvalidOp g op clear) s (P (9 + op.val)) :=
  ⟨⟨_, rfl, h 1 (by decide)⟩, ⟨_, rfl, h 2 (by decide)⟩, ⟨_, rfl, h 3 (by decide)⟩, ⟨_, rfl, h 4 (by decide)⟩, ⟨_, rfl, h 5 (by decide)⟩,
    ⟨_, rfl, h 6 (by decide)⟩, ⟨_, rfl, h 7 (by decide)⟩, ⟨_, rfl, h 8 (by decide)⟩, ⟨_, rfl, h (9 + op.val) (by omega)⟩⟩

variable (reg : Fin 7) (x : BitVec 32)

theorem fdbWindowRegWrite_ignored (hshut : windowOpen s g.val = false) : Completes (.fdbWindowRegWrite g reg x) s fun t => t = s := by
  refine ⟨s, ?_, rfl⟩
  change execFdbWindowRegWrite g reg x s = _
  unfold execFdbWindowRegWrite
  rw [startWindow_ignored _ hshut, hshut]
  split
  · rfl
  · rfl

theorem fdbWindowRegWrite_writes (hopen : windowOpen s g.val = true) (hidle : (fwdPipe s g.val).window.busy = false) (hreg : reg.val ≠ 0) :
    Completes (.fdbWindowRegWrite g reg x) s fun t => (fwdPipe t g.val).window = windowReg reg.val x.toNat (fwdPipe s g.val).window := by
  have hop : ¬ (reg.val == 0) = true := by simpa using hreg
  have hshut : ¬ (!windowOpen s g.val) = true := by simp [hopen]
  refine ⟨_, (if_neg hop).trans (if_neg hshut), ?_⟩
  dsimp only
  rw [fwdPipe_modWindow]
  exact if_neg (Bool.eq_false_iff.mp hidle)

theorem fdbRejectsRead_reads (hopen : windowOpen s g.val = true) : Completes (.fdbRejectsRead g) s fun t =>
    t.out = .barRead (fwdPipe s g.val).window.rejects :: s.out ∧ (fwdPipe t g.val).window.rejects = 0 := by
  let u := modWindow g.val (fun w => { w with rejects := 0 }) s
  exact ⟨emit (.barRead (fwdPipe s g.val).window.rejects) u, if_pos hopen, rfl,
    congrArg (fun v : FwdPipe => v.window.rejects) (fwdPipe_modWindow g.val s fun w => { w with rejects := 0 })⟩

theorem fdbRejectsRead_zero (hshut : windowOpen s g.val = false) :
    Completes (.fdbRejectsRead g) s fun t => t = { s with out := .barRead 0 :: s.out } :=
  ⟨_, if_neg (Bool.eq_false_iff.mp hshut), rfl⟩

end

/-- Settles O25. That an LPM route below half of the room always fits is the model's choice (assumption 43). -/
theorem forwardingObjectsAndWindows : Obligations.ForwardingObjectsAndWindows := by
  refine ⟨fun c s => ?_, fun g clear op reg x s => ?_⟩
  · exact ⟨reads_of rfl fun _ => rfl, fdbLearnWrite_writes, reads_of rfl fun _ => rfl, fdbNotifyWrite_writes,
      starts_of rfl fun _ => ⟨_, rfl, rfl, rfl, rfl, rfl⟩, fun _ _ => fdbEntryRead_reads, reads_of rfl fun _ => rfl,
      fun hrights => fdbDelegateWrite_gives hrights, fun hrights => fdbDelegateWrite_ends hrights, fun _ => lpmRouteRead_reads,
      lpmRouteWrite_adds, lpmRouteWrite_deletes, reads_of rfl fun _ => rfl, hostLookupWrite_writes, fun _ hop hv => hostEntry_writes hop hv,
      fun _ _ _ hfind hrow => ⟨hostEntry_deletes hfind, hostEntry_answers hfind hrow⟩⟩
  · have hbegins := fun hopen hidle => windowCommands_complete (P := fun n t => (fwdPipe t g.val).window =
        { (fwdPipe s g.val).window with cmd := n + 32 * b2n clear, busy := true, done := false, kept := false })
      op fun n hn => startWindow_begins n hopen hidle hn
    have hrejects := fun hopen hbusy => windowCommands_complete (P := fun _ t => (fwdPipe t g.val).window =
        { (fwdPipe s g.val).window with rejects := satAdd 32 (fwdPipe s g.val).window.rejects 1 })
      op fun n _ => startWindow_rejects (clear := clear) n hopen hbusy
    have hignored := fun hshut => windowCommands_complete (P := fun _ t => t = s) op fun n _ => startWindow_ignored (g := g) (clear := clear) n hshut
    exact ⟨hbegins, hrejects, fun hshut => ⟨hignored hshut, fdbWindowRegWrite_ignored reg x hshut, fdbRejectsRead_zero hshut⟩,
      fdbWindowRegWrite_writes reg x, fdbRejectsRead_reads⟩

end Sys2Proof.Proofs
end

section
/-!
PROOFS. Power loops and ageing (O40): the control cycle and what its lanes and sensors follow, the regulator, gauges, margins and heat-work.
-/

namespace Sys2Proof.Proofs

open Sys2Proof Sys2Proof.Machine Sys2Proof.Laws

section

variable (b k i : Nat) (contain : Bool → State → State) (s : State)

theorem detect_pow : (detect b k i contain s).pow = (contain (injectedNow s b k i) s).pow := raiseFault_pow _ _ _ _ _

theorem detect_now : (detect b k i contain s).now = (contain (injectedNow s b k i) s).now := raiseFault_now _ _ _ _ _

end

/-! ### The control cycle (R412 to R416) -/

/-- What the actuators and watches of a control cycle leave alone: the cap, the measurements and the cycle's instant. -/
def cycleView (s : State) : Bytes × PowerIn × Option Nat := (s.pow.cap, s.pow.last, s.pow.cycle)

section

variable {s t : State}

theorem cycleView_of_pow (h : t.pow = s.pow) : cycleView t = cycleView s := by rw [cycleView, h, cycleView]

theorem cycleView_kiln (code : Nat) (fs : List (Nat × Nat)) (s : State) : cycleView (kiln code fs s) = cycleView s := cycleView_of_pow (kiln_pow _ _ _)

theorem cycleView_setPartitions (l : List Nat) (n : State → Nat → Nat) (s : State) :
    cycleView (l.foldl (fun s k => setPartitionN k (n s k) s) s) = cycleView s := foldl_keeps cycleView fun _ _ _ => rfl

theorem cycleView_noteThermal (s : State) : cycleView (noteThermal s) = cycleView s := by
  unfold noteThermal
  split
  · dsimp only
    split
    · rw [cycleView_kiln]
      rfl
    · rfl
  · rfl

theorem cycleView_watchFloor (x : Int) (m : PowerIn) (s : State) : cycleView (watchFloor x m s) = cycleView s := by
  unfold watchFloor
  dsimp only
  split
  · split
    · rw [cycleView_kiln]
      rfl
    · rfl
  · split
    · rfl
    · split
      · rfl
      · refine (cycleView_of_pow ((detect_pow _ _ _ _ _).trans (kilnInj_pow _ _ _ _))).trans ?_
        rfl

theorem cycleView_stepCompute (m : PowerIn) (thermal : Bool) (x : Nat) (s : State) : cycleView (stepCompute m thermal x s).2 = cycleView s := by
  unfold stepCompute
  dsimp only
  split
  · rfl
  · exact foldl_keeps cycleView fun _ _ _ => rfl

theorem cycleView_stepMemory (m : PowerIn) (x : Nat) (s : State) : cycleView (stepMemory m x s).2 = cycleView s := by
  unfold stepMemory
  dsimp only
  generalize (if (m.memStep == 0) = true then 0 else _) = n
  split
  · rfl
  · rfl

theorem cycleView_stepLinks (x : Nat) (s : State) : cycleView (stepLinks x s).2 = cycleView s := by
  unfold stepLinks
  dsimp only
  split
  · rfl
  · split
    · rfl
    · rfl

theorem cycleView_reduceClass (m : PowerIn) (thermal : Bool) (a : Int × State) (cls : Nat) :
    cycleView (reduceClass m thermal a cls).2 = cycleView a.2 := by
  unfold reduceClass
  dsimp only
  split
  · rfl
  · split
    · rfl
    · split
      · exact cycleView_stepCompute _ _ _ _
      · exact cycleView_stepMemory _ _ _
      · exact cycleView_stepLinks _ _

theorem cycleView_releaseStep (s : State) : cycleView (releaseStep s) = cycleView s := by
  unfold releaseStep
  split
  · rfl
  · rfl
  · split
    · rfl
    · rfl
  · rfl

theorem cycleView_acts {holds releases : Prop} [Decidable holds] [Decidable releases] (m : PowerIn) (thermal : Bool) (x : Int) (s : State) :
    cycleView (if holds then s else if x > 0 then ((reduceOrder s).foldl (reduceClass m thermal) (x, s)).2
      else if releases then releaseStep s else s) = cycleView s := by
  split
  · rfl
  · split
    · exact foldl_keeps (fun a : Int × State => cycleView a.2) fun a cls _ => cycleView_reduceClass m thermal a cls
    · split
      · exact cycleView_releaseStep s
      · rfl

/-- A control cycle keeps what it has measured, and its real time. -/
theorem controlCycle_measures (m : PowerIn) (s : State) :
    cycleView (controlCycle m s) = (s.pow.cap, m, s.pow.cycle) ∧ (controlCycle m s).pow.cycleAt = s.now := by
  obtain ⟨s0, hs0⟩ : ∃ s0, (livePartitions s).foldl (fun s k => setPartitionN k (partitionN s k) s) (noteThermal s) = s0 := ⟨_, rfl⟩
  have hkept : cycleView s0 = cycleView s := by rw [← hs0, cycleView_setPartitions, cycleView_noteThermal]
  obtain ⟨hcap, hrest⟩ := Prod.mk.inj hkept
  obtain ⟨-, hcycle⟩ := Prod.mk.inj hrest
  have hwatched : ∀ x a e, cycleView (watchFloor x m (modPow (fun t => { t with atFloor := a, last := m, capEff := e }) s0)) =
      (s.pow.cap, m, s.pow.cycle) := fun x a e => by
    rw [cycleView_watchFloor, ← hcap, ← hcycle]
    rfl
  unfold controlCycle
  dsimp only
  rw [hs0]
  refine ⟨?_, rfl⟩
  generalize hw : watchFloor _ m (modPow _ s0) = s1
  have hs1 : cycleView s1 = (s.pow.cap, m, s.pow.cycle) := hw ▸ hwatched _ _ _
  generalize hacts : (if (s1.time.switch.phase != .idle) = true then s1 else _) = s2
  refine Eq.trans (b := cycleView s2) rfl (Eq.trans ?_ hs1)
  rw [← hacts]
  exact cycleView_acts m _ _ s1

end

section

variable {q : Quad} {d : Domain'} {i : Fin 512} {m : PowerIn} {s : State}

/-- The cycle that the first firing of an instant runs. -/
def cycleRun (q d i : Nat) (m : PowerIn) (s : State) : State :=
  controlCycle m (modPow (fun t => { t with cycle := instantOn (entryOf s d i) q, cycleSeen := [] }) (fireEntry q d i s))

/-- Die `q` notes the firing of its entry for partition `k`, and arms the fraction of that partition if it is its own. -/
def cycleNoted (q k : Nat) (s : State) : State :=
  let s3 := modPow (fun t => { t with cycleSeen := (4 * q + k) :: t.cycleSeen }) s
  if k == partitionOf s3 q then modPow (fun t => { t with armed := tabSet 0 q (partitionN s3 (partitionOf s3 q)) t.armed }) s3 else s3

theorem cycleRun_measures (q d i : Nat) (m : PowerIn) (s : State) :
    (cycleRun q d i m s).pow.cap = s.pow.cap ∧ (cycleRun q d i m s).pow.last = m ∧
    (cycleRun q d i m s).pow.cycle = instantOn (entryOf s d i) q ∧ (cycleRun q d i m s).pow.cycleAt = s.now := by
  obtain ⟨u, hu⟩ : ∃ u, fireEntry q d i s = u := ⟨_, rfl⟩
  have hkept : Keeps [.time, .flt] s u := hu ▸ keeps_fireEntry q d i s
  have hpow : u.pow = s.pow := hkept.same .pow rfl
  have hnow : u.now = s.now := hkept.same .now rfl
  obtain ⟨hview, hat⟩ := controlCycle_measures m (modPow (fun t => { t with cycle := instantOn (entryOf s d i) q, cycleSeen := [] }) u)
  obtain ⟨hcap, hrest⟩ := Prod.mk.inj hview
  obtain ⟨hlast, hcycle⟩ := Prod.mk.inj hrest
  have hcap : _ = u.pow.cap := hcap
  have hat : _ = u.now := hat
  rw [cycleRun, hu, ← hpow, ← hnow]
  exact ⟨hcap, hlast, hcycle, hat⟩

/-- A note of the firing arms the die's own partition and measures nothing. -/
theorem cycleNoted_arms (q k : Nat) (s : State) : (cycleNoted q k s).pow.last = s.pow.last ∧ (cycleNoted q k s).pow.cycle = s.pow.cycle ∧
    (cycleNoted q k s).pow.cycleAt = s.pow.cycleAt ∧
    (k = partitionOf s q → tabGet 0 (cycleNoted q k s).pow.armed q = partitionN (cycleNoted q k s) (partitionOf (cycleNoted q k s) q)) := by
  unfold cycleNoted
  dsimp only
  split
  next => exact ⟨rfl, rfl, rfl, fun _ => tabGet_set _ _ _ _⟩
  next hk => exact ⟨rfl, rfl, rfl, fun h => absurd (beq_iff_eq.mpr h) hk⟩

theorem exec_powerCycle (hfires : powerFires s q.val d.val i.val 0 = true) (htakes : icouxTakes s = true)
    (hcycle : s.pow.cycle ≠ instantOn (entryOf s d.val i.val) q.val) : exec (.powerCycle q d i m) s =
      .next (cycleNoted q.val (entryTarget (entryOf s d.val i.val)) (cycleRun q.val d.val i.val m s)) := by
  have hfirst : (icouxTakes s && ((fireEntry q.val d.val i.val s).pow.cycle != instantOn (entryOf s d.val i.val) q.val ||
      (fireEntry q.val d.val i.val s).pow.cycleSeen.contains (4 * q.val + entryTarget (entryOf s d.val i.val)))) = true := by
    rw [(keeps_fireEntry _ _ _ _).same .pow rfl, htakes, bne_iff_ne.mpr hcycle]
    rfl
  refine (if_pos hfires).trans ?_
  rw [if_pos hfirst]
  rfl

theorem powerCycle_completes (hfires : powerFires s q.val d.val i.val 0 = true) (htakes : icouxTakes s = true)
    (hcycle : s.pow.cycle ≠ instantOn (entryOf s d.val i.val) q.val) : Completes (.powerCycle q d i m) s fun t =>
      t.pow.last = m ∧ t.pow.cycleAt = s.now ∧ t.pow.cycle = instantOn (entryOf s d.val i.val) q.val ∧
      (entryTarget (entryOf s d.val i.val) = partitionOf s q.val → tabGet 0 t.pow.armed q.val = partitionN t (partitionOf t q.val)) := by
  obtain ⟨u, hu⟩ : ∃ u, cycleRun q.val d.val i.val m s = u := ⟨_, rfl⟩
  have hmeasures := cycleRun_measures q.val d.val i.val m s
  rw [hu] at hmeasures
  obtain ⟨hcap, hlast, hinstant, hat⟩ := hmeasures
  obtain ⟨hlast', hinstant', hat', harmed⟩ := cycleNoted_arms q.val (entryTarget (entryOf s d.val i.val)) u
  have hpartition : partitionOf u q.val = partitionOf s q.val := by rw [partitionOf, powerCap, hcap, ← powerCap, ← partitionOf]
  refine ⟨_, hu ▸ exec_powerCycle hfires htakes hcycle, hlast'.trans hlast, hat'.trans hat, hinstant'.trans hinstant, fun hown => ?_⟩
  exact harmed (hown.trans hpartition.symm)

theorem bubbleFrameStart_completes : Completes (.bubbleFrameStart q) s fun t => tabGet 0 t.pow.inForce q.val = tabGet 0 s.pow.armed q.val ∧
    (tabGet 0 s.pow.armed q.val ≠ 0 → tabFind t.pow.bubbleAt (partitionOf s q.val) = some (stampTotal (datapathStamp s q.val))) := by
  refine ⟨_, rfl, tabGet_set _ _ _ _, fun hn => ?_⟩
  have hbubbles : ¬ (tabGet 0 s.pow.armed q.val == 0) = true := by simpa using hn
  exact (congrArg (fun m : Store Nat => tabFind m (partitionOf s q.val)) (if_neg hbubbles)).trans (tabFind_put _ _ _)

end

/-! ### Lanes under the link level (R406) -/

section

variable {l : Lane} {height : Nat} {s : State}

theorem laneEqStep_completes (hactive : laneState s l.val = 7) (hmode : (laneOf s l.val).modeInUse ≠ wantedMode s l.val) :
    Completes (.laneEqStep l) s fun t => (laneOf t l.val).modeInUse = wantedMode s l.val ∧
      ((laneOf t l.val).eqReduced = true ↔ laneMode s l.val < wantedMode s l.val) := by
  have hsteps : ¬ (laneState s l.val != 7 || (laneOf s l.val).modeInUse == wantedMode s l.val) = true := by simp [hactive, hmode]
  refine ⟨_, if_neg hsteps, ?_⟩
  dsimp only
  rw [laneOf_of_lane (modPow_lane _ _), laneOf_modLane]
  exact ⟨rfl, decide_eq_true_iff⟩

variable {a : Nat} (ha : (laneOf s l.val).stepAt = some a)
include ha

theorem laneStepCheck_returns (hlow : height * 100 < (laneOf s l.val).reference.getD 0 * u8 (powerCap s) 17) :
    Completes (.laneStepCheck l height) s fun t => (laneOf t l.val).modeInUse = laneMode s l.val ∧ (laneOf t l.val).stepAt = none ∧
      a + tMs ≤ t.now ∧ (laneAge t l.val).barredUntil = t.now + 86400 * tSec ∧ logged 0x0D0C t := by
  let u := modPow (fun t => { t with steps := tabDel l.val t.steps }) (modLane l.val (fun v => { v with modeInUse := laneMode s l.val, eqReduced := false })
    (modLane l.val (fun v => { v with stepAt := none }) (reach (a + tMs) s)))
  have hlane : laneOf u l.val = { laneOf s l.val with stepAt := none, modeInUse := laneMode s l.val, eqReduced := false } := by
    rw [laneOf_of_lane (modPow_lane _ _), laneOf_modLane, laneOf_modLane, laneOf_of_lane (reach_lane _ _)]
  have hexec : exec (.laneStepCheck l height) s = .next (kiln 0x0D0C [(2, l.val), (2, height)]
      (setLaneAge l.val { laneAge u l.val with barredUntil := u.now + 86400 * tSec } u)) := by
    change execLaneStepCheck l height s = _
    simp only [execLaneStepCheck, ha, if_pos hlow]
    rfl
  have hage : ∀ v : LaneAge, laneAge (kiln 0x0D0C [(2, l.val), (2, height)] (setLaneAge l.val v u)) l.val = v := fun v => by
    rw [laneAge, kiln_pow]
    exact tabGet_set _ _ _ _
  have hlane' : ∀ v : LaneAge, laneOf (kiln 0x0D0C [(2, l.val), (2, height)] (setLaneAge l.val v u)) l.val = laneOf u l.val := fun _ =>
    (laneOf_kiln _ _ _).trans (laneOf_of_lane (modPow_lane _ _) _)
  refine ⟨_, hexec, ?_, ?_, ?_, ?_, kiln_head _ _ _⟩
  · rw [hlane', hlane]
  · rw [hlane', hlane]
  · rw [kiln_now]
    exact le_reach_now _ _
  · rw [hage, kiln_now]
    rfl

theorem laneStepCheck_stays (hhigh : (laneOf s l.val).reference.getD 0 * u8 (powerCap s) 17 ≤ height * 100) :
    Completes (.laneStepCheck l height) s fun t => (laneOf t l.val).modeInUse = (laneOf s l.val).modeInUse ∧
      (laneOf t l.val).stepAt = none ∧ a + tMs ≤ t.now := by
  have hexec : exec (.laneStepCheck l height) s = .next (modLane l.val (fun v => { v with stepAt := none }) (reach (a + tMs) s)) := by
    change execLaneStepCheck l height s = _
    simp only [execLaneStepCheck, ha, if_neg (Nat.not_lt.mpr hhigh)]
  refine ⟨_, hexec, ?_, ?_, le_reach_now _ _⟩
  · rw [laneOf_modLane, laneOf_of_lane (reach_lane _ _)]
  · rw [laneOf_modLane]

end

/-! ### Energy (R408) -/

section

variable {q : Quad} {k : Fin 3} {scale other : Nat} {s : State}

/-- What the measurements of a second leave: the class's scale in its range, and the energy that no class explains. -/
def scaleSet (q k v other : Nat) (s : State) : State :=
  addEnergy 4 q other (modPow (fun t => { t with scales := tabSet 65536 (4 * q + k) v t.scales }) s)

theorem energyCalibration_completes (htakes : icouxTakes s = true) : Completes (.energyCalibration q k scale other) s fun t =>
    energyScale t q.val k.val = max 52429 (min 81920 scale) ∧ (max 52429 (min 81920 scale) ≠ scale → raised 53 0 0 s t) := by
  let v := max 52429 (min 81920 scale)
  let u := if v != scale then raiseFault 53 0 0 false (scaleSet q.val k.val v other s) else scaleSet q.val k.val v other s
  let w := if (max (energyScale s q.val k.val) v - min (energyScale s q.val k.val) v) * 20 > energyScale s q.val k.val then
    kiln 0x0D08 [(1, q.val), (1, k.val), (4, v)] u else u
  have hexec : exec (.energyCalibration q k scale other) s = .next w := if_neg (by simp [htakes])
  have hscaled : u.pow = (scaleSet q.val k.val v other s).pow := by
    unfold u
    split
    · exact raiseFault_pow _ _ _ _ _
    · rfl
  have hpow : w.pow = u.pow := by
    unfold w
    split
    · exact kiln_pow _ _ _
    · rfl
  have hinFlight : w.flt.inFlight = u.flt.inFlight := by
    unfold w
    split
    · exact kiln_flt_inFlight _ _ _
    · rfl
  refine ⟨w, hexec, ?_, fun hne => ?_⟩
  · rw [energyScale, hpow, hscaled]
    exact tabGet_set 65536 _ _ _
  · have hraises : u = raiseFault 53 0 0 false (scaleSet q.val k.val v other s) := if_pos (bne_iff_ne.mpr hne)
    have hquiet : (scaleSet q.val k.val v other s).flt = s.flt := rfl
    have hraised := raised_raiseFault (s := s) (congrArg FaultState.inFlight hquiet) 53 0 0 false
    rw [raised, hinFlight, hraises]
    exact hraised

end

/-! ### Temperature (R415 to R417) -/

/-- Sensor `i` of die `die`, whose first sensor is `a`, reads its value of `vals`. -/
def sampleAt (die a : Nat) (vals : List Int) (s : State) (i : Nat) : State :=
  let old := sensorOf s (a + i)
  let x := sampleSensor s.now vals old (vals.getD i 0)
  let bad := !old.excluded && sensorBad s.now vals i x
  let x' := { x with excluded := old.excluded || bad }
  let s1 := modPow (fun t => { t with sensors := tabSet {} (a + i) x' t.sensors }) s
  let s2 := if bad then detect 54 0 0 (fun inj s => kilnInj inj 0x0D06 [(1, die), (1, i)] s) s1 else s1
  if !x'.excluded && x'.value > 105 * degree && (old.value ≤ 105 * degree) then raiseFault 54 0 0 false s2 else s2

section

variable (die a i : Nat) (vals readings : List Int) (s : State)

theorem sampleDie_eq : sampleDie readings die s = (List.range (dieSensors die).2).foldl
    (sampleAt die (dieSensors die).1 ((List.range (dieSensors die).2).map fun i => readings.getD ((dieSensors die).1 + i) 0)) s := rfl

theorem sampleSensor_value (now : Nat) (x : Sensor) (v : Int) : (sampleSensor now vals x v).value = v := by
  unfold sampleSensor
  split
  next => rfl
  next h =>
    simp only [Bool.or_eq_true, not_or, bne_iff_ne, ne_eq, not_not] at h
    exact h.2.symm

theorem sampleAt_leaves : (sampleAt die a vals s i).now = s.now ∧ ∃ x : Sensor, x.value = vals.getD i 0 ∧
    ((sensorOf s (a + i)).excluded = true → x.excluded = true) ∧
    (sampleAt die a vals s i).pow = { s.pow with sensors := tabSet {} (a + i) x s.pow.sensors } := by
  let old := sensorOf s (a + i)
  let x := sampleSensor s.now vals old (vals.getD i 0)
  let bad := !old.excluded && sensorBad s.now vals i x
  let x' := { x with excluded := old.excluded || bad }
  let s1 := modPow (fun t => { t with sensors := tabSet {} (a + i) x' t.sensors }) s
  let s2 := if bad then detect 54 0 0 (fun inj s => kilnInj inj 0x0D06 [(1, die), (1, i)] s) s1 else s1
  have hbad : s2.now = s1.now ∧ s2.pow = s1.pow := by
    unfold s2
    split
    · exact ⟨(detect_now _ _ _ _ _).trans (kilnInj_now _ _ _ _), (detect_pow _ _ _ _ _).trans (kilnInj_pow _ _ _ _)⟩
    · exact ⟨rfl, rfl⟩
  have hhot : (sampleAt die a vals s i).now = s2.now ∧ (sampleAt die a vals s i).pow = s2.pow := by
    unfold sampleAt
    dsimp only
    split
    · exact ⟨raiseFault_now _ _ _ _ _, raiseFault_pow _ _ _ _ _⟩
    · exact ⟨rfl, rfl⟩
  exact ⟨hhot.1.trans hbad.1, x', sampleSensor_value _ _ _ _, fun h => Bool.or_eq_true_iff.mpr (.inl h), hhot.2.trans hbad.2⟩

theorem sampleAt_value : (sensorOf (sampleAt die a vals s i) (a + i)).value = vals.getD i 0 := by
  obtain ⟨-, x, hvalue, -, hpow⟩ := sampleAt_leaves die a i vals s
  rw [sensorOf, hpow, tabGet_set, hvalue]

theorem sensorOf_sampleAt_ne {j : Nat} (h : j ≠ a + i) : sensorOf (sampleAt die a vals s i) j = sensorOf s j := by
  obtain ⟨-, x, -, -, hpow⟩ := sampleAt_leaves die a i vals s
  rw [sensorOf, hpow, tabGet_set_ne _ _ h, sensorOf]

/-- A sensor that is excluded stays so. -/
theorem sampleAt_excluded {j : Nat} (h : (sensorOf s j).excluded = true) : (sensorOf (sampleAt die a vals s i) j).excluded = true := by
  by_cases hj : j = a + i
  · obtain ⟨-, x, -, hexcluded, hpow⟩ := sampleAt_leaves die a i vals s
    rw [sensorOf, hpow, hj, tabGet_set]
    exact hexcluded (hj ▸ h)
  · rw [sensorOf_sampleAt_ne _ _ _ _ _ hj, h]

theorem sampleDie_now : (sampleDie readings die s).now = s.now := by
  rw [sampleDie_eq]
  exact foldl_keeps State.now fun s i _ => (sampleAt_leaves _ _ i _ s).1

theorem sampleDie_excluded {j : Nat} (h : (sensorOf s j).excluded = true) : (sensorOf (sampleDie readings die s) j).excluded = true := by
  rw [sampleDie_eq]
  exact List.foldlRecOn (motive := fun s => (sensorOf s j).excluded = true) _ _ h fun s hs i _ => sampleAt_excluded _ _ i _ s hs

/-- The sensors of a die read their values, and the others keep theirs. -/
theorem sampleDie_value (j : Nat) : (sensorOf (sampleDie readings die s) j).value =
    if (dieSensors die).1 ≤ j ∧ j < (dieSensors die).1 + (dieSensors die).2 then readings.getD j 0 else (sensorOf s j).value := by
  obtain ⟨a, ha⟩ : ∃ a, (dieSensors die).1 = a := ⟨_, rfl⟩
  obtain ⟨n, hn⟩ : ∃ n, (dieSensors die).2 = n := ⟨_, rfl⟩
  obtain ⟨vals, hvals⟩ : ∃ vals, (List.range n).map (fun i => readings.getD (a + i) 0) = vals := ⟨_, rfl⟩
  rw [sampleDie_eq, ha, hn, hvals]
  split
  next hj =>
    obtain ⟨i, rfl⟩ := Nat.exists_eq_add_of_le hj.1
    have hi : i < n := by omega
    have hread := foldl_places (l := List.range n) (op := sampleAt die a vals) (read := fun s i => (sensorOf s (a + i)).value)
      (val := fun i _ => vals.getD i 0) (I := fun _ => True) (fun _ _ _ => trivial) (fun s i _ => sampleAt_value die a i vals s)
      (fun s i k h => by rw [sensorOf_sampleAt_ne die a i vals s (by omega : a + k ≠ a + i)]) List.nodup_range trivial (s := s) i
    rw [if_pos (List.mem_range.mpr hi)] at hread
    rw [hread, ← hvals, List.getD_eq_getElem _ _ (by simpa using hi)]
    simp
  next hj =>
    refine foldl_keeps (fun s => (sensorOf s j).value) fun s i hi => ?_
    have hi := List.mem_range.mp hi
    rw [sensorOf_sampleAt_ne die a i vals s (by omega)]

/-- The sample is over: its real time, and the stacks that refresh twice as often. -/
def sampled (now : Nat) (u : State) : State :=
  modPow (fun t => { t with
    sampleAt := now
    hotStacks := (List.range 4).filter fun k => match dieTemp u (12 + k) with | some v => v > 85 * degree | none => false }) u

/-- Each sensor belongs to its die. -/
theorem sensorDie_holds {n : Nat} (h : n < 116) : sensorDie n < 16 ∧ (dieSensors (sensorDie n)).1 ≤ n ∧
    n < (dieSensors (sensorDie n)).1 + (dieSensors (sensorDie n)).2 := by
  by_cases hcore : n < 80
  · have hdie : sensorDie n = n / 20 := if_pos hcore
    have hsensors : dieSensors (n / 20) = (20 * (n / 20), 20) := if_pos (by omega)
    rw [hdie, hsensors]
    omega
  · by_cases hlane : n < 112
    · have hdie : sensorDie n = 4 + (n - 80) / 4 := (if_neg hcore).trans (if_pos hlane)
      have hsensors : dieSensors (4 + (n - 80) / 4) = (80 + 4 * (4 + (n - 80) / 4 - 4), 4) := (if_neg (by omega)).trans (if_pos (by omega))
      rw [hdie, hsensors]
      omega
    · have hdie : sensorDie n = n - 100 := (if_neg hcore).trans (if_neg hlane)
      have hsensors : dieSensors (n - 100) = (112 + (n - 100 - 12), 1) := (if_neg (by omega)).trans (if_neg (by omega))
      rw [hdie, hsensors]
      omega

theorem tempSample_completes : Completes (.tempSample readings) s fun t => (∀ n, n < 116 → (sensorOf t n).value = readings.getD n 0 ∧
    ((sensorOf s n).excluded = true → (sensorOf t n).excluded = true)) ∧ s.pow.sampleAt + 100 * tUs ≤ t.now ∧ t.pow.sampleAt = t.now := by
  obtain ⟨u, hu⟩ : ∃ u, (List.range 16).foldl (fun s d => sampleDie readings d s) (reach (s.pow.sampleAt + 100 * tUs) s) = u := ⟨_, rfl⟩
  have hnow : u.now = (reach (s.pow.sampleAt + 100 * tUs) s).now := hu ▸ foldl_keeps State.now fun s d _ => sampleDie_now d readings s
  have hvalue : ∀ n, n < 116 → (sensorOf u n).value = readings.getD n 0 := fun n hn => by
    obtain ⟨hdie, hin⟩ := sensorDie_holds hn
    rw [← hu]
    refine foldl_reaches (op := fun s d => sampleDie readings d s) (P := fun _ => True) (Q := fun s => (sensorOf s n).value = readings.getD n 0)
      (p := sensorDie n) (fun s _ => ?_) (fun _ _ _ _ => trivial) (fun s d hs => ?_) (List.mem_range.mpr hdie) trivial
    · rw [sampleDie_value, if_pos hin]
    · rw [sampleDie_value, hs, ite_self]
  have hexcluded : ∀ n, (sensorOf s n).excluded = true → (sensorOf u n).excluded = true := fun n h => by
    rw [← hu]
    exact List.foldlRecOn (motive := fun s => (sensorOf s n).excluded = true) _ _ h fun s hs d _ => sampleDie_excluded d readings s hs
  have hexec : exec (.tempSample readings) s = .next (sampled (reach (s.pow.sampleAt + 100 * tUs) s).now u) := hu ▸ rfl
  refine ⟨_, hexec, fun n hn => ⟨hvalue n hn, hexcluded n⟩, ?_, hnow.symm⟩
  exact (le_reach_now _ s).trans hnow.ge

end

theorem thermalTrip_completes {die : Fin 12} {sensor : Fin 20} {s : State} (hsensor : sensor.val < (dieSensors die.val).2)
    (hpowered : s.boot.powered = true) : Completes (.thermalTrip die sensor) s fun t => t.boot.tripped = true ∧
      t.boot.tripRecord = some (s.boot.tripRecord.getD (toLe 1 die.val ++ toLe 1 sensor.val)) ∧ t.out = .pin pinThermtrip false :: s.out ∧
      t.host = State.reset.host ∧ t.fr = State.reset.fr ∧ t.boot.slots = s.boot.slots := by
  have htrips : ¬ ((dieSensors die.val).2 ≤ sensor.val || !s.boot.powered) = true := by simp [hsensor, hpowered]
  exact ⟨_, if_neg htrips, rfl, rfl, rfl, rfl, rfl, rfl⟩

/-! ### Core voltage (R418 to R420; what an event of the regulator carries is the model's choice, assumption 91) -/

section

variable {mv cmd st : Nat} {s : State}

theorem abandonRaise_idle (h : s.time.switch.phase ≠ .raising) : abandonRaise s = s := if_neg (by simpa using h)

/-- A voltage fault with no change that waits for the voltage. -/
theorem avsFault_raises (h : s.time.switch.phase ≠ .raising) : raised 55 0 0 s (avsFault cmd st s) ∧ logged 0x0D07 (avsFault cmd st s) ∧
    (avsFault cmd st s).pow = s.pow := by
  obtain ⟨u, hu⟩ : ∃ u, detect 55 0 0 (fun inj s => kilnInj inj 0x0D07 [(1, cmd), (1, st),
      (2, max s.pow.avs.target s.pow.avs.reported - min s.pow.avs.target s.pow.avs.reported)] s) s = u := ⟨_, rfl⟩
  have htime : u.time = s.time := hu ▸ (detect_time _ _ _ _ _).trans (kilnInj_time _ _ _ _)
  have hfault : avsFault cmd st s = u := (congrArg abandonRaise hu).trans (abandonRaise_idle (by rwa [htime]))
  rw [hfault, ← hu]
  exact ⟨raised_detect (fun inj => kilnInj_flt_inFlight _ _ _ _) _ _ _, detect_logged fun _ => kilnInj_head _ _ _ _,
    (detect_pow _ _ _ _ _).trans (kilnInj_pow _ _ _ _)⟩

theorem raiseDone_idle (h : s.time.switch.phase ≠ .raising) : raiseDone s = s := by
  have hphase : (s.time.switch.phase == .raising) = false := beq_eq_false_iff_ne.mpr h
  simp [raiseDone, hphase]

/-- The regulator's answer as Icoux notes it. -/
def avsNoted (mv : Nat) (s : State) : State := modPow (fun t => { t with avs := { t.avs with reported := mv, failed := 0 } }) s

variable (htakes : icouxTakes s = true) (hphase : s.time.switch.phase ≠ .raising)
include htakes

theorem avsTimeout_counts (hfew : s.pow.avs.failed < 2) : Completes (.avsTimeout cmd st) s fun t =>
    t.pow.avs.failed = s.pow.avs.failed + 1 ∧ t.flt = s.flt := by
  have hstays : ¬ (!icouxTakes s) = true := by simp [htakes]
  exact ⟨_, (if_neg hstays).trans (if_pos (by omega)), rfl, rfl⟩

include hphase

theorem avsResponse_steps (hclose : max s.pow.avs.target mv - min s.pow.avs.target mv ≤ 15) : Completes (.avsResponse mv false cmd st) s fun t =>
    t.pow.avs.reported = mv ∧ t.pow.avs.failed = 0 ∧
    t.pow.avs.target = if mv = s.pow.avs.target then nextTarget s.pow.avs.target (avsWant s) else s.pow.avs.target := by
  have hstays : ¬ (!icouxTakes s) = true := by simp [htakes]
  have hnear : ¬ (false || decide (max s.pow.avs.target mv - min s.pow.avs.target mv > 15)) = true := by
    rw [Bool.false_or, decide_eq_true_eq]
    omega
  have hdone : raiseDone (avsNoted mv s) = avsNoted mv s := raiseDone_idle hphase
  have hexec : exec (.avsResponse mv false cmd st) s = .next (if mv == s.pow.avs.target then
      modPow (fun t => { t with avs := { t.avs with target := nextTarget s.pow.avs.target (avsWant (raiseDone (avsNoted mv s))) } })
        (raiseDone (avsNoted mv s)) else raiseDone (avsNoted mv s)) := (if_neg hstays).trans (if_neg hnear)
  rw [hdone] at hexec
  refine ⟨_, hexec, ?_⟩
  by_cases hmv : mv = s.pow.avs.target
  · have hmv' : (mv == s.pow.avs.target) = true := beq_iff_eq.mpr hmv
    rw [if_pos hmv', if_pos hmv]
    exact ⟨rfl, rfl, rfl⟩
  · have hmv' : ¬ (mv == s.pow.avs.target) = true := by simpa using hmv
    rw [if_neg hmv', if_neg hmv]
    exact ⟨rfl, rfl, rfl⟩

theorem avsResponse_faults : Completes (.avsResponse mv true cmd st) s fun t =>
    raised 55 0 0 s t ∧ logged 0x0D07 t ∧ t.pow.avs.target = s.pow.avs.target := by
  have hstays : ¬ (!icouxTakes s) = true := by simp [htakes]
  obtain ⟨hraised, hlogged, hpow⟩ := avsFault_raises (cmd := cmd) (st := st) (s := avsNoted mv s) hphase
  refine ⟨avsFault cmd st (avsNoted mv s), (if_neg hstays).trans (if_pos rfl), hraised, hlogged, ?_⟩
  rw [hpow]
  rfl

theorem avsTimeout_faults (hthird : 2 ≤ s.pow.avs.failed) : Completes (.avsTimeout cmd st) s fun t =>
    raised 55 0 0 s t ∧ t.pow.avs.failed = 0 ∧ logged 0x0D07 t := by
  have hstays : ¬ (!icouxTakes s) = true := by simp [htakes]
  obtain ⟨hraised, hlogged, -⟩ := avsFault_raises (cmd := cmd) (st := st) hphase
  obtain ⟨u, hu⟩ : ∃ u, avsFault cmd st s = u := ⟨_, rfl⟩
  rw [hu] at hraised hlogged
  have hexec : exec (.avsTimeout cmd st) s = .next (modPow (fun t => { t with avs := { t.avs with
      failed := 0, target := if t.avs.reported == 0 then t.avs.target else t.avs.reported } }) u) :=
    hu ▸ (if_neg hstays).trans (if_neg (by omega))
  exact ⟨_, hexec, hraised, rfl, hlogged⟩

end

/-! ### Gauges and margins (R421, R423, R424) -/

section

variable {q : Quad} {d : Domain'} {i : Fin 512} {s : State}

theorem guardReplan_gauges (s : State) : (guardReplan s).pow.gauges = s.pow.gauges := by
  have hplan : ∀ slow q, (planVdd false slow q s).pow.gauges = s.pow.gauges := fun slow q => by
    unfold planVdd
    dsimp only
    split
    · rw [raiseFault_pow]
      rfl
    · rfl
  unfold guardReplan
  dsimp only
  split
  · rfl
  · refine (congrArg PowerState.gauges (kiln_pow _ _ _)).trans (hplan _ _)

/-- An epoch excludes every gauge that reads below zero, and keeps the worst of the last ten epochs. -/
theorem gaugeEpoch_gauges (q : Nat) (ppm : List Int) (s : State) : ∃ bad worst, (∀ n, n < 64 → ppm.getD n 0 < 0 →
      n ∉ (gaugesOf s q).excluded → n ∈ bad) ∧
    gaugesOf (gaugeEpoch q ppm s) q = { excluded := (gaugesOf s q).excluded ++ bad, worst := (worst :: (gaugesOf s q).worst).take 10 } := by
  refine ⟨_, _, fun n hn hneg hfree => ?_, tabGet_set _ _ _ _⟩
  refine List.mem_filter.mpr ⟨List.mem_range.mpr hn, ?_⟩
  have hval : ((List.range 64).map fun i => ppm.getD i 0).getD n 0 = ppm.getD n 0 := by
    rw [List.getD_eq_getElem _ _ (by simpa using hn)]
    simp
  simp only [Bool.and_eq_true, Bool.not_eq_true', Bool.or_eq_true, decide_eq_true_eq]
  exact ⟨by simpa using hfree, .inl (by rw [hval]; exact hneg)⟩

theorem gaugeEpoch_completes {ppm : List Int} (hfires : powerFires s q.val d.val i.val 1 = true) (htakes : icouxTakes s = true)
    (hown : entryTarget (entryOf s d.val i.val) = partitionOf s q.val) : Completes (.gaugeEpoch q d i ppm) s fun t =>
      (∀ n, n < 64 → ppm.getD n 0 < 0 → n ∈ (gaugesOf t q.val).excluded) ∧
      (∀ n ∈ (gaugesOf s q.val).excluded, n ∈ (gaugesOf t q.val).excluded) ∧
      (gaugesOf t q.val).worst.length = min 10 ((gaugesOf s q.val).worst.length + 1) := by
  obtain ⟨u, hu⟩ : ∃ u, fireEntry q.val d.val i.val s = u := ⟨_, rfl⟩
  have hpow : u.pow = s.pow := hu ▸ (keeps_fireEntry _ _ _ _).same .pow rfl
  have hcounts : (entryTarget (entryOf s d.val i.val) == partitionOf s q.val && icouxTakes s) = true := by simp [hown, htakes]
  have hexec : exec (.gaugeEpoch q d i ppm) s = .next (guardReplan (gaugeEpoch q.val ppm u)) := by
    refine (if_pos hfires).trans ?_
    rw [if_pos hcounts, hu]
  obtain ⟨bad, worst, hbad, hgauges⟩ := gaugeEpoch_gauges q.val ppm u
  have hleft : gaugesOf (guardReplan (gaugeEpoch q.val ppm u)) q.val =
      { excluded := (gaugesOf s q.val).excluded ++ bad, worst := (worst :: (gaugesOf s q.val).worst).take 10 } := by
    rw [gaugesOf, guardReplan_gauges, ← gaugesOf, hgauges, gaugesOf, hpow, ← gaugesOf]
  refine ⟨_, hexec, ?_⟩
  beta_reduce
  rw [hleft]
  refine ⟨fun n hn hneg => List.mem_append.mpr ?_, fun n hn => List.mem_append.mpr (.inl hn), ?_⟩
  · by_cases hin : n ∈ (gaugesOf s q.val).excluded
    · exact .inl hin
    · exact .inr (hbad n hn hneg (by rwa [gaugesOf, hpow, ← gaugesOf]))
  · rw [List.length_take, List.length_cons]

/-- A margin sample of lane `l`, the height and width at its place in `eyes`. -/
def marginTaken (eyes : List (Nat × Nat)) (s : State) (l : Nat) : State :=
  setLaneAge l { laneAge s l with today := some (minEye (laneAge s l).today (eyes.getD (l % 256) (0, 0))) }
    (modLane l (fun v => { v with eyeHeight := (eyes.getD (l % 256) (0, 0)).1 % 65536, eyeWidth := (eyes.getD (l % 256) (0, 0)).2 % 65536 }) s)

/-- Whether lane `l` has its sample of this epoch. -/
def marginHeld (eyes : List (Nat × Nat)) (l : Nat) (t : State) : Prop :=
  (laneOf t l).eyeHeight = (eyes.getD (l % 256) (0, 0)).1 % 65536 ∧ (laneOf t l).eyeWidth = (eyes.getD (l % 256) (0, 0)).2 % 65536 ∧
    (laneAge t l).today.isSome = true

theorem laneAge_setLaneAge (l : Nat) (v : LaneAge) (s : State) : laneAge (setLaneAge l v s) l = v := tabGet_set _ _ _ _

theorem laneAge_setLaneAge_ne {l k : Nat} (h : k ≠ l) (v : LaneAge) (s : State) : laneAge (setLaneAge l v s) k = laneAge s k :=
  tabGet_set_ne _ _ h

theorem marginTaken_holds (eyes : List (Nat × Nat)) (l : Nat) (s : State) : marginHeld eyes l (marginTaken eyes s l) := by
  have hlane : laneOf (marginTaken eyes s l) l = _ := (laneOf_of_lane (modPow_lane _ _) l).trans (laneOf_modLane _ _ _)
  rw [marginHeld, hlane]
  refine ⟨rfl, rfl, ?_⟩
  rw [marginTaken, laneAge_setLaneAge]
  rfl

theorem marginTaken_keeps {eyes : List (Nat × Nat)} {l k : Nat} (h : marginHeld eyes l s) : marginHeld eyes l (marginTaken eyes s k) := by
  by_cases hk : l = k
  · exact hk ▸ marginTaken_holds eyes l s
  · have hlane : laneOf (marginTaken eyes s k) l = laneOf s l := (laneOf_of_lane (modPow_lane _ _) l).trans (laneOf_modLane_ne _ hk _)
    have hage : laneAge (marginTaken eyes s k) l = laneAge s l := laneAge_setLaneAge_ne hk _ _
    rw [marginHeld, hlane, hage]
    exact h

theorem marginEpoch_completes {eyes : List (Nat × Nat)} (hfires : powerFires s q.val d.val i.val 2 = true) (htakes : icouxTakes s = true) :
    Completes (.marginEpoch q d i eyes) s fun t => ∀ l ∈ activeLanes s, quadOfPort l = q.val →
      (laneOf t l).eyeHeight = (eyes.getD (l % 256) (0, 0)).1 % 65536 ∧
      (laneOf t l).eyeWidth = (eyes.getD (l % 256) (0, 0)).2 % 65536 ∧ (laneAge t l).today.isSome = true := by
  have hexec : exec (.marginEpoch q d i eyes) s = .next (((activeLanes s).filter fun l => quadOfPort l == q.val && icouxTakes s).foldl
      (marginTaken eyes) (fireEntry q.val d.val i.val s)) := if_pos hfires
  refine ⟨_, hexec, fun l hl hq => ?_⟩
  have hmem : l ∈ (activeLanes s).filter fun l => quadOfPort l == q.val && icouxTakes s := List.mem_filter.mpr ⟨hl, by simp [hq, htakes]⟩
  exact foldl_reaches (P := fun _ => True) (Q := marginHeld eyes l) (p := l) (fun s _ => marginTaken_holds eyes l s) (fun _ _ _ _ => trivial)
    (fun s k hs => marginTaken_keeps hs) hmem trivial

end

/-! ### Heat-work (R422) -/

/-- A pass over keys that changes what it reads at each key on its own. -/
theorem foldl_at {σ α : Type} {op : σ → Nat → σ} {read : σ → Nat → α} {val : Nat → α → α} {l : List Nat} {k : Nat}
    (same : ∀ s k, read (op s k) k = val k (read s k)) (other : ∀ s k j, j ≠ k → read (op s k) j = read s j) (hl : l.Nodup) (hk : k ∈ l) (s : σ) :
    read (l.foldl op s) k = val k (read s k) := by
  induction l generalizing s with
  | nil => cases hk
  | cons j l ih =>
    obtain ⟨hj, hl⟩ := List.nodup_cons.mp hl
    rw [List.foldl_cons]
    obtain rfl | hk := List.mem_cons.mp hk
    · have hkept : read (l.foldl op (op s k)) k = read (op s k) k :=
        foldl_keeps (fun s => read s k) fun s x hx => other s x k fun h => hj (h ▸ hx)
      rw [hkept, same]
    · rw [ih hl hk, other s j k fun h => hj (h ▸ hk)]

section

variable {s : State}

theorem dataAreaSave_completes (htakes : icouxTakes s = true) : Completes .dataAreaSave s fun t => t.boot.dataArea.heat = s.pow.heat ∧
    t.boot.dataArea.ages = s.pow.ages ∧ t.boot.dataArea.seq = wrapAdd 32 s.boot.dataArea.seq 1 ∧ t.boot.otherArea = s.boot.dataArea :=
  ⟨_, if_pos htakes, rfl, rfl, rfl, rfl⟩

/-- The heat-work of a second, added to quadrant `q`. -/
def heatAdded (s : State) (h : Store Nat) (q : Nat) : Store Nat :=
  match dieTemp s q with
  | some t => tabMod 0 q (· + (acceleration t / (3600 * 4294967296)).toNat) h
  | none => h

theorem heatAdded_at (s : State) (m : Store Nat) (q : Nat) : tabGet 0 (heatAdded s m q) q = match dieTemp s q with
    | some t => tabGet 0 m q + (acceleration t / (3600 * 4294967296)).toNat
    | none => tabGet 0 m q := by
  unfold heatAdded
  split
  · exact tabGet_mod _ _ _ _
  · rfl

theorem heatAdded_ne {j q : Nat} (h : j ≠ q) (m : Store Nat) : tabGet 0 (heatAdded s m q) j = tabGet 0 m j := by
  unfold heatAdded
  split
  · exact tabGet_mod_ne _ _ _ h
  · rfl

theorem heatWorkAccumulate_completes : Completes .heatWorkAccumulate s fun t => s.pow.heatAt + tSec ≤ t.now ∧ t.pow.heatAt = t.now ∧
    ∀ n v, n < 4 → dieTemp s n = some v →
      tabGet 0 t.pow.heat n = tabGet 0 s.pow.heat n + (acceleration v / (3600 * 4294967296)).toNat := by
  have hexec : exec .heatWorkAccumulate s = .next (modPow (fun t => { t with
      heatAt := (reach (s.pow.heatAt + tSec) s).now, heat := (List.range 4).foldl (heatAdded s) t.heat }) (reach (s.pow.heatAt + tSec) s)) := rfl
  refine ⟨_, hexec, le_reach_now _ s, rfl, fun n v hn hv => ?_⟩
  have hadds : tabGet 0 ((List.range 4).foldl (heatAdded s) s.pow.heat) n = (match dieTemp s n with
      | some t => tabGet 0 s.pow.heat n + (acceleration t / (3600 * 4294967296)).toNat
      | none => tabGet 0 s.pow.heat n) :=
    foldl_at (read := fun h n => tabGet 0 h n) (val := fun n x => match dieTemp s n with
      | some t => x + (acceleration t / (3600 * 4294967296)).toNat
      | none => x) (heatAdded_at s) (fun m _ _ h => heatAdded_ne h m) List.nodup_range (List.mem_range.mpr hn) s.pow.heat
  rw [hv] at hadds
  exact hadds

/-! ### The day's end (R424; that a day is 86,400 s of the datapath domain is the model's choice, assumption 93) -/

theorem replanLane_age (day l : Nat) (s : State) : (laneAge (replanLane day l s) l).today = none ∧
    ∀ k, k ≠ l → laneAge (replanLane day l s) k = laneAge s k := by
  unfold replanLane
  dsimp only
  split
  next hnone => exact ⟨hnone, fun _ _ => rfl⟩
  next e he =>
    generalize ha : LaneAge.mk _ _ _ _ _ _ = a
    have htoday : a.today = none := ha ▸ rfl
    have hset : ∀ worn : Bool, ∀ k, laneAge (if worn then modLane l (fun v => { v with snapshot := v.coeff }) (setLaneAge l a s) else setLaneAge l a s) k =
        laneAge (setLaneAge l a s) k := fun worn k => by
      cases worn with
      | true => rfl
      | false => rfl
    have hkiln : ∀ d u k, laneAge (kiln 0x0D0B d u) k = laneAge u k := fun d u k => by rw [laneAge, kiln_pow, ← laneAge]
    split
    · refine ⟨?_, fun k hk => ?_⟩
      · rw [hset, laneAge_setLaneAge, htoday]
      · rw [hset, laneAge_setLaneAge_ne hk]
    · refine ⟨?_, fun k hk => ?_⟩
      · rw [hkiln, hset, laneAge_setLaneAge, htoday]
      · rw [hkiln, hset, laneAge_setLaneAge_ne hk]

theorem tabFind_of_notMem {α : Type} {k : Nat} {m : Store α} (h : k ∉ m.map Prod.fst) : tabFind m k = none := by
  induction m with
  | nil => rfl
  | cons e m ih =>
    obtain ⟨hne, hm⟩ := not_or.mp (mt List.mem_cons.mpr h)
    exact (if_neg (by simpa using Ne.symm hne)).trans (ih hm)

theorem laneReplan_completes (hday : (datapathStamp s 0).sec / 86400 ≠ s.pow.day) : Completes .laneReplan s fun t =>
    t.pow.day = (datapathStamp s 0).sec / 86400 ∧ ∀ l, (laneAge t l).today = none := by
  have hends : ¬ ((datapathStamp s 0).sec / 86400 == s.pow.day) = true := by simpa using hday
  obtain ⟨u, hu⟩ : ∃ u, (s.pow.ages.map Prod.fst).foldl (fun v l => replanLane v.pow.day l v) s = u := ⟨_, rfl⟩
  have hexec : exec .laneReplan s = .next (modPow (fun t => { t with day := (datapathStamp s 0).sec / 86400 }) u) := by
    change execLaneReplan s = _
    rw [← hu, execLaneReplan, if_neg hends]
  refine ⟨_, hexec, rfl, fun l => ?_⟩
  have hkeep : ∀ v k, (laneAge v l).today = none → (laneAge (replanLane v.pow.day k v) l).today = none := fun v k h => by
    obtain ⟨hat, hother⟩ := replanLane_age v.pow.day k v
    by_cases hk : l = k
    · exact hk ▸ hat
    · rw [hother l hk, h]
  have hdone : (laneAge u l).today = none := by
    rw [← hu]
    by_cases hl : l ∈ s.pow.ages.map Prod.fst
    · exact foldl_reaches (op := fun v l => replanLane v.pow.day l v) (P := fun _ => True) (Q := fun v => (laneAge v l).today = none) (p := l)
        (fun v _ => (replanLane_age v.pow.day l v).1) (fun _ _ _ _ => trivial) hkeep hl trivial
    · have hnew : (laneAge s l).today = none := by
        rw [laneAge, tabGet, tabFind_of_notMem hl]
        rfl
      exact List.foldlRecOn (motive := fun v => (laneAge v l).today = none) _ _ hnew fun v hv k _ => hkeep v k hv
  exact hdone

end

/-- Settles O40. The model's choices it rests on: which steps are in effect at their cycle (assumption 85), when a sensor is stuck (87), that
nothing of a tripped device is kept but what a reset keeps (90), what an event of the regulator carries (91), and the day (93). -/
theorem powerLoopsAndAgeing : Obligations.PowerLoopsAndAgeing := by
  refine ⟨fun q d i l k die sensor m readings scale other height mv cmd st s => ?_, fun q d i ppm eyes s => ?_⟩
  · exact ⟨powerCycle_completes, bubbleFrameStart_completes, laneEqStep_completes, fun _ ha => ⟨laneStepCheck_returns ha, laneStepCheck_stays ha⟩,
      energyCalibration_completes, tempSample_completes readings s, thermalTrip_completes, fun htakes hphase =>
        ⟨avsResponse_steps htakes hphase, avsResponse_faults htakes hphase, avsTimeout_counts htakes, avsTimeout_faults htakes hphase⟩⟩
  · exact ⟨gaugeEpoch_completes, marginEpoch_completes, heatWorkAccumulate_completes, laneReplan_completes, dataAreaSave_completes⟩

end Sys2Proof.Proofs
end

section
/-!
PROOFS. What leaves the saggar's site table alone: every operation that a fence runs (R435) counts, drops, flushes and logs, and touches no site.
-/

namespace Sys2Proof.Proofs

open Sys2Proof Sys2Proof.Machine Sys2Proof.Laws

/-- The sites and the count of raises. -/
def siteView (s : State) : List Site × BitVec 32 := (s.flt.sites, s.flt.raises)

section

variable {s t : State}

theorem siteView_of_flt (h : t.flt = s.flt) : siteView t = siteView s := by rw [siteView, h, siteView]

/-- What keeps the whole collector keeps its sites. -/
theorem siteView_of_keeps {ps : List Part} (h : Keeps ps s t) (hp : ps.contains .flt = false := by rfl) : siteView t = siteView s :=
  siteView_of_flt (h.same .flt (by simpa using hp))

theorem siteView_foldl {α : Type} {op : State → α → State} (h : ∀ s x, siteView (op s x) = siteView s) (l : List α) (s : State) :
    siteView (l.foldl op s) = siteView s := foldl_keeps siteView fun s x _ => h s x

@[simp] theorem siteView_ite (c : Prop) [Decidable c] : siteView (if c then s else t) = if c then siteView s else siteView t := apply_ite _ _ _ _

end

section

variable (code n : Nat) (fs : List (Nat × Nat)) (s : State)

@[simp] theorem siteView_kilnEvent (b : Nat) (inj : Bool) (d : Bytes) : siteView (kilnEvent code b inj d s) = siteView s := by
  rw [siteView, kilnEvent_flt_sites, kilnEvent_flt_raises, siteView]

@[simp] theorem siteView_kiln : siteView (kiln code fs s) = siteView s := siteView_kilnEvent _ _ _ _ _

@[simp] theorem siteView_kilnOnce : siteView (kilnOnce code n fs s) = siteView s := by
  unfold kilnOnce
  dsimp only
  split
  · rfl
  · exact siteView_kiln code fs s

@[simp] theorem siteView_count (c : Counter) (x : Nat) : siteView (count c x n s) = siteView s := rfl

@[simp] theorem siteView_modTel (f : ObserveState → ObserveState) : siteView (modTel f s) = siteView s := rfl

@[simp] theorem siteView_modMat (f : MatState → MatState) : siteView (modMat f s) = siteView s := rfl

@[simp] theorem siteView_raiseFault (b k i : Nat) (o : Bool) : siteView (raiseFault b k i o s) = siteView s := by
  rw [siteView, raiseFault_flt_sites, raiseFault_flt_raises, siteView]

end

/-! ### Records and drops (R332, R391) -/

section

variable (q reason e n : Nat) (r : Bytes) (v : Frame) (i : CopyInfo) (s : State)

@[simp] theorem siteView_loseRecords : siteView (loseRecords e n s) = siteView s := by
  unfold loseRecords
  dsimp only
  split
  · rfl
  · simp [siteView_of_keeps (keeps_setExporter _ _ _)]

@[simp] theorem siteView_exportRecord : siteView (exportRecord e r s) = siteView s := by
  simp [exportRecord, siteView_of_keeps (keeps_setExporter _ _ _), siteView_of_keeps (keeps_sendExport _ _)]

@[simp] theorem siteView_makeRecord : siteView (makeRecord q e r s) = siteView s := siteView_exportRecord _ _ _

@[simp] theorem siteView_dropRecord : siteView (dropRecord q reason v i s) = siteView s := by
  unfold dropRecord
  dsimp only
  split
  · rfl
  · split
    · split
      · simp [siteView_of_keeps (keeps_ensureLimit _ _ _ _ _)]
      · simp [siteView_of_keeps (keeps_ensureLimit _ _ _ _ _), siteView_of_keeps (keeps_takeLimit _ _ _)]
    · simp [siteView_of_keeps (keeps_ensureLimit _ _ _ _ _)]

@[simp] theorem siteView_dropIn : siteView (dropIn q reason v i s) = siteView s := siteView_dropRecord _ _ _ _ _

@[simp] theorem siteView_dropCopyIn (x : Option Nat) : siteView (dropCopyIn q reason x v i s) = siteView s := by
  cases x with
  | none => exact siteView_dropIn _ _ _ _ _
  | some e => rfl

@[simp] theorem siteView_macDrop : siteView (macDrop reason v s) = siteView s := siteView_dropIn _ _ _ _ _

@[simp] theorem siteView_dropFrame (u : Nat) : siteView (dropFrame u reason i s) = siteView s := by
  rw [dropFrame, siteView_of_keeps (keeps_spend _ _), siteView_dropIn]

@[simp] theorem siteView_headDrop (u : Nat) : siteView (headDrop reason u s) = siteView s := by
  rw [headDrop, siteView_macDrop, siteView_of_keeps (keeps_countRxDrop _ _ _), siteView_of_keeps (keeps_setFrame _ _ _)]

end

/-! ### Copies that are released, flushed or cut (R280, R293, R330) -/

section

variable (c n q reason detail : Nat) (s : State)

@[simp] theorem siteView_releaseCell (seen : Bool) : siteView (releaseCell seen q s c) = siteView s := by
  unfold releaseCell
  split
  · rfl
  · simp [siteView_of_keeps (keeps_modQuad _ _ _)]

@[simp] theorem siteView_settleBlock : siteView (settleBlock q n s) = siteView s := by
  simp [settleBlock, siteView_of_keeps (keeps_modQuad _ _ _)]

@[simp] theorem siteView_releaseSlot : siteView (releaseSlot q s n) = siteView s := siteView_settleBlock _ _ _

@[simp] theorem siteView_endSpill : siteView (endSpill q n s) = siteView s := by
  unfold endSpill
  dsimp only
  split
  · rfl
  · split
    · rfl
    · exact siteView_settleBlock _ _ _

@[simp] theorem siteView_releaseCopy : siteView (releaseCopy c s) = siteView s := by
  unfold releaseCopy
  split
  · rfl
  · next x _ =>
    have hslots : siteView ((copySlots x).foldl (releaseSlot x.quad) (modCopy c (fun y => { y with spill := none }) (unlinkCopy c s))) =
        siteView s := by
      rw [siteView_foldl fun s k => siteView_releaseSlot k x.quad s, siteView_of_keeps (keeps_modCopy _ _ _),
        siteView_of_keeps (keeps_unlinkCopy _ _)]
    dsimp only
    split
    · rw [siteView_of_keeps (keeps_settleFrame _ _), siteView_endSpill, siteView_foldl fun s k => siteView_releaseCell k x.quad s true]
      exact hslots
    · rw [siteView_endSpill, siteView_of_keeps (keeps_modCopy _ _ _), hslots]

@[simp] theorem siteView_dropCopy : siteView (dropCopy c reason detail s) = siteView s := by
  rw [dropCopy, siteView_releaseCopy, siteView_dropCopyIn]

@[simp] theorem siteView_stompCopy : siteView (stompCopy c n reason detail s) = siteView s := by
  unfold stompCopy
  dsimp only
  split
  · rfl
  · simp [siteView_of_keeps (keeps_clearTx _ _ _), siteView_of_keeps (keeps_correctCharges _ _ _), siteView_of_keeps (keeps_histCount _ _ _),
      siteView_of_keeps (keeps_countSent _ _ _)]
    rfl

@[simp] theorem siteView_flushQueue : siteView (flushQueue reason detail s n) = siteView s :=
  siteView_foldl (fun s c => siteView_dropCopy c reason detail s) _ s

@[simp] theorem siteView_flushPort (p : Nat) : siteView (flushPort p s) = siteView s := by
  rw [flushPort, siteView_kiln, siteView_count, siteView_count, siteView_foldl fun s n => siteView_flushQueue n 0x2B 0 s]

end

@[simp] theorem siteView_abortTransmit (p : Nat) (s : State) : siteView (abortTransmit p s) = siteView s := by
  unfold abortTransmit
  extract_lets cut
  have hcut : ∀ s t, siteView (cut s t) = siteView s := fun s t => by
    cases t with
    | none => rfl
    | some t =>
      refine (siteView_of_keeps (keeps_clearTx _ _ _)).trans ?_
      rw [siteView_dropCopy, siteView_count]
  rw [hcut, hcut]

/-! ### Transfers and mirrors (R311 to R327) -/

section

variable (u q reason n : Nat) (t : Transfer) (s : State)

@[simp] theorem siteView_setPath (a b : Nat) (v : Option Nat) : siteView (setPath n a b v s) = siteView s := by
  unfold setPath
  dsimp only
  split
  · rfl
  · split
    · rw [siteView_kilnOnce]
      rfl
    · rfl

@[simp] theorem siteView_dropTransfer : siteView (dropTransfer q reason t s) = siteView s := by
  rw [dropTransfer, siteView_of_keeps (keeps_settleFrame _ _), siteView_dropCopyIn]
  rfl

@[simp] theorem siteView_meshOverrun : siteView (meshOverrun t n s) = siteView s := by rw [meshOverrun, siteView_kilnOnce, siteView_dropCopyIn]

@[simp] theorem siteView_sendTransfer (fixed : Bool) : siteView (sendTransfer t fixed s) = siteView s := by
  unfold sendTransfer
  dsimp only
  split
  · exact siteView_of_keeps (keeps_addTransfer _ _)
  · split
    · exact siteView_meshOverrun _ _ _
    · simp [siteView_of_keeps (keeps_addTransfer _ _)]

@[simp] theorem siteView_formTransfer (fixed : Bool) : siteView (formTransfer t fixed n s) = siteView s := by
  unfold formTransfer
  dsimp only
  split
  · exact siteView_sendTransfer _ _ _
  · exact siteView_foldl (fun s _ => (siteView_count _ _ _ _).trans (siteView_dropIn _ _ _ _ s)) _ s

@[simp] theorem siteView_makeMirror (i : Nat) (o : Bytes) : siteView (makeMirror i u o s) = siteView s := by
  unfold makeMirror
  dsimp only
  split
  · exact siteView_of_keeps (keeps_deliver _ _)
  · split
    · split
      · exact siteView_dropIn _ _ _ _ _
      · exact siteView_of_keeps (keeps_newFrame _ _)
    · exact siteView_formTransfer _ _ _ _

@[simp] theorem siteView_endMirrors : siteView (endMirrors u s) = siteView s := by
  refine (siteView_foldl (fun s x => ?_) _ _).trans rfl
  dsimp only
  split
  · exact siteView_dropIn _ _ _ _ _
  · rw [siteView_makeMirror, siteView_ite, siteView_count, ite_self]

@[simp] theorem siteView_endTransfers : siteView (endTransfers u s) = siteView s := by
  unfold endTransfers
  dsimp only
  split
  · rfl
  · exact siteView_foldl (fun s t => siteView_dropTransfer _ _ t s) _ s

end

/-! ### Frames that end (R157, R299) -/

section

variable (u p reason : Nat) (s : State)

@[simp] theorem siteView_badCopy (c : Nat) : siteView (badCopy reason s c) = siteView s := by
  unfold badCopy
  dsimp only
  split
  · rfl
  · split
    · rw [siteView_stompCopy]
      rfl
    · exact siteView_dropCopy _ _ _ _

@[simp] theorem siteView_trimCopy (c : Nat) : siteView (trimCopy c s) = siteView s := by
  unfold trimCopy
  extract_lets x n keep extra first s1 s2 s3 s4
  have hs1 : siteView s1 = siteView s := by
    rw [siteView_ite, siteView_count, ite_self]
  have hs2 : siteView s2 = siteView s := by
    refine (siteView_foldl (fun s c => siteView_releaseCell c x.quad s false) _ _).trans ?_
    rw [siteView_of_keeps (keeps_modCopy _ _ _), hs1]
  have hs3 : siteView s3 = siteView s := by
    refine (siteView_foldl (fun s k => siteView_releaseSlot k x.quad s) _ _).trans ?_
    rw [siteView_of_keeps (keeps_modCopy _ _ _), hs2]
  have hs4 : siteView s4 = siteView s := by
    refine (siteView_of_keeps (keeps_spendQueue _ _ _ _ _)).trans ?_
    rw [siteView_count, hs3]
  rw [siteView_ite, siteView_foldl fun s c => siteView_releaseCell c x.quad s true, hs4]
  exact (if_congr Iff.rfl hs4 rfl).trans (ite_self _)

@[simp] theorem siteView_frameFinished : siteView (frameFinished u s) = siteView s := by
  unfold frameFinished
  dsimp only
  rw [siteView_of_keeps (keeps_settleFrame _ _), siteView_foldl fun s c => ?_, siteView_foldl fun s c => siteView_trimCopy s c, siteView_endMirrors,
    siteView_endTransfers, siteView_of_keeps (keeps_returnPoliced _ _), siteView_of_keeps (keeps_endCrossings _ _)]
  rw [siteView_ite, siteView_badCopy, siteView_of_keeps (keeps_goodCopy _ _), ite_self]

theorem siteView_limitDelivery (d : Delivery) : siteView (limitDelivery d s).2 = siteView s := by
  unfold limitDelivery
  dsimp only
  split
  · split
    · exact siteView_of_keeps (keeps_takeLimit _ _ _)
    · rw [siteView_kilnOnce, siteView_macDrop, siteView_count]
      exact siteView_of_keeps (keeps_takeLimit _ _ _)
  · split
    · exact siteView_of_keeps (keeps_takeLimit _ _ _)
    · rw [siteView_kilnOnce, siteView_dropIn]
      exact siteView_of_keeps (keeps_takeLimit _ _ _)
  · rfl

@[simp] theorem siteView_settleDelivery (d : Delivery) : siteView (settleDelivery u d s) = siteView s := by
  unfold settleDelivery
  dsimp only
  split
  · rfl
  · split
    · rw [siteView_ite, siteView_dropIn, ite_self]
    · rw [siteView_ite, siteView_limitDelivery]
      exact (if_congr Iff.rfl (siteView_limitDelivery s d) rfl).trans (ite_self _)

@[simp] theorem siteView_settleDeliveries : siteView (settleDeliveries u s) = siteView s :=
  (siteView_foldl (fun s d => siteView_settleDelivery u s d) _ _).trans rfl

@[simp] theorem siteView_endFrame : siteView (endFrame u reason s) = siteView s := by
  unfold endFrame
  dsimp only
  simp [siteView_of_keeps (keeps_setFrame _ _ _), siteView_of_keeps (keeps_countGood _ _), siteView_of_keeps (keeps_countRxDrop _ _ _)]

@[simp] theorem siteView_cutFrame : siteView (cutFrame p u reason s) = siteView s := by
  simp [cutFrame, siteView_of_keeps (keeps_forget _ _), siteView_of_keeps (keeps_clearRx _ _ _)]

@[simp] theorem siteView_dropPartial : siteView (dropPartial p reason s) = siteView s := by
  unfold dropPartial
  split
  · rw [siteView_macDrop, siteView_of_keeps (keeps_countRxDrop _ _ _), siteView_of_keeps (keeps_setMacPort _ _ _)]
  · rfl

@[simp] theorem siteView_cutReceived : siteView (cutReceived p s) = siteView s := by
  unfold cutReceived
  dsimp only
  rw [siteView_dropPartial]
  split
  · rw [siteView_cutFrame]
    split
    · exact siteView_cutFrame _ _ _ _
    · rfl
  · split
    · exact siteView_cutFrame _ _ _ _
    · rfl

end

/-! ### Ports, pipelines and links that stop -/

section

variable (p q g : Nat) (s : State)

@[simp] theorem siteView_macPortStopped : siteView (macPortStopped p s) = siteView s := by
  have hstopped : siteView (stopMac p s) = siteView s := by
    rw [stopMac, siteView_of_keeps (keeps_clearPause _ _), siteView_abortTransmit, siteView_cutReceived]
  have hheld : ∀ t, siteView (endHold p t) = siteView t := fun t => (siteView_flushPort _ p).trans rfl
  rw [macPortStopped, hheld, siteView_ite, hstopped, ite_self]

@[simp] theorem siteView_leaveActive (cause : Nat) : siteView (leaveActive p cause s) = siteView s := by
  unfold leaveActive
  rw [siteView_kiln, siteView_of_keeps (keeps_countLanes _ _ _), siteView_of_keeps (keeps_countSet _ _ _ _)]
  exact siteView_foldl (fun s l => siteView_of_keeps (keeps_modLane l _ s)) _ s

@[simp] theorem siteView_fencePort : siteView (fencePort s p) = siteView s := by
  simp [fencePort, siteView_of_keeps (keeps_enterPhase _ _ _), siteView_of_keeps (keeps_countLanes _ _ _),
    siteView_of_keeps (keeps_setCause _ _ _ _), siteView_of_keeps (keeps_modLanes _ _ _)]

@[simp] theorem siteView_fencePorts (lo n : Nat) : siteView (fencePorts lo n s) = siteView s := siteView_foldl (fun s p => siteView_fencePort p s) _ s

@[simp] theorem siteView_abandon (st k reason : Nat) (i : CopyInfo) : siteView (abandon g st k reason i s) = siteView s := by
  unfold abandon
  split
  · rfl
  · rw [siteView_dropFrame]
    exact siteView_of_keeps (keeps_modStage _ _ _ _)

@[simp] theorem siteView_flushFrame (u : Nat) : siteView (flushFrame s u) = siteView s := by
  unfold flushFrame
  dsimp only
  split
  · rw [siteView_abandon, siteView_of_keeps (keeps_setHostReads _ _ _)]
  · rw [siteView_dropFrame, siteView_of_keeps (keeps_setHostReads _ _ _)]

@[simp] theorem siteView_fencePipe : siteView (fencePipe s g) = siteView s :=
  (siteView_foldl (fun s u => siteView_flushFrame s u) _ _).trans (siteView_fencePorts _ _ _)

@[simp] theorem siteView_flushSection (b n : Nat) : siteView (flushSection b q s n) = siteView s := by
  rw [flushSection, siteView_endSpill, siteView_foldl fun s c => siteView_dropCopy c 0x26 b s]

@[simp] theorem siteView_fenceSpill (b : Nat) : siteView (fenceSpill b q s) = siteView s :=
  siteView_foldl (fun s n => siteView_flushSection q s b n) _ s

@[simp] theorem siteView_fenceStack (b : Nat) : siteView (fenceStack b q s) = siteView s := by
  have htrees : ∀ t, siteView ((List.range 16).foldl (fenceTree q) t) = siteView t := fun t =>
    siteView_foldl (fun s t => siteView_of_keeps (keeps_fenceTree q s t)) _ t
  rw [fenceStack, siteView_modTel, htrees, siteView_of_keeps (keeps_fenceReader _ _), siteView_fenceSpill]

@[simp] theorem siteView_loseDirection (d b : Nat) : siteView (loseDirection d b s) = siteView s := by
  have hdrops : ∀ (q : Nat) (l : List Transfer) (t : State), siteView (l.foldl (fun s x => dropTransfer q 0x29 x s) t) = siteView t := fun q l t =>
    siteView_foldl (fun s x => siteView_dropTransfer _ _ _ _) l t
  unfold loseDirection
  dsimp only
  refine (siteView_foldl (fun s x => ?_) _ _).trans (hdrops _ _ s)
  refine (siteView_foldl (fun s c => ?_) _ _).trans (hdrops _ _ s)
  rw [siteView_ite, siteView_stompCopy, siteView_dropCopy]
  exact ite_self _

@[simp] theorem siteView_linkDown (l : Nat) : siteView (linkDown l s) = siteView s := by
  rw [linkDown, siteView_kiln, siteView_loseDirection, siteView_loseDirection]
  rfl

end

/-! ### Sessions that close (R465) -/

section

variable (i : Nat) (s : State)

@[simp] theorem siteView_delegate (sess rights : Nat) : siteView (delegate sess rights i s) = siteView s := by
  unfold delegate
  dsimp only
  rw [siteView_ite, siteView_kiln, siteView_of_keeps (keeps_modWindow _ _ _), ite_self]

@[simp] theorem siteView_endTestMode : siteView (endTestMode s) = siteView s := by
  rw [endTestMode, siteView_ite, siteView_kiln]
  exact ite_self _

@[simp] theorem siteView_endSession (cause : Nat) : siteView (endSession i cause s) = siteView s := by
  have hdelegates : ∀ t, siteView ((List.range 64).foldl (fun s g => delegate i 0 g s) t) = siteView t := fun t =>
    siteView_foldl (fun s g => siteView_delegate g s i 0) _ t
  unfold endSession
  extract_lets s1 s2 s3 s4
  have hs1 : siteView s1 = siteView s := (hdelegates _).trans (siteView_kiln _ _ s)
  have hs4 : siteView s4 = siteView s := by
    rw [siteView_modMat, siteView_of_keeps (keeps_dropUploads _ _), siteView_modTel, siteView_of_keeps (keeps_disableRings _ _), hs1]
  rw [siteView_ite, siteView_endTestMode, hs4, ite_self]

@[simp] theorem siteView_closeAbrupt (cause : Nat) : siteView (closeAbrupt i cause s) = siteView s := by
  unfold closeAbrupt
  dsimp only
  split
  · rw [siteView_of_keeps (keeps_modSlot _ _ _), siteView_of_keeps (keeps_dropCommands _ _), siteView_endSession]
  · rw [siteView_of_keeps (keeps_modSlot _ _ _), siteView_of_keeps (keeps_dropCommands _ _)]
  · rfl

end

/-- A fence that is applied changes no site. -/
@[simp] theorem siteView_applyFence (x : Site) (s : State) : siteView (applyFence x s) = siteView s := by
  unfold applyFence
  split
  · split
    · exact siteView_fencePorts _ _ _
    · rfl
  · exact siteView_fencePipe _ _
  · exact siteView_foldl (fun s g => siteView_fencePipe g s) _ s
  · exact siteView_of_keeps (keeps_fenceTree _ _ _)
  · exact siteView_of_keeps (keeps_fenceReader _ _)
  · exact siteView_of_keeps (keeps_fenceLearn _ _)
  · split
    · exact siteView_delegate _ _ _ _
    · rfl
  · exact siteView_fenceSpill _ _ _
  · exact siteView_fenceStack _ _ _
  · rw [siteView_ite, siteView_linkDown, ite_self]
  · rfl
  · exact siteView_closeAbrupt _ _ _
  · rfl

end Sys2Proof.Proofs
end

section
/-!
PROOFS. The saggar's site table: what the entry of a site reads after an entry is changed, added or removed, and what a site's rules read beside
its own entry (R434, R440).
-/

namespace Sys2Proof.Proofs

open Sys2Proof Sys2Proof.Machine Sys2Proof.Laws

/-! ### The entry of a site -/

section

variable {b k i : Nat} {f : Site → Site} {x : Site} {s t : State}

theorem siteIs_iff : siteIs b k i x = true ↔ x.bit = b ∧ x.kind = k ∧ x.index = i := by simp [siteIs, and_assoc]

theorem siteIs_self (x : Site) : siteIs x.bit x.kind x.index x = true := siteIs_iff.mpr ⟨rfl, rfl, rfl⟩

theorem siteAt_siteIs (h : siteAt s b k i = some x) : siteIs b k i x = true := List.find?_some h

theorem siteAt_of_sites (h : t.flt.sites = s.flt.sites) : siteAt t b k i = siteAt s b k i := by rw [siteAt, h, siteAt]

theorem siteAt_of_siteView (h : siteView t = siteView s) : siteAt t b k i = siteAt s b k i := siteAt_of_sites (congrArg Prod.fst h)

/-- A changed entry that stays at its site reads as changed. -/
theorem siteAt_modSite (hf : ∀ y, siteIs b k i y = true → siteIs b k i (f y) = true) (s : State) :
    siteAt (modSite b k i f s) b k i = (siteAt s b k i).map f := by
  have hsite : (siteIs b k i ∘ fun y => if siteIs b k i y then f y else y) = siteIs b k i := by
    funext y
    cases h : siteIs b k i y with
    | true => simp [h, hf y h]
    | false => simp [h]
  rw [siteAt, modSite, modFlt, List.find?_map, hsite]
  cases h : siteAt s b k i with
  | none => rw [siteAt] at h; simp [h]
  | some y =>
    have hy := siteAt_siteIs h
    rw [siteAt] at h
    simp [h, hy]

theorem siteAt_append_new (hnew : siteAt s b k i = none) (hx : siteIs b k i x = true) :
    siteAt (modFlt (fun f => { f with sites := f.sites ++ [x] }) s) b k i = some x := by
  rw [siteAt] at hnew
  simp [siteAt, modFlt, List.find?_append, hnew, hx]

theorem siteAt_dropSite (s : State) : siteAt (dropSite b k i s) b k i = none := by
  simp [siteAt, dropSite, modFlt, List.find?_filter]

theorem siteAt_dropSite_ne {b' k' i' : Nat} (h : (b', k', i') ≠ (b, k, i)) (s : State) :
    siteAt (dropSite b k i s) b' k' i' = siteAt s b' k' i' := by
  have hother : (fun y => !siteIs b k i y && siteIs b' k' i' y) = siteIs b' k' i' := by
    funext y
    cases hy : siteIs b' k' i' y with
    | false => simp
    | true =>
      obtain ⟨rfl, rfl, rfl⟩ := siteIs_iff.mp hy
      have hne : siteIs b k i y = false := by
        rw [Bool.eq_false_iff, ne_eq, siteIs_iff]
        rintro ⟨rfl, rfl, rfl⟩
        exact h rfl
      simp [hne]
  simp only [siteAt, dropSite, modFlt, List.find?_filter]
  exact congrArg (fun p => s.flt.sites.find? p) (by simpa using hother)

end

/-! ### What a site's rules read beside its entry -/

/-- The sites of other units and bits. -/
def othersAt (s : State) (b k i : Nat) : List Site := s.flt.sites.filter fun y => !siteIs b k i y

/-- `s` and `t` have the same time, ports, policies and sites beside the one named. -/
structure Beside (b k i : Nat) (s t : State) : Prop where
  now : t.now = s.now
  mac : t.mac = s.mac
  policy : t.flt.policy = s.flt.policy
  others : othersAt t b k i = othersAt s b k i

section

variable {b k i : Nat} {f : Site → Site} {x : Site} {s t u : State}

theorem Beside.trans (h : Beside b k i s t) (h' : Beside b k i t u) : Beside b k i s u :=
  ⟨h'.now.trans h.now, h'.mac.trans h.mac, h'.policy.trans h.policy, h'.others.trans h.others⟩

theorem beside_kilnEvent (code fb : Nat) (inj : Bool) (d : Bytes) (s : State) : Beside b k i s (kilnEvent code fb inj d s) :=
  ⟨kilnEvent_now .., kilnEvent_mac .., kilnEvent_flt_policy .., by rw [othersAt, kilnEvent_flt_sites, othersAt]⟩

theorem beside_modSite (hf : ∀ y, siteIs b k i y = true → siteIs b k i (f y) = true) (s : State) : Beside b k i s (modSite b k i f s) := by
  refine ⟨rfl, rfl, rfl, ?_⟩
  have hsite : ((fun y => !siteIs b k i y) ∘ fun y => if siteIs b k i y then f y else y) = fun y => !siteIs b k i y := by
    funext y
    cases h : siteIs b k i y with
    | true => simp [h, hf y h]
    | false => simp [h]
  simp only [othersAt, modSite, modFlt, List.filter_map, hsite]
  refine (List.map_congr_left fun y hy => ?_).trans (List.map_id _)
  have hy : siteIs b k i y = false := by simpa using (List.mem_filter.mp hy).2
  simp [hy]

theorem beside_append (hx : siteIs b k i x = true) (s : State) : Beside b k i s (modFlt (fun f => { f with sites := f.sites ++ [x] }) s) :=
  ⟨rfl, rfl, rfl, by simp [othersAt, modFlt, hx]⟩

theorem Beside.policyOf (h : Beside b k i s t) (n : Nat) : policyOf t n = Machine.policyOf s n := by rw [Machine.policyOf, h.policy, Machine.policyOf]

theorem Beside.siteCap (h : Beside b k i s t) (x : Site) : siteCap t x = Machine.siteCap s x := by
  rw [Machine.siteCap, h.policyOf, Machine.siteCap]

theorem unitLanes_of_mac (h : t.mac = s.mac) (k i : Nat) : unitLanes t k i = unitLanes s k i := by simp only [unitLanes, lanesOf_of_mac h]

theorem fenceCovers_of_mac (h : t.mac = s.mac) (y : Site) (k i : Nat) : fenceCovers t y k i = fenceCovers s y k i := by
  simp only [fenceCovers, lanesWithin, unitLanes_of_mac h]

/-- A fence that a site lies inside is another site's. -/
theorem insideFence_eq_others (hx : siteIs b k i x = true) : insideFence s x =
    (othersAt s b k i).any fun y => y.level == .fenced && fenceCovers s y k i := by
  obtain ⟨rfl, rfl, rfl⟩ := siteIs_iff.mp hx
  rw [othersAt, List.any_filter, insideFence]
  congr 1
  funext y
  cases y.level == .fenced <;> simp

theorem Beside.insideFence (h : Beside b k i s t) (hx : siteIs b k i x = true) : insideFence t x = Machine.insideFence s x := by
  simp only [insideFence_eq_others hx, h.others, fenceCovers_of_mac h.mac]

end

/-! ### A fence -/

section

variable {b k i : Nat} {x : Site} {s : State}

/-- Fencing a site takes it to FENCED, and no other site or count of raises changes. -/
theorem fenceSite_fences (h : siteAt s x.bit x.kind x.index = some x) :
    (siteAt (fenceSite x s) x.bit x.kind x.index).map Site.level = some .fenced ∧ (fenceSite x s).flt.raises = s.flt.raises := by
  have hview : ∀ t, siteView (siteEvent 0x0E02 x [(1, 2)] (countEscalation x.bit (applyFence x t))) = siteView t := fun t =>
    (siteView_kilnEvent _ _ _ _ _).trans (siteView_applyFence x t)
  constructor
  · rw [fenceSite, siteAt_of_siteView (hview _), siteAt_modSite (by exact fun _ hy => hy), h]
    rfl
  · exact congrArg Prod.snd (hview _)

end

end Sys2Proof.Proofs
end

section
/-!
PROOFS. Sites follow their levels (O41): a raise that arrives, a grace period that ends and a site that has been quiet (R430, R434, R439, R440).
-/

namespace Sys2Proof.Proofs

open Sys2Proof Sys2Proof.Machine Sys2Proof.Laws

/-! ### A raise reaches the saggar (R430, R434) -/

section

variable {r : Raise} {rest : List Raise} {x : Site} {s t u : State}

theorem raisedSite_siteIs (s : State) (r : Raise) : siteIs r.bit r.kind r.index (raisedSite s r) = true := by
  unfold raisedSite
  split
  · exact siteIs_iff.mpr ⟨rfl, rfl, rfl⟩
  · next y hy =>
    have hsite := siteIs_iff.mp (siteAt_siteIs hy)
    exact siteIs_iff.mpr hsite

theorem raisedSite_congr (hsites : t.flt.sites = s.flt.sites) (hnow : t.now = s.now) (r : Raise) : raisedSite t r = raisedSite s r := by
  simp only [raisedSite, siteAt_of_sites hsites, hnow]

/-- `t` has taken the raise: it is counted and latched, the next ones stay on their way, and a new site is logged. -/
def raiseTaken (s : State) (r : Raise) (rest : List Raise) (t : State) : Prop :=
  t.flt.raises = s.flt.raises + 1 ∧ t.flt.inFlight = rest ∧ (r.bit < 64 → t.flt.latch.getLsbD r.bit = true) ∧
    ((siteAt s r.bit r.kind r.index).isNone = true → logged 0x0E01 t)

/-- `t` has taken the raise and counted it in its site's entry, and nothing that the site's rules read has changed besides. -/
def raiseCounted (s : State) (r : Raise) (rest : List Raise) (t : State) : Prop :=
  raiseTaken s r rest t ∧ siteAt t r.bit r.kind r.index = some (raisedSite s r) ∧ Beside r.bit r.kind r.index s t

/-- The raise is counted and latched. -/
abbrev raiseLatched (r : Raise) (rest : List Raise) (s : State) : State :=
  latchBit r.bit (countRaise r.bit (modFlt (fun f => { f with inFlight := rest }) s))

/-- The site table with the raised site's entry. -/
def raiseEntered (r : Raise) (s : State) : State :=
  if (siteAt s r.bit r.kind r.index).isNone then modFlt (fun f => { f with sites := f.sites ++ [raisedSite s r] }) s
  else modSite r.bit r.kind r.index (fun _ => raisedSite s r) s

/-- A raise is logged when its site is new or its policy asks for it. -/
def raiseLogged (new : Bool) (r : Raise) (s : State) : State :=
  if new || bit (policyOf s r.bit).flags 0 then kilnEvent 0x0E01 r.bit r.injected (pack [(1, r.kind), (4, r.index)]) s else s

theorem raiseLatched_sites (s : State) : (raiseLatched r rest s).flt.sites = s.flt.sites := by rw [raiseLatched, latchBit_flt]; rfl

theorem raiseLatched_now (s : State) : (raiseLatched r rest s).now = s.now := (keeps_latchBit _ _).same .now rfl

theorem beside_raiseLatched (s : State) : Beside r.bit r.kind r.index s (raiseLatched r rest s) :=
  ⟨raiseLatched_now s, (keeps_latchBit _ _).same .mac rfl, by rw [raiseLatched, latchBit_flt]; rfl, by
    rw [othersAt, raiseLatched_sites, othersAt]⟩

theorem siteAt_raiseEntered (r : Raise) (s : State) : siteAt (raiseEntered r s) r.bit r.kind r.index = some (raisedSite s r) := by
  unfold raiseEntered
  cases h : siteAt s r.bit r.kind r.index with
  | none => exact siteAt_append_new h (raisedSite_siteIs s r)
  | some y =>
    refine (siteAt_modSite (fun _ _ => raisedSite_siteIs s r) s).trans ?_
    rw [h]
    rfl

theorem beside_raiseEntered (r : Raise) (s : State) : Beside r.bit r.kind r.index s (raiseEntered r s) := by
  unfold raiseEntered
  split
  · exact beside_append (raisedSite_siteIs s r) s
  · exact beside_modSite (fun _ _ => raisedSite_siteIs s r) s

theorem takeRaise_eq (h : (siteAt s r.bit r.kind r.index).isSome = true ∨ s.flt.sites.length < 1024) :
    takeRaise r (modFlt (fun f => { f with inFlight := rest }) s) = followSite (raisedSite s r)
      (raiseLogged (siteAt s r.bit r.kind r.index).isNone r (raiseEntered r (raiseLatched r rest s))) := by
  have hat : siteAt (raiseLatched r rest s) r.bit r.kind r.index = siteAt s r.bit r.kind r.index := siteAt_of_sites (raiseLatched_sites s)
  have hroom : ¬ ((siteAt s r.bit r.kind r.index).isNone && decide ((raiseLatched r rest s).flt.sites.length ≥ 1024)) = true := by
    rw [raiseLatched_sites]
    rcases h with h | h
    · simp [Option.isNone_eq_false_iff.mpr h]
    · simp [h]
  rw [← raisedSite_congr (raiseLatched_sites (rest := rest) s) (raiseLatched_now s)]
  simp only [raiseEntered, hat]
  unfold takeRaise
  dsimp only
  rw [hat, if_neg hroom]
  rfl

theorem raiseCounted_arrives (r : Raise) (rest : List Raise) (s : State) : raiseCounted s r rest
    (raiseLogged (siteAt s r.bit r.kind r.index).isNone r (raiseEntered r (raiseLatched r rest s))) := by
  have hlatched : ∀ t, (raiseEntered r t).flt = { t.flt with sites := (raiseEntered r t).flt.sites } := fun t => by
    unfold raiseEntered
    split <;> rfl
  have hcounts : (raiseEntered r (raiseLatched r rest s)).flt.raises = s.flt.raises + 1 ∧
      (raiseEntered r (raiseLatched r rest s)).flt.inFlight = rest ∧
      (raiseEntered r (raiseLatched r rest s)).flt.latch = (raiseLatched r rest s).flt.latch := by
    rw [hlatched]
    refine ⟨?_, ?_, rfl⟩ <;> rw [raiseLatched, latchBit_flt] <;> rfl
  have hat := siteAt_raiseEntered r (raiseLatched r rest s)
  have hbeside := (beside_raiseLatched (r := r) (rest := rest) s).trans (beside_raiseEntered r _)
  rw [raisedSite_congr (raiseLatched_sites s) (raiseLatched_now s)] at hat
  have hbit : r.bit < 64 → (raiseLatched r rest s).flt.latch.getLsbD r.bit = true := latchBit_latched r.bit _
  generalize raiseEntered r (raiseLatched r rest s) = v at hcounts hat hbeside
  obtain ⟨hraises, hflight, hlatch⟩ := hcounts
  rw [← hlatch] at hbit
  unfold raiseLogged
  split
  case isTrue =>
    refine ⟨⟨?_, ?_, ?_, fun _ => kilnEvent_head _ _ _ _ _⟩, ?_, hbeside.trans (beside_kilnEvent _ _ _ _ _)⟩
    · rw [kilnEvent_flt_raises, hraises]
    · rw [kilnEvent_flt_inFlight, hflight]
    · rw [kilnEvent_flt_latch]; exact hbit
    · exact (siteAt_of_sites (kilnEvent_flt_sites ..)).trans hat
  case isFalse h =>
    rw [Bool.or_eq_true, not_or] at h
    exact ⟨⟨hraises, hflight, hbit, fun hnew => absurd hnew h.1⟩, hat, hbeside⟩

/-- A raise whose site has an entry, or room for one, is counted there before its site follows its rule. -/
theorem takeRaise_follows (h : (siteAt s r.bit r.kind r.index).isSome = true ∨ s.flt.sites.length < 1024) :
    ∃ u, takeRaise r (modFlt (fun f => { f with inFlight := rest }) s) = followSite (raisedSite s r) u ∧ raiseCounted s r rest u :=
  ⟨_, takeRaise_eq h, raiseCounted_arrives r rest s⟩

/-! ### What a site does after its raise (R434) -/

/-- A site is to escalate: its raises exceed the limit, or its containment overran. -/
def beyondLimit (s : State) (x : Site) : Prop := (policyOf s x.bit).repeatLimit < x.count ∨ x.overran = true

theorem evaluateSite_stays (h : insideFence s x = true ∨ ¬ beyondLimit s x) : evaluateSite x s = s := by
  rw [evaluateSite]
  refine if_neg fun hx => ?_
  simp only [Bool.and_eq_true, Bool.not_eq_true', Bool.or_eq_true, decide_eq_true_eq] at hx
  rcases h with h | h
  · simp [h] at hx
  · exact h hx.2

theorem evaluateSite_escalates (hin : insideFence s x = false) (h : beyondLimit s x) : evaluateSite x s = escalate x s := by
  rw [evaluateSite, if_pos]
  simp only [hin, Bool.not_false, Bool.true_and, Bool.or_eq_true, decide_eq_true_eq]
  exact h

/-- The level that an escalation asks for. -/
def nextLevel (x : Site) : Nat := if fenceOf x.bit = .device ∨ x.level = .fenced then 3 else 2

theorem escalate_eq (x : Site) (s : State) : escalate x s =
    if siteCap s x < nextLevel x then siteEvent 0x0E05 x [(1, nextLevel x)] s
    else if nextLevel x = 2 then fenceSite x s
    else deviceReset 2 (siteEvent 0x0E06 x [] (countEscalation x.bit s)) := by
  have hnext : (if fenceOf x.bit == .device || x.level == .fenced then 3 else 2) = nextLevel x := by simp [nextLevel]
  unfold escalate
  simp only [hnext, beq_iff_eq, gt_iff_lt]

theorem raiseCounted.inside (h : raiseCounted s r rest u) : insideFence u (raisedSite s r) = insideFence s (raisedSite s r) :=
  h.2.2.insideFence (raisedSite_siteIs s r)

theorem raiseCounted.beyond (h : raiseCounted s r rest u) : beyondLimit u (raisedSite s r) ↔ beyondLimit s (raisedSite s r) := by
  rw [beyondLimit, h.2.2.policyOf, beyondLimit]

theorem beyondLimit_raisedSite : beyondLimit s (raisedSite s r) ↔
    (policyOf s r.bit).repeatLimit < (raisedSite s r).count ∨ (raisedSite s r).overran = true := by
  rw [beyondLimit, (siteIs_iff.mp (raisedSite_siteIs s r)).1]

theorem followSite_still (hx : x.held = true ∨ insideFence s x = true) : followSite x s = s := by
  rw [followSite, if_pos (by simpa using hx)]

theorem followSite_evaluates (hheld : x.held = false) (hin : insideFence s x = false) (hms : (policyOf s x.bit).graceMs = 0) :
    followSite x s = evaluateSite x s := by
  simp [followSite, hheld, hin, hms]

/-- A site with a grace period of its policy gets one, unless it has one. -/
theorem followSite_graces (hat : siteAt s x.bit x.kind x.index = some x) (hheld : x.held = false) (hin : insideFence s x = false)
    (hms : (policyOf s x.bit).graceMs ≠ 0) : ∃ sites, followSite x s = modFlt (fun f => { f with sites := sites }) s ∧
      siteAt (followSite x s) x.bit x.kind x.index =
        some { x with grace := if x.grace.isNone then some (s.now + (policyOf s x.bit).graceMs * tMs) else x.grace } := by
  have hfollow : followSite x s = if x.grace.isNone then
      modSite x.bit x.kind x.index (fun v => { v with grace := some (s.now + (policyOf s x.bit).graceMs * tMs) }) s else s := by
    simp [followSite, hheld, hin, hms, graceFrom]
  rw [hfollow]
  split
  case isTrue h =>
    refine ⟨_, rfl, ?_⟩
    rw [siteAt_modSite (by exact fun _ hy => hy), hat]
    rfl
  case isFalse h => exact ⟨s.flt.sites, rfl, hat⟩

end

section

variable {r : Raise} {rest : List Raise} {s : State}

theorem faultRaise_exec (h : s.flt.inFlight = r :: rest) :
    exec .faultRaise s = .next (takeRaise r (modFlt (fun f => { f with inFlight := rest }) s)) := by
  change execFaultRaise s = _
  simp only [execFaultRaise, h]

/-- A raise that is counted and changes nothing more. -/
theorem faultRaise_stays (hflight : s.flt.inFlight = r :: rest)
    (hroom : (siteAt s r.bit r.kind r.index).isSome = true ∨ s.flt.sites.length < 1024)
    (hstay : ∀ u, raiseCounted s r rest u → followSite (raisedSite s r) u = u) :
    Completes .faultRaise s fun t => raiseTaken s r rest t ∧ siteAt t r.bit r.kind r.index = some (raisedSite s r) := by
  obtain ⟨u, hu, hcounted⟩ := takeRaise_follows (rest := rest) hroom
  refine ⟨_, faultRaise_exec hflight, ?_⟩
  rw [hu, hstay u hcounted]
  exact ⟨hcounted.1, hcounted.2.1⟩

theorem faultRaise_graces (hflight : s.flt.inFlight = r :: rest)
    (hroom : (siteAt s r.bit r.kind r.index).isSome = true ∨ s.flt.sites.length < 1024) (hheld : (raisedSite s r).held = false)
    (hin : insideFence s (raisedSite s r) = false) (hms : (policyOf s r.bit).graceMs ≠ 0) :
    Completes .faultRaise s fun t => raiseTaken s r rest t ∧ siteAt t r.bit r.kind r.index = some { raisedSite s r with
      grace := if (raisedSite s r).grace.isNone then some (s.now + (policyOf s r.bit).graceMs * tMs) else (raisedSite s r).grace } := by
  obtain ⟨u, hu, hcounted⟩ := takeRaise_follows (rest := rest) hroom
  obtain ⟨htaken, hat, hbeside⟩ := hcounted
  refine ⟨_, faultRaise_exec hflight, ?_⟩
  rw [hu]
  obtain ⟨hbit, hkind, hindex⟩ := siteIs_iff.mp (raisedSite_siteIs s r)
  have hpolicy := hbeside.policyOf r.bit
  have hin : insideFence u (raisedSite s r) = false := (hbeside.insideFence (raisedSite_siteIs s r)).trans hin
  generalize raisedSite s r = x at hbit hkind hindex hat hin hheld
  rw [← hbit] at hpolicy hms
  rw [← hbit, ← hkind, ← hindex] at hat ⊢
  obtain ⟨sites, hsites, hgrace⟩ := followSite_graces hat hheld hin (hpolicy ▸ hms)
  rw [hpolicy, hbeside.now] at hgrace
  exact ⟨by rw [hsites]; exact htaken, hgrace⟩

theorem faultRaise_fences (hflight : s.flt.inFlight = r :: rest)
    (hroom : (siteAt s r.bit r.kind r.index).isSome = true ∨ s.flt.sites.length < 1024) (hheld : (raisedSite s r).held = false)
    (hin : insideFence s (raisedSite s r) = false) (hms : (policyOf s r.bit).graceMs = 0) (hbeyond : beyondLimit s (raisedSite s r))
    (hdevice : fenceOf (raisedSite s r).bit ≠ .device) (hlevel : (raisedSite s r).level ≠ .fenced) (hcap : 2 ≤ siteCap s (raisedSite s r)) :
    Completes .faultRaise s fun t => (siteAt t r.bit r.kind r.index).map Site.level = some .fenced ∧ t.flt.raises = s.flt.raises + 1 := by
  obtain ⟨u, hu, hcounted⟩ := takeRaise_follows (rest := rest) hroom
  refine ⟨_, faultRaise_exec hflight, ?_⟩
  rw [hu]
  have hbeyond := hcounted.beyond.mpr hbeyond
  have hin := hcounted.inside.trans hin
  obtain ⟨⟨hraises, -⟩, hat, hbeside⟩ := hcounted
  have hcap := hbeside.siteCap (raisedSite s r) ▸ hcap
  obtain ⟨hbit, hkind, hindex⟩ := siteIs_iff.mp (raisedSite_siteIs s r)
  have hpolicy := (hbeside.policyOf r.bit).symm ▸ hms
  generalize raisedSite s r = x at *
  rw [← hbit] at hpolicy
  rw [← hbit, ← hkind, ← hindex] at hat ⊢
  have hnext : nextLevel x = 2 := if_neg (by simp [hdevice, hlevel])
  rw [followSite_evaluates hheld hin hpolicy, evaluateSite_escalates hin hbeyond, escalate_eq, hnext, if_neg (not_lt.mpr hcap), if_pos rfl]
  obtain ⟨hfenced, hsame⟩ := fenceSite_fences hat
  exact ⟨hfenced, hsame.trans hraises⟩

/-- A raise of a new site that finds the table full leaves the sites (R440). -/
theorem faultRaise_full (hflight : s.flt.inFlight = r :: rest) (hnew : (siteAt s r.bit r.kind r.index).isNone = true)
    (hfull : 1024 ≤ s.flt.sites.length) : Completes .faultRaise s fun t => t.flt.sites = s.flt.sites ∧ logged 0x0E09 t ∧
      (r.bit ≠ 62 → raisedLast 62 0 0 t) := by
  have hat : siteAt (raiseLatched r rest s) r.bit r.kind r.index = siteAt s r.bit r.kind r.index := siteAt_of_sites (raiseLatched_sites s)
  have htake : takeRaise r (modFlt (fun f => { f with inFlight := rest }) s) = tableFull r (raiseLatched r rest s) := by
    unfold takeRaise
    dsimp only
    rw [hat, hnew, if_pos (by rw [raiseLatched_sites]; simpa using hfull)]
  refine ⟨_, faultRaise_exec hflight, ?_⟩
  rw [htake, tableFull]
  obtain ⟨u, hu⟩ : ∃ u, kilnEvent 0x0E09 r.bit r.injected (pack [(1, r.kind), (4, r.index)]) (raiseLatched r rest s) = u := ⟨_, rfl⟩
  have hsites : u.flt.sites = s.flt.sites := by rw [← hu, kilnEvent_flt_sites, raiseLatched_sites]
  have hlogged : logged 0x0E09 u := hu ▸ kilnEvent_head _ _ _ _ _
  rw [hu]
  split
  case isTrue h => exact ⟨hsites, hlogged, fun hne => absurd (by simpa using h) hne⟩
  case isFalse =>
    refine ⟨(raiseFault_flt_sites ..).trans hsites, ?_, fun _ => raisedLast_raiseFault _ _ _ _ _⟩
    unfold logged
    rw [raiseFault_flt_kiln]
    exact hlogged

end

/-! ### Grace periods and quiet sites (R434, R439) -/

section

variable {b : Fin 63} {k i g : Nat} {x : Site} {s : State}

/-- The grace period of a site has ended. -/
def graceEnded (b k i g : Nat) (s : State) : State := modSite b k i (fun v => { v with grace := none }) (reach g s)

theorem siteAt_graceEnded (h : siteAt s b.val k i = some x) : siteAt (graceEnded b k i g s) b k i = some { x with grace := none } := by
  have hreach : siteAt (reach g s) b k i = some x := h
  rw [graceEnded, siteAt_modSite (by exact fun _ hy => hy), hreach]
  rfl

theorem graceExpiry_exec (hat : siteAt s b.val k i = some x) (hgrace : x.grace = some g) : exec (.graceExpiry b k i) s =
    .next (modSite b k i (fun v => { v with count := 0, overran := false }) (evaluateSite { x with grace := none } (graceEnded b k i g s))) := by
  change execGraceExpiry b k i s = _
  simp only [execGraceExpiry, hat, hgrace]
  rfl

/-- What the rules of a site read once its grace period has ended, beside its entry and the time. -/
theorem insideFence_graceEnded (h : siteAt s b.val k i = some x) :
    insideFence (graceEnded b k i g s) { x with grace := none } = insideFence s x := by
  have hsite : siteIs b k i { x with grace := none } = true := by
    have hx := siteIs_iff.mp (siteAt_siteIs h)
    exact siteIs_iff.mpr hx
  have hin : insideFence (graceEnded b k i g s) { x with grace := none } = insideFence (reach g s) { x with grace := none } :=
    (beside_modSite (by exact fun _ hy => hy) (reach g s)).insideFence hsite
  exact hin.trans rfl

theorem graceExpiry_stays (hat : siteAt s b.val k i = some x) (hgrace : x.grace = some g) (h : insideFence s x = true ∨ ¬ beyondLimit s x) :
    Completes (.graceExpiry b k i) s fun t => g ≤ t.now ∧
      siteAt t b.val k i = some { x with grace := none, count := 0, overran := false } := by
  refine ⟨_, graceExpiry_exec hat hgrace, ?_⟩
  rw [evaluateSite_stays (h.imp (insideFence_graceEnded hat).trans id)]
  refine ⟨le_reach_now g s, ?_⟩
  rw [siteAt_modSite (by exact fun _ hy => hy), siteAt_graceEnded hat]
  rfl

/-- What evaluating an expired site beyond its limit does, before its counts start anew. -/
theorem graceExpiry_escalates (hat : siteAt s b.val k i = some x) (hgrace : x.grace = some g) (hin : insideFence s x = false)
    (hbeyond : beyondLimit s x) : exec (.graceExpiry b k i) s =
    .next (modSite b k i (fun v => { v with count := 0, overran := false }) (escalate { x with grace := none } (graceEnded b k i g s))) := by
  rw [graceExpiry_exec hat hgrace, evaluateSite_escalates ((insideFence_graceEnded hat).trans hin) hbeyond]

theorem graceExpiry_capped (hat : siteAt s b.val k i = some x) (hgrace : x.grace = some g) (hin : insideFence s x = false)
    (hbeyond : beyondLimit s x) (hcap : siteCap s x < nextLevel x) : Completes (.graceExpiry b k i) s fun t =>
      g ≤ t.now ∧ logged 0x0E05 t ∧ (siteAt t b.val k i).map Site.level = some x.level := by
  refine ⟨_, graceExpiry_escalates hat hgrace hin hbeyond, ?_⟩
  rw [escalate_eq, if_pos (show siteCap (graceEnded b k i g s) { x with grace := none } < nextLevel { x with grace := none } from hcap)]
  refine ⟨?_, kilnEvent_head _ _ _ _ _, ?_⟩
  · change g ≤ (siteEvent _ _ _ (graceEnded b k i g s)).now
    rw [siteEvent, kilnEvent_now]
    exact le_reach_now g s
  · rw [siteAt_modSite (by exact fun _ hy => hy), siteEvent, siteAt_of_sites (kilnEvent_flt_sites ..), siteAt_graceEnded hat]
    rfl

theorem graceExpiry_fences (hat : siteAt s b.val k i = some x) (hgrace : x.grace = some g) (hin : insideFence s x = false)
    (hbeyond : beyondLimit s x) (hcap : nextLevel x ≤ siteCap s x) (hnext : nextLevel x = 2) : Completes (.graceExpiry b k i) s fun t =>
      (siteAt t b.val k i).map Site.level = some .fenced := by
  refine ⟨_, graceExpiry_escalates hat hgrace hin hbeyond, ?_⟩
  have hended := siteAt_graceEnded (g := g) hat
  obtain ⟨hbit, hkind, hindex⟩ := siteIs_iff.mp (siteAt_siteIs hat)
  rw [escalate_eq, if_neg (show ¬ siteCap (graceEnded b k i g s) { x with grace := none } < nextLevel { x with grace := none } from not_lt.mpr hcap),
    if_pos (show nextLevel { x with grace := none } = 2 from hnext)]
  beta_reduce
  rw [siteAt_modSite (by exact fun _ hy => hy), Option.map_map]
  rw [← hbit, ← hkind, ← hindex] at hended ⊢
  exact (fenceSite_fences (x := { x with grace := none }) hended).1

theorem graceExpiry_resets (hat : siteAt s b.val k i = some x) (hgrace : x.grace = some g) (hin : insideFence s x = false)
    (hbeyond : beyondLimit s x) (hcap : nextLevel x ≤ siteCap s x) (hnext : nextLevel x = 3) : Completes (.graceExpiry b k i) s fun t =>
      t.boot.cause = 2 ∧ t.boot.stage = .bisque ∧ t.flt.sites = [] := by
  refine ⟨_, graceExpiry_escalates hat hgrace hin hbeyond, ?_⟩
  rw [escalate_eq, if_neg (show ¬ siteCap (graceEnded b k i g s) { x with grace := none } < nextLevel { x with grace := none } from not_lt.mpr hcap),
    if_neg (show ¬ nextLevel { x with grace := none } = 2 from by rw [show nextLevel { x with grace := none } = 3 from hnext]; decide)]
  exact ⟨rfl, rfl, rfl⟩

theorem quietExpiry_recovers (hat : siteAt s b.val k i = some x) (hlevel : x.level = .contained) : Completes (.quietExpiry b k i) s fun t =>
    siteAt t b.val k i = none ∧ logged 0x0E03 t ∧ x.last + (policyOf s b.val).quietMs * tMs ≤ t.now ∧
      ∀ b' k' i', (b', k', i') ≠ (b.val, k, i) → siteAt t b' k' i' = siteAt s b' k' i' := by
  have hexec : ∃ stats d, exec (.quietExpiry b k i) s = .next (siteEvent 0x0E03 x d (modFlt (fun f => { f with stats := stats })
      (dropSite b k i (reach (x.last + (policyOf s b.val).quietMs * tMs) s)))) := by
    have hstay : (x.level != .contained) = false := by rw [hlevel]; rfl
    refine ⟨tabMod {} b.val (fun v => { v with recoveries := satAdd 32 (tabGet {} s.flt.stats b.val).recoveries 1 }) s.flt.stats,
      [(4, satAdd 32 (tabGet {} s.flt.stats b.val).recoveries 1)], ?_⟩
    change execQuietExpiry b k i s = _
    simp only [execQuietExpiry, hat, hstay, Bool.false_eq_true, if_false]
    rfl
  obtain ⟨stats, d, hexec⟩ := hexec
  have hsites : ∀ b' k' i' n d (u : State), siteAt (siteEvent n x d u) b' k' i' = siteAt u b' k' i' := fun _ _ _ _ _ _ =>
    siteAt_of_sites (kilnEvent_flt_sites ..)
  refine ⟨_, hexec, (hsites _ _ _ _ _ _).trans (siteAt_dropSite _), kilnEvent_head _ _ _ _ _, ?_, fun b' k' i' hne => ?_⟩
  · rw [siteEvent, kilnEvent_now]
    exact le_reach_now _ s
  · exact (hsites _ _ _ _ _ _).trans (siteAt_dropSite_ne hne _)

end

/-- Settles O41, by the entry of a raised site, followed through its rule: it stays, gets a grace period, is fenced or finds no room; the end of
a grace period evaluates the entry again, and a quiet site leaves the table. The order in which raises arrive is that of the premise (the model's
choice, assumption 113). -/
theorem sitesFollowTheirLevels : Obligations.SitesFollowTheirLevels := by
  intro b k i s
  refine ⟨fun r rest hflight => ⟨fun hroom => ⟨fun hstill => ?_, fun hheld hin =>
    ⟨fun hms => ?_, fun hms hbeyond => ?_, fun hms hbeyond => ?_⟩⟩, faultRaise_full hflight⟩, fun x g hat hgrace => ⟨graceExpiry_stays hat hgrace, fun hin hbeyond => ⟨?_, ?_, ?_⟩⟩,
    fun x hat hlevel => quietExpiry_recovers hat hlevel⟩
  · exact faultRaise_stays hflight hroom fun u hu => followSite_still (hstill.imp id hu.inside.trans)
  · exact faultRaise_graces hflight hroom hheld hin hms
  · refine faultRaise_stays hflight hroom fun u hu => ?_
    have hbit : (raisedSite s r).bit = r.bit := (siteIs_iff.mp (raisedSite_siteIs s r)).1
    rw [followSite_evaluates hheld (hu.inside.trans hin) (by rw [hbit, hu.2.2.policyOf, hms])]
    exact evaluateSite_stays (.inr (hu.beyond.not.mpr (beyondLimit_raisedSite.not.mpr hbeyond)))
  · exact faultRaise_fences hflight hroom hheld hin hms (beyondLimit_raisedSite.mpr hbeyond)
  · exact graceExpiry_capped hat hgrace hin hbeyond
  · exact graceExpiry_fences hat hgrace hin hbeyond
  · exact graceExpiry_resets hat hgrace hin hbeyond

end Sys2Proof.Proofs
end

section
/-!
PROOFS. Registers and commands of the fault collector (O42): the fault word, the latched halves, the kiln window, policies, actions and what the
reads answer (R431, R436 to R438, R449, R450).
-/

namespace Sys2Proof.Proofs

open Sys2Proof Sys2Proof.Machine Sys2Proof.Laws

/-! ### Registers (R431, R449) -/

section

variable {lo hi : Option (BitVec 32)} {v : BitVec 32} {off x : Nat} {s : State}

theorem fltLatchWrite_clears (h : barLive s = true) : Completes (.fltLatchWrite lo hi) s fun t =>
    t.flt.latch = s.flt.latch &&& ~~~(withHalves 0 lo hi) ∧ t.flt.alertEn = s.flt.alertEn := by
  refine ⟨noteAlert (alertOn s) (modFlt (fun f => { f with latch := f.latch &&& ~~~(withHalves 0 lo hi) }) s), ?_, ?_⟩
  · change execFltLatchWrite lo hi s = _
    simp [execFltLatchWrite, h]
  · beta_reduce
    rw [noteAlert_flt]
    exact ⟨rfl, rfl⟩

theorem fltAlertEnWrite_writes (h : barLive s = true) : Completes (.fltAlertEnWrite lo hi) s fun t =>
    t.flt.alertEn = withHalves s.flt.alertEn lo hi ∧ t.flt.latch = s.flt.latch := by
  refine ⟨noteAlert (alertOn s) (modFlt (fun f => { f with alertEn := withHalves f.alertEn lo hi }) s), ?_, ?_⟩
  · change execFltAlertEnWrite lo hi s = _
    simp [execFltAlertEnWrite, h]
  · beta_reduce
    rw [noteAlert_flt]
    exact ⟨rfl, rfl⟩

theorem fltWrites_ignored (h : barLive s = false) : Completes (.fltLatchWrite lo hi) s (fun t => t = s) ∧
    Completes (.fltAlertEnWrite lo hi) s (fun t => t = s) := by
  refine ⟨⟨s, ?_, rfl⟩, s, ?_, rfl⟩
  · change execFltLatchWrite lo hi s = _
    simp [execFltLatchWrite, h]
  · change execFltAlertEnWrite lo hi s = _
    simp [execFltAlertEnWrite, h]

theorem klnCursorWrite_writes (h : barLive s = true) : Completes (.klnCursorWrite v) s fun t =>
    t.flt.cursor = v &&& 0x7FFF ∧ t.flt.latching = true ∧ t.flt.kiln = s.flt.kiln := by
  refine ⟨modFlt (fun f => { f with cursor := v &&& 0x7FFF, latching := true }) s, ?_, rfl, rfl, rfl⟩
  change execKlnCursorWrite v s = _
  simp [execKlnCursorWrite, h]

theorem klnWindowLatched_latches (h : s.flt.latching = true) : Completes .klnWindowLatched s fun t =>
    t.flt.latching = false ∧ t.flt.window.length = 4096 ∧
      t.flt.window = slice (((s.flt.kiln.reverse.drop s.flt.cursor.toNat).take 128).flatMap recordBytes) 0 4096 :=
  ⟨_, if_pos h, rfl, slice_length _ _ _, rfl⟩

theorem reg64LowHalfRead_latches (h : barLive s = true) (hreg : reg64 s off = some x) : Completes (.reg64LowHalfRead off false) s fun t =>
    t.out = .barRead (x % 2 ^ 32) :: s.out ∧ tabFind t.flt.halfLatch off = some (BitVec.ofNat 32 (x / 2 ^ 32)) := by
  refine ⟨emit (.barRead (x % 4294967296))
    (modFlt (fun f => { f with halfLatch := tabPut off (BitVec.ofNat 32 (x / 4294967296)) f.halfLatch }) s), ?_, rfl, tabFind_put _ _ _⟩
  change execReg64LowHalfRead off false s = _
  simp [execReg64LowHalfRead, h, hreg]

theorem reg64HighHalfRead_answers (h : barLive s = true) (hreg : reg64 s off = some x) : Completes (.reg64LowHalfRead off true) s fun t =>
    tabFind t.flt.halfLatch off = none ∧
      t.out = .barRead ((tabFind s.flt.halfLatch off).getD (BitVec.ofNat 32 (x / 2 ^ 32))).toNat :: s.out := by
  refine ⟨emit (.barRead ((tabFind s.flt.halfLatch off).getD (BitVec.ofNat 32 (x / 4294967296))).toNat)
    (modFlt (fun f => { f with halfLatch := tabDel off f.halfLatch }) s), ?_, tabFind_del _ _, rfl⟩
  change execReg64LowHalfRead off true s = _
  simp [execReg64LowHalfRead, h, hreg]

end

/-! ### Policies (R436) -/

section

variable {c : Cmd} {s : State}

/-- The policy of one fault bit is written. -/
def setPolicy (v : Policy) (k : Nat) (s : State) : State := modFlt (fun f => { f with policy := tabSet (policyDefault k) k v f.policy }) s

theorem policyOf_setPolicy (v : Policy) (k : Nat) (s : State) : policyOf (setPolicy v k s) k = v := tabGet_set (policyDefault k) _ _ _

theorem policyOf_setPolicy_ne (v : Policy) (s : State) {k j : Nat} (h : j ≠ k) : policyOf (setPolicy v k s) j = policyOf s j := by
  have hother := tabFind_put_ne v s.flt.policy h
  have hgone := tabFind_del_ne s.flt.policy h
  unfold policyOf setPolicy modFlt tabSet
  split
  · simp [hgone]
  · simp [hother]

/-- The policy that a FAULT_POLICY write gives. -/
def givenPolicy (b : Bytes) : Policy := { maxLevel := u8 b 8, flags := u8 b 9, repeatLimit := u16 b 10, graceMs := u16 b 12, quietMs := u16 b 14 }

theorem faultPolicyWrite_writes : Writes opFaultPolicyWrite c (.faultPolicyWrite c) s fun t => ∀ k, k < 63 →
    policyOf t k = if bit (policyBits (given c s)) k = true then givenPolicy (given c s) else policyOf s k := by
  refine writes_of rfl fun _ => ⟨forMask 63 (policyBits (given c s)) (setPolicy (givenPolicy (given c s))) (takenState c s), rfl, ?_,
    fun k hk => ?_⟩
  · exact foldl_keeps (fun t : State => t.host.ended) (op := fun t k => setPolicy (givenPolicy (given c s)) k t) fun _ _ _ => rfl
  · have hplaces := forMask_places (op := setPolicy (givenPolicy (given c s))) (val := fun _ => givenPolicy (given c s))
      (fun s k => policyOf_setPolicy _ k s) (fun s _ _ h => policyOf_setPolicy_ne _ s h) 63 (policyBits (given c s)) (takenState c s) k
    simp only [hk, true_and] at hplaces
    exact hplaces

end

/-! ### Actions (R437) -/

section

variable {c : Cmd} {x : Site} {f : State → State} {s : State} {P : State → Prop}

/-- An action is logged before it is done. -/
def actionLogged (c : Cmd) (s : State) : State :=
  kilnEvent 0x0E04 (u8 (given c s) 0) false (pack [(1, u8 (given c s) 2), (4, u32 (given c s) 4), (1, u8 (given c s) 1), (1, c.slot.val)])
    (takenState c s)

theorem actionLogged_logged (c : Cmd) (s : State) : logged 0x0E04 (actionLogged c s) := kilnEvent_head _ _ _ _ _

theorem actionLogged_sites (c : Cmd) (s : State) : (actionLogged c s).flt.sites = s.flt.sites := kilnEvent_flt_sites _ _ _ _ _

theorem actionLogged_ended (c : Cmd) (s : State) : (actionLogged c s).host.ended = s.host.ended := by rw [actionLogged, kilnEvent_host]; rfl

theorem beside_actionLogged (b k i : Nat) (c : Cmd) (s : State) : Beside b k i s (actionLogged c s) :=
  (show Beside b k i s (takenState c s) from ⟨rfl, rfl, rfl, rfl⟩).trans (beside_kilnEvent _ _ _ _ _)

theorem siteAt_actionLogged (h : siteAt s (u8 (given c s) 0) (u8 (given c s) 2) (u32 (given c s) 4) = some x) :
    siteAt (actionLogged c s) x.bit x.kind x.index = some x := by
  obtain ⟨hbit, hkind, hindex⟩ := siteIs_iff.mp (siteAt_siteIs h)
  rw [siteAt_of_sites (actionLogged_sites c s), hbit, hkind, hindex, h]

theorem siteAt_endCommand (e : Ended) (s : State) (b k i : Nat) : siteAt (endCommand e s) b k i = siteAt s b k i := siteAt_of_sites rfl

/-- An action that the named site permits is done once it is logged. -/
theorem faultAction_exec (hpass : passes opFaultAction c s = true) (hclear : u8 (given c s) 1 ≠ 1)
    (hfence : u8 (given c s) 1 = 4 → fenceOf (u8 (given c s) 0) ≠ .none ∧ fenceOf (u8 (given c s) 0) ≠ .device)
    (hat : siteAt s (u8 (given c s) 0) (u8 (given c s) 2) (u32 (given c s) 4) = some x)
    (hact : ∀ u, actOnSite (u8 (given c s) 1) x u = okWrite (f u)) : exec (.faultAction c) s =
    .next (endCommand (endedOf opFaultAction (effectiveCmd c s) .ok [] [] false) (f (actionLogged c s))) := by
  refine (rfl : exec (.faultAction c) s = execFaultAction c s).trans (congrArg _ (icoux_done hpass (u := f (actionLogged c s)) ?_))
  have hnone : ¬ (u8 (given c s) 1 == 4 && (fenceOf (u8 (given c s) 0) == .none || fenceOf (u8 (given c s) 0) == .device)) = true := by
    simp only [Bool.and_eq_true, Bool.or_eq_true, beq_iff_eq]
    exact fun h => h.2.elim (hfence h.1).1 (hfence h.1).2
  have hat : siteAt (takenState c s) (u8 (given c s) 0) (u8 (given c s) 2) (u32 (given c s) 4) = some x := hat
  dsimp only
  rw [if_neg (by simpa using hclear), if_neg hnone]
  simp only [hat, hact]
  rfl

theorem faultAction_writes (hclear : u8 (given c s) 1 ≠ 1)
    (hfence : u8 (given c s) 1 = 4 → fenceOf (u8 (given c s) 0) ≠ .none ∧ fenceOf (u8 (given c s) 0) ≠ .device)
    (hat : siteAt s (u8 (given c s) 0) (u8 (given c s) 2) (u32 (given c s) 4) = some x)
    (hact : ∀ u, actOnSite (u8 (given c s) 1) x u = okWrite (f u)) (hended : ∀ u, (f u).host.ended = u.host.ended)
    (hP : ∀ e, P (endCommand e (f (actionLogged c s)))) : Writes opFaultAction c (.faultAction c) s P := fun hpass =>
  ⟨_, faultAction_exec hpass hclear hfence hat hact, answered_endCommand ((hended _).trans (actionLogged_ended c s)) rfl rfl, hP _⟩

theorem actOnSite_permits (hlevel : x.level ≠ .fenced) (s : State) :
    actOnSite 2 x s = okWrite (modSite x.bit x.kind x.index (fun v => { v with held := true, grace := none }) s) ∧
      actOnSite 3 x s = okWrite (releaseSite x s) ∧ actOnSite 4 x s = okWrite (fenceSite x s) := by
  have h : ¬ (x.level == .fenced) = true := by simpa using hlevel
  exact ⟨if_neg h, if_neg h, if_neg h⟩

theorem faultAction_clears (h : u8 (given c s) 1 = 1) : Writes opFaultAction c (.faultAction c) s fun t =>
    t.flt.latch = s.flt.latch &&& ~~~(BitVec.ofNat 64 (2 ^ u8 (given c s) 0)) ∧ logged 0x0E04 t ∧ t.flt.sites = s.flt.sites := by
  refine writes_of rfl fun _ => ⟨noteAlert (alertOn (takenState c s)) (modFlt (fun f => { f with
    latch := f.latch &&& ~~~(BitVec.ofNat 64 (2 ^ u8 (given c s) 0)) }) (actionLogged c s)), ?_, ?_, ?_⟩
  · dsimp only
    rw [if_pos (by simpa using h)]
    rfl
  · exact (noteAlert_ended _ _).trans (actionLogged_ended c s)
  · simp only [logged, endCommand_flt, noteAlert_flt]
    refine ⟨?_, actionLogged_logged c s, actionLogged_sites c s⟩
    exact congrArg (· &&& _) (kilnEvent_flt_latch _ _ _ _ _)

theorem faultAction_holds (hat : siteAt s (u8 (given c s) 0) (u8 (given c s) 2) (u32 (given c s) 4) = some x) (h : u8 (given c s) 1 = 2)
    (hlevel : x.level ≠ .fenced) : Writes opFaultAction c (.faultAction c) s fun t =>
      siteAt t (u8 (given c s) 0) (u8 (given c s) 2) (u32 (given c s) 4) = some { x with held := true, grace := none } ∧ logged 0x0E04 t := by
  refine faultAction_writes (f := modSite x.bit x.kind x.index fun v => { v with held := true, grace := none }) (by rw [h]; decide)
    (fun h4 => absurd (h.symm.trans h4) (by decide)) hat (fun u => h ▸ (actOnSite_permits hlevel u).1) (fun _ => rfl) fun e =>
    ⟨?_, actionLogged_logged c s⟩
  obtain ⟨hbit, hkind, hindex⟩ := siteIs_iff.mp (siteAt_siteIs hat)
  rw [← hbit, ← hkind, ← hindex, siteAt_endCommand, siteAt_modSite (by exact fun _ hy => hy), siteAt_actionLogged hat]
  rfl

theorem releaseSite_graces (h : (policyOf s x.bit).graceMs ≠ 0) : releaseSite x s =
    modSite x.bit x.kind x.index (fun v => { v with held := false, grace := some (s.now + (policyOf s x.bit).graceMs * tMs) }) s := by
  simp [releaseSite, graceFrom, h]

theorem faultAction_releases (hat : siteAt s (u8 (given c s) 0) (u8 (given c s) 2) (u32 (given c s) 4) = some x) (h : u8 (given c s) 1 = 3)
    (hlevel : x.level ≠ .fenced) (hms : (policyOf s x.bit).graceMs ≠ 0) : Writes opFaultAction c (.faultAction c) s fun t =>
      logged 0x0E04 t ∧ siteAt t (u8 (given c s) 0) (u8 (given c s) 2) (u32 (given c s) 4) =
        some { x with held := false, grace := some (s.now + (policyOf s x.bit).graceMs * tMs) } := by
  have hbeside := beside_actionLogged x.bit x.kind x.index c s
  have hpolicy := hbeside.policyOf x.bit
  have hnow := hbeside.now
  have hrelease := releaseSite_graces (s := actionLogged c s) (x := x) (by rw [hpolicy]; exact hms)
  rw [hpolicy, hnow] at hrelease
  intro hpass
  refine ⟨_, faultAction_exec (f := releaseSite x) hpass (by rw [h]; decide) (fun h4 => absurd (h.symm.trans h4) (by decide)) hat
    (fun u => h ▸ (actOnSite_permits hlevel u).2.1), ?_⟩
  rw [hrelease]
  refine ⟨answered_endCommand (actionLogged_ended c s) rfl rfl, actionLogged_logged c s, ?_⟩
  obtain ⟨hbit, hkind, hindex⟩ := siteIs_iff.mp (siteAt_siteIs hat)
  rw [← hbit, ← hkind, ← hindex, siteAt_endCommand, siteAt_modSite (by exact fun _ hy => hy), siteAt_actionLogged hat]
  rfl

theorem faultAction_fences (hat : siteAt s (u8 (given c s) 0) (u8 (given c s) 2) (u32 (given c s) 4) = some x) (h : u8 (given c s) 1 = 4)
    (hlevel : x.level ≠ .fenced) (hnone : fenceOf (u8 (given c s) 0) ≠ .none) (hdevice : fenceOf (u8 (given c s) 0) ≠ .device)
    (hpass : passes opFaultAction c s = true) : Completes (.faultAction c) s fun t =>
      (siteAt t (u8 (given c s) 0) (u8 (given c s) 2) (u32 (given c s) 4)).map Site.level = some .fenced := by
  refine ⟨_, faultAction_exec hpass (by rw [h]; decide) (fun _ => ⟨hnone, hdevice⟩) hat 
    (f := fenceSite x) (fun u => h ▸ (actOnSite_permits hlevel u).2.2), ?_⟩
  obtain ⟨hbit, hkind, hindex⟩ := siteIs_iff.mp (siteAt_siteIs hat)
  rw [← hbit, ← hkind, ← hindex]
  exact (fenceSite_fences (siteAt_actionLogged hat)).1

/-- An unfenced site is QUIET: sites that start anew stay where they are. -/
theorem siteAt_unfence (b k i : Nat) (s : State) : siteAt (unfence b k i s) b k i = none := by
  refine List.find?_eq_none.mpr fun y hy => ?_
  obtain ⟨z, hz, rfl⟩ := List.mem_map.mp hy
  have hz := (List.mem_filter.mp hz).2
  have hgone : ¬ siteIs b k i z = true := by simpa using hz
  split
  · exact fun h => hgone (siteIs_iff.mpr (siteIs_iff.mp h))
  · exact hgone

theorem faultAction_unfences (hat : siteAt s (u8 (given c s) 0) (u8 (given c s) 2) (u32 (given c s) 4) = some x) (h : u8 (given c s) 1 = 5)
    (hlevel : x.level = .fenced) : Writes opFaultAction c (.faultAction c) s fun t =>
      siteAt t (u8 (given c s) 0) (u8 (given c s) 2) (u32 (given c s) 4) = none ∧ logged 0x0E04 t := by
  have hact : ∀ u, actOnSite 5 x u = okWrite (unfence x.bit x.kind x.index u) := fun u => if_pos (by simpa using hlevel)
  refine faultAction_writes (f := unfence x.bit x.kind x.index) (by rw [h]; decide) (fun h4 => absurd (h.symm.trans h4) (by decide)) hat
    (fun u => h ▸ hact u) (fun _ => rfl) fun e => ⟨?_, actionLogged_logged c s⟩
  obtain ⟨hbit, hkind, hindex⟩ := siteIs_iff.mp (siteAt_siteIs hat)
  rw [← hbit, ← hkind, ← hindex]
  exact siteAt_unfence _ _ _ _

end

/-! ### What the commands answer (R438, R450) -/

section

variable {c : Cmd} {s : State}

theorem siteEntry_takenState (c : Cmd) (s : State) : siteEntry (takenState c s) = siteEntry s := rfl

/-- FAULT_SITES lists the entries in the order in which the sites left QUIET (the model's choice, assumption 116). -/
theorem faultSites_answers (h : passes opFaultSites c s = true) : Completes (.faultSites c) s fun t => (∀ p, p ≠ .host → Same p s t) ∧
    answered opFaultSites c .ok (toLe 2 ((s.flt.sites.drop (u32 (given c s) 0)).take 256).length ++ toLe 2 s.flt.sites.length)
      (((s.flt.sites.drop (u32 (given c s) 0)).take 256).flatMap (siteEntry s)) s t := by
  obtain ⟨t, ht, hanswered, hsame⟩ := answers_of (i := .faultSites c) (u := takenState c s) (P := fun t => ∀ p, p ≠ .host → Same p s t)
    rfl h rfl rfl (same_of_host _)
  exact ⟨t, ht, hsame, siteEntry_takenState c s ▸ hanswered⟩

theorem kilnRead_answers (h : passes opKilnRead c s = true) : Completes (.kilnRead c) s fun t => (∀ p, p ≠ .host → Same p s t) ∧
    answered opKilnRead c .ok (toLe 2 (kilnRecords s (u16 (given c s) 0) (u16 (given c s) 2)).length)
      (kilnRecords s (u16 (given c s) 0) (u16 (given c s) 2)).flatten s t := by
  obtain ⟨t, ht, hanswered, hsame⟩ := answers_of (i := .kilnRead c) (u := takenState c s) (P := fun t => ∀ p, p ≠ .host → Same p s t)
    rfl h rfl rfl (same_of_host _)
  exact ⟨t, ht, hsame, hanswered⟩

/-- Behind the newest record an event leaves records that stood before it. -/
theorem kilnEvent_tail_subset (code fb : Nat) (inj : Bool) (d : Bytes) (s : State) :
    (kilnEvent code fb inj d s).flt.kiln.tail ⊆ s.flt.kiln := by
  unfold kilnEvent
  split
  · split
    · exact List.tail_subset s.flt.kiln
    · split
      · exact List.tail_subset s.flt.kiln
      · split <;> exact List.Subset.refl _
  · exact List.Subset.refl _

theorem kilnClear_clears (h : passes opKilnClear c s = true) : Completes (.kilnClear c) s fun t =>
    answered opKilnClear c .ok (toLe 4 (s.flt.kiln.filter fun r =>
      seqUpTo s.flt.nextSeq (BitVec.ofNat 32 (u32 (given c s) 0)) r.seq).length) [] s t ∧ logged 0x0E0B t ∧
    ∀ r ∈ t.flt.kiln.tail, r ∈ s.flt.kiln ∧ seqUpTo s.flt.nextSeq (BitVec.ofNat 32 (u32 (given c s) 0)) r.seq = false := by
  obtain ⟨upto, hupto⟩ : ∃ upto, BitVec.ofNat 32 (u32 (given c s) 0) = upto := ⟨_, rfl⟩
  have hcount : s.flt.kiln.length - (s.flt.kiln.filter fun r => !seqUpTo s.flt.nextSeq upto r.seq).length =
      (s.flt.kiln.filter fun r => seqUpTo s.flt.nextSeq upto r.seq).length := by
    rw [List.length_eq_length_filter_add (l := s.flt.kiln) fun r => seqUpTo s.flt.nextSeq upto r.seq, Nat.add_sub_cancel]
  rw [hupto, ← hcount]
  refine answers_of rfl h (u := kiln 0x0E0B [(4, u32 (given c s) 0), (4, _), (1, c.slot.val)] (modFlt (fun f => { f with
    kiln := s.flt.kiln.filter fun r => !seqUpTo s.flt.nextSeq upto r.seq
    newestIsLast := f.newestIsLast && !(s.flt.kiln.filter fun r => !seqUpTo s.flt.nextSeq upto r.seq).isEmpty }) (takenState c s)))
    (by rw [← hupto]; rfl) (by rw [kiln_host]; rfl) ⟨kiln_head _ _ _, fun r hr => ?_⟩
  have hkept := kilnEvent_tail_subset _ _ _ _ _ hr
  simpa using List.mem_filter.mp hkept

end

/-- Settles O42, by what each register access and each command does to the collector. A latched high half is read once (the model's choice,
assumption 144), and FAULT_SITES lists the sites in the order of the table (assumption 116). -/
theorem faultRegistersAndCommands : Obligations.FaultRegistersAndCommands := by
  refine ⟨fun lo hi v off s => ⟨fun h => ⟨fltLatchWrite_clears h, fltAlertEnWrite_writes h, klnCursorWrite_writes h, fun x hx =>
    ⟨reg64LowHalfRead_latches h hx, reg64HighHalfRead_answers h hx⟩⟩, fltWrites_ignored, klnWindowLatched_latches⟩, fun c s => ?_⟩
  refine ⟨faultPolicyWrite_writes, reads_of rfl fun _ => rfl, faultAction_clears, fun x hat => ⟨faultAction_holds hat, faultAction_releases hat,
    faultAction_fences hat, faultAction_unfences hat⟩, reads_of rfl fun _ => rfl, faultSites_answers, kilnRead_answers, kilnClear_clears⟩

end Sys2Proof.Proofs
end

end
